-- ==== Sys2Proof/Config.lean ====
section
/-!
DEFINITION. What one part or one implementation fixes, and the values the spec leaves open: constants without a body,
so no proof can see what they are. The functions that the spec takes from published standards (hash, cipher, signature)
are here too: the spec gives their inputs, sizes and names, and the standards lie outside spec/.
-/
namespace Sys2Proof.Config

/-- The HEAD_SEL strap (R52): which head of the pair this part is. -/
opaque strapHeadSel : Bool

/-- The NVM_MODE strap (R52). -/
opaque strapNvmMode : Bool

/-- GLB_SERIAL, fused at manufacture (R7). -/
opaque serial : BitVec 64

/-- GLB_IDENT ES, the engineering sample mark (R6). -/
opaque engineeringSample : Bool

/-- A value the spec leaves open after which the machine goes on. The argument is the model's own counter
State.freeCtr, which the step advances, so that two open values are unrelated. -/
opaque freeValue : Nat → BitVec 64

/-- SHA-256 of FIPS 180-4 (R412): 32 bytes. -/
opaque sha256 : List (BitVec 8) → List (BitVec 8)

/-- SHA-384 of FIPS 180-4 (R163, R412): 48 bytes. -/
opaque sha384 : List (BitVec 8) → List (BitVec 8)

/-- HMAC-SHA-256 of FIPS 198-1 under a key (R315): 32 bytes. -/
opaque hmacSha256 : List (BitVec 8) → List (BitVec 8) → List (BitVec 8)

/-- AES-256-XTS encryption of NIST SP 800-38E under two keys, a tweak and a data unit (R400). -/
opaque xtsEncrypt : List (BitVec 8) → List (BitVec 8) → BitVec 128 → List (BitVec 8) → List (BitVec 8)

/-- AES-256-XTS decryption, the inverse of xtsEncrypt (R400). -/
opaque xtsDecrypt : List (BitVec 8) → List (BitVec 8) → BitVec 128 → List (BitVec 8) → List (BitVec 8)

/-- AES-256-GCM of NIST SP 800-38D (R408): key, IV, AAD and plaintext give ciphertext and tag. -/
opaque gcmSeal : List (BitVec 8) → List (BitVec 8) → List (BitVec 8) → List (BitVec 8) →
    List (BitVec 8) × List (BitVec 8)

/-- AES-256-GCM decryption: key, IV, AAD, ciphertext and tag give the plaintext, or none when the tag fails (R410). -/
opaque gcmOpen : List (BitVec 8) → List (BitVec 8) → List (BitVec 8) → List (BitVec 8) → List (BitVec 8) →
    Option (List (BitVec 8))

/-- AES-256 KW of NIST SP 800-38F, wrapping (R393): wrapping key and key give 40 bytes. -/
opaque kwWrap : List (BitVec 8) → List (BitVec 8) → List (BitVec 8)

/-- AES-256 KW, unwrapping: none when the integrity check fails (R393, R396). -/
opaque kwUnwrap : List (BitVec 8) → List (BitVec 8) → Option (List (BitVec 8))

/-- ECDSA P-384 verification with SHA-384 of FIPS 186-5 (R163): public key, message, signature. -/
opaque ecdsaVerify : List (BitVec 8) → List (BitVec 8) → List (BitVec 8) → Bool

/-- ML-DSA-65 verification of FIPS 204 with an empty context (R163): public key, message, signature. -/
opaque mldsaVerify : List (BitVec 8) → List (BitVec 8) → List (BitVec 8) → Bool

/-- The SHA-384 digest of the Asermeth key pair of a slot, held in the boot ROM (R690). -/
opaque asermethDigest : Nat → List (BitVec 8)

/-- Unwrapping of a content key under FW_KEK, the fuse field of this part: none when the integrity check fails (R688, R689). -/
opaque fwUnwrap : List (BitVec 8) → Option (List (BitVec 8))

/-- The DRBG's n-th output of 32 bytes (R404). -/
opaque drbg : Nat → List (BitVec 8)

/-- ECDH P-384 (R591): the public value of an ephemeral private value. -/
opaque ecdhPublic : List (BitVec 8) → List (BitVec 8)

/-- ECDH P-384 (R591): the shared secret of a private value and the peer's public value. -/
opaque ecdhShared : List (BitVec 8) → List (BitVec 8) → List (BitVec 8)

/-- Signature with the identity key (R398, R591). -/
opaque identitySign : List (BitVec 8) → List (BitVec 8)

/-- The transport key that HKDF-SHA-384 derives from a shared secret (R591). -/
opaque pairKdf : List (BitVec 8) → List (BitVec 8)

/-- The head's identity public key, 24 words (R398). -/
opaque identityKey : List (BitVec 32)

/-- Field polynomial of GF(2^16) in the DRAM code, without its x^16 term; the spec does not give it (R599; log entry 93). -/
opaque dramFieldPoly : Nat

/-- AF(T) of R511 in units of 2^-16, rounded within the 0.5 percent that R511 allows: EA in meV, T_REF and T in
1/16 degC. The spec fixes the value only to that tolerance. -/
opaque accelFactor : Nat → Int → Int → Nat

/-- Highest layout format that the firmware of a VERSION reads, where that is the peer's: its IDENT carries the VERSION alone (R568,
R702). -/
opaque layoutMax : BitVec 32 → Nat

end Sys2Proof.Config
end

