-- ==== Sys2Proof/Types.lean ====
section
/-!
DEFINITION. The plain data the machine is made of: the named codes of the spec's tables and one structure for each
group of registers, tables and queues. Machine/State.lean puts them together. Every field's docstring ends with the
numbered rules of spec/ that name it; each structure has its value after CHIP_RST_L on a part that never ran beside it.
-/
namespace Sys2Proof

/-- Operating mode, coded in GLB_MODE.MODE (R36); the code is the constructor number. -/
inductive Mode where
  | starting
  | ready
  | maintenance
  | failstop
  | vault
  deriving DecidableEq, Repr

/-- State of one feed (R67), in code order. -/
inductive FeedState where
  | good
  | dip
  | swell
  | interrupted
  | freq
  | sensorFault
  deriving DecidableEq, Repr

/-- Reference state (R112), in code order. -/
inductive RefState where
  | freerun
  | lockedPtp
  | lockedPps
  | followPeer
  | holdover
  deriving DecidableEq, Repr

/-- Life-cycle state (R170), in code order. -/
inductive LifeCycle where
  | blank
  | personalised
  | operational
  | decommissioned
  deriving DecidableEq, Repr

/-- State of a control port (R23), in precedence order. -/
inductive CtlState where
  | husk
  | test
  | off
  | quiesced
  | run
  deriving DecidableEq, Repr

/-- A tag of a queue (R210): free, ready and not fetched, or fetched. -/
inductive TagState where
  | free
  | ready
  | fetched
  deriving DecidableEq, Repr

/-- DCQ_Q_STATE.STATE of a queue that exists (R244): 1 active, 2 frozen, 3 being deleted. -/
inductive QueueState where
  | active
  | frozen
  | deleting
  deriving DecidableEq, Repr

/-- How far a fetched command has gone (R235). -/
inductive CmdState where
  | started
  | listing
  | transfer
  | data
  | held
  | admitted
  | waiting
  | begun
  deriving DecidableEq, Repr

/-- State of a queue pair (R252). -/
inductive QpState where
  | reset
  | init
  | rtr
  | rts
  | error
  deriving DecidableEq, Repr

/-- FSTATE of a listed frame (R291): 1 filling, 2 logged, 3 assembled, 4 committed. -/
inductive FrameState where
  | filling
  | logged
  | assembled
  | committed
  deriving DecidableEq, Repr

/-- Where a chunk job stands on its way to its map entry (R308, R310). -/
inductive JobStage where
  | assembling
  | fingerprint
  | lookup
  | verify
  | encode
  | kernelVerify
  | protect
  | placed
  | insert
  deriving DecidableEq, Repr

/-- METHOD of a map entry (R489). -/
inductive Method where
  | raw
  | kernel
  | zero
  deriving DecidableEq, Repr

/-- DIG_STATUS.STATE (R419), in code order. -/
inductive DigState where
  | idle
  | busy
  | done
  | cleared
  deriving DecidableEq, Repr

/-- UPD_STATUS.STATE (R707), in code order. -/
inductive UpdState where
  | idle
  | opened
  | checking
  | programming
  | staged
  | waiting
  deriving DecidableEq, Repr

/-- A Sextant self-test of R650, in the order of its table. -/
inductive TestKind where
  | regionLane
  | regionCore
  | laneMemory
  | kernelVectors
  | datapath
  | sram
  | dram
  | lane
  | pmbus
  | avs
  | bankSense
  | drbg
  deriving DecidableEq, Repr

/-- State of a DML port (R423), in code order. -/
inductive DmlState where
  | down
  | detect
  | train
  | ident
  | active
  | retrain
  | disabled
  deriving DecidableEq, Repr

/-- STATE of a ledger entry (R478), in code order. -/
inductive BlockState where
  | free
  | reserve
  | opened
  | closed
  | suspect
  | retiring
  | retired
  | anchor
  deriving DecidableEq, Repr

/-- Refresh class of a block (R516). -/
inductive RefreshClass where
  | notDue
  | background
  | elevated
  | preempt
  | overdue
  deriving DecidableEq, Repr

/-- What asked for a relocation (R506). -/
inductive RelocCause where
  | gc
  | wl
  | refresh
  | retire
  | suspect
  | lost
  | reshape
  | drain
  deriving DecidableEq, Repr

/-- A stripe as its builder knows it (R526, R530). -/
inductive StripeState where
  | opened
  | closed
  | complete
  | freed
  deriving DecidableEq, Repr

/-- Layout state of a slot (R534), in code order. -/
inductive ModState where
  | absent
  | joining
  | member
  | degraded
  | failed
  | draining
  | drained
  deriving DecidableEq, Repr

/-- XHL_STATUS.PEER (R577), in code order. -/
inductive PeerState where
  | unknown
  | up
  | suspect
  | lost
  deriving DecidableEq, Repr

/-- Maintenance activity (R554), in code order. -/
inductive Activity where
  | rebuild
  | resync
  | refresh
  | gc
  | reshape
  | seedSplit
  | wl
  | patrol
  | update
  deriving DecidableEq, Repr

/-- A command queue: ring `q` of endpoint `ep`, or the client command channel on queue pair `qpn` (R209, R258). -/
inductive QueueId where
  | ring (ep q : Nat)
  | channel (qpn : Nat)
  deriving DecidableEq, Repr

/-- Whose work a command to a die is, as the die scheduler queues it (R477, R517, R554). -/
inductive DieWork where
  /-- no work of a die's array: reservations, fences, telemetry, suspend and resume -/
  | control
  | hostRead
  /-- programs of stripes that hold newly written data or metadata -/
  | hostProgram
  | maint (a : Activity)
  deriving DecidableEq, Repr

/-- The trees of pages that make up the objects of a waypoint (R490 to R494). -/
inductive MetaTree where
  /-- The object's own tree. -/
  | object
  /-- The map tree of a version: volume, SNAP. -/
  | version (volume snap : Nat)
  /-- The map-page pairs, which trees may share. -/
  | pairs
  /-- The seed directory of a tenant. -/
  | seedDir (tenant : Nat)
  /-- The seed pages of a tenant. -/
  | seeds (tenant : Nat)
  /-- The ledger tree of the module in a slot. -/
  | ledger (slot : Nat)
  deriving DecidableEq, Repr

/-- LOOPS section in force. -/
structure ImgLoops where
  /-- PAIR_MASK (R640). -/
  pairMask : BitVec 24
  /-- SLOT_GAP_MS (R640). -/
  slotGapMs : Nat
  /-- AVS_PRERAISE (R640). -/
  avsPreraise : Nat
  /-- FAN_ZONE (R640). -/
  fanZone : List Nat
  /-- FAN_MIN_RPM (R640). -/
  fanMinRpm : Nat
  /-- AVS_MARGIN (R640). -/
  avsMargin : Nat
  /-- CHG_SP (R640). -/
  chgSp : Nat
  /-- CHG_VMAX (R640). -/
  chgVmax : Nat
  /-- TGT_DIE (R640). -/
  tgtDie : Nat
  /-- TGT_DIMM (R640). -/
  tgtDimm : Nat
  /-- TGT_MOD (R640). -/
  tgtMod : Nat
  /-- gain blocks of AVS, CHARGE, FAN and MODZ: KP, KI, KD, OUT_SHIFT (R640). -/
  gains : List (BitVec 16 × BitVec 16 × BitVec 16 × Nat)
  /-- ZONE_SRC (R640). -/
  zoneSrc : List (BitVec 50)
  deriving DecidableEq, Repr

/-- ImgLoops after reset. -/
def ImgLoops.reset : ImgLoops where
  pairMask := 0
  slotGapMs := 5
  avsPreraise := 25
  fanZone := List.replicate 6 0
  fanMinRpm := 1000
  avsMargin := 40
  chgSp := 200
  chgVmax := 5000
  tgtDie := 1520
  tgtDimm := 1200
  tgtMod := 1040
  gains := [(0x2000, 0x0800, 0, 15), (0x4000, 0x1000, 0, 15), (0x6000, 0x0400, 0, 13), (0x5000, 0x0200, 0, 15)]
  zoneSrc := [0x3FFFFFFFFFFFF, 0, 0, 0]

/-- General block: mode, straps, readiness. -/
structure Glb where
  /-- operating mode GLB_MODE.MODE (R36, R37). -/
  mode : Mode
  /-- GLB_MODE.OWN_ALL (R36). -/
  ownAll : Bool
  /-- sampled HEAD_SEL (GLB_MODE.HEAD, GLB_STRAP[0]); the strap (R52, R54). -/
  headSel : Bool
  /-- sampled NVM_MODE; the strap (R52, R54). -/
  nvmMode : Bool
  /-- GLB_STRAP.HEAD_CONFLICT (R54, R55). -/
  headConflict : Bool
  /-- GLB_READY.CLOCKS (R144). -/
  clocks : Bool
  /-- GLB_READY.CFG (R144). -/
  cfgOk : Bool
  /-- GLB_READY.HOST_EP (R144). -/
  hostEp : Bool
  /-- GLB_READY.FW (R144). -/
  fw : Bool
  /-- GLB_READY.SRAM (R144). -/
  sram : Bool
  /-- GLB_READY.CAL (R144). -/
  cal : Bool
  /-- device time CAL was set, ns (R146). -/
  calAt : Nat
  /-- GLB_READY.XHL (R144). -/
  xhl : Bool
  /-- GLB_READY.MEDIA (R144). -/
  media : Bool
  /-- GLB_READY.DRAM (R144). -/
  dram : Bool
  /-- GLB_READY.MAP (R144). -/
  map : Bool
  /-- GLB_READY.LOG (R144). -/
  log : Bool
  /-- GLB_READY.SERVICE and the READY pin (R144, R145). -/
  service : Bool
  /-- GLB_READY.FAIL_STEP (R144, R146). -/
  failStep : Nat
  /-- the main rails are up (R24, R49, R65). -/
  rails : Bool
  /-- CHIP_RST_L is low or the main rails are off: the head does nothing until the next rising edge (R24, R65). -/
  held : Bool
  /-- device time at which this start began, ns (R701). -/
  startAt : Nat
  /-- calibration results held (source identifier of the element, word) (R147). -/
  calWords : List (Nat × Int)
  /-- device time of the last watchdog stop of each controller or agent (member, ns) (R20). -/
  restarts : List (Nat × Nat)
  deriving DecidableEq, Repr

/-- Glb after reset. -/
def Glb.reset : Glb where
  mode := .starting
  ownAll := false
  headSel := Config.strapHeadSel
  nvmMode := Config.strapNvmMode
  headConflict := false
  clocks := false
  cfgOk := false
  hostEp := false
  fw := false
  sram := false
  cal := false
  calAt := 0
  xhl := false
  media := false
  dram := false
  map := false
  log := false
  service := false
  failStep := 0
  rails := true
  held := false
  startAt := 0
  calWords := []
  restarts := []

/-- One mains feed. -/
structure Feed where
  /-- PWR_FEED x_STATE (R70, R732). -/
  st : FeedState
  /-- PWR_FEED x_SUPPLYING (R70). -/
  supplying : Bool
  /-- PWR_FEED x_VALID (R70, R732). -/
  valid : Bool
  /-- PWR_FEED x_LEVEL, percent (R70). -/
  level : Nat
  /-- consecutive GOOD readings since the last other one (R68). -/
  goodRun : Nat
  /-- the sliding 1 ms window: sample of the decimated bitstream and of the reference waveform, newest last (R66, R67). -/
  window : List (Int × Int)
  /-- samples the reference waveform has been built from (R67, R732). -/
  refSamples : Nat
  /-- least amplitude since the state last changed, percent (R69, R668). -/
  low : Nat
  /-- greatest amplitude since the state last changed, percent (R69, R668). -/
  high : Nat
  deriving DecidableEq, Repr

/-- Feed after reset. -/
def Feed.reset : Feed where
  st := .sensorFault
  supplying := false
  valid := false
  level := 0
  goodRun := 0
  window := []
  refSamples := 0
  low := 255
  high := 0

/-- One regulator of the REG table. -/
structure Regulator where
  /-- PMBus master (R158). -/
  master : Nat
  /-- address (R158). -/
  addr : Nat
  /-- RAIL code (R158). -/
  rail : Nat
  /-- ROLE code (R158). -/
  role : Nat
  /-- STATUS_WORD last read (R86). -/
  status : BitVec 16
  /-- output voltage last read, mV (R86). -/
  vout : Nat
  /-- output current last read, mA (R86). -/
  iout : Nat
  /-- temperature last read, 0.1 degC (R86). -/
  temp : Int
  /-- consecutive failed transactions (R87). -/
  fails : Nat
  /-- keeps its last settings after PMBUS_LOST (R87). -/
  lost : Bool
  deriving DecidableEq, Repr

/-- Regulator after reset. -/
def Regulator.reset : Regulator where
  master := 0
  addr := 0
  rail := 0
  role := 0
  status := 0
  vout := 0
  iout := 0
  temp := 0
  fails := 0
  lost := false

/-- Supply guardian. -/
structure Pwr where
  /-- feed A (R70). -/
  feedA : Feed
  /-- feed B (R70). -/
  feedB : Feed
  /-- PWR_STATUS.CUR_PS (R100). -/
  curPs : Nat
  /-- device time at which the ride-through window that runs started, ns (R78, R668). -/
  window : Option Nat
  /-- PWR_STATUS.ON_MAINS_LOSS (R100). -/
  onMainsLoss : Bool
  /-- PWR_STATUS.FLUSH_ACTIVE (R100). -/
  flushActive : Bool
  /-- step of the power-fail flush in progress, 0 none (R82). -/
  flushStep : Nat
  /-- device time at commitment, ns (R82, R668). -/
  flushAt : Nat
  /-- host data this head has flushed, bytes (R668). -/
  flushBytes : Nat
  /-- D_F, the dirty amount at commitment (R82). -/
  flushAtCommit : Nat
  /-- stopped at step 8 of a flush, waiting for MAINS_RTN (R82, R83). -/
  stepEight : Bool
  /-- PWR_STATUS.BACKPRESSURE (R100). -/
  backpressure : Bool
  /-- bank capacitance C measured since rails came up, uF (R72, R73). -/
  cap : Option Nat
  /-- bank ESR measured since rails came up, uOhm (R72, R73). -/
  esr : Option Nat
  /-- bank terminal voltage, mV (R72). -/
  vBank : Nat
  /-- bank current, mA (discharge positive) (R72). -/
  iBank : Int
  /-- device time since which the discharge current stands above 2 A, ns (R79). -/
  overAt : Option Nat
  /-- C recorded at the last clean stop (a part that never ran has none) (R73). -/
  recCap : Option Nat
  /-- ESR recorded at the last clean stop (R73). -/
  recEsr : Option Nat
  /-- PWR_BANK_ENERGY, mJ (R104). -/
  bankEnergy : Nat
  /-- PWR_BANK_ESR, uOhm (R104). -/
  bankEsr : Nat
  /-- PWR_STATUS.LAST_STOP_CLEAN (a part that never ran: 1) (R84, R100). -/
  lastStopClean : Bool
  /-- PWR_STATUS.ISLAND_LOST (R98, R100). -/
  islandLost : Bool
  /-- PWR_STATUS.PS_CFG_ERR (R100, R105). -/
  psCfgErr : Bool
  /-- PWR_STATUS.REG_FAULT (R100, R87). -/
  regFault : Bool
  /-- this head's D (R74). -/
  ownBudget : Nat
  /-- the peer's last D, none when stale or never received (R76). -/
  peerBudget : Option Nat
  /-- device time the peer's D arrived (R76). -/
  peerBudgetAt : Nat
  /-- PWR_BUDGET (R104). -/
  budget : Nat
  /-- size the flush reserve is held at, bytes of host data (R75). -/
  reserve : Nat
  /-- PWR_PS_CTL.PS1_EN (R101). -/
  ps1En : Bool
  /-- PWR_PS_CTL.PS2_EN (R101). -/
  ps2En : Bool
  /-- PWR_PS_CTL.PS3_EN (R101). -/
  ps3En : Bool
  /-- PWR_VAULT_POLICY.CONSENT (R103). -/
  consent : Bool
  /-- PWR_VAULT_POLICY.GUARD_MIN (R103). -/
  guardMin : Nat
  /-- PWR_VAULT_POLICY.THRESHOLD_MIN (R103). -/
  thresholdMin : Nat
  /-- PWR_IDLE_PS1, us (R104). -/
  idlePs1 : Nat
  /-- PWR_IDLE_PS2, ms (R104). -/
  idlePs2 : Nat
  /-- known event source 5: the peer's next known event (R92). -/
  peerNext : Option Nat
  /-- IDLE_NOW hint in force (R241). -/
  idleNow : Bool
  /-- the idle period that IDLE_NOW is for has begun (R242). -/
  idleOn : Bool
  /-- the peer reports the VAULT conditions over XHL (R93). -/
  peerVault : Bool
  /-- this head has proposed VAULT entry (R93). -/
  vaultProposed : Bool
  /-- agreement over XHL complete (R93). -/
  vaultAgreed : Bool
  /-- the regulators of the image's REG table (R85, R86). -/
  regs : List Regulator
  /-- AVS frozen after PMBUS_LOST of the VDD_CORE regulator (R87). -/
  avsFrozen : Bool
  /-- VDD_CORE target, mV (R64, R88). -/
  vddCore : Nat
  /-- device time of the last event that ended idleness, ns (R89, R90). -/
  lastBusy : Nat
  /-- VDD_CORE in mV that an exit to PS0 in progress raises first (R88, R91). -/
  exitGoal : Option Nat
  /-- device time of the last 5 mV step, ns (R88). -/
  stepAt : Nat
  /-- device time at which the head committed to VAULT, until its main rails switch off, ns (R95). -/
  vaultAt : Option Nat
  /-- a wake request that arrived during entry, held by the island (R96). -/
  vaultWake : Bool
  deriving DecidableEq, Repr

/-- Pwr after reset. -/
def Pwr.reset : Pwr where
  feedA := Feed.reset
  feedB := Feed.reset
  curPs := 0
  window := none
  onMainsLoss := false
  flushActive := false
  flushStep := 0
  flushAt := 0
  flushBytes := 0
  flushAtCommit := 0
  stepEight := false
  backpressure := false
  cap := none
  esr := none
  vBank := 0
  iBank := 0
  overAt := none
  recCap := none
  recEsr := none
  bankEnergy := 0
  bankEsr := 0
  lastStopClean := true
  islandLost := false
  psCfgErr := false
  regFault := false
  ownBudget := 0
  peerBudget := none
  peerBudgetAt := 0
  budget := 0
  reserve := 0
  ps1En := true
  ps2En := true
  ps3En := true
  consent := false
  guardMin := 0x0A
  thresholdMin := 0x168
  idlePs1 := 200
  idlePs2 := 50
  peerNext := none
  idleNow := false
  idleOn := false
  peerVault := false
  vaultProposed := false
  vaultAgreed := false
  regs := []
  avsFrozen := false
  vddCore := 800
  lastBusy := 0
  exitGoal := none
  stepAt := 0
  vaultAt := none
  vaultWake := false

/-- One Almanac record. -/
structure AlmRecord where
  /-- CODE (R666). -/
  code : Nat
  /-- REPEAT (R666). -/
  repeats : Nat
  /-- SOURCE (R666). -/
  source : Nat
  /-- FLAGS SEVERITY (R666, R667). -/
  severity : Nat
  /-- FLAGS ALERT (R666). -/
  alert : Bool
  /-- FLAGS REPEAT_SAT (R666). -/
  repeatSat : Bool
  /-- FLAGS HELD (R666). -/
  heldSram : Bool
  /-- FLAGS ISLAND (R666). -/
  island : Bool
  /-- TIME (R666). -/
  time : Nat
  /-- PARAM (R666). -/
  param : List (BitVec 32)
  /-- SEQ (R669). -/
  seq : BitVec 32
  /-- the record is open (R670). -/
  isOpen : Bool
  deriving DecidableEq, Repr

/-- AlmRecord after reset. -/
def AlmRecord.reset : AlmRecord where
  code := 0
  repeats := 0
  source := 0
  severity := 0
  alert := false
  repeatSat := false
  heldSram := false
  island := false
  time := 0
  param := [0, 0, 0, 0]
  seq := 0
  isOpen := true

/-- The boot record. -/
structure BootRecord where
  /-- RSEQ (R692). -/
  rseq : Nat
  /-- ACTIVE (R692). -/
  active : Nat
  /-- STATE (R692). -/
  st : Nat
  /-- TRIES (R692). -/
  tries : Nat
  /-- FAILED (R692). -/
  failed : BitVec 2
  /-- VERSION_A (R692). -/
  versionA : BitVec 32
  /-- VERSION_B (R692). -/
  versionB : BitVec 32
  /-- CFG_COPY (R692). -/
  cfgCopy : Nat
  deriving DecidableEq, Repr

/-- BootRecord after reset. -/
def BootRecord.reset : BootRecord where
  rseq := 0
  active := 0
  st := 0
  tries := 0
  failed := 0
  versionA := 0
  versionB := 0
  cfgCopy := 0xFF

/-- The Acorn island (kept across CHIP_RST_L). -/
structure Island where
  /-- 32.768 kHz counter (R98). -/
  counter : Nat
  /-- part of the counter's next count that has passed, in units of 10^-9 count (R98). -/
  frac : Nat
  /-- the counter at the stop (R108). -/
  storedCount : Nat
  /-- wake alarm, device time (R94, R98). -/
  alarm : Option Nat
  /-- island Almanac buffer, newest last (R98, R671). -/
  records : List AlmRecord
  /-- CLEAN_STOP (R98, R84). -/
  cleanStop : Bool
  /-- trim value of its oscillator (R98). -/
  trim : Int
  /-- stored high-water civil time (R98, R110). -/
  highWater : Option Int
  /-- stored civil offset (R98, R109). -/
  civilOffset : Int
  /-- stored CIVIL_VALID (R98, R109). -/
  civilValid : Bool
  /-- device time stored at the stop (R108). -/
  storedTime : Nat
  /-- VBAT_LOW (R99). -/
  vbatLow : Bool
  /-- the last sample of VBAT, mV (R99, R668). -/
  vbatMv : Nat
  /-- reset by loss of supply since the last start read it (R98). -/
  lost : Bool
  /-- runs from VBAT (VDDIO_18 outside tolerance) (R98, R714). -/
  onVbat : Bool
  /-- drives WAKE_L low (R50). -/
  wakeL : Bool
  /-- a wake waits for MAINS_RTN or for the rails to go off (R96, R97). -/
  wakePending : Bool
  /-- cause of the wake under way: 1 alarm 2 WAKE_L 3 MAINS_RTN (R106). -/
  wakeCause : Nat
  /-- the main rails are off after VAULT entry (R95). -/
  inVault : Bool
  /-- end of the serial block recorded last (R401). -/
  serialEnd : Nat
  /-- life-cycle intent record: target and owner slot (R173, R175). -/
  lcIntent : Option (Nat × Nat)
  /-- floor intent record (R167). -/
  floorIntent : Option Nat
  /-- the island's copy of the boot record (R692). -/
  boot : Option BootRecord
  deriving DecidableEq, Repr

/-- Island after reset. -/
def Island.reset : Island where
  counter := 0
  frac := 0
  storedCount := 0
  alarm := none
  records := []
  cleanStop := false
  trim := 0
  highWater := none
  civilOffset := 0
  civilValid := false
  storedTime := 0
  vbatLow := false
  vbatMv := 0
  lost := false
  onVbat := false
  wakeL := false
  wakePending := false
  wakeCause := 0
  inVault := false
  serialEnd := 0
  lcIntent := none
  floorIntent := none
  boot := none

/-- An accounting period definition. -/
structure PeriodDef where
  /-- KIND (R129). -/
  kind : Nat
  /-- length, s (R129, R135). -/
  length : Nat
  /-- origin, civil ns (R129). -/
  origin : Int
  deriving DecidableEq, Repr

/-- PeriodDef after reset. -/
def PeriodDef.reset : PeriodDef where
  kind := 0
  length := 0
  origin := 0

/-- One accounting period (open or closed). -/
structure Period where
  /-- START (R129, R131). -/
  start : Int
  /-- end (R129, R131). -/
  fin : Int
  /-- logical bytes written (R130). -/
  written : Nat
  /-- logical bytes read (R130). -/
  read : Nat
  /-- commands completed (R130). -/
  commands : Nat
  /-- peak stored grains (R130). -/
  peakGrains : Nat
  /-- SKIPPED flag (R131). -/
  skipped : Bool
  deriving DecidableEq, Repr

/-- Period after reset. -/
def Period.reset : Period where
  start := 0
  fin := 0
  written := 0
  read := 0
  commands := 0
  peakGrains := 0
  skipped := false

/-- A tenant's accounting state. -/
structure Tenant where
  /-- tenant number (R129). -/
  id : Nat
  /-- own definition, none when the default of LDS_PERIOD_DEF applies (R129). -/
  def_ : Option PeriodDef
  /-- definition of the open period (R129). -/
  openDef : PeriodDef
  /-- the open period (R129, R130). -/
  open_ : Option Period
  /-- closed records, newest last (R131). -/
  closed : List Period
  /-- usage posted after the end of the open period, for the period that opens at its close (R130). -/
  carry : Period
  deriving DecidableEq, Repr

/-- Tenant after reset. -/
def Tenant.reset : Tenant where
  id := 0
  def_ := none
  openDef := PeriodDef.reset
  open_ := none
  closed := []
  carry := Period.reset

/-- Lodestar time. -/
structure Lds where
  /-- LDS_DEVICE_TIME (0 and stopped in BLANK) (R107, R134). -/
  deviceTime : Nat
  /-- civil time minus device time (R109). -/
  civilOffset : Int
  /-- LDS_STATUS.CIVIL_VALID (R109, R132). -/
  civilValid : Bool
  /-- LDS_HIGH_WATER (none: no civil time was ever held) (R110). -/
  highWater : Option Int
  /-- LDS_STATUS.REF_STATE (R112, R132). -/
  refState : RefState
  /-- this head's own reported reference state (R117). -/
  ownState : RefState
  /-- device time the own reference was lost (R117). -/
  holdoverSince : Nat
  /-- consecutive Sync messages within 100 ns (R112). -/
  ptpRun : Nat
  /-- consecutive 1PPS seconds within 100 ns (R112). -/
  ppsRun : Nat
  /-- consecutive 1PPS seconds missing or rejected (R112). -/
  ppsMissing : Nat
  /-- PTP locked (R112). -/
  ptpLocked : Bool
  /-- 1PPS locked (R112). -/
  ppsLocked : Bool
  /-- LDS_STATUS.PAIR_LOCKED (R118, R132). -/
  pairLocked : Bool
  /-- consecutive exchanges within 5 ns (R118). -/
  pairRun : Nat
  /-- consecutive exchanges beyond 20 ns (R118). -/
  pairBad : Nat
  /-- LDS_STATUS.LEADER (R132). -/
  leader : Bool
  /-- LDS_STATUS.STEP_HELD (R115, R132). -/
  stepHeld : Bool
  /-- LDS_STATUS.SET_REFUSED (R132). -/
  setRefused : Bool
  /-- LDS_STATUS.LEAP_ACTIVE (R126, R132). -/
  leapActive : Bool
  /-- the leap correction runs civil time slower (R126). -/
  leapPositive : Bool
  /-- reference state the peer reported last (R117). -/
  peerRef : RefState
  /-- holdover time the peer reported last, ns (R117). -/
  peerHold : Nat
  /-- LDS_CIVIL_CTL.ARM_FWD (R123, R133). -/
  armFwd : Bool
  /-- device time ARM_FWD was set, ns (R123). -/
  armAt : Nat
  /-- device time of the last accepted 1PPS edge, ns (R112). -/
  ppsGoodAt : Nat
  /-- device time the last time message left, ns (R116). -/
  timeSentAt : Nat
  /-- LDS_PPS_CTL.PPS_OUT_EN (R133). -/
  ppsOutEn : Bool
  /-- LDS_PPS_CTL.IN_DELAY_PS (R133). -/
  inDelay : Nat
  /-- LDS_PPS_CTL.OUT_DELAY_PS (R133). -/
  outDelay : Nat
  /-- device time 1PPS_OUT last rose, ns (the pin is high for 100 us from it) (R114). -/
  ppsRose : Option Nat
  /-- LDS_PEER_OFFSET (R118, R134). -/
  peerOffset : Int
  /-- LDS_PAIR_ERR, ps (R134). -/
  pairErr : Int
  /-- LDS_FREQ_ADJ (R134). -/
  freqAdj : Int
  /-- LDS_ERR_BOUND, us (R134). -/
  errBound : Nat
  /-- civil correction still being slewed, ns (R115). -/
  slew : Int
  /-- LDS_PERIOD_DEF (R134, R135). -/
  periodDef : BitVec 32
  /-- accounting state per tenant (R129, R131). -/
  tenants : List Tenant
  /-- device time of the last PTP Sync (R112). -/
  lastSync : Nat
  /-- identity of the grandmaster in use (R112, R113). -/
  grandmaster : Option (BitVec 64)
  /-- reference state this head reported last (R117). -/
  sentRef : RefState
  /-- holdover time this head reported last, ns (R117). -/
  sentHold : Nat
  /-- reference or peer correction that takes effect at the end of this cycle, ns (R115, R125). -/
  corr : Option Int
  /-- device time of the last committed set, ns (R125). -/
  setAt : Option Nat
  /-- high-water civil time as it stood before this cycle (R128). -/
  cycleHigh : Option Int
  /-- temperature beside REFCLK_SYS, or of the die when no sensor is named, 0.1 degC (R120). -/
  oscTemp : Int
  /-- learned frequency of REFCLK_SYS per 0.5 degC bin (R120). -/
  freqModel : List (Int × Int)
  /-- learned linear drift, a free value at each learning: the spec gives no estimator (R120). -/
  ageing : Int
  deriving DecidableEq, Repr

/-- Lds after reset. -/
def Lds.reset : Lds where
  deviceTime := 0
  civilOffset := 0
  civilValid := false
  highWater := none
  refState := .freerun
  ownState := .freerun
  holdoverSince := 0
  ptpRun := 0
  ppsRun := 0
  ppsMissing := 0
  ptpLocked := false
  ppsLocked := false
  pairLocked := false
  pairRun := 0
  pairBad := 0
  leader := false
  stepHeld := false
  setRefused := false
  leapActive := false
  leapPositive := false
  peerRef := .freerun
  peerHold := 0
  armFwd := false
  armAt := 0
  ppsGoodAt := 0
  timeSentAt := 0
  ppsOutEn := false
  inDelay := 0
  outDelay := 0
  ppsRose := none
  peerOffset := 0
  pairErr := 0
  freqAdj := 0
  errBound := 0
  slew := 0
  periodDef := 0
  tenants := []
  lastSync := 0
  grandmaster := none
  sentRef := .freerun
  sentHold := 0
  corr := none
  setAt := none
  cycleHigh := none
  oscTemp := 0
  freqModel := []
  ageing := 0

/-- One-time fuses (survive everything). -/
structure Fuses where
  /-- blown fuses of life-cycle group P (R171, R4). -/
  p : Nat
  /-- blown fuses of group O (R171, R4). -/
  o : Nat
  /-- blown fuses of group D (R171, R4). -/
  d : Nat
  /-- blown fuses of the floor thermometer counter (R167). -/
  floor : Nat
  /-- owner digest fused in each slot ([]: nothing blown) (R163, R173). -/
  slotDigest : List (List (BitVec 8))
  /-- CFG_KEYSLOT.VALID (R177). -/
  slotValid : BitVec 4
  /-- CFG_KEYSLOT.REVOKED (R177). -/
  slotRevoked : BitVec 4
  /-- every fuse of the device key-wrapping field blown (R174). -/
  wrapBlown : Bool
  deriving DecidableEq, Repr

/-- Fuses after reset. -/
def Fuses.reset : Fuses where
  p := 0
  o := 0
  d := 0
  floor := 0
  slotDigest := [[], [], [], []]
  slotValid := 0
  slotRevoked := 0
  wrapBlown := false

/-- Configuration image checks and life cycle. -/
structure Cfg where
  /-- CFG_STATUS.COPY_USED (R176). -/
  copyUsed : Nat
  /-- CFG_STATUS.A_VALID (R176). -/
  aValid : Bool
  /-- CFG_STATUS.B_VALID (R176). -/
  bValid : Bool
  /-- CFG_STATUS.A_REASON (R176). -/
  aReason : Nat
  /-- CFG_STATUS.B_REASON (R176). -/
  bReason : Nat
  /-- CFG_STATUS.VERSION (R176). -/
  version : Nat
  /-- CFG_FLOOR.PENDING (R177). -/
  floorPending : Nat
  /-- CFG_KEYSLOT.ACTIVE (R177). -/
  active : Nat
  /-- CFG_LC_STATUS.BUSY (R178). -/
  lcBusy : Bool
  /-- CFG_LC_STATUS.REFUSED (R178). -/
  lcRefused : Bool
  /-- CFG_LC_STATUS.STEP (R178). -/
  lcStep : Nat
  /-- target of the change in progress (R173). -/
  lcTarget : Nat
  /-- owner slot named by the intent record (R173). -/
  lcSlot : Nat
  /-- the change in progress passes through PERSONALISED (R171, R173). -/
  lcFresh : Bool
  /-- owner digest of the image in use (R163). -/
  imageDigest : List (BitVec 8)
  /-- CFG_IDPUB, the identity public key (R398). -/
  idPub : List (BitVec 32)
  deriving DecidableEq, Repr

/-- Cfg after reset. -/
def Cfg.reset : Cfg where
  copyUsed := 0
  aValid := false
  bValid := false
  aReason := 0xF
  bReason := 0xF
  version := 0
  floorPending := 0
  active := 0
  lcBusy := false
  lcRefused := false
  lcStep := 0
  lcTarget := 0
  lcSlot := 0
  lcFresh := false
  imageDigest := []
  idPub := []

/-- One BAR2 translation window entry. -/
structure Window where
  /-- HEP_WIN_CTL.VALID (R190). -/
  valid : Bool
  /-- HEP_WIN_CTL.RD (R190). -/
  rd : Bool
  /-- HEP_WIN_CTL.WR (R190). -/
  wr : Bool
  /-- HEP_WIN_CTL.SIZE_LOG2 (R190). -/
  sizeLog2 : Nat
  /-- HEP_WIN_CTL.SPACE (R190). -/
  space : Nat
  /-- target offset the committed entry decodes with (R190). -/
  tgt : Nat
  /-- HEP_WIN_TGT as written (not yet used by decoding) (R190). -/
  reg : BitVec 64
  deriving DecidableEq, Repr

/-- Window after reset. -/
def Window.reset : Window where
  valid := false
  rd := false
  wr := false
  sizeLog2 := 0x0C
  space := 0
  tgt := 0
  reg := 0

/-- One MSI-X table entry. -/
structure MsixEntry where
  /-- message address (R187, R199). -/
  addr : BitVec 64
  /-- message data (R187, R199). -/
  data : BitVec 32
  /-- vector control, bit 0 masked (R187, R199). -/
  ctl : BitVec 32
  deriving DecidableEq, Repr

/-- MsixEntry after reset. -/
def MsixEntry.reset : MsixEntry where
  addr := 0
  data := 0
  ctl := 1

/-- One read request of the DMA engine. -/
structure HostRead where
  /-- queue that the read serves (R195, R212). -/
  q : QueueId
  /-- tag (R195, R212). -/
  tag : Nat
  /-- generation of the tag (R212). -/
  gen : Nat
  /-- 0 a command slot and 1 a page list for the queue engine, 2 data or PI for the write-data path (R195). -/
  kind : Nat
  /-- address (R194). -/
  addr : BitVec 64
  /-- bytes asked for (R194). -/
  len : Nat
  deriving DecidableEq, Repr

/-- HostRead after reset. -/
def HostRead.reset : HostRead where
  q := .ring 0 0
  tag := 0
  gen := 0
  kind := 0
  addr := 0
  len := 0

/-- One posted request of an endpoint. -/
structure HostPost where
  /-- 0 a memory write, 1 an MSI-X message, 2 an MSI message (R194, R204). -/
  kind : Nat
  /-- vector of a message (R204). -/
  vec : Nat
  /-- Relaxed Ordering (R194). -/
  relaxed : Bool
  /-- address (R194). -/
  addr : BitVec 64
  /-- bytes (R194). -/
  data : List (BitVec 8)
  deriving DecidableEq, Repr

/-- HostPost after reset. -/
def HostPost.reset : HostPost where
  kind := 0
  vec := 0
  relaxed := false
  addr := 0
  data := []

/-- One PCIe endpoint. -/
structure Endpoint where
  /-- HEP_STATUS.LINK_UP (R205). -/
  linkUp : Bool
  /-- HEP_STATUS.SPEED (R205). -/
  speed : Nat
  /-- HEP_STATUS.WIDTH (R205). -/
  width : Nat
  /-- HEP_STATUS.FLIT (R205). -/
  flit : Bool
  /-- HEP_STATUS.WIN_ERR (R205). -/
  winErr : Bool
  /-- HEP_STATUS.UR_SEEN (R205). -/
  urSeen : Bool
  /-- HEP_STATUS.ACC_ERR (R205). -/
  accErr : Bool
  /-- HEP_WIN_GEN (R207). -/
  winGen : BitVec 32
  /-- generations of the window requests in flight, oldest first (R192, R193). -/
  inFlight : List (BitVec 32)
  /-- HEP_UR_ADDR (R207). -/
  urAddr : BitVec 64
  /-- HEP_RD_LIMIT.MAX_TAGS (R206). -/
  maxTags : Nat
  /-- HEP_RD_LIMIT.MAX_KIB (R206). -/
  maxKib : Nat
  /-- HEP_LINK_EVENTS link-down count (R207). -/
  linkDowns : Nat
  /-- HEP_LINK_EVENTS hot-reset count (R207). -/
  hotResets : Nat
  /-- local window entries (R188, R190). -/
  windows : List Window
  /-- MSI-X table (R187). -/
  msix : List MsixEntry
  /-- Pending Bit Array (R187). -/
  pba : List Bool
  /-- PE_PERST_L is asserted (DEDUCED: it rises 50 ms or more after CHIP_RST_L) (R140, R199). -/
  inReset : Bool
  /-- Memory Space Enable (configuration space default) (R203). -/
  mse : Bool
  /-- Bus Master Enable (R200). -/
  bme : Bool
  /-- in D3hot (R199). -/
  d3 : Bool
  /-- MSI-X Enable (R203). -/
  msixEn : Bool
  /-- MSI-X Function Mask (R204). -/
  msixMask : Bool
  /-- MSI Enable (R203). -/
  msiEn : Bool
  /-- MSI vectors granted (R204). -/
  msiVecs : Nat
  /-- 10-Bit Tag Requester Enable (R195). -/
  tenBit : Bool
  /-- Extended Tag Field Enable (R195). -/
  extTag : Bool
  /-- Max_Read_Request_Size, bytes (R194, R195). -/
  maxReadReq : Nat
  /-- Max_Payload_Size, bytes (R180, R194). -/
  maxPayload : Nat
  /-- Enable Relaxed Ordering (R194). -/
  relaxed : Bool
  /-- SERR# Enable (R196). -/
  serr : Bool
  /-- error reporting enables of Device Control (R196). -/
  errEn : BitVec 4
  /-- MSI message address (R184). -/
  msiAddr : BitVec 64
  /-- MSI message data (R184). -/
  msiData : BitVec 16
  /-- MSI mask bits (R184). -/
  msiMask : BitVec 32
  /-- BAR0 of the configuration space (R183). -/
  bar0 : BitVec 64
  /-- BAR2 (R183). -/
  bar2 : BitVec 64
  /-- BAR4 (R183). -/
  bar4 : BitVec 64
  /-- read requests issued and not fully answered (R195). -/
  reads : List HostRead
  /-- page lists of the queue engine to be read, and its reads to be reissued after the link returns (R195, R201). -/
  engineWait : List HostRead
  /-- reads of the write-data path not yet issued, or to be reissued (R195, R201). -/
  dataWait : List HostRead
  /-- the write-data path takes the next tag when both paths have reads ready (R195). -/
  dataTurn : Bool
  /-- queue from which a slot was fetched last (R214). -/
  lastQueue : Nat
  /-- the last 2 048 posted requests sent since the link came up, oldest first (R201). -/
  posted : List HostPost
  /-- data writes that wait while the queues are held (R200). -/
  heldWrites : List (BitVec 64 × List (BitVec 8))
  /-- AER uncorrectable error status (R196). -/
  aerUnc : BitVec 32
  /-- AER correctable error status (R196). -/
  aerCor : BitVec 32
  /-- AER uncorrectable error mask (R196). -/
  uncMask : BitVec 32
  /-- AER uncorrectable error severity (R196). -/
  uncSev : BitVec 32
  /-- AER correctable error mask (R196). -/
  corMask : BitVec 32
  deriving DecidableEq, Repr

/-- Endpoint after reset. -/
def Endpoint.reset : Endpoint where
  linkUp := false
  speed := 0
  width := 0
  flit := false
  winErr := false
  urSeen := false
  accErr := false
  winGen := 0
  inFlight := []
  urAddr := 0
  maxTags := 768
  maxKib := 384
  linkDowns := 0
  hotResets := 0
  windows := List.replicate 64 Window.reset
  msix := List.replicate 257 MsixEntry.reset
  pba := List.replicate 257 false
  inReset := true
  mse := false
  bme := false
  d3 := false
  msixEn := false
  msixMask := false
  msiEn := false
  msiVecs := 1
  tenBit := false
  extTag := true
  maxReadReq := 512
  maxPayload := 128
  relaxed := true
  serr := false
  errEn := 0
  msiAddr := 0
  msiData := 0
  msiMask := 0
  bar0 := 0
  bar2 := 0
  bar4 := 0
  reads := []
  engineWait := []
  dataWait := []
  dataTurn := false
  lastQueue := 256
  posted := []
  heldWrites := []
  aerUnc := 0
  aerCor := 0
  uncMask := 0x400000
  uncSev := 0x462030
  corMask := 0xE000

/-- One completion record. -/
structure Cpl where
  /-- STATUS (R220). -/
  status : BitVec 16
  /-- tag (R220). -/
  tag : Nat
  /-- the tag's generation while the command held the tag (R220). -/
  gen : Nat
  /-- CFLAGS FORWARDED (R220). -/
  forwarded : Bool
  /-- CFLAGS MORE (R220). -/
  more : Bool
  /-- RESULT0 (R220). -/
  r0 : BitVec 32
  /-- RESULT1 (R220). -/
  r1 : BitVec 64
  /-- the command set NO_INTR (R222). -/
  noIntr : Bool
  /-- the command set FENCE (R288). -/
  fence : Bool
  /-- the command's order of fetch (R288). -/
  seq : Nat
  /-- tenant whose period it counts in (R130). -/
  acct : Option Nat
  /-- logical bytes the command wrote (R130). -/
  written : Nat
  /-- logical bytes the command read (R130). -/
  read : Nat
  deriving DecidableEq, Repr

/-- Cpl after reset. -/
def Cpl.reset : Cpl where
  status := 0
  tag := 0
  gen := 0
  forwarded := false
  more := false
  r0 := 0
  r1 := 0
  noIntr := false
  fence := false
  seq := 0
  acct := none
  written := 0
  read := 0

/-- One tag of a queue or channel. -/
structure Tag where
  /-- free, ready (not yet fetched) or fetched (R210, R214). -/
  st : TagState
  /-- generation (R210). -/
  gen : Nat
  /-- an abort is to be applied when the command is fetched (R215, R235). -/
  abort : Bool
  /-- the read of its slot has been issued (R214). -/
  asked : Bool
  deriving DecidableEq, Repr

/-- Tag after reset. -/
def Tag.reset : Tag where
  st := .free
  gen := 0
  abort := false
  asked := false

/-- One command queue or client command channel. -/
structure Queue where
  /-- endpoint and number, or the QP of a channel (R209, R258). -/
  id : QueueId
  /-- DCQ_Q_STATE.STATE (absent: not listed) (R244). -/
  st : QueueState
  /-- DCQ_Q_STATE.HELD (R244, R200). -/
  held : Bool
  /-- submission array (R209). -/
  sq : BitVec 64
  /-- completion ring (R209). -/
  cq : BitVec 64
  /-- ring of 2^n records (R209). -/
  sizeLog2 : Nat
  /-- H (R216). -/
  head : Nat
  /-- records posted and not yet read (R216). -/
  unread : Nat
  /-- CQ_NEXT (R244). -/
  next : Nat
  /-- PHASE of the next record (R244). -/
  phase : Bool
  /-- COAL_COUNT (R222). -/
  coalCount : Nat
  /-- COAL_TIME (R222). -/
  coalTime : Nat
  /-- posted unsignalled completions (R222). -/
  unsignalled : Nat
  /-- device time of the first of them, ns (R222). -/
  unsigAt : Nat
  /-- the tags (R209, R210). -/
  tags : List Tag
  /-- completions held while the ring is full or the queue held, oldest first (R221, R200). -/
  waiting : List Cpl
  /-- a completion write to its ring has failed (R240). -/
  ringBad : Bool
  /-- last tag fetched (R214). -/
  lastFetched : Nat
  /-- device time the completion of a fenced command was posted last (R288). -/
  fenceAt : Option Nat
  /-- admin tag of the DELETE_QUEUE or RESET_QUEUE that waits on this queue (R238). -/
  closer : Option Nat
  /-- on a client channel, the command each tag's SEND delivered (R258). -/
  sent : List (Nat × List (BitVec 32))
  deriving DecidableEq, Repr

/-- Queue after reset. -/
def Queue.reset : Queue where
  id := .ring 0 0
  st := .active
  held := false
  sq := 0
  cq := 0
  sizeLog2 := 5
  head := 0
  unread := 0
  next := 0
  phase := true
  coalCount := 1
  coalTime := 0
  unsignalled := 0
  unsigAt := 0
  tags := List.replicate 32 Tag.reset
  waiting := []
  ringBad := false
  lastFetched := 31
  fenceAt := none
  closer := none
  sent := []

/-- One retention lock. -/
structure Lock where
  /-- first sector (R338). -/
  lba : Nat
  /-- sectors (R338). -/
  count : Nat
  /-- EXPIRY (R338). -/
  expiry : Int
  /-- civil time placed (R341). -/
  placed : Int
  deriving DecidableEq, Repr

/-- Lock after reset. -/
def Lock.reset : Lock where
  lba := 0
  count := 0
  expiry := 0
  placed := 0

/-- One fetched command not yet completed. -/
structure Cmd where
  /-- queue (R212). -/
  q : QueueId
  /-- tag (R212). -/
  tag : Nat
  /-- generation (R212). -/
  gen : Nat
  /-- the 64 command bytes (R217). -/
  words : List (BitVec 32)
  /-- how far the command has gone (R235). -/
  st : CmdState
  /-- executed here for the peer (its completion goes over XHL) (R236). -/
  remote : Bool
  /-- order of fetch within the queue (R288). -/
  seq : Nat
  /-- sectors that have arrived (R226, R388). -/
  data : List (List (BitVec 8))
  /-- PI that has arrived (R218). -/
  pi : List (List (BitVec 8))
  /-- covering or cut LSN of a FLUSH or SNAPSHOT (R227, R334). -/
  cover : Nat
  /-- sectors not yet protected (R302). -/
  left : Nat
  /-- page addresses its DLIST gave (R219). -/
  plist : List (BitVec 64)
  /-- sent to the peer, which executes it (R236). -/
  forwarded : Bool
  /-- RMA_KEY_GEN at which it was bound to its regions (R267). -/
  bind : BitVec 32
  /-- device time its data had all arrived and passed its checks (R300). -/
  readyAt : Nat
  /-- device time of its fetch (R304). -/
  fetchedAt : Nat
  /-- civil time of its fetch (R335). -/
  fetchCivil : Int
  /-- the lock a waiting RETAIN has placed (R237, R340). -/
  lock : Option Lock
  /-- the locks that it took the place of (R237, R340). -/
  gone : List Lock
  /-- chunks of a waiting DISCARD that it unmaps (R342). -/
  chunks : List Nat
  deriving DecidableEq, Repr

/-- Cmd after reset. -/
def Cmd.reset : Cmd where
  q := .ring 0 0
  tag := 0
  gen := 0
  words := []
  st := .started
  remote := false
  seq := 0
  data := []
  pi := []
  cover := 0
  left := 0
  plist := []
  forwarded := false
  bind := 0
  readyAt := 0
  fetchedAt := 0
  fetchCivil := 0
  lock := none
  gone := []
  chunks := []

/-- A device event waiting for an ASYNC_EVENT command. -/
structure AsyncEvent where
  /-- Almanac code (R238). -/
  code : Nat
  /-- source identifier (R238). -/
  source : Nat
  /-- parameter 0 (R238). -/
  p0 : BitVec 32
  /-- parameter 1 (R238). -/
  p1 : BitVec 32
  deriving DecidableEq, Repr

/-- AsyncEvent after reset. -/
def AsyncEvent.reset : AsyncEvent where
  code := 0
  source := 0
  p0 := 0
  p1 := 0

/-- Admin queue registers of one endpoint. -/
structure AdminCtl where
  /-- DCQ_ADM_SQ (R245). -/
  sq : BitVec 64
  /-- DCQ_ADM_CQ (R245). -/
  cq : BitVec 64
  /-- DCQ_ADM_CTL.ENABLE (DCQ_STATUS.ADM_RUN) (R243). -/
  enable : Bool
  /-- DCQ_ADM_CTL.CQ_SIZE_LOG2 (R243). -/
  sizeLog2 : Nat
  /-- DCQ_STATUS.DB_ERR (R243). -/
  dbErr : Bool
  /-- DCQ_STATUS.CTX_ERR (R243). -/
  ctxErr : Bool
  deriving DecidableEq, Repr

/-- AdminCtl after reset. -/
def AdminCtl.reset : AdminCtl where
  sq := 0
  cq := 0
  enable := false
  sizeLog2 := 5
  dbErr := false
  ctxErr := false

/-- Command queues. -/
structure Dcq where
  /-- admin registers per endpoint (R243, R245). -/
  adm : List AdminCtl
  /-- queues and client command channels (R209, R258). -/
  queues : List Queue
  /-- fetched commands not yet completed (R212). -/
  cmds : List Cmd
  /-- waiting ASYNC_EVENT commands (queue, tag) (R239). -/
  async : List (QueueId × Nat)
  /-- events that arrived with no command waiting (R239). -/
  events : List AsyncEvent
  /-- next fetch order number (R288). -/
  seq : Nat
  /-- NEXT_ACTIVITY in force (civil time) (R241). -/
  hintTime : Option Int
  /-- channel from which a command was fetched last (R258). -/
  lastChan : Nat
  deriving DecidableEq, Repr

/-- Dcq after reset. -/
def Dcq.reset : Dcq where
  adm := List.replicate 4 AdminCtl.reset
  queues := []
  cmds := []
  async := []
  events := []
  seq := 0
  hintTime := none
  lastChan := 0

/-- The Almanac. -/
structure Alm where
  /-- wake region in DRAM, oldest first (open records included) (R671). -/
  wake : List AlmRecord
  /-- birth region (R671). -/
  birth : List AlmRecord
  /-- SEQ values assigned while PERSONALISED or later, up to 4096 (R671). -/
  birthSeen : Nat
  /-- ALM_WAKE_NEXT (R669, R686). -/
  nextSeq : BitVec 32
  /-- SEQ values assigned in this cycle (R669, R681). -/
  cycleNew : Nat
  /-- ALM_WAKE_FIRST (R686). -/
  wakeFirst : BitVec 32
  /-- records held in SRAM until the service runs (R143, R677). -/
  held : List AlmRecord
  /-- closed records waiting for programming, oldest first (R673, R674). -/
  norWait : List AlmRecord
  /-- next slot of the wake ring to be programmed (R672, R674). -/
  ringPos : Nat
  /-- next slot of each birth copy to be programmed (R672, R674). -/
  birthPos : List Nat
  /-- the last NOR program operation: address, byte before it, byte programmed (R151, R168). -/
  lastProgram : List (Nat × BitVec 8 × BitVec 8)
  /-- ring sectors that the clear in progress has erased (R683). -/
  clearAt : Nat
  /-- device times of the ring entries of the past hour, ns (R676). -/
  hourTimes : List Nat
  /-- device time of the last 0x0314 (R676). -/
  limitAt : Option Nat
  /-- ALM_STATUS.RATE_LIMITED (R685). -/
  rateLimited : Bool
  /-- ALM_STATUS.LOADED (R685). -/
  loaded : Bool
  /-- ALM_STATUS.BIRTH_DONE (R685). -/
  birthDone : Bool
  /-- ALM_STATUS.CLEARING (R685). -/
  clearing : Bool
  /-- ALM_STATUS.CMD_ERR (R685). -/
  cmdErr : Bool
  /-- ALM_SEL.REGION (R686). -/
  region : Nat
  /-- ALM_CURSOR (R686). -/
  cursor : BitVec 32
  /-- ALM_WIN_STATE (R686). -/
  winState : BitVec 4
  /-- ALM_WINDOW (R686). -/
  window : List (BitVec 32)
  /-- ALM_NOR_HELD (R686). -/
  norHeld : Nat
  /-- 5-year periods whose birth copy was rewritten (R675). -/
  birthRefreshes : Nat
  deriving DecidableEq, Repr

/-- Alm after reset. -/
def Alm.reset : Alm where
  wake := []
  birth := []
  birthSeen := 0
  nextSeq := 0
  cycleNew := 0
  wakeFirst := 0
  held := []
  norWait := []
  ringPos := 0
  birthPos := [0, 0]
  lastProgram := []
  clearAt := 0
  hourTimes := []
  limitAt := none
  rateLimited := false
  loaded := false
  birthDone := false
  clearing := false
  cmdErr := false
  region := 0
  cursor := 0
  winState := 8
  window := List.replicate 8 0
  norHeld := 0
  birthRefreshes := 0

/-- One region-table entry. -/
structure RegionEntry where
  /-- master (R646). -/
  src : Nat
  /-- entry number (R646). -/
  idx : Nat
  /-- BASE (R646). -/
  base : Nat
  /-- PAGES (R646). -/
  pages : Nat
  /-- RIGHTS (R646). -/
  rights : BitVec 8
  deriving DecidableEq, Repr

/-- RegionEntry after reset. -/
def RegionEntry.reset : RegionEntry where
  src := 0
  idx := 0
  base := 0
  pages := 0
  rights := 0

/-- One control port with its element's fault history. -/
structure Port where
  /-- source identifier (R21, R26). -/
  src : Nat
  /-- state of the port (R23). -/
  st : CtlState
  /-- the element is retired (R654). -/
  retired : Bool
  /-- held down by the start: its port leaves OFF for a test only, until CHIP_RST_L (R58, R61, R146). -/
  hold : Bool
  /-- device times of its errors classed transient (R651). -/
  transients : List Nat
  /-- device times and kinds of its corrected events (R645). -/
  corrected : List (Nat × TestKind)
  /-- block agents on a core (R20, R648). -/
  agents : List Nat
  /-- Almanac code of the error that froze it (R649). -/
  frozenCode : Option Nat
  deriving DecidableEq, Repr

/-- Port after reset. -/
def Port.reset : Port where
  src := 0
  st := .run
  retired := false
  hold := false
  transients := []
  corrected := []
  agents := []
  frozenCode := none

/-- One self-test waiting or running. -/
structure TestReq where
  /-- element (R650). -/
  src : Nat
  /-- test (R650). -/
  kind : TestKind
  /-- requested by FLT_TEST_CMD (R657). -/
  host : Bool
  /-- asked for by an error (R651, R652). -/
  err : Bool
  /-- device time of the request, ns (R652). -/
  reqAt : Nat
  deriving DecidableEq, Repr

/-- TestReq after reset. -/
def TestReq.reset : TestReq where
  src := 0
  kind := .lane
  host := false
  err := false
  reqAt := 0

/-- Faults and self-test. -/
structure Flt where
  /-- control ports that have left their reset state (RUN) (R21, R23). -/
  ports : List Port
  /-- region tables (R646). -/
  regions : List RegionEntry
  /-- changes of this cycle, taken at its end (R647). -/
  regionNew : List RegionEntry
  /-- changes waiting for the release of their master (R649). -/
  regionWait : List RegionEntry
  /-- tests waiting, oldest first (R652). -/
  waiting : List TestReq
  /-- tests running (R652). -/
  running : List TestReq
  /-- FLT_ALERT (R662). -/
  alert : BitVec 18
  /-- bits of FLT_ALERT that events set in this cycle (R659). -/
  alertNow : BitVec 18
  /-- FLT_ALERT_MASK (R662). -/
  alertMask : BitVec 18
  /-- FLT_INT_EN.VEC0 (R662). -/
  vec0 : Bool
  /-- FLT_STATUS.QUEUE_FULL (R661). -/
  queueFull : Bool
  /-- FLT_STATUS.CMD_ERR (R661). -/
  cmdErr : Bool
  /-- FLT_STATUS.WHOLE_CHIP (R661). -/
  wholeChip : Bool
  /-- FLT_FAILSTOP_CAUSE.CAUSE (R663). -/
  cause : Nat
  /-- FLT_FAILSTOP_CAUSE.SOURCE (R663). -/
  causeSrc : Nat
  /-- device time of entry to FAILSTOP, ns (R656, R701). -/
  failAt : Option Nat
  /-- FATAL errors raised during FAILSTOP (R656). -/
  fatalRepeats : Nat
  /-- FLT_TEST_STATUS.STATE (R663). -/
  testState : Nat
  /-- FLT_TEST_STATUS.RESULT (R663). -/
  testResult : Nat
  /-- FLT_TEST_STATUS.SOURCE (R663). -/
  testSrc : Nat
  /-- FLT_HUSK_SEL (R664). -/
  huskSel : BitVec 32
  /-- FLT_HUSK_INFO (R664). -/
  huskInfo : BitVec 32
  /-- FLT_HUSK_ADDR (R664). -/
  huskAddr : BitVec 64
  /-- FLT_RETIRED.LANES (R664). -/
  retLanes : Nat
  /-- FLT_RETIRED.CORES (R664). -/
  retCores : Nat
  /-- FLT_RETIRED.SRAM_BANKS (R664). -/
  retBanks : Nat
  /-- FLT_DRAM_ROWS (R664). -/
  dramRows : Nat
  /-- DRAM rows retired per channel (R654). -/
  rowsPerCh : List Nat
  /-- spare rows left per SRAM bank (R654). -/
  bankSpares : List Nat
  /-- FLT_REGION_SEL (R664). -/
  regionSel : BitVec 32
  /-- FLT_REGION_DATA (R664). -/
  regionData : List (BitVec 32)
  /-- jobs dispatched again after completing with error under HUSK (R25). -/
  redispatched : Nat
  deriving DecidableEq, Repr

/-- Flt after reset. -/
def Flt.reset : Flt where
  ports := []
  regions := []
  regionNew := []
  regionWait := []
  waiting := []
  running := []
  alert := 0
  alertNow := 0
  alertMask := 0
  vec0 := false
  queueFull := false
  cmdErr := false
  wholeChip := false
  cause := 0
  causeSrc := 0
  failAt := none
  fatalRepeats := 0
  testState := 0
  testResult := 0
  testSrc := 0
  huskSel := 0
  huskInfo := 0
  huskAddr := 0
  retLanes := 0
  retCores := 0
  retBanks := 0
  dramRows := 0
  rowsPerCh := List.replicate 12 0
  bankSpares := List.replicate 32 8
  regionSel := 0
  regionData := [0, 0, 0, 0]
  redispatched := 0

/-- Firmware and configuration update. -/
structure Upd where
  /-- UPD_STATUS.STATE (R707). -/
  st : UpdState
  /-- UPD_STATUS.RECOVERY (R707). -/
  recovery : Bool
  /-- UPD_STATUS.CMD_ERR (R707). -/
  cmdErr : Bool
  /-- UPD_STATUS.FELL_BACK (the boot record: none at first) (R707). -/
  fellBack : Bool
  /-- UPD_STATUS.ACTIVE_SLOT (R707). -/
  slot : Nat
  /-- UPD_STATUS.REASON (R707). -/
  reason : Nat
  /-- UPD_OFFSET (R708). -/
  offset : Nat
  /-- UPD_LEN (R708). -/
  len : Nat
  /-- UPD_PROBATION_S (R708). -/
  probationS : Nat
  /-- UPD_FW_VER (per NOR; an empty NOR holds none) (R708). -/
  fwVer : List (BitVec 32)
  /-- UPD_RUN_VER (R708). -/
  runVer : BitVec 32
  /-- device time the probation ends, ns, 0 none (UPD_PROB_LEFT is the time to it in s) (R708). -/
  probEnd : Nat
  /-- staging buffer in SRAM (R694). -/
  staging : List Host.Cell
  /-- staging under way: true firmware, false configuration; slot or copy (R695). -/
  job : Option (Bool × Nat)
  /-- firmware slot STAGED in the buffer (R695, R699). -/
  staged : Option Nat
  /-- configuration copy STAGED (R703). -/
  stagedCfg : Option Nat
  /-- the valid boot record with the highest RSEQ (R692). -/
  boot : Option BootRecord
  /-- FW_REVOKE (R690, R700). -/
  fwRevoke : BitVec 4
  /-- boot record of an ACTIVATE of this cycle (R696, R699). -/
  activating : Option BootRecord
  /-- device time of the last write to the UPD block, ns (R694). -/
  writeAt : Nat
  /-- restarts under R20 or FATAL errors during the probation (R700). -/
  restarts : Nat
  /-- layout format of the array (R696, R702). -/
  layout : Nat
  deriving DecidableEq, Repr

/-- Upd after reset. -/
def Upd.reset : Upd where
  st := .idle
  recovery := false
  cmdErr := false
  fellBack := false
  slot := 0
  reason := 0
  offset := 0
  len := 0
  probationS := 300
  fwVer := [0, 0]
  runVer := 0
  probEnd := 0
  staging := []
  job := none
  staged := none
  stagedCfg := none
  boot := none
  fwRevoke := 0
  activating := none
  writeAt := 0
  restarts := 0
  layout := 0

/-- One Ethernet port NETp (its four sub-ports s). -/
structure NetPort where
  /-- NET_PORT_STATUS.LINK_UP (R276). -/
  linkUp : BitVec 4
  /-- NET_PORT_STATUS.MODE (per image; no image yet) (R276, R247). -/
  mode : Nat
  /-- NET_PORT_STATUS.PFC_STUCK (R276). -/
  pfcStuck : Bool
  /-- fill of each sub-port's lossless receive buffer, bytes (R250). -/
  fill : List Nat
  /-- PFC XOFF in force, per sub-port (R250). -/
  xoff : List Bool
  /-- lossless priority paused by the link partner, per sub-port (R250). -/
  paused : List Bool
  /-- device time from which it has been paused without a break, per sub-port (R250). -/
  pausedAt : List Nat
  /-- the present pause has lasted 100 ms and is recorded, per sub-port (R250). -/
  stuck : List Bool
  deriving DecidableEq, Repr

/-- NetPort after reset. -/
def NetPort.reset : NetPort where
  linkUp := 0
  mode := 0
  pfcStuck := false
  fill := [0, 0, 0, 0]
  xoff := [false, false, false, false]
  paused := [false, false, false, false]
  pausedAt := [0, 0, 0, 0]
  stuck := [false, false, false, false]

/-- One entry of NET_PKEY_TBL. -/
structure Pkey where
  /-- table index (R276). -/
  idx : Nat
  /-- PKEY (R276). -/
  pkey : BitVec 16
  /-- VALID (R276). -/
  valid : Bool
  deriving DecidableEq, Repr

/-- Pkey after reset. -/
def Pkey.reset : Pkey where
  idx := 0
  pkey := 0
  valid := false

/-- One request a queue pair has issued and its peer has not acknowledged. -/
structure SentReq where
  /-- PSN of its last packet (R253, R254). -/
  psn : Nat
  /-- what it is, as the output names it (R252). -/
  kind : Nat
  /-- its bytes (R252). -/
  data : List (BitVec 8)
  deriving DecidableEq, Repr

/-- SentReq after reset. -/
def SentReq.reset : SentReq where
  psn := 0
  kind := 0
  data := []

/-- One RoCEv2 queue pair. -/
structure Qp where
  /-- queue pair number (R252). -/
  qpn : Nat
  /-- sub-port 4p + s it runs on (R252). -/
  port : Nat
  /-- QP state (R252). -/
  st : QpState
  /-- its P_Key (R255). -/
  pkey : BitVec 16
  /-- tenant, fixed when the REQ is accepted (R255). -/
  tenant : Nat
  /-- next expected PSN (R254). -/
  epsn : Nat
  /-- replication link it serves, none for a client channel (R270). -/
  link : Option Nat
  /-- path MTU, bytes (R252). -/
  mtu : Nat
  /-- rate limit, bit/s (R251). -/
  rate : Nat
  /-- device time of the last CNP or rise of the limit (R251). -/
  rateAt : Nat
  /-- PSN of the next packet sent (R254). -/
  npsn : Nat
  /-- requests issued and not acknowledged, oldest first (R253). -/
  unacked : List SentReq
  /-- device time the local ACK timeout runs from (R253). -/
  ackAt : Nat
  /-- RNR retries since the last progress (R253). -/
  rnr : Nat
  /-- a sequence error has been answered and the expected PSN has not come since (R254). -/
  nakSent : Bool
  /-- ACK timeouts since the last progress (R253). -/
  retries : Nat
  /-- device time a CNP was last sent for it (R251). -/
  lastCnp : Option Nat
  deriving DecidableEq, Repr

/-- Qp after reset. -/
def Qp.reset : Qp where
  qpn := 0
  port := 0
  st := .init
  pkey := 0
  tenant := 0
  epsn := 0
  link := none
  mtu := 4096
  rate := 0
  rateAt := 0
  npsn := 0
  unacked := []
  ackAt := 0
  rnr := 0
  nakSent := false
  retries := 0
  lastCnp := none

/-- One RoCEv2 packet that waits for the lossless priority of its sub-port. -/
structure HeldPacket where
  /-- sub-port 4p + s (R250). -/
  sub : Nat
  /-- queue pair (R252). -/
  qpn : Nat
  /-- what it is, as the output names it (R252). -/
  kind : Nat
  /-- its bytes (R252). -/
  data : List (BitVec 8)
  deriving DecidableEq, Repr

/-- HeldPacket after reset. -/
def HeldPacket.reset : HeldPacket where
  sub := 0
  qpn := 0
  kind := 0
  data := []

/-- Network block. -/
structure Net where
  /-- NET_PORT_STATUS (R276). -/
  ports : List NetPort
  /-- NET_STATUS.PKEY_ERR (R276). -/
  pkeyErr : Bool
  /-- NET_PKEY_TBL entries that are not all zero (R276). -/
  pkeys : List Pkey
  /-- open queue pairs (R253). -/
  qps : List Qp
  /-- next QP number given out (the model's own; QP1 is for CM) (R252). -/
  nextQpn : Nat
  /-- RoCEv2 packets that wait for their sub-port, oldest first (R250). -/
  held : List HeldPacket
  /-- the partition keys as they stood before this cycle's changes (R256). -/
  pkeysBefore : Option (List Pkey)
  /-- queue pairs that this cycle's changes of the table send to ERROR (R257). -/
  closing : List Nat
  /-- completions due in this cycle on channels (R260, R269). -/
  cpls : List (Nat × Cpl)
  /-- channels and tags that a SEND has made ready in this cycle (R261). -/
  sends : List (Nat × Nat)
  /-- aborts that wait for the end of this cycle (R261). -/
  aborts : List (Nat × Nat)
  deriving DecidableEq, Repr

/-- Net after reset. -/
def Net.reset : Net where
  ports := List.replicate 4 NetPort.reset
  pkeyErr := false
  pkeys := []
  qps := []
  nextQpn := 2
  held := []
  pkeysBefore := none
  closing := []
  cpls := []
  sends := []
  aborts := []

/-- One remote memory region index that has been used. -/
structure Region where
  /-- INDEX (R264). -/
  index : Nat
  /-- GEN (R264). -/
  gen : Nat
  /-- registered (R264). -/
  live : Bool
  /-- generation its deregistration was committed as, while it drains (R267). -/
  drainAt : Option (BitVec 32)
  /-- landing-zone offset (R263). -/
  base : Nat
  /-- length, bytes (R263). -/
  len : Nat
  /-- tenant (R263). -/
  tenant : Nat
  /-- REMOTE_READ (R277). -/
  rd : Bool
  /-- REMOTE_WRITE (R277). -/
  wr : Bool
  deriving DecidableEq, Repr

/-- Region after reset. -/
def Region.reset : Region where
  index := 0
  gen := 0
  live := false
  drainAt := none
  base := 0
  len := 0
  tenant := 0
  rd := false
  wr := false

/-- One replication record a target has accepted. -/
structure ReplRecord where
  /-- KIND (R272). -/
  kind : Nat
  /-- LBA (R272). -/
  lba : Nat
  /-- opened payload (R272). -/
  payload : List (BitVec 8)
  /-- HEAD (R274). -/
  head : Nat
  /-- KEY_EPOCH (R274). -/
  epoch : Nat
  /-- COUNTER (R274). -/
  counter : Nat
  deriving DecidableEq, Repr

/-- ReplRecord after reset. -/
def ReplRecord.reset : ReplRecord where
  kind := 0
  lba := 0
  payload := []
  head := 0
  epoch := 0
  counter := 0

/-- One cut held by a replication source. -/
structure ReplCut where
  /-- BATCH (R271). -/
  batch : Nat
  /-- cut LSN (R271). -/
  lsn : Nat
  /-- device time of the cut (R278). -/
  time : Nat
  /-- its final flagged write has been sent (R271). -/
  sent : Bool
  /-- device time it was last sent (R275). -/
  sentAt : Nat
  deriving DecidableEq, Repr

/-- ReplCut after reset. -/
def ReplCut.reset : ReplCut where
  batch := 0
  lsn := 0
  time := 0
  sent := false
  sentAt := 0

/-- One replication link RMA_REPL[L]. -/
structure Repl where
  /-- ENABLE (R279). -/
  enable : Bool
  /-- ROLE, true target (R279). -/
  role : Bool
  /-- REMOTE (R279). -/
  remote : Nat
  /-- KEY_SLOT (R279). -/
  keySlot : Nat
  /-- INTERVAL_S (R279). -/
  intervalS : Nat
  /-- VOLUME (R279). -/
  volume : Nat
  /-- REMOTE_VOLUME (R279). -/
  remoteVolume : Nat
  /-- STATE (R279). -/
  st : Nat
  /-- AUTH_FAIL (R279). -/
  authFail : Bool
  /-- RMA_REPL_BATCH (R279). -/
  batch : Nat
  /-- next BATCH to be cut (R272). -/
  nextBatch : Nat
  /-- COUNTER (R273). -/
  counter : Nat
  /-- cuts not yet acknowledged, oldest first (R275). -/
  cuts : List ReplCut
  /-- highest (HEAD, KEY_EPOCH, COUNTER) applied (R274). -/
  seen : List (Nat × Nat × Nat)
  /-- records of the batch arriving (R274). -/
  batchIn : List ReplRecord
  /-- record count given by KIND 3 (R274). -/
  endCount : Option Nat
  /-- its QP (R270). -/
  qpn : Option Nat
  /-- key and length of the target's replication region (R270). -/
  peerKey : Option (BitVec 32 × Nat)
  /-- ENABLE cleared, batch in flight (R279). -/
  stopping : Bool
  /-- BATCH of the records arriving (R272, R274). -/
  inBatch : Nat
  /-- LSN of the last cut the target acknowledged (R271, R275). -/
  lastLsn : Nat
  /-- where the next record goes in the target's replication region (R270). -/
  offset : Nat
  /-- device time of the last cut (R271). -/
  lastCut : Option Nat
  /-- device time it entered ERROR (R275). -/
  errAt : Nat
  deriving DecidableEq, Repr

/-- Repl after reset. -/
def Repl.reset : Repl where
  enable := false
  role := false
  remote := 0
  keySlot := 0
  intervalS := 0x3C
  volume := 0
  remoteVolume := 0
  st := 0
  authFail := false
  batch := 0
  nextBatch := 1
  counter := 1
  cuts := []
  seen := []
  batchIn := []
  endCount := none
  qpn := none
  peerKey := none
  stopping := false
  inBatch := 0
  lastLsn := 0
  offset := 0
  lastCut := none
  errAt := 0

/-- Remote memory and replication. -/
structure Rma where
  /-- RMA_REG_BASE (R278). -/
  regBase : BitVec 64
  /-- RMA_REG_LEN (R278). -/
  regLen : Nat
  /-- RMA_REG_ATTR.TENANT (R277). -/
  attrTenant : Nat
  /-- RMA_REG_ATTR.REMOTE_READ (R277). -/
  attrRd : Bool
  /-- RMA_REG_ATTR.REMOTE_WRITE (R277). -/
  attrWr : Bool
  /-- RMA_REG_RESULT (R278). -/
  result : BitVec 32
  /-- RMA_KEY_GEN (R278). -/
  keyGen : BitVec 32
  /-- RMA_STATUS.REG_ERR (R277). -/
  regErr : Bool
  /-- RMA_STATUS.REPL_ERR (R277). -/
  replErr : Bool
  /-- indices used so far (R264). -/
  regions : List Region
  /-- used indices now free, longest free first (R264). -/
  freed : List Nat
  /-- replication links (R279). -/
  links : List Repl
  /-- regions and RMA_KEY_GEN as they stood before this cycle's commits (R267). -/
  before : Option (List Region × BitVec 32)
  deriving DecidableEq, Repr

/-- Rma after reset. -/
def Rma.reset : Rma where
  regBase := 0
  regLen := 0
  attrTenant := 0
  attrRd := false
  attrWr := false
  result := 0
  keyGen := 0
  regErr := false
  replErr := false
  regions := []
  freed := []
  links := List.replicate 64 Repl.reset
  before := none

/-- A raster geometry. -/
structure Geometry where
  /-- SAMPLE_BITS (R358). -/
  bits : Nat
  /-- LANES (R358). -/
  lanes : Nat
  /-- STRIDE (R358). -/
  stride : Nat
  /-- ROW0_LBA (R358). -/
  row0 : Nat
  deriving DecidableEq, Repr

/-- Geometry after reset. -/
def Geometry.reset : Geometry where
  bits := 8
  lanes := 1
  stride := 32768
  row0 := 0

/-- One write-log frame. -/
structure Frame where
  /-- LSN (0: none yet) (R291). -/
  lsn : Nat
  /-- VOLUME (R291). -/
  volume : Nat
  /-- TENANT (R291). -/
  tenant : Nat
  /-- SECT_MASK (R291). -/
  mask : BitVec 8
  /-- FSTATE (a free frame is not listed) (R291). -/
  st : FrameState
  /-- OWNER (R291). -/
  owner : Bool
  /-- ORIGIN (R291, R300). -/
  origin : Nat
  /-- CHUNK (R291). -/
  chunk : Nat
  /-- QUEUE (R291). -/
  queue : Nat
  /-- the queue QUEUE names (R291, R212). -/
  q : QueueId
  /-- tag of TAGGEN (R291). -/
  tag : Nat
  /-- generation of TAGGEN (R291). -/
  gen : Nat
  /-- FRAME_INDEX (R291). -/
  index : Nat
  /-- FRAME_COUNT (R291). -/
  count : Nat
  /-- ADMIT_TIME (R291). -/
  admitTime : Nat
  /-- DATA, slot s (R291). -/
  data : List (List (BitVec 8))
  /-- PI, slot s (R291). -/
  pi : List (List (BitVec 8))
  /-- protected (R295, R34). -/
  prot : Bool
  /-- an assembly has taken its contents (R306). -/
  taken : Bool
  /-- WLG_ASM_DELAY in force at its admission (R313). -/
  delay : Nat
  /-- raster geometry in force at its admission (R310). -/
  geom : Option Geometry
  /-- container of a replicated chunk, for Protect (R357). -/
  container : List (BitVec 8)
  /-- sectors that container names lost (R357). -/
  lost : BitVec 8
  deriving DecidableEq, Repr

/-- Frame after reset. -/
def Frame.reset : Frame where
  lsn := 0
  volume := 0
  tenant := 0
  mask := 0
  st := .filling
  owner := false
  origin := 0
  chunk := 0
  queue := 0
  q := .ring 0 0
  tag := 0
  gen := 0
  index := 0
  count := 0
  admitTime := 0
  data := []
  pi := []
  prot := false
  taken := false
  delay := 2000
  geom := none
  container := []
  lost := 0

/-- One write that holds, or waits for, budget and frames. -/
structure HeldWrite where
  /-- queue (R304). -/
  q : QueueId
  /-- tag (R304). -/
  tag : Nat
  /-- source class (R304). -/
  origin : Nat
  /-- frames it needs (R302). -/
  frames : Nat
  /-- a write forwarded by the peer (R236). -/
  remote : Bool
  /-- device time of its fetch (R304). -/
  fetchedAt : Nat
  /-- device time from which it is held (R305). -/
  since : Nat
  deriving DecidableEq, Repr

/-- HeldWrite after reset. -/
def HeldWrite.reset : HeldWrite where
  q := .ring 0 0
  tag := 0
  origin := 0
  frames := 0
  remote := false
  fetchedAt := 0
  since := 0

/-- One chunk job between assembly and its map entry. -/
structure Job where
  /-- VOLUME (R310). -/
  volume : Nat
  /-- TENANT (R310). -/
  tenant : Nat
  /-- CHUNK (R310). -/
  chunk : Nat
  /-- LSN of the newest frame used (R310). -/
  lsn : Nat
  /-- the 8 sectors (R310). -/
  sectors : List (List (BitVec 8))
  /-- their guards (R310). -/
  guards : List (BitVec 64)
  /-- their PI (R316). -/
  pis : List (List (BitVec 8))
  /-- lost-sector mask (R309). -/
  lost : BitVec 8
  /-- raster geometry (R310). -/
  geom : Option Geometry
  /-- frames to release (LSN, FRAME_INDEX) (R310). -/
  frames : List (Nat × Nat)
  /-- where the job is (R308). -/
  stage : JobStage
  /-- fingerprint bytes 0 to 15 (R315). -/
  fp : List (BitVec 8)
  /-- LOCATION a hit gave (R325). -/
  hit : Option (BitVec 64)
  /-- container built (R351). -/
  container : List (BitVec 8)
  /-- encoder lane (R368). -/
  lane : Nat
  /-- serial assigned (R400). -/
  serial : BitVec 64
  /-- grain address taken (R489). -/
  grain : BitVec 64
  /-- may be inserted into the seed table (R323). -/
  indexed : Bool
  /-- Shared of its map entry (R325). -/
  shared : Bool
  /-- seed record (bucket, slot) it is to replace (R328). -/
  replace : Option (Nat × Nat)
  /-- device time its fingerprint was known (R329). -/
  fpAt : Nat
  /-- fingerprint lane (R329). -/
  fpLane : Nat
  /-- device time its verification result was taken (R374). -/
  verAt : Nat
  /-- decoder/verifier lane that verified it (R374). -/
  verLane : Nat
  /-- a copy of a chunk whose count is saturated (R333). -/
  copy : Bool
  deriving DecidableEq, Repr

/-- Job after reset. -/
def Job.reset : Job where
  volume := 0
  tenant := 0
  chunk := 0
  lsn := 0
  sectors := []
  guards := []
  pis := []
  lost := 0
  geom := none
  frames := []
  stage := .assembling
  fp := []
  hit := none
  container := []
  lane := 0
  serial := 0
  grain := 0
  indexed := true
  shared := false
  replace := none
  fpAt := 0
  fpLane := 0
  verAt := 0
  verLane := 0
  copy := false

/-- Write log. -/
structure Wlg where
  /-- WLG_STATUS.MIRROR (R312). -/
  mirror : Nat
  /-- WLG_STATUS.LOG_FULL (R312). -/
  logFull : Bool
  /-- WLG_STATUS.HOLD_TIMEOUT (R312). -/
  holdTimeout : Bool
  /-- WLG_STATUS.SIZE_MISMATCH (R312). -/
  sizeMismatch : Bool
  /-- WLG_STATUS.CFG_ERR (R312). -/
  cfgErr : Bool
  /-- WLG_STATUS.WLOG_GIB (per image; no image yet) (R312). -/
  gib : Nat
  /-- WLG_LSN (R313). -/
  lsn : Nat
  /-- WLG_COMMIT_LSN (R313). -/
  commitLsn : Nat
  /-- WLG_MIRROR_NS (R313). -/
  mirrorNs : Nat
  /-- WLG_ASM_DELAY (R313). -/
  asmDelay : Nat
  /-- frames in use (R291). -/
  frames : List Frame
  /-- reservations of writes not yet admitted (R302). -/
  reserved : List HeldWrite
  /-- writes are held for acknowledgement and record 0x0702 is written (R297). -/
  heldRec : Bool
  /-- held writes, oldest first (R304). -/
  holds : List HeldWrite
  /-- chunk jobs (R308, R310). -/
  jobs : List Job
  /-- mirror messages sent again (LSN, times) (R389). -/
  resends : List (Nat × Nat)
  /-- source class whose write was admitted last (R293). -/
  turn : Nat
  /-- channel whose write was admitted last (R301). -/
  chanTurn : Nat
  /-- source class whose held write reserved last (R304). -/
  holdTurn : Nat
  deriving DecidableEq, Repr

/-- Wlg after reset. -/
def Wlg.reset : Wlg where
  mirror := 0
  logFull := false
  holdTimeout := false
  sizeMismatch := false
  cfgErr := false
  gib := 0
  lsn := 0
  commitLsn := 0
  mirrorNs := 0
  asmDelay := 2000
  frames := []
  reserved := []
  heldRec := false
  holds := []
  jobs := []
  resends := []
  turn := 6
  chanTurn := 0
  holdTurn := 6

/-- One occupied slot of a seed space. -/
structure SeedSlot where
  /-- bucket (R319). -/
  bucket : Nat
  /-- slot (R319). -/
  slot : Nat
  /-- filter tag (R319). -/
  tag : BitVec 16
  /-- FP (R321). -/
  fp : List (BitVec 8)
  /-- LOCATION (R321). -/
  location : BitVec 64
  /-- COUNT (R321). -/
  count : Nat
  deriving DecidableEq, Repr

/-- SeedSlot after reset. -/
def SeedSlot.reset : SeedSlot where
  bucket := 0
  slot := 0
  tag := 0
  fp := []
  location := 0
  count := 0

/-- One tenant's seed space. -/
structure SeedSpace where
  /-- tenant (R319). -/
  tenant : Nat
  /-- b (R319). -/
  b : Nat
  /-- split_ptr (R320, R324). -/
  splitPtr : Nat
  /-- SPLITTING (R348). -/
  splitting : Bool
  /-- occupied slots (R319). -/
  slots : List SeedSlot
  /-- RED_UNINDEXED (R349). -/
  unindexed : Nat
  /-- SEC key slot of the dedup key (R318). -/
  keySlot : Nat
  /-- dedup key (R318). -/
  key : List (BitVec 8)
  /-- stripe geometry of the tenant's first DEDUP volume (R321). -/
  k : Nat
  /-- its M (R321). -/
  m : Nat
  deriving DecidableEq, Repr

/-- SeedSpace after reset. -/
def SeedSpace.reset : SeedSpace where
  tenant := 0
  b := 10
  splitPtr := 0
  splitting := false
  slots := []
  unindexed := 0
  keySlot := 0
  key := []
  k := 4
  m := 2

/-- One share record. -/
structure ShareRec where
  /-- grain address (R331). -/
  grain : BitVec 64
  /-- count (R331). -/
  count : Nat
  deriving DecidableEq, Repr

/-- ShareRec after reset. -/
def ShareRec.reset : ShareRec where
  grain := 0
  count := 0

/-- One map entry with its recorded LSN. -/
structure MapEntry where
  /-- chunk index (R489). -/
  chunk : Nat
  /-- Method (R489). -/
  method : Method
  /-- grain address (R489). -/
  grain : BitVec 43
  /-- stored length in grains (R489). -/
  grains : Nat
  /-- Shared (R489). -/
  shared : Bool
  /-- recorded LSN (R308, R491). -/
  lsn : Nat
  deriving DecidableEq, Repr

/-- MapEntry after reset. -/
def MapEntry.reset : MapEntry where
  chunk := 0
  method := .zero
  grain := 0
  grains := 0
  shared := false
  lsn := 0

/-- One map-page pair: 512 map entries and their recorded LSNs. -/
structure MapPage where
  /-- identity of the pair (R491). -/
  id : Nat
  /-- mapped chunks, ascending, each with its recorded LSN (R489). -/
  entries : List MapEntry
  /-- recorded LSN of unmapped chunks (R342, R491). -/
  cleared : List (Nat × Nat)
  deriving DecidableEq, Repr

/-- MapPage after reset. -/
def MapPage.reset : MapPage where
  id := 0
  entries := []
  cleared := []

/-- One snapshot, clone source or replication cut. -/
structure Snapshot where
  /-- number (0 for a replication cut) (R334). -/
  num : Nat
  /-- snapshot point (R335). -/
  point : Int
  /-- cut LSN (R334). -/
  cut : Nat
  /-- in the snapshot list (R334). -/
  listed : Bool
  /-- frozen (R335). -/
  frozen : Bool
  /-- its release is running (R336). -/
  deleting : Bool
  /-- device time it left the list (R336). -/
  removedAt : Option Nat
  /-- replication link whose cut it is (R271). -/
  link : Option Nat
  /-- map tree: page index, pair identity (R335, R491). -/
  table : List (Nat × Nat)
  deriving DecidableEq, Repr

/-- Snapshot after reset. -/
def Snapshot.reset : Snapshot where
  num := 0
  point := 0
  cut := 0
  listed := false
  frozen := false
  deleting := false
  removedAt := none
  link := none
  table := []

/-- A raster hint over a range. -/
structure RangeHint where
  /-- first sector (R232). -/
  lba : Nat
  /-- sectors (R232). -/
  count : Nat
  /-- geometry (R232). -/
  geom : Geometry
  deriving DecidableEq, Repr

/-- RangeHint after reset. -/
def RangeHint.reset : RangeHint where
  lba := 0
  count := 0
  geom := Geometry.reset

/-- One volume. -/
structure Volume where
  /-- number (R238). -/
  num : Nat
  /-- TENANT (R234). -/
  tenant : Nat
  /-- SIZE, sectors (R234). -/
  size : Nat
  /-- K (R234). -/
  k : Nat
  /-- M (R234). -/
  m : Nat
  /-- REDUCE (R234). -/
  reduce : Bool
  /-- DEDUP (R234). -/
  dedup : Bool
  /-- VERIFY_MATCH (R234). -/
  verify : Bool
  /-- map tree of the live version: page index, pair identity (R491). -/
  table : List (Nat × Nat)
  /-- snapshots and replication cuts, oldest first (R334, R271). -/
  snaps : List Snapshot
  /-- retention locks (R341). -/
  locks : List Lock
  /-- remembered default geometry (R232). -/
  default_ : Option Geometry
  /-- remembered range hints (R499). -/
  ranges : List RangeHint
  /-- transient hints, newest first (this head's) (R232). -/
  transient : List RangeHint
  /-- DEDUP_HITS (R345). -/
  hits : Nat
  /-- VERIFY_MISMATCHES (R345). -/
  mismatches : Nat
  /-- UNINDEXED (R345). -/
  unindexed : Nat
  /-- DISCARDED_CHUNKS (R345). -/
  discarded : Nat
  /-- LOGICAL_BYTES (R345). -/
  logical : Nat
  /-- CREATED, civil time of creation (R496). -/
  created : Int
  /-- target of an enabled replication link (R274). -/
  target : Bool
  deriving DecidableEq, Repr

/-- Volume after reset. -/
def Volume.reset : Volume where
  num := 0
  tenant := 0
  size := 0
  k := 4
  m := 2
  reduce := false
  dedup := false
  verify := false
  table := []
  snaps := []
  locks := []
  default_ := none
  ranges := []
  transient := []
  hits := 0
  mismatches := 0
  unindexed := 0
  discarded := 0
  logical := 0
  created := 0
  target := false

/-- Reduction. -/
structure Red where
  /-- RED_STATUS.SEED_READY (R347). -/
  seedReady : Bool
  /-- RED_STATUS.COLLISION (R347). -/
  collision : Bool
  /-- RED_STATUS.SATURATED (R347). -/
  saturated : Bool
  /-- RED_CTL.ARCH_NOVERIFY (R347). -/
  archNoVerify : Bool
  /-- RED_SEED_SEL.TENANT (R348). -/
  seedSel : Nat
  /-- seed spaces (R319). -/
  spaces : List SeedSpace
  /-- share table (R331). -/
  shares : List ShareRec
  /-- map-page pairs of every version (R491). -/
  pages : List MapPage
  /-- next pair identity (the model's own) (R491). -/
  nextPage : Nat
  /-- volumes, with map, snapshots, locks (R238). -/
  volumes : List Volume
  /-- chunks whose saturation has been recorded (R333). -/
  saturatedAt : List (BitVec 64)
  /-- locks that expired in this cycle, with their volumes (R128). -/
  expiring : List (Nat × Lock)
  /-- locks of the volumes that placed one in this cycle, as they stood before it (R340). -/
  before : List (Nat × List Lock)
  /-- volumes a hint of this cycle was given for, as they stood before it (R232). -/
  hintsBefore : List Volume
  /-- records whose count fell to 0 in this cycle (grain address, grains) (R325). -/
  zeroed : List (Nat × Nat)
  /-- chunks of live versions that are to be copied (volume, chunk) (R333). -/
  copies : List (Nat × Nat)
  /-- fingerprint lane of the last miss (R329). -/
  fpTurn : Nat
  deriving DecidableEq, Repr

/-- Red after reset. -/
def Red.reset : Red where
  seedReady := false
  collision := false
  saturated := false
  archNoVerify := false
  seedSel := 0
  spaces := []
  shares := []
  pages := []
  nextPage := 0
  volumes := []
  saturatedAt := []
  expiring := []
  before := []
  hintsBefore := []
  zeroed := []
  copies := []
  fpTurn := 39

/-- Kernel coder. -/
structure Kc where
  /-- RED_KC_STATUS.VERIFY_FAIL (R379). -/
  verifyFail : Bool
  /-- RED_KC_STATUS.DECODE_FAIL (R379). -/
  decodeFail : Bool
  /-- RED_KC_STATUS.DICT_FAIL (R379). -/
  dictFail : Bool
  /-- RED_KC_STATUS.CTL_ERR (R379). -/
  ctlErr : Bool
  /-- lanes started (ENC_LANES and DEC_LANES read 0 until step 8) (R379). -/
  lanesUp : Bool
  /-- RED_KC_CTL.FORCE_RAW (R379). -/
  forceRaw : Bool
  /-- RED_KC_CTL.BEARING_FIXED (R379). -/
  bearingFixed : Bool
  /-- RED_KC_CTL.BEARING_PRED (R379). -/
  bearingPred : Nat
  /-- RED_KC_CTL as it stood before this cycle's writes (R371). -/
  ctlBefore : Option (Bool × Bool × Nat)
  /-- RED_KC_CHUNKS (R381). -/
  chunks : Nat
  /-- RED_KC_KERNEL (R381). -/
  kernel : Nat
  /-- RED_KC_OVERFLOW (R381). -/
  overflow : Nat
  /-- RED_KC_MISMATCH (R381). -/
  mismatch : Nat
  /-- RED_KC_DECODE_FAIL (R381). -/
  decodeFails : Nat
  /-- RED_KC_PRED_SLICES (R381). -/
  predSlices : List Nat
  /-- lanes of the decoder/verifier pool at work, and until when (R17). -/
  taken : List (Nat × Nat)
  deriving DecidableEq, Repr

/-- Kc after reset. -/
def Kc.reset : Kc where
  verifyFail := false
  decodeFail := false
  dictFail := false
  ctlErr := false
  lanesUp := false
  forceRaw := false
  bearingFixed := false
  bearingPred := 3
  ctlBefore := none
  chunks := 0
  kernel := 0
  overflow := 0
  mismatch := 0
  decodeFails := 0
  predSlices := List.replicate 8 0
  taken := []

/-- One service key slot in use. -/
structure KeySlot where
  /-- slot (R395). -/
  num : Nat
  /-- key (R392). -/
  key : List (BitVec 8)
  /-- tenant whose dedup key it holds (R395). -/
  dedup : Option Nat
  /-- cipher-service counter (R409). -/
  csCounter : Nat
  /-- KEY_EPOCH (R273). -/
  epoch : Nat
  /-- holds a key (ZEROISE clears it) (R396). -/
  present : Bool
  deriving DecidableEq, Repr

/-- KeySlot after reset. -/
def KeySlot.reset : KeySlot where
  num := 0
  key := []
  dedup := none
  csCounter := 1
  epoch := 0
  present := false

/-- One tenant key table entry. -/
structure TenantKey where
  /-- tenant (R394). -/
  tenant : Nat
  /-- XTS key 1 (R392). -/
  key1 : List (BitVec 8)
  /-- XTS key 2 (R392). -/
  key2 : List (BitVec 8)
  deriving DecidableEq, Repr

/-- TenantKey after reset. -/
def TenantKey.reset : TenantKey where
  tenant := 0
  key1 := []
  key2 := []

/-- One cipher service job. -/
structure CsJob where
  /-- true OPEN, false SEAL (R409). -/
  open_ : Bool
  /-- slot (R408). -/
  slot : Nat
  /-- DST_SPACE (R417). -/
  dstSpace : Nat
  /-- destination offset (R418). -/
  dst : Nat
  /-- the key it is bound to (R397). -/
  key : List (BitVec 8)
  /-- AAD bytes read (R408). -/
  aad : List (BitVec 8)
  /-- plaintext or ciphertext read (R408). -/
  text : List (BitVec 8)
  /-- IV (R409). -/
  iv : List (BitVec 8)
  /-- expected tag of an OPEN (R409). -/
  tag : List (BitVec 8)
  deriving DecidableEq, Repr

/-- CsJob after reset. -/
def CsJob.reset : CsJob where
  open_ := false
  slot := 0
  dstSpace := 0
  dst := 0
  key := []
  aad := []
  text := []
  iv := []
  tag := []

/-- Security. -/
structure Sec where
  /-- SEC_STATUS.DRBG_OK (R415). -/
  drbgOk : Bool
  /-- SEC_STATUS.KEYS_READY (R415). -/
  keysReady : Bool
  /-- SEC_STATUS.CS_ERR (R415). -/
  csErr : Bool
  /-- SEC_STATUS.KEY_ERR (R415). -/
  keyErr : Bool
  /-- SEC_ALARM.CAUSE (R415). -/
  alarm : BitVec 5
  /-- device time of the last CLK_GLITCH (R405). -/
  clkAt : Option Nat
  /-- device time of the last VOLT_GLITCH (R405). -/
  voltAt : Option Nat
  /-- device time of the last DRBG health failure (R404). -/
  drbgFailAt : Option Nat
  /-- reseeds since start (R404). -/
  drbgReseeds : Nat
  /-- device time of the last reseed (R404). -/
  drbgAt : Nat
  /-- outputs drawn before the last reseed (R404). -/
  drbgFrom : Nat
  /-- service slots and SEC_KEY_GEN as they stood before this cycle's changes (R397). -/
  before : Option (List KeySlot × BitVec 32)
  /-- SEC_KEY_GEN (R418). -/
  keyGen : BitVec 32
  /-- generations of the live key bindings, oldest first (R397). -/
  bindings : List (BitVec 32)
  /-- the device key is derived (R392). -/
  deviceKey : Bool
  /-- array key (R392). -/
  arrayKey : Option (List (BitVec 8))
  /-- service key slots ever assigned (R395). -/
  slots : List KeySlot
  /-- tenant key table (R394). -/
  tenants : List TenantKey
  /-- SEC_KEY_DATA (reads 0) (R416). -/
  keyData : List (BitVec 32)
  /-- slot of a GENERATE that runs and waits for the DRBG (R404, R416). -/
  keyWait : Option Nat
  /-- outputs drawn from the DRBG (R404). -/
  drbgCount : Nat
  /-- next serial, bits [62:0] (R400, R401). -/
  serial : Nat
  /-- end of the reserved block (R401). -/
  serialEnd : Nat
  /-- SEC_PI_FAILS (R418). -/
  piFails : Nat
  /-- SEC_CS_LOCK.TOKEN (R417). -/
  lockToken : BitVec 16
  /-- SEC_CS_LOCK.EP (R417). -/
  lockEp : Nat
  /-- SEC_CS_LOCK.HELD (R417). -/
  lockHeld : Bool
  /-- device time the lock was taken, or a job was last started under it (R407). -/
  lockAt : Nat
  /-- SEC_CS_SRC (R418). -/
  csSrc : BitVec 64
  /-- SEC_CS_DST (R418). -/
  csDst : BitVec 64
  /-- SEC_CS_LEN (R418). -/
  csLen : Nat
  /-- SEC_CS_AAD_LEN (R418). -/
  csAadLen : Nat
  /-- SEC_CS_IV (R418). -/
  csIv : List (BitVec 32)
  /-- SEC_CS_TAG (R418). -/
  csTag : List (BitVec 32)
  /-- SEC_CS_STATUS.STATE (R417). -/
  csState : Nat
  /-- SEC_CS_STATUS.RESULT (R417). -/
  csResult : Nat
  /-- the job running, with the source bytes it read (R410). -/
  csJob : Option CsJob
  /-- device time of the last job's end, and space, offset and length of its output (R406). -/
  csOut : Option (Nat × Nat × Nat × Nat)
  deriving DecidableEq, Repr

/-- Sec after reset. -/
def Sec.reset : Sec where
  drbgOk := false
  keysReady := false
  csErr := false
  keyErr := false
  alarm := 0
  clkAt := none
  voltAt := none
  drbgFailAt := none
  drbgReseeds := 0
  drbgAt := 0
  drbgFrom := 0
  before := none
  keyGen := 0
  bindings := []
  deviceKey := false
  arrayKey := none
  slots := []
  tenants := []
  keyData := List.replicate 10 0
  keyWait := none
  drbgCount := 0
  serial := 0
  serialEnd := 0
  piFails := 0
  lockToken := 0
  lockEp := 0
  lockHeld := false
  lockAt := 0
  csSrc := 0
  csDst := 0
  csLen := 0
  csAadLen := 0
  csIv := [0, 0, 0]
  csTag := [0, 0, 0, 0]
  csState := 0
  csResult := 0
  csJob := none
  csOut := none

/-- Digest service. -/
structure Dig where
  /-- DIG_STATUS.STATE (R419). -/
  st : DigState
  /-- DIG_STATUS.FIXITY (R419). -/
  fixity : Bool
  /-- DIG_STATUS.REFUSED (R419). -/
  refused : Bool
  /-- DIG_STATUS.CAUSE (R419). -/
  cause : Nat
  /-- DIG_STATUS.EP (R419). -/
  ep : Nat
  /-- DIG_SRC (R419). -/
  src : BitVec 64
  /-- DIG_LEN (R419). -/
  len : Nat
  /-- DIG_DONE_BYTES (R419). -/
  doneBytes : Nat
  /-- DIG_RESULT (R419). -/
  result : List (BitVec 32)
  /-- algorithm of the job (R412). -/
  alg : Nat
  /-- message bytes read (R412). -/
  msg : List (BitVec 8)
  /-- FIXITY command it serves (R413). -/
  cmd : Option (QueueId × Nat)
  /-- its command is executed here for the peer (R236). -/
  remote : Bool
  /-- device time a host job started (R411). -/
  startAt : Option Nat
  /-- device time it entered DONE (R413). -/
  doneAt : Nat
  deriving DecidableEq, Repr

/-- Dig after reset. -/
def Dig.reset : Dig where
  st := .idle
  fixity := false
  refused := false
  cause := 0
  ep := 0
  src := 0
  len := 0
  doneBytes := 0
  result := List.replicate 12 0
  alg := 0
  msg := []
  cmd := none
  remote := false
  startAt := none
  doneAt := 0

/-- One command outstanding on, or waiting for, a DML port. -/
structure DmlCmd where
  /-- tag (R433, R439). -/
  tag : Nat
  /-- GEN of the tag (R439). -/
  gen : Nat
  /-- OPC (R434). -/
  opc : Nat
  /-- FINAL (R433, R441). -/
  final_ : Bool
  /-- DIE (R433). -/
  die : Nat
  /-- PLANES (R433). -/
  planes : BitVec 8
  /-- COUNT (R433). -/
  count : Nat
  /-- BLOCK (R433). -/
  block : Nat
  /-- PAGE (R433). -/
  page : Nat
  /-- COLUMN (R433). -/
  column : Nat
  /-- LENGTH (R433). -/
  length : Nat
  /-- PARAM (R433, R434). -/
  param : BitVec 32
  /-- bytes the Psiale sends (PROGRAM) or has received (READ) (R436). -/
  data : List (BitVec 8)
  /-- whose work it is (R477, R517, R554). -/
  work : DieWork
  deriving DecidableEq, Repr

/-- DmlCmd after reset. -/
def DmlCmd.reset : DmlCmd where
  tag := 0
  gen := 0
  opc := 0
  final_ := false
  die := 0
  planes := 1
  count := 0
  block := 0
  page := 0
  column := 0
  length := 0
  param := 0
  data := []
  work := .control

/-- One DML port and the module cabled to it. -/
structure Med1 where
  /-- MED_PORT_STATUS.STATE (R423, R464). -/
  st : DmlState
  /-- MED_PORT_STATUS.PRESENT (R464). -/
  present : Bool
  /-- MED_PORT_STATUS.PG (R464). -/
  pg : Bool
  /-- MED_PORT_STATUS.BRIDGE_PORT (R464). -/
  bridgePort : Bool
  /-- MED_PORT_STATUS.FENCED_HERE (R464, R449). -/
  fencedHere : Bool
  /-- MED_PORT_STATUS.FENCE_HOLDER (R464). -/
  fenceHolder : Bool
  /-- MED_PORT_STATUS.RES_DIES (R464). -/
  resDies : Nat
  /-- dies whose reservation this head holds (R445). -/
  held : BitVec 256
  /-- MED_PORT_EPOCH (R466). -/
  epoch : Nat
  /-- MED_PORT_ERR.CRC_ERRS (R465). -/
  crcErrs : Nat
  /-- MED_PORT_ERR.REPLAYS (R465). -/
  replays : Nat
  /-- MED_PORT_ERR.RETRAINS (R465). -/
  retrains : Nat
  /-- MED_PORT_TEMP [15:0] (R466). -/
  temp : BitVec 16
  /-- MED_PORT_TEMP [18:16] (R466). -/
  tempZone : Nat
  /-- MED_MODULE_SERIAL (R466). -/
  serial : BitVec 64
  /-- SEQ of the next sequenced flit sent (R429). -/
  seqTx : Nat
  /-- SEQ expected next (R429). -/
  seqRx : Nat
  /-- a NAK is sent and the expected SEQ has not arrived (R430). -/
  nakSent : Bool
  /-- unacknowledged flits: SEQ, times replayed; oldest first (R430, R431). -/
  unacked : List (Nat × Nat)
  /-- SYNC flits missing in a row (R422). -/
  syncMiss : Nat
  /-- failed attempts of this retrain (R423). -/
  retrainTries : Nat
  /-- command credits held (R432). -/
  creditCmd : Nat
  /-- write-data credits held (R432). -/
  creditWd : Nat
  /-- last CRD_CMD total (R427, R432). -/
  crdCmdSeen : Nat
  /-- last CRD_WD total (R427, R432). -/
  crdWdSeen : Nat
  /-- outstanding commands, in the order sent (R439). -/
  cmds : List DmlCmd
  /-- commands that wait for a credit or a tag, oldest first (R432). -/
  waiting : List DmlCmd
  /-- data records that wait for a credit or the window: TAG field, offset, bytes (R432, R436). -/
  wdWait : List (Nat × Nat × List (BitVec 8))
  /-- a sequenced flit has been accepted: the ACK field is meaningful (R427). -/
  rxAny : Bool
  /-- device time of entry to the present state, or of the last failed attempt in RETRAIN, ns (R423). -/
  stAt : Nat
  /-- device time of the last ACK progress, replay, or send with nothing unacknowledged, ns (R430). -/
  ackAt : Nat
  /-- record 0x0A0A has been written for the present gap (R455). -/
  telemLost : Bool
  /-- module tick of the last TELEM flit (R454). -/
  tick : Nat
  /-- BRIDGE_TEMP (R454). -/
  bridgeTemp : BitVec 16
  /-- INLET_TEMP (R454). -/
  inletTemp : BitVec 16
  /-- NV_OK (R454). -/
  nvOk : Bool
  /-- GEN of each tag used so far (R439). -/
  tagGens : List (Nat × Nat)
  /-- device time of the last TELEM flit, or of entry to ACTIVE (R455). -/
  telemTime : Nat
  /-- ZONE_TEMP of the last TELEM flit (R454). -/
  zoneTemps : List (BitVec 16)
  /-- VIN, mV (R454). -/
  vin : Nat
  /-- IIN, 10 mA (R454). -/
  iin : Nat
  /-- OTHER_PORT_ACTIVE of the last TELEM flit (R454). -/
  otherActive : Bool
  /-- DIE_BUSY (R454). -/
  busyDies : BitVec 256
  /-- dies suspended (R454, R451). -/
  suspended : BitVec 256
  /-- module information page read ([]: none) (R458). -/
  info : List (BitVec 8)
  /-- outstanding operation (tag) and times suspended (R451, R477). -/
  suspCounts : List (Nat × Nat)
  /-- number of the 100 ms window that `used` and `wrote` count (R517). -/
  useAt : Nat
  /-- die time of each kind of work in the window, us (R517, R554). -/
  used : List (DieWork × Nat)
  /-- die time of programs and erases in the window, us (R631). -/
  wrote : Nat
  deriving DecidableEq, Repr

/-- Med1 after reset. -/
def Med1.reset : Med1 where
  st := .disabled
  present := false
  pg := false
  bridgePort := false
  fencedHere := false
  fenceHolder := false
  resDies := 0
  held := 0
  epoch := 0
  crcErrs := 0
  replays := 0
  retrains := 0
  temp := 0
  tempZone := 0
  serial := 0
  seqTx := 0
  seqRx := 0
  nakSent := false
  unacked := []
  syncMiss := 0
  retrainTries := 0
  creditCmd := 0
  creditWd := 0
  crdCmdSeen := 0
  crdWdSeen := 0
  cmds := []
  waiting := []
  wdWait := []
  rxAny := false
  stAt := 0
  ackAt := 0
  telemLost := false
  tick := 0
  bridgeTemp := 0x8000
  inletTemp := 0x8000
  nvOk := true
  tagGens := []
  telemTime := 0
  zoneTemps := List.replicate 8 0x8000
  vin := 0
  iin := 0
  otherActive := false
  busyDies := 0
  suspended := 0
  info := []
  suspCounts := []
  useAt := 0
  used := []
  wrote := 0

/-- Module links. -/
structure Med where
  /-- the DML ports (R423, R464). -/
  ports : List Med1
  /-- MED_STATUS.CTL_ERR (R463). -/
  ctlErr : Bool
  /-- MED_STATUS.STALE_CPL (R463, R439). -/
  staleCpl : Bool
  /-- MED_TELEM_CTL.PERIOD_MS (per image; no image yet, so its default) (R463). -/
  periodMs : Nat
  deriving DecidableEq, Repr

/-- Med after reset. -/
def Med.reset : Med where
  ports := List.replicate 48 Med1.reset
  ctlErr := false
  staleCpl := false
  periodMs := 100

/-- One member location of a strip. -/
structure Member where
  /-- module slot (R481). -/
  slot : Nat
  /-- die (R481). -/
  die : Nat
  /-- plane (R481). -/
  plane : Nat
  /-- strip slot (R481). -/
  strip : Nat
  /-- block (R481). -/
  block : Nat
  deriving DecidableEq, Repr

/-- Member after reset. -/
def Member.reset : Member where
  slot := 0
  die := 0
  plane := 0
  strip := 0
  block := 0

/-- One trailer entry of a stripe's data strips. -/
structure TrailerEntry where
  /-- VOLUME (R483). -/
  volume : Nat
  /-- EFLAGS METHOD (R483). -/
  method : Nat
  /-- EFLAGS Shared (R483). -/
  shared : Bool
  /-- EFLAGS MOVED (R483). -/
  moved : Bool
  /-- EFLAGS object kind (R483). -/
  kind : Nat
  /-- stored length in grains (R483). -/
  len : Nat
  /-- grain address (BASE_GRAIN + 4096 x strip + OFFSET) (R483, R482). -/
  grain : BitVec 43
  /-- CHUNK (R483). -/
  chunk : Nat
  /-- LSN (R483). -/
  lsn : Nat
  deriving DecidableEq, Repr

/-- TrailerEntry after reset. -/
def TrailerEntry.reset : TrailerEntry where
  volume := 0
  method := 0
  shared := false
  moved := false
  kind := 0
  len := 0
  grain := 0
  chunk := 0
  lsn := 0

/-- One strip table entry in use. -/
structure StripEntry where
  /-- data strip number (R482, R528). -/
  num : Nat
  /-- member location of the data strip (R482). -/
  member : Member
  /-- POSITION (R482). -/
  position : Nat
  /-- K' (R482). -/
  k : Nat
  /-- M (R482). -/
  m : Nat
  /-- KIND (R482). -/
  kind : Nat
  /-- parity member location, in positions 0 to M - 1 (R482). -/
  parity : Option Member
  /-- STRIPE serial (R482). -/
  stripe : BitVec 64
  deriving DecidableEq, Repr

/-- StripEntry after reset. -/
def StripEntry.reset : StripEntry where
  num := 0
  member := Member.reset
  position := 0
  k := 0
  m := 0
  kind := 0
  parity := none
  stripe := 0

/-- One stripe of the array as this head knows it. -/
structure Stripe where
  /-- STRIPE (R481). -/
  serial : BitVec 64
  /-- BASE_GRAIN (R481). -/
  base : Nat
  /-- K' (R481, R527). -/
  k : Nat
  /-- M (R481). -/
  m : Nat
  /-- HEAD of the building head (R481). -/
  head : Bool
  /-- KIND (R481). -/
  kind : Nat
  /-- K of the geometry it was opened for (R526, R527). -/
  geomK : Nat
  /-- MEMBERS in POSITION order (R481). -/
  members : List Member
  /-- WAYPOINT_SEQ (bits [62:0]) (R481). -/
  wseq : Nat
  /-- PROGRAM_TIME (R481). -/
  programTime : Nat
  /-- open, closed (being programmed) or complete (R29, R530). -/
  st : StripeState
  /-- device time its first chunk entered it (R29). -/
  openedAt : Option Nat
  /-- next free grain of the open stripe (R482, R526). -/
  fill : Nat
  /-- bytes of the data strips while the stripe is being built (R532). -/
  strips : List (List (BitVec 8))
  /-- its objects (R483). -/
  entries : List TrailerEntry
  /-- live grains (R507). -/
  live : Nat
  /-- positions whose trailers have completed OK (R530). -/
  trailers : List Nat
  /-- positions whose members cannot be read (R538, R541). -/
  unreadable : List Nat
  /-- its parity is known to match (R547). -/
  resynced : Bool
  /-- under a relocation job (R508). -/
  relocating : Bool
  /-- checked in the current patrol pass (R548). -/
  patrolled : Bool
  /-- its rebuild is running (R541). -/
  rebuildRunning : Bool
  deriving DecidableEq, Repr

/-- Stripe after reset. -/
def Stripe.reset : Stripe where
  serial := 0
  base := 0
  k := 0
  m := 0
  head := false
  kind := 0
  geomK := 0
  members := []
  wseq := 0
  programTime := 0
  st := .opened
  openedAt := none
  fill := 0
  strips := []
  entries := []
  live := 0
  trailers := []
  unreadable := []
  resynced := true
  relocating := false
  patrolled := false
  rebuildRunning := false

/-- One ledger entry. -/
structure Ledger where
  /-- slot (R478). -/
  slot : Nat
  /-- die (R478). -/
  die : Nat
  /-- plane (R478). -/
  plane : Nat
  /-- block (R478). -/
  block : Nat
  /-- STATE (R478). -/
  st : BlockState
  /-- FLAGS BER (R478). -/
  ber : Bool
  /-- FLAGS DISTURB (R478). -/
  disturb : Bool
  /-- FLAGS WORK_SET (R478). -/
  workSet : Bool
  /-- FLAGS ERASE_SUSPENDED (R478). -/
  eraseSuspended : Bool
  /-- RETRY_SET (R478). -/
  retrySet : Nat
  /-- ERASES (R478). -/
  erases : Nat
  /-- PROGRAM_TIME (R478). -/
  programTime : Nat
  /-- THERMAL_AGE, ms equivalent at T_REF (R478, R512). -/
  age : Nat
  /-- READS (R478). -/
  reads : Nat
  /-- refresh class (R516). -/
  cls : RefreshClass
  /-- strip slots taken since the last erase (R471, R529). -/
  used : Nat
  deriving DecidableEq, Repr

/-- Ledger after reset. -/
def Ledger.reset : Ledger where
  slot := 0
  die := 0
  plane := 0
  block := 0
  st := .free
  ber := false
  disturb := false
  workSet := false
  eraseSuspended := false
  retrySet := 0
  erases := 0
  programTime := 0
  age := 0
  reads := 0
  cls := .notDue
  used := 0

/-- The last telemetry sample of one zone of one module. -/
structure ZoneSample where
  /-- module slot (R511). -/
  slot : Nat
  /-- zone (R511). -/
  zone : Nat
  /-- device time of the sample (R511). -/
  time : Nat
  /-- temperature, 1/16 degC (R511). -/
  temp : Int
  /-- samples of the last hour: device time, AF in 2^-16 (R514). -/
  recent : List (Nat × Nat)
  deriving DecidableEq, Repr

/-- ZoneSample after reset. -/
def ZoneSample.reset : ZoneSample where
  slot := 0
  zone := 0
  time := 0
  temp := 0
  recent := []

/-- One codeword read between its steps. -/
structure CwRead where
  /-- first grain of the codeword (codeword = 16 grains) (R475). -/
  grain : Nat
  /-- module slot (R475). -/
  slot : Nat
  /-- die (R475). -/
  die : Nat
  /-- plane (R475). -/
  plane : Nat
  /-- block (R475). -/
  block : Nat
  /-- page (R475). -/
  page : Nat
  /-- codeword j (R469). -/
  cw : Nat
  /-- step reached (1 to 5) (R475). -/
  step : Nat
  /-- retry set of the read under way (R475). -/
  retry : Nat
  /-- device time its read was queued (R477). -/
  since : Nat
  /-- whose read it is (R477, R554). -/
  work : DieWork
  deriving DecidableEq, Repr

/-- CwRead after reset. -/
def CwRead.reset : CwRead where
  grain := 0
  slot := 0
  die := 0
  plane := 0
  block := 0
  page := 0
  cw := 0
  step := 1
  retry := 0
  since := 0
  work := .hostRead

/-- One relocation job. -/
structure Reloc where
  /-- stripe being relocated (R506, R508). -/
  stripe : BitVec 64
  /-- old grain address (R506). -/
  old : BitVec 43
  /-- new grain address (R506). -/
  new : BitVec 43
  /-- stored length in grains (R506). -/
  len : Nat
  /-- what asked for it (R506). -/
  cause : RelocCause
  deriving DecidableEq, Repr

/-- Reloc after reset. -/
def Reloc.reset : Reloc where
  stripe := 0
  old := 0
  new := 0
  len := 0
  cause := .gc

/-- One die's suspended operation. -/
structure SuspendedOp where
  /-- module slot (R477). -/
  slot : Nat
  /-- die (R477). -/
  die : Nat
  /-- tag of the suspended operation (R477). -/
  tag : Nat
  /-- device time of the SUSPEND (R477). -/
  at_ : Nat
  deriving DecidableEq, Repr

/-- SuspendedOp after reset. -/
def SuspendedOp.reset : SuspendedOp where
  slot := 0
  die := 0
  tag := 0
  at_ := 0

/-- One page of a metadata object as it lies on the media. -/
structure ObjPage where
  /-- KIND of its object (R485, R490). -/
  kind : Nat
  /-- tree it belongs to (R490, R491, R492, R494). -/
  tree : MetaTree
  /-- level in its tree (R485, R490). -/
  level : Nat
  /-- number among the pages of its level; of a map-page pair, its identity (R490). -/
  num : Nat
  /-- bytes (R490). -/
  data : List (BitVec 8)
  /-- grain address (R490). -/
  grain : Nat
  /-- its stripe is given up: the next waypoint writes it again (R508, R543). -/
  stale : Bool
  deriving DecidableEq, Repr

/-- ObjPage after reset. -/
def ObjPage.reset : ObjPage where
  kind := 1
  tree := .object
  level := 0
  num := 0
  data := []
  grain := 0
  stale := false

/-- The stream of waypoint records and its anchor copies. -/
structure RecStream where
  /-- stripes of the stream that a start may read, oldest first (R485, R487). -/
  stripes : List (BitVec 64)
  /-- stripe that takes the next record (R485). -/
  cur : Option (BitVec 64)
  /-- stripe that follows it (R485). -/
  next : Option (BitVec 64)
  /-- records in `cur` (R485). -/
  page : Nat
  /-- stripe that holds the newest record (R486, R487). -/
  home : Option (BitVec 64)
  /-- the newest record (R485, R486). -/
  last : List (BitVec 8)
  /-- pages written to the anchor ring of each slot (R486). -/
  rings : List (Nat × Nat)
  deriving DecidableEq, Repr

/-- RecStream after reset. -/
def RecStream.reset : RecStream where
  stripes := []
  cur := none
  next := none
  page := 0
  home := none
  last := []
  rings := []

/-- One head's waypoint in progress. -/
structure WaypointState where
  /-- SEQ (R485). -/
  seq : Nat
  /-- COMMIT_LSN it will carry (R485). -/
  commitLsn : Nat
  /-- LSN_END (R485). -/
  lsnEnd : Nat
  /-- WFLAGS CLEAN (R485). -/
  clean : Bool
  /-- frames whose chunk's entry it records: volume, LSN, FRAME_INDEX (R298, R484). -/
  frames : List (Nat × Nat × Nat)
  /-- blocks (slot, die, plane, block) it names (R480). -/
  workSet : List (Nat × Nat × Nat × Nat)
  /-- stripes it records as free (R528). -/
  freed : List (BitVec 64)
  /-- pages of the objects it names, new and kept (R484, R490). -/
  pages : List ObjPage
  /-- its descriptors: KIND, root page count, root grain address (R485). -/
  roots : List (Nat × Nat × Nat)
  /-- stripe that holds its record (R485). -/
  home : Option (BitVec 64)
  /-- where its record goes: member location, page of the block (R485). -/
  place : Option (Member × Nat)
  /-- its record (R485). -/
  record : List (BitVec 8)
  /-- every page it needs has found a place (R485, R527). -/
  whole : Bool
  deriving DecidableEq, Repr

/-- WaypointState after reset. -/
def WaypointState.reset : WaypointState where
  seq := 0
  commitLsn := 0
  lsnEnd := 0
  clean := false
  frames := []
  workSet := []
  freed := []
  pages := []
  roots := []
  home := none
  place := none
  record := []
  whole := true

/-- Media management and retention ledger. -/
structure Mmg where
  /-- MMG_EA (R520). -/
  ea : Nat
  /-- MMG_TEMP.T_REF (R520). -/
  tRef : Int
  /-- MMG_TEMP.T_STORE (R520). -/
  tStore : Int
  /-- MMG_RET_FRESH (R520). -/
  retFresh : Nat
  /-- MMG_RET_EOL (R520). -/
  retEol : Nat
  /-- MMG_ENDURANCE (R520). -/
  endurance : Nat
  /-- MMG_FLOOR (R520). -/
  floor : Nat
  /-- MMG_LEAD (R520). -/
  lead : Nat
  /-- MMG_SHARE.REFRESH_SHARE (R520). -/
  refreshShare : Nat
  /-- MMG_SHARE.OVERDUE_SHARE (R520). -/
  overdueShare : Nat
  /-- MMG_SHARE.GC_LOW (R520). -/
  gcLow : Nat
  /-- MMG_SHARE.GC_HIGH (R520). -/
  gcHigh : Nat
  /-- MMG_WL_SPREAD (R520). -/
  wlSpread : Nat
  /-- MMG_READ_DISTURB (R520). -/
  readDisturb : Nat
  /-- MMG_STATUS.CFG_ERR (R519). -/
  cfgErr : Bool
  /-- MMG_LEDGER_SEL (R522). -/
  ledgerSel : BitVec 64
  /-- MMG_LEDGER_DATA (R522). -/
  ledgerData : List (BitVec 32)
  /-- MMG_NEXT_REFRESH (R522, R514). -/
  nextRefresh : BitVec 64
  /-- MMG_MIN_U (R522). -/
  minU : Int
  /-- MMG_RETIRED (R522). -/
  retired : Nat
  /-- MMG_SOFT_READS (R522). -/
  softReads : Nat
  /-- MMG_LDPC_FAILS (R522). -/
  ldpcFails : Nat
  /-- MMG_SPREAD (R522). -/
  spread : Nat
  /-- ledger entries of the dies held (R478). -/
  ledger : List Ledger
  /-- last telemetry sample of each zone (R511). -/
  zones : List ZoneSample
  /-- dies (slot, die) under garbage collection (R508). -/
  gcDies : List (Nat × Nat)
  /-- dies under wear levelling (R509). -/
  wlDies : List (Nat × Nat)
  /-- FREE blocks (slot, die, plane, block) that wear levelling moves strips into (R509). -/
  wlTargets : List (Nat × Nat × Nat × Nat)
  /-- retired dies (R505). -/
  retiredDies : List (Nat × Nat)
  /-- codeword reads under way (R475). -/
  reads : List CwRead
  /-- blocks (slot, die, plane, block) erased and to be read back (R479, R504). -/
  blank : List (Nat × Nat × Nat × Nat)
  /-- suspended operations (R477). -/
  suspends : List SuspendedOp
  /-- relocation jobs whose copy is placed (R506). -/
  relocs : List Reloc
  /-- strip table (R482). -/
  strips : List StripEntry
  /-- SEQ of the newest complete waypoint (0: none yet) (R484). -/
  wpSeq : Nat
  /-- waypoint in progress (R484). -/
  wp : Option WaypointState
  /-- a request waits for the next waypoint (R484). -/
  wpRequest : Bool
  /-- device time of the oldest map change not recorded (R484). -/
  mapChange : Option Nat
  /-- metadata strips passed since the last anchor copy (R486). -/
  metaStrips : Nat
  /-- object pages that the newest waypoint names (R484, R490). -/
  objPages : List ObjPage
  /-- the stream of waypoint records (R485, R486). -/
  stream : RecStream
  /-- slots and SEQ of the anchor copies written (R486). -/
  anchors : List (Nat × Nat)
  deriving DecidableEq, Repr

/-- Mmg after reset. -/
def Mmg.reset : Mmg where
  ea := 1100
  tRef := 640
  tStore := 640
  retFresh := 94608000
  retEol := 31536000
  endurance := 3000
  floor := 2592000
  lead := 5184000
  refreshShare := 25
  overdueShare := 50
  gcLow := 4
  gcHigh := 8
  wlSpread := 200
  readDisturb := 200000
  cfgErr := false
  ledgerSel := 0
  ledgerData := List.replicate 8 0
  nextRefresh := BitVec.allOnes 64
  minU := 0
  retired := 0
  softReads := 0
  ldpcFails := 0
  spread := 0
  ledger := []
  zones := []
  gcDies := []
  wlDies := []
  wlTargets := []
  retiredDies := []
  reads := []
  blank := []
  suspends := []
  relocs := []
  strips := []
  wpSeq := 0
  wp := none
  wpRequest := false
  mapChange := none
  metaStrips := 0
  objPages := []
  stream := RecStream.reset
  anchors := []

/-- One lost-list record. -/
structure LostRec where
  /-- volume (R500, R544). -/
  volume : Nat
  /-- CHUNK (R544). -/
  chunk : Nat
  /-- SNAP (R544). -/
  snap : Nat
  /-- LOST_MASK (R544). -/
  mask : BitVec 8
  /-- CAUSE (R544). -/
  cause : Nat
  /-- device time of the loss (R544). -/
  time : Nat
  /-- LSN (R544). -/
  lsn : Nat
  deriving DecidableEq, Repr

/-- LostRec after reset. -/
def LostRec.reset : LostRec where
  volume := 0
  chunk := 0
  snap := 0
  mask := 0
  cause := 0
  time := 0
  lsn := 0

/-- One slot's layout state. -/
structure Slot where
  /-- ECP_MODULE_STATE (R534, R561). -/
  st : ModState
  /-- MODULE_SERIAL in the layout (0: none) (R534, R494). -/
  serial : BitVec 64
  /-- device time it became DEGRADED (R534). -/
  since : Nat
  /-- state to which a DEGRADED module returns (R535). -/
  former : ModState
  /-- a JOIN was accepted (R534). -/
  joinOk : Bool
  /-- its first-use erase has ended (R479, R534). -/
  erased : Bool
  deriving DecidableEq, Repr

/-- Slot after reset. -/
def Slot.reset : Slot where
  st := .absent
  serial := 0
  since := 0
  former := .absent
  joinOk := false
  erased := false

/-- Erasure coding and maintenance. -/
structure Ecp where
  /-- layout state of each slot (R534). -/
  slots : List Slot
  /-- stripes (R524). -/
  stripes : List Stripe
  /-- this head's stripe counter (R481). -/
  counter : Nat
  /-- blocks of data strip numbers held: first, next free (R528). -/
  numBlocks : List (Nat × Nat)
  /-- next block of the pool to be granted (R528). -/
  granted : Nat
  /-- ECP_STATUS.CRITICAL (R559). -/
  critical : Bool
  /-- ECP_STATUS.RESYNC_PENDING (R559). -/
  resyncPending : Bool
  /-- ECP_STATUS.SPARE_SHORT (R559). -/
  spareShort : Bool
  /-- ECP_STATUS.RESHAPE (R559). -/
  reshape : Nat
  /-- ECP_STATUS.CMD_ERR (R559). -/
  cmdErr : Bool
  /-- ECP_STATUS.LOST (R559). -/
  lost : Bool
  /-- ECP_RESHAPE_CFG.K (R560). -/
  cfgK : Nat
  /-- ECP_RESHAPE_CFG.M (R560). -/
  cfgM : Nat
  /-- ECP_RESHAPE_VOL.FIRST (R560). -/
  volFirst : Nat
  /-- ECP_RESHAPE_VOL.LAST (R560). -/
  volLast : Nat
  /-- ECP_DRAIN_MASK (R561). -/
  drainMask : BitVec 64
  /-- ECP_SHARE.REBUILD_SHARE (R558, R560). -/
  rebuildShare : Nat
  /-- ECP_SHARE.RESYNC_SHARE (R558, R560). -/
  resyncShare : Nat
  /-- ECP_SHARE.RESHAPE_SHARE (R558, R560). -/
  reshapeShare : Nat
  /-- ECP_SHARE.MAINT_CAP (R558, R560). -/
  maintCap : Nat
  /-- ECP_SHARE2.GC_SHARE (R558, R560). -/
  gcShare : Nat
  /-- ECP_SHARE2.ELEVATED_SHARE (R558, R560). -/
  elevatedShare : Nat
  /-- ECP_SHARE2.SPLIT_WL_SHARE (R558, R560). -/
  splitWlShare : Nat
  /-- ECP_SHARE2.PATROL_SHARE (R558, R560). -/
  patrolShare : Nat
  /-- ECP_POLICY.SPARE_PCT (R558, R560). -/
  sparePct : Nat
  /-- ECP_POLICY.AUTO_JOIN (R558, R560). -/
  autoJoin : Bool
  /-- ECP_POLICY.REJOIN_S (R558, R560). -/
  rejoinS : Nat
  /-- ECP_LAYOUT.DEF_K (R558, R560). -/
  defK : Nat
  /-- ECP_LAYOUT.DEF_M (R558, R560). -/
  defM : Nat
  /-- ECP_LAYOUT.FLUSH_K (R558, R560). -/
  flushK : Nat
  /-- ECP_LAYOUT.FLUSH_M (R558, R560). -/
  flushM : Nat
  /-- ECP_LAYOUT.CRIT_SHARE (R558, R560). -/
  critShare : Nat
  /-- ECP_PATROL.PATROL_DAYS (R558, R560). -/
  patrolDays : Nat
  /-- activities running (R554, R560). -/
  running : List Activity
  /-- activities waiting, in order of request (R554, R560). -/
  waiting : List Activity
  /-- device time at which each was last requested (R556). -/
  askedAt : List (Activity × Nat)
  /-- the shares as they stood before a write in the numbered 100 ms window (R560). -/
  shareWas : Option (Nat × List Nat)
  /-- activities paused with progress kept (R556). -/
  paused : List Activity
  /-- record 0x0C03 has given the start of a rebuild (R562). -/
  rebuildOn : Bool
  /-- record 0x0C06 has given the start of the resynchronisation (R545). -/
  resyncOn : Bool
  /-- ECP_REBUILD_LEFT (R561). -/
  rebuildLeft : Nat
  /-- rebuild targets: stripe, position (R538). -/
  rebuildTargets : List (BitVec 64 × Nat)
  /-- SEQ of the waypoint that bounds the first part of the resynchronisation (R500, R545). -/
  resyncBound : Nat
  /-- stripes to resynchronise, in order (ECP_RESYNC_LEFT is its length) (R545). -/
  resyncQueue : List (BitVec 64)
  /-- ECP_RESHAPE_LEFT (R561). -/
  reshapeLeft : Nat
  /-- ECP_LOST_CHUNKS (R561). -/
  lostChunks : Nat
  /-- lost list (R544). -/
  lostList : List LostRec
  /-- 0x0C0E has been written (R544). -/
  lostFull : Bool
  /-- ECP_RESHAPE_VOLUME (R561). -/
  reshapeVolume : Nat
  /-- affected volumes still to be reshaped, ascending (R549, R550). -/
  reshapeVols : List Nat
  /-- target K of the reshape (R500, R549). -/
  targetK : Nat
  /-- target M (R500, R549). -/
  targetM : Nat
  /-- first volume of the reshape range (R500). -/
  rangeFirst : Nat
  /-- last volume of the reshape range (R500). -/
  rangeLast : Nat
  /-- shadow map: old grain address, new grain address (R550). -/
  shadow : List (BitVec 43 × BitVec 43)
  /-- ECP_PATROL_DAY (R561). -/
  patrolDay : Nat
  /-- device time the current patrol pass started (R548). -/
  patrolStart : Option Nat
  /-- a patrol pass is under way (R548). -/
  patrolOn : Bool
  deriving DecidableEq, Repr

/-- Ecp after reset. -/
def Ecp.reset : Ecp where
  slots := List.replicate 48 Slot.reset
  stripes := []
  counter := 0
  numBlocks := []
  granted := 0
  critical := false
  resyncPending := false
  spareShort := false
  reshape := 0
  cmdErr := false
  lost := false
  cfgK := 0
  cfgM := 0
  volFirst := 0
  volLast := 0
  drainMask := 0
  rebuildShare := 40
  resyncShare := 20
  reshapeShare := 15
  maintCap := 60
  gcShare := 10
  elevatedShare := 10
  splitWlShare := 5
  patrolShare := 2
  sparePct := 5
  autoJoin := true
  rejoinS := 600
  defK := 8
  defM := 3
  flushK := 21
  flushM := 3
  critShare := 70
  patrolDays := 90
  running := []
  waiting := []
  askedAt := []
  shareWas := none
  paused := []
  rebuildOn := false
  resyncOn := false
  rebuildLeft := 0
  rebuildTargets := []
  resyncBound := 0
  resyncQueue := []
  reshapeLeft := 0
  lostChunks := 0
  lostList := []
  lostFull := false
  reshapeVolume := 0
  reshapeVols := []
  targetK := 0
  targetM := 0
  rangeFirst := 0
  rangeLast := 0
  shadow := []
  patrolDay := 0
  patrolStart := none
  patrolOn := false

/-- A handover this head gives. -/
structure Handover where
  /-- the set of volumes (R571). -/
  vols : List Nat
  /-- HANDOVER sent (R571). -/
  sent : Bool
  /-- MSEQ of the HANDOVER message (R571). -/
  mseq : Nat
  /-- it serves an ENTER_MAINT (R589). -/
  maint : Bool
  deriving DecidableEq, Repr

/-- Handover after reset. -/
def Handover.reset : Handover where
  vols := []
  sent := false
  mseq := 0
  maint := false

/-- One 64-byte MAP_DELTA record. -/
structure DeltaRec where
  /-- KIND (R575). -/
  kind : Nat
  /-- DFLAGS DELETE (R575). -/
  delete : Bool
  /-- VOLUME (R575). -/
  volume : Nat
  /-- SNAP (R575). -/
  snap : Nat
  /-- KEY (R575). -/
  key : BitVec 64
  /-- LSN (R575). -/
  lsn : Nat
  /-- VALUE (R575). -/
  value : List (BitVec 8)
  deriving DecidableEq, Repr

/-- DeltaRec after reset. -/
def DeltaRec.reset : DeltaRec where
  kind := 0
  delete := false
  volume := 0
  snap := 0
  key := 0
  lsn := 0
  value := List.replicate 40 0

/-- One MAP_DELTA message. -/
structure Delta where
  /-- DSEQ (R575). -/
  dseq : Nat
  /-- sender's device time at sending (R566). -/
  time : Nat
  /-- device time of arrival (R575). -/
  arrived : Nat
  /-- records (R575). -/
  recs : List DeltaRec
  deriving DecidableEq, Repr

/-- Delta after reset. -/
def Delta.reset : Delta where
  dseq := 0
  time := 0
  arrived := 0
  recs := []

/-- One traffic class of XHL. -/
structure TcState where
  /-- MSEQ of the last message sent (R566). -/
  sent : Nat
  /-- highest MSEQ below which every message received has been applied (R567). -/
  applied : Nat
  /-- highest MSEQ the peer reports applied (R567). -/
  acked : Nat
  /-- bytes of the message being received (R566). -/
  partial_ : List (BitVec 8)
  /-- flits that wait for a slot: SOM, EOM, message bytes (R566, R568). -/
  queue : List (Bool × Bool × List (BitVec 8))
  deriving DecidableEq, Repr

/-- TcState after reset. -/
def TcState.reset : TcState where
  sent := 0
  applied := 0
  acked := 0
  partial_ := []
  queue := []

/-- Crosshead link and dual-head operation. -/
structure Xhl where
  /-- XHL_STATUS.LINK (R592). -/
  link : Nat
  /-- XHL_STATUS.PEER (R577, R592). -/
  peer : PeerState
  /-- XHL_STATUS.QUORUM (R592). -/
  quorum : Bool
  /-- XHL_STATUS.TAKEOVER (R592). -/
  takeover : Bool
  /-- XHL_STATUS.PAIR_KEY_OK (R592). -/
  pairKeyOk : Bool
  /-- XHL_STATUS.CMD_ERR (R592). -/
  cmdErr : Bool
  /-- XHL_VOL_RANGE.FIRST (R593). -/
  volFirst : Nat
  /-- XHL_VOL_RANGE.LAST (R593). -/
  volLast : Nat
  /-- XHL_CTL.AUTO_REBALANCE (R593). -/
  autoRebalance : Bool
  /-- XHL_CTL.HB_LOSS_MS (R593). -/
  hbLossMs : Nat
  /-- XHL_CTL.SPLIT_DELAY_MS (R593). -/
  splitDelayMs : Nat
  /-- XHL_EPOCH (R594). -/
  epoch : Nat
  /-- XHL_FENCE_HELD (R594). -/
  fenceHeld : BitVec 48
  /-- modules found fenced against this head in the round (R582). -/
  fencedAgainst : BitVec 48
  /-- XHL_QUORUM_COUNT (R594). -/
  quorumCount : BitVec 32
  /-- XHL_ERR CRC failures (R594). -/
  crcErrs : Nat
  /-- XHL_ERR replay episodes (R594). -/
  replays : Nat
  /-- XHL_ERR RETRAIN entries (R594). -/
  retrains : Nat
  /-- XHL_DELTA_LAG (R594). -/
  deltaLag : Nat
  /-- XHL_TAKEOVERS (R594). -/
  takeovers : Nat
  /-- XHL_PEER_HB (R594). -/
  peerHb : Nat
  /-- this head's heartbeat count (R576). -/
  hbCount : Nat
  /-- device time of the last valid HEARTBEAT (R577). -/
  hbTime : Nat
  /-- SEQ of the next DATA flit sent (R564, R565). -/
  seqTx : Nat
  /-- SEQ expected next (R565). -/
  seqRx : Nat
  /-- a NAK is sent and the expected SEQ has not arrived (R565). -/
  nakSent : Bool
  /-- unacknowledged DATA flits: SEQ, times replayed; oldest first (R565). -/
  unacked : List (Nat × Nat)
  /-- slots left to TC1 to TC4 in the present round of the weighted round robin (R568). -/
  wrr : List Nat
  /-- a DATA flit has been accepted, so ACK is meaningful (R564). -/
  rxAny : Bool
  /-- device time of the last ACK progress, or since which flits have been unacknowledged (R565). -/
  progressAt : Nat
  /-- device time the link entered RETRAIN (R565). -/
  retrainAt : Nat
  /-- device time of the last fencing round's first PORT_FENCE (R582, R583). -/
  roundAt : Nat
  /-- device time the peer was LOST (R580). -/
  lostAt : Nat
  /-- device time of the last HEARTBEAT sent (R568). -/
  hbSent : Nat
  /-- SYNC flits missing in a row (R564, R422). -/
  syncMiss : Nat
  /-- failed attempts of this RETRAIN (R565). -/
  retrainTries : Nat
  /-- the traffic classes (R566, R567). -/
  tcs : List TcState
  /-- the peer's IDENT has arrived (R577). -/
  identSeen : Bool
  /-- HEAD_SEL of the peer's IDENT (R568). -/
  peerHead : Bool
  /-- GLB_SERIAL of the peer's IDENT (R568). -/
  peerSerial : BitVec 64
  /-- firmware version of the peer's IDENT (R568). -/
  peerFw : BitVec 32
  /-- MODE of the peer's last HEARTBEAT (R576). -/
  peerMode : Nat
  /-- GLB_READY of the peer's last HEARTBEAT (R576). -/
  peerReady : BitVec 32
  /-- ACTIVE module ports of the peer (R576). -/
  peerPorts : Nat
  /-- the peer's FENCE_HOLDER mask (R576). -/
  peerHeld : BitVec 48
  /-- ownership table: volumes owned by this head, ascending (R569). -/
  owned : List Nat
  /-- moving volumes, ascending (R570). -/
  moving : List Nat
  /-- handover in progress at the giver (XHL_STATUS.HANDOVER) (R571, R592). -/
  handover : Option Handover
  /-- DSEQ of the last MAP_DELTA sent (R575). -/
  dseqTx : Nat
  /-- DSEQ of the last MAP_DELTA applied (R575). -/
  dseqRx : Nat
  /-- MAP_DELTA messages that wait for an earlier one (R575). -/
  deltas : List Delta
  /-- how the peer became LOST: 1 heartbeats, 2 link down, 3 LAST_GASP, 4 FAILSTOP heartbeat (R578, R580). -/
  lostCause : Nat
  /-- fencing waits SPLIT_DELAY_MS (R580). -/
  splitWait : Bool
  /-- a fencing round is open (R582). -/
  roundOpen : Bool
  /-- newest waypoint SEQ of the peer the deltas report (R584). -/
  peerWp : Nat
  /-- last COMMIT_LSN the peer reported (R298, R573). -/
  peerCommit : Nat
  /-- the deltas and frames of a rejoin have been sent by BULK (R587). -/
  bulkSent : Bool
  /-- this head's ephemeral private value of the PAIR_KEY exchange (R591). -/
  pairEph : Option (List (BitVec 8))
  /-- pinned digest of the peer's identity key (R495, R591). -/
  pin : Option (List (BitVec 8))
  /-- pin record of this head's own identity, as the peer's map deltas carried it (R495, R591). -/
  ownPin : Option (List (BitVec 8))
  /-- takeover steps 5 to 8 wait for the end of the flush (R586). -/
  flushWait : Bool
  /-- the peer reports a committed flush (R81). -/
  peerFlush : Bool
  deriving DecidableEq, Repr

/-- Xhl after reset. -/
def Xhl.reset : Xhl where
  link := 0
  peer := .unknown
  quorum := false
  takeover := false
  pairKeyOk := false
  cmdErr := false
  volFirst := 0
  volLast := 0
  autoRebalance := true
  hbLossMs := 50
  splitDelayMs := 20
  epoch := 0
  fenceHeld := 0
  fencedAgainst := 0
  quorumCount := 0
  crcErrs := 0
  replays := 0
  retrains := 0
  deltaLag := 0
  takeovers := 0
  peerHb := 0
  hbCount := 0
  hbTime := 0
  seqTx := 0
  seqRx := 0
  nakSent := false
  unacked := []
  wrr := [13, 1, 1, 1]
  rxAny := false
  progressAt := 0
  retrainAt := 0
  roundAt := 0
  lostAt := 0
  hbSent := 0
  syncMiss := 0
  retrainTries := 0
  tcs := List.replicate 5 TcState.reset
  identSeen := false
  peerHead := false
  peerSerial := 0
  peerFw := 0
  peerMode := 3
  peerReady := 0
  peerPorts := 0
  peerHeld := 0
  owned := []
  moving := []
  handover := none
  dseqTx := 0
  dseqRx := 0
  deltas := []
  lostCause := 0
  splitWait := false
  roundOpen := false
  peerWp := 0
  peerCommit := 0
  bulkSent := false
  pairEph := none
  pin := none
  ownPin := none
  flushWait := false
  peerFlush := false

/-- One channel's delay set of one band. -/
structure DelaySet where
  /-- band (R612). -/
  band : Nat
  /-- DRC_DLY_DATA words of the 20 DQS lanes (R612, R617). -/
  lanes : List (BitVec 32)
  deriving DecidableEq, Repr

/-- DelaySet after reset. -/
def DelaySet.reset : DelaySet where
  band := 0
  lanes := List.replicate 20 0

/-- One request that waits for a DRAM bank. -/
structure DramReq where
  /-- bank: subchannel, rank, bank group and bank as one number (R604, R607). -/
  bank : Nat
  /-- row (R604). -/
  row : Nat
  /-- requester, by its source identifier (R607, R610). -/
  src : Nat
  /-- its page hint is OPEN, and FORCE_CLOSE was 0 when it arrived (R606). -/
  keepOpen : Bool
  /-- OPEN_MAX when it arrived, ns (R606). -/
  limit : Nat
  /-- device time of its arrival (R607). -/
  arrived : Nat
  deriving DecidableEq, Repr

/-- DramReq after reset. -/
def DramReq.reset : DramReq where
  bank := 0
  row := 0
  src := 0
  keepOpen := false
  limit := 0
  arrived := 0

/-- One open row of a DRAM bank. -/
structure OpenRow where
  /-- bank (R606). -/
  bank : Nat
  /-- row (R606). -/
  row : Nat
  /-- device time of the last access (R606). -/
  last : Nat
  /-- OPEN_MAX of that access, ns (R606). -/
  limit : Nat
  deriving DecidableEq, Repr

/-- OpenRow after reset. -/
def OpenRow.reset : OpenRow where
  bank := 0
  row := 0
  last := 0
  limit := 0

/-- One requester throttled on a bank. -/
structure RhThrottle where
  /-- bank (R610). -/
  bank : Nat
  /-- requester (R610). -/
  src : Nat
  /-- device time of its last activate on the bank (R610). -/
  last : Option Nat
  deriving DecidableEq, Repr

/-- RhThrottle after reset. -/
def RhThrottle.reset : RhThrottle where
  bank := 0
  src := 0
  last := none

/-- Activates of one row in the present window. -/
structure RowCount where
  /-- bank (rank, bank group and bank as one number) (R610). -/
  bank : Nat
  /-- row (R610). -/
  row : Nat
  /-- activates per requester (R610). -/
  req : List (Nat × Nat)
  /-- it has reached RH_THRESHOLD in this window (R610). -/
  hit : Bool
  deriving DecidableEq, Repr

/-- RowCount after reset. -/
def RowCount.reset : RowCount where
  bank := 0
  row := 0
  req := []
  hit := false

/-- One DRAM channel. -/
structure Chan where
  /-- DRC_STATUS.CH_TRAINED (R615). -/
  trained : Bool
  /-- DRC_STATUS.CH_USED (R615). -/
  used : Bool
  /-- DIMM type: 256 GiB 3DS (R596). -/
  type256 : Bool
  /-- DRC_ECC.CE_COUNT (R617). -/
  ce : Nat
  /-- DRC_ECC.UE_COUNT (R617). -/
  ue : Nat
  /-- DRC_ECC failed device (R617 gives the register 0 and none 0xF) (R617). -/
  failedDev : Nat
  /-- DRC_ECC.DEVICE_FAILED (R617). -/
  deviceFailed : Bool
  /-- device that the channel decodes as an erasure since it was declared failed (R600). -/
  erasure : Option Nat
  /-- DRC_TEMP hottest sensor (R617). -/
  temp : BitVec 16
  /-- DRC_TEMP band (R617). -/
  band : Nat
  /-- valid delay sets (R612). -/
  sets : List DelaySet
  /-- band of the delay set in use (R612). -/
  setBand : Nat
  /-- words of the set in use that the next refresh puts in place (R612). -/
  drift : Option (List (BitVec 32))
  /-- device time and device of the corrections of the last hour (R600). -/
  corrections : List (Nat × Nat)
  /-- device time it passed 100 degC (R611). -/
  hotSince : Option Nat
  /-- its activate rate is halved (R611). -/
  throttled : Bool
  /-- same-bank refreshes postponed (R608). -/
  postponed : Nat
  /-- rolling activate count per bank (R609). -/
  rolling : List (Nat × Nat)
  /-- most activated rows of the window (R610). -/
  rows : List RowCount
  /-- requesters throttled in this window (R610). -/
  rhThrottles : List RhThrottle
  /-- number of the 32 ms window that each bank's counts belong to (R610). -/
  windows : List (Nat × Nat)
  /-- requests that wait (R607). -/
  reqs : List DramReq
  /-- requester granted last on each bank (R607). -/
  granted : List (Nat × Nat)
  /-- open rows (R606). -/
  openRows : List OpenRow
  /-- device time of each bank's last refresh (R608). -/
  refAt : List (Nat × Nat)
  /-- waits for a retraining, out of service (R612). -/
  retrain : Bool
  /-- replays of the present CA parity alert (R603). -/
  caReplays : Nat
  /-- its SPD requires RFM (R609). -/
  rfm : Bool
  deriving DecidableEq, Repr

/-- Chan after reset. -/
def Chan.reset : Chan where
  trained := false
  used := false
  type256 := false
  ce := 0
  ue := 0
  failedDev := 0xF
  deviceFailed := false
  erasure := none
  temp := 0
  band := 0
  sets := []
  setBand := 0
  drift := none
  corrections := []
  hotSince := none
  throttled := false
  postponed := 0
  rolling := []
  rows := []
  rhThrottles := []
  windows := []
  reqs := []
  granted := []
  openRows := []
  refAt := []
  retrain := false
  caReplays := 0
  rfm := false

/-- DRAM subsystem. -/
structure Drc where
  /-- the channels (R615). -/
  chans : List Chan
  /-- DRC_STATUS.POP (R615). -/
  pop : Nat
  /-- DRC_STATUS.THERMAL_THROTTLE (R615). -/
  thermal : Bool
  /-- DRC_STATUS.UE_SEEN (R615). -/
  ueSeen : Bool
  /-- DRC_STATUS.CFG_ERR (R615). -/
  cfgErr : Bool
  /-- DRC_PAGE_CTL.FORCE_CLOSE (R616). -/
  forceClose : Bool
  /-- DRC_PAGE_CTL.OPEN_MAX (per image; no image yet, so its default) (R616, R614). -/
  openMax : Nat
  /-- DRC_RH_CTL.RH_THRESHOLD (per image; default) (R616, R614). -/
  rhThreshold : Nat
  /-- DRC_RH_CTL.THROTTLE_US (per image; default) (R616, R614). -/
  throttleUs : Nat
  /-- DRC_CH_MASK (per image; default) (R617, R605). -/
  chMask : List (BitVec 32)
  /-- DRC_BG_XOR (per image; default) (R617, R605). -/
  bgXor : List (BitVec 32)
  /-- DRC_BA_XOR (per image; default) (R617, R605). -/
  baXor : List (BitVec 32)
  /-- DRC_RANK_XOR (per image; default) (R617, R605). -/
  rankXor : List (BitVec 32)
  /-- DRC_DLY_SEL (R617). -/
  dlySel : BitVec 32
  /-- DRC_DLY_DATA (R617). -/
  dlyData : BitVec 32
  /-- DQ_SWAP (per image; default) (R614). -/
  dqSwap : List (BitVec 8)
  /-- CH_EN (per image; default) (R614). -/
  chEn : BitVec 12
  deriving DecidableEq, Repr

/-- Drc after reset. -/
def Drc.reset : Drc where
  chans := List.replicate 12 Chan.reset
  pop := 0
  thermal := false
  ueSeen := false
  cfgErr := false
  forceClose := false
  openMax := 20
  rhThreshold := 4096
  throttleUs := 1
  chMask := [0x00101001, 0x00202002, 0x00404004]
  bgXor := [0x9, 0x12, 0x24]
  baXor := [0x40, 0x80]
  rankXor := [0, 0, 0]
  dlySel := 0
  dlyData := 0
  dqSwap := List.replicate 240 0xE4
  chEn := 0xFFF

/-- The committed words of one loop. -/
structure LoopCfg where
  /-- CTL.MODE (R642). -/
  mode : Nat
  /-- CTL.ACTION (R642). -/
  direct : Bool
  /-- CTL.SAT_SUP (R642). -/
  satSup : BitVec 2
  /-- CTL.PACED (R642). -/
  paced : Bool
  /-- CTL.OUT_SHIFT (R642). -/
  outShift : Nat
  /-- CTL.PERIOD (R642). -/
  period : Nat
  /-- SP (R642). -/
  sp : BitVec 16
  /-- MAN_OUT (R642). -/
  manOut : BitVec 16
  /-- KP (R642). -/
  kp : BitVec 16
  /-- KI (R642). -/
  ki : BitVec 16
  /-- KD (R642). -/
  kd : BitVec 16
  /-- SAT_LIMIT (R642). -/
  satLimit : Nat
  /-- OUT_MIN (R642). -/
  outMin : BitVec 16
  /-- OUT_MAX (R642). -/
  outMax : BitVec 16
  deriving DecidableEq, Repr

/-- LoopCfg after reset. -/
def LoopCfg.reset : LoopCfg where
  mode := 0
  direct := false
  satSup := 0
  paced := false
  outShift := 0
  period := 0
  sp := 0
  manOut := 0
  kp := 0
  ki := 0
  kd := 0
  satLimit := 6000
  outMin := 0
  outMax := 0

/-- One loop slot. -/
structure Loop where
  /-- words in force (R642). -/
  cfg : LoopCfg
  /-- staged CTL, SP, KPKI, KD and OUTLIM words (R627). -/
  staged : List (Option (BitVec 32))
  /-- the set an accepted commit applies at the next sample (R627). -/
  next : Option LoopCfg
  /-- FAIL_OUT (R642). -/
  failOut : BitVec 16
  /-- STATUS.OUT (R642). -/
  out : BitVec 16
  /-- STATUS.STATE, mode in force (R642, R623). -/
  state : Nat
  /-- STATUS.SAT (R642). -/
  sat : Bool
  /-- STATUS.MISSED (R642). -/
  missed : Nat
  /-- PV (R642). -/
  pv : BitVec 16
  /-- ACC (R621). -/
  acc : Int
  /-- pv_prev (R622). -/
  pvPrev : BitVec 16
  /-- consecutive missed samples (R625). -/
  missRun : Nat
  /-- consecutive fresh samples while in HOLD (R625). -/
  freshRun : Nat
  /-- at a supervised limit with y beyond it (R626). -/
  beyond : Bool
  /-- SAT_TIME, units of 10 us (R626). -/
  satTime : Nat
  /-- the present saturation episode is recorded (R626). -/
  recorded : Bool
  /-- device time the next sample falls due; for a paced loop, when the next one counts as missed (R620, R625). -/
  due : Option Nat
  /-- device time of the telemetry that the last paced sample used (R625). -/
  used : Option Nat
  deriving DecidableEq, Repr

/-- Loop after reset. -/
def Loop.reset : Loop where
  cfg := LoopCfg.reset
  staged := [none, none, none, none, none]
  next := none
  failOut := 0
  out := 0
  state := 0
  sat := false
  missed := 0
  pv := 0
  acc := 0
  pvPrev := 0
  missRun := 0
  freshRun := 0
  beyond := false
  satTime := 0
  recorded := false
  due := none
  used := none

/-- Loop `n` with the assignment of R628, the LOOPS section `l` and the telemetry period in ms. The spec gives the
loops no MODE after reset; the model takes AUTO for an assigned loop and OFF for a slot that runs none (DESIGN CHOICE,
log entry 12). FAIL_OUT of loop 0, which holds its last output, is 0. -/
def Loop.initial (l : ImgLoops) (periodMs n : Nat) : Loop :=
  let g (c : Nat) := l.gains.getD c (0, 0, 0, 0)
  let mk (c : Nat) (mode : Nat) (direct paced : Bool) (sup : BitVec 2) (period sp lo hi fail : Nat) : Loop :=
    { Loop.reset with
      failOut := BitVec.ofNat 16 fail
      cfg := { mode := mode, direct := direct, satSup := sup, paced := paced, outShift := (g c).2.2.2,
               period := period, sp := BitVec.ofNat 16 sp, manOut := 0, kp := (g c).1, ki := (g c).2.1,
               kd := (g c).2.2.1, satLimit := 6000, outMin := BitVec.ofNat 16 lo, outMax := BitVec.ofNat 16 hi } }
  if n = 0 then mk 0 2 false false 2 5 l.avsMargin 650 850 0
  else if n = 1 then mk 1 2 false false 1 1000 l.chgSp 0 l.chgVmax 0
  else if n < 6 then mk 2 (if l.fanZone.contains (n - 2) then 2 else 0) true false 2 10000 0 200 1000 1000
  else if n < 54 then mk 3 2 false true 1 (10 * periodMs) l.tgtMod 10 100 50
  else { Loop.reset with cfg := { LoopCfg.reset with satLimit := 0 } }

/-- The 64 loops as the image's LOOPS section sets them up (R628). -/
def Loop.table (l : ImgLoops) (periodMs : Nat) : List Loop := (List.range 64).map (Loop.initial l periodMs)

/-- One fan. -/
structure Fan where
  /-- CLE_FAN rpm (R643). -/
  rpm : Nat
  /-- CLE_FAN duty, per mille (R643). -/
  duty : Nat
  /-- CLE_FAN.FAULT (R643). -/
  fault : Bool
  /-- consecutive 1 s windows below FAN_MIN_RPM with duty 300 or more (R633). -/
  slow : Nat
  /-- consecutive 1 s windows at FAN_MIN_RPM or more (R633). -/
  good : Nat
  deriving DecidableEq, Repr

/-- Fan after reset. -/
def Fan.reset : Fan where
  rpm := 0
  duty := 0
  fault := false
  slow := 0
  good := 0

/-- Power of one module slot. -/
structure SlotPwr where
  /-- CLE_SLOT_STATUS [1:0]: 0 off, 1 waiting, 2 ramping, 3 on (R643). -/
  st : Nat
  /-- CLE_SLOT_STATUS.FAULT (R643). -/
  fault : Bool
  /-- CLE_SLOT_STATUS failed attempts (R643). -/
  fails : Nat
  /-- held off (R639). -/
  heldOff : Bool
  /-- SLOT_EN, the pin (R51, R635). -/
  en : Bool
  /-- SLOT_PG, the pin (CLE_SLOT_LIVE) (R643). -/
  pg : Bool
  /-- device time SLOT_PG last fell (R637). -/
  pgFell : Option Nat
  /-- device time of the turn-on whose SLOT_PG is awaited (R639). -/
  onAt : Option Nat
  /-- device time of the last failed attempt (R639). -/
  failAt : Option Nat
  /-- device time since which the master waits for the other head to drop its SLOT_EN (R638). -/
  offAt : Option Nat
  deriving DecidableEq, Repr

/-- SlotPwr after reset. -/
def SlotPwr.reset : SlotPwr where
  st := 0
  fault := false
  fails := 0
  heldOff := false
  en := false
  pg := false
  pgFell := none
  onAt := none
  failAt := none
  offAt := none

/-- Control loops, cooling and slot power. -/
structure Cle where
  /-- the loops (R642, R628). -/
  loops : List Loop
  /-- CLE_STATUS.CFG_ERR (R641). -/
  cfgErr : Bool
  /-- CLE_STATUS.SAT (R641). -/
  satSeen : Bool
  /-- CLE_STATUS.DEADLINE (R641). -/
  deadline : Bool
  /-- CLE_STATUS.DIE_HOT (R641). -/
  dieHot : Bool
  /-- CLE_STATUS.SLOT_FAULT (R641). -/
  slotFault : Bool
  /-- the fans (R643). -/
  fans : List Fan
  /-- slot power (R643). -/
  slots : List SlotPwr
  /-- CLE_SLOT_OFF (R643). -/
  slotOff : BitVec 64
  /-- last power-up event: device time, switch (R637). -/
  lastEvent : Option (Nat × Nat)
  /-- no event before this device time (insertion into a live shared slot) (R637). -/
  blockAll : Nat
  /-- module, and the zone of it that was hottest when it reached TEMP_CRIT and is not yet 5 degC below (R631). -/
  modHot : List (Nat × Nat)
  /-- slots the other head asks the slot master to power down (POWER message) (R636, R638). -/
  peerOff : BitVec 48
  /-- effective OUT_MIN of the zone raised to 1000 (R633). -/
  zonesMin : List Bool
  /-- device time the AVS loop returns to AUTO after an exit (R629). -/
  avsReturn : Option Nat
  /-- slots whose SLOT_EN the other head has reported low (POWER message) (R638). -/
  peerDropped : BitVec 48
  /-- loop started last, for the round-robin order of samples that fall due in one cycle (R620). -/
  rr : Nat
  /-- device time since which the AVS measurement has been below 0 ps (R629). -/
  avsNeg : Option Nat
  /-- device time of the last charge step (R630). -/
  stepAt : Nat
  /-- device time the charger output returns from a charge step (R630). -/
  stepEnd : Option Nat
  deriving DecidableEq, Repr

/-- Cle after reset. -/
def Cle.reset : Cle where
  loops := Loop.table ImgLoops.reset 100
  cfgErr := false
  satSeen := false
  deadline := false
  dieHot := false
  slotFault := false
  fans := List.replicate 6 Fan.reset
  slots := List.replicate 48 SlotPwr.reset
  slotOff := 0
  lastEvent := none
  blockAll := 0
  modHot := []
  peerOff := 0
  zonesMin := [false, false, false, false]
  avsReturn := none
  peerDropped := 0
  rr := 63
  avsNeg := none
  stepAt := 0
  stepEnd := none

/-- One sub-port record of the NET section. -/
structure SubPort where
  /-- MAC (0: not in use) (R161). -/
  mac : BitVec 48
  /-- VLAN (R161). -/
  vlan : Nat
  /-- IPV4 (R161). -/
  ipv4 : BitVec 32
  /-- V4_PREFIX (R161). -/
  v4Prefix : Nat
  /-- V6_PREFIX (R161). -/
  v6Prefix : Nat
  /-- FLAGS (R161). -/
  flags : BitVec 8
  /-- IPV6 (R161). -/
  ipv6 : BitVec 128
  deriving DecidableEq, Repr

/-- SubPort after reset. -/
def SubPort.reset : SubPort where
  mac := 0
  vlan := 0
  ipv4 := 0
  v4Prefix := 0
  v6Prefix := 0
  flags := 0
  ipv6 := 0

/-- One remote-array record of the NET section. -/
structure Remote where
  /-- ADDR (R161). -/
  addr : BitVec 128
  /-- P_KEY (R161). -/
  pkey : BitVec 16
  /-- SUBPORT: port x 4 + sub-port (R161). -/
  subport : Nat
  /-- FLAGS valid, and no field out of range (R161). -/
  valid : Bool
  deriving DecidableEq, Repr

/-- Remote after reset. -/
def Remote.reset : Remote where
  addr := 0
  pkey := 0
  subport := 0
  valid := false

/-- BOARD section in force. -/
structure ImgBoard where
  /-- NET_MODE per port (R157). -/
  netMode : List Nat
  /-- BIFUR (R157). -/
  bifur : Nat
  /-- EP_EN (R157). -/
  epEn : BitVec 4
  /-- PMB1_EN (R157). -/
  pmb1En : Bool
  /-- FAN_EN (R157). -/
  fanEn : BitVec 6
  /-- PPS_IN_EN (R157). -/
  ppsInEn : Bool
  /-- TEST_EN (R157). -/
  testEn : Bool
  /-- PEER_SERIAL (R157). -/
  peerSerial : BitVec 64
  /-- PEER_ID_DIGEST (R157). -/
  peerIdDigest : List (BitVec 8)
  /-- accepted REMAP entries (R59, R60). -/
  remaps : List (BitVec 96)
  deriving DecidableEq, Repr

/-- ImgBoard after reset. -/
def ImgBoard.reset : ImgBoard where
  netMode := [0, 0, 0, 0]
  bifur := 0
  epEn := 1
  pmb1En := true
  fanEn := 0x3F
  ppsInEn := false
  testEn := false
  peerSerial := 0
  peerIdDigest := List.replicate 48 0
  remaps := []

/-- POWER section in force. -/
structure ImgPower where
  /-- FEED_A_V (R158). -/
  feedAV : Nat
  /-- FEED_B_V (R158). -/
  feedBV : Nat
  /-- FEED_A_HZ (R158). -/
  feedAHz : Nat
  /-- FEED_B_HZ (R158). -/
  feedBHz : Nat
  /-- RIDE_FLOOR (R158). -/
  rideFloor : Nat
  /-- RIDE_MS (R158). -/
  rideMs : Nat
  /-- FEED_A_SCALE (no default) (R158). -/
  feedAScale : Nat
  /-- FEED_B_SCALE (no default) (R158). -/
  feedBScale : Nat
  /-- SHUNT_UOHM (no default) (R158). -/
  shunt : Nat
  /-- DIVIDER_PPM (no default) (R158). -/
  divider : Nat
  /-- V_MIN_MV (no default) (R158). -/
  vMin : Nat
  /-- ETA (no default) (R158). -/
  eta : Nat
  /-- CLOSE_MS (R158). -/
  closeMs : Nat
  /-- P_F_MW (no default) (R158). -/
  pF : Nat
  /-- PMB_RATE (R158). -/
  pmbRate : BitVec 2
  deriving DecidableEq, Repr

/-- ImgPower after reset. -/
def ImgPower.reset : ImgPower where
  feedAV := 230
  feedBV := 230
  feedAHz := 50
  feedBHz := 50
  rideFloor := 70
  rideMs := 10
  feedAScale := 0
  feedBScale := 0
  shunt := 0
  divider := 0
  vMin := 0
  eta := 0
  closeMs := 200
  pF := 0
  pmbRate := 0

/-- TIME section in force. -/
structure ImgTime where
  /-- REF_ORDER (R159). -/
  refOrder : List Nat
  /-- PTP_PORT (R159). -/
  ptpPort : Nat
  /-- PTP_DOMAIN (R159). -/
  ptpDomain : Nat
  /-- PTP_TRANSPORT (R159). -/
  ptpTransport : BitVec 3
  /-- OSC_SENSOR (R159). -/
  oscSensor : Nat
  /-- XHL_ASYM_PS (R159). -/
  asymPs : Int
  /-- PPS_IN_DELAY (R159). -/
  inDelay : Nat
  /-- PPS_OUT_DELAY (R159). -/
  outDelay : Nat
  deriving DecidableEq, Repr

/-- ImgTime after reset. -/
def ImgTime.reset : ImgTime where
  refOrder := [1, 2, 3]
  ptpPort := 0
  ptpDomain := 0
  ptpTransport := 7
  oscSensor := 0
  asymPs := 0
  inDelay := 0
  outDelay := 0

/-- HOST section in force. -/
structure ImgHost where
  /-- MAX_RATE (R160). -/
  maxRate : Nat
  /-- LZ_GIB (R160). -/
  lzGib : Nat
  /-- SUBSYS_VENDOR (R160). -/
  subsysVendor : BitVec 16
  /-- SUBSYS_ID (R160). -/
  subsysId : BitVec 16
  /-- TX_PRESET (R160). -/
  txPreset : List Nat
  deriving DecidableEq, Repr

/-- ImgHost after reset. -/
def ImgHost.reset : ImgHost where
  maxRate := 6
  lzGib := 4
  subsysVendor := 0x1F5C
  subsysId := 0
  txPreset := List.replicate 16 4

/-- NET section in force. -/
structure ImgNet where
  /-- RDMA_DSCP (R161). -/
  dscp : Nat
  /-- RDMA_PCP (R161). -/
  pcp : Nat
  /-- PFC_XOFF_KIB (R161). -/
  pfcXoffKib : Nat
  /-- SUBPORT (R161). -/
  subports : List SubPort
  /-- REMOTE (R161). -/
  remotes : List Remote
  deriving DecidableEq, Repr

/-- ImgNet after reset. -/
def ImgNet.reset : ImgNet where
  dscp := 26
  pcp := 3
  pfcXoffKib := 1536
  subports := List.replicate 16 SubPort.reset
  remotes := []

/-- MEDIA section in force. -/
structure ImgMedia where
  /-- PORT_EN (R462). -/
  portEn : BitVec 48
  /-- TELEM_MS (R462). -/
  telemMs : Nat
  /-- TEMP_WARN (R462). -/
  tempWarn : Int
  /-- TEMP_CRIT (R462). -/
  tempCrit : Int
  /-- TX_PRESET (R462). -/
  txPreset : List Nat
  deriving DecidableEq, Repr

/-- ImgMedia after reset. -/
def ImgMedia.reset : ImgMedia where
  portEn := BitVec.allOnes 48
  telemMs := 100
  tempWarn := 1120
  tempCrit := 1360
  txPreset := List.replicate 48 5

/-- The configuration image in use, section by section. -/
structure Image where
  /-- an image has been applied since the start (R137, R166). -/
  applied : Bool
  /-- BOARD (R157). -/
  board : ImgBoard
  /-- POWER (R158). -/
  power : ImgPower
  /-- TIME (R159). -/
  time : ImgTime
  /-- HOST (R160). -/
  host : ImgHost
  /-- NET (R161). -/
  net : ImgNet
  /-- MEDIA (R462). -/
  media : ImgMedia
  /-- LOOPS (R640). -/
  loops : ImgLoops
  /-- POLICY section, in the order of its table (R558). -/
  policy : List Nat
  /-- WLOG_GIB of the DRAM section (R614, R290). -/
  wlogGib : Nat
  deriving DecidableEq, Repr

/-- Image after reset. -/
def Image.reset : Image where
  applied := false
  board := ImgBoard.reset
  power := ImgPower.reset
  time := ImgTime.reset
  host := ImgHost.reset
  net := ImgNet.reset
  media := ImgMedia.reset
  loops := ImgLoops.reset
  policy := [8, 3, 21, 3, 5, 1, 600, 40, 20, 15, 10, 10, 5, 2, 60, 70, 90]
  wlogGib := 96

/-- The power domains of R40. -/
inductive PowerDomain where
  | acorn
  | supervisor
  | controlComplex
  /-- the Intake, Place and Media stages -/
  | frontStages
  /-- the Reduce and Protect stages -/
  | coderStages
  | dram
  | serdes
  deriving DecidableEq, Repr

/-- Condition of a power domain (R40). -/
inductive DomainCond where
  | on
  | gated
  | off
  deriving DecidableEq, Repr


/-- A member of the control hierarchy that uses a control port (R18, R22). -/
inductive PortMember where
  /-- fault domain -/
  | fault
  /-- power domain -/
  | power
  /-- block agent of the engine's block -/
  | agent
  /-- time domain -/
  | time
  /-- maintenance domain -/
  | maintenance
  deriving DecidableEq, Repr

/-- One tenant's share of a closing period at the peer (R131). -/
structure PeriodShare where
  /-- tenant -/
  tenant : Nat
  /-- logical bytes written -/
  written : Nat
  /-- logical bytes read -/
  read : Nat
  /-- commands completed -/
  commands : Nat
  /-- peak stored grains -/
  peak : Nat
  deriving DecidableEq, Repr
/-- Something that leaves the head: what the outside sees of a command's effect. -/
inductive Output where
  /-- An MSI-X message of an endpoint's vector: the address and data of its table entry (R204). -/
  | msix (ep vec : Nat) (addr : BitVec 64) (data : BitVec 32)
  /-- An MSI message: its number, address and data (R204). -/
  | msi (ep vec : Nat) (addr : BitVec 64) (data : BitVec 32)
  /-- A memory write by the DMA engine: endpoint, Relaxed Ordering, address, bytes; No Snoop is 0 (R194, R221). -/
  | hostWrite (ep : Nat) (relaxed : Bool) (addr : BitVec 64) (data : List (BitVec 8))
  /-- An error message of an endpoint: 0 ERR_COR, 1 ERR_NONFATAL, 2 ERR_FATAL (R196). -/
  | errorMsg (ep kind : Nat)
  /-- A read request to host memory: endpoint, address, bytes asked for (R194). -/
  | hostRead (ep : Nat) (addr : BitVec 64) (len : Nat)
  /-- Read data returned on a BAR (R10, R189). -/
  | readData (ep : Nat) (data : List (BitVec 8))
  /-- Completer Abort (R186). -/
  | completerAbort (ep : Nat)
  /-- Unsupported Request, or its report for a posted request (R189). -/
  | unsupported (ep : Nat)
  /-- A message to the queue pair at the other end of a connection: the QP here, the ECN field of its packets, what it is: 0 ACK,
  1 completion SEND, 2 RDMA WRITE (8 address bytes, then data), 3 READ response, 4 NAK Invalid Request, 5 NAK Remote Access Error, 6 NAK
  of a sequence error, 7 zero-length RDMA WRITE with immediate, 8 batch acknowledgement SEND, 10 CNP, 11 CM REQ, 12 REP, 13 REJ (its
  reason in 2 bytes: 1 No QP available, 26 path MTU not supported), 14 RTU, 15 DREQ, 16 DREP; and its bytes (R251 to R254, R258, R271). -/
  | roce (qpn ecn kind : Nat) (data : List (BitVec 8))
  /-- A frame on sub-port 4p + s: 0 ARP answer, 1 Neighbour Discovery answer, 2 ICMP echo answer, 3 ICMPv6 echo answer,
  4 PFC XOFF, 5 PFC XON; and its bytes (R249, R250). -/
  | net (subport kind : Nat) (data : List (BitVec 8))
  /-- A crosshead message given to the link: TYPE, FENCE, FINAL, MSEQ, numbers and bytes it carries (R568). Its flits follow. -/
  | xhl (type : Nat) (fence final : Bool) (mseq : Nat) (args : List Nat) (data : List (BitVec 8))
  /-- A flit on XHL, its 512 bytes (R564). -/
  | xhlFlit (bytes : List (BitVec 8))
  /-- A replay of unacknowledged flits on XHL: their SEQ, oldest first (R565). -/
  | xhlReplay (seqs : List Nat)
  /-- A flit on a DML port, its 256 bytes (R427). -/
  | dmlFlit (port : Nat) (bytes : List (BitVec 8))
  /-- A replay of unacknowledged flits on a DML port: their SEQ, oldest first (R430). -/
  | dmlReplay (port : Nat) (seqs : List Nat)
  /-- A PMBus transaction: master, address, command code, value (R85). -/
  | pmbus (master addr cmd value : Nat)
  /-- The status returned for a request of a control port's state: element, member, state asked for, taken or refused (R23). -/
  | portStatus (src : Nat) (member : PortMember) (st : CtlState) (taken : Bool)
  /-- This head's shares of the periods it closed, for the peer (R131). -/
  | periodShares (shares : List PeriodShare)
  /-- A request to a DRAM bank is granted: bank, row, requester, whether it activates the row, whether it closes it (R606, R607). -/
  | dramGrant (chan bank row src : Nat) (activate close : Bool)
  /-- A refresh management or refresh command on a DRAM channel: kind, bank (R608, R609). -/
  | dram (chan kind bank : Nat)
  deriving DecidableEq, Repr

end Sys2Proof
end

