-- ==== Sys2Proof/Events.lean ====
section
/-!
DEFINITION. The operand types of the commands: what an event carries from outside the head. A module's answer, a peer's
message, a measurement and a fetched command come with their contents; the head's own state is never an operand.
-/
namespace Sys2Proof

/-- What training of a module port reports (R62, R423). -/
inductive TrainEvent where
  /-- Receivers are detected. -/
  | detected
  /-- Flit lock on both lanes: for each physical lane the lane number its training sequence carries, and whether the pair
  arrives inverted. -/
  | locked (lanes : List (Nat × Bool))
  deriving DecidableEq, Repr

/-- A bridge's IDENT flit (R424) with the module information page (R458). -/
structure DmlIdent where
  /-- DML_FORMAT -/
  format : Nat
  /-- BRIDGE_PORT -/
  port : Nat
  /-- OTHER_HEAD -/
  otherHead : Nat
  /-- FENCE_EPOCH -/
  epoch : Nat
  /-- FENCED_PORT -/
  fencedPort : Nat
  /-- RES_HELD -/
  resHeld : Nat
  /-- CMD_CREDITS -/
  cmdCredits : Nat
  /-- WD_CREDITS -/
  wdCredits : Nat
  /-- MODULE_SERIAL -/
  serial : BitVec 64
  /-- TICK -/
  tick : Nat
  /-- the 512 bytes of the information page -/
  info : List (BitVec 8)
  deriving DecidableEq, Repr

/-- A data record that an RDATA flit carries (R436). -/
structure DataRecord where
  /-- TAG -/
  tag : Nat
  /-- GEN of the tag -/
  gen : Nat
  /-- OFFSET -/
  offset : Nat
  /-- its VALID data bytes -/
  data : List (BitVec 8)
  deriving DecidableEq, Repr

/-- What a module port receives, its lanes put together and descrambled (R422, R427, R428). -/
inductive DmlRx where
  /-- The 256 bytes of a flit. -/
  | flit (bytes : List (BitVec 8))
  /-- The 256 bytes, unscrambled, at the position where a SYNC flit is expected. -/
  | sync (bytes : List (BitVec 8))
  deriving DecidableEq, Repr

/-- A completion of a module (R437). -/
structure DmlCpl where
  /-- tag -/
  tag : Nat
  /-- GEN -/
  gen : Nat
  /-- STATUS -/
  status : Nat
  /-- DIE_STATUS -/
  dieStatus : Nat
  /-- TICK, bits [31:0] of the command's arrival tick -/
  tick : Nat
  /-- BUSY_US -/
  busyUs : Nat
  /-- INFO -/
  info : BitVec 32
  deriving DecidableEq, Repr

/-- A telemetry record (R454). -/
structure TelemRecord where
  /-- TICK at sampling -/
  tick : Nat
  /-- ZONE_TEMP of zones 0 to 7 -/
  zones : List (BitVec 16)
  /-- BRIDGE_TEMP -/
  bridgeTemp : BitVec 16
  /-- INLET_TEMP -/
  inletTemp : BitVec 16
  /-- VIN, mV -/
  vin : Nat
  /-- IIN, 10 mA -/
  iin : Nat
  /-- FENCE_EPOCH -/
  epoch : Nat
  /-- FENCED_PORT -/
  fencedPort : Nat
  /-- NV_OK -/
  nvOk : Bool
  /-- OTHER_PORT_ACTIVE -/
  otherActive : Bool
  /-- RES_HELD -/
  resHeld : Nat
  /-- DIE_BUSY -/
  busy : BitVec 256
  /-- DIE_SUSPENDED -/
  suspended : BitVec 256
  deriving DecidableEq, Repr

/-- An event record of a module (R456). -/
structure ModuleEventRec where
  /-- CODE -/
  code : Nat
  /-- SEVERITY -/
  severity : Nat
  /-- DIE -/
  die : Nat
  /-- bits [31:0] of the tick -/
  tick : Nat
  /-- PARAM -/
  param : BitVec 64
  deriving DecidableEq, Repr

/-- A step of a codeword read (R475). -/
inductive CwEvent where
  /-- The read is wanted, as host work or for an activity. -/
  | begin (work : DieWork)
  /-- A decoder has put out this codeword of 4 608 bytes for the present read; `best` is the best retry set so far. -/
  | decoded (lane best : Nat) (cw : List (BitVec 8))
  /-- It does not. -/
  | failed (lane best : Nat)
  deriving DecidableEq, Repr

/-- Who issued a DRAM read (R602). -/
inductive DramReader where
  /-- A BAR2 read of an endpoint (R198). -/
  | bar2 (ep : Nat)
  /-- A write-log frame; `peerCopy`: the peer's copy could be taken (R389). -/
  | logFrame (peerCopy : Bool)
  /-- The digest service (R414). -/
  | digest
  /-- A map, ledger, seed or share line; `copy`: the peer's delta copy or flash holds it (R602). -/
  | table (copy : Bool)
  /-- The patrol scrub, which has no requester (R601). -/
  | scrub
  deriving DecidableEq, Repr

/-- A request that reaches a DRAM controller: address, requester, page hint (R604, R606, R607). -/
structure DramAsk where
  /-- DRAM address -/
  pa : Nat
  /-- source identifier of the requester -/
  src : Nat
  /-- the page hint is OPEN -/
  keepOpen : Bool
  deriving DecidableEq, Repr

/-- A time message of the peer with what this head measured on it (R116 to R118, R125). -/
structure TimeMsg where
  /-- the peer's own reference state -/
  ref : RefState
  /-- time since the peer lost its reference, ns -/
  holdover : Nat
  /-- the peer's high-water civil time -/
  highWater : Option Int
  /-- the peer's CIVIL_VALID -/
  civilValid : Bool
  /-- the peer's civil offset: its civil time minus its device time, ns -/
  civilOffset : Int
  /-- hardware timestamps of the two-way exchange, device times in ps: the peer sends this message, it arrives here, this head
  sent its last message, that arrived at the peer -/
  t1 : Int
  t2 : Int
  t3 : Int
  t4 : Int
  /-- the peer's device-time rate against this head's present rate correction, in units of 10^-12 -/
  adj : Int
  /-- a committed set, and whether it was authorised -/
  civilSet : Option (Int × Bool)
  deriving DecidableEq, Repr

/-- An Announce message of a PTP master: the members that the data set comparison of the default profile uses (R113). -/
structure PtpAnnounce where
  /-- identity of the sender's clock -/
  sender : BitVec 64
  /-- identity of the grandmaster -/
  gm : BitVec 64
  /-- priority1, clockClass, clockAccuracy, offsetScaledLogVariance and priority2 of the grandmaster, in the order of comparison -/
  quality : List Nat
  /-- stepsRemoved -/
  steps : Nat
  deriving DecidableEq, Repr

/-- A Sync exchange of PTP with delay request-response, end to end (R113). Times are in ps since 1970-01-01: those of the master
on its own scale, those of this head in civil time. -/
structure PtpExchange where
  /-- domain number -/
  domain : Nat
  /-- transport: 0 IEEE 802.3, 1 UDP/IPv4, 2 UDP/IPv6 -/
  transport : Nat
  /-- identity of the sender's clock -/
  sender : BitVec 64
  /-- originTimestamp of the Sync (a one-step master) -/
  origin : Int
  /-- preciseOriginTimestamp of its Follow_Up (a two-step master) -/
  followUp : Option Int
  /-- the Sync arrives at the port's PCS -/
  t2 : Int
  /-- the Delay_Req leaves it -/
  t3 : Int
  /-- receiveTimestamp of the Delay_Resp -/
  t4 : Int
  /-- currentUtcOffset, s -/
  utcOffset : Int
  /-- currentUtcOffsetValid -/
  utcValid : Bool
  deriving DecidableEq, Repr

/-- What one mains feed gives in 128 us (R66, R67). -/
structure FeedReading where
  /-- the ten samples of the decimated bitstream, full scale 2^23, each with the phase-locked reference waveform at nominal
  amplitude at its instant, mV -/
  samples : List (Int × Int)
  /-- duration of the last 10 cycles of the reference waveform, us -/
  tenCycles : Nat
  /-- clock periods for which the bitstream has been constant -/
  run : Nat
  deriving DecidableEq, Repr

/-- A measurement of the holdup bank (R72). -/
structure GaugeSample where
  /-- terminal voltage, mV -/
  mv : Nat
  /-- current, mA, discharge positive -/
  ma : Int
  /-- a charging interval that ends: integrated current in uC and rise of voltage in mV -/
  charge : Option (Nat × Nat)
  /-- a current step: change of voltage in uV and of current in mA -/
  step : Option (Nat × Nat)
  deriving DecidableEq, Repr

/-- What a STATUS_WORD says under PMBus 1.3 (R87). -/
inductive RegEvent where
  | none
  | warning
  | overUnderVoltage
  | fault
  deriving DecidableEq, Repr

/-- What PMBus reads of one regulator (R86); `ok` false: no acknowledge or a PEC error. -/
structure RegRead where
  /-- master -/
  master : Nat
  /-- address -/
  addr : Nat
  /-- the transaction was answered with a right PEC -/
  ok : Bool
  /-- STATUS_WORD -/
  status : BitVec 16
  /-- what that word says -/
  event : RegEvent
  /-- READ_VOUT, mV -/
  vout : Nat
  /-- READ_IOUT, mA -/
  iout : Nat
  /-- READ_TEMPERATURE_1, 1/10 degC -/
  temp : Int
  deriving DecidableEq, Repr

/-- A POWER message of the peer (R93, R568, R636). -/
structure PowerMsg where
  /-- the peer is idle -/
  idle : Bool
  /-- the peer's next known event, device time -/
  next : Option Nat
  /-- the peer finds the VAULT conditions holding -/
  ready : Bool
  /-- it proposes VAULT entry -/
  propose : Bool
  /-- it accepts this head's proposal -/
  accept : Bool
  /-- requests to power a slot up (true) or down -/
  slots : List (Nat × Bool)
  /-- slots whose SLOT_EN the peer has dropped (R638) -/
  dropped : BitVec 48
  deriving DecidableEq, Repr

/-- A loop whose sample falls due (R620, R628). -/
structure LoopDue where
  /-- loop -/
  n : Nat
  /-- its measurement, none when it has not been refreshed: for loop 0 the worst margin of the on-die timing monitors, ps, for loop 1
  the bank charge current, 10 mA, for a zone loop the hottest junction sensor, 1/16 degC. A MODZ loop takes the module's telemetry. -/
  meas : Option Int
  deriving DecidableEq, Repr

/-- What reading the modules gives of one stored object (R31, R475). -/
structure StoredRead where
  /-- grain address -/
  grain : Nat
  /-- decoder lane that takes it -/
  lane : Nat
  /-- the stored bytes as read; none when a codeword could not be decoded -/
  direct : Option (List (BitVec 8))
  /-- what other members of its stripe hold at the place of its bytes: the strip that the bytes lie in, the member's position, and the
  member's bytes (R31, R533) -/
  others : List (Nat × Nat × List (BitVec 8))
  /-- sectors of a RAW chunk whose bytes lie in a region that cannot be reconstructed (R543) -/
  region : BitVec 8
  deriving DecidableEq, Repr

/-- One member of a stripe as the modules return it: none when it cannot be read at all, else its 1 MiB with the regions of
4 096 bytes whose codewords do not decode (R469, R533). -/
structure StripRead where
  /-- its bytes -/
  bytes : List (BitVec 8)
  /-- regions that do not decode -/
  bad : List Nat
  deriving DecidableEq, Repr

/-- The peer's copy of one sector of a write-log frame (R389). -/
structure PeerSector where
  /-- LSN of the frame -/
  lsn : Nat
  /-- sector slot -/
  slot : Nat
  /-- its 4 096 bytes -/
  data : List (BitVec 8)
  deriving DecidableEq, Repr

/-- A read or write of the DMA engine that fails (R197, R240). -/
inductive DmaFailure where
  /-- The fetch of a slot, or of a queue pointer. -/
  | fetch (tag : Nat)
  /-- A read of a command's data. -/
  | data (tag : Nat)
  /-- The write of a completion record. -/
  | completion
  deriving DecidableEq, Repr

/-- What arrives on the crosshead link, its lanes put together and descrambled (R564, R565). -/
inductive XhlRx where
  /-- The 512 bytes of a flit. -/
  | flit (bytes : List (BitVec 8))
  /-- The 512 bytes, unscrambled, at the position where a SYNC flit is expected. -/
  | sync (bytes : List (BitVec 8))
  deriving DecidableEq, Repr

/-- A HEARTBEAT message (R576). -/
structure Beat where
  /-- HEAD_SEL -/
  head : Bool
  /-- MODE -/
  mode : Nat
  /-- GLB_READY -/
  ready : BitVec 32
  /-- heartbeat count -/
  count : Nat
  /-- applied MSEQ of each class -/
  applied : List Nat
  /-- modules at which the sender's port is ACTIVE -/
  ports : Nat
  /-- FENCE_HOLDER mask -/
  held : BitVec 48
  deriving DecidableEq, Repr

/-- A BULK transfer (R569, R587). -/
structure BulkMsg where
  /-- delta records -/
  recs : List DeltaRec
  /-- DSEQ of the last of them -/
  dseq : Nat
  /-- frames of the sender's log -/
  frames : List Frame
  /-- the sender's ownership table, when it settles ownership -/
  table : Option (List Nat)
  /-- the last transfer of a rejoin -/
  final : Bool
  deriving DecidableEq, Repr

/-- A PAIR_KEY message (R591). -/
structure PairMsg where
  /-- GLB_SERIAL of the sender -/
  serial : BitVec 64
  /-- its identity public key -/
  idKey : List (BitVec 8)
  /-- its ephemeral public value -/
  value : List (BitVec 8)
  /-- signature of the value -/
  sig : List (BitVec 8)
  /-- the array key wrapped under the transport key -/
  wrapped : Option (List (BitVec 8))
  deriving DecidableEq, Repr

/-- What the peer of a connection answers to the requests up to a PSN (R252, R253). -/
inductive RoceAnswer where
  /-- acknowledged -/
  | ack
  /-- NAK of a sequence error: the requests from this PSN on are wanted again -/
  | sequence
  /-- receiver not ready -/
  | rnr
  /-- any other NAK -/
  | refused
  deriving DecidableEq, Repr

/-- What an Ethernet frame is (R249, R251). -/
inductive FrameKind where
  /-- ARP request, with the address asked for -/
  | arp (target : BitVec 32)
  /-- Neighbour Solicitation, with its target -/
  | neighbour (target : BitVec 128)
  /-- ICMP echo request, with its destination -/
  | echo4 (target : BitVec 32)
  /-- ICMPv6 echo request, with its destination -/
  | echo6 (target : BitVec 128)
  /-- an IP fragment, or an IP packet with options -/
  | fragment
  /-- a RoCEv2 request packet of a QP: its P_Key and whether it is marked CE -/
  | roce (qpn : Nat) (pkey : BitVec 16) (ce : Bool)
  /-- a RoCEv2 acknowledgement packet of a QP: its P_Key, its PSN and what it answers -/
  | answer (qpn : Nat) (pkey : BitVec 16) (psn : Nat) (a : RoceAnswer)
  /-- anything else, a PAUSE frame among it -/
  | other
  deriving DecidableEq, Repr

/-- An Ethernet frame (R248 to R250). -/
structure EthFrame where
  /-- sub-port 4p + s -/
  sub : Nat
  /-- length in bytes, FCS included -/
  len : Nat
  /-- its FCS is good -/
  fcsOk : Bool
  /-- the six octets of its destination address -/
  dst : List (BitVec 8)
  /-- VLAN ID and priority of its IEEE 802.1Q tag -/
  tag : Option (Nat × Nat)
  /-- DSCP of an IP packet -/
  dscp : Option Nat
  /-- what it is -/
  kind : FrameKind
  /-- its payload -/
  data : List (BitVec 8)
  deriving DecidableEq, Repr

/-- What a RoCEv2 request asks for, by its opcode (R252). -/
inductive RoceOp where
  | send
  | write
  | writeImm
  | read
  /-- an opcode that R252 does not support -/
  | other
  deriving DecidableEq, Repr

/-- A RoCEv2 request on a queue pair (R252, R254, R256). -/
structure RoceReq where
  /-- QP -/
  qpn : Nat
  /-- P_Key -/
  pkey : BitVec 16
  /-- first PSN -/
  psn : Nat
  /-- its opcode -/
  op : RoceOp
  deriving DecidableEq, Repr

/-- Why a read of the DMA engine failed (R197). -/
inductive ReadError where
  | unsupported
  | completerAbort
  | timeout
  | poisoned
  deriving DecidableEq, Repr

/-- A BAR2 request, or the end of one in flight (R189, R192). -/
inductive Bar2Event where
  /-- A request at a BAR2 offset: its length, the data of a write (none for a read), and whether it stays in flight after it
  is served. -/
  | request (off len : Nat) (data : Option (List (BitVec 8))) (stays : Bool)
  /-- The oldest request in flight has reached the target memory, or its last completion has been transmitted. -/
  | done
  deriving DecidableEq, Repr

/-- How an element reports an error (R645). -/
inductive ErrorReport where
  /-- A corrected event of a kind. -/
  | corrected (kind : TestKind)
  /-- A CONTAINED error of a kind, with the Almanac code its chapter gives it, none where none is given. -/
  | contained (kind : TestKind) (code : Option Nat)
  /-- An EXTERNAL error received on this lane or port. -/
  | external (kind : TestKind)
  /-- A FATAL error of another chapter. -/
  | fatal
  /-- An error that an endpoint's link or transaction layer finds, by its bit in the AER status (R196). -/
  | pcie (uncorrectable : Bool) (bit : Nat)
  deriving DecidableEq, Repr

/-- What a control port offers (R22). -/
inductive PortFunction where
  /-- write the engine's settings -/
  | configure
  /-- start work; let accepted work finish and take no more -/
  | runQuiesce
  /-- stop the clock, or remove power -/
  | gate
  /-- supply device time -/
  | stamp
  /-- deliver error events; read error syndromes -/
  | report
  /-- apply or release Husk; run a self-test -/
  | freezeTest
  /-- set the bandwidth share of maintenance work -/
  | share
  deriving DecidableEq, Repr

/-- A configuration image that passed its checks (R153, R154, R162). -/
structure CfgImage where
  /-- VERSION -/
  version : Nat
  /-- KEY_INDEX of its signature block -/
  keySlot : Nat
  /-- SHA-384 digest of the owner keys it carries -/
  digest : List (BitVec 8)
  /-- the decoded sections: TYPE, SECT_FORMAT, bytes -/
  secs : List (Nat × Nat × List (BitVec 8))
  deriving DecidableEq, Repr

/-- What training finds of one DRAM channel (R147, R596, R609, R612). -/
structure DimmIn where
  /-- the channel has trained -/
  trained : Bool
  /-- its DIMM is of the 256 GiB type -/
  type256 : Bool
  /-- its SPD requires RFM -/
  rfm : Bool
  /-- the temperature band it trained in -/
  band : Nat
  /-- delay words of its DQS lanes -/
  lanes : List (BitVec 32)
  deriving DecidableEq, Repr

/-- A key record as a waypoint holds it (R495). -/
structure KeyRec where
  /-- KEY_INDEX -/
  index : Nat
  /-- KEY_EPOCH -/
  epoch : Nat
  /-- bytes 8 to 47, or 8 to 55 of a pin record -/
  body : List (BitVec 8)
  deriving DecidableEq, Repr

/-- The map that step 13 takes from the newest waypoints of both heads and the trailers after them (R485 to R500). -/
structure MapRead where
  /-- SEQ of this head's newest waypoint -/
  seq : Nat
  /-- SEQ of the peer's -/
  peerSeq : Nat
  /-- layout format of the array -/
  layout : Nat
  /-- COMMIT_LSN -/
  commitLsn : Nat
  /-- LSN_END -/
  lsnEnd : Nat
  /-- SERIAL_END -/
  serialEnd : Nat
  /-- DEVICE_TIME -/
  time : Nat
  /-- HIGH_WATER -/
  highWater : Int
  /-- WFLAGS RESYNC -/
  resync : Bool
  /-- RESYNC_CURSOR -/
  cursor : Nat
  /-- RESYNC_BOUND -/
  bound : Nat
  /-- stripes opened since the previous start -/
  recent : List (BitVec 64)
  /-- REPL_COUNTER -/
  replCounters : List Nat
  /-- CS_COUNTER -/
  csCounters : List Nat
  /-- volumes with their versions, locks, hints and statistics -/
  volumes : List Volume
  /-- map-page pairs -/
  pages : List MapPage
  /-- seed spaces -/
  spaces : List SeedSpace
  /-- share table -/
  shares : List ShareRec
  /-- key records -/
  keys : List KeyRec
  /-- accounting -/
  tenants : List Tenant
  /-- the settings page can be read by this firmware -/
  settingsOk : Bool
  /-- its records: BAR0 offset, value -/
  settings : List (Nat × BitVec 32)
  /-- volumes owned by this head -/
  owned : List Nat
  /-- MODULE_SERIAL of each slot of the layout, 0 for none -/
  serials : List (BitVec 64)
  /-- ledger of the dies this head holds -/
  ledger : List Ledger
  /-- blocks (slot, die, plane, block) that are CLOSED with a trailer whose CRC checks -/
  closedOk : List (Nat × Nat × Nat × Nat)
  /-- strip table -/
  strips : List StripEntry
  /-- the stripes it describes -/
  stripes : List Stripe
  /-- blocks of data strip numbers held: first, next free; and the next block of the pool -/
  numBlocks : List (Nat × Nat)
  granted : Nat
  /-- RESHAPE, TARGET_K, TARGET_M -/
  reshape : Nat
  targetK : Nat
  targetM : Nat
  /-- VOL_FIRST, VOL_LAST, VOL_CURRENT -/
  volFirst : Nat
  volLast : Nat
  volCurrent : Nat
  /-- DRAIN_MASK -/
  drainMask : BitVec 64
  /-- PATROL_DAY -/
  patrolDay : Nat
  /-- LOST_TOTAL -/
  lostTotal : Nat
  /-- lost list -/
  lostList : List LostRec
  /-- pages of the objects that the newest waypoint names, as they lie on the media -/
  objPages : List ObjPage
  /-- the stream of waypoint records, and the pages written in each anchor ring -/
  stream : RecStream
  /-- trailer entries of strips at or above the newest waypoint -/
  trailers : List TrailerEntry
  deriving DecidableEq, Repr

/-- What step 13 reads from the modules: records, pages of objects and trailers (R485 to R500). -/
structure MapMedia where
  /-- the records in the anchor rings, of both heads -/
  copies : List (List (BitVec 8))
  /-- the pages read on from the original of this head's copy with the highest SEQ, in order -/
  chain : List (List (BitVec 8))
  /-- the same of the peer's -/
  peerChain : List (List (BitVec 8))
  /-- the pages of the objects that this head's newest waypoint names -/
  pages : List ObjPage
  /-- the pages of the version directory, the map trees and the ledger that the peer's newest waypoint names -/
  peerPages : List ObjPage
  /-- the settings page has a format that this firmware reads -/
  settingsOk : Bool
  /-- layout format of the array -/
  layout : Nat
  /-- the stripes that the strip table and the trailers describe -/
  stripes : List Stripe
  /-- stripes opened since the previous start -/
  recent : List (BitVec 64)
  /-- blocks (slot, die, plane, block) that are CLOSED with a trailer whose CRC checks -/
  closedOk : List (Nat × Nat × Nat × Nat)
  /-- blocks of data strip numbers held: first, next free; and the next block of the pool -/
  numBlocks : List (Nat × Nat)
  granted : Nat
  /-- the stripes of the stream of records and the pages written in each anchor ring -/
  stream : RecStream
  /-- trailer entries of strips at or above the newest waypoint -/
  trailers : List TrailerEntry
  deriving DecidableEq, Repr

/-- What step 13 finds on the modules (R487). -/
inductive MapSource where
  /-- No module of the array holds a waypoint: the array is new. -/
  | none
  /-- An object that a newest waypoint names cannot be read or reconstructed. -/
  | unreadable
  /-- Waypoints. -/
  | found (m : MapMedia)
  deriving DecidableEq, Repr

/-- The eye margin measured at the calibration of one SerDes lane (R148, R723). -/
structure LaneEye where
  /-- source identifier of the lane, or of the port it belongs to (R26) -/
  src : Nat
  /-- the rate of a PCIe lane as HEP_STATUS.SPEED codes it, 0 for another interface -/
  rate : Nat
  /-- each eye: height or voltage margin in uV, width or timing margin in 10^-4 UI -/
  eyes : List (Nat × Nat)
  /-- estimated pre-FEC bit error rate, in units of 10^-12 -/
  ber : Nat
  deriving DecidableEq, Repr

/-- What a start finds outside the head (R52, R108, R137, R146, R149, R166, R169, R487, R598). -/
structure StartIn where
  /-- the HEAD_SEL strap -/
  headSel : Bool
  /-- the NVM_MODE strap -/
  nvmMode : Bool
  /-- the main rails stayed up while CHIP_RST_L was low -/
  railsUp : Bool
  /-- island counts of 1/32768 s since the stop -/
  counts : Nat
  /-- reads of configuration copies A and B complete -/
  cfgRead : List Bool
  /-- reads of firmware slots A and B complete -/
  fwRead : List Bool
  /-- bytes of the NOR program that the loss of power cut, as they now read: address, value (R168) -/
  torn : List (Nat × BitVec 8)
  /-- SRAM banks that fail their march test -/
  sramBad : List Nat
  /-- source identifiers of elements other than SerDes lanes that fail calibration, and of ports that do not train -/
  calFails : List Nat
  /-- the eye margins that the calibration of the SerDes lanes measured (R148) -/
  eyes : List LaneEye
  /-- calibration results: source identifier, word -/
  calWords : List (Nat × Int)
  /-- trim value of the island oscillator -/
  trim : Int
  /-- MOD_PRSNT_L low -/
  present : BitVec 48
  /-- the DRAM channels -/
  dimms : List DimmIn
  /-- DRAM channels of which a region fails initialisation (R179) -/
  dramBad : List Nat
  /-- GiB by which the map and its tables exceed what remains of the DRAM, 0 when they fit -/
  shortfall : Nat
  /-- WLOG_GIB that the peer declares, when there is a peer (R290) -/
  peerGib : Option Nat
  /-- the map -/
  map : MapSource
  deriving DecidableEq, Repr

/-- A chunk of a volume (R28). -/
structure ChunkId where
  /-- volume number -/
  vol : Nat
  /-- chunk of the volume -/
  chunk : Nat
  deriving DecidableEq, Repr

/-- A tag of a queue with the generation that an item carries (R212). -/
structure TagId where
  /-- tag -/
  tag : Nat
  /-- generation -/
  gen : Nat
  deriving DecidableEq, Repr

/-- What a BAR0 or BAR4 request asks for besides its place (R186, R187). -/
structure BarAccess where
  /-- every byte of the request is enabled -/
  enabled : Bool
  /-- the data of a write, none for a read -/
  data : Option (BitVec 64)
  deriving DecidableEq, Repr

/-- The link of an endpoint is lost (R201, R207). -/
structure LinkLoss where
  /-- endpoint -/
  ep : Nat
  /-- how many of the last posted requests the data link layer had not acknowledged -/
  unacked : Nat
  deriving DecidableEq, Repr

/-- Writes of configuration space that arrive together (R180, R200): offset and word. -/
structure ConfigWrite where
  /-- endpoint -/
  ep : Nat
  /-- offsets and words -/
  writes : List (Nat × BitVec 32)
  deriving DecidableEq, Repr

/-- A DMA request that fails (R195 to R197, R240). -/
structure DmaError where
  /-- which request -/
  what : DmaFailure
  /-- how it failed -/
  error : ReadError
  deriving DecidableEq, Repr

/-- A REQ of the connection manager (R253, R255). -/
structure CmRequest where
  /-- P_Key -/
  pkey : BitVec 16
  /-- path MTU, bytes -/
  mtu : Nat
  deriving DecidableEq, Repr

/-- A burst that a DRAM channel returns, and what reads it (R599). -/
structure DramBurst where
  /-- its codewords, ten 16-bit symbols each -/
  burst : List (List (BitVec 16))
  /-- the requester -/
  reader : DramReader
  deriving DecidableEq, Repr

/-- The lanes of a module port at the end of its retraining: lane and inversion seen on each (R62, R431). -/
structure PortLanes where
  /-- port -/
  port : Nat
  /-- for each physical lane the number it shows and whether it is inverted -/
  lanes : List (Nat × Bool)
  deriving DecidableEq, Repr

end Sys2Proof
end

