-- ==== Sys2Proof/Syntax.lean ====
section
/-!
DEFINITION. The commands the block takes: one constructor for each row of the opcode table. The table gives the rows no
bits; the operands are what the event carries from outside (an offset and a word, a measurement, a message's contents, a
flit, the data a module returned). An event that a clock or an analogue condition raises carries no operand for it: its
sender attests that the condition holds (log entry 2), and what State itself knows is checked by the meaning.
-/
namespace Sys2Proof

/-- The commands of the block. -/
inductive Instr where
  /-- A host write to a register that has no row of its own sets the field, or is refused under the register's own range rule (R10). -/
  | registerWrite (ep off : Nat) (w : BitVec 32)
  /-- A read of the low half of a 64-bit register loads that endpoint's read latch with the high half as it stands (R12). -/
  | lowHalfRead (ep off : Nat)
  /-- A write of the high half of a 64-bit register loads the endpoint's staged high half and changes nothing else (R12). -/
  | highHalfWrite (ep off : Nat) (w : BitVec 32)
  /-- A write of the low half of a 64-bit register commits the staged high half and the written low half at once (R12). -/
  | lowHalfWrite (ep off : Nat) (w : BitVec 32)
  /-- A read of an RC field returns its value and then clears it (R10). -/
  | rcRead (ep off : Nat)
  /-- A BAR0 or BAR4 access of a refused size or alignment is answered with Completer Abort or dropped, recorded, and sets ACC_ERR (R186). -/
  | barAccessError (ep bar off size : Nat) (acc : BarAccess)
  /-- A BAR2 request is bound to the window entry as it stands at decode and served, or is treated as outside the windows (R189). -/
  | bar2Request (ep : Nat) (ev : Bar2Event)
  /-- A host access to the MSI-X table or the Pending Bit Array in BAR4 (R187). -/
  | bar4Access (ep off size : Nat) (data : Option (BitVec 64))
  /-- The lockstep supervisor cores disagree and the head enters FAILSTOP within 1 µs (R19). -/
  | supervisorDivergence
  /-- A domain controller or block agent misses the 10 ms watchdog and is restarted, or the head enters FAILSTOP on a second stop within 60 s (R20). -/
  | watchdogTimeout (block : Bool) (n : Nat)
  /-- A control member requests a state of a control port, and precedence decides which same-cycle request takes effect (R23). -/
  | controlPortRequest (src : Nat) (reqs : List (PortMember × CtlState))
  /-- The rising edge of CHIP_RST_L begins a start that runs through the steps of the start sequence (R137). -/
  | chipRstL (start : StartIn)
  /-- CHIP_RST_L driven low, or the main rails collapsing, ends every port state and all activity of the head (R24). -/
  | chipRstLLow
  /-- The last start step completes, SERVICE is set, MODE becomes READY and the READY pin rises (R144). -/
  | startDone (ms : Nat)
  /-- XHL is not up within 10 s of CAL, so XHL is set with PEER_UP 0 and the head proceeds under the majority-of-modules rule (R146). -/
  | xhlStartTimeout
  /-- WAKE_L held low from outside for 1 ms wakes a head in VAULT (R50). -/
  | wakeLExternal
  /-- VDDIO_18 leaves or returns to tolerance and the Acorn island changes its supply, or is reset when both supplies are lost (R714). -/
  | islandSupplyChange (vddioOk : Bool) (mv : Nat)
  /-- Every 128 µs each mains feed is classified into a state from its amplitude and frequency (R67). -/
  | feedClassification (feed : Nat) (samples : List (Int × Int)) (tenCycles run : Nat)
  /-- The ride-through window ends with no feed supplying, and the head commits to a flush (R79). -/
  | rideThroughExpiry
  /-- A bank discharge current above 2 A lasting 0.5 ms commits a flush (R79). -/
  | bankDischarge
  /-- All dirty writes are committed; the open stripe closes, a waypoint is written, CLEAN_STOP is set, and the head resumes service or powers off (R82). -/
  | flushDone
  /-- A bank voltage and current measurement updates capacitance, ESR and remaining energy (R72). -/
  | gaugeSample (g : GaugeSample)
  /-- Every 1 ms the dirty-data budget D is computed and sent to the peer (R74). -/
  | budgetCompute (rate : Nat)
  /-- The peer's budget message arrives and the pair budget is updated (R76). -/
  | budget (d : Nat)
  /-- A peer budget older than 5 ms counts as 0 (R76). -/
  | peerBudgetStale
  /-- MAINS_RTN high for 2 s after a power-fail stop makes the island assert WAKE_L (R83). -/
  | mainsRtn
  /-- Every 10 ms each regulator's status, voltage, current and temperature are read (R86). -/
  | pmbusPoll (reads : List RegRead)
  /-- A PMBn_ALERT_L falling starts an SMBus Alert Response and a STATUS_WORD read (R86). -/
  | pmbusAlert (m0 m1 : Option RegRead)
  /-- The DROWSE idle timer expires with PS1 enabled and the head enters PS1 (R90). -/
  | drowseEntry
  /-- The DOZE idle timer expires with PS2 enabled and the head enters PS2 (R90). -/
  | dozeEntry
  /-- An end of idleness triggers an exit from DROWSE or DOZE to PS0 (R91). -/
  | powerStateExit
  /-- An exit is started one exit latency before the next known event (R91). -/
  | scheduledExit
  /-- A write to PWR_PS_CTL that clears an enable forces an immediate exit from that state (R101). -/
  | psCtlWrite (w : BitVec 32)
  /-- Both heads agree on VAULT; a waypoint is written, the island is loaded, slots and rails are turned off (R95). -/
  | vaultEnter
  /-- The island wake alarm fires and drives WAKE_L if MAINS_RTN is high (R97). -/
  | islandWakeAlarm (mainsRtn : Bool)
  /-- Every 60 s the island samples VBAT and sets VBAT_LOW below 2.6 V (R99). -/
  | vbatSample (mv : Nat)
  /-- A POWER message carries idleness, next known event, VAULT proposal or acceptance, or slot power requests from the peer (R93). -/
  | power (m : PowerMsg)
  /-- A PTP Sync exchange yields an offset that disciplines time and may lock PTP (R113). -/
  | ptpSync (sub : Nat) (masters : List PtpAnnounce) (x : PtpExchange) (adj : Int)
  /-- No Sync arrives for 4 s or the grandmaster changes, and the reference is lost (R112). -/
  | ptpLoss
  /-- A rising edge on 1PPS_IN marks a civil second boundary and is accepted or rejected (R114). -/
  | ppsInEdge (due came adj : Int)
  /-- 1PPS edges are missing or rejected for 3 consecutive seconds and the reference is lost (R112). -/
  | ppsInMissing
  /-- At each civil second boundary 1PPS_OUT rises for 100 µs when enabled and civil time is valid (R114). -/
  | ppsOutEdge
  /-- Every 1 ms the head sends a timestamped time message to the peer (R116). -/
  | timeSend
  /-- A time message arrives; the follower steers toward the leader and a forwarded civil set is applied (R116). -/
  | time (m : TimeMsg)
  /-- The low-half write of LDS_CIVIL_SET commits a new civil time, or is refused without authorisation (R122). -/
  | civilSet (ep : Nat) (lo : BitVec 32)
  /-- A write of 1 to ARM_FWD authorises one forward civil set (R123). -/
  | armFwd
  /-- ARM_FWD clears 10 s after it was set (R123). -/
  | armFwdExpiry
  /-- A leap-second correction starts or ends over 1 000 s (R126). -/
  | leapSmear (start positive : Bool)
  /-- High-water civil time reaches a lock's expiry and the lock is removed (R127). -/
  | lockExpired
  /-- High-water civil time reaches a period end and each tenant's open period closes and is merged (R131). -/
  | periodsClosed (shares : List PeriodShare)
  /-- A write to LDS_PERIOD_DEF changes the default period definition or is refused (R135). -/
  | periodDefWrite (w : BitVec 32)
  /-- A write to CFG_LC_CMD requests a life-cycle change, which begins or is refused (R172). -/
  | lcChangeRequest (w : BitVec 32)
  /-- The fuses of a life-cycle change are blown and read back, and the change completes (R173). -/
  | lcChangeDone
  /-- Assertion of PE_PERST_L resets every endpoint and deletes its queues and windows (R202). -/
  | pePerstL
  /-- Deassertion of PE_PERST_L lets the endpoint train (R140). -/
  | pePerstLDeassert
  /-- A hot reset is received; the link retrains and queues are held (R199). -/
  | hotReset (drop : LinkLoss)
  /-- The PCIe link goes down; outstanding requests are reissued after it returns (R201). -/
  | linkDown (drop : LinkLoss)
  /-- A PCIe link comes up (R208). -/
  | linkUp (ep speed width : Nat) (flit : Bool)
  /-- The endpoint enters D3hot and its queues are held (R199). -/
  | d3hot (ep : Nat)
  /-- Bus Master Enable is cleared and the endpoint's queues are held (R200). -/
  | busMasterEnableCleared (x : ConfigWrite)
  /-- Bus Master Enable is set again in D0 and held work resumes (R200). -/
  | busMasterEnableSet (ep : Nat) (writes : List (Nat × BitVec 32))
  /-- A write of HEP_WIN_CTL commits a window entry and advances the generation (R190). -/
  | winCommit (ep idx : Nat) (w : BitVec 32)
  /-- A read issued by the DMA engine fails; its command ends TRANSFER_ERROR or its queue freezes (R197). -/
  | transferError (ep n : Nat) (what : DmaError) (addr : BitVec 64)
  /-- An MSI-X vector is unmasked and its pending message is sent (R204). -/
  | vectorUnmask (ep : Nat) (v : Option Nat)
  /-- A DB_READY write makes free tags ready and schedules fetches of their slots (R214). -/
  | dbReady (ep q : Nat) (w : BitVec 32)
  /-- A DB_ABORT write aborts the command of each named busy tag as its state allows (R235). -/
  | dbAbort (ep q : Nat) (w : BitVec 32)
  /-- A DB_CQ_HEAD write frees completion records and lets held completions be posted (R216). -/
  | dbCqHead (ep q : Nat) (w : BitVec 32)
  /-- The low-half write of DB_READY_ABORT applies ready and abort bits in one cycle (R215). -/
  | dbReadyAbort (ep q : Nat) (lo : BitVec 32)
  /-- A READ command is checked and returns sectors from the write log or the media (R225). -/
  | read (q : QueueId) (tag : Nat) (words : List (BitVec 32)) (plist : Option (List (BitVec 64))) (media : List StoredRead)
  /-- A WRITE command is checked, reserves log space and has its data read for admission (R226). -/
  | write (q : QueueId) (tag : Nat) (words : List (BitVec 32)) (plist : Option (List (BitVec 64)))
  /-- A FLUSH command waits for the commitment of every covered write of its volume (R227). -/
  | flush (q : QueueId) (tag : Nat) (words : List (BitVec 32))
  /-- A DISCARD clears map entries of whole mapped chunks with no logged frame (R342). -/
  | discard (q : QueueId) (tag : Nat) (words : List (BitVec 32))
  /-- A RASTER_HINT sets raster geometry for a range or the volume (R232). -/
  | rasterHint (q : QueueId) (tag : Nat) (words : List (BitVec 32))
  /-- A FIXITY command digests a range through the digest service (R231). -/
  | fixity (q : QueueId) (tag : Nat) (words : List (BitVec 32)) (media : List StoredRead)
  /-- A RETAIN places a retention lock on a range (R230). -/
  | retain (q : QueueId) (tag : Nat) (words : List (BitVec 32))
  /-- A SNAPSHOT takes a cut LSN and waits for the writes below it to commit (R334). -/
  | snapshot (q : QueueId) (tag : Nat) (words : List (BitVec 32))
  /-- A CLONE creates a writable volume sharing a snapshot's map pages (R337). -/
  | clone (q : QueueId) (tag : Nat) (words : List (BitVec 32))
  /-- A SNAP_DELETE removes a snapshot from the list and starts releasing its references (R336). -/
  | snapDelete (q : QueueId) (tag : Nat) (words : List (BitVec 32))
  /-- A QUERY writes the selected information page to its buffer (R233). -/
  | query (q : QueueId) (tag : Nat) (words : List (BitVec 32))
  /-- CREATE_QUEUE creates an I/O queue with every generation 0 (R238). -/
  | createQueue (q : QueueId) (tag : Nat) (words : List (BitVec 32))
  /-- DELETE_QUEUE aborts unfetched tags and deletes the queue once every tag is free (R238). -/
  | deleteQueue (q : QueueId) (tag : Nat) (words : List (BitVec 32))
  /-- RESET_QUEUE returns a frozen queue to service after its commands end (R240). -/
  | resetQueue (q : QueueId) (tag : Nat) (words : List (BitVec 32))
  /-- CREATE_VOLUME creates a volume with its geometry and flags (R238). -/
  | createVolume (q : QueueId) (tag : Nat) (words : List (BitVec 32))
  /-- DELETE_VOLUME deletes a volume and its snapshots unless a lock is unexpired (R238). -/
  | deleteVolume (q : QueueId) (tag : Nat) (words : List (BitVec 32))
  /-- SET_PERIOD sets a tenant's accounting period definition (R129). -/
  | setPeriod (q : QueueId) (tag : Nat) (words : List (BitVec 32))
  /-- SET_TIME sets civil time as a write of LDS_CIVIL_SET (R238). -/
  | setTime (q : QueueId) (tag : Nat) (words : List (BitVec 32))
  /-- POWER_HINT sets next activity, VAULT consent, guard, threshold or IDLE_NOW (R241). -/
  | powerHint (q : QueueId) (tag : Nat) (words : List (BitVec 32))
  /-- A power hint lapses when its time is reached (R241). -/
  | powerHintLapse
  /-- ASYNC_EVENT waits and completes when a device event of warning severity or higher is due (R239). -/
  | asyncEvent (q : QueueId) (tag : Nat) (words : List (BitVec 32))
  /-- QUERY_DEVICE writes the identification and status registers to a buffer (R238). -/
  | queryDevice (q : QueueId) (tag : Nat) (words : List (BitVec 32))
  /-- COAL_TIME elapses after the first unsignalled completion and the vector is raised (R222). -/
  | coalescingTimeout (ep q : Nat)
  /-- Writing ENABLE 1 starts the admin queue, or is refused and sets CTX_ERR (R243). -/
  | adminQueueEnable (ep : Nat) (w : BitVec 32)
  /-- Writing ENABLE 0 stops the admin queue and frees its tags without completions (R243). -/
  | adminQueueDisable (ep : Nat) (w : BitVec 32)
  /-- A FENCE command starts once every earlier command of its queue has completed (R288). -/
  | fencedCommandStart (q : QueueId) (tag gen : Nat) (media : List StoredRead)
  /-- A write held for 2 s completes NOT_READY with no effect (R305). -/
  | writeHoldTimeout
  /-- An Ethernet frame arrives and is checked, answered or dropped (R249). -/
  | frameReceive (f : EthFrame)
  /-- The receive buffer drains 64 KiB below the threshold and PFC XON is sent (R250). -/
  | pfcXon (sub fill : Nat)
  /-- A PFC frame from the link partner pauses or resumes the lossless priority (R250). -/
  | pfcPause (sub : Nat) (pause : Bool)
  /-- The lossless priority stays paused for 100 ms and PFC_STUCK is raised (R250). -/
  | pfcStuck (sub : Nat)
  /-- A Congestion Notification Packet halves the QP's rate limit (R251). -/
  | cnpReceive (qpn : Nat)
  /-- Every 50 µs without a CNP the QP rate limit rises by 1/16 of the sub-port rate (R251). -/
  | rateIncrease (qpn : Nat)
  /-- A CM REQ is accepted as a new client command channel or rejected (R253). -/
  | cmReq (sub : Nat) (req : CmRequest) (link : Option Nat)
  /-- A CM RTU completes connection establishment (R252). -/
  | cmRtu (qpn : Nat)
  /-- A CM DREQ disconnects a connection and is answered with DREP (R252). -/
  | cmDreq (qpn : Nat)
  /-- A 64-byte SEND on a channel delivers a command and makes its tag ready (R258). -/
  | roceSend (r : RoceReq) (data : List (BitVec 8))
  /-- An inbound RDMA WRITE is key-checked and its data placed in the region (R268). -/
  | rdmaWrite (r : RoceReq) (key : BitVec 32) (off : Nat) (data : List (BitVec 8))
  /-- A final flagged RDMA WRITE with immediate takes effect after earlier requests, a zero-length one carrying an abort (R261). -/
  | rdmaWriteWithImmediate (r : RoceReq) (key : BitVec 32) (off : Nat) (data : List (BitVec 8)) (imm : BitVec 32)
  /-- An inbound RDMA READ is key-checked and read after earlier requests are placed (R268). -/
  | rdmaRead (r : RoceReq) (key : BitVec 32) (off len : Nat)
  /-- The local ACK timeout expires and the request is retried, up to the retry count (R253). -/
  | ackTimeout (qpn : Nat)
  /-- A QP goes to ERROR; unplaced data is discarded and completions dropped (R269). -/
  | qpError (qpn cause : Nat) (key : BitVec 32)
  /-- A write to NET_PKEY_TBL changes a partition key, sends bound QPs to ERROR, or is refused (R257). -/
  | pkeyTableWrite (idx : Nat) (w : BitVec 32)
  /-- GO registers a landing-zone region and returns its key, or is refused (R265). -/
  | regionRegister
  /-- A write to RMA_DEREG deregisters a region, or is refused (R265). -/
  | regionDeregister (key : BitVec 32)
  /-- Every INTERVAL_S the source cuts the volume and ships the changed chunks as a batch (R271). -/
  | replicationCut (l : Nat) (ship : Bool) (media : List StoredRead)
  /-- The target checks an arriving replication record and rejects the batch on failure (R274). -/
  | replicationRecord (l : Nat) (bytes : List (BitVec 8))
  /-- The final flagged write of a batch arrives and the target applies the batch whole and acknowledges it (R274). -/
  | batchApply (l : Nat) (imm : BitVec 32)
  /-- The source receives a batch acknowledgement and releases the cut (R275). -/
  | batchAck (l batch : Nat)
  /-- A batch not acknowledged within 60 s is shipped again from its cut (R275). -/
  | batchResend (l : Nat) (media : List StoredRead)
  /-- 10 s after its QP went to ERROR the source connects again and resumes (R275). -/
  | replReconnect (l : Nat)
  /-- Setting ENABLE puts a replication link in service (R279). -/
  | replEnable (l : Nat) (w : BitVec 32)
  /-- Clearing ENABLE stops shipping after the batch in flight and releases every cut (R279). -/
  | replDisable (l : Nat) (w : BitVec 32)
  /-- All data of a write has arrived and each sector's PI is checked (R388). -/
  | writeDataArrival (q : QueueId) (item : TagId) (data pi : List (List (BitVec 8)))
  /-- A write is admitted to the log, assigned an LSN and mirrored (R293). -/
  | writeAdmission (q : QueueId) (tag : Nat)
  /-- A held write reserves log space once budget and frames allow (R304). -/
  | heldWriteReserve
  /-- The peer receives a write's mirrored frames, logs them and acknowledges (R295). -/
  | mirror (frames : List Frame)
  /-- The peer's acknowledgement makes a write protected and its completion is posted (R295). -/
  | mirrorAck (lsn : Nat) (q : QueueId) (tag gen : Nat) (ok : Bool)
  /-- The owner receives a forwarded write's frames and assigns its LSN (R296). -/
  | fwdFrames (q : QueueId) (tag : Nat) (frames : List Frame)
  /-- The receiving head learns the forwarded write's LSN and marks its frames logged (R296). -/
  | fwdLsn (q : QueueId) (tag gen lsn : Nat)
  /-- WLG_ASM_DELAY elapses since a chunk's oldest unassembled frame and assembly starts (R306). -/
  | assemblyDelayExpiry (v chunk : Nat) (media : List StoredRead) (copies : List PeerSector)
  /-- A chunk's assembly starts from its logged frames and the map (R306). -/
  | assemblyStart (v chunk : Nat) (media : List StoredRead) (copies : List PeerSector)
  /-- An assembled chunk is handed to the chunker, or to Protect when REDUCE is 0 (R310). -/
  | assemblyComplete (v chunk : Nat)
  /-- The map engine sets a chunk's map entry for a newer version and releases the old reference (R308). -/
  | mapEntrySet (v chunk : Nat)
  /-- A chunk's HMAC fingerprint is computed, or the chunk is mapped ZERO (R315). -/
  | fingerprint (obj : ChunkId) (lane : Nat)
  /-- A fingerprint is looked up in its bucket; a hit raises COUNT (R325). -/
  | seedLookup (v chunk : Nat)
  /-- The candidate chunk is read, decoded and compared with the new chunk (R326). -/
  | verifyOnMatch (v chunk lane : Nat) (media : List StoredRead)
  /-- A missed chunk's record is inserted once it has a location (R325). -/
  | seedInsert (v chunk : Nat)
  /-- A seed space above 75 % occupancy is split bucket by bucket (R324). -/
  | seedSplit (tenant : Nat)
  /-- The writes at or below the cut are committed and the snapshot version is frozen (R335). -/
  | snapshotFreeze (v num : Nat)
  /-- The background release of a deleted snapshot finishes and its number becomes free (R336). -/
  | snapshotDeleted (v num : Nat)
  /-- An encoder lane codes a chunk's slices, storing RAW on overflow (R368). -/
  | kernelEncode (v chunk lane : Nat)
  /-- A verifier lane decodes the container and compares it with the encoder input (R372). -/
  | kernelVerify (v chunk lane : Nat) (fault : Bool)
  /-- A stored container is checked and decoded for a read (R366). -/
  | kernelDecode (obj : ChunkId) (snap lane : Nat) (media : List StoredRead)
  /-- The dictionary coder runs an encode or decode job (R378). -/
  | dictJob (encode cfgSection : Bool) (requester : Nat) (input : List (BitVec 8))
  /-- The Protect stage assigns a serial, writes the CRC and encrypts a container into an open stripe (R400). -/
  | protectChunk (obj : ChunkId) (lane : Nat)
  /-- LOAD installs a plain key into a service slot (R396). -/
  | keyLoad (slot : Nat)
  /-- LOAD_WRAPPED installs a key unwrapped under another slot (R396). -/
  | keyLoadWrapped (slot kek : Nat)
  /-- GENERATE installs a key drawn from the DRBG (R396). -/
  | keyGenerate (slot : Nat)
  /-- ZEROISE clears a service slot (R396). -/
  | keyZeroise (slot : Nat)
  /-- A DRBG health test fails and the DRBG stops issuing (R404). -/
  | drbgFail
  /-- The DRBG retries with a fresh seed after a self-test of the source (R404). -/
  | drbgRetry (ok : Bool)
  /-- The DRBG reseeds after 2^20 requests or 1 s (R404). -/
  | drbgReseed
  /-- A clock period outside ±10 % raises the alarm and clears service jobs (R405). -/
  | clkGlitch
  /-- VDD_CORE leaves its band for 2 ns and raises the alarm (R405). -/
  | voltGlitch
  /-- A share check fails and the lane enters HUSK (R405). -/
  | maskFault (src : Nat)
  /-- A key store parity failure reloads keys from their wrapped copies (R405). -/
  | keyStore (reloadOk : Bool)
  /-- A write of SEC_CS_LOCK takes or releases the cipher service lock (R407). -/
  | csLock (ep : Nat) (w : BitVec 32)
  /-- The cipher service lock is released after 10 s with no job started (R407). -/
  | csLockTimeout
  /-- GO with OP SEAL starts an AES-GCM seal job, or is refused (R409). -/
  | csSeal (token slot srcSpace dstSpace : Nat)
  /-- GO with OP OPEN starts an AES-GCM open job, or is refused (R410). -/
  | csOpen (token slot srcSpace dstSpace : Nat)
  /-- A cipher service job finishes and writes its destination (R410). -/
  | csJobDone
  /-- START begins a host digest job, or is refused (R412). -/
  | digestStart (ep alg space : Nat)
  /-- A digest job ends and its result becomes readable (R413). -/
  | digestDone
  /-- RELEASE returns the digest service to IDLE (R413). -/
  | digestRelease (ep : Nat)
  /-- A result unreleased 10 s after DONE is cleared (R413). -/
  | digestLapse
  /-- SLOT_PG high for 10 ms moves a DML port to DETECT (R423). -/
  | dmlDetect (p : Nat)
  /-- DML training reaches flit lock and the port moves to IDENT (R423). -/
  | dmlTraining (p : Nat) (ev : TrainEvent)
  /-- Training does not finish within 100 ms and the port goes to DOWN (R423). -/
  | dmlTrainTimeout (p : Nat)
  /-- The bridge's IDENT flit is checked and the port goes ACTIVE (R425). -/
  | dmlIdent (p : Nat) (d : DmlIdent)
  /-- 1 s after DOWN a present, powered port returns to DETECT (R423). -/
  | dmlDownRetry (p : Nat)
  /-- A DML flit is received, accepted or discarded, and its ACK and credits used (R429). -/
  | dmlFlitReceive (p : Nat) (rx : DmlRx)
  /-- A retrain does not regain lock within 10 ms; after 3 the port goes DOWN (R423). -/
  | dmlRetrainTimeout (p : Nat)
  /-- A NAK causes replay of every unacknowledged flit (R430). -/
  | dmlNak (p ack : Nat)
  /-- 4 µs without ACK progress causes a replay (R430). -/
  | dmlReplayTimeout (p : Nat)
  /-- A module completion arrives and its command ends (R437). -/
  | dmlCompletion (p : Nat) (x : DmlCpl)
  /-- A telemetry flit arrives and updates temperatures and ledger thermal age (R454). -/
  | telem (p : Nat) (t : TelemRecord)
  /-- Three periods pass without telemetry on an ACTIVE port (R455). -/
  | telemMissing (p : Nat)
  /-- A module event record arrives and is recorded (R456). -/
  | moduleEvent (p : Nat) (e : ModuleEventRec)
  /-- MOD_PRSNT_L low for 10 ms is taken as an insertion (R457). -/
  | moduleInserted (p : Nat)
  /-- MOD_PRSNT_L high for 1 ms is a removal; slot power drops and the port is disabled (R457). -/
  | moduleRemoved (p : Nat)
  /-- A write to MED_TELEM_CTL sends TELEM_CFG to every ACTIVE port, or is refused (R463). -/
  | telemPeriodWrite (w : BitVec 32)
  /-- A codeword is read and decoded through hard and soft retry steps (R475). -/
  | codewordRead (slot die plane block page cw : Nat) (ev : CwEvent)
  /-- A read waiting 100 µs behind a program or erase causes a SUSPEND (R477). -/
  | suspendIssue (slot die : Nat)
  /-- A RESUME is issued once no read waits, or 2 ms after the SUSPEND (R477). -/
  | resumeIssue (slot die : Nat)
  /-- After the new strip is programmed, every entry naming the old address switches and old grains are freed (R506). -/
  | relocationSwitch (old : Nat)
  /-- Garbage collection starts or stops on a die as FREE blocks cross GC_LOW or GC_HIGH (R508). -/
  | gcState (slot die : Nat) (media : List StoredRead)
  /-- The erase spread exceeds WL_SPREAD and a cold block is relocated (R509). -/
  | wlMove (slot die : Nat) (media : List StoredRead)
  /-- A block's urgency crosses a threshold and its refresh class changes (R516). -/
  | refreshClass (slot die plane block : Nat) (media : List StoredRead)
  /-- A waypoint starts after 1 s of changes or on request (R484). -/
  | waypointStart
  /-- The waypoint record is programmed, committing the writes it records (R484). -/
  | waypointComplete
  /-- A low-half write of MMG_LEDGER_SEL latches the ledger entry (R522). -/
  | ledgerSelect (ep : Nat) (w : BitVec 32)
  /-- An open stripe closes when full, on FLUSH, or 500 ms after its first chunk (R29). -/
  | stripeClose (serial : BitVec 64)
  /-- All trailers of a stripe complete OK and the stripe is complete (R530). -/
  | stripeComplete (serial : BitVec 64)
  /-- A module DEGRADED for REJOIN_S becomes FAILED and rebuild is requested (R534). -/
  | rejoinTimeout (n : Nat)
  /-- ECP_CMD JOIN admits a JOINING module as MEMBER (R534). -/
  | join (slot : Nat)
  /-- ECP_CMD FAIL makes a DEGRADED module FAILED (R534). -/
  | fail (slot : Nat)
  /-- ECP_CMD PATROL_NOW starts a patrol pass (R548). -/
  | patrolNow
  /-- RESHAPE_START begins a reshape or is refused (R549). -/
  | reshapeStart
  /-- RESHAPE_CANCEL frees the shadow map and returns draining modules to MEMBER (R553). -/
  | reshapeCancel
  /-- Rebuild is admitted and reconstructs target strips in critical order (R538). -/
  | rebuild
  /-- A rebuilt strip is written and its new location recorded (R538). -/
  | stripeRebuilt (serial : BitVec 64) (pos : Nat) (reads : List (Option StripRead))
  /-- Resynchronisation after an unclean stop starts or ends (R545). -/
  | resync
  /-- A stripe's members are read and its parity recomputed (R546). -/
  | stripeResync (reads : List (Option StripRead))
  /-- Every PATROL_DAYS a patrol pass checks every closed stripe (R548). -/
  | patrol (check : Option (BitVec 64 × List (Option StripRead)))
  /-- A volume's copy completes and its entries switch to the target layout in one cycle (R551). -/
  | reshape (media : List StoredRead)
  /-- A draining module holds no live strip and becomes DRAINED (R552). -/
  | moduleDrained (n : Nat)
  /-- A maintenance activity is admitted, waits or pauses per the matrix (R556). -/
  | maintAdmit
  /-- XHL training completes and the link is ACTIVE (R563). -/
  | xhlLinkUp (lanes : List (Nat × Bool))
  /-- An XHL flit is received, accepted or discarded (R565). -/
  | xhlFlitReceive (rx : XhlRx)
  /-- An XHL NAK causes replay (R565). -/
  | xhlNak (ack : Nat)
  /-- 3 µs without ACK progress causes replay (R565). -/
  | xhlReplayTimeout
  /-- Three failed retrains take XHL DOWN (R565). -/
  | xhlLinkDown
  /-- Every 50 µs the head sends a HEARTBEAT (R568). -/
  | heartbeatSend
  /-- A HEARTBEAT arrives and updates the peer's standing and applied messages (R576). -/
  | heartbeat (b : Beat)
  /-- The peer's IDENT arrives and the straps are checked (R568). -/
  | ident (head : Bool) (serial : BitVec 64) (fw : BitVec 32) (sameOwner : Bool)
  /-- A LAST_GASP makes the peer LOST (R577). -/
  | lastGasp
  /-- The peer's flush commitment and progress arrive (R81). -/
  | flushMessage (committed : Bool) (commitLsn : Nat)
  /-- A MAP_DELTA is applied in DSEQ order (R575). -/
  | mapDelta (dseq time : Nat) (recs : List DeltaRec)
  /-- A DSEQ gap open for 10 ms sends XHL to RETRAIN (R575). -/
  | deltaGap
  /-- A HANDOVER message transfers a set of volumes to the receiver (R571). -/
  | handover (vols : List Nat) (lsnHigh : Nat)
  /-- The peer hands back the volumes whose home is the sender (R733). -/
  | rebalanceReq
  /-- A forwarded command is executed by the owner (R236). -/
  | fwdCmd (q : QueueId) (tag gen : Nat) (words : List (BitVec 32)) (tenant : Option Nat) (abort : Bool) (media : List StoredRead)
  /-- Sectors of a forwarded read arrive (R568). -/
  | fwdData (q : QueueId) (tag gen kind idx : Nat) (data : List (BitVec 8))
  /-- The owner's completion arrives and is posted with FORWARDED (R236). -/
  | fwdCpl (q : QueueId) (tag gen status : Nat) (r0 : BitVec 32) (r1 : BitVec 64)
  /-- A bulk map or log transfer arrives and is applied (R587). -/
  | bulk (m : BulkMsg)
  /-- A NOP message serves as a fence (R568). -/
  | nop (tc : Nat)
  /-- The PAIR_KEY exchange transfers the array key (R591). -/
  | pairKey (m : PairMsg)
  /-- 2 ms without a valid HEARTBEAT makes the peer SUSPECT (R577). -/
  | peerSuspect
  /-- HB_LOSS_MS without a HEARTBEAT makes the peer LOST and starts a takeover (R578). -/
  | peerLost
  /-- The takeover starts and fencing begins (R584). -/
  | takeover
  /-- 150 ms after a fencing round its outcome is decided (R582). -/
  | fenceResult
  /-- Without quorum the head fences again every 1 s (R582). -/
  | fenceRetry
  /-- A starting head fenced out retries every 10 s (R583). -/
  | startFenceRetry
  /-- The takeover completes and OWN_ALL becomes 1 (R584). -/
  | takeoverEnd (trailers : List TrailerEntry)
  /-- ENTER_MAINT hands every volume to the peer (R589). -/
  | enterMaint (peer : Nat)
  /-- EXIT_MAINT returns the head to READY and rebalances (R589). -/
  | exitMaint
  /-- REBALANCE restores home ownership in both directions (R733). -/
  | rebalance (peerBusy : Bool)
  /-- GIVE hands the peer the owned volumes of XHL_VOL_RANGE (R733). -/
  | give (peerBusy : Bool)
  /-- UNPIN_PEER deletes the peer's pin record (R591). -/
  | unpinPeer (confirm : Nat)
  /-- A corrected DRAM error is counted and written back (R601). -/
  | dramCe (c : Nat) (read : DramBurst) (written : Bool)
  /-- An uncorrectable DRAM read completes with error (R602). -/
  | dramUe (c : Nat) (read : DramBurst)
  /-- The patrol scrub reads each line once in 24 h (R601). -/
  | patrolScrub (c : Nat) (burst : List (List (BitVec 16))) (written : Bool)
  /-- A CA parity alert causes replay and retraining (R603). -/
  | caParityAlert (c : Nat) (again : Bool)
  /-- A same-bank refresh is due every tREFI (R608). -/
  | dramRefresh (c bank : Nat) (postpone : Bool)
  /-- A bank's activate count reaches RAAIMT and RFMsb is issued (R609). -/
  | rfm (c bank left : Nat)
  /-- A row reaches RH_THRESHOLD and the requester is throttled (R610). -/
  | rhThrottle (pa src : Nat) (keepOpen : Bool) (more : List DramAsk)
  /-- The 32 ms window ends and throttles are lifted (R610). -/
  | rhWindowEnd (c bank : Nat)
  /-- An open row closes after OPEN_MAX (R606). -/
  | rowClose (c bank : Nat)
  /-- Every 10 ms DIMM sensors are read and bands updated (R611). -/
  | dimmTempRead (c : Nat) (t : Int)
  /-- A band change switches or retrains the channel's delay set (R612). -/
  | dramRetrain (c : Nat) (lanes : List (BitVec 32))
  /-- Every 100 ms the DQS oscillator is read and drift adjusted (R612). -/
  | dqsDriftCheck (c drift : Nat) (lanes : List (BitVec 32))
  /-- A write of DRC_DLY_SEL latches the delay entry (R617). -/
  | delaySelect (w : BitVec 32)
  /-- A loop computes one PID sample (R622). -/
  | loopSample (n : Nat) (meas : Option Int) (more : List LoopDue)
  /-- A loop sample is missed (R625). -/
  | missedSample (n : Nat)
  /-- SAT_TIME reaches SAT_LIMIT and the saturation action is taken (R626). -/
  | loopSaturated (n : Nat)
  /-- COMMIT applies a loop's staged words at its next sample, or is refused (R627). -/
  | loopCommit (n : Nat) (host : Bool) (fw : Option (List (Option (BitVec 32))))
  /-- The AVS margin below 0 ps for 1 ms causes FAILSTOP (R629). -/
  | avsMarginFail
  /-- Every 10 s the charger output steps down 2 % for 1 ms (R630). -/
  | chargeStep
  /-- Each 1 s window yields a fan speed (R633). -/
  | fanTachWindow (f pulses : Nat)
  /-- A fan below FAN_MIN_RPM for 3 s is faulty (R633). -/
  | fanFault (f : Nat)
  /-- The junction reaches 115 °C and every fan runs full (R634). -/
  | dieHot
  /-- The junction at 125 °C for 10 ms causes FAILSTOP (R634). -/
  | dieOvertemp
  /-- The slot master turns a switch on (R637). -/
  | slotPowerOn (n : Nat)
  /-- The other head raises SLOT_EN after SLOT_PG is high for 10 ms (R636). -/
  | slotEnFollow (n : Nat)
  /-- SLOT_PG fails to rise or falls and the switch is turned off (R639). -/
  | slotPowerFail (n : Nat)
  /-- 10 s after a failure the switch is tried again (R639). -/
  | slotPowerRetry (n : Nat)
  /-- A write of CLE_SLOT_OFF requests slots off, or is refused (R638). -/
  | slotOffWrite (ep : Nat) (w : BitVec 32)
  /-- The master drops SLOT_EN after the other head reports, or after 10 ms (R638). -/
  | slotPowerOff (n : Nat)
  /-- An element reports an error and the fault domain contains it (R645). -/
  | errorReport (src : Nat) (e : ErrorReport)
  /-- A region-table violation freezes the master (R648). -/
  | husk (src addr len : Nat) (write : Bool) (entry : Nat)
  /-- A waiting self-test starts when limits allow (R650). -/
  | selfTestStart
  /-- A self-test ends and the error is classed (R651). -/
  | selfTest (src : Nat) (pass : Bool) (rows ms : Nat)
  /-- A FATAL error stops the head (R656). -/
  | failstop (cause src : Nat)
  /-- BLOCK_TEST requests the self-test of an element (R657). -/
  | blockTest (src : Nat)
  /-- WHOLE_CHIP starts the destructive whole-chip test (R658). -/
  | wholeChip
  /-- The whole-chip test ends and the head rejoins fenced (R658). -/
  | wholeChipTestEnd (fails : List (Nat × Nat)) (map : MapSource)
  /-- The fault domain applies a region-table entry change (R647). -/
  | regionTableChange (e : RegionEntry)
  /-- A write of FLT_HUSK_SEL latches element info (R664). -/
  | huskSelect (w : BitVec 32)
  /-- A write of FLT_REGION_SEL latches a region entry (R664). -/
  | regionSelect (w : BitVec 32)
  /-- An open record closes after 1 s or when displaced (R670). -/
  | recordClose (seq : BitVec 32)
  /-- A closed record's NOR program completes (R673). -/
  | norEntryProgram
  /-- Every 5 years one birth copy is rewritten (R675). -/
  | birthRefresh
  /-- A write of ALM_SEL selects a region and latches a record (R680). -/
  | almSelect (w : BitVec 32)
  /-- A write of ALM_CURSOR latches a record (R680). -/
  | almCursorWrite (w : BitVec 32)
  /-- A read of window word 7 advances the cursor (R681). -/
  | almWindowAdvance
  /-- ALM_CLEAR GO clears the wake region and island (R682). -/
  | almanacClear (w : BitVec 32)
  /-- The erase of the ring sectors completes (R683). -/
  | clearEraseDone
  /-- UPD_CMD OPEN reserves the staging buffer (R694). -/
  | updOpen
  /-- A write of UPD_DATA places a staging word (R694). -/
  | updDataWrite (idx : Nat) (w : BitVec 32)
  /-- 600 s without a UPD write releases the buffer (R694). -/
  | stagingTimeout
  /-- STAGE_FW checks the image and writes a firmware slot (R695). -/
  | stageFw (slot : Nat)
  /-- STAGE_CFG checks the image and writes a configuration copy (R695). -/
  | stageCfg
  /-- Staging ends and is recorded (R695). -/
  | staged (done : Bool) (start : StartIn)
  /-- ACTIVATE puts the staged firmware on probation (R699). -/
  | updActivate (confirm : Nat)
  /-- RESTART asks for the UPDATE activity (R699). -/
  | updRestart (confirm : Nat)
  /-- ABORT releases the staging buffer (R694). -/
  | updAbort
  /-- RUN starts firmware from the staging buffer (R697). -/
  | updRun (start : StartIn)
  /-- The arbiter admits UPDATE and an update reset starts the head (R699). -/
  | updateReset (start : StartIn)
  /-- Probation passes and the image is confirmed (R700). -/
  | fwConfirmed
  /-- A failed probation falls back to the other slot (R701). -/
  | fwFallback (start : StartIn)
  /-- An Ethernet sub-port NETp.s comes up or goes down, changing LINK_UP and writing record 0x0601 (R280). -/
  | portLink (sub : Nat) (lanes : BitVec 4)
  /-- The source head, as CM requester of a replication link, receives the target's REP carrying the key and length of the target's replication region (R270). -/
  | cmRep (l : Nat) (key : BitVec 32) (len : Nat)
  /-- A DML port in RETRAIN regains lock within 10 ms and returns to ACTIVE with its sequence state and credits kept and no IDENT exchange (R423). -/
  | dmlRetrainComplete (trained : PortLanes)
  /-- The endpoint leaves D3hot for D0 with Bus Master Enable 1, and held queue work resumes and pending interrupts are delivered (R200). -/
  | d0Entry (ep : Nat)
  /-- The hottest junction sensor falls to 110 °C and DIE_HOT clears (R634). -/
  | dieHotCleared
  /-- The head with HEAD_SEL = 1 ends its SPLIT_DELAY_MS wait and sends PORT_FENCE to every ACTIVE module (R580). -/
  | splitDelayExpiry
  /-- The head with HEAD_SEL = 0 finds every VAULT condition holding and proposes VAULT entry to the peer (R93). -/
  | vaultProposal
  deriving DecidableEq, Repr

end Sys2Proof
end

