-- ==== Sys2Proof/Decode.lean ====
section
/-!
DEFINITION. The table's words. spec/opcode_table.json gives no row of this block any bits: its commands are events and register
accesses, not words, so no word of any length spells a command.
-/
namespace Sys2Proof

/-- The command that a word of the table's bits spells: none, for no row gives bits. -/
def decodeTableWord (_nbits _w : Nat) : Option Instr := none

end Sys2Proof
end

