-- ==== Sys2Proof/Word.lean ====
section
/-!
DEFINITION. Bytes and the plainest readings of words: a field of a word, a flag as a number, and little-endian bytes (R9).
-/
namespace Sys2Proof

/-- One byte. -/
abbrev Byte := BitVec 8

/-- One register word (R10). -/
abbrev Word := BitVec 32

/-- A flag as a number. -/
def b2n (b : Bool) : Nat := if b then 1 else 0

/-- A number as a register word. -/
def w32 (n : Nat) : BitVec 32 := BitVec.ofNat 32 n

/-- Bits [lo + n - 1 : lo] of a word, as a number. -/
def fld (w : BitVec 32) (lo n : Nat) : Nat := (w.toNat / 2 ^ lo) % 2 ^ n

/-- Bit `i` of a word. -/
def bitOf (w : BitVec 32) (i : Nat) : Bool := w.getLsbD i

/-- `n` bytes of a number, least significant first (R9). -/
def leBytes : Nat → Nat → List (BitVec 8)
  | 0, _ => []
  | n + 1, v => BitVec.ofNat 8 v :: leBytes n (v / 256)

/-- The number that bytes give, least significant first (R9). -/
def leNat : List (BitVec 8) → Nat
  | [] => 0
  | b :: t => b.toNat + 256 * leNat t

/-- `len` bytes from offset `off`. -/
def slice (bs : List (BitVec 8)) (off len : Nat) : List (BitVec 8) := (bs.drop off).take len

/-- The little-endian number of `len` bytes at offset `off`. -/
def leAt (bs : List (BitVec 8)) (off len : Nat) : Nat := leNat (slice bs off len)

/-- Bits [31:0] of a 64-bit value. -/
def lo32 (v : BitVec 64) : BitVec 32 := v.setWidth 32

/-- Bits [63:32] of a 64-bit value. -/
def hi32 (v : BitVec 64) : BitVec 32 := (v >>> 32).setWidth 32

/-- A 64-bit value from its halves (R12). -/
def join64 (hi lo : BitVec 32) : BitVec 64 := hi ++ lo

/-- A signed number as 64-bit two's complement. -/
def i64 (v : Int) : BitVec 64 := BitVec.ofInt 64 v

/-- `a + b`, no more than `m`. -/
def satAdd (m a b : Nat) : Nat := min m (a + b)

end Sys2Proof
end

