-- ==== Sys2Proof/Machine/Codec.lean ====
section
/-!
DEFINITION. The formats and codes that the spec defines to the bit: checksums, the range coder and the Kernel coder, the
dictionary coder, the LDPC code with its scrambling, and the parity of a stripe.
-/
namespace Sys2Proof.Machine

/-! ## Checksums (R383, R384) -/

/-- One shift of a reflected CRC register. -/
def crcShift (poly c : Nat) : Nat := if c % 2 = 1 then (c / 2) ^^^ poly else c / 2

/-- One byte through a reflected CRC register. -/
def crcByte (poly : Nat) (c : Nat) (b : BitVec 8) : Nat :=
  (List.range 8).foldl (fun c _ => crcShift poly c) (c ^^^ b.toNat)

/-- CRC-64 of R383: the NVMe polynomial 0xAD93_D235_94C9_3659, reflected. -/
def crc64 (bs : List (BitVec 8)) : BitVec 64 :=
  BitVec.ofNat 64 (bs.foldl (crcByte 0x9A6C9329AC4BC9B5) 0xFFFFFFFFFFFFFFFF ^^^ 0xFFFFFFFFFFFFFFFF)

/-- CRC-32C of R384: the Castagnoli polynomial 0x1EDC_6F41, reflected. -/
def crc32c (bs : List (BitVec 8)) : BitVec 32 :=
  BitVec.ofNat 32 (bs.foldl (crcByte 0x82F63B78) 0xFFFFFFFF ^^^ 0xFFFFFFFF)

/-- `n` bytes of a number, most significant first (R385). -/
def beBytes (n v : Nat) : List (BitVec 8) := (leBytes n v).reverse

/-- The 16 bytes of a sector's PI (R385). -/
def buildPi (guard : BitVec 64) (tenant lba : Nat) : List (BitVec 8) :=
  beBytes 8 guard.toNat ++ beBytes 2 (tenant % 2 ^ 15) ++ beBytes 6 (lba % 2 ^ 48)

/-- A sector of zeros. -/
def zeroSector : List (BitVec 8) := List.replicate 4096 0

/-! ## The range coder (R363 to R365) -/

/-- Probabilities of one slice: U[q][j] at 16 q + j, M[n] at 128 + n, each 2 048 at the start (R363). -/
def freshContexts : List Nat := List.replicate 144 2048

/-- Index of U[q][j]. -/
def ctxU (q j : Nat) : Nat := 16 * q + j

/-- Index of M[n]. -/
def ctxM (n : Nat) : Nat := 128 + n

/-- The decoder's registers and the bytes still to be read; past the end it reads 0x00 (R364). -/
structure RcDec where
  rng : Nat
  code : Nat
  rest : List (BitVec 8)
  p : List Nat

/-- Take the next byte. -/
def rcByte (d : RcDec) : Nat × List (BitVec 8) :=
  match d.rest with
  | [] => (0, [])
  | b :: t => (b.toNat, t)

/-- rc_init (R364). -/
def rcInit (bs : List (BitVec 8)) : RcDec :=
  let b (i : Nat) := (bs.getD i 0).toNat
  { rng := 0xFFFFFFFF, code := b 0 * 2 ^ 24 + b 1 * 2 ^ 16 + b 2 * 2 ^ 8 + b 3, rest := bs.drop 4, p := freshContexts }

/-- rc_norm; four shifts at most bring any range back (R364). -/
def rcNorm : Nat → RcDec → RcDec
  | 0, d => d
  | n + 1, d =>
    if d.rng < 0x1000000 then
      let (b, t) := rcByte d
      rcNorm n { d with rng := (d.rng * 256) % 2 ^ 32, code := (d.code * 256 + b) % 2 ^ 32, rest := t }
    else d

/-- A probability after a decision (R364). -/
def rcAdapt (p : Nat) (bit : Bool) : Nat := if bit then p - p / 32 else p + (4096 - p) / 32

/-- rc_bit on context `i` (R364). -/
def rcBit (i : Nat) (d : RcDec) : Bool × RcDec :=
  let p := d.p.getD i 2048
  let bound := d.rng / 4096 * p
  let bit := !decide (d.code < bound)
  let d' := { d with p := d.p.set i (rcAdapt p bit) }
  (bit, rcNorm 4 (if bit then { d' with code := d.code - bound, rng := d.rng - bound } else { d' with rng := bound }))

/-- rc_bypass (R364). -/
def rcBypass (d : RcDec) : Bool × RcDec :=
  let bound := d.rng / 4096 * 2048
  let bit := !decide (d.code < bound)
  (bit, rcNorm 4 (if bit then { d with code := d.code - bound, rng := d.rng - bound } else { d with rng := bound }))

/-- The encoder's registers, the bytes emitted (newest first) and the probabilities (R365). -/
structure RcEnc where
  low : Nat
  rng : Nat
  cache : Nat
  pending : Nat
  started : Bool
  out : List (BitVec 8)
  p : List Nat

/-- re_init (R365). -/
def reInit : RcEnc :=
  { low := 0, rng := 0xFFFFFFFF, cache := 0, pending := 0, started := false, out := [], p := freshContexts }

/-- shift_low (R365). -/
def shiftLow (e : RcEnc) : RcEnc :=
  let e :=
    if e.low < 0xFF000000 ∨ 0x100000000 ≤ e.low then
      let carry := e.low / 2 ^ 32
      let o := if e.started then BitVec.ofNat 8 (e.cache + carry) :: e.out else e.out
      { e with out := List.replicate e.pending (BitVec.ofNat 8 (0xFF + carry)) ++ o, started := true, pending := 0,
               cache := e.low / 2 ^ 24 % 256 }
    else { e with pending := e.pending + 1 }
  { e with low := e.low * 256 % 2 ^ 32 }

/-- The normalisation of re_bit (R365). -/
def reNorm : Nat → RcEnc → RcEnc
  | 0, e => e
  | n + 1, e => if e.rng < 0x1000000 then reNorm n (shiftLow { e with rng := e.rng * 256 % 2 ^ 32 }) else e

/-- re_bit on context `i` (R365). -/
def reBit (i : Nat) (bit : Bool) (e : RcEnc) : RcEnc :=
  let p := e.p.getD i 2048
  let bound := e.rng / 4096 * p
  let e' := { e with p := e.p.set i (rcAdapt p bit) }
  reNorm 4 (if bit then { e' with low := e.low + bound, rng := e.rng - bound } else { e' with rng := bound })

/-- re_bypass (R365). -/
def reBypass (bit : Bool) (e : RcEnc) : RcEnc :=
  let bound := e.rng / 4096 * 2048
  reNorm 4 (if bit then { e with low := e.low + bound, rng := e.rng - bound } else { e with rng := bound })

/-- re_flush (R365). -/
def reFlush (e : RcEnc) : RcEnc := shiftLow (shiftLow (shiftLow (shiftLow (shiftLow e))))

/-! ## Samples, predictors and residues (R358 to R363) -/

/-- The coding parameters of a chunk: SAMPLE_BITS, LANES, STRIDE, PHASE (R358). -/
structure Raster where
  bits : Nat
  lanes : Nat
  stride : Nat
  phase : Nat

/-- The parameters while no geometry is in force (R358). -/
def Raster.plain : Raster := { bits := 8, lanes := 1, stride := 32768, phase := 0 }

/-- PHASE of a chunk under a geometry whose row 0 starts at a sector (R358). -/
def rasterPhase (stride row0 chunk : Nat) : Nat :=
  ((4096 * (8 * (chunk : Int) - (row0 : Int))) % (stride : Int)).toNat

/-- The quantities of R359. -/
def Raster.s (r : Raster) : Nat := r.bits / 8
def Raster.samples (r : Raster) : Nat := 32768 / r.s
def Raster.perSlice (r : Raster) : Nat := 4096 / r.s
def Raster.row (r : Raster) : Nat := r.stride / r.s
def Raster.pixel (r : Raster) : Nat := r.s * r.lanes
def Raster.maxv (r : Raster) : Nat := 2 ^ r.bits - 1
def Raster.mid (r : Raster) : Nat := 2 ^ (r.bits - 1)

/-- Row column of sample `i` (R359). -/
def Raster.col (r : Raster) (i : Nat) : Nat := (r.phase + r.s * i) % r.stride

/-- Sample lane of sample `i` (R359). -/
def Raster.lane (r : Raster) (i : Nat) : Nat := r.col i / r.s % r.lanes

/-- predict(i, pr) over the samples `x` reconstructed so far (R360). -/
def predict (r : Raster) (x : Array Nat) (i pr : Nat) : Nat :=
  let col := r.col i
  let ln := col / r.s % r.lanes
  let w := r.row
  let hasA := decide (r.pixel ≤ col) && decide (r.lanes ≤ i)
  let hasB := decide (w ≤ i)
  let hasC := decide (r.pixel ≤ col) && decide (w + r.lanes ≤ i)
  let a0 := if hasA then x.getD (i - r.lanes) 0 else r.mid
  let b0 := if hasB then x.getD (i - w) 0 else r.mid
  let c0 := if hasC then x.getD (i - w - r.lanes) 0 else r.mid
  let a := if hasB && !hasA then b0 else a0
  let b := if hasA && !hasB then a0 else b0
  let c := if hasA && !hasB then a0 else if hasB && !hasA then b0 else if hasA && hasB && !hasC then b0 else c0
  match pr with
  | 0 => 0
  | 1 => a
  | 2 => b
  | 3 => if max a b ≤ c then min a b else if c ≤ min a b then max a b else a + b - c
  | _ =>
    if decide (0 < ln) && hasA && decide (r.lanes + 1 ≤ i) then
      (min (r.maxv : Int) (max 0 ((a : Int) + (x.getD (i - 1) 0 : Nat) - (x.getD (i - 1 - r.lanes) 0 : Nat)))).toNat
    else a

/-- The mapped residue u of a sample under its prediction (R361). -/
def mapResidue (r : Raster) (x pred : Nat) : Nat :=
  let d := (x + 2 ^ r.bits - pred) % 2 ^ r.bits
  if d < r.mid then 2 * d else 2 * (2 ^ r.bits - d) - 1

/-- The sample that a mapped residue gives (R361, R366). -/
def unmapResidue (r : Raster) (u pred : Nat) : Nat :=
  if u % 2 = 0 then (pred + u / 2 + 2 ^ r.bits) % 2 ^ r.bits
  else (pred + 2 ^ r.bits - (u + 1) / 2) % 2 ^ r.bits

/-- The class of a mapped value: bitlen(u + 1) - 1 (R362). -/
def classOf (u : Nat) : Nat := Nat.log2 (u + 1)

/-- The class histories h1 and h2 of the lanes at a slice start (R363). -/
def freshHist : List (Nat × Nat) := List.replicate 16 (0, 0)

/-- The class context of lane `l` (R363). -/
def classCtx (h : List (Nat × Nat)) (l : Nat) : Nat :=
  let (h1, h2) := h.getD l (0, 0)
  min 7 ((h1 + h2 + 1) / 2)

/-- The histories after a residue of class `n` in lane `l` (R363). -/
def pushHist (h : List (Nat × Nat)) (l n : Nat) : List (Nat × Nat) := h.set l (n, (h.getD l (0, 0)).1)

/-! ## Decoding a Kernel chunk (R366) -/

/-- The class in unary, from decision `j` with `left` decisions left (R362, R366). -/
def decodeClass (q : Nat) : Nat → Nat → RcDec → Nat × RcDec
  | 0, j, d => (j, d)
  | left + 1, j, d =>
    match rcBit (ctxU q j) d with
    | (true, d) => decodeClass q left (j + 1) d
    | (false, d) => (j, d)

/-- `k` further mantissa bits, most significant first. -/
def decodeBits : Nat → Nat → RcDec → Nat × RcDec
  | 0, v, d => (v, d)
  | k + 1, v, d =>
    match rcBypass d with
    | (b, d) => decodeBits k (2 * v + b2n b) d

/-- decode_residue(l) (R366). -/
def decodeResidue (r : Raster) (l : Nat) (h : List (Nat × Nat)) (d : RcDec) : Nat × List (Nat × Nat) × RcDec :=
  let (n, d) := decodeClass (classCtx h l) r.bits 0 d
  let (u, d) :=
    if n = 0 then (0, d)
    else if n = r.bits then (r.maxv, d)
    else
      match rcBit (ctxM n) d with
      | (b, d) =>
        match decodeBits (n - 1) (2 + b2n b) d with
        | (v, d) => (v - 1, d)
  (u, pushHist h l n, d)

/-- The residues of slice `t` from its coded bytes (R366). -/
def decodeSlice (r : Raster) (t : Nat) (bs : List (BitVec 8)) : Array Nat :=
  ((List.range r.perSlice).foldl
    (fun (acc : Array Nat × List (Nat × Nat) × RcDec) k =>
      let (u, h, d) := decodeResidue r (r.lane (t * r.perSlice + k)) acc.2.1 acc.2.2
      (acc.1.push u, h, d))
    (#[], freshHist, rcInit bs)).1

/-- The first samples of a chunk, up to the end of slice `upTo - 1`, from the slices' predictors and bytes (R366,
R367). -/
def reconstructSamples (r : Raster) (slices : List (Nat × List (BitVec 8))) (upTo : Nat) : Array Nat :=
  (List.range upTo).foldl (fun x t =>
    let (pr, bs) := slices.getD t (0, [])
    if pr = 7 then
      (List.range r.perSlice).foldl (fun x k => x.push (leAt bs (r.s * k) r.s)) x
    else
      let us := decodeSlice r t bs
      (List.range r.perSlice).foldl
        (fun x k => x.push (unmapResidue r (us.getD k 0) (predict r x (t * r.perSlice + k) pr))) x) #[]

/-- Samples as bytes, least significant first (R366). -/
def sampleBytes (r : Raster) (x : Array Nat) : List (BitVec 8) := x.toList.flatMap (leBytes r.s)

/-! ## The encoder (R368 to R370) -/

/-- The samples of a chunk's bytes (R359). -/
def chunkSamples (r : Raster) (data : List (BitVec 8)) : Array Nat :=
  let bytes := data.toArray
  ((List.range r.samples).map fun i =>
    (List.range r.s).foldr (fun j v => (bytes.getD (r.s * i + j) 0).toNat + 256 * v) 0).toArray

/-- One residue of class `n` coded in lane `l` (R362, R363). -/
def encodeResidue (r : Raster) (l u : Nat) (h : List (Nat × Nat)) (e : RcEnc) : List (Nat × Nat) × RcEnc :=
  let n := classOf u
  let q := classCtx h l
  let e := (List.range n).foldl (fun e j => reBit (ctxU q j) true e) e
  let e := if n < r.bits then reBit (ctxU q n) false e else e
  let e :=
    if 1 ≤ n ∧ n < r.bits then
      let v := u + 1
      let e := reBit (ctxM n) (v.testBit (n - 1)) e
      (List.range (n - 1)).foldl (fun e k => reBypass (v.testBit (n - 2 - k)) e) e
    else e
  (pushHist h l n, e)

/-- The sum of the classes of a slice under a predictor (R368). -/
def bearing (r : Raster) (x : Array Nat) (t pr : Nat) : Nat :=
  (List.range r.perSlice).foldl (fun n k =>
    let i := t * r.perSlice + k
    n + classOf (mapResidue r (x.getD i 0) (predict r x i pr))) 0

/-- The bearing estimator's choice: the smallest sum, on a tie the lower number (R368). -/
def choosePredictor (r : Raster) (x : Array Nat) (t : Nat) : Nat :=
  ((List.range 4).foldl (fun (best : Nat × Nat) k =>
    let c := bearing r x t (k + 1)
    if c < best.2 then (k + 1, c) else best) (0, bearing r x t 0)).1

/-- The coded stream of a slice, with its trailing zeros still there (R365, R370). -/
def codeSlice (r : Raster) (x : Array Nat) (t pr : Nat) : List (BitVec 8) :=
  let (_, e) := (List.range r.perSlice).foldl
    (fun (acc : List (Nat × Nat) × RcEnc) k =>
      let i := t * r.perSlice + k
      encodeResidue r (r.lane i) (mapResidue r (x.getD i 0) (predict r x i pr)) acc.1 acc.2)
    (freshHist, reInit)
  (reFlush e).out.reverse

/-- A list without its trailing zero bytes. -/
def dropTrailingZeros (bs : List (BitVec 8)) : List (BitVec 8) := (bs.reverse.dropWhile (· = 0)).reverse

/-- The slices of a chunk as (PRED, bytes), or none when the emitter refuses a byte (R368 to R370). -/
def encodeSlices (r : Raster) (fixed : Option Nat) (data : List (BitVec 8)) : Option (List (Nat × List (BitVec 8))) :=
  let x := chunkSamples r data
  ((List.range 8).foldl
    (fun (acc : Option (List (Nat × List (BitVec 8)) × Nat)) t =>
      match acc with
      | none => none
      | some (ss, count) =>
        let pr := fixed.getD (choosePredictor r x t)
        let raw := codeSlice r x t pr
        let bs := dropTrailingZeros raw
        let stored := decide (4095 < bs.length)
        let emitted := if stored then 4096 else raw.length
        if 32636 < count + emitted then none
        else some (ss ++ [if stored then (7, slice data (4096 * t) 4096) else (pr, bs)], count + emitted))
    (some ([], 0))).map (·.1)

/-! ## The chunk container (R351 to R355) -/

/-- The fields of a chunk header (R352) with the payload's slices; a RAW container has none. -/
structure Container where
  serial : BitVec 64
  kernel : Bool
  tenant : Nat
  volume : Nat
  lostMask : BitVec 8
  raster : Raster
  chunk : Nat
  lsn : Nat
  guards : List (BitVec 64)
  slices : List (Nat × List (BitVec 8))
  raw : List (BitVec 8)

/-- Payload of a container (R353). -/
def Container.payload (c : Container) : List (BitVec 8) :=
  if c.kernel then c.slices.flatMap (·.2) else c.raw

/-- G, the length of a container in grains (R351). -/
def grainsFor (payloadLen : Nat) : Nat := (128 + payloadLen + 4 + 255) / 256

/-- A container's header (R352). -/
def Container.header (c : Container) : List (BitVec 8) :=
  let k (n : Nat) := if c.kernel then n else 0
  leBytes 8 c.serial.toNat ++ leBytes 2 0x4B43 ++ leBytes 1 1 ++ leBytes 1 (b2n c.kernel) ++
  leBytes 4 c.payload.length ++ leBytes 2 (c.tenant % 2 ^ 15) ++ leBytes 2 c.volume ++ leBytes 1 c.lostMask.toNat ++
  leBytes 1 (k c.raster.bits) ++ leBytes 1 (k c.raster.lanes) ++ leBytes 1 0 ++ leBytes 4 (k c.raster.stride) ++
  leBytes 4 (k c.raster.phase) ++ leBytes 8 c.chunk ++ leBytes 8 c.lsn ++
  ((List.range 8).flatMap fun i => leBytes 8 (c.guards.getD i 0).toNat) ++
  ((List.range 8).flatMap fun t =>
    let sl := c.slices.getD t (0, [])
    leBytes 2 (k (sl.2.length + 8192 * sl.1)))

/-- A container's bytes but for the CRC: header, payload, padding (R351). -/
def Container.body (c : Container) : List (BitVec 8) :=
  let n := 256 * grainsFor c.payload.length
  let bs := c.header ++ c.payload
  bs ++ List.replicate (n - 4 - bs.length) 0

/-- The bytes of a container with its CRC-32C (R351, R354). -/
def Container.bytes (c : Container) : List (BitVec 8) := c.body ++ leBytes 4 (crc32c c.body).toNat

/-- The bytes that Reduce delivers: SERIAL and CRC at 0 (R354). -/
def Container.delivered (c : Container) : List (BitVec 8) := { c with serial := 0 }.body ++ leBytes 4 0

/-- The slices that a header's SLICE entries cut out of a payload (R352, R353). -/
def cutSlices (bs : List (BitVec 8)) : List (Nat × List (BitVec 8)) :=
  ((List.range 8).foldl (fun (acc : List (Nat × List (BitVec 8)) × Nat) t =>
    let w := leAt bs (112 + 2 * t) 2
    let len := w % 8192
    (acc.1 ++ [(w / 8192, slice bs (128 + acc.2) len)], acc.2 + len)) ([], 0)).1

/-- Read a container's header and payload; any field values are taken as they stand (R352). -/
def parseContainer (bs : List (BitVec 8)) : Container :=
  let kernel := decide (leAt bs 11 1 = 1)
  { serial := BitVec.ofNat 64 (leAt bs 0 8), kernel := kernel, tenant := leAt bs 16 2, volume := leAt bs 18 2,
    lostMask := BitVec.ofNat 8 (leAt bs 20 1),
    raster := { bits := leAt bs 21 1, lanes := leAt bs 22 1, stride := leAt bs 24 4, phase := leAt bs 28 4 },
    chunk := leAt bs 32 8, lsn := leAt bs 40 8,
    guards := (List.range 8).map fun i => BitVec.ofNat 64 (leAt bs (48 + 8 * i) 8),
    slices := if kernel then cutSlices bs else [],
    raw := if kernel then [] else slice bs 128 32768 }

/-- SAMPLE_BITS, LANES, STRIDE and PHASE are as R352 asks. -/
def rasterOk (r : Raster) : Bool :=
  (decide (r.bits = 8) || decide (r.bits = 16)) && decide (1 ≤ r.lanes) && decide (r.lanes ≤ 16) &&
  decide (1 ≤ r.stride) && decide (r.stride ≤ 1048576) && decide (r.stride % (r.bits / 8 * r.lanes) = 0) &&
  decide (r.phase < r.stride) && decide (r.phase % (r.bits / 8) = 0)

/-- The data bytes that a container's first slices, up to slice `upTo - 1`, hold (R353, R366, R367). -/
def containerData (c : Container) (upTo : Nat) : List (BitVec 8) :=
  if c.kernel then sampleBytes c.raster (reconstructSamples c.raster c.slices upTo)
  else c.raw.take (4096 * upTo)

/-- Check 7 of R355 over the sectors of `data`. -/
def guardsOk (c : Container) (data : List (BitVec 8)) (upTo : Nat) : Bool :=
  (List.range upTo).all fun t =>
    bitOf (c.lostMask.setWidth 32) t || decide (crc64 (slice data (4096 * t) 4096) = c.guards.getD t 0)

/-- The first check of R355 that the first six fail at; 0 when none does. `tenant` is that of the volume being read. -/
def containerCheck (bs : List (BitVec 8)) (tenant : Nat) : Nat :=
  let n := bs.length
  let g := n / 256
  let c := parseContainer bs
  let plen := leAt bs 12 4
  let method := leAt bs 11 1
  if decide (n < 256 ∨ n % 256 ≠ 0) || decide (leAt bs (n - 4) 4 ≠ (crc32c (bs.take (n - 4))).toNat) then 1
  else if leAt bs 8 2 ≠ 0x4B43 ∨ leAt bs 10 1 ≠ 1 ∨ ¬ ((method = 0 ∧ g = 129) ∨ (method = 1 ∧ g ≤ 128)) then 2
  else if decide (grainsFor plen ≠ g) || decide (method = 0 ∧ plen ≠ 32768) || decide (method = 1 ∧ 32636 < plen) ||
      !((slice bs (128 + plen) (n - 4 - 128 - plen)).all (· = 0)) then 3
  else if method = 1 && !rasterOk c.raster then 4
  else if method = 1 && !(c.slices.all (fun s => decide ((s.1 ≤ 4 ∧ s.2.length ≤ 4095) ∨ (s.1 = 7 ∧ s.2.length = 4096))) &&
      decide (((List.range 8).foldl (fun a t => a + leAt bs (112 + 2 * t) 2 % 8192) 0) = plen)) then 5
  else if c.tenant ≠ tenant then 6
  else 0

/-- Every check of R355: 0 when all pass, else the first that fails. -/
def containerCheckAll (bs : List (BitVec 8)) (tenant : Nat) : Nat :=
  let k := containerCheck bs tenant
  if k ≠ 0 then k
  else
    let c := parseContainer bs
    if guardsOk c (containerData c 8) 8 then 0 else 7

/-! ## The dictionary coder (R375 to R377) -/

/-- Bits of a byte string, least significant bit of each byte first (R376). -/
def bitsOf (bs : List (BitVec 8)) : List Bool := bs.flatMap fun b => (List.range 8).map b.getLsbD

/-- An unsigned value of bits, least significant first. -/
def natOfBits : List Bool → Nat
  | [] => 0
  | b :: t => b2n b + 2 * natOfBits t

/-- The decoder's dictionary, next entry, previous code, bits left and bytes output. -/
structure DictDec where
  dict : Array (List (BitVec 8))
  prev : Option Nat
  bits : List Bool
  out : List (BitVec 8)

/-- dict[j] (R376); entries from 258 on are listed in order. -/
def dictEntry (d : DictDec) (j : Nat) : List (BitVec 8) :=
  if j < 256 then [BitVec.ofNat 8 j] else d.dict.getD (j - 258) []

/-- Bits in the binary form of a number. -/
def bitlen (n : Nat) : Nat := if n = 0 then 0 else Nat.log2 n + 1

/-- The decoder of R376, at most one code for each unit of fuel: the output, none on a failure, and the bits it had left. -/
def dictRun (maxW plain : Nat) : Nat → DictDec → Option (List (BitVec 8)) × Nat
  | 0, d => (none, d.bits.length)
  | fuel + 1, d =>
    let fail := (none, d.bits.length)
    let next := 258 + d.dict.size
    let width := if d.prev.isNone then 9 else min maxW (max 9 (bitlen next))
    if d.bits.length < width then fail
    else
      let cd := natOfBits (d.bits.take width)
      let rest := d.bits.drop width
      if cd = 256 then dictRun maxW plain fuel { d with dict := #[], prev := none, bits := rest }
      else if cd = 257 then
        if rest.length < 8 ∧ d.out.length = plain then (some d.out, rest.length) else fail
      else
        match d.prev with
        | none =>
          if 255 < cd ∨ plain < d.out.length + 1 then fail
          else dictRun maxW plain fuel { d with prev := some cd, bits := rest, out := d.out ++ dictEntry d cd }
        | some p =>
          let pe := dictEntry d p
          let entry := if cd < next then some (dictEntry d cd) else if cd = next then some (pe ++ pe.take 1) else none
          match entry with
          | none => fail
          | some e =>
            if plain < d.out.length + e.length then fail
            else
              dictRun maxW plain fuel
                { dict := if next < 2 ^ maxW then d.dict.push (pe ++ e.take 1) else d.dict, prev := some cd, bits := rest,
                  out := d.out ++ e }

/-- Decode a dictionary stream held exactly: the output, none on a failure, and the byte offset reached (R375, R376,
R378). -/
def dictDecodeAt (bs : List (BitVec 8)) : Option (List (BitVec 8)) × Nat :=
  let maxW := leAt bs 1 1
  let plain := leAt bs 4 4
  if bs.length < 8 ∨ leAt bs 0 1 ≠ 1 ∨ maxW < 12 ∨ 16 < maxW ∨ leAt bs 2 2 ≠ 0 ∨ 67108864 < plain then (none, 0)
  else
    let bits := bitsOf (bs.drop 8)
    let r := dictRun maxW plain (bits.length + 1) { dict := #[], prev := none, bits := bits, out := [] }
    (r.1, 8 + (bits.length - r.2) / 8)

/-- Decode a dictionary stream held exactly (R375, R376). -/
def dictDecode (bs : List (BitVec 8)) : Option (List (BitVec 8)) := (dictDecodeAt bs).1

/-- The encoder's dictionary: (code of the string, next byte) gives the code of the longer string (R377). -/
def dictFind (d : List ((Nat × Nat) × Nat)) (code b : Nat) : Option Nat :=
  (d.find? fun x => x.1 = (code, b)).map (·.2)

/-- The codes of R377 for the bytes after a string whose code is `cur`. -/
def dictCodes : List (BitVec 8) → Nat → List ((Nat × Nat) × Nat) → List Nat
  | [], cur, _ => [cur]
  | b :: t, cur, d =>
    match dictFind d cur b.toNat with
    | some c => dictCodes t c d
    | none => cur :: dictCodes t b.toNat (if d.length < 2 ^ 16 - 258 then ((cur, b.toNat), 258 + d.length) :: d else d)

/-- `w` bits of a code, least significant first. -/
def codeBits (w c : Nat) : List Bool := (List.range w).map c.testBit

/-- Codes packed at the widths the decoder reads them with (R376). -/
def packCodes : Nat → List Nat → List Bool
  | _, [] => []
  | k, c :: t => codeBits (if k = 0 then 9 else min 16 (max 9 (bitlen (min (258 + (k - 1)) 65536)))) c ++ packCodes (k + 1) t

/-- Bits as bytes, the last one filled with zeros. -/
def packBits : Nat → List Bool → List (BitVec 8)
  | 0, _ => []
  | n + 1, bits => BitVec.ofNat 8 (natOfBits (bits.take 8)) :: packBits n (bits.drop 8)

/-- Encode bytes as a dictionary stream (R375, R377). -/
def dictEncode (bs : List (BitVec 8)) : List (BitVec 8) :=
  let codes := match bs with
    | [] => [257]
    | b :: t => dictCodes t b.toNat [] ++ [257]
  let bits := packCodes 0 codes
  [1, 16, 0, 0] ++ leBytes 4 bs.length ++ packBits ((bits.length + 7) / 8) bits

/-! ## The LDPC code and the scrambling (R469 to R473) -/

/-- The next state of the scrambling sequence (R470). -/
def scrambleNext (x : Nat) : Nat :=
  let x := x ^^^ (x * 2 ^ 13 % 2 ^ 32)
  let x := x ^^^ (x / 2 ^ 17)
  x ^^^ (x * 2 ^ 5 % 2 ^ 32)

/-- XOR bytes with the sequence that starts from state `x` (R470). -/
def scrambleFrom : Nat → List (BitVec 8) → List (BitVec 8)
  | _, [] => []
  | x, b :: t => (b ^^^ BitVec.ofNat 8 (scrambleNext x)) :: scrambleFrom (scrambleNext x) t

/-- scramble(die, plane, block, page, j, buf) (R470). -/
def scramble (die plane block page j : Nat) (buf : List (BitVec 8)) : List (BitVec 8) :=
  let x := (((die * 4 + plane) * 16777216 + block) * 65536 + page) * 4 + j
  let x := (x ^^^ (x / 2 ^ 32)) % 2 ^ 32
  scrambleFrom (if x = 0 then 0x9E3779B9 else x) buf

/-- Shift of data column block `c` in row block `r` (R472). -/
def ldpcShift (r c : Nat) : Nat := (13 * r * r + 7 * (c + 1) * (r + 1) + c * c) % 256

/-- Data column block `c` joins row block `r` (R472). -/
def ldpcJoins (r c : Nat) : Bool := decide (c % 16 = r) || decide ((c + 5) % 16 = r) || decide ((c + 11) % 16 = r)

/-- A 256-bit block rotated so that bit i takes bit (i + s) mod 256 (R472). -/
def rotBlock (x s : Nat) : Nat := (x / 2 ^ s + x * 2 ^ (256 - s)) % 2 ^ 256

/-- The 256-bit column block `c` of a codeword: bits 256 c to 256 c + 255 (R472). -/
def columnBlock (bs : List (BitVec 8)) (c : Nat) : Nat := leAt bs (32 * c) 32

/-- t[r] of R473. -/
def ldpcRow (data : List (BitVec 8)) (r : Nat) : Nat :=
  (List.range 128).foldl (fun t c => if ldpcJoins r c then t ^^^ rotBlock (columnBlock data c) (ldpcShift r c) else t) 0

/-- The 512 parity bytes of 4 096 data bytes (R472, R473). -/
def ldpcParity (data : List (BitVec 8)) : List (BitVec 8) :=
  ((List.range 16).foldl (fun (acc : List (BitVec 8) × Nat) r =>
    let p := ldpcRow data r ^^^ acc.2
    (acc.1 ++ leBytes 32 p, p)) ([], 0)).1

/-- An unscrambled codeword of 4 608 bytes satisfies H c = 0 (R472). -/
def ldpcOk (cw : List (BitVec 8)) : Bool := decide (slice cw 4096 512 = ldpcParity (cw.take 4096))

/-- A page's raw bytes from its 16 384 data bytes (R469). -/
def pageRaw (die plane block page pageBytes : Nat) (data : List (BitVec 8)) : List (BitVec 8) :=
  ((List.range 4).flatMap fun j =>
    let d := slice data (4096 * j) 4096
    scramble die plane block page j (d ++ ldpcParity d)) ++ List.replicate (pageBytes - 18432) 0xFF

/-! ## Parity of a stripe (R532, R533) -/

/-- A field element times alpha. -/
def gfDouble (a : Nat) : Nat := if a < 128 then 2 * a else (2 * a) ^^^ 0x11D

/-- Horner's scheme over the bits of the second factor from bit `n - 1` down, `acc` so far. -/
def gfMulBits : Nat → Nat → Nat → Nat → Nat
  | 0, _, _, acc => acc
  | n + 1, a, b, acc => gfMulBits n a b (gfDouble acc ^^^ (if b.testBit n then a else 0))

/-- Product in GF(2^8) with polynomial 0x11D (R532). -/
def gfMul (a b : Nat) : Nat := gfMulBits 8 a b 0

/-- Power in GF(2^8). -/
def gfPow (a : Nat) : Nat → Nat
  | 0 => 1
  | n + 1 => gfMul a (gfPow a n)

/-- Inverse of a non-zero element. -/
def gfInv (a : Nat) : Nat := gfPow a 254

/-- Coefficient of data strip `j` in parity strip `i` (R532). -/
def gfCoef (i j : Nat) : Nat := gfPow (gfPow 2 j) i

/-- P_i of the data bytes at one offset (R532). -/
def parityByte (i : Nat) (ds : List Nat) : Nat :=
  ((List.range ds.length).foldl (fun acc j => acc ^^^ gfMul (gfCoef i j) (ds.getD j 0)) 0)

/-- Parity strip `i` of the data strips (R532). -/
def parityStrip (i : Nat) (strips : List (List (BitVec 8))) : List (BitVec 8) :=
  let n := (strips.map List.length).foldl max 0
  let arrs := strips.map List.toArray
  (List.range n).map fun b => BitVec.ofNat 8 (parityByte i (arrs.map fun d => (d.getD b 0).toNat))

/-- The row of the generator for member `pos` of a stripe with `k` data strips: a unit row for data, the coefficients for
parity (R532). -/
def genRow (k pos : Nat) : List Nat :=
  if pos < k then (List.range k).map fun j => if j = pos then 1 else 0
  else (List.range k).map fun j => gfCoef (pos - k) j

/-- Add `f` times row `a` to row `b`. -/
def rowAdd (f : Nat) (a b : List Nat) : List Nat := List.zipWith (fun x y => y ^^^ gfMul f x) a b

/-- Gaussian elimination over GF(2^8) on rows of coefficients followed by the value: column by column, at most one pivot
for each unit of fuel. -/
def gfSolve (k : Nat) : Nat → List (List Nat) → List (List Nat)
  | 0, rows => rows
  | n + 1, rows =>
    let c := k - (n + 1)
    match (rows.drop c).findIdx? fun r => r.getD c 0 ≠ 0 with
    | none => gfSolve k n rows
    | some p =>
      let pivot := rows.getD (c + p) []
      let others := rows.eraseIdx (c + p)
      let inv := gfInv (pivot.getD c 0)
      let pivot := pivot.map (gfMul inv)
      let elim := others.map fun r => rowAdd (r.getD c 0) pivot r
      gfSolve k n (elim.take c ++ [pivot] ++ elim.drop c)

/-- The data bytes at one offset from `k` members' bytes (R533). -/
def solveBytes (k : Nat) (known : List (Nat × Nat)) : List Nat :=
  (gfSolve k k (known.map fun m => genRow k m.1 ++ [m.2])).map fun r => r.getD k 0

/-- The data strips of a stripe from `k` of its members (R533). -/
def solveStrips (k : Nat) (known : List (Nat × List (BitVec 8))) : List (List (BitVec 8)) :=
  let n := (known.map fun m => m.2.length).foldl max 0
  let known := (known.take k).map fun m => (m.1, m.2.toArray)
  let cols := (List.range n).map fun b => solveBytes k (known.map fun m => (m.1, (m.2.getD b 0).toNat))
  (List.range k).map fun j => cols.map fun col => BitVec.ofNat 8 (col.getD j 0)

/-- Member `pos` of a stripe from `k` of its members (R532, R533). -/
def rebuildMember (k pos : Nat) (known : List (Nat × List (BitVec 8))) : List (BitVec 8) :=
  let ds := solveStrips k known
  if pos < k then ds.getD pos [] else parityStrip (pos - k) ds

end Sys2Proof.Machine
end

