-- ==== Sys2Proof/Machine/Flit.lean ====
section
/-!
DEFINITION. The wire formats of the module link: lane order, scrambling and SYNC (R422), flits (R427, R428), commands and their data
(R433, R436), completions, identification, telemetry and events (R424, R437, R454, R456); and those of the crosshead link: flits and
messages (R564, R566).
-/
namespace Sys2Proof.Machine

/-! ## The stream on the lanes (R422) -/

/-- Logical lane of byte `b` of a flit. -/
def flitLane (b : Nat) : Nat := b % 2

/-- Seed of a lane's scrambler. -/
def laneSeed (lane : Nat) : Nat := if lane = 0 then 0x1DBFBC else 0x607BB1

/-- One step of the LFSR x^23 + x^21 + x^16 + x^8 + x^5 + x^2 + 1: the bit it gives, and its next state. -/
def lfsrStep (r : Nat) : Bool × Nat :=
  let bit := r.testBit 22
  let fb := (r.testBit 22 != (r.testBit 20 != (r.testBit 15 != (r.testBit 7 != (r.testBit 4 != r.testBit 1)))))
  (bit, (2 * r + b2n fb) % 2 ^ 23)

/-- Eight bits of the scrambler, the first for the least significant bit of a byte. -/
def lfsrByte (r : Nat) : Nat × Nat :=
  (List.range 8).foldl (fun x i => let y := lfsrStep x.2; (x.1 + b2n y.1 * 2 ^ i, y.2)) (0, r)

/-- Bytes of one lane scrambled, or descrambled, from a state of its LFSR. -/
def laneScramble : Nat → List (BitVec 8) → List (BitVec 8)
  | _, [] => []
  | r, b :: t => (b ^^^ BitVec.ofNat 8 (lfsrByte r).1) :: laneScramble (lfsrByte r).2 t

/-- The SYNC flit, sent unscrambled after every 1 023 other flits. -/
def syncFlit : List (BitVec 8) := 0x01 :: List.replicate 255 0x4B

/-- A receiver recognises a SYNC when at least 250 of its bytes match. -/
def syncSeen (bs : List (BitVec 8)) : Bool :=
  decide (250 ≤ ((List.zip bs syncFlit).filter fun x => decide (x.1 = x.2)).length)

/-! ## Flits (R427, R428) -/

/-- A DML flit: header, 240 payload bytes, CRC-64 of bytes 0 to 247. -/
def dmlFlit (ftype finfo seq : Nat) (ack : Option Nat) (payload : List (BitVec 8)) : List (BitVec 8) :=
  let body := leBytes 8 (ftype + 2 ^ 8 * finfo + 2 ^ 16 * (seq % 1024) + 2 ^ 26 * (ack.getD 0 % 1024) + 2 ^ 36 * b2n ack.isSome) ++
    (payload ++ List.replicate (240 - payload.length) 0).take 240
  body ++ leBytes 8 (crc64 body).toNat

/-- The CRC of a flit checks. -/
def flitCrcOk (f : List (BitVec 8)) : Bool := decide (f.length = 256) && decide (leAt f 248 8 = (crc64 (f.take 248)).toNat)

/-- Fields of the header. -/
def flitType (f : List (BitVec 8)) : Nat := leAt f 0 1
def flitInfo (f : List (BitVec 8)) : Nat := leAt f 1 1
def flitSeq (f : List (BitVec 8)) : Nat := leAt f 0 8 / 2 ^ 16 % 1024
def flitAck (f : List (BitVec 8)) : Option Nat := if (leAt f 0 8).testBit 36 then some (leAt f 0 8 / 2 ^ 26 % 1024) else none
def flitCrdCmd (f : List (BitVec 8)) : Nat := leAt f 0 8 / 2 ^ 37 % 4096
def flitCrdWd (f : List (BitVec 8)) : Nat := leAt f 0 8 / 2 ^ 49 % 4096

/-! ## Commands and data (R433, R436, R439) -/

/-- The TAG field: tag and GEN. -/
def tagField (tag gen : Nat) : Nat := tag % 1024 + 1024 * (gen % 8)

/-- The 32 bytes of a command. -/
def dmlCmdBytes (c : DmlCmd) : List (BitVec 8) :=
  leBytes 1 c.opc ++ leBytes 1 (b2n c.final_) ++ leBytes 2 (tagField c.tag c.gen) ++ leBytes 1 c.die ++ [c.planes] ++
    leBytes 1 c.count ++ [0] ++ leBytes 4 c.block ++ leBytes 2 c.page ++ leBytes 2 c.column ++ leBytes 4 c.length ++
    leBytes 4 c.param.toNat ++ List.replicate 8 0

/-- A data record: the transfer's TAG field, its offset and up to 232 bytes. -/
def dataRecord (tag off : Nat) (data : List (BitVec 8)) : List (BitVec 8) :=
  leBytes 2 tag ++ leBytes 1 data.length ++ [0] ++ leBytes 4 off ++ (data ++ List.replicate (232 - data.length) 0)

/-- The data records of a transfer from an offset on, at most `n`: TAG field, offset, bytes. -/
def dataRecords (tag : Nat) : Nat → Nat → List (BitVec 8) → List (Nat × Nat × List (BitVec 8))
  | 0, _, _ => []
  | n + 1, off, bs => if bs.isEmpty then [] else (tag, off, bs.take 232) :: dataRecords tag n (off + 232) (bs.drop 232)

/-- The data record that an RDATA flit carries. -/
def rdataOf (f : List (BitVec 8)) : DataRecord :=
  { tag := leAt f 8 2 % 1024, gen := leAt f 8 2 / 1024 % 8, offset := leAt f 12 4, data := slice f 16 (min 232 (leAt f 10 1)) }

/-- Completion `j` of a CPL flit. -/
def completionOf (f : List (BitVec 8)) (j : Nat) : DmlCpl :=
  let b := 8 + 16 * j
  { tag := leAt f b 2 % 1024, gen := leAt f b 2 / 1024 % 8, status := leAt f (b + 2) 1, dieStatus := leAt f (b + 3) 1
    tick := leAt f (b + 4) 4, busyUs := leAt f (b + 8) 4, info := w32 (leAt f (b + 12) 4) }

/-! ## Identification, telemetry and events (R424, R454, R456) -/

/-- The payload of the head's IDENT flit. -/
def identPayload (head : Bool) (serial : BitVec 64) : List (BitVec 8) :=
  leBytes 2 1 ++ leBytes 1 (b2n head) ++ List.replicate 13 0 ++ leBytes 8 serial.toNat

/-- The fields of the bridge's IDENT flit, with the information page read beside it. -/
def identOf (f info : List (BitVec 8)) : DmlIdent :=
  { format := leAt f 8 2, port := leAt f 10 1, otherHead := leAt f 11 1, epoch := leAt f 12 4, fencedPort := leAt f 16 1
    resHeld := leAt f 18 2, cmdCredits := leAt f 20 2, wdCredits := leAt f 22 2, serial := BitVec.ofNat 64 (leAt f 24 8)
    tick := leAt f 32 8, info := info }

/-- The telemetry record of a TELEM flit. -/
def telemOf (f : List (BitVec 8)) : TelemRecord :=
  { tick := leAt f 8 8, zones := (List.range 8).map fun z => BitVec.ofNat 16 (leAt f (16 + 2 * z) 2)
    bridgeTemp := BitVec.ofNat 16 (leAt f 32 2), inletTemp := BitVec.ofNat 16 (leAt f 34 2), vin := leAt f 36 2, iin := leAt f 38 2
    epoch := leAt f 40 4, fencedPort := leAt f 44 1, nvOk := (leAt f 45 1).testBit 0, otherActive := (leAt f 45 1).testBit 1
    resHeld := leAt f 46 2, busy := BitVec.ofNat 256 (leAt f 48 32), suspended := BitVec.ofNat 256 (leAt f 80 32) }

/-- Event record `j` of an EVENT flit. -/
def eventOf (f : List (BitVec 8)) (j : Nat) : ModuleEventRec :=
  let b := 8 + 16 * j
  { code := leAt f b 2, severity := leAt f (b + 2) 1, die := leAt f (b + 3) 1, tick := leAt f (b + 4) 4
    param := BitVec.ofNat 64 (leAt f (b + 8) 8) }

/-! ## The crosshead link (R564, R566) -/

/-- A crosshead flit: header, 496 payload bytes, CRC-64 of bytes 0 to 503. -/
def xhlFlit (tc ftype seq : Nat) (ack : Option Nat) (som eom : Bool) (data : List (BitVec 8)) : List (BitVec 8) :=
  let body := leBytes 8 (tc + 2 ^ 4 * ftype + 2 ^ 8 * (seq % 4096) + 2 ^ 20 * (ack.getD 0 % 4096) + 2 ^ 32 * b2n ack.isSome +
      2 ^ 33 * b2n som + 2 ^ 34 * b2n eom + 2 ^ 35 * data.length) ++ data ++ List.replicate (496 - data.length) 0
  body ++ leBytes 8 (crc64 body).toNat

/-- The CRC of a crosshead flit checks, and its FTYPE is one that the table gives. -/
def xhlFlitOk (f : List (BitVec 8)) : Bool :=
  decide (f.length = 512) && decide (leAt f 504 8 = (crc64 (f.take 504)).toNat) && decide (leAt f 0 1 / 16 ≤ 3)

/-- Fields of the header. -/
def xhlTc (f : List (BitVec 8)) : Nat := leAt f 0 1 % 16
def xhlType (f : List (BitVec 8)) : Nat := leAt f 0 1 / 16
def xhlSeq (f : List (BitVec 8)) : Nat := leAt f 0 8 / 2 ^ 8 % 4096
def xhlAckOf (f : List (BitVec 8)) : Option Nat := if (leAt f 0 8).testBit 32 then some (leAt f 0 8 / 2 ^ 20 % 4096) else none
def xhlSom (f : List (BitVec 8)) : Bool := (leAt f 0 8).testBit 33
def xhlEom (f : List (BitVec 8)) : Bool := (leAt f 0 8).testBit 34
def xhlData (f : List (BitVec 8)) : List (BitVec 8) := slice f 8 (min 496 (leAt f 0 8 / 2 ^ 35 % 512))

/-- The SYNC flit of the crosshead link, built as that of a module link; byte 0 holds its TC and FTYPE (log entry 88). -/
def xhlSync : List (BitVec 8) := 0x3F :: List.replicate 511 0x4B

/-- A receiver recognises a SYNC as on a module link: at least 250 of its bytes match (R422). -/
def xhlSyncSeen (bs : List (BitVec 8)) : Bool :=
  decide (250 ≤ ((List.zip bs xhlSync).filter fun x => decide (x.1 = x.2)).length)

/-- The bytes of a message: its header, the numbers it carries as 8 bytes each, and its data. Where the spec gives a type no layout,
this order is the model's (log entry 88). -/
def xhlMessage (type : Nat) (fence final : Bool) (mseq time : Nat) (args : List Nat) (data : List (BitVec 8)) : List (BitVec 8) :=
  leBytes 2 type ++ leBytes 1 (b2n fence + 2 * b2n final) ++ [0] ++ leBytes 4 (32 + 8 * args.length + data.length) ++ leBytes 8 mseq ++
    leBytes 8 time ++ List.replicate 8 0 ++ args.flatMap (leBytes 8) ++ data

/-- The payloads of the flits of a message, at most `n`: SOM, EOM, bytes. -/
def xhlParts : Nat → Bool → List (BitVec 8) → List (Bool × Bool × List (BitVec 8))
  | 0, _, _ => []
  | n + 1, som, bs =>
    if bs.length ≤ 496 then [(som, true, bs)] else (som, false, bs.take 496) :: xhlParts n false (bs.drop 496)

end Sys2Proof.Machine
end

