-- ==== Sys2Proof/Machine/State.lean ====
section
/-!
DEFINITION. The state of the machine as plain data, the two ways a command can stop, and the state after reset.
-/
namespace Sys2Proof.Machine

/-- Reasons for a fault. -/
inductive Fault where
  /-- An access to storage that does not exist. Raised by no command: the spec answers every such access
  (R13, R186, R189). Safe. -/
  | noStorage
  deriving DecidableEq, Repr

/-- Reasons for a refusal. -/
inductive Refusal where
  /-- A command that has no meaning in the model. Raised by exec's arms alone, by mnemonic. Safe. -/
  | notModelled (mnemonic : String)
  deriving DecidableEq, Repr

/-- The state of one Psiale. -/
structure State where
  /-- Mode, straps, readiness (R36, R54, R144). -/
  glb : Glb
  /-- Supply guardian (chapter 03). -/
  pwr : Pwr
  /-- Acorn island, kept across CHIP_RST_L (R98). -/
  island : Island
  /-- Lodestar time (chapter 04). -/
  lds : Lds
  /-- One-time fuses (R163, R167, R171). -/
  fuses : Fuses
  /-- Configuration checks and life cycle (R176 to R178). -/
  cfg : Cfg
  /-- The configuration image in use (R157 to R161). -/
  img : Image
  /-- PCIe endpoints 0 to 3 (chapter 06). -/
  eps : List Endpoint
  /-- Read latches of 64-bit registers: endpoint, low-half offset, high half (R12). -/
  hostLatch : List (Nat × Nat × BitVec 32)
  /-- Staged high halves of 64-bit registers: endpoint, low-half offset, high half (R12). -/
  hostStage : List (Nat × Nat × BitVec 32)
  /-- Command queues (chapter 07). -/
  dcq : Dcq
  /-- Network side (chapter 08). -/
  net : Net
  /-- Remote memory and replication (chapter 08). -/
  rma : Rma
  /-- Write log (chapter 09). -/
  wlg : Wlg
  /-- Deduplication, volumes, snapshots, locks (chapter 10). -/
  red : Red
  /-- Kernel coder (chapter 11). -/
  kc : Kc
  /-- Security (chapter 12). -/
  sec : Sec
  /-- Digest service (R419). -/
  dig : Dig
  /-- Module links (chapter 13). -/
  med : Med
  /-- Media management and retention ledger (chapter 14). -/
  mmg : Mmg
  /-- Erasure coding and maintenance (chapter 15). -/
  ecp : Ecp
  /-- Crosshead link and the pair (chapter 16). -/
  xhl : Xhl
  /-- DRAM subsystem (chapter 17). -/
  drc : Drc
  /-- Control loops, cooling, slot power (chapter 18). -/
  cle : Cle
  /-- Faults and self-test (chapter 19). -/
  flt : Flt
  /-- Almanac (chapter 20). -/
  alm : Alm
  /-- Firmware and configuration update (chapter 21). -/
  upd : Upd
  /-- The xSPI NOR; an unlisted byte reads 0xFF, erased (R151, R152). -/
  nor : List Host.Cell
  /-- The BAR2 landing zone; an unlisted byte reads 0 (R150, R188). -/
  lz : List Host.Cell
  /-- The SRAM host region; an unlisted byte reads 0 (R149, R188). -/
  sram : List Host.Cell
  /-- The data of the last answered host read (R10). -/
  hostData : BitVec 64
  /-- What has left the head, newest first. -/
  out : List Output
  /-- The model's own counter of open values (log entry 3). -/
  freeCtr : Nat
  /-- The commands that wait, first in first out. -/
  pending : List Instr
  deriving DecidableEq, Repr

/-- The machine right after CHIP_RST_L has risen on a part that never ran: life-cycle state BLANK (R4), no fuse blown,
NOR erased, no supply lost in the island, mode STARTING. -/
def State.reset : State where
  glb := Glb.reset
  pwr := Pwr.reset
  island := Island.reset
  lds := Lds.reset
  fuses := Fuses.reset
  cfg := Cfg.reset
  img := Image.reset
  eps := List.replicate 4 Endpoint.reset
  hostLatch := []
  hostStage := []
  dcq := Dcq.reset
  net := Net.reset
  rma := Rma.reset
  wlg := Wlg.reset
  red := Red.reset
  kc := Kc.reset
  sec := Sec.reset
  dig := Dig.reset
  med := Med.reset
  mmg := Mmg.reset
  ecp := Ecp.reset
  xhl := Xhl.reset
  drc := Drc.reset
  cle := Cle.reset
  flt := Flt.reset
  alm := Alm.reset
  upd := Upd.reset
  nor := []
  lz := []
  sram := []
  hostData := 0
  out := []
  freeCtr := 0
  pending := []

end Sys2Proof.Machine
end

