-- ==== Sys2Proof/Machine/Ops.lean ====
section
/-!
DEFINITION. The named operations that the meanings share: byte memory, what leaves the head, open values, interrupts,
alerts, completions, the Almanac, FAILSTOP, and sending on the crosshead and module links.
-/
namespace Sys2Proof.Machine

/-- A bit set of width `n` with bit `i` set or cleared. -/
def putBit {n : Nat} (w : BitVec n) (i : Nat) (on : Bool) : BitVec n :=
  if on then w ||| (BitVec.ofNat n 1 <<< i) else w &&& ~~~(BitVec.ofNat n 1 <<< i)

/-! ## Byte memory

A memory is a list of (address, byte) pairs with rising addresses and no pair equal to `d`, the byte an unlisted
address reads as. -/

/-- The byte at address `a`. -/
def memRead (d : BitVec 8) : List Host.Cell → Nat → BitVec 8
  | [], _ => d
  | (k, v) :: t, a => if k = a then v else memRead d t a

/-- Write one byte, keeping the form. -/
def memWrite (d : BitVec 8) : List Host.Cell → Nat → BitVec 8 → List Host.Cell
  | [], a, b => if b = d then [] else [(a, b)]
  | (k, v) :: t, a, b =>
    if a < k then (if b = d then (k, v) :: t else (a, b) :: (k, v) :: t)
    else if a = k then (if b = d then t else (a, b) :: t)
    else (k, v) :: memWrite d t a b

/-- Write bytes at rising addresses from `a`. -/
def memWriteBytes (d : BitVec 8) : List Host.Cell → Nat → List (BitVec 8) → List Host.Cell
  | m, _, [] => m
  | m, a, b :: t => memWriteBytes d (memWrite d m a b) (a + 1) t

/-- `n` bytes from address `a`. -/
def memBytes (d : BitVec 8) (m : List Host.Cell) (a n : Nat) : List (BitVec 8) :=
  (List.range n).map fun i => memRead d m (a + i)

/-- Return `n` bytes from address `a` to what an unlisted address reads as (an erase, R151). -/
def memClear (m : List Host.Cell) (a n : Nat) : List Host.Cell :=
  m.filter fun c => c.1 < a || a + n ≤ c.1

/-- Every listed address of `m` is above `a`, in rising order, and no listed byte is `d`. -/
def memSortedFrom (d : BitVec 8) : Option Nat → List Host.Cell → Bool
  | _, [] => true
  | lo, (k, v) :: t =>
    (match lo with | none => true | some a => decide (a < k)) && decide (v ≠ d) && memSortedFrom d (some k) t

/-- The canonical form of a memory. -/
def Memory.wf (d : BitVec 8) (m : List Host.Cell) : Bool := memSortedFrom d none m

/-- What an erased NOR byte reads as (R168). -/
def norErased : BitVec 8 := 0xFF

/-- A NOR program of bytes: a program only clears bits (R168). -/
def norProgram (m : List Host.Cell) (a : Nat) (bs : List (BitVec 8)) : List Host.Cell :=
  memWriteBytes norErased m a
    ((List.range bs.length).map fun i => memRead norErased m (a + i) &&& bs.getD i 0)

/-! ## Records and copies in the NOR (R152, R166, R672, R673) -/

/-- First NOR address of a configuration copy (R152). -/
def cfgBase (copyB : Bool) : Nat := if copyB then 0x00400000 else 0

/-- First NOR address of a firmware slot (R152). -/
def fwBase (n : Nat) : Nat := if n = 0 then 0x00800000 else 0x03800000

/-- First address of a part of the Almanac partition: birth copies 1 and 2 and the ring (R672). -/
def birthBase (copy : Nat) : Nat := if copy = 0 then 0x06800000 else 0x06D60000
def ringBase : Nat := 0x06840000

/-- First address of a life-cycle and floor record copy, 0 for A and 1 for B (R152). -/
def recBase (copy : Nat) : Nat := 0x07000000 + 0x10000 * copy

/-- Address of entry slot `k` of a part that begins at `base`: 1 638 slots of 40 bytes in each sector (R672). -/
def slotAddr (base k : Nat) : Nat := base + k / 1638 * 65536 + k % 1638 * 40

/-- The 32 bytes of a record (R666). -/
def recordBytes (r : AlmRecord) : List (BitVec 8) :=
  leBytes 2 r.code ++ leBytes 2 r.repeats ++ leBytes 2 r.source ++
    leBytes 2 (r.severity % 4 + 4 * b2n r.alert + 8 * b2n r.repeatSat + 16 * b2n r.heldSram + 32 * b2n r.island) ++
    leBytes 8 r.time ++ (List.range 4).flatMap fun i => leBytes 4 (r.param.getD i 0).toNat

/-- Bytes followed by their CRC-32C (R169). -/
def withCrc (bs : List (BitVec 8)) : List (BitVec 8) := bs ++ leBytes 4 (crc32c bs).toNat

/-- The CRC-32C in the last 4 of `n` bytes checks (R169). -/
def crcOk (n : Nat) (bs : List (BitVec 8)) : Bool := decide (leAt bs (n - 4) 4 = (crc32c (bs.take (n - 4))).toNat)

/-- The 40 bytes of an entry: the record, its SEQ and the CRC (R673). -/
def entryBytes (r : AlmRecord) : List (BitVec 8) := withCrc (recordBytes r ++ leBytes 4 r.seq.toNat)

/-- The closed record that an entry holds (R666, R673). -/
def entryRecord (e : List (BitVec 8)) : AlmRecord :=
  let f := leAt e 6 2
  { code := leAt e 0 2, repeats := leAt e 2 2, source := leAt e 4 2, severity := f % 4
    alert := f.testBit 2, repeatSat := f.testBit 3, heldSram := f.testBit 4, island := f.testBit 5, time := leAt e 8 8
    param := (List.range 4).map fun i => w32 (leAt e (16 + 4 * i) 4), seq := w32 (leAt e 32 4), isOpen := false }

/-- Slots of a part of `sectors` sectors from `base` that some program has touched, in rising order: the slots of which a byte does not
read as erased. -/
def usedSlots (m : List Host.Cell) (base sectors : Nat) : List Nat :=
  ((m.filter fun c => decide (base ≤ c.1) && decide (c.1 < base + sectors * 65536) && decide ((c.1 - base) % 65536 < 65520)).map
    fun c => (c.1 - base) / 65536 * 1638 + (c.1 - base) % 65536 / 40).eraseDups

/-- The entries of a part whose CRC checks: slot and record (R169, R675). -/
def validEntries (m : List Host.Cell) (base sectors : Nat) : List (Nat × AlmRecord) :=
  ((usedSlots m base sectors).map fun k => (k, memBytes norErased m (slotAddr base k) 40)).filterMap fun e =>
    if crcOk 40 e.2 then some (e.1, entryRecord e.2) else none

/-- Slots of a part whose entry is rejected (R169, R675). -/
def rejectedSlots (m : List Host.Cell) (base sectors : Nat) : List Nat :=
  (usedSlots m base sectors).filter fun k => !crcOk 40 (memBytes norErased m (slotAddr base k) 40)

/-- `a` is at or after `b`, modulo 2^32 (R193, R669). -/
def seqReached (a b : BitVec 32) : Bool := decide ((a - b).toNat < 2 ^ 31)

/-- The valid entry with the highest SEQ: slot and record (R675). -/
def newestEntry (l : List (Nat × AlmRecord)) : Option (Nat × AlmRecord) :=
  l.foldl (fun a e => match a with
    | none => some e
    | some x => if seqReached e.2.seq x.2.seq then some e else some x) none

/-- The valid entries of the wake ring, oldest first: the slots past the newest were written a pass earlier (R674, R675). -/
def ringRecords (m : List Host.Cell) : List AlmRecord :=
  let l := validEntries m ringBase 82
  match newestEntry l with
  | none => []
  | some n => ((l.filter fun e => n.1 < e.1) ++ (l.filter fun e => e.1 ≤ n.1)).map (·.2)

/-- The valid entries of a birth copy. -/
def birthRecords (m : List Host.Cell) (copy : Nat) : List AlmRecord := (validEntries m (birthBase copy) 4).map (·.2)

/-- The records of the birth region that the NOR holds: those of the copy with more of them (R675). -/
def birthNor (m : List Host.Cell) : List AlmRecord :=
  if (birthRecords m 0).length < (birthRecords m 1).length then birthRecords m 1 else birthRecords m 0

/-! ## The head -/

/-- Device time, ns (R107). -/
def now (s : State) : Nat := s.lds.deviceTime

/-- Civil time, ns (R109). -/
def civilNow (s : State) : Int := s.lds.deviceTime + s.lds.civilOffset

/-- High-water civil time: the highest civil time ever held, 0 while none was (R110). -/
def highWater (s : State) : Int := s.lds.highWater.getD 0

/-- Life-cycle state that the fuses show (R171). -/
def lifeCycle (s : State) : LifeCycle :=
  if s.fuses.d ≠ 0 then .decommissioned
  else if s.fuses.o ≠ 0 then .operational
  else if s.fuses.p ≠ 0 then .personalised
  else .blank

/-- Code of a life-cycle state (R170). -/
def lifeCycleCode : LifeCycle → Nat
  | .blank => 0
  | .personalised => 1
  | .operational => 2
  | .decommissioned => 3

/-- A source identifier (R26). -/
def srcId (stage engine lane : Nat) : Nat := stage * 8192 + engine * 128 + lane

/-- Endpoints of the bifurcation mode (R181). -/
def numEps (s : State) : Nat := if s.img.board.bifur = 0 then 1 else if s.img.board.bifur = 1 then 2 else 4

/-- Endpoint `e`. -/
def epOf (s : State) (e : Nat) : Endpoint := s.eps.getD e Endpoint.reset

/-- Change endpoint `e`. -/
def modEp (e : Nat) (f : Endpoint → Endpoint) (s : State) : State := { s with eps := s.eps.modify e f }

/-- The last `n` of a list. -/
def lastN {α : Type} (n : Nat) (l : List α) : List α := l.drop (l.length - n)

/-- Let something leave the head. -/
def emit (o : Output) (s : State) : State := { s with out := o :: s.out }

/-- An open value of the spec, and the state with the model's counter advanced. -/
def takeFree (s : State) : BitVec 64 × State :=
  (Config.freeValue s.freeCtr, { s with freeCtr := s.freeCtr + 1 })

/-! ## Programs and erases of the NOR (R151, R168, R673) -/

/-- One program operation within a 256-byte page; until the next one it is the program that a loss of power can cut (R168). -/
def norPage (a : Nat) (bs : List (BitVec 8)) (s : State) : State :=
  { s with
    nor := norProgram s.nor a bs
    alm.lastProgram := (List.range bs.length).map fun i => (a + i, memRead norErased s.nor (a + i), bs.getD i 0) }

/-- A program of bytes, one operation for each page it touches, at most `n` of them. -/
def norPages : Nat → Nat → List (BitVec 8) → State → State
  | 0, _, _, s => s
  | n + 1, a, bs, s =>
    if bs.isEmpty then s else norPages n (a + (256 - a % 256)) (bs.drop (256 - a % 256)) (norPage a (bs.take (256 - a % 256)) s)

/-- A program of bytes from address `a` (R151, R673). -/
def norWrite (a : Nat) (bs : List (BitVec 8)) (s : State) : State := norPages (bs.length / 256 + 2) a bs s

/-- An erase of `n` bytes from address `a`. -/
def norErase (a n : Nat) (s : State) : State := { s with nor := memClear s.nor a n, alm.lastProgram := [] }

/-- A value that a byte of a program cut by a loss of power may read afterwards (R168). -/
def tornOk (old new v : BitVec 8) : Bool := decide (v &&& ~~~old = 0) && decide ((old &&& new) &&& ~~~v = 0)

/-- The bytes of the program that a loss of power cut read as given, where R168 allows the value. -/
def norTear (torn : List (Nat × BitVec 8)) (s : State) : State :=
  let tear (m : List Host.Cell) (t : Nat × BitVec 8) : List Host.Cell :=
    match s.alm.lastProgram.find? fun x => x.1 = t.1 with
    | some x => if tornOk x.2.1 x.2.2 t.2 then memWrite norErased m t.1 t.2 else m
    | none => m
  { s with nor := torn.foldl tear s.nor, alm.lastProgram := [] }

/-- A sector that holds a programmed byte is erased before it is written again (R169). -/
def norFresh (sector : Nat) (s : State) : State :=
  if s.nor.any fun c => decide (sector ≤ c.1) && decide (c.1 < sector + 65536) then norErase sector 65536 s else s

/-- One record is written to the wake ring, slot after slot; the next sector is erased once the current one is half full (R674). -/
def ringPut (r : AlmRecord) (s : State) : State :=
  let k := s.alm.ringPos
  let s := if k % 1638 = 0 then norFresh (slotAddr ringBase k) s else s
  let s := norWrite (slotAddr ringBase k) (entryBytes r) { s with alm.ringPos := (k + 1) % 134316 }
  if k % 1638 = 818 then norFresh (ringBase + (k / 1638 + 1) % 82 * 65536) s else s

/-- One record is written to birth copy 1 and then to copy 2; the region is complete with 4 096 records, or when a copy has no slot
left (R674). -/
def birthPut (r : AlmRecord) (s : State) : State :=
  let put (s : State) (c : Nat) : State :=
    norWrite (slotAddr (birthBase c) (s.alm.birthPos.getD c 0)) (entryBytes r) { s with alm.birthPos := s.alm.birthPos.modify c (· + 1) }
  let s := put (put s 0) 1
  { s with alm.birthDone := decide (4096 ≤ (birthNor s.nor).length) || s.alm.birthPos.any fun n => decide (6552 ≤ n) }

/-- A birth copy is erased and rewritten from the other (R675). -/
def birthRewrite (copy : Nat) (s : State) : State :=
  let rs := birthRecords s.nor (1 - copy)
  let s := norErase (birthBase copy) (4 * 65536) s
  let s := (List.range rs.length).foldl
    (fun s k => norWrite (slotAddr (birthBase copy) k) (entryBytes (rs.getD k AlmRecord.reset)) s) s
  { s with alm.birthPos := s.alm.birthPos.set copy rs.length }

/-! ## The record copies (R152, R167, R173, R692)

Each copy is one sector of 32-byte records, written one after the other over erased bytes. The newest record of a kind holds. A boot
record is that of R692. The spec gives no layout for the others; here byte 0 is 1 for a life-cycle intent, 2 for a life-cycle
completion, 3 for a floor intent and 4 for a floor completion, byte 1 the owner slot, bytes 2 and 3 the target, and the last 4 the
CRC-32C (log entry 89). A completion record clears the intent before it. -/

/-- The 32 bytes of an intent or completion record. -/
def noteBytes (kind slot target : Nat) : List (BitVec 8) :=
  withCrc (leBytes 1 kind ++ leBytes 1 slot ++ leBytes 2 target ++ List.replicate 24 0)

/-- The 32 bytes of a boot record (R692). -/
def bootBytes (b : BootRecord) : List (BitVec 8) :=
  withCrc (leBytes 4 0x544F4F42 ++ leBytes 4 b.rseq ++ leBytes 1 b.active ++ leBytes 1 b.st ++ leBytes 1 b.tries ++
    leBytes 1 b.failed.toNat ++ leBytes 4 b.versionA.toNat ++ leBytes 4 b.versionB.toNat ++ leBytes 1 b.cfgCopy ++ List.replicate 7 0)

/-- The boot record that 32 bytes hold. -/
def bootOf (e : List (BitVec 8)) : Option BootRecord :=
  if leAt e 0 4 = 0x544F4F42 then
    some { rseq := leAt e 4 4, active := leAt e 8 1, st := leAt e 9 1, tries := leAt e 10 1, failed := BitVec.ofNat 2 (leAt e 11 1)
           versionA := w32 (leAt e 12 4), versionB := w32 (leAt e 16 4), cfgCopy := leAt e 20 1 }
  else none

/-- The places of a record copy that some program has touched, in rising order, with what they hold. -/
def copySlots (m : List Host.Cell) (copy : Nat) : List (Nat × List (BitVec 8)) :=
  (((m.filter fun c => decide (recBase copy ≤ c.1) && decide (c.1 < recBase copy + 65536)).map
    fun c => (c.1 - recBase copy) / 32).eraseDups).map fun k => (k, memBytes norErased m (recBase copy + 32 * k) 32)

/-- The valid records of a copy, oldest first (R169). -/
def copyRecords (m : List Host.Cell) (copy : Nat) : List (List (BitVec 8)) :=
  ((copySlots m copy).map (·.2)).filter (crcOk 32)

/-- The newest record of a copy of a kind or of the kind that clears it. -/
def copyNote (m : List Host.Cell) (copy kind : Nat) : Option (List (BitVec 8)) :=
  ((copyRecords m copy).filter fun e => leAt e 0 1 = kind ∨ leAt e 0 1 = kind + 1).getLast?

/-- The slot and target of the intent of a kind that a copy holds: 1 a life-cycle change, 3 a floor raise (R167, R173). -/
def copyIntent (m : List Host.Cell) (copy kind : Nat) : Option (Nat × Nat) :=
  (copyNote m copy kind).bind fun e => if leAt e 0 1 = kind then some (leAt e 1 1, leAt e 2 2) else none

/-- The boot record with the highest RSEQ among the two copies and the island (R692). -/
def newestBoot (m : List Host.Cell) (island : Option BootRecord) : Option BootRecord :=
  (((copyRecords m 0 ++ copyRecords m 1).filterMap bootOf) ++ island.toList).foldl (fun a b => match a with
    | none => some b
    | some x => if x.rseq < b.rseq then some b else some x) none

/-- What a copy must keep when its sector is erased: its newest boot record and its intents. -/
def copyLive (m : List Host.Cell) (copy : Nat) : List (List (BitVec 8)) :=
  ((copyRecords m copy).filter fun e => (bootOf e).isSome).getLast?.toList ++
    ([1, 3].filterMap fun k => (copyIntent m copy k).map fun i => noteBytes k i.1 i.2)

/-- A record joins a copy. A sector that is full, or that holds a rejected record, is erased first, and what it must keep is written
again (R169). -/
def copyPut (copy : Nat) (e : List (BitVec 8)) (s : State) : State :=
  let used := copySlots s.nor copy
  let next := used.foldl (fun n x => max n (x.1 + 1)) 0
  if next < 2048 ∧ used.all fun x => crcOk 32 x.2 then norWrite (recBase copy + 32 * next) e s
  else
    let keep := copyLive s.nor copy
    let s := norErase (recBase copy) 65536 s
    (List.range (keep.length + 1)).foldl (fun s k => norWrite (recBase copy + 32 * k) ((keep ++ [e]).getD k []) s) s

/-- A record is written to copy A, then to copy B (R152, R692). -/
def copiesPut (e : List (BitVec 8)) (s : State) : State := copyPut 1 e (copyPut 0 e s)

/-! ## Interrupts (R200, R203, R204) -/

/-- No request or interrupt leaves the endpoint: Bus Master Enable is 0, it is in D3hot, its link is down or it is in
reset (R199, R200). -/
def epHeld (e : Endpoint) : Bool := !e.bme || e.d3 || e.inReset || !e.linkUp

/-- A posted request goes out. -/
def sendPost (ep : Nat) (w : HostPost) (s : State) : State :=
  emit (match w.kind with
    | 1 => .msix ep w.vec w.addr (w32 (leNat w.data))
    | 2 => .msi ep w.vec w.addr (w32 (leNat w.data))
    | _ => .hostWrite ep w.relaxed w.addr w.data) s

/-- A posted request goes out and is kept until the data link layer acknowledges it (R201). That layer numbers its packets modulo 4 096
and leaves at most 2 048 of them unacknowledged. -/
def postReq (ep : Nat) (w : HostPost) (s : State) : State :=
  sendPost ep w (modEp ep (fun e => { e with posted := lastN 2048 (e.posted ++ [w]) }) s)

/-- Number of the MSI message of a vector: its queue number modulo the vectors granted (R204). -/
def msiNumber (e : Endpoint) (v : Nat) : Nat := v % max 1 e.msiVecs

/-- Vector `v` is masked: under MSI-X by its entry or the Function Mask, under MSI by its mask bit (R184, R204). -/
def vecMasked (e : Endpoint) (v : Nat) : Bool :=
  if e.msixEn then e.msixMask || decide (((e.msix.getD v MsixEntry.reset).ctl &&& 1) = 1) else e.msiMask.getLsbD (msiNumber e v)

/-- The endpoint signals by messages: MSI-X, or MSI in x16 mode; with both enabled by MSI-X alone (R203). -/
def vecEnabled (s : State) (e : Endpoint) : Bool := e.msixEn || (e.msiEn && decide (s.img.board.bifur = 0))

/-- The message of vector `v`: the address and data of its MSI-X entry, or those of the MSI capability with the message number in the
low bits of the data (R204). -/
def vecMessage (e : Endpoint) (v : Nat) : HostPost :=
  if e.msixEn then
    let m := e.msix.getD v MsixEntry.reset
    { kind := 1, vec := v, relaxed := false, addr := m.addr, data := leBytes 4 m.data.toNat }
  else
    let m := max 1 e.msiVecs
    { kind := 2, vec := msiNumber e v, relaxed := false, addr := e.msiAddr
      data := leBytes 4 (e.msiData.toNat / m * m + msiNumber e v) }

/-- Raise vector `v` of endpoint `ep`: send the message, or set its pending bit while it is masked or the endpoint held; with neither
MSI-X nor MSI enabled no interrupt is raised (R200, R203, R204). -/
def raiseVec (ep v : Nat) (s : State) : State :=
  let e := epOf s ep
  if epHeld e || (vecEnabled s e && vecMasked e v) then modEp ep (fun e => { e with pba := e.pba.set v true }) s
  else if vecEnabled s e then postReq ep (vecMessage e v) s
  else s

/-- Raise vector 0 on every endpoint (R660). -/
def raiseVec0 (s : State) : State := (List.range (numEps s)).foldl (fun s e => raiseVec e 0 s) s

/-! ## The Almanac (R666 to R679) -/

/-- Codes whose chapter says that their repeats are counted (R670). -/
def countedCode (code : Nat) : Bool :=
  [0x0101, 0x0404, 0x0603, 0x0701, 0x0704, 0x0809, 0x080A, 0x0901, 0x0A09, 0x0B03, 0x0B05, 0x0C01, 0x0E01, 0x0E04].contains code

/-- Severity of a record (R667): 0 INFO, 1 WARNING, 2 ERROR, 3 CRITICAL. `alert` says that its event asserts ALERT_L;
`moduleSev` is the severity of a module's event record, for 0x0A06. -/
def severityOf (code : Nat) (alert : Bool) (moduleSev : Nat) : Nat :=
  if [0x0C05, 0x0D08, 0x1001].contains code then 3
  else if [0x0307, 0x0803, 0x0903, 0x0B06, 0x0C04, 0x0D07, 0x0E02].contains code then 2
  else if [0x0106, 0x0501, 0x0D06].contains code then 1
  else if code = 0x0A06 then moduleSev
  else b2n alert

/-- Four parameters of 32 bits, 0 where none is given (R666). -/
def paramWords (ps : List Nat) : List (BitVec 32) := (List.range 4).map fun i => w32 (ps.getD i 0)

/-- Set the alert bit of a record's code class; when it was 0 and VEC0 is 1, vector 0 is raised (R659, R660). -/
def raiseAlert (code : Nat) (s : State) : State :=
  let i := code / 256
  let was := s.flt.alert.getLsbD i
  let s' := { s with flt.alert := s.flt.alert ||| (1 <<< i), flt.alertNow := s.flt.alertNow ||| (1 <<< i) }
  if !was && s.flt.vec0 then raiseVec0 s' else s'

/-- Change every copy of the record with a sequence number: SRAM, DRAM, birth region and island. -/
def almModify (seq : BitVec 32) (f : AlmRecord → AlmRecord) (s : State) : State :=
  let g := fun (r : AlmRecord) => if r.seq = seq then f r else r
  { s with alm.held := s.alm.held.map g, alm.wake := s.alm.wake.map g, alm.birth := s.alm.birth.map g,
           island.records := s.island.records.map g }

/-- The list the recorder adds to: the SRAM hold until the service runs (R143), then the DRAM wake region. -/
def liveRecords (s : State) : List AlmRecord := if s.alm.loaded then s.alm.wake else s.alm.held

/-- The Almanac code of an event that the spec gives no code: open, within the classes (R684). -/
def freeCode (v : BitVec 64) : Nat := 0x0100 + v.toNat % 0x1100

/-- How many of the newest records a new one from `source` goes before: those of this cycle that are still open and have a higher SOURCE
(R669). -/
def seqPassed (s : State) (source : Nat) : Nat :=
  (((liveRecords s).reverse.take s.alm.cycleNew).takeWhile fun r => r.isOpen && decide (source < r.source)).length

/-- Put a record in a list at its SEQ, one of the last: the records at or after it move up by one. -/
def seqPut (r : AlmRecord) (n : Nat) (l : List AlmRecord) : List AlmRecord :=
  let later (x : AlmRecord) : Bool := decide ((x.seq - r.seq).toNat < n)
  (l.filter fun x => !later x) ++ r :: (l.filter later).map fun x => { x with seq := x.seq + 1 }

/-- Put a new record in place, before the last `n`: SRAM or DRAM, the birth region, the island (R143, R671). -/
def almInsert (r : AlmRecord) (n : Nat) (s : State) : State :=
  let birth := decide (lifeCycle s ≠ .blank) && (decide (s.alm.birthSeen < 4096) || s.alm.birth.any fun x => decide ((x.seq - r.seq).toNat < n))
  let s := if birth then { s with alm.birth := (seqPut r n s.alm.birth).take 4096, alm.birthSeen := min 4096 (s.alm.birthSeen + 1) } else s
  let s := { s with island.records := lastN 16 (seqPut r n s.island.records) }
  if s.alm.loaded then
    let w := lastN 65536 (seqPut r n s.alm.wake)
    { s with alm.wake := w, alm.wakeFirst := (w.headD r).seq }
  else { s with alm.held := seqPut r n s.alm.held }

/-- Open a new record with the next SEQ; events of one cycle are taken in ascending order of SOURCE (R669, R670). -/
def almOpen (code source : Nat) (ps : List (BitVec 32)) (sev : Nat) (alert : Bool) (s : State) : State :=
  let n := seqPassed s source
  let r : AlmRecord :=
    { code := code, repeats := 0, source := source, severity := sev, alert := alert, repeatSat := false,
      heldSram := !s.alm.loaded, island := false, time := now s, param := ps, seq := s.alm.nextSeq - BitVec.ofNat 32 n, isOpen := true }
  almInsert r n { s with alm.nextSeq := s.alm.nextSeq + 1, alm.cycleNew := s.alm.cycleNew + 1 }

/-- An hour in ns. -/
def hourNs : Nat := 3600 * 10 ^ 9

/-- Records that wait for programming stand in SEQ order (R673). -/
def norQueue (r : AlmRecord) (l : List AlmRecord) : List AlmRecord :=
  (l.filter fun x => !seqReached x.seq r.seq) ++ r :: l.filter fun x => seqReached x.seq r.seq

/-- A closed record joins those that wait for programming; an INFO record past 36 000 within the past hour is kept from the NOR
and counted, and 0x0314 is written at most once an hour (R673, R676). -/
def norPush (r : AlmRecord) (s : State) : State :=
  let times := s.alm.hourTimes.filter fun t => decide (now s < t + hourNs)
  let full := decide (36000 ≤ times.length)
  let s := { s with alm.hourTimes := times, alm.rateLimited := full }
  if r.severity = 0 ∧ full then
    let s := { s with alm.norHeld := satAdd (2 ^ 32 - 1) s.alm.norHeld 1 }
    let due := match s.alm.limitAt with | none => true | some t => decide (t + hourNs ≤ now s)
    if due then
      almOpen 0x0314 (srcId 0 0 0) (paramWords []) (severityOf 0x0314 false 0) false { s with alm.limitAt := some (now s) }
    else s
  else { s with alm.norWait := norQueue r s.alm.norWait, alm.hourTimes := times ++ [now s] }

/-- Close the open record with a sequence number (R670). Before the service runs it only closes. -/
def almClose (seq : BitVec 32) (s : State) : State :=
  match (liveRecords s).find? fun r => decide (r.seq = seq) && r.isOpen with
  | none => s
  | some r =>
    let s := almModify seq (fun r => { r with isOpen := false }) s
    if s.alm.loaded then norPush { r with isOpen := false } s else s

/-- Close the oldest open record when 256 are open (R670). -/
def almMakeRoom (s : State) : State :=
  let opens := (liveRecords s).filter (·.isOpen)
  if 256 ≤ opens.length then
    match opens with
    | [] => s
    | r :: _ => almClose r.seq s
  else s

/-- An open record that an event merges into (R670). -/
def almMatch (code source : Nat) (ps : List (BitVec 32)) (r : AlmRecord) : Bool :=
  r.isOpen && decide (r.code = code) && decide (r.source = source) && (countedCode code || decide (r.param = ps))

/-- A merge adds 1 to REPEAT; at 0xFFFF the record closes with REPEAT_SAT (R670). -/
def almMerge (seq : BitVec 32) (repeats : Nat) (s : State) : State :=
  if 0xFFFF ≤ repeats + 1 then
    almClose seq (almModify seq (fun r => { r with repeats := 0xFFFF, repeatSat := true }) s)
  else almModify seq (fun r => { r with repeats := r.repeats + 1 }) s

/-- Write an Almanac record with a severity: alert, merge or new record (R143, R659, R670). More than 256 records before the
service runs raise the repeat count of the last held one (R143). True when a new record was opened. -/
def recordCore (code source : Nat) (ps : List (BitVec 32)) (alert : Bool) (sev : Nat) (s : State) : Bool × State :=
  let s := if alert then raiseAlert code s else s
  match (liveRecords s).find? (almMatch code source ps) with
  | some r => (false, almMerge r.seq r.repeats s)
  | none =>
    if !s.alm.loaded && decide (256 ≤ (s.alm.held.filter fun r => !r.island).length) then
      match s.alm.held.getLast? with
      | some r => (false, almModify r.seq (fun r => { r with repeats := satAdd 0xFFFF r.repeats 1 }) s)
      | none => (false, s)
    else (true, almOpen code source ps sev alert (almMakeRoom (almMakeRoom s)))

/-- Write a record of severity INFO, which is no device event (R667). -/
def recordInfo (code source : Nat) (params : List Nat) (s : State) : State :=
  (recordCore code source (paramWords params) false 0 s).2

/-! ## Queues and completions (R209 to R222) -/

/-- The queue with an identity. -/
def queueOf (s : State) (q : QueueId) : Option Queue := s.dcq.queues.find? fun x => x.id = q

/-- Change the queue with an identity. -/
def modQueue (q : QueueId) (f : Queue → Queue) (s : State) : State :=
  { s with dcq.queues := s.dcq.queues.map fun x => if x.id = q then f x else x }

/-- The fetched command that holds a tag. -/
def cmdOf (s : State) (q : QueueId) (tag : Nat) : Option Cmd :=
  s.dcq.cmds.find? fun c => c.q = q && decide (c.tag = tag) && !c.remote

/-- Change the fetched command that holds a tag. -/
def modCmd (q : QueueId) (tag : Nat) (f : Cmd → Cmd) (s : State) : State :=
  { s with dcq.cmds := s.dcq.cmds.map fun c => if c.q = q && decide (c.tag = tag) && !c.remote then f c else c }

/-- Word `i` of a command. -/
def cmdWord (c : Cmd) (i : Nat) : BitVec 32 := c.words.getD i 0

/-- OPCODE (R217). -/
def cmdOpcode (c : Cmd) : Nat := fld (cmdWord c 0) 0 8

/-- FLAGS (R217). -/
def cmdFlags (c : Cmd) : Nat := fld (cmdWord c 0) 8 8

/-- VOLUME (R217). -/
def cmdVolume (c : Cmd) : Nat := fld (cmdWord c 1) 0 16

/-- TENANT, all 16 bits (R217). -/
def cmdTenant (c : Cmd) : Nat := fld (cmdWord c 1) 16 16

/-- LBA (R217). -/
def cmdLba (c : Cmd) : Nat := (cmdWord c 2).toNat + 2 ^ 32 * (cmdWord c 3).toNat

/-- COUNT (R217). -/
def cmdCount (c : Cmd) : Nat := (cmdWord c 4).toNat

/-- SNAP (R217). -/
def cmdSnap (c : Cmd) : Nat := fld (cmdWord c 5) 0 16

/-- DATA_ADDR (R217). -/
def cmdData (c : Cmd) : BitVec 64 := join64 (cmdWord c 7) (cmdWord c 6)

/-- PI_ADDR (R217). -/
def cmdPi (c : Cmd) : BitVec 64 := join64 (cmdWord c 9) (cmdWord c 8)

/-- SPECIFIC, bytes 40 to 63 of the command (R217). -/
def cmdSpecific (c : Cmd) : List (BitVec 8) :=
  (List.range 6).flatMap fun i => leBytes 4 (cmdWord c (10 + i)).toNat

/-- Status codes (R224). -/
def stSuccess : Nat := 0x0000
def stInvalidOpcode : Nat := 0x0101
def stInvalidField : Nat := 0x0102
def stLbaRange : Nat := 0x0103
def stVolumeUnknown : Nat := 0x0104
def stTenantMismatch : Nat := 0x0105
def stGenerationMismatch : Nat := 0x0106
def stQueueState : Nat := 0x0107
def stForwardUnauthorised : Nat := 0x0108
def stAborted : Nat := 0x0201
def stAbortedFrozen : Nat := 0x0202
def stTransferError : Nat := 0x0203
def stGuardCheck : Nat := 0x0301
def stReferenceCheck : Nat := 0x0302
def stAppTagCheck : Nat := 0x0303
def stRetained : Nat := 0x0401
def stReadOnlySnapshot : Nat := 0x0402
def stDataLost : Nat := 0x0501
def stCapacityExhausted : Nat := 0x0502
def stObjectLimit : Nat := 0x0503
def stFailoverRetry : Nat := 0x0601
def stNotReady : Nat := 0x0602
def stDigestBusy : Nat := 0x0701

/-- Records of a queue's completion ring (R209). -/
def ringSize (q : Queue) : Nat := 2 ^ q.sizeLog2

/-- The 16 bytes of a completion record (R220). -/
def cplBytes (c : Cpl) (phase : Bool) : List (BitVec 8) :=
  leBytes 2 c.status.toNat ++ leBytes 1 (c.tag % 32 + 32 * (c.gen % 8)) ++
    leBytes 1 (b2n phase + 2 * b2n c.forwarded + 4 * b2n c.more) ++ leBytes 4 c.r0.toNat ++ leBytes 8 c.r1.toNat

/-- Free a tag and advance its generation (R210). -/
def freeTag (t : Tag) : Tag := { st := .free, gen := (t.gen + 1) % 8, abort := false, asked := false }

/-- A ring can take one more record now: the queue is not held, its ring can be written, and it is not full
(R200, R216, R221). -/
def canPost (s : State) (q : Queue) : Bool :=
  match q.id with
  | .ring ep _ => !q.held && !q.ringBad && !(epHeld (epOf s ep)) && decide (q.unread < ringSize q)
  | .channel _ => true

/-- Interrupt vector of a queue: 0 for the admin queue, q for I/O queue q (R222). -/
def queueVec : QueueId → Nat
  | .ring _ q => q
  | .channel _ => 0

/-- Signal a posted completion under coalescing (R222). -/
def signalCpl (id : QueueId) (c : Cpl) (s : State) : State :=
  match id with
  | .channel _ => s
  | .ring ep _ =>
    if c.noIntr then s
    else
      match queueOf s id with
      | none => s
      | some q =>
        if decide (max 1 q.coalCount ≤ q.unsignalled + 1) || decide (c.status ≠ 0) then
          raiseVec ep (queueVec id) (modQueue id (fun q => { q with unsignalled := 0 }) s)
        else modQueue id (fun q =>
          { q with unsignalled := q.unsignalled + 1, unsigAt := if q.unsignalled = 0 then now s else q.unsigAt }) s

/-- Usage of one posted completion added to a period. -/
def addUsage (c : Cpl) (p : Period) : Period :=
  { p with written := p.written + c.written, read := p.read + c.read, commands := p.commands + 1 }

/-- Usage of one posted completion accrues to its tenant's open period, or, once high-water civil time has reached that period's
end, to the period that opens at its close (R130). -/
def accrue (c : Cpl) (s : State) : State :=
  match c.acct with
  | none => s
  | some tenant =>
    { s with lds.tenants := s.lds.tenants.map fun t =>
        if t.id = tenant then
          if t.open_.any fun p => decide (p.fin ≤ highWater s) then { t with carry := addUsage c t.carry }
          else { t with open_ := t.open_.map (addUsage c) }
        else t }

/-- The head does its normal work: it is held by no reset and not in FAILSTOP. -/
def alive (s : State) : Bool := !s.glb.held && decide (s.glb.mode ≠ .failstop)

/-! ## RoCEv2 packets that this head sends (R250 to R254) -/

/-- The queue pair with a number. -/
def qpOf (s : State) (qpn : Nat) : Option Qp := s.net.qps.find? fun q => q.qpn = qpn

/-- Change the QP of a number. -/
def modQp (qpn : Nat) (f : Qp → Qp) (s : State) : State := { s with net.qps := s.net.qps.map fun q => if q.qpn = qpn then f q else q }

/-- The sub-port sends RoCEv2 packets: the head runs, no power-fail flush has stopped Ethernet, the link is up, and the link partner does
not hold the lossless priority paused (R82, R250). -/
def subSends (s : State) (sub : Nat) : Bool :=
  let p := s.net.ports.getD (sub / 4) NetPort.reset
  alive s && !s.pwr.flushActive && p.linkUp.getLsbD (sub % 4) && !(p.paused.getD (sub % 4) false)

/-- Send a RoCEv2 packet, marked ECT(0), which is 2 in the ECN field; it waits behind those that its sub-port cannot send (R250, R251). -/
def sendRoceOn (sub qpn kind : Nat) (data : List (BitVec 8)) (s : State) : State :=
  if subSends s sub && !(s.net.held.any fun h => h.sub = sub) then emit (.roce qpn 2 kind data) s
  else { s with net.held := s.net.held ++ [{ sub := sub, qpn := qpn, kind := kind, data := data }] }

/-- Send a packet of a QP. -/
def sendRoce (qpn kind : Nat) (data : List (BitVec 8)) (s : State) : State :=
  match qpOf s qpn with
  | some q => sendRoceOn q.port qpn kind data s
  | none => s

/-- Packets of a message of a length (R252). -/
def packetsOf (mtu len : Nat) : Nat := max 1 ((len + mtu - 1) / mtu)

/-- Issue a request: it takes the next PSNs, and stays until its acknowledgement; the local ACK timeout runs from the oldest (R253). -/
def issueRoce (qpn kind : Nat) (data : List (BitVec 8)) (s : State) : State :=
  sendRoce qpn kind data (modQp qpn (fun q =>
    let n := q.npsn + packetsOf q.mtu (if kind = 2 then data.length - 8 else data.length)
    { q with
      npsn := n % 2 ^ 24
      unacked := q.unacked ++ [{ psn := (n + 2 ^ 24 - 1) % 2 ^ 24, kind := kind, data := data }]
      ackAt := if q.unacked.isEmpty then now s else q.ackAt }) s)

/-- The packets that wait for a sub-port leave, in order, once it sends (R250). -/
def releaseHeld (sub : Nat) (s : State) : State :=
  if subSends s sub then
    (s.net.held.filter fun h => h.sub = sub).foldl (fun s h => emit (.roce h.qpn 2 h.kind h.data) s)
      { s with net.held := s.net.held.filter fun h => h.sub ≠ sub }
  else s

/-- Post one completion record: the 16-byte write, the tag freed with its generation advanced, the ring index and
PHASE moved on, and the interrupt (R210, R221, R222). A client channel's completion is due in this cycle (R260, R269). -/
def postCpl (id : QueueId) (c : Cpl) (s : State) : State :=
  match queueOf s id with
  | none => s
  | some q =>
    let q' : Queue := { q with tags := q.tags.modify c.tag freeTag, fenceAt := if c.fence then some (now s) else q.fenceAt }
    match id with
    | .channel qpn =>
      let s := modQueue id (fun _ => q') s
      { s with net.cpls := s.net.cpls ++ [(qpn, c)] }
    | .ring ep _ =>
      let wrap := decide (q.next + 1 = ringSize q)
      let q'' : Queue :=
        { q' with
          next := if wrap then 0 else q.next + 1
          phase := if wrap then !q.phase else q.phase
          unread := q.unread + 1 }
      let w : HostPost := { HostPost.reset with addr := q.cq + BitVec.ofNat 64 (16 * q.next), data := cplBytes c q.phase }
      accrue c (signalCpl id c (postReq ep w (modQueue id (fun _ => q'') s)))

/-- A completion due on a channel leaves as a SEND of 16 bytes with PHASE 0, or is dropped with record 0x0605 once its QP is in ERROR,
which it may have entered in this very cycle (R260, R269). -/
def sendCpl (x : Nat × Cpl) (s : State) : State :=
  if (qpOf s x.1).any fun p => p.st ≠ .error then accrue x.2 (issueRoce x.1 1 (cplBytes x.2 false) s)
  else recordInfo 0x0605 (srcId 1 3 0) [x.1, x.2.tag] s

/-- Post a completion, or keep it until the ring can take it; completions keep their order (R221). -/
def queueCpl (id : QueueId) (c : Cpl) (s : State) : State :=
  match queueOf s id with
  | none => s
  | some q =>
    if canPost s q && q.waiting.isEmpty then postCpl id c s
    else modQueue id (fun q => { q with waiting := q.waiting ++ [c] }) s

/-- Post as many kept completions of a queue as it can take, at most `n`. -/
def drainCpls (id : QueueId) : Nat → State → State
  | 0, s => s
  | n + 1, s =>
    match queueOf s id with
    | none => s
    | some q =>
      match q.waiting with
      | [] => s
      | c :: t =>
        if canPost s q then drainCpls id n (postCpl id c (modQueue id (fun q => { q with waiting := t }) s))
        else s

/-- Post the kept completions of a queue that it can take now. -/
def drainQueue (id : QueueId) (s : State) : State :=
  drainCpls id ((queueOf s id).elim 0 (fun q => q.waiting.length)) s

/-! ## Sending on the crosshead link (R564 to R568) -/

/-- Traffic class of a message type (R568). -/
def xhlClass (type : Nat) : Nat :=
  if type / 256 = 1 then 1 else if type / 256 = 2 then 2 else if type / 256 = 3 then 3
  else if type / 256 = 4 then 4 else 0

/-- The last DATA flit accepted, once there is one (R564). -/
def xhlAcked (x : Xhl) : Option Nat := if x.rxAny then some ((x.seqRx + 4095) % 4096) else none

/-- A class has flits that wait. -/
def tcWaits (x : Xhl) (tc : Nat) : Bool := !(x.tcs.getD tc TcState.reset).queue.isEmpty

/-- The class that takes the next flit slot, and the slots then left in the round: TC0 ahead of all, the others in the ratio
13 : 1 : 1 : 1, the lower class first, a slot that no class can claim going to one that waits (R568). -/
def nextClass (x : Xhl) : Option (Nat × List Nat) :=
  if tcWaits x 0 then some (0, x.wrr)
  else
    match [1, 2, 3, 4].find? fun i => tcWaits x i && decide (0 < x.wrr.getD (i - 1) 0) with
    | some i => some (i, x.wrr.modify (i - 1) (· - 1))
    | none => ([1, 2, 3, 4].find? (tcWaits x)).map fun i => (i, [13, 1, 1, 1].modify (i - 1) (· - 1))

/-- The DATA flit that leaves next, with the link after it, while the window of 2 048 flits has room (R565, R568). -/
def xhlNext (now : Nat) (x : Xhl) : Option (List (BitVec 8) × Xhl) :=
  if x.link = 2 ∧ x.unacked.length < 2048 then
    (nextClass x).bind fun c =>
      ((x.tcs.getD c.1 TcState.reset).queue.head?).map fun p =>
        (xhlFlit c.1 1 x.seqTx (xhlAcked x) p.1 p.2.1 p.2.2,
         { x with
           tcs := x.tcs.modify c.1 (fun t => { t with queue := t.queue.drop 1 })
           wrr := c.2
           progressAt := if x.unacked.isEmpty then now else x.progressAt
           unacked := x.unacked ++ [(x.seqTx, 0)]
           seqTx := (x.seqTx + 1) % 4096 })
  else none

/-- DATA flits leave, at most `n`. -/
def xhlPump : Nat → State → State
  | 0, s => s
  | n + 1, s =>
    match xhlNext (now s) s.xhl with
    | some (f, x) => xhlPump n (emit (.xhlFlit f) { s with xhl := x })
    | none => s

/-- Every waiting flit that may leave does. -/
def xhlRun (s : State) : State := xhlPump (s.xhl.tcs.foldl (fun n t => n + t.queue.length) 0) s

/-- Messages that XHL carries while a head is idle: heartbeats, time synchronisation, budgets, and the POWER messages of the heads' own
agreement about idleness (R89, R93; log entry 88). -/
def quietMessage (type : Nat) : Bool := [0x0001, 0x0002, 0x0003, 0x0005].contains type

/-- Send a message while the link is ACTIVE or retraining: the class's next MSEQ, and its flits into the class's queue (R566, R568).
While the link is down no message is sent. -/
def xhlSend (type : Nat) (fence final : Bool) (args : List Nat) (data : List (BitVec 8)) (s : State) : State :=
  if s.xhl.link = 2 ∨ s.xhl.link = 3 then
    let tc := xhlClass type
    let m := (s.xhl.tcs.getD tc TcState.reset).sent + 1
    let bs := xhlMessage type fence final m (now s) args data
    xhlRun (emit (.xhl type fence final m args data)
      { s with
        xhl.tcs := s.xhl.tcs.modify tc fun t => { t with sent := m, queue := t.queue ++ xhlParts bs.length true bs }
        pwr.lastBusy := if quietMessage type then s.pwr.lastBusy else now s })
  else s

/-! ## Map deltas (R574, R575) -/

/-- The 64 bytes of a record (R575). -/
def deltaBytes (r : DeltaRec) : List (BitVec 8) :=
  leBytes 1 r.kind ++ leBytes 1 (b2n r.delete) ++ leBytes 2 r.volume ++ leBytes 2 r.snap ++ leBytes 2 0 ++
    leBytes 8 r.key.toNat ++ leBytes 8 r.lsn ++ (r.value ++ List.replicate 40 0).take 40

/-- Send one MAP_DELTA with the records, while XHL can carry it (R575). -/
def sendDelta (recs : List DeltaRec) (s : State) : State :=
  if recs.isEmpty then s
  else if s.xhl.link = 2 ∨ s.xhl.link = 3 then
    let d := s.xhl.dseqTx + 1
    xhlSend 0x0201 false false [d, recs.length, now s] (recs.flatMap deltaBytes) { s with xhl.dseqTx := d }
  else s

/-- Record of a lock (R575). -/
def deltaLock (v : Nat) (l : Lock) (delete : Bool) : DeltaRec :=
  { kind := 4, delete := delete, volume := v, snap := 0, key := BitVec.ofNat 64 l.lba, lsn := 0,
    value := leBytes 8 l.count ++ leBytes 8 (i64 l.expiry).toNat ++ leBytes 8 (i64 l.placed).toNat }

/-! ## Ending a command (R221, R236, R238, R240, R340) -/

/-- The change of the locks of a volume by a RETAIN: those it took the place of, and its own (R340, R341). -/
def lockDeltas (c : Cmd) : List DeltaRec :=
  (c.gone.map fun l => deltaLock (cmdVolume c) l true) ++ (c.lock.toList.map fun l => deltaLock (cmdVolume c) l false)

/-- A command that ends HEAD_FAILOVER_RETRY has had no effect: the lock that a waiting RETAIN placed goes, and the version that a
waiting SNAPSHOT opened (R237). -/
def undoCmd (c : Cmd) (s : State) : State :=
  let undo (x : Volume) : Volume :=
    if cmdOpcode c = 0x07 then { x with locks := x.locks.filter (fun l => some l ≠ c.lock) ++ c.gone }
    else if cmdOpcode c = 0x08 then { x with snaps := x.snaps.filter fun p => p.listed || decide (p.num ≠ c.left) }
    else x
  if c.st = .waiting then { s with red.volumes := s.red.volumes.map fun x => if x.num = cmdVolume c then undo x else x } else s

/-- Logical bytes that a command which ended with `status` wrote and read (R130). -/
def cmdUsage (c : Cmd) (status : Nat) : Nat × Nat :=
  if status ≠ 0 then (0, 0)
  else if cmdOpcode c = 0x02 then (4096 * cmdCount c, 0)
  else if cmdOpcode c = 0x01 ∨ cmdOpcode c = 0x06 then (0, 4096 * cmdCount c)
  else (0, 0)

/-- The tenant a command counts for: that of an I/O command or DELETE_VOLUME that got past check 6 (R130, R223). -/
def cmdAcct (c : Cmd) (status : Nat) : Option Nat :=
  if (1 ≤ cmdOpcode c ∧ cmdOpcode c ≤ 0x0B) ∨ cmdOpcode c = 0x85 then
    if [stInvalidOpcode, stInvalidField, stVolumeUnknown, stTenantMismatch, stGenerationMismatch].contains status ||
      ([stNotReady, stAborted, stTransferError].contains status && (decide (c.st = .started) || decide (c.st = .listing))) then none
    else some (cmdTenant c % 32768)
  else none

/-- A queue identity as numbers, as a forwarded command carries it (R568). -/
def queueArgs : QueueId → List Nat
  | .ring ep q => [0, ep, q]
  | .channel n => [1, n, 0]

/-- The completion of a tag waits to be posted: it is posted only once (R221). -/
def cplWaits (tag : Nat) (q : Queue) : Bool := q.waiting.any fun c => c.tag = tag

/-- The command leaves the list and its completion is posted or kept, or FWD_CPL carries it to the head that forwarded
it (R221, R236). -/
def finishCore (id : QueueId) (tag : Nat) (remote : Bool) (status : Nat) (r0 : BitVec 32) (r1 : BitVec 64)
    (forwarded more : Bool) (s : State) : State :=
  let mine (x : Cmd) : Bool := decide (x.q = id) && decide (x.tag = tag) && (x.remote == remote)
  let c := s.dcq.cmds.find? mine
  let s := { s with dcq.cmds := s.dcq.cmds.filter fun x => !mine x }
  let s := match c with | some c => if status = stFailoverRetry then undoCmd c s else s | none => s
  if remote then xhlSend 0x0303 false false (queueArgs id ++ [tag, c.elim 0 (·.gen), status, r0.toNat, r1.toNat]) [] s
  else
    let s := { s with dcq.async := s.dcq.async.filter fun x => !(decide (x.1 = id) && decide (x.2 = tag)) }
    match c with
    | some c =>
      let u := cmdUsage c status
      queueCpl id
        { status := BitVec.ofNat 16 status, tag := tag, gen := c.gen, forwarded := forwarded, more := more, r0 := r0, r1 := r1,
          noIntr := decide ((cmdFlags c / 2) % 2 = 1), fence := decide (cmdFlags c % 2 = 1), seq := c.seq, acct := cmdAcct c status,
          written := u.1, read := u.2 } s
    | none =>
      match (queueOf s id).bind fun q => q.tags[tag]? with
      | none => s
      | some t =>
        if decide (t.st = .free) || (queueOf s id).any (cplWaits tag) then s
        else
          queueCpl id
            { Cpl.reset with status := BitVec.ofNat 16 status, tag := tag, gen := t.gen, forwarded := forwarded,
                             more := more, r0 := r0, r1 := r1 } s

/-- A queue with every tag free and a DELETE_QUEUE waiting is deleted; completions that its ring can no longer take are dropped
(log entry 88). A frozen one whose fetched commands have all ended, with a RESET_QUEUE waiting, returns to service: the completions it
keeps are dropped, each advancing its tag's generation (R238, R240). A channel whose QP is in ERROR goes with its last command (R269). -/
def settleQueue (id : QueueId) (s : State) : State :=
  match queueOf s id, id with
  | some q, .ring ep n =>
    match q.closer with
    | none => s
    | some t =>
      let tags := q.waiting.foldl (fun ts c => ts.modify c.tag freeTag) q.tags
      if q.st = .deleting then
        if (if q.ringBad then tags else q.tags).all fun t => t.st = .free then
          let s := { s with dcq.queues := s.dcq.queues.filter fun x => x.id ≠ id }
          finishCore (.ring ep 0) t false stSuccess 0 0 false false (recordInfo 0x0505 (srcId 1 1 0) [ep, n, 1] s)
        else s
      else if s.dcq.cmds.any fun c => decide (c.q = id) && !c.remote then s
      else
        let s := modQueue id (fun q =>
          { q with tags := tags, waiting := [], next := 0, phase := true, head := 0, unread := 0, ringBad := false,
                   st := .active, closer := none, unsignalled := 0 }) s
        finishCore (.ring ep 0) t false stSuccess 0 0 false false s
  | some _, .channel n =>
    if (qpOf s n).any (fun p => p.st = .error) && !(s.dcq.cmds.any fun c => decide (c.q = id) && !c.remote) then
      { s with dcq.queues := s.dcq.queues.filter (fun x => x.id ≠ id), net.qps := s.net.qps.filter fun p => p.qpn ≠ n }
    else s
  | none, _ => s

/-- A RETAIN waits for this earlier WRITE or DISCARD on its range (R340). -/
def retainWaits (r c : Cmd) : Bool :=
  decide (c.seq < r.seq) && decide (cmdVolume c = cmdVolume r) && (decide (cmdOpcode c = 0x02) || decide (cmdOpcode c = 0x04)) &&
    (decide (cmdCount r = 0) ||
      (decide (cmdLba c < cmdLba r + cmdCount r) && decide (cmdLba r < cmdLba c + cmdCount c)))

/-- Each RETAIN that has taken effect completes once the WRITEs and DISCARDs fetched before it on its range have ended. Its lock
travels to the peer in the map deltas before its completion (R340). -/
def settleRetains (s : State) : State :=
  (s.dcq.cmds.filter fun r => decide (cmdOpcode r = 0x07) && decide (r.st = .waiting) &&
    !(s.dcq.cmds.any fun c => retainWaits r c)).foldl
    (fun s r => finishCore r.q r.tag r.remote stSuccess 0 0 false false (sendDelta (lockDeltas r) s)) s

/-- What waited for a command's end goes on. -/
def settle (id : QueueId) (s : State) : State := settleRetains (settleQueue id s)

/-- End the fetched command or ready tag `tag` of queue `id` with a completion. -/
def finishWith (id : QueueId) (tag status : Nat) (r0 : BitVec 32) (r1 : BitVec 64) (forwarded more : Bool)
    (s : State) : State := settle id (finishCore id tag false status r0 r1 forwarded more s)

/-- End a command with a status and two results. -/
def finish (id : QueueId) (tag status : Nat) (r0 : BitVec 32) (r1 : BitVec 64) (s : State) : State :=
  finishWith id tag status r0 r1 false false s

/-- The command executed here for the peer that the peer's queue and tag name. -/
def remoteCmd (s : State) (q : QueueId) (tag : Nat) : Option Cmd :=
  s.dcq.cmds.find? fun c => c.q = q && decide (c.tag = tag) && c.remote

/-- End a command executed here for the peer: FWD_CPL carries the completion (R236, R568). -/
def finishRemote (id : QueueId) (tag status : Nat) (r0 : BitVec 32) (r1 : BitVec 64) (s : State) : State :=
  settleRetains (finishCore id tag true status r0 r1 false false s)

/-- End a command wherever it came from. -/
def endCmd (c : Cmd) (status : Nat) (r0 : BitVec 32) (r1 : BitVec 64) (s : State) : State :=
  if c.remote then finishRemote c.q c.tag status r0 r1 s else finish c.q c.tag status r0 r1 s

/-- Post the kept completions of a queue that it can take now, and let what waited on it go on. -/
def releaseQueue (id : QueueId) (s : State) : State := settleQueue id (drainQueue id s)

/-- A record of severity WARNING or higher is a device event: the longest waiting ASYNC_EVENT completes with it, or it
queues (R238, R239, R667). -/
def asyncEvent (code source : Nat) (ps : List (BitVec 32)) (s : State) : State :=
  match s.dcq.async with
  | (q, tag) :: t =>
    finishWith q tag stSuccess (w32 (code % 65536 + 65536 * (source % 65536)))
      (join64 (ps.getD 1 0) (ps.getD 0 0)) false (decide (s.dcq.events ≠ [])) { s with dcq.async := t }
  | [] =>
    { s with dcq.events := s.dcq.events ++ [{ code := code, source := source, p0 := ps.getD 0 0, p1 := ps.getD 1 0 }] }

/-- Write an Almanac record with a severity; a new one of severity WARNING or higher is a device event (R238, R667, R670). -/
def recordSev (code source : Nat) (params : List Nat) (alert : Bool) (sev : Nat) (s : State) : State :=
  let ps := paramWords params
  let (new, s) := recordCore code source ps alert sev s
  if new && decide (1 ≤ sev) then asyncEvent code source ps s else s

/-- Write an Almanac record whose event does not assert ALERT_L. -/
def record (code source : Nat) (params : List Nat) (s : State) : State :=
  recordSev code source params false (severityOf code false 0) s

/-- Write an Almanac record whose event asserts ALERT_L. -/
def recordAlert (code source : Nat) (params : List Nat) (s : State) : State :=
  recordSev code source params true (severityOf code true 0) s

/-- Close every open record (R678, R683). -/
def almCloseAll (s : State) : State :=
  ((liveRecords s).filter (·.isOpen)).foldl (fun s r => almClose r.seq s) s

/-- A record belongs to the birth region, and the region is not complete (R671, R674). -/
def toBirth (s : State) (r : AlmRecord) : Bool := (s.alm.birth.any fun b => b.seq = r.seq) && !s.alm.birthDone

/-- The oldest closed record has its place: it is written to the ring, and to the birth copies when it belongs to the birth region
(R671, R673, R674). -/
def norPut (r : AlmRecord) (s : State) : State :=
  let s := ringPut r s
  if toBirth s r then birthPut r s else s

/-- Program every record that waits, the rate limit notwithstanding (R678). -/
def norPutAll (s : State) : State :=
  s.alm.norWait.foldl (fun s r => norPut r s) { s with alm.norWait := [] }

/-- The records held in SRAM join those that wait for programming (R142). -/
def heldPush (s : State) : State := (s.alm.held.filter fun r => !r.isOpen).foldl (fun s r => norPush r s) s

/-- Close every record and program it to the NOR (R678). Before the service runs these are the records held in SRAM (R142). -/
def almSaveAll (s : State) : State :=
  if s.alm.loaded then norPutAll (almCloseAll s) else norPutAll (heldPush (almCloseAll s))

/-! ## FAILSTOP (R656) -/

/-- Every tag that is busy in a queue ends HEAD_FAILOVER_RETRY with RESULT0 = 1 000. -/
def failQueue (s : State) (q : Queue) : State :=
  (List.range 32).foldl (fun s t =>
    if (q.tags.getD t Tag.reset).st = .free then s else finish q.id t stFailoverRetry 1000 0 s) s

/-- A life-cycle request of this cycle is refused when FAILSTOP is taken (R172). -/
def lcCut (s : State) : State :=
  if s.cfg.lcBusy ∧ s.cfg.lcStep = 1 then { s with cfg.lcBusy := false, cfg.lcStep := 0, cfg.lcRefused := true } else s

/-- An ACTIVATE of this cycle is refused when FAILSTOP is taken (R696). -/
def activateCut (s : State) : State :=
  if s.upd.activating.isSome then { s with upd.activating := none, upd.cmdErr := true } else s

/-- A FATAL error: the head enters FAILSTOP from any mode, an entry to VAULT in progress included (R37, R38), with a cause and a source
identifier. LAST_GASP leaves on XHL, READY falls, commands end HEAD_FAILOVER_RETRY, record 0x1001 is written and saved. During FAILSTOP only a repeat count moves. -/
def failstop (cause source : Nat) (s : State) : State :=
  if s.glb.mode = .failstop then
    let s := { s with flt.fatalRepeats := s.flt.fatalRepeats + 1 }
    match (liveRecords s).find? fun r => decide (r.code = 0x1001) && r.isOpen with
    | some r => almMerge r.seq r.repeats s
    | none => s
  else
    let s := { s with glb.mode := .failstop, glb.service := false, flt.cause := cause, flt.causeSrc := source,
                      flt.failAt := some (now s), pwr.vaultAt := none }
    let s := activateCut (lcCut s)
    let s := xhlSend 0x0006 false false [cause, source] [] s
    let s := s.dcq.queues.foldl failQueue s
    let s := { s with wlg.holds := [], wlg.reserved := [] }
    almSaveAll (recordAlert 0x1001 source [] s)

/-! ## Sending on a module link (R429 to R439) -/

/-- DML port `p`. -/
def portOf (s : State) (p : Nat) : Med1 := s.med.ports.getD p Med1.reset

/-- Change DML port `p`. -/
def modPort (p : Nat) (f : Med1 → Med1) (s : State) : State := { s with med.ports := s.med.ports.modify p f }

/-- The lowest tag of a port that no outstanding command holds. -/
def freeDmlTag (m : Med1) : Option Nat := (List.range 1024).find? fun t => !(m.cmds.any fun c => c.tag = t)

/-- GEN a tag carries at its next use: 0 at the first, then one more modulo 8 (R439). -/
def nextDmlGen (m : Med1) (t : Nat) : Nat :=
  match m.tagGens.find? fun x => x.1 = t with
  | some x => (x.2 + 1) % 8
  | none => 0

/-- The port may send one more sequenced flit (R431). -/
def dmlRoom (m : Med1) : Bool := decide (m.st = .active) && decide (m.unacked.length < 256)

/-- One sequenced flit leaves the port. -/
def dmlFlitOut (t : Nat) (m : Med1) : Med1 :=
  { m with unacked := m.unacked ++ [(m.seqTx, 0)], seqTx := (m.seqTx + 1) % 1024,
           ackAt := if m.unacked.isEmpty then t else m.ackAt }

/-- The last sequenced flit accepted, once there is one (R427). -/
def dmlAck (m : Med1) : Option Nat := if m.rxAny then some ((m.seqRx + 1023) % 1024) else none

/-- One sequenced flit with a payload leaves the port; it is kept until it is acknowledged (R427, R431). -/
def dmlSend (p ftype finfo : Nat) (payload : List (BitVec 8)) (s : State) : State :=
  let m := portOf s p
  emit (.dmlFlit p (dmlFlit ftype finfo m.seqTx (dmlAck m) payload)) (modPort p (dmlFlitOut (now s)) s)

/-- A flit that carries no sequence number leaves the port (R428). -/
def dmlBare (p ftype : Nat) (payload : List (BitVec 8)) (s : State) : State :=
  emit (.dmlFlit p (dmlFlit ftype 0 0 (dmlAck (portOf s p)) payload)) s

/-- The next data record goes out in a WDATA flit while its credits allow (R432, R436). -/
def dmlWdOut (p : Nat) (s : State) : State :=
  match (portOf s p).wdWait with
  | [] => s
  | (tag, off, data) :: t =>
    dmlSend p 0x11 0 (dataRecord tag off data) (modPort p (fun m => { m with wdWait := t, creditWd := m.creditWd - 1 }) s)

/-- A command goes out in a CMD flit under a tag, and a PROGRAM's data records wait to follow it (R433, R435, R439). -/
def dmlCmdOut (p : Nat) (c : DmlCmd) (tag : Nat) (s : State) : State :=
  let g := nextDmlGen (portOf s p) tag
  let sent := { c with tag := tag, gen := g }
  let data := if c.opc = 2 then dataRecords (tagField tag g) c.data.length 0 c.data else []
  dmlSend p 0x10 1 (dmlCmdBytes sent) (modPort p (fun m =>
    { m with waiting := m.waiting.eraseP (· = c), creditCmd := m.creditCmd - 1, cmds := m.cmds ++ [sent]
             tagGens := (m.tagGens.filter fun x => x.1 ≠ tag) ++ [(tag, g)], wdWait := m.wdWait ++ data }) s)

/-- The ports in ACTIVE. -/
def activePorts (s : State) : List Nat := (List.range 48).filter fun p => (portOf s p).st = .active

/-! ## Whether the head owns a volume -/

/-- This head owns the volume (R569). -/
def owns (s : State) (v : Nat) : Bool := s.xhl.owned.contains v

/-! ## Host register writes (R13, R141, R656) -/

/-- A host write of a register of block `block` (its BAR0 offset divided by 64 KiB) is taken: the head is not held in
reset; until FW only GLB, CFG, ALM and UPD take writes, and in FAILSTOP only FLT, GLB and ALM do (R141, R656). -/
def hostWriteOk (s : State) (block : Nat) : Bool :=
  !s.glb.held && s.glb.hostEp &&
    (if s.glb.mode = .failstop then [0x00, 0x10, 0x11].contains block
     else s.glb.fw || [0x00, 0x03, 0x11, 0x12].contains block)

/-! ## Data that leaves toward a requester -/

/-- The regions against which an operation or a command is bound: as they stood before this cycle's commits (R267). -/
def boundRegions (s : State) : List Region := s.rma.before.elim s.rma.regions (·.1)

/-- The generation at which a binding is made now (R267). -/
def bindGen (s : State) : BitVec 32 := s.rma.before.elim s.rma.keyGen (·.2)

/-- The region that a region reference's key names, live or draining (R259, R264). -/
def regionOf (s : State) (key : BitVec 32) : Option Region :=
  s.rma.regions.find? fun r => decide (r.index = key.toNat / 256) && decide (r.gen = key.toNat % 256) && (r.live || r.drainAt.isSome)

/-- Landing-zone offset of a region reference: its key's region and the byte offset in it (R259). -/
def regionAddr (s : State) (addr : BitVec 64) : Nat :=
  ((regionOf s (hi32 addr)).elim 0 (·.base)) + (lo32 addr).toNat

/-- A command's buffers lie in the landing zone: DATA_LZ is 1 (R218). -/
def dataLz (c : Cmd) : Bool := decide (cmdFlags c / 8 % 2 = 1)

/-- Landing-zone offset of a buffer of a command, none for one in host memory (R218, R259). -/
def lzAddr (s : State) (c : Cmd) (addr : BitVec 64) : Option Nat :=
  match c.q with
  | .channel _ => some (regionAddr s addr)
  | .ring _ _ => if dataLz c then some addr.toNat else none

/-- A transfer split into requests that cross no 4 KiB boundary and have at most `m` bytes, at most `n` of them (R194). -/
def splitRead (m : Nat) : Nat → BitVec 64 → Nat → List (BitVec 64 × Nat)
  | 0, _, _ => []
  | n + 1, a, len =>
    let k := min len (min (max 1 m) (4096 - a.toNat % 4096))
    if len = 0 then [] else (a, k) :: splitRead m n (a + BitVec.ofNat 64 k) (len - k)

/-- The requests of a data write, with Relaxed Ordering where the host enables it (R194). -/
def splitWrite (e : Endpoint) (addr : BitVec 64) (data : List (BitVec 8)) : List HostPost :=
  (splitRead e.maxPayload (data.length + 1) addr data.length).map fun r =>
    { HostPost.reset with relaxed := e.relaxed, addr := r.1, data := slice data ((r.1 - addr).toNat) r.2 }

/-- A data write to host memory leaves, or waits while the endpoint is held (R194, R200). -/
def hostWriteReq (ep : Nat) (addr : BitVec 64) (data : List (BitVec 8)) (s : State) : State :=
  if epHeld (epOf s ep) then modEp ep (fun e => { e with heldWrites := e.heldWrites ++ [(addr, data)] }) s
  else (splitWrite (epOf s ep) addr data).foldl (fun s w => postReq ep w s) s

/-- Tag limit of an endpoint (R181). -/
def tagLimit (s : State) : Nat := 768 / numEps s

/-- Completion buffer of an endpoint in KiB (R181). -/
def bufferKib (s : State) : Nat := 384 / numEps s

/-- Outstanding non-posted requests an endpoint may have (R195). -/
def readLimit (s : State) (e : Endpoint) : Nat :=
  min (min (tagLimit s) e.maxTags) (if e.tenBit then 768 else if e.extTag then 256 else 32)

/-- Bytes requested and not yet received. -/
def readBytes (e : Endpoint) : Nat := e.reads.foldl (fun b x => b + x.len) 0

/-- A tag and the completion buffer allow one more read (R195). -/
def readFits (s : State) (e : Endpoint) (r : HostRead) : Bool :=
  !epHeld e && decide (e.reads.length < readLimit s e) && decide (readBytes e + r.len ≤ 1024 * min (bufferKib s) e.maxKib)

/-- The number after `last` in a rotation over the numbers listed. -/
def nextAfter (last : Nat) (l : List Nat) : Option Nat :=
  let hi := l.filter fun n => decide (last < n)
  (if hi.isEmpty then l else hi).min?

/-- The head is in PS0, and no exit to it is in progress (R40, R88, R91). -/
def inPs0 (s : State) : Bool := decide (s.pwr.curPs = 0) && s.pwr.exitGoal.isNone

/-- The head fetches commands: it works, its firmware runs, and it is in PS0 (R40, R91, R141). -/
def fetchOn (s : State) : Bool := alive s && s.glb.fw && inPs0 s

/-- Ready tags of a queue in service whose slots are not yet asked for (R214, R240). -/
def tagsToFetch (q : Queue) : List Nat :=
  if decide (q.st = .active) && !q.held then
    (List.range 32).filter fun t =>
      decide ((q.tags.getD t Tag.reset).st = .ready) && !(q.tags.getD t Tag.reset).asked && !cplWaits t q
  else []

/-- The next tag of a queue to be fetched: in rotation after the last one (R214). -/
def nextReady (q : Queue) : Option Nat := nextAfter q.lastFetched (tagsToFetch q)

/-- Number of a queue of endpoint `ep` that has a slot to fetch. -/
def queueToFetch (ep : Nat) (q : Queue) : Option Nat :=
  match q.id with
  | .ring e n => if e = ep ∧ !(tagsToFetch q).isEmpty then some n else none
  | .channel _ => none

/-- The next slot read of an endpoint: round-robin over its queues, then over the queue's tags (R214). -/
def nextSlot (s : State) (ep : Nat) : Option HostRead :=
  if fetchOn s then
    (nextAfter (epOf s ep).lastQueue (s.dcq.queues.filterMap (queueToFetch ep))).bind fun n =>
      (queueOf s (.ring ep n)).bind fun q =>
        (nextReady q).map fun t =>
          { q := q.id, tag := t, gen := (q.tags.getD t Tag.reset).gen, kind := 0, addr := q.sq + BitVec.ofNat 64 (64 * t), len := 64 }
  else none

/-- The next read of the queue engine: one that waits, else the next slot. -/
def nextEngine (s : State) (ep : Nat) : Option HostRead := ((epOf s ep).engineWait.head?).or (nextSlot s ep)

/-- The next read of an endpoint: when both paths have reads ready they take turns (R195). -/
def nextRead (s : State) (ep : Nat) : Option HostRead :=
  match nextEngine s ep, (epOf s ep).dataWait.head? with
  | some a, some b => some (if (epOf s ep).dataTurn then b else a)
  | some a, none => some a
  | none, b => b

/-- The read of a slot has been issued: its tag and its queue are the last fetched (R214). -/
def noteAsked (ep : Nat) (r : HostRead) (s : State) : State :=
  let n := match r.q with | .ring _ n => n | .channel n => n
  modEp ep (fun e => { e with lastQueue := n })
    (modQueue r.q (fun q => { q with lastFetched := r.tag, tags := q.tags.modify r.tag fun t => { t with asked := true } }) s)

/-- A read leaves. -/
def sendRead (ep : Nat) (r : HostRead) (s : State) : State :=
  let data := decide (r.kind = 2)
  let fresh := !data && (epOf s ep).engineWait.isEmpty
  let s := if fresh then noteAsked ep r s else s
  emit (.hostRead ep r.addr r.len) (modEp ep (fun e =>
    { e with
      engineWait := if data then e.engineWait else e.engineWait.drop 1
      dataWait := if data then e.dataWait.drop 1 else e.dataWait
      dataTurn := !data
      reads := e.reads ++ [r] }) s)

/-- Issue the reads that a tag and the completion buffer allow, at most `n` (R195). -/
def pumpReads (ep : Nat) : Nat → State → State
  | 0, s => s
  | n + 1, s =>
    match nextRead s ep with
    | some r => if readFits s (epOf s ep) r then pumpReads ep n (sendRead ep r s) else s
    | none => s

/-- Issue the reads of an endpoint that may be issued now. -/
def issueReads (ep : Nat) (s : State) : State := pumpReads ep (readLimit s (epOf s ep)) s

/-- Issue the reads of every endpoint that may be issued now. -/
def issueAll (s : State) : State := (List.range (numEps s)).foldl (fun s ep => issueReads ep s) s

/-- The reads of a buffer of a command in host memory (R194). -/
def readsFor (s : State) (ep : Nat) (c : Cmd) (kind : Nat) (addr : BitVec 64) (len : Nat) : List HostRead :=
  (splitRead (epOf s ep).maxReadReq (len + 1) addr len).map fun r =>
    { q := c.q, tag := c.tag, gen := c.gen, kind := kind, addr := r.1, len := r.2 }

/-- Read buffers of a command in host memory: addresses and lengths (R194, R195). -/
def hostReadReq (ep : Nat) (c : Cmd) (buffers : List (BitVec 64 × Nat)) (s : State) : State :=
  let rs := buffers.flatMap fun b => readsFor s ep c 2 b.1 b.2
  issueReads ep (modEp ep (fun e => { e with dataWait := e.dataWait ++ rs }) s)

/-- Read the page list of a command in host memory (R218). -/
def listReadReq (ep : Nat) (c : Cmd) (addr : BitVec 64) (len : Nat) (s : State) : State :=
  let rs := readsFor s ep c 1 addr len
  issueReads ep (modEp ep (fun e => { e with engineWait := e.engineWait ++ rs }) s)

/-- A read serves a tag. -/
def readOf (q : QueueId) (tag : Nat) (r : HostRead) : Bool := decide (r.q = q) && decide (r.tag = tag)

/-- The outstanding reads of a tag have been answered; the freed PCIe tags serve others (R195). -/
def readsDone (q : QueueId) (tag : Nat) (s : State) : State :=
  match q with
  | .channel _ => s
  | .ring ep _ => issueReads ep (modEp ep (fun e => { e with reads := e.reads.filter fun r => !readOf q tag r }) s)

/-- Every read of a command's data has been issued. -/
def readsIssued (s : State) (q : QueueId) (tag : Nat) : Bool :=
  match q with
  | .channel _ => true
  | .ring ep _ => !((epOf s ep).dataWait.any (readOf q tag))

/-- The reads that `p` picks are no longer wanted. -/
def dropReads (ep : Nat) (p : HostRead → Bool) (s : State) : State :=
  issueReads ep (modEp ep (fun e =>
    { e with reads := e.reads.filter (fun r => !p r), engineWait := e.engineWait.filter (fun r => !p r),
             dataWait := e.dataWait.filter fun r => !p r }) s)

/-- The reads of a command that ends early are no longer wanted. -/
def readsDropped (q : QueueId) (tag : Nat) (s : State) : State :=
  match q with
  | .channel _ => s
  | .ring ep _ => dropReads ep (readOf q tag) s

/-- Give a command's data to its buffer: a write to host memory, bytes placed in the landing zone, or FWD_DATA to the head
that received the command (R194, R218, R236, R259). -/
def deliver (c : Cmd) (addr : BitVec 64) (data : List (BitVec 8)) (s : State) : State :=
  if c.remote then xhlSend 0x0302 false false (queueArgs c.q ++ [c.tag, c.gen, 2, 0]) data s
  else
    match lzAddr s c addr, c.q with
    | some a, _ => { s with lz := memWriteBytes 0 s.lz a data }
    | none, .ring ep _ => hostWriteReq ep addr data s
    | none, .channel _ => s

/-! ## The BAR2 target spaces (R188) -/

/-- Size of a target space in bytes, 0 for a reserved code. -/
def spaceSize (s : State) (space : Nat) : Nat :=
  if space = 0 then s.img.host.lzGib * 2 ^ 30 else if space = 1 then 16 * 2 ^ 20 else 0

/-- Bytes of a target space. -/
def spaceRead (s : State) (space off len : Nat) : List (BitVec 8) :=
  if space = 0 then memBytes 0 s.lz off len else if space = 1 then memBytes 0 s.sram off len else []

/-- Write bytes into a target space. -/
def spaceWrite (space off : Nat) (bs : List (BitVec 8)) (s : State) : State :=
  if space = 0 then { s with lz := memWriteBytes 0 s.lz off bs }
  else if space = 1 then { s with sram := memWriteBytes 0 s.sram off bs }
  else s

/-! ## Staged high halves (R12) -/

/-- High half that an endpoint's commit of the 64-bit register at `off` takes: the staged one, else `dflt`. -/
def stagedHi (s : State) (ep off : Nat) (dflt : BitVec 32) : BitVec 32 :=
  ((s.hostStage.find? fun x => decide (x.1 = ep) && decide (x.2.1 = off)).map (·.2.2)).getD dflt

/-- After a commit nothing is staged: an RW register's staged half follows its high half, a WO register's is 0. -/
def dropStage (ep off : Nat) (s : State) : State :=
  { s with hostStage := s.hostStage.filter fun x => !(decide (x.1 = ep) && decide (x.2.1 = off)) }

/-- PEER_UP (R36, R577). -/
def peerUp (s : State) : Bool := decide (s.xhl.peer = .up)

end Sys2Proof.Machine
end

