-- ==== Sys2Proof/Machine/AlmanacCmds.lean ====
section
/-!
DEFINITION. The commands of the Almanac (chapter 20): closing and programming records, the reading window, clearing.
-/
namespace Sys2Proof.Machine

/-- The 8 window words of a record (R686). -/
def recordWindow (r : AlmRecord) : List (BitVec 32) :=
  (List.range 8).map fun i => w32 (leAt (recordBytes r) (4 * i) 4)

/-- A record received its SEQ in this cycle (R681). -/
def newThisCycle (s : State) (seq : BitVec 32) : Bool := decide ((s.alm.nextSeq - 1 - seq).toNat < s.alm.cycleNew)

/-- The record that the cursor chooses, and whether a region with none there reads NOT_YET (R680). -/
def almChoice (s : State) : Option AlmRecord × Bool :=
  let c := s.alm.cursor
  if s.alm.region = 2 then
    let n := s.island.records.length
    if 16 ≤ c.toNat then (none, true)
    else if c.toNat < 16 - n then (none, false)
    else (s.island.records[c.toNat - (16 - n)]?, false)
  else if !s.alm.loaded then (none, true)
  else if s.alm.region = 1 then
    if seqReached c s.alm.nextSeq then (none, true)
    else (s.alm.wake.find? fun r => decide (r.seq = c), false)
  else
    match s.alm.birth[c.toNat]? with
    | some r => (some r, false)
    | none => (none, !s.alm.birthDone)

/-- What a latch finds: a record, GONE (none with false) or NOT_YET (none with true); a record whose SEQ was assigned in this very cycle
reads NOT_YET (R680, R681). -/
def almFind (s : State) : Option AlmRecord × Bool :=
  match almChoice s with
  | (some r, b) => if newThisCycle s r.seq then (none, true) else (some r, b)
  | x => x

/-- Latch the chosen record into the window (R680). -/
def almLatch (s : State) : State :=
  match almFind s with
  | (some r, _) =>
    { s with alm.window := recordWindow r, alm.winState := if r.isOpen then 3 else 1 }
  | (none, notYet) =>
    { s with alm.window := List.replicate 8 0, alm.winState := if notYet then 8 else 4 }

/-- Write of ALM_SEL (R680, R686): region 3 is refused. -/
def almSelect (w : BitVec 32) (s : State) : State :=
  if fld w 0 2 = 3 then { s with alm.cmdErr := true } else almLatch { s with alm.region := fld w 0 2 }

/-- Write of ALM_CURSOR (R680). -/
def almCursorWrite (w : BitVec 32) (s : State) : State := almLatch { s with alm.cursor := w }

/-- Read of window word 7: its value, and the cursor advances and latches again after VALID or GONE (R681). -/
def almReadLast (s : State) : State :=
  let s' := { s with hostData := (s.alm.window.getD 7 0).setWidth 64 }
  if s.alm.winState &&& 5 = 0 then s' else almLatch { s' with alm.cursor := s.alm.cursor + 1 }

/-- Write of ALM_CLEAR (R682, R683): accepted with GO, the confirmation, in MAINTENANCE, not DECOMMISSIONED, with no
clear in progress. What waits for the birth copies still reaches them, and the ring is written from its first slot afterwards. -/
def almClear (w : BitVec 32) (s : State) : State :=
  if bitOf w 0 && decide (fld w 16 16 = Config.serial.toNat % 65536) && decide (s.glb.mode = .maintenance) &&
      decide (lifeCycle s ≠ .decommissioned) && !s.alm.clearing then
    let s := almCloseAll s
    let first := s.alm.wakeFirst
    let last := s.alm.nextSeq - 1
    let s := (s.alm.norWait.filter (toBirth s)).foldl (fun s r => birthPut r s) s
    let s := { s with alm.wake := [], island.records := [], alm.wakeFirst := s.alm.nextSeq, alm.norWait := [],
                      alm.clearing := true, alm.clearAt := 0, alm.ringPos := 0 }
    record 0x0315 (srcId 0 0 0) [first.toNat, last.toNat] s
  else { s with alm.cmdErr := true }

/-- A record has been open for 1 s (R670). -/
def execRecordClose (seq : BitVec 32) (s : State) : Host.Outcome State Fault Refusal :=
  if s.glb.held || !((liveRecords s).any fun r => decide (r.seq = seq) && decide (r.time + 1000000000 ≤ now s)) then .next s
  else .next (almClose seq s)

/-- NOR_ENTRY_PROGRAM: the oldest closed record is programmed into the ring, and into the birth copies when it belongs there, once every
record before it is closed: entries are written in SEQ order. None is programmed during a clear (R673, R674, R683). -/
def execNorEntryProgram (s : State) : Host.Outcome State Fault Refusal :=
  if s.glb.held || s.alm.clearing then .next s
  else
    match s.alm.norWait with
    | [] => .next s
    | r :: t =>
      if (liveRecords s).any fun x => x.isOpen && seqReached r.seq x.seq then .next s
      else .next (norPut r { s with alm.norWait := t })

/-- The 5-year period of device time that runs (R675). -/
def birthPeriod (s : State) : Nat := now s / (5 * 365 * 24 * 3600 * 10 ^ 9)

/-- BIRTH_REFRESH: once in each 5-year period one birth copy is erased and rewritten from the other: copy 1 in even-numbered periods,
copy 2 in odd-numbered ones (R675). -/
def execBirthRefresh (s : State) : Host.Outcome State Fault Refusal :=
  if s.glb.held || !s.alm.loaded || decide (birthPeriod s < s.alm.birthRefreshes) then .next s
  else .next (birthRewrite (birthPeriod s % 2) { s with alm.birthRefreshes := birthPeriod s + 1 })

/-- ALM_SELECT (R680). -/
def execAlmSelect (w : BitVec 32) (s : State) : Host.Outcome State Fault Refusal :=
  if hostWriteOk s 0x11 then .next (almSelect w s) else .next s

/-- ALM_CURSOR_WRITE (R680). -/
def execAlmCursorWrite (w : BitVec 32) (s : State) : Host.Outcome State Fault Refusal :=
  if hostWriteOk s 0x11 then .next (almCursorWrite w s) else .next s

/-- ALM_WINDOW_ADVANCE (R681). -/
def execAlmWindowAdvance (s : State) : Host.Outcome State Fault Refusal :=
  if s.glb.held || !s.glb.hostEp then .next s else .next (almReadLast s)

/-- ALMANAC_CLEAR (R682, R683). -/
def execAlmanacClear (w : BitVec 32) (s : State) : Host.Outcome State Fault Refusal :=
  if hostWriteOk s 0x11 then .next (almClear w s) else .next s

/-- A clear goes on: the next ring sector is erased, in ring order (R683). -/
def clearOn (s : State) : State :=
  if s.alm.clearing ∧ s.alm.clearAt < 82 then
    norFresh (ringBase + s.alm.clearAt * 65536) { s with alm.clearAt := s.alm.clearAt + 1 }
  else s

/-- CLEAR_ERASE_DONE: the erase of the 82 ring sectors, in ring order, has completed (R683). -/
def execClearEraseDone (s : State) : Host.Outcome State Fault Refusal :=
  if s.glb.held || !s.alm.clearing then .next s
  else
    let a := ringBase + s.alm.clearAt * 65536
    .next { norErase a ((82 - s.alm.clearAt) * 65536) s with alm.clearing := false, alm.clearAt := 0 }

/-- Write of an ALM register at an offset within the block. -/
def almWrite (off : Nat) (w : BitVec 32) (s : State) : State :=
  if off = 0x00 then { s with alm.cmdErr := s.alm.cmdErr && !bitOf w 5 }
  else if off = 0x04 then almSelect w s
  else if off = 0x08 then almCursorWrite w s
  else if off = 0x18 then almClear w s
  else s

end Sys2Proof.Machine
end

