-- ==== Sys2Proof/Machine/Flags.lean ====
section
/-!
DEFINITION. The status words: every flag and count that a status register composes from the state.
-/
namespace Sys2Proof.Machine

/-- Code of the operating mode (R36). -/
def modeCode : Mode → Nat
  | .starting => 0
  | .ready => 1
  | .maintenance => 2
  | .failstop => 3
  | .vault => 4

/-- GLB_IDENT (R6). -/
def glbIdent : BitVec 32 := w32 (0x7420 + 0x10000 * 0x1 + 0x100000 * 0xB + 0x1000000 * 0x1 +
  0x10000000 * b2n Config.engineeringSample)

/-- GLB_MODE (R36). -/
def glbModeWord (s : State) : BitVec 32 :=
  w32 (modeCode s.glb.mode + 8 * b2n s.glb.headSel + 16 * b2n (peerUp s) + 32 * b2n s.glb.ownAll)

/-- GLB_STRAP (R54). -/
def glbStrapWord (s : State) : BitVec 32 :=
  w32 (b2n s.glb.headSel + 2 * b2n s.glb.nvmMode + 4 * b2n s.glb.headConflict)

/-- GLB_READY (R144). -/
def glbReadyWord (s : State) : BitVec 32 :=
  w32 (b2n s.glb.clocks + 2 * b2n s.glb.cfgOk + 4 * b2n s.glb.hostEp + 8 * b2n s.glb.fw + 16 * b2n s.glb.sram +
    32 * b2n s.glb.cal + 64 * b2n s.glb.xhl + 128 * b2n s.glb.media + 256 * b2n s.glb.dram + 512 * b2n s.glb.map +
    1024 * b2n s.glb.log + 2048 * b2n s.glb.service + 65536 * s.glb.failStep)

/-- A feed supplies now (R67, R70). -/
def supplyingNow (s : State) : Bool := s.pwr.feedA.supplying || s.pwr.feedB.supplying

/-- PWR_STATUS (R100). GAUGE_VALID holds once C and ESR are measured. -/
def pwrStatusWord (s : State) : BitVec 32 :=
  w32 (s.pwr.curPs + 4 * b2n s.pwr.onMainsLoss + 8 * b2n s.pwr.flushActive + 16 * b2n s.pwr.backpressure +
    32 * b2n (s.pwr.cap.isSome && s.pwr.esr.isSome) + 64 * b2n s.pwr.lastStopClean + 128 * b2n s.pwr.islandLost +
    256 * b2n s.island.vbatLow + 512 * b2n s.pwr.psCfgErr + 1024 * b2n s.pwr.regFault)

/-- Code of a feed state (R67). -/
def feedCode : FeedState → Nat
  | .good => 0
  | .dip => 1
  | .swell => 2
  | .interrupted => 3
  | .freq => 4
  | .sensorFault => 5

/-- Code of the reference state (R112). -/
def refCode : RefState → Nat
  | .freerun => 0
  | .lockedPtp => 1
  | .lockedPps => 2
  | .followPeer => 3
  | .holdover => 4

/-- LDS_STATUS (R132). -/
def ldsStatusWord (s : State) : BitVec 32 :=
  w32 (refCode s.lds.refState + 8 * b2n s.lds.civilValid + 16 * b2n s.lds.pairLocked + 32 * b2n s.lds.leader +
    64 * b2n s.lds.stepHeld + 128 * b2n s.lds.setRefused + 256 * b2n s.lds.leapActive)

/-- CFG_STATUS (R176). -/
def cfgStatusWord (s : State) : BitVec 32 :=
  w32 (s.cfg.copyUsed + 4 * b2n s.cfg.aValid + 8 * b2n s.cfg.bValid + 16 * s.cfg.aReason + 256 * s.cfg.bReason +
    65536 * s.cfg.version)

/-- CFG_LC_STATUS (R178). -/
def lcStatusWord (s : State) : BitVec 32 :=
  w32 (lifeCycleCode (lifeCycle s) + 4 * b2n s.cfg.lcBusy + 8 * b2n s.cfg.lcRefused + 16 * s.cfg.lcStep)

/-- A queue of an endpoint is held (R200). -/
def anyHeld (s : State) (ep : Nat) : Bool :=
  s.dcq.queues.any fun q => match q.id with | .ring e _ => decide (e = ep) && q.held | .channel _ => false

/-- HEP_STATUS (R205). -/
def hepStatusWord (s : State) (ep : Nat) : BitVec 32 :=
  let e := epOf s ep
  w32 (s.img.board.bifur + 4 * ep + 16 * b2n e.linkUp + 32 * e.speed + 256 * e.width + 8192 * b2n e.flit +
    16384 * b2n (anyHeld s ep) + 32768 * b2n e.winErr + 65536 * b2n e.urSeen + 131072 * b2n e.accErr)

/-- Tags of a queue that are busy (R210). -/
def busyMask (q : Queue) : Nat :=
  ((List.range 32).filter fun t => (q.tags.getD t Tag.reset).st ≠ .free).foldl (fun n t => n + 2 ^ t) 0

/-- Number of busy tags. -/
def busyCount (q : Queue) : Nat := (q.tags.filter fun t => t.st ≠ .free).length

/-- Code of a queue's state (R244). -/
def queueCode : QueueState → Nat
  | .active => 1
  | .frozen => 2
  | .deleting => 3

/-- DCQ_Q_STATE of a queue; 0 but for PHASE while it is absent (R244). -/
def queueStateWord : Option Queue → BitVec 32
  | none => w32 (2 ^ 28)
  | some q => w32 (queueCode q.st + 4 * b2n q.held + 16 * busyCount q + 65536 * q.next + 2 ^ 28 * b2n q.phase)

/-- DCQ_Q_GEN word `j` of a queue (R245). -/
def queueGenWord (q : Queue) (j : Nat) : BitVec 32 :=
  w32 ((List.range 10).foldl (fun n i =>
    n + (if 10 * j + i < 32 then (q.tags.getD (10 * j + i) Tag.reset).gen * 2 ^ (3 * i) else 0)) 0)

/-- NET_PORT_STATUS of a port (R276). -/
def netPortWord (p : NetPort) : BitVec 32 := w32 (p.linkUp.toNat + 16 * p.mode + 64 * b2n p.pfcStuck)

/-- Connections open: queue pairs beyond INIT and not in ERROR (R253, R276). -/
def qpActive (s : State) : Nat := (s.net.qps.filter fun q => q.st ≠ .error).length

/-- RMA_STATUS (R277). -/
def rmaStatusWord (s : State) : BitVec 32 :=
  w32 (b2n s.rma.regErr + 2 * b2n s.rma.replErr + 2 ^ 14 * min 0x3FFFF (s.rma.regions.filter (·.live)).length)

/-- Frames of the log (R290, R291): none until the log is in service. -/
def logFrames (s : State) : Nat := if s.wlg.mirror = 0 then 0 else s.wlg.gib * 2 ^ 30 / 33792

/-- Frames reserved by writes not yet admitted (R302). -/
def reservedFrames (s : State) : Nat := s.wlg.reserved.foldl (fun n r => n + r.frames) 0

/-- Frames reserved, filling or logged and not yet released (R302, R313). -/
def usedFrames (s : State) : Nat := reservedFrames s + s.wlg.frames.length

/-- The dirty amount of R76, bytes (R302). -/
def dirtyBytes (s : State) : Nat := 32768 * usedFrames s

/-- WLG_STATUS (R312). -/
def wlgStatusWord (s : State) : BitVec 32 :=
  w32 (s.wlg.mirror + 4 * b2n (!s.wlg.holds.isEmpty) + 8 * b2n s.wlg.logFull + 16 * b2n s.wlg.holdTimeout +
    32 * b2n s.wlg.sizeMismatch + 64 * b2n s.wlg.cfgErr + 65536 * s.wlg.gib)

/-- The seed space of a tenant (R319). -/
def spaceOf (s : State) (t : Nat) : Option SeedSpace := s.red.spaces.find? fun x => x.tenant = t

/-- RED_STATUS (R347). -/
def redStatusWord (s : State) : BitVec 32 :=
  w32 (b2n s.red.seedReady + 2 * b2n (s.red.spaces.any (·.splitting)) + 4 * b2n s.red.collision +
    8 * b2n s.red.saturated)

/-- RED_SEED_INFO of the selected tenant (R348). -/
def seedInfoWord (s : State) : BitVec 32 :=
  match spaceOf s s.red.seedSel with
  | none => 0
  | some x => w32 (x.b + 256 * x.keySlot + 65536 * b2n x.splitting)

/-- DRAM held by all seed filters: 32 tags of 2 bytes in each bucket, split buckets included (R319, R349). -/
def filterBytes (s : State) : Nat := s.red.spaces.foldl (fun n x => n + 64 * (2 ^ x.b + x.splitPtr)) 0

/-- Unexpired locks in the array (R349). -/
def lockCount (s : State) : Nat := s.red.volumes.foldl (fun n v => n + v.locks.length) 0

/-! ## Control ports and lanes (R15, R21, R23) -/

/-- Lanes of a data engine, 0 for an index that names none (R15). -/
def engineLanes (stage engine : Nat) : Nat :=
  match stage with
  | 1 => [4, 1, 4, 1, 1, 1, 8].getD engine 0
  | 2 => [1, 40, 1, 40, 96, 1].getD engine 0
  | 3 => [1, 40, 80, 1, 1, 1].getD engine 0
  | 4 => [1, 1, 1, 1].getD engine 0
  | 5 => [48, 48, 96, 1].getD engine 0
  | _ => 0

/-- Lanes of an element of the control hierarchy or the shared infrastructure (R27). -/
def sharedLanes (stage engine : Nat) : Nat :=
  if stage = 0 then (if engine ≤ 4 then 1 else if engine = 8 then 16 else 0)
  else if stage = 6 then [12, 32, 1, 1, 2, 4].getD engine 0
  else 0

/-- Stage, engine and lane of a source identifier (R26). -/
def srcStage (src : Nat) : Nat := src / 8192 % 8
def srcEngine (src : Nat) : Nat := src / 128 % 64
def srcLane (src : Nat) : Nat := src % 128

/-- The element inside the chip that the identifier names exists (R15, R27). -/
def elementExists (src : Nat) : Bool :=
  decide (srcLane src < engineLanes (srcStage src) (srcEngine src) + sharedLanes (srcStage src) (srcEngine src))

/-- The port entry of an element; in RUN and with no history when none is listed. -/
def ctlPort (s : State) (src : Nat) : Port :=
  (s.flt.ports.find? fun p => p.src = src).getD { Port.reset with src := src }

/-- Ports that FAILSTOP leaves as they are: the PCIe endpoint, XHL and the xSPI controller (R656). -/
def failstopKeeps (src : Nat) : Bool :=
  decide (srcStage src = 1 ∧ (srcEngine src = 0 ∨ srcEngine src = 6)) ||
  decide (srcStage src = 6 ∧ srcEngine src = 3) || decide (srcStage src = 0)

/-- Power state whose conditions hold (R40): that of CUR_PS, DOZE until an exit from it has raised VDD_CORE (R88), and VAULT
while the main rails are off. -/
def powerState (s : State) : Nat := if !s.glb.rails then 3 else if s.pwr.exitGoal.isSome then 2 else s.pwr.curPs

/-- Condition of a power domain in a power state (R40). -/
def domainCond (d : PowerDomain) (ps : Nat) : DomainCond :=
  match d with
  | .acorn => .on
  | .supervisor | .controlComplex | .dram | .serdes => if ps < 3 then .on else .off
  | .frontStages => if ps = 0 then .on else if ps < 3 then .gated else .off
  | .coderStages => if ps = 0 then .on else if ps = 1 then .gated else .off

/-- Power domain of an element (R40): Reduce and Protect, the other stages, the DRAM controller, and the control hierarchy; the
rest of the shared infrastructure shares the supply of the control complex. -/
def domainOf (src : Nat) : PowerDomain :=
  match srcStage src with
  | 0 => if srcEngine src = 8 then .controlComplex else .supervisor
  | 2 => .coderStages
  | 3 => .coderStages
  | 6 => if srcEngine src = 0 then .dram else .controlComplex
  | 7 => .acorn
  | _ => .frontStages

/-- The power domain holds an engine's port in OFF: its clock is stopped or its power removed by the power state (R40), or a
flush has stopped the Ethernet ports and the Reduce stage at its step 4 (R82). It acts through the port of each engine (R21). -/
def gatedOff (s : State) (src : Nat) : Bool :=
  decide (domainCond (domainOf src) (powerState s) ≠ .on) ||
    (s.pwr.flushActive && (decide (srcStage src = 2) || (decide (srcStage src = 1) && decide (srcEngine src = 2))))

/-- State of a control port: OFF in FAILSTOP but for the ports it keeps (R656); a port in HUSK or TEST is moved by no other
member than the fault domain (R24); OFF while the power domain gates the engine; otherwise as the port holds it (R23). -/
def ctlState (s : State) (src : Nat) : CtlState :=
  let st := (ctlPort s src).st
  if decide (s.glb.mode = .failstop) && !failstopKeeps src then .off
  else if st = .husk ∨ st = .test then st
  else if gatedOff s src then .off
  else st

/-- Precedence number of a port state (R23). -/
def ctlCode : CtlState → Nat
  | .husk => 1
  | .test => 2
  | .off => 3
  | .quiesced => 4
  | .run => 5

/-- Lanes of an engine in RUN. -/
def lanesInRun (s : State) (stage engine : Nat) : Nat :=
  ((List.range (engineLanes stage engine)).filter fun l => ctlState s (srcId stage engine l) = .run).length

/-- RED_KC_STATUS (R379): no lane counts before step 8 has started the block agents. -/
def kcStatusWord (s : State) : BitVec 32 :=
  w32 ((if s.kc.lanesUp then lanesInRun s 2 3 + 64 * lanesInRun s 2 4 else 0) +
    2 ^ 13 * b2n s.kc.verifyFail + 2 ^ 14 * b2n s.kc.decodeFail + 2 ^ 15 * b2n s.kc.dictFail + 2 ^ 16 * b2n s.kc.ctlErr)

/-- RED_KC_CTL (R379). -/
def kcCtlWord (s : State) : BitVec 32 :=
  w32 (b2n s.kc.forceRaw + 2 * b2n s.kc.bearingFixed + 4 * s.kc.bearingPred)

/-- SEC_STATUS (R415). -/
def secStatusWord (s : State) : BitVec 32 :=
  w32 (b2n s.sec.drbgOk + 2 * b2n s.sec.keysReady + 4 * b2n s.sec.csErr + 8 * b2n s.sec.keyErr)

/-- SEC_CS_LOCK (R417). -/
def csLockWord (s : State) : BitVec 32 :=
  w32 (s.sec.lockToken.toNat + 65536 * s.sec.lockEp + 2 ^ 31 * b2n s.sec.lockHeld)

/-- Code of the digest service's state (R419). -/
def digCode : DigState → Nat
  | .idle => 0
  | .busy => 1
  | .done => 2
  | .cleared => 3

/-- DIG_STATUS (R419). -/
def digStatusWord (s : State) : BitVec 32 :=
  w32 (digCode s.dig.st + 4 * b2n s.dig.fixity + 8 * b2n s.dig.refused + 16 * s.dig.cause + 64 * s.dig.ep)

/-- Code of a DML port's state (R423). -/
def dmlCode : DmlState → Nat
  | .down => 0
  | .detect => 1
  | .train => 2
  | .ident => 3
  | .active => 4
  | .retrain => 5
  | .disabled => 6

/-- MED_STATUS (R463). -/
def medStatusWord (s : State) : BitVec 32 :=
  w32 ((activePorts s).length + 64 * b2n s.med.ctlErr + 128 * b2n s.med.staleCpl)

/-- MED_PORT_STATUS of a port (R464). -/
def medPortWord (m : Med1) : BitVec 32 :=
  w32 (dmlCode m.st + 8 * b2n m.present + 16 * b2n m.pg + 32 * b2n m.bridgePort + 64 * b2n m.fencedHere +
    128 * b2n m.fenceHolder + 65536 * m.resDies)

/-- MMG_STATUS (R519). -/
def mmgStatusWord (s : State) : BitVec 32 :=
  w32 (b2n (s.mmg.ledger.any fun l => l.st = .suspect) + 2 * b2n (s.mmg.ledger.any fun l => l.cls = .preempt) +
    4 * b2n (s.mmg.ledger.any fun l => l.cls = .overdue) + 8 * b2n (!s.mmg.gcDies.isEmpty) +
    16 * b2n (!s.mmg.wlDies.isEmpty) + 32 * b2n s.mmg.cfgErr)

/-- A stripe has a member that cannot be read (R538, R559). -/
def stripesDegraded (s : State) : Bool := s.ecp.stripes.any fun x => !x.unreadable.isEmpty

/-- ECP_STATUS (R559). -/
def ecpStatusWord (s : State) : BitVec 32 :=
  w32 (b2n (stripesDegraded s) + 2 * b2n s.ecp.critical + 4 * b2n s.ecp.resyncPending + 8 * b2n s.ecp.spareShort +
    16 * s.ecp.reshape + 64 * b2n s.ecp.cmdErr + 128 * b2n s.ecp.lost)

/-- Code of a maintenance activity (R554). -/
def activityCode : Activity → Nat
  | .rebuild => 0
  | .resync => 1
  | .refresh => 2
  | .gc => 3
  | .reshape => 4
  | .seedSplit => 5
  | .wl => 6
  | .patrol => 7
  | .update => 8

/-- A mask with one bit for each activity of a list. -/
def activityMask (l : List Activity) : Nat :=
  ((List.range 9).filter fun i => l.any fun a => activityCode a = i).foldl (fun n i => n + 2 ^ i) 0

/-- ECP_ACTIVITY (R560). -/
def ecpActivityWord (s : State) : BitVec 32 :=
  w32 (activityMask s.ecp.running + 65536 * activityMask (s.ecp.waiting ++ s.ecp.paused))

/-- Code of a slot's layout state (R534). -/
def modCode : ModState → Nat
  | .absent => 0
  | .joining => 1
  | .member => 2
  | .degraded => 3
  | .failed => 4
  | .draining => 5
  | .drained => 6

/-- Code of the peer's standing (R577). -/
def peerCode : PeerState → Nat
  | .unknown => 0
  | .up => 1
  | .suspect => 2
  | .lost => 3

/-- XHL_STATUS (R592). -/
def xhlStatusWord (s : State) : BitVec 32 :=
  w32 (s.xhl.link + 4 * peerCode s.xhl.peer + 16 * b2n s.xhl.quorum + 32 * b2n s.xhl.takeover +
    64 * b2n s.xhl.handover.isSome + 128 * b2n s.xhl.pairKeyOk + 256 * b2n s.xhl.cmdErr)

/-- A mask with one bit for each channel that `f` picks. -/
def chanMask (s : State) (f : Chan → Bool) : Nat :=
  ((List.range 12).filter fun c => f (s.drc.chans.getD c Chan.reset)).foldl (fun n c => n + 2 ^ c) 0

/-- DRC_STATUS (R615). -/
def drcStatusWord (s : State) : BitVec 32 :=
  w32 (chanMask s (·.trained) + 4096 * chanMask s (·.used) + 2 ^ 24 * s.drc.pop +
    2 ^ 27 * b2n (s.drc.chans.any fun c => !c.rhThrottles.isEmpty) + 2 ^ 28 * b2n s.drc.thermal +
    2 ^ 29 * b2n s.drc.ueSeen + 2 ^ 30 * b2n s.drc.cfgErr)

/-- DRC_ECC of a channel (R617). -/
def drcEccWord (c : Chan) : BitVec 32 :=
  w32 (c.ce + 65536 * c.ue + 2 ^ 24 * c.failedDev + 2 ^ 28 * b2n c.deviceFailed)

/-- DRC_TEMP of a channel (R617). -/
def drcTempWord (c : Chan) : BitVec 32 :=
  w32 (c.temp.toNat + 65536 * c.band +
    2 ^ 18 * ((List.range 4).filter fun b => c.sets.any fun d => d.band = b).foldl (fun n b => n + 2 ^ b) 0)

/-- This head is slot master: HEAD_SEL = 0 while PEER_UP is 1, otherwise each head for itself (R636). -/
def slotMaster (s : State) : Bool := if peerUp s then !s.glb.headSel else true

/-- CLE_STATUS (R641). -/
def cleStatusWord (s : State) : BitVec 32 :=
  w32 (b2n s.cle.cfgErr + 2 * b2n s.cle.satSeen + 4 * b2n s.cle.deadline + 8 * b2n (s.cle.fans.any (·.fault)) +
    16 * b2n s.cle.dieHot + 32 * b2n s.cle.slotFault + 64 * b2n (slotMaster s))

/-- Slot `n` shares its switch with its neighbour (R635). -/
def slotShared (s : State) (n : Nat) : Bool := s.img.loops.pairMask.getLsbD (n / 2)

/-- A slot is wanted on: its module is present, no head asks for it off, and it is not held off (R637). -/
def slotWanted (s : State) (n : Nat) : Bool :=
  (portOf s n).present && !s.cle.slotOff.getLsbD n && !s.cle.peerOff.getLsbD n && !(s.cle.slots.getD n SlotPwr.reset).heldOff

/-- CLE_SLOT_STATUS of a slot (R643): a wanted slot that is off is waiting. -/
def slotStatusWord (s : State) (n : Nat) : BitVec 32 :=
  let x := s.cle.slots.getD n SlotPwr.reset
  w32 ((if x.st = 0 ∧ slotWanted s n then 1 else x.st) + 4 * b2n x.pg + 8 * b2n (slotShared s n) + 16 * b2n x.fault + 32 * x.fails)

/-- CTL word of a loop (R642). -/
def loopCtlWord (l : LoopCfg) : BitVec 32 :=
  w32 (l.mode + 4 * b2n l.direct + 8 * l.satSup.toNat + 32 * b2n l.paced + 256 * l.outShift + 65536 * l.period)

/-- FLT_STATUS (R661). -/
def fltStatusWord (s : State) : BitVec 32 :=
  w32 (b2n (s.flt.ports.any fun p => p.st = .husk) + 2 * b2n (!s.flt.running.isEmpty) + 4 * b2n s.flt.queueFull +
    8 * b2n s.flt.cmdErr + 16 * b2n s.flt.wholeChip + 256 * s.flt.waiting.length)

/-- ALERT_L is low: an alert bit that is not masked, or FAILSTOP (R659). In reset the ball is high-Z, and it is not driven while the main
rails are off (R46, R49). -/
def alertLow (s : State) : Bool :=
  s.glb.rails && !s.glb.held && (decide (s.flt.alert &&& ~~~ s.flt.alertMask ≠ 0) || decide (s.glb.mode = .failstop))

/-- ALM_STATUS (R685). -/
def almStatusWord (s : State) : BitVec 32 :=
  w32 (b2n s.alm.loaded + 2 * b2n (s.alm.loaded && s.alm.birthDone) + 4 * b2n (decide (1024 < s.alm.norWait.length)) +
    8 * b2n s.alm.rateLimited + 16 * b2n s.alm.clearing + 32 * b2n s.alm.cmdErr + 65536 * if s.alm.loaded then min 4096 s.alm.birth.length else 0)

/-- Code of the update state (R707). -/
def updCode : UpdState → Nat
  | .idle => 0
  | .opened => 1
  | .checking => 2
  | .programming => 3
  | .staged => 4
  | .waiting => 5

/-- The boot record puts something on probation (R692): STATE 1 FW_PROBATION or 2 CFG_PROBATION. -/
def onProbation (s : State) : Bool :=
  match s.upd.boot with
  | some b => decide (b.st = 1 ∨ b.st = 2)
  | none => false

/-- What the head runs from is on probation (R697, R700, R703): the firmware of slot ACTIVE, or the configuration copy CFG_COPY. -/
def probationRuns (s : State) : Bool :=
  match s.upd.boot with
  | some b =>
    s.glb.fw && !s.upd.recovery && ((decide (b.st = 1) && decide (s.upd.slot = b.active)) ||
      (decide (b.st = 2) && (decide (s.cfg.copyUsed = b.cfgCopy + 1) || (decide (s.cfg.copyUsed = 3) && decide (b.cfgCopy = 0)))))
  | none => false

/-- UPD_STATUS (R707). -/
def updStatusWord (s : State) : BitVec 32 :=
  w32 (updCode s.upd.st + 8 * b2n (probationRuns s) + 16 * b2n s.upd.recovery + 32 * b2n s.upd.cmdErr +
    64 * b2n s.upd.fellBack + 128 * s.upd.slot + 256 * s.upd.reason)

end Sys2Proof.Machine
end

