-- ==== Sys2Proof/Machine/DieSched.lean ====
section
/-!
DEFINITION. The die scheduler of a module port: the order in which commands leave for the dies (R477), the shares of a module's die time
in windows of 100 ms (R517, R554, R557, R560, R631), and what the port may send (R431, R432, R439).
-/
namespace Sys2Proof.Machine

/-- Of the entries given, the one with the least key, the first of equals. -/
def leastBy {α : Type} (key : α → Nat) (l : List α) : Option α :=
  l.foldl (fun a x => match a with | none => some x | some b => if key x < key b then some x else some b) none

/-! ## Windows and die time (R517, R631) -/

/-- Number of the 100 ms window that runs. -/
def dieWindow (s : State) : Nat := now s / 100000000

/-- Dies of the module at a port (R458). -/
def portDies (s : State) (p : Nat) : Nat := leAt (portOf s p).info 6 2

/-- Die time that a kind of work has used on a module in this window, us. -/
def workUsed (s : State) (p : Nat) (w : DieWork) : Nat :=
  let m := portOf s p
  if m.useAt = dieWindow s then ((m.used.find? fun x => x.1 = w).map (·.2)).getD 0 else 0

/-- A command has kept its die busy for `us`: its work's share of the window grows, and that of programs and erases (R437, R517, R631). -/
def noteDieUse (p : Nat) (c : DmlCmd) (us : Nat) (s : State) : State :=
  let was := workUsed s p c.work
  let n := dieWindow s
  modPort p (fun m =>
    let m := if m.useAt = n then m else { m with useAt := n, used := [], wrote := 0 }
    { m with used := (m.used.filter fun x => x.1 ≠ c.work) ++ [(c.work, was + us)]
             wrote := if c.opc = 2 ∨ c.opc = 3 then m.wrote + us else m.wrote }) s

/-- Percent of the die time of a window, in us over all dies of the module. -/
def percentUs (s : State) (p pct : Nat) : Nat := pct * portDies s p * 1000

/-- Share that the MODZ loop of a module leaves to programs and erases, in percent; all before the loop's first output (R628, R631). -/
def writeCap (s : State) (p : Nat) : Nat :=
  let out := (s.cle.loops.getD (6 + p) Loop.reset).out.toNat
  if out = 0 then 100 else out

/-- Programs and erases of every class may still start on the module in this window: it is not too hot, and their cap is not used up
(R631). -/
def mayWrite (s : State) (p : Nat) : Bool :=
  !(s.cle.modHot.any fun z => z.1 = p) &&
    (decide (100 ≤ writeCap s p) || decide (portDies s p = 0) ||
      decide ((if (portOf s p).useAt = dieWindow s then (portOf s p).wrote else 0) < percentUs s p (writeCap s p)))

/-! ## Shares of the activities (R517, R554, R557, R560) -/

/-- The shares of the ECP registers: REBUILD, RESYNC, RESHAPE, cap, GC, ELEVATED, SPLIT_WL, PATROL, CRIT. -/
def shareList (e : Ecp) : List Nat :=
  [e.rebuildShare, e.resyncShare, e.reshapeShare, e.maintCap, e.gcShare, e.elevatedShare, e.splitWlShare, e.patrolShare, e.critShare]

/-- The shares in force: a write applies from the next window (R560). -/
def sharesNow (s : State) : List Nat :=
  match s.ecp.shareWas with
  | some (n, l) => if n = dieWindow s then l else shareList s.ecp
  | none => shareList s.ecp

/-- A block of the module is in a refresh class. -/
def classOn (s : State) (p : Nat) (c : RefreshClass) : Bool :=
  s.mmg.ledger.any fun l => decide (l.slot = p) && decide (l.cls = c)

/-- Refresh goes ahead of host work on the module, within its share (R517). -/
def refreshAhead (s : State) (p : Nat) : Bool := classOn s p .overdue || classOn s p .preempt

/-- A die of the module has fewer FREE blocks than half of GC_LOW percent (R554). -/
def gcUrgent (s : State) (p : Nat) : Bool :=
  s.mmg.gcDies.any fun d =>
    let l := s.mmg.ledger.filter fun x => decide (x.slot = p) && decide (x.die = d.2)
    decide (d.1 = p) && decide (200 * (l.filter fun x => x.st = .free).length < s.mmg.gcLow * (l.filter fun x => x.st ≠ .retired).length)

/-- Share of an activity on a module, in percent, before the cap (R517, R554). -/
def workShare (s : State) (p : Nat) (a : Activity) : Nat :=
  let g (i : Nat) : Nat := (sharesNow s).getD i 0
  match a with
  | .rebuild => if s.ecp.critical then g 8 else g 0
  | .resync => g 1
  | .refresh => if classOn s p .overdue then s.mmg.overdueShare else if classOn s p .preempt then s.mmg.refreshShare
      else if classOn s p .elevated then g 5 else 0
  | .gc => if gcUrgent s p then 4 * g 4 else g 4
  | .reshape => g 2
  | .seedSplit | .wl => g 6
  | .patrol => g 7
  | .update => 0

/-- An activity's share falls under MAINT_CAP (R557). -/
def underCap (s : State) (p : Nat) (a : Activity) : Bool :=
  match a with
  | .rebuild => !s.ecp.critical
  | .refresh => !refreshAhead s p
  | _ => true

/-- Die time an activity may claim on a module in the window, us: shares that together exceed MAINT_CAP are scaled down in proportion
(R557). -/
def claimUs (s : State) (p : Nat) (a : Activity) : Nat :=
  let sum := ((s.ecp.running.filter (underCap s p)).map (workShare s p)).sum
  let cap := (sharesNow s).getD 3 0
  let full := percentUs s p (workShare s p a)
  if underCap s p a && decide (cap < sum) then full * cap / sum else full

/-- An activity is within its share on a module. -/
def inShare (s : State) (p : Nat) (a : Activity) : Bool := decide (workUsed s p (.maint a) < claimUs s p a)

/-! ## The order of commands (R441, R471, R477, R517) -/

/-- Rank of an activity (R554). -/
def activityRank : Activity → Nat
  | .rebuild => 1
  | .resync => 2
  | .refresh => 3
  | .gc => 4
  | .reshape => 5
  | .seedSplit => 6
  | .wl => 7
  | .patrol => 8
  | .update => 9

/-- Place of a command among those that wait, the least first: refresh ahead of host work within its share, host reads, refresh, the
other work that claims a share, host-data programs, then garbage collection and wear levelling; work past its share comes last (R477,
R517, R557). -/
def workOrder (s : State) (p : Nat) : DieWork → Nat
  | .control => 0
  | .hostRead => 2
  | .hostProgram => 5
  | .maint a =>
    if inShare s p a then
      match a with
      | .refresh => if refreshAhead s p then 1 else 3
      | .gc | .wl => 6
      | _ => 4
    else 10 + activityRank a

/-- Host work. -/
def hostWork (c : DmlCmd) : Bool := decide (c.work = .hostRead) || decide (c.work = .hostProgram)

/-- A host command waits for the die or is outstanding on it. -/
def hostWants (s : State) (p die : Nat) : Bool :=
  ((portOf s p).cmds ++ (portOf s p).waiting).any fun c => hostWork c && decide (c.die = die)

/-- Two commands name a common block. -/
def commonBlock (a b : DmlCmd) : Bool :=
  decide (a.die = b.die) && decide (a.block = b.block) && decide (a.planes &&& b.planes ≠ 0)

/-- READ, PROGRAM or ERASE. -/
def dieArray (c : DmlCmd) : Bool := decide (c.opc = 1) || decide (c.opc = 2) || decide (c.opc = 3)

/-- An earlier command that a later one may not overtake: two of one block, unless both read, and any program before a final flagged
one (R441, R471). -/
def holdsBack (first c : DmlCmd) : Bool :=
  (dieArray first && dieArray c && !(decide (first.opc = 1) && decide (c.opc = 1)) && commonBlock first c) ||
  (c.final_ && decide (first.opc = 2))

/-- A waiting command may leave: a program or erase while the module takes them, and work past its share only while no host work wants
its die (R557, R631). -/
def dmlStarts (s : State) (p : Nat) (c : DmlCmd) : Bool :=
  (!(decide (c.opc = 2) || decide (c.opc = 3)) || mayWrite s p) &&
    (match c.work with
     | .maint a => inShare s p a || !hostWants s p c.die
     | _ => true)

/-- The command that leaves next: of those that may, the first in the scheduler's order. -/
def dmlNext (s : State) (p : Nat) : Option DmlCmd :=
  let w := (portOf s p).waiting
  let ok := (List.range w.length).filterMap fun i =>
    w[i]?.bind fun c => if dmlStarts s p c && !((w.take i).any fun x => holdsBack x c) then some c else none
  leastBy (fun c => workOrder s p c.work) ok

/-! ## What a port sends (R431, R432, R439) -/

/-- Send what the port may send, at most `n` flits: waiting commands while a command credit, a tag and the window allow,
then write data while its credits allow (R431, R432, R439). -/
def dmlPump (p : Nat) : Nat → State → State
  | 0, s => s
  | n + 1, s =>
    let m := portOf s p
    let wd := !m.wdWait.isEmpty && decide (0 < m.creditWd)
    if dmlRoom m && decide (s.glb.mode ≠ .failstop) then
      match dmlNext s p, freeDmlTag m with
      | some c, some tag =>
        if 0 < m.creditCmd then dmlPump p n (dmlCmdOut p c tag s) else if wd then dmlPump p n (dmlWdOut p s) else s
      | _, _ => if wd then dmlPump p n (dmlWdOut p s) else s
    else s

/-- Send what a port may send now. -/
def dmlRun (p : Nat) (s : State) : State := dmlPump p 256 s

/-- Give a port a command to send. -/
def dmlIssue (p : Nat) (c : DmlCmd) (s : State) : State :=
  dmlRun p (modPort p (fun m => { m with waiting := m.waiting ++ [c] }) s)

end Sys2Proof.Machine
end

