-- ==== Sys2Proof/Machine/FaultOps.lean ====
section
/-!
DEFINITION. What other chapters ask of the fault domain: a control port's state, the queue of self-tests, and the
containment of an error (R23 to R25, R645 to R653).
-/
namespace Sys2Proof.Machine

/-- Change the control port of an element; a port that has not left RUN is entered first (R21). -/
def modCtl (src : Nat) (f : Port → Port) (s : State) : State :=
  if s.flt.ports.any fun p => p.src = src then
    { s with flt.ports := s.flt.ports.map fun p => if p.src = src then f p else p }
  else { s with flt.ports := s.flt.ports ++ [f { Port.reset with src := src }] }

/-- Put an element's port in a state; a retired element's port stays OFF (R24), and one that the start holds down leaves OFF for
HUSK or TEST only (R58, R61, R146). -/
def setCtl (src : Nat) (st : CtlState) (s : State) : State :=
  modCtl src (fun p =>
    if p.retired then p
    else if p.hold ∧ st ≠ .husk ∧ st ≠ .test then { p with st := .off }
    else { p with st := st }) s

/-- Hold an element's port down until CHIP_RST_L (R58, R61, R146). -/
def holdDown (src : Nat) (s : State) : State := modCtl src (fun p => { p with hold := true, st := .off }) s

/-- The place of a request among those that wait: the oldest first, those of one cycle in ascending order of source identifier
(R652). -/
def testBefore (a b : TestReq) : Bool :=
  decide (a.reqAt < b.reqAt) || (decide (a.reqAt = b.reqAt) && decide (a.src ≤ b.src))

/-- Put a request in its place. -/
def insertTest (t : TestReq) (l : List TestReq) : List TestReq :=
  (l.filter fun x => testBefore x t) ++ t :: l.filter fun x => !testBefore x t

/-- A request joins a waiting test of its element. -/
def mergeTest (src : Nat) (host : Bool) : List TestReq → List TestReq
  | [] => []
  | t :: l =>
    if t.src = src then { t with host := t.host || host, err := t.err || !host } :: l else t :: mergeTest src host l

/-- A request for a self-test of an element that is not retired: it waits, or with 64 waiting it is merged into a waiting test of the
element, or dropped, with record 0x1007 (R652). A request of host software that is dropped has no result. -/
def addTest (src : Nat) (kind : TestKind) (host : Bool) (s : State) : State :=
  if (ctlPort s src).retired then s
  else if s.flt.waiting.length < 64 then
    { s with flt.waiting := insertTest { src := src, kind := kind, host := host, err := !host, reqAt := now s } s.flt.waiting }
  else
    let found := s.flt.waiting.any fun t => t.src = src
    let s := record 0x1007 src [] { s with flt.queueFull := true, flt.waiting := mergeTest src host s.flt.waiting }
    if host && !found then { s with flt.testState := 0 } else s

/-- A corrected event of an element: counted, and its 16th within 1 h asks for the test of the kind that produced most
of them (R645, R650). -/
def correctedEvent (src : Nat) (kind : TestKind) (s : State) : State :=
  let recent := ((ctlPort s src).corrected.filter fun e => decide (now s < e.1 + hourNs)) ++ [(now s, kind)]
  let count (k : TestKind) : Nat := (recent.filter fun e => e.2 = k).length
  let top := recent.foldl (fun k e => if count k < count e.2 then e.2 else k) kind
  let s := modCtl src (fun p => { p with corrected := recent }) s
  if 16 ≤ recent.length then addTest src top false (modCtl src (fun p => { p with corrected := [] }) s) else s

/-- The work of a lane that is frozen completes with error and is dispatched again: the chunk that an encoder lane holds is coded again
from the write log, and a decoder/verifier lane leaves the pool; a result taken in this very cycle is discarded with it (R25, R374). -/
def redispatch (src : Nat) (s : State) : State :=
  let mine (j : Job) : Bool :=
    (decide (j.stage = .kernelVerify) && decide (srcId 2 3 j.lane = src)) ||
      (decide (j.stage = .protect) && !j.container.isEmpty && decide (0 < j.verAt) && decide (j.verAt = now s) &&
        (decide (srcId 2 3 j.lane = src) || decide (srcId 2 4 j.verLane = src)))
  { s with
    flt.redispatched := s.flt.redispatched + max 1 (s.wlg.jobs.filter mine).length
    wlg.jobs := s.wlg.jobs.map fun j => if mine j then { j with stage := .encode, container := [] } else j
    kc.taken := s.kc.taken.filter fun t => srcId 2 4 t.1 ≠ src }

/-- A CONTAINED error: the element's port goes to HUSK, its work is dispatched again and its self-test is asked for at
once (R25, R645, R648). The error's own record is written by the rule that found it. -/
def contain (src : Nat) (kind : TestKind) (s : State) : State :=
  if (ctlPort s src).retired || decide ((ctlPort s src).st = .husk) then s
  else
    let cause := (liveRecords s).reverse.find? fun r => decide (r.source = src)
    addTest src kind false (redispatch src (modCtl src (fun p => { p with frozenCode := cause.map (·.code) }) (setCtl src .husk s)))

/-- An EXTERNAL error: the interface lane or port that received it is tested, and nothing is frozen (R645). -/
def externalError (src : Nat) (kind : TestKind) (s : State) : State := addTest src kind false s

/-! ## Clearing the two services (R405, R410, R414) -/

/-- End a command by its queue and tag, one executed here for the peer when `remote`. -/
def endTag (remote : Bool) (q : QueueId) (tag status : Nat) (r0 : BitVec 32) (r1 : BitVec 64) (s : State) : State :=
  if remote then finishRemote q tag status r0 r1 s else finish q tag status r0 r1 s

/-- A bus error or an alarm clears the digest service: a host job or its result goes to CLEARED with DIG_RESULT 0; a
FIXITY writes no digest and completes with `fixityStatus`, and the service is free again (R414). -/
def digClear (cause fixityStatus : Nat) (s : State) : State :=
  if s.dig.st = .busy ∨ s.dig.st = .done then
    let s := record 0x090A (srcId 3 5 0) [cause] s
    match s.dig.cmd with
    | some (q, tag) =>
      endTag s.dig.remote q tag fixityStatus 0 0
        { s with dig.st := .idle, dig.fixity := false, dig.cause := cause, dig.msg := [], dig.cmd := none,
                 dig.result := List.replicate 12 0 }
    | none =>
      { s with dig.st := .cleared, dig.cause := cause, dig.msg := [], dig.result := List.replicate 12 0 }
  else s

end Sys2Proof.Machine
end

