-- ==== Sys2Proof/Machine/MapOps.lean ====
section
/-!
DEFINITION. The map and what hangs from it: volumes and versions, map-page pairs and their sharing, reference counts,
map deltas to the peer, stripes under construction and the placing of objects in them, log lookup, lost list and locks
(chapters 09, 10, 14, 15 and R574).
-/
namespace Sys2Proof.Machine

/-! ## Lists kept in order -/

/-- Insert by a key, ascending, behind equal keys. -/
def insertBy {α : Type} (key : α → Nat) (x : α) : List α → List α
  | [] => [x]
  | y :: t => if key x < key y then x :: y :: t else y :: insertBy key x t

/-- Sort by a key, ascending; equal keys keep their order. -/
def sortBy {α : Type} (key : α → Nat) (l : List α) : List α := l.foldr (fun x t => insertBefore x t) []
where
  /-- Insert before the first element whose key is not below. -/
  insertBefore (x : α) : List α → List α
    | [] => [x]
    | y :: t => if key y < key x then y :: insertBefore x t else x :: y :: t

/-! ## Volumes and versions (R334 to R337, R489 to R491) -/

/-- Volume `v`. -/
def volOf (s : State) (v : Nat) : Option Volume := s.red.volumes.find? fun x => x.num = v

/-- Change volume `v`. -/
def modVol (v : Nat) (f : Volume → Volume) (s : State) : State :=
  { s with red.volumes := s.red.volumes.map fun x => if x.num = v then f x else x }

/-- The snapshot with a number, while it is in the list (R336). -/
def snapOf (x : Volume) (n : Nat) : Option Snapshot := x.snaps.find? fun p => decide (p.num = n) && p.listed && !p.deleting

/-- The snapshot that a READ or FIXITY fetched at device time `t` sees: one of the list, or one that has left it since (R336). -/
def snapSeen (x : Volume) (n t : Nat) : Option Snapshot :=
  x.snaps.find? fun p => decide (p.num = n) && ((p.listed && !p.deleting) || p.removedAt.any fun r => t ≤ r)

/-- Map tree of a version: 0 the live version, else a snapshot. -/
def versionTable (x : Volume) (snap : Nat) : Option (List (Nat × Nat)) :=
  if snap = 0 then some x.table else (x.snaps.find? fun p => decide (p.num = snap) && p.frozen).map (·.table)

/-- The map-page pair with an identity. -/
def pairOf (s : State) (id : Nat) : Option MapPage := s.red.pages.find? fun p => p.id = id

/-- The pair of a tree that covers a chunk (R491). -/
def pairAt (s : State) (table : List (Nat × Nat)) (chunk : Nat) : Option MapPage :=
  (table.find? fun t => t.1 = chunk / 512).bind fun t => pairOf s t.2

/-- The map entry of a chunk in a tree; none is unmapped (R489). -/
def entryIn (s : State) (table : List (Nat × Nat)) (chunk : Nat) : Option MapEntry :=
  (pairAt s table chunk).bind fun p => p.entries.find? fun e => e.chunk = chunk

/-- The recorded LSN of a chunk in a tree, 0 where none is recorded (R308, R342, R491). -/
def lsnIn (s : State) (table : List (Nat × Nat)) (chunk : Nat) : Nat :=
  match pairAt s table chunk with
  | none => 0
  | some p =>
    match p.entries.find? fun e => e.chunk = chunk with
    | some e => e.lsn
    | none => ((p.cleared.find? fun c => c.1 = chunk).map (·.2)).getD 0

/-- The live map entry of a chunk. -/
def liveEntry (s : State) (v chunk : Nat) : Option MapEntry := (volOf s v).bind fun x => entryIn s x.table chunk

/-- Every map tree: the volume and the tree. -/
def allTables (s : State) : List (Nat × List (Nat × Nat)) :=
  s.red.volumes.flatMap fun x => (x.num, x.table) :: x.snaps.map fun p => (x.num, p.table)

/-- Versions that name a pair. -/
def pairRefs (s : State) (id : Nat) : Nat :=
  ((allTables s).filter fun t => t.2.any fun e => e.2 = id).length

/-- A volume other than `v` names the pair. -/
def pairForeign (s : State) (v id : Nat) : Bool :=
  (allTables s).any fun t => decide (t.1 ≠ v) && t.2.any fun e => e.2 = id

/-- Change a pair. -/
def modPair (id : Nat) (f : MapPage → MapPage) (s : State) : State :=
  { s with red.pages := s.red.pages.map fun p => if p.id = id then f p else p }

/-- METHOD code (R489). -/
def methodCode : Method → Nat
  | .raw => 0
  | .kernel => 1
  | .zero => 3

/-- A map entry as its 64-bit word (R489). -/
def entryWord (e : MapEntry) : BitVec 64 :=
  match e.method with
  | .zero => BitVec.ofNat 64 (3 * 2 ^ 51)
  | m => BitVec.ofNat 64 (e.grain.toNat + (e.grains - 1) * 2 ^ 43 + methodCode m * 2 ^ 51 + b2n e.shared * 2 ^ 53)

/-- LOCATION of a map entry (R322). -/
def locationOf (e : MapEntry) : BitVec 64 := BitVec.ofNat 64 (e.grain.toNat + (e.grains - 1) * 2 ^ 43)

/-- Grain address of a LOCATION. -/
def locGrain (l : BitVec 64) : Nat := l.toNat % 2 ^ 43

/-- Stored length of a LOCATION, grains. -/
def locGrains (l : BitVec 64) : Nat := l.toNat / 2 ^ 43 % 256 + 1

/-! ## Map deltas (R574, R575) -/

/-- Record of a live or snapshot map entry; an unmapped chunk is sent as a deletion with its LSN. -/
def deltaEntry (v snap chunk lsn : Nat) (e : Option MapEntry) : DeltaRec :=
  { kind := 1, delete := e.isNone, volume := v, snap := snap, key := BitVec.ofNat 64 chunk, lsn := lsn,
    value := match e with | some e => leBytes 8 (entryWord e).toNat | none => [] }

/-- Record of a seed record; `none` clears the slot. -/
def deltaSeed (tenant bucket slot : Nat) (e : Option SeedSlot) : DeltaRec :=
  { kind := 5, delete := e.isNone, volume := 0, snap := 0,
    key := BitVec.ofNat 64 (bucket * 32 + slot + tenant * 2 ^ 48), lsn := 0,
    value := match e with
      | some e => (e.fp ++ List.replicate 16 0).take 16 ++ leBytes 8 e.location.toNat ++ leBytes 4 e.count ++ leBytes 4 0
      | none => [] }

/-- Record of a share record (R331). -/
def deltaShare (grain : BitVec 64) (count : Option Nat) : DeltaRec :=
  { kind := 6, delete := count.isNone, volume := 0, snap := 0, key := grain, lsn := 0,
    value := match count with | some c => leBytes 8 grain.toNat ++ leBytes 4 c ++ leBytes 4 0 | none => [] }

/-! ## Stripes (R482, R507, R524 to R531) -/

/-- Change the stripe with a serial. -/
def modStripe (serial : BitVec 64) (f : Stripe → Stripe) (s : State) : State :=
  { s with ecp.stripes := s.ecp.stripes.map fun x => if x.serial = serial then f x else x }

/-- The stripe with a serial. -/
def stripeOf (s : State) (serial : BitVec 64) : Option Stripe := s.ecp.stripes.find? fun x => x.serial = serial

/-- A grain address lies in a stripe that is not free. -/
def inStripe (x : Stripe) (grain : Nat) : Bool :=
  decide (x.st ≠ .freed) && decide (x.base ≤ grain) && decide (grain < x.base + 4096 * x.k)

/-- The stripe that holds a grain address. -/
def stripeAt (s : State) (grain : Nat) : Option Stripe := s.ecp.stripes.find? fun x => inStripe x grain

/-- A stripe with no live grain that is complete is free (R507). -/
def freeIfEmpty (x : Stripe) : Stripe := if x.live = 0 ∧ x.st = .complete then { x with st := .freed } else x

/-- Grains become free: the stripe's live grains fall (R332, R507). -/
def freeGrains (grain grains : Nat) (s : State) : State :=
  { s with ecp.stripes := s.ecp.stripes.map fun x =>
      if inStripe x grain then freeIfEmpty { x with live := x.live - grains } else x }

/-! ## Reference counts (R330 to R333) -/

/-- The highest count (R333). -/
def countMax : Nat := 0xFFFFFFF0

/-- The tenant and seed record that name a grain address. -/
def seedAt (s : State) (grain : Nat) : Option (Nat × SeedSlot) :=
  s.red.spaces.findSome? fun p =>
    (p.slots.find? fun x => locGrain x.location = grain).map fun x => (p.tenant, x)

/-- The share record of a grain address. -/
def shareAt (s : State) (grain : Nat) : Option ShareRec := s.red.shares.find? fun x => x.grain.toNat = grain

/-- Change or clear the seed record in a slot of a tenant's bucket. -/
def setSeedSlot (tenant bucket slot : Nat) (e : Option SeedSlot) (s : State) : State :=
  { s with red.spaces := s.red.spaces.map fun p =>
      if p.tenant = tenant then
        { p with slots := (p.slots.filter fun x => !(decide (x.bucket = bucket) && decide (x.slot = slot))) ++ e.toList }
      else p }

/-- Change a seed record and send the change. -/
def putSeed (tenant : Nat) (e : SeedSlot) (s : State) : State :=
  sendDelta [deltaSeed tenant e.bucket e.slot (some e)] (setSeedSlot tenant e.bucket e.slot (some e) s)

/-- Clear a seed record with its filter tag and send the change (R332). -/
def clearSeed (tenant : Nat) (e : SeedSlot) (s : State) : State :=
  sendDelta [deltaSeed tenant e.bucket e.slot none] (setSeedSlot tenant e.bucket e.slot none s)

/-- Set or delete a share record, without sending it. -/
def setShare (grain : Nat) (count : Option Nat) (s : State) : State :=
  let rest := s.red.shares.filter fun x => x.grain.toNat ≠ grain
  { s with red.shares := match count with
      | some c => insertBy (fun (x : ShareRec) => x.grain.toNat) { grain := BitVec.ofNat 64 grain, count := c } rest
      | none => rest }

/-- Set or delete a share record and send the change (R331, R332). -/
def putShare (grain : Nat) (count : Option Nat) (s : State) : State :=
  sendDelta [deltaShare (BitVec.ofNat 64 grain) count] (setShare grain count s)

/-- The count of a shared chunk is at its limit (R333). -/
def refSaturated (s : State) (grain : Nat) : Bool :=
  match seedAt s grain with
  | some (_, e) => decide (countMax ≤ e.count)
  | none => match shareAt s grain with | some x => decide (countMax ≤ x.count) | none => false

/-- The first saturation of a chunk writes record 0x0805 (R333). -/
def noteSaturated (grain : Nat) (s : State) : State :=
  if s.red.saturatedAt.contains (BitVec.ofNat 64 grain) then { s with red.saturated := true }
  else record 0x0805 (srcId 2 2 0) []
    { s with red.saturated := true, red.saturatedAt := s.red.saturatedAt ++ [BitVec.ofNat 64 grain] }

/-- One more map entry names a shared chunk (R331). -/
def raiseRef (grain : Nat) (s : State) : State :=
  if refSaturated s grain then noteSaturated grain s
  else
    match seedAt s grain with
    | some (t, e) => putSeed t { e with count := e.count + 1 } s
    | none =>
      match shareAt s grain with
      | some x => putShare grain (some (x.count + 1)) s
      | none => s

/-- One map entry fewer names a shared chunk; at 0 its grains are freed and its share record goes (R332). A seed record whose count falls
to 0 stays until the cycle ends, since a hit in the same cycle is taken first (R325). -/
def lowerRef (grain grains : Nat) (s : State) : State :=
  match seedAt s grain with
  | some (t, e) =>
    let s := putSeed t { e with count := e.count - 1 } s
    if e.count ≤ 1 then { s with red.zeroed := s.red.zeroed ++ [(grain, grains)] } else s
  | none =>
    match shareAt s grain with
    | some x =>
      if x.count ≤ 1 then freeGrains grain grains (putShare grain none s) else putShare grain (some (x.count - 1)) s
    | none => s

/-- The cycle ends: a seed record whose count is still 0 is cleared, and its grains are freed (R325, R332). -/
def clearZeroed (s : State) : State :=
  s.red.zeroed.foldl (fun s g =>
    match seedAt s g.1 with
    | some (t, e) => if e.count = 0 then freeGrains g.1 g.2 (clearSeed t e s) else s
    | none => s) { s with red.zeroed := [] }

/-- A map entry no longer names its chunk (R332). -/
def releaseEntry (e : MapEntry) (s : State) : State :=
  match e.method with
  | .zero => s
  | _ => if e.shared then lowerRef e.grain.toNat e.grains s else freeGrains e.grain.toNat e.grains s

/-! ## Changing the map (R308, R331, R335, R337) -/

/-- An entry of a pair of volume `v` that is being copied: its chunk is now named twice (R331). One whose count is at its limit is not
shared but copied: the live version's entry waits for a chunk of its own, and is not counted (R333). -/
def shareOnCopy (v : Nat) (e : MapEntry) (s : State) : State :=
  match e.method with
  | .zero => s
  | _ =>
    if !e.shared then putShare e.grain.toNat (some 2) s
    else if refSaturated s e.grain.toNat then
      noteSaturated e.grain.toNat { s with red.copies := s.red.copies ++ [(v, e.chunk)] }
    else raiseRef e.grain.toNat s

/-- Mark Shared in an entry that names a chunk. -/
def markShared (e : MapEntry) : MapEntry :=
  match e.method with
  | .zero => e
  | _ => { e with shared := true }

/-- Give the live version of volume `v` a pair of its own for page `i`: a new one where it has none, a copy where
another version shares it. The copy of a pair shared with a clone's source starts with every recorded LSN at 0 (R331,
R335, R337). With `counts` false the counts are left to the records that follow, as at a peer. -/
def ownPair (counts : Bool) (v i : Nat) (s : State) : State :=
  match volOf s v with
  | none => s
  | some x =>
    let id := s.red.nextPage
    match x.table.find? fun t => t.1 = i with
    | none =>
      modVol v (fun x => { x with table := insertBy (·.1) (i, id) x.table })
        { s with red.pages := s.red.pages ++ [{ id := id, entries := [], cleared := [] }], red.nextPage := id + 1 }
    | some (_, old) =>
      if pairRefs s old ≤ 1 then s
      else
        match pairOf s old with
        | none => s
        | some p =>
          let es := p.entries.map markShared
          let foreign := pairForeign s v old
          let mine := if foreign then es.map fun e => { e with lsn := 0 } else es
          let s := if counts then p.entries.foldl (fun s e => shareOnCopy v e s) s else s
          let s := modPair old (fun p => { p with entries := es }) s
          let s := { s with
            red.pages := s.red.pages ++ [{ id := id, entries := mine, cleared := if foreign then [] else p.cleared }]
            red.nextPage := id + 1 }
          modVol v (fun x => { x with table := x.table.map fun t => if t.1 = i then (i, id) else t }) s

/-- Put an entry, or none with a recorded LSN, in a pair. -/
def putInPair (chunk lsn : Nat) (e : Option MapEntry) (p : MapPage) : MapPage :=
  let rest := p.entries.filter fun x => x.chunk ≠ chunk
  let cl := p.cleared.filter fun c => c.1 ≠ chunk
  match e with
  | some e => { p with entries := insertBy (·.chunk) e rest, cleared := cl }
  | none => { p with entries := rest, cleared := insertBy (·.1) (chunk, lsn) cl }

/-- Note a map change not yet recorded (R484). -/
def noteMapChange (s : State) : State :=
  { s with mmg.mapChange := some (s.mmg.mapChange.getD (now s)) }

/-- Set the live map entry of a chunk, or clear it to unmapped with a recorded LSN: the pair is made the version's own,
the old reference released, the change sent (R308, R332, R335, R574). -/
def setLive (v chunk lsn : Nat) (e : Option MapEntry) (s : State) : State :=
  let s := ownPair true v (chunk / 512) s
  match volOf s v with
  | none => s
  | some x =>
    match x.table.find? fun t => t.1 = chunk / 512 with
    | none => s
    | some (_, id) =>
      let old := if s.red.copies.contains (v, chunk) then none else liveEntry s v chunk
      let s := modPair id (putInPair chunk lsn e) { s with red.copies := s.red.copies.filter (· ≠ (v, chunk)) }
      let s := match old with | some o => releaseEntry o s | none => s
      noteMapChange (sendDelta [deltaEntry v 0 chunk lsn e] s)

/-- Drop the pairs that no version names any more and release what their entries name (R332, R336). -/
def dropPairs (s : State) : State :=
  let gone := s.red.pages.filter fun p => pairRefs s p.id = 0
  let s := { s with red.pages := s.red.pages.filter fun p => !(gone.any fun g => g.id = p.id) }
  gone.foldl (fun s p => p.entries.foldl (fun s e => releaseEntry e s) s) s

/-- Record of a snapshot version (R575). -/
def deltaSnap (v : Nat) (p : Snapshot) (delete : Bool) : DeltaRec :=
  { kind := 11, delete := delete, volume := v, snap := p.num, key := BitVec.ofNat 64 p.num, lsn := 0,
    value := leBytes 8 p.cut ++ leBytes 8 (i64 p.point).toNat }

/-- Freeze the live version of a volume as a snapshot or replication cut: both name the same pairs (R335). -/
def freezeVersion (v : Nat) (p : Snapshot) (s : State) : State :=
  let s := modVol v (fun x => { x with snaps := x.snaps ++ [{ p with table := x.table }] }) s
  noteMapChange (sendDelta [deltaSnap v p false] s)

/-- An unexpired lock (R127). -/
def lockHolds (s : State) (l : Lock) : Bool := decide (highWater s < l.expiry)

/-- The locks of a volume that judge a command fetched at device time `t`: those not expired before this cycle, one that expires in it
among them (R128), and for a command fetched in this cycle those that stood before a RETAIN of the same cycle (R340). -/
def judgedLocks (s : State) (x : Volume) (t : Nat) : List Lock :=
  let ls := match s.red.before.find? fun b => b.1 = x.num with
    | some b => if t = now s then b.2 else x.locks
    | none => x.locks
  (ls.filter fun l => decide (s.lds.cycleHigh.getD (highWater s) < l.expiry)) ++
    (s.red.expiring.filter fun e => e.1 = x.num).map (·.2)

/-- Every live map entry of a volume. -/
def liveEntries (s : State) (x : Volume) : List MapEntry :=
  x.table.flatMap fun t => ((pairOf s t.2).map (·.entries)).getD []

/-- Grains that the volume's live entries name (R234). -/
def storedGrains (s : State) (x : Volume) : Nat :=
  (liveEntries s x).foldl (fun n e => match e.method with | .zero => n | _ => n + e.grains) 0

/-- Snapshots in a volume's list. -/
def listedSnaps (x : Volume) : List Snapshot := x.snaps.filter fun p => p.listed && !p.deleting && decide (p.num ≠ 0)

/-- Bytes 0 to 31 of the volume information page (R234). -/
def volInfo32 (s : State) (x : Volume) : List (BitVec 8) :=
  leBytes 8 x.size ++ leBytes 2 x.tenant ++
    leBytes 1 (if owns s x.num then b2n s.glb.headSel else 1 - b2n s.glb.headSel) ++ leBytes 1 x.k ++ leBytes 1 x.m ++
    leBytes 1 (b2n x.reduce + 2 * b2n x.dedup + 4 * b2n x.verify + 8 * b2n (x.locks.any (lockHolds s))) ++
    leBytes 2 (listedSnaps x).length ++ leBytes 8 (storedGrains s x) ++ leBytes 8 (liveEntries s x).length

/-- Record of a volume. -/
def deltaVol (s : State) (x : Volume) (delete : Bool) : DeltaRec :=
  { kind := 7, delete := delete, volume := x.num, snap := 0, key := BitVec.ofNat 64 x.num, lsn := 0,
    value := volInfo32 s x }

/-! ## Reading the log (R294) -/

/-- A frame that reads and assembly use: logged or assembled, or committed and not yet released. -/
def inLog (f : Frame) : Bool := decide (f.st = .logged) || decide (f.st = .assembled) || decide (f.st = .committed)

/-- Of the frames given, the one with the highest LSN. -/
def newest (fs : List Frame) : Option Frame :=
  fs.foldl (fun a f => match a with | none => some f | some b => if b.lsn < f.lsn then some f else some b) none

/-- The logged frame that gives sector `lba` of volume `v` (R294). -/
def frameFor (s : State) (v lba : Nat) : Option Frame :=
  newest (s.wlg.frames.filter fun f =>
    inLog f && decide (f.volume = v) && decide (f.chunk = lba / 8) && f.mask.getLsbD (lba % 8))

/-- A chunk of a volume has a logged frame. -/
def chunkLogged (s : State) (v chunk : Nat) : Bool :=
  s.wlg.frames.any fun f => inLog f && decide (f.volume = v) && decide (f.chunk = chunk)

/-! ## Lost chunks (R543, R544) -/

/-- The lost-list record of a chunk of a version. -/
def lostRec (s : State) (v chunk snap : Nat) : Option LostRec :=
  s.ecp.lostList.find? fun r => decide (r.volume = v) && decide (r.chunk = chunk) && decide (r.snap = snap)

/-- Sector `lba` of a version is lost. -/
def sectorLost (s : State) (v snap lba : Nat) : Bool :=
  match lostRec s v (lba / 8) snap with
  | some r => r.mask.getLsbD (lba % 8)
  | none => false

/-! ## Locks (R338, R339) -/

/-- Ranges of sectors overlap. -/
def overlaps (a n b m : Nat) : Bool := decide (a < b + m) && decide (b < a + n)

/-- Any sector of a range of a volume is locked for a command fetched at `t` (R338). -/
def rangeLocked (s : State) (x : Volume) (t lba count : Nat) : Bool :=
  (judgedLocks s x t).any fun l => overlaps lba count l.lba l.count

/-! ## The ledger and blocks (R478 to R480) -/

/-- The ledger entry is of a block. -/
def isBlock (l : Ledger) (slot die plane block : Nat) : Bool :=
  decide (l.slot = slot) && decide (l.die = die) && decide (l.plane = plane) && decide (l.block = block)

/-- The ledger entry of a block. -/
def ledgerOf (s : State) (slot die plane block : Nat) : Option Ledger :=
  s.mmg.ledger.find? fun l => isBlock l slot die plane block

/-- STATE code (R478). -/
def blockCode : BlockState → Nat
  | .free => 0
  | .reserve => 1
  | .opened => 2
  | .closed => 3
  | .suspect => 4
  | .retiring => 5
  | .retired => 6
  | .anchor => 7

/-- The 32 bytes of a ledger entry (R478). -/
def ledgerBytes (l : Ledger) : List (BitVec 8) :=
  leBytes 1 (blockCode l.st) ++ leBytes 1 (b2n l.ber + 2 * b2n l.disturb + 4 * b2n l.workSet + 8 * b2n l.eraseSuspended) ++
    leBytes 1 l.retrySet ++ leBytes 1 0 ++ leBytes 4 l.erases ++ leBytes 8 l.programTime ++ leBytes 8 l.age ++
    leBytes 4 l.reads ++ leBytes 4 0

/-- Slot, die, plane and block as MMG_LEDGER_SEL has them (R522). -/
def blockKey (slot die plane block : Nat) : BitVec 64 :=
  BitVec.ofNat 64 (slot % 256 + die % 256 * 2 ^ 8 + plane % 4 * 2 ^ 16 + block % 2 ^ 24 * 2 ^ 32)

/-- Record of a ledger entry. -/
def deltaLedger (l : Ledger) : DeltaRec :=
  { kind := 3, delete := false, volume := 0, snap := 0, key := blockKey l.slot l.die l.plane l.block, lsn := 0,
    value := ledgerBytes l }

/-- Change a block's ledger entry and send it to the peer (R479, R574). -/
def modBlock (slot die plane block : Nat) (f : Ledger → Ledger) (s : State) : State :=
  match ledgerOf s slot die plane block with
  | none => s
  | some l =>
    sendDelta [deltaLedger (f l)]
      { s with mmg.ledger := s.mmg.ledger.map fun x => if isBlock x slot die plane block then f x else x }

/-- Pages of a block of the module in a slot (R458). -/
def pagesPerBlock (s : State) (slot : Nat) : Nat := leAt (portOf s slot).info 38 2

/-- Raw bytes of a page of the module in a slot (R458). -/
def pageBytesOf (s : State) (slot : Nat) : Nat := leAt (portOf s slot).info 44 2

/-- Strip slots of a block (R471). -/
def slotsPerBlock (s : State) (slot : Nat) : Nat := pagesPerBlock s slot / 65

/-- Programs queued on a die (R529). -/
def diePrograms (s : State) (slot die : Nat) : Nat :=
  ((portOf s slot).cmds ++ (portOf s slot).waiting).foldl
    (fun n c => if c.opc = 2 ∧ c.die = die then n + 1 else n) 0

/-- FREE blocks of a slot outside its spare of SPARE_PCT percent of the blocks that are not RETIRED (R537). -/
def freeBeyondSpare (s : State) (slot : Nat) : Nat :=
  let l := s.mmg.ledger.filter fun x => x.slot = slot
  let spare := (l.filter fun x => x.st ≠ .retired).length * s.ecp.sparePct / 100
  (l.filter fun x => x.st = .free).length - spare

/-- This head holds the reservation of a die (R445, R479). -/
def dieHeld (s : State) (slot die : Nat) : Bool := (portOf s slot).held.getLsbD die

/-- A block that can take a strip: on a die held and not retired, an OPEN block with a strip slot left, or a FREE block with
WORK_SET (R480, R505, R529); `reserve` takes a RESERVE block instead, for a flush stripe (R75). -/
def takesStrip (s : State) (reserve : Bool) (l : Ledger) : Bool :=
  dieHeld s l.slot l.die && !s.mmg.retiredDies.contains (l.slot, l.die) && (
  (decide (l.st = .opened) && decide (l.used < slotsPerBlock s l.slot) && !reserve) ||
  (decide (l.st = if reserve then BlockState.reserve else .free) && l.workSet && decide (0 < slotsPerBlock s l.slot)))

/-- Where a strip goes on a module: the FREE block that wear levelling fills, else the die held with the fewest programs
queued, its open block first, then the block with the fewest erases (R509, R529). -/
def placeStrip (s : State) (reserve : Bool) (slot : Nat) : Option Member :=
  let at_ (l : Ledger) : Member := { slot := slot, die := l.die, plane := l.plane, strip := l.used, block := l.block }
  let cand := s.mmg.ledger.filter fun l => decide (l.slot = slot) && takesStrip s reserve l
  match cand.find? fun l => s.mmg.wlTargets.contains (l.slot, l.die, l.plane, l.block) with
  | some l => some (at_ l)
  | none =>
    match leastBy (fun l => diePrograms s slot l.die) cand with
    | none => none
    | some d =>
      (leastBy (fun l => if l.st = .opened then 0 else l.erases + 1) (cand.filter fun l => l.die = d.die)).map at_

/-- MEMBER slots. -/
def memberSlots (s : State) : List Nat :=
  (List.range s.ecp.slots.length).filter fun n => (s.ecp.slots.getD n Slot.reset).st = .member

/-- Members of a new stripe, in POSITION order: the MEMBER modules with the most FREE blocks outside the spare, ties to
the lower slot after rotation by the serial (R529). None when fewer than `n` can take a strip. -/
def chooseMembers (s : State) (reserve : Bool) (serial n : Nat) : Option (List Member) :=
  let rot (slot : Nat) : Nat := (slot + 48 - serial % 48) % 48
  let ok := (memberSlots s).filter fun m =>
    (placeStrip s reserve m).isSome && (reserve || decide (0 < freeBeyondSpare s m) ||
      (s.mmg.ledger.any fun l => decide (l.slot = m) && decide (l.st = .opened) && takesStrip s false l))
  let order := sortBy (fun m => (2 ^ 40 - freeBeyondSpare s m) * 64 + rot m) ok
  let ms := (order.take n).filterMap (placeStrip s reserve)
  if ms.length = n then some ms else none

/-- Take a strip slot of a block: it is OPEN, and CLOSED once its last slot is taken; wear levelling has then filled it (R509). -/
def takeSlot (m : Member) (s : State) : State :=
  let s := { s with mmg.wlTargets := s.mmg.wlTargets.filter fun b => b ≠ (m.slot, m.die, m.plane, m.block) }
  modBlock m.slot m.die m.plane m.block (fun l =>
    { l with used := l.used + 1, st := if l.used + 1 < slotsPerBlock s m.slot then .opened else .closed
             programTime := if l.used = 0 then now s else l.programTime }) s

/-! ## Strip numbers (R528) -/

/-- Grant the next block of 4 096 numbers to this head: only the head with HEAD_SEL = 0 grants while PEER_UP is 1, and
each head grants to itself otherwise. -/
def grantNumbers (s : State) : State :=
  if s.glb.headSel && peerUp s then s
  else if 2 ^ 31 < s.ecp.granted + 4096 then s
  else
    let b := s.ecp.granted
    sendDelta [{ kind := 8, delete := false, volume := 0, snap := 0, key := BitVec.ofNat 64 b, lsn := 0, value := [] }]
      { s with ecp.granted := b + 4096, ecp.numBlocks := s.ecp.numBlocks ++ [(b, b)] }

/-- Take `n` consecutive numbers from a block held, granting one when none has them. -/
def takeNumbers (n : Nat) (s : State) : Option (Nat × State) :=
  let fits (x : Nat × Nat) : Bool := decide (x.2 + n ≤ x.1 + 4096)
  let s := if s.ecp.numBlocks.any fits then s else grantNumbers s
  match s.ecp.numBlocks.find? fits with
  | none => none
  | some b =>
    some (b.2, { s with ecp.numBlocks := s.ecp.numBlocks.map fun x => if x = b then (x.1, x.2 + n) else x })

/-! ## Opening, filling and closing a stripe (R29, R481 to R483, R526 to R532) -/

/-- Entries of a stripe in the strip table (R482). -/
def stripEntries (x : Stripe) : List StripEntry :=
  (List.range x.k).map fun j =>
    { num := x.base / 4096 + j, member := x.members.getD j Member.reset, position := j, k := x.k, m := x.m,
      kind := x.kind, parity := if j < x.m then x.members[x.k + j]? else none, stripe := x.serial }

/-- The 8 bytes of a member location (R481). -/
def memberBytes (m : Member) : List (BitVec 8) :=
  leBytes 1 m.slot ++ leBytes 1 m.die ++ leBytes 1 m.plane ++ leBytes 1 m.strip ++ leBytes 4 m.block

/-- The 32 bytes of a strip table entry (R482). -/
def stripEntryBytes (e : StripEntry) : List (BitVec 8) :=
  memberBytes e.member ++ leBytes 1 e.position ++ leBytes 1 e.k ++ leBytes 1 e.m ++ leBytes 1 e.kind ++ leBytes 4 0 ++
    (match e.parity with | some p => memberBytes p | none => leBytes 8 0) ++ leBytes 8 e.stripe.toNat

/-- Record of a strip table entry. -/
def deltaStrip (e : StripEntry) (delete : Bool) : DeltaRec :=
  { kind := 2, delete := delete, volume := 0, snap := 0, key := BitVec.ofNat 64 e.num, lsn := 0,
    value := stripEntryBytes e }

/-- Enter the strips of a stripe in the strip table and send them. -/
def enterStrips (x : Stripe) (s : State) : State :=
  let es := stripEntries x
  sendDelta (es.map fun e => deltaStrip e false)
    { s with mmg.strips := (s.mmg.strips.filter fun t => !(es.any fun e => e.num = t.num)) ++ es }

/-- Open a stripe for a geometry and KIND (R526 to R529); none when it cannot open, with record 0x0C0D. -/
def openStripe (k m kind : Nat) (s : State) : Option Stripe × State :=
  let n := (memberSlots s).length
  if n < m + 4 then (none, record 0x0C0D (srcId 4 3 0) [] s)
  else
    let k' := min k (n - m)
    let ctr := s.ecp.counter + 1
    match chooseMembers s (decide (kind = 2)) ctr (k' + m), takeNumbers k' s with
    | some ms, some (num, s) =>
      let s := if k' < k then record 0x0C01 (srcId 4 3 0) [] s else s
      let x : Stripe :=
        { Stripe.reset with
          serial := BitVec.ofNat 64 (ctr + b2n s.glb.headSel * 2 ^ 63), base := num * 4096, k := k', m := m,
          head := s.glb.headSel, kind := kind, geomK := k, members := ms, wseq := s.mmg.wpSeq,
          strips := List.replicate k' [] }
      let s := { s with ecp.counter := ctr, ecp.stripes := s.ecp.stripes ++ [x] }
      (some x, enterStrips x (ms.foldl (fun s m => takeSlot m s) s))
    | _, _ => (none, record 0x0C0D (srcId 4 3 0) [] s)

/-- Bytes of a strip. -/
def stripBytes : Nat := 1048576

/-- Pad a strip with filler grains (R526). -/
def padStrip (b : List (BitVec 8)) : List (BitVec 8) := b ++ List.replicate (stripBytes - b.length) 0

/-- Put bytes into the strips from strip `j` on, up to each strip's end. -/
def pourBytes (j : Nat) (bs : List (BitVec 8)) (strips : List (List (BitVec 8))) : List (List (BitVec 8)) :=
  let room := stripBytes - (strips.getD j []).length
  let strips := strips.modify j (· ++ bs.take room)
  if bs.length ≤ room then strips else strips.modify (j + 1) (· ++ bs.drop room)

/-- The 24 bytes of a trailer entry (R483). -/
def trailerEntryBytes (x : Stripe) (e : TrailerEntry) : List (BitVec 8) :=
  leBytes 2 e.volume ++ leBytes 1 (e.method + 4 * b2n e.shared + 8 * b2n e.moved + 16 * e.kind) ++
    leBytes 1 (e.len - 1) ++ leBytes 2 ((e.grain.toNat - x.base) % 4096) ++ leBytes 2 0 ++ leBytes 8 e.chunk ++
    leBytes 8 e.lsn

/-- Entries whose first grain lies in data strip `j`. -/
def entriesOf (x : Stripe) (j : Nat) : List TrailerEntry :=
  x.entries.filter fun e => (e.grain.toNat - x.base) / 4096 = j

/-- The trailer page of the strip at a position (R481, R530). -/
def trailerPage (x : Stripe) (pos programTime : Nat) : List (BitVec 8) :=
  let es := if pos < x.k then entriesOf x pos else []
  let body := leBytes 4 0x534C5254 ++ leBytes 2 1 ++ leBytes 2 es.length ++ leBytes 8 x.serial.toNat ++ leBytes 8 x.base ++
    leBytes 1 pos ++ leBytes 1 x.k ++ leBytes 1 x.m ++ leBytes 1 (b2n x.head) ++ leBytes 1 x.kind ++ leBytes 3 0 ++
    leBytes 8 programTime ++ leBytes 8 (x.wseq + b2n x.head * 2 ^ 63) ++
    ((x.members.flatMap memberBytes) ++ List.replicate 192 0).take 192 ++ List.replicate 272 0 ++
    ((es.flatMap (trailerEntryBytes x)) ++ List.replicate 15864 0).take 15864
  body ++ leBytes 4 (crc32c body).toNat

/-- A PROGRAM command of one page (R434, R436). -/
def programCmd (w : DieWork) (m : Member) (page pageBytes : Nat) (final : Bool) (data : List (BitVec 8)) : DmlCmd :=
  { DmlCmd.reset with
    work := w, opc := 2, final_ := final, die := m.die, planes := BitVec.ofNat 8 (2 ^ m.plane), block := m.block, page := page,
    length := pageBytes, data := data }

/-- Program page `i` of the strip at a member location with `d`, encoded and scrambled like any other page (R434, R441). -/
def programPage (w : DieWork) (m : Member) (i : Nat) (final : Bool) (d : List (BitVec 8)) (s : State) : State :=
  let pb := pageBytesOf s m.slot
  dmlIssue m.slot (programCmd w m (65 * m.strip + i) pb final (pageRaw m.die m.plane m.block (65 * m.strip + i) pb d)) s

/-- Program the trailer of the strip at position `pos` as a final flagged command, and the pages past the last slot of the block
when it took that one (R441, R471, R481). -/
def programTrailer (w : DieWork) (x : Stripe) (pos : Nat) (s : State) : State :=
  let m := x.members.getD pos Member.reset
  let s := programPage w m 64 true (trailerPage x pos (now s)) s
  if m.strip + 1 = slotsPerBlock s m.slot then
    (List.range (pagesPerBlock s m.slot - 65 * (m.strip + 1))).foldl (fun s i =>
      programPage w m (65 + i) false (List.replicate 16384 0) s) s
  else s

/-- Program the strip at position `pos`: its 64 data pages in ascending order, then its trailer (R441, R471, R530). -/
def programStrip (w : DieWork) (x : Stripe) (pos : Nat) (bytes : List (BitVec 8)) (s : State) : State :=
  let m := x.members.getD pos Member.reset
  programTrailer w x pos ((List.range 64).foldl (fun s i => programPage w m i false (slice bytes (16384 * i) 16384) s) s)

/-- The activity whose die time a relocation uses (R506, R554). -/
def relocWork : RelocCause → Activity
  | .gc | .retire | .suspect => .gc
  | .wl => .wl
  | .refresh => .refresh
  | .reshape | .drain => .reshape
  | .lost => .rebuild

/-- Whose work the programs of a stripe are: those of one that holds relocated objects alone count to what relocates them, the others
as host data (R477, R554). -/
def stripeWork (s : State) (x : Stripe) : DieWork :=
  if x.kind = 0 && !x.entries.isEmpty && x.entries.all (·.moved) then
    match s.mmg.relocs.find? fun r => inStripe x r.new.toNat with
    | some r => .maint (relocWork r.cause)
    | none => if s.ecp.shadow.any fun p => inStripe x p.2.toNat then .maint .reshape else .hostProgram
  else .hostProgram

/-- The stripe takes waypoint records, page by page; it closes when its last record is programmed (R485). -/
def recordStripe (s : State) (serial : BitVec 64) : Bool := s.mmg.stream.stripes.contains serial

/-- Close an open stripe: filler to the end of every strip, parity, and every strip programmed (R29, R526, R530,
R532). -/
def closeStripe (serial : BitVec 64) (s : State) : State :=
  match stripeOf s serial with
  | none => s
  | some x =>
    if x.st = .opened then
      let data := x.strips.map padStrip
      let x := { x with st := .closed, strips := data, programTime := now s }
      let s := modStripe serial (fun _ => x) s
      let all := data ++ (List.range x.m).map fun i => parityStrip i data
      (List.range all.length).foldl (fun s pos => programStrip (stripeWork s x) x pos (all.getD pos []) s) s
    else s

/-- Fill of an open stripe at which an object of `n` grains may start: the next grain, or the next strip when the
present one holds 661 entries (R483). None when the stripe has no room (R482). -/
def roomFor (x : Stripe) (n : Nat) : Option Nat :=
  let j := x.fill / 4096
  let f := if 661 ≤ (entriesOf x j).length then 4096 * (j + 1) else x.fill
  if f + n ≤ 4096 * x.k then some f else none

/-- Place an object in an open stripe at fill `f`. -/
def placeAt (x : Stripe) (f : Nat) (bytes : List (BitVec 8)) (e : TrailerEntry) (t : Nat) : Stripe :=
  let n := bytes.length / 256
  let strips := if f = x.fill then x.strips else x.strips.modify (x.fill / 4096) padStrip
  { x with
    strips := pourBytes (f / 4096) bytes strips
    fill := f + n
    live := x.live + n
    openedAt := some (x.openedAt.getD t)
    entries := x.entries ++ [{ e with grain := BitVec.ofNat 43 (x.base + f), len := n }] }

/-- This head's open stripe of a geometry and KIND (R526). -/
def openOf (s : State) (k m kind : Nat) : Option Stripe :=
  s.ecp.stripes.find? fun x =>
    decide (x.st = .opened) && decide (x.geomK = k) && decide (x.m = m) && decide (x.kind = kind) &&
    decide (x.head = s.glb.headSel)

/-- A stripe takes no further object: every grain is used, or its last data strip holds 661 entries (R483, R526). -/
def stripeFull (x : Stripe) : Bool :=
  decide (4096 * x.k ≤ x.fill) || (decide (4096 * (x.k - 1) ≤ x.fill) && decide (661 ≤ (entriesOf x (x.k - 1)).length))

/-- Place an object of whole grains in the open stripe of a geometry and KIND, closing a full one and opening the next:
its grain address, or none while no stripe of the geometry can open (R526, R527). A stripe that is filled closes. -/
def placeObject (k m kind : Nat) (bytes : List (BitVec 8)) (e : TrailerEntry) (s : State) : Option Nat × State :=
  let n := bytes.length / 256
  let put (x : Stripe) (f : Nat) (s : State) : Option Nat × State :=
    let x' := placeAt x f bytes e (now s)
    let s := modStripe x.serial (fun _ => x') s
    (some (x.base + f), if stripeFull x' then closeStripe x.serial s else s)
  let fresh (s : State) : Option Nat × State :=
    match openStripe k m kind s with
    | (some x, s) => put x 0 s
    | (none, s) => (none, s)
  match openOf s k m kind with
  | some x =>
    match roomFor x n with
    | some f => put x f s
    | none => fresh (closeStripe x.serial s)
  | none => fresh s

/-- The geometry a volume takes in the reshape: a target of 0 keeps its own (R560). -/
def targetGeom (s : State) (x : Volume) : Nat × Nat :=
  (if s.ecp.targetK = 0 then x.k else s.ecp.targetK, if s.ecp.targetM = 0 then x.m else s.ecp.targetM)

/-- The geometry a volume's chunks are placed with: the target's while it is to be reshaped (R526, R549). -/
def geomOf (s : State) (v : Nat) : Nat × Nat :=
  match volOf s v with
  | some x => if s.ecp.reshape = 1 ∧ s.ecp.reshapeVols.contains v then targetGeom s x else (x.k, x.m)
  | none => (s.ecp.defK, s.ecp.defM)

/-- FLUSH_K and FLUSH_M of flush stripes; FLUSH_M is never below the largest M of any volume (R531). -/
def flushGeom (s : State) : Nat × Nat := (s.ecp.flushK, s.red.volumes.foldl (fun a x => max a x.m) s.ecp.flushM)

/-! ## Free blocks (R471, R480, R507) -/

/-- A block has a live strip: a member of a stripe that is not free lies in it. -/
def blockLive (s : State) (l : Ledger) : Bool :=
  s.ecp.stripes.any fun x => decide (x.st ≠ .freed) &&
    x.members.any fun m => decide (m.slot = l.slot) && decide (m.die = l.die) && decide (m.plane = l.plane) &&
      decide (m.block = l.block)

/-- A command outstanding on a block, or a read bound to it (R507). -/
def blockBusy (s : State) (l : Ledger) : Bool :=
  (s.mmg.reads.any fun r => isBlock l r.slot r.die r.plane r.block) ||
  ((portOf s l.slot).cmds ++ (portOf s l.slot).waiting).any fun c =>
    decide (c.die = l.die) && decide (c.block = l.block) && c.planes.getLsbD l.plane

/-- An ERASE command of a block, as refresh work of a block that was due and as garbage collection otherwise (R434, R477, R515). -/
def eraseCmd (l : Ledger) : DmlCmd :=
  { DmlCmd.reset with work := .maint (if l.cls = .notDue then .gc else .refresh), opc := 3, die := l.die, planes := BitVec.ofNat 8 (2 ^ l.plane), block := l.block }

/-- Erase the CLOSED and SUSPECT blocks in the work set, of dies held, that hold no live strip and that no read is bound to
(R480, R504, R507). -/
def eraseFree (s : State) : State :=
  (s.mmg.ledger.filter fun l =>
    ((decide (l.st = .closed) && decide (0 < l.used)) || decide (l.st = .suspect)) && l.workSet && dieHeld s l.slot l.die &&
      !blockLive s l && !blockBusy s l).foldl
    (fun s l => dmlIssue l.slot (eraseCmd l) s) s

end Sys2Proof.Machine
end

