-- ==== Sys2Proof/Machine/Arbiter.lean ====
section
/-!
DEFINITION. The maintenance arbiter: which background activities may run together, and how they are admitted, wait and
pause (R554 to R556).
-/
namespace Sys2Proof.Machine

/-- Source identifier of the maintenance domain controller (R27). -/
def maintSrc : Nat := srcId 0 4 0

/-- Activities of array scope (R554). -/
def arrayScope : Activity → Bool
  | .rebuild | .resync | .reshape | .patrol | .update => true
  | .refresh | .gc | .seedSplit | .wl => false

/-- The matrix of R555: two different activities may run together. -/
def compatible (a b : Activity) : Bool :=
  match a, b with
  | .refresh, _ | _, .refresh | .gc, _ | _, .gc => true
  | .update, _ | _, .update => false
  | .seedSplit, _ | _, .seedSplit => true
  | .wl, .patrol | .patrol, .wl | .wl, .wl => true
  | .rebuild, .resync | .resync, .rebuild => true
  | _, _ => false

/-- This head admits the activity: an array-scope one only at HEAD_SEL 0 while PEER_UP is 1 (R554). -/
def admitsHere (s : State) (a : Activity) : Bool := !arrayScope a || !(s.glb.headSel && peerUp s)

/-- An activity is compatible with every running one. -/
def mayRun (s : State) (a : Activity) : Bool := s.ecp.running.all fun b => decide (a = b) || compatible a b

/-- Admit one waiting activity; REBUILD and RESYNC pause what they are incompatible with (R556). -/
def admitOne (a : Activity) (s : State) : State :=
  if s.pwr.flushActive || !admitsHere s a || !s.ecp.waiting.contains a then s
  else
    let stop := s.ecp.running.filter fun b => decide (a = .rebuild ∨ a = .resync) && !compatible a b && decide (a ≠ b)
    let s := if stop.isEmpty then s
      else record 0x0C0A maintSrc []
        { s with ecp.running := s.ecp.running.filter (fun b => !stop.contains b), ecp.paused := s.ecp.paused ++ stop }
    if mayRun s a then
      record 0x0C0A maintSrc []
        { s with ecp.waiting := s.ecp.waiting.filter (· ≠ a), ecp.running := s.ecp.running ++ [a] }
    else s

/-- Resume one paused activity that the matrix allows again (R556). -/
def resumeOne (a : Activity) (s : State) : State :=
  if !s.pwr.flushActive && s.ecp.paused.contains a && mayRun s a then
    { s with ecp.paused := s.ecp.paused.filter (· ≠ a), ecp.running := s.ecp.running ++ [a] }
  else s

/-- Waiting activities in order of request, those of one cycle in order of rank (R556). -/
def waitOrder (s : State) : List Activity :=
  sortBy (fun a => ((s.ecp.askedAt.find? fun x => x.1 = a).map (·.2)).getD 0 * 16 + activityRank a) s.ecp.waiting

/-- One pass of the arbiter: REBUILD and RESYNC first, then paused activities, then the others in order of request. -/
def maintAdmit (s : State) : State :=
  let s := admitOne .resync (admitOne .rebuild s)
  let s := s.ecp.paused.foldl (fun s a => resumeOne a s) s
  (waitOrder s).foldl (fun s a => admitOne a s) s

/-- An activity is requested: it waits until the arbiter admits it (R556). -/
def requestActivity (a : Activity) (s : State) : State :=
  if (s.ecp.running ++ s.ecp.waiting ++ s.ecp.paused).contains a then s
  else record 0x0C0A maintSrc []
    { s with ecp.waiting := s.ecp.waiting ++ [a], ecp.askedAt := (s.ecp.askedAt.filter fun x => x.1 ≠ a) ++ [(a, now s)] }

/-- An activity ends. -/
def endActivity (a : Activity) (s : State) : State :=
  { s with ecp.running := s.ecp.running.filter (· ≠ a), ecp.waiting := s.ecp.waiting.filter (· ≠ a),
           ecp.paused := s.ecp.paused.filter (· ≠ a) }

/-- The arbiter admits what the matrix allows now (R556). -/
def execMaintAdmit (s : State) : Host.Outcome State Fault Refusal :=
  if alive s then .next (maintAdmit s) else .next s

end Sys2Proof.Machine
end

