-- ==== Sys2Proof/Machine/HostPort.lean ====
section
/-!
DEFINITION. What a PCIe endpoint presents to its host: the configuration space (R183, R184), the errors that AER reports (R196), and
the requests that are not served (R186, R189, R203). Where R183 and R184 give a capability and its offset only, the layout within it
is that of the PCIe Base Specification 6.0 (PRESUMED, log entry 90).
-/
namespace Sys2Proof.Machine

/-- Source identifier of an endpoint's DMA lane (R15, R182). -/
def epSrc (ep : Nat) : Nat := srcId 1 0 ep

/-- Lanes of an endpoint (R181). -/
def epLanes (s : State) : Nat := 16 / numEps s

/-- The endpoint is one of the bifurcation mode and in use (R157, R181). -/
def epInUse (s : State) (ep : Nat) : Bool :=
  !s.glb.held && decide (ep < numEps s) && (!s.img.applied || s.img.board.epEn.getLsbD ep)

/-- The endpoint takes requests: in use, its link up, the part out of reset and ready to train (R139, R144). -/
def epServes (s : State) (ep : Nat) : Bool := epInUse s ep && (epOf s ep).linkUp && s.glb.hostEp

/-- Memory requests are decoded: Memory Space Enable is 1 (R203). An endpoint in D3hot decodes none either, as the PCIe Base
Specification has it (PRESUMED, log entry 90). -/
def memOn (s : State) (ep : Nat) : Bool := (epOf s ep).mse && !(epOf s ep).d3

/-! ## Advanced Error Reporting (R196) -/

/-- Uncorrectable errors that AER reports, by their bits in its status register: Data Link Protocol Error, Poisoned TLP Received, Flow
Control Protocol Error, Completion Timeout, Completer Abort, Unexpected Completion, Receiver Overflow, Malformed TLP, Unsupported
Request and Uncorrectable Internal Error. -/
def uncErrors : List Nat := [4, 12, 13, 14, 15, 16, 17, 18, 20, 22]

/-- Correctable errors that AER reports: Receiver Error, Bad TLP, Bad DLLP, Replay Num Rollover, Replay Timer Timeout, Advisory
Non-Fatal, Corrected Internal Error and Header Log Overflow. -/
def corErrors : List Nat := [0, 6, 7, 8, 12, 13, 14, 15]

/-- A correctable error: its status bit, and ERR_COR unless it is masked or its reporting is disabled. -/
def aerCorrectable (ep bit : Nat) (s : State) : State :=
  let e := epOf s ep
  let s := modEp ep (fun e => { e with aerCor := putBit e.aerCor bit true }) s
  if !e.corMask.getLsbD bit && e.errEn.getLsbD 0 then emit (.errorMsg ep 0) s else s

/-- An uncorrectable error: its status bit, and a message of its severity. One of severity non-fatal that its requester learns of by a
completion is an Advisory Non-Fatal Error, and signals as a correctable one. -/
def aerUncorrectable (ep bit : Nat) (answered : Bool) (s : State) : State :=
  let e := epOf s ep
  let fatal := e.uncSev.getLsbD bit
  let s := modEp ep (fun e => { e with aerUnc := putBit e.aerUnc bit true }) s
  if answered && !fatal then
    if e.uncMask.getLsbD bit then modEp ep (fun e => { e with aerCor := putBit e.aerCor 13 true }) s else aerCorrectable ep 13 s
  else if !e.uncMask.getLsbD bit && (e.serr || e.errEn.getLsbD (if fatal then 2 else 1)) then
    emit (.errorMsg ep (if fatal then 2 else 1)) s
  else s

/-! ## Requests that are not served (R186, R189, R203) -/

/-- A read is answered Completer Abort, a write dropped; record 0x0405 and ACC_ERR (R186). AER reports Completer Abort. -/
def accessError (ep : Nat) (write : Bool) (s : State) : State :=
  let s := if write then s else emit (.completerAbort ep) s
  record 0x0405 (epSrc ep) [ep] (aerUncorrectable ep 15 (!write) (modEp ep (fun e => { e with accErr := true }) s))

/-- A request outside the windows: a read is answered Unsupported Request, a write dropped and reported; record 0x0404 with
the address, which HEP_UR_ADDR keeps while UR_SEEN is 0 (R189). -/
def outside (ep : Nat) (write : Bool) (addr : BitVec 64) (s : State) : State :=
  let s := if write then s else emit (.unsupported ep) s
  let s := modEp ep (fun e => { e with urSeen := true, urAddr := if e.urSeen then e.urAddr else addr }) s
  record 0x0404 (epSrc ep) [ep, addr.toNat, addr.toNat / 2 ^ 32] (aerUncorrectable ep 20 (!write) s)

/-- A BAR0 write through an endpoint at an offset that a command names: taken when memory requests are decoded, outside the windows
when they are not (R203). -/
def barWrite (ep off : Nat) (f : State → State) (s : State) : State :=
  if epServes s ep then
    if memOn s ep then f s else outside ep true ((epOf s ep).bar0 + BitVec.ofNat 64 off) s
  else s

/-- A BAR0 write of a register through an endpoint, in a block that takes writes now (R141, R203, R656). -/
def regWrite (ep off : Nat) (f : State → State) (s : State) : State :=
  barWrite ep off (fun s => if hostWriteOk s (off / 0x10000) then f s else s) s

/-! ## The configuration space (R183, R184) -/

/-- Size of the BAR that begins at a configuration offset (R183). -/
def barSize (s : State) (off : Nat) : Nat :=
  if off < 0x18 then 0x2000000 else if off < 0x20 then 2 ^ 30 * (64 / numEps s) else 0x4000

/-- A header word of a capability: its identifier, the next capability, and the upper half. -/
def capHead (id next upper : Nat) : BitVec 32 := w32 (id + 256 * next + 65536 * upper)

/-- A header word of an extended capability: identifier, version and next capability. -/
def extHead (id ver next : Nat) : BitVec 32 := w32 (id + 65536 * ver + 2 ^ 20 * next)

/-- Exponent that Device Control uses for a size of 128 bytes or more. -/
def sizeCode (n : Nat) : Nat := (n / 128).log2

/-- The type 0 header (R183). -/
def headerWord (s : State) (ep off : Nat) : BitVec 32 :=
  let e := epOf s ep
  match off with
  | 0x00 => w32 (0x1F5C + 65536 * (if numEps s = 1 then 0x7420 else 0x7421))
  | 0x04 => w32 (2 * b2n e.mse + 4 * b2n e.bme + 256 * b2n e.serr + 2 ^ 20)
  | 0x08 => w32 (0xB1 + 256 * 0x018000)
  | 0x10 => lo32 e.bar0 ||| 4
  | 0x14 => hi32 e.bar0
  | 0x18 => lo32 e.bar2 ||| 12
  | 0x1C => hi32 e.bar2
  | 0x20 => lo32 e.bar4 ||| 4
  | 0x24 => hi32 e.bar4
  | 0x2C => w32 (s.img.host.subsysVendor.toNat + 65536 * s.img.host.subsysId.toNat)
  | 0x34 => 0x40
  | _ => 0

/-- The capabilities below 0x100 (R184). -/
def capWord (s : State) (ep off : Nat) : BitVec 32 :=
  let e := epOf s ep
  let x16 := decide (numEps s = 1)
  match off with
  | 0x40 => capHead 1 (if x16 then 0x50 else 0x70) 3
  | 0x44 => w32 ((if e.d3 then 3 else 0) + 8)
  | 0x50 => if x16 then capHead 5 0x70 (b2n e.msiEn + 2 * 5 + 16 * e.msiVecs.log2 + 128 + 256) else 0
  | 0x54 => if x16 then lo32 e.msiAddr else 0
  | 0x58 => if x16 then hi32 e.msiAddr else 0
  | 0x5C => if x16 then e.msiData.setWidth 32 else 0
  | 0x60 => if x16 then e.msiMask else 0
  | 0x64 => if x16 then w32 ((List.range 32).foldl (fun n i => n + (if e.pba.getD i false then 2 ^ i else 0)) 0) else 0
  | 0x70 => capHead 0x10 0xB0 2
  | 0x74 => w32 (2 + 32 + 2 ^ 15)
  | 0x78 =>
    w32 (e.errEn.toNat + 16 * b2n e.relaxed + 32 * sizeCode e.maxPayload + 256 * b2n e.extTag + 4096 * sizeCode e.maxReadReq)
  | 0x7C => w32 ((if s.img.applied then s.img.host.maxRate else 6) + 16 * epLanes s + 2 ^ 11)
  | 0x80 => w32 (65536 * e.speed + 2 ^ 20 * e.width)
  | 0x94 => w32 (0xF + 2 ^ 16 + 2 ^ 17)
  | 0x98 => w32 (4096 * b2n e.tenBit)
  | 0xB0 => capHead 0x11 0 (256 + 2 ^ 14 * b2n e.msixMask + 2 ^ 15 * b2n e.msixEn)
  | 0xB4 => 4
  | 0xB8 => 0x2004
  | _ => 0

/-- The extended capabilities (R184). -/
def extWord (s : State) (ep off : Nat) : BitVec 32 :=
  let e := epOf s ep
  match off with
  | 0x100 => extHead 1 2 0x200
  | 0x104 => e.aerUnc
  | 0x108 => e.uncMask
  | 0x10C => e.uncSev
  | 0x110 => e.aerCor
  | 0x114 => e.corMask
  | 0x200 => extHead 3 1 0x210
  | 0x204 => lo32 Config.serial
  | 0x208 => hi32 Config.serial
  | 0x210 => extHead 0x19 1 0x260
  | 0x260 => extHead 0x25 1 0x270
  | 0x264 => w32 (1 + 2 ^ 31)
  | 0x270 => extHead 0x26 1 0x2A0
  | 0x2A0 => extHead 0x2A 1 0x2D0
  | 0x2D0 => extHead 0x31 1 0x300
  | 0x300 => extHead 0x27 1 0x350
  | 0x350 => extHead 0x2F 1 0x360
  | 0x360 => extHead 0x32 1 0
  | _ => 0

/-- A word of the configuration space. -/
def configWord (s : State) (ep off : Nat) : BitVec 32 :=
  if off < 0x40 then headerWord s ep off else if off < 0x100 then capWord s ep off else extWord s ep off

/-- A BAR takes the bits of an address above its size. -/
def barAddr (s : State) (off : Nat) (v : BitVec 64) : BitVec 64 := v &&& ~~~ BitVec.ofNat 64 (barSize s off - 1)

/-- A host write of a word of the configuration space. Mask and severity registers are honoured as written (R196). Bus Master Enable
and the power state change by commands of their own. -/
def configWrite (s : State) (off : Nat) (w : BitVec 32) (e : Endpoint) : Endpoint :=
  match off with
  | 0x04 => { e with mse := bitOf w 1, serr := bitOf w 8 }
  | 0x10 => { e with bar0 := barAddr s 0x10 (join64 (hi32 e.bar0) w) }
  | 0x14 => { e with bar0 := barAddr s 0x10 (join64 w (lo32 e.bar0)) }
  | 0x18 => { e with bar2 := barAddr s 0x18 (join64 (hi32 e.bar2) w) }
  | 0x1C => { e with bar2 := barAddr s 0x18 (join64 w (lo32 e.bar2)) }
  | 0x20 => { e with bar4 := barAddr s 0x20 (join64 (hi32 e.bar4) w) }
  | 0x24 => { e with bar4 := barAddr s 0x20 (join64 w (lo32 e.bar4)) }
  | 0x50 => if numEps s = 1 then { e with msiEn := bitOf w 16, msiVecs := 2 ^ min 5 (fld w 20 3) } else e
  | 0x54 => { e with msiAddr := join64 (hi32 e.msiAddr) (w &&& 0xFFFFFFFC) }
  | 0x58 => { e with msiAddr := join64 w (lo32 e.msiAddr) }
  | 0x5C => { e with msiData := w.setWidth 16 }
  | 0x60 => { e with msiMask := w }
  | 0x78 =>
    { e with errEn := w.setWidth 4, relaxed := bitOf w 4, maxPayload := 128 * 2 ^ min 2 (fld w 5 3), extTag := bitOf w 8,
             maxReadReq := 128 * 2 ^ min 5 (fld w 12 3) }
  | 0x98 => { e with tenBit := bitOf w 12 }
  | 0xB0 => { e with msixMask := bitOf w 30, msixEn := bitOf w 31 }
  | 0x104 => { e with aerUnc := e.aerUnc &&& ~~~w }
  | 0x108 => { e with uncMask := w }
  | 0x10C => { e with uncSev := w }
  | 0x110 => { e with aerCor := e.aerCor &&& ~~~w }
  | 0x114 => { e with corMask := w }
  | _ => e

/-- Host writes of the configuration space, in order: offset and word. -/
def configWrites (s : State) (ws : List (Nat × BitVec 32)) (e : Endpoint) : Endpoint :=
  ws.foldl (fun e x => configWrite s x.1 x.2 e) e

end Sys2Proof.Machine
end

