-- ==== Sys2Proof/Machine/Security.lean ====
section
/-!
DEFINITION. Security (chapter 12): the key store, tenant keys and serials, the DRBG and the alarms, the cipher service and
the digest service.
-/
namespace Sys2Proof.Machine

/-- Source identifiers of the cipher and digest services (R15). -/
def csSrcId : Nat := srcId 3 4 0
def digSrcId : Nat := srcId 3 5 0

/-! ## Keys (R392 to R397) -/

/-- A key record of the array as a map delta: KEY_INDEX, KEY_EPOCH and the key wrapped under the array key (R495). -/
def deltaKey (s : State) (index epoch : Nat) (key : Option (List (BitVec 8))) : DeltaRec :=
  { kind := 10, delete := key.isNone, volume := 0, snap := 0, key := BitVec.ofNat 64 index, lsn := epoch,
    value := match key, s.sec.arrayKey with
      | some k, some a => kwBytes a k
      | _, _ => [] }
where
  /-- 40 bytes of a wrapped key. -/
  kwBytes (a k : List (BitVec 8)) : List (BitVec 8) := (Config.kwWrap a k ++ List.replicate 40 0).take 40

/-- Service slot `n` as it stands; an empty one when it was never assigned. -/
def keySlotOf (s : State) (n : Nat) : KeySlot :=
  (s.sec.slots.find? fun x => x.num = n).getD { KeySlot.reset with num := n }

/-- Put a service slot. -/
def putKeySlot (x : KeySlot) (s : State) : State :=
  { s with sec.slots := (s.sec.slots.filter fun y => y.num ≠ x.num) ++ [x] }

/-- 256 bits of the DRBG (R404). -/
def drawKey (s : State) : List (BitVec 8) × State :=
  (Config.drbg s.sec.drbgCount, { s with sec.drbgCount := s.sec.drbgCount + 1 })

/-- A slot or table entry changes: SEC_KEY_GEN advances (R397). -/
def keyGenUp (s : State) : State := { s with sec.keyGen := s.sec.keyGen + 1 }

/-- The service slots are about to change in this cycle (R397). -/
def noteKeys (s : State) : State := { s with sec.before := some (s.sec.before.getD (s.sec.slots, s.sec.keyGen)) }

/-- The slot and the generation that a binding made now takes: those before this cycle's changes (R397). -/
def boundSlot (s : State) (n : Nat) : KeySlot :=
  ((s.sec.before.elim s.sec.slots (·.1)).find? fun x => x.num = n).getD { KeySlot.reset with num := n }
def boundGen (s : State) : BitVec 32 := s.sec.before.elim s.sec.keyGen (·.2)

/-- SEC_KEY_DRAIN (R397). -/
def keyDrain (s : State) : BitVec 32 := s.sec.bindings.headD s.sec.keyGen

/-- R395 forbids a host command on the slot: it holds a dedup key, or an enabled replication link names it. -/
def slotForbidden (s : State) (n : Nat) : Bool :=
  (keySlotOf s n).dedup.isSome || s.rma.links.any fun l => l.enable && decide (l.keySlot = n)

/-- A LOAD or GENERATE restarts the slot's counters, raises KEY_EPOCH and ends KEY_EXHAUSTED (R273, R396). -/
def freshKey (key : List (BitVec 8)) (n : Nat) (s : State) : State :=
  let s := noteKeys s
  let x := keySlotOf s n
  let x := { x with key := key, present := true, csCounter := 1, epoch := x.epoch + 1 }
  let s := putKeySlot x s
  let stuck := s.rma.links.any fun l => decide (l.keySlot = n) && decide (l.st = 4)
  let s := { s with rma.links := s.rma.links.map fun l =>
    if l.keySlot = n then { l with counter := 1, st := if l.st = 4 then (if l.qpn.isSome then 2 else 1) else l.st } else l }
  if stuck then record 0x0607 (srcId 1 3 0) [] s else s

/-- An accepted key command: the generation, the record, and the wrapped copy for the peer (R393, R396, R397). -/
def keyChanged (op n : Nat) (s : State) : State :=
  let x := keySlotOf s n
  let s := record 0x0905 (srcId 3 4 0) [n, op, 0] (keyGenUp s)
  noteMapChange (sendDelta [deltaKey s (n + 3 * 65536) x.epoch (if x.present then some x.key else none)] s)

/-- Bytes of SEC_KEY_DATA (R416). -/
def keyDataBytes (s : State) : List (BitVec 8) := s.sec.keyData.flatMap fun w => leBytes 4 w.toNat

/-- The end of a GENERATE, once the DRBG issues (R396, R404). -/
def generateNow (n : Nat) (s : State) : State :=
  let (k, s) := drawKey s
  keyChanged 3 n (freshKey k n { s with sec.keyWait := none })

/-- A key command: 1 LOAD, 2 LOAD_WRAPPED, 3 GENERATE, 4 ZEROISE. SEC_KEY_DATA is cleared whatever the outcome
(R396, R416). A GENERATE waits while the DRBG does not issue (R404). -/
def keyCmd (op n kek : Nat) (s : State) : State :=
  let data := keyDataBytes s
  let s := { s with sec.keyData := List.replicate 10 0 }
  let refuse := { s with sec.keyErr := true }
  if s.sec.keyWait.isSome || decide (n = 0) || decide (256 ≤ n) || slotForbidden s n then refuse
  else if op = 1 then keyChanged 1 n (freshKey (data.take 32) n s)
  else if op = 2 then
    let k := keySlotOf s kek
    if k.present then
      match Config.kwUnwrap k.key (data.take 40) with
      | some key => keyChanged 2 n (putKeySlot { keySlotOf s n with key := key, present := true } (noteKeys s))
      | none => refuse
    else refuse
  else if op = 3 then
    if s.sec.drbgOk then generateNow n s else { s with sec.keyWait := some n }
  else if op = 4 then keyChanged 4 n (putKeySlot { keySlotOf s n with key := [], present := false } (noteKeys s))
  else refuse

/-- KEY_LOAD (R396). -/
def execKeyLoad (slot : Nat) (s : State) : Host.Outcome State Fault Refusal :=
  if hostWriteOk s 0x09 then .next (keyCmd 1 slot 0 s) else .next s

/-- KEY_LOAD_WRAPPED (R396). -/
def execKeyLoadWrapped (slot kek : Nat) (s : State) : Host.Outcome State Fault Refusal :=
  if hostWriteOk s 0x09 then .next (keyCmd 2 slot kek s) else .next s

/-- KEY_GENERATE (R396). -/
def execKeyGenerate (slot : Nat) (s : State) : Host.Outcome State Fault Refusal :=
  if hostWriteOk s 0x09 then .next (keyCmd 3 slot 0 s) else .next s

/-- KEY_ZEROISE (R396). -/
def execKeyZeroise (slot : Nat) (s : State) : Host.Outcome State Fault Refusal :=
  if hostWriteOk s 0x09 then .next (keyCmd 4 slot 0 s) else .next s

/-! ## Tenant keys (R318, R394, R395) -/

/-- The XTS key pair of a tenant. -/
def tenantKey (s : State) (t : Nat) : Option TenantKey := s.sec.tenants.find? fun x => x.tenant = t

/-- Draw a second half that differs from the first (R394); a DRBG that repeats itself is drawn again once. -/
def drawOther (k : List (BitVec 8)) (s : State) : List (BitVec 8) × State :=
  let (b, s) := drawKey s
  if b = k then drawKey s else (b, s)

/-- The key pair of a tenant's first volume (R394). -/
def createTenantKeys (t : Nat) (s : State) : State :=
  if (tenantKey s t).isSome then s
  else
    let (a, s) := drawKey s
    let (b, s) := drawOther a s
    let s := { s with sec.tenants := s.sec.tenants ++ [{ tenant := t, key1 := a, key2 := b }] }
    let s := record 0x0906 (srcId 3 1 0) [t] (keyGenUp s)
    sendDelta [deltaKey s t 0 (some a), deltaKey s (t + 65536) 0 (some b)] s

/-- The pair is destroyed with the tenant's last volume (R394). -/
def destroyTenantKeys (t : Nat) (s : State) : State :=
  if (tenantKey s t).isSome then
    let s := { s with sec.tenants := s.sec.tenants.filter fun x => x.tenant ≠ t }
    let s := record 0x0906 (srcId 3 1 0) [t] (keyGenUp s)
    sendDelta [deltaKey s t 0 none, deltaKey s (t + 65536) 0 none] s
  else s

/-- The highest free service slot: never assigned or cleared, and named by no enabled link (R395). -/
def freeKeySlot (s : State) : Option Nat :=
  ((List.range 255).map fun i => 255 - i).find? fun n =>
    !(keySlotOf s n).present && !(s.rma.links.any fun l => l.enable && decide (l.keySlot = n))

/-- Create a tenant's dedup key in a free slot: the slot, or none when no slot is free (R318, R395). -/
def createDedupKey (t : Nat) (s : State) : Option (Nat × List (BitVec 8)) × State :=
  match freeKeySlot s with
  | none => (none, s)
  | some n =>
    let (k, s) := drawKey s
    let s := putKeySlot { keySlotOf s n with key := k, present := true, dedup := some t } (noteKeys s)
    (some (n, k), sendDelta [deltaKey s (t + 2 * 65536) 0 (some k)] (keyGenUp s))

/-- Delete a tenant's dedup key (R318). -/
def deleteDedupKey (t : Nat) (s : State) : State :=
  match s.sec.slots.find? fun x => x.dedup = some t with
  | none => s
  | some x =>
    let s := putKeySlot { x with key := [], present := false, dedup := none } (noteKeys s)
    sendDelta [deltaKey s (t + 2 * 65536) 0 none] (keyGenUp s)

/-! ## Serials (R400, R401) -/

/-- Reserve the next block of 2^32 serials while fewer than 2^28 remain (R401). -/
def reserveSerials (s : State) : State :=
  if s.sec.serialEnd - s.sec.serial < 2 ^ 28 then
    record 0x0909 (srcId 3 1 0) [] { s with sec.serialEnd := s.sec.serialEnd + 2 ^ 32, island.serialEnd := s.sec.serialEnd + 2 ^ 32 }
  else s

/-- The next serial: bit 63 is HEAD_SEL (R400). Past 2^63 - 2^32 the head enters FAILSTOP instead (R401). -/
def takeSerial (s : State) : Option (BitVec 64) × State :=
  let s := reserveSerials s
  if 2 ^ 63 - 2 ^ 32 ≤ s.sec.serial then (none, failstop 6 (srcId 3 1 0) s)
  else
    (some (BitVec.ofNat 64 (s.sec.serial + b2n s.glb.headSel * 2 ^ 63)), { s with sec.serial := s.sec.serial + 1 })

/-! ## Alarms and the DRBG (R404 to R406) -/

/-- The cipher service aborts its job, and its output, IV and tag read 0; so does the output of a job that ended in this very cycle
(R406). -/
def csAbort (s : State) : State :=
  let ended := s.sec.csOut.any fun o => o.1 = now s
  let busy := decide (s.sec.csState = 1) || ended
  let s := match s.sec.csOut with
    | some (t, space, off, n) => if t = now s then spaceWrite space off (List.replicate n 0) { s with sec.csResult := 0 } else s
    | none => s
  { s with
    sec.csOut := none
    sec.csJob := none, sec.csIv := [0, 0, 0], sec.csTag := [0, 0, 0, 0]
    sec.csState := if busy then 3 else s.sec.csState
    sec.bindings := if decide (s.sec.csState = 1) then s.sec.bindings.drop 1 else s.sec.bindings }

/-- Raise alarm `bit`: SEC_ALARM, record 0x0903 and ALERT_L, and both services cleared (R405, R406, R414). -/
def secAlarm (bit src : Nat) (s : State) : State :=
  let s := { s with sec.alarm := s.sec.alarm ||| BitVec.ofNat 5 (2 ^ bit) }
  digClear 2 stNotReady (csAbort (recordAlert 0x0903 src [bit] s))

/-- An event at device time `t` was less than `ns` ago. -/
def within (s : State) (t : Option Nat) (ns : Nat) : Bool :=
  match t with
  | some t => decide (now s < t + ns)
  | none => false

/-- A clock period outside 10 %; repeated within 1 s, FAILSTOP (R405). -/
def execClkGlitch (s : State) : Host.Outcome State Fault Refusal :=
  if alive s then
    let again := within s s.sec.clkAt (10 ^ 9)
    let s := secAlarm 0 (srcId 0 3 0) { s with sec.clkAt := some (now s) }
    if again then .next (failstop 6 (srcId 0 3 0) s) else .next s
  else .next s

/-- VDD_CORE leaves its band for 2 ns; repeated within 1 s, FAILSTOP (R405). -/
def execVoltGlitch (s : State) : Host.Outcome State Fault Refusal :=
  if alive s then
    let again := within s s.sec.voltAt (10 ^ 9)
    let s := secAlarm 1 (srcId 0 3 0) { s with sec.voltAt := some (now s) }
    if again then .next (failstop 6 (srcId 0 3 0) s) else .next s
  else .next s

/-- A share check fails in the lane `src`, which enters HUSK (R403, R405). -/
def execMaskFault (src : Nat) (s : State) : Host.Outcome State Fault Refusal :=
  if alive s && elementExists src then .next (contain src .datapath (secAlarm 2 src s)) else .next s

/-- A parity check of the key store fails: the keys are reloaded from their wrapped copies, or FAILSTOP (R405). -/
def execKeyStore (reloadOk : Bool) (s : State) : Host.Outcome State Fault Refusal :=
  if alive s then
    let s := secAlarm 4 csSrcId s
    if reloadOk then .next s else .next (failstop 6 csSrcId s)
  else .next s

/-- A DRBG health failure: it stops issuing and its source is tested; a second within 60 s is lasting (R404). -/
def drbgFailure (s : State) : State :=
  let again := within s s.sec.drbgFailAt (60 * 10 ^ 9)
  let s := record 0x0904 csSrcId [] { s with sec.drbgOk := false, sec.drbgFailAt := some (now s) }
  let s := secAlarm 3 csSrcId s
  if again then failstop 6 csSrcId s else addTest csSrcId .drbg false s

/-- DRBG_FAIL (R404). -/
def execDrbgFail (s : State) : Host.Outcome State Fault Refusal :=
  if alive s then .next (drbgFailure s) else .next s

/-- The DRBG retries with a fresh seed after the self-test of its source: within 10 ms service resumes and what waits goes on, else it
has failed again (R404). -/
def execDrbgRetry (ok : Bool) (s : State) : Host.Outcome State Fault Refusal :=
  if alive s && !s.sec.drbgOk && !((s.flt.waiting ++ s.flt.running).any fun t => t.kind = .drbg) then
    if ok && within s s.sec.drbgFailAt 10000001 then
      let s := record 0x0904 csSrcId []
        { s with sec.drbgOk := true, sec.drbgReseeds := s.sec.drbgReseeds + 1, sec.drbgAt := now s, sec.drbgFrom := s.sec.drbgCount }
      match s.sec.keyWait with
      | some n => .next (generateNow n s)
      | none => .next s
    else .next (drbgFailure s)
  else .next s

/-- The DRBG reseeds after 2^20 requests or 1 s (R404). -/
def execDrbgReseed (s : State) : Host.Outcome State Fault Refusal :=
  if alive s && s.sec.drbgOk && (decide (s.sec.drbgFrom + 2 ^ 20 ≤ s.sec.drbgCount) || decide (s.sec.drbgAt + 10 ^ 9 ≤ now s)) then
    .next { s with sec.drbgReseeds := s.sec.drbgReseeds + 1, sec.drbgAt := now s, sec.drbgFrom := s.sec.drbgCount }
  else .next s

/-! ## The cipher service (R407 to R410) -/

/-- Release the lock other than by its holder's write, with record 0x0907; its cause has no stated coding (R407). -/
def csUnlock (s : State) : State :=
  let (v, s) := takeFree s
  record 0x0907 csSrcId [v.toNat % 2 ^ 32] { s with sec.lockHeld := false, sec.lockToken := 0, sec.lockEp := 0 }

/-- A write of SEC_CS_LOCK through an endpoint (R407). -/
def csLockWrite (ep : Nat) (w : BitVec 32) (s : State) : State :=
  let t := fld w 0 16
  if s.sec.lockHeld then
    if t = 0 ∧ ep = s.sec.lockEp then { s with sec.lockHeld := false, sec.lockToken := 0, sec.lockEp := 0 } else s
  else if t = 0 then s
  else { s with sec.lockHeld := true, sec.lockToken := BitVec.ofNat 16 t, sec.lockEp := ep, sec.lockAt := now s }

/-- CS_LOCK (R407). -/
def execCsLock (ep : Nat) (w : BitVec 32) (s : State) : Host.Outcome State Fault Refusal :=
  .next (regWrite ep 0x90100 (csLockWrite ep w) s)

/-- The lock has been held for 10 s with no job started (R407). -/
def execCsLockTimeout (s : State) : Host.Outcome State Fault Refusal :=
  if alive s && s.sec.lockHeld && decide (s.sec.csState ≠ 1) && decide (s.sec.lockAt + 10 ^ 10 ≤ now s) then .next (csUnlock s) else .next s

/-- The 12 bytes of a SEAL IV (R409). -/
def sealIv (s : State) (slot counter : Nat) : List (BitVec 8) :=
  leBytes 2 slot ++ leBytes 1 (b2n s.glb.headSel) ++ leBytes 1 1 ++ leBytes 8 counter

/-- Words of bytes, byte 4i in bits [7:0] of word i. -/
def wordsOf (n : Nat) (bs : List (BitVec 8)) : List (BitVec 32) := (List.range n).map fun i => w32 (leAt bs (4 * i) 4)

/-- A write of SEC_CS_CMD: it starts a job or is refused (R408). A job reads its source once and is bound to its key
(R397, R410). A slot that holds a dedup key holds no service key (R392). -/
def csGo (op : Bool) (token slot srcSpace dstSpace : Nat) (s : State) : State :=
  let x := boundSlot s slot
  let refuse := { s with sec.csErr := true, sec.csResult := if s.sec.csState = 1 then s.sec.csResult else 3 }
  let src := s.sec.csSrc.toNat
  let dst := s.sec.csDst.toNat
  let ok := s.sec.lockHeld && decide (token = s.sec.lockToken.toNat) && decide (s.sec.csState ≠ 1) && x.present &&
    x.dedup.isNone && decide (slot ≠ 0) && decide (s.sec.csLen ≤ 1048576) && decide (s.sec.csAadLen ≤ 65536) &&
    decide (s.sec.csAadLen ≤ s.sec.csLen) && decide (srcSpace < 2) && decide (dstSpace < 2) &&
    decide (src + s.sec.csLen ≤ spaceSize s srcSpace) &&
    decide (dst + (s.sec.csLen - s.sec.csAadLen) ≤ spaceSize s dstSpace) && (op || decide (x.csCounter < 2 ^ 63))
  if ok then
    let bytes := spaceRead s srcSpace src s.sec.csLen
    let iv := if op then (s.sec.csIv.flatMap fun w => leBytes 4 w.toNat) else sealIv s slot x.csCounter
    let s := if op || decide (keySlotOf s slot ≠ x) then s else putKeySlot { x with csCounter := x.csCounter + 1 } s
    { s with
      sec.csState := 1, sec.csResult := 0, sec.bindings := s.sec.bindings ++ [boundGen s], sec.lockAt := now s
      sec.csJob := some { open_ := op, slot := slot, dstSpace := dstSpace, dst := dst, key := x.key,
                          aad := bytes.take s.sec.csAadLen, text := bytes.drop s.sec.csAadLen, iv := iv
                          tag := s.sec.csTag.flatMap fun w => leBytes 4 w.toNat } }
  else refuse

/-- CS_SEAL (R408, R409). -/
def execCsSeal (token slot srcSpace dstSpace : Nat) (s : State) : Host.Outcome State Fault Refusal :=
  if hostWriteOk s 0x09 then .next (csGo false token slot srcSpace dstSpace s) else .next s

/-- CS_OPEN (R408, R410). -/
def execCsOpen (token slot srcSpace dstSpace : Nat) (s : State) : Host.Outcome State Fault Refusal :=
  if hostWriteOk s 0x09 then .next (csGo true token slot srcSpace dstSpace s) else .next s

/-- A job ends: its output goes to the destination, an OPEN only with its tag verified (R410). -/
def execCsJobDone (s : State) : Host.Outcome State Fault Refusal :=
  match s.sec.csJob with
  | some j =>
    if alive s && s.sec.drbgOk then
      let s := { s with sec.csJob := none, sec.csState := 2, sec.bindings := s.sec.bindings.drop 1 }
      if j.open_ then
        match Config.gcmOpen j.key j.iv j.aad j.text j.tag with
        | some p =>
          .next (spaceWrite j.dstSpace j.dst p { s with sec.csResult := 1, sec.csOut := some (now s, j.dstSpace, j.dst, p.length) })
        | none => .next (record 0x0908 csSrcId [] { s with sec.csResult := 2 })
      else
        let (ct, tag) := Config.gcmSeal j.key j.iv j.aad j.text
        .next (spaceWrite j.dstSpace j.dst ct
          { s with sec.csResult := 1, sec.csIv := wordsOf 3 j.iv, sec.csTag := wordsOf 4 tag
                   sec.csOut := some (now s, j.dstSpace, j.dst, ct.length) })
    else .next s
  | none => .next s

/-! ## The digest service (R411 to R413) -/

/-- The digest of a message: 1 SHA-256, 2 SHA-384 (R412, R419). -/
def digestOf (alg : Nat) (msg : List (BitVec 8)) : List (BitVec 8) :=
  if alg = 1 then Config.sha256 msg else Config.sha384 msg

/-- START of a host job through an endpoint (R411, R412). The message is read at the start. -/
def digStart (ep alg space : Nat) (s : State) : State :=
  let ok := decide (s.dig.st = .idle) && (decide (alg = 1) || decide (alg = 2)) && decide (1 ≤ s.dig.len) &&
    decide (s.dig.len ≤ 2 ^ 30) && decide (space < 2) && decide (s.dig.src.toNat + s.dig.len ≤ spaceSize s space)
  if ok then
    { s with dig.st := .busy, dig.fixity := false, dig.cause := 0, dig.ep := ep, dig.alg := alg, dig.doneBytes := 0
             dig.msg := spaceRead s space s.dig.src.toNat s.dig.len, dig.cmd := none, dig.startAt := some (now s)
             dig.result := List.replicate 12 0 }
  else { s with dig.refused := true }

/-- DIGEST_START (R412). -/
def execDigestStart (ep alg space : Nat) (s : State) : Host.Outcome State Fault Refusal :=
  .next (regWrite ep 0xA0004 (digStart ep alg space) s)

/-- The service is free and holds no result. -/
def digIdle (cause : Nat) (s : State) : State :=
  { s with dig.st := .idle, dig.fixity := false, dig.cause := cause, dig.msg := [], dig.cmd := none
           dig.result := List.replicate 12 0 }

/-- The fetched command of a queue and tag, one of the peer's when `remote`. -/
def heldCmd (s : State) (remote : Bool) (q : QueueId) (tag : Nat) : Option Cmd :=
  if remote then remoteCmd s q tag else cmdOf s q tag

/-- A job ends: a host job's digest is readable, a FIXITY's goes to its 64-byte buffer and completes it (R231, R413). -/
def execDigestDone (s : State) : Host.Outcome State Fault Refusal :=
  if alive s && decide (s.dig.st = .busy) then
    let d := digestOf s.dig.alg s.dig.msg
    match s.dig.cmd with
    | some (q, tag) =>
      let r := s.dig.remote
      let c := heldCmd s r q tag
      let s := digIdle 0 { s with dig.doneBytes := s.dig.msg.length }
      match c with
      | some c => .next (endCmd c stSuccess (w32 (if s.dig.alg = 2 then 48 else 32)) 0 (deliver c (cmdData c) ((d ++ List.replicate 64 0).take 64) s))
      | none => .next s
    | none =>
      .next { s with dig.st := .done, dig.doneBytes := s.dig.msg.length, dig.msg := [], dig.result := wordsOf 12 d, dig.doneAt := now s }
  else .next s

/-- RELEASE through an endpoint: only the holder's, of a DONE or CLEARED host job (R411, R413). -/
def digRelease (ep : Nat) (s : State) : State :=
  if (s.dig.st = .done ∨ s.dig.st = .cleared) ∧ ep = s.dig.ep then digIdle 0 s else s

/-- DIGEST_RELEASE (R413). -/
def execDigestRelease (ep : Nat) (s : State) : Host.Outcome State Fault Refusal :=
  .next (regWrite ep 0xA0004 (digRelease ep) s)

/-- 10 s after DONE with no release (R413). -/
def execDigestLapse (s : State) : Host.Outcome State Fault Refusal :=
  if alive s && decide (s.dig.st = .done) && decide (s.dig.doneAt + 10 ^ 10 ≤ now s) then .next (digIdle 3 s) else .next s

/-! ## Registers (R415 to R419) -/

/-- Write of a 32-bit SEC register through an endpoint. -/
def secWrite (ep off : Nat) (w : BitVec 32) (s : State) : State :=
  if off = 0x00 then
    { s with sec.csErr := s.sec.csErr && !bitOf w 2, sec.keyErr := s.sec.keyErr && !bitOf w 3 }
  else if off = 0x04 then { s with sec.alarm := s.sec.alarm &&& ~~~ (w.setWidth 5) }
  else if off = 0x08 then keyCmd (fld w 0 3) (fld w 8 8) (fld w 16 8) s
  else if 0x40 ≤ off ∧ off < 0x68 then { s with sec.keyData := s.sec.keyData.set ((off - 0x40) / 4) w }
  else if off = 0x100 then csLockWrite ep w s
  else if off = 0x104 then
    if bitOf w 0 then csGo (bitOf w 1) (fld w 16 16) (fld w 8 8) (fld w 2 2) (fld w 4 2) s
    else if s.sec.lockHeld && decide (fld w 16 16 = s.sec.lockToken.toNat) then s
    else { s with sec.csErr := true }
  else if off = 0x118 then { s with sec.csLen := w.toNat }
  else if off = 0x11C then { s with sec.csAadLen := w.toNat }
  else if 0x120 ≤ off ∧ off < 0x12C then { s with sec.csIv := s.sec.csIv.set ((off - 0x120) / 4) w }
  else if 0x130 ≤ off ∧ off < 0x140 then { s with sec.csTag := s.sec.csTag.set ((off - 0x130) / 4) w }
  else s

/-- Commit of a 64-bit SEC register. -/
def secCommit (off : Nat) (v : BitVec 64) (s : State) : State :=
  if off = 0x108 then { s with sec.csSrc := v } else if off = 0x110 then { s with sec.csDst := v } else s

/-- Write of a 32-bit DIG register through an endpoint. START and RELEASE in one word act in that order. -/
def digWrite (ep off : Nat) (w : BitVec 32) (s : State) : State :=
  if off = 0x00 then { s with dig.refused := s.dig.refused && !bitOf w 3 }
  else if off = 0x04 then
    let s := if bitOf w 0 then digStart ep (fld w 2 2) (fld w 4 2) s else s
    if bitOf w 1 then digRelease ep s else s
  else if off = 0x10 then { s with dig.len := w.toNat }
  else s

/-! ## Pin records (R495, R591) -/

/-- KEY_INDEX of the pin record of the head with the given HEAD_SEL (R495). -/
def pinIndex (head : Bool) : Nat := 0xFFFFFFF0 + b2n head

/-- KEY_INDEX of the pin record of this head's peer (R495). -/
def peerPinIndex (s : State) : Nat := pinIndex (!s.glb.headSel)

/-- Delta record of a pin: the 48 bytes of the digest stand in its LSN and VALUE (R495, R575; DESIGN CHOICE). -/
def deltaPin (index : Nat) (pin : Option (List (BitVec 8))) : DeltaRec :=
  { kind := 10, delete := pin.isNone, volume := 0, snap := 0, key := BitVec.ofNat 64 index, lsn := leAt (pin.getD []) 0 8,
    value := (pin.getD []).drop 8 }

/-- The pin that a delta record carries. -/
def pinOf (r : DeltaRec) : Option (List (BitVec 8)) :=
  if r.delete then none else some (leBytes 8 r.lsn ++ r.value.take 40)

/-- A pin record: of the peer's identity, or of this head's own, which its waypoints carry as well (R495, R591). -/
def setPin (index : Nat) (pin : Option (List (BitVec 8))) (s : State) : State :=
  if index = peerPinIndex s then { s with xhl.pin := pin }
  else if index = pinIndex s.glb.headSel then { s with xhl.ownPin := pin }
  else s

/-- The pin records that this head holds, with their KEY_INDEX, ascending (R495). -/
def pinRows (s : State) : List (Nat × List (BitVec 8)) :=
  let row (head : Bool) : Option (Nat × List (BitVec 8)) :=
    (if head = s.glb.headSel then s.xhl.ownPin else s.xhl.pin).map fun d => (pinIndex head, d)
  [row false, row true].filterMap id

end Sys2Proof.Machine
end

