-- ==== Sys2Proof/Machine/ChunkRead.lean ====
section
/-!
DEFINITION. Reading chunks: decryption and the checks of a stored container, reconstruction and loss, moving an object to
a new address, and the sectors a read returns from the log and the map (R29 to R31, R294, R299, R344, R355, R356, R506,
R543, R544).
-/
namespace Sys2Proof.Machine

/-- The eight sectors of a chunk with their guards and the mask of lost ones. -/
structure ChunkData where
  /-- sectors -/
  sectors : List (List (BitVec 8))
  /-- their guards -/
  guards : List (BitVec 64)
  /-- bit s: sector s is lost -/
  lost : BitVec 8

/-- Guard of 4 096 zero bytes (R344). -/
def zeroGuard : BitVec 64 := crc64 zeroSector

/-- An unmapped or ZERO chunk (R307, R344). -/
def ChunkData.zero : ChunkData :=
  { sectors := List.replicate 8 zeroSector, guards := List.replicate 8 zeroGuard, lost := 0 }

/-- The tweak of a container: its SERIAL (R399). -/
def xtsTweak (bs : List (BitVec 8)) : BitVec 128 := BitVec.ofNat 128 (leAt bs 0 8)

/-- Decrypt a stored container under a tenant's key pair (R399); without the pair there is no plaintext. -/
def openStored (s : State) (tenant : Nat) (bs : List (BitVec 8)) : List (BitVec 8) :=
  match tenantKey s tenant with
  | some k => bs.take 8 ++ Config.xtsDecrypt k.key1 k.key2 (xtsTweak bs) (bs.drop 8)
  | none => []

/-- Encrypt a container under a tenant's key pair (R399). -/
def sealStored (s : State) (tenant : Nat) (bs : List (BitVec 8)) : List (BitVec 8) :=
  match tenantKey s tenant with
  | some k => bs.take 8 ++ Config.xtsEncrypt k.key1 k.key2 (xtsTweak bs) (bs.drop 8)
  | none => []

/-- The sectors a plain container holds; a lost one reads as zeros. -/
def plainData (bs : List (BitVec 8)) : ChunkData :=
  let c := parseContainer bs
  let d := containerData c 8
  { sectors := (List.range 8).map fun t => slice d (4096 * t) 4096, guards := c.guards, lost := c.lostMask }

/-- What is left of a chunk that could be neither read nor reconstructed whole: of a RAW chunk the sectors outside the
`region` whose guards check, of a KERNEL chunk none (R31, R543). -/
def salvage (bs : List (BitVec 8)) (region : BitVec 8) : ChunkData :=
  let d := plainData bs
  let kernel := decide (leAt bs 11 1 ≠ 0)
  let bad (t : Nat) : Bool :=
    kernel || decide (leAt bs 8 2 ≠ 0x4B43) || region.getLsbD t || d.lost.getLsbD t ||
      decide (crc64 (d.sectors.getD t []) ≠ d.guards.getD t 0)
  let mask := (List.range 8).foldl (fun n t => if bad t then n + 2 ^ t else n) 0
  { sectors := (List.range 8).map fun t => if bad t then zeroSector else d.sectors.getD t []
    guards := (List.range 8).map fun t => if bad t then zeroGuard else d.guards.getD t 0
    lost := BitVec.ofNat 8 mask }

/-- Bytes of an object that still lies in a stripe under construction or not yet programmed (R29). -/
def stripeBytes (s : State) (grain grains : Nat) : Option (List (BitVec 8)) :=
  match stripeAt s grain with
  | some x =>
    if (x.st = .opened ∨ x.st = .closed) ∧ ¬ x.strips.isEmpty then
      let off := 256 * (grain - x.base)
      let j := off / stripBytes
      some (slice ((x.strips.getD j []) ++ (x.strips.getD (j + 1) [])) (off % stripBytes) (256 * grains))
    else none
  | none => none

/-- Every map entry that names a grain address: volume, snapshot number (0 live) and entry (R330, R506). -/
def namers (s : State) (grain : Nat) : List (Nat × Nat × MapEntry) :=
  s.red.volumes.flatMap fun x =>
    ((0, x.table) :: x.snaps.map fun p => (p.num, p.table)).flatMap fun t =>
      t.2.flatMap fun pr =>
        match pairOf s pr.2 with
        | none => []
        | some p =>
          (p.entries.filter fun e => decide (e.method ≠ .zero) && decide (e.grain.toNat = grain)).map fun e =>
            (x.num, t.1, e)

/-- The trailer entry of the object at a grain address. -/
def trailerOf (s : State) (grain : Nat) : Option TrailerEntry :=
  (stripeAt s grain).bind fun x => x.entries.find? fun e => e.grain.toNat = grain

/-- Write an object again in the open stripe of a volume's geometry, as a relocation that RELOCATION_SWITCH ends (R506). -/
def moveObject (old : Nat) (bytes : List (BitVec 8)) (e : TrailerEntry) (cause : RelocCause) (s : State) : State :=
  let g := geomOf s e.volume
  match placeObject g.1 g.2 0 bytes { e with moved := true } s with
  | (none, s) => s
  | (some a, s) =>
    let serial := ((stripeAt s old).map (·.serial)).getD 0
    { s with mmg.relocs := s.mmg.relocs ++
        [{ stripe := serial, old := BitVec.ofNat 43 old, new := BitVec.ofNat 43 a, len := bytes.length / 256, cause := cause }] }

/-- Enter a record in the lost list, replacing one of the same version; past 1 048 576 records it is not listed, and
record 0x0C0E is written once (R544). -/
def addLost (r : LostRec) (s : State) : State :=
  let rest := s.ecp.lostList.filter fun x => !(decide (x.volume = r.volume ∧ x.chunk = r.chunk ∧ x.snap = r.snap))
  if rest.length < 1048576 then { s with ecp.lostList := rest ++ [r] }
  else if s.ecp.lostFull then s
  else record 0x0C0E (srcId 3 3 0) [] { s with ecp.lostFull := true }

/-- A container header for data stored RAW (R352, R354). -/
def rawContainer (tenant volume chunk lsn : Nat) (d : ChunkData) : Container :=
  { serial := 0, kernel := false, tenant := tenant, volume := volume, lostMask := d.lost, raster := Raster.plain,
    chunk := chunk, lsn := lsn, guards := d.guards, slices := [], raw := d.sectors.flatMap id }

/-- A chunk is lost (R543): every version that names it is listed, 0x0C05 is written, and what is left is rewritten RAW
under a new serial and switched as a relocation. -/
def loseChunk (v chunk tenant : Nat) (e : MapEntry) (d : ChunkData) (cause : Nat) (s : State) : State :=
  let who := namers s e.grain.toNat
  let s := who.foldl (fun s w =>
    addLost { volume := w.1, chunk := w.2.2.chunk, snap := w.2.1, mask := d.lost, cause := cause, time := now s,
              lsn := w.2.2.lsn } s) s
  let s := recordAlert 0x0C05 (srcId 3 3 0) [v, chunk, chunk / 2 ^ 32, d.lost.toNat]
    { s with ecp.lost := true, ecp.lostChunks := satAdd (2 ^ 32 - 1) s.ecp.lostChunks 1 }
  if s.mmg.relocs.any fun r => r.old = e.grain then s
  else
    match takeSerial s with
    | (none, s) => s
    | (some n, s) =>
      let bytes := sealStored s tenant { rawContainer tenant v chunk e.lsn d with serial := n }.bytes
      moveObject e.grain.toNat bytes
        { volume := v, method := 0, shared := e.shared, moved := true, kind := 0, len := 129, grain := 0, chunk := chunk,
          lsn := e.lsn } .lost s

/-- What cannot be read or reconstructed is lost; while its stripe is not resynchronised it is not served, and the stripe moves
to the head of the queue instead (R543, R547). -/
def loseOrDefer (v chunk tenant : Nat) (e : MapEntry) (d : ChunkData) (cause : Nat) (s : State) : State :=
  match stripeAt s e.grain.toNat with
  | some x =>
    if x.resynced then loseChunk v chunk tenant e d cause s
    else { s with ecp.resyncQueue := x.serial :: s.ecp.resyncQueue.filter (· ≠ x.serial) }
  | none => loseChunk v chunk tenant e d cause s

/-- Bytes of data strip `j` of a stripe of `k` data members, from what the members in `others` hold at the same place; none when fewer
than `k` are at hand (R533). -/
def rebuildPart (k j : Nat) (others : List (Nat × Nat × List (BitVec 8))) : Option (List (BitVec 8)) :=
  let known := (others.filter fun o => decide (o.1 = j) && decide (o.2.1 ≠ j)).map (·.2)
  if known.length < k then none else some (rebuildMember k j (known.take k))

/-- The stored bytes of an object reconstructed from parity; they may run on into the next strip (R31, R533). -/
def rebuildObject (s : State) (grain grains : Nat) (others : List (Nat × Nat × List (BitVec 8))) : Option (List (BitVec 8)) :=
  (stripeAt s grain).bind fun x =>
    let off := 256 * (grain - x.base)
    let j := off / stripBytes
    (rebuildPart x.k j others).bind fun a =>
      if off % stripBytes + 256 * grains ≤ stripBytes then some a
      else (rebuildPart x.k (j + 1) others).map fun b => a ++ b

/-- Stored bytes pass the checks of R355: a host read applies all of them, a relocation all but the sixth, the tenant's (R355, R506). -/
def storedOk (s : State) (read : Bool) (tenant : Nat) (b : List (BitVec 8)) : Bool :=
  let p := openStored s tenant b
  decide (containerCheckAll p (if read then tenant else leAt p 16 2) = 0)

/-- A stored container whose bytes fail with this code: 0x080C, the test of its decoder's lane, and its reconstruction, which is used
and rewritten where it checks and salvaged where it does not (R31, R355, R356). -/
def readBad (read : Bool) (v chunk tenant : Nat) (e : MapEntry) (cause : Nat) (r : StoredRead) (b : List (BitVec 8)) (code : Nat) (s : State) :
    ChunkData × State :=
  let g := e.grain.toNat
  let rebuilt := rebuildObject s g e.grains r.others
  let s := record 0x080C (srcId 2 4 r.lane) [g, g / 2 ^ 32, code]
    { s with kc.decodeFail := true, kc.decodeFails := satAdd (2 ^ 64 - 1) s.kc.decodeFails 1 }
  let s := addTest (srcId 2 4 r.lane) .kernelVectors false s
  match rebuilt with
  | some b' =>
    if storedOk s read tenant b' then
      (plainData (openStored s tenant b'),
        if s.mmg.relocs.any fun r => r.old = e.grain then s
        else moveObject g b' ((trailerOf s g).getD
          { volume := v, method := methodCode e.method, shared := e.shared, moved := true, kind := 0, len := e.grains,
            grain := 0, chunk := chunk, lsn := e.lsn }) .suspect s)
    else
      let d := salvage (openStored s tenant b') r.region
      (d, loseOrDefer v chunk tenant e d cause s)
  | none =>
    let d := salvage (openStored s tenant b) r.region
    (d, loseOrDefer v chunk tenant e d cause s)

/-- Read and decode the chunk that a map entry names. An undecodable container writes 0x080C, has its decoder lane tested
and is reconstructed; a reconstruction that checks is used and rewritten, and otherwise the chunk is lost with `cause`
(R31, R355, R356, R543). -/
def readStored (read : Bool) (v chunk tenant : Nat) (e : MapEntry) (cause : Nat) (media : List StoredRead) (s : State) :
    ChunkData × State :=
  let g := e.grain.toNat
  let r := (media.find? fun r => r.grain = g).getD
    { grain := g, lane := 0, direct := none, others := [], region := 0xFF }
  let direct := match stripeBytes s g e.grains with | some b => some b | none => r.direct
  let check (b : List (BitVec 8)) : Nat :=
    let p := openStored s tenant b
    containerCheckAll p (if read then tenant else leAt p 16 2)
  match direct with
  | some b =>
    if check b = 0 then (plainData (openStored s tenant b), s) else readBad read v chunk tenant e cause r b (check b) s
  | none =>
    match rebuildObject s g e.grains r.others with
    | some b' =>
      if storedOk s read tenant b' then (plainData (openStored s tenant b'), s)
      else
        let d := salvage (openStored s tenant b') r.region
        (d, loseOrDefer v chunk tenant e d cause s)
    | none =>
      let d := salvage [] 0xFF
      (d, loseOrDefer v chunk tenant e d cause s)

/-- The ciphertext of an object that a relocation moves: as built, as read, or as reconstructed, whichever passes its checks first
(R506). -/
def soundBytes (s : State) (tenant grain grains : Nat) (media : List StoredRead) : Option (List (BitVec 8)) :=
  let r := media.find? fun r => r.grain = grain
  ([stripeBytes s grain grains, r.bind (·.direct), r.bind fun r => rebuildObject s grain grains r.others].filterMap id).find?
    (storedOk s false tenant)

/-- The chunk of a version as the map gives it (R307, R344). -/
def readMapped (v snap chunk cause : Nat) (media : List StoredRead) (s : State) : ChunkData × State :=
  match volOf s v with
  | none => (ChunkData.zero, s)
  | some x =>
    match (versionTable x snap).bind fun t => entryIn s t chunk with
    | none => (ChunkData.zero, s)
    | some e => match e.method with
      | .zero => (ChunkData.zero, s)
      | _ => readStored true v chunk x.tenant e cause media s

/-- One sector that a read returns. -/
structure SectorRead where
  /-- its 4 096 bytes -/
  data : List (BitVec 8)
  /-- its 16 bytes of PI -/
  pi : List (BitVec 8)
  /-- it cannot be returned -/
  lost : Bool

/-- Sector `t` of a chunk of a version: from the log for the live version (R294, R299), else from `d`, with PI built for
this LBA (R385, R391); a guard that does not check makes it lost (R390). -/
def sectorOf (s : State) (v snap chunk t tenant : Nat) (d : ChunkData) : SectorRead :=
  let lba := 8 * chunk + t
  match if snap = 0 then frameFor s v lba else none with
  | some f =>
    let data := f.data.getD t []
    let pi := f.pi.getD t []
    { data := data, pi := pi, lost := f.lost.getLsbD t || decide (buildPi (crc64 data) tenant lba ≠ pi) }
  | none =>
    let data := d.sectors.getD t []
    { data := data, pi := buildPi (d.guards.getD t 0) tenant lba,
      lost := d.lost.getLsbD t || decide (crc64 data ≠ d.guards.getD t 0) }

/-- The sectors of one chunk that a range asks for; the stored chunk is read only for a sector no frame holds (R299). -/
def readChunkPart (v snap chunk tenant lba count : Nat) (media : List StoredRead) (s : State) : List SectorRead × State :=
  let want := (List.range 8).filter fun t => decide (lba ≤ 8 * chunk + t) && decide (8 * chunk + t < lba + count)
  let fromMap := want.any fun t => decide (snap ≠ 0) || (frameFor s v (8 * chunk + t)).isNone
  let (d, s') := if fromMap then readMapped v snap chunk 3 media s else (ChunkData.zero, s)
  (want.map fun t => sectorOf s v snap chunk t tenant d, s')

/-- The sectors of a range of a version, chunk by chunk. -/
def readRange (v snap tenant lba count : Nat) (media : List StoredRead) (s : State) : List SectorRead × State :=
  (List.range ((lba + count - 1) / 8 - lba / 8 + 1)).foldl (fun (acc : List SectorRead × State) i =>
    let (l, s) := readChunkPart v snap (lba / 8 + i) tenant lba count media acc.2
    (acc.1 ++ l, s)) ([], s)

end Sys2Proof.Machine
end

