-- ==== Sys2Proof/Machine/Time.lean ====
section
/-!
DEFINITION. Lodestar (chapter 04): the three clocks, references and the pair time base, setting civil time, lock expiry
and accounting periods.
-/
namespace Sys2Proof.Machine

/-- Source identifier of the time domain controller (R27). -/
def timeSrc : Nat := srcId 0 2 0

/-! ## The clocks (R107 to R111, R115, R126) -/

/-- High-water civil time follows civil time up, in the head and in the island (R98, R110). -/
def bumpHigh (s : State) : State :=
  let c := civilNow s
  let up := match s.lds.highWater with | none => true | some h => decide (h < c)
  if up && decide (lifeCycle s ≠ .blank) then { s with lds.highWater := some c, island.highWater := some c } else s

/-- The larger of two high-water values. -/
def maxHigh : Option Int → Option Int → Option Int
  | none, b => b
  | a, none => a
  | some a, some b => some (max a b)

/-- The island keeps the civil offset and CIVIL_VALID (R98, R109). -/
def keepCivil (s : State) : State :=
  { s with island.civilOffset := s.lds.civilOffset, island.civilValid := s.lds.civilValid }

/-- Civil time moves by `d` ns. -/
def shiftCivil (d : Int) (s : State) : State :=
  bumpHigh (keepCivil { s with lds.civilOffset := s.lds.civilOffset + d })

/-- Sign of an integer. -/
def sgn (i : Int) : Int := if i < 0 then -1 else if i = 0 then 0 else 1

/-- A nanosecond at the island: its 48-bit counter of 1/32 768 s (R98). -/
def islandTick (i : Island) : Island :=
  if i.frac + 32768 < 10 ^ 9 then { i with frac := i.frac + 32768 }
  else { i with frac := i.frac + 32768 - 10 ^ 9, counter := (i.counter + 1) % 2 ^ 48 }

/-- LDS_ERR_BOUND in us: what is accrued, and 0.1 ppm of the time in holdover (R121). -/
def errBoundNow (s : State) : Nat :=
  min (2 ^ 32 - 1)
    (s.lds.errBound + if s.lds.refState = .holdover then (now s - s.lds.holdoverSince) / 10 ^ 10 else 0)

/-! ## References and the leader (R112, R117) -/

/-- The head's own reference state: the first of its locked references in the image's order, else HOLDOVER after a lock,
else FREERUN (R112, R117). -/
def ownRef (s : State) : RefState :=
  let locked (r : Nat) : Bool := (decide (r = 1) && s.lds.ptpLocked) || (decide (r = 2) && s.lds.ppsLocked)
  match s.img.time.refOrder.find? locked with
  | some 1 => .lockedPtp
  | some 2 => .lockedPps
  | _ => if s.lds.ownState = .freerun then .freerun else .holdover

/-- Rank of a reported state (R117). -/
def refRank : RefState → Nat
  | .lockedPtp => 3
  | .lockedPps => 2
  | .holdover => 1
  | _ => 0

/-- Time this head has been in holdover. -/
def ownHold (s : State) : Nat := if s.lds.ownState = .holdover then now s - s.lds.holdoverSince else 0

/-- This head's last report ranks above the peer's last report: the order of R117, of two in HOLDOVER the shorter reported
holdover, in an exact tie HEAD_SEL = 0; without a peer there is no leader. Both heads rank the two reports that were sent, so
they agree. -/
def leads (s : State) : Bool :=
  if peerUp s then
    let a := refRank s.lds.sentRef
    let b := refRank s.lds.peerRef
    if a = b then
      if s.lds.sentRef = .holdover then
        decide (s.lds.sentHold < s.lds.peerHold) || (decide (s.lds.sentHold = s.lds.peerHold) && !s.glb.headSel)
      else !s.glb.headSel
    else decide (b < a)
  else false

/-- The other head of the pair leads and this head steers toward it (R116, R117). -/
def follows (s : State) : Bool := peerUp s && !leads s

/-- Choose reference and leader again (R112, R117, R121). The head that does not lead is in FOLLOW_PEER once PAIR_LOCKED is 1,
where the image's order names the peer; otherwise its own reference counts, and after any lock HOLDOVER. A change writes 0x0201,
a lost lock 0x0205. R117 puts the other head in FOLLOW_PEER whatever its own references are, so the place of the peer in the
order matters only in that it is named (DEDUCED, log entry 88). -/
def reselect (s : State) : State :=
  let own := ownRef s
  let lost := decide (s.lds.ownState = .lockedPtp ∨ s.lds.ownState = .lockedPps) && decide (own = .holdover)
  let lead := leads s
  let follow := peerUp s && !lead && s.lds.pairLocked && s.img.time.refOrder.contains 3
  let ref : RefState :=
    if follow then .followPeer
    else if own = .freerun ∧ s.lds.refState ≠ .freerun then .holdover
    else own
  let lost := lost || (decide (s.lds.refState = .followPeer) && decide (ref = .holdover))
  let s := if lost then record 0x0205 timeSrc [] { s with lds.holdoverSince := now s } else s
  let s := { s with lds.ownState := own }
  if ref = s.lds.refState ∧ lead = s.lds.leader then s
  else record 0x0201 timeSrc [] { s with lds.refState := ref, lds.leader := lead }

/-- A reference correction of civil time by `d` ns: up to 1 ms a slew, a larger one a step; a forward step beyond the
greater of 1 s and the error bound is held. While a step is held the reference serves frequency only (R115). -/
def refCorrect (d : Int) (s : State) : State :=
  if s.lds.stepHeld then s
  else if d.natAbs ≤ 1000000 then keepCivil { s with lds.slew := d }
  else if d < 0 ∨ d ≤ max 1000000000 (1000 * (errBoundNow s : Int)) then shiftCivil d { s with lds.slew := 0 }
  else recordAlert 0x0206 timeSrc [] { s with lds.stepHeld := true }

/-- A correction of this cycle: it takes effect when the cycle ends, and is discarded when a set commits in the same cycle
(R125). -/
def pendCorrect (d : Int) (s : State) : State :=
  if s.lds.setAt = some (now s) then s else { s with lds.corr := some d }

/-- The end of a cycle: the correction that waits takes effect (R115, R125). -/
def endCycle (s : State) : State :=
  match s.lds.corr with
  | some d => refCorrect d { s with lds.corr := none }
  | none => s

/-- A reference has locked: civil time is valid and the error bound starts again (R109, R115). -/
def refLocked (s : State) : State := keepCivil { s with lds.civilValid := true, lds.errBound := 0 }

/-- A reference `r` of the image's order disciplines this head: it is the time leader or alone, and no reference of
higher priority is locked. -/
def disciplines (s : State) (r : Nat) : Bool :=
  !follows s && s.img.time.refOrder.contains r &&
    (s.img.time.refOrder.takeWhile fun x => x ≠ r).all fun x =>
      !((decide (x = 1) && s.lds.ptpLocked) || (decide (x = 2) && s.lds.ppsLocked))

/-- Rate correction limited to 100 ppm, in units of 10^-12 (R107). -/
def clampRate (a : Int) : Int := max (-100000000) (min 100000000 a)

/-- Temperature bin of 0.5 degC that holds a temperature in 0.1 degC (R120). -/
def tempBin (t : Int) : Int := t / 5

/-- The value learned for bin `b`: its own, else that of the nearest learned bin, the lower of two as near. -/
def binValue (m : List (Int × Int)) (b : Int) : Int :=
  (m.foldl (fun (a : Option (Int × Int)) x =>
    match a with
    | none => some x
    | some y => if (x.1 - b).natAbs < (y.1 - b).natAbs ∨ ((x.1 - b).natAbs = (y.1 - b).natAbs ∧ x.1 < y.1) then some x
        else some y) none).elim 0 (·.2)

/-- The learned correction at a temperature, with linear interpolation between bins, and the learned ageing (R120, R121). The
value of a bin stands for its lower edge (DESIGN CHOICE, log entry 22). -/
def learnedRate (s : State) : Int :=
  let t := s.lds.oscTemp
  let b := tempBin t
  let lo := binValue s.lds.freqModel b
  let hi := binValue s.lds.freqModel (b + 1)
  clampRate (lo + (hi - lo) * (t - 5 * b) / 5 + s.lds.ageing)

/-- While locked, the frequency is learned in the temperature bin of 0.5 degC, and the ageing drift, whose value the spec does
not state (R120). -/
def learn (adj : Int) (s : State) : State :=
  let bin := tempBin s.lds.oscTemp
  let (drift, s) := takeFree s
  { s with lds.freqModel := (s.lds.freqModel.filter fun x => x.1 ≠ bin) ++ [(bin, adj)], lds.ageing := drift.toInt }

/-- A reading of the sensor that the image names beside the oscillator, or of the die when it names none, in 0.1 degC (R120). -/
def noteTemp (sensor : Bool) (t : Int) (s : State) : State :=
  if sensor = decide (s.img.time.oscSensor ≠ 0) then { s with lds.oscTemp := t } else s

/-- Compare two lists of numbers from the first on. -/
def lexLess : List Nat → List Nat → Bool
  | [], _ => false
  | _, [] => false
  | a :: x, b :: y => decide (a < b) || (decide (a = b) && lexLess x y)

/-- A master is better than another under the data set comparison of the default profile: quality then identity of the
grandmaster, and for one grandmaster the fewer steps, then the lower identity of the sender (R113, IEEE 1588-2019). -/
def betterMaster (a b : PtpAnnounce) : Bool :=
  if a.gm = b.gm then decide (a.steps < b.steps) || (decide (a.steps = b.steps) && decide (a.sender.toNat < b.sender.toNat))
  else lexLess (a.quality ++ [a.gm.toNat]) (b.quality ++ [b.gm.toNat])

/-- The best master (R113). -/
def bestMaster (l : List PtpAnnounce) : Option PtpAnnounce :=
  l.foldl (fun a x => match a with | none => some x | some y => if betterMaster x y then some x else a) none

/-- The exchange arrives on the PTP port, which in a split mode is its sub-port 0 and whose link is up, in the domain and over
a transport of the image (R113, R248). -/
def ptpOurs (s : State) (sub : Nat) (x : PtpExchange) : Bool :=
  decide (sub = 4 * s.img.time.ptpPort) && decide (x.domain = s.img.time.ptpDomain) &&
    s.img.time.ptpTransport.getLsbD x.transport &&
    (s.net.ports.getD s.img.time.ptpPort NetPort.reset).linkUp.getLsbD 0

/-- Offset of civil time from UTC in ps: the mean of the two directions of the delay request-response exchange, less
currentUtcOffset; the path delay drops out (R113). A two-step master gives the origin in its Follow_Up. -/
def ptpOffset (x : PtpExchange) : Int :=
  ((x.followUp.getD x.origin - x.t2) + (x.t4 - x.t3)) / 2 - x.utcOffset * 10 ^ 12

/-- The best master clock algorithm chooses the grandmaster; a change of it ends the lock (R112, R113). -/
def chooseMaster (l : List PtpAnnounce) (s : State) : State :=
  match bestMaster l with
  | none => s
  | some b =>
    if s.lds.grandmaster = some b.gm then s
    else { s with lds.grandmaster := some b.gm, lds.ptpLocked := false, lds.ptpRun := 0 }

/-- A PTP Sync exchange of the chosen master: its offset disciplines civil time and its rate the frequency; without a valid
currentUtcOffset it serves frequency only and cannot lock. The 16th within 100 ns locks (R112, R113, R115, R120). -/
def ptpSync (x : PtpExchange) (adj : Int) (s : State) : State :=
  let off := ptpOffset x
  let run := if off.natAbs ≤ 100000 ∧ x.utcValid then s.lds.ptpRun + 1 else 0
  let use := disciplines s 1
  let s := { s with lds.lastSync := now s, lds.ptpRun := run }
  let s := if use then { s with lds.freqAdj := clampRate adj } else s
  let s := if use && x.utcValid then pendCorrect (off / 1000) s else s
  let s := if s.lds.ptpLocked then learn (clampRate adj) s else s
  if 16 ≤ run ∧ s.lds.ptpLocked = false then refLocked { s with lds.ptpLocked := true } else s

/-- PTP_SYNC (R113): messages of other ports, domains, transports and masters are passed over. -/
def execPtpSync (sub : Nat) (masters : List PtpAnnounce) (x : PtpExchange) (adj : Int) (s : State) :
    Host.Outcome State Fault Refusal :=
  if alive s && ptpOurs s sub x then
    let s := chooseMaster masters s
    if (bestMaster masters).all fun b => b.sender = x.sender then .next (reselect (ptpSync x adj s)) else .next (reselect s)
  else .next s

/-- No Sync for 4 s (R112); a change of the grandmaster shows in the exchange that brings it. -/
def execPtpLoss (s : State) : Host.Outcome State Fault Refusal :=
  if alive s && decide (s.lds.lastSync + 4 * 10 ^ 9 ≤ now s) then .next (reselect { s with lds.ptpLocked := false, lds.ptpRun := 0 }) else .next s

/-- An edge is missing or rejected; the third in consecutive seconds ends the lock (R112). -/
def ppsBad (s : State) : State :=
  let n := s.lds.ppsMissing + 1
  let s := { s with lds.ppsRun := 0, lds.ppsMissing := n }
  if 3 ≤ n then reselect { s with lds.ppsLocked := false } else s

/-- A rising edge on 1PPS_IN: the second boundary was due at civil time `due`, and the edge reaches the ball at `came`, both in ps;
the board delay is removed. It is accepted with valid civil time within 100 ms, and takes the second's number from civil time
(R112, R114). The 16th within 100 ns locks. -/
def execPpsInEdge (due came adj : Int) (s : State) : Host.Outcome State Fault Refusal :=
  if alive s && s.img.board.ppsInEn then
    let e := due + 10 * s.lds.inDelay - came
    if s.lds.civilValid && decide (e.natAbs ≤ 10 ^ 11) then
      let run := if e.natAbs ≤ 100000 then s.lds.ppsRun + 1 else 0
      let use := disciplines s 2
      let s := { s with lds.ppsRun := run, lds.ppsMissing := 0, lds.ppsGoodAt := now s }
      let s := if use then pendCorrect (e / 1000) { s with lds.freqAdj := clampRate adj } else s
      let s := if s.lds.ppsLocked then learn (clampRate adj) s else s
      if 16 ≤ run ∧ s.lds.ppsLocked = false then .next (reselect (refLocked { s with lds.ppsLocked := true }))
      else .next (reselect s)
    else .next (ppsBad s)
  else .next s

/-- Edges missing or rejected for 3 consecutive seconds (R112). -/
def execPpsInMissing (s : State) : Host.Outcome State Fault Refusal :=
  if alive s && decide (s.lds.ppsGoodAt + 3 * 10 ^ 9 ≤ now s) then
    .next (reselect { s with lds.ppsLocked := false, lds.ppsRun := 0, lds.ppsMissing := 3 })
  else .next s

/-- Civil time with the board delay of 1PPS_OUT added lies within 2 ns of a second boundary: the edge that leaves the ball now
arrives on the boundary (R114). -/
def atSecond (s : State) : Bool :=
  let r := (civilNow s + s.lds.outDelay / 100) % 1000000000
  decide (r ≤ 2) || decide (999999998 ≤ r)

/-- A civil second boundary: 1PPS_OUT rises when enabled and civil time is valid (R114). -/
def execPpsOutEdge (s : State) : Host.Outcome State Fault Refusal :=
  if alive s && s.lds.ppsOutEn && s.lds.civilValid && atSecond s then .next { s with lds.ppsRose := some (now s) } else .next s

/-- The level of 1PPS_OUT: high for 100 us from its rise, low while PPS_OUT_EN or CIVIL_VALID is 0 (R114). -/
def ppsOutHigh (s : State) : Bool :=
  s.lds.ppsOutEn && s.lds.civilValid && s.lds.ppsRose.any fun t => decide (now s < t + 100000)

/-! ## The pair (R116 to R118, R125) -/

/-- An integer as a 64-bit number in a message. -/
def msgInt (i : Int) : Nat := (i64 i).toNat

/-- Send a time message; `set` forwards a committed set and whether it was authorised (R116, R117, R125). -/
def sendTime (set : Option (Int × Bool)) (s : State) : State :=
  xhlSend 0x0002 false false
    ([refCode s.lds.ownState, ownHold s, b2n s.lds.highWater.isSome, msgInt (highWater s), b2n s.lds.civilValid,
      now s, msgInt s.lds.civilOffset] ++
      match set with | some (v, a) => [1, msgInt v, b2n a] | none => [0]) []
    { s with lds.sentRef := s.lds.ownState, lds.sentHold := ownHold s }

/-- Every 1 ms a time message leaves (R116). -/
def execTimeSend (s : State) : Host.Outcome State Fault Refusal :=
  if alive s && decide (s.lds.timeSentAt + 1000000 ≤ now s) then .next (sendTime none { s with lds.timeSentAt := now s }) else .next s

/-- A set commits: civil time takes the value, CIVIL_VALID becomes 1, the records are written; an authorised set
discards a held step. A correction of the same cycle is discarded (R115, R122, R123, R124, R125). -/
def commitCivil (v : Int) (authorised : Bool) (s : State) : State :=
  let old := civilNow s
  let forward := decide (1000000000 < v - old)
  let s := { s with lds.civilOffset := v - s.lds.deviceTime, lds.civilValid := true, lds.slew := 0, lds.corr := none,
                    lds.setAt := some (now s), lds.stepHeld := s.lds.stepHeld && !authorised }
  let s := bumpHigh (keepCivil s)
  let s := record 0x0202 timeSrc [msgInt old % 2 ^ 32, msgInt old / 2 ^ 32, msgInt v % 2 ^ 32, msgInt v / 2 ^ 32] s
  if forward then record 0x0203 timeSrc [] s else s

/-- A set by host software: refused when more than 1 s ahead without ARM_FWD; a commit clears ARM_FWD and goes to the
peer (R122, R123, R125). True when it committed. -/
def setCivil (v : Int) (s : State) : Bool × State :=
  if 1000000000 < v - civilNow s ∧ s.lds.armFwd = false then
    (false, record 0x0204 timeSrc [] { s with lds.setRefused := true })
  else
    let a := s.lds.armFwd
    (true, sendTime (some (v, a)) (commitCivil v a { s with lds.armFwd := false }))

/-- The low-half write of LDS_CIVIL_SET by an endpoint commits its staged high half and the word (R12, R122). -/
def civilSetWrite (ep : Nat) (lo : BitVec 32) (s : State) : State :=
  (setCivil (join64 (stagedHi s ep 0x20020 0) lo).toInt (dropStage ep 0x20020 s)).2

/-- CIVIL_SET (R122). -/
def execCivilSet (ep : Nat) (lo : BitVec 32) (s : State) : Host.Outcome State Fault Refusal :=
  .next (regWrite ep 0x20020 (civilSetWrite ep lo) s)

/-- ARM_FWD is written 1: the 10 s run from the write that changed it from 0 to 1 (R123). -/
def armForward (s : State) : State :=
  { s with lds.armFwd := true, lds.armAt := if s.lds.armFwd then s.lds.armAt else now s }

/-- A write of 1 to ARM_FWD (R123). -/
def execArmFwd (s : State) : Host.Outcome State Fault Refusal :=
  if hostWriteOk s 0x02 then .next (armForward s) else .next s

/-- 10 s after ARM_FWD was set it clears (R123). -/
def execArmFwdExpiry (s : State) : Host.Outcome State Fault Refusal :=
  if s.glb.held || decide (now s < s.lds.armAt + 10 ^ 10) then .next s else .next { s with lds.armFwd := false }

/-- The peer's device time minus this head's, in ps: the mean of the two directions less half the declared path asymmetry
(R116). -/
def pairDevicePs (s : State) (m : TimeMsg) : Int := ((m.t1 - m.t2) + (m.t4 - m.t3) - s.img.time.asymPs) / 2

/-- The peer's civil time minus this head's, in ps (R116, R118). -/
def pairCivilPs (s : State) (m : TimeMsg) : Int := pairDevicePs s m + 1000 * (m.civilOffset - s.lds.civilOffset)

/-- The follower steers its device-time rate and its civil offset toward the leader, and takes over a valid civil time
(R109, R116). -/
def steer (m : TimeMsg) (offPs : Int) (s : State) : State :=
  if follows s then
    pendCorrect (offPs / 1000)
      (keepCivil { s with lds.freqAdj := clampRate m.adj, lds.civilValid := s.lds.civilValid || m.civilValid })
  else s

/-- A time message arrives: high-water merges, reports are ranked, the follower steers toward the leader, PAIR_LOCKED
follows the measured offsets, and a forwarded set is applied as it stands at the moment of its receipt: the spec does not say
whether it is advanced by the time since the commit (R110, R115 to R118, R125; DESIGN CHOICE, log entry 88). LDS_PAIR_ERR takes
the offset of every exchange on both heads; R134 names only the offset to the leader (DESIGN CHOICE, log entry 88). -/
def execTime (m : TimeMsg) (s : State) : Host.Outcome State Fault Refusal :=
  if alive s then
    let h := maxHigh s.lds.highWater m.highWater
    let off := pairCivilPs s m
    let s := { s with lds.highWater := h, island.highWater := h, lds.peerRef := m.ref, lds.peerHold := m.holdover,
                      lds.peerOffset := pairDevicePs s m / 1000, lds.pairErr := off }
    let run := if off.natAbs ≤ 5000 then s.lds.pairRun + 1 else 0
    let bad := if 20000 < off.natAbs then s.lds.pairBad + 1 else 0
    let s := { s with lds.pairRun := run, lds.pairBad := bad }
    let s := match m.civilSet with
      | some (v, a) => commitCivil v a s
      | none => steer m off s
    if 64 ≤ run ∧ s.lds.pairLocked = false then
      let s := { s with lds.pairLocked := true }
      .next (reselect (if follows s ∧ m.civilValid then refLocked s else s))
    else if 10 ≤ bad ∧ s.lds.pairLocked = true then
      .next (reselect (record 0x0207 timeSrc [] { s with lds.pairLocked := false }))
    else .next (reselect s)
  else .next s

/-- Order of two events of the two heads (R119): by time on one scale, `peerTime` being the peer's device time and converted
through LDS_PEER_OFFSET; times 10 ns apart or less count as simultaneous, and the event of the head with HEAD_SEL = 0 is first.
True when this head's event is ordered first. -/
def ownFirst (s : State) (own peerTime : Nat) : Bool :=
  let d := ((peerTime : Int) - s.lds.peerOffset) - own
  if d.natAbs ≤ 10 then !s.glb.headSel else decide (0 < d)

/-- The peer is gone: the pair is no longer locked and this head chooses its reference alone (R112, R118). -/
def timePeerLost (s : State) : State :=
  let s := if s.lds.pairLocked then record 0x0207 timeSrc [] { s with lds.pairLocked := false } else s
  reselect { s with lds.pairRun := 0, lds.pairBad := 0 }

/-- A leap-second correction announced by the PTP reference starts or ends (R126). -/
def execLeapSmear (start positive : Bool) (s : State) : Host.Outcome State Fault Refusal :=
  if alive s && decide (s.lds.leapActive ≠ start) then
    .next (record 0x0209 timeSrc [] { s with lds.leapActive := start, lds.leapPositive := positive })
  else .next s

/-! ## Lock expiry (R127, R341) -/

/-- Remove every lock whose expiry high-water civil time has reached, with record 0x0809 for each. -/
def expireLocks (s : State) : State :=
  s.red.volumes.foldl (fun s x =>
    let gone := x.locks.filter fun l => !lockHolds s l
    let s := modVol x.num (fun x => { x with locks := x.locks.filter (lockHolds s) })
      { s with red.expiring := s.red.expiring ++ gone.map fun l => (x.num, l) }
    gone.foldl (fun s l => noteMapChange (record 0x0809 (srcId 4 0 0) [] (sendDelta [deltaLock x.num l true] s))) s) s

/-- LOCK_EXPIRED (R127, R341). -/
def execLockExpired (s : State) : Host.Outcome State Fault Refusal :=
  if alive s then .next (expireLocks s) else .next s

/-! ## Accounting periods (R129 to R131) -/

/-- Days since 1970-01-01 of the first of a month, months counted from January of year 0 (UTC). -/
def daysOfMonth (month : Int) : Int :=
  let y := (month - 2) / 12
  let m := (month - 2) % 12
  365 * y + y / 4 - y / 100 + y / 400 + (153 * m + 2) / 5 - 719468

/-- Month that holds a day, months counted from January of year 0. -/
def monthOfDay (day : Int) : Int :=
  let z := day + 719468
  let era := z / 146097
  let doe := z % 146097
  let yoe := (doe - doe / 1460 + doe / 36524 - doe / 146096) / 365
  let doy := doe - (365 * yoe + yoe / 4 - yoe / 100)
  (yoe + era * 400) * 12 + (5 * doy + 2) / 153 + 2

/-- A day in ns. -/
def dayNs : Int := 86400000000000

/-- The period of a definition that holds a time: its start and end; none for KIND 0 (R129). -/
def periodAt (d : PeriodDef) (t : Int) : Option (Int × Int) :=
  if d.kind = 1 then
    let len : Int := d.length * 1000000000
    if len = 0 then none
    else
      let a := (t - d.origin) / len * len + d.origin
      some (a, a + len)
  else if d.kind = 2 then
    let m := monthOfDay (t / dayNs)
    some (daysOfMonth m * dayNs, daysOfMonth (m + 1) * dayNs)
  else none

/-- The default definition of LDS_PERIOD_DEF (R129, R134). -/
def defaultDef (s : State) : PeriodDef :=
  { kind := fld s.lds.periodDef 0 2, length := 60 * fld s.lds.periodDef 2 30, origin := 0 }

/-- The definition in force for a tenant. -/
def defOf (s : State) (t : Tenant) : PeriodDef := t.def_.getD (defaultDef s)

/-- Open the period of the tenant's definition that holds time `at_`, with no usage. -/
def openPeriod (s : State) (at_ : Int) (t : Tenant) : Tenant :=
  let d := defOf s t
  { t with
    openDef := d
    open_ := (periodAt d at_).map fun p => { Period.reset with start := p.1, fin := p.2 } }

/-- A definition has changed: a tenant with no open period opens one at once (R129). -/
def redefine (s : State) (t : Tenant) : Tenant := if t.open_.isNone then openPeriod s (highWater s) t else t

/-- Grains that the live volumes of a tenant name (R130). -/
def tenantGrains (s : State) (tenant : Nat) : Nat :=
  (s.red.volumes.filter fun x => x.tenant = tenant).foldl (fun n x => n + storedGrains s x) 0

/-- Sample every tenant's peak (R130). -/
def samplePeaks (s : State) : State :=
  { s with lds.tenants := s.lds.tenants.map fun t =>
      { t with open_ := t.open_.map fun p => { p with peakGrains := max p.peakGrains (tenantGrains s t.id) } } }

/-- The earliest period end that high-water civil time has reached. -/
def nextEnd (s : State) : Option Int :=
  s.lds.tenants.foldl (fun a t =>
    match t.open_ with
    | none => a
    | some p =>
      if highWater s < p.fin then a
      else match a with | none => some p.fin | some b => some (min b p.fin)) none

/-- Close the open period of a tenant at boundary `e`, merged with the peer's share; the next period opens, and is
marked skipped in case this advance passes its end too (R131). -/
def closeAt (s : State) (e : Int) (shares : List PeriodShare) (t : Tenant) : Tenant :=
  match t.open_ with
  | none => t
  | some p =>
    if p.fin = e then
      let p := if p.skipped then p
        else
          match shares.find? fun x => x.tenant = t.id with
          | some x => { p with written := p.written + x.written, read := p.read + x.read,
                               commands := p.commands + x.commands, peakGrains := max p.peakGrains x.peak }
          | none => p
      let t := openPeriod s e { t with closed := lastN 48 (t.closed ++ [p]) }
      { t with open_ := t.open_.map fun q => { q with skipped := true } }
    else t

/-- Close the periods whose ends high-water civil time has reached, in order, at most `n` boundaries; each boundary
writes record 0x0208 with the tenants closed (R131). -/
def closePeriods (shares : List PeriodShare) : Nat → State → State
  | 0, s => s
  | n + 1, s =>
    match nextEnd s with
    | none => s
    | some e =>
      let c := (s.lds.tenants.filter fun t => t.open_.any fun p => p.fin = e).length
      closePeriods shares n
        (record 0x0208 timeSrc [c] { s with lds.tenants := s.lds.tenants.map (closeAt s e shares) })

/-- Boundaries that may have been passed: each period lasts at least 3 600 s. -/
def endsPassed (s : State) : Nat :=
  s.lds.tenants.foldl (fun n t =>
    match t.open_ with
    | none => n
    | some p => n + ((highWater s - p.fin) / 3600000000000).toNat + 1) 0

/-- This head's shares of the periods whose ends high-water civil time has reached (R131). -/
def ownShares (s : State) : List PeriodShare :=
  s.lds.tenants.filterMap fun t => t.open_.bind fun p =>
    if p.fin ≤ highWater s then
      some { tenant := t.id, written := p.written, read := p.read, commands := p.commands, peak := p.peakGrains }
    else none

/-- PERIODS_CLOSED with the peer's shares; this head's own leave for the peer. R568 names no message for shares: the model takes
the peer's as the command's operand, lets its own out as an output of their own, and merges them while PEER is UP; in SUSPECT the
peer counts as absent and the own share is the record (R131; DESIGN CHOICE, log entry 88). -/
def execPeriodsClosed (shares : List PeriodShare) (s : State) : Host.Outcome State Fault Refusal :=
  if alive s then
    let s := samplePeaks s
    let s := if peerUp s then emit (.periodShares (ownShares s)) s else s
    let s := closePeriods (if peerUp s then shares else []) (endsPassed s) s
    .next { s with lds.tenants := s.lds.tenants.map fun t =>
      { t with carry := Period.reset,
               open_ := t.open_.map fun p =>
                 { p with skipped := false, written := p.written + t.carry.written, read := p.read + t.carry.read,
                          commands := p.commands + t.carry.commands } } }
  else .next s

/-- A tenant's own definition (SET_PERIOD, R129); a tenant not yet known is entered. -/
def setPeriod (tenant : Nat) (d : PeriodDef) (s : State) : State :=
  let ts := if s.lds.tenants.any fun t => t.id = tenant then s.lds.tenants
    else s.lds.tenants ++ [{ Tenant.reset with id := tenant }]
  { s with lds.tenants := ts.map fun t => if t.id = tenant then redefine s { t with def_ := some d } else t }

/-- Enter a tenant on the default definition. -/
def enterTenant (tenant : Nat) (s : State) : State :=
  if s.lds.tenants.any fun t => t.id = tenant then s
  else { s with lds.tenants := s.lds.tenants ++ [redefine s { Tenant.reset with id := tenant }] }

/-- Write of LDS_PERIOD_DEF (R129, R135). -/
def periodDefWrite (w : BitVec 32) (s : State) : State :=
  let k := fld w 0 2
  let n := fld w 2 30
  let ok := decide (k ≠ 3) && (if k = 1 then decide (60 ≤ n) && decide (n ≤ 527040) else decide (n = 0))
  if ok then
    let s := { s with lds.periodDef := w }
    { s with lds.tenants := s.lds.tenants.map fun t => if t.def_.isNone then redefine s t else t }
  else { s with lds.setRefused := true }

/-- PERIOD_DEF_WRITE (R135). -/
def execPeriodDefWrite (w : BitVec 32) (s : State) : Host.Outcome State Fault Refusal :=
  if hostWriteOk s 0x02 then .next (periodDefWrite w s) else .next s

/-- Write of another LDS register at an offset within the block, LDS_CIVIL_SET excepted (R132, R133). -/
def ldsWrite (off : Nat) (w : BitVec 32) (s : State) : State :=
  if off = 0x00 then { s with lds.setRefused := s.lds.setRefused && !bitOf w 7 }
  else if off = 0x28 then (if bitOf w 0 then armForward s else s)
  else if off = 0x44 then
    { s with lds.ppsOutEn := bitOf w 0, lds.inDelay := fld w 1 15, lds.outDelay := fld w 16 16 }
  else if off = 0x48 then periodDefWrite w s
  else s

end Sys2Proof.Machine
end

