-- ==== Sys2Proof/Machine/Loops.lean ====
section
/-!
DEFINITION. The control loop engine, fans and die temperature (chapter 18): the PID sample, missed samples, saturation,
commits, and what the assigned loops drive.
-/
namespace Sys2Proof.Machine

/-- Source identifier of the power domain controller, which the records of the loop engine carry (chapter 18). -/
def loopSrc : Nat := srcId 0 1 0

/-- Loop `n`. -/
def loopOf (s : State) (n : Nat) : Loop := s.cle.loops.getD n Loop.reset

/-- Change loop `n`. -/
def modLoop (n : Nat) (f : Loop → Loop) (s : State) : State := { s with cle.loops := s.cle.loops.modify n f }

/-! ## The sample (R621 to R624) -/

/-- Saturation at 16 bits (R622). -/
def sat16 (v : Int) : Int := max (-32768) (min 32767 v)

/-- Saturation at 40 bits (R621). -/
def sat40 (v : Int) : Int := max (-549755813888) (min 549755813887 v)

/-- Error term of R622: direct acting, or reverse acting. -/
def loopErr (c : LoopCfg) (pv : Int) : Int := if c.direct then sat16 (pv - c.sp.toInt) else sat16 (c.sp.toInt - pv)

/-- Measurement difference of R622. -/
def loopDm (c : LoopCfg) (pv prev : Int) : Int := if c.direct then sat16 (pv - prev) else sat16 (prev - pv)

/-- Scaling of the sum (R622). -/
def loopScale (shift : Nat) (sum : Int) : Int :=
  if shift = 0 then sum else (sum + 2 ^ (shift - 1)) / 2 ^ shift

/-- What a sample in AUTO gives: the output, the accumulator and the unclamped y (R622). -/
structure PidResult where
  /-- output -/
  out : Int
  /-- accumulator -/
  acc : Int
  /-- y before the limits -/
  y : Int
  deriving DecidableEq, Repr

/-- loop_sample of R622 with the limits `lo` and `hi`. -/
def pidSample (c : LoopCfg) (lo hi acc pv prev : Int) : PidResult :=
  let e := loopErr c pv
  let dm := loopDm c pv prev
  let ki := c.ki.toInt * e
  let ai := sat40 (acc + ki)
  let sum := sat40 (c.kp.toInt * e + ai + c.kd.toInt * dm)
  let y := loopScale c.outShift sum
  let out := if hi < y then hi else if y < lo then lo else y
  let stop := (decide (hi < y) && decide (0 < ki)) || (decide (y < lo) && decide (ki < 0))
  { out := out, acc := if stop then acc else ai, y := y }

/-- ACC at a bumpless change into AUTO from output `v` (R624). -/
def bumplessAcc (c : LoopCfg) (v pv : Int) : Int := sat40 (v * 2 ^ c.outShift - c.kp.toInt * loopErr c pv)

/-- A fan failed in the zone of loop `n` raises its OUT_MIN to 1 000 (R633). -/
def effOutMin (s : State) (n : Nat) (c : LoopCfg) : Int :=
  if decide (2 ≤ n ∧ n < 6) && s.cle.zonesMin.getD (n - 2) false then 1000 else c.outMin.toInt

/-- Clamp to the limits. -/
def clampOut (lo hi v : Int) : Int := if hi < v then hi else if v < lo then lo else v

/-! ## What a loop's output drives (R629 to R634) -/

/-- Send VOUT_COMMAND or OPERATION to every regulator that `p` picks (R85). -/
def pmbusSend (p : Regulator → Bool) (cmd value : Nat) (s : State) : State :=
  (s.pwr.regs.filter p).foldl (fun s r => if r.lost then s else emit (.pmbus r.master r.addr cmd value) s) s

/-- VDD_CORE moves toward the AVS output, rounded to 5 mV, by at most 5 mV a sample, inside 650 to 850 mV (R88, R629). -/
def avsDrive (out : Int) (s : State) : State :=
  let goal := min 850 (max 650 ((out.toNat + 2) / 5 * 5))
  let v := s.pwr.vddCore
  let t := if v < goal then min goal (v + 5) else max goal (v - 5)
  if t = v then s else pmbusSend (fun r => r.rail = 0) 0x21 t { s with pwr.vddCore := t }

/-- The charger's output in 10 mV (R630). -/
def chargeDrive (out : Int) (s : State) : State := pmbusSend (fun r => r.role = 2) 0x21 (out.toNat * 10) s

/-- The fans of zone `z` run at `duty` per mille; while DIE_HOT they run full (R632, R634). -/
def fanDrive (z duty : Nat) (s : State) : State :=
  { s with cle.fans := (List.range s.cle.fans.length).map fun f =>
      let x := s.cle.fans.getD f Fan.reset
      if s.img.loops.fanZone.getD f 255 = z then { x with duty := if s.cle.dieHot then 1000 else duty } else x }

/-- Apply the output of loop `n` to what it drives (R628). -/
def loopDrive (n : Nat) (out : Int) (s : State) : State :=
  if n = 0 then avsDrive out s
  else if n = 1 then chargeDrive out s
  else if n < 6 then fanDrive (n - 2) out.toNat s
  else s

/-! ## Commits (R627) -/

/-- The words in force with the staged ones put over them (R627, R642). -/
def stagedCfg (l : Loop) : LoopCfg :=
  let c := l.cfg
  let c := match l.staged.getD 0 none with
    | some w => { c with mode := fld w 0 2, direct := bitOf w 2, satSup := BitVec.ofNat 2 (fld w 3 2),
                         paced := bitOf w 5, outShift := fld w 8 5, period := fld w 16 16 }
    | none => c
  let c := match l.staged.getD 1 none with
    | some w => { c with sp := w.setWidth 16, manOut := (w >>> 16).setWidth 16 }
    | none => c
  let c := match l.staged.getD 2 none with
    | some w => { c with kp := w.setWidth 16, ki := (w >>> 16).setWidth 16 }
    | none => c
  let c := match l.staged.getD 3 none with
    | some w => { c with kd := w.setWidth 16, satLimit := fld w 16 16 }
    | none => c
  match l.staged.getD 4 none with
  | some w => { c with outMin := w.setWidth 16, outMax := (w >>> 16).setWidth 16 }
  | none => c

/-- A set of words that a commit accepts (R627). -/
def cfgAccepted (c : LoopCfg) : Bool :=
  decide (c.outMin.toInt ≤ c.outMax.toInt) && decide (c.outShift ≤ 24) && decide (5 ≤ c.period) && decide (c.mode ≠ 3)

/-- Stage word `i` of loop `n` (R627); slots 54 to 63 are unused (R628). -/
def loopStage (n i : Nat) (w : BitVec 32) (s : State) : State :=
  if n < 54 then modLoop n (fun l => { l with staged := l.staged.set i (some w) }) s else s

/-- Accept the staged words for the loop's next sample. -/
def loopAccept (n : Nat) (s : State) : State :=
  modLoop n (fun l => { l with next := some (stagedCfg l), staged := List.replicate 5 none }) s

/-- COMMIT by host software: refused for loops 0 and 1 and for a set that R627 forbids. -/
def loopCommitHost (n : Nat) (s : State) : State :=
  if 54 ≤ n then s
  else if n < 2 ∨ cfgAccepted (stagedCfg (loopOf s n)) = false then { s with cle.cfgErr := true }
  else loopAccept n s

/-- COMMIT on loop `n`: by host software, by firmware with the words `fw`, or by both in one cycle, where firmware's
applies and the host's is refused (R627). -/
def execLoopCommit (n : Nat) (host : Bool) (fw : Option (List (Option (BitVec 32)))) (s : State) :
    Host.Outcome State Fault Refusal :=
  if alive s then
    match fw with
    | some ws =>
      let s := if host then { s with cle.cfgErr := true } else s
      let l := { loopOf s n with staged := ws }
      if 54 ≤ n then .next s
      else if cfgAccepted (stagedCfg l) then .next (modLoop n (fun x => { x with next := some (stagedCfg l) }) s)
      else .next { s with cle.cfgErr := true }
    | none => if host then .next (loopCommitHost n s) else .next s
  else .next s

/-! ## One sample -/

/-- Mode that loop `n` is to run in: the committed one, but MANUAL for the charger while off the mains or flushing
(R630), and HOLD for AVS while its regulator is lost (R629). -/
def wantedMode (s : State) (n : Nat) (c : LoopCfg) : Nat :=
  if n = 0 && s.pwr.avsFrozen then 3
  else if n = 1 && (s.pwr.onMainsLoss || s.pwr.flushActive) then 1
  else if n = 0 && (s.cle.avsReturn.isSome || s.pwr.exitGoal.isSome) then 1
  else c.mode

/-- The words in force for the charger while it is forced to MANUAL: MAN_OUT 0; when it returns to AUTO, MAN_OUT is the
bank voltage (R630). -/
def chargeWords (s : State) (n : Nat) (c : LoopCfg) : LoopCfg :=
  if n = 1 then
    if s.pwr.onMainsLoss || s.pwr.flushActive then { c with mode := 1, manOut := 0 }
    else if c.mode = 1 then { c with mode := 2, manOut := BitVec.ofNat 16 (s.pwr.vBank / 10) } else c
  else c

/-- Supervision of the limits (R626): SAT_TIME grows by one period for each further sample beyond a supervised limit. -/
def satAfter (l : Loop) (c : LoopCfg) (lo hi : Int) (r : PidResult) : Loop :=
  let beyond := (decide (hi < r.y) && c.satSup.getLsbD 1) || (decide (r.y < lo) && c.satSup.getLsbD 0)
  let unit := if c.paced then 10 else 1
  { l with
    beyond := beyond
    satTime := if beyond then (if l.beyond then l.satTime + unit * c.period else 0) else 0
    recorded := beyond && l.recorded }

/-- A missed sample of loop `n`: output and ACC unchanged, MISSED advances, and the third in a row puts it in HOLD with
FAIL_OUT, or its last output where the table says hold (R625, R628). -/
def loopMissed (n : Nat) (s : State) : State :=
  if 54 ≤ n then s
  else
    let l := loopOf s n
    let l' := { l with missed := satAdd 255 l.missed 1, missRun := l.missRun + 1, freshRun := 0 }
    if 3 ≤ l'.missRun ∧ l.state ≠ 3 then
      let out := if n = 0 then l.out else l.failOut
      let s := modLoop n (fun _ => { l' with state := 3, out := out, beyond := false, satTime := 0 }) s
      record 0x0F02 loopSrc [n] (loopDrive n out.toInt { s with cle.deadline := true })
    else modLoop n (fun _ => l') s

/-- One sample of loop `n` with the measurement `pv`: staged words of an accepted commit apply first, HOLD ends with
the second fresh sample in a row, every change into AUTO is bumpless, and the output drives its actuator. -/
def loopRun (n : Nat) (pv : Int) (s : State) : State :=
  let l := loopOf s n
  let s := if l.next.isSome then record 0x0F01 loopSrc [n] s else s
  let c := chargeWords s n (l.next.getD l.cfg)
  let fresh := if l.state = 3 then l.freshRun + 1 else 0
  let want := wantedMode s n c
  let mode := if l.state = 3 ∧ fresh < 2 then 3 else want
  let lo := effOutMin s n c
  let hi := c.outMax.toInt
  let v : Int := if n = 1 ∧ l.cfg.mode = 1 ∧ c.mode = 2 then c.manOut.toInt else l.out.toInt
  let acc := if mode = 2 ∧ l.state ≠ 2 then bumplessAcc c v pv else l.acc
  let prev := if mode = 2 ∧ l.state ≠ 2 then pv else l.pvPrev.toInt
  let base := { l with cfg := c, next := none, pv := BitVec.ofInt 16 pv, state := mode, missRun := 0, freshRun := fresh }
  if mode = 2 then
    let r := pidSample c lo hi acc pv prev
    let l' := satAfter { base with out := BitVec.ofInt 16 r.out, acc := r.acc, pvPrev := BitVec.ofInt 16 pv } c lo hi r
    let s := if n = 1 ∧ l.state = 1 then pmbusSend (fun r => r.role = 2) 0x01 0x80 s else s
    loopDrive n r.out (modLoop n (fun _ => l') s)
  else if mode = 1 then
    let out := clampOut lo hi c.manOut.toInt
    let s := modLoop n (fun _ => { base with out := BitVec.ofInt 16 out, beyond := false, satTime := 0 }) s
    let s := if n = 1 ∧ (s.pwr.onMainsLoss ∨ s.pwr.flushActive) ∧ l.state ≠ 1 then pmbusSend (fun r => r.role = 2) 0x01 0 s
      else s
    loopDrive n out s
  else modLoop n (fun _ => { base with beyond := false, satTime := 0 }) s

/-! ## When samples fall due (R620, R625, R632) -/

/-- A zone temperature that is present. -/
def zoneTemp (w : BitVec 16) : Option Int := if w = 0x8000 then none else some w.toInt

/-- Hottest zone: its number and temperature, the lowest zone of equals. -/
def hottest (zs : List (BitVec 16)) : Option (Nat × BitVec 16) :=
  (List.range 8).foldl (fun a i =>
    let w := zs.getD i 0x8000
    if w = 0x8000 then a
    else match a with
      | none => some (i, w)
      | some b => if b.2.toInt < w.toInt then some (i, w) else a) none

/-- Target of source `i` of a cooling zone: a module, the die or the DIMMs (R632). -/
def sourceTarget (l : ImgLoops) (i : Nat) : Int :=
  if i = 48 then l.tgtDie else if i = 49 then l.tgtDimm else l.tgtMod

/-- Hottest fresh ZONE_TEMP of module `p`: its port is ACTIVE and its telemetry is not missing (R455, R632). -/
def moduleTemp (s : State) (p : Nat) : Option Int :=
  let m := portOf s p
  if decide (m.st = .active) && decide (now s < m.telemTime + 3 * s.med.periodMs * 1000000) then
    (hottest m.zoneTemps).map fun x => x.2.toInt
  else none

/-- Hottest DIMM sensor of the trained channels (R611, R632). -/
def dimmTemp (s : State) : Option Int :=
  (s.drc.chans.filter (·.trained)).foldl (fun a x => some (a.elim x.temp.toInt (max x.temp.toInt))) none

/-- Fresh reading of source `i` of a cooling zone, the junction's given (R632). -/
def sourceTemp (s : State) (die : Option Int) (i : Nat) : Option Int :=
  if i = 48 then die else if i = 49 then dimmTemp s else moduleTemp s i

/-- Zone excess over the fresh sources of its mask, none when it has none (R632). -/
def zonePv (s : State) (z : Nat) (die : Option Int) : Option Int :=
  (((List.range 50).filter fun i => (s.img.loops.zoneSrc.getD z 0).getLsbD i).filterMap fun i =>
      (sourceTemp s die i).map fun t => t - sourceTarget s.img.loops i).foldl
    (fun a e => some (a.elim e (max e))) none

/-- The fans whose zone is `z`. -/
def zoneFans (s : State) (z : Nat) : List Nat :=
  (List.range s.cle.fans.length).filter fun f => s.img.loops.fanZone.getD f 255 = z

/-- Measurement of a loop, none when it has not been refreshed since the previous sample (R625, R628). -/
def loopMeas (s : State) (d : LoopDue) : Option Int :=
  if d.n < 2 then d.meas
  else if d.n < 6 then zonePv s (d.n - 2) d.meas
  else if (loopOf s d.n).used = some (portOf s (d.n - 6)).telemTime then none
  else moduleTemp s (d.n - 6)

/-- PERIOD of a loop in ns (R620). -/
def loopPeriod (l : Loop) : Nat := (if l.cfg.paced then 100000 else 10000) * l.cfg.period

/-- The next sample of loop `n` falls due a period after `t`; a paced one counts as missed after 110 % of it (R620, R625). -/
def loopNext (n t : Nat) (s : State) : State :=
  let used := if 6 ≤ n then some (portOf s (n - 6)).telemTime else none
  modLoop n (fun l => { l with due := some (t + (if l.cfg.paced then loopPeriod l * 11 / 10 else loopPeriod l)), used := used }) s

/-- A sample that starts later than 10 % of PERIOD after its due time `t` is missed (R625). -/
def loopLate (l : Loop) (t now : Nat) : Bool := decide (t + loopPeriod l / 10 < now)

/-- The due time after a late sample: the first one that is still to come. -/
def loopSkip (l : Loop) (t now : Nat) : Nat := t + (now - t) / max 1 (loopPeriod l) * loopPeriod l

/-- A loop's sample falls due. A loop with PACED = 1 samples at each refresh; one with PACED = 0 once a period, and the sample is missed
when it starts late or its measurement is not fresh (R620, R625). A zone with no fan runs no loop (R632). -/
def loopSample (s : State) (d : LoopDue) : State :=
  let l := loopOf s d.n
  let s := { s with cle.rr := d.n }
  if 54 ≤ d.n then s
  else if 2 ≤ d.n ∧ d.n < 6 ∧ zoneFans s (d.n - 2) = [] then s
  else
    match loopMeas s d with
    | some pv =>
      if l.cfg.paced then loopNext d.n (now s) (loopRun d.n (sat16 pv) s)
      else
        match l.due with
        | none => loopNext d.n (now s) (loopRun d.n (sat16 pv) s)
        | some t =>
          if now s < t then s
          else if loopLate l t (now s) then loopNext d.n (loopSkip l t (now s)) (loopMissed d.n s)
          else loopNext d.n t (loopRun d.n (sat16 pv) s)
    | none =>
      if l.cfg.paced then s
      else
        match l.due with
        | none => loopNext d.n (now s) (loopMissed d.n s)
        | some t => if now s < t then s else loopNext d.n (loopSkip l t (now s)) (loopMissed d.n s)

/-- The samples that fall due in one cycle, in round-robin order of loop number (R620). -/
def roundRobin (last : Nat) (due : List LoopDue) : List LoopDue :=
  (List.range 64).filterMap fun i => due.find? fun d => d.n = (last + 1 + i) % 64

/-- What a sample of the timing margin or the junction is noted for: how long the margin has been below 0 ps, and the die temperature
of R120 when the image names no sensor (R120, R629). -/
def noteMeas (s : State) (d : LoopDue) : State :=
  match d.meas with
  | none => s
  | some v =>
    if d.n = 0 then { s with cle.avsNeg := if v < 0 then some (s.cle.avsNeg.getD (now s)) else none }
    else if 2 ≤ d.n ∧ d.n < 6 then noteTemp false (v * 10 / 16) s
    else s

/-- LOOP_SAMPLE: the loops whose samples fall due in this cycle. AVS returns to AUTO when its time after an exit has come (R620, R622,
R629). -/
def execLoopSample (n : Nat) (meas : Option Int) (more : List LoopDue) (s : State) : Host.Outcome State Fault Refusal :=
  if alive s then
    let s := match s.cle.avsReturn with
      | some t => if t ≤ now s then { s with cle.avsReturn := none } else s
      | none => s
    .next ((roundRobin s.cle.rr ({ n := n, meas := meas } :: more)).foldl (fun s d => loopSample (noteMeas s d) d) s)
  else .next s

/-- A sample of loop `n` is missed: it has not started within 10 % of PERIOD after its due time, or, with PACED = 1, no refresh has
arrived within 110 % of PERIOD after the previous one, and for each further PERIOD (R625). -/
def execMissedSample (n : Nat) (s : State) : Host.Outcome State Fault Refusal :=
  let l := loopOf s n
  if alive s then
    match l.due with
    | none => .next s
    | some t =>
      if l.cfg.paced then
        if t ≤ now s then .next (modLoop n (fun x => { x with due := some (t + loopPeriod l) }) (loopMissed n s)) else .next s
      else if loopLate l t (now s) then .next (loopNext n (loopSkip l t (now s)) (loopMissed n s))
      else .next s
  else .next s

/-- SAT_TIME of loop `n` reaches SAT_LIMIT, once an episode: SAT, record 0x0F03, ALERT_L, and the loop's action of R628
(R626). -/
def execLoopSaturated (n : Nat) (s : State) : Host.Outcome State Fault Refusal :=
  let l := loopOf s n
  if alive s && l.beyond && !l.recorded && decide (1000 * l.cfg.satLimit ≤ l.satTime) then
    let s := modLoop n (fun l => { l with sat := true, recorded := true }) s
    let s := recordAlert 0x0F03 loopSrc [n] { s with cle.satSeen := true }
    if n = 0 then .next (addTest loopSrc .avs false s)
    else if n = 1 then .next (addTest (srcId 6 5 3) .bankSense false (addTest (srcId 6 5 2) .bankSense false s))
    else .next s
  else .next s

/-- The AVS measurement stays below 0 ps for 1 ms (R629). -/
def execAvsMarginFail (s : State) : Host.Outcome State Fault Refusal :=
  if alive s && s.cle.avsNeg.any (fun t => decide (t + 1000000 ≤ now s)) then .next (failstop 6 loopSrc s) else .next s

/-- The charger's VOUT_COMMAND, 1 mV. -/
def chargeVout (mv : Nat) (s : State) : State := pmbusSend (fun r => r.role = 2) 0x21 mv s

/-- Every 10 s, midway between two samples, the charger output goes down by 2 % for 1 ms; ACC and pv_prev stay (R630). A charger
that is off gets no step. -/
def execChargeStep (s : State) : Host.Outcome State Fault Refusal :=
  let l := loopOf s 1
  let midway := l.due.any fun t => decide (now s < t) && decide (2 * (t - now s) = loopPeriod l)
  if alive s && decide (l.state = 2) && decide (s.cle.stepAt + 10 ^ 10 ≤ now s) && midway then
    .next (chargeVout (l.out.toNat * 10 * 98 / 100) { s with cle.stepAt := now s, cle.stepEnd := some (now s + 1000000) })
  else .next s

/-- After 1 ms the charger output returns to the loop's (R630). -/
def chargeOn (s : State) : State :=
  match s.cle.stepEnd with
  | none => s
  | some t =>
    if t ≤ now s then
      let s := { s with cle.stepEnd := none }
      if (loopOf s 1).state = 2 then chargeVout ((loopOf s 1).out.toNat * 10) s else s
    else s

/-! ## Fans and the die (R633, R634) -/

/-- A 1 s window of FAN_TACH counts `pulses`, 2 per revolution. A fan that has turned at FAN_MIN_RPM or more for 10 s is no longer faulty, and
the zone's OUT_MIN falls back once that holds of every fan of the zone (R633). -/
def execFanTachWindow (f pulses : Nat) (s : State) : Host.Outcome State Fault Refusal :=
  let rpm := 30 * pulses
  if alive s && s.img.board.fanEn.getLsbD f then
    let z := s.img.loops.fanZone.getD f 255
    let slowNow := decide (rpm < s.img.loops.fanMinRpm)
    let g (x : Fan) : Fan :=
      let good := if slowNow then 0 else x.good + 1
      { x with rpm := rpm, slow := if slowNow && decide (300 ≤ x.duty) then x.slow + 1 else 0, good := good,
               fault := x.fault && decide (good < 10) }
    let s := { s with cle.fans := s.cle.fans.modify f g }
    if (zoneFans s z).all fun f => decide (10 ≤ (s.cle.fans.getD f Fan.reset).good) then
      .next { s with cle.zonesMin := s.cle.zonesMin.set z false }
    else .next s
  else .next s

/-- A fan has stayed below FAN_MIN_RPM for 3 s with a duty of 300 per mille or more (R633). -/
def execFanFault (f : Nat) (s : State) : Host.Outcome State Fault Refusal :=
  let x := s.cle.fans.getD f Fan.reset
  if alive s && decide (3 ≤ x.slow) && !x.fault then
    let s := { s with cle.fans := s.cle.fans.modify f (fun x => { x with fault := true }) }
    let s := { s with cle.zonesMin := s.cle.zonesMin.set (s.img.loops.fanZone.getD f 255) true }
    .next (recordAlert 0x0F04 loopSrc [f] s)
  else .next s

/-- The junction reaches 115 degC: every fan full, DIE_HOT, record 0x0F08, ALERT_L (R634). -/
def execDieHot (s : State) : Host.Outcome State Fault Refusal :=
  if alive s && !s.cle.dieHot then
    let s := { s with cle.dieHot := true, cle.fans := s.cle.fans.map fun x => { x with duty := 1000 } }
    .next (recordAlert 0x0F08 loopSrc [] s)
  else .next s

/-- The junction falls to 110 degC: DIE_HOT clears and the fans go back to their zones' outputs (R634). -/
def execDieHotCleared (s : State) : Host.Outcome State Fault Refusal :=
  if alive s && s.cle.dieHot then
    let s := { s with cle.dieHot := false }
    .next ((List.range 4).foldl (fun s z => fanDrive z (loopOf s (z + 2)).out.toNat s) s)
  else .next s

/-- The junction at 125 degC for 10 ms: FAILSTOP (R634). -/
def execDieOvertemp (s : State) : Host.Outcome State Fault Refusal :=
  if alive s then .next (failstop 6 loopSrc s) else .next s

/-! ## Before an exit (R88, R629), and the telemetry period (R628) -/

/-- One step of 5 mV toward the value an exit waits for, at most one in 50 us (R88). -/
def raiseStep (goal : Nat) (s : State) : State :=
  let t := min goal (s.pwr.vddCore + 5)
  let s := modLoop 0 (fun l => { l with out := BitVec.ofNat 16 t }) s
  pmbusSend (fun r => r.rail = 0) 0x21 t { s with pwr.vddCore := t, pwr.stepAt := now s }

/-- The power domain raises VDD_CORE before an exit from DOZE or a start from VAULT: the loop goes to MANUAL at the target plus
AVS_PRERAISE, which is reached in steps of 5 mV; the exit waits for it (R88, R629). Frozen AVS keeps its last target (R87). -/
def avsRaise (s : State) : State :=
  if s.pwr.avsFrozen then { s with pwr.exitGoal := some s.pwr.vddCore, pwr.stepAt := now s }
  else
    let t := min 850 (s.pwr.vddCore + s.img.loops.avsPreraise)
    let s := modLoop 0 (fun l => { l with cfg := { l.cfg with manOut := BitVec.ofNat 16 t }, state := 1 }) s
    raiseStep t { s with pwr.exitGoal := some t }

/-- Once the last step is reached, 50 us after it was sent, the exit proceeds, what was held is fetched, and the loop returns to AUTO
10 ms later; until then the next step follows (R88, R91, R629). -/
def raiseOn (s : State) : State :=
  match s.pwr.exitGoal with
  | none => s
  | some g =>
    if s.pwr.stepAt + 50000 ≤ now s then
      if s.pwr.vddCore < g then raiseStep g s
      else issueAll { s with pwr.exitGoal := none, cle.avsReturn := some (now s + 10000000) }
    else s

/-- The same raise within a start from VAULT: every step of it before the start goes on (R88, R629). -/
def avsRaiseNow (s : State) : State :=
  let s := (List.range 40).foldl (fun s _ => s.pwr.exitGoal.elim s fun g => if s.pwr.vddCore < g then raiseStep g s else s) (avsRaise s)
  { s with pwr.exitGoal := none, cle.avsReturn := some (now s + 10000000) }

/-- The engine sets PERIOD of the MODZ loops again at a change of the telemetry period (R628). -/
def modzPeriod (ms : Nat) (s : State) : State :=
  { s with cle.loops := (List.range s.cle.loops.length).map fun n =>
      let l := s.cle.loops.getD n Loop.reset
      if 6 ≤ n ∧ n < 54 then { l with cfg := { l.cfg with period := 10 * ms } } else l }

/-! ## Registers (R641, R642) -/

/-- Write of a CLE register at an offset within the block, CLE_SLOT_OFF excepted. -/
def cleWrite (off : Nat) (w : BitVec 32) (s : State) : State :=
  if off = 0 then
    { s with cle.cfgErr := s.cle.cfgErr && !bitOf w 0, cle.satSeen := s.cle.satSeen && !bitOf w 1,
             cle.deadline := s.cle.deadline && !bitOf w 2, cle.slotFault := s.cle.slotFault && !bitOf w 5 }
  else if 0x1000 ≤ off ∧ off < 0x1800 then
    let n := (off - 0x1000) / 32
    let i := (off - 0x1000) % 32 / 4
    if 54 ≤ n then s
    else if i < 5 then loopStage n i w s
    else if i = 5 then (if bitOf w 0 then loopCommitHost n s else s)
    else if i = 6 then modLoop n (fun l => { l with sat := l.sat && !bitOf w 18 }) s
    else modLoop n (fun l => { l with failOut := (w >>> 16).setWidth 16 }) s
  else s

end Sys2Proof.Machine
end

