-- ==== Sys2Proof/Machine/Power.lean ====
section
/-!
DEFINITION. The supply guardian (chapter 03): the feeds, the holdup gauge and the budget, commitment to a power-fail
flush, regulators, the idle states, the VAULT conditions, and the Acorn island.
-/
namespace Sys2Proof.Machine

/-- Source identifier of the power domain controller (R27). -/
def powerSrc : Nat := srcId 0 1 0

/-- The supervisor and the domain controllers run: the head is not held in reset (R24, R65). -/
def powered (s : State) : Bool := !s.glb.held

/-- Bytes as MiB (R668). -/
def toMib (n : Nat) : Nat := n / 1048576

/-! ## The budget (R72 to R77) -/

/-- C in force, uF: measured since the rails came up, else recorded at the last clean stop (R73). -/
def bankCap (p : Pwr) : Option Nat := if p.cap.isSome && p.esr.isSome then p.cap else p.recCap

/-- ESR in force, uOhm (R73). -/
def bankRes (p : Pwr) : Option Nat := if p.cap.isSome && p.esr.isSome then p.esr else p.recEsr

/-- C (V^2 - V_MIN^2), in units of 0.5 x 10^-12 J (R72). -/
def energyRaw (cap mv vmin : Nat) : Nat := cap * (mv * mv - vmin * vmin)

/-- E_REM in mJ as PWR_BANK_ENERGY shows it (R72, R104). -/
def bankEnergyMj (s : State) : Nat :=
  match bankCap s.pwr with
  | none => 0
  | some c => min (2 ^ 32 - 1) (energyRaw c s.pwr.vBank s.img.power.vMin / 2000000000)

/-- t_flush as a fraction of seconds, 0 where the formula of R74 is not above 0. `tenth` is 9 while the gauge still uses
recorded values (R73), else 10. -/
def flushTime (p : ImgPower) (cap esr mv tenth : Nat) : Nat × Nat :=
  let eN := 99 * tenth * energyRaw cap mv p.vMin
  let eD := 2000 * 10 ^ 12
  let pN := 10 * p.pF * p.eta * p.vMin ^ 2 + 100 * p.pF ^ 2 * esr
  let pD := p.eta ^ 2 * p.vMin ^ 2
  let fix := p.rideMs + 2 + p.closeMs
  (eN * pD * 1000 - fix * eD * pN, 1000 * eD * pN)

/-- t_flush x R_F in bytes, with the die program throughput `rate` in bytes per second (R74). -/
def flushable (t : Nat × Nat) (rate k m : Nat) : Nat := t.1 * rate * k * 128 / (t.2 * (k + m) * 129)

/-- Host-data capacity of the pre-erased flush reserve: the strip slots of its RESERVE blocks, less parity and RAW
overhead (R74, R75). -/
def reserveBytes (s : State) : Nat :=
  let slots := (s.mmg.ledger.filter fun l => l.st = .reserve).foldl (fun n l => n + slotsPerBlock s l.slot) 0
  slots * 1048576 * (flushGeom s).1 * 128 / (((flushGeom s).1 + (flushGeom s).2) * 129)

/-- D_F-free budget of the formula, before D_RES and rounding. -/
def ownFlushable (s : State) (rate : Nat) : Nat :=
  match bankCap s.pwr, bankRes s.pwr with
  | some c, some r =>
    let tenth := if s.pwr.cap.isSome && s.pwr.esr.isSome then 10 else 9
    flushable (flushTime s.img.power c r s.pwr.vBank tenth) rate (flushGeom s).1 (flushGeom s).2
  | _, _ => 0

/-- D: limited by D_RES and rounded down to whole chunks (R74). -/
def ownBudgetOf (s : State) (rate : Nat) : Nat := min (ownFlushable s rate) (reserveBytes s) / 32768 * 32768

/-- The pair budget: the smaller D, or this head's own while MIRROR reads 3 (R76). -/
def budgetOf (s : State) : Nat :=
  if s.wlg.mirror = 3 then s.pwr.ownBudget else min s.pwr.ownBudget (s.pwr.peerBudget.getD 0)

/-- The budget is taken again; BACKPRESSURE follows, with one record 0x0107 an episode (R77). -/
def rebudget (s : State) : State :=
  let b := budgetOf s
  let d := dirtyBytes s
  let s := { s with pwr.budget := b }
  if b < d then
    if s.pwr.backpressure then s
    else record 0x0107 powerSrc [toMib b, toMib d] { s with pwr.backpressure := true }
  else { s with pwr.backpressure := false }

/-- A measurement of the bank: C from a charging interval that raised the voltage by 2 %, ESR from a current step, and
the energy (R72). -/
def execGaugeSample (g : GaugeSample) (s : State) : Host.Outcome State Fault Refusal :=
  if powered s then
    let s := { s with
      pwr.vBank := g.mv, pwr.iBank := g.ma
      pwr.overAt := if 2000 < g.ma then some (s.pwr.overAt.getD (now s)) else none }
    let s := match g.charge with
      | some (dq, dv) => if 0 < dv ∧ g.mv ≤ 51 * dv then { s with pwr.cap := some (dq * 1000 / dv) } else s
      | none => s
    let s := match g.step with
      | some (dv, di) => if 0 < di then { s with pwr.esr := some (dv * 1000 / di) } else s
      | none => s
    .next { s with pwr.bankEnergy := bankEnergyMj s, pwr.bankEsr := min (2 ^ 32 - 1) ((bankRes s.pwr).getD 0) }
  else .next s

/-- Every 1 ms D is computed, the reserve sized and D sent to the peer (R74 to R76); during a flush its progress goes with it
(R81). -/
def execBudgetCompute (rate : Nat) (s : State) : Host.Outcome State Fault Refusal :=
  if alive s then
    let d := ownBudgetOf s rate
    let s := { s with pwr.ownBudget := d, pwr.reserve := ownFlushable s rate }
    let s := xhlSend 0x0003 false false [d] [] s
    let s := if s.pwr.flushActive then xhlSend 0x0004 false false [0, s.wlg.commitLsn, dirtyBytes s] [] s else s
    .next (rebudget s)
  else .next s

/-- The peer's D arrives (R76). -/
def execBudget (d : Nat) (s : State) : Host.Outcome State Fault Refusal :=
  if alive s then .next (rebudget { s with pwr.peerBudget := some d, pwr.peerBudgetAt := now s }) else .next s

/-- A peer budget older than 5 ms counts as 0 (R76). -/
def execPeerBudgetStale (s : State) : Host.Outcome State Fault Refusal :=
  if alive s && decide (s.pwr.peerBudgetAt + 5000000 < now s) then .next (rebudget { s with pwr.peerBudget := none }) else .next s

/-! ## Commitment to a flush (R79 to R82, R142) -/

/-- Exit to PS0: CUR_PS reads 0 from here, and from DOZE the domains stay as they are until VDD_CORE has been raised; then the commands
held are fetched (R88, R91, R100, R629). -/
def exitIdle (s : State) : State :=
  let s := if s.pwr.curPs = 2 then avsRaise s else s
  issueAll { s with pwr.curPs := 0, pwr.idleNow := false, pwr.idleOn := false }

/-- The power states in progress are abandoned and a head in DROWSE or DOZE exits first (R80). -/
def leaveIdle (s : State) : State := { exitIdle s with pwr.vaultProposed := false, pwr.vaultAgreed := false }

/-- Every held write completes NOT_READY (R305). -/
def dropHolds (s : State) : State :=
  s.wlg.holds.foldl (fun s h => endTag h.remote h.q h.tag stNotReady 0 0 s) { s with wlg.holds := [], wlg.logFull := false }

/-- Maintenance work stops and waits (R82). -/
def stopMaintenance (s : State) : State :=
  { s with ecp.paused := s.ecp.paused ++ s.ecp.running, ecp.running := [] }

/-- At a flush commitment the Reduce stage stops: what is in it goes RAW to the Protect stage, and a hit that was being verified gives
back its reference; a stored chunk that waits for its seed record is mapped without one (R81, R82). -/
def flushJob (j : Job) : Job :=
  match j.stage with
  | .fingerprint | .lookup | .verify | .encode | .kernelVerify =>
    { j with stage := .protect, container := [], hit := none, indexed := false, replace := none }
  | .insert => { j with stage := .placed, shared := false, indexed := false }
  | .assembling | .protect | .placed => j

/-- The Reduce stage stops (R81, R82). -/
def stopReduce (s : State) : State :=
  let held := s.wlg.jobs.filterMap fun j => if j.stage = .verify then j.hit else none
  held.foldl (fun s l => lowerRef (locGrain l) (locGrains l) s) { s with wlg.jobs := s.wlg.jobs.map flushJob }

/-- Commit to a flush: 1 at the end of the window, 2 for a discharge. A flush that runs goes on (R80); a start stops,
writing the records it holds while the bank has energy, and CLEAN_STOP stays (R142). -/
def flushCommit (cause : Nat) (s : State) : State :=
  if s.pwr.flushActive || !alive s || decide (s.glb.mode = .vault) then s
  else if s.glb.mode = .starting then
    let s := if 0 < s.pwr.bankEnergy then almSaveAll s else s
    { s with pwr.window := none, glb.held := true }
  else
    let d := dirtyBytes s
    let s := leaveIdle { s with pwr.window := none }
    let s := { s with pwr.flushActive := true, pwr.flushStep := 3, pwr.flushAt := now s, pwr.flushAtCommit := d,
                      pwr.flushBytes := 0 }
    let s := record 0x0104 powerSrc [toMib d, toMib s.pwr.budget, s.pwr.bankEnergy / 1000, cause] s
    let s := stopReduce (stopMaintenance (dropHolds s))
    { xhlSend 0x0004 false false [1, s.wlg.commitLsn, d] [] s with pwr.flushStep := 5 }

/-- The ride-through window ends with no feed supplying (R79). -/
def execRideThroughExpiry (s : State) : Host.Outcome State Fault Refusal :=
  if (s.pwr.window.any fun t => t + s.img.power.rideMs * 1000000 ≤ now s) && !supplyingNow s then .next (flushCommit 1 s) else .next s

/-- A discharge current above 2 A for 0.5 ms (R79). -/
def execBankDischarge (s : State) : Host.Outcome State Fault Refusal :=
  if s.pwr.overAt.any fun t => t + 500000 ≤ now s then .next (flushCommit 2 s) else .next s

/-! ## The feeds (R66 to R70, R78, R732) -/

/-- Nominal rms voltage in V, nominal frequency in Hz and modulator full scale in mV peak of feed 0 (A) or 1 (B) (R66, R158). -/
def feedNominal (s : State) (feed : Nat) : Nat × Nat × Nat :=
  let p := s.img.power
  if feed = 0 then (p.feedAV, p.feedAHz, p.feedAScale) else (p.feedBV, p.feedBHz, p.feedBScale)

/-- Samples of the sliding window of 1 ms at 78.125 kS/s (R66, R67). -/
def windowSamples : Nat := 78

/-- The window with the samples of one reading joined to it. -/
def slideWindow (w : List (Int × Int)) (r : FeedReading) : List (Int × Int) := lastN windowSamples (w ++ r.samples)

/-- The present amplitude in percent of nominal: the rms of the window's samples, scaled by the modulator's full scale, against
the rms of the reference waveform at nominal amplitude over the same window (R67). -/
def feedAmp (scale : Nat) (w : List (Int × Int)) : Nat :=
  let x := w.foldl (fun n p => n + p.1.natAbs ^ 2) 0 * scale ^ 2
  let r := w.foldl (fun n p => n + p.2.natAbs ^ 2) 0 * 2 ^ 46
  if r = 0 then 0 else Nat.sqrt (10000 * x / r)

/-- The amplitude lies above 110 % of nominal, judged on the squares themselves (R67). -/
def feedSwell (scale : Nat) (w : List (Int × Int)) : Bool :=
  let x : Nat := w.foldl (fun n p => n + p.1.natAbs ^ 2) 0 * scale ^ 2
  let r : Nat := w.foldl (fun n p => n + p.2.natAbs ^ 2) 0 * 2 ^ 46
  decide (r ≠ 0 ∧ 12100 * r < 10000 * x)

/-- The frequency over the last 10 cycles lies outside 2 % of nominal (R67): their duration in us against 10 / f. -/
def feedFreqOff (hz tenCycles : Nat) : Bool :=
  decide (tenCycles * hz * 102 < 10 ^ 7 * 100) || decide (10 ^ 7 * 100 < tenCycles * hz * 98)

/-- The reference waveform holds 10 cycles: as many samples as 10 nominal cycles last (R67, R732). -/
def refHolds (hz n : Nat) : Bool := decide (781250 ≤ n * hz)

/-- What one reading shows (R67), in the precedence of R68. -/
def readFeed (amp : Nat) (swell freqOff stuck : Bool) : FeedState :=
  if stuck then .sensorFault
  else if amp < 10 then .interrupted
  else if amp < 90 then .dip
  else if swell then .swell
  else if freqOff then .freq
  else .good

/-- A feed in a state counts as supplying (R67). -/
def feedSupplies (st : FeedState) (amp floor : Nat) : Bool :=
  match st with
  | .good => true
  | .swell => true
  | .freq => true
  | .dip => decide (floor ≤ amp)
  | .interrupted => false
  | .sensorFault => false

/-- Readings of 128 us that make 20 ms of continuous GOOD: the 158th ends the first 20 ms (R68). -/
def goodReadings : Nat := 158

/-- A feed after one reading: its first classification, once the reference waveform holds 10 cycles, is direct; a return to GOOD
takes 20 ms (R67, R68, R732). -/
def nextFeed (f : Feed) (hz scale floor : Nat) (x : FeedReading) : Feed :=
  let w := slideWindow f.window x
  let n := f.refSamples + x.samples.length
  let amp := feedAmp scale w
  let r := readFeed amp (feedSwell scale w) (feedFreqOff hz x.tenCycles) (decide (64 ≤ x.run))
  let run := if r = .good then f.goodRun + 1 else 0
  let f := { f with window := w, refSamples := n }
  if !f.valid && !refHolds hz n then f
  else
    let st := if !f.valid then r else if r = .good ∧ f.st ≠ .good ∧ run < goodReadings then f.st else r
    { f with
      st := st, supplying := feedSupplies st amp floor, valid := true, level := min 255 amp, goodRun := run
      low := min f.low (min 255 amp), high := max f.high (min 255 amp) }

/-- The windows: when no classified feed supplies the window starts, unless a flush runs; when one supplies again it ends
(R78, R79, R732). `back` is the feed that returned. -/
def mainsAfter (back : Nat) (s : State) : State :=
  let known := s.pwr.feedA.valid || s.pwr.feedB.valid
  let loss := known && !supplyingNow s
  let s := { s with pwr.onMainsLoss := loss }
  match s.pwr.window with
  | some t =>
    if loss then s
    else record 0x0103 powerSrc [(now s - t) / 1000, back] { s with pwr.window := none }
  | none =>
    if loss && !s.pwr.flushActive && !s.pwr.stepEight then
      record 0x0102 powerSrc [s.img.power.rideMs, s.pwr.feedA.level, s.pwr.feedB.level]
        { s with pwr.window := some (now s) }
    else s

/-- Code of a feed's lane as a source (R27). -/
def feedSrc (feed : Nat) : Nat := srcId 6 5 feed

/-- One classification of feed 0 (A) or 1 (B) (R67, R69). The first classification leaves the SENSOR_FAULT that the register shows
until then (R732); the spec does not say whether that is a change of state, and the model writes no 0x0101 for it (DESIGN CHOICE,
log entry 88). -/
def execFeedClassification (feed : Nat) (samples : List (Int × Int)) (tenCycles run : Nat) (s : State) :
    Host.Outcome State Fault Refusal :=
  if powered s && decide (feed < 2) then
    let f := if feed = 0 then s.pwr.feedA else s.pwr.feedB
    let g := nextFeed f (feedNominal s feed).2.1 (feedNominal s feed).2.2 s.img.power.rideFloor
      { samples := samples, tenCycles := tenCycles, run := run }
    let change := f.valid && decide (g.st ≠ f.st)
    let ext := if g.st = .swell ∨ f.st = .swell then g.high else g.low
    let g' := if change || !f.valid then { g with low := g.level, high := g.level } else g
    let s := if feed = 0 then { s with pwr.feedA := g' } else { s with pwr.feedB := g' }
    let s := if change then record 0x0101 (feedSrc feed) [feed, feedCode f.st, feedCode g.st, ext] s else s
    .next (mainsAfter feed s)
  else .next s

/-! ## Regulators (R85 to R87) -/

/-- Lanes of the SerDes interfaces. -/
def serdesLanes (s : State) : List Nat :=
  (List.range (numEps s)).map (srcId 1 0) ++ (List.range 4).map (srcId 1 2) ++ (List.range 8).map (srcId 1 6) ++
    (List.range 48).map (srcId 5 0)

/-- Elements of the interfaces that a rail feeds, by the banks of R46 and R47, with the test of each (R87): the SerDes rails, the
DDR5 PHY, the 1.8 V and 3.3 V sideband banks, the ADC channels, the module slots and the charger; no interface of the Psiale lies
on another board rail. -/
def railElements (s : State) (rail : Nat) : List (Nat × TestKind) :=
  if rail = 1 ∨ rail = 2 then (serdesLanes s).map fun x => (x, .lane)
  else if rail = 3 then (List.range 12).map fun c => (srcId 6 0 c, .dram)
  else if rail = 4 then [(srcId 6 3 0, .regionLane), (srcId 6 5 0, .bankSense), (srcId 6 5 1, .bankSense)]
  else if rail = 5 then [(srcId 6 4 0, .pmbus), (srcId 6 4 1, .pmbus)]
  else if rail = 6 ∨ rail = 8 then [(srcId 6 5 2, .bankSense), (srcId 6 5 3, .bankSense)]
  else if rail = 7 then (List.range 48).map fun p => (srcId 5 0 p, .lane)
  else []

/-- Self-tests of the interfaces that a rail feeds (R87). -/
def railTest (rail : Nat) (s : State) : State :=
  (railElements s rail).foldl (fun s x => addTest x.1 x.2 false s) s

/-- Read a regulator over PMBus: the commands that a poll sends (R85, R86). -/
def pmbusReads : List Nat := [0x79, 0x8B, 0x8C, 0x8D]

/-- Send the read commands of a poll to every regulator of the image (R86). -/
def pollSend (s : State) : State :=
  s.pwr.regs.foldl (fun s r => pmbusReads.foldl (fun s c => emit (.pmbus r.master r.addr c 0) s) s) s

/-- The regulator of the image at a master and address. -/
def regAt (s : State) (master addr : Nat) : Option Regulator :=
  s.pwr.regs.find? fun r => decide (r.master = master) && decide (r.addr = addr)

/-- Change a regulator. -/
def modReg (master addr : Nat) (f : Regulator → Regulator) (s : State) : State :=
  { s with pwr.regs := s.pwr.regs.map fun r => if r.master = master ∧ r.addr = addr then f r else r }

/-- The record that each regulator event writes: master and address, STATUS_WORD and role; a warning or a fault asserts ALERT_L
(R87). REG_FAULT follows every event of R87 (R100). -/
def regRecord (alert : Bool) (master addr : Nat) (status : BitVec 16) (role : Nat) (s : State) : State :=
  let ps := [master, addr, status.toNat, role]
  let s := { s with pwr.regFault := true }
  if alert then recordAlert 0x0108 powerSrc ps s else record 0x0108 powerSrc ps s

/-- A transaction with a regulator that was not answered; the third in a row is its loss (R87). -/
def regFailed (r : Regulator) (s : State) : State :=
  let n := r.fails + 1
  let s := modReg r.master r.addr (fun r => { r with fails := n }) s
  if n = 3 then
    let s := modReg r.master r.addr (fun r => { r with lost := true }) s
    let s := if r.rail = 0 then { s with pwr.avsFrozen := true } else s
    let s := regRecord false r.master r.addr r.status r.role s
    externalError (srcId 6 4 r.master) .pmbus (record 0x0109 (srcId 6 4 r.master) [r.master, r.addr] s)
  else s

/-- CLEAR_FAULTS goes to a regulator whose event has been recorded: R85 lists the command and does not say when it is sent (DESIGN
CHOICE, log entry 88). -/
def regClear (r : Regulator) (s : State) : State := emit (.pmbus r.master r.addr 0x03 0) s

/-- What a regulator's status asks for (R87). An event is recorded when the status word changes. -/
def regEvent (r : Regulator) (x : RegRead) (s : State) : State :=
  let core := decide (r.rail = 0 ∨ r.rail = 1 ∨ r.rail = 3)
  match x.event with
  | .none => s
  | .warning => if x.status = r.status then s else regClear r (regRecord true r.master r.addr x.status r.role s)
  | .overUnderVoltage =>
    if core then failstop 2 powerSrc (regRecord false r.master r.addr x.status r.role s)
    else if x.status = r.status then s
    else regClear r (railTest r.rail (regRecord true r.master r.addr x.status r.role s))
  | .fault =>
    if x.status = r.status then s
    else regClear r (railTest r.rail (regRecord true r.master r.addr x.status r.role s))

/-- One regulator's reading (R86). An answer ends a loss. -/
def regRead (s : State) (x : RegRead) : State :=
  match regAt s x.master x.addr with
  | none => s
  | some r =>
    if x.ok then
      let s := modReg r.master r.addr (fun r =>
        { r with status := x.status, vout := x.vout, iout := x.iout, temp := x.temp, fails := 0, lost := false }) s
      let s := if r.lost && decide (r.rail = 0) then { s with pwr.avsFrozen := false } else s
      let s := if r.master = 1 ∧ r.addr = s.img.time.oscSensor then noteTemp true x.temp s else s
      regEvent r x s
    else regFailed r s

/-- Every 10 ms each regulator is read (R86); the sensor beside the oscillator is one of them (R120). -/
def execPmbusPoll (reads : List RegRead) (s : State) : Host.Outcome State Fault Refusal :=
  if alive s then .next (reads.foldl regRead (pollSend s)) else .next s

/-- An alert input falls: an Alert Response goes out on its master (address 0x0C of SMBus), then the STATUS_WORD of the regulator
that answered is read; PMB0 first (R86). -/
def alertRead (s : State) (x : RegRead) : State :=
  regRead (emit (.pmbus x.master x.addr 0x79 0) (emit (.pmbus x.master 0x0C 0 0) s)) x

/-- PMBUS_ALERT (R86). -/
def execPmbusAlert (m0 m1 : Option RegRead) (s : State) : Host.Outcome State Fault Refusal :=
  if alive s then .next ((m0.toList ++ m1.toList).foldl alertRead s) else .next s

/-! ## The next known event (R92) -/

/-- A civil time as device time. -/
def deviceOf (s : State) (t : Int) : Nat := (t - s.lds.civilOffset).toNat

/-- The known events with their source codes (R92, R104). -/
def knownEvents (s : State) : List (Nat × Nat) :=
  (if s.mmg.nextRefresh = BitVec.allOnes 64 then [] else [(s.mmg.nextRefresh.toNat, 1)]) ++
  (match s.ecp.patrolStart with
    | some t => if s.ecp.patrolDays = 0 then [] else [(t + s.ecp.patrolDays * 86400000000000, 2)]
    | none => []) ++
  (s.red.volumes.flatMap fun v => v.locks.map fun l => (deviceOf s l.expiry, 3)) ++
  (s.lds.tenants.flatMap fun t => (t.open_.map fun p => (deviceOf s p.fin, 3)).toList) ++
  (match s.dcq.hintTime with | some t => [(deviceOf s t, 4)] | none => []) ++
  (match s.pwr.peerNext with | some t => [(t, 5)] | none => [])

/-- The earliest known event and its source; the lower source code of two at one time. -/
def nextKnown (s : State) : Option (Nat × Nat) :=
  (knownEvents s).foldl (fun a x =>
    match a with
    | none => some x
    | some b => if x.1 < b.1 ∨ (x.1 = b.1 ∧ x.2 < b.2) then some x else some b) none

/-- The next known event is at least `ns` away. -/
def clearFor (s : State) (ns : Nat) : Bool :=
  match nextKnown s with
  | none => true
  | some (t, _) => decide (now s + ns ≤ t)

/-! ## The idle states (R89 to R91, R101) -/

/-- A command is a waiting ASYNC_EVENT, which does not count as outstanding (R242). -/
def isAsync (s : State) (c : Cmd) : Bool := s.dcq.async.any fun a => a.1 = c.q && decide (a.2 = c.tag)

/-- A tag of a queue is ready or fetched by another command than a waiting ASYNC_EVENT. -/
def tagBusy (s : State) (q : Queue) (t : Nat) : Bool :=
  decide ((q.tags.getD t Tag.reset).st ≠ .free) && !(s.dcq.async.any fun a => a.1 = q.id && decide (a.2 = t))

/-- The head is idle (R89). -/
def headIdle (s : State) : Bool :=
  s.dcq.cmds.all (isAsync s) && s.dcq.queues.all (fun q => (List.range 32).all fun t => !tagBusy s q t) &&
    s.ecp.running.isEmpty && s.wlg.reserved.isEmpty && s.wlg.holds.isEmpty &&
    s.wlg.frames.all (fun f => f.st = .committed) && s.xhl.handover.isNone

/-- Slots whose SLOT_EN this head does not drive high. -/
def slotsLow (s : State) : Nat :=
  ((List.range 48).filter fun n => !(s.cle.slots.getD n SlotPwr.reset).en).foldl (fun m n => m + 2 ^ n) 0

/-- Tell the peer of idleness, the next known event, the VAULT conditions, the slots wanted off and those whose SLOT_EN is low (R93,
R568, R636, R638). -/
def sendPower (ready propose accept : Bool) (s : State) : State :=
  xhlSend 0x0005 false false
    [b2n (headIdle s), (nextKnown s).elim 0 (fun x => x.1 + 1), b2n ready, b2n propose, b2n accept, s.cle.slotOff.toNat, slotsLow s] [] s

/-- An event ends idleness: both idle timers start again, and a head in DROWSE or DOZE starts its exit (R89). An IDLE_NOW hint ends with
the idle period it was for (R242). -/
def busy (s : State) : State :=
  let s := { s with pwr.lastBusy := now s, pwr.idleNow := s.pwr.idleNow && !s.pwr.idleOn, pwr.idleOn := false }
  if s.pwr.curPs = 1 ∨ s.pwr.curPs = 2 then exitIdle s else s

/-- At each instant the head's idleness is judged: while it is not idle the timers stand at 0, and an IDLE_NOW hint takes hold
with the idle period that begins (R89, R90, R242). -/
def watchIdle (s : State) : State :=
  if headIdle s then { s with pwr.idleOn := s.pwr.idleNow } else busy s

/-- An idle timer of `ns` has expired, or IDLE_NOW makes it count as expired (R90, R242). -/
def timerDone (s : State) (ns : Nat) : Bool := s.pwr.idleNow || decide (s.pwr.lastBusy + ns ≤ now s)

/-- An idle state may be entered. R90 names no ride-through window; the model enters none while one runs, since R80 would abandon
the entry at the commitment (DESIGN CHOICE, log entry 88). -/
def mayIdle (s : State) : Bool :=
  alive s && s.glb.service && !s.pwr.flushActive && s.pwr.window.isNone && headIdle s && s.pwr.exitGoal.isNone

/-- The conditions of DOZE hold (R90). -/
def mayDoze (s : State) : Bool :=
  mayIdle s && s.pwr.ps2En && decide (s.pwr.curPs < 2) && timerDone s (1000000 * s.pwr.idlePs2) && clearFor s 600000

/-- The DROWSE timer expires (R90); with IDLE_NOW in force the deepest permitted state is entered at once (R242). -/
def execDrowseEntry (s : State) : Host.Outcome State Fault Refusal :=
  if s.pwr.idleNow && mayDoze s then .next { s with pwr.curPs := 2 }
  else if mayIdle s && s.pwr.ps1En && decide (s.pwr.curPs = 0) && timerDone s (1000 * s.pwr.idlePs1) && clearFor s 10000 then
    .next { s with pwr.curPs := 1 }
  else .next s

/-- The DOZE timer expires (R90). -/
def execDozeEntry (s : State) : Host.Outcome State Fault Refusal :=
  if mayDoze s then .next { s with pwr.curPs := 2 } else .next s

/-- An end of idleness (R89 to R91). -/
def execPowerStateExit (s : State) : Host.Outcome State Fault Refusal :=
  if alive s then .next (exitIdle (busy s)) else .next s

/-- One exit latency before the next known event (R91, R102). -/
def execScheduledExit (s : State) : Host.Outcome State Fault Refusal :=
  if alive s && !clearFor s (if s.pwr.curPs = 2 then 300001 else 5001) then .next (exitIdle s) else .next s

/-- Write of PWR_PS_CTL: clearing the enable of the present state is an immediate exit (R101). -/
def psCtlWrite (w : BitVec 32) (s : State) : State :=
  let s := { s with pwr.ps1En := bitOf w 0, pwr.ps2En := bitOf w 1, pwr.ps3En := bitOf w 2 }
  let s := if s.pwr.ps3En then s else { s with pwr.vaultProposed := false, pwr.vaultAgreed := false }
  if (decide (s.pwr.curPs = 1) && !s.pwr.ps1En) || (decide (s.pwr.curPs = 2) && !s.pwr.ps2En) then exitIdle s else s

/-- PS_CTL_WRITE (R101). -/
def execPsCtlWrite (w : BitVec 32) (s : State) : Host.Outcome State Fault Refusal :=
  if hostWriteOk s 0x01 then .next (psCtlWrite w s) else .next s

/-! ## VAULT conditions (R41, R93) -/

/-- No feed is in any state but GOOD. -/
def feedsGood (s : State) : Bool := decide (s.pwr.feedA.st = .good) && decide (s.pwr.feedB.st = .good)

/-- The write log is empty and every accepted write is committed (R41). -/
def logEmpty (s : State) : Bool :=
  s.wlg.frames.isEmpty && s.wlg.reserved.isEmpty && s.wlg.holds.isEmpty && s.wlg.jobs.isEmpty

/-- This head's own VAULT conditions (R93). -/
def vaultReady (s : State) : Bool :=
  alive s && decide (s.glb.mode = .ready) && s.pwr.ps3En && s.pwr.consent && !s.pwr.flushActive &&
    clearFor s (s.pwr.thresholdMin * 60000000000) && logEmpty s && feedsGood s

/-- The head with HEAD_SEL = 0 proposes VAULT entry when every condition holds (R93). -/
def execVaultProposal (s : State) : Host.Outcome State Fault Refusal :=
  if vaultReady s && s.pwr.peerVault && peerUp s && !s.glb.headSel then
    .next (sendPower true true false { s with pwr.vaultProposed := true })
  else .next s

/-! ## The Acorn island (R50, R83, R97 to R99, R714) -/

/-- WAKE_L held low from outside for 1 ms wakes a head in VAULT, once (R50); one that arrives while the head is entering is held
(R96). -/
def execWakeLExternal (s : State) : Host.Outcome State Fault Refusal :=
  if (s.island.inVault || s.pwr.vaultAt.isSome) && decide (s.island.wakeCause = 0) then
    .next { s with island.wakeCause := 2, pwr.vaultWake := s.pwr.vaultWake || s.pwr.vaultAt.isSome }
  else .next s

/-- The island left without supply is reset (R98). -/
def islandLoss (i : Island) : Island :=
  { Island.reset with lost := true, onVbat := true, vbatMv := i.vbatMv, inVault := i.inVault }

/-- The state of the island's two supplies: VDDIO_18 is within its tolerance or not, and VBAT is at `mv`. It runs from VDDIO_18 while that
is within tolerance, and without either it is reset. When both pass their thresholds in one cycle it stays on its present supply for that
cycle; the state of the next cycle comes as a command of its own (R98, R714). -/
def execIslandSupplyChange (vddioOk : Bool) (mv : Nat) (s : State) : Host.Outcome State Fault Refusal :=
  let both := (vddioOk == s.island.onVbat) && decide (decide (mv < 2500) ≠ decide (s.island.vbatMv < 2500))
  let s := { s with island.vbatMv := mv }
  if both then .next s
  else if vddioOk then .next { s with island.onVbat := false }
  else if mv < 2500 then .next { s with island := islandLoss s.island }
  else .next { s with island.onVbat := true }

/-- A record that the island raises while the main rails are off: SOURCE 0xE100, the island's time, and a CODE that the
spec does not give (R97, R671). -/
def islandRecord (time : Nat) (s : State) : State :=
  let (v, s) := takeFree s
  let r : AlmRecord :=
    { AlmRecord.reset with
      code := freeCode v, source := srcId 7 2 0, island := true, time := time, seq := s.alm.nextSeq }
  { s with alm.nextSeq := s.alm.nextSeq + 1, island.records := lastN 16 (s.island.records ++ [r]) }

/-- Nanoseconds that island counts of 1/32 768 s take (R108). -/
def countsNs (counts : Nat) : Nat := counts * 1953125 / 64

/-- Time by the island while the head stands: what it stored at the stop and its counts since (R108). -/
def islandNow (s : State) : Nat :=
  s.island.storedTime + countsNs ((s.island.counter + 2 ^ 48 - s.island.storedCount % 2 ^ 48) % 2 ^ 48)

/-- The wake alarm, once its time is reached: one that comes while the head is entering VAULT is held (R96). WAKE_L goes low while MAINS_RTN is high, else once it has been high for 2 s (R97). -/
def execIslandWakeAlarm (mainsRtn : Bool) (s : State) : Host.Outcome State Fault Refusal :=
  match s.island.alarm with
  | some t =>
    if (if s.pwr.vaultAt.isSome then now s else islandNow s) < t then .next s
    else if s.pwr.vaultAt.isSome then
      .next { s with island.alarm := none, pwr.vaultWake := true,
                     island.wakeCause := if s.island.wakeCause = 0 then 1 else s.island.wakeCause }
    else if s.island.inVault then
      let s := { s with island.alarm := none }
      let cause := if s.island.wakeCause = 0 then 1 else s.island.wakeCause
      if mainsRtn then .next { s with island.wakeL := true, island.wakeCause := cause }
      else .next (islandRecord t { s with island.wakePending := true, island.wakeCause := cause })
    else .next s
  | none => .next s

/-- MAINS_RTN has been high for 2 s: after a stop at step 8, or for a wake that waits for it, WAKE_L goes low
(R83, R97). -/
def execMainsRtn (s : State) : Host.Outcome State Fault Refusal :=
  if s.pwr.stepEight then .next { s with island.wakeL := true, island.wakeCause := 3 }
  else if s.island.wakePending then .next { s with island.wakeL := true, island.wakePending := false }
  else .next s

/-- The island samples VBAT (R99). -/
def execVbatSample (mv : Nat) (s : State) : Host.Outcome State Fault Refusal :=
  .next { s with island.vbatLow := decide (mv < 2600), island.vbatMv := mv }

/-! ## Registers (R100 to R105) -/

/-- A write to the vault policy in range (R103). -/
def policyWrite (w : BitVec 32) (s : State) : State :=
  if fld w 1 7 = 0 ∨ fld w 16 16 < 60 then { s with pwr.psCfgErr := true }
  else { s with pwr.consent := bitOf w 0, pwr.guardMin := fld w 1 7, pwr.thresholdMin := fld w 16 16 }

/-- Write of a PWR register at an offset within the block. -/
def pwrWrite (off : Nat) (w : BitVec 32) (s : State) : State :=
  if off = 0x00 then
    { s with pwr.psCfgErr := s.pwr.psCfgErr && !bitOf w 9, pwr.regFault := s.pwr.regFault && !bitOf w 10 }
  else if off = 0x20 then psCtlWrite w s
  else if off = 0x28 then
    if 10 ≤ w.toNat ∧ w.toNat ≤ 100000 ∧ w.toNat < 1000 * s.pwr.idlePs2 then { s with pwr.idlePs1 := w.toNat }
    else { s with pwr.psCfgErr := true }
  else if off = 0x2C then
    if 1 ≤ w.toNat ∧ w.toNat ≤ 3600000 ∧ s.pwr.idlePs1 < 1000 * w.toNat then { s with pwr.idlePs2 := w.toNat }
    else { s with pwr.psCfgErr := true }
  else if off = 0x30 then policyWrite w s
  else s

end Sys2Proof.Machine
end

