-- ==== Sys2Proof/Machine/Intake.lean ====
section
/-!
DEFINITION. Intake (chapter 09): reservation and holds, the arrival and admission of write data, mirroring, forwarded
writes, and the assembly of chunks.
-/
namespace Sys2Proof.Machine

/-- Source identifiers of the write log engine and the mirror engine (R15). -/
def logSrc : Nat := srcId 1 4 0
def mirrorSrc : Nat := srcId 1 5 0

/-- Chunks that a range touches, one frame each (R292). -/
def frameCount (lba count : Nat) : Nat := if count = 0 then 0 else (lba + count - 1) / 8 - lba / 8 + 1

/-- Source class of a queue (R300). -/
def originOf (q : QueueId) (remote : Bool) : Nat :=
  if remote then 5 else match q with | .ring ep _ => ep | .channel _ => 4

/-- Queue or channel number (R291). -/
def queueNum : QueueId → Nat
  | .ring _ q => q
  | .channel n => n

/-! ## Reservation (R302 to R305) -/

/-- Frames of this head's volumes that are reserved or not yet released (R303). -/
def ownFrames (s : State) : Nat :=
  reservedFrames s + (s.wlg.frames.filter fun f => owns s f.volume).length

/-- The share a head reserves against (R303). -/
def shareOf (s : State) : Nat :=
  let half := s.pwr.budget / 2 / 32768 * 32768
  if s.wlg.mirror = 3 ∧ ¬ s.xhl.owned.isEmpty then s.pwr.ownBudget
  else if s.xhl.owned.isEmpty then 0
  else if decide (65536 ≤ s.xhl.owned.length) && peerUp s then s.pwr.budget
  else half

/-- The log has frames for `n` more. -/
def framesFree (s : State) (n : Nat) : Bool := decide (usedFrames s + n ≤ logFrames s)

/-- `n` frames can be reserved now: the head's own frames stay within its share, the dirty amount of both heads within
the budget, and the log has the frames (R303). -/
def fits (s : State) (n : Nat) : Bool :=
  decide (32768 * (ownFrames s + n) ≤ shareOf s) &&
  decide (dirtyBytes s + 32768 * n ≤ (if s.wlg.mirror = 3 then s.pwr.ownBudget else s.pwr.budget)) &&
  framesFree s n

/-- Drop a write's reservation (R302). -/
def unreserve (q : QueueId) (tag : Nat) (remote : Bool) (s : State) : State :=
  rebudget { s with wlg.reserved := s.wlg.reserved.filter fun r =>
    !(decide (r.q = q) && decide (r.tag = tag) && (r.remote == remote)) }

/-- LOG_FULL while a write is held for lack of frames; the first such hold writes record 0x0704 (R312, R314). -/
def noteLogFull (s : State) : State :=
  let full := match s.wlg.holds with | h :: _ => !framesFree s h.frames | [] => false
  if full && !s.wlg.logFull then record 0x0704 logSrc [] { s with wlg.logFull := true }
  else { s with wlg.logFull := full }

/-- Change the command of a queue and tag, one executed here for the peer when `remote`. -/
def modAnyCmd (q : QueueId) (tag : Nat) (remote : Bool) (f : Cmd → Cmd) (s : State) : State :=
  { s with dcq.cmds := s.dcq.cmds.map fun c =>
      if decide (c.q = q) && decide (c.tag = tag) && (c.remote == remote) then f c else c }

/-- Start the reads of a write's data and PI in host memory; a landing-zone buffer needs none (R194, R218). -/
def readBuffers (c : Cmd) (s : State) : State :=
  match c.q with
  | .channel _ => s
  | .ring ep _ =>
    if c.remote || dataLz c then s
    else
      let pages := if c.plist.isEmpty then [(cmdData c, 4096 * cmdCount c)] else c.plist.map fun a => (a, 4096)
      hostReadReq ep c (pages ++ [(cmdPi c, 16 * cmdCount c)]) s

/-- What a write reserves, or holds for (R302, R304). -/
def heldOf (s : State) (c : Cmd) : HeldWrite :=
  { q := c.q, tag := c.tag, origin := originOf c.q c.remote, frames := frameCount (cmdLba c) (cmdCount c), remote := c.remote
    fetchedAt := c.fetchedAt, since := now s }

/-- A write reserves its frames and its data transfer starts. -/
def startTransfer (c : Cmd) (s : State) : State :=
  let r := heldOf s c
  let s := modAnyCmd c.q c.tag c.remote (fun c => { c with st := .transfer, left := cmdCount c }) s
  readBuffers c (rebudget { s with wlg.reserved := s.wlg.reserved ++ [r] })

/-- A write that passed check 10 reserves, or joins the hold in the order of the fetches (R302 to R304). -/
def reserveOrHold (c : Cmd) (s : State) : State :=
  if s.wlg.holds.isEmpty && fits s (frameCount (cmdLba c) (cmdCount c)) then startTransfer c s
  else
    noteLogFull (modAnyCmd c.q c.tag c.remote (fun c => { c with st := .held })
      { s with wlg.holds := insertBy (·.fetchedAt) (heldOf s c) s.wlg.holds })

/-- The held write that reserves next: the one fetched first; of those fetched in one cycle the source classes take turns (R304). -/
def nextHold (s : State) : Option HeldWrite :=
  match s.wlg.holds with
  | [] => none
  | h :: _ =>
    let hs := s.wlg.holds.filter fun x => x.fetchedAt = h.fetchedAt
    (nextAfter s.wlg.holdTurn (hs.map (·.origin))).bind fun k => hs.find? fun x => x.origin = k

/-- The write that has been held for 2 s (R305). -/
def holdDue (s : State) : Option HeldWrite := s.wlg.holds.find? fun h => h.since + 2 * 10 ^ 9 ≤ now s

/-- Two seconds in the hold end a write (R305). -/
def execWriteHoldTimeout (s : State) : Host.Outcome State Fault Refusal :=
  match holdDue s with
  | none => .next s
  | some h =>
    if alive s then
      let s := record 0x0701 logSrc [] { s with wlg.holds := s.wlg.holds.erase h, wlg.holdTimeout := true }
      .next (noteLogFull (endTag h.remote h.q h.tag stNotReady 0 0 s))
    else .next s

/-! ## Frames (R291 to R294) -/

/-- Raster geometry in force for a sector (R232): the newest transient hint, the remembered range hint, the default. -/
def geometryFor (s : State) (v lba : Nat) : Option Geometry :=
  match (s.red.hintsBefore.find? fun x => x.num = v).or (volOf s v) with
  | none => none
  | some x =>
    let covers (h : RangeHint) : Bool := decide (h.count = 0) || (decide (h.lba ≤ lba) && decide (lba < h.lba + h.count))
    match x.transient.find? covers with
    | some h => some h.geom
    | none =>
      match x.ranges.find? covers with
      | some h => some h.geom
      | none => x.default_

/-- The frames of a write: sector `j` of the data goes to slot (lba + j) mod 8 of its chunk's frame (R291, R292). -/
def framesOf (proto : Frame) (lba : Nat) (data pi : List (List (BitVec 8))) : List Frame :=
  let n := data.length
  let cnt := frameCount lba n
  (List.range cnt).map fun i =>
    let chunk := lba / 8 + i
    let slotOf_ (t : Nat) : Option Nat :=
      if lba ≤ 8 * chunk + t ∧ 8 * chunk + t < lba + n then some (8 * chunk + t - lba) else none
    let mask := (List.range 8).foldl (fun m t => if (slotOf_ t).isSome then m + 2 ^ t else m) 0
    { proto with
      chunk := chunk, index := i, count := cnt, mask := BitVec.ofNat 8 mask
      data := (List.range 8).map fun t => match slotOf_ t with | some j => data.getD j [] | none => []
      pi := (List.range 8).map fun t => match slotOf_ t with | some j => pi.getD j [] | none => [] }

/-- The 64 header bytes of a frame with their CRC, as the mirror message carries them (R291). -/
def frameHeader (f : Frame) : List (BitVec 8) :=
  let st := match f.st with | .filling => 1 | .logged => 2 | .assembled => 3 | .committed => 4
  let h := leBytes 8 f.lsn ++ leBytes 2 f.volume ++ leBytes 2 f.tenant ++ leBytes 1 f.mask.toNat ++ leBytes 1 st ++
    leBytes 1 (b2n f.owner) ++ leBytes 1 f.origin ++ leBytes 8 f.chunk ++ leBytes 2 f.queue ++
    leBytes 1 (f.tag + 32 * f.gen) ++ leBytes 1 f.index ++ leBytes 1 f.count ++ leBytes 3 0 ++ leBytes 8 f.admitTime ++
    leBytes 20 0
  h ++ leBytes 4 (crc32c h).toNat

/-- A frame on the crosshead link: PI, header and the sectors present (R291, R568). -/
def frameWire (f : Frame) : List (BitVec 8) :=
  ((List.range 8).flatMap fun t => ((f.pi.getD t []) ++ List.replicate 16 0).take 16) ++ frameHeader f ++
    ((List.range 8).flatMap fun t => if f.mask.getLsbD t then f.data.getD t [] else [])

/-- Every present sector's guard checks against the frame's PI (R389). -/
def frameGuardsOk (f : Frame) : Bool :=
  (List.range 8).all fun t =>
    !f.mask.getLsbD t || decide ((f.pi.getD t []).take 8 = beBytes 8 (crc64 (f.data.getD t [])).toNat)

/-- A failed hand-off: record 0x0902 and the self-test of the element that delivered the data (R389). -/
def handoffFail (src : Nat) (s : State) : State := contain src .datapath (record 0x0902 src [] s)

/-! ## Arrival and admission (R226, R293, R388) -/

/-- The first check of R388 that a sector fails: 0 none, else the status. -/
def piCheck (tenant lba : Nat) (data pi : List (BitVec 8)) : Nat :=
  if pi.take 8 ≠ beBytes 8 (crc64 data).toNat then stGuardCheck
  else if slice pi 10 6 ≠ beBytes 6 (lba % 2 ^ 48) then stReferenceCheck
  else if slice pi 8 2 ≠ beBytes 2 tenant then stAppTagCheck
  else 0

/-- Cut bytes into pieces of `n`. -/
def piecesOf (n count : Nat) (bs : List (BitVec 8)) : List (List (BitVec 8)) :=
  (List.range count).map fun i => slice bs (n * i) n

/-- The data of a write: what host memory returned, or the bytes of the landing zone its buffers name (R218, R259). -/
def writeData (s : State) (c : Cmd) (data pi : List (List (BitVec 8))) :
    List (List (BitVec 8)) × List (List (BitVec 8)) :=
  match lzAddr s c (cmdData c), lzAddr s c (cmdPi c) with
  | some a, some p =>
    let slotOf_ (i : Nat) : Nat :=
      match c.plist[i]? with | some x => (lzAddr s c x).getD 0 | none => a + 4096 * i
    ((List.range (cmdCount c)).map fun i => memBytes 0 s.lz (slotOf_ i) 4096,
     (List.range (cmdCount c)).map fun i => memBytes 0 s.lz (p + 16 * i) 16)
  | _, _ => (data, pi)

/-- An item reached a tag that is free or of another generation (R212). -/
def staleItem (q : QueueId) (tag gen : Nat) (s : State) : State :=
  let held := (queueOf s q).elim 0 fun x => (x.tags.getD tag Tag.reset).gen
  record 0x0504 (srcId 1 1 0) [queueNum q, tag, gen, held] s

/-- The tag is busy in the generation named. -/
def tagMatches (s : State) (q : QueueId) (tag gen : Nat) : Bool :=
  match queueOf s q with
  | some x => decide ((x.tags.getD tag Tag.reset).st ≠ .free) && decide ((x.tags.getD tag Tag.reset).gen = gen)
  | none => false

/-- All data of a write is here (R388). During a power-fail flush the write completes NOT_READY (R305); a sector that fails its checks
ends it with the status of the lowest failing sector, and nothing enters the log. -/
def dataArrived (c : Cmd) (data pi : List (List (BitVec 8))) (s : State) : State :=
  if s.pwr.flushActive then finish c.q c.tag stNotReady 0 0 (unreserve c.q c.tag false s)
  else
    let (ds, ps) := writeData s c data pi
    let st (i : Nat) : Nat := piCheck (cmdTenant c % 32768) (cmdLba c + i) (ds.getD i []) (ps.getD i [])
    let bad := (List.range (cmdCount c)).filter fun i => st i ≠ 0
    match bad with
    | [] => modCmd c.q c.tag (fun c => { c with st := .data, data := ds, pi := ps, readyAt := now s }) s
    | i :: _ =>
      let check := if st i = stGuardCheck then 1 else if st i = stReferenceCheck then 2 else 3
      let lba := cmdLba c + i
      let s := record 0x0901 (srcId 3 0 0) [cmdVolume c, lba, lba / 2 ^ 32, check]
        { s with sec.piFails := satAdd (2 ^ 32 - 1) s.sec.piFails bad.length }
      finish c.q c.tag (st i) 0 0 (unreserve c.q c.tag false s)

/-- Data of a write arrives: the reads outstanding for it are answered, and once none waits any more all of it has arrived. Data for a
tag that is free, or of another generation, is discarded (R195, R212, R388). -/
def execWriteDataArrival (q : QueueId) (item : TagId) (data pi : List (List (BitVec 8))) (s : State) :
    Host.Outcome State Fault Refusal :=
  let tag := item.tag
  if alive s then
    if tagMatches s q tag item.gen then
      match cmdOf s q tag with
      | none => .next s
      | some c =>
        if decide (c.st = .transfer) && decide (cmdOpcode c = 0x02) then
          if readsIssued s q tag then .next (dataArrived c data pi (readsDone q tag s)) else .next (readsDone q tag s)
        else .next s
    else .next (staleItem q tag item.gen s)
  else .next s

/-- Writes start, or go on, being held for the peer's acknowledgement: one record 0x0702 (R297, R314). -/
def noteMirrorHeld (s : State) : State :=
  if s.wlg.heldRec then s else record 0x0702 mirrorSrc [] { s with wlg.heldRec := true }

/-- Send the frames of one write to the peer (R295). -/
def sendMirror (lsn : Nat) (s : State) : State :=
  let fs := s.wlg.frames.filter fun f => f.lsn = lsn && f.owner == s.glb.headSel
  match fs with
  | [] => s
  | f :: _ => xhlSend 0x0101 false false ([lsn] ++ queueArgs f.q ++ [f.tag, f.gen]) (fs.flatMap frameWire) s

/-- Admit the frames of a write whose data has arrived: the next LSN, every frame logged at once, and the mirror message;
with MIRROR 3 the write is protected (R34, R293, R295), and without the peer it is held for acknowledgement (R297). -/
def admitWrite (fs : List Frame) (s : State) : State :=
  let lsn := s.wlg.lsn + 1
  let local_ := decide (s.wlg.mirror = 3)
  let fs := fs.map fun f =>
    { f with lsn := lsn, st := .logged, owner := s.glb.headSel, admitTime := now s, prot := local_,
             delay := s.wlg.asmDelay, geom := geometryFor s f.volume (8 * f.chunk) }
  let sectors := fs.foldl (fun n f => n + ((List.range 8).filter f.mask.getLsbD).length) 0
  let v := (fs.headD Frame.reset).volume
  let host := decide ((fs.headD Frame.reset).origin < 6)
  let s := modVol v (fun x => if host then { x with logical := x.logical + 4096 * sectors } else x)
    { s with wlg.lsn := lsn, wlg.frames := s.wlg.frames ++ fs }
  if local_ then s
  else if decide (s.wlg.mirror = 2) || !peerUp s then noteMirrorHeld { s with wlg.mirror := 2 }
  else sendMirror lsn s

/-- The frame header fields a write's command gives. -/
def protoFrame (s : State) (c : Cmd) : Frame :=
  { Frame.reset with
    volume := cmdVolume c, tenant := cmdTenant c % 32768, owner := s.glb.headSel, origin := originOf c.q c.remote,
    queue := queueNum c.q, q := c.q, tag := c.tag, gen := c.gen }

/-- The command is a write that waits for its admission (R293, R296). -/
def waitsAdmission (s : State) (c : Cmd) : Bool :=
  decide (c.st = .data) && !c.remote && (!c.forwarded || framesFree s (frameCount (cmdLba c) (cmdCount c)))

/-- The write that is admitted next: the one ready longest; of those ready in one cycle the source classes take turns, and within the
network class the channels (R293, R301). -/
def nextAdmission (s : State) : Option Cmd :=
  let cs := s.dcq.cmds.filter (waitsAdmission s)
  (cs.map (·.readyAt)).min?.bind fun t =>
    let cs := cs.filter fun c => c.readyAt = t
    (nextAfter s.wlg.turn (cs.map fun c => originOf c.q false)).bind fun k =>
      let cs := cs.filter fun c => originOf c.q false = k
      if k = 4 then (nextAfter s.wlg.chanTurn (cs.map fun c => queueNum c.q)).bind fun n => cs.find? fun c => queueNum c.q = n
      else cs.head?

/-- A write has been admitted: its class, and within the network class its channel, are the last served. -/
def noteTurn (c : Cmd) (s : State) : State :=
  let s := { s with wlg.turn := originOf c.q c.remote }
  match c.q with
  | .channel n => { s with wlg.chanTurn := n }
  | .ring _ _ => s

/-- A write whose data has arrived is admitted in its turn (R293); one for a volume of the peer fills frames here and sends them to
the owner (R296). -/
def execWriteAdmission (q : QueueId) (tag : Nat) (s : State) : Host.Outcome State Fault Refusal :=
  match cmdOf s q tag with
  | none => .next s
  | some c =>
    if alive s && decide (c.st = .data) && decide (s.wlg.mirror ≠ 0) then
      if s.pwr.flushActive then .next (finish q tag stNotReady 0 0 (unreserve q tag false s))
      else if (nextAdmission s).any fun x => decide (x.q = q) && decide (x.tag = tag) then
        let fs := framesOf (protoFrame s c) (cmdLba c) c.data c.pi
        let s := noteTurn c s
        if c.forwarded then
          let fs := fs.map fun f => { f with owner := !s.glb.headSel, admitTime := now s, delay := s.wlg.asmDelay }
          let s := modCmd q tag (fun c => { c with st := .admitted, data := [], pi := [] }) s
          let s := rebudget { s with wlg.frames := s.wlg.frames ++ fs }
          let s := xhlSend 0x0103 false false (queueArgs q ++ [tag, c.gen]) (fs.flatMap frameWire) s
          .next (if peerUp s then s else noteMirrorHeld { s with wlg.mirror := if s.wlg.mirror = 1 then 2 else s.wlg.mirror })
        else
          let s := admitWrite fs (unreserve q tag false s)
          let s := modCmd q tag (fun c => { c with st := .admitted, left := 0, data := [], pi := [] }) s
          .next (if s.wlg.mirror = 3 then finish q tag stSuccess 0 0 s else s)
      else .next s
    else .next s

/-! ## Forwarded writes at the owner (R296) -/

/-- The owner admits the frames of a forwarded write, which are in both logs at once, and returns the LSN. -/
def admitForwarded (c : Cmd) (fs : List Frame) (s : State) : State :=
  let s := noteTurn c (unreserve c.q c.tag true s)
  let fs := fs.map fun f => { f with origin := 5 }
  let lsn := s.wlg.lsn + 1
  let s := admitWrite fs { s with wlg.mirror := 3 } |> fun t => { t with wlg.mirror := s.wlg.mirror }
  let s := { s with dcq.cmds := s.dcq.cmds.filter fun x => !(decide (x.q = c.q) && decide (x.tag = c.tag) && x.remote) }
  rebudget (xhlSend 0x0104 false false (queueArgs c.q ++ [c.tag, c.gen, lsn]) [] s)

/-- The held write whose turn it is reserves, once budget and frames allow (R304). A forwarded one whose frames have come is admitted
with it. -/
def execHeldWriteReserve (s : State) : Host.Outcome State Fault Refusal :=
  match nextHold s with
  | none => .next s
  | some h =>
    if alive s && !s.pwr.flushActive && fits s h.frames then
      let s := { s with wlg.holds := s.wlg.holds.erase h, wlg.holdTurn := h.origin }
      match heldCmd s h.remote h.q h.tag with
      | none => .next (noteLogFull s)
      | some c =>
        let s := noteLogFull (startTransfer c s)
        if h.remote && !c.data.isEmpty then
          .next (admitForwarded c (framesOf (protoFrame s c) (cmdLba c) c.data c.pi) s)
        else .next s
    else .next s

/-- An item of the peer's reached no command here of its queue, tag and generation (R212). -/
def staleRemote (q : QueueId) (tag gen : Nat) (s : State) : State :=
  record 0x0504 (srcId 1 1 0) [queueNum q, tag, gen, (remoteCmd s q tag).elim 0 (·.gen)] s

/-- The owner receives the frames of a forwarded write (R296): a failed guard is not answered (R389); a write that has
reserved is admitted, one still held keeps its data until it reserves. Frames of no command here are discarded (R212). -/
def execFwdFrames (q : QueueId) (tag : Nat) (frames : List Frame) (s : State) : Host.Outcome State Fault Refusal :=
  let gen := (frames.headD Frame.reset).gen
  if alive s then
    if frames.all frameGuardsOk then
      match (remoteCmd s q tag).bind fun c => if c.gen = gen then some c else none with
      | none => .next (staleRemote q tag gen s)
      | some c =>
        if c.st = .transfer then .next (admitForwarded c frames s)
        else if c.st = .held then
          let pick (g : Frame → Nat → List (BitVec 8)) : List (List (BitVec 8)) :=
            frames.flatMap fun f => ((List.range 8).filter f.mask.getLsbD).map (g f)
          .next (modAnyCmd q tag true (fun c =>
            { c with data := pick fun f t => f.data.getD t [], pi := pick fun f t => f.pi.getD t [] }) s)
        else .next s
    else .next (handoffFail mirrorSrc s)
  else .next s

/-- The receiving head learns the LSN of a write it forwarded: its frames are logged under it and the write is protected
(R296). -/
def execFwdLsn (q : QueueId) (tag gen lsn : Nat) (s : State) : Host.Outcome State Fault Refusal :=
  if alive s then
    if tagMatches s q tag gen then
      let log (f : Frame) : Frame :=
        if decide (f.st = .filling) && decide (f.q = q) && decide (f.tag = tag) && decide (f.gen = gen) then
          { f with st := .logged, lsn := lsn, prot := true }
        else f
      let s := { s with wlg.frames := s.wlg.frames.map log }
      .next (finishWith q tag stSuccess 0 0 true false s)
    else .next (staleItem q tag gen s)
  else .next s

/-! ## Mirroring (R295, R297, R389) -/

/-- The peer's frames of one write arrive: they are logged here and acknowledged, unless a guard fails (R295, R389). -/
def execMirror (frames : List Frame) (s : State) : Host.Outcome State Fault Refusal :=
  if alive s && (decide (s.wlg.mirror ≠ 0) || s.glb.map) then
    if frames.all frameGuardsOk then
      match frames with
      | [] => .next s
      | f :: _ =>
        let fs := frames.map fun f => { f with owner := !s.glb.headSel, st := .logged, prot := true, geom := none }
        let known := s.wlg.frames.any fun g => g.lsn = f.lsn && g.owner == !s.glb.headSel
        let s := if known then s else rebudget { s with wlg.frames := s.wlg.frames ++ fs }
        .next (xhlSend 0x0102 false false ([f.lsn] ++ queueArgs f.q ++ [f.tag, f.gen]) [] s)
    else .next (handoffFail mirrorSrc s)
  else .next s

/-- A write of this head that is not yet protected. -/
def unprotected (s : State) : Bool :=
  s.wlg.frames.any fun f => !f.prot && (f.owner == s.glb.headSel) && decide (f.st = .logged)

/-- A write waits for the peer: its acknowledgement, or the LSN of one that was forwarded (R297). -/
def awaitsPeer (s : State) : Bool := unprotected s || s.wlg.frames.any fun f => decide (f.st = .filling)

/-- The frames of an LSN are protected (R295). -/
def protect (lsn : Nat) (s : State) : State :=
  { s with wlg.frames := s.wlg.frames.map fun f =>
      if f.lsn = lsn && f.owner == s.glb.headSel then { f with prot := true } else f }

/-- Record 0x0703 once no write is held for acknowledgement any more (R297). -/
def resolveMirror (how : Nat) (s : State) : State :=
  if s.wlg.heldRec && !unprotected s then record 0x0703 mirrorSrc [how] { s with wlg.heldRec := false } else s

/-- The acknowledgement of a mirror message, or its absence after a failed guard (`ok` false): a write becomes protected
and completes; a message is sent again up to three times and its write then held (R295, R297, R389). -/
def execMirrorAck (lsn : Nat) (q : QueueId) (tag gen : Nat) (ok : Bool) (s : State) : Host.Outcome State Fault Refusal :=
  if alive s then
    match s.wlg.frames.find? fun f => decide (f.lsn = lsn) && (f.owner == s.glb.headSel) with
    | none => .next s
    | some f =>
      if f.prot then .next s
      else if ok then
        let reply := decide (f.origin < 6) && decide (f.q = q) && (queueOf s q).isSome
        if reply && !tagMatches s q tag gen then .next (staleItem q tag gen s)
        else
          let s := protect lsn { s with wlg.mirrorNs := (now s - f.admitTime) % 2 ^ 32,
                                        wlg.resends := s.wlg.resends.filter fun r => r.1 ≠ lsn }
          let s := if reply then finish q tag stSuccess 0 0 s else s
          .next (resolveMirror 1 s)
      else
        let n := ((s.wlg.resends.find? fun r => r.1 = lsn).map (·.2)).getD 0
        if n < 3 then
          .next (sendMirror lsn { s with wlg.resends := (s.wlg.resends.filter fun r => r.1 ≠ lsn) ++ [(lsn, n + 1)] })
        else .next (noteMirrorHeld { s with wlg.mirror := if s.wlg.mirror = 1 then 2 else s.wlg.mirror })
  else .next s

/-! ## Assembly (R306 to R309) -/

/-- The lowest cut of a version of the volume that waits to be frozen (R335). -/
def pendingCut (s : State) (v : Nat) : Option Nat :=
  match volOf s v with
  | none => none
  | some x => (leastBy (·.cut) (x.snaps.filter fun p => !p.frozen && !p.deleting)).map (·.cut)

/-- Frames of a chunk that this head may assemble: protected ones of its own volumes (R572), and during a power-fail
flush every one it holds (R81, R572). -/
def mayAssemble (s : State) (f : Frame) : Bool :=
  inLog f && ((owns s f.volume && f.prot) || s.pwr.flushActive)

/-- Frames of a chunk that assembly may use. -/
def chunkFrames (s : State) (v chunk : Nat) : List Frame :=
  s.wlg.frames.filter fun f => mayAssemble s f && decide (f.volume = v) && decide (f.chunk = chunk)

/-- The frames that the next assembly of a chunk uses: while a cut waits and a frame at or below it is untaken, those at
or below the cut (R335); else all (R307). -/
def assemblyFrames (s : State) (v chunk : Nat) : List Frame :=
  let fs := chunkFrames s v chunk
  match pendingCut s v with
  | none => fs
  | some cut => if fs.any fun f => !f.taken && decide (f.lsn ≤ cut) then fs.filter fun f => f.lsn ≤ cut else fs

/-- A FLUSH or a cut waits that covers one of the frames (R227, R306, R335). -/
def flushCovers (s : State) (v : Nat) (fs : List Frame) : Bool :=
  fs.any fun f => !f.taken &&
    ((s.dcq.cmds.any fun c => decide (cmdVolume c = v) && (decide (cmdOpcode c = 0x03) || decide (cmdOpcode c = 0x08)) &&
        decide (c.st = .waiting) && decide (f.lsn ≤ c.cover)) ||
      (pendingCut s v).any fun cut => f.lsn ≤ cut)

/-- Sector masks of the untaken frames cover the chunk (R306). -/
def masksCover (fs : List Frame) : Bool :=
  decide ((fs.filter fun f => !f.taken).foldl (fun m f => m ||| f.mask) (0 : BitVec 8) = 0xFF)

/-- A sector that assembly takes: data, PI and whether it is lost. The frame's guard is checked, and the peer's copy
stands in for a frame that fails it (R389). -/
def assembleSector (fs : List Frame) (tenant chunk t : Nat) (d : ChunkData) (copies : List PeerSector) :
    List (BitVec 8) × List (BitVec 8) × Bool × Bool :=
  match newest (fs.filter fun f => f.mask.getLsbD t) with
  | none => (d.sectors.getD t [], buildPi (d.guards.getD t 0) tenant (8 * chunk + t), d.lost.getLsbD t, false)
  | some f =>
    let data := f.data.getD t []
    let pi := f.pi.getD t []
    if f.lost.getLsbD t then (zeroSector, buildPi zeroGuard tenant (8 * chunk + t), true, false)
    else if pi.take 8 = beBytes 8 (crc64 data).toNat then (data, pi, false, false)
    else
      match copies.find? fun c => decide (c.lsn = f.lsn) && decide (c.slot = t) with
      | some c =>
        if pi.take 8 = beBytes 8 (crc64 c.data).toNat then (c.data, pi, false, true)
        else (zeroSector, buildPi zeroGuard tenant (8 * chunk + t), true, true)
      | none => (zeroSector, buildPi zeroGuard tenant (8 * chunk + t), true, true)

/-- Assembly of a chunk starts: each sector from the newest frame, else from the map, else zeros (R307). The newest frame's container, when
replication brought it, passes on (R357). -/
def startAssembly (v chunk : Nat) (media : List StoredRead) (copies : List PeerSector) (s : State) : State :=
  let fs := assemblyFrames s v chunk
  match newest fs with
  | none => s
  | some top =>
    let need := (List.range 8).any fun t => !(fs.any fun f => f.mask.getLsbD t)
    let (d, s) := if need then readMapped v 0 chunk 3 media s else (ChunkData.zero, s)
    let secs := (List.range 8).map fun t => assembleSector fs top.tenant chunk t d copies
    let s := if secs.any (·.2.2.2) then handoffFail logSrc s else s
    let lost := (List.range 8).foldl (fun n t => if (secs.getD t ([], [], false, false)).2.2.1 then n + 2 ^ t else n) 0
    let geom := if top.owner == s.glb.headSel then top.geom else geometryFor s v (8 * chunk)
    let used (f : Frame) : Bool := fs.any fun g => decide (g.lsn = f.lsn) && decide (g.index = f.index) && g.owner == f.owner
    let job : Job :=
      { Job.reset with
        volume := v, tenant := top.tenant, chunk := chunk, lsn := top.lsn,
        sectors := secs.map (·.1), guards := secs.map fun x => crc64 x.1, pis := secs.map (·.2.1),
        lost := BitVec.ofNat 8 lost, geom := geom, container := top.container, frames := fs.map fun f => (f.lsn, f.index) }
    { s with
      wlg.jobs := s.wlg.jobs ++ [job]
      wlg.frames := s.wlg.frames.map fun f => if used f then { f with taken := true } else f }

/-- A version of the chunk is in the later stages (R308). -/
def jobOf (s : State) (v chunk : Nat) : Option Job :=
  s.wlg.jobs.find? fun j => decide (j.volume = v) && decide (j.chunk = chunk)

/-- Change the job of a chunk. -/
def modJob (v chunk : Nat) (f : Job → Job) (s : State) : State :=
  { s with wlg.jobs := s.wlg.jobs.map fun j => if decide (j.volume = v) && decide (j.chunk = chunk) then f j else j }

/-- The job of a chunk leaves the pipeline. -/
def dropJob (v chunk : Nat) (s : State) : State :=
  { s with wlg.jobs := s.wlg.jobs.filter fun j => !(decide (j.volume = v) && decide (j.chunk = chunk)) }

/-- An untaken frame of the chunk may be assembled and no version of it is in flight (R308). -/
def assemblyReady (s : State) (v chunk : Nat) : Bool :=
  (jobOf s v chunk).isNone && (assemblyFrames s v chunk).any fun f => !f.taken

/-- The assembly delay that stood when the chunk's oldest unassembled frame was admitted has passed since (R306, R313). -/
def delayOver (s : State) (fs : List Frame) : Bool :=
  match fs.filter fun f => !f.taken with
  | [] => false
  | f :: t => let o := t.foldl (fun a f => if f.lsn < a.lsn then f else a) f; decide (o.admitTime + 1000 * o.delay ≤ now s)

/-- WLG_ASM_DELAY has passed since the chunk's oldest unassembled frame was admitted (R306). -/
def execAssemblyDelayExpiry (v chunk : Nat) (media : List StoredRead) (copies : List PeerSector) (s : State) :
    Host.Outcome State Fault Refusal :=
  if alive s && assemblyReady s v chunk && delayOver s (assemblyFrames s v chunk) then .next (startAssembly v chunk media copies s) else .next s

/-- A frame of this head's own volumes waits for its assembly: during a power-fail flush those go first (R81). -/
def ownWaits (s : State) : Bool := s.wlg.frames.any fun f => inLog f && !f.taken && owns s f.volume

/-- A power-fail flush assembles the chunk: one of this head's own volumes, or one of the peer's once none of its own waits (R81,
R306). -/
def flushAssembles (s : State) (v : Nat) : Bool := s.pwr.flushActive && (owns s v || !ownWaits s)

/-- A stored chunk whose count is at its limit is copied for the live version of a volume: a job with its sectors as the map gives
them, and with the LSN recorded for the chunk (R333). -/
def startCopy (v chunk : Nat) (media : List StoredRead) (s : State) : State :=
  match volOf s v with
  | none => s
  | some x =>
    let (d, s) := readMapped v 0 chunk 3 media s
    let job : Job :=
      { Job.reset with
        volume := v, tenant := x.tenant, chunk := chunk, lsn := lsnIn s x.table chunk, sectors := d.sectors, guards := d.guards
        pis := (List.range 8).map fun t => buildPi (d.guards.getD t 0) x.tenant (8 * chunk + t)
        lost := d.lost, geom := geometryFor s v (8 * chunk), copy := true }
    { s with wlg.jobs := s.wlg.jobs ++ [job] }

/-- Assembly starts because the sectors are all there, or a FLUSH, a cut or a power-fail flush covers a write of the chunk
(R306); or a chunk that is to be copied is read (R333). -/
def execAssemblyStart (v chunk : Nat) (media : List StoredRead) (copies : List PeerSector) (s : State) :
    Host.Outcome State Fault Refusal :=
  let fs := assemblyFrames s v chunk
  if alive s && assemblyReady s v chunk && (masksCover fs || flushCovers s v fs || flushAssembles s v) then
    .next (startAssembly v chunk media copies s)
  else if alive s && (jobOf s v chunk).isNone && s.red.copies.contains (v, chunk) then .next (startCopy v chunk media s)
  else .next s

/-- The frames that a job used may be assembled again. -/
def untake (j : Job) (s : State) : State :=
  { s with wlg.frames := s.wlg.frames.map fun f =>
      if decide (f.volume = j.volume) && decide (f.chunk = j.chunk) && j.frames.contains (f.lsn, f.index) then { f with taken := false } else f }

/-- The assembled chunk is handed to Reduce, or to Protect when REDUCE is 0, a power-fail flush runs, or it came with its container (R81,
R310, R357); a lost sector is recorded (R309). The guard of every sector is checked as the chunk is handed over; when one fails, the chunk is assembled
again from the log (R389). -/
def execAssemblyComplete (v chunk : Nat) (s : State) : Host.Outcome State Fault Refusal :=
  match jobOf s v chunk with
  | none => .next s
  | some j =>
    if alive s && decide (j.stage = .assembling) then
      let bad := (List.range 8).any fun t => !(j.lost.getLsbD t) && decide (crc64 (j.sectors.getD t []) ≠ j.guards.getD t 0)
      if bad then .next (handoffFail logSrc (untake j (dropJob v chunk s)))
      else
        let reduce := !s.pwr.flushActive && j.container.isEmpty && (volOf s v).any (·.reduce)
        let s := if j.lost = 0 then s
          else record 0x0705 logSrc [v, chunk, chunk / 2 ^ 32, j.lost.toNat] s
        let s := modJob v chunk (fun j => { j with stage := if reduce then .fingerprint else .protect }) s
        let done (f : Frame) : Frame :=
          if decide (f.volume = v) && decide (f.chunk = chunk) && j.frames.contains (f.lsn, f.index) &&
            decide (f.st = .logged) then { f with st := .assembled } else f
        .next { s with wlg.frames := s.wlg.frames.map done }
    else .next s

/-! ## The map entry (R308) -/

/-- The lost list follows the live version's new chunk (R309, R544). -/
def lostAfter (v chunk lsn : Nat) (lost : BitVec 8) (s : State) : State :=
  if lost = 0 then
    { s with ecp.lostList := s.ecp.lostList.filter fun r =>
        !(decide (r.volume = v) && decide (r.chunk = chunk) && decide (r.snap = 0)) }
  else addLost { volume := v, chunk := chunk, snap := 0, mask := lost, cause := 4, time := now s, lsn := lsn } s

/-- The map entry a placed job gives. -/
def jobEntry (j : Job) : MapEntry :=
  match j.hit with
  | some l =>
    { chunk := j.chunk, method := if locGrains l = 129 then .raw else .kernel, grain := BitVec.ofNat 43 (locGrain l),
      grains := locGrains l, shared := true, lsn := j.lsn }
  | none =>
    if j.container.isEmpty then { chunk := j.chunk, method := .zero, grain := 0, grains := 0, shared := false, lsn := j.lsn }
    else
      { chunk := j.chunk, method := if leAt j.container 11 1 = 1 then .kernel else .raw, grain := j.grain.setWidth 43,
        grains := j.container.length / 256, shared := j.shared, lsn := j.lsn }

/-- The map engine sets a chunk's entry when its LSN exceeds the one recorded, and otherwise discards the version and
frees its grains (R308). A change above a cut that waits is kept back until the freeze (R335). -/
def execMapEntrySet (v chunk : Nat) (s : State) : Host.Outcome State Fault Refusal :=
  match jobOf s v chunk with
  | none => .next s
  | some j =>
    if alive s && decide (j.stage = .placed) && !((pendingCut s v).any fun cut => decide (cut < j.lsn)) then
      let e := jobEntry j
      let s := dropJob v chunk s
      match volOf s v with
      | none => .next (releaseEntry e s)
      | some x =>
        if lsnIn s x.table chunk < j.lsn ∨ (j.copy ∧ lsnIn s x.table chunk = j.lsn ∧ s.red.copies.contains (v, chunk)) then
          let s := if s.pwr.flushActive then { s with pwr.flushBytes := s.pwr.flushBytes + 32768 } else s
          .next (lostAfter v chunk j.lsn j.lost (setLive v chunk j.lsn (some e) s))
        else .next (record 0x0707 (srcId 4 0 0) [v, chunk, chunk / 2 ^ 32] (releaseEntry e s))
    else .next s

/-! ## Register writes (R312, R313) -/

/-- A host write of a write-log register. -/
def wlgWrite (off : Nat) (w : BitVec 32) (s : State) : State :=
  if off = 0xD8000 then
    { s with wlg.holdTimeout := s.wlg.holdTimeout && !bitOf w 4, wlg.cfgErr := s.wlg.cfgErr && !bitOf w 6 }
  else if off = 0xD8024 then
    if w.toNat ≤ 100000 then { s with wlg.asmDelay := w.toNat } else { s with wlg.cfgErr := true }
  else s

end Sys2Proof.Machine
end

