-- ==== Sys2Proof/Machine/Reduce.lean ====
section
/-!
DEFINITION. The Reduce and Protect stages (chapters 10, 11, 12): fingerprints, the seed filter and table, Kernel coding and
its verification, snapshots' freeze and release, and the protection of a container into an open stripe.
-/
namespace Sys2Proof.Machine

/-! ## Fingerprint and lookup (R315 to R329) -/

/-- Bucket of a fingerprint in a seed space (R320). -/
def seedBucket (x : SeedSpace) (fp : List (BitVec 8)) : Nat :=
  let h := leAt fp 0 8
  if h % 2 ^ x.b < x.splitPtr then h % 2 ^ (x.b + 1) else h % 2 ^ x.b

/-- Filter tag of a fingerprint (R320). -/
def seedTag (fp : List (BitVec 8)) : BitVec 16 := if leAt fp 8 2 = 0 then 1 else BitVec.ofNat 16 (leAt fp 8 2)

/-- Occupied slots of a bucket in ascending order. -/
def bucketSlots (x : SeedSpace) (bucket : Nat) : List SeedSlot :=
  sortBy (·.slot) (x.slots.filter fun e => e.bucket = bucket)

/-- The lowest empty slot of a bucket (R325). -/
def emptySlot (x : SeedSpace) (bucket : Nat) : Option Nat :=
  (List.range 32).find? fun j => !(x.slots.any fun e => decide (e.bucket = bucket) && decide (e.slot = j))

/-- The record that a fingerprint finds: slots in ascending order whose tag and FP are equal. -/
def seedFind (x : SeedSpace) (fp : List (BitVec 8)) : Option SeedSlot :=
  (bucketSlots x (seedBucket x fp)).find? fun e => decide (e.tag = seedTag fp) && decide (e.fp = fp.take 16)

/-- A chunk that maps ZERO: all bytes 0 and each PI as R344 builds it (R316). -/
def isZeroChunk (j : Job) : Bool :=
  decide (j.lost = 0) && (j.sectors.all fun d => d.all (· = 0)) &&
  (List.range 8).all fun t => decide (j.pis.getD t [] = buildPi zeroGuard j.tenant (8 * j.chunk + t))

/-- A lane of an engine of the Reduce or the Protect stage takes work (R21, R25). -/
def laneRuns (s : State) (stage engine lane : Nat) : Bool :=
  decide (lane < engineLanes stage engine) && decide (ctlState s (srcId stage engine lane) = .run)

/-- The chunk is fingerprinted by a lane, mapped ZERO, or goes on without a lookup (R315 to R317). The lane waits while the DRBG issues no
bits (R404). -/
def execFingerprint (obj : ChunkId) (lane : Nat) (s : State) : Host.Outcome State Fault Refusal :=
  let v := obj.vol
  let chunk := obj.chunk
  match jobOf s v chunk with
  | none => .next s
  | some j =>
    if alive s && decide (j.stage = .fingerprint) && laneRuns s 2 1 lane && s.sec.drbgOk then
      if isZeroChunk j then .next (modJob v chunk (fun j => { j with stage := .placed, indexed := false }) s)
      else
        match (volOf s v).any (·.dedup), spaceOf s j.tenant with
        | true, some x =>
          if s.red.seedReady && decide (j.lost = 0) then
            let fp := (Config.hmacSha256 x.key (j.sectors.flatMap id)).take 16
            .next (modJob v chunk (fun j => { j with stage := .lookup, fp := fp, fpAt := now s, fpLane := lane }) s)
          else .next (modJob v chunk (fun j => { j with stage := .encode, indexed := false }) s)
        | _, _ => .next (modJob v chunk (fun j => { j with stage := .encode, indexed := false }) s)
    else .next s

/-- An earlier miss with the same fingerprint is not yet inserted (R329). -/
def missInFlight (s : State) (j : Job) : Bool :=
  s.wlg.jobs.any fun k =>
    decide (k.tenant = j.tenant) && decide (k.fp = j.fp) && !k.fp.isEmpty && k.indexed && k.hit.isNone &&
    [JobStage.encode, .kernelVerify, .protect, .insert].contains k.stage

/-- The lookup of a job comes after that of another one with the same fingerprint, known in the same cycle: these are ordered round-robin
by fingerprint lane (R329). -/
def lookupWaits (s : State) (j : Job) : Bool :=
  let same := s.wlg.jobs.filter fun k =>
    decide (k.stage = .lookup) && decide (k.tenant = j.tenant) && decide (k.fp = j.fp) && decide (k.fpAt = j.fpAt)
  decide (nextAfter s.red.fpTurn (same.map (·.fpLane)) ≠ some j.fpLane)

/-- A hit is accepted (R325). -/
def acceptHit (v chunk : Nat) (l : BitVec 64) (s : State) : State :=
  modVol v (fun x => { x with hits := x.hits + 1 })
    (modJob v chunk (fun j => { j with stage := .placed, hit := some l, shared := true, indexed := false }) s)

/-- The fingerprint is looked up; a hit raises COUNT in the same operation, and a saturated count makes it a miss that is
not inserted (R325, R326, R333). A job equal to a miss in flight waits (R329). -/
def execSeedLookup (v chunk : Nat) (s : State) : Host.Outcome State Fault Refusal :=
  match jobOf s v chunk with
  | none => .next s
  | some j =>
    if alive s && decide (j.stage = .lookup) && !missInFlight s j && !lookupWaits s j && laneRuns s 2 2 0 then
      match (spaceOf s j.tenant).bind fun x => seedFind x j.fp with
      | none => .next (modJob v chunk (fun j => { j with stage := .encode, indexed := true }) { s with red.fpTurn := j.fpLane })
      | some e =>
        if countMax ≤ e.count then
          .next (noteSaturated (locGrain e.location)
            (modJob v chunk (fun j => { j with stage := .encode, indexed := false }) s))
        else
          let s := putSeed j.tenant { e with count := e.count + 1 } s
          if (volOf s v).any (·.verify) then
            .next (modJob v chunk (fun j => { j with stage := .verify, hit := some e.location }) s)
          else .next (acceptHit v chunk e.location s)
    else .next s

/-- A rejected hit gives back its reference and the chunk is stored (R327, R328). -/
def rejectHit (v chunk : Nat) (l : BitVec 64) (indexed : Bool) (replace : Option (Nat × Nat)) (s : State) : State :=
  lowerRef (locGrain l) (locGrains l)
    (modJob v chunk (fun j => { j with stage := .encode, hit := none, indexed := indexed, replace := replace }) s)

/-- Time a lane of the decoder/verifier pool takes for a chunk: 32 768 bytes at 2 bytes per plane clock cycle of 0.8 ns (R16). -/
def poolNs : Nat := 13107

/-- A lane of the pool is in RUN and at no work (R17, R25). -/
def poolFree (s : State) (lane : Nat) : Bool :=
  laneRuns s 2 4 lane && !(s.kc.taken.any fun t => decide (t.1 = lane) && decide (now s < t.2))

/-- A lane of the pool takes a job. -/
def poolTake (lane : Nat) (s : State) : State :=
  { s with kc.taken := (s.kc.taken.filter fun t => decide (t.1 ≠ lane) && decide (now s < t.2)) ++ [(lane, now s + poolNs)] }

/-- The pool grants a lane to a read decode: more lanes are free than verifications wait, since those are granted first (R17). -/
def decodeGranted (s : State) (lane : Nat) : Bool :=
  poolFree s lane &&
    decide ((s.wlg.jobs.filter fun j => j.stage = .kernelVerify).length < ((List.range 96).filter (poolFree s)).length)

/-- The candidate is read, decoded by a lane the pool grants (R17) and compared byte by byte (R326): equal, the hit stands;
different, it is rejected with record 0x0803 and the lanes are tested (R327); unreadable, the new chunk is to replace the
record (R328). -/
def execVerifyOnMatch (v chunk lane : Nat) (media : List StoredRead) (s : State) : Host.Outcome State Fault Refusal :=
  match jobOf s v chunk with
  | none => .next s
  | some j =>
    match j.hit with
    | none => .next s
    | some l =>
      if alive s && decide (j.stage = .verify) && !s.pwr.flushActive && decodeGranted s lane && s.sec.drbgOk then
        let e : MapEntry :=
          { chunk := chunk, method := if locGrains l = 129 then .raw else .kernel, grain := BitVec.ofNat 43 (locGrain l),
            grains := locGrains l, shared := true, lsn := 0 }
        let place := (trailerOf s (locGrain l)).map fun t => (t.volume, t.chunk)
        let (d, s) := readStored true ((place.map (·.1)).getD v) ((place.map (·.2)).getD chunk) j.tenant e 3 media (poolTake lane s)
        let rec_ := seedAt s (locGrain l)
        let slot := rec_.map fun x => (x.2.bucket, x.2.slot)
        if d.lost ≠ 0 then
          .next (record 0x0804 (srcId 2 2 0) [j.tenant, ((slot.map (·.1)).getD 0), ((slot.map (·.2)).getD 0)]
            (rejectHit v chunk l true slot s))
        else if d.sectors = j.sectors then .next (acceptHit v chunk l s)
        else
          let s := recordAlert 0x0803 (srcId 2 1 j.fpLane)
            [j.tenant, (slot.map (·.1)).getD 0, (slot.map (·.2)).getD 0] { s with red.collision := true }
          let s := addTest (srcId 2 4 lane) .datapath false (addTest (srcId 2 1 j.fpLane) .datapath false s)
          let s := modVol v (fun x => { x with mismatches := x.mismatches + 1, unindexed := x.unindexed + 1 }) s
          let s := { s with red.spaces := s.red.spaces.map fun x =>
            if x.tenant = j.tenant then { x with unindexed := x.unindexed + 1 } else x }
          .next (rejectHit v chunk l false none s)
      else .next s

/-- A chunk is stored without a record (R323, R325, R327). -/
def notIndexed (v chunk tenant : Nat) (s : State) : State :=
  let s := modVol v (fun x => { x with unindexed := x.unindexed + 1 }) s
  let s := { s with red.spaces := s.red.spaces.map fun x =>
    if x.tenant = tenant then { x with unindexed := x.unindexed + 1 } else x }
  modJob v chunk (fun j => { j with stage := .placed, shared := false, indexed := false }) s

/-- LOCATION of a placed job (R322). -/
def jobLocation (j : Job) : BitVec 64 :=
  BitVec.ofNat 64 (j.grain.toNat % 2 ^ 43 + (j.container.length / 256 - 1) * 2 ^ 43)

/-- The record of a missed chunk is inserted with COUNT 1 into the lowest empty slot of its bucket, or in place of the
record whose chunk was lost, whose COUNT a share record then carries (R325, R328, R330). A full bucket leaves it
unindexed (R323). -/
def execSeedInsert (v chunk : Nat) (s : State) : Host.Outcome State Fault Refusal :=
  match jobOf s v chunk with
  | none => .next s
  | some j =>
    if alive s && decide (j.stage = .insert) && laneRuns s 2 2 0 then
      match spaceOf s j.tenant with
      | none => .next (notIndexed v chunk j.tenant s)
      | some x =>
        let bucket := seedBucket x j.fp
        let old := j.replace.bind fun r => x.slots.find? fun e => decide (e.bucket = r.1) && decide (e.slot = r.2)
        let slot := match old with | some e => some e.slot | none => emptySlot x bucket
        match slot with
        | none => .next (notIndexed v chunk j.tenant s)
        | some k =>
          let s := match old with
            | some e => putShare (locGrain e.location) (some e.count) s
            | none => s
          let e : SeedSlot :=
            { bucket := bucket, slot := k, tag := seedTag j.fp, fp := j.fp, location := jobLocation j, count := 1 }
          .next (modJob v chunk (fun j => { j with stage := .placed, shared := true, indexed := false }) (putSeed j.tenant e s))
    else .next s

/-- Occupied slots exceed 75 % of the space (R324). -/
def splitDue (x : SeedSpace) : Bool := decide (24 * 2 ^ x.b < x.slots.length) && decide (x.b < 32)

/-- Move one record of a splitting bucket to its new bucket: the same slot, or the lowest free one (R324). -/
def splitRecord (tenant dest : Nat) (e : SeedSlot) (s : State) : State :=
  match spaceOf s tenant with
  | none => s
  | some x =>
    let same := !(x.slots.any fun y => decide (y.bucket = dest) && decide (y.slot = e.slot))
    let k := if same then e.slot else (emptySlot x dest).getD e.slot
    putSeed tenant { e with bucket := dest, slot := k } (clearSeed tenant e s)

/-- One bucket of a splitting space is split, whole with respect to lookups and releases (R324). A space past 75 % asks
the arbiter first; the start and the end write record 0x0802. -/
def execSeedSplit (tenant : Nat) (s : State) : Host.Outcome State Fault Refusal :=
  match spaceOf s tenant with
  | none => .next s
  | some x =>
    if !alive s || !(x.splitting || splitDue x) then .next s
    else if !s.ecp.running.contains .seedSplit then .next (requestActivity .seedSplit s)
    else
      let modSpace (f : SeedSpace → SeedSpace) (s : State) : State :=
        { s with red.spaces := s.red.spaces.map fun y => if y.tenant = tenant then f y else y }
      let s := if x.splitting then s else record 0x0802 maintSrc [] (modSpace (fun y => { y with splitting := true }) s)
      let i := x.splitPtr
      let moves := (bucketSlots x i).filter fun e => (leAt e.fp 0 8).testBit x.b
      let s := moves.foldl (fun s e => splitRecord tenant (i + 2 ^ x.b) e s) s
      if i + 1 = 2 ^ x.b then
        let s := record 0x0802 maintSrc [] (modSpace (fun y => { y with b := y.b + 1, splitPtr := 0, splitting := false }) s)
        .next (if s.red.spaces.any (·.splitting) then s else endActivity .seedSplit s)
      else .next (modSpace (fun y => { y with splitPtr := i + 1 }) s)

/-! ## Snapshots (R334 to R336) -/

/-- Every write of the volume at or below an LSN is committed: no frame of it is left unrecorded and no version of it is
in the pipeline (R227, R335). -/
def committedUpTo (s : State) (v lsn : Nat) : Bool :=
  !(s.wlg.frames.any fun f => decide (f.volume = v) && owns s f.volume && decide (f.lsn ≤ lsn) && decide (f.st ≠ .committed)
      && decide (f.st ≠ .filling)) &&
  !(s.wlg.jobs.any fun j => decide (j.volume = v) && decide (j.lsn ≤ lsn))

/-- The highest LSN this head admitted for a volume (R334). -/
def volumeLsn (s : State) (x : Volume) : Nat :=
  let a := (s.wlg.frames.filter fun f => decide (f.volume = x.num) && decide (f.st ≠ .filling)).foldl (fun n f => max n f.lsn) 0
  (liveEntries s x).foldl (fun n e => max n e.lsn) a

/-- The chunks that a DISCARD fetched now may clear: the whole ones of its range that are mapped and have no logged frame (R342). -/
def discardable (s : State) (c : Cmd) (x : Volume) : List Nat :=
  ((liveEntries s x).filter fun e =>
    decide ((cmdLba c + 7) / 8 ≤ e.chunk) && decide (e.chunk < (cmdLba c + cmdCount c) / 8) && !chunkLogged s x.num e.chunk).map (·.chunk)

/-- DISCARD clears its chunks to unmapped, with the last LSN assigned by its fetch as their recorded LSN, but for those that a later
write has been mapped for since (R308, R342, R343). -/
def discardChunks (c : Cmd) (s : State) : State :=
  match volOf s (cmdVolume c) with
  | none => s
  | some x =>
    let ks := c.chunks.filter fun k => (liveEntry s x.num k).isSome && decide (lsnIn s x.table k ≤ c.cover)
    let s := ks.foldl (fun s k => setLive x.num k c.cover none s) s
    modVol x.num (fun x => { x with discarded := x.discarded + ks.length }) s

/-- Map changes above the cut are made now that the version is frozen: the DISCARDs that waited (R335, R342). -/
def resumeDiscards (v : Nat) (s : State) : State :=
  if (pendingCut s v).isSome then s
  else
    (s.dcq.cmds.filter fun c => decide (cmdOpcode c = 0x04) && decide (cmdVolume c = v) && decide (c.st = .waiting)).foldl
      (fun s c => endCmd c stSuccess 0 0 (discardChunks c s)) s

/-- The writes at or below the cut are committed and the version is frozen: it shares the live version's pages from here
on, and the SNAPSHOT completes (R335). -/
def execSnapshotFreeze (v num : Nat) (s : State) : Host.Outcome State Fault Refusal :=
  match volOf s v with
  | none => .next s
  | some x =>
    match x.snaps.find? fun p => decide (p.num = num) && !p.frozen && !p.deleting with
    | none => .next s
    | some p =>
      if alive s && committedUpTo s v p.cut then
        let p' : Snapshot := { p with frozen := true, listed := p.link.isNone, table := x.table }
        let s := modVol v (fun x => { x with snaps := x.snaps.map fun q => if q = p then p' else q }) s
        let s := noteMapChange (sendDelta [deltaSnap v p' false] s)
        let s := if p.link.isNone then record 0x0806 (srcId 4 0 0) [v, num] s else s
        match s.dcq.cmds.find? fun c => decide (cmdOpcode c = 0x08) && decide (cmdVolume c = v) && decide (c.left = num) &&
            decide (c.st = .waiting) with
        | some c =>
          .next (resumeDiscards v (if p.link.isNone then endCmd c stSuccess (w32 num) (i64 p.point) s else s))
        | none => .next (resumeDiscards v s)
      else .next s

/-- Drop a version of a volume: its references are released and its pages freed (R332, R336). -/
def dropVersion (v : Nat) (p : Snapshot) (s : State) : State :=
  let s := modVol v (fun x => { x with snaps := x.snaps.filter fun q => q ≠ p }) s
  noteMapChange (sendDelta [deltaSnap v p true] (dropPairs s))

/-- A READ or FIXITY that was fetched before the snapshot left the list has yet to read it (R336). -/
def snapAwaited (s : State) (v : Nat) (p : Snapshot) : Bool :=
  s.dcq.cmds.any fun c => (decide (cmdOpcode c = 0x01) || decide (cmdOpcode c = 0x06)) && decide (cmdVolume c = v) &&
    decide (cmdSnap c = p.num) && p.removedAt.any fun t => c.fetchedAt ≤ t

/-- The background release of a deleted snapshot finishes and its number is free again (R336). -/
def execSnapshotDeleted (v num : Nat) (s : State) : Host.Outcome State Fault Refusal :=
  match (volOf s v).bind fun x => x.snaps.find? fun p => decide (p.num = num) && p.deleting with
  | none => .next s
  | some p =>
    if alive s && !snapAwaited s v p then
      let s := { dropVersion v p s with ecp.lostList := s.ecp.lostList.filter fun r =>
        !(decide (r.volume = v) && decide (r.snap = num)) }
      .next (record 0x0807 (srcId 4 0 0) [v, num] s)
    else .next s

/-! ## Kernel coding (R368 to R374) -/

/-- Coding parameters of a chunk (R358). -/
def rasterOf (j : Job) : Raster :=
  match j.geom with
  | some g => { bits := g.bits, lanes := g.lanes, stride := g.stride, phase := rasterPhase g.stride g.row0 j.chunk }
  | none => Raster.plain

/-- The sectors of a job as chunk data. -/
def jobData (j : Job) : ChunkData :=
  { sectors := (List.range 8).map fun t => if j.lost.getLsbD t then zeroSector else j.sectors.getD t []
    guards := (List.range 8).map fun t => if j.lost.getLsbD t then zeroGuard else j.guards.getD t 0
    lost := j.lost }

/-- The container a job is stored in when it is stored RAW, as Reduce delivers it (R353, R354). -/
def jobRaw (j : Job) : List (BitVec 8) := (rawContainer j.tenant j.volume j.chunk j.lsn (jobData j)).delivered

/-- An encoder lane holds its job until the verification result arrives (R372). -/
def encoderFree (s : State) (lane : Nat) : Bool :=
  !(s.wlg.jobs.any fun j => decide (j.stage = .kernelVerify) && decide (j.lane = lane))

/-- RED_KC_CTL as a job accepted now takes it: FORCE_RAW, and the predictor that BEARING_FIXED fixes; a write of this cycle does not count
yet (R371). -/
def kcForce (s : State) : Bool := s.kc.ctlBefore.elim s.kc.forceRaw (·.1)
def kcFixed (s : State) : Option Nat :=
  let c := s.kc.ctlBefore.elim (s.kc.bearingFixed, s.kc.bearingPred) (·.2)
  if c.1 then some c.2 else none

/-- An encoder lane codes the eight slices, or the chunk goes RAW: past the output limit, with a lost sector, or while
FORCE_RAW is 1 or a power-fail flush runs (R368 to R371). -/
def execKernelEncode (v chunk lane : Nat) (s : State) : Host.Outcome State Fault Refusal :=
  match jobOf s v chunk with
  | none => .next s
  | some j =>
    if alive s && decide (j.stage = .encode) && laneRuns s 2 3 lane && encoderFree s lane then
      let s := { s with kc.chunks := satAdd (2 ^ 64 - 1) s.kc.chunks 1 }
      let raw := modJob v chunk (fun j => { j with stage := .protect, container := jobRaw j }) s
      if kcForce s || decide (j.lost ≠ 0) || s.pwr.flushActive then .next raw
      else
        let r := rasterOf j
        match encodeSlices r (kcFixed s) (j.sectors.flatMap id) with
        | none => .next { raw with kc.overflow := satAdd (2 ^ 64 - 1) s.kc.overflow 1 }
        | some ss =>
          let c : Container :=
            { serial := 0, kernel := true, tenant := j.tenant, volume := v, lostMask := 0, raster := r, chunk := chunk,
              lsn := j.lsn, guards := j.guards, slices := ss, raw := [] }
          .next (modJob v chunk (fun j => { j with stage := .kernelVerify, container := c.delivered, lane := lane }) s)
    else .next s

/-- The predictors of a container's slices count among the stored ones (R381). -/
def countPreds (bs : List (BitVec 8)) (s : State) : State :=
  (cutSlices bs).foldl (fun s sl =>
    { s with kc.predSlices := s.kc.predSlices.modify sl.1 fun n => satAdd (2 ^ 32 - 1) n 1 }) s

/-- A free verifier lane decodes the container and compares it with the encoder's input; `fault` says that a lane erred. A
difference stores the chunk RAW, with record 0x080B and a test of both lanes (R372, R373). With either lane in HUSK the
result is discarded and the chunk is coded again (R374). -/
def execKernelVerify (v chunk lane : Nat) (fault : Bool) (s : State) : Host.Outcome State Fault Refusal :=
  match jobOf s v chunk with
  | none => .next s
  | some j =>
    if alive s && decide (j.stage = .kernelVerify) && (poolFree s lane || decide (ctlState s (srcId 2 4 lane) = .husk)) then
      let enc := srcId 2 3 j.lane
      let ver := srcId 2 4 lane
      if ctlState s enc = .husk ∨ ctlState s ver = .husk then
        .next (modJob v chunk (fun j => { j with stage := .encode, container := [] })
          { s with flt.redispatched := s.flt.redispatched + 1 })
      else
        let s := poolTake lane s
        let c := parseContainer j.container
        let r := rasterOf j
        let done (c : List (BitVec 8)) (j : Job) : Job := { j with stage := .protect, container := c, verAt := now s, verLane := lane }
        let same := !fault && decide (containerData c 8 = j.sectors.flatMap id) && decide (c.guards = j.guards) &&
          decide (c.tenant = j.tenant ∧ c.volume = v ∧ c.chunk = chunk ∧ c.lsn = j.lsn) && c.kernel && decide (c.lostMask = j.lost) &&
          decide (c.raster.bits = r.bits ∧ c.raster.lanes = r.lanes ∧ c.raster.stride = r.stride ∧ c.raster.phase = r.phase)
        if same then
          .next (countPreds j.container (modJob v chunk (done j.container)
            { s with kc.kernel := satAdd (2 ^ 64 - 1) s.kc.kernel 1 }))
        else
          let s := record 0x080B enc [enc, ver, v, chunk]
            { s with kc.verifyFail := true, kc.mismatch := satAdd (2 ^ 64 - 1) s.kc.mismatch 1 }
          let s := contain ver .kernelVectors (contain enc .kernelVectors s)
          .next (modJob v chunk (done (jobRaw j)) s)
    else .next s

/-- A stored container is checked and decoded for a read, by a lane that the pool grants (R17, R355, R356, R366). -/
def execKernelDecode (obj : ChunkId) (snap lane : Nat) (media : List StoredRead) (s : State) : Host.Outcome State Fault Refusal :=
  if alive s && decodeGranted s lane && s.sec.drbgOk then
    .next (readMapped obj.vol snap obj.chunk 3 media (poolTake lane s)).2
  else .next s

/-- A dictionary job fails whole: record 0x080D but for a configuration section, whose failure is reason code 3 (R164,
R378). -/
def execDictJob (encode cfgSection : Bool) (requester : Nat) (input : List (BitVec 8)) (s : State) :
    Host.Outcome State Fault Refusal :=
  if encode || cfgSection || !powered s then .next s
  else
    match dictDecodeAt input with
    | (some _, _) => .next s
    | (none, off) => .next (record 0x080D (srcId 2 5 0) [requester, off] { s with kc.dictFail := true })

/-! ## Protect (R391, R399 to R401, R527) -/

/-- Flushes of a volume that wait for this version complete CAPACITY_EXHAUSTED (R227, R527). -/
def flushNoSpace (v lsn : Nat) (s : State) : State :=
  (s.dcq.cmds.filter fun c => decide (cmdOpcode c = 0x03) && decide (cmdVolume c = v) && decide (c.st = .waiting) &&
    decide (lsn ≤ c.cover)).foldl (fun s c => endCmd c stCapacityExhausted 0 0 s) s

/-- The Protect stage writes the serial and the CRC, encrypts the container by a lane of the XTS encryptor and places it in the open stripe of the
volume's geometry, or of a flush stripe during a power-fail flush (R81, R399, R400). The lane waits while the DRBG issues no bits (R404). -/
def execProtectChunk (obj : ChunkId) (lane : Nat) (s : State) : Host.Outcome State Fault Refusal :=
  let v := obj.vol
  let chunk := obj.chunk
  match jobOf s v chunk with
  | none => .next s
  | some j =>
    if alive s && decide (j.stage = .protect) && laneRuns s 3 1 lane && s.sec.drbgOk then
      let plain := if j.container.isEmpty || s.pwr.flushActive then jobRaw j else j.container
      match takeSerial s with
      | (none, s) => .next s
      | (some n, s) =>
        let bytes := { parseContainer plain with serial := n }.bytes
        let geo := if s.pwr.flushActive then flushGeom s else geomOf s v
        let e : TrailerEntry :=
          { volume := v, method := leAt plain 11 1, shared := false, moved := false, kind := 0, len := bytes.length / 256,
            grain := 0, chunk := chunk, lsn := j.lsn }
        match placeObject geo.1 geo.2 (if s.pwr.flushActive then 2 else 0) (sealStored s j.tenant bytes) e s with
        | (none, s) => .next (flushNoSpace v j.lsn s)
        | (some a, s) =>
          .next (modJob v chunk (fun j =>
            { j with
              stage := if j.indexed && !j.fp.isEmpty then .insert else .placed
              container := bytes, serial := n, grain := BitVec.ofNat 64 a }) s)
    else .next s

/-! ## Register writes (R347 to R349, R379, R380) -/

/-- A host write of a RED register. -/
def redWrite (off : Nat) (w : BitVec 32) (s : State) : State :=
  if off = 0x80000 then
    { s with red.collision := s.red.collision && !bitOf w 2, red.saturated := s.red.saturated && !bitOf w 3 }
  else if off = 0x80004 then { s with red.archNoVerify := bitOf w 0 }
  else if off = 0x80008 then { s with red.seedSel := fld w 0 15 }
  else if off = 0x80100 then
    { s with kc.verifyFail := s.kc.verifyFail && !bitOf w 13, kc.decodeFail := s.kc.decodeFail && !bitOf w 14,
             kc.dictFail := s.kc.dictFail && !bitOf w 15, kc.ctlErr := s.kc.ctlErr && !bitOf w 16 }
  else if off = 0x80104 then
    if 4 < fld w 2 3 then { s with kc.ctlErr := true }
    else { s with kc.ctlBefore := some (s.kc.ctlBefore.getD (s.kc.forceRaw, s.kc.bearingFixed, s.kc.bearingPred))
                  kc.forceRaw := bitOf w 0, kc.bearingFixed := bitOf w 1, kc.bearingPred := fld w 2 3 }
  else s

end Sys2Proof.Machine
end

