-- ==== Sys2Proof/Machine/Commands.lean ====
section
/-!
DEFINITION. Command queues and the command set (chapter 07): doorbells, fetch, the checks of R223, every I/O and admin
opcode, aborts, and the queues' own states.
-/
namespace Sys2Proof.Machine

/-- Source identifier of the queue engine (R15). -/
def queueSrc : Nat := srcId 1 1 0

/-! ## Fetch and start (R211, R214, R215, R288) -/

/-- FENCE of a command (R217). -/
def fenced (c : Cmd) : Bool := decide (cmdFlags c % 2 = 1)

/-- DLIST of a command (R218). -/
def dlist (c : Cmd) : Bool := decide (cmdFlags c / 4 % 2 = 1)

/-- Ready tags of a channel. -/
def channelReady (q : Queue) : List Nat :=
  (List.range 32).filter fun t => decide ((q.tags.getD t Tag.reset).st = .ready) && !cplWaits t q

/-- Channel whose queue has a ready command to fetch. -/
def channelToFetch (s : State) (q : Queue) : Option Nat :=
  match q.id with
  | .channel n =>
    if decide (q.st = .active) && !(channelReady q).isEmpty && (qpOf s n).all fun p => p.st ≠ .error then some n else none
  | .ring _ _ => none

/-- A channel and its tag are next: the channels take turns, and within one its tags (R214, R258). -/
def channelNext (s : State) (n : Nat) (q : Queue) (tag : Nat) : Bool :=
  decide (nextAfter s.dcq.lastChan (s.dcq.queues.filterMap (channelToFetch s)) = some n) &&
    decide (nextAfter q.lastFetched (channelReady q) = some tag)

/-- The command of tag `tag` of a queue can be fetched now: the queue is in service and not held, the head is in PS0, and the read of
its slot has been issued in the queue's turn (R91, R200, R214, R240), or its channel is next (R258). -/
def fetchable (s : State) (q : QueueId) (tag : Nat) : Bool :=
  fetchOn s &&
  match queueOf s q with
  | some x =>
    decide (x.st = .active) && !x.held && decide ((x.tags.getD tag Tag.reset).st = .ready) && !cplWaits tag x &&
      (match q with
       | .ring ep _ => (x.tags.getD tag Tag.reset).asked && !epHeld (epOf s ep)
       | .channel n => channelNext s n x tag)
  | none => false

/-- The engine that a command needs waits for fresh bits of the DRBG: a READ or a FIXITY for the XTS lanes, a CREATE_VOLUME for its keys
(R403, R404). -/
def drbgWaits (s : State) (c : Cmd) : Bool := !s.sec.drbgOk && [0x01, 0x06, 0x84].contains (cmdOpcode c)

/-- A command that FENCE does not keep back may start: every earlier command of its queue has had its completion posted
when it is fenced itself, and no earlier fenced one is still without (R284, R288). A command behind a fenced one starts a cycle after
its completion is posted. -/
def mayStart (s : State) (c : Cmd) : Bool :=
  !drbgWaits s c &&
  let q := queueOf s c.q
  let earlier := s.dcq.cmds.filter fun x => decide (x.q = c.q) && !x.remote && decide (x.seq < c.seq)
  let kept := (q.elim [] (·.waiting)).filter fun k => k.seq < c.seq
  q.all (fun x => x.fenceAt ≠ some (now s)) &&
  if fenced c then earlier.isEmpty && kept.isEmpty
  else !(earlier.any fenced) && !(kept.any (·.fence))

/-! ## Fields of a command (R217, R225, R238, R241) -/

/-- `len` bytes at offset `off` of the command, as a number. -/
def cmdAt (c : Cmd) (off len : Nat) : Nat := leAt (cmdSpecific c) (off - 40) len

/-- Signed 64-bit value at an offset of SPECIFIC. -/
def cmdTime (c : Cmd) (off : Nat) : Int := (BitVec.ofNat 64 (cmdAt c off 8)).toInt

/-- Opcodes of the I/O queues and channels (R225). -/
def ioOpcode (op : Nat) : Bool := decide (1 ≤ op) && decide (op ≤ 0x0B)

/-- Opcodes of the admin queue (R238). -/
def adminOpcode (op : Nat) : Bool := decide (0x81 ≤ op) && decide (op ≤ 0x8A)

/-- The opcode is defined for the queue (check 2). -/
def opcodeOn (q : QueueId) (op : Nat) : Bool :=
  match q with
  | .ring _ 0 => adminOpcode op
  | _ => ioOpcode op

/-- Which of VOLUME, TENANT, LBA, COUNT, SNAP, DATA_ADDR and PI_ADDR an opcode uses, as bits 0 to 6 (R225, R238). -/
def usedFields (op : Nat) : Nat :=
  if op = 1 ∨ op = 2 then 127 else if op = 3 ∨ op = 8 then 3 else if op = 4 then 31
  else if op = 5 ∨ op = 7 then 15 else if op = 6 then 63 else if op = 9 ∨ op = 10 then 19 else if op = 11 then 35
  else if op = 0x81 then 96 else if op = 0x84 ∨ op = 0x85 then 3 else if op = 0x86 then 2
  else if op = 0x8A then 32 else 0

/-- Ranges of SPECIFIC an opcode uses, as offset and length (R225, R238, R241). -/
def usedSpecific (op : Nat) : List (Nat × Nat) :=
  if op = 5 then [(40, 3), (44, 4)] else if op = 6 then [(40, 1)] else if op = 7 then [(40, 8)]
  else if op = 9 then [(40, 2)] else if op = 11 then [(40, 1), (44, 4)] else if op = 0x81 then [(40, 5)]
  else if op = 0x82 ∨ op = 0x83 then [(40, 2)] else if op = 0x84 then [(40, 11)]
  else if op = 0x86 then [(40, 1), (44, 12)] else if op = 0x87 then [(40, 8)]
  else if op = 0x88 then [(40, 11), (52, 2)] else []

/-- Reserved bits and unused fields are 0, DLIST and DATA_LZ are allowed, SNAP is in range, and TAG names the slot
(R217, R218, R223). -/
def fieldsZero (c : Cmd) : Bool :=
  let op := cmdOpcode c
  let use (i : Nat) : Bool := (usedFields op).testBit i
  decide (cmdFlags c < 16) && decide (fld (cmdWord c 0) 24 8 = 0) && decide (fld (cmdWord c 0) 16 5 = c.tag) &&
  decide (cmdTenant c < 32768) && decide (fld (cmdWord c 5) 16 16 = 0) &&
  (decide (cmdSnap c ≤ 4096) || decide (op = 2) || decide (op = 4)) &&
  (use 0 || decide (cmdVolume c = 0)) && (use 1 || decide (cmdTenant c = 0)) && (use 2 || decide (cmdLba c = 0)) &&
  (use 3 || decide (cmdCount c = 0)) && (use 4 || decide (cmdSnap c = 0)) && (use 5 || decide (cmdData c = 0)) &&
  (use 6 || decide (cmdPi c = 0)) &&
  ((List.range 24).all fun i =>
    (usedSpecific op).any (fun r => decide (r.1 ≤ 40 + i) && decide (40 + i < r.1 + r.2)) ||
      decide ((cmdSpecific c).getD i 0 = 0)) &&
  (!dlist c || decide (op = 1) || decide (op = 2)) &&
  (!dataLz c || ((decide (op = 1) || decide (op = 2) || decide (op = 6) || decide (op = 11)) &&
    (match c.q with | .ring _ _ => true | .channel _ => false)))

/-- MEMBER modules. -/
def memberCount (s : State) : Nat := (memberSlots s).length

/-- K and M that a CREATE_VOLUME asks for, the defaults for two zeros (R525). -/
def askedGeometry (s : State) (c : Cmd) : Nat × Nat :=
  if cmdAt c 48 1 = 0 ∧ cmdAt c 49 1 = 0 then (s.ecp.defK, s.ecp.defM) else (cmdAt c 48 1, cmdAt c 49 1)

/-- K and M are as R524 and R525 ask. -/
def geometryOk (s : State) (g : Nat × Nat) : Bool :=
  decide (4 ≤ g.1) && decide (g.1 ≤ 21) && (decide (g.2 = 2) || decide (g.2 = 3)) && decide (g.1 + g.2 ≤ 24) &&
  decide (g.1 + g.2 + 1 ≤ memberCount s)

/-- A hundred Julian years in ns (R338). -/
def centuryNs : Int := 3155760000 * 10 ^ 9

/-- The values of an opcode's own fields are in range (check 4). -/
def valuesOk (s : State) (c : Cmd) : Bool :=
  let op := cmdOpcode c
  let n := cmdCount c
  if op = 1 ∨ op = 2 then
    decide (1 ≤ n) && decide (n ≤ 1024) && (dlist c || decide ((cmdData c).toNat % 4 = 0)) &&
      decide ((cmdPi c).toNat % 16 = 0)
  else if op = 4 then decide (1 ≤ n)
  else if op = 5 then
    let b := cmdAt c 40 1
    let l := cmdAt c 41 1
    let st := cmdAt c 44 4
    (decide (b = 8) || decide (b = 16)) && decide (1 ≤ l) && decide (l ≤ 16) && decide (cmdAt c 42 1 < 2) &&
      decide (1 ≤ st) && decide (st ≤ 1048576) && decide (st % (b / 8 * l) = 0)
  else if op = 6 then
    decide (1 ≤ n) && (decide (cmdAt c 40 1 = 1) || decide (cmdAt c 40 1 = 2)) && decide ((cmdData c).toNat % 4 = 0)
  else if op = 7 then
    (decide (n ≠ 0) || decide (cmdLba c = 0)) && decide (highWater s < cmdTime c 40) &&
      decide (cmdTime c 40 ≤ highWater s + centuryNs)
  else if op = 9 then decide (1 ≤ cmdSnap c) && (volOf s (cmdAt c 40 2)).isNone
  else if op = 10 then decide (1 ≤ cmdSnap c)
  else if op = 11 then
    decide (cmdAt c 40 1 ≤ 5) && (decide (3 ≤ cmdAt c 40 1) || decide (cmdAt c 44 4 = 0)) &&
      decide ((cmdData c).toNat % 4 = 0)
  else if op = 0x81 then
    decide (1 ≤ cmdAt c 40 2) && decide (cmdAt c 40 2 ≤ 256) && decide (5 ≤ cmdAt c 42 1) && decide (cmdAt c 42 1 ≤ 12) &&
      decide (1 ≤ cmdAt c 43 1) && decide (cmdAt c 43 1 ≤ 32) && decide ((cmdData c).toNat % 2048 = 0) &&
      decide ((cmdPi c).toNat % 4096 = 0)
  else if op = 0x82 ∨ op = 0x83 then decide (1 ≤ cmdAt c 40 2) && decide (cmdAt c 40 2 ≤ 256)
  else if op = 0x84 then
    (volOf s (cmdVolume c)).isNone && decide (1 ≤ cmdAt c 40 8) && decide (cmdAt c 40 8 ≤ 2 ^ 40) &&
      (decide (cmdAt c 48 1 = 0) == decide (cmdAt c 49 1 = 0)) && geometryOk s (askedGeometry s c) &&
      decide (cmdAt c 50 1 < 8)
  else if op = 0x86 then
    if cmdAt c 40 1 = 1 then decide (3600 ≤ cmdAt c 44 4) && decide (cmdAt c 44 4 ≤ 31622400)
    else (decide (cmdAt c 40 1 = 0) || decide (cmdAt c 40 1 = 2)) && decide (cmdAt c 44 4 = 0) && decide (cmdAt c 48 8 = 0)
  else if op = 0x88 then
    let m := cmdAt c 48 1
    decide (m < 32) && (!m.testBit 1 || decide (cmdAt c 49 1 < 2)) &&
      (!m.testBit 2 || (decide (1 ≤ cmdAt c 50 1) && decide (cmdAt c 50 1 ≤ 127))) &&
      (!m.testBit 3 || decide (60 ≤ cmdAt c 52 2))
  else if op = 0x89 then decide (s.dcq.async.length < 4)
  else if op = 0x8A then decide ((cmdData c).toNat % 4 = 0)
  else true

/-- Tenant of the partition key a channel is bound to (R223, R257). -/
def chanTenant (s : State) (q : QueueId) : Option Nat :=
  match q with
  | .channel n => (qpOf s n).map (·.tenant)
  | .ring _ _ => none

/-- `len` bytes at a buffer address can be reached: within the landing zone, or within a live region of the channel's
tenant (R218, R259, R267). Host memory is not checked. -/
def bufferOk (s : State) (c : Cmd) (addr : BitVec 64) (len : Nat) : Bool :=
  match c.q with
  | .channel _ =>
    (boundRegions s).any fun r =>
      decide (r.index = (hi32 addr).toNat / 256) && decide (r.gen = (hi32 addr).toNat % 256) && r.live && decide (some r.tenant = chanTenant s c.q) && decide ((lo32 addr).toNat + len ≤ r.len)
  | .ring _ _ => !dataLz c || decide (addr.toNat + len ≤ spaceSize s 0)

/-- The page list of a command that lies at `a` in the landing zone (R218). -/
def pageList (s : State) (c : Cmd) (a : Nat) : List (BitVec 64) :=
  (List.range (cmdCount c)).map fun i => BitVec.ofNat 64 (leNat (memBytes 0 s.lz (a + 8 * i) 8))

/-- The buffers a command names are good (R218, R259). -/
def buffersOk (s : State) (c : Cmd) : Bool :=
  let op := cmdOpcode c
  if op = 1 ∨ op = 2 then
    bufferOk s c (cmdData c) (if dlist c then 8 * cmdCount c else 4096 * cmdCount c) && bufferOk s c (cmdPi c) (16 * cmdCount c)
  else if op = 6 then bufferOk s c (cmdData c) 64
  else if op = 11 then bufferOk s c (cmdData c) 4096
  else true

/-- Every entry of a page list is 4 KiB-aligned and can be reached (R218). -/
def pagesOk (s : State) (c : Cmd) (ps : List (BitVec 64)) : Bool :=
  decide (ps.length = cmdCount c) && ps.all fun a => decide (a.toNat % 4096 = 0) && bufferOk s c a 4096

/-- Admin opcodes executed between FW and SERVICE (R239). -/
def earlyOpcode (op : Nat) : Bool := [0x81, 0x82, 0x83, 0x87, 0x89, 0x8A].contains op

/-- The life-cycle state gives a data service (R170). -/
def dataService (s : State) : Bool :=
  match lifeCycle s with
  | .blank | .decommissioned => false
  | .personalised | .operational => true

/-- Check 3: mode and readiness permit the opcode; a BLANK or DECOMMISSIONED part gives no data service (R82, R141, R170, R230, R239, R658). -/
def readyFor (s : State) (c : Cmd) : Bool :=
  let op := cmdOpcode c
  !s.pwr.flushActive && !s.flt.wholeChip &&
  (earlyOpcode op || (s.glb.service && dataService s && (decide (s.glb.mode = .ready) || decide (s.glb.mode = .maintenance)))) &&
  (decide (op ≠ 7) || s.lds.civilValid)

/-- Checks 1 to 4 with the page list apart (R223): 0 when all pass, else the status. -/
def firstChecks (s : State) (c : Cmd) : Nat :=
  if fld (cmdWord c 0) 21 3 ≠ c.gen then stGenerationMismatch
  else if !opcodeOn c.q (cmdOpcode c) then stInvalidOpcode
  else if !readyFor s c then stNotReady
  else if !(fieldsZero c && valuesOk s c && buffersOk s c) then stInvalidField
  else 0

/-- Opcodes that name an existing volume: the I/O opcodes and DELETE_VOLUME. -/
def volumeOpcode (op : Nat) : Bool := ioOpcode op || decide (op = 0x85)

/-- Sectors a RETAIN covers: COUNT 0 is the whole volume (R225). -/
def retainCount (x : Volume) (c : Cmd) : Nat := if cmdCount c = 0 then x.size else cmdCount c

/-- Checks 5 to 9 (R223, R339); `tenant` is the tenant of a channel's partition key: 0 when all pass, else the status. -/
def laterChecks (s : State) (c : Cmd) (tenant : Option Nat) : Nat :=
  let op := cmdOpcode c
  if !volumeOpcode op then 0
  else
    match volOf s (cmdVolume c) with
    | none => stVolumeUnknown
    | some x =>
      if cmdSnap c ≠ 0 ∧ (if op = 1 ∨ op = 6 then snapSeen x (cmdSnap c) c.fetchedAt else snapOf x (cmdSnap c)).isNone then
        stVolumeUnknown
      else if cmdTenant c ≠ x.tenant ∨ tenant.any (· ≠ x.tenant) then stTenantMismatch
      else if [1, 2, 4, 5, 6, 7].contains op ∧ x.size < cmdLba c + cmdCount c then stLbaRange
      else if (op = 2 ∨ op = 4) ∧ (cmdSnap c ≠ 0 ∨ x.target) then stReadOnlySnapshot
      else if (op = 2 ∨ op = 4) ∧ rangeLocked s x c.fetchedAt (cmdLba c) (cmdCount c) then stRetained
      else if op = 7 ∧ ((judgedLocks s x c.fetchedAt).any fun l => decide (cmdTime c 40 < l.expiry) &&
          overlaps (cmdLba c) (retainCount x c) l.lba l.count) then stRetained
      else if op = 0x85 ∧ !(judgedLocks s x c.fetchedAt).isEmpty then stRetained
      else 0

/-- The opcodes that R236 forwards. -/
def forwards (op : Nat) : Bool := ioOpcode op || decide (op = 0x84) || decide (op = 0x85)

/-- RESULT0 of HEAD_FAILOVER_RETRY for a moving volume: 2 ms for a handover, 1 000 ms for a takeover (R570). -/
def movingDelay (s : State) : Nat := if s.xhl.handover.isSome then 2 else 1000

/-! ## Output of sectors (R194, R218, R236, R259) -/

/-- Address of a piece of a command's output: 0 data of sector `i`, 1 its PI, 2 the one buffer. -/
def outAddr (c : Cmd) (kind i : Nat) : BitVec 64 :=
  if kind = 0 then (match c.plist[i]? with | some a => a | none => cmdData c + BitVec.ofNat 64 (4096 * i))
  else if kind = 1 then cmdPi c + BitVec.ofNat 64 (16 * i)
  else cmdData c

/-- Give one piece of output to its place, or to the head that forwarded the command. -/
def putOut (c : Cmd) (kind i : Nat) (data : List (BitVec 8)) (s : State) : State :=
  if c.remote then xhlSend 0x0302 false false (queueArgs c.q ++ [c.tag, c.gen, kind, i]) data s
  else deliver c (outAddr c kind i) data s

/-- READ: every sector asked for, whole, with its PI; a lost one is not sent and the command completes DATA_LOST with
RESULT0 its index (R225, R299, R390). -/
def runRead (c : Cmd) (media : List StoredRead) (s : State) : State :=
  let (l, s) := readRange (cmdVolume c) (cmdSnap c) (cmdTenant c) (cmdLba c) (cmdCount c) media s
  let s := (List.range l.length).foldl (fun s i =>
    match l[i]? with
    | some r => if r.lost then s else putOut c 1 i r.pi (putOut c 0 i r.data s)
    | none => s) s
  match (List.range l.length).find? fun i => (l[i]?).any (·.lost) with
  | some i => endCmd c stDataLost (w32 i) 0 s
  | none => endCmd c stSuccess 0 0 s

/-! ## The other I/O opcodes -/

/-- Set how far a command has gone. -/
def setCmdState (c : Cmd) (f : Cmd → Cmd) (s : State) : State := modAnyCmd c.q c.tag c.remote f s

/-- FLUSH waits for the commitment of every write of its volume admitted by its fetch (R227). -/
def runFlush (c : Cmd) (s : State) : State :=
  if committedUpTo s (cmdVolume c) c.cover then endCmd c stSuccess 0 0 s
  else setCmdState c (fun c => { c with st := .waiting }) s

/-- DISCARD acts at once, or after the freeze while a cut of the volume waits that its LSN is above (R335, R342). -/
def runDiscard (c : Cmd) (s : State) : State :=
  if (pendingCut s (cmdVolume c)).any fun cut => cut < c.cover then setCmdState c (fun c => { c with st := .waiting }) s
  else endCmd c stSuccess 0 0 (discardChunks c s)

/-- The parts of hints outside a range (R232, R499). -/
def cutHints (lba count : Nat) (hs : List RangeHint) : List RangeHint :=
  hs.flatMap fun h =>
    if h.lba + h.count ≤ lba ∨ lba + count ≤ h.lba then [h]
    else
      (if h.lba < lba then [{ h with count := lba - h.lba }] else []) ++
      (if lba + count < h.lba + h.count then [{ h with lba := lba + count, count := h.lba + h.count - (lba + count) }] else [])

/-- RASTER_HINT: frames admitted in the cycle of its completion still use the geometry the volume had before; a remembered hint is part of
what the waypoint records (R232, R484, R499). -/
def runHint (c : Cmd) (s : State) : State :=
  let g : Geometry := { bits := cmdAt c 40 1, lanes := cmdAt c 41 1, stride := cmdAt c 44 4, row0 := cmdLba c }
  let persist := decide (cmdAt c 42 1 = 1)
  let set (x : Volume) : Volume :=
    let lo := if cmdCount c = 0 then 0 else cmdLba c
    let n := if cmdCount c = 0 then x.size else cmdCount c
    let h : RangeHint := { lba := lo, count := n, geom := g }
    let tr := cutHints lo n x.transient
    if !persist then { x with transient := tr ++ [h] }
    else if cmdCount c = 0 then { x with transient := tr, default_ := some g }
    else { x with transient := tr, ranges := insertBy (·.lba) h (cutHints lo n x.ranges) }
  let b := s.red.hintsBefore
  let s := { s with red.hintsBefore := if b.any fun x => x.num = cmdVolume c then b else b ++ (volOf s (cmdVolume c)).toList }
  endCmd c stSuccess 0 0 (modVol (cmdVolume c) set (if persist then noteMapChange s else s))

/-- FIXITY gives the range to the digest service, which completes it; from a host start of the same cycle it takes the service, and
that start is refused (R231, R411, R414). -/
def runFixity (c : Cmd) (media : List StoredRead) (s : State) : State :=
  let late := decide (s.dig.st = .busy) && s.dig.cmd.isNone && decide (s.dig.startAt = some (now s))
  if s.dig.st ≠ .idle ∧ ¬ late then endCmd c stDigestBusy 0 0 s
  else
    let s := { s with dig.refused := s.dig.refused || late }
    let before := s.ecp.lostChunks
    let (l, s) := readRange (cmdVolume c) (cmdSnap c) (cmdTenant c) (cmdLba c) (cmdCount c) media s
    let s := setCmdState c (fun c => { c with st := .begun }) s
    let start : State :=
      { s with dig.st := .busy, dig.fixity := true, dig.cause := 0, dig.alg := cmdAt c 40 1, dig.doneBytes := 0,
               dig.msg := l.flatMap (·.data), dig.cmd := some (c.q, c.tag), dig.remote := c.remote,
               dig.result := List.replicate 12 0 }
    if l.any (·.lost) then
      if s.ecp.lostChunks = before then endCmd c stDataLost 0 0 s else digClear 1 stDataLost start
    else start

/-- A new lock joins every lock of equal EXPIRY that it overlaps or adjoins and keeps the earliest time placed (R341). -/
def mergeLock (l : Lock) (ls : List Lock) : Lock × List Lock :=
  let touches (a b : Lock) : Bool :=
    decide (a.expiry = b.expiry) && decide (a.lba ≤ b.lba + b.count) && decide (b.lba ≤ a.lba + a.count)
  ls.foldl (fun (acc : Lock × List Lock) x =>
    if touches acc.1 x then
      let lo := min acc.1.lba x.lba
      ({ acc.1 with lba := lo, count := max (acc.1.lba + acc.1.count) (x.lba + x.count) - lo,
                    placed := min acc.1.placed x.placed }, acc.2)
    else (acc.1, acc.2 ++ [x])) (l, [])

/-- RETAIN (R230, R338 to R341): the lock stands from here on, and the command completes once the WRITEs and DISCARDs
fetched before it on its range have ended. -/
def runRetain (c : Cmd) (s : State) : State :=
  match volOf s (cmdVolume c) with
  | none => s
  | some x =>
    let l : Lock := { lba := cmdLba c, count := retainCount x c, expiry := cmdTime c 40, placed := civilNow s }
    let (m, rest) := mergeLock l x.locks
    let gone := x.locks.filter fun y => !rest.contains y
    let others := s.red.volumes.foldl (fun n y => if y.num = x.num then n else n + y.locks.length) 0
    if 1024 < rest.length + 1 ∨ 262144 < others + rest.length + 1 then endCmd c stCapacityExhausted 0 0 s
    else
      let s := { s with red.before := if s.red.before.any fun b => b.1 = x.num then s.red.before else s.red.before ++ [(x.num, x.locks)] }
      let s := noteMapChange (modVol x.num (fun x => { x with locks := insertBy (·.lba) m rest }) s)
      let s := record 0x0808 (srcId 4 0 0) [x.num] s
      settleRetains (setCmdState c (fun c => { c with st := .waiting, lock := some m, gone := gone }) s)

/-- The lowest free snapshot number of a volume (R334). -/
def freeSnap (x : Volume) : Option Nat := ((List.range 4096).map (· + 1)).find? fun n => !(x.snaps.any fun p => p.num = n)

/-- SNAPSHOT takes the cut and the point of its fetch; SNAPSHOT_FREEZE completes it (R334, R335). -/
def runSnapshot (c : Cmd) (s : State) : State :=
  match volOf s (cmdVolume c) with
  | none => s
  | some x =>
    match freeSnap x with
    | none => endCmd c stObjectLimit 0 0 s
    | some n =>
      let p : Snapshot := { Snapshot.reset with num := n, point := c.fetchCivil, cut := c.cover }
      let s := modVol x.num (fun x => { x with snaps := x.snaps ++ [p] }) s
      setCmdState c (fun c => { c with st := .waiting, left := n }) s

/-- CLONE: NEW_VOLUME shares the snapshot's pages, with the source's tenant, size, geometry and flags (R229, R337). -/
def runClone (c : Cmd) (s : State) : State :=
  match volOf s (cmdVolume c) with
  | none => s
  | some x =>
    if 65536 ≤ s.red.volumes.length then endCmd c stObjectLimit 0 0 s
    else
      match snapOf x (cmdSnap c) with
      | none => s
      | some p =>
        let new := cmdAt c 40 2
        let y : Volume :=
          { Volume.reset with
            num := new, tenant := x.tenant, size := x.size, k := x.k, m := x.m, reduce := x.reduce, dedup := x.dedup,
            verify := x.verify, table := p.table, created := civilNow s }
        let lost := (s.ecp.lostList.filter fun r => decide (r.volume = x.num) && decide (r.snap = p.num)).map fun r =>
          { r with volume := new, snap := 0 }
        let s := { s with red.volumes := insertBy (·.num) y s.red.volumes }
        let s := lost.foldl (fun s r => addLost r s) s
        let s := noteMapChange (sendDelta [deltaVol s y false] s)
        let s := (liveEntries s y).foldl (fun s e => sendDelta [deltaEntry new 0 e.chunk 0 (some e)] s) s
        endCmd c stSuccess (w32 new) 0 (record 0x0506 (srcId 4 0 0) [new] s)

/-- SNAP_DELETE takes the snapshot off the list; SNAPSHOT_DELETED ends the release (R336). -/
def runSnapDelete (c : Cmd) (s : State) : State :=
  endCmd c stSuccess 0 0 (modVol (cmdVolume c) (fun x =>
    { x with snaps := x.snaps.map fun p =>
        if decide (p.num = cmdSnap c) && p.listed then { p with listed := false, deleting := true, removedAt := some (now s) } else p }) s)

/-! ## QUERY (R233, R234, R345, R346, R544) -/

/-- A page of 4 KiB. -/
def pageOf (bs : List (BitVec 8)) : List (BitVec 8) := (bs ++ List.replicate 4096 0).take 4096

/-- The volume information page (R234). -/
def volumePage (s : State) (x : Volume) : List (BitVec 8) :=
  let g := x.default_
  pageOf (volInfo32 s x ++ leBytes 1 (g.elim 0 (·.bits)) ++ leBytes 1 (g.elim 0 (·.lanes)) ++ leBytes 2 0 ++
    leBytes 4 (g.elim 0 (·.stride)))

/-- The reduction statistics page (R345). -/
def statsPage (s : State) (x : Volume) : List (BitVec 8) :=
  let es := liveEntries s x
  let n (p : MapEntry → Bool) : Nat := (es.filter p).length
  pageOf (([es.length, n fun e => e.method = .zero, n fun e => e.method = .raw, n fun e => e.method = .kernel,
    (es.filter fun e => e.method = .kernel).foldl (fun k e => k + e.grains) 0, n (·.shared),
    x.hits, x.mismatches, x.unindexed, x.discarded, x.logical]).flatMap (leBytes 8))

/-- A closed period record (R234). -/
def periodBytes (p : Period) : List (BitVec 8) :=
  leBytes 8 (i64 p.start).toNat ++ leBytes 8 (i64 p.fin).toNat ++ leBytes 8 p.written ++ leBytes 8 p.read ++
    leBytes 8 p.commands ++ leBytes 8 p.peakGrains ++ leBytes 4 (b2n p.skipped) ++ leBytes 12 0

/-- A page of a 32-byte head and up to 127 records of 32 bytes from FIRST (R346, R544). -/
def listPage (s : State) (first : Nat) (recs : List (List (BitVec 8))) : List (BitVec 8) :=
  pageOf (leBytes 4 recs.length ++ leBytes 4 first ++ leBytes 8 (i64 (highWater s)).toNat ++ leBytes 16 0 ++
    ((recs.drop first).take 127).flatMap fun r => (r ++ List.replicate 32 0).take 32)

/-- Entries of a version. -/
def versionEntries (s : State) (table : List (Nat × Nat)) : List MapEntry :=
  table.flatMap fun t => ((pairOf s t.2).map (·.entries)).getD []

/-- Grains that a deletion of this snapshot alone would free (R346). -/
def onlyGrains (s : State) (p : Snapshot) : Nat :=
  let all := versionEntries s p.table
  let own := p.table.flatMap fun t =>
    if pairRefs s t.2 = 1 then (((pairOf s t.2).map (·.entries)).getD []).filter fun e => !e.shared && decide (e.method ≠ .zero)
    else []
  let refCount (g : Nat) : Nat := match seedAt s g with | some (_, e) => e.count | none => (shareAt s g).elim 0 (·.count)
  let shared := (all.filter fun e => e.shared && decide (e.method ≠ .zero)).foldl (fun (l : List MapEntry) e =>
    if l.any fun x => x.grain = e.grain then l else l ++ [e]) []
  let sole := shared.filter fun e => refCount e.grain.toNat = (all.filter fun x => decide (x.grain = e.grain) && x.shared).length
  (own ++ sole).foldl (fun n e => n + e.grains) 0

/-- The page that SELECT chooses (R233). -/
def queryPage (s : State) (x : Volume) (sel first : Nat) : List (BitVec 8) :=
  if sel = 0 then volumePage s x
  else if sel = 1 then statsPage s x
  else if sel = 2 then
    pageOf ((((s.lds.tenants.find? fun t => t.id = x.tenant).elim [] fun t => t.closed.reverse).take 48).flatMap periodBytes)
  else if sel = 3 then
    listPage s first (x.locks.map fun l => leBytes 8 l.lba ++ leBytes 8 l.count ++ leBytes 8 (i64 l.expiry).toNat ++
      leBytes 8 (i64 l.placed).toNat)
  else if sel = 4 then
    listPage s first ((sortBy (fun r => r.chunk * 65536 + r.snap) (s.ecp.lostList.filter fun r => r.volume = x.num)).map fun r =>
      leBytes 8 r.chunk ++ leBytes 2 r.snap ++ leBytes 1 r.mask.toNat ++ leBytes 1 r.cause ++ leBytes 4 0 ++
        leBytes 8 r.time ++ leBytes 8 r.lsn)
  else
    listPage s first ((sortBy (·.num) (listedSnaps x)).map fun p =>
      leBytes 2 p.num ++ leBytes 6 0 ++ leBytes 8 (i64 p.point).toNat ++ leBytes 8 p.cut ++ leBytes 8 (onlyGrains s p))

/-- QUERY (R233). -/
def runQuery (c : Cmd) (s : State) : State :=
  match volOf s (cmdVolume c) with
  | none => s
  | some x => endCmd c stSuccess 4096 0 (putOut c 2 0 (queryPage s x (cmdAt c 40 1) (cmdAt c 44 4)) s)

/-! ## Admin opcodes (R238 to R241) -/

/-- Endpoint of an admin command. -/
def cmdEp (c : Cmd) : Nat := match c.q with | .ring ep _ => ep | .channel _ => 0

/-- CREATE_QUEUE (R209, R238). -/
def runCreateQueue (c : Cmd) (s : State) : State :=
  let ep := cmdEp c
  let n := cmdAt c 40 2
  let id : QueueId := .ring ep n
  if (queueOf s id).isSome then endCmd c stQueueState 0 0 s
  else
    let q : Queue :=
      { Queue.reset with
        id := id, sq := cmdData c, cq := cmdPi c, sizeLog2 := cmdAt c 42 1, coalCount := cmdAt c 43 1,
        coalTime := cmdAt c 44 1, held := epHeld (epOf s ep) }
    endCmd c stSuccess 0 0 (record 0x0505 queueSrc [ep, n, 0] { s with dcq.queues := s.dcq.queues ++ [q] })

/-- End every ready, unfetched tag of a queue with a status. -/
def endReady (id : QueueId) (status : Nat) (s : State) : State :=
  match queueOf s id with
  | none => s
  | some q =>
    ((List.range 32).filter fun t => (q.tags.getD t Tag.reset).st = .ready).foldl (fun s t => finish id t status 0 0 s) s

/-- DELETE_QUEUE: ready tags complete ABORTED, and the command completes when every tag is free (R238). -/
def runDeleteQueue (c : Cmd) (s : State) : State :=
  let id : QueueId := .ring (cmdEp c) (cmdAt c 40 2)
  match queueOf s id with
  | none => endCmd c stQueueState 0 0 s
  | some q =>
    if q.st = .deleting ∨ q.closer.isSome then endCmd c stQueueState 0 0 s
    else
      let s := setCmdState c (fun c => { c with st := .begun }) s
      let s := endReady id stAborted (modQueue id (fun q => { q with st := .deleting }) s)
      settleQueue id (modQueue id (fun q => { q with closer := some c.tag }) s)

/-- RESET_QUEUE of a frozen queue (R240). -/
def runResetQueue (c : Cmd) (s : State) : State :=
  let id : QueueId := .ring (cmdEp c) (cmdAt c 40 2)
  match queueOf s id with
  | none => endCmd c stQueueState 0 0 s
  | some q =>
    if q.st = .frozen ∧ q.closer.isNone then
      settleQueue id (modQueue id (fun q => { q with closer := some c.tag })
        (setCmdState c (fun c => { c with st := .begun }) s))
    else endCmd c stQueueState 0 0 s

/-- The seed space and dedup key of a tenant's first volume with DEDUP 1; none when no key slot is free (R318, R319,
R395). -/
def openSeedSpace (tenant k m : Nat) (s : State) : Option State :=
  if (spaceOf s tenant).isSome then some s
  else
    match createDedupKey tenant s with
    | (none, _) => none
    | (some (slot, key), s) =>
      let x : SeedSpace := { SeedSpace.reset with tenant := tenant, keySlot := slot, key := key, k := k, m := m }
      some (record 0x0801 (srcId 2 1 0) [tenant] { s with red.spaces := s.red.spaces ++ [x] })

/-- CREATE_VOLUME (R238, R318, R326, R394, R525). -/
def runCreateVolume (c : Cmd) (s : State) : State :=
  if 65536 ≤ s.red.volumes.length then endCmd c stObjectLimit 0 0 s
  else
    let g := askedGeometry s c
    let fl := cmdAt c 50 1
    let tenant := cmdTenant c
    match if fl.testBit 1 then openSeedSpace tenant g.1 g.2 s else some s with
    | none => endCmd c stCapacityExhausted 0 0 s
    | some s =>
      let x : Volume :=
        { Volume.reset with
          num := cmdVolume c, tenant := tenant, size := cmdAt c 40 8, k := g.1, m := g.2, reduce := fl.testBit 0,
          dedup := fl.testBit 1, verify := fl.testBit 2 || (decide (g.2 = 3) && !s.red.archNoVerify),
          created := civilNow s }
      let s := enterTenant tenant (createTenantKeys tenant s)
      let s := { s with red.volumes := insertBy (·.num) x s.red.volumes }
      let s := noteMapChange (sendDelta [deltaVol s x false] s)
      endCmd c stSuccess 0 0 (record 0x0506 (srcId 4 0 0) [x.num] s)

/-- A job leaves the pipeline and gives back what it holds (R308, R325). -/
def abandonJob (j : Job) (s : State) : State :=
  let s := dropJob j.volume j.chunk s
  match j.hit with
  | some l => lowerRef (locGrain l) (locGrains l) s
  | none => if j.stage = .placed ∨ j.stage = .insert then releaseEntry (jobEntry j) s else s

/-- The keys and the seed space of a tenant go with its last volume (R318, R394). -/
def tenantGone (tenant : Nat) (s : State) : State :=
  if s.red.volumes.any fun x => x.tenant = tenant then s
  else
    let s := if (spaceOf s tenant).isSome then
        record 0x0801 (srcId 2 1 0) [tenant]
          (deleteDedupKey tenant { s with red.spaces := s.red.spaces.filter fun x => x.tenant ≠ tenant })
      else s
    destroyTenantKeys tenant s

/-- The entries of a volume that were to be copied go; no count holds them (R333). -/
def dropCopies (v : Nat) (s : State) : State :=
  (s.red.copies.filter fun k => k.1 = v).foldl (fun s k =>
    match (volOf s v).bind fun x => x.table.find? fun t => t.1 = k.2 / 512 with
    | some t => modPair t.2 (fun p => { p with entries := p.entries.filter fun e => e.chunk ≠ k.2 }) s
    | none => s) { s with red.copies := s.red.copies.filter fun k => k.1 ≠ v }

/-- A volume goes with its snapshots, its frames and its jobs (R238, R332). -/
def deleteVolume (x : Volume) (s : State) : State :=
  let s := (s.wlg.jobs.filter fun j => j.volume = x.num).foldl (fun s j => abandonJob j s) s
  let s := { s with wlg.frames := s.wlg.frames.filter fun f => f.volume ≠ x.num }
  let s := dropCopies x.num s
  let s := dropPairs { s with red.volumes := s.red.volumes.filter fun y => y.num ≠ x.num }
  let s := { s with ecp.lostList := s.ecp.lostList.filter fun r => r.volume ≠ x.num }
  let s := noteMapChange (sendDelta [deltaVol s x true] s)
  rebudget (tenantGone x.tenant (record 0x0507 (srcId 4 0 0) [x.num] s))

/-- DELETE_VOLUME (R238, R339). -/
def runDeleteVolume (c : Cmd) (s : State) : State :=
  match volOf s (cmdVolume c) with
  | none => s
  | some x => endCmd c stSuccess 0 0 (deleteVolume x s)

/-- SET_PERIOD (R129, R238). -/
def runSetPeriod (c : Cmd) (s : State) : State :=
  endCmd c stSuccess 0 0
    (setPeriod (cmdTenant c) { kind := cmdAt c 40 1, length := cmdAt c 44 4, origin := cmdTime c 48 } s)

/-- SET_TIME, as a write of LDS_CIVIL_SET (R122, R238). -/
def runSetTime (c : Cmd) (s : State) : State :=
  let (ok, s) := setCivil (cmdTime c 40) s
  endCmd c (if ok then stSuccess else stForwardUnauthorised) 0 0 s

/-- POWER_HINT: only the parts that MASK selects take effect (R241, R242). -/
def runPowerHint (c : Cmd) (s : State) : State :=
  let m := cmdAt c 48 1
  let t := cmdTime c 40
  let s := if m.testBit 0 then { s with dcq.hintTime := if t = 0 ∨ t ≤ civilNow s then none else some t } else s
  let s := if m.testBit 1 then { s with pwr.consent := decide (cmdAt c 49 1 = 1) } else s
  let s := if m.testBit 2 then { s with pwr.guardMin := cmdAt c 50 1 } else s
  let s := if m.testBit 3 then { s with pwr.thresholdMin := cmdAt c 52 2 } else s
  let s := if m.testBit 4 then { s with pwr.idleNow := true } else s
  endCmd c stSuccess 0 0 s

/-- ASYNC_EVENT waits, or completes with the oldest event that queued (R238, R239). -/
def runAsync (c : Cmd) (s : State) : State :=
  match s.dcq.events with
  | [] => setCmdState c (fun c => { c with st := .waiting }) { s with dcq.async := s.dcq.async ++ [(c.q, c.tag)] }
  | e :: t =>
    finishWith c.q c.tag stSuccess (w32 (e.code % 65536 + 65536 * (e.source % 65536))) (join64 e.p1 e.p0) false
      (decide (t ≠ [])) { s with dcq.events := t }

/-- PWR_PS_LAT (R102). -/
def psLatWord : BitVec 32 := 0x25812C05

/-- QUERY_DEVICE (R238). -/
def runQueryDevice (c : Cmd) (s : State) : State :=
  let ws := [glbIdent, lo32 Config.serial, hi32 Config.serial, glbModeWord s, glbReadyWord s, cfgStatusWord s, psLatWord]
  endCmd c stSuccess 0 0 (putOut c 2 0 (pageOf (ws.flatMap fun w => leBytes 4 w.toNat)) s)

/-- The effect of a command that has passed its checks. -/
def runCmd (c : Cmd) (media : List StoredRead) (s : State) : State :=
  match cmdOpcode c with
  | 0x01 => runRead c media s
  | 0x02 => reserveOrHold c s
  | 0x03 => runFlush c s
  | 0x04 => runDiscard c s
  | 0x05 => runHint c s
  | 0x06 => runFixity c media s
  | 0x07 => runRetain c s
  | 0x08 => runSnapshot c s
  | 0x09 => runClone c s
  | 0x0A => runSnapDelete c s
  | 0x0B => runQuery c s
  | 0x81 => runCreateQueue c s
  | 0x82 => runDeleteQueue c s
  | 0x83 => runResetQueue c s
  | 0x84 => runCreateVolume c s
  | 0x85 => runDeleteVolume c s
  | 0x86 => runSetPeriod c s
  | 0x87 => runSetTime c s
  | 0x88 => runPowerHint c s
  | 0x89 => runAsync c s
  | 0x8A => runQueryDevice c s
  | _ => s

/-! ## Running a fetched command (R223, R236) -/

/-- A command for a volume of the peer, or any that R236 forwards while MODE is MAINTENANCE, goes to the peer; write data
moves on this side (R33, R38, R296). -/
def forwardCmd (c : Cmd) (s : State) : State :=
  let write := decide (cmdOpcode c = 0x02)
  let s := setCmdState c (fun c => { c with forwarded := true, st := if write then .transfer else .begun }) s
  let s := xhlSend 0x0301 false false (queueArgs c.q ++ [c.tag, c.gen, 0])
    ((List.range 16).flatMap fun i => leBytes 4 (cmdWord c i).toNat) s
  if write then readBuffers c s else s

/-- Checks 5 to 10 and the effect, on the head that executes the command. -/
def ownerRun (c : Cmd) (tenant : Option Nat) (media : List StoredRead) (s : State) : State :=
  let k := laterChecks s c tenant
  if k ≠ 0 then
    endCmd c k 0 0 (if k = stRetained then record 0x080A (srcId 4 0 0) [cmdVolume c] s else s)
  else if forwards (cmdOpcode c) && s.xhl.moving.contains (cmdVolume c) then
    endCmd c stFailoverRetry (w32 (movingDelay s)) 0 s
  else runCmd c media (setCmdState c (fun c => { c with st := .begun }) s)

/-- A failed read of host memory: record 0x0407 with the address; the codes of its error kinds are open (R197). -/
def recordTransfer (src : Nat) (addr : BitVec 64) (s : State) : State :=
  let (k, s) := takeFree s
  record 0x0407 src [addr.toNat, addr.toNat / 2 ^ 32, k.toNat] s

/-- The rest of a command's start once its page list `ps` is at hand (empty with DLIST 0): the list is checked, then the command runs
here or is forwarded to the peer. -/
def startListed (c : Cmd) (ps : List (BitVec 64)) (media : List StoredRead) (s : State) : State :=
  if dlist c && !pagesOk s c ps then endCmd c stInvalidField 0 0 s
  else
    let c := { c with plist := ps }
    let s := setCmdState c (fun x => { x with plist := ps }) s
    if forwards (cmdOpcode c) && !s.xhl.moving.contains (cmdVolume c) &&
        (decide (s.glb.mode = .maintenance) || !owns s (cmdVolume c)) then forwardCmd c s
    else ownerRun c (chanTenant s c.q) media s

/-- Start a fetched command: the checks in their order; a page list in host memory is asked for, and the command goes on when it has
arrived (R218, R223). -/
def startCmd (c : Cmd) (media : List StoredRead) (s : State) : State :=
  let k := firstChecks s c
  if k ≠ 0 then endCmd c k 0 0 s
  else if !dlist c then startListed c [] media s
  else
    match lzAddr s c (cmdData c) with
    | some a => startListed c (pageList s c a) media s
    | none => listReadReq (cmdEp c) c (cmdData c) (8 * cmdCount c) (setCmdState c (fun c => { c with st := .listing }) s)

/-- What a command fetched now for its volume covers: the writes admitted so far, of a SNAPSHOT those of the volume alone, and of a
DISCARD the chunks it may clear (R227, R334, R342). -/
def bindCmd (s : State) (c : Cmd) : Cmd :=
  let x := volOf s (cmdVolume c)
  { c with
    fetchedAt := now s
    fetchCivil := civilNow s
    cover := if cmdOpcode c = 0x08 then x.elim 0 (volumeLsn s) else s.wlg.lsn
    chunks := if cmdOpcode c = 0x04 then x.elim [] (discardable s c) else [] }

/-- The tag of a fetched command, and the place of its queue in the rotation of the channels (R214, R258). -/
def tagFetched (q : QueueId) (tag : Nat) (s : State) : State :=
  let t (x : Tag) : Tag := { x with st := .fetched, asked := false }
  match q with
  | .ring _ _ => modQueue q (fun x => { x with tags := x.tags.modify tag t }) s
  | .channel n => modQueue q (fun x => { x with lastFetched := tag, tags := x.tags.modify tag t }) { s with dcq.lastChan := n }

/-- Fetch the command of a ready tag (R214): the tag is fetched, the command joins the list, and the answered read of its slot makes
room for others. -/
def fetchCmd (q : QueueId) (tag : Nat) (words : List (BitVec 32)) (s : State) : Cmd × State :=
  let gen := ((queueOf s q).elim Tag.reset fun x => x.tags.getD tag Tag.reset).gen
  let c := bindCmd s { Cmd.reset with q := q, tag := tag, gen := gen, words := words, seq := s.dcq.seq, bind := bindGen s }
  (c, readsDone q tag (tagFetched q tag { s with dcq.cmds := s.dcq.cmds ++ [c], dcq.seq := s.dcq.seq + 1 }))

/-- The words of the command of a tag: those read from its ring slot, or those its SEND delivered (R214, R258). -/
def slotWords (s : State) (q : QueueId) (tag : Nat) (words : List (BitVec 32)) : List (BitVec 32) :=
  match q with
  | .ring _ _ => words
  | .channel _ => (((queueOf s q).bind fun x => x.sent.find? fun t => t.1 = tag).map (·.2)).getD []

/-- An abort of the tag came before its fetch (R215). -/
def abortWaits (s : State) (q : QueueId) (tag : Nat) : Bool :=
  ((queueOf s q).elim Tag.reset fun x => x.tags.getD tag Tag.reset).abort

/-- The page list of a command has arrived: its reads are answered, and the command goes on (R218). -/
def listArrived (ops : Nat → Bool) (q : QueueId) (tag : Nat) (ps : List (BitVec 64)) (media : List StoredRead) (s : State) : State :=
  match cmdOf s q tag with
  | some c =>
    if alive s && decide (c.st = .listing) && ops (cmdOpcode c) then
      startListed c ps media (setCmdState c (fun c => { c with st := .started }) (readsDone q tag s))
    else s
  | none => s

/-- A command is fetched and, unless an abort was waiting (R215) or FENCE keeps it back (R288), started. `ops` are the
opcodes whose row this is; a word of another row's opcode is not this event. Of a command already fetched the event is the arrival of
its page list. -/
def fetched (ops : Nat → Bool) (q : QueueId) (tag : Nat) (words : List (BitVec 32)) (plist : Option (List (BitVec 64)))
    (media : List StoredRead) (s : State) : Host.Outcome State Fault Refusal :=
  let words := slotWords s q tag words
  if fetchable s q tag && ops (fld (words.getD 0 0) 0 8) then
    let abort := abortWaits s q tag
    let (c, s) := fetchCmd q tag words s
    if abort then .next (finish q tag stAborted 0 0 s)
    else if mayStart s c then .next (startCmd c media s)
    else .next s
  else
    match plist with
    | some ps => .next (listArrived ops q tag ps media s)
    | none => .next s

/-- READ (R225), or the arrival of its page list (R218); also the fetch of a command whose opcode no row has, which fails check 2. -/
def execRead (q : QueueId) (tag : Nat) (words : List (BitVec 32)) (plist : Option (List (BitVec 64)))
    (media : List StoredRead) (s : State) : Host.Outcome State Fault Refusal :=
  fetched (fun op => decide (op = 0x01) || !(ioOpcode op || adminOpcode op)) q tag words plist media s

/-- WRITE (R226), or the arrival of its page list (R218). -/
def execWrite (q : QueueId) (tag : Nat) (words : List (BitVec 32)) (plist : Option (List (BitVec 64))) (s : State) :
    Host.Outcome State Fault Refusal := fetched (fun op => op = 0x02) q tag words plist [] s

/-- FLUSH (R227). -/
def execFlush (q : QueueId) (tag : Nat) (words : List (BitVec 32)) (s : State) : Host.Outcome State Fault Refusal :=
  fetched (fun op => op = 0x03) q tag words none [] s

/-- DISCARD (R342). -/
def execDiscard (q : QueueId) (tag : Nat) (words : List (BitVec 32)) (s : State) : Host.Outcome State Fault Refusal :=
  fetched (fun op => op = 0x04) q tag words none [] s

/-- RASTER_HINT (R232). -/
def execRasterHint (q : QueueId) (tag : Nat) (words : List (BitVec 32)) (s : State) : Host.Outcome State Fault Refusal :=
  fetched (fun op => op = 0x05) q tag words none [] s

/-- FIXITY (R231). -/
def execFixity (q : QueueId) (tag : Nat) (words : List (BitVec 32)) (media : List StoredRead) (s : State) :
    Host.Outcome State Fault Refusal := fetched (fun op => op = 0x06) q tag words none media s

/-- RETAIN (R230). -/
def execRetain (q : QueueId) (tag : Nat) (words : List (BitVec 32)) (s : State) : Host.Outcome State Fault Refusal :=
  fetched (fun op => op = 0x07) q tag words none [] s

/-- SNAPSHOT (R334). -/
def execSnapshot (q : QueueId) (tag : Nat) (words : List (BitVec 32)) (s : State) : Host.Outcome State Fault Refusal :=
  fetched (fun op => op = 0x08) q tag words none [] s

/-- CLONE (R337). -/
def execClone (q : QueueId) (tag : Nat) (words : List (BitVec 32)) (s : State) : Host.Outcome State Fault Refusal :=
  fetched (fun op => op = 0x09) q tag words none [] s

/-- SNAP_DELETE (R336). -/
def execSnapDelete (q : QueueId) (tag : Nat) (words : List (BitVec 32)) (s : State) : Host.Outcome State Fault Refusal :=
  fetched (fun op => op = 0x0A) q tag words none [] s

/-- QUERY (R233). -/
def execQuery (q : QueueId) (tag : Nat) (words : List (BitVec 32)) (s : State) : Host.Outcome State Fault Refusal :=
  fetched (fun op => op = 0x0B) q tag words none [] s

/-- CREATE_QUEUE (R238). -/
def execCreateQueue (q : QueueId) (tag : Nat) (words : List (BitVec 32)) (s : State) : Host.Outcome State Fault Refusal :=
  fetched (fun op => op = 0x81) q tag words none [] s

/-- DELETE_QUEUE (R238). -/
def execDeleteQueue (q : QueueId) (tag : Nat) (words : List (BitVec 32)) (s : State) : Host.Outcome State Fault Refusal :=
  fetched (fun op => op = 0x82) q tag words none [] s

/-- RESET_QUEUE (R240). -/
def execResetQueue (q : QueueId) (tag : Nat) (words : List (BitVec 32)) (s : State) : Host.Outcome State Fault Refusal :=
  fetched (fun op => op = 0x83) q tag words none [] s

/-- CREATE_VOLUME (R238). -/
def execCreateVolume (q : QueueId) (tag : Nat) (words : List (BitVec 32)) (s : State) : Host.Outcome State Fault Refusal :=
  fetched (fun op => op = 0x84) q tag words none [] s

/-- DELETE_VOLUME (R238). -/
def execDeleteVolume (q : QueueId) (tag : Nat) (words : List (BitVec 32)) (s : State) : Host.Outcome State Fault Refusal :=
  fetched (fun op => op = 0x85) q tag words none [] s

/-- SET_PERIOD (R129). -/
def execSetPeriod (q : QueueId) (tag : Nat) (words : List (BitVec 32)) (s : State) : Host.Outcome State Fault Refusal :=
  fetched (fun op => op = 0x86) q tag words none [] s

/-- SET_TIME (R238). -/
def execSetTime (q : QueueId) (tag : Nat) (words : List (BitVec 32)) (s : State) : Host.Outcome State Fault Refusal :=
  fetched (fun op => op = 0x87) q tag words none [] s

/-- POWER_HINT (R241). -/
def execPowerHint (q : QueueId) (tag : Nat) (words : List (BitVec 32)) (s : State) : Host.Outcome State Fault Refusal :=
  fetched (fun op => op = 0x88) q tag words none [] s

/-- A hint lapses when its time is reached (R241). -/
def execPowerHintLapse (s : State) : Host.Outcome State Fault Refusal :=
  if powered s && s.dcq.hintTime.any fun t => t ≤ civilNow s then .next { s with dcq.hintTime := none } else .next s

/-- ASYNC_EVENT (R239). -/
def execAsyncEvent (q : QueueId) (tag : Nat) (words : List (BitVec 32)) (s : State) : Host.Outcome State Fault Refusal :=
  fetched (fun op => op = 0x89) q tag words none [] s

/-- QUERY_DEVICE (R238). -/
def execQueryDevice (q : QueueId) (tag : Nat) (words : List (BitVec 32)) (s : State) : Host.Outcome State Fault Refusal :=
  fetched (fun op => op = 0x8A) q tag words none [] s

/-- A fetched command that FENCE kept back starts (R288). -/
def execFencedCommandStart (q : QueueId) (tag gen : Nat) (media : List StoredRead) (s : State) : Host.Outcome State Fault Refusal :=
  match cmdOf s q tag with
  | some c => if alive s && tagMatches s q tag gen && decide (c.st = .started) && mayStart s c then .next (startCmd c media s) else .next s
  | none => .next s

/-! ## Doorbells (R213 to R216, R235) -/

/-- An ignored doorbell write (R216). -/
def doorbellIgnored (ep : Nat) (s : State) : State :=
  record 0x0502 queueSrc [] { s with dcq.adm := s.dcq.adm.modify ep fun a => { a with dbErr := true } }

/-- Make one tag ready (R214); on a frozen queue it completes ABORTED_QUEUE_FROZEN (R240). -/
def makeReady (id : QueueId) (t : Nat) (s : State) : State :=
  match queueOf s id with
  | none => s
  | some q =>
    if (q.tags.getD t Tag.reset).st = .free then
      let s := modQueue id (fun q => { q with tags := q.tags.modify t fun x => { x with st := .ready } }) (busy s)
      if q.st = .frozen then finish id t stAbortedFrozen 0 0 s else s
    else record 0x0503 queueSrc [] s

/-- Drop a write that has not been admitted: its reservation or its place in the hold, and the reads issued for it (R235, R302). -/
def dropWrite (c : Cmd) (s : State) : State :=
  let s := { s with wlg.holds := s.wlg.holds.filter fun h => !(decide (h.q = c.q) && decide (h.tag = c.tag) && (h.remote == c.remote)) }
  readsDropped c.q c.tag (noteLogFull (unreserve c.q c.tag c.remote s))

/-- The owner of a command that was forwarded is told of its abort (R235, R236). -/
def abortSentOn (c : Cmd) (s : State) : State :=
  if c.forwarded then xhlSend 0x0301 false false (queueArgs c.q ++ [c.tag, c.gen, 1]) [] s else s

/-- A FIXITY that ends early leaves the digest service, its result cleared (R235). -/
def leaveDigest (c : Cmd) (s : State) : State :=
  if s.dig.cmd = some (c.q, c.tag) && s.dig.remote == c.remote then digIdle 0 s else s

/-- An abort reaches the command of a tag (R215, R235). -/
def abortTag (id : QueueId) (t : Nat) (s : State) : State :=
  match queueOf s id with
  | none => s
  | some q =>
    match (q.tags.getD t Tag.reset).st with
    | .free => s
    | .ready => modQueue id (fun q => { q with tags := q.tags.modify t fun x => { x with abort := true } }) s
    | .fetched =>
      match cmdOf s id t with
      | none => s
      | some c =>
        let op := cmdOpcode c
        if c.st = .started then finish id t stAborted 0 0 s
        else if c.st = .listing then finish id t stAborted 0 0 (readsDropped id t s)
        else if op = 0x02 then
          if c.st = .admitted then s else finish id t stAborted 0 0 (abortSentOn c (dropWrite c s))
        else if op = 0x06 then finish id t stAborted 0 0 (abortSentOn c (leaveDigest c s))
        else if op = 0x01 ∨ op = 0x03 ∨ op = 0x89 then finish id t stAborted 0 0 (abortSentOn c s)
        else s

/-- Apply an operation to each set bit of a doorbell word, tag 0 first. -/
def eachBit (w : BitVec 32) (f : Nat → State → State) (s : State) : State :=
  ((List.range 32).filter (bitOf w)).foldl (fun s t => f t s) s

/-- The head takes doorbell writes: FW is set and it is not in FAILSTOP (R141, R216, R656). -/
def doorbellsTaken (s : State) : Bool := hostWriteOk s 0x05

/-- The doorbells of a queue are taken: it exists, and the firmware runs (R141, R216). -/
def doorOpen (s : State) (ep q : Nat) : Bool := (queueOf s (.ring ep q)).isSome && s.glb.fw

/-- A write of DB_READY (R214, R216): the tags become ready, and their slots are read as far as may be. -/
def doorReady (ep q : Nat) (w : BitVec 32) (s : State) : State :=
  match queueOf s (.ring ep q) with
  | some x =>
    if s.glb.fw && decide (x.st ≠ .deleting) then issueReads ep (eachBit w (makeReady (.ring ep q)) s) else doorbellIgnored ep s
  | none => doorbellIgnored ep s

/-- A write of DB_ABORT (R216, R235). -/
def doorAbort (ep q : Nat) (w : BitVec 32) (s : State) : State :=
  if doorOpen s ep q then eachBit w (abortTag (.ring ep q)) s else doorbellIgnored ep s

/-- A write of DB_CQ_HEAD (R216). -/
def doorHead (ep q : Nat) (w : BitVec 32) (s : State) : State :=
  match queueOf s (.ring ep q) with
  | none => doorbellIgnored ep s
  | some x =>
    let h := fld w 0 12
    let freed := (h + ringSize x - x.head) % ringSize x
    if !s.glb.fw || decide (ringSize x ≤ h) || decide (x.unread < freed) then doorbellIgnored ep s
    else releaseQueue (.ring ep q) (modQueue (.ring ep q) (fun x => { x with head := h, unread := x.unread - freed }) s)

/-- The low-half write of DB_READY_ABORT applies ready bits and the staged abort bits in one cycle (R213, R215). A tag made
ready by it is fetched first and then aborted. -/
def doorReadyAbort (ep q : Nat) (lo : BitVec 32) (s : State) : State :=
  let off := 0x1000000 + 0x1000 * q + 0x10
  let hi := stagedHi s ep off 0
  let s := dropStage ep off s
  if doorOpen s ep q then doorAbort ep q hi (if lo = 0 then s else doorReady ep q lo s) else doorbellIgnored ep s

/-- A write of a doorbell through its endpoint; one in FAILSTOP is discarded (R203, R656). -/
def doorbell (ep q reg : Nat) (f : State → State) (s : State) : State :=
  barWrite ep (0x1000000 + 0x1000 * q + reg) (fun s => if s.glb.mode = .failstop then s else f s) s

/-- DB_READY (R214). -/
def execDbReady (ep q : Nat) (w : BitVec 32) (s : State) : Host.Outcome State Fault Refusal :=
  .next (doorbell ep q 0 (doorReady ep q w) s)

/-- DB_ABORT (R235). -/
def execDbAbort (ep q : Nat) (w : BitVec 32) (s : State) : Host.Outcome State Fault Refusal :=
  .next (doorbell ep q 4 (doorAbort ep q w) s)

/-- DB_CQ_HEAD (R216). -/
def execDbCqHead (ep q : Nat) (w : BitVec 32) (s : State) : Host.Outcome State Fault Refusal :=
  .next (doorbell ep q 8 (doorHead ep q w) s)

/-- DB_READY_ABORT (R215). -/
def execDbReadyAbort (ep q : Nat) (lo : BitVec 32) (s : State) : Host.Outcome State Fault Refusal :=
  .next (doorbell ep q 0x10 (doorReadyAbort ep q lo) s)

/-! ## Coalescing, freezing, the admin queue (R197, R222, R240, R243, R245) -/

/-- COAL_TIME has passed since the first unsignalled completion (R222). -/
def execCoalescingTimeout (ep q : Nat) (s : State) : Host.Outcome State Fault Refusal :=
  match queueOf s (.ring ep q) with
  | some x =>
    if powered s && decide (0 < x.unsignalled) && decide (x.coalTime ≠ 0) && decide (x.unsigAt + 1000 * x.coalTime ≤ now s) then
      .next (raiseVec ep q (modQueue (.ring ep q) (fun x => { x with unsignalled := 0 }) s))
    else .next s
  | none => .next s

/-- The record and the device event of a queue that freezes (R240). The codes of the causes are open. An event of the kind is raised even
where its record merges into an open one. -/
def frozenEvent (ep n : Nat) (s : State) : State :=
  let (k, s) := takeFree s
  let ps := paramWords [ep, n, k.toNat]
  asyncEvent 0x0501 queueSrc ps (recordCore 0x0501 queueSrc ps false (severityOf 0x0501 false 0) s).2

/-- A queue in service freezes: record 0x0501 and its event, its slot reads are dropped, and its ready tags complete
ABORTED_QUEUE_FROZEN (R240). One that is being deleted, or is frozen, stays so. -/
def freezeQueue (ep n : Nat) (s : State) : State :=
  let id : QueueId := .ring ep n
  if (queueOf s id).any fun q => q.st = .active then
    let s := modQueue id (fun q => { q with st := .frozen }) s
    let s := dropReads ep (fun r => decide (r.q = id) && decide (r.kind = 0)) s
    endReady id stAbortedFrozen (frozenEvent ep n s)
  else s

/-- AER's report of a read that failed: a poisoned or a missing completion; an answer of Unsupported Request or Completer Abort is
its completer's to report (R196, R197). -/
def aerTransfer (ep : Nat) (kind : ReadError) (s : State) : State :=
  match kind with
  | .poisoned => aerUncorrectable ep 12 false s
  | .timeout => aerUncorrectable ep 14 false s
  | .unsupported | .completerAbort => s

/-- A read that the DMA engine issued, or its write of a completion record, fails (R197, R240): a failed read of a command's data or
page list ends it TRANSFER_ERROR; a failed fetch freezes its queue, and so does a failed completion write. -/
def execTransferError (ep n : Nat) (what : DmaError) (addr : BitVec 64) (s : State) : Host.Outcome State Fault Refusal :=
  let id : QueueId := .ring ep n
  match queueOf s id with
  | none => .next s
  | some q =>
    if !alive s then .next s
    else
      let failed := aerTransfer ep what.error (recordTransfer (srcId 1 0 ep) addr s)
      match what.what with
      | .data tag =>
        match cmdOf s id tag with
        | some c =>
          if c.st = .transfer ∨ c.st = .listing then .next (finish id tag stTransferError 0 0 (abortSentOn c (dropWrite c failed)))
          else .next s
        | none => .next s
      | .fetch tag =>
        let t := q.tags.getD tag Tag.reset
        if decide (t.st = .ready) && t.asked && decide (q.st = .active) then .next (freezeQueue ep n failed) else .next s
      | .completion => .next (settleQueue id (freezeQueue ep n (modQueue id (fun q => { q with ringBad := true }) s)))

/-- A write of DCQ_ADM_CTL (R243, R245). -/
def admCtlWrite (ep : Nat) (w : BitVec 32) (s : State) : State :=
  let a := s.dcq.adm.getD ep AdminCtl.reset
  let id : QueueId := .ring ep 0
  let size := fld w 8 4
  if bitOf w 0 then
    if a.sq.toNat % 2048 ≠ 0 ∨ a.cq.toNat % 4096 ≠ 0 ∨ size < 5 ∨ 12 < size then
      { s with dcq.adm := s.dcq.adm.modify ep fun a => { a with ctxErr := true } }
    else if a.enable then { s with dcq.adm := s.dcq.adm.modify ep fun a => { a with sizeLog2 := size } }
    else
      let q : Queue := { Queue.reset with id := id, sq := a.sq, cq := a.cq, sizeLog2 := size, held := epHeld (epOf s ep) }
      { s with dcq.adm := s.dcq.adm.modify ep (fun a => { a with enable := true, sizeLog2 := size }),
               dcq.queues := s.dcq.queues.filter (fun x => x.id ≠ id) ++ [q] }
  else
    let s := { s with dcq.adm := s.dcq.adm.modify ep fun a => { a with enable := false, sizeLog2 := size } }
    let orphan (x : Queue) : Queue :=
      match x.id with
      | .ring e _ => if e = ep ∧ x.closer.isSome then { x with closer := some 32 } else x
      | .channel _ => x
    let s := dropReads ep (fun r => r.q = id) s
    { s with dcq.queues := (s.dcq.queues.filter fun x => x.id ≠ id).map orphan,
             dcq.cmds := s.dcq.cmds.filter (fun c => c.q ≠ id || c.remote),
             dcq.async := s.dcq.async.filter fun x => x.1 ≠ id }

/-- ENABLE written 1 (R243). -/
def execAdminQueueEnable (ep : Nat) (w : BitVec 32) (s : State) : Host.Outcome State Fault Refusal :=
  .next (regWrite ep 0x50010 (admCtlWrite ep (w ||| 1)) s)

/-- ENABLE written 0 (R243). -/
def execAdminQueueDisable (ep : Nat) (w : BitVec 32) (s : State) : Host.Outcome State Fault Refusal :=
  .next (regWrite ep 0x50010 (admCtlWrite ep (w &&& 0xFFFFFFFE)) s)

/-- A host write of a DCQ register of an endpoint. -/
def dcqWrite (ep off : Nat) (w : BitVec 32) (s : State) : State :=
  if off = 0x50010 then admCtlWrite ep w s
  else if off = 0x50014 then
    { s with dcq.adm := s.dcq.adm.modify ep fun a => { a with dbErr := a.dbErr && !bitOf w 1, ctxErr := a.ctxErr && !bitOf w 2 } }
  else s

/-- The commit of DCQ_ADM_SQ or DCQ_ADM_CQ, ignored while ENABLE is 1 (R245). -/
def dcqCommit (ep off : Nat) (v : BitVec 64) (s : State) : State :=
  let set (f : AdminCtl → AdminCtl) : State :=
    { s with dcq.adm := s.dcq.adm.modify ep fun a => if a.enable then a else f a }
  if off = 0x50000 then set fun a => { a with sq := v }
  else if off = 0x50008 then set fun a => { a with cq := v }
  else s

end Sys2Proof.Machine
end

