-- ==== Sys2Proof/Machine/Lanes.lean ====
section
/-!
DEFINITION. Lanes and polarity: the remap entries of the image in force (R59, R60), and the check of the lane numbers that training
sequences carry (R62).
-/
namespace Sys2Proof.Machine

/-- The remap entry of a port, by IFACE code and port number; a port with none uses the identity map (R59). -/
def remapFor (s : State) (iface port : Nat) : Option (BitVec 96) :=
  s.img.board.remaps.find? fun e => decide (e.toNat % 256 = iface) && decide (e.toNat / 256 % 256 = port)

/-- Nibble `i` of the map at bit `base` of an entry. -/
def mapNibble (e : BitVec 96) (base i : Nat) : Nat := e.toNat / 2 ^ (base + 4 * i) % 16

/-- Physical TX lane that carries logical lane `l` (R59). -/
def txLane (s : State) (iface port l : Nat) : Nat := (remapFor s iface port).elim l fun e => mapNibble e 32 l

/-- Physical RX lane that carries logical lane `l` (R59). -/
def rxLane (s : State) (iface port l : Nat) : Nat := (remapFor s iface port).elim l fun e => mapNibble e 64 l

/-- Physical TX lane `i` is inverted (R59). -/
def txInverted (s : State) (iface port i : Nat) : Bool := (remapFor s iface port).any fun e => e.getLsbD (16 + i)

/-- Physical RX lane `i` is inverted (R59). -/
def rxInverted (s : State) (iface port i : Nat) : Bool := (remapFor s iface port).any fun e => e.getLsbD (24 + i)

/-- What arrives on physical RX lane `i`: the lane number of its training sequence, and whether it arrives inverted. -/
def laneSeen (got : List (Nat × Bool)) (i : Nat) : Nat × Bool := got.getD i (i, false)

/-- Every one of a port's `n` lanes locks: undoing the inversion that the entry declares gives the sequence upright (R59). -/
def lanesLock (s : State) (iface port n : Nat) (got : List (Nat × Bool)) : Bool :=
  (List.range n).all fun i => (laneSeen got i).2 == rxInverted s iface port i

/-- The lowest logical lane of a port's `n` whose physical RX lane receives another lane number than the RX_MAP expects (R62). -/
def wrongLane (s : State) (iface port n : Nat) (got : List (Nat × Bool)) : Option Nat :=
  (List.range n).find? fun l => decide ((laneSeen got (rxLane s iface port l)).1 ≠ l)

/-- Logical lanes of sub-port `sub` of a NET port in a mode: all four, a pair, or one (R247). -/
def subPortLanes (mode sub : Nat) : List Nat :=
  match mode with
  | 1 => if sub = 0 then [0, 1, 2, 3] else []
  | 2 => if sub < 2 then [2 * sub, 2 * sub + 1] else []
  | 3 => if sub < 4 then [sub] else []
  | _ => []

/-- Physical RX lanes of a sub-port (R59, R60, R247). -/
def subPortRx (s : State) (port mode sub : Nat) : List Nat := (subPortLanes mode sub).map (rxLane s 1 port)

end Sys2Proof.Machine
end

