-- ==== Sys2Proof/Machine/Layout.lean ====
section
/-!
DEFINITION. Layout states of the module slots, and what a slot's loss or return means for stripes: unreadable members,
rebuild targets, critical stripes, the distributed spare, and strips written again elsewhere (R502, R534 to R541).
-/
namespace Sys2Proof.Machine

/-- Source of the ledger engine (R15). -/
def ledgerSrc : Nat := srcId 4 1 0

/-- Source of the die scheduler (R15). -/
def schedSrc : Nat := srcId 5 3 0

/-- Source of the erasure coder (R15). -/
def erasureSrc : Nat := srcId 3 3 0

/-- Layout entry of a slot. -/
def slotOf (s : State) (n : Nat) : Slot := s.ecp.slots.getD n Slot.reset

/-- Change the layout entry of a slot. -/
def modSlot (n : Nat) (f : Slot → Slot) (s : State) : State := { s with ecp.slots := s.ecp.slots.modify n f }

/-- Record of a slot's layout state (R575). -/
def deltaLayout (s : State) (n : Nat) : DeltaRec :=
  let x := slotOf s n
  { kind := 12, delete := false, volume := 0, snap := 0, key := BitVec.ofNat 64 n, lsn := 0,
    value := leBytes 8 (modCode x.st) ++ leBytes 8 x.serial.toNat }

/-- A slot changes state: record 0x0C02 and the delta of KIND 12. A DEGRADED slot keeps its former state and the time; an
ABSENT one keeps no serial (R534, R574). -/
def setLayout (n : Nat) (st : ModState) (s : State) : State :=
  if (slotOf s n).st = st then s
  else
    let s := modSlot n (fun x =>
      { x with st := st
               former := if st = .degraded then x.st else x.former
               since := if st = .degraded then now s else x.since
               serial := if st = .absent then 0 else x.serial
               joinOk := if st = .joining then x.joinOk else false
               erased := decide (st ≠ .absent) && decide (st ≠ .joining) && x.erased }) s
    sendDelta [deltaLayout s n] (record 0x0C02 maintSrc [] s)

/-! ## Unreadable members (R538 to R541) -/

/-- Positions of a stripe whose members lie on a slot. -/
def positionsOn (x : Stripe) (n : Nat) : List Nat :=
  (List.range x.members.length).filter fun p => (x.members.getD p Member.reset).slot = n

/-- A stripe with no readable redundant strip left (R541). -/
def noRedundancy (x : Stripe) : Bool := decide (x.st ≠ .freed) && decide (x.m ≤ x.unreadable.length)

/-- Change the unreadable positions of every stripe; one that has no readable redundant strip any more writes record
0x0C04, and CRITICAL follows (R541). -/
def mapUnreadable (f : Stripe → List Nat) (s : State) : State :=
  let g (x : Stripe) : Stripe := { x with unreadable := f x }
  let fresh := s.ecp.stripes.filter fun x => !noRedundancy x && noRedundancy (g x)
  let s := { s with ecp.stripes := s.ecp.stripes.map g }
  let s := fresh.foldl (fun s _ => record 0x0C04 erasureSrc [] s) s
  { s with ecp.critical := s.ecp.stripes.any noRedundancy }

/-- The strips on a slot cannot be read. -/
def slotUnreadable (n : Nat) (s : State) : State :=
  mapUnreadable (fun x => x.unreadable ++ ((positionsOn x n).filter fun p => !x.unreadable.contains p)) s

/-- The strips on a slot can be read again (R535). -/
def slotReadable (n : Nat) (s : State) : State :=
  mapUnreadable (fun x => x.unreadable.filter fun p => !(positionsOn x n).contains p) s

/-! ## Rebuild targets (R536, R538) -/

/-- Add rebuild targets: strips of programmed stripes that a test picks out; ECP_REBUILD_LEFT counts them. -/
def addTargets (pick : Stripe → Nat → Bool) (s : State) : State :=
  let more := s.ecp.stripes.flatMap fun x =>
    if x.st = .closed ∨ x.st = .complete then
      ((List.range x.members.length).filter fun p => pick x p && !s.ecp.rebuildTargets.contains (x.serial, p)).map
        fun p => (x.serial, p)
    else []
  let s := { s with ecp.rebuildTargets := s.ecp.rebuildTargets ++ more,
                    ecp.rebuildLeft := (s.ecp.rebuildTargets ++ more).length }
  if more.isEmpty then s else requestActivity .rebuild s

/-- A slot becomes FAILED: its strips are rebuild targets and REBUILD is requested (R534, R538). -/
def failSlot (n : Nat) (s : State) : State :=
  let s := slotUnreadable n (setLayout n .failed s)
  addTargets (fun x p => (positionsOn x n).contains p && x.unreadable.contains p) s

/-- A die is retired: record 0x0B09, and its strips are rebuild targets while its module stays MEMBER (R505, R536). -/
def retireDie (slot die : Nat) (s : State) : State :=
  if s.mmg.retiredDies.contains (slot, die) then s
  else
    let s := record 0x0B09 ledgerSrc [] { s with mmg.retiredDies := s.mmg.retiredDies ++ [(slot, die)] }
    addTargets (fun x p => decide ((x.members.getD p Member.reset).slot = slot) &&
      decide ((x.members.getD p Member.reset).die = die)) s

/-! ## The distributed spare (R537) -/

/-- Spare of a slot in strips: SPARE_PCT percent of its blocks that are not RETIRED. -/
def spareStrips (s : State) (n : Nat) : Nat :=
  ((s.mmg.ledger.filter fun l => decide (l.slot = n) && decide (l.st ≠ .retired)).length * s.ecp.sparePct / 100) *
    slotsPerBlock s n

/-- Live strips on a slot. -/
def liveStrips (s : State) (n : Nat) : Nat :=
  s.ecp.stripes.foldl (fun c x => if x.st = .freed then c else c + (positionsOn x n).length) 0

/-- SPARE_SHORT: the spare of all MEMBER modules but the fullest falls short of the fullest one's live strips; it is
recorded and alerted when it is found. -/
def checkSpare (s : State) : State :=
  let ms := memberSlots s
  let full := ms.foldl (fun a n => max a (liveStrips s n)) 0
  let spare := match leastBy (fun n => 2 ^ 64 - liveStrips s n) ms with
    | some n => (ms.filter (· ≠ n)).foldl (fun a n => a + spareStrips s n) 0
    | none => 0
  if spare < full then
    if s.ecp.spareShort then s else recordAlert 0x0C0B erasureSrc [] { s with ecp.spareShort := true }
  else { s with ecp.spareShort := false }

/-! ## Writing a strip again (R502, R538) -/

/-- A MEMBER module that holds no other member of a stripe, with a place for a strip, the one with the most FREE blocks
first; a rebuild may take the spare (R529, R537, R538). -/
def otherPlace (s : State) (x : Stripe) (pos : Nat) : Option Member :=
  let taken := ((List.range x.members.length).filter (· ≠ pos)).map fun p => (x.members.getD p Member.reset).slot
  let cand := (memberSlots s).filter fun n => !taken.contains n && (placeStrip s (decide (x.kind = 2)) n).isSome
  (leastBy (fun n => (2 ^ 40 - freeBeyondSpare s n) * 64 + (n + 48 - x.serial.toNat % 48) % 48) cand).bind
    (placeStrip s (decide (x.kind = 2)))

/-- Move the strip at a position to another member location, with `bytes` to program there when they are known; the strip
table takes the new location. Without a place the position stays, unreadable, as a rebuild target. -/
def moveStrip (w : DieWork) (serial : BitVec 64) (pos : Nat) (bytes : Option (List (BitVec 8))) (s : State) : State :=
  match stripeOf s serial with
  | none => s
  | some x =>
    match otherPlace s x pos with
    | none =>
      let s := mapUnreadable (fun y => if y.serial = serial ∧ ¬ y.unreadable.contains pos then y.unreadable ++ [pos]
        else y.unreadable) s
      addTargets (fun y p => decide (y.serial = serial) && decide (p = pos)) s
    | some m =>
      let x' := { x with members := x.members.set pos m, trailers := x.trailers.filter (· ≠ pos) }
      let s := enterStrips x' (takeSlot m (modStripe serial (fun _ => x') s))
      let s := mapUnreadable (fun y => if y.serial = serial then y.unreadable.filter (· ≠ pos) else y.unreadable) s
      match bytes with
      | some b => programStrip w x' pos b s
      | none => s

/-- Bytes of the strip at a position of a stripe whose data is still in DRAM (R532). -/
def stripData (x : Stripe) (pos : Nat) : Option (List (BitVec 8)) :=
  if x.strips.isEmpty then none
  else if pos < x.k then some (padStrip (x.strips.getD pos []))
  else some (parityStrip (pos - x.k) (x.strips.map padStrip))

/-- The stream of waypoint records leaves its present stripe: the next waypoint starts another and copies its record into the anchor
rings; one in progress is written again (R485, R486). -/
def leaveStream (s : State) : State :=
  { s with mmg.stream := { s.mmg.stream with cur := none, next := none, page := 0 }, mmg.metaStrips := 256, mmg.wpRequest := true,
           mmg.wp := s.mmg.wp.map fun w => { w with whole := false } }

/-- A member location of a stripe still under construction is lost: the strip goes elsewhere, and is programmed from its
source when the stripe has closed (R502). -/
def redoStrip (serial : BitVec 64) (pos : Nat) (s : State) : State :=
  match stripeOf s serial with
  | none => s
  | some x =>
    if x.st = .opened ∧ recordStripe s serial then leaveStream s
    else if x.st = .opened then moveStrip .hostProgram serial pos none s
    else if x.st = .closed then moveStrip (stripeWork s x) serial pos (stripData x pos) s
    else s

/-- Every strip on a slot of a stripe that is not complete, and whose trailer has not completed, is written elsewhere. -/
def redoSlot (n : Nat) (s : State) : State :=
  (s.ecp.stripes.flatMap fun x =>
    if x.st = .opened ∨ x.st = .closed then
      ((positionsOn x n).filter fun p => !x.trailers.contains p).map fun p => (x.serial, p)
    else []).foldl (fun s t => redoStrip t.1 t.2 s) s

/-! ## A module leaves or returns (R534, R535) -/

/-- A module's port goes to DOWN, or the module is removed. -/
def moduleLeaves (n : Nat) (removed : Bool) (s : State) : State :=
  match (slotOf s n).st with
  | .member | .draining => redoSlot n (slotUnreadable n (setLayout n .degraded s))
  | .drained | .joining => if removed then setLayout n .absent s else s
  | _ => s

/-- Two slots change places in everything that names them: layout entries, member locations, ledger, dies, anchor rings, zones (R535). -/
def renameSlot (a b : Nat) (s : State) : State :=
  let g (n : Nat) : Nat := if n = a then b else if n = b then a else n
  let f (m : Member) : Member := { m with slot := g m.slot }
  let (x, y) := (slotOf s a, slotOf s b)
  let s := modSlot a (fun _ => y) (modSlot b (fun _ => x) s)
  { s with
    ecp.stripes := s.ecp.stripes.map fun x => { x with members := x.members.map f }
    mmg.strips := s.mmg.strips.map fun e => { e with member := f e.member, parity := e.parity.map f }
    mmg.ledger := s.mmg.ledger.map fun l => { l with slot := g l.slot }
    mmg.retiredDies := s.mmg.retiredDies.map fun d => (g d.1, d.2)
    mmg.gcDies := s.mmg.gcDies.map fun d => (g d.1, d.2)
    mmg.wlDies := s.mmg.wlDies.map fun d => (g d.1, d.2)
    mmg.wlTargets := s.mmg.wlTargets.map fun t => (g t.1, t.2)
    mmg.zones := s.mmg.zones.map fun z => { z with slot := g z.slot }
    mmg.stream := { s.mmg.stream with rings := s.mmg.stream.rings.map fun r => (g r.1, r.2) }
    mmg.anchors := s.mmg.anchors.map fun t => (g t.1, t.2) }

/-- A slot takes a new module: whatever its former entry left becomes a rebuild target, and it joins (R534, R535). -/
def joinNew (n : Nat) (serial : BitVec 64) (s : State) : State :=
  let s := if (slotOf s n).st = .absent then s else failSlot n s
  let s := { s with mmg.ledger := s.mmg.ledger.filter fun l => l.slot ≠ n,
                    mmg.retiredDies := s.mmg.retiredDies.filter fun d => d.1 ≠ n }
  setLayout n .joining (modSlot n (fun x => { x with serial := serial, erased := false, joinOk := false, st := .absent }) s)

/-- A module with this serial enters ACTIVE in slot `n`. -/
def moduleArrives (n : Nat) (serial : BitVec 64) (s : State) : State :=
  match (List.range 48).find? fun a => decide ((slotOf s a).st ≠ .absent) && decide ((slotOf s a).serial = serial) with
  | none => joinNew n serial s
  | some a =>
    if (slotOf s a).st = .failed then joinNew n serial s
    else
      let s := if a = n then s else noteMapChange (renameSlot a n s)
      if (slotOf s n).st = .degraded then slotReadable n (setLayout n (slotOf s n).former s) else s

/-- Every block of the module in a slot has its ledger entry: its first-use erase has ended (R479). -/
def firstUseDone (s : State) (n : Nat) : Bool :=
  let i := (portOf s n).info
  decide (!i.isEmpty ∧ (s.mmg.ledger.filter fun l => l.slot = n).length = leAt i 6 2 * leAt i 36 1 * leAt i 40 4)

/-- A JOINING module whose first-use erase has ended becomes MEMBER with AUTO_JOIN or an accepted JOIN (R534). -/
def settleJoin (n : Nat) (s : State) : State :=
  if (slotOf s n).st = .joining ∧ firstUseDone s n then
    let s := modSlot n (fun x => { x with erased := true }) s
    if s.ecp.autoJoin || (slotOf s n).joinOk then setLayout n .member s else s
  else s

end Sys2Proof.Machine
end

