-- ==== Sys2Proof/Machine/LedgerOps.lean ====
section
/-!
DEFINITION. The retention ledger's arithmetic (R509 to R514): capacity, thermal age, urgency, refresh class, the next
refresh start, and the figures that the MMG registers show.
-/
namespace Sys2Proof.Machine

/-- Die count, planes and blocks of a plane of the module in a slot (R458). -/
def dieCount (s : State) (n : Nat) : Nat := leAt (portOf s n).info 6 2
def planeCount (s : State) (n : Nat) : Nat := leAt (portOf s n).info 36 1
def blockCount (s : State) (n : Nat) : Nat := leAt (portOf s n).info 40 4

/-- Temperature zone of a die (R458). -/
def dieZone (s : State) (n d : Nat) : Nat := leAt (portOf s n).info (252 + d) 1

/-- C(e) x ENDURANCE, in ms (R512). -/
def capacityNum (s : State) (e : Nat) : Int :=
  (((s.mmg.retFresh : Int) * s.mmg.endurance) - ((s.mmg.retFresh : Int) - s.mmg.retEol) * e) * 1000

/-- C(e) is below FLOOR + 2 x LEAD (R510). -/
def wornOut (s : State) (e : Nat) : Bool :=
  decide (capacityNum s e < ((s.mmg.floor + 2 * s.mmg.lead) * 1000 * s.mmg.endurance : Nat))

/-- Denominator of an urgency: LEAD in ms x ENDURANCE. -/
def urgencyDen (s : State) : Nat := s.mmg.lead * 1000 * s.mmg.endurance

/-- (M - FLOOR) x ENDURANCE in ms, no cap applied (R513). -/
def marginNum (s : State) (l : Ledger) : Int :=
  capacityNum s l.erases - ((l.age : Int) + (s.mmg.floor : Int) * 1000) * s.mmg.endurance

/-- u x urgencyDen: no more than 0.49 for a block with BER, or whose READS reach READ_DISTURB (R513). -/
def urgencyNum (s : State) (l : Ledger) : Int :=
  if l.ber || l.disturb || decide (s.mmg.readDisturb ≤ l.reads) then
    min (marginNum s l) ((urgencyDen s * 49 / 100 : Nat) : Int)
  else marginNum s l

/-- A block of an anchor ring that has been programmed reaches u = 1 (R513, R514). -/
def anchorDue (s : State) (l : Ledger) : Bool :=
  decide (l.st = .anchor) && decide (0 < l.used) && decide (urgencyNum s l ≤ urgencyDen s)

/-- Refresh class of a CLOSED block; others have no urgency (R513, R516). -/
def classOfBlock (s : State) (l : Ledger) : RefreshClass :=
  let u := 4 * urgencyNum s l
  let d : Int := urgencyDen s
  if l.st ≠ .closed then .notDue
  else if 4 * d < u then .notDue
  else if 2 * d < u then .background
  else if d < u then .elevated
  else if 0 < u then .preempt
  else .overdue

/-- Last sample of a zone of a module. -/
def zoneOf (s : State) (slot zone : Nat) : Option ZoneSample :=
  s.mmg.zones.find? fun z => decide (z.slot = slot) && decide (z.zone = zone)

/-- AF at a temperature, in 2^-16 (R511). -/
def afAt (s : State) (t : Int) : Nat := Config.accelFactor s.mmg.ea s.mmg.tRef t

/-- AF during a gap without telemetry (R512). -/
def gapAf (s : State) (z : ZoneSample) : Nat := afAt s (max z.temp s.mmg.tStore)

/-- Time at which a CLOSED block reaches u = 1 when its thermal age grows at `af` (R514). -/
def dueTime (s : State) (l : Ledger) (af : Nat) : Option Nat :=
  let left := (urgencyNum s l - urgencyDen s) / (s.mmg.endurance : Int)
  if left ≤ 0 then some (now s)
  else if af = 0 then none
  else some (now s + left.toNat * 65536 * 1000000 / af)

/-- Growth of the age of a block that has been programmed: `dt` ns at `af` (R511). -/
def ageBlock (dt af : Nat) (l : Ledger) : Ledger :=
  if l.used = 0 then l else { l with age := l.age + dt * af / (65536 * 1000000) }

/-- CLOSED blocks of dies held. -/
def closedHeld (s : State) : List Ledger :=
  s.mmg.ledger.filter fun l => decide (l.st = .closed) && dieHeld s l.slot l.die

/-- Lowest u x 1000 of a CLOSED block, saturating; 0 without one (R522). -/
def minUrgency (s : State) : Int :=
  let us := (closedHeld s).map fun l => urgencyNum s l * 1000 / (urgencyDen s : Int)
  match us with
  | [] => 0
  | u :: t => max (-(2 ^ 31)) (min (2 ^ 31 - 1) (t.foldl min u))

/-- The next refresh start: of each CLOSED block with the highest AF of the last hour, or before VAULT entry with the
gap's AF (R514). -/
def nextRefreshOf (s : State) (vault : Bool) : BitVec 64 :=
  let ts := (closedHeld s).filterMap fun l =>
    match zoneOf s l.slot (dieZone s l.slot l.die) with
    | none => none
    | some z => dueTime s l (if vault then gapAf s z else z.recent.foldl (fun a r => max a r.2) 0)
  match ts with
  | [] => BitVec.allOnes 64
  | t :: r => BitVec.ofNat 64 (min (2 ^ 64 - 1) (r.foldl min t))

/-- Spread between the highest and lowest ERASES of a die's CLOSED and FREE blocks (R509). -/
def dieSpread (s : State) (slot die : Nat) : Nat :=
  let es := (s.mmg.ledger.filter fun l => decide (l.slot = slot) && decide (l.die = die) &&
    (decide (l.st = .closed) || decide (l.st = .free))).map (·.erases)
  match es with
  | [] => 0
  | e :: t => t.foldl max e - t.foldl min e

/-- The figures of the MMG registers that follow the ledger (R522). -/
def ledgerFigures (s : State) : State :=
  let mine := s.mmg.ledger.filter fun l => dieHeld s l.slot l.die
  let dies := (mine.map fun l => (l.slot, l.die)).eraseDups
  { s with
    mmg.minU := minUrgency s
    mmg.nextRefresh := nextRefreshOf s false
    mmg.retired := (mine.filter fun l => l.st = .retired).length
    mmg.spread := min 65535 (dies.foldl (fun a d => max a (dieSpread s d.1 d.2)) 0) }

/-- A block becomes RETIRED: record 0x0B01 with the cause; at 5 percent of its die's blocks the die is retired
(R501, R502, R505, R510). -/
def retireBlock (slot die plane block cause : Nat) (s : State) : State :=
  let s := modBlock slot die plane block (fun l => { l with st := .retired }) s
  let s := record 0x0B01 ledgerSrc [0, 0, cause] s
  let bs := s.mmg.ledger.filter fun l => decide (l.slot = slot) && decide (l.die = die)
  if bs.length ≤ 20 * (bs.filter fun l => l.st = .retired).length then retireDie slot die s else s

/-- A block becomes SUSPECT (R503); one already on its way to retirement stays so. -/
def suspectBlock (slot die plane block : Nat) (s : State) : State :=
  match ledgerOf s slot die plane block with
  | none => s
  | some l =>
    if l.st = .retiring ∨ l.st = .retired ∨ l.st = .suspect then s
    else record 0x0B02 ledgerSrc [] (modBlock slot die plane block (fun l => { l with st := .suspect }) s)

/-- Retiring blocks whose strips have all left become RETIRED without being erased (R502). -/
def settleRetiring (s : State) : State :=
  (s.mmg.ledger.filter fun l => decide (l.st = .retiring) && dieHeld s l.slot l.die && !blockLive s l).foldl
    (fun s l => retireBlock l.slot l.die l.plane l.block 2 s) s

/-- FREE blocks join the flush reserve until it holds what the budget needs: the module with the fewest RESERVE blocks
first, then the fewest erases (R75). -/
def fillReserve : Nat → State → State
  | 0, s => s
  | n + 1, s =>
    if s.pwr.reserve ≤ reserveBytes s then s
    else
      let free := s.mmg.ledger.filter fun l => decide (l.st = .free) && dieHeld s l.slot l.die &&
        !s.mmg.retiredDies.contains (l.slot, l.die)
      let count (slot : Nat) : Nat :=
        (s.mmg.ledger.filter fun l => decide (l.slot = slot) && decide (l.st = .reserve)).length
      match leastBy (fun l => count l.slot * 2 ^ 32 + l.erases) free with
      | none => s
      | some l => fillReserve n (modBlock l.slot l.die l.plane l.block (fun l => { l with st := .reserve }) s)

end Sys2Proof.Machine
end

