-- ==== Sys2Proof/Machine/Dml.lean ====
section
/-!
DEFINITION. The Drigil module links (chapter 13): training and identification, flits, replay and credits, completions
and what they mean for blocks, strips, reservations and fences, telemetry, events, presence.
-/
namespace Sys2Proof.Machine

/-- Source identifier of a port's link engine lane (R467). -/
def dmlSrc (p : Nat) : Nat := srcId 5 0 p

/-- Source identifier of a module bridge (R467). -/
def bridgeSrc (p : Nat) : Nat := srcId 7 1 p

/-- The image enables a port and its engine lane is in RUN (R57, R462, R654). -/
def portUsable (s : State) (p : Nat) : Bool :=
  alive s && s.img.media.portEn.getLsbD p && decide (ctlState s (dmlSrc p) = .run)

/-! ## Down and retrain (R423, R426, R430) -/

/-- Index of the lowest plane a command selects. -/
def planeOf (c : DmlCmd) : Nat := ((List.range 8).find? fun i => c.planes.getLsbD i).getD 0

/-- A port leaves the link: its outstanding commands end as MODULE_LOST, blocks under program or erase become SUSPECT, reads
and waiting commands go, and the module leaves the layout (R426, R503, R534). -/
def portDown (p : Nat) (st : DmlState) (removed : Bool) (s : State) : State :=
  let cut := (portOf s p).cmds.filter fun c => decide (c.opc = 2) || decide (c.opc = 3)
  let s := modPort p (fun m =>
    { m with st := st, cmds := [], waiting := [], wdWait := [], retrainTries := 0, syncMiss := 0, suspCounts := [], stAt := now s }) s
  let s := cut.foldl (fun s c => suspectBlock p c.die (planeOf c) c.block s) s
  let s := { s with
    mmg.reads := s.mmg.reads.filter fun r => r.slot ≠ p
    mmg.suspends := s.mmg.suspends.filter fun r => r.slot ≠ p
    mmg.blank := s.mmg.blank.filter fun b => b.1 ≠ p }
  moduleLeaves p removed (if st = .down then record 0x0A01 (dmlSrc p) [] s else s)

/-- A port enters RETRAIN (R422, R430). -/
def enterRetrain (p : Nat) (s : State) : State :=
  record 0x0A02 (dmlSrc p) []
    (modPort p (fun m => { m with st := .retrain, retrains := satAdd 255 m.retrains 1, retrainTries := 0, syncMiss := 0, stAt := now s }) s)

/-! ## Training (R62, R423, R457) -/

/-- SLOT_PG has been high for 10 ms: the slot is on, and the port of a present module enters DETECT (R423, R639). -/
def execDmlDetect (p : Nat) (s : State) : Host.Outcome State Fault Refusal :=
  if alive s && decide (p < 48) then
    let s := modPort p (fun m => { m with pg := true }) s
    let s := { s with cle.slots := s.cle.slots.modify p fun x =>
      { x with pg := true, pgFell := none, st := 3, fails := 0, onAt := none, failAt := none } }
    let m := portOf s p
    if portUsable s p && m.present && (decide (m.st = .disabled) || decide (m.st = .down)) then
      .next (modPort p (fun m => { m with st := .detect }) s)
    else .next s
  else .next s

/-- A lane number other than the one the RX_MAP expects writes a record that names the port and the lane; the spec gives no code for
it, and its parameters are the port and the physical lane (R62). -/
def laneMismatch (src port lane : Nat) (s : State) : State :=
  let (v, s) := takeFree s
  record (v.toNat % 65536) src [port, lane] s

/-- Training goes on: detected receivers, then flit lock on both lanes, found once the inversions that the remap entry declares are
undone. A lane number other than the expected one keeps the link down; else the head sends its IDENT (R59, R62, R423, R424). -/
def execDmlTraining (p : Nat) (ev : TrainEvent) (s : State) : Host.Outcome State Fault Refusal :=
  let m := portOf s p
  if alive s then
    match ev with
    | .detected => .next (if m.st = .detect then modPort p (fun m => { m with st := .train, stAt := now s }) s else s)
    | .locked lanes =>
      if decide (m.st = .train) && lanesLock s 3 p 2 lanes then
        match wrongLane s 3 p 2 lanes with
        | some l => .next (laneMismatch (dmlSrc p) p (rxLane s 3 p l) s)
        | none =>
          .next (dmlBare p 0x03 (identPayload s.glb.headSel Config.serial) (modPort p (fun m => { m with st := .ident, rxAny := false }) s))
      else .next s
  else .next s

/-- Training does not finish within 100 ms (R58, R423). -/
def execDmlTrainTimeout (p : Nat) (s : State) : Host.Outcome State Fault Refusal :=
  if alive s && decide ((portOf s p).st = .train) && decide ((portOf s p).stAt + 100000000 ≤ now s) then .next (portDown p .down false s)
  else .next s

/-- 1 s after DOWN a present, powered port returns to DETECT (R423). -/
def execDmlDownRetry (p : Nat) (s : State) : Host.Outcome State Fault Refusal :=
  let m := portOf s p
  if portUsable s p && decide (m.st = .down) && m.present && m.pg && decide (m.stAt + 10 ^ 9 ≤ now s) then .next (modPort p (fun m => { m with st := .detect }) s)
  else .next s

/-! ## Reservations and fences (R445 to R450, R587) -/

/-- The head takes part: it reserves no die while stalled or in conflict with its peer (R55, R146). -/
def mayReserve (s : State) : Bool := alive s && !s.glb.headConflict && decide (s.glb.failStep = 0)

/-- A command that names no address. -/
def plainCmd (opc : Nat) (param : BitVec 32) : DmlCmd := { DmlCmd.reset with opc := opc, planes := 0, param := param }

/-- RESERVE or RELEASE of `n` dies from `d` (R433, R434). -/
def dieRange (opc d n : Nat) : DmlCmd := { plainCmd opc 0 with die := d, count := n - 1 }

/-- Dies a head keeps while both serve: head 0 the lower half, head 1 the rest. -/
def halfOf (n : Nat) (head : Bool) : Nat × Nat := if head then ((n + 1) / 2, n / 2) else (0, (n + 1) / 2)

/-- Reserve this head's dies of a module: its half, or every die of a module fenced for it. -/
def reserveShare (p : Nat) (s : State) : State :=
  let n := dieCount s p
  let r := if (portOf s p).fenceHolder then (0, n) else halfOf n s.glb.headSel
  if mayReserve s && !(portOf s p).fencedHere && decide (0 < r.2) then dmlIssue p (dieRange 0x10 r.1 r.2) s else s

/-- What a module reports of its fence: epoch and fenced port. A head that finds itself fenced writes 0x0A08 (R449). -/
def fenceReport (p epoch fencedPort : Nat) (s : State) : State :=
  let m := portOf s p
  let here := decide (fencedPort = b2n m.bridgePort)
  let holder := decide (fencedPort = 1 - b2n m.bridgePort)
  let s := modPort p (fun m => { m with epoch := epoch, fencedHere := here, fenceHolder := holder }) s
  let s := { s with xhl.fenceHeld := putBit s.xhl.fenceHeld p holder, xhl.fencedAgainst := putBit s.xhl.fencedAgainst p here }
  if here && !m.fencedHere then record 0x0A08 (dmlSrc p) [] s else s

/-! ## Identification (R425, R458, R468) -/

/-- Checks of the information page (R458). -/
def infoOk (i : List (BitVec 8)) : Bool :=
  decide (i.length = 512) && decide (leAt i 0 4 = 0x4F464E49) && decide (leAt i 4 2 = 1) &&
  decide (1 ≤ leAt i 6 2 ∧ leAt i 6 2 ≤ 256) && [1, 2, 4].contains (leAt i 36 1) &&
  decide (1 ≤ leAt i 37 1 ∧ leAt i 37 1 ≤ 8) && decide (1 ≤ leAt i 38 2) &&
  decide (1 ≤ leAt i 40 4 ∧ leAt i 40 4 ≤ 2 ^ 24) && decide (leAt i 44 2 ≤ 32768) &&
  decide (1 ≤ leAt i 46 1 ∧ leAt i 46 1 ≤ 16) && decide (1 ≤ leAt i 47 1 ∧ leAt i 47 1 ≤ 100) &&
  ((List.range 256).all fun d =>
    if d < leAt i 6 2 then decide (leAt i (252 + d) 1 < leAt i 37 1) else decide (leAt i (252 + d) 1 = 255)) &&
  decide (leAt i 508 4 = (crc32c (i.take 508)).toNat)

/-- Geometries used for data (R468). -/
def moduleGeometryOk (i : List (BitVec 8)) : Bool :=
  decide (18432 ≤ leAt i 44 2) && decide (65 ≤ leAt i 38 2) && decide (16 ≤ leAt i 40 4) && decide (leAt i 50 2 ≤ 200) &&
  decide (leAt i 52 2 ≤ 5000) && decide (leAt i 54 2 ≤ 30000)

/-- Range checks of an IDENT's fields, and its serial against the page's (R424, R425). -/
def identOk (d : DmlIdent) : Bool :=
  decide (d.format = 1) && decide (d.port ≤ 1) && [0, 1, 255].contains d.otherHead && [0, 1, 255].contains d.fencedPort &&
  decide (d.resHeld ≤ 256) && decide (256 ≤ d.cmdCredits ∧ d.cmdCredits ≤ 1024) &&
  decide (1024 ≤ d.wdCredits ∧ d.wdCredits ≤ 2048) && decide (d.serial.toNat = leAt d.info 8 8)

/-- The port enters ACTIVE: record 0x0A01 and TELEM_CFG, the latter not while fenced (R462, R463, R587). -/
def enterActive (p : Nat) (s : State) : State :=
  let s := record 0x0A01 (dmlSrc p) []
    (modPort p (fun m => { m with st := .active, telemTime := now s, telemLost := false, syncMiss := 0, retrainTries := 0 }) s)
  if (portOf s p).fencedHere then s else dmlIssue p (plainCmd 0x15 (w32 s.med.periodMs)) s

/-- During a start, MEDIA is set once every port with a present module that is not held off is up, or has left for DOWN (R137, R144). -/
def noteMedia (s : State) : State :=
  let waits (p : Nat) : Bool :=
    portUsable s p && (portOf s p).present && !s.cle.slotOff.getLsbD p &&
      ([DmlState.disabled, .detect, .train, .ident].contains (portOf s p).st)
  if decide (s.glb.mode = .starting) && s.glb.cal && !(List.range 48).any waits then { s with glb.media := true } else s

/-- The bridge's IDENT is checked. Equal HEAD_SEL levels keep the port in IDENT with record 0x0A0C, a bad page with 0x0A0B, a
geometry out of range with 0x0B0B; accepted, sequence numbers and credits start, and the module enters the layout
(R425, R458, R468, R534). -/
def execDmlIdent (p : Nat) (d : DmlIdent) (s : State) : Host.Outcome State Fault Refusal :=
  if alive s && decide ((portOf s p).st = .ident) then
    if d.otherHead = b2n s.glb.headSel then .next (record 0x0A0C (dmlSrc p) [] s)
    else if !infoOk d.info then .next (record 0x0A0B (dmlSrc p) [] s)
    else if !moduleGeometryOk d.info then .next (record 0x0B0B schedSrc [] s)
    else if !identOk d then .next s
    else
      let s := modPort p (fun m =>
        { m with bridgePort := decide (d.port = 1), resDies := d.resHeld, serial := d.serial, info := d.info,
                 held := if d.resHeld = 0 then 0 else m.held, seqTx := 0, seqRx := 0, rxAny := false, nakSent := false, unacked := [],
                 tick := d.tick % 2 ^ 48,
                 creditCmd := d.cmdCredits, creditWd := d.wdCredits, crdCmdSeen := 0, crdWdSeen := 0, tagGens := [] }) s
      let s := enterActive p (fenceReport p d.epoch d.fencedPort s)
      .next (noteMedia (reserveShare p (moduleArrives p d.serial s)))
  else .next s

/-! ## Flits (R422, R427 to R432) -/

/-- An ACK: flits up to the acknowledged one are no longer kept, and the rest have made progress (R430, R431). -/
def ackFlits (ack : Nat) (l : List (Nat × Nat)) : List (Nat × Nat) :=
  if l.any fun x => x.1 = ack then ((l.dropWhile fun x => x.1 ≠ ack).drop 1).map fun x => (x.1, 0) else l

/-- ACK and credit fields of a flit whose CRC checks (R429, R432). -/
def useFlit (p : Nat) (ack : Option Nat) (crdCmd crdWd : Nat) (s : State) : State :=
  modPort p (fun m =>
    { m with unacked := match ack with | some a => ackFlits a m.unacked | none => m.unacked
             ackAt := if ack.any fun a => m.unacked.any fun x => x.1 = a then now s else m.ackAt
             creditCmd := m.creditCmd + (crdCmd + 4096 - m.crdCmdSeen) % 4096
             creditWd := m.creditWd + (crdWd + 4096 - m.crdWdSeen) % 4096
             crdCmdSeen := crdCmd % 4096, crdWdSeen := crdWd % 4096 }) s

/-- A sequenced flit is discarded: one NAK, whose ACK names the last flit accepted, until the expected SEQ arrives (R428, R430). -/
def discardFlit (p : Nat) (s : State) : State :=
  let m := portOf s p
  if m.nakSent then s
  else
    emit (.dmlFlit p (dmlFlit 0x02 0 0 (some ((m.seqRx + 1023) % 1024)) []))
      (modPort p (fun m => { m with nakSent := true }) s)

/-- An accepted flit is reported in the ACK field of what the port sends next, of an IDLE flit when it has nothing to send (R431). -/
def ackOut (p : Nat) (s : State) : State :=
  let s' := dmlRun p s
  if s'.out.length = s.out.length then dmlBare p 0x00 [] s' else s'

/-- Bytes over bytes at an offset, the list growing with zeros. -/
def overlay (bs : List (BitVec 8)) (off : Nat) (d : List (BitVec 8)) : List (BitVec 8) :=
  (bs ++ List.replicate (off - bs.length) 0).take off ++ d ++ bs.drop (off + d.length)

/-- Read data for an outstanding command (R436). -/
def takeData (p : Nat) (d : DataRecord) (s : State) : State :=
  modPort p (fun m => { m with cmds := m.cmds.map fun c =>
    if c.tag = d.tag ∧ c.gen = d.gen then { c with data := overlay c.data d.offset d.data } else c }) s

/-- Flit types the bridge sends and those of them that are sequenced (R428). -/
def bridgeTypes : List Nat := [0x00, 0x02, 0x03, 0x20, 0x21, 0x22, 0x23]
def bridgeSequenced (t : Nat) : Bool := [0x20, 0x21, 0x22, 0x23].contains t

/-- A flit whose CRC checks and whose type the bridge sends: its ACK and credits are used, and a sequenced one is accepted only with the
SEQ expected next (R428, R429). The records of a CPL, TELEM or EVENT flit are commands of their own. -/
def takeFlit (p : Nat) (f : List (BitVec 8)) (s : State) : State :=
  let s := if flitType f = 3 then s else useFlit p (flitAck f) (flitCrdCmd f) (flitCrdWd f) s
  if bridgeSequenced (flitType f) then
    if flitSeq f = (portOf s p).seqRx then
      let s := modPort p (fun m => { m with seqRx := (m.seqRx + 1) % 1024, rxAny := true, nakSent := false }) s
      ackOut p (if flitType f = 0x21 then takeData p (rdataOf f) s else s)
    else discardFlit p (dmlRun p s)
  else dmlRun p s

/-- A flit arrives at a module port; one whose CRC fails, or of a type the bridge does not send, is counted and discarded. Three SYNC
flits missing in a row send an ACTIVE port to RETRAIN (R422, R427 to R430). -/
def execDmlFlitReceive (p : Nat) (rx : DmlRx) (s : State) : Host.Outcome State Fault Refusal :=
  let m := portOf s p
  if alive s && (decide (m.st = .active) || decide (m.st = .ident)) then
    match rx with
    | .sync f =>
      if syncSeen f then .next (modPort p (fun m => { m with syncMiss := 0 }) s)
      else if m.st = .active ∧ 3 ≤ m.syncMiss + 1 then .next (enterRetrain p s)
      else .next (modPort p (fun m => { m with syncMiss := m.syncMiss + 1 }) s)
    | .flit f =>
      if flitCrcOk f && bridgeTypes.contains (flitType f) then .next (takeFlit p f s)
      else .next (discardFlit p (modPort p (fun m => { m with crcErrs := satAdd 65535 m.crcErrs 1 }) s))
  else .next s

/-- Replay every unacknowledged flit from the oldest; one already replayed 4 times without progress sends the port to RETRAIN
with record 0x0A03. The replay is a corrected event of the port's lane (R430, R645). -/
def replayPort (p : Nat) (s : State) : State :=
  let m := portOf s p
  match m.unacked with
  | [] => s
  | (_, n) :: _ =>
    if 4 ≤ n then enterRetrain p (record 0x0A03 (dmlSrc p) [] s)
    else
      correctedEvent (dmlSrc p) .lane (emit (.dmlReplay p (m.unacked.map (·.1)))
        (modPort p (fun m => { m with unacked := m.unacked.map (fun x => (x.1, x.2 + 1)), replays := satAdd 255 m.replays 1, ackAt := now s }) s))

/-- A NAK: every unacknowledged flit is replayed (R430). -/
def execDmlNak (p ack : Nat) (s : State) : Host.Outcome State Fault Refusal :=
  if alive s && decide ((portOf s p).st = .active) then
    .next (replayPort p (modPort p (fun m => { m with unacked := ackFlits ack m.unacked }) s))
  else .next s

/-- 4 us without ACK progress while flits are unacknowledged (R430). -/
def execDmlReplayTimeout (p : Nat) (s : State) : Host.Outcome State Fault Refusal :=
  if alive s && decide ((portOf s p).st = .active) && decide ((portOf s p).ackAt + 4000 ≤ now s) then .next (replayPort p s) else .next s

/-- A retrain attempt fails; after three the port goes to DOWN (R423). -/
def execDmlRetrainTimeout (p : Nat) (s : State) : Host.Outcome State Fault Refusal :=
  if alive s && decide ((portOf s p).st = .retrain) && decide ((portOf s p).stAt + 10000000 ≤ now s) then
    if 3 ≤ (portOf s p).retrainTries + 1 then .next (portDown p .down false s)
    else .next (modPort p (fun m => { m with retrainTries := m.retrainTries + 1, stAt := now s }) s)
  else .next s

/-- Lock is regained on both lanes: sequence state and credits are kept, and unacknowledged flits are replayed. A wrong lane number
leaves the port in RETRAIN (R62, R423, R430). -/
def execDmlRetrainComplete (trained : PortLanes) (s : State) : Host.Outcome State Fault Refusal :=
  let p := trained.port
  let lanes := trained.lanes
  if alive s && decide ((portOf s p).st = .retrain) && lanesLock s 3 p 2 lanes then
    match wrongLane s 3 p 2 lanes with
    | some l => .next (laneMismatch (dmlSrc p) p (rxLane s 3 p l) s)
    | none =>
    let s := enterActive p s
    .next (dmlRun p (if (portOf s p).unacked.isEmpty then s
      else emit (.dmlReplay p ((portOf s p).unacked.map (·.1))) s))
  else .next s

/-! ## Completions (R437 to R439, R445 to R453, R501 to R504) -/

/-- The strip that a member location holds: its stripe and position. -/
def stripAt (s : State) (slot die plane block strip : Nat) : Option (Stripe × Nat) :=
  (s.ecp.stripes.filter fun x => decide (x.st ≠ .freed)).findSome? fun x =>
    ((List.range x.members.length).find? fun p =>
      x.members.getD p Member.reset = { slot := slot, die := die, plane := plane, strip := strip, block := block }).map
        fun p => (x, p)

/-- Strips of stripes not yet complete that lie on a block. -/
def blockStrips (s : State) (slot die plane block : Nat) : List (BitVec 64 × Nat) :=
  s.ecp.stripes.flatMap fun x =>
    if x.st = .opened ∨ x.st = .closed then
      ((List.range x.members.length).filter fun p =>
        let m := x.members.getD p Member.reset
        decide (m.slot = slot) && decide (m.die = die) && decide (m.plane = plane) && decide (m.block = block) &&
          !x.trailers.contains p).map fun p => (x.serial, p)
    else []

/-- Commands for a block that have not left yet are dropped. -/
def dropWaiting (p die plane block : Nat) (s : State) : State :=
  modPort p (fun m => { m with waiting := m.waiting.filter fun c =>
    !((decide (c.opc = 2) || decide (c.opc = 3)) && decide (c.die = die) && decide (c.block = block) && c.planes.getLsbD plane) }) s

/-- A block can take no more programs: what was to be programmed there goes elsewhere (R502). -/
def abandonBlock (p die plane block : Nat) (s : State) : State :=
  let s := dropWaiting p die plane block s
  let s := (blockStrips s p die plane block).foldl (fun s t => redoStrip t.1 t.2 s) s
  -- a rebuilt strip whose programs fail is a target again
  addTargets (fun x q =>
    let m := x.members.getD q Member.reset
    decide (x.st = .complete) && decide (m.slot = p) && decide (m.die = die) && decide (m.plane = plane) &&
      decide (m.block = block) && !x.trailers.contains q) s

/-- A PROGRAM ends (R438, R502, R503, R530). -/
def programDone (p : Nat) (c : DmlCmd) (status : Nat) (s : State) : State :=
  let plane := planeOf c
  if status = 0 then
    let s := if (ledgerOf s p c.die plane c.block).any fun l => decide (l.st = .anchor) && decide (l.used = 0) then
      modBlock p c.die plane c.block (fun l => { l with used := 1, programTime := now s }) s else s
    if c.final_ ∧ c.page % 65 = 64 then
      match stripAt s p c.die plane c.block (c.page / 65) with
      | some (x, pos) =>
        modStripe x.serial (fun x => if x.trailers.contains pos then x else { x with trailers := x.trailers ++ [pos] }) s
      | none => s
    else s
  else if status = 1 ∨ status = 3 then
    let s := record 0x0B0A schedSrc [] s
    let s := modBlock p c.die plane c.block (fun l => if l.st = .retired then l else { l with st := .retiring }) s
    settleRetiring (abandonBlock p c.die plane c.block s)
  else if status = 8 then abandonBlock p c.die plane c.block (suspectBlock p c.die plane c.block s)
  else if status = 10 then dmlIssue p { c with tag := 0, gen := 0 } s
  else s

/-- The block passed its erase: worn out it is RETIRED, else FREE; a block of an anchor ring stays one (R486, R504, R507, R510). -/
def erasePassed (slot die plane block : Nat) (s : State) : State :=
  match ledgerOf s slot die plane block with
  | none => s
  | some l =>
    let s := modBlock slot die plane block (fun l =>
      { l with st := if l.st = .anchor then .anchor else .free, ber := false, disturb := false, eraseSuspended := false, programTime := 0, age := 0, reads := 0,
               cls := .notDue, used := 0 }) s
    if wornOut s l.erases then retireBlock slot die plane block 3 s else s

/-- The READ of a block's first page that follows its erase (R479, R504). -/
def blankRead (die plane block : Nat) : DmlCmd :=
  { DmlCmd.reset with work := .maint .gc, opc := 1, die := die, planes := BitVec.ofNat 8 (2 ^ plane), block := block, length := 18432 }

/-- Enter a block into the ledger at its first use. -/
def firstEntry (slot die plane block : Nat) (st : BlockState) (s : State) : State :=
  let l : Ledger := { Ledger.reset with slot := slot, die := die, plane := plane, block := block, st := st, erases := 1 }
  sendDelta [deltaLedger l] { s with mmg.ledger := s.mmg.ledger ++ [l] }

/-- An ERASE ends. A SUSPECT block, and one at first use, is read back before it is FREE; failure retires the block
(R479, R501, R504). -/
def eraseDone (p : Nat) (c : DmlCmd) (status : Nat) (s : State) : State :=
  let plane := planeOf c
  match ledgerOf s p c.die plane c.block with
  | none =>
    if status = 0 then
      dmlIssue p (blankRead c.die plane c.block) { s with mmg.blank := s.mmg.blank ++ [(p, c.die, plane, c.block)] }
    else if status = 2 ∨ status = 3 then
      settleJoin p (retireBlock p c.die plane c.block 1 (firstEntry p c.die plane c.block .retired s))
    else s
  | some l =>
    if status = 0 then
      let s := modBlock p c.die plane c.block (fun l => { l with erases := l.erases + 1 }) s
      if l.st = .suspect then
        dmlIssue p (blankRead c.die plane c.block) { s with mmg.blank := s.mmg.blank ++ [(p, c.die, plane, c.block)] }
      else erasePassed p c.die plane c.block s
    else if status = 2 ∨ status = 3 then retireBlock p c.die plane c.block 1 s
    else if status = 8 then suspectBlock p c.die plane c.block s
    else if status = 10 then dmlIssue p { c with tag := 0, gen := 0 } s
    else s

/-- The anchor ring of a module: the first two blocks of die 0, plane 0, among blocks 0 to 15 that passed their first erase
(R486). -/
def makeAnchors (p : Nat) (s : State) : State :=
  let cand := (List.range 16).filter fun b => (ledgerOf s p 0 0 b).any fun l => l.st = .free
  (cand.take 2).foldl (fun s b => modBlock p 0 0 b (fun l => { l with st := .anchor }) s) s

/-- A block read back after its erase: all bytes 0xFF, it is FREE; otherwise the erase has failed. -/
def blankDone (p : Nat) (c : DmlCmd) (status : Nat) (s : State) : State :=
  let plane := planeOf c
  let s := { s with mmg.blank := s.mmg.blank.filter fun b => b ≠ (p, c.die, plane, c.block) }
  let ok := decide (status = 0) && decide (c.data.length = 18432) && c.data.all (· = 0xFF)
  match ledgerOf s p c.die plane c.block with
  | none =>
    let s := if ok then firstEntry p c.die plane c.block .free s
      else retireBlock p c.die plane c.block 1 (firstEntry p c.die plane c.block .retired s)
    if firstUseDone s p then settleJoin p (makeAnchors p s) else s
  | some _ => if ok then erasePassed p c.die plane c.block s else retireBlock p c.die plane c.block 1 s

/-- A READ ends: a page read of its block is counted; a read back after an erase decides on the block (R478, R504). -/
def readDone (p : Nat) (c : DmlCmd) (status : Nat) (s : State) : State :=
  if s.mmg.blank.contains (p, c.die, planeOf c, c.block) then blankDone p c status s
  else if status = 0 then
    modBlock p c.die (planeOf c) c.block (fun l =>
      { l with reads := satAdd (2 ^ 32 - 1) l.reads 1, disturb := l.disturb || decide (s.mmg.readDisturb ≤ l.reads + 1) }) s
  else s

/-- Erase every block of a die at the first use of its module (R479). -/
def firstUseDie (p die : Nat) (s : State) : State :=
  if s.mmg.ledger.any fun l => decide (l.slot = p) && decide (l.die = die) then s
  else
    (List.range (planeCount s p)).foldl (fun s plane =>
      (List.range (blockCount s p)).foldl (fun s b =>
        dmlIssue p (eraseCmd { Ledger.reset with slot := p, die := die, plane := plane, block := b }) s) s) s

/-- RESERVE ends: the dies are held, and those of a JOINING module are erased for their first use; a contest lost is recorded
(R445, R446, R479). -/
def reserveDone (p : Nat) (c : DmlCmd) (status : Nat) (info : BitVec 32) (s : State) : State :=
  let ds := (List.range (c.count + 1)).map (c.die + ·)
  if status = 0 then
    let s := modPort p (fun m =>
      let h := ds.foldl (fun (w : BitVec 256) d => putBit w d true) m.held
      { m with held := h, resDies := ((List.range 256).filter h.getLsbD).length }) s
    if (slotOf s p).st = .joining then ds.foldl (fun s d => firstUseDie p d s) s else s
  else if status = 5 ∧ bitOf info 31 then record 0x0A07 (dmlSrc p) [] s
  else s

/-- RELEASE ends: the dies are free (R445). -/
def releaseDone (p : Nat) (c : DmlCmd) (status : Nat) (s : State) : State :=
  if status = 0 then
    modPort p (fun m =>
      let h := ((List.range (c.count + 1)).map (c.die + ·)).foldl (fun (w : BitVec 256) d => putBit w d false) m.held
      { m with held := h, resDies := ((List.range 256).filter h.getLsbD).length }) s
  else s

/-- PORT_FENCE ends: done, this head holds the module and reserves every die; stale, the module tells its epoch (R448). -/
def fenceDone (p status : Nat) (info : BitVec 32) (s : State) : State :=
  let other := 1 - b2n (portOf s p).bridgePort
  if status = 0 then reserveShare p (record 0x0A08 (dmlSrc p) [] (fenceReport p info.toNat other s))
  else if status = 7 then modPort p (fun m => { m with epoch := info.toNat }) s
  else s

/-- UNFENCE ends: the fence is off, and the dies of the head that rejoins are released (R450, R587). -/
def unfenceDone (p status : Nat) (info : BitVec 32) (s : State) : State :=
  if status = 0 then
    let s := record 0x0A08 (dmlSrc p) [] (fenceReport p info.toNat 255 s)
    let r := halfOf (dieCount s p) (!s.glb.headSel)
    if r.2 = 0 then s else dmlIssue p (dieRange 0x11 r.1 r.2) s
  else if status = 7 then modPort p (fun m => { m with epoch := info.toNat }) s
  else s

/-- SUSPEND or RESUME ends; INFO names the operation (R451, R452). -/
def suspendDone (p : Nat) (c : DmlCmd) (status : Nat) (info : BitVec 32) (s : State) : State :=
  let tag := info.toNat % 1024
  let op := (portOf s p).cmds.find? fun x => x.tag = tag
  let mark (on : Bool) (s : State) : State :=
    match op with
    | some o => if o.opc = 3 then modBlock p o.die (planeOf o) o.block (fun l => { l with eraseSuspended := on }) s else s
    | none => s
  let noteDrop (s : State) : State :=
    { s with mmg.suspends := s.mmg.suspends.filter fun x => !(decide (x.slot = p) && decide (x.die = c.die)) }
  if c.opc = 4 then
    if status = 0 then
      let s := modPort p (fun m =>
        let n := ((m.suspCounts.find? fun x => x.1 = tag).map (·.2)).getD 0
        { m with suspended := putBit m.suspended c.die true, suspCounts := (m.suspCounts.filter fun x => x.1 ≠ tag) ++ [(tag, n + 1)] }) s
      mark true { s with mmg.suspends := s.mmg.suspends.map fun x =>
        if x.slot = p ∧ x.die = c.die then { x with tag := tag } else x }
    else noteDrop s
  else if status = 0 then
    mark false (noteDrop (modPort p (fun m => { m with suspended := putBit m.suspended c.die false }) s))
  else s

/-- What a completed command means. FENCED tells the head that it is fenced (R438, R449). -/
def cplMeaning (p : Nat) (c : DmlCmd) (status : Nat) (info : BitVec 32) (s : State) : State :=
  if status = 6 then fenceReport p (portOf s p).epoch (b2n (portOf s p).bridgePort) s
  else match c.opc with
    | 0x01 => readDone p c status s
    | 0x02 => programDone p c status s
    | 0x03 => eraseDone p c status s
    | 0x04 => suspendDone p c status info s
    | 0x05 => suspendDone p c status info s
    | 0x08 => if status = 0 then modPort p (fun m => { m with info := c.data }) s else s
    | 0x10 => reserveDone p c status info s
    | 0x11 => releaseDone p c status s
    | 0x13 => fenceDone p status info s
    | 0x14 => unfenceDone p status info s
    | _ => s

/-- A completion arrives and its command ends, its die time counted (R517); one that names no outstanding command of its generation is discarded with record
0x0A09 (R437, R439). -/
def execDmlCompletion (p : Nat) (x : DmlCpl) (s : State) : Host.Outcome State Fault Refusal :=
  let m := portOf s p
  if alive s && decide (m.st = .active) then
    match m.cmds.find? fun c => decide (c.tag = x.tag) && decide (c.gen = x.gen) with
    | none => .next (record 0x0A09 (dmlSrc p) [] { s with med.staleCpl := true })
    | some c =>
      let s := modPort p (fun m =>
        { m with cmds := m.cmds.filter (fun c => c.tag ≠ x.tag), suspCounts := m.suspCounts.filter fun y => y.1 ≠ x.tag }) s
      .next (dmlRun p (ledgerFigures (eraseFree (cplMeaning p c x.status x.info (noteDieUse p c x.busyUs s)))))
  else .next s

/-! ## Telemetry and events (R454 to R456, R511, R631) -/

/-- One zone's sample: its blocks age by the time since the previous sample, at this temperature, or at the gap's temperature when
telemetry had been missing for three periods (R455, R511, R512). The age goes to the peer with the entry's next change (log entry 92). -/
def ageZone (p zone : Nat) (t : Int) (s : State) : State :=
  let af := afAt s t
  let old := zoneOf s p zone
  let s := match old with
    | none => s
    | some z =>
      let dt := now s - z.time
      let gap := decide (3 * s.med.periodMs * 1000000 ≤ dt)
      let a := if gap then gapAf s z else af
      let mine (l : Ledger) : Bool := decide (l.slot = p) && decide (dieZone s p l.die = zone) && dieHeld s p l.die
      { s with mmg.ledger := s.mmg.ledger.map fun l => if mine l then ageBlock dt a l else l }
  let keep := ((old.map (·.recent)).getD []).filter fun r => decide (now s < r.1 + hourNs)
  let z : ZoneSample := { slot := p, zone := zone, time := now s, temp := t, recent := keep ++ [(now s, af)] }
  { s with mmg.zones := (s.mmg.zones.filter fun z => !(decide (z.slot = p) && decide (z.zone = zone))) ++ [z] }

/-- The hottest zone reaches TEMP_CRIT: record 0x0F05 and ALERT_L, once until that zone is 5 degC below it (R631). -/
def moduleHeat (p : Nat) (zs : List (BitVec 16)) (s : State) : State :=
  let cooled (z : Nat) : Bool := (zoneTemp (zs.getD z 0x8000)).any fun t => decide (t ≤ s.img.media.tempCrit - 80)
  let s := { s with cle.modHot := s.cle.modHot.filter fun x => !(decide (x.1 = p) && cooled x.2) }
  match hottest zs with
  | none => s
  | some (z, w) =>
    let s := modPort p (fun m => { m with temp := w, tempZone := z }) s
    if decide (s.img.media.tempCrit ≤ w.toInt) && !(s.cle.modHot.any fun x => x.1 = p) then
      recordAlert 0x0F05 loopSrc [] { s with cle.modHot := s.cle.modHot ++ [(p, z)] }
    else s

/-- A TELEM flit arrives. -/
def execTelem (p : Nat) (t : TelemRecord) (s : State) : Host.Outcome State Fault Refusal :=
  if alive s && decide ((portOf s p).st = .active) then
    let s := modPort p (fun m =>
      { m with telemTime := now s, telemLost := false, zoneTemps := t.zones, vin := t.vin, iin := t.iin, otherActive := t.otherActive, nvOk := t.nvOk,
               tick := t.tick % 2 ^ 48, bridgeTemp := t.bridgeTemp, inletTemp := t.inletTemp,
               resDies := t.resHeld, busyDies := t.busy, suspended := t.suspended }) s
    let s := fenceReport p t.epoch t.fencedPort s
    let s := (List.range 8).foldl (fun s z => match zoneTemp (t.zones.getD z 0x8000) with
      | some v => ageZone p z v s
      | none => s) s
    .next (dmlRun p (ledgerFigures (moduleHeat p t.zones s)))
  else .next s

/-- Three periods without telemetry on an ACTIVE port (R455). -/
def execTelemMissing (p : Nat) (s : State) : Host.Outcome State Fault Refusal :=
  let m := portOf s p
  if alive s && decide (m.st = .active) && !m.telemLost && decide (m.telemTime + 3 * s.med.periodMs * 1000000 ≤ now s) then
    .next (record 0x0A0A (dmlSrc p) [] (modPort p (fun m => { m with telemLost := true }) s))
  else .next s

/-- The 16 bytes of an event record as four words (R456). -/
def eventWords (e : ModuleEventRec) : List Nat :=
  [e.code % 65536 + 65536 * (e.severity % 256) + 2 ^ 24 * (e.die % 256), e.tick % 2 ^ 32, e.param.toNat % 2 ^ 32,
   e.param.toNat / 2 ^ 32]

/-- A module event arrives: record 0x0A06 with it, ALERT_L for severity 2; a die that fails to answer a reset is retired, the
fence is taken up, and equal HEAD_SEL levels are recorded (R425, R456, R505). -/
def execModuleEvent (p : Nat) (e : ModuleEventRec) (s : State) : Host.Outcome State Fault Refusal :=
  if alive s then
    let alert := decide (e.severity = 2)
    let s := recordSev 0x0A06 (bridgeSrc p) (eventWords e) alert (severityOf 0x0A06 alert e.severity) s
    if e.code = 3 then .next (retireDie p e.die s)
    else if e.code = 5 then .next (fenceReport p (e.param.toNat % 2 ^ 32) (e.param.toNat / 2 ^ 32 % 256) s)
    else if e.code = 8 then .next (record 0x0A0C (dmlSrc p) [] s)
    else .next s
  else .next s

/-! ## Presence (R457) -/

/-- MOD_PRSNT_L low for 10 ms: an insertion, which on a live switch is a power-up event (R457, R637). -/
def execModuleInserted (p : Nat) (s : State) : Host.Outcome State Fault Refusal :=
  if alive s && decide (p < 48) && !(portOf s p).present then
    let live := (s.cle.slots.getD p SlotPwr.reset).pg
    let s := record 0x0A04 (dmlSrc p) [] (modPort p (fun m => { m with present := true, pg := live }) s)
    let s := if live then { s with cle.lastEvent := some (now s, p) } else s
    .next (if live && slotShared s p then { s with cle.blockAll := now s + 20000000 } else s)
  else .next s

/-- MOD_PRSNT_L high for 1 ms: a removal. SLOT_EN falls, the port's commands end and it is DISABLED (R457). -/
def execModuleRemoved (p : Nat) (s : State) : Host.Outcome State Fault Refusal :=
  if alive s && (portOf s p).present then
    let s := { s with cle.slots := s.cle.slots.modify p fun x => { x with en := false, st := 0 } }
    let s := portDown p .disabled true (modPort p (fun m => { m with present := false, pg := false, held := 0, serial := 0, info := [] }) s)
    .next (record 0x0A05 (dmlSrc p) [] s)
  else .next s

/-! ## Registers (R463) -/

/-- Write of MED_TELEM_CTL: out of range it is refused, else TELEM_CFG goes to every ACTIVE port. -/
def telemCtlWrite (w : BitVec 32) (s : State) : State :=
  let ms := fld w 0 11
  if 10 ≤ ms ∧ ms ≤ 1000 then
    let s := { s with med.periodMs := ms }
    let s := (activePorts s).foldl (fun s p => dmlIssue p (plainCmd 0x15 (w32 ms)) s) s
    { s with cle.loops := (List.range s.cle.loops.length).map fun n =>
        let l := s.cle.loops.getD n Loop.reset
        if 6 ≤ n ∧ n < 54 then { l with cfg := { l.cfg with period := 10 * ms } } else l }
  else { s with med.ctlErr := true }

/-- TELEM_PERIOD_WRITE (R463). -/
def execTelemPeriodWrite (w : BitVec 32) (s : State) : Host.Outcome State Fault Refusal :=
  if hostWriteOk s 0x0B then .next (telemCtlWrite w s) else .next s

end Sys2Proof.Machine
end

