-- ==== Sys2Proof/Machine/Dram.lean ====
section
/-!
DEFINITION. The DRAM subsystem (chapter 17): error correction, address mapping, refresh and row-hammer, temperature and
delay sets, and its registers.
-/
namespace Sys2Proof.Machine

/-- Source identifier of channel `c` (R27). -/
def chanSrc (c : Nat) : Nat := srcId 6 0 c

/-- Channel `c`. -/
def chanOf (s : State) (c : Nat) : Chan := s.drc.chans.getD c Chan.reset

/-- Change channel `c`. -/
def modChan (c : Nat) (f : Chan → Chan) (s : State) : State := { s with drc.chans := s.drc.chans.modify c f }

/-! ## Address mapping (R604) -/

/-- Parity of a number's bits. -/
def parityBit : Nat → Nat → Nat
  | 0, _ => 0
  | n + 1, v => (v % 2 + parityBit n (v / 2)) % 2

/-- hx(v, m, n) of R604. -/
def hx (v : Nat) (m : List (BitVec 32)) (n : Nat) : Nat :=
  (List.range n).foldl (fun a i => a + 2 ^ i * parityBit 32 (v &&& (m.getD i 0).toNat)) 0

/-- Where a DRAM address lies (R604). -/
structure DramPlace where
  /-- channel index of R597 -/
  chan : Nat
  /-- subchannel -/
  sub : Nat
  /-- rank -/
  rank : Nat
  /-- bank group -/
  bg : Nat
  /-- bank -/
  ba : Nat
  /-- row -/
  row : Nat
  /-- column -/
  col : Nat
  deriving DecidableEq, Repr

/-- The mapping of R604, with a, b and RB of R596 and R597. -/
def dramMap (d : Drc) (a b rb pa : Nat) : DramPlace :=
  let u := pa / 256
  let x := hx (u % 2 ^ 32) d.chMask a
  let t := if b = 1 then u / 2 ^ a % 3 else 0
  let w := if b = 1 then u / 2 ^ a / 3 else u / 2 ^ a
  let row := w / 2 ^ (11 + rb)
  { chan := x + 2 ^ a * t
    sub := pa / 64 % 2
    row := row
    bg := (w % 8) ^^^ hx row d.bgXor 3
    ba := (w / 8 % 4) ^^^ hx row d.baXor 2
    col := w / 32 % 64 * 32 + pa / 128 % 2 * 16
    rank := (w / 2048 % 2 ^ rb) ^^^ hx row d.rankXor rb }

/-! ## The code of a burst (R599) -/

/-- A field element times alpha. -/
def gf16Double (a : Nat) : Nat :=
  if a < 32768 then 2 * a else (2 * a - 65536) ^^^ (Config.dramFieldPoly % 65536)

/-- alpha^n times a field element. -/
def gf16Shift : Nat → Nat → Nat
  | 0, a => a
  | n + 1, a => gf16Double (gf16Shift n a)

/-- The two syndromes of a codeword: the sum of its symbols, and the sum of alpha^i times symbol i. -/
def dramSyndromes (cw : List (BitVec 16)) : Nat × Nat :=
  (List.range 10).foldl (fun a i =>
    let x := (cw.getD i 0).toNat
    (a.1 ^^^ x, a.2 ^^^ gf16Shift i x)) (0, 0)

/-- What the syndromes of one codeword say: no error, the symbol of one device, or anything else. -/
inductive RsFinding where
  | clean
  | device (d : Nat)
  | other
  deriving DecidableEq, Repr

/-- The device whose symbol alone explains the syndromes of a codeword. -/
def rsFinding (cw : List (BitVec 16)) : RsFinding :=
  let y := dramSyndromes cw
  if y = (0, 0) then .clean
  else match (List.range 10).find? fun i => decide (y.1 ≠ 0) && decide (gf16Shift i y.1 = y.2) with
    | some i => .device i
    | none => .other

/-- What an access finds: no error, one device corrected, or more than the code corrects. -/
inductive BurstFinding where
  | clean
  | corrected (dev : Nat)
  | uncorrectable
  deriving DecidableEq, Repr

/-- A correction is accepted only when every one of the four codewords that needs one locates the same device; any other pattern is
uncorrectable. A channel that decodes with a device as an erasure rebuilds its symbols and corrects nothing else (R599, R600). -/
def burstFinding (erasure : Option Nat) (burst : List (List (BitVec 16))) : BurstFinding :=
  let fs := ((List.range 4).map fun g => rsFinding (burst.getD g [])).filter fun f => decide (f ≠ .clean)
  match fs with
  | [] => .clean
  | .device d :: _ =>
    if fs.all fun f => decide (f = .device d) then
      match erasure with
      | none => .corrected d
      | some e => if e = d then .clean else .uncorrectable
    else .uncorrectable
  | _ => .uncorrectable

/-! ## Errors (R600 to R603) -/

/-- A corrected error of one device: counted, recorded, written back unless a write came since the read, and the 16th
of one device within 1 h declares it failed (R600, R601). -/
def dramCorrected (c dev : Nat) (written : Bool) (s : State) : State :=
    let recent := ((chanOf s c).corrections.filter fun e => decide (now s < e.1 + hourNs)) ++ [(now s, dev)]
    let s := modChan c (fun x => { x with ce := satAdd 0xFFFF x.ce 1, corrections := recent }) s
    let s := if written then s else emit (.dram c 0 0) s
    let s := correctedEvent (chanSrc c) .dram (record 0x0E01 (chanSrc c) [] s)
    if 16 ≤ (recent.filter fun e => e.2 = dev).length then
      recordAlert 0x0E03 (chanSrc c) [dev] 
        (modChan c (fun x => { x with deviceFailed := true, failedDev := dev, erasure := some dev }) s)
    else s

/-- An uncorrectable read: counted and recorded, and what the requester's rule says (R602). With a recoverable source
the channel's element is contained (R645); otherwise its rows are tested. A write-log sector whose peer copy fails too
is marked lost by the assembly (R309, R389); a table line with no other copy stops the head. -/
def dramUncorrectable (c : Nat) (r : DramReader) (s : State) : State :=
  let s := modChan c (fun x => { x with ue := satAdd 0xFF x.ue 1 }) s
  let s := record 0x0E02 (chanSrc c) [] { s with drc.ueSeen := true }
  match r with
  | .bar2 ep => addTest (chanSrc c) .dram false (emit (.completerAbort ep) s)
  | .digest => addTest (chanSrc c) .dram false (digClear 1 stNotReady s)
  | .scrub => addTest (chanSrc c) .dram false s
  | .logFrame peerCopy => if peerCopy then contain (chanSrc c) .dram s else addTest (chanSrc c) .dram false s
  | .table copy => if copy then contain (chanSrc c) .dram s else failstop 6 (chanSrc c) s

/-- A read of one burst of channel `c`: what its code finds is corrected and counted, or ends with error for its requester (R599 to
R602). -/
def dramRead (c : Nat) (burst : List (List (BitVec 16))) (r : DramReader) (written : Bool) (s : State) : State :=
  match burstFinding (chanOf s c).erasure burst with
  | .clean => s
  | .corrected dev => dramCorrected c dev written s
  | .uncorrectable => dramUncorrectable c r s

/-- DRAM_CE on channel `c`: the burst as it came from the devices, its requester, and whether a write to the line has come since
(R599 to R601). -/
def execDramCe (c : Nat) (read : DramBurst) (written : Bool) (s : State) : Host.Outcome State Fault Refusal :=
  if alive s then .next (dramRead c read.burst read.reader written s) else .next s

/-- DRAM_UE on channel `c` (R599, R602). -/
def execDramUe (c : Nat) (read : DramBurst) (s : State) : Host.Outcome State Fault Refusal :=
  if alive s then .next (dramRead c read.burst read.reader false s) else .next s

/-- The patrol scrub reads one line of channel `c` (R601). -/
def execPatrolScrub (c : Nat) (burst : List (List (BitVec 16))) (written : Bool) (s : State) : Host.Outcome State Fault Refusal :=
  if alive s then .next (dramRead c burst .scrub written (emit (.dram c 7 0) s)) else .next s

/-- A CA parity alert on channel `c`: replay, and after 3 replays of one alert a retraining; `again` says that the
replay of the present alert failed (R603). -/
def execCaParityAlert (c : Nat) (again : Bool) (s : State) : Host.Outcome State Fault Refusal :=
  if alive s then
    let n := if again then (chanOf s c).caReplays else 0
    if n < 3 then .next (emit (.dram c 4 0) (modChan c (fun x => { x with caReplays := n + 1 }) s))
    else .next (modChan c (fun x => { x with caReplays := 0, retrain := true }) s)
  else .next s

/-! ## Requests (R604, R606, R607, R610) -/

/-- Channel sets of R597 by NC: channels in index order, a, b. -/
def chanSet (pop : Nat) : List Nat × Nat × Nat :=
  match pop with
  | 1 => ([0, 3, 6, 9], 2, 0)
  | 2 => ([0, 2, 4, 6, 8, 10], 1, 1)
  | 3 => ([0, 1, 3, 4, 6, 7, 9, 10], 3, 0)
  | 4 => ([0, 1, 2, 3, 4, 5, 6, 7, 8, 9, 10, 11], 2, 1)
  | _ => ([], 0, 0)

/-- Where a DRAM address lies in the population in use, with its channel; none outside the DRAM space (R604). -/
def placeOf (s : State) (pa : Nat) : Option (Nat × DramPlace) :=
  let g := chanSet s.drc.pop
  let big := s.drc.chans.any fun c => c.used && c.type256
  if pa < g.1.length * (if big then 256 else 128) * 2 ^ 30 then
    let x := dramMap s.drc g.2.1 g.2.2 (if big then 3 else 1) pa
    (g.1[x.chan]?).map fun c => (c, x)
  else none

/-- A bank of a channel as one number. -/
def bankOf (x : DramPlace) : Nat := ((x.sub * 8 + x.rank) * 8 + x.bg) * 4 + x.ba

/-- A request arrives and waits; FORCE_CLOSE and OPEN_MAX are those of its arrival (R606). -/
def dramArrive (s : State) (a : DramAsk) : State :=
  (placeOf s a.pa).elim s fun p =>
    modChan p.1 (fun y => { y with reqs := y.reqs ++
      [{ bank := bankOf p.2, row := p.2.row, src := a.src, keepOpen := a.keepOpen && !s.drc.forceClose, limit := 10 * s.drc.openMax
         arrived := now s }] }) s

/-- Number of the 32 ms window that runs (R610). -/
def rhWindow (s : State) : Nat := now s / 32000000

/-- A bank's counts and throttles end with their window (R610). -/
def rhFresh (s : State) (c bank : Nat) : State :=
  if (chanOf s c).windows.contains (bank, rhWindow s) then s
  else modChan c (fun x =>
    { x with windows := (x.windows.filter fun w => w.1 ≠ bank) ++ [(bank, rhWindow s)]
             rows := x.rows.filter fun r => r.bank ≠ bank, rhThrottles := x.rhThrottles.filter fun r => r.bank ≠ bank }) s

/-- A bank's open row closes. -/
def closeRow (c bank : Nat) (s : State) : State :=
  if (chanOf s c).openRows.any fun r => r.bank = bank then
    emit (.dram c 3 bank) (modChan c (fun x => { x with openRows := x.openRows.filter fun r => r.bank ≠ bank }) s)
  else s

/-- The row of a request is open. -/
def rowHit (x : Chan) (r : DramReq) : Bool := x.openRows.any fun o => decide (o.bank = r.bank) && decide (o.row = r.row)

/-- A throttled requester makes one activate per THROTTLE_US on the bank (R610). -/
def rhWaits (s : State) (x : Chan) (r : DramReq) : Bool :=
  !rowHit x r && x.rhThrottles.any fun t => decide (t.bank = r.bank) && decide (t.src = r.src) &&
    t.last.any fun l => decide (now s < l + 1000 * s.drc.throttleUs)

/-- Distance of a requester from the one that a bank granted last, going round (R607). -/
def rrDistance (last : Option Nat) (src : Nat) : Nat := match last with | some l => (src + 2 ^ 24 - l - 1) % 2 ^ 24 | none => src

/-- The request that a channel grants next: the oldest of a bank, those of one cycle round-robin by requester, whichever would hit the
open row (R607). -/
def nextReq (s : State) (c : Nat) : Option DramReq :=
  let x := chanOf s c
  leastBy (fun r => r.arrived * 2 ^ 24 + rrDistance ((x.granted.find? fun g => g.1 = r.bank).map (·.2)) r.src)
    (x.reqs.filter fun r => !rhWaits s x r)

/-- Activates of a row: requester `src` has one more. -/
def countActivate (src : Nat) (l : List (Nat × Nat)) : List (Nat × Nat) :=
  let n := ((l.find? fun r => r.1 = src).map (·.2)).getD 0
  (l.filter fun r => r.1 ≠ src) ++ [(src, n + 1)]

/-- Activates of a row in all. -/
def activates (r : RowCount) : Nat := (r.req.map (·.2)).sum

/-- A row is among the 32 most activated of its bank (R610). -/
def among32 (x : Chan) (r : RowCount) : Bool :=
  decide (((x.rows.filter fun y => decide (y.bank = r.bank) && decide (activates r < activates y)).length) < 32)

/-- A row has reached RH_THRESHOLD: RFMsb goes to its bank, its open row closes, and the requesters with the most activates are
throttled until the window ends, each with record 0x0E04 (R606, R610). -/
def rhTrip (c : Nat) (r : RowCount) (s : State) : State :=
  let top := (r.req.map (·.2)).foldl max 0
  let hot := (r.req.filter fun q => q.2 = top).filter fun q =>
    !((chanOf s c).rhThrottles.any fun t => decide (t.bank = r.bank) && decide (t.src = q.1))
  let s := closeRow c r.bank (emit (.dram c 2 r.bank) s)
  let s := modChan c (fun x => { x with rows := x.rows.map fun y => if y.bank = r.bank ∧ y.row = r.row then { y with hit := true } else y }) s
  hot.foldl (fun s q => record 0x0E04 q.1 [c, r.bank, r.row]
    (modChan c (fun x => { x with rhThrottles := x.rhThrottles ++ [{ bank := r.bank, src := q.1, last := some (now s) }] }) s)) s

/-- An activate of a row for a requester: counted in the bank's rolling count where the DIMM requires RFM, and among the row's
activates of the window (R609, R610). -/
def dramActivate (c : Nat) (r : DramReq) (s : State) : State :=
  let x := chanOf s c
  let same (y : RowCount) : Bool := decide (y.bank = r.bank) && decide (y.row = r.row)
  let was := (x.rows.find? same).getD { RowCount.reset with bank := r.bank, row := r.row }
  let new := { was with req := countActivate r.src was.req }
  let roll := ((x.rolling.find? fun p => p.1 = r.bank).map (·.2)).getD 0
  let s := modChan c (fun x =>
    { x with rows := (x.rows.filter fun y => !same y) ++ [new]
             rolling := if x.rfm then (x.rolling.filter fun p => p.1 ≠ r.bank) ++ [(r.bank, roll + 1)] else x.rolling
             rhThrottles := x.rhThrottles.map fun t => if t.bank = r.bank ∧ t.src = r.src then { t with last := some (now s) } else t }) s
  if s.drc.rhThreshold ≤ activates new ∧ ¬ new.hit ∧ among32 (chanOf s c) new then rhTrip c new s else s

/-- A request is granted: another open row of its bank closes, its row is activated unless it is open, and it stays open after an OPEN
access alone (R606, R607). -/
def dramGrantOne (c : Nat) (r : DramReq) (s : State) : State :=
  let s := rhFresh s c r.bank
  let hit := rowHit (chanOf s c) r
  let s := if hit then s else closeRow c r.bank s
  let s := emit (.dramGrant c r.bank r.row r.src (!hit) (!r.keepOpen)) (modChan c (fun x =>
    { x with reqs := x.reqs.eraseP (· = r), granted := (x.granted.filter fun g => g.1 ≠ r.bank) ++ [(r.bank, r.src)]
             openRows := (x.openRows.filter fun o => o.bank ≠ r.bank) ++
               if r.keepOpen then [{ bank := r.bank, row := r.row, last := now s, limit := r.limit }] else [] }) s)
  if hit then s else dramActivate c r s

/-- A channel in service grants what waits, at most `n` requests; one that retrains lets them wait (R607, R612). -/
def dramGrants (c : Nat) : Nat → State → State
  | 0, s => s
  | n + 1, s =>
    if (chanOf s c).retrain then s
    else match nextReq s c with
      | some r => dramGrants c n (dramGrantOne c r s)
      | none => s

/-- Grant what waits on a channel. -/
def dramServe (c : Nat) (s : State) : State := dramGrants c (chanOf s c).reqs.length s

/-- Requests reach the controllers in one cycle and are granted; a row that their activates bring to RH_THRESHOLD has its requester
throttled (R604, R606, R607, R610). -/
def execRhThrottle (pa src : Nat) (keepOpen : Bool) (more : List DramAsk) (s : State) : Host.Outcome State Fault Refusal :=
  let asks : List DramAsk := { pa := pa, src := src, keepOpen := keepOpen } :: more
  if alive s then .next ((List.range 12).foldl (fun s c => dramServe c s) (asks.foldl dramArrive s)) else .next s

/-- The 32 ms window of a bank has ended: its counts start again and its throttles are lifted (R610). -/
def execRhWindowEnd (c bank : Nat) (s : State) : Host.Outcome State Fault Refusal :=
  if alive s then .next (dramServe c (rhFresh s c bank)) else .next s

/-- OPEN_MAX has elapsed since the last access to an open row: it closes (R606). -/
def execRowClose (c bank : Nat) (s : State) : Host.Outcome State Fault Refusal :=
  if alive s && (chanOf s c).openRows.any fun o => decide (o.bank = bank) && decide (o.last + o.limit ≤ now s) then .next (closeRow c bank s)
  else .next s

/-! ## Refresh and RFM (R608, R609) -/

/-- The set of a band is valid (R612). -/
def setValid (x : Chan) (b : Nat) : Bool := x.sets.any fun d => d.band = b

/-- At a refresh, with no request in flight, the channel switches to the set of its band and takes an adjustment of the set in use
(R612). -/
def refreshSets (c : Nat) (s : State) : State :=
  let x := chanOf s c
  let s := match x.drift with
    | some l => modChan c (fun x => { x with drift := none, sets := x.sets.map fun d => if d.band = x.setBand then { d with lanes := l } else d }) s
    | none => s
  if x.setBand ≠ x.band ∧ setValid x x.band ∧ ¬ x.retrain then emit (.dram c 6 0) (modChan c (fun x => { x with setBand := x.band }) s)
  else s

/-- tREFI, halved while the DIMM is above 85 degC, ns (R608). -/
def refInterval (x : Chan) : Nat := if 1360 < x.temp.toInt then 1950 else 3900

/-- A same-bank refresh of bank `bank` is due: granted, with those postponed before it, or postponed for pending
requests while JESD79-5 permits it, which the sender attests. Its open row closes (R606, R608). -/
def execDramRefresh (c bank : Nat) (postpone : Bool) (s : State) : Host.Outcome State Fault Refusal :=
  let due := ((chanOf s c).refAt.find? fun r => r.1 = bank).all fun r => decide (r.2 + refInterval (chanOf s c) ≤ now s)
  if s.glb.held || !due then .next s
  else
    let s := modChan c (fun x => { x with refAt := (x.refAt.filter fun r => r.1 ≠ bank) ++ [(bank, now s)] }) s
    if postpone then .next (modChan c (fun x => { x with postponed := x.postponed + 1 }) s)
    else .next (refreshSets c (emit (.dram c 1 bank) (closeRow c bank (modChan c (fun x => { x with postponed := 0 }) s))))

/-- A bank's rolling activate count has reached RAAIMT: RFMsb, after which the count is `left`, as JESD79-5 defines it; the bank's open
row closes (R606, R609). A DIMM whose SPD does not require RFM gets none. -/
def execRfm (c bank left : Nat) (s : State) : Host.Outcome State Fault Refusal :=
  if alive s && (chanOf s c).rfm then
    .next (emit (.dram c 2 bank)
      (closeRow c bank (modChan c (fun x => { x with rolling := (x.rolling.filter fun r => r.1 ≠ bank) ++ [(bank, left)] }) s)))
  else .next s

/-! ## Temperature and delay sets (R611, R612) -/

/-- Band of a temperature in 1/16 degC (R611). -/
def bandOf (t : Int) : Nat := if t < 720 then 0 else if t < 1040 then 1 else if t < 1360 then 2 else 3

/-- Lower boundary of band `b`, 1/16 degC (R611). -/
def bandLow (b : Nat) : Int := [-100000, 720, 1040, 1360].getD b 0

/-- Upper boundary of band `b`, 1/16 degC (R611). -/
def bandHigh (b : Nat) : Int := [720, 1040, 1360, 100000].getD b 0

/-- A band is left only once the temperature is 2 degC past its boundary (R611). -/
def nextBand (b : Nat) (t : Int) : Nat := if bandHigh b + 32 ≤ t ∨ t ≤ bandLow b - 32 then bandOf t else b

/-- THERMAL_THROTTLE follows the channels above 95 degC (R611). -/
def thermalOf (d : Drc) : Bool := d.chans.any (·.throttled)

/-- The DIMM sensors of channel `c` read `t` at the hottest, in 1/16 degC (R611). A band whose set is not valid asks
for a retraining (R612). -/
def execDimmTempRead (c : Nat) (t : Int) (s : State) : Host.Outcome State Fault Refusal :=
  if alive s then
    let x := chanOf s c
    let b := nextBand x.band t
    let tooHot := decide (1520 < t)
    let hot := decide (1600 < t)
    let since := if hot then some (x.hotSince.getD (now s)) else none
    let s := modChan c (fun x =>
      { x with temp := BitVec.ofInt 16 t, band := b, throttled := tooHot, hotSince := since,
               retrain := x.retrain || (decide (b ≠ x.band) && !setValid x b) }) s
    let s := { s with drc.thermal := thermalOf s.drc }
    let s := if tooHot && !x.throttled then recordAlert 0x0E05 (chanSrc c) [] s else s
    match since with
    | some f => if f + 1000000000 ≤ now s then .next (failstop 6 (chanSrc c) s) else .next s
    | none => .next s
  else .next s

/-- Channel `c` switches to the set of its band at a refresh, or is retrained into it with the words `lanes` when it waits for a
retraining; the lowest waiting channel goes first, and the requests that waited are granted (R603, R612). -/
def execDramRetrain (c : Nat) (lanes : List (BitVec 32)) (s : State) : Host.Outcome State Fault Refusal :=
  if alive s then
    let x := chanOf s c
    if x.retrain then
      if (List.range c).any fun d => (chanOf s d).retrain then .next s
      else
        let new : DelaySet := { band := x.band, lanes := lanes.take 20 }
        let s := modChan c (fun x =>
          { x with retrain := false, setBand := x.band, drift := none, sets := (x.sets.filter fun d => d.band ≠ x.band) ++ [new] }) s
        .next (dramServe c (record 0x0E07 (chanSrc c) [] (emit (.dram c 5 0) s)))
    else .next (refreshSets c s)
  else .next s

/-- The DQS oscillator of channel `c` reads a drift in 1/64 UI: beyond 1/16 UI the active set is adjusted in place to
the words `lanes` at the next refresh (R612). -/
def execDqsDriftCheck (c drift : Nat) (lanes : List (BitVec 32)) (s : State) : Host.Outcome State Fault Refusal :=
  if alive s && decide (4 < drift) then
    .next (modChan c (fun x => { x with drift := some (lanes.take 20) }) s)
  else .next s

/-! ## Registers (R615 to R618) -/

/-- The word that DRC_DLY_SEL selects, 0 where no valid entry is named (R617). -/
def delayWord (d : Drc) (sel : BitVec 32) : BitVec 32 :=
  let x := d.chans.getD (fld sel 0 4) Chan.reset
  match x.sets.find? fun e => e.band = fld sel 4 2 with
  | some e => e.lanes.getD (fld sel 6 5) 0
  | none => 0

/-- Write of DRC_DLY_SEL (R617). -/
def delaySelect (w : BitVec 32) (s : State) : State :=
  let sel := w &&& 0x7FF
  { s with drc.dlySel := sel, drc.dlyData := delayWord s.drc sel }

/-- A write of DRC_DLY_SEL latches the selected entry into DRC_DLY_DATA (R617). -/
def execDelaySelect (w : BitVec 32) (s : State) : Host.Outcome State Fault Refusal :=
  if hostWriteOk s 0x0E then .next (delaySelect w s) else .next s

/-- Write of another DRC register at an offset within the block: the settings of R616 and the RW1C bits of R615. -/
def drcWrite (off : Nat) (w : BitVec 32) (s : State) : State :=
  if off = 0x00 then
    { s with drc.ueSeen := s.drc.ueSeen && !bitOf w 29, drc.cfgErr := s.drc.cfgErr && !bitOf w 30 }
  else if off = 0x40 then
    let m := fld w 8 7
    if 1 ≤ m ∧ m ≤ 100 then noteMapChange { s with drc.forceClose := bitOf w 0, drc.openMax := m }
    else { s with drc.cfgErr := true }
  else if off = 0x44 then
    let t := fld w 0 16
    let u := fld w 16 7
    if 512 ≤ t ∧ t ≤ 32768 ∧ 1 ≤ u ∧ u ≤ 100 then noteMapChange { s with drc.rhThreshold := t, drc.throttleUs := u }
    else { s with drc.cfgErr := true }
  else if off = 0x60 then delaySelect w s
  else s

end Sys2Proof.Machine
end

