-- ==== Sys2Proof/Machine/Endpoint.lean ====
section
/-!
DEFINITION. The PCIe host endpoint (chapter 06): links and resets, held queues, translation windows, BAR2 requests, and
the MSI-X table.
-/
namespace Sys2Proof.Machine

/-- An endpoint after CHIP_RST_L, its limits those of the bifurcation mode (R181, R206). -/
def freshEp (s : State) : Endpoint := { Endpoint.reset with maxTags := tagLimit s, maxKib := bufferKib s }

/-- The configuration space returns to its defaults (R199). Which values those are R183 and R184 leave to the PCIe Base Specification
(PRESUMED, log entry 90). -/
def cfgDefaults (e : Endpoint) : Endpoint :=
  let d := Endpoint.reset
  { e with mse := d.mse, bme := d.bme, d3 := d.d3, msixEn := d.msixEn, msixMask := d.msixMask, msiEn := d.msiEn, msiVecs := d.msiVecs
           tenBit := d.tenBit, extTag := d.extTag, maxReadReq := d.maxReadReq, maxPayload := d.maxPayload, relaxed := d.relaxed
           serr := d.serr, errEn := d.errEn, msiAddr := d.msiAddr, msiData := d.msiData, msiMask := d.msiMask
           bar0 := d.bar0, bar2 := d.bar2, bar4 := d.bar4, aerUnc := d.aerUnc, aerCor := d.aerCor, uncMask := d.uncMask
           uncSev := d.uncSev, corMask := d.corMask }

/-- The link is lost: what was asked and not answered is asked again after it returns, and the last `unacked` posted requests, which
the data link layer has not acknowledged, are sent again (R199, R201). -/
def linkLost (unacked : Nat) (e : Endpoint) : Endpoint :=
  { cfgDefaults e with
    linkUp := false, speed := 0, width := 0, flit := false, reads := [], posted := lastN unacked e.posted
    engineWait := (e.reads.filter fun r => r.kind ≠ 2) ++ e.engineWait
    dataWait := (e.reads.filter fun r => r.kind = 2) ++ e.dataWait }

/-- The queue is one of endpoint `ep`. -/
def queueOn (ep : Nat) : QueueId → Bool
  | .ring e _ => decide (e = ep)
  | .channel _ => false

/-- Queues of an endpoint are held exactly while it issues no requests (R200). -/
def setHeld (ep : Nat) (s : State) : State :=
  let h := epHeld (epOf s ep)
  { s with dcq.queues := s.dcq.queues.map fun q => if queueOn ep q.id then { q with held := h } else q }

/-- A vector may be sent: the endpoint is not held, its interrupts are enabled, and the vector is not masked (R200, R203, R204). -/
def vecFree (s : State) (ep v : Nat) : Bool :=
  let e := epOf s ep
  !epHeld e && vecEnabled s e && !vecMasked e v

/-- Vector `v` is sent when it is pending and may be; else it stays pending (R200, R204). -/
def sendPendingVec (ep v : Nat) (s : State) : State :=
  if (epOf s ep).pba.getD v false && vecFree s ep v then
    raiseVec ep v (modEp ep (fun e => { e with pba := e.pba.set v false }) s)
  else s

/-- Every pending vector that may be sent is sent (R200, R204). -/
def sendPending (ep : Nat) (s : State) : State := (List.range 257).foldl (fun s v => sendPendingVec ep v s) s

/-- The link has returned: the posted requests that were not acknowledged go out again (R201). -/
def resendPosted (ep : Nat) (s : State) : State := (epOf s ep).posted.foldl (fun s w => sendPost ep w s) s

/-- After a change of the endpoint: its queues are held, or resume where they stopped, data before completions (R200). -/
def resumeEp (ep : Nat) (s : State) : State :=
  let s := setHeld ep s
  if epHeld (epOf s ep) then s
  else
    let ws := (epOf s ep).heldWrites
    let s := modEp ep (fun e => { e with heldWrites := [] }) s
    let s := ws.foldl (fun s w => hostWriteReq ep w.1 w.2 s) s
    let s := issueReads ep s
    let ids := (s.dcq.queues.map (·.id)).filter (queueOn ep)
    sendPending ep (ids.foldl (fun s id => releaseQueue id s) s)

/-! ## Resets and enables (R199 to R203) -/

/-- A command of a deleted queue ends without a completion: a write not admitted is dropped, an admitted one goes on; a
FIXITY leaves the digest service (R202). -/
def endSilently (c : Cmd) (s : State) : State :=
  let s := if s.dig.cmd = some (c.q, c.tag) && !s.dig.remote then digIdle 0 s else s
  if c.st = .admitted then s else dropWrite c s

/-- No queue: what a write-log frame names once the queue of its write is deleted. -/
def noQueue : QueueId := .ring 4 0

/-- PE_PERST_L freezes and deletes the queues of an endpoint: each writes 0x0501, with its event, and 0x0505 (R240, R246). -/
def perstQueues (ep : Nat) (s : State) : State :=
  (s.dcq.queues.filter fun q => queueOn ep q.id).foldl (fun s q =>
    record 0x0505 queueSrc [ep, queueNum q.id, 1] (frozenEvent ep (queueNum q.id) s)) s

/-- PE_PERST_L resets one endpoint (R199, R202). -/
def perstEp (ep : Nat) (s : State) : State :=
  let e := epOf s ep
  let s := perstQueues ep s
  let s := modEp ep (fun _ =>
    { freshEp s with winGen := e.winGen + 1, inFlight := e.inFlight, linkDowns := e.linkDowns, hotResets := e.hotResets }) s
  let s := (s.dcq.cmds.filter fun c => queueOn ep c.q && !c.remote).foldl (fun s c => endSilently c s) s
  let s := { s with
    dcq.cmds := s.dcq.cmds.filter fun c => !(queueOn ep c.q && !c.remote)
    dcq.queues := s.dcq.queues.filter fun q => !queueOn ep q.id
    dcq.async := s.dcq.async.filter fun x => !queueOn ep x.1
    dcq.adm := s.dcq.adm.set ep AdminCtl.reset
    wlg.frames := s.wlg.frames.map fun f => if queueOn ep f.q && decide (f.origin < 6) then { f with q := noQueue } else f }
  if s.sec.lockHeld && decide (s.sec.lockEp = ep) then csUnlock s else s

/-- PE_PERST_L is asserted, low for 1 us or longer (R720): every endpoint is reset, its queues deleted, and record 0x0403 is written (R199, R202). -/
def execPePerstL (s : State) : Host.Outcome State Fault Refusal :=
  if s.glb.held then .next s
  else
    let s := (List.range (numEps s)).foldl (fun s ep => perstEp ep s) { s with hostLatch := [], hostStage := [] }
    .next (settleRetains (record 0x0403 (epSrc 0) [] s))

/-- PE_PERST_L is deasserted: the endpoints may train (R140, R199). -/
def execPePerstLDeassert (s : State) : Host.Outcome State Fault Refusal :=
  if s.glb.held then .next s else .next { s with eps := s.eps.map fun e => { e with inReset := false } }

/-- A hot reset is received: the link retrains, configuration space has its defaults, queues are held (R199, R202). It counts as a hot
reset, and not as a link down besides (R207, log entry 90). -/
def execHotReset (drop : LinkLoss) (s : State) : Host.Outcome State Fault Refusal :=
  let ep := drop.ep
  if epInUse s ep && (epOf s ep).linkUp then
    let s := modEp ep (fun e => { linkLost drop.unacked e with hotResets := satAdd 65535 e.hotResets 1 }) s
    .next (record 0x0402 (epSrc ep) [ep] (setHeld ep s))
  else .next s

/-- The link of an endpoint goes down other than through a reset (R199, R201, R207, R208). -/
def epLinkDown (ep unacked : Nat) (s : State) : State :=
  let s := modEp ep (fun e => { linkLost unacked e with linkDowns := satAdd 65535 e.linkDowns 1 }) s
  record 0x0408 (epSrc ep) [ep] (setHeld ep s)

/-- LINK_DOWN (R201). -/
def execLinkDown (drop : LinkLoss) (s : State) : Host.Outcome State Fault Refusal :=
  if epInUse s drop.ep && (epOf s drop.ep).linkUp then .next (epLinkDown drop.ep drop.unacked s) else .next s

/-- What a link can train to: a rate up to the cap of the HOST section, a width within the endpoint's lanes, and Flit mode at 64.0 GT/s
(R180, R181, R205). -/
def linkForm (s : State) (speed width : Nat) (flit : Bool) : Bool :=
  decide (1 ≤ speed) && decide (speed ≤ if s.img.applied then s.img.host.maxRate else 6) &&
    [1, 2, 4, 8, 16].contains width && decide (width ≤ epLanes s) && (decide (speed < 6) || flit)

/-- The link comes up with a speed code, a width and its mode, once HOST_EP is set and PE_PERST_L is high (R140, R205, R208). The posted
requests that were not acknowledged go out again (R201). -/
def execLinkUp (ep speed width : Nat) (flit : Bool) (s : State) : Host.Outcome State Fault Refusal :=
  if epInUse s ep && s.glb.hostEp && !(epOf s ep).inReset && !(epOf s ep).linkUp && decide (ctlState s (epSrc ep) = .run) &&
      linkForm s speed width flit then
    let s := resendPosted ep (modEp ep (fun e => { e with linkUp := true, speed := speed, width := width, flit := flit }) s)
    .next (resumeEp ep (record 0x0401 (epSrc ep) [ep, speed, width] s))
  else .next s

/-- The endpoint enters D3hot: its queues are held (R199, R200). -/
def execD3hot (ep : Nat) (s : State) : Host.Outcome State Fault Refusal :=
  if epInUse s ep && (epOf s ep).linkUp then .next (setHeld ep (modEp ep (fun e => { e with d3 := true }) s)) else .next s

/-- The endpoint leaves D3hot; with Bus Master Enable 1 its held work resumes (R200). -/
def execD0Entry (ep : Nat) (s : State) : Host.Outcome State Fault Refusal :=
  if epInUse s ep && (epOf s ep).linkUp then .next (resumeEp ep (modEp ep (fun e => { e with d3 := false }) s)) else .next s

/-- Bus Master Enable is cleared, among other writes of the configuration space: the endpoint's queues are held (R199, R200). -/
def execBusMasterEnableCleared (x : ConfigWrite) (s : State) : Host.Outcome State Fault Refusal :=
  if epInUse s x.ep && (epOf s x.ep).linkUp then
    .next (setHeld x.ep (modEp x.ep (fun e => { configWrites s x.writes e with bme := false }) s))
  else .next s

/-- Bus Master Enable is set, among other writes of the configuration space: held work resumes in D0 (R200, R203). -/
def execBusMasterEnableSet (ep : Nat) (writes : List (Nat × BitVec 32)) (s : State) : Host.Outcome State Fault Refusal :=
  if epInUse s ep && (epOf s ep).linkUp then
    .next (resumeEp ep (modEp ep (fun e => { configWrites s writes e with bme := true }) s))
  else .next s

/-! ## Translation windows (R188 to R193) -/

/-- Window entries an endpoint sees (R188). -/
def localWindows (s : State) : Nat := 64 / numEps s

/-- A commit of an entry is refused (R191). -/
def winRefused (s : State) (w : BitVec 32) (tgt : Nat) : Bool :=
  let size := fld w 8 5
  let space := fld w 16 2
  decide (size < 12) || decide (30 < size) || decide (2 ≤ space) || decide (tgt % 4096 ≠ 0) ||
    decide (spaceSize s space < tgt + 2 ^ size) || (decide (space = 0) && !s.glb.dram) || (decide (space = 1) && !s.glb.sram)

/-- A write of HEP_WIN_CTL commits the entry, or is refused (R190 to R192). -/
def winCommit (ep i : Nat) (w : BitVec 32) (s : State) : State :=
  if i < localWindows s then
    let tgt := (((epOf s ep).windows.getD i Window.reset).reg).toNat
    if winRefused s w tgt then record 0x0406 (epSrc ep) [ep, i] (modEp ep (fun e => { e with winErr := true }) s)
    else
      let set (x : Window) : Window :=
        { x with valid := bitOf w 0, rd := bitOf w 1, wr := bitOf w 2, sizeLog2 := fld w 8 5, space := fld w 16 2, tgt := tgt }
      modEp ep (fun e => { e with windows := e.windows.modify i set, winGen := e.winGen + 1 }) s
  else s

/-- WIN_COMMIT (R190). -/
def execWinCommit (ep i : Nat) (w : BitVec 32) (s : State) : Host.Outcome State Fault Refusal :=
  .next (regWrite ep (0x41008 + 16 * i) (winCommit ep i w) s)

/-- The entry that serves a BAR2 request: the request lies within its range and its kind is permitted (R188, R189). -/
def windowFor (s : State) (ep off len : Nat) (write : Bool) : Option Window :=
  let i := off / 2 ^ 30
  let x := (epOf s ep).windows.getD i Window.reset
  if decide (i < localWindows s) && x.valid && decide (off % 2 ^ 30 + len ≤ 2 ^ x.sizeLog2) && (if write then x.wr else x.rd)
  then some x else none

/-- A BAR2 request is bound to the entry as it stands and served, or is outside the windows (R189, R192, R203); or the oldest
request in flight ends (R193). -/
def execBar2Request (ep : Nat) (ev : Bar2Event) (s : State) : Host.Outcome State Fault Refusal :=
  if epInUse s ep && (epOf s ep).linkUp then
    match ev with
    | .done => .next (modEp ep (fun e => { e with inFlight := e.inFlight.drop 1 }) s)
    | .request off len data stays =>
      match (if memOn s ep then windowFor s ep off len data.isSome else none) with
      | none => .next (outside ep data.isSome ((epOf s ep).bar2 + BitVec.ofNat 64 off) s)
      | some x =>
        let a := x.tgt + off % 2 ^ 30
        let s := if stays then modEp ep (fun e => { e with inFlight := e.inFlight ++ [e.winGen] }) s else s
        match data with
        | none => .next (emit (.readData ep (spaceRead s x.space a len)) s)
        | some bs => .next (spaceWrite x.space a (bs.take len) s)
  else .next s

/-- HEP_WIN_DRAIN: generation of the oldest request in flight, else HEP_WIN_GEN (R193). -/
def winDrain (e : Endpoint) : BitVec 32 := e.inFlight.headD e.winGen

/-! ## The MSI-X table and the Pending Bit Array (R187, R203, R204) -/

/-- A 32-bit word of BAR4 (R187). -/
def bar4Word (e : Endpoint) (off : Nat) : BitVec 32 :=
  if off < 4112 then
    let m := e.msix.getD (off / 16) MsixEntry.reset
    if off % 16 = 0 then lo32 m.addr else if off % 16 = 4 then hi32 m.addr else if off % 16 = 8 then m.data else m.ctl
  else if 0x2000 ≤ off ∧ off < 0x2028 then
    w32 ((List.range 32).foldl (fun n i => n + (if e.pba.getD (8 * (off - 0x2000) + i) false then 2 ^ i else 0)) 0)
  else 0

/-- A write of a 32-bit word of BAR4; the Pending Bit Array takes none (R187). -/
def bar4Write (off : Nat) (w : BitVec 32) (e : Endpoint) : Endpoint :=
  if off < 4112 then
    let set (m : MsixEntry) : MsixEntry :=
      if off % 16 = 0 then { m with addr := join64 (hi32 m.addr) w }
      else if off % 16 = 4 then { m with addr := join64 w (lo32 m.addr) }
      else if off % 16 = 8 then { m with data := w } else { m with ctl := w }
    { e with msix := e.msix.modify (off / 16) set }
  else e

/-- BAR4 is 16 KiB and serves aligned words and doublewords (R187). -/
def bar4Served (off size : Nat) : Bool :=
  decide (off + size ≤ 0x4000) && (decide (size = 4) || decide (size = 8)) && decide (off % size = 0)

/-- A served access to BAR4; a vector that a write unmasks is sent when it is pending (R187, R204). -/
def bar4Access (ep off size : Nat) (data : Option (BitVec 64)) (s : State) : State :=
  match data with
  | none =>
    let e := epOf s ep
    let v := join64 (if size = 8 then bar4Word e (off + 4) else 0) (bar4Word e off)
    emit (.readData ep (leBytes size v.toNat)) { s with hostData := v }
  | some v =>
    let s := modEp ep (fun e => if size = 8 then bar4Write (off + 4) (hi32 v) (bar4Write off (lo32 v) e)
                                else bar4Write off (lo32 v) e) s
    sendPending ep s

/-- An access to BAR4: aligned words and doublewords are served, others refused (R187). -/
def execBar4Access (ep off size : Nat) (data : Option (BitVec 64)) (s : State) : Host.Outcome State Fault Refusal :=
  if epServes s ep then
    if !memOn s ep then .next (outside ep data.isSome ((epOf s ep).bar4 + BitVec.ofNat 64 off) s)
    else if bar4Served off size then .next (bar4Access ep off size data s)
    else .next (accessError ep data.isSome s)
  else .next s

/-- A vector is unmasked, by its entry or (none) by the Function Mask, and its pending message is sent (R204). -/
def execVectorUnmask (ep : Nat) (v : Option Nat) (s : State) : Host.Outcome State Fault Refusal :=
  if epInUse s ep && (epOf s ep).linkUp then
    match v with
    | none => .next (sendPending ep (modEp ep (fun e => { e with msixMask := false }) s))
    | some v =>
      let f (m : MsixEntry) : MsixEntry := { m with ctl := m.ctl &&& 0xFFFFFFFE }
      .next (sendPendingVec ep v (modEp ep (fun e => { e with msix := e.msix.modify v f }) s))
  else .next s

/-! ## The registers of the block (R190, R205 to R207) -/

/-- A host write of a 32-bit HEP register through endpoint `ep`. -/
def hepWrite (ep off : Nat) (w : BitVec 32) (s : State) : State :=
  if off = 0x40000 then
    modEp ep (fun e => { e with winErr := e.winErr && !bitOf w 15, urSeen := e.urSeen && !bitOf w 16,
                                accErr := e.accErr && !bitOf w 17 }) s
  else if off = 0x40018 then
    issueReads ep (modEp ep (fun e =>
      { e with maxTags := max 1 (min (fld w 0 10) (tagLimit s)), maxKib := max 4 (min (fld w 16 9) (bufferKib s)) }) s)
  else if 0x41000 ≤ off ∧ off % 16 = 8 then winCommit ep ((off - 0x41000) / 16) w s
  else s

/-- The commit of HEP_WIN_TGT (R190): decoding does not use it yet. -/
def hepCommit (ep off : Nat) (v : BitVec 64) (s : State) : State :=
  let i := (off - 0x41000) / 16
  if 0x41000 ≤ off ∧ off % 16 = 0 ∧ i < localWindows s then
    modEp ep (fun e => { e with windows := e.windows.modify i fun x => { x with reg := v } }) s
  else s

end Sys2Proof.Machine
end

