-- ==== Sys2Proof/Machine/Media.lean ====
section
/-!
DEFINITION. Media management (chapter 14): codeword reads, suspension, relocation and its switch, garbage collection, wear
levelling, refresh classes, and the MMG registers.
-/
namespace Sys2Proof.Machine

/-! ## Codeword reads (R469, R475 to R477) -/

/-- Source identifier of an LDPC decoder lane (R15). -/
def ldpcSrc (lane : Nat) : Nat := srcId 5 2 lane

/-- The codeword read is of this codeword. -/
def isRead (r : CwRead) (slot die plane block page cw : Nat) : Bool :=
  decide (r.slot = slot) && decide (r.die = die) && decide (r.plane = plane) && decide (r.block = block) &&
  decide (r.page = page) && decide (r.cw = cw)

/-- PARAM of a READ: retry set and signed soft offset (R434). -/
def readParam (retry : Nat) (soft : Int) : BitVec 32 := w32 (retry + 256 * (soft % 16).toNat)

/-- READ of a page's four codewords (R469). -/
def readCmd (r : CwRead) (soft : Int) : DmlCmd :=
  { DmlCmd.reset with opc := 1, die := r.die, planes := BitVec.ofNat 8 (2 ^ r.plane), block := r.block, page := r.page,
                      length := 18432, param := readParam r.retry soft, work := r.work }

/-- Ask for the page with a soft offset, unless the same die read is under way already (R475). -/
def askPage (r : CwRead) (s : State) (soft : Int) : State :=
  let c := readCmd r soft
  let same (x : DmlCmd) : Bool :=
    decide (x.opc = 1) && decide (x.die = c.die) && decide (x.planes = c.planes) && decide (x.block = c.block) &&
    decide (x.page = c.page) && decide (x.param = c.param)
  if ((portOf s r.slot).cmds ++ (portOf s r.slot).waiting).any same then s else dmlIssue r.slot c s

/-- Soft offsets of a step (R475). -/
def stepOffsets (step : Nat) : List Int :=
  if step = 3 then [-2, 2] else if step = 4 then [-4, -1, 1, 4] else [0]

/-- Enter a read's next step and issue its die reads. -/
def putRead (r : CwRead) (s : State) : State :=
  let rest := s.mmg.reads.filter fun x => !isRead x r.slot r.die r.plane r.block r.page r.cw
  (stepOffsets r.step).foldl (askPage r) { s with mmg.reads := rest ++ [r] }

/-- The read has ended. -/
def dropRead (r : CwRead) (s : State) : State := { s with mmg.reads := s.mmg.reads.filter fun x => x ≠ r }

/-- First grain of the codeword in the strip at a member location (R482); 0 outside a data strip. -/
def cwGrain (s : State) (slot die plane block page cw : Nat) : Nat :=
  match stripAt s slot die plane block (page / 65) with
  | some (x, p) => if p < x.k then x.base + 4096 * p + 64 * (page % 65) + 16 * cw else 0
  | none => 0

/-- The retry set after `r` in ascending order, without the ledger's own (R475). -/
def nextSet (own sets from_ : Nat) : Option Nat :=
  (List.range sets).find? fun k => decide (from_ ≤ k) && decide (k ≠ own)

/-- A step's reads fail: the next set or step follows; past step 4 the codeword is reconstructed from parity, record 0x0B04,
and its strip is a rebuild target (R475, R538). -/
def cwFailed (r : CwRead) (lane best : Nat) (s : State) : State :=
  let own := ((ledgerOf s r.slot r.die r.plane r.block).map (·.retrySet)).getD 0
  let sets := leAt (portOf s r.slot).info 46 1
  let soft (s : State) : State := putRead { r with step := 3, retry := best } s
  if r.step = 1 then
    match nextSet own sets 0 with
    | some k => putRead { r with step := 2, retry := k } s
    | none => soft s
  else if r.step = 2 then
    match nextSet own sets (r.retry + 1) with
    | some k => putRead { r with retry := k } s
    | none => soft s
  else if r.step = 3 then putRead { r with step := 4 } s
  else
    let s := record 0x0B04 (ldpcSrc lane) [] { s with mmg.ldpcFails := satAdd (2 ^ 32 - 1) s.mmg.ldpcFails 1 }
    let s := dropRead r s
    match stripAt s r.slot r.die r.plane r.block (r.page / 65) with
    | some (x, p) => addTargets (fun y q => decide (y.serial = x.serial) && decide (q = p)) s
    | none => s

/-- A step's reads succeed: from step 2 the block keeps the set; from step 3 its BER flag is set with record 0x0B03 (R476). -/
def cwDecoded (r : CwRead) (lane : Nat) (s : State) : State :=
  let s := dropRead r s
  let s := if 2 ≤ r.step then modBlock r.slot r.die r.plane r.block (fun l => { l with retrySet := r.retry }) s else s
  if 3 ≤ r.step then
    record 0x0B03 (ldpcSrc lane) [] (modBlock r.slot r.die r.plane r.block (fun l => { l with ber := true })
      { s with mmg.softReads := satAdd (2 ^ 32 - 1) s.mmg.softReads 1 })
  else s

/-- A codeword read starts, or a decoder reports on its present step: it has decoded when what it puts out satisfies every check of H,
and has failed otherwise (R474 to R476). -/
def execCodewordRead (slot die plane block page cw : Nat) (ev : CwEvent) (s : State) : Host.Outcome State Fault Refusal :=
  if alive s then
    match s.mmg.reads.find? (isRead · slot die plane block page cw), ev with
    | none, .begin work =>
      .next (putRead
        { grain := BitVec.toNat (BitVec.ofNat 43 (cwGrain s slot die plane block page cw)), slot := slot, die := die,
          plane := plane, block := block, page := page, cw := cw, step := 1,
          retry := ((ledgerOf s slot die plane block).map (·.retrySet)).getD 0, since := now s, work := work } s)
    | some r, .decoded lane best cw =>
      if ldpcOk cw then .next (eraseFree (cwDecoded r lane s)) else .next (cwFailed r lane best s)
    | some r, .failed lane best => .next (cwFailed r lane best s)
    | _, _ => .next s
  else .next s

/-! ## Suspend and resume (R477) -/

/-- The program or erase of a die that may be suspended: not at its limit, and no erase of a SUSPECT block (R451, R477). -/
def suspendable (s : State) (slot die : Nat) : Option DmlCmd :=
  let m := portOf s slot
  m.cmds.find? fun c =>
    let n := ((m.suspCounts.find? fun x => x.1 = c.tag).map (·.2)).getD 0
    decide (c.die = die) &&
    ((decide (c.opc = 2) && decide (n < leAt m.info 48 1)) ||
     (decide (c.opc = 3) && decide (n < leAt m.info 49 1) &&
      !((ledgerOf s slot die (planeOf c) c.block).any fun l => l.st = .suspect)))

/-- A codeword read of the die has waited since before `t`. -/
def readSince (s : State) (slot die t : Nat) : Bool :=
  s.mmg.reads.any fun r => decide (r.slot = slot) && decide (r.die = die) && decide (r.since ≤ t)

/-- A read has waited 100 us behind a running program or erase. -/
def execSuspendIssue (slot die : Nat) (s : State) : Host.Outcome State Fault Refusal :=
  if alive s && decide (100000 ≤ now s) && readSince s slot die (now s - 100000) &&
      !(s.mmg.suspends.any fun x => decide (x.slot = slot) && decide (x.die = die)) then
    match suspendable s slot die with
    | some c =>
      .next (dmlIssue slot { plainCmd 4 0 with die := die }
        { s with mmg.suspends := s.mmg.suspends ++ [{ slot := slot, die := die, tag := c.tag, at_ := now s }] })
    | none => .next s
  else .next s

/-- No read waits for the die any more, or 2 ms have passed since the SUSPEND. -/
def execResumeIssue (slot die : Nat) (s : State) : Host.Outcome State Fault Refusal :=
  match s.mmg.suspends.find? fun x => decide (x.slot = slot) && decide (x.die = die) with
  | some x =>
    if alive s && (!readSince s slot die (now s) || decide (x.at_ + 2000000 ≤ now s)) then
      .next (dmlIssue slot { plainCmd 5 0 with die := die } s)
    else .next s
  | none => .next s

/-! ## Relocation (R506 to R508) -/

/-- Move one stored object that entries name, once it has been read: it is checked, reconstructed or lost as a read would find it, and
its ciphertext is placed anew (R506). -/
def relocateObject (cause : RelocCause) (media : List StoredRead) (t : TrailerEntry) (s : State) : State :=
  let moving (s : State) : Bool := s.mmg.relocs.any fun r => r.old = t.grain
  let seen := (media.any fun r => r.grain = t.grain.toNat) || (stripeBytes s t.grain.toNat t.len).isSome
  match namers s t.grain.toNat with
  | [] => s
  | (v, _, e) :: _ =>
    match volOf s v with
    | none => s
    | some x =>
      if moving s || !seen then s
      else
        let s := (readStored false v e.chunk x.tenant e 3 media s).2
        if moving s then s
        else match soundBytes s x.tenant t.grain.toNat e.grains media with
          | some b => moveObject t.grain.toNat b t cause s
          | none => s

/-- Give up a stripe of metadata: the next waypoint writes its pages again from DRAM, and its old grains are freed with it; a
stripe of records goes once a newer record is in the anchor rings (R486, R508, R543). -/
def staleMeta (x : Stripe) (s : State) : State :=
  let s := if recordStripe s x.serial then { s with mmg.metaStrips := 256, mmg.wpRequest := true } else s
  noteMapChange (modStripe x.serial (fun x => { x with relocating := true })
    { s with mmg.objPages := s.mmg.objPages.map fun p => if inStripe x p.grain then { p with stale := true } else p })

/-- A stripe is under a relocation job, the copying of a reshape among them (R508, R550). -/
def underJob (s : State) (x : Stripe) : Bool := x.relocating || s.ecp.shadow.any fun p => inStripe x p.1.toNat

/-- Relocate every live object of a stripe; one job at a time holds a stripe (R508). -/
def relocateStripe (serial : BitVec 64) (cause : RelocCause) (media : List StoredRead) (s : State) : State :=
  match stripeOf s serial with
  | none => s
  | some x =>
    if x.st ≠ .complete ∨ underJob s x then s
    else if x.kind = 1 then staleMeta x s
    else
      let s := x.entries.foldl (fun s t => if t.kind = 0 then relocateObject cause media t s else s) s
      modStripe serial (fun x => { x with relocating := s.mmg.relocs.any fun r => r.stripe = serial }) s

/-- Stripes with a strip in a block. -/
def stripesIn (s : State) (l : Ledger) : List (BitVec 64) :=
  (s.ecp.stripes.filter fun x => decide (x.st ≠ .freed) && x.members.any fun m => isBlock l m.slot m.die m.plane m.block).map
    (·.serial)

/-- Relocate every live strip of every stripe with a strip in a block (R515). -/
def relocateBlock (l : Ledger) (cause : RelocCause) (media : List StoredRead) (s : State) : State :=
  (stripesIn s l).foldl (fun s x => relocateStripe x cause media s) s

/-- Every entry of every version that names the old address names the new one, with the method and length of the new object;
seed LOCATIONs and share records follow (R506). -/
def switchAddress (old new : Nat) (s : State) : State :=
  let t := (trailerOf s new).getD TrailerEntry.reset
  let g := BitVec.ofNat 43 new
  let f (e : MapEntry) : MapEntry :=
    if e.method ≠ .zero ∧ e.grain.toNat = old then
      { e with grain := g, grains := t.len, method := if t.method = 0 then .raw else .kernel }
    else e
  let who := namers s old
  let loc := BitVec.ofNat 64 (new + (t.len - 1) * 2 ^ 43)
  let seeds := s.red.spaces.flatMap fun x => (x.slots.filter fun r => locGrain r.location = old).map fun r => (x.tenant, r)
  let shares := s.red.shares.filter fun r => r.grain.toNat = old
  let s := { s with
    red.pages := s.red.pages.map fun p => { p with entries := p.entries.map f }
    red.saturatedAt := s.red.saturatedAt.map fun a => if a.toNat = old then BitVec.ofNat 64 new else a
    wlg.jobs := s.wlg.jobs.map fun j => if (j.hit.map locGrain) = some old then { j with hit := some loc } else j }
  let s := who.foldl (fun s w => sendDelta [deltaEntry w.1 w.2.1 w.2.2.chunk w.2.2.lsn (some (f w.2.2))] s) s
  let s := seeds.foldl (fun s r => putSeed r.1 { r.2 with location := loc } s) s
  shares.foldl (fun s r => putShare new (some r.count) (putShare old none s)) s

/-- The strips of an object's grains are programmed: their trailers have completed (R506). -/
def grainsDone (s : State) (grain len : Nat) : Bool :=
  match stripeAt s grain with
  | none => false
  | some x =>
    decide (x.st = .complete) ||
    ((List.range (len / 4096 + 2)).all fun i =>
      let j := (grain - x.base) / 4096 + i
      decide ((grain - x.base + len - 1) / 4096 < j) || x.trailers.contains j)

/-- End one relocation job: the switch and the old grains' release in one step; with no entry naming the old address the new
grains go instead (R506). -/
def endReloc (r : Reloc) (s : State) : State :=
  let oldLen := match namers s r.old.toNat with | w :: _ => some w.2.2.grains | [] => none
  let s := { s with mmg.relocs := s.mmg.relocs.filter fun x => x ≠ r }
  let s := match oldLen with
    | some n => noteMapChange (freeGrains r.old.toNat n (switchAddress r.old.toNat r.new.toNat s))
    | none => freeGrains r.new.toNat r.len s
  modStripe r.stripe (fun x => { x with relocating := s.mmg.relocs.any fun y => y.stripe = r.stripe }) s

/-- The new strip is programmed: the map engine switches what still names the old address (R506, R507). -/
def execRelocationSwitch (old : Nat) (s : State) : Host.Outcome State Fault Refusal :=
  match s.mmg.relocs.find? fun r => r.old.toNat = old with
  | some r =>
    if alive s && grainsDone s r.new.toNat r.len then .next (settleRetiring (eraseFree (endReloc r s))) else .next s
  | none => .next s

/-! ## Garbage collection and wear levelling (R508, R509) -/

/-- Source of the garbage collector (R15). -/
def gcSrc : Nat := srcId 4 2 0

/-- FREE blocks of a die, and blocks that are not RETIRED. -/
def dieFree (s : State) (slot die : Nat) : Nat × Nat :=
  let l := s.mmg.ledger.filter fun x => decide (x.slot = slot) && decide (x.die = die)
  ((l.filter fun x => x.st = .free).length, (l.filter fun x => x.st ≠ .retired).length)

/-- The victim on a die: the closed stripe with the fewest live grains, the older first, then the lower serial; no stripe with a
strip in a RESERVE or ANCHOR block. One under another job waits for that job (R508). -/
def gcVictim (s : State) (slot die : Nat) : Option Stripe :=
  let kept (m : Member) : Bool := (ledgerOf s m.slot m.die m.plane m.block).any fun l =>
    decide (l.st = .reserve) || decide (l.st = .anchor)
  leastBy (fun x => (x.live * 2 ^ 64 + x.programTime) * 2 ^ 64 + x.serial.toNat)
    (s.ecp.stripes.filter fun x => decide (x.st = .complete) && !(x.members.any kept) && x.members.any fun m => decide (m.slot = slot) && decide (m.die = die))

/-- Garbage collection on a die held: it starts below GC_LOW percent, relocates its victim while admitted, and stops at GC_HIGH
percent (R508). -/
def execGcState (slot die : Nat) (media : List StoredRead) (s : State) : Host.Outcome State Fault Refusal :=
  let (free, all) := dieFree s slot die
  if alive s && dieHeld s slot die then
    if s.mmg.gcDies.contains (slot, die) then
      if s.mmg.gcHigh * all ≤ 100 * free then
        let s := record 0x0B07 gcSrc [] { s with mmg.gcDies := s.mmg.gcDies.filter (· ≠ (slot, die)) }
        .next (if s.mmg.gcDies.isEmpty then endActivity .gc s else s)
      else if s.ecp.running.contains .gc then
        match gcVictim s slot die with
        | some x => .next (relocateStripe x.serial .gc media s)
        | none => .next s
      else .next s
    else if 100 * free < s.mmg.gcLow * all then
      .next (requestActivity .gc (record 0x0B07 gcSrc [] { s with mmg.gcDies := s.mmg.gcDies ++ [(slot, die)] }))
    else .next s
  else .next s

/-- Wear levelling on a die held whose erase spread exceeds WL_SPREAD: the strips of the CLOSED block with the fewest erases go to
the FREE block with the most, which the next strip opened on that die takes, with record 0x0B08, once the arbiter admits it (R509). -/
def execWlMove (slot die : Nat) (media : List StoredRead) (s : State) : Host.Outcome State Fault Refusal :=
  if alive s && dieHeld s slot die then
    let l := s.mmg.ledger.filter fun x => decide (x.slot = slot) && decide (x.die = die)
    if s.mmg.wlSpread < dieSpread s slot die then
      if s.ecp.running.contains .wl then
        match leastBy (·.erases) (l.filter fun x => x.st = .closed),
            leastBy (fun x => 2 ^ 32 - x.erases) (l.filter fun x => x.st = .free) with
        | some cold, some hot =>
          let t := (hot.slot, hot.die, hot.plane, hot.block)
          let s := { s with mmg.wlDies := if s.mmg.wlDies.contains (slot, die) then s.mmg.wlDies else s.mmg.wlDies ++ [(slot, die)],
                            mmg.wlTargets := s.mmg.wlTargets.filter (fun b => !(decide (b.1 = slot) && decide (b.2.1 = die))) ++ [t] }
          .next (relocateBlock cold .wl media (record 0x0B08 gcSrc [] s))
        | _, _ => .next s
      else .next (requestActivity .wl s)
    else if s.mmg.wlDies.contains (slot, die) then
      let s := { s with mmg.wlDies := s.mmg.wlDies.filter (· ≠ (slot, die)) }
      .next (if s.mmg.wlDies.isEmpty then endActivity .wl s else s)
    else .next s
  else .next s

/-! ## Registers (R519 to R522) -/

/-- The ledger entry that a selection names, as eight words; zeros for a block that does not exist (R522). -/
def ledgerWords (sel : BitVec 64) (s : State) : List (BitVec 32) :=
  let w := sel.toNat
  match ledgerOf s (w % 256) (w / 2 ^ 8 % 256) (w / 2 ^ 16 % 4) (w / 2 ^ 32 % 2 ^ 24) with
  | some l => (List.range 8).map fun i => w32 (leAt (ledgerBytes l) (4 * i) 4)
  | none => List.replicate 8 0

/-- A low-half write of MMG_LEDGER_SEL commits the selection and latches the entry (R12, R522). -/
def execLedgerSelect (ep : Nat) (w : BitVec 32) (s : State) : Host.Outcome State Fault Refusal :=
  .next (regWrite ep 0xB1040 (fun s =>
    let sel := join64 (stagedHi s ep 0xB1040 (hi32 s.mmg.ledgerSel)) w
    dropStage ep 0xB1040 { s with mmg.ledgerSel := sel, mmg.ledgerData := ledgerWords sel s }) s)

/-- Settings that R521 accepts together. -/
def settingsOk (m : Mmg) : Bool :=
  decide (500 ≤ m.ea ∧ m.ea ≤ 1500) && decide (-320 ≤ m.tRef ∧ m.tRef ≤ 1280) && decide (-320 ≤ m.tStore ∧ m.tStore ≤ 1600) &&
  decide (m.retEol ≤ m.retFresh) && decide (100 ≤ m.endurance ∧ m.endurance ≤ 1000000) &&
  decide (86400 ≤ m.floor ∧ m.floor ≤ 31536000) && decide (86400 ≤ m.lead ∧ m.lead ≤ 31536000) &&
  decide (m.floor + 2 * m.lead ≤ m.retEol) &&
  decide (5 ≤ m.refreshShare ∧ m.refreshShare ≤ 50) && decide (m.refreshShare ≤ m.overdueShare ∧ m.overdueShare ≤ 90) &&
  decide (2 ≤ m.gcLow ∧ m.gcLow ≤ 20) && decide (m.gcLow + 1 ≤ m.gcHigh ∧ m.gcHigh ≤ 40) &&
  decide (50 ≤ m.wlSpread ∧ m.wlSpread ≤ 2000) && decide (10000 ≤ m.readDisturb ∧ m.readDisturb ≤ 10000000)

/-- A signed 16-bit field. -/
def fldInt (w : BitVec 32) (lo : Nat) : Int := (BitVec.ofNat 16 (fld w lo 16)).toInt

/-- The settings with one register written (R520). -/
def settingsWith (off : Nat) (w : BitVec 32) (m : Mmg) : Mmg :=
  if off = 0x1004 then { m with ea := w.toNat }
  else if off = 0x1008 then { m with tRef := fldInt w 0, tStore := fldInt w 16 }
  else if off = 0x100C then { m with retFresh := w.toNat }
  else if off = 0x1010 then { m with retEol := w.toNat }
  else if off = 0x1014 then { m with endurance := w.toNat }
  else if off = 0x1018 then { m with floor := w.toNat }
  else if off = 0x101C then { m with lead := w.toNat }
  else if off = 0x1020 then { m with refreshShare := fld w 0 8, overdueShare := fld w 8 8, gcLow := fld w 16 8, gcHigh := fld w 24 8 }
  else if off = 0x1024 then { m with wlSpread := w.toNat }
  else if off = 0x1028 then { m with readDisturb := w.toNat }
  else m

/-- Write of a register of the MED block at an offset within it (R463, R519 to R521). -/
def medWrite (off : Nat) (w : BitVec 32) (s : State) : State :=
  if off = 0x0 then { s with med.ctlErr := s.med.ctlErr && !bitOf w 6, med.staleCpl := s.med.staleCpl && !bitOf w 7 }
  else if off = 0x4 then telemCtlWrite w s
  else if off = 0x1000 then { s with mmg.cfgErr := s.mmg.cfgErr && !bitOf w 5 }
  else if 0x1004 ≤ off ∧ off ≤ 0x1028 then
    let m := settingsWith off w s.mmg
    if settingsOk m then noteMapChange { s with mmg := m } else { s with mmg.cfgErr := true }
  else s

end Sys2Proof.Machine
end

