-- ==== Sys2Proof/Machine/ImageCheck.lean ====
section
/-!
DEFINITION. The checks of a configuration image and of a firmware image, and the decoding of the configuration sections
(R153 to R164, R462, R558, R614, R640, R688 to R691).
-/
namespace Sys2Proof.Machine

/-! ## Signature blocks (R162, R163, R690) -/

/-- Bytes of a signature block (R162). -/
def sigLen : Nat := 5472

/-- ECDSA_PUB of a signature block. -/
def sigEcdsaPub (sb : List (BitVec 8)) : List (BitVec 8) := slice sb 8 96

/-- MLDSA_PUB of a signature block. -/
def sigMldsaPub (sb : List (BitVec 8)) : List (BitVec 8) := slice sb 104 1952

/-- Owner digest of the key pair a signature block carries (R163). -/
def sigDigest (sb : List (BitVec 8)) : List (BitVec 8) := Config.sha384 (sigEcdsaPub sb ++ sigMldsaPub sb)

/-- ECDSA_SIG verifies over the message. -/
def ecdsaOk (sb msg : List (BitVec 8)) : Bool := Config.ecdsaVerify (sigEcdsaPub sb) msg (slice sb 2056 96)

/-- MLDSA_SIG verifies over the message. -/
def mldsaOk (sb msg : List (BitVec 8)) : Bool := Config.mldsaVerify (sigMldsaPub sb) msg (slice sb 2152 3309)

/-! ## The configuration image's frame (R153 to R156) -/

/-- SIGBLK_OFF of a configuration image. -/
def cfgSigOff (b : List (BitVec 8)) : Nat := leAt b 20 4

/-- Check 2: the header (R153). -/
def cfgHeaderOk (b : List (BitVec 8)) : Bool :=
  decide (leAt b 0 4 = 0x47464353) && decide (leAt b 4 2 = 1) && decide (leAt b 6 2 = 256) &&
    decide (leAt b 252 4 = (crc32c (b.take 252)).toNat) && decide (leAt b 12 4 = cfgSigOff b + sigLen) &&
    decide (leAt b 12 4 ≤ 4 * 2 ^ 20) && decide (cfgSigOff b % 16 = 0) && decide (256 ≤ cfgSigOff b)

/-- Entry `i` of the section table. -/
def cfgEntry (b : List (BitVec 8)) (i : Nat) : List (BitVec 8) := slice b (256 + 32 * i) 32

/-- Number of sections. -/
def cfgCount (b : List (BitVec 8)) : Nat := leAt b 16 2

/-- TYPE, FLAGS, OFFSET, STORED_LEN, PLAIN_LEN, CRC and SECT_FORMAT of an entry (R154). -/
def entType (e : List (BitVec 8)) : Nat := leAt e 0 2
def entFlags (e : List (BitVec 8)) : Nat := leAt e 2 2
def entOff (e : List (BitVec 8)) : Nat := leAt e 4 4
def entStored (e : List (BitVec 8)) : Nat := leAt e 8 4
def entPlain (e : List (BitVec 8)) : Nat := leAt e 12 4
def entCrc (e : List (BitVec 8)) : Nat := leAt e 16 4
def entFormat (e : List (BitVec 8)) : Nat := leAt e 20 2

/-- The entry lies within the limits of R154 and its CRC matches. -/
def cfgEntryOk (b e : List (BitVec 8)) : Bool :=
  decide (entOff e % 16 = 0) && decide (256 + 32 * cfgCount b ≤ entOff e) && decide (entOff e + entStored e ≤ cfgSigOff b) &&
    decide (entFlags e < 2) && decide (entPlain e ≤ 2 ^ 20) &&
    (decide (entFlags e % 2 = 1) || decide (entPlain e = entStored e)) &&
    decide (entCrc e = (crc32c (slice b (entOff e) (entStored e))).toNat)

/-- Two sections do not overlap. -/
def cfgApart (a b : List (BitVec 8)) : Bool :=
  decide (entOff a + entStored a ≤ entOff b) || decide (entOff b + entStored b ≤ entOff a)

/-- Check 3: the section table and every CRC (R154). -/
def cfgTableOk (b : List (BitVec 8)) : Bool :=
  let n := cfgCount b
  decide (1 ≤ n) && decide (n ≤ 64) && decide (256 + 32 * n ≤ cfgSigOff b) &&
    (List.range n).all fun i => cfgEntryOk b (cfgEntry b i) &&
      (List.range i).all fun j => cfgApart (cfgEntry b j) (cfgEntry b i)

/-- The decoded sections: TYPE, SECT_FORMAT and bytes; none when one does not decode (R156). -/
def cfgSections (b : List (BitVec 8)) : Option (List (Nat × Nat × List (BitVec 8))) :=
  (List.range (cfgCount b)).foldr (fun i acc =>
    let e := cfgEntry b i
    let raw := slice b (entOff e) (entStored e)
    match (if entFlags e % 2 = 1 then dictDecode raw else some raw), acc with
    | some d, some l => if d.length = entPlain e then some ((entType e, entFormat e, d) :: l) else none
    | _, _ => none) (some [])

/-! ## Section contents

A field is given as offset, bytes, least value, greatest value and default; out of its range it takes the default (R157). -/

/-- Fields of the BOARD, POWER, TIME, HOST, NET, DRAM, MEDIA, LOOPS and POLICY sections that have a plain range. -/
def secFields (type : Nat) : List (Nat × Nat × Nat × Nat × Nat) :=
  match type with
  | 1 => [(1, 1, 0, 2, 0), (3, 1, 1, 1, 1), (4, 1, 0, 1, 1), (5, 1, 0, 63, 63), (6, 1, 0, 1, 0), (7, 1, 0, 1, 0)]
  | 3 => [(0, 2, 100, 240, 230), (2, 2, 100, 240, 230), (6, 1, 50, 90, 70), (7, 1, 0, 50, 10), (30, 2, 50, 2000, 200),
          (36, 1, 0, 3, 0)]
  | 4 => [(3, 1, 0, 3, 0), (4, 1, 0, 127, 0), (5, 1, 1, 7, 7), (6, 1, 0, 127, 0), (12, 2, 0, 32767, 0)]
  | 5 => [(0, 1, 1, 6, 6), (1, 1, 1, 64, 4)]
  | 6 => [(0, 1, 0, 63, 26), (1, 1, 0, 7, 3), (2, 2, 256, 1984, 1536), (4, 1, 0, 8, 0)]
  | 7 => [(0, 2, 0, 0xFFF, 0xFFF), (2, 2, 16, 512, 96), (4, 1, 1, 100, 20), (5, 1, 1, 100, 1), (6, 2, 512, 32768, 4096)]
  | 8 => [(0, 8, 0, 2 ^ 48 - 1, 2 ^ 48 - 1), (8, 2, 10, 1000, 100)]
  | 9 => [(0, 4, 0, 2 ^ 24 - 1, 0), (4, 1, 2, 100, 5), (12, 2, 300, 20000, 1000), (14, 2, 10, 200, 40), (16, 2, 10, 2000, 200),
          (18, 2, 1000, 6000, 5000), (20, 2, 960, 1760, 1520), (22, 2, 640, 1440, 1200), (24, 2, 480, 1280, 1040),
          (32, 8, 0, 2 ^ 50 - 1, 0x3FFFFFFFFFFFF), (40, 8, 0, 2 ^ 50 - 1, 0), (48, 8, 0, 2 ^ 50 - 1, 0),
          (56, 8, 0, 2 ^ 50 - 1, 0), (70, 1, 0, 24, 15), (78, 1, 0, 24, 15), (86, 1, 0, 24, 13), (94, 1, 0, 24, 15)]
  | 10 => [(0, 1, 4, 21, 8), (1, 1, 2, 3, 3), (2, 1, 4, 21, 21), (3, 1, 2, 3, 3), (4, 1, 0, 25, 5), (5, 1, 0, 1, 1),
           (6, 2, 0, 65535, 600), (8, 1, 10, 90, 40), (9, 1, 5, 50, 20), (10, 1, 5, 50, 15), (11, 1, 2, 20, 10),
           (12, 1, 5, 50, 10), (13, 1, 1, 20, 5), (14, 1, 0, 10, 2), (15, 1, 20, 90, 60), (18, 2, 0, 3650, 90)]
  | _ => []

/-- POWER fields without a safe default (R158). -/
def powerNeeded : List (Nat × Nat × Nat × Nat) :=
  [(8, 4, 100000, 1000000), (12, 4, 100000, 1000000), (16, 4, 10, 100000), (20, 4, 1000, 1000000), (24, 4, 5000, 100000),
   (28, 2, 5000, 10000), (32, 4, 10000, 5000000), (37, 1, 1, 32)]

/-- A field lies outside its range. -/
def fieldBad (bs : List (BitVec 8)) (f : Nat × Nat × Nat × Nat × Nat) : Bool :=
  decide (leAt bs f.1 f.2.1 < f.2.2.1) || decide (f.2.2.2.1 < leAt bs f.1 f.2.1)

/-- The value in force of the field at an offset. -/
def fieldAt (type : Nat) (bs : List (BitVec 8)) (off : Nat) : Nat :=
  match (secFields type).find? fun f => f.1 = off with
  | some f => if fieldBad bs f then f.2.2.2.2 else leAt bs f.1 f.2.1
  | none => 0

/-- Signed 2- or 4-byte field. -/
def sAt (bs : List (BitVec 8)) (off n : Nat) : Int :=
  let v := leAt bs off n
  if v < 2 ^ (8 * n - 1) then v else (v : Int) - 2 ^ (8 * n)

/-- Endpoints of a BIFUR value (R181). -/
def bifurEps (b : Nat) : Nat := if b = 0 then 1 else if b = 1 then 2 else 4

/-- EP_EN is out of range: a bit at or above the endpoint count is set (R157). -/
def epEnBad (bs : List (BitVec 8)) : Bool := decide (2 ^ bifurEps (fieldAt 1 bs 1) ≤ leAt bs 2 1)

/-- REF_ORDER is out of range: a code above 3, or a reference named twice (R159). -/
def refOrderBad (bs : List (BitVec 8)) : Bool :=
  let o := (List.range 3).map fun i => leAt bs i 1
  o.any (fun x => 3 < x) || (List.range 3).any fun i => (List.range i).any fun j =>
    decide (o.getD i 0 ≠ 0) && decide (o.getD i 0 = o.getD j 0)

/-- A rate or a choice that has no interval: FEED_A_HZ and FEED_B_HZ 50 or 60; AVS_PRERAISE a multiple of 5 from 5 to 50;
XHL_ASYM_PS -300 to 300; CRIT_SHARE from REBUILD_SHARE to 90; lists of bytes each in range. -/
def specialBad (type : Nat) (bs : List (BitVec 8)) : List Nat :=
  let bytesBad (off n hi : Nat) : Bool := (List.range n).any fun i => decide (hi < leAt bs (off + i) 1)
  match type with
  | 1 => if epEnBad bs then [2] else []
  | 3 => (if leAt bs 4 1 ≠ 50 ∧ leAt bs 4 1 ≠ 60 then [4] else []) ++ (if leAt bs 5 1 ≠ 50 ∧ leAt bs 5 1 ≠ 60 then [5] else [])
  | 4 => (if refOrderBad bs then [0] else []) ++ (if sAt bs 8 4 < -300 ∨ 300 < sAt bs 8 4 then [8] else [])
  | 5 => if bytesBad 8 16 10 then [8] else []
  | 7 =>
    (if (List.range 240).any (fun i =>
        let v := leAt bs (64 + i) 1
        !((List.range 4).all fun k => (List.range 4).any fun j => decide (v / 4 ^ j % 4 = k))) then [64] else [])
  | 8 => if bytesBad 16 48 10 then [16] else []
  | 9 =>
    (if leAt bs 5 1 % 5 ≠ 0 ∨ leAt bs 5 1 < 5 ∨ 50 < leAt bs 5 1 then [5] else []) ++
    (if (List.range 6).any (fun i => decide (3 < leAt bs (6 + i) 1) && decide (leAt bs (6 + i) 1 ≠ 255)) then [6] else [])
  | 10 => if leAt bs 16 1 < fieldAt 10 bs 8 ∨ 90 < leAt bs 16 1 then [16] else []
  | _ => []

/-- Offsets of the fields of a section that take their defaults (R157). -/
def defaulted (type : Nat) (bs : List (BitVec 8)) : List Nat :=
  ((secFields type).filter (fieldBad bs)).map (·.1) ++ specialBad type bs

/-- BOARD (R157), with the accepted REMAP entries. -/
def boardOf (bs : List (BitVec 8)) (remaps : List (BitVec 96)) : ImgBoard :=
  { netMode := (List.range 4).map fun i => leAt bs 0 1 / 4 ^ i % 4
    bifur := fieldAt 1 bs 1
    epEn := BitVec.ofNat 4 (if epEnBad bs then 2 ^ bifurEps (fieldAt 1 bs 1) - 1 else leAt bs 2 1)
    pmb1En := decide (fieldAt 1 bs 4 = 1), fanEn := BitVec.ofNat 6 (fieldAt 1 bs 5), ppsInEn := decide (fieldAt 1 bs 6 = 1)
    testEn := decide (fieldAt 1 bs 7 = 1), peerSerial := BitVec.ofNat 64 (leAt bs 8 8), peerIdDigest := slice bs 16 48
    remaps := remaps }

/-- The REG table of the POWER section (R158). -/
def regsOf (bs : List (BitVec 8)) : List Regulator :=
  (List.range (leAt bs 37 1)).map fun i =>
    { Regulator.reset with
      master := leAt bs (64 + 4 * i) 1, addr := leAt bs (65 + 4 * i) 1, rail := leAt bs (66 + 4 * i) 1,
      role := leAt bs (67 + 4 * i) 1 }

/-- The POWER section cannot be used: a field without a safe default is out of range, or the REG table breaks its rules
(R157, R158). -/
def powerBad (bs : List (BitVec 8)) : Bool :=
  let rs := regsOf bs
  powerNeeded.any (fun f => decide (leAt bs f.1 f.2.1 < f.2.2.1) || decide (f.2.2.2 < leAt bs f.1 f.2.1)) ||
    decide ((rs.filter fun r => decide (r.rail = 0) && decide (r.role = 1)).length ≠ 1) ||
    decide ((rs.filter fun r => r.role = 2).length ≠ 1) ||
    (List.range 2).any (fun m => decide (16 < (rs.filter fun r => r.master = m).length)) ||
    rs.any fun r => decide (1 < r.master) || decide (127 < r.addr) || (decide (9 < r.rail) && decide (r.rail ≠ 255)) ||
      decide (r.role < 1) || decide (3 < r.role)

/-- POWER (R158). -/
def powerOf (bs : List (BitVec 8)) : ImgPower :=
  let hz (o : Nat) : Nat := if leAt bs o 1 = 60 then 60 else 50
  { feedAV := fieldAt 3 bs 0, feedBV := fieldAt 3 bs 2, feedAHz := hz 4, feedBHz := hz 5, rideFloor := fieldAt 3 bs 6
    rideMs := fieldAt 3 bs 7, feedAScale := leAt bs 8 4, feedBScale := leAt bs 12 4, shunt := leAt bs 16 4
    divider := leAt bs 20 4, vMin := leAt bs 24 4, eta := leAt bs 28 2, closeMs := fieldAt 3 bs 30, pF := leAt bs 32 4
    pmbRate := BitVec.ofNat 2 (fieldAt 3 bs 36) }

/-- TIME (R159). -/
def timeOf (bs : List (BitVec 8)) : ImgTime :=
  { refOrder := if refOrderBad bs then [1, 2, 3] else (List.range 3).map fun i => leAt bs i 1
    ptpPort := fieldAt 4 bs 3, ptpDomain := fieldAt 4 bs 4, ptpTransport := BitVec.ofNat 3 (fieldAt 4 bs 5)
    oscSensor := fieldAt 4 bs 6, asymPs := if sAt bs 8 4 < -300 ∨ 300 < sAt bs 8 4 then 0 else sAt bs 8 4
    inDelay := fieldAt 4 bs 12, outDelay := leAt bs 14 2 }

/-- HOST (R160). -/
def hostOf (bs : List (BitVec 8)) : ImgHost :=
  { maxRate := fieldAt 5 bs 0, lzGib := fieldAt 5 bs 1, subsysVendor := BitVec.ofNat 16 (leAt bs 2 2)
    subsysId := BitVec.ofNat 16 (leAt bs 4 2)
    txPreset := (List.range 16).map fun i => if 10 < leAt bs (8 + i) 1 then 4 else leAt bs (8 + i) 1 }

/-- The number that bytes in network order give. -/
def beNat (bs : List (BitVec 8)) : Nat := leNat bs.reverse

/-- Sub-port record `i`, and whether a field of it is out of range (R161). A MAC address is a little-endian number, as R9 has it; the octet
with its group bit is bits [47:40]. -/
def subPortOf (bs : List (BitVec 8)) (i : Nat) : SubPort × Bool :=
  let o := 16 + 48 * i
  let mac := leAt bs o 6
  let bad := decide (mac ≠ 0) &&
    (decide (mac / 2 ^ 40 % 2 = 1) || decide (0xFFF < leAt bs (o + 6) 2) || decide (32 < leAt bs (o + 12) 1) ||
      decide (128 < leAt bs (o + 13) 1) || decide (3 < leAt bs (o + 14) 1) || decide (leAt bs (o + 14) 1 = 0))
  (if bad then SubPort.reset
   else { mac := BitVec.ofNat 48 mac, vlan := leAt bs (o + 6) 2, ipv4 := BitVec.ofNat 32 (beNat (slice bs (o + 8) 4))
          v4Prefix := leAt bs (o + 12) 1, v6Prefix := leAt bs (o + 13) 1, flags := BitVec.ofNat 8 (leAt bs (o + 14) 1)
          ipv6 := BitVec.ofNat 128 (beNat (slice bs (o + 16) 16)) }, bad)

/-- Remote-array record `i`, and whether a field of it is out of range (R161). -/
def remoteOf (bs : List (BitVec 8)) (i : Nat) : Remote × Bool :=
  let o := 784 + 32 * i
  let key := leAt bs (o + 16) 2
  let used := decide (i < fieldAt 6 bs 4) && decide (leAt bs (o + 19) 1 % 2 = 1)
  let bad := used && (decide (key % 32768 = 0) || decide (key % 32768 = 0x7FFF) || decide (15 < leAt bs (o + 18) 1))
  ({ addr := BitVec.ofNat 128 (beNat (slice bs o 16)), pkey := BitVec.ofNat 16 key, subport := leAt bs (o + 18) 1 % 16
     valid := used && !bad }, bad)

/-- NET (R161). -/
def netOf (bs : List (BitVec 8)) : ImgNet :=
  { dscp := fieldAt 6 bs 0, pcp := fieldAt 6 bs 1, pfcXoffKib := fieldAt 6 bs 2
    subports := (List.range 16).map fun i => (subPortOf bs i).1, remotes := (List.range 8).map fun i => (remoteOf bs i).1 }

/-- Offsets of the NET records with a field out of range. -/
def netBadRecords (bs : List (BitVec 8)) : List Nat :=
  ((List.range 16).filter fun i => (subPortOf bs i).2).map (fun i => 16 + 48 * i) ++
    ((List.range 8).filter fun i => (remoteOf bs i).2).map (fun i => 784 + 32 * i)

/-- MEDIA (R462). -/
def mediaOf (bs : List (BitVec 8)) : ImgMedia :=
  { portEn := BitVec.ofNat 48 (fieldAt 8 bs 0), telemMs := fieldAt 8 bs 8, tempWarn := sAt bs 10 2, tempCrit := sAt bs 12 2
    txPreset := (List.range 48).map fun i => if 10 < leAt bs (16 + i) 1 then 5 else leAt bs (16 + i) 1 }

/-- LOOPS (R640). -/
def loopsOf (bs : List (BitVec 8)) : ImgLoops :=
  { pairMask := BitVec.ofNat 24 (fieldAt 9 bs 0), slotGapMs := fieldAt 9 bs 4
    avsPreraise := if (specialBad 9 bs).contains 5 then 25 else leAt bs 5 1
    fanZone := (List.range 6).map fun i => let z := leAt bs (6 + i) 1; if z ≤ 3 ∨ z = 255 then z else 0
    fanMinRpm := fieldAt 9 bs 12, avsMargin := fieldAt 9 bs 14, chgSp := fieldAt 9 bs 16, chgVmax := fieldAt 9 bs 18
    tgtDie := fieldAt 9 bs 20, tgtDimm := fieldAt 9 bs 22, tgtMod := fieldAt 9 bs 24
    gains := (List.range 4).map fun c =>
      let o := 64 + 8 * c
      (BitVec.ofNat 16 (leAt bs o 2), BitVec.ofNat 16 (leAt bs (o + 2) 2), BitVec.ofNat 16 (leAt bs (o + 4) 2),
        fieldAt 9 bs (o + 6))
    zoneSrc := (List.range 4).map fun z => BitVec.ofNat 50 (fieldAt 9 bs (32 + 8 * z)) }

/-- POLICY, in the order of its table (R558). -/
def policyOf (bs : List (BitVec 8)) : List Nat :=
  ([0, 1, 2, 3, 4, 5, 6, 8, 9, 10, 11, 12, 13, 14, 15].map (fieldAt 10 bs)) ++
    [if (specialBad 10 bs).contains 16 then 70 else leAt bs 16 1, fieldAt 10 bs 18]

/-- The DRAM section's page, row-hammer, interleave and swap settings (R605, R614). A channel mask that breaks R605 takes its
default. -/
def dramOf (bs : List (BitVec 8)) (d : Drc) : Drc :=
  let words (off n : Nat) : List (BitVec 32) := (List.range n).map fun i => BitVec.ofNat 32 (leAt bs (off + 4 * i) 4)
  let swap (i : Nat) : BitVec 8 :=
    let v := leAt bs (64 + i) 1
    if (List.range 4).all fun k => (List.range 4).any fun j => decide (v / 4 ^ j % 4 = k) then BitVec.ofNat 8 v else 0xE4
  { d with
    chEn := BitVec.ofNat 12 (fieldAt 7 bs 0), openMax := fieldAt 7 bs 4, throttleUs := fieldAt 7 bs 5
    rhThreshold := fieldAt 7 bs 6
    chMask := words 8 3, bgXor := words 20 3, baXor := words 32 2, rankXor := words 40 3
    dqSwap := (List.range 240).map swap }

/-! ## The set of sections (R155, R157) -/

/-- The layout length of a fixed-layout section. -/
def secLen : Nat → Option Nat
  | 1 => some 80
  | 3 => some 192
  | 4 => some 16
  | 5 => some 32
  | 6 => some 1040
  | 7 => some 304
  | 8 => some 64
  | 9 => some 96
  | 10 => some 32
  | _ => none

/-- A section of the set is acceptable: known with its length and format, or unknown and optional. -/
def sectionOk (x : Nat × Nat × List (BitVec 8)) : Bool :=
  match secLen x.1 with
  | some n => decide (x.2.1 = 1) && decide (x.2.2.length = n) && !(decide (x.1 = 3) && powerBad x.2.2)
  | none => decide (x.1 = 2) || decide (32768 ≤ x.1)

/-- Reason code 4: the section set does not meet R155, or a section cannot be used (R157). -/
def sectionsOk (l : List (Nat × Nat × List (BitVec 8))) : Bool :=
  l.all sectionOk && ([1, 3, 5, 7, 8, 9].all fun t => l.any fun x => x.1 = t) &&
    (List.range l.length).all fun i => (List.range i).all fun j => decide ((l.map (·.1)).getD i 0 ≠ (l.map (·.1)).getD j 0)

/-- The bytes of a section, none when it is absent. -/
def sectionBytes (l : List (Nat × Nat × List (BitVec 8))) (t : Nat) : Option (List (BitVec 8)) :=
  (l.find? fun x => x.1 = t).map (·.2.2)

/-! ## The checks of R164 -/

/-- The checks of a configuration copy in their order, with the fuses and GLB_SERIAL: the reason code, 0 when the copy is valid, and
the image. -/
def checkCfg (s : State) (b : List (BitVec 8)) (readOk : Bool) : Nat × Option CfgImage :=
  let sb := slice b (cfgSigOff b) sigLen
  let msg := b.take (cfgSigOff b)
  let slot := leAt sb 4 2
  let blank := decide (lifeCycle s = .blank)
  if !readOk then (10, none)
  else if !cfgHeaderOk b then (1, none)
  else if !cfgTableOk b then (2, none)
  else if leAt sb 0 4 ≠ 0x42474953 ∨ 3 < slot ∨
      (!blank && !(s.fuses.slotValid.getLsbD slot && !s.fuses.slotRevoked.getLsbD slot &&
        decide (s.fuses.slotDigest.getD slot [] = sigDigest sb))) then (5, none)
  else if leAt b 32 8 ≠ 0 ∧ leAt b 32 8 ≠ Config.serial.toNat then (9, none)
  else if !ecdsaOk sb msg then (6, none)
  else if !mldsaOk sb msg then (7, none)
  else if leAt b 8 2 < s.fuses.floor ∨ 1024 < leAt b 8 2 then (8, none)
  else
    match cfgSections b with
    | none => (3, none)
    | some l =>
      if sectionsOk l then (0, some { version := leAt b 8 2, keySlot := slot, digest := sigDigest sb, secs := l }) else (4, none)

/-- The configuration copy as the NOR holds it, as far as its IMAGE_LEN says (R166). -/
def cfgBytes (s : State) (copyB : Bool) : List (BitVec 8) :=
  let base := cfgBase copyB
  let len := leNat (memBytes norErased s.nor (base + 12) 4)
  memBytes norErased s.nor base (if len ≤ 4 * 2 ^ 20 then max len 256 else 256)

/-! ## Firmware images (R688 to R691) -/

/-- SIGBLK_OFF of a firmware image. -/
def fwSigOff (b : List (BitVec 8)) : Nat := leAt b 20 4

/-- Check 2 of R691. -/
def fwHeaderOk (b : List (BitVec 8)) : Bool :=
  decide (leAt b 0 4 = 0x57465053) && decide (leAt b 4 2 = 1) && decide (leAt b 6 2 = 256) && decide (leAt b 8 4 ≠ 0) &&
    decide (leAt b 252 4 = (crc32c (b.take 252)).toNat) && decide (leAt b 12 4 = fwSigOff b + sigLen) &&
    decide (leAt b 12 4 ≤ 50331648) && decide (1 ≤ leAt b 16 4) && decide (leAt b 16 4 ≤ fwSigOff b - 256) &&
    decide (fwSigOff b = (256 + leAt b 16 4 + 15) / 16 * 16) && decide (leAt b 44 4 = 0) && decide (leAt b 110 1 < 16) &&
    decide (leAt b 111 1 = 0) && (slice b 116 136).all (· = 0)

/-- The checks of a firmware image in their order: the reason code, 0 when it may run (R691). -/
def checkFw (s : State) (b : List (BitVec 8)) (readOk : Bool) : Nat :=
  let sb := slice b (fwSigOff b) sigLen
  let msg := b.take (fwSigOff b)
  let slot := leAt sb 4 2
  if !readOk then 10
  else if !fwHeaderOk b then 1
  else if leAt sb 0 4 ≠ 0x42474953 ∨ 3 < slot ∨ s.upd.fwRevoke.getLsbD slot ∨ Config.asermethDigest slot ≠ sigDigest sb then 5
  else if !ecdsaOk sb msg then 6
  else if !mldsaOk sb msg then 7
  else
    match Config.fwUnwrap (slice b 64 40) with
    | none => 11
    | some key =>
      match Config.gcmOpen key (slice b 32 12) (b.take 48) (slice b 256 (leAt b 16 4)) (slice b 48 16) with
      | none => 12
      | some plain =>
        match dictDecode plain with
        | some d => if d.length = leAt plain 4 4 ∧ d.length ≤ 50331648 then 0 else 3
        | none => 3

/-- The firmware slot as the NOR holds it. -/
def fwBytes (s : State) (slot : Nat) : List (BitVec 8) :=
  let base := fwBase slot
  let len := leNat (memBytes norErased s.nor (base + 12) 4)
  memBytes norErased s.nor base (if len ≤ 50331648 then max len 256 else 256)

/-- Firmware slot passes every check. -/
def slotValid (s : State) (slot : Nat) (readOk : Bool) : Bool := decide (checkFw s (fwBytes s slot) readOk = 0)

/-- VERSION of a firmware image. -/
def fwVersion (b : List (BitVec 8)) : BitVec 32 := BitVec.ofNat 32 (leAt b 8 4)

end Sys2Proof.Machine
end

