-- ==== Sys2Proof/Machine/MetaObjects.lean ====
section
/-!
DEFINITION. The contents of the objects that a waypoint names, to the byte: the level-0 pages of every KIND, map-page pairs and
seed pages, and the index pages above them (R482, R485, R489 to R500). All of them are functions of State.
-/
namespace Sys2Proof.Machine

/-! ## Pages of records (R490) -/

/-- Numbers without repeats, ascending. -/
def ascending (l : List Nat) : List Nat := sortBy id l.eraseDups

/-- Pages of `n` records, packed in their order. -/
def packedPages (n : Nat) (recs : List (List (BitVec 8))) : List (Nat × List (BitVec 8)) :=
  (List.range ((recs.length + n - 1) / n)).map fun i => (i, pageOf ((recs.drop (n * i)).take n).flatten)

/-- Pages of `n` records of `w` bytes, each record at the place its number gives; places without one are zeros. -/
def numberedPages (n w : Nat) (recs : List (Nat × List (BitVec 8))) : List (Nat × List (BitVec 8)) :=
  (ascending (recs.map fun r => r.1 / n)).map fun i =>
    (i, pageOf ((List.range n).flatMap fun j => ((recs.find? fun r => r.1 = n * i + j).map (·.2)).getD (List.replicate w 0)))

/-- Smallest level whose index page spans a number of level-0 pages (R490). -/
def treeDepth (count : Nat) : Nat :=
  if count ≤ 1 then 0 else if count ≤ 511 then 1 else if count ≤ 511 ^ 2 then 2 else if count ≤ 511 ^ 3 then 3 else 4

/-- Index page `p` of a level over the children given, each a number and a grain address: the level, the CRC-32C of the bytes behind
the head, and 511 addresses (R485, R490). -/
def indexPage (level p : Nat) (children : List (Nat × Nat)) : List (BitVec 8) :=
  let body := (List.range 511).flatMap fun i => leBytes 8 (((children.find? fun c => c.1 = 511 * p + i).map (·.2)).getD 0)
  leBytes 1 level ++ leBytes 3 0 ++ leBytes 4 (crc32c body).toNat ++ body

/-! ## KIND 1: versions and their map pages (R489, R491) -/

/-- SNAP of a version that is not live: its number, or 0x8000 + 2 L + c of a replication cut of link L. -/
def snapCode (p : Snapshot) : Nat :=
  match p.link with
  | some _ => 0x8000 + (p.num - 4097)
  | none => p.num

/-- One version: volume, SNAP, RFLAGS, cut LSN, point, map tree. -/
abbrev VersionRow := Nat × Nat × Nat × Nat × Int × List (Nat × Nat)

/-- Versions of the volumes that this head owns, ascending VOLUME then SNAP (R490). -/
def versionRows (s : State) : List VersionRow :=
  (sortBy (·.num) (s.red.volumes.filter fun x => owns s x.num)).flatMap fun x =>
    (x.num, 0, 1, 0, 0, x.table) ::
      (sortBy snapCode x.snaps).map fun p =>
        (x.num, snapCode p, 1 + 2 * b2n p.frozen + 4 * b2n p.deleting, p.cut, p.point, p.table)

/-- The stripe that a live entry's grains lie in is complete, or the entry names none (R530). -/
def entryStored (s : State) (e : Option MapEntry) : Bool :=
  match e with
  | none => true
  | some e => match e.method with
    | .zero => true
    | _ => (stripeAt s e.grain.toNat).any fun x => x.st = .complete

/-- The pair as the newest waypoint recorded it; zeros where it named none. -/
def recordedPair (s : State) (id : Nat) : List (BitVec 8) :=
  ((s.mmg.objPages.find? fun p => decide (p.tree = .pairs) && decide (p.num = id)).map (·.data)).getD []

/-- The 8 KiB pair of page `i` of a map tree: the map page, then the LSN page (R489, R491). An entry whose stripe is not complete
stays out: what the newest waypoint recorded of the chunk stands (R530). -/
def pairBytes (s : State) (p : MapPage) (i : Nat) : List (BitVec 8) :=
  let old := recordedPair s p.id
  let entry (j : Nat) : Option MapEntry := p.entries.find? fun e => e.chunk = 512 * i + j
  ((List.range 512).flatMap fun j => leBytes 8
    (match entry j with
     | some e => if entryStored s (some e) then (entryWord e).toNat else leAt old (8 * j) 8
     | none => 0)) ++
  (List.range 512).flatMap fun j => leBytes 8
    (match entry j with
     | some e => if entryStored s (some e) then e.lsn else leAt old (4096 + 8 * j) 8
     | none => ((p.cleared.find? fun c => c.1 = 512 * i + j).map (·.2)).getD 0)

/-- The pairs that the versions name: identity, page of the tree. -/
def pairRows (s : State) : List (Nat × Nat) :=
  ((versionRows s).flatMap fun v => v.2.2.2.2.2.map fun t => (t.2, t.1)).eraseDups

/-- The 64 bytes of a version record, with its tree's root and depth and the pairs in it (R491). -/
def versionBytes (v : VersionRow) (depth root pairs : Nat) : List (BitVec 8) :=
  leBytes 2 v.1 ++ leBytes 2 v.2.1 ++ leBytes 1 v.2.2.1 ++ leBytes 1 depth ++ leBytes 2 0 ++ leBytes 8 v.2.2.2.1 ++
    leBytes 8 (i64 v.2.2.2.2.1).toNat ++ leBytes 8 root ++ leBytes 8 pairs ++ List.replicate 24 0

/-! ## KIND 2: seed spaces (R319 to R322, R492) -/

/-- The 32 bytes of a seed record (R321). -/
def seedBytes (e : SeedSlot) : List (BitVec 8) :=
  (e.fp ++ List.replicate 16 0).take 16 ++ leBytes 8 e.location.toNat ++ leBytes 4 e.count ++ leBytes 4 0

/-- The seed pages of a space that hold a record: 512 records of 16 KiB, slot j of bucket i at record (i mod 16) x 32 + j of page
i / 16 (R321). -/
def seedPages (p : SeedSpace) : List (Nat × List (BitVec 8)) :=
  (ascending (p.slots.map fun e => e.bucket / 16)).map fun n =>
    (n, (List.range 512).flatMap fun r =>
      ((p.slots.find? fun e => decide (e.bucket = 16 * n + r / 32) && decide (e.slot = r % 32)).map seedBytes).getD
        (List.replicate 32 0))

/-- Level-0 pages of a seed directory: 512 grain addresses of seed pages (R492). -/
def seedDirPages (seeds : List (Nat × Nat)) : List (Nat × List (BitVec 8)) :=
  numberedPages 512 8 (seeds.map fun p => (p.1, leBytes 8 p.2))

/-- The 64 bytes of a seed-space record (R492). -/
def seedSpaceBytes (p : SeedSpace) (depth root : Nat) : List (BitVec 8) :=
  leBytes 2 p.tenant ++ leBytes 1 p.b ++ leBytes 1 depth ++ leBytes 4 0 ++ leBytes 8 p.splitPtr ++ leBytes 8 p.slots.length ++
    leBytes 8 p.unindexed ++ leBytes 8 root ++ leBytes 4 (p.tenant + 2 * 65536) ++ List.replicate 20 0

/-! ## KIND 3, 4 and 7: share, lock and strip tables (R331, R482, R493) -/

/-- Share records, ascending grain address. -/
def sharePages (s : State) : List (Nat × List (BitVec 8)) :=
  packedPages 256 ((sortBy (fun x => x.grain.toNat) s.red.shares).map fun x =>
    leBytes 8 x.grain.toNat ++ leBytes 4 x.count ++ leBytes 4 0)

/-- Lock records, ascending VOLUME then LBA. -/
def lockPages (s : State) : List (Nat × List (BitVec 8)) :=
  packedPages 64 ((sortBy (·.num) s.red.volumes).flatMap fun x => (sortBy (·.lba) x.locks).map fun l =>
    leBytes 2 x.num ++ leBytes 6 0 ++ leBytes 8 l.lba ++ leBytes 8 l.count ++ leBytes 8 (i64 l.expiry).toNat ++
      leBytes 8 (i64 l.placed).toNat ++ List.replicate 24 0)

/-- The strip table, entry n for data strip number n. -/
def stripPages (s : State) : List (Nat × List (BitVec 8)) :=
  numberedPages 128 32 (s.mmg.strips.map fun e => (e.num, stripEntryBytes e))

/-! ## KIND 5: the ledger (R478, R494) -/

/-- DIE_COUNT, PLANES_PER_DIE and BLOCKS_PER_PLANE of the module in a slot: as its information page gives them, else as the newest
waypoint's module table has them. -/
def moduleShape (s : State) (n : Nat) : Nat × Nat × Nat :=
  if (portOf s n).info.isEmpty then
    match s.mmg.objPages.find? fun p => decide (p.kind = 5) && decide (p.tree = .object) && decide (p.level = 0) with
    | some p => (leAt p.data (64 * n + 8) 2, leAt p.data (64 * n + 10) 1, leAt p.data (64 * n + 12) 4)
    | none => (0, 0, 0)
  else (dieCount s n, planeCount s n, blockCount s n)

/-- Level-0 pages of a module's ledger tree: the entries of the dies that this head holds. -/
def ledgerPages (s : State) (n : Nat) : List (Nat × List (BitVec 8)) :=
  let g := moduleShape s n
  numberedPages 128 32 ((s.mmg.ledger.filter fun l => decide (l.slot = n) && dieHeld s n l.die).map fun l =>
    ((l.die * g.2.1 + l.plane) * g.2.2 + l.block, ledgerBytes l))

/-- The 64 bytes of a module record (R494). -/
def moduleBytes (s : State) (n depth root : Nat) : List (BitVec 8) :=
  let x := slotOf s n
  if x.serial = 0 then List.replicate 64 0
  else
    let g := moduleShape s n
    leBytes 8 x.serial.toNat ++ leBytes 2 g.1 ++ leBytes 1 g.2.1 ++ leBytes 1 depth ++ leBytes 4 g.2.2 ++ leBytes 8 root ++
      List.replicate 40 0

/-! ## KIND 6: wrapped keys (R393, R495) -/

/-- The 64 bytes of a key record. -/
def keyBytes (index epoch : Nat) (body : List (BitVec 8)) : List (BitVec 8) :=
  ((leBytes 4 index ++ leBytes 4 epoch ++ body) ++ List.replicate 64 0).take 64

/-- The keys of the array, each under its index: XTS keys of tenants, dedup keys, service keys. -/
def keyRows (s : State) : List (Nat × Nat × List (BitVec 8)) :=
  (s.sec.tenants.flatMap fun t => [(t.tenant, 0, t.key1), (t.tenant + 65536, 0, t.key2)]) ++
  s.sec.slots.filterMap fun x =>
    if x.present then
      some (match x.dedup with
        | some t => (t + 2 * 65536, 0, x.key)
        | none => (x.num + 3 * 65536, x.epoch, x.key))
    else none

/-- Key records, ascending KEY_INDEX: keys wrapped under the array key, then the pins of the identities. -/
def keyPages (s : State) : List (Nat × List (BitVec 8)) :=
  packedPages 64
    ((match s.sec.arrayKey with
      | some a => (sortBy (fun k => k.1) (keyRows s)).map fun k => keyBytes k.1 k.2.1 (deltaKey.kwBytes a k.2.2)
      | none => []) ++
     (pinRows s).map fun p => keyBytes p.1 0 (p.2.take 48))

/-! ## KIND 8 and 9: volumes and accounting (R129, R496, R497) -/

/-- The 256 bytes of a volume record (R496). -/
def volumeBytes (s : State) (x : Volume) : List (BitVec 8) :=
  let g := x.default_
  volInfo32 s x ++ leBytes 1 (g.elim 0 (·.bits)) ++ leBytes 1 (g.elim 0 (·.lanes)) ++ leBytes 2 0 ++ leBytes 4 (g.elim 0 (·.stride)) ++
    leBytes 8 (g.elim 0 (·.row0)) ++ leBytes 8 (i64 x.created).toNat ++ leBytes 8 0 ++ (statsPage s x).take 88 ++
    List.replicate 104 0

/-- The volume table, record v for volume v. -/
def volumePages (s : State) : List (Nat × List (BitVec 8)) :=
  numberedPages 16 256 (s.red.volumes.map fun x => (x.num, volumeBytes s x))

/-- The definition of a tenant that runs: the open period's, or the one in force while none is open (R129). -/
def runningDef (s : State) (t : Tenant) : PeriodDef := if t.open_.isSome then t.openDef else defOf s t

/-- A definition record: a definition that waits for the end of the open period is PENDING (R129, R497). -/
def definitionBytes (s : State) (t : Tenant) : List (BitVec 8) :=
  let d := runningDef s t
  let p := defOf s t
  let waits := decide (p ≠ d)
  leBytes 2 t.id ++ leBytes 1 d.kind ++ leBytes 5 0 ++ leBytes 8 d.length ++ leBytes 8 (i64 d.origin).toNat ++
    leBytes 1 (if waits then 1 + p.kind else 0) ++ leBytes 7 0 ++ leBytes 8 (if waits then p.length else 0) ++
    leBytes 8 (if waits then (i64 p.origin).toNat else 0) ++ List.replicate 15 0 ++ leBytes 1 1

/-- An open-period record of this head, or a closed one (R234, R497). -/
def accountBytes (t : Tenant) (head rkind : Nat) (p : Period) : List (BitVec 8) :=
  (periodBytes p).take 52 ++ leBytes 2 t.id ++ leBytes 1 head ++ List.replicate 8 0 ++ leBytes 1 rkind

/-- Accounting records, ascending tenant. -/
def accountPages (s : State) : List (Nat × List (BitVec 8)) :=
  packedPages 64 ((sortBy (·.id) s.lds.tenants).flatMap fun t =>
    (if t.def_.isSome ∨ (runningDef s t).kind ≠ 0 ∨ (defOf s t).kind ≠ 0 ∨ !t.closed.isEmpty then [definitionBytes s t] else []) ++
    (t.open_.toList.map (accountBytes t (b2n s.glb.headSel) 2)) ++ t.closed.map (accountBytes t 0xFF 3))

/-! ## KIND 10: settings (R488, R498) -/

/-- The ledger settings, in the order of their words (R520). -/
def settingWord (m : Mmg) (i : Nat) : BitVec 32 :=
  match i with
  | 0 => w32 m.ea
  | 1 => (BitVec.ofInt 16 m.tStore) ++ (BitVec.ofInt 16 m.tRef)
  | 2 => w32 m.retFresh
  | 3 => w32 m.retEol
  | 4 => w32 m.endurance
  | 5 => w32 m.floor
  | 6 => w32 m.lead
  | 7 => w32 (m.refreshShare + 2 ^ 8 * m.overdueShare + 2 ^ 16 * m.gcLow + 2 ^ 24 * m.gcHigh)
  | 8 => w32 m.wlSpread
  | _ => w32 m.readDisturb

/-- A policy register of the erasure coder (R560). -/
def policyWord (e : Ecp) (off : Nat) : BitVec 32 :=
  if off = 0x1C then w32 (e.rebuildShare + 2 ^ 8 * e.resyncShare + 2 ^ 16 * e.reshapeShare + 2 ^ 24 * e.maintCap)
  else if off = 0x20 then w32 (e.gcShare + 2 ^ 8 * e.elevatedShare + 2 ^ 16 * e.splitWlShare + 2 ^ 24 * e.patrolShare)
  else if off = 0x24 then w32 (e.sparePct + 2 ^ 8 * b2n e.autoJoin + 2 ^ 16 * e.rejoinS)
  else if off = 0x50 then w32 (e.defK + 2 ^ 5 * e.defM + 2 ^ 8 * e.flushK + 2 ^ 13 * e.flushM + 2 ^ 16 * e.critShare)
  else w32 e.patrolDays

/-- XHL_CTL (R593). -/
def xhlCtlWord (x : Xhl) : BitVec 32 := w32 (b2n x.autoRebalance + 2 ^ 8 * x.hbLossMs + 2 ^ 16 * x.splitDelayMs)

/-- The DRAM controller's page and row-hammer limits (R616). -/
def drcLimitWord (d : Drc) (off : Nat) : BitVec 32 :=
  if off = 0x40 then w32 (b2n d.forceClose + 2 ^ 8 * d.openMax) else w32 (d.rhThreshold + 2 ^ 16 * d.throttleUs)

/-- The settings registers: BAR0 offset, value. -/
def settingRows (s : State) : List (Nat × BitVec 32) :=
  ((List.range 10).map fun i => (0xB1004 + 4 * i, settingWord s.mmg i)) ++
  ([0x1C, 0x20, 0x24, 0x50, 0x54].map fun o => (0xC0000 + o, policyWord s.ecp o)) ++
  [(0xD000C, xhlCtlWord s.xhl), (0xE0040, drcLimitWord s.drc 0x40), (0xE0044, drcLimitWord s.drc 0x44),
   (0x120010, w32 s.upd.probationS)]

/-- Header of the firmware that runs: its slot, or the staging buffer after RUN (R688, R697). -/
def fwHeader (s : State) : List (BitVec 8) :=
  if s.upd.recovery then memBytes 0 s.upd.staging 0 256 else memBytes norErased s.nor (fwBase s.upd.slot) 256

/-- The layout format in which the firmware writes the map: the highest that it and the peer's running firmware both read, its own highest
while no peer's VERSION is known (R702). -/
def writtenLayout (s : State) : Nat :=
  let own := leAt (fwHeader s) 106 2
  if s.xhl.peerFw = 0 then own else min own (Config.layoutMax s.xhl.peerFw)

/-- The settings page, in the format that the firmware writes (R498, R688). -/
def settingsPage (s : State) : List (BitVec 8) :=
  pageOf (leBytes 2 (leAt (fwHeader s) 108 2) ++ leBytes 2 (settingRows s).length ++ leBytes 4 0 ++
    (settingRows s).flatMap fun r => leBytes 4 r.1 ++ leBytes 4 r.2.toNat)

/-! ## KIND 11, 12 and 13: hints, maintenance state, lost list (R499, R500, R544) -/

/-- Raster hint records, ascending VOLUME then LBA (R499). -/
def hintPages (s : State) : List (Nat × List (BitVec 8)) :=
  packedPages 128 ((sortBy (·.num) s.red.volumes).flatMap fun x => (sortBy (·.lba) x.ranges).map fun h =>
    leBytes 2 x.num ++ leBytes 1 h.geom.bits ++ leBytes 1 h.geom.lanes ++ leBytes 4 h.geom.stride ++ leBytes 8 h.lba ++
      leBytes 8 h.count ++ leBytes 8 0)

/-- The maintenance page (R500). -/
def maintPage (s : State) : List (BitVec 8) :=
  let e := s.ecp
  pageOf (leBytes 8 ((e.resyncQueue.head?.map (·.toNat)).getD 0) ++ leBytes 8 e.resyncBound ++ leBytes 1 e.reshape ++
    leBytes 1 e.targetK ++ leBytes 1 e.targetM ++ leBytes 1 0 ++ leBytes 2 e.rangeFirst ++ leBytes 2 e.rangeLast ++
    leBytes 2 e.reshapeVolume ++ leBytes 6 0 ++ leBytes 8 e.drainMask.toNat ++ leBytes 4 e.patrolDay ++ leBytes 4 0 ++
    leBytes 4 e.lostChunks)

/-- SNAP of the version of a volume that a lost record names. -/
def lostSnap (s : State) (r : LostRec) : Nat :=
  (((volOf s r.volume).bind fun x => x.snaps.find? fun p => p.num = r.snap).map snapCode).getD r.snap

/-- Lost records, ascending VOLUME, CHUNK, then SNAP (R500, R544). -/
def lostPages (s : State) : List (Nat × List (BitVec 8)) :=
  packedPages 128 ((sortBy (fun r => (r.volume * 2 ^ 64 + r.chunk) * 2 ^ 16 + lostSnap s r) s.ecp.lostList).map fun r =>
    leBytes 8 r.chunk ++ leBytes 2 (lostSnap s r) ++ leBytes 1 r.mask.toNat ++ leBytes 1 r.cause ++ leBytes 2 r.volume ++ leBytes 2 0 ++
      leBytes 8 r.time ++ leBytes 8 r.lsn)

end Sys2Proof.Machine
end

