-- ==== Sys2Proof/Machine/Waypoint.lean ====
section
/-!
DEFINITION. Waypoints (chapter 14): what a waypoint records, its objects placed in metadata stripes, the stream of waypoint records,
the anchor rings, and what a complete waypoint commits and frees (R298, R480, R484 to R500, R528).
-/
namespace Sys2Proof.Machine

/-! ## What a waypoint records (R298, R313, R480) -/

/-- Source of the map engine (R15). -/
def mapSrc : Nat := srcId 4 0 0

/-- A waypoint taken now records a map entry of the frame's chunk at or above its LSN (R298, R530). -/
def frameRecorded (s : State) (f : Frame) : Bool :=
  owns s f.volume && decide (f.st ≠ .filling) &&
    (match volOf s f.volume with
     | none => true
     | some x => decide (f.lsn ≤ lsnIn s x.table f.chunk) && entryStored s (entryIn s x.table f.chunk))

/-- Blocks that may be opened or erased after the waypoint: of the dies held, those FREE, RESERVE, OPEN or SUSPECT and those
CLOSED without a live strip (R480). -/
def workSetOf (s : State) : List (Nat × Nat × Nat × Nat) :=
  (s.mmg.ledger.filter fun l => dieHeld s l.slot l.die &&
    (decide (l.st = .free) || decide (l.st = .reserve) || decide (l.st = .opened) || decide (l.st = .suspect) ||
      (decide (l.st = .closed) && !blockLive s l))).map fun l => (l.slot, l.die, l.plane, l.block)

/-- COMMIT_LSN once the frames given are committed: below every other frame of this head's volumes (R313). -/
def commitAfter (s : State) (done : List (Nat × Nat × Nat)) : Nat :=
  let left := s.wlg.frames.filter fun f => owns s f.volume && !done.contains (f.volume, f.lsn, f.index)
  left.foldl (fun a f => min a (f.lsn - 1)) s.wlg.lsn

/-! ## Placing the objects (R484, R490, R531) -/

/-- The waypoint in progress has a page that found no place. -/
def notWhole (s : State) : State := { s with mmg.wp := s.mmg.wp.map fun w => { w with whole := false } }

/-- The waypoint in progress names a page. -/
def addPage (p : ObjPage) (s : State) : State := { s with mmg.wp := s.mmg.wp.map fun w => { w with pages := w.pages ++ [p] } }

/-- Every page so far has found a place. -/
def placing (s : State) : Bool := s.mmg.wp.any (·.whole)

/-- One page of an object: kept where the newest waypoint has it with the same bytes, else placed in the open metadata stripe of a
geometry, with its number in the object and the SEQ it belongs to (R483, R484, R490). -/
def putPage (k m kind : Nat) (tree : MetaTree) (level num page : Nat) (data : List (BitVec 8)) (s : State) : State :=
  if placing s then
    match s.mmg.objPages.find? fun p =>
        decide (p.kind = kind) && decide (p.tree = tree) && decide (p.level = level) && decide (p.num = num) && !p.stale &&
          decide (p.data = data) with
    | some p => addPage p s
    | none =>
      match placeObject k m 1 data
          { TrailerEntry.reset with kind := kind, chunk := page, lsn := s.mmg.wpSeq + 1 + b2n s.glb.headSel * 2 ^ 63 } s with
      | (some g, s) => addPage { kind := kind, tree := tree, level := level, num := num, data := data, grain := g, stale := false } s
      | (none, s) => notWhole s
  else s

/-- A page of zeros is left out (R490). -/
def nonZero (p : Nat × List (BitVec 8)) : Bool := p.2.any (· ≠ 0)

/-- The pages of a level of a tree in the waypoint in progress: number, grain address. -/
def levelPages (s : State) (kind : Nat) (tree : MetaTree) (level : Nat) : List (Nat × Nat) :=
  ((s.mmg.wp.map (·.pages)).getD []).filterMap fun p =>
    if p.kind = kind ∧ p.tree = tree ∧ p.level = level then some (p.num, p.grain) else none

/-- Metadata takes DEF_K with M = 3 (R531). -/
def putMeta (kind : Nat) (tree : MetaTree) (level num : Nat) (data : List (BitVec 8)) (s : State) : State :=
  putPage s.ecp.defK 3 kind tree level num num data s

/-- The index pages of a level over the children given. -/
def putIndex (kind : Nat) (tree : MetaTree) (level : Nat) (children : List (Nat × Nat)) (s : State) : State :=
  (ascending (children.map fun c => c.1 / 511)).foldl (fun s p => putMeta kind tree level p (indexPage level p children) s) s

/-- Level-0 pages that a tree spans: up to the last one present. -/
def spanOf (children : List (Nat × Nat)) : Nat := children.foldl (fun a c => max a (c.1 + 1)) 0

/-- The index pages of a tree over its level-0 pages. -/
def putTree (kind : Nat) (tree : MetaTree) (children : List (Nat × Nat)) (s : State) : State :=
  let d := treeDepth (spanOf children)
  let s := if 1 ≤ d then putIndex kind tree 1 children s else s
  let s := if 2 ≤ d then putIndex kind tree 2 (levelPages s kind tree 1) s else s
  let s := if 3 ≤ d then putIndex kind tree 3 (levelPages s kind tree 2) s else s
  if 4 ≤ d then putIndex kind tree 4 (levelPages s kind tree 3) s else s

/-- Grain address of the root of a tree in the waypoint in progress; 0 of one without a page. -/
def rootOf (s : State) (kind : Nat) (tree : MetaTree) (children : List (Nat × Nat)) : Nat :=
  match treeDepth (spanOf children) with
  | 0 => (children.head?.map (·.2)).getD 0
  | d => ((levelPages s kind tree d).head?.map (·.2)).getD 0

/-- Depth and root of a tree in the waypoint in progress. -/
def depthRoot (s : State) (kind : Nat) (tree : MetaTree) (children : List (Nat × Nat)) : Nat × Nat :=
  (treeDepth (spanOf children), rootOf s kind tree children)

/-- The level-0 pages of a tree, then its index pages. -/
def putLeaves (kind : Nat) (tree : MetaTree) (pages : List (Nat × List (BitVec 8))) (s : State) : State :=
  let s := (pages.filter nonZero).foldl (fun s p => putMeta kind tree 0 p.1 p.2 s) s
  putTree kind tree (levelPages s kind tree 0) s

/-- An object's own tree, and its descriptor; an object without a page has none (R485). -/
def putObject (kind : Nat) (pages : List (Nat × List (BitVec 8))) (s : State) : State :=
  let s := putLeaves kind .object pages s
  let cs := levelPages s kind .object 0
  if cs.isEmpty then s
  else { s with mmg.wp := s.mmg.wp.map fun w => { w with roots := w.roots ++ [(kind, spanOf cs, rootOf s kind .object cs)] } }

/-- The pairs of a map tree that are present: page, grain address. -/
def treePairs (s : State) (table : List (Nat × Nat)) : List (Nat × Nat) :=
  let ps := levelPages s 1 .pairs 0
  table.filterMap fun t => (ps.find? fun p => p.1 = t.2).map fun p => (t.1, p.2)

/-- The pair with an identity, as page `i` of a map tree. -/
def putPair (r : State) (x : Nat × Nat) (s : State) : State :=
  match pairOf r x.1 with
  | some p => if nonZero (x.1, pairBytes r p x.2) then putPage s.ecp.defK 3 1 .pairs 0 x.1 x.2 (pairBytes r p x.2) s else s
  | none => s

/-- KIND 1: the pairs, the map tree of every version, the version directory (R491). `r` is the state recorded. -/
def putVersions (r s : State) : State :=
  let s := (pairRows r).foldl (fun s x => putPair r x s) s
  let s := (versionRows r).foldl (fun s v => putTree 1 (.version v.1 v.2.1) (treePairs s v.2.2.2.2.2) s) s
  putObject 1 (packedPages 64 ((versionRows r).map fun v =>
    let cs := treePairs s v.2.2.2.2.2
    let d := depthRoot s 1 (.version v.1 v.2.1) cs
    versionBytes v d.1 d.2 cs.length)) s

/-- The seed pages of a tenant, with their own geometry, then its seed directory (R321, R492). -/
def putSeedSpace (p : SeedSpace) (s : State) : State :=
  let s := (seedPages p).foldl (fun s x => putPage p.k p.m 2 (.seeds p.tenant) 0 x.1 x.1 x.2 s) s
  putLeaves 2 (.seedDir p.tenant) (seedDirPages (levelPages s 2 (.seeds p.tenant) 0)) s

/-- KIND 2: every tenant's seed pages and directory, the seed spaces (R492). -/
def putSeeds (r s : State) : State :=
  let s := r.red.spaces.foldl (fun s p => putSeedSpace p s) s
  putObject 2 (numberedPages 64 64 (r.red.spaces.map fun p =>
    let d := depthRoot s 2 (.seedDir p.tenant) (levelPages s 2 (.seedDir p.tenant) 0)
    (p.tenant, seedSpaceBytes p d.1 d.2))) s

/-- KIND 5: the ledger tree of every module, the module table (R494). -/
def putLedger (r s : State) : State :=
  let s := (List.range 48).foldl (fun s n => putLeaves 5 (.ledger n) (ledgerPages r n) s) s
  putObject 5 [(0, pageOf ((List.range 48).flatMap fun n =>
    let d := depthRoot s 5 (.ledger n) (levelPages s 5 (.ledger n) 0)
    moduleBytes r n d.1 d.2))] s

/-- The open stripes of metadata, other than those of the record stream, close: what a record names is stored before it (R485,
R530). -/
def closeMeta (s : State) : State :=
  (s.ecp.stripes.filter fun x => decide (x.st = .opened) && decide (x.kind = 1) && !recordStripe s x.serial).foldl
    (fun s x => closeStripe x.serial s) s

/-- Every object of the waypoint in progress, with the contents that state `r` gives them (R484, R490). -/
def putObjects (r s : State) : State :=
  let s := putLedger r (putSeeds r (putVersions r s))
  let s := putObject 4 (lockPages r) (putObject 3 (sharePages r) s)
  let s := putObject 7 (stripPages r) (putObject 6 (keyPages r) s)
  let s := putObject 9 (accountPages r) (putObject 8 (volumePages r) s)
  let s := putObject 11 (hintPages r) (putObject 10 [(0, settingsPage r)] s)
  closeMeta (putObject 13 (lostPages r) (putObject 12 [(0, maintPage r)] s))

/-! ## The stream of records (R485 to R487) -/

/-- Open a stripe for the stream of records: its serial, none while no stripe opens. -/
def openRecords (s : State) : Option (BitVec 64) × State :=
  match openStripe s.ecp.defK 3 1 s with
  | (some x, s) =>
    (some x.serial, { modStripe x.serial (fun x => { x with geomK := 0 }) s with
      mmg.stream := { s.mmg.stream with stripes := s.mmg.stream.stripes ++ [x.serial] } })
  | (none, s) => (none, s)

/-- The stream has a stripe for the next record. -/
def streamCur (s : State) : State :=
  if s.mmg.stream.cur.isSome then s
  else
    let (c, s) := openRecords s
    { s with mmg.stream := { s.mmg.stream with cur := c, page := 0 } }

/-- When the last data strip of the present stripe takes records, the stream has its next stripe, which NEXT_META names. -/
def streamNext (s : State) : State :=
  match s.mmg.stream.cur.bind (stripeOf s) with
  | none => s
  | some x =>
    if x.k ≤ s.mmg.stream.page / 64 + 1 ∧ s.mmg.stream.next.isNone then
      let (c, s) := openRecords s
      { s with mmg.stream := { s.mmg.stream with next := c } }
    else s

/-- NEXT_META: the data strip behind the one that takes the record, else the first of the next stripe (R485). -/
def nextMeta (s : State) (x : Stripe) : Option Member :=
  let j := s.mmg.stream.page / 64 + 1
  if j < x.k then x.members[j]? else (s.mmg.stream.next.bind (stripeOf s)).bind fun y => y.members[0]?

/-- The 16 bytes of a descriptor (R485). -/
def rootBytes (d : Nat × Nat × Nat) : List (BitVec 8) := leBytes 1 d.1 ++ leBytes 3 0 ++ leBytes 4 d.2.1 ++ leBytes 8 d.2.2

/-- The 16 KiB record of a waypoint, with the values of state `r` (R485). -/
def waypointBytes (r : State) (w : WaypointState) (next : Member) : List (BitVec 8) :=
  let head := b2n r.glb.headSel
  let body := leBytes 4 0x54505957 ++ leBytes 2 1 ++ leBytes 1 head ++ leBytes 1 (b2n w.clean + 2 * b2n r.ecp.resyncPending) ++
    leBytes 8 (w.seq + head * 2 ^ 63) ++ leBytes 8 (now r) ++ leBytes 8 (i64 (highWater r)).toNat ++ leBytes 8 w.commitLsn ++
    leBytes 8 w.lsnEnd ++ leBytes 8 r.sec.serialEnd ++ memberBytes next ++
    ((List.range 64).flatMap fun l => leBytes 8 (r.rma.links.getD l Repl.reset).counter) ++
    ((List.range 256).flatMap fun n => leBytes 8 (keySlotOf r n).csCounter) ++ List.replicate 64 0 ++
    ((sortBy (fun d : Nat × Nat × Nat => d.1) w.roots).flatMap rootBytes ++ List.replicate 13680 0).take 13680 ++ List.replicate 12 0
  body ++ leBytes 4 (crc32c body).toNat

/-- The record is in its stripe; a data strip that is full takes its trailer, and with the last one the parity follows and the stream
goes on in its next stripe (R481, R530, R532). -/
def recordPlaced (x : Stripe) (bytes : List (BitVec 8)) (s : State) : State :=
  let p := s.mmg.stream.page
  let x := { x with strips := x.strips.modify (p / 64) (· ++ bytes), fill := 64 * (p + 1), live := x.live + 64,
                    openedAt := some (x.openedAt.getD (now s)) }
  let s := modStripe x.serial (fun _ => x) s
  let s := if p % 64 = 63 then programTrailer .hostProgram x (p / 64) s else s
  let s := if p % 64 = 0 then { s with mmg.metaStrips := s.mmg.metaStrips + 1 } else s
  if p + 1 = 64 * x.k then
    let s := modStripe x.serial (fun x => { x with st := .closed, programTime := now s }) s
    let s := (List.range x.m).foldl (fun s i => programStrip .hostProgram x (x.k + i) (parityStrip i x.strips) s) s
    { s with mmg.stream := { s.mmg.stream with cur := s.mmg.stream.next, next := none, page := 0 } }
  else { s with mmg.stream := { s.mmg.stream with page := p + 1 } }

/-- The record of a waypoint goes into the next page of a stripe of the stream, final flagged behind all it names (R289, R484,
R485). -/
def placeRecord (r : State) (w : WaypointState) (x : Stripe) (s : State) : State :=
  match nextMeta s x with
  | none => notWhole s
  | some next =>
    let p := s.mmg.stream.page
    let m := x.members.getD (p / 64) Member.reset
    let b := waypointBytes r w next
    let s := { s with mmg.wp := some { w with record := b, home := some x.serial, place := some (m, 65 * m.strip + p % 64) } }
    recordPlaced x b (programPage .hostProgram m (p % 64) true b s)

/-- The record of the waypoint in progress, once every page has found its place. -/
def putRecord (r s : State) : State :=
  if placing s then
    let s := streamNext (streamCur s)
    match s.mmg.wp, s.mmg.stream.cur.bind (stripeOf s) with
    | some w, some x => placeRecord r w x s
    | _, _ => notWhole s
  else s

/-! ## Capture and completion (R298, R480, R484, R528) -/

/-- Pages that a waypoint placed and the newest complete one does not name. -/
def newPages (s : State) (w : WaypointState) : List ObjPage := w.pages.filter fun p => !s.mmg.objPages.contains p

/-- The grains of pages go. -/
def freePages (ps : List ObjPage) (s : State) : State :=
  ps.foldl (fun s p => freeGrains p.grain (p.data.length / 256) s) s

/-- What a waypoint that did not become whole has placed goes. -/
def dropPlaced (s : State) : State :=
  match s.mmg.wp with
  | some w => freePages (newPages s w) s
  | none => s

/-- No page more finds a place: what a FLUSH waits on cannot be committed for lack of space, and it completes CAPACITY_EXHAUSTED
(R227, R527). -/
def exhaustFlushes (s : State) : State :=
  (s.dcq.cmds.filter fun c => decide (cmdOpcode c = 0x03) && decide (c.st = .waiting)).foldl
    (fun s c => endCmd c stCapacityExhausted 0 0 s) s

/-- Capture a waypoint: the flush reserve is topped up, the map state as it stands is what it records, the objects that have changed
are written and the record behind them (R75, R484, R485). -/
def captureWaypoint (clean : Bool) (s : State) : State :=
  let s := samplePeaks (dropPlaced (fillReserve s.mmg.ledger.length s))
  let fs := (s.wlg.frames.filter (frameRecorded s)).map fun f => (f.volume, f.lsn, f.index)
  let w : WaypointState :=
    { WaypointState.reset with
      seq := s.mmg.wpSeq + 1, commitLsn := commitAfter s fs, lsnEnd := s.wlg.lsn + 1, clean := clean, frames := fs,
      workSet := workSetOf s, freed := (s.ecp.stripes.filter fun x => x.st = .freed).map (·.serial) }
  let open_ := s.red.volumes.any fun x => (liveEntries s x).any fun e => !entryStored s (some e)
  let s := { s with mmg.wp := some w, mmg.wpRequest := false, mmg.mapChange := if open_ then some (now s) else none }
  let s := putRecord s (putObjects s s)
  if placing s then s else exhaustFlushes s

/-- A FLUSH or a cut waits on a waypoint (R227, R335). -/
def waypointWanted (s : State) : Bool :=
  s.mmg.wpRequest ||
  (s.dcq.cmds.any fun c => (decide (cmdOpcode c = 0x03) || decide (cmdOpcode c = 0x08)) && decide (c.st = .waiting)) ||
  (s.red.volumes.any fun x => x.snaps.any fun p => !p.frozen && !p.deleting) ||
  s.mmg.mapChange.any fun t => t + 1000000000 ≤ now s

/-- A waypoint starts on request or after 1 s of changes; only one is in progress (R484). One that did not find a place for every
page is written again. -/
def execWaypointStart (s : State) : Host.Outcome State Fault Refusal :=
  if alive s && ((s.mmg.wp.isNone && waypointWanted s) || s.mmg.wp.any fun w => !w.whole) then .next (captureWaypoint false s)
  else .next s

/-- Every FLUSH whose covered writes are committed completes (R227). -/
def settleFlushes (s : State) : State :=
  (s.dcq.cmds.filter fun c => decide (cmdOpcode c = 0x03) && decide (c.st = .waiting) &&
    committedUpTo s (cmdVolume c) c.cover).foldl (fun s c => endCmd c stSuccess 0 0 s) s

/-- Record of this head's commitment (R573, R575). -/
def deltaCommit (s : State) : DeltaRec :=
  { kind := 9, delete := false, volume := 0, snap := 0, key := BitVec.ofNat 64 (b2n s.glb.headSel), lsn := 0,
    value := leBytes 8 s.wlg.commitLsn }

/-- The three modules that take an anchor copy: the lowest slots present, of those picked, after rotation by SEQ mod 48
(R486). -/
def anchorSlots (s : State) (pick : Nat → Bool) (seq : Nat) : List Nat :=
  (sortBy (fun n => (n + 48 - seq % 48) % 48)
    ((List.range 48).filter fun n => decide ((portOf s n).st = .active) && pick n)).take 3

/-- The copy of a record for the anchor rings: WFLAGS bit 2 set, its CRC anew (R485, R486). -/
def anchorCopy (r : List (BitVec 8)) : List (BitVec 8) :=
  let body := r.take 7 ++ [r.getD 7 0 ||| 4] ++ slice r 8 16372
  body ++ leBytes 4 (crc32c body).toNat

/-- The blocks of a module's anchor ring. -/
def ringBlocks (s : State) (n : Nat) : List Ledger :=
  sortBy (·.block) (s.mmg.ledger.filter fun l =>
    decide (l.slot = n) && decide (l.die = 0) && decide (l.plane = 0) && decide (l.st = .anchor))

/-- Write one page of a module's anchor ring; when its blocks are full the older one is erased first (R486). -/
def writeRing (page : List (BitVec 8)) (n : Nat) (s : State) : State :=
  let pos := ((s.mmg.stream.rings.find? fun r => r.1 = n).map (·.2)).getD 0
  let per := pagesPerBlock s n
  let ring := ringBlocks s n
  match ring[pos / per % ring.length]? with
  | none => s
  | some l =>
    let s := if pos % per = 0 ∧ per * ring.length ≤ pos then dmlIssue n (eraseCmd l) s else s
    let m : Member := { Member.reset with slot := n, block := l.block }
    let s := dmlIssue n (programCmd .hostProgram m (pos % per) (pageBytesOf s n) false (pageRaw 0 0 l.block (pos % per) (pageBytesOf s n) page)) s
    { s with mmg.stream := { s.mmg.stream with rings := (s.mmg.stream.rings.filter fun r => r.1 ≠ n) ++ [(n, pos + 1)] } }

/-- An anchor block is due for refresh: the older half of its ring is erased early, and the newest record goes there (R486, R513). -/
def refreshRing (n : Nat) (s : State) : State :=
  let per := pagesPerBlock s n
  let pos := ((s.mmg.stream.rings.find? fun r => r.1 = n).map (·.2)).getD 0
  if s.mmg.stream.last.isEmpty ∨ per = 0 then s
  else
    let next := max (2 * per) ((pos / per + 1) * per)
    writeRing (anchorCopy s.mmg.stream.last) n
      { s with mmg.stream := { s.mmg.stream with rings := (s.mmg.stream.rings.filter fun r => r.1 ≠ n) ++ [(n, next)] } }

/-- Stripes of the stream that lie behind the newest record are free: a start reads on from an anchor copy (R487). -/
def trimStream (s : State) : State :=
  let t := s.mmg.stream
  let needed (x : BitVec 64) : Bool := decide (t.cur = some x) || decide (t.next = some x) || decide (t.home = some x)
  let s := (t.stripes.filter fun x => !needed x).foldl (fun s x => modStripe x (fun x => { x with st := .freed, live := 0 }) s) s
  { s with mmg.stream := { t with stripes := t.stripes.filter needed } }

/-- Copy the newest waypoint record into the anchor rings of three of the modules picked: record 0x0B0C (R486, R552). -/
def writeAnchorsOn (pick : Nat → Bool) (s : State) : State :=
  let ns := anchorSlots s pick s.mmg.wpSeq
  let copy := anchorCopy s.mmg.stream.last
  let s := if s.mmg.stream.last.isEmpty then s else ns.foldl (fun s n => writeRing copy n s) s
  record 0x0B0C mapSrc []
    (trimStream { s with mmg.metaStrips := 0,
                         mmg.anchors := (s.mmg.anchors.filter fun a => !ns.contains a.1) ++ ns.map fun n => (n, s.mmg.wpSeq) })

/-- Copy the newest waypoint record into three anchor rings (R486). -/
def writeAnchors (s : State) : State := writeAnchorsOn (fun _ => true) s

/-- A waypoint record is programmed: the writes it records are committed and their frames released, the work set and the freed
strips change, the pages it replaces go, commitment goes to the peer, and FLUSHes complete (R298, R480, R484, R528, R573). -/
def finishWaypoint (w : WaypointState) (s : State) : State :=
  let old := s.mmg.objPages.filter fun p => !w.pages.contains p
  let gone (x : Stripe) : Bool := w.freed.contains x.serial && decide (x.st = .freed)
  let dead := s.mmg.strips.filter fun e => s.ecp.stripes.any fun x => gone x && decide (x.serial = e.stripe)
  let work (l : Ledger) : Ledger :=
    if dieHeld s l.slot l.die then { l with workSet := w.workSet.contains (l.slot, l.die, l.plane, l.block) } else l
  let s := { s with
    mmg.wp := none, mmg.wpSeq := w.seq, mmg.objPages := w.pages
    mmg.stream := { s.mmg.stream with home := w.home, last := w.record }
    wlg.frames := s.wlg.frames.filter fun f => !(w.frames.contains (f.volume, f.lsn, f.index))
    wlg.commitLsn := max s.wlg.commitLsn w.commitLsn
    ecp.stripes := s.ecp.stripes.filter fun x => !gone x
    mmg.strips := s.mmg.strips.filter fun e => !dead.contains e
    mmg.ledger := s.mmg.ledger.map work }
  let used (b : Nat × Nat) : Bool := s.mmg.strips.any fun e => decide (b.1 ≤ e.num) && decide (e.num < b.1 + 4096)
  let s := { s with ecp.numBlocks := s.ecp.numBlocks.map fun b => if used b then b else (b.1, b.1) }
  let s := freePages old s
  let s := dead.foldl (fun s e => sendDelta [deltaStrip e true] s) s
  let s := sendDelta [deltaCommit s] s
  eraseFree (rebudget (settleFlushes s))

/-- The record of a waypoint has been programmed: the waypoint is whole, and no command for its page is outstanding (R484). -/
def recordDone (w : WaypointState) (s : State) : Bool :=
  w.whole &&
  (match w.place with
   | none => true
   | some (m, page) =>
     !((portOf s m.slot).cmds ++ (portOf s m.slot).waiting).any fun c =>
       decide (c.opc = 2) && decide (c.die = m.die) && decide (c.block = m.block) && c.planes.getLsbD m.plane && decide (c.page = page))

/-- WAYPOINT_COMPLETE: after 256 strips of the stream the record is copied into anchor rings, and a request that arrived during the
waypoint is served at once by the next one. The map has the layout format that the firmware writes (R484, R486, R702). -/
def execWaypointComplete (s : State) : Host.Outcome State Fault Refusal :=
  match s.mmg.wp with
  | some w =>
    if alive s && recordDone w s then
      let s := finishWaypoint w { s with upd.layout := writtenLayout s }
      let s := if 256 ≤ s.mmg.metaStrips then writeAnchors s else s
      .next (if s.mmg.wpRequest then captureWaypoint false s else s)
    else .next s
  | none => .next s

/-! ## Refresh (R504, R513 to R516) -/

/-- A block is due for refresh. -/
def dueBlock (s : State) : Bool := s.mmg.ledger.any fun l => decide (l.cls ≠ .notDue)

/-- A block's urgency has crossed a threshold: its class changes with record 0x0B05, OVERDUE with 0x0B06 and ALERT_L. While
refresh is admitted the due block's stripes are relocated. A SUSPECT or RETIRING block is emptied first (R502, R504, R515,
R516). -/
def execRefreshClass (slot die plane block : Nat) (media : List StoredRead) (s : State) : Host.Outcome State Fault Refusal :=
  match ledgerOf s slot die plane block with
  | none => .next s
  | some l =>
    if alive s && dieHeld s slot die then
      if l.st = .suspect then .next (eraseFree (relocateBlock l .suspect media s))
      else if anchorDue s l then .next (refreshRing slot s)
      else if l.st = .retiring then .next (settleRetiring (relocateBlock l .retire media s))
      else
        let c := classOfBlock s l
        let s := if c = l.cls then s
          else
            let s := record 0x0B05 ledgerSrc [] (modBlock slot die plane block (fun l => { l with cls := c }) s)
            if c = .overdue then recordAlert 0x0B06 ledgerSrc [] s else s
        let s := if c = .notDue then (if dueBlock s then s else endActivity .refresh s)
          else if s.ecp.running.contains .refresh then relocateBlock l .refresh media s
          else requestActivity .refresh s
        .next (ledgerFigures s)
    else .next s

end Sys2Proof.Machine
end

