-- ==== Sys2Proof/Machine/Erasure.lean ====
section
/-!
DEFINITION. Erasure coding and maintenance (chapter 15): closing and completing stripes, module states, rebuild,
resynchronisation, patrol, reshape, and the ECP registers.
-/
namespace Sys2Proof.Machine

/-! ## Stripes (R29, R530) -/

/-- A FLUSH or a cut that waits, or a power-fail flush, needs a write that an open stripe holds; one of map pages holds what its waypoint
needs (R29, R82, R227, R335). -/
def closeWanted (s : State) (x : Stripe) : Bool :=
  s.pwr.flushActive ||
  (s.dcq.cmds.any fun c => (decide (cmdOpcode c = 0x03) || decide (cmdOpcode c = 0x08)) && decide (c.st = .waiting) &&
    (decide (x.kind = 1) || x.entries.any fun e => decide (e.volume = cmdVolume c) && decide (e.lsn ≤ c.cover))) ||
  (s.red.volumes.any fun v => (pendingCut s v.num).any fun cut =>
    decide (x.kind = 1) || x.entries.any fun e => decide (e.volume = v.num) && decide (e.lsn ≤ cut))

/-- An open stripe closes when full, when a FLUSH needs a write it holds, or 500 ms after its first chunk (R29). -/
def execStripeClose (serial : BitVec 64) (s : State) : Host.Outcome State Fault Refusal :=
  match stripeOf s serial with
  | none => .next s
  | some x =>
    if alive s && decide (x.st = .opened) && !recordStripe s serial && (decide (x.fill = 4096 * x.k) || closeWanted s x ||
        x.openedAt.any fun t => t + 500000000 ≤ now s) then .next (closeStripe serial s)
    else .next s

/-- Every trailer has completed OK: the stripe is complete, and its data leaves DRAM; the spare is weighed against the fullest module
(R530, R537). -/
def execStripeComplete (serial : BitVec 64) (s : State) : Host.Outcome State Fault Refusal :=
  match stripeOf s serial with
  | none => .next s
  | some x =>
    if alive s && decide (x.st = .closed) && (List.range x.members.length).all x.trailers.contains then
      let s := eraseFree (modStripe serial (fun x => freeIfEmpty { x with st := .complete, strips := [] }) s)
      .next (checkSpare (if x.kind = 1 then s else noteMapChange s))
    else .next s

/-! ## Module states (R534) -/

/-- A DEGRADED module has stayed away for REJOIN_S. -/
def execRejoinTimeout (n : Nat) (s : State) : Host.Outcome State Fault Refusal :=
  let x := slotOf s n
  if alive s && decide (x.st = .degraded) && decide (x.since + s.ecp.rejoinS * 1000000000 ≤ now s) then
    .next (checkSpare (failSlot n s))
  else .next s

/-- ECP_CMD is refused (R559). -/
def ecpRefuse (s : State) : State := { s with ecp.cmdErr := true }

/-- JOIN (R534, R559). -/
def joinCmd (n : Nat) (s : State) : State :=
  if (slotOf s n).st = .joining then settleJoin n (modSlot n (fun x => { x with joinOk := true }) s) else ecpRefuse s

/-- FAIL (R534, R559). -/
def failCmd (n : Nat) (s : State) : State :=
  if (slotOf s n).st = .degraded then checkSpare (failSlot n s) else ecpRefuse s

/-- JOIN written to ECP_CMD. -/
def execJoin (slot : Nat) (s : State) : Host.Outcome State Fault Refusal :=
  if hostWriteOk s 0x0C then .next (joinCmd slot s) else .next s

/-- FAIL written to ECP_CMD. -/
def execFail (slot : Nat) (s : State) : Host.Outcome State Fault Refusal :=
  if hostWriteOk s 0x0C then .next (failCmd slot s) else .next s

/-! ## Reconstruction (R533, R542, R543) -/

/-- Region `r` of a member as read, none when it does not decode. -/
def regionRead (reads : List (Option StripRead)) (pos r : Nat) : Option (List (BitVec 8)) :=
  match reads.getD pos none with
  | some x => if x.bad.contains r then none else some (slice x.bytes (4096 * r) 4096)
  | none => none

/-- Region `r` of a member from the others, taking any K' that decode; none when fewer do. -/
def regionRebuilt (x : Stripe) (reads : List (Option StripRead)) (pos r : Nat) : Option (List (BitVec 8)) :=
  let known := ((List.range x.members.length).filter (· ≠ pos)).filterMap fun q => (regionRead reads q r).map fun b => (q, b)
  if known.length < x.k then none else some (rebuildMember x.k pos (known.take x.k))

/-- Region `r` of a member as read, else as reconstructed. -/
def regionOfStrip (x : Stripe) (reads : List (Option StripRead)) (pos r : Nat) : Option (List (BitVec 8)) :=
  (regionRead reads pos r).or (regionRebuilt x reads pos r)

/-- Regions of 4 096 bytes that an object's bytes touch: strip and region. -/
def objectRegions (x : Stripe) (t : TrailerEntry) : List (Nat × Nat) :=
  let a := 256 * (t.grain.toNat - x.base)
  let n := 256 * t.len
  (List.range ((a + n + 4095) / 4096 - a / 4096)).map fun i => ((a / 4096 + i) / 256, (a / 4096 + i) % 256)

/-- The bytes of an object from a stripe's members by `get`, zeros where a region is missing, and whether one is missing. -/
def objectBytes (x : Stripe) (get : Nat → Nat → Option (List (BitVec 8))) (t : TrailerEntry) : List (BitVec 8) × Bool :=
  let rs := (objectRegions x t).map fun p => get p.1 p.2
  let all := rs.flatMap fun r => r.getD (List.replicate 4096 0)
  (slice all (256 * (t.grain.toNat - x.base) % 4096) (256 * t.len), rs.any (·.isNone))

/-- Sectors of a RAW chunk with bytes in a missing region (R543): sector `t` lies at container bytes 128 + 4 096 t. -/
def missingSectors (x : Stripe) (get : Nat → Nat → Option (List (BitVec 8))) (t : TrailerEntry) : BitVec 8 :=
  let a := 256 * (t.grain.toNat - x.base)
  let bad (off : Nat) : Bool := (get (off / 4096 / 256) (off / 4096 % 256)).isNone
  BitVec.ofNat 8 ((List.range 8).foldl (fun n i =>
    let lo := a + 128 + 4096 * i
    if bad lo || bad (lo + 4095) then n + 2 ^ i else n) 0)

/-- A chunk of host data that cannot be reconstructed is lost with a cause (R543). -/
def loseObject (x : Stripe) (get : Nat → Nat → Option (List (BitVec 8))) (t : TrailerEntry) (cause : Nat) (s : State) : State :=
  match namers s t.grain.toNat with
  | [] => s
  | (v, _, e) :: _ =>
    match volOf s v with
    | none => s
    | some y =>
      let d := salvage (openStored s y.tenant (objectBytes x get t).1) (missingSectors x get t)
      loseChunk v e.chunk y.tenant e d cause s

/-- The objects of a stripe with bytes that `get` cannot give are lost; metadata never is: it is written again (R543). -/
def loseMissing (x : Stripe) (get : Nat → Nat → Option (List (BitVec 8))) (cause : Nat) (s : State) : State :=
  if x.kind = 1 then (if x.entries.any fun t => (objectBytes x get t).2 then staleMeta x s else s)
  else (x.entries.filter fun t => decide (t.kind = 0) && (objectBytes x get t).2).foldl (fun s t => loseObject x get t cause s) s

/-! ## Rebuild (R538 to R542) -/

/-- This head rebuilds the stripe (R539). -/
def rebuildsHere (s : State) (x : Stripe) : Bool := !peerUp s || x.head == s.glb.headSel

/-- Urgency of the most urgent block of a stripe, as a positive number (R513, R540). -/
def stripeUrgency (s : State) (x : Stripe) : Nat :=
  x.members.foldl (fun a m => match ledgerOf s m.slot m.die m.plane m.block with
    | some l => min a (urgencyNum s l + 2 ^ 100).toNat
    | none => a) (2 ^ 101)

/-- The key of critical order: redundant strips left, metadata first, urgency, serial (R540). -/
def criticalKey (s : State) (x : Stripe) : Nat :=
  (((x.m - x.unreadable.length) * 2 + (if x.kind = 1 then 0 else 1)) * 2 ^ 102 + stripeUrgency s x) * 2 ^ 64 + x.serial.toNat

/-- Rebuild targets in critical order; those of freed stripes are dropped (R540, R541). -/
def orderTargets (s : State) : State :=
  let keep := s.ecp.rebuildTargets.filter fun t => (stripeOf s t.1).any fun x => decide (x.st ≠ .freed) || x.rebuildRunning
  let ts := sortBy (fun t => match stripeOf s t.1 with | some x => criticalKey s x | none => 0) keep
  { s with ecp.rebuildTargets := ts, ecp.rebuildLeft := ts.length, ecp.critical := s.ecp.stripes.any noRedundancy }

/-- The last target is done: record 0x0C03 gives the end (R562). -/
def endRebuild (s : State) : State :=
  if s.ecp.rebuildTargets.isEmpty && s.ecp.rebuildOn then
    endActivity .rebuild (record 0x0C03 maintSrc [] { s with ecp.rebuildOn := false })
  else s

/-- REBUILD is admitted: record 0x0C03 gives the start, and the first target in critical order is taken up. -/
def execRebuild (s : State) : Host.Outcome State Fault Refusal :=
  if alive s && s.ecp.running.contains .rebuild then
    let s := orderTargets s
    let s := if s.ecp.rebuildOn || s.ecp.rebuildTargets.isEmpty then s
      else record 0x0C03 maintSrc [] { s with ecp.rebuildOn := true }
    match s.ecp.rebuildTargets.find? fun t => (stripeOf s t.1).any (rebuildsHere s) with
    | some t => .next (modStripe t.1 (fun x => { x with rebuildRunning := true }) s)
    | none => .next (endRebuild { s with ecp.rebuildOn := s.ecp.rebuildOn })
  else .next s

/-- Drop the targets of a stripe that a test picks. -/
def dropTargets (pick : BitVec 64 × Nat → Bool) (s : State) : State :=
  let ts := s.ecp.rebuildTargets.filter fun t => !pick t
  { s with ecp.rebuildTargets := ts, ecp.rebuildLeft := ts.length }

/-- The target whose turn it is: one whose rebuild runs, else the first in critical order that this head rebuilds (R539, R540). -/
def rebuildTurn (s : State) (x : Stripe) (pos : Nat) : Bool :=
  s.ecp.rebuildTargets.contains (x.serial, pos) &&
    (x.rebuildRunning ||
      decide (((orderTargets s).ecp.rebuildTargets.find? fun t => (stripeOf s t.1).any (rebuildsHere s)) = some (x.serial, pos)))

/-- An entry of a rebuilt strip's trailer: from a map entry that names its grain, or kept while a relocation or a waypoint names it
(R538). -/
def entryAnew (s : State) (t : TrailerEntry) : Option TrailerEntry :=
  let g := t.grain.toNat
  let who := namers s g
  match (who.find? fun w => decide (w.1 = t.volume) && decide (w.2.2.chunk = t.chunk)).or who.head? with
  | some (v, _, e) => some { t with volume := v, chunk := e.chunk, lsn := e.lsn, method := methodCode e.method, shared := e.shared }
  | none =>
    if (s.mmg.relocs.any fun r => r.new = t.grain) || (s.ecp.shadow.any fun p => p.2 = t.grain) ||
        decide (t.kind ≠ 0) then some t else none

/-- The entries of the strip at a position are rebuilt (R538). -/
def entriesAnew (s : State) (x : Stripe) (pos : Nat) : List TrailerEntry :=
  x.entries.filterMap fun t => if (t.grain.toNat - x.base) / 4096 = pos then entryAnew s t else some t

/-- Until its stripe is resynchronised, what parity gives of an object is used only when every guard checks: otherwise its regions that
were not read count as missing (R547). -/
def trustedRegions (s : State) (x : Stripe) (reads : List (Option StripRead)) (t : TrailerEntry) : Nat → Nat → Option (List (BitVec 8)) :=
  let get := regionOfStrip x reads
  let whole := objectBytes x get t
  let ok := match namers s t.grain.toNat with
    | [] => true
    | (v, _, _) :: _ => (volOf s v).any fun y => storedOk s false y.tenant whole.1
  if x.resynced || whole.2 || ok then get else regionRead reads

/-- A target strip is reconstructed from the members read and written to another module; regions that fewer than K' members give
are zeros and their chunks are lost. A stripe that cannot be rebuilt loses the chunks of its unreadable strips, and the others
are relocated (R538, R541, R542). -/
def execStripeRebuilt (serial : BitVec 64) (pos : Nat) (reads : List (Option StripRead)) (s : State) :
    Host.Outcome State Fault Refusal :=
  match stripeOf s serial with
  | none => .next s
  | some x =>
    if alive s && s.ecp.running.contains .rebuild && rebuildsHere s x && rebuildTurn s x pos then
      let get := regionOfStrip x reads
      if x.st = .freed then
        .next (endRebuild (dropTargets (fun t => t.1 = serial) (modStripe serial (fun x => { x with rebuildRunning := false }) s)))
      else if x.m < x.unreadable.length then
        let s := if x.kind = 1 then staleMeta x s else loseMissing x get 1 s
        let media := x.entries.map fun t =>
          { grain := t.grain.toNat, lane := 0, direct := some (objectBytes x get t).1, others := [], region := 0 : StoredRead }
        let s := (x.entries.filter fun t => decide (t.kind = 0) && !(objectBytes x get t).2).foldl
          (fun s t => relocateObject .lost media t s) s
        .next (endRebuild (dropTargets (fun t => t.1 = serial) (modStripe serial (fun x => { x with rebuildRunning := false }) s)))
      else
        let bytes := (List.range 256).flatMap fun r => (get pos r).getD (List.replicate 4096 0)
        let s := loseMissing x get 1 s
        let s := (x.entries.filter fun t => decide (t.kind = 0) && !(objectBytes x get t).2).foldl (fun s t =>
          let get' := trustedRegions s x reads t
          if (objectBytes x get' t).2 then loseObject x get' t 1 s else s) s
        let s := modStripe serial (fun y => { y with entries := entriesAnew s y pos }) s
        let s := dropTargets (fun t => decide (t.1 = serial) && decide (t.2 = pos)) s
        let s := moveStrip (.maint .rebuild) serial pos (some bytes) (modStripe serial (fun x => { x with rebuildRunning := false }) s)
        .next (endRebuild (checkSpare (settleRetiring (noteMapChange s))))
    else .next s

/-! ## Resynchronisation and patrol (R545 to R548) -/

/-- Check the container of one trailer entry: one that does not hold is reconstructed from the strips it does not touch and moved as
suspect, or lost with the cause. Answers whether a container of the stripe has been reconstructed (R546, R548). -/
def checkObject (x : Stripe) (reads : List (Option StripRead)) (cause : Nat) (fixed : Bool) (t : TrailerEntry) (s : State) : Bool × State :=
  let get := regionOfStrip x reads
  match (namers s t.grain.toNat).head?.bind fun w => volOf s w.1 with
  | none => (fixed, s)
  | some y =>
    let mine := objectBytes x get t
    if !mine.2 && storedOk s false y.tenant mine.1 then (fixed, s)
    else
      let strips := (objectRegions x t).map (·.1)
      let other (p r : Nat) : Option (List (BitVec 8)) :=
        if strips.contains p then regionRebuilt x reads p r else get p r
      let again := objectBytes x other t
      if !again.2 && storedOk s false y.tenant again.1 then
        (true, if s.mmg.relocs.any fun r => r.old = t.grain then s else moveObject t.grain.toNat again.1 t .suspect s)
      else (fixed, loseObject x get t cause s)

/-- Check one stripe: containers that fail are reconstructed and rewritten, or lost with a cause; parity that differs, and all of it
once a container has been reconstructed, is written afresh with record 0x0C07 (R546, R548). -/
def checkStripe (work : Activity) (x : Stripe) (reads : List (Option StripRead)) (cause : Nat) (s : State) : State :=
  let get := regionOfStrip x reads
  let s := if x.kind = 1 then loseMissing x get cause s else s
  let (fixed, s) := (x.entries.filter fun t => t.kind = 0).foldl (fun acc t => checkObject x reads cause acc.1 t acc.2) (false, s)
  let data := (List.range x.k).map fun j => (List.range 256).flatMap fun r => (get j r).getD (List.replicate 4096 0)
  let wrong := (List.range x.m).filter fun i =>
    fixed || decide (((List.range 256).flatMap fun r => (regionRead reads (x.k + i) r).getD (List.replicate 4096 0)) ≠ parityStrip i data)
  let s := wrong.foldl (fun s i => moveStrip (.maint work) x.serial (x.k + i) (some (parityStrip i data)) s) s
  if wrong.isEmpty then s else noteMapChange (record 0x0C07 erasureSrc [] s)

/-- The resynchronisation after an unclean stop starts once admitted, or ends with its queue: record 0x0C06 (R545). -/
def execResync (s : State) : Host.Outcome State Fault Refusal :=
  if alive s && s.ecp.resyncPending then
    if s.ecp.resyncQueue.isEmpty then
      .next (endActivity .resync (record 0x0C06 maintSrc [] { s with ecp.resyncPending := false, ecp.resyncOn := false, ecp.resyncBound := 0 }))
    else if s.ecp.running.contains .resync && !s.ecp.resyncOn then
      .next (record 0x0C06 maintSrc [] { s with ecp.resyncOn := true })
    else .next s
  else .next s

/-- The stripe at the head of the queue is read and checked (R546). -/
def execStripeResync (reads : List (Option StripRead)) (s : State) : Host.Outcome State Fault Refusal :=
  if alive s && s.ecp.running.contains .resync then
    match s.ecp.resyncQueue with
    | [] => .next s
    | serial :: t =>
      let s := { s with ecp.resyncQueue := t }
      match stripeOf s serial with
      | some x =>
        if x.st = .complete then
          .next (checkStripe .resync x reads 2 (modStripe serial (fun x => { x with resynced := true }) s))
        else .next (modStripe serial (fun x => { x with resynced := true }) s)
      | none => .next s
  else .next s

/-- A patrol pass begins. -/
def startPatrol (s : State) : State :=
  requestActivity .patrol
    { s with ecp.patrolOn := true, ecp.patrolStart := some (now s), ecp.patrolDay := 0,
             ecp.stripes := s.ecp.stripes.map fun x => { x with patrolled := false } }

/-- A patrol day in ns. -/
def patrolDayNs : Nat := 24 * hourNs

/-- The next patrol pass is due; none ever is while PATROL_DAYS is 0 (R548). -/
def patrolDue (s : State) : Bool :=
  decide (0 < s.ecp.patrolDays) && !s.ecp.patrolOn &&
    (match s.ecp.patrolStart with | some t => decide (t + s.ecp.patrolDays * patrolDayNs ≤ now s) | none => true)

/-- PATROL: a pass begins when due; while admitted, a closed stripe is checked; the pass ends with the last one (R548). -/
def execPatrol (check : Option (BitVec 64 × List (Option StripRead))) (s : State) : Host.Outcome State Fault Refusal :=
  if alive s then
    if s.ecp.patrolOn then
      let s := { s with ecp.patrolDay := (now s - s.ecp.patrolStart.getD (now s)) / patrolDayNs }
      let s := match check with
        | some (serial, reads) =>
          (match stripeOf s serial with
           | some x =>
             if s.ecp.running.contains .patrol && decide (x.st = .complete) && !x.patrolled then
               checkStripe .patrol x reads 5 (modStripe serial (fun x => { x with patrolled := true }) s)
             else s
           | none => s)
        | none => s
      if s.ecp.stripes.any fun x => decide (x.st = .complete) && !x.patrolled then .next s
      else .next (endActivity .patrol { s with ecp.patrolOn := false })
    else if patrolDue s then .next (startPatrol s)
    else .next s
  else .next s

/-- PATROL_NOW: a pass starts at once, but never while PATROL_DAYS is 0 (R548, R559). -/
def patrolNow (s : State) : State := if s.ecp.patrolDays = 0 ∨ s.ecp.patrolOn then s else startPatrol s

/-- PATROL_NOW written to ECP_CMD. -/
def execPatrolNow (s : State) : Host.Outcome State Fault Refusal :=
  if hostWriteOk s 0x0C then .next (patrolNow s) else .next s

/-! ## Reshape (R549 to R553) -/

/-- Slots of the drain mask. -/
def drainSlots (s : State) : List Nat := (List.range 48).filter fun n => s.ecp.drainMask.getLsbD n

/-- DRAINING slots. -/
def drainingSlots (s : State) : List Nat := (List.range 48).filter fun n => (slotOf s n).st = .draining

/-- A stripe has a member on a slot of a list. -/
def onSlots (ns : List Nat) (x : Stripe) : Bool := x.members.any fun m => ns.contains m.slot

/-- Volumes that entries of a stripe belong to. -/
def stripeVolumes (s : State) (x : Stripe) : List Nat :=
  (x.entries.filter fun t => t.kind = 0).flatMap fun t => (namers s t.grain.toNat).map (·.1)

/-- The affected set: the range's volumes and those with a chunk in a stripe that has a member on a draining module (R549). -/
def affectedVolumes (s : State) (first last : Nat) : List Nat :=
  let drained := (s.ecp.stripes.filter fun x => decide (x.st ≠ .freed) && onSlots (drainSlots s) x).flatMap (stripeVolumes s)
  (sortBy id (s.red.volumes.map (·.num))).filter fun v =>
    (decide (first ≤ v) && decide (v ≤ last)) || drained.contains v

/-- K and M meet R524. -/
def geomValid (k m : Nat) : Bool := decide (4 ≤ k ∧ k ≤ 21) && decide (m = 2 ∨ m = 3) && decide (k + m ≤ 24)

/-- Strips that the affected stripes take in the target geometry, times the target K (R549): the sum of K' (K + M). -/
def reshapeNeed (s : State) (k m : Nat) (vols : List Nat) : Nat :=
  (s.ecp.stripes.filter fun x => decide (x.st ≠ .freed) && (stripeVolumes s x).any vols.contains).foldl
    (fun a x => a + (if k = 0 then x.k + (if m = 0 then x.m else m) else x.k * (k + (if m = 0 then x.m else m)))) 0

/-- RESHAPE_START is refused (R549). -/
def reshapeRefused (s : State) (vols target : List Nat) : Bool :=
  let k := s.ecp.cfgK
  let m := s.ecp.cfgM
  let geoms := vols.filterMap fun v => (volOf s v).map fun x => (if k = 0 then x.k else k, if m = 0 then x.m else m)
  let free := target.foldl (fun a n => a + freeBeyondSpare s n * slotsPerBlock s n) 0
  decide (s.glb.mode ≠ .ready) || decide (s.ecp.reshape ≠ 0) ||
  (decide (k ≠ 0) && !decide (4 ≤ k ∧ k ≤ 21)) || (decide (m ≠ 0) && !decide (m = 2 ∨ m = 3)) ||
  (decide (k ≠ 0) && decide (m ≠ 0) && !geomValid k m) || (geoms.any fun g => !geomValid g.1 g.2) ||
  (geoms.any fun g => target.length < g.1 + g.2 + 1) || (decide (k ≠ 0 ∧ m ≠ 0 ∧ target.length < k + m + 1)) ||
  decide (10 * free * (if k = 0 then 1 else k) < 11 * reshapeNeed s k m vols)

/-- Grains of a volume's chunks that lie outside the target layout (R550). -/
def outsideTarget (s : State) (v : Nat) : List TrailerEntry :=
  match volOf s v with
  | none => []
  | some y =>
    let g := targetGeom s y
    (s.ecp.stripes.filter fun x => decide (x.st = .complete) &&
      (decide (x.geomK ≠ g.1) || decide (x.m ≠ g.2) || decide (x.kind ≠ 0) || onSlots (drainingSlots s) x)).flatMap fun x =>
        x.entries.filter fun t => decide (t.kind = 0) && (namers s t.grain.toNat).any fun w => w.1 = v

/-- Grains left to copy for the volumes that remain (R561). -/
def reshapeLeftOf (s : State) : Nat :=
  s.ecp.reshapeVols.foldl (fun a v => ((outsideTarget s v).filter fun t => !(s.ecp.shadow.any fun p => p.1 = t.grain)).foldl
    (fun a t => a + t.len) a) 0

/-- RESHAPE_START: refused, or the drain set becomes DRAINING and the volumes are taken one by one (R549, R550). -/
def reshapeStart (s : State) : State :=
  let target := (memberSlots s).filter fun n => !(drainSlots s).contains n
  let vols := affectedVolumes s s.ecp.volFirst s.ecp.volLast
  if reshapeRefused s vols target then ecpRefuse s
  else
    let s := ((drainSlots s).filter fun n => (slotOf s n).st = .member).foldl (fun s n => setLayout n .draining s) s
    let s := record 0x0C08 maintSrc []
      { s with ecp.reshape := 1, ecp.targetK := s.ecp.cfgK, ecp.targetM := s.ecp.cfgM, ecp.reshapeVols := vols,
               ecp.reshapeVolume := vols.headD 0, ecp.shadow := [],
               ecp.rangeFirst := s.ecp.volFirst, ecp.rangeLast := s.ecp.volLast }
    noteMapChange (requestActivity .reshape { s with ecp.reshapeLeft := reshapeLeftOf s })

/-- RESHAPE_START written to ECP_CMD. -/
def execReshapeStart (s : State) : Host.Outcome State Fault Refusal :=
  if hostWriteOk s 0x0C then .next (reshapeStart s) else .next s

/-- The reshape has ended or is cancelled: record 0x0C08. -/
def reshapeOver (s : State) : State :=
  endActivity .reshape (record 0x0C08 maintSrc []
    { s with ecp.reshape := 0, ecp.reshapeVols := [], ecp.reshapeVolume := 0, ecp.reshapeLeft := 0, ecp.shadow := [],
             ecp.targetK := 0, ecp.targetM := 0 })

/-- RESHAPE_CANCEL: the copies of the volume in progress are freed and draining modules return to MEMBER (R553). -/
def reshapeCancel (s : State) : State :=
  if s.ecp.reshape = 0 then ecpRefuse s
  else
    let s := s.ecp.shadow.foldl (fun s p => freeGrains p.2.toNat (((trailerOf s p.2.toNat).map (·.len)).getD 0) s) s
    let s := (drainingSlots s).foldl (fun s n => setLayout n .member s) s
    noteMapChange (reshapeOver s)

/-- RESHAPE_CANCEL written to ECP_CMD. -/
def execReshapeCancel (s : State) : Host.Outcome State Fault Refusal :=
  if hostWriteOk s 0x0C then .next (reshapeCancel s) else .next s

/-- Copy one chunk of the volume in progress into the target layout: ciphertext, serial and LSN kept, MOVED set; its new address
goes into the shadow map (R550). -/
def copyShadow (v : Nat) (media : List StoredRead) (t : TrailerEntry) (s : State) : State :=
  let moving (s : State) : Bool := (s.ecp.shadow.any fun p => p.1 = t.grain) || s.mmg.relocs.any fun r => r.old = t.grain
  match (namers s t.grain.toNat).head?.bind fun w => (volOf s w.1).map fun x => (w.1, x.tenant, w.2.2) with
  | none => s
  | some (w, tenant, e) =>
    if moving s || !(media.any fun r => r.grain = t.grain.toNat) then s
    else
    let s := (readStored false w e.chunk tenant e 3 media s).2
    if moving s then s
    else
    match soundBytes s tenant t.grain.toNat e.grains media with
    | none => s
    | some b =>
      let g := geomOf s v
      match placeObject g.1 g.2 0 b { t with moved := true } s with
      | (some a, s) => { s with ecp.shadow := s.ecp.shadow ++ [(t.grain, BitVec.ofNat 43 a)] }
      | (none, s) => s

/-- The volume's entries that still name an old address take its shadow address, its geometry becomes the target, the old grains are
freed and a waypoint follows (R551). -/
def switchVolume (v : Nat) (s : State) : State :=
  let s := s.ecp.shadow.foldl (fun s p =>
    endReloc { stripe := ((stripeAt s p.1.toNat).map (·.serial)).getD 0, old := p.1, new := p.2,
               len := ((trailerOf s p.2.toNat).map (·.len)).getD 0, cause := .reshape } s) s
  let s := match volOf s v with
    | some x =>
      let g := targetGeom s x
      let y := { x with k := g.1, m := g.2 }
      sendDelta [deltaVol s y false] (modVol v (fun _ => y) s)
    | none => s
  let rest := s.ecp.reshapeVols.filter (· ≠ v)
  let s := record 0x0C08 maintSrc []
    { s with ecp.shadow := [], ecp.reshapeVols := rest, ecp.reshapeVolume := rest.headD 0, mmg.wpRequest := true }
  eraseFree (noteMapChange s)

/-- A volume in progress that the peer owns has been reshaped by its owner, as the deltas show (R550, R574). -/
def peerReshaped (s : State) (v : Nat) : Bool :=
  !owns s v && (volOf s v).all fun y => decide ((y.k, y.m) = targetGeom s y) && (outsideTarget s v).isEmpty

/-- The next volume of the reshape (R550). -/
def nextVolume (s : State) : State :=
  { s with ecp.reshapeVols := s.ecp.reshapeVols.drop 1, ecp.reshapeVolume := (s.ecp.reshapeVols.drop 1).headD 0 }

/-- RESHAPE: copying goes on for the volume in progress with what the modules returned; once every chunk outside the target layout is
copied and programmed, the volume switches. After the last one the flush strips on draining modules move too (R550 to R552). -/
def execReshape (media : List StoredRead) (s : State) : Host.Outcome State Fault Refusal :=
  if alive s && s.ecp.running.contains .reshape then
    if s.ecp.reshape = 1 then
      match s.ecp.reshapeVols with
      | v :: _ =>
        if !owns s v then .next (if peerReshaped s v then nextVolume s else s)
        else
        let s := (outsideTarget s v).foldl (fun s t => copyShadow v media t s) s
        let left := (outsideTarget s v).any fun t => !(s.ecp.shadow.any fun p => p.1 = t.grain)
        let done := s.ecp.shadow.all fun p => grainsDone s p.2.toNat (((trailerOf s p.2.toNat).map (·.len)).getD 1)
        let s := if left || !done then s else switchVolume v s
        .next { s with ecp.reshapeLeft := reshapeLeftOf s }
      | [] =>
        if (drainingSlots s).isEmpty then .next (reshapeOver s) else .next { s with ecp.reshape := 2 }
    else if s.ecp.reshape = 2 then
      let s := if s.ecp.stripes.any fun x => decide (x.st = .opened) && recordStripe s x.serial && onSlots (drainingSlots s) x
        then leaveStream s else s
      .next ((s.ecp.stripes.filter fun x => decide (x.st = .complete) && onSlots (drainingSlots s) x).foldl
        (fun s x => relocateStripe x.serial .drain media s) s)
    else .next s
  else .next s

/-- A draining module holds no live strip: DRAINED, record 0x0C09, its reservations released and its anchor copies on the
target set; with the last one the reshape ends (R552). -/
def execModuleDrained (n : Nat) (s : State) : Host.Outcome State Fault Refusal :=
  if alive s && decide ((slotOf s n).st = .draining) && decide (s.ecp.reshape = 2) && decide (liveStrips s n = 0) then
    let s := record 0x0C09 maintSrc [] (setLayout n .drained s)
    let s := if 0 < dieCount s n then dmlIssue n (dieRange 0x11 0 (dieCount s n)) s else s
    let s := if s.mmg.anchors.any fun a => a.1 = n
      then writeAnchorsOn (fun m => decide ((slotOf s m).st = .member))
        { s with mmg.anchors := s.mmg.anchors.filter fun a => a.1 ≠ n } else s
    if (drainingSlots s).isEmpty then .next (reshapeOver s) else .next s
  else .next s

/-! ## Registers (R558 to R561) -/

/-- Every policy field lies in the range of R558, and FLUSH_M covers every volume's M (R560). -/
def policyOk (s : State) (e : Ecp) : Bool :=
  decide (4 ≤ e.defK ∧ e.defK ≤ 21) && decide (e.defM = 2 ∨ e.defM = 3) && decide (4 ≤ e.flushK ∧ e.flushK ≤ 21) &&
  decide (e.flushM = 2 ∨ e.flushM = 3) && decide (e.sparePct ≤ 25) &&
  decide (10 ≤ e.rebuildShare ∧ e.rebuildShare ≤ 90) && decide (5 ≤ e.resyncShare ∧ e.resyncShare ≤ 50) &&
  decide (5 ≤ e.reshapeShare ∧ e.reshapeShare ≤ 50) && decide (2 ≤ e.gcShare ∧ e.gcShare ≤ 20) &&
  decide (5 ≤ e.elevatedShare ∧ e.elevatedShare ≤ 50) && decide (1 ≤ e.splitWlShare ∧ e.splitWlShare ≤ 20) &&
  decide (e.patrolShare ≤ 10) && decide (20 ≤ e.maintCap ∧ e.maintCap ≤ 90) &&
  decide (e.rebuildShare ≤ e.critShare ∧ e.critShare ≤ 90) && decide (e.patrolDays ≤ 3650) &&
  (s.red.volumes.all fun x => x.m ≤ e.flushM)

/-- The policy with one register written (R560). -/
def policyWith (off : Nat) (w : BitVec 32) (e : Ecp) : Ecp :=
  if off = 0x1C then { e with rebuildShare := fld w 0 8, resyncShare := fld w 8 8, reshapeShare := fld w 16 8, maintCap := fld w 24 8 }
  else if off = 0x20 then { e with gcShare := fld w 0 8, elevatedShare := fld w 8 8, splitWlShare := fld w 16 8, patrolShare := fld w 24 8 }
  else if off = 0x24 then { e with sparePct := fld w 0 8, autoJoin := bitOf w 8, rejoinS := fld w 16 16 }
  else if off = 0x50 then
    { e with defK := fld w 0 5, defM := fld w 5 2, flushK := fld w 8 5, flushM := fld w 13 2, critShare := fld w 16 8 }
  else if off = 0x54 then { e with patrolDays := fld w 0 12 }
  else e

/-- ECP_CMD (R559). -/
def ecpCmd (w : BitVec 32) (s : State) : State :=
  match fld w 0 4 with
  | 1 => reshapeStart s
  | 2 => reshapeCancel s
  | 3 => joinCmd (fld w 8 8) s
  | 4 => failCmd (fld w 8 8) s
  | 5 => patrolNow s
  | _ => ecpRefuse s

/-- Write of a register of the ECP block at an offset within it. -/
def ecpWrite (off : Nat) (w : BitVec 32) (s : State) : State :=
  if off = 0x0 then { s with ecp.cmdErr := s.ecp.cmdErr && !bitOf w 6, ecp.lost := s.ecp.lost && !bitOf w 7 }
  else if off = 0x4 then ecpCmd w s
  else if off = 0x8 then { s with ecp.cfgK := fld w 0 5, ecp.cfgM := fld w 5 2 }
  else if off = 0xC then { s with ecp.volFirst := fld w 0 16, ecp.volLast := fld w 16 16 }
  else if [0x1C, 0x20, 0x24, 0x50, 0x54].contains off then
    let e := policyWith off w s.ecp
    if policyOk s e then noteMapChange { s with ecp := { e with shareWas := some (dieWindow s, sharesNow s) } } else ecpRefuse s
  else s

/-- Commit of ECP_DRAIN_MASK; bits [63:48] are 0 (R561). -/
def ecpCommit (off : Nat) (v : BitVec 64) (s : State) : State :=
  if off = 0x10 then { s with ecp.drainMask := v &&& 0xFFFFFFFFFFFF } else s

end Sys2Proof.Machine
end

