-- ==== Sys2Proof/Machine/DeltaOps.lean ====
section
/-!
DEFINITION. What a map delta record does at the head that receives it, one definition for each KIND of R575, and the
records that describe the whole of a head's map state, which a rejoining peer receives (R574, R575, R587).
-/
namespace Sys2Proof.Machine

/-- Method of a code (R489). -/
def methodOf (n : Nat) : Method := if n = 1 then .kernel else if n = 3 then .zero else .raw

/-- The map entry that a 64-bit word holds, for a chunk with a recorded LSN (R489). -/
def entryOfWord (chunk lsn w : Nat) : MapEntry :=
  let m := methodOf (w / 2 ^ 51 % 4)
  { chunk := chunk, method := m, grain := BitVec.ofNat 43 w, lsn := lsn,
    grains := match m with | .zero => 0 | _ => w / 2 ^ 43 % 256 + 1
    shared := decide (w / 2 ^ 53 % 2 = 1) }

/-- Pairs that no version names go, without any count: the records that follow carry the counts. -/
def dropPairsQuiet (s : State) : State :=
  { s with red.pages := s.red.pages.filter fun p => decide (0 < pairRefs s p.id) }

/-- KIND 1: an entry of the live version, or of a snapshot whose entry moved. -/
def applyEntry (r : DeltaRec) (s : State) : State :=
  let chunk := r.key.toNat
  let e := if r.delete then none else some (entryOfWord chunk r.lsn (leAt r.value 0 8))
  if r.snap = 0 then
    let s := ownPair false r.volume (chunk / 512) s
    match (volOf s r.volume).bind fun x => x.table.find? fun t => t.1 = chunk / 512 with
    | some (_, id) => modPair id (putInPair chunk r.lsn e) s
    | none => s
  else
    match (volOf s r.volume).bind fun x => (x.snaps.find? fun p => p.num = r.snap).bind fun p =>
        p.table.find? fun t => t.1 = chunk / 512 with
    | some (_, id) => modPair id (putInPair chunk r.lsn e) s
    | none => s

/-- A member location of 8 bytes (R481). -/
def memberOf (bs : List (BitVec 8)) : Member :=
  { slot := leAt bs 0 1, die := leAt bs 1 1, plane := leAt bs 2 1, strip := leAt bs 3 1, block := leAt bs 4 3 }

/-- The strip table entry of 32 bytes (R482). -/
def stripOf (num : Nat) (bs : List (BitVec 8)) : StripEntry :=
  let pos := leAt bs 8 1
  let m := leAt bs 10 1
  { num := num, member := memberOf bs, position := pos, k := leAt bs 9 1, m := m, kind := leAt bs 11 1,
    parity := if pos < m then some (memberOf (bs.drop 16)) else none
    stripe := BitVec.ofNat 64 (leAt bs 24 8) }

/-- The stripe as its strip table entries show it at the head that did not build it. -/
def stripeSeen (s : State) (e : StripEntry) : Stripe :=
  (stripeOf s e.stripe).getD
    { Stripe.reset with
      serial := e.stripe, base := 4096 * (e.num - e.position), k := e.k, m := e.m, geomK := e.k, kind := e.kind,
      head := e.stripe.getLsbD 63, st := .complete, members := List.replicate (e.k + e.m) Member.reset,
      wseq := s.xhl.peerWp }

/-- KIND 2: a strip table entry is set, and its stripe follows; or it goes, and with its last entry the stripe. -/
def applyStrip (r : DeltaRec) (s : State) : State :=
  let e := stripOf r.key.toNat r.value
  let rest := s.mmg.strips.filter fun t => t.num ≠ r.key.toNat
  if r.delete then
    let gone := (s.mmg.strips.find? fun t => t.num = r.key.toNat).map (·.stripe)
    let s := { s with mmg.strips := rest }
    { s with ecp.stripes := s.ecp.stripes.filter fun x =>
        !(gone = some x.serial && !(rest.any fun t => t.stripe = x.serial)) }
  else
    let x := stripeSeen s e
    let ms := x.members.set e.position e.member
    let ms := match e.parity with | some p => ms.set (e.k + e.position) p | none => ms
    let x := { x with members := ms }
    { s with mmg.strips := rest ++ [e], ecp.stripes := (s.ecp.stripes.filter fun y => y.serial ≠ x.serial) ++ [x] }

/-- Block state of a code (R478). -/
def blockOfCode (n : Nat) : BlockState :=
  if n = 1 then .reserve else if n = 2 then .opened else if n = 3 then .closed else if n = 4 then .suspect
  else if n = 5 then .retiring else if n = 6 then .retired else if n = 7 then .anchor else .free

/-- The ledger entry of a block from its 32 bytes (R478). -/
def ledgerOfBytes (slot die plane block : Nat) (v : List (BitVec 8)) : Ledger :=
  let fl := BitVec.ofNat 8 (leAt v 1 1)
  { Ledger.reset with
    slot := slot, die := die, plane := plane, block := block, st := blockOfCode (leAt v 0 1)
    ber := fl.getLsbD 0, disturb := fl.getLsbD 1, workSet := fl.getLsbD 2, eraseSuspended := fl.getLsbD 3
    retrySet := leAt v 2 1, erases := leAt v 4 4, programTime := leAt v 8 8, age := leAt v 16 8, reads := leAt v 24 4 }

/-- The strip slots of a block that stripes have taken: all of a CLOSED one (R471, R529). -/
def withUsed (s : State) (xs : List Stripe) (l : Ledger) : Ledger :=
  let used := xs.foldl (fun n x => n + (x.members.filter fun m => isBlock l m.slot m.die m.plane m.block).length) 0
  { l with used := if l.st = .closed then slotsPerBlock s l.slot else if l.st = .opened then used else 0 }

/-- KIND 3: a ledger entry (R478). -/
def applyLedger (r : DeltaRec) (s : State) : State :=
  let w := r.key.toNat
  let l := withUsed s s.ecp.stripes (ledgerOfBytes (w % 256) (w / 2 ^ 8 % 256) (w / 2 ^ 16 % 4) (w / 2 ^ 32 % 2 ^ 24) r.value)
  { s with mmg.ledger := (s.mmg.ledger.filter fun x => !isBlock x l.slot l.die l.plane l.block) ++ [l] }

/-- A signed 64-bit integer in bytes. -/
def intAt (bs : List (BitVec 8)) (off : Nat) : Int := (BitVec.ofNat 64 (leAt bs off 8)).toInt

/-- KIND 4: a lock (R575). -/
def applyLock (r : DeltaRec) (s : State) : State :=
  let l : Lock := { lba := r.key.toNat, count := leAt r.value 0 8, expiry := intAt r.value 8, placed := intAt r.value 16 }
  modVol r.volume (fun x =>
    let same (k : Lock) : Bool := decide (k.lba = l.lba) && decide (k.count = l.count) && decide (k.expiry = l.expiry)
    { x with locks := if r.delete then x.locks.filter fun k => !same k else x.locks ++ [l] }) s

/-- Splits that a seed space has seen when it holds a bucket of this number (R323). -/
def growTo (bucket : Nat) (x : SeedSpace) : SeedSpace :=
  if bucket < 2 ^ x.b + x.splitPtr then x
  else { x with b := Nat.log2 bucket, splitPtr := bucket + 1 - 2 ^ Nat.log2 bucket }

/-- The seed record of a slot from its 32 bytes (R320, R321). -/
def seedOfBytes (bucket slot : Nat) (v : List (BitVec 8)) : SeedSlot :=
  { bucket := bucket, slot := slot, tag := BitVec.ofNat 16 (if leAt v 8 2 = 0 then 1 else leAt v 8 2),
    fp := slice v 0 16, location := BitVec.ofNat 64 (leAt v 16 8), count := leAt v 24 4 }

/-- KIND 5: a seed record (R321). -/
def applySeed (r : DeltaRec) (s : State) : State :=
  let k := r.key.toNat
  let tenant := k / 2 ^ 48
  let bucket := k % 2 ^ 48 / 32
  let e := seedOfBytes bucket (k % 32) r.value
  let s := { s with red.spaces := s.red.spaces.map fun x => if x.tenant = tenant then growTo bucket x else x }
  setSeedSlot tenant bucket (k % 32) (if r.delete then none else some e) s

/-- KIND 6: a share record (R331). -/
def applyShare (r : DeltaRec) (s : State) : State :=
  setShare r.key.toNat (if r.delete then none else some (leAt r.value 8 4)) s

/-- A dedup key that has come binds the seed space of its tenant's first volume (R318, R321). -/
def openSpaceSeen (tenant k m : Nat) (s : State) : State :=
  if (spaceOf s tenant).isSome then s
  else
    match s.sec.slots.find? fun x => x.dedup = some tenant with
    | none => s
    | some x =>
      { s with red.spaces := s.red.spaces ++
          [{ SeedSpace.reset with tenant := tenant, keySlot := x.num, key := x.key, k := k, m := m }] }

/-- KIND 7: bytes 0 to 31 of a volume information page (R234). -/
def applyVolume (r : DeltaRec) (s : State) : State :=
  if r.delete then
    let tenant := (volOf s r.volume).map (·.tenant)
    let s := dropPairsQuiet { s with red.volumes := s.red.volumes.filter fun x => x.num ≠ r.volume }
    { s with red.spaces := s.red.spaces.filter fun x => !(tenant = some x.tenant &&
        !(s.red.volumes.any fun y => y.tenant = x.tenant)) }
  else
    let tenant := leAt r.value 8 2
    let fl := BitVec.ofNat 8 (leAt r.value 13 1)
    let set (x : Volume) : Volume :=
      { x with size := leAt r.value 0 8, tenant := tenant, k := leAt r.value 11 1, m := leAt r.value 12 1,
               reduce := fl.getLsbD 0, dedup := fl.getLsbD 1, verify := fl.getLsbD 2 }
    let s := if fl.getLsbD 1 then openSpaceSeen tenant (leAt r.value 11 1) (leAt r.value 12 1) s else s
    let s := { s with lds.tenants := if s.lds.tenants.any fun t => t.id = tenant then s.lds.tenants
      else s.lds.tenants ++ [redefine s { Tenant.reset with id := tenant }] }
    if (volOf s r.volume).isSome then modVol r.volume set s
    else { s with red.volumes := insertBy (·.num) (set { Volume.reset with num := r.volume }) s.red.volumes }

/-- KIND 9: the peer's COMMIT_LSN. Frames of the volumes this head does not own are released up to it (R298, R573). -/
def releaseCommitted (lsn : Nat) (s : State) : State :=
  rebudget { s with
    xhl.peerCommit := max s.xhl.peerCommit lsn
    wlg.frames := s.wlg.frames.filter fun f => owns s f.volume || decide (f.st = .filling) || decide (lsn < f.lsn) }

/-- KIND 10: a pin record, or a wrapped key (R393, R495). A key that does not unwrap writes record 0x0905 with cause 3. -/
def applyKey (r : DeltaRec) (s : State) : State :=
  let index := r.key.toNat
  if 0xFFFFFFF0 ≤ index then setPin index (pinOf r) s
  else
    let n := index % 65536
    let kind := index / 65536 % 4
    let key := if r.delete then some [] else s.sec.arrayKey.bind fun a => Config.kwUnwrap a (r.value.take 40)
    match key with
    | none => record 0x0905 (srcId 3 4 0) [n, 0, 3] s
    | some k =>
      let t := (tenantKey s n).getD { tenant := n, key1 := [], key2 := [] }
      let rest := s.sec.tenants.filter fun x => x.tenant ≠ n
      if kind = 0 ∨ kind = 1 then
        if r.delete then keyGenUp { s with sec.tenants := rest }
        else keyGenUp { s with sec.tenants := rest ++ [if kind = 0 then { t with key1 := k } else { t with key2 := k }] }
      else if kind = 2 then
        match s.sec.slots.find? fun x => x.dedup = some n, freeKeySlot s with
        | some x, _ =>
          if r.delete then keyGenUp (putKeySlot { x with key := [], present := false, dedup := none } s)
          else keyGenUp (putKeySlot { x with key := k } s)
        | none, some i =>
          if r.delete then s else keyGenUp (putKeySlot { keySlotOf s i with key := k, present := true, dedup := some n } s)
        | none, none => s
      else keyGenUp (putKeySlot { keySlotOf s n with key := k, present := !r.delete, epoch := r.lsn } s)

/-- KIND 11: a snapshot version; it names the pairs of the live version as the deltas before it left them (R335). -/
def applySnapshot (r : DeltaRec) (s : State) : State :=
  if r.delete then
    dropPairsQuiet (modVol r.volume (fun x => { x with snaps := x.snaps.filter fun p => p.num ≠ r.key.toNat }) s)
  else
    modVol r.volume (fun x =>
      { x with snaps := (x.snaps.filter fun p => p.num ≠ r.key.toNat) ++
          [{ Snapshot.reset with num := r.key.toNat, cut := leAt r.value 0 8, point := intAt r.value 8,
                                 listed := decide (r.key.toNat ≤ 4096),
                                 frozen := true, table := x.table }] }) s

/-- Layout state of a code (R534). -/
def modOfCode (n : Nat) : ModState :=
  if n = 1 then .joining else if n = 2 then .member else if n = 3 then .degraded else if n = 4 then .failed
  else if n = 5 then .draining else if n = 6 then .drained else .absent

/-- KIND 12: a slot's layout state, applied to this head's own layout (R574, R581). -/
def applyLayout (r : DeltaRec) (s : State) : State :=
  let st := modOfCode (leAt r.value 0 1)
  modSlot r.key.toNat (fun x =>
    { x with st := st, serial := BitVec.ofNat 64 (leAt r.value 8 8),
             former := if st = .degraded ∧ x.st ≠ .degraded then x.st else x.former
             since := if st = .degraded ∧ x.st ≠ .degraded then now s else x.since }) s

/-- One record of a map delta (R574, R575). -/
def applyDelta (r : DeltaRec) (s : State) : State :=
  match r.kind with
  | 1 => applyEntry r s
  | 2 => applyStrip r s
  | 3 => applyLedger r s
  | 4 => applyLock r s
  | 5 => applySeed r s
  | 6 => applyShare r s
  | 7 => applyVolume r s
  | 8 => { s with ecp.granted := max s.ecp.granted (r.key.toNat + 4096) }
  | 9 => releaseCommitted (leAt r.value 0 8) s
  | 10 => applyKey r s
  | 11 => applySnapshot r s
  | 12 => applyLayout r s
  | _ => s

/-- Live grains of the stripes the peer built, counted from the map that the deltas have left (R507). -/
def recountPeer (s : State) : State :=
  let es := (s.red.pages.flatMap (·.entries)).filter fun e => e.grains ≠ 0
  let locs := (es.map fun e => (e.grain.toNat, e.grains)).eraseDups
  { s with ecp.stripes := s.ecp.stripes.map fun x =>
      if x.head == s.glb.headSel then x
      else { x with live := (locs.filter fun l => inStripe x l.1).foldl (fun n l => n + l.2) 0 } }

/-- Records of the whole map state of this head (R587). -/
def allRecords (s : State) : List DeltaRec :=
  let keys := s.sec.tenants.flatMap fun t => [deltaKey s t.tenant 0 (some t.key1), deltaKey s (t.tenant + 65536) 0 (some t.key2)]
  let slots := (s.sec.slots.filter (·.present)).map fun x =>
    match x.dedup with
    | some t => deltaKey s (t + 2 * 65536) 0 (some x.key)
    | none => deltaKey s (x.num + 3 * 65536) x.epoch (some x.key)
  let version (v : Nat) (table : List (Nat × Nat)) : List DeltaRec := table.flatMap fun t =>
    match pairOf s t.2 with
    | some p => p.entries.map (fun e => deltaEntry v 0 e.chunk e.lsn (some e)) ++
        p.cleared.map fun c => deltaEntry v 0 c.1 c.2 none
    | none => []
  let vols := s.red.volumes.flatMap fun x =>
    [deltaVol s x false] ++
    (x.snaps.filter (·.frozen)).flatMap (fun p => version x.num p.table ++ [deltaSnap x.num p false]) ++
    version x.num x.table ++ x.locks.map fun l => deltaLock x.num l false
  let seeds := s.red.spaces.flatMap fun p => p.slots.map fun e => deltaSeed p.tenant e.bucket e.slot (some e)
  let pins := (pinRows s).map fun p => deltaPin p.1 (some p.2)
  keys ++ slots ++ pins ++ s.mmg.strips.map (fun e => deltaStrip e false) ++ s.mmg.ledger.map deltaLedger ++ vols ++ seeds ++
    s.red.shares.map (fun x => deltaShare x.grain (some x.count)) ++ (List.range 48).map (deltaLayout s) ++ [deltaCommit s]

end Sys2Proof.Machine
end

