-- ==== Sys2Proof/Machine/Network.lean ====
section
/-!
DEFINITION. Ethernet, remote memory access and replication (chapter 08): frames and flow control, connections and client
command channels, remote memory regions, RDMA, and replication links.
-/
namespace Sys2Proof.Machine

/-- Source identifier of the RoCEv2 transport and of an Ethernet port (R15). -/
def roceSrc : Nat := srcId 1 3 0
def netSrc (sub : Nat) : Nat := srcId 1 2 (sub / 4)

/-- The network side works: the head runs and no power-fail flush has stopped it (R82). -/
def netOn (s : State) : Bool := alive s && !s.pwr.flushActive

/-- Port of a sub-port. -/
def netPort (s : State) (sub : Nat) : NetPort := s.net.ports.getD (sub / 4) NetPort.reset

/-- Change the port of a sub-port. -/
def modNetPort (sub : Nat) (f : NetPort → NetPort) (s : State) : State := { s with net.ports := s.net.ports.modify (sub / 4) f }

/-- Sub-ports of a port mode, and the rate of each in bit/s (R247). -/
def subCount (mode : Nat) : Nat := if mode = 1 then 1 else if mode = 2 then 2 else if mode = 3 then 4 else 0
def subRate (mode : Nat) : Nat := if mode = 1 then 400 * 10 ^ 9 else if mode = 2 then 200 * 10 ^ 9 else 100 * 10 ^ 9

/-- The sub-port is up. -/
def subUp (s : State) (sub : Nat) : Bool := (netPort s sub).linkUp.getLsbD (sub % 4)

/-- A sub-port comes up or goes down with record 0x0601; its flow control ends (R276, R280). -/
def setSub (sub : Nat) (up : Bool) (s : State) : State :=
  record 0x0601 (netSrc sub) []
    (modNetPort sub (fun p =>
      { p with linkUp := putBit p.linkUp (sub % 4) up, fill := p.fill.set (sub % 4) 0, xoff := p.xoff.set (sub % 4) false,
               paused := p.paused.set (sub % 4) false, stuck := p.stuck.set (sub % 4) false }) s)

/-- PORT_LINK: the physical lanes of a port that hold lock change. A sub-port of the port's mode, declared by the NET section, is up while
every lane that carries it is locked, and the control port of its MAC is in RUN (R59, R60, R247, R248, R276, R653, R654). -/
def execPortLink (sub : Nat) (lanes : BitVec 4) (s : State) : Host.Outcome State Fault Refusal :=
  let p := netPort s sub
  let declared := decide ((s.img.net.subports.getD sub SubPort.reset).mac ≠ 0)
  let up := (subPortRx s (sub / 4) p.mode (sub % 4)).all lanes.getLsbD
  if netOn s && s.glb.cal && decide (sub < 16) && decide (sub % 4 < subCount p.mode) && (subUp s sub != up) &&
      ((declared && decide (ctlState s (srcId 1 2 (sub / 4)) = .run)) || !up) then
    .next (setSub sub up s)
  else .next s

/-! ## Replication links: their state (R270, R279) -/

/-- Link `l`. -/
def linkOf (s : State) (l : Nat) : Repl := s.rma.links.getD l Repl.reset

/-- Change link `l`. -/
def modLink (l : Nat) (f : Repl → Repl) (s : State) : State := { s with rma.links := s.rma.links.modify l f }

/-- A link changes state: record 0x0607; ERROR and KEY_EXHAUSTED set REPL_ERR (R275, R277). -/
def setLink (l st : Nat) (s : State) : State :=
  if (linkOf s l).st = st then s
  else
    record 0x0607 roceSrc []
      { modLink l (fun x => { x with st := st, errAt := if st = 3 then now s else x.errAt }) s with rma.replErr := s.rma.replErr || decide (st = 3) || decide (st = 4) }

/-- Number of the internal map version of a cut: no snapshot number, it stands for the SNAP code of the link and of bit 0 of the batch
(R271, R491). -/
def cutNum (l batch : Nat) : Nat := 4097 + 2 * l + batch % 2

/-- The cut of a batch as a version of the link's volume. -/
def cutOf (s : State) (l : Nat) (c : ReplCut) : Option Snapshot :=
  (volOf s (linkOf s l).volume).bind fun v => v.snaps.find? fun p => decide (p.num = cutNum l c.batch) && decide (p.link = some l) && !p.deleting

/-- A head that takes a link's volume over, or starts, finds its cuts in the map: each becomes a batch not yet sent, in the order of
their LSNs, with the next numbers (R275; log entry 91). -/
def adoptCuts (l : Nat) (s : State) : State :=
  let x := linkOf s l
  let found := ((volOf s x.volume).elim [] (·.snaps)).filter fun p =>
    decide (p.link = some l) && !p.deleting && !(x.cuts.any fun c => p.num = cutNum l c.batch)
  (sortBy (·.cut) found).foldl (fun s p => modLink l (fun x =>
    let n := if p.num = cutNum l x.nextBatch then x.nextBatch else x.nextBatch + 1
    { x with nextBatch := n + 1, cuts := x.cuts ++ [{ batch := n, lsn := p.cut, time := now s, sent := false, sentAt := 0 }] }) s) s

/-- Connect as CM requester to the remote array of the link (R253, R270). A link whose remote array is not declared, or for which no QP is
left, goes to ERROR. -/
def connectLink (l : Nat) (s : State) : State :=
  let s := adoptCuts l s
  let x := linkOf s l
  let r := s.img.net.remotes.getD x.remote Remote.reset
  if r.valid && decide (qpActive s < 16384) then
    let rate := subRate (netPort s r.subport).mode
    let q : Qp := { Qp.reset with qpn := s.net.nextQpn, port := r.subport, st := .init, pkey := r.pkey, link := some l, rate := rate }
    let s := { s with net.qps := s.net.qps ++ [q], net.nextQpn := s.net.nextQpn + 1 }
    setLink l 1 (sendRoce q.qpn 11 (leBytes 2 l) (modLink l (fun x => { x with qpn := some q.qpn }) s))
  else setLink l 3 s

/-- The links whose source volume this head now owns connect (R275, R584). -/
def resumeLinks (s : State) : State :=
  (List.range 64).foldl (fun s l =>
    let x := linkOf s l
    if x.enable && !x.role && decide (x.st = 0) && owns s x.volume then connectLink l s else s) s

/-! ## The end of a connection (R269, R275) -/

/-- A QP goes to ERROR: ready tags not fetched are freed, kept completions dropped with 0x0605, and the QP goes once its commands
have ended. What it has not sent is discarded. A link's QP takes the link to ERROR (R269, R275). -/
def closeQp (qpn : Nat) (s : State) : State :=
  match qpOf s qpn with
  | none => s
  | some q =>
    if q.st = .error then s
    else
      let s := modQp qpn (fun q => { q with st := .error, unacked := [] }) { s with net.held := s.net.held.filter fun h => h.qpn ≠ qpn }
      let id := QueueId.channel qpn
      let s := ((queueOf s id).elim [] (·.waiting)).foldl (fun s c => record 0x0605 roceSrc [qpn, c.tag] s) s
      let s := modQueue id (fun x =>
        let tags := x.waiting.foldl (fun (ts : List Tag) c => ts.modify c.tag freeTag) x.tags
        { x with waiting := [], tags := tags.map fun t => if t.st = .ready then freeTag t else t }) s
      match q.link with
      | some l => setLink l 3 { modLink l (fun x => { x with qpn := none, batchIn := [], endCount := none }) s with
          net.qps := s.net.qps.filter fun p => p.qpn ≠ qpn }
      | none => settleQueue id s

/-- A QP goes to ERROR with record 0x0602 (R266, R269). -/
def qpError (qpn cause : Nat) (key : BitVec 32) (s : State) : State :=
  if (qpOf s qpn).any fun q => q.st ≠ .error then closeQp qpn (record 0x0602 roceSrc [qpn, cause, key.toNat] s) else s

/-! ## Frames and priority flow control (R249, R250) -/

/-- The threshold of the lossless receive buffer, and the buffer, in bytes (R250). -/
def xoffBytes (s : State) : Nat := s.img.net.pfcXoffKib * 1024
def bufferBytes : Nat := 2 * 1024 * 1024

/-- The NET record of a sub-port. -/
def subPort (s : State) (sub : Nat) : SubPort := s.img.net.subports.getD sub SubPort.reset

/-- The frame is addressed to the sub-port: to its MAC address, broadcast, or its solicited-node multicast, on its VLAN (R248, R249). -/
def frameForUs (s : State) (f : EthFrame) : Bool :=
  let p := subPort s f.sub
  decide ((f.tag.elim 0 (·.1)) = p.vlan) &&
    (decide (f.dst = beBytes 6 p.mac.toNat) || decide (f.dst = List.replicate 6 0xFF) ||
      (p.flags.getLsbD 1 && decide (f.dst = [0x33, 0x33, 0xFF] ++ (beBytes 16 p.ipv6.toNat).drop 13)))

/-- The frame has the lossless priority: its DSCP, or its 802.1p priority, is the declared one (R250). -/
def lossless (s : State) (f : EthFrame) : Bool :=
  decide (f.dscp = some s.img.net.dscp) || decide (f.tag.map (·.2) = some s.img.net.pcp)

/-- A frame of the lossless priority takes its place in the receive buffer, and XOFF goes out once the fill passes the threshold; none
when the buffer has no room (R250). -/
def bufferFrame (f : EthFrame) (s : State) : Option State :=
  if lossless s f then
    let p := netPort s f.sub
    let fill := p.fill.getD (f.sub % 4) 0 + f.len
    let off := !(p.xoff.getD (f.sub % 4) false) && decide (xoffBytes s < fill)
    let s' := modNetPort f.sub (fun p =>
      { p with fill := p.fill.set (f.sub % 4) fill, xoff := if off then p.xoff.set (f.sub % 4) true else p.xoff }) s
    if bufferBytes < fill then none else some (if off then emit (.net f.sub 4 []) s' else s')
  else some s

/-- A packet marked CE: a CNP to the sending QP, at most one in 50 us (R251). -/
def noteCe (qpn : Nat) (s : State) : State :=
  match qpOf s qpn with
  | some q =>
    if q.lastCnp.all fun t => t + 50000 ≤ now s then
      sendRoce qpn 10 [] (modQp qpn (fun q => { q with lastCnp := some (now s) }) s)
    else s
  | none => s

/-- A packet whose P_Key differs from its QP's is dropped, with record 0x0603 (R256). -/
def pkeyDiffers (s : State) (qpn : Nat) (pkey : BitVec 16) : Bool := (qpOf s qpn).any fun q => q.pkey ≠ pkey

/-! ## What the peer answers (R252 to R254, R260) -/

/-- PSN `a` is at or before `b`, as 24-bit numbers. -/
def psnLe (a b : Nat) : Bool := decide ((b + 2 ^ 24 - a % 2 ^ 24) % 2 ^ 24 < 2 ^ 23)

/-- The requests up to a PSN are acknowledged: retries start again, and the timeout runs from the next (R253). -/
def ackedTo (qpn psn : Nat) (s : State) : State :=
  match qpOf s qpn with
  | some q =>
    if q.unacked.any fun r => psnLe r.psn psn then
      modQp qpn (fun q => { q with unacked := q.unacked.filter fun r => !psnLe r.psn psn, retries := 0, rnr := 0, ackAt := now s }) s
    else s
  | none => s

/-- Every request that is not acknowledged is sent again (R253). -/
def resendAll (qpn : Nat) (s : State) : State :=
  ((qpOf s qpn).elim [] (·.unacked)).foldl (fun s r => sendRoce qpn r.kind r.data s)
    (modQp qpn (fun q => { q with ackAt := now s }) s)

/-- A retransmission, or ERROR past the retry count of 7 (R253). -/
def retry (qpn : Nat) (s : State) : State :=
  match qpOf s qpn with
  | some q =>
    if 7 ≤ q.retries then
      let (v, s) := takeFree s
      qpError qpn v.toNat 0 s
    else resendAll qpn (modQp qpn (fun q => { q with retries := q.retries + 1 }) s)
  | none => s

/-- A request refused because the receiver is not ready is sent again, six times; then the QP goes to ERROR (R253, R260). -/
def retryRnr (qpn : Nat) (s : State) : State :=
  match qpOf s qpn with
  | some q =>
    if 6 ≤ q.rnr then
      let (v, s) := takeFree s
      qpError qpn v.toNat 0 s
    else resendAll qpn (modQp qpn (fun q => { q with rnr := q.rnr + 1 }) s)
  | none => s

/-- What an acknowledgement packet does: one that is not an acknowledgement acknowledges the requests before its PSN (R252 to R254). -/
def takeAnswer (qpn psn : Nat) (a : RoceAnswer) (s : State) : State :=
  let before := (psn + 2 ^ 24 - 1) % 2 ^ 24
  match qpOf s qpn with
  | some q =>
    if q.st = .error then s
    else match a with
      | .ack => ackedTo qpn psn s
      | .sequence => retry qpn (ackedTo qpn before s)
      | .rnr => retryRnr qpn (ackedTo qpn before s)
      | .refused =>
        let (v, s) := takeFree (ackedTo qpn before s)
        qpError qpn v.toNat 0 s
  | none => s

/-- What a frame that is taken does: the answers for the sub-port's own addresses, a CNP, an acknowledgement. A RoCEv2 request's effect is
a command of its own (R249, R251, R256). -/
def answerFrame (f : EthFrame) (s : State) : State :=
  let p := subPort s f.sub
  let v4 (a : BitVec 32) : Bool := p.flags.getLsbD 0 && decide (a = p.ipv4)
  let v6 (a : BitVec 128) : Bool := p.flags.getLsbD 1 && decide (a = p.ipv6)
  match f.kind with
  | .arp a => if v4 a then emit (.net f.sub 0 f.data) s else s
  | .neighbour a => if v6 a then emit (.net f.sub 1 f.data) s else s
  | .echo4 a => if v4 a then emit (.net f.sub 2 f.data) s else s
  | .echo6 a => if v6 a then emit (.net f.sub 3 f.data) s else s
  | .fragment => s
  | .other => s
  | .roce qpn pkey ce =>
    if pkeyDiffers s qpn pkey then record 0x0603 roceSrc [] (busy s)
    else if ce then noteCe qpn (busy s) else busy s
  | .answer qpn pkey psn a =>
    if pkeyDiffers s qpn pkey then record 0x0603 roceSrc [] (busy s) else takeAnswer qpn psn a (busy s)

/-- FRAME_RECEIVE: the checks of the MAC and of IP, the lossless buffer, and what the frame does (R249 to R251, R256). -/
def execFrameReceive (f : EthFrame) (s : State) : Host.Outcome State Fault Refusal :=
  if netOn s && subUp s f.sub && decide (f.len ≤ 9216) && f.fcsOk && frameForUs s f then
    match bufferFrame f s with
    | none => .next s
    | some s => .next (answerFrame f s)
  else .next s

/-- PFC_XON: the buffer has drained to `fill` bytes; XON goes out 64 KiB below the threshold (R250). -/
def execPfcXon (sub fill : Nat) (s : State) : Host.Outcome State Fault Refusal :=
  let p := netPort s sub
  if netOn s && decide (fill ≤ p.fill.getD (sub % 4) 0) then
    let s := modNetPort sub (fun p => { p with fill := p.fill.set (sub % 4) fill }) s
    if p.xoff.getD (sub % 4) false && decide (fill + 65536 ≤ xoffBytes s) then
      .next (emit (.net sub 5 []) (modNetPort sub (fun p => { p with xoff := p.xoff.set (sub % 4) false }) s))
    else .next s
  else .next s

/-- PFC_PAUSE: the link partner pauses or resumes the lossless priority; a pause that stands goes on without a break, and the packets
that waited leave once it ends (R250). -/
def execPfcPause (sub : Nat) (pause : Bool) (s : State) : Host.Outcome State Fault Refusal :=
  if netOn s && subUp s sub then
    let i := sub % 4
    let s := modNetPort sub (fun p =>
      { p with paused := p.paused.set i pause, stuck := if pause then p.stuck else p.stuck.set i false
               pausedAt := if pause && !(p.paused.getD i false) then p.pausedAt.set i (now s) else p.pausedAt }) s
    .next (releaseHeld sub s)
  else .next s

/-- PFC_STUCK: a sub-port has been paused for 100 ms without a break. Each such pause is recorded once (R250). -/
def execPfcStuck (sub : Nat) (s : State) : Host.Outcome State Fault Refusal :=
  let p := netPort s sub
  let i := sub % 4
  if netOn s && p.paused.getD i false && !(p.stuck.getD i false) && decide (p.pausedAt.getD i 0 + 100000000 ≤ now s) then
    .next (recordAlert 0x0609 (netSrc sub) [] (modNetPort sub (fun p => { p with pfcStuck := true, stuck := p.stuck.set i true }) s))
  else .next s

/-- CNP_RECEIVE: the QP's rate limit halves, to no less than 100 Mb/s (R251). -/
def execCnpReceive (qpn : Nat) (s : State) : Host.Outcome State Fault Refusal :=
  if netOn s then .next (modQp qpn (fun q => { q with rate := max (100 * 10 ^ 6) (q.rate / 2), rateAt := now s }) s) else .next s

/-- RATE_INCREASE: 50 us without a CNP since the last CNP or rise (R251). -/
def execRateIncrease (qpn : Nat) (s : State) : Host.Outcome State Fault Refusal :=
  if netOn s then
    .next (modQp qpn (fun q =>
      let full := subRate (netPort s q.port).mode
      if q.rateAt + 50000 ≤ now s then { q with rate := min full (q.rate + full / 16), rateAt := now s } else q) s)
  else .next s

/-! ## Connections (R252, R253, R255, R269) -/

/-- QP_ERROR (R269). -/
def execQpError (qpn cause : Nat) (key : BitVec 32) (s : State) : Host.Outcome State Fault Refusal :=
  if alive s then .next (qpError qpn cause key s) else .next s

/-- The P_Key is in the table, as it stood before this cycle's changes (R255, R256). -/
def pkeyKnown (s : State) (pkey : BitVec 16) : Bool :=
  let k := pkey.toNat % 32768
  decide (k ≠ 0) && decide (k ≠ 0x7FFF) &&
    (s.net.pkeysBefore.getD s.net.pkeys).any fun e => e.valid && decide (e.pkey.toNat % 32768 = k)

/-- A REQ from a remote array: this head holds the target end of the link, enabled. -/
def targetLink (s : State) (l : Nat) : Bool := (linkOf s l).enable && (linkOf s l).role && owns s (linkOf s l).volume

/-- Reason of the REJ of a REQ, none when it is accepted: 1 No QP available, 26 a path MTU that is not supported (R252, R253). -/
def cmReason (s : State) (pkey : BitVec 16) (mtu : Nat) (link : Option Nat) : Option Nat :=
  if !(decide (s.glb.mode = .ready) && decide (qpActive s < 16384) && pkeyKnown s pkey && link.all (targetLink s)) then some 1
  else if [1024, 2048, 4096].contains mtu then none
  else some 26

/-- CM_REQ: a new client channel, or the target end of a replication link; or REJ with record 0x0604 (R252, R253, R255, R270). -/
def execCmReq (sub : Nat) (req : CmRequest) (link : Option Nat) (s : State) : Host.Outcome State Fault Refusal :=
  if netOn s && subUp s sub then
    let s := busy s
    let n := s.net.nextQpn
    match cmReason s req.pkey req.mtu link with
    | some reason => .next (record 0x0604 roceSrc [] (sendRoceOn sub n 13 (leBytes 2 reason) s))
    | none =>
      let q : Qp := { Qp.reset with qpn := n, port := sub, st := .rtr, pkey := req.pkey, tenant := req.pkey.toNat % 32768, link := link,
                                    mtu := req.mtu, rate := subRate (netPort s sub).mode }
      let s := { s with net.qps := s.net.qps ++ [q], net.nextQpn := n + 1 }
      match link with
      | some l =>
        let (key, s) := takeFree s
        .next (setLink l 2 (modLink l (fun x => { x with qpn := some n }) (sendRoce n 12 (leBytes 8 key.toNat) s)))
      | none =>
        let x : Queue := { Queue.reset with id := .channel n, tags := List.replicate 32 Tag.reset }
        .next (sendRoce n 12 [] { s with dcq.queues := s.dcq.queues ++ [x] })
  else .next s

/-- CM_RTU: the connection is established (R252). -/
def execCmRtu (qpn : Nat) (s : State) : Host.Outcome State Fault Refusal :=
  if netOn s then .next (modQp qpn (fun q => if q.st = .rtr then { q with st := .rts } else q) s) else .next s

/-- CM_DREQ: answered with DREP, and the connection ends as a QP in ERROR does (R252, R269). -/
def execCmDreq (qpn : Nat) (s : State) : Host.Outcome State Fault Refusal :=
  if netOn s && (qpOf s qpn).isSome then .next (closeQp qpn (sendRoce qpn 16 [] s)) else .next s

/-- CM_REP: the target's answer with the key and length of its replication region; the source is shipping, from the first
unacknowledged batch (R270, R275). -/
def execCmRep (l : Nat) (key : BitVec 32) (len : Nat) (s : State) : Host.Outcome State Fault Refusal :=
  let x := linkOf s l
  match x.qpn with
  | some n =>
    if netOn s && decide (x.st = 1) then
      let s := modQp n (fun q => { q with st := .rts }) (sendRoce n 14 [] s)
      let s := modLink l (fun x => { x with peerKey := some (key, len), offset := 0, cuts := x.cuts.map fun c => { c with sent := false } }) s
      .next (setLink l 2 s)
    else .next s
  | none => .next s

/-- The local ACK timeout: 67.1 ms, 4.096 us times 2^14 (R253). -/
def ackTimeoutNs : Nat := 4096 * 2 ^ 14

/-- ACK_TIMEOUT: the oldest request has waited for the local ACK timeout: a retransmission, or ERROR past the retry count (R253). -/
def execAckTimeout (qpn : Nat) (s : State) : Host.Outcome State Fault Refusal :=
  if netOn s && (qpOf s qpn).any (fun q => decide (q.st ≠ .error) && !q.unacked.isEmpty && decide (q.ackAt + ackTimeoutNs ≤ now s)) then
    .next (retry qpn s)
  else .next s

/-! ## Requests (R252, R254, R256, R258, R266, R268) -/

/-- What becomes of a request before its effect. -/
inductive ReqFate where
  /-- nothing: there is no such connection -/
  | ignored
  /-- its P_Key is not the connection's -/
  | wrongKey
  /-- it is a duplicate -/
  | duplicate (q : Qp)
  /-- a request before it is missing -/
  | ahead
  /-- R252 does not support it -/
  | invalid
  /-- it has its effect -/
  | taken (q : Qp)

/-- READs of a QP whose response waits (R252). -/
def readsOpen (s : State) (qpn : Nat) : Nat := (s.net.held.filter fun h => decide (h.qpn = qpn) && decide (h.kind = 3)).length

/-- The opcode is the one wanted, and the length and the READs outstanding are within R252: a WRITE or READ of 1 byte to 1 GiB, 16 READs. -/
def supported (s : State) (want : RoceOp) (len : Nat) (r : RoceReq) : Bool :=
  decide (r.op = want) && decide (len ≤ 2 ^ 30) && (decide (0 < len) || !(want == .write || want == .read)) &&
    (decide (want ≠ .read) || decide (readsOpen s r.qpn < 16))

/-- The fate of a request of `len` bytes (R252, R254, R256). PSNs behind the expected one, by less than 2^23, are duplicates. -/
def fateOf (s : State) (want : RoceOp) (len : Nat) (r : RoceReq) : ReqFate :=
  match qpOf s r.qpn with
  | none => .ignored
  | some q =>
    if !netOn s || !subUp s q.port || !(q.st == .rtr || q.st == .rts) then .ignored
    else if q.pkey ≠ r.pkey then .wrongKey
    else if r.psn % 2 ^ 24 = q.epsn then (if supported s want len r then .taken q else .invalid)
    else if psnLe r.psn q.epsn then .duplicate q
    else .ahead

/-- Take a request: with a wrong P_Key it is dropped, with record 0x0603; a duplicate is acknowledged again; a missing request before it is
asked for once; one that R252 does not support is an invalid request, and the QP goes to ERROR (R252, R254, R256). `none` when it has no
further effect. -/
def takeReq (want : RoceOp) (len : Nat) (r : RoceReq) (s : State) : Option Qp × State :=
  match fateOf s want len r with
  | .ignored => (none, s)
  | .wrongKey => (none, record 0x0603 roceSrc [] (busy s))
  | .duplicate _ => (none, sendRoce r.qpn 0 [] (busy s))
  | .ahead =>
    if (qpOf s r.qpn).any (·.nakSent) then (none, busy s)
    else (none, sendRoce r.qpn 6 [] (modQp r.qpn (fun q => { q with nakSent := true }) (busy s)))
  | .invalid =>
    let (v, s) := takeFree (sendRoce r.qpn 4 [] (busy s))
    (none, qpError r.qpn v.toNat 0 s)
  | .taken q =>
    (some q, modQp r.qpn (fun q =>
      { q with epsn := (q.epsn + packetsOf q.mtu len) % 2 ^ 24, st := .rts, nakSent := false }) (busy s))

/-- ROCE_SEND: a command of 64 bytes makes the tag it names ready; another length is an invalid request (R254, R258). -/
def execRoceSend (r : RoceReq) (data : List (BitVec 8)) (s : State) : Host.Outcome State Fault Refusal :=
  match takeReq .send data.length r s with
  | (none, s) => .next s
  | (some q, s) =>
    if q.link.isSome then .next (sendRoce r.qpn 0 [] s)
    else if data.length ≠ 64 then
      let (v, s) := takeFree (sendRoce r.qpn 4 [] s)
      .next (qpError r.qpn v.toNat 0 s)
    else
      let words := (List.range 16).map fun i => w32 (leAt data (4 * i) 4)
      let t := fld (words.getD 0 0) 16 5
      let id := QueueId.channel r.qpn
      let free := (queueOf s id).any fun x => (x.tags.getD t Tag.reset).st = .free
      let s := if free then
          modQueue id (fun x => { x with sent := (x.sent.filter fun e => e.1 ≠ t) ++ [(t, words)] })
            { s with net.sends := s.net.sends ++ [(r.qpn, t)] }
        else s
      .next (makeReady id t (sendRoce r.qpn 0 [] s))

/-- The check of R266: index, generation, tenant, remote-access bit and range, under the entry before this cycle's commits (R267). -/
def rdmaRegion (s : State) (q : Qp) (write : Bool) (key : BitVec 32) (off len : Nat) : Option Region :=
  match (boundRegions s).find? fun x => decide (x.index = key.toNat / 256) && x.live && decide (x.gen = key.toNat % 256) with
  | some x =>
    if x.tenant = q.tenant ∧ (if write then x.wr else x.rd) = true ∧ off + len ≤ x.len then some x else none
  | none => none

/-- A failed check: NAK Remote Access Error and ERROR, with the key (R266). -/
def rdmaRefuse (qpn : Nat) (key : BitVec 32) (s : State) : State :=
  let (v, s) := takeFree (sendRoce qpn 5 [] s)
  qpError qpn v.toNat key s

/-- RDMA_WRITE: checked once, and its data placed (R266, R268). -/
def execRdmaWrite (r : RoceReq) (key : BitVec 32) (off : Nat) (data : List (BitVec 8)) (s : State) : Host.Outcome State Fault Refusal :=
  match takeReq .write data.length r s with
  | (none, s) => .next s
  | (some q, s) =>
    match rdmaRegion s q true key off data.length with
    | some x => .next (sendRoce r.qpn 0 [] { s with lz := memWriteBytes 0 s.lz (x.base + off) data })
    | none => .next (rdmaRefuse r.qpn key s)

/-- An abort of a channel's tag; one whose SEND came in this very cycle reaches the command at the end of the cycle (R261). -/
def chanAbort (qpn t : Nat) (s : State) : State :=
  if s.net.sends.contains (qpn, t) then { s with net.aborts := s.net.aborts ++ [(qpn, t)] } else abortTag (.channel qpn) t s

/-- RDMA_WRITE_WITH_IMMEDIATE: after every earlier request; a zero-length one on a channel carries an abort for each set bit
(R261, R268). -/
def execRdmaWriteWithImmediate (r : RoceReq) (key : BitVec 32) (off : Nat) (data : List (BitVec 8)) (imm : BitVec 32)
    (s : State) : Host.Outcome State Fault Refusal :=
  match takeReq .writeImm data.length r s with
  | (none, s) => .next s
  | (some q, s) =>
    if data.isEmpty then
      let s := sendRoce r.qpn 0 [] s
      .next (if q.link.isSome then s else eachBit imm (chanAbort r.qpn) s)
    else
      match rdmaRegion s q true key off data.length with
      | some x => .next (sendRoce r.qpn 0 [] { s with lz := memWriteBytes 0 s.lz (x.base + off) data })
      | none => .next (rdmaRefuse r.qpn key s)

/-- The READ response, or the NAK of a failed check (R266). -/
def readOut (q : Qp) (key : BitVec 32) (off len : Nat) (s : State) : State :=
  match rdmaRegion s q false key off len with
  | some x => sendRoce q.qpn 3 (memBytes 0 s.lz (x.base + off) len) s
  | none => rdmaRefuse q.qpn key s

/-- RDMA_READ: checked once, and read after every earlier request is placed; a duplicate is executed again (R254, R266, R268). -/
def execRdmaRead (r : RoceReq) (key : BitVec 32) (off len : Nat) (s : State) : Host.Outcome State Fault Refusal :=
  match fateOf s .read len r with
  | .duplicate q => .next (readOut q key off len (busy s))
  | _ =>
    match takeReq .read len r s with
    | (none, s) => .next s
    | (some q, s) => .next (readOut q key off len s)

/-! ## Partition keys (R255, R257) -/

/-- Entry `i` of NET_PKEY_TBL. -/
def pkeyAt (s : State) (i : Nat) : Pkey := (s.net.pkeys.find? fun e => e.idx = i).getD { Pkey.reset with idx := i }

/-- A write of NET_PKEY_TBL: refused, or accepted, with every QP bound to a value that leaves the table going to ERROR at the end of the
cycle (R256, R257). -/
def pkeyWrite (i : Nat) (w : BitVec 32) (s : State) : State :=
  let key : BitVec 16 := w.setWidth 16
  let k := key.toNat % 32768
  let valid := bitOf w 16
  let old := pkeyAt s i
  let twin := s.net.pkeys.any fun e => decide (e.idx ≠ i) && e.valid && decide (e.pkey.toNat % 32768 = k)
  if valid && (decide (k = 0) || decide (k = 0x7FFF) || twin) then { s with net.pkeyErr := true }
  else
    let rest := s.net.pkeys.filter fun e => e.idx ≠ i
    let gone := old.valid && (!valid || decide (old.pkey.toNat % 32768 ≠ k))
    let bound := (s.net.qps.filter fun q => gone && decide (q.pkey.toNat % 32768 = old.pkey.toNat % 32768)).map (·.qpn)
    { s with
      net.pkeysBefore := some (s.net.pkeysBefore.getD s.net.pkeys)
      net.pkeys := if key = 0 ∧ valid = false then rest else insertBy (·.idx) { idx := i, pkey := key, valid := valid } rest
      net.closing := s.net.closing ++ bound }

/-- PKEY_TABLE_WRITE (R257). -/
def execPkeyTableWrite (i : Nat) (w : BitVec 32) (s : State) : Host.Outcome State Fault Refusal :=
  if hostWriteOk s 0x06 && decide (i < 4096) then .next (pkeyWrite i w s) else .next s

/-! ## Regions (R263 to R267) -/

/-- RMA_KEY_DRAIN: the generation of the oldest live binding, or RMA_KEY_GEN (R267). Commands of a channel are bound at their
fetch; RDMA operations end in the step that checks them. -/
def rmaKeyDrain (s : State) : BitVec 32 :=
  match (s.dcq.cmds.filter fun c => !c.remote && (match c.q with | .channel _ => true | .ring _ _ => false)).map (·.bind) with
  | [] => s.rma.keyGen
  | b :: t => t.foldl (fun a x => if (s.rma.keyGen - a).toNat < (s.rma.keyGen - x).toNat then x else a) b

/-- A region whose deregistration has not drained (R267). -/
def draining (s : State) (r : Region) : Bool :=
  r.drainAt.any fun g => !(decide ((rmaKeyDrain s - g).toNat < 2 ^ 31))

/-- A refusal, of a registration or a deregistration: REG_ERR, record 0x0606, and RMA_REG_RESULT reads 0 (R265). -/
def regionRefuse (s : State) : State := record 0x0606 roceSrc [] { s with rma.regErr := true, rma.result := 0 }

/-- The free index that has been free for longest: one never used, else the used one that drained first (R264). -/
def freeIndex (s : State) : Option Nat :=
  if s.rma.regions.length < 262144 then some s.rma.regions.length
  else s.rma.freed.find? fun i => s.rma.regions.any fun r => decide (r.index = i) && !r.live && !draining s r

/-- The staged range may be registered (R263, R265). -/
def regionOk (s : State) : Bool :=
  let base := s.rma.regBase.toNat
  let len := 4096 * s.rma.regLen
  s.glb.dram && decide (base % 4096 = 0) && decide (1 ≤ s.rma.regLen ∧ s.rma.regLen ≤ 262144) &&
    decide (base + len ≤ spaceSize s 0) &&
    !(s.rma.regions.any fun r => (r.live || draining s r) && overlaps base len r.base r.len) &&
    s.net.pkeys.any (fun e => e.valid && decide (e.pkey.toNat % 32768 = s.rma.attrTenant)) && (s.rma.attrRd || s.rma.attrWr)

/-- GO registers a region (R264, R265, R267). -/
def regionGo (s : State) : State :=
  match (if regionOk s then freeIndex s else none) with
  | none => regionRefuse s
  | some i =>
    let old := s.rma.regions.find? fun r => r.index = i
    let gen := (old.elim 0 (·.gen) + 1) % 256
    let r : Region := { Region.reset with
      index := i, gen := gen, live := true, base := s.rma.regBase.toNat, len := 4096 * s.rma.regLen
      tenant := s.rma.attrTenant, rd := s.rma.attrRd, wr := s.rma.attrWr }
    { s with
      rma.before := some (s.rma.before.getD (s.rma.regions, s.rma.keyGen))
      rma.regions := (s.rma.regions.filter fun r => r.index ≠ i) ++ [r], rma.freed := s.rma.freed.filter (· ≠ i)
      rma.result := BitVec.ofNat 32 (256 * i + gen), rma.keyGen := s.rma.keyGen + 1 }

/-- REGION_REGISTER (R265). -/
def execRegionRegister (s : State) : Host.Outcome State Fault Refusal :=
  if hostWriteOk s 0x07 then .next (regionGo s) else .next s

/-- A write of RMA_DEREG (R265, R267). -/
def regionEnd (key : BitVec 32) (s : State) : State :=
  let hit (r : Region) : Bool := r.live && decide (r.index = key.toNat / 256) && decide (r.gen = key.toNat % 256)
  if s.rma.regions.any hit then
    let g := s.rma.keyGen + 1
    { s with
      rma.before := some (s.rma.before.getD (s.rma.regions, s.rma.keyGen))
      rma.keyGen := g
      rma.regions := s.rma.regions.map fun r => if hit r then { r with live := false, drainAt := some g } else r
      rma.freed := s.rma.freed ++ [key.toNat / 256] }
  else regionRefuse s

/-- REGION_DEREGISTER (R265). -/
def execRegionDeregister (key : BitVec 32) (s : State) : Host.Outcome State Fault Refusal :=
  if hostWriteOk s 0x07 then .next (regionEnd key s) else .next s

/-! ## Replication at the source (R271 to R273, R275) -/

/-- Take a cut of the link's volume (R271). -/
def takeCut (l : Nat) (s : State) : State :=
  let x := linkOf s l
  match volOf s x.volume with
  | none => s
  | some v =>
    let lsn := volumeLsn s v
    let p : Snapshot := { Snapshot.reset with num := cutNum l x.nextBatch, point := civilNow s, cut := lsn, link := some l }
    let s := modVol v.num (fun v => { v with snaps := v.snaps ++ [p] }) s
    modLink l (fun x =>
      { x with nextBatch := x.nextBatch + 1, lastCut := some (now s)
               cuts := x.cuts ++ [{ batch := x.nextBatch, lsn := lsn, time := now s, sent := false, sentAt := 0 }] }) s

/-- A cut is due: INTERVAL_S has passed since the last, and at most one cut waits for its acknowledgement, since the SNAP code of a cut
tells only two of a link apart (R271, R491; log entry 91). -/
def cutDue (s : State) (x : Repl) : Bool :=
  (x.lastCut.all fun t => t + 10 ^ 9 * x.intervalS ≤ now s) && decide (x.cuts.length < 2)

/-- The 64-byte record header but for its tag (R272). -/
def replHeader (s : State) (l batch counter lba len kind epoch : Nat) : List (BitVec 8) :=
  leBytes 4 0x4C504552 ++ leBytes 2 1 ++ leBytes 2 l ++ leBytes 8 batch ++ leBytes 8 counter ++ leBytes 8 lba ++ leBytes 4 len ++
    leBytes 1 kind ++ leBytes 1 (b2n s.glb.headSel) ++ leBytes 2 0 ++ leBytes 4 epoch ++ leBytes 4 0

/-- The IV of a record (R273). -/
def replIv (l head counter : Nat) : List (BitVec 8) := leBytes 2 l ++ leBytes 1 head ++ leBytes 1 0 ++ leBytes 8 counter

/-- Seal and send one record; when COUNTER would reach 2^63 the link stops in KEY_EXHAUSTED (R272, R273). So does a link whose slot holds no
key (log entry 91). -/
def sendRecord (l batch lba kind : Nat) (payload : List (BitVec 8)) (s : State) : State :=
  let x := linkOf s l
  let k := keySlotOf s x.keySlot
  match x.qpn with
  | some n =>
    if x.st ≠ 2 then s
    else if !k.present || decide (2 ^ 63 ≤ x.counter) then setLink l 4 s
    else
      let h := replHeader s l batch x.counter lba payload.length kind k.epoch
      let sealed := Config.gcmSeal k.key (replIv l (b2n s.glb.headSel) x.counter) h payload
      let pad := List.replicate ((16 - payload.length % 16) % 16) (0 : BitVec 8)
      let bytes := h ++ (sealed.2 ++ List.replicate 16 0).take 16 ++ sealed.1 ++ pad
      let addr := match x.peerKey with | some (key, _) => key.toNat * 2 ^ 32 + x.offset % 2 ^ 32 | none => x.offset
      let size := x.peerKey.elim 0 (·.2)
      let next := if size < x.offset + bytes.length + 33088 then 0 else x.offset + bytes.length
      modLink l (fun x => { x with counter := x.counter + 1, offset := next }) (issueRoce n 2 (leBytes 8 addr ++ bytes) s)
  | none => s

/-- The container of a stored chunk, in clear, for KIND 1; one that cannot be read goes RAW with its lost sectors (R272). -/
def chunkPayload (v chunk tenant : Nat) (e : MapEntry) (media : List StoredRead) (s : State) : List (BitVec 8) × State :=
  let g := e.grain.toNat
  let r := media.find? fun r => r.grain = g
  let stored := match stripeBytes s g e.grains with | some b => some b | none => r.bind (·.direct)
  match stored with
  | some b =>
    let c := openStored s tenant b
    if containerCheckAll c tenant = 0 then (c, s)
    else
      let (d, s) := readStored true v chunk tenant e 3 media s
      ((rawContainer tenant v chunk e.lsn d).delivered, s)
  | none =>
    let (d, s) := readStored true v chunk tenant e 3 media s
    ((rawContainer tenant v chunk e.lsn d).delivered, s)

/-- Ship one batch: each chunk changed since the last acknowledged cut, then KIND 3 and the final flagged write (R271). -/
def shipBatch (l : Nat) (c : ReplCut) (media : List StoredRead) (s : State) : State :=
  let x := linkOf s l
  match volOf s x.volume, x.qpn with
  | some v, some n =>
    match (cutOf s l c).bind fun p => if p.frozen then some p else none with
    | none => s
    | some p =>
      let since := ((x.cuts.filter fun d => d.batch < c.batch).map (·.lsn)).foldl max x.lastLsn
      let pages := p.table.filterMap fun t => pairOf s t.2
      let fresh (lsn : Nat) : Bool := decide (since < lsn) || decide (since = 0)
      let es := (pages.flatMap (·.entries)).filter fun e => fresh e.lsn
      let gone := (pages.flatMap (·.cleared)).filter fun e => since < e.2
      let s := es.foldl (fun s e =>
        match e.method with
        | .zero => sendRecord l c.batch (8 * e.chunk) 2 [] s
        | _ =>
          let (b, s) := chunkPayload v.num e.chunk v.tenant e media s
          sendRecord l c.batch (8 * e.chunk) 1 b s) s
      let s := gone.foldl (fun s e => sendRecord l c.batch (8 * e.1) 2 [] s) s
      let s := sendRecord l c.batch 0 3 (leBytes 8 (es.length + gone.length + 1)) s
      if (linkOf s l).st = 2 then
        issueRoce n 7 (leBytes 4 c.batch) (modLink l (fun x =>
          { x with cuts := x.cuts.map fun d => if d.batch = c.batch then { d with sent := true, sentAt := now s } else d }) s)
      else s
  | _, _ => s

/-- The cut that ships next: the first not sent (R271). -/
def nextCut (x : Repl) : Option ReplCut := x.cuts.find? fun c => !c.sent

/-- REPLICATION_CUT: every INTERVAL_S the source head cuts the volume; with `ship`, the next frozen cut goes out as a batch (R271). -/
def execReplicationCut (l : Nat) (ship : Bool) (media : List StoredRead) (s : State) : Host.Outcome State Fault Refusal :=
  let x := linkOf s l
  if alive s && x.enable && !x.role && owns s x.volume && decide (x.st ≠ 4) then
    if ship then
      match nextCut x with
      | some c => if netOn s && s.sec.drbgOk && decide (x.st = 2) && !x.stopping then .next (shipBatch l c media s) else .next s
      | none => .next s
    else .next (if cutDue s x then takeCut l s else s)
  else .next s

/-- Release a cut's map version (R275). -/
def releaseCut (l : Nat) (c : ReplCut) (s : State) : State :=
  match cutOf s l c with
  | some p => dropVersion (linkOf s l).volume p s
  | none => s

/-- Clearing ENABLE is complete: the link is idle and its connection ends (R279). -/
def stopLink (l : Nat) (s : State) : State :=
  let x := linkOf s l
  let s := x.cuts.foldl (fun s c => releaseCut l c s) s
  let s := match x.qpn with
    | some n =>
      let s := sendRoce n 15 [] s
      { s with net.qps := s.net.qps.filter fun q => q.qpn ≠ n }
    | none => s
  setLink l 0 (modLink l (fun x => { x with cuts := [], qpn := none, stopping := false, batchIn := [], endCount := none }) s)

/-- BATCH_ACK: the target has applied a batch; its cut and the earlier ones are released (R275, R279). -/
def execBatchAck (l batch : Nat) (s : State) : Host.Outcome State Fault Refusal :=
  let x := linkOf s l
  if netOn s && (x.enable || x.stopping) && !x.role then
    let done := x.cuts.filter fun c => c.sent && decide (c.batch ≤ batch)
    if done.isEmpty then .next s
    else
      let s := done.foldl (fun s c => releaseCut l c s) s
      let s := modLink l (fun x =>
        { x with batch := batch, lastLsn := done.foldl (fun n c => max n c.lsn) x.lastLsn
                 cuts := x.cuts.filter fun c => !(c.sent && decide (c.batch ≤ batch)) }) s
      .next (if x.stopping then stopLink l s else s)
  else .next s

/-- BATCH_RESEND: not acknowledged within 60 s, the batch is shipped again from its cut with new counters (R275). -/
def execBatchResend (l : Nat) (media : List StoredRead) (s : State) : Host.Outcome State Fault Refusal :=
  let x := linkOf s l
  match x.cuts with
  | c :: _ =>
    if netOn s && s.sec.drbgOk && x.enable && !x.role && c.sent && decide (x.st = 2) && decide (c.sentAt + 60 * 10 ^ 9 ≤ now s) then
      .next (shipBatch l c media s)
    else .next s
  | [] => .next s

/-- REPL_RECONNECT: 10 s after its QP went to ERROR the source connects again (R275). -/
def execReplReconnect (l : Nat) (s : State) : Host.Outcome State Fault Refusal :=
  let x := linkOf s l
  if netOn s && x.enable && !x.role && decide (x.st = 3) && x.qpn.isNone && owns s x.volume && decide (x.errAt + 10 ^ 10 ≤ now s) then
    .next (connectLink l s)
  else .next s

/-! ## Replication at the target (R274) -/

/-- A record is rejected: the whole batch is discarded, AUTH_FAIL, record 0x0608, and the QP goes to ERROR. -/
def replReject (l : Nat) (s : State) : State :=
  let n := (linkOf s l).qpn
  let s := record 0x0608 roceSrc [] (modLink l (fun x => { x with batchIn := [], endCount := none, authFail := true }) s)
  let (v, s) := takeFree s
  n.elim s fun n => qpError n v.toNat 0 s

/-- The pair (KEY_EPOCH, COUNTER) `a` is above `b`: by KEY_EPOCH first (R274). -/
def pairAbove (a b : Nat × Nat) : Bool := decide (b.1 < a.1) || (decide (a.1 = b.1) && decide (b.2 < a.2))

/-- The container of a replicated chunk passes checks 2 to 6 of R355 for the target's tenant; its CRC is written anew (R357). -/
def replContainerOk (tenant : Nat) (b : List (BitVec 8)) : Bool :=
  let h := b.take (b.length - 4)
  decide (containerCheck (h ++ leBytes 4 (crc32c h).toNat) tenant = 0)

/-- REPLICATION_RECORD: header, counter pair, tag and container are checked, and the record joins its batch (R272 to R274, R357). -/
def execReplicationRecord (l : Nat) (bytes : List (BitVec 8)) (s : State) : Host.Outcome State Fault Refusal :=
  let x := linkOf s l
  if netOn s && x.enable && x.role && x.qpn.isSome then
    let batch := leAt bytes 8 8
    let counter := leAt bytes 16 8
    let len := leAt bytes 32 4
    let kind := leAt bytes 36 1
    let head := leAt bytes 37 1
    let epoch := leAt bytes 40 4
    let good := decide (leAt bytes 0 4 = 0x4C504552) && decide (leAt bytes 4 2 = 1) && decide (leAt bytes 6 2 = l) &&
      decide (1 ≤ batch) && decide (len ≤ 33024) && decide (1 ≤ kind ∧ kind ≤ 3) && decide (head ≤ 1) &&
      decide (leAt bytes 38 2 = 0) && decide (leAt bytes 44 4 = 0) && decide (leAt bytes 24 8 % 8 = 0) &&
      decide (kind ≠ 3 ∨ leAt bytes 24 8 = 0) && decide (kind ≠ 2 ∨ len = 0) && decide (kind ≠ 3 ∨ len = 8) &&
      decide (bytes.length = 64 + (len + 15) / 16 * 16) && (x.batchIn.isEmpty || decide (batch = x.inBatch))
    let last := (x.seen.find? fun t => t.1 = head).map (·.2)
    let newer := last.all fun p => pairAbove (epoch, counter) p
    let k := keySlotOf s x.keySlot
    match if good && newer && k.present then
        Config.gcmOpen k.key (replIv l head counter) (bytes.take 48) (slice bytes 64 len) (slice bytes 48 16) else none with
    | none => .next (replReject l s)
    | some p =>
      if kind = 1 ∧ !replContainerOk ((volOf s x.volume).elim 0 (·.tenant)) p then .next (replReject l s)
      else
        let count := if kind = 3 then some (leAt p 0 8) else x.endCount
        .next (modLink l (fun x =>
          { x with inBatch := batch, endCount := count
                   batchIn := x.batchIn ++ [{ kind := kind, lba := leAt bytes 24 8, payload := p, head := head, epoch := epoch, counter := counter }] })
          (busy s))
  else .next s

/-- The frame a record of a batch gives: the sectors of its chunk with their PI, with its container for Protect, or zeros (R274, R357). -/
def recordFrame (s : State) (v : Volume) (r : ReplRecord) : Frame :=
  let d := if r.kind = 1 then plainData r.payload else ChunkData.zero
  { Frame.reset with
    volume := v.num, tenant := v.tenant, mask := 0xFF, chunk := r.lba / 8, origin := 6, count := 1
    data := d.sectors, pi := (List.range 8).map fun t => buildPi (crc64 (d.sectors.getD t [])) v.tenant (r.lba + t)
    owner := s.glb.headSel, container := r.payload, lost := d.lost }

/-- The highest pairs applied, with those of a batch (R274). -/
def noteApplied (rs : List ReplRecord) (seen : List (Nat × Nat × Nat)) : List (Nat × Nat × Nat) :=
  rs.foldl (fun seen r =>
    if (seen.find? fun t => t.1 = r.head).all fun t => pairAbove (r.epoch, r.counter) t.2 then
      (seen.filter fun t => t.1 ≠ r.head) ++ [(r.head, r.epoch, r.counter)]
    else seen) seen

/-- BATCH_APPLY: the final flagged write has come. With the count of KIND 3 matched, every record enters the write log, one request for
each but visible together, as soon as the log has the room; and the source gets a SEND of 16 bytes (R274, R301). A batch whose count does
not match is not applied, and is discarded: the source ships it again (log entry 91). -/
def execBatchApply (l : Nat) (imm : BitVec 32) (s : State) : Host.Outcome State Fault Refusal :=
  let x := linkOf s l
  match volOf s x.volume, x.qpn with
  | some v, some n =>
    let rs := x.batchIn.filter fun r => r.kind ≠ 3
    if netOn s && x.enable && x.role && owns s x.volume && decide (imm.toNat = x.inBatch % 2 ^ 32) then
      if x.endCount = some x.batchIn.length then
        if decide (s.wlg.mirror ≠ 0) && framesFree s rs.length then
          let s := rs.foldl (fun s r => admitWrite [recordFrame s v r] s) (busy s)
          let s := modLink l (fun x => { x with batch := x.inBatch, batchIn := [], endCount := none, seen := noteApplied x.batchIn x.seen }) s
          .next (rebudget (issueRoce n 8 (leBytes 8 x.inBatch ++ leBytes 8 0) s))
        else .next s
      else .next (modLink l (fun x => { x with batchIn := [], endCount := none }) s)
    else .next s
  | _, _ => .next s

/-! ## Registers (R276 to R279) -/

/-- Write of RMA_REPL_CTL (R279). While ENABLE is 1 only a write that clears it counts: shipping stops after the batch in flight
and every other cut is released. -/
def replCtlWrite (l : Nat) (w : BitVec 32) (s : State) : State :=
  let x := linkOf s l
  let setTarget (on : Bool) (v : Nat) (s : State) : State := modVol v (fun y => { y with target := on }) s
  if x.enable then
    if bitOf w 0 then s
    else
      let flight := x.cuts.filter (·.sent)
      let s := modLink l (fun x => { x with enable := false, stopping := !flight.isEmpty }) s
      let s := if x.role then setTarget false x.volume s else s
      if flight.isEmpty then stopLink l s
      else
        let s := (x.cuts.filter fun c => !c.sent).foldl (fun s c => releaseCut l c s) s
        modLink l (fun x => { x with cuts := x.cuts.filter (·.sent) }) s
  else if fld w 16 16 = 0 ∨ 3600 < fld w 16 16 then s
  else
    let s := modLink l (fun x =>
      { x with enable := bitOf w 0, role := bitOf w 1, remote := fld w 2 3, keySlot := fld w 8 8, intervalS := fld w 16 16 }) s
    if bitOf w 0 then
      if bitOf w 1 then setTarget true x.volume s
      else if owns s x.volume then connectLink l s
      else s
    else s

/-- REPL_ENABLE: a write of RMA_REPL_CTL with ENABLE 1. -/
def execReplEnable (l : Nat) (w : BitVec 32) (s : State) : Host.Outcome State Fault Refusal :=
  if hostWriteOk s 0x07 && bitOf w 0 && decide (l < 64) then .next (replCtlWrite l w s) else .next s

/-- REPL_DISABLE: a write of RMA_REPL_CTL with ENABLE 0. -/
def execReplDisable (l : Nat) (w : BitVec 32) (s : State) : Host.Outcome State Fault Refusal :=
  if hostWriteOk s 0x07 && !bitOf w 0 && decide (l < 64) then .next (replCtlWrite l w s) else .next s

/-- Write of a NET register at an offset within the block. -/
def netWrite (off : Nat) (w : BitVec 32) (s : State) : State :=
  if off < 0x10 then modNetPort off (fun p => { p with pfcStuck := p.pfcStuck && !bitOf w 6 }) s
  else if off = 0x10 then { s with net.pkeyErr := s.net.pkeyErr && !bitOf w 0 }
  else if 0x1000 ≤ off ∧ off < 0x5000 then pkeyWrite ((off - 0x1000) / 4) w s
  else s

/-- Write of an RMA register at an offset within the block, RMA_REG_BASE excepted. -/
def rmaWrite (off : Nat) (w : BitVec 32) (s : State) : State :=
  if off = 0x08 then { s with rma.regLen := w.toNat }
  else if off = 0x0C then { s with rma.attrTenant := fld w 0 15, rma.attrRd := bitOf w 16, rma.attrWr := bitOf w 17 }
  else if off = 0x10 then regionEnd w s
  else if off = 0x14 then (if bitOf w 0 then regionGo s else s)
  else if off = 0x24 then { s with rma.regErr := s.rma.regErr && !bitOf w 0, rma.replErr := s.rma.replErr && !bitOf w 1 }
  else if 0x1000 ≤ off ∧ off < 0x1800 then
    let l := (off - 0x1000) / 32
    let i := (off - 0x1000) % 32
    if i = 0 then replCtlWrite l w s
    else if i = 4 then
      if (linkOf s l).enable then s else modLink l (fun x => { x with volume := fld w 0 16, remoteVolume := fld w 16 16 }) s
    else if i = 8 then modLink l (fun x => { x with authFail := x.authFail && !bitOf w 3 }) s
    else s
  else s

/-- RMA_REPL_LAG: device time since the oldest unacknowledged cut (R279). -/
def replLag (s : State) (l : Nat) : Nat := ((linkOf s l).cuts.head?).elim 0 fun c => now s - c.time

/-! ## The end of a cycle -/

/-- What waits for the end of a cycle: aborts of commands that became ready in it (R261), queue pairs whose partition key left the table
(R257), the completions due in it (R260, R269), and the packets that their sub-ports can send again (R250). From then on the tables stand as
changed (R256, R267). -/
def endNet (s : State) : State :=
  let s := s.net.aborts.foldl (fun s a => abortTag (.channel a.1) a.2 s) { s with net.sends := [], net.aborts := [] }
  let s := s.net.closing.foldl (fun s n =>
    let (v, s) := takeFree s
    qpError n v.toNat 0 s) { s with net.closing := [], net.pkeysBefore := none, rma.before := none }
  let s := s.net.cpls.foldl (fun s c => sendCpl c s) { s with net.cpls := [] }
  (s.net.held.map (·.sub)).foldl (fun s sub => releaseHeld sub s) s

end Sys2Proof.Machine
end

