-- ==== Sys2Proof/Machine/SlotPower.lean ====
section
/-!
DEFINITION. Slot power (R635 to R639): the slot master's switches, the other head's SLOT_EN, failures and retries,
CLE_SLOT_OFF, and the POWER message that carries requests between the heads.
-/
namespace Sys2Proof.Machine

/-- Slot `n`'s power entry. -/
def slotPwr (s : State) (n : Nat) : SlotPwr := s.cle.slots.getD n SlotPwr.reset

/-- Change slot `n`'s power entry. -/
def modSlotPwr (n : Nat) (f : SlotPwr → SlotPwr) (s : State) : State := { s with cle.slots := s.cle.slots.modify n f }

/-- Source identifier that the records of a slot's power carry: the module bridge of the slot, which is the element that R27 gives a
slot number (log entry 88). -/
def slotSrc (n : Nat) : Nat := srcId 7 1 n

/-- Slots of the switch that powers slot `n` (R635). -/
def switchSlots (s : State) (n : Nat) : List Nat := if slotShared s n then [n / 2 * 2, n / 2 * 2 + 1] else [n]

/-- The number of a switch: its lower slot (R637). -/
def switchOf (s : State) (n : Nat) : Nat := if slotShared s n then n / 2 * 2 else n

/-- A switch has a slot that is wanted on. -/
def switchWanted (s : State) (n : Nat) : Bool := (switchSlots s n).any (slotWanted s)

/-- This head may drive SLOT_EN: from GLB_READY.XHL on, while it runs (R636). -/
def slotsDriven (s : State) : Bool := alive s && (decide (s.glb.mode ≠ .starting) || s.glb.xhl)

/-- This head may turn the switch of slot `n` on: it is slot master, is fenced at no module, and did not find SLOT_PG high
without having turned the switch on (R636). -/
def mayTurnOn (s : State) (n : Nat) : Bool :=
  slotsDriven s && slotMaster s && decide (s.xhl.fencedAgainst = 0) &&
    (switchSlots s n).all fun i => !(slotPwr s i).pg && !(slotPwr s i).en

/-- The gaps between power-up events allow a turn-on of the switch of slot `n` now (R637). -/
def gapsAllow (s : State) (n : Nat) : Bool :=
  decide (s.cle.blockAll ≤ now s) &&
  (match s.cle.lastEvent with
   | none => true
   | some (t, sw) =>
     decide (t + (if switchOf s sw = switchOf s n then 20 else s.img.loops.slotGapMs) * 1000000 ≤ now s)) &&
  (switchSlots s n).all fun i =>
    match (slotPwr s i).pgFell with
    | none => true
    | some t => decide (t + 1000000000 ≤ now s)

/-- The switch of slot `n` may be tried: it has not failed, or its 10 s after a failure are over (R639). -/
def tryAllowed (s : State) (retry : Bool) (n : Nat) : Bool :=
  (switchSlots s n).all fun i =>
    match (slotPwr s i).failAt with
    | none => !retry
    | some t => retry && decide (t + 10 ^ 10 ≤ now s)

/-- The turn-on of the switch of slot `n` is due now, as a first attempt or a new one (R636, R637, R639). -/
def turnOnDue (s : State) (retry : Bool) (n : Nat) : Bool :=
  decide (n < 48) && mayTurnOn s n && switchWanted s n && gapsAllow s n && tryAllowed s retry n

/-- No switch of a lower number is due as well: of turn-ons due in the same tick the lower slot number goes first (R637). -/
def lowestDue (s : State) (n : Nat) : Bool :=
  !(List.range (switchOf s n)).any fun i => turnOnDue s false i || turnOnDue s true i

/-- Turn the switch of slot `n` on: SLOT_EN of its slots that are wanted on, record 0x0F07 (R58, R637, R639). A slot whose MOD_PRSNT_L
is high is not driven. -/
def turnOn (n : Nat) (s : State) : State :=
  let s := ((switchSlots s n).filter (slotWanted s)).foldl (fun s i =>
    modSlotPwr i (fun x => { x with en := true, st := 2, onAt := some (now s) }) s) s
  record 0x0F07 (slotSrc n) [] { s with cle.lastEvent := some (now s, switchOf s n) }

/-- A slot loses power: its SLOT_PG is low and its port is down (R423, R426). -/
def slotDark (n : Nat) (s : State) : State :=
  let was := (slotPwr s n).pg
  let s := modSlotPwr n (fun x => { x with pg := false, st := 0, pgFell := if was then some (now s) else x.pgFell }) s
  let s := modPort n (fun m => { m with pg := false }) s
  let m := portOf s n
  if m.st = .disabled ∨ m.st = .down then s else portDown n .down false s

/-- SLOT_POWER_ON: the slot master turns a wanted switch on (R637). -/
def execSlotPowerOn (n : Nat) (s : State) : Host.Outcome State Fault Refusal :=
  if turnOnDue s false n && lowestDue s n then .next (turnOn n s) else .next s

/-- SLOT_EN_FOLLOW: the other head, or a head that found SLOT_PG high, raises SLOT_EN[n] once SLOT_PG[n] has been high for
10 ms (R636). -/
def execSlotEnFollow (n : Nat) (s : State) : Host.Outcome State Fault Refusal :=
  if decide (n < 48) && slotsDriven s && (slotPwr s n).pg && slotWanted s n then
    .next (modSlotPwr n (fun x => { x with en := true, st := 3 }) s)
  else .next s

/-- The turn-on of the switch of slot `n` fails: its SLOT_PG has not risen for 100 ms, or, while it is high, falls (R639). -/
def powerFails (s : State) (n : Nat) : Bool :=
  let sw := switchSlots s n
  sw.any (fun i => (slotPwr s i).pg) ||
    sw.any fun i => (slotPwr s i).en && (slotPwr s i).onAt.any fun t => decide (t + 100000000 ≤ now s)

/-- SLOT_POWER_FAIL: SLOT_PG did not rise within 100 ms, or fell. The master turns the switch off, records it, and holds the
slot off after three failures in a row (R639). The other head's slot goes dark. -/
def execSlotPowerFail (n : Nat) (s : State) : Host.Outcome State Fault Refusal :=
  let sw := switchSlots s n
  let driven := sw.any fun i => (slotPwr s i).en
  if decide (n < 48) && slotsDriven s && powerFails s n then
    let s := sw.foldl (fun s i => slotDark i s) s
    let s := sw.foldl (fun s i => modSlotPwr i (fun x => { x with en := false, onAt := none }) s) s
    if slotMaster s && driven then
      let s := sw.foldl (fun s i => modSlotPwr i (fun x =>
        let k := x.fails + 1
        { x with fails := min 3 k, st := if k < 3 then 1 else 0, heldOff := decide (3 ≤ k), fault := decide (3 ≤ k)
                 failAt := some (now s) }) s) s
      .next (record 0x0F07 (slotSrc n) [] (record 0x0F06 (slotSrc n) [] { s with cle.slotFault := true }))
    else .next s
  else .next s

/-- SLOT_POWER_RETRY: 10 s after a failure the switch is tried again (R639). -/
def execSlotPowerRetry (n : Nat) (s : State) : Host.Outcome State Fault Refusal :=
  if turnOnDue s true n && lowestDue s n then .next (turnOn n s) else .next s

/-- The layout forbids a slot's power-off (R638). -/
def offRefused (s : State) (n : Nat) : Bool :=
  match (slotOf s n).st with
  | .member | .degraded | .draining => true
  | .absent | .joining | .failed | .drained => false

/-- A write of CLE_SLOT_OFF: refused for a slot in MEMBER, DEGRADED or DRAINING; 1 and then 0 clears a hold (R638, R639).
The other head asks the slot master (R636). -/
def slotOffWrite (v : BitVec 48) (s : State) : State :=
  let old := s.cle.slotOff
  let bad := (List.range 48).filter fun n => v.getLsbD n && !old.getLsbD n && offRefused s n
  let s := if bad.isEmpty then s else { s with cle.cfgErr := true }
  let v := bad.foldl (fun v n => putBit v n false) v
  let cleared := (List.range 48).filter fun n => old.getLsbD n && !v.getLsbD n
  let s := cleared.foldl (fun s n => modSlotPwr n (fun x => { x with heldOff := false, fault := false, fails := 0, failAt := none }) s)
    { s with cle.slotOff := v.setWidth 64 }
  if slotMaster s then s else sendPower (vaultReady s) false false s

/-- SLOT_OFF_WRITE: a low-half write commits CLE_SLOT_OFF (R12, R638). -/
def execSlotOffWrite (ep : Nat) (w : BitVec 32) (s : State) : Host.Outcome State Fault Refusal :=
  .next (regWrite ep 0xF0008 (fun s =>
    let v := join64 (stagedHi s ep 0xF0008 (hi32 s.cle.slotOff)) w
    dropStage ep 0xF0008 (slotOffWrite (v.setWidth 48) s)) s)

/-- The other head has dropped its SLOT_EN of slot `n`, or there is none to wait for, or 10 ms have gone by (R638). -/
def peerDropped (s : State) (n : Nat) : Bool :=
  !peerUp s || s.cle.peerDropped.getLsbD n || (slotPwr s n).offAt.any fun t => decide (t + 10000000 ≤ now s)

/-- SLOT_POWER_OFF: the other head, or the master once the other has reported or after 10 ms, drops the SLOT_EN of a slot
that is not wanted on; a switch with no wanted slot turns off (R638). -/
def execSlotPowerOff (n : Nat) (s : State) : Host.Outcome State Fault Refusal :=
  let sw := switchSlots s n
  let on := sw.any fun i => (slotPwr s i).en || (slotPwr s i).pg
  let drop (s : State) (i : Nat) : State := modSlotPwr i (fun x => { x with en := false, st := 0, onAt := none, offAt := none }) s
  if decide (n < 48) && slotsDriven s && !slotWanted s n && on then
    if !slotMaster s then .next (sendPower (vaultReady s) false false (if switchWanted s n then drop s n else sw.foldl drop s))
    else if !peerDropped s n then .next (modSlotPwr n (fun x => { x with offAt := some (x.offAt.getD (now s)) }) s)
    else if switchWanted s n then .next (drop s n)
    else .next (record 0x0F07 (slotSrc n) [] (sw.foldl (fun s i => slotDark i s) (sw.foldl drop s)))
  else .next s

/-! ## The POWER message (R93, R568, R636) -/

/-- POWER: the peer's next known event and VAULT standing; a proposal is accepted by a head whose own conditions hold; an
acceptance completes the agreement; requests for slots reach the slot master. -/
def execPower (m : PowerMsg) (s : State) : Host.Outcome State Fault Refusal :=
  if alive s then
    let s := { s with pwr.peerNext := m.next, pwr.peerVault := m.ready }
    let s := { s with cle.peerOff := m.slots.foldl (fun v x => putBit v x.1 (!x.2)) s.cle.peerOff,
                          cle.peerDropped := m.dropped }
    let s := if m.ready then s else { s with pwr.vaultProposed := false, pwr.vaultAgreed := false }
    if m.propose && m.ready && s.glb.headSel && vaultReady s then
      .next (sendPower true false true { s with pwr.vaultAgreed := true })
    else if m.accept && s.pwr.vaultProposed && vaultReady s then .next { s with pwr.vaultAgreed := true }
    else .next s
  else .next s

end Sys2Proof.Machine
end

