-- ==== Sys2Proof/Machine/PowerEnd.lean ====
section
/-!
DEFINITION. The end of a power-fail flush (steps 6 to 8 of R82) and the entry to VAULT (R93 to R96).
-/
namespace Sys2Proof.Machine

/-- Every write this head holds is committed by one head or the other: no frame is left but those a waypoint taken now
records, and no write is on its way (R81, R82). -/
def flushed (s : State) : Bool :=
  s.wlg.reserved.isEmpty && s.wlg.jobs.isEmpty && s.wlg.frames.all fun f => frameRecorded { s with xhl.owned := [f.volume] } f

/-- Close every open stripe with filler grains (R82, R530). -/
def closeOpen (s : State) : State :=
  (s.ecp.stripes.filter fun x => decide (x.st = .opened) && !recordStripe s x.serial).foldl (fun s x => closeStripe x.serial s) s

/-- The waypoint before a planned stop, with its anchors; one in progress ends first (R484, R486). -/
def stopWaypoint (s : State) : State :=
  let s := match s.mmg.wp with
    | some w => if w.whole then finishWaypoint w s else s
    | none => s
  let s := captureWaypoint true (closeOpen s)
  match s.mmg.wp with
  | some w => if w.whole then writeAnchors (finishWaypoint w s) else s
  | none => s

/-- The head drops every SLOT_EN (R82, R95). -/
def slotsOff (s : State) : State :=
  { s with
    cle.slots := s.cle.slots.map fun x => { x with en := false, pg := false, st := 0 }
    med.ports := s.med.ports.map fun m => { m with pg := false, st := .disabled } }

/-- The head's ports and links go down, and its slots with them (R82, R95). -/
def linksOff (s : State) : State :=
  let s := slotsOff s
  { s with
    eps := s.eps.map fun e => { e with linkUp := false }
    net.ports := s.net.ports.map fun p => { p with linkUp := 0 }
    xhl.link := 0 }

/-- The main regulators are turned off through PMBus: OPERATION off, and the head stands still, its device time kept with the
island's count (R82, R95, R108). -/
def railsOff (s : State) : State :=
  let s := pmbusSend (fun _ => true) 0x01 0 (linksOff s)
  { s with
    glb.held := true, glb.rails := false, glb.service := false
    cle.fans := s.cle.fans.map fun x => { x with rpm := 0, duty := 0 }
    pwr.recCap := bankCap s.pwr, pwr.recEsr := bankRes s.pwr
    flt.ports := s.flt.ports.filter (·.retired), island.storedTime := now s, island.storedCount := s.island.counter }

/-- The end of a flush: the waypoint is stopped, 0x0105 is written, every record is closed and programmed and CLEAN_STOP is set (R82). -/
def endFlush (s : State) : State :=
  let s := record 0x0105 powerSrc
    [(now s - s.pwr.flushAt) / 1000000, toMib s.pwr.flushBytes, s.pwr.bankEnergy / 1000] (stopWaypoint s)
  let s := almSaveAll s
  { s with island.cleanStop := true, pwr.flushActive := false, pwr.flushStep := 0, xhl.peerFlush := false, xhl.flushWait := false,
           wlg.frames := [] }

/-- FLUSH_DONE: the open stripe closes, the waypoint is written, every record is closed and programmed, 0x0105 goes to the
NOR and CLEAN_STOP is set. With a feed supplying the head serves on and takes the budget again; else it powers off and
waits for MAINS_RTN (R82, R678). -/
def execFlushDone (s : State) : Host.Outcome State Fault Refusal :=
  if alive s && s.pwr.flushActive && flushed s then
    let s := endFlush s
    if supplyingNow s then .next (maintAdmit (rebudget s))
    else .next (railsOff { s with pwr.stepEight := true })
  else .next s

/-- Device time at which the island wakes the head for an event at `t` (R94). -/
def wakeTime (s : State) (t : Nat) : Nat :=
  t - 60 * 10 ^ 9 - (t - now s) / 20000 - s.pwr.guardMin * 60 * 10 ^ 9

/-- The island's oscillator is trimmed against Lodestar (R94): the trim value is a measurement that the spec does not state. -/
def trimIsland (s : State) : State :=
  let (v, s) := takeFree s
  { s with island.trim := (v.setWidth 16).toInt }

/-- VAULT_ENTER: agreed by both heads, or decided alone when the peer is fenced out. The island is trimmed; a waypoint and 0x010B,
MODE 4, the island loaded with the wake time and CLEAN_STOP (steps 1 to 3 of R95, R93, R94, R678). Steps 4 and 5 follow while the
entry runs. -/
def execVaultEnter (s : State) : Host.Outcome State Fault Refusal :=
  let s' := { s with mmg.nextRefresh := nextRefreshOf s true }
  let alone := decide (s.wlg.mirror = 3) && !peerUp s
  if vaultReady s' && (s.pwr.vaultAgreed || alone) then
    let s := stopWaypoint (trimIsland s')
    let alarm := (nextKnown s).map fun x => wakeTime s x.1
    let mins := alarm.elim 0 fun a => (a - now s) / 60000000000
    let src := (nextKnown s).elim 0 (·.2)
    let s := almSaveAll (record 0x010B powerSrc [mins, src] s)
    .next { s with
      glb.mode := .vault, glb.service := false, pwr.vaultAt := some (now s), pwr.vaultWake := false
      island.alarm := alarm, island.cleanStop := true, island.wakeCause := 0
      island.wakeL := false, island.wakePending := false }
  else .next s

/-- Step 5 of R95: the rails go off, MODE 4 is read no longer, and a wake that was held drives WAKE_L low at once (R38, R96). -/
def vaultOff (s : State) : State :=
  let s := railsOff { s with pwr.vaultAt := none, island.inVault := true }
  { s with island.wakeL := s.pwr.vaultWake, pwr.vaultWake := false }

/-- The entry to VAULT runs on: 0.8 s after the agreement slots, ports and links are down, and 1.0 s after it the rails go off.
R95 gives these times as bounds (DESIGN CHOICE, log entry 88). -/
def vaultOn (s : State) : State :=
  match s.pwr.vaultAt with
  | none => s
  | some t =>
    if t + 10 ^ 9 ≤ now s then vaultOff s
    else if t + 8 * 10 ^ 8 ≤ now s ∧ s.cle.slots.any (·.en) then linksOff s
    else s

end Sys2Proof.Machine
end

