-- ==== Sys2Proof/Machine/Pair.lean ====
section
/-!
DEFINITION. The crosshead link and the pair of heads (chapter 16): flits and replay, heartbeats and the peer's standing,
ownership and handover, map deltas, forwarded commands, fencing, takeover, rejoin, the array key transfer.
-/
namespace Sys2Proof.Machine

/-- Source identifier of the crosshead link (R15). -/
def xhlSrc : Nat := srcId 1 6 0

/-- The home head of a volume is this one (R32, R569). -/
def homeHere (s : State) (v : Nat) : Bool := decide (v % 2 = b2n s.glb.headSel)

/-- Every volume number. -/
def allVolumes : List Nat := List.range 65536

/-- Set the ownership table; OWN_ALL follows (R36, R569). -/
def setOwned (l : List Nat) (s : State) : State :=
  { s with xhl.owned := l, glb.ownAll := decide (l.length = 65536) }

/-- A sorted list of volume numbers and another, together. -/
def joinVols (a b : List Nat) : List Nat := allVolumes.filter fun v => a.contains v || b.contains v

/-! ## Handover (R570, R571) -/

/-- Nothing of the set is on its way here: every command fetched for it has ended and every map change is sent (R571). -/
def handoverClear (s : State) (vols : List Nat) : Bool :=
  !(s.dcq.cmds.any fun c => !c.forwarded && forwards (cmdOpcode c) && vols.contains (cmdVolume c)) &&
  !(s.wlg.jobs.any fun j => vols.contains j.volume)

/-- The 65 536-bit mask of a set of volumes. -/
def volMask (vols : List Nat) : List (BitVec 8) :=
  (List.range 8192).map fun i => BitVec.ofNat 8 ((List.range 8).foldl (fun n j => if vols.contains (8 * i + j) then n + 2 ^ j else n) 0)

/-- Send HANDOVER once the set is clear. -/
def pushHandover (s : State) : State :=
  match s.xhl.handover with
  | some h =>
    if !h.sent && handoverClear s h.vols then
      let s := xhlSend 0x0202 false true [s.wlg.lsn] (volMask h.vols) s
      { s with xhl.handover := some { h with sent := true, mseq := (s.xhl.tcs.getD 2 TcState.reset).sent } }
    else s
  | none => s

/-- Give a set of volumes to the peer: it is moving from now on. An empty set is skipped; an ENTER_MAINT then ends at once
(R571, R589, R733). -/
def startHandover (vols : List Nat) (maint : Bool) (s : State) : State :=
  if vols.isEmpty then (if maint then { s with glb.mode := .maintenance } else s)
  else
    pushHandover (record 0x0D09 xhlSrc []
      { s with xhl.handover := some { vols := vols, sent := false, mseq := 0, maint := maint },
               xhl.moving := joinVols s.xhl.moving vols })

/-- The peer has applied the HANDOVER: the volumes leave the table and stop moving (R571, R589). -/
def endHandover (h : Handover) (s : State) : State :=
  let s := setOwned (s.xhl.owned.filter fun v => !h.vols.contains v)
    { s with xhl.handover := none, xhl.moving := s.xhl.moving.filter fun v => !h.vols.contains v }
  let s := record 0x0D09 xhlSrc [] s
  if h.maint then startHandover s.xhl.owned true s else s

/-- This head and its peer serve, and no handover or takeover is in progress here (R733). -/
def mayMove (s : State) : Bool :=
  alive s && peerUp s && decide (s.glb.mode = .ready) && decide (s.xhl.peerMode = 1) && s.xhl.handover.isNone && !s.xhl.takeover

/-- Volumes owned here whose home is the peer. -/
def awayVols (s : State) : List Nat := s.xhl.owned.filter fun v => !homeHere s v

/-- HANDOVER arrives: the volumes are owned here, and the next LSN is above the giver's highest (R571). A head in conflict with its
peer takes no volume (R55). -/
def execHandover (vols : List Nat) (lsnHigh : Nat) (s : State) : Host.Outcome State Fault Refusal :=
  if alive s && !s.glb.headConflict then
    let s := setOwned (joinVols s.xhl.owned vols) { s with wlg.lsn := max s.wlg.lsn lsnHigh }
    .next (record 0x0D09 xhlSrc [] s)
  else .next s

/-- REBALANCE_REQ: hand back the volumes whose home is the sender; a head that no longer may drops it and records it
(R733). -/
def execRebalanceReq (s : State) : Host.Outcome State Fault Refusal :=
  if alive s then
    if mayMove s then .next (startHandover (awayVols s) false s)
    else
      let (v, s) := takeFree s
      .next (record 0x0D09 xhlSrc [v.toNat] s)
  else .next s

/-! ## The peer's standing (R577, R578) -/

/-- Writes that wait for the peer's acknowledgement are held (R297, R578). -/
def holdMirror (s : State) : State :=
  if awaitsPeer s && (decide (s.wlg.mirror = 1) || decide (s.wlg.mirror = 2)) then noteMirrorHeld { s with wlg.mirror := 2 } else s

/-- The peer is LOST: 1 heartbeats, 2 link down, 3 LAST_GASP, 4 FAILSTOP heartbeat. A handover is abandoned (R571, R577, R578). -/
def peerLost (cause : Nat) (s : State) : State :=
  if s.xhl.peer = .lost then s
  else
    let (v, s) := takeFree s
    let s := record 0x0D04 xhlSrc [v.toNat] { s with xhl.peer := .lost, xhl.lostCause := cause, xhl.lostAt := now s, xhl.bulkSent := false }
    let s := match s.xhl.handover with
      | some h => record 0x0D09 xhlSrc []
          { s with xhl.handover := none, xhl.moving := s.xhl.moving.filter fun v => !h.vols.contains v }
      | none => s
    rebudget (timePeerLost (holdMirror s))

/-- UNFENCE to every module held, with an epoch formed as for a fence (R579, R587). -/
def fenceEpoch (s : State) : Nat :=
  let f := s.med.ports.foldl (fun a m => max a m.epoch) 0
  (f / 2 * 2 + 2 + b2n s.glb.headSel) % 2 ^ 32

/-- Send UNFENCE to every module whose fence holder is this head. -/
def sendUnfence (s : State) : State :=
  let ps := (activePorts s).filter fun p => s.xhl.fenceHeld.getLsbD p
  if ps.isEmpty then s
  else
    let e := fenceEpoch s
    ps.foldl (fun s p => dmlIssue p (plainCmd 0x14 (w32 e)) s) { s with xhl.epoch := e }

/-- The writes that no acknowledgement has come for are sent to the peer again. -/
def resendMirror (s : State) : State :=
  let ls := ((s.wlg.frames.filter fun f => !f.prot && (f.owner == s.glb.headSel) && decide (f.st = .logged)).map (·.lsn)).eraseDups
  ls.foldl (fun s l => sendMirror l s) s

/-- The peer is UP: after a SUSPECT mirroring resumes; after a loss the modules are unfenced and the peer joins; a takeover
that found no quorum ends (R577, R578, R582, R587). Protection by this head's log alone ends with PEER_UP (R34): from here on a write
waits for the peer's log again. -/
def peerReturns (s : State) : State :=
  let was := s.xhl.peer
  let s := { s with xhl.peer := .up, glb.xhl := s.glb.xhl || decide (s.glb.mode = .starting) }
  let s := if s.wlg.mirror = 2 then resolveMirror 1 (resendMirror { s with wlg.mirror := 1 }) else s
  let s := if was = .lost ∧ s.xhl.takeover = true
    then { s with xhl.takeover := false, xhl.roundOpen := false, xhl.splitWait := false, xhl.moving := [] } else s
  let s := if s.wlg.mirror = 3 then { s with wlg.mirror := 1 } else s
  let s := if was = .suspect then s else sendUnfence s
  let s := if was = .lost then record 0x0D0A xhlSrc [] s else s
  reselect (rebudget s)

/-- A valid HEARTBEAT settles the peer's standing (R577). A peer that this head has fenced out with quorum stays LOST until the
takeover has ended (R34). -/
def beatStanding (s : State) : State :=
  if s.xhl.peerMode = 3 then peerLost 4 s
  else if s.xhl.identSeen && !s.glb.headConflict && decide (s.xhl.link = 2) &&
      decide (s.xhl.peerMode = 0 ∨ s.xhl.peerMode = 1 ∨ s.xhl.peerMode = 2 ∨ s.xhl.peerMode = 4) &&
      !(s.xhl.takeover && s.xhl.quorum) then
    if s.xhl.peer = .up then s else peerReturns s
  else s

/-- The transfer that a rejoining head waits for at step 14 of its start: the map state, then the frames, then mirroring starts
(R587), each in the format of the dictionary coder (R375, R568). -/
def sendBulk (s : State) : State :=
  if !s.xhl.bulkSent && peerUp s && s.glb.service && s.xhl.peerReady.getLsbD 9 && !s.xhl.peerReady.getLsbD 10 then
    let s := xhlSend 0x0401 false false [0, s.xhl.dseqTx] (dictEncode ((allRecords s).flatMap deltaBytes)) s
    let s := xhlSend 0x0401 false false [2] (dictEncode (volMask s.xhl.owned)) s
    let s := xhlSend 0x0401 false true [1] (dictEncode ((s.wlg.frames.filter inLog).flatMap frameWire)) s
    { s with xhl.bulkSent := true }
  else s

/-- HEARTBEAT: its figures, the messages the peer has applied, its standing, a handover it completes, and the hand-back to a
peer that reaches READY (R567, R571, R576, R577, R588). -/
def execHeartbeat (b : Beat) (s : State) : Host.Outcome State Fault Refusal :=
  if alive s && decide (s.xhl.peerHb < b.count) then
    let before := s.xhl.peerMode
    let s := { s with
      xhl.peerHb := b.count, xhl.hbTime := now s, xhl.peerHead := b.head, xhl.peerMode := b.mode
      xhl.peerReady := b.ready, xhl.peerPorts := b.ports, xhl.peerHeld := b.held
      xhl.tcs := (List.range 5).map fun i => { s.xhl.tcs.getD i TcState.reset with acked := b.applied.getD i 0 } }
    let s := beatStanding s
    let s := match s.xhl.handover with
      | some h => if h.sent && decide (h.mseq ≤ b.applied.getD 2 0) then endHandover h s else pushHandover s
      | none => s
    let s := sendBulk s
    .next (if decide (before ≠ 1) && s.xhl.autoRebalance && mayMove s then startHandover (awayVols s) false s else s)
  else .next s

/-- HEARTBEAT_SEND, every 50 us (R568, R576). -/
def execHeartbeatSend (s : State) : Host.Outcome State Fault Refusal :=
  if s.glb.held || s.flt.wholeChip || decide (now s < s.xhl.hbSent + 50000) then .next s
  else
    let s := pushHandover { s with xhl.hbCount := s.xhl.hbCount + 1, xhl.hbSent := now s }
    .next (xhlSend 0x0001 false false
      ([b2n s.glb.headSel, modeCode s.glb.mode, (glbReadyWord s).toNat, s.xhl.hbCount] ++ s.xhl.tcs.map (·.applied) ++
        [(activePorts s).length, s.xhl.fenceHeld.toNat]) [] s)

/-- PEER_SUSPECT: 2 ms without a valid HEARTBEAT, or the link in RETRAIN (R577, R578). -/
def suspectPeer (s : State) : State :=
  if s.xhl.peer = .up then holdMirror (rebudget (record 0x0D03 xhlSrc [] { s with xhl.peer := .suspect })) else s

def execPeerSuspect (s : State) : Host.Outcome State Fault Refusal :=
  if alive s && (decide (s.xhl.hbTime + 2000000 ≤ now s) || decide (s.xhl.link = 3)) then .next (suspectPeer s) else .next s

/-- PEER_LOST: HB_LOSS_MS without a valid HEARTBEAT (R577). -/
def execPeerLost (s : State) : Host.Outcome State Fault Refusal :=
  if alive s && (decide (s.xhl.peer = .up) || decide (s.xhl.peer = .suspect)) &&
      decide (s.xhl.hbTime + 1000000 * s.xhl.hbLossMs ≤ now s) then .next (peerLost 1 s) else .next s

/-- LAST_GASP (R577, R580). -/
def execLastGasp (s : State) : Host.Outcome State Fault Refusal :=
  if alive s then .next (peerLost 3 s) else .next s

/-! ## The link (R563 to R567) -/

/-- The link enters RETRAIN: record 0x0D02, and the peer is SUSPECT (R565, R577). -/
def xhlRetrain (s : State) : State :=
  suspectPeer (record 0x0D02 xhlSrc []
    { s with xhl.link := 3, xhl.retrains := satAdd 255 s.xhl.retrains 1, xhl.syncMiss := 0, xhl.retrainTries := 0,
             xhl.retrainAt := now s })

/-- No lane of the link is retired, held off or under test: XHL has no reduced width (R563, R653, R654). -/
def xhlLanesFit (s : State) : Bool :=
  (List.range 8).all fun l => !(ctlPort s (srcId 1 6 l)).retired && decide ((ctlPort s (srcId 1 6 l)).st ≠ .test) &&
    decide ((ctlPort s (srcId 1 6 l)).st ≠ .off)

/-- XHL training completes with lock on all 8 lanes; `lanes` are what each physical lane carries. A wrong lane number keeps the link
down with a record. After a RETRAIN the sequence state is kept and unacknowledged flits are replayed; else it starts anew and IDENT
goes first (R59, R62, R563, R565, R568). -/
def execXhlLinkUp (lanes : List (Nat × Bool)) (s : State) : Host.Outcome State Fault Refusal :=
  if s.glb.held || decide (s.xhl.link = 2) || !xhlLanesFit s || !lanesLock s 2 0 8 lanes then .next s
  else
    match wrongLane s 2 0 8 lanes with
    | some l => .next (laneMismatch xhlSrc 0 (rxLane s 2 0 l) s)
    | none =>
      if s.xhl.link = 3 then
        let s := record 0x0D01 xhlSrc [] { s with xhl.link := 2, xhl.progressAt := now s }
        .next (xhlRun (if s.xhl.unacked.isEmpty then s else emit (.xhlReplay (s.xhl.unacked.map (·.1))) s))
      else
        let s := { s with
          xhl.link := 2, xhl.seqTx := 0, xhl.seqRx := 0, xhl.nakSent := false, xhl.unacked := [], xhl.rxAny := false
          xhl.wrr := [13, 1, 1, 1], xhl.syncMiss := 0, xhl.tcs := List.replicate 5 TcState.reset, xhl.identSeen := false, xhl.peerHb := 0
          xhl.dseqRx := 0, xhl.deltas := [], xhl.bulkSent := false, xhl.pairEph := none }
        .next (xhlSend 0x0007 false false [b2n s.glb.headSel, Config.serial.toNat, s.upd.runVer.toNat] []
          (record 0x0D01 xhlSrc [] s))

/-- Part of a message arrives: at its last flit the class has applied its MSEQ (R566, R567). The message's contents are a command
of their own. -/
def takeMessage (tc : Nat) (som eom : Bool) (data : List (BitVec 8)) (s : State) : State :=
  let t := s.xhl.tcs.getD tc TcState.reset
  let bytes := if som then data else t.partial_ ++ data
  let t := if eom then { t with partial_ := [], applied := leAt bytes 8 8 } else { t with partial_ := bytes }
  let s := { s with xhl.tcs := s.xhl.tcs.set tc t }
  if eom && !quietMessage (leAt bytes 0 2) then busy s else s

/-- A DATA flit is discarded: one NAK until the expected SEQ arrives (R565). -/
def xhlDiscard (s : State) : State :=
  if s.xhl.nakSent then s
  else emit (.xhlFlit (xhlFlit 15 2 0 (some ((s.xhl.seqRx + 4095) % 4096)) false false [])) { s with xhl.nakSent := true }

/-- An ACK: the flits it names are kept no longer, and others may leave (R565). -/
def xhlAck (ack : Nat) (s : State) : State :=
  let l := ackFlits ack s.xhl.unacked
  xhlRun { s with xhl.unacked := l, xhl.progressAt := if l.length < s.xhl.unacked.length then now s else s.xhl.progressAt }

/-- An accepted flit is reported in the ACK field of what the head sends next, of an IDLE flit when it has nothing to send (R565). -/
def xhlAckOut (s : State) : State :=
  let s' := xhlRun s
  if s'.out.length = s.out.length then emit (.xhlFlit (xhlFlit 15 0 0 (xhlAcked s'.xhl) false false [])) s' else s'

/-- A flit whose CRC checks: its ACK is used, and a DATA flit is accepted only with the SEQ expected next (R565). -/
def xhlTake (f : List (BitVec 8)) (s : State) : State :=
  let s := match xhlAckOf f with | some a => xhlAck a s | none => s
  if xhlType f = 1 then
    if xhlSeq f = s.xhl.seqRx ∧ xhlTc f < 5 then
      xhlAckOut (takeMessage (xhlTc f) (xhlSom f) (xhlEom f) (xhlData f)
        { s with xhl.seqRx := (s.xhl.seqRx + 1) % 4096, xhl.rxAny := true, xhl.nakSent := false })
    else xhlDiscard s
  else s

/-- A flit arrives on the crosshead link; one whose CRC fails or whose FTYPE is not of the table is counted and discarded. Three SYNC
flits missing in a row send the link to RETRAIN (R422, R564, R565). -/
def execXhlFlitReceive (rx : XhlRx) (s : State) : Host.Outcome State Fault Refusal :=
  if !s.glb.held && decide (s.xhl.link = 2) then
    match rx with
    | .sync f =>
      if xhlSyncSeen f then .next { s with xhl.syncMiss := 0 }
      else if 3 ≤ s.xhl.syncMiss + 1 then .next (xhlRetrain s)
      else .next { s with xhl.syncMiss := s.xhl.syncMiss + 1 }
    | .flit f =>
      if xhlFlitOk f then .next (xhlTake f s)
      else .next (xhlDiscard { s with xhl.crcErrs := satAdd 65535 s.xhl.crcErrs 1 })
  else .next s

/-- Replay every unacknowledged flit; one replayed 4 times already sends the link to RETRAIN. The replay is a corrected event of the
link engine's first lane (R565, R645). -/
def xhlReplayAll (s : State) : State :=
  match s.xhl.unacked with
  | [] => s
  | (_, n) :: _ =>
    if 4 ≤ n then xhlRetrain s
    else
      correctedEvent xhlSrc .lane (emit (.xhlReplay (s.xhl.unacked.map (·.1)))
        { s with xhl.unacked := s.xhl.unacked.map (fun x => (x.1, x.2 + 1)), xhl.replays := satAdd 255 s.xhl.replays 1,
                 xhl.progressAt := now s })

/-- XHL_NAK (R565). -/
def execXhlNak (ack : Nat) (s : State) : Host.Outcome State Fault Refusal :=
  if !s.glb.held && decide (s.xhl.link = 2) then .next (xhlReplayAll (xhlAck ack s)) else .next s

/-- 3 us without ACK progress while flits are unacknowledged (R565). -/
def execXhlReplayTimeout (s : State) : Host.Outcome State Fault Refusal :=
  if !s.glb.held && decide (s.xhl.link = 2) && decide (s.xhl.progressAt + 3000 ≤ now s) then .next (xhlReplayAll s) else .next s

/-- The link is DOWN and the peer LOST (R565, R577). -/
def xhlDown (s : State) : State :=
  let s := record 0x0D01 xhlSrc [] { s with
    xhl.link := 0, xhl.unacked := [], xhl.identSeen := false
    xhl.tcs := s.xhl.tcs.map fun t => { t with queue := [], partial_ := [] } }
  if alive s && decide (s.xhl.peer ≠ .unknown) then peerLost 2 s else s

/-- Three RETRAIN attempts of 10 ms have failed (R565). -/
def execXhlLinkDown (s : State) : Host.Outcome State Fault Refusal :=
  if !s.glb.held && decide (s.xhl.link = 3) && decide (s.xhl.retrainAt + 30000000 ≤ now s) then .next (xhlDown s) else .next s

/-- NOP: a fence of its class; every earlier message has taken effect, as each does at once (R568, R284). -/
def execNop (_tc : Nat) (s : State) : Host.Outcome State Fault Refusal := .next s

/-! ## IDENT and the array key (R55, R568, R591) -/

/-- This head's public value, identity key and signature, and the wrapped key when it is the holder. -/
def sendPairKey (eph : List (BitVec 8)) (wrapped : Option (List (BitVec 8))) (s : State) : State :=
  let value := Config.ecdhPublic eph
  xhlSend 0x0402 false false [Config.serial.toNat, b2n wrapped.isSome]
    (Config.identityKey.flatMap (fun w => leBytes 4 w.toNat) ++ value ++ Config.identitySign value ++ wrapped.getD []) s

/-- The ephemeral private value of the exchange, drawn at its first use. -/
def pairValue (s : State) : List (BitVec 8) × State :=
  match s.xhl.pairEph with
  | some e => (e, s)
  | none =>
    let (a, s) := drawKey s
    (a, { s with xhl.pairEph := some a })

/-- IDENT: one HEAD_SEL on both heads is a conflict, and both stay in STARTING; else the exchange of the array key follows for a
head that has none and serves the same owner (R55, R568, R591). -/
def execIdent (head : Bool) (serial : BitVec 64) (fw : BitVec 32) (sameOwner : Bool) (s : State) :
    Host.Outcome State Fault Refusal :=
  if !s.glb.held && decide (s.xhl.link = 2) then
    let s := { s with xhl.identSeen := true, xhl.peerHead := head, xhl.peerSerial := serial, xhl.peerFw := fw }
    if head = s.glb.headSel then
      if s.glb.headConflict then .next s else .next (recordAlert 0x0311 xhlSrc [] { s with glb.headConflict := true })
    else if s.sec.arrayKey.isNone && sameOwner && s.xhl.pairEph.isNone then
      let (e, s) := pairValue s
      .next (sendPairKey e none s)
    else .next s
  else .next s

/-- The identity that the peer shows is the one expected; the first rule that applies decides (R591). -/
def identityExpected (s : State) (m : PairMsg) : Bool :=
  let d := Config.sha384 m.idKey
  (decide (s.img.board.peerSerial = 0) || decide (m.serial = s.img.board.peerSerial)) &&
  (if s.img.board.peerIdDigest.any (· ≠ 0) then decide (d = s.img.board.peerIdDigest)
   else match s.xhl.pin with
    | some p => decide (d = p)
    | none => true)

/-- A refusal of the exchange: record 0x0D0B with its cause, whose code is open (R591). -/
def pairRefused (s : State) : State :=
  let (v, s) := takeFree s
  record 0x0D0B xhlSrc [v.toNat] s

/-- PAIR_KEY: the peer's value is verified, its identity checked and perhaps pinned; the holder sends the array key wrapped under
the transport key, and a head without one takes it (R591). -/
def execPairKey (m : PairMsg) (s : State) : Host.Outcome State Fault Refusal :=
  if alive s && s.xhl.identSeen && !s.glb.headConflict then
    if Config.ecdsaVerify m.idKey m.value m.sig && identityExpected s m then
      let fresh := s.img.board.peerIdDigest.all (· = 0) && s.xhl.pin.isNone
      let pin := some (Config.sha384 m.idKey)
      let s := if fresh then noteMapChange (sendDelta [deltaPin (peerPinIndex s) pin] { s with xhl.pin := pin }) else s
      let (e, s) := pairValue s
      let transport := Config.pairKdf (Config.ecdhShared e m.value)
      match s.sec.arrayKey, m.wrapped with
      | some k, none =>
        .next (record 0x0D0B xhlSrc [] (sendPairKey e (some (Config.kwWrap transport k)) { s with xhl.pairKeyOk := true }))
      | none, some w =>
        match Config.kwUnwrap transport w with
        | some k =>
          .next (record 0x0D0B xhlSrc []
            { s with sec.arrayKey := some k, xhl.pairKeyOk := true, sec.keysReady := s.sec.keysReady || s.glb.map })
        | none => .next (pairRefused s)
      | _, _ => .next s
    else .next (pairRefused s)
  else .next s

/-! ## Flush progress (R81) -/

/-- The peer's flush commitment and progress: copies of what it has committed are dropped (R81). -/
def execFlushMessage (committed : Bool) (commitLsn : Nat) (s : State) : Host.Outcome State Fault Refusal :=
  if alive s then .next (releaseCommitted commitLsn { s with xhl.peerFlush := committed }) else .next s

/-! ## Map deltas (R574, R575) -/

/-- Apply one MAP_DELTA. -/
def applyMessage (d : Delta) (s : State) : State :=
  let s := d.recs.foldl (fun s r => applyDelta r s) s
  recountPeer { s with xhl.dseqRx := d.dseq, xhl.deltaLag := min (2 ^ 32 - 1) (now s - d.time) }

/-- Apply every waiting MAP_DELTA that is next in DSEQ order. -/
def drainDeltas : Nat → State → State
  | 0, s => s
  | n + 1, s =>
    match s.xhl.deltas.find? fun d => d.dseq = s.xhl.dseqRx + 1 with
    | some d => drainDeltas n (applyMessage d { s with xhl.deltas := s.xhl.deltas.filter fun x => x.dseq ≠ d.dseq })
    | none => s

/-- MAP_DELTA: applied in DSEQ order; one ahead of its turn waits. The first after IDENT or BULK sets the count (R575). -/
def execMapDelta (dseq time : Nat) (recs : List DeltaRec) (s : State) : Host.Outcome State Fault Refusal :=
  if alive s then
    let d : Delta := { dseq := dseq, time := time, arrived := now s, recs := recs }
    if s.xhl.dseqRx = 0 then .next (applyMessage d s)
    else if dseq ≤ s.xhl.dseqRx then .next s
    else
      let s := { s with xhl.deltas := s.xhl.deltas ++ [d] }
      .next (drainDeltas s.xhl.deltas.length s)
  else .next s

/-- DELTA_GAP: a gap open for 10 ms (R575). -/
def execDeltaGap (s : State) : Host.Outcome State Fault Refusal :=
  if alive s && (s.xhl.deltas.any fun d => decide (d.arrived + 10000000 ≤ now s)) && decide (s.xhl.link = 2) then .next (xhlRetrain (record 0x0D0C xhlSrc [] s)) else .next s

/-! ## Forwarded commands (R33, R236, R568) -/

/-- FWD_CMD: the owner runs checks 5 to 10 and the command; `abort` drops one that has not been admitted. In DROWSE or DOZE the command is
held and an exit begins; the event comes again once the head is in PS0 (R91, log entry 88). -/
def execFwdCmd (q : QueueId) (tag gen : Nat) (words : List (BitVec 32)) (tenant : Option Nat) (abort : Bool)
    (media : List StoredRead) (s : State) : Host.Outcome State Fault Refusal :=
  if alive s then
    if abort then
      match remoteCmd s q tag with
      | none => .next s
      | some c =>
        if c.gen = gen then
          let s := { s with dcq.cmds := s.dcq.cmds.filter fun x => !(decide (x.q = q) && decide (x.tag = tag) && x.remote) }
          .next (settleRetains (dropWrite c (leaveDigest c s)))
        else .next (staleRemote q tag gen s)
    else
      match remoteCmd s q tag with
      | some c => .next (if decide (c.st = .started) && decide (c.gen = gen) && inPs0 s then ownerRun c tenant media s else s)
      | none =>
        let c := bindCmd s { Cmd.reset with q := q, tag := tag, gen := gen, words := words, seq := s.dcq.seq, remote := true
                                            bind := bindGen s }
        let s := busy { s with dcq.cmds := s.dcq.cmds ++ [c], dcq.seq := s.dcq.seq + 1 }
        .next (if inPs0 s && !drbgWaits s c then ownerRun c tenant media s else s)
  else .next s

/-- FWD_DATA: a piece of a forwarded command's output goes to its place: 0 data of sector `i`, 1 its PI, 2 the one buffer
(R212, R236). -/
def execFwdData (q : QueueId) (tag gen kind i : Nat) (data : List (BitVec 8)) (s : State) : Host.Outcome State Fault Refusal :=
  if alive s then
    match cmdOf s q tag with
    | some c => if tagMatches s q tag gen then .next (deliver c (outAddr c kind i) data s) else .next (staleItem q tag gen s)
    | none => .next (staleItem q tag gen s)
  else .next s

/-- Frames of a forwarded write that carry no LSN yet are dropped. -/
def dropFilling (q : QueueId) (tag : Nat) (s : State) : State :=
  rebudget { s with wlg.frames := s.wlg.frames.filter fun f => !(decide (f.st = .filling) && decide (f.q = q) && decide (f.tag = tag)) }

/-- FWD_CPL: the owner's completion is posted with FORWARDED (R212, R236). -/
def execFwdCpl (q : QueueId) (tag gen status : Nat) (r0 : BitVec 32) (r1 : BitVec 64) (s : State) :
    Host.Outcome State Fault Refusal :=
  if alive s then
    if (cmdOf s q tag).isSome && tagMatches s q tag gen then
      .next (finishWith q tag status r0 r1 true false (dropFilling q tag s))
    else .next (staleItem q tag gen s)
  else .next s

/-! ## Fencing (R579 to R583) -/

/-- PORT_FENCE to every module whose port is ACTIVE, all in parallel: a round opens (R579, R582). -/
def sendFences (s : State) : State :=
  let e := fenceEpoch s
  (activePorts s).foldl (fun s p => dmlIssue p (plainCmd 0x13 (w32 e)) s)
    { s with xhl.epoch := e, xhl.roundOpen := true, xhl.roundAt := now s, xhl.splitWait := false }

/-- Modules at which this head is fence holder, at which it is fenced, and N_L (R581). -/
def fenceCounts (s : State) : Nat × Nat × Nat :=
  let bits (w : BitVec 48) : Nat := ((List.range 48).filter w.getLsbD).length
  let nl := (s.ecp.slots.filter fun x => decide (x.st = .member) || decide (x.st = .draining) || decide (x.st = .degraded)).length
  (bits s.xhl.fenceHeld, bits s.xhl.fencedAgainst, nl)

/-- Quorum: fence holder at more than N_L / 2 modules, or at exactly half with HEAD_SEL 0; one module at least (R581). -/
def hasQuorum (s : State) : Bool :=
  let held := (fenceCounts s).1
  let nl := (fenceCounts s).2.2
  decide (0 < held) && (decide (nl < 2 * held) || (decide (2 * held = nl) && !s.glb.headSel))

/-- Fenced out: fenced at more than N_L / 2 modules, or at exactly half with HEAD_SEL 1; at one at least (R582). -/
def isFencedOut (s : State) : Bool :=
  let against := (fenceCounts s).2.1
  let nl := (fenceCounts s).2.2
  decide (0 < against) && (decide (nl < 2 * against) || (decide (2 * against = nl) && s.glb.headSel))

/-- Tags of this head's own held writes (R297). -/
def heldWrites (s : State) : List Frame :=
  s.wlg.frames.filter fun f => !f.prot && (f.owner == s.glb.headSel) && decide (f.st = .logged)

/-- Forwarded writes whose LSN has not come back: their frames go and they complete HEAD_FAILOVER_RETRY (R297). -/
def endForwarded (s : State) : State :=
  (s.dcq.cmds.filter fun c => c.forwarded && !c.remote).foldl (fun s c =>
    finish c.q c.tag stFailoverRetry 1000 0 (dropFilling c.q c.tag s)) s

/-- The peer is fenced out with quorum: held writes are protected and complete SUCCESS; MIRROR reads 3 (R34, R297, R584). -/
def protectHeld (s : State) : State :=
  let fs := heldWrites s
  let s := endForwarded { s with wlg.mirror := 3, wlg.resends := [] }
  let s := fs.foldl (fun s f =>
    if tagMatches s f.q f.tag f.gen ∧ f.origin < 6 then finish f.q f.tag stSuccess 0 0 (protect f.lsn s) else protect f.lsn s) s
  rebudget (resolveMirror 1 s)

/-- Every held write completes HEAD_FAILOVER_RETRY (R297, R582). -/
def retryHeld (s : State) : State :=
  let fs := heldWrites s
  let s := endForwarded s
  let s := fs.foldl (fun s f =>
    if tagMatches s f.q f.tag f.gen ∧ f.origin < 6 then finish f.q f.tag stFailoverRetry 1000 0 s else s) s
  if s.wlg.heldRec then record 0x0703 mirrorSrc [2] { s with wlg.heldRec := false } else s

/-- With neither outcome the head serves no volume: every command for one completes HEAD_FAILOVER_RETRY (R582). -/
def serveNone (s : State) : State :=
  let s := (s.dcq.cmds.filter fun c => forwards (cmdOpcode c) && !c.remote).foldl (fun s c =>
    finish c.q c.tag stFailoverRetry 1000 0 (dropFilling c.q c.tag s)) { s with xhl.moving := allVolumes, xhl.handover := none }
  recordAlert 0x0D07 xhlSrc [] { s with wlg.holds := [], wlg.reserved := [] }

/-- FENCE_RESULT: 150 ms after a round's first PORT_FENCE its outcome is decided (R582, R583). A head in STARTING goes on only
with quorum, and otherwise waits. -/
def execFenceResult (s : State) : Host.Outcome State Fault Refusal :=
  if alive s && s.xhl.roundOpen && decide (s.xhl.roundAt + 150000000 ≤ now s) then
    let n := fenceCounts s
    let q := hasQuorum s
    let s := { s with xhl.roundOpen := false, xhl.quorum := q
                      xhl.quorumCount := w32 (n.1 + 256 * n.2.1 + 65536 * n.2.2) }
    let s := record 0x0D05 xhlSrc [n.1, n.2.1, n.2.2] s
    if decide (s.glb.mode = .starting) then .next (if q then { s with glb.xhl := true, glb.log := true, wlg.mirror := 3 } else s)
    else if q then .next (protectHeld s)
    else if isFencedOut s then .next (failstop 5 xhlSrc (recordAlert 0x0D08 xhlSrc [] (retryHeld s)))
    else .next (serveNone s)
  else .next s

/-- FENCE_RETRY: without quorum the head fences again every 1 s (R582). -/
def execFenceRetry (s : State) : Host.Outcome State Fault Refusal :=
  if alive s && s.xhl.takeover && !s.xhl.quorum && !s.xhl.roundOpen && decide (s.xhl.peer = .lost) &&
      decide (s.xhl.roundAt + 1000000000 ≤ now s) then .next (sendFences s)
  else .next s

/-- START_FENCE_RETRY: a head in STARTING without XHL and without quorum fences again every 10 s (R583). -/
def execStartFenceRetry (s : State) : Host.Outcome State Fault Refusal :=
  if alive s && decide (s.glb.mode = .starting) && s.glb.cal && !s.glb.xhl && !s.xhl.roundOpen && !s.glb.headConflict &&
      !peerUp s && decide (max s.glb.startAt s.xhl.roundAt + 10000000000 ≤ now s) then .next (sendFences s)
  else .next s

/-! ## Takeover (R584 to R586, R590) -/

/-- Record 0x0D06; the volumes this head does not own are moving (R580, R584). -/
def takeoverBegins (s : State) : State :=
  let (v, s) := takeFree s
  record 0x0D06 xhlSrc [v.toNat]
    { s with xhl.takeover := true, xhl.quorum := false, xhl.moving := allVolumes.filter fun v => !owns s v
             xhl.flushWait := s.pwr.flushActive }

/-- Commands forwarded to the peer end with HEAD_FAILOVER_RETRY; a forwarded write logged here is held for the outcome
(R297, R584). -/
def endSentOn (s : State) : State :=
  (s.dcq.cmds.filter fun c => c.forwarded && !c.remote && decide (c.st ≠ .admitted)).foldl (fun s c =>
    finish c.q c.tag stFailoverRetry 1000 0 s) s

/-- Head B waits SPLIT_DELAY_MS where a module shows the other head still active (R580). -/
def splitDelayed (s : State) : Bool :=
  s.glb.headSel && decide (s.xhl.lostCause = 1 ∨ s.xhl.lostCause = 2) &&
    (activePorts s).any fun p => (portOf s p).otherActive

/-- Fencing starts, at once or after SPLIT_DELAY_MS (R580). -/
def beginFencing (s : State) : State := if splitDelayed s then { s with xhl.splitWait := true } else sendFences s

/-- TAKEOVER: record 0x0D06, the peer's volumes are moving, commands forwarded to it end, and fencing starts, at once or after
SPLIT_DELAY_MS (R580, R584). A forwarded write already logged here is held for the outcome (R297). -/
def execTakeover (s : State) : Host.Outcome State Fault Refusal :=
  if alive s && decide (s.xhl.peer = .lost) && !s.xhl.takeover && decide (s.glb.mode ≠ .starting) then
    .next (beginFencing (endSentOn (takeoverBegins s)))
  else .next s

/-- SPLIT_DELAY_EXPIRY (R580). -/
def execSplitDelayExpiry (s : State) : Host.Outcome State Fault Refusal :=
  if alive s && s.xhl.splitWait && decide (s.xhl.lostAt + 1000000 * s.xhl.splitDelayMs ≤ now s) then .next (sendFences s) else .next s

/-- One replayed trailer entry: under R308 the map takes it when its LSN exceeds the recorded one (R487, R584). -/
def replayTrailer (t : TrailerEntry) (s : State) : State :=
  match volOf s t.volume with
  | none => s
  | some x =>
    if t.kind = 0 ∧ lsnIn s x.table t.chunk < t.lsn then
      setLive t.volume t.chunk t.lsn
        (some { chunk := t.chunk, method := methodOf t.method, grain := t.grain, grains := t.len, shared := t.shared, lsn := t.lsn }) s
    else s

/-- The next LSN rises above every LSN found; moving ends (R584, R586). -/
def takeoverRaise (trailers : List TrailerEntry) (s : State) : State :=
  { s with
    wlg.lsn := (s.wlg.frames.map (·.lsn) ++ trailers.map (·.lsn) ++ (s.red.pages.flatMap fun p => p.entries.map (·.lsn)) ++
      [s.xhl.peerCommit]).foldl max s.wlg.lsn
    xhl.moving := [], xhl.takeover := false, xhl.flushWait := false
    xhl.takeovers := satAdd (2 ^ 32 - 1) s.xhl.takeovers 1 }

/-- Record 0x0D06 of the end, and replication goes on here (R584, R590). -/
def takeoverRecord (s : State) : State :=
  let (v, s) := takeFree s
  resumeLinks (record 0x0D06 xhlSrc [v.toNat] s)

/-- A waypoint is written, after the one under way where there is one (R584). -/
def askWaypoint (s : State) : State :=
  if s.mmg.wp.isNone then captureWaypoint false s else { s with mmg.wpRequest := true }

/-- TAKEOVER_END: steps 5 to 8. `trailers` are the entries of the peer's strips at or above its newest waypoint; the next LSN
rises above every LSN found, every volume is owned here, moving ends and a waypoint is written (R584, R586, R590). -/
def execTakeoverEnd (trailers : List TrailerEntry) (s : State) : Host.Outcome State Fault Refusal :=
  if alive s && s.xhl.takeover && s.xhl.quorum && !s.pwr.flushActive then
    let s := takeoverRaise trailers ((sortBy (·.lsn) trailers).foldl (fun s t => replayTrailer t s) s)
    .next (rebudget (askWaypoint (takeoverRecord (recountPeer (setOwned allVolumes s)))))
  else .next s

/-! ## Rejoin (R569, R587) -/

/-- Ownership is settled from the peer's table: the table of the head that is fence holder at more than N_L / 2 modules stands, as
does that of a serving head beside one that starts; without either every volume goes home (R569, R587). -/
def settleOwnership (table : List Nat) (s : State) : State :=
  let complementary := allVolumes.all fun v => owns s v != table.contains v
  let held := (fenceCounts s).1
  let nl := (fenceCounts s).2.2
  let peerHeld := ((List.range 48).filter s.xhl.peerHeld.getLsbD).length
  let starting := decide (s.glb.mode = .starting)
  let peerStarting := decide (s.xhl.peerMode = 0)
  if complementary || decide (nl < 2 * held) || (!starting && peerStarting) then s
  else if decide (nl < 2 * peerHeld) || (starting && !peerStarting) then setOwned (allVolumes.filter fun v => !table.contains v) s
  else setOwned (allVolumes.filter (homeHere s)) s

/-- Frames of a bulk transfer that this head has not logged join the log as logged and protected (R297, R587). -/
def bulkFrames (m : BulkMsg) (s : State) : State :=
  let fs := m.frames.filter fun f => !(s.wlg.frames.any fun g => decide (g.lsn = f.lsn) && decide (g.index = f.index) && g.owner == f.owner)
  { s with xhl.dseqRx := max s.xhl.dseqRx m.dseq,
           wlg.frames := s.wlg.frames ++ fs.map fun f => { f with st := .logged, prot := true, geom := none } }

/-- The last transfer of a rejoining head ends step 14 of its start (R137, R587). -/
def bulkEnd (s : State) : State :=
  if s.glb.map then record 0x0D0A xhlSrc [] { s with glb.log := true, wlg.mirror := 1 } else s

/-- Records, frames and the ownership table of a bulk transfer (R569, R587). -/
def bulkTake (m : BulkMsg) (s : State) : State :=
  let s := bulkFrames m (recountPeer (m.recs.foldl (fun s r => applyDelta r s) s))
  match m.table with
  | some t => if s.glb.headConflict then s else settleOwnership t s
  | none => s

/-- BULK: records and frames are applied; a table settles ownership; the last transfer ends step 14 of a rejoining head's start
and PEER_JOIN is recorded (R137, R569, R587). -/
def execBulk (m : BulkMsg) (s : State) : Host.Outcome State Fault Refusal :=
  if alive s then .next (rebudget (if m.final then bulkEnd (bulkTake m s) else bulkTake m s)) else .next s

/-! ## XHL_CMD (R589, R591 to R594, R733) -/

/-- A refused command. -/
def xhlRefuse (s : State) : State := { s with xhl.cmdErr := true }

/-- ENTER_MAINT; `peer` tells of the peer's own ENTER_MAINT: 1 in progress, 2 issued in the same cycle, which head 0 wins
(R119, R589). -/
def enterMaint (peer : Nat) (s : State) : State :=
  if !peerUp s || decide (s.xhl.peerMode ≠ 1) || decide (s.glb.mode ≠ .ready) || decide (peer = 1) ||
      (decide (peer = 2) && s.glb.headSel) then xhlRefuse s
  else
    match s.xhl.handover with
    | some h => { s with xhl.handover := some { h with maint := true } }
    | none => startHandover s.xhl.owned true s

/-- EXIT_MAINT: READY again; the peer then hands the home volumes back (R588, R589). -/
def exitMaint (s : State) : State := if s.glb.mode = .maintenance then { s with glb.mode := .ready } else xhlRefuse s

/-- REBALANCE; `peerBusy` tells that a handover or takeover is in progress at the peer (R733). -/
def rebalance (peerBusy : Bool) (s : State) : State :=
  let settled := (awayVols s).isEmpty && (allVolumes.filter (homeHere s)).all (owns s)
  if !mayMove s || peerBusy || settled then xhlRefuse s
  else xhlSend 0x0203 false false [] [] (startHandover (awayVols s) false s)

/-- GIVE (R733). -/
def give (peerBusy : Bool) (s : State) : State :=
  let vols := s.xhl.owned.filter fun v => decide (s.xhl.volFirst ≤ v) && decide (v ≤ s.xhl.volLast)
  if !mayMove s || peerBusy || vols.isEmpty then xhlRefuse s else startHandover vols false s

/-- UNPIN_PEER (R591). -/
def unpinPeer (confirm : Nat) (s : State) : State :=
  if confirm = Config.serial.toNat % 65536 ∧ s.glb.ownAll = true then
    noteMapChange (sendDelta [deltaPin (peerPinIndex s) none] { s with xhl.pin := none })
  else xhlRefuse s

def execEnterMaint (peer : Nat) (s : State) : Host.Outcome State Fault Refusal :=
  if hostWriteOk s 0x0D then .next (enterMaint peer s) else .next s

def execExitMaint (s : State) : Host.Outcome State Fault Refusal :=
  if hostWriteOk s 0x0D then .next (exitMaint s) else .next s

def execRebalance (peerBusy : Bool) (s : State) : Host.Outcome State Fault Refusal :=
  if hostWriteOk s 0x0D then .next (rebalance peerBusy s) else .next s

def execGive (peerBusy : Bool) (s : State) : Host.Outcome State Fault Refusal :=
  if hostWriteOk s 0x0D then .next (give peerBusy s) else .next s

def execUnpinPeer (confirm : Nat) (s : State) : Host.Outcome State Fault Refusal :=
  if hostWriteOk s 0x0D then .next (unpinPeer confirm s) else .next s

/-- Write of an XHL register at an offset within the block (R592 to R594). -/
def xhlWrite (off : Nat) (w : BitVec 32) (s : State) : State :=
  if off = 0 then { s with xhl.cmdErr := s.xhl.cmdErr && !bitOf w 8 }
  else if off = 4 then
    match fld w 0 3 with
    | 1 => enterMaint 0 s
    | 2 => exitMaint s
    | 3 => rebalance false s
    | 4 => give false s
    | 5 => unpinPeer (fld w 16 16) s
    | _ => xhlRefuse s
  else if off = 8 then
    if fld w 0 16 ≤ fld w 16 16 then { s with xhl.volFirst := fld w 0 16, xhl.volLast := fld w 16 16 } else xhlRefuse s
  else if off = 0x0C then
    if 5 ≤ fld w 8 8 ∧ fld w 8 8 ≤ 200 ∧ fld w 16 8 ≤ 100 then
      noteMapChange { s with xhl.autoRebalance := bitOf w 0, xhl.hbLossMs := fld w 8 8, xhl.splitDelayMs := fld w 16 8 }
    else xhlRefuse s
  else s

end Sys2Proof.Machine
end

