-- ==== Sys2Proof/Machine/Fault.lean ====
section
/-!
DEFINITION. The fault domain (chapter 19) and the control hierarchy's watchdog and control ports (chapter 01): error reports,
the Husk freeze, region tables, self-tests, retirement, FAILSTOP and the FLT registers.
-/
namespace Sys2Proof.Machine

/-- The fault domain controller (R26). -/
def faultSrc : Nat := srcId 0 3 0

/-- The element is a control complex core. -/
def isCore (src : Nat) : Bool := decide (srcStage src = 0) && decide (srcEngine src = 8)

/-- The element is a core or a domain controller. -/
def isControl (src : Nat) : Bool := decide (srcStage src = 0)

/-! ## The supervisor (R19, R20) -/

/-- The lockstep cores disagree (R19). -/
def execSupervisorDivergence (s : State) : Host.Outcome State Fault Refusal :=
  if s.glb.held then .next s else .next (failstop 1 (srcId 0 0 0) s)

/-- The block agents, one for each functional block: those of the engines of the five stages, numbered as bits [15:7] of a source
identifier (R18, R26). -/
def blockAgents : List Nat := (List.range 512).filter fun n => decide (0 < engineLanes (n / 64) (n % 64))

/-- The core on which a block agent runs (R20). -/
def coreOf (s : State) (agent : Nat) : Nat :=
  ((List.range 16).find? fun c => (ctlPort s (srcId 0 8 c)).agents.contains agent).getD 0

/-- The supervisor schedules an agent onto a core in RUN; the spec does not say which (R20, R648). -/
def scheduleAgent (s : State) (agent : Nat) : State :=
  let cores := (List.range 16).filter fun c => decide (ctlState s (srcId 0 8 c) = .run)
  let (v, s) := takeFree s
  match cores[v.toNat % cores.length]? with
  | some c => modCtl (srcId 0 8 c) (fun p => { p with agents := p.agents ++ [agent] }) s
  | none => s

/-- The domain controllers are the four other members of the control hierarchy (R18). -/
def isDomainController (src : Nat) : Bool := decide (1 ≤ src / 128) && decide (src / 128 ≤ 4) && decide (src % 128 = 0)

/-- A domain controller (its source identifier), or a block agent (0x10000 and above), misses the watchdog: it is restarted, and on a
second stop within 60 s the head enters FAILSTOP. For an agent the cause names the core on which it last ran (R20, R663, R700). -/
def execWatchdogTimeout (block : Bool) (n : Nat) (s : State) : Host.Outcome State Fault Refusal :=
  let member := if block then 0x10000 + n else n
  if alive s && (if block then blockAgents.contains n else isDomainController n) then
    let again := s.glb.restarts.any fun r => decide (r.1 = member) && decide (now s < r.2 + 60 * 10 ^ 9)
    let s := { s with glb.restarts := (s.glb.restarts.filter fun r => r.1 ≠ member) ++ [(member, now s)],
                      upd.restarts := s.upd.restarts + 1 }
    if again then
      if member = faultSrc then .next (failstop 4 faultSrc s)
      else .next (failstop 7 (if block then srcId 0 8 (coreOf s n) else n) s)
    else .next s
  else .next s

/-! ## Control ports (R22 to R24) -/

/-- The one member that uses a function of a control port (R22). -/
def functionUser : PortFunction → PortMember
  | .configure => .agent
  | .runQuiesce => .agent
  | .gate => .power
  | .stamp => .time
  | .report => .fault
  | .freezeTest => .fault
  | .share => .maintenance

/-- The functions that enter a port into a state (R22, R23): the fault domain's release gives RUN too (R24). -/
def enteringFunctions : CtlState → List PortFunction
  | .husk => [.freezeTest]
  | .test => [.freezeTest]
  | .off => [.gate]
  | .quiesced => [.runQuiesce]
  | .run => [.runQuiesce, .freezeTest]

/-- A member may enter a port into a state (R22, R23). -/
def mayEnter (m : PortMember) (st : CtlState) : Bool :=
  (enteringFunctions st).any fun f => decide (functionUser f = m)

/-- A request is not refused out of hand: its member may enter the state, and only the fault domain moves a port out of HUSK or
TEST (R23, R24). -/
def requestAllowed (p : Port) (r : PortMember × CtlState) : Bool :=
  mayEnter r.1 r.2 && !p.retired && (decide (p.st ≠ .husk) && decide (p.st ≠ .test) || decide (r.1 = .fault)) &&
    (decide (r.2 ≠ .run) || decide (r.1 = .agent) || decide (p.st = .husk) || decide (p.st = .test))

/-- The state that requests of one cycle put a port in: of those allowed, the earliest in the precedence (R23). -/
def requestTaken (p : Port) (reqs : List (PortMember × CtlState)) : Option CtlState :=
  let ok := (reqs.filter (requestAllowed p)).map (·.2)
  ([.husk, .test, .off, .quiesced, .run] : List CtlState).find? fun st => ok.contains st

/-! ## Region tables (R646, R647, R649) -/

/-- The region-table entry `idx` of a master. -/
def regionEntry (s : State) (src idx : Nat) : Option RegionEntry :=
  s.flt.regions.find? fun e => decide (e.src = src) && decide (e.idx = idx)

/-- An access lies within one VALID entry that permits its kind (R646). -/
def entryPermits (e : RegionEntry) (addr len : Nat) (write : Bool) : Bool :=
  e.rights.getLsbD 2 && e.rights.getLsbD (b2n write) && decide (e.base ≤ addr) && decide (addr + len ≤ e.base + 4096 * e.pages)

/-- The region table of a master permits an access (R646). -/
def accessPermitted (s : State) (src addr len : Nat) (write : Bool) : Bool :=
  s.flt.regions.any fun e => decide (e.src = src) && entryPermits e addr len write

/-- Put an entry in the table. -/
def applyRegion (e : RegionEntry) (s : State) : State :=
  { s with flt.regions := (s.flt.regions.filter fun x => !(decide (x.src = e.src) && decide (x.idx = e.idx))) ++ [e] }

/-- The port of a master is frozen. -/
def frozenPort (s : State) (src : Nat) : Bool := decide ((ctlPort s src).st = .husk) || decide ((ctlPort s src).st = .test)

/-- The fault domain takes a change of a whole region-table entry, which is applied at the end of its cycle: accesses checked in the same
cycle are judged against the entry as it stood before (R647). -/
def execRegionTableChange (e : RegionEntry) (s : State) : Host.Outcome State Fault Refusal :=
  if alive s && elementExists e.src && decide (e.idx < 16) && decide (e.base % 4096 = 0) && decide (1 ≤ e.pages) &&
      decide (e.pages < 2 ^ 32) && decide (e.rights.toNat < 8) then
    .next { s with flt.regionNew := s.flt.regionNew ++ [e] }
  else .next s

/-- The cycle ends: its changes are applied, but that of a master frozen by then waits for the release (R647, R649). -/
def regionsOn (s : State) : State :=
  s.flt.regionNew.foldl (fun s e =>
    if frozenPort s e.src then { s with flt.regionWait := s.flt.regionWait ++ [e] } else applyRegion e s) { s with flt.regionNew := [] }

/-- The 16 bytes of a region-table entry (R646). -/
def regionBytes (e : RegionEntry) : List (BitVec 8) :=
  leBytes 8 e.base ++ leBytes 4 e.pages ++ [e.rights] ++ List.replicate 3 0

/-! ## The Husk freeze (R25, R645, R648, R649) -/

/-- A core's block agents move to other cores (R648). -/
def moveAgents (src : Nat) (s : State) : State :=
  if isCore src then
    (ctlPort s src).agents.foldl scheduleAgent (modCtl src (fun p => { p with agents := [] }) s)
  else s

/-- A further violation by a frozen master raises the repeat count of its record (R649). -/
def repeatHusk (src : Nat) (s : State) : State :=
  match (liveRecords s).reverse.find? fun r =>
      decide (r.source = src) && decide ((ctlPort s src).frozenCode = some r.code) && r.isOpen with
  | some r => almMerge r.seq r.repeats s
  | none => s

/-- A master's access violates its region table: it is blocked and the master frozen (R646, R648). `entry` is the entry that was
checked. -/
def execHusk (src addr len : Nat) (write : Bool) (entry : Nat) (s : State) : Host.Outcome State Fault Refusal :=
  if alive s && elementExists src && !(ctlPort s src).retired && !accessPermitted s src addr len write then
    if frozenPort s src then .next (repeatHusk src s)
    else
      let s := record 0x1002 src [addr, addr / 2 ^ 32, b2n write, entry] { s with flt.huskAddr := BitVec.ofNat 64 addr }
      .next (moveAgents src (contain src (if isControl src then .regionCore else .regionLane) s))
  else .next s

/-- A code outside every class is never written (R684). -/
def reportOk : ErrorReport → Bool
  | .contained _ (some c) => decide (0x0100 ≤ c) && decide (c < 0x1200)
  | _ => true

/-- An element reports an error and it is contained by its class (R645). A CONTAINED error writes the record of its own chapter;
where no chapter gives a code, the code is open. On a PCIe DMA lane it is an internal error of the endpoint (R198); what the endpoint's
link or transaction layer finds is AER's to report (R196). -/
def execErrorReport (src : Nat) (e : ErrorReport) (s : State) : Host.Outcome State Fault Refusal :=
  if alive s && elementExists src && reportOk e then
    let lane := decide (srcStage src = 1) && decide (srcEngine src = 0)
    match e with
    | .corrected k =>
      let s := if lane then aerCorrectable (srcLane src) 14 s else s
      .next (correctedEvent src k s)
    | .contained k code =>
      let s := if lane then aerUncorrectable (srcLane src) 22 false s else s
      let (v, s) := takeFree s
      .next (moveAgents src (contain src k (record (code.getD (freeCode v)) src [] s)))
    | .external k => .next (externalError src k s)
    | .fatal => .next (failstop (if src = faultSrc then 4 else 6) src s)
    | .pcie unc bit =>
      if !lane then .next s
      else if unc then .next (if uncErrors.contains bit then aerUncorrectable (srcLane src) bit false s else s)
      else .next (if corErrors.contains bit then aerCorrectable (srcLane src) bit s else s)
  else .next s

/-! ## Self-tests (R650 to R653, R657) -/

/-- The test of R650 that matches the kind of an element, none where it has none. -/
def testOf (src : Nat) : Option TestKind :=
  if !elementExists src then none
  else
    match srcStage src, srcEngine src with
    | 0, 0 => none
    | 0, _ => some .regionCore
    | 1, 0 => some .lane
    | 1, 2 => some .lane
    | 1, 6 => some .lane
    | 2, 3 => some .kernelVectors
    | 2, 4 => some .kernelVectors
    | 3, 0 => some .datapath
    | 3, 1 => some .datapath
    | 3, 2 => some .datapath
    | 5, 0 => some .lane
    | 6, 0 => some .dram
    | 6, 1 => some .sram
    | 6, 2 => none
    | 6, 4 => some .pmbus
    | 6, 5 => some .bankSense
    | _, _ => some .regionLane

/-- Two elements belong to one functional block: the engine of one stage (R652). -/
def sameBlock (a b : Nat) : Bool := decide (a / 128 = b / 128)

/-- A waiting test may start: fewer than 4 run, none in its block, and an XHL lane's only while the link is DOWN (R652, R653). -/
def testMayStart (s : State) (t : TestReq) : Bool :=
  decide (s.flt.running.length < 4) && !(s.flt.running.any fun r => sameBlock r.src t.src) &&
    !(decide (srcStage t.src = 1) && decide (srcEngine t.src = 6) && decide (t.kind = .lane) && decide (s.xhl.link ≠ 0))

/-- The port or link of a SerDes lane goes down, and stays so while its lane is under test or retired (R653, R654). -/
def laneDown (src : Nat) (s : State) : State :=
  let l := srcLane src
  match srcStage src, srcEngine src with
  | 5, 0 => if (portOf s l).st = .down ∨ (portOf s l).st = .disabled then s else portDown l .down false s
  | 1, 0 => if (epOf s l).linkUp then epLinkDown l 0 s else s
  | 1, 2 => ((List.range 4).filter fun i => subUp s (4 * l + i)).foldl (fun s i => setSub (4 * l + i) false s) s
  | _, _ => s

/-- The oldest waiting test that may start does: its element's port is in TEST, and the port of a SerDes lane is held down, a DML port
as one in DOWN (R652, R653). -/
def execSelfTestStart (s : State) : Host.Outcome State Fault Refusal :=
  if alive s then
    match s.flt.waiting.find? (testMayStart s) with
    | some t =>
      let s := { s with flt.waiting := s.flt.waiting.eraseP (· = t), flt.running := s.flt.running ++ [t] }
      let s := if t.host && decide (s.flt.testSrc = t.src) then { s with flt.testState := 2 } else s
      .next (laneDown t.src (setCtl t.src .test s))
    | none => .next s
  else .next s

/-- Time limit of a test in milliseconds (R650). -/
def testLimit : TestKind → Nat
  | .regionLane => 5
  | .regionCore => 20
  | .laneMemory => 4
  | .kernelVectors => 10
  | .datapath => 5
  | .sram => 50
  | .dram => 100
  | .lane => 40
  | .pmbus => 20
  | .avs => 2
  | .bankSense => 200
  | .drbg => 10

/-- A port leaves HUSK or TEST for RUN with record 0x1003, and the changes of its region table that waited are applied; one that the
start holds down goes to OFF (R146, R649, R665). -/
def releasePort (src : Nat) (s : State) : State :=
  let ws := s.flt.regionWait.filter fun e => e.src = src
  let s := ws.foldl (fun s e => applyRegion e s) { s with flt.regionWait := s.flt.regionWait.filter fun e => e.src ≠ src }
  let s := modCtl src (fun p => { p with frozenCode := none }) (setCtl src .run s)
  if (ctlPort s src).st = .run then record 0x1003 src [] s else s

/-! ## Requests to a control port (R22 to R24) -/

/-- Each requester is told whether its request took effect: it did when it was allowed and asked for the state taken (R23). -/
def requestStatus (src : Nat) (p : Port) (taken : Option CtlState) (s : State) (r : PortMember × CtlState) : State :=
  emit (.portStatus src r.1 r.2 (requestAllowed p r && decide (taken = some r.2))) s

/-- Requests that reach a control port in one cycle: of those allowed, the state earliest in the precedence takes effect, the rest
are refused, and every requester gets a status; a retired element's port stays OFF, and the fault domain's release of a frozen port is
recorded (R23, R24, R649). -/
def execControlPortRequest (src : Nat) (reqs : List (PortMember × CtlState)) (s : State) :
    Host.Outcome State Fault Refusal :=
  if alive s && elementExists src then
    let p := ctlPort s src
    let taken := requestTaken p reqs
    .next (reqs.foldl (requestStatus src p taken) (taken.elim s fun st => if frozenPort s src ∧ st = .run then releasePort src s else setCtl src st s))
  else .next s

/-! ## Retirement (R654, R655) -/

/-- The element is retired: its port is OFF until CHIP_RST_L, with record 0x1005 (R24, R654). -/
def retireElement (src : Nat) (s : State) : State :=
  record 0x1005 src [] (modCtl src (fun p => { p with retired := true, st := .off }) s)

/-- Lanes of an engine not retired. -/
def lanesLeft (s : State) (stage engine : Nat) : Nat :=
  ((List.range (engineLanes stage engine)).filter fun l => !(ctlPort s (srcId stage engine l)).retired).length

/-- A lane of a multi-lane data engine is retired; below 75 % of its lanes record 0x1009, with none left FAILSTOP (R654,
R655). -/
def retireLane (src : Nat) (s : State) : State :=
  let n := engineLanes (srcStage src) (srcEngine src)
  let s := retireElement src { s with flt.retLanes := satAdd 255 s.flt.retLanes 1 }
  let left := lanesLeft s (srcStage src) (srcEngine src)
  let s := if 4 * left < 3 * n ∧ 3 * n ≤ 4 * (left + 1) then recordAlert 0x1009 src [] s else s
  if left = 0 then failstop 3 src s else s

/-- A lane whose loss costs only its port: a DML port, an Ethernet MAC, a PCIe link or the crosshead (R654, R655). -/
def retirePortLane (src : Nat) (s : State) : State :=
  let s := laneDown src (retireElement src { s with flt.retLanes := satAdd 255 s.flt.retLanes 1 })
  if srcStage src = 1 ∧ srcEngine src = 6 then
    let s := if s.xhl.link = 0 then s else xhlDown s
    if s.xhl.peer = .lost then s else peerLost 2 s
  else if srcStage src = 1 ∧ srcEngine src = 2 then
    (s.net.qps.filter fun q => q.port / 4 = srcLane src).foldl (fun s q => closeQp q.qpn s) s
  else s

/-- A core is retired; fewer than 12 in service stop the head (R654). -/
def retireCore (src : Nat) (s : State) : State :=
  let s := moveAgents src (retireElement src { s with flt.retCores := satAdd 255 s.flt.retCores 1 })
  let left := ((List.range 16).filter fun c => !(ctlPort s (srcId 0 8 c)).retired).length
  if left < 12 then failstop 3 src s else s

/-- Failing rows of an SRAM bank take spares; without enough of them the bank is retired, and fewer than 28 banks stop the head
(R149, R654). -/
def retireRows (src rows : Nat) (s : State) : State :=
  let b := srcLane src
  if rows ≤ s.flt.bankSpares.getD b 0 then
    releasePort src (record 0x1006 src [] { s with flt.bankSpares := s.flt.bankSpares.modify b fun n => n - rows })
  else
    let s := retireElement src { s with flt.retBanks := satAdd 255 s.flt.retBanks 1 }
    let left := ((List.range 32).filter fun c => !(ctlPort s (srcId 6 1 c)).retired).length
    if left < 28 then failstop 3 src s else s

/-- Rows of a DRAM channel are retired: one record each, and record 0x1009 at the channel's 1 024th; the channel serves on
(R654). -/
def retireDram (src rows : Nat) (s : State) : State :=
  let c := srcLane src
  let n := s.flt.rowsPerCh.getD c 0
  let s := { s with flt.rowsPerCh := s.flt.rowsPerCh.set c (n + rows), flt.dramRows := satAdd (2 ^ 32 - 1) s.flt.dramRows rows }
  let s := (List.range rows).foldl (fun s _ => record 0x1005 src [] s) s
  let s := if n < 1024 ∧ 1024 ≤ n + rows then recordAlert 0x1009 src [] s else s
  releasePort src s

/-- The outcome of a lasting error for its element (R654, R655). -/
def lastingOutcome (src rows : Nat) (s : State) : State :=
  match srcStage src, srcEngine src with
  | 0, 8 => retireCore src s
  | 6, 0 => retireDram src rows s
  | 6, 1 => retireRows src rows s
  | 1, 0 => retirePortLane src s
  | 1, 2 => retirePortLane src s
  | 1, 6 => retirePortLane src s
  | 5, 0 => retirePortLane src s
  | st, e =>
    if 1 < engineLanes st e then retireLane src s
    else failstop (if src = faultSrc then 4 else 3) src (retireElement src s)

/-- The running test of an element ends. A test that fails, or takes longer than its limit, is lasting, and so is an error after two
transient ones within 24 h; a transient result returns the port to RUN (R649 to R651, R654). `rows` are the failing rows of a bank or channel, `ms` the time
taken. The codes of test and class in record 0x1004 are open. -/
def execSelfTest (src : Nat) (pass : Bool) (rows ms : Nat) (s : State) : Host.Outcome State Fault Refusal :=
  match s.flt.running.find? fun t => t.src = src with
  | none => .next s
  | some t =>
    if !alive s then .next s
    else
      let ok := pass && decide (ms ≤ testLimit t.kind)
      let s := { s with flt.running := s.flt.running.eraseP (· = t) }
      let s := if t.host && decide (s.flt.testSrc = src) then
        { s with flt.testState := 3, flt.testResult := if ok then 1 else 2 } else s
      let recent := (ctlPort s src).transients.filter fun x => now s < x + 24 * hourNs
      let lasting := !ok || (t.err && decide (2 ≤ recent.length))
      let (k, s) := takeFree s
      let (v, s) := takeFree s
      let s := record 0x1004 src [k.toNat, ms, v.toNat] s
      if lasting then .next (lastingOutcome src rows s)
      else
        let s := modCtl src (fun p => { p with transients := if t.err then recent ++ [now s] else recent }) s
        .next (releasePort src s)

/-! ## Requests of host software (R657, R658, R663) -/

/-- A test request is refused: CMD_ERR, and FLT_TEST_STATUS says so. -/
def refuseTest (src : Nat) (s : State) : State :=
  { s with flt.cmdErr := true, flt.testState := 3, flt.testResult := 3, flt.testSrc := src }

/-- BLOCK_TEST of an element (R657). -/
def blockTest (src : Nat) (s : State) : State :=
  match testOf src with
  | some k =>
    if (ctlPort s src).retired || !alive s then refuseTest src s
    else addTest src k true { s with flt.testState := 1, flt.testResult := 0, flt.testSrc := src }
  | none => refuseTest src s

/-- BLOCK_TEST (R657). -/
def execBlockTest (src : Nat) (s : State) : Host.Outcome State Fault Refusal :=
  if hostWriteOk s 0x10 then .next (blockTest src s) else .next s

/-- WHOLE_CHIP: accepted only in MAINTENANCE with the peer up and owning every volume; heartbeats stop and every command completes
NOT_READY (R658). -/
def wholeChip (s : State) : State :=
  if decide (s.glb.mode = .maintenance) && peerUp s && s.xhl.owned.isEmpty && !s.flt.wholeChip then
    let s := record 0x1008 faultSrc []
      { s with flt.wholeChip := true, flt.testState := 2, flt.testResult := 0, flt.testSrc := 0 }
    s.dcq.queues.foldl (fun s q => (List.range 32).foldl (fun s t =>
      if (q.tags.getD t Tag.reset).st = .free then s else finish q.id t stNotReady 0 0 s) s) s
  else refuseTest 0 s

/-- WHOLE_CHIP (R658). -/
def execWholeChip (s : State) : Host.Outcome State Fault Refusal :=
  if hostWriteOk s 0x10 then .next (wholeChip s) else .next s

/-- A FATAL error stops the head, with the cause code of R663 (R656). -/
def execFailstop (cause src : Nat) (s : State) : Host.Outcome State Fault Refusal :=
  if s.glb.held then .next s else .next (failstop (cause % 256) (src % 65536) s)

/-! ## The selecting registers (R664) -/

/-- FLT_HUSK_INFO of an element. -/
def huskInfoWord (s : State) (src : Nat) : BitVec 32 :=
  if elementExists src then
    let p := ctlPort s src
    w32 ((if p.retired then 3 else ctlCode (ctlState s src)) + 8 * b2n p.retired +
      16 * min 3 (p.transients.filter fun x => now s < x + 24 * hourNs).length)
  else 0

/-- A write of FLT_HUSK_SEL latches FLT_HUSK_INFO. -/
def huskSelect (w : BitVec 32) (s : State) : State :=
  let w := w &&& 0xFFFF
  { s with flt.huskSel := w, flt.huskInfo := huskInfoWord s w.toNat }

/-- HUSK_SELECT (R664). -/
def execHuskSelect (w : BitVec 32) (s : State) : Host.Outcome State Fault Refusal :=
  if hostWriteOk s 0x10 then .next (huskSelect w s) else .next s

/-- A write of FLT_REGION_SEL latches the selected entry; one never set reads 0. -/
def regionSelect (w : BitVec 32) (s : State) : State :=
  let w := w &&& 0xFFFFF
  let bs := (regionEntry s (fld w 0 16) (fld w 16 4)).elim (List.replicate 16 0) regionBytes
  { s with flt.regionSel := w, flt.regionData := (List.range 4).map fun i => w32 (leAt bs (4 * i) 4) }

/-- REGION_SELECT (R664). -/
def execRegionSelect (w : BitVec 32) (s : State) : Host.Outcome State Fault Refusal :=
  if hostWriteOk s 0x10 then .next (regionSelect w s) else .next s

/-- A host write of an FLT register; a bit of FLT_ALERT that an event has set in the same cycle stays set (R11, R659, R661 to R664). -/
def fltWrite (off : Nat) (w : BitVec 32) (s : State) : State :=
  if off = 0x100000 then
    { s with flt.queueFull := s.flt.queueFull && !bitOf w 2, flt.cmdErr := s.flt.cmdErr && !bitOf w 3 }
  else if off = 0x100004 then { s with flt.alert := s.flt.alert &&& (~~~((w &&& 0x3FFFE).setWidth 18) ||| s.flt.alertNow) }
  else if off = 0x100008 then { s with flt.alertMask := (w &&& 0x2FFFE).setWidth 18 }
  else if off = 0x10000C then { s with flt.vec0 := bitOf w 0 }
  else if off = 0x100014 then
    if fld w 0 2 = 1 then blockTest (fld w 16 16) s
    else if fld w 0 2 = 2 then wholeChip s
    else refuseTest (fld w 16 16) s
  else if off = 0x100020 then huskSelect w s
  else if off = 0x100040 then regionSelect w s
  else s

end Sys2Proof.Machine
end

