-- ==== Sys2Proof/Machine/LifeCycle.lean ====
section
/-!
DEFINITION. The life cycle of the part (R170 to R178): a request, the pre-action and the fuses, zeroisation, the completion of
a change that was cut, and the configuration floor (R167).
-/
namespace Sys2Proof.Machine

/-- Source identifier of the supervisor, whose boot ROM and firmware run the start (R15). -/
def bootSrc : Nat := srcId 0 0 0

/-- The lowest owner slot none of whose digest or valid fuses is blown (R173). -/
def freeOwnerSlot (s : State) : Option Nat :=
  (List.range 4).find? fun n => decide (s.fuses.slotDigest.getD n [] = []) && !s.fuses.slotValid.getLsbD n

/-- The change of life-cycle state passes through PERSONALISED, whose group is not yet whole (R170, R171, R173). -/
def personalises (s : State) (target : Nat) : Bool := decide (s.fuses.p < 8) && decide (1 ≤ target)

/-- What a change needs of the head (R172). A change that fuses an owner slot needs an accepted copy, whose owner it fuses, and a
slot to fuse. -/
def lcReady (s : State) (target : Nat) : Bool :=
  (!personalises s target || (decide (s.cfg.copyUsed ≠ 0) && (freeOwnerSlot s).isSome)) &&
  (match target with
   | 1 => true
   | 2 => decide (s.glb.mode = .ready)
   | 3 => decide (s.glb.mode = .maintenance)
   | _ => false)

/-- A write of CFG_LC_CMD: a change is accepted, its step 1 under way with BUSY, or is refused (R172, R173). A FAILSTOP of the same
cycle still refuses it; record 0x0309 follows when the cycle ends without one. -/
def lcCommand (w : BitVec 32) (s : State) : State :=
  let target := fld w 0 2
  if decide (lifeCycleCode (lifeCycle s) < target) && decide (fld w 16 16 = Config.serial.toNat % 65536) && !s.cfg.lcBusy &&
      lcReady s target then
    { s with cfg.lcBusy := true, cfg.lcStep := 1, cfg.lcTarget := target, cfg.lcSlot := (freeOwnerSlot s).getD 0 }
  else { s with cfg.lcRefused := true }

/-- The head entered FAILSTOP in this cycle. -/
def failedNow (s : State) : Bool := decide (s.glb.mode = .failstop) && decide (s.flt.failAt = some (now s))

/-- LC_CHANGE_REQUEST: taken, refused by a FAILSTOP of the same cycle, or ignored where the block takes no writes (R141, R172). -/
def execLcChangeRequest (w : BitVec 32) (s : State) : Host.Outcome State Fault Refusal :=
  if hostWriteOk s 0x03 then .next (lcCommand w s)
  else if failedNow s && s.glb.hostEp && !s.glb.held then .next { s with cfg.lcRefused := true }
  else .next s

/-- The fuses of a digest with one more blown, fuse by fuse where the digest has a 1; none when every one is blown (R173). -/
def blowNext : List (BitVec 8) → List (BitVec 8) → Option (List (BitVec 8))
  | h :: hs, w :: ws =>
    let left := w &&& ~~~h
    if left = 0 then (blowNext hs ws).map (h :: ·) else some ((h ||| (left &&& -left)) :: hs)
  | _, _ => none

/-- Fuses of the digest field of an owner slot. -/
def slotFuses (s : State) (slot : Nat) : List (BitVec 8) :=
  let d := s.fuses.slotDigest.getD slot []
  if d.isEmpty then List.replicate 48 0 else d

/-- The next fuse of an owner slot is blown: one of its digest, then its valid group; none when both are whole (R173). -/
def fuseSlotNext (slot : Nat) (digest : List (BitVec 8)) (s : State) : Option State :=
  match blowNext (slotFuses s slot) digest with
  | some d => some { s with fuses.slotDigest := s.fuses.slotDigest.set slot d }
  | none => if s.fuses.slotValid.getLsbD slot then none else some { s with fuses.slotValid := putBit s.fuses.slotValid slot true }

/-- The owner digest is blown into its slot, then the slot's valid group; fuses already blown stay blown (R173, R175). With no accepted
copy there is no digest to blow, and the slot stays as it is (log entry 65). -/
def fuseOwner (slot : Nat) (digest : List (BitVec 8)) (s : State) : State :=
  if digest.isEmpty then s
  else
    { s with
      fuses.slotDigest := s.fuses.slotDigest.set slot (List.zipWith (· ||| ·) (slotFuses s slot) digest)
      fuses.slotValid := putBit s.fuses.slotValid slot true }

/-- Every test key is zeroised: service slots and tenant keys (R173). -/
def zeroiseTestKeys (s : State) : State :=
  let s := csAbort s
  keyGenUp { s with
    sec.slots := s.sec.slots.map fun x => { x with key := [], present := false, dedup := none }
    sec.tenants := [], sec.keyData := List.replicate 10 0, sec.keyWait := none
    red.spaces := s.red.spaces.map fun x => { x with key := [] } }

/-- Every key is zeroised: the slots, the array key and its records, the DRBG, the device key with its fuse field (R174). -/
def zeroiseAll (s : State) : State :=
  let s := zeroiseTestKeys s
  { s with sec.arrayKey := none, sec.deviceKey := false, sec.drbgOk := false, sec.keysReady := false, cfg.idPub := []
           fuses.wrapBlown := true }

/-- The keys that a change's pre-action zeroises (R173, R174). -/
def lcZeroise (target : Nat) (s : State) : State :=
  if 3 ≤ target then zeroiseAll s else if 2 ≤ target then zeroiseTestKeys s else s

/-- The next missing fuse is blown, of the target group before the lower ones (log entry 65); none when all are blown (R171, R173). -/
def lcFuseNext (target : Nat) (s : State) : Option State :=
  if 3 ≤ target ∧ s.fuses.d < 8 then some { s with fuses.d := s.fuses.d + 1 }
  else if 2 ≤ target ∧ s.fuses.o < 8 then some { s with fuses.o := s.fuses.o + 1 }
  else if 1 ≤ target ∧ s.fuses.p < 8 then some { s with fuses.p := s.fuses.p + 1 }
  else none

/-- Every missing fuse of the target group and of the lower ones is blown (R171, R173). -/
def lcFuses (target : Nat) (s : State) : State :=
  let full (g n : Nat) : Nat := if g ≤ target then 8 else n
  { s with fuses.p := full 1 s.fuses.p, fuses.o := full 2 s.fuses.o, fuses.d := full 3 s.fuses.d }

/-- Step 1 ends: record 0x0309 (R173). -/
def lcBegin (s : State) : State := record 0x0309 bootSrc [] { s with cfg.lcStep := 2 }

/-- Step 2: the intent record goes to both record copies and to the island (R173). -/
def lcNote (s : State) : State :=
  copiesPut (noteBytes 1 s.cfg.lcSlot s.cfg.lcTarget)
    { s with cfg.lcStep := 3, island.lcIntent := some (s.cfg.lcTarget, s.cfg.lcSlot) }

/-- Step 4 ends; device time starts at 0 with PERSONALISED (R107, R173). -/
def lcBlown (fresh : Bool) (s : State) : State :=
  { s with cfg.lcStep := 5, lds.deviceTime := if fresh then 0 else s.lds.deviceTime }

/-- Step 5: the completion record, the intents cleared, BUSY cleared, record 0x030A (R173). -/
def lcComplete (target slot : Nat) (s : State) : State :=
  record 0x030A bootSrc []
    { copiesPut (noteBytes 2 slot target) s with
      cfg.lcBusy := false, cfg.lcStep := 0, cfg.lcTarget := target, cfg.lcFresh := false, island.lcIntent := none }

/-- A change in progress goes on by one action: its record, its intents, the next fuse of the owner slot and then the zeroisation, the
next fuse of a group (R173). A loss of power between two of them leaves the fuses and intents as they stand. -/
def lcOn (s : State) : State :=
  if !s.cfg.lcBusy then s
  else
    match s.cfg.lcStep with
    | 1 => { lcBegin s with cfg.lcFresh := personalises s s.cfg.lcTarget }
    | 2 => lcNote s
    | 3 =>
      match if s.cfg.lcFresh then fuseSlotNext s.cfg.lcSlot s.cfg.imageDigest s else none with
      | some s' => s'
      | none => { lcZeroise s.cfg.lcTarget s with cfg.lcStep := 4 }
    | 4 =>
      match lcFuseNext s.cfg.lcTarget s with
      | some s' => s'
      | none => lcBlown s.cfg.lcFresh s
    | _ => s

/-- What is left of a change, from the step it stands at to its end (R173). -/
def lcRest (s : State) : State :=
  let s := if s.cfg.lcStep ≤ 1 then { lcBegin s with cfg.lcFresh := personalises s s.cfg.lcTarget } else s
  let s := if s.cfg.lcStep ≤ 2 then lcNote s else s
  let s := if s.cfg.lcStep ≤ 3 then
    lcZeroise s.cfg.lcTarget (if s.cfg.lcFresh then fuseOwner s.cfg.lcSlot s.cfg.imageDigest s else s) else s
  let s := if s.cfg.lcStep ≤ 4 then lcBlown s.cfg.lcFresh (lcFuses s.cfg.lcTarget s) else s
  lcComplete s.cfg.lcTarget s.cfg.lcSlot s

/-- LC_CHANGE_DONE: the change under way completes, through whatever steps are left (R173). -/
def execLcChangeDone (s : State) : Host.Outcome State Fault Refusal :=
  if s.cfg.lcBusy && !s.glb.held then .next (lcRest s) else .next s

/-- A change that an intent record, in either copy or in the island, or an incomplete group of fuses shows pending: its target, and the
slot an intent names (R171, R175). -/
def lcPending (s : State) : Option (Nat × Option Nat) :=
  match (copyIntent s.nor 0 1).or ((copyIntent s.nor 1 1).or (s.island.lcIntent.map fun i => (i.2, i.1))) with
  | some (slot, target) => some (target, some slot)
  | none =>
    let cut (t : Nat) : Bool :=
      decide (s.fuses.p < 8 ∧ 1 ≤ t) || decide (s.fuses.o < 8 ∧ 2 ≤ t) || decide (s.fuses.d < 8 ∧ 3 ≤ t)
    let t := lifeCycleCode (lifeCycle s)
    if cut t then some (t, none) else none

/-- A change that was cut completes forward: the pre-action is repeated on the slot that the intent names, steps 4 and 5 follow, and
record 0x030B is written (R175). `digest` is the owner of the copy that will be used. With every intent lost the fuses of a group show
that the owner slot was finished before them, and no slot is touched. -/
def lcResume (digest : List (BitVec 8)) (s : State) : State :=
  match lcPending s with
  | some (t, slot) =>
    let fresh := decide (s.fuses.p < 8)
    let s := if 1 ≤ t then slot.elim s fun n => if fresh then fuseOwner n digest s else s else s
    let s := lcBlown fresh (lcFuses t (lcZeroise t s))
    record 0x030B bootSrc [] (lcComplete t (slot.getD 0) s)
  | none => s

/-! ## The configuration floor (R167) -/

/-- A raise of the floor begins, when its target lies above it: the intent goes to both record copies and to the island (R167). -/
def raiseFloor (target : Nat) (s : State) : State :=
  let t := min 1024 target
  if s.fuses.floor < t then
    copiesPut (noteBytes 3 0 t) { s with cfg.floorPending := t, island.floorIntent := some t }
  else s

/-- A raise is complete: its record is cleared, and record 0x030C is written (R167). -/
def floorRaised (target : Nat) (s : State) : State :=
  record 0x030C bootSrc []
    { copiesPut (noteBytes 4 0 target) s with cfg.floorPending := 0, island.floorIntent := none }

/-- The floor intent that a start finds, in either copy or in the island. -/
def floorPendingAt (s : State) : Option Nat :=
  ((copyIntent s.nor 0 3).map (·.2)).or (((copyIntent s.nor 1 3).map (·.2)).or s.island.floorIntent)

/-- A floor raise that was cut completes: the remaining fuses are blown and the record is cleared (R167). -/
def floorResume (s : State) : State :=
  match floorPendingAt s with
  | some t =>
    if s.fuses.floor < t then floorRaised t { s with fuses.floor := t }
    else { copiesPut (noteBytes 4 0 t) s with island.floorIntent := none }
  | none => s

/-- A write of a CFG register at an offset within the block (R178). -/
def cfgWrite (off : Nat) (w : BitVec 32) (s : State) : State :=
  if off = 0x8 then lcCommand w s
  else if off = 0xC then { s with cfg.lcRefused := s.cfg.lcRefused && !bitOf w 3 }
  else s

end Sys2Proof.Machine
end

