-- ==== Sys2Proof/Machine/MapDecode.lean ====
section
/-!
DEFINITION. Reading a map back: the newest waypoint record among anchor copies and the pages that follow (R487), and the contents of
the objects it names from the bytes of their pages (R482, R485, R489 to R500). Machine/MetaObjects.lean builds the same bytes.
-/
namespace Sys2Proof.Machine

/-! ## The newest record (R485 to R487) -/

/-- A page is a waypoint record of a head whose CRC checks. -/
def recordValid (head : Bool) (b : List (BitVec 8)) : Bool :=
  decide (b.length = 16384) && decide (leAt b 0 4 = 0x54505957) && decide (leAt b 4 2 = 1) && decide (leAt b 6 1 = b2n head) &&
    decide (leAt b 16380 4 = (crc32c (b.take 16380)).toNat)

/-- SEQ without its HEAD bit. -/
def recordSeq (b : List (BitVec 8)) : Nat := leAt b 8 8 % 2 ^ 63

/-- Read on: each record whose SEQ is one above the last accepted is accepted, up to the first page that is not. -/
def readOn (head : Bool) (last : List (BitVec 8)) : List (List (BitVec 8)) → List (BitVec 8)
  | [] => last
  | b :: t => if recordValid head b && decide (recordSeq b = recordSeq last + 1) then readOn head b t else last

/-- The newest waypoint of a head: from the valid copy with the highest SEQ through the pages that follow; none without a copy. -/
def newestRecord (head : Bool) (copies chain : List (List (BitVec 8))) : Option (List (BitVec 8)) :=
  (leastBy (fun b => 2 ^ 63 - recordSeq b) (copies.filter (recordValid head))).map fun b => readOn head b chain

/-- A descriptor of a record: KIND, root page count, root grain address. -/
def descriptorAt (b : List (BitVec 8)) (i : Nat) : Nat × Nat × Nat :=
  (leAt b (2688 + 16 * i) 1, leAt b (2692 + 16 * i) 4, leAt b (2696 + 16 * i) 8)

/-- The descriptors of a record. -/
def descriptors (b : List (BitVec 8)) : List (Nat × Nat × Nat) :=
  ((List.range 855).map (descriptorAt b)).filter fun d => d.1 ≠ 0

/-- The root that a descriptor names is among the pages, at its level (R490). -/
def rootSeen (ps : List ObjPage) (d : Nat × Nat × Nat) : Bool :=
  ps.any fun p => decide (p.kind = d.1) && decide (p.tree = .object) && decide (p.level = treeDepth d.2.1) && decide (p.grain = d.2.2)

/-- An index page has its level and the CRC-32C of the bytes behind its head (R485). -/
def indexOk (p : ObjPage) : Bool :=
  decide (p.level = 0) ||
    (decide (leAt p.data 0 1 = p.level) && decide (leAt p.data 4 4 = (crc32c (p.data.drop 8)).toNat))

/-! ## Records of an object (R490) -/

/-- Level-0 pages of a tree, ascending. -/
def leafPages (ps : List ObjPage) (kind : Nat) (tree : MetaTree) : List ObjPage :=
  sortBy (·.num) (ps.filter fun p => decide (p.kind = kind) && decide (p.tree = tree) && decide (p.level = 0))

/-- Records of `w` bytes, `n` to a page, that are not zeros, each with its number. -/
def leafRecords (ps : List ObjPage) (kind : Nat) (tree : MetaTree) (n w : Nat) : List (Nat × List (BitVec 8)) :=
  (leafPages ps kind tree).flatMap fun p => (List.range n).filterMap fun j =>
    let b := slice p.data (w * j) w
    if b.any (· ≠ 0) then some (n * p.num + j, b) else none

/-- Bytes of an object of one page; zeros where it is absent. -/
def onePage (ps : List ObjPage) (kind : Nat) : List (BitVec 8) := ((leafPages ps kind .object).head?.map (·.data)).getD []

/-! ## KIND 1: versions (R489, R491) -/

/-- A nonzero map entry is valid (R489). -/
def entryWordValid (w : Nat) : Bool :=
  let m := w / 2 ^ 51 % 4
  let len := w / 2 ^ 43 % 256
  decide (w < 2 ^ 54) && (if m = 0 then decide (len = 128) else if m = 1 then decide (len < 128)
    else decide (m = 3) && decide (w = 3 * 2 ^ 51))

/-- Every entry of a map page is unmapped or valid. -/
def pairValid (p : ObjPage) : Bool :=
  (List.range 512).all fun j => let w := leAt p.data (8 * j) 8; decide (w = 0) || entryWordValid w

/-- The map tree of a version: page, pair. -/
def tableOf (ps : List ObjPage) (v snap depth root : Nat) : List (Nat × Nat) :=
  let idOf (g : Nat) : Option Nat := (ps.find? fun p => decide (p.tree = .pairs) && decide (p.grain = g)).map (·.num)
  if root = 0 then []
  else if depth = 0 then (idOf root).toList.map fun i => (0, i)
  else
    (sortBy (·.num) (ps.filter fun p => decide (p.tree = .version v snap) && decide (p.level = 1))).flatMap fun p =>
      (List.range 511).filterMap fun i =>
        let g := leAt p.data (8 + 8 * i) 8 % 2 ^ 43
        if g = 0 then none else (idOf g).map fun id => (511 * p.num + i, id)

/-- The map tree that a version record names. -/
def versionTableOf (ps : List ObjPage) (b : List (BitVec 8)) : List (Nat × Nat) :=
  tableOf ps (leAt b 0 2) (leAt b 2 2) (leAt b 5 1) (leAt b 24 8)

/-- Number of a version that is not live: a snapshot's own, or an internal one for a replication cut. -/
def snapOfCode (n : Nat) : Nat := if n < 0x8000 then n else 4097 + n % 128

/-- A snapshot or replication cut from its version record. -/
def snapshotOf (ps : List ObjPage) (b : List (BitVec 8)) : Snapshot :=
  let code := leAt b 2 2
  let fl := BitVec.ofNat 8 (leAt b 4 1)
  { Snapshot.reset with
    num := snapOfCode code, point := intAt b 16, cut := leAt b 8 8, frozen := fl.getLsbD 1, deleting := fl.getLsbD 2
    listed := decide (code < 0x8000) && fl.getLsbD 1 && !fl.getLsbD 2
    link := if code < 0x8000 then none else some ((code - 0x8000) / 2), table := versionTableOf ps b }

/-- A pair from its 8 KiB, as page `i` of a map tree. -/
def pairOfBytes (id i : Nat) (b : List (BitVec 8)) : MapPage :=
  { id := id
    entries := (List.range 512).filterMap fun j =>
      let w := leAt b (8 * j) 8
      if w = 0 then none else some (entryOfWord (512 * i + j) (leAt b (4096 + 8 * j) 8) w)
    cleared := (List.range 512).filterMap fun j =>
      let n := leAt b (4096 + 8 * j) 8
      if leAt b (8 * j) 8 = 0 ∧ n ≠ 0 then some (512 * i + j, n) else none }

/-- The pairs that map trees name. -/
def pairsOf (ps : List ObjPage) (tables : List (List (Nat × Nat))) : List MapPage :=
  (leafPages ps 1 .pairs).filterMap fun p =>
    (tables.findSome? fun t => (t.find? fun e => e.2 = p.num).map (·.1)).map fun i => pairOfBytes p.num i p.data

/-! ## KIND 2 to 13 -/

/-- Volumes with versions, locks, hints and statistics (R491, R493, R496, R499). -/
def volumesOf (ps versions : List ObjPage) : List Volume :=
  let rows := (leafRecords versions 1 .object 64 64).map (·.2)
  let locks := (leafRecords ps 4 .object 64 64).map (·.2)
  let hints := (leafRecords ps 11 .object 128 32).map (·.2)
  (leafRecords ps 8 .object 16 256).map fun r =>
    let b := r.2
    let fl := BitVec.ofNat 8 (leAt b 13 1)
    let mine (x : List (BitVec 8)) : Bool := leAt x 0 2 = r.1
    { Volume.reset with
      num := r.1, size := leAt b 0 8, tenant := leAt b 8 2, k := leAt b 11 1, m := leAt b 12 1
      reduce := fl.getLsbD 0, dedup := fl.getLsbD 1, verify := fl.getLsbD 2
      table := ((rows.find? fun x => mine x && decide (leAt x 2 2 = 0)).map (versionTableOf versions)).getD []
      snaps := sortBy (·.cut) ((rows.filter fun x => mine x && decide (leAt x 2 2 ≠ 0)).map (snapshotOf versions))
      locks := (locks.filter mine).map fun x =>
        { lba := leAt x 8 8, count := leAt x 16 8, expiry := intAt x 24, placed := intAt x 32 }
      default_ := if leAt b 32 1 = 0 then none
        else some { bits := leAt b 32 1, lanes := leAt b 33 1, stride := leAt b 36 4, row0 := leAt b 40 8 }
      ranges := (hints.filter mine).map fun x =>
        { lba := leAt x 8 8, count := leAt x 16 8,
          geom := { bits := leAt x 2 1, lanes := leAt x 3 1, stride := leAt x 4 4, row0 := leAt x 8 8 } }
      created := intAt b 48
      hits := leAt b 112 8, mismatches := leAt b 120 8, unindexed := leAt b 128 8, discarded := leAt b 136 8
      logical := leAt b 144 8 }

/-- A tenant's first volume with DEDUP, by CREATED, gives the geometry of its seed pages (R321). -/
def seedGeometry (vs : List Volume) (tenant : Nat) : Nat × Nat :=
  ((leastBy (fun x => (x.created + 2 ^ 63).toNat) (vs.filter fun x => decide (x.tenant = tenant) && x.dedup)).map
    fun x => (x.k, x.m)).getD (0, 0)

/-- Seed spaces with their slots (R321, R492). -/
def spacesOf (ps : List ObjPage) (vs : List Volume) : List SeedSpace :=
  (leafRecords ps 2 .object 64 64).filterMap fun r =>
    let b := r.2
    if leAt b 2 1 = 0 then none
    else
      let g := seedGeometry vs r.1
      some { SeedSpace.reset with
        tenant := r.1, b := leAt b 2 1, splitPtr := leAt b 8 8, splitting := decide (leAt b 8 8 ≠ 0), unindexed := leAt b 24 8
        slots := (leafRecords ps 2 (.seeds r.1) 512 32).map fun x => seedOfBytes (x.1 / 32) (x.1 % 32) x.2
        k := g.1, m := g.2 }

/-- Share records (R331). -/
def sharesOf (ps : List ObjPage) : List ShareRec :=
  (leafRecords ps 3 .object 256 16).map fun r => { grain := BitVec.ofNat 64 (leAt r.2 0 8), count := leAt r.2 8 4 }

/-- Key records (R495). -/
def keysOf (ps : List ObjPage) : List KeyRec :=
  (leafRecords ps 6 .object 64 64).map fun r =>
    let index := leAt r.2 0 4
    { index := index, epoch := leAt r.2 4 4, body := slice r.2 8 (if 0xFFFFFFF0 ≤ index then 48 else 40) }

/-- A period from bytes 0 to 51 of its record (R234). -/
def periodOf (b : List (BitVec 8)) : Period :=
  { start := intAt b 0, fin := intAt b 8, written := leAt b 16 8, read := leAt b 24 8, commands := leAt b 32 8,
    peakGrains := leAt b 40 8, skipped := decide (leAt b 48 4 % 2 = 1) }

/-- A tenant from its accounting records: its definition, this head's open period, the closed ones. A definition that is the default
one counts as taken by default (R129, R497). -/
def tenantOf (s : State) (recs : List (List (BitVec 8))) (id : Nat) : Tenant :=
  let d (b : List (BitVec 8)) : PeriodDef := { kind := leAt b 2 1, length := leAt b 8 8, origin := intAt b 16 }
  let next (b : List (BitVec 8)) : PeriodDef :=
    if leAt b 24 1 = 0 then d b else { kind := leAt b 24 1 - 1, length := leAt b 32 8, origin := intAt b 40 }
  let own (k : Nat) (b : List (BitVec 8)) : Bool := decide (leAt b 63 1 = k) && decide (leAt b 52 2 = id)
  { Tenant.reset with
    id := id
    def_ := ((recs.find? fun b => decide (leAt b 63 1 = 1) && decide (leAt b 0 2 = id)).map next).bind fun x =>
      if x = defaultDef s then none else some x
    openDef := ((recs.find? fun b => decide (leAt b 63 1 = 1) && decide (leAt b 0 2 = id)).map d).getD Tenant.reset.openDef
    open_ := (recs.find? fun b => own 2 b && decide (leAt b 54 1 = b2n s.glb.headSel)).map periodOf
    closed := (recs.filter (own 3)).map periodOf }

/-- Tenants of volumes and of accounting records. -/
def tenantsOf (s : State) (ps : List ObjPage) (vs : List Volume) : List Tenant :=
  let recs := (leafRecords ps 9 .object 64 64).map (·.2)
  (ascending (vs.map (·.tenant) ++ recs.map fun b => if leAt b 63 1 = 1 then leAt b 0 2 else leAt b 52 2)).map (tenantOf s recs)

/-- Records of the settings page: BAR0 offset, value (R498). -/
def settingsOf (ps : List ObjPage) : List (Nat × BitVec 32) :=
  let b := onePage ps 10
  (List.range (leAt b 2 2)).map fun i => (leAt b (8 + 8 * i) 4, w32 (leAt b (12 + 8 * i) 4))

/-- Ledger entries of the modules: the blocks' numbers by the shape that the module table gives (R494). -/
def ledgerOfPages (ps peer : List ObjPage) : List Ledger :=
  let t := onePage ps 5
  (List.range 48).flatMap fun n =>
    let planes := leAt t (64 * n + 10) 1
    let blocks := leAt t (64 * n + 12) 4
    (leafRecords ps 5 (.ledger n) 128 32 ++ leafRecords peer 5 (.ledger n) 128 32).map fun r =>
      ledgerOfBytes n (r.1 / blocks / planes) (r.1 / blocks % planes) (r.1 % blocks) r.2

/-- Lost records (R500, R544). -/
def lostOf (ps : List ObjPage) : List LostRec :=
  (leafRecords ps 13 .object 128 32).map fun r =>
    { chunk := leAt r.2 0 8, snap := snapOfCode (leAt r.2 8 2), mask := BitVec.ofNat 8 (leAt r.2 10 1), cause := leAt r.2 11 1,
      volume := leAt r.2 12 2, time := leAt r.2 16 8, lsn := leAt r.2 24 8 }

/-- Volumes that this head owns: a volume's OWNER, the home rule for a number without a volume (R496, R569). -/
def ownedOf (s : State) (ps : List ObjPage) : List Nat :=
  let recs := leafRecords ps 8 .object 16 256
  allVolumes.filter fun v =>
    match recs.find? fun r => r.1 = v with
    | some r => decide (leAt r.2 10 1 = b2n s.glb.headSel)
    | none => homeHere s v

/-- The map that the record and the pages give. -/
def contentsOf (s : State) (m : MapMedia) (rec_ : List (BitVec 8)) (peerSeq : Nat) : MapRead :=
  let versions := m.pages ++ m.peerPages
  let vs := volumesOf m.pages versions
  let mt := onePage m.pages 12
  { seq := recordSeq rec_, peerSeq := peerSeq, layout := m.layout, commitLsn := leAt rec_ 32 8, lsnEnd := leAt rec_ 40 8
    serialEnd := leAt rec_ 48 8, time := leAt rec_ 16 8, highWater := intAt rec_ 24
    resync := (BitVec.ofNat 8 (leAt rec_ 7 1)).getLsbD 1, cursor := leAt mt 0 8, bound := leAt mt 8 8, recent := m.recent
    replCounters := (List.range 64).map fun l => leAt rec_ (64 + 8 * l) 8
    csCounters := (List.range 256).map fun n => leAt rec_ (576 + 8 * n) 8
    volumes := vs, pages := pairsOf versions (vs.flatMap fun x => x.table :: x.snaps.map (·.table))
    spaces := spacesOf m.pages vs, shares := sharesOf m.pages, keys := keysOf m.pages, tenants := tenantsOf s m.pages vs
    settingsOk := m.settingsOk, settings := settingsOf m.pages, owned := ownedOf s m.pages
    serials := (List.range 48).map fun n => BitVec.ofNat 64 (leAt (onePage m.pages 5) (64 * n) 8)
    ledger := (ledgerOfPages m.pages m.peerPages).map (withUsed s m.stripes), closedOk := m.closedOk
    strips := (leafRecords m.pages 7 .object 128 32).map fun r => stripOf r.1 r.2
    stripes := m.stripes, numBlocks := m.numBlocks, granted := m.granted
    reshape := leAt mt 16 1, targetK := leAt mt 17 1, targetM := leAt mt 18 1, volFirst := leAt mt 20 2, volLast := leAt mt 22 2
    volCurrent := leAt mt 24 2, drainMask := BitVec.ofNat 64 (leAt mt 32 8), patrolDay := leAt mt 40 4, lostTotal := leAt mt 48 4
    lostList := lostOf m.pages, objPages := m.pages, stream := { m.stream with last := rec_ }, trailers := m.trailers }

/-- The map on the media; none where a head has no valid copy, a page that the newest waypoint names is missing or wrong, or a map
entry is invalid, so that the start stalls (R487, R489). A head that has left no copy at all has no waypoint. -/
def readMap (s : State) (m : MapMedia) : Option MapRead :=
  let head := s.glb.headSel
  let peerCopies := m.copies.filter fun b => decide (leAt b 6 1 = 1 - b2n head)
  match newestRecord head m.copies m.chain, newestRecord (!head) m.copies m.peerChain with
  | none, _ => none
  | some r, peer =>
    if peer.isNone && !peerCopies.isEmpty then none
    else if (descriptors r).all (rootSeen m.pages) && (m.pages ++ m.peerPages).all indexOk &&
        (m.pages ++ m.peerPages).all (fun p => decide (p.tree ≠ .pairs) || pairValid p) then
      some (contentsOf s m r ((peer.map recordSeq).getD 0))
    else none

/-- DEVICE_TIME of the newest record found, whichever head's (R108). -/
def recordTime (m : MapMedia) : Nat :=
  (m.copies ++ m.chain ++ m.peerChain).foldl (fun a b =>
    if recordValid false b || recordValid true b then max a (leAt b 16 8) else a) 0

end Sys2Proof.Machine
end

