-- ==== Sys2Proof/Machine/MapLoad.lean ====
section
/-!
DEFINITION. Step 13 of a start: the map of a new array, or the map read from the newest waypoints and the trailers after
them (R32, R392, R484 to R500, R503, R512, R545, R553, R558).
-/
namespace Sys2Proof.Machine

/-! ## Settings and policy (R488, R498, R558) -/

/-- The policy fields of the image (R558). -/
def policyEcp (p : List Nat) (e : Ecp) : Ecp :=
  let g (i : Nat) : Nat := p.getD i 0
  { e with
    defK := g 0, defM := g 1, flushK := g 2, flushM := g 3, sparePct := g 4, autoJoin := decide (g 5 = 1), rejoinS := g 6
    rebuildShare := g 7, resyncShare := g 8, reshapeShare := g 9, gcShare := g 10, elevatedShare := g 11, splitWlShare := g 12
    patrolShare := g 13, maintCap := g 14, critShare := g 15, patrolDays := g 16 }

/-- One settings record; an offset that is no settings register is ignored (R498). -/
def restoreSetting (s : State) (x : Nat × BitVec 32) : State :=
  if 0xB1004 ≤ x.1 ∧ x.1 ≤ 0xB1028 then { s with mmg := settingsWith (x.1 - 0xB0000) x.2 s.mmg }
  else if [0xC001C, 0xC0020, 0xC0024, 0xC0050, 0xC0054].contains x.1 then { s with ecp := policyWith (x.1 - 0xC0000) x.2 s.ecp }
  else if x.1 = 0xD000C then xhlWrite 0x0C x.2 s
  else if x.1 = 0xE0040 ∨ x.1 = 0xE0044 then drcWrite (x.1 - 0xE0000) x.2 s
  else if x.1 = 0x120010 then { s with upd.probationS := x.2.toNat }
  else s

/-- The settings of the newest waypoint; one that cannot be read stays at its defaults, with record 0x1105 (R488, R702). -/
def restoreSettings (m : MapRead) (s : State) : State :=
  if m.settingsOk then m.settings.foldl restoreSetting s
  else record 0x1105 bootSrc [10] { s with ecp := policyEcp s.img.policy s.ecp }

/-! ## Keys (R393, R409, R495) -/

/-- A key record of the waypoint: a pin of an identity, or a wrapped key (R495). -/
def restoreKey (s : State) (k : KeyRec) : State :=
  if 0xFFFFFFF0 ≤ k.index then setPin k.index (some k.body) s
  else if s.sec.arrayKey.isNone then s
  else applyKey { kind := 10, delete := false, volume := 0, snap := 0, key := BitVec.ofNat 64 k.index, lsn := k.epoch, value := k.body } s

/-- The keys of the newest waypoint, and the counters 2^24 above the recorded ones (R273, R393, R409). Test keys zeroised by a
change completed at this start are not restored (R175). -/
def restoreKeys (m : MapRead) (s : State) : State :=
  let s := if s.cfg.lcTarget = 2 then s else m.keys.foldl restoreKey s
  { s with
    sec.slots := s.sec.slots.map fun x => { x with csCounter := max 1 (m.csCounters.getD x.num 0 + 2 ^ 24) }
    sec.keysReady := s.sec.arrayKey.isSome
    rma.links := (List.range s.rma.links.length).map fun l =>
      { s.rma.links.getD l Repl.reset with counter := m.replCounters.getD l 0 + 2 ^ 24 }
    red.spaces := s.red.spaces.map fun x =>
      match s.sec.slots.find? fun k => k.dedup = some x.tenant with
      | some k => { x with keySlot := k.num, key := k.key }
      | none => { x with key := [] } }

/-! ## Layout, ledger and stripes (R494, R503, R512, R545, R553) -/

/-- The layout the module table gives; a slot of the drain mask is DRAINING while a reshape runs, and DRAINED after it when no strip is
left on it. -/
def layoutOf (m : MapRead) : List Slot :=
  (List.range 48).map fun n =>
    let serial := m.serials.getD n 0
    if serial = 0 then Slot.reset
    else { Slot.reset with serial := serial, erased := true,
                           st := if !m.drainMask.getLsbD n then .member
                             else if m.reshape ≠ 0 then .draining
                             else if m.stripes.any fun x => x.members.any fun l => l.slot = n then .member else .drained }

/-- The order in which stripes are resynchronised: those of the last waypoints first, then ascending; a pending one goes on at its
cursor, the stripes opened since the previous start first after a further unclean stop (R545). -/
def resyncOrder (m : MapRead) (unclean : Bool) (s : State) : List (BitVec 64) :=
  let mine := sortBy (fun x => x.serial.toNat) (s.ecp.stripes.filter fun x =>
    (decide (x.st = .closed) || decide (x.st = .complete)) && rebuildsHere s x)
  let order (bound : Nat) : List (BitVec 64) :=
    ((mine.filter fun x => bound ≤ x.wseq) ++ mine.filter fun x => x.wseq < bound).map (·.serial)
  if m.resync then
    let rest := (order m.bound).dropWhile fun x => x.toNat ≠ m.cursor
    if unclean then m.recent ++ rest.filter fun x => !m.recent.contains x else rest
  else if unclean then order (m.seq - 1)
  else []

/-- Blocks that an interrupted program or erase leaves SUSPECT: an erase suspended, and after an unclean stop a block of the work
set that is not CLOSED with a good trailer (R503). -/
def suspectAtStart (m : MapRead) (unclean : Bool) (s : State) : State :=
  let bad (l : Ledger) : Bool :=
    l.eraseSuspended || (unclean && l.workSet && !m.closedOk.contains (l.slot, l.die, l.plane, l.block))
  (m.ledger.filter bad).foldl (fun s l => suspectBlock l.slot l.die l.plane l.block s) s

/-- Dies 5 percent of whose blocks are RETIRED (R505). -/
def diesWorn (l : List Ledger) : List (Nat × Nat) :=
  (l.map fun x => (x.slot, x.die)).eraseDups.filter fun d =>
    let bs := l.filter fun x => decide (x.slot = d.1) && decide (x.die = d.2)
    decide (bs.length ≤ 20 * (bs.filter fun x => x.st = .retired).length)

/-- Until its first sample after a start a zone of a known module counts as at T_STORE: no older sample is kept anywhere (R512). -/
def zonesAtStart (t : Nat) (store : Int) (serials : List (BitVec 64)) : List ZoneSample :=
  (List.range 48).flatMap fun n =>
    if serials.getD n 0 = 0 then [] else (List.range 8).map fun z => { ZoneSample.reset with slot := n, zone := z, time := t, temp := store }

/-- The tables of the map, and the values the map keeps for the head (R110, R401, R487, R488). -/
def takeTables (m : MapRead) (s : State) : State :=
  let high := max m.highWater (highWater s)
  { s with
    lds.highWater := some high, island.highWater := some high
    lds.civilOffset := if s.pwr.islandLost && !s.lds.civilValid then high - (now s : Int) else s.lds.civilOffset
    lds.tenants := m.tenants
    sec.serial := max s.island.serialEnd m.serialEnd, sec.serialEnd := max s.island.serialEnd m.serialEnd
    wlg.lsn := m.lsnEnd - 1, wlg.commitLsn := m.commitLsn
    red.volumes := m.volumes.map fun x => { x with transient := [] }
    red.pages := m.pages, red.nextPage := m.pages.foldl (fun a p => max a (p.id + 1)) 0
    red.spaces := m.spaces, red.shares := m.shares, red.seedReady := true
    xhl.owned := m.owned, glb.ownAll := decide (m.owned.length = 65536), xhl.peerWp := m.peerSeq
    mmg.wpSeq := m.seq, mmg.objPages := m.objPages, mmg.stream := m.stream, mmg.ledger := m.ledger, mmg.strips := m.strips
    mmg.retired := (m.ledger.filter fun l => l.st = .retired).length
    ecp.slots := layoutOf m, ecp.stripes := m.stripes, ecp.numBlocks := m.numBlocks, ecp.granted := m.granted
    ecp.counter := m.stripes.foldl (fun a x => if x.head == s.glb.headSel then max a (x.serial.toNat % 2 ^ 63 + 1) else a) 0
    ecp.reshape := m.reshape, ecp.targetK := m.targetK, ecp.targetM := m.targetM, ecp.rangeFirst := m.volFirst
    ecp.rangeLast := m.volLast, ecp.drainMask := m.drainMask, ecp.patrolDay := m.patrolDay, ecp.lostChunks := m.lostTotal
    ecp.lostList := m.lostList, upd.layout := m.layout
    mmg.retiredDies := diesWorn m.ledger, mmg.zones := zonesAtStart (now s) s.mmg.tStore m.serials }

/-- The ledger's blocks age by the time since the map was written (R487). -/
def ageLedger (m : MapRead) (s : State) : State :=
  { s with mmg.ledger := s.mmg.ledger.map (ageBlock (now s - m.time) (afAt s s.mmg.tStore)) }

/-- Modules of the map that are not there have left. -/
def absentLeave (s : State) : State :=
  (List.range 48).foldl (fun s n => if (portOf s n).present then s else moduleLeaves n true s) s

/-- The trailers above the newest waypoint replay in LSN order (R308, R487). -/
def replayAll (m : MapRead) (s : State) : State :=
  let s := (sortBy (·.lsn) m.trailers).foldl (fun s t => replayTrailer t s) s
  { s with wlg.lsn := m.trailers.foldl (fun a t => max a t.lsn) s.wlg.lsn, mmg.mapChange := none }

/-- A reshape that was under way goes on from its volume (R553). -/
def resumeReshape (m : MapRead) (s : State) : State :=
  if m.reshape = 0 then s
  else
    requestActivity .reshape { s with
      ecp.reshapeVols := if m.reshape = 1 then (affectedVolumes s m.volFirst m.volLast).filter fun v => m.volCurrent ≤ v else []
      ecp.reshapeVolume := m.volCurrent }

/-- A resync is requested after an unclean stop, or where one was under way (R545). -/
def resumeResync (m : MapRead) (unclean : Bool) (s : State) : State :=
  if unclean || m.resync then
    requestActivity .resync { s with ecp.resyncPending := true, ecp.resyncBound := if m.resync then m.bound else m.seq - 1, ecp.resyncQueue := resyncOrder m unclean s }
  else s

/-- The map found on the modules becomes the map of the head: tables, settings, keys, layout, then the trailers above the newest
waypoint in LSN order (R110, R308, R401, R487, R488). -/
def loadMap (m : MapRead) (unclean : Bool) (s : State) : State :=
  let s := ageLedger m (restoreKeys m (restoreSettings m (takeTables m s)))
  resumeResync m unclean (resumeReshape m (replayAll m (absentLeave (suspectAtStart m unclean s))))

/-- The map of a new array: the policy of the image, home ownership, and the array key, which head 0 creates (R32, R392, R558). -/
def newMap (s : State) : State :=
  let (k, s) := if s.sec.arrayKey.isSome || s.glb.headSel then (s.sec.arrayKey, s)
    else ((some (drawKey s).1), (drawKey s).2)
  { s with
    sec.arrayKey := k, sec.keysReady := k.isSome, sec.serial := s.island.serialEnd, sec.serialEnd := s.island.serialEnd
    ecp := policyEcp s.img.policy s.ecp, red.seedReady := true
    xhl.owned := allVolumes.filter (homeHere s), glb.ownAll := false, upd.layout := writtenLayout s }

end Sys2Proof.Machine
end

