-- ==== Sys2Proof/Machine/Start.lean ====
section
/-!
DEFINITION. A start (R137 to R150): what CHIP_RST_L and an update reset reset, the steps of the start as far as they run without
the peer and the modules, a failed probation at a start, and the end of the start.
-/
namespace Sys2Proof.Machine

/-! ## What a reset leaves (R24, R137, R679, R699) -/

/-- The newest SEQ of some records, in serial arithmetic modulo 2^32 (R669). -/
def newestSeq (l : List AlmRecord) : Option (BitVec 32) :=
  l.foldl (fun a r => match a with
    | none => some r.seq
    | some q => if seqReached r.seq q then some r.seq else some q) none

/-- The valid records that the NOR Almanac holds: the ring's, then the birth region's (R672). -/
def norRecords (m : List Host.Cell) : List AlmRecord := ringRecords m ++ birthNor m

/-- Records of the island newer than the newest NOR entry, marked as recovered from it (R679). -/
def recovered (s : State) : List AlmRecord :=
  let newest := newestSeq (norRecords s.nor)
  let newer (r : AlmRecord) : Bool := newest.elim true fun q => decide (r.seq ≠ q) && seqReached r.seq q
  (s.island.records.filter newer).map fun r => { r with island := true, heldSram := false, isOpen := false }

/-- Where writing resumes in a part of `sectors` sectors: two slots past the newest valid entry, or at the next sector when the sector
of that point holds a rejected entry (R675). -/
def resumeSlot (m : List Host.Cell) (base sectors : Nat) : Nat :=
  let k := (newestEntry (validEntries m base sectors)).elim 0 (·.1 + 2)
  if (rejectedSlots m base sectors).any fun r => r / 1638 = k / 1638 then (k / 1638 + 1) * 1638 else k

/-- NOR records whose CRC fails, in the Almanac partition and the record copies (R169, R675). -/
def rejectedRecords (m : List Host.Cell) : Nat :=
  (rejectedSlots m (birthBase 0) 4).length + (rejectedSlots m ringBase 82).length + (rejectedSlots m (birthBase 1) 4).length +
    ((copySlots m 0 ++ copySlots m 1).filter fun x => !crcOk 32 x.2).length

/-- A birth copy that holds fewer valid entries than the other is erased and rewritten from it (R675). -/
def birthMend (s : State) : State :=
  let a := (birthRecords s.nor 0).length
  let b := (birthRecords s.nor 1).length
  if a < b then birthRewrite 0 s else if b < a then birthRewrite 1 s else s

/-- The head as CHIP_RST_L or an update reset leaves it: fuses, NOR with its records, the island, the keys wrapped in the NOR and the
recorded bank values stay, all else has its reset value. CHIP_RST_L samples the straps, clears HEAD_CONFLICT and finds the endpoints
under PE_PERST_L; an update reset keeps all three, and the DRAM
devices declared failed (R52, R55, R98, R137, R140, R618, R675, R679, R692, R699). -/
def afterReset (straps : Bool) (i : StartIn) (s : State) : State :=
  let back := recovered s
  let birth := back.filter fun r => s.alm.birth.any fun b => b.seq = r.seq
  let boot := newestBoot s.nor s.island.boot
  { State.reset with
    glb := { Glb.reset with headSel := if straps then i.headSel else s.glb.headSel
                            nvmMode := if straps then i.nvmMode else s.glb.nvmMode
                            headConflict := !straps && s.glb.headConflict }
    island := s.island, fuses := s.fuses, nor := s.nor
    alm := { Alm.reset with
      nextSeq := (newestSeq (norRecords s.nor ++ s.island.records)).elim 0 (· + 1), held := back
      ringPos := resumeSlot s.nor ringBase 82 % 134316
      birthPos := [resumeSlot s.nor (birthBase 0) 4, resumeSlot s.nor (birthBase 1) 4]
      birth := birthNor s.nor ++ birth, birthSeen := s.alm.birthSeen
      birthDone := s.alm.birthDone || decide (4096 ≤ (birthNor s.nor).length), birthRefreshes := s.alm.birthRefreshes }
    upd := { Upd.reset with boot := boot, fwRevoke := s.upd.fwRevoke, slot := boot.elim 0 (·.active) }
    sec := { Sec.reset with arrayKey := s.sec.arrayKey, drbgCount := s.sec.drbgCount }
    pwr := { Pwr.reset with recCap := s.pwr.recCap, recEsr := s.pwr.recEsr }
    eps := if straps then State.reset.eps else s.eps.map fun e => { Endpoint.reset with inReset := e.inReset }
    drc := if straps then Drc.reset else { Drc.reset with chans := s.drc.chans.map fun c =>
      { Chan.reset with deviceFailed := c.deviceFailed, failedDev := c.failedDev, erasure := c.erasure } }
    hostData := s.hostData, out := s.out, freeCtr := s.freeCtr, pending := s.pending }

/-- Whether the stop before this start was clean (R84). -/
def stopClean (s : State) : Bool :=
  let nor := norRecords s.nor
  if nor.isEmpty && s.island.records.isEmpty then true
  else if s.island.lost then (nor.find? fun r => newestSeq nor = some r.seq).any fun r => decide (r.code = 0x0105) || decide (r.code = 0x010B)
  else s.island.cleanStop

/-- DEVICE_TIME of the newest waypoint the start finds. -/
def waypointTime : MapSource → Nat
  | .found m => recordTime m
  | _ => 0

/-- Island counts since the stop: those it has counted, and those the start reads on top (R108). -/
def countsElapsed (i : StartIn) (s : State) : Nat :=
  (s.island.counter + 2 ^ 48 - s.island.storedCount % 2 ^ 48) % 2 ^ 48 + i.counts

/-- Device time at which a start resumes (R107, R108): 0 in BLANK; else the stored value and the island's counts, or past the
largest time found when the island was lost. -/
def resumeTime (i : StartIn) (s : State) : Nat :=
  if lifeCycle s = .blank then 0
  else if s.island.lost then (norRecords s.nor).foldl (fun a r => max a r.time) (waypointTime i.map) + 1
  else s.island.storedTime + countsNs (countsElapsed i s)

/-! ## Steps 1 to 3 -/

/-- The start stops at a step: FAIL_STEP, ALERT_L and record 0x0307 (R146). -/
def stall (n : Nat) (s : State) : State := recordAlert 0x0307 bootSrc [n] { s with glb.failStep := n }

/-- Civil time as the island held it, `away` ns later: on the island counter it has run 50 ppm slow, and LDS_ERR_BOUND accrues 50 ppm
(R109, R111, R121). After the island's loss civil time runs from the high-water value (R110). -/
def resumeCivil (away : Nat) (s : State) : State :=
  let s := { s with lds.highWater := s.island.highWater }
  let slow := (away + 19999) / 20000
  bumpHigh (keepCivil (if s.pwr.islandLost
    then { s with lds.civilValid := false, lds.civilOffset := highWater s - (now s : Int) }
    else { s with
      lds.civilValid := s.island.civilValid, lds.civilOffset := s.island.civilOffset - (slow : Int)
      lds.errBound := satAdd (2 ^ 32 - 1) 0 ((slow + 999) / 1000) }))

/-- The copy the checks choose: the higher VERSION, copy A on a tie (R165). False is copy A. -/
def chooseCfg (i : StartIn) (s : State) : Option (Bool × CfgImage) :=
  match (checkCfg s (cfgBytes s false) (i.cfgRead.getD 0 true)).2, (checkCfg s (cfgBytes s true) (i.cfgRead.getD 1 true)).2 with
  | some a, some b => if a.version < b.version then some (true, b) else some (false, a)
  | some a, none => some (false, a)
  | none, some b => some (true, b)
  | none, none => none

/-- Device time goes on, and what the start records first: its cause, the island's wake cause, the island's low battery (R99, R106,
R107, R137). -/
def startEvents (cause time : Nat) (s : State) : State :=
  let s := record 0x0301 bootSrc [cause] { s with lds.deviceTime := time, glb.startAt := time, glb.clocks := true }
  let s := if s.island.wakeCause ≠ 0 then record 0x010C powerSrc [s.island.wakeCause] s else s
  if s.island.vbatLow then recordAlert 0x010D powerSrc [s.island.vbatMv] s else s

/-- The island has been read: what it told is taken and cleared (R84, R99). -/
def islandRead (clean lost : Bool) (s : State) : State :=
  { s with
    island.inVault := false, island.wakeL := false, island.wakePending := false, island.wakeCause := 0
    island.lost := false, island.cleanStop := false, pwr.islandLost := lost, pwr.lastStopClean := clean }

/-- Code of the newest NOR record, 0 with none (R668). -/
def newestCode (m : List Host.Cell) : Nat :=
  ((norRecords m).find? fun r => newestSeq (norRecords m) = some r.seq).elim 0 (·.code)

/-- Records of a lost island, of each NOR record that the boot ROM rejected, and of a stop that was not clean, with the code of the newest
NOR record and whether the island was lost (R84, R108, R169, R668). -/
def stopEvents (clean lost : Bool) (s : State) : State :=
  let newest := newestCode s.nor
  let s := if lost then record 0x020A timeSrc [] s else s
  let s := (List.range (rejectedRecords s.nor)).foldl (fun s _ => record 0x030D bootSrc [] s) s
  if clean then s else record 0x0106 powerSrc [newest, b2n lost] s

/-- The device key and the identity are derived, outside DECOMMISSIONED (R392, R398). -/
def identityUp (s : State) : State :=
  let live := decide (lifeCycle s ≠ .decommissioned)
  { s with sec.deviceKey := live, sec.drbgOk := live, cfg.idPub := if live then Config.identityKey else [] }

/-- Steps 1 to 3: reset, record 0x0301 with the cause, clocks, the island read, device and civil time resumed, the stop judged, a
life-cycle change and a floor raise completed, the device key and identity derived (R84, R99, R106, R108, R137, R167, R168, R169, R175,
R392, R398, R675). -/
def beginStart (cause : Nat) (straps : Bool) (i : StartIn) (s : State) : State :=
  let s := if straps then norTear i.torn s else s
  let clean := stopClean s
  let lost := s.island.lost
  let away := countsNs (countsElapsed i s)
  let s := islandRead clean lost (startEvents cause (resumeTime i s) (afterReset straps i s))
  let s := birthMend (resumeCivil away (stopEvents clean lost s))
  let s := { s with island.counter := (s.island.counter + i.counts) % 2 ^ 48 }
  identityUp (floorResume (lcResume ((chooseCfg i s).elim [] (·.2.digest)) s))

/-! ## Steps 4 to 6: the configuration image -/

/-- The outcome of the checks of one copy; the copy's record when it is rejected (R164, R165, R176). The spec gives no coding of the
copy in records 0x0302 and 0x0303; here 0 is copy A and 1 copy B (log entry 65). -/
def noteCopy (i : StartIn) (copyB : Bool) (s : State) : State :=
  let r := (checkCfg s (cfgBytes s copyB) (i.cfgRead.getD (b2n copyB) true)).1
  let s := if copyB then { s with cfg.bReason := r, cfg.bValid := decide (r = 0) }
    else { s with cfg.aReason := r, cfg.aValid := decide (r = 0) }
  if r = 0 then s else record 0x0302 bootSrc [b2n copyB, r] s

/-- Step 4: both copies are checked and one is chosen, or none; the copy in record 0x0303 is coded as in noteCopy (R146, R165). -/
def stepFour (i : StartIn) (s : State) : Option CfgImage × State :=
  let s := noteCopy i true (noteCopy i false s)
  match chooseCfg i s with
  | some (b, c) =>
    (some c, record 0x0303 bootSrc [b2n b, c.version]
      { s with cfg.copyUsed := b2n b + 1, cfg.version := c.version, cfg.active := c.keySlot, cfg.imageDigest := c.digest, glb.cfgOk := true })
  | none => (none, stall 4 { s with glb.hostEp := true, eps := s.eps.map fun e => { freshEp s with inReset := e.inReset } })

/-- A field out of its range has taken its default: the record of its section, and for SECTION_DEFAULT its TYPE and offset (R157). -/
def noteDefault (t off : Nat) (s : State) : State :=
  match t with
  | 7 => record 0x0E08 (chanSrc 0) [] s
  | 8 => record 0x0A0D (dmlSrc 0) [] s
  | 9 => record 0x0F09 loopSrc [] s
  | 10 => record 0x0C0C maintSrc [] s
  | _ => record 0x0316 bootSrc [t, off] s

/-- Entry `k` of a REMAP section (R59). -/
def remapEntry (bs : List (BitVec 8)) (k : Nat) : List (BitVec 8) := slice bs (16 * k) 16

/-- Lanes and ports of an IFACE code, none for a reserved one (R59, R60). -/
def remapFace : Nat → Option (Nat × Nat)
  | 1 => some (4, 4)
  | 2 => some (8, 1)
  | 3 => some (2, 48)
  | _ => none

/-- A map gives each logical lane below the count another physical lane below it, and 0xF above (R60). -/
def laneMapOk (lanes v : Nat) : Bool :=
  let nib (i : Nat) : Nat := v / 16 ^ i % 16
  ((List.range 8).all fun i => if i < lanes then decide (nib i < lanes) else decide (nib i = 15)) &&
    (List.range lanes).all fun i => (List.range i).all fun j => decide (nib i ≠ nib j)

/-- A REMAP entry is valid (R60). -/
def remapOk (e : List (BitVec 8)) : Bool :=
  match remapFace (leAt e 0 1) with
  | some (lanes, ports) =>
    decide (leAt e 1 1 < ports) && decide (leAt e 2 1 < 2 ^ lanes) && decide (leAt e 3 1 < 2 ^ lanes) &&
      laneMapOk lanes (leAt e 4 4) && laneMapOk lanes (leAt e 8 4)
  | none => false

/-- Source identifier of a port that an entry names; the port's first lane for XHL, 0 where it names none (R15). -/
def remapSrc (e : List (BitVec 8)) : Nat :=
  match leAt e 0 1 with
  | 1 => if leAt e 1 1 < 4 then srcId 1 2 (leAt e 1 1) else 0
  | 2 => if leAt e 1 1 = 0 then srcId 1 6 0 else 0
  | 3 => if leAt e 1 1 < 48 then srcId 5 0 (leAt e 1 1) else 0
  | _ => 0

/-- An entry applies: it is valid and no other entry names its port (R61). -/
def remapApplies (es : List (List (BitVec 8))) (e : List (BitVec 8)) : Bool :=
  remapOk e && decide ((es.filter fun x => leAt x 0 2 = leAt e 0 2).length = 1)

/-- A port whose entries do not apply, given by its IFACE and PORT bytes, is held disabled until CHIP_RST_L, with record 0x0312 (R61). -/
def remapRefuse (e : List (BitVec 8)) (s : State) : State :=
  let src := remapSrc e
  record 0x0312 src [] (if src = 0 then s else holdDown src s)

/-- Step 5: the image is applied, section by section; an absent optional section leaves its defaults. VDD_CORE is first commanded, and
raised by AVS_PRERAISE at a start from VAULT (R137, R155, R157, R629). -/
def stepFive (cause : Nat) (c : CfgImage) (s : State) : State :=
  let sec (t : Nat) : List (BitVec 8) := (sectionBytes c.secs t).getD []
  let has (t : Nat) : Bool := (sectionBytes c.secs t).isSome
  let es := (List.range ((sec 2).length / 16)).map (remapEntry (sec 2))
  let good := (es.filter (remapApplies es)).map fun e => BitVec.ofNat 96 (leAt e 0 12)
  let img : Image :=
    { applied := true, board := boardOf (sec 1) good, power := powerOf (sec 3)
      time := if has 4 then timeOf (sec 4) else ImgTime.reset, host := hostOf (sec 5)
      net := if has 6 then netOf (sec 6) else ImgNet.reset, media := mediaOf (sec 8), loops := loopsOf (sec 9)
      policy := if has 10 then policyOf (sec 10) else Image.reset.policy, wlogGib := fieldAt 7 (sec 7) 2 }
  let s := c.secs.foldl (fun s x =>
    (defaulted x.1 x.2.2 ++ (if x.1 = 6 then netBadRecords x.2.2 else [])).foldl (fun s off => noteDefault x.1 off s) s) s
  let s := { s with
    img := img, pwr.regs := regsOf (sec 3), cle.loops := Loop.table img.loops img.media.telemMs
    med.periodMs := img.media.telemMs, drc := dramOf (sec 7) s.drc, wlg.gib := img.wlogGib
    lds.inDelay := img.time.inDelay, lds.outDelay := img.time.outDelay
    net.ports := (List.range 4).map fun p => { NetPort.reset with mode := img.board.netMode.getD p 0 } }
  let s := pmbusSend (fun r => r.rail = 0) 0x21 s.pwr.vddCore { s with eps := s.eps.map fun e => { freshEp s with inReset := e.inReset } }
  (((es.filter fun e => !remapApplies es e).map (·.take 2)).eraseDups).foldl (fun s e => remapRefuse e s) (if cause = 2 then avsRaiseNow s else s)

/-! ## Step 7: firmware -/

/-- One more write of the boot record: RSEQ one above the last and the VERSION last staged in each slot, to copy A, copy B and the island
(R692). -/
def writeBoot (b : BootRecord) (s : State) : State :=
  let last (n : Nat) (old : BitVec 32) : BitVec 32 := if s.upd.fwVer.getD n 0 = 0 then old else s.upd.fwVer.getD n 0
  let b := { b with
    rseq := (s.upd.boot.elim 0 (·.rseq) + 1) % 2 ^ 32, versionA := last 0 b.versionA, versionB := last 1 b.versionB }
  { copiesPut (bootBytes b) s with upd.boot := some b, island.boot := some b }

/-- The slot that R693 starts, and whether it stands in for slot ACTIVE. -/
def chooseSlot (i : StartIn) (s : State) : Option (Nat × Bool) :=
  let valid (n : Nat) : Bool := slotValid s n (i.fwRead.getD n true)
  match s.upd.boot with
  | some b =>
    let may (n : Nat) : Bool := valid n && !b.failed.getLsbD n
    if may b.active then some (b.active, false) else if may (1 - b.active) then some (1 - b.active, true) else none
  | none =>
    if valid 0 && valid 1 then
      some (if (fwVersion (fwBytes s 0)).toNat < (fwVersion (fwBytes s 1)).toNat then 1 else 0, false)
    else if valid 0 then some (0, false) else if valid 1 then some (1, false) else none

/-- A raise of the floor goes on, one fuse at a time; at its target the record is cleared, and a configuration that is being mirrored is
CONFIRMED (R167, R705). -/
def floorOn (s : State) : State :=
  if s.cfg.floorPending = 0 then s
  else if s.fuses.floor < s.cfg.floorPending then { s with fuses.floor := s.fuses.floor + 1 }
  else
    let s := floorRaised s.cfg.floorPending s
    match s.upd.boot with
    | some b => if b.st = 3 then writeBoot { b with st := 0, tries := 0, cfgCopy := 0xFF } s else s
    | none => s

/-- Firmware runs from a slot: record 0x0304 with slot and VERSION (R137, R179). -/
def runFirmware (slot : Nat) (version : BitVec 32) (s : State) : State :=
  record 0x0304 bootSrc [slot, version.toNat] { s with glb.fw := true, upd.runVer := version }

/-- A start on probation raises TRIES (R700). -/
def raiseTries (s : State) : State :=
  match s.upd.boot with
  | some b => if onProbation s then writeBoot { b with tries := b.tries + 1 } s else s
  | none => s

/-- Step 7: the versions of the valid slots are noted, and the slot of R693 starts; without one, or in a recovery start, the head
waits for firmware (R53, R146, R693, R708). -/
def stepSeven (i : StartIn) (s : State) : State :=
  let ver (n : Nat) : BitVec 32 := if slotValid s n (i.fwRead.getD n true) then fwVersion (fwBytes s n) else 0
  let s := { s with upd.fwVer := [ver 0, ver 1] }
  if s.glb.nvmMode then s
  else
    match chooseSlot i s with
    | none => stall 7 s
    | some (n, other) =>
      let (v, s) := takeFree s
      let s := if other then record 0x1103 bootSrc [v.toNat] { s with upd.fellBack := true } else s
      raiseTries (runFirmware n (fwVersion (fwBytes s n)) { s with upd.slot := n })

/-! ## Steps 8 and 9 -/

/-- Step 8: SRAM is zeroed and tested; failing banks are retired while 28 pass; the supervisor schedules the block agents onto the cores.
A DECOMMISSIONED head stops here (R20, R137, R149, R170). -/
def stepEight (i : StartIn) (s : State) : State :=
  if lifeCycle s = .decommissioned then stall 8 s
  else
    let bad := (i.sramBad.filter fun b => b < 32).eraseDups
    let s := bad.foldl (fun s b => record 0x0306 (srcId 6 1 b) [] s) s
    if 4 < bad.length then stall 8 s
    else
      let s := bad.foldl (fun s b => retireElement (srcId 6 1 b) s) s
      blockAgents.foldl scheduleAgent { s with flt.retBanks := bad.length, glb.sram := true, kc.lanesUp := true, sram := [] }

/-- A lane passes its eye-margin limits; a margin equal to a limit passes (R723). PCIe below 16.0 GT/s needs successful training only. -/
def eyePasses (l : LaneEye) : Bool :=
  let all (height width : Nat) : Bool := l.eyes.all fun e => decide (height ≤ e.1) && decide (width ≤ e.2)
  match srcStage l.src, srcEngine l.src with
  | 1, 0 => if l.rate < 4 then true else if l.rate < 6 then all 15000 1500 else all 8000 1000
  | 1, 2 => all 10000 1200 && decide (l.ber ≤ 1000000)
  | 1, 6 => all 10000 1200 && decide (l.ber ≤ 1000000)
  | 5, 0 => all 30000 3000
  | _, _ => true

/-- What fails calibration: the elements found so, and the ports of lanes whose eye margin falls below its limit (R146, R148). -/
def calFailed (i : StartIn) : List Nat := (i.calFails ++ (i.eyes.filter fun l => !eyePasses l).map (·.src)).eraseDups

/-- DML ports enabled by the image whose lanes did not fail calibration. -/
def goodPorts (i : StartIn) (s : State) : Nat :=
  ((List.range 48).filter fun p => s.img.media.portEn.getLsbD p && !(calFailed i).contains (dmlSrc p)).length

/-- The minimums of R56 hold after the failures of calibration: all 8 lanes of XHL, PMB0, and the ports of the smallest stripe. -/
def minimumsHold (i : StartIn) (s : State) : Bool :=
  !((List.range 8).any fun l => (calFailed i).contains (srcId 1 6 l)) && !(calFailed i).contains (srcId 6 4 0) &&
    (!((List.range 48).any fun p => (calFailed i).contains (dmlSrc p)) || decide (6 ≤ goodPorts i s))

/-- Step 9: calibration; a lane or port that fails is held down until CHIP_RST_L with record 0x0305 (R58, R146 to R148). The crosshead link
trains from then on (R137, R563). -/
def stepNine (i : StartIn) (s : State) : State :=
  let s := (calFailed i).foldl (fun s src => record 0x0305 src [src] (holdDown src s)) s
  if minimumsHold i s then
    { s with glb.cal := true, glb.calAt := now s, glb.calWords := i.calWords, island.trim := i.trim, xhl.link := 1
             med.ports := (List.range 48).map fun p => { portOf s p with present := i.present.getLsbD p } }
  else stall 9 s

/-! ## Step 12: DRAM -/

/-- The channel sets, largest first: channels in index order and a (R597). -/
def popSets : List (List Nat × Nat) := [4, 3, 2, 1].map fun p => ((chanSet p).1, (chanSet p).2.1)

/-- Code of a population in DRC_STATUS.POP (R615). -/
def popCode (nc : Nat) : Nat := if nc = 4 then 1 else if nc = 6 then 2 else if nc = 8 then 3 else if nc = 12 then 4 else 0

/-- Channels that have trained. -/
def trainedChans (i : StartIn) : List Nat :=
  (List.range 12).filter fun c => (i.dimms.getD c ⟨false, false, false, 0, []⟩).trained && !(calFailed i).contains (chanSrc c)

/-- Channel `c` carries the 256 GiB type. -/
def isBig (i : StartIn) (c : Nat) : Bool := (i.dimms.getD c ⟨false, false, false, 0, []⟩).type256

/-- The majority DIMM type; a tie goes to the lowest-lettered trained channel (R598). -/
def majorityBig (i : StartIn) : Bool :=
  let t := trainedChans i
  let big := (t.filter (isBig i)).length
  if 2 * big = t.length then isBig i (t.headD 0) else decide (t.length < 2 * big)

/-- The largest set of enabled, trained channels of the majority type (R598). -/
def chosenSet (i : StartIn) (s : State) : Option (List Nat × Nat) :=
  popSets.find? fun x => x.1.all fun c =>
    s.drc.chEn.getLsbD c && (trainedChans i).contains c && (isBig i c == majorityBig i)

/-- The channel masks of the population; one that breaks R605 takes its default with record 0x0E08 (R605, R614). -/
def settleMasks (a : Nat) (s : State) : State :=
  (List.range a).foldl (fun s k =>
    if (s.drc.chMask.getD k 0).toNat % 2 ^ a = 2 ^ k then s
    else record 0x0E08 (chanSrc 0) [] { s with drc.chMask := s.drc.chMask.set k (BitVec.ofNat 32 (0x00101001 * 2 ^ k)) }) s

/-- The channels as training left them; a failed device stays declared until CHIP_RST_L (R596, R612, R615, R618). -/
def chansOf (i : StartIn) (used : List Nat) (s : State) : List Chan :=
  (List.range 12).map fun c =>
    let d := i.dimms.getD c ⟨false, false, false, 0, []⟩
    let x := chanOf s c
    let old := { Chan.reset with deviceFailed := x.deviceFailed, failedDev := x.failedDev, erasure := x.erasure }
    if (trainedChans i).contains c then
      { old with trained := true, used := used.contains c, type256 := d.type256, rfm := d.rfm, band := d.band, setBand := d.band
                 sets := [{ band := d.band, lanes := d.lanes }] }
    else old

/-- The Almanac runs: the wake region from the NOR, then the recovered and the held records (R143, R677, R679). -/
def loadAlmanac (s : State) : State :=
  let w := lastN 65536 (ringRecords s.nor ++ s.alm.held)
  let closed := s.alm.held.filter fun r => !r.isOpen
  let back := (s.alm.held.filter (·.island)).length
  let s := { s with alm.wake := w, alm.wakeFirst := w.head?.elim s.alm.nextSeq (·.seq), alm.loaded := true, alm.held := [] }
  let s := closed.foldl (fun s r => norPush r s) s
  if back = 0 then s else record 0x0313 bootSrc [back] s

/-- When the heads declare different log sizes the smaller applies, with record 0x0706 (R290). -/
def logSize (i : StartIn) (s : State) : State :=
  match i.peerGib with
  | none => s
  | some g =>
    if g = s.img.wlogGib then s
    else record 0x0706 logSrc [s.img.wlogGib, g] { s with wlg.gib := min s.img.wlogGib g, wlg.sizeMismatch := true }

/-- Step 12: the population is chosen, DRAM is zeroed, with record 0x0306 for each region that fails, the size of the log is settled, and the Almanac service runs (R146, R150,
R179, R290, R598). -/
def stepTwelve (i : StartIn) (s : State) : State :=
  match chosenSet i s with
  | none => stall 12 { s with drc.chans := chansOf i [] s }
  | some (used, a) =>
    let s := { s with drc.chans := chansOf i used s, drc.pop := popCode used.length }
    let s := ((trainedChans i).filter fun c => !used.contains c).foldl (fun s c => record 0x0E06 (chanSrc c) [] s) s
    if used.length * (if majorityBig i then 256 else 128) < s.img.wlogGib + s.img.host.lzGib + 64 then stall 12 s
    else
      let s := i.dramBad.foldl (fun s c => record 0x0306 (chanSrc (c % 12)) [] s) (settleMasks a s)
      logSize i (loadAlmanac { s with glb.dram := true, lz := [] })

/-! ## Step 13: the map -/

/-- The layout format lies outside LAYOUT_MIN to LAYOUT_MAX of the firmware that runs (R688, R701). -/
def layoutOutside (s : State) (layout : Nat) : Bool :=
  decide (layout < leAt (fwHeader s) 104 2) || decide (leAt (fwHeader s) 106 2 < layout)

/-- Step 13: the map is loaded, or made for a new array; true when the array's layout format fails the probation instead (R146, R487,
R598, R701). A BLANK part holds no array. -/
def stepThirteen (unclean : Bool) (i : StartIn) (s : State) : Bool × State :=
  if lifeCycle s = .blank then (false, { s with glb.map := true })
  else if i.shortfall ≠ 0 then (false, stall 13 (record 0x0E06 (chanSrc 0) [i.shortfall] s))
  else
    match i.map with
    | .none => (false, { newMap s with glb.map := true })
    | .unreadable => (false, stall 13 s)
    | .found m =>
      if layoutOutside s m.layout then (if probationRuns s then (true, s) else (false, stall 13 s))
      else
        match readMap s m with
        | none => (false, stall 13 s)
        | some r => (false, { loadMap r unclean s with glb.map := true })

/-! ## A start as a whole -/

/-- A probation fails: record 0x1103 with a cause whose code is open, the boot record that falls back, and for a configuration the
first sector of the staged copy erased. The UPDATE activity ends with the reset that follows (R701, R703). -/
def failProbation (s : State) : State :=
  match s.upd.boot with
  | none => s
  | some b =>
    let (v, s) := takeFree s
    let s := record 0x1103 bootSrc [v.toNat] s
    if b.st = 2 then
      writeBoot { b with st := 0, tries := 0, cfgCopy := 0xFF } (norErase (cfgBase (decide (b.cfgCopy = 1))) 65536 s)
    else writeBoot { b with st := 0, tries := 0, active := 1 - b.active, failed := putBit b.failed b.active true } s

/-- Steps 8 to 13, with what the peer and the modules decide left to their own events; true when the probation fails at step 13. -/
def fromEight (i : StartIn) (s : State) : Bool × State :=
  if !s.glb.fw then (false, s)
  else
    let s := stepEight i s
    if s.glb.failStep ≠ 0 then (false, s)
    else
      let s := stepNine i s
      if s.glb.failStep ≠ 0 then (false, s)
      else
        let s := stepTwelve i s
        if s.glb.failStep ≠ 0 then (false, s)
        else
          let r := stepThirteen (!s.pwr.lastStopClean) i s
          (r.1, noteMedia r.2)

/-- TRIES stands at 3 when a start on probation comes to its firmware (R701). -/
def triesOver (s : State) : Bool := onProbation s && s.upd.boot.any fun b => decide (3 ≤ b.tries)

/-- Steps 5 to 13; true when the probation fails. -/
def fromFive (cause : Nat) (c : CfgImage) (i : StartIn) (s : State) : Bool × State :=
  let s := { stepFive cause c s with glb.hostEp := true }
  if triesOver s then (true, s) else fromEight i (stepSeven i s)

/-- The island keeps device time and its own count at a stop (R108). -/
def stopCount (s : State) : State := { s with island.storedTime := now s, island.storedCount := s.island.counter }

/-- A start, and after a failed probation the update reset that follows it (R137, R701). -/
def startRun : Nat → Nat → Bool → Bool → StartIn → State → State
  | 0, _, _, _, _, s => s
  | n + 1, cause, straps, fell, i, s =>
    let s := { beginStart cause straps i s with upd.fellBack := fell }
    match stepFour i s with
    | (none, s) => s
    | (some c, s) =>
      match fromFive cause c i s with
      | (false, s) => s
      | (true, s) => startRun n 4 false true i (stopCount (failProbation s))

/-- An update reset: everything CHIP_RST_L resets but the straps and the island (R137, R699). The UPDATE activity that admitted it goes
on until the probation ends (R700). -/
def updateReset (fell : Bool) (i : StartIn) (s : State) : State :=
  let update := s.ecp.running.contains .update && !fell
  let s := startRun 3 4 false fell i (stopCount s)
  if update && !s.upd.fellBack then { s with ecp.running := s.ecp.running ++ [.update] } else s

/-- The head stops where it stands: every port state and all activity end, outputs fall, the island keeps device time and civil time as
they stand (R24, R65, R98, R108, R109). -/
def holdReset (s : State) : State :=
  if s.glb.held then s
  else
    stopCount { linksOff (keepCivil s) with glb.held := true, glb.service := false, flt.ports := [] }

/-- CHIP_RST_L_LOW: driven low for 1 us or longer, or the main rails collapse (R24, R720). -/
def execChipRstLLow (s : State) : Host.Outcome State Fault Refusal := .next (holdReset s)

/-- A probation has failed: SERVICE is not set 120 s after the start, or the head entered FAILSTOP 10 s ago (R701). -/
def probationLost (s : State) : Bool :=
  if s.glb.mode = .failstop then s.flt.failAt.any fun t => decide (t + 10 ^ 10 ≤ now s)
  else !s.glb.service && decide (s.glb.startAt + 120 * 10 ^ 9 ≤ now s)

/-- CHIP_RST_L rises: a start begins. The cause is 2 after VAULT, 3 with the rails up, 1 at power-up (R137). An expiry of a probation in
the same cycle decides (R701). -/
def execChipRstL (i : StartIn) (s : State) : Host.Outcome State Fault Refusal :=
  let s := if !s.glb.held && probationRuns s && probationLost s then failProbation s else s
  let s := holdReset s
  .next (startRun 3 (if s.island.inVault then 2 else if i.railsUp then 3 else 1) true false i s)

/-! ## Steps 10, 14 and 15 -/

/-- XHL_START_TIMEOUT: XHL is not up 10 s after CAL; the head fences and goes on only with quorum, which sets XHL with PEER_UP 0
(R146, R583). -/
def execXhlStartTimeout (s : State) : Host.Outcome State Fault Refusal :=
  if alive s && decide (s.glb.mode = .starting) && s.glb.cal && !s.glb.xhl && !s.xhl.roundOpen && !s.glb.headConflict &&
      !peerUp s && decide (s.glb.calAt + 10 ^ 10 ≤ now s) then .next (sendFences s)
  else .next s

/-- A confirmed configuration is mirrored: its bytes go to the other copy, the floor rises to its VERSION when that exceeds it, and the
boot record is CONFIRMED once it has (R705). -/
def mirrorCfg (s : State) : State :=
  match s.upd.boot with
  | none => s
  | some b =>
    if b.st = 3 then
      let fromB := decide (b.cfgCopy = 1)
      let bytes := cfgBytes s fromB
      let dst := cfgBase (!fromB)
      let s := raiseFloor (leAt bytes 8 2) (norWrite dst bytes (norErase dst (4 * 2 ^ 20) s))
      if s.cfg.floorPending = 0 then writeBoot { b with st := 0, tries := 0, cfgCopy := 0xFF } s else s
    else s

/-- Every flag that SERVICE waits for but LOG is set (R139, R144). -/
def flagsSet (s : State) : Bool :=
  s.glb.clocks && s.glb.cfgOk && s.glb.hostEp && s.glb.fw && s.glb.sram && s.glb.cal && s.glb.xhl && s.glb.media && s.glb.dram && s.glb.map

/-- LOG: agreed by the last BULK or decided by quorum, or both heads start and there is no log to bring into agreement (R137, R587). -/
def logAgreed (s : State) : Bool := s.glb.log || (peerUp s && decide (s.xhl.peerMode = 0))

/-- Ownership as the start settles it: with the peer absent every volume is this head's; beside a peer that serves, or starts too,
the table stands and is exchanged (R32, R569, R583). -/
def settleStart (s : State) : State := if peerUp s then { s with wlg.mirror := 1 } else setOwned allVolumes s

/-- Step 15: MODE becomes READY and SERVICE is set with record 0x0308, a probation's time runs, the anchors are written, and a mirroring
that was cut goes on unless the firmware came from the staging buffer (R145, R486, R697, R700, R705). -/
def enterReady (ms : Nat) (s : State) : State :=
  let s := settleStart { s with glb.log := true }
  let s := record 0x0308 bootSrc [ms] { s with glb.mode := .ready, glb.service := true }
  let s := if probationRuns s then { s with upd.probEnd := now s + s.upd.probationS * 10 ^ 9, upd.restarts := 0 } else s
  let s := if s.mmg.wpSeq = 0 then s else writeAnchors s
  if s.upd.recovery then s else mirrorCfg s

/-- START_DONE: step 15 after `ms` milliseconds; MODE becomes READY, SERVICE is set, record 0x0308, the anchors are written, a
mirroring that was cut goes on unless the firmware came from the staging buffer, and a probation's time runs (R137, R144, R145, R486,
R569, R697, R700, R705). -/
def execStartDone (ms : Nat) (s : State) : Host.Outcome State Fault Refusal :=
  let s := noteMedia s
  if alive s && decide (s.glb.mode = .starting) && decide (s.glb.failStep = 0) && !s.glb.headConflict && flagsSet s && logAgreed s then
    let s := enterReady ms s
    .next (if peerUp s then xhlSend 0x0401 false false [2] (dictEncode (volMask s.xhl.owned)) (rebudget s) else rebudget s)
  else .next s

/-! ## The end of the whole-chip test (R658) -/

/-- The wake region is read back from the NOR, with what waited for it and the open records (R658, R671). -/
def wakeReload (s : State) : State :=
  let w := lastN 65536 (ringRecords s.nor ++ s.alm.norWait ++ s.alm.wake.filter (·.isOpen))
  { s with alm.wake := w, alm.wakeFirst := w.head?.elim s.alm.nextSeq (·.seq) }

/-- The test is over; SRAM, DRAM and what they held are initialised afresh (R149, R150, R658). -/
def wholeChipClear (passed : Bool) (s : State) : State :=
  wakeReload { s with
    flt.wholeChip := false, flt.testState := 3, flt.testResult := if passed then 1 else 2, sram := [], lz := []
    red := Red.reset, wlg := { Wlg.reset with gib := s.wlg.gib, sizeMismatch := s.wlg.sizeMismatch }
    mmg := Mmg.reset, ecp := { Ecp.reset with running := s.ecp.running }
    kc := { Kc.reset with lanesUp := true }, dig := Dig.reset, xhl.bulkSent := false, xhl.deltas := [] }

/-- The map is loaded again from the waypoint found, outside FAILSTOP (R587, R658). -/
def wholeChipMap (map : MapSource) (s : State) : State :=
  match map with
  | .found m => if s.glb.mode = .failstop then s else
    match readMap s m with
    | none => s
    | some r => loadMap r false s
  | _ => s

/-- WHOLE_CHIP_TEST_END: lasting findings, each an element and its failing rows, are handled as any other; SRAM and DRAM are
initialised afresh, and the head rejoins as a restarted head that loads its map, staying in MAINTENANCE (R149, R150, R587, R654,
R658). A FATAL finding ends in FAILSTOP. -/
def execWholeChipTestEnd (fails : List (Nat × Nat)) (map : MapSource) (s : State) : Host.Outcome State Fault Refusal :=
  if alive s && s.flt.wholeChip then
    .next (wholeChipMap map
      (fails.foldl (fun s f => lastingOutcome f.1 f.2 s) (record 0x1008 faultSrc [] (wholeChipClear fails.isEmpty s))))
  else .next s

end Sys2Proof.Machine
end

