-- ==== Sys2Proof/Machine/Update.lean ====
section
/-!
DEFINITION. The update block (chapter 21): the staging buffer, staging of firmware and configuration, activation and restart,
firmware run from the buffer, and the end of a probation.
-/
namespace Sys2Proof.Machine

/-- A command or write of the UPD block is refused (R696, R707). -/
def updRefuse (s : State) : State := { s with upd.cmdErr := true }

/-- A write to the UPD block (R694). -/
def updTouched (s : State) : State := { s with upd.writeAt := now s }

/-- The CONFIRM field matches (R696). -/
def updConfirm (confirm : Nat) : Bool := decide (confirm = Config.serial.toNat % 65536)

/-! ## The staging buffer (R694) -/

/-- OPEN reserves the buffer. -/
def openBuffer (s : State) : State :=
  if s.upd.st = .idle then { s with upd.st := .opened, upd.staging := [], upd.staged := none, upd.job := none } else updRefuse s

/-- The buffer is released; a RESTART that waits goes on waiting. -/
def releaseBuffer (s : State) : State :=
  { s with upd.st := if s.upd.st = .waiting then .waiting else .idle, upd.staging := [], upd.staged := none, upd.job := none }

/-- Word `i` of the data window lands at staging byte UPD_OFFSET + 4 i. -/
def stageWord (i : Nat) (w : BitVec 32) (s : State) : State :=
  if s.upd.st = .opened then
    { s with upd.staging := memWriteBytes 0 s.upd.staging (s.upd.offset + 4 * i) (leBytes 4 w.toNat) }
  else updRefuse s

/-- The image in the buffer: UPD_LEN bytes. -/
def stagedBytes (s : State) : List (BitVec 8) := memBytes 0 s.upd.staging 0 s.upd.len

/-- OPEN (R694). -/
def execUpdOpen (s : State) : Host.Outcome State Fault Refusal :=
  if hostWriteOk s 0x12 then .next (openBuffer (updTouched s)) else .next s

/-- UPD_DATA_WRITE (R694). -/
def execUpdDataWrite (i : Nat) (w : BitVec 32) (s : State) : Host.Outcome State Fault Refusal :=
  if hostWriteOk s 0x12 && decide (i < 1024) then .next (stageWord i w (updTouched s)) else .next s

/-- ABORT (R694). -/
def execUpdAbort (s : State) : Host.Outcome State Fault Refusal :=
  if hostWriteOk s 0x12 then .next (releaseBuffer (updTouched s)) else .next s

/-- STAGING_TIMEOUT: 600 s with no write to the block release the buffer, unless an image is being checked or programmed (R694). -/
def execStagingTimeout (s : State) : Host.Outcome State Fault Refusal :=
  if alive s && (decide (s.upd.st = .opened) || decide (s.upd.st = .staged)) && decide (s.upd.writeAt + 600 * 10 ^ 9 ≤ now s) then
    .next (releaseBuffer s)
  else .next s

/-! ## Staging (R695, R696, R698) -/

/-- A probation or the mirroring of a configuration is pending. -/
def updPending (s : State) : Bool := s.upd.activating.isSome || s.upd.boot.any fun b => decide (b.st ≠ 0)

/-- The slot that the head's firmware runs from, none before it runs and after RUN. -/
def runningSlot (s : State) : Option Nat := if s.glb.fw && !s.upd.recovery then some s.upd.slot else none

/-- STAGE_FW. -/
def stageFw (slot : Nat) (s : State) : State :=
  if decide (s.upd.st = .opened) && decide (runningSlot s ≠ some slot) && !updPending s && decide (s.glb.failStep ≠ 4) then
    { s with upd.st := .checking, upd.job := some (true, slot), upd.reason := 0 }
  else updRefuse s

/-- The copy STAGE_CFG writes: the one not in use, or copy A when COPY_USED is 0 or 3. -/
def stageCopy (s : State) : Nat := if s.cfg.copyUsed = 1 then 1 else 0

/-- STAGE_CFG. -/
def stageCfg (s : State) : State :=
  if decide (s.upd.st = .opened) && !updPending s && (s.glb.fw || decide (s.glb.failStep = 4)) then
    { s with upd.st := .checking, upd.job := some (false, stageCopy s), upd.reason := 0 }
  else updRefuse s

/-- STAGE_FW (R695). -/
def execStageFw (slot : Nat) (s : State) : Host.Outcome State Fault Refusal :=
  if hostWriteOk s 0x12 then .next (stageFw (slot % 2) (updTouched s)) else .next s

/-- STAGE_CFG (R695). -/
def execStageCfg (s : State) : Host.Outcome State Fault Refusal :=
  if hostWriteOk s 0x12 then .next (stageCfg (updTouched s)) else .next s

/-- First NOR address and size of what a staging writes (R152). -/
def jobPlace (fw : Bool) (n : Nat) : Nat × Nat := if fw then (fwBase n, 48 * 2 ^ 20) else (cfgBase (decide (n = 1)), 4 * 2 ^ 20)

/-- The checks of the buffer: the reason code, 0 when the image passes (R164, R691). -/
def jobReason (fw : Bool) (s : State) : Nat :=
  if fw then checkFw s (stagedBytes s) true else (checkCfg s (stagedBytes s) true).1

/-- Staging fails: REASON, record 0x1102, the buffer is released. -/
def stageFailed (reason : Nat) (s : State) : State :=
  releaseBuffer (record 0x1102 bootSrc [reason] { s with upd.reason := reason })

/-- Staging ends: record 0x1101 with kind, slot or copy, and VERSION; the code of the kind is open (R709). -/
def stageEnded (fw : Bool) (n version : Nat) (s : State) : State :=
  let (k, s) := takeFree s
  record 0x1101 bootSrc [k.toNat, n, version]
    { s with upd.st := .staged, upd.job := none, upd.staged := if fw then some n else none
             upd.stagedCfg := if fw then s.upd.stagedCfg else some n }

/-- A staged copy that R165 will choose at the next start: its VERSION is higher, or equal and it is copy A (R703, R704). -/
def takesEffect (copy version : Nat) (s : State) : Bool :=
  decide (s.cfg.version < version) || (decide (version = s.cfg.version) && decide (copy = 0))

/-- Firmware is programmed, read back and checked again: its VERSION is that of a valid slot (R695, R708). -/
def endStageFw (n : Nat) (s : State) : State :=
  let reason := checkFw s (fwBytes s n) true
  let v := fwVersion (fwBytes s n)
  if reason ≠ 0 then stageFailed reason s else stageEnded true n v.toNat { s with upd.fwVer := s.upd.fwVer.set n v }

/-- A configuration is programmed and read back. Before a start takes it, the boot record puts it on probation; a start that stalled
for want of a copy goes on at step 5 (R695, R698, R703). -/
def endStageCfg (n : Nat) (i : StartIn) (s : State) : State :=
  match (checkCfg s (cfgBytes s (decide (n = 1))) true).2 with
  | none => stageFailed (checkCfg s (cfgBytes s (decide (n = 1))) true).1 s
  | some c =>
    let s := stageEnded false n c.version s
    let b := s.upd.boot.getD BootRecord.reset
    if s.glb.failStep = 4 then
      let s := writeBoot { b with st := 2, tries := 0, cfgCopy := 0 } s
      let r := fromFive 0 c i { s with
        glb.failStep := 0, glb.cfgOk := true, cfg.copyUsed := 3, cfg.version := c.version, cfg.active := c.keySlot
        cfg.imageDigest := c.digest }
      if r.1 then startRun 3 4 false true i (stopCount (failProbation r.2)) else r.2
    else if takesEffect n c.version s then writeBoot { b with st := 2, tries := 0, cfgCopy := n } s
    else s

/-- STAGED. `done` false: the check has ended and, when the image passed, its slot or copy is erased and being programmed. `done` true:
staging ends. The operand of a start serves a head that goes on at step 5 (R695, R698). -/
def execStaged (done : Bool) (i : StartIn) (s : State) : Host.Outcome State Fault Refusal :=
  match s.upd.job with
  | some (fw, n) =>
    if alive s && (decide (s.upd.st = .checking) || (done && decide (s.upd.st = .programming))) then
      let p := jobPlace fw n
      let reason := jobReason fw s
      if decide (s.upd.st = .checking) && decide (reason ≠ 0) then .next (stageFailed reason s)
      else
        let s := norErase p.1 p.2 { s with upd.st := .programming, upd.fwVer := if fw then s.upd.fwVer.set n 0 else s.upd.fwVer }
        if done then
          let s := norWrite p.1 (stagedBytes s) s
          .next (if fw then endStageFw n s else endStageCfg n i s)
        else .next s
    else .next s
  | none => .next s

/-! ## Activation and restart (R696, R699) -/

/-- ACTIVATE: the staged firmware goes on probation from the next start. A FAILSTOP of the same cycle still refuses it: the boot record is
written when the cycle ends without one. -/
def activate (confirm : Nat) (s : State) : State :=
  match s.upd.st, s.upd.staged with
  | .staged, some n =>
    let h := fwBytes s n
    let outside := decide (s.upd.layout < leAt h 104 2) || decide (leAt h 106 2 < s.upd.layout)
    if updConfirm confirm && !onProbation s && s.upd.activating.isNone && !outside then
      let b := s.upd.boot.getD BootRecord.reset
      { s with upd.activating := some { b with active := n, st := 1, tries := 0, failed := putBit b.failed n false } }
    else updRefuse s
  | _, _ => updRefuse s

/-- The boot record of an ACTIVATE is written (R699). -/
def activateOn (s : State) : State := s.upd.activating.elim s fun b => writeBoot b { s with upd.activating := none }

/-- ACTIVATE (R699); after a FAILSTOP of the same cycle it is refused (R696). -/
def execUpdActivate (confirm : Nat) (s : State) : Host.Outcome State Fault Refusal :=
  if hostWriteOk s 0x12 then .next (activate confirm (updTouched s))
  else if failedNow s && s.glb.hostEp && !s.glb.held then .next (updRefuse s)
  else .next s

/-- RESTART asks for the UPDATE activity; STATE reads WAITING until it is admitted. -/
def askRestart (confirm : Nat) (s : State) : State :=
  if updConfirm confirm && (decide (s.glb.mode = .maintenance) || (decide (s.glb.mode = .starting) && decide (s.glb.failStep ≠ 0))) then
    requestActivity .update { s with upd.st := .waiting }
  else updRefuse s

/-- RESTART (R699). -/
def execUpdRestart (confirm : Nat) (s : State) : Host.Outcome State Fault Refusal :=
  if hostWriteOk s 0x12 then .next (askRestart confirm (updTouched s)) else .next s

/-- UPDATE_RESET: the arbiter, this head's or its peer's, admits UPDATE, and the update reset follows (R554, R699). -/
def execUpdateReset (i : StartIn) (s : State) : Host.Outcome State Fault Refusal :=
  if alive s && decide (s.upd.st = .waiting) then
    let s := if admitsHere s .update then maintAdmit s
      else { s with ecp.waiting := s.ecp.waiting.filter (· ≠ .update), ecp.running := s.ecp.running.filter (· ≠ .update) ++ [.update] }
    if s.ecp.running.contains .update then .next (updateReset false i (activateOn s)) else .next s
  else .next s

/-! ## Firmware run from the buffer (R696, R697) -/

/-- RUN is refused: a slot qualifies in a normal start, no firmware is staged in the buffer, or the start does not wait for firmware. -/
def runRefused (i : StartIn) (s : State) : Bool :=
  (!s.glb.nvmMode && (chooseSlot i s).isSome) || !(decide (s.upd.st = .staged) && s.upd.staged.isSome) || s.glb.fw || !s.glb.cfgOk

/-- RUN: the image is checked again and started without a write of NOR; the start goes on at step 8. The slot of record 0x0304 is
open. -/
def runBuffer (i : StartIn) (s : State) : State :=
  if runRefused i s then updRefuse s
  else
    let reason := checkFw s (stagedBytes s) true
    if reason ≠ 0 then { s with upd.reason := reason }
    else
      let (v, s) := takeFree s
      (fromEight i (runFirmware v.toNat (fwVersion (stagedBytes s)) { s with upd.recovery := true, glb.failStep := 0 })).2

/-- RUN (R697). -/
def execUpdRun (i : StartIn) (s : State) : Host.Outcome State Fault Refusal :=
  if hostWriteOk s 0x12 then .next (runBuffer i (updTouched s)) else .next s

/-! ## The end of a probation (R700, R701, R703, R705) -/

/-- The health that a confirmation asks for: SERVICE for PROBATION_S seconds without a restart, and a peer that serves beside this
firmware, or quorum (R581, R700). -/
def healthy (s : State) : Bool :=
  s.glb.service && decide (s.upd.probEnd ≠ 0) && decide (s.upd.probEnd ≤ now s) && decide (s.upd.restarts = 0) &&
    ((peerUp s && decide (leAt (fwHeader s) 112 4 ≤ s.xhl.peerFw.toNat)) || hasQuorum s)

/-- FW_CONFIRMED: the boot record is CONFIRMED, key slots are revoked, a configuration is mirrored and the floor raised, record 0x1104,
and UPDATE ends (R700, R705). -/
def execFwConfirmed (s : State) : Host.Outcome State Fault Refusal :=
  match s.upd.boot with
  | some b =>
    if alive s && probationRuns s && healthy s then
      let revoke := BitVec.ofNat 4 (leAt (fwHeader s) 110 1)
      let s := if b.st = 2 then mirrorCfg (writeBoot { b with st := 3, tries := 0 } s)
        else { writeBoot { b with st := 0, tries := 0 } s with upd.fwRevoke := s.upd.fwRevoke ||| revoke }
      .next (maintAdmit (endActivity .update (record 0x1104 bootSrc [] { s with upd.probEnd := 0 })))
    else .next s
  | none => .next s

/-- FW_FALLBACK: a probation has failed; the boot record falls back and an update reset follows (R699, R701). -/
def execFwFallback (i : StartIn) (s : State) : Host.Outcome State Fault Refusal :=
  if !s.glb.held && probationRuns s && probationLost s then
    .next (updateReset true i (failProbation s))
  else .next s

/-! ## Registers (R707, R708) -/

/-- UPD_PROB_LEFT: seconds of the probation left. -/
def probLeft (s : State) : Nat :=
  if s.upd.probEnd = 0 then 0 else (s.upd.probEnd - now s + 999999999) / 10 ^ 9

/-- Write of a UPD register at an offset within the block. RUN needs what a start finds outside the head: its accepted effect is the RUN
command's (R694 to R697, R707, R708). -/
def updWrite (off : Nat) (w : BitVec 32) (s : State) : State :=
  let s := updTouched s
  if off = 0 then { s with upd.cmdErr := s.upd.cmdErr && !bitOf w 5 }
  else if off = 4 then
    match fld w 0 4 with
    | 1 => openBuffer s
    | 2 => stageFw (fld w 4 1) s
    | 3 => stageCfg s
    | 4 => activate (fld w 16 16) s
    | 5 => askRestart (fld w 16 16) s
    | 6 => releaseBuffer s
    | 7 => if decide (s.upd.st = .staged) && s.upd.staged.isSome then s else updRefuse s
    | _ => updRefuse s
  else if off = 8 then
    if w.toNat % 4096 = 0 ∧ w.toNat ≤ 50327552 then { s with upd.offset := w.toNat } else updRefuse s
  else if off = 0xC then
    if 1 ≤ w.toNat ∧ w.toNat ≤ 50331648 then { s with upd.len := w.toNat } else updRefuse s
  else if off = 0x10 then
    if 60 ≤ w.toNat ∧ w.toNat ≤ 86400 then noteMapChange { s with upd.probationS := w.toNat } else updRefuse s
  else if 0x1000 ≤ off ∧ off < 0x2000 ∧ off % 4 = 0 then stageWord ((off - 0x1000) / 4) w s
  else s

end Sys2Proof.Machine
end

