-- ==== Sys2Proof/Machine/Registers.lean ====
section
/-!
DEFINITION. What every register of BAR0 reads, block by block (R729 to R731 and each chapter's register map): the 64-bit
registers, the 32-bit registers, and the words whose read changes state.
-/
namespace Sys2Proof.Machine

/-! ## 64-bit registers (R12) -/

/-- What a host write of a 64-bit register does (R10, R12). -/
inductive WideKind where
  /-- Read only. -/
  | ro
  /-- Read and written: a commit with no staged half keeps the high half. -/
  | rw
  /-- Written only: it reads 0 and a commit with no staged half takes 0. -/
  | wo
  deriving DecidableEq, Repr

/-- A count in a 64-bit register. -/
def w64 (n : Nat) : BitVec 64 := BitVec.ofNat 64 n

/-- 64-bit registers of GLB, PWR and LDS by the offset of the low half. -/
def wideClock (s : State) (off : Nat) : Option (WideKind × BitVec 64) :=
  if off = 0x8 then some (.ro, Config.serial)
  else if off = 0x10010 then some (.ro, w64 s.pwr.budget)
  else if off = 0x10018 then some (.ro, w64 (dirtyBytes s))
  else if off = 0x10038 then some (.ro, (nextKnown s).elim (BitVec.allOnes 64) fun x => w64 x.1)
  else if off = 0x20008 then some (.ro, w64 (now s))
  else if off = 0x20010 then some (.ro, i64 (civilNow s))
  else if off = 0x20018 then some (.ro, i64 (highWater s))
  else if off = 0x20020 then some (.wo, 0)
  else if off = 0x20030 then some (.ro, i64 s.lds.peerOffset)
  else none

/-- 64-bit registers of HEP, DCQ, the doorbell pages and RMA. -/
def wideHost (s : State) (ep off : Nat) : Option (WideKind × BitVec 64) :=
  let a := s.dcq.adm.getD ep AdminCtl.reset
  if off = 0x40010 then some (.ro, (epOf s ep).urAddr)
  else if 0x41000 ≤ off ∧ off < 0x41000 + 16 * localWindows s ∧ off % 16 = 0 then
    some (.rw, ((epOf s ep).windows.getD ((off - 0x41000) / 16) Window.reset).reg)
  else if off = 0x50000 then some (.rw, a.sq)
  else if off = 0x50008 then some (.rw, a.cq)
  else if 0x1000000 ≤ off ∧ off < 0x1101000 ∧ off % 0x1000 = 0x10 then some (.wo, 0)
  else if off = 0x70000 then some (.rw, s.rma.regBase)
  else if 0x71000 ≤ off ∧ off < 0x71800 ∧ off % 32 = 0x10 then some (.ro, w64 (replLag s ((off - 0x71000) / 32)))
  else if 0x71000 ≤ off ∧ off < 0x71800 ∧ off % 32 = 0x18 then some (.ro, w64 (linkOf s ((off - 0x71000) / 32)).batch)
  else none

/-- 64-bit registers of RED, SEC and DIG. -/
def wideData (s : State) (off : Nat) : Option (WideKind × BitVec 64) :=
  if off = 0x80010 then some (.ro, w64 ((spaceOf s s.red.seedSel).elim 0 (·.slots.length)))
  else if off = 0x80018 then some (.ro, w64 ((spaceOf s s.red.seedSel).elim 0 (·.unindexed)))
  else if off = 0x80020 then some (.ro, w64 (filterBytes s))
  else if off = 0x80108 then some (.ro, w64 s.kc.chunks)
  else if off = 0x80110 then some (.ro, w64 s.kc.kernel)
  else if off = 0x80118 then some (.ro, w64 s.kc.overflow)
  else if off = 0x80120 then some (.ro, w64 s.kc.mismatch)
  else if off = 0x80128 then some (.ro, w64 s.kc.decodeFails)
  else if off = 0x90018 then some (.ro, w64 s.sec.serial)
  else if off = 0x90108 then some (.rw, s.sec.csSrc)
  else if off = 0x90110 then some (.rw, s.sec.csDst)
  else if off = 0xA0008 then some (.rw, s.dig.src)
  else if off = 0xA0018 then some (.ro, w64 s.dig.doneBytes)
  else none

/-- Slots whose SLOT_PG is high, a bit for each (R643). -/
def slotLiveMask (s : State) : BitVec 64 :=
  w64 (((List.range 48).filter fun n => (s.cle.slots.getD n SlotPwr.reset).pg).foldl (fun m n => m + 2 ^ n) 0)

/-- 64-bit registers of MED, MMG, ECP, XHL, WLG, CLE and FLT. -/
def wideArray (s : State) (off : Nat) : Option (WideKind × BitVec 64) :=
  if 0xB0600 ≤ off ∧ off < 0xB0780 ∧ off % 8 = 0 then some (.ro, (portOf s ((off - 0xB0600) / 8)).serial)
  else if off = 0xB1030 then some (.ro, s.mmg.nextRefresh)
  else if off = 0xB1040 then some (.rw, s.mmg.ledgerSel)
  else if off = 0xC0010 then some (.rw, s.ecp.drainMask)
  else if off = 0xC0028 then some (.ro, w64 s.ecp.rebuildLeft)
  else if off = 0xC0030 then some (.ro, w64 s.ecp.resyncQueue.length)
  else if off = 0xC0038 then some (.ro, w64 s.ecp.reshapeLeft)
  else if off = 0xD0018 then some (.ro, s.xhl.fenceHeld.setWidth 64)
  else if off = 0xD0030 then some (.ro, w64 s.xhl.peerHb)
  else if off = 0xD8010 then some (.ro, w64 s.wlg.lsn)
  else if off = 0xD8018 then some (.ro, w64 s.wlg.commitLsn)
  else if off = 0xF0008 then some (.rw, s.cle.slotOff)
  else if off = 0xF0010 then some (.ro, slotLiveMask s)
  else if off = 0x100028 then some (.ro, s.flt.huskAddr)
  else none

/-- The 64-bit register whose low half lies at `off`, with what it holds (R12, R729). -/
def wideReg (s : State) (ep off : Nat) : Option (WideKind × BitVec 64) :=
  ((wideClock s off).or (wideHost s ep off)).or ((wideData s off).or (wideArray s off))

/-! ## 32-bit registers -/

/-- GLB registers (R6, R36, R54, R144). -/
def glbRead (s : State) (off : Nat) : BitVec 32 :=
  if off = 0x0 then glbIdent
  else if off = 0x10 then glbModeWord s
  else if off = 0x14 then glbStrapWord s
  else if off = 0x18 then glbReadyWord s
  else 0

/-- PWR_FEED (R70). -/
def pwrFeedWord (s : State) : BitVec 32 :=
  let half (f : Feed) : Nat := feedCode f.st + 8 * b2n f.supplying + 16 * b2n f.valid
  w32 (half s.pwr.feedA + 256 * half s.pwr.feedB + 2 ^ 16 * s.pwr.feedA.level + 2 ^ 24 * s.pwr.feedB.level)

/-- PWR registers (R100 to R105), an offset within the block. -/
def pwrRead (s : State) (off : Nat) : BitVec 32 :=
  if off = 0x00 then pwrStatusWord s
  else if off = 0x04 then pwrFeedWord s
  else if off = 0x08 then w32 s.pwr.bankEnergy
  else if off = 0x0C then w32 s.pwr.bankEsr
  else if off = 0x20 then w32 (b2n s.pwr.ps1En + 2 * b2n s.pwr.ps2En + 4 * b2n s.pwr.ps3En)
  else if off = 0x24 then w32 (0x05 + 0x12C * 2 ^ 8 + 0x258 * 2 ^ 20)
  else if off = 0x28 then w32 s.pwr.idlePs1
  else if off = 0x2C then w32 s.pwr.idlePs2
  else if off = 0x30 then w32 (b2n s.pwr.consent + 2 * s.pwr.guardMin + 2 ^ 16 * s.pwr.thresholdMin)
  else if off = 0x40 then (nextKnown s).elim 0 fun x => w32 x.2
  else 0

/-- LDS registers (R132 to R134). -/
def ldsRead (s : State) (off : Nat) : BitVec 32 :=
  if off = 0x00 then ldsStatusWord s
  else if off = 0x28 then w32 (b2n s.lds.armFwd)
  else if off = 0x38 then BitVec.ofInt 32 s.lds.pairErr
  else if off = 0x3C then BitVec.ofInt 32 s.lds.freqAdj
  else if off = 0x40 then w32 (errBoundNow s)
  else if off = 0x44 then w32 (b2n s.lds.ppsOutEn + 2 * s.lds.inDelay + 2 ^ 16 * s.lds.outDelay)
  else if off = 0x48 then s.lds.periodDef
  else 0

/-- CFG registers (R176 to R178, R398). -/
def cfgRead (s : State) (off : Nat) : BitVec 32 :=
  if off = 0x00 then cfgStatusWord s
  else if off = 0x04 then w32 (s.fuses.floor + 2 ^ 16 * s.cfg.floorPending)
  else if off = 0x0C then lcStatusWord s
  else if off = 0x10 then w32 (s.fuses.slotValid.toNat + 16 * s.fuses.slotRevoked.toNat + 256 * s.cfg.active)
  else if 0x40 ≤ off ∧ off < 0xA0 then s.cfg.idPub.getD ((off - 0x40) / 4) 0
  else 0

/-- HEP registers of an endpoint (R190, R205 to R207). -/
def hepRead (s : State) (ep off : Nat) : BitVec 32 :=
  let e := epOf s ep
  if off = 0x00 then hepStatusWord s ep
  else if off = 0x08 then e.winGen
  else if off = 0x0C then winDrain e
  else if off = 0x18 then w32 (min e.maxTags (tagLimit s) + 2 ^ 16 * min e.maxKib (bufferKib s))
  else if off = 0x1C then w32 (e.linkDowns + 2 ^ 16 * e.hotResets)
  else if 0x1000 ≤ off ∧ off < 0x1000 + 16 * localWindows s ∧ off % 16 = 8 then
    let x := e.windows.getD ((off - 0x1000) / 16) Window.reset
    w32 (b2n x.valid + 2 * b2n x.rd + 4 * b2n x.wr + 2 ^ 8 * x.sizeLog2 + 2 ^ 16 * x.space)
  else 0

/-- DCQ registers of an endpoint (R243 to R245). -/
def dcqRead (s : State) (ep off : Nat) : BitVec 32 :=
  let a := s.dcq.adm.getD ep AdminCtl.reset
  if off = 0x10 then w32 (b2n a.enable + 2 ^ 8 * a.sizeLog2)
  else if off = 0x14 then w32 (b2n (queueOf s (.ring ep 0)).isSome + 2 * b2n a.dbErr + 4 * b2n a.ctxErr)
  else if 0x1000 ≤ off ∧ off < 0x1404 then queueStateWord (queueOf s (.ring ep ((off - 0x1000) / 4)))
  else if 0x2000 ≤ off ∧ off < 0x2404 then (queueOf s (.ring ep ((off - 0x2000) / 4))).elim 0 fun q => w32 (busyMask q)
  else if 0x3000 ≤ off ∧ off < 0x4010 then
    (queueOf s (.ring ep ((off - 0x3000) / 16))).elim 0 fun q => queueGenWord q (off % 16 / 4)
  else 0

/-- NET registers (R276). -/
def netRead (s : State) (off : Nat) : BitVec 32 :=
  if off < 0x10 then netPortWord (s.net.ports.getD (off / 4) NetPort.reset)
  else if off = 0x10 then w32 (b2n s.net.pkeyErr + 2 ^ 16 * qpActive s)
  else if 0x1000 ≤ off ∧ off < 0x5000 then
    (s.net.pkeys.find? fun x => x.idx = (off - 0x1000) / 4).elim 0 fun x => w32 (x.pkey.toNat + 2 ^ 16 * b2n x.valid)
  else 0

/-- The 32-bit words of a replication link (R279). -/
def replRead (x : Repl) (i : Nat) : BitVec 32 :=
  if i = 0 then
    w32 (b2n x.enable + 2 * b2n x.role + 4 * x.remote + 2 ^ 8 * x.keySlot + 2 ^ 16 * x.intervalS)
  else if i = 4 then w32 (x.volume + 2 ^ 16 * x.remoteVolume)
  else if i = 8 then w32 (x.st + 8 * b2n x.authFail)
  else 0

/-- RMA registers (R277 to R279). -/
def rmaRead (s : State) (off : Nat) : BitVec 32 :=
  if off = 0x08 then w32 s.rma.regLen
  else if off = 0x0C then w32 (s.rma.attrTenant + 2 ^ 16 * b2n s.rma.attrRd + 2 ^ 17 * b2n s.rma.attrWr)
  else if off = 0x18 then s.rma.result
  else if off = 0x1C then s.rma.keyGen
  else if off = 0x20 then rmaKeyDrain s
  else if off = 0x24 then rmaStatusWord s
  else if 0x1000 ≤ off ∧ off < 0x1800 then replRead (linkOf s ((off - 0x1000) / 32)) (off % 32)
  else 0

/-- RED registers (R347 to R349, R379, R381). -/
def redRead (s : State) (off : Nat) : BitVec 32 :=
  if off = 0x00 then redStatusWord s
  else if off = 0x04 then w32 (b2n s.red.archNoVerify)
  else if off = 0x08 then w32 s.red.seedSel
  else if off = 0x0C then seedInfoWord s
  else if off = 0x28 then w32 s.red.shares.length
  else if off = 0x2C then w32 (lockCount s)
  else if off = 0x100 then kcStatusWord s
  else if off = 0x104 then kcCtlWord s
  else if 0x140 ≤ off ∧ off < 0x160 then w32 (s.kc.predSlices.getD ((off - 0x140) / 4) 0)
  else 0

/-- SEC registers (R415 to R418); key words and commands are write-only. -/
def secRead (s : State) (off : Nat) : BitVec 32 :=
  if off = 0x00 then secStatusWord s
  else if off = 0x04 then s.sec.alarm.setWidth 32
  else if off = 0x0C then s.sec.keyGen
  else if off = 0x10 then keyDrain s
  else if off = 0x20 then w32 s.sec.piFails
  else if off = 0x100 then csLockWord s
  else if off = 0x118 then w32 s.sec.csLen
  else if off = 0x11C then w32 s.sec.csAadLen
  else if 0x120 ≤ off ∧ off < 0x12C then s.sec.csIv.getD ((off - 0x120) / 4) 0
  else if 0x130 ≤ off ∧ off < 0x140 then s.sec.csTag.getD ((off - 0x130) / 4) 0
  else if off = 0x140 then w32 (s.sec.csState + 4 * s.sec.csResult)
  else 0

/-- DIG registers (R419). The result reads 0 through any endpoint but that of the job (R411). -/
def digRead (s : State) (ep off : Nat) : BitVec 32 :=
  if off = 0x00 then digStatusWord s
  else if off = 0x10 then w32 s.dig.len
  else if 0x40 ≤ off ∧ off < 0x70 ∧ ep = s.dig.ep then s.dig.result.getD ((off - 0x40) / 4) 0
  else 0

/-- MED_PORT_ERR (R465). -/
def medErrWord (m : Med1) : BitVec 32 := w32 (m.crcErrs + 2 ^ 16 * m.replays + 2 ^ 24 * m.retrains)

/-- MED and MMG registers (R463 to R466, R519 to R522). -/
def medRead (s : State) (off : Nat) : BitVec 32 :=
  if off = 0x0 then medStatusWord s
  else if off = 0x4 then w32 s.med.periodMs
  else if 0x100 ≤ off ∧ off < 0x1C0 then medPortWord (portOf s ((off - 0x100) / 4))
  else if 0x200 ≤ off ∧ off < 0x2C0 then w32 (portOf s ((off - 0x200) / 4)).epoch
  else if 0x300 ≤ off ∧ off < 0x3C0 then medErrWord (portOf s ((off - 0x300) / 4))
  else if 0x400 ≤ off ∧ off < 0x4C0 then
    let m := portOf s ((off - 0x400) / 4)
    w32 (m.temp.toNat + 2 ^ 16 * m.tempZone)
  else if off = 0x1000 then mmgStatusWord s
  else if 0x1004 ≤ off ∧ off ≤ 0x1028 then settingWord s.mmg ((off - 0x1004) / 4)
  else if off = 0x1038 then BitVec.ofInt 32 s.mmg.minU
  else if off = 0x1048 then w32 s.mmg.retired
  else if off = 0x104C then w32 s.mmg.softReads
  else if off = 0x1050 then w32 s.mmg.ldpcFails
  else if off = 0x1054 then w32 (s.mmg.spread % 2 ^ 16)
  else if 0x1060 ≤ off ∧ off < 0x1080 then s.mmg.ledgerData.getD ((off - 0x1060) / 4) 0
  else 0

/-- ECP registers (R559 to R561); ECP_CMD is write-only. -/
def ecpRead (s : State) (off : Nat) : BitVec 32 :=
  let e := s.ecp
  if off = 0x00 then ecpStatusWord s
  else if off = 0x08 then w32 (e.cfgK + 2 ^ 5 * e.cfgM)
  else if off = 0x0C then w32 (e.volFirst + 2 ^ 16 * e.volLast)
  else if off = 0x18 then ecpActivityWord s
  else if [0x1C, 0x20, 0x24, 0x50, 0x54].contains off then policyWord e off
  else if off = 0x40 then w32 e.lostChunks
  else if off = 0x44 then w32 e.reshapeVolume
  else if off = 0x48 then w32 e.patrolDay
  else if 0x100 ≤ off ∧ off < 0x1C0 then w32 (modCode (slotOf s ((off - 0x100) / 4)).st)
  else 0

/-- XHL_ERR (R594). -/
def xhlErrWord (s : State) : BitVec 32 := w32 (s.xhl.crcErrs + 2 ^ 16 * s.xhl.replays + 2 ^ 24 * s.xhl.retrains)

/-- XHL registers (R592 to R594) and, from 0x8000, those of the write log (R312, R313). -/
def xhlRead (s : State) (off : Nat) : BitVec 32 :=
  let x := s.xhl
  if off = 0x00 then xhlStatusWord s
  else if off = 0x08 then w32 (x.volFirst + 2 ^ 16 * x.volLast)
  else if off = 0x0C then xhlCtlWord x
  else if off = 0x10 then w32 x.epoch
  else if off = 0x20 then x.quorumCount
  else if off = 0x24 then xhlErrWord s
  else if off = 0x28 then w32 x.deltaLag
  else if off = 0x2C then w32 x.takeovers
  else if off = 0x8000 then wlgStatusWord s
  else if off = 0x8004 then w32 (logFrames s)
  else if off = 0x8008 then w32 (usedFrames s)
  else if off = 0x800C then w32 s.wlg.holds.length
  else if off = 0x8020 then w32 s.wlg.mirrorNs
  else if off = 0x8024 then w32 s.wlg.asmDelay
  else 0

/-- DRC registers (R615 to R617). -/
def drcRead (s : State) (off : Nat) : BitVec 32 :=
  let d := s.drc
  if off = 0x00 then drcStatusWord s
  else if 0x10 ≤ off ∧ off < 0x1C then d.chMask.getD ((off - 0x10) / 4) 0
  else if 0x20 ≤ off ∧ off < 0x2C then d.bgXor.getD ((off - 0x20) / 4) 0
  else if 0x30 ≤ off ∧ off < 0x38 then d.baXor.getD ((off - 0x30) / 4) 0
  else if off = 0x40 ∨ off = 0x44 then drcLimitWord d off
  else if 0x50 ≤ off ∧ off < 0x5C then d.rankXor.getD ((off - 0x50) / 4) 0
  else if off = 0x60 then d.dlySel
  else if off = 0x64 then d.dlyData
  else if 0x100 ≤ off ∧ off < 0x130 then drcEccWord (d.chans.getD ((off - 0x100) / 4) Chan.reset)
  else if 0x200 ≤ off ∧ off < 0x230 then drcTempWord (d.chans.getD ((off - 0x200) / 4) Chan.reset)
  else 0

/-- CLE_FAN of a fan (R643). -/
def fanWord (f : Fan) : BitVec 32 := w32 (f.rpm + 2 ^ 16 * f.duty + 2 ^ 26 * b2n f.fault)

/-- STATUS of a loop (R642). -/
def loopStatusWord (l : Loop) : BitVec 32 :=
  w32 (l.out.toNat + 2 ^ 16 * l.state + 2 ^ 18 * b2n l.sat + 2 ^ 19 * l.missed)

/-- The words of a loop; the staged words read the values in force (R642). -/
def loopRead (l : Loop) (i : Nat) : BitVec 32 :=
  match i with
  | 0 => loopCtlWord l.cfg
  | 1 => l.cfg.manOut ++ l.cfg.sp
  | 2 => l.cfg.ki ++ l.cfg.kp
  | 3 => BitVec.ofNat 16 l.cfg.satLimit ++ l.cfg.kd
  | 4 => l.cfg.outMax ++ l.cfg.outMin
  | 6 => loopStatusWord l
  | 7 => l.failOut ++ l.pv
  | _ => 0

/-- CLE registers (R641 to R643); loop slots 54 to 63 are unused and read 0 (R628). -/
def cleRead (s : State) (off : Nat) : BitVec 32 :=
  if off = 0x00 then cleStatusWord s
  else if 0x20 ≤ off ∧ off < 0x38 then fanWord (s.cle.fans.getD ((off - 0x20) / 4) Fan.reset)
  else if 0x400 ≤ off ∧ off < 0x4C0 then slotStatusWord s ((off - 0x400) / 4)
  else if 0x1000 ≤ off ∧ off < 0x1000 + 32 * 54 then loopRead (loopOf s ((off - 0x1000) / 32)) (off % 32 / 4)
  else 0

/-- FLT registers (R661 to R664). -/
def fltRead (s : State) (off : Nat) : BitVec 32 :=
  let f := s.flt
  if off = 0x00 then fltStatusWord s
  else if off = 0x04 then f.alert.setWidth 32
  else if off = 0x08 then f.alertMask.setWidth 32
  else if off = 0x0C then w32 (b2n f.vec0)
  else if off = 0x10 then w32 (f.cause + 2 ^ 16 * f.causeSrc)
  else if off = 0x18 then w32 (f.testState + 4 * f.testResult + 2 ^ 16 * f.testSrc)
  else if off = 0x20 then f.huskSel
  else if off = 0x24 then f.huskInfo
  else if off = 0x30 then w32 (min 255 f.retLanes + 2 ^ 8 * min 255 f.retCores + 2 ^ 16 * min 255 f.retBanks)
  else if off = 0x34 then w32 f.dramRows
  else if off = 0x40 then f.regionSel
  else if 0x44 ≤ off ∧ off < 0x54 then f.regionData.getD ((off - 0x44) / 4) 0
  else 0

/-- ALM registers (R685, R686). -/
def almRead (s : State) (off : Nat) : BitVec 32 :=
  let a := s.alm
  if off = 0x00 then almStatusWord s
  else if off = 0x04 then w32 a.region
  else if off = 0x08 then a.cursor
  else if off = 0x0C then a.winState.setWidth 32
  else if off = 0x10 then a.wakeFirst
  else if off = 0x14 then a.nextSeq
  else if off = 0x1C then w32 a.norHeld
  else if 0x20 ≤ off ∧ off < 0x40 then a.window.getD ((off - 0x20) / 4) 0
  else 0

/-- UPD registers (R707, R708); UPD_CMD and UPD_DATA are write-only. -/
def updRead (s : State) (off : Nat) : BitVec 32 :=
  if off = 0x00 then updStatusWord s
  else if off = 0x08 then w32 s.upd.offset
  else if off = 0x0C then w32 s.upd.len
  else if off = 0x10 then w32 s.upd.probationS
  else if off = 0x14 then s.upd.fwVer.getD 0 0
  else if off = 0x18 then s.upd.fwVer.getD 1 0
  else if off = 0x1C then s.upd.runVer
  else if off = 0x20 then w32 (probLeft s)
  else 0

/-- A 32-bit register at an aligned BAR0 offset, through an endpoint; 0 where no register is assigned (R13, R729). -/
def regWord (s : State) (ep off : Nat) : BitVec 32 :=
  let r := off % 0x10000
  match off / 0x10000 with
  | 0x00 => glbRead s r
  | 0x01 => pwrRead s r
  | 0x02 => ldsRead s r
  | 0x03 => cfgRead s r
  | 0x04 => hepRead s ep r
  | 0x05 => dcqRead s ep r
  | 0x06 => netRead s r
  | 0x07 => rmaRead s r
  | 0x08 => redRead s r
  | 0x09 => secRead s r
  | 0x0A => digRead s ep r
  | 0x0B => medRead s r
  | 0x0C => ecpRead s r
  | 0x0D => xhlRead s r
  | 0x0E => drcRead s r
  | 0x0F => cleRead s r
  | 0x10 => fltRead s r
  | 0x11 => almRead s r
  | 0x12 => updRead s r
  | _ => 0

/-! ## Words whose read clears a field (R10) -/

/-- An aligned 32-bit register with an RC field (R465, R594, R617, R642, R686). -/
def isRc (off : Nat) : Bool :=
  (decide (0xB0300 ≤ off) && decide (off < 0xB03C0)) || decide (off = 0xD0024) ||
    (decide (0xE0100 ≤ off) && decide (off < 0xE0130)) ||
    (decide (0xF1000 ≤ off) && decide (off < 0xF1000 + 32 * 54) && decide (off % 32 = 0x18)) || decide (off = 0x11001C)

/-- The fields that a read of a word clears. DRC_ECC keeps its DEVICE_FAILED and the device index (R618). -/
def clearRc (off : Nat) (s : State) : State :=
  if 0xB0300 ≤ off ∧ off < 0xB03C0 then
    modPort ((off - 0xB0300) / 4) (fun m => { m with crcErrs := 0, replays := 0, retrains := 0 }) s
  else if off = 0xD0024 then { s with xhl.crcErrs := 0, xhl.replays := 0, xhl.retrains := 0 }
  else if 0xE0100 ≤ off ∧ off < 0xE0130 then
    { s with drc.chans := s.drc.chans.modify ((off - 0xE0100) / 4) fun c =>
        { c with ce := 0, ue := 0 } }
  else if 0xF1000 ≤ off ∧ off < 0xF1000 + 32 * 54 ∧ off % 32 = 0x18 then
    modLoop ((off - 0xF1000) / 32) (fun l => { l with missed := 0 }) s
  else if off = 0x11001C then { s with alm.norHeld := 0 }
  else s

end Sys2Proof.Machine
end

