-- ==== Sys2Proof/Machine/HostAccess.lean ====
section
/-!
DEFINITION. Host accesses of BAR0: 32-bit reads and writes routed to the blocks, the latches and staged halves of 64-bit
registers, and refused forms of access (R10 to R13, R185, R186).
-/
namespace Sys2Proof.Machine

/-- The low half's offset of the 64-bit register that has a half at `off`, with true for its high half (R12). -/
def wideHalf (s : State) (ep off : Nat) : Option (Nat × Bool) :=
  if (wideReg s ep off).isSome then some (off, false)
  else if 4 ≤ off ∧ (wideReg s ep (off - 4)).isSome then some (off - 4, true)
  else none

/-! ## Reads -/

/-- The read answers `w`. -/
def answer (ep : Nat) (w : BitVec 32) (s : State) : State :=
  emit (.readData ep (leBytes 4 w.toNat)) { s with hostData := w.setWidth 64 }

/-- The low half is read: the endpoint's latch takes the high half as it stands in the same cycle (R12). -/
def readLow (ep off : Nat) (v : BitVec 64) (s : State) : State :=
  let latched := (s.hostLatch.filter fun x => !(decide (x.1 = ep) && decide (x.2.1 = off))) ++ [(ep, off, hi32 v)]
  answer ep (lo32 v) { s with hostLatch := latched }

/-- High half that a read through an endpoint returns: its latch, else the high half as it stands (R12). -/
def highHalf (s : State) (ep off : Nat) (v : BitVec 64) : BitVec 32 :=
  ((s.hostLatch.find? fun x => decide (x.1 = ep) && decide (x.2.1 = off)).map (·.2.2)).getD (hi32 v)

/-- A 32-bit read of an aligned BAR0 offset (R10, R12, R13, R681): a low half latches, a high half returns the latch, an RC
field clears, the last word of the Almanac window advances the cursor. -/
def readWord (ep off : Nat) (s : State) : State :=
  match wideHalf s ep off with
  | some (low, high) =>
    match wideReg s ep low with
    | some (_, v) => if high then answer ep (highHalf s ep low v) s else readLow ep low v s
    | none => s
  | none =>
    let s' := answer ep (regWord s ep off) s
    if off = 0x11003C then almReadLast s' else clearRc off s'

/-! ## Writes -/

/-- The written high half is staged for the endpoint (R12). -/
def stageHigh (ep off : Nat) (w : BitVec 32) (s : State) : State :=
  let s := dropStage ep off s
  { s with hostStage := s.hostStage ++ [(ep, off, w)] }

/-- The value that a low-half write commits: the staged high half, else the high half as it stands, 0 for a write-only
register (R12). -/
def committed (s : State) (ep off : Nat) (kind : WideKind) (v : BitVec 64) (lo : BitVec 32) : BitVec 64 :=
  join64 (stagedHi s ep off (if kind = .wo then 0 else hi32 v)) lo

/-- A commit of a 64-bit register with the value `v`; nothing stays staged (R12). -/
def commitWide (ep off : Nat) (v : BitVec 64) (s : State) : State :=
  let s := dropStage ep off s
  match off / 0x10000 with
  | 0x04 => hepCommit ep off v s
  | 0x05 => dcqCommit ep off v s
  | 0x07 => { s with rma.regBase := v }
  | 0x09 => secCommit (off % 0x10000) v s
  | 0x0A => { s with dig.src := v }
  | 0x0B => { s with mmg.ledgerSel := v, mmg.ledgerData := ledgerWords v s }
  | 0x0C => ecpCommit (off % 0x10000) v s
  | 0x0F => slotOffWrite (v.setWidth 48) s
  | _ => s

/-- A low-half write of a 64-bit register (R12). The write-only ones are LDS_CIVIL_SET and the doorbells DB_READY_ABORT, whose
commit takes the staged half itself. -/
def writeLow (ep off : Nat) (kind : WideKind) (v : BitVec 64) (lo : BitVec 32) (s : State) : State :=
  match kind with
  | .ro => s
  | .rw => commitWide ep off (committed s ep off kind v lo) s
  | .wo => if off = 0x20020 then civilSetWrite ep lo s else doorReadyAbort ep ((off - 0x1000000) / 0x1000) lo s

/-- A write of one doorbell page's 32-bit registers (R213). -/
def doorbellWrite (ep off : Nat) (w : BitVec 32) (s : State) : State :=
  let q := (off - 0x1000000) / 0x1000
  let r := off % 0x1000
  if 256 < q then s
  else if r = 0 then doorReady ep q w s
  else if r = 4 then doorAbort ep q w s
  else if r = 8 then doorHead ep q w s
  else s

/-- A 32-bit write of a register that is no half of a 64-bit one, routed to its block (R10, R729). -/
def blockWrite (ep off : Nat) (w : BitVec 32) (s : State) : State :=
  let r := off % 0x10000
  if 0x1000000 ≤ off then doorbellWrite ep off w s
  else
    match off / 0x10000 with
    | 0x01 => pwrWrite r w s
    | 0x02 => ldsWrite r w s
    | 0x03 => cfgWrite r w s
    | 0x04 => hepWrite ep off w s
    | 0x05 => dcqWrite ep off w s
    | 0x06 => netWrite r w s
    | 0x07 => rmaWrite r w s
    | 0x08 => redWrite off w s
    | 0x09 => secWrite ep r w s
    | 0x0A => digWrite ep r w s
    | 0x0B => medWrite r w s
    | 0x0C => ecpWrite r w s
    | 0x0D => if r < 0x8000 then xhlWrite r w s else wlgWrite off w s
    | 0x0E => drcWrite r w s
    | 0x0F => cleWrite r w s
    | 0x10 => fltWrite off w s
    | 0x11 => almWrite r w s
    | 0x12 => updWrite r w s
    | _ => s

/-- A write of the high half of the 64-bit register whose low half lies at `low`: it is staged; a read-only register ignores it
(R10, R12). So does DCQ_ADM_SQ or DCQ_ADM_CQ while ENABLE is 1 (R245), and a doorbell of an absent queue, or before FW, with its record
(R141, R216). -/
def writeHigh (ep low : Nat) (w : BitVec 32) (s : State) : State :=
  match wideReg s ep low with
  | some (.ro, _) => s
  | some _ =>
    if 0x1000000 ≤ low ∧ ¬ doorOpen s ep ((low - 0x1000000) / 0x1000) then doorbellIgnored ep s
    else if (low = 0x50000 ∨ low = 0x50008) ∧ (s.dcq.adm.getD ep AdminCtl.reset).enable then s
    else stageHigh ep low w s
  | none => s

/-- A 32-bit write of an aligned BAR0 offset: a high half is staged, a low half commits, any other register takes the word
(R10, R12, R13). -/
def writeWord (ep off : Nat) (w : BitVec 32) (s : State) : State :=
  match wideHalf s ep off with
  | some (low, true) => writeHigh ep low w s
  | some (low, false) =>
    match wideReg s ep low with
    | some (kind, v) => writeLow ep low kind v w s
    | none => s
  | none => blockWrite ep off w s

/-! ## The forms of access (R186, R203) -/

/-- BAR0 is 32 MiB; a form is served when it is an aligned word, or an aligned doubleword of a 64-bit register (R186). -/
def bar0Served (s : State) (ep off size : Nat) : Bool :=
  decide (off + size ≤ 0x2000000) &&
    ((decide (size = 4) && decide (off % 4 = 0)) ||
      (decide (size = 8) && decide (off % 8 = 0) && (wideReg s ep off).isSome))

/-- A 32-bit BAR0 request through an endpoint: outside the windows with memory space off, refused when misaligned, otherwise
served by `f` (R186, R203). -/
def bar0Word (ep off : Nat) (write : Bool) (f : State → State) (s : State) : State :=
  if epServes s ep then
    if !memOn s ep then outside ep write ((epOf s ep).bar0 + BitVec.ofNat 64 off) s
    else if bar0Served s ep off 4 then f s
    else accessError ep write s
  else s

/-- A write of this offset is taken at this time (R141, R656). A doorbell before FW is ignored by its own rule, with a record
(R216). -/
def writeTaken (s : State) (off : Nat) : Bool :=
  if 0x1000000 ≤ off then !s.glb.held && decide (s.glb.mode ≠ .failstop) else hostWriteOk s (off / 0x10000)

/-- A write that a FAILSTOP of the same cycle keeps from its block: a life-cycle change or an ACTIVATE is refused, any other is ignored
(R172, R656, R696). -/
def cutWrite (off : Nat) (w : BitVec 32) (s : State) : State :=
  if failedNow s && s.glb.hostEp && !s.glb.held then
    if off = 0x30008 then { s with cfg.lcRefused := true }
    else if off = 0x120004 ∧ fld w 0 4 = 4 then updRefuse s
    else s
  else s

/-- A 32-bit write, taken or not at this time. -/
def hostWord (ep off : Nat) (w : BitVec 32) (s : State) : State := if writeTaken s off then writeWord ep off w s else cutWrite off w s

/-! ## The commands -/

/-- REGISTER_WRITE: a 32-bit write of any register (R10, R13, R141, R656). -/
def execRegisterWrite (ep off : Nat) (w : BitVec 32) (s : State) : Host.Outcome State Fault Refusal :=
  .next (bar0Word ep off true (hostWord ep off w) s)

/-- LOW_HALF_READ: a 32-bit read; of the low half of a 64-bit register it loads the endpoint's latch (R12). -/
def execLowHalfRead (ep off : Nat) (s : State) : Host.Outcome State Fault Refusal :=
  .next (bar0Word ep off false (readWord ep off) s)

/-- HIGH_HALF_WRITE: a write of the high half of a 64-bit register, at its own offset, is staged (R12). -/
def execHighHalfWrite (ep off : Nat) (w : BitVec 32) (s : State) : Host.Outcome State Fault Refusal :=
  .next (bar0Word ep off true (fun s =>
    match wideHalf s ep off with
    | some (low, true) => if writeTaken s off then writeHigh ep low w s else s
    | _ => s) s)

/-- LOW_HALF_WRITE: a write of the low half of a 64-bit register commits it with the staged high half (R12). -/
def execLowHalfWrite (ep off : Nat) (w : BitVec 32) (s : State) : Host.Outcome State Fault Refusal :=
  .next (bar0Word ep off true (fun s => if (wideHalf s ep off).any (!·.2) then hostWord ep off w s else s) s)

/-- RC_READ: a 32-bit read; an RC field answers its value and clears (R10, R11). -/
def execRcRead (ep off : Nat) (s : State) : Host.Outcome State Fault Refusal :=
  .next (bar0Word ep off false (readWord ep off) s)

/-- An aligned doubleword of a 64-bit register: read low half first, written high half first (R12, R186). -/
def wideAccess (ep off : Nat) (data : Option (BitVec 64)) (s : State) : State :=
  match data with
  | none =>
    let lo := readWord ep off s
    let hi := readWord ep (off + 4) lo
    let v := join64 (hi.hostData.setWidth 32) (lo.hostData.setWidth 32)
    emit (.readData ep (leBytes 8 v.toNat)) { hi with out := s.out, hostData := v }
  | some v => hostWord ep off (lo32 v) (hostWord ep (off + 4) (hi32 v) s)

/-- A request of any form to BAR0 or BAR4: one whose bytes are all enabled, and whose size and alignment are served, has its effect;
any other is refused (R186, R187). -/
def barAccess (ep bar off size : Nat) (enabled : Bool) (data : Option (BitVec 64)) (s : State) : State :=
  if !enabled then accessError ep data.isSome s
  else if bar = 4 then if bar4Served off size then bar4Access ep off size data s else accessError ep data.isSome s
  else if !bar0Served s ep off size then accessError ep data.isSome s
  else if size = 8 then wideAccess ep off data s
  else
    match data with
    | none => readWord ep off s
    | some v => hostWord ep off (lo32 v) s

/-- BAR_ACCESS_ERROR: a BAR0 or BAR4 request of a given size, alignment and byte enables (R186, R187). -/
def execBarAccessError (ep bar off size : Nat) (acc : BarAccess) (s : State) : Host.Outcome State Fault Refusal :=
  if epServes s ep then
    if memOn s ep then .next (barAccess ep bar off size acc.enabled acc.data s)
    else .next (outside ep acc.data.isSome ((if bar = 4 then (epOf s ep).bar4 else (epOf s ep).bar0) + BitVec.ofNat 64 off) s)
  else .next s

end Sys2Proof.Machine
end

