-- ==== Sys2Proof/Machine/Dispatch.lean ====
section
/-!
DEFINITION. exec: one arm for each command, each a direct call of that command's meaning.
-/
namespace Sys2Proof.Machine

/-- The effect of one command on everything but the queue. -/
def exec (i : Instr) (s : State) : Host.Outcome State Fault Refusal :=
  match i with
  | .registerWrite ep off w => Sys2Proof.Machine.execRegisterWrite ep off w s
  | .lowHalfRead ep off => Sys2Proof.Machine.execLowHalfRead ep off s
  | .highHalfWrite ep off w => Sys2Proof.Machine.execHighHalfWrite ep off w s
  | .lowHalfWrite ep off w => Sys2Proof.Machine.execLowHalfWrite ep off w s
  | .rcRead ep off => Sys2Proof.Machine.execRcRead ep off s
  | .barAccessError ep bar off size acc => Sys2Proof.Machine.execBarAccessError ep bar off size acc s
  | .bar2Request ep ev => Sys2Proof.Machine.execBar2Request ep ev s
  | .bar4Access ep off size data => Sys2Proof.Machine.execBar4Access ep off size data s
  | .supervisorDivergence => Sys2Proof.Machine.execSupervisorDivergence s
  | .watchdogTimeout block n => Sys2Proof.Machine.execWatchdogTimeout block n s
  | .controlPortRequest src reqs => Sys2Proof.Machine.execControlPortRequest src reqs s
  | .chipRstL start => Sys2Proof.Machine.execChipRstL start s
  | .chipRstLLow => Sys2Proof.Machine.execChipRstLLow s
  | .startDone ms => Sys2Proof.Machine.execStartDone ms s
  | .xhlStartTimeout => Sys2Proof.Machine.execXhlStartTimeout s
  | .wakeLExternal => Sys2Proof.Machine.execWakeLExternal s
  | .islandSupplyChange vddioOk mv => Sys2Proof.Machine.execIslandSupplyChange vddioOk mv s
  | .feedClassification feed samples tenCycles run => Sys2Proof.Machine.execFeedClassification feed samples tenCycles run s
  | .rideThroughExpiry => Sys2Proof.Machine.execRideThroughExpiry s
  | .bankDischarge => Sys2Proof.Machine.execBankDischarge s
  | .flushDone => Sys2Proof.Machine.execFlushDone s
  | .gaugeSample g => Sys2Proof.Machine.execGaugeSample g s
  | .budgetCompute rate => Sys2Proof.Machine.execBudgetCompute rate s
  | .budget d => Sys2Proof.Machine.execBudget d s
  | .peerBudgetStale => Sys2Proof.Machine.execPeerBudgetStale s
  | .mainsRtn => Sys2Proof.Machine.execMainsRtn s
  | .pmbusPoll reads => Sys2Proof.Machine.execPmbusPoll reads s
  | .pmbusAlert m0 m1 => Sys2Proof.Machine.execPmbusAlert m0 m1 s
  | .drowseEntry => Sys2Proof.Machine.execDrowseEntry s
  | .dozeEntry => Sys2Proof.Machine.execDozeEntry s
  | .powerStateExit => Sys2Proof.Machine.execPowerStateExit s
  | .scheduledExit => Sys2Proof.Machine.execScheduledExit s
  | .psCtlWrite w => Sys2Proof.Machine.execPsCtlWrite w s
  | .vaultEnter => Sys2Proof.Machine.execVaultEnter s
  | .islandWakeAlarm mainsRtn => Sys2Proof.Machine.execIslandWakeAlarm mainsRtn s
  | .vbatSample mv => Sys2Proof.Machine.execVbatSample mv s
  | .power m => Sys2Proof.Machine.execPower m s
  | .ptpSync sub masters x adj => Sys2Proof.Machine.execPtpSync sub masters x adj s
  | .ptpLoss => Sys2Proof.Machine.execPtpLoss s
  | .ppsInEdge due came adj => Sys2Proof.Machine.execPpsInEdge due came adj s
  | .ppsInMissing => Sys2Proof.Machine.execPpsInMissing s
  | .ppsOutEdge => Sys2Proof.Machine.execPpsOutEdge s
  | .timeSend => Sys2Proof.Machine.execTimeSend s
  | .time m => Sys2Proof.Machine.execTime m s
  | .civilSet ep lo => Sys2Proof.Machine.execCivilSet ep lo s
  | .armFwd => Sys2Proof.Machine.execArmFwd s
  | .armFwdExpiry => Sys2Proof.Machine.execArmFwdExpiry s
  | .leapSmear start positive => Sys2Proof.Machine.execLeapSmear start positive s
  | .lockExpired => Sys2Proof.Machine.execLockExpired s
  | .periodsClosed shares => Sys2Proof.Machine.execPeriodsClosed shares s
  | .periodDefWrite w => Sys2Proof.Machine.execPeriodDefWrite w s
  | .lcChangeRequest w => Sys2Proof.Machine.execLcChangeRequest w s
  | .lcChangeDone => Sys2Proof.Machine.execLcChangeDone s
  | .pePerstL => Sys2Proof.Machine.execPePerstL s
  | .pePerstLDeassert => Sys2Proof.Machine.execPePerstLDeassert s
  | .hotReset drop => Sys2Proof.Machine.execHotReset drop s
  | .linkDown drop => Sys2Proof.Machine.execLinkDown drop s
  | .linkUp ep speed width flit => Sys2Proof.Machine.execLinkUp ep speed width flit s
  | .d3hot ep => Sys2Proof.Machine.execD3hot ep s
  | .busMasterEnableCleared x => Sys2Proof.Machine.execBusMasterEnableCleared x s
  | .busMasterEnableSet ep writes => Sys2Proof.Machine.execBusMasterEnableSet ep writes s
  | .winCommit ep idx w => Sys2Proof.Machine.execWinCommit ep idx w s
  | .transferError ep n what addr => Sys2Proof.Machine.execTransferError ep n what addr s
  | .vectorUnmask ep v => Sys2Proof.Machine.execVectorUnmask ep v s
  | .dbReady ep q w => Sys2Proof.Machine.execDbReady ep q w s
  | .dbAbort ep q w => Sys2Proof.Machine.execDbAbort ep q w s
  | .dbCqHead ep q w => Sys2Proof.Machine.execDbCqHead ep q w s
  | .dbReadyAbort ep q lo => Sys2Proof.Machine.execDbReadyAbort ep q lo s
  | .read q tag words plist media => Sys2Proof.Machine.execRead q tag words plist media s
  | .write q tag words plist => Sys2Proof.Machine.execWrite q tag words plist s
  | .flush q tag words => Sys2Proof.Machine.execFlush q tag words s
  | .discard q tag words => Sys2Proof.Machine.execDiscard q tag words s
  | .rasterHint q tag words => Sys2Proof.Machine.execRasterHint q tag words s
  | .fixity q tag words media => Sys2Proof.Machine.execFixity q tag words media s
  | .retain q tag words => Sys2Proof.Machine.execRetain q tag words s
  | .snapshot q tag words => Sys2Proof.Machine.execSnapshot q tag words s
  | .clone q tag words => Sys2Proof.Machine.execClone q tag words s
  | .snapDelete q tag words => Sys2Proof.Machine.execSnapDelete q tag words s
  | .query q tag words => Sys2Proof.Machine.execQuery q tag words s
  | .createQueue q tag words => Sys2Proof.Machine.execCreateQueue q tag words s
  | .deleteQueue q tag words => Sys2Proof.Machine.execDeleteQueue q tag words s
  | .resetQueue q tag words => Sys2Proof.Machine.execResetQueue q tag words s
  | .createVolume q tag words => Sys2Proof.Machine.execCreateVolume q tag words s
  | .deleteVolume q tag words => Sys2Proof.Machine.execDeleteVolume q tag words s
  | .setPeriod q tag words => Sys2Proof.Machine.execSetPeriod q tag words s
  | .setTime q tag words => Sys2Proof.Machine.execSetTime q tag words s
  | .powerHint q tag words => Sys2Proof.Machine.execPowerHint q tag words s
  | .powerHintLapse => Sys2Proof.Machine.execPowerHintLapse s
  | .asyncEvent q tag words => Sys2Proof.Machine.execAsyncEvent q tag words s
  | .queryDevice q tag words => Sys2Proof.Machine.execQueryDevice q tag words s
  | .coalescingTimeout ep q => Sys2Proof.Machine.execCoalescingTimeout ep q s
  | .adminQueueEnable ep w => Sys2Proof.Machine.execAdminQueueEnable ep w s
  | .adminQueueDisable ep w => Sys2Proof.Machine.execAdminQueueDisable ep w s
  | .fencedCommandStart q tag gen media => Sys2Proof.Machine.execFencedCommandStart q tag gen media s
  | .writeHoldTimeout => Sys2Proof.Machine.execWriteHoldTimeout s
  | .frameReceive f => Sys2Proof.Machine.execFrameReceive f s
  | .pfcXon sub fill => Sys2Proof.Machine.execPfcXon sub fill s
  | .pfcPause sub pause => Sys2Proof.Machine.execPfcPause sub pause s
  | .pfcStuck sub => Sys2Proof.Machine.execPfcStuck sub s
  | .cnpReceive qpn => Sys2Proof.Machine.execCnpReceive qpn s
  | .rateIncrease qpn => Sys2Proof.Machine.execRateIncrease qpn s
  | .cmReq sub req link => Sys2Proof.Machine.execCmReq sub req link s
  | .cmRtu qpn => Sys2Proof.Machine.execCmRtu qpn s
  | .cmDreq qpn => Sys2Proof.Machine.execCmDreq qpn s
  | .roceSend r data => Sys2Proof.Machine.execRoceSend r data s
  | .rdmaWrite r key off data => Sys2Proof.Machine.execRdmaWrite r key off data s
  | .rdmaWriteWithImmediate r key off data imm => Sys2Proof.Machine.execRdmaWriteWithImmediate r key off data imm s
  | .rdmaRead r key off len => Sys2Proof.Machine.execRdmaRead r key off len s
  | .ackTimeout qpn => Sys2Proof.Machine.execAckTimeout qpn s
  | .qpError qpn cause key => Sys2Proof.Machine.execQpError qpn cause key s
  | .pkeyTableWrite idx w => Sys2Proof.Machine.execPkeyTableWrite idx w s
  | .regionRegister => Sys2Proof.Machine.execRegionRegister s
  | .regionDeregister key => Sys2Proof.Machine.execRegionDeregister key s
  | .replicationCut l ship media => Sys2Proof.Machine.execReplicationCut l ship media s
  | .replicationRecord l bytes => Sys2Proof.Machine.execReplicationRecord l bytes s
  | .batchApply l imm => Sys2Proof.Machine.execBatchApply l imm s
  | .batchAck l batch => Sys2Proof.Machine.execBatchAck l batch s
  | .batchResend l media => Sys2Proof.Machine.execBatchResend l media s
  | .replReconnect l => Sys2Proof.Machine.execReplReconnect l s
  | .replEnable l w => Sys2Proof.Machine.execReplEnable l w s
  | .replDisable l w => Sys2Proof.Machine.execReplDisable l w s
  | .writeDataArrival q item data pi => Sys2Proof.Machine.execWriteDataArrival q item data pi s
  | .writeAdmission q tag => Sys2Proof.Machine.execWriteAdmission q tag s
  | .heldWriteReserve => Sys2Proof.Machine.execHeldWriteReserve s
  | .mirror frames => Sys2Proof.Machine.execMirror frames s
  | .mirrorAck lsn q tag gen ok => Sys2Proof.Machine.execMirrorAck lsn q tag gen ok s
  | .fwdFrames q tag frames => Sys2Proof.Machine.execFwdFrames q tag frames s
  | .fwdLsn q tag gen lsn => Sys2Proof.Machine.execFwdLsn q tag gen lsn s
  | .assemblyDelayExpiry v chunk media copies => Sys2Proof.Machine.execAssemblyDelayExpiry v chunk media copies s
  | .assemblyStart v chunk media copies => Sys2Proof.Machine.execAssemblyStart v chunk media copies s
  | .assemblyComplete v chunk => Sys2Proof.Machine.execAssemblyComplete v chunk s
  | .mapEntrySet v chunk => Sys2Proof.Machine.execMapEntrySet v chunk s
  | .fingerprint obj lane => Sys2Proof.Machine.execFingerprint obj lane s
  | .seedLookup v chunk => Sys2Proof.Machine.execSeedLookup v chunk s
  | .verifyOnMatch v chunk lane media => Sys2Proof.Machine.execVerifyOnMatch v chunk lane media s
  | .seedInsert v chunk => Sys2Proof.Machine.execSeedInsert v chunk s
  | .seedSplit tenant => Sys2Proof.Machine.execSeedSplit tenant s
  | .snapshotFreeze v num => Sys2Proof.Machine.execSnapshotFreeze v num s
  | .snapshotDeleted v num => Sys2Proof.Machine.execSnapshotDeleted v num s
  | .kernelEncode v chunk lane => Sys2Proof.Machine.execKernelEncode v chunk lane s
  | .kernelVerify v chunk lane fault => Sys2Proof.Machine.execKernelVerify v chunk lane fault s
  | .kernelDecode obj snap lane media => Sys2Proof.Machine.execKernelDecode obj snap lane media s
  | .dictJob encode cfgSection requester input => Sys2Proof.Machine.execDictJob encode cfgSection requester input s
  | .protectChunk obj lane => Sys2Proof.Machine.execProtectChunk obj lane s
  | .keyLoad slot => Sys2Proof.Machine.execKeyLoad slot s
  | .keyLoadWrapped slot kek => Sys2Proof.Machine.execKeyLoadWrapped slot kek s
  | .keyGenerate slot => Sys2Proof.Machine.execKeyGenerate slot s
  | .keyZeroise slot => Sys2Proof.Machine.execKeyZeroise slot s
  | .drbgFail => Sys2Proof.Machine.execDrbgFail s
  | .drbgRetry ok => Sys2Proof.Machine.execDrbgRetry ok s
  | .drbgReseed => Sys2Proof.Machine.execDrbgReseed s
  | .clkGlitch => Sys2Proof.Machine.execClkGlitch s
  | .voltGlitch => Sys2Proof.Machine.execVoltGlitch s
  | .maskFault src => Sys2Proof.Machine.execMaskFault src s
  | .keyStore reloadOk => Sys2Proof.Machine.execKeyStore reloadOk s
  | .csLock ep w => Sys2Proof.Machine.execCsLock ep w s
  | .csLockTimeout => Sys2Proof.Machine.execCsLockTimeout s
  | .csSeal token slot srcSpace dstSpace => Sys2Proof.Machine.execCsSeal token slot srcSpace dstSpace s
  | .csOpen token slot srcSpace dstSpace => Sys2Proof.Machine.execCsOpen token slot srcSpace dstSpace s
  | .csJobDone => Sys2Proof.Machine.execCsJobDone s
  | .digestStart ep alg space => Sys2Proof.Machine.execDigestStart ep alg space s
  | .digestDone => Sys2Proof.Machine.execDigestDone s
  | .digestRelease ep => Sys2Proof.Machine.execDigestRelease ep s
  | .digestLapse => Sys2Proof.Machine.execDigestLapse s
  | .dmlDetect p => Sys2Proof.Machine.execDmlDetect p s
  | .dmlTraining p ev => Sys2Proof.Machine.execDmlTraining p ev s
  | .dmlTrainTimeout p => Sys2Proof.Machine.execDmlTrainTimeout p s
  | .dmlIdent p d => Sys2Proof.Machine.execDmlIdent p d s
  | .dmlDownRetry p => Sys2Proof.Machine.execDmlDownRetry p s
  | .dmlFlitReceive p rx => Sys2Proof.Machine.execDmlFlitReceive p rx s
  | .dmlRetrainTimeout p => Sys2Proof.Machine.execDmlRetrainTimeout p s
  | .dmlNak p ack => Sys2Proof.Machine.execDmlNak p ack s
  | .dmlReplayTimeout p => Sys2Proof.Machine.execDmlReplayTimeout p s
  | .dmlCompletion p x => Sys2Proof.Machine.execDmlCompletion p x s
  | .telem p t => Sys2Proof.Machine.execTelem p t s
  | .telemMissing p => Sys2Proof.Machine.execTelemMissing p s
  | .moduleEvent p e => Sys2Proof.Machine.execModuleEvent p e s
  | .moduleInserted p => Sys2Proof.Machine.execModuleInserted p s
  | .moduleRemoved p => Sys2Proof.Machine.execModuleRemoved p s
  | .telemPeriodWrite w => Sys2Proof.Machine.execTelemPeriodWrite w s
  | .codewordRead slot die plane block page cw ev => Sys2Proof.Machine.execCodewordRead slot die plane block page cw ev s
  | .suspendIssue slot die => Sys2Proof.Machine.execSuspendIssue slot die s
  | .resumeIssue slot die => Sys2Proof.Machine.execResumeIssue slot die s
  | .relocationSwitch old => Sys2Proof.Machine.execRelocationSwitch old s
  | .gcState slot die media => Sys2Proof.Machine.execGcState slot die media s
  | .wlMove slot die media => Sys2Proof.Machine.execWlMove slot die media s
  | .refreshClass slot die plane block media => Sys2Proof.Machine.execRefreshClass slot die plane block media s
  | .waypointStart => Sys2Proof.Machine.execWaypointStart s
  | .waypointComplete => Sys2Proof.Machine.execWaypointComplete s
  | .ledgerSelect ep w => Sys2Proof.Machine.execLedgerSelect ep w s
  | .stripeClose serial => Sys2Proof.Machine.execStripeClose serial s
  | .stripeComplete serial => Sys2Proof.Machine.execStripeComplete serial s
  | .rejoinTimeout n => Sys2Proof.Machine.execRejoinTimeout n s
  | .join slot => Sys2Proof.Machine.execJoin slot s
  | .fail slot => Sys2Proof.Machine.execFail slot s
  | .patrolNow => Sys2Proof.Machine.execPatrolNow s
  | .reshapeStart => Sys2Proof.Machine.execReshapeStart s
  | .reshapeCancel => Sys2Proof.Machine.execReshapeCancel s
  | .rebuild => Sys2Proof.Machine.execRebuild s
  | .stripeRebuilt serial pos reads => Sys2Proof.Machine.execStripeRebuilt serial pos reads s
  | .resync => Sys2Proof.Machine.execResync s
  | .stripeResync reads => Sys2Proof.Machine.execStripeResync reads s
  | .patrol check => Sys2Proof.Machine.execPatrol check s
  | .reshape media => Sys2Proof.Machine.execReshape media s
  | .moduleDrained n => Sys2Proof.Machine.execModuleDrained n s
  | .maintAdmit => Sys2Proof.Machine.execMaintAdmit s
  | .xhlLinkUp lanes => Sys2Proof.Machine.execXhlLinkUp lanes s
  | .xhlFlitReceive rx => Sys2Proof.Machine.execXhlFlitReceive rx s
  | .xhlNak ack => Sys2Proof.Machine.execXhlNak ack s
  | .xhlReplayTimeout => Sys2Proof.Machine.execXhlReplayTimeout s
  | .xhlLinkDown => Sys2Proof.Machine.execXhlLinkDown s
  | .heartbeatSend => Sys2Proof.Machine.execHeartbeatSend s
  | .heartbeat b => Sys2Proof.Machine.execHeartbeat b s
  | .ident head serial fw sameOwner => Sys2Proof.Machine.execIdent head serial fw sameOwner s
  | .lastGasp => Sys2Proof.Machine.execLastGasp s
  | .flushMessage committed commitLsn => Sys2Proof.Machine.execFlushMessage committed commitLsn s
  | .mapDelta dseq time recs => Sys2Proof.Machine.execMapDelta dseq time recs s
  | .deltaGap => Sys2Proof.Machine.execDeltaGap s
  | .handover vols lsnHigh => Sys2Proof.Machine.execHandover vols lsnHigh s
  | .rebalanceReq => Sys2Proof.Machine.execRebalanceReq s
  | .fwdCmd q tag gen words tenant abort media => Sys2Proof.Machine.execFwdCmd q tag gen words tenant abort media s
  | .fwdData q tag gen kind idx data => Sys2Proof.Machine.execFwdData q tag gen kind idx data s
  | .fwdCpl q tag gen status r0 r1 => Sys2Proof.Machine.execFwdCpl q tag gen status r0 r1 s
  | .bulk m => Sys2Proof.Machine.execBulk m s
  | .nop tc => Sys2Proof.Machine.execNop tc s
  | .pairKey m => Sys2Proof.Machine.execPairKey m s
  | .peerSuspect => Sys2Proof.Machine.execPeerSuspect s
  | .peerLost => Sys2Proof.Machine.execPeerLost s
  | .takeover => Sys2Proof.Machine.execTakeover s
  | .fenceResult => Sys2Proof.Machine.execFenceResult s
  | .fenceRetry => Sys2Proof.Machine.execFenceRetry s
  | .startFenceRetry => Sys2Proof.Machine.execStartFenceRetry s
  | .takeoverEnd trailers => Sys2Proof.Machine.execTakeoverEnd trailers s
  | .enterMaint peer => Sys2Proof.Machine.execEnterMaint peer s
  | .exitMaint => Sys2Proof.Machine.execExitMaint s
  | .rebalance peerBusy => Sys2Proof.Machine.execRebalance peerBusy s
  | .give peerBusy => Sys2Proof.Machine.execGive peerBusy s
  | .unpinPeer confirm => Sys2Proof.Machine.execUnpinPeer confirm s
  | .dramCe c read written => Sys2Proof.Machine.execDramCe c read written s
  | .dramUe c read => Sys2Proof.Machine.execDramUe c read s
  | .patrolScrub c burst written => Sys2Proof.Machine.execPatrolScrub c burst written s
  | .caParityAlert c again => Sys2Proof.Machine.execCaParityAlert c again s
  | .dramRefresh c bank postpone => Sys2Proof.Machine.execDramRefresh c bank postpone s
  | .rfm c bank left => Sys2Proof.Machine.execRfm c bank left s
  | .rhThrottle pa src keepOpen more => Sys2Proof.Machine.execRhThrottle pa src keepOpen more s
  | .rhWindowEnd c bank => Sys2Proof.Machine.execRhWindowEnd c bank s
  | .rowClose c bank => Sys2Proof.Machine.execRowClose c bank s
  | .dimmTempRead c t => Sys2Proof.Machine.execDimmTempRead c t s
  | .dramRetrain c lanes => Sys2Proof.Machine.execDramRetrain c lanes s
  | .dqsDriftCheck c drift lanes => Sys2Proof.Machine.execDqsDriftCheck c drift lanes s
  | .delaySelect w => Sys2Proof.Machine.execDelaySelect w s
  | .loopSample n meas more => Sys2Proof.Machine.execLoopSample n meas more s
  | .missedSample n => Sys2Proof.Machine.execMissedSample n s
  | .loopSaturated n => Sys2Proof.Machine.execLoopSaturated n s
  | .loopCommit n host fw => Sys2Proof.Machine.execLoopCommit n host fw s
  | .avsMarginFail => Sys2Proof.Machine.execAvsMarginFail s
  | .chargeStep => Sys2Proof.Machine.execChargeStep s
  | .fanTachWindow f pulses => Sys2Proof.Machine.execFanTachWindow f pulses s
  | .fanFault f => Sys2Proof.Machine.execFanFault f s
  | .dieHot => Sys2Proof.Machine.execDieHot s
  | .dieOvertemp => Sys2Proof.Machine.execDieOvertemp s
  | .slotPowerOn n => Sys2Proof.Machine.execSlotPowerOn n s
  | .slotEnFollow n => Sys2Proof.Machine.execSlotEnFollow n s
  | .slotPowerFail n => Sys2Proof.Machine.execSlotPowerFail n s
  | .slotPowerRetry n => Sys2Proof.Machine.execSlotPowerRetry n s
  | .slotOffWrite ep w => Sys2Proof.Machine.execSlotOffWrite ep w s
  | .slotPowerOff n => Sys2Proof.Machine.execSlotPowerOff n s
  | .errorReport src e => Sys2Proof.Machine.execErrorReport src e s
  | .husk src addr len write entry => Sys2Proof.Machine.execHusk src addr len write entry s
  | .selfTestStart => Sys2Proof.Machine.execSelfTestStart s
  | .selfTest src pass rows ms => Sys2Proof.Machine.execSelfTest src pass rows ms s
  | .failstop cause src => Sys2Proof.Machine.execFailstop cause src s
  | .blockTest src => Sys2Proof.Machine.execBlockTest src s
  | .wholeChip => Sys2Proof.Machine.execWholeChip s
  | .wholeChipTestEnd fails map => Sys2Proof.Machine.execWholeChipTestEnd fails map s
  | .regionTableChange e => Sys2Proof.Machine.execRegionTableChange e s
  | .huskSelect w => Sys2Proof.Machine.execHuskSelect w s
  | .regionSelect w => Sys2Proof.Machine.execRegionSelect w s
  | .recordClose seq => Sys2Proof.Machine.execRecordClose seq s
  | .norEntryProgram => Sys2Proof.Machine.execNorEntryProgram s
  | .birthRefresh => Sys2Proof.Machine.execBirthRefresh s
  | .almSelect w => Sys2Proof.Machine.execAlmSelect w s
  | .almCursorWrite w => Sys2Proof.Machine.execAlmCursorWrite w s
  | .almWindowAdvance => Sys2Proof.Machine.execAlmWindowAdvance s
  | .almanacClear w => Sys2Proof.Machine.execAlmanacClear w s
  | .clearEraseDone => Sys2Proof.Machine.execClearEraseDone s
  | .updOpen => Sys2Proof.Machine.execUpdOpen s
  | .updDataWrite idx w => Sys2Proof.Machine.execUpdDataWrite idx w s
  | .stagingTimeout => Sys2Proof.Machine.execStagingTimeout s
  | .stageFw slot => Sys2Proof.Machine.execStageFw slot s
  | .stageCfg => Sys2Proof.Machine.execStageCfg s
  | .staged done start => Sys2Proof.Machine.execStaged done start s
  | .updActivate confirm => Sys2Proof.Machine.execUpdActivate confirm s
  | .updRestart confirm => Sys2Proof.Machine.execUpdRestart confirm s
  | .updAbort => Sys2Proof.Machine.execUpdAbort s
  | .updRun start => Sys2Proof.Machine.execUpdRun start s
  | .updateReset start => Sys2Proof.Machine.execUpdateReset start s
  | .fwConfirmed => Sys2Proof.Machine.execFwConfirmed s
  | .fwFallback start => Sys2Proof.Machine.execFwFallback start s
  | .portLink sub lanes => Sys2Proof.Machine.execPortLink sub lanes s
  | .cmRep l key len => Sys2Proof.Machine.execCmRep l key len s
  | .dmlRetrainComplete trained => Sys2Proof.Machine.execDmlRetrainComplete trained s
  | .d0Entry ep => Sys2Proof.Machine.execD0Entry ep s
  | .dieHotCleared => Sys2Proof.Machine.execDieHotCleared s
  | .splitDelayExpiry => Sys2Proof.Machine.execSplitDelayExpiry s
  | .vaultProposal => Sys2Proof.Machine.execVaultProposal s

end Sys2Proof.Machine
end

