-- ==== Sys2Proof/Machine/Tick.lean ====
section
/-!
DEFINITION. What happens as time passes, whatever is commanded: the clocks, the end of a cycle, an exit to PS0 and an entry to VAULT
in progress.
-/
namespace Sys2Proof.Machine

/-- Device time, civil time and high-water civil time over one nanosecond (R107, R109 to R111, R115, R126). Civil time follows
device time, moved by a slew of 100 ppm, by a leap correction of 1 ms/s, and by 0.1 ppm back in dead reckoning. The learned
correction is applied every second of a holdover (R121), and the island's copies follow each change, and each second (R98). -/
def clockTick (s : State) : State :=
  let t := s.lds.deviceTime + 1
  let sl := if t % 10000 = 0 then sgn s.lds.slew else 0
  let lp : Int := if s.lds.leapActive && decide (t % 1000 = 0) then (if s.lds.leapPositive then -1 else 1) else 0
  let dead := decide (s.lds.refState = .holdover)
  let hd : Int := if dead && decide (t % 10000000 = 0) then -1 else 0
  let s := if dead && decide (t % 1000000000 = 0) then { s with lds.freqAdj := learnedRate s } else s
  let s := bumpHigh { s with
    lds.deviceTime := t
    lds.cycleHigh := s.lds.highWater
    lds.slew := s.lds.slew - sl
    lds.civilOffset := s.lds.civilOffset + sl + lp + hd }
  if sl = 0 ∧ lp = 0 ∧ hd = 0 ∧ t % 1000000000 ≠ 0 then s else keepCivil s

/-- A 100 ms window of die time begins: what waited for its share may leave (R517). -/
def diesOn (s : State) : State := if now s % 100000000 = 0 then (activePorts s).foldl (fun s p => dmlRun p s) s else s

/-- One nanosecond: the island counts whatever the head does (R98). In a head that is not held an ACTIVATE takes effect, a life-cycle change, a raise of the floor
and a clear of the Almanac go on by one action (R167, R173, R683), and the changes of region tables are applied (R647); once it has left BLANK the cycle ends (R125, R128), the clocks
advance, idleness is judged, an exit to PS0, a charge step or an entry to VAULT in progress goes on, and
the die scheduler's windows turn. -/
def tick (s : State) : State :=
  let s := { s with island := islandTick s.island }
  if s.glb.held then s
  else
    let s := regionsOn { clearOn (floorOn (lcOn (activateOn s))) with flt.alertNow := 0, alm.cycleNew := 0 }
    if lifeCycle s = .blank then s
    else diesOn (vaultOn (chargeOn (raiseOn (watchIdle (clockTick (endCycle (clearZeroed { endNet s with red.expiring := [], red.before := [], red.hintsBefore := [], kc.ctlBefore := none, sec.before := none })))))))

end Sys2Proof.Machine
end

