-- ==== Sys2Proof/Safety.lean ====
section
/-!
DEFINITION. What a safe run is, in the terms that statements use: a step that answers a next state, the invariants of the
model's data, what must never go back, and which parts of State a command may change.
-/
namespace Sys2Proof.Machine

/-- A step from `s` answers a next state. -/
def goesOn (s : State) : Prop := ∃ t, step s = .next t

/-! ## Invariants -/

/-- Every byte memory of the state has the canonical form. -/
def memoriesWf (s : State) : Bool :=
  Memory.wf 0 s.lz && Memory.wf 0 s.sram && Memory.wf norErased s.nor && Memory.wf 0 s.upd.staging

/-- The fixed numbers of parts: endpoints, module ports, slots, fans, loops, DRAM channels and network ports (R15, R181, R628). -/
def countsHold (s : State) : Bool :=
  decide (s.eps.length = 4) && decide (s.med.ports.length = 48) && decide (s.ecp.slots.length = 48) &&
    decide (s.cle.slots.length = 48) && decide (s.cle.fans.length = 6) && decide (s.drc.chans.length = 12) &&
    decide (s.net.ports.length = 4)

/-- No fuse group counts more than its 8 fuses, and the version floor lies in its field (R167, R171). -/
def fusesWf (s : State) : Prop := s.fuses.p ≤ 8 ∧ s.fuses.o ≤ 8 ∧ s.fuses.d ≤ 8

/-- Life-cycle fuses and the version floor of `t` are at least those of `s`: a blown fuse is never restored (R167, R171, R174). -/
def fusesKeep (s t : State) : Prop :=
  s.fuses.p ≤ t.fuses.p ∧ s.fuses.o ≤ t.fuses.o ∧ s.fuses.d ≤ t.fuses.d ∧ s.fuses.floor ≤ t.fuses.floor

/-- The Almanac window holds what the chosen region and cursor find (R680): the record's bytes with VALID, and OPEN while it is
open; zeros with NOT_YET or GONE. -/
def windowHolds (t : State) : Prop :=
  match almFind t with
  | (some r, _) => t.alm.window = recordWindow r ∧ t.alm.winState = if r.isOpen then 3 else 1
  | (none, notYet) => t.alm.window = List.replicate 8 0 ∧ t.alm.winState = if notYet then 8 else 4

/-! ## The parts of State and what a command may change -/

/-- The parts of State, one for each field. -/
inductive Part where
  /-- mode, straps, readiness -/
  | glb
  /-- supply guardian -/
  | pwr
  /-- Acorn island -/
  | island
  /-- time -/
  | lds
  /-- one-time fuses -/
  | fuses
  /-- configuration checks and life cycle -/
  | cfg
  /-- configuration image in use -/
  | img
  /-- PCIe endpoints -/
  | eps
  /-- read latches -/
  | hostLatch
  /-- staged high halves -/
  | hostStage
  /-- command queues -/
  | dcq
  /-- network side -/
  | net
  /-- remote memory and replication -/
  | rma
  /-- write log -/
  | wlg
  /-- data reduction -/
  | red
  /-- kernel coder -/
  | kc
  /-- security -/
  | sec
  /-- digest service -/
  | dig
  /-- module links -/
  | med
  /-- media management and ledger -/
  | mmg
  /-- erasure coding -/
  | ecp
  /-- crosshead link -/
  | xhl
  /-- DRAM -/
  | drc
  /-- loops, cooling, slot power -/
  | cle
  /-- faults and self-test -/
  | flt
  /-- Almanac -/
  | alm
  /-- update -/
  | upd
  /-- xSPI NOR -/
  | nor
  /-- landing zone -/
  | lz
  /-- SRAM host region -/
  | sram
  /-- data of the last host read -/
  | hostData
  /-- what has left the head -/
  | out
  /-- counter of open values -/
  | freeCtr
  /-- the queue of commands -/
  | pending
  deriving DecidableEq, Repr

/-- A part is the same in two states. -/
def Part.same (p : Part) (s t : State) : Prop :=
  match p with
  | .glb => t.glb = s.glb
  | .pwr => t.pwr = s.pwr
  | .island => t.island = s.island
  | .lds => t.lds = s.lds
  | .fuses => t.fuses = s.fuses
  | .cfg => t.cfg = s.cfg
  | .img => t.img = s.img
  | .eps => t.eps = s.eps
  | .hostLatch => t.hostLatch = s.hostLatch
  | .hostStage => t.hostStage = s.hostStage
  | .dcq => t.dcq = s.dcq
  | .net => t.net = s.net
  | .rma => t.rma = s.rma
  | .wlg => t.wlg = s.wlg
  | .red => t.red = s.red
  | .kc => t.kc = s.kc
  | .sec => t.sec = s.sec
  | .dig => t.dig = s.dig
  | .med => t.med = s.med
  | .mmg => t.mmg = s.mmg
  | .ecp => t.ecp = s.ecp
  | .xhl => t.xhl = s.xhl
  | .drc => t.drc = s.drc
  | .cle => t.cle = s.cle
  | .flt => t.flt = s.flt
  | .alm => t.alm = s.alm
  | .upd => t.upd = s.upd
  | .nor => t.nor = s.nor
  | .lz => t.lz = s.lz
  | .sram => t.sram = s.sram
  | .hostData => t.hostData = s.hostData
  | .out => t.out = s.out
  | .freeCtr => t.freeCtr = s.freeCtr
  | .pending => t.pending = s.pending

/-- Parts that an event record may change: a record of severity WARNING or higher may complete a waiting ASYNC_EVENT, and so move a
queue, its tenant's period and the interrupts (R238, R667). -/
def eventParts : List Part := [.pwr, .island, .lds, .eps, .dcq, .net, .red, .xhl, .flt, .alm, .out]

/-- Parts that an event may change whose handling may end in FAILSTOP (R656). -/
def stopParts : List Part := eventParts ++ [.glb, .cfg, .wlg, .upd, .nor]

/-- Every part that a command may change. A part that a command's row does not list is untouched by it, whatever its operands. -/
def mayChange : Instr → List Part
  | .registerWrite .. => stopParts ++ [.hostLatch, .hostStage, .rma, .kc, .sec, .dig, .med, .mmg, .ecp, .drc, .cle, .hostData]
  | .lowHalfRead .. => eventParts ++ [.hostLatch, .med, .drc, .cle, .hostData]
  | .highHalfWrite .. => eventParts ++ [.hostStage]
  | .lowHalfWrite .. => stopParts ++ [.hostLatch, .hostStage, .rma, .kc, .sec, .dig, .med, .mmg, .ecp, .drc, .cle, .hostData]
  | .rcRead .. => eventParts ++ [.hostLatch, .med, .drc, .cle, .hostData]
  | .barAccessError .. => stopParts ++ [.hostLatch, .hostStage, .rma, .kc, .sec, .dig, .med, .mmg, .ecp, .drc, .cle, .hostData]
  | .bar2Request .. => eventParts ++ [.lz, .sram]
  | .bar4Access .. => eventParts ++ [.hostData]
  | .supervisorDivergence => stopParts
  | .watchdogTimeout .. => stopParts
  | .controlPortRequest .. => eventParts
  | .chipRstL .. => stopParts ++ [.fuses, .img, .hostLatch, .hostStage, .rma, .kc, .sec, .dig, .med, .mmg, .ecp, .drc, .cle, .lz, .sram, .freeCtr]
  | .chipRstLLow => [.glb, .island, .eps, .net, .med, .xhl, .cle, .flt]
  | .startDone .. => stopParts ++ [.med, .mmg, .ecp, .freeCtr]
  | .xhlStartTimeout => [.med, .xhl, .out]
  | .wakeLExternal => [.pwr, .island]
  | .islandSupplyChange .. => [.island]
  | .feedClassification .. => eventParts
  | .rideThroughExpiry => eventParts ++ [.glb, .wlg, .ecp, .cle, .nor]
  | .bankDischarge => eventParts ++ [.glb, .wlg, .ecp, .cle, .nor]
  | .flushDone => eventParts ++ [.glb, .wlg, .med, .mmg, .ecp, .cle, .nor]
  | .gaugeSample .. => [.pwr]
  | .budgetCompute .. => eventParts
  | .budget .. => eventParts
  | .peerBudgetStale => eventParts
  | .mainsRtn => [.island]
  | .pmbusPoll .. => stopParts
  | .pmbusAlert .. => stopParts
  | .drowseEntry => [.pwr]
  | .dozeEntry => [.pwr]
  | .powerStateExit => [.pwr, .eps, .dcq, .cle, .out]
  | .scheduledExit => [.pwr, .eps, .dcq, .cle, .out]
  | .psCtlWrite .. => [.pwr, .eps, .dcq, .cle, .out]
  | .vaultEnter => eventParts ++ [.glb, .wlg, .med, .mmg, .ecp, .nor, .freeCtr]
  | .islandWakeAlarm .. => eventParts ++ [.freeCtr]
  | .vbatSample .. => [.island]
  | .power .. => [.pwr, .xhl, .cle, .out]
  | .ptpSync .. => eventParts ++ [.freeCtr]
  | .ptpLoss => eventParts
  | .ppsInEdge .. => eventParts ++ [.freeCtr]
  | .ppsInMissing => eventParts
  | .ppsOutEdge => [.lds]
  | .timeSend => [.pwr, .lds, .xhl, .out]
  | .time .. => eventParts
  | .civilSet .. => eventParts ++ [.hostStage]
  | .armFwd => [.lds]
  | .armFwdExpiry => [.lds]
  | .leapSmear .. => eventParts
  | .lockExpired => eventParts ++ [.mmg]
  | .periodsClosed .. => eventParts
  | .periodDefWrite .. => [.lds]
  | .lcChangeRequest .. => [.cfg]
  | .lcChangeDone => eventParts ++ [.fuses, .cfg, .sec, .cle, .nor, .lz, .sram]
  | .pePerstL => eventParts ++ [.hostLatch, .hostStage, .wlg, .sec, .dig, .freeCtr]
  | .pePerstLDeassert => [.eps]
  | .hotReset .. => eventParts
  | .linkDown .. => eventParts
  | .linkUp .. => eventParts
  | .d3hot .. => [.eps, .dcq]
  | .busMasterEnableCleared .. => [.eps, .dcq]
  | .busMasterEnableSet .. => eventParts
  | .winCommit .. => eventParts
  | .transferError .. => stopParts ++ [.rma, .kc, .sec, .dig, .med, .mmg, .ecp, .lz, .freeCtr]
  | .vectorUnmask .. => [.eps, .out]
  | .dbReady .. => eventParts ++ [.cle]
  | .dbAbort .. => eventParts ++ [.wlg, .dig]
  | .dbCqHead .. => eventParts
  | .dbReadyAbort .. => eventParts ++ [.hostStage, .wlg, .dig, .cle]
  | .read .. => stopParts ++ [.rma, .kc, .sec, .dig, .med, .mmg, .ecp, .lz]
  | .write .. => stopParts ++ [.rma, .kc, .sec, .dig, .med, .mmg, .ecp, .lz]
  | .flush .. => stopParts ++ [.rma, .kc, .sec, .dig, .med, .mmg, .ecp, .lz]
  | .discard .. => stopParts ++ [.rma, .kc, .sec, .dig, .med, .mmg, .ecp, .lz]
  | .rasterHint .. => stopParts ++ [.rma, .kc, .sec, .dig, .med, .mmg, .ecp, .lz]
  | .fixity .. => stopParts ++ [.rma, .kc, .sec, .dig, .med, .mmg, .ecp, .lz]
  | .retain .. => stopParts ++ [.rma, .kc, .sec, .dig, .med, .mmg, .ecp, .lz]
  | .snapshot .. => stopParts ++ [.rma, .kc, .sec, .dig, .med, .mmg, .ecp, .lz]
  | .clone .. => stopParts ++ [.rma, .kc, .sec, .dig, .med, .mmg, .ecp, .lz]
  | .snapDelete .. => stopParts ++ [.rma, .kc, .sec, .dig, .med, .mmg, .ecp, .lz]
  | .query .. => stopParts ++ [.rma, .kc, .sec, .dig, .med, .mmg, .ecp, .lz]
  | .createQueue .. => stopParts ++ [.rma, .kc, .sec, .dig, .med, .mmg, .ecp, .lz]
  | .deleteQueue .. => stopParts ++ [.rma, .kc, .sec, .dig, .med, .mmg, .ecp, .lz]
  | .resetQueue .. => stopParts ++ [.rma, .kc, .sec, .dig, .med, .mmg, .ecp, .lz]
  | .createVolume .. => stopParts ++ [.rma, .kc, .sec, .dig, .med, .mmg, .ecp, .lz]
  | .deleteVolume .. => stopParts ++ [.rma, .kc, .sec, .dig, .med, .mmg, .ecp, .lz]
  | .setPeriod .. => stopParts ++ [.rma, .kc, .sec, .dig, .med, .mmg, .ecp, .lz]
  | .setTime .. => stopParts ++ [.rma, .kc, .sec, .dig, .med, .mmg, .ecp, .lz]
  | .powerHint .. => stopParts ++ [.rma, .kc, .sec, .dig, .med, .mmg, .ecp, .lz]
  | .powerHintLapse => [.dcq]
  | .asyncEvent .. => stopParts ++ [.rma, .kc, .sec, .dig, .med, .mmg, .ecp, .lz]
  | .queryDevice .. => stopParts ++ [.rma, .kc, .sec, .dig, .med, .mmg, .ecp, .lz]
  | .coalescingTimeout .. => [.eps, .dcq, .out]
  | .adminQueueEnable .. => eventParts
  | .adminQueueDisable .. => eventParts
  | .fencedCommandStart .. => stopParts ++ [.rma, .kc, .sec, .dig, .med, .mmg, .ecp, .lz]
  | .writeHoldTimeout => eventParts ++ [.wlg]
  | .frameReceive .. => eventParts ++ [.rma, .cle, .freeCtr]
  | .pfcXon .. => [.net, .out]
  | .pfcPause .. => [.net, .out]
  | .pfcStuck .. => eventParts
  | .cnpReceive .. => [.net]
  | .rateIncrease .. => [.net]
  | .cmReq .. => eventParts ++ [.rma, .cle, .freeCtr]
  | .cmRtu .. => [.net]
  | .cmDreq .. => eventParts ++ [.rma]
  | .roceSend .. => eventParts ++ [.rma, .cle, .freeCtr]
  | .rdmaWrite .. => eventParts ++ [.rma, .cle, .lz, .freeCtr]
  | .rdmaWriteWithImmediate .. => eventParts ++ [.rma, .wlg, .dig, .cle, .lz, .freeCtr]
  | .rdmaRead .. => eventParts ++ [.rma, .cle, .freeCtr]
  | .ackTimeout .. => eventParts ++ [.rma, .freeCtr]
  | .qpError .. => eventParts ++ [.rma]
  | .pkeyTableWrite .. => [.net]
  | .regionRegister => eventParts ++ [.rma]
  | .regionDeregister .. => eventParts ++ [.rma]
  | .replicationCut .. => stopParts ++ [.rma, .kc, .sec, .med, .mmg, .ecp]
  | .replicationRecord .. => eventParts ++ [.rma, .cle, .freeCtr]
  | .batchApply .. => stopParts ++ [.rma, .kc, .sec, .med, .mmg, .ecp, .cle]
  | .batchAck .. => eventParts ++ [.rma, .mmg, .ecp]
  | .batchResend .. => stopParts ++ [.rma, .kc, .sec, .med, .mmg, .ecp]
  | .replReconnect .. => eventParts ++ [.rma]
  | .replEnable .. => eventParts ++ [.rma, .mmg, .ecp]
  | .replDisable .. => eventParts ++ [.rma, .mmg, .ecp]
  | .writeDataArrival .. => eventParts ++ [.wlg, .sec]
  | .writeAdmission .. => eventParts ++ [.wlg, .sec]
  | .heldWriteReserve => eventParts ++ [.wlg, .sec]
  | .mirror .. => eventParts ++ [.wlg, .kc]
  | .mirrorAck .. => eventParts ++ [.wlg]
  | .fwdFrames .. => eventParts ++ [.wlg, .kc, .sec]
  | .fwdLsn .. => eventParts ++ [.wlg]
  | .assemblyDelayExpiry .. => stopParts ++ [.kc, .sec, .med, .mmg, .ecp]
  | .assemblyStart .. => stopParts ++ [.kc, .sec, .med, .mmg, .ecp]
  | .assemblyComplete .. => eventParts ++ [.wlg, .kc]
  | .mapEntrySet .. => eventParts ++ [.wlg, .kc, .mmg, .ecp]
  | .fingerprint .. => [.wlg]
  | .seedLookup .. => eventParts ++ [.wlg]
  | .verifyOnMatch .. => stopParts ++ [.kc, .sec, .med, .mmg, .ecp]
  | .seedInsert .. => [.pwr, .wlg, .red, .xhl, .out]
  | .seedSplit .. => eventParts ++ [.wlg, .ecp]
  | .snapshotFreeze .. => eventParts ++ [.mmg, .ecp]
  | .snapshotDeleted .. => eventParts ++ [.mmg, .ecp]
  | .kernelEncode .. => [.wlg, .kc]
  | .kernelVerify .. => eventParts ++ [.wlg, .kc]
  | .kernelDecode .. => stopParts ++ [.kc, .sec, .med, .mmg, .ecp]
  | .dictJob .. => eventParts ++ [.kc]
  | .protectChunk .. => stopParts ++ [.sec, .med, .mmg, .ecp]
  | .keyLoad .. => eventParts ++ [.rma, .sec, .mmg]
  | .keyLoadWrapped .. => eventParts ++ [.rma, .sec, .mmg]
  | .keyGenerate .. => eventParts ++ [.rma, .sec, .mmg]
  | .keyZeroise .. => eventParts ++ [.rma, .sec, .mmg]
  | .drbgFail => stopParts ++ [.sec, .dig, .cle, .lz, .sram]
  | .drbgRetry .. => stopParts ++ [.rma, .sec, .dig, .mmg, .cle, .lz, .sram]
  | .drbgReseed => [.sec]
  | .clkGlitch => stopParts ++ [.sec, .dig, .cle, .lz, .sram]
  | .voltGlitch => stopParts ++ [.sec, .dig, .cle, .lz, .sram]
  | .maskFault .. => eventParts ++ [.wlg, .kc, .sec, .dig, .cle, .lz, .sram]
  | .keyStore .. => stopParts ++ [.sec, .dig, .cle, .lz, .sram]
  | .csLock .. => eventParts ++ [.sec]
  | .csLockTimeout => eventParts ++ [.sec, .freeCtr]
  | .csSeal .. => [.sec]
  | .csOpen .. => [.sec]
  | .csJobDone => eventParts ++ [.rma, .sec, .mmg, .lz, .sram]
  | .digestStart .. => eventParts ++ [.dig]
  | .digestDone => eventParts ++ [.dig, .lz]
  | .digestRelease .. => eventParts ++ [.dig]
  | .digestLapse => [.dig]
  | .dmlDetect .. => [.med, .cle]
  | .dmlTraining .. => eventParts ++ [.med, .freeCtr]
  | .dmlTrainTimeout .. => eventParts ++ [.med, .mmg, .ecp]
  | .dmlIdent .. => stopParts ++ [.fuses, .rma, .kc, .sec, .dig, .med, .mmg, .ecp, .cle, .lz, .sram, .freeCtr]
  | .dmlDownRetry .. => [.med]
  | .dmlFlitReceive .. => eventParts ++ [.med, .freeCtr]
  | .dmlRetrainTimeout .. => eventParts ++ [.med, .mmg, .ecp]
  | .dmlNak .. => eventParts ++ [.med]
  | .dmlReplayTimeout .. => eventParts ++ [.med]
  | .dmlCompletion .. => eventParts ++ [.med, .mmg, .ecp]
  | .telem .. => stopParts ++ [.fuses, .rma, .kc, .sec, .dig, .med, .mmg, .ecp, .cle, .lz, .sram, .freeCtr]
  | .telemMissing .. => eventParts ++ [.med]
  | .moduleEvent .. => eventParts ++ [.med, .mmg, .ecp]
  | .moduleInserted .. => eventParts ++ [.med, .cle]
  | .moduleRemoved .. => eventParts ++ [.med, .mmg, .ecp, .cle]
  | .telemPeriodWrite .. => [.med, .cle, .out]
  | .codewordRead .. => eventParts ++ [.rma, .med, .mmg, .ecp, .freeCtr]
  | .suspendIssue .. => [.med, .mmg, .out]
  | .resumeIssue .. => [.med, .out]
  | .relocationSwitch .. => eventParts ++ [.rma, .wlg, .med, .mmg, .ecp, .freeCtr]
  | .gcState .. => stopParts ++ [.kc, .sec, .med, .mmg, .ecp]
  | .wlMove .. => stopParts ++ [.kc, .sec, .med, .mmg, .ecp]
  | .refreshClass .. => stopParts ++ [.kc, .sec, .med, .mmg, .ecp]
  | .waypointStart => eventParts ++ [.med, .mmg, .ecp]
  | .waypointComplete => eventParts ++ [.wlg, .med, .mmg, .ecp, .upd]
  | .ledgerSelect .. => eventParts ++ [.hostStage, .mmg]
  | .stripeClose .. => [.med, .ecp, .out]
  | .stripeComplete .. => eventParts ++ [.med, .mmg, .ecp]
  | .rejoinTimeout .. => eventParts ++ [.ecp]
  | .join .. => eventParts ++ [.ecp]
  | .fail .. => eventParts ++ [.ecp]
  | .patrolNow => eventParts ++ [.ecp]
  | .reshapeStart => eventParts ++ [.mmg, .ecp]
  | .reshapeCancel => eventParts ++ [.mmg, .ecp]
  | .rebuild => eventParts ++ [.ecp]
  | .stripeRebuilt .. => stopParts ++ [.kc, .sec, .med, .mmg, .ecp]
  | .resync => eventParts ++ [.ecp]
  | .stripeResync .. => stopParts ++ [.sec, .med, .mmg, .ecp]
  | .patrol .. => stopParts ++ [.sec, .med, .mmg, .ecp]
  | .reshape .. => stopParts ++ [.rma, .kc, .sec, .med, .mmg, .ecp, .freeCtr]
  | .moduleDrained .. => eventParts ++ [.med, .mmg, .ecp]
  | .maintAdmit => eventParts ++ [.ecp]
  | .xhlLinkUp .. => eventParts ++ [.freeCtr]
  | .xhlFlitReceive .. => eventParts ++ [.wlg, .cle, .freeCtr]
  | .xhlNak .. => eventParts ++ [.wlg]
  | .xhlReplayTimeout => eventParts ++ [.wlg]
  | .xhlLinkDown => eventParts ++ [.glb, .wlg, .freeCtr]
  | .heartbeatSend => [.pwr, .xhl, .out]
  | .heartbeat .. => eventParts ++ [.glb, .wlg, .med, .freeCtr]
  | .ident .. => eventParts ++ [.glb, .sec]
  | .lastGasp => eventParts ++ [.glb, .wlg, .freeCtr]
  | .flushMessage .. => eventParts ++ [.wlg]
  | .mapDelta .. => eventParts ++ [.wlg, .sec, .mmg, .ecp]
  | .deltaGap => eventParts ++ [.wlg]
  | .handover .. => eventParts ++ [.glb, .wlg]
  | .rebalanceReq => eventParts ++ [.glb, .freeCtr]
  | .fwdCmd .. => stopParts ++ [.rma, .kc, .sec, .dig, .med, .mmg, .ecp, .cle, .lz]
  | .fwdData .. => stopParts ++ [.rma, .kc, .sec, .dig, .med, .mmg, .ecp, .cle, .lz]
  | .fwdCpl .. => eventParts ++ [.wlg]
  | .bulk .. => eventParts ++ [.glb, .wlg, .sec, .mmg, .ecp]
  | .nop .. => []
  | .pairKey .. => eventParts ++ [.glb, .sec, .mmg, .freeCtr]
  | .peerSuspect => eventParts ++ [.wlg]
  | .peerLost => eventParts ++ [.glb, .wlg, .freeCtr]
  | .takeover => eventParts ++ [.glb, .med, .freeCtr]
  | .fenceResult => stopParts
  | .fenceRetry => [.med, .xhl, .out]
  | .startFenceRetry => [.med, .xhl, .out]
  | .takeoverEnd .. => eventParts ++ [.glb, .rma, .wlg, .med, .mmg, .ecp, .freeCtr]
  | .enterMaint .. => eventParts ++ [.glb]
  | .exitMaint => [.glb, .xhl]
  | .rebalance .. => eventParts ++ [.glb]
  | .give .. => eventParts ++ [.glb]
  | .unpinPeer .. => [.pwr, .mmg, .xhl, .out]
  | .dramCe .. => stopParts ++ [.kc, .dig, .drc]
  | .dramUe .. => stopParts ++ [.kc, .dig, .drc]
  | .patrolScrub .. => stopParts ++ [.kc, .dig, .drc]
  | .caParityAlert .. => [.drc, .out]
  | .dramRefresh .. => [.drc, .out]
  | .rfm .. => [.drc, .out]
  | .rhThrottle .. => eventParts ++ [.drc]
  | .rhWindowEnd .. => eventParts ++ [.drc]
  | .rowClose .. => [.drc, .out]
  | .dimmTempRead .. => stopParts ++ [.drc]
  | .dramRetrain .. => eventParts ++ [.drc]
  | .dqsDriftCheck .. => [.drc]
  | .delaySelect .. => [.drc]
  | .loopSample .. => eventParts ++ [.cle]
  | .missedSample .. => eventParts ++ [.cle]
  | .loopSaturated .. => eventParts ++ [.cle]
  | .loopCommit .. => [.cle]
  | .avsMarginFail => stopParts
  | .chargeStep => [.cle, .out]
  | .fanTachWindow .. => [.cle]
  | .fanFault .. => eventParts ++ [.cle]
  | .dieHot => eventParts ++ [.cle]
  | .dieOvertemp => stopParts
  | .slotPowerOn .. => eventParts ++ [.rma, .cle, .freeCtr]
  | .slotEnFollow .. => [.cle]
  | .slotPowerFail .. => eventParts ++ [.med, .mmg, .ecp, .cle]
  | .slotPowerRetry .. => eventParts ++ [.rma, .cle, .freeCtr]
  | .slotOffWrite .. => eventParts ++ [.hostStage, .cle]
  | .slotPowerOff .. => eventParts ++ [.med, .mmg, .ecp, .cle]
  | .errorReport .. => stopParts ++ [.kc, .freeCtr]
  | .husk .. => eventParts ++ [.wlg, .kc, .freeCtr]
  | .selfTestStart => eventParts ++ [.med, .mmg, .ecp]
  | .selfTest .. => stopParts ++ [.rma, .med, .mmg, .ecp, .freeCtr]
  | .failstop .. => stopParts
  | .blockTest .. => eventParts
  | .wholeChip => eventParts
  | .wholeChipTestEnd .. => stopParts ++ [.rma, .kc, .sec, .dig, .med, .mmg, .ecp, .drc, .lz, .sram, .freeCtr]
  | .regionTableChange .. => [.flt]
  | .huskSelect .. => [.flt]
  | .regionSelect .. => [.flt]
  | .recordClose .. => [.island, .alm]
  | .norEntryProgram => [.alm, .nor]
  | .birthRefresh => [.alm, .nor]
  | .almSelect .. => [.alm]
  | .almCursorWrite .. => [.alm]
  | .almWindowAdvance => [.alm, .hostData]
  | .almanacClear .. => eventParts ++ [.nor]
  | .clearEraseDone => [.alm, .nor]
  | .updOpen => [.upd]
  | .updDataWrite .. => [.upd]
  | .stagingTimeout => [.upd]
  | .stageFw .. => [.upd]
  | .stageCfg => [.upd]
  | .staged .. => stopParts ++ [.fuses, .img, .hostLatch, .hostStage, .rma, .kc, .sec, .dig, .med, .mmg, .ecp, .drc, .cle, .lz, .sram, .freeCtr]
  | .updActivate .. => eventParts ++ [.upd]
  | .updRestart .. => eventParts ++ [.ecp, .upd]
  | .updAbort => [.upd]
  | .updRun .. => eventParts ++ [.glb, .rma, .wlg, .kc, .sec, .med, .mmg, .ecp, .drc, .upd, .lz, .sram, .freeCtr]
  | .updateReset .. => stopParts ++ [.fuses, .img, .hostLatch, .hostStage, .rma, .kc, .sec, .dig, .med, .mmg, .ecp, .drc, .cle, .lz, .sram, .freeCtr]
  | .fwConfirmed => eventParts ++ [.glb, .cfg, .ecp, .upd, .nor, .freeCtr]
  | .fwFallback .. => stopParts ++ [.fuses, .img, .hostLatch, .hostStage, .rma, .kc, .sec, .dig, .med, .mmg, .ecp, .drc, .cle, .lz, .sram, .freeCtr]
  | .portLink .. => eventParts
  | .cmRep .. => eventParts ++ [.rma]
  | .dmlRetrainComplete .. => eventParts ++ [.med, .freeCtr]
  | .d0Entry .. => eventParts
  | .dieHotCleared => [.cle]
  | .splitDelayExpiry => [.med, .xhl, .out]
  | .vaultProposal => [.pwr, .xhl, .out]

end Sys2Proof.Machine
end

