-- ==== Sys2Proof/Certificates/Slice0/Obligations.lean ====
section
/-!
DEFINITION. The statements for the provers: for every command at least one clause whose conclusion is that exec answers a next
state, with what that state holds, under hypotheses on the state and the operands alone; the frame of every command; invariants
of every step; the step; the reset state.
-/
namespace Sys2Proof.Machine

/-- The command that a fetch of a tag puts into the list (R214). -/
def fetchedAs (q : QueueId) (tag : Nat) (words : List (BitVec 32)) (s : State) : Cmd :=
  (fetchCmd q tag (slotWords s q tag words) s).1

/-- The state right after that fetch (R214). -/
def afterFetch (q : QueueId) (tag : Nat) (words : List (BitVec 32)) (s : State) : State :=
  (fetchCmd q tag (slotWords s q tag words) s).2

/-- The state in which a fetched command without a page list begins to execute on this head. -/
def begunState (q : QueueId) (tag : Nat) (words : List (BitVec 32)) (s : State) : State :=
  setCmdState (fetchedAs q tag words s) (fun c => { c with st := .begun })
    (setCmdState (fetchedAs q tag words s) (fun c => { c with plist := [] }) (afterFetch q tag words s))

/-- A ready tag is fetched and its command, of opcode `op`, is started at once: no abort waits for it and FENCE does not keep
it back (R214, R215, R288). -/
def startsNow (op : Nat) (q : QueueId) (tag : Nat) (words : List (BitVec 32)) (s : State) : Bool :=
  fetchable s q tag && decide (cmdOpcode (fetchedAs q tag words s) = op) && !abortWaits s q tag &&
    mayStart (afterFetch q tag words s) (fetchedAs q tag words s)

/-- A command of opcode `op` starts, passes every check of R223, names no page list, and is executed on this head: its
volume is neither the peer's nor moving, and a command that R236 forwards finds the head out of MAINTENANCE. -/
def runsHere (op : Nat) (q : QueueId) (tag : Nat) (words : List (BitVec 32)) (s : State) : Bool :=
  let c := fetchedAs q tag words s
  let u := afterFetch q tag words s
  startsNow op q tag words s && decide (firstChecks u c = 0) && !dlist c &&
    decide (laterChecks (setCmdState c (fun x => { x with plist := [] }) u) c (chanTenant u q) = 0) &&
    (!forwards op || (decide (s.glb.mode ≠ .maintenance) && owns s (cmdVolume c) && !s.xhl.moving.contains (cmdVolume c)))

end Sys2Proof.Machine

open Sys2Proof Sys2Proof.Machine

/-- A step with command c in front of the queue is exec of c on the state with the rest of the queue, so commands act first
in, first out. On an empty queue one nanosecond of device time passes (the model's choice, log entry 6). -/
def Obligations.StepRunsTheFrontCommand : Prop :=
  (∀ (c : Instr) (rest : List Instr) (s : State), s.pending = c :: rest → step s = exec c { s with pending := rest }) ∧
  (∀ s : State, s.pending = [] → step s = .next (tick s))

/-- What reset leaves: MODE is STARTING, no GLB_READY flag, no alert, the queue empty, the register values that R104, R134,
R278, R379, R593 and R662 give; the memories are in canonical form, every part of fixed number has its number, and no
life-cycle fuse is blown. HEAD_SEL and NVM_MODE read their straps. -/
def Obligations.ResetState : Prop :=
  State.reset.glb.mode = .starting ∧ glbReadyWord State.reset = 0 ∧ State.reset.glb.headConflict = false ∧
  State.reset.glb.headSel = Config.strapHeadSel ∧ State.reset.glb.nvmMode = Config.strapNvmMode ∧
  State.reset.pwr.idlePs1 = 200 ∧ State.reset.pwr.idlePs2 = 50 ∧ State.reset.lds.periodDef = 0 ∧
  State.reset.rma.regBase = 0 ∧ kcCtlWord State.reset = 0xC ∧ State.reset.xhl.link = 0 ∧
  State.reset.xhl.autoRebalance = true ∧ State.reset.xhl.hbLossMs = 50 ∧ State.reset.xhl.splitDelayMs = 20 ∧
  State.reset.flt.alert = 0 ∧ State.reset.flt.alertMask = 0 ∧ State.reset.upd.st = .idle ∧ State.reset.pending = [] ∧
  memoriesWf State.reset = true ∧ countsHold State.reset = true ∧ fusesWf State.reset

/-- The frame of every command: a part of State that Safety.mayChange does not list for the command is as before in the next
state, whatever the operands; the queue is one of the parts that no command changes, and a step takes only its first command
from it. -/
def Obligations.CommandsTouchOnlyTheirParts : Prop :=
  (∀ (c : Instr) (s t : State) (p : Part), exec c s = .next t → p ∉ mayChange c → p.same s t) ∧
  (∀ (c : Instr) (s t : State), exec c s = .next t → t.pending = s.pending) ∧
  (∀ (s t : State), step s = .next t → t.pending = s.pending.tail)

/-- Every byte memory of the State (the landing zone, the SRAM windows, the NOR and the staging buffer) lists rising addresses
and no value that an unlisted address reads as; every step keeps that. -/
def Obligations.MemoriesStayCanonical : Prop :=
  ∀ s t : State, memoriesWf s = true → step s = .next t → memoriesWf t = true

/-- The life cycle and the configuration floor go only forward: from a state whose fuse groups hold at most 8 fuses, every
step leaves at most 8 in each and none fewer than before, and the floor is never lowered. -/
def Obligations.FusesNeverGoBack : Prop :=
  ∀ s t : State, fusesWf s → step s = .next t → fusesWf t ∧ fusesKeep s t

/-- No command stops the block: exec answers a next state for every command, its operands and every state, and so does every
step (no fault, no refusal). -/
def Obligations.EveryStepGoesOn : Prop :=
  (∀ (c : Instr) (s : State), ∃ t, exec c s = .next t) ∧ (∀ s : State, goesOn s)

/-- Accesses to BAR0 that an endpoint serves. LOW_HALF_READ of a 64-bit register answers its low half, holds its high half for
the endpoint, and changes nothing else (R12). HIGH_HALF_WRITE to a 64-bit register that is not read-only, a doorbell or an
enabled admin ring stages the word for the endpoint, and changes nothing else. LOW_HALF_WRITE to RMA_REG_BASE writes it, with
the staged high half or the one it has, and drops the staged half. RC_READ of XHL_ERR answers the word and clears its three
counts (R10). REGISTER_WRITE to FLT_ALERT clears the bits written as 1 and changes nothing else (R659). BAR_ACCESS_ERROR, an
access that is not served or not enabled, sets ACC_ERR and answers no data (R186). -/
def Obligations.RegisterAccessesComplete : Prop :=
  (∀ (s : State) (ep off : Nat) (k : WideKind) (v : BitVec 64),
    epServes s ep = true → memOn s ep = true → bar0Served s ep off 4 = true → wideReg s ep off = some (k, v) →
    ∃ t, exec (.lowHalfRead ep off) s = .next t ∧ t.hostData = (lo32 v).setWidth 64 ∧
      { t with hostLatch := s.hostLatch, hostData := s.hostData, out := s.out } = s ∧ (∀ x, highHalf t ep off x = hi32 v)) ∧
  (∀ (s : State) (ep low : Nat) (k : WideKind) (v : BitVec 64) (w : BitVec 32),
    epServes s ep = true → memOn s ep = true → bar0Served s ep (low + 4) 4 = true → writeTaken s (low + 4) = true →
    wideReg s ep (low + 4) = none → wideReg s ep low = some (k, v) → k ≠ .ro → low < 0x1000000 → low ≠ 0x50000 →
    low ≠ 0x50008 →
    ∃ t, exec (.highHalfWrite ep (low + 4) w) s = .next t ∧ { t with hostStage := s.hostStage } = s ∧
      (∀ x, stagedHi t ep low x = w)) ∧
  (∀ (s : State) (ep : Nat) (w : BitVec 32), epServes s ep = true → memOn s ep = true → writeTaken s 0x70000 = true →
    ∃ t, exec (.lowHalfWrite ep 0x70000 w) s = .next t ∧
      t.rma.regBase = join64 (stagedHi s ep 0x70000 (hi32 s.rma.regBase)) w ∧
      { t with rma.regBase := s.rma.regBase, hostStage := s.hostStage } = s ∧ (∀ x, stagedHi t ep 0x70000 x = x)) ∧
  (∀ (s : State) (ep : Nat), epServes s ep = true → memOn s ep = true →
    ∃ t, exec (.rcRead ep 0xD0024) s = .next t ∧ t.hostData = (xhlErrWord s).setWidth 64 ∧
      t.xhl = { s.xhl with crcErrs := 0, replays := 0, retrains := 0 }) ∧
  (∀ (s : State) (ep : Nat) (w : BitVec 32), epServes s ep = true → memOn s ep = true → writeTaken s 0x100004 = true →
    ∃ t, exec (.registerWrite ep 0x100004 w) s = .next t ∧ t.flt.alert = s.flt.alert &&& ~~~((w &&& 0x3FFFE).setWidth 18) ∧
      { t with flt.alert := s.flt.alert } = s) ∧
  (∀ (s : State) (ep bar off size : Nat) (enabled : Bool) (data : Option (BitVec 64)),
    epServes s ep = true → memOn s ep = true → ep < s.eps.length →
    enabled = false ∨ (if bar = 4 then bar4Served off size else bar0Served s ep off size) = false →
    ∃ t, exec (.barAccessError ep bar off size { enabled := enabled, data := data }) s = .next t ∧
      (epOf t ep).accErr = true ∧ t.hostData = s.hostData)

/-- BAR2 and BAR4 requests of an endpoint that is up, with memory space enabled and in D0. BAR2_REQUEST within an enabled
window of the LZ moves the bytes of a write to the window's target and leaves the scratch memory; a read within an enabled
window that does not stay in flight answers the bytes of the target space and changes nothing else; a request in no enabled
window sets UR_SEEN and, when it was clear, keeps the address, and leaves both memories (R189, R192). BAR4_ACCESS of 4 bytes
writes the data word of an entry of the MSI-X table, or answers it and leaves the endpoints as they were (R204). -/
def Obligations.WindowAccessesComplete : Prop :=
  (∀ (s : State) (ep off len : Nat) (bs : List (BitVec 8)) (stays : Bool) (x : Window),
    epInUse s ep = true → (epOf s ep).linkUp = true → (epOf s ep).mse = true → (epOf s ep).d3 = false →
    windowFor s ep off len true = some x → x.space = 0 →
    ∃ t, exec (.bar2Request ep (.request off len (some bs) stays)) s = .next t ∧
      t.lz = memWriteBytes 0 s.lz (x.tgt + off % 2 ^ 30) (bs.take len) ∧ t.sram = s.sram) ∧
  (∀ (s : State) (ep off len : Nat) (x : Window),
    epInUse s ep = true → (epOf s ep).linkUp = true → (epOf s ep).mse = true → (epOf s ep).d3 = false →
    windowFor s ep off len false = some x →
    exec (.bar2Request ep (.request off len none false)) s = .next (emit (.readData ep (spaceRead s x.space (x.tgt + off % 2
        ^ 30) len)) s)) ∧
  (∀ (s : State) (ep off len : Nat) (data : Option (List (BitVec 8))) (stays : Bool),
    epInUse s ep = true → (epOf s ep).linkUp = true → (epOf s ep).mse = true → (epOf s ep).d3 = false →
    (epOf s ep).urSeen = false → ep < s.eps.length → windowFor s ep off len data.isSome = none →
    ∃ t, exec (.bar2Request ep (.request off len data stays)) s = .next t ∧ (epOf t ep).urSeen = true ∧
      (epOf t ep).urAddr = (epOf s ep).bar2 + BitVec.ofNat 64 off ∧ t.lz = s.lz ∧ t.sram = s.sram) ∧
  (∀ (s : State) (ep i : Nat) (v : BitVec 64),
    epServes s ep = true → memOn s ep = true → ep < s.eps.length → i < (epOf s ep).msix.length → i < 257 →
    ∃ t, exec (.bar4Access ep (16 * i + 8) 4 (some v)) s = .next t ∧
      ((epOf t ep).msix = (epOf s ep).msix.modify i fun m => { m with data := lo32 v })) ∧
  (∀ (s : State) (ep i : Nat), epServes s ep = true → memOn s ep = true → i < 257 →
    ∃ t, exec (.bar4Access ep (16 * i + 8) 4 none) s = .next t ∧
      t.hostData = (((epOf s ep).msix.getD i MsixEntry.reset).data).setWidth 64 ∧ t.eps = s.eps)

/-- PE_PERST_L, outside CHIP_RST_L, drops every held high half and staged half and leaves no queue of an endpoint that exists
(R202). PE_PERST_L_DEASSERT ends the reset of every endpoint and changes nothing else. HOT_RESET of an endpoint in use that is
up takes its link down, clears its Bus Master Enable, counts in its hot resets and holds its queues (R201). LINK_DOWN takes
the link down, counts in its link losses and not in its hot resets, and keeps the reads outstanding at the head of the
endpoint's waiting reads (R199, R202). LINK_UP, in a form the endpoint may train to, with its control port in RUN, sets its
link, speed, width and Flit mode. -/
def Obligations.EndpointResetsComplete : Prop :=
  (∀ (s : State), s.glb.held = false →
    ∃ t, exec .pePerstL s = .next t ∧ t.hostLatch = [] ∧ t.hostStage = [] ∧
      (∀ q ∈ t.dcq.queues, ∀ ep ∈ List.range (numEps s), queueOn ep q.id = false)) ∧
  (∀ (s : State), s.glb.held = false →
    exec .pePerstLDeassert s = .next ({ s with eps := s.eps.map fun e => { e with inReset := false } })) ∧
  (∀ (s : State) (ep unacked : Nat), epInUse s ep = true → (epOf s ep).linkUp = true → ep < s.eps.length →
    ∃ t, exec (.hotReset { ep := ep, unacked := unacked }) s = .next t ∧ (epOf t ep).linkUp = false ∧
      (epOf t ep).bme = false ∧ (epOf t ep).hotResets = satAdd 65535 (epOf s ep).hotResets 1 ∧
      (∀ q ∈ t.dcq.queues, queueOn ep q.id = true → q.held = true)) ∧
  (∀ (s : State) (ep unacked : Nat), epInUse s ep = true → (epOf s ep).linkUp = true → ep < s.eps.length →
    ∃ t, exec (.linkDown { ep := ep, unacked := unacked }) s = .next t ∧ (epOf t ep).linkUp = false ∧
      (epOf t ep).linkDowns = satAdd 65535 (epOf s ep).linkDowns 1 ∧ (epOf t ep).hotResets = (epOf s ep).hotResets ∧
      (epOf t ep).reads = [] ∧
      (epOf t ep).engineWait = ((epOf s ep).reads.filter fun r => r.kind ≠ 2) ++ (epOf s ep).engineWait ∧
      (epOf t ep).dataWait = ((epOf s ep).reads.filter fun r => r.kind = 2) ++ (epOf s ep).dataWait ∧
      (epOf t ep).posted = lastN unacked (epOf s ep).posted) ∧
  (∀ (s : State) (ep speed width : Nat) (flit : Bool),
    epInUse s ep = true → s.glb.hostEp = true → (epOf s ep).inReset = false → (epOf s ep).linkUp = false →
    ctlState s (epSrc ep) = .run → linkForm s speed width flit = true → ep < s.eps.length →
    ∃ t, exec (.linkUp ep speed width flit) s = .next t ∧ (epOf t ep).linkUp = true ∧ (epOf t ep).speed = speed ∧
      (epOf t ep).width = width ∧ (epOf t ep).flit = flit)

/-- For an endpoint in use whose link is up: D3HOT puts it in D3hot and holds its queues (R200); D0_ENTRY puts it in D0;
BUS_MASTER_ENABLE_CLEARED clears its Bus Master Enable and holds its queues; BUS_MASTER_ENABLE_SET sets it; VECTOR_UNMASK
clears the mask bit of an entry of its MSI-X table and leaves the Function Mask (R204). WIN_COMMIT through an endpoint that
serves its memory space takes the window with its target and adds one to the window table generation, and where the window is
not allowed sets WIN_ERR and leaves the table and the generation (R190, R191). -/
def Obligations.EndpointEnablesComplete : Prop :=
  (∀ (s : State) (ep : Nat), epInUse s ep = true → (epOf s ep).linkUp = true → ep < s.eps.length →
    ∃ t, exec (.d3hot ep) s = .next t ∧ (epOf t ep).d3 = true ∧
      (∀ q ∈ t.dcq.queues, queueOn ep q.id = true → q.held = true)) ∧
  (∀ (s : State) (ep : Nat), epInUse s ep = true → (epOf s ep).linkUp = true → ep < s.eps.length →
    ∃ t, exec (.d0Entry ep) s = .next t ∧ (epOf t ep).d3 = false) ∧
  (∀ (s : State) (ep : Nat) (writes : List (Nat × BitVec 32)),
    epInUse s ep = true → (epOf s ep).linkUp = true → ep < s.eps.length →
    ∃ t, exec (.busMasterEnableCleared { ep := ep, writes := writes }) s = .next t ∧ (epOf t ep).bme = false ∧
      (∀ q ∈ t.dcq.queues, queueOn ep q.id = true → q.held = true)) ∧
  (∀ (s : State) (ep : Nat) (writes : List (Nat × BitVec 32)),
    epInUse s ep = true → (epOf s ep).linkUp = true → ep < s.eps.length →
    ∃ t, exec (.busMasterEnableSet ep writes) s = .next t ∧ (epOf t ep).bme = true ∧
      (epOf t ep).mse = (configWrites s writes (epOf s ep)).mse ∧
      (epOf t ep).bar0 = (configWrites s writes (epOf s ep)).bar0) ∧
  (∀ (s : State) (ep i : Nat) (w : BitVec 32),
    epServes s ep = true → memOn s ep = true → hostWriteOk s 0x04 = true → ep < s.eps.length → i < localWindows s →
    i < (epOf s ep).windows.length → winRefused s w (((epOf s ep).windows.getD i Window.reset).reg).toNat = false →
    ∃ t, exec (.winCommit ep i w) s = .next t ∧ (epOf t ep).winGen = (epOf s ep).winGen + 1 ∧
      ((epOf t ep).windows.getD i Window.reset).valid = bitOf w 0 ∧
      ((epOf t ep).windows.getD i Window.reset).tgt = (((epOf s ep).windows.getD i Window.reset).reg).toNat) ∧
  (∀ (s : State) (ep i : Nat) (w : BitVec 32),
    epServes s ep = true → memOn s ep = true → hostWriteOk s 0x04 = true → ep < s.eps.length → i < localWindows s →
    winRefused s w (((epOf s ep).windows.getD i Window.reset).reg).toNat = true →
    ∃ t, exec (.winCommit ep i w) s = .next t ∧ (epOf t ep).winErr = true ∧ (epOf t ep).windows = (epOf s ep).windows ∧
      (epOf t ep).winGen = (epOf s ep).winGen) ∧
  (∀ (s : State) (ep v : Nat),
    epInUse s ep = true → (epOf s ep).linkUp = true → ep < s.eps.length → v < (epOf s ep).msix.length →
    ∃ t, exec (.vectorUnmask ep (some v)) s = .next t ∧ ((epOf t ep).msix.getD v MsixEntry.reset).ctl &&& 1 = 0 ∧
      (epOf t ep).msixMask = (epOf s ep).msixMask)

/-- CIVIL_SET commits the staged high half with the word written. A value not more than 1 s ahead of civil time, or any value
while ARM_FWD is 1, becomes civil time: CIVIL_VALID is 1, ARM_FWD is 0, SET_REFUSED stands, a held step stays held unless
ARM_FWD authorised the set, and high-water civil time is not lower. A value more than 1 s ahead with ARM_FWD 0 leaves civil
time, CIVIL_VALID and high-water civil time and sets SET_REFUSED. ARM_FWD sets the bit; the time it runs from is that of the
write which changed it from 0 to 1; ARM_FWD_EXPIRY 10 s after that clears it; both change nothing else. -/
def Obligations.CivilTimeIsSet : Prop :=
  (∀ (s : State) (ep : Nat) (lo : BitVec 32),
    epServes s ep = true → memOn s ep = true → hostWriteOk s 0x02 = true →
    (join64 (stagedHi s ep 0x20020 0) lo).toInt - civilNow s ≤ 1000000000 ∨ s.lds.armFwd = true →
    ∃ t, exec (.civilSet ep lo) s = .next t ∧ civilNow t = (join64 (stagedHi s ep 0x20020 0) lo).toInt ∧
      t.lds.civilValid = true ∧ t.lds.armFwd = false ∧ t.lds.setRefused = s.lds.setRefused ∧
      t.lds.stepHeld = (s.lds.stepHeld && !s.lds.armFwd) ∧ (∀ h ∈ s.lds.highWater, h ≤ highWater t)) ∧
  (∀ (s : State) (ep : Nat) (lo : BitVec 32),
    epServes s ep = true → memOn s ep = true → hostWriteOk s 0x02 = true →
    1000000000 < (join64 (stagedHi s ep 0x20020 0) lo).toInt - civilNow s → s.lds.armFwd = false →
    ∃ t, exec (.civilSet ep lo) s = .next t ∧ civilNow t = civilNow s ∧ t.lds.setRefused = true ∧
      t.lds.civilValid = s.lds.civilValid ∧ t.lds.highWater = s.lds.highWater) ∧
  (∀ (s : State), hostWriteOk s 0x02 = true →
    exec .armFwd s = .next ({ s with lds.armFwd := true, lds.armAt := if s.lds.armFwd then s.lds.armAt else now s })) ∧
  (∀ (s : State), s.glb.held = false → s.lds.armAt + 10000000000 ≤ now s →
    exec .armFwdExpiry s = .next ({ s with lds.armFwd := false }))

/-- PTP_SYNC of the master in use, which counts as the sixteenth exchange in a row within 100 ns, locks PTP and makes civil
time valid; with PTP first in the image's order the reference is LOCKED_PTP, and where PTP disciplines this head and no set
committed in this cycle, the offset waits as the correction of the cycle. PTP_LOSS 4 s after the last Sync, without a 1PPS
lock, ends the lock and turns LOCKED_PTP into HOLDOVER from now on. PPS_IN_EDGE, the board delay removed: the sixteenth in a
row within 100 ns locks 1PPS, and where 1PPS disciplines this head and no set committed in this cycle, the time by which the
edge came before the boundary waits as the correction of the cycle; an edge with civil time invalid or more than 100 ms off
counts as missing, and the third such ends the lock. PPS_IN_MISSING 3 s after the last good edge ends the lock likewise.
PPS_OUT_EDGE at a second boundary, with the output enabled and civil time valid, raises 1PPS_OUT now. LEAP_SMEAR starts or
ends the correction and leaves civil time. -/
def Obligations.TimeReferencesLock : Prop :=
  (∀ (s : State) (sub : Nat) (masters : List PtpAnnounce) (x : PtpExchange) (adj : Int),
    alive s = true → ptpOurs s sub x = true →
    (∀ b ∈ bestMaster masters, b.sender = x.sender ∧ s.lds.grandmaster = some b.gm) → s.lds.ptpLocked = false →
    15 ≤ s.lds.ptpRun → x.utcValid = true → (ptpOffset x).natAbs ≤ 100000 →
    ∃ t, exec (.ptpSync sub masters x adj) s = .next t ∧ t.lds.ptpLocked = true ∧ t.lds.civilValid = true ∧
      t.lds.ptpRun = s.lds.ptpRun + 1 ∧ t.lds.lastSync = now s ∧
      (s.img.time.refOrder.head? = some 1 → t.lds.ownState = .lockedPtp) ∧
      (disciplines s 1 = true ∧ s.lds.setAt ≠ some (now s) → t.lds.corr = some (ptpOffset x / 1000))) ∧
  (∀ (s : State), alive s = true → s.lds.lastSync + 4000000000 ≤ now s → s.lds.ppsLocked = false →
    ∃ t, exec .ptpLoss s = .next t ∧ t.lds.ptpLocked = false ∧ t.lds.ptpRun = 0 ∧
      (s.lds.ownState = .lockedPtp → t.lds.ownState = .holdover ∧ t.lds.holdoverSince = now s)) ∧
  (∀ (s : State) (due came adj : Int),
    alive s = true → s.img.board.ppsInEn = true → s.lds.civilValid = true →
    (due + 10 * s.lds.inDelay - came).natAbs ≤ 100000 → s.lds.ppsLocked = false → 15 ≤ s.lds.ppsRun →
    ∃ t, exec (.ppsInEdge due came adj) s = .next t ∧ t.lds.ppsLocked = true ∧ t.lds.ppsRun = s.lds.ppsRun + 1 ∧
      t.lds.ppsMissing = 0 ∧ t.lds.ppsGoodAt = now s ∧ (s.img.time.refOrder.head? = some 2 → t.lds.ownState = .lockedPps) ∧
      (disciplines s 2 = true ∧ s.lds.setAt ≠ some (now s) → t.lds.corr = some ((due + 10 * s.lds.inDelay - came) / 1000))) ∧
  (∀ (s : State) (due came adj : Int),
    alive s = true → s.img.board.ppsInEn = true →
    s.lds.civilValid = false ∨ 100000000000 < (due + 10 * s.lds.inDelay - came).natAbs → s.lds.ppsMissing < 2 →
    exec (.ppsInEdge due came adj) s = .next ({ s with lds.ppsRun := 0, lds.ppsMissing := s.lds.ppsMissing + 1 })) ∧
  (∀ (s : State) (due came adj : Int),
    alive s = true → s.img.board.ppsInEn = true →
    s.lds.civilValid = false ∨ 100000000000 < (due + 10 * s.lds.inDelay - came).natAbs → 2 ≤ s.lds.ppsMissing →
    ∃ t, exec (.ppsInEdge due came adj) s = .next t ∧ t.lds.ppsLocked = false ∧ t.lds.ppsRun = 0 ∧
      t.lds.ppsMissing = s.lds.ppsMissing + 1) ∧
  (∀ (s : State), alive s = true → s.lds.ppsGoodAt + 3000000000 ≤ now s → s.lds.ptpLocked = false →
    ∃ t, exec .ppsInMissing s = .next t ∧ t.lds.ppsLocked = false ∧ t.lds.ppsRun = 0 ∧
      (s.lds.ownState = .lockedPps → t.lds.ownState = .holdover ∧ t.lds.holdoverSince = now s)) ∧
  (∀ (s : State), alive s = true → s.lds.ppsOutEn = true → s.lds.civilValid = true → atSecond s = true →
    exec .ppsOutEdge s = .next ({ s with lds.ppsRose := some (now s) })) ∧
  (∀ (s : State) (start positive : Bool), alive s = true → s.lds.leapActive ≠ start →
    ∃ t, exec (.leapSmear start positive) s = .next t ∧ t.lds.leapActive = start ∧ t.lds.leapPositive = positive ∧
      civilNow t = civilNow s)

/-- TIME_SEND, 1 ms after the last one, with the link up, sends this head's reference, its holdover, its high-water civil
time, CIVIL_VALID, its device time and its civil offset, and keeps what it reported. TIME keeps the peer's report, the offset
of its device time and of its civil time as the time stamps give them, and takes the greater high-water civil time of the two;
a set that it forwards becomes civil time and makes it valid; the 64th in a row within 5 ns locks the pair, and the tenth in a
row beyond 20 ns ends the lock. -/
def Obligations.PairTimeAgrees : Prop :=
  (∀ (s : State), alive s = true → s.xhl.link = 2 → s.lds.timeSentAt + 1000000 ≤ now s →
    ∃ t, exec .timeSend s = .next t ∧ ∃ (m : Nat),
      t.lds = { s.lds with timeSentAt := now s, sentRef := s.lds.ownState, sentHold := ownHold s } ∧ Output.xhl 0x0002 false
        false m [refCode s.lds.ownState, ownHold s, b2n s.lds.highWater.isSome, msgInt (highWater s), b2n s.lds.civilValid,
        now s, msgInt s.lds.civilOffset, 0] [] ∈ t.out) ∧
  (∀ (s : State) (m : TimeMsg), alive s = true →
    ∃ t, exec (.time m) s = .next t ∧ t.lds.peerRef = m.ref ∧ t.lds.peerHold = m.holdover ∧
      t.lds.peerOffset = pairDevicePs s m / 1000 ∧ t.lds.pairErr = pairCivilPs s m ∧ (∀ h ∈ m.highWater, h ≤ highWater t) ∧
      (∀ h ∈ s.lds.highWater, h ≤ highWater t)) ∧
  (∀ (s : State) (m : TimeMsg) (v : Int) (a : Bool), alive s = true → m.civilSet = some (v, a) →
    ∃ t, exec (.time m) s = .next t ∧ civilNow t = v ∧ t.lds.civilValid = true) ∧
  (∀ (s : State) (m : TimeMsg), alive s = true → (pairCivilPs s m).natAbs ≤ 5000 → 63 ≤ s.lds.pairRun →
    ∃ t, exec (.time m) s = .next t ∧ t.lds.pairLocked = true) ∧
  (∀ (s : State) (m : TimeMsg), alive s = true → 20000 < (pairCivilPs s m).natAbs → 9 ≤ s.lds.pairBad →
    ∃ t, exec (.time m) s = .next t ∧ t.lds.pairLocked = false)

/-- LOCK_EXPIRED takes every lock whose expiry is not above high-water civil time from its volume and no other lock, and
leaves high-water civil time. PERIODS_CLOSED, with the peer up, one tenant, and one period of it passed: the period is closed
last with the usage of both heads, and the next one is open with the usage that came after the end. PERIOD_DEF_WRITE of a
definition R129 allows stores it and leaves every tenant with an open period as it was; any other sets SET_REFUSED and changes
nothing else. -/
def Obligations.PeriodsAndLocksEnd : Prop :=
  (∀ (s : State), alive s = true →
    ∃ t, exec .lockExpired s = .next t ∧
      (t.red.volumes = s.red.volumes.map fun x => { x with locks := x.locks.filter (lockHolds s) }) ∧
      t.lds.highWater = s.lds.highWater) ∧
  (∀ (s : State) (shares : List PeriodShare) (x : Tenant) (p : Period),
    alive s = true → peerUp s = true → s.lds.tenants = [x] → x.open_ = some p → p.skipped = false → p.fin ≤ highWater s →
    (∀ q ∈ periodAt (defOf s x) p.fin, highWater s < q.2) →
    ∃ t, exec (.periodsClosed shares) s = .next t ∧ ∃ (y : Tenant) (z : Period), t.lds.tenants = [y] ∧ y.id = x.id ∧
      y.closed = lastN 48 (x.closed ++ [z]) ∧ (z.start = p.start ∧ z.fin = p.fin) ∧ (∀ g ∈ shares.find? (fun g : PeriodShare
        => decide (g.tenant = x.id)), z.written = p.written + g.written ∧ z.read = p.read + g.read ∧ z.commands = p.commands
        + g.commands) ∧ (∀ q ∈ periodAt (defOf s x) p.fin, y.open_ = some
        { Period.reset with start := q.1, fin := q.2, written := x.carry.written, read := x.carry.read, commands := x.carry.commands })) ∧
  (∀ (s : State) (w : BitVec 32),
    hostWriteOk s 0x02 = true →
    (fld w 0 2 = 1 ∧ 60 ≤ fld w 2 30 ∧ fld w 2 30 ≤ 527040) ∨ ((fld w 0 2 = 0 ∨ fld w 0 2 = 2) ∧ fld w 2 30 = 0) →
    ∃ t, exec (.periodDefWrite w) s = .next t ∧ t.lds.periodDef = w ∧ t.lds.setRefused = s.lds.setRefused ∧
      (∀ (i : Nat) (x : Tenant) (p : Period), s.lds.tenants[i]? = some x → x.open_ = some p → t.lds.tenants[i]? = some x)) ∧
  (∀ (s : State) (w : BitVec 32),
    hostWriteOk s 0x02 = true → fld w 0 2 = 3 ∨ (fld w 0 2 = 1 ∧ (fld w 2 30 < 60 ∨ 527040 < fld w 2 30)) ∨ ((fld w 0 2 = 0
      ∨ fld w 0 2 = 2) ∧ fld w 2 30 ≠ 0) →
    exec (.periodDefWrite w) s = .next ({ s with lds.setRefused := true }))

/-- RECORD_CLOSE of an open record that is no INFO record, 1 s after it was opened: it is closed wherever it is kept and joins
the records that wait for the NOR, in the order of their numbers (R670, R671). NOR_ENTRY_PROGRAM takes the oldest waiting
record once no older one is open: the ring position advances, and the 40 bytes of its slot, where they were erased and the
record is no birth record, read as its entry (R673, R674). BIRTH_REFRESH in a period that has had none counts it, rewrites the
copy of the period with as many records as the other holds, and changes nothing but the NOR and what it notes of it (R675).
ALMANAC_CLEAR with its confirmation in MAINTENANCE starts a clear: no record waits, the ring starts at its first slot, and the
live region and the island hold only the record 0x0315; without them it sets CMD_ERR and changes nothing else (R682, R683).
CLEAR_ERASE_DONE erases the sectors of the ring that remain and ends the clear. -/
def Obligations.AlmanacRecordsAreKeptAndCleared : Prop :=
  (∀ (s : State) (q : BitVec 32) (r : AlmRecord),
    s.glb.held = false → s.alm.loaded = true → (liveRecords s).find? (fun r => decide (r.seq = q) && r.isOpen) = some r →
    r.severity ≠ 0 → r.time + 1000000000 ≤ now s →
    ∃ t, exec (.recordClose q) s = .next t ∧ t.alm.norWait = norQueue { r with isOpen := false } s.alm.norWait ∧
      (∀ x ∈ t.alm.wake ++ t.alm.held ++ t.alm.birth ++ t.island.records, x.seq = q → x.isOpen = false) ∧
      (t.alm.wake.map (fun x => x.seq) = s.alm.wake.map fun x => x.seq)) ∧
  (∀ (s : State) (r : AlmRecord) (rest : List AlmRecord),
    s.glb.held = false → s.alm.clearing = false → s.alm.norWait = r :: rest →
    (∀ x ∈ liveRecords s, x.isOpen = true → seqReached r.seq x.seq = false) →
    ∃ t, exec .norEntryProgram s = .next t ∧ ∃ (a : Nat), t.alm.norWait = rest ∧
      t.alm.ringPos = (s.alm.ringPos + 1) % 134316 ∧ ((toBirth s r = false ∧ ∀ c ∈ s.nor, c.1 < a ∨ a + 40 ≤ c.1) → memBytes
        norErased t.nor a 40 = entryBytes r ∧ t.alm.birthPos = s.alm.birthPos)) ∧
  (∀ (s : State), s.glb.held = false → s.alm.loaded = true → s.alm.birthRefreshes ≤ birthPeriod s →
    ∃ t, exec .birthRefresh s = .next t ∧ t.alm.birthRefreshes = birthPeriod s + 1 ∧ (t.alm.birthPos[birthPeriod s % 2]? =
        (s.alm.birthPos[birthPeriod s % 2]?).map fun _ => (birthRecords s.nor (1 - birthPeriod s % 2)).length) ∧
        { t with alm.birthRefreshes := s.alm.birthRefreshes, alm.birthPos := s.alm.birthPos, alm.lastProgram := s.alm.lastProgram, nor := s.nor }
        = s) ∧
  (∀ (s : State) (w : BitVec 32),
    hostWriteOk s 0x11 = true → bitOf w 0 = true → fld w 16 16 = Config.serial.toNat % 65536 → s.glb.mode = .maintenance →
    lifeCycle s ≠ .decommissioned → s.alm.clearing = false → s.alm.loaded = true →
    ∃ t, exec (.almanacClear w) s = .next t ∧ t.alm.clearing = true ∧ t.alm.norWait = [] ∧ t.alm.ringPos = 0 ∧
      t.alm.wake.map (fun r => r.code) = [0x0315] ∧ t.island.records.map (fun r => r.code) = [0x0315]) ∧
  (∀ (s : State) (w : BitVec 32),
    hostWriteOk s 0x11 = true → bitOf w 0 = false ∨ fld w 16 16 ≠ Config.serial.toNat % 65536 ∨ s.glb.mode ≠ .maintenance ∨
      lifeCycle s = .decommissioned ∨ s.alm.clearing = true →
    exec (.almanacClear w) s = .next ({ s with alm.cmdErr := true })) ∧
  (∀ (s : State), s.glb.held = false → s.alm.clearing = true →
    exec .clearEraseDone s = .next
        ({ norErase (ringBase + s.alm.clearAt * 65536) ((82 - s.alm.clearAt) * 65536) s with alm.clearing := false, alm.clearAt := 0 }))

/-- ALM_SELECT of region 0, 1 or 2 takes the region, leaves the cursor and latches what they find into the window; region 3
sets CMD_ERR and changes nothing else (R680, R686). ALM_CURSOR_WRITE takes the cursor, leaves the region and latches.
ALM_WINDOW_ADVANCE answers word 7; after VALID or GONE it adds 1 to the cursor and latches, after NOT_YET it changes nothing
else (R681). -/
def Obligations.AlmanacWindowShowsTheRecord : Prop :=
  (∀ (s : State) (w : BitVec 32), hostWriteOk s 0x11 = true → fld w 0 2 ≠ 3 →
    ∃ t, exec (.almSelect w) s = .next t ∧ t.alm.region = fld w 0 2 ∧ t.alm.cursor = s.alm.cursor ∧ windowHolds t) ∧
  (∀ (s : State) (w : BitVec 32), hostWriteOk s 0x11 = true → fld w 0 2 = 3 →
    exec (.almSelect w) s = .next ({ s with alm.cmdErr := true })) ∧
  (∀ (s : State) (w : BitVec 32), hostWriteOk s 0x11 = true →
    ∃ t, exec (.almCursorWrite w) s = .next t ∧ t.alm.region = s.alm.region ∧ t.alm.cursor = w ∧ windowHolds t) ∧
  (∀ (s : State), s.glb.held = false → s.glb.hostEp = true → s.alm.winState &&& 5 ≠ 0 →
    ∃ t, exec .almWindowAdvance s = .next t ∧ t.hostData = (s.alm.window.getD 7 0).setWidth 64 ∧
      t.alm.cursor = s.alm.cursor + 1 ∧ windowHolds t) ∧
  (∀ (s : State), s.glb.held = false → s.glb.hostEp = true → s.alm.winState &&& 5 = 0 →
    exec .almWindowAdvance s = .next ({ s with hostData := (s.alm.window.getD 7 0).setWidth 64 }))

/-- DRAM_CE of a burst that the code corrects in one device, on a channel without an erasure: it is counted on the channel;
when it is the 16th of that device within an hour the device is declared failed and becomes the channel's erasure, and before
that the channel keeps none. DRAM_CE of a burst without an error changes nothing. DRAM_UE of a burst that the code cannot
correct is counted on the channel and sets UE_SEEN; a table line without another copy puts the head into FAILSTOP with cause
6, any other reader leaves the mode. PATROL_SCRUB reads a line: a burst corrected in one device is counted, one without an
error changes nothing else. CA_PARITY_ALERT replays up to three times for one alert; the next asks for a retraining and starts
the count again. -/
def Obligations.DramErrorsAreHandled : Prop :=
  (∀ (s : State) (c : Nat) (burst : List (List (BitVec 16))) (r : DramReader) (written : Bool) (dev : Nat),
    alive s = true → c < s.drc.chans.length → (chanOf s c).erasure = none → burstFinding none burst = .corrected dev →
    ∃ t, exec (.dramCe c { burst := burst, reader := r } written) s = .next t ∧
      (chanOf t c).ce = satAdd 0xFFFF (chanOf s c).ce 1 ∧ (15 ≤ ((chanOf s c).corrections.filter fun e => decide (now s <
        e.1 + hourNs) && decide (e.2 = dev)).length → (chanOf t c).erasure = some dev ∧ (chanOf t c).failedDev = dev) ∧
        (((chanOf s c).corrections.filter fun e => decide (now s < e.1 + hourNs) && decide (e.2 = dev)).length < 15 →
        (chanOf t c).erasure = none)) ∧
  (∀ (s : State) (c : Nat) (burst : List (List (BitVec 16))) (r : DramReader) (written : Bool),
    alive s = true → burstFinding (chanOf s c).erasure burst = .clean →
    exec (.dramCe c { burst := burst, reader := r } written) s = .next (s)) ∧
  (∀ (s : State) (c : Nat) (burst : List (List (BitVec 16))) (r : DramReader),
    alive s = true → c < s.drc.chans.length → burstFinding (chanOf s c).erasure burst = .uncorrectable →
    ∃ t, exec (.dramUe c { burst := burst, reader := r }) s = .next t ∧ (chanOf t c).ue = satAdd 0xFF (chanOf s c).ue 1 ∧
      t.drc.ueSeen = true ∧ (r = .table false → t.glb.mode = .failstop ∧ t.flt.cause = 6) ∧
      (r ≠ .table false → t.glb.mode = s.glb.mode)) ∧
  (∀ (s : State) (c : Nat) (burst : List (List (BitVec 16))) (written : Bool) (dev : Nat),
    alive s = true → c < s.drc.chans.length → (chanOf s c).erasure = none → burstFinding none burst = .corrected dev →
    ∃ t, exec (.patrolScrub c burst written) s = .next t ∧ (chanOf t c).ce = satAdd 0xFFFF (chanOf s c).ce 1) ∧
  (∀ (s : State) (c : Nat) (burst : List (List (BitVec 16))) (written : Bool),
    alive s = true → burstFinding (chanOf s c).erasure burst = .clean →
    exec (.patrolScrub c burst written) s = .next (emit (.dram c 7 0) s)) ∧
  (∀ (s : State) (c : Nat) (again : Bool), alive s = true → again = false ∨ (chanOf s c).caReplays < 3 →
    exec (.caParityAlert c again) s = .next (emit (.dram c 4 0) (modChan c (fun x =>
        { x with caReplays := (if again then (chanOf s c).caReplays else 0) + 1 }) s))) ∧
  (∀ (s : State) (c : Nat), alive s = true → c < s.drc.chans.length → 3 ≤ (chanOf s c).caReplays →
    ∃ t, exec (.caParityAlert c true) s = .next t ∧ (chanOf t c).retrain = true ∧ (chanOf t c).caReplays = 0 ∧
      t.out = s.out)

/-- DRAM_REFRESH of a bank whose refresh is due is granted and ends the postponed ones, or is postponed. RFM on a DIMM that
requires it leaves the rolling count given and is issued. RH_THROTTLE: a request alone on a channel without throttles is
granted and no longer waits; one that brings its row, the only one counted in this window, to RH_THRESHOLD by activates of its
requester alone throttles that requester on the bank and issues RFM. RH_WINDOW_END in a new window, with nothing waiting,
forgets the bank's counts and throttles. ROW_CLOSE after OPEN_MAX closes the bank's row. DIMM_TEMP_READ sets temperature,
band, throttle and THERMAL_THROTTLE; up to 100 degC the mode stays, above it for 1 s the head is in FAILSTOP with cause 6.
DRAM_RETRAIN of the lowest waiting channel leaves it with a valid set of its band and not waiting. DQS_DRIFT_CHECK beyond 1/16
UI keeps the adjusted words for the next refresh. DELAY_SELECT takes the selection and shows the word of the set it names. -/
def Obligations.DramUpkeepRuns : Prop :=
  (∀ (s : State) (c bank : Nat),
    s.glb.held = false → c < s.drc.chans.length →
    (∀ r ∈ (chanOf s c).refAt, r.1 = bank → r.2 + refInterval (chanOf s c) ≤ now s) →
    ∃ t, exec (.dramRefresh c bank false) s = .next t ∧ (chanOf t c).postponed = 0 ∧ Output.dram c 1 bank ∈ t.out) ∧
  (∀ (s : State) (c bank : Nat),
    s.glb.held = false → c < s.drc.chans.length →
    (∀ r ∈ (chanOf s c).refAt, r.1 = bank → r.2 + refInterval (chanOf s c) ≤ now s) →
    ∃ t, exec (.dramRefresh c bank true) s = .next t ∧ (chanOf t c).postponed = (chanOf s c).postponed + 1 ∧ t.out = s.out) ∧
  (∀ (s : State) (c bank left : Nat), alive s = true → c < s.drc.chans.length → (chanOf s c).rfm = true →
    ∃ t, exec (.rfm c bank left) s = .next t ∧
      (chanOf t c).rolling = ((chanOf s c).rolling.filter fun r => decide (r.1 ≠ bank)) ++ [(bank, left)] ∧
      Output.dram c 2 bank ∈ t.out) ∧
  (∀ (s : State) (a : DramAsk) (c : Nat) (x : DramPlace),
    alive s = true → placeOf s a.pa = some (c, x) → c < s.drc.chans.length → c < 12 → (chanOf s c).reqs = [] →
    (chanOf s c).retrain = false → (chanOf s c).rhThrottles = [] →
    ∃ t, exec (.rhThrottle a.pa a.src a.keepOpen []) s = .next t ∧ (chanOf t c).reqs = [] ∧
      (bankOf x, a.src) ∈ (chanOf t c).granted) ∧
  (∀ (s : State) (a : DramAsk) (c k : Nat) (x : DramPlace),
    alive s = true → placeOf s a.pa = some (c, x) → c < s.drc.chans.length → c < 12 → (chanOf s c).reqs = [] →
    (chanOf s c).retrain = false → (chanOf s c).rhThrottles = [] → (chanOf s c).openRows = [] →
    (chanOf s c).windows = [(bankOf x, rhWindow s)] →
    (chanOf s c).rows = [{ RowCount.reset with bank := bankOf x, row := x.row, req := [(a.src, k)] }] →
    s.drc.rhThreshold ≤ k + 1 →
    ∃ t, exec (.rhThrottle a.pa a.src a.keepOpen []) s = .next t ∧
      (chanOf t c).rhThrottles.map (fun r => (r.bank, r.src)) = [(bankOf x, a.src)] ∧ Output.dram c 2 (bankOf x) ∈ t.out) ∧
  (∀ (s : State) (c bank : Nat),
    alive s = true → (chanOf s c).reqs = [] → (chanOf s c).windows.contains (bank, rhWindow s) = false →
    exec (.rhWindowEnd c bank) s = .next (modChan c (fun x =>
        { x with windows := (x.windows.filter fun w => w.1 ≠ bank) ++ [(bank, rhWindow s)], rows := x.rows.filter fun r => decide (r.bank ≠ bank), rhThrottles := x.rhThrottles.filter fun r => decide (r.bank ≠ bank) })
        s)) ∧
  (∀ (s : State) (c bank : Nat),
    alive s = true →
    ((chanOf s c).openRows.any fun o => decide (o.bank = bank) && decide (o.last + o.limit ≤ now s)) = true →
    exec (.rowClose c bank) s = .next (emit (.dram c 3 bank) (modChan c (fun x =>
        { x with openRows := x.openRows.filter fun r => decide (r.bank ≠ bank) }) s))) ∧
  (∀ (s : State) (c : Nat) (deg : Int), alive s = true → c < s.drc.chans.length →
    ∃ t, exec (.dimmTempRead c deg) s = .next t ∧ (chanOf t c).temp = BitVec.ofInt 16 deg ∧
      (chanOf t c).band = nextBand (chanOf s c).band deg ∧ (chanOf t c).throttled = decide (1520 < deg) ∧
      (t.drc.thermal = t.drc.chans.any fun x => x.throttled) ∧ (deg ≤ 1600 → t.glb.mode = s.glb.mode) ∧
      (∀ since ∈ (chanOf s c).hotSince, 1600 < deg → since + 1000000000 ≤ now s → t.glb.mode = .failstop ∧ t.flt.cause = 6)) ∧
  (∀ (s : State) (c : Nat) (lanes : List (BitVec 32)),
    alive s = true → c < s.drc.chans.length → (chanOf s c).retrain = true →
    (∀ d ∈ List.range c, (chanOf s d).retrain = false) →
    ∃ t, exec (.dramRetrain c lanes) s = .next t ∧ (chanOf t c).retrain = false ∧
      setValid (chanOf t c) (chanOf t c).band = true ∧ (chanOf t c).band = (chanOf s c).band) ∧
  (∀ (s : State) (c drift : Nat) (lanes : List (BitVec 32)), alive s = true → 4 < drift →
    exec (.dqsDriftCheck c drift lanes) s = .next (modChan c (fun x => { x with drift := some (lanes.take 20) }) s)) ∧
  (∀ (s : State) (w : BitVec 32), hostWriteOk s 0x0E = true →
    ∃ t, exec (.delaySelect w) s = .next t ∧ t.drc.dlySel = w &&& 0x7FF ∧ (∀ e ∈ (s.drc.chans.getD (fld w 0 4)
        Chan.reset).sets.find? (fun e : DelaySet => decide (e.band = fld w 4 2)), t.drc.dlyData = e.lanes.getD (fld w 6 5)
        0))

/-- FEED_CLASSIFICATION of feed A gives it the state and the supply that its reading makes, leaves feed B, and ON_MAINS_LOSS
says that a classified feed exists and none supplies. Of feed B, when it is classified and no feed supplies while no window,
flush or stop runs, it starts the ride-through window now, sets ON_MAINS_LOSS and leaves feed A. RIDE_THROUGH_EXPIRY at the
end of the window without a feed, and BANK_DISCHARGE after 0.5 ms above 2 A, outside start and VAULT and with no flush active:
the flush is active, with the bytes that are dirty, no write is held, no maintenance activity runs, and the head is in PS0;
the expiry ends the window and moves the running activities to the paused ones. FLUSH_DONE once every write is committed sets
CLEAN_STOP, ends the flush and empties the log; with a feed the head is not held, without one it is held at step 8 with every
slot off. -/
def Obligations.FeedsAndTheFlush : Prop :=
  (∀ (s : State) (r : FeedReading), powered s = true →
    ∃ t, exec (.feedClassification 0 r.samples r.tenCycles r.run) s = .next t ∧ ∃ (f : Feed), t.pwr.feedA.st = f.st ∧
      t.pwr.feedA.supplying = f.supplying ∧ t.pwr.feedB = s.pwr.feedB ∧
      t.pwr.onMainsLoss = ((t.pwr.feedA.valid || t.pwr.feedB.valid) && !(t.pwr.feedA.supplying || t.pwr.feedB.supplying))) ∧
  (∀ (s : State) (r : FeedReading),
    powered s = true → s.pwr.window = none → s.pwr.flushActive = false → s.pwr.stepEight = false →
    s.pwr.feedA.supplying = false →
    (nextFeed s.pwr.feedB (feedNominal s 1).2.1 (feedNominal s 1).2.2 s.img.power.rideFloor r).valid = true →
    (nextFeed s.pwr.feedB (feedNominal s 1).2.1 (feedNominal s 1).2.2 s.img.power.rideFloor r).supplying = false →
    ∃ t, exec (.feedClassification 1 r.samples r.tenCycles r.run) s = .next t ∧ t.pwr.window = some (now s) ∧
      t.pwr.onMainsLoss = true ∧ t.pwr.feedA = s.pwr.feedA) ∧
  (∀ (s : State),
    alive s = true → s.glb.mode ≠ .starting → s.glb.mode ≠ .vault → s.pwr.flushActive = false →
    (s.pwr.window.any fun t => decide (t + s.img.power.rideMs * 1000000 ≤ now s)) = true → supplyingNow s = false →
    ∃ t, exec .rideThroughExpiry s = .next t ∧ t.pwr.flushActive = true ∧ t.pwr.window = none ∧ t.pwr.flushAt = now s ∧
      t.pwr.flushAtCommit = dirtyBytes s ∧ t.wlg.holds = [] ∧ t.ecp.running = [] ∧
      t.ecp.paused = s.ecp.paused ++ s.ecp.running ∧ t.pwr.curPs = 0) ∧
  (∀ (s : State),
    alive s = true → s.glb.mode ≠ .starting → s.glb.mode ≠ .vault → s.pwr.flushActive = false →
    (s.pwr.overAt.any fun t => decide (t + 500000 ≤ now s)) = true →
    ∃ t, exec .bankDischarge s = .next t ∧ t.pwr.flushActive = true ∧ t.pwr.flushAtCommit = dirtyBytes s ∧
      t.wlg.holds = [] ∧ t.ecp.running = [] ∧ t.pwr.curPs = 0) ∧
  (∀ (s : State), alive s = true → s.pwr.flushActive = true → flushed s = true → supplyingNow s = true →
    ∃ t, exec .flushDone s = .next t ∧ t.island.cleanStop = true ∧ t.pwr.flushActive = false ∧ t.wlg.frames = [] ∧
      t.glb.held = false) ∧
  (∀ (s : State), alive s = true → s.pwr.flushActive = true → flushed s = true → supplyingNow s = false →
    ∃ t, exec .flushDone s = .next t ∧ t.island.cleanStop = true ∧ t.pwr.flushActive = false ∧ t.pwr.stepEight = true ∧
      t.glb.held = true ∧ (∀ x ∈ t.cle.slots, x.en = false))

/-- GAUGE_SAMPLE gives the bank's voltage and current, the capacitance of a charging interval that raised the voltage by 2 %,
the ESR of a current step, and the energy that follows from them. BUDGET_COMPUTE sets this head's D, a multiple of 32 768, and
the budget; BUDGET takes the peer's D, and PEER_BUDGET_STALE drops one older than 5 ms; the budget is the smaller D, a missing
one as 0, or this head's alone while MIRROR reads 3, and BACKPRESSURE is 1 exactly while it is below the dirty data.
PMBUS_POLL of one regulator of the image that answers with nothing to report sets its status, voltage, current and temperature
and ends its loss; one that does not answer counts it, and the third in a row is its loss; an over- or under-voltage of rail
0, 1 or 3 puts the head into FAILSTOP with cause 2. PMBUS_ALERT sets the same readings; a warning with a new status sets
REG_FAULT. -/
def Obligations.BudgetAndRegulators : Prop :=
  (∀ (s : State) (g : GaugeSample), powered s = true →
    ∃ t, exec (.gaugeSample g) s = .next t ∧ t.pwr.vBank = g.mv ∧ t.pwr.iBank = g.ma ∧
      (g.charge = none → t.pwr.cap = s.pwr.cap) ∧
      (∀ x ∈ g.charge, 0 < x.2 → g.mv ≤ 51 * x.2 → t.pwr.cap = some (x.1 * 1000 / x.2)) ∧
      (g.step = none → t.pwr.esr = s.pwr.esr) ∧ (∀ x ∈ g.step, 0 < x.2 → t.pwr.esr = some (x.1 * 1000 / x.2)) ∧
      t.pwr.bankEnergy = bankEnergyMj t) ∧
  (∀ (s : State) (rate : Nat), alive s = true →
    ∃ t, exec (.budgetCompute rate) s = .next t ∧ t.pwr.ownBudget = ownBudgetOf s rate ∧ t.pwr.ownBudget % 32768 = 0 ∧
      t.pwr.budget = budgetOf t ∧ t.pwr.backpressure = decide (t.pwr.budget < dirtyBytes s)) ∧
  (∀ (s : State) (d : Nat), alive s = true →
    ∃ t, exec (.budget d) s = .next t ∧ t.pwr.peerBudget = some d ∧
      (t.pwr.budget = if s.wlg.mirror = 3 then s.pwr.ownBudget else min s.pwr.ownBudget d) ∧
      t.pwr.backpressure = decide (t.pwr.budget < dirtyBytes s)) ∧
  (∀ (s : State), alive s = true → s.pwr.peerBudgetAt + 5000000 < now s →
    ∃ t, exec .peerBudgetStale s = .next t ∧ t.pwr.peerBudget = none ∧
      (t.pwr.budget = if s.wlg.mirror = 3 then s.pwr.ownBudget else 0) ∧
      t.pwr.backpressure = decide (t.pwr.budget < dirtyBytes s)) ∧
  (∀ (s : State) (x : RegRead) (r : Regulator),
    alive s = true → regAt s x.master x.addr = some r → x.ok = true → x.event = .none →
    ∃ t, exec (.pmbusPoll [x]) s = .next t ∧ regAt t x.master x.addr = some
        { r with status := x.status, vout := x.vout, iout := x.iout, temp := x.temp, fails := 0, lost := false } ∧
      t.flt = s.flt) ∧
  (∀ (s : State) (x : RegRead) (r : Regulator), alive s = true → regAt s x.master x.addr = some r → x.ok = false →
    ∃ t, exec (.pmbusPoll [x]) s = .next t ∧ (regAt t x.master x.addr).map (fun r => r.fails) = some (r.fails + 1) ∧
      (r.fails = 2 → (regAt t x.master x.addr).map (fun r => r.lost) = some true)) ∧
  (∀ (s : State) (x : RegRead) (r : Regulator),
    alive s = true → regAt s x.master x.addr = some r → x.ok = true → x.event = .overUnderVoltage →
    r.rail = 0 ∨ r.rail = 1 ∨ r.rail = 3 →
    ∃ t, exec (.pmbusPoll [x]) s = .next t ∧ t.glb.mode = .failstop ∧ t.flt.cause = 2) ∧
  (∀ (s : State) (x : RegRead) (r : Regulator),
    alive s = true → regAt s x.master x.addr = some r → x.ok = true → x.event = .none →
    ∃ t, exec (.pmbusAlert (some x) none) s = .next t ∧ regAt t x.master x.addr = some
        { r with status := x.status, vout := x.vout, iout := x.iout, temp := x.temp, fails := 0, lost := false }) ∧
  (∀ (s : State) (x : RegRead) (r : Regulator),
    alive s = true → regAt s x.master x.addr = some r → x.ok = true → x.event = .warning → x.status ≠ r.status →
    ∃ t, exec (.pmbusAlert none (some x)) s = .next t ∧ t.pwr.regFault = true ∧
      (regAt t x.master x.addr).map (fun r => r.status) = some x.status)

/-- DROWSE_ENTRY with its conditions and its timer expired, and no IDLE_NOW that permits DOZE, sets PS1; DOZE_ENTRY with its
conditions sets PS2; both change nothing else. POWER_STATE_EXIT and a SCHEDULED_EXIT before a known event leave PS0; the first
ends IDLE_NOW and starts the idle timers now. PS_CTL_WRITE takes the three enables, gives up VAULT when its enable is 0, and
leaves PS0 when the enable of the present state is 0. VAULT_PROPOSAL proposes; POWER keeps the peer's next event and
conditions, gives up VAULT when they do not hold, leaves the peer's slots without a request, and agrees on an acceptance of a
proposal that still holds. VAULT_ENTER shows MODE 4 with CLEAN_STOP set, no wake cause and WAKE_L high, and the entry runs
from now on. ISLAND_WAKE_ALARM at its time in VAULT drives WAKE_L while the mains have returned, else waits for them and keeps
a record of the island; one during the entry is held. MAINS_RTN drives WAKE_L with cause 3 after step 8, or for a wake that
waits. WAKE_L_EXTERNAL in VAULT, or during the entry, sets cause 2. VBAT_SAMPLE keeps the sample. ISLAND_SUPPLY_CHANGE takes
the supply that is there, stays for the cycle in which both change, and without either resets the island. -/
def Obligations.PowerStatesChange : Prop :=
  (∀ (s : State),
    (s.pwr.idleNow && mayDoze s) = false → mayIdle s = true → s.pwr.ps1En = true → s.pwr.curPs = 0 →
    timerDone s (1000 * s.pwr.idlePs1) = true → clearFor s 10000 = true →
    exec .drowseEntry s = .next ({ s with pwr.curPs := 1 })) ∧
  (∀ (s : State), mayDoze s = true → exec .dozeEntry s = .next ({ s with pwr.curPs := 2 })) ∧
  (∀ (s : State), alive s = true →
    ∃ t, exec .powerStateExit s = .next t ∧ t.pwr.curPs = 0 ∧ t.pwr.idleNow = false ∧ t.pwr.lastBusy = now s) ∧
  (∀ (s : State), alive s = true → clearFor s (if s.pwr.curPs = 2 then 300001 else 5001) = false →
    ∃ t, exec .scheduledExit s = .next t ∧ t.pwr.curPs = 0) ∧
  (∀ (s : State) (w : BitVec 32), hostWriteOk s 0x01 = true →
    ∃ t, exec (.psCtlWrite w) s = .next t ∧ t.pwr.ps1En = bitOf w 0 ∧ t.pwr.ps2En = bitOf w 1 ∧ t.pwr.ps3En = bitOf w 2 ∧
      (bitOf w 2 = false → t.pwr.vaultProposed = false ∧ t.pwr.vaultAgreed = false) ∧
      (s.pwr.curPs = 1 → bitOf w 0 = false → t.pwr.curPs = 0) ∧ (s.pwr.curPs = 2 → bitOf w 1 = false → t.pwr.curPs = 0) ∧
      (s.pwr.curPs = 1 → bitOf w 0 = true → t.pwr.curPs = 1)) ∧
  (∀ (s : State), vaultReady s = true → s.pwr.peerVault = true → peerUp s = true → s.glb.headSel = false →
    ∃ t, exec .vaultProposal s = .next t ∧ t.pwr.vaultProposed = true) ∧
  (∀ (s : State) (m : PowerMsg), alive s = true →
    ∃ t, exec (.power m) s = .next t ∧ t.pwr.peerNext = m.next ∧ t.pwr.peerVault = m.ready ∧
      (m.ready = false → t.pwr.vaultProposed = false ∧ t.pwr.vaultAgreed = false) ∧
      (m.slots = [] → t.cle.peerOff = s.cle.peerOff) ∧ (m.accept = true → m.propose = false → m.ready = true →
        s.pwr.vaultProposed = true → vaultReady { s with pwr.peerNext := m.next, pwr.peerVault := true } = true →
        t.pwr.vaultAgreed = true)) ∧
  (∀ (s : State), vaultReady { s with mmg.nextRefresh := nextRefreshOf s true } = true → s.pwr.vaultAgreed = true →
    ∃ t, exec .vaultEnter s = .next t ∧ t.glb.mode = .vault ∧ t.glb.service = false ∧ t.pwr.vaultAt = some (now s) ∧
      t.island.cleanStop = true ∧ t.island.wakeCause = 0 ∧ t.island.wakeL = false) ∧
  (∀ (s : State) (at_ : Nat),
    s.island.alarm = some at_ → s.pwr.vaultAt = none → at_ ≤ islandNow s → s.island.inVault = true →
    ∃ t, exec (.islandWakeAlarm true) s = .next t ∧ t.island.wakeL = true ∧ t.island.alarm = none ∧
      (t.island.wakeCause = if s.island.wakeCause = 0 then 1 else s.island.wakeCause) ∧ { t with island := s.island } = s) ∧
  (∀ (s : State) (at_ : Nat),
    s.island.alarm = some at_ → s.pwr.vaultAt = none → at_ ≤ islandNow s → s.island.inVault = true →
    ∃ t, exec (.islandWakeAlarm false) s = .next t ∧ t.island.wakePending = true ∧ t.island.wakeL = s.island.wakeL ∧
      t.island.alarm = none ∧
      (t.island.records.getLast?).map (fun r => (r.source, r.island, r.time)) = some (srcId 7 2 0, true, at_)) ∧
  (∀ (s : State) (at_ : Nat) (mainsRtn : Bool), s.island.alarm = some at_ → s.pwr.vaultAt ≠ none → at_ ≤ now s →
    exec (.islandWakeAlarm mainsRtn) s = .next
        ({ s with island.alarm := none, pwr.vaultWake := true, island.wakeCause := if s.island.wakeCause = 0 then 1 else s.island.wakeCause })) ∧
  (∀ (s : State), s.pwr.stepEight = true →
    exec .mainsRtn s = .next ({ s with island.wakeL := true, island.wakeCause := 3 })) ∧
  (∀ (s : State), s.pwr.stepEight = false → s.island.wakePending = true →
    exec .mainsRtn s = .next ({ s with island.wakeL := true, island.wakePending := false })) ∧
  (∀ (s : State) (mv : Nat),
    exec (.vbatSample mv) s = .next ({ s with island.vbatLow := decide (mv < 2600), island.vbatMv := mv })) ∧
  (∀ (s : State), s.island.inVault = true → s.pwr.vaultAt = none → s.island.wakeCause = 0 →
    exec .wakeLExternal s = .next ({ s with island.wakeCause := 2 })) ∧
  (∀ (s : State), s.pwr.vaultAt ≠ none → s.island.wakeCause = 0 →
    exec .wakeLExternal s = .next ({ s with island.wakeCause := 2, pwr.vaultWake := true })) ∧
  (∀ (s : State) (mv : Nat), s.island.onVbat = false ∨ (mv < 2500 ↔ s.island.vbatMv < 2500) →
    exec (.islandSupplyChange true mv) s = .next ({ s with island.vbatMv := mv, island.onVbat := false })) ∧
  (∀ (s : State) (vddioOk : Bool) (mv : Nat), vddioOk = s.island.onVbat → ¬ (mv < 2500 ↔ s.island.vbatMv < 2500) →
    exec (.islandSupplyChange vddioOk mv) s = .next ({ s with island.vbatMv := mv })) ∧
  (∀ (s : State) (mv : Nat), s.island.onVbat = true ∨ 2500 ≤ s.island.vbatMv → 2500 ≤ mv →
    exec (.islandSupplyChange false mv) s = .next ({ s with island.vbatMv := mv, island.onVbat := true })) ∧
  (∀ (s : State) (mv : Nat), s.island.onVbat = true ∨ s.island.vbatMv < 2500 → mv < 2500 →
    ∃ t, exec (.islandSupplyChange false mv) s = .next t ∧ t.island.lost = true ∧ t.island.records = [] ∧
      t.island.cleanStop = false ∧ t.island.highWater = none ∧ { t with island := s.island } = s)

/-- CHIP_RST_L_LOW of a head not held: it is held, without service, its crosshead link and every endpoint link are down, every
SLOT_EN is low, the island stores the device time, and the fuses and the NOR stay. CHIP_RST_L: the head is not held and
without service, there is no queue, no staged or latched host half and an empty landing zone, the fused floor has not fallen,
and the waiting commands stay. When neither configuration copy can be read the start stops: FAIL_STEP is 4, CFG_OK is 0,
HOST_EP is 1, HEAD_SEL is the strap's. START_DONE in STARTING with FAIL_STEP 0, no conflict of HEAD_SEL, the flags set and the
logs agreed: MODE is READY, SERVICE and LOG are 1, and with the peer UP writes are mirrored. XHL_START_TIMEOUT in STARTING, 10
s after CAL, with XHL 0, no fencing round open, no conflict and the peer not UP: a fencing round is open with this head's next
epoch, and the start flags stay. -/
def Obligations.ResetAndStartComplete : Prop :=
  (∀ (s : State), s.glb.held = false →
    ∃ t, exec .chipRstLLow s = .next t ∧ t.glb.held = true ∧ t.glb.service = false ∧ t.xhl.link = 0 ∧
      t.island.storedTime = now s ∧ (∀ e ∈ t.eps, e.linkUp = false) ∧ (∀ x ∈ t.cle.slots, x.en = false) ∧
      t.fuses = s.fuses ∧ t.nor = s.nor) ∧
  (∀ (s : State) (start : StartIn),
    ∃ t, exec (.chipRstL start) s = .next t ∧ t.glb.held = false ∧ t.glb.service = false ∧ t.dcq.queues = [] ∧
      t.hostStage = [] ∧ t.hostLatch = [] ∧ t.lz = [] ∧ s.fuses.floor ≤ t.fuses.floor ∧ t.pending = s.pending) ∧
  (∀ (s : State) (start : StartIn), start.cfgRead = [false, false] →
    ∃ t, exec (.chipRstL start) s = .next t ∧ t.glb.failStep = 4 ∧ t.glb.cfgOk = false ∧ t.glb.hostEp = true ∧
      t.glb.headSel = start.headSel) ∧
  (∀ (s : State) (ms : Nat),
    alive s = true → s.glb.mode = .starting → s.glb.failStep = 0 → s.glb.headConflict = false →
    flagsSet (noteMedia s) = true → logAgreed s = true →
    ∃ t, exec (.startDone ms) s = .next t ∧ t.glb.mode = .ready ∧ t.glb.service = true ∧ t.glb.log = true ∧
      (peerUp s = true → t.wlg.mirror = 1)) ∧
  (∀ (s : State),
    alive s = true → s.glb.mode = .starting → s.glb.cal = true → s.glb.xhl = false → s.xhl.roundOpen = false →
    s.glb.headConflict = false → peerUp s = false → s.glb.calAt + 10 ^ 10 ≤ now s →
    ∃ t, exec .xhlStartTimeout s = .next t ∧ t.xhl.roundOpen = true ∧ t.xhl.epoch = fenceEpoch s ∧ t.glb = s.glb)

/-- LC_CHANGE_REQUEST where the CFG block takes writes, for a later state than the present, with the confirmation number, no
change in progress and the conditions of that state met: BUSY is set, STEP is 1, TARGET and the lowest free owner slot are
noted, and nothing else changes. With any of these missing, or in the cycle in which the head entered FAILSTOP with the host
endpoint served and the head not held: LC_REFUSED is set and nothing else changes. LC_CHANGE_DONE of a change in progress of a
head that is not held: BUSY is clear, STEP is 0, the island has no intent and the fused floor stays. When its step is 4 or
lower the fuses of its target's group and of the lower groups are all blown. When its step is 3 or lower, a change to
OPERATIONAL or DECOMMISSIONED leaves no tenant key, and one to DECOMMISSIONED leaves no device key and no array key. -/
def Obligations.LifeCycleChanges : Prop :=
  (∀ (s : State) (w : BitVec 32),
    hostWriteOk s 0x03 = true → lifeCycleCode (lifeCycle s) < fld w 0 2 → fld w 16 16 = Config.serial.toNat % 65536 →
    s.cfg.lcBusy = false → lcReady s (fld w 0 2) = true →
    exec (.lcChangeRequest w) s = .next
        ({ s with cfg.lcBusy := true, cfg.lcStep := 1, cfg.lcTarget := fld w 0 2, cfg.lcSlot := (freeOwnerSlot s).getD 0 })) ∧
  (∀ (s : State) (w : BitVec 32),
    hostWriteOk s 0x03 = true → fld w 0 2 ≤ lifeCycleCode (lifeCycle s) ∨ fld w 16 16 ≠ Config.serial.toNat % 65536 ∨
      s.cfg.lcBusy = true ∨ lcReady s (fld w 0 2) = false →
    exec (.lcChangeRequest w) s = .next ({ s with cfg.lcRefused := true })) ∧
  (∀ (s : State) (w : BitVec 32),
    hostWriteOk s 0x03 = false → failedNow s = true → s.glb.hostEp = true → s.glb.held = false →
    exec (.lcChangeRequest w) s = .next ({ s with cfg.lcRefused := true })) ∧
  (∀ (s : State), s.cfg.lcBusy = true → s.glb.held = false →
    ∃ t, exec .lcChangeDone s = .next t ∧ t.cfg.lcBusy = false ∧ t.cfg.lcStep = 0 ∧ t.island.lcIntent = none ∧
      t.fuses.floor = s.fuses.floor ∧ (s.cfg.lcStep ≤ 4 → 1 ≤ s.cfg.lcTarget → t.fuses.p = 8) ∧
      (s.cfg.lcStep ≤ 4 → 2 ≤ s.cfg.lcTarget → t.fuses.o = 8) ∧ (s.cfg.lcStep ≤ 4 → 3 ≤ s.cfg.lcTarget → t.fuses.d = 8) ∧
      (s.cfg.lcStep ≤ 3 → 2 ≤ s.cfg.lcTarget → t.sec.tenants = []) ∧
      (s.cfg.lcStep ≤ 3 → 3 ≤ s.cfg.lcTarget → t.sec.deviceKey = false ∧ t.sec.arrayKey = none))

/-- SUPERVISOR_DIVERGENCE and FAILSTOP of a head that is neither held nor in FAILSTOP: MODE is FAILSTOP, SERVICE is 0, no
write is held, and the cause and the source are kept, 1 and the supervisor for a divergence. FAILSTOP in FAILSTOP counts one
more repeat and leaves the cause, the start flags and the queues. WATCHDOG_TIMEOUT of a domain controller or a block agent:
when its last restart lies 60 s back or more, it is restarted now and the restarts of the probation count one more, and
nothing else changes; when its last restart lies less than 60 s back, MODE is FAILSTOP with cause 4 for the fault engine's
controller and 7 for another. -/
def Obligations.FailstopIsEntered : Prop :=
  (∀ (s : State), s.glb.held = false → s.glb.mode ≠ .failstop →
    ∃ t, exec .supervisorDivergence s = .next t ∧ t.glb.mode = .failstop ∧ t.glb.service = false ∧ t.flt.cause = 1 ∧
      t.flt.causeSrc = 0 ∧ t.wlg.holds = []) ∧
  (∀ (s : State) (cause src : Nat), s.glb.held = false → s.glb.mode ≠ .failstop →
    ∃ t, exec (.failstop cause src) s = .next t ∧ t.glb.mode = .failstop ∧ t.glb.service = false ∧
      t.flt.cause = cause % 256 ∧ t.flt.causeSrc = src % 65536 ∧ t.wlg.holds = []) ∧
  (∀ (s : State) (cause src : Nat), s.glb.held = false → s.glb.mode = .failstop →
    ∃ t, exec (.failstop cause src) s = .next t ∧ t.flt.fatalRepeats = s.flt.fatalRepeats + 1 ∧ t.flt.cause = s.flt.cause ∧
      t.glb = s.glb ∧ t.dcq = s.dcq) ∧
  (∀ (s : State) (block : Bool) (n member : Nat),
    alive s = true → (if block = true then blockAgents.contains n else isDomainController n) = true →
    (member = if block = true then 65536 + n else n) → (∀ r ∈ s.glb.restarts, r.1 = member → r.2 + 60 * 10 ^ 9 ≤ now s) →
    exec (.watchdogTimeout block n) s = .next
        ({ s with glb.restarts := (s.glb.restarts.filter fun r => decide (r.1 ≠ member)) ++ [(member, now s)], upd.restarts := s.upd.restarts + 1 })) ∧
  (∀ (s : State) (block : Bool) (n member since : Nat),
    alive s = true → (if block = true then blockAgents.contains n else isDomainController n) = true →
    (member = if block = true then 65536 + n else n) → (member, since) ∈ s.glb.restarts → now s < since + 60 * 10 ^ 9 →
    ∃ t, exec (.watchdogTimeout block n) s = .next t ∧ t.glb.mode = .failstop ∧
      (t.flt.cause = if member = faultSrc then 4 else 7))

/-- CONTROL_PORT_REQUEST of an element's port that is neither retired nor held down: of the allowed requests one with the
least precedence number is entered, and its requester is answered that it was taken; when no request is allowed the fault
state stays and every requester is answered that it was not taken. REGION_TABLE_CHANGE of a whole entry waits for the end of
the cycle and changes nothing else. HUSK for an access that no region entry permits, by an element that is not retired and not
in HUSK or TEST: its port is in HUSK, FLT_HUSK_ADDR is the address, the number of redispatched jobs rises, and the region
entries stay. HUSK_SELECT latches the name and the word of the element named and changes nothing else. REGION_SELECT latches
the name, and the 16 bytes of the entry named, zeros when there is no such entry. -/
def Obligations.PortsAndRegionTables : Prop :=
  (∀ (s : State) (src : Nat) (reqs : List (PortMember × CtlState)) (m : PortMember) (st : CtlState),
    alive s = true → elementExists src = true → (ctlPort s src).retired = false → (ctlPort s src).hold = false →
    (m, st) ∈ reqs → requestAllowed (ctlPort s src) (m, st) = true →
    (∀ r ∈ reqs, requestAllowed (ctlPort s src) r = true → ctlCode st ≤ ctlCode r.2) →
    ∃ t, exec (.controlPortRequest src reqs) s = .next t ∧ (ctlPort t src).st = st ∧ (ctlPort t src).retired = false ∧
      Output.portStatus src m st true ∈ t.out) ∧
  (∀ (s : State) (src : Nat) (reqs : List (PortMember × CtlState)),
    alive s = true → elementExists src = true → (∀ r ∈ reqs, requestAllowed (ctlPort s src) r = false) →
    ∃ t, exec (.controlPortRequest src reqs) s = .next t ∧ t.flt = s.flt ∧
      (∀ r ∈ reqs, Output.portStatus src r.1 r.2 false ∈ t.out)) ∧
  (∀ (s : State) (e : RegionEntry),
    alive s = true → elementExists e.src = true → e.idx < 16 → e.base % 4096 = 0 → 1 ≤ e.pages → e.pages < 2 ^ 32 →
    e.rights.toNat < 8 →
    exec (.regionTableChange e) s = .next ({ s with flt.regionNew := s.flt.regionNew ++ [e] })) ∧
  (∀ (s : State) (src addr len : Nat) (write : Bool) (entry : Nat),
    alive s = true → elementExists src = true → (ctlPort s src).retired = false →
    accessPermitted s src addr len write = false → frozenPort s src = false →
    ∃ t, exec (.husk src addr len write entry) s = .next t ∧ (ctlPort t src).st = .husk ∧
      t.flt.huskAddr = BitVec.ofNat 64 addr ∧ s.flt.redispatched < t.flt.redispatched ∧ t.flt.regions = s.flt.regions) ∧
  (∀ (s : State) (w : BitVec 32), hostWriteOk s 0x10 = true →
    exec (.huskSelect w) s = .next
        ({ s with flt.huskSel := w &&& 0xFFFF, flt.huskInfo := huskInfoWord s (w &&& 0xFFFF).toNat })) ∧
  (∀ (s : State) (w : BitVec 32) (e : RegionEntry),
    hostWriteOk s 0x10 = true → regionEntry s (fld w 0 16) (fld w 16 4) = some e →
    ∃ t, exec (.regionSelect w) s = .next t ∧ t.flt.regionSel = w &&& 0xFFFFF ∧
      (t.flt.regionData = (List.range 4).map fun i => w32 (leAt (regionBytes e) (4 * i) 4))) ∧
  (∀ (s : State) (w : BitVec 32), hostWriteOk s 0x10 = true → regionEntry s (fld w 0 16) (fld w 16 4) = none →
    ∃ t, exec (.regionSelect w) s = .next t ∧ t.flt.regionSel = w &&& 0xFFFFF ∧ t.flt.regionData = [0, 0, 0, 0])

/-- ERROR_REPORT of an existing element. A CONTAINED error, with no code or one from 0x0100 up to 0x11FF, of an element not
retired: its port is in HUSK and the start flags and the mode stay. An EXTERNAL error of an element not retired with fewer
than 64 tests waiting: a test of that kind, asked for by an error now, joins the waiting tests in their order, and nothing
else changes. A CORRECTED event of an element with fewer than 15 events in the last hour: the event is added to those of the
last hour, the port state and the waiting tests stay. A FATAL error: MODE is FAILSTOP, the cause is 4 for the fault engine and
6 for another element, and the source is the element. -/
def Obligations.ErrorsAreContained : Prop :=
  (∀ (s : State) (src : Nat) (k : TestKind) (code : Option Nat),
    alive s = true → elementExists src = true → (ctlPort s src).retired = false → reportOk (.contained k code) = true →
    ∃ t, exec (.errorReport src (.contained k code)) s = .next t ∧ (ctlPort t src).st = .husk ∧ t.glb = s.glb) ∧
  (∀ (s : State) (src : Nat) (k : TestKind),
    alive s = true → elementExists src = true → (ctlPort s src).retired = false → s.flt.waiting.length < 64 →
    exec (.errorReport src (.external k)) s = .next
        ({ s with flt.waiting := insertTest { src := src, kind := k, host := false, err := true, reqAt := now s } s.flt.waiting })) ∧
  (∀ (s : State) (src : Nat) (k : TestKind),
    alive s = true → elementExists src = true →
    ((ctlPort s src).corrected.filter fun e => decide (now s < e.1 + hourNs)).length < 15 →
    ∃ t, exec (.errorReport src (.corrected k)) s = .next t ∧ (ctlPort t src).corrected = ((ctlPort s src).corrected.filter
        fun e => decide (now s < e.1 + hourNs)) ++ [(now s, k)] ∧ (ctlPort t src).st = (ctlPort s src).st ∧
      t.flt.waiting = s.flt.waiting) ∧
  (∀ (s : State) (src : Nat), alive s = true → elementExists src = true →
    ∃ t, exec (.errorReport src .fatal) s = .next t ∧ t.glb.mode = .failstop ∧
      (t.flt.cause = if src = faultSrc then 4 else 6) ∧ t.flt.causeSrc = src)

/-- BLOCK_TEST of an element that has a test and is not retired, with fewer than 64 tests waiting: its test, of the host,
joins the waiting tests in their order, TEST_STATE is 1 and TEST_RESULT 0 with its source. Of an element without a test, of a
retired one, or in FAILSTOP: TEST_STATE is 3, TEST_RESULT 3, CMD_ERR is set, and nothing else changes. SELF_TEST_START: the
first waiting test that may start runs, and its element, if not retired, is in TEST. SELF_TEST of a running test with a pass
within its time, of an element not retired, not held down and with fewer than two transient failures in 24 hours: the element
is in RUN, the test runs no more, and a host's test reads TEST_STATE 3 and TEST_RESULT 1. A failed SELF_TEST of an element of
the Reduce stage: the element is retired and OFF, and a host's test reads TEST_STATE 3 and TEST_RESULT 2. WHOLE_CHIP in
MAINTENANCE with the peer UP, no volume owned here and no whole-chip test: the test is under way, TEST_STATE is 2 and
TEST_RESULT 0. Otherwise TEST_STATE is 3, TEST_RESULT 3, CMD_ERR is set, and nothing else changes. WHOLE_CHIP_TEST_END without
a failure and without a map: the test is over, TEST_STATE is 3 and TEST_RESULT 1, SRAM and landing zone are empty, the volumes
and the map are as after reset, and the mode and start flags stay. -/
def Obligations.SelfTestsRun : Prop :=
  (∀ (s : State) (src : Nat) (k : TestKind),
    hostWriteOk s 0x10 = true → alive s = true → testOf src = some k → (ctlPort s src).retired = false →
    s.flt.waiting.length < 64 →
    exec (.blockTest src) s = .next
        ({ s with flt.testState := 1, flt.testResult := 0, flt.testSrc := src, flt.waiting := insertTest { src := src, kind := k, host := true, err := false, reqAt := now s } s.flt.waiting })) ∧
  (∀ (s : State) (src : Nat),
    hostWriteOk s 0x10 = true → testOf src = none ∨ (ctlPort s src).retired = true ∨ s.glb.mode = .failstop →
    exec (.blockTest src) s = .next
        ({ s with flt.cmdErr := true, flt.testState := 3, flt.testResult := 3, flt.testSrc := src })) ∧
  (∀ (s : State) (x : TestReq),
    alive s = true → s.flt.waiting.find? (testMayStart s) = some x → (ctlPort s x.src).retired = false →
    ∃ t, exec .selfTestStart s = .next t ∧ t.flt.running = s.flt.running ++ [x] ∧
      t.flt.waiting.length + 1 = s.flt.waiting.length ∧ (ctlPort t x.src).st = .test) ∧
  (∀ (s : State) (src rows ms : Nat) (x : TestReq),
    alive s = true → s.flt.running.find? (fun r => decide (r.src = src)) = some x → (ctlPort s src).retired = false →
    (ctlPort s src).hold = false → ms ≤ testLimit x.kind →
    ((ctlPort s src).transients.filter fun x => decide (now s < x + 24 * hourNs)).length < 2 →
    ∃ t, exec (.selfTest src true rows ms) s = .next t ∧ (ctlPort t src).st = .run ∧
      t.flt.running.length + 1 = s.flt.running.length ∧
      (x.host = true → s.flt.testSrc = src → t.flt.testState = 3 ∧ t.flt.testResult = 1)) ∧
  (∀ (s : State) (src rows ms : Nat) (x : TestReq),
    alive s = true → s.flt.running.find? (fun r => decide (r.src = src)) = some x → srcStage src = 2 →
    ∃ t, exec (.selfTest src false rows ms) s = .next t ∧ (ctlPort t src).retired = true ∧ (ctlPort t src).st = .off ∧
      (x.host = true → s.flt.testSrc = src → t.flt.testState = 3 ∧ t.flt.testResult = 2)) ∧
  (∀ (s : State),
    hostWriteOk s 0x10 = true → s.glb.mode = .maintenance → peerUp s = true → s.xhl.owned = [] → s.flt.wholeChip = false →
    ∃ t, exec .wholeChip s = .next t ∧ t.flt.wholeChip = true ∧ t.flt.testState = 2 ∧ t.flt.testResult = 0) ∧
  (∀ (s : State),
    hostWriteOk s 0x10 = true → s.glb.mode ≠ .maintenance ∨ peerUp s = false ∨ s.xhl.owned ≠ [] ∨ s.flt.wholeChip = true →
    exec .wholeChip s = .next ({ s with flt.cmdErr := true, flt.testState := 3, flt.testResult := 3, flt.testSrc := 0 })) ∧
  (∀ (s : State), alive s = true → s.flt.wholeChip = true →
    ∃ t, exec (.wholeChipTestEnd [] .none) s = .next t ∧ t.flt.wholeChip = false ∧ t.flt.testState = 3 ∧
      t.flt.testResult = 1 ∧ t.sram = [] ∧ t.lz = [] ∧ t.red = Red.reset ∧ t.glb = s.glb)

/-- SLOT_POWER_ON of a switch whose first turn-on is due, and SLOT_POWER_RETRY of one whose new turn-on is due, no switch of a
lower number being due: SLOT_EN of each wanted slot of the switch is high and its status is ramping, the last power event is
this switch now, and every other slot keeps its power entry. SLOT_EN_FOLLOW of a wanted slot whose SLOT_PG is high: its
SLOT_EN is high and its status is on, and nothing else changes. SLOT_POWER_FAIL at the slot master of a switch that was driven
and has failed: SLOT_EN and SLOT_PG of its slots are low, the failures count one more up to 3, the slots are held off from the
third on, and SLOT_FAULT is set. SLOT_OFF_WRITE by a served endpoint: a bit is 1 exactly when it is written 1 and was 1 or may
be powered off; CFG_ERR stays set, and is set when a bit is refused. SLOT_POWER_OFF at the slot master of a switch with no
wanted slot whose peer has dropped its enable: SLOT_EN and SLOT_PG are low and the status is off. Of an unwanted slot beside a
wanted one: its SLOT_EN is low and its status off, and nothing else changes. -/
def Obligations.SlotPowerIsSwitched : Prop :=
  (∀ (s : State) (n : Nat),
    turnOnDue s false n = true → lowestDue s n = true → (∀ i ∈ switchSlots s n, i < s.cle.slots.length) →
    ∃ t, exec (.slotPowerOn n) s = .next t ∧
      (∀ i ∈ switchSlots s n, slotWanted s i = true → (slotPwr t i).en = true ∧ (slotPwr t i).st = 2) ∧
      t.cle.lastEvent = some (now s, switchOf s n) ∧
      (∀ i ∈ List.range 48, (i ∉ switchSlots s n ∨ slotWanted s i = false) → slotPwr t i = slotPwr s i)) ∧
  (∀ (s : State) (n : Nat),
    turnOnDue s true n = true → lowestDue s n = true → (∀ i ∈ switchSlots s n, i < s.cle.slots.length) →
    ∃ t, exec (.slotPowerRetry n) s = .next t ∧
      (∀ i ∈ switchSlots s n, slotWanted s i = true → (slotPwr t i).en = true ∧ (slotPwr t i).st = 2) ∧
      t.cle.lastEvent = some (now s, switchOf s n) ∧
      (∀ i ∈ List.range 48, (i ∉ switchSlots s n ∨ slotWanted s i = false) → slotPwr t i = slotPwr s i)) ∧
  (∀ (s : State) (n : Nat), n < 48 → slotsDriven s = true → (slotPwr s n).pg = true → slotWanted s n = true →
    exec (.slotEnFollow n) s = .next (modSlotPwr n (fun x => { x with en := true, st := 3 }) s)) ∧
  (∀ (s : State) (n : Nat),
    n < 48 → slotsDriven s = true → slotMaster s = true → (∀ i ∈ switchSlots s n, i < s.cle.slots.length) →
    (∃ i ∈ switchSlots s n, (slotPwr s i).en = true) → powerFails s n = true →
    ∃ t, exec (.slotPowerFail n) s = .next t ∧ (∀ i ∈ switchSlots s n, (slotPwr t i).en = false ∧ (slotPwr t i).pg = false ∧
        (slotPwr t i).fails = min 3 ((slotPwr s i).fails + 1) ∧ (slotPwr t i).heldOff = decide (3 ≤ (slotPwr s i).fails +
        1)) ∧ t.cle.slotFault = true) ∧
  (∀ (s : State) (ep : Nat) (w : BitVec 32), epServes s ep = true → memOn s ep = true → hostWriteOk s 0x0F = true →
    ∃ t, exec (.slotOffWrite ep w) s = .next t ∧ (∀ n ∈ List.range 48, t.cle.slotOff.getLsbD n = ((join64 (stagedHi s ep
        0xF0008 (hi32 s.cle.slotOff)) w).getLsbD n && (s.cle.slotOff.getLsbD n || !offRefused s n))) ∧
      (s.cle.cfgErr = true → t.cle.cfgErr = true) ∧ ((∃ n ∈ List.range 48, (join64 (stagedHi s ep 0xF0008 (hi32
        s.cle.slotOff)) w).getLsbD n = true ∧ s.cle.slotOff.getLsbD n = false ∧ offRefused s n = true) → t.cle.cfgErr =
        true)) ∧
  (∀ (s : State) (n : Nat),
    n < 48 → slotsDriven s = true → slotMaster s = true → slotWanted s n = false → switchWanted s n = false →
    (∀ i ∈ switchSlots s n, i < s.cle.slots.length) →
    (∃ i ∈ switchSlots s n, (slotPwr s i).en = true ∨ (slotPwr s i).pg = true) → peerDropped s n = true →
    ∃ t, exec (.slotPowerOff n) s = .next t ∧
      (∀ i ∈ switchSlots s n, (slotPwr t i).en = false ∧ (slotPwr t i).pg = false ∧ (slotPwr t i).st = 0)) ∧
  (∀ (s : State) (n : Nat),
    n < 48 → slotsDriven s = true → slotMaster s = true → slotWanted s n = false → switchWanted s n = true →
    (slotPwr s n).en = true → n ∈ switchSlots s n → peerDropped s n = true →
    exec (.slotPowerOff n) s = .next (modSlotPwr n (fun x => { x with en := false, st := 0, onAt := none, offAt := none })
        s))

/-- Of commands that the UPD block takes, each of which notes its time as the last write: OPEN from IDLE reserves an empty
buffer, in another state it sets CMD_ERR, and nothing else changes. A write of word n of the data window in OPEN stores its
four bytes, low byte first, at the offset plus 4n, and changes no other byte of the buffer and nothing else. ABORT releases
the buffer, a waiting RESTART goes on waiting, and nothing outside the update block changes. STAGING_TIMEOUT in OPEN or STAGED
600 s after the last write releases the buffer and changes nothing else. STAGE_FW in OPEN for a slot that does not run, with
no update pending and FAIL_STEP other than 4, begins the check for that slot; otherwise it sets CMD_ERR. STAGE_CFG in OPEN,
with no update pending and with firmware running or FAIL_STEP 4, begins the check for copy B when copy A is in use and for
copy A otherwise; otherwise it sets CMD_ERR. Neither changes anything else. -/
def Obligations.StagingBufferIsFilled : Prop :=
  (∀ (s : State), hostWriteOk s 0x12 = true → s.upd.st = .idle →
    exec .updOpen s = .next
        ({ s with upd.st := .opened, upd.staging := [], upd.staged := none, upd.job := none, upd.writeAt := now s })) ∧
  (∀ (s : State), hostWriteOk s 0x12 = true → s.upd.st ≠ .idle →
    exec .updOpen s = .next ({ s with upd.cmdErr := true, upd.writeAt := now s })) ∧
  (∀ (s : State) (n : Nat) (w : BitVec 32), hostWriteOk s 0x12 = true → s.upd.st = .opened → n < 1024 →
    ∃ t, exec (.updDataWrite n w) s = .next t ∧ memBytes 0 t.upd.staging (s.upd.offset + 4 * n) 4 = leBytes 4 w.toNat ∧
      { t with upd.staging := s.upd.staging, upd.writeAt := s.upd.writeAt } = s ∧ t.upd.writeAt = now s ∧ (∀ a, a <
        s.upd.offset + 4 * n ∨ s.upd.offset + 4 * n + 4 ≤ a → memRead 0 t.upd.staging a = memRead 0 s.upd.staging a)) ∧
  (∀ (s : State), hostWriteOk s 0x12 = true →
    ∃ t, exec .updAbort s = .next t ∧ (t.upd.st = if s.upd.st = .waiting then .waiting else .idle) ∧ t.upd.staging = [] ∧
      t.upd.staged = none ∧ { t with upd := s.upd } = s) ∧
  (∀ (s : State), alive s = true → s.upd.st = .opened ∨ s.upd.st = .staged → s.upd.writeAt + 600 * 10 ^ 9 ≤ now s →
    exec .stagingTimeout s = .next ({ s with upd.st := .idle, upd.staging := [], upd.staged := none, upd.job := none })) ∧
  (∀ (s : State) (slot : Nat),
    hostWriteOk s 0x12 = true → s.upd.st = .opened → runningSlot s ≠ some (slot % 2) → updPending s = false →
    s.glb.failStep ≠ 4 →
    exec (.stageFw slot) s = .next
        ({ s with upd.st := .checking, upd.job := some (true, slot % 2), upd.reason := 0, upd.writeAt := now s })) ∧
  (∀ (s : State) (slot : Nat),
    hostWriteOk s 0x12 = true →
    s.upd.st ≠ .opened ∨ runningSlot s = some (slot % 2) ∨ updPending s = true ∨ s.glb.failStep = 4 →
    exec (.stageFw slot) s = .next ({ s with upd.cmdErr := true, upd.writeAt := now s })) ∧
  (∀ (s : State),
    hostWriteOk s 0x12 = true → s.upd.st = .opened → updPending s = false → s.glb.fw = true ∨ s.glb.failStep = 4 →
    exec .stageCfg s = .next
        ({ s with upd.st := .checking, upd.job := some (false, if s.cfg.copyUsed = 1 then 1 else 0), upd.reason := 0, upd.writeAt := now s })) ∧
  (∀ (s : State),
    hostWriteOk s 0x12 = true → s.upd.st ≠ .opened ∨ updPending s = true ∨ (s.glb.fw = false ∧ s.glb.failStep ≠ 4) →
    exec .stageCfg s = .next ({ s with upd.cmdErr := true, upd.writeAt := now s }))

/-- STAGED at the end of a check: a reason other than 0 leaves the state IDLE with that reason, an empty buffer and the NOR as
it was; reason 0 leaves PROGRAMMING, the job, and the place of the image erased. STAGED at the end of programming a firmware
slot: the NOR has the slot erased and then the image written; when the slot passes its check the state is STAGED with that
slot and no job, when it fails the state is IDLE with the reason and an empty buffer. ACTIVATE of a staged slot, with the
confirmation number, no probation, none being activated, and the layout in the range of the image: the boot record that makes
the slot active on probation, with no tries, is to be written, and only the time of the last write changes beside it. Without
a staged slot or the confirmation, or with a probation or an activation standing, it sets CMD_ERR. RESTART with the
confirmation in MAINTENANCE waits, and the UPDATE activity runs, waits or is paused; without the confirmation, or in neither
MAINTENANCE nor STARTING, it sets CMD_ERR. RUN that is not refused keeps the reason of a check that fails and changes nothing
but it and the time of the write; after one that passes, firmware runs, from the buffer, with the version of the image. RUN
that is refused sets CMD_ERR. UPDATE_RESET of a waiting RESTART whose UPDATE is not admitted by this head's arbiter: SERVICE
is 0, HEAD_SEL stays, there is no queue and no staged half, and the fused floor has not fallen. FW_CONFIRMED of a running
probation that is healthy: the probation's time ends, the boot record stands with no tries and the same active slot, confirmed
or, for a configuration, being mirrored, and a confirmed firmware revokes the key slots of its header. FW_FALLBACK of a
running probation that is lost: SERVICE is 0, there is no queue and no staged half, the fall-back is noted, and the fused
floor has not fallen. -/
def Obligations.UpdatesRun : Prop :=
  (∀ (s : State) (fw : Bool) (n : Nat) (start : StartIn),
    alive s = true → s.upd.job = some (fw, n) → s.upd.st = .checking →
    ∃ t, exec (.staged false start) s = .next t ∧
      (jobReason fw s ≠ 0 → t.upd.st = .idle ∧ t.upd.reason = jobReason fw s ∧ t.upd.staging = [] ∧ t.nor = s.nor) ∧
        (jobReason fw s = 0 → t.upd.st = .programming ∧ t.upd.job = s.upd.job ∧ t.nor = memClear s.nor (jobPlace fw n).1
        (jobPlace fw n).2)) ∧
  (∀ (s : State) (n : Nat) (start : StartIn), alive s = true → s.upd.job = some (true, n) → s.upd.st = .programming →
    ∃ t, exec (.staged true start) s = .next t ∧ ∃ (p : State), t.nor = p.nor ∧
      (checkFw p (fwBytes p n) true = 0 → t.upd.st = .staged ∧ t.upd.staged = some n ∧ t.upd.job = none) ∧ (checkFw p
        (fwBytes p n) true ≠ 0 → t.upd.st = .idle ∧ t.upd.staging = [] ∧ t.upd.reason = checkFw p (fwBytes p n) true)) ∧
  (∀ (s : State) (confirm n : Nat),
    hostWriteOk s 0x12 = true → s.upd.st = .staged → s.upd.staged = some n → updConfirm confirm = true →
    onProbation s = false → s.upd.activating = none → leAt (fwBytes s n) 104 2 ≤ s.upd.layout →
    s.upd.layout ≤ leAt (fwBytes s n) 106 2 →
    exec (.updActivate confirm) s = .next
        ({ s with upd.writeAt := now s, upd.activating := some { s.upd.boot.getD BootRecord.reset with active := n, st := 1, tries := 0, failed := putBit (s.upd.boot.getD BootRecord.reset).failed n false } })) ∧
  (∀ (s : State) (confirm : Nat),
    hostWriteOk s 0x12 = true → s.upd.st ≠ .staged ∨ s.upd.staged = none ∨ updConfirm confirm = false ∨ onProbation s = true
      ∨ s.upd.activating.isSome = true →
    exec (.updActivate confirm) s = .next ({ s with upd.cmdErr := true, upd.writeAt := now s })) ∧
  (∀ (s : State) (confirm : Nat), hostWriteOk s 0x12 = true → updConfirm confirm = true → s.glb.mode = .maintenance →
    ∃ t, exec (.updRestart confirm) s = .next t ∧ t.upd.st = .waiting ∧
      .update ∈ t.ecp.running ++ t.ecp.waiting ++ t.ecp.paused) ∧
  (∀ (s : State) (confirm : Nat),
    hostWriteOk s 0x12 = true → updConfirm confirm = false ∨ (s.glb.mode ≠ .maintenance ∧ s.glb.mode ≠ .starting) →
    exec (.updRestart confirm) s = .next ({ s with upd.cmdErr := true, upd.writeAt := now s })) ∧
  (∀ (s : State) (start : StartIn), hostWriteOk s 0x12 = true → runRefused start s = false →
    ∃ t, exec (.updRun start) s = .next t ∧ (checkFw s (stagedBytes s) true ≠ 0 → t =
        { s with upd.reason := checkFw s (stagedBytes s) true, upd.writeAt := now s }) ∧ (checkFw s (stagedBytes s) true = 0
        → t.glb.fw = true ∧ t.upd.recovery = true ∧ t.upd.runVer = fwVersion (stagedBytes s))) ∧
  (∀ (s : State) (start : StartIn), hostWriteOk s 0x12 = true → runRefused start s = true →
    exec (.updRun start) s = .next ({ s with upd.cmdErr := true, upd.writeAt := now s })) ∧
  (∀ (s : State) (start : StartIn), alive s = true → s.upd.st = .waiting → admitsHere s .update = false →
    ∃ t, exec (.updateReset start) s = .next t ∧ t.glb.service = false ∧ t.glb.headSel = s.glb.headSel ∧ t.dcq.queues = [] ∧
      t.hostStage = [] ∧ s.fuses.floor ≤ t.fuses.floor) ∧
  (∀ (s : State) (b : BootRecord), alive s = true → s.upd.boot = some b → probationRuns s = true → healthy s = true →
    ∃ t, exec .fwConfirmed s = .next t ∧ t.upd.probEnd = 0 ∧
      (∀ c ∈ t.upd.boot, c.tries = 0 ∧ c.active = b.active ∧ (c.st = 0 ∨ (b.st = 2 ∧ c.st = 3))) ∧
      t.upd.boot.isSome = true ∧ (b.st = 1 → t.upd.fwRevoke = s.upd.fwRevoke ||| BitVec.ofNat 4 (leAt (fwHeader s) 110 1))) ∧
  (∀ (s : State) (start : StartIn), s.glb.held = false → probationRuns s = true → probationLost s = true →
    ∃ t, exec (.fwFallback start) s = .next t ∧ t.glb.service = false ∧ t.dcq.queues = [] ∧ t.hostStage = [] ∧
      t.upd.fellBack = true ∧ s.fuses.floor ≤ t.fuses.floor)

/-- LOOP_SAMPLE of one loop whose sample is due in time with a measurement, that runs in AUTO with no commit waiting and is
wanted in AUTO: the output and the accumulator are those of R622 with the loop's limits, the output lies within them, the
stored measurement is the saturated one, and no sample is missed in a row. Of one of loops 6 to 53 in MANUAL mode and not in
HOLD: the output is MAN_OUT clamped to the limits, the accumulator stays, and the state is MANUAL. MISSED_SAMPLE of a loop
whose sample is overdue: before the third in a row, or in HOLD, MISSED and the run count one more, and output, accumulator,
state and DEADLINE stay; the third in a row puts it in HOLD with FAIL_OUT, loop 0 with its last output, counts it, keeps the
accumulator and sets DEADLINE. LOOP_SATURATED of a loop beyond a limit for SAT_LIMIT, not yet recorded: SAT and its record are
set, the output stays, and the head's flag is set. LOOP_COMMIT by the host of accepted words of one of loops 2 to 53: they
wait for the next sample, nothing is staged, the words in force and CFG_ERR stay; of loop 0 or 1 or of words not accepted:
CFG_ERR is set and nothing else changes; by the host and firmware in one cycle: firmware's accepted words wait, the staged
ones stay and CFG_ERR is set. CHARGE_STEP 10 s after the last, midway between two samples, with the charger in AUTO and one
charger that is not lost: it is sent 98 % of the loop's output, to last 1 ms, and nothing else changes. AVS_MARGIN_FAIL after
1 ms of a negative margin: MODE is FAILSTOP with cause 6 of the loop engine. -/
def Obligations.ControlLoopsRun : Prop :=
  (∀ (s : State) (n : Nat) (pv : Option Int) (m : Int) (l : Loop),
    alive s = true → n < 54 → s.cle.loops[n]? = some l → loopMeas s { n := n, meas := pv } = some m →
    n < 2 ∨ 6 ≤ n ∨ zoneFans s (n - 2) ≠ [] → l.cfg.paced = true ∨ ∀ d ∈ l.due, d ≤ now s ∧ loopLate l d (now s) = false →
    l.next = none → l.state = 2 → l.cfg.mode = 2 → s.cle.avsReturn = none → wantedMode s n l.cfg = 2 →
    effOutMin s n l.cfg ≤ l.cfg.outMax.toInt →
    ∃ t, exec (.loopSample n pv []) s = .next t ∧ (loopOf t n).out.toInt = (pidSample l.cfg (effOutMin s n l.cfg)
        l.cfg.outMax.toInt l.acc (sat16 m) l.pvPrev.toInt).out ∧
      (loopOf t n).acc = (pidSample l.cfg (effOutMin s n l.cfg) l.cfg.outMax.toInt l.acc (sat16 m) l.pvPrev.toInt).acc ∧
      (effOutMin s n l.cfg ≤ (loopOf t n).out.toInt ∧ (loopOf t n).out.toInt ≤ l.cfg.outMax.toInt) ∧
      (loopOf t n).pvPrev.toInt = sat16 m ∧ (loopOf t n).missRun = 0) ∧
  (∀ (s : State) (n : Nat) (pv : Option Int) (m : Int) (l : Loop),
    alive s = true → 6 ≤ n → n < 54 → s.cle.loops[n]? = some l → loopMeas s { n := n, meas := pv } = some m →
    l.cfg.paced = true ∨ ∀ d ∈ l.due, d ≤ now s ∧ loopLate l d (now s) = false → l.next = none → l.state ≠ 3 →
    l.cfg.mode = 1 →
    ∃ t, exec (.loopSample n pv []) s = .next t ∧
      (loopOf t n).out.toInt = clampOut l.cfg.outMin.toInt l.cfg.outMax.toInt l.cfg.manOut.toInt ∧
      (loopOf t n).acc = l.acc ∧ (loopOf t n).state = 1) ∧
  (∀ (s : State) (n d : Nat) (l : Loop),
    alive s = true → n < 54 → s.cle.loops[n]? = some l → l.due = some d →
    (l.cfg.paced = true ∧ d ≤ now s) ∨ (l.cfg.paced = false ∧ loopLate l d (now s) = true) → l.missRun < 2 ∨ l.state = 3 →
    ∃ t, exec (.missedSample n) s = .next t ∧ (loopOf t n).missed = satAdd 255 l.missed 1 ∧
      (loopOf t n).missRun = l.missRun + 1 ∧ (loopOf t n).out = l.out ∧ (loopOf t n).acc = l.acc ∧
      (loopOf t n).state = l.state ∧ t.cle.deadline = s.cle.deadline) ∧
  (∀ (s : State) (n d : Nat) (l : Loop),
    alive s = true → n < 54 → s.cle.loops[n]? = some l → l.due = some d →
    (l.cfg.paced = true ∧ d ≤ now s) ∨ (l.cfg.paced = false ∧ loopLate l d (now s) = true) → 2 ≤ l.missRun → l.state ≠ 3 →
    ∃ t, exec (.missedSample n) s = .next t ∧ (loopOf t n).state = 3 ∧
      ((loopOf t n).out = if n = 0 then l.out else l.failOut) ∧ (loopOf t n).missed = satAdd 255 l.missed 1 ∧
      (loopOf t n).acc = l.acc ∧ t.cle.deadline = true) ∧
  (∀ (s : State) (n : Nat) (l : Loop),
    alive s = true → s.cle.loops[n]? = some l → l.beyond = true → l.recorded = false → 1000 * l.cfg.satLimit ≤ l.satTime →
    ∃ t, exec (.loopSaturated n) s = .next t ∧ (loopOf t n).sat = true ∧ (loopOf t n).recorded = true ∧
      (loopOf t n).out = l.out ∧ t.cle.satSeen = true) ∧
  (∀ (s : State) (n : Nat) (l : Loop),
    alive s = true → 2 ≤ n → n < 54 → s.cle.loops[n]? = some l → cfgAccepted (stagedCfg l) = true →
    ∃ t, exec (.loopCommit n true none) s = .next t ∧ (loopOf t n).next = some (stagedCfg l) ∧
      (loopOf t n).staged = List.replicate 5 none ∧ (loopOf t n).cfg = l.cfg ∧ t.cle.cfgErr = s.cle.cfgErr) ∧
  (∀ (s : State) (n : Nat), alive s = true → n < 54 → n < 2 ∨ cfgAccepted (stagedCfg (loopOf s n)) = false →
    exec (.loopCommit n true none) s = .next ({ s with cle.cfgErr := true })) ∧
  (∀ (s : State) (n : Nat) (ws : List (Option (BitVec 32))) (l : Loop),
    alive s = true → n < 54 → s.cle.loops[n]? = some l → cfgAccepted (stagedCfg { l with staged := ws }) = true →
    ∃ t, exec (.loopCommit n true (some ws)) s = .next t ∧ (loopOf t n).next = some (stagedCfg { l with staged := ws }) ∧
      (loopOf t n).staged = l.staged ∧ t.cle.cfgErr = true) ∧
  (∀ (s : State) (d : Nat) (r : Regulator),
    alive s = true → (loopOf s 1).state = 2 → s.cle.stepAt + 10 ^ 10 ≤ now s → (loopOf s 1).due = some d → now s < d →
    2 * (d - now s) = loopPeriod (loopOf s 1) → s.pwr.regs.filter (fun r => decide (r.role = 2)) = [r] → r.lost = false →
    exec .chargeStep s = .next (emit (.pmbus r.master r.addr 0x21 ((loopOf s 1).out.toNat * 10 * 98 / 100))
        { s with cle.stepAt := now s, cle.stepEnd := some (now s + 1000000) })) ∧
  (∀ (s : State), alive s = true → (s.cle.avsNeg.any fun t => decide (t + 1000000 ≤ now s)) = true →
    ∃ t, exec .avsMarginFail s = .next t ∧ t.glb.mode = .failstop ∧ t.flt.cause = 6 ∧ t.flt.causeSrc = loopSrc)

/-- FAN_TACH_WINDOW of an enabled fan: its speed is 30 times the pulses, its duty stays, the windows at speed in a row count
one more or, below the minimum, are 0, and its fault stays only below ten of them. FAN_FAULT of a fan slow for three windows
and not yet faulty: it is faulty, no other fan changes, and its zone's minimum is raised. DIE_HOT when not yet hot: DIE_HOT is
set and every fan has duty 1 000. DIE_HOT_CLEARED when hot: DIE_HOT is clear, every fan of a zone has the duty of its zone's
loop, and the loops stay. DIE_OVERTEMP: MODE is FAILSTOP with cause 6. -/
def Obligations.FansAndTheDie : Prop :=
  (∀ (s : State) (f pulses : Nat) (x : Fan),
    alive s = true → s.img.board.fanEn.getLsbD f = true → s.cle.fans[f]? = some x →
    ∃ t, exec (.fanTachWindow f pulses) s = .next t ∧ (t.cle.fans.getD f Fan.reset).rpm = 30 * pulses ∧
      (t.cle.fans.getD f Fan.reset).duty = x.duty ∧
      ((t.cle.fans.getD f Fan.reset).good = if 30 * pulses < s.img.loops.fanMinRpm then 0 else x.good + 1) ∧
      (t.cle.fans.getD f Fan.reset).fault = (x.fault && decide ((t.cle.fans.getD f Fan.reset).good < 10))) ∧
  (∀ (s : State) (f : Nat) (x : Fan), alive s = true → s.cle.fans[f]? = some x → 3 ≤ x.slow → x.fault = false →
    ∃ t, exec (.fanFault f) s = .next t ∧ (t.cle.fans = s.cle.fans.modify f fun x => { x with fault := true }) ∧
      t.cle.zonesMin = s.cle.zonesMin.set (s.img.loops.fanZone.getD f 255) true) ∧
  (∀ (s : State), alive s = true → s.cle.dieHot = false →
    ∃ t, exec .dieHot s = .next t ∧ t.cle.dieHot = true ∧ (∀ x ∈ t.cle.fans, x.duty = 1000)) ∧
  (∀ (s : State), alive s = true → s.cle.dieHot = true →
    ∃ t, exec .dieHotCleared s = .next t ∧ t.cle.dieHot = false ∧ (∀ f ∈ List.range s.cle.fans.length,
        s.img.loops.fanZone.getD f 255 < 4 → (t.cle.fans.getD f Fan.reset).duty = (loopOf s (s.img.loops.fanZone.getD f 255
        + 2)).out.toNat) ∧ t.cle.loops = s.cle.loops) ∧
  (∀ (s : State), alive s = true → ∃ t, exec .dieOvertemp s = .next t ∧ t.glb.mode = .failstop ∧ t.flt.cause = 6)

/-- For a command that the SEC block takes, with no GENERATE waiting, on one of slots 1 to 255 that neither holds a dedup key
nor is named by an enabled replication link. LOAD: the slot holds the first 32 bytes of the key data with its cipher counter 1
and its epoch one higher, the key generation is one higher, the key data is zero, and every other slot stays. LOAD_WRAPPED
under a present slot: a key that unwraps stands in the slot, present, and the key generation is one higher; when none unwraps
KEY_ERR is set and the slots stay; the key data is zero. GENERATE while the DRBG issues: the slot holds the next value of the
DRBG, present, and the draws and the key generation count one more; while it does not issue, the key data is zero, the slot
waits, and nothing else changes. ZEROISE: the slot is empty and not present, the key generation is one higher and the key data
zero. LOAD while a GENERATE waits, of slot 0 or one above 255, or of a forbidden slot: the key data is zero, KEY_ERR is set,
and nothing else changes. -/
def Obligations.ServiceKeysChange : Prop :=
  (∀ (s : State) (slot : Nat),
    hostWriteOk s 0x09 = true → s.sec.keyWait = none → 1 ≤ slot → slot < 256 → slotForbidden s slot = false →
    ∃ t, exec (.keyLoad slot) s = .next t ∧ keySlotOf t slot =
        { keySlotOf s slot with key := (keyDataBytes s).take 32, present := true, csCounter := 1, epoch := (keySlotOf s slot).epoch + 1 }
        ∧ t.sec.keyGen = s.sec.keyGen + 1 ∧ t.sec.keyData = List.replicate 10 0 ∧
      (∀ n ∈ List.range 256, n ≠ slot → keySlotOf t n = keySlotOf s n)) ∧
  (∀ (s : State) (slot : Nat),
    hostWriteOk s 0x09 = true → s.sec.keyWait ≠ none ∨ slot = 0 ∨ 256 ≤ slot ∨ slotForbidden s slot = true →
    exec (.keyLoad slot) s = .next ({ s with sec.keyData := List.replicate 10 0, sec.keyErr := true })) ∧
  (∀ (s : State) (slot kek : Nat),
    hostWriteOk s 0x09 = true → s.sec.keyWait = none → 1 ≤ slot → slot < 256 → slotForbidden s slot = false →
    (keySlotOf s kek).present = true →
    ∃ t, exec (.keyLoadWrapped slot kek) s = .next t ∧ (∀ key ∈ Config.kwUnwrap (keySlotOf s kek).key ((keyDataBytes s).take
        40), (keySlotOf t slot).key = key ∧ (keySlotOf t slot).present = true ∧ t.sec.keyGen = s.sec.keyGen + 1) ∧
        (Config.kwUnwrap (keySlotOf s kek).key ((keyDataBytes s).take 40) = none → t.sec.keyErr = true ∧ t.sec.slots =
        s.sec.slots) ∧ t.sec.keyData = List.replicate 10 0) ∧
  (∀ (s : State) (slot : Nat),
    hostWriteOk s 0x09 = true → s.sec.keyWait = none → 1 ≤ slot → slot < 256 → slotForbidden s slot = false →
    s.sec.drbgOk = true →
    ∃ t, exec (.keyGenerate slot) s = .next t ∧ (keySlotOf t slot).key = Config.drbg s.sec.drbgCount ∧
      (keySlotOf t slot).present = true ∧ t.sec.drbgCount = s.sec.drbgCount + 1 ∧ t.sec.keyGen = s.sec.keyGen + 1) ∧
  (∀ (s : State) (slot : Nat),
    hostWriteOk s 0x09 = true → s.sec.keyWait = none → 1 ≤ slot → slot < 256 → slotForbidden s slot = false →
    s.sec.drbgOk = false →
    exec (.keyGenerate slot) s = .next ({ s with sec.keyData := List.replicate 10 0, sec.keyWait := some slot })) ∧
  (∀ (s : State) (slot : Nat),
    hostWriteOk s 0x09 = true → s.sec.keyWait = none → 1 ≤ slot → slot < 256 → slotForbidden s slot = false →
    ∃ t, exec (.keyZeroise slot) s = .next t ∧ keySlotOf t slot = { keySlotOf s slot with key := [], present := false } ∧
      t.sec.keyGen = s.sec.keyGen + 1 ∧ t.sec.keyData = List.replicate 10 0)

/-- CLK_GLITCH and VOLT_GLITCH set their bit of SEC_ALARM, end the cipher job and note their time; within 1 s of the last one
MODE is FAILSTOP with cause 6, else the mode stays. MASK_FAULT of an element that is not retired sets its bit and puts the
element in HUSK. KEY_STORE sets its bit; without a good reload MODE is FAILSTOP with cause 6, with one the mode stays.
DRBG_FAIL sets its bit, stops the DRBG and notes its time; within 60 s of the last one MODE is FAILSTOP, else the mode stays.
DRBG_RETRY of a stopped DRBG with no test of it waiting or running: a good one within 10 ms of the failure restarts it and
gives the slot that waits its key; a bad one leaves it stopped, notes the time and sets the bit. DRBG_RESEED of a running DRBG
after 2^20 draws or 1 s counts a reseed, from this time and draw on, and changes nothing else. -/
def Obligations.SecurityAlarmsAreRaised : Prop :=
  (∀ (s : State), alive s = true →
    ∃ t, exec .clkGlitch s = .next t ∧ t.sec.alarm = s.sec.alarm ||| 1 ∧ t.sec.csJob = none ∧ t.sec.clkAt = some (now s) ∧
      (within s s.sec.clkAt (10 ^ 9) = true → t.glb.mode = .failstop ∧ t.flt.cause = 6) ∧
      (within s s.sec.clkAt (10 ^ 9) = false → t.glb.mode = s.glb.mode)) ∧
  (∀ (s : State), alive s = true →
    ∃ t, exec .voltGlitch s = .next t ∧ t.sec.alarm = s.sec.alarm ||| 2 ∧ t.sec.csJob = none ∧ t.sec.voltAt = some (now s) ∧
      (within s s.sec.voltAt (10 ^ 9) = true → t.glb.mode = .failstop ∧ t.flt.cause = 6) ∧
      (within s s.sec.voltAt (10 ^ 9) = false → t.glb.mode = s.glb.mode)) ∧
  (∀ (s : State) (src : Nat), alive s = true → elementExists src = true → (ctlPort s src).retired = false →
    ∃ t, exec (.maskFault src) s = .next t ∧ t.sec.alarm = s.sec.alarm ||| 4 ∧ (ctlPort t src).st = .husk) ∧
  (∀ (s : State) (reloadOk : Bool), alive s = true →
    ∃ t, exec (.keyStore reloadOk) s = .next t ∧ t.sec.alarm = s.sec.alarm ||| 16 ∧
      (reloadOk = false → t.glb.mode = .failstop ∧ t.flt.cause = 6) ∧ (reloadOk = true → t.glb.mode = s.glb.mode)) ∧
  (∀ (s : State), alive s = true →
    ∃ t, exec .drbgFail s = .next t ∧ t.sec.alarm = s.sec.alarm ||| 8 ∧ t.sec.drbgOk = false ∧
      t.sec.drbgFailAt = some (now s) ∧ (within s s.sec.drbgFailAt (60 * 10 ^ 9) = true → t.glb.mode = .failstop) ∧
      (within s s.sec.drbgFailAt (60 * 10 ^ 9) = false → t.glb.mode = s.glb.mode)) ∧
  (∀ (s : State),
    alive s = true → s.sec.drbgOk = false → (∀ x ∈ s.flt.waiting ++ s.flt.running, x.kind ≠ .drbg) →
    within s s.sec.drbgFailAt 10000001 = true →
    ∃ t, exec (.drbgRetry true) s = .next t ∧ t.sec.drbgOk = true ∧ t.sec.keyWait = none ∧
      (∀ n ∈ s.sec.keyWait, (keySlotOf t n).key = Config.drbg s.sec.drbgCount ∧ (keySlotOf t n).present = true)) ∧
  (∀ (s : State), alive s = true → s.sec.drbgOk = false → (∀ x ∈ s.flt.waiting ++ s.flt.running, x.kind ≠ .drbg) →
    ∃ t, exec (.drbgRetry false) s = .next t ∧ t.sec.drbgOk = false ∧ t.sec.drbgFailAt = some (now s) ∧
      t.sec.alarm = s.sec.alarm ||| 8) ∧
  (∀ (s : State),
    alive s = true → s.sec.drbgOk = true → s.sec.drbgFrom + 2 ^ 20 ≤ s.sec.drbgCount ∨ s.sec.drbgAt + 10 ^ 9 ≤ now s →
    exec .drbgReseed s = .next
        ({ s with sec.drbgReseeds := s.sec.drbgReseeds + 1, sec.drbgAt := now s, sec.drbgFrom := s.sec.drbgCount }))

/-- CS_LOCK by a served endpoint: with a token other than 0 it takes a free lock now and changes nothing else; on a held lock
a token other than 0, or the write of another endpoint, changes nothing; token 0 from the holder frees it and changes nothing
else. CS_LOCK_TIMEOUT 10 s after the lock was last used, with no job running, frees it and keeps the job state. SEAL and OPEN
with the token of the held lock, no job running, a bound key that is present and no dedup key, and lengths and places within
their limits: the job is busy and is bound to the key and the generation that stand before the changes of this cycle. SEAL
takes its initialisation vector from the slot and counter, reads its AAD and text from the source, and raises the counter of
the slot unless the slot changed in this cycle; OPEN changes no slot. SEAL without the lock, with another token, with a job
running or without a present key: the error flag is set, the result is REFUSED unless a job runs, and nothing else changes.
CS_JOB_DONE of a job with its destination in SRAM while the DRBG issues: the job is done and its binding ends; a SEAL succeeds
and its ciphertext stands at the destination; an OPEN whose tag holds succeeds with the text at the destination, one whose tag
fails gives result 2 and leaves SRAM. -/
def Obligations.CipherServiceRuns : Prop :=
  (∀ (s : State) (ep : Nat) (w : BitVec 32),
    epServes s ep = true → memOn s ep = true → hostWriteOk s 0x09 = true → s.sec.lockHeld = false → fld w 0 16 ≠ 0 →
    exec (.csLock ep w) s = .next
        ({ s with sec.lockHeld := true, sec.lockToken := BitVec.ofNat 16 (fld w 0 16), sec.lockEp := ep, sec.lockAt := now s })) ∧
  (∀ (s : State) (ep : Nat) (w : BitVec 32),
    epServes s ep = true → memOn s ep = true → hostWriteOk s 0x09 = true → s.sec.lockHeld = true →
    fld w 0 16 ≠ 0 ∨ ep ≠ s.sec.lockEp →
    exec (.csLock ep w) s = .next (s)) ∧
  (∀ (s : State) (w : BitVec 32),
    epServes s s.sec.lockEp = true → memOn s s.sec.lockEp = true → hostWriteOk s 0x09 = true → s.sec.lockHeld = true →
    fld w 0 16 = 0 →
    exec (.csLock s.sec.lockEp w) s = .next ({ s with sec.lockHeld := false, sec.lockToken := 0, sec.lockEp := 0 })) ∧
  (∀ (s : State), alive s = true → s.sec.lockHeld = true → s.sec.csState ≠ 1 → s.sec.lockAt + 10 ^ 10 ≤ now s →
    ∃ t, exec .csLockTimeout s = .next t ∧ t.sec.lockHeld = false ∧ t.sec.lockToken = 0 ∧ t.sec.csState = s.sec.csState) ∧
  (∀ (s : State) (slot srcSpace dstSpace : Nat),
    hostWriteOk s 0x09 = true → s.sec.lockHeld = true → s.sec.csState ≠ 1 → (boundSlot s slot).present = true →
    (boundSlot s slot).dedup = none → slot ≠ 0 →
    s.sec.csLen ≤ 1048576 ∧ s.sec.csAadLen ≤ 65536 ∧ s.sec.csAadLen ≤ s.sec.csLen →
    srcSpace < 2 ∧ s.sec.csSrc.toNat + s.sec.csLen ≤ spaceSize s srcSpace →
    dstSpace < 2 ∧ s.sec.csDst.toNat + (s.sec.csLen - s.sec.csAadLen) ≤ spaceSize s dstSpace →
    (boundSlot s slot).csCounter < 2 ^ 63 →
    ∃ t, exec (.csSeal s.sec.lockToken.toNat slot srcSpace dstSpace) s = .next t ∧ t.sec.csState = 1 ∧
      t.sec.bindings = s.sec.bindings ++ [boundGen s] ∧
      (keySlotOf s slot = boundSlot s slot → (keySlotOf t slot).csCounter = (keySlotOf s slot).csCounter + 1) ∧
      (keySlotOf s slot ≠ boundSlot s slot → t.sec.slots = s.sec.slots) ∧ t.sec.csJob.map (fun j => (j.key, j.iv, j.aad ++
        j.text)) = some ((boundSlot s slot).key, sealIv s slot (boundSlot s slot).csCounter, spaceRead s srcSpace
        s.sec.csSrc.toNat s.sec.csLen)) ∧
  (∀ (s : State) (token slot srcSpace dstSpace : Nat),
    hostWriteOk s 0x09 = true →
    s.sec.lockHeld = false ∨ token ≠ s.sec.lockToken.toNat ∨ s.sec.csState = 1 ∨ (boundSlot s slot).present = false →
    exec (.csSeal token slot srcSpace dstSpace) s = .next
        ({ s with sec.csErr := true, sec.csResult := if s.sec.csState = 1 then s.sec.csResult else 3 })) ∧
  (∀ (s : State) (slot srcSpace dstSpace : Nat),
    hostWriteOk s 0x09 = true → s.sec.lockHeld = true → s.sec.csState ≠ 1 → (boundSlot s slot).present = true →
    (boundSlot s slot).dedup = none → slot ≠ 0 →
    s.sec.csLen ≤ 1048576 ∧ s.sec.csAadLen ≤ 65536 ∧ s.sec.csAadLen ≤ s.sec.csLen →
    srcSpace < 2 ∧ s.sec.csSrc.toNat + s.sec.csLen ≤ spaceSize s srcSpace →
    dstSpace < 2 ∧ s.sec.csDst.toNat + (s.sec.csLen - s.sec.csAadLen) ≤ spaceSize s dstSpace →
    ∃ t, exec (.csOpen s.sec.lockToken.toNat slot srcSpace dstSpace) s = .next t ∧ t.sec.csState = 1 ∧
      t.sec.bindings = s.sec.bindings ++ [boundGen s] ∧ t.sec.slots = s.sec.slots ∧
      t.sec.csJob.map (fun j => (j.key, j.open_)) = some ((boundSlot s slot).key, true)) ∧
  (∀ (s : State) (j : CsJob), alive s = true → s.sec.drbgOk = true → s.sec.csJob = some j → j.dstSpace = 1 →
    ∃ t, exec .csJobDone s = .next t ∧ t.sec.csState = 2 ∧ t.sec.csJob = none ∧ t.sec.bindings = s.sec.bindings.drop 1 ∧
        (j.open_ = false → t.sec.csResult = 1 ∧ t.sram = memWriteBytes 0 s.sram j.dst (Config.gcmSeal j.key j.iv j.aad
        j.text).1) ∧ (j.open_ = true → ∀ p ∈ Config.gcmOpen j.key j.iv j.aad j.text j.tag, t.sec.csResult = 1 ∧ t.sram =
        memWriteBytes 0 s.sram j.dst p) ∧
      (j.open_ = true → Config.gcmOpen j.key j.iv j.aad j.text j.tag = none → t.sec.csResult = 2 ∧ t.sram = s.sram))

/-- DIGEST_START by a served endpoint, of the idle service with algorithm 1 or 2, a length of 1 byte to 1 GiB and a source
within its space: the service is busy for that endpoint and algorithm with the bytes read there. With any of these missing it
sets REFUSED and changes nothing else. DIGEST_DONE of a busy job of the host: it is done now, counts the bytes, and its digest
stands in the result, and nothing else changes. Of a job of a local FIXITY: the service is idle, counts the bytes, and the
command is at its end. DIGEST_RELEASE of a done or cleared service by its endpoint: it is idle, with cause 0 and the result
zero; by another endpoint it changes nothing. DIGEST_LAPSE of a done service 10 s later: it is idle with cause 3 and the
result zero. -/
def Obligations.DigestServiceRuns : Prop :=
  (∀ (s : State) (ep alg space : Nat),
    epServes s ep = true → memOn s ep = true → hostWriteOk s 0x0A = true → s.dig.st = .idle → alg = 1 ∨ alg = 2 →
    1 ≤ s.dig.len ∧ s.dig.len ≤ 2 ^ 30 → space < 2 → s.dig.src.toNat + s.dig.len ≤ spaceSize s space →
    ∃ t, exec (.digestStart ep alg space) s = .next t ∧ t.dig.st = .busy ∧ t.dig.ep = ep ∧ t.dig.alg = alg ∧
      t.dig.msg = spaceRead s space s.dig.src.toNat s.dig.len ∧ t.dig.cmd = none) ∧
  (∀ (s : State) (ep alg space : Nat),
    epServes s ep = true → memOn s ep = true → hostWriteOk s 0x0A = true → s.dig.st ≠ .idle ∨ (alg ≠ 1 ∧ alg ≠ 2) ∨
      s.dig.len = 0 ∨ 2 ^ 30 < s.dig.len ∨ 2 ≤ space ∨ spaceSize s space < s.dig.src.toNat + s.dig.len →
    exec (.digestStart ep alg space) s = .next ({ s with dig.refused := true })) ∧
  (∀ (s : State), alive s = true → s.dig.st = .busy → s.dig.cmd = none →
    exec .digestDone s = .next
        ({ s with dig.st := .done, dig.doneBytes := s.dig.msg.length, dig.msg := [], dig.result := wordsOf 12 (digestOf s.dig.alg s.dig.msg), dig.doneAt := now s })) ∧
  (∀ (s : State) (q : QueueId) (tag : Nat),
    alive s = true → s.dig.st = .busy → s.dig.cmd = some (q, tag) → s.dig.remote = false →
    ∃ t, exec .digestDone s = .next t ∧ t.dig.st = .idle ∧ t.dig.cmd = none ∧ t.dig.doneBytes = s.dig.msg.length ∧
      cmdOf t q tag = none) ∧
  (∀ (s : State),
    epServes s s.dig.ep = true → memOn s s.dig.ep = true → hostWriteOk s 0x0A = true →
    s.dig.st = .done ∨ s.dig.st = .cleared →
    ∃ t, exec (.digestRelease s.dig.ep) s = .next t ∧ t.dig.st = .idle ∧ t.dig.cause = 0 ∧
      t.dig.result = List.replicate 12 0) ∧
  (∀ (s : State) (ep : Nat), epServes s ep = true → memOn s ep = true → hostWriteOk s 0x0A = true → ep ≠ s.dig.ep →
    exec (.digestRelease ep) s = .next (s)) ∧
  (∀ (s : State), alive s = true → s.dig.st = .done → s.dig.doneAt + 10 ^ 10 ≤ now s →
    ∃ t, exec .digestLapse s = .next t ∧ t.dig.st = .idle ∧ t.dig.cause = 3 ∧ t.dig.result = List.replicate 12 0)

/-- For a doorbell of a served endpoint outside FAILSTOP. DB_READY with firmware running, of an active queue with all tags
free: each tag whose bit is 1 is ready, the others stay free, and no command is added or ended. Of a queue that does not
exist, without firmware, or of one being deleted: DB_ERR is set; of one that does not exist write-log and volumes stay.
DB_ABORT with firmware running, of a queue with all tags ready: each tag whose bit is 1 has an abort waiting, nothing else of
the tags changes, and no command ends. Of one fetched tag whose command has not begun, or is READ, FLUSH or ASYNC_EVENT,
neither waiting for its page list nor forwarded: the command ends ABORTED, and that is all. DB_CQ_HEAD with firmware running,
with an index within the ring that frees no more than the unread records, nothing waiting and no command to close the queue:
head and unread count follow, and nothing is sent. With an index outside the ring or one that frees more: DB_ERR is set.
DB_READY_ABORT with firmware running, of an active queue with all tags free, whose staged half equals a word other than 0:
each tag whose bit is 1 is ready with an abort waiting, the others stay free, and the staged half is gone. COALESCING_TIMEOUT
of a queue with unsignalled records and a time, once it has run since the first of them: the count is 0 and the vector is
raised, and nothing else changes. ADMIN_QUEUE_ENABLE by a served endpoint, while it is off: with aligned rings and a size of 5
to 12 the queue exists as it is after reset with these rings, and ENABLE is 1; otherwise CTX_ERR is set and the queues stay.
ADMIN_QUEUE_DISABLE: ENABLE is 0, the queue, its own commands and its asynchronous commands are gone. -/
def Obligations.DoorbellsActOnTags : Prop :=
  (∀ (s : State) (ep q : Nat) (w : BitVec 32) (x : Queue),
    epServes s ep = true → memOn s ep = true → s.glb.mode ≠ .failstop → s.glb.fw = true → queueOf s (.ring ep q) = some x →
    x.tags.length = 32 → x.st = .active → (∀ y ∈ x.tags, y.st = .free) →
    ∃ t, exec (.dbReady ep q w) s = .next t ∧ (queueOf t (.ring ep q)).map (fun y => y.tags.map (·.st)) = some ((List.range
        32).map fun i => if bitOf w i then .ready else .free) ∧ t.dcq.cmds = s.dcq.cmds) ∧
  (∀ (s : State) (ep q : Nat) (w : BitVec 32),
    epServes s ep = true → memOn s ep = true → s.glb.mode ≠ .failstop → queueOf s (.ring ep q) = none →
    ∃ t, exec (.dbReady ep q w) s = .next t ∧ (∀ a ∈ t.dcq.adm[ep]?, a.dbErr = true) ∧ t.wlg = s.wlg ∧ t.red = s.red) ∧
  (∀ (s : State) (ep q : Nat) (w : BitVec 32) (x : Queue),
    epServes s ep = true → memOn s ep = true → s.glb.mode ≠ .failstop → queueOf s (.ring ep q) = some x →
    s.glb.fw = false ∨ x.st = .deleting →
    ∃ t, exec (.dbReady ep q w) s = .next t ∧ (∀ a ∈ t.dcq.adm[ep]?, a.dbErr = true)) ∧
  (∀ (s : State) (ep q : Nat) (w : BitVec 32) (x : Queue),
    epServes s ep = true → memOn s ep = true → s.glb.mode ≠ .failstop → s.glb.fw = true → queueOf s (.ring ep q) = some x →
    x.tags.length = 32 → (∀ y ∈ x.tags, y.st = .ready) →
    ∃ t, exec (.dbAbort ep q w) s = .next t ∧ (queueOf t (.ring ep q)).map (·.tags) = some (x.tags.zipIdx.map fun z => if
        bitOf w z.2 then { z.1 with abort := true } else z.1) ∧ t.dcq.cmds = s.dcq.cmds) ∧
  (∀ (s : State) (ep q i : Nat) (x : Queue) (c : Cmd),
    epServes s ep = true → memOn s ep = true → s.glb.mode ≠ .failstop → s.glb.fw = true → queueOf s (.ring ep q) = some x →
    i < 32 → (x.tags.getD i Tag.reset).st = .fetched → cmdOf s (.ring ep q) i = some c → c.st = .started ∨ (c.st ≠ .listing
      ∧ c.forwarded = false ∧ (cmdOpcode c = 0x01 ∨ cmdOpcode c = 0x03 ∨ cmdOpcode c = 0x89)) →
    exec (.dbAbort ep q (BitVec.ofNat 32 (2 ^ i))) s = .next (finish (.ring ep q) i stAborted 0 0 s)) ∧
  (∀ (s : State) (ep q : Nat) (w : BitVec 32) (x : Queue),
    epServes s ep = true → memOn s ep = true → s.glb.mode ≠ .failstop → s.glb.fw = true → queueOf s (.ring ep q) = some x →
    fld w 0 12 < ringSize x → (fld w 0 12 + ringSize x - x.head) % ringSize x ≤ x.unread → x.waiting = [] →
    x.closer = none →
    ∃ t, exec (.dbCqHead ep q w) s = .next t ∧ (queueOf t (.ring ep q)).map (·.head) = some (fld w 0 12) ∧
      (queueOf t (.ring ep q)).map (·.unread) = some (x.unread - (fld w 0 12 + ringSize x - x.head) % ringSize x) ∧
      t.out = s.out) ∧
  (∀ (s : State) (ep q : Nat) (w : BitVec 32) (x : Queue),
    epServes s ep = true → memOn s ep = true → s.glb.mode ≠ .failstop → queueOf s (.ring ep q) = some x →
    ringSize x ≤ fld w 0 12 ∨ x.unread < (fld w 0 12 + ringSize x - x.head) % ringSize x →
    ∃ t, exec (.dbCqHead ep q w) s = .next t ∧ (∀ a ∈ t.dcq.adm[ep]?, a.dbErr = true)) ∧
  (∀ (s : State) (ep q : Nat) (w : BitVec 32) (x : Queue),
    epServes s ep = true → memOn s ep = true → s.glb.mode ≠ .failstop → s.glb.fw = true → queueOf s (.ring ep q) = some x →
    x.tags.length = 32 → x.st = .active → (∀ y ∈ x.tags, y.st = .free) → stagedHi s ep (0x1000010 + 0x1000 * q) 0 = w →
    w ≠ 0 →
    ∃ t, exec (.dbReadyAbort ep q w) s = .next t ∧ (queueOf t (.ring ep q)).map (fun y => y.tags.map (·.st)) = some
        ((List.range 32).map fun i => if bitOf w i then .ready else .free) ∧
      (∀ y ∈ queueOf t (.ring ep q), ∀ i ∈ List.range 32, bitOf w i = true → (y.tags.getD i Tag.reset).abort = true) ∧
      stagedHi t ep (0x1000010 + 0x1000 * q) 0 = 0) ∧
  (∀ (s : State) (ep q : Nat) (x : Queue),
    powered s = true → queueOf s (.ring ep q) = some x → 0 < x.unsignalled → x.coalTime ≠ 0 →
    x.unsigAt + 1000 * x.coalTime ≤ now s →
    exec (.coalescingTimeout ep q) s = .next (raiseVec ep q (modQueue (.ring ep q) (fun x => { x with unsignalled := 0 })
        s))) ∧
  (∀ (s : State) (ep : Nat) (w : BitVec 32) (a : AdminCtl),
    epServes s ep = true → memOn s ep = true → hostWriteOk s 0x05 = true → s.dcq.adm[ep]? = some a → a.enable = false →
    a.sq.toNat % 2048 = 0 → a.cq.toNat % 4096 = 0 → 5 ≤ fld w 8 4 → fld w 8 4 ≤ 12 →
    ∃ t, exec (.adminQueueEnable ep w) s = .next t ∧
      t.dcq.adm[ep]? = some { a with enable := true, sizeLog2 := fld w 8 4 } ∧ queueOf t (.ring ep 0) = some
        { Queue.reset with id := .ring ep 0, sq := a.sq, cq := a.cq, sizeLog2 := fld w 8 4, held := epHeld (epOf s ep) }) ∧
  (∀ (s : State) (ep : Nat) (w : BitVec 32) (a : AdminCtl),
    epServes s ep = true → memOn s ep = true → hostWriteOk s 0x05 = true → s.dcq.adm[ep]? = some a → a.enable = false →
    a.sq.toNat % 2048 ≠ 0 ∨ a.cq.toNat % 4096 ≠ 0 ∨ fld w 8 4 < 5 ∨ 12 < fld w 8 4 →
    ∃ t, exec (.adminQueueEnable ep w) s = .next t ∧ t.dcq.adm[ep]? = some { a with ctxErr := true } ∧
      t.dcq.queues = s.dcq.queues) ∧
  (∀ (s : State) (ep : Nat) (w : BitVec 32) (a : AdminCtl),
    epServes s ep = true → memOn s ep = true → hostWriteOk s 0x05 = true → s.dcq.adm[ep]? = some a →
    ∃ t, exec (.adminQueueDisable ep w) s = .next t ∧
      t.dcq.adm[ep]? = some { a with enable := false, sizeLog2 := fld w 8 4 } ∧ queueOf t (.ring ep 0) = none ∧
      (∀ c ∈ t.dcq.cmds, c.q ≠ .ring ep 0 ∨ c.remote = true) ∧ (∀ x ∈ t.dcq.async, x.1 ≠ .ring ep 0))

/-- WRITE of a fetchable tag with an abort waiting ends ABORTED right after the fetch. WRITE that starts and fails a first
check ends with the status of that check right after the fetch. RETAIN that starts, passes the first checks, names no page
list, for a volume owned here outside MAINTENANCE, and fails a later check with a status other than RETAINED: it ends with
that status. FLUSH that starts, passes the first checks, names no page list, of a volume that does not move and is owned by
the peer or held in MAINTENANCE, with the pair link up: message 0x0301 carries its queue, tag, generation and words, its
command is noted as forwarded, and the write-log stays. FLUSH that runs here with every write committed, of a ring that can
take a record and has none waiting: one write of the completion record goes to the slot next in the ring with status SUCCESS,
the tag, the generation and the phase. TRANSFER_ERROR of the data of a command in transfer: it ends TRANSFER_ERROR after the
failure is recorded and its hold is given up. Of the fetch of a ready tag that was asked for, in an active queue with no
command to close it: the queue is frozen, and no tag stays ready unless completions wait. Of a completion write of a queue
that is active or frozen, with no command to close it: the queue is frozen and its ring is marked bad. FENCED_COMMAND_START of
a started command that may start: it starts as one that was not kept back. -/
def Obligations.CommandsAreChecked : Prop :=
  (∀ (s : State) (q : QueueId) (tag : Nat) (words : List (BitVec 32)) (plist : Option (List (BitVec 64))),
    fetchable s q tag = true → cmdOpcode (fetchedAs q tag words s) = 0x02 → abortWaits s q tag = true →
    exec (.write q tag words plist) s = .next (finish q tag stAborted 0 0 (afterFetch q tag words s))) ∧
  (∀ (s : State) (q : QueueId) (tag : Nat) (words : List (BitVec 32)) (plist : Option (List (BitVec 64))),
    startsNow 0x02 q tag words s = true → firstChecks (afterFetch q tag words s) (fetchedAs q tag words s) ≠ 0 →
    exec (.write q tag words plist) s = .next (finish q tag (firstChecks (afterFetch q tag words s) (fetchedAs q tag words
        s)) 0 0 (afterFetch q tag words s))) ∧
  (∀ (s : State) (q : QueueId) (tag : Nat) (words : List (BitVec 32)) (k : Nat),
    startsNow 0x07 q tag words s = true → firstChecks (afterFetch q tag words s) (fetchedAs q tag words s) = 0 →
    dlist (fetchedAs q tag words s) = false → s.glb.mode ≠ .maintenance →
    owns s (cmdVolume (fetchedAs q tag words s)) = true → laterChecks (setCmdState (fetchedAs q tag words s) (fun c =>
      { c with plist := [] }) (afterFetch q tag words s)) (fetchedAs q tag words s) (chanTenant s q) = k → k ≠ 0 →
    k ≠ stRetained →
    exec (.retain q tag words) s = .next (finish q tag k 0 0 (setCmdState (fetchedAs q tag words s) (fun c =>
        { c with plist := [] }) (afterFetch q tag words s)))) ∧
  (∀ (s : State) (q : QueueId) (tag : Nat) (words : List (BitVec 32)),
    startsNow 0x03 q tag words s = true → firstChecks (afterFetch q tag words s) (fetchedAs q tag words s) = 0 →
    dlist (fetchedAs q tag words s) = false → s.xhl.moving.contains (cmdVolume (fetchedAs q tag words s)) = false →
    s.glb.mode = .maintenance ∨ owns s (cmdVolume (fetchedAs q tag words s)) = false → s.xhl.link = 2 ∨ s.xhl.link = 3 →
    ∃ t, exec (.flush q tag words) s = .next t ∧
      (∃ c ∈ t.dcq.cmds, c.q = q ∧ c.tag = tag ∧ c.forwarded = true ∧ c.st = .begun) ∧ t.wlg = s.wlg ∧ (∃ m, .xhl 0x0301
        false false m (queueArgs q ++ [tag, (fetchedAs q tag words s).gen, 0]) ((List.range 16).flatMap fun i => leBytes 4
        (cmdWord (fetchedAs q tag words s) i).toNat) ∈ t.out)) ∧
  (∀ (s : State) (ep n : Nat) (tag : Nat) (words : List (BitVec 32)) (x : Queue),
    runsHere 0x03 (.ring ep n) tag words s = true →
    committedUpTo s (cmdVolume (fetchedAs (.ring ep n) tag words s)) s.wlg.lsn = true → queueOf s (.ring ep n) = some x →
    canPost s x = true → x.waiting = [] →
    ∃ t, exec (.flush (.ring ep n) tag words) s = .next t ∧ .hostWrite ep false (x.cq + BitVec.ofNat 64 (16 * x.next))
        (leBytes 2 0 ++ leBytes 1 (tag % 32 + 32 * ((fetchedAs (.ring ep n) tag words s).gen % 8)) ++ leBytes 1 (b2n
        x.phase) ++ leBytes 4 0 ++ leBytes 8 0) ∈ t.out) ∧
  (∀ (s : State) (ep n tag : Nat) (kind : ReadError) (addr : BitVec 64) (c : Cmd),
    alive s = true → queueOf s (.ring ep n) ≠ none → cmdOf s (.ring ep n) tag = some c → c.st = .transfer →
    exec (.transferError ep n { what := .data tag, error := kind } addr) s = .next (finish (.ring ep n) tag stTransferError
        0 0 (abortSentOn c (dropWrite c (aerTransfer ep kind (recordTransfer (srcId 1 0 ep) addr s)))))) ∧
  (∀ (s : State) (ep n tag : Nat) (kind : ReadError) (addr : BitVec 64) (x : Queue),
    alive s = true → queueOf s (.ring ep n) = some x → x.closer = none → x.tags.length = 32 →
    (x.tags.getD tag Tag.reset).st = .ready → (x.tags.getD tag Tag.reset).asked = true → x.st = .active →
    ∃ t, exec (.transferError ep n { what := .fetch tag, error := kind } addr) s = .next t ∧
      (queueOf t (.ring ep n)).map (·.st) = some .frozen ∧
      (∀ y ∈ queueOf t (.ring ep n), ∀ z ∈ y.tags, z.st ≠ .ready ∨ y.waiting ≠ [])) ∧
  (∀ (s : State) (ep n : Nat) (kind : ReadError) (addr : BitVec 64) (x : Queue),
    alive s = true → queueOf s (.ring ep n) = some x → x.closer = none → x.st = .active ∨ x.st = .frozen →
    ∃ t, exec (.transferError ep n { what := .completion, error := kind } addr) s = .next t ∧
      (queueOf t (.ring ep n)).map (·.st) = some .frozen ∧ (queueOf t (.ring ep n)).map (·.ringBad) = some true) ∧
  (∀ (s : State) (q : QueueId) (tag gen : Nat) (media : List StoredRead) (c : Cmd),
    alive s = true → cmdOf s q tag = some c → tagMatches s q tag gen = true → c.st = .started → mayStart s c = true →
    exec (.fencedCommandStart q tag gen media) s = .next (startCmd c media s))

/-- Each clause is about a command that starts, passes its checks, names no page list and runs on this head. READ of a range
with no lost sector: data and PI of each sector are delivered in order, and the command ends SUCCESS. READ whose first lost
sector has index i: data and PI of the others are delivered, and it ends DATA_LOST with i. WRITE with no write held and room
for its frames: its reservation joins the others, no write is held, frames and volumes stay. WRITE otherwise: it joins the
held writes in the order of the fetches, reservations and frames stay. FLUSH with every write of the volume committed ends
SUCCESS; otherwise it waits, and nothing else changes. DISCARD with no cut of a waiting snapshot before the newest write
unmaps its chunks and ends SUCCESS; with such a cut it waits, and nothing else changes. FIXITY of a range with no lost sector
while the digest service is idle: the service is busy for the command with its algorithm and the bytes of the range. FIXITY
while it is not idle, but for a host job started in this cycle, ends DIGEST_BUSY; over such a job it takes the service, and
the host is refused. QUERY of an existing volume delivers its page and ends SUCCESS with 4 096. -/
def Obligations.DataCommandsRun : Prop :=
  (∀ (s : State) (q : QueueId) (tag : Nat) (words : List (BitVec 32)) (plist : Option (List (BitVec 64))) (media : List
    StoredRead) (c : Cmd) (l : List SectorRead) (u : State),
    runsHere 0x01 q tag words s = true → fetchedAs q tag words s = c →
    readRange (cmdVolume c) (cmdSnap c) (cmdTenant c) (cmdLba c) (cmdCount c) media (begunState q tag words s) = (l, u) →
    (∀ r ∈ l, r.lost = false) →
    exec (.read q tag words plist media) s = .next (finish q tag stSuccess 0 0 (l.zipIdx.foldl (fun v r => deliver c
        (outAddr c 1 r.2) r.1.pi (deliver c (outAddr c 0 r.2) r.1.data v)) u))) ∧
  (∀ (s : State) (q : QueueId) (tag : Nat) (words : List (BitVec 32)) (plist : Option (List (BitVec 64))) (media : List
    StoredRead) (c : Cmd) (l : List SectorRead) (u : State) (i : Nat),
    runsHere 0x01 q tag words s = true → fetchedAs q tag words s = c →
    readRange (cmdVolume c) (cmdSnap c) (cmdTenant c) (cmdLba c) (cmdCount c) media (begunState q tag words s) = (l, u) →
    (l[i]?).any (·.lost) = true → (∀ r ∈ l.take i, r.lost = false) →
    exec (.read q tag words plist media) s = .next (finish q tag stDataLost (w32 i) 0 (l.zipIdx.foldl (fun v r => if
        r.1.lost then v else deliver c (outAddr c 1 r.2) r.1.pi (deliver c (outAddr c 0 r.2) r.1.data v)) u))) ∧
  (∀ (s : State) (q : QueueId) (tag : Nat) (words : List (BitVec 32)) (plist : Option (List (BitVec 64))) (c : Cmd),
    runsHere 0x02 q tag words s = true → fetchedAs q tag words s = c → s.wlg.holds = [] →
    fits s (frameCount (cmdLba c) (cmdCount c)) = true →
    ∃ t, exec (.write q tag words plist) s = .next t ∧ t.wlg.reserved = s.wlg.reserved ++ [heldOf s c] ∧ t.wlg.holds = [] ∧
      t.wlg.frames = s.wlg.frames ∧ t.red = s.red) ∧
  (∀ (s : State) (q : QueueId) (tag : Nat) (words : List (BitVec 32)) (plist : Option (List (BitVec 64))) (c : Cmd),
    runsHere 0x02 q tag words s = true → fetchedAs q tag words s = c →
    s.wlg.holds ≠ [] ∨ fits s (frameCount (cmdLba c) (cmdCount c)) = false →
    ∃ t, exec (.write q tag words plist) s = .next t ∧ t.wlg.holds = insertBy (·.fetchedAt) (heldOf s c) s.wlg.holds ∧
      t.wlg.reserved = s.wlg.reserved ∧ t.wlg.frames = s.wlg.frames) ∧
  (∀ (s : State) (q : QueueId) (tag : Nat) (words : List (BitVec 32)),
    runsHere 0x03 q tag words s = true → committedUpTo s (cmdVolume (fetchedAs q tag words s)) s.wlg.lsn = true →
    exec (.flush q tag words) s = .next (finish q tag stSuccess 0 0 (begunState q tag words s))) ∧
  (∀ (s : State) (q : QueueId) (tag : Nat) (words : List (BitVec 32)),
    runsHere 0x03 q tag words s = true → committedUpTo s (cmdVolume (fetchedAs q tag words s)) s.wlg.lsn = false →
    exec (.flush q tag words) s = .next (setCmdState (fetchedAs q tag words s) (fun c => { c with st := .waiting })
        (begunState q tag words s))) ∧
  (∀ (s : State) (q : QueueId) (tag : Nat) (words : List (BitVec 32)) (c : Cmd),
    runsHere 0x04 q tag words s = true → fetchedAs q tag words s = c → (∀ k ∈ pendingCut s (cmdVolume c), s.wlg.lsn ≤ k) →
    exec (.discard q tag words) s = .next (finish q tag stSuccess 0 0 (discardChunks c (begunState q tag words s)))) ∧
  (∀ (s : State) (q : QueueId) (tag : Nat) (words : List (BitVec 32)) (k : Nat),
    runsHere 0x04 q tag words s = true → pendingCut s (cmdVolume (fetchedAs q tag words s)) = some k → k < s.wlg.lsn →
    exec (.discard q tag words) s = .next (setCmdState (fetchedAs q tag words s) (fun c => { c with st := .waiting })
        (begunState q tag words s))) ∧
  (∀ (s : State) (q : QueueId) (tag : Nat) (words : List (BitVec 32)) (media : List StoredRead) (c : Cmd) (l : List SectorRead)
    (u : State),
    runsHere 0x06 q tag words s = true → fetchedAs q tag words s = c → s.dig.st = .idle →
    readRange (cmdVolume c) (cmdSnap c) (cmdTenant c) (cmdLba c) (cmdCount c) media (begunState q tag words s) = (l, u) →
    (∀ r ∈ l, r.lost = false) →
    ∃ t, exec (.fixity q tag words media) s = .next t ∧ t.dig.st = .busy ∧ t.dig.fixity = true ∧ t.dig.alg = cmdAt c 40 1 ∧
      t.dig.msg = l.flatMap (·.data) ∧ t.dig.cmd = some (q, tag) ∧ t.dig.result = List.replicate 12 0 ∧ t.red = u.red) ∧
  (∀ (s : State) (q : QueueId) (tag : Nat) (words : List (BitVec 32)) (media : List StoredRead),
    runsHere 0x06 q tag words s = true → s.dig.st ≠ .idle →
    s.dig.st ≠ .busy ∨ s.dig.cmd.isSome = true ∨ s.dig.startAt ≠ some (now s) →
    exec (.fixity q tag words media) s = .next (finish q tag stDigestBusy 0 0 (begunState q tag words s))) ∧
  (∀ (s : State) (q : QueueId) (tag : Nat) (words : List (BitVec 32)) (media : List StoredRead) (c : Cmd) (l : List SectorRead)
    (u : State),
    runsHere 0x06 q tag words s = true → fetchedAs q tag words s = c → s.dig.st = .busy → s.dig.cmd = none →
    s.dig.startAt = some (now s) → readRange (cmdVolume c) (cmdSnap c) (cmdTenant c) (cmdLba c) (cmdCount c) media
      { begunState q tag words s with dig.refused := true } = (l, u) → (∀ r ∈ l, r.lost = false) →
    ∃ t, exec (.fixity q tag words media) s = .next t ∧ t.dig.st = .busy ∧ t.dig.fixity = true ∧
      t.dig.msg = l.flatMap (·.data) ∧ t.dig.cmd = some (q, tag) ∧ t.dig.refused = true) ∧
  (∀ (s : State) (q : QueueId) (tag : Nat) (words : List (BitVec 32)) (c : Cmd) (x : Volume),
    runsHere 0x0B q tag words s = true → fetchedAs q tag words s = c → volOf s (cmdVolume c) = some x →
    exec (.query q tag words) s = .next (finish q tag stSuccess 4096 0 (deliver c (cmdData c) (queryPage s x (cmdAt c 40 1)
        (cmdAt c 44 4)) (begunState q tag words s))))

/-- Each clause is about a command on an existing volume that starts, passes its checks, names no page list and runs on this
head; of the volume nothing but what is said changes. RASTER_HINT of a range: the transient hints are cut out of the range,
and the geometry is added as a transient hint; if it is to be remembered, both lists are cut out of the range, and it stands
in the remembered ranges. RASTER_HINT of the whole volume: it is the one transient hint left of the volume, or, to be
remembered, the default geometry with no transient hint left. RETAIN within the limits of the volume and of the array: the
locks are those that the new one does not touch and the one joined of it and those of equal expiry that it touches. SNAPSHOT
with a free number: the snapshot of that number, with the present civil time as its point and the newest write of the volume
as its cut, is added, the command waits with that cut and number, and nothing is sent. CLONE of a snapshot with fewer than 65
536 volumes: the new volume has the size, tenant and settings of the volume and the pages of the snapshot, created now; the
volume stays. SNAP_DELETE: the listed snapshots of that number are no longer listed and are being deleted since now, and no
listed one of that number is left. -/
def Obligations.VolumeCommandsRun : Prop :=
  (∀ (s : State) (q : QueueId) (tag : Nat) (words : List (BitVec 32)) (c : Cmd) (x : Volume),
    runsHere 0x05 q tag words s = true → fetchedAs q tag words s = c → cmdAt c 42 1 = 0 → cmdCount c ≠ 0 →
    volOf s (cmdVolume c) = some x →
    ∃ t, exec (.rasterHint q tag words) s = .next t ∧ volOf t (cmdVolume c) = some
        { x with transient := cutHints (cmdLba c) (cmdCount c) x.transient ++ [{ lba := cmdLba c, count := cmdCount c, geom := { bits := cmdAt c 40 1, lanes := cmdAt c 41 1, stride := cmdAt c 44 4, row0 := cmdLba c } }] }) ∧
  (∀ (s : State) (q : QueueId) (tag : Nat) (words : List (BitVec 32)) (c : Cmd) (x : Volume),
    runsHere 0x05 q tag words s = true → fetchedAs q tag words s = c → cmdAt c 42 1 = 1 → cmdCount c ≠ 0 →
    volOf s (cmdVolume c) = some x →
    ∃ t, exec (.rasterHint q tag words) s = .next t ∧ volOf t (cmdVolume c) = some
        { x with transient := cutHints (cmdLba c) (cmdCount c) x.transient, ranges := insertBy (·.lba) { lba := cmdLba c, count := cmdCount c, geom := { bits := cmdAt c 40 1, lanes := cmdAt c 41 1, stride := cmdAt c 44 4, row0 := cmdLba c } } (cutHints (cmdLba c) (cmdCount c) x.ranges) }) ∧
  (∀ (s : State) (q : QueueId) (tag : Nat) (words : List (BitVec 32)) (c : Cmd) (x : Volume),
    runsHere 0x05 q tag words s = true → fetchedAs q tag words s = c → cmdAt c 42 1 = 1 → cmdCount c = 0 →
    volOf s (cmdVolume c) = some x →
    ∃ t, exec (.rasterHint q tag words) s = .next t ∧ volOf t (cmdVolume c) = some
        { x with transient := cutHints 0 x.size x.transient, default_ := some { bits := cmdAt c 40 1, lanes := cmdAt c 41 1, stride := cmdAt c 44 4, row0 := cmdLba c } }) ∧
  (∀ (s : State) (q : QueueId) (tag : Nat) (words : List (BitVec 32)) (c : Cmd) (x : Volume),
    runsHere 0x05 q tag words s = true → fetchedAs q tag words s = c → cmdAt c 42 1 = 0 → cmdCount c = 0 →
    volOf s (cmdVolume c) = some x →
    ∃ t, exec (.rasterHint q tag words) s = .next t ∧ volOf t (cmdVolume c) = some
        { x with transient := cutHints 0 x.size x.transient ++ [{ lba := 0, count := x.size, geom := { bits := cmdAt c 40 1, lanes := cmdAt c 41 1, stride := cmdAt c 44 4, row0 := cmdLba c } }] }) ∧
  (∀ (s : State) (q : QueueId) (tag : Nat) (words : List (BitVec 32)) (c : Cmd) (x : Volume) (m : Lock) (rest : List Lock),
    runsHere 0x07 q tag words s = true → fetchedAs q tag words s = c → volOf s (cmdVolume c) = some x → mergeLock
      { lba := cmdLba c, count := retainCount x c, expiry := cmdTime c 40, placed := civilNow s } x.locks = (m, rest) →
    rest.length + 1 ≤ 1024 →
    s.red.volumes.foldl (fun n y => if y.num = x.num then n else n + y.locks.length) 0 + rest.length + 1 ≤ 262144 →
    ∃ t, exec (.retain q tag words) s = .next t ∧ (volOf t (cmdVolume c)).map (·.locks) = some (insertBy (·.lba) m rest) ∧
      (∀ y ∈ volOf t (cmdVolume c), { y with locks := x.locks } = x)) ∧
  (∀ (s : State) (q : QueueId) (tag : Nat) (words : List (BitVec 32)) (c : Cmd) (x : Volume) (n : Nat),
    runsHere 0x08 q tag words s = true → fetchedAs q tag words s = c → volOf s (cmdVolume c) = some x →
    freeSnap x = some n →
    ∃ t, exec (.snapshot q tag words) s = .next t ∧ volOf t (cmdVolume c) = some
        { x with snaps := x.snaps ++ [{ Snapshot.reset with num := n, point := civilNow s, cut := volumeLsn s x }] } ∧ (∀ y
        ∈ t.dcq.cmds, y.q = q → y.tag = tag → y.remote = false → y.st = .waiting ∧ y.cover = volumeLsn s x ∧ y.left = n) ∧
      t.out = s.out) ∧
  (∀ (s : State) (q : QueueId) (tag : Nat) (words : List (BitVec 32)) (c : Cmd) (x : Volume) (p : Snapshot),
    runsHere 0x09 q tag words s = true → fetchedAs q tag words s = c → volOf s (cmdVolume c) = some x →
    snapOf x (cmdSnap c) = some p → s.red.volumes.length < 65536 →
    ∃ t, exec (.clone q tag words) s = .next t ∧ volOf t (cmdAt c 40 2) = some
        { Volume.reset with num := cmdAt c 40 2, tenant := x.tenant, size := x.size, k := x.k, m := x.m, reduce := x.reduce, dedup := x.dedup, verify := x.verify, table := p.table, created := civilNow s }
        ∧ volOf t (cmdVolume c) = some x) ∧
  (∀ (s : State) (q : QueueId) (tag : Nat) (words : List (BitVec 32)) (c : Cmd) (x : Volume),
    runsHere 0x0A q tag words s = true → fetchedAs q tag words s = c → volOf s (cmdVolume c) = some x →
    ∃ t, exec (.snapDelete q tag words) s = .next t ∧ volOf t (cmdVolume c) = some
        { x with snaps := x.snaps.map fun p => if p.num = cmdSnap c ∧ p.listed = true then { p with listed := false, deleting := true, removedAt := some (now s) } else p }
        ∧ (∀ y ∈ volOf t (cmdVolume c), snapOf y (cmdSnap c) = none))

/-- Each clause but the last is about an admin command that starts, passes its checks, names no page list and runs on this
head. CREATE_QUEUE of a number that is free: the queue with its rings, size and coalescing values is added as it is after
reset, record 0x0505 is written, and the command ends SUCCESS; of a number in use it ends QUEUE_STATE. DELETE_QUEUE of a queue
that is neither being deleted nor waited for, with all tags free: the queue is gone and the write-log stays; with a good ring,
a fetched tag and no ready one: it is being deleted, waited for by the command, and nothing is sent. RESET_QUEUE of a frozen
queue that no command waits for, with no command of its own left: it is active with its ring at the start, the tags of waiting
completions are free, and its other fields stay; of one that is not frozen it ends QUEUE_STATE. ASYNC_EVENT without an event
waits, and nothing is sent; with events it ends with the oldest, which leaves the list, and MORE when others are left.
QUERY_DEVICE delivers its page and ends SUCCESS. POWER_HINT: bit 0 of its mask sets the time of the next activity, or
withdraws it when it is 0 or not ahead; bits 1 to 3 set consent, guard and threshold; bit 4 permits idle states at once; what
is not selected stays, and the volumes stay. POWER_HINT_LAPSE of a hint whose time has come removes it and changes nothing
else. -/
def Obligations.QueueCommandsRun : Prop :=
  (∀ (s : State) (ep tag : Nat) (words : List (BitVec 32)) (c : Cmd),
    runsHere 0x81 (.ring ep 0) tag words s = true → fetchedAs (.ring ep 0) tag words s = c →
    queueOf s (.ring ep (cmdAt c 40 2)) = none →
    exec (.createQueue (.ring ep 0) tag words) s = .next (finish (.ring ep 0) tag stSuccess 0 0 (record 0x0505 queueSrc [ep,
        cmdAt c 40 2, 0]
        { begunState (.ring ep 0) tag words s with dcq.queues := (begunState (.ring ep 0) tag words s).dcq.queues ++ [{ Queue.reset with id := .ring ep (cmdAt c 40 2), sq := cmdData c, cq := cmdPi c, sizeLog2 := cmdAt c 42 1, coalCount := cmdAt c 43 1, coalTime := cmdAt c 44 1, held := epHeld (epOf s ep) }] }))) ∧
  (∀ (s : State) (ep tag : Nat) (words : List (BitVec 32)),
    runsHere 0x81 (.ring ep 0) tag words s = true → cmdAt (fetchedAs (.ring ep 0) tag words s) 40 2 ≠ 0 →
    queueOf s (.ring ep (cmdAt (fetchedAs (.ring ep 0) tag words s) 40 2)) ≠ none →
    exec (.createQueue (.ring ep 0) tag words) s = .next (finish (.ring ep 0) tag stQueueState 0 0 (begunState (.ring ep 0)
        tag words s))) ∧
  (∀ (s : State) (ep tag : Nat) (words : List (BitVec 32)) (c : Cmd) (x : Queue),
    runsHere 0x82 (.ring ep 0) tag words s = true → fetchedAs (.ring ep 0) tag words s = c →
    queueOf s (.ring ep (cmdAt c 40 2)) = some x → x.st ≠ .deleting → x.closer = none → (∀ y ∈ x.tags, y.st = .free) →
    ∃ t, exec (.deleteQueue (.ring ep 0) tag words) s = .next t ∧ queueOf t (.ring ep (cmdAt c 40 2)) = none ∧
      t.wlg = s.wlg) ∧
  (∀ (s : State) (ep tag : Nat) (words : List (BitVec 32)) (c : Cmd) (x : Queue),
    runsHere 0x82 (.ring ep 0) tag words s = true → fetchedAs (.ring ep 0) tag words s = c →
    queueOf s (.ring ep (cmdAt c 40 2)) = some x → x.st ≠ .deleting → x.closer = none → x.ringBad = false →
    (∃ y ∈ x.tags, y.st = .fetched) → (∀ y ∈ x.tags, y.st ≠ .ready) →
    ∃ t, exec (.deleteQueue (.ring ep 0) tag words) s = .next t ∧
      (queueOf t (.ring ep (cmdAt c 40 2))).map (·.st) = some .deleting ∧
      (queueOf t (.ring ep (cmdAt c 40 2))).map (·.closer) = some (some tag) ∧ t.out = s.out) ∧
  (∀ (s : State) (ep tag : Nat) (words : List (BitVec 32)) (c : Cmd) (x : Queue),
    runsHere 0x83 (.ring ep 0) tag words s = true → fetchedAs (.ring ep 0) tag words s = c → cmdAt c 40 2 ≠ 0 →
    queueOf s (.ring ep (cmdAt c 40 2)) = some x → x.st = .frozen → x.closer = none →
    (∀ y ∈ s.dcq.cmds, y.q = .ring ep (cmdAt c 40 2) → y.remote = true) →
    ∃ t, exec (.resetQueue (.ring ep 0) tag words) s = .next t ∧ queueOf t (.ring ep (cmdAt c 40 2)) = some
        { x with st := .active, closer := none, waiting := [], next := 0, phase := true, head := 0, unread := 0, ringBad := false, unsignalled := 0, tags := x.waiting.foldl (fun ts k => ts.modify k.tag freeTag) x.tags }) ∧
  (∀ (s : State) (ep tag : Nat) (words : List (BitVec 32)) (c : Cmd) (x : Queue),
    runsHere 0x83 (.ring ep 0) tag words s = true → fetchedAs (.ring ep 0) tag words s = c → cmdAt c 40 2 ≠ 0 →
    queueOf s (.ring ep (cmdAt c 40 2)) = some x → x.st ≠ .frozen →
    exec (.resetQueue (.ring ep 0) tag words) s = .next (finish (.ring ep 0) tag stQueueState 0 0 (begunState (.ring ep 0)
        tag words s))) ∧
  (∀ (s : State) (ep tag : Nat) (words : List (BitVec 32)),
    runsHere 0x89 (.ring ep 0) tag words s = true → s.dcq.events = [] →
    ∃ t, exec (.asyncEvent (.ring ep 0) tag words) s = .next t ∧ t.dcq.async = s.dcq.async ++ [(.ring ep 0, tag)] ∧
      t.out = s.out ∧ (∃ y ∈ t.dcq.cmds, y.q = .ring ep 0 ∧ y.tag = tag ∧ y.st = .waiting)) ∧
  (∀ (s : State) (ep tag : Nat) (words : List (BitVec 32)) (e : AsyncEvent) (r : List AsyncEvent),
    runsHere 0x89 (.ring ep 0) tag words s = true → s.dcq.events = e :: r →
    exec (.asyncEvent (.ring ep 0) tag words) s = .next (finishWith (.ring ep 0) tag stSuccess (w32 (e.code % 65536 + 65536
        * (e.source % 65536))) (join64 e.p1 e.p0) false (decide (r ≠ []))
        { begunState (.ring ep 0) tag words s with dcq.events := r })) ∧
  (∀ (s : State) (ep tag : Nat) (words : List (BitVec 32)) (c : Cmd),
    runsHere 0x8A (.ring ep 0) tag words s = true → fetchedAs (.ring ep 0) tag words s = c →
    exec (.queryDevice (.ring ep 0) tag words) s = .next (finish (.ring ep 0) tag stSuccess 0 0 (deliver c (cmdData c)
        (pageOf ([glbIdent, lo32 Config.serial, hi32 Config.serial, glbModeWord s, glbReadyWord s, cfgStatusWord s,
        psLatWord].flatMap fun w => leBytes 4 w.toNat)) (begunState (.ring ep 0) tag words s)))) ∧
  (∀ (s : State) (ep tag : Nat) (words : List (BitVec 32)) (c : Cmd) (m : Nat),
    runsHere 0x88 (.ring ep 0) tag words s = true → fetchedAs (.ring ep 0) tag words s = c → cmdAt c 48 1 = m →
    ∃ t, exec (.powerHint (.ring ep 0) tag words) s = .next t ∧ (t.dcq.hintTime = if m.testBit 0 then (if cmdTime c 40 = 0 ∨
        cmdTime c 40 ≤ civilNow s then none else some (cmdTime c 40)) else s.dcq.hintTime) ∧
      (t.pwr.consent = if m.testBit 1 then decide (cmdAt c 49 1 = 1) else s.pwr.consent) ∧
      (t.pwr.guardMin = if m.testBit 2 then cmdAt c 50 1 else s.pwr.guardMin) ∧
      (t.pwr.thresholdMin = if m.testBit 3 then cmdAt c 52 2 else s.pwr.thresholdMin) ∧
      t.pwr.idleNow = (s.pwr.idleNow || m.testBit 4) ∧ t.red = s.red) ∧
  (∀ (s : State), powered s = true → (s.dcq.hintTime.any fun t => decide (t ≤ civilNow s)) = true →
    exec .powerHintLapse s = .next ({ s with dcq.hintTime := none }))

/-- Each clause is about an admin command that starts, passes its checks, names no page list and runs on this head.
CREATE_VOLUME without deduplication, with fewer than 65 536 volumes: the volume has the tenant, size and flags asked for, the
geometry asked for or the default, verification when asked for or due to M = 3, and is created now; the other volumes and the
seed spaces stay. With deduplication, when a seed space can be opened: the volume has its tenant and size and is deduplicated,
and the tenant has a seed space. DELETE_VOLUME: the volume, its frames, its jobs and its lost records are gone, and no volume
is added. SET_PERIOD sets the period of the tenant and ends SUCCESS. SET_TIME by at most 1 s forward, or armed: civil time is
the value and valid, the arming is used up, and the high-water mark has not fallen. By more than 1 s forward and not armed:
civil time and the high-water mark stay, and the refusal is noted. -/
def Obligations.ObjectCommandsRun : Prop :=
  (∀ (s : State) (q : QueueId) (tag : Nat) (words : List (BitVec 32)) (c : Cmd),
    runsHere 0x84 q tag words s = true → fetchedAs q tag words s = c → s.red.volumes.length < 65536 →
    (cmdAt c 50 1).testBit 1 = false →
    ∃ t, exec (.createVolume q tag words) s = .next t ∧ volOf t (cmdVolume c) = some
        { Volume.reset with num := cmdVolume c, tenant := cmdTenant c, size := cmdAt c 40 8, k := (askedGeometry s c).1, m := (askedGeometry s c).2, reduce := (cmdAt c 50 1).testBit 0, dedup := false, verify := (cmdAt c 50 1).testBit 2 || (decide ((askedGeometry s c).2 = 3) && !s.red.archNoVerify), created := civilNow s }
        ∧ (∀ v ∈ s.red.volumes, v.num ≠ cmdVolume c → v ∈ t.red.volumes) ∧ t.red.spaces = s.red.spaces) ∧
  (∀ (s : State) (q : QueueId) (tag : Nat) (words : List (BitVec 32)) (c : Cmd),
    runsHere 0x84 q tag words s = true → fetchedAs q tag words s = c → s.red.volumes.length < 65536 →
    (cmdAt c 50 1).testBit 1 = true →
    (openSeedSpace (cmdTenant c) (askedGeometry s c).1 (askedGeometry s c).2 (begunState q tag words s)).isSome = true →
    ∃ t, exec (.createVolume q tag words) s = .next t ∧
      (volOf t (cmdVolume c)).map (fun v => (v.tenant, v.size, v.dedup)) = some (cmdTenant c, cmdAt c 40 8, true) ∧
      (spaceOf t (cmdTenant c)).isSome = true) ∧
  (∀ (s : State) (q : QueueId) (tag : Nat) (words : List (BitVec 32)) (c : Cmd) (x : Volume),
    runsHere 0x85 q tag words s = true → fetchedAs q tag words s = c → volOf s (cmdVolume c) = some x →
    ∃ t, exec (.deleteVolume q tag words) s = .next t ∧ volOf t (cmdVolume c) = none ∧
      (∀ f ∈ t.wlg.frames, f.volume ≠ cmdVolume c) ∧ (∀ j ∈ t.wlg.jobs, j.volume ≠ cmdVolume c) ∧
      (∀ r ∈ t.ecp.lostList, r.volume ≠ cmdVolume c) ∧ (∀ v ∈ t.red.volumes, v ∈ s.red.volumes)) ∧
  (∀ (s : State) (q : QueueId) (tag : Nat) (words : List (BitVec 32)) (c : Cmd),
    runsHere 0x86 q tag words s = true → fetchedAs q tag words s = c →
    exec (.setPeriod q tag words) s = .next (finish q tag stSuccess 0 0 (setPeriod (cmdTenant c)
        { kind := cmdAt c 40 1, length := cmdAt c 44 4, origin := cmdTime c 48 } (begunState q tag words s)))) ∧
  (∀ (s : State) (q : QueueId) (tag : Nat) (words : List (BitVec 32)) (c : Cmd),
    runsHere 0x87 q tag words s = true → fetchedAs q tag words s = c →
    cmdTime c 40 - civilNow s ≤ 1000000000 ∨ s.lds.armFwd = true →
    ∃ t, exec (.setTime q tag words) s = .next t ∧ civilNow t = cmdTime c 40 ∧ t.lds.civilValid = true ∧
      t.lds.armFwd = false ∧ (∀ h ∈ s.lds.highWater, h ≤ highWater t)) ∧
  (∀ (s : State) (q : QueueId) (tag : Nat) (words : List (BitVec 32)) (c : Cmd),
    runsHere 0x87 q tag words s = true → fetchedAs q tag words s = c → 1000000000 < cmdTime c 40 - civilNow s →
    s.lds.armFwd = false →
    ∃ t, exec (.setTime q tag words) s = .next t ∧ civilNow t = civilNow s ∧ t.lds.setRefused = true ∧
      t.lds.highWater = s.lds.highWater)

/-- PORT_LINK of a sub-port of the port's mode after CAL, whose lanes change it between up and down, declared with its port in
RUN when it comes up: its link is what its lanes say, its receive buffer is empty, and the remote memory state stays.
FRAME_RECEIVE of a good frame for the sub-port that asks by ARP for its IPv4 address, outside the lossless priority: the
answer goes out and nothing else changes. Of a frame with a bad FCS, for another address, or longer than 9 216 bytes, of an IP
fragment outside the lossless priority, or of a lossless frame that the buffer has no room for: nothing changes. Of a lossless
RoCEv2 request that fits: the buffer holds its bytes more, XOFF stands when it did or when the fill passes the threshold, and
the landing zone stays. Of a RoCEv2 request marked CE, outside the lossless priority, of a known QP with its P_Key, 50 us
after the last CNP, while the QP can send: a CNP goes to it, and only the time of it is kept in the QP. PFC_XON with a fill no
higher than before: the buffer has that fill; when XOFF stands and the fill is 64 KiB below the threshold it is withdrawn with
an XON frame; otherwise it stays and nothing is sent. PFC_PAUSE of a sub-port that is up: a pause is kept with the time it
began, and nothing is sent; its end clears it, and the packets held for the sub-port leave. PFC_STUCK after 100 ms of an
unrecorded pause: PFC_STUCK is set and the links stay. CNP_RECEIVE halves the rate of the QP, to no less than 100 Mb/s, from
now on; RATE_INCREASE 50 us later adds a sixteenth of the sub-port's rate up to all of it, from now on; neither sends
anything, and CNP_RECEIVE leaves the other QPs. ACK_TIMEOUT of a QP with requests unacknowledged for the timeout: below seven
retries, while it can send, one more is counted and every such request is sent again; at seven it is in ERROR or gone. -/
def Obligations.EthernetPortsWork : Prop :=
  (∀ (s : State) (sub : Nat) (lanes : BitVec 4),
    netOn s = true → s.glb.cal = true → sub < 16 → sub / 4 < s.net.ports.length → sub % 4 < subCount (netPort s sub).mode →
    subUp s sub ≠ (subPortRx s (sub / 4) (netPort s sub).mode (sub % 4)).all lanes.getLsbD →
    ((s.img.net.subports.getD sub SubPort.reset).mac ≠ 0 ∧ ctlState s (srcId 1 2 (sub / 4)) = .run) ∨ subUp s sub = true →
    ∃ t, exec (.portLink sub lanes) s = .next t ∧
      subUp t sub = (subPortRx s (sub / 4) (netPort s sub).mode (sub % 4)).all lanes.getLsbD ∧
      (netPort t sub).fill = (netPort s sub).fill.set (sub % 4) 0 ∧ t.rma = s.rma) ∧
  (∀ (s : State) (f : EthFrame),
    netOn s = true → subUp s f.sub = true → f.len ≤ 9216 → f.fcsOk = true → frameForUs s f = true → lossless s f = false →
    (subPort s f.sub).flags.getLsbD 0 = true → f.kind = .arp (subPort s f.sub).ipv4 →
    exec (.frameReceive f) s = .next (emit (.net f.sub 0 f.data) s)) ∧
  (∀ (s : State) (f : EthFrame),
    netOn s = true → subUp s f.sub = true → f.fcsOk = false ∨ frameForUs s f = false ∨ 9216 < f.len ∨ (f.kind = .fragment ∧
      lossless s f = false) ∨ (lossless s f = true ∧ bufferBytes < (netPort s f.sub).fill.getD (f.sub % 4) 0 + f.len) →
    exec (.frameReceive f) s = .next (s)) ∧
  (∀ (s : State) (f : EthFrame) (qpn : Nat) (pkey : BitVec 16) (ce : Bool) (n : Nat),
    netOn s = true → subUp s f.sub = true → f.len ≤ 9216 → f.fcsOk = true → frameForUs s f = true →
    f.kind = .roce qpn pkey ce → lossless s f = true → f.sub / 4 < s.net.ports.length →
    (netPort s f.sub).fill.getD (f.sub % 4) 0 + f.len = n → n ≤ bufferBytes →
    ∃ t, exec (.frameReceive f) s = .next t ∧ (netPort t f.sub).fill = (netPort s f.sub).fill.set (f.sub % 4) n ∧ (netPort t
        f.sub).xoff = (if (netPort s f.sub).xoff.getD (f.sub % 4) false = false ∧ xoffBytes s < n then (netPort s
        f.sub).xoff.set (f.sub % 4) true else (netPort s f.sub).xoff) ∧ t.lz = s.lz) ∧
  (∀ (s : State) (f : EthFrame) (qpn : Nat) (pkey : BitVec 16) (q : Qp),
    netOn s = true → subUp s f.sub = true → f.len ≤ 9216 → f.fcsOk = true → frameForUs s f = true → lossless s f = false →
    f.kind = .roce qpn pkey true → qpOf s qpn = some q → q.pkey = pkey → (∀ n ∈ q.lastCnp, n + 50000 ≤ now s) →
    subSends s q.port = true → (∀ h ∈ s.net.held, h.sub ≠ q.port) →
    ∃ t, exec (.frameReceive f) s = .next t ∧ .roce qpn 2 10 [] ∈ t.out ∧
      qpOf t qpn = some { q with lastCnp := some (now s) }) ∧
  (∀ (s : State) (sub fill : Nat),
    netOn s = true → sub / 4 < s.net.ports.length → fill ≤ (netPort s sub).fill.getD (sub % 4) 0 →
    (netPort s sub).xoff.getD (sub % 4) false = true → fill + 65536 ≤ xoffBytes s →
    ∃ t, exec (.pfcXon sub fill) s = .next t ∧ (netPort t sub).fill = (netPort s sub).fill.set (sub % 4) fill ∧
      (netPort t sub).xoff = (netPort s sub).xoff.set (sub % 4) false ∧ t.out = .net sub 5 [] :: s.out) ∧
  (∀ (s : State) (sub fill : Nat),
    netOn s = true → sub / 4 < s.net.ports.length → fill ≤ (netPort s sub).fill.getD (sub % 4) 0 →
    (netPort s sub).xoff.getD (sub % 4) false = false ∨ xoffBytes s < fill + 65536 →
    ∃ t, exec (.pfcXon sub fill) s = .next t ∧ (netPort t sub).fill = (netPort s sub).fill.set (sub % 4) fill ∧
      (netPort t sub).xoff = (netPort s sub).xoff ∧ t.out = s.out) ∧
  (∀ (s : State) (sub : Nat),
    netOn s = true → subUp s sub = true → sub / 4 < s.net.ports.length → sub % 4 < (netPort s sub).paused.length →
    ∃ t, exec (.pfcPause sub true) s = .next t ∧ (netPort t sub).paused = (netPort s sub).paused.set (sub % 4) true ∧
        (netPort t sub).pausedAt = (if (netPort s sub).paused.getD (sub % 4) false = true then (netPort s sub).pausedAt else
        (netPort s sub).pausedAt.set (sub % 4) (now s)) ∧ t.out = s.out) ∧
  (∀ (s : State) (sub : Nat), netOn s = true → subUp s sub = true → sub / 4 < s.net.ports.length →
    ∃ t, exec (.pfcPause sub false) s = .next t ∧ (netPort t sub).paused = (netPort s sub).paused.set (sub % 4) false ∧
      (∀ h ∈ s.net.held, h.sub = sub → .roce h.qpn 2 h.kind h.data ∈ t.out) ∧
      (t.net.held = s.net.held.filter fun h => h.sub ≠ sub)) ∧
  (∀ (s : State) (sub : Nat),
    netOn s = true → sub / 4 < s.net.ports.length → (netPort s sub).paused.getD (sub % 4) false = true →
    (netPort s sub).stuck.getD (sub % 4) false = false → (netPort s sub).pausedAt.getD (sub % 4) 0 + 100000000 ≤ now s →
    ∃ t, exec (.pfcStuck sub) s = .next t ∧ (netPort t sub).pfcStuck = true ∧
      (netPort t sub).linkUp = (netPort s sub).linkUp) ∧
  (∀ (s : State) (qpn : Nat) (q : Qp), netOn s = true → qpOf s qpn = some q →
    ∃ t, exec (.cnpReceive qpn) s = .next t ∧
      qpOf t qpn = some { q with rate := max (100 * 10 ^ 6) (q.rate / 2), rateAt := now s } ∧ t.out = s.out ∧
      (∀ p ∈ s.net.qps, p.qpn ≠ qpn → p ∈ t.net.qps)) ∧
  (∀ (s : State) (qpn : Nat) (q : Qp), netOn s = true → qpOf s qpn = some q → q.rateAt + 50000 ≤ now s →
    ∃ t, exec (.rateIncrease qpn) s = .next t ∧ qpOf t qpn = some
        { q with rate := min (subRate (netPort s q.port).mode) (q.rate + subRate (netPort s q.port).mode / 16), rateAt := now s }
        ∧ t.out = s.out) ∧
  (∀ (s : State) (qpn : Nat) (q : Qp),
    netOn s = true → qpOf s qpn = some q → q.st ≠ .error → q.unacked ≠ [] → q.ackAt + ackTimeoutNs ≤ now s → q.retries < 7 →
    subSends s q.port = true → (∀ h ∈ s.net.held, h.sub ≠ q.port) →
    ∃ t, exec (.ackTimeout qpn) s = .next t ∧ qpOf t qpn = some { q with retries := q.retries + 1, ackAt := now s } ∧
      (∀ r ∈ q.unacked, .roce qpn 2 r.kind r.data ∈ t.out)) ∧
  (∀ (s : State) (qpn : Nat) (q : Qp),
    netOn s = true → qpOf s qpn = some q → q.st ≠ .error → q.unacked ≠ [] → q.ackAt + ackTimeoutNs ≤ now s → 7 ≤ q.retries →
    ∃ t, exec (.ackTimeout qpn) s = .next t ∧ (∀ p ∈ qpOf t qpn, p.st = .error))

/-- CM_REQ on a sub-port that is up, in READY, with fewer than 16 384 active QPs, a known P_Key and an MTU of 1 024, 2 048 or
4 096: without a link the next number is a QP of the P_Key's tenant in RTR and a channel with 32 free tags, and, while the
sub-port can send, REP goes out; with a link whose target end this head holds, enabled, the link is in state 2 with that QP. A
REQ with a reason to refuse it: REJ with the reason goes out while the sub-port can send, and no number is used. CM_RTU takes
a QP from RTR to RTS, and changes no queue. CM_DREQ, while the QP can send: DREP goes out, and the QP is in ERROR or gone.
QP_ERROR: the QP is in ERROR or gone, and its channel keeps no completion back. The other requests are of a QP in RTR or RTS
whose sub-port is up, with its P_Key, the PSN expected and a supported opcode and length. SEND of 64 bytes to a channel for a
free tag: the tag is ready with the words sent, and the QP expects the next PSN; while it can send, it acknowledges. A
repeated SEND is acknowledged again, without another effect. RDMA_WRITE into a region that permits it puts the data there;
into one that does not leaves the landing zone, and the QP is in ERROR or gone. RDMA_WRITE_WITH_IMMEDIATE with data puts it
there; without data, on a channel that got no SEND in this cycle, it leaves an abort at each ready tag whose bit is 1.
RDMA_READ of a region that permits it, while the QP can send, returns its bytes and leaves the landing zone; a repeated one is
executed again. PKEY_TABLE_WRITE of a valid key that is 0x0000, 0x7FFF or in another valid entry sets PKEY_ERR; another valid
key stands in the entry. REGION_REGISTER of a range that may be registered, with a free index: the region is live as staged,
the result is its key, the key generation is one higher; of another range: REG_ERR is set, the result is 0. REGION_DEREGISTER
of a live key: no entry of it is live, its index is the last freed; of another key: REG_ERR is set, the result is 0, and the
regions stay. -/
def Obligations.ConnectionsCarryRequests : Prop :=
  (∀ (s : State) (sub : Nat) (pkey : BitVec 16) (mtu : Nat),
    netOn s = true → subUp s sub = true → s.glb.mode = .ready → qpActive s < 16384 → pkeyKnown s pkey = true →
    mtu = 1024 ∨ mtu = 2048 ∨ mtu = 4096 → queueOf s (.channel s.net.nextQpn) = none → qpOf s s.net.nextQpn = none →
    ∃ t, exec (.cmReq sub { pkey := pkey, mtu := mtu } none) s = .next t ∧ qpOf t s.net.nextQpn = some
        { Qp.reset with qpn := s.net.nextQpn, port := sub, st := .rtr, pkey := pkey, tenant := pkey.toNat % 32768, mtu := mtu, rate := subRate (netPort s sub).mode }
        ∧ queueOf t (.channel s.net.nextQpn) = some
        { Queue.reset with id := .channel s.net.nextQpn, tags := List.replicate 32 Tag.reset } ∧
      t.net.nextQpn = s.net.nextQpn + 1 ∧
      (subSends s sub = true → (∀ h ∈ s.net.held, h.sub ≠ sub) → .roce s.net.nextQpn 2 12 [] ∈ t.out)) ∧
  (∀ (s : State) (sub : Nat) (pkey : BitVec 16) (mtu reason : Nat) (link : Option Nat),
    netOn s = true → subUp s sub = true → cmReason s pkey mtu link = some reason → subSends s sub = true →
    (∀ h ∈ s.net.held, h.sub ≠ sub) →
    ∃ t, exec (.cmReq sub { pkey := pkey, mtu := mtu } link) s = .next t ∧
      .roce s.net.nextQpn 2 13 (leBytes 2 reason) ∈ t.out ∧ t.net.nextQpn = s.net.nextQpn) ∧
  (∀ (s : State) (sub : Nat) (pkey : BitVec 16) (mtu l : Nat),
    netOn s = true → subUp s sub = true → s.glb.mode = .ready → qpActive s < 16384 → pkeyKnown s pkey = true →
    mtu = 1024 ∨ mtu = 2048 ∨ mtu = 4096 → targetLink s l = true → l < s.rma.links.length →
    ∃ t, exec (.cmReq sub { pkey := pkey, mtu := mtu } (some l)) s = .next t ∧ (linkOf t l).st = 2 ∧
      (linkOf t l).qpn = some s.net.nextQpn ∧ t.net.nextQpn = s.net.nextQpn + 1) ∧
  (∀ (s : State) (qpn : Nat) (q : Qp), netOn s = true → qpOf s qpn = some q →
    ∃ t, exec (.cmRtu qpn) s = .next t ∧ qpOf t qpn = some { q with st := if q.st = .rtr then .rts else q.st } ∧
      t.dcq = s.dcq) ∧
  (∀ (s : State) (qpn : Nat) (q : Qp),
    netOn s = true → qpOf s qpn = some q → subSends s q.port = true → (∀ h ∈ s.net.held, h.sub ≠ q.port) →
    ∃ t, exec (.cmDreq qpn) s = .next t ∧ (∀ p ∈ qpOf t qpn, p.st = .error) ∧ .roce qpn 2 16 [] ∈ t.out) ∧
  (∀ (s : State) (qpn cause : Nat) (key : BitVec 32) (q : Qp), alive s = true → qpOf s qpn = some q → q.st ≠ .error →
    ∃ t, exec (.qpError qpn cause key) s = .next t ∧ (∀ p ∈ qpOf t qpn, p.st = .error) ∧
      (∀ x ∈ queueOf t (.channel qpn), x.waiting = [])) ∧
  (∀ (s : State) (r : RoceReq) (data : List (BitVec 8)) (q : Qp) (x : Queue) (n : Nat),
    netOn s = true → qpOf s r.qpn = some q → subUp s q.port = true → q.st = .rtr ∨ q.st = .rts → q.pkey = r.pkey →
    r.psn % 2 ^ 24 = q.epsn → supported s .send 64 r = true → q.link = none → data.length = 64 →
    queueOf s (.channel r.qpn) = some x → x.st = .active → leAt data 2 1 % 32 = n → (x.tags[n]?).map (·.st) = some .free →
    ∃ t, exec (.roceSend r data) s = .next t ∧
      (queueOf t (.channel r.qpn)).map (fun y => y.tags) = some (x.tags.modify n fun z => { z with st := .ready }) ∧
        (queueOf t (.channel r.qpn)).map (fun y => y.sent) = some ((x.sent.filter fun e => e.1 ≠ n) ++ [(n, (List.range
        16).map fun i => w32 (leAt data (4 * i) 4))]) ∧
      qpOf t r.qpn = some { q with epsn := (q.epsn + packetsOf q.mtu 64) % 2 ^ 24, st := .rts, nakSent := false } ∧
      (subSends s q.port = true → (∀ h ∈ s.net.held, h.sub ≠ q.port) → .roce r.qpn 2 0 [] ∈ t.out)) ∧
  (∀ (s : State) (r : RoceReq) (data : List (BitVec 8)) (q : Qp),
    netOn s = true → qpOf s r.qpn = some q → subUp s q.port = true → q.st = .rtr ∨ q.st = .rts → q.pkey = r.pkey →
    r.psn % 2 ^ 24 ≠ q.epsn → psnLe r.psn q.epsn = true →
    exec (.roceSend r data) s = .next (sendRoce r.qpn 0 [] (busy s))) ∧
  (∀ (s : State) (r : RoceReq) (key : BitVec 32) (off : Nat) (data : List (BitVec 8)) (q : Qp) (x : Region),
    netOn s = true → qpOf s r.qpn = some q → subUp s q.port = true → q.st = .rtr ∨ q.st = .rts → q.pkey = r.pkey →
    r.psn % 2 ^ 24 = q.epsn → supported s .write data.length r = true → rdmaRegion s q true key off data.length = some x →
    ∃ t, exec (.rdmaWrite r key off data) s = .next t ∧ t.lz = memWriteBytes 0 s.lz (x.base + off) data ∧
      t.dcq.cmds = s.dcq.cmds ∧
      (subSends s q.port = true → (∀ h ∈ s.net.held, h.sub ≠ q.port) → .roce r.qpn 2 0 [] ∈ t.out)) ∧
  (∀ (s : State) (r : RoceReq) (key : BitVec 32) (off : Nat) (data : List (BitVec 8)) (q : Qp),
    netOn s = true → qpOf s r.qpn = some q → subUp s q.port = true → q.st = .rtr ∨ q.st = .rts → q.pkey = r.pkey →
    r.psn % 2 ^ 24 = q.epsn → supported s .write data.length r = true → rdmaRegion s q true key off data.length = none →
    ∃ t, exec (.rdmaWrite r key off data) s = .next t ∧ t.lz = s.lz ∧
      (subSends s q.port = true → (∀ h ∈ s.net.held, h.sub ≠ q.port) → .roce r.qpn 2 5 [] ∈ t.out) ∧
      (∀ p ∈ qpOf t r.qpn, p.st = .error)) ∧
  (∀ (s : State) (r : RoceReq) (key : BitVec 32) (off : Nat) (data : List (BitVec 8)) (imm : BitVec 32) (q : Qp) (x : Region),
    netOn s = true → qpOf s r.qpn = some q → subUp s q.port = true → q.st = .rtr ∨ q.st = .rts → q.pkey = r.pkey →
    r.psn % 2 ^ 24 = q.epsn → supported s .writeImm data.length r = true → data ≠ [] →
    rdmaRegion s q true key off data.length = some x →
    ∃ t, exec (.rdmaWriteWithImmediate r key off data imm) s = .next t ∧ t.lz = memWriteBytes 0 s.lz (x.base + off) data ∧
      (subSends s q.port = true → (∀ h ∈ s.net.held, h.sub ≠ q.port) → .roce r.qpn 2 0 [] ∈ t.out)) ∧
  (∀ (s : State) (r : RoceReq) (key : BitVec 32) (off : Nat) (imm : BitVec 32) (q : Qp) (x : Queue),
    netOn s = true → qpOf s r.qpn = some q → subUp s q.port = true → q.st = .rtr ∨ q.st = .rts → q.pkey = r.pkey →
    r.psn % 2 ^ 24 = q.epsn → supported s .writeImm 0 r = true → q.link = none → queueOf s (.channel r.qpn) = some x →
    x.tags.length = 32 → (∀ y ∈ x.tags, y.st = .ready) → (∀ e ∈ s.net.sends, e.1 ≠ r.qpn) →
    ∃ t, exec (.rdmaWriteWithImmediate r key off [] imm) s = .next t ∧ (queueOf t (.channel r.qpn)).map (·.tags) = some
        (x.tags.zipIdx.map fun z => if bitOf imm z.2 then { z.1 with abort := true } else z.1) ∧ t.lz = s.lz) ∧
  (∀ (s : State) (r : RoceReq) (key : BitVec 32) (off len : Nat) (q : Qp) (x : Region),
    netOn s = true → qpOf s r.qpn = some q → subUp s q.port = true → q.st = .rtr ∨ q.st = .rts → q.pkey = r.pkey →
    r.psn % 2 ^ 24 = q.epsn → supported s .read len r = true → rdmaRegion s q false key off len = some x →
    ∃ t, exec (.rdmaRead r key off len) s = .next t ∧ (subSends s q.port = true → (∀ h ∈ s.net.held, h.sub ≠ q.port) → .roce
        q.qpn 2 3 (memBytes 0 s.lz (x.base + off) len) ∈ t.out) ∧ t.lz = s.lz) ∧
  (∀ (s : State) (r : RoceReq) (key : BitVec 32) (off len : Nat) (q : Qp),
    netOn s = true → qpOf s r.qpn = some q → subUp s q.port = true → q.st = .rtr ∨ q.st = .rts → q.pkey = r.pkey →
    r.psn % 2 ^ 24 ≠ q.epsn → psnLe r.psn q.epsn = true →
    exec (.rdmaRead r key off len) s = .next (readOut q key off len (busy s))) ∧
  (∀ (s : State) (i : Nat) (w : BitVec 32) (k : Nat),
    hostWriteOk s 0x06 = true → i < 4096 → (w.setWidth 16).toNat % 32768 = k → bitOf w 16 = true →
    k = 0 ∨ k = 0x7FFF ∨ ∃ e ∈ s.net.pkeys, e.idx ≠ i ∧ e.valid = true ∧ e.pkey.toNat % 32768 = k →
    exec (.pkeyTableWrite i w) s = .next ({ s with net.pkeyErr := true })) ∧
  (∀ (s : State) (i : Nat) (w : BitVec 32) (k : Nat),
    hostWriteOk s 0x06 = true → i < 4096 → (w.setWidth 16).toNat % 32768 = k → bitOf w 16 = true → k ≠ 0 → k ≠ 0x7FFF →
    (∀ e ∈ s.net.pkeys, e.idx ≠ i → e.valid = true → e.pkey.toNat % 32768 ≠ k) →
    ∃ t, exec (.pkeyTableWrite i w) s = .next t ∧ pkeyAt t i = { idx := i, pkey := w.setWidth 16, valid := true } ∧
      t.net.pkeyErr = s.net.pkeyErr) ∧
  (∀ (s : State) (i : Nat), hostWriteOk s 0x07 = true → regionOk s = true → freeIndex s = some i →
    ∃ t, exec .regionRegister s = .next t ∧ (∃ r ∈ t.rma.regions, r.index = i ∧ r.live = true ∧ r.base = s.rma.regBase.toNat
        ∧ r.len = 4096 * s.rma.regLen ∧ r.tenant = s.rma.attrTenant ∧ r.rd = s.rma.attrRd ∧ r.wr = s.rma.attrWr ∧
        t.rma.result = BitVec.ofNat 32 (256 * i + r.gen)) ∧ t.rma.keyGen = s.rma.keyGen + 1 ∧ i ∉ t.rma.freed ∧
      (∀ r ∈ s.rma.regions, r.index ≠ i → r ∈ t.rma.regions)) ∧
  (∀ (s : State), hostWriteOk s 0x07 = true → regionOk s = false →
    ∃ t, exec .regionRegister s = .next t ∧ t.rma.regErr = true ∧ t.rma.result = 0 ∧ t.rma.regions = s.rma.regions ∧
      t.rma.keyGen = s.rma.keyGen) ∧
  (∀ (s : State) (key : BitVec 32),
    hostWriteOk s 0x07 = true → (∃ r ∈ s.rma.regions, r.live = true ∧ r.index = key.toNat / 256 ∧ r.gen = key.toNat % 256) →
    ∃ t, exec (.regionDeregister key) s = .next t ∧ t.rma.keyGen = s.rma.keyGen + 1 ∧
      (∀ r ∈ t.rma.regions, r.index = key.toNat / 256 → r.gen = key.toNat % 256 → r.live = false) ∧
      t.rma.freed = s.rma.freed ++ [key.toNat / 256]) ∧
  (∀ (s : State) (key : BitVec 32),
    hostWriteOk s 0x07 = true → (∀ r ∈ s.rma.regions, r.live = true → r.index = key.toNat / 256 → r.gen ≠ key.toNat % 256) →
    ∃ t, exec (.regionDeregister key) s = .next t ∧ t.rma.regErr = true ∧ t.rma.result = 0 ∧ t.rma.regions = s.rma.regions)

/-- Room: fewer than 16 384 active QPs. At the source end of an enabled link whose volume this head owns. REPLICATION_CUT to
take a cut that is due, outside state 4: a cut with the next batch number and the newest write of the volume is added, and its
version stands in the volume. REPLICATION_CUT to ship, in state 2 and not stopping, while the DRBG issues, with a cut not yet
sent: that batch is shipped. When that cut is frozen without a map page, the key is present and the counter is below 2^63: it
is sent at this time, the counter is one higher, and, while the QP can send, the flagged write with the batch number goes out.
BATCH_ACK of a cut sent: of an enabled link the batch is noted, and the cuts sent up to it leave; of a stopping link it is in
state 0 with no cut and no QP. BATCH_RESEND 60 s after the first cut was sent, in state 2 while the DRBG issues: that batch is
shipped. CM_REP in state 1: the state is 2, the peer key is kept, and no cut counts as sent. REPL_RECONNECT 10 s after an
error, to a declared remote array, with room: the state is 1 with the next QP number. At the target end, with a connection.
REPLICATION_RECORD of the right form, the first of its head and batch, under a present key: what it opens to, when it is no
container or a good one, is the one record of the batch; when it does not open the batch is dropped and the failure noted. A
record with a wrong mark, link, batch or kind drops it too. BATCH_APPLY of the whole batch with room in the log: its chunks
are admitted as writes with consecutive numbers, and its number and counters are noted. REPL_ENABLE of a disabled link with an
interval of 1 s to 1 h: as target the volume is a target; as source of a volume owned here, to a declared remote array, with
room, it is in state 1 with the next QP number. Of an enabled link, or with another interval, nothing changes. REPL_DISABLE of
an enabled link with no cut sent: it is disabled, in state 0; with a cut sent it is stopping and keeps its QP. -/
def Obligations.ReplicationLinksWork : Prop :=
  (∀ (s : State) (l : Nat) (media : List StoredRead) (v : Volume),
    alive s = true → l < s.rma.links.length → (linkOf s l).enable = true → (linkOf s l).role = false →
    owns s (linkOf s l).volume = true → (linkOf s l).st ≠ 4 → volOf s (linkOf s l).volume = some v →
    cutDue s (linkOf s l) = true →
    ∃ t, exec (.replicationCut l false media) s = .next t ∧ (linkOf t l).cuts = (linkOf s l).cuts ++
        [{ batch := (linkOf s l).nextBatch, lsn := volumeLsn s v, time := now s, sent := false, sentAt := 0 }] ∧
      (linkOf t l).nextBatch = (linkOf s l).nextBatch + 1 ∧ volOf t (linkOf s l).volume = some
        { v with snaps := v.snaps ++ [{ Snapshot.reset with num := cutNum l (linkOf s l).nextBatch, point := civilNow s, cut := volumeLsn s v, link := some l }] }
        ∧ t.out = s.out) ∧
  (∀ (s : State) (l : Nat) (media : List StoredRead) (c : ReplCut),
    netOn s = true → (linkOf s l).enable = true → (linkOf s l).role = false → owns s (linkOf s l).volume = true →
    (linkOf s l).st = 2 → (linkOf s l).stopping = false → s.sec.drbgOk = true → nextCut (linkOf s l) = some c →
    exec (.replicationCut l true media) s = .next (shipBatch l c media s)) ∧
  (∀ (s : State) (l : Nat) (media : List StoredRead) (c : ReplCut) (v : Volume) (p : Snapshot) (n : Nat) (q : Qp),
    netOn s = true → l < s.rma.links.length → (linkOf s l).enable = true → (linkOf s l).role = false →
    owns s (linkOf s l).volume = true → (linkOf s l).st = 2 → (linkOf s l).stopping = false →
    (linkOf s l).counter < 2 ^ 63 → (keySlotOf s (linkOf s l).keySlot).present = true → s.sec.drbgOk = true →
    nextCut (linkOf s l) = some c → volOf s (linkOf s l).volume = some v → (linkOf s l).qpn = some n →
    cutOf s l c = some p → p.frozen = true → qpOf s n = some q → subSends s q.port = true →
    (∀ h ∈ s.net.held, h.sub ≠ q.port) → p.table = [] →
    ∃ t, exec (.replicationCut l true media) s = .next t ∧ ((linkOf t l).cuts = (linkOf s l).cuts.map fun d => if d.batch =
        c.batch then { d with sent := true, sentAt := now s } else d) ∧ (linkOf t l).counter = (linkOf s l).counter + 1 ∧
      .roce n 2 7 (leBytes 4 c.batch) ∈ t.out) ∧
  (∀ (s : State) (l batch : Nat) (c : ReplCut),
    netOn s = true → l < s.rma.links.length → (linkOf s l).enable = true → (linkOf s l).stopping = false →
    (linkOf s l).role = false → c ∈ (linkOf s l).cuts → c.sent = true → c.batch ≤ batch →
    ∃ t, exec (.batchAck l batch) s = .next t ∧ (linkOf t l).batch = batch ∧
      ((linkOf t l).cuts = (linkOf s l).cuts.filter fun d => !(d.sent && decide (d.batch ≤ batch))) ∧
      c.lsn ≤ (linkOf t l).lastLsn ∧ (linkOf t l).st = (linkOf s l).st) ∧
  (∀ (s : State) (l batch : Nat) (c : ReplCut),
    netOn s = true → l < s.rma.links.length → (linkOf s l).stopping = true → (linkOf s l).role = false →
    c ∈ (linkOf s l).cuts → c.sent = true → c.batch ≤ batch →
    ∃ t, exec (.batchAck l batch) s = .next t ∧ (linkOf t l).st = 0 ∧ (linkOf t l).cuts = [] ∧ (linkOf t l).qpn = none ∧
      (linkOf t l).stopping = false) ∧
  (∀ (s : State) (l : Nat) (media : List StoredRead) (c : ReplCut) (r : List ReplCut),
    netOn s = true → (linkOf s l).enable = true → (linkOf s l).role = false → (linkOf s l).st = 2 →
    (linkOf s l).cuts = c :: r → c.sent = true → s.sec.drbgOk = true → c.sentAt + 60 * 10 ^ 9 ≤ now s →
    exec (.batchResend l media) s = .next (shipBatch l c media s)) ∧
  (∀ (s : State) (l : Nat) (key : BitVec 32) (len n : Nat) (q : Qp),
    netOn s = true → l < s.rma.links.length → (linkOf s l).qpn = some n → (linkOf s l).st = 1 → qpOf s n = some q →
    subSends s q.port = true → (∀ h ∈ s.net.held, h.sub ≠ q.port) →
    ∃ t, exec (.cmRep l key len) s = .next t ∧ (linkOf t l).st = 2 ∧ (linkOf t l).peerKey = some (key, len) ∧
      (linkOf t l).offset = 0 ∧ (∀ c ∈ (linkOf t l).cuts, c.sent = false) ∧ .roce n 2 14 [] ∈ t.out) ∧
  (∀ (s : State) (l : Nat) (r : Remote),
    netOn s = true → l < s.rma.links.length → (linkOf s l).enable = true → (linkOf s l).role = false → (linkOf s l).st = 3 →
    (linkOf s l).qpn = none → owns s (linkOf s l).volume = true → (linkOf s l).errAt + 10 ^ 10 ≤ now s →
    s.img.net.remotes.getD (linkOf s l).remote Remote.reset = r → r.valid = true → qpActive s < 16384 →
    qpOf s s.net.nextQpn = none →
    ∃ t, exec (.replReconnect l) s = .next t ∧ (linkOf t l).st = 1 ∧ (linkOf t l).qpn = some s.net.nextQpn ∧
      t.net.nextQpn = s.net.nextQpn + 1 ∧ (subSends s r.subport = true → (∀ h ∈ s.net.held, h.sub ≠ r.subport) → .roce
        s.net.nextQpn 2 11 (leBytes 2 l) ∈ t.out)) ∧
  (∀ (s : State) (l : Nat) (bytes : List (BitVec 8)) (batch counter len kind head epoch : Nat) (g : Option (List (BitVec 8))),
    netOn s = true → l < s.rma.links.length ∧ (linkOf s l).enable = true ∧ (linkOf s l).role = true ∧ (linkOf s l).qpn ≠
      none ∧ (linkOf s l).batchIn = [] ∧ (linkOf s l).seen = [] ∧ (keySlotOf s (linkOf s l).keySlot).present = true → leAt
      bytes 0 4 = 0x4C504552 ∧ leAt bytes 4 2 = 1 ∧ leAt bytes 6 2 = l ∧ leAt bytes 8 8 = batch ∧ 1 ≤ batch ∧ leAt bytes 16
      8 = counter → leAt bytes 24 8 % 8 = 0 ∧ (kind ≠ 3 ∨ leAt bytes 24 8 = 0) ∧ leAt bytes 32 4 = len ∧ len ≤ 33024 ∧ (kind
      ≠ 2 ∨ len = 0) ∧ (kind ≠ 3 ∨ len = 8) ∧ leAt bytes 36 1 = kind ∧ 1 ≤ kind ∧ kind ≤ 3 → leAt bytes 37 1 = head ∧ head ≤
      1 ∧ leAt bytes 40 4 = epoch ∧ leAt bytes 38 2 = 0 ∧ leAt bytes 44 4 = 0 ∧ bytes.length = 64 + (len + 15) / 16 * 16 →
      Config.gcmOpen (keySlotOf s (linkOf s l).keySlot).key (replIv l head counter) (bytes.take 48) (slice bytes 64 len)
      (slice bytes 48 16) = g →
    ∃ t, exec (.replicationRecord l bytes) s = .next t ∧ (∀ p ∈ g, (kind = 1 → replContainerOk ((volOf s (linkOf s
        l).volume).elim 0 (·.tenant)) p = true) → (linkOf t l).batchIn =
        [{ kind := kind, lba := leAt bytes 24 8, payload := p, head := head, epoch := epoch, counter := counter }] ∧ (linkOf
        t l).inBatch = batch) ∧ (g = none → (linkOf t l).batchIn = [] ∧ (linkOf t l).authFail = true) ∧
      t.wlg.lsn = s.wlg.lsn ∧ t.lz = s.lz) ∧
  (∀ (s : State) (l : Nat) (bytes : List (BitVec 8)),
    netOn s = true → l < s.rma.links.length → (linkOf s l).enable = true → (linkOf s l).role = true →
    (linkOf s l).qpn ≠ none → leAt bytes 0 4 ≠ 0x4C504552 ∨ leAt bytes 6 2 ≠ l ∨ leAt bytes 8 8 = 0 ∨ leAt bytes 36 1 = 0 →
    ∃ t, exec (.replicationRecord l bytes) s = .next t ∧ (linkOf t l).batchIn = [] ∧ (linkOf t l).endCount = none ∧
      (linkOf t l).authFail = true ∧ t.wlg.lsn = s.wlg.lsn ∧ t.red.volumes = s.red.volumes) ∧
  (∀ (s : State) (l : Nat) (imm : BitVec 32) (v : Volume) (n : Nat) (q : Qp),
    netOn s = true → l < s.rma.links.length → (linkOf s l).enable = true → (linkOf s l).role = true →
    volOf s (linkOf s l).volume = some v → (linkOf s l).qpn = some n → owns s (linkOf s l).volume = true →
    imm.toNat = (linkOf s l).inBatch % 2 ^ 32 → (linkOf s l).endCount = some (linkOf s l).batchIn.length →
    s.wlg.mirror ≠ 0 → framesFree s ((linkOf s l).batchIn.filter fun r => r.kind ≠ 3).length = true → qpOf s n = some q →
    subSends s q.port = true → (∀ h ∈ s.net.held, h.sub ≠ q.port) →
    ∃ t, exec (.batchApply l imm) s = .next t ∧
      t.wlg.lsn = s.wlg.lsn + ((linkOf s l).batchIn.filter fun r => r.kind ≠ 3).length ∧
      t.wlg.frames.length = s.wlg.frames.length + ((linkOf s l).batchIn.filter fun r => r.kind ≠ 3).length ∧
      (linkOf t l).batch = (linkOf s l).inBatch ∧ (linkOf t l).seen = noteApplied (linkOf s l).batchIn (linkOf s l).seen ∧
      (linkOf t l).batchIn = [] ∧ .roce n 2 8 (leBytes 8 (linkOf s l).inBatch ++ leBytes 8 0) ∈ t.out) ∧
  (∀ (s : State) (l : Nat) (w : BitVec 32),
    hostWriteOk s 0x07 = true → l < 64 → l < s.rma.links.length → bitOf w 0 = true → bitOf w 1 = true →
    (linkOf s l).enable = false → 1 ≤ fld w 16 16 ∧ fld w 16 16 ≤ 3600 →
    ∃ t, exec (.replEnable l w) s = .next t ∧ linkOf t l =
        { linkOf s l with enable := true, role := true, remote := fld w 2 3, keySlot := fld w 8 8, intervalS := fld w 16 16 }
        ∧ (∀ x ∈ t.red.volumes, x.num = (linkOf s l).volume → x.target = true) ∧ t.net = s.net) ∧
  (∀ (s : State) (l : Nat) (w : BitVec 32),
    hostWriteOk s 0x07 = true → l < 64 → l < s.rma.links.length → bitOf w 0 = true → bitOf w 1 = false →
    (linkOf s l).enable = false → 1 ≤ fld w 16 16 ∧ fld w 16 16 ≤ 3600 → owns s (linkOf s l).volume = true →
    (s.img.net.remotes.getD (fld w 2 3) Remote.reset).valid = true → qpActive s < 16384 →
    ∃ t, exec (.replEnable l w) s = .next t ∧ (linkOf t l).enable = true ∧ (linkOf t l).role = false ∧ (linkOf t l).st = 1 ∧
      (linkOf t l).qpn = some s.net.nextQpn) ∧
  (∀ (s : State) (l : Nat) (w : BitVec 32),
    hostWriteOk s 0x07 = true → l < 64 → bitOf w 0 = true →
    (linkOf s l).enable = true ∨ fld w 16 16 = 0 ∨ 3600 < fld w 16 16 →
    exec (.replEnable l w) s = .next (s)) ∧
  (∀ (s : State) (l : Nat) (w : BitVec 32),
    hostWriteOk s 0x07 = true → l < 64 → l < s.rma.links.length → bitOf w 0 = false → (linkOf s l).enable = true →
    (∀ c ∈ (linkOf s l).cuts, c.sent = false) →
    ∃ t, exec (.replDisable l w) s = .next t ∧ (linkOf t l).enable = false ∧ (linkOf t l).st = 0 ∧ (linkOf t l).cuts = [] ∧
      (linkOf t l).qpn = none ∧ (linkOf t l).stopping = false) ∧
  (∀ (s : State) (l : Nat) (w : BitVec 32),
    hostWriteOk s 0x07 = true → l < 64 → l < s.rma.links.length → bitOf w 0 = false → (linkOf s l).enable = true →
    (∃ c ∈ (linkOf s l).cuts, c.sent = true) →
    ∃ t, exec (.replDisable l w) s = .next t ∧ (linkOf t l).enable = false ∧ (linkOf t l).stopping = true ∧
      (linkOf t l).cuts = (linkOf s l).cuts.filter (·.sent) ∧ (linkOf t l).qpn = (linkOf s l).qpn)

/-- The clauses, in their order, on a head that is alive.  A held write that has waited for its reservation for two seconds
leaves the list of held writes, 0x0701 is recorded and the write ends with NOT_READY.  Outside a power-fail flush, the next
held write in turn, when it fits and carries no frames of the peer, becomes the turn's last origin and starts its transfer
with a reservation of its frames; in a flush, or when it does not fit, nothing changes.  Write data whose tag and generation
match, all of whose reads were issued and every sector of which passes its check moves the write to the data state with those
sectors; where a sector fails, the first failing one is recorded with 0x0901, every failing one is counted, and the write ends
with that sector's status; in a flush the write ends with NOT_READY; a generation that does not match is a stale item.  A
write of this head whose turn it is is admitted: its frames are logged with the next LSN, protected at once when the mirror's
state is 3, and its reservation ends; in a flush it ends with NOT_READY.  A forwarded write whose turn it is puts its frames
into the log as filling, owned by the peer, and assigns no LSN.  A MIRROR message whose guards hold and whose first LSN the
peer's frames do not have puts its frames into the log, owned by the peer and protected; one with a failing guard is a failed
handoff.  A positive acknowledgement protects this head's frames of that LSN and measures the time since admission, unless its
tag and generation do not match, which is a stale item; a negative one is counted up to three, and the next one holds the
mirror.  Frames of a forwarded write of the peer of the write's generation are logged with the next LSN as protected while the
write transfers, and are kept with it while it is held; frames with a failing guard are a failed handoff.  The LSN of a
forwarded write logs the frames that wait for it; with a generation that does not match it is a stale item. -/
def Obligations.WritesEnterTheLog : Prop :=
  (∀ (s : State) (h : HeldWrite), alive s = true → holdDue s = some h →
    exec .writeHoldTimeout s = .next (noteLogFull (endTag h.remote h.q h.tag stNotReady 0 0 (record 0x0701 logSrc []
        { s with wlg.holds := s.wlg.holds.erase h, wlg.holdTimeout := true })))) ∧
  (∀ (s : State) (h : HeldWrite) (c : Cmd),
    alive s = true → s.pwr.flushActive = false → nextHold s = some h → fits s h.frames = true →
    heldCmd s h.remote h.q h.tag = some c → h.remote = false ∨ c.data = [] →
    exec .heldWriteReserve s = .next (noteLogFull (startTransfer c
        { s with wlg.holds := s.wlg.holds.erase h, wlg.holdTurn := h.origin }))) ∧
  (∀ (s : State) (h : HeldWrite) (c : Cmd),
    alive s = true → s.pwr.flushActive = false → nextHold s = some h → fits s h.frames = true →
    heldCmd s h.remote h.q h.tag = some c → h.remote = false ∨ c.data = [] →
    ∃ t, exec .heldWriteReserve s = .next t ∧ t.wlg.reserved = s.wlg.reserved ++
        [{ q := c.q, tag := c.tag, origin := originOf c.q c.remote, frames := frameCount (cmdLba c) (cmdCount c), remote := c.remote, fetchedAt := c.fetchedAt, since := now s }]
        ∧ t.wlg.frames = s.wlg.frames ∧
      (∀ x ∈ t.dcq.cmds, x.q = c.q → x.tag = c.tag → x.remote = c.remote → x.st = .transfer)) ∧
  (∀ (s : State) (h : HeldWrite), nextHold s = some h → s.pwr.flushActive = true ∨ fits s h.frames = false →
    exec .heldWriteReserve s = .next (s)) ∧
  (∀ (s : State) (q : QueueId) (tag gen : Nat) (data pi ds ps : List (List (BitVec 8))) (c : Cmd),
    alive s = true → tagMatches s q tag gen = true → cmdOf s q tag = some c → c.st = .transfer → cmdOpcode c = 0x02 →
    readsIssued s q tag = true → s.pwr.flushActive = false → writeData (readsDone q tag s) c data pi = (ds, ps) →
    (∀ i < cmdCount c, piCheck (cmdTenant c % 32768) (cmdLba c + i) (ds.getD i []) (ps.getD i []) = 0) →
    exec (.writeDataArrival q { tag := tag, gen := gen } data pi) s = .next (modCmd q tag (fun c =>
        { c with st := .data, data := ds, pi := ps, readyAt := now s }) (readsDone q tag s))) ∧
  (∀ (s : State) (q : QueueId) (tag gen : Nat) (data pi ds ps : List (List (BitVec 8))) (c : Cmd) (i k : Nat),
    alive s = true → tagMatches s q tag gen = true → cmdOf s q tag = some c → c.st = .transfer → cmdOpcode c = 0x02 →
    readsIssued s q tag = true → s.pwr.flushActive = false → writeData (readsDone q tag s) c data pi = (ds, ps) →
    i < cmdCount c → piCheck (cmdTenant c % 32768) (cmdLba c + i) (ds.getD i []) (ps.getD i []) = k → k ≠ 0 →
    (∀ j < i, piCheck (cmdTenant c % 32768) (cmdLba c + j) (ds.getD j []) (ps.getD j []) = 0) →
    exec (.writeDataArrival q { tag := tag, gen := gen } data pi) s = .next (finish q tag k 0 0 (unreserve q tag false
        (record 0x0901 (srcId 3 0 0) [cmdVolume c, cmdLba c + i, (cmdLba c + i) / 2 ^ 32, if k = stGuardCheck then 1 else if
        k = stReferenceCheck then 2 else 3]
        { readsDone q tag s with sec.piFails := satAdd (2 ^ 32 - 1) s.sec.piFails ((List.range (cmdCount c)).filter fun j => piCheck (cmdTenant c % 32768) (cmdLba c + j) (ds.getD j []) (ps.getD j []) ≠ 0).length })))) ∧
  (∀ (s : State) (q : QueueId) (tag gen : Nat) (data pi : List (List (BitVec 8))) (c : Cmd),
    alive s = true → tagMatches s q tag gen = true → cmdOf s q tag = some c → c.st = .transfer → cmdOpcode c = 0x02 →
    readsIssued s q tag = true → s.pwr.flushActive = true →
    exec (.writeDataArrival q { tag := tag, gen := gen } data pi) s = .next (finish q tag stNotReady 0 0 (unreserve q tag
        false (readsDone q tag s)))) ∧
  (∀ (s : State) (q : QueueId) (tag gen : Nat) (data pi : List (List (BitVec 8))),
    alive s = true → tagMatches s q tag gen = false →
    exec (.writeDataArrival q { tag := tag, gen := gen } data pi) s = .next (staleItem q tag gen s)) ∧
  (∀ (s : State) (q : QueueId) (tag : Nat) (c n : Cmd),
    alive s = true → cmdOf s q tag = some c → c.st = .data → c.forwarded = false → s.wlg.mirror ≠ 0 →
    s.pwr.flushActive = false → nextAdmission s = some n → n.q = q → n.tag = tag →
    ∃ t, exec (.writeAdmission q tag) s = .next t ∧ t.wlg.lsn = s.wlg.lsn + 1 ∧
      t.wlg.frames.length = s.wlg.frames.length + (framesOf (protoFrame s c) (cmdLba c) c.data c.pi).length ∧ (∀ f ∈
        t.wlg.frames, f ∈ s.wlg.frames ∨ (f.lsn = s.wlg.lsn + 1 ∧ f.st = .logged ∧ f.owner = s.glb.headSel ∧ f.prot = decide
        (s.wlg.mirror = 3))) ∧
      (t.wlg.reserved = s.wlg.reserved.filter fun r => !(decide (r.q = q) && decide (r.tag = tag) && (r.remote == false)))) ∧
  (∀ (s : State) (q : QueueId) (tag : Nat) (c : Cmd),
    alive s = true → cmdOf s q tag = some c → c.st = .data → s.wlg.mirror ≠ 0 → s.pwr.flushActive = true →
    exec (.writeAdmission q tag) s = .next (finish q tag stNotReady 0 0 (unreserve q tag false s))) ∧
  (∀ (s : State) (q : QueueId) (tag : Nat) (c n : Cmd),
    alive s = true → cmdOf s q tag = some c → c.st = .data → c.forwarded = true → s.wlg.mirror ≠ 0 →
    s.pwr.flushActive = false → nextAdmission s = some n → n.q = q → n.tag = tag →
    ∃ t, exec (.writeAdmission q tag) s = .next t ∧ t.wlg.lsn = s.wlg.lsn ∧
      t.wlg.frames.length = s.wlg.frames.length + (framesOf (protoFrame s c) (cmdLba c) c.data c.pi).length ∧
      (∀ f ∈ t.wlg.frames, f ∈ s.wlg.frames ∨ (f.lsn = 0 ∧ f.st = .filling ∧ f.owner = (!s.glb.headSel)))) ∧
  (∀ (s : State) (f : Frame) (r : List Frame),
    alive s = true → s.wlg.mirror ≠ 0 → (f :: r).all frameGuardsOk = true →
    (∀ g ∈ s.wlg.frames, g.lsn = f.lsn → g.owner = s.glb.headSel) →
    ∃ t, exec (.mirror (f :: r)) s = .next t ∧ t.wlg.frames = s.wlg.frames ++ ((f :: r).map fun g =>
        { g with owner := !s.glb.headSel, st := .logged, prot := true, geom := none }) ∧ t.wlg.lsn = s.wlg.lsn) ∧
  (∀ (s : State) (fs : List Frame), alive s = true → s.wlg.mirror ≠ 0 ∨ s.glb.map = true → fs.all frameGuardsOk = false →
    exec (.mirror fs) s = .next (handoffFail mirrorSrc s)) ∧
  (∀ (s : State) (lsn : Nat) (q : QueueId) (tag gen : Nat) (f : Frame),
    alive s = true → s.wlg.frames.find? (fun f => decide (f.lsn = lsn) && (f.owner == s.glb.headSel)) = some f →
    f.prot = false → tagMatches s q tag gen = true →
    ∃ t, exec (.mirrorAck lsn q tag gen true) s = .next t ∧
      (∀ g ∈ t.wlg.frames, g.lsn = lsn → g.owner = s.glb.headSel → g.prot = true) ∧
      t.wlg.mirrorNs = (now s - f.admitTime) % 2 ^ 32 ∧ (∀ x ∈ t.wlg.resends, x.1 ≠ lsn) ∧
      t.wlg.frames.length = s.wlg.frames.length) ∧
  (∀ (s : State) (lsn : Nat) (q : QueueId) (tag gen : Nat) (f : Frame),
    alive s = true → s.wlg.frames.find? (fun f => decide (f.lsn = lsn) && (f.owner == s.glb.headSel)) = some f →
    f.prot = false → f.origin < 6 → f.q = q → queueOf s q ≠ none → tagMatches s q tag gen = false →
    exec (.mirrorAck lsn q tag gen true) s = .next (staleItem q tag gen s)) ∧
  (∀ (s : State) (lsn : Nat) (q : QueueId) (tag gen n : Nat) (f : Frame),
    alive s = true → s.wlg.frames.find? (fun f => decide (f.lsn = lsn) && (f.owner == s.glb.headSel)) = some f →
    f.prot = false → ((s.wlg.resends.find? fun r => r.1 = lsn).map (·.2)).getD 0 = n → n < 3 →
    ∃ t, exec (.mirrorAck lsn q tag gen false) s = .next t ∧ (lsn, n + 1) ∈ t.wlg.resends ∧ t.wlg.frames = s.wlg.frames ∧
      t.wlg.mirror = s.wlg.mirror) ∧
  (∀ (s : State) (lsn : Nat) (q : QueueId) (tag gen : Nat) (f : Frame),
    alive s = true → s.wlg.frames.find? (fun f => decide (f.lsn = lsn) && (f.owner == s.glb.headSel)) = some f →
    f.prot = false → 3 ≤ ((s.wlg.resends.find? fun r => r.1 = lsn).map (·.2)).getD 0 → s.wlg.mirror = 1 →
    ∃ t, exec (.mirrorAck lsn q tag gen false) s = .next t ∧ t.wlg.mirror = 2 ∧ t.wlg.heldRec = true ∧
      t.wlg.frames = s.wlg.frames) ∧
  (∀ (s : State) (q : QueueId) (tag : Nat) (frames : List Frame) (c : Cmd),
    alive s = true → frames.all frameGuardsOk = true → remoteCmd s q tag = some c → c.gen = (frames.headD Frame.reset).gen →
    c.st = .transfer →
    ∃ t, exec (.fwdFrames q tag frames) s = .next t ∧ t.wlg.lsn = s.wlg.lsn + 1 ∧ t.wlg.mirror = s.wlg.mirror ∧
      t.wlg.frames.length = s.wlg.frames.length + frames.length ∧
      (∀ f ∈ t.wlg.frames, f ∈ s.wlg.frames ∨ (f.lsn = s.wlg.lsn + 1 ∧ f.st = .logged ∧ f.prot = true ∧ f.origin = 5))) ∧
  (∀ (s : State) (q : QueueId) (tag : Nat) (frames : List Frame) (c : Cmd),
    alive s = true → frames.all frameGuardsOk = true → remoteCmd s q tag = some c → c.gen = (frames.headD Frame.reset).gen →
    c.st = .held →
    ∃ t, exec (.fwdFrames q tag frames) s = .next t ∧ t.wlg = s.wlg ∧ (∀ x ∈ t.dcq.cmds, x.q = q → x.tag = tag → x.remote =
        true → x.data = frames.flatMap fun f => ((List.range 8).filter f.mask.getLsbD).map fun i => f.data.getD i []) ∧
      t.out = s.out) ∧
  (∀ (s : State) (q : QueueId) (tag : Nat) (frames : List Frame), alive s = true → frames.all frameGuardsOk = false →
    exec (.fwdFrames q tag frames) s = .next (handoffFail mirrorSrc s)) ∧
  (∀ (s : State) (q : QueueId) (tag gen lsn : Nat), alive s = true → tagMatches s q tag gen = true →
    ∃ t, exec (.fwdLsn q tag gen lsn) s = .next t ∧
      (∀ f ∈ t.wlg.frames, f.q = q → f.tag = tag → f.gen = gen → f.st ≠ .filling) ∧
      t.wlg.frames.length = s.wlg.frames.length ∧
      (∀ f ∈ t.wlg.frames, f ∈ s.wlg.frames ∨ (f.lsn = lsn ∧ f.st = .logged ∧ f.prot = true))) ∧
  (∀ (s : State) (q : QueueId) (tag gen lsn : Nat), alive s = true → tagMatches s q tag gen = false →
    exec (.fwdLsn q tag gen lsn) s = .next (staleItem q tag gen s))

/-- The clauses, in their order.  On a head that is alive, a chunk that has frames not yet taken and no job starts its
assembly when the delay of the oldest of these frames is over, and it starts when they do not cover it and a FLUSH, a cut or a
power-fail flush that assembles this volume now covers it.  When the masks of its frames cover the chunk, a job in the
assembling stage with the newest frame's LSN and tenant and eight sectors is made, every frame of the chunk is marked as
taken, and no frame is added or removed.  A chunk that has no job, no untaken frame, and stands in the list of chunks to copy
starts a copy job; one that has none of these causes changes nothing.  An assembled chunk every stored sector of which matches
its guard goes to the fingerprint stage when its volume reduces data, the job holds no container and no power-fail flush runs,
and to the protect stage otherwise, and none of its frames stays in the logged state; when a sector's guard fails, the job is
dropped with its frames given back and the handoff fails.  A placed chunk that no pending cut holds back becomes the chunk's
live entry when its LSN is greater than the LSN the map has, its bytes being counted in a flush, and its lost sectors are
noted; when its LSN is not greater and it is no copy, the entry is released and 0x0707 recorded; a placed chunk newer than a
pending cut waits. -/
def Obligations.ChunksAreAssembled : Prop :=
  (∀ (s : State) (v chunk : Nat) (media : List StoredRead) (copies : List PeerSector),
    alive s = true → assemblyReady s v chunk = true → delayOver s (assemblyFrames s v chunk) = true →
    exec (.assemblyDelayExpiry v chunk media copies) s = .next (startAssembly v chunk media copies s)) ∧
  (∀ (s : State) (v chunk : Nat) (media : List StoredRead) (copies : List PeerSector),
    alive s = true → assemblyReady s v chunk = true → masksCover (assemblyFrames s v chunk) = false →
    flushCovers s v (assemblyFrames s v chunk) = true ∨ flushAssembles s v = true →
    exec (.assemblyStart v chunk media copies) s = .next (startAssembly v chunk media copies s)) ∧
  (∀ (s : State) (v chunk : Nat) (media : List StoredRead) (copies : List PeerSector) (top : Frame),
    alive s = true → assemblyReady s v chunk = true → masksCover (assemblyFrames s v chunk) = true →
    newest (assemblyFrames s v chunk) = some top →
    ∃ t, exec (.assemblyStart v chunk media copies) s = .next t ∧ (∃ j ∈ t.wlg.jobs, j.volume = v ∧ j.chunk = chunk ∧ j.lsn
        = top.lsn ∧ j.tenant = top.tenant ∧ j.stage = .assembling ∧ j.sectors.length = 8 ∧ j.frames = (assemblyFrames s v
        chunk).map fun f => (f.lsn, f.index)) ∧ (∀ g ∈ assemblyFrames s v chunk, ∃ f ∈ t.wlg.frames, f.lsn = g.lsn ∧ f.index
        = g.index ∧ f.owner = g.owner ∧ f.taken = true) ∧ t.wlg.frames.length = s.wlg.frames.length) ∧
  (∀ (s : State) (v chunk : Nat) (media : List StoredRead) (copies : List PeerSector),
    alive s = true → jobOf s v chunk = none → assemblyReady s v chunk = false → (v, chunk) ∈ s.red.copies →
    exec (.assemblyStart v chunk media copies) s = .next (startCopy v chunk media s)) ∧
  (∀ (s : State) (v chunk : Nat) (media : List StoredRead) (copies : List PeerSector),
    (v, chunk) ∉ s.red.copies → assemblyReady s v chunk = false ∨ (masksCover (assemblyFrames s v chunk) = false ∧
      flushCovers s v (assemblyFrames s v chunk) = false ∧ flushAssembles s v = false) →
    exec (.assemblyStart v chunk media copies) s = .next (s)) ∧
  (∀ (s : State) (v chunk : Nat) (j : Job),
    alive s = true → jobOf s v chunk = some j → j.stage = .assembling →
    (∀ i ∈ List.range 8, j.lost.getLsbD i = true ∨ crc64 (j.sectors.getD i []) = j.guards.getD i 0) →
    ∃ t, exec (.assemblyComplete v chunk) s = .next t ∧ (jobOf t v chunk).map (·.stage) = some (if s.pwr.flushActive = false
        ∧ j.container = [] ∧ (volOf s v).any (·.reduce) = true then .fingerprint else .protect) ∧
      (∀ f ∈ t.wlg.frames, f.volume = v → f.chunk = chunk → (f.lsn, f.index) ∈ j.frames → f.st ≠ .logged) ∧
      t.wlg.frames.length = s.wlg.frames.length) ∧
  (∀ (s : State) (v chunk i : Nat) (j : Job),
    alive s = true → jobOf s v chunk = some j → j.stage = .assembling → i < 8 → j.lost.getLsbD i = false →
    crc64 (j.sectors.getD i []) ≠ j.guards.getD i 0 →
    exec (.assemblyComplete v chunk) s = .next (handoffFail logSrc (untake j (dropJob v chunk s)))) ∧
  (∀ (s : State) (v chunk : Nat) (j : Job) (x : Volume),
    alive s = true → jobOf s v chunk = some j → j.stage = .placed → (∀ k ∈ pendingCut s v, j.lsn ≤ k) → volOf s v = some x →
    lsnIn s x.table chunk < j.lsn →
    exec (.mapEntrySet v chunk) s = .next (lostAfter v chunk j.lsn j.lost (setLive v chunk j.lsn (some (jobEntry j)) (if
        s.pwr.flushActive = true then { dropJob v chunk s with pwr.flushBytes := s.pwr.flushBytes + 32768 } else dropJob v
        chunk s)))) ∧
  (∀ (s : State) (v chunk : Nat) (j : Job) (x : Volume),
    alive s = true → jobOf s v chunk = some j → j.stage = .placed → (∀ k ∈ pendingCut s v, j.lsn ≤ k) → volOf s v = some x →
    j.lsn ≤ lsnIn s x.table chunk → j.copy = false →
    exec (.mapEntrySet v chunk) s = .next (record 0x0707 (srcId 4 0 0) [v, chunk, chunk / 2 ^ 32] (releaseEntry (jobEntry j)
        (dropJob v chunk s)))) ∧
  (∀ (s : State) (v chunk : Nat) (j : Job) (x : Volume),
    alive s = true → jobOf s v chunk = some j → j.stage = .placed → (∀ k ∈ pendingCut s v, j.lsn ≤ k) → volOf s v = some x →
    j.lsn ≤ lsnIn s x.table chunk → j.copy = false →
    ∃ t, exec (.mapEntrySet v chunk) s = .next t ∧ volOf t v = some x ∧ t.red.pages = s.red.pages ∧ jobOf t v chunk = none) ∧
  (∀ (s : State) (v chunk : Nat) (j : Job) (k : Nat), jobOf s v chunk = some j → pendingCut s v = some k → k < j.lsn →
    exec (.mapEntrySet v chunk) s = .next (s))

/-- The clauses, in their order, on a head that is alive.  FINGERPRINT on a running lane with the random generator good: an
all-zero chunk is placed without an index; a chunk of a deduplicating volume, nothing lost and the seed table ready, gets the
first 16 bytes of its keyed hash as its fingerprint and goes to the lookup; another goes to the encoder without an index. 
SEED_LOOKUP with no miss in flight for its fingerprint and no earlier lookup to wait for: without a record the chunk goes to
the encoder with an index; with a record below the largest count the count rises and the chunk is verified or placed as a hit,
as its volume says; at the largest count the chunk goes to the encoder and SATURATED is set.  VERIFY_ON_MATCH outside a
power-fail flush: an equal stored chunk is accepted as a hit, an unequal one sets the collision flag.  SEED_INSERT puts a
record with count 1 into an empty slot of the chunk's bucket; with no empty slot the chunk is not indexed; with a record to
replace the chunk is placed as shared.  SEED_SPLIT asks for its activity when this does not run; while it runs, the split
pointer rises by one, and at the last bucket the split ends.  SNAPSHOT_FREEZE freezes a version with its volume's table once
everything up to its cut is committed; SNAPSHOT_DELETED of a version no read waits for takes it from the volume. 
KERNEL_ENCODE on a running, free lane: a forced, lossy or flushed chunk is stored RAW; another is coded and goes to its
verification, or is stored RAW and counted as overflow.  KERNEL_VERIFY on a free lane: a container that decodes to the same
data goes to protection, any other is stored RAW and counted; with either lane in HUSK the chunk goes back to the encoder. 
KERNEL_DECODE on a granted lane has the effects of reading the mapped chunk.  DICT_JOB that decodes unmapped input sets the
decode failure.  PROTECT_CHUNK on a running lane gives the container the next serial, seals and places it; without room the
flushes that need it end. -/
def Obligations.ChunksAreReduced : Prop :=
  (∀ (s : State) (v chunk lane : Nat) (j : Job),
    alive s = true → jobOf s v chunk = some j → j.stage = .fingerprint → laneRuns s 2 1 lane = true → s.sec.drbgOk = true →
    isZeroChunk j = true →
    exec (.fingerprint { vol := v, chunk := chunk } lane) s = .next (modJob v chunk (fun j =>
        { j with stage := .placed, indexed := false }) s)) ∧
  (∀ (s : State) (v chunk lane : Nat) (j : Job) (x : SeedSpace),
    alive s = true → jobOf s v chunk = some j → j.stage = .fingerprint → laneRuns s 2 1 lane = true → s.sec.drbgOk = true →
    isZeroChunk j = false → (volOf s v).any (·.dedup) = true → spaceOf s j.tenant = some x → s.red.seedReady = true →
    j.lost = 0 →
    exec (.fingerprint { vol := v, chunk := chunk } lane) s = .next (modJob v chunk (fun j =>
        { j with stage := .lookup, fp := (Config.hmacSha256 x.key (j.sectors.flatMap id)).take 16, fpAt := now s, fpLane := lane })
        s)) ∧
  (∀ (s : State) (v chunk lane : Nat) (j : Job),
    alive s = true → jobOf s v chunk = some j → j.stage = .fingerprint → laneRuns s 2 1 lane = true → s.sec.drbgOk = true →
    isZeroChunk j = false → (volOf s v).any (·.dedup) = false ∨ s.red.seedReady = false ∨ j.lost ≠ 0 →
    exec (.fingerprint { vol := v, chunk := chunk } lane) s = .next (modJob v chunk (fun j =>
        { j with stage := .encode, indexed := false }) s)) ∧
  (∀ (s : State) (v chunk : Nat) (j : Job),
    alive s = true → jobOf s v chunk = some j → j.stage = .lookup → missInFlight s j = false → lookupWaits s j = false →
    laneRuns s 2 2 0 = true → (spaceOf s j.tenant).bind (fun x => seedFind x j.fp) = none →
    exec (.seedLookup v chunk) s = .next (modJob v chunk (fun j => { j with stage := .encode, indexed := true })
        { s with red.fpTurn := j.fpLane })) ∧
  (∀ (s : State) (v chunk : Nat) (j : Job) (e : SeedSlot),
    alive s = true → jobOf s v chunk = some j → j.stage = .lookup → missInFlight s j = false → lookupWaits s j = false →
    laneRuns s 2 2 0 = true → (spaceOf s j.tenant).bind (fun x => seedFind x j.fp) = some e → e.count < countMax →
    (volOf s v).any (·.verify) = true →
    exec (.seedLookup v chunk) s = .next (modJob v chunk (fun j => { j with stage := .verify, hit := some e.location })
        (putSeed j.tenant { e with count := e.count + 1 } s))) ∧
  (∀ (s : State) (v chunk : Nat) (j : Job) (e : SeedSlot),
    alive s = true → jobOf s v chunk = some j → j.stage = .lookup → missInFlight s j = false → lookupWaits s j = false →
    laneRuns s 2 2 0 = true → (spaceOf s j.tenant).bind (fun x => seedFind x j.fp) = some e → e.count < countMax →
    (volOf s v).any (·.verify) = false →
    ∃ t, exec (.seedLookup v chunk) s = .next t ∧
      jobOf t v chunk = some { j with stage := .placed, hit := some e.location, shared := true, indexed := false } ∧
      (∀ x ∈ volOf s v, volOf t v = some { x with hits := x.hits + 1 })) ∧
  (∀ (s : State) (v chunk : Nat) (j : Job) (e : SeedSlot),
    alive s = true → jobOf s v chunk = some j → j.stage = .lookup → missInFlight s j = false → lookupWaits s j = false →
    laneRuns s 2 2 0 = true → (spaceOf s j.tenant).bind (fun x => seedFind x j.fp) = some e → countMax ≤ e.count →
    ∃ t, exec (.seedLookup v chunk) s = .next t ∧ jobOf t v chunk = some { j with stage := .encode, indexed := false } ∧
      t.red.spaces = s.red.spaces ∧ t.red.saturated = true) ∧
  (∀ (s : State) (v chunk lane pv pc : Nat) (media : List StoredRead) (j : Job) (l : BitVec 64) (d : ChunkData) (u : State),
    alive s = true → jobOf s v chunk = some j → j.hit = some l → j.stage = .verify → s.pwr.flushActive = false →
    decodeGranted s lane = true → s.sec.drbgOk = true → ((trailerOf s (locGrain l)).map (·.volume)).getD v = pv →
    ((trailerOf s (locGrain l)).map (·.chunk)).getD chunk = pc → readStored true pv pc j.tenant
      { chunk := chunk, method := if locGrains l = 129 then .raw else .kernel, grain := BitVec.ofNat 43 (locGrain l), grains := locGrains l, shared := true, lsn := 0 }
      3 media (poolTake lane s) = (d, u) →
    ∃ t, exec (.verifyOnMatch v chunk lane media) s = .next t ∧
      (d.lost = 0 → d.sectors = j.sectors → t = acceptHit v chunk l u) ∧
      (d.lost = 0 → d.sectors ≠ j.sectors → t.red.collision = true) ∧ (d.lost ≠ 0 → t.red.collision = u.red.collision) ∧
      t.wlg.lsn = u.wlg.lsn) ∧
  (∀ (s : State) (v chunk k : Nat) (j : Job) (x : SeedSpace),
    alive s = true → jobOf s v chunk = some j → j.stage = .insert → laneRuns s 2 2 0 = true → spaceOf s j.tenant = some x →
    (j.replace.bind fun r => x.slots.find? fun e => decide (e.bucket = r.1) && decide (e.slot = r.2)) = none →
    emptySlot x (seedBucket x j.fp) = some k →
    ∃ t, exec (.seedInsert v chunk) s = .next t ∧
      jobOf t v chunk = some { j with stage := .placed, shared := true, indexed := false } ∧ (∀ y ∈ spaceOf t j.tenant,
        { bucket := seedBucket x j.fp, slot := k, tag := seedTag j.fp, fp := j.fp, location := jobLocation j, count := 1 } ∈
        y.slots) ∧ (spaceOf t j.tenant).isSome = true) ∧
  (∀ (s : State) (v chunk : Nat) (j : Job) (x : SeedSpace),
    alive s = true → jobOf s v chunk = some j → j.stage = .insert → laneRuns s 2 2 0 = true → spaceOf s j.tenant = some x →
    (j.replace.bind fun r => x.slots.find? fun e => decide (e.bucket = r.1) && decide (e.slot = r.2)) = none →
    emptySlot x (seedBucket x j.fp) = none →
    exec (.seedInsert v chunk) s = .next (notIndexed v chunk j.tenant s)) ∧
  (∀ (s : State) (v chunk : Nat) (j : Job) (x : SeedSpace) (e : SeedSlot),
    alive s = true → jobOf s v chunk = some j → j.stage = .insert → laneRuns s 2 2 0 = true → spaceOf s j.tenant = some x →
    (j.replace.bind fun r => x.slots.find? fun e => decide (e.bucket = r.1) && decide (e.slot = r.2)) = some e →
    ∃ t, exec (.seedInsert v chunk) s = .next t ∧
      jobOf t v chunk = some { j with stage := .placed, shared := true, indexed := false }) ∧
  (∀ (s : State) (tenant : Nat) (x : SeedSpace),
    alive s = true → spaceOf s tenant = some x → x.splitting = true ∨ splitDue x = true → .seedSplit ∉ s.ecp.running →
    exec (.seedSplit tenant) s = .next (requestActivity .seedSplit s)) ∧
  (∀ (s : State) (tenant : Nat) (x : SeedSpace),
    alive s = true → spaceOf s tenant = some x → x.splitting = true → .seedSplit ∈ s.ecp.running →
    x.splitPtr + 1 ≠ 2 ^ x.b → bucketSlots x x.splitPtr = [] →
    ∃ t, exec (.seedSplit tenant) s = .next t ∧ spaceOf t tenant = some { x with splitPtr := x.splitPtr + 1 } ∧
      t.ecp = s.ecp) ∧
  (∀ (s : State) (tenant : Nat) (x : SeedSpace),
    alive s = true → spaceOf s tenant = some x → x.splitting = true ∨ splitDue x = true → .seedSplit ∈ s.ecp.running →
    x.splitPtr + 1 ≠ 2 ^ x.b →
    ∃ t, exec (.seedSplit tenant) s = .next t ∧
      (spaceOf t tenant).map (fun y => (y.b, y.splitPtr, y.splitting)) = some (x.b, x.splitPtr + 1, true)) ∧
  (∀ (s : State) (tenant : Nat) (x : SeedSpace),
    alive s = true → spaceOf s tenant = some x → x.splitting = true ∨ splitDue x = true → .seedSplit ∈ s.ecp.running →
    x.splitPtr + 1 = 2 ^ x.b →
    ∃ t, exec (.seedSplit tenant) s = .next t ∧
      (spaceOf t tenant).map (fun y => (y.b, y.splitPtr, y.splitting)) = some (x.b + 1, 0, false)) ∧
  (∀ (s : State) (v num : Nat) (x : Volume) (p : Snapshot),
    alive s = true → volOf s v = some x →
    x.snaps.find? (fun p => decide (p.num = num) && !p.frozen && !p.deleting) = some p → committedUpTo s v p.cut = true →
    ∃ t, exec (.snapshotFreeze v num) s = .next t ∧
      (∀ y ∈ volOf t v, { p with frozen := true, listed := p.link.isNone, table := x.table } ∈ y.snaps) ∧
      (volOf t v).isSome = true) ∧
  (∀ (s : State) (v num : Nat) (x : Volume) (p : Snapshot),
    volOf s v = some x → x.snaps.find? (fun p => decide (p.num = num) && !p.frozen && !p.deleting) = some p →
    committedUpTo s v p.cut = false →
    exec (.snapshotFreeze v num) s = .next (s)) ∧
  (∀ (s : State) (v num : Nat) (x : Volume) (p : Snapshot),
    alive s = true → volOf s v = some x → x.snaps.find? (fun p => decide (p.num = num) && p.deleting) = some p →
    snapAwaited s v p = false →
    ∃ t, exec (.snapshotDeleted v num) s = .next t ∧ volOf t v = some { x with snaps := x.snaps.filter fun q => q ≠ p } ∧
      (∀ r ∈ t.ecp.lostList, r.volume = v → r.snap ≠ num)) ∧
  (∀ (s : State) (v chunk lane : Nat) (j : Job),
    alive s = true → jobOf s v chunk = some j → j.stage = .encode → laneRuns s 2 3 lane = true → encoderFree s lane = true →
    kcForce s = true ∨ j.lost ≠ 0 ∨ s.pwr.flushActive = true →
    ∃ t, exec (.kernelEncode v chunk lane) s = .next t ∧
      jobOf t v chunk = some { j with stage := .protect, container := jobRaw j } ∧
      t.kc = { s.kc with chunks := satAdd (2 ^ 64 - 1) s.kc.chunks 1 } ∧ t.out = s.out) ∧
  (∀ (s : State) (v chunk lane : Nat) (j : Job) (o : Option (List (Nat × List (BitVec 8)))),
    alive s = true → jobOf s v chunk = some j → j.stage = .encode → laneRuns s 2 3 lane = true → encoderFree s lane = true →
    kcForce s = false → j.lost = 0 → s.pwr.flushActive = false →
    encodeSlices (rasterOf j) (kcFixed s) (j.sectors.flatMap id) = o →
    ∃ t, exec (.kernelEncode v chunk lane) s = .next t ∧ (∀ ss ∈ o, jobOf t v chunk = some
        { j with stage := .kernelVerify, lane := lane, container := ({ serial := 0, kernel := true, tenant := j.tenant, volume := v, lostMask := 0, raster := rasterOf j, chunk := chunk, lsn := j.lsn, guards := j.guards, slices := ss, raw := [] } : Container).delivered }
        ∧ t.kc.overflow = s.kc.overflow) ∧ (o = none → jobOf t v chunk = some
        { j with stage := .protect, container := jobRaw j } ∧ t.kc.overflow = satAdd (2 ^ 64 - 1) s.kc.overflow 1) ∧
      t.kc.chunks = satAdd (2 ^ 64 - 1) s.kc.chunks 1) ∧
  (∀ (s : State) (v chunk lane : Nat) (fault ok : Bool) (j : Job),
    alive s = true → jobOf s v chunk = some j → j.stage = .kernelVerify → poolFree s lane = true →
    ctlState s (srcId 2 3 j.lane) ≠ .husk → (!fault && decide (containerData (parseContainer j.container) 8 =
      j.sectors.flatMap id) && decide ((parseContainer j.container).guards = j.guards) && decide ((parseContainer
      j.container).tenant = j.tenant ∧ (parseContainer j.container).volume = v ∧ (parseContainer j.container).chunk = chunk
      ∧ (parseContainer j.container).lsn = j.lsn) && (parseContainer j.container).kernel && decide ((parseContainer
      j.container).lostMask = j.lost) && decide ((parseContainer j.container).raster.bits = (rasterOf j).bits ∧
      (parseContainer j.container).raster.lanes = (rasterOf j).lanes ∧ (parseContainer j.container).raster.stride =
      (rasterOf j).stride ∧ (parseContainer j.container).raster.phase = (rasterOf j).phase)) = ok →
    ∃ t, exec (.kernelVerify v chunk lane fault) s = .next t ∧ (jobOf t v chunk).map (·.stage) = some .protect ∧
      (ok = true → (jobOf t v chunk).map (·.container) = some j.container) ∧
      (ok = true → t.kc.kernel = satAdd (2 ^ 64 - 1) s.kc.kernel 1) ∧
      (ok = false → (jobOf t v chunk).map (·.container) = some (jobRaw j)) ∧
      (ok = false → t.kc.verifyFail = true ∧ t.kc.mismatch = satAdd (2 ^ 64 - 1) s.kc.mismatch 1)) ∧
  (∀ (s : State) (v chunk lane : Nat) (fault : Bool) (j : Job),
    alive s = true → jobOf s v chunk = some j → j.stage = .kernelVerify →
    ctlState s (srcId 2 4 lane) = .husk ∨ (poolFree s lane = true ∧ ctlState s (srcId 2 3 j.lane) = .husk) →
    ∃ t, exec (.kernelVerify v chunk lane fault) s = .next t ∧
      jobOf t v chunk = some { j with stage := .encode, container := [] } ∧ t.flt.redispatched = s.flt.redispatched + 1 ∧
      t.kc = s.kc) ∧
  (∀ (s : State) (v snap chunk lane : Nat) (media : List StoredRead),
    alive s = true → decodeGranted s lane = true → s.sec.drbgOk = true →
    exec (.kernelDecode { vol := v, chunk := chunk } snap lane media) s = .next ((readMapped v snap chunk 3 media (poolTake
        lane s)).2)) ∧
  (∀ (s : State) (requester off : Nat) (input : List (BitVec 8)), powered s = true → dictDecodeAt input = (none, off) →
    ∃ t, exec (.dictJob false false requester input) s = .next t ∧ t.kc.dictFail = true ∧
      { t.kc with dictFail := s.kc.dictFail } = s.kc) ∧
  (∀ (s : State) (encode cfg : Bool) (requester : Nat) (input : List (BitVec 8)),
    encode = true ∨ cfg = true ∨ powered s = false ∨ (dictDecodeAt input).1 ≠ none →
    exec (.dictJob encode cfg requester input) s = .next (s)) ∧
  (∀ (s : State) (v chunk lane : Nat) (j : Job) (plain : List (BitVec 8)) (n : BitVec 64) (u w : State) (r : Option Nat),
    alive s = true → jobOf s v chunk = some j → j.stage = .protect → laneRuns s 3 1 lane = true → s.sec.drbgOk = true →
    (if j.container = [] ∨ s.pwr.flushActive = true then jobRaw j else j.container) = plain → takeSerial s = (some n, u) →
      placeObject (if s.pwr.flushActive = true then flushGeom u else geomOf u v).1 (if s.pwr.flushActive = true then
      flushGeom u else geomOf u v).2 (if s.pwr.flushActive = true then 2 else 0) (sealStored u j.tenant
      ({ parseContainer plain with serial := n }.bytes))
      { volume := v, method := leAt plain 11 1, shared := false, moved := false, kind := 0, len := ({ parseContainer plain with serial := n }.bytes).length / 256, grain := 0, chunk := chunk, lsn := j.lsn }
      u = (r, w) →
    ∃ t, exec (.protectChunk { vol := v, chunk := chunk } lane) s = .next t ∧ (∀ a ∈ r, t = modJob v chunk (fun j =>
        { j with stage := if j.indexed && !j.fp.isEmpty then .insert else .placed, container := { parseContainer plain with serial := n }.bytes, serial := n, grain := BitVec.ofNat 64 a })
        w) ∧ (r = none → t = flushNoSpace v j.lsn w)) ∧
  (∀ (s : State) (v chunk lane : Nat) (j : Job) (u : State),
    alive s = true → jobOf s v chunk = some j → j.stage = .protect → laneRuns s 3 1 lane = true → s.sec.drbgOk = true →
    takeSerial s = (none, u) →
    exec (.protectChunk { vol := v, chunk := chunk } lane) s = .next (u))

/-- The clauses, in their order, on a head that is alive.  DML_DETECT moves a usable port with a module from disabled or DOWN
to DETECT with power good; without a module or on a port that is not usable it notes power good and leaves the state.  A
detected module moves the port to TRAIN; lanes that lock in their order send IDENT and move it to IDENT; a lane out of order
is recorded and leaves it in TRAIN.  A port in TRAIN for 100 ms goes DOWN, where no command is cut its commands are dropped. 
A port DOWN for one second with a powered module goes to DETECT.  An IDENT in its ranges that does not name this head, with a
good page and a good geometry, makes the port active and is kept; one that names this head, one with a bad page, and one with
a bad geometry are recorded and change nothing else.  A flit whose CRC holds is taken; a sequenced one in order raises the
sequence and ends the NAK; a flit whose CRC fails is counted and answered by one NAK of the last sequence taken, and so is a
sequenced one out of order.  A sync flit clears the count of missing ones; the third one missing on an active port retrains
it.  A NAK takes its acknowledgement and replays what is left, with one try more, while the oldest has fewer than four tries. 
No progress for 4 us does the same, and after four tries the port retrains.  A retrain that takes 10 ms is tried again, and
after the third the port goes DOWN; a retrain whose lanes lock makes the port active with its sequence kept.  An inserted
module is present with its slot's power good as it is, and one that shares a powered slot blocks the loops for 20 ms.  A
removed one is absent, its port disabled and its slot off. -/
def Obligations.ModuleLinksTrain : Prop :=
  (∀ (s : State) (p : Nat),
    portUsable s p = true → p < 48 → p < s.med.ports.length → (portOf s p).present = true →
    (portOf s p).st = .disabled ∨ (portOf s p).st = .down →
    ∃ t, exec (.dmlDetect p) s = .next t ∧ (portOf t p).st = .detect ∧ (portOf t p).pg = true ∧ t.ecp = s.ecp) ∧
  (∀ (s : State) (p : Nat),
    alive s = true → p < 48 → p < s.med.ports.length → portUsable s p = false ∨ (portOf s p).present = false →
    ∃ t, exec (.dmlDetect p) s = .next t ∧ (portOf t p).st = (portOf s p).st ∧ (portOf t p).pg = true) ∧
  (∀ (s : State) (p : Nat), alive s = true → (portOf s p).st = .detect →
    exec (.dmlTraining p .detected) s = .next (modPort p (fun m => { m with st := .train, stAt := now s }) s)) ∧
  (∀ (s : State) (p : Nat) (lanes : List (Nat × Bool)),
    alive s = true → (portOf s p).st = .train → lanesLock s 3 p 2 lanes = true → wrongLane s 3 p 2 lanes = none →
    exec (.dmlTraining p (.locked lanes)) s = .next (dmlBare p 0x03 (identPayload s.glb.headSel Config.serial) (modPort p
        (fun m => { m with st := .ident, rxAny := false }) s))) ∧
  (∀ (s : State) (p l : Nat) (lanes : List (Nat × Bool)),
    alive s = true → (portOf s p).st = .train → lanesLock s 3 p 2 lanes = true → wrongLane s 3 p 2 lanes = some l →
    exec (.dmlTraining p (.locked lanes)) s = .next (laneMismatch (dmlSrc p) p (rxLane s 3 p l) s)) ∧
  (∀ (s : State) (p : Nat), alive s = true → (portOf s p).st = .train → (portOf s p).stAt + 100000000 ≤ now s →
    exec (.dmlTrainTimeout p) s = .next (portDown p .down false s)) ∧
  (∀ (s : State) (p : Nat),
    alive s = true → p < s.med.ports.length → (portOf s p).st = .train → (∀ c ∈ (portOf s p).cmds, c.opc ≠ 2 ∧ c.opc ≠ 3) →
    (slotOf s p).st = .absent → (portOf s p).stAt + 100000000 ≤ now s →
    ∃ t, exec (.dmlTrainTimeout p) s = .next t ∧ (portOf t p).st = .down ∧ (portOf t p).cmds = [] ∧
      (portOf t p).waiting = [] ∧ t.ecp = s.ecp) ∧
  (∀ (s : State) (p : Nat),
    portUsable s p = true → (portOf s p).st = .down → (portOf s p).present = true → (portOf s p).pg = true →
    (portOf s p).stAt + 10 ^ 9 ≤ now s →
    exec (.dmlDownRetry p) s = .next (modPort p (fun m => { m with st := .detect }) s)) ∧
  (∀ (s : State) (p : Nat) (d : DmlIdent),
    alive s = true → p < s.med.ports.length → (portOf s p).st = .ident → d.otherHead ≠ b2n s.glb.headSel →
    infoOk d.info = true → moduleGeometryOk d.info = true → identOk d = true →
    ∃ t, exec (.dmlIdent p d) s = .next t ∧ (portOf t p).st = .active ∧ (portOf t p).serial = d.serial ∧
      (portOf t p).info = d.info ∧ (portOf t p).bridgePort = decide (d.port = 1) ∧ (portOf t p).epoch = d.epoch) ∧
  (∀ (s : State) (p : Nat) (d : DmlIdent), alive s = true → (portOf s p).st = .ident → d.otherHead = b2n s.glb.headSel →
    exec (.dmlIdent p d) s = .next (record 0x0A0C (dmlSrc p) [] s)) ∧
  (∀ (s : State) (p : Nat) (d : DmlIdent),
    alive s = true → (portOf s p).st = .ident → d.otherHead ≠ b2n s.glb.headSel → infoOk d.info = false →
    exec (.dmlIdent p d) s = .next (record 0x0A0B (dmlSrc p) [] s)) ∧
  (∀ (s : State) (p : Nat) (d : DmlIdent),
    alive s = true → (portOf s p).st = .ident → d.otherHead ≠ b2n s.glb.headSel → infoOk d.info = true →
    moduleGeometryOk d.info = false →
    exec (.dmlIdent p d) s = .next (record 0x0B0B schedSrc [] s)) ∧
  (∀ (s : State) (p : Nat) (f : List (BitVec 8)),
    alive s = true → (portOf s p).st = .active → flitCrcOk f = true → flitType f ∈ bridgeTypes →
    exec (.dmlFlitReceive p (.flit f)) s = .next (takeFlit p f s)) ∧
  (∀ (s : State) (p : Nat) (f : List (BitVec 8)),
    alive s = true → p < s.med.ports.length → (portOf s p).st = .active → flitCrcOk f = true →
    bridgeSequenced (flitType f) = true → flitSeq f = (portOf s p).seqRx →
    ∃ t, exec (.dmlFlitReceive p (.flit f)) s = .next t ∧ (portOf t p).seqRx = (flitSeq f + 1) % 1024 ∧
      (portOf t p).nakSent = false ∧ (portOf t p).st = .active) ∧
  (∀ (s : State) (p : Nat) (f : List (BitVec 8)),
    alive s = true → p < s.med.ports.length → (portOf s p).st = .active → flitCrcOk f = false →
    (portOf s p).nakSent = false →
    ∃ t, exec (.dmlFlitReceive p (.flit f)) s = .next t ∧ (portOf t p).seqRx = (portOf s p).seqRx ∧
      (portOf t p).nakSent = true ∧ (portOf t p).crcErrs = satAdd 65535 (portOf s p).crcErrs 1 ∧
      t.out = .dmlFlit p (dmlFlit 0x02 0 0 (some (((portOf s p).seqRx + 1023) % 1024)) []) :: s.out) ∧
  (∀ (s : State) (p : Nat) (f : List (BitVec 8)),
    alive s = true → p < s.med.ports.length → (portOf s p).st = .active → flitCrcOk f = true →
    bridgeSequenced (flitType f) = true → flitSeq f ≠ (portOf s p).seqRx →
    ∃ t, exec (.dmlFlitReceive p (.flit f)) s = .next t ∧ (portOf t p).seqRx = (portOf s p).seqRx ∧
      (portOf t p).nakSent = true) ∧
  (∀ (s : State) (p : Nat) (f : List (BitVec 8)), alive s = true → (portOf s p).st = .active → syncSeen f = true →
    exec (.dmlFlitReceive p (.sync f)) s = .next (modPort p (fun m => { m with syncMiss := 0 }) s)) ∧
  (∀ (s : State) (p : Nat) (f : List (BitVec 8)),
    alive s = true → p < s.med.ports.length → (portOf s p).st = .active → syncSeen f = false → 2 ≤ (portOf s p).syncMiss →
    ∃ t, exec (.dmlFlitReceive p (.sync f)) s = .next t ∧ (portOf t p).st = .retrain ∧
      (portOf t p).retrains = satAdd 255 (portOf s p).retrains 1 ∧ (portOf t p).stAt = now s) ∧
  (∀ (s : State) (p ack : Nat),
    alive s = true → p < s.med.ports.length → (portOf s p).st = .active → ackFlits ack (portOf s p).unacked ≠ [] →
    (∀ x ∈ (ackFlits ack (portOf s p).unacked).head?, x.2 < 4) →
    ∃ t, exec (.dmlNak p ack) s = .next t ∧
      ((portOf t p).unacked = (ackFlits ack (portOf s p).unacked).map fun x => (x.1, x.2 + 1)) ∧
      .dmlReplay p ((ackFlits ack (portOf s p).unacked).map (·.1)) ∈ t.out ∧ (portOf t p).ackAt = now s ∧
      (portOf t p).st = .active) ∧
  (∀ (s : State) (p : Nat) (a n : Nat) (r : List (Nat × Nat)),
    alive s = true → p < s.med.ports.length → (portOf s p).st = .active → (portOf s p).unacked = (a, n) :: r → n < 4 →
    (portOf s p).ackAt + 4000 ≤ now s →
    ∃ t, exec (.dmlReplayTimeout p) s = .next t ∧
      ((portOf t p).unacked = (portOf s p).unacked.map fun x => (x.1, x.2 + 1)) ∧
      (portOf t p).replays = satAdd 255 (portOf s p).replays 1 ∧ .dmlReplay p ((portOf s p).unacked.map (·.1)) ∈ t.out) ∧
  (∀ (s : State) (p : Nat) (a n : Nat) (r : List (Nat × Nat)),
    alive s = true → p < s.med.ports.length → (portOf s p).st = .active → (portOf s p).unacked = (a, n) :: r → 4 ≤ n →
    (portOf s p).ackAt + 4000 ≤ now s →
    ∃ t, exec (.dmlReplayTimeout p) s = .next t ∧ (portOf t p).st = .retrain ∧ (portOf t p).unacked = (portOf s p).unacked) ∧
  (∀ (s : State) (p : Nat),
    alive s = true → (portOf s p).st = .retrain → (portOf s p).retrainTries < 2 → (portOf s p).stAt + 10000000 ≤ now s →
    exec (.dmlRetrainTimeout p) s = .next (modPort p (fun m => { m with retrainTries := m.retrainTries + 1, stAt := now s })
        s)) ∧
  (∀ (s : State) (p : Nat),
    alive s = true → (portOf s p).st = .retrain → 2 ≤ (portOf s p).retrainTries → (portOf s p).stAt + 10000000 ≤ now s →
    exec (.dmlRetrainTimeout p) s = .next (portDown p .down false s)) ∧
  (∀ (s : State) (p : Nat) (lanes : List (Nat × Bool)),
    alive s = true → p < s.med.ports.length → (portOf s p).st = .retrain → lanesLock s 3 p 2 lanes = true →
    wrongLane s 3 p 2 lanes = none →
    ∃ t, exec (.dmlRetrainComplete { port := p, lanes := lanes }) s = .next t ∧ (portOf t p).st = .active ∧
      (portOf t p).seqRx = (portOf s p).seqRx ∧ (portOf t p).retrainTries = 0 ∧ (portOf t p).telemTime = now s) ∧
  (∀ (s : State) (p l : Nat) (lanes : List (Nat × Bool)),
    alive s = true → (portOf s p).st = .retrain → lanesLock s 3 p 2 lanes = true → wrongLane s 3 p 2 lanes = some l →
    exec (.dmlRetrainComplete { port := p, lanes := lanes }) s = .next (laneMismatch (dmlSrc p) p (rxLane s 3 p l) s)) ∧
  (∀ (s : State) (p : Nat), alive s = true → p < 48 → p < s.med.ports.length → (portOf s p).present = false →
    ∃ t, exec (.moduleInserted p) s = .next t ∧ (portOf t p).present = true ∧
      (portOf t p).pg = (s.cle.slots.getD p SlotPwr.reset).pg ∧ (t.cle.blockAll = if (s.cle.slots.getD p SlotPwr.reset).pg =
        true ∧ slotShared s p = true then now s + 20000000 else s.cle.blockAll)) ∧
  (∀ (s : State) (p : Nat), alive s = true → p < s.med.ports.length → (portOf s p).present = true →
    ∃ t, exec (.moduleRemoved p) s = .next t ∧ (portOf t p).present = false ∧ (portOf t p).st = .disabled ∧
      (portOf t p).pg = false ∧ (∀ x ∈ t.cle.slots[p]?, x.en = false))

/-- The clauses, in their order, on a head that is alive.  A completion with the tag and generation of an outstanding command
on an active port removes this command, counts its time on the die, has its meaning, and lets free blocks be erased and
waiting commands go; one of no outstanding command sets the stale flag and removes none.  Telemetry on an active port is kept:
its time, temperatures of the zones, input voltage and current, busy dies and fence epoch, and the hottest zone with its
temperature.  Three periods without it are recorded once.  A module event is recorded with its contents; code 3 retires the
die, code 5 takes the epoch and the fenced port it names, and code 8 also records 0x0A0C.  A period of 10 to 1 000 ms written
is the period from then on and the period of the module loops is ten times it; any other value sets only the error flag. -/
def Obligations.ModulesAreHeard : Prop :=
  (∀ (s : State) (p : Nat) (x : DmlCpl) (c : DmlCmd),
    alive s = true → (portOf s p).st = .active →
    (portOf s p).cmds.find? (fun c => decide (c.tag = x.tag) && decide (c.gen = x.gen)) = some c →
    exec (.dmlCompletion p x) s = .next (dmlRun p (ledgerFigures (eraseFree (cplMeaning p c x.status x.info (noteDieUse p c
        x.busyUs (modPort p (fun m =>
        { m with cmds := m.cmds.filter (fun c => c.tag ≠ x.tag), suspCounts := m.suspCounts.filter fun y => y.1 ≠ x.tag })
        s))))))) ∧
  (∀ (s : State) (p : Nat) (x : DmlCpl),
    alive s = true → (portOf s p).st = .active →
    (portOf s p).cmds.find? (fun c => decide (c.tag = x.tag) && decide (c.gen = x.gen)) = none →
    ∃ t, exec (.dmlCompletion p x) s = .next t ∧ t.med.staleCpl = true ∧ (portOf t p).cmds = (portOf s p).cmds ∧
      t.ecp.stripes = s.ecp.stripes) ∧
  (∀ (s : State) (p : Nat) (r : TelemRecord), alive s = true → p < s.med.ports.length → (portOf s p).st = .active →
    ∃ t, exec (.telem p r) s = .next t ∧ (portOf t p).telemTime = now s ∧ (portOf t p).zoneTemps = r.zones ∧
      (portOf t p).vin = r.vin ∧ (portOf t p).iin = r.iin ∧ (portOf t p).busyDies = r.busy ∧ (portOf t p).epoch = r.epoch ∧
      (∀ x ∈ hottest r.zones, (portOf t p).tempZone = x.1 ∧ (portOf t p).temp = x.2)) ∧
  (∀ (s : State) (p : Nat),
    alive s = true → (portOf s p).st = .active → (portOf s p).telemLost = false →
    (portOf s p).telemTime + 3 * s.med.periodMs * 1000000 ≤ now s →
    exec (.telemMissing p) s = .next (record 0x0A0A (dmlSrc p) [] (modPort p (fun m => { m with telemLost := true }) s))) ∧
  (∀ (s : State) (p : Nat) (e : ModuleEventRec), alive s = true → e.code ≠ 3 → e.code ≠ 5 → e.code ≠ 8 →
    exec (.moduleEvent p e) s = .next (recordSev 0x0A06 (bridgeSrc p) [e.code % 65536 + 65536 * (e.severity % 256) + 2 ^ 24
        * (e.die % 256), e.tick % 2 ^ 32, e.param.toNat % 2 ^ 32, e.param.toNat / 2 ^ 32] (decide (e.severity = 2))
        (severityOf 0x0A06 (decide (e.severity = 2)) e.severity) s)) ∧
  (∀ (s : State) (p : Nat) (e : ModuleEventRec), alive s = true → p < s.med.ports.length → e.code = 5 →
    ∃ t, exec (.moduleEvent p e) s = .next t ∧ (portOf t p).epoch = e.param.toNat % 2 ^ 32 ∧
      (portOf t p).fencedHere = decide (e.param.toNat / 2 ^ 32 % 256 = b2n (portOf s p).bridgePort) ∧
      (portOf t p).fenceHolder = decide (e.param.toNat / 2 ^ 32 % 256 = 1 - b2n (portOf s p).bridgePort)) ∧
  (∀ (s : State) (p : Nat) (e : ModuleEventRec), alive s = true → e.code = 3 →
    ∃ t, exec (.moduleEvent p e) s = .next t ∧ (p, e.die) ∈ t.mmg.retiredDies) ∧
  (∀ (s : State) (p : Nat) (e : ModuleEventRec), alive s = true → e.code = 8 →
    exec (.moduleEvent p e) s = .next (record 0x0A0C (dmlSrc p) [] (recordSev 0x0A06 (bridgeSrc p) (eventWords e) (decide
        (e.severity = 2)) (severityOf 0x0A06 (decide (e.severity = 2)) e.severity) s))) ∧
  (∀ (s : State) (w : BitVec 32), hostWriteOk s 0x0B = true → 10 ≤ fld w 0 11 ∧ fld w 0 11 ≤ 1000 →
    ∃ t, exec (.telemPeriodWrite w) s = .next t ∧ t.med.periodMs = fld w 0 11 ∧ t.med.ctlErr = s.med.ctlErr ∧
      (∀ n < 54, 6 ≤ n → ∀ l ∈ t.cle.loops[n]?, l.cfg.period = 10 * fld w 0 11)) ∧
  (∀ (s : State) (w : BitVec 32), hostWriteOk s 0x0B = true → fld w 0 11 < 10 ∨ 1000 < fld w 0 11 →
    exec (.telemPeriodWrite w) s = .next ({ s with med.ctlErr := true }))

/-- The clauses, in their order.  On a head that is alive, a codeword read that is not under way starts at step 1 with its
block's retry set and the time it started; a codeword whose parity matches ends the read and counts a soft read from step 3
on, one whose parity does not match fails the attempt, a failed attempt of step 3 makes step 4, and one of step 4 ends the
read and is counted as a failed decoding.  A read that has waited 100 us on a die that is not suspended notes a suspension of
the command that can be suspended.  A suspended die resumes when no read waits or 2 ms have passed.  With no waypoint under
way a wanted one starts, with the next sequence number and the first LSN after the log's; one that is not whole is captured
again; otherwise nothing changes.  A waypoint whose record is programmed, with no other requested, ends: its number, its pages
and its record are the newest, the commit LSN is the larger one, and the frames it recorded leave the log; before that nothing
changes.  A write of the ledger selection joins the staged high half and latches the entry it selects. -/
def Obligations.MediaIsRead : Prop :=
  (∀ (s : State) (slot die plane block page cw : Nat) (work : DieWork),
    alive s = true → s.mmg.reads.find? (fun r => isRead r slot die plane block page cw) = none →
    ∃ t, exec (.codewordRead slot die plane block page cw (.begin work)) s = .next t ∧ (∃ r ∈ t.mmg.reads, r.slot = slot ∧
        r.die = die ∧ r.plane = plane ∧ r.block = block ∧ r.page = page ∧ r.cw = cw ∧ r.step = 1 ∧ r.retry = ((ledgerOf s
        slot die plane block).map (·.retrySet)).getD 0 ∧ r.since = now s) ∧ t.mmg.reads.length = s.mmg.reads.length + 1 ∧
      t.mmg.ledger = s.mmg.ledger) ∧
  (∀ (s : State) (slot die plane block page cw lane best : Nat) (bytes : List (BitVec 8)) (r : CwRead),
    alive s = true → s.mmg.reads.find? (fun r => isRead r slot die plane block page cw) = some r → ldpcOk bytes = true →
    ∃ t, exec (.codewordRead slot die plane block page cw (.decoded lane best bytes)) s = .next t ∧ r ∉ t.mmg.reads ∧
      (t.mmg.softReads = if 3 ≤ r.step then satAdd (2 ^ 32 - 1) s.mmg.softReads 1 else s.mmg.softReads) ∧
      t.ecp.stripes = s.ecp.stripes) ∧
  (∀ (s : State) (slot die plane block page cw lane best : Nat) (bytes : List (BitVec 8)) (r : CwRead),
    alive s = true → s.mmg.reads.find? (fun r => isRead r slot die plane block page cw) = some r → ldpcOk bytes = false →
    exec (.codewordRead slot die plane block page cw (.decoded lane best bytes)) s = .next (cwFailed r lane best s)) ∧
  (∀ (s : State) (slot die plane block page cw lane best : Nat) (r : CwRead),
    alive s = true → s.mmg.reads.find? (fun r => isRead r slot die plane block page cw) = some r → r.step = 3 →
    ∃ t, exec (.codewordRead slot die plane block page cw (.failed lane best)) s = .next t ∧
      { r with step := 4 } ∈ t.mmg.reads ∧ t.mmg.ldpcFails = s.mmg.ldpcFails) ∧
  (∀ (s : State) (slot die plane block page cw lane best : Nat) (r : CwRead),
    alive s = true → s.mmg.reads.find? (fun r => isRead r slot die plane block page cw) = some r → 4 ≤ r.step →
    ∃ t, exec (.codewordRead slot die plane block page cw (.failed lane best)) s = .next t ∧ r ∉ t.mmg.reads ∧
      t.mmg.ldpcFails = satAdd (2 ^ 32 - 1) s.mmg.ldpcFails 1) ∧
  (∀ (s : State) (slot die : Nat) (c : DmlCmd),
    alive s = true → 100000 ≤ now s → readSince s slot die (now s - 100000) = true →
    (∀ x ∈ s.mmg.suspends, x.slot = slot → x.die ≠ die) → suspendable s slot die = some c →
    ∃ t, exec (.suspendIssue slot die) s = .next t ∧
      t.mmg.suspends = s.mmg.suspends ++ [{ slot := slot, die := die, tag := c.tag, at_ := now s }] ∧
      t.mmg.reads = s.mmg.reads ∧ t.ecp = s.ecp) ∧
  (∀ (s : State) (slot die : Nat) (x : SuspendedOp),
    alive s = true → s.mmg.suspends.find? (fun x => decide (x.slot = slot) && decide (x.die = die)) = some x →
    readSince s slot die (now s) = false ∨ x.at_ + 2000000 ≤ now s →
    exec (.resumeIssue slot die) s = .next (dmlIssue slot
        { DmlCmd.reset with opc := 5, planes := 0, param := 0, die := die } s)) ∧
  (∀ (s : State), alive s = true → s.mmg.wp = none → waypointWanted s = true →
    ∃ t, exec .waypointStart s = .next t ∧
      t.mmg.wp.map (fun w => (w.seq, w.lsnEnd, w.clean)) = some (s.mmg.wpSeq + 1, s.wlg.lsn + 1, false) ∧
      t.mmg.wpRequest = false ∧ t.mmg.objPages = s.mmg.objPages ∧ t.wlg = s.wlg ∧ t.red = s.red) ∧
  (∀ (s : State) (w : WaypointState), alive s = true → s.mmg.wp = some w → w.whole = false →
    ∃ t, exec .waypointStart s = .next t ∧
      t.mmg.wp.map (fun w => (w.seq, w.lsnEnd)) = some (s.mmg.wpSeq + 1, s.wlg.lsn + 1) ∧ t.mmg.objPages = s.mmg.objPages ∧
      t.wlg = s.wlg) ∧
  (∀ (s : State), (∀ w, s.mmg.wp = some w → w.whole = true) → s.mmg.wp ≠ none ∨ waypointWanted s = false →
    exec .waypointStart s = .next (s)) ∧
  (∀ (s : State) (w : WaypointState),
    alive s = true → s.mmg.wp = some w → recordDone w s = true → s.mmg.wpRequest = false →
    ∃ t, exec .waypointComplete s = .next t ∧ t.mmg.wp = none ∧ t.mmg.wpSeq = w.seq ∧ t.mmg.objPages = w.pages ∧
      t.mmg.stream.last = w.record ∧ t.wlg.commitLsn = max s.wlg.commitLsn w.commitLsn ∧
      (t.wlg.frames = s.wlg.frames.filter fun f => !(w.frames.contains (f.volume, f.lsn, f.index)))) ∧
  (∀ (s : State) (w : WaypointState), s.mmg.wp = some w → recordDone w s = false → exec .waypointComplete s = .next (s)) ∧
  (∀ (s : State) (ep : Nat) (w : BitVec 32), hostWriteOk s 0x0B = true →
    ∃ t, exec (.ledgerSelect ep w) s = .next t ∧ t.mmg.ledgerSel = join64 (stagedHi s ep 0xB1040 (hi32 s.mmg.ledgerSel)) w ∧
      t.mmg.ledgerData = ledgerWords (join64 (stagedHi s ep 0xB1040 (hi32 s.mmg.ledgerSel)) w) s ∧
      t.mmg.ledger = s.mmg.ledger)

/-- The clauses, in their order, on a head that is alive and for a die it holds.  A relocation whose new grains are programmed
ends and its retiring blocks settle; before that nothing changes.  A die below the low mark joins the dies under collection
and the activity is asked for; a die at the high mark leaves them, and the activity ends with the last; below it the running
activity relocates the victim.  A die whose spread is above the limit asks for wear levelling; while this runs, the coldest
closed block is relocated with the most worn free block as its target; a die at or below the limit leaves the dies under
levelling and the activity ends with the last.  A block that is neither suspect nor retiring nor an anchor that is due gets
the class of its urgency, and a class that is due asks for the refresh activity; with the class unchanged and due and the
activity running, the block is relocated.  A due anchor block has its ring written again; a suspect or retiring block is
emptied. -/
def Obligations.MediaIsMaintained : Prop :=
  (∀ (s : State) (old : Nat) (r : Reloc),
    alive s = true → s.mmg.relocs.find? (fun r => r.old.toNat = old) = some r → grainsDone s r.new.toNat r.len = true →
    exec (.relocationSwitch old) s = .next (settleRetiring (eraseFree (endReloc r s)))) ∧
  (∀ (s : State) (old : Nat) (r : Reloc),
    s.mmg.relocs.find? (fun r => r.old.toNat = old) = some r → grainsDone s r.new.toNat r.len = false →
    exec (.relocationSwitch old) s = .next (s)) ∧
  (∀ (s : State) (slot die : Nat) (media : List StoredRead),
    alive s = true → dieHeld s slot die = true → (slot, die) ∉ s.mmg.gcDies →
    100 * (dieFree s slot die).1 < s.mmg.gcLow * (dieFree s slot die).2 →
    ∃ t, exec (.gcState slot die media) s = .next t ∧ t.mmg.gcDies = s.mmg.gcDies ++ [(slot, die)] ∧
      .gc ∈ t.ecp.running ++ t.ecp.waiting ++ t.ecp.paused ∧ t.ecp.stripes = s.ecp.stripes) ∧
  (∀ (s : State) (slot die : Nat) (media : List StoredRead),
    alive s = true → dieHeld s slot die = true → (slot, die) ∈ s.mmg.gcDies →
    s.mmg.gcHigh * (dieFree s slot die).2 ≤ 100 * (dieFree s slot die).1 →
    ∃ t, exec (.gcState slot die media) s = .next t ∧ t.mmg.gcDies = s.mmg.gcDies.filter (· ≠ (slot, die)) ∧
      (t.mmg.gcDies = [] → .gc ∉ t.ecp.running) ∧ t.ecp.stripes = s.ecp.stripes) ∧
  (∀ (s : State) (slot die : Nat) (media : List StoredRead) (x : Stripe),
    alive s = true → dieHeld s slot die = true → (slot, die) ∈ s.mmg.gcDies →
    100 * (dieFree s slot die).1 < s.mmg.gcHigh * (dieFree s slot die).2 → .gc ∈ s.ecp.running →
    gcVictim s slot die = some x →
    exec (.gcState slot die media) s = .next (relocateStripe x.serial .gc media s)) ∧
  (∀ (s : State) (slot die : Nat) (media : List StoredRead),
    alive s = true → dieHeld s slot die = true → s.mmg.wlSpread < dieSpread s slot die → .wl ∉ s.ecp.running →
    exec (.wlMove slot die media) s = .next (requestActivity .wl s)) ∧
  (∀ (s : State) (slot die : Nat) (media : List StoredRead) (cold hot : Ledger),
    alive s = true → dieHeld s slot die = true → s.mmg.wlSpread < dieSpread s slot die → .wl ∈ s.ecp.running → leastBy
      (·.erases) (s.mmg.ledger.filter fun x => decide (x.slot = slot) && decide (x.die = die) && decide (x.st = .closed)) =
      some cold → leastBy (fun x => 2 ^ 32 - x.erases) (s.mmg.ledger.filter fun x => decide (x.slot = slot) && decide (x.die
      = die) && decide (x.st = .free)) = some hot →
    exec (.wlMove slot die media) s = .next (relocateBlock cold .wl media (record 0x0B08 gcSrc []
        { s with mmg.wlDies := if s.mmg.wlDies.contains (slot, die) then s.mmg.wlDies else s.mmg.wlDies ++ [(slot, die)], mmg.wlTargets := s.mmg.wlTargets.filter (fun b => !(decide (b.1 = slot) && decide (b.2.1 = die))) ++ [(hot.slot, hot.die, hot.plane, hot.block)] }))) ∧
  (∀ (s : State) (slot die : Nat) (media : List StoredRead),
    alive s = true → dieHeld s slot die = true → dieSpread s slot die ≤ s.mmg.wlSpread → (slot, die) ∈ s.mmg.wlDies →
    ∃ t, exec (.wlMove slot die media) s = .next t ∧ t.mmg.wlDies = s.mmg.wlDies.filter (· ≠ (slot, die)) ∧
      (t.mmg.wlDies = [] → .wl ∉ t.ecp.running)) ∧
  (∀ (s : State) (slot die plane block : Nat) (media : List StoredRead) (l : Ledger),
    alive s = true → dieHeld s slot die = true → ledgerOf s slot die plane block = some l → l.st ≠ .suspect →
    l.st ≠ .retiring → anchorDue s l = false → .refresh ∉ s.ecp.running →
    ∃ t, exec (.refreshClass slot die plane block media) s = .next t ∧
      (ledgerOf t slot die plane block).map (·.cls) = some (classOfBlock s l) ∧
      (classOfBlock s l ≠ .notDue → .refresh ∈ t.ecp.running ++ t.ecp.waiting ++ t.ecp.paused) ∧
      t.ecp.stripes = s.ecp.stripes) ∧
  (∀ (s : State) (slot die plane block : Nat) (media : List StoredRead) (l : Ledger),
    alive s = true → dieHeld s slot die = true → ledgerOf s slot die plane block = some l → l.st = .suspect →
    exec (.refreshClass slot die plane block media) s = .next (eraseFree (relocateBlock l .suspect media s))) ∧
  (∀ (s : State) (slot die plane block : Nat) (media : List StoredRead) (l : Ledger),
    alive s = true → dieHeld s slot die = true → ledgerOf s slot die plane block = some l → l.st = .retiring →
    exec (.refreshClass slot die plane block media) s = .next (settleRetiring (relocateBlock l .retire media s))) ∧
  (∀ (s : State) (slot die plane block : Nat) (media : List StoredRead) (l : Ledger),
    alive s = true → dieHeld s slot die = true → ledgerOf s slot die plane block = some l → l.st ≠ .suspect →
    l.st ≠ .retiring → anchorDue s l = false → classOfBlock s l = l.cls → l.cls ≠ .notDue → .refresh ∈ s.ecp.running →
    exec (.refreshClass slot die plane block media) s = .next (ledgerFigures (relocateBlock l .refresh media s))) ∧
  (∀ (s : State) (slot die plane block : Nat) (media : List StoredRead) (l : Ledger),
    alive s = true → dieHeld s slot die = true → ledgerOf s slot die plane block = some l → anchorDue s l = true →
    exec (.refreshClass slot die plane block media) s = .next (refreshRing slot s))

/-- The clauses, in their order, on a head that is alive or, for JOIN and FAIL, may take the write.  An open stripe that holds
no waypoint record closes when it is full, a FLUSH, a cut or a power-fail flush wants it, or it has been open for 500 ms;
otherwise it stays as it is.  A closed stripe all of whose trailers are programmed is complete and gives up its buffer; one
with live grains stays complete, one without is freed.  A degraded module fails after REJOIN_S seconds and not before.  JOIN
of a joining module is noted, makes it a member when its first use is done, and sets only the error flag in any other state. 
FAIL of a degraded module makes it failed and sets only the error flag in any other state.  A draining module of a reshape in
its drain step with no live strip left is drained and keeps no anchor, no other module changes, and the reshape ends with the
last one. -/
def Obligations.StripesAndModulesChange : Prop :=
  (∀ (s : State) (serial : BitVec 64) (x : Stripe),
    alive s = true → stripeOf s serial = some x → x.st = .opened → recordStripe s serial = false →
    x.fill = 4096 * x.k ∨ closeWanted s x = true ∨ (∃ o, x.openedAt = some o ∧ o + 500000000 ≤ now s) →
    exec (.stripeClose serial) s = .next (closeStripe serial s)) ∧
  (∀ (s : State) (serial : BitVec 64) (x : Stripe),
    stripeOf s serial = some x → x.st = .opened → recordStripe s serial = true ∨ (x.fill ≠ 4096 * x.k ∧ closeWanted s x =
      false ∧ ∀ o ∈ x.openedAt, now s < o + 500000000) →
    exec (.stripeClose serial) s = .next (s)) ∧
  (∀ (s : State) (serial : BitVec 64) (x : Stripe),
    alive s = true → stripeOf s serial = some x → x.st = .closed → (∀ p < x.members.length, p ∈ x.trailers) → 0 < x.live →
    x.kind ≠ 1 →
    ∃ t, exec (.stripeComplete serial) s = .next t ∧ (stripeOf t serial).map (·.st) = some .complete ∧
      (stripeOf t serial).map (·.strips) = some [] ∧ t.mmg.mapChange.isSome = true) ∧
  (∀ (s : State) (serial : BitVec 64) (x : Stripe),
    alive s = true → stripeOf s serial = some x → x.st = .closed → (∀ p < x.members.length, p ∈ x.trailers) → x.live = 0 →
    ∃ t, exec (.stripeComplete serial) s = .next t ∧ (stripeOf t serial).map (·.st) = some .freed) ∧
  (∀ (s : State) (n : Nat),
    alive s = true → n < s.ecp.slots.length → (slotOf s n).st = .degraded →
    (slotOf s n).since + s.ecp.rejoinS * 1000000000 ≤ now s →
    ∃ t, exec (.rejoinTimeout n) s = .next t ∧ (slotOf t n).st = .failed ∧ t.red = s.red) ∧
  (∀ (s : State) (n : Nat), (slotOf s n).st ≠ .degraded ∨ now s < (slotOf s n).since + s.ecp.rejoinS * 1000000000 →
    exec (.rejoinTimeout n) s = .next (s)) ∧
  (∀ (s : State) (slot : Nat),
    hostWriteOk s 0x0C = true → slot < s.ecp.slots.length → (slotOf s slot).st = .joining → firstUseDone s slot = false →
    ∃ t, exec (.join slot) s = .next t ∧ (slotOf t slot).joinOk = true ∧ (slotOf t slot).st = .joining ∧
      t.ecp.cmdErr = s.ecp.cmdErr) ∧
  (∀ (s : State) (slot : Nat),
    hostWriteOk s 0x0C = true → slot < s.ecp.slots.length → (slotOf s slot).st = .joining → firstUseDone s slot = true →
    ∃ t, exec (.join slot) s = .next t ∧ (slotOf t slot).st = .member ∧ t.ecp.cmdErr = s.ecp.cmdErr) ∧
  (∀ (s : State) (slot : Nat), hostWriteOk s 0x0C = true → (slotOf s slot).st ≠ .joining →
    exec (.join slot) s = .next ({ s with ecp.cmdErr := true })) ∧
  (∀ (s : State) (slot : Nat), hostWriteOk s 0x0C = true → slot < s.ecp.slots.length → (slotOf s slot).st = .degraded →
    ∃ t, exec (.fail slot) s = .next t ∧ (slotOf t slot).st = .failed ∧ t.ecp.cmdErr = s.ecp.cmdErr) ∧
  (∀ (s : State) (slot : Nat), hostWriteOk s 0x0C = true → (slotOf s slot).st ≠ .degraded →
    exec (.fail slot) s = .next ({ s with ecp.cmdErr := true })) ∧
  (∀ (s : State) (n : Nat),
    alive s = true → n < 48 → n < s.ecp.slots.length → (slotOf s n).st = .draining → s.ecp.reshape = 2 →
    liveStrips s n = 0 →
    ∃ t, exec (.moduleDrained n) s = .next t ∧ (slotOf t n).st = .drained ∧
      (∀ m ∈ List.range 48, m ≠ n → slotOf t m = slotOf s m) ∧
      ((∀ m ∈ List.range 48, m ≠ n → (slotOf s m).st ≠ .draining) → t.ecp.reshape = 0) ∧ (∀ a ∈ t.mmg.anchors, a.1 ≠ n))

/-- The clauses, in their order, on a head that is alive or, for the register commands, may take the write.  With nothing
running, the one waiting activity that this head may run starts outside a power-fail flush; one that is not compatible with
the running one waits, and a rebuild or a resynchronisation pauses it.  A running rebuild marks the stripe of the first target
this head rebuilds; it starts when it has targets and ends when it has none.  A target whose turn it is: a freed stripe leaves
the targets; one with no more unreadable strips than parities has its lost objects noted, its strip written anew elsewhere and
leaves the targets; one with more leaves the targets.  A pending resynchronisation with an empty queue ends, and with a queue
it is on while it runs; the stripe at the head of the queue is checked when complete, and is passed over when not.  PATROL_NOW
starts a pass when none runs and the interval is not 0, a due pass starts, and a pass ends when every complete stripe was
patrolled.  A reshape that is refused sets only the error flag; one that is not takes its target and its volumes and asks for
its activity.  A cancelled one leaves no volume, no shadow and no draining module; with none under way the cancel sets only
the error flag.  A running reshape in its first step switches the first volume when nothing of it lies outside the target,
passes over a volume of the peer once the peer has switched it, ends when no volume and no draining module is left, and goes
to its drain step when a module is draining. -/
def Obligations.RebuildAndPatrolRun : Prop :=
  (∀ (s : State) (a : Activity),
    alive s = true → s.pwr.flushActive = false → s.ecp.waiting = [a] → s.ecp.paused = [] → s.ecp.running = [] →
    admitsHere s a = true →
    ∃ t, exec .maintAdmit s = .next t ∧ t.ecp.running = [a] ∧ t.ecp.waiting = [] ∧ t.ecp.paused = []) ∧
  (∀ (s : State) (a b : Activity),
    alive s = true → s.ecp.waiting = [a] → s.ecp.paused = [] → s.ecp.running = [b] → a ≠ b → compatible a b = false →
    a ≠ .rebuild → a ≠ .resync →
    ∃ t, exec .maintAdmit s = .next t ∧ t.ecp.running = [b] ∧ t.ecp.waiting = [a] ∧ t.ecp.paused = []) ∧
  (∀ (s : State) (a b : Activity),
    alive s = true → s.pwr.flushActive = false → s.ecp.waiting = [a] → s.ecp.paused = [] → s.ecp.running = [b] → a ≠ b →
    compatible a b = false → a = .rebuild ∨ a = .resync → admitsHere s a = true →
    ∃ t, exec .maintAdmit s = .next t ∧ t.ecp.running = [a] ∧ t.ecp.waiting = [] ∧ t.ecp.paused = [b]) ∧
  (∀ (s : State) (k : BitVec 64 × Nat),
    alive s = true → .rebuild ∈ s.ecp.running → s.ecp.rebuildOn = true → (orderTargets s).ecp.rebuildTargets.find? (fun x =>
      (stripeOf (orderTargets s) x.1).any (rebuildsHere (orderTargets s))) = some k →
    exec .rebuild s = .next (modStripe k.1 (fun x => { x with rebuildRunning := true }) (orderTargets s))) ∧
  (∀ (s : State),
    alive s = true → .rebuild ∈ s.ecp.running → s.ecp.rebuildOn = false → (orderTargets s).ecp.rebuildTargets ≠ [] →
    ∃ t, exec .rebuild s = .next t ∧ t.ecp.rebuildOn = true ∧ t.ecp.rebuildTargets = (orderTargets s).ecp.rebuildTargets ∧
      t.ecp.rebuildLeft = t.ecp.rebuildTargets.length) ∧
  (∀ (s : State),
    alive s = true → .rebuild ∈ s.ecp.running → s.ecp.rebuildOn = true → (orderTargets s).ecp.rebuildTargets = [] →
    ∃ t, exec .rebuild s = .next t ∧ t.ecp.rebuildOn = false ∧ .rebuild ∉ t.ecp.running ∧ t.ecp.rebuildLeft = 0) ∧
  (∀ (s : State) (serial : BitVec 64) (pos : Nat) (reads : List (Option StripRead)) (x : Stripe),
    alive s = true → .rebuild ∈ s.ecp.running → stripeOf s serial = some x → rebuildsHere s x = true →
    rebuildTurn s x pos = true → x.st = .freed →
    ∃ t, exec (.stripeRebuilt serial pos reads) s = .next t ∧ (∀ k ∈ t.ecp.rebuildTargets, k.1 ≠ serial) ∧
      (stripeOf t serial).map (·.rebuildRunning) = some false ∧ t.red = s.red) ∧
  (∀ (s : State) (serial : BitVec 64) (pos : Nat) (reads : List (Option StripRead)) (x : Stripe) (u : State),
    alive s = true → .rebuild ∈ s.ecp.running → stripeOf s serial = some x → rebuildsHere s x = true →
    rebuildTurn s x pos = true → x.st ≠ .freed → x.unreadable.length ≤ x.m → ((x.entries.filter fun e => decide (e.kind = 0)
      && !(objectBytes x (regionOfStrip x reads) e).2).foldl (fun s e => if (objectBytes x (trustedRegions s x reads e) e).2
      then loseObject x (trustedRegions s x reads e) e 1 s else s) (loseMissing x (regionOfStrip x reads) 1 s)) = u →
    exec (.stripeRebuilt serial pos reads) s = .next (endRebuild (checkSpare (settleRetiring (noteMapChange (moveStrip
        (.maint .rebuild) serial pos (some ((List.range 256).flatMap fun r => (regionOfStrip x reads pos r).getD
        (List.replicate 4096 0))) (modStripe serial (fun x => { x with rebuildRunning := false }) (dropTargets (fun k =>
        decide (k.1 = serial) && decide (k.2 = pos)) (modStripe serial (fun y => { y with entries := entriesAnew u y pos })
        u))))))))) ∧
  (∀ (s : State) (serial : BitVec 64) (pos : Nat) (reads : List (Option StripRead)) (x : Stripe),
    alive s = true → .rebuild ∈ s.ecp.running → stripeOf s serial = some x → rebuildsHere s x = true →
    rebuildTurn s x pos = true → x.st ≠ .freed → x.m < x.unreadable.length →
    ∃ t, exec (.stripeRebuilt serial pos reads) s = .next t ∧ (∀ k ∈ t.ecp.rebuildTargets, k.1 ≠ serial) ∧
      (stripeOf t serial).map (·.rebuildRunning) = some false) ∧
  (∀ (s : State), alive s = true → s.ecp.resyncPending = true → s.ecp.resyncQueue = [] →
    ∃ t, exec .resync s = .next t ∧ t.ecp.resyncPending = false ∧ t.ecp.resyncOn = false ∧ .resync ∉ t.ecp.running) ∧
  (∀ (s : State), alive s = true → s.ecp.resyncPending = true → s.ecp.resyncQueue ≠ [] → .resync ∈ s.ecp.running →
    ∃ t, exec .resync s = .next t ∧ t.ecp.resyncOn = true ∧ t.ecp.resyncQueue = s.ecp.resyncQueue ∧
      t.ecp.resyncPending = true) ∧
  (∀ (s : State) (reads : List (Option StripRead)) (serial : BitVec 64) (r : List (BitVec 64)) (x : Stripe),
    alive s = true → .resync ∈ s.ecp.running → s.ecp.resyncQueue = serial :: r → stripeOf s serial = some x →
    x.st = .complete →
    exec (.stripeResync reads) s = .next (checkStripe .resync x reads 2 (modStripe serial (fun x =>
        { x with resynced := true }) { s with ecp.resyncQueue := r }))) ∧
  (∀ (s : State) (reads : List (Option StripRead)) (serial : BitVec 64) (r : List (BitVec 64)) (x : Stripe),
    alive s = true → .resync ∈ s.ecp.running → s.ecp.resyncQueue = serial :: r → stripeOf s serial = some x →
    x.st ≠ .complete →
    ∃ t, exec (.stripeResync reads) s = .next t ∧ t.ecp.resyncQueue = r ∧
      stripeOf t serial = some { x with resynced := true } ∧ t.out = s.out) ∧
  (∀ (s : State), hostWriteOk s 0x0C = true → s.ecp.patrolDays ≠ 0 → s.ecp.patrolOn = false →
    ∃ t, exec .patrolNow s = .next t ∧ t.ecp.patrolOn = true ∧ t.ecp.patrolStart = some (now s) ∧ t.ecp.patrolDay = 0 ∧
      (∀ x ∈ t.ecp.stripes, x.patrolled = false) ∧ .patrol ∈ t.ecp.running ++ t.ecp.waiting ++ t.ecp.paused) ∧
  (∀ (s : State), s.ecp.patrolDays = 0 ∨ s.ecp.patrolOn = true → exec .patrolNow s = .next (s)) ∧
  (∀ (s : State) (check : Option (BitVec 64 × List (Option StripRead))),
    alive s = true → s.ecp.patrolOn = false → 0 < s.ecp.patrolDays →
    s.ecp.patrolStart = none ∨ (∃ o, s.ecp.patrolStart = some o ∧ o + s.ecp.patrolDays * patrolDayNs ≤ now s) →
    ∃ t, exec (.patrol check) s = .next t ∧ t.ecp.patrolOn = true ∧ t.ecp.patrolStart = some (now s) ∧
      .patrol ∈ t.ecp.running ++ t.ecp.waiting ++ t.ecp.paused) ∧
  (∀ (s : State), alive s = true → s.ecp.patrolOn = true → (∀ x ∈ s.ecp.stripes, x.st = .complete → x.patrolled = true) →
    ∃ t, exec (.patrol none) s = .next t ∧ t.ecp.patrolOn = false ∧ .patrol ∉ t.ecp.running ∧ t.ecp.stripes = s.ecp.stripes) ∧
  (∀ (s : State),
    hostWriteOk s 0x0C = true → reshapeRefused s (affectedVolumes s s.ecp.volFirst s.ecp.volLast) ((memberSlots s).filter
      fun n => !(drainSlots s).contains n) = true →
    exec .reshapeStart s = .next ({ s with ecp.cmdErr := true })) ∧
  (∀ (s : State),
    hostWriteOk s 0x0C = true → reshapeRefused s (affectedVolumes s s.ecp.volFirst s.ecp.volLast) ((memberSlots s).filter
      fun n => !(drainSlots s).contains n) = false →
    ∃ t, exec .reshapeStart s = .next t ∧ t.ecp.reshape = 1 ∧ t.ecp.targetK = s.ecp.cfgK ∧ t.ecp.targetM = s.ecp.cfgM ∧
      t.ecp.reshapeVols = affectedVolumes s s.ecp.volFirst s.ecp.volLast ∧ t.ecp.shadow = [] ∧ t.ecp.cmdErr = s.ecp.cmdErr ∧
      .reshape ∈ t.ecp.running ++ t.ecp.waiting ++ t.ecp.paused) ∧
  (∀ (s : State), hostWriteOk s 0x0C = true → s.ecp.reshape ≠ 0 →
    ∃ t, exec .reshapeCancel s = .next t ∧ t.ecp.reshape = 0 ∧ t.ecp.reshapeVols = [] ∧ t.ecp.shadow = [] ∧
      (∀ n ∈ List.range 48, (slotOf t n).st ≠ .draining) ∧ .reshape ∉ t.ecp.running) ∧
  (∀ (s : State), hostWriteOk s 0x0C = true → s.ecp.reshape = 0 →
    exec .reshapeCancel s = .next ({ s with ecp.cmdErr := true })) ∧
  (∀ (s : State) (media : List StoredRead) (v : Nat) (r : List Nat) (x : Volume),
    alive s = true → .reshape ∈ s.ecp.running → s.ecp.reshape = 1 → s.ecp.reshapeVols = v :: r → v ∉ r → owns s v = true →
    outsideTarget s v = [] → s.ecp.shadow = [] → volOf s v = some x →
    ∃ t, exec (.reshape media) s = .next t ∧ t.ecp.reshapeVols = r ∧
      (volOf t v).map (fun y => (y.k, y.m)) = some (targetGeom s x) ∧ t.mmg.wpRequest = true) ∧
  (∀ (s : State) (media : List StoredRead) (v : Nat) (r : List Nat),
    alive s = true → .reshape ∈ s.ecp.running → s.ecp.reshape = 1 → s.ecp.reshapeVols = v :: r → owns s v = false →
    exec (.reshape media) s = .next (if peerReshaped s v = true then
        { s with ecp.reshapeVols := r, ecp.reshapeVolume := r.headD 0 } else s)) ∧
  (∀ (s : State) (media : List StoredRead),
    alive s = true → .reshape ∈ s.ecp.running → s.ecp.reshape = 1 → s.ecp.reshapeVols = [] →
    (∀ n ∈ List.range 48, (slotOf s n).st ≠ .draining) →
    ∃ t, exec (.reshape media) s = .next t ∧ t.ecp.reshape = 0 ∧ .reshape ∉ t.ecp.running) ∧
  (∀ (s : State) (media : List StoredRead) (n : Nat),
    alive s = true → .reshape ∈ s.ecp.running → s.ecp.reshape = 1 → s.ecp.reshapeVols = [] → n < 48 →
    (slotOf s n).st = .draining →
    exec (.reshape media) s = .next ({ s with ecp.reshape := 2 }))

/-- The clauses, in their order, on a head that is not held in reset or is alive.  Lanes that fit and lock in their order
bring the link up: from no link with the sequences at their starts and an IDENT message sent; from a RETRAIN with the sequence
and the peer kept and what was not acknowledged replayed; a lane out of order is recorded.  A flit that passes its checks is
taken, and one that does not is counted and answered as a discarded one.  A message flit in order raises the receive sequence,
ends the NAK and gives its bytes to its traffic class; one out of order is answered by one NAK of the last flit taken; any
other flit with an acknowledgement has it taken.  A missing SYNC is counted, and the third starts a RETRAIN in which a peer
that was UP is SUSPECT.  A NAK has its acknowledgement taken and the rest replayed, as has 3 us without progress, with nothing
waiting to be sent and fewer than four tries of the oldest; the link retrains after that.  A RETRAIN of 30 ms takes the link
down, and a peer that was UP or SUSPECT is LOST with cause 2.  A heartbeat is sent 50 us after the last.  A heartbeat with a
higher number is kept; one in FAILSTOP makes the peer LOST, and one of a head that was identified, in no conflict, on an
active link and outside a takeover, makes it UP; one that applied a sent handover ends it; one with a number not higher
changes nothing.  Two milliseconds without a heartbeat or a RETRAIN make a peer that was UP SUSPECT, HB_LOSS makes it LOST
with cause 1, and a last gasp LOST with cause 3.  IDENT with this head's own number raises the conflict flag; another is kept,
and without an array key, with the same owner and no exchange under way starts the key exchange.  NOP changes nothing.  FLUSH
progress releases what the peer committed.  A map delta next in order is applied, the first one sets the number, one after a
gap is kept, and an old one changes nothing; a gap of 10 ms starts a RETRAIN. -/
def Obligations.CrossheadLinkWorks : Prop :=
  (∀ (s : State) (lanes : List (Nat × Bool)),
    s.glb.held = false → s.xhl.link ≠ 2 → s.xhl.link ≠ 3 → xhlLanesFit s = true → lanesLock s 2 0 8 lanes = true →
    wrongLane s 2 0 8 lanes = none →
    ∃ t, exec (.xhlLinkUp lanes) s = .next t ∧ t.xhl.link = 2 ∧ t.xhl.seqRx = 0 ∧ t.xhl.identSeen = false ∧
      t.xhl.peerHb = 0 ∧ t.xhl.dseqRx = 0 ∧ t.xhl.deltas = [] ∧ t.xhl.pairEph = none ∧
      (∃ m, .xhl 0x0007 false false m [b2n s.glb.headSel, Config.serial.toNat, s.upd.runVer.toNat] [] ∈ t.out)) ∧
  (∀ (s : State) (lanes : List (Nat × Bool)),
    s.glb.held = false → s.xhl.link = 3 → xhlLanesFit s = true → lanesLock s 2 0 8 lanes = true →
    wrongLane s 2 0 8 lanes = none →
    ∃ t, exec (.xhlLinkUp lanes) s = .next t ∧ t.xhl.link = 2 ∧ t.xhl.seqRx = s.xhl.seqRx ∧ t.xhl.peer = s.xhl.peer ∧
      (s.xhl.unacked ≠ [] → .xhlReplay (s.xhl.unacked.map (·.1)) ∈ t.out)) ∧
  (∀ (s : State) (lanes : List (Nat × Bool)) (l : Nat),
    s.glb.held = false → s.xhl.link ≠ 2 → xhlLanesFit s = true → lanesLock s 2 0 8 lanes = true →
    wrongLane s 2 0 8 lanes = some l →
    exec (.xhlLinkUp lanes) s = .next (laneMismatch xhlSrc 0 (rxLane s 2 0 l) s)) ∧
  (∀ (s : State) (f : List (BitVec 8)), s.glb.held = false → s.xhl.link = 2 → xhlFlitOk f = true →
    exec (.xhlFlitReceive (.flit f)) s = .next (xhlTake f s)) ∧
  (∀ (s : State) (f : List (BitVec 8)),
    s.glb.held = false → s.xhl.link = 2 → xhlFlitOk f = true → xhlType f = 1 → xhlTc f < 5 → xhlTc f < s.xhl.tcs.length →
    xhlSeq f = s.xhl.seqRx → xhlAckOf f = none →
    ∃ t, exec (.xhlFlitReceive (.flit f)) s = .next t ∧ t.xhl.seqRx = (s.xhl.seqRx + 1) % 4096 ∧ t.xhl.nakSent = false ∧
        (xhlEom f = true → (t.xhl.tcs.getD (xhlTc f) TcState.reset).applied = leAt (if xhlSom f = true then xhlData f else
        (s.xhl.tcs.getD (xhlTc f) TcState.reset).partial_ ++ xhlData f) 8 8) ∧ (xhlEom f = false → (t.xhl.tcs.getD (xhlTc f)
        TcState.reset).partial_ = (if xhlSom f = true then xhlData f else (s.xhl.tcs.getD (xhlTc f) TcState.reset).partial_
        ++ xhlData f))) ∧
  (∀ (s : State) (f : List (BitVec 8)),
    s.glb.held = false → s.xhl.link = 2 → xhlFlitOk f = true → xhlType f = 1 → xhlSeq f ≠ s.xhl.seqRx → xhlAckOf f = none →
    s.xhl.nakSent = false →
    exec (.xhlFlitReceive (.flit f)) s = .next (emit (.xhlFlit (xhlFlit 15 2 0 (some ((s.xhl.seqRx + 4095) % 4096)) false
        false [])) { s with xhl.nakSent := true })) ∧
  (∀ (s : State) (f : List (BitVec 8)) (a : Nat),
    s.glb.held = false → s.xhl.link = 2 → xhlFlitOk f = true → xhlType f ≠ 1 → xhlAckOf f = some a →
    exec (.xhlFlitReceive (.flit f)) s = .next (xhlAck a s)) ∧
  (∀ (s : State) (f : List (BitVec 8)), s.glb.held = false → s.xhl.link = 2 → xhlFlitOk f = false →
    exec (.xhlFlitReceive (.flit f)) s = .next (xhlDiscard { s with xhl.crcErrs := satAdd 65535 s.xhl.crcErrs 1 })) ∧
  (∀ (s : State) (f : List (BitVec 8)), s.glb.held = false → s.xhl.link = 2 → xhlSyncSeen f = false → s.xhl.syncMiss < 2 →
    exec (.xhlFlitReceive (.sync f)) s = .next ({ s with xhl.syncMiss := s.xhl.syncMiss + 1 })) ∧
  (∀ (s : State) (f : List (BitVec 8)), s.glb.held = false → s.xhl.link = 2 → xhlSyncSeen f = false → s.xhl.syncMiss = 2 →
    ∃ t, exec (.xhlFlitReceive (.sync f)) s = .next t ∧ t.xhl.link = 3 ∧ t.xhl.syncMiss = 0 ∧
      t.xhl.retrains = satAdd 255 s.xhl.retrains 1 ∧ (s.xhl.peer = .up → t.xhl.peer = .suspect)) ∧
  (∀ (s : State) (ack : Nat), s.glb.held = false → s.xhl.link = 2 →
    exec (.xhlNak ack) s = .next (xhlReplayAll (xhlAck ack s))) ∧
  (∀ (s : State) (ack f n : Nat) (r : List (Nat × Nat)),
    s.glb.held = false → s.xhl.link = 2 → (∀ c ∈ s.xhl.tcs, c.queue = []) → ackFlits ack s.xhl.unacked = (f, n) :: r →
    n < 4 →
    ∃ t, exec (.xhlNak ack) s = .next t ∧ .xhlReplay (f :: r.map (·.1)) ∈ t.out ∧
      (t.xhl.unacked = ((f, n) :: r).map fun x => (x.1, x.2 + 1)) ∧ t.xhl.replays = satAdd 255 s.xhl.replays 1 ∧
      t.xhl.link = 2) ∧
  (∀ (s : State) (f n : Nat) (r : List (Nat × Nat)),
    s.glb.held = false → s.xhl.link = 2 → s.xhl.progressAt + 3000 ≤ now s → s.xhl.unacked = (f, n) :: r →
    ∃ t, exec .xhlReplayTimeout s = .next t ∧
      (n < 4 → .xhlReplay (f :: r.map (·.1)) ∈ t.out ∧ t.xhl.replays = satAdd 255 s.xhl.replays 1 ∧ t.xhl.link = 2) ∧
      (4 ≤ n → t.xhl.link = 3 ∧ t.xhl.retrains = satAdd 255 s.xhl.retrains 1)) ∧
  (∀ (s : State), s.glb.held = false → s.xhl.link = 3 → s.xhl.retrainAt + 30000000 ≤ now s →
    ∃ t, exec .xhlLinkDown s = .next t ∧ t.xhl.link = 0 ∧ t.xhl.identSeen = false ∧
      (alive s = true → s.xhl.peer = .up ∨ s.xhl.peer = .suspect → t.xhl.peer = .lost ∧ t.xhl.lostCause = 2)) ∧
  (∀ (s : State), s.glb.held = false → s.flt.wholeChip = false → s.xhl.hbSent + 50000 ≤ now s → s.xhl.handover = none →
    exec .heartbeatSend s = .next (xhlSend 0x0001 false false ([b2n s.glb.headSel, modeCode s.glb.mode, (glbReadyWord
        s).toNat, s.xhl.hbCount + 1] ++ s.xhl.tcs.map (·.applied) ++ [(activePorts s).length, s.xhl.fenceHeld.toNat]) []
        { s with xhl.hbCount := s.xhl.hbCount + 1, xhl.hbSent := now s })) ∧
  (∀ (s : State) (b : Beat), alive s = true → s.xhl.peerHb < b.count → s.xhl.handover = none →
    ∃ t, exec (.heartbeat b) s = .next t ∧ t.xhl.peerHb = b.count ∧ t.xhl.hbTime = now s ∧ t.xhl.peerHead = b.head ∧
      t.xhl.peerMode = b.mode ∧ t.xhl.peerReady = b.ready ∧ (b.mode = 3 → t.xhl.peer = .lost) ∧ (s.xhl.identSeen = true →
        s.glb.headConflict = false → s.xhl.link = 2 → s.xhl.takeover = false → b.mode ≤ 2 → t.xhl.peer = .up)) ∧
  (∀ (s : State) (b : Beat) (h : Handover),
    alive s = true → s.xhl.peerHb < b.count → s.xhl.peer = .up → s.xhl.peerMode = 1 → b.mode = 1 → s.xhl.handover = some h →
    h.sent = true → h.mseq ≤ b.applied.getD 2 0 → h.maint = false →
    ∃ t, exec (.heartbeat b) s = .next t ∧ t.xhl.handover = none ∧
      (t.xhl.owned = s.xhl.owned.filter fun v => !h.vols.contains v) ∧
      (t.xhl.moving = s.xhl.moving.filter fun v => !h.vols.contains v)) ∧
  (∀ (s : State) (b : Beat), alive s = true → b.count ≤ s.xhl.peerHb → exec (.heartbeat b) s = .next (s)) ∧
  (∀ (s : State), alive s = true → s.xhl.peer = .up → s.xhl.hbTime + 2000000 ≤ now s ∨ s.xhl.link = 3 →
    ∃ t, exec .peerSuspect s = .next t ∧ t.xhl.peer = .suspect ∧
      (s.wlg.mirror = 1 → awaitsPeer s = true → t.wlg.mirror = 2) ∧ t.xhl.link = s.xhl.link) ∧
  (∀ (s : State),
    alive s = true → s.xhl.peer = .up ∨ s.xhl.peer = .suspect → s.xhl.hbTime + 1000000 * s.xhl.hbLossMs ≤ now s →
    ∃ t, exec .peerLost s = .next t ∧ t.xhl.peer = .lost ∧ t.xhl.lostCause = 1 ∧ t.xhl.handover = none ∧
      (s.wlg.mirror = 1 → awaitsPeer s = true → t.wlg.mirror = 2) ∧
      (∀ h ∈ s.xhl.handover, t.xhl.moving = s.xhl.moving.filter fun v => !h.vols.contains v)) ∧
  (∀ (s : State), alive s = true → s.xhl.peer ≠ .lost →
    ∃ t, exec .lastGasp s = .next t ∧ t.xhl.peer = .lost ∧ t.xhl.lostCause = 3) ∧
  (∀ (s : State) (serial : BitVec 64) (fw : BitVec 32) (sameOwner : Bool),
    s.glb.held = false → s.xhl.link = 2 → s.glb.headConflict = false →
    ∃ t, exec (.ident s.glb.headSel serial fw sameOwner) s = .next t ∧ t.glb.headConflict = true ∧ t.xhl.identSeen = true ∧
      t.xhl.peerSerial = serial ∧ t.glb.mode = s.glb.mode) ∧
  (∀ (s : State) (head : Bool) (serial : BitVec 64) (fw : BitVec 32) (sameOwner : Bool),
    s.glb.held = false → s.xhl.link = 2 → head ≠ s.glb.headSel → s.sec.arrayKey ≠ none ∨ sameOwner = false →
    exec (.ident head serial fw sameOwner) s = .next
        ({ s with xhl.identSeen := true, xhl.peerHead := head, xhl.peerSerial := serial, xhl.peerFw := fw })) ∧
  (∀ (s : State) (head : Bool) (serial : BitVec 64) (fw : BitVec 32) (u : State),
    s.glb.held = false → s.xhl.link = 2 → head ≠ s.glb.headSel → s.sec.arrayKey = none → s.xhl.pairEph = none →
    u = { s with xhl.identSeen := true, xhl.peerHead := head, xhl.peerSerial := serial, xhl.peerFw := fw } →
    exec (.ident head serial fw true) s = .next (sendPairKey (pairValue u).1 none (pairValue u).2)) ∧
  (∀ (s : State) (tc : Nat), exec (.nop tc) s = .next (s)) ∧
  (∀ (s : State) (committed : Bool) (lsn : Nat), alive s = true →
    exec (.flushMessage committed lsn) s = .next (releaseCommitted lsn { s with xhl.peerFlush := committed })) ∧
  (∀ (s : State) (dseq time : Nat) (recs : List DeltaRec),
    alive s = true → s.xhl.deltas = [] → s.xhl.dseqRx ≠ 0 → dseq = s.xhl.dseqRx + 1 →
    exec (.mapDelta dseq time recs) s = .next (applyMessage { dseq := dseq, time := time, arrived := now s, recs := recs }
        s)) ∧
  (∀ (s : State) (dseq time : Nat) (recs : List DeltaRec), alive s = true → s.xhl.dseqRx = 0 →
    ∃ t, exec (.mapDelta dseq time recs) s = .next t ∧ t.xhl.dseqRx = dseq ∧
      t.xhl.deltaLag = min (2 ^ 32 - 1) (now s - time) ∧ t.xhl.deltas = s.xhl.deltas) ∧
  (∀ (s : State) (dseq time : Nat) (recs : List DeltaRec),
    alive s = true → s.xhl.deltas = [] → s.xhl.dseqRx ≠ 0 → s.xhl.dseqRx + 1 < dseq →
    exec (.mapDelta dseq time recs) s = .next
        ({ s with xhl.deltas := [{ dseq := dseq, time := time, arrived := now s, recs := recs }] })) ∧
  (∀ (s : State) (dseq time : Nat) (recs : List DeltaRec), alive s = true → s.xhl.dseqRx ≠ 0 → dseq ≤ s.xhl.dseqRx →
    exec (.mapDelta dseq time recs) s = .next (s)) ∧
  (∀ (s : State), alive s = true → (∃ d ∈ s.xhl.deltas, d.arrived + 10000000 ≤ now s) → s.xhl.link = 2 →
    ∃ t, exec .deltaGap s = .next t ∧ t.xhl.link = 3 ∧ t.xhl.retrains = satAdd 255 s.xhl.retrains 1 ∧
      t.xhl.deltas = s.xhl.deltas)

/-- The clauses, in their order, on a head that is alive or, for XHL_CMD, may take the write.  HANDOVER outside a conflict
raises the LSN and adds its volumes to this head's.  A rebalance request starts the handover of every volume whose home is the
peer when volumes may move, and is recorded when they may not.  A forwarded command not known here is bound, joins the
commands and runs in PS0 with no wait for random numbers, and is kept otherwise; one that is kept runs when given again in
PS0; an abort of its generation takes it out, and of another is recorded as stale.  Forwarded data and a forwarded completion
with the tag's generation are delivered and end the command, and are stale items otherwise.  A fencing round is sent again one
second after the last in a takeover, ten seconds after the last in a start, and when the split delay is over.  A takeover of a
lost peer's volumes marks them as moving and opens a round or waits for the split delay.  A round of 150 ms is decided: in a
start a quorum makes the pair and the log ready; outside one a quorum protects the log, a head that is fenced out enters
FAILSTOP, and without either every volume moves and no write is held.  A takeover with a quorum outside a flush ends with
every volume owned by this head and a waypoint taken or asked for.  The last bulk message with the map loaded makes the log
ready and mirrored; an earlier one is taken.  A key message of an unexpected serial is refused; with the array key held, a
verified one pins a new identity and sets PAIR_KEY_OK; with a wrapped key received and none held, the key is taken when it
unwraps and the message verifies.  ENTER_MAINT for this head starts the handover of all its volumes, or is refused. 
EXIT_MAINT leaves MAINTENANCE and is refused outside it.  REBALANCE and GIVE start their handovers or are refused.  UNPIN with
the confirmation and every volume owned clears the pin, and is refused when not every volume is owned. -/
def Obligations.PairOfHeadsActs : Prop :=
  (∀ (s : State) (vols : List Nat) (lsn v : Nat), alive s = true → s.glb.headConflict = false → v < 65536 →
    ∃ t, exec (.handover vols lsn) s = .next t ∧ t.wlg.lsn = max s.wlg.lsn lsn ∧
      (v ∈ t.xhl.owned ↔ v ∈ vols ∨ v ∈ s.xhl.owned) ∧ t.glb.ownAll = decide (t.xhl.owned.length = 65536)) ∧
  (∀ (s : State), mayMove s = true → exec .rebalanceReq s = .next (startHandover (awayVols s) false s)) ∧
  (∀ (s : State), mayMove s = true → awayVols s ≠ [] →
    ∃ t, exec .rebalanceReq s = .next t ∧
      (∀ h ∈ t.xhl.handover, h.vols = s.xhl.owned.filter fun v => v % 2 ≠ b2n s.glb.headSel) ∧ t.xhl.handover ≠ none ∧
      t.xhl.moving = joinVols s.xhl.moving (awayVols s) ∧ t.xhl.owned = s.xhl.owned) ∧
  (∀ (s : State), alive s = true → mayMove s = false →
    exec .rebalanceReq s = .next (record 0x0D09 xhlSrc [(takeFree s).1.toNat] (takeFree s).2)) ∧
  (∀ (s : State) (q : QueueId) (tag gen : Nat) (words : List (BitVec 32)) (tenant : Option Nat) (media : List StoredRead) (c :
    Cmd) (u : State),
    alive s = true → remoteCmd s q tag = none → bindCmd s
      { Cmd.reset with q := q, tag := tag, gen := gen, words := words, seq := s.dcq.seq, remote := true, bind := bindGen s }
      = c → busy { s with dcq.cmds := s.dcq.cmds ++ [c], dcq.seq := s.dcq.seq + 1 } = u →
    exec (.fwdCmd q tag gen words tenant false media) s = .next (if inPs0 u = true ∧ drbgWaits u c = false then ownerRun c
        tenant media u else u)) ∧
  (∀ (s : State) (q : QueueId) (tag gen : Nat) (words : List (BitVec 32)) (tenant : Option Nat) (media : List StoredRead) (c :
    Cmd),
    alive s = true → remoteCmd s q tag = some c →
    exec (.fwdCmd q tag gen words tenant false media) s = .next (if c.st = .started ∧ c.gen = gen ∧ inPs0 s = true then
        ownerRun c tenant media s else s)) ∧
  (∀ (s : State) (q : QueueId) (tag gen : Nat) (words : List (BitVec 32)) (tenant : Option Nat) (media : List StoredRead) (c :
    Cmd),
    alive s = true → remoteCmd s q tag = some c → c.gen = gen →
    exec (.fwdCmd q tag gen words tenant true media) s = .next (settleRetains (dropWrite c (leaveDigest c
        { s with dcq.cmds := s.dcq.cmds.filter fun x => !(decide (x.q = q) && decide (x.tag = tag) && x.remote) })))) ∧
  (∀ (s : State) (q : QueueId) (tag gen : Nat) (words : List (BitVec 32)) (tenant : Option Nat) (media : List StoredRead) (c :
    Cmd),
    alive s = true → remoteCmd s q tag = some c → c.gen ≠ gen →
    exec (.fwdCmd q tag gen words tenant true media) s = .next (staleRemote q tag gen s)) ∧
  (∀ (s : State) (q : QueueId) (tag gen kind n : Nat) (data : List (BitVec 8)) (c : Cmd),
    alive s = true → cmdOf s q tag = some c → tagMatches s q tag gen = true →
    exec (.fwdData q tag gen kind n data) s = .next (deliver c (outAddr c kind n) data s)) ∧
  (∀ (s : State) (q : QueueId) (tag gen kind n : Nat) (data : List (BitVec 8)),
    alive s = true → cmdOf s q tag = none ∨ tagMatches s q tag gen = false →
    exec (.fwdData q tag gen kind n data) s = .next (staleItem q tag gen s)) ∧
  (∀ (s : State) (q : QueueId) (tag gen status : Nat) (r0 : BitVec 32) (r1 : BitVec 64),
    alive s = true → (cmdOf s q tag).isSome = true → tagMatches s q tag gen = true →
    exec (.fwdCpl q tag gen status r0 r1) s = .next (finishWith q tag status r0 r1 true false (dropFilling q tag s))) ∧
  (∀ (s : State) (q : QueueId) (tag gen status : Nat) (r0 : BitVec 32) (r1 : BitVec 64),
    alive s = true → tagMatches s q tag gen = false →
    exec (.fwdCpl q tag gen status r0 r1) s = .next (staleItem q tag gen s)) ∧
  (∀ (s : State),
    alive s = true → s.xhl.takeover = true → s.xhl.quorum = false → s.xhl.roundOpen = false → s.xhl.peer = .lost →
    s.xhl.roundAt + 1000000000 ≤ now s →
    ∃ t, exec .fenceRetry s = .next t ∧ t.xhl.roundOpen = true ∧ t.xhl.epoch = fenceEpoch s ∧ t.xhl.takeover = true) ∧
  (∀ (s : State),
    alive s = true → s.glb.mode = .starting → s.glb.cal = true → s.glb.xhl = false → s.xhl.roundOpen = false →
    s.glb.headConflict = false → s.xhl.peer ≠ .up → max s.glb.startAt s.xhl.roundAt + 10000000000 ≤ now s →
    ∃ t, exec .startFenceRetry s = .next t ∧ t.xhl.roundOpen = true ∧ t.xhl.epoch = fenceEpoch s ∧ t.glb.mode = .starting) ∧
  (∀ (s : State), alive s = true → s.xhl.splitWait = true → s.xhl.lostAt + 1000000 * s.xhl.splitDelayMs ≤ now s →
    ∃ t, exec .splitDelayExpiry s = .next t ∧ t.xhl.roundOpen = true ∧ t.xhl.splitWait = false ∧ t.xhl.epoch = fenceEpoch s) ∧
  (∀ (s : State) (v : Nat),
    alive s = true → s.xhl.peer = .lost → s.xhl.takeover = false → s.glb.mode ≠ .starting → v < 65536 →
    ∃ t, exec .takeover s = .next t ∧ t.xhl.takeover = true ∧ t.xhl.quorum = false ∧ (v ∈ t.xhl.moving ↔ owns s v = false) ∧
      (splitDelayed s = true → t.xhl.splitWait = true ∧ t.xhl.roundOpen = s.xhl.roundOpen) ∧
      (splitDelayed s = false → t.xhl.roundOpen = true ∧ t.xhl.splitWait = false)) ∧
  (∀ (s : State), alive s = true → s.xhl.roundOpen = true → s.xhl.roundAt + 150000000 ≤ now s → s.glb.mode = .starting →
    ∃ t, exec .fenceResult s = .next t ∧ t.xhl.roundOpen = false ∧ t.xhl.quorum = hasQuorum s ∧ t.glb.mode = .starting ∧
      t.glb.xhl = (s.glb.xhl || hasQuorum s) ∧ t.glb.log = (s.glb.log || hasQuorum s) ∧
      (hasQuorum s = true → t.wlg.mirror = 3)) ∧
  (∀ (s : State),
    alive s = true → s.xhl.roundOpen = true → s.xhl.roundAt + 150000000 ≤ now s → s.glb.mode ≠ .starting →
    hasQuorum s = true →
    ∃ t, exec .fenceResult s = .next t ∧ t.xhl.quorum = true ∧ t.xhl.roundOpen = false ∧ t.wlg.mirror = 3 ∧
      t.glb.mode = s.glb.mode) ∧
  (∀ (s : State),
    alive s = true → s.xhl.roundOpen = true → s.xhl.roundAt + 150000000 ≤ now s → s.glb.mode ≠ .starting →
    hasQuorum s = false → isFencedOut s = true →
    ∃ t, exec .fenceResult s = .next t ∧ t.glb.mode = .failstop ∧ t.xhl.quorum = false) ∧
  (∀ (s : State),
    alive s = true → s.xhl.roundOpen = true → s.xhl.roundAt + 150000000 ≤ now s → s.glb.mode ≠ .starting →
    hasQuorum s = false → isFencedOut s = false →
    ∃ t, exec .fenceResult s = .next t ∧ t.xhl.moving = allVolumes ∧ t.xhl.handover = none ∧ t.wlg.holds = [] ∧
      t.wlg.reserved = [] ∧ t.glb.mode = s.glb.mode) ∧
  (∀ (s : State) (trailers : List TrailerEntry) (v : Nat),
    alive s = true → s.xhl.takeover = true → s.xhl.quorum = true → s.pwr.flushActive = false → v < 65536 →
    ∃ t, exec (.takeoverEnd trailers) s = .next t ∧ t.xhl.takeover = false ∧ t.xhl.moving = [] ∧
      t.xhl.takeovers = satAdd (2 ^ 32 - 1) s.xhl.takeovers 1 ∧ v ∈ t.xhl.owned ∧ t.glb.ownAll = true ∧
      (t.mmg.wpRequest = true ∨ t.mmg.wp ≠ none)) ∧
  (∀ (s : State) (m : BulkMsg), alive s = true → m.final = true → m.table = none → m.recs = [] → s.glb.map = true →
    ∃ t, exec (.bulk m) s = .next t ∧ t.glb.log = true ∧ t.wlg.mirror = 1 ∧ t.xhl.dseqRx = max s.xhl.dseqRx m.dseq ∧
      (∀ f ∈ m.frames, ∃ g ∈ t.wlg.frames, g.lsn = f.lsn ∧ g.index = f.index ∧ g.owner = f.owner)) ∧
  (∀ (s : State) (m : BulkMsg), alive s = true → m.final = false → exec (.bulk m) s = .next (rebudget (bulkTake m s))) ∧
  (∀ (s : State) (m : PairMsg),
    alive s = true → s.xhl.identSeen = true → s.glb.headConflict = false → s.img.board.peerSerial ≠ 0 →
    m.serial ≠ s.img.board.peerSerial →
    exec (.pairKey m) s = .next (pairRefused s)) ∧
  (∀ (s : State) (m : PairMsg) (k : List (BitVec 8)),
    alive s = true → s.xhl.identSeen = true → s.glb.headConflict = false → s.img.board.peerSerial = 0 →
    (∀ b ∈ s.img.board.peerIdDigest, b = 0) → s.xhl.pin = none → s.sec.arrayKey = some k → m.wrapped = none →
    ∃ t, exec (.pairKey m) s = .next t ∧ (Config.ecdsaVerify m.idKey m.value m.sig = true → t.xhl.pin = some (Config.sha384
        m.idKey) ∧ t.xhl.pairKeyOk = true) ∧
      (Config.ecdsaVerify m.idKey m.value m.sig = false → t.xhl.pin = none ∧ t.xhl.pairKeyOk = s.xhl.pairKeyOk) ∧
      t.sec.arrayKey = some k) ∧
  (∀ (s : State) (m : PairMsg) (e w : List (BitVec 8)),
    alive s = true → s.xhl.identSeen = true → s.glb.headConflict = false → s.img.board.peerSerial = 0 →
    (∀ b ∈ s.img.board.peerIdDigest, b = 0) → s.xhl.pin = none → s.xhl.pairEph = some e → s.sec.arrayKey = none →
    m.wrapped = some w →
    ∃ t, exec (.pairKey m) s = .next t ∧ (∀ k ∈ Config.kwUnwrap (Config.pairKdf (Config.ecdhShared e m.value)) w,
        Config.ecdsaVerify m.idKey m.value m.sig = true → t.sec.arrayKey = some k ∧ t.xhl.pairKeyOk = true) ∧
      (Config.ecdsaVerify m.idKey m.value m.sig = false → t.sec.arrayKey = none) ∧
      (Config.kwUnwrap (Config.pairKdf (Config.ecdhShared e m.value)) w = none → t.sec.arrayKey = none)) ∧
  (∀ (s : State),
    hostWriteOk s 0x0D = true → s.xhl.peer = .up → s.xhl.peerMode = 1 → s.glb.mode = .ready → s.xhl.handover = none →
    s.xhl.owned ≠ [] →
    ∃ t, exec (.enterMaint 0) s = .next t ∧ t.xhl.handover ≠ none ∧
      (∀ h ∈ t.xhl.handover, h.vols = s.xhl.owned ∧ h.maint = true) ∧ t.xhl.moving = joinVols s.xhl.moving s.xhl.owned ∧
      t.xhl.cmdErr = s.xhl.cmdErr) ∧
  (∀ (s : State) (peer : Nat),
    hostWriteOk s 0x0D = true →
    s.xhl.peer ≠ .up ∨ s.xhl.peerMode ≠ 1 ∨ s.glb.mode ≠ .ready ∨ peer = 1 ∨ (peer = 2 ∧ s.glb.headSel = true) →
    exec (.enterMaint peer) s = .next ({ s with xhl.cmdErr := true })) ∧
  (∀ (s : State) (h : Handover),
    hostWriteOk s 0x0D = true → s.xhl.peer = .up → s.xhl.peerMode = 1 → s.glb.mode = .ready → s.xhl.handover = some h →
    exec (.enterMaint 0) s = .next ({ s with xhl.handover := some { h with maint := true } })) ∧
  (∀ (s : State), hostWriteOk s 0x0D = true → s.glb.mode = .maintenance →
    exec .exitMaint s = .next ({ s with glb.mode := .ready })) ∧
  (∀ (s : State), hostWriteOk s 0x0D = true → s.glb.mode ≠ .maintenance →
    exec .exitMaint s = .next ({ s with xhl.cmdErr := true })) ∧
  (∀ (s : State), hostWriteOk s 0x0D = true → mayMove s = true → awayVols s ≠ [] →
    exec (.rebalance false) s = .next (xhlSend 0x0203 false false [] [] (startHandover (awayVols s) false s))) ∧
  (∀ (s : State) (busy : Bool), hostWriteOk s 0x0D = true → mayMove s = false ∨ busy = true →
    exec (.rebalance busy) s = .next ({ s with xhl.cmdErr := true })) ∧
  (∀ (s : State) (vols : List Nat),
    hostWriteOk s 0x0D = true → mayMove s = true →
    (vols = s.xhl.owned.filter fun v => decide (s.xhl.volFirst ≤ v) && decide (v ≤ s.xhl.volLast)) → vols ≠ [] →
    ∃ t, exec (.give false) s = .next t ∧ t.xhl.handover ≠ none ∧ (∀ h ∈ t.xhl.handover, h.vols = vols ∧ h.maint = false) ∧
      t.xhl.moving = joinVols s.xhl.moving vols ∧ t.xhl.owned = s.xhl.owned ∧ t.xhl.cmdErr = s.xhl.cmdErr) ∧
  (∀ (s : State) (busy : Bool),
    hostWriteOk s 0x0D = true →
    mayMove s = false ∨ busy = true ∨ ∀ v ∈ s.xhl.owned, v < s.xhl.volFirst ∨ s.xhl.volLast < v →
    exec (.give busy) s = .next ({ s with xhl.cmdErr := true })) ∧
  (∀ (s : State) (confirm : Nat),
    hostWriteOk s 0x0D = true → s.glb.ownAll = true → confirm = Config.serial.toNat % 65536 →
    ∃ t, exec (.unpinPeer confirm) s = .next t ∧ t.xhl.pin = none ∧ t.mmg.mapChange ≠ none) ∧
  (∀ (s : State) (confirm : Nat), hostWriteOk s 0x0D = true → s.glb.ownAll = false →
    exec (.unpinPeer confirm) s = .next ({ s with xhl.cmdErr := true }))

/-- R380: a served write of RED_KC_CTL whose BEARING_PRED is 5 to 7 sets CTL_ERR and changes nothing else, so the register
reads as before. -/
def Obligations.CoderControlRefusesReservedPredictors : Prop :=
  ∀ (s : State) (ep : Nat) (w : BitVec 32),
  epServes s ep = true → memOn s ep = true → writeTaken s 0x80104 = true → bar0Served s ep 0x80104 4 = true →
  5 ≤ fld w 2 3 →
  ∃ t, exec (.registerWrite ep 0x80104 w) s = .next t ∧ t.kc.ctlErr = true ∧ kcCtlWord t = kcCtlWord s ∧
    t = { s with kc.ctlErr := true }

/-- R135: a write of LDS_PERIOD_DEF with KIND 3, with KIND 1 and a length below 60 or above 527 040 units of 60 s (the 3 600 s
to 31 622 400 s of R129), or with KIND 0 or 2 and a length other than 0 sets SET_REFUSED and changes nothing else; every other
write becomes the register's value. So it is as the command of that write and as a write of the register at its offset. -/
def Obligations.PeriodDefinitionIsRefused : Prop :=
  (∀ (s : State) (w : BitVec 32),
    hostWriteOk s 0x02 = true → fld w 0 2 = 3 ∨ (fld w 0 2 = 1 ∧ (60 * fld w 2 30 < 3600 ∨ 31622400 < 60 * fld w 2 30)) ∨
      ((fld w 0 2 = 0 ∨ fld w 0 2 = 2) ∧ fld w 2 30 ≠ 0) →
    exec (.periodDefWrite w) s = .next ({ s with lds.setRefused := true })) ∧
  (∀ (s : State) (w : BitVec 32),
    hostWriteOk s 0x02 = true →
    fld w 0 2 = 1 ∧ 60 ≤ fld w 2 30 ∧ fld w 2 30 ≤ 527040 ∨ (fld w 0 2 = 0 ∨ fld w 0 2 = 2) ∧ fld w 2 30 = 0 →
    ∃ t, exec (.periodDefWrite w) s = .next t ∧ t.lds.periodDef = w ∧ t.lds.setRefused = s.lds.setRefused ∧
      t.lds.civilOffset = s.lds.civilOffset) ∧
  (∀ (s : State) (ep : Nat) (w : BitVec 32),
    epServes s ep = true → memOn s ep = true → writeTaken s 0x20048 = true → bar0Served s ep 0x20048 4 = true → fld w 0 2 =
      3 ∨ (fld w 0 2 = 1 ∧ (fld w 2 30 < 60 ∨ 527040 < fld w 2 30)) ∨ ((fld w 0 2 = 0 ∨ fld w 0 2 = 2) ∧ fld w 2 30 ≠ 0) →
    exec (.registerWrite ep 0x20048 w) s = .next ({ s with lds.setRefused := true }))

/-- R361, for samples of B bits each: the residue e is congruent to the difference modulo 2^B and lies in −MID to MID − 1; the
mapped value is 2e or −2e − 1 and at most MAXV; prediction and residue give the sample back, as does the decoder's function.
-/
def Obligations.ResidueMapping : Prop :=
  ∀ (r : Raster) (xs : Array Nat) (i pr : Nat), 0 < r.bits → (∀ j, xs.getD j 0 < 2 ^ r.bits) →
    ∃ e : Int, (e - ((xs.getD i 0 : Int) - (predict r xs i pr : Int))) % (2 ^ r.bits : Int) = 0 ∧
      -(r.mid : Int) ≤ e ∧ e ≤ (r.mid : Int) - 1 ∧
      (mapResidue r (xs.getD i 0) (predict r xs i pr) : Int) = (if 0 ≤ e then 2 * e else -2 * e - 1) ∧
      mapResidue r (xs.getD i 0) (predict r xs i pr) ≤ r.maxv ∧
      ((predict r xs i pr : Int) + e + 2 ^ r.bits).toNat &&& r.maxv = xs.getD i 0 ∧
      unmapResidue r (mapResidue r (xs.getD i 0) (predict r xs i pr)) (predict r xs i pr) = xs.getD i 0

/-- The DRAM mapping (R604, R605): when bits a − 1 to 0 of CH_MASK[i] are 1 << i for every i below a, two addresses that map
to one place lie in one 64-byte line, whatever the other masks hold, for every a up to 32, both values of b and every RB. -/
def Obligations.DramMappingIsOneToOne : Prop :=
  ∀ (d : Drc) (a b rb p q : Nat), a ≤ 32 → (∀ i, i < a → (d.chMask.getD i 0).toNat % 2 ^ a = 2 ^ i) →
    dramMap d a b rb p = dramMap d a b rb q → p / 64 = q / 64
end

