-- ==== Sys2Proof/Laws/Frame.lean ====
section
/-!
SUPPORT. What each shared operation leaves as it was: `f_frame` says that `f` changes no field of State outside its mask, whose
bits number the fields in the order in which State lists them. The lemmas hold for every mask that covers the operation's own,
so that a caller's frame follows from those of what it calls.
-/
set_option Elab.async false
set_option linter.unusedSimpArgs false
set_option linter.unusedVariables false
namespace Sys2Proof.Machine

/-- The state with the fields blanked whose bits are set in `m`, numbered as State lists them. Two states with equal blanks agree
on every field outside `m`. -/
def blank (m : Nat) (s : State) : State :=
  ⟨if m.testBit 0 then State.reset.glb else s.glb,
   if m.testBit 1 then State.reset.pwr else s.pwr,
   if m.testBit 2 then State.reset.island else s.island,
   if m.testBit 3 then State.reset.lds else s.lds,
   if m.testBit 4 then State.reset.fuses else s.fuses,
   if m.testBit 5 then State.reset.cfg else s.cfg,
   if m.testBit 6 then State.reset.img else s.img,
   if m.testBit 7 then State.reset.eps else s.eps,
   if m.testBit 8 then State.reset.hostLatch else s.hostLatch,
   if m.testBit 9 then State.reset.hostStage else s.hostStage,
   if m.testBit 10 then State.reset.dcq else s.dcq,
   if m.testBit 11 then State.reset.net else s.net,
   if m.testBit 12 then State.reset.rma else s.rma,
   if m.testBit 13 then State.reset.wlg else s.wlg,
   if m.testBit 14 then State.reset.red else s.red,
   if m.testBit 15 then State.reset.kc else s.kc,
   if m.testBit 16 then State.reset.sec else s.sec,
   if m.testBit 17 then State.reset.dig else s.dig,
   if m.testBit 18 then State.reset.med else s.med,
   if m.testBit 19 then State.reset.mmg else s.mmg,
   if m.testBit 20 then State.reset.ecp else s.ecp,
   if m.testBit 21 then State.reset.xhl else s.xhl,
   if m.testBit 22 then State.reset.drc else s.drc,
   if m.testBit 23 then State.reset.cle else s.cle,
   if m.testBit 24 then State.reset.flt else s.flt,
   if m.testBit 25 then State.reset.alm else s.alm,
   if m.testBit 26 then State.reset.upd else s.upd,
   if m.testBit 27 then State.reset.nor else s.nor,
   if m.testBit 28 then State.reset.lz else s.lz,
   if m.testBit 29 then State.reset.sram else s.sram,
   if m.testBit 30 then State.reset.hostData else s.hostData,
   if m.testBit 31 then State.reset.out else s.out,
   if m.testBit 32 then State.reset.freeCtr else s.freeCtr,
   if m.testBit 33 then State.reset.pending else s.pending⟩

/-- Fewer fields compared. -/
theorem blank_mono {m n : Nat} {s t : State} (h : blank m s = blank m t) (hn : n ||| m = n) : blank n s = blank n t := by
  have key : ∀ u, blank n (blank m u) = blank n u := by
    intro u
    have hb : ∀ i, m.testBit i = true → n.testBit i = true := by
      intro i hi
      rw [← hn, Nat.testBit_or, hi, Bool.or_true]
    unfold blank
    simp only [State.mk.injEq]
    and_intros <;>
    · split
      · rfl
      · rename_i h
        rw [if_neg fun h' => h (hb _ h')]
  rw [← key s, h, key]

/-- A fold of a function that keeps the fields keeps them. -/
theorem foldl_blank {n : Nat} {α : Type} {f : State → α → State} (h : ∀ s a, blank n (f s a) = blank n s) (l : List α) (s : State) :
    blank n (l.foldl f s) = blank n s := by
  induction l generalizing s with
  | nil => rfl
  | cons a l ih => rw [List.foldl_cons, ih, h]

/-- A next state agrees with `s` outside the fields of `n`. -/
def keeps (n : Nat) (s : State) : Host.Outcome State Fault Refusal → Prop
  | .next t => blank n t = blank n s
  | _ => True

/-- Part of a mask that is covered. -/
theorem or_sub {m n k : Nat} (hn : n ||| m = n) (hk : m ||| k = m) : n ||| k = n := by
  rw [← hn, Nat.or_assoc, hk]

@[simp] theorem keeps_next (n : Nat) (s t : State) : keeps n s (.next t) = (blank n t = blank n s) := (rfl)

/-- Fewer fields compared. -/
theorem keeps_mono {m n : Nat} {s : State} {o : Host.Outcome State Fault Refusal} (h : keeps m s o) (hn : n ||| m = n) : keeps n s o := by
  cases o with
  | next t => exact blank_mono h hn
  | fault r => trivial
  | refused r => trivial

/-- What a mask does not cover is equal in states whose blanks are. -/
theorem field_of_blank {m : Nat} {s t : State} {α : Type} (g : State → α) (h : blank m s = blank m t)
    (hg : ∀ u, g (blank m u) = g u) : g s = g t := by
  rw [← hg s, h, hg]

/-! ## An update of the fields of a mask -/

theorem mk_1 (t : State) (x0) :
    blank 0x1 ⟨x0, t.pwr, t.island, t.lds, t.fuses, t.cfg, t.img, t.eps, t.hostLatch, t.hostStage, t.dcq, t.net, t.rma, t.wlg, t.red, t.kc, t.sec, t.dig, t.med, t.mmg, t.ecp, t.xhl, t.drc, t.cle, t.flt, t.alm, t.upd, t.nor, t.lz, t.sram, t.hostData, t.out, t.freeCtr, t.pending⟩ = blank 0x1 t := (rfl)

theorem mk_2 (t : State) (x1) :
    blank 0x2 ⟨t.glb, x1, t.island, t.lds, t.fuses, t.cfg, t.img, t.eps, t.hostLatch, t.hostStage, t.dcq, t.net, t.rma, t.wlg, t.red, t.kc, t.sec, t.dig, t.med, t.mmg, t.ecp, t.xhl, t.drc, t.cle, t.flt, t.alm, t.upd, t.nor, t.lz, t.sram, t.hostData, t.out, t.freeCtr, t.pending⟩ = blank 0x2 t := (rfl)

theorem mk_4 (t : State) (x2) :
    blank 0x4 ⟨t.glb, t.pwr, x2, t.lds, t.fuses, t.cfg, t.img, t.eps, t.hostLatch, t.hostStage, t.dcq, t.net, t.rma, t.wlg, t.red, t.kc, t.sec, t.dig, t.med, t.mmg, t.ecp, t.xhl, t.drc, t.cle, t.flt, t.alm, t.upd, t.nor, t.lz, t.sram, t.hostData, t.out, t.freeCtr, t.pending⟩ = blank 0x4 t := (rfl)

theorem mk_6 (t : State) (x1 x2) :
    blank 0x6 ⟨t.glb, x1, x2, t.lds, t.fuses, t.cfg, t.img, t.eps, t.hostLatch, t.hostStage, t.dcq, t.net, t.rma, t.wlg, t.red, t.kc, t.sec, t.dig, t.med, t.mmg, t.ecp, t.xhl, t.drc, t.cle, t.flt, t.alm, t.upd, t.nor, t.lz, t.sram, t.hostData, t.out, t.freeCtr, t.pending⟩ = blank 0x6 t := (rfl)

theorem mk_8 (t : State) (x3) :
    blank 0x8 ⟨t.glb, t.pwr, t.island, x3, t.fuses, t.cfg, t.img, t.eps, t.hostLatch, t.hostStage, t.dcq, t.net, t.rma, t.wlg, t.red, t.kc, t.sec, t.dig, t.med, t.mmg, t.ecp, t.xhl, t.drc, t.cle, t.flt, t.alm, t.upd, t.nor, t.lz, t.sram, t.hostData, t.out, t.freeCtr, t.pending⟩ = blank 0x8 t := (rfl)

theorem mk_C (t : State) (x2 x3) :
    blank 0xC ⟨t.glb, t.pwr, x2, x3, t.fuses, t.cfg, t.img, t.eps, t.hostLatch, t.hostStage, t.dcq, t.net, t.rma, t.wlg, t.red, t.kc, t.sec, t.dig, t.med, t.mmg, t.ecp, t.xhl, t.drc, t.cle, t.flt, t.alm, t.upd, t.nor, t.lz, t.sram, t.hostData, t.out, t.freeCtr, t.pending⟩ = blank 0xC t := (rfl)

theorem mk_10 (t : State) (x4) :
    blank 0x10 ⟨t.glb, t.pwr, t.island, t.lds, x4, t.cfg, t.img, t.eps, t.hostLatch, t.hostStage, t.dcq, t.net, t.rma, t.wlg, t.red, t.kc, t.sec, t.dig, t.med, t.mmg, t.ecp, t.xhl, t.drc, t.cle, t.flt, t.alm, t.upd, t.nor, t.lz, t.sram, t.hostData, t.out, t.freeCtr, t.pending⟩ = blank 0x10 t := (rfl)

theorem mk_20 (t : State) (x5) :
    blank 0x20 ⟨t.glb, t.pwr, t.island, t.lds, t.fuses, x5, t.img, t.eps, t.hostLatch, t.hostStage, t.dcq, t.net, t.rma, t.wlg, t.red, t.kc, t.sec, t.dig, t.med, t.mmg, t.ecp, t.xhl, t.drc, t.cle, t.flt, t.alm, t.upd, t.nor, t.lz, t.sram, t.hostData, t.out, t.freeCtr, t.pending⟩ = blank 0x20 t := (rfl)

theorem mk_28 (t : State) (x3 x5) :
    blank 0x28 ⟨t.glb, t.pwr, t.island, x3, t.fuses, x5, t.img, t.eps, t.hostLatch, t.hostStage, t.dcq, t.net, t.rma, t.wlg, t.red, t.kc, t.sec, t.dig, t.med, t.mmg, t.ecp, t.xhl, t.drc, t.cle, t.flt, t.alm, t.upd, t.nor, t.lz, t.sram, t.hostData, t.out, t.freeCtr, t.pending⟩ = blank 0x28 t := (rfl)

theorem mk_80 (t : State) (x7) :
    blank 0x80 ⟨t.glb, t.pwr, t.island, t.lds, t.fuses, t.cfg, t.img, x7, t.hostLatch, t.hostStage, t.dcq, t.net, t.rma, t.wlg, t.red, t.kc, t.sec, t.dig, t.med, t.mmg, t.ecp, t.xhl, t.drc, t.cle, t.flt, t.alm, t.upd, t.nor, t.lz, t.sram, t.hostData, t.out, t.freeCtr, t.pending⟩ = blank 0x80 t := (rfl)

theorem mk_200 (t : State) (x9) :
    blank 0x200 ⟨t.glb, t.pwr, t.island, t.lds, t.fuses, t.cfg, t.img, t.eps, t.hostLatch, x9, t.dcq, t.net, t.rma, t.wlg, t.red, t.kc, t.sec, t.dig, t.med, t.mmg, t.ecp, t.xhl, t.drc, t.cle, t.flt, t.alm, t.upd, t.nor, t.lz, t.sram, t.hostData, t.out, t.freeCtr, t.pending⟩ = blank 0x200 t := (rfl)

theorem mk_400 (t : State) (x10) :
    blank 0x400 ⟨t.glb, t.pwr, t.island, t.lds, t.fuses, t.cfg, t.img, t.eps, t.hostLatch, t.hostStage, x10, t.net, t.rma, t.wlg, t.red, t.kc, t.sec, t.dig, t.med, t.mmg, t.ecp, t.xhl, t.drc, t.cle, t.flt, t.alm, t.upd, t.nor, t.lz, t.sram, t.hostData, t.out, t.freeCtr, t.pending⟩ = blank 0x400 t := (rfl)

theorem mk_480 (t : State) (x7 x10) :
    blank 0x480 ⟨t.glb, t.pwr, t.island, t.lds, t.fuses, t.cfg, t.img, x7, t.hostLatch, t.hostStage, x10, t.net, t.rma, t.wlg, t.red, t.kc, t.sec, t.dig, t.med, t.mmg, t.ecp, t.xhl, t.drc, t.cle, t.flt, t.alm, t.upd, t.nor, t.lz, t.sram, t.hostData, t.out, t.freeCtr, t.pending⟩ = blank 0x480 t := (rfl)

theorem mk_800 (t : State) (x11) :
    blank 0x800 ⟨t.glb, t.pwr, t.island, t.lds, t.fuses, t.cfg, t.img, t.eps, t.hostLatch, t.hostStage, t.dcq, x11, t.rma, t.wlg, t.red, t.kc, t.sec, t.dig, t.med, t.mmg, t.ecp, t.xhl, t.drc, t.cle, t.flt, t.alm, t.upd, t.nor, t.lz, t.sram, t.hostData, t.out, t.freeCtr, t.pending⟩ = blank 0x800 t := (rfl)

theorem mk_1000 (t : State) (x12) :
    blank 0x1000 ⟨t.glb, t.pwr, t.island, t.lds, t.fuses, t.cfg, t.img, t.eps, t.hostLatch, t.hostStage, t.dcq, t.net, x12, t.wlg, t.red, t.kc, t.sec, t.dig, t.med, t.mmg, t.ecp, t.xhl, t.drc, t.cle, t.flt, t.alm, t.upd, t.nor, t.lz, t.sram, t.hostData, t.out, t.freeCtr, t.pending⟩ = blank 0x1000 t := (rfl)

theorem mk_2000 (t : State) (x13) :
    blank 0x2000 ⟨t.glb, t.pwr, t.island, t.lds, t.fuses, t.cfg, t.img, t.eps, t.hostLatch, t.hostStage, t.dcq, t.net, t.rma, x13, t.red, t.kc, t.sec, t.dig, t.med, t.mmg, t.ecp, t.xhl, t.drc, t.cle, t.flt, t.alm, t.upd, t.nor, t.lz, t.sram, t.hostData, t.out, t.freeCtr, t.pending⟩ = blank 0x2000 t := (rfl)

theorem mk_4000 (t : State) (x14) :
    blank 0x4000 ⟨t.glb, t.pwr, t.island, t.lds, t.fuses, t.cfg, t.img, t.eps, t.hostLatch, t.hostStage, t.dcq, t.net, t.rma, t.wlg, x14, t.kc, t.sec, t.dig, t.med, t.mmg, t.ecp, t.xhl, t.drc, t.cle, t.flt, t.alm, t.upd, t.nor, t.lz, t.sram, t.hostData, t.out, t.freeCtr, t.pending⟩ = blank 0x4000 t := (rfl)

theorem mk_4008 (t : State) (x3 x14) :
    blank 0x4008 ⟨t.glb, t.pwr, t.island, x3, t.fuses, t.cfg, t.img, t.eps, t.hostLatch, t.hostStage, t.dcq, t.net, t.rma, t.wlg, x14, t.kc, t.sec, t.dig, t.med, t.mmg, t.ecp, t.xhl, t.drc, t.cle, t.flt, t.alm, t.upd, t.nor, t.lz, t.sram, t.hostData, t.out, t.freeCtr, t.pending⟩ = blank 0x4008 t := (rfl)

theorem mk_5000 (t : State) (x12 x14) :
    blank 0x5000 ⟨t.glb, t.pwr, t.island, t.lds, t.fuses, t.cfg, t.img, t.eps, t.hostLatch, t.hostStage, t.dcq, t.net, x12, t.wlg, x14, t.kc, t.sec, t.dig, t.med, t.mmg, t.ecp, t.xhl, t.drc, t.cle, t.flt, t.alm, t.upd, t.nor, t.lz, t.sram, t.hostData, t.out, t.freeCtr, t.pending⟩ = blank 0x5000 t := (rfl)

theorem mk_6000 (t : State) (x13 x14) :
    blank 0x6000 ⟨t.glb, t.pwr, t.island, t.lds, t.fuses, t.cfg, t.img, t.eps, t.hostLatch, t.hostStage, t.dcq, t.net, t.rma, x13, x14, t.kc, t.sec, t.dig, t.med, t.mmg, t.ecp, t.xhl, t.drc, t.cle, t.flt, t.alm, t.upd, t.nor, t.lz, t.sram, t.hostData, t.out, t.freeCtr, t.pending⟩ = blank 0x6000 t := (rfl)

theorem mk_8000 (t : State) (x15) :
    blank 0x8000 ⟨t.glb, t.pwr, t.island, t.lds, t.fuses, t.cfg, t.img, t.eps, t.hostLatch, t.hostStage, t.dcq, t.net, t.rma, t.wlg, t.red, x15, t.sec, t.dig, t.med, t.mmg, t.ecp, t.xhl, t.drc, t.cle, t.flt, t.alm, t.upd, t.nor, t.lz, t.sram, t.hostData, t.out, t.freeCtr, t.pending⟩ = blank 0x8000 t := (rfl)

theorem mk_C000 (t : State) (x14 x15) :
    blank 0xC000 ⟨t.glb, t.pwr, t.island, t.lds, t.fuses, t.cfg, t.img, t.eps, t.hostLatch, t.hostStage, t.dcq, t.net, t.rma, t.wlg, x14, x15, t.sec, t.dig, t.med, t.mmg, t.ecp, t.xhl, t.drc, t.cle, t.flt, t.alm, t.upd, t.nor, t.lz, t.sram, t.hostData, t.out, t.freeCtr, t.pending⟩ = blank 0xC000 t := (rfl)

theorem mk_10000 (t : State) (x16) :
    blank 0x10000 ⟨t.glb, t.pwr, t.island, t.lds, t.fuses, t.cfg, t.img, t.eps, t.hostLatch, t.hostStage, t.dcq, t.net, t.rma, t.wlg, t.red, t.kc, x16, t.dig, t.med, t.mmg, t.ecp, t.xhl, t.drc, t.cle, t.flt, t.alm, t.upd, t.nor, t.lz, t.sram, t.hostData, t.out, t.freeCtr, t.pending⟩ = blank 0x10000 t := (rfl)

theorem mk_10020 (t : State) (x5 x16) :
    blank 0x10020 ⟨t.glb, t.pwr, t.island, t.lds, t.fuses, x5, t.img, t.eps, t.hostLatch, t.hostStage, t.dcq, t.net, t.rma, t.wlg, t.red, t.kc, x16, t.dig, t.med, t.mmg, t.ecp, t.xhl, t.drc, t.cle, t.flt, t.alm, t.upd, t.nor, t.lz, t.sram, t.hostData, t.out, t.freeCtr, t.pending⟩ = blank 0x10020 t := (rfl)

theorem mk_20000 (t : State) (x17) :
    blank 0x20000 ⟨t.glb, t.pwr, t.island, t.lds, t.fuses, t.cfg, t.img, t.eps, t.hostLatch, t.hostStage, t.dcq, t.net, t.rma, t.wlg, t.red, t.kc, t.sec, x17, t.med, t.mmg, t.ecp, t.xhl, t.drc, t.cle, t.flt, t.alm, t.upd, t.nor, t.lz, t.sram, t.hostData, t.out, t.freeCtr, t.pending⟩ = blank 0x20000 t := (rfl)

theorem mk_40000 (t : State) (x18) :
    blank 0x40000 ⟨t.glb, t.pwr, t.island, t.lds, t.fuses, t.cfg, t.img, t.eps, t.hostLatch, t.hostStage, t.dcq, t.net, t.rma, t.wlg, t.red, t.kc, t.sec, t.dig, x18, t.mmg, t.ecp, t.xhl, t.drc, t.cle, t.flt, t.alm, t.upd, t.nor, t.lz, t.sram, t.hostData, t.out, t.freeCtr, t.pending⟩ = blank 0x40000 t := (rfl)

theorem mk_80000 (t : State) (x19) :
    blank 0x80000 ⟨t.glb, t.pwr, t.island, t.lds, t.fuses, t.cfg, t.img, t.eps, t.hostLatch, t.hostStage, t.dcq, t.net, t.rma, t.wlg, t.red, t.kc, t.sec, t.dig, t.med, x19, t.ecp, t.xhl, t.drc, t.cle, t.flt, t.alm, t.upd, t.nor, t.lz, t.sram, t.hostData, t.out, t.freeCtr, t.pending⟩ = blank 0x80000 t := (rfl)

theorem mk_100000 (t : State) (x20) :
    blank 0x100000 ⟨t.glb, t.pwr, t.island, t.lds, t.fuses, t.cfg, t.img, t.eps, t.hostLatch, t.hostStage, t.dcq, t.net, t.rma, t.wlg, t.red, t.kc, t.sec, t.dig, t.med, t.mmg, x20, t.xhl, t.drc, t.cle, t.flt, t.alm, t.upd, t.nor, t.lz, t.sram, t.hostData, t.out, t.freeCtr, t.pending⟩ = blank 0x100000 t := (rfl)

theorem mk_180000 (t : State) (x19 x20) :
    blank 0x180000 ⟨t.glb, t.pwr, t.island, t.lds, t.fuses, t.cfg, t.img, t.eps, t.hostLatch, t.hostStage, t.dcq, t.net, t.rma, t.wlg, t.red, t.kc, t.sec, t.dig, t.med, x19, x20, t.xhl, t.drc, t.cle, t.flt, t.alm, t.upd, t.nor, t.lz, t.sram, t.hostData, t.out, t.freeCtr, t.pending⟩ = blank 0x180000 t := (rfl)

theorem mk_200000 (t : State) (x21) :
    blank 0x200000 ⟨t.glb, t.pwr, t.island, t.lds, t.fuses, t.cfg, t.img, t.eps, t.hostLatch, t.hostStage, t.dcq, t.net, t.rma, t.wlg, t.red, t.kc, t.sec, t.dig, t.med, t.mmg, t.ecp, x21, t.drc, t.cle, t.flt, t.alm, t.upd, t.nor, t.lz, t.sram, t.hostData, t.out, t.freeCtr, t.pending⟩ = blank 0x200000 t := (rfl)

theorem mk_200001 (t : State) (x0 x21) :
    blank 0x200001 ⟨x0, t.pwr, t.island, t.lds, t.fuses, t.cfg, t.img, t.eps, t.hostLatch, t.hostStage, t.dcq, t.net, t.rma, t.wlg, t.red, t.kc, t.sec, t.dig, t.med, t.mmg, t.ecp, x21, t.drc, t.cle, t.flt, t.alm, t.upd, t.nor, t.lz, t.sram, t.hostData, t.out, t.freeCtr, t.pending⟩ = blank 0x200001 t := (rfl)

theorem mk_202000 (t : State) (x13 x21) :
    blank 0x202000 ⟨t.glb, t.pwr, t.island, t.lds, t.fuses, t.cfg, t.img, t.eps, t.hostLatch, t.hostStage, t.dcq, t.net, t.rma, x13, t.red, t.kc, t.sec, t.dig, t.med, t.mmg, t.ecp, x21, t.drc, t.cle, t.flt, t.alm, t.upd, t.nor, t.lz, t.sram, t.hostData, t.out, t.freeCtr, t.pending⟩ = blank 0x202000 t := (rfl)

theorem mk_202001 (t : State) (x0 x13 x21) :
    blank 0x202001 ⟨x0, t.pwr, t.island, t.lds, t.fuses, t.cfg, t.img, t.eps, t.hostLatch, t.hostStage, t.dcq, t.net, t.rma, x13, t.red, t.kc, t.sec, t.dig, t.med, t.mmg, t.ecp, x21, t.drc, t.cle, t.flt, t.alm, t.upd, t.nor, t.lz, t.sram, t.hostData, t.out, t.freeCtr, t.pending⟩ = blank 0x202001 t := (rfl)

theorem mk_210000 (t : State) (x16 x21) :
    blank 0x210000 ⟨t.glb, t.pwr, t.island, t.lds, t.fuses, t.cfg, t.img, t.eps, t.hostLatch, t.hostStage, t.dcq, t.net, t.rma, t.wlg, t.red, t.kc, x16, t.dig, t.med, t.mmg, t.ecp, x21, t.drc, t.cle, t.flt, t.alm, t.upd, t.nor, t.lz, t.sram, t.hostData, t.out, t.freeCtr, t.pending⟩ = blank 0x210000 t := (rfl)

theorem mk_400000 (t : State) (x22) :
    blank 0x400000 ⟨t.glb, t.pwr, t.island, t.lds, t.fuses, t.cfg, t.img, t.eps, t.hostLatch, t.hostStage, t.dcq, t.net, t.rma, t.wlg, t.red, t.kc, t.sec, t.dig, t.med, t.mmg, t.ecp, t.xhl, x22, t.cle, t.flt, t.alm, t.upd, t.nor, t.lz, t.sram, t.hostData, t.out, t.freeCtr, t.pending⟩ = blank 0x400000 t := (rfl)

theorem mk_480000 (t : State) (x19 x22) :
    blank 0x480000 ⟨t.glb, t.pwr, t.island, t.lds, t.fuses, t.cfg, t.img, t.eps, t.hostLatch, t.hostStage, t.dcq, t.net, t.rma, t.wlg, t.red, t.kc, t.sec, t.dig, t.med, x19, t.ecp, t.xhl, x22, t.cle, t.flt, t.alm, t.upd, t.nor, t.lz, t.sram, t.hostData, t.out, t.freeCtr, t.pending⟩ = blank 0x480000 t := (rfl)

theorem mk_800000 (t : State) (x23) :
    blank 0x800000 ⟨t.glb, t.pwr, t.island, t.lds, t.fuses, t.cfg, t.img, t.eps, t.hostLatch, t.hostStage, t.dcq, t.net, t.rma, t.wlg, t.red, t.kc, t.sec, t.dig, t.med, t.mmg, t.ecp, t.xhl, t.drc, x23, t.flt, t.alm, t.upd, t.nor, t.lz, t.sram, t.hostData, t.out, t.freeCtr, t.pending⟩ = blank 0x800000 t := (rfl)

theorem mk_800008 (t : State) (x3 x23) :
    blank 0x800008 ⟨t.glb, t.pwr, t.island, x3, t.fuses, t.cfg, t.img, t.eps, t.hostLatch, t.hostStage, t.dcq, t.net, t.rma, t.wlg, t.red, t.kc, t.sec, t.dig, t.med, t.mmg, t.ecp, t.xhl, t.drc, x23, t.flt, t.alm, t.upd, t.nor, t.lz, t.sram, t.hostData, t.out, t.freeCtr, t.pending⟩ = blank 0x800008 t := (rfl)

theorem mk_840000 (t : State) (x18 x23) :
    blank 0x840000 ⟨t.glb, t.pwr, t.island, t.lds, t.fuses, t.cfg, t.img, t.eps, t.hostLatch, t.hostStage, t.dcq, t.net, t.rma, t.wlg, t.red, t.kc, t.sec, t.dig, x18, t.mmg, t.ecp, t.xhl, t.drc, x23, t.flt, t.alm, t.upd, t.nor, t.lz, t.sram, t.hostData, t.out, t.freeCtr, t.pending⟩ = blank 0x840000 t := (rfl)

theorem mk_A40880 (t : State) (x7 x11 x18 x21 x23) :
    blank 0xA40880 ⟨t.glb, t.pwr, t.island, t.lds, t.fuses, t.cfg, t.img, x7, t.hostLatch, t.hostStage, t.dcq, x11, t.rma, t.wlg, t.red, t.kc, t.sec, t.dig, x18, t.mmg, t.ecp, x21, t.drc, x23, t.flt, t.alm, t.upd, t.nor, t.lz, t.sram, t.hostData, t.out, t.freeCtr, t.pending⟩ = blank 0xA40880 t := (rfl)

theorem mk_1000000 (t : State) (x24) :
    blank 0x1000000 ⟨t.glb, t.pwr, t.island, t.lds, t.fuses, t.cfg, t.img, t.eps, t.hostLatch, t.hostStage, t.dcq, t.net, t.rma, t.wlg, t.red, t.kc, t.sec, t.dig, t.med, t.mmg, t.ecp, t.xhl, t.drc, t.cle, x24, t.alm, t.upd, t.nor, t.lz, t.sram, t.hostData, t.out, t.freeCtr, t.pending⟩ = blank 0x1000000 t := (rfl)

theorem mk_100A000 (t : State) (x13 x15 x24) :
    blank 0x100A000 ⟨t.glb, t.pwr, t.island, t.lds, t.fuses, t.cfg, t.img, t.eps, t.hostLatch, t.hostStage, t.dcq, t.net, t.rma, x13, t.red, x15, t.sec, t.dig, t.med, t.mmg, t.ecp, t.xhl, t.drc, t.cle, x24, t.alm, t.upd, t.nor, t.lz, t.sram, t.hostData, t.out, t.freeCtr, t.pending⟩ = blank 0x100A000 t := (rfl)

theorem mk_1A40885 (t : State) (x0 x2 x7 x11 x18 x21 x23 x24) :
    blank 0x1A40885 ⟨x0, t.pwr, x2, t.lds, t.fuses, t.cfg, t.img, x7, t.hostLatch, t.hostStage, t.dcq, x11, t.rma, t.wlg, t.red, t.kc, t.sec, t.dig, x18, t.mmg, t.ecp, x21, t.drc, x23, x24, t.alm, t.upd, t.nor, t.lz, t.sram, t.hostData, t.out, t.freeCtr, t.pending⟩ = blank 0x1A40885 t := (rfl)

theorem mk_2000000 (t : State) (x25) :
    blank 0x2000000 ⟨t.glb, t.pwr, t.island, t.lds, t.fuses, t.cfg, t.img, t.eps, t.hostLatch, t.hostStage, t.dcq, t.net, t.rma, t.wlg, t.red, t.kc, t.sec, t.dig, t.med, t.mmg, t.ecp, t.xhl, t.drc, t.cle, t.flt, x25, t.upd, t.nor, t.lz, t.sram, t.hostData, t.out, t.freeCtr, t.pending⟩ = blank 0x2000000 t := (rfl)

theorem mk_2000004 (t : State) (x2 x25) :
    blank 0x2000004 ⟨t.glb, t.pwr, x2, t.lds, t.fuses, t.cfg, t.img, t.eps, t.hostLatch, t.hostStage, t.dcq, t.net, t.rma, t.wlg, t.red, t.kc, t.sec, t.dig, t.med, t.mmg, t.ecp, t.xhl, t.drc, t.cle, t.flt, x25, t.upd, t.nor, t.lz, t.sram, t.hostData, t.out, t.freeCtr, t.pending⟩ = blank 0x2000004 t := (rfl)

theorem mk_2E40000 (t : State) (x18 x21 x22 x23 x25) :
    blank 0x2E40000 ⟨t.glb, t.pwr, t.island, t.lds, t.fuses, t.cfg, t.img, t.eps, t.hostLatch, t.hostStage, t.dcq, t.net, t.rma, t.wlg, t.red, t.kc, t.sec, t.dig, x18, t.mmg, t.ecp, x21, x22, x23, t.flt, x25, t.upd, t.nor, t.lz, t.sram, t.hostData, t.out, t.freeCtr, t.pending⟩ = blank 0x2E40000 t := (rfl)

theorem mk_4000000 (t : State) (x26) :
    blank 0x4000000 ⟨t.glb, t.pwr, t.island, t.lds, t.fuses, t.cfg, t.img, t.eps, t.hostLatch, t.hostStage, t.dcq, t.net, t.rma, t.wlg, t.red, t.kc, t.sec, t.dig, t.med, t.mmg, t.ecp, t.xhl, t.drc, t.cle, t.flt, t.alm, x26, t.nor, t.lz, t.sram, t.hostData, t.out, t.freeCtr, t.pending⟩ = blank 0x4000000 t := (rfl)

theorem mk_4000020 (t : State) (x5 x26) :
    blank 0x4000020 ⟨t.glb, t.pwr, t.island, t.lds, t.fuses, x5, t.img, t.eps, t.hostLatch, t.hostStage, t.dcq, t.net, t.rma, t.wlg, t.red, t.kc, t.sec, t.dig, t.med, t.mmg, t.ecp, t.xhl, t.drc, t.cle, t.flt, t.alm, x26, t.nor, t.lz, t.sram, t.hostData, t.out, t.freeCtr, t.pending⟩ = blank 0x4000020 t := (rfl)

theorem mk_4314001 (t : State) (x0 x14 x16 x20 x21 x26) :
    blank 0x4314001 ⟨x0, t.pwr, t.island, t.lds, t.fuses, t.cfg, t.img, t.eps, t.hostLatch, t.hostStage, t.dcq, t.net, t.rma, t.wlg, x14, t.kc, x16, t.dig, t.med, t.mmg, x20, x21, t.drc, t.cle, t.flt, t.alm, x26, t.nor, t.lz, t.sram, t.hostData, t.out, t.freeCtr, t.pending⟩ = blank 0x4314001 t := (rfl)

theorem mk_439600D (t : State) (x0 x2 x3 x13 x14 x16 x19 x20 x21 x26) :
    blank 0x439600D ⟨x0, t.pwr, x2, x3, t.fuses, t.cfg, t.img, t.eps, t.hostLatch, t.hostStage, t.dcq, t.net, t.rma, x13, x14, t.kc, x16, t.dig, t.med, x19, x20, x21, t.drc, t.cle, t.flt, t.alm, x26, t.nor, t.lz, t.sram, t.hostData, t.out, t.freeCtr, t.pending⟩ = blank 0x439600D t := (rfl)

theorem mk_A000000 (t : State) (x25 x27) :
    blank 0xA000000 ⟨t.glb, t.pwr, t.island, t.lds, t.fuses, t.cfg, t.img, t.eps, t.hostLatch, t.hostStage, t.dcq, t.net, t.rma, t.wlg, t.red, t.kc, t.sec, t.dig, t.med, t.mmg, t.ecp, t.xhl, t.drc, t.cle, t.flt, x25, t.upd, x27, t.lz, t.sram, t.hostData, t.out, t.freeCtr, t.pending⟩ = blank 0xA000000 t := (rfl)

theorem mk_A000004 (t : State) (x2 x25 x27) :
    blank 0xA000004 ⟨t.glb, t.pwr, x2, t.lds, t.fuses, t.cfg, t.img, t.eps, t.hostLatch, t.hostStage, t.dcq, t.net, t.rma, t.wlg, t.red, t.kc, t.sec, t.dig, t.med, t.mmg, t.ecp, t.xhl, t.drc, t.cle, t.flt, x25, t.upd, x27, t.lz, t.sram, t.hostData, t.out, t.freeCtr, t.pending⟩ = blank 0xA000004 t := (rfl)

theorem mk_A000024 (t : State) (x2 x5 x25 x27) :
    blank 0xA000024 ⟨t.glb, t.pwr, x2, t.lds, t.fuses, x5, t.img, t.eps, t.hostLatch, t.hostStage, t.dcq, t.net, t.rma, t.wlg, t.red, t.kc, t.sec, t.dig, t.med, t.mmg, t.ecp, t.xhl, t.drc, t.cle, t.flt, x25, t.upd, x27, t.lz, t.sram, t.hostData, t.out, t.freeCtr, t.pending⟩ = blank 0xA000024 t := (rfl)

theorem mk_E000004 (t : State) (x2 x25 x26 x27) :
    blank 0xE000004 ⟨t.glb, t.pwr, x2, t.lds, t.fuses, t.cfg, t.img, t.eps, t.hostLatch, t.hostStage, t.dcq, t.net, t.rma, t.wlg, t.red, t.kc, t.sec, t.dig, t.med, t.mmg, t.ecp, t.xhl, t.drc, t.cle, t.flt, x25, x26, x27, t.lz, t.sram, t.hostData, t.out, t.freeCtr, t.pending⟩ = blank 0xE000004 t := (rfl)

theorem mk_30000000 (t : State) (x28 x29) :
    blank 0x30000000 ⟨t.glb, t.pwr, t.island, t.lds, t.fuses, t.cfg, t.img, t.eps, t.hostLatch, t.hostStage, t.dcq, t.net, t.rma, t.wlg, t.red, t.kc, t.sec, t.dig, t.med, t.mmg, t.ecp, t.xhl, t.drc, t.cle, t.flt, t.alm, t.upd, t.nor, x28, x29, t.hostData, t.out, t.freeCtr, t.pending⟩ = blank 0x30000000 t := (rfl)

theorem mk_333AE000 (t : State) (x13 x14 x15 x17 x19 x20 x21 x24 x25 x28 x29) :
    blank 0x333AE000 ⟨t.glb, t.pwr, t.island, t.lds, t.fuses, t.cfg, t.img, t.eps, t.hostLatch, t.hostStage, t.dcq, t.net, t.rma, x13, x14, x15, t.sec, x17, t.med, x19, x20, x21, t.drc, t.cle, x24, x25, t.upd, t.nor, x28, x29, t.hostData, t.out, t.freeCtr, t.pending⟩ = blank 0x333AE000 t := (rfl)

theorem mk_37FFFFEB (t : State) (x0 x1 x3 x5 x6 x7 x8 x9 x10 x11 x12 x13 x14 x15 x16 x17 x18 x19 x20 x21 x22 x23 x24 x25 x26 x28 x29) :
    blank 0x37FFFFEB ⟨x0, x1, t.island, x3, t.fuses, x5, x6, x7, x8, x9, x10, x11, x12, x13, x14, x15, x16, x17, x18, x19, x20, x21, x22, x23, x24, x25, x26, t.nor, x28, x29, t.hostData, t.out, t.freeCtr, t.pending⟩ = blank 0x37FFFFEB t := (rfl)

theorem mk_42000000 (t : State) (x25 x30) :
    blank 0x42000000 ⟨t.glb, t.pwr, t.island, t.lds, t.fuses, t.cfg, t.img, t.eps, t.hostLatch, t.hostStage, t.dcq, t.net, t.rma, t.wlg, t.red, t.kc, t.sec, t.dig, t.med, t.mmg, t.ecp, t.xhl, t.drc, t.cle, t.flt, x25, t.upd, t.nor, t.lz, t.sram, x30, t.out, t.freeCtr, t.pending⟩ = blank 0x42000000 t := (rfl)

theorem mk_80000000 (t : State) (x31) :
    blank 0x80000000 ⟨t.glb, t.pwr, t.island, t.lds, t.fuses, t.cfg, t.img, t.eps, t.hostLatch, t.hostStage, t.dcq, t.net, t.rma, t.wlg, t.red, t.kc, t.sec, t.dig, t.med, t.mmg, t.ecp, t.xhl, t.drc, t.cle, t.flt, t.alm, t.upd, t.nor, t.lz, t.sram, t.hostData, x31, t.freeCtr, t.pending⟩ = blank 0x80000000 t := (rfl)

theorem mk_80000002 (t : State) (x1 x31) :
    blank 0x80000002 ⟨t.glb, x1, t.island, t.lds, t.fuses, t.cfg, t.img, t.eps, t.hostLatch, t.hostStage, t.dcq, t.net, t.rma, t.wlg, t.red, t.kc, t.sec, t.dig, t.med, t.mmg, t.ecp, t.xhl, t.drc, t.cle, t.flt, t.alm, t.upd, t.nor, t.lz, t.sram, t.hostData, x31, t.freeCtr, t.pending⟩ = blank 0x80000002 t := (rfl)

theorem mk_80000080 (t : State) (x7 x31) :
    blank 0x80000080 ⟨t.glb, t.pwr, t.island, t.lds, t.fuses, t.cfg, t.img, x7, t.hostLatch, t.hostStage, t.dcq, t.net, t.rma, t.wlg, t.red, t.kc, t.sec, t.dig, t.med, t.mmg, t.ecp, t.xhl, t.drc, t.cle, t.flt, t.alm, t.upd, t.nor, t.lz, t.sram, t.hostData, x31, t.freeCtr, t.pending⟩ = blank 0x80000080 t := (rfl)

theorem mk_80000480 (t : State) (x7 x10 x31) :
    blank 0x80000480 ⟨t.glb, t.pwr, t.island, t.lds, t.fuses, t.cfg, t.img, x7, t.hostLatch, t.hostStage, x10, t.net, t.rma, t.wlg, t.red, t.kc, t.sec, t.dig, t.med, t.mmg, t.ecp, t.xhl, t.drc, t.cle, t.flt, t.alm, t.upd, t.nor, t.lz, t.sram, t.hostData, x31, t.freeCtr, t.pending⟩ = blank 0x80000480 t := (rfl)

theorem mk_80000800 (t : State) (x11 x31) :
    blank 0x80000800 ⟨t.glb, t.pwr, t.island, t.lds, t.fuses, t.cfg, t.img, t.eps, t.hostLatch, t.hostStage, t.dcq, x11, t.rma, t.wlg, t.red, t.kc, t.sec, t.dig, t.med, t.mmg, t.ecp, t.xhl, t.drc, t.cle, t.flt, t.alm, t.upd, t.nor, t.lz, t.sram, t.hostData, x31, t.freeCtr, t.pending⟩ = blank 0x80000800 t := (rfl)

theorem mk_80000C88 (t : State) (x3 x7 x10 x11 x31) :
    blank 0x80000C88 ⟨t.glb, t.pwr, t.island, x3, t.fuses, t.cfg, t.img, x7, t.hostLatch, t.hostStage, x10, x11, t.rma, t.wlg, t.red, t.kc, t.sec, t.dig, t.med, t.mmg, t.ecp, t.xhl, t.drc, t.cle, t.flt, t.alm, t.upd, t.nor, t.lz, t.sram, t.hostData, x31, t.freeCtr, t.pending⟩ = blank 0x80000C88 t := (rfl)

theorem mk_80002480 (t : State) (x7 x10 x13 x31) :
    blank 0x80002480 ⟨t.glb, t.pwr, t.island, t.lds, t.fuses, t.cfg, t.img, x7, t.hostLatch, t.hostStage, x10, t.net, t.rma, x13, t.red, t.kc, t.sec, t.dig, t.med, t.mmg, t.ecp, t.xhl, t.drc, t.cle, t.flt, t.alm, t.upd, t.nor, t.lz, t.sram, t.hostData, x31, t.freeCtr, t.pending⟩ = blank 0x80002480 t := (rfl)

theorem mk_80040000 (t : State) (x18 x31) :
    blank 0x80040000 ⟨t.glb, t.pwr, t.island, t.lds, t.fuses, t.cfg, t.img, t.eps, t.hostLatch, t.hostStage, t.dcq, t.net, t.rma, t.wlg, t.red, t.kc, t.sec, t.dig, x18, t.mmg, t.ecp, t.xhl, t.drc, t.cle, t.flt, t.alm, t.upd, t.nor, t.lz, t.sram, t.hostData, x31, t.freeCtr, t.pending⟩ = blank 0x80040000 t := (rfl)

theorem mk_800C0000 (t : State) (x18 x19 x31) :
    blank 0x800C0000 ⟨t.glb, t.pwr, t.island, t.lds, t.fuses, t.cfg, t.img, t.eps, t.hostLatch, t.hostStage, t.dcq, t.net, t.rma, t.wlg, t.red, t.kc, t.sec, t.dig, x18, x19, t.ecp, t.xhl, t.drc, t.cle, t.flt, t.alm, t.upd, t.nor, t.lz, t.sram, t.hostData, x31, t.freeCtr, t.pending⟩ = blank 0x800C0000 t := (rfl)

theorem mk_80140000 (t : State) (x18 x20 x31) :
    blank 0x80140000 ⟨t.glb, t.pwr, t.island, t.lds, t.fuses, t.cfg, t.img, t.eps, t.hostLatch, t.hostStage, t.dcq, t.net, t.rma, t.wlg, t.red, t.kc, t.sec, t.dig, x18, t.mmg, x20, t.xhl, t.drc, t.cle, t.flt, t.alm, t.upd, t.nor, t.lz, t.sram, t.hostData, x31, t.freeCtr, t.pending⟩ = blank 0x80140000 t := (rfl)

theorem mk_801C0000 (t : State) (x18 x19 x20 x31) :
    blank 0x801C0000 ⟨t.glb, t.pwr, t.island, t.lds, t.fuses, t.cfg, t.img, t.eps, t.hostLatch, t.hostStage, t.dcq, t.net, t.rma, t.wlg, t.red, t.kc, t.sec, t.dig, x18, x19, x20, t.xhl, t.drc, t.cle, t.flt, t.alm, t.upd, t.nor, t.lz, t.sram, t.hostData, x31, t.freeCtr, t.pending⟩ = blank 0x801C0000 t := (rfl)

theorem mk_80200000 (t : State) (x21 x31) :
    blank 0x80200000 ⟨t.glb, t.pwr, t.island, t.lds, t.fuses, t.cfg, t.img, t.eps, t.hostLatch, t.hostStage, t.dcq, t.net, t.rma, t.wlg, t.red, t.kc, t.sec, t.dig, t.med, t.mmg, t.ecp, x21, t.drc, t.cle, t.flt, t.alm, t.upd, t.nor, t.lz, t.sram, t.hostData, x31, t.freeCtr, t.pending⟩ = blank 0x80200000 t := (rfl)

theorem mk_80200002 (t : State) (x1 x21 x31) :
    blank 0x80200002 ⟨t.glb, x1, t.island, t.lds, t.fuses, t.cfg, t.img, t.eps, t.hostLatch, t.hostStage, t.dcq, t.net, t.rma, t.wlg, t.red, t.kc, t.sec, t.dig, t.med, t.mmg, t.ecp, x21, t.drc, t.cle, t.flt, t.alm, t.upd, t.nor, t.lz, t.sram, t.hostData, x31, t.freeCtr, t.pending⟩ = blank 0x80200002 t := (rfl)

theorem mk_8020000A (t : State) (x1 x3 x21 x31) :
    blank 0x8020000A ⟨t.glb, x1, t.island, x3, t.fuses, t.cfg, t.img, t.eps, t.hostLatch, t.hostStage, t.dcq, t.net, t.rma, t.wlg, t.red, t.kc, t.sec, t.dig, t.med, t.mmg, t.ecp, x21, t.drc, t.cle, t.flt, t.alm, t.upd, t.nor, t.lz, t.sram, t.hostData, x31, t.freeCtr, t.pending⟩ = blank 0x8020000A t := (rfl)

theorem mk_80200482 (t : State) (x1 x7 x10 x21 x31) :
    blank 0x80200482 ⟨t.glb, x1, t.island, t.lds, t.fuses, t.cfg, t.img, x7, t.hostLatch, t.hostStage, x10, t.net, t.rma, t.wlg, t.red, t.kc, t.sec, t.dig, t.med, t.mmg, t.ecp, x21, t.drc, t.cle, t.flt, t.alm, t.upd, t.nor, t.lz, t.sram, t.hostData, x31, t.freeCtr, t.pending⟩ = blank 0x80200482 t := (rfl)

theorem mk_80204002 (t : State) (x1 x14 x21 x31) :
    blank 0x80204002 ⟨t.glb, x1, t.island, t.lds, t.fuses, t.cfg, t.img, t.eps, t.hostLatch, t.hostStage, t.dcq, t.net, t.rma, t.wlg, x14, t.kc, t.sec, t.dig, t.med, t.mmg, t.ecp, x21, t.drc, t.cle, t.flt, t.alm, t.upd, t.nor, t.lz, t.sram, t.hostData, x31, t.freeCtr, t.pending⟩ = blank 0x80204002 t := (rfl)

theorem mk_80204C8A (t : State) (x1 x3 x7 x10 x11 x14 x21 x31) :
    blank 0x80204C8A ⟨t.glb, x1, t.island, x3, t.fuses, t.cfg, t.img, x7, t.hostLatch, t.hostStage, x10, x11, t.rma, t.wlg, x14, t.kc, t.sec, t.dig, t.med, t.mmg, t.ecp, x21, t.drc, t.cle, t.flt, t.alm, t.upd, t.nor, t.lz, t.sram, t.hostData, x31, t.freeCtr, t.pending⟩ = blank 0x80204C8A t := (rfl)

theorem mk_80206002 (t : State) (x1 x13 x14 x21 x31) :
    blank 0x80206002 ⟨t.glb, x1, t.island, t.lds, t.fuses, t.cfg, t.img, t.eps, t.hostLatch, t.hostStage, t.dcq, t.net, t.rma, x13, x14, t.kc, t.sec, t.dig, t.med, t.mmg, t.ecp, x21, t.drc, t.cle, t.flt, t.alm, t.upd, t.nor, t.lz, t.sram, t.hostData, x31, t.freeCtr, t.pending⟩ = blank 0x80206002 t := (rfl)

theorem mk_80210002 (t : State) (x1 x16 x21 x31) :
    blank 0x80210002 ⟨t.glb, x1, t.island, t.lds, t.fuses, t.cfg, t.img, t.eps, t.hostLatch, t.hostStage, t.dcq, t.net, t.rma, t.wlg, t.red, t.kc, x16, t.dig, t.med, t.mmg, t.ecp, x21, t.drc, t.cle, t.flt, t.alm, t.upd, t.nor, t.lz, t.sram, t.hostData, x31, t.freeCtr, t.pending⟩ = blank 0x80210002 t := (rfl)

theorem mk_80240000 (t : State) (x18 x21 x31) :
    blank 0x80240000 ⟨t.glb, t.pwr, t.island, t.lds, t.fuses, t.cfg, t.img, t.eps, t.hostLatch, t.hostStage, t.dcq, t.net, t.rma, t.wlg, t.red, t.kc, t.sec, t.dig, x18, t.mmg, t.ecp, x21, t.drc, t.cle, t.flt, t.alm, t.upd, t.nor, t.lz, t.sram, t.hostData, x31, t.freeCtr, t.pending⟩ = blank 0x80240000 t := (rfl)

theorem mk_80280002 (t : State) (x1 x19 x21 x31) :
    blank 0x80280002 ⟨t.glb, x1, t.island, t.lds, t.fuses, t.cfg, t.img, t.eps, t.hostLatch, t.hostStage, t.dcq, t.net, t.rma, t.wlg, t.red, t.kc, t.sec, t.dig, t.med, x19, t.ecp, x21, t.drc, t.cle, t.flt, t.alm, t.upd, t.nor, t.lz, t.sram, t.hostData, x31, t.freeCtr, t.pending⟩ = blank 0x80280002 t := (rfl)

theorem mk_80284002 (t : State) (x1 x14 x19 x21 x31) :
    blank 0x80284002 ⟨t.glb, x1, t.island, t.lds, t.fuses, t.cfg, t.img, t.eps, t.hostLatch, t.hostStage, t.dcq, t.net, t.rma, t.wlg, x14, t.kc, t.sec, t.dig, t.med, x19, t.ecp, x21, t.drc, t.cle, t.flt, t.alm, t.upd, t.nor, t.lz, t.sram, t.hostData, x31, t.freeCtr, t.pending⟩ = blank 0x80284002 t := (rfl)

theorem mk_802C0002 (t : State) (x1 x18 x19 x21 x31) :
    blank 0x802C0002 ⟨t.glb, x1, t.island, t.lds, t.fuses, t.cfg, t.img, t.eps, t.hostLatch, t.hostStage, t.dcq, t.net, t.rma, t.wlg, t.red, t.kc, t.sec, t.dig, x18, x19, t.ecp, x21, t.drc, t.cle, t.flt, t.alm, t.upd, t.nor, t.lz, t.sram, t.hostData, x31, t.freeCtr, t.pending⟩ = blank 0x802C0002 t := (rfl)

theorem mk_80300002 (t : State) (x1 x20 x21 x31) :
    blank 0x80300002 ⟨t.glb, x1, t.island, t.lds, t.fuses, t.cfg, t.img, t.eps, t.hostLatch, t.hostStage, t.dcq, t.net, t.rma, t.wlg, t.red, t.kc, t.sec, t.dig, t.med, t.mmg, x20, x21, t.drc, t.cle, t.flt, t.alm, t.upd, t.nor, t.lz, t.sram, t.hostData, x31, t.freeCtr, t.pending⟩ = blank 0x80300002 t := (rfl)

theorem mk_80304002 (t : State) (x1 x14 x20 x21 x31) :
    blank 0x80304002 ⟨t.glb, x1, t.island, t.lds, t.fuses, t.cfg, t.img, t.eps, t.hostLatch, t.hostStage, t.dcq, t.net, t.rma, t.wlg, x14, t.kc, t.sec, t.dig, t.med, t.mmg, x20, x21, t.drc, t.cle, t.flt, t.alm, t.upd, t.nor, t.lz, t.sram, t.hostData, x31, t.freeCtr, t.pending⟩ = blank 0x80304002 t := (rfl)

theorem mk_80306002 (t : State) (x1 x13 x14 x20 x21 x31) :
    blank 0x80306002 ⟨t.glb, x1, t.island, t.lds, t.fuses, t.cfg, t.img, t.eps, t.hostLatch, t.hostStage, t.dcq, t.net, t.rma, x13, x14, t.kc, t.sec, t.dig, t.med, t.mmg, x20, x21, t.drc, t.cle, t.flt, t.alm, t.upd, t.nor, t.lz, t.sram, t.hostData, x31, t.freeCtr, t.pending⟩ = blank 0x80306002 t := (rfl)

theorem mk_80384002 (t : State) (x1 x14 x19 x20 x21 x31) :
    blank 0x80384002 ⟨t.glb, x1, t.island, t.lds, t.fuses, t.cfg, t.img, t.eps, t.hostLatch, t.hostStage, t.dcq, t.net, t.rma, t.wlg, x14, t.kc, t.sec, t.dig, t.med, x19, x20, x21, t.drc, t.cle, t.flt, t.alm, t.upd, t.nor, t.lz, t.sram, t.hostData, x31, t.freeCtr, t.pending⟩ = blank 0x80384002 t := (rfl)

theorem mk_80400000 (t : State) (x22 x31) :
    blank 0x80400000 ⟨t.glb, t.pwr, t.island, t.lds, t.fuses, t.cfg, t.img, t.eps, t.hostLatch, t.hostStage, t.dcq, t.net, t.rma, t.wlg, t.red, t.kc, t.sec, t.dig, t.med, t.mmg, t.ecp, t.xhl, x22, t.cle, t.flt, t.alm, t.upd, t.nor, t.lz, t.sram, t.hostData, x31, t.freeCtr, t.pending⟩ = blank 0x80400000 t := (rfl)

theorem mk_80800002 (t : State) (x1 x23 x31) :
    blank 0x80800002 ⟨t.glb, x1, t.island, t.lds, t.fuses, t.cfg, t.img, t.eps, t.hostLatch, t.hostStage, t.dcq, t.net, t.rma, t.wlg, t.red, t.kc, t.sec, t.dig, t.med, t.mmg, t.ecp, t.xhl, t.drc, x23, t.flt, t.alm, t.upd, t.nor, t.lz, t.sram, t.hostData, x31, t.freeCtr, t.pending⟩ = blank 0x80800002 t := (rfl)

theorem mk_80800482 (t : State) (x1 x7 x10 x23 x31) :
    blank 0x80800482 ⟨t.glb, x1, t.island, t.lds, t.fuses, t.cfg, t.img, x7, t.hostLatch, t.hostStage, x10, t.net, t.rma, t.wlg, t.red, t.kc, t.sec, t.dig, t.med, t.mmg, t.ecp, t.xhl, t.drc, x23, t.flt, t.alm, t.upd, t.nor, t.lz, t.sram, t.hostData, x31, t.freeCtr, t.pending⟩ = blank 0x80800482 t := (rfl)

theorem mk_80840000 (t : State) (x18 x23 x31) :
    blank 0x80840000 ⟨t.glb, t.pwr, t.island, t.lds, t.fuses, t.cfg, t.img, t.eps, t.hostLatch, t.hostStage, t.dcq, t.net, t.rma, t.wlg, t.red, t.kc, t.sec, t.dig, x18, t.mmg, t.ecp, t.xhl, t.drc, x23, t.flt, t.alm, t.upd, t.nor, t.lz, t.sram, t.hostData, x31, t.freeCtr, t.pending⟩ = blank 0x80840000 t := (rfl)

theorem mk_808C0000 (t : State) (x18 x19 x23 x31) :
    blank 0x808C0000 ⟨t.glb, t.pwr, t.island, t.lds, t.fuses, t.cfg, t.img, t.eps, t.hostLatch, t.hostStage, t.dcq, t.net, t.rma, t.wlg, t.red, t.kc, t.sec, t.dig, x18, x19, t.ecp, t.xhl, t.drc, x23, t.flt, t.alm, t.upd, t.nor, t.lz, t.sram, t.hostData, x31, t.freeCtr, t.pending⟩ = blank 0x808C0000 t := (rfl)

theorem mk_80A00002 (t : State) (x1 x21 x23 x31) :
    blank 0x80A00002 ⟨t.glb, x1, t.island, t.lds, t.fuses, t.cfg, t.img, t.eps, t.hostLatch, t.hostStage, t.dcq, t.net, t.rma, t.wlg, t.red, t.kc, t.sec, t.dig, t.med, t.mmg, t.ecp, x21, t.drc, x23, t.flt, t.alm, t.upd, t.nor, t.lz, t.sram, t.hostData, x31, t.freeCtr, t.pending⟩ = blank 0x80A00002 t := (rfl)

theorem mk_80A00482 (t : State) (x1 x7 x10 x21 x23 x31) :
    blank 0x80A00482 ⟨t.glb, x1, t.island, t.lds, t.fuses, t.cfg, t.img, x7, t.hostLatch, t.hostStage, x10, t.net, t.rma, t.wlg, t.red, t.kc, t.sec, t.dig, t.med, t.mmg, t.ecp, x21, t.drc, x23, t.flt, t.alm, t.upd, t.nor, t.lz, t.sram, t.hostData, x31, t.freeCtr, t.pending⟩ = blank 0x80A00482 t := (rfl)

theorem mk_80BB1682 (t : State) (x1 x7 x9 x10 x12 x16 x17 x19 x20 x21 x23 x31) :
    blank 0x80BB1682 ⟨t.glb, x1, t.island, t.lds, t.fuses, t.cfg, t.img, x7, t.hostLatch, x9, x10, t.net, x12, t.wlg, t.red, t.kc, x16, x17, t.med, x19, x20, x21, t.drc, x23, t.flt, t.alm, t.upd, t.nor, t.lz, t.sram, t.hostData, x31, t.freeCtr, t.pending⟩ = blank 0x80BB1682 t := (rfl)

theorem mk_81000080 (t : State) (x7 x24 x31) :
    blank 0x81000080 ⟨t.glb, t.pwr, t.island, t.lds, t.fuses, t.cfg, t.img, x7, t.hostLatch, t.hostStage, t.dcq, t.net, t.rma, t.wlg, t.red, t.kc, t.sec, t.dig, t.med, t.mmg, t.ecp, t.xhl, t.drc, t.cle, x24, t.alm, t.upd, t.nor, t.lz, t.sram, t.hostData, x31, t.freeCtr, t.pending⟩ = blank 0x81000080 t := (rfl)

theorem mk_81A40887 (t : State) (x0 x1 x2 x7 x11 x18 x21 x23 x24 x31) :
    blank 0x81A40887 ⟨x0, x1, x2, t.lds, t.fuses, t.cfg, t.img, x7, t.hostLatch, t.hostStage, t.dcq, x11, t.rma, t.wlg, t.red, t.kc, t.sec, t.dig, x18, t.mmg, t.ecp, x21, t.drc, x23, x24, t.alm, t.upd, t.nor, t.lz, t.sram, t.hostData, x31, t.freeCtr, t.pending⟩ = blank 0x81A40887 t := (rfl)

theorem mk_83000084 (t : State) (x2 x7 x24 x25 x31) :
    blank 0x83000084 ⟨t.glb, t.pwr, x2, t.lds, t.fuses, t.cfg, t.img, x7, t.hostLatch, t.hostStage, t.dcq, t.net, t.rma, t.wlg, t.red, t.kc, t.sec, t.dig, t.med, t.mmg, t.ecp, t.xhl, t.drc, t.cle, x24, x25, t.upd, t.nor, t.lz, t.sram, t.hostData, x31, t.freeCtr, t.pending⟩ = blank 0x83000084 t := (rfl)

theorem mk_8300088C (t : State) (x2 x3 x7 x11 x24 x25 x31) :
    blank 0x8300088C ⟨t.glb, t.pwr, x2, x3, t.fuses, t.cfg, t.img, x7, t.hostLatch, t.hostStage, t.dcq, x11, t.rma, t.wlg, t.red, t.kc, t.sec, t.dig, t.med, t.mmg, t.ecp, t.xhl, t.drc, t.cle, x24, x25, t.upd, t.nor, t.lz, t.sram, t.hostData, x31, t.freeCtr, t.pending⟩ = blank 0x8300088C t := (rfl)

theorem mk_83204C8E (t : State) (x1 x2 x3 x7 x10 x11 x14 x21 x24 x25 x31) :
    blank 0x83204C8E ⟨t.glb, x1, x2, x3, t.fuses, t.cfg, t.img, x7, t.hostLatch, t.hostStage, x10, x11, t.rma, t.wlg, x14, t.kc, t.sec, t.dig, t.med, t.mmg, t.ecp, x21, t.drc, t.cle, x24, x25, t.upd, t.nor, t.lz, t.sram, t.hostData, x31, t.freeCtr, t.pending⟩ = blank 0x83204C8E t := (rfl)

theorem mk_83204C8F (t : State) (x0 x1 x2 x3 x7 x10 x11 x14 x21 x24 x25 x31) :
    blank 0x83204C8F ⟨x0, x1, x2, x3, t.fuses, t.cfg, t.img, x7, t.hostLatch, t.hostStage, x10, x11, t.rma, t.wlg, x14, t.kc, t.sec, t.dig, t.med, t.mmg, t.ecp, x21, t.drc, t.cle, x24, x25, t.upd, t.nor, t.lz, t.sram, t.hostData, x31, t.freeCtr, t.pending⟩ = blank 0x83204C8F t := (rfl)

theorem mk_83204CAE (t : State) (x1 x2 x3 x5 x7 x10 x11 x14 x21 x24 x25 x31) :
    blank 0x83204CAE ⟨t.glb, x1, x2, x3, t.fuses, x5, t.img, x7, t.hostLatch, t.hostStage, x10, x11, t.rma, t.wlg, x14, t.kc, t.sec, t.dig, t.med, t.mmg, t.ecp, x21, t.drc, t.cle, x24, x25, t.upd, t.nor, t.lz, t.sram, t.hostData, x31, t.freeCtr, t.pending⟩ = blank 0x83204CAE t := (rfl)

theorem mk_83204CAF (t : State) (x0 x1 x2 x3 x5 x7 x10 x11 x14 x21 x24 x25 x31) :
    blank 0x83204CAF ⟨x0, x1, x2, x3, t.fuses, x5, t.img, x7, t.hostLatch, t.hostStage, x10, x11, t.rma, t.wlg, x14, t.kc, t.sec, t.dig, t.med, t.mmg, t.ecp, x21, t.drc, t.cle, x24, x25, t.upd, t.nor, t.lz, t.sram, t.hostData, x31, t.freeCtr, t.pending⟩ = blank 0x83204CAF t := (rfl)

theorem mk_83204E8E (t : State) (x1 x2 x3 x7 x9 x10 x11 x14 x21 x24 x25 x31) :
    blank 0x83204E8E ⟨t.glb, x1, x2, x3, t.fuses, t.cfg, t.img, x7, t.hostLatch, x9, x10, x11, t.rma, t.wlg, x14, t.kc, t.sec, t.dig, t.med, t.mmg, t.ecp, x21, t.drc, t.cle, x24, x25, t.upd, t.nor, t.lz, t.sram, t.hostData, x31, t.freeCtr, t.pending⟩ = blank 0x83204E8E t := (rfl)

theorem mk_83205C8E (t : State) (x1 x2 x3 x7 x10 x11 x12 x14 x21 x24 x25 x31) :
    blank 0x83205C8E ⟨t.glb, x1, x2, x3, t.fuses, t.cfg, t.img, x7, t.hostLatch, t.hostStage, x10, x11, x12, t.wlg, x14, t.kc, t.sec, t.dig, t.med, t.mmg, t.ecp, x21, t.drc, t.cle, x24, x25, t.upd, t.nor, t.lz, t.sram, t.hostData, x31, t.freeCtr, t.pending⟩ = blank 0x83205C8E t := (rfl)

theorem mk_83206C8E (t : State) (x1 x2 x3 x7 x10 x11 x13 x14 x21 x24 x25 x31) :
    blank 0x83206C8E ⟨t.glb, x1, x2, x3, t.fuses, t.cfg, t.img, x7, t.hostLatch, t.hostStage, x10, x11, t.rma, x13, x14, t.kc, t.sec, t.dig, t.med, t.mmg, t.ecp, x21, t.drc, t.cle, x24, x25, t.upd, t.nor, t.lz, t.sram, t.hostData, x31, t.freeCtr, t.pending⟩ = blank 0x83206C8E t := (rfl)

theorem mk_83206C8F (t : State) (x0 x1 x2 x3 x7 x10 x11 x13 x14 x21 x24 x25 x31) :
    blank 0x83206C8F ⟨x0, x1, x2, x3, t.fuses, t.cfg, t.img, x7, t.hostLatch, t.hostStage, x10, x11, t.rma, x13, x14, t.kc, t.sec, t.dig, t.med, t.mmg, t.ecp, x21, t.drc, t.cle, x24, x25, t.upd, t.nor, t.lz, t.sram, t.hostData, x31, t.freeCtr, t.pending⟩ = blank 0x83206C8F t := (rfl)

theorem mk_8320EC8E (t : State) (x1 x2 x3 x7 x10 x11 x13 x14 x15 x21 x24 x25 x31) :
    blank 0x8320EC8E ⟨t.glb, x1, x2, x3, t.fuses, t.cfg, t.img, x7, t.hostLatch, t.hostStage, x10, x11, t.rma, x13, x14, x15, t.sec, t.dig, t.med, t.mmg, t.ecp, x21, t.drc, t.cle, x24, x25, t.upd, t.nor, t.lz, t.sram, t.hostData, x31, t.freeCtr, t.pending⟩ = blank 0x8320EC8E t := (rfl)

theorem mk_83214C8E (t : State) (x1 x2 x3 x7 x10 x11 x14 x16 x21 x24 x25 x31) :
    blank 0x83214C8E ⟨t.glb, x1, x2, x3, t.fuses, t.cfg, t.img, x7, t.hostLatch, t.hostStage, x10, x11, t.rma, t.wlg, x14, t.kc, x16, t.dig, t.med, t.mmg, t.ecp, x21, t.drc, t.cle, x24, x25, t.upd, t.nor, t.lz, t.sram, t.hostData, x31, t.freeCtr, t.pending⟩ = blank 0x83214C8E t := (rfl)

theorem mk_83215C8E (t : State) (x1 x2 x3 x7 x10 x11 x12 x14 x16 x21 x24 x25 x31) :
    blank 0x83215C8E ⟨t.glb, x1, x2, x3, t.fuses, t.cfg, t.img, x7, t.hostLatch, t.hostStage, x10, x11, x12, t.wlg, x14, t.kc, x16, t.dig, t.med, t.mmg, t.ecp, x21, t.drc, t.cle, x24, x25, t.upd, t.nor, t.lz, t.sram, t.hostData, x31, t.freeCtr, t.pending⟩ = blank 0x83215C8E t := (rfl)

theorem mk_83216C8E (t : State) (x1 x2 x3 x7 x10 x11 x13 x14 x16 x21 x24 x25 x31) :
    blank 0x83216C8E ⟨t.glb, x1, x2, x3, t.fuses, t.cfg, t.img, x7, t.hostLatch, t.hostStage, x10, x11, t.rma, x13, x14, t.kc, x16, t.dig, t.med, t.mmg, t.ecp, x21, t.drc, t.cle, x24, x25, t.upd, t.nor, t.lz, t.sram, t.hostData, x31, t.freeCtr, t.pending⟩ = blank 0x83216C8E t := (rfl)

theorem mk_83224C8E (t : State) (x1 x2 x3 x7 x10 x11 x14 x17 x21 x24 x25 x31) :
    blank 0x83224C8E ⟨t.glb, x1, x2, x3, t.fuses, t.cfg, t.img, x7, t.hostLatch, t.hostStage, x10, x11, t.rma, t.wlg, x14, t.kc, t.sec, x17, t.med, t.mmg, t.ecp, x21, t.drc, t.cle, x24, x25, t.upd, t.nor, t.lz, t.sram, t.hostData, x31, t.freeCtr, t.pending⟩ = blank 0x83224C8E t := (rfl)

theorem mk_83226C8E (t : State) (x1 x2 x3 x7 x10 x11 x13 x14 x17 x21 x24 x25 x31) :
    blank 0x83226C8E ⟨t.glb, x1, x2, x3, t.fuses, t.cfg, t.img, x7, t.hostLatch, t.hostStage, x10, x11, t.rma, x13, x14, t.kc, t.sec, x17, t.med, t.mmg, t.ecp, x21, t.drc, t.cle, x24, x25, t.upd, t.nor, t.lz, t.sram, t.hostData, x31, t.freeCtr, t.pending⟩ = blank 0x83226C8E t := (rfl)

theorem mk_83244C8E (t : State) (x1 x2 x3 x7 x10 x11 x14 x18 x21 x24 x25 x31) :
    blank 0x83244C8E ⟨t.glb, x1, x2, x3, t.fuses, t.cfg, t.img, x7, t.hostLatch, t.hostStage, x10, x11, t.rma, t.wlg, x14, t.kc, t.sec, t.dig, x18, t.mmg, t.ecp, x21, t.drc, t.cle, x24, x25, t.upd, t.nor, t.lz, t.sram, t.hostData, x31, t.freeCtr, t.pending⟩ = blank 0x83244C8E t := (rfl)

theorem mk_83244C8F (t : State) (x0 x1 x2 x3 x7 x10 x11 x14 x18 x21 x24 x25 x31) :
    blank 0x83244C8F ⟨x0, x1, x2, x3, t.fuses, t.cfg, t.img, x7, t.hostLatch, t.hostStage, x10, x11, t.rma, t.wlg, x14, t.kc, t.sec, t.dig, x18, t.mmg, t.ecp, x21, t.drc, t.cle, x24, x25, t.upd, t.nor, t.lz, t.sram, t.hostData, x31, t.freeCtr, t.pending⟩ = blank 0x83244C8F t := (rfl)

theorem mk_83246C8F (t : State) (x0 x1 x2 x3 x7 x10 x11 x13 x14 x18 x21 x24 x25 x31) :
    blank 0x83246C8F ⟨x0, x1, x2, x3, t.fuses, t.cfg, t.img, x7, t.hostLatch, t.hostStage, x10, x11, t.rma, x13, x14, t.kc, t.sec, t.dig, x18, t.mmg, t.ecp, x21, t.drc, t.cle, x24, x25, t.upd, t.nor, t.lz, t.sram, t.hostData, x31, t.freeCtr, t.pending⟩ = blank 0x83246C8F t := (rfl)

theorem mk_83284C8E (t : State) (x1 x2 x3 x7 x10 x11 x14 x19 x21 x24 x25 x31) :
    blank 0x83284C8E ⟨t.glb, x1, x2, x3, t.fuses, t.cfg, t.img, x7, t.hostLatch, t.hostStage, x10, x11, t.rma, t.wlg, x14, t.kc, t.sec, t.dig, t.med, x19, t.ecp, x21, t.drc, t.cle, x24, x25, t.upd, t.nor, t.lz, t.sram, t.hostData, x31, t.freeCtr, t.pending⟩ = blank 0x83284C8E t := (rfl)

theorem mk_83284C8F (t : State) (x0 x1 x2 x3 x7 x10 x11 x14 x19 x21 x24 x25 x31) :
    blank 0x83284C8F ⟨x0, x1, x2, x3, t.fuses, t.cfg, t.img, x7, t.hostLatch, t.hostStage, x10, x11, t.rma, t.wlg, x14, t.kc, t.sec, t.dig, t.med, x19, t.ecp, x21, t.drc, t.cle, x24, x25, t.upd, t.nor, t.lz, t.sram, t.hostData, x31, t.freeCtr, t.pending⟩ = blank 0x83284C8F t := (rfl)

theorem mk_83294C8E (t : State) (x1 x2 x3 x7 x10 x11 x14 x16 x19 x21 x24 x25 x31) :
    blank 0x83294C8E ⟨t.glb, x1, x2, x3, t.fuses, t.cfg, t.img, x7, t.hostLatch, t.hostStage, x10, x11, t.rma, t.wlg, x14, t.kc, x16, t.dig, t.med, x19, t.ecp, x21, t.drc, t.cle, x24, x25, t.upd, t.nor, t.lz, t.sram, t.hostData, x31, t.freeCtr, t.pending⟩ = blank 0x83294C8E t := (rfl)

theorem mk_83295C8E (t : State) (x1 x2 x3 x7 x10 x11 x12 x14 x16 x19 x21 x24 x25 x31) :
    blank 0x83295C8E ⟨t.glb, x1, x2, x3, t.fuses, t.cfg, t.img, x7, t.hostLatch, t.hostStage, x10, x11, x12, t.wlg, x14, t.kc, x16, t.dig, t.med, x19, t.ecp, x21, t.drc, t.cle, x24, x25, t.upd, t.nor, t.lz, t.sram, t.hostData, x31, t.freeCtr, t.pending⟩ = blank 0x83295C8E t := (rfl)

theorem mk_83304C8E (t : State) (x1 x2 x3 x7 x10 x11 x14 x20 x21 x24 x25 x31) :
    blank 0x83304C8E ⟨t.glb, x1, x2, x3, t.fuses, t.cfg, t.img, x7, t.hostLatch, t.hostStage, x10, x11, t.rma, t.wlg, x14, t.kc, t.sec, t.dig, t.med, t.mmg, x20, x21, t.drc, t.cle, x24, x25, t.upd, t.nor, t.lz, t.sram, t.hostData, x31, t.freeCtr, t.pending⟩ = blank 0x83304C8E t := (rfl)

theorem mk_83384C8E (t : State) (x1 x2 x3 x7 x10 x11 x14 x19 x20 x21 x24 x25 x31) :
    blank 0x83384C8E ⟨t.glb, x1, x2, x3, t.fuses, t.cfg, t.img, x7, t.hostLatch, t.hostStage, x10, x11, t.rma, t.wlg, x14, t.kc, t.sec, t.dig, t.med, x19, x20, x21, t.drc, t.cle, x24, x25, t.upd, t.nor, t.lz, t.sram, t.hostData, x31, t.freeCtr, t.pending⟩ = blank 0x83384C8E t := (rfl)

theorem mk_83385C8E (t : State) (x1 x2 x3 x7 x10 x11 x12 x14 x19 x20 x21 x24 x25 x31) :
    blank 0x83385C8E ⟨t.glb, x1, x2, x3, t.fuses, t.cfg, t.img, x7, t.hostLatch, t.hostStage, x10, x11, x12, t.wlg, x14, t.kc, t.sec, t.dig, t.med, x19, x20, x21, t.drc, t.cle, x24, x25, t.upd, t.nor, t.lz, t.sram, t.hostData, x31, t.freeCtr, t.pending⟩ = blank 0x83385C8E t := (rfl)

theorem mk_83386C8E (t : State) (x1 x2 x3 x7 x10 x11 x13 x14 x19 x20 x21 x24 x25 x31) :
    blank 0x83386C8E ⟨t.glb, x1, x2, x3, t.fuses, t.cfg, t.img, x7, t.hostLatch, t.hostStage, x10, x11, t.rma, x13, x14, t.kc, t.sec, t.dig, t.med, x19, x20, x21, t.drc, t.cle, x24, x25, t.upd, t.nor, t.lz, t.sram, t.hostData, x31, t.freeCtr, t.pending⟩ = blank 0x83386C8E t := (rfl)

theorem mk_83396C8E (t : State) (x1 x2 x3 x7 x10 x11 x13 x14 x16 x19 x20 x21 x24 x25 x31) :
    blank 0x83396C8E ⟨t.glb, x1, x2, x3, t.fuses, t.cfg, t.img, x7, t.hostLatch, t.hostStage, x10, x11, t.rma, x13, x14, t.kc, x16, t.dig, t.med, x19, x20, x21, t.drc, t.cle, x24, x25, t.upd, t.nor, t.lz, t.sram, t.hostData, x31, t.freeCtr, t.pending⟩ = blank 0x83396C8E t := (rfl)

theorem mk_83396C8F (t : State) (x0 x1 x2 x3 x7 x10 x11 x13 x14 x16 x19 x20 x21 x24 x25 x31) :
    blank 0x83396C8F ⟨x0, x1, x2, x3, t.fuses, t.cfg, t.img, x7, t.hostLatch, t.hostStage, x10, x11, t.rma, x13, x14, t.kc, x16, t.dig, t.med, x19, x20, x21, t.drc, t.cle, x24, x25, t.upd, t.nor, t.lz, t.sram, t.hostData, x31, t.freeCtr, t.pending⟩ = blank 0x83396C8F t := (rfl)

theorem mk_833C4C8E (t : State) (x1 x2 x3 x7 x10 x11 x14 x18 x19 x20 x21 x24 x25 x31) :
    blank 0x833C4C8E ⟨t.glb, x1, x2, x3, t.fuses, t.cfg, t.img, x7, t.hostLatch, t.hostStage, x10, x11, t.rma, t.wlg, x14, t.kc, t.sec, t.dig, x18, x19, x20, x21, t.drc, t.cle, x24, x25, t.upd, t.nor, t.lz, t.sram, t.hostData, x31, t.freeCtr, t.pending⟩ = blank 0x833C4C8E t := (rfl)

theorem mk_833C6C8E (t : State) (x1 x2 x3 x7 x10 x11 x13 x14 x18 x19 x20 x21 x24 x25 x31) :
    blank 0x833C6C8E ⟨t.glb, x1, x2, x3, t.fuses, t.cfg, t.img, x7, t.hostLatch, t.hostStage, x10, x11, t.rma, x13, x14, t.kc, t.sec, t.dig, x18, x19, x20, x21, t.drc, t.cle, x24, x25, t.upd, t.nor, t.lz, t.sram, t.hostData, x31, t.freeCtr, t.pending⟩ = blank 0x833C6C8E t := (rfl)

theorem mk_83604C8E (t : State) (x1 x2 x3 x7 x10 x11 x14 x21 x22 x24 x25 x31) :
    blank 0x83604C8E ⟨t.glb, x1, x2, x3, t.fuses, t.cfg, t.img, x7, t.hostLatch, t.hostStage, x10, x11, t.rma, t.wlg, x14, t.kc, t.sec, t.dig, t.med, t.mmg, t.ecp, x21, x22, t.cle, x24, x25, t.upd, t.nor, t.lz, t.sram, t.hostData, x31, t.freeCtr, t.pending⟩ = blank 0x83604C8E t := (rfl)

theorem mk_83A04C8E (t : State) (x1 x2 x3 x7 x10 x11 x14 x21 x23 x24 x25 x31) :
    blank 0x83A04C8E ⟨t.glb, x1, x2, x3, t.fuses, t.cfg, t.img, x7, t.hostLatch, t.hostStage, x10, x11, t.rma, t.wlg, x14, t.kc, t.sec, t.dig, t.med, t.mmg, t.ecp, x21, t.drc, x23, x24, x25, t.upd, t.nor, t.lz, t.sram, t.hostData, x31, t.freeCtr, t.pending⟩ = blank 0x83A04C8E t := (rfl)

theorem mk_83A26C8E (t : State) (x1 x2 x3 x7 x10 x11 x13 x14 x17 x21 x23 x24 x25 x31) :
    blank 0x83A26C8E ⟨t.glb, x1, x2, x3, t.fuses, t.cfg, t.img, x7, t.hostLatch, t.hostStage, x10, x11, t.rma, x13, x14, t.kc, t.sec, x17, t.med, t.mmg, t.ecp, x21, t.drc, x23, x24, x25, t.upd, t.nor, t.lz, t.sram, t.hostData, x31, t.freeCtr, t.pending⟩ = blank 0x83A26C8E t := (rfl)

theorem mk_83A26E8E (t : State) (x1 x2 x3 x7 x9 x10 x11 x13 x14 x17 x21 x23 x24 x25 x31) :
    blank 0x83A26E8E ⟨t.glb, x1, x2, x3, t.fuses, t.cfg, t.img, x7, t.hostLatch, x9, x10, x11, t.rma, x13, x14, t.kc, t.sec, x17, t.med, t.mmg, t.ecp, x21, t.drc, x23, x24, x25, t.upd, t.nor, t.lz, t.sram, t.hostData, x31, t.freeCtr, t.pending⟩ = blank 0x83A26E8E t := (rfl)

theorem mk_83A44C8E (t : State) (x1 x2 x3 x7 x10 x11 x14 x18 x21 x23 x24 x25 x31) :
    blank 0x83A44C8E ⟨t.glb, x1, x2, x3, t.fuses, t.cfg, t.img, x7, t.hostLatch, t.hostStage, x10, x11, t.rma, t.wlg, x14, t.kc, t.sec, t.dig, x18, t.mmg, t.ecp, x21, t.drc, x23, x24, x25, t.upd, t.nor, t.lz, t.sram, t.hostData, x31, t.freeCtr, t.pending⟩ = blank 0x83A44C8E t := (rfl)

theorem mk_83BB7E8E (t : State) (x1 x2 x3 x7 x9 x10 x11 x12 x13 x14 x16 x17 x19 x20 x21 x23 x24 x25 x31) :
    blank 0x83BB7E8E ⟨t.glb, x1, x2, x3, t.fuses, t.cfg, t.img, x7, t.hostLatch, x9, x10, x11, x12, x13, x14, t.kc, x16, x17, t.med, x19, x20, x21, t.drc, x23, x24, x25, t.upd, t.nor, t.lz, t.sram, t.hostData, x31, t.freeCtr, t.pending⟩ = blank 0x83BB7E8E t := (rfl)

theorem mk_83BC4C8E (t : State) (x1 x2 x3 x7 x10 x11 x14 x18 x19 x20 x21 x23 x24 x25 x31) :
    blank 0x83BC4C8E ⟨t.glb, x1, x2, x3, t.fuses, t.cfg, t.img, x7, t.hostLatch, t.hostStage, x10, x11, t.rma, t.wlg, x14, t.kc, t.sec, t.dig, x18, x19, x20, x21, t.drc, x23, x24, x25, t.upd, t.nor, t.lz, t.sram, t.hostData, x31, t.freeCtr, t.pending⟩ = blank 0x83BC4C8E t := (rfl)

theorem mk_83E46CCE (t : State) (x1 x2 x3 x6 x7 x10 x11 x13 x14 x18 x21 x22 x23 x24 x25 x31) :
    blank 0x83E46CCE ⟨t.glb, x1, x2, x3, t.fuses, t.cfg, x6, x7, t.hostLatch, t.hostStage, x10, x11, t.rma, x13, x14, t.kc, t.sec, t.dig, x18, t.mmg, t.ecp, x21, x22, x23, x24, x25, t.upd, t.nor, t.lz, t.sram, t.hostData, x31, t.freeCtr, t.pending⟩ = blank 0x83E46CCE t := (rfl)

theorem mk_87204C8E (t : State) (x1 x2 x3 x7 x10 x11 x14 x21 x24 x25 x26 x31) :
    blank 0x87204C8E ⟨t.glb, x1, x2, x3, t.fuses, t.cfg, t.img, x7, t.hostLatch, t.hostStage, x10, x11, t.rma, t.wlg, x14, t.kc, t.sec, t.dig, t.med, t.mmg, t.ecp, x21, t.drc, t.cle, x24, x25, x26, t.nor, t.lz, t.sram, t.hostData, x31, t.freeCtr, t.pending⟩ = blank 0x87204C8E t := (rfl)

theorem mk_87204C8F (t : State) (x0 x1 x2 x3 x7 x10 x11 x14 x21 x24 x25 x26 x31) :
    blank 0x87204C8F ⟨x0, x1, x2, x3, t.fuses, t.cfg, t.img, x7, t.hostLatch, t.hostStage, x10, x11, t.rma, t.wlg, x14, t.kc, t.sec, t.dig, t.med, t.mmg, t.ecp, x21, t.drc, t.cle, x24, x25, x26, t.nor, t.lz, t.sram, t.hostData, x31, t.freeCtr, t.pending⟩ = blank 0x87204C8F t := (rfl)

theorem mk_87304C8E (t : State) (x1 x2 x3 x7 x10 x11 x14 x20 x21 x24 x25 x26 x31) :
    blank 0x87304C8E ⟨t.glb, x1, x2, x3, t.fuses, t.cfg, t.img, x7, t.hostLatch, t.hostStage, x10, x11, t.rma, t.wlg, x14, t.kc, t.sec, t.dig, t.med, t.mmg, x20, x21, t.drc, t.cle, x24, x25, x26, t.nor, t.lz, t.sram, t.hostData, x31, t.freeCtr, t.pending⟩ = blank 0x87304C8E t := (rfl)

theorem mk_87384C8E (t : State) (x1 x2 x3 x7 x10 x11 x14 x19 x20 x21 x24 x25 x26 x31) :
    blank 0x87384C8E ⟨t.glb, x1, x2, x3, t.fuses, t.cfg, t.img, x7, t.hostLatch, t.hostStage, x10, x11, t.rma, t.wlg, x14, t.kc, t.sec, t.dig, t.med, x19, x20, x21, t.drc, t.cle, x24, x25, x26, t.nor, t.lz, t.sram, t.hostData, x31, t.freeCtr, t.pending⟩ = blank 0x87384C8E t := (rfl)

theorem mk_87784C8F (t : State) (x0 x1 x2 x3 x7 x10 x11 x14 x19 x20 x21 x22 x24 x25 x26 x31) :
    blank 0x87784C8F ⟨x0, x1, x2, x3, t.fuses, t.cfg, t.img, x7, t.hostLatch, t.hostStage, x10, x11, t.rma, t.wlg, x14, t.kc, t.sec, t.dig, t.med, x19, x20, x21, x22, t.cle, x24, x25, x26, t.nor, t.lz, t.sram, t.hostData, x31, t.freeCtr, t.pending⟩ = blank 0x87784C8F t := (rfl)

theorem mk_877D7C8F (t : State) (x0 x1 x2 x3 x7 x10 x11 x12 x13 x14 x16 x18 x19 x20 x21 x22 x24 x25 x26 x31) :
    blank 0x877D7C8F ⟨x0, x1, x2, x3, t.fuses, t.cfg, t.img, x7, t.hostLatch, t.hostStage, x10, x11, x12, x13, x14, t.kc, x16, t.dig, x18, x19, x20, x21, x22, t.cle, x24, x25, x26, t.nor, t.lz, t.sram, t.hostData, x31, t.freeCtr, t.pending⟩ = blank 0x877D7C8F t := (rfl)

theorem mk_8B204C8E (t : State) (x1 x2 x3 x7 x10 x11 x14 x21 x24 x25 x27 x31) :
    blank 0x8B204C8E ⟨t.glb, x1, x2, x3, t.fuses, t.cfg, t.img, x7, t.hostLatch, t.hostStage, x10, x11, t.rma, t.wlg, x14, t.kc, t.sec, t.dig, t.med, t.mmg, t.ecp, x21, t.drc, t.cle, x24, x25, t.upd, x27, t.lz, t.sram, t.hostData, x31, t.freeCtr, t.pending⟩ = blank 0x8B204C8E t := (rfl)

theorem mk_8B204CAE (t : State) (x1 x2 x3 x5 x7 x10 x11 x14 x21 x24 x25 x27 x31) :
    blank 0x8B204CAE ⟨t.glb, x1, x2, x3, t.fuses, x5, t.img, x7, t.hostLatch, t.hostStage, x10, x11, t.rma, t.wlg, x14, t.kc, t.sec, t.dig, t.med, t.mmg, t.ecp, x21, t.drc, t.cle, x24, x25, t.upd, x27, t.lz, t.sram, t.hostData, x31, t.freeCtr, t.pending⟩ = blank 0x8B204CAE t := (rfl)

theorem mk_8B204CBE (t : State) (x1 x2 x3 x4 x5 x7 x10 x11 x14 x21 x24 x25 x27 x31) :
    blank 0x8B204CBE ⟨t.glb, x1, x2, x3, x4, x5, t.img, x7, t.hostLatch, t.hostStage, x10, x11, t.rma, t.wlg, x14, t.kc, t.sec, t.dig, t.med, t.mmg, t.ecp, x21, t.drc, t.cle, x24, x25, t.upd, x27, t.lz, t.sram, t.hostData, x31, t.freeCtr, t.pending⟩ = blank 0x8B204CBE t := (rfl)

theorem mk_8B3C6C8E (t : State) (x1 x2 x3 x7 x10 x11 x13 x14 x18 x19 x20 x21 x24 x25 x27 x31) :
    blank 0x8B3C6C8E ⟨t.glb, x1, x2, x3, t.fuses, t.cfg, t.img, x7, t.hostLatch, t.hostStage, x10, x11, t.rma, x13, x14, t.kc, t.sec, t.dig, x18, x19, x20, x21, t.drc, t.cle, x24, x25, t.upd, x27, t.lz, t.sram, t.hostData, x31, t.freeCtr, t.pending⟩ = blank 0x8B3C6C8E t := (rfl)

theorem mk_8BB06C8F (t : State) (x0 x1 x2 x3 x7 x10 x11 x13 x14 x20 x21 x23 x24 x25 x27 x31) :
    blank 0x8BB06C8F ⟨x0, x1, x2, x3, t.fuses, t.cfg, t.img, x7, t.hostLatch, t.hostStage, x10, x11, t.rma, x13, x14, t.kc, t.sec, t.dig, t.med, t.mmg, x20, x21, t.drc, x23, x24, x25, t.upd, x27, t.lz, t.sram, t.hostData, x31, t.freeCtr, t.pending⟩ = blank 0x8BB06C8F t := (rfl)

theorem mk_8F204CBE (t : State) (x1 x2 x3 x4 x5 x7 x10 x11 x14 x21 x24 x25 x26 x27 x31) :
    blank 0x8F204CBE ⟨t.glb, x1, x2, x3, x4, x5, t.img, x7, t.hostLatch, t.hostStage, x10, x11, t.rma, t.wlg, x14, t.kc, t.sec, t.dig, t.med, t.mmg, t.ecp, x21, t.drc, t.cle, x24, x25, x26, x27, t.lz, t.sram, t.hostData, x31, t.freeCtr, t.pending⟩ = blank 0x8F204CBE t := (rfl)

theorem mk_8F206CAF (t : State) (x0 x1 x2 x3 x5 x7 x10 x11 x13 x14 x21 x24 x25 x26 x27 x31) :
    blank 0x8F206CAF ⟨x0, x1, x2, x3, t.fuses, x5, t.img, x7, t.hostLatch, t.hostStage, x10, x11, t.rma, x13, x14, t.kc, t.sec, t.dig, t.med, t.mmg, t.ecp, x21, t.drc, t.cle, x24, x25, x26, x27, t.lz, t.sram, t.hostData, x31, t.freeCtr, t.pending⟩ = blank 0x8F206CAF t := (rfl)

theorem mk_8F216CAF (t : State) (x0 x1 x2 x3 x5 x7 x10 x11 x13 x14 x16 x21 x24 x25 x26 x27 x31) :
    blank 0x8F216CAF ⟨x0, x1, x2, x3, t.fuses, x5, t.img, x7, t.hostLatch, t.hostStage, x10, x11, t.rma, x13, x14, t.kc, x16, t.dig, t.med, t.mmg, t.ecp, x21, t.drc, t.cle, x24, x25, x26, x27, t.lz, t.sram, t.hostData, x31, t.freeCtr, t.pending⟩ = blank 0x8F216CAF t := (rfl)

theorem mk_8F3D6CAF (t : State) (x0 x1 x2 x3 x5 x7 x10 x11 x13 x14 x16 x18 x19 x20 x21 x24 x25 x26 x27 x31) :
    blank 0x8F3D6CAF ⟨x0, x1, x2, x3, t.fuses, x5, t.img, x7, t.hostLatch, t.hostStage, x10, x11, t.rma, x13, x14, t.kc, x16, t.dig, x18, x19, x20, x21, t.drc, t.cle, x24, x25, x26, x27, t.lz, t.sram, t.hostData, x31, t.freeCtr, t.pending⟩ = blank 0x8F3D6CAF t := (rfl)

theorem mk_8F3DECAF (t : State) (x0 x1 x2 x3 x5 x7 x10 x11 x13 x14 x15 x16 x18 x19 x20 x21 x24 x25 x26 x27 x31) :
    blank 0x8F3DECAF ⟨x0, x1, x2, x3, t.fuses, x5, t.img, x7, t.hostLatch, t.hostStage, x10, x11, t.rma, x13, x14, x15, x16, t.dig, x18, x19, x20, x21, t.drc, t.cle, x24, x25, x26, x27, t.lz, t.sram, t.hostData, x31, t.freeCtr, t.pending⟩ = blank 0x8F3DECAF t := (rfl)

theorem mk_8F3DFCAF (t : State) (x0 x1 x2 x3 x5 x7 x10 x11 x12 x13 x14 x15 x16 x18 x19 x20 x21 x24 x25 x26 x27 x31) :
    blank 0x8F3DFCAF ⟨x0, x1, x2, x3, t.fuses, x5, t.img, x7, t.hostLatch, t.hostStage, x10, x11, x12, x13, x14, x15, x16, t.dig, x18, x19, x20, x21, t.drc, t.cle, x24, x25, x26, x27, t.lz, t.sram, t.hostData, x31, t.freeCtr, t.pending⟩ = blank 0x8F3DFCAF t := (rfl)

theorem mk_8F62ECAF (t : State) (x0 x1 x2 x3 x5 x7 x10 x11 x13 x14 x15 x17 x21 x22 x24 x25 x26 x27 x31) :
    blank 0x8F62ECAF ⟨x0, x1, x2, x3, t.fuses, x5, t.img, x7, t.hostLatch, t.hostStage, x10, x11, t.rma, x13, x14, x15, t.sec, x17, t.med, t.mmg, t.ecp, x21, x22, t.cle, x24, x25, x26, x27, t.lz, t.sram, t.hostData, x31, t.freeCtr, t.pending⟩ = blank 0x8F62ECAF t := (rfl)

theorem mk_8FFFFCAF (t : State) (x0 x1 x2 x3 x5 x7 x10 x11 x12 x13 x14 x15 x16 x17 x18 x19 x20 x21 x22 x23 x24 x25 x26 x27 x31) :
    blank 0x8FFFFCAF ⟨x0, x1, x2, x3, t.fuses, x5, t.img, x7, t.hostLatch, t.hostStage, x10, x11, x12, x13, x14, x15, x16, x17, x18, x19, x20, x21, x22, x23, x24, x25, x26, x27, t.lz, t.sram, t.hostData, x31, t.freeCtr, t.pending⟩ = blank 0x8FFFFCAF t := (rfl)

theorem mk_90200082 (t : State) (x1 x7 x21 x28 x31) :
    blank 0x90200082 ⟨t.glb, x1, t.island, t.lds, t.fuses, t.cfg, t.img, x7, t.hostLatch, t.hostStage, t.dcq, t.net, t.rma, t.wlg, t.red, t.kc, t.sec, t.dig, t.med, t.mmg, t.ecp, x21, t.drc, t.cle, t.flt, t.alm, t.upd, t.nor, x28, t.sram, t.hostData, x31, t.freeCtr, t.pending⟩ = blank 0x90200082 t := (rfl)

theorem mk_93204C8E (t : State) (x1 x2 x3 x7 x10 x11 x14 x21 x24 x25 x28 x31) :
    blank 0x93204C8E ⟨t.glb, x1, x2, x3, t.fuses, t.cfg, t.img, x7, t.hostLatch, t.hostStage, x10, x11, t.rma, t.wlg, x14, t.kc, t.sec, t.dig, t.med, t.mmg, t.ecp, x21, t.drc, t.cle, x24, x25, t.upd, t.nor, x28, t.sram, t.hostData, x31, t.freeCtr, t.pending⟩ = blank 0x93204C8E t := (rfl)

theorem mk_93606C8F (t : State) (x0 x1 x2 x3 x7 x10 x11 x13 x14 x21 x22 x24 x25 x28 x31) :
    blank 0x93606C8F ⟨x0, x1, x2, x3, t.fuses, t.cfg, t.img, x7, t.hostLatch, t.hostStage, x10, x11, t.rma, x13, x14, t.kc, t.sec, t.dig, t.med, t.mmg, t.ecp, x21, x22, t.cle, x24, x25, t.upd, t.nor, x28, t.sram, t.hostData, x31, t.freeCtr, t.pending⟩ = blank 0x93606C8F t := (rfl)

theorem mk_9F3DECAF (t : State) (x0 x1 x2 x3 x5 x7 x10 x11 x13 x14 x15 x16 x18 x19 x20 x21 x24 x25 x26 x27 x28 x31) :
    blank 0x9F3DECAF ⟨x0, x1, x2, x3, t.fuses, x5, t.img, x7, t.hostLatch, t.hostStage, x10, x11, t.rma, x13, x14, x15, x16, t.dig, x18, x19, x20, x21, t.drc, t.cle, x24, x25, x26, x27, x28, t.sram, t.hostData, x31, t.freeCtr, t.pending⟩ = blank 0x9F3DECAF t := (rfl)

theorem mk_9F3FECAF (t : State) (x0 x1 x2 x3 x5 x7 x10 x11 x13 x14 x15 x16 x17 x18 x19 x20 x21 x24 x25 x26 x27 x28 x31) :
    blank 0x9F3FECAF ⟨x0, x1, x2, x3, t.fuses, x5, t.img, x7, t.hostLatch, t.hostStage, x10, x11, t.rma, x13, x14, x15, x16, x17, x18, x19, x20, x21, t.drc, t.cle, x24, x25, x26, x27, x28, t.sram, t.hostData, x31, t.freeCtr, t.pending⟩ = blank 0x9F3FECAF t := (rfl)

theorem mk_9F3FFCAF (t : State) (x0 x1 x2 x3 x5 x7 x10 x11 x12 x13 x14 x15 x16 x17 x18 x19 x20 x21 x24 x25 x26 x27 x28 x31) :
    blank 0x9F3FFCAF ⟨x0, x1, x2, x3, t.fuses, x5, t.img, x7, t.hostLatch, t.hostStage, x10, x11, x12, x13, x14, x15, x16, x17, x18, x19, x20, x21, t.drc, t.cle, x24, x25, x26, x27, x28, t.sram, t.hostData, x31, t.freeCtr, t.pending⟩ = blank 0x9F3FFCAF t := (rfl)

theorem mk_B0810482 (t : State) (x1 x7 x10 x16 x23 x28 x29 x31) :
    blank 0xB0810482 ⟨t.glb, x1, t.island, t.lds, t.fuses, t.cfg, t.img, x7, t.hostLatch, t.hostStage, x10, t.net, t.rma, t.wlg, t.red, t.kc, x16, t.dig, t.med, t.mmg, t.ecp, t.xhl, t.drc, x23, t.flt, t.alm, t.upd, t.nor, x28, x29, t.hostData, x31, t.freeCtr, t.pending⟩ = blank 0xB0810482 t := (rfl)

theorem mk_B0814482 (t : State) (x1 x7 x10 x14 x16 x23 x28 x29 x31) :
    blank 0xB0814482 ⟨t.glb, x1, t.island, t.lds, t.fuses, t.cfg, t.img, x7, t.hostLatch, t.hostStage, x10, t.net, t.rma, t.wlg, x14, t.kc, x16, t.dig, t.med, t.mmg, t.ecp, t.xhl, t.drc, x23, t.flt, t.alm, t.upd, t.nor, x28, x29, t.hostData, x31, t.freeCtr, t.pending⟩ = blank 0xB0814482 t := (rfl)

theorem mk_B08144B2 (t : State) (x1 x4 x5 x7 x10 x14 x16 x23 x28 x29 x31) :
    blank 0xB08144B2 ⟨t.glb, x1, t.island, t.lds, x4, x5, t.img, x7, t.hostLatch, t.hostStage, x10, t.net, t.rma, t.wlg, x14, t.kc, x16, t.dig, t.med, t.mmg, t.ecp, t.xhl, t.drc, x23, t.flt, t.alm, t.upd, t.nor, x28, x29, t.hostData, x31, t.freeCtr, t.pending⟩ = blank 0xB08144B2 t := (rfl)

theorem mk_B3A34C8E (t : State) (x1 x2 x3 x7 x10 x11 x14 x16 x17 x21 x23 x24 x25 x28 x29 x31) :
    blank 0xB3A34C8E ⟨t.glb, x1, x2, x3, t.fuses, t.cfg, t.img, x7, t.hostLatch, t.hostStage, x10, x11, t.rma, t.wlg, x14, t.kc, x16, x17, t.med, t.mmg, t.ecp, x21, t.drc, x23, x24, x25, t.upd, t.nor, x28, x29, t.hostData, x31, t.freeCtr, t.pending⟩ = blank 0xB3A34C8E t := (rfl)

theorem mk_BBA14CBE (t : State) (x1 x2 x3 x4 x5 x7 x10 x11 x14 x16 x21 x23 x24 x25 x27 x28 x29 x31) :
    blank 0xBBA14CBE ⟨t.glb, x1, x2, x3, x4, x5, t.img, x7, t.hostLatch, t.hostStage, x10, x11, t.rma, t.wlg, x14, t.kc, x16, t.dig, t.med, t.mmg, t.ecp, x21, t.drc, x23, x24, x25, t.upd, x27, x28, x29, t.hostData, x31, t.freeCtr, t.pending⟩ = blank 0xBBA14CBE t := (rfl)

theorem mk_BFA36CAF (t : State) (x0 x1 x2 x3 x5 x7 x10 x11 x13 x14 x16 x17 x21 x23 x24 x25 x26 x27 x28 x29 x31) :
    blank 0xBFA36CAF ⟨x0, x1, x2, x3, t.fuses, x5, t.img, x7, t.hostLatch, t.hostStage, x10, x11, t.rma, x13, x14, t.kc, x16, x17, t.med, t.mmg, t.ecp, x21, t.drc, x23, x24, x25, x26, x27, x28, x29, t.hostData, x31, t.freeCtr, t.pending⟩ = blank 0xBFA36CAF t := (rfl)

theorem mk_BFFFFFFF (t : State) (x0 x1 x2 x3 x4 x5 x6 x7 x8 x9 x10 x11 x12 x13 x14 x15 x16 x17 x18 x19 x20 x21 x22 x23 x24 x25 x26 x27 x28 x29 x31) :
    blank 0xBFFFFFFF ⟨x0, x1, x2, x3, x4, x5, x6, x7, x8, x9, x10, x11, x12, x13, x14, x15, x16, x17, x18, x19, x20, x21, x22, x23, x24, x25, x26, x27, x28, x29, t.hostData, x31, t.freeCtr, t.pending⟩ = blank 0xBFFFFFFF t := (rfl)

theorem mk_C0000000 (t : State) (x30 x31) :
    blank 0xC0000000 ⟨t.glb, t.pwr, t.island, t.lds, t.fuses, t.cfg, t.img, t.eps, t.hostLatch, t.hostStage, t.dcq, t.net, t.rma, t.wlg, t.red, t.kc, t.sec, t.dig, t.med, t.mmg, t.ecp, t.xhl, t.drc, t.cle, t.flt, t.alm, t.upd, t.nor, t.lz, t.sram, x30, x31, t.freeCtr, t.pending⟩ = blank 0xC0000000 t := (rfl)

theorem mk_C0000080 (t : State) (x7 x30 x31) :
    blank 0xC0000080 ⟨t.glb, t.pwr, t.island, t.lds, t.fuses, t.cfg, t.img, x7, t.hostLatch, t.hostStage, t.dcq, t.net, t.rma, t.wlg, t.red, t.kc, t.sec, t.dig, t.med, t.mmg, t.ecp, t.xhl, t.drc, t.cle, t.flt, t.alm, t.upd, t.nor, t.lz, t.sram, x30, x31, t.freeCtr, t.pending⟩ = blank 0xC0000080 t := (rfl)

theorem mk_C0000100 (t : State) (x8 x30 x31) :
    blank 0xC0000100 ⟨t.glb, t.pwr, t.island, t.lds, t.fuses, t.cfg, t.img, t.eps, x8, t.hostStage, t.dcq, t.net, t.rma, t.wlg, t.red, t.kc, t.sec, t.dig, t.med, t.mmg, t.ecp, t.xhl, t.drc, t.cle, t.flt, t.alm, t.upd, t.nor, t.lz, t.sram, x30, x31, t.freeCtr, t.pending⟩ = blank 0xC0000100 t := (rfl)

theorem mk_C2E40100 (t : State) (x8 x18 x21 x22 x23 x25 x30 x31) :
    blank 0xC2E40100 ⟨t.glb, t.pwr, t.island, t.lds, t.fuses, t.cfg, t.img, t.eps, x8, t.hostStage, t.dcq, t.net, t.rma, t.wlg, t.red, t.kc, t.sec, t.dig, x18, t.mmg, t.ecp, x21, x22, x23, t.flt, x25, t.upd, t.nor, t.lz, t.sram, x30, x31, t.freeCtr, t.pending⟩ = blank 0xC2E40100 t := (rfl)

theorem mk_CFFFFFAF (t : State) (x0 x1 x2 x3 x5 x7 x8 x9 x10 x11 x12 x13 x14 x15 x16 x17 x18 x19 x20 x21 x22 x23 x24 x25 x26 x27 x30 x31) :
    blank 0xCFFFFFAF ⟨x0, x1, x2, x3, t.fuses, x5, t.img, x7, x8, x9, x10, x11, x12, x13, x14, x15, x16, x17, x18, x19, x20, x21, x22, x23, x24, x25, x26, x27, t.lz, t.sram, x30, x31, t.freeCtr, t.pending⟩ = blank 0xCFFFFFAF t := (rfl)

theorem mk_100000000 (t : State) (x32) :
    blank 0x100000000 ⟨t.glb, t.pwr, t.island, t.lds, t.fuses, t.cfg, t.img, t.eps, t.hostLatch, t.hostStage, t.dcq, t.net, t.rma, t.wlg, t.red, t.kc, t.sec, t.dig, t.med, t.mmg, t.ecp, t.xhl, t.drc, t.cle, t.flt, t.alm, t.upd, t.nor, t.lz, t.sram, t.hostData, t.out, x32, t.pending⟩ = blank 0x100000000 t := (rfl)

theorem mk_100000004 (t : State) (x2 x32) :
    blank 0x100000004 ⟨t.glb, t.pwr, x2, t.lds, t.fuses, t.cfg, t.img, t.eps, t.hostLatch, t.hostStage, t.dcq, t.net, t.rma, t.wlg, t.red, t.kc, t.sec, t.dig, t.med, t.mmg, t.ecp, t.xhl, t.drc, t.cle, t.flt, t.alm, t.upd, t.nor, t.lz, t.sram, t.hostData, t.out, x32, t.pending⟩ = blank 0x100000004 t := (rfl)

theorem mk_100000008 (t : State) (x3 x32) :
    blank 0x100000008 ⟨t.glb, t.pwr, t.island, x3, t.fuses, t.cfg, t.img, t.eps, t.hostLatch, t.hostStage, t.dcq, t.net, t.rma, t.wlg, t.red, t.kc, t.sec, t.dig, t.med, t.mmg, t.ecp, t.xhl, t.drc, t.cle, t.flt, t.alm, t.upd, t.nor, t.lz, t.sram, t.hostData, t.out, x32, t.pending⟩ = blank 0x100000008 t := (rfl)

theorem mk_10000000C (t : State) (x2 x3 x32) :
    blank 0x10000000C ⟨t.glb, t.pwr, x2, x3, t.fuses, t.cfg, t.img, t.eps, t.hostLatch, t.hostStage, t.dcq, t.net, t.rma, t.wlg, t.red, t.kc, t.sec, t.dig, t.med, t.mmg, t.ecp, t.xhl, t.drc, t.cle, t.flt, t.alm, t.upd, t.nor, t.lz, t.sram, t.hostData, t.out, x32, t.pending⟩ = blank 0x10000000C t := (rfl)

theorem mk_101000000 (t : State) (x24 x32) :
    blank 0x101000000 ⟨t.glb, t.pwr, t.island, t.lds, t.fuses, t.cfg, t.img, t.eps, t.hostLatch, t.hostStage, t.dcq, t.net, t.rma, t.wlg, t.red, t.kc, t.sec, t.dig, t.med, t.mmg, t.ecp, t.xhl, t.drc, t.cle, x24, t.alm, t.upd, t.nor, t.lz, t.sram, t.hostData, t.out, x32, t.pending⟩ = blank 0x101000000 t := (rfl)

theorem mk_102000004 (t : State) (x2 x25 x32) :
    blank 0x102000004 ⟨t.glb, t.pwr, x2, t.lds, t.fuses, t.cfg, t.img, t.eps, t.hostLatch, t.hostStage, t.dcq, t.net, t.rma, t.wlg, t.red, t.kc, t.sec, t.dig, t.med, t.mmg, t.ecp, t.xhl, t.drc, t.cle, t.flt, x25, t.upd, t.nor, t.lz, t.sram, t.hostData, t.out, x32, t.pending⟩ = blank 0x102000004 t := (rfl)

theorem mk_183204C8E (t : State) (x1 x2 x3 x7 x10 x11 x14 x21 x24 x25 x31 x32) :
    blank 0x183204C8E ⟨t.glb, x1, x2, x3, t.fuses, t.cfg, t.img, x7, t.hostLatch, t.hostStage, x10, x11, t.rma, t.wlg, x14, t.kc, t.sec, t.dig, t.med, t.mmg, t.ecp, x21, t.drc, t.cle, x24, x25, t.upd, t.nor, t.lz, t.sram, t.hostData, x31, x32, t.pending⟩ = blank 0x183204C8E t := (rfl)

theorem mk_183204C8F (t : State) (x0 x1 x2 x3 x7 x10 x11 x14 x21 x24 x25 x31 x32) :
    blank 0x183204C8F ⟨x0, x1, x2, x3, t.fuses, t.cfg, t.img, x7, t.hostLatch, t.hostStage, x10, x11, t.rma, t.wlg, x14, t.kc, t.sec, t.dig, t.med, t.mmg, t.ecp, x21, t.drc, t.cle, x24, x25, t.upd, t.nor, t.lz, t.sram, t.hostData, x31, x32, t.pending⟩ = blank 0x183204C8F t := (rfl)

theorem mk_183205C8E (t : State) (x1 x2 x3 x7 x10 x11 x12 x14 x21 x24 x25 x31 x32) :
    blank 0x183205C8E ⟨t.glb, x1, x2, x3, t.fuses, t.cfg, t.img, x7, t.hostLatch, t.hostStage, x10, x11, x12, t.wlg, x14, t.kc, t.sec, t.dig, t.med, t.mmg, t.ecp, x21, t.drc, t.cle, x24, x25, t.upd, t.nor, t.lz, t.sram, t.hostData, x31, x32, t.pending⟩ = blank 0x183205C8E t := (rfl)

theorem mk_183205C8F (t : State) (x0 x1 x2 x3 x7 x10 x11 x12 x14 x21 x24 x25 x31 x32) :
    blank 0x183205C8F ⟨x0, x1, x2, x3, t.fuses, t.cfg, t.img, x7, t.hostLatch, t.hostStage, x10, x11, x12, t.wlg, x14, t.kc, t.sec, t.dig, t.med, t.mmg, t.ecp, x21, t.drc, t.cle, x24, x25, t.upd, t.nor, t.lz, t.sram, t.hostData, x31, x32, t.pending⟩ = blank 0x183205C8F t := (rfl)

theorem mk_183206C8F (t : State) (x0 x1 x2 x3 x7 x10 x11 x13 x14 x21 x24 x25 x31 x32) :
    blank 0x183206C8F ⟨x0, x1, x2, x3, t.fuses, t.cfg, t.img, x7, t.hostLatch, t.hostStage, x10, x11, t.rma, x13, x14, t.kc, t.sec, t.dig, t.med, t.mmg, t.ecp, x21, t.drc, t.cle, x24, x25, t.upd, t.nor, t.lz, t.sram, t.hostData, x31, x32, t.pending⟩ = blank 0x183206C8F t := (rfl)

theorem mk_183214C8E (t : State) (x1 x2 x3 x7 x10 x11 x14 x16 x21 x24 x25 x31 x32) :
    blank 0x183214C8E ⟨t.glb, x1, x2, x3, t.fuses, t.cfg, t.img, x7, t.hostLatch, t.hostStage, x10, x11, t.rma, t.wlg, x14, t.kc, x16, t.dig, t.med, t.mmg, t.ecp, x21, t.drc, t.cle, x24, x25, t.upd, t.nor, t.lz, t.sram, t.hostData, x31, x32, t.pending⟩ = blank 0x183214C8E t := (rfl)

theorem mk_183227C8E (t : State) (x1 x2 x3 x7 x10 x11 x12 x13 x14 x17 x21 x24 x25 x31 x32) :
    blank 0x183227C8E ⟨t.glb, x1, x2, x3, t.fuses, t.cfg, t.img, x7, t.hostLatch, t.hostStage, x10, x11, x12, x13, x14, t.kc, t.sec, x17, t.med, t.mmg, t.ecp, x21, t.drc, t.cle, x24, x25, t.upd, t.nor, t.lz, t.sram, t.hostData, x31, x32, t.pending⟩ = blank 0x183227C8E t := (rfl)

theorem mk_183236C8E (t : State) (x1 x2 x3 x7 x10 x11 x13 x14 x16 x17 x21 x24 x25 x31 x32) :
    blank 0x183236C8E ⟨t.glb, x1, x2, x3, t.fuses, t.cfg, t.img, x7, t.hostLatch, t.hostStage, x10, x11, t.rma, x13, x14, t.kc, x16, x17, t.med, t.mmg, t.ecp, x21, t.drc, t.cle, x24, x25, t.upd, t.nor, t.lz, t.sram, t.hostData, x31, x32, t.pending⟩ = blank 0x183236C8E t := (rfl)

theorem mk_183244C8E (t : State) (x1 x2 x3 x7 x10 x11 x14 x18 x21 x24 x25 x31 x32) :
    blank 0x183244C8E ⟨t.glb, x1, x2, x3, t.fuses, t.cfg, t.img, x7, t.hostLatch, t.hostStage, x10, x11, t.rma, t.wlg, x14, t.kc, t.sec, t.dig, x18, t.mmg, t.ecp, x21, t.drc, t.cle, x24, x25, t.upd, t.nor, t.lz, t.sram, t.hostData, x31, x32, t.pending⟩ = blank 0x183244C8E t := (rfl)

theorem mk_183245C8E (t : State) (x1 x2 x3 x7 x10 x11 x12 x14 x18 x21 x24 x25 x31 x32) :
    blank 0x183245C8E ⟨t.glb, x1, x2, x3, t.fuses, t.cfg, t.img, x7, t.hostLatch, t.hostStage, x10, x11, x12, t.wlg, x14, t.kc, t.sec, t.dig, x18, t.mmg, t.ecp, x21, t.drc, t.cle, x24, x25, t.upd, t.nor, t.lz, t.sram, t.hostData, x31, x32, t.pending⟩ = blank 0x183245C8E t := (rfl)

theorem mk_183246C8F (t : State) (x0 x1 x2 x3 x7 x10 x11 x13 x14 x18 x21 x24 x25 x31 x32) :
    blank 0x183246C8F ⟨x0, x1, x2, x3, t.fuses, t.cfg, t.img, x7, t.hostLatch, t.hostStage, x10, x11, t.rma, x13, x14, t.kc, t.sec, t.dig, x18, t.mmg, t.ecp, x21, t.drc, t.cle, x24, x25, t.upd, t.nor, t.lz, t.sram, t.hostData, x31, x32, t.pending⟩ = blank 0x183246C8F t := (rfl)

theorem mk_1832C5C8E (t : State) (x1 x2 x3 x7 x10 x11 x12 x14 x18 x19 x21 x24 x25 x31 x32) :
    blank 0x1832C5C8E ⟨t.glb, x1, x2, x3, t.fuses, t.cfg, t.img, x7, t.hostLatch, t.hostStage, x10, x11, x12, t.wlg, x14, t.kc, t.sec, t.dig, x18, x19, t.ecp, x21, t.drc, t.cle, x24, x25, t.upd, t.nor, t.lz, t.sram, t.hostData, x31, x32, t.pending⟩ = blank 0x1832C5C8E t := (rfl)

theorem mk_1833C5C8E (t : State) (x1 x2 x3 x7 x10 x11 x12 x14 x18 x19 x20 x21 x24 x25 x31 x32) :
    blank 0x1833C5C8E ⟨t.glb, x1, x2, x3, t.fuses, t.cfg, t.img, x7, t.hostLatch, t.hostStage, x10, x11, x12, t.wlg, x14, t.kc, t.sec, t.dig, x18, x19, x20, x21, t.drc, t.cle, x24, x25, t.upd, t.nor, t.lz, t.sram, t.hostData, x31, x32, t.pending⟩ = blank 0x1833C5C8E t := (rfl)

theorem mk_1833C7C8E (t : State) (x1 x2 x3 x7 x10 x11 x12 x13 x14 x18 x19 x20 x21 x24 x25 x31 x32) :
    blank 0x1833C7C8E ⟨t.glb, x1, x2, x3, t.fuses, t.cfg, t.img, x7, t.hostLatch, t.hostStage, x10, x11, x12, x13, x14, t.kc, t.sec, t.dig, x18, x19, x20, x21, t.drc, t.cle, x24, x25, t.upd, t.nor, t.lz, t.sram, t.hostData, x31, x32, t.pending⟩ = blank 0x1833C7C8E t := (rfl)

theorem mk_1833C7C8F (t : State) (x0 x1 x2 x3 x7 x10 x11 x12 x13 x14 x18 x19 x20 x21 x24 x25 x31 x32) :
    blank 0x1833C7C8F ⟨x0, x1, x2, x3, t.fuses, t.cfg, t.img, x7, t.hostLatch, t.hostStage, x10, x11, x12, x13, x14, t.kc, t.sec, t.dig, x18, x19, x20, x21, t.drc, t.cle, x24, x25, t.upd, t.nor, t.lz, t.sram, t.hostData, x31, x32, t.pending⟩ = blank 0x1833C7C8F t := (rfl)

theorem mk_183A04C8E (t : State) (x1 x2 x3 x7 x10 x11 x14 x21 x23 x24 x25 x31 x32) :
    blank 0x183A04C8E ⟨t.glb, x1, x2, x3, t.fuses, t.cfg, t.img, x7, t.hostLatch, t.hostStage, x10, x11, t.rma, t.wlg, x14, t.kc, t.sec, t.dig, t.med, t.mmg, t.ecp, x21, t.drc, x23, x24, x25, t.upd, t.nor, t.lz, t.sram, t.hostData, x31, x32, t.pending⟩ = blank 0x183A04C8E t := (rfl)

theorem mk_183A05C8E (t : State) (x1 x2 x3 x7 x10 x11 x12 x14 x21 x23 x24 x25 x31 x32) :
    blank 0x183A05C8E ⟨t.glb, x1, x2, x3, t.fuses, t.cfg, t.img, x7, t.hostLatch, t.hostStage, x10, x11, x12, t.wlg, x14, t.kc, t.sec, t.dig, t.med, t.mmg, t.ecp, x21, t.drc, x23, x24, x25, t.upd, t.nor, t.lz, t.sram, t.hostData, x31, x32, t.pending⟩ = blank 0x183A05C8E t := (rfl)

theorem mk_187204C8E (t : State) (x1 x2 x3 x7 x10 x11 x14 x21 x24 x25 x26 x31 x32) :
    blank 0x187204C8E ⟨t.glb, x1, x2, x3, t.fuses, t.cfg, t.img, x7, t.hostLatch, t.hostStage, x10, x11, t.rma, t.wlg, x14, t.kc, t.sec, t.dig, t.med, t.mmg, t.ecp, x21, t.drc, t.cle, x24, x25, x26, t.nor, t.lz, t.sram, t.hostData, x31, x32, t.pending⟩ = blank 0x187204C8E t := (rfl)

theorem mk_18F204C8F (t : State) (x0 x1 x2 x3 x7 x10 x11 x14 x21 x24 x25 x26 x27 x31 x32) :
    blank 0x18F204C8F ⟨x0, x1, x2, x3, t.fuses, t.cfg, t.img, x7, t.hostLatch, t.hostStage, x10, x11, t.rma, t.wlg, x14, t.kc, t.sec, t.dig, t.med, t.mmg, t.ecp, x21, t.drc, t.cle, x24, x25, x26, x27, t.lz, t.sram, t.hostData, x31, x32, t.pending⟩ = blank 0x18F204C8F t := (rfl)

theorem mk_18F204CAF (t : State) (x0 x1 x2 x3 x5 x7 x10 x11 x14 x21 x24 x25 x26 x27 x31 x32) :
    blank 0x18F204CAF ⟨x0, x1, x2, x3, t.fuses, x5, t.img, x7, t.hostLatch, t.hostStage, x10, x11, t.rma, t.wlg, x14, t.kc, t.sec, t.dig, t.med, t.mmg, t.ecp, x21, t.drc, t.cle, x24, x25, x26, x27, t.lz, t.sram, t.hostData, x31, x32, t.pending⟩ = blank 0x18F204CAF t := (rfl)

theorem mk_18F206CAF (t : State) (x0 x1 x2 x3 x5 x7 x10 x11 x13 x14 x21 x24 x25 x26 x27 x31 x32) :
    blank 0x18F206CAF ⟨x0, x1, x2, x3, t.fuses, x5, t.img, x7, t.hostLatch, t.hostStage, x10, x11, t.rma, x13, x14, t.kc, t.sec, t.dig, t.med, t.mmg, t.ecp, x21, t.drc, t.cle, x24, x25, x26, x27, t.lz, t.sram, t.hostData, x31, x32, t.pending⟩ = blank 0x18F206CAF t := (rfl)

theorem mk_18F3C6CAF (t : State) (x0 x1 x2 x3 x5 x7 x10 x11 x13 x14 x18 x19 x20 x21 x24 x25 x26 x27 x31 x32) :
    blank 0x18F3C6CAF ⟨x0, x1, x2, x3, t.fuses, x5, t.img, x7, t.hostLatch, t.hostStage, x10, x11, t.rma, x13, x14, t.kc, t.sec, t.dig, x18, x19, x20, x21, t.drc, t.cle, x24, x25, x26, x27, t.lz, t.sram, t.hostData, x31, x32, t.pending⟩ = blank 0x18F3C6CAF t := (rfl)

theorem mk_18F3C7CAF (t : State) (x0 x1 x2 x3 x5 x7 x10 x11 x12 x13 x14 x18 x19 x20 x21 x24 x25 x26 x27 x31 x32) :
    blank 0x18F3C7CAF ⟨x0, x1, x2, x3, t.fuses, x5, t.img, x7, t.hostLatch, t.hostStage, x10, x11, x12, x13, x14, t.kc, t.sec, t.dig, x18, x19, x20, x21, t.drc, t.cle, x24, x25, x26, x27, t.lz, t.sram, t.hostData, x31, x32, t.pending⟩ = blank 0x18F3C7CAF t := (rfl)

theorem mk_1A320CC8F (t : State) (x0 x1 x2 x3 x7 x10 x11 x14 x15 x21 x24 x25 x29 x31 x32) :
    blank 0x1A320CC8F ⟨x0, x1, x2, x3, t.fuses, t.cfg, t.img, x7, t.hostLatch, t.hostStage, x10, x11, t.rma, t.wlg, x14, x15, t.sec, t.dig, t.med, t.mmg, t.ecp, x21, t.drc, t.cle, x24, x25, t.upd, t.nor, t.lz, x29, t.hostData, x31, x32, t.pending⟩ = blank 0x1A320CC8F t := (rfl)

theorem mk_1B77DFC8F (t : State) (x0 x1 x2 x3 x7 x10 x11 x12 x13 x14 x15 x16 x18 x19 x20 x21 x22 x24 x25 x26 x28 x29 x31 x32) :
    blank 0x1B77DFC8F ⟨x0, x1, x2, x3, t.fuses, t.cfg, t.img, x7, t.hostLatch, t.hostStage, x10, x11, x12, x13, x14, x15, x16, t.dig, x18, x19, x20, x21, x22, t.cle, x24, x25, x26, t.nor, x28, x29, t.hostData, x31, x32, t.pending⟩ = blank 0x1B77DFC8F t := (rfl)

theorem mk_1BFB7FCBF (t : State) (x0 x1 x2 x3 x4 x5 x7 x10 x11 x12 x13 x14 x15 x16 x17 x18 x20 x21 x23 x24 x25 x26 x27 x28 x29 x31 x32) :
    blank 0x1BFB7FCBF ⟨x0, x1, x2, x3, x4, x5, t.img, x7, t.hostLatch, t.hostStage, x10, x11, x12, x13, x14, x15, x16, x17, x18, t.mmg, x20, x21, t.drc, x23, x24, x25, x26, x27, x28, x29, t.hostData, x31, x32, t.pending⟩ = blank 0x1BFB7FCBF t := (rfl)

theorem mk_1BFFDFCCF (t : State) (x0 x1 x2 x3 x6 x7 x10 x11 x12 x13 x14 x15 x16 x18 x19 x20 x21 x22 x23 x24 x25 x26 x27 x28 x29 x31 x32) :
    blank 0x1BFFDFCCF ⟨x0, x1, x2, x3, t.fuses, t.cfg, x6, x7, t.hostLatch, t.hostStage, x10, x11, x12, x13, x14, x15, x16, t.dig, x18, x19, x20, x21, x22, x23, x24, x25, x26, x27, x28, x29, t.hostData, x31, x32, t.pending⟩ = blank 0x1BFFDFCCF t := (rfl)

theorem mk_1BFFFFFFF (t : State) (x0 x1 x2 x3 x4 x5 x6 x7 x8 x9 x10 x11 x12 x13 x14 x15 x16 x17 x18 x19 x20 x21 x22 x23 x24 x25 x26 x27 x28 x29 x31 x32) :
    blank 0x1BFFFFFFF ⟨x0, x1, x2, x3, x4, x5, x6, x7, x8, x9, x10, x11, x12, x13, x14, x15, x16, x17, x18, x19, x20, x21, x22, x23, x24, x25, x26, x27, x28, x29, t.hostData, x31, x32, t.pending⟩ = blank 0x1BFFFFFFF t := (rfl)

/-! ## The operations -/

theorem modPort_frame (a0) (a1) (s : State) (n : Nat) (hn : n ||| 0x40000 = n) :
    blank n (modPort a0 a1 s) = blank n s := by
  refine blank_mono (m := 0x40000) ?_ hn
  unfold modPort
  repeat' first
    | with_reducible rfl
    | simp only [mk_40000, takeFree, Nat.reduceOr, apply_ite (blank _), apply_ite (keeps _ s), ite_self, implies_true, foldl_blank, keeps_next, Option.elim]
    | (with_reducible refine (foldl_blank ?_ _ _).trans ?_; intro s x)
    | (split <;> try (rename_i h; with_reducible rw [Prod.ext_iff] at h; have h' := h.2; dsimp only at h'; subst h'))
    | dsimp only

theorem dropWaiting_frame (a0) (a1) (a2) (a3) (s : State) (n : Nat) (hn : n ||| 0x40000 = n) :
    blank n (dropWaiting a0 a1 a2 a3 s) = blank n s := by
  refine blank_mono (m := 0x40000) ?_ hn
  unfold dropWaiting
  repeat' first
    | with_reducible rfl
    | simp only [mk_40000, takeFree, Nat.reduceOr, apply_ite (blank _), apply_ite (keeps _ s), ite_self, implies_true, foldl_blank, keeps_next, Option.elim, modPort_frame]
    | (with_reducible refine (foldl_blank ?_ _ _).trans ?_; intro s x)
    | (split <;> try (rename_i h; with_reducible rw [Prod.ext_iff] at h; have h' := h.2; dsimp only at h'; subst h'))
    | dsimp only

theorem leaveStream_frame (s : State) (n : Nat) (hn : n ||| 0x80000 = n) :
    blank n (leaveStream s) = blank n s := by
  refine blank_mono (m := 0x80000) ?_ hn
  unfold leaveStream
  repeat' first
    | with_reducible rfl
    | simp only [mk_80000, takeFree, Nat.reduceOr, apply_ite (blank _), apply_ite (keeps _ s), ite_self, implies_true, foldl_blank, keeps_next, Option.elim]
    | (with_reducible refine (foldl_blank ?_ _ _).trans ?_; intro s x)
    | (split <;> try (rename_i h; with_reducible rw [Prod.ext_iff] at h; have h' := h.2; dsimp only at h'; subst h'))
    | dsimp only

theorem modEp_frame (a0) (a1) (s : State) (n : Nat) (hn : n ||| 0x80 = n) :
    blank n (modEp a0 a1 s) = blank n s := by
  refine blank_mono (m := 0x80) ?_ hn
  unfold modEp
  repeat' first
    | with_reducible rfl
    | simp only [mk_80, takeFree, Nat.reduceOr, apply_ite (blank _), apply_ite (keeps _ s), ite_self, implies_true, foldl_blank, keeps_next, Option.elim]
    | (with_reducible refine (foldl_blank ?_ _ _).trans ?_; intro s x)
    | (split <;> try (rename_i h; with_reducible rw [Prod.ext_iff] at h; have h' := h.2; dsimp only at h'; subst h'))
    | dsimp only

theorem emit_frame (a0) (s : State) (n : Nat) (hn : n ||| 0x80000000 = n) :
    blank n (emit a0 s) = blank n s := by
  refine blank_mono (m := 0x80000000) ?_ hn
  unfold emit
  repeat' first
    | with_reducible rfl
    | simp only [mk_80000000, takeFree, Nat.reduceOr, apply_ite (blank _), apply_ite (keeps _ s), ite_self, implies_true, foldl_blank, keeps_next, Option.elim]
    | (with_reducible refine (foldl_blank ?_ _ _).trans ?_; intro s x)
    | (split <;> try (rename_i h; with_reducible rw [Prod.ext_iff] at h; have h' := h.2; dsimp only at h'; subst h'))
    | dsimp only

theorem sendPost_frame (a0) (a1) (s : State) (n : Nat) (hn : n ||| 0x80000000 = n) :
    blank n (sendPost a0 a1 s) = blank n s := by
  refine blank_mono (m := 0x80000000) ?_ hn
  unfold sendPost
  repeat' first
    | with_reducible rfl
    | simp only [mk_80000000, takeFree, Nat.reduceOr, apply_ite (blank _), apply_ite (keeps _ s), ite_self, implies_true, foldl_blank, keeps_next, Option.elim, emit_frame]
    | (with_reducible refine (foldl_blank ?_ _ _).trans ?_; intro s x)
    | (split <;> try (rename_i h; with_reducible rw [Prod.ext_iff] at h; have h' := h.2; dsimp only at h'; subst h'))
    | dsimp only

theorem postReq_frame (a0) (a1) (s : State) (n : Nat) (hn : n ||| 0x80000080 = n) :
    blank n (postReq a0 a1 s) = blank n s := by
  refine blank_mono (m := 0x80000080) ?_ hn
  unfold postReq
  repeat' first
    | with_reducible rfl
    | simp only [mk_80000080, takeFree, Nat.reduceOr, apply_ite (blank _), apply_ite (keeps _ s), ite_self, implies_true, foldl_blank, keeps_next, Option.elim, sendPost_frame, modEp_frame]
    | (with_reducible refine (foldl_blank ?_ _ _).trans ?_; intro s x)
    | (split <;> try (rename_i h; with_reducible rw [Prod.ext_iff] at h; have h' := h.2; dsimp only at h'; subst h'))
    | dsimp only

theorem raiseVec_frame (a0) (a1) (s : State) (n : Nat) (hn : n ||| 0x80000080 = n) :
    blank n (raiseVec a0 a1 s) = blank n s := by
  refine blank_mono (m := 0x80000080) ?_ hn
  unfold raiseVec
  repeat' first
    | with_reducible rfl
    | simp only [mk_80000080, takeFree, Nat.reduceOr, apply_ite (blank _), apply_ite (keeps _ s), ite_self, implies_true, foldl_blank, keeps_next, Option.elim, modEp_frame, postReq_frame]
    | (with_reducible refine (foldl_blank ?_ _ _).trans ?_; intro s x)
    | (split <;> try (rename_i h; with_reducible rw [Prod.ext_iff] at h; have h' := h.2; dsimp only at h'; subst h'))
    | dsimp only

theorem raiseVec0_frame (s : State) (n : Nat) (hn : n ||| 0x80000080 = n) :
    blank n (raiseVec0 s) = blank n s := by
  refine blank_mono (m := 0x80000080) ?_ hn
  unfold raiseVec0
  repeat' first
    | with_reducible rfl
    | simp only [mk_80000080, takeFree, Nat.reduceOr, apply_ite (blank _), apply_ite (keeps _ s), ite_self, implies_true, foldl_blank, keeps_next, Option.elim, raiseVec_frame]
    | (with_reducible refine (foldl_blank ?_ _ _).trans ?_; intro s x)
    | (split <;> try (rename_i h; with_reducible rw [Prod.ext_iff] at h; have h' := h.2; dsimp only at h'; subst h'))
    | dsimp only

theorem raiseAlert_frame (a0) (s : State) (n : Nat) (hn : n ||| 0x81000080 = n) :
    blank n (raiseAlert a0 s) = blank n s := by
  refine blank_mono (m := 0x81000080) ?_ hn
  unfold raiseAlert
  repeat' first
    | with_reducible rfl
    | simp only [mk_81000080, takeFree, Nat.reduceOr, apply_ite (blank _), apply_ite (keeps _ s), ite_self, implies_true, foldl_blank, keeps_next, Option.elim, raiseVec0_frame]
    | (with_reducible refine (foldl_blank ?_ _ _).trans ?_; intro s x)
    | (split <;> try (rename_i h; with_reducible rw [Prod.ext_iff] at h; have h' := h.2; dsimp only at h'; subst h'))
    | dsimp only

theorem almModify_frame (a0) (a1) (s : State) (n : Nat) (hn : n ||| 0x2000004 = n) :
    blank n (almModify a0 a1 s) = blank n s := by
  refine blank_mono (m := 0x2000004) ?_ hn
  unfold almModify
  repeat' first
    | with_reducible rfl
    | simp only [mk_2000004, takeFree, Nat.reduceOr, apply_ite (blank _), apply_ite (keeps _ s), ite_self, implies_true, foldl_blank, keeps_next, Option.elim]
    | (with_reducible refine (foldl_blank ?_ _ _).trans ?_; intro s x)
    | (split <;> try (rename_i h; with_reducible rw [Prod.ext_iff] at h; have h' := h.2; dsimp only at h'; subst h'))
    | dsimp only

theorem almInsert_frame (a0) (a1) (s : State) (n : Nat) (hn : n ||| 0x2000004 = n) :
    blank n (almInsert a0 a1 s) = blank n s := by
  refine blank_mono (m := 0x2000004) ?_ hn
  unfold almInsert
  repeat' first
    | with_reducible rfl
    | simp only [mk_2000004, takeFree, Nat.reduceOr, apply_ite (blank _), apply_ite (keeps _ s), ite_self, implies_true, foldl_blank, keeps_next, Option.elim]
    | (with_reducible refine (foldl_blank ?_ _ _).trans ?_; intro s x)
    | (split <;> try (rename_i h; with_reducible rw [Prod.ext_iff] at h; have h' := h.2; dsimp only at h'; subst h'))
    | dsimp only

theorem almOpen_frame (a0) (a1) (a2) (a3) (a4) (s : State) (n : Nat) (hn : n ||| 0x2000004 = n) :
    blank n (almOpen a0 a1 a2 a3 a4 s) = blank n s := by
  refine blank_mono (m := 0x2000004) ?_ hn
  unfold almOpen
  repeat' first
    | with_reducible rfl
    | simp only [mk_2000004, takeFree, Nat.reduceOr, apply_ite (blank _), apply_ite (keeps _ s), ite_self, implies_true, foldl_blank, keeps_next, Option.elim, almInsert_frame]
    | (with_reducible refine (foldl_blank ?_ _ _).trans ?_; intro s x)
    | (split <;> try (rename_i h; with_reducible rw [Prod.ext_iff] at h; have h' := h.2; dsimp only at h'; subst h'))
    | dsimp only

theorem norPush_frame (a0) (s : State) (n : Nat) (hn : n ||| 0x2000004 = n) :
    blank n (norPush a0 s) = blank n s := by
  refine blank_mono (m := 0x2000004) ?_ hn
  unfold norPush
  repeat' first
    | with_reducible rfl
    | (with_reducible refine (foldl_blank ?_ _ _).trans ?_; intro s x)
    | (split <;> try (rename_i h; with_reducible rw [Prod.ext_iff] at h; have h' := h.2; dsimp only at h'; subst h'))
    | simp only [mk_2000004, takeFree, Nat.reduceOr, apply_ite (blank _), apply_ite (keeps _ s), ite_self, implies_true, foldl_blank, keeps_next, Option.elim, almOpen_frame]

theorem almClose_frame (a0) (s : State) (n : Nat) (hn : n ||| 0x2000004 = n) :
    blank n (almClose a0 s) = blank n s := by
  refine blank_mono (m := 0x2000004) ?_ hn
  unfold almClose
  repeat' first
    | with_reducible rfl
    | simp only [mk_2000004, takeFree, Nat.reduceOr, apply_ite (blank _), apply_ite (keeps _ s), ite_self, implies_true, foldl_blank, keeps_next, Option.elim, almModify_frame, norPush_frame]
    | (with_reducible refine (foldl_blank ?_ _ _).trans ?_; intro s x)
    | (split <;> try (rename_i h; with_reducible rw [Prod.ext_iff] at h; have h' := h.2; dsimp only at h'; subst h'))
    | dsimp only

theorem almMerge_frame (a0) (a1) (s : State) (n : Nat) (hn : n ||| 0x2000004 = n) :
    blank n (almMerge a0 a1 s) = blank n s := by
  refine blank_mono (m := 0x2000004) ?_ hn
  unfold almMerge
  repeat' first
    | with_reducible rfl
    | simp only [mk_2000004, takeFree, Nat.reduceOr, apply_ite (blank _), apply_ite (keeps _ s), ite_self, implies_true, foldl_blank, keeps_next, Option.elim, almClose_frame, almModify_frame]
    | (with_reducible refine (foldl_blank ?_ _ _).trans ?_; intro s x)
    | (split <;> try (rename_i h; with_reducible rw [Prod.ext_iff] at h; have h' := h.2; dsimp only at h'; subst h'))
    | dsimp only

theorem almMakeRoom_frame (s : State) (n : Nat) (hn : n ||| 0x2000004 = n) :
    blank n (almMakeRoom s) = blank n s := by
  refine blank_mono (m := 0x2000004) ?_ hn
  unfold almMakeRoom
  repeat' first
    | with_reducible rfl
    | simp only [mk_2000004, takeFree, Nat.reduceOr, apply_ite (blank _), apply_ite (keeps _ s), ite_self, implies_true, foldl_blank, keeps_next, Option.elim, almClose_frame]
    | (with_reducible refine (foldl_blank ?_ _ _).trans ?_; intro s x)
    | (split <;> try (rename_i h; with_reducible rw [Prod.ext_iff] at h; have h' := h.2; dsimp only at h'; subst h'))
    | dsimp only

theorem recordCore_frame (a0) (a1) (a2) (a3) (a4) (s : State) (n : Nat) (hn : n ||| 0x83000084 = n) :
    blank n (recordCore a0 a1 a2 a3 a4 s).2 = blank n s := by
  refine blank_mono (m := 0x83000084) ?_ hn
  unfold recordCore
  repeat' first
    | with_reducible rfl
    | simp only [mk_83000084, takeFree, Nat.reduceOr, apply_ite (blank _), apply_ite (keeps _ s), ite_self, implies_true, foldl_blank, keeps_next, Option.elim, raiseAlert_frame, almMerge_frame, almModify_frame, almOpen_frame, almMakeRoom_frame]
    | (with_reducible refine (foldl_blank ?_ _ _).trans ?_; intro s x)
    | (split <;> try (rename_i h; with_reducible rw [Prod.ext_iff] at h; have h' := h.2; dsimp only at h'; subst h'))
    | dsimp only

theorem undoCmd_frame (a0) (s : State) (n : Nat) (hn : n ||| 0x4000 = n) :
    blank n (undoCmd a0 s) = blank n s := by
  refine blank_mono (m := 0x4000) ?_ hn
  unfold undoCmd
  repeat' first
    | with_reducible rfl
    | simp only [mk_4000, takeFree, Nat.reduceOr, apply_ite (blank _), apply_ite (keeps _ s), ite_self, implies_true, foldl_blank, keeps_next, Option.elim]
    | (with_reducible refine (foldl_blank ?_ _ _).trans ?_; intro s x)
    | (split <;> try (rename_i h; with_reducible rw [Prod.ext_iff] at h; have h' := h.2; dsimp only at h'; subst h'))
    | dsimp only

theorem xhlPump_frame (a0) (s : State) (n : Nat) (hn : n ||| 0x80200000 = n) :
    blank n (xhlPump a0 s) = blank n s := by
  refine blank_mono (m := 0x80200000) ?_ hn
  induction a0 generalizing s with
  | zero => rfl
  | succ k ih =>
    rw [xhlPump]
    repeat' first
      | with_reducible rfl
      | (rw [ih]; done)
      | rw [ih]
      | simp only [mk_80200000, takeFree, Nat.reduceOr, apply_ite (blank _), apply_ite (keeps _ s), ite_self, implies_true, foldl_blank, keeps_next, Option.elim, emit_frame]
      | split
      | dsimp only

theorem xhlRun_frame (s : State) (n : Nat) (hn : n ||| 0x80200000 = n) :
    blank n (xhlRun s) = blank n s := by
  refine blank_mono (m := 0x80200000) ?_ hn
  unfold xhlRun
  repeat' first
    | with_reducible rfl
    | simp only [mk_80200000, takeFree, Nat.reduceOr, apply_ite (blank _), apply_ite (keeps _ s), ite_self, implies_true, foldl_blank, keeps_next, Option.elim, xhlPump_frame]
    | (with_reducible refine (foldl_blank ?_ _ _).trans ?_; intro s x)
    | (split <;> try (rename_i h; with_reducible rw [Prod.ext_iff] at h; have h' := h.2; dsimp only at h'; subst h'))
    | dsimp only

theorem xhlSend_frame (a0) (a1) (a2) (a3) (a4) (s : State) (n : Nat) (hn : n ||| 0x80200002 = n) :
    blank n (xhlSend a0 a1 a2 a3 a4 s) = blank n s := by
  refine blank_mono (m := 0x80200002) ?_ hn
  unfold xhlSend
  repeat' first
    | with_reducible rfl
    | simp only [mk_80200002, takeFree, Nat.reduceOr, apply_ite (blank _), apply_ite (keeps _ s), ite_self, implies_true, foldl_blank, keeps_next, Option.elim, xhlRun_frame, emit_frame]
    | (with_reducible refine (foldl_blank ?_ _ _).trans ?_; intro s x)
    | (split <;> try (rename_i h; with_reducible rw [Prod.ext_iff] at h; have h' := h.2; dsimp only at h'; subst h'))
    | dsimp only

theorem modQueue_frame (a0) (a1) (s : State) (n : Nat) (hn : n ||| 0x400 = n) :
    blank n (modQueue a0 a1 s) = blank n s := by
  refine blank_mono (m := 0x400) ?_ hn
  unfold modQueue
  repeat' first
    | with_reducible rfl
    | simp only [mk_400, takeFree, Nat.reduceOr, apply_ite (blank _), apply_ite (keeps _ s), ite_self, implies_true, foldl_blank, keeps_next, Option.elim]
    | (with_reducible refine (foldl_blank ?_ _ _).trans ?_; intro s x)
    | (split <;> try (rename_i h; with_reducible rw [Prod.ext_iff] at h; have h' := h.2; dsimp only at h'; subst h'))
    | dsimp only

theorem accrue_frame (a0) (s : State) (n : Nat) (hn : n ||| 0x8 = n) :
    blank n (accrue a0 s) = blank n s := by
  refine blank_mono (m := 0x8) ?_ hn
  unfold accrue
  repeat' first
    | with_reducible rfl
    | simp only [mk_8, takeFree, Nat.reduceOr, apply_ite (blank _), apply_ite (keeps _ s), ite_self, implies_true, foldl_blank, keeps_next, Option.elim]
    | (with_reducible refine (foldl_blank ?_ _ _).trans ?_; intro s x)
    | (split <;> try (rename_i h; with_reducible rw [Prod.ext_iff] at h; have h' := h.2; dsimp only at h'; subst h'))
    | dsimp only

theorem signalCpl_frame (a0) (a1) (s : State) (n : Nat) (hn : n ||| 0x80000480 = n) :
    blank n (signalCpl a0 a1 s) = blank n s := by
  refine blank_mono (m := 0x80000480) ?_ hn
  unfold signalCpl
  repeat' first
    | with_reducible rfl
    | simp only [mk_80000480, takeFree, Nat.reduceOr, apply_ite (blank _), apply_ite (keeps _ s), ite_self, implies_true, foldl_blank, keeps_next, Option.elim, raiseVec_frame, modQueue_frame]
    | (with_reducible refine (foldl_blank ?_ _ _).trans ?_; intro s x)
    | (split <;> try (rename_i h; with_reducible rw [Prod.ext_iff] at h; have h' := h.2; dsimp only at h'; subst h'))
    | dsimp only

theorem postCpl_frame (a0) (a1) (s : State) (n : Nat) (hn : n ||| 0x80000C88 = n) :
    blank n (postCpl a0 a1 s) = blank n s := by
  refine blank_mono (m := 0x80000C88) ?_ hn
  unfold postCpl
  repeat' first
    | with_reducible rfl
    | simp only [mk_80000C88, takeFree, Nat.reduceOr, apply_ite (blank _), apply_ite (keeps _ s), ite_self, implies_true, foldl_blank, keeps_next, Option.elim, modQueue_frame, accrue_frame, signalCpl_frame, postReq_frame]
    | (with_reducible refine (foldl_blank ?_ _ _).trans ?_; intro s x)
    | (split <;> try (rename_i h; with_reducible rw [Prod.ext_iff] at h; have h' := h.2; dsimp only at h'; subst h'))
    | dsimp only

theorem queueCpl_frame (a0) (a1) (s : State) (n : Nat) (hn : n ||| 0x80000C88 = n) :
    blank n (queueCpl a0 a1 s) = blank n s := by
  refine blank_mono (m := 0x80000C88) ?_ hn
  unfold queueCpl
  repeat' first
    | with_reducible rfl
    | simp only [mk_80000C88, takeFree, Nat.reduceOr, apply_ite (blank _), apply_ite (keeps _ s), ite_self, implies_true, foldl_blank, keeps_next, Option.elim, postCpl_frame, modQueue_frame]
    | (with_reducible refine (foldl_blank ?_ _ _).trans ?_; intro s x)
    | (split <;> try (rename_i h; with_reducible rw [Prod.ext_iff] at h; have h' := h.2; dsimp only at h'; subst h'))
    | dsimp only

theorem finishCore_frame (a0) (a1) (a2) (a3) (a4) (a5) (a6) (a7) (s : State) (n : Nat) (hn : n ||| 0x80204C8A = n) :
    blank n (finishCore a0 a1 a2 a3 a4 a5 a6 a7 s) = blank n s := by
  refine blank_mono (m := 0x80204C8A) ?_ hn
  unfold finishCore
  repeat' first
    | with_reducible rfl
    | simp only [mk_80204C8A, takeFree, Nat.reduceOr, apply_ite (blank _), apply_ite (keeps _ s), ite_self, implies_true, foldl_blank, keeps_next, Option.elim, undoCmd_frame, xhlSend_frame, queueCpl_frame]
    | (with_reducible refine (foldl_blank ?_ _ _).trans ?_; intro s x)
    | (split <;> try (rename_i h; with_reducible rw [Prod.ext_iff] at h; have h' := h.2; dsimp only at h'; subst h'))
    | dsimp only

theorem sendDelta_frame (a0) (s : State) (n : Nat) (hn : n ||| 0x80200002 = n) :
    blank n (sendDelta a0 s) = blank n s := by
  refine blank_mono (m := 0x80200002) ?_ hn
  unfold sendDelta
  repeat' first
    | with_reducible rfl
    | simp only [mk_80200002, takeFree, Nat.reduceOr, apply_ite (blank _), apply_ite (keeps _ s), ite_self, implies_true, foldl_blank, keeps_next, Option.elim, xhlSend_frame]
    | (with_reducible refine (foldl_blank ?_ _ _).trans ?_; intro s x)
    | (split <;> try (rename_i h; with_reducible rw [Prod.ext_iff] at h; have h' := h.2; dsimp only at h'; subst h'))
    | dsimp only

theorem settleRetains_frame (s : State) (n : Nat) (hn : n ||| 0x80204C8A = n) :
    blank n (settleRetains s) = blank n s := by
  refine blank_mono (m := 0x80204C8A) ?_ hn
  unfold settleRetains
  repeat' first
    | with_reducible rfl
    | simp only [mk_80204C8A, takeFree, Nat.reduceOr, apply_ite (blank _), apply_ite (keeps _ s), ite_self, implies_true, foldl_blank, keeps_next, Option.elim, finishCore_frame, sendDelta_frame]
    | (with_reducible refine (foldl_blank ?_ _ _).trans ?_; intro s x)
    | (split <;> try (rename_i h; with_reducible rw [Prod.ext_iff] at h; have h' := h.2; dsimp only at h'; subst h'))
    | dsimp only

theorem recordInfo_frame (a0) (a1) (a2) (s : State) (n : Nat) (hn : n ||| 0x83000084 = n) :
    blank n (recordInfo a0 a1 a2 s) = blank n s := by
  refine blank_mono (m := 0x83000084) ?_ hn
  unfold recordInfo
  repeat' first
    | with_reducible rfl
    | simp only [mk_83000084, takeFree, Nat.reduceOr, apply_ite (blank _), apply_ite (keeps _ s), ite_self, implies_true, foldl_blank, keeps_next, Option.elim, recordCore_frame]
    | (with_reducible refine (foldl_blank ?_ _ _).trans ?_; intro s x)
    | (split <;> try (rename_i h; with_reducible rw [Prod.ext_iff] at h; have h' := h.2; dsimp only at h'; subst h'))
    | dsimp only

theorem settleQueue_frame (a0) (s : State) (n : Nat) (hn : n ||| 0x83204C8E = n) :
    blank n (settleQueue a0 s) = blank n s := by
  refine blank_mono (m := 0x83204C8E) ?_ hn
  unfold settleQueue
  repeat' first
    | with_reducible rfl
    | simp only [mk_83204C8E, takeFree, Nat.reduceOr, apply_ite (blank _), apply_ite (keeps _ s), ite_self, implies_true, foldl_blank, keeps_next, Option.elim, finishCore_frame, recordInfo_frame, modQueue_frame]
    | (with_reducible refine (foldl_blank ?_ _ _).trans ?_; intro s x)
    | (split <;> try (rename_i h; with_reducible rw [Prod.ext_iff] at h; have h' := h.2; dsimp only at h'; subst h'))
    | dsimp only

theorem settle_frame (a0) (s : State) (n : Nat) (hn : n ||| 0x83204C8E = n) :
    blank n (settle a0 s) = blank n s := by
  refine blank_mono (m := 0x83204C8E) ?_ hn
  unfold settle
  repeat' first
    | with_reducible rfl
    | simp only [mk_83204C8E, takeFree, Nat.reduceOr, apply_ite (blank _), apply_ite (keeps _ s), ite_self, implies_true, foldl_blank, keeps_next, Option.elim, settleRetains_frame, settleQueue_frame]
    | (with_reducible refine (foldl_blank ?_ _ _).trans ?_; intro s x)
    | (split <;> try (rename_i h; with_reducible rw [Prod.ext_iff] at h; have h' := h.2; dsimp only at h'; subst h'))
    | dsimp only

theorem finishWith_frame (a0) (a1) (a2) (a3) (a4) (a5) (a6) (s : State) (n : Nat) (hn : n ||| 0x83204C8E = n) :
    blank n (finishWith a0 a1 a2 a3 a4 a5 a6 s) = blank n s := by
  refine blank_mono (m := 0x83204C8E) ?_ hn
  unfold finishWith
  repeat' first
    | with_reducible rfl
    | simp only [mk_83204C8E, takeFree, Nat.reduceOr, apply_ite (blank _), apply_ite (keeps _ s), ite_self, implies_true, foldl_blank, keeps_next, Option.elim, settle_frame, finishCore_frame]
    | (with_reducible refine (foldl_blank ?_ _ _).trans ?_; intro s x)
    | (split <;> try (rename_i h; with_reducible rw [Prod.ext_iff] at h; have h' := h.2; dsimp only at h'; subst h'))
    | dsimp only

theorem asyncEvent_frame (a0) (a1) (a2) (s : State) (n : Nat) (hn : n ||| 0x83204C8E = n) :
    blank n (asyncEvent a0 a1 a2 s) = blank n s := by
  refine blank_mono (m := 0x83204C8E) ?_ hn
  unfold asyncEvent
  repeat' first
    | with_reducible rfl
    | simp only [mk_83204C8E, takeFree, Nat.reduceOr, apply_ite (blank _), apply_ite (keeps _ s), ite_self, implies_true, foldl_blank, keeps_next, Option.elim, finishWith_frame]
    | (with_reducible refine (foldl_blank ?_ _ _).trans ?_; intro s x)
    | (split <;> try (rename_i h; with_reducible rw [Prod.ext_iff] at h; have h' := h.2; dsimp only at h'; subst h'))
    | dsimp only

theorem recordSev_frame (a0) (a1) (a2) (a3) (a4) (s : State) (n : Nat) (hn : n ||| 0x83204C8E = n) :
    blank n (recordSev a0 a1 a2 a3 a4 s) = blank n s := by
  refine blank_mono (m := 0x83204C8E) ?_ hn
  unfold recordSev
  repeat' first
    | with_reducible rfl
    | simp only [mk_83204C8E, takeFree, Nat.reduceOr, apply_ite (blank _), apply_ite (keeps _ s), ite_self, implies_true, foldl_blank, keeps_next, Option.elim, recordCore_frame, asyncEvent_frame]
    | (with_reducible refine (foldl_blank ?_ _ _).trans ?_; intro s x)
    | (split <;> try (rename_i h; with_reducible rw [Prod.ext_iff] at h; have h' := h.2; dsimp only at h'; subst h'))
    | dsimp only

theorem record_frame (a0) (a1) (a2) (s : State) (n : Nat) (hn : n ||| 0x83204C8E = n) :
    blank n (record a0 a1 a2 s) = blank n s := by
  refine blank_mono (m := 0x83204C8E) ?_ hn
  unfold record
  repeat' first
    | with_reducible rfl
    | simp only [mk_83204C8E, takeFree, Nat.reduceOr, apply_ite (blank _), apply_ite (keeps _ s), ite_self, implies_true, foldl_blank, keeps_next, Option.elim, recordSev_frame]
    | (with_reducible refine (foldl_blank ?_ _ _).trans ?_; intro s x)
    | (split <;> try (rename_i h; with_reducible rw [Prod.ext_iff] at h; have h' := h.2; dsimp only at h'; subst h'))
    | dsimp only

theorem mapUnreadable_frame (a0) (s : State) (n : Nat) (hn : n ||| 0x83304C8E = n) :
    blank n (mapUnreadable a0 s) = blank n s := by
  refine blank_mono (m := 0x83304C8E) ?_ hn
  unfold mapUnreadable
  repeat' first
    | with_reducible rfl
    | simp only [mk_83304C8E, takeFree, Nat.reduceOr, apply_ite (blank _), apply_ite (keeps _ s), ite_self, implies_true, foldl_blank, keeps_next, Option.elim, record_frame]
    | (with_reducible refine (foldl_blank ?_ _ _).trans ?_; intro s x)
    | (split <;> try (rename_i h; with_reducible rw [Prod.ext_iff] at h; have h' := h.2; dsimp only at h'; subst h'))
    | dsimp only

theorem requestActivity_frame (a0) (s : State) (n : Nat) (hn : n ||| 0x83304C8E = n) :
    blank n (requestActivity a0 s) = blank n s := by
  refine blank_mono (m := 0x83304C8E) ?_ hn
  unfold requestActivity
  repeat' first
    | with_reducible rfl
    | simp only [mk_83304C8E, takeFree, Nat.reduceOr, apply_ite (blank _), apply_ite (keeps _ s), ite_self, implies_true, foldl_blank, keeps_next, Option.elim, record_frame]
    | (with_reducible refine (foldl_blank ?_ _ _).trans ?_; intro s x)
    | (split <;> try (rename_i h; with_reducible rw [Prod.ext_iff] at h; have h' := h.2; dsimp only at h'; subst h'))
    | dsimp only

theorem addTargets_frame (a0) (s : State) (n : Nat) (hn : n ||| 0x83304C8E = n) :
    blank n (addTargets a0 s) = blank n s := by
  refine blank_mono (m := 0x83304C8E) ?_ hn
  unfold addTargets
  repeat' first
    | with_reducible rfl
    | simp only [mk_83304C8E, takeFree, Nat.reduceOr, apply_ite (blank _), apply_ite (keeps _ s), ite_self, implies_true, foldl_blank, keeps_next, Option.elim, requestActivity_frame]
    | (with_reducible refine (foldl_blank ?_ _ _).trans ?_; intro s x)
    | (split <;> try (rename_i h; with_reducible rw [Prod.ext_iff] at h; have h' := h.2; dsimp only at h'; subst h'))
    | dsimp only

theorem enterStrips_frame (a0) (s : State) (n : Nat) (hn : n ||| 0x80280002 = n) :
    blank n (enterStrips a0 s) = blank n s := by
  refine blank_mono (m := 0x80280002) ?_ hn
  unfold enterStrips
  repeat' first
    | with_reducible rfl
    | simp only [mk_80280002, takeFree, Nat.reduceOr, apply_ite (blank _), apply_ite (keeps _ s), ite_self, implies_true, foldl_blank, keeps_next, Option.elim, sendDelta_frame]
    | (with_reducible refine (foldl_blank ?_ _ _).trans ?_; intro s x)
    | (split <;> try (rename_i h; with_reducible rw [Prod.ext_iff] at h; have h' := h.2; dsimp only at h'; subst h'))
    | dsimp only

theorem modBlock_frame (a0) (a1) (a2) (a3) (a4) (s : State) (n : Nat) (hn : n ||| 0x80280002 = n) :
    blank n (modBlock a0 a1 a2 a3 a4 s) = blank n s := by
  refine blank_mono (m := 0x80280002) ?_ hn
  unfold modBlock
  repeat' first
    | with_reducible rfl
    | simp only [mk_80280002, takeFree, Nat.reduceOr, apply_ite (blank _), apply_ite (keeps _ s), ite_self, implies_true, foldl_blank, keeps_next, Option.elim, sendDelta_frame]
    | (with_reducible refine (foldl_blank ?_ _ _).trans ?_; intro s x)
    | (split <;> try (rename_i h; with_reducible rw [Prod.ext_iff] at h; have h' := h.2; dsimp only at h'; subst h'))
    | dsimp only

theorem takeSlot_frame (a0) (s : State) (n : Nat) (hn : n ||| 0x80280002 = n) :
    blank n (takeSlot a0 s) = blank n s := by
  refine blank_mono (m := 0x80280002) ?_ hn
  unfold takeSlot
  repeat' first
    | with_reducible rfl
    | simp only [mk_80280002, takeFree, Nat.reduceOr, apply_ite (blank _), apply_ite (keeps _ s), ite_self, implies_true, foldl_blank, keeps_next, Option.elim, modBlock_frame]
    | (with_reducible refine (foldl_blank ?_ _ _).trans ?_; intro s x)
    | (split <;> try (rename_i h; with_reducible rw [Prod.ext_iff] at h; have h' := h.2; dsimp only at h'; subst h'))
    | dsimp only

theorem modStripe_frame (a0) (a1) (s : State) (n : Nat) (hn : n ||| 0x100000 = n) :
    blank n (modStripe a0 a1 s) = blank n s := by
  refine blank_mono (m := 0x100000) ?_ hn
  unfold modStripe
  repeat' first
    | with_reducible rfl
    | simp only [mk_100000, takeFree, Nat.reduceOr, apply_ite (blank _), apply_ite (keeps _ s), ite_self, implies_true, foldl_blank, keeps_next, Option.elim]
    | (with_reducible refine (foldl_blank ?_ _ _).trans ?_; intro s x)
    | (split <;> try (rename_i h; with_reducible rw [Prod.ext_iff] at h; have h' := h.2; dsimp only at h'; subst h'))
    | dsimp only

theorem dmlSend_frame (a0) (a1) (a2) (a3) (s : State) (n : Nat) (hn : n ||| 0x80040000 = n) :
    blank n (dmlSend a0 a1 a2 a3 s) = blank n s := by
  refine blank_mono (m := 0x80040000) ?_ hn
  unfold dmlSend
  repeat' first
    | with_reducible rfl
    | simp only [mk_80040000, takeFree, Nat.reduceOr, apply_ite (blank _), apply_ite (keeps _ s), ite_self, implies_true, foldl_blank, keeps_next, Option.elim, emit_frame, modPort_frame]
    | (with_reducible refine (foldl_blank ?_ _ _).trans ?_; intro s x)
    | (split <;> try (rename_i h; with_reducible rw [Prod.ext_iff] at h; have h' := h.2; dsimp only at h'; subst h'))
    | dsimp only

theorem dmlCmdOut_frame (a0) (a1) (a2) (s : State) (n : Nat) (hn : n ||| 0x80040000 = n) :
    blank n (dmlCmdOut a0 a1 a2 s) = blank n s := by
  refine blank_mono (m := 0x80040000) ?_ hn
  unfold dmlCmdOut
  repeat' first
    | with_reducible rfl
    | simp only [mk_80040000, takeFree, Nat.reduceOr, apply_ite (blank _), apply_ite (keeps _ s), ite_self, implies_true, foldl_blank, keeps_next, Option.elim, dmlSend_frame, modPort_frame]
    | (with_reducible refine (foldl_blank ?_ _ _).trans ?_; intro s x)
    | (split <;> try (rename_i h; with_reducible rw [Prod.ext_iff] at h; have h' := h.2; dsimp only at h'; subst h'))
    | dsimp only

theorem dmlWdOut_frame (a0) (s : State) (n : Nat) (hn : n ||| 0x80040000 = n) :
    blank n (dmlWdOut a0 s) = blank n s := by
  refine blank_mono (m := 0x80040000) ?_ hn
  unfold dmlWdOut
  repeat' first
    | with_reducible rfl
    | simp only [mk_80040000, takeFree, Nat.reduceOr, apply_ite (blank _), apply_ite (keeps _ s), ite_self, implies_true, foldl_blank, keeps_next, Option.elim, dmlSend_frame, modPort_frame]
    | (with_reducible refine (foldl_blank ?_ _ _).trans ?_; intro s x)
    | (split <;> try (rename_i h; with_reducible rw [Prod.ext_iff] at h; have h' := h.2; dsimp only at h'; subst h'))
    | dsimp only

theorem dmlPump_frame (a0) (a1) (s : State) (n : Nat) (hn : n ||| 0x80040000 = n) :
    blank n (dmlPump a0 a1 s) = blank n s := by
  refine blank_mono (m := 0x80040000) ?_ hn
  induction a1 generalizing s with
  | zero => rfl
  | succ k ih =>
    rw [dmlPump]
    repeat' first
      | with_reducible rfl
      | (rw [ih]; done)
      | rw [ih]
      | simp only [mk_80040000, takeFree, Nat.reduceOr, apply_ite (blank _), apply_ite (keeps _ s), ite_self, implies_true, foldl_blank, keeps_next, Option.elim, dmlCmdOut_frame, dmlWdOut_frame]
      | split
      | dsimp only

theorem dmlRun_frame (a0) (s : State) (n : Nat) (hn : n ||| 0x80040000 = n) :
    blank n (dmlRun a0 s) = blank n s := by
  refine blank_mono (m := 0x80040000) ?_ hn
  unfold dmlRun
  repeat' first
    | with_reducible rfl
    | simp only [mk_80040000, takeFree, Nat.reduceOr, apply_ite (blank _), apply_ite (keeps _ s), ite_self, implies_true, foldl_blank, keeps_next, Option.elim, dmlPump_frame]
    | (with_reducible refine (foldl_blank ?_ _ _).trans ?_; intro s x)
    | (split <;> try (rename_i h; with_reducible rw [Prod.ext_iff] at h; have h' := h.2; dsimp only at h'; subst h'))
    | dsimp only

theorem dmlIssue_frame (a0) (a1) (s : State) (n : Nat) (hn : n ||| 0x80040000 = n) :
    blank n (dmlIssue a0 a1 s) = blank n s := by
  refine blank_mono (m := 0x80040000) ?_ hn
  unfold dmlIssue
  repeat' first
    | with_reducible rfl
    | simp only [mk_80040000, takeFree, Nat.reduceOr, apply_ite (blank _), apply_ite (keeps _ s), ite_self, implies_true, foldl_blank, keeps_next, Option.elim, dmlRun_frame, modPort_frame]
    | (with_reducible refine (foldl_blank ?_ _ _).trans ?_; intro s x)
    | (split <;> try (rename_i h; with_reducible rw [Prod.ext_iff] at h; have h' := h.2; dsimp only at h'; subst h'))
    | dsimp only

theorem programPage_frame (a0) (a1) (a2) (a3) (a4) (s : State) (n : Nat) (hn : n ||| 0x80040000 = n) :
    blank n (programPage a0 a1 a2 a3 a4 s) = blank n s := by
  refine blank_mono (m := 0x80040000) ?_ hn
  unfold programPage
  repeat' first
    | with_reducible rfl
    | simp only [mk_80040000, takeFree, Nat.reduceOr, apply_ite (blank _), apply_ite (keeps _ s), ite_self, implies_true, foldl_blank, keeps_next, Option.elim, dmlIssue_frame]
    | (with_reducible refine (foldl_blank ?_ _ _).trans ?_; intro s x)
    | (split <;> try (rename_i h; with_reducible rw [Prod.ext_iff] at h; have h' := h.2; dsimp only at h'; subst h'))
    | dsimp only

theorem programTrailer_frame (a0) (a1) (a2) (s : State) (n : Nat) (hn : n ||| 0x80040000 = n) :
    blank n (programTrailer a0 a1 a2 s) = blank n s := by
  refine blank_mono (m := 0x80040000) ?_ hn
  unfold programTrailer
  repeat' first
    | with_reducible rfl
    | simp only [mk_80040000, takeFree, Nat.reduceOr, apply_ite (blank _), apply_ite (keeps _ s), ite_self, implies_true, foldl_blank, keeps_next, Option.elim, programPage_frame]
    | (with_reducible refine (foldl_blank ?_ _ _).trans ?_; intro s x)
    | (split <;> try (rename_i h; with_reducible rw [Prod.ext_iff] at h; have h' := h.2; dsimp only at h'; subst h'))
    | dsimp only

theorem programStrip_frame (a0) (a1) (a2) (a3) (s : State) (n : Nat) (hn : n ||| 0x80040000 = n) :
    blank n (programStrip a0 a1 a2 a3 s) = blank n s := by
  refine blank_mono (m := 0x80040000) ?_ hn
  unfold programStrip
  repeat' first
    | with_reducible rfl
    | simp only [mk_80040000, takeFree, Nat.reduceOr, apply_ite (blank _), apply_ite (keeps _ s), ite_self, implies_true, foldl_blank, keeps_next, Option.elim, programTrailer_frame, programPage_frame]
    | (with_reducible refine (foldl_blank ?_ _ _).trans ?_; intro s x)
    | (split <;> try (rename_i h; with_reducible rw [Prod.ext_iff] at h; have h' := h.2; dsimp only at h'; subst h'))
    | dsimp only

theorem moveStrip_frame (a0) (a1) (a2) (a3) (s : State) (n : Nat) (hn : n ||| 0x833C4C8E = n) :
    blank n (moveStrip a0 a1 a2 a3 s) = blank n s := by
  refine blank_mono (m := 0x833C4C8E) ?_ hn
  unfold moveStrip
  repeat' first
    | with_reducible rfl
    | simp only [mk_833C4C8E, takeFree, Nat.reduceOr, apply_ite (blank _), apply_ite (keeps _ s), ite_self, implies_true, foldl_blank, keeps_next, Option.elim, mapUnreadable_frame, addTargets_frame, enterStrips_frame, takeSlot_frame, modStripe_frame, programStrip_frame]
    | (with_reducible refine (foldl_blank ?_ _ _).trans ?_; intro s x)
    | (split <;> try (rename_i h; with_reducible rw [Prod.ext_iff] at h; have h' := h.2; dsimp only at h'; subst h'))
    | dsimp only

theorem redoStrip_frame (a0) (a1) (s : State) (n : Nat) (hn : n ||| 0x833C4C8E = n) :
    blank n (redoStrip a0 a1 s) = blank n s := by
  refine blank_mono (m := 0x833C4C8E) ?_ hn
  unfold redoStrip
  repeat' first
    | with_reducible rfl
    | simp only [mk_833C4C8E, takeFree, Nat.reduceOr, apply_ite (blank _), apply_ite (keeps _ s), ite_self, implies_true, foldl_blank, keeps_next, Option.elim, leaveStream_frame, moveStrip_frame]
    | (with_reducible refine (foldl_blank ?_ _ _).trans ?_; intro s x)
    | (split <;> try (rename_i h; with_reducible rw [Prod.ext_iff] at h; have h' := h.2; dsimp only at h'; subst h'))
    | dsimp only

theorem abandonBlock_frame (a0) (a1) (a2) (a3) (s : State) (n : Nat) (hn : n ||| 0x833C4C8E = n) :
    blank n (abandonBlock a0 a1 a2 a3 s) = blank n s := by
  refine blank_mono (m := 0x833C4C8E) ?_ hn
  unfold abandonBlock
  repeat' first
    | with_reducible rfl
    | simp only [mk_833C4C8E, takeFree, Nat.reduceOr, apply_ite (blank _), apply_ite (keeps _ s), ite_self, implies_true, foldl_blank, keeps_next, Option.elim, dropWaiting_frame, redoStrip_frame, addTargets_frame]
    | (with_reducible refine (foldl_blank ?_ _ _).trans ?_; intro s x)
    | (split <;> try (rename_i h; with_reducible rw [Prod.ext_iff] at h; have h' := h.2; dsimp only at h'; subst h'))
    | dsimp only

theorem dropJob_frame (a0) (a1) (s : State) (n : Nat) (hn : n ||| 0x2000 = n) :
    blank n (dropJob a0 a1 s) = blank n s := by
  refine blank_mono (m := 0x2000) ?_ hn
  unfold dropJob
  repeat' first
    | with_reducible rfl
    | simp only [mk_2000, takeFree, Nat.reduceOr, apply_ite (blank _), apply_ite (keeps _ s), ite_self, implies_true, foldl_blank, keeps_next, Option.elim]
    | (with_reducible refine (foldl_blank ?_ _ _).trans ?_; intro s x)
    | (split <;> try (rename_i h; with_reducible rw [Prod.ext_iff] at h; have h' := h.2; dsimp only at h'; subst h'))
    | dsimp only

theorem setSeedSlot_frame (a0) (a1) (a2) (a3) (s : State) (n : Nat) (hn : n ||| 0x4000 = n) :
    blank n (setSeedSlot a0 a1 a2 a3 s) = blank n s := by
  refine blank_mono (m := 0x4000) ?_ hn
  unfold setSeedSlot
  repeat' first
    | with_reducible rfl
    | simp only [mk_4000, takeFree, Nat.reduceOr, apply_ite (blank _), apply_ite (keeps _ s), ite_self, implies_true, foldl_blank, keeps_next, Option.elim]
    | (with_reducible refine (foldl_blank ?_ _ _).trans ?_; intro s x)
    | (split <;> try (rename_i h; with_reducible rw [Prod.ext_iff] at h; have h' := h.2; dsimp only at h'; subst h'))
    | dsimp only

theorem putSeed_frame (a0) (a1) (s : State) (n : Nat) (hn : n ||| 0x80204002 = n) :
    blank n (putSeed a0 a1 s) = blank n s := by
  refine blank_mono (m := 0x80204002) ?_ hn
  unfold putSeed
  repeat' first
    | with_reducible rfl
    | simp only [mk_80204002, takeFree, Nat.reduceOr, apply_ite (blank _), apply_ite (keeps _ s), ite_self, implies_true, foldl_blank, keeps_next, Option.elim, sendDelta_frame, setSeedSlot_frame]
    | (with_reducible refine (foldl_blank ?_ _ _).trans ?_; intro s x)
    | (split <;> try (rename_i h; with_reducible rw [Prod.ext_iff] at h; have h' := h.2; dsimp only at h'; subst h'))
    | dsimp only

theorem freeGrains_frame (a0) (a1) (s : State) (n : Nat) (hn : n ||| 0x100000 = n) :
    blank n (freeGrains a0 a1 s) = blank n s := by
  refine blank_mono (m := 0x100000) ?_ hn
  unfold freeGrains
  repeat' first
    | with_reducible rfl
    | simp only [mk_100000, takeFree, Nat.reduceOr, apply_ite (blank _), apply_ite (keeps _ s), ite_self, implies_true, foldl_blank, keeps_next, Option.elim]
    | (with_reducible refine (foldl_blank ?_ _ _).trans ?_; intro s x)
    | (split <;> try (rename_i h; with_reducible rw [Prod.ext_iff] at h; have h' := h.2; dsimp only at h'; subst h'))
    | dsimp only

theorem setShare_frame (a0) (a1) (s : State) (n : Nat) (hn : n ||| 0x4000 = n) :
    blank n (setShare a0 a1 s) = blank n s := by
  refine blank_mono (m := 0x4000) ?_ hn
  unfold setShare
  repeat' first
    | with_reducible rfl
    | simp only [mk_4000, takeFree, Nat.reduceOr, apply_ite (blank _), apply_ite (keeps _ s), ite_self, implies_true, foldl_blank, keeps_next, Option.elim]
    | (with_reducible refine (foldl_blank ?_ _ _).trans ?_; intro s x)
    | (split <;> try (rename_i h; with_reducible rw [Prod.ext_iff] at h; have h' := h.2; dsimp only at h'; subst h'))
    | dsimp only

theorem putShare_frame (a0) (a1) (s : State) (n : Nat) (hn : n ||| 0x80204002 = n) :
    blank n (putShare a0 a1 s) = blank n s := by
  refine blank_mono (m := 0x80204002) ?_ hn
  unfold putShare
  repeat' first
    | with_reducible rfl
    | simp only [mk_80204002, takeFree, Nat.reduceOr, apply_ite (blank _), apply_ite (keeps _ s), ite_self, implies_true, foldl_blank, keeps_next, Option.elim, sendDelta_frame, setShare_frame]
    | (with_reducible refine (foldl_blank ?_ _ _).trans ?_; intro s x)
    | (split <;> try (rename_i h; with_reducible rw [Prod.ext_iff] at h; have h' := h.2; dsimp only at h'; subst h'))
    | dsimp only

theorem lowerRef_frame (a0) (a1) (s : State) (n : Nat) (hn : n ||| 0x80304002 = n) :
    blank n (lowerRef a0 a1 s) = blank n s := by
  refine blank_mono (m := 0x80304002) ?_ hn
  unfold lowerRef
  repeat' first
    | with_reducible rfl
    | simp only [mk_80304002, takeFree, Nat.reduceOr, apply_ite (blank _), apply_ite (keeps _ s), ite_self, implies_true, foldl_blank, keeps_next, Option.elim, putSeed_frame, freeGrains_frame, putShare_frame]
    | (with_reducible refine (foldl_blank ?_ _ _).trans ?_; intro s x)
    | (split <;> try (rename_i h; with_reducible rw [Prod.ext_iff] at h; have h' := h.2; dsimp only at h'; subst h'))
    | dsimp only

theorem releaseEntry_frame (a0) (s : State) (n : Nat) (hn : n ||| 0x80304002 = n) :
    blank n (releaseEntry a0 s) = blank n s := by
  refine blank_mono (m := 0x80304002) ?_ hn
  unfold releaseEntry
  repeat' first
    | with_reducible rfl
    | simp only [mk_80304002, takeFree, Nat.reduceOr, apply_ite (blank _), apply_ite (keeps _ s), ite_self, implies_true, foldl_blank, keeps_next, Option.elim, lowerRef_frame, freeGrains_frame]
    | (with_reducible refine (foldl_blank ?_ _ _).trans ?_; intro s x)
    | (split <;> try (rename_i h; with_reducible rw [Prod.ext_iff] at h; have h' := h.2; dsimp only at h'; subst h'))
    | dsimp only

theorem abandonJob_frame (a0) (s : State) (n : Nat) (hn : n ||| 0x80306002 = n) :
    blank n (abandonJob a0 s) = blank n s := by
  refine blank_mono (m := 0x80306002) ?_ hn
  unfold abandonJob
  repeat' first
    | with_reducible rfl
    | simp only [mk_80306002, takeFree, Nat.reduceOr, apply_ite (blank _), apply_ite (keeps _ s), ite_self, implies_true, foldl_blank, keeps_next, Option.elim, dropJob_frame, lowerRef_frame, releaseEntry_frame]
    | (with_reducible refine (foldl_blank ?_ _ _).trans ?_; intro s x)
    | (split <;> try (rename_i h; with_reducible rw [Prod.ext_iff] at h; have h' := h.2; dsimp only at h'; subst h'))
    | dsimp only

theorem abortSentOn_frame (a0) (s : State) (n : Nat) (hn : n ||| 0x80200002 = n) :
    blank n (abortSentOn a0 s) = blank n s := by
  refine blank_mono (m := 0x80200002) ?_ hn
  unfold abortSentOn
  repeat' first
    | with_reducible rfl
    | simp only [mk_80200002, takeFree, Nat.reduceOr, apply_ite (blank _), apply_ite (keeps _ s), ite_self, implies_true, foldl_blank, keeps_next, Option.elim, xhlSend_frame]
    | (with_reducible refine (foldl_blank ?_ _ _).trans ?_; intro s x)
    | (split <;> try (rename_i h; with_reducible rw [Prod.ext_iff] at h; have h' := h.2; dsimp only at h'; subst h'))
    | dsimp only

theorem finish_frame (a0) (a1) (a2) (a3) (a4) (s : State) (n : Nat) (hn : n ||| 0x83204C8E = n) :
    blank n (finish a0 a1 a2 a3 a4 s) = blank n s := by
  refine blank_mono (m := 0x83204C8E) ?_ hn
  unfold finish
  repeat' first
    | with_reducible rfl
    | simp only [mk_83204C8E, takeFree, Nat.reduceOr, apply_ite (blank _), apply_ite (keeps _ s), ite_self, implies_true, foldl_blank, keeps_next, Option.elim, finishWith_frame]
    | (with_reducible refine (foldl_blank ?_ _ _).trans ?_; intro s x)
    | (split <;> try (rename_i h; with_reducible rw [Prod.ext_iff] at h; have h' := h.2; dsimp only at h'; subst h'))
    | dsimp only

theorem noteAsked_frame (a0) (a1) (s : State) (n : Nat) (hn : n ||| 0x480 = n) :
    blank n (noteAsked a0 a1 s) = blank n s := by
  refine blank_mono (m := 0x480) ?_ hn
  unfold noteAsked
  repeat' first
    | with_reducible rfl
    | simp only [mk_480, takeFree, Nat.reduceOr, apply_ite (blank _), apply_ite (keeps _ s), ite_self, implies_true, foldl_blank, keeps_next, Option.elim, modEp_frame, modQueue_frame]
    | (with_reducible refine (foldl_blank ?_ _ _).trans ?_; intro s x)
    | (split <;> try (rename_i h; with_reducible rw [Prod.ext_iff] at h; have h' := h.2; dsimp only at h'; subst h'))
    | dsimp only

theorem sendRead_frame (a0) (a1) (s : State) (n : Nat) (hn : n ||| 0x80000480 = n) :
    blank n (sendRead a0 a1 s) = blank n s := by
  refine blank_mono (m := 0x80000480) ?_ hn
  unfold sendRead
  repeat' first
    | with_reducible rfl
    | simp only [mk_80000480, takeFree, Nat.reduceOr, apply_ite (blank _), apply_ite (keeps _ s), ite_self, implies_true, foldl_blank, keeps_next, Option.elim, noteAsked_frame, emit_frame, modEp_frame]
    | (with_reducible refine (foldl_blank ?_ _ _).trans ?_; intro s x)
    | (split <;> try (rename_i h; with_reducible rw [Prod.ext_iff] at h; have h' := h.2; dsimp only at h'; subst h'))
    | dsimp only

theorem pumpReads_frame (a0) (a1) (s : State) (n : Nat) (hn : n ||| 0x80000480 = n) :
    blank n (pumpReads a0 a1 s) = blank n s := by
  refine blank_mono (m := 0x80000480) ?_ hn
  induction a1 generalizing s with
  | zero => rfl
  | succ k ih =>
    rw [pumpReads]
    repeat' first
      | with_reducible rfl
      | simp only [mk_80000480, takeFree, Nat.reduceOr, apply_ite (blank _), apply_ite (keeps _ s), ite_self, implies_true, foldl_blank, keeps_next, Option.elim, sendRead_frame, ih]
      | (split <;> try (rename_i h; with_reducible rw [Prod.ext_iff] at h; have h' := h.2; dsimp only at h'; subst h'))

theorem issueReads_frame (a0) (s : State) (n : Nat) (hn : n ||| 0x80000480 = n) :
    blank n (issueReads a0 s) = blank n s := by
  refine blank_mono (m := 0x80000480) ?_ hn
  unfold issueReads
  repeat' first
    | with_reducible rfl
    | simp only [mk_80000480, takeFree, Nat.reduceOr, apply_ite (blank _), apply_ite (keeps _ s), ite_self, implies_true, foldl_blank, keeps_next, Option.elim, pumpReads_frame]
    | (with_reducible refine (foldl_blank ?_ _ _).trans ?_; intro s x)
    | (split <;> try (rename_i h; with_reducible rw [Prod.ext_iff] at h; have h' := h.2; dsimp only at h'; subst h'))
    | dsimp only

theorem dropReads_frame (a0) (a1) (s : State) (n : Nat) (hn : n ||| 0x80000480 = n) :
    blank n (dropReads a0 a1 s) = blank n s := by
  refine blank_mono (m := 0x80000480) ?_ hn
  unfold dropReads
  repeat' first
    | with_reducible rfl
    | simp only [mk_80000480, takeFree, Nat.reduceOr, apply_ite (blank _), apply_ite (keeps _ s), ite_self, implies_true, foldl_blank, keeps_next, Option.elim, issueReads_frame, modEp_frame]
    | (with_reducible refine (foldl_blank ?_ _ _).trans ?_; intro s x)
    | (split <;> try (rename_i h; with_reducible rw [Prod.ext_iff] at h; have h' := h.2; dsimp only at h'; subst h'))
    | dsimp only

theorem readsDropped_frame (a0) (a1) (s : State) (n : Nat) (hn : n ||| 0x80000480 = n) :
    blank n (readsDropped a0 a1 s) = blank n s := by
  refine blank_mono (m := 0x80000480) ?_ hn
  unfold readsDropped
  repeat' first
    | with_reducible rfl
    | simp only [mk_80000480, takeFree, Nat.reduceOr, apply_ite (blank _), apply_ite (keeps _ s), ite_self, implies_true, foldl_blank, keeps_next, Option.elim, dropReads_frame]
    | (with_reducible refine (foldl_blank ?_ _ _).trans ?_; intro s x)
    | (split <;> try (rename_i h; with_reducible rw [Prod.ext_iff] at h; have h' := h.2; dsimp only at h'; subst h'))
    | dsimp only

theorem noteLogFull_frame (s : State) (n : Nat) (hn : n ||| 0x83206C8E = n) :
    blank n (noteLogFull s) = blank n s := by
  refine blank_mono (m := 0x83206C8E) ?_ hn
  unfold noteLogFull
  repeat' first
    | with_reducible rfl
    | simp only [mk_83206C8E, takeFree, Nat.reduceOr, apply_ite (blank _), apply_ite (keeps _ s), ite_self, implies_true, foldl_blank, keeps_next, Option.elim, record_frame]
    | (with_reducible refine (foldl_blank ?_ _ _).trans ?_; intro s x)
    | (split <;> try (rename_i h; with_reducible rw [Prod.ext_iff] at h; have h' := h.2; dsimp only at h'; subst h'))
    | dsimp only

theorem rebudget_frame (s : State) (n : Nat) (hn : n ||| 0x83204C8E = n) :
    blank n (rebudget s) = blank n s := by
  refine blank_mono (m := 0x83204C8E) ?_ hn
  unfold rebudget
  repeat' first
    | with_reducible rfl
    | simp only [mk_83204C8E, takeFree, Nat.reduceOr, apply_ite (blank _), apply_ite (keeps _ s), ite_self, implies_true, foldl_blank, keeps_next, Option.elim, record_frame]
    | (with_reducible refine (foldl_blank ?_ _ _).trans ?_; intro s x)
    | (split <;> try (rename_i h; with_reducible rw [Prod.ext_iff] at h; have h' := h.2; dsimp only at h'; subst h'))
    | dsimp only

theorem unreserve_frame (a0) (a1) (a2) (s : State) (n : Nat) (hn : n ||| 0x83206C8E = n) :
    blank n (unreserve a0 a1 a2 s) = blank n s := by
  refine blank_mono (m := 0x83206C8E) ?_ hn
  unfold unreserve
  repeat' first
    | with_reducible rfl
    | simp only [mk_83206C8E, takeFree, Nat.reduceOr, apply_ite (blank _), apply_ite (keeps _ s), ite_self, implies_true, foldl_blank, keeps_next, Option.elim, rebudget_frame]
    | (with_reducible refine (foldl_blank ?_ _ _).trans ?_; intro s x)
    | (split <;> try (rename_i h; with_reducible rw [Prod.ext_iff] at h; have h' := h.2; dsimp only at h'; subst h'))
    | dsimp only

theorem dropWrite_frame (a0) (s : State) (n : Nat) (hn : n ||| 0x83206C8E = n) :
    blank n (dropWrite a0 s) = blank n s := by
  refine blank_mono (m := 0x83206C8E) ?_ hn
  unfold dropWrite
  repeat' first
    | with_reducible rfl
    | simp only [mk_83206C8E, takeFree, Nat.reduceOr, apply_ite (blank _), apply_ite (keeps _ s), ite_self, implies_true, foldl_blank, keeps_next, Option.elim, readsDropped_frame, noteLogFull_frame, unreserve_frame]
    | (with_reducible refine (foldl_blank ?_ _ _).trans ?_; intro s x)
    | (split <;> try (rename_i h; with_reducible rw [Prod.ext_iff] at h; have h' := h.2; dsimp only at h'; subst h'))
    | dsimp only

theorem digIdle_frame (a0) (s : State) (n : Nat) (hn : n ||| 0x20000 = n) :
    blank n (digIdle a0 s) = blank n s := by
  refine blank_mono (m := 0x20000) ?_ hn
  unfold digIdle
  repeat' first
    | with_reducible rfl
    | simp only [mk_20000, takeFree, Nat.reduceOr, apply_ite (blank _), apply_ite (keeps _ s), ite_self, implies_true, foldl_blank, keeps_next, Option.elim]
    | (with_reducible refine (foldl_blank ?_ _ _).trans ?_; intro s x)
    | (split <;> try (rename_i h; with_reducible rw [Prod.ext_iff] at h; have h' := h.2; dsimp only at h'; subst h'))
    | dsimp only

theorem leaveDigest_frame (a0) (s : State) (n : Nat) (hn : n ||| 0x20000 = n) :
    blank n (leaveDigest a0 s) = blank n s := by
  refine blank_mono (m := 0x20000) ?_ hn
  unfold leaveDigest
  repeat' first
    | with_reducible rfl
    | simp only [mk_20000, takeFree, Nat.reduceOr, apply_ite (blank _), apply_ite (keeps _ s), ite_self, implies_true, foldl_blank, keeps_next, Option.elim, digIdle_frame]
    | (with_reducible refine (foldl_blank ?_ _ _).trans ?_; intro s x)
    | (split <;> try (rename_i h; with_reducible rw [Prod.ext_iff] at h; have h' := h.2; dsimp only at h'; subst h'))
    | dsimp only

theorem endReady_frame (a0) (a1) (s : State) (n : Nat) (hn : n ||| 0x83204C8E = n) :
    blank n (endReady a0 a1 s) = blank n s := by
  refine blank_mono (m := 0x83204C8E) ?_ hn
  unfold endReady
  repeat' first
    | with_reducible rfl
    | simp only [mk_83204C8E, takeFree, Nat.reduceOr, apply_ite (blank _), apply_ite (keeps _ s), ite_self, implies_true, foldl_blank, keeps_next, Option.elim, finish_frame]
    | (with_reducible refine (foldl_blank ?_ _ _).trans ?_; intro s x)
    | (split <;> try (rename_i h; with_reducible rw [Prod.ext_iff] at h; have h' := h.2; dsimp only at h'; subst h'))
    | dsimp only

theorem abortTag_frame (a0) (a1) (s : State) (n : Nat) (hn : n ||| 0x83226C8E = n) :
    blank n (abortTag a0 a1 s) = blank n s := by
  refine blank_mono (m := 0x83226C8E) ?_ hn
  unfold abortTag
  repeat' first
    | with_reducible rfl
    | simp only [mk_83226C8E, takeFree, Nat.reduceOr, apply_ite (blank _), apply_ite (keeps _ s), ite_self, implies_true, foldl_blank, keeps_next, Option.elim, modQueue_frame, finish_frame, readsDropped_frame, abortSentOn_frame, dropWrite_frame, leaveDigest_frame]
    | (with_reducible refine (foldl_blank ?_ _ _).trans ?_; intro s x)
    | (split <;> try (rename_i h; with_reducible rw [Prod.ext_iff] at h; have h' := h.2; dsimp only at h'; subst h'))
    | dsimp only

theorem redoSlot_frame (a0) (s : State) (n : Nat) (hn : n ||| 0x833C4C8E = n) :
    blank n (redoSlot a0 s) = blank n s := by
  refine blank_mono (m := 0x833C4C8E) ?_ hn
  unfold redoSlot
  repeat' first
    | with_reducible rfl
    | simp only [mk_833C4C8E, takeFree, Nat.reduceOr, apply_ite (blank _), apply_ite (keeps _ s), ite_self, implies_true, foldl_blank, keeps_next, Option.elim, redoStrip_frame]
    | (with_reducible refine (foldl_blank ?_ _ _).trans ?_; intro s x)
    | (split <;> try (rename_i h; with_reducible rw [Prod.ext_iff] at h; have h' := h.2; dsimp only at h'; subst h'))
    | dsimp only

theorem slotUnreadable_frame (a0) (s : State) (n : Nat) (hn : n ||| 0x83304C8E = n) :
    blank n (slotUnreadable a0 s) = blank n s := by
  refine blank_mono (m := 0x83304C8E) ?_ hn
  unfold slotUnreadable
  repeat' first
    | with_reducible rfl
    | simp only [mk_83304C8E, takeFree, Nat.reduceOr, apply_ite (blank _), apply_ite (keeps _ s), ite_self, implies_true, foldl_blank, keeps_next, Option.elim, mapUnreadable_frame]
    | (with_reducible refine (foldl_blank ?_ _ _).trans ?_; intro s x)
    | (split <;> try (rename_i h; with_reducible rw [Prod.ext_iff] at h; have h' := h.2; dsimp only at h'; subst h'))
    | dsimp only

theorem modSlot_frame (a0) (a1) (s : State) (n : Nat) (hn : n ||| 0x100000 = n) :
    blank n (modSlot a0 a1 s) = blank n s := by
  refine blank_mono (m := 0x100000) ?_ hn
  unfold modSlot
  repeat' first
    | with_reducible rfl
    | simp only [mk_100000, takeFree, Nat.reduceOr, apply_ite (blank _), apply_ite (keeps _ s), ite_self, implies_true, foldl_blank, keeps_next, Option.elim]
    | (with_reducible refine (foldl_blank ?_ _ _).trans ?_; intro s x)
    | (split <;> try (rename_i h; with_reducible rw [Prod.ext_iff] at h; have h' := h.2; dsimp only at h'; subst h'))
    | dsimp only

theorem setLayout_frame (a0) (a1) (s : State) (n : Nat) (hn : n ||| 0x83304C8E = n) :
    blank n (setLayout a0 a1 s) = blank n s := by
  refine blank_mono (m := 0x83304C8E) ?_ hn
  unfold setLayout
  repeat' first
    | with_reducible rfl
    | simp only [mk_83304C8E, takeFree, Nat.reduceOr, apply_ite (blank _), apply_ite (keeps _ s), ite_self, implies_true, foldl_blank, keeps_next, Option.elim, modSlot_frame, sendDelta_frame, record_frame]
    | (with_reducible refine (foldl_blank ?_ _ _).trans ?_; intro s x)
    | (split <;> try (rename_i h; with_reducible rw [Prod.ext_iff] at h; have h' := h.2; dsimp only at h'; subst h'))
    | dsimp only

theorem moduleLeaves_frame (a0) (a1) (s : State) (n : Nat) (hn : n ||| 0x833C4C8E = n) :
    blank n (moduleLeaves a0 a1 s) = blank n s := by
  refine blank_mono (m := 0x833C4C8E) ?_ hn
  unfold moduleLeaves
  repeat' first
    | with_reducible rfl
    | simp only [mk_833C4C8E, takeFree, Nat.reduceOr, apply_ite (blank _), apply_ite (keeps _ s), ite_self, implies_true, foldl_blank, keeps_next, Option.elim, redoSlot_frame, slotUnreadable_frame, setLayout_frame]
    | (with_reducible refine (foldl_blank ?_ _ _).trans ?_; intro s x)
    | (split <;> try (rename_i h; with_reducible rw [Prod.ext_iff] at h; have h' := h.2; dsimp only at h'; subst h'))
    | dsimp only

theorem absentLeave_frame (s : State) (n : Nat) (hn : n ||| 0x833C4C8E = n) :
    blank n (absentLeave s) = blank n s := by
  refine blank_mono (m := 0x833C4C8E) ?_ hn
  unfold absentLeave
  repeat' first
    | with_reducible rfl
    | simp only [mk_833C4C8E, takeFree, Nat.reduceOr, apply_ite (blank _), apply_ite (keeps _ s), ite_self, implies_true, foldl_blank, keeps_next, Option.elim, moduleLeaves_frame]
    | (with_reducible refine (foldl_blank ?_ _ _).trans ?_; intro s x)
    | (split <;> try (rename_i h; with_reducible rw [Prod.ext_iff] at h; have h' := h.2; dsimp only at h'; subst h'))
    | dsimp only

theorem modVol_frame (a0) (a1) (s : State) (n : Nat) (hn : n ||| 0x4000 = n) :
    blank n (modVol a0 a1 s) = blank n s := by
  refine blank_mono (m := 0x4000) ?_ hn
  unfold modVol
  repeat' first
    | with_reducible rfl
    | simp only [mk_4000, takeFree, Nat.reduceOr, apply_ite (blank _), apply_ite (keeps _ s), ite_self, implies_true, foldl_blank, keeps_next, Option.elim]
    | (with_reducible refine (foldl_blank ?_ _ _).trans ?_; intro s x)
    | (split <;> try (rename_i h; with_reducible rw [Prod.ext_iff] at h; have h' := h.2; dsimp only at h'; subst h'))
    | dsimp only

theorem modJob_frame (a0) (a1) (a2) (s : State) (n : Nat) (hn : n ||| 0x2000 = n) :
    blank n (modJob a0 a1 a2 s) = blank n s := by
  refine blank_mono (m := 0x2000) ?_ hn
  unfold modJob
  repeat' first
    | with_reducible rfl
    | simp only [mk_2000, takeFree, Nat.reduceOr, apply_ite (blank _), apply_ite (keeps _ s), ite_self, implies_true, foldl_blank, keeps_next, Option.elim]
    | (with_reducible refine (foldl_blank ?_ _ _).trans ?_; intro s x)
    | (split <;> try (rename_i h; with_reducible rw [Prod.ext_iff] at h; have h' := h.2; dsimp only at h'; subst h'))
    | dsimp only

theorem acceptHit_frame (a0) (a1) (a2) (s : State) (n : Nat) (hn : n ||| 0x6000 = n) :
    blank n (acceptHit a0 a1 a2 s) = blank n s := by
  refine blank_mono (m := 0x6000) ?_ hn
  unfold acceptHit
  repeat' first
    | with_reducible rfl
    | simp only [mk_6000, takeFree, Nat.reduceOr, apply_ite (blank _), apply_ite (keeps _ s), ite_self, implies_true, foldl_blank, keeps_next, Option.elim, modVol_frame, modJob_frame]
    | (with_reducible refine (foldl_blank ?_ _ _).trans ?_; intro s x)
    | (split <;> try (rename_i h; with_reducible rw [Prod.ext_iff] at h; have h' := h.2; dsimp only at h'; subst h'))
    | dsimp only

theorem aerCorrectable_frame (a0) (a1) (s : State) (n : Nat) (hn : n ||| 0x80000080 = n) :
    blank n (aerCorrectable a0 a1 s) = blank n s := by
  refine blank_mono (m := 0x80000080) ?_ hn
  unfold aerCorrectable
  repeat' first
    | with_reducible rfl
    | simp only [mk_80000080, takeFree, Nat.reduceOr, apply_ite (blank _), apply_ite (keeps _ s), ite_self, implies_true, foldl_blank, keeps_next, Option.elim, modEp_frame, emit_frame]
    | (with_reducible refine (foldl_blank ?_ _ _).trans ?_; intro s x)
    | (split <;> try (rename_i h; with_reducible rw [Prod.ext_iff] at h; have h' := h.2; dsimp only at h'; subst h'))
    | dsimp only

theorem aerUncorrectable_frame (a0) (a1) (a2) (s : State) (n : Nat) (hn : n ||| 0x80000080 = n) :
    blank n (aerUncorrectable a0 a1 a2 s) = blank n s := by
  refine blank_mono (m := 0x80000080) ?_ hn
  unfold aerUncorrectable
  repeat' first
    | with_reducible rfl
    | simp only [mk_80000080, takeFree, Nat.reduceOr, apply_ite (blank _), apply_ite (keeps _ s), ite_self, implies_true, foldl_blank, keeps_next, Option.elim, modEp_frame, aerCorrectable_frame, emit_frame]
    | (with_reducible refine (foldl_blank ?_ _ _).trans ?_; intro s x)
    | (split <;> try (rename_i h; with_reducible rw [Prod.ext_iff] at h; have h' := h.2; dsimp only at h'; subst h'))
    | dsimp only

theorem accessError_frame (a0) (a1) (s : State) (n : Nat) (hn : n ||| 0x83204C8E = n) :
    blank n (accessError a0 a1 s) = blank n s := by
  refine blank_mono (m := 0x83204C8E) ?_ hn
  unfold accessError
  repeat' first
    | with_reducible rfl
    | simp only [mk_83204C8E, takeFree, Nat.reduceOr, apply_ite (blank _), apply_ite (keeps _ s), ite_self, implies_true, foldl_blank, keeps_next, Option.elim, emit_frame, record_frame, aerUncorrectable_frame, modEp_frame]
    | (with_reducible refine (foldl_blank ?_ _ _).trans ?_; intro s x)
    | (split <;> try (rename_i h; with_reducible rw [Prod.ext_iff] at h; have h' := h.2; dsimp only at h'; subst h'))
    | dsimp only

theorem dmlBare_frame (a0) (a1) (a2) (s : State) (n : Nat) (hn : n ||| 0x80000000 = n) :
    blank n (dmlBare a0 a1 a2 s) = blank n s := by
  refine blank_mono (m := 0x80000000) ?_ hn
  unfold dmlBare
  repeat' first
    | with_reducible rfl
    | simp only [mk_80000000, takeFree, Nat.reduceOr, apply_ite (blank _), apply_ite (keeps _ s), ite_self, implies_true, foldl_blank, keeps_next, Option.elim, emit_frame]
    | (with_reducible refine (foldl_blank ?_ _ _).trans ?_; intro s x)
    | (split <;> try (rename_i h; with_reducible rw [Prod.ext_iff] at h; have h' := h.2; dsimp only at h'; subst h'))
    | dsimp only

theorem ackOut_frame (a0) (s : State) (n : Nat) (hn : n ||| 0x80040000 = n) :
    blank n (ackOut a0 s) = blank n s := by
  refine blank_mono (m := 0x80040000) ?_ hn
  unfold ackOut
  repeat' first
    | with_reducible rfl
    | simp only [mk_80040000, takeFree, Nat.reduceOr, apply_ite (blank _), apply_ite (keeps _ s), ite_self, implies_true, foldl_blank, keeps_next, Option.elim, dmlRun_frame, dmlBare_frame]
    | (with_reducible refine (foldl_blank ?_ _ _).trans ?_; intro s x)
    | (split <;> try (rename_i h; with_reducible rw [Prod.ext_iff] at h; have h' := h.2; dsimp only at h'; subst h'))
    | dsimp only

theorem modQp_frame (a0) (a1) (s : State) (n : Nat) (hn : n ||| 0x800 = n) :
    blank n (modQp a0 a1 s) = blank n s := by
  refine blank_mono (m := 0x800) ?_ hn
  unfold modQp
  repeat' first
    | with_reducible rfl
    | simp only [mk_800, takeFree, Nat.reduceOr, apply_ite (blank _), apply_ite (keeps _ s), ite_self, implies_true, foldl_blank, keeps_next, Option.elim]
    | (with_reducible refine (foldl_blank ?_ _ _).trans ?_; intro s x)
    | (split <;> try (rename_i h; with_reducible rw [Prod.ext_iff] at h; have h' := h.2; dsimp only at h'; subst h'))
    | dsimp only

theorem sendRoceOn_frame (a0) (a1) (a2) (a3) (s : State) (n : Nat) (hn : n ||| 0x80000800 = n) :
    blank n (sendRoceOn a0 a1 a2 a3 s) = blank n s := by
  refine blank_mono (m := 0x80000800) ?_ hn
  unfold sendRoceOn
  repeat' first
    | with_reducible rfl
    | simp only [mk_80000800, takeFree, Nat.reduceOr, apply_ite (blank _), apply_ite (keeps _ s), ite_self, implies_true, foldl_blank, keeps_next, Option.elim, emit_frame]
    | (with_reducible refine (foldl_blank ?_ _ _).trans ?_; intro s x)
    | (split <;> try (rename_i h; with_reducible rw [Prod.ext_iff] at h; have h' := h.2; dsimp only at h'; subst h'))
    | dsimp only

theorem sendRoce_frame (a0) (a1) (a2) (s : State) (n : Nat) (hn : n ||| 0x80000800 = n) :
    blank n (sendRoce a0 a1 a2 s) = blank n s := by
  refine blank_mono (m := 0x80000800) ?_ hn
  unfold sendRoce
  repeat' first
    | with_reducible rfl
    | simp only [mk_80000800, takeFree, Nat.reduceOr, apply_ite (blank _), apply_ite (keeps _ s), ite_self, implies_true, foldl_blank, keeps_next, Option.elim, sendRoceOn_frame]
    | (with_reducible refine (foldl_blank ?_ _ _).trans ?_; intro s x)
    | (split <;> try (rename_i h; with_reducible rw [Prod.ext_iff] at h; have h' := h.2; dsimp only at h'; subst h'))
    | dsimp only

theorem noteCe_frame (a0) (s : State) (n : Nat) (hn : n ||| 0x80000800 = n) :
    blank n (noteCe a0 s) = blank n s := by
  refine blank_mono (m := 0x80000800) ?_ hn
  unfold noteCe
  repeat' first
    | with_reducible rfl
    | simp only [mk_80000800, takeFree, Nat.reduceOr, apply_ite (blank _), apply_ite (keeps _ s), ite_self, implies_true, foldl_blank, keeps_next, Option.elim, sendRoce_frame, modQp_frame]
    | (with_reducible refine (foldl_blank ?_ _ _).trans ?_; intro s x)
    | (split <;> try (rename_i h; with_reducible rw [Prod.ext_iff] at h; have h' := h.2; dsimp only at h'; subst h'))
    | dsimp only

theorem ackedTo_frame (a0) (a1) (s : State) (n : Nat) (hn : n ||| 0x80000800 = n) :
    blank n (ackedTo a0 a1 s) = blank n s := by
  refine blank_mono (m := 0x80000800) ?_ hn
  unfold ackedTo
  repeat' first
    | with_reducible rfl
    | simp only [mk_80000800, takeFree, Nat.reduceOr, apply_ite (blank _), apply_ite (keeps _ s), ite_self, implies_true, foldl_blank, keeps_next, Option.elim, modQp_frame]
    | (with_reducible refine (foldl_blank ?_ _ _).trans ?_; intro s x)
    | (split <;> try (rename_i h; with_reducible rw [Prod.ext_iff] at h; have h' := h.2; dsimp only at h'; subst h'))
    | dsimp only

theorem updRefuse_frame (s : State) (n : Nat) (hn : n ||| 0x4000000 = n) :
    blank n (updRefuse s) = blank n s := by
  refine blank_mono (m := 0x4000000) ?_ hn
  unfold updRefuse
  repeat' first
    | with_reducible rfl
    | simp only [mk_4000000, takeFree, Nat.reduceOr, apply_ite (blank _), apply_ite (keeps _ s), ite_self, implies_true, foldl_blank, keeps_next, Option.elim]
    | (with_reducible refine (foldl_blank ?_ _ _).trans ?_; intro s x)
    | (split <;> try (rename_i h; with_reducible rw [Prod.ext_iff] at h; have h' := h.2; dsimp only at h'; subst h'))
    | dsimp only

theorem outside_frame (a0) (a1) (a2) (s : State) (n : Nat) (hn : n ||| 0x83204C8E = n) :
    blank n (outside a0 a1 a2 s) = blank n s := by
  refine blank_mono (m := 0x83204C8E) ?_ hn
  unfold outside
  repeat' first
    | with_reducible rfl
    | simp only [mk_83204C8E, takeFree, Nat.reduceOr, apply_ite (blank _), apply_ite (keeps _ s), ite_self, implies_true, foldl_blank, keeps_next, Option.elim, emit_frame, modEp_frame, record_frame, aerUncorrectable_frame]
    | (with_reducible refine (foldl_blank ?_ _ _).trans ?_; intro s x)
    | (split <;> try (rename_i h; with_reducible rw [Prod.ext_iff] at h; have h' := h.2; dsimp only at h'; subst h'))
    | dsimp only

theorem activate_frame (a0) (s : State) (n : Nat) (hn : n ||| 0x87204C8E = n) :
    blank n (activate a0 s) = blank n s := by
  refine blank_mono (m := 0x87204C8E) ?_ hn
  unfold activate
  repeat' first
    | with_reducible rfl
    | simp only [mk_87204C8E, takeFree, Nat.reduceOr, apply_ite (blank _), apply_ite (keeps _ s), ite_self, implies_true, foldl_blank, keeps_next, Option.elim, updRefuse_frame]
    | (with_reducible refine (foldl_blank ?_ _ _).trans ?_; intro s x)
    | (split <;> try (rename_i h; with_reducible rw [Prod.ext_iff] at h; have h' := h.2; dsimp only at h'; subst h'))
    | dsimp only

theorem activateCut_frame (s : State) (n : Nat) (hn : n ||| 0x4000000 = n) :
    blank n (activateCut s) = blank n s := by
  refine blank_mono (m := 0x4000000) ?_ hn
  unfold activateCut
  repeat' first
    | with_reducible rfl
    | simp only [mk_4000000, takeFree, Nat.reduceOr, apply_ite (blank _), apply_ite (keeps _ s), ite_self, implies_true, foldl_blank, keeps_next, Option.elim]
    | (with_reducible refine (foldl_blank ?_ _ _).trans ?_; intro s x)
    | (split <;> try (rename_i h; with_reducible rw [Prod.ext_iff] at h; have h' := h.2; dsimp only at h'; subst h'))
    | dsimp only

theorem norPage_frame (a0) (a1) (s : State) (n : Nat) (hn : n ||| 0xA000000 = n) :
    blank n (norPage a0 a1 s) = blank n s := by
  refine blank_mono (m := 0xA000000) ?_ hn
  unfold norPage
  repeat' first
    | with_reducible rfl
    | simp only [mk_A000000, takeFree, Nat.reduceOr, apply_ite (blank _), apply_ite (keeps _ s), ite_self, implies_true, foldl_blank, keeps_next, Option.elim]
    | (with_reducible refine (foldl_blank ?_ _ _).trans ?_; intro s x)
    | (split <;> try (rename_i h; with_reducible rw [Prod.ext_iff] at h; have h' := h.2; dsimp only at h'; subst h'))
    | dsimp only

theorem norPages_frame (a0) (a1) (a2) (s : State) (n : Nat) (hn : n ||| 0xA000000 = n) :
    blank n (norPages a0 a1 a2 s) = blank n s := by
  refine blank_mono (m := 0xA000000) ?_ hn
  induction a0 generalizing a1 a2 s with
  | zero => rfl
  | succ k ih =>
    rw [norPages]
    repeat' first
      | with_reducible rfl
      | (rw [ih]; done)
      | rw [ih]
      | simp only [mk_A000000, takeFree, Nat.reduceOr, apply_ite (blank _), apply_ite (keeps _ s), ite_self, implies_true, foldl_blank, keeps_next, Option.elim, norPage_frame]
      | split
      | dsimp only

theorem norWrite_frame (a0) (a1) (s : State) (n : Nat) (hn : n ||| 0xA000000 = n) :
    blank n (norWrite a0 a1 s) = blank n s := by
  refine blank_mono (m := 0xA000000) ?_ hn
  unfold norWrite
  repeat' first
    | with_reducible rfl
    | simp only [mk_A000000, takeFree, Nat.reduceOr, apply_ite (blank _), apply_ite (keeps _ s), ite_self, implies_true, foldl_blank, keeps_next, Option.elim, norPages_frame]
    | (with_reducible refine (foldl_blank ?_ _ _).trans ?_; intro s x)
    | (split <;> try (rename_i h; with_reducible rw [Prod.ext_iff] at h; have h' := h.2; dsimp only at h'; subst h'))
    | dsimp only

theorem norErase_frame (a0) (a1) (s : State) (n : Nat) (hn : n ||| 0xA000000 = n) :
    blank n (norErase a0 a1 s) = blank n s := by
  refine blank_mono (m := 0xA000000) ?_ hn
  unfold norErase
  repeat' first
    | with_reducible rfl
    | simp only [mk_A000000, takeFree, Nat.reduceOr, apply_ite (blank _), apply_ite (keeps _ s), ite_self, implies_true, foldl_blank, keeps_next, Option.elim]
    | (with_reducible refine (foldl_blank ?_ _ _).trans ?_; intro s x)
    | (split <;> try (rename_i h; with_reducible rw [Prod.ext_iff] at h; have h' := h.2; dsimp only at h'; subst h'))
    | dsimp only

theorem copyPut_frame (a0) (a1) (s : State) (n : Nat) (hn : n ||| 0xA000000 = n) :
    blank n (copyPut a0 a1 s) = blank n s := by
  refine blank_mono (m := 0xA000000) ?_ hn
  unfold copyPut
  repeat' first
    | with_reducible rfl
    | simp only [mk_A000000, takeFree, Nat.reduceOr, apply_ite (blank _), apply_ite (keeps _ s), ite_self, implies_true, foldl_blank, keeps_next, Option.elim, norWrite_frame, norErase_frame]
    | (with_reducible refine (foldl_blank ?_ _ _).trans ?_; intro s x)
    | (split <;> try (rename_i h; with_reducible rw [Prod.ext_iff] at h; have h' := h.2; dsimp only at h'; subst h'))
    | dsimp only

theorem copiesPut_frame (a0) (s : State) (n : Nat) (hn : n ||| 0xA000000 = n) :
    blank n (copiesPut a0 s) = blank n s := by
  refine blank_mono (m := 0xA000000) ?_ hn
  unfold copiesPut
  repeat' first
    | with_reducible rfl
    | simp only [mk_A000000, takeFree, Nat.reduceOr, apply_ite (blank _), apply_ite (keeps _ s), ite_self, implies_true, foldl_blank, keeps_next, Option.elim, copyPut_frame]
    | (with_reducible refine (foldl_blank ?_ _ _).trans ?_; intro s x)
    | (split <;> try (rename_i h; with_reducible rw [Prod.ext_iff] at h; have h' := h.2; dsimp only at h'; subst h'))
    | dsimp only

theorem writeBoot_frame (a0) (s : State) (n : Nat) (hn : n ||| 0xE000004 = n) :
    blank n (writeBoot a0 s) = blank n s := by
  refine blank_mono (m := 0xE000004) ?_ hn
  unfold writeBoot
  repeat' first
    | with_reducible rfl
    | simp only [mk_E000004, takeFree, Nat.reduceOr, apply_ite (blank _), apply_ite (keeps _ s), ite_self, implies_true, foldl_blank, keeps_next, Option.elim, copiesPut_frame]
    | (with_reducible refine (foldl_blank ?_ _ _).trans ?_; intro s x)
    | (split <;> try (rename_i h; with_reducible rw [Prod.ext_iff] at h; have h' := h.2; dsimp only at h'; subst h'))
    | dsimp only

theorem activateOn_frame (s : State) (n : Nat) (hn : n ||| 0xE000004 = n) :
    blank n (activateOn s) = blank n s := by
  refine blank_mono (m := 0xE000004) ?_ hn
  unfold activateOn
  cases s.upd.activating with
  | none => rfl
  | some b => dsimp only [Option.elim]; rw [writeBoot_frame _ _ _ rfl, mk_E000004]

theorem addLost_frame (a0) (s : State) (n : Nat) (hn : n ||| 0x83304C8E = n) :
    blank n (addLost a0 s) = blank n s := by
  refine blank_mono (m := 0x83304C8E) ?_ hn
  unfold addLost
  repeat' first
    | with_reducible rfl
    | simp only [mk_83304C8E, takeFree, Nat.reduceOr, apply_ite (blank _), apply_ite (keeps _ s), ite_self, implies_true, foldl_blank, keeps_next, Option.elim, record_frame]
    | (with_reducible refine (foldl_blank ?_ _ _).trans ?_; intro s x)
    | (split <;> try (rename_i h; with_reducible rw [Prod.ext_iff] at h; have h' := h.2; dsimp only at h'; subst h'))
    | dsimp only

theorem addPage_frame (a0) (s : State) (n : Nat) (hn : n ||| 0x80000 = n) :
    blank n (addPage a0 s) = blank n s := by
  refine blank_mono (m := 0x80000) ?_ hn
  unfold addPage
  repeat' first
    | with_reducible rfl
    | simp only [mk_80000, takeFree, Nat.reduceOr, apply_ite (blank _), apply_ite (keeps _ s), ite_self, implies_true, foldl_blank, keeps_next, Option.elim]
    | (with_reducible refine (foldl_blank ?_ _ _).trans ?_; intro s x)
    | (split <;> try (rename_i h; with_reducible rw [Prod.ext_iff] at h; have h' := h.2; dsimp only at h'; subst h'))
    | dsimp only

theorem addTest_frame (a0) (a1) (a2) (s : State) (n : Nat) (hn : n ||| 0x83204C8E = n) :
    blank n (addTest a0 a1 a2 s) = blank n s := by
  refine blank_mono (m := 0x83204C8E) ?_ hn
  unfold addTest
  repeat' first
    | with_reducible rfl
    | simp only [mk_83204C8E, takeFree, Nat.reduceOr, apply_ite (blank _), apply_ite (keeps _ s), ite_self, implies_true, foldl_blank, keeps_next, Option.elim, record_frame]
    | (with_reducible refine (foldl_blank ?_ _ _).trans ?_; intro s x)
    | (split <;> try (rename_i h; with_reducible rw [Prod.ext_iff] at h; have h' := h.2; dsimp only at h'; subst h'))
    | dsimp only

theorem admCtlWrite_frame (a0) (a1) (s : State) (n : Nat) (hn : n ||| 0x80000480 = n) :
    blank n (admCtlWrite a0 a1 s) = blank n s := by
  refine blank_mono (m := 0x80000480) ?_ hn
  unfold admCtlWrite
  repeat' first
    | with_reducible rfl
    | simp only [mk_80000480, takeFree, Nat.reduceOr, apply_ite (blank _), apply_ite (keeps _ s), ite_self, implies_true, foldl_blank, keeps_next, Option.elim, dropReads_frame]
    | (with_reducible refine (foldl_blank ?_ _ _).trans ?_; intro s x)
    | (split <;> try (rename_i h; with_reducible rw [Prod.ext_iff] at h; have h' := h.2; dsimp only at h'; subst h'))
    | dsimp only

theorem hostReadReq_frame (a0) (a1) (a2) (s : State) (n : Nat) (hn : n ||| 0x80000480 = n) :
    blank n (hostReadReq a0 a1 a2 s) = blank n s := by
  refine blank_mono (m := 0x80000480) ?_ hn
  unfold hostReadReq
  repeat' first
    | with_reducible rfl
    | simp only [mk_80000480, takeFree, Nat.reduceOr, apply_ite (blank _), apply_ite (keeps _ s), ite_self, implies_true, foldl_blank, keeps_next, Option.elim, issueReads_frame, modEp_frame]
    | (with_reducible refine (foldl_blank ?_ _ _).trans ?_; intro s x)
    | (split <;> try (rename_i h; with_reducible rw [Prod.ext_iff] at h; have h' := h.2; dsimp only at h'; subst h'))
    | dsimp only

theorem readBuffers_frame (a0) (s : State) (n : Nat) (hn : n ||| 0x80000480 = n) :
    blank n (readBuffers a0 s) = blank n s := by
  refine blank_mono (m := 0x80000480) ?_ hn
  unfold readBuffers
  repeat' first
    | with_reducible rfl
    | simp only [mk_80000480, takeFree, Nat.reduceOr, apply_ite (blank _), apply_ite (keeps _ s), ite_self, implies_true, foldl_blank, keeps_next, Option.elim, hostReadReq_frame]
    | (with_reducible refine (foldl_blank ?_ _ _).trans ?_; intro s x)
    | (split <;> try (rename_i h; with_reducible rw [Prod.ext_iff] at h; have h' := h.2; dsimp only at h'; subst h'))
    | dsimp only

theorem noteTurn_frame (a0) (s : State) (n : Nat) (hn : n ||| 0x80002480 = n) :
    blank n (noteTurn a0 s) = blank n s := by
  refine blank_mono (m := 0x80002480) ?_ hn
  unfold noteTurn
  repeat' first
    | with_reducible rfl
    | simp only [mk_80002480, takeFree, Nat.reduceOr, apply_ite (blank _), apply_ite (keeps _ s), ite_self, implies_true, foldl_blank, keeps_next, Option.elim]
    | (with_reducible refine (foldl_blank ?_ _ _).trans ?_; intro s x)
    | (split <;> try (rename_i h; with_reducible rw [Prod.ext_iff] at h; have h' := h.2; dsimp only at h'; subst h'))
    | dsimp only

theorem noteMirrorHeld_frame (s : State) (n : Nat) (hn : n ||| 0x83206C8E = n) :
    blank n (noteMirrorHeld s) = blank n s := by
  refine blank_mono (m := 0x83206C8E) ?_ hn
  unfold noteMirrorHeld
  repeat' first
    | with_reducible rfl
    | simp only [mk_83206C8E, takeFree, Nat.reduceOr, apply_ite (blank _), apply_ite (keeps _ s), ite_self, implies_true, foldl_blank, keeps_next, Option.elim, record_frame]
    | (with_reducible refine (foldl_blank ?_ _ _).trans ?_; intro s x)
    | (split <;> try (rename_i h; with_reducible rw [Prod.ext_iff] at h; have h' := h.2; dsimp only at h'; subst h'))
    | dsimp only

theorem sendMirror_frame (a0) (s : State) (n : Nat) (hn : n ||| 0x80200002 = n) :
    blank n (sendMirror a0 s) = blank n s := by
  refine blank_mono (m := 0x80200002) ?_ hn
  unfold sendMirror
  repeat' first
    | with_reducible rfl
    | simp only [mk_80200002, takeFree, Nat.reduceOr, apply_ite (blank _), apply_ite (keeps _ s), ite_self, implies_true, foldl_blank, keeps_next, Option.elim, xhlSend_frame]
    | (with_reducible refine (foldl_blank ?_ _ _).trans ?_; intro s x)
    | (split <;> try (rename_i h; with_reducible rw [Prod.ext_iff] at h; have h' := h.2; dsimp only at h'; subst h'))
    | dsimp only

theorem admitWrite_frame (a0) (s : State) (n : Nat) (hn : n ||| 0x83206C8E = n) :
    blank n (admitWrite a0 s) = blank n s := by
  refine blank_mono (m := 0x83206C8E) ?_ hn
  unfold admitWrite
  repeat' first
    | with_reducible rfl
    | simp only [mk_83206C8E, takeFree, Nat.reduceOr, apply_ite (blank _), apply_ite (keeps _ s), ite_self, implies_true, foldl_blank, keeps_next, Option.elim, modVol_frame, noteMirrorHeld_frame, sendMirror_frame]
    | (with_reducible refine (foldl_blank ?_ _ _).trans ?_; intro s x)
    | (split <;> try (rename_i h; with_reducible rw [Prod.ext_iff] at h; have h' := h.2; dsimp only at h'; subst h'))
    | dsimp only

theorem admitForwarded_frame (a0) (a1) (s : State) (n : Nat) (hn : n ||| 0x83206C8E = n) :
    blank n (admitForwarded a0 a1 s) = blank n s := by
  refine blank_mono (m := 0x83206C8E) ?_ hn
  unfold admitForwarded
  repeat' first
    | with_reducible rfl
    | simp only [mk_83206C8E, takeFree, Nat.reduceOr, apply_ite (blank _), apply_ite (keeps _ s), ite_self, implies_true, foldl_blank, keeps_next, Option.elim, noteTurn_frame, unreserve_frame, admitWrite_frame, rebudget_frame, xhlSend_frame]
    | (with_reducible refine (foldl_blank ?_ _ _).trans ?_; intro s x)
    | (split <;> try (rename_i h; with_reducible rw [Prod.ext_iff] at h; have h' := h.2; dsimp only at h'; subst h'))
    | dsimp only

theorem admitOne_frame (a0) (s : State) (n : Nat) (hn : n ||| 0x83304C8E = n) :
    blank n (admitOne a0 s) = blank n s := by
  refine blank_mono (m := 0x83304C8E) ?_ hn
  unfold admitOne
  repeat' first
    | with_reducible rfl
    | simp only [mk_83304C8E, takeFree, Nat.reduceOr, apply_ite (blank _), apply_ite (keeps _ s), ite_self, implies_true, foldl_blank, keeps_next, Option.elim, record_frame]
    | (with_reducible refine (foldl_blank ?_ _ _).trans ?_; intro s x)
    | (split <;> try (rename_i h; with_reducible rw [Prod.ext_iff] at h; have h' := h.2; dsimp only at h'; subst h'))
    | dsimp only

theorem modLink_frame (a0) (a1) (s : State) (n : Nat) (hn : n ||| 0x1000 = n) :
    blank n (modLink a0 a1 s) = blank n s := by
  refine blank_mono (m := 0x1000) ?_ hn
  unfold modLink
  repeat' first
    | with_reducible rfl
    | simp only [mk_1000, takeFree, Nat.reduceOr, apply_ite (blank _), apply_ite (keeps _ s), ite_self, implies_true, foldl_blank, keeps_next, Option.elim]
    | (with_reducible refine (foldl_blank ?_ _ _).trans ?_; intro s x)
    | (split <;> try (rename_i h; with_reducible rw [Prod.ext_iff] at h; have h' := h.2; dsimp only at h'; subst h'))
    | dsimp only

theorem adoptCuts_frame (a0) (s : State) (n : Nat) (hn : n ||| 0x1000 = n) :
    blank n (adoptCuts a0 s) = blank n s := by
  refine blank_mono (m := 0x1000) ?_ hn
  unfold adoptCuts
  repeat' first
    | with_reducible rfl
    | simp only [mk_1000, takeFree, Nat.reduceOr, apply_ite (blank _), apply_ite (keeps _ s), ite_self, implies_true, foldl_blank, keeps_next, Option.elim, modLink_frame]
    | (with_reducible refine (foldl_blank ?_ _ _).trans ?_; intro s x)
    | (split <;> try (rename_i h; with_reducible rw [Prod.ext_iff] at h; have h' := h.2; dsimp only at h'; subst h'))
    | dsimp only

theorem aerTransfer_frame (a0) (a1) (s : State) (n : Nat) (hn : n ||| 0x80000080 = n) :
    blank n (aerTransfer a0 a1 s) = blank n s := by
  refine blank_mono (m := 0x80000080) ?_ hn
  unfold aerTransfer
  repeat' first
    | with_reducible rfl
    | simp only [mk_80000080, takeFree, Nat.reduceOr, apply_ite (blank _), apply_ite (keeps _ s), ite_self, implies_true, foldl_blank, keeps_next, Option.elim, aerUncorrectable_frame]
    | (with_reducible refine (foldl_blank ?_ _ _).trans ?_; intro s x)
    | (split <;> try (rename_i h; with_reducible rw [Prod.ext_iff] at h; have h' := h.2; dsimp only at h'; subst h'))
    | dsimp only

theorem afterReset_frame (a0) (a1) (s : State) (n : Nat) (hn : n ||| 0x37FFFFEB = n) :
    blank n (afterReset a0 a1 s) = blank n s := by
  refine blank_mono (m := 0x37FFFFEB) ?_ hn
  unfold afterReset
  repeat' first
    | with_reducible rfl
    | simp only [mk_37FFFFEB, takeFree, Nat.reduceOr, apply_ite (blank _), apply_ite (keeps _ s), ite_self, implies_true, foldl_blank, keeps_next, Option.elim]
    | (with_reducible refine (foldl_blank ?_ _ _).trans ?_; intro s x)
    | (split <;> try (rename_i h; with_reducible rw [Prod.ext_iff] at h; have h' := h.2; dsimp only at h'; subst h'))
    | dsimp only

theorem ageLedger_frame (a0) (s : State) (n : Nat) (hn : n ||| 0x80000 = n) :
    blank n (ageLedger a0 s) = blank n s := by
  refine blank_mono (m := 0x80000) ?_ hn
  unfold ageLedger
  repeat' first
    | with_reducible rfl
    | simp only [mk_80000, takeFree, Nat.reduceOr, apply_ite (blank _), apply_ite (keeps _ s), ite_self, implies_true, foldl_blank, keeps_next, Option.elim]
    | (with_reducible refine (foldl_blank ?_ _ _).trans ?_; intro s x)
    | (split <;> try (rename_i h; with_reducible rw [Prod.ext_iff] at h; have h' := h.2; dsimp only at h'; subst h'))
    | dsimp only

theorem ageZone_frame (a0) (a1) (a2) (s : State) (n : Nat) (hn : n ||| 0x80000 = n) :
    blank n (ageZone a0 a1 a2 s) = blank n s := by
  refine blank_mono (m := 0x80000) ?_ hn
  unfold ageZone
  repeat' first
    | with_reducible rfl
    | simp only [mk_80000, takeFree, Nat.reduceOr, apply_ite (blank _), apply_ite (keeps _ s), ite_self, implies_true, foldl_blank, keeps_next, Option.elim]
    | (with_reducible refine (foldl_blank ?_ _ _).trans ?_; intro s x)
    | (split <;> try (rename_i h; with_reducible rw [Prod.ext_iff] at h; have h' := h.2; dsimp only at h'; subst h'))
    | dsimp only

theorem modReg_frame (a0) (a1) (a2) (s : State) (n : Nat) (hn : n ||| 0x2 = n) :
    blank n (modReg a0 a1 a2 s) = blank n s := by
  refine blank_mono (m := 0x2) ?_ hn
  unfold modReg
  repeat' first
    | with_reducible rfl
    | simp only [mk_2, takeFree, Nat.reduceOr, apply_ite (blank _), apply_ite (keeps _ s), ite_self, implies_true, foldl_blank, keeps_next, Option.elim]
    | (with_reducible refine (foldl_blank ?_ _ _).trans ?_; intro s x)
    | (split <;> try (rename_i h; with_reducible rw [Prod.ext_iff] at h; have h' := h.2; dsimp only at h'; subst h'))
    | dsimp only

theorem noteTemp_frame (a0) (a1) (s : State) (n : Nat) (hn : n ||| 0x8 = n) :
    blank n (noteTemp a0 a1 s) = blank n s := by
  refine blank_mono (m := 0x8) ?_ hn
  unfold noteTemp
  repeat' first
    | with_reducible rfl
    | simp only [mk_8, takeFree, Nat.reduceOr, apply_ite (blank _), apply_ite (keeps _ s), ite_self, implies_true, foldl_blank, keeps_next, Option.elim]
    | (with_reducible refine (foldl_blank ?_ _ _).trans ?_; intro s x)
    | (split <;> try (rename_i h; with_reducible rw [Prod.ext_iff] at h; have h' := h.2; dsimp only at h'; subst h'))
    | dsimp only

theorem regClear_frame (a0) (s : State) (n : Nat) (hn : n ||| 0x80000000 = n) :
    blank n (regClear a0 s) = blank n s := by
  refine blank_mono (m := 0x80000000) ?_ hn
  unfold regClear
  repeat' first
    | with_reducible rfl
    | simp only [mk_80000000, takeFree, Nat.reduceOr, apply_ite (blank _), apply_ite (keeps _ s), ite_self, implies_true, foldl_blank, keeps_next, Option.elim, emit_frame]
    | (with_reducible refine (foldl_blank ?_ _ _).trans ?_; intro s x)
    | (split <;> try (rename_i h; with_reducible rw [Prod.ext_iff] at h; have h' := h.2; dsimp only at h'; subst h'))
    | dsimp only

theorem recordAlert_frame (a0) (a1) (a2) (s : State) (n : Nat) (hn : n ||| 0x83204C8E = n) :
    blank n (recordAlert a0 a1 a2 s) = blank n s := by
  refine blank_mono (m := 0x83204C8E) ?_ hn
  unfold recordAlert
  repeat' first
    | with_reducible rfl
    | simp only [mk_83204C8E, takeFree, Nat.reduceOr, apply_ite (blank _), apply_ite (keeps _ s), ite_self, implies_true, foldl_blank, keeps_next, Option.elim, recordSev_frame]
    | (with_reducible refine (foldl_blank ?_ _ _).trans ?_; intro s x)
    | (split <;> try (rename_i h; with_reducible rw [Prod.ext_iff] at h; have h' := h.2; dsimp only at h'; subst h'))
    | dsimp only

theorem regRecord_frame (a0) (a1) (a2) (a3) (a4) (s : State) (n : Nat) (hn : n ||| 0x83204C8E = n) :
    blank n (regRecord a0 a1 a2 a3 a4 s) = blank n s := by
  refine blank_mono (m := 0x83204C8E) ?_ hn
  unfold regRecord
  repeat' first
    | with_reducible rfl
    | simp only [mk_83204C8E, takeFree, Nat.reduceOr, apply_ite (blank _), apply_ite (keeps _ s), ite_self, implies_true, foldl_blank, keeps_next, Option.elim, recordAlert_frame, record_frame]
    | (with_reducible refine (foldl_blank ?_ _ _).trans ?_; intro s x)
    | (split <;> try (rename_i h; with_reducible rw [Prod.ext_iff] at h; have h' := h.2; dsimp only at h'; subst h'))
    | dsimp only

theorem lcCut_frame (s : State) (n : Nat) (hn : n ||| 0x20 = n) :
    blank n (lcCut s) = blank n s := by
  refine blank_mono (m := 0x20) ?_ hn
  unfold lcCut
  repeat' first
    | with_reducible rfl
    | simp only [mk_20, takeFree, Nat.reduceOr, apply_ite (blank _), apply_ite (keeps _ s), ite_self, implies_true, foldl_blank, keeps_next, Option.elim]
    | (with_reducible refine (foldl_blank ?_ _ _).trans ?_; intro s x)
    | (split <;> try (rename_i h; with_reducible rw [Prod.ext_iff] at h; have h' := h.2; dsimp only at h'; subst h'))
    | dsimp only

theorem failQueue_frame (s : State) (a1) (n : Nat) (hn : n ||| 0x83204C8E = n) :
    blank n (failQueue s a1) = blank n s := by
  refine blank_mono (m := 0x83204C8E) ?_ hn
  unfold failQueue
  repeat' first
    | with_reducible rfl
    | simp only [mk_83204C8E, takeFree, Nat.reduceOr, apply_ite (blank _), apply_ite (keeps _ s), ite_self, implies_true, foldl_blank, keeps_next, Option.elim, finish_frame]
    | (with_reducible refine (foldl_blank ?_ _ _).trans ?_; intro s x)
    | (split <;> try (rename_i h; with_reducible rw [Prod.ext_iff] at h; have h' := h.2; dsimp only at h'; subst h'))
    | dsimp only

theorem norFresh_frame (a0) (s : State) (n : Nat) (hn : n ||| 0xA000000 = n) :
    blank n (norFresh a0 s) = blank n s := by
  refine blank_mono (m := 0xA000000) ?_ hn
  unfold norFresh
  repeat' first
    | with_reducible rfl
    | simp only [mk_A000000, takeFree, Nat.reduceOr, apply_ite (blank _), apply_ite (keeps _ s), ite_self, implies_true, foldl_blank, keeps_next, Option.elim, norErase_frame]
    | (with_reducible refine (foldl_blank ?_ _ _).trans ?_; intro s x)
    | (split <;> try (rename_i h; with_reducible rw [Prod.ext_iff] at h; have h' := h.2; dsimp only at h'; subst h'))
    | dsimp only

theorem ringPut_frame (a0) (s : State) (n : Nat) (hn : n ||| 0xA000000 = n) :
    blank n (ringPut a0 s) = blank n s := by
  refine blank_mono (m := 0xA000000) ?_ hn
  unfold ringPut
  repeat' first
    | with_reducible rfl
    | simp only [mk_A000000, takeFree, Nat.reduceOr, apply_ite (blank _), apply_ite (keeps _ s), ite_self, implies_true, foldl_blank, keeps_next, Option.elim, norFresh_frame, norWrite_frame]
    | (with_reducible refine (foldl_blank ?_ _ _).trans ?_; intro s x)
    | (split <;> try (rename_i h; with_reducible rw [Prod.ext_iff] at h; have h' := h.2; dsimp only at h'; subst h'))
    | dsimp only

theorem birthPut_frame (a0) (s : State) (n : Nat) (hn : n ||| 0xA000000 = n) :
    blank n (birthPut a0 s) = blank n s := by
  refine blank_mono (m := 0xA000000) ?_ hn
  unfold birthPut
  repeat' first
    | with_reducible rfl
    | simp only [mk_A000000, takeFree, Nat.reduceOr, apply_ite (blank _), apply_ite (keeps _ s), ite_self, implies_true, foldl_blank, keeps_next, Option.elim, norWrite_frame]
    | (with_reducible refine (foldl_blank ?_ _ _).trans ?_; intro s x)
    | (split <;> try (rename_i h; with_reducible rw [Prod.ext_iff] at h; have h' := h.2; dsimp only at h'; subst h'))
    | dsimp only

theorem norPut_frame (a0) (s : State) (n : Nat) (hn : n ||| 0xA000000 = n) :
    blank n (norPut a0 s) = blank n s := by
  refine blank_mono (m := 0xA000000) ?_ hn
  unfold norPut
  repeat' first
    | with_reducible rfl
    | simp only [mk_A000000, takeFree, Nat.reduceOr, apply_ite (blank _), apply_ite (keeps _ s), ite_self, implies_true, foldl_blank, keeps_next, Option.elim, ringPut_frame, birthPut_frame]
    | (with_reducible refine (foldl_blank ?_ _ _).trans ?_; intro s x)
    | (split <;> try (rename_i h; with_reducible rw [Prod.ext_iff] at h; have h' := h.2; dsimp only at h'; subst h'))
    | dsimp only

theorem norPutAll_frame (s : State) (n : Nat) (hn : n ||| 0xA000000 = n) :
    blank n (norPutAll s) = blank n s := by
  refine blank_mono (m := 0xA000000) ?_ hn
  unfold norPutAll
  repeat' first
    | with_reducible rfl
    | simp only [mk_A000000, takeFree, Nat.reduceOr, apply_ite (blank _), apply_ite (keeps _ s), ite_self, implies_true, foldl_blank, keeps_next, Option.elim, norPut_frame]
    | (with_reducible refine (foldl_blank ?_ _ _).trans ?_; intro s x)
    | (split <;> try (rename_i h; with_reducible rw [Prod.ext_iff] at h; have h' := h.2; dsimp only at h'; subst h'))
    | dsimp only

theorem almCloseAll_frame (s : State) (n : Nat) (hn : n ||| 0x2000004 = n) :
    blank n (almCloseAll s) = blank n s := by
  refine blank_mono (m := 0x2000004) ?_ hn
  unfold almCloseAll
  repeat' first
    | with_reducible rfl
    | simp only [mk_2000004, takeFree, Nat.reduceOr, apply_ite (blank _), apply_ite (keeps _ s), ite_self, implies_true, foldl_blank, keeps_next, Option.elim, almClose_frame]
    | (with_reducible refine (foldl_blank ?_ _ _).trans ?_; intro s x)
    | (split <;> try (rename_i h; with_reducible rw [Prod.ext_iff] at h; have h' := h.2; dsimp only at h'; subst h'))
    | dsimp only

theorem heldPush_frame (s : State) (n : Nat) (hn : n ||| 0x2000004 = n) :
    blank n (heldPush s) = blank n s := by
  refine blank_mono (m := 0x2000004) ?_ hn
  unfold heldPush
  repeat' first
    | with_reducible rfl
    | simp only [mk_2000004, takeFree, Nat.reduceOr, apply_ite (blank _), apply_ite (keeps _ s), ite_self, implies_true, foldl_blank, keeps_next, Option.elim, norPush_frame]
    | (with_reducible refine (foldl_blank ?_ _ _).trans ?_; intro s x)
    | (split <;> try (rename_i h; with_reducible rw [Prod.ext_iff] at h; have h' := h.2; dsimp only at h'; subst h'))
    | dsimp only

theorem almSaveAll_frame (s : State) (n : Nat) (hn : n ||| 0xA000004 = n) :
    blank n (almSaveAll s) = blank n s := by
  refine blank_mono (m := 0xA000004) ?_ hn
  unfold almSaveAll
  repeat' first
    | with_reducible rfl
    | simp only [mk_A000004, takeFree, Nat.reduceOr, apply_ite (blank _), apply_ite (keeps _ s), ite_self, implies_true, foldl_blank, keeps_next, Option.elim, norPutAll_frame, almCloseAll_frame, heldPush_frame]
    | (with_reducible refine (foldl_blank ?_ _ _).trans ?_; intro s x)
    | (split <;> try (rename_i h; with_reducible rw [Prod.ext_iff] at h; have h' := h.2; dsimp only at h'; subst h'))
    | dsimp only

theorem failstop_frame (a0) (a1) (s : State) (n : Nat) (hn : n ||| 0x8F206CAF = n) :
    blank n (failstop a0 a1 s) = blank n s := by
  refine blank_mono (m := 0x8F206CAF) ?_ hn
  unfold failstop
  repeat' first
    | with_reducible rfl
    | simp only [mk_8F206CAF, takeFree, Nat.reduceOr, apply_ite (blank _), apply_ite (keeps _ s), ite_self, implies_true, foldl_blank, keeps_next, Option.elim, almMerge_frame, activateCut_frame, lcCut_frame, xhlSend_frame, failQueue_frame, almSaveAll_frame, recordAlert_frame]
    | (with_reducible refine (foldl_blank ?_ _ _).trans ?_; intro s x)
    | (split <;> try (rename_i h; with_reducible rw [Prod.ext_iff] at h; have h' := h.2; dsimp only at h'; subst h'))
    | dsimp only

theorem railTest_frame (a0) (s : State) (n : Nat) (hn : n ||| 0x83204C8E = n) :
    blank n (railTest a0 s) = blank n s := by
  refine blank_mono (m := 0x83204C8E) ?_ hn
  unfold railTest
  repeat' first
    | with_reducible rfl
    | simp only [mk_83204C8E, takeFree, Nat.reduceOr, apply_ite (blank _), apply_ite (keeps _ s), ite_self, implies_true, foldl_blank, keeps_next, Option.elim, addTest_frame]
    | (with_reducible refine (foldl_blank ?_ _ _).trans ?_; intro s x)
    | (split <;> try (rename_i h; with_reducible rw [Prod.ext_iff] at h; have h' := h.2; dsimp only at h'; subst h'))
    | dsimp only

theorem regEvent_frame (a0) (a1) (s : State) (n : Nat) (hn : n ||| 0x8F206CAF = n) :
    blank n (regEvent a0 a1 s) = blank n s := by
  refine blank_mono (m := 0x8F206CAF) ?_ hn
  unfold regEvent
  repeat' first
    | with_reducible rfl
    | simp only [mk_8F206CAF, takeFree, Nat.reduceOr, apply_ite (blank _), apply_ite (keeps _ s), ite_self, implies_true, foldl_blank, keeps_next, Option.elim, regClear_frame, regRecord_frame, failstop_frame, railTest_frame]
    | (with_reducible refine (foldl_blank ?_ _ _).trans ?_; intro s x)
    | (split <;> try (rename_i h; with_reducible rw [Prod.ext_iff] at h; have h' := h.2; dsimp only at h'; subst h'))
    | dsimp only

theorem externalError_frame (a0) (a1) (s : State) (n : Nat) (hn : n ||| 0x83204C8E = n) :
    blank n (externalError a0 a1 s) = blank n s := by
  refine blank_mono (m := 0x83204C8E) ?_ hn
  unfold externalError
  repeat' first
    | with_reducible rfl
    | simp only [mk_83204C8E, takeFree, Nat.reduceOr, apply_ite (blank _), apply_ite (keeps _ s), ite_self, implies_true, foldl_blank, keeps_next, Option.elim, addTest_frame]
    | (with_reducible refine (foldl_blank ?_ _ _).trans ?_; intro s x)
    | (split <;> try (rename_i h; with_reducible rw [Prod.ext_iff] at h; have h' := h.2; dsimp only at h'; subst h'))
    | dsimp only

theorem regFailed_frame (a0) (s : State) (n : Nat) (hn : n ||| 0x83204C8E = n) :
    blank n (regFailed a0 s) = blank n s := by
  refine blank_mono (m := 0x83204C8E) ?_ hn
  unfold regFailed
  repeat' first
    | with_reducible rfl
    | simp only [mk_83204C8E, takeFree, Nat.reduceOr, apply_ite (blank _), apply_ite (keeps _ s), ite_self, implies_true, foldl_blank, keeps_next, Option.elim, modReg_frame, regRecord_frame, externalError_frame, record_frame]
    | (with_reducible refine (foldl_blank ?_ _ _).trans ?_; intro s x)
    | (split <;> try (rename_i h; with_reducible rw [Prod.ext_iff] at h; have h' := h.2; dsimp only at h'; subst h'))
    | dsimp only

theorem regRead_frame (s : State) (a1) (n : Nat) (hn : n ||| 0x8F206CAF = n) :
    blank n (regRead s a1) = blank n s := by
  refine blank_mono (m := 0x8F206CAF) ?_ hn
  unfold regRead
  repeat' first
    | with_reducible rfl
    | simp only [mk_8F206CAF, takeFree, Nat.reduceOr, apply_ite (blank _), apply_ite (keeps _ s), ite_self, implies_true, foldl_blank, keeps_next, Option.elim, modReg_frame, noteTemp_frame, regEvent_frame, regFailed_frame]
    | (with_reducible refine (foldl_blank ?_ _ _).trans ?_; intro s x)
    | (split <;> try (rename_i h; with_reducible rw [Prod.ext_iff] at h; have h' := h.2; dsimp only at h'; subst h'))
    | dsimp only

theorem alertRead_frame (s : State) (a1) (n : Nat) (hn : n ||| 0x8F206CAF = n) :
    blank n (alertRead s a1) = blank n s := by
  refine blank_mono (m := 0x8F206CAF) ?_ hn
  unfold alertRead
  repeat' first
    | with_reducible rfl
    | simp only [mk_8F206CAF, takeFree, Nat.reduceOr, apply_ite (blank _), apply_ite (keeps _ s), ite_self, implies_true, foldl_blank, keeps_next, Option.elim, regRead_frame, emit_frame]
    | (with_reducible refine (foldl_blank ?_ _ _).trans ?_; intro s x)
    | (split <;> try (rename_i h; with_reducible rw [Prod.ext_iff] at h; have h' := h.2; dsimp only at h'; subst h'))
    | dsimp only

theorem almClear_frame (a0) (s : State) (n : Nat) (hn : n ||| 0x8B204C8E = n) :
    blank n (almClear a0 s) = blank n s := by
  refine blank_mono (m := 0x8B204C8E) ?_ hn
  unfold almClear
  repeat' first
    | with_reducible rfl
    | simp only [mk_8B204C8E, takeFree, Nat.reduceOr, apply_ite (blank _), apply_ite (keeps _ s), ite_self, implies_true, foldl_blank, keeps_next, Option.elim, almCloseAll_frame, birthPut_frame, record_frame]
    | (with_reducible refine (foldl_blank ?_ _ _).trans ?_; intro s x)
    | (split <;> try (rename_i h; with_reducible rw [Prod.ext_iff] at h; have h' := h.2; dsimp only at h'; subst h'))
    | dsimp only

theorem almLatch_frame (s : State) (n : Nat) (hn : n ||| 0x2000000 = n) :
    blank n (almLatch s) = blank n s := by
  refine blank_mono (m := 0x2000000) ?_ hn
  unfold almLatch
  repeat' first
    | with_reducible rfl
    | simp only [mk_2000000, takeFree, Nat.reduceOr, apply_ite (blank _), apply_ite (keeps _ s), ite_self, implies_true, foldl_blank, keeps_next, Option.elim]
    | (with_reducible refine (foldl_blank ?_ _ _).trans ?_; intro s x)
    | (split <;> try (rename_i h; with_reducible rw [Prod.ext_iff] at h; have h' := h.2; dsimp only at h'; subst h'))
    | dsimp only

theorem almCursorWrite_frame (a0) (s : State) (n : Nat) (hn : n ||| 0x2000000 = n) :
    blank n (almCursorWrite a0 s) = blank n s := by
  refine blank_mono (m := 0x2000000) ?_ hn
  unfold almCursorWrite
  repeat' first
    | with_reducible rfl
    | simp only [mk_2000000, takeFree, Nat.reduceOr, apply_ite (blank _), apply_ite (keeps _ s), ite_self, implies_true, foldl_blank, keeps_next, Option.elim, almLatch_frame]
    | (with_reducible refine (foldl_blank ?_ _ _).trans ?_; intro s x)
    | (split <;> try (rename_i h; with_reducible rw [Prod.ext_iff] at h; have h' := h.2; dsimp only at h'; subst h'))
    | dsimp only

theorem almReadLast_frame (s : State) (n : Nat) (hn : n ||| 0x42000000 = n) :
    blank n (almReadLast s) = blank n s := by
  refine blank_mono (m := 0x42000000) ?_ hn
  unfold almReadLast
  repeat' first
    | with_reducible rfl
    | simp only [mk_42000000, takeFree, Nat.reduceOr, apply_ite (blank _), apply_ite (keeps _ s), ite_self, implies_true, foldl_blank, keeps_next, Option.elim, almLatch_frame]
    | (with_reducible refine (foldl_blank ?_ _ _).trans ?_; intro s x)
    | (split <;> try (rename_i h; with_reducible rw [Prod.ext_iff] at h; have h' := h.2; dsimp only at h'; subst h'))
    | dsimp only

theorem almSelect_frame (a0) (s : State) (n : Nat) (hn : n ||| 0x2000000 = n) :
    blank n (almSelect a0 s) = blank n s := by
  refine blank_mono (m := 0x2000000) ?_ hn
  unfold almSelect
  repeat' first
    | with_reducible rfl
    | simp only [mk_2000000, takeFree, Nat.reduceOr, apply_ite (blank _), apply_ite (keeps _ s), ite_self, implies_true, foldl_blank, keeps_next, Option.elim, almLatch_frame]
    | (with_reducible refine (foldl_blank ?_ _ _).trans ?_; intro s x)
    | (split <;> try (rename_i h; with_reducible rw [Prod.ext_iff] at h; have h' := h.2; dsimp only at h'; subst h'))
    | dsimp only

theorem almWrite_frame (a0) (a1) (s : State) (n : Nat) (hn : n ||| 0x8B204C8E = n) :
    blank n (almWrite a0 a1 s) = blank n s := by
  refine blank_mono (m := 0x8B204C8E) ?_ hn
  unfold almWrite
  repeat' first
    | with_reducible rfl
    | simp only [mk_8B204C8E, takeFree, Nat.reduceOr, apply_ite (blank _), apply_ite (keeps _ s), ite_self, implies_true, foldl_blank, keeps_next, Option.elim, almSelect_frame, almCursorWrite_frame, almClear_frame]
    | (with_reducible refine (foldl_blank ?_ _ _).trans ?_; intro s x)
    | (split <;> try (rename_i h; with_reducible rw [Prod.ext_iff] at h; have h' := h.2; dsimp only at h'; subst h'))
    | dsimp only

theorem answer_frame (a0) (a1) (s : State) (n : Nat) (hn : n ||| 0xC0000000 = n) :
    blank n (answer a0 a1 s) = blank n s := by
  refine blank_mono (m := 0xC0000000) ?_ hn
  unfold answer
  repeat' first
    | with_reducible rfl
    | simp only [mk_C0000000, takeFree, Nat.reduceOr, apply_ite (blank _), apply_ite (keeps _ s), ite_self, implies_true, foldl_blank, keeps_next, Option.elim, emit_frame]
    | (with_reducible refine (foldl_blank ?_ _ _).trans ?_; intro s x)
    | (split <;> try (rename_i h; with_reducible rw [Prod.ext_iff] at h; have h' := h.2; dsimp only at h'; subst h'))
    | dsimp only

theorem modLoop_frame (a0) (a1) (s : State) (n : Nat) (hn : n ||| 0x800000 = n) :
    blank n (modLoop a0 a1 s) = blank n s := by
  refine blank_mono (m := 0x800000) ?_ hn
  unfold modLoop
  repeat' first
    | with_reducible rfl
    | simp only [mk_800000, takeFree, Nat.reduceOr, apply_ite (blank _), apply_ite (keeps _ s), ite_self, implies_true, foldl_blank, keeps_next, Option.elim]
    | (with_reducible refine (foldl_blank ?_ _ _).trans ?_; intro s x)
    | (split <;> try (rename_i h; with_reducible rw [Prod.ext_iff] at h; have h' := h.2; dsimp only at h'; subst h'))
    | dsimp only

theorem pmbusSend_frame (a0) (a1) (a2) (s : State) (n : Nat) (hn : n ||| 0x80000000 = n) :
    blank n (pmbusSend a0 a1 a2 s) = blank n s := by
  refine blank_mono (m := 0x80000000) ?_ hn
  unfold pmbusSend
  repeat' first
    | with_reducible rfl
    | simp only [mk_80000000, takeFree, Nat.reduceOr, apply_ite (blank _), apply_ite (keeps _ s), ite_self, implies_true, foldl_blank, keeps_next, Option.elim, emit_frame]
    | (with_reducible refine (foldl_blank ?_ _ _).trans ?_; intro s x)
    | (split <;> try (rename_i h; with_reducible rw [Prod.ext_iff] at h; have h' := h.2; dsimp only at h'; subst h'))
    | dsimp only

theorem raiseStep_frame (a0) (s : State) (n : Nat) (hn : n ||| 0x80800002 = n) :
    blank n (raiseStep a0 s) = blank n s := by
  refine blank_mono (m := 0x80800002) ?_ hn
  unfold raiseStep
  repeat' first
    | with_reducible rfl
    | simp only [mk_80800002, takeFree, Nat.reduceOr, apply_ite (blank _), apply_ite (keeps _ s), ite_self, implies_true, foldl_blank, keeps_next, Option.elim, modLoop_frame, pmbusSend_frame]
    | (with_reducible refine (foldl_blank ?_ _ _).trans ?_; intro s x)
    | (split <;> try (rename_i h; with_reducible rw [Prod.ext_iff] at h; have h' := h.2; dsimp only at h'; subst h'))
    | dsimp only

theorem avsRaise_frame (s : State) (n : Nat) (hn : n ||| 0x80800002 = n) :
    blank n (avsRaise s) = blank n s := by
  refine blank_mono (m := 0x80800002) ?_ hn
  unfold avsRaise
  repeat' first
    | with_reducible rfl
    | simp only [mk_80800002, takeFree, Nat.reduceOr, apply_ite (blank _), apply_ite (keeps _ s), ite_self, implies_true, foldl_blank, keeps_next, Option.elim, modLoop_frame, raiseStep_frame]
    | (with_reducible refine (foldl_blank ?_ _ _).trans ?_; intro s x)
    | (split <;> try (rename_i h; with_reducible rw [Prod.ext_iff] at h; have h' := h.2; dsimp only at h'; subst h'))
    | dsimp only

theorem issueAll_frame (s : State) (n : Nat) (hn : n ||| 0x80000480 = n) :
    blank n (issueAll s) = blank n s := by
  refine blank_mono (m := 0x80000480) ?_ hn
  unfold issueAll
  repeat' first
    | with_reducible rfl
    | simp only [mk_80000480, takeFree, Nat.reduceOr, apply_ite (blank _), apply_ite (keeps _ s), ite_self, implies_true, foldl_blank, keeps_next, Option.elim, issueReads_frame]
    | (with_reducible refine (foldl_blank ?_ _ _).trans ?_; intro s x)
    | (split <;> try (rename_i h; with_reducible rw [Prod.ext_iff] at h; have h' := h.2; dsimp only at h'; subst h'))
    | dsimp only

theorem exitIdle_frame (s : State) (n : Nat) (hn : n ||| 0x80800482 = n) :
    blank n (exitIdle s) = blank n s := by
  refine blank_mono (m := 0x80800482) ?_ hn
  unfold exitIdle
  repeat' first
    | with_reducible rfl
    | simp only [mk_80800482, takeFree, Nat.reduceOr, apply_ite (blank _), apply_ite (keeps _ s), ite_self, implies_true, foldl_blank, keeps_next, Option.elim, avsRaise_frame, issueAll_frame]
    | (with_reducible refine (foldl_blank ?_ _ _).trans ?_; intro s x)
    | (split <;> try (rename_i h; with_reducible rw [Prod.ext_iff] at h; have h' := h.2; dsimp only at h'; subst h'))
    | dsimp only

theorem busy_frame (s : State) (n : Nat) (hn : n ||| 0x80800482 = n) :
    blank n (busy s) = blank n s := by
  refine blank_mono (m := 0x80800482) ?_ hn
  unfold busy
  repeat' first
    | with_reducible rfl
    | simp only [mk_80800482, takeFree, Nat.reduceOr, apply_ite (blank _), apply_ite (keeps _ s), ite_self, implies_true, foldl_blank, keeps_next, Option.elim, exitIdle_frame]
    | (with_reducible refine (foldl_blank ?_ _ _).trans ?_; intro s x)
    | (split <;> try (rename_i h; with_reducible rw [Prod.ext_iff] at h; have h' := h.2; dsimp only at h'; subst h'))
    | dsimp only

theorem takeFree_frame (s : State) (n : Nat) (hn : n ||| 0x100000000 = n) :
    blank n (takeFree s).2 = blank n s := by
  refine blank_mono (m := 0x100000000) ?_ hn
  unfold takeFree
  repeat' first
    | with_reducible rfl
    | simp only [mk_100000000, takeFree, Nat.reduceOr, apply_ite (blank _), apply_ite (keeps _ s), ite_self, implies_true, foldl_blank, keeps_next, Option.elim]
    | (with_reducible refine (foldl_blank ?_ _ _).trans ?_; intro s x)
    | (split <;> try (rename_i h; with_reducible rw [Prod.ext_iff] at h; have h' := h.2; dsimp only at h'; subst h'))
    | dsimp only

theorem setLink_frame (a0) (a1) (s : State) (n : Nat) (hn : n ||| 0x83205C8E = n) :
    blank n (setLink a0 a1 s) = blank n s := by
  refine blank_mono (m := 0x83205C8E) ?_ hn
  unfold setLink
  repeat' first
    | with_reducible rfl
    | simp only [mk_83205C8E, takeFree, Nat.reduceOr, apply_ite (blank _), apply_ite (keeps _ s), ite_self, implies_true, foldl_blank, keeps_next, Option.elim, record_frame, modLink_frame]
    | (with_reducible refine (foldl_blank ?_ _ _).trans ?_; intro s x)
    | (split <;> try (rename_i h; with_reducible rw [Prod.ext_iff] at h; have h' := h.2; dsimp only at h'; subst h'))
    | dsimp only

theorem closeQp_frame (a0) (s : State) (n : Nat) (hn : n ||| 0x83205C8E = n) :
    blank n (closeQp a0 s) = blank n s := by
  refine blank_mono (m := 0x83205C8E) ?_ hn
  unfold closeQp
  repeat' first
    | with_reducible rfl
    | simp only [mk_83205C8E, takeFree, Nat.reduceOr, apply_ite (blank _), apply_ite (keeps _ s), ite_self, implies_true, foldl_blank, keeps_next, Option.elim, modQp_frame, record_frame, modQueue_frame, setLink_frame, modLink_frame, settleQueue_frame]
    | (with_reducible refine (foldl_blank ?_ _ _).trans ?_; intro s x)
    | (split <;> try (rename_i h; with_reducible rw [Prod.ext_iff] at h; have h' := h.2; dsimp only at h'; subst h'))
    | dsimp only

theorem qpError_frame (a0) (a1) (a2) (s : State) (n : Nat) (hn : n ||| 0x83205C8E = n) :
    blank n (qpError a0 a1 a2 s) = blank n s := by
  refine blank_mono (m := 0x83205C8E) ?_ hn
  unfold qpError
  repeat' first
    | with_reducible rfl
    | simp only [mk_83205C8E, takeFree, Nat.reduceOr, apply_ite (blank _), apply_ite (keeps _ s), ite_self, implies_true, foldl_blank, keeps_next, Option.elim, closeQp_frame, record_frame]
    | (with_reducible refine (foldl_blank ?_ _ _).trans ?_; intro s x)
    | (split <;> try (rename_i h; with_reducible rw [Prod.ext_iff] at h; have h' := h.2; dsimp only at h'; subst h'))
    | dsimp only

theorem resendAll_frame (a0) (s : State) (n : Nat) (hn : n ||| 0x80000800 = n) :
    blank n (resendAll a0 s) = blank n s := by
  refine blank_mono (m := 0x80000800) ?_ hn
  unfold resendAll
  repeat' first
    | with_reducible rfl
    | simp only [mk_80000800, takeFree, Nat.reduceOr, apply_ite (blank _), apply_ite (keeps _ s), ite_self, implies_true, foldl_blank, keeps_next, Option.elim, sendRoce_frame, modQp_frame]
    | (with_reducible refine (foldl_blank ?_ _ _).trans ?_; intro s x)
    | (split <;> try (rename_i h; with_reducible rw [Prod.ext_iff] at h; have h' := h.2; dsimp only at h'; subst h'))
    | dsimp only

theorem retry_frame (a0) (s : State) (n : Nat) (hn : n ||| 0x183205C8E = n) :
    blank n (retry a0 s) = blank n s := by
  refine blank_mono (m := 0x183205C8E) ?_ hn
  unfold retry
  repeat' first
    | with_reducible rfl
    | simp only [mk_183205C8E, takeFree, Nat.reduceOr, apply_ite (blank _), apply_ite (keeps _ s), ite_self, implies_true, foldl_blank, keeps_next, Option.elim, qpError_frame, resendAll_frame, modQp_frame]
    | (with_reducible refine (foldl_blank ?_ _ _).trans ?_; intro s x)
    | (split <;> try (rename_i h; with_reducible rw [Prod.ext_iff] at h; have h' := h.2; dsimp only at h'; subst h'))
    | dsimp only

theorem retryRnr_frame (a0) (s : State) (n : Nat) (hn : n ||| 0x183205C8E = n) :
    blank n (retryRnr a0 s) = blank n s := by
  refine blank_mono (m := 0x183205C8E) ?_ hn
  unfold retryRnr
  repeat' first
    | with_reducible rfl
    | simp only [mk_183205C8E, takeFree, Nat.reduceOr, apply_ite (blank _), apply_ite (keeps _ s), ite_self, implies_true, foldl_blank, keeps_next, Option.elim, qpError_frame, resendAll_frame, modQp_frame]
    | (with_reducible refine (foldl_blank ?_ _ _).trans ?_; intro s x)
    | (split <;> try (rename_i h; with_reducible rw [Prod.ext_iff] at h; have h' := h.2; dsimp only at h'; subst h'))
    | dsimp only

theorem takeAnswer_frame (a0) (a1) (a2) (s : State) (n : Nat) (hn : n ||| 0x183205C8E = n) :
    blank n (takeAnswer a0 a1 a2 s) = blank n s := by
  refine blank_mono (m := 0x183205C8E) ?_ hn
  unfold takeAnswer
  repeat' first
    | with_reducible rfl
    | simp only [mk_183205C8E, takeFree, Nat.reduceOr, apply_ite (blank _), apply_ite (keeps _ s), ite_self, implies_true, foldl_blank, keeps_next, Option.elim, ackedTo_frame, retry_frame, retryRnr_frame, qpError_frame]
    | (with_reducible refine (foldl_blank ?_ _ _).trans ?_; intro s x)
    | (split <;> try (rename_i h; with_reducible rw [Prod.ext_iff] at h; have h' := h.2; dsimp only at h'; subst h'))
    | dsimp only

theorem answerFrame_frame (a0) (s : State) (n : Nat) (hn : n ||| 0x183A05C8E = n) :
    blank n (answerFrame a0 s) = blank n s := by
  refine blank_mono (m := 0x183A05C8E) ?_ hn
  unfold answerFrame
  repeat' first
    | with_reducible rfl
    | simp only [mk_183A05C8E, takeFree, Nat.reduceOr, apply_ite (blank _), apply_ite (keeps _ s), ite_self, implies_true, foldl_blank, keeps_next, Option.elim, emit_frame, record_frame, busy_frame, noteCe_frame, takeAnswer_frame]
    | (with_reducible refine (foldl_blank ?_ _ _).trans ?_; intro s x)
    | (split <;> try (rename_i h; with_reducible rw [Prod.ext_iff] at h; have h' := h.2; dsimp only at h'; subst h'))
    | dsimp only

theorem noteSaturated_frame (a0) (s : State) (n : Nat) (hn : n ||| 0x83204C8E = n) :
    blank n (noteSaturated a0 s) = blank n s := by
  refine blank_mono (m := 0x83204C8E) ?_ hn
  unfold noteSaturated
  repeat' first
    | with_reducible rfl
    | simp only [mk_83204C8E, takeFree, Nat.reduceOr, apply_ite (blank _), apply_ite (keeps _ s), ite_self, implies_true, foldl_blank, keeps_next, Option.elim, record_frame]
    | (with_reducible refine (foldl_blank ?_ _ _).trans ?_; intro s x)
    | (split <;> try (rename_i h; with_reducible rw [Prod.ext_iff] at h; have h' := h.2; dsimp only at h'; subst h'))
    | dsimp only

theorem raiseRef_frame (a0) (s : State) (n : Nat) (hn : n ||| 0x83204C8E = n) :
    blank n (raiseRef a0 s) = blank n s := by
  refine blank_mono (m := 0x83204C8E) ?_ hn
  unfold raiseRef
  repeat' first
    | with_reducible rfl
    | simp only [mk_83204C8E, takeFree, Nat.reduceOr, apply_ite (blank _), apply_ite (keeps _ s), ite_self, implies_true, foldl_blank, keeps_next, Option.elim, noteSaturated_frame, putSeed_frame, putShare_frame]
    | (with_reducible refine (foldl_blank ?_ _ _).trans ?_; intro s x)
    | (split <;> try (rename_i h; with_reducible rw [Prod.ext_iff] at h; have h' := h.2; dsimp only at h'; subst h'))
    | dsimp only

theorem shareOnCopy_frame (a0) (a1) (s : State) (n : Nat) (hn : n ||| 0x83204C8E = n) :
    blank n (shareOnCopy a0 a1 s) = blank n s := by
  refine blank_mono (m := 0x83204C8E) ?_ hn
  unfold shareOnCopy
  repeat' first
    | with_reducible rfl
    | simp only [mk_83204C8E, takeFree, Nat.reduceOr, apply_ite (blank _), apply_ite (keeps _ s), ite_self, implies_true, foldl_blank, keeps_next, Option.elim, putShare_frame, noteSaturated_frame, raiseRef_frame]
    | (with_reducible refine (foldl_blank ?_ _ _).trans ?_; intro s x)
    | (split <;> try (rename_i h; with_reducible rw [Prod.ext_iff] at h; have h' := h.2; dsimp only at h'; subst h'))
    | dsimp only

theorem modPair_frame (a0) (a1) (s : State) (n : Nat) (hn : n ||| 0x4000 = n) :
    blank n (modPair a0 a1 s) = blank n s := by
  refine blank_mono (m := 0x4000) ?_ hn
  unfold modPair
  repeat' first
    | with_reducible rfl
    | simp only [mk_4000, takeFree, Nat.reduceOr, apply_ite (blank _), apply_ite (keeps _ s), ite_self, implies_true, foldl_blank, keeps_next, Option.elim]
    | (with_reducible refine (foldl_blank ?_ _ _).trans ?_; intro s x)
    | (split <;> try (rename_i h; with_reducible rw [Prod.ext_iff] at h; have h' := h.2; dsimp only at h'; subst h'))
    | dsimp only

theorem ownPair_frame (a0) (a1) (a2) (s : State) (n : Nat) (hn : n ||| 0x83204C8E = n) :
    blank n (ownPair a0 a1 a2 s) = blank n s := by
  refine blank_mono (m := 0x83204C8E) ?_ hn
  unfold ownPair
  repeat' first
    | with_reducible rfl
    | simp only [mk_83204C8E, takeFree, Nat.reduceOr, apply_ite (blank _), apply_ite (keeps _ s), ite_self, implies_true, foldl_blank, keeps_next, Option.elim, modVol_frame, shareOnCopy_frame, modPair_frame]
    | (with_reducible refine (foldl_blank ?_ _ _).trans ?_; intro s x)
    | (split <;> try (rename_i h; with_reducible rw [Prod.ext_iff] at h; have h' := h.2; dsimp only at h'; subst h'))
    | dsimp only

theorem applyEntry_frame (a0) (s : State) (n : Nat) (hn : n ||| 0x83204C8E = n) :
    blank n (applyEntry a0 s) = blank n s := by
  refine blank_mono (m := 0x83204C8E) ?_ hn
  unfold applyEntry
  repeat' first
    | with_reducible rfl
    | simp only [mk_83204C8E, takeFree, Nat.reduceOr, apply_ite (blank _), apply_ite (keeps _ s), ite_self, implies_true, foldl_blank, keeps_next, Option.elim, ownPair_frame, modPair_frame]
    | (with_reducible refine (foldl_blank ?_ _ _).trans ?_; intro s x)
    | (split <;> try (rename_i h; with_reducible rw [Prod.ext_iff] at h; have h' := h.2; dsimp only at h'; subst h'))
    | dsimp only

theorem applyStrip_frame (a0) (s : State) (n : Nat) (hn : n ||| 0x180000 = n) :
    blank n (applyStrip a0 s) = blank n s := by
  refine blank_mono (m := 0x180000) ?_ hn
  unfold applyStrip
  repeat' first
    | with_reducible rfl
    | simp only [mk_180000, takeFree, Nat.reduceOr, apply_ite (blank _), apply_ite (keeps _ s), ite_self, implies_true, foldl_blank, keeps_next, Option.elim]
    | (with_reducible refine (foldl_blank ?_ _ _).trans ?_; intro s x)
    | (split <;> try (rename_i h; with_reducible rw [Prod.ext_iff] at h; have h' := h.2; dsimp only at h'; subst h'))
    | dsimp only

theorem applyLedger_frame (a0) (s : State) (n : Nat) (hn : n ||| 0x80000 = n) :
    blank n (applyLedger a0 s) = blank n s := by
  refine blank_mono (m := 0x80000) ?_ hn
  unfold applyLedger
  repeat' first
    | with_reducible rfl
    | simp only [mk_80000, takeFree, Nat.reduceOr, apply_ite (blank _), apply_ite (keeps _ s), ite_self, implies_true, foldl_blank, keeps_next, Option.elim]
    | (with_reducible refine (foldl_blank ?_ _ _).trans ?_; intro s x)
    | (split <;> try (rename_i h; with_reducible rw [Prod.ext_iff] at h; have h' := h.2; dsimp only at h'; subst h'))
    | dsimp only

theorem applyLock_frame (a0) (s : State) (n : Nat) (hn : n ||| 0x4000 = n) :
    blank n (applyLock a0 s) = blank n s := by
  refine blank_mono (m := 0x4000) ?_ hn
  unfold applyLock
  repeat' first
    | with_reducible rfl
    | simp only [mk_4000, takeFree, Nat.reduceOr, apply_ite (blank _), apply_ite (keeps _ s), ite_self, implies_true, foldl_blank, keeps_next, Option.elim, modVol_frame]
    | (with_reducible refine (foldl_blank ?_ _ _).trans ?_; intro s x)
    | (split <;> try (rename_i h; with_reducible rw [Prod.ext_iff] at h; have h' := h.2; dsimp only at h'; subst h'))
    | dsimp only

theorem applySeed_frame (a0) (s : State) (n : Nat) (hn : n ||| 0x4000 = n) :
    blank n (applySeed a0 s) = blank n s := by
  refine blank_mono (m := 0x4000) ?_ hn
  unfold applySeed
  repeat' first
    | with_reducible rfl
    | simp only [mk_4000, takeFree, Nat.reduceOr, apply_ite (blank _), apply_ite (keeps _ s), ite_self, implies_true, foldl_blank, keeps_next, Option.elim, setSeedSlot_frame]
    | (with_reducible refine (foldl_blank ?_ _ _).trans ?_; intro s x)
    | (split <;> try (rename_i h; with_reducible rw [Prod.ext_iff] at h; have h' := h.2; dsimp only at h'; subst h'))
    | dsimp only

theorem applyShare_frame (a0) (s : State) (n : Nat) (hn : n ||| 0x4000 = n) :
    blank n (applyShare a0 s) = blank n s := by
  refine blank_mono (m := 0x4000) ?_ hn
  unfold applyShare
  repeat' first
    | with_reducible rfl
    | simp only [mk_4000, takeFree, Nat.reduceOr, apply_ite (blank _), apply_ite (keeps _ s), ite_self, implies_true, foldl_blank, keeps_next, Option.elim, setShare_frame]
    | (with_reducible refine (foldl_blank ?_ _ _).trans ?_; intro s x)
    | (split <;> try (rename_i h; with_reducible rw [Prod.ext_iff] at h; have h' := h.2; dsimp only at h'; subst h'))
    | dsimp only

theorem dropPairsQuiet_frame (s : State) (n : Nat) (hn : n ||| 0x4000 = n) :
    blank n (dropPairsQuiet s) = blank n s := by
  refine blank_mono (m := 0x4000) ?_ hn
  unfold dropPairsQuiet
  repeat' first
    | with_reducible rfl
    | simp only [mk_4000, takeFree, Nat.reduceOr, apply_ite (blank _), apply_ite (keeps _ s), ite_self, implies_true, foldl_blank, keeps_next, Option.elim]
    | (with_reducible refine (foldl_blank ?_ _ _).trans ?_; intro s x)
    | (split <;> try (rename_i h; with_reducible rw [Prod.ext_iff] at h; have h' := h.2; dsimp only at h'; subst h'))
    | dsimp only

theorem openSpaceSeen_frame (a0) (a1) (a2) (s : State) (n : Nat) (hn : n ||| 0x4000 = n) :
    blank n (openSpaceSeen a0 a1 a2 s) = blank n s := by
  refine blank_mono (m := 0x4000) ?_ hn
  unfold openSpaceSeen
  repeat' first
    | with_reducible rfl
    | simp only [mk_4000, takeFree, Nat.reduceOr, apply_ite (blank _), apply_ite (keeps _ s), ite_self, implies_true, foldl_blank, keeps_next, Option.elim]
    | (with_reducible refine (foldl_blank ?_ _ _).trans ?_; intro s x)
    | (split <;> try (rename_i h; with_reducible rw [Prod.ext_iff] at h; have h' := h.2; dsimp only at h'; subst h'))
    | dsimp only

theorem applyVolume_frame (a0) (s : State) (n : Nat) (hn : n ||| 0x4008 = n) :
    blank n (applyVolume a0 s) = blank n s := by
  refine blank_mono (m := 0x4008) ?_ hn
  unfold applyVolume
  repeat' first
    | with_reducible rfl
    | simp only [mk_4008, takeFree, Nat.reduceOr, apply_ite (blank _), apply_ite (keeps _ s), ite_self, implies_true, foldl_blank, keeps_next, Option.elim, dropPairsQuiet_frame, openSpaceSeen_frame, modVol_frame]
    | (with_reducible refine (foldl_blank ?_ _ _).trans ?_; intro s x)
    | (split <;> try (rename_i h; with_reducible rw [Prod.ext_iff] at h; have h' := h.2; dsimp only at h'; subst h'))
    | dsimp only

theorem releaseCommitted_frame (a0) (s : State) (n : Nat) (hn : n ||| 0x83206C8E = n) :
    blank n (releaseCommitted a0 s) = blank n s := by
  refine blank_mono (m := 0x83206C8E) ?_ hn
  unfold releaseCommitted
  repeat' first
    | with_reducible rfl
    | simp only [mk_83206C8E, takeFree, Nat.reduceOr, apply_ite (blank _), apply_ite (keeps _ s), ite_self, implies_true, foldl_blank, keeps_next, Option.elim, rebudget_frame]
    | (with_reducible refine (foldl_blank ?_ _ _).trans ?_; intro s x)
    | (split <;> try (rename_i h; with_reducible rw [Prod.ext_iff] at h; have h' := h.2; dsimp only at h'; subst h'))
    | dsimp only

theorem setPin_frame (a0) (a1) (s : State) (n : Nat) (hn : n ||| 0x200000 = n) :
    blank n (setPin a0 a1 s) = blank n s := by
  refine blank_mono (m := 0x200000) ?_ hn
  unfold setPin
  repeat' first
    | with_reducible rfl
    | simp only [mk_200000, takeFree, Nat.reduceOr, apply_ite (blank _), apply_ite (keeps _ s), ite_self, implies_true, foldl_blank, keeps_next, Option.elim]
    | (with_reducible refine (foldl_blank ?_ _ _).trans ?_; intro s x)
    | (split <;> try (rename_i h; with_reducible rw [Prod.ext_iff] at h; have h' := h.2; dsimp only at h'; subst h'))
    | dsimp only

theorem keyGenUp_frame (s : State) (n : Nat) (hn : n ||| 0x10000 = n) :
    blank n (keyGenUp s) = blank n s := by
  refine blank_mono (m := 0x10000) ?_ hn
  unfold keyGenUp
  repeat' first
    | with_reducible rfl
    | simp only [mk_10000, takeFree, Nat.reduceOr, apply_ite (blank _), apply_ite (keeps _ s), ite_self, implies_true, foldl_blank, keeps_next, Option.elim]
    | (with_reducible refine (foldl_blank ?_ _ _).trans ?_; intro s x)
    | (split <;> try (rename_i h; with_reducible rw [Prod.ext_iff] at h; have h' := h.2; dsimp only at h'; subst h'))
    | dsimp only

theorem putKeySlot_frame (a0) (s : State) (n : Nat) (hn : n ||| 0x10000 = n) :
    blank n (putKeySlot a0 s) = blank n s := by
  refine blank_mono (m := 0x10000) ?_ hn
  unfold putKeySlot
  repeat' first
    | with_reducible rfl
    | simp only [mk_10000, takeFree, Nat.reduceOr, apply_ite (blank _), apply_ite (keeps _ s), ite_self, implies_true, foldl_blank, keeps_next, Option.elim]
    | (with_reducible refine (foldl_blank ?_ _ _).trans ?_; intro s x)
    | (split <;> try (rename_i h; with_reducible rw [Prod.ext_iff] at h; have h' := h.2; dsimp only at h'; subst h'))
    | dsimp only

theorem applyKey_frame (a0) (s : State) (n : Nat) (hn : n ||| 0x83214C8E = n) :
    blank n (applyKey a0 s) = blank n s := by
  refine blank_mono (m := 0x83214C8E) ?_ hn
  unfold applyKey
  repeat' first
    | with_reducible rfl
    | simp only [mk_83214C8E, takeFree, Nat.reduceOr, apply_ite (blank _), apply_ite (keeps _ s), ite_self, implies_true, foldl_blank, keeps_next, Option.elim, setPin_frame, record_frame, keyGenUp_frame, putKeySlot_frame]
    | (with_reducible refine (foldl_blank ?_ _ _).trans ?_; intro s x)
    | (split <;> try (rename_i h; with_reducible rw [Prod.ext_iff] at h; have h' := h.2; dsimp only at h'; subst h'))
    | dsimp only

theorem applySnapshot_frame (a0) (s : State) (n : Nat) (hn : n ||| 0x4000 = n) :
    blank n (applySnapshot a0 s) = blank n s := by
  refine blank_mono (m := 0x4000) ?_ hn
  unfold applySnapshot
  repeat' first
    | with_reducible rfl
    | simp only [mk_4000, takeFree, Nat.reduceOr, apply_ite (blank _), apply_ite (keeps _ s), ite_self, implies_true, foldl_blank, keeps_next, Option.elim, dropPairsQuiet_frame, modVol_frame]
    | (with_reducible refine (foldl_blank ?_ _ _).trans ?_; intro s x)
    | (split <;> try (rename_i h; with_reducible rw [Prod.ext_iff] at h; have h' := h.2; dsimp only at h'; subst h'))
    | dsimp only

theorem applyLayout_frame (a0) (s : State) (n : Nat) (hn : n ||| 0x100000 = n) :
    blank n (applyLayout a0 s) = blank n s := by
  refine blank_mono (m := 0x100000) ?_ hn
  unfold applyLayout
  repeat' first
    | with_reducible rfl
    | simp only [mk_100000, takeFree, Nat.reduceOr, apply_ite (blank _), apply_ite (keeps _ s), ite_self, implies_true, foldl_blank, keeps_next, Option.elim, modSlot_frame]
    | (with_reducible refine (foldl_blank ?_ _ _).trans ?_; intro s x)
    | (split <;> try (rename_i h; with_reducible rw [Prod.ext_iff] at h; have h' := h.2; dsimp only at h'; subst h'))
    | dsimp only

theorem applyDelta_frame (a0) (s : State) (n : Nat) (hn : n ||| 0x83396C8E = n) :
    blank n (applyDelta a0 s) = blank n s := by
  refine blank_mono (m := 0x83396C8E) ?_ hn
  unfold applyDelta
  repeat' first
    | with_reducible rfl
    | simp only [mk_83396C8E, takeFree, Nat.reduceOr, apply_ite (blank _), apply_ite (keeps _ s), ite_self, implies_true, foldl_blank, keeps_next, Option.elim, applyEntry_frame, applyStrip_frame, applyLedger_frame, applyLock_frame, applySeed_frame, applyShare_frame, applyVolume_frame, releaseCommitted_frame, applyKey_frame, applySnapshot_frame, applyLayout_frame]
    | (with_reducible refine (foldl_blank ?_ _ _).trans ?_; intro s x)
    | (split <;> try (rename_i h; with_reducible rw [Prod.ext_iff] at h; have h' := h.2; dsimp only at h'; subst h'))
    | dsimp only

theorem recountPeer_frame (s : State) (n : Nat) (hn : n ||| 0x100000 = n) :
    blank n (recountPeer s) = blank n s := by
  refine blank_mono (m := 0x100000) ?_ hn
  unfold recountPeer
  repeat' first
    | with_reducible rfl
    | simp only [mk_100000, takeFree, Nat.reduceOr, apply_ite (blank _), apply_ite (keeps _ s), ite_self, implies_true, foldl_blank, keeps_next, Option.elim]
    | (with_reducible refine (foldl_blank ?_ _ _).trans ?_; intro s x)
    | (split <;> try (rename_i h; with_reducible rw [Prod.ext_iff] at h; have h' := h.2; dsimp only at h'; subst h'))
    | dsimp only

theorem applyMessage_frame (a0) (s : State) (n : Nat) (hn : n ||| 0x83396C8E = n) :
    blank n (applyMessage a0 s) = blank n s := by
  refine blank_mono (m := 0x83396C8E) ?_ hn
  unfold applyMessage
  repeat' first
    | with_reducible rfl
    | simp only [mk_83396C8E, takeFree, Nat.reduceOr, apply_ite (blank _), apply_ite (keeps _ s), ite_self, implies_true, foldl_blank, keeps_next, Option.elim, applyDelta_frame, recountPeer_frame]
    | (with_reducible refine (foldl_blank ?_ _ _).trans ?_; intro s x)
    | (split <;> try (rename_i h; with_reducible rw [Prod.ext_iff] at h; have h' := h.2; dsimp only at h'; subst h'))
    | dsimp only

theorem applyRegion_frame (a0) (s : State) (n : Nat) (hn : n ||| 0x1000000 = n) :
    blank n (applyRegion a0 s) = blank n s := by
  refine blank_mono (m := 0x1000000) ?_ hn
  unfold applyRegion
  repeat' first
    | with_reducible rfl
    | simp only [mk_1000000, takeFree, Nat.reduceOr, apply_ite (blank _), apply_ite (keeps _ s), ite_self, implies_true, foldl_blank, keeps_next, Option.elim]
    | (with_reducible refine (foldl_blank ?_ _ _).trans ?_; intro s x)
    | (split <;> try (rename_i h; with_reducible rw [Prod.ext_iff] at h; have h' := h.2; dsimp only at h'; subst h'))
    | dsimp only

theorem armForward_frame (s : State) (n : Nat) (hn : n ||| 0x8 = n) :
    blank n (armForward s) = blank n s := by
  refine blank_mono (m := 0x8) ?_ hn
  unfold armForward
  repeat' first
    | with_reducible rfl
    | simp only [mk_8, takeFree, Nat.reduceOr, apply_ite (blank _), apply_ite (keeps _ s), ite_self, implies_true, foldl_blank, keeps_next, Option.elim]
    | (with_reducible refine (foldl_blank ?_ _ _).trans ?_; intro s x)
    | (split <;> try (rename_i h; with_reducible rw [Prod.ext_iff] at h; have h' := h.2; dsimp only at h'; subst h'))
    | dsimp only

theorem askPage_frame (a0) (s : State) (a2) (n : Nat) (hn : n ||| 0x183245C8E = n) :
    blank n (askPage a0 s a2) = blank n s := by
  refine blank_mono (m := 0x183245C8E) ?_ hn
  unfold askPage
  repeat' first
    | with_reducible rfl
    | simp only [mk_183245C8E, takeFree, Nat.reduceOr, apply_ite (blank _), apply_ite (keeps _ s), ite_self, implies_true, foldl_blank, keeps_next, Option.elim, dmlIssue_frame]
    | (with_reducible refine (foldl_blank ?_ _ _).trans ?_; intro s x)
    | (split <;> try (rename_i h; with_reducible rw [Prod.ext_iff] at h; have h' := h.2; dsimp only at h'; subst h'))
    | dsimp only

theorem askRestart_frame (a0) (s : State) (n : Nat) (hn : n ||| 0x87304C8E = n) :
    blank n (askRestart a0 s) = blank n s := by
  refine blank_mono (m := 0x87304C8E) ?_ hn
  unfold askRestart
  repeat' first
    | with_reducible rfl
    | simp only [mk_87304C8E, takeFree, Nat.reduceOr, apply_ite (blank _), apply_ite (keeps _ s), ite_self, implies_true, foldl_blank, keeps_next, Option.elim, requestActivity_frame, updRefuse_frame]
    | (with_reducible refine (foldl_blank ?_ _ _).trans ?_; intro s x)
    | (split <;> try (rename_i h; with_reducible rw [Prod.ext_iff] at h; have h' := h.2; dsimp only at h'; subst h'))
    | dsimp only

theorem samplePeaks_frame (s : State) (n : Nat) (hn : n ||| 0x8 = n) :
    blank n (samplePeaks s) = blank n s := by
  refine blank_mono (m := 0x8) ?_ hn
  unfold samplePeaks
  repeat' first
    | with_reducible rfl
    | simp only [mk_8, takeFree, Nat.reduceOr, apply_ite (blank _), apply_ite (keeps _ s), ite_self, implies_true, foldl_blank, keeps_next, Option.elim]
    | (with_reducible refine (foldl_blank ?_ _ _).trans ?_; intro s x)
    | (split <;> try (rename_i h; with_reducible rw [Prod.ext_iff] at h; have h' := h.2; dsimp only at h'; subst h'))
    | dsimp only

theorem freePages_frame (a0) (s : State) (n : Nat) (hn : n ||| 0x100000 = n) :
    blank n (freePages a0 s) = blank n s := by
  refine blank_mono (m := 0x100000) ?_ hn
  unfold freePages
  repeat' first
    | with_reducible rfl
    | simp only [mk_100000, takeFree, Nat.reduceOr, apply_ite (blank _), apply_ite (keeps _ s), ite_self, implies_true, foldl_blank, keeps_next, Option.elim, freeGrains_frame]
    | (with_reducible refine (foldl_blank ?_ _ _).trans ?_; intro s x)
    | (split <;> try (rename_i h; with_reducible rw [Prod.ext_iff] at h; have h' := h.2; dsimp only at h'; subst h'))
    | dsimp only

theorem dropPlaced_frame (s : State) (n : Nat) (hn : n ||| 0x100000 = n) :
    blank n (dropPlaced s) = blank n s := by
  refine blank_mono (m := 0x100000) ?_ hn
  unfold dropPlaced
  repeat' first
    | with_reducible rfl
    | simp only [mk_100000, takeFree, Nat.reduceOr, apply_ite (blank _), apply_ite (keeps _ s), ite_self, implies_true, foldl_blank, keeps_next, Option.elim, freePages_frame]
    | (with_reducible refine (foldl_blank ?_ _ _).trans ?_; intro s x)
    | (split <;> try (rename_i h; with_reducible rw [Prod.ext_iff] at h; have h' := h.2; dsimp only at h'; subst h'))
    | dsimp only

theorem fillReserve_frame (a0) (s : State) (n : Nat) (hn : n ||| 0x80280002 = n) :
    blank n (fillReserve a0 s) = blank n s := by
  refine blank_mono (m := 0x80280002) ?_ hn
  induction a0 generalizing s with
  | zero => rfl
  | succ k ih =>
    rw [fillReserve]
    repeat' first
      | with_reducible rfl
      | simp only [mk_80280002, takeFree, Nat.reduceOr, apply_ite (blank _), apply_ite (keeps _ s), ite_self, implies_true, foldl_blank, keeps_next, Option.elim, modBlock_frame, ih]
      | (split <;> try (rename_i h; with_reducible rw [Prod.ext_iff] at h; have h' := h.2; dsimp only at h'; subst h'))

theorem grantNumbers_frame (s : State) (n : Nat) (hn : n ||| 0x80300002 = n) :
    blank n (grantNumbers s) = blank n s := by
  refine blank_mono (m := 0x80300002) ?_ hn
  unfold grantNumbers
  repeat' first
    | with_reducible rfl
    | simp only [mk_80300002, takeFree, Nat.reduceOr, apply_ite (blank _), apply_ite (keeps _ s), ite_self, implies_true, foldl_blank, keeps_next, Option.elim, sendDelta_frame]
    | (with_reducible refine (foldl_blank ?_ _ _).trans ?_; intro s x)
    | (split <;> try (rename_i h; with_reducible rw [Prod.ext_iff] at h; have h' := h.2; dsimp only at h'; subst h'))
    | dsimp only

theorem takeNumbers_frame (a0) (s : State) (n : Nat) (hn : n ||| 0x80300002 = n) :
    ∀ x t, takeNumbers a0 s = some (x, t) → blank n t = blank n s := by
  suffices key : ∀ x t, takeNumbers a0 s = some (x, t) → blank 0x80300002 t = blank 0x80300002 s from fun x t h => blank_mono (key x t h) hn
  intro x t h
  unfold takeNumbers at h
  dsimp only at h
  split at h
  · cases h
  · simp only [Option.some.injEq, Prod.mk.injEq] at h
    rw [← h.2]
    simp only [mk_80300002, takeFree, Nat.reduceOr, apply_ite (blank _), apply_ite (keeps _ s), ite_self, implies_true, foldl_blank, keeps_next, Option.elim, grantNumbers_frame]

theorem openStripe_frame (a0) (a1) (a2) (s : State) (n : Nat) (hn : n ||| 0x83384C8E = n) :
    blank n (openStripe a0 a1 a2 s).2 = blank n s := by
  refine blank_mono (m := 0x83384C8E) ?_ hn
  unfold openStripe
  repeat' first
    | with_reducible rfl
    | simp only [mk_83384C8E, takeFree, Nat.reduceOr, apply_ite (blank _), apply_ite (keeps _ s), ite_self, implies_true, foldl_blank, keeps_next, Option.elim, record_frame, enterStrips_frame, takeSlot_frame]
    | (with_reducible refine (foldl_blank ?_ _ _).trans ?_; intro s x)
    | exact takeNumbers_frame _ _ _ rfl _ _ (by assumption)
    | (split <;> try (rename_i h; with_reducible rw [Prod.ext_iff] at h; have h' := h.2; dsimp only at h'; subst h'))
    | dsimp only

theorem openRecords_frame (s : State) (n : Nat) (hn : n ||| 0x83384C8E = n) :
    blank n (openRecords s).2 = blank n s := by
  refine blank_mono (m := 0x83384C8E) ?_ hn
  unfold openRecords
  repeat' first
    | with_reducible rfl
    | simp only [mk_83384C8E, takeFree, Nat.reduceOr, apply_ite (blank _), apply_ite (keeps _ s), ite_self, implies_true, foldl_blank, keeps_next, Option.elim, openStripe_frame, modStripe_frame]
    | (with_reducible refine (foldl_blank ?_ _ _).trans ?_; intro s x)
    | (split <;> try (rename_i h; with_reducible rw [Prod.ext_iff] at h; have h' := h.2; dsimp only at h'; subst h'))
    | dsimp only

theorem streamCur_frame (s : State) (n : Nat) (hn : n ||| 0x83384C8E = n) :
    blank n (streamCur s) = blank n s := by
  refine blank_mono (m := 0x83384C8E) ?_ hn
  unfold streamCur
  repeat' first
    | with_reducible rfl
    | simp only [mk_83384C8E, takeFree, Nat.reduceOr, apply_ite (blank _), apply_ite (keeps _ s), ite_self, implies_true, foldl_blank, keeps_next, Option.elim, openRecords_frame]
    | (with_reducible refine (foldl_blank ?_ _ _).trans ?_; intro s x)
    | (split <;> try (rename_i h; with_reducible rw [Prod.ext_iff] at h; have h' := h.2; dsimp only at h'; subst h'))
    | dsimp only

theorem streamNext_frame (s : State) (n : Nat) (hn : n ||| 0x83384C8E = n) :
    blank n (streamNext s) = blank n s := by
  refine blank_mono (m := 0x83384C8E) ?_ hn
  unfold streamNext
  repeat' first
    | with_reducible rfl
    | simp only [mk_83384C8E, takeFree, Nat.reduceOr, apply_ite (blank _), apply_ite (keeps _ s), ite_self, implies_true, foldl_blank, keeps_next, Option.elim, openRecords_frame]
    | (with_reducible refine (foldl_blank ?_ _ _).trans ?_; intro s x)
    | (split <;> try (rename_i h; with_reducible rw [Prod.ext_iff] at h; have h' := h.2; dsimp only at h'; subst h'))
    | dsimp only

theorem notWhole_frame (s : State) (n : Nat) (hn : n ||| 0x80000 = n) :
    blank n (notWhole s) = blank n s := by
  refine blank_mono (m := 0x80000) ?_ hn
  unfold notWhole
  repeat' first
    | with_reducible rfl
    | simp only [mk_80000, takeFree, Nat.reduceOr, apply_ite (blank _), apply_ite (keeps _ s), ite_self, implies_true, foldl_blank, keeps_next, Option.elim]
    | (with_reducible refine (foldl_blank ?_ _ _).trans ?_; intro s x)
    | (split <;> try (rename_i h; with_reducible rw [Prod.ext_iff] at h; have h' := h.2; dsimp only at h'; subst h'))
    | dsimp only

theorem recordPlaced_frame (a0) (a1) (s : State) (n : Nat) (hn : n ||| 0x801C0000 = n) :
    blank n (recordPlaced a0 a1 s) = blank n s := by
  refine blank_mono (m := 0x801C0000) ?_ hn
  unfold recordPlaced
  repeat' first
    | with_reducible rfl
    | simp only [mk_801C0000, takeFree, Nat.reduceOr, apply_ite (blank _), apply_ite (keeps _ s), ite_self, implies_true, foldl_blank, keeps_next, Option.elim, modStripe_frame, programTrailer_frame, programStrip_frame]
    | (with_reducible refine (foldl_blank ?_ _ _).trans ?_; intro s x)
    | (split <;> try (rename_i h; with_reducible rw [Prod.ext_iff] at h; have h' := h.2; dsimp only at h'; subst h'))
    | dsimp only

theorem placeRecord_frame (a0) (a1) (a2) (s : State) (n : Nat) (hn : n ||| 0x833C4C8E = n) :
    blank n (placeRecord a0 a1 a2 s) = blank n s := by
  refine blank_mono (m := 0x833C4C8E) ?_ hn
  unfold placeRecord
  repeat' first
    | with_reducible rfl
    | simp only [mk_833C4C8E, takeFree, Nat.reduceOr, apply_ite (blank _), apply_ite (keeps _ s), ite_self, implies_true, foldl_blank, keeps_next, Option.elim, notWhole_frame, recordPlaced_frame, programPage_frame]
    | (with_reducible refine (foldl_blank ?_ _ _).trans ?_; intro s x)
    | (split <;> try (rename_i h; with_reducible rw [Prod.ext_iff] at h; have h' := h.2; dsimp only at h'; subst h'))
    | dsimp only

theorem putRecord_frame (a0) (s : State) (n : Nat) (hn : n ||| 0x833C4C8E = n) :
    blank n (putRecord a0 s) = blank n s := by
  refine blank_mono (m := 0x833C4C8E) ?_ hn
  unfold putRecord
  repeat' first
    | with_reducible rfl
    | simp only [mk_833C4C8E, takeFree, Nat.reduceOr, apply_ite (blank _), apply_ite (keeps _ s), ite_self, implies_true, foldl_blank, keeps_next, Option.elim, streamNext_frame, streamCur_frame, placeRecord_frame, notWhole_frame]
    | (with_reducible refine (foldl_blank ?_ _ _).trans ?_; intro s x)
    | (split <;> try (rename_i h; with_reducible rw [Prod.ext_iff] at h; have h' := h.2; dsimp only at h'; subst h'))
    | dsimp only

theorem closeStripe_frame (a0) (s : State) (n : Nat) (hn : n ||| 0x80140000 = n) :
    blank n (closeStripe a0 s) = blank n s := by
  refine blank_mono (m := 0x80140000) ?_ hn
  unfold closeStripe
  repeat' first
    | with_reducible rfl
    | simp only [mk_80140000, takeFree, Nat.reduceOr, apply_ite (blank _), apply_ite (keeps _ s), ite_self, implies_true, foldl_blank, keeps_next, Option.elim, modStripe_frame, programStrip_frame]
    | (with_reducible refine (foldl_blank ?_ _ _).trans ?_; intro s x)
    | (split <;> try (rename_i h; with_reducible rw [Prod.ext_iff] at h; have h' := h.2; dsimp only at h'; subst h'))
    | dsimp only

theorem placeObject_frame (a0) (a1) (a2) (a3) (a4) (s : State) (n : Nat) (hn : n ||| 0x833C4C8E = n) :
    blank n (placeObject a0 a1 a2 a3 a4 s).2 = blank n s := by
  refine blank_mono (m := 0x833C4C8E) ?_ hn
  unfold placeObject
  repeat' first
    | with_reducible rfl
    | simp only [mk_833C4C8E, takeFree, Nat.reduceOr, apply_ite (blank _), apply_ite (keeps _ s), ite_self, implies_true, foldl_blank, keeps_next, Option.elim, modStripe_frame, closeStripe_frame, openStripe_frame]
    | (with_reducible refine (foldl_blank ?_ _ _).trans ?_; intro s x)
    | (split <;> try (rename_i h; with_reducible rw [Prod.ext_iff] at h; have h' := h.2; dsimp only at h'; subst h'))
    | dsimp only

theorem putPage_frame (a0) (a1) (a2) (a3) (a4) (a5) (a6) (a7) (s : State) (n : Nat) (hn : n ||| 0x833C4C8E = n) :
    blank n (putPage a0 a1 a2 a3 a4 a5 a6 a7 s) = blank n s := by
  refine blank_mono (m := 0x833C4C8E) ?_ hn
  unfold putPage
  repeat' first
    | with_reducible rfl
    | simp only [mk_833C4C8E, takeFree, Nat.reduceOr, apply_ite (blank _), apply_ite (keeps _ s), ite_self, implies_true, foldl_blank, keeps_next, Option.elim, addPage_frame, placeObject_frame, notWhole_frame]
    | (with_reducible refine (foldl_blank ?_ _ _).trans ?_; intro s x)
    | (split <;> try (rename_i h; with_reducible rw [Prod.ext_iff] at h; have h' := h.2; dsimp only at h'; subst h'))
    | dsimp only

theorem putMeta_frame (a0) (a1) (a2) (a3) (a4) (s : State) (n : Nat) (hn : n ||| 0x833C4C8E = n) :
    blank n (putMeta a0 a1 a2 a3 a4 s) = blank n s := by
  refine blank_mono (m := 0x833C4C8E) ?_ hn
  unfold putMeta
  repeat' first
    | with_reducible rfl
    | simp only [mk_833C4C8E, takeFree, Nat.reduceOr, apply_ite (blank _), apply_ite (keeps _ s), ite_self, implies_true, foldl_blank, keeps_next, Option.elim, putPage_frame]
    | (with_reducible refine (foldl_blank ?_ _ _).trans ?_; intro s x)
    | (split <;> try (rename_i h; with_reducible rw [Prod.ext_iff] at h; have h' := h.2; dsimp only at h'; subst h'))
    | dsimp only

theorem putIndex_frame (a0) (a1) (a2) (a3) (s : State) (n : Nat) (hn : n ||| 0x833C4C8E = n) :
    blank n (putIndex a0 a1 a2 a3 s) = blank n s := by
  refine blank_mono (m := 0x833C4C8E) ?_ hn
  unfold putIndex
  repeat' first
    | with_reducible rfl
    | simp only [mk_833C4C8E, takeFree, Nat.reduceOr, apply_ite (blank _), apply_ite (keeps _ s), ite_self, implies_true, foldl_blank, keeps_next, Option.elim, putMeta_frame]
    | (with_reducible refine (foldl_blank ?_ _ _).trans ?_; intro s x)
    | (split <;> try (rename_i h; with_reducible rw [Prod.ext_iff] at h; have h' := h.2; dsimp only at h'; subst h'))
    | dsimp only

theorem putTree_frame (a0) (a1) (a2) (s : State) (n : Nat) (hn : n ||| 0x833C4C8E = n) :
    blank n (putTree a0 a1 a2 s) = blank n s := by
  refine blank_mono (m := 0x833C4C8E) ?_ hn
  unfold putTree
  repeat' first
    | with_reducible rfl
    | simp only [mk_833C4C8E, takeFree, Nat.reduceOr, apply_ite (blank _), apply_ite (keeps _ s), ite_self, implies_true, foldl_blank, keeps_next, Option.elim, putIndex_frame]
    | (with_reducible refine (foldl_blank ?_ _ _).trans ?_; intro s x)
    | (split <;> try (rename_i h; with_reducible rw [Prod.ext_iff] at h; have h' := h.2; dsimp only at h'; subst h'))
    | dsimp only

theorem putLeaves_frame (a0) (a1) (a2) (s : State) (n : Nat) (hn : n ||| 0x833C4C8E = n) :
    blank n (putLeaves a0 a1 a2 s) = blank n s := by
  refine blank_mono (m := 0x833C4C8E) ?_ hn
  unfold putLeaves
  repeat' first
    | with_reducible rfl
    | simp only [mk_833C4C8E, takeFree, Nat.reduceOr, apply_ite (blank _), apply_ite (keeps _ s), ite_self, implies_true, foldl_blank, keeps_next, Option.elim, putMeta_frame, putTree_frame]
    | (with_reducible refine (foldl_blank ?_ _ _).trans ?_; intro s x)
    | (split <;> try (rename_i h; with_reducible rw [Prod.ext_iff] at h; have h' := h.2; dsimp only at h'; subst h'))
    | dsimp only

theorem putObject_frame (a0) (a1) (s : State) (n : Nat) (hn : n ||| 0x833C4C8E = n) :
    blank n (putObject a0 a1 s) = blank n s := by
  refine blank_mono (m := 0x833C4C8E) ?_ hn
  unfold putObject
  repeat' first
    | with_reducible rfl
    | simp only [mk_833C4C8E, takeFree, Nat.reduceOr, apply_ite (blank _), apply_ite (keeps _ s), ite_self, implies_true, foldl_blank, keeps_next, Option.elim, putLeaves_frame]
    | (with_reducible refine (foldl_blank ?_ _ _).trans ?_; intro s x)
    | (split <;> try (rename_i h; with_reducible rw [Prod.ext_iff] at h; have h' := h.2; dsimp only at h'; subst h'))
    | dsimp only

theorem putLedger_frame (a0) (s : State) (n : Nat) (hn : n ||| 0x833C4C8E = n) :
    blank n (putLedger a0 s) = blank n s := by
  refine blank_mono (m := 0x833C4C8E) ?_ hn
  unfold putLedger
  repeat' first
    | with_reducible rfl
    | simp only [mk_833C4C8E, takeFree, Nat.reduceOr, apply_ite (blank _), apply_ite (keeps _ s), ite_self, implies_true, foldl_blank, keeps_next, Option.elim, putLeaves_frame, putObject_frame]
    | (with_reducible refine (foldl_blank ?_ _ _).trans ?_; intro s x)
    | (split <;> try (rename_i h; with_reducible rw [Prod.ext_iff] at h; have h' := h.2; dsimp only at h'; subst h'))
    | dsimp only

theorem putSeedSpace_frame (a0) (s : State) (n : Nat) (hn : n ||| 0x833C4C8E = n) :
    blank n (putSeedSpace a0 s) = blank n s := by
  refine blank_mono (m := 0x833C4C8E) ?_ hn
  unfold putSeedSpace
  repeat' first
    | with_reducible rfl
    | simp only [mk_833C4C8E, takeFree, Nat.reduceOr, apply_ite (blank _), apply_ite (keeps _ s), ite_self, implies_true, foldl_blank, keeps_next, Option.elim, putPage_frame, putLeaves_frame]
    | (with_reducible refine (foldl_blank ?_ _ _).trans ?_; intro s x)
    | (split <;> try (rename_i h; with_reducible rw [Prod.ext_iff] at h; have h' := h.2; dsimp only at h'; subst h'))
    | dsimp only

theorem putSeeds_frame (a0) (s : State) (n : Nat) (hn : n ||| 0x833C4C8E = n) :
    blank n (putSeeds a0 s) = blank n s := by
  refine blank_mono (m := 0x833C4C8E) ?_ hn
  unfold putSeeds
  repeat' first
    | with_reducible rfl
    | simp only [mk_833C4C8E, takeFree, Nat.reduceOr, apply_ite (blank _), apply_ite (keeps _ s), ite_self, implies_true, foldl_blank, keeps_next, Option.elim, putSeedSpace_frame, putObject_frame]
    | (with_reducible refine (foldl_blank ?_ _ _).trans ?_; intro s x)
    | (split <;> try (rename_i h; with_reducible rw [Prod.ext_iff] at h; have h' := h.2; dsimp only at h'; subst h'))
    | dsimp only

theorem putPair_frame (a0) (a1) (s : State) (n : Nat) (hn : n ||| 0x833C4C8E = n) :
    blank n (putPair a0 a1 s) = blank n s := by
  refine blank_mono (m := 0x833C4C8E) ?_ hn
  unfold putPair
  repeat' first
    | with_reducible rfl
    | simp only [mk_833C4C8E, takeFree, Nat.reduceOr, apply_ite (blank _), apply_ite (keeps _ s), ite_self, implies_true, foldl_blank, keeps_next, Option.elim, putPage_frame]
    | (with_reducible refine (foldl_blank ?_ _ _).trans ?_; intro s x)
    | (split <;> try (rename_i h; with_reducible rw [Prod.ext_iff] at h; have h' := h.2; dsimp only at h'; subst h'))
    | dsimp only

theorem putVersions_frame (a0) (s : State) (n : Nat) (hn : n ||| 0x833C4C8E = n) :
    blank n (putVersions a0 s) = blank n s := by
  refine blank_mono (m := 0x833C4C8E) ?_ hn
  unfold putVersions
  repeat' first
    | with_reducible rfl
    | simp only [mk_833C4C8E, takeFree, Nat.reduceOr, apply_ite (blank _), apply_ite (keeps _ s), ite_self, implies_true, foldl_blank, keeps_next, Option.elim, putPair_frame, putTree_frame, putObject_frame]
    | (with_reducible refine (foldl_blank ?_ _ _).trans ?_; intro s x)
    | (split <;> try (rename_i h; with_reducible rw [Prod.ext_iff] at h; have h' := h.2; dsimp only at h'; subst h'))
    | dsimp only

theorem closeMeta_frame (s : State) (n : Nat) (hn : n ||| 0x80140000 = n) :
    blank n (closeMeta s) = blank n s := by
  refine blank_mono (m := 0x80140000) ?_ hn
  unfold closeMeta
  repeat' first
    | with_reducible rfl
    | simp only [mk_80140000, takeFree, Nat.reduceOr, apply_ite (blank _), apply_ite (keeps _ s), ite_self, implies_true, foldl_blank, keeps_next, Option.elim, closeStripe_frame]
    | (with_reducible refine (foldl_blank ?_ _ _).trans ?_; intro s x)
    | (split <;> try (rename_i h; with_reducible rw [Prod.ext_iff] at h; have h' := h.2; dsimp only at h'; subst h'))
    | dsimp only

theorem putObjects_frame (a0) (s : State) (n : Nat) (hn : n ||| 0x833C4C8E = n) :
    blank n (putObjects a0 s) = blank n s := by
  refine blank_mono (m := 0x833C4C8E) ?_ hn
  unfold putObjects
  repeat' first
    | with_reducible rfl
    | simp only [mk_833C4C8E, takeFree, Nat.reduceOr, apply_ite (blank _), apply_ite (keeps _ s), ite_self, implies_true, foldl_blank, keeps_next, Option.elim, putLedger_frame, putSeeds_frame, putVersions_frame, putObject_frame, closeMeta_frame]
    | (with_reducible refine (foldl_blank ?_ _ _).trans ?_; intro s x)
    | (split <;> try (rename_i h; with_reducible rw [Prod.ext_iff] at h; have h' := h.2; dsimp only at h'; subst h'))
    | dsimp only

theorem finishRemote_frame (a0) (a1) (a2) (a3) (a4) (s : State) (n : Nat) (hn : n ||| 0x80204C8A = n) :
    blank n (finishRemote a0 a1 a2 a3 a4 s) = blank n s := by
  refine blank_mono (m := 0x80204C8A) ?_ hn
  unfold finishRemote
  repeat' first
    | with_reducible rfl
    | simp only [mk_80204C8A, takeFree, Nat.reduceOr, apply_ite (blank _), apply_ite (keeps _ s), ite_self, implies_true, foldl_blank, keeps_next, Option.elim, settleRetains_frame, finishCore_frame]
    | (with_reducible refine (foldl_blank ?_ _ _).trans ?_; intro s x)
    | (split <;> try (rename_i h; with_reducible rw [Prod.ext_iff] at h; have h' := h.2; dsimp only at h'; subst h'))
    | dsimp only

theorem endCmd_frame (a0) (a1) (a2) (a3) (s : State) (n : Nat) (hn : n ||| 0x83204C8E = n) :
    blank n (endCmd a0 a1 a2 a3 s) = blank n s := by
  refine blank_mono (m := 0x83204C8E) ?_ hn
  unfold endCmd
  repeat' first
    | with_reducible rfl
    | simp only [mk_83204C8E, takeFree, Nat.reduceOr, apply_ite (blank _), apply_ite (keeps _ s), ite_self, implies_true, foldl_blank, keeps_next, Option.elim, finishRemote_frame, finish_frame]
    | (with_reducible refine (foldl_blank ?_ _ _).trans ?_; intro s x)
    | (split <;> try (rename_i h; with_reducible rw [Prod.ext_iff] at h; have h' := h.2; dsimp only at h'; subst h'))
    | dsimp only

theorem exhaustFlushes_frame (s : State) (n : Nat) (hn : n ||| 0x83204C8E = n) :
    blank n (exhaustFlushes s) = blank n s := by
  refine blank_mono (m := 0x83204C8E) ?_ hn
  unfold exhaustFlushes
  repeat' first
    | with_reducible rfl
    | simp only [mk_83204C8E, takeFree, Nat.reduceOr, apply_ite (blank _), apply_ite (keeps _ s), ite_self, implies_true, foldl_blank, keeps_next, Option.elim, endCmd_frame]
    | (with_reducible refine (foldl_blank ?_ _ _).trans ?_; intro s x)
    | (split <;> try (rename_i h; with_reducible rw [Prod.ext_iff] at h; have h' := h.2; dsimp only at h'; subst h'))
    | dsimp only

theorem captureWaypoint_frame (a0) (s : State) (n : Nat) (hn : n ||| 0x833C4C8E = n) :
    blank n (captureWaypoint a0 s) = blank n s := by
  refine blank_mono (m := 0x833C4C8E) ?_ hn
  unfold captureWaypoint
  repeat' first
    | with_reducible rfl
    | simp only [mk_833C4C8E, takeFree, Nat.reduceOr, apply_ite (blank _), apply_ite (keeps _ s), ite_self, implies_true, foldl_blank, keeps_next, Option.elim, samplePeaks_frame, dropPlaced_frame, fillReserve_frame, putRecord_frame, putObjects_frame, exhaustFlushes_frame]
    | (with_reducible refine (foldl_blank ?_ _ _).trans ?_; intro s x)
    | (split <;> try (rename_i h; with_reducible rw [Prod.ext_iff] at h; have h' := h.2; dsimp only at h'; subst h'))
    | dsimp only

theorem askWaypoint_frame (s : State) (n : Nat) (hn : n ||| 0x833C4C8E = n) :
    blank n (askWaypoint s) = blank n s := by
  refine blank_mono (m := 0x833C4C8E) ?_ hn
  unfold askWaypoint
  repeat' first
    | with_reducible rfl
    | simp only [mk_833C4C8E, takeFree, Nat.reduceOr, apply_ite (blank _), apply_ite (keeps _ s), ite_self, implies_true, foldl_blank, keeps_next, Option.elim, captureWaypoint_frame]
    | (with_reducible refine (foldl_blank ?_ _ _).trans ?_; intro s x)
    | (split <;> try (rename_i h; with_reducible rw [Prod.ext_iff] at h; have h' := h.2; dsimp only at h'; subst h'))
    | dsimp only

theorem avsDrive_frame (a0) (s : State) (n : Nat) (hn : n ||| 0x80000002 = n) :
    blank n (avsDrive a0 s) = blank n s := by
  refine blank_mono (m := 0x80000002) ?_ hn
  unfold avsDrive
  repeat' first
    | with_reducible rfl
    | simp only [mk_80000002, takeFree, Nat.reduceOr, apply_ite (blank _), apply_ite (keeps _ s), ite_self, implies_true, foldl_blank, keeps_next, Option.elim, pmbusSend_frame]
    | (with_reducible refine (foldl_blank ?_ _ _).trans ?_; intro s x)
    | (split <;> try (rename_i h; with_reducible rw [Prod.ext_iff] at h; have h' := h.2; dsimp only at h'; subst h'))
    | dsimp only

theorem avsRaiseNow_frame (s : State) (n : Nat) (hn : n ||| 0x80800002 = n) :
    blank n (avsRaiseNow s) = blank n s := by
  refine blank_mono (m := 0x80800002) ?_ hn
  unfold avsRaiseNow
  repeat' first
    | with_reducible rfl
    | simp only [mk_80800002, takeFree, Nat.reduceOr, apply_ite (blank _), apply_ite (keeps _ s), ite_self, implies_true, foldl_blank, keeps_next, Option.elim, raiseStep_frame, avsRaise_frame]
    | (with_reducible refine (foldl_blank ?_ _ _).trans ?_; intro s x)
    | (split <;> try (rename_i h; with_reducible rw [Prod.ext_iff] at h; have h' := h.2; dsimp only at h'; subst h'))
    | dsimp only

theorem bar0Word_frame (a0) (a1) (a2) (a3) (s : State) (n : Nat) (hn : n ||| 0x83204C8E = n) (h0 : ∀ x, blank n (a3 x) = blank n x) :
    blank n (bar0Word a0 a1 a2 a3 s) = blank n s := by
  unfold bar0Word
  repeat' first
    | with_reducible rfl
    | exact h0 s
    | exact outside_frame _ _ _ _ _ (or_sub hn rfl)
    | exact accessError_frame _ _ _ _ (or_sub hn rfl)
    | split

theorem sendPendingVec_frame (a0) (a1) (s : State) (n : Nat) (hn : n ||| 0x80000080 = n) :
    blank n (sendPendingVec a0 a1 s) = blank n s := by
  refine blank_mono (m := 0x80000080) ?_ hn
  unfold sendPendingVec
  repeat' first
    | with_reducible rfl
    | simp only [mk_80000080, takeFree, Nat.reduceOr, apply_ite (blank _), apply_ite (keeps _ s), ite_self, implies_true, foldl_blank, keeps_next, Option.elim, raiseVec_frame, modEp_frame]
    | (with_reducible refine (foldl_blank ?_ _ _).trans ?_; intro s x)
    | (split <;> try (rename_i h; with_reducible rw [Prod.ext_iff] at h; have h' := h.2; dsimp only at h'; subst h'))
    | dsimp only

theorem sendPending_frame (a0) (s : State) (n : Nat) (hn : n ||| 0x80000080 = n) :
    blank n (sendPending a0 s) = blank n s := by
  refine blank_mono (m := 0x80000080) ?_ hn
  unfold sendPending
  repeat' first
    | with_reducible rfl
    | simp only [mk_80000080, takeFree, Nat.reduceOr, apply_ite (blank _), apply_ite (keeps _ s), ite_self, implies_true, foldl_blank, keeps_next, Option.elim, sendPendingVec_frame]
    | (with_reducible refine (foldl_blank ?_ _ _).trans ?_; intro s x)
    | (split <;> try (rename_i h; with_reducible rw [Prod.ext_iff] at h; have h' := h.2; dsimp only at h'; subst h'))
    | dsimp only

theorem bar4Access_frame (a0) (a1) (a2) (a3) (s : State) (n : Nat) (hn : n ||| 0xC0000080 = n) :
    blank n (bar4Access a0 a1 a2 a3 s) = blank n s := by
  refine blank_mono (m := 0xC0000080) ?_ hn
  unfold bar4Access
  repeat' first
    | with_reducible rfl
    | simp only [mk_C0000080, takeFree, Nat.reduceOr, apply_ite (blank _), apply_ite (keeps _ s), ite_self, implies_true, foldl_blank, keeps_next, Option.elim, emit_frame, modEp_frame, sendPending_frame]
    | (with_reducible refine (foldl_blank ?_ _ _).trans ?_; intro s x)
    | (split <;> try (rename_i h; with_reducible rw [Prod.ext_iff] at h; have h' := h.2; dsimp only at h'; subst h'))
    | dsimp only

theorem readLow_frame (a0) (a1) (a2) (s : State) (n : Nat) (hn : n ||| 0xC0000100 = n) :
    blank n (readLow a0 a1 a2 s) = blank n s := by
  refine blank_mono (m := 0xC0000100) ?_ hn
  unfold readLow
  repeat' first
    | with_reducible rfl
    | simp only [mk_C0000100, takeFree, Nat.reduceOr, apply_ite (blank _), apply_ite (keeps _ s), ite_self, implies_true, foldl_blank, keeps_next, Option.elim, answer_frame]
    | (with_reducible refine (foldl_blank ?_ _ _).trans ?_; intro s x)
    | (split <;> try (rename_i h; with_reducible rw [Prod.ext_iff] at h; have h' := h.2; dsimp only at h'; subst h'))
    | dsimp only

theorem clearRc_frame (a0) (s : State) (n : Nat) (hn : n ||| 0x2E40000 = n) :
    blank n (clearRc a0 s) = blank n s := by
  refine blank_mono (m := 0x2E40000) ?_ hn
  unfold clearRc
  repeat' first
    | with_reducible rfl
    | simp only [mk_2E40000, takeFree, Nat.reduceOr, apply_ite (blank _), apply_ite (keeps _ s), ite_self, implies_true, foldl_blank, keeps_next, Option.elim, modPort_frame, modLoop_frame]
    | (with_reducible refine (foldl_blank ?_ _ _).trans ?_; intro s x)
    | (split <;> try (rename_i h; with_reducible rw [Prod.ext_iff] at h; have h' := h.2; dsimp only at h'; subst h'))
    | dsimp only

theorem readWord_frame (a0) (a1) (s : State) (n : Nat) (hn : n ||| 0xC2E40100 = n) :
    blank n (readWord a0 a1 s) = blank n s := by
  refine blank_mono (m := 0xC2E40100) ?_ hn
  unfold readWord
  repeat' first
    | with_reducible rfl
    | simp only [mk_C2E40100, takeFree, Nat.reduceOr, apply_ite (blank _), apply_ite (keeps _ s), ite_self, implies_true, foldl_blank, keeps_next, Option.elim, answer_frame, readLow_frame, almReadLast_frame, clearRc_frame]
    | (with_reducible refine (foldl_blank ?_ _ _).trans ?_; intro s x)
    | (split <;> try (rename_i h; with_reducible rw [Prod.ext_iff] at h; have h' := h.2; dsimp only at h'; subst h'))
    | dsimp only

theorem doorbellIgnored_frame (a0) (s : State) (n : Nat) (hn : n ||| 0x83204C8E = n) :
    blank n (doorbellIgnored a0 s) = blank n s := by
  refine blank_mono (m := 0x83204C8E) ?_ hn
  unfold doorbellIgnored
  repeat' first
    | with_reducible rfl
    | simp only [mk_83204C8E, takeFree, Nat.reduceOr, apply_ite (blank _), apply_ite (keeps _ s), ite_self, implies_true, foldl_blank, keeps_next, Option.elim, record_frame]
    | (with_reducible refine (foldl_blank ?_ _ _).trans ?_; intro s x)
    | (split <;> try (rename_i h; with_reducible rw [Prod.ext_iff] at h; have h' := h.2; dsimp only at h'; subst h'))
    | dsimp only

theorem dropStage_frame (a0) (a1) (s : State) (n : Nat) (hn : n ||| 0x200 = n) :
    blank n (dropStage a0 a1 s) = blank n s := by
  refine blank_mono (m := 0x200) ?_ hn
  unfold dropStage
  repeat' first
    | with_reducible rfl
    | simp only [mk_200, takeFree, Nat.reduceOr, apply_ite (blank _), apply_ite (keeps _ s), ite_self, implies_true, foldl_blank, keeps_next, Option.elim]
    | (with_reducible refine (foldl_blank ?_ _ _).trans ?_; intro s x)
    | (split <;> try (rename_i h; with_reducible rw [Prod.ext_iff] at h; have h' := h.2; dsimp only at h'; subst h'))
    | dsimp only

theorem stageHigh_frame (a0) (a1) (a2) (s : State) (n : Nat) (hn : n ||| 0x200 = n) :
    blank n (stageHigh a0 a1 a2 s) = blank n s := by
  refine blank_mono (m := 0x200) ?_ hn
  unfold stageHigh
  repeat' first
    | with_reducible rfl
    | simp only [mk_200, takeFree, Nat.reduceOr, apply_ite (blank _), apply_ite (keeps _ s), ite_self, implies_true, foldl_blank, keeps_next, Option.elim, dropStage_frame]
    | (with_reducible refine (foldl_blank ?_ _ _).trans ?_; intro s x)
    | (split <;> try (rename_i h; with_reducible rw [Prod.ext_iff] at h; have h' := h.2; dsimp only at h'; subst h'))
    | dsimp only

theorem writeHigh_frame (a0) (a1) (a2) (s : State) (n : Nat) (hn : n ||| 0x83204E8E = n) :
    blank n (writeHigh a0 a1 a2 s) = blank n s := by
  refine blank_mono (m := 0x83204E8E) ?_ hn
  unfold writeHigh
  repeat' first
    | with_reducible rfl
    | simp only [mk_83204E8E, takeFree, Nat.reduceOr, apply_ite (blank _), apply_ite (keeps _ s), ite_self, implies_true, foldl_blank, keeps_next, Option.elim, doorbellIgnored_frame, stageHigh_frame]
    | (with_reducible refine (foldl_blank ?_ _ _).trans ?_; intro s x)
    | (split <;> try (rename_i h; with_reducible rw [Prod.ext_iff] at h; have h' := h.2; dsimp only at h'; subst h'))
    | dsimp only

theorem hepCommit_frame (a0) (a1) (a2) (s : State) (n : Nat) (hn : n ||| 0x80 = n) :
    blank n (hepCommit a0 a1 a2 s) = blank n s := by
  refine blank_mono (m := 0x80) ?_ hn
  unfold hepCommit
  repeat' first
    | with_reducible rfl
    | simp only [mk_80, takeFree, Nat.reduceOr, apply_ite (blank _), apply_ite (keeps _ s), ite_self, implies_true, foldl_blank, keeps_next, Option.elim, modEp_frame]
    | (with_reducible refine (foldl_blank ?_ _ _).trans ?_; intro s x)
    | (split <;> try (rename_i h; with_reducible rw [Prod.ext_iff] at h; have h' := h.2; dsimp only at h'; subst h'))
    | dsimp only

theorem dcqCommit_frame (a0) (a1) (a2) (s : State) (n : Nat) (hn : n ||| 0x400 = n) :
    blank n (dcqCommit a0 a1 a2 s) = blank n s := by
  refine blank_mono (m := 0x400) ?_ hn
  unfold dcqCommit
  repeat' first
    | with_reducible rfl
    | simp only [mk_400, takeFree, Nat.reduceOr, apply_ite (blank _), apply_ite (keeps _ s), ite_self, implies_true, foldl_blank, keeps_next, Option.elim]
    | (with_reducible refine (foldl_blank ?_ _ _).trans ?_; intro s x)
    | (split <;> try (rename_i h; with_reducible rw [Prod.ext_iff] at h; have h' := h.2; dsimp only at h'; subst h'))
    | dsimp only

theorem secCommit_frame (a0) (a1) (s : State) (n : Nat) (hn : n ||| 0x10000 = n) :
    blank n (secCommit a0 a1 s) = blank n s := by
  refine blank_mono (m := 0x10000) ?_ hn
  unfold secCommit
  repeat' first
    | with_reducible rfl
    | simp only [mk_10000, takeFree, Nat.reduceOr, apply_ite (blank _), apply_ite (keeps _ s), ite_self, implies_true, foldl_blank, keeps_next, Option.elim]
    | (with_reducible refine (foldl_blank ?_ _ _).trans ?_; intro s x)
    | (split <;> try (rename_i h; with_reducible rw [Prod.ext_iff] at h; have h' := h.2; dsimp only at h'; subst h'))
    | dsimp only

theorem ecpCommit_frame (a0) (a1) (s : State) (n : Nat) (hn : n ||| 0x100000 = n) :
    blank n (ecpCommit a0 a1 s) = blank n s := by
  refine blank_mono (m := 0x100000) ?_ hn
  unfold ecpCommit
  repeat' first
    | with_reducible rfl
    | simp only [mk_100000, takeFree, Nat.reduceOr, apply_ite (blank _), apply_ite (keeps _ s), ite_self, implies_true, foldl_blank, keeps_next, Option.elim]
    | (with_reducible refine (foldl_blank ?_ _ _).trans ?_; intro s x)
    | (split <;> try (rename_i h; with_reducible rw [Prod.ext_iff] at h; have h' := h.2; dsimp only at h'; subst h'))
    | dsimp only

theorem modSlotPwr_frame (a0) (a1) (s : State) (n : Nat) (hn : n ||| 0x800000 = n) :
    blank n (modSlotPwr a0 a1 s) = blank n s := by
  refine blank_mono (m := 0x800000) ?_ hn
  unfold modSlotPwr
  repeat' first
    | with_reducible rfl
    | simp only [mk_800000, takeFree, Nat.reduceOr, apply_ite (blank _), apply_ite (keeps _ s), ite_self, implies_true, foldl_blank, keeps_next, Option.elim]
    | (with_reducible refine (foldl_blank ?_ _ _).trans ?_; intro s x)
    | (split <;> try (rename_i h; with_reducible rw [Prod.ext_iff] at h; have h' := h.2; dsimp only at h'; subst h'))
    | dsimp only

theorem sendPower_frame (a0) (a1) (a2) (s : State) (n : Nat) (hn : n ||| 0x80200002 = n) :
    blank n (sendPower a0 a1 a2 s) = blank n s := by
  refine blank_mono (m := 0x80200002) ?_ hn
  unfold sendPower
  repeat' first
    | with_reducible rfl
    | simp only [mk_80200002, takeFree, Nat.reduceOr, apply_ite (blank _), apply_ite (keeps _ s), ite_self, implies_true, foldl_blank, keeps_next, Option.elim, xhlSend_frame]
    | (with_reducible refine (foldl_blank ?_ _ _).trans ?_; intro s x)
    | (split <;> try (rename_i h; with_reducible rw [Prod.ext_iff] at h; have h' := h.2; dsimp only at h'; subst h'))
    | dsimp only

theorem slotOffWrite_frame (a0) (s : State) (n : Nat) (hn : n ||| 0x80A00002 = n) :
    blank n (slotOffWrite a0 s) = blank n s := by
  refine blank_mono (m := 0x80A00002) ?_ hn
  unfold slotOffWrite
  repeat' first
    | with_reducible rfl
    | simp only [mk_80A00002, takeFree, Nat.reduceOr, apply_ite (blank _), apply_ite (keeps _ s), ite_self, implies_true, foldl_blank, keeps_next, Option.elim, modSlotPwr_frame, sendPower_frame]
    | (with_reducible refine (foldl_blank ?_ _ _).trans ?_; intro s x)
    | (split <;> try (rename_i h; with_reducible rw [Prod.ext_iff] at h; have h' := h.2; dsimp only at h'; subst h'))
    | dsimp only

theorem commitWide_frame (a0) (a1) (a2) (s : State) (n : Nat) (hn : n ||| 0x80BB1682 = n) :
    blank n (commitWide a0 a1 a2 s) = blank n s := by
  refine blank_mono (m := 0x80BB1682) ?_ hn
  unfold commitWide
  repeat' first
    | with_reducible rfl
    | simp only [mk_80BB1682, takeFree, Nat.reduceOr, apply_ite (blank _), apply_ite (keeps _ s), ite_self, implies_true, foldl_blank, keeps_next, Option.elim, dropStage_frame, hepCommit_frame, dcqCommit_frame, secCommit_frame, ecpCommit_frame, slotOffWrite_frame]
    | (with_reducible refine (foldl_blank ?_ _ _).trans ?_; intro s x)
    | (split <;> try (rename_i h; with_reducible rw [Prod.ext_iff] at h; have h' := h.2; dsimp only at h'; subst h'))
    | dsimp only

theorem sendTime_frame (a0) (s : State) (n : Nat) (hn : n ||| 0x8020000A = n) :
    blank n (sendTime a0 s) = blank n s := by
  refine blank_mono (m := 0x8020000A) ?_ hn
  unfold sendTime
  repeat' first
    | with_reducible rfl
    | simp only [mk_8020000A, takeFree, Nat.reduceOr, apply_ite (blank _), apply_ite (keeps _ s), ite_self, implies_true, foldl_blank, keeps_next, Option.elim, xhlSend_frame]
    | (with_reducible refine (foldl_blank ?_ _ _).trans ?_; intro s x)
    | (split <;> try (rename_i h; with_reducible rw [Prod.ext_iff] at h; have h' := h.2; dsimp only at h'; subst h'))
    | dsimp only

theorem bumpHigh_frame (s : State) (n : Nat) (hn : n ||| 0xC = n) :
    blank n (bumpHigh s) = blank n s := by
  refine blank_mono (m := 0xC) ?_ hn
  unfold bumpHigh
  repeat' first
    | with_reducible rfl
    | simp only [mk_C, takeFree, Nat.reduceOr, apply_ite (blank _), apply_ite (keeps _ s), ite_self, implies_true, foldl_blank, keeps_next, Option.elim]
    | (with_reducible refine (foldl_blank ?_ _ _).trans ?_; intro s x)
    | (split <;> try (rename_i h; with_reducible rw [Prod.ext_iff] at h; have h' := h.2; dsimp only at h'; subst h'))
    | dsimp only

theorem keepCivil_frame (s : State) (n : Nat) (hn : n ||| 0x4 = n) :
    blank n (keepCivil s) = blank n s := by
  refine blank_mono (m := 0x4) ?_ hn
  unfold keepCivil
  repeat' first
    | with_reducible rfl
    | simp only [mk_4, takeFree, Nat.reduceOr, apply_ite (blank _), apply_ite (keeps _ s), ite_self, implies_true, foldl_blank, keeps_next, Option.elim]
    | (with_reducible refine (foldl_blank ?_ _ _).trans ?_; intro s x)
    | (split <;> try (rename_i h; with_reducible rw [Prod.ext_iff] at h; have h' := h.2; dsimp only at h'; subst h'))
    | dsimp only

theorem commitCivil_frame (a0) (a1) (s : State) (n : Nat) (hn : n ||| 0x83204C8E = n) :
    blank n (commitCivil a0 a1 s) = blank n s := by
  refine blank_mono (m := 0x83204C8E) ?_ hn
  unfold commitCivil
  repeat' first
    | with_reducible rfl
    | simp only [mk_83204C8E, takeFree, Nat.reduceOr, apply_ite (blank _), apply_ite (keeps _ s), ite_self, implies_true, foldl_blank, keeps_next, Option.elim, bumpHigh_frame, keepCivil_frame, record_frame]
    | (with_reducible refine (foldl_blank ?_ _ _).trans ?_; intro s x)
    | (split <;> try (rename_i h; with_reducible rw [Prod.ext_iff] at h; have h' := h.2; dsimp only at h'; subst h'))
    | dsimp only

theorem setCivil_frame (a0) (s : State) (n : Nat) (hn : n ||| 0x83204C8E = n) :
    blank n (setCivil a0 s).2 = blank n s := by
  refine blank_mono (m := 0x83204C8E) ?_ hn
  unfold setCivil
  repeat' first
    | with_reducible rfl
    | simp only [mk_83204C8E, takeFree, Nat.reduceOr, apply_ite (blank _), apply_ite (keeps _ s), ite_self, implies_true, foldl_blank, keeps_next, Option.elim, record_frame, sendTime_frame, commitCivil_frame]
    | (with_reducible refine (foldl_blank ?_ _ _).trans ?_; intro s x)
    | (split <;> try (rename_i h; with_reducible rw [Prod.ext_iff] at h; have h' := h.2; dsimp only at h'; subst h'))
    | dsimp only

theorem civilSetWrite_frame (a0) (a1) (s : State) (n : Nat) (hn : n ||| 0x83204E8E = n) :
    blank n (civilSetWrite a0 a1 s) = blank n s := by
  refine blank_mono (m := 0x83204E8E) ?_ hn
  unfold civilSetWrite
  repeat' first
    | with_reducible rfl
    | simp only [mk_83204E8E, takeFree, Nat.reduceOr, apply_ite (blank _), apply_ite (keeps _ s), ite_self, implies_true, foldl_blank, keeps_next, Option.elim, setCivil_frame, dropStage_frame]
    | (with_reducible refine (foldl_blank ?_ _ _).trans ?_; intro s x)
    | (split <;> try (rename_i h; with_reducible rw [Prod.ext_iff] at h; have h' := h.2; dsimp only at h'; subst h'))
    | dsimp only

theorem eachBit_frame (a0) (a1) (s : State) (n : Nat) (hn : n ||| 0x0 = n) (h0 : ∀ k x, blank n (a1 k x) = blank n x) :
    blank n (eachBit a0 a1 s) = blank n s := by
  exact foldl_blank (fun s x => h0 x s) _ _

theorem doorAbort_frame (a0) (a1) (a2) (s : State) (n : Nat) (hn : n ||| 0x83226C8E = n) :
    blank n (doorAbort a0 a1 a2 s) = blank n s := by
  refine blank_mono (m := 0x83226C8E) ?_ hn
  unfold doorAbort
  repeat' first
    | with_reducible rfl
    | simp only [mk_83226C8E, takeFree, Nat.reduceOr, apply_ite (blank _), apply_ite (keeps _ s), ite_self, implies_true, foldl_blank, keeps_next, Option.elim, eachBit_frame, abortTag_frame, doorbellIgnored_frame]
    | (with_reducible refine (foldl_blank ?_ _ _).trans ?_; intro s x)
    | (split <;> try (rename_i h; with_reducible rw [Prod.ext_iff] at h; have h' := h.2; dsimp only at h'; subst h'))
    | dsimp only

theorem makeReady_frame (a0) (a1) (s : State) (n : Nat) (hn : n ||| 0x83A04C8E = n) :
    blank n (makeReady a0 a1 s) = blank n s := by
  refine blank_mono (m := 0x83A04C8E) ?_ hn
  unfold makeReady
  repeat' first
    | with_reducible rfl
    | simp only [mk_83A04C8E, takeFree, Nat.reduceOr, apply_ite (blank _), apply_ite (keeps _ s), ite_self, implies_true, foldl_blank, keeps_next, Option.elim, modQueue_frame, busy_frame, finish_frame, record_frame]
    | (with_reducible refine (foldl_blank ?_ _ _).trans ?_; intro s x)
    | (split <;> try (rename_i h; with_reducible rw [Prod.ext_iff] at h; have h' := h.2; dsimp only at h'; subst h'))
    | dsimp only

theorem doorReady_frame (a0) (a1) (a2) (s : State) (n : Nat) (hn : n ||| 0x83A04C8E = n) :
    blank n (doorReady a0 a1 a2 s) = blank n s := by
  refine blank_mono (m := 0x83A04C8E) ?_ hn
  unfold doorReady
  repeat' first
    | with_reducible rfl
    | simp only [mk_83A04C8E, takeFree, Nat.reduceOr, apply_ite (blank _), apply_ite (keeps _ s), ite_self, implies_true, foldl_blank, keeps_next, Option.elim, issueReads_frame, eachBit_frame, makeReady_frame, doorbellIgnored_frame]
    | (with_reducible refine (foldl_blank ?_ _ _).trans ?_; intro s x)
    | (split <;> try (rename_i h; with_reducible rw [Prod.ext_iff] at h; have h' := h.2; dsimp only at h'; subst h'))
    | dsimp only

theorem doorReadyAbort_frame (a0) (a1) (a2) (s : State) (n : Nat) (hn : n ||| 0x83A26E8E = n) :
    blank n (doorReadyAbort a0 a1 a2 s) = blank n s := by
  refine blank_mono (m := 0x83A26E8E) ?_ hn
  unfold doorReadyAbort
  repeat' first
    | with_reducible rfl
    | simp only [mk_83A26E8E, takeFree, Nat.reduceOr, apply_ite (blank _), apply_ite (keeps _ s), ite_self, implies_true, foldl_blank, keeps_next, Option.elim, dropStage_frame, doorAbort_frame, doorReady_frame, doorbellIgnored_frame]
    | (with_reducible refine (foldl_blank ?_ _ _).trans ?_; intro s x)
    | (split <;> try (rename_i h; with_reducible rw [Prod.ext_iff] at h; have h' := h.2; dsimp only at h'; subst h'))
    | dsimp only

theorem writeLow_frame (a0) (a1) (a2) (a3) (a4) (s : State) (n : Nat) (hn : n ||| 0x83BB7E8E = n) :
    blank n (writeLow a0 a1 a2 a3 a4 s) = blank n s := by
  refine blank_mono (m := 0x83BB7E8E) ?_ hn
  unfold writeLow
  repeat' first
    | with_reducible rfl
    | simp only [mk_83BB7E8E, takeFree, Nat.reduceOr, apply_ite (blank _), apply_ite (keeps _ s), ite_self, implies_true, foldl_blank, keeps_next, Option.elim, commitWide_frame, civilSetWrite_frame, doorReadyAbort_frame]
    | (with_reducible refine (foldl_blank ?_ _ _).trans ?_; intro s x)
    | (split <;> try (rename_i h; with_reducible rw [Prod.ext_iff] at h; have h' := h.2; dsimp only at h'; subst h'))
    | dsimp only

theorem drainCpls_frame (a0) (a1) (s : State) (n : Nat) (hn : n ||| 0x80000C88 = n) :
    blank n (drainCpls a0 a1 s) = blank n s := by
  refine blank_mono (m := 0x80000C88) ?_ hn
  induction a1 generalizing s with
  | zero => rfl
  | succ k ih =>
    rw [drainCpls]
    repeat' first
      | with_reducible rfl
      | simp only [mk_80000C88, takeFree, Nat.reduceOr, apply_ite (blank _), apply_ite (keeps _ s), ite_self, implies_true, foldl_blank, keeps_next, Option.elim, modQueue_frame, postCpl_frame, ih]
      | (split <;> try (rename_i h; with_reducible rw [Prod.ext_iff] at h; have h' := h.2; dsimp only at h'; subst h'))

theorem drainQueue_frame (a0) (s : State) (n : Nat) (hn : n ||| 0x80000C88 = n) :
    blank n (drainQueue a0 s) = blank n s := by
  refine blank_mono (m := 0x80000C88) ?_ hn
  unfold drainQueue
  repeat' first
    | with_reducible rfl
    | simp only [mk_80000C88, takeFree, Nat.reduceOr, apply_ite (blank _), apply_ite (keeps _ s), ite_self, implies_true, foldl_blank, keeps_next, Option.elim, drainCpls_frame]
    | (with_reducible refine (foldl_blank ?_ _ _).trans ?_; intro s x)
    | (split <;> try (rename_i h; with_reducible rw [Prod.ext_iff] at h; have h' := h.2; dsimp only at h'; subst h'))
    | dsimp only

theorem releaseQueue_frame (a0) (s : State) (n : Nat) (hn : n ||| 0x83204C8E = n) :
    blank n (releaseQueue a0 s) = blank n s := by
  refine blank_mono (m := 0x83204C8E) ?_ hn
  unfold releaseQueue
  repeat' first
    | with_reducible rfl
    | simp only [mk_83204C8E, takeFree, Nat.reduceOr, apply_ite (blank _), apply_ite (keeps _ s), ite_self, implies_true, foldl_blank, keeps_next, Option.elim, settleQueue_frame, drainQueue_frame]
    | (with_reducible refine (foldl_blank ?_ _ _).trans ?_; intro s x)
    | (split <;> try (rename_i h; with_reducible rw [Prod.ext_iff] at h; have h' := h.2; dsimp only at h'; subst h'))
    | dsimp only

theorem doorHead_frame (a0) (a1) (a2) (s : State) (n : Nat) (hn : n ||| 0x83204C8E = n) :
    blank n (doorHead a0 a1 a2 s) = blank n s := by
  refine blank_mono (m := 0x83204C8E) ?_ hn
  unfold doorHead
  repeat' first
    | with_reducible rfl
    | simp only [mk_83204C8E, takeFree, Nat.reduceOr, apply_ite (blank _), apply_ite (keeps _ s), ite_self, implies_true, foldl_blank, keeps_next, Option.elim, doorbellIgnored_frame, releaseQueue_frame, modQueue_frame]
    | (with_reducible refine (foldl_blank ?_ _ _).trans ?_; intro s x)
    | (split <;> try (rename_i h; with_reducible rw [Prod.ext_iff] at h; have h' := h.2; dsimp only at h'; subst h'))
    | dsimp only

theorem doorbellWrite_frame (a0) (a1) (a2) (s : State) (n : Nat) (hn : n ||| 0x83A26C8E = n) :
    blank n (doorbellWrite a0 a1 a2 s) = blank n s := by
  refine blank_mono (m := 0x83A26C8E) ?_ hn
  unfold doorbellWrite
  repeat' first
    | with_reducible rfl
    | simp only [mk_83A26C8E, takeFree, Nat.reduceOr, apply_ite (blank _), apply_ite (keeps _ s), ite_self, implies_true, foldl_blank, keeps_next, Option.elim, doorReady_frame, doorAbort_frame, doorHead_frame]
    | (with_reducible refine (foldl_blank ?_ _ _).trans ?_; intro s x)
    | (split <;> try (rename_i h; with_reducible rw [Prod.ext_iff] at h; have h' := h.2; dsimp only at h'; subst h'))
    | dsimp only

theorem psCtlWrite_frame (a0) (s : State) (n : Nat) (hn : n ||| 0x80800482 = n) :
    blank n (psCtlWrite a0 s) = blank n s := by
  refine blank_mono (m := 0x80800482) ?_ hn
  unfold psCtlWrite
  repeat' first
    | with_reducible rfl
    | simp only [mk_80800482, takeFree, Nat.reduceOr, apply_ite (blank _), apply_ite (keeps _ s), ite_self, implies_true, foldl_blank, keeps_next, Option.elim, exitIdle_frame]
    | (with_reducible refine (foldl_blank ?_ _ _).trans ?_; intro s x)
    | (split <;> try (rename_i h; with_reducible rw [Prod.ext_iff] at h; have h' := h.2; dsimp only at h'; subst h'))
    | dsimp only

theorem policyWrite_frame (a0) (s : State) (n : Nat) (hn : n ||| 0x2 = n) :
    blank n (policyWrite a0 s) = blank n s := by
  refine blank_mono (m := 0x2) ?_ hn
  unfold policyWrite
  repeat' first
    | with_reducible rfl
    | simp only [mk_2, takeFree, Nat.reduceOr, apply_ite (blank _), apply_ite (keeps _ s), ite_self, implies_true, foldl_blank, keeps_next, Option.elim]
    | (with_reducible refine (foldl_blank ?_ _ _).trans ?_; intro s x)
    | (split <;> try (rename_i h; with_reducible rw [Prod.ext_iff] at h; have h' := h.2; dsimp only at h'; subst h'))
    | dsimp only

theorem pwrWrite_frame (a0) (a1) (s : State) (n : Nat) (hn : n ||| 0x80800482 = n) :
    blank n (pwrWrite a0 a1 s) = blank n s := by
  refine blank_mono (m := 0x80800482) ?_ hn
  unfold pwrWrite
  repeat' first
    | with_reducible rfl
    | simp only [mk_80800482, takeFree, Nat.reduceOr, apply_ite (blank _), apply_ite (keeps _ s), ite_self, implies_true, foldl_blank, keeps_next, Option.elim, psCtlWrite_frame, policyWrite_frame]
    | (with_reducible refine (foldl_blank ?_ _ _).trans ?_; intro s x)
    | (split <;> try (rename_i h; with_reducible rw [Prod.ext_iff] at h; have h' := h.2; dsimp only at h'; subst h'))
    | dsimp only

theorem periodDefWrite_frame (a0) (s : State) (n : Nat) (hn : n ||| 0x8 = n) :
    blank n (periodDefWrite a0 s) = blank n s := by
  refine blank_mono (m := 0x8) ?_ hn
  unfold periodDefWrite
  repeat' first
    | with_reducible rfl
    | simp only [mk_8, takeFree, Nat.reduceOr, apply_ite (blank _), apply_ite (keeps _ s), ite_self, implies_true, foldl_blank, keeps_next, Option.elim]
    | (with_reducible refine (foldl_blank ?_ _ _).trans ?_; intro s x)
    | (split <;> try (rename_i h; with_reducible rw [Prod.ext_iff] at h; have h' := h.2; dsimp only at h'; subst h'))
    | dsimp only

theorem ldsWrite_frame (a0) (a1) (s : State) (n : Nat) (hn : n ||| 0x8 = n) :
    blank n (ldsWrite a0 a1 s) = blank n s := by
  refine blank_mono (m := 0x8) ?_ hn
  unfold ldsWrite
  repeat' first
    | with_reducible rfl
    | simp only [mk_8, takeFree, Nat.reduceOr, apply_ite (blank _), apply_ite (keeps _ s), ite_self, implies_true, foldl_blank, keeps_next, Option.elim, armForward_frame, periodDefWrite_frame]
    | (with_reducible refine (foldl_blank ?_ _ _).trans ?_; intro s x)
    | (split <;> try (rename_i h; with_reducible rw [Prod.ext_iff] at h; have h' := h.2; dsimp only at h'; subst h'))
    | dsimp only

theorem lcCommand_frame (a0) (s : State) (n : Nat) (hn : n ||| 0x20 = n) :
    blank n (lcCommand a0 s) = blank n s := by
  refine blank_mono (m := 0x20) ?_ hn
  unfold lcCommand
  repeat' first
    | with_reducible rfl
    | simp only [mk_20, takeFree, Nat.reduceOr, apply_ite (blank _), apply_ite (keeps _ s), ite_self, implies_true, foldl_blank, keeps_next, Option.elim]
    | (with_reducible refine (foldl_blank ?_ _ _).trans ?_; intro s x)
    | (split <;> try (rename_i h; with_reducible rw [Prod.ext_iff] at h; have h' := h.2; dsimp only at h'; subst h'))
    | dsimp only

theorem cfgWrite_frame (a0) (a1) (s : State) (n : Nat) (hn : n ||| 0x20 = n) :
    blank n (cfgWrite a0 a1 s) = blank n s := by
  refine blank_mono (m := 0x20) ?_ hn
  unfold cfgWrite
  repeat' first
    | with_reducible rfl
    | simp only [mk_20, takeFree, Nat.reduceOr, apply_ite (blank _), apply_ite (keeps _ s), ite_self, implies_true, foldl_blank, keeps_next, Option.elim, lcCommand_frame]
    | (with_reducible refine (foldl_blank ?_ _ _).trans ?_; intro s x)
    | (split <;> try (rename_i h; with_reducible rw [Prod.ext_iff] at h; have h' := h.2; dsimp only at h'; subst h'))
    | dsimp only

theorem winCommit_frame (a0) (a1) (a2) (s : State) (n : Nat) (hn : n ||| 0x83204C8E = n) :
    blank n (winCommit a0 a1 a2 s) = blank n s := by
  refine blank_mono (m := 0x83204C8E) ?_ hn
  unfold winCommit
  repeat' first
    | with_reducible rfl
    | simp only [mk_83204C8E, takeFree, Nat.reduceOr, apply_ite (blank _), apply_ite (keeps _ s), ite_self, implies_true, foldl_blank, keeps_next, Option.elim, record_frame, modEp_frame]
    | (with_reducible refine (foldl_blank ?_ _ _).trans ?_; intro s x)
    | (split <;> try (rename_i h; with_reducible rw [Prod.ext_iff] at h; have h' := h.2; dsimp only at h'; subst h'))
    | dsimp only

theorem hepWrite_frame (a0) (a1) (a2) (s : State) (n : Nat) (hn : n ||| 0x83204C8E = n) :
    blank n (hepWrite a0 a1 a2 s) = blank n s := by
  refine blank_mono (m := 0x83204C8E) ?_ hn
  unfold hepWrite
  repeat' first
    | with_reducible rfl
    | simp only [mk_83204C8E, takeFree, Nat.reduceOr, apply_ite (blank _), apply_ite (keeps _ s), ite_self, implies_true, foldl_blank, keeps_next, Option.elim, modEp_frame, issueReads_frame, winCommit_frame]
    | (with_reducible refine (foldl_blank ?_ _ _).trans ?_; intro s x)
    | (split <;> try (rename_i h; with_reducible rw [Prod.ext_iff] at h; have h' := h.2; dsimp only at h'; subst h'))
    | dsimp only

theorem dcqWrite_frame (a0) (a1) (a2) (s : State) (n : Nat) (hn : n ||| 0x80000480 = n) :
    blank n (dcqWrite a0 a1 a2 s) = blank n s := by
  refine blank_mono (m := 0x80000480) ?_ hn
  unfold dcqWrite
  repeat' first
    | with_reducible rfl
    | simp only [mk_80000480, takeFree, Nat.reduceOr, apply_ite (blank _), apply_ite (keeps _ s), ite_self, implies_true, foldl_blank, keeps_next, Option.elim, admCtlWrite_frame]
    | (with_reducible refine (foldl_blank ?_ _ _).trans ?_; intro s x)
    | (split <;> try (rename_i h; with_reducible rw [Prod.ext_iff] at h; have h' := h.2; dsimp only at h'; subst h'))
    | dsimp only

theorem modNetPort_frame (a0) (a1) (s : State) (n : Nat) (hn : n ||| 0x800 = n) :
    blank n (modNetPort a0 a1 s) = blank n s := by
  refine blank_mono (m := 0x800) ?_ hn
  unfold modNetPort
  repeat' first
    | with_reducible rfl
    | simp only [mk_800, takeFree, Nat.reduceOr, apply_ite (blank _), apply_ite (keeps _ s), ite_self, implies_true, foldl_blank, keeps_next, Option.elim]
    | (with_reducible refine (foldl_blank ?_ _ _).trans ?_; intro s x)
    | (split <;> try (rename_i h; with_reducible rw [Prod.ext_iff] at h; have h' := h.2; dsimp only at h'; subst h'))
    | dsimp only

theorem pkeyWrite_frame (a0) (a1) (s : State) (n : Nat) (hn : n ||| 0x800 = n) :
    blank n (pkeyWrite a0 a1 s) = blank n s := by
  refine blank_mono (m := 0x800) ?_ hn
  unfold pkeyWrite
  repeat' first
    | with_reducible rfl
    | simp only [mk_800, takeFree, Nat.reduceOr, apply_ite (blank _), apply_ite (keeps _ s), ite_self, implies_true, foldl_blank, keeps_next, Option.elim]
    | (with_reducible refine (foldl_blank ?_ _ _).trans ?_; intro s x)
    | (split <;> try (rename_i h; with_reducible rw [Prod.ext_iff] at h; have h' := h.2; dsimp only at h'; subst h'))
    | dsimp only

theorem netWrite_frame (a0) (a1) (s : State) (n : Nat) (hn : n ||| 0x800 = n) :
    blank n (netWrite a0 a1 s) = blank n s := by
  refine blank_mono (m := 0x800) ?_ hn
  unfold netWrite
  repeat' first
    | with_reducible rfl
    | simp only [mk_800, takeFree, Nat.reduceOr, apply_ite (blank _), apply_ite (keeps _ s), ite_self, implies_true, foldl_blank, keeps_next, Option.elim, modNetPort_frame, pkeyWrite_frame]
    | (with_reducible refine (foldl_blank ?_ _ _).trans ?_; intro s x)
    | (split <;> try (rename_i h; with_reducible rw [Prod.ext_iff] at h; have h' := h.2; dsimp only at h'; subst h'))
    | dsimp only

theorem regionRefuse_frame (s : State) (n : Nat) (hn : n ||| 0x83205C8E = n) :
    blank n (regionRefuse s) = blank n s := by
  refine blank_mono (m := 0x83205C8E) ?_ hn
  unfold regionRefuse
  repeat' first
    | with_reducible rfl
    | simp only [mk_83205C8E, takeFree, Nat.reduceOr, apply_ite (blank _), apply_ite (keeps _ s), ite_self, implies_true, foldl_blank, keeps_next, Option.elim, record_frame]
    | (with_reducible refine (foldl_blank ?_ _ _).trans ?_; intro s x)
    | (split <;> try (rename_i h; with_reducible rw [Prod.ext_iff] at h; have h' := h.2; dsimp only at h'; subst h'))
    | dsimp only

theorem regionEnd_frame (a0) (s : State) (n : Nat) (hn : n ||| 0x83205C8E = n) :
    blank n (regionEnd a0 s) = blank n s := by
  refine blank_mono (m := 0x83205C8E) ?_ hn
  unfold regionEnd
  repeat' first
    | with_reducible rfl
    | simp only [mk_83205C8E, takeFree, Nat.reduceOr, apply_ite (blank _), apply_ite (keeps _ s), ite_self, implies_true, foldl_blank, keeps_next, Option.elim, regionRefuse_frame]
    | (with_reducible refine (foldl_blank ?_ _ _).trans ?_; intro s x)
    | (split <;> try (rename_i h; with_reducible rw [Prod.ext_iff] at h; have h' := h.2; dsimp only at h'; subst h'))
    | dsimp only

theorem regionGo_frame (s : State) (n : Nat) (hn : n ||| 0x83205C8E = n) :
    blank n (regionGo s) = blank n s := by
  refine blank_mono (m := 0x83205C8E) ?_ hn
  unfold regionGo
  repeat' first
    | with_reducible rfl
    | simp only [mk_83205C8E, takeFree, Nat.reduceOr, apply_ite (blank _), apply_ite (keeps _ s), ite_self, implies_true, foldl_blank, keeps_next, Option.elim, regionRefuse_frame]
    | (with_reducible refine (foldl_blank ?_ _ _).trans ?_; intro s x)
    | (split <;> try (rename_i h; with_reducible rw [Prod.ext_iff] at h; have h' := h.2; dsimp only at h'; subst h'))
    | dsimp only

theorem noteMapChange_frame (s : State) (n : Nat) (hn : n ||| 0x80000 = n) :
    blank n (noteMapChange s) = blank n s := by
  refine blank_mono (m := 0x80000) ?_ hn
  unfold noteMapChange
  repeat' first
    | with_reducible rfl
    | simp only [mk_80000, takeFree, Nat.reduceOr, apply_ite (blank _), apply_ite (keeps _ s), ite_self, implies_true, foldl_blank, keeps_next, Option.elim]
    | (with_reducible refine (foldl_blank ?_ _ _).trans ?_; intro s x)
    | (split <;> try (rename_i h; with_reducible rw [Prod.ext_iff] at h; have h' := h.2; dsimp only at h'; subst h'))
    | dsimp only

theorem dropPairs_frame (s : State) (n : Nat) (hn : n ||| 0x80304002 = n) :
    blank n (dropPairs s) = blank n s := by
  refine blank_mono (m := 0x80304002) ?_ hn
  unfold dropPairs
  repeat' first
    | with_reducible rfl
    | simp only [mk_80304002, takeFree, Nat.reduceOr, apply_ite (blank _), apply_ite (keeps _ s), ite_self, implies_true, foldl_blank, keeps_next, Option.elim, releaseEntry_frame]
    | (with_reducible refine (foldl_blank ?_ _ _).trans ?_; intro s x)
    | (split <;> try (rename_i h; with_reducible rw [Prod.ext_iff] at h; have h' := h.2; dsimp only at h'; subst h'))
    | dsimp only

theorem dropVersion_frame (a0) (a1) (s : State) (n : Nat) (hn : n ||| 0x80384002 = n) :
    blank n (dropVersion a0 a1 s) = blank n s := by
  refine blank_mono (m := 0x80384002) ?_ hn
  unfold dropVersion
  repeat' first
    | with_reducible rfl
    | simp only [mk_80384002, takeFree, Nat.reduceOr, apply_ite (blank _), apply_ite (keeps _ s), ite_self, implies_true, foldl_blank, keeps_next, Option.elim, modVol_frame, noteMapChange_frame, sendDelta_frame, dropPairs_frame]
    | (with_reducible refine (foldl_blank ?_ _ _).trans ?_; intro s x)
    | (split <;> try (rename_i h; with_reducible rw [Prod.ext_iff] at h; have h' := h.2; dsimp only at h'; subst h'))
    | dsimp only

theorem releaseCut_frame (a0) (a1) (s : State) (n : Nat) (hn : n ||| 0x80384002 = n) :
    blank n (releaseCut a0 a1 s) = blank n s := by
  refine blank_mono (m := 0x80384002) ?_ hn
  unfold releaseCut
  repeat' first
    | with_reducible rfl
    | simp only [mk_80384002, takeFree, Nat.reduceOr, apply_ite (blank _), apply_ite (keeps _ s), ite_self, implies_true, foldl_blank, keeps_next, Option.elim, dropVersion_frame]
    | (with_reducible refine (foldl_blank ?_ _ _).trans ?_; intro s x)
    | (split <;> try (rename_i h; with_reducible rw [Prod.ext_iff] at h; have h' := h.2; dsimp only at h'; subst h'))
    | dsimp only

theorem stopLink_frame (a0) (s : State) (n : Nat) (hn : n ||| 0x83385C8E = n) :
    blank n (stopLink a0 s) = blank n s := by
  refine blank_mono (m := 0x83385C8E) ?_ hn
  unfold stopLink
  repeat' first
    | with_reducible rfl
    | simp only [mk_83385C8E, takeFree, Nat.reduceOr, apply_ite (blank _), apply_ite (keeps _ s), ite_self, implies_true, foldl_blank, keeps_next, Option.elim, releaseCut_frame, sendRoce_frame, setLink_frame, modLink_frame]
    | (with_reducible refine (foldl_blank ?_ _ _).trans ?_; intro s x)
    | (split <;> try (rename_i h; with_reducible rw [Prod.ext_iff] at h; have h' := h.2; dsimp only at h'; subst h'))
    | dsimp only

theorem connectLink_frame (a0) (s : State) (n : Nat) (hn : n ||| 0x83205C8E = n) :
    blank n (connectLink a0 s) = blank n s := by
  refine blank_mono (m := 0x83205C8E) ?_ hn
  unfold connectLink
  repeat' first
    | with_reducible rfl
    | simp only [mk_83205C8E, takeFree, Nat.reduceOr, apply_ite (blank _), apply_ite (keeps _ s), ite_self, implies_true, foldl_blank, keeps_next, Option.elim, adoptCuts_frame, setLink_frame, sendRoce_frame, modLink_frame]
    | (with_reducible refine (foldl_blank ?_ _ _).trans ?_; intro s x)
    | (split <;> try (rename_i h; with_reducible rw [Prod.ext_iff] at h; have h' := h.2; dsimp only at h'; subst h'))
    | dsimp only

theorem replCtlWrite_frame (a0) (a1) (s : State) (n : Nat) (hn : n ||| 0x83385C8E = n) :
    blank n (replCtlWrite a0 a1 s) = blank n s := by
  refine blank_mono (m := 0x83385C8E) ?_ hn
  unfold replCtlWrite
  repeat' first
    | with_reducible rfl
    | simp only [mk_83385C8E, takeFree, Nat.reduceOr, apply_ite (blank _), apply_ite (keeps _ s), ite_self, implies_true, foldl_blank, keeps_next, Option.elim, modVol_frame, modLink_frame, stopLink_frame, releaseCut_frame, connectLink_frame]
    | (with_reducible refine (foldl_blank ?_ _ _).trans ?_; intro s x)
    | (split <;> try (rename_i h; with_reducible rw [Prod.ext_iff] at h; have h' := h.2; dsimp only at h'; subst h'))
    | dsimp only

theorem rmaWrite_frame (a0) (a1) (s : State) (n : Nat) (hn : n ||| 0x83385C8E = n) :
    blank n (rmaWrite a0 a1 s) = blank n s := by
  refine blank_mono (m := 0x83385C8E) ?_ hn
  unfold rmaWrite
  repeat' first
    | with_reducible rfl
    | simp only [mk_83385C8E, takeFree, Nat.reduceOr, apply_ite (blank _), apply_ite (keeps _ s), ite_self, implies_true, foldl_blank, keeps_next, Option.elim, regionEnd_frame, regionGo_frame, replCtlWrite_frame, modLink_frame]
    | (with_reducible refine (foldl_blank ?_ _ _).trans ?_; intro s x)
    | (split <;> try (rename_i h; with_reducible rw [Prod.ext_iff] at h; have h' := h.2; dsimp only at h'; subst h'))
    | dsimp only

theorem redWrite_frame (a0) (a1) (s : State) (n : Nat) (hn : n ||| 0xC000 = n) :
    blank n (redWrite a0 a1 s) = blank n s := by
  refine blank_mono (m := 0xC000) ?_ hn
  unfold redWrite
  repeat' first
    | with_reducible rfl
    | simp only [mk_C000, takeFree, Nat.reduceOr, apply_ite (blank _), apply_ite (keeps _ s), ite_self, implies_true, foldl_blank, keeps_next, Option.elim]
    | (with_reducible refine (foldl_blank ?_ _ _).trans ?_; intro s x)
    | (split <;> try (rename_i h; with_reducible rw [Prod.ext_iff] at h; have h' := h.2; dsimp only at h'; subst h'))
    | dsimp only

theorem keyChanged_frame (a0) (a1) (s : State) (n : Nat) (hn : n ||| 0x83294C8E = n) :
    blank n (keyChanged a0 a1 s) = blank n s := by
  refine blank_mono (m := 0x83294C8E) ?_ hn
  unfold keyChanged
  repeat' first
    | with_reducible rfl
    | simp only [mk_83294C8E, takeFree, Nat.reduceOr, apply_ite (blank _), apply_ite (keeps _ s), ite_self, implies_true, foldl_blank, keeps_next, Option.elim, record_frame, keyGenUp_frame, noteMapChange_frame, sendDelta_frame]
    | (with_reducible refine (foldl_blank ?_ _ _).trans ?_; intro s x)
    | (split <;> try (rename_i h; with_reducible rw [Prod.ext_iff] at h; have h' := h.2; dsimp only at h'; subst h'))
    | dsimp only

theorem noteKeys_frame (s : State) (n : Nat) (hn : n ||| 0x10000 = n) :
    blank n (noteKeys s) = blank n s := by
  refine blank_mono (m := 0x10000) ?_ hn
  unfold noteKeys
  repeat' first
    | with_reducible rfl
    | simp only [mk_10000, takeFree, Nat.reduceOr, apply_ite (blank _), apply_ite (keeps _ s), ite_self, implies_true, foldl_blank, keeps_next, Option.elim]
    | (with_reducible refine (foldl_blank ?_ _ _).trans ?_; intro s x)
    | (split <;> try (rename_i h; with_reducible rw [Prod.ext_iff] at h; have h' := h.2; dsimp only at h'; subst h'))
    | dsimp only

theorem freshKey_frame (a0) (a1) (s : State) (n : Nat) (hn : n ||| 0x83215C8E = n) :
    blank n (freshKey a0 a1 s) = blank n s := by
  refine blank_mono (m := 0x83215C8E) ?_ hn
  unfold freshKey
  repeat' first
    | with_reducible rfl
    | simp only [mk_83215C8E, takeFree, Nat.reduceOr, apply_ite (blank _), apply_ite (keeps _ s), ite_self, implies_true, foldl_blank, keeps_next, Option.elim, noteKeys_frame, putKeySlot_frame, record_frame]
    | (with_reducible refine (foldl_blank ?_ _ _).trans ?_; intro s x)
    | (split <;> try (rename_i h; with_reducible rw [Prod.ext_iff] at h; have h' := h.2; dsimp only at h'; subst h'))
    | dsimp only

theorem drawKey_frame (s : State) (n : Nat) (hn : n ||| 0x10000 = n) :
    blank n (drawKey s).2 = blank n s := by
  refine blank_mono (m := 0x10000) ?_ hn
  unfold drawKey
  repeat' first
    | with_reducible rfl
    | simp only [mk_10000, takeFree, Nat.reduceOr, apply_ite (blank _), apply_ite (keeps _ s), ite_self, implies_true, foldl_blank, keeps_next, Option.elim]
    | (with_reducible refine (foldl_blank ?_ _ _).trans ?_; intro s x)
    | (split <;> try (rename_i h; with_reducible rw [Prod.ext_iff] at h; have h' := h.2; dsimp only at h'; subst h'))
    | dsimp only

theorem generateNow_frame (a0) (s : State) (n : Nat) (hn : n ||| 0x83295C8E = n) :
    blank n (generateNow a0 s) = blank n s := by
  refine blank_mono (m := 0x83295C8E) ?_ hn
  unfold generateNow
  repeat' first
    | with_reducible rfl
    | simp only [mk_83295C8E, takeFree, Nat.reduceOr, apply_ite (blank _), apply_ite (keeps _ s), ite_self, implies_true, foldl_blank, keeps_next, Option.elim, drawKey_frame, keyChanged_frame, freshKey_frame]
    | (with_reducible refine (foldl_blank ?_ _ _).trans ?_; intro s x)
    | (split <;> try (rename_i h; with_reducible rw [Prod.ext_iff] at h; have h' := h.2; dsimp only at h'; subst h'))
    | dsimp only

theorem keyCmd_frame (a0) (a1) (a2) (s : State) (n : Nat) (hn : n ||| 0x83295C8E = n) :
    blank n (keyCmd a0 a1 a2 s) = blank n s := by
  refine blank_mono (m := 0x83295C8E) ?_ hn
  unfold keyCmd
  repeat' first
    | with_reducible rfl
    | simp only [mk_83295C8E, takeFree, Nat.reduceOr, apply_ite (blank _), apply_ite (keeps _ s), ite_self, implies_true, foldl_blank, keeps_next, Option.elim, keyChanged_frame, freshKey_frame, putKeySlot_frame, noteKeys_frame, generateNow_frame]
    | (with_reducible refine (foldl_blank ?_ _ _).trans ?_; intro s x)
    | (split <;> try (rename_i h; with_reducible rw [Prod.ext_iff] at h; have h' := h.2; dsimp only at h'; subst h'))
    | dsimp only

theorem csLockWrite_frame (a0) (a1) (s : State) (n : Nat) (hn : n ||| 0x10000 = n) :
    blank n (csLockWrite a0 a1 s) = blank n s := by
  refine blank_mono (m := 0x10000) ?_ hn
  unfold csLockWrite
  repeat' first
    | with_reducible rfl
    | simp only [mk_10000, takeFree, Nat.reduceOr, apply_ite (blank _), apply_ite (keeps _ s), ite_self, implies_true, foldl_blank, keeps_next, Option.elim]
    | (with_reducible refine (foldl_blank ?_ _ _).trans ?_; intro s x)
    | (split <;> try (rename_i h; with_reducible rw [Prod.ext_iff] at h; have h' := h.2; dsimp only at h'; subst h'))
    | dsimp only

theorem csGo_frame (a0) (a1) (a2) (a3) (a4) (s : State) (n : Nat) (hn : n ||| 0x10000 = n) :
    blank n (csGo a0 a1 a2 a3 a4 s) = blank n s := by
  refine blank_mono (m := 0x10000) ?_ hn
  unfold csGo
  repeat' first
    | with_reducible rfl
    | simp only [mk_10000, takeFree, Nat.reduceOr, apply_ite (blank _), apply_ite (keeps _ s), ite_self, implies_true, foldl_blank, keeps_next, Option.elim, putKeySlot_frame]
    | (with_reducible refine (foldl_blank ?_ _ _).trans ?_; intro s x)
    | (split <;> try (rename_i h; with_reducible rw [Prod.ext_iff] at h; have h' := h.2; dsimp only at h'; subst h'))
    | dsimp only

theorem secWrite_frame (a0) (a1) (a2) (s : State) (n : Nat) (hn : n ||| 0x83295C8E = n) :
    blank n (secWrite a0 a1 a2 s) = blank n s := by
  refine blank_mono (m := 0x83295C8E) ?_ hn
  unfold secWrite
  repeat' first
    | with_reducible rfl
    | simp only [mk_83295C8E, takeFree, Nat.reduceOr, apply_ite (blank _), apply_ite (keeps _ s), ite_self, implies_true, foldl_blank, keeps_next, Option.elim, keyCmd_frame, csLockWrite_frame, csGo_frame]
    | (with_reducible refine (foldl_blank ?_ _ _).trans ?_; intro s x)
    | (split <;> try (rename_i h; with_reducible rw [Prod.ext_iff] at h; have h' := h.2; dsimp only at h'; subst h'))
    | dsimp only

theorem digStart_frame (a0) (a1) (a2) (s : State) (n : Nat) (hn : n ||| 0x20000 = n) :
    blank n (digStart a0 a1 a2 s) = blank n s := by
  refine blank_mono (m := 0x20000) ?_ hn
  unfold digStart
  repeat' first
    | with_reducible rfl
    | simp only [mk_20000, takeFree, Nat.reduceOr, apply_ite (blank _), apply_ite (keeps _ s), ite_self, implies_true, foldl_blank, keeps_next, Option.elim]
    | (with_reducible refine (foldl_blank ?_ _ _).trans ?_; intro s x)
    | (split <;> try (rename_i h; with_reducible rw [Prod.ext_iff] at h; have h' := h.2; dsimp only at h'; subst h'))
    | dsimp only

theorem digRelease_frame (a0) (s : State) (n : Nat) (hn : n ||| 0x20000 = n) :
    blank n (digRelease a0 s) = blank n s := by
  refine blank_mono (m := 0x20000) ?_ hn
  unfold digRelease
  repeat' first
    | with_reducible rfl
    | simp only [mk_20000, takeFree, Nat.reduceOr, apply_ite (blank _), apply_ite (keeps _ s), ite_self, implies_true, foldl_blank, keeps_next, Option.elim, digIdle_frame]
    | (with_reducible refine (foldl_blank ?_ _ _).trans ?_; intro s x)
    | (split <;> try (rename_i h; with_reducible rw [Prod.ext_iff] at h; have h' := h.2; dsimp only at h'; subst h'))
    | dsimp only

theorem digWrite_frame (a0) (a1) (a2) (s : State) (n : Nat) (hn : n ||| 0x20000 = n) :
    blank n (digWrite a0 a1 a2 s) = blank n s := by
  refine blank_mono (m := 0x20000) ?_ hn
  unfold digWrite
  repeat' first
    | with_reducible rfl
    | simp only [mk_20000, takeFree, Nat.reduceOr, apply_ite (blank _), apply_ite (keeps _ s), ite_self, implies_true, foldl_blank, keeps_next, Option.elim, digStart_frame, digRelease_frame]
    | (with_reducible refine (foldl_blank ?_ _ _).trans ?_; intro s x)
    | (split <;> try (rename_i h; with_reducible rw [Prod.ext_iff] at h; have h' := h.2; dsimp only at h'; subst h'))
    | dsimp only

theorem telemCtlWrite_frame (a0) (s : State) (n : Nat) (hn : n ||| 0x80840000 = n) :
    blank n (telemCtlWrite a0 s) = blank n s := by
  refine blank_mono (m := 0x80840000) ?_ hn
  unfold telemCtlWrite
  repeat' first
    | with_reducible rfl
    | simp only [mk_80840000, takeFree, Nat.reduceOr, apply_ite (blank _), apply_ite (keeps _ s), ite_self, implies_true, foldl_blank, keeps_next, Option.elim, dmlIssue_frame]
    | (with_reducible refine (foldl_blank ?_ _ _).trans ?_; intro s x)
    | (split <;> try (rename_i h; with_reducible rw [Prod.ext_iff] at h; have h' := h.2; dsimp only at h'; subst h'))
    | dsimp only

theorem medWrite_frame (a0) (a1) (s : State) (n : Nat) (hn : n ||| 0x808C0000 = n) :
    blank n (medWrite a0 a1 s) = blank n s := by
  refine blank_mono (m := 0x808C0000) ?_ hn
  unfold medWrite
  repeat' first
    | with_reducible rfl
    | simp only [mk_808C0000, takeFree, Nat.reduceOr, apply_ite (blank _), apply_ite (keeps _ s), ite_self, implies_true, foldl_blank, keeps_next, Option.elim, telemCtlWrite_frame, noteMapChange_frame]
    | (with_reducible refine (foldl_blank ?_ _ _).trans ?_; intro s x)
    | (split <;> try (rename_i h; with_reducible rw [Prod.ext_iff] at h; have h' := h.2; dsimp only at h'; subst h'))
    | dsimp only

theorem ecpRefuse_frame (s : State) (n : Nat) (hn : n ||| 0x100000 = n) :
    blank n (ecpRefuse s) = blank n s := by
  refine blank_mono (m := 0x100000) ?_ hn
  unfold ecpRefuse
  repeat' first
    | with_reducible rfl
    | simp only [mk_100000, takeFree, Nat.reduceOr, apply_ite (blank _), apply_ite (keeps _ s), ite_self, implies_true, foldl_blank, keeps_next, Option.elim]
    | (with_reducible refine (foldl_blank ?_ _ _).trans ?_; intro s x)
    | (split <;> try (rename_i h; with_reducible rw [Prod.ext_iff] at h; have h' := h.2; dsimp only at h'; subst h'))
    | dsimp only

theorem reshapeStart_frame (s : State) (n : Nat) (hn : n ||| 0x83384C8E = n) :
    blank n (reshapeStart s) = blank n s := by
  refine blank_mono (m := 0x83384C8E) ?_ hn
  unfold reshapeStart
  repeat' first
    | with_reducible rfl
    | simp only [mk_83384C8E, takeFree, Nat.reduceOr, apply_ite (blank _), apply_ite (keeps _ s), ite_self, implies_true, foldl_blank, keeps_next, Option.elim, ecpRefuse_frame, setLayout_frame, record_frame, noteMapChange_frame, requestActivity_frame]
    | (with_reducible refine (foldl_blank ?_ _ _).trans ?_; intro s x)
    | (split <;> try (rename_i h; with_reducible rw [Prod.ext_iff] at h; have h' := h.2; dsimp only at h'; subst h'))
    | dsimp only

theorem endActivity_frame (a0) (s : State) (n : Nat) (hn : n ||| 0x100000 = n) :
    blank n (endActivity a0 s) = blank n s := by
  refine blank_mono (m := 0x100000) ?_ hn
  unfold endActivity
  repeat' first
    | with_reducible rfl
    | simp only [mk_100000, takeFree, Nat.reduceOr, apply_ite (blank _), apply_ite (keeps _ s), ite_self, implies_true, foldl_blank, keeps_next, Option.elim]
    | (with_reducible refine (foldl_blank ?_ _ _).trans ?_; intro s x)
    | (split <;> try (rename_i h; with_reducible rw [Prod.ext_iff] at h; have h' := h.2; dsimp only at h'; subst h'))
    | dsimp only

theorem reshapeOver_frame (s : State) (n : Nat) (hn : n ||| 0x83304C8E = n) :
    blank n (reshapeOver s) = blank n s := by
  refine blank_mono (m := 0x83304C8E) ?_ hn
  unfold reshapeOver
  repeat' first
    | with_reducible rfl
    | simp only [mk_83304C8E, takeFree, Nat.reduceOr, apply_ite (blank _), apply_ite (keeps _ s), ite_self, implies_true, foldl_blank, keeps_next, Option.elim, endActivity_frame, record_frame]
    | (with_reducible refine (foldl_blank ?_ _ _).trans ?_; intro s x)
    | (split <;> try (rename_i h; with_reducible rw [Prod.ext_iff] at h; have h' := h.2; dsimp only at h'; subst h'))
    | dsimp only

theorem reshapeCancel_frame (s : State) (n : Nat) (hn : n ||| 0x83384C8E = n) :
    blank n (reshapeCancel s) = blank n s := by
  refine blank_mono (m := 0x83384C8E) ?_ hn
  unfold reshapeCancel
  repeat' first
    | with_reducible rfl
    | simp only [mk_83384C8E, takeFree, Nat.reduceOr, apply_ite (blank _), apply_ite (keeps _ s), ite_self, implies_true, foldl_blank, keeps_next, Option.elim, ecpRefuse_frame, freeGrains_frame, setLayout_frame, noteMapChange_frame, reshapeOver_frame]
    | (with_reducible refine (foldl_blank ?_ _ _).trans ?_; intro s x)
    | (split <;> try (rename_i h; with_reducible rw [Prod.ext_iff] at h; have h' := h.2; dsimp only at h'; subst h'))
    | dsimp only

theorem settleJoin_frame (a0) (s : State) (n : Nat) (hn : n ||| 0x83304C8E = n) :
    blank n (settleJoin a0 s) = blank n s := by
  refine blank_mono (m := 0x83304C8E) ?_ hn
  unfold settleJoin
  repeat' first
    | with_reducible rfl
    | simp only [mk_83304C8E, takeFree, Nat.reduceOr, apply_ite (blank _), apply_ite (keeps _ s), ite_self, implies_true, foldl_blank, keeps_next, Option.elim, modSlot_frame, setLayout_frame]
    | (with_reducible refine (foldl_blank ?_ _ _).trans ?_; intro s x)
    | (split <;> try (rename_i h; with_reducible rw [Prod.ext_iff] at h; have h' := h.2; dsimp only at h'; subst h'))
    | dsimp only

theorem joinCmd_frame (a0) (s : State) (n : Nat) (hn : n ||| 0x83304C8E = n) :
    blank n (joinCmd a0 s) = blank n s := by
  refine blank_mono (m := 0x83304C8E) ?_ hn
  unfold joinCmd
  repeat' first
    | with_reducible rfl
    | simp only [mk_83304C8E, takeFree, Nat.reduceOr, apply_ite (blank _), apply_ite (keeps _ s), ite_self, implies_true, foldl_blank, keeps_next, Option.elim, settleJoin_frame, modSlot_frame, ecpRefuse_frame]
    | (with_reducible refine (foldl_blank ?_ _ _).trans ?_; intro s x)
    | (split <;> try (rename_i h; with_reducible rw [Prod.ext_iff] at h; have h' := h.2; dsimp only at h'; subst h'))
    | dsimp only

theorem checkSpare_frame (s : State) (n : Nat) (hn : n ||| 0x83304C8E = n) :
    blank n (checkSpare s) = blank n s := by
  refine blank_mono (m := 0x83304C8E) ?_ hn
  unfold checkSpare
  repeat' first
    | with_reducible rfl
    | simp only [mk_83304C8E, takeFree, Nat.reduceOr, apply_ite (blank _), apply_ite (keeps _ s), ite_self, implies_true, foldl_blank, keeps_next, Option.elim, recordAlert_frame]
    | (with_reducible refine (foldl_blank ?_ _ _).trans ?_; intro s x)
    | (split <;> try (rename_i h; with_reducible rw [Prod.ext_iff] at h; have h' := h.2; dsimp only at h'; subst h'))
    | dsimp only

theorem failSlot_frame (a0) (s : State) (n : Nat) (hn : n ||| 0x83304C8E = n) :
    blank n (failSlot a0 s) = blank n s := by
  refine blank_mono (m := 0x83304C8E) ?_ hn
  unfold failSlot
  repeat' first
    | with_reducible rfl
    | simp only [mk_83304C8E, takeFree, Nat.reduceOr, apply_ite (blank _), apply_ite (keeps _ s), ite_self, implies_true, foldl_blank, keeps_next, Option.elim, slotUnreadable_frame, setLayout_frame, addTargets_frame]
    | (with_reducible refine (foldl_blank ?_ _ _).trans ?_; intro s x)
    | (split <;> try (rename_i h; with_reducible rw [Prod.ext_iff] at h; have h' := h.2; dsimp only at h'; subst h'))
    | dsimp only

theorem failCmd_frame (a0) (s : State) (n : Nat) (hn : n ||| 0x83304C8E = n) :
    blank n (failCmd a0 s) = blank n s := by
  refine blank_mono (m := 0x83304C8E) ?_ hn
  unfold failCmd
  repeat' first
    | with_reducible rfl
    | simp only [mk_83304C8E, takeFree, Nat.reduceOr, apply_ite (blank _), apply_ite (keeps _ s), ite_self, implies_true, foldl_blank, keeps_next, Option.elim, checkSpare_frame, failSlot_frame, ecpRefuse_frame]
    | (with_reducible refine (foldl_blank ?_ _ _).trans ?_; intro s x)
    | (split <;> try (rename_i h; with_reducible rw [Prod.ext_iff] at h; have h' := h.2; dsimp only at h'; subst h'))
    | dsimp only

theorem startPatrol_frame (s : State) (n : Nat) (hn : n ||| 0x83304C8E = n) :
    blank n (startPatrol s) = blank n s := by
  refine blank_mono (m := 0x83304C8E) ?_ hn
  unfold startPatrol
  repeat' first
    | with_reducible rfl
    | simp only [mk_83304C8E, takeFree, Nat.reduceOr, apply_ite (blank _), apply_ite (keeps _ s), ite_self, implies_true, foldl_blank, keeps_next, Option.elim, requestActivity_frame]
    | (with_reducible refine (foldl_blank ?_ _ _).trans ?_; intro s x)
    | (split <;> try (rename_i h; with_reducible rw [Prod.ext_iff] at h; have h' := h.2; dsimp only at h'; subst h'))
    | dsimp only

theorem patrolNow_frame (s : State) (n : Nat) (hn : n ||| 0x83304C8E = n) :
    blank n (patrolNow s) = blank n s := by
  refine blank_mono (m := 0x83304C8E) ?_ hn
  unfold patrolNow
  repeat' first
    | with_reducible rfl
    | simp only [mk_83304C8E, takeFree, Nat.reduceOr, apply_ite (blank _), apply_ite (keeps _ s), ite_self, implies_true, foldl_blank, keeps_next, Option.elim, startPatrol_frame]
    | (with_reducible refine (foldl_blank ?_ _ _).trans ?_; intro s x)
    | (split <;> try (rename_i h; with_reducible rw [Prod.ext_iff] at h; have h' := h.2; dsimp only at h'; subst h'))
    | dsimp only

theorem ecpCmd_frame (a0) (s : State) (n : Nat) (hn : n ||| 0x83384C8E = n) :
    blank n (ecpCmd a0 s) = blank n s := by
  refine blank_mono (m := 0x83384C8E) ?_ hn
  unfold ecpCmd
  repeat' first
    | with_reducible rfl
    | simp only [mk_83384C8E, takeFree, Nat.reduceOr, apply_ite (blank _), apply_ite (keeps _ s), ite_self, implies_true, foldl_blank, keeps_next, Option.elim, reshapeStart_frame, reshapeCancel_frame, joinCmd_frame, failCmd_frame, patrolNow_frame, ecpRefuse_frame]
    | (with_reducible refine (foldl_blank ?_ _ _).trans ?_; intro s x)
    | (split <;> try (rename_i h; with_reducible rw [Prod.ext_iff] at h; have h' := h.2; dsimp only at h'; subst h'))
    | dsimp only

theorem ecpWrite_frame (a0) (a1) (s : State) (n : Nat) (hn : n ||| 0x83384C8E = n) :
    blank n (ecpWrite a0 a1 s) = blank n s := by
  refine blank_mono (m := 0x83384C8E) ?_ hn
  unfold ecpWrite
  repeat' first
    | with_reducible rfl
    | simp only [mk_83384C8E, takeFree, Nat.reduceOr, apply_ite (blank _), apply_ite (keeps _ s), ite_self, implies_true, foldl_blank, keeps_next, Option.elim, ecpCmd_frame, noteMapChange_frame, ecpRefuse_frame]
    | (with_reducible refine (foldl_blank ?_ _ _).trans ?_; intro s x)
    | (split <;> try (rename_i h; with_reducible rw [Prod.ext_iff] at h; have h' := h.2; dsimp only at h'; subst h'))
    | dsimp only

theorem xhlRefuse_frame (s : State) (n : Nat) (hn : n ||| 0x200000 = n) :
    blank n (xhlRefuse s) = blank n s := by
  refine blank_mono (m := 0x200000) ?_ hn
  unfold xhlRefuse
  repeat' first
    | with_reducible rfl
    | simp only [mk_200000, takeFree, Nat.reduceOr, apply_ite (blank _), apply_ite (keeps _ s), ite_self, implies_true, foldl_blank, keeps_next, Option.elim]
    | (with_reducible refine (foldl_blank ?_ _ _).trans ?_; intro s x)
    | (split <;> try (rename_i h; with_reducible rw [Prod.ext_iff] at h; have h' := h.2; dsimp only at h'; subst h'))
    | dsimp only

theorem pushHandover_frame (s : State) (n : Nat) (hn : n ||| 0x80200002 = n) :
    blank n (pushHandover s) = blank n s := by
  refine blank_mono (m := 0x80200002) ?_ hn
  unfold pushHandover
  repeat' first
    | with_reducible rfl
    | simp only [mk_80200002, takeFree, Nat.reduceOr, apply_ite (blank _), apply_ite (keeps _ s), ite_self, implies_true, foldl_blank, keeps_next, Option.elim, xhlSend_frame]
    | (with_reducible refine (foldl_blank ?_ _ _).trans ?_; intro s x)
    | (split <;> try (rename_i h; with_reducible rw [Prod.ext_iff] at h; have h' := h.2; dsimp only at h'; subst h'))
    | dsimp only

theorem startHandover_frame (a0) (a1) (s : State) (n : Nat) (hn : n ||| 0x83204C8F = n) :
    blank n (startHandover a0 a1 s) = blank n s := by
  refine blank_mono (m := 0x83204C8F) ?_ hn
  unfold startHandover
  repeat' first
    | with_reducible rfl
    | simp only [mk_83204C8F, takeFree, Nat.reduceOr, apply_ite (blank _), apply_ite (keeps _ s), ite_self, implies_true, foldl_blank, keeps_next, Option.elim, pushHandover_frame, record_frame]
    | (with_reducible refine (foldl_blank ?_ _ _).trans ?_; intro s x)
    | (split <;> try (rename_i h; with_reducible rw [Prod.ext_iff] at h; have h' := h.2; dsimp only at h'; subst h'))
    | dsimp only

theorem enterMaint_frame (a0) (s : State) (n : Nat) (hn : n ||| 0x83204C8F = n) :
    blank n (enterMaint a0 s) = blank n s := by
  refine blank_mono (m := 0x83204C8F) ?_ hn
  unfold enterMaint
  repeat' first
    | with_reducible rfl
    | simp only [mk_83204C8F, takeFree, Nat.reduceOr, apply_ite (blank _), apply_ite (keeps _ s), ite_self, implies_true, foldl_blank, keeps_next, Option.elim, xhlRefuse_frame, startHandover_frame]
    | (with_reducible refine (foldl_blank ?_ _ _).trans ?_; intro s x)
    | (split <;> try (rename_i h; with_reducible rw [Prod.ext_iff] at h; have h' := h.2; dsimp only at h'; subst h'))
    | dsimp only

theorem exitMaint_frame (s : State) (n : Nat) (hn : n ||| 0x200001 = n) :
    blank n (exitMaint s) = blank n s := by
  refine blank_mono (m := 0x200001) ?_ hn
  unfold exitMaint
  repeat' first
    | with_reducible rfl
    | simp only [mk_200001, takeFree, Nat.reduceOr, apply_ite (blank _), apply_ite (keeps _ s), ite_self, implies_true, foldl_blank, keeps_next, Option.elim, xhlRefuse_frame]
    | (with_reducible refine (foldl_blank ?_ _ _).trans ?_; intro s x)
    | (split <;> try (rename_i h; with_reducible rw [Prod.ext_iff] at h; have h' := h.2; dsimp only at h'; subst h'))
    | dsimp only

theorem rebalance_frame (a0) (s : State) (n : Nat) (hn : n ||| 0x83204C8F = n) :
    blank n (rebalance a0 s) = blank n s := by
  refine blank_mono (m := 0x83204C8F) ?_ hn
  unfold rebalance
  repeat' first
    | with_reducible rfl
    | simp only [mk_83204C8F, takeFree, Nat.reduceOr, apply_ite (blank _), apply_ite (keeps _ s), ite_self, implies_true, foldl_blank, keeps_next, Option.elim, xhlRefuse_frame, xhlSend_frame, startHandover_frame]
    | (with_reducible refine (foldl_blank ?_ _ _).trans ?_; intro s x)
    | (split <;> try (rename_i h; with_reducible rw [Prod.ext_iff] at h; have h' := h.2; dsimp only at h'; subst h'))
    | dsimp only

theorem give_frame (a0) (s : State) (n : Nat) (hn : n ||| 0x83204C8F = n) :
    blank n (give a0 s) = blank n s := by
  refine blank_mono (m := 0x83204C8F) ?_ hn
  unfold give
  repeat' first
    | with_reducible rfl
    | simp only [mk_83204C8F, takeFree, Nat.reduceOr, apply_ite (blank _), apply_ite (keeps _ s), ite_self, implies_true, foldl_blank, keeps_next, Option.elim, xhlRefuse_frame, startHandover_frame]
    | (with_reducible refine (foldl_blank ?_ _ _).trans ?_; intro s x)
    | (split <;> try (rename_i h; with_reducible rw [Prod.ext_iff] at h; have h' := h.2; dsimp only at h'; subst h'))
    | dsimp only

theorem unpinPeer_frame (a0) (s : State) (n : Nat) (hn : n ||| 0x80280002 = n) :
    blank n (unpinPeer a0 s) = blank n s := by
  refine blank_mono (m := 0x80280002) ?_ hn
  unfold unpinPeer
  repeat' first
    | with_reducible rfl
    | simp only [mk_80280002, takeFree, Nat.reduceOr, apply_ite (blank _), apply_ite (keeps _ s), ite_self, implies_true, foldl_blank, keeps_next, Option.elim, noteMapChange_frame, sendDelta_frame, xhlRefuse_frame]
    | (with_reducible refine (foldl_blank ?_ _ _).trans ?_; intro s x)
    | (split <;> try (rename_i h; with_reducible rw [Prod.ext_iff] at h; have h' := h.2; dsimp only at h'; subst h'))
    | dsimp only

theorem xhlWrite_frame (a0) (a1) (s : State) (n : Nat) (hn : n ||| 0x83284C8F = n) :
    blank n (xhlWrite a0 a1 s) = blank n s := by
  refine blank_mono (m := 0x83284C8F) ?_ hn
  unfold xhlWrite
  repeat' first
    | with_reducible rfl
    | simp only [mk_83284C8F, takeFree, Nat.reduceOr, apply_ite (blank _), apply_ite (keeps _ s), ite_self, implies_true, foldl_blank, keeps_next, Option.elim, enterMaint_frame, exitMaint_frame, rebalance_frame, give_frame, unpinPeer_frame, xhlRefuse_frame, noteMapChange_frame]
    | (with_reducible refine (foldl_blank ?_ _ _).trans ?_; intro s x)
    | (split <;> try (rename_i h; with_reducible rw [Prod.ext_iff] at h; have h' := h.2; dsimp only at h'; subst h'))
    | dsimp only

theorem wlgWrite_frame (a0) (a1) (s : State) (n : Nat) (hn : n ||| 0x2000 = n) :
    blank n (wlgWrite a0 a1 s) = blank n s := by
  refine blank_mono (m := 0x2000) ?_ hn
  unfold wlgWrite
  repeat' first
    | with_reducible rfl
    | simp only [mk_2000, takeFree, Nat.reduceOr, apply_ite (blank _), apply_ite (keeps _ s), ite_self, implies_true, foldl_blank, keeps_next, Option.elim]
    | (with_reducible refine (foldl_blank ?_ _ _).trans ?_; intro s x)
    | (split <;> try (rename_i h; with_reducible rw [Prod.ext_iff] at h; have h' := h.2; dsimp only at h'; subst h'))
    | dsimp only

theorem delaySelect_frame (a0) (s : State) (n : Nat) (hn : n ||| 0x400000 = n) :
    blank n (delaySelect a0 s) = blank n s := by
  refine blank_mono (m := 0x400000) ?_ hn
  unfold delaySelect
  repeat' first
    | with_reducible rfl
    | simp only [mk_400000, takeFree, Nat.reduceOr, apply_ite (blank _), apply_ite (keeps _ s), ite_self, implies_true, foldl_blank, keeps_next, Option.elim]
    | (with_reducible refine (foldl_blank ?_ _ _).trans ?_; intro s x)
    | (split <;> try (rename_i h; with_reducible rw [Prod.ext_iff] at h; have h' := h.2; dsimp only at h'; subst h'))
    | dsimp only

theorem drcWrite_frame (a0) (a1) (s : State) (n : Nat) (hn : n ||| 0x480000 = n) :
    blank n (drcWrite a0 a1 s) = blank n s := by
  refine blank_mono (m := 0x480000) ?_ hn
  unfold drcWrite
  repeat' first
    | with_reducible rfl
    | simp only [mk_480000, takeFree, Nat.reduceOr, apply_ite (blank _), apply_ite (keeps _ s), ite_self, implies_true, foldl_blank, keeps_next, Option.elim, noteMapChange_frame, delaySelect_frame]
    | (with_reducible refine (foldl_blank ?_ _ _).trans ?_; intro s x)
    | (split <;> try (rename_i h; with_reducible rw [Prod.ext_iff] at h; have h' := h.2; dsimp only at h'; subst h'))
    | dsimp only

theorem loopStage_frame (a0) (a1) (a2) (s : State) (n : Nat) (hn : n ||| 0x800000 = n) :
    blank n (loopStage a0 a1 a2 s) = blank n s := by
  refine blank_mono (m := 0x800000) ?_ hn
  unfold loopStage
  repeat' first
    | with_reducible rfl
    | simp only [mk_800000, takeFree, Nat.reduceOr, apply_ite (blank _), apply_ite (keeps _ s), ite_self, implies_true, foldl_blank, keeps_next, Option.elim, modLoop_frame]
    | (with_reducible refine (foldl_blank ?_ _ _).trans ?_; intro s x)
    | (split <;> try (rename_i h; with_reducible rw [Prod.ext_iff] at h; have h' := h.2; dsimp only at h'; subst h'))
    | dsimp only

theorem loopAccept_frame (a0) (s : State) (n : Nat) (hn : n ||| 0x800000 = n) :
    blank n (loopAccept a0 s) = blank n s := by
  refine blank_mono (m := 0x800000) ?_ hn
  unfold loopAccept
  repeat' first
    | with_reducible rfl
    | simp only [mk_800000, takeFree, Nat.reduceOr, apply_ite (blank _), apply_ite (keeps _ s), ite_self, implies_true, foldl_blank, keeps_next, Option.elim, modLoop_frame]
    | (with_reducible refine (foldl_blank ?_ _ _).trans ?_; intro s x)
    | (split <;> try (rename_i h; with_reducible rw [Prod.ext_iff] at h; have h' := h.2; dsimp only at h'; subst h'))
    | dsimp only

theorem loopCommitHost_frame (a0) (s : State) (n : Nat) (hn : n ||| 0x800000 = n) :
    blank n (loopCommitHost a0 s) = blank n s := by
  refine blank_mono (m := 0x800000) ?_ hn
  unfold loopCommitHost
  repeat' first
    | with_reducible rfl
    | simp only [mk_800000, takeFree, Nat.reduceOr, apply_ite (blank _), apply_ite (keeps _ s), ite_self, implies_true, foldl_blank, keeps_next, Option.elim, loopAccept_frame]
    | (with_reducible refine (foldl_blank ?_ _ _).trans ?_; intro s x)
    | (split <;> try (rename_i h; with_reducible rw [Prod.ext_iff] at h; have h' := h.2; dsimp only at h'; subst h'))
    | dsimp only

theorem cleWrite_frame (a0) (a1) (s : State) (n : Nat) (hn : n ||| 0x800000 = n) :
    blank n (cleWrite a0 a1 s) = blank n s := by
  refine blank_mono (m := 0x800000) ?_ hn
  unfold cleWrite
  repeat' first
    | with_reducible rfl
    | simp only [mk_800000, takeFree, Nat.reduceOr, apply_ite (blank _), apply_ite (keeps _ s), ite_self, implies_true, foldl_blank, keeps_next, Option.elim, loopStage_frame, loopCommitHost_frame, modLoop_frame]
    | (with_reducible refine (foldl_blank ?_ _ _).trans ?_; intro s x)
    | (split <;> try (rename_i h; with_reducible rw [Prod.ext_iff] at h; have h' := h.2; dsimp only at h'; subst h'))
    | dsimp only

theorem refuseTest_frame (a0) (s : State) (n : Nat) (hn : n ||| 0x1000000 = n) :
    blank n (refuseTest a0 s) = blank n s := by
  refine blank_mono (m := 0x1000000) ?_ hn
  unfold refuseTest
  repeat' first
    | with_reducible rfl
    | simp only [mk_1000000, takeFree, Nat.reduceOr, apply_ite (blank _), apply_ite (keeps _ s), ite_self, implies_true, foldl_blank, keeps_next, Option.elim]
    | (with_reducible refine (foldl_blank ?_ _ _).trans ?_; intro s x)
    | (split <;> try (rename_i h; with_reducible rw [Prod.ext_iff] at h; have h' := h.2; dsimp only at h'; subst h'))
    | dsimp only

theorem blockTest_frame (a0) (s : State) (n : Nat) (hn : n ||| 0x83204C8E = n) :
    blank n (blockTest a0 s) = blank n s := by
  refine blank_mono (m := 0x83204C8E) ?_ hn
  unfold blockTest
  repeat' first
    | with_reducible rfl
    | simp only [mk_83204C8E, takeFree, Nat.reduceOr, apply_ite (blank _), apply_ite (keeps _ s), ite_self, implies_true, foldl_blank, keeps_next, Option.elim, refuseTest_frame, addTest_frame]
    | (with_reducible refine (foldl_blank ?_ _ _).trans ?_; intro s x)
    | (split <;> try (rename_i h; with_reducible rw [Prod.ext_iff] at h; have h' := h.2; dsimp only at h'; subst h'))
    | dsimp only

theorem wholeChip_frame (s : State) (n : Nat) (hn : n ||| 0x83204C8E = n) :
    blank n (wholeChip s) = blank n s := by
  refine blank_mono (m := 0x83204C8E) ?_ hn
  unfold wholeChip
  repeat' first
    | with_reducible rfl
    | simp only [mk_83204C8E, takeFree, Nat.reduceOr, apply_ite (blank _), apply_ite (keeps _ s), ite_self, implies_true, foldl_blank, keeps_next, Option.elim, record_frame, finish_frame, refuseTest_frame]
    | (with_reducible refine (foldl_blank ?_ _ _).trans ?_; intro s x)
    | (split <;> try (rename_i h; with_reducible rw [Prod.ext_iff] at h; have h' := h.2; dsimp only at h'; subst h'))
    | dsimp only

theorem huskSelect_frame (a0) (s : State) (n : Nat) (hn : n ||| 0x1000000 = n) :
    blank n (huskSelect a0 s) = blank n s := by
  refine blank_mono (m := 0x1000000) ?_ hn
  unfold huskSelect
  repeat' first
    | with_reducible rfl
    | simp only [mk_1000000, takeFree, Nat.reduceOr, apply_ite (blank _), apply_ite (keeps _ s), ite_self, implies_true, foldl_blank, keeps_next, Option.elim]
    | (with_reducible refine (foldl_blank ?_ _ _).trans ?_; intro s x)
    | (split <;> try (rename_i h; with_reducible rw [Prod.ext_iff] at h; have h' := h.2; dsimp only at h'; subst h'))
    | dsimp only

theorem regionSelect_frame (a0) (s : State) (n : Nat) (hn : n ||| 0x1000000 = n) :
    blank n (regionSelect a0 s) = blank n s := by
  refine blank_mono (m := 0x1000000) ?_ hn
  unfold regionSelect
  repeat' first
    | with_reducible rfl
    | simp only [mk_1000000, takeFree, Nat.reduceOr, apply_ite (blank _), apply_ite (keeps _ s), ite_self, implies_true, foldl_blank, keeps_next, Option.elim]
    | (with_reducible refine (foldl_blank ?_ _ _).trans ?_; intro s x)
    | (split <;> try (rename_i h; with_reducible rw [Prod.ext_iff] at h; have h' := h.2; dsimp only at h'; subst h'))
    | dsimp only

theorem fltWrite_frame (a0) (a1) (s : State) (n : Nat) (hn : n ||| 0x83204C8E = n) :
    blank n (fltWrite a0 a1 s) = blank n s := by
  refine blank_mono (m := 0x83204C8E) ?_ hn
  unfold fltWrite
  repeat' first
    | with_reducible rfl
    | simp only [mk_83204C8E, takeFree, Nat.reduceOr, apply_ite (blank _), apply_ite (keeps _ s), ite_self, implies_true, foldl_blank, keeps_next, Option.elim, blockTest_frame, wholeChip_frame, refuseTest_frame, huskSelect_frame, regionSelect_frame]
    | (with_reducible refine (foldl_blank ?_ _ _).trans ?_; intro s x)
    | (split <;> try (rename_i h; with_reducible rw [Prod.ext_iff] at h; have h' := h.2; dsimp only at h'; subst h'))
    | dsimp only

theorem updTouched_frame (s : State) (n : Nat) (hn : n ||| 0x4000000 = n) :
    blank n (updTouched s) = blank n s := by
  refine blank_mono (m := 0x4000000) ?_ hn
  unfold updTouched
  repeat' first
    | with_reducible rfl
    | simp only [mk_4000000, takeFree, Nat.reduceOr, apply_ite (blank _), apply_ite (keeps _ s), ite_self, implies_true, foldl_blank, keeps_next, Option.elim]
    | (with_reducible refine (foldl_blank ?_ _ _).trans ?_; intro s x)
    | (split <;> try (rename_i h; with_reducible rw [Prod.ext_iff] at h; have h' := h.2; dsimp only at h'; subst h'))
    | dsimp only

theorem openBuffer_frame (s : State) (n : Nat) (hn : n ||| 0x4000000 = n) :
    blank n (openBuffer s) = blank n s := by
  refine blank_mono (m := 0x4000000) ?_ hn
  unfold openBuffer
  repeat' first
    | with_reducible rfl
    | simp only [mk_4000000, takeFree, Nat.reduceOr, apply_ite (blank _), apply_ite (keeps _ s), ite_self, implies_true, foldl_blank, keeps_next, Option.elim, updRefuse_frame]
    | (with_reducible refine (foldl_blank ?_ _ _).trans ?_; intro s x)
    | (split <;> try (rename_i h; with_reducible rw [Prod.ext_iff] at h; have h' := h.2; dsimp only at h'; subst h'))
    | dsimp only

theorem stageFw_frame (a0) (s : State) (n : Nat) (hn : n ||| 0x4000000 = n) :
    blank n (stageFw a0 s) = blank n s := by
  refine blank_mono (m := 0x4000000) ?_ hn
  unfold stageFw
  repeat' first
    | with_reducible rfl
    | simp only [mk_4000000, takeFree, Nat.reduceOr, apply_ite (blank _), apply_ite (keeps _ s), ite_self, implies_true, foldl_blank, keeps_next, Option.elim, updRefuse_frame]
    | (with_reducible refine (foldl_blank ?_ _ _).trans ?_; intro s x)
    | (split <;> try (rename_i h; with_reducible rw [Prod.ext_iff] at h; have h' := h.2; dsimp only at h'; subst h'))
    | dsimp only

theorem stageCfg_frame (s : State) (n : Nat) (hn : n ||| 0x4000000 = n) :
    blank n (stageCfg s) = blank n s := by
  refine blank_mono (m := 0x4000000) ?_ hn
  unfold stageCfg
  repeat' first
    | with_reducible rfl
    | simp only [mk_4000000, takeFree, Nat.reduceOr, apply_ite (blank _), apply_ite (keeps _ s), ite_self, implies_true, foldl_blank, keeps_next, Option.elim, updRefuse_frame]
    | (with_reducible refine (foldl_blank ?_ _ _).trans ?_; intro s x)
    | (split <;> try (rename_i h; with_reducible rw [Prod.ext_iff] at h; have h' := h.2; dsimp only at h'; subst h'))
    | dsimp only

theorem releaseBuffer_frame (s : State) (n : Nat) (hn : n ||| 0x4000000 = n) :
    blank n (releaseBuffer s) = blank n s := by
  refine blank_mono (m := 0x4000000) ?_ hn
  unfold releaseBuffer
  repeat' first
    | with_reducible rfl
    | simp only [mk_4000000, takeFree, Nat.reduceOr, apply_ite (blank _), apply_ite (keeps _ s), ite_self, implies_true, foldl_blank, keeps_next, Option.elim]
    | (with_reducible refine (foldl_blank ?_ _ _).trans ?_; intro s x)
    | (split <;> try (rename_i h; with_reducible rw [Prod.ext_iff] at h; have h' := h.2; dsimp only at h'; subst h'))
    | dsimp only

theorem stageWord_frame (a0) (a1) (s : State) (n : Nat) (hn : n ||| 0x4000000 = n) :
    blank n (stageWord a0 a1 s) = blank n s := by
  refine blank_mono (m := 0x4000000) ?_ hn
  unfold stageWord
  repeat' first
    | with_reducible rfl
    | simp only [mk_4000000, takeFree, Nat.reduceOr, apply_ite (blank _), apply_ite (keeps _ s), ite_self, implies_true, foldl_blank, keeps_next, Option.elim, updRefuse_frame]
    | (with_reducible refine (foldl_blank ?_ _ _).trans ?_; intro s x)
    | (split <;> try (rename_i h; with_reducible rw [Prod.ext_iff] at h; have h' := h.2; dsimp only at h'; subst h'))
    | dsimp only

theorem updWrite_frame (a0) (a1) (s : State) (n : Nat) (hn : n ||| 0x87384C8E = n) :
    blank n (updWrite a0 a1 s) = blank n s := by
  refine blank_mono (m := 0x87384C8E) ?_ hn
  unfold updWrite
  repeat' first
    | with_reducible rfl
    | simp only [mk_87384C8E, takeFree, Nat.reduceOr, apply_ite (blank _), apply_ite (keeps _ s), ite_self, implies_true, foldl_blank, keeps_next, Option.elim, updTouched_frame, openBuffer_frame, stageFw_frame, stageCfg_frame, activate_frame, askRestart_frame, releaseBuffer_frame, updRefuse_frame, noteMapChange_frame, stageWord_frame]
    | (with_reducible refine (foldl_blank ?_ _ _).trans ?_; intro s x)
    | (split <;> try (rename_i h; with_reducible rw [Prod.ext_iff] at h; have h' := h.2; dsimp only at h'; subst h'))
    | dsimp only

theorem blockWrite_frame (a0) (a1) (a2) (s : State) (n : Nat) (hn : n ||| 0x8FFFFCAF = n) :
    blank n (blockWrite a0 a1 a2 s) = blank n s := by
  refine blank_mono (m := 0x8FFFFCAF) ?_ hn
  unfold blockWrite
  repeat' first
    | with_reducible rfl
    | simp only [mk_8FFFFCAF, takeFree, Nat.reduceOr, apply_ite (blank _), apply_ite (keeps _ s), ite_self, implies_true, foldl_blank, keeps_next, Option.elim, doorbellWrite_frame, pwrWrite_frame, ldsWrite_frame, cfgWrite_frame, hepWrite_frame, dcqWrite_frame, netWrite_frame, rmaWrite_frame, redWrite_frame, secWrite_frame, digWrite_frame, medWrite_frame, ecpWrite_frame, xhlWrite_frame, wlgWrite_frame, drcWrite_frame, cleWrite_frame, fltWrite_frame, almWrite_frame, updWrite_frame]
    | (with_reducible refine (foldl_blank ?_ _ _).trans ?_; intro s x)
    | (split <;> try (rename_i h; with_reducible rw [Prod.ext_iff] at h; have h' := h.2; dsimp only at h'; subst h'))
    | dsimp only

theorem writeWord_frame (a0) (a1) (a2) (s : State) (n : Nat) (hn : n ||| 0xCFFFFFAF = n) :
    blank n (writeWord a0 a1 a2 s) = blank n s := by
  refine blank_mono (m := 0xCFFFFFAF) ?_ hn
  unfold writeWord
  repeat' first
    | with_reducible rfl
    | simp only [mk_CFFFFFAF, takeFree, Nat.reduceOr, apply_ite (blank _), apply_ite (keeps _ s), ite_self, implies_true, foldl_blank, keeps_next, Option.elim, writeHigh_frame, writeLow_frame, blockWrite_frame]
    | (with_reducible refine (foldl_blank ?_ _ _).trans ?_; intro s x)
    | (split <;> try (rename_i h; with_reducible rw [Prod.ext_iff] at h; have h' := h.2; dsimp only at h'; subst h'))
    | dsimp only

theorem cutWrite_frame (a0) (a1) (s : State) (n : Nat) (hn : n ||| 0x4000020 = n) :
    blank n (cutWrite a0 a1 s) = blank n s := by
  refine blank_mono (m := 0x4000020) ?_ hn
  unfold cutWrite
  repeat' first
    | with_reducible rfl
    | simp only [mk_4000020, takeFree, Nat.reduceOr, apply_ite (blank _), apply_ite (keeps _ s), ite_self, implies_true, foldl_blank, keeps_next, Option.elim, updRefuse_frame]
    | (with_reducible refine (foldl_blank ?_ _ _).trans ?_; intro s x)
    | (split <;> try (rename_i h; with_reducible rw [Prod.ext_iff] at h; have h' := h.2; dsimp only at h'; subst h'))
    | dsimp only

theorem hostWord_frame (a0) (a1) (a2) (s : State) (n : Nat) (hn : n ||| 0xCFFFFFAF = n) :
    blank n (hostWord a0 a1 a2 s) = blank n s := by
  refine blank_mono (m := 0xCFFFFFAF) ?_ hn
  unfold hostWord
  repeat' first
    | with_reducible rfl
    | simp only [mk_CFFFFFAF, takeFree, Nat.reduceOr, apply_ite (blank _), apply_ite (keeps _ s), ite_self, implies_true, foldl_blank, keeps_next, Option.elim, writeWord_frame, cutWrite_frame]
    | (with_reducible refine (foldl_blank ?_ _ _).trans ?_; intro s x)
    | (split <;> try (rename_i h; with_reducible rw [Prod.ext_iff] at h; have h' := h.2; dsimp only at h'; subst h'))
    | dsimp only

theorem wideAccess_frame (a0) (a1) (a2) (s : State) (n : Nat) (hn : n ||| 0xCFFFFFAF = n) :
    blank n (wideAccess a0 a1 a2 s) = blank n s := by
  refine blank_mono (m := 0xCFFFFFAF) ?_ hn
  unfold wideAccess
  repeat' first
    | with_reducible rfl
    | simp only [mk_CFFFFFAF, takeFree, Nat.reduceOr, apply_ite (blank _), apply_ite (keeps _ s), ite_self, implies_true, foldl_blank, keeps_next, Option.elim, readWord_frame, emit_frame, hostWord_frame]
    | (with_reducible refine (foldl_blank ?_ _ _).trans ?_; intro s x)
    | (split <;> try (rename_i h; with_reducible rw [Prod.ext_iff] at h; have h' := h.2; dsimp only at h'; subst h'))
    | dsimp only

theorem barAccess_frame (a0) (a1) (a2) (a3) (a4) (a5) (s : State) (n : Nat) (hn : n ||| 0xCFFFFFAF = n) :
    blank n (barAccess a0 a1 a2 a3 a4 a5 s) = blank n s := by
  refine blank_mono (m := 0xCFFFFFAF) ?_ hn
  unfold barAccess
  repeat' first
    | with_reducible rfl
    | simp only [mk_CFFFFFAF, takeFree, Nat.reduceOr, apply_ite (blank _), apply_ite (keeps _ s), ite_self, implies_true, foldl_blank, keeps_next, Option.elim, accessError_frame, bar4Access_frame, wideAccess_frame, readWord_frame, hostWord_frame]
    | (with_reducible refine (foldl_blank ?_ _ _).trans ?_; intro s x)
    | (split <;> try (rename_i h; with_reducible rw [Prod.ext_iff] at h; have h' := h.2; dsimp only at h'; subst h'))
    | dsimp only

theorem barWrite_frame (a0) (a1) (a2) (s : State) (n : Nat) (hn : n ||| 0x83204C8E = n) (h0 : ∀ x, blank n (a2 x) = blank n x) :
    blank n (barWrite a0 a1 a2 s) = blank n s := by
  unfold barWrite
  repeat' first
    | with_reducible rfl
    | exact h0 _
    | exact outside_frame _ _ _ _ _ (or_sub hn rfl)
    | exact barWrite_frame _ _ _ _ _ (or_sub hn rfl) (fun t => by first | (dsimp only; split <;> first | rfl | exact h0 _) | (split <;> first | rfl | exact h0 _))
    | split

theorem reselect_frame (s : State) (n : Nat) (hn : n ||| 0x83204C8E = n) :
    blank n (reselect s) = blank n s := by
  refine blank_mono (m := 0x83204C8E) ?_ hn
  unfold reselect
  repeat' first
    | with_reducible rfl
    | simp only [mk_83204C8E, takeFree, Nat.reduceOr, apply_ite (blank _), apply_ite (keeps _ s), ite_self, implies_true, foldl_blank, keeps_next, Option.elim, record_frame]
    | (with_reducible refine (foldl_blank ?_ _ _).trans ?_; intro s x)
    | (split <;> try (rename_i h; with_reducible rw [Prod.ext_iff] at h; have h' := h.2; dsimp only at h'; subst h'))
    | dsimp only

theorem timePeerLost_frame (s : State) (n : Nat) (hn : n ||| 0x83204C8E = n) :
    blank n (timePeerLost s) = blank n s := by
  refine blank_mono (m := 0x83204C8E) ?_ hn
  unfold timePeerLost
  repeat' first
    | with_reducible rfl
    | simp only [mk_83204C8E, takeFree, Nat.reduceOr, apply_ite (blank _), apply_ite (keeps _ s), ite_self, implies_true, foldl_blank, keeps_next, Option.elim, record_frame, reselect_frame]
    | (with_reducible refine (foldl_blank ?_ _ _).trans ?_; intro s x)
    | (split <;> try (rename_i h; with_reducible rw [Prod.ext_iff] at h; have h' := h.2; dsimp only at h'; subst h'))
    | dsimp only

theorem holdMirror_frame (s : State) (n : Nat) (hn : n ||| 0x83206C8E = n) :
    blank n (holdMirror s) = blank n s := by
  refine blank_mono (m := 0x83206C8E) ?_ hn
  unfold holdMirror
  repeat' first
    | with_reducible rfl
    | simp only [mk_83206C8E, takeFree, Nat.reduceOr, apply_ite (blank _), apply_ite (keeps _ s), ite_self, implies_true, foldl_blank, keeps_next, Option.elim, noteMirrorHeld_frame]
    | (with_reducible refine (foldl_blank ?_ _ _).trans ?_; intro s x)
    | (split <;> try (rename_i h; with_reducible rw [Prod.ext_iff] at h; have h' := h.2; dsimp only at h'; subst h'))
    | dsimp only

theorem peerLost_frame (a0) (s : State) (n : Nat) (hn : n ||| 0x183206C8F = n) :
    blank n (peerLost a0 s) = blank n s := by
  refine blank_mono (m := 0x183206C8F) ?_ hn
  unfold peerLost
  repeat' first
    | with_reducible rfl
    | simp only [mk_183206C8F, takeFree, Nat.reduceOr, apply_ite (blank _), apply_ite (keeps _ s), ite_self, implies_true, foldl_blank, keeps_next, Option.elim, record_frame, rebudget_frame, timePeerLost_frame, holdMirror_frame]
    | (with_reducible refine (foldl_blank ?_ _ _).trans ?_; intro s x)
    | (split <;> try (rename_i h; with_reducible rw [Prod.ext_iff] at h; have h' := h.2; dsimp only at h'; subst h'))
    | dsimp only

theorem resolveMirror_frame (a0) (s : State) (n : Nat) (hn : n ||| 0x83206C8E = n) :
    blank n (resolveMirror a0 s) = blank n s := by
  refine blank_mono (m := 0x83206C8E) ?_ hn
  unfold resolveMirror
  repeat' first
    | with_reducible rfl
    | simp only [mk_83206C8E, takeFree, Nat.reduceOr, apply_ite (blank _), apply_ite (keeps _ s), ite_self, implies_true, foldl_blank, keeps_next, Option.elim, record_frame]
    | (with_reducible refine (foldl_blank ?_ _ _).trans ?_; intro s x)
    | (split <;> try (rename_i h; with_reducible rw [Prod.ext_iff] at h; have h' := h.2; dsimp only at h'; subst h'))
    | dsimp only

theorem resendMirror_frame (s : State) (n : Nat) (hn : n ||| 0x80200002 = n) :
    blank n (resendMirror s) = blank n s := by
  refine blank_mono (m := 0x80200002) ?_ hn
  unfold resendMirror
  repeat' first
    | with_reducible rfl
    | simp only [mk_80200002, takeFree, Nat.reduceOr, apply_ite (blank _), apply_ite (keeps _ s), ite_self, implies_true, foldl_blank, keeps_next, Option.elim, sendMirror_frame]
    | (with_reducible refine (foldl_blank ?_ _ _).trans ?_; intro s x)
    | (split <;> try (rename_i h; with_reducible rw [Prod.ext_iff] at h; have h' := h.2; dsimp only at h'; subst h'))
    | dsimp only

theorem sendUnfence_frame (s : State) (n : Nat) (hn : n ||| 0x80240000 = n) :
    blank n (sendUnfence s) = blank n s := by
  refine blank_mono (m := 0x80240000) ?_ hn
  unfold sendUnfence
  repeat' first
    | with_reducible rfl
    | simp only [mk_80240000, takeFree, Nat.reduceOr, apply_ite (blank _), apply_ite (keeps _ s), ite_self, implies_true, foldl_blank, keeps_next, Option.elim, dmlIssue_frame]
    | (with_reducible refine (foldl_blank ?_ _ _).trans ?_; intro s x)
    | (split <;> try (rename_i h; with_reducible rw [Prod.ext_iff] at h; have h' := h.2; dsimp only at h'; subst h'))
    | dsimp only

theorem peerReturns_frame (s : State) (n : Nat) (hn : n ||| 0x83246C8F = n) :
    blank n (peerReturns s) = blank n s := by
  refine blank_mono (m := 0x83246C8F) ?_ hn
  unfold peerReturns
  repeat' first
    | with_reducible rfl
    | simp only [mk_83246C8F, takeFree, Nat.reduceOr, apply_ite (blank _), apply_ite (keeps _ s), ite_self, implies_true, foldl_blank, keeps_next, Option.elim, resolveMirror_frame, resendMirror_frame, sendUnfence_frame, record_frame, reselect_frame, rebudget_frame]
    | (with_reducible refine (foldl_blank ?_ _ _).trans ?_; intro s x)
    | (split <;> try (rename_i h; with_reducible rw [Prod.ext_iff] at h; have h' := h.2; dsimp only at h'; subst h'))
    | dsimp only

theorem beatStanding_frame (s : State) (n : Nat) (hn : n ||| 0x183246C8F = n) :
    blank n (beatStanding s) = blank n s := by
  refine blank_mono (m := 0x183246C8F) ?_ hn
  unfold beatStanding
  repeat' first
    | with_reducible rfl
    | simp only [mk_183246C8F, takeFree, Nat.reduceOr, apply_ite (blank _), apply_ite (keeps _ s), ite_self, implies_true, foldl_blank, keeps_next, Option.elim, peerLost_frame, peerReturns_frame]
    | (with_reducible refine (foldl_blank ?_ _ _).trans ?_; intro s x)
    | (split <;> try (rename_i h; with_reducible rw [Prod.ext_iff] at h; have h' := h.2; dsimp only at h'; subst h'))
    | dsimp only

theorem sendFences_frame (s : State) (n : Nat) (hn : n ||| 0x80240000 = n) :
    blank n (sendFences s) = blank n s := by
  refine blank_mono (m := 0x80240000) ?_ hn
  unfold sendFences
  repeat' first
    | with_reducible rfl
    | simp only [mk_80240000, takeFree, Nat.reduceOr, apply_ite (blank _), apply_ite (keeps _ s), ite_self, implies_true, foldl_blank, keeps_next, Option.elim, dmlIssue_frame]
    | (with_reducible refine (foldl_blank ?_ _ _).trans ?_; intro s x)
    | (split <;> try (rename_i h; with_reducible rw [Prod.ext_iff] at h; have h' := h.2; dsimp only at h'; subst h'))
    | dsimp only

theorem beginFencing_frame (s : State) (n : Nat) (hn : n ||| 0x80240000 = n) :
    blank n (beginFencing s) = blank n s := by
  refine blank_mono (m := 0x80240000) ?_ hn
  unfold beginFencing
  repeat' first
    | with_reducible rfl
    | simp only [mk_80240000, takeFree, Nat.reduceOr, apply_ite (blank _), apply_ite (keeps _ s), ite_self, implies_true, foldl_blank, keeps_next, Option.elim, sendFences_frame]
    | (with_reducible refine (foldl_blank ?_ _ _).trans ?_; intro s x)
    | (split <;> try (rename_i h; with_reducible rw [Prod.ext_iff] at h; have h' := h.2; dsimp only at h'; subst h'))
    | dsimp only

theorem norTear_frame (a0) (s : State) (n : Nat) (hn : n ||| 0xA000000 = n) :
    blank n (norTear a0 s) = blank n s := by
  refine blank_mono (m := 0xA000000) ?_ hn
  unfold norTear
  repeat' first
    | with_reducible rfl
    | simp only [mk_A000000, takeFree, Nat.reduceOr, apply_ite (blank _), apply_ite (keeps _ s), ite_self, implies_true, foldl_blank, keeps_next, Option.elim]
    | (with_reducible refine (foldl_blank ?_ _ _).trans ?_; intro s x)
    | (split <;> try (rename_i h; with_reducible rw [Prod.ext_iff] at h; have h' := h.2; dsimp only at h'; subst h'))
    | dsimp only

theorem islandRead_frame (a0) (a1) (s : State) (n : Nat) (hn : n ||| 0x6 = n) :
    blank n (islandRead a0 a1 s) = blank n s := by
  refine blank_mono (m := 0x6) ?_ hn
  unfold islandRead
  repeat' first
    | with_reducible rfl
    | simp only [mk_6, takeFree, Nat.reduceOr, apply_ite (blank _), apply_ite (keeps _ s), ite_self, implies_true, foldl_blank, keeps_next, Option.elim]
    | (with_reducible refine (foldl_blank ?_ _ _).trans ?_; intro s x)
    | (split <;> try (rename_i h; with_reducible rw [Prod.ext_iff] at h; have h' := h.2; dsimp only at h'; subst h'))
    | dsimp only

theorem startEvents_frame (a0) (a1) (s : State) (n : Nat) (hn : n ||| 0x83204C8F = n) :
    blank n (startEvents a0 a1 s) = blank n s := by
  refine blank_mono (m := 0x83204C8F) ?_ hn
  unfold startEvents
  repeat' first
    | with_reducible rfl
    | simp only [mk_83204C8F, takeFree, Nat.reduceOr, apply_ite (blank _), apply_ite (keeps _ s), ite_self, implies_true, foldl_blank, keeps_next, Option.elim, record_frame, recordAlert_frame]
    | (with_reducible refine (foldl_blank ?_ _ _).trans ?_; intro s x)
    | (split <;> try (rename_i h; with_reducible rw [Prod.ext_iff] at h; have h' := h.2; dsimp only at h'; subst h'))
    | dsimp only

theorem birthRewrite_frame (a0) (s : State) (n : Nat) (hn : n ||| 0xA000000 = n) :
    blank n (birthRewrite a0 s) = blank n s := by
  refine blank_mono (m := 0xA000000) ?_ hn
  unfold birthRewrite
  repeat' first
    | with_reducible rfl
    | simp only [mk_A000000, takeFree, Nat.reduceOr, apply_ite (blank _), apply_ite (keeps _ s), ite_self, implies_true, foldl_blank, keeps_next, Option.elim, norErase_frame, norWrite_frame]
    | (with_reducible refine (foldl_blank ?_ _ _).trans ?_; intro s x)
    | (split <;> try (rename_i h; with_reducible rw [Prod.ext_iff] at h; have h' := h.2; dsimp only at h'; subst h'))
    | dsimp only

theorem birthMend_frame (s : State) (n : Nat) (hn : n ||| 0xA000000 = n) :
    blank n (birthMend s) = blank n s := by
  refine blank_mono (m := 0xA000000) ?_ hn
  unfold birthMend
  repeat' first
    | with_reducible rfl
    | simp only [mk_A000000, takeFree, Nat.reduceOr, apply_ite (blank _), apply_ite (keeps _ s), ite_self, implies_true, foldl_blank, keeps_next, Option.elim, birthRewrite_frame]
    | (with_reducible refine (foldl_blank ?_ _ _).trans ?_; intro s x)
    | (split <;> try (rename_i h; with_reducible rw [Prod.ext_iff] at h; have h' := h.2; dsimp only at h'; subst h'))
    | dsimp only

theorem resumeCivil_frame (a0) (s : State) (n : Nat) (hn : n ||| 0xC = n) :
    blank n (resumeCivil a0 s) = blank n s := by
  refine blank_mono (m := 0xC) ?_ hn
  unfold resumeCivil
  repeat' first
    | with_reducible rfl
    | simp only [mk_C, takeFree, Nat.reduceOr, apply_ite (blank _), apply_ite (keeps _ s), ite_self, implies_true, foldl_blank, keeps_next, Option.elim, bumpHigh_frame, keepCivil_frame]
    | (with_reducible refine (foldl_blank ?_ _ _).trans ?_; intro s x)
    | (split <;> try (rename_i h; with_reducible rw [Prod.ext_iff] at h; have h' := h.2; dsimp only at h'; subst h'))
    | dsimp only

theorem stopEvents_frame (a0) (a1) (s : State) (n : Nat) (hn : n ||| 0x83204C8E = n) :
    blank n (stopEvents a0 a1 s) = blank n s := by
  refine blank_mono (m := 0x83204C8E) ?_ hn
  unfold stopEvents
  repeat' first
    | with_reducible rfl
    | simp only [mk_83204C8E, takeFree, Nat.reduceOr, apply_ite (blank _), apply_ite (keeps _ s), ite_self, implies_true, foldl_blank, keeps_next, Option.elim, record_frame]
    | (with_reducible refine (foldl_blank ?_ _ _).trans ?_; intro s x)
    | (split <;> try (rename_i h; with_reducible rw [Prod.ext_iff] at h; have h' := h.2; dsimp only at h'; subst h'))
    | dsimp only

theorem identityUp_frame (s : State) (n : Nat) (hn : n ||| 0x10020 = n) :
    blank n (identityUp s) = blank n s := by
  refine blank_mono (m := 0x10020) ?_ hn
  unfold identityUp
  repeat' first
    | with_reducible rfl
    | simp only [mk_10020, takeFree, Nat.reduceOr, apply_ite (blank _), apply_ite (keeps _ s), ite_self, implies_true, foldl_blank, keeps_next, Option.elim]
    | (with_reducible refine (foldl_blank ?_ _ _).trans ?_; intro s x)
    | (split <;> try (rename_i h; with_reducible rw [Prod.ext_iff] at h; have h' := h.2; dsimp only at h'; subst h'))
    | dsimp only

theorem floorRaised_frame (a0) (s : State) (n : Nat) (hn : n ||| 0x8B204CAE = n) :
    blank n (floorRaised a0 s) = blank n s := by
  refine blank_mono (m := 0x8B204CAE) ?_ hn
  unfold floorRaised
  repeat' first
    | with_reducible rfl
    | simp only [mk_8B204CAE, takeFree, Nat.reduceOr, apply_ite (blank _), apply_ite (keeps _ s), ite_self, implies_true, foldl_blank, keeps_next, Option.elim, record_frame, copiesPut_frame]
    | (with_reducible refine (foldl_blank ?_ _ _).trans ?_; intro s x)
    | (split <;> try (rename_i h; with_reducible rw [Prod.ext_iff] at h; have h' := h.2; dsimp only at h'; subst h'))
    | dsimp only

theorem floorResume_frame (s : State) (n : Nat) (hn : n ||| 0x8B204CBE = n) :
    blank n (floorResume s) = blank n s := by
  refine blank_mono (m := 0x8B204CBE) ?_ hn
  unfold floorResume
  repeat' first
    | with_reducible rfl
    | simp only [mk_8B204CBE, takeFree, Nat.reduceOr, apply_ite (blank _), apply_ite (keeps _ s), ite_self, implies_true, foldl_blank, keeps_next, Option.elim, floorRaised_frame, copiesPut_frame]
    | (with_reducible refine (foldl_blank ?_ _ _).trans ?_; intro s x)
    | (split <;> try (rename_i h; with_reducible rw [Prod.ext_iff] at h; have h' := h.2; dsimp only at h'; subst h'))
    | dsimp only

theorem fuseOwner_frame (a0) (a1) (s : State) (n : Nat) (hn : n ||| 0x10 = n) :
    blank n (fuseOwner a0 a1 s) = blank n s := by
  refine blank_mono (m := 0x10) ?_ hn
  unfold fuseOwner
  repeat' first
    | with_reducible rfl
    | simp only [mk_10, takeFree, Nat.reduceOr, apply_ite (blank _), apply_ite (keeps _ s), ite_self, implies_true, foldl_blank, keeps_next, Option.elim]
    | (with_reducible refine (foldl_blank ?_ _ _).trans ?_; intro s x)
    | (split <;> try (rename_i h; with_reducible rw [Prod.ext_iff] at h; have h' := h.2; dsimp only at h'; subst h'))
    | dsimp only

theorem lcBlown_frame (a0) (s : State) (n : Nat) (hn : n ||| 0x28 = n) :
    blank n (lcBlown a0 s) = blank n s := by
  refine blank_mono (m := 0x28) ?_ hn
  unfold lcBlown
  repeat' first
    | with_reducible rfl
    | simp only [mk_28, takeFree, Nat.reduceOr, apply_ite (blank _), apply_ite (keeps _ s), ite_self, implies_true, foldl_blank, keeps_next, Option.elim]
    | (with_reducible refine (foldl_blank ?_ _ _).trans ?_; intro s x)
    | (split <;> try (rename_i h; with_reducible rw [Prod.ext_iff] at h; have h' := h.2; dsimp only at h'; subst h'))
    | dsimp only

theorem lcFuses_frame (a0) (s : State) (n : Nat) (hn : n ||| 0x10 = n) :
    blank n (lcFuses a0 s) = blank n s := by
  refine blank_mono (m := 0x10) ?_ hn
  unfold lcFuses
  repeat' first
    | with_reducible rfl
    | simp only [mk_10, takeFree, Nat.reduceOr, apply_ite (blank _), apply_ite (keeps _ s), ite_self, implies_true, foldl_blank, keeps_next, Option.elim]
    | (with_reducible refine (foldl_blank ?_ _ _).trans ?_; intro s x)
    | (split <;> try (rename_i h; with_reducible rw [Prod.ext_iff] at h; have h' := h.2; dsimp only at h'; subst h'))
    | dsimp only

theorem spaceWrite_frame (a0) (a1) (a2) (s : State) (n : Nat) (hn : n ||| 0x30000000 = n) :
    blank n (spaceWrite a0 a1 a2 s) = blank n s := by
  refine blank_mono (m := 0x30000000) ?_ hn
  unfold spaceWrite
  repeat' first
    | with_reducible rfl
    | simp only [mk_30000000, takeFree, Nat.reduceOr, apply_ite (blank _), apply_ite (keeps _ s), ite_self, implies_true, foldl_blank, keeps_next, Option.elim]
    | (with_reducible refine (foldl_blank ?_ _ _).trans ?_; intro s x)
    | (split <;> try (rename_i h; with_reducible rw [Prod.ext_iff] at h; have h' := h.2; dsimp only at h'; subst h'))
    | dsimp only

theorem csAbort_frame (s : State) (n : Nat) (hn : n ||| 0xB0810482 = n) :
    blank n (csAbort s) = blank n s := by
  refine blank_mono (m := 0xB0810482) ?_ hn
  unfold csAbort
  repeat' first
    | with_reducible rfl
    | simp only [mk_B0810482, takeFree, Nat.reduceOr, apply_ite (blank _), apply_ite (keeps _ s), ite_self, implies_true, foldl_blank, keeps_next, Option.elim, spaceWrite_frame]
    | (with_reducible refine (foldl_blank ?_ _ _).trans ?_; intro s x)
    | (split <;> try (rename_i h; with_reducible rw [Prod.ext_iff] at h; have h' := h.2; dsimp only at h'; subst h'))
    | dsimp only

theorem zeroiseTestKeys_frame (s : State) (n : Nat) (hn : n ||| 0xB0814482 = n) :
    blank n (zeroiseTestKeys s) = blank n s := by
  refine blank_mono (m := 0xB0814482) ?_ hn
  unfold zeroiseTestKeys
  repeat' first
    | with_reducible rfl
    | simp only [mk_B0814482, takeFree, Nat.reduceOr, apply_ite (blank _), apply_ite (keeps _ s), ite_self, implies_true, foldl_blank, keeps_next, Option.elim, csAbort_frame, keyGenUp_frame]
    | (with_reducible refine (foldl_blank ?_ _ _).trans ?_; intro s x)
    | (split <;> try (rename_i h; with_reducible rw [Prod.ext_iff] at h; have h' := h.2; dsimp only at h'; subst h'))
    | dsimp only

theorem zeroiseAll_frame (s : State) (n : Nat) (hn : n ||| 0xB08144B2 = n) :
    blank n (zeroiseAll s) = blank n s := by
  refine blank_mono (m := 0xB08144B2) ?_ hn
  unfold zeroiseAll
  repeat' first
    | with_reducible rfl
    | simp only [mk_B08144B2, takeFree, Nat.reduceOr, apply_ite (blank _), apply_ite (keeps _ s), ite_self, implies_true, foldl_blank, keeps_next, Option.elim, zeroiseTestKeys_frame]
    | (with_reducible refine (foldl_blank ?_ _ _).trans ?_; intro s x)
    | (split <;> try (rename_i h; with_reducible rw [Prod.ext_iff] at h; have h' := h.2; dsimp only at h'; subst h'))
    | dsimp only

theorem lcZeroise_frame (a0) (s : State) (n : Nat) (hn : n ||| 0xB08144B2 = n) :
    blank n (lcZeroise a0 s) = blank n s := by
  refine blank_mono (m := 0xB08144B2) ?_ hn
  unfold lcZeroise
  repeat' first
    | with_reducible rfl
    | simp only [mk_B08144B2, takeFree, Nat.reduceOr, apply_ite (blank _), apply_ite (keeps _ s), ite_self, implies_true, foldl_blank, keeps_next, Option.elim, zeroiseAll_frame, zeroiseTestKeys_frame]
    | (with_reducible refine (foldl_blank ?_ _ _).trans ?_; intro s x)
    | (split <;> try (rename_i h; with_reducible rw [Prod.ext_iff] at h; have h' := h.2; dsimp only at h'; subst h'))
    | dsimp only

theorem lcComplete_frame (a0) (a1) (s : State) (n : Nat) (hn : n ||| 0x8B204CAE = n) :
    blank n (lcComplete a0 a1 s) = blank n s := by
  refine blank_mono (m := 0x8B204CAE) ?_ hn
  unfold lcComplete
  repeat' first
    | with_reducible rfl
    | simp only [mk_8B204CAE, takeFree, Nat.reduceOr, apply_ite (blank _), apply_ite (keeps _ s), ite_self, implies_true, foldl_blank, keeps_next, Option.elim, record_frame, copiesPut_frame]
    | (with_reducible refine (foldl_blank ?_ _ _).trans ?_; intro s x)
    | (split <;> try (rename_i h; with_reducible rw [Prod.ext_iff] at h; have h' := h.2; dsimp only at h'; subst h'))
    | dsimp only

theorem lcResume_frame (a0) (s : State) (n : Nat) (hn : n ||| 0xBBA14CBE = n) :
    blank n (lcResume a0 s) = blank n s := by
  refine blank_mono (m := 0xBBA14CBE) ?_ hn
  unfold lcResume
  split
  · rename_i t slot _
    have h : blank 0xBBA14CBE (if 1 ≤ t then slot.elim s fun n => if decide (s.fuses.p < 8) then fuseOwner n a0 s else s else s) = blank 0xBBA14CBE s := by
      split
      · cases slot with
        | none => rfl
        | some k =>
          dsimp only [Option.elim]
          split
          · exact fuseOwner_frame _ _ _ _ rfl
          · rfl
      · rfl
    dsimp only
    rw [record_frame _ _ _ _ _ rfl, lcComplete_frame _ _ _ _ rfl, lcBlown_frame _ _ _ rfl, lcFuses_frame _ _ _ rfl, lcZeroise_frame _ _ _ rfl, h]
  · rfl

theorem beginStart_frame (a0) (a1) (a2) (s : State) (n : Nat) (hn : n ||| 0xBFFFFFFF = n) :
    blank n (beginStart a0 a1 a2 s) = blank n s := by
  refine blank_mono (m := 0xBFFFFFFF) ?_ hn
  unfold beginStart
  repeat' first
    | with_reducible rfl
    | simp only [mk_BFFFFFFF, takeFree, Nat.reduceOr, apply_ite (blank _), apply_ite (keeps _ s), ite_self, implies_true, foldl_blank, keeps_next, Option.elim, norTear_frame, islandRead_frame, startEvents_frame, afterReset_frame, birthMend_frame, resumeCivil_frame, stopEvents_frame, identityUp_frame, floorResume_frame, lcResume_frame]
    | (with_reducible refine (foldl_blank ?_ _ _).trans ?_; intro s x)
    | (split <;> try (rename_i h; with_reducible rw [Prod.ext_iff] at h; have h' := h.2; dsimp only at h'; subst h'))
    | dsimp only

theorem firstEntry_frame (a0) (a1) (a2) (a3) (a4) (s : State) (n : Nat) (hn : n ||| 0x80280002 = n) :
    blank n (firstEntry a0 a1 a2 a3 a4 s) = blank n s := by
  refine blank_mono (m := 0x80280002) ?_ hn
  unfold firstEntry
  repeat' first
    | with_reducible rfl
    | simp only [mk_80280002, takeFree, Nat.reduceOr, apply_ite (blank _), apply_ite (keeps _ s), ite_self, implies_true, foldl_blank, keeps_next, Option.elim, sendDelta_frame]
    | (with_reducible refine (foldl_blank ?_ _ _).trans ?_; intro s x)
    | (split <;> try (rename_i h; with_reducible rw [Prod.ext_iff] at h; have h' := h.2; dsimp only at h'; subst h'))
    | dsimp only

theorem retireDie_frame (a0) (a1) (s : State) (n : Nat) (hn : n ||| 0x83384C8E = n) :
    blank n (retireDie a0 a1 s) = blank n s := by
  refine blank_mono (m := 0x83384C8E) ?_ hn
  unfold retireDie
  repeat' first
    | with_reducible rfl
    | simp only [mk_83384C8E, takeFree, Nat.reduceOr, apply_ite (blank _), apply_ite (keeps _ s), ite_self, implies_true, foldl_blank, keeps_next, Option.elim, record_frame, addTargets_frame]
    | (with_reducible refine (foldl_blank ?_ _ _).trans ?_; intro s x)
    | (split <;> try (rename_i h; with_reducible rw [Prod.ext_iff] at h; have h' := h.2; dsimp only at h'; subst h'))
    | dsimp only

theorem retireBlock_frame (a0) (a1) (a2) (a3) (a4) (s : State) (n : Nat) (hn : n ||| 0x83384C8E = n) :
    blank n (retireBlock a0 a1 a2 a3 a4 s) = blank n s := by
  refine blank_mono (m := 0x83384C8E) ?_ hn
  unfold retireBlock
  repeat' first
    | with_reducible rfl
    | simp only [mk_83384C8E, takeFree, Nat.reduceOr, apply_ite (blank _), apply_ite (keeps _ s), ite_self, implies_true, foldl_blank, keeps_next, Option.elim, modBlock_frame, record_frame, retireDie_frame]
    | (with_reducible refine (foldl_blank ?_ _ _).trans ?_; intro s x)
    | (split <;> try (rename_i h; with_reducible rw [Prod.ext_iff] at h; have h' := h.2; dsimp only at h'; subst h'))
    | dsimp only

theorem makeAnchors_frame (a0) (s : State) (n : Nat) (hn : n ||| 0x80280002 = n) :
    blank n (makeAnchors a0 s) = blank n s := by
  refine blank_mono (m := 0x80280002) ?_ hn
  unfold makeAnchors
  repeat' first
    | with_reducible rfl
    | simp only [mk_80280002, takeFree, Nat.reduceOr, apply_ite (blank _), apply_ite (keeps _ s), ite_self, implies_true, foldl_blank, keeps_next, Option.elim, modBlock_frame]
    | (with_reducible refine (foldl_blank ?_ _ _).trans ?_; intro s x)
    | (split <;> try (rename_i h; with_reducible rw [Prod.ext_iff] at h; have h' := h.2; dsimp only at h'; subst h'))
    | dsimp only

theorem erasePassed_frame (a0) (a1) (a2) (a3) (s : State) (n : Nat) (hn : n ||| 0x83384C8E = n) :
    blank n (erasePassed a0 a1 a2 a3 s) = blank n s := by
  refine blank_mono (m := 0x83384C8E) ?_ hn
  unfold erasePassed
  repeat' first
    | with_reducible rfl
    | simp only [mk_83384C8E, takeFree, Nat.reduceOr, apply_ite (blank _), apply_ite (keeps _ s), ite_self, implies_true, foldl_blank, keeps_next, Option.elim, modBlock_frame, retireBlock_frame]
    | (with_reducible refine (foldl_blank ?_ _ _).trans ?_; intro s x)
    | (split <;> try (rename_i h; with_reducible rw [Prod.ext_iff] at h; have h' := h.2; dsimp only at h'; subst h'))
    | dsimp only

theorem blankDone_frame (a0) (a1) (a2) (s : State) (n : Nat) (hn : n ||| 0x83384C8E = n) :
    blank n (blankDone a0 a1 a2 s) = blank n s := by
  refine blank_mono (m := 0x83384C8E) ?_ hn
  unfold blankDone
  repeat' first
    | with_reducible rfl
    | simp only [mk_83384C8E, takeFree, Nat.reduceOr, apply_ite (blank _), apply_ite (keeps _ s), ite_self, implies_true, foldl_blank, keeps_next, Option.elim, firstEntry_frame, retireBlock_frame, settleJoin_frame, makeAnchors_frame, erasePassed_frame]
    | (with_reducible refine (foldl_blank ?_ _ _).trans ?_; intro s x)
    | (split <;> try (rename_i h; with_reducible rw [Prod.ext_iff] at h; have h' := h.2; dsimp only at h'; subst h'))
    | dsimp only

theorem bufferFrame_frame (a0) (s : State) (n : Nat) (hn : n ||| 0x80000800 = n) :
    ∀ t, bufferFrame a0 s = some t → blank n t = blank n s := by
  suffices key : ∀ t, bufferFrame a0 s = some t → blank 0x80000800 t = blank 0x80000800 s from fun t h => blank_mono (key t h) hn
  unfold bufferFrame
  repeat' first
    | with_reducible rfl
    | simp only [mk_80000800, takeFree, Nat.reduceOr, apply_ite (blank _), apply_ite (keeps _ s), ite_self, implies_true, foldl_blank, keeps_next, Option.elim, modNetPort_frame, emit_frame]
    | (intro t h; cases h)
    | split
    | dsimp only

theorem bulkEnd_frame (s : State) (n : Nat) (hn : n ||| 0x83206C8F = n) :
    blank n (bulkEnd s) = blank n s := by
  refine blank_mono (m := 0x83206C8F) ?_ hn
  unfold bulkEnd
  repeat' first
    | with_reducible rfl
    | simp only [mk_83206C8F, takeFree, Nat.reduceOr, apply_ite (blank _), apply_ite (keeps _ s), ite_self, implies_true, foldl_blank, keeps_next, Option.elim, record_frame]
    | (with_reducible refine (foldl_blank ?_ _ _).trans ?_; intro s x)
    | (split <;> try (rename_i h; with_reducible rw [Prod.ext_iff] at h; have h' := h.2; dsimp only at h'; subst h'))
    | dsimp only

theorem bulkFrames_frame (a0) (s : State) (n : Nat) (hn : n ||| 0x202000 = n) :
    blank n (bulkFrames a0 s) = blank n s := by
  refine blank_mono (m := 0x202000) ?_ hn
  unfold bulkFrames
  repeat' first
    | with_reducible rfl
    | simp only [mk_202000, takeFree, Nat.reduceOr, apply_ite (blank _), apply_ite (keeps _ s), ite_self, implies_true, foldl_blank, keeps_next, Option.elim]
    | (with_reducible refine (foldl_blank ?_ _ _).trans ?_; intro s x)
    | (split <;> try (rename_i h; with_reducible rw [Prod.ext_iff] at h; have h' := h.2; dsimp only at h'; subst h'))
    | dsimp only

theorem setOwned_frame (a0) (s : State) (n : Nat) (hn : n ||| 0x200001 = n) :
    blank n (setOwned a0 s) = blank n s := by
  refine blank_mono (m := 0x200001) ?_ hn
  unfold setOwned
  repeat' first
    | with_reducible rfl
    | simp only [mk_200001, takeFree, Nat.reduceOr, apply_ite (blank _), apply_ite (keeps _ s), ite_self, implies_true, foldl_blank, keeps_next, Option.elim]
    | (with_reducible refine (foldl_blank ?_ _ _).trans ?_; intro s x)
    | (split <;> try (rename_i h; with_reducible rw [Prod.ext_iff] at h; have h' := h.2; dsimp only at h'; subst h'))
    | dsimp only

theorem settleOwnership_frame (a0) (s : State) (n : Nat) (hn : n ||| 0x200001 = n) :
    blank n (settleOwnership a0 s) = blank n s := by
  refine blank_mono (m := 0x200001) ?_ hn
  unfold settleOwnership
  repeat' first
    | with_reducible rfl
    | simp only [mk_200001, takeFree, Nat.reduceOr, apply_ite (blank _), apply_ite (keeps _ s), ite_self, implies_true, foldl_blank, keeps_next, Option.elim, setOwned_frame]
    | (with_reducible refine (foldl_blank ?_ _ _).trans ?_; intro s x)
    | (split <;> try (rename_i h; with_reducible rw [Prod.ext_iff] at h; have h' := h.2; dsimp only at h'; subst h'))
    | dsimp only

theorem bulkTake_frame (a0) (s : State) (n : Nat) (hn : n ||| 0x83396C8F = n) :
    blank n (bulkTake a0 s) = blank n s := by
  refine blank_mono (m := 0x83396C8F) ?_ hn
  unfold bulkTake
  repeat' first
    | with_reducible rfl
    | simp only [mk_83396C8F, takeFree, Nat.reduceOr, apply_ite (blank _), apply_ite (keeps _ s), ite_self, implies_true, foldl_blank, keeps_next, Option.elim, bulkFrames_frame, recountPeer_frame, applyDelta_frame, settleOwnership_frame]
    | (with_reducible refine (foldl_blank ?_ _ _).trans ?_; intro s x)
    | (split <;> try (rename_i h; with_reducible rw [Prod.ext_iff] at h; have h' := h.2; dsimp only at h'; subst h'))
    | dsimp only

theorem chanAbort_frame (a0) (a1) (s : State) (n : Nat) (hn : n ||| 0x83226C8E = n) :
    blank n (chanAbort a0 a1 s) = blank n s := by
  refine blank_mono (m := 0x83226C8E) ?_ hn
  unfold chanAbort
  repeat' first
    | with_reducible rfl
    | simp only [mk_83226C8E, takeFree, Nat.reduceOr, apply_ite (blank _), apply_ite (keeps _ s), ite_self, implies_true, foldl_blank, keeps_next, Option.elim, abortTag_frame]
    | (with_reducible refine (foldl_blank ?_ _ _).trans ?_; intro s x)
    | (split <;> try (rename_i h; with_reducible rw [Prod.ext_iff] at h; have h' := h.2; dsimp only at h'; subst h'))
    | dsimp only

theorem chargeDrive_frame (a0) (s : State) (n : Nat) (hn : n ||| 0x80000000 = n) :
    blank n (chargeDrive a0 s) = blank n s := by
  refine blank_mono (m := 0x80000000) ?_ hn
  unfold chargeDrive
  repeat' first
    | with_reducible rfl
    | simp only [mk_80000000, takeFree, Nat.reduceOr, apply_ite (blank _), apply_ite (keeps _ s), ite_self, implies_true, foldl_blank, keeps_next, Option.elim, pmbusSend_frame]
    | (with_reducible refine (foldl_blank ?_ _ _).trans ?_; intro s x)
    | (split <;> try (rename_i h; with_reducible rw [Prod.ext_iff] at h; have h' := h.2; dsimp only at h'; subst h'))
    | dsimp only

theorem chargeVout_frame (a0) (s : State) (n : Nat) (hn : n ||| 0x80000000 = n) :
    blank n (chargeVout a0 s) = blank n s := by
  refine blank_mono (m := 0x80000000) ?_ hn
  unfold chargeVout
  repeat' first
    | with_reducible rfl
    | simp only [mk_80000000, takeFree, Nat.reduceOr, apply_ite (blank _), apply_ite (keeps _ s), ite_self, implies_true, foldl_blank, keeps_next, Option.elim, pmbusSend_frame]
    | (with_reducible refine (foldl_blank ?_ _ _).trans ?_; intro s x)
    | (split <;> try (rename_i h; with_reducible rw [Prod.ext_iff] at h; have h' := h.2; dsimp only at h'; subst h'))
    | dsimp only

theorem loopNext_frame (a0) (a1) (s : State) (n : Nat) (hn : n ||| 0x800000 = n) :
    blank n (loopNext a0 a1 s) = blank n s := by
  refine blank_mono (m := 0x800000) ?_ hn
  unfold loopNext
  repeat' first
    | with_reducible rfl
    | simp only [mk_800000, takeFree, Nat.reduceOr, apply_ite (blank _), apply_ite (keeps _ s), ite_self, implies_true, foldl_blank, keeps_next, Option.elim, modLoop_frame]
    | (with_reducible refine (foldl_blank ?_ _ _).trans ?_; intro s x)
    | (split <;> try (rename_i h; with_reducible rw [Prod.ext_iff] at h; have h' := h.2; dsimp only at h'; subst h'))
    | dsimp only

theorem fanDrive_frame (a0) (a1) (s : State) (n : Nat) (hn : n ||| 0x800000 = n) :
    blank n (fanDrive a0 a1 s) = blank n s := by
  refine blank_mono (m := 0x800000) ?_ hn
  unfold fanDrive
  repeat' first
    | with_reducible rfl
    | simp only [mk_800000, takeFree, Nat.reduceOr, apply_ite (blank _), apply_ite (keeps _ s), ite_self, implies_true, foldl_blank, keeps_next, Option.elim]
    | (with_reducible refine (foldl_blank ?_ _ _).trans ?_; intro s x)
    | (split <;> try (rename_i h; with_reducible rw [Prod.ext_iff] at h; have h' := h.2; dsimp only at h'; subst h'))
    | dsimp only

theorem loopDrive_frame (a0) (a1) (s : State) (n : Nat) (hn : n ||| 0x80800002 = n) :
    blank n (loopDrive a0 a1 s) = blank n s := by
  refine blank_mono (m := 0x80800002) ?_ hn
  unfold loopDrive
  repeat' first
    | with_reducible rfl
    | simp only [mk_80800002, takeFree, Nat.reduceOr, apply_ite (blank _), apply_ite (keeps _ s), ite_self, implies_true, foldl_blank, keeps_next, Option.elim, avsDrive_frame, chargeDrive_frame, fanDrive_frame]
    | (with_reducible refine (foldl_blank ?_ _ _).trans ?_; intro s x)
    | (split <;> try (rename_i h; with_reducible rw [Prod.ext_iff] at h; have h' := h.2; dsimp only at h'; subst h'))
    | dsimp only

theorem loopRun_frame (a0) (a1) (s : State) (n : Nat) (hn : n ||| 0x83A04C8E = n) :
    blank n (loopRun a0 a1 s) = blank n s := by
  refine blank_mono (m := 0x83A04C8E) ?_ hn
  unfold loopRun
  repeat' first
    | with_reducible rfl
    | simp only [mk_83A04C8E, takeFree, Nat.reduceOr, apply_ite (blank _), apply_ite (keeps _ s), ite_self, implies_true, foldl_blank, keeps_next, Option.elim, record_frame, pmbusSend_frame, loopDrive_frame, modLoop_frame]
    | (with_reducible refine (foldl_blank ?_ _ _).trans ?_; intro s x)
    | (split <;> try (rename_i h; with_reducible rw [Prod.ext_iff] at h; have h' := h.2; dsimp only at h'; subst h'))
    | dsimp only

theorem loopMissed_frame (a0) (s : State) (n : Nat) (hn : n ||| 0x83A04C8E = n) :
    blank n (loopMissed a0 s) = blank n s := by
  refine blank_mono (m := 0x83A04C8E) ?_ hn
  unfold loopMissed
  repeat' first
    | with_reducible rfl
    | simp only [mk_83A04C8E, takeFree, Nat.reduceOr, apply_ite (blank _), apply_ite (keeps _ s), ite_self, implies_true, foldl_blank, keeps_next, Option.elim, modLoop_frame, record_frame, loopDrive_frame]
    | (with_reducible refine (foldl_blank ?_ _ _).trans ?_; intro s x)
    | (split <;> try (rename_i h; with_reducible rw [Prod.ext_iff] at h; have h' := h.2; dsimp only at h'; subst h'))
    | dsimp only

theorem loopSample_frame (s : State) (a1) (n : Nat) (hn : n ||| 0x83A04C8E = n) :
    blank n (loopSample s a1) = blank n s := by
  refine blank_mono (m := 0x83A04C8E) ?_ hn
  unfold loopSample
  repeat' first
    | with_reducible rfl
    | simp only [mk_83A04C8E, takeFree, Nat.reduceOr, apply_ite (blank _), apply_ite (keeps _ s), ite_self, implies_true, foldl_blank, keeps_next, Option.elim, loopNext_frame, loopRun_frame, loopMissed_frame]
    | (with_reducible refine (foldl_blank ?_ _ _).trans ?_; intro s x)
    | (split <;> try (rename_i h; with_reducible rw [Prod.ext_iff] at h; have h' := h.2; dsimp only at h'; subst h'))
    | dsimp only

theorem chargeOn_frame (s : State) (n : Nat) (hn : n ||| 0x83A04C8E = n) :
    blank n (chargeOn s) = blank n s := by
  refine blank_mono (m := 0x83A04C8E) ?_ hn
  unfold chargeOn
  repeat' first
    | with_reducible rfl
    | simp only [mk_83A04C8E, takeFree, Nat.reduceOr, apply_ite (blank _), apply_ite (keeps _ s), ite_self, implies_true, foldl_blank, keeps_next, Option.elim, chargeVout_frame]
    | (with_reducible refine (foldl_blank ?_ _ _).trans ?_; intro s x)
    | (split <;> try (rename_i h; with_reducible rw [Prod.ext_iff] at h; have h' := h.2; dsimp only at h'; subst h'))
    | dsimp only

theorem moveObject_frame (a0) (a1) (a2) (a3) (s : State) (n : Nat) (hn : n ||| 0x833C4C8E = n) :
    blank n (moveObject a0 a1 a2 a3 s) = blank n s := by
  refine blank_mono (m := 0x833C4C8E) ?_ hn
  unfold moveObject
  repeat' first
    | with_reducible rfl
    | simp only [mk_833C4C8E, takeFree, Nat.reduceOr, apply_ite (blank _), apply_ite (keeps _ s), ite_self, implies_true, foldl_blank, keeps_next, Option.elim, placeObject_frame]
    | (with_reducible refine (foldl_blank ?_ _ _).trans ?_; intro s x)
    | (split <;> try (rename_i h; with_reducible rw [Prod.ext_iff] at h; have h' := h.2; dsimp only at h'; subst h'))
    | dsimp only

theorem reserveSerials_frame (s : State) (n : Nat) (hn : n ||| 0x83214C8E = n) :
    blank n (reserveSerials s) = blank n s := by
  refine blank_mono (m := 0x83214C8E) ?_ hn
  unfold reserveSerials
  repeat' first
    | with_reducible rfl
    | simp only [mk_83214C8E, takeFree, Nat.reduceOr, apply_ite (blank _), apply_ite (keeps _ s), ite_self, implies_true, foldl_blank, keeps_next, Option.elim, record_frame]
    | (with_reducible refine (foldl_blank ?_ _ _).trans ?_; intro s x)
    | (split <;> try (rename_i h; with_reducible rw [Prod.ext_iff] at h; have h' := h.2; dsimp only at h'; subst h'))
    | dsimp only

theorem takeSerial_frame (s : State) (n : Nat) (hn : n ||| 0x8F216CAF = n) :
    blank n (takeSerial s).2 = blank n s := by
  refine blank_mono (m := 0x8F216CAF) ?_ hn
  unfold takeSerial
  repeat' first
    | with_reducible rfl
    | simp only [mk_8F216CAF, takeFree, Nat.reduceOr, apply_ite (blank _), apply_ite (keeps _ s), ite_self, implies_true, foldl_blank, keeps_next, Option.elim, reserveSerials_frame, failstop_frame]
    | (with_reducible refine (foldl_blank ?_ _ _).trans ?_; intro s x)
    | (split <;> try (rename_i h; with_reducible rw [Prod.ext_iff] at h; have h' := h.2; dsimp only at h'; subst h'))
    | dsimp only

theorem loseChunk_frame (a0) (a1) (a2) (a3) (a4) (a5) (s : State) (n : Nat) (hn : n ||| 0x8F3D6CAF = n) :
    blank n (loseChunk a0 a1 a2 a3 a4 a5 s) = blank n s := by
  refine blank_mono (m := 0x8F3D6CAF) ?_ hn
  unfold loseChunk
  repeat' first
    | with_reducible rfl
    | simp only [mk_8F3D6CAF, takeFree, Nat.reduceOr, apply_ite (blank _), apply_ite (keeps _ s), ite_self, implies_true, foldl_blank, keeps_next, Option.elim, addLost_frame, recordAlert_frame, takeSerial_frame, moveObject_frame]
    | (with_reducible refine (foldl_blank ?_ _ _).trans ?_; intro s x)
    | (split <;> try (rename_i h; with_reducible rw [Prod.ext_iff] at h; have h' := h.2; dsimp only at h'; subst h'))
    | dsimp only

theorem loseObject_frame (a0) (a1) (a2) (a3) (s : State) (n : Nat) (hn : n ||| 0x8F3D6CAF = n) :
    blank n (loseObject a0 a1 a2 a3 s) = blank n s := by
  refine blank_mono (m := 0x8F3D6CAF) ?_ hn
  unfold loseObject
  repeat' first
    | with_reducible rfl
    | simp only [mk_8F3D6CAF, takeFree, Nat.reduceOr, apply_ite (blank _), apply_ite (keeps _ s), ite_self, implies_true, foldl_blank, keeps_next, Option.elim, loseChunk_frame]
    | (with_reducible refine (foldl_blank ?_ _ _).trans ?_; intro s x)
    | (split <;> try (rename_i h; with_reducible rw [Prod.ext_iff] at h; have h' := h.2; dsimp only at h'; subst h'))
    | dsimp only

theorem checkObject_frame (a0) (a1) (a2) (a3) (a4) (s : State) (n : Nat) (hn : n ||| 0x8F3D6CAF = n) :
    blank n (checkObject a0 a1 a2 a3 a4 s).2 = blank n s := by
  refine blank_mono (m := 0x8F3D6CAF) ?_ hn
  unfold checkObject
  repeat' first
    | with_reducible rfl
    | simp only [mk_8F3D6CAF, takeFree, Nat.reduceOr, apply_ite (blank _), apply_ite (keeps _ s), ite_self, implies_true, foldl_blank, keeps_next, Option.elim, moveObject_frame, loseObject_frame]
    | (with_reducible refine (foldl_blank ?_ _ _).trans ?_; intro s x)
    | (split <;> try (rename_i h; with_reducible rw [Prod.ext_iff] at h; have h' := h.2; dsimp only at h'; subst h'))
    | dsimp only

theorem staleMeta_frame (a0) (s : State) (n : Nat) (hn : n ||| 0x180000 = n) :
    blank n (staleMeta a0 s) = blank n s := by
  refine blank_mono (m := 0x180000) ?_ hn
  unfold staleMeta
  repeat' first
    | with_reducible rfl
    | simp only [mk_180000, takeFree, Nat.reduceOr, apply_ite (blank _), apply_ite (keeps _ s), ite_self, implies_true, foldl_blank, keeps_next, Option.elim, noteMapChange_frame, modStripe_frame]
    | (with_reducible refine (foldl_blank ?_ _ _).trans ?_; intro s x)
    | (split <;> try (rename_i h; with_reducible rw [Prod.ext_iff] at h; have h' := h.2; dsimp only at h'; subst h'))
    | dsimp only

theorem loseMissing_frame (a0) (a1) (a2) (s : State) (n : Nat) (hn : n ||| 0x8F3D6CAF = n) :
    blank n (loseMissing a0 a1 a2 s) = blank n s := by
  refine blank_mono (m := 0x8F3D6CAF) ?_ hn
  unfold loseMissing
  repeat' first
    | with_reducible rfl
    | simp only [mk_8F3D6CAF, takeFree, Nat.reduceOr, apply_ite (blank _), apply_ite (keeps _ s), ite_self, implies_true, foldl_blank, keeps_next, Option.elim, staleMeta_frame, loseObject_frame]
    | (with_reducible refine (foldl_blank ?_ _ _).trans ?_; intro s x)
    | (split <;> try (rename_i h; with_reducible rw [Prod.ext_iff] at h; have h' := h.2; dsimp only at h'; subst h'))
    | dsimp only

theorem checkStripe_frame (a0) (a1) (a2) (a3) (s : State) (n : Nat) (hn : n ||| 0x8F3D6CAF = n) :
    blank n (checkStripe a0 a1 a2 a3 s) = blank n s := by
  refine blank_mono (m := 0x8F3D6CAF) ?_ hn
  unfold checkStripe
  have key : ∀ (l : List TrailerEntry) (p : Bool × State),
      blank 0x8F3D6CAF (l.foldl (fun acc t => checkObject a1 a2 a3 acc.1 t acc.2) p).2 = blank 0x8F3D6CAF p.2 := by
    intro l
    induction l with
    | nil => intro p; rfl
    | cons a l ih => intro p; rw [List.foldl_cons, ih, checkObject_frame _ _ _ _ _ _ _ rfl]
  dsimp only
  rw [apply_ite (blank _)]
  simp only [mk_8F3D6CAF, takeFree, Nat.reduceOr, apply_ite (blank _), apply_ite (keeps _ s), ite_self, implies_true, foldl_blank, keeps_next, Option.elim, loseMissing_frame, checkObject_frame, moveStrip_frame, noteMapChange_frame, record_frame, key]
  repeat' first
    | with_reducible rfl
    | simp only [mk_8F3D6CAF, takeFree, Nat.reduceOr, apply_ite (blank _), apply_ite (keeps _ s), ite_self, implies_true, foldl_blank, keeps_next, Option.elim, loseMissing_frame, checkObject_frame, moveStrip_frame, noteMapChange_frame, record_frame, key]
    | split

theorem chooseMaster_frame (a0) (s : State) (n : Nat) (hn : n ||| 0x8 = n) :
    blank n (chooseMaster a0 s) = blank n s := by
  refine blank_mono (m := 0x8) ?_ hn
  unfold chooseMaster
  repeat' first
    | with_reducible rfl
    | simp only [mk_8, takeFree, Nat.reduceOr, apply_ite (blank _), apply_ite (keeps _ s), ite_self, implies_true, foldl_blank, keeps_next, Option.elim]
    | (with_reducible refine (foldl_blank ?_ _ _).trans ?_; intro s x)
    | (split <;> try (rename_i h; with_reducible rw [Prod.ext_iff] at h; have h' := h.2; dsimp only at h'; subst h'))
    | dsimp only

theorem loseOrDefer_frame (a0) (a1) (a2) (a3) (a4) (a5) (s : State) (n : Nat) (hn : n ||| 0x8F3D6CAF = n) :
    blank n (loseOrDefer a0 a1 a2 a3 a4 a5 s) = blank n s := by
  refine blank_mono (m := 0x8F3D6CAF) ?_ hn
  unfold loseOrDefer
  repeat' first
    | with_reducible rfl
    | simp only [mk_8F3D6CAF, takeFree, Nat.reduceOr, apply_ite (blank _), apply_ite (keeps _ s), ite_self, implies_true, foldl_blank, keeps_next, Option.elim, loseChunk_frame]
    | (with_reducible refine (foldl_blank ?_ _ _).trans ?_; intro s x)
    | (split <;> try (rename_i h; with_reducible rw [Prod.ext_iff] at h; have h' := h.2; dsimp only at h'; subst h'))
    | dsimp only

theorem readBad_frame (a0) (a1) (a2) (a3) (a4) (a5) (a6) (a7) (a8) (s : State) (n : Nat) (hn : n ||| 0x8F3DECAF = n) :
    blank n (readBad a0 a1 a2 a3 a4 a5 a6 a7 a8 s).2 = blank n s := by
  refine blank_mono (m := 0x8F3DECAF) ?_ hn
  unfold readBad
  repeat' first
    | with_reducible rfl
    | simp only [mk_8F3DECAF, takeFree, Nat.reduceOr, apply_ite (blank _), apply_ite (keeps _ s), ite_self, implies_true, foldl_blank, keeps_next, Option.elim, record_frame, addTest_frame, moveObject_frame, loseOrDefer_frame]
    | (with_reducible refine (foldl_blank ?_ _ _).trans ?_; intro s x)
    | (split <;> try (rename_i h; with_reducible rw [Prod.ext_iff] at h; have h' := h.2; dsimp only at h'; subst h'))
    | dsimp only

theorem readStored_frame (a0) (a1) (a2) (a3) (a4) (a5) (a6) (s : State) (n : Nat) (hn : n ||| 0x8F3DECAF = n) :
    blank n (readStored a0 a1 a2 a3 a4 a5 a6 s).2 = blank n s := by
  refine blank_mono (m := 0x8F3DECAF) ?_ hn
  unfold readStored
  repeat' first
    | with_reducible rfl
    | simp only [mk_8F3DECAF, takeFree, Nat.reduceOr, apply_ite (blank _), apply_ite (keeps _ s), ite_self, implies_true, foldl_blank, keeps_next, Option.elim, readBad_frame, loseOrDefer_frame]
    | (with_reducible refine (foldl_blank ?_ _ _).trans ?_; intro s x)
    | (split <;> try (rename_i h; with_reducible rw [Prod.ext_iff] at h; have h' := h.2; dsimp only at h'; subst h'))
    | dsimp only

theorem chunkPayload_frame (a0) (a1) (a2) (a3) (a4) (s : State) (n : Nat) (hn : n ||| 0x8F3DECAF = n) :
    blank n (chunkPayload a0 a1 a2 a3 a4 s).2 = blank n s := by
  refine blank_mono (m := 0x8F3DECAF) ?_ hn
  unfold chunkPayload
  repeat' first
    | with_reducible rfl
    | simp only [mk_8F3DECAF, takeFree, Nat.reduceOr, apply_ite (blank _), apply_ite (keeps _ s), ite_self, implies_true, foldl_blank, keeps_next, Option.elim, readStored_frame]
    | (with_reducible refine (foldl_blank ?_ _ _).trans ?_; intro s x)
    | (split <;> try (rename_i h; with_reducible rw [Prod.ext_iff] at h; have h' := h.2; dsimp only at h'; subst h'))
    | dsimp only

theorem clearOn_frame (s : State) (n : Nat) (hn : n ||| 0xA000000 = n) :
    blank n (clearOn s) = blank n s := by
  refine blank_mono (m := 0xA000000) ?_ hn
  unfold clearOn
  repeat' first
    | with_reducible rfl
    | simp only [mk_A000000, takeFree, Nat.reduceOr, apply_ite (blank _), apply_ite (keeps _ s), ite_self, implies_true, foldl_blank, keeps_next, Option.elim, norFresh_frame]
    | (with_reducible refine (foldl_blank ?_ _ _).trans ?_; intro s x)
    | (split <;> try (rename_i h; with_reducible rw [Prod.ext_iff] at h; have h' := h.2; dsimp only at h'; subst h'))
    | dsimp only

theorem clearSeed_frame (a0) (a1) (s : State) (n : Nat) (hn : n ||| 0x80204002 = n) :
    blank n (clearSeed a0 a1 s) = blank n s := by
  refine blank_mono (m := 0x80204002) ?_ hn
  unfold clearSeed
  repeat' first
    | with_reducible rfl
    | simp only [mk_80204002, takeFree, Nat.reduceOr, apply_ite (blank _), apply_ite (keeps _ s), ite_self, implies_true, foldl_blank, keeps_next, Option.elim, sendDelta_frame, setSeedSlot_frame]
    | (with_reducible refine (foldl_blank ?_ _ _).trans ?_; intro s x)
    | (split <;> try (rename_i h; with_reducible rw [Prod.ext_iff] at h; have h' := h.2; dsimp only at h'; subst h'))
    | dsimp only

theorem clearZeroed_frame (s : State) (n : Nat) (hn : n ||| 0x80304002 = n) :
    blank n (clearZeroed s) = blank n s := by
  refine blank_mono (m := 0x80304002) ?_ hn
  unfold clearZeroed
  repeat' first
    | with_reducible rfl
    | simp only [mk_80304002, takeFree, Nat.reduceOr, apply_ite (blank _), apply_ite (keeps _ s), ite_self, implies_true, foldl_blank, keeps_next, Option.elim, freeGrains_frame, clearSeed_frame]
    | (with_reducible refine (foldl_blank ?_ _ _).trans ?_; intro s x)
    | (split <;> try (rename_i h; with_reducible rw [Prod.ext_iff] at h; have h' := h.2; dsimp only at h'; subst h'))
    | dsimp only

theorem clockTick_frame (s : State) (n : Nat) (hn : n ||| 0xC = n) :
    blank n (clockTick s) = blank n s := by
  refine blank_mono (m := 0xC) ?_ hn
  unfold clockTick
  repeat' first
    | with_reducible rfl
    | simp only [mk_C, takeFree, Nat.reduceOr, apply_ite (blank _), apply_ite (keeps _ s), ite_self, implies_true, foldl_blank, keeps_next, Option.elim, bumpHigh_frame, keepCivil_frame]
    | (with_reducible refine (foldl_blank ?_ _ _).trans ?_; intro s x)
    | (split <;> try (rename_i h; with_reducible rw [Prod.ext_iff] at h; have h' := h.2; dsimp only at h'; subst h'))
    | dsimp only

theorem closeOpen_frame (s : State) (n : Nat) (hn : n ||| 0x80140000 = n) :
    blank n (closeOpen s) = blank n s := by
  refine blank_mono (m := 0x80140000) ?_ hn
  unfold closeOpen
  repeat' first
    | with_reducible rfl
    | simp only [mk_80140000, takeFree, Nat.reduceOr, apply_ite (blank _), apply_ite (keeps _ s), ite_self, implies_true, foldl_blank, keeps_next, Option.elim, closeStripe_frame]
    | (with_reducible refine (foldl_blank ?_ _ _).trans ?_; intro s x)
    | (split <;> try (rename_i h; with_reducible rw [Prod.ext_iff] at h; have h' := h.2; dsimp only at h'; subst h'))
    | dsimp only

theorem closePeriods_frame (a0) (a1) (s : State) (n : Nat) (hn : n ||| 0x83204C8E = n) :
    blank n (closePeriods a0 a1 s) = blank n s := by
  refine blank_mono (m := 0x83204C8E) ?_ hn
  induction a1 generalizing s with
  | zero => rfl
  | succ k ih =>
    rw [closePeriods]
    repeat' first
      | with_reducible rfl
      | simp only [mk_83204C8E, takeFree, Nat.reduceOr, apply_ite (blank _), apply_ite (keeps _ s), ite_self, implies_true, foldl_blank, keeps_next, Option.elim, record_frame, ih]
      | (split <;> try (rename_i h; with_reducible rw [Prod.ext_iff] at h; have h' := h.2; dsimp only at h'; subst h'))

theorem modChan_frame (a0) (a1) (s : State) (n : Nat) (hn : n ||| 0x400000 = n) :
    blank n (modChan a0 a1 s) = blank n s := by
  refine blank_mono (m := 0x400000) ?_ hn
  unfold modChan
  repeat' first
    | with_reducible rfl
    | simp only [mk_400000, takeFree, Nat.reduceOr, apply_ite (blank _), apply_ite (keeps _ s), ite_self, implies_true, foldl_blank, keeps_next, Option.elim]
    | (with_reducible refine (foldl_blank ?_ _ _).trans ?_; intro s x)
    | (split <;> try (rename_i h; with_reducible rw [Prod.ext_iff] at h; have h' := h.2; dsimp only at h'; subst h'))
    | dsimp only

theorem closeRow_frame (a0) (a1) (s : State) (n : Nat) (hn : n ||| 0x80400000 = n) :
    blank n (closeRow a0 a1 s) = blank n s := by
  refine blank_mono (m := 0x80400000) ?_ hn
  unfold closeRow
  repeat' first
    | with_reducible rfl
    | simp only [mk_80400000, takeFree, Nat.reduceOr, apply_ite (blank _), apply_ite (keeps _ s), ite_self, implies_true, foldl_blank, keeps_next, Option.elim, emit_frame, modChan_frame]
    | (with_reducible refine (foldl_blank ?_ _ _).trans ?_; intro s x)
    | (split <;> try (rename_i h; with_reducible rw [Prod.ext_iff] at h; have h' := h.2; dsimp only at h'; subst h'))
    | dsimp only

theorem redispatch_frame (a0) (s : State) (n : Nat) (hn : n ||| 0x100A000 = n) :
    blank n (redispatch a0 s) = blank n s := by
  refine blank_mono (m := 0x100A000) ?_ hn
  unfold redispatch
  repeat' first
    | with_reducible rfl
    | simp only [mk_100A000, takeFree, Nat.reduceOr, apply_ite (blank _), apply_ite (keeps _ s), ite_self, implies_true, foldl_blank, keeps_next, Option.elim]
    | (with_reducible refine (foldl_blank ?_ _ _).trans ?_; intro s x)
    | (split <;> try (rename_i h; with_reducible rw [Prod.ext_iff] at h; have h' := h.2; dsimp only at h'; subst h'))
    | dsimp only

theorem modCtl_frame (a0) (a1) (s : State) (n : Nat) (hn : n ||| 0x1000000 = n) :
    blank n (modCtl a0 a1 s) = blank n s := by
  refine blank_mono (m := 0x1000000) ?_ hn
  unfold modCtl
  repeat' first
    | with_reducible rfl
    | simp only [mk_1000000, takeFree, Nat.reduceOr, apply_ite (blank _), apply_ite (keeps _ s), ite_self, implies_true, foldl_blank, keeps_next, Option.elim]
    | (with_reducible refine (foldl_blank ?_ _ _).trans ?_; intro s x)
    | (split <;> try (rename_i h; with_reducible rw [Prod.ext_iff] at h; have h' := h.2; dsimp only at h'; subst h'))
    | dsimp only

theorem setCtl_frame (a0) (a1) (s : State) (n : Nat) (hn : n ||| 0x1000000 = n) :
    blank n (setCtl a0 a1 s) = blank n s := by
  refine blank_mono (m := 0x1000000) ?_ hn
  unfold setCtl
  repeat' first
    | with_reducible rfl
    | simp only [mk_1000000, takeFree, Nat.reduceOr, apply_ite (blank _), apply_ite (keeps _ s), ite_self, implies_true, foldl_blank, keeps_next, Option.elim, modCtl_frame]
    | (with_reducible refine (foldl_blank ?_ _ _).trans ?_; intro s x)
    | (split <;> try (rename_i h; with_reducible rw [Prod.ext_iff] at h; have h' := h.2; dsimp only at h'; subst h'))
    | dsimp only

theorem contain_frame (a0) (a1) (s : State) (n : Nat) (hn : n ||| 0x8320EC8E = n) :
    blank n (contain a0 a1 s) = blank n s := by
  refine blank_mono (m := 0x8320EC8E) ?_ hn
  unfold contain
  repeat' first
    | with_reducible rfl
    | simp only [mk_8320EC8E, takeFree, Nat.reduceOr, apply_ite (blank _), apply_ite (keeps _ s), ite_self, implies_true, foldl_blank, keeps_next, Option.elim, addTest_frame, redispatch_frame, modCtl_frame, setCtl_frame]
    | (with_reducible refine (foldl_blank ?_ _ _).trans ?_; intro s x)
    | (split <;> try (rename_i h; with_reducible rw [Prod.ext_iff] at h; have h' := h.2; dsimp only at h'; subst h'))
    | dsimp only

theorem copyShadow_frame (a0) (a1) (a2) (s : State) (n : Nat) (hn : n ||| 0x8F3DECAF = n) :
    blank n (copyShadow a0 a1 a2 s) = blank n s := by
  refine blank_mono (m := 0x8F3DECAF) ?_ hn
  unfold copyShadow
  repeat' first
    | with_reducible rfl
    | simp only [mk_8F3DECAF, takeFree, Nat.reduceOr, apply_ite (blank _), apply_ite (keeps _ s), ite_self, implies_true, foldl_blank, keeps_next, Option.elim, readStored_frame, placeObject_frame]
    | (with_reducible refine (foldl_blank ?_ _ _).trans ?_; intro s x)
    | (split <;> try (rename_i h; with_reducible rw [Prod.ext_iff] at h; have h' := h.2; dsimp only at h'; subst h'))
    | dsimp only

theorem correctedEvent_frame (a0) (a1) (s : State) (n : Nat) (hn : n ||| 0x83204C8E = n) :
    blank n (correctedEvent a0 a1 s) = blank n s := by
  refine blank_mono (m := 0x83204C8E) ?_ hn
  unfold correctedEvent
  repeat' first
    | with_reducible rfl
    | simp only [mk_83204C8E, takeFree, Nat.reduceOr, apply_ite (blank _), apply_ite (keeps _ s), ite_self, implies_true, foldl_blank, keeps_next, Option.elim, modCtl_frame, addTest_frame]
    | (with_reducible refine (foldl_blank ?_ _ _).trans ?_; intro s x)
    | (split <;> try (rename_i h; with_reducible rw [Prod.ext_iff] at h; have h' := h.2; dsimp only at h'; subst h'))
    | dsimp only

theorem countPreds_frame (a0) (s : State) (n : Nat) (hn : n ||| 0x8000 = n) :
    blank n (countPreds a0 s) = blank n s := by
  refine blank_mono (m := 0x8000) ?_ hn
  unfold countPreds
  repeat' first
    | with_reducible rfl
    | simp only [mk_8000, takeFree, Nat.reduceOr, apply_ite (blank _), apply_ite (keeps _ s), ite_self, implies_true, foldl_blank, keeps_next, Option.elim]
    | (with_reducible refine (foldl_blank ?_ _ _).trans ?_; intro s x)
    | (split <;> try (rename_i h; with_reducible rw [Prod.ext_iff] at h; have h' := h.2; dsimp only at h'; subst h'))
    | dsimp only

theorem fenceReport_frame (a0) (a1) (a2) (s : State) (n : Nat) (hn : n ||| 0x83244C8E = n) :
    blank n (fenceReport a0 a1 a2 s) = blank n s := by
  refine blank_mono (m := 0x83244C8E) ?_ hn
  unfold fenceReport
  repeat' first
    | with_reducible rfl
    | simp only [mk_83244C8E, takeFree, Nat.reduceOr, apply_ite (blank _), apply_ite (keeps _ s), ite_self, implies_true, foldl_blank, keeps_next, Option.elim, modPort_frame, record_frame]
    | (with_reducible refine (foldl_blank ?_ _ _).trans ?_; intro s x)
    | (split <;> try (rename_i h; with_reducible rw [Prod.ext_iff] at h; have h' := h.2; dsimp only at h'; subst h'))
    | dsimp only

theorem readDone_frame (a0) (a1) (a2) (s : State) (n : Nat) (hn : n ||| 0x83384C8E = n) :
    blank n (readDone a0 a1 a2 s) = blank n s := by
  refine blank_mono (m := 0x83384C8E) ?_ hn
  unfold readDone
  repeat' first
    | with_reducible rfl
    | simp only [mk_83384C8E, takeFree, Nat.reduceOr, apply_ite (blank _), apply_ite (keeps _ s), ite_self, implies_true, foldl_blank, keeps_next, Option.elim, blankDone_frame, modBlock_frame]
    | (with_reducible refine (foldl_blank ?_ _ _).trans ?_; intro s x)
    | (split <;> try (rename_i h; with_reducible rw [Prod.ext_iff] at h; have h' := h.2; dsimp only at h'; subst h'))
    | dsimp only

theorem settleRetiring_frame (s : State) (n : Nat) (hn : n ||| 0x83384C8E = n) :
    blank n (settleRetiring s) = blank n s := by
  refine blank_mono (m := 0x83384C8E) ?_ hn
  unfold settleRetiring
  repeat' first
    | with_reducible rfl
    | simp only [mk_83384C8E, takeFree, Nat.reduceOr, apply_ite (blank _), apply_ite (keeps _ s), ite_self, implies_true, foldl_blank, keeps_next, Option.elim, retireBlock_frame]
    | (with_reducible refine (foldl_blank ?_ _ _).trans ?_; intro s x)
    | (split <;> try (rename_i h; with_reducible rw [Prod.ext_iff] at h; have h' := h.2; dsimp only at h'; subst h'))
    | dsimp only

theorem suspectBlock_frame (a0) (a1) (a2) (a3) (s : State) (n : Nat) (hn : n ||| 0x83284C8E = n) :
    blank n (suspectBlock a0 a1 a2 a3 s) = blank n s := by
  refine blank_mono (m := 0x83284C8E) ?_ hn
  unfold suspectBlock
  repeat' first
    | with_reducible rfl
    | simp only [mk_83284C8E, takeFree, Nat.reduceOr, apply_ite (blank _), apply_ite (keeps _ s), ite_self, implies_true, foldl_blank, keeps_next, Option.elim, record_frame, modBlock_frame]
    | (with_reducible refine (foldl_blank ?_ _ _).trans ?_; intro s x)
    | (split <;> try (rename_i h; with_reducible rw [Prod.ext_iff] at h; have h' := h.2; dsimp only at h'; subst h'))
    | dsimp only

theorem programDone_frame (a0) (a1) (a2) (s : State) (n : Nat) (hn : n ||| 0x833C4C8E = n) :
    blank n (programDone a0 a1 a2 s) = blank n s := by
  refine blank_mono (m := 0x833C4C8E) ?_ hn
  unfold programDone
  repeat' first
    | with_reducible rfl
    | simp only [mk_833C4C8E, takeFree, Nat.reduceOr, apply_ite (blank _), apply_ite (keeps _ s), ite_self, implies_true, foldl_blank, keeps_next, Option.elim, modBlock_frame, modStripe_frame, record_frame, settleRetiring_frame, abandonBlock_frame, suspectBlock_frame, dmlIssue_frame]
    | (with_reducible refine (foldl_blank ?_ _ _).trans ?_; intro s x)
    | (split <;> try (rename_i h; with_reducible rw [Prod.ext_iff] at h; have h' := h.2; dsimp only at h'; subst h'))
    | dsimp only

theorem eraseDone_frame (a0) (a1) (a2) (s : State) (n : Nat) (hn : n ||| 0x833C4C8E = n) :
    blank n (eraseDone a0 a1 a2 s) = blank n s := by
  refine blank_mono (m := 0x833C4C8E) ?_ hn
  unfold eraseDone
  repeat' first
    | with_reducible rfl
    | simp only [mk_833C4C8E, takeFree, Nat.reduceOr, apply_ite (blank _), apply_ite (keeps _ s), ite_self, implies_true, foldl_blank, keeps_next, Option.elim, dmlIssue_frame, settleJoin_frame, retireBlock_frame, firstEntry_frame, modBlock_frame, erasePassed_frame, suspectBlock_frame]
    | (with_reducible refine (foldl_blank ?_ _ _).trans ?_; intro s x)
    | (split <;> try (rename_i h; with_reducible rw [Prod.ext_iff] at h; have h' := h.2; dsimp only at h'; subst h'))
    | dsimp only

theorem suspendDone_frame (a0) (a1) (a2) (a3) (s : State) (n : Nat) (hn : n ||| 0x802C0002 = n) :
    blank n (suspendDone a0 a1 a2 a3 s) = blank n s := by
  refine blank_mono (m := 0x802C0002) ?_ hn
  unfold suspendDone
  repeat' first
    | with_reducible rfl
    | simp only [mk_802C0002, takeFree, Nat.reduceOr, apply_ite (blank _), apply_ite (keeps _ s), ite_self, implies_true, foldl_blank, keeps_next, Option.elim, modBlock_frame, modPort_frame]
    | (with_reducible refine (foldl_blank ?_ _ _).trans ?_; intro s x)
    | (split <;> try (rename_i h; with_reducible rw [Prod.ext_iff] at h; have h' := h.2; dsimp only at h'; subst h'))
    | dsimp only

theorem firstUseDie_frame (a0) (a1) (s : State) (n : Nat) (hn : n ||| 0x80040000 = n) :
    blank n (firstUseDie a0 a1 s) = blank n s := by
  refine blank_mono (m := 0x80040000) ?_ hn
  unfold firstUseDie
  repeat' first
    | with_reducible rfl
    | simp only [mk_80040000, takeFree, Nat.reduceOr, apply_ite (blank _), apply_ite (keeps _ s), ite_self, implies_true, foldl_blank, keeps_next, Option.elim, dmlIssue_frame]
    | (with_reducible refine (foldl_blank ?_ _ _).trans ?_; intro s x)
    | (split <;> try (rename_i h; with_reducible rw [Prod.ext_iff] at h; have h' := h.2; dsimp only at h'; subst h'))
    | dsimp only

theorem reserveDone_frame (a0) (a1) (a2) (a3) (s : State) (n : Nat) (hn : n ||| 0x83244C8E = n) :
    blank n (reserveDone a0 a1 a2 a3 s) = blank n s := by
  refine blank_mono (m := 0x83244C8E) ?_ hn
  unfold reserveDone
  repeat' first
    | with_reducible rfl
    | simp only [mk_83244C8E, takeFree, Nat.reduceOr, apply_ite (blank _), apply_ite (keeps _ s), ite_self, implies_true, foldl_blank, keeps_next, Option.elim, modPort_frame, firstUseDie_frame, record_frame]
    | (with_reducible refine (foldl_blank ?_ _ _).trans ?_; intro s x)
    | (split <;> try (rename_i h; with_reducible rw [Prod.ext_iff] at h; have h' := h.2; dsimp only at h'; subst h'))
    | dsimp only

theorem releaseDone_frame (a0) (a1) (a2) (s : State) (n : Nat) (hn : n ||| 0x40000 = n) :
    blank n (releaseDone a0 a1 a2 s) = blank n s := by
  refine blank_mono (m := 0x40000) ?_ hn
  unfold releaseDone
  repeat' first
    | with_reducible rfl
    | simp only [mk_40000, takeFree, Nat.reduceOr, apply_ite (blank _), apply_ite (keeps _ s), ite_self, implies_true, foldl_blank, keeps_next, Option.elim, modPort_frame]
    | (with_reducible refine (foldl_blank ?_ _ _).trans ?_; intro s x)
    | (split <;> try (rename_i h; with_reducible rw [Prod.ext_iff] at h; have h' := h.2; dsimp only at h'; subst h'))
    | dsimp only

theorem reserveShare_frame (a0) (s : State) (n : Nat) (hn : n ||| 0x80040000 = n) :
    blank n (reserveShare a0 s) = blank n s := by
  refine blank_mono (m := 0x80040000) ?_ hn
  unfold reserveShare
  repeat' first
    | with_reducible rfl
    | simp only [mk_80040000, takeFree, Nat.reduceOr, apply_ite (blank _), apply_ite (keeps _ s), ite_self, implies_true, foldl_blank, keeps_next, Option.elim, dmlIssue_frame]
    | (with_reducible refine (foldl_blank ?_ _ _).trans ?_; intro s x)
    | (split <;> try (rename_i h; with_reducible rw [Prod.ext_iff] at h; have h' := h.2; dsimp only at h'; subst h'))
    | dsimp only

theorem fenceDone_frame (a0) (a1) (a2) (s : State) (n : Nat) (hn : n ||| 0x83244C8E = n) :
    blank n (fenceDone a0 a1 a2 s) = blank n s := by
  refine blank_mono (m := 0x83244C8E) ?_ hn
  unfold fenceDone
  repeat' first
    | with_reducible rfl
    | simp only [mk_83244C8E, takeFree, Nat.reduceOr, apply_ite (blank _), apply_ite (keeps _ s), ite_self, implies_true, foldl_blank, keeps_next, Option.elim, reserveShare_frame, record_frame, fenceReport_frame, modPort_frame]
    | (with_reducible refine (foldl_blank ?_ _ _).trans ?_; intro s x)
    | (split <;> try (rename_i h; with_reducible rw [Prod.ext_iff] at h; have h' := h.2; dsimp only at h'; subst h'))
    | dsimp only

theorem unfenceDone_frame (a0) (a1) (a2) (s : State) (n : Nat) (hn : n ||| 0x83244C8E = n) :
    blank n (unfenceDone a0 a1 a2 s) = blank n s := by
  refine blank_mono (m := 0x83244C8E) ?_ hn
  unfold unfenceDone
  repeat' first
    | with_reducible rfl
    | simp only [mk_83244C8E, takeFree, Nat.reduceOr, apply_ite (blank _), apply_ite (keeps _ s), ite_self, implies_true, foldl_blank, keeps_next, Option.elim, record_frame, fenceReport_frame, dmlIssue_frame, modPort_frame]
    | (with_reducible refine (foldl_blank ?_ _ _).trans ?_; intro s x)
    | (split <;> try (rename_i h; with_reducible rw [Prod.ext_iff] at h; have h' := h.2; dsimp only at h'; subst h'))
    | dsimp only

theorem cplMeaning_frame (a0) (a1) (a2) (a3) (s : State) (n : Nat) (hn : n ||| 0x833C4C8E = n) :
    blank n (cplMeaning a0 a1 a2 a3 s) = blank n s := by
  refine blank_mono (m := 0x833C4C8E) ?_ hn
  unfold cplMeaning
  repeat' first
    | with_reducible rfl
    | simp only [mk_833C4C8E, takeFree, Nat.reduceOr, apply_ite (blank _), apply_ite (keeps _ s), ite_self, implies_true, foldl_blank, keeps_next, Option.elim, fenceReport_frame, readDone_frame, programDone_frame, eraseDone_frame, suspendDone_frame, modPort_frame, reserveDone_frame, releaseDone_frame, fenceDone_frame, unfenceDone_frame]
    | (with_reducible refine (foldl_blank ?_ _ _).trans ?_; intro s x)
    | (split <;> try (rename_i h; with_reducible rw [Prod.ext_iff] at h; have h' := h.2; dsimp only at h'; subst h'))
    | dsimp only

theorem createDedupKey_frame (a0) (s : State) (n : Nat) (hn : n ||| 0x83295C8E = n) :
    blank n (createDedupKey a0 s).2 = blank n s := by
  refine blank_mono (m := 0x83295C8E) ?_ hn
  unfold createDedupKey
  repeat' first
    | with_reducible rfl
    | simp only [mk_83295C8E, takeFree, Nat.reduceOr, apply_ite (blank _), apply_ite (keeps _ s), ite_self, implies_true, foldl_blank, keeps_next, Option.elim, drawKey_frame, putKeySlot_frame, noteKeys_frame, sendDelta_frame, keyGenUp_frame]
    | (with_reducible refine (foldl_blank ?_ _ _).trans ?_; intro s x)
    | (split <;> try (rename_i h; with_reducible rw [Prod.ext_iff] at h; have h' := h.2; dsimp only at h'; subst h'))
    | dsimp only

theorem drawOther_frame (a0) (s : State) (n : Nat) (hn : n ||| 0x83295C8E = n) :
    blank n (drawOther a0 s).2 = blank n s := by
  refine blank_mono (m := 0x83295C8E) ?_ hn
  unfold drawOther
  repeat' first
    | with_reducible rfl
    | simp only [mk_83295C8E, takeFree, Nat.reduceOr, apply_ite (blank _), apply_ite (keeps _ s), ite_self, implies_true, foldl_blank, keeps_next, Option.elim, drawKey_frame]
    | (with_reducible refine (foldl_blank ?_ _ _).trans ?_; intro s x)
    | (split <;> try (rename_i h; with_reducible rw [Prod.ext_iff] at h; have h' := h.2; dsimp only at h'; subst h'))
    | dsimp only

theorem createTenantKeys_frame (a0) (s : State) (n : Nat) (hn : n ||| 0x83295C8E = n) :
    blank n (createTenantKeys a0 s) = blank n s := by
  refine blank_mono (m := 0x83295C8E) ?_ hn
  unfold createTenantKeys
  repeat' first
    | with_reducible rfl
    | simp only [mk_83295C8E, takeFree, Nat.reduceOr, apply_ite (blank _), apply_ite (keeps _ s), ite_self, implies_true, foldl_blank, keeps_next, Option.elim, drawKey_frame, drawOther_frame, record_frame, keyGenUp_frame, sendDelta_frame]
    | (with_reducible refine (foldl_blank ?_ _ _).trans ?_; intro s x)
    | (split <;> try (rename_i h; with_reducible rw [Prod.ext_iff] at h; have h' := h.2; dsimp only at h'; subst h'))
    | dsimp only

theorem csUnlock_frame (s : State) (n : Nat) (hn : n ||| 0x183214C8E = n) :
    blank n (csUnlock s) = blank n s := by
  refine blank_mono (m := 0x183214C8E) ?_ hn
  unfold csUnlock
  repeat' first
    | with_reducible rfl
    | simp only [mk_183214C8E, takeFree, Nat.reduceOr, apply_ite (blank _), apply_ite (keeps _ s), ite_self, implies_true, foldl_blank, keeps_next, Option.elim, record_frame]
    | (with_reducible refine (foldl_blank ?_ _ _).trans ?_; intro s x)
    | (split <;> try (rename_i h; with_reducible rw [Prod.ext_iff] at h; have h' := h.2; dsimp only at h'; subst h'))
    | dsimp only

theorem dropRead_frame (a0) (s : State) (n : Nat) (hn : n ||| 0x80000 = n) :
    blank n (dropRead a0 s) = blank n s := by
  refine blank_mono (m := 0x80000) ?_ hn
  unfold dropRead
  repeat' first
    | with_reducible rfl
    | simp only [mk_80000, takeFree, Nat.reduceOr, apply_ite (blank _), apply_ite (keeps _ s), ite_self, implies_true, foldl_blank, keeps_next, Option.elim]
    | (with_reducible refine (foldl_blank ?_ _ _).trans ?_; intro s x)
    | (split <;> try (rename_i h; with_reducible rw [Prod.ext_iff] at h; have h' := h.2; dsimp only at h'; subst h'))
    | dsimp only

theorem cwDecoded_frame (a0) (a1) (s : State) (n : Nat) (hn : n ||| 0x83284C8E = n) :
    blank n (cwDecoded a0 a1 s) = blank n s := by
  refine blank_mono (m := 0x83284C8E) ?_ hn
  unfold cwDecoded
  repeat' first
    | with_reducible rfl
    | simp only [mk_83284C8E, takeFree, Nat.reduceOr, apply_ite (blank _), apply_ite (keeps _ s), ite_self, implies_true, foldl_blank, keeps_next, Option.elim, dropRead_frame, modBlock_frame, record_frame]
    | (with_reducible refine (foldl_blank ?_ _ _).trans ?_; intro s x)
    | (split <;> try (rename_i h; with_reducible rw [Prod.ext_iff] at h; have h' := h.2; dsimp only at h'; subst h'))
    | dsimp only

theorem putRead_frame (a0) (s : State) (n : Nat) (hn : n ||| 0x1832C5C8E = n) :
    blank n (putRead a0 s) = blank n s := by
  refine blank_mono (m := 0x1832C5C8E) ?_ hn
  unfold putRead
  repeat' first
    | with_reducible rfl
    | simp only [mk_1832C5C8E, takeFree, Nat.reduceOr, apply_ite (blank _), apply_ite (keeps _ s), ite_self, implies_true, foldl_blank, keeps_next, Option.elim, askPage_frame]
    | (with_reducible refine (foldl_blank ?_ _ _).trans ?_; intro s x)
    | (split <;> try (rename_i h; with_reducible rw [Prod.ext_iff] at h; have h' := h.2; dsimp only at h'; subst h'))
    | dsimp only

theorem cwFailed_frame (a0) (a1) (a2) (s : State) (n : Nat) (hn : n ||| 0x1833C5C8E = n) :
    blank n (cwFailed a0 a1 a2 s) = blank n s := by
  refine blank_mono (m := 0x1833C5C8E) ?_ hn
  unfold cwFailed
  repeat' first
    | with_reducible rfl
    | simp only [mk_1833C5C8E, takeFree, Nat.reduceOr, apply_ite (blank _), apply_ite (keeps _ s), ite_self, implies_true, foldl_blank, keeps_next, Option.elim, putRead_frame, record_frame, dropRead_frame, addTargets_frame]
    | (with_reducible refine (foldl_blank ?_ _ _).trans ?_; intro s x)
    | (split <;> try (rename_i h; with_reducible rw [Prod.ext_iff] at h; have h' := h.2; dsimp only at h'; subst h'))
    | dsimp only

theorem modCmd_frame (a0) (a1) (a2) (s : State) (n : Nat) (hn : n ||| 0x400 = n) :
    blank n (modCmd a0 a1 a2 s) = blank n s := by
  refine blank_mono (m := 0x400) ?_ hn
  unfold modCmd
  repeat' first
    | with_reducible rfl
    | simp only [mk_400, takeFree, Nat.reduceOr, apply_ite (blank _), apply_ite (keeps _ s), ite_self, implies_true, foldl_blank, keeps_next, Option.elim]
    | (with_reducible refine (foldl_blank ?_ _ _).trans ?_; intro s x)
    | (split <;> try (rename_i h; with_reducible rw [Prod.ext_iff] at h; have h' := h.2; dsimp only at h'; subst h'))
    | dsimp only

theorem dataArrived_frame (a0) (a1) (a2) (s : State) (n : Nat) (hn : n ||| 0x83216C8E = n) :
    blank n (dataArrived a0 a1 a2 s) = blank n s := by
  refine blank_mono (m := 0x83216C8E) ?_ hn
  unfold dataArrived
  repeat' first
    | with_reducible rfl
    | simp only [mk_83216C8E, takeFree, Nat.reduceOr, apply_ite (blank _), apply_ite (keeps _ s), ite_self, implies_true, foldl_blank, keeps_next, Option.elim, finish_frame, unreserve_frame, modCmd_frame, record_frame]
    | (with_reducible refine (foldl_blank ?_ _ _).trans ?_; intro s x)
    | (split <;> try (rename_i h; with_reducible rw [Prod.ext_iff] at h; have h' := h.2; dsimp only at h'; subst h'))
    | dsimp only

theorem deleteDedupKey_frame (a0) (s : State) (n : Nat) (hn : n ||| 0x80210002 = n) :
    blank n (deleteDedupKey a0 s) = blank n s := by
  refine blank_mono (m := 0x80210002) ?_ hn
  unfold deleteDedupKey
  repeat' first
    | with_reducible rfl
    | simp only [mk_80210002, takeFree, Nat.reduceOr, apply_ite (blank _), apply_ite (keeps _ s), ite_self, implies_true, foldl_blank, keeps_next, Option.elim, putKeySlot_frame, noteKeys_frame, sendDelta_frame, keyGenUp_frame]
    | (with_reducible refine (foldl_blank ?_ _ _).trans ?_; intro s x)
    | (split <;> try (rename_i h; with_reducible rw [Prod.ext_iff] at h; have h' := h.2; dsimp only at h'; subst h'))
    | dsimp only

theorem dropCopies_frame (a0) (s : State) (n : Nat) (hn : n ||| 0x4000 = n) :
    blank n (dropCopies a0 s) = blank n s := by
  refine blank_mono (m := 0x4000) ?_ hn
  unfold dropCopies
  repeat' first
    | with_reducible rfl
    | simp only [mk_4000, takeFree, Nat.reduceOr, apply_ite (blank _), apply_ite (keeps _ s), ite_self, implies_true, foldl_blank, keeps_next, Option.elim, modPair_frame]
    | (with_reducible refine (foldl_blank ?_ _ _).trans ?_; intro s x)
    | (split <;> try (rename_i h; with_reducible rw [Prod.ext_iff] at h; have h' := h.2; dsimp only at h'; subst h'))
    | dsimp only

theorem destroyTenantKeys_frame (a0) (s : State) (n : Nat) (hn : n ||| 0x83214C8E = n) :
    blank n (destroyTenantKeys a0 s) = blank n s := by
  refine blank_mono (m := 0x83214C8E) ?_ hn
  unfold destroyTenantKeys
  repeat' first
    | with_reducible rfl
    | simp only [mk_83214C8E, takeFree, Nat.reduceOr, apply_ite (blank _), apply_ite (keeps _ s), ite_self, implies_true, foldl_blank, keeps_next, Option.elim, record_frame, keyGenUp_frame, sendDelta_frame]
    | (with_reducible refine (foldl_blank ?_ _ _).trans ?_; intro s x)
    | (split <;> try (rename_i h; with_reducible rw [Prod.ext_iff] at h; have h' := h.2; dsimp only at h'; subst h'))
    | dsimp only

theorem tenantGone_frame (a0) (s : State) (n : Nat) (hn : n ||| 0x83214C8E = n) :
    blank n (tenantGone a0 s) = blank n s := by
  refine blank_mono (m := 0x83214C8E) ?_ hn
  unfold tenantGone
  repeat' first
    | with_reducible rfl
    | simp only [mk_83214C8E, takeFree, Nat.reduceOr, apply_ite (blank _), apply_ite (keeps _ s), ite_self, implies_true, foldl_blank, keeps_next, Option.elim, record_frame, deleteDedupKey_frame, destroyTenantKeys_frame]
    | (with_reducible refine (foldl_blank ?_ _ _).trans ?_; intro s x)
    | (split <;> try (rename_i h; with_reducible rw [Prod.ext_iff] at h; have h' := h.2; dsimp only at h'; subst h'))
    | dsimp only

theorem deleteVolume_frame (a0) (s : State) (n : Nat) (hn : n ||| 0x83396C8E = n) :
    blank n (deleteVolume a0 s) = blank n s := by
  refine blank_mono (m := 0x83396C8E) ?_ hn
  unfold deleteVolume
  repeat' first
    | with_reducible rfl
    | simp only [mk_83396C8E, takeFree, Nat.reduceOr, apply_ite (blank _), apply_ite (keeps _ s), ite_self, implies_true, foldl_blank, keeps_next, Option.elim, abandonJob_frame, dropCopies_frame, dropPairs_frame, noteMapChange_frame, sendDelta_frame, rebudget_frame, tenantGone_frame, record_frame]
    | (with_reducible refine (foldl_blank ?_ _ _).trans ?_; intro s x)
    | (split <;> try (rename_i h; with_reducible rw [Prod.ext_iff] at h; have h' := h.2; dsimp only at h'; subst h'))
    | dsimp only

theorem hostWriteReq_frame (a0) (a1) (a2) (s : State) (n : Nat) (hn : n ||| 0x80000080 = n) :
    blank n (hostWriteReq a0 a1 a2 s) = blank n s := by
  refine blank_mono (m := 0x80000080) ?_ hn
  unfold hostWriteReq
  repeat' first
    | with_reducible rfl
    | simp only [mk_80000080, takeFree, Nat.reduceOr, apply_ite (blank _), apply_ite (keeps _ s), ite_self, implies_true, foldl_blank, keeps_next, Option.elim, modEp_frame, postReq_frame]
    | (with_reducible refine (foldl_blank ?_ _ _).trans ?_; intro s x)
    | (split <;> try (rename_i h; with_reducible rw [Prod.ext_iff] at h; have h' := h.2; dsimp only at h'; subst h'))
    | dsimp only

theorem deliver_frame (a0) (a1) (a2) (s : State) (n : Nat) (hn : n ||| 0x90200082 = n) :
    blank n (deliver a0 a1 a2 s) = blank n s := by
  refine blank_mono (m := 0x90200082) ?_ hn
  unfold deliver
  repeat' first
    | with_reducible rfl
    | simp only [mk_90200082, takeFree, Nat.reduceOr, apply_ite (blank _), apply_ite (keeps _ s), ite_self, implies_true, foldl_blank, keeps_next, Option.elim, xhlSend_frame, hostWriteReq_frame]
    | (with_reducible refine (foldl_blank ?_ _ _).trans ?_; intro s x)
    | (split <;> try (rename_i h; with_reducible rw [Prod.ext_iff] at h; have h' := h.2; dsimp only at h'; subst h'))
    | dsimp only

theorem diesOn_frame (s : State) (n : Nat) (hn : n ||| 0x80040000 = n) :
    blank n (diesOn s) = blank n s := by
  refine blank_mono (m := 0x80040000) ?_ hn
  unfold diesOn
  repeat' first
    | with_reducible rfl
    | simp only [mk_80040000, takeFree, Nat.reduceOr, apply_ite (blank _), apply_ite (keeps _ s), ite_self, implies_true, foldl_blank, keeps_next, Option.elim, dmlRun_frame]
    | (with_reducible refine (foldl_blank ?_ _ _).trans ?_; intro s x)
    | (split <;> try (rename_i h; with_reducible rw [Prod.ext_iff] at h; have h' := h.2; dsimp only at h'; subst h'))
    | dsimp only

theorem endTag_frame (a0) (a1) (a2) (a3) (a4) (a5) (s : State) (n : Nat) (hn : n ||| 0x83204C8E = n) :
    blank n (endTag a0 a1 a2 a3 a4 a5 s) = blank n s := by
  refine blank_mono (m := 0x83204C8E) ?_ hn
  unfold endTag
  repeat' first
    | with_reducible rfl
    | simp only [mk_83204C8E, takeFree, Nat.reduceOr, apply_ite (blank _), apply_ite (keeps _ s), ite_self, implies_true, foldl_blank, keeps_next, Option.elim, finishRemote_frame, finish_frame]
    | (with_reducible refine (foldl_blank ?_ _ _).trans ?_; intro s x)
    | (split <;> try (rename_i h; with_reducible rw [Prod.ext_iff] at h; have h' := h.2; dsimp only at h'; subst h'))
    | dsimp only

theorem digClear_frame (a0) (a1) (s : State) (n : Nat) (hn : n ||| 0x83224C8E = n) :
    blank n (digClear a0 a1 s) = blank n s := by
  refine blank_mono (m := 0x83224C8E) ?_ hn
  unfold digClear
  repeat' first
    | with_reducible rfl
    | simp only [mk_83224C8E, takeFree, Nat.reduceOr, apply_ite (blank _), apply_ite (keeps _ s), ite_self, implies_true, foldl_blank, keeps_next, Option.elim, record_frame, endTag_frame]
    | (with_reducible refine (foldl_blank ?_ _ _).trans ?_; intro s x)
    | (split <;> try (rename_i h; with_reducible rw [Prod.ext_iff] at h; have h' := h.2; dsimp only at h'; subst h'))
    | dsimp only

theorem setLive_frame (a0) (a1) (a2) (a3) (s : State) (n : Nat) (hn : n ||| 0x83384C8E = n) :
    blank n (setLive a0 a1 a2 a3 s) = blank n s := by
  refine blank_mono (m := 0x83384C8E) ?_ hn
  unfold setLive
  repeat' first
    | with_reducible rfl
    | simp only [mk_83384C8E, takeFree, Nat.reduceOr, apply_ite (blank _), apply_ite (keeps _ s), ite_self, implies_true, foldl_blank, keeps_next, Option.elim, ownPair_frame, modPair_frame, releaseEntry_frame, noteMapChange_frame, sendDelta_frame]
    | (with_reducible refine (foldl_blank ?_ _ _).trans ?_; intro s x)
    | (split <;> try (rename_i h; with_reducible rw [Prod.ext_iff] at h; have h' := h.2; dsimp only at h'; subst h'))
    | dsimp only

theorem discardChunks_frame (a0) (s : State) (n : Nat) (hn : n ||| 0x83384C8E = n) :
    blank n (discardChunks a0 s) = blank n s := by
  refine blank_mono (m := 0x83384C8E) ?_ hn
  unfold discardChunks
  repeat' first
    | with_reducible rfl
    | simp only [mk_83384C8E, takeFree, Nat.reduceOr, apply_ite (blank _), apply_ite (keeps _ s), ite_self, implies_true, foldl_blank, keeps_next, Option.elim, setLive_frame, modVol_frame]
    | (with_reducible refine (foldl_blank ?_ _ _).trans ?_; intro s x)
    | (split <;> try (rename_i h; with_reducible rw [Prod.ext_iff] at h; have h' := h.2; dsimp only at h'; subst h'))
    | dsimp only

theorem discardFlit_frame (a0) (s : State) (n : Nat) (hn : n ||| 0x80040000 = n) :
    blank n (discardFlit a0 s) = blank n s := by
  refine blank_mono (m := 0x80040000) ?_ hn
  unfold discardFlit
  repeat' first
    | with_reducible rfl
    | simp only [mk_80040000, takeFree, Nat.reduceOr, apply_ite (blank _), apply_ite (keeps _ s), ite_self, implies_true, foldl_blank, keeps_next, Option.elim, emit_frame, modPort_frame]
    | (with_reducible refine (foldl_blank ?_ _ _).trans ?_; intro s x)
    | (split <;> try (rename_i h; with_reducible rw [Prod.ext_iff] at h; have h' := h.2; dsimp only at h'; subst h'))
    | dsimp only

theorem doorbell_frame (a0) (a1) (a2) (a3) (s : State) (n : Nat) (hn : n ||| 0x83204C8E = n) (h0 : ∀ x, blank n (a3 x) = blank n x) :
    blank n (doorbell a0 a1 a2 a3 s) = blank n s := by
  unfold doorbell
  repeat' first
    | with_reducible rfl
    | exact h0 _
    | exact outside_frame _ _ _ _ _ (or_sub hn rfl)
    | exact barWrite_frame _ _ _ _ _ (or_sub hn rfl) (fun t => by first | (dsimp only; split <;> first | rfl | exact h0 _) | (split <;> first | rfl | exact h0 _))
    | split

theorem drainDeltas_frame (a0) (s : State) (n : Nat) (hn : n ||| 0x83396C8E = n) :
    blank n (drainDeltas a0 s) = blank n s := by
  refine blank_mono (m := 0x83396C8E) ?_ hn
  induction a0 generalizing s with
  | zero => rfl
  | succ k ih =>
    rw [drainDeltas]
    repeat' first
      | with_reducible rfl
      | simp only [mk_83396C8E, takeFree, Nat.reduceOr, apply_ite (blank _), apply_ite (keeps _ s), ite_self, implies_true, foldl_blank, keeps_next, Option.elim, applyMessage_frame, ih]
      | (split <;> try (rename_i h; with_reducible rw [Prod.ext_iff] at h; have h' := h.2; dsimp only at h'; subst h'))

theorem rhTrip_frame (a0) (a1) (s : State) (n : Nat) (hn : n ||| 0x83604C8E = n) :
    blank n (rhTrip a0 a1 s) = blank n s := by
  refine blank_mono (m := 0x83604C8E) ?_ hn
  unfold rhTrip
  repeat' first
    | with_reducible rfl
    | simp only [mk_83604C8E, takeFree, Nat.reduceOr, apply_ite (blank _), apply_ite (keeps _ s), ite_self, implies_true, foldl_blank, keeps_next, Option.elim, closeRow_frame, emit_frame, modChan_frame, record_frame]
    | (with_reducible refine (foldl_blank ?_ _ _).trans ?_; intro s x)
    | (split <;> try (rename_i h; with_reducible rw [Prod.ext_iff] at h; have h' := h.2; dsimp only at h'; subst h'))
    | dsimp only

theorem dramActivate_frame (a0) (a1) (s : State) (n : Nat) (hn : n ||| 0x83604C8E = n) :
    blank n (dramActivate a0 a1 s) = blank n s := by
  refine blank_mono (m := 0x83604C8E) ?_ hn
  unfold dramActivate
  repeat' first
    | with_reducible rfl
    | simp only [mk_83604C8E, takeFree, Nat.reduceOr, apply_ite (blank _), apply_ite (keeps _ s), ite_self, implies_true, foldl_blank, keeps_next, Option.elim, modChan_frame, rhTrip_frame]
    | (with_reducible refine (foldl_blank ?_ _ _).trans ?_; intro s x)
    | (split <;> try (rename_i h; with_reducible rw [Prod.ext_iff] at h; have h' := h.2; dsimp only at h'; subst h'))
    | dsimp only

theorem dramArrive_frame (s : State) (a1) (n : Nat) (hn : n ||| 0x400000 = n) :
    blank n (dramArrive s a1) = blank n s := by
  refine blank_mono (m := 0x400000) ?_ hn
  unfold dramArrive
  generalize placeOf s a1.pa = p
  cases p with
  | none => rfl
  | some p => exact modChan_frame _ _ _ _ rfl

theorem dramCorrected_frame (a0) (a1) (a2) (s : State) (n : Nat) (hn : n ||| 0x83604C8E = n) :
    blank n (dramCorrected a0 a1 a2 s) = blank n s := by
  refine blank_mono (m := 0x83604C8E) ?_ hn
  unfold dramCorrected
  repeat' first
    | with_reducible rfl
    | simp only [mk_83604C8E, takeFree, Nat.reduceOr, apply_ite (blank _), apply_ite (keeps _ s), ite_self, implies_true, foldl_blank, keeps_next, Option.elim, modChan_frame, emit_frame, correctedEvent_frame, record_frame, recordAlert_frame]
    | (with_reducible refine (foldl_blank ?_ _ _).trans ?_; intro s x)
    | (split <;> try (rename_i h; with_reducible rw [Prod.ext_iff] at h; have h' := h.2; dsimp only at h'; subst h'))
    | dsimp only

theorem rhFresh_frame (s : State) (a1) (a2) (n : Nat) (hn : n ||| 0x400000 = n) :
    blank n (rhFresh s a1 a2) = blank n s := by
  refine blank_mono (m := 0x400000) ?_ hn
  unfold rhFresh
  repeat' first
    | with_reducible rfl
    | simp only [mk_400000, takeFree, Nat.reduceOr, apply_ite (blank _), apply_ite (keeps _ s), ite_self, implies_true, foldl_blank, keeps_next, Option.elim, modChan_frame]
    | (with_reducible refine (foldl_blank ?_ _ _).trans ?_; intro s x)
    | (split <;> try (rename_i h; with_reducible rw [Prod.ext_iff] at h; have h' := h.2; dsimp only at h'; subst h'))
    | dsimp only

theorem dramGrantOne_frame (a0) (a1) (s : State) (n : Nat) (hn : n ||| 0x83604C8E = n) :
    blank n (dramGrantOne a0 a1 s) = blank n s := by
  refine blank_mono (m := 0x83604C8E) ?_ hn
  unfold dramGrantOne
  repeat' first
    | with_reducible rfl
    | simp only [mk_83604C8E, takeFree, Nat.reduceOr, apply_ite (blank _), apply_ite (keeps _ s), ite_self, implies_true, foldl_blank, keeps_next, Option.elim, rhFresh_frame, closeRow_frame, emit_frame, modChan_frame, dramActivate_frame]
    | (with_reducible refine (foldl_blank ?_ _ _).trans ?_; intro s x)
    | (split <;> try (rename_i h; with_reducible rw [Prod.ext_iff] at h; have h' := h.2; dsimp only at h'; subst h'))
    | dsimp only

theorem dramGrants_frame (a0) (a1) (s : State) (n : Nat) (hn : n ||| 0x83604C8E = n) :
    blank n (dramGrants a0 a1 s) = blank n s := by
  refine blank_mono (m := 0x83604C8E) ?_ hn
  induction a1 generalizing s with
  | zero => rfl
  | succ k ih =>
    rw [dramGrants]
    repeat' first
      | with_reducible rfl
      | (rw [ih]; done)
      | rw [ih]
      | simp only [mk_83604C8E, takeFree, Nat.reduceOr, apply_ite (blank _), apply_ite (keeps _ s), ite_self, implies_true, foldl_blank, keeps_next, Option.elim, dramGrantOne_frame]
      | split
      | dsimp only

theorem dramUncorrectable_frame (a0) (a1) (s : State) (n : Nat) (hn : n ||| 0x8F62ECAF = n) :
    blank n (dramUncorrectable a0 a1 s) = blank n s := by
  refine blank_mono (m := 0x8F62ECAF) ?_ hn
  unfold dramUncorrectable
  repeat' first
    | with_reducible rfl
    | simp only [mk_8F62ECAF, takeFree, Nat.reduceOr, apply_ite (blank _), apply_ite (keeps _ s), ite_self, implies_true, foldl_blank, keeps_next, Option.elim, modChan_frame, record_frame, addTest_frame, emit_frame, digClear_frame, contain_frame, failstop_frame]
    | (with_reducible refine (foldl_blank ?_ _ _).trans ?_; intro s x)
    | (split <;> try (rename_i h; with_reducible rw [Prod.ext_iff] at h; have h' := h.2; dsimp only at h'; subst h'))
    | dsimp only

theorem dramRead_frame (a0) (a1) (a2) (a3) (s : State) (n : Nat) (hn : n ||| 0x8F62ECAF = n) :
    blank n (dramRead a0 a1 a2 a3 s) = blank n s := by
  refine blank_mono (m := 0x8F62ECAF) ?_ hn
  unfold dramRead
  repeat' first
    | with_reducible rfl
    | simp only [mk_8F62ECAF, takeFree, Nat.reduceOr, apply_ite (blank _), apply_ite (keeps _ s), ite_self, implies_true, foldl_blank, keeps_next, Option.elim, dramCorrected_frame, dramUncorrectable_frame]
    | (with_reducible refine (foldl_blank ?_ _ _).trans ?_; intro s x)
    | (split <;> try (rename_i h; with_reducible rw [Prod.ext_iff] at h; have h' := h.2; dsimp only at h'; subst h'))
    | dsimp only

theorem dramServe_frame (a0) (s : State) (n : Nat) (hn : n ||| 0x83604C8E = n) :
    blank n (dramServe a0 s) = blank n s := by
  refine blank_mono (m := 0x83604C8E) ?_ hn
  unfold dramServe
  repeat' first
    | with_reducible rfl
    | simp only [mk_83604C8E, takeFree, Nat.reduceOr, apply_ite (blank _), apply_ite (keeps _ s), ite_self, implies_true, foldl_blank, keeps_next, Option.elim, dramGrants_frame]
    | (with_reducible refine (foldl_blank ?_ _ _).trans ?_; intro s x)
    | (split <;> try (rename_i h; with_reducible rw [Prod.ext_iff] at h; have h' := h.2; dsimp only at h'; subst h'))
    | dsimp only

theorem secAlarm_frame (a0) (a1) (s : State) (n : Nat) (hn : n ||| 0xB3A34C8E = n) :
    blank n (secAlarm a0 a1 s) = blank n s := by
  refine blank_mono (m := 0xB3A34C8E) ?_ hn
  unfold secAlarm
  repeat' first
    | with_reducible rfl
    | simp only [mk_B3A34C8E, takeFree, Nat.reduceOr, apply_ite (blank _), apply_ite (keeps _ s), ite_self, implies_true, foldl_blank, keeps_next, Option.elim, digClear_frame, csAbort_frame, recordAlert_frame]
    | (with_reducible refine (foldl_blank ?_ _ _).trans ?_; intro s x)
    | (split <;> try (rename_i h; with_reducible rw [Prod.ext_iff] at h; have h' := h.2; dsimp only at h'; subst h'))
    | dsimp only

theorem drbgFailure_frame (s : State) (n : Nat) (hn : n ||| 0xBFA36CAF = n) :
    blank n (drbgFailure s) = blank n s := by
  refine blank_mono (m := 0xBFA36CAF) ?_ hn
  unfold drbgFailure
  repeat' first
    | with_reducible rfl
    | simp only [mk_BFA36CAF, takeFree, Nat.reduceOr, apply_ite (blank _), apply_ite (keeps _ s), ite_self, implies_true, foldl_blank, keeps_next, Option.elim, record_frame, secAlarm_frame, failstop_frame, addTest_frame]
    | (with_reducible refine (foldl_blank ?_ _ _).trans ?_; intro s x)
    | (split <;> try (rename_i h; with_reducible rw [Prod.ext_iff] at h; have h' := h.2; dsimp only at h'; subst h'))
    | dsimp only

theorem dropFilling_frame (a0) (a1) (s : State) (n : Nat) (hn : n ||| 0x83206C8E = n) :
    blank n (dropFilling a0 a1 s) = blank n s := by
  refine blank_mono (m := 0x83206C8E) ?_ hn
  unfold dropFilling
  repeat' first
    | with_reducible rfl
    | simp only [mk_83206C8E, takeFree, Nat.reduceOr, apply_ite (blank _), apply_ite (keeps _ s), ite_self, implies_true, foldl_blank, keeps_next, Option.elim, rebudget_frame]
    | (with_reducible refine (foldl_blank ?_ _ _).trans ?_; intro s x)
    | (split <;> try (rename_i h; with_reducible rw [Prod.ext_iff] at h; have h' := h.2; dsimp only at h'; subst h'))
    | dsimp only

theorem dropHolds_frame (s : State) (n : Nat) (hn : n ||| 0x83206C8E = n) :
    blank n (dropHolds s) = blank n s := by
  refine blank_mono (m := 0x83206C8E) ?_ hn
  unfold dropHolds
  repeat' first
    | with_reducible rfl
    | simp only [mk_83206C8E, takeFree, Nat.reduceOr, apply_ite (blank _), apply_ite (keeps _ s), ite_self, implies_true, foldl_blank, keeps_next, Option.elim, endTag_frame]
    | (with_reducible refine (foldl_blank ?_ _ _).trans ?_; intro s x)
    | (split <;> try (rename_i h; with_reducible rw [Prod.ext_iff] at h; have h' := h.2; dsimp only at h'; subst h'))
    | dsimp only

theorem dropTargets_frame (a0) (s : State) (n : Nat) (hn : n ||| 0x100000 = n) :
    blank n (dropTargets a0 s) = blank n s := by
  refine blank_mono (m := 0x100000) ?_ hn
  unfold dropTargets
  repeat' first
    | with_reducible rfl
    | simp only [mk_100000, takeFree, Nat.reduceOr, apply_ite (blank _), apply_ite (keeps _ s), ite_self, implies_true, foldl_blank, keeps_next, Option.elim]
    | (with_reducible refine (foldl_blank ?_ _ _).trans ?_; intro s x)
    | (split <;> try (rename_i h; with_reducible rw [Prod.ext_iff] at h; have h' := h.2; dsimp only at h'; subst h'))
    | dsimp only

theorem shiftCivil_frame (a0) (s : State) (n : Nat) (hn : n ||| 0xC = n) :
    blank n (shiftCivil a0 s) = blank n s := by
  refine blank_mono (m := 0xC) ?_ hn
  unfold shiftCivil
  repeat' first
    | with_reducible rfl
    | simp only [mk_C, takeFree, Nat.reduceOr, apply_ite (blank _), apply_ite (keeps _ s), ite_self, implies_true, foldl_blank, keeps_next, Option.elim, bumpHigh_frame, keepCivil_frame]
    | (with_reducible refine (foldl_blank ?_ _ _).trans ?_; intro s x)
    | (split <;> try (rename_i h; with_reducible rw [Prod.ext_iff] at h; have h' := h.2; dsimp only at h'; subst h'))
    | dsimp only

theorem refCorrect_frame (a0) (s : State) (n : Nat) (hn : n ||| 0x83204C8E = n) :
    blank n (refCorrect a0 s) = blank n s := by
  refine blank_mono (m := 0x83204C8E) ?_ hn
  unfold refCorrect
  repeat' first
    | with_reducible rfl
    | simp only [mk_83204C8E, takeFree, Nat.reduceOr, apply_ite (blank _), apply_ite (keeps _ s), ite_self, implies_true, foldl_blank, keeps_next, Option.elim, keepCivil_frame, shiftCivil_frame, recordAlert_frame]
    | (with_reducible refine (foldl_blank ?_ _ _).trans ?_; intro s x)
    | (split <;> try (rename_i h; with_reducible rw [Prod.ext_iff] at h; have h' := h.2; dsimp only at h'; subst h'))
    | dsimp only

theorem endCycle_frame (s : State) (n : Nat) (hn : n ||| 0x83204C8E = n) :
    blank n (endCycle s) = blank n s := by
  refine blank_mono (m := 0x83204C8E) ?_ hn
  unfold endCycle
  repeat' first
    | with_reducible rfl
    | simp only [mk_83204C8E, takeFree, Nat.reduceOr, apply_ite (blank _), apply_ite (keeps _ s), ite_self, implies_true, foldl_blank, keeps_next, Option.elim, refCorrect_frame]
    | (with_reducible refine (foldl_blank ?_ _ _).trans ?_; intro s x)
    | (split <;> try (rename_i h; with_reducible rw [Prod.ext_iff] at h; have h' := h.2; dsimp only at h'; subst h'))
    | dsimp only

theorem eraseFree_frame (s : State) (n : Nat) (hn : n ||| 0x80040000 = n) :
    blank n (eraseFree s) = blank n s := by
  refine blank_mono (m := 0x80040000) ?_ hn
  unfold eraseFree
  repeat' first
    | with_reducible rfl
    | simp only [mk_80040000, takeFree, Nat.reduceOr, apply_ite (blank _), apply_ite (keeps _ s), ite_self, implies_true, foldl_blank, keeps_next, Option.elim, dmlIssue_frame]
    | (with_reducible refine (foldl_blank ?_ _ _).trans ?_; intro s x)
    | (split <;> try (rename_i h; with_reducible rw [Prod.ext_iff] at h; have h' := h.2; dsimp only at h'; subst h'))
    | dsimp only

theorem settleFlushes_frame (s : State) (n : Nat) (hn : n ||| 0x83204C8E = n) :
    blank n (settleFlushes s) = blank n s := by
  refine blank_mono (m := 0x83204C8E) ?_ hn
  unfold settleFlushes
  repeat' first
    | with_reducible rfl
    | simp only [mk_83204C8E, takeFree, Nat.reduceOr, apply_ite (blank _), apply_ite (keeps _ s), ite_self, implies_true, foldl_blank, keeps_next, Option.elim, endCmd_frame]
    | (with_reducible refine (foldl_blank ?_ _ _).trans ?_; intro s x)
    | (split <;> try (rename_i h; with_reducible rw [Prod.ext_iff] at h; have h' := h.2; dsimp only at h'; subst h'))
    | dsimp only

theorem finishWaypoint_frame (a0) (s : State) (n : Nat) (hn : n ||| 0x833C6C8E = n) :
    blank n (finishWaypoint a0 s) = blank n s := by
  refine blank_mono (m := 0x833C6C8E) ?_ hn
  unfold finishWaypoint
  repeat' first
    | with_reducible rfl
    | simp only [mk_833C6C8E, takeFree, Nat.reduceOr, apply_ite (blank _), apply_ite (keeps _ s), ite_self, implies_true, foldl_blank, keeps_next, Option.elim, freePages_frame, sendDelta_frame, eraseFree_frame, rebudget_frame, settleFlushes_frame]
    | (with_reducible refine (foldl_blank ?_ _ _).trans ?_; intro s x)
    | (split <;> try (rename_i h; with_reducible rw [Prod.ext_iff] at h; have h' := h.2; dsimp only at h'; subst h'))
    | dsimp only

theorem writeRing_frame (a0) (a1) (s : State) (n : Nat) (hn : n ||| 0x800C0000 = n) :
    blank n (writeRing a0 a1 s) = blank n s := by
  refine blank_mono (m := 0x800C0000) ?_ hn
  unfold writeRing
  repeat' first
    | with_reducible rfl
    | simp only [mk_800C0000, takeFree, Nat.reduceOr, apply_ite (blank _), apply_ite (keeps _ s), ite_self, implies_true, foldl_blank, keeps_next, Option.elim, dmlIssue_frame]
    | (with_reducible refine (foldl_blank ?_ _ _).trans ?_; intro s x)
    | (split <;> try (rename_i h; with_reducible rw [Prod.ext_iff] at h; have h' := h.2; dsimp only at h'; subst h'))
    | dsimp only

theorem trimStream_frame (s : State) (n : Nat) (hn : n ||| 0x180000 = n) :
    blank n (trimStream s) = blank n s := by
  refine blank_mono (m := 0x180000) ?_ hn
  unfold trimStream
  repeat' first
    | with_reducible rfl
    | simp only [mk_180000, takeFree, Nat.reduceOr, apply_ite (blank _), apply_ite (keeps _ s), ite_self, implies_true, foldl_blank, keeps_next, Option.elim, modStripe_frame]
    | (with_reducible refine (foldl_blank ?_ _ _).trans ?_; intro s x)
    | (split <;> try (rename_i h; with_reducible rw [Prod.ext_iff] at h; have h' := h.2; dsimp only at h'; subst h'))
    | dsimp only

theorem writeAnchorsOn_frame (a0) (s : State) (n : Nat) (hn : n ||| 0x833C4C8E = n) :
    blank n (writeAnchorsOn a0 s) = blank n s := by
  refine blank_mono (m := 0x833C4C8E) ?_ hn
  unfold writeAnchorsOn
  repeat' first
    | with_reducible rfl
    | simp only [mk_833C4C8E, takeFree, Nat.reduceOr, apply_ite (blank _), apply_ite (keeps _ s), ite_self, implies_true, foldl_blank, keeps_next, Option.elim, writeRing_frame, record_frame, trimStream_frame]
    | (with_reducible refine (foldl_blank ?_ _ _).trans ?_; intro s x)
    | (split <;> try (rename_i h; with_reducible rw [Prod.ext_iff] at h; have h' := h.2; dsimp only at h'; subst h'))
    | dsimp only

theorem writeAnchors_frame (s : State) (n : Nat) (hn : n ||| 0x833C4C8E = n) :
    blank n (writeAnchors s) = blank n s := by
  refine blank_mono (m := 0x833C4C8E) ?_ hn
  unfold writeAnchors
  repeat' first
    | with_reducible rfl
    | simp only [mk_833C4C8E, takeFree, Nat.reduceOr, apply_ite (blank _), apply_ite (keeps _ s), ite_self, implies_true, foldl_blank, keeps_next, Option.elim, writeAnchorsOn_frame]
    | (with_reducible refine (foldl_blank ?_ _ _).trans ?_; intro s x)
    | (split <;> try (rename_i h; with_reducible rw [Prod.ext_iff] at h; have h' := h.2; dsimp only at h'; subst h'))
    | dsimp only

theorem stopWaypoint_frame (s : State) (n : Nat) (hn : n ||| 0x833C6C8E = n) :
    blank n (stopWaypoint s) = blank n s := by
  refine blank_mono (m := 0x833C6C8E) ?_ hn
  unfold stopWaypoint
  repeat' first
    | with_reducible rfl
    | simp only [mk_833C6C8E, takeFree, Nat.reduceOr, apply_ite (blank _), apply_ite (keeps _ s), ite_self, implies_true, foldl_blank, keeps_next, Option.elim, finishWaypoint_frame, captureWaypoint_frame, closeOpen_frame, writeAnchors_frame]
    | (with_reducible refine (foldl_blank ?_ _ _).trans ?_; intro s x)
    | (split <;> try (rename_i h; with_reducible rw [Prod.ext_iff] at h; have h' := h.2; dsimp only at h'; subst h'))
    | dsimp only

theorem endFlush_frame (s : State) (n : Nat) (hn : n ||| 0x8B3C6C8E = n) :
    blank n (endFlush s) = blank n s := by
  refine blank_mono (m := 0x8B3C6C8E) ?_ hn
  unfold endFlush
  repeat' first
    | with_reducible rfl
    | simp only [mk_8B3C6C8E, takeFree, Nat.reduceOr, apply_ite (blank _), apply_ite (keeps _ s), ite_self, implies_true, foldl_blank, keeps_next, Option.elim, record_frame, stopWaypoint_frame, almSaveAll_frame]
    | (with_reducible refine (foldl_blank ?_ _ _).trans ?_; intro s x)
    | (split <;> try (rename_i h; with_reducible rw [Prod.ext_iff] at h; have h' := h.2; dsimp only at h'; subst h'))
    | dsimp only

theorem endForwarded_frame (s : State) (n : Nat) (hn : n ||| 0x83206C8E = n) :
    blank n (endForwarded s) = blank n s := by
  refine blank_mono (m := 0x83206C8E) ?_ hn
  unfold endForwarded
  repeat' first
    | with_reducible rfl
    | simp only [mk_83206C8E, takeFree, Nat.reduceOr, apply_ite (blank _), apply_ite (keeps _ s), ite_self, implies_true, foldl_blank, keeps_next, Option.elim, finish_frame, dropFilling_frame]
    | (with_reducible refine (foldl_blank ?_ _ _).trans ?_; intro s x)
    | (split <;> try (rename_i h; with_reducible rw [Prod.ext_iff] at h; have h' := h.2; dsimp only at h'; subst h'))
    | dsimp only

theorem endHandover_frame (a0) (s : State) (n : Nat) (hn : n ||| 0x83204C8F = n) :
    blank n (endHandover a0 s) = blank n s := by
  refine blank_mono (m := 0x83204C8F) ?_ hn
  unfold endHandover
  repeat' first
    | with_reducible rfl
    | simp only [mk_83204C8F, takeFree, Nat.reduceOr, apply_ite (blank _), apply_ite (keeps _ s), ite_self, implies_true, foldl_blank, keeps_next, Option.elim, setOwned_frame, record_frame, startHandover_frame]
    | (with_reducible refine (foldl_blank ?_ _ _).trans ?_; intro s x)
    | (split <;> try (rename_i h; with_reducible rw [Prod.ext_iff] at h; have h' := h.2; dsimp only at h'; subst h'))
    | dsimp only

theorem issueRoce_frame (a0) (a1) (a2) (s : State) (n : Nat) (hn : n ||| 0x80000800 = n) :
    blank n (issueRoce a0 a1 a2 s) = blank n s := by
  refine blank_mono (m := 0x80000800) ?_ hn
  unfold issueRoce
  repeat' first
    | with_reducible rfl
    | simp only [mk_80000800, takeFree, Nat.reduceOr, apply_ite (blank _), apply_ite (keeps _ s), ite_self, implies_true, foldl_blank, keeps_next, Option.elim, sendRoce_frame, modQp_frame]
    | (with_reducible refine (foldl_blank ?_ _ _).trans ?_; intro s x)
    | (split <;> try (rename_i h; with_reducible rw [Prod.ext_iff] at h; have h' := h.2; dsimp only at h'; subst h'))
    | dsimp only

theorem sendCpl_frame (a0) (s : State) (n : Nat) (hn : n ||| 0x8300088C = n) :
    blank n (sendCpl a0 s) = blank n s := by
  refine blank_mono (m := 0x8300088C) ?_ hn
  unfold sendCpl
  repeat' first
    | with_reducible rfl
    | simp only [mk_8300088C, takeFree, Nat.reduceOr, apply_ite (blank _), apply_ite (keeps _ s), ite_self, implies_true, foldl_blank, keeps_next, Option.elim, accrue_frame, issueRoce_frame, recordInfo_frame]
    | (with_reducible refine (foldl_blank ?_ _ _).trans ?_; intro s x)
    | (split <;> try (rename_i h; with_reducible rw [Prod.ext_iff] at h; have h' := h.2; dsimp only at h'; subst h'))
    | dsimp only

theorem releaseHeld_frame (a0) (s : State) (n : Nat) (hn : n ||| 0x80000800 = n) :
    blank n (releaseHeld a0 s) = blank n s := by
  refine blank_mono (m := 0x80000800) ?_ hn
  unfold releaseHeld
  repeat' first
    | with_reducible rfl
    | simp only [mk_80000800, takeFree, Nat.reduceOr, apply_ite (blank _), apply_ite (keeps _ s), ite_self, implies_true, foldl_blank, keeps_next, Option.elim, emit_frame]
    | (with_reducible refine (foldl_blank ?_ _ _).trans ?_; intro s x)
    | (split <;> try (rename_i h; with_reducible rw [Prod.ext_iff] at h; have h' := h.2; dsimp only at h'; subst h'))
    | dsimp only

theorem endNet_frame (s : State) (n : Nat) (hn : n ||| 0x183227C8E = n) :
    blank n (endNet s) = blank n s := by
  refine blank_mono (m := 0x183227C8E) ?_ hn
  unfold endNet
  repeat' first
    | with_reducible rfl
    | simp only [mk_183227C8E, takeFree, Nat.reduceOr, apply_ite (blank _), apply_ite (keeps _ s), ite_self, implies_true, foldl_blank, keeps_next, Option.elim, abortTag_frame, qpError_frame, sendCpl_frame, releaseHeld_frame]
    | (with_reducible refine (foldl_blank ?_ _ _).trans ?_; intro s x)
    | (split <;> try (rename_i h; with_reducible rw [Prod.ext_iff] at h; have h' := h.2; dsimp only at h'; subst h'))
    | dsimp only

theorem endRebuild_frame (s : State) (n : Nat) (hn : n ||| 0x83304C8E = n) :
    blank n (endRebuild s) = blank n s := by
  refine blank_mono (m := 0x83304C8E) ?_ hn
  unfold endRebuild
  repeat' first
    | with_reducible rfl
    | simp only [mk_83304C8E, takeFree, Nat.reduceOr, apply_ite (blank _), apply_ite (keeps _ s), ite_self, implies_true, foldl_blank, keeps_next, Option.elim, endActivity_frame, record_frame]
    | (with_reducible refine (foldl_blank ?_ _ _).trans ?_; intro s x)
    | (split <;> try (rename_i h; with_reducible rw [Prod.ext_iff] at h; have h' := h.2; dsimp only at h'; subst h'))
    | dsimp only

theorem switchAddress_frame (a0) (a1) (s : State) (n : Nat) (hn : n ||| 0x80206002 = n) :
    blank n (switchAddress a0 a1 s) = blank n s := by
  refine blank_mono (m := 0x80206002) ?_ hn
  unfold switchAddress
  repeat' first
    | with_reducible rfl
    | simp only [mk_80206002, takeFree, Nat.reduceOr, apply_ite (blank _), apply_ite (keeps _ s), ite_self, implies_true, foldl_blank, keeps_next, Option.elim, sendDelta_frame, putSeed_frame, putShare_frame]
    | (with_reducible refine (foldl_blank ?_ _ _).trans ?_; intro s x)
    | (split <;> try (rename_i h; with_reducible rw [Prod.ext_iff] at h; have h' := h.2; dsimp only at h'; subst h'))
    | dsimp only

theorem endReloc_frame (a0) (s : State) (n : Nat) (hn : n ||| 0x1833C7C8E = n) :
    blank n (endReloc a0 s) = blank n s := by
  refine blank_mono (m := 0x1833C7C8E) ?_ hn
  unfold endReloc
  repeat' first
    | with_reducible rfl
    | simp only [mk_1833C7C8E, takeFree, Nat.reduceOr, apply_ite (blank _), apply_ite (keeps _ s), ite_self, implies_true, foldl_blank, keeps_next, Option.elim, noteMapChange_frame, freeGrains_frame, switchAddress_frame, modStripe_frame]
    | (with_reducible refine (foldl_blank ?_ _ _).trans ?_; intro s x)
    | (split <;> try (rename_i h; with_reducible rw [Prod.ext_iff] at h; have h' := h.2; dsimp only at h'; subst h'))
    | dsimp only

theorem endSentOn_frame (s : State) (n : Nat) (hn : n ||| 0x83204C8E = n) :
    blank n (endSentOn s) = blank n s := by
  refine blank_mono (m := 0x83204C8E) ?_ hn
  unfold endSentOn
  repeat' first
    | with_reducible rfl
    | simp only [mk_83204C8E, takeFree, Nat.reduceOr, apply_ite (blank _), apply_ite (keeps _ s), ite_self, implies_true, foldl_blank, keeps_next, Option.elim, finish_frame]
    | (with_reducible refine (foldl_blank ?_ _ _).trans ?_; intro s x)
    | (split <;> try (rename_i h; with_reducible rw [Prod.ext_iff] at h; have h' := h.2; dsimp only at h'; subst h'))
    | dsimp only

theorem endSilently_frame (a0) (s : State) (n : Nat) (hn : n ||| 0x83226C8E = n) :
    blank n (endSilently a0 s) = blank n s := by
  refine blank_mono (m := 0x83226C8E) ?_ hn
  unfold endSilently
  repeat' first
    | with_reducible rfl
    | simp only [mk_83226C8E, takeFree, Nat.reduceOr, apply_ite (blank _), apply_ite (keeps _ s), ite_self, implies_true, foldl_blank, keeps_next, Option.elim, digIdle_frame, dropWrite_frame]
    | (with_reducible refine (foldl_blank ?_ _ _).trans ?_; intro s x)
    | (split <;> try (rename_i h; with_reducible rw [Prod.ext_iff] at h; have h' := h.2; dsimp only at h'; subst h'))
    | dsimp only

theorem stageFailed_frame (a0) (s : State) (n : Nat) (hn : n ||| 0x87204C8E = n) :
    blank n (stageFailed a0 s) = blank n s := by
  refine blank_mono (m := 0x87204C8E) ?_ hn
  unfold stageFailed
  repeat' first
    | with_reducible rfl
    | simp only [mk_87204C8E, takeFree, Nat.reduceOr, apply_ite (blank _), apply_ite (keeps _ s), ite_self, implies_true, foldl_blank, keeps_next, Option.elim, releaseBuffer_frame, record_frame]
    | (with_reducible refine (foldl_blank ?_ _ _).trans ?_; intro s x)
    | (split <;> try (rename_i h; with_reducible rw [Prod.ext_iff] at h; have h' := h.2; dsimp only at h'; subst h'))
    | dsimp only

theorem stageEnded_frame (a0) (a1) (a2) (s : State) (n : Nat) (hn : n ||| 0x187204C8E = n) :
    blank n (stageEnded a0 a1 a2 s) = blank n s := by
  refine blank_mono (m := 0x187204C8E) ?_ hn
  unfold stageEnded
  repeat' first
    | with_reducible rfl
    | simp only [mk_187204C8E, takeFree, Nat.reduceOr, apply_ite (blank _), apply_ite (keeps _ s), ite_self, implies_true, foldl_blank, keeps_next, Option.elim, record_frame]
    | (with_reducible refine (foldl_blank ?_ _ _).trans ?_; intro s x)
    | (split <;> try (rename_i h; with_reducible rw [Prod.ext_iff] at h; have h' := h.2; dsimp only at h'; subst h'))
    | dsimp only

theorem noteDefault_frame (a0) (a1) (s : State) (n : Nat) (hn : n ||| 0x83204C8E = n) :
    blank n (noteDefault a0 a1 s) = blank n s := by
  refine blank_mono (m := 0x83204C8E) ?_ hn
  unfold noteDefault
  repeat' first
    | with_reducible rfl
    | simp only [mk_83204C8E, takeFree, Nat.reduceOr, apply_ite (blank _), apply_ite (keeps _ s), ite_self, implies_true, foldl_blank, keeps_next, Option.elim, record_frame]
    | (with_reducible refine (foldl_blank ?_ _ _).trans ?_; intro s x)
    | (split <;> try (rename_i h; with_reducible rw [Prod.ext_iff] at h; have h' := h.2; dsimp only at h'; subst h'))
    | dsimp only

theorem holdDown_frame (a0) (s : State) (n : Nat) (hn : n ||| 0x1000000 = n) :
    blank n (holdDown a0 s) = blank n s := by
  refine blank_mono (m := 0x1000000) ?_ hn
  unfold holdDown
  repeat' first
    | with_reducible rfl
    | simp only [mk_1000000, takeFree, Nat.reduceOr, apply_ite (blank _), apply_ite (keeps _ s), ite_self, implies_true, foldl_blank, keeps_next, Option.elim, modCtl_frame]
    | (with_reducible refine (foldl_blank ?_ _ _).trans ?_; intro s x)
    | (split <;> try (rename_i h; with_reducible rw [Prod.ext_iff] at h; have h' := h.2; dsimp only at h'; subst h'))
    | dsimp only

theorem remapRefuse_frame (a0) (s : State) (n : Nat) (hn : n ||| 0x83204C8E = n) :
    blank n (remapRefuse a0 s) = blank n s := by
  refine blank_mono (m := 0x83204C8E) ?_ hn
  unfold remapRefuse
  repeat' first
    | with_reducible rfl
    | simp only [mk_83204C8E, takeFree, Nat.reduceOr, apply_ite (blank _), apply_ite (keeps _ s), ite_self, implies_true, foldl_blank, keeps_next, Option.elim, record_frame, holdDown_frame]
    | (with_reducible refine (foldl_blank ?_ _ _).trans ?_; intro s x)
    | (split <;> try (rename_i h; with_reducible rw [Prod.ext_iff] at h; have h' := h.2; dsimp only at h'; subst h'))
    | dsimp only

theorem stepFive_frame (a0) (a1) (s : State) (n : Nat) (hn : n ||| 0x83E46CCE = n) :
    blank n (stepFive a0 a1 s) = blank n s := by
  refine blank_mono (m := 0x83E46CCE) ?_ hn
  unfold stepFive
  repeat' first
    | with_reducible rfl
    | simp only [mk_83E46CCE, takeFree, Nat.reduceOr, apply_ite (blank _), apply_ite (keeps _ s), ite_self, implies_true, foldl_blank, keeps_next, Option.elim, noteDefault_frame, pmbusSend_frame, remapRefuse_frame, avsRaiseNow_frame]
    | (with_reducible refine (foldl_blank ?_ _ _).trans ?_; intro s x)
    | (split <;> try (rename_i h; with_reducible rw [Prod.ext_iff] at h; have h' := h.2; dsimp only at h'; subst h'))
    | dsimp only

theorem stall_frame (a0) (s : State) (n : Nat) (hn : n ||| 0x83204C8F = n) :
    blank n (stall a0 s) = blank n s := by
  refine blank_mono (m := 0x83204C8F) ?_ hn
  unfold stall
  repeat' first
    | with_reducible rfl
    | simp only [mk_83204C8F, takeFree, Nat.reduceOr, apply_ite (blank _), apply_ite (keeps _ s), ite_self, implies_true, foldl_blank, keeps_next, Option.elim, recordAlert_frame]
    | (with_reducible refine (foldl_blank ?_ _ _).trans ?_; intro s x)
    | (split <;> try (rename_i h; with_reducible rw [Prod.ext_iff] at h; have h' := h.2; dsimp only at h'; subst h'))
    | dsimp only

theorem retireElement_frame (a0) (s : State) (n : Nat) (hn : n ||| 0x83204C8E = n) :
    blank n (retireElement a0 s) = blank n s := by
  refine blank_mono (m := 0x83204C8E) ?_ hn
  unfold retireElement
  repeat' first
    | with_reducible rfl
    | simp only [mk_83204C8E, takeFree, Nat.reduceOr, apply_ite (blank _), apply_ite (keeps _ s), ite_self, implies_true, foldl_blank, keeps_next, Option.elim, record_frame, modCtl_frame]
    | (with_reducible refine (foldl_blank ?_ _ _).trans ?_; intro s x)
    | (split <;> try (rename_i h; with_reducible rw [Prod.ext_iff] at h; have h' := h.2; dsimp only at h'; subst h'))
    | dsimp only

theorem scheduleAgent_frame (s : State) (a1) (n : Nat) (hn : n ||| 0x101000000 = n) :
    blank n (scheduleAgent s a1) = blank n s := by
  refine blank_mono (m := 0x101000000) ?_ hn
  unfold scheduleAgent
  repeat' first
    | with_reducible rfl
    | simp only [mk_101000000, takeFree, Nat.reduceOr, apply_ite (blank _), apply_ite (keeps _ s), ite_self, implies_true, foldl_blank, keeps_next, Option.elim, modCtl_frame]
    | (with_reducible refine (foldl_blank ?_ _ _).trans ?_; intro s x)
    | (split <;> try (rename_i h; with_reducible rw [Prod.ext_iff] at h; have h' := h.2; dsimp only at h'; subst h'))
    | dsimp only

theorem stepEight_frame (a0) (s : State) (n : Nat) (hn : n ||| 0x1A320CC8F = n) :
    blank n (stepEight a0 s) = blank n s := by
  refine blank_mono (m := 0x1A320CC8F) ?_ hn
  unfold stepEight
  repeat' first
    | with_reducible rfl
    | simp only [mk_1A320CC8F, takeFree, Nat.reduceOr, apply_ite (blank _), apply_ite (keeps _ s), ite_self, implies_true, foldl_blank, keeps_next, Option.elim, stall_frame, record_frame, retireElement_frame, scheduleAgent_frame]
    | (with_reducible refine (foldl_blank ?_ _ _).trans ?_; intro s x)
    | (split <;> try (rename_i h; with_reducible rw [Prod.ext_iff] at h; have h' := h.2; dsimp only at h'; subst h'))
    | dsimp only

theorem stepNine_frame (a0) (s : State) (n : Nat) (hn : n ||| 0x83244C8F = n) :
    blank n (stepNine a0 s) = blank n s := by
  refine blank_mono (m := 0x83244C8F) ?_ hn
  unfold stepNine
  repeat' first
    | with_reducible rfl
    | simp only [mk_83244C8F, takeFree, Nat.reduceOr, apply_ite (blank _), apply_ite (keeps _ s), ite_self, implies_true, foldl_blank, keeps_next, Option.elim, record_frame, holdDown_frame, stall_frame]
    | (with_reducible refine (foldl_blank ?_ _ _).trans ?_; intro s x)
    | (split <;> try (rename_i h; with_reducible rw [Prod.ext_iff] at h; have h' := h.2; dsimp only at h'; subst h'))
    | dsimp only

theorem settleMasks_frame (a0) (s : State) (n : Nat) (hn : n ||| 0x83604C8E = n) :
    blank n (settleMasks a0 s) = blank n s := by
  refine blank_mono (m := 0x83604C8E) ?_ hn
  unfold settleMasks
  repeat' first
    | with_reducible rfl
    | simp only [mk_83604C8E, takeFree, Nat.reduceOr, apply_ite (blank _), apply_ite (keeps _ s), ite_self, implies_true, foldl_blank, keeps_next, Option.elim, record_frame]
    | (with_reducible refine (foldl_blank ?_ _ _).trans ?_; intro s x)
    | (split <;> try (rename_i h; with_reducible rw [Prod.ext_iff] at h; have h' := h.2; dsimp only at h'; subst h'))
    | dsimp only

theorem logSize_frame (a0) (s : State) (n : Nat) (hn : n ||| 0x83206C8E = n) :
    blank n (logSize a0 s) = blank n s := by
  refine blank_mono (m := 0x83206C8E) ?_ hn
  unfold logSize
  repeat' first
    | with_reducible rfl
    | simp only [mk_83206C8E, takeFree, Nat.reduceOr, apply_ite (blank _), apply_ite (keeps _ s), ite_self, implies_true, foldl_blank, keeps_next, Option.elim, record_frame]
    | (with_reducible refine (foldl_blank ?_ _ _).trans ?_; intro s x)
    | (split <;> try (rename_i h; with_reducible rw [Prod.ext_iff] at h; have h' := h.2; dsimp only at h'; subst h'))
    | dsimp only

theorem loadAlmanac_frame (s : State) (n : Nat) (hn : n ||| 0x83204C8E = n) :
    blank n (loadAlmanac s) = blank n s := by
  refine blank_mono (m := 0x83204C8E) ?_ hn
  have h : ∀ (l : List AlmRecord) (t : State), blank 0x83204C8E (l.foldl (fun s r => norPush r s) t) = blank 0x83204C8E t :=
    foldl_blank fun t r => norPush_frame r t _ rfl
  unfold loadAlmanac
  generalize lastN 65536 (ringRecords s.nor ++ s.alm.held) = w
  generalize (s.alm.held.filter fun r => !r.isOpen) = l
  show blank 0x83204C8E (if (s.alm.held.filter (·.island)).length = 0 then _ else _) = _
  split
  · rw [h, mk_83204C8E]
  · rw [record_frame _ _ _ _ _ rfl, h, mk_83204C8E]

theorem stepTwelve_frame (a0) (s : State) (n : Nat) (hn : n ||| 0x93606C8F = n) :
    blank n (stepTwelve a0 s) = blank n s := by
  refine blank_mono (m := 0x93606C8F) ?_ hn
  unfold stepTwelve
  repeat' first
    | with_reducible rfl
    | simp only [mk_93606C8F, takeFree, Nat.reduceOr, apply_ite (blank _), apply_ite (keeps _ s), ite_self, implies_true, foldl_blank, keeps_next, Option.elim, stall_frame, record_frame, settleMasks_frame, logSize_frame, loadAlmanac_frame]
    | (with_reducible refine (foldl_blank ?_ _ _).trans ?_; intro s x)
    | (split <;> try (rename_i h; with_reducible rw [Prod.ext_iff] at h; have h' := h.2; dsimp only at h'; subst h'))
    | dsimp only

theorem newMap_frame (s : State) (n : Nat) (hn : n ||| 0x4314001 = n) :
    blank n (newMap s) = blank n s := by
  refine blank_mono (m := 0x4314001) ?_ hn
  unfold newMap
  repeat' first
    | with_reducible rfl
    | simp only [mk_4314001, takeFree, Nat.reduceOr, apply_ite (blank _), apply_ite (keeps _ s), ite_self, implies_true, foldl_blank, keeps_next, Option.elim, drawKey_frame]
    | (with_reducible refine (foldl_blank ?_ _ _).trans ?_; intro s x)
    | (split <;> try (rename_i h; with_reducible rw [Prod.ext_iff] at h; have h' := h.2; dsimp only at h'; subst h'))
    | dsimp only

theorem restoreKey_frame (s : State) (a1) (n : Nat) (hn : n ||| 0x83214C8E = n) :
    blank n (restoreKey s a1) = blank n s := by
  refine blank_mono (m := 0x83214C8E) ?_ hn
  unfold restoreKey
  repeat' first
    | with_reducible rfl
    | simp only [mk_83214C8E, takeFree, Nat.reduceOr, apply_ite (blank _), apply_ite (keeps _ s), ite_self, implies_true, foldl_blank, keeps_next, Option.elim, setPin_frame, applyKey_frame]
    | (with_reducible refine (foldl_blank ?_ _ _).trans ?_; intro s x)
    | (split <;> try (rename_i h; with_reducible rw [Prod.ext_iff] at h; have h' := h.2; dsimp only at h'; subst h'))
    | dsimp only

theorem restoreKeys_frame (a0) (s : State) (n : Nat) (hn : n ||| 0x83215C8E = n) :
    blank n (restoreKeys a0 s) = blank n s := by
  refine blank_mono (m := 0x83215C8E) ?_ hn
  unfold restoreKeys
  repeat' first
    | with_reducible rfl
    | simp only [mk_83215C8E, takeFree, Nat.reduceOr, apply_ite (blank _), apply_ite (keeps _ s), ite_self, implies_true, foldl_blank, keeps_next, Option.elim, restoreKey_frame]
    | (with_reducible refine (foldl_blank ?_ _ _).trans ?_; intro s x)
    | (split <;> try (rename_i h; with_reducible rw [Prod.ext_iff] at h; have h' := h.2; dsimp only at h'; subst h'))
    | dsimp only

theorem restoreSetting_frame (s : State) (a1) (n : Nat) (hn : n ||| 0x87784C8F = n) :
    blank n (restoreSetting s a1) = blank n s := by
  refine blank_mono (m := 0x87784C8F) ?_ hn
  unfold restoreSetting
  repeat' first
    | with_reducible rfl
    | simp only [mk_87784C8F, takeFree, Nat.reduceOr, apply_ite (blank _), apply_ite (keeps _ s), ite_self, implies_true, foldl_blank, keeps_next, Option.elim, xhlWrite_frame, drcWrite_frame]
    | (with_reducible refine (foldl_blank ?_ _ _).trans ?_; intro s x)
    | (split <;> try (rename_i h; with_reducible rw [Prod.ext_iff] at h; have h' := h.2; dsimp only at h'; subst h'))
    | dsimp only

theorem restoreSettings_frame (a0) (s : State) (n : Nat) (hn : n ||| 0x87784C8F = n) :
    blank n (restoreSettings a0 s) = blank n s := by
  refine blank_mono (m := 0x87784C8F) ?_ hn
  unfold restoreSettings
  repeat' first
    | with_reducible rfl
    | simp only [mk_87784C8F, takeFree, Nat.reduceOr, apply_ite (blank _), apply_ite (keeps _ s), ite_self, implies_true, foldl_blank, keeps_next, Option.elim, restoreSetting_frame, record_frame]
    | (with_reducible refine (foldl_blank ?_ _ _).trans ?_; intro s x)
    | (split <;> try (rename_i h; with_reducible rw [Prod.ext_iff] at h; have h' := h.2; dsimp only at h'; subst h'))
    | dsimp only

theorem takeTables_frame (a0) (s : State) (n : Nat) (hn : n ||| 0x439600D = n) :
    blank n (takeTables a0 s) = blank n s := by
  refine blank_mono (m := 0x439600D) ?_ hn
  unfold takeTables
  repeat' first
    | with_reducible rfl
    | simp only [mk_439600D, takeFree, Nat.reduceOr, apply_ite (blank _), apply_ite (keeps _ s), ite_self, implies_true, foldl_blank, keeps_next, Option.elim]
    | (with_reducible refine (foldl_blank ?_ _ _).trans ?_; intro s x)
    | (split <;> try (rename_i h; with_reducible rw [Prod.ext_iff] at h; have h' := h.2; dsimp only at h'; subst h'))
    | dsimp only

theorem resumeResync_frame (a0) (a1) (s : State) (n : Nat) (hn : n ||| 0x83304C8E = n) :
    blank n (resumeResync a0 a1 s) = blank n s := by
  refine blank_mono (m := 0x83304C8E) ?_ hn
  unfold resumeResync
  repeat' first
    | with_reducible rfl
    | simp only [mk_83304C8E, takeFree, Nat.reduceOr, apply_ite (blank _), apply_ite (keeps _ s), ite_self, implies_true, foldl_blank, keeps_next, Option.elim, requestActivity_frame]
    | (with_reducible refine (foldl_blank ?_ _ _).trans ?_; intro s x)
    | (split <;> try (rename_i h; with_reducible rw [Prod.ext_iff] at h; have h' := h.2; dsimp only at h'; subst h'))
    | dsimp only

theorem resumeReshape_frame (a0) (s : State) (n : Nat) (hn : n ||| 0x83304C8E = n) :
    blank n (resumeReshape a0 s) = blank n s := by
  refine blank_mono (m := 0x83304C8E) ?_ hn
  unfold resumeReshape
  repeat' first
    | with_reducible rfl
    | simp only [mk_83304C8E, takeFree, Nat.reduceOr, apply_ite (blank _), apply_ite (keeps _ s), ite_self, implies_true, foldl_blank, keeps_next, Option.elim, requestActivity_frame]
    | (with_reducible refine (foldl_blank ?_ _ _).trans ?_; intro s x)
    | (split <;> try (rename_i h; with_reducible rw [Prod.ext_iff] at h; have h' := h.2; dsimp only at h'; subst h'))
    | dsimp only

theorem replayTrailer_frame (a0) (s : State) (n : Nat) (hn : n ||| 0x83384C8E = n) :
    blank n (replayTrailer a0 s) = blank n s := by
  refine blank_mono (m := 0x83384C8E) ?_ hn
  unfold replayTrailer
  repeat' first
    | with_reducible rfl
    | simp only [mk_83384C8E, takeFree, Nat.reduceOr, apply_ite (blank _), apply_ite (keeps _ s), ite_self, implies_true, foldl_blank, keeps_next, Option.elim, setLive_frame]
    | (with_reducible refine (foldl_blank ?_ _ _).trans ?_; intro s x)
    | (split <;> try (rename_i h; with_reducible rw [Prod.ext_iff] at h; have h' := h.2; dsimp only at h'; subst h'))
    | dsimp only

theorem replayAll_frame (a0) (s : State) (n : Nat) (hn : n ||| 0x83386C8E = n) :
    blank n (replayAll a0 s) = blank n s := by
  refine blank_mono (m := 0x83386C8E) ?_ hn
  unfold replayAll
  repeat' first
    | with_reducible rfl
    | simp only [mk_83386C8E, takeFree, Nat.reduceOr, apply_ite (blank _), apply_ite (keeps _ s), ite_self, implies_true, foldl_blank, keeps_next, Option.elim, replayTrailer_frame]
    | (with_reducible refine (foldl_blank ?_ _ _).trans ?_; intro s x)
    | (split <;> try (rename_i h; with_reducible rw [Prod.ext_iff] at h; have h' := h.2; dsimp only at h'; subst h'))
    | dsimp only

theorem suspectAtStart_frame (a0) (a1) (s : State) (n : Nat) (hn : n ||| 0x83284C8E = n) :
    blank n (suspectAtStart a0 a1 s) = blank n s := by
  refine blank_mono (m := 0x83284C8E) ?_ hn
  unfold suspectAtStart
  repeat' first
    | with_reducible rfl
    | simp only [mk_83284C8E, takeFree, Nat.reduceOr, apply_ite (blank _), apply_ite (keeps _ s), ite_self, implies_true, foldl_blank, keeps_next, Option.elim, suspectBlock_frame]
    | (with_reducible refine (foldl_blank ?_ _ _).trans ?_; intro s x)
    | (split <;> try (rename_i h; with_reducible rw [Prod.ext_iff] at h; have h' := h.2; dsimp only at h'; subst h'))
    | dsimp only

theorem loadMap_frame (a0) (a1) (s : State) (n : Nat) (hn : n ||| 0x877D7C8F = n) :
    blank n (loadMap a0 a1 s) = blank n s := by
  refine blank_mono (m := 0x877D7C8F) ?_ hn
  unfold loadMap
  repeat' first
    | with_reducible rfl
    | simp only [mk_877D7C8F, takeFree, Nat.reduceOr, apply_ite (blank _), apply_ite (keeps _ s), ite_self, implies_true, foldl_blank, keeps_next, Option.elim, ageLedger_frame, restoreKeys_frame, restoreSettings_frame, takeTables_frame, resumeResync_frame, resumeReshape_frame, replayAll_frame, absentLeave_frame, suspectAtStart_frame]
    | (with_reducible refine (foldl_blank ?_ _ _).trans ?_; intro s x)
    | (split <;> try (rename_i h; with_reducible rw [Prod.ext_iff] at h; have h' := h.2; dsimp only at h'; subst h'))
    | dsimp only

theorem stepThirteen_frame (a0) (a1) (s : State) (n : Nat) (hn : n ||| 0x877D7C8F = n) :
    blank n (stepThirteen a0 a1 s).2 = blank n s := by
  refine blank_mono (m := 0x877D7C8F) ?_ hn
  unfold stepThirteen
  repeat' first
    | with_reducible rfl
    | simp only [mk_877D7C8F, takeFree, Nat.reduceOr, apply_ite (blank _), apply_ite (keeps _ s), ite_self, implies_true, foldl_blank, keeps_next, Option.elim, stall_frame, record_frame, newMap_frame, loadMap_frame]
    | (with_reducible refine (foldl_blank ?_ _ _).trans ?_; intro s x)
    | (split <;> try (rename_i h; with_reducible rw [Prod.ext_iff] at h; have h' := h.2; dsimp only at h'; subst h'))
    | dsimp only

theorem noteMedia_frame (s : State) (n : Nat) (hn : n ||| 0x1 = n) :
    blank n (noteMedia s) = blank n s := by
  refine blank_mono (m := 0x1) ?_ hn
  unfold noteMedia
  repeat' first
    | with_reducible rfl
    | simp only [mk_1, takeFree, Nat.reduceOr, apply_ite (blank _), apply_ite (keeps _ s), ite_self, implies_true, foldl_blank, keeps_next, Option.elim]
    | (with_reducible refine (foldl_blank ?_ _ _).trans ?_; intro s x)
    | (split <;> try (rename_i h; with_reducible rw [Prod.ext_iff] at h; have h' := h.2; dsimp only at h'; subst h'))
    | dsimp only

theorem fromEight_frame (a0) (s : State) (n : Nat) (hn : n ||| 0x1B77DFC8F = n) :
    blank n (fromEight a0 s).2 = blank n s := by
  refine blank_mono (m := 0x1B77DFC8F) ?_ hn
  unfold fromEight
  repeat' first
    | with_reducible rfl
    | simp only [mk_1B77DFC8F, takeFree, Nat.reduceOr, apply_ite (blank _), apply_ite (keeps _ s), ite_self, implies_true, foldl_blank, keeps_next, Option.elim, stepEight_frame, stepNine_frame, stepTwelve_frame, stepThirteen_frame, noteMedia_frame]
    | (with_reducible refine (foldl_blank ?_ _ _).trans ?_; intro s x)
    | (split <;> try (rename_i h; with_reducible rw [Prod.ext_iff] at h; have h' := h.2; dsimp only at h'; subst h'))
    | dsimp only

theorem raiseTries_frame (s : State) (n : Nat) (hn : n ||| 0xE000004 = n) :
    blank n (raiseTries s) = blank n s := by
  refine blank_mono (m := 0xE000004) ?_ hn
  unfold raiseTries
  repeat' first
    | with_reducible rfl
    | simp only [mk_E000004, takeFree, Nat.reduceOr, apply_ite (blank _), apply_ite (keeps _ s), ite_self, implies_true, foldl_blank, keeps_next, Option.elim, writeBoot_frame]
    | (with_reducible refine (foldl_blank ?_ _ _).trans ?_; intro s x)
    | (split <;> try (rename_i h; with_reducible rw [Prod.ext_iff] at h; have h' := h.2; dsimp only at h'; subst h'))
    | dsimp only

theorem runFirmware_frame (a0) (a1) (s : State) (n : Nat) (hn : n ||| 0x87204C8F = n) :
    blank n (runFirmware a0 a1 s) = blank n s := by
  refine blank_mono (m := 0x87204C8F) ?_ hn
  unfold runFirmware
  repeat' first
    | with_reducible rfl
    | simp only [mk_87204C8F, takeFree, Nat.reduceOr, apply_ite (blank _), apply_ite (keeps _ s), ite_self, implies_true, foldl_blank, keeps_next, Option.elim, record_frame]
    | (with_reducible refine (foldl_blank ?_ _ _).trans ?_; intro s x)
    | (split <;> try (rename_i h; with_reducible rw [Prod.ext_iff] at h; have h' := h.2; dsimp only at h'; subst h'))
    | dsimp only

theorem stepSeven_frame (a0) (s : State) (n : Nat) (hn : n ||| 0x18F204C8F = n) :
    blank n (stepSeven a0 s) = blank n s := by
  refine blank_mono (m := 0x18F204C8F) ?_ hn
  unfold stepSeven
  repeat' first
    | with_reducible rfl
    | simp only [mk_18F204C8F, takeFree, Nat.reduceOr, apply_ite (blank _), apply_ite (keeps _ s), ite_self, implies_true, foldl_blank, keeps_next, Option.elim, stall_frame, record_frame, raiseTries_frame, runFirmware_frame]
    | (with_reducible refine (foldl_blank ?_ _ _).trans ?_; intro s x)
    | (split <;> try (rename_i h; with_reducible rw [Prod.ext_iff] at h; have h' := h.2; dsimp only at h'; subst h'))
    | dsimp only

theorem fromFive_frame (a0) (a1) (a2) (s : State) (n : Nat) (hn : n ||| 0x1BFFDFCCF = n) :
    blank n (fromFive a0 a1 a2 s).2 = blank n s := by
  refine blank_mono (m := 0x1BFFDFCCF) ?_ hn
  unfold fromFive
  repeat' first
    | with_reducible rfl
    | simp only [mk_1BFFDFCCF, takeFree, Nat.reduceOr, apply_ite (blank _), apply_ite (keeps _ s), ite_self, implies_true, foldl_blank, keeps_next, Option.elim, stepFive_frame, fromEight_frame, stepSeven_frame]
    | (with_reducible refine (foldl_blank ?_ _ _).trans ?_; intro s x)
    | (split <;> try (rename_i h; with_reducible rw [Prod.ext_iff] at h; have h' := h.2; dsimp only at h'; subst h'))
    | dsimp only

theorem failProbation_frame (s : State) (n : Nat) (hn : n ||| 0x18F204C8F = n) :
    blank n (failProbation s) = blank n s := by
  refine blank_mono (m := 0x18F204C8F) ?_ hn
  unfold failProbation
  repeat' first
    | with_reducible rfl
    | simp only [mk_18F204C8F, takeFree, Nat.reduceOr, apply_ite (blank _), apply_ite (keeps _ s), ite_self, implies_true, foldl_blank, keeps_next, Option.elim, record_frame, writeBoot_frame, norErase_frame]
    | (with_reducible refine (foldl_blank ?_ _ _).trans ?_; intro s x)
    | (split <;> try (rename_i h; with_reducible rw [Prod.ext_iff] at h; have h' := h.2; dsimp only at h'; subst h'))
    | dsimp only

theorem noteCopy_frame (a0) (a1) (s : State) (n : Nat) (hn : n ||| 0x83204CAE = n) :
    blank n (noteCopy a0 a1 s) = blank n s := by
  refine blank_mono (m := 0x83204CAE) ?_ hn
  unfold noteCopy
  repeat' first
    | with_reducible rfl
    | simp only [mk_83204CAE, takeFree, Nat.reduceOr, apply_ite (blank _), apply_ite (keeps _ s), ite_self, implies_true, foldl_blank, keeps_next, Option.elim, record_frame]
    | (with_reducible refine (foldl_blank ?_ _ _).trans ?_; intro s x)
    | (split <;> try (rename_i h; with_reducible rw [Prod.ext_iff] at h; have h' := h.2; dsimp only at h'; subst h'))
    | dsimp only

theorem stepFour_frame (a0) (s : State) (n : Nat) (hn : n ||| 0x83204CAF = n) :
    blank n (stepFour a0 s).2 = blank n s := by
  refine blank_mono (m := 0x83204CAF) ?_ hn
  unfold stepFour
  repeat' first
    | with_reducible rfl
    | simp only [mk_83204CAF, takeFree, Nat.reduceOr, apply_ite (blank _), apply_ite (keeps _ s), ite_self, implies_true, foldl_blank, keeps_next, Option.elim, noteCopy_frame, record_frame, stall_frame]
    | (with_reducible refine (foldl_blank ?_ _ _).trans ?_; intro s x)
    | (split <;> try (rename_i h; with_reducible rw [Prod.ext_iff] at h; have h' := h.2; dsimp only at h'; subst h'))
    | dsimp only

theorem stopCount_frame (s : State) (n : Nat) (hn : n ||| 0x4 = n) :
    blank n (stopCount s) = blank n s := by
  refine blank_mono (m := 0x4) ?_ hn
  unfold stopCount
  repeat' first
    | with_reducible rfl
    | simp only [mk_4, takeFree, Nat.reduceOr, apply_ite (blank _), apply_ite (keeps _ s), ite_self, implies_true, foldl_blank, keeps_next, Option.elim]
    | (with_reducible refine (foldl_blank ?_ _ _).trans ?_; intro s x)
    | (split <;> try (rename_i h; with_reducible rw [Prod.ext_iff] at h; have h' := h.2; dsimp only at h'; subst h'))
    | dsimp only

theorem startRun_frame (a0) (a1) (a2) (a3) (a4) (s : State) (n : Nat) (hn : n ||| 0x1BFFFFFFF = n) :
    blank n (startRun a0 a1 a2 a3 a4 s) = blank n s := by
  refine blank_mono (m := 0x1BFFFFFFF) ?_ hn
  induction a0 generalizing s a1 a2 a3 with
  | zero => rfl
  | succ k ih =>
    rw [startRun]
    have hb := beginStart_frame a1 a2 a4 s 0x1BFFFFFFF rfl
    generalize beginStart a1 a2 a4 s = u at *
    have h4 := stepFour_frame a4 { u with upd.fellBack := a3 } 0x1BFFFFFFF rfl
    rw [mk_1BFFFFFFF] at h4
    generalize stepFour a4 { u with upd.fellBack := a3 } = r at *
    obtain ⟨c, t⟩ := r
    cases c with
    | none => exact h4.trans hb
    | some c =>
      dsimp only
      have h5 := fromFive_frame a1 c a4 t 0x1BFFFFFFF rfl
      generalize fromFive a1 c a4 t = r at *
      obtain ⟨b, w⟩ := r
      cases b with
      | false => dsimp only; exact h5.trans (h4.trans hb)
      | true =>
        dsimp only
        refine (ih _ _ _ _).trans ?_
        refine ((stopCount_frame _ _ rfl).trans (failProbation_frame _ _ rfl)).trans ?_
        exact h5.trans (h4.trans hb)

theorem endStageCfg_frame (a0) (a1) (s : State) (n : Nat) (hn : n ||| 0x1BFFFFFFF = n) :
    blank n (endStageCfg a0 a1 s) = blank n s := by
  refine blank_mono (m := 0x1BFFFFFFF) ?_ hn
  unfold endStageCfg
  repeat' first
    | with_reducible rfl
    | simp only [mk_1BFFFFFFF, takeFree, Nat.reduceOr, apply_ite (blank _), apply_ite (keeps _ s), ite_self, implies_true, foldl_blank, keeps_next, Option.elim, stageFailed_frame, stageEnded_frame, writeBoot_frame, fromFive_frame, startRun_frame, stopCount_frame, failProbation_frame]
    | (with_reducible refine (foldl_blank ?_ _ _).trans ?_; intro s x)
    | (split <;> try (rename_i h; with_reducible rw [Prod.ext_iff] at h; have h' := h.2; dsimp only at h'; subst h'))
    | dsimp only

theorem endStageFw_frame (a0) (s : State) (n : Nat) (hn : n ||| 0x187204C8E = n) :
    blank n (endStageFw a0 s) = blank n s := by
  refine blank_mono (m := 0x187204C8E) ?_ hn
  unfold endStageFw
  repeat' first
    | with_reducible rfl
    | simp only [mk_187204C8E, takeFree, Nat.reduceOr, apply_ite (blank _), apply_ite (keeps _ s), ite_self, implies_true, foldl_blank, keeps_next, Option.elim, stageFailed_frame, stageEnded_frame]
    | (with_reducible refine (foldl_blank ?_ _ _).trans ?_; intro s x)
    | (split <;> try (rename_i h; with_reducible rw [Prod.ext_iff] at h; have h' := h.2; dsimp only at h'; subst h'))
    | dsimp only

theorem enterActive_frame (a0) (s : State) (n : Nat) (hn : n ||| 0x83244C8E = n) :
    blank n (enterActive a0 s) = blank n s := by
  refine blank_mono (m := 0x83244C8E) ?_ hn
  unfold enterActive
  repeat' first
    | with_reducible rfl
    | simp only [mk_83244C8E, takeFree, Nat.reduceOr, apply_ite (blank _), apply_ite (keeps _ s), ite_self, implies_true, foldl_blank, keeps_next, Option.elim, record_frame, modPort_frame, dmlIssue_frame]
    | (with_reducible refine (foldl_blank ?_ _ _).trans ?_; intro s x)
    | (split <;> try (rename_i h; with_reducible rw [Prod.ext_iff] at h; have h' := h.2; dsimp only at h'; subst h'))
    | dsimp only

theorem settleStart_frame (s : State) (n : Nat) (hn : n ||| 0x202001 = n) :
    blank n (settleStart s) = blank n s := by
  refine blank_mono (m := 0x202001) ?_ hn
  unfold settleStart
  repeat' first
    | with_reducible rfl
    | simp only [mk_202001, takeFree, Nat.reduceOr, apply_ite (blank _), apply_ite (keeps _ s), ite_self, implies_true, foldl_blank, keeps_next, Option.elim, setOwned_frame]
    | (with_reducible refine (foldl_blank ?_ _ _).trans ?_; intro s x)
    | (split <;> try (rename_i h; with_reducible rw [Prod.ext_iff] at h; have h' := h.2; dsimp only at h'; subst h'))
    | dsimp only

theorem raiseFloor_frame (a0) (s : State) (n : Nat) (hn : n ||| 0xA000024 = n) :
    blank n (raiseFloor a0 s) = blank n s := by
  refine blank_mono (m := 0xA000024) ?_ hn
  unfold raiseFloor
  repeat' first
    | with_reducible rfl
    | simp only [mk_A000024, takeFree, Nat.reduceOr, apply_ite (blank _), apply_ite (keeps _ s), ite_self, implies_true, foldl_blank, keeps_next, Option.elim, copiesPut_frame]
    | (with_reducible refine (foldl_blank ?_ _ _).trans ?_; intro s x)
    | (split <;> try (rename_i h; with_reducible rw [Prod.ext_iff] at h; have h' := h.2; dsimp only at h'; subst h'))
    | dsimp only

theorem mirrorCfg_frame (s : State) (n : Nat) (hn : n ||| 0x18F204CAF = n) :
    blank n (mirrorCfg s) = blank n s := by
  refine blank_mono (m := 0x18F204CAF) ?_ hn
  unfold mirrorCfg
  repeat' first
    | with_reducible rfl
    | simp only [mk_18F204CAF, takeFree, Nat.reduceOr, apply_ite (blank _), apply_ite (keeps _ s), ite_self, implies_true, foldl_blank, keeps_next, Option.elim, raiseFloor_frame, norWrite_frame, norErase_frame, writeBoot_frame]
    | (with_reducible refine (foldl_blank ?_ _ _).trans ?_; intro s x)
    | (split <;> try (rename_i h; with_reducible rw [Prod.ext_iff] at h; have h' := h.2; dsimp only at h'; subst h'))
    | dsimp only

theorem enterReady_frame (a0) (s : State) (n : Nat) (hn : n ||| 0x18F3C6CAF = n) :
    blank n (enterReady a0 s) = blank n s := by
  refine blank_mono (m := 0x18F3C6CAF) ?_ hn
  unfold enterReady
  repeat' first
    | with_reducible rfl
    | simp only [mk_18F3C6CAF, takeFree, Nat.reduceOr, apply_ite (blank _), apply_ite (keeps _ s), ite_self, implies_true, foldl_blank, keeps_next, Option.elim, settleStart_frame, record_frame, writeAnchors_frame, mirrorCfg_frame]
    | (with_reducible refine (foldl_blank ?_ _ _).trans ?_; intro s x)
    | (split <;> try (rename_i h; with_reducible rw [Prod.ext_iff] at h; have h' := h.2; dsimp only at h'; subst h'))
    | dsimp only

theorem enterRetrain_frame (a0) (s : State) (n : Nat) (hn : n ||| 0x83244C8E = n) :
    blank n (enterRetrain a0 s) = blank n s := by
  refine blank_mono (m := 0x83244C8E) ?_ hn
  unfold enterRetrain
  repeat' first
    | with_reducible rfl
    | simp only [mk_83244C8E, takeFree, Nat.reduceOr, apply_ite (blank _), apply_ite (keeps _ s), ite_self, implies_true, foldl_blank, keeps_next, Option.elim, record_frame, modPort_frame]
    | (with_reducible refine (foldl_blank ?_ _ _).trans ?_; intro s x)
    | (split <;> try (rename_i h; with_reducible rw [Prod.ext_iff] at h; have h' := h.2; dsimp only at h'; subst h'))
    | dsimp only

theorem enterTenant_frame (a0) (s : State) (n : Nat) (hn : n ||| 0x8 = n) :
    blank n (enterTenant a0 s) = blank n s := by
  refine blank_mono (m := 0x8) ?_ hn
  unfold enterTenant
  repeat' first
    | with_reducible rfl
    | simp only [mk_8, takeFree, Nat.reduceOr, apply_ite (blank _), apply_ite (keeps _ s), ite_self, implies_true, foldl_blank, keeps_next, Option.elim]
    | (with_reducible refine (foldl_blank ?_ _ _).trans ?_; intro s x)
    | (split <;> try (rename_i h; with_reducible rw [Prod.ext_iff] at h; have h' := h.2; dsimp only at h'; subst h'))
    | dsimp only

theorem setHeld_frame (a0) (s : State) (n : Nat) (hn : n ||| 0x400 = n) :
    blank n (setHeld a0 s) = blank n s := by
  refine blank_mono (m := 0x400) ?_ hn
  unfold setHeld
  repeat' first
    | with_reducible rfl
    | simp only [mk_400, takeFree, Nat.reduceOr, apply_ite (blank _), apply_ite (keeps _ s), ite_self, implies_true, foldl_blank, keeps_next, Option.elim]
    | (with_reducible refine (foldl_blank ?_ _ _).trans ?_; intro s x)
    | (split <;> try (rename_i h; with_reducible rw [Prod.ext_iff] at h; have h' := h.2; dsimp only at h'; subst h'))
    | dsimp only

theorem epLinkDown_frame (a0) (a1) (s : State) (n : Nat) (hn : n ||| 0x83204C8E = n) :
    blank n (epLinkDown a0 a1 s) = blank n s := by
  refine blank_mono (m := 0x83204C8E) ?_ hn
  unfold epLinkDown
  repeat' first
    | with_reducible rfl
    | simp only [mk_83204C8E, takeFree, Nat.reduceOr, apply_ite (blank _), apply_ite (keeps _ s), ite_self, implies_true, foldl_blank, keeps_next, Option.elim, modEp_frame, record_frame, setHeld_frame]
    | (with_reducible refine (foldl_blank ?_ _ _).trans ?_; intro s x)
    | (split <;> try (rename_i h; with_reducible rw [Prod.ext_iff] at h; have h' := h.2; dsimp only at h'; subst h'))
    | dsimp only

theorem regWrite_frame (a0) (a1) (a2) (s : State) (n : Nat) (hn : n ||| 0x83204C8E = n) (h0 : ∀ x, blank n (a2 x) = blank n x) :
    blank n (regWrite a0 a1 a2 s) = blank n s := by
  unfold regWrite
  repeat' first
    | with_reducible rfl
    | exact h0 _
    | exact outside_frame _ _ _ _ _ (or_sub hn rfl)
    | exact barWrite_frame _ _ _ _ _ (or_sub hn rfl) (fun t => by first | (dsimp only; split <;> first | rfl | exact h0 _) | (split <;> first | rfl | exact h0 _))
    | split

theorem handoffFail_frame (a0) (s : State) (n : Nat) (hn : n ||| 0x8320EC8E = n) :
    blank n (handoffFail a0 s) = blank n s := by
  refine blank_mono (m := 0x8320EC8E) ?_ hn
  unfold handoffFail
  repeat' first
    | with_reducible rfl
    | simp only [mk_8320EC8E, takeFree, Nat.reduceOr, apply_ite (blank _), apply_ite (keeps _ s), ite_self, implies_true, foldl_blank, keeps_next, Option.elim, contain_frame, record_frame]
    | (with_reducible refine (foldl_blank ?_ _ _).trans ?_; intro s x)
    | (split <;> try (rename_i h; with_reducible rw [Prod.ext_iff] at h; have h' := h.2; dsimp only at h'; subst h'))
    | dsimp only

theorem untake_frame (a0) (s : State) (n : Nat) (hn : n ||| 0x2000 = n) :
    blank n (untake a0 s) = blank n s := by
  refine blank_mono (m := 0x2000) ?_ hn
  unfold untake
  repeat' first
    | with_reducible rfl
    | simp only [mk_2000, takeFree, Nat.reduceOr, apply_ite (blank _), apply_ite (keeps _ s), ite_self, implies_true, foldl_blank, keeps_next, Option.elim]
    | (with_reducible refine (foldl_blank ?_ _ _).trans ?_; intro s x)
    | (split <;> try (rename_i h; with_reducible rw [Prod.ext_iff] at h; have h' := h.2; dsimp only at h'; subst h'))
    | dsimp only

theorem readMapped_frame (a0) (a1) (a2) (a3) (a4) (s : State) (n : Nat) (hn : n ||| 0x8F3DECAF = n) :
    blank n (readMapped a0 a1 a2 a3 a4 s).2 = blank n s := by
  refine blank_mono (m := 0x8F3DECAF) ?_ hn
  unfold readMapped
  repeat' first
    | with_reducible rfl
    | simp only [mk_8F3DECAF, takeFree, Nat.reduceOr, apply_ite (blank _), apply_ite (keeps _ s), ite_self, implies_true, foldl_blank, keeps_next, Option.elim, readStored_frame]
    | (with_reducible refine (foldl_blank ?_ _ _).trans ?_; intro s x)
    | (split <;> try (rename_i h; with_reducible rw [Prod.ext_iff] at h; have h' := h.2; dsimp only at h'; subst h'))
    | dsimp only

theorem staleItem_frame (a0) (a1) (a2) (s : State) (n : Nat) (hn : n ||| 0x83204C8E = n) :
    blank n (staleItem a0 a1 a2 s) = blank n s := by
  refine blank_mono (m := 0x83204C8E) ?_ hn
  unfold staleItem
  repeat' first
    | with_reducible rfl
    | simp only [mk_83204C8E, takeFree, Nat.reduceOr, apply_ite (blank _), apply_ite (keeps _ s), ite_self, implies_true, foldl_blank, keeps_next, Option.elim, record_frame]
    | (with_reducible refine (foldl_blank ?_ _ _).trans ?_; intro s x)
    | (split <;> try (rename_i h; with_reducible rw [Prod.ext_iff] at h; have h' := h.2; dsimp only at h'; subst h'))
    | dsimp only

theorem protect_frame (a0) (s : State) (n : Nat) (hn : n ||| 0x2000 = n) :
    blank n (protect a0 s) = blank n s := by
  refine blank_mono (m := 0x2000) ?_ hn
  unfold protect
  repeat' first
    | with_reducible rfl
    | simp only [mk_2000, takeFree, Nat.reduceOr, apply_ite (blank _), apply_ite (keeps _ s), ite_self, implies_true, foldl_blank, keeps_next, Option.elim]
    | (with_reducible refine (foldl_blank ?_ _ _).trans ?_; intro s x)
    | (split <;> try (rename_i h; with_reducible rw [Prod.ext_iff] at h; have h' := h.2; dsimp only at h'; subst h'))
    | dsimp only

theorem startAssembly_frame (a0) (a1) (a2) (a3) (s : State) (n : Nat) (hn : n ||| 0x8F3DECAF = n) :
    blank n (startAssembly a0 a1 a2 a3 s) = blank n s := by
  refine blank_mono (m := 0x8F3DECAF) ?_ hn
  unfold startAssembly
  repeat' first
    | with_reducible rfl
    | simp only [mk_8F3DECAF, takeFree, Nat.reduceOr, apply_ite (blank _), apply_ite (keeps _ s), ite_self, implies_true, foldl_blank, keeps_next, Option.elim, readMapped_frame, handoffFail_frame]
    | (with_reducible refine (foldl_blank ?_ _ _).trans ?_; intro s x)
    | (split <;> try (rename_i h; with_reducible rw [Prod.ext_iff] at h; have h' := h.2; dsimp only at h'; subst h'))
    | dsimp only

theorem startCopy_frame (a0) (a1) (a2) (s : State) (n : Nat) (hn : n ||| 0x8F3DECAF = n) :
    blank n (startCopy a0 a1 a2 s) = blank n s := by
  refine blank_mono (m := 0x8F3DECAF) ?_ hn
  unfold startCopy
  repeat' first
    | with_reducible rfl
    | simp only [mk_8F3DECAF, takeFree, Nat.reduceOr, apply_ite (blank _), apply_ite (keeps _ s), ite_self, implies_true, foldl_blank, keeps_next, Option.elim, readMapped_frame]
    | (with_reducible refine (foldl_blank ?_ _ _).trans ?_; intro s x)
    | (split <;> try (rename_i h; with_reducible rw [Prod.ext_iff] at h; have h' := h.2; dsimp only at h'; subst h'))
    | dsimp only

theorem readsDone_frame (a0) (a1) (s : State) (n : Nat) (hn : n ||| 0x80000480 = n) :
    blank n (readsDone a0 a1 s) = blank n s := by
  refine blank_mono (m := 0x80000480) ?_ hn
  unfold readsDone
  repeat' first
    | with_reducible rfl
    | simp only [mk_80000480, takeFree, Nat.reduceOr, apply_ite (blank _), apply_ite (keeps _ s), ite_self, implies_true, foldl_blank, keeps_next, Option.elim, issueReads_frame, modEp_frame]
    | (with_reducible refine (foldl_blank ?_ _ _).trans ?_; intro s x)
    | (split <;> try (rename_i h; with_reducible rw [Prod.ext_iff] at h; have h' := h.2; dsimp only at h'; subst h'))
    | dsimp only

theorem tagFetched_frame (a0) (a1) (s : State) (n : Nat) (hn : n ||| 0x400 = n) :
    blank n (tagFetched a0 a1 s) = blank n s := by
  refine blank_mono (m := 0x400) ?_ hn
  unfold tagFetched
  repeat' first
    | with_reducible rfl
    | simp only [mk_400, takeFree, Nat.reduceOr, apply_ite (blank _), apply_ite (keeps _ s), ite_self, implies_true, foldl_blank, keeps_next, Option.elim, modQueue_frame]
    | (with_reducible refine (foldl_blank ?_ _ _).trans ?_; intro s x)
    | (split <;> try (rename_i h; with_reducible rw [Prod.ext_iff] at h; have h' := h.2; dsimp only at h'; subst h'))
    | dsimp only

theorem fetchCmd_frame (a0) (a1) (a2) (s : State) (n : Nat) (hn : n ||| 0x80000480 = n) :
    blank n (fetchCmd a0 a1 a2 s).2 = blank n s := by
  refine blank_mono (m := 0x80000480) ?_ hn
  unfold fetchCmd
  repeat' first
    | with_reducible rfl
    | simp only [mk_80000480, takeFree, Nat.reduceOr, apply_ite (blank _), apply_ite (keeps _ s), ite_self, implies_true, foldl_blank, keeps_next, Option.elim, readsDone_frame, tagFetched_frame]
    | (with_reducible refine (foldl_blank ?_ _ _).trans ?_; intro s x)
    | (split <;> try (rename_i h; with_reducible rw [Prod.ext_iff] at h; have h' := h.2; dsimp only at h'; subst h'))
    | dsimp only

theorem modAnyCmd_frame (a0) (a1) (a2) (a3) (s : State) (n : Nat) (hn : n ||| 0x400 = n) :
    blank n (modAnyCmd a0 a1 a2 a3 s) = blank n s := by
  refine blank_mono (m := 0x400) ?_ hn
  unfold modAnyCmd
  repeat' first
    | with_reducible rfl
    | simp only [mk_400, takeFree, Nat.reduceOr, apply_ite (blank _), apply_ite (keeps _ s), ite_self, implies_true, foldl_blank, keeps_next, Option.elim]
    | (with_reducible refine (foldl_blank ?_ _ _).trans ?_; intro s x)
    | (split <;> try (rename_i h; with_reducible rw [Prod.ext_iff] at h; have h' := h.2; dsimp only at h'; subst h'))
    | dsimp only

theorem setCmdState_frame (a0) (a1) (s : State) (n : Nat) (hn : n ||| 0x400 = n) :
    blank n (setCmdState a0 a1 s) = blank n s := by
  refine blank_mono (m := 0x400) ?_ hn
  unfold setCmdState
  repeat' first
    | with_reducible rfl
    | simp only [mk_400, takeFree, Nat.reduceOr, apply_ite (blank _), apply_ite (keeps _ s), ite_self, implies_true, foldl_blank, keeps_next, Option.elim, modAnyCmd_frame]
    | (with_reducible refine (foldl_blank ?_ _ _).trans ?_; intro s x)
    | (split <;> try (rename_i h; with_reducible rw [Prod.ext_iff] at h; have h' := h.2; dsimp only at h'; subst h'))
    | dsimp only

theorem forwardCmd_frame (a0) (s : State) (n : Nat) (hn : n ||| 0x80200482 = n) :
    blank n (forwardCmd a0 s) = blank n s := by
  refine blank_mono (m := 0x80200482) ?_ hn
  unfold forwardCmd
  repeat' first
    | with_reducible rfl
    | simp only [mk_80200482, takeFree, Nat.reduceOr, apply_ite (blank _), apply_ite (keeps _ s), ite_self, implies_true, foldl_blank, keeps_next, Option.elim, setCmdState_frame, xhlSend_frame, readBuffers_frame]
    | (with_reducible refine (foldl_blank ?_ _ _).trans ?_; intro s x)
    | (split <;> try (rename_i h; with_reducible rw [Prod.ext_iff] at h; have h' := h.2; dsimp only at h'; subst h'))
    | dsimp only

theorem readChunkPart_frame (a0) (a1) (a2) (a3) (a4) (a5) (a6) (s : State) (n : Nat) (hn : n ||| 0x8F3DECAF = n) :
    blank n (readChunkPart a0 a1 a2 a3 a4 a5 a6 s).2 = blank n s := by
  refine blank_mono (m := 0x8F3DECAF) ?_ hn
  unfold readChunkPart
  repeat' first
    | with_reducible rfl
    | simp only [mk_8F3DECAF, takeFree, Nat.reduceOr, apply_ite (blank _), apply_ite (keeps _ s), ite_self, implies_true, foldl_blank, keeps_next, Option.elim, readMapped_frame]
    | (with_reducible refine (foldl_blank ?_ _ _).trans ?_; intro s x)
    | (split <;> try (rename_i h; with_reducible rw [Prod.ext_iff] at h; have h' := h.2; dsimp only at h'; subst h'))
    | dsimp only

theorem readRange_frame (a0) (a1) (a2) (a3) (a4) (a5) (s : State) (n : Nat) (hn : n ||| 0x8F3DECAF = n) :
    blank n (readRange a0 a1 a2 a3 a4 a5 s).2 = blank n s := by
  refine blank_mono (m := 0x8F3DECAF) ?_ hn
  unfold readRange
  have key : ∀ (l : List Nat) (acc : List SectorRead × State), blank 0x8F3DECAF (l.foldl (fun (acc : List SectorRead × State) i =>
      (acc.1 ++ (readChunkPart a0 a1 (a3 / 8 + i) a2 a3 a4 a5 acc.2).1, (readChunkPart a0 a1 (a3 / 8 + i) a2 a3 a4 a5 acc.2).2)) acc).2 =
      blank 0x8F3DECAF acc.2 := by
    intro l
    induction l with
    | nil => intro acc; rfl
    | cons x l ih => intro acc; rw [List.foldl_cons, ih]; exact readChunkPart_frame a0 a1 (a3 / 8 + x) a2 a3 a4 a5 acc.2 _ rfl
  exact key _ _

theorem putOut_frame (a0) (a1) (a2) (a3) (s : State) (n : Nat) (hn : n ||| 0x90200082 = n) :
    blank n (putOut a0 a1 a2 a3 s) = blank n s := by
  refine blank_mono (m := 0x90200082) ?_ hn
  unfold putOut
  repeat' first
    | with_reducible rfl
    | simp only [mk_90200082, takeFree, Nat.reduceOr, apply_ite (blank _), apply_ite (keeps _ s), ite_self, implies_true, foldl_blank, keeps_next, Option.elim, xhlSend_frame, deliver_frame]
    | (with_reducible refine (foldl_blank ?_ _ _).trans ?_; intro s x)
    | (split <;> try (rename_i h; with_reducible rw [Prod.ext_iff] at h; have h' := h.2; dsimp only at h'; subst h'))
    | dsimp only

theorem runRead_frame (a0) (a1) (s : State) (n : Nat) (hn : n ||| 0x9F3DECAF = n) :
    blank n (runRead a0 a1 s) = blank n s := by
  refine blank_mono (m := 0x9F3DECAF) ?_ hn
  unfold runRead
  repeat' first
    | with_reducible rfl
    | simp only [mk_9F3DECAF, takeFree, Nat.reduceOr, apply_ite (blank _), apply_ite (keeps _ s), ite_self, implies_true, foldl_blank, keeps_next, Option.elim, readRange_frame, putOut_frame, endCmd_frame]
    | (with_reducible refine (foldl_blank ?_ _ _).trans ?_; intro s x)
    | (split <;> try (rename_i h; with_reducible rw [Prod.ext_iff] at h; have h' := h.2; dsimp only at h'; subst h'))
    | dsimp only

theorem startTransfer_frame (a0) (s : State) (n : Nat) (hn : n ||| 0x83206C8E = n) :
    blank n (startTransfer a0 s) = blank n s := by
  refine blank_mono (m := 0x83206C8E) ?_ hn
  unfold startTransfer
  repeat' first
    | with_reducible rfl
    | simp only [mk_83206C8E, takeFree, Nat.reduceOr, apply_ite (blank _), apply_ite (keeps _ s), ite_self, implies_true, foldl_blank, keeps_next, Option.elim, modAnyCmd_frame, readBuffers_frame, rebudget_frame]
    | (with_reducible refine (foldl_blank ?_ _ _).trans ?_; intro s x)
    | (split <;> try (rename_i h; with_reducible rw [Prod.ext_iff] at h; have h' := h.2; dsimp only at h'; subst h'))
    | dsimp only

theorem reserveOrHold_frame (a0) (s : State) (n : Nat) (hn : n ||| 0x83206C8E = n) :
    blank n (reserveOrHold a0 s) = blank n s := by
  refine blank_mono (m := 0x83206C8E) ?_ hn
  unfold reserveOrHold
  repeat' first
    | with_reducible rfl
    | simp only [mk_83206C8E, takeFree, Nat.reduceOr, apply_ite (blank _), apply_ite (keeps _ s), ite_self, implies_true, foldl_blank, keeps_next, Option.elim, startTransfer_frame, noteLogFull_frame, modAnyCmd_frame]
    | (with_reducible refine (foldl_blank ?_ _ _).trans ?_; intro s x)
    | (split <;> try (rename_i h; with_reducible rw [Prod.ext_iff] at h; have h' := h.2; dsimp only at h'; subst h'))
    | dsimp only

theorem runFlush_frame (a0) (s : State) (n : Nat) (hn : n ||| 0x83204C8E = n) :
    blank n (runFlush a0 s) = blank n s := by
  refine blank_mono (m := 0x83204C8E) ?_ hn
  unfold runFlush
  repeat' first
    | with_reducible rfl
    | simp only [mk_83204C8E, takeFree, Nat.reduceOr, apply_ite (blank _), apply_ite (keeps _ s), ite_self, implies_true, foldl_blank, keeps_next, Option.elim, endCmd_frame, setCmdState_frame]
    | (with_reducible refine (foldl_blank ?_ _ _).trans ?_; intro s x)
    | (split <;> try (rename_i h; with_reducible rw [Prod.ext_iff] at h; have h' := h.2; dsimp only at h'; subst h'))
    | dsimp only

theorem runDiscard_frame (a0) (s : State) (n : Nat) (hn : n ||| 0x83384C8E = n) :
    blank n (runDiscard a0 s) = blank n s := by
  refine blank_mono (m := 0x83384C8E) ?_ hn
  unfold runDiscard
  repeat' first
    | with_reducible rfl
    | simp only [mk_83384C8E, takeFree, Nat.reduceOr, apply_ite (blank _), apply_ite (keeps _ s), ite_self, implies_true, foldl_blank, keeps_next, Option.elim, setCmdState_frame, endCmd_frame, discardChunks_frame]
    | (with_reducible refine (foldl_blank ?_ _ _).trans ?_; intro s x)
    | (split <;> try (rename_i h; with_reducible rw [Prod.ext_iff] at h; have h' := h.2; dsimp only at h'; subst h'))
    | dsimp only

theorem runHint_frame (a0) (s : State) (n : Nat) (hn : n ||| 0x83284C8E = n) :
    blank n (runHint a0 s) = blank n s := by
  refine blank_mono (m := 0x83284C8E) ?_ hn
  unfold runHint
  repeat' first
    | with_reducible rfl
    | simp only [mk_83284C8E, takeFree, Nat.reduceOr, apply_ite (blank _), apply_ite (keeps _ s), ite_self, implies_true, foldl_blank, keeps_next, Option.elim, endCmd_frame, modVol_frame, noteMapChange_frame]
    | (with_reducible refine (foldl_blank ?_ _ _).trans ?_; intro s x)
    | (split <;> try (rename_i h; with_reducible rw [Prod.ext_iff] at h; have h' := h.2; dsimp only at h'; subst h'))
    | dsimp only

theorem runFixity_frame (a0) (a1) (s : State) (n : Nat) (hn : n ||| 0x9F3FECAF = n) :
    blank n (runFixity a0 a1 s) = blank n s := by
  refine blank_mono (m := 0x9F3FECAF) ?_ hn
  unfold runFixity
  repeat' first
    | with_reducible rfl
    | simp only [mk_9F3FECAF, takeFree, Nat.reduceOr, apply_ite (blank _), apply_ite (keeps _ s), ite_self, implies_true, foldl_blank, keeps_next, Option.elim, endCmd_frame, readRange_frame, setCmdState_frame, digClear_frame]
    | (with_reducible refine (foldl_blank ?_ _ _).trans ?_; intro s x)
    | (split <;> try (rename_i h; with_reducible rw [Prod.ext_iff] at h; have h' := h.2; dsimp only at h'; subst h'))
    | dsimp only

theorem runRetain_frame (a0) (s : State) (n : Nat) (hn : n ||| 0x83284C8E = n) :
    blank n (runRetain a0 s) = blank n s := by
  refine blank_mono (m := 0x83284C8E) ?_ hn
  unfold runRetain
  repeat' first
    | with_reducible rfl
    | simp only [mk_83284C8E, takeFree, Nat.reduceOr, apply_ite (blank _), apply_ite (keeps _ s), ite_self, implies_true, foldl_blank, keeps_next, Option.elim, endCmd_frame, noteMapChange_frame, modVol_frame, record_frame, settleRetains_frame, setCmdState_frame]
    | (with_reducible refine (foldl_blank ?_ _ _).trans ?_; intro s x)
    | (split <;> try (rename_i h; with_reducible rw [Prod.ext_iff] at h; have h' := h.2; dsimp only at h'; subst h'))
    | dsimp only

theorem runSnapshot_frame (a0) (s : State) (n : Nat) (hn : n ||| 0x83204C8E = n) :
    blank n (runSnapshot a0 s) = blank n s := by
  refine blank_mono (m := 0x83204C8E) ?_ hn
  unfold runSnapshot
  repeat' first
    | with_reducible rfl
    | simp only [mk_83204C8E, takeFree, Nat.reduceOr, apply_ite (blank _), apply_ite (keeps _ s), ite_self, implies_true, foldl_blank, keeps_next, Option.elim, endCmd_frame, modVol_frame, setCmdState_frame]
    | (with_reducible refine (foldl_blank ?_ _ _).trans ?_; intro s x)
    | (split <;> try (rename_i h; with_reducible rw [Prod.ext_iff] at h; have h' := h.2; dsimp only at h'; subst h'))
    | dsimp only

theorem runClone_frame (a0) (s : State) (n : Nat) (hn : n ||| 0x83384C8E = n) :
    blank n (runClone a0 s) = blank n s := by
  refine blank_mono (m := 0x83384C8E) ?_ hn
  unfold runClone
  repeat' first
    | with_reducible rfl
    | simp only [mk_83384C8E, takeFree, Nat.reduceOr, apply_ite (blank _), apply_ite (keeps _ s), ite_self, implies_true, foldl_blank, keeps_next, Option.elim, endCmd_frame, addLost_frame, noteMapChange_frame, sendDelta_frame, record_frame]
    | (with_reducible refine (foldl_blank ?_ _ _).trans ?_; intro s x)
    | (split <;> try (rename_i h; with_reducible rw [Prod.ext_iff] at h; have h' := h.2; dsimp only at h'; subst h'))
    | dsimp only

theorem runSnapDelete_frame (a0) (s : State) (n : Nat) (hn : n ||| 0x83204C8E = n) :
    blank n (runSnapDelete a0 s) = blank n s := by
  refine blank_mono (m := 0x83204C8E) ?_ hn
  unfold runSnapDelete
  repeat' first
    | with_reducible rfl
    | simp only [mk_83204C8E, takeFree, Nat.reduceOr, apply_ite (blank _), apply_ite (keeps _ s), ite_self, implies_true, foldl_blank, keeps_next, Option.elim, endCmd_frame, modVol_frame]
    | (with_reducible refine (foldl_blank ?_ _ _).trans ?_; intro s x)
    | (split <;> try (rename_i h; with_reducible rw [Prod.ext_iff] at h; have h' := h.2; dsimp only at h'; subst h'))
    | dsimp only

theorem runQuery_frame (a0) (s : State) (n : Nat) (hn : n ||| 0x93204C8E = n) :
    blank n (runQuery a0 s) = blank n s := by
  refine blank_mono (m := 0x93204C8E) ?_ hn
  unfold runQuery
  repeat' first
    | with_reducible rfl
    | simp only [mk_93204C8E, takeFree, Nat.reduceOr, apply_ite (blank _), apply_ite (keeps _ s), ite_self, implies_true, foldl_blank, keeps_next, Option.elim, endCmd_frame, putOut_frame]
    | (with_reducible refine (foldl_blank ?_ _ _).trans ?_; intro s x)
    | (split <;> try (rename_i h; with_reducible rw [Prod.ext_iff] at h; have h' := h.2; dsimp only at h'; subst h'))
    | dsimp only

theorem runCreateQueue_frame (a0) (s : State) (n : Nat) (hn : n ||| 0x83204C8E = n) :
    blank n (runCreateQueue a0 s) = blank n s := by
  refine blank_mono (m := 0x83204C8E) ?_ hn
  unfold runCreateQueue
  repeat' first
    | with_reducible rfl
    | simp only [mk_83204C8E, takeFree, Nat.reduceOr, apply_ite (blank _), apply_ite (keeps _ s), ite_self, implies_true, foldl_blank, keeps_next, Option.elim, endCmd_frame, record_frame]
    | (with_reducible refine (foldl_blank ?_ _ _).trans ?_; intro s x)
    | (split <;> try (rename_i h; with_reducible rw [Prod.ext_iff] at h; have h' := h.2; dsimp only at h'; subst h'))
    | dsimp only

theorem runDeleteQueue_frame (a0) (s : State) (n : Nat) (hn : n ||| 0x83204C8E = n) :
    blank n (runDeleteQueue a0 s) = blank n s := by
  refine blank_mono (m := 0x83204C8E) ?_ hn
  unfold runDeleteQueue
  repeat' first
    | with_reducible rfl
    | simp only [mk_83204C8E, takeFree, Nat.reduceOr, apply_ite (blank _), apply_ite (keeps _ s), ite_self, implies_true, foldl_blank, keeps_next, Option.elim, endCmd_frame, setCmdState_frame, endReady_frame, modQueue_frame, settleQueue_frame]
    | (with_reducible refine (foldl_blank ?_ _ _).trans ?_; intro s x)
    | (split <;> try (rename_i h; with_reducible rw [Prod.ext_iff] at h; have h' := h.2; dsimp only at h'; subst h'))
    | dsimp only

theorem runResetQueue_frame (a0) (s : State) (n : Nat) (hn : n ||| 0x83204C8E = n) :
    blank n (runResetQueue a0 s) = blank n s := by
  refine blank_mono (m := 0x83204C8E) ?_ hn
  unfold runResetQueue
  repeat' first
    | with_reducible rfl
    | simp only [mk_83204C8E, takeFree, Nat.reduceOr, apply_ite (blank _), apply_ite (keeps _ s), ite_self, implies_true, foldl_blank, keeps_next, Option.elim, endCmd_frame, settleQueue_frame, modQueue_frame, setCmdState_frame]
    | (with_reducible refine (foldl_blank ?_ _ _).trans ?_; intro s x)
    | (split <;> try (rename_i h; with_reducible rw [Prod.ext_iff] at h; have h' := h.2; dsimp only at h'; subst h'))
    | dsimp only

theorem openSeedSpace_frame (a0) (a1) (a2) (s : State) (n : Nat) (hn : n ||| 0x83295C8E = n) :
    ∀ t, openSeedSpace a0 a1 a2 s = some t → blank n t = blank n s := by
  suffices key : ∀ t, openSeedSpace a0 a1 a2 s = some t → blank 0x83295C8E t = blank 0x83295C8E s from fun t h => blank_mono (key t h) hn
  intro t h
  unfold openSeedSpace at h
  split at h
  · rw [← Option.some.inj h]
  · split at h
    · cases h
    · rename_i hk
      have hs := congrArg Prod.snd hk
      dsimp only at h hs
      rw [← Option.some.inj h, ← hs]
      simp only [mk_83295C8E, takeFree, Nat.reduceOr, apply_ite (blank _), apply_ite (keeps _ s), ite_self, implies_true, foldl_blank, keeps_next, Option.elim, createDedupKey_frame, record_frame]

theorem runCreateVolume_frame (a0) (s : State) (n : Nat) (hn : n ||| 0x83295C8E = n) :
    blank n (runCreateVolume a0 s) = blank n s := by
  refine blank_mono (m := 0x83295C8E) ?_ hn
  unfold runCreateVolume
  split
  · simp only [mk_83295C8E, takeFree, Nat.reduceOr, apply_ite (blank _), apply_ite (keeps _ s), ite_self, implies_true, foldl_blank, keeps_next, Option.elim, endCmd_frame, enterTenant_frame, createTenantKeys_frame, noteMapChange_frame, sendDelta_frame, record_frame]
  · dsimp only
    split
    · simp only [mk_83295C8E, takeFree, Nat.reduceOr, apply_ite (blank _), apply_ite (keeps _ s), ite_self, implies_true, foldl_blank, keeps_next, Option.elim, endCmd_frame, enterTenant_frame, createTenantKeys_frame, noteMapChange_frame, sendDelta_frame, record_frame]
    · rename_i t ht
      have hb : blank 0x83295C8E t = blank 0x83295C8E s := by
        split at ht
        · exact openSeedSpace_frame _ _ _ _ _ rfl _ ht
        · rw [← Option.some.inj ht]
      simp only [hb, mk_83295C8E, takeFree, Nat.reduceOr, apply_ite (blank _), apply_ite (keeps _ s), ite_self, implies_true, foldl_blank, keeps_next, Option.elim, endCmd_frame, enterTenant_frame, createTenantKeys_frame, noteMapChange_frame, sendDelta_frame, record_frame]

theorem runDeleteVolume_frame (a0) (s : State) (n : Nat) (hn : n ||| 0x83396C8E = n) :
    blank n (runDeleteVolume a0 s) = blank n s := by
  refine blank_mono (m := 0x83396C8E) ?_ hn
  unfold runDeleteVolume
  repeat' first
    | with_reducible rfl
    | simp only [mk_83396C8E, takeFree, Nat.reduceOr, apply_ite (blank _), apply_ite (keeps _ s), ite_self, implies_true, foldl_blank, keeps_next, Option.elim, endCmd_frame, deleteVolume_frame]
    | (with_reducible refine (foldl_blank ?_ _ _).trans ?_; intro s x)
    | (split <;> try (rename_i h; with_reducible rw [Prod.ext_iff] at h; have h' := h.2; dsimp only at h'; subst h'))
    | dsimp only

theorem setPeriod_frame (a0) (a1) (s : State) (n : Nat) (hn : n ||| 0x8 = n) :
    blank n (setPeriod a0 a1 s) = blank n s := by
  refine blank_mono (m := 0x8) ?_ hn
  unfold setPeriod
  repeat' first
    | with_reducible rfl
    | simp only [mk_8, takeFree, Nat.reduceOr, apply_ite (blank _), apply_ite (keeps _ s), ite_self, implies_true, foldl_blank, keeps_next, Option.elim]
    | (with_reducible refine (foldl_blank ?_ _ _).trans ?_; intro s x)
    | (split <;> try (rename_i h; with_reducible rw [Prod.ext_iff] at h; have h' := h.2; dsimp only at h'; subst h'))
    | dsimp only

theorem runSetPeriod_frame (a0) (s : State) (n : Nat) (hn : n ||| 0x83204C8E = n) :
    blank n (runSetPeriod a0 s) = blank n s := by
  refine blank_mono (m := 0x83204C8E) ?_ hn
  unfold runSetPeriod
  repeat' first
    | with_reducible rfl
    | simp only [mk_83204C8E, takeFree, Nat.reduceOr, apply_ite (blank _), apply_ite (keeps _ s), ite_self, implies_true, foldl_blank, keeps_next, Option.elim, endCmd_frame, setPeriod_frame]
    | (with_reducible refine (foldl_blank ?_ _ _).trans ?_; intro s x)
    | (split <;> try (rename_i h; with_reducible rw [Prod.ext_iff] at h; have h' := h.2; dsimp only at h'; subst h'))
    | dsimp only

theorem runSetTime_frame (a0) (s : State) (n : Nat) (hn : n ||| 0x83204C8E = n) :
    blank n (runSetTime a0 s) = blank n s := by
  refine blank_mono (m := 0x83204C8E) ?_ hn
  unfold runSetTime
  repeat' first
    | with_reducible rfl
    | simp only [mk_83204C8E, takeFree, Nat.reduceOr, apply_ite (blank _), apply_ite (keeps _ s), ite_self, implies_true, foldl_blank, keeps_next, Option.elim, setCivil_frame, endCmd_frame]
    | (with_reducible refine (foldl_blank ?_ _ _).trans ?_; intro s x)
    | (split <;> try (rename_i h; with_reducible rw [Prod.ext_iff] at h; have h' := h.2; dsimp only at h'; subst h'))
    | dsimp only

theorem runPowerHint_frame (a0) (s : State) (n : Nat) (hn : n ||| 0x83204C8E = n) :
    blank n (runPowerHint a0 s) = blank n s := by
  refine blank_mono (m := 0x83204C8E) ?_ hn
  unfold runPowerHint
  repeat' first
    | with_reducible rfl
    | simp only [mk_83204C8E, takeFree, Nat.reduceOr, apply_ite (blank _), apply_ite (keeps _ s), ite_self, implies_true, foldl_blank, keeps_next, Option.elim, endCmd_frame]
    | (with_reducible refine (foldl_blank ?_ _ _).trans ?_; intro s x)
    | (split <;> try (rename_i h; with_reducible rw [Prod.ext_iff] at h; have h' := h.2; dsimp only at h'; subst h'))
    | dsimp only

theorem runAsync_frame (a0) (s : State) (n : Nat) (hn : n ||| 0x83204C8E = n) :
    blank n (runAsync a0 s) = blank n s := by
  refine blank_mono (m := 0x83204C8E) ?_ hn
  unfold runAsync
  repeat' first
    | with_reducible rfl
    | simp only [mk_83204C8E, takeFree, Nat.reduceOr, apply_ite (blank _), apply_ite (keeps _ s), ite_self, implies_true, foldl_blank, keeps_next, Option.elim, setCmdState_frame, finishWith_frame]
    | (with_reducible refine (foldl_blank ?_ _ _).trans ?_; intro s x)
    | (split <;> try (rename_i h; with_reducible rw [Prod.ext_iff] at h; have h' := h.2; dsimp only at h'; subst h'))
    | dsimp only

theorem runQueryDevice_frame (a0) (s : State) (n : Nat) (hn : n ||| 0x93204C8E = n) :
    blank n (runQueryDevice a0 s) = blank n s := by
  refine blank_mono (m := 0x93204C8E) ?_ hn
  unfold runQueryDevice
  repeat' first
    | with_reducible rfl
    | simp only [mk_93204C8E, takeFree, Nat.reduceOr, apply_ite (blank _), apply_ite (keeps _ s), ite_self, implies_true, foldl_blank, keeps_next, Option.elim, endCmd_frame, putOut_frame]
    | (with_reducible refine (foldl_blank ?_ _ _).trans ?_; intro s x)
    | (split <;> try (rename_i h; with_reducible rw [Prod.ext_iff] at h; have h' := h.2; dsimp only at h'; subst h'))
    | dsimp only

theorem runCmd_frame (a0) (a1) (s : State) (n : Nat) (hn : n ||| 0x9F3FFCAF = n) :
    blank n (runCmd a0 a1 s) = blank n s := by
  refine blank_mono (m := 0x9F3FFCAF) ?_ hn
  unfold runCmd
  repeat' first
    | with_reducible rfl
    | simp only [mk_9F3FFCAF, takeFree, Nat.reduceOr, apply_ite (blank _), apply_ite (keeps _ s), ite_self, implies_true, foldl_blank, keeps_next, Option.elim, runRead_frame, reserveOrHold_frame, runFlush_frame, runDiscard_frame, runHint_frame, runFixity_frame, runRetain_frame, runSnapshot_frame, runClone_frame, runSnapDelete_frame, runQuery_frame, runCreateQueue_frame, runDeleteQueue_frame, runResetQueue_frame, runCreateVolume_frame, runDeleteVolume_frame, runSetPeriod_frame, runSetTime_frame, runPowerHint_frame, runAsync_frame, runQueryDevice_frame]
    | (with_reducible refine (foldl_blank ?_ _ _).trans ?_; intro s x)
    | (split <;> try (rename_i h; with_reducible rw [Prod.ext_iff] at h; have h' := h.2; dsimp only at h'; subst h'))
    | dsimp only

theorem ownerRun_frame (a0) (a1) (a2) (s : State) (n : Nat) (hn : n ||| 0x9F3FFCAF = n) :
    blank n (ownerRun a0 a1 a2 s) = blank n s := by
  refine blank_mono (m := 0x9F3FFCAF) ?_ hn
  unfold ownerRun
  repeat' first
    | with_reducible rfl
    | simp only [mk_9F3FFCAF, takeFree, Nat.reduceOr, apply_ite (blank _), apply_ite (keeps _ s), ite_self, implies_true, foldl_blank, keeps_next, Option.elim, endCmd_frame, record_frame, runCmd_frame, setCmdState_frame]
    | (with_reducible refine (foldl_blank ?_ _ _).trans ?_; intro s x)
    | (split <;> try (rename_i h; with_reducible rw [Prod.ext_iff] at h; have h' := h.2; dsimp only at h'; subst h'))
    | dsimp only

theorem startListed_frame (a0) (a1) (a2) (s : State) (n : Nat) (hn : n ||| 0x9F3FFCAF = n) :
    blank n (startListed a0 a1 a2 s) = blank n s := by
  refine blank_mono (m := 0x9F3FFCAF) ?_ hn
  unfold startListed
  repeat' first
    | with_reducible rfl
    | simp only [mk_9F3FFCAF, takeFree, Nat.reduceOr, apply_ite (blank _), apply_ite (keeps _ s), ite_self, implies_true, foldl_blank, keeps_next, Option.elim, endCmd_frame, setCmdState_frame, forwardCmd_frame, ownerRun_frame]
    | (with_reducible refine (foldl_blank ?_ _ _).trans ?_; intro s x)
    | (split <;> try (rename_i h; with_reducible rw [Prod.ext_iff] at h; have h' := h.2; dsimp only at h'; subst h'))
    | dsimp only

theorem listReadReq_frame (a0) (a1) (a2) (a3) (s : State) (n : Nat) (hn : n ||| 0x80000480 = n) :
    blank n (listReadReq a0 a1 a2 a3 s) = blank n s := by
  refine blank_mono (m := 0x80000480) ?_ hn
  unfold listReadReq
  repeat' first
    | with_reducible rfl
    | simp only [mk_80000480, takeFree, Nat.reduceOr, apply_ite (blank _), apply_ite (keeps _ s), ite_self, implies_true, foldl_blank, keeps_next, Option.elim, issueReads_frame, modEp_frame]
    | (with_reducible refine (foldl_blank ?_ _ _).trans ?_; intro s x)
    | (split <;> try (rename_i h; with_reducible rw [Prod.ext_iff] at h; have h' := h.2; dsimp only at h'; subst h'))
    | dsimp only

theorem startCmd_frame (a0) (a1) (s : State) (n : Nat) (hn : n ||| 0x9F3FFCAF = n) :
    blank n (startCmd a0 a1 s) = blank n s := by
  refine blank_mono (m := 0x9F3FFCAF) ?_ hn
  unfold startCmd
  repeat' first
    | with_reducible rfl
    | simp only [mk_9F3FFCAF, takeFree, Nat.reduceOr, apply_ite (blank _), apply_ite (keeps _ s), ite_self, implies_true, foldl_blank, keeps_next, Option.elim, endCmd_frame, startListed_frame, listReadReq_frame, setCmdState_frame]
    | (with_reducible refine (foldl_blank ?_ _ _).trans ?_; intro s x)
    | (split <;> try (rename_i h; with_reducible rw [Prod.ext_iff] at h; have h' := h.2; dsimp only at h'; subst h'))
    | dsimp only

theorem listArrived_frame (a0) (a1) (a2) (a3) (a4) (s : State) (n : Nat) (hn : n ||| 0x9F3FFCAF = n) :
    blank n (listArrived a0 a1 a2 a3 a4 s) = blank n s := by
  refine blank_mono (m := 0x9F3FFCAF) ?_ hn
  unfold listArrived
  repeat' first
    | with_reducible rfl
    | simp only [mk_9F3FFCAF, takeFree, Nat.reduceOr, apply_ite (blank _), apply_ite (keeps _ s), ite_self, implies_true, foldl_blank, keeps_next, Option.elim, startListed_frame, setCmdState_frame, readsDone_frame]
    | (with_reducible refine (foldl_blank ?_ _ _).trans ?_; intro s x)
    | (split <;> try (rename_i h; with_reducible rw [Prod.ext_iff] at h; have h' := h.2; dsimp only at h'; subst h'))
    | dsimp only

theorem fetched_frame (a0) (a1) (a2) (a3) (a4) (a5) (s : State) (n : Nat) (hn : n ||| 0x9F3FFCAF = n) :
    keeps n s (fetched a0 a1 a2 a3 a4 a5 s) := by
  refine keeps_mono (m := 0x9F3FFCAF) ?_ hn
  unfold fetched
  repeat' first
    | with_reducible rfl
    | simp only [mk_9F3FFCAF, takeFree, Nat.reduceOr, apply_ite (blank _), apply_ite (keeps _ s), ite_self, implies_true, foldl_blank, keeps_next, Option.elim, fetchCmd_frame, finish_frame, startCmd_frame, listArrived_frame]
    | (with_reducible refine (foldl_blank ?_ _ _).trans ?_; intro s x)
    | (split <;> try (rename_i h; with_reducible rw [Prod.ext_iff] at h; have h' := h.2; dsimp only at h'; subst h'))
    | dsimp only

theorem leaveIdle_frame (s : State) (n : Nat) (hn : n ||| 0x80800482 = n) :
    blank n (leaveIdle s) = blank n s := by
  refine blank_mono (m := 0x80800482) ?_ hn
  unfold leaveIdle
  repeat' first
    | with_reducible rfl
    | simp only [mk_80800482, takeFree, Nat.reduceOr, apply_ite (blank _), apply_ite (keeps _ s), ite_self, implies_true, foldl_blank, keeps_next, Option.elim, exitIdle_frame]
    | (with_reducible refine (foldl_blank ?_ _ _).trans ?_; intro s x)
    | (split <;> try (rename_i h; with_reducible rw [Prod.ext_iff] at h; have h' := h.2; dsimp only at h'; subst h'))
    | dsimp only

theorem stopReduce_frame (s : State) (n : Nat) (hn : n ||| 0x80306002 = n) :
    blank n (stopReduce s) = blank n s := by
  refine blank_mono (m := 0x80306002) ?_ hn
  unfold stopReduce
  repeat' first
    | with_reducible rfl
    | simp only [mk_80306002, takeFree, Nat.reduceOr, apply_ite (blank _), apply_ite (keeps _ s), ite_self, implies_true, foldl_blank, keeps_next, Option.elim, lowerRef_frame]
    | (with_reducible refine (foldl_blank ?_ _ _).trans ?_; intro s x)
    | (split <;> try (rename_i h; with_reducible rw [Prod.ext_iff] at h; have h' := h.2; dsimp only at h'; subst h'))
    | dsimp only

theorem stopMaintenance_frame (s : State) (n : Nat) (hn : n ||| 0x100000 = n) :
    blank n (stopMaintenance s) = blank n s := by
  refine blank_mono (m := 0x100000) ?_ hn
  unfold stopMaintenance
  repeat' first
    | with_reducible rfl
    | simp only [mk_100000, takeFree, Nat.reduceOr, apply_ite (blank _), apply_ite (keeps _ s), ite_self, implies_true, foldl_blank, keeps_next, Option.elim]
    | (with_reducible refine (foldl_blank ?_ _ _).trans ?_; intro s x)
    | (split <;> try (rename_i h; with_reducible rw [Prod.ext_iff] at h; have h' := h.2; dsimp only at h'; subst h'))
    | dsimp only

theorem flushCommit_frame (a0) (s : State) (n : Nat) (hn : n ||| 0x8BB06C8F = n) :
    blank n (flushCommit a0 s) = blank n s := by
  refine blank_mono (m := 0x8BB06C8F) ?_ hn
  unfold flushCommit
  repeat' first
    | with_reducible rfl
    | simp only [mk_8BB06C8F, takeFree, Nat.reduceOr, apply_ite (blank _), apply_ite (keeps _ s), ite_self, implies_true, foldl_blank, keeps_next, Option.elim, almSaveAll_frame, leaveIdle_frame, record_frame, stopReduce_frame, stopMaintenance_frame, dropHolds_frame, xhlSend_frame]
    | (with_reducible refine (foldl_blank ?_ _ _).trans ?_; intro s x)
    | (split <;> try (rename_i h; with_reducible rw [Prod.ext_iff] at h; have h' := h.2; dsimp only at h'; subst h'))
    | dsimp only

theorem sendRecord_frame (a0) (a1) (a2) (a3) (a4) (s : State) (n : Nat) (hn : n ||| 0x83205C8E = n) :
    blank n (sendRecord a0 a1 a2 a3 a4 s) = blank n s := by
  refine blank_mono (m := 0x83205C8E) ?_ hn
  unfold sendRecord
  repeat' first
    | with_reducible rfl
    | simp only [mk_83205C8E, takeFree, Nat.reduceOr, apply_ite (blank _), apply_ite (keeps _ s), ite_self, implies_true, foldl_blank, keeps_next, Option.elim, setLink_frame, modLink_frame, issueRoce_frame]
    | (with_reducible refine (foldl_blank ?_ _ _).trans ?_; intro s x)
    | (split <;> try (rename_i h; with_reducible rw [Prod.ext_iff] at h; have h' := h.2; dsimp only at h'; subst h'))
    | dsimp only

theorem shipBatch_frame (a0) (a1) (a2) (s : State) (n : Nat) (hn : n ||| 0x8F3DFCAF = n) :
    blank n (shipBatch a0 a1 a2 s) = blank n s := by
  refine blank_mono (m := 0x8F3DFCAF) ?_ hn
  unfold shipBatch
  repeat' first
    | with_reducible rfl
    | simp only [mk_8F3DFCAF, takeFree, Nat.reduceOr, apply_ite (blank _), apply_ite (keeps _ s), ite_self, implies_true, foldl_blank, keeps_next, Option.elim, sendRecord_frame, chunkPayload_frame, issueRoce_frame, modLink_frame]
    | (with_reducible refine (foldl_blank ?_ _ _).trans ?_; intro s x)
    | (split <;> try (rename_i h; with_reducible rw [Prod.ext_iff] at h; have h' := h.2; dsimp only at h'; subst h'))
    | dsimp only

theorem resumeEp_frame (a0) (s : State) (n : Nat) (hn : n ||| 0x83204C8E = n) :
    blank n (resumeEp a0 s) = blank n s := by
  refine blank_mono (m := 0x83204C8E) ?_ hn
  unfold resumeEp
  repeat' first
    | with_reducible rfl
    | simp only [mk_83204C8E, takeFree, Nat.reduceOr, apply_ite (blank _), apply_ite (keeps _ s), ite_self, implies_true, foldl_blank, keeps_next, Option.elim, setHeld_frame, modEp_frame, hostWriteReq_frame, issueReads_frame, sendPending_frame, releaseQueue_frame]
    | (with_reducible refine (foldl_blank ?_ _ _).trans ?_; intro s x)
    | (split <;> try (rename_i h; with_reducible rw [Prod.ext_iff] at h; have h' := h.2; dsimp only at h'; subst h'))
    | dsimp only

theorem slotsOff_frame (s : State) (n : Nat) (hn : n ||| 0x840000 = n) :
    blank n (slotsOff s) = blank n s := by
  refine blank_mono (m := 0x840000) ?_ hn
  unfold slotsOff
  repeat' first
    | with_reducible rfl
    | simp only [mk_840000, takeFree, Nat.reduceOr, apply_ite (blank _), apply_ite (keeps _ s), ite_self, implies_true, foldl_blank, keeps_next, Option.elim]
    | (with_reducible refine (foldl_blank ?_ _ _).trans ?_; intro s x)
    | (split <;> try (rename_i h; with_reducible rw [Prod.ext_iff] at h; have h' := h.2; dsimp only at h'; subst h'))
    | dsimp only

theorem linksOff_frame (s : State) (n : Nat) (hn : n ||| 0xA40880 = n) :
    blank n (linksOff s) = blank n s := by
  refine blank_mono (m := 0xA40880) ?_ hn
  unfold linksOff
  repeat' first
    | with_reducible rfl
    | simp only [mk_A40880, takeFree, Nat.reduceOr, apply_ite (blank _), apply_ite (keeps _ s), ite_self, implies_true, foldl_blank, keeps_next, Option.elim, slotsOff_frame]
    | (with_reducible refine (foldl_blank ?_ _ _).trans ?_; intro s x)
    | (split <;> try (rename_i h; with_reducible rw [Prod.ext_iff] at h; have h' := h.2; dsimp only at h'; subst h'))
    | dsimp only

theorem holdReset_frame (s : State) (n : Nat) (hn : n ||| 0x1A40885 = n) :
    blank n (holdReset s) = blank n s := by
  refine blank_mono (m := 0x1A40885) ?_ hn
  unfold holdReset
  repeat' first
    | with_reducible rfl
    | simp only [mk_1A40885, takeFree, Nat.reduceOr, apply_ite (blank _), apply_ite (keeps _ s), ite_self, implies_true, foldl_blank, keeps_next, Option.elim, stopCount_frame, linksOff_frame, keepCivil_frame]
    | (with_reducible refine (foldl_blank ?_ _ _).trans ?_; intro s x)
    | (split <;> try (rename_i h; with_reducible rw [Prod.ext_iff] at h; have h' := h.2; dsimp only at h'; subst h'))
    | dsimp only

theorem requestStatus_frame (a0) (a1) (a2) (s : State) (a4) (n : Nat) (hn : n ||| 0x80000000 = n) :
    blank n (requestStatus a0 a1 a2 s a4) = blank n s := by
  refine blank_mono (m := 0x80000000) ?_ hn
  unfold requestStatus
  repeat' first
    | with_reducible rfl
    | simp only [mk_80000000, takeFree, Nat.reduceOr, apply_ite (blank _), apply_ite (keeps _ s), ite_self, implies_true, foldl_blank, keeps_next, Option.elim, emit_frame]
    | (with_reducible refine (foldl_blank ?_ _ _).trans ?_; intro s x)
    | (split <;> try (rename_i h; with_reducible rw [Prod.ext_iff] at h; have h' := h.2; dsimp only at h'; subst h'))
    | dsimp only

theorem releasePort_frame (a0) (s : State) (n : Nat) (hn : n ||| 0x83204C8E = n) :
    blank n (releasePort a0 s) = blank n s := by
  refine blank_mono (m := 0x83204C8E) ?_ hn
  unfold releasePort
  repeat' first
    | with_reducible rfl
    | simp only [mk_83204C8E, takeFree, Nat.reduceOr, apply_ite (blank _), apply_ite (keeps _ s), ite_self, implies_true, foldl_blank, keeps_next, Option.elim, applyRegion_frame, modCtl_frame, setCtl_frame, record_frame]
    | (with_reducible refine (foldl_blank ?_ _ _).trans ?_; intro s x)
    | (split <;> try (rename_i h; with_reducible rw [Prod.ext_iff] at h; have h' := h.2; dsimp only at h'; subst h'))
    | dsimp only

theorem suspectPeer_frame (s : State) (n : Nat) (hn : n ||| 0x83206C8E = n) :
    blank n (suspectPeer s) = blank n s := by
  refine blank_mono (m := 0x83206C8E) ?_ hn
  unfold suspectPeer
  repeat' first
    | with_reducible rfl
    | simp only [mk_83206C8E, takeFree, Nat.reduceOr, apply_ite (blank _), apply_ite (keeps _ s), ite_self, implies_true, foldl_blank, keeps_next, Option.elim, holdMirror_frame, rebudget_frame, record_frame]
    | (with_reducible refine (foldl_blank ?_ _ _).trans ?_; intro s x)
    | (split <;> try (rename_i h; with_reducible rw [Prod.ext_iff] at h; have h' := h.2; dsimp only at h'; subst h'))
    | dsimp only

theorem xhlRetrain_frame (s : State) (n : Nat) (hn : n ||| 0x83206C8E = n) :
    blank n (xhlRetrain s) = blank n s := by
  refine blank_mono (m := 0x83206C8E) ?_ hn
  unfold xhlRetrain
  repeat' first
    | with_reducible rfl
    | simp only [mk_83206C8E, takeFree, Nat.reduceOr, apply_ite (blank _), apply_ite (keeps _ s), ite_self, implies_true, foldl_blank, keeps_next, Option.elim, suspectPeer_frame, record_frame]
    | (with_reducible refine (foldl_blank ?_ _ _).trans ?_; intro s x)
    | (split <;> try (rename_i h; with_reducible rw [Prod.ext_iff] at h; have h' := h.2; dsimp only at h'; subst h'))
    | dsimp only

theorem ledgerFigures_frame (s : State) (n : Nat) (hn : n ||| 0x80000 = n) :
    blank n (ledgerFigures s) = blank n s := by
  refine blank_mono (m := 0x80000) ?_ hn
  unfold ledgerFigures
  repeat' first
    | with_reducible rfl
    | simp only [mk_80000, takeFree, Nat.reduceOr, apply_ite (blank _), apply_ite (keeps _ s), ite_self, implies_true, foldl_blank, keeps_next, Option.elim]
    | (with_reducible refine (foldl_blank ?_ _ _).trans ?_; intro s x)
    | (split <;> try (rename_i h; with_reducible rw [Prod.ext_iff] at h; have h' := h.2; dsimp only at h'; subst h'))
    | dsimp only

theorem noteDieUse_frame (a0) (a1) (a2) (s : State) (n : Nat) (hn : n ||| 0x40000 = n) :
    blank n (noteDieUse a0 a1 a2 s) = blank n s := by
  refine blank_mono (m := 0x40000) ?_ hn
  unfold noteDieUse
  repeat' first
    | with_reducible rfl
    | simp only [mk_40000, takeFree, Nat.reduceOr, apply_ite (blank _), apply_ite (keeps _ s), ite_self, implies_true, foldl_blank, keeps_next, Option.elim, modPort_frame]
    | (with_reducible refine (foldl_blank ?_ _ _).trans ?_; intro s x)
    | (split <;> try (rename_i h; with_reducible rw [Prod.ext_iff] at h; have h' := h.2; dsimp only at h'; subst h'))
    | dsimp only

theorem laneMismatch_frame (a0) (a1) (a2) (s : State) (n : Nat) (hn : n ||| 0x183204C8E = n) :
    blank n (laneMismatch a0 a1 a2 s) = blank n s := by
  refine blank_mono (m := 0x183204C8E) ?_ hn
  unfold laneMismatch
  repeat' first
    | with_reducible rfl
    | simp only [mk_183204C8E, takeFree, Nat.reduceOr, apply_ite (blank _), apply_ite (keeps _ s), ite_self, implies_true, foldl_blank, keeps_next, Option.elim, record_frame]
    | (with_reducible refine (foldl_blank ?_ _ _).trans ?_; intro s x)
    | (split <;> try (rename_i h; with_reducible rw [Prod.ext_iff] at h; have h' := h.2; dsimp only at h'; subst h'))
    | dsimp only

theorem useFlit_frame (a0) (a1) (a2) (a3) (s : State) (n : Nat) (hn : n ||| 0x183244C8E = n) :
    blank n (useFlit a0 a1 a2 a3 s) = blank n s := by
  refine blank_mono (m := 0x183244C8E) ?_ hn
  unfold useFlit
  repeat' first
    | with_reducible rfl
    | simp only [mk_183244C8E, takeFree, Nat.reduceOr, apply_ite (blank _), apply_ite (keeps _ s), ite_self, implies_true, foldl_blank, keeps_next, Option.elim, modPort_frame]
    | (with_reducible refine (foldl_blank ?_ _ _).trans ?_; intro s x)
    | (split <;> try (rename_i h; with_reducible rw [Prod.ext_iff] at h; have h' := h.2; dsimp only at h'; subst h'))
    | dsimp only

theorem takeData_frame (a0) (a1) (s : State) (n : Nat) (hn : n ||| 0x40000 = n) :
    blank n (takeData a0 a1 s) = blank n s := by
  refine blank_mono (m := 0x40000) ?_ hn
  unfold takeData
  repeat' first
    | with_reducible rfl
    | simp only [mk_40000, takeFree, Nat.reduceOr, apply_ite (blank _), apply_ite (keeps _ s), ite_self, implies_true, foldl_blank, keeps_next, Option.elim, modPort_frame]
    | (with_reducible refine (foldl_blank ?_ _ _).trans ?_; intro s x)
    | (split <;> try (rename_i h; with_reducible rw [Prod.ext_iff] at h; have h' := h.2; dsimp only at h'; subst h'))
    | dsimp only

theorem takeFlit_frame (a0) (a1) (s : State) (n : Nat) (hn : n ||| 0x183244C8E = n) :
    blank n (takeFlit a0 a1 s) = blank n s := by
  refine blank_mono (m := 0x183244C8E) ?_ hn
  unfold takeFlit
  repeat' first
    | with_reducible rfl
    | simp only [mk_183244C8E, takeFree, Nat.reduceOr, apply_ite (blank _), apply_ite (keeps _ s), ite_self, implies_true, foldl_blank, keeps_next, Option.elim, useFlit_frame, modPort_frame, ackOut_frame, takeData_frame, discardFlit_frame, dmlRun_frame]
    | (with_reducible refine (foldl_blank ?_ _ _).trans ?_; intro s x)
    | (split <;> try (rename_i h; with_reducible rw [Prod.ext_iff] at h; have h' := h.2; dsimp only at h'; subst h'))
    | dsimp only

theorem joinNew_frame (a0) (a1) (s : State) (n : Nat) (hn : n ||| 0x83384C8E = n) :
    blank n (joinNew a0 a1 s) = blank n s := by
  refine blank_mono (m := 0x83384C8E) ?_ hn
  unfold joinNew
  repeat' first
    | with_reducible rfl
    | simp only [mk_83384C8E, takeFree, Nat.reduceOr, apply_ite (blank _), apply_ite (keeps _ s), ite_self, implies_true, foldl_blank, keeps_next, Option.elim, failSlot_frame, setLayout_frame, modSlot_frame]
    | (with_reducible refine (foldl_blank ?_ _ _).trans ?_; intro s x)
    | (split <;> try (rename_i h; with_reducible rw [Prod.ext_iff] at h; have h' := h.2; dsimp only at h'; subst h'))
    | dsimp only

theorem renameSlot_frame (a0) (a1) (s : State) (n : Nat) (hn : n ||| 0x180000 = n) :
    blank n (renameSlot a0 a1 s) = blank n s := by
  refine blank_mono (m := 0x180000) ?_ hn
  unfold renameSlot
  repeat' first
    | with_reducible rfl
    | simp only [mk_180000, takeFree, Nat.reduceOr, apply_ite (blank _), apply_ite (keeps _ s), ite_self, implies_true, foldl_blank, keeps_next, Option.elim, modSlot_frame]
    | (with_reducible refine (foldl_blank ?_ _ _).trans ?_; intro s x)
    | (split <;> try (rename_i h; with_reducible rw [Prod.ext_iff] at h; have h' := h.2; dsimp only at h'; subst h'))
    | dsimp only

theorem slotReadable_frame (a0) (s : State) (n : Nat) (hn : n ||| 0x83304C8E = n) :
    blank n (slotReadable a0 s) = blank n s := by
  refine blank_mono (m := 0x83304C8E) ?_ hn
  unfold slotReadable
  repeat' first
    | with_reducible rfl
    | simp only [mk_83304C8E, takeFree, Nat.reduceOr, apply_ite (blank _), apply_ite (keeps _ s), ite_self, implies_true, foldl_blank, keeps_next, Option.elim, mapUnreadable_frame]
    | (with_reducible refine (foldl_blank ?_ _ _).trans ?_; intro s x)
    | (split <;> try (rename_i h; with_reducible rw [Prod.ext_iff] at h; have h' := h.2; dsimp only at h'; subst h'))
    | dsimp only

theorem moduleArrives_frame (a0) (a1) (s : State) (n : Nat) (hn : n ||| 0x83384C8E = n) :
    blank n (moduleArrives a0 a1 s) = blank n s := by
  refine blank_mono (m := 0x83384C8E) ?_ hn
  unfold moduleArrives
  repeat' first
    | with_reducible rfl
    | simp only [mk_83384C8E, takeFree, Nat.reduceOr, apply_ite (blank _), apply_ite (keeps _ s), ite_self, implies_true, foldl_blank, keeps_next, Option.elim, joinNew_frame, noteMapChange_frame, renameSlot_frame, slotReadable_frame, setLayout_frame]
    | (with_reducible refine (foldl_blank ?_ _ _).trans ?_; intro s x)
    | (split <;> try (rename_i h; with_reducible rw [Prod.ext_iff] at h; have h' := h.2; dsimp only at h'; subst h'))
    | dsimp only

theorem regionsOn_frame (s : State) (n : Nat) (hn : n ||| 0x1000000 = n) :
    blank n (regionsOn s) = blank n s := by
  refine blank_mono (m := 0x1000000) ?_ hn
  unfold regionsOn
  repeat' first
    | with_reducible rfl
    | simp only [mk_1000000, takeFree, Nat.reduceOr, apply_ite (blank _), apply_ite (keeps _ s), ite_self, implies_true, foldl_blank, keeps_next, Option.elim, applyRegion_frame]
    | (with_reducible refine (foldl_blank ?_ _ _).trans ?_; intro s x)
    | (split <;> try (rename_i h; with_reducible rw [Prod.ext_iff] at h; have h' := h.2; dsimp only at h'; subst h'))
    | dsimp only

theorem floorOn_frame (s : State) (n : Nat) (hn : n ||| 0x8F204CBE = n) :
    blank n (floorOn s) = blank n s := by
  refine blank_mono (m := 0x8F204CBE) ?_ hn
  unfold floorOn
  repeat' first
    | with_reducible rfl
    | simp only [mk_8F204CBE, takeFree, Nat.reduceOr, apply_ite (blank _), apply_ite (keeps _ s), ite_self, implies_true, foldl_blank, keeps_next, Option.elim, floorRaised_frame, writeBoot_frame]
    | (with_reducible refine (foldl_blank ?_ _ _).trans ?_; intro s x)
    | (split <;> try (rename_i h; with_reducible rw [Prod.ext_iff] at h; have h' := h.2; dsimp only at h'; subst h'))
    | dsimp only

theorem lcBegin_frame (s : State) (n : Nat) (hn : n ||| 0x83204CAE = n) :
    blank n (lcBegin s) = blank n s := by
  refine blank_mono (m := 0x83204CAE) ?_ hn
  unfold lcBegin
  repeat' first
    | with_reducible rfl
    | simp only [mk_83204CAE, takeFree, Nat.reduceOr, apply_ite (blank _), apply_ite (keeps _ s), ite_self, implies_true, foldl_blank, keeps_next, Option.elim, record_frame]
    | (with_reducible refine (foldl_blank ?_ _ _).trans ?_; intro s x)
    | (split <;> try (rename_i h; with_reducible rw [Prod.ext_iff] at h; have h' := h.2; dsimp only at h'; subst h'))
    | dsimp only

theorem lcNote_frame (s : State) (n : Nat) (hn : n ||| 0xA000024 = n) :
    blank n (lcNote s) = blank n s := by
  refine blank_mono (m := 0xA000024) ?_ hn
  unfold lcNote
  repeat' first
    | with_reducible rfl
    | simp only [mk_A000024, takeFree, Nat.reduceOr, apply_ite (blank _), apply_ite (keeps _ s), ite_self, implies_true, foldl_blank, keeps_next, Option.elim, copiesPut_frame]
    | (with_reducible refine (foldl_blank ?_ _ _).trans ?_; intro s x)
    | (split <;> try (rename_i h; with_reducible rw [Prod.ext_iff] at h; have h' := h.2; dsimp only at h'; subst h'))
    | dsimp only

theorem fuseSlotNext_frame (a0) (a1) (s : State) (n : Nat) (hn : n ||| 0x10 = n) :
    ∀ t, fuseSlotNext a0 a1 s = some t → blank n t = blank n s := by
  suffices key : ∀ t, fuseSlotNext a0 a1 s = some t → blank 0x10 t = blank 0x10 s from fun t h => blank_mono (key t h) hn
  unfold fuseSlotNext
  repeat' first
    | with_reducible rfl
    | simp only [mk_10, takeFree, Nat.reduceOr, apply_ite (blank _), apply_ite (keeps _ s), ite_self, implies_true, foldl_blank, keeps_next, Option.elim]
    | (intro t h; cases h)
    | split
    | dsimp only

theorem lcFuseNext_frame (a0) (s : State) (n : Nat) (hn : n ||| 0x10 = n) :
    ∀ t, lcFuseNext a0 s = some t → blank n t = blank n s := by
  suffices key : ∀ t, lcFuseNext a0 s = some t → blank 0x10 t = blank 0x10 s from fun t h => blank_mono (key t h) hn
  unfold lcFuseNext
  repeat' first
    | with_reducible rfl
    | simp only [mk_10, takeFree, Nat.reduceOr, apply_ite (blank _), apply_ite (keeps _ s), ite_self, implies_true, foldl_blank, keeps_next, Option.elim]
    | (intro t h; cases h)
    | split
    | dsimp only

theorem lcOn_frame (s : State) (n : Nat) (hn : n ||| 0xBBA14CBE = n) :
    blank n (lcOn s) = blank n s := by
  refine blank_mono (m := 0xBBA14CBE) ?_ hn
  unfold lcOn
  repeat' first
    | with_reducible rfl
    | simp only [mk_BBA14CBE, takeFree, Nat.reduceOr, apply_ite (blank _), apply_ite (keeps _ s), ite_self, implies_true, foldl_blank, keeps_next, Option.elim, lcBegin_frame, lcNote_frame, lcZeroise_frame, lcBlown_frame]
    | exact lcFuseNext_frame _ _ _ rfl _ (by assumption)
    | (rename_i h; split at h; exact fuseSlotNext_frame _ _ _ _ rfl _ h; cases h)
    | split

theorem railsOff_frame (s : State) (n : Nat) (hn : n ||| 0x81A40887 = n) :
    blank n (railsOff s) = blank n s := by
  refine blank_mono (m := 0x81A40887) ?_ hn
  unfold railsOff
  repeat' first
    | with_reducible rfl
    | simp only [mk_81A40887, takeFree, Nat.reduceOr, apply_ite (blank _), apply_ite (keeps _ s), ite_self, implies_true, foldl_blank, keeps_next, Option.elim, pmbusSend_frame, linksOff_frame]
    | (with_reducible refine (foldl_blank ?_ _ _).trans ?_; intro s x)
    | (split <;> try (rename_i h; with_reducible rw [Prod.ext_iff] at h; have h' := h.2; dsimp only at h'; subst h'))
    | dsimp only

theorem vaultOff_frame (s : State) (n : Nat) (hn : n ||| 0x81A40887 = n) :
    blank n (vaultOff s) = blank n s := by
  refine blank_mono (m := 0x81A40887) ?_ hn
  unfold vaultOff
  repeat' first
    | with_reducible rfl
    | simp only [mk_81A40887, takeFree, Nat.reduceOr, apply_ite (blank _), apply_ite (keeps _ s), ite_self, implies_true, foldl_blank, keeps_next, Option.elim, railsOff_frame]
    | (with_reducible refine (foldl_blank ?_ _ _).trans ?_; intro s x)
    | (split <;> try (rename_i h; with_reducible rw [Prod.ext_iff] at h; have h' := h.2; dsimp only at h'; subst h'))
    | dsimp only

theorem vaultOn_frame (s : State) (n : Nat) (hn : n ||| 0x81A40887 = n) :
    blank n (vaultOn s) = blank n s := by
  refine blank_mono (m := 0x81A40887) ?_ hn
  unfold vaultOn
  repeat' first
    | with_reducible rfl
    | simp only [mk_81A40887, takeFree, Nat.reduceOr, apply_ite (blank _), apply_ite (keeps _ s), ite_self, implies_true, foldl_blank, keeps_next, Option.elim, vaultOff_frame, linksOff_frame]
    | (with_reducible refine (foldl_blank ?_ _ _).trans ?_; intro s x)
    | (split <;> try (rename_i h; with_reducible rw [Prod.ext_iff] at h; have h' := h.2; dsimp only at h'; subst h'))
    | dsimp only

theorem raiseOn_frame (s : State) (n : Nat) (hn : n ||| 0x83A04C8E = n) :
    blank n (raiseOn s) = blank n s := by
  refine blank_mono (m := 0x83A04C8E) ?_ hn
  unfold raiseOn
  repeat' first
    | with_reducible rfl
    | simp only [mk_83A04C8E, takeFree, Nat.reduceOr, apply_ite (blank _), apply_ite (keeps _ s), ite_self, implies_true, foldl_blank, keeps_next, Option.elim, raiseStep_frame, issueAll_frame]
    | (with_reducible refine (foldl_blank ?_ _ _).trans ?_; intro s x)
    | (split <;> try (rename_i h; with_reducible rw [Prod.ext_iff] at h; have h' := h.2; dsimp only at h'; subst h'))
    | dsimp only

theorem watchIdle_frame (s : State) (n : Nat) (hn : n ||| 0x80800482 = n) :
    blank n (watchIdle s) = blank n s := by
  refine blank_mono (m := 0x80800482) ?_ hn
  unfold watchIdle
  repeat' first
    | with_reducible rfl
    | simp only [mk_80800482, takeFree, Nat.reduceOr, apply_ite (blank _), apply_ite (keeps _ s), ite_self, implies_true, foldl_blank, keeps_next, Option.elim, busy_frame]
    | (with_reducible refine (foldl_blank ?_ _ _).trans ?_; intro s x)
    | (split <;> try (rename_i h; with_reducible rw [Prod.ext_iff] at h; have h' := h.2; dsimp only at h'; subst h'))
    | dsimp only

theorem tick_frame (s : State) (n : Nat) (hn : n ||| 0x1BFB7FCBF = n) :
    blank n (tick s) = blank n s := by
  refine blank_mono (m := 0x1BFB7FCBF) ?_ hn
  unfold tick
  repeat' first
    | with_reducible rfl
    | simp only [mk_1BFB7FCBF, takeFree, Nat.reduceOr, apply_ite (blank _), apply_ite (keeps _ s), ite_self, implies_true, foldl_blank, keeps_next, Option.elim, regionsOn_frame, clearOn_frame, floorOn_frame, lcOn_frame, activateOn_frame, diesOn_frame, vaultOn_frame, chargeOn_frame, raiseOn_frame, watchIdle_frame, clockTick_frame, endCycle_frame, clearZeroed_frame, endNet_frame]
    | (with_reducible refine (foldl_blank ?_ _ _).trans ?_; intro s x)
    | (split <;> try (rename_i h; with_reducible rw [Prod.ext_iff] at h; have h' := h.2; dsimp only at h'; subst h'))
    | dsimp only

theorem replayPort_frame (a0) (s : State) (n : Nat) (hn : n ||| 0x83244C8E = n) :
    blank n (replayPort a0 s) = blank n s := by
  refine blank_mono (m := 0x83244C8E) ?_ hn
  unfold replayPort
  repeat' first
    | with_reducible rfl
    | simp only [mk_83244C8E, takeFree, Nat.reduceOr, apply_ite (blank _), apply_ite (keeps _ s), ite_self, implies_true, foldl_blank, keeps_next, Option.elim, enterRetrain_frame, record_frame, correctedEvent_frame, emit_frame, modPort_frame]
    | (with_reducible refine (foldl_blank ?_ _ _).trans ?_; intro s x)
    | (split <;> try (rename_i h; with_reducible rw [Prod.ext_iff] at h; have h' := h.2; dsimp only at h'; subst h'))
    | dsimp only

theorem portDown_frame (a0) (a1) (a2) (s : State) (n : Nat) (hn : n ||| 0x833C4C8E = n) :
    blank n (portDown a0 a1 a2 s) = blank n s := by
  refine blank_mono (m := 0x833C4C8E) ?_ hn
  unfold portDown
  repeat' first
    | with_reducible rfl
    | simp only [mk_833C4C8E, takeFree, Nat.reduceOr, apply_ite (blank _), apply_ite (keeps _ s), ite_self, implies_true, foldl_blank, keeps_next, Option.elim, modPort_frame, suspectBlock_frame, moduleLeaves_frame, record_frame]
    | (with_reducible refine (foldl_blank ?_ _ _).trans ?_; intro s x)
    | (split <;> try (rename_i h; with_reducible rw [Prod.ext_iff] at h; have h' := h.2; dsimp only at h'; subst h'))
    | dsimp only

theorem refreshSets_frame (a0) (s : State) (n : Nat) (hn : n ||| 0x80400000 = n) :
    blank n (refreshSets a0 s) = blank n s := by
  refine blank_mono (m := 0x80400000) ?_ hn
  unfold refreshSets
  repeat' first
    | with_reducible rfl
    | simp only [mk_80400000, takeFree, Nat.reduceOr, apply_ite (blank _), apply_ite (keeps _ s), ite_self, implies_true, foldl_blank, keeps_next, Option.elim, modChan_frame, emit_frame]
    | (with_reducible refine (foldl_blank ?_ _ _).trans ?_; intro s x)
    | (split <;> try (rename_i h; with_reducible rw [Prod.ext_iff] at h; have h' := h.2; dsimp only at h'; subst h'))
    | dsimp only

theorem moveAgents_frame (a0) (s : State) (n : Nat) (hn : n ||| 0x101000000 = n) :
    blank n (moveAgents a0 s) = blank n s := by
  refine blank_mono (m := 0x101000000) ?_ hn
  unfold moveAgents
  repeat' first
    | with_reducible rfl
    | simp only [mk_101000000, takeFree, Nat.reduceOr, apply_ite (blank _), apply_ite (keeps _ s), ite_self, implies_true, foldl_blank, keeps_next, Option.elim, scheduleAgent_frame, modCtl_frame]
    | (with_reducible refine (foldl_blank ?_ _ _).trans ?_; intro s x)
    | (split <;> try (rename_i h; with_reducible rw [Prod.ext_iff] at h; have h' := h.2; dsimp only at h'; subst h'))
    | dsimp only

theorem mainsAfter_frame (a0) (s : State) (n : Nat) (hn : n ||| 0x83204C8E = n) :
    blank n (mainsAfter a0 s) = blank n s := by
  refine blank_mono (m := 0x83204C8E) ?_ hn
  unfold mainsAfter
  repeat' first
    | with_reducible rfl
    | simp only [mk_83204C8E, takeFree, Nat.reduceOr, apply_ite (blank _), apply_ite (keeps _ s), ite_self, implies_true, foldl_blank, keeps_next, Option.elim, record_frame]
    | (with_reducible refine (foldl_blank ?_ _ _).trans ?_; intro s x)
    | (split <;> try (rename_i h; with_reducible rw [Prod.ext_iff] at h; have h' := h.2; dsimp only at h'; subst h'))
    | dsimp only

theorem protectHeld_frame (s : State) (n : Nat) (hn : n ||| 0x83206C8E = n) :
    blank n (protectHeld s) = blank n s := by
  refine blank_mono (m := 0x83206C8E) ?_ hn
  unfold protectHeld
  repeat' first
    | with_reducible rfl
    | simp only [mk_83206C8E, takeFree, Nat.reduceOr, apply_ite (blank _), apply_ite (keeps _ s), ite_self, implies_true, foldl_blank, keeps_next, Option.elim, endForwarded_frame, finish_frame, protect_frame, rebudget_frame, resolveMirror_frame]
    | (with_reducible refine (foldl_blank ?_ _ _).trans ?_; intro s x)
    | (split <;> try (rename_i h; with_reducible rw [Prod.ext_iff] at h; have h' := h.2; dsimp only at h'; subst h'))
    | dsimp only

theorem retryHeld_frame (s : State) (n : Nat) (hn : n ||| 0x83206C8E = n) :
    blank n (retryHeld s) = blank n s := by
  refine blank_mono (m := 0x83206C8E) ?_ hn
  unfold retryHeld
  repeat' first
    | with_reducible rfl
    | simp only [mk_83206C8E, takeFree, Nat.reduceOr, apply_ite (blank _), apply_ite (keeps _ s), ite_self, implies_true, foldl_blank, keeps_next, Option.elim, endForwarded_frame, finish_frame, record_frame]
    | (with_reducible refine (foldl_blank ?_ _ _).trans ?_; intro s x)
    | (split <;> try (rename_i h; with_reducible rw [Prod.ext_iff] at h; have h' := h.2; dsimp only at h'; subst h'))
    | dsimp only

theorem serveNone_frame (s : State) (n : Nat) (hn : n ||| 0x83206C8E = n) :
    blank n (serveNone s) = blank n s := by
  refine blank_mono (m := 0x83206C8E) ?_ hn
  unfold serveNone
  repeat' first
    | with_reducible rfl
    | simp only [mk_83206C8E, takeFree, Nat.reduceOr, apply_ite (blank _), apply_ite (keeps _ s), ite_self, implies_true, foldl_blank, keeps_next, Option.elim, finish_frame, dropFilling_frame, recordAlert_frame]
    | (with_reducible refine (foldl_blank ?_ _ _).trans ?_; intro s x)
    | (split <;> try (rename_i h; with_reducible rw [Prod.ext_iff] at h; have h' := h.2; dsimp only at h'; subst h'))
    | dsimp only

theorem resumeOne_frame (a0) (s : State) (n : Nat) (hn : n ||| 0x100000 = n) :
    blank n (resumeOne a0 s) = blank n s := by
  refine blank_mono (m := 0x100000) ?_ hn
  unfold resumeOne
  repeat' first
    | with_reducible rfl
    | simp only [mk_100000, takeFree, Nat.reduceOr, apply_ite (blank _), apply_ite (keeps _ s), ite_self, implies_true, foldl_blank, keeps_next, Option.elim]
    | (with_reducible refine (foldl_blank ?_ _ _).trans ?_; intro s x)
    | (split <;> try (rename_i h; with_reducible rw [Prod.ext_iff] at h; have h' := h.2; dsimp only at h'; subst h'))
    | dsimp only

theorem maintAdmit_frame (s : State) (n : Nat) (hn : n ||| 0x83304C8E = n) :
    blank n (maintAdmit s) = blank n s := by
  refine blank_mono (m := 0x83304C8E) ?_ hn
  unfold maintAdmit
  repeat' first
    | with_reducible rfl
    | simp only [mk_83304C8E, takeFree, Nat.reduceOr, apply_ite (blank _), apply_ite (keeps _ s), ite_self, implies_true, foldl_blank, keeps_next, Option.elim, admitOne_frame, resumeOne_frame]
    | (with_reducible refine (foldl_blank ?_ _ _).trans ?_; intro s x)
    | (split <;> try (rename_i h; with_reducible rw [Prod.ext_iff] at h; have h' := h.2; dsimp only at h'; subst h'))
    | dsimp only

theorem updateReset_frame (a0) (a1) (s : State) (n : Nat) (hn : n ||| 0x1BFFFFFFF = n) :
    blank n (updateReset a0 a1 s) = blank n s := by
  refine blank_mono (m := 0x1BFFFFFFF) ?_ hn
  unfold updateReset
  repeat' first
    | with_reducible rfl
    | simp only [mk_1BFFFFFFF, takeFree, Nat.reduceOr, apply_ite (blank _), apply_ite (keeps _ s), ite_self, implies_true, foldl_blank, keeps_next, Option.elim, startRun_frame, stopCount_frame]
    | (with_reducible refine (foldl_blank ?_ _ _).trans ?_; intro s x)
    | (split <;> try (rename_i h; with_reducible rw [Prod.ext_iff] at h; have h' := h.2; dsimp only at h'; subst h'))
    | dsimp only

theorem staleRemote_frame (a0) (a1) (a2) (s : State) (n : Nat) (hn : n ||| 0x83204C8E = n) :
    blank n (staleRemote a0 a1 a2 s) = blank n s := by
  refine blank_mono (m := 0x83204C8E) ?_ hn
  unfold staleRemote
  repeat' first
    | with_reducible rfl
    | simp only [mk_83204C8E, takeFree, Nat.reduceOr, apply_ite (blank _), apply_ite (keeps _ s), ite_self, implies_true, foldl_blank, keeps_next, Option.elim, record_frame]
    | (with_reducible refine (foldl_blank ?_ _ _).trans ?_; intro s x)
    | (split <;> try (rename_i h; with_reducible rw [Prod.ext_iff] at h; have h' := h.2; dsimp only at h'; subst h'))
    | dsimp only

theorem relocateObject_frame (a0) (a1) (a2) (s : State) (n : Nat) (hn : n ||| 0x8F3DECAF = n) :
    blank n (relocateObject a0 a1 a2 s) = blank n s := by
  refine blank_mono (m := 0x8F3DECAF) ?_ hn
  unfold relocateObject
  repeat' first
    | with_reducible rfl
    | simp only [mk_8F3DECAF, takeFree, Nat.reduceOr, apply_ite (blank _), apply_ite (keeps _ s), ite_self, implies_true, foldl_blank, keeps_next, Option.elim, readStored_frame, moveObject_frame]
    | (with_reducible refine (foldl_blank ?_ _ _).trans ?_; intro s x)
    | (split <;> try (rename_i h; with_reducible rw [Prod.ext_iff] at h; have h' := h.2; dsimp only at h'; subst h'))
    | dsimp only

theorem relocateStripe_frame (a0) (a1) (a2) (s : State) (n : Nat) (hn : n ||| 0x8F3DECAF = n) :
    blank n (relocateStripe a0 a1 a2 s) = blank n s := by
  refine blank_mono (m := 0x8F3DECAF) ?_ hn
  unfold relocateStripe
  repeat' first
    | with_reducible rfl
    | simp only [mk_8F3DECAF, takeFree, Nat.reduceOr, apply_ite (blank _), apply_ite (keeps _ s), ite_self, implies_true, foldl_blank, keeps_next, Option.elim, staleMeta_frame, relocateObject_frame, modStripe_frame]
    | (with_reducible refine (foldl_blank ?_ _ _).trans ?_; intro s x)
    | (split <;> try (rename_i h; with_reducible rw [Prod.ext_iff] at h; have h' := h.2; dsimp only at h'; subst h'))
    | dsimp only

theorem sendBulk_frame (s : State) (n : Nat) (hn : n ||| 0x80200002 = n) :
    blank n (sendBulk s) = blank n s := by
  refine blank_mono (m := 0x80200002) ?_ hn
  unfold sendBulk
  repeat' first
    | with_reducible rfl
    | simp only [mk_80200002, takeFree, Nat.reduceOr, apply_ite (blank _), apply_ite (keeps _ s), ite_self, implies_true, foldl_blank, keeps_next, Option.elim, xhlSend_frame]
    | (with_reducible refine (foldl_blank ?_ _ _).trans ?_; intro s x)
    | (split <;> try (rename_i h; with_reducible rw [Prod.ext_iff] at h; have h' := h.2; dsimp only at h'; subst h'))
    | dsimp only

theorem repeatHusk_frame (a0) (s : State) (n : Nat) (hn : n ||| 0x2000004 = n) :
    blank n (repeatHusk a0 s) = blank n s := by
  refine blank_mono (m := 0x2000004) ?_ hn
  unfold repeatHusk
  repeat' first
    | with_reducible rfl
    | simp only [mk_2000004, takeFree, Nat.reduceOr, apply_ite (blank _), apply_ite (keeps _ s), ite_self, implies_true, foldl_blank, keeps_next, Option.elim, almMerge_frame]
    | (with_reducible refine (foldl_blank ?_ _ _).trans ?_; intro s x)
    | (split <;> try (rename_i h; with_reducible rw [Prod.ext_iff] at h; have h' := h.2; dsimp only at h'; subst h'))
    | dsimp only

theorem pairValue_frame (s : State) (n : Nat) (hn : n ||| 0x210000 = n) :
    blank n (pairValue s).2 = blank n s := by
  refine blank_mono (m := 0x210000) ?_ hn
  unfold pairValue
  repeat' first
    | with_reducible rfl
    | simp only [mk_210000, takeFree, Nat.reduceOr, apply_ite (blank _), apply_ite (keeps _ s), ite_self, implies_true, foldl_blank, keeps_next, Option.elim, drawKey_frame]
    | (with_reducible refine (foldl_blank ?_ _ _).trans ?_; intro s x)
    | (split <;> try (rename_i h; with_reducible rw [Prod.ext_iff] at h; have h' := h.2; dsimp only at h'; subst h'))
    | dsimp only

theorem sendPairKey_frame (a0) (a1) (s : State) (n : Nat) (hn : n ||| 0x80200002 = n) :
    blank n (sendPairKey a0 a1 s) = blank n s := by
  refine blank_mono (m := 0x80200002) ?_ hn
  unfold sendPairKey
  repeat' first
    | with_reducible rfl
    | simp only [mk_80200002, takeFree, Nat.reduceOr, apply_ite (blank _), apply_ite (keeps _ s), ite_self, implies_true, foldl_blank, keeps_next, Option.elim, xhlSend_frame]
    | (with_reducible refine (foldl_blank ?_ _ _).trans ?_; intro s x)
    | (split <;> try (rename_i h; with_reducible rw [Prod.ext_iff] at h; have h' := h.2; dsimp only at h'; subst h'))
    | dsimp only

theorem islandRecord_frame (a0) (s : State) (n : Nat) (hn : n ||| 0x102000004 = n) :
    blank n (islandRecord a0 s) = blank n s := by
  refine blank_mono (m := 0x102000004) ?_ hn
  unfold islandRecord
  repeat' first
    | with_reducible rfl
    | simp only [mk_102000004, takeFree, Nat.reduceOr, apply_ite (blank _), apply_ite (keeps _ s), ite_self, implies_true, foldl_blank, keeps_next, Option.elim]
    | (with_reducible refine (foldl_blank ?_ _ _).trans ?_; intro s x)
    | (split <;> try (rename_i h; with_reducible rw [Prod.ext_iff] at h; have h' := h.2; dsimp only at h'; subst h'))
    | dsimp only

theorem poolTake_frame (a0) (s : State) (n : Nat) (hn : n ||| 0x8000 = n) :
    blank n (poolTake a0 s) = blank n s := by
  refine blank_mono (m := 0x8000) ?_ hn
  unfold poolTake
  repeat' first
    | with_reducible rfl
    | simp only [mk_8000, takeFree, Nat.reduceOr, apply_ite (blank _), apply_ite (keeps _ s), ite_self, implies_true, foldl_blank, keeps_next, Option.elim]
    | (with_reducible refine (foldl_blank ?_ _ _).trans ?_; intro s x)
    | (split <;> try (rename_i h; with_reducible rw [Prod.ext_iff] at h; have h' := h.2; dsimp only at h'; subst h'))
    | dsimp only

theorem lcRest_frame (s : State) (n : Nat) (hn : n ||| 0xBBA14CBE = n) :
    blank n (lcRest s) = blank n s := by
  refine blank_mono (m := 0xBBA14CBE) ?_ hn
  unfold lcRest
  repeat' first
    | with_reducible rfl
    | simp only [mk_BBA14CBE, takeFree, Nat.reduceOr, apply_ite (blank _), apply_ite (keeps _ s), ite_self, implies_true, foldl_blank, keeps_next, Option.elim, lcBegin_frame, lcNote_frame, lcZeroise_frame, fuseOwner_frame, lcBlown_frame, lcFuses_frame, lcComplete_frame]
    | (with_reducible refine (foldl_blank ?_ _ _).trans ?_; intro s x)
    | (split <;> try (rename_i h; with_reducible rw [Prod.ext_iff] at h; have h' := h.2; dsimp only at h'; subst h'))
    | dsimp only

theorem resendPosted_frame (a0) (s : State) (n : Nat) (hn : n ||| 0x80000000 = n) :
    blank n (resendPosted a0 s) = blank n s := by
  refine blank_mono (m := 0x80000000) ?_ hn
  unfold resendPosted
  repeat' first
    | with_reducible rfl
    | simp only [mk_80000000, takeFree, Nat.reduceOr, apply_ite (blank _), apply_ite (keeps _ s), ite_self, implies_true, foldl_blank, keeps_next, Option.elim, sendPost_frame]
    | (with_reducible refine (foldl_blank ?_ _ _).trans ?_; intro s x)
    | (split <;> try (rename_i h; with_reducible rw [Prod.ext_iff] at h; have h' := h.2; dsimp only at h'; subst h'))
    | dsimp only

theorem expireLocks_frame (s : State) (n : Nat) (hn : n ||| 0x83284C8E = n) :
    blank n (expireLocks s) = blank n s := by
  refine blank_mono (m := 0x83284C8E) ?_ hn
  unfold expireLocks
  repeat' first
    | with_reducible rfl
    | simp only [mk_83284C8E, takeFree, Nat.reduceOr, apply_ite (blank _), apply_ite (keeps _ s), ite_self, implies_true, foldl_blank, keeps_next, Option.elim, modVol_frame, noteMapChange_frame, record_frame, sendDelta_frame]
    | (with_reducible refine (foldl_blank ?_ _ _).trans ?_; intro s x)
    | (split <;> try (rename_i h; with_reducible rw [Prod.ext_iff] at h; have h' := h.2; dsimp only at h'; subst h'))
    | dsimp only

theorem noteMeas_frame (s : State) (a1) (n : Nat) (hn : n ||| 0x800008 = n) :
    blank n (noteMeas s a1) = blank n s := by
  refine blank_mono (m := 0x800008) ?_ hn
  unfold noteMeas
  repeat' first
    | with_reducible rfl
    | simp only [mk_800008, takeFree, Nat.reduceOr, apply_ite (blank _), apply_ite (keeps _ s), ite_self, implies_true, foldl_blank, keeps_next, Option.elim, noteTemp_frame]
    | (with_reducible refine (foldl_blank ?_ _ _).trans ?_; intro s x)
    | (split <;> try (rename_i h; with_reducible rw [Prod.ext_iff] at h; have h' := h.2; dsimp only at h'; subst h'))
    | dsimp only

theorem lostAfter_frame (a0) (a1) (a2) (a3) (s : State) (n : Nat) (hn : n ||| 0x83304C8E = n) :
    blank n (lostAfter a0 a1 a2 a3 s) = blank n s := by
  refine blank_mono (m := 0x83304C8E) ?_ hn
  unfold lostAfter
  repeat' first
    | with_reducible rfl
    | simp only [mk_83304C8E, takeFree, Nat.reduceOr, apply_ite (blank _), apply_ite (keeps _ s), ite_self, implies_true, foldl_blank, keeps_next, Option.elim, addLost_frame]
    | (with_reducible refine (foldl_blank ?_ _ _).trans ?_; intro s x)
    | (split <;> try (rename_i h; with_reducible rw [Prod.ext_iff] at h; have h' := h.2; dsimp only at h'; subst h'))
    | dsimp only

theorem pairRefused_frame (s : State) (n : Nat) (hn : n ||| 0x183204C8F = n) :
    blank n (pairRefused s) = blank n s := by
  refine blank_mono (m := 0x183204C8F) ?_ hn
  unfold pairRefused
  repeat' first
    | with_reducible rfl
    | simp only [mk_183204C8F, takeFree, Nat.reduceOr, apply_ite (blank _), apply_ite (keeps _ s), ite_self, implies_true, foldl_blank, keeps_next, Option.elim, record_frame]
    | (with_reducible refine (foldl_blank ?_ _ _).trans ?_; intro s x)
    | (split <;> try (rename_i h; with_reducible rw [Prod.ext_iff] at h; have h' := h.2; dsimp only at h'; subst h'))
    | dsimp only

theorem orderTargets_frame (s : State) (n : Nat) (hn : n ||| 0x100000 = n) :
    blank n (orderTargets s) = blank n s := by
  refine blank_mono (m := 0x100000) ?_ hn
  unfold orderTargets
  repeat' first
    | with_reducible rfl
    | simp only [mk_100000, takeFree, Nat.reduceOr, apply_ite (blank _), apply_ite (keeps _ s), ite_self, implies_true, foldl_blank, keeps_next, Option.elim]
    | (with_reducible refine (foldl_blank ?_ _ _).trans ?_; intro s x)
    | (split <;> try (rename_i h; with_reducible rw [Prod.ext_iff] at h; have h' := h.2; dsimp only at h'; subst h'))
    | dsimp only

theorem recordTransfer_frame (a0) (a1) (s : State) (n : Nat) (hn : n ||| 0x183204C8E = n) :
    blank n (recordTransfer a0 a1 s) = blank n s := by
  refine blank_mono (m := 0x183204C8E) ?_ hn
  unfold recordTransfer
  repeat' first
    | with_reducible rfl
    | simp only [mk_183204C8E, takeFree, Nat.reduceOr, apply_ite (blank _), apply_ite (keeps _ s), ite_self, implies_true, foldl_blank, keeps_next, Option.elim, record_frame]
    | (with_reducible refine (foldl_blank ?_ _ _).trans ?_; intro s x)
    | (split <;> try (rename_i h; with_reducible rw [Prod.ext_iff] at h; have h' := h.2; dsimp only at h'; subst h'))
    | dsimp only

theorem frozenEvent_frame (a0) (a1) (s : State) (n : Nat) (hn : n ||| 0x183204C8E = n) :
    blank n (frozenEvent a0 a1 s) = blank n s := by
  refine blank_mono (m := 0x183204C8E) ?_ hn
  unfold frozenEvent
  repeat' first
    | with_reducible rfl
    | simp only [mk_183204C8E, takeFree, Nat.reduceOr, apply_ite (blank _), apply_ite (keeps _ s), ite_self, implies_true, foldl_blank, keeps_next, Option.elim, asyncEvent_frame, recordCore_frame]
    | (with_reducible refine (foldl_blank ?_ _ _).trans ?_; intro s x)
    | (split <;> try (rename_i h; with_reducible rw [Prod.ext_iff] at h; have h' := h.2; dsimp only at h'; subst h'))
    | dsimp only

theorem perstQueues_frame (a0) (s : State) (n : Nat) (hn : n ||| 0x183204C8E = n) :
    blank n (perstQueues a0 s) = blank n s := by
  refine blank_mono (m := 0x183204C8E) ?_ hn
  unfold perstQueues
  repeat' first
    | with_reducible rfl
    | simp only [mk_183204C8E, takeFree, Nat.reduceOr, apply_ite (blank _), apply_ite (keeps _ s), ite_self, implies_true, foldl_blank, keeps_next, Option.elim, record_frame, frozenEvent_frame]
    | (with_reducible refine (foldl_blank ?_ _ _).trans ?_; intro s x)
    | (split <;> try (rename_i h; with_reducible rw [Prod.ext_iff] at h; have h' := h.2; dsimp only at h'; subst h'))
    | dsimp only

theorem perstEp_frame (a0) (s : State) (n : Nat) (hn : n ||| 0x183236C8E = n) :
    blank n (perstEp a0 s) = blank n s := by
  refine blank_mono (m := 0x183236C8E) ?_ hn
  unfold perstEp
  repeat' first
    | with_reducible rfl
    | simp only [mk_183236C8E, takeFree, Nat.reduceOr, apply_ite (blank _), apply_ite (keeps _ s), ite_self, implies_true, foldl_blank, keeps_next, Option.elim, perstQueues_frame, modEp_frame, endSilently_frame, csUnlock_frame]
    | (with_reducible refine (foldl_blank ?_ _ _).trans ?_; intro s x)
    | (split <;> try (rename_i h; with_reducible rw [Prod.ext_iff] at h; have h' := h.2; dsimp only at h'; subst h'))
    | dsimp only

theorem pollSend_frame (s : State) (n : Nat) (hn : n ||| 0x80000000 = n) :
    blank n (pollSend s) = blank n s := by
  refine blank_mono (m := 0x80000000) ?_ hn
  unfold pollSend
  repeat' first
    | with_reducible rfl
    | simp only [mk_80000000, takeFree, Nat.reduceOr, apply_ite (blank _), apply_ite (keeps _ s), ite_self, implies_true, foldl_blank, keeps_next, Option.elim, emit_frame]
    | (with_reducible refine (foldl_blank ?_ _ _).trans ?_; intro s x)
    | (split <;> try (rename_i h; with_reducible rw [Prod.ext_iff] at h; have h' := h.2; dsimp only at h'; subst h'))
    | dsimp only

theorem setSub_frame (a0) (a1) (s : State) (n : Nat) (hn : n ||| 0x83204C8E = n) :
    blank n (setSub a0 a1 s) = blank n s := by
  refine blank_mono (m := 0x83204C8E) ?_ hn
  unfold setSub
  repeat' first
    | with_reducible rfl
    | simp only [mk_83204C8E, takeFree, Nat.reduceOr, apply_ite (blank _), apply_ite (keeps _ s), ite_self, implies_true, foldl_blank, keeps_next, Option.elim, record_frame, modNetPort_frame]
    | (with_reducible refine (foldl_blank ?_ _ _).trans ?_; intro s x)
    | (split <;> try (rename_i h; with_reducible rw [Prod.ext_iff] at h; have h' := h.2; dsimp only at h'; subst h'))
    | dsimp only

theorem pendCorrect_frame (a0) (s : State) (n : Nat) (hn : n ||| 0x8 = n) :
    blank n (pendCorrect a0 s) = blank n s := by
  refine blank_mono (m := 0x8) ?_ hn
  unfold pendCorrect
  repeat' first
    | with_reducible rfl
    | simp only [mk_8, takeFree, Nat.reduceOr, apply_ite (blank _), apply_ite (keeps _ s), ite_self, implies_true, foldl_blank, keeps_next, Option.elim]
    | (with_reducible refine (foldl_blank ?_ _ _).trans ?_; intro s x)
    | (split <;> try (rename_i h; with_reducible rw [Prod.ext_iff] at h; have h' := h.2; dsimp only at h'; subst h'))
    | dsimp only

theorem learn_frame (a0) (s : State) (n : Nat) (hn : n ||| 0x100000008 = n) :
    blank n (learn a0 s) = blank n s := by
  refine blank_mono (m := 0x100000008) ?_ hn
  unfold learn
  repeat' first
    | with_reducible rfl
    | simp only [mk_100000008, takeFree, Nat.reduceOr, apply_ite (blank _), apply_ite (keeps _ s), ite_self, implies_true, foldl_blank, keeps_next, Option.elim]
    | (with_reducible refine (foldl_blank ?_ _ _).trans ?_; intro s x)
    | (split <;> try (rename_i h; with_reducible rw [Prod.ext_iff] at h; have h' := h.2; dsimp only at h'; subst h'))
    | dsimp only

theorem refLocked_frame (s : State) (n : Nat) (hn : n ||| 0xC = n) :
    blank n (refLocked s) = blank n s := by
  refine blank_mono (m := 0xC) ?_ hn
  unfold refLocked
  repeat' first
    | with_reducible rfl
    | simp only [mk_C, takeFree, Nat.reduceOr, apply_ite (blank _), apply_ite (keeps _ s), ite_self, implies_true, foldl_blank, keeps_next, Option.elim, keepCivil_frame]
    | (with_reducible refine (foldl_blank ?_ _ _).trans ?_; intro s x)
    | (split <;> try (rename_i h; with_reducible rw [Prod.ext_iff] at h; have h' := h.2; dsimp only at h'; subst h'))
    | dsimp only

theorem ppsBad_frame (s : State) (n : Nat) (hn : n ||| 0x83204C8E = n) :
    blank n (ppsBad s) = blank n s := by
  refine blank_mono (m := 0x83204C8E) ?_ hn
  unfold ppsBad
  repeat' first
    | with_reducible rfl
    | simp only [mk_83204C8E, takeFree, Nat.reduceOr, apply_ite (blank _), apply_ite (keeps _ s), ite_self, implies_true, foldl_blank, keeps_next, Option.elim, reselect_frame]
    | (with_reducible refine (foldl_blank ?_ _ _).trans ?_; intro s x)
    | (split <;> try (rename_i h; with_reducible rw [Prod.ext_iff] at h; have h' := h.2; dsimp only at h'; subst h'))
    | dsimp only

theorem flushNoSpace_frame (a0) (a1) (s : State) (n : Nat) (hn : n ||| 0x83204C8E = n) :
    blank n (flushNoSpace a0 a1 s) = blank n s := by
  refine blank_mono (m := 0x83204C8E) ?_ hn
  unfold flushNoSpace
  repeat' first
    | with_reducible rfl
    | simp only [mk_83204C8E, takeFree, Nat.reduceOr, apply_ite (blank _), apply_ite (keeps _ s), ite_self, implies_true, foldl_blank, keeps_next, Option.elim, endCmd_frame]
    | (with_reducible refine (foldl_blank ?_ _ _).trans ?_; intro s x)
    | (split <;> try (rename_i h; with_reducible rw [Prod.ext_iff] at h; have h' := h.2; dsimp only at h'; subst h'))
    | dsimp only

theorem ptpSync_frame (a0) (a1) (s : State) (n : Nat) (hn : n ||| 0x10000000C = n) :
    blank n (ptpSync a0 a1 s) = blank n s := by
  refine blank_mono (m := 0x10000000C) ?_ hn
  unfold ptpSync
  repeat' first
    | with_reducible rfl
    | simp only [mk_10000000C, takeFree, Nat.reduceOr, apply_ite (blank _), apply_ite (keeps _ s), ite_self, implies_true, foldl_blank, keeps_next, Option.elim, pendCorrect_frame, learn_frame, refLocked_frame]
    | (with_reducible refine (foldl_blank ?_ _ _).trans ?_; intro s x)
    | (split <;> try (rename_i h; with_reducible rw [Prod.ext_iff] at h; have h' := h.2; dsimp only at h'; subst h'))
    | dsimp only

theorem rdmaRefuse_frame (a0) (a1) (s : State) (n : Nat) (hn : n ||| 0x183205C8E = n) :
    blank n (rdmaRefuse a0 a1 s) = blank n s := by
  refine blank_mono (m := 0x183205C8E) ?_ hn
  unfold rdmaRefuse
  repeat' first
    | with_reducible rfl
    | simp only [mk_183205C8E, takeFree, Nat.reduceOr, apply_ite (blank _), apply_ite (keeps _ s), ite_self, implies_true, foldl_blank, keeps_next, Option.elim, sendRoce_frame, qpError_frame]
    | (with_reducible refine (foldl_blank ?_ _ _).trans ?_; intro s x)
    | (split <;> try (rename_i h; with_reducible rw [Prod.ext_iff] at h; have h' := h.2; dsimp only at h'; subst h'))
    | dsimp only

theorem readOut_frame (a0) (a1) (a2) (a3) (s : State) (n : Nat) (hn : n ||| 0x183205C8E = n) :
    blank n (readOut a0 a1 a2 a3 s) = blank n s := by
  refine blank_mono (m := 0x183205C8E) ?_ hn
  unfold readOut
  repeat' first
    | with_reducible rfl
    | simp only [mk_183205C8E, takeFree, Nat.reduceOr, apply_ite (blank _), apply_ite (keeps _ s), ite_self, implies_true, foldl_blank, keeps_next, Option.elim, sendRoce_frame, rdmaRefuse_frame]
    | (with_reducible refine (foldl_blank ?_ _ _).trans ?_; intro s x)
    | (split <;> try (rename_i h; with_reducible rw [Prod.ext_iff] at h; have h' := h.2; dsimp only at h'; subst h'))
    | dsimp only

theorem takeReq_frame (a0) (a1) (a2) (s : State) (n : Nat) (hn : n ||| 0x183A05C8E = n) :
    blank n (takeReq a0 a1 a2 s).2 = blank n s := by
  refine blank_mono (m := 0x183A05C8E) ?_ hn
  unfold takeReq
  repeat' first
    | with_reducible rfl
    | (with_reducible refine (foldl_blank ?_ _ _).trans ?_; intro s x)
    | (split <;> try (rename_i h; with_reducible rw [Prod.ext_iff] at h; have h' := h.2; dsimp only at h'; subst h'))
    | simp only [mk_183A05C8E, takeFree, Nat.reduceOr, apply_ite (blank _), apply_ite (keeps _ s), ite_self, implies_true, foldl_blank, keeps_next, Option.elim, record_frame, busy_frame, sendRoce_frame, modQp_frame, qpError_frame]

theorem relocateBlock_frame (a0) (a1) (a2) (s : State) (n : Nat) (hn : n ||| 0x8F3DECAF = n) :
    blank n (relocateBlock a0 a1 a2 s) = blank n s := by
  refine blank_mono (m := 0x8F3DECAF) ?_ hn
  unfold relocateBlock
  repeat' first
    | with_reducible rfl
    | simp only [mk_8F3DECAF, takeFree, Nat.reduceOr, apply_ite (blank _), apply_ite (keeps _ s), ite_self, implies_true, foldl_blank, keeps_next, Option.elim, relocateStripe_frame]
    | (with_reducible refine (foldl_blank ?_ _ _).trans ?_; intro s x)
    | (split <;> try (rename_i h; with_reducible rw [Prod.ext_iff] at h; have h' := h.2; dsimp only at h'; subst h'))
    | dsimp only

theorem refreshRing_frame (a0) (s : State) (n : Nat) (hn : n ||| 0x800C0000 = n) :
    blank n (refreshRing a0 s) = blank n s := by
  refine blank_mono (m := 0x800C0000) ?_ hn
  unfold refreshRing
  repeat' first
    | with_reducible rfl
    | simp only [mk_800C0000, takeFree, Nat.reduceOr, apply_ite (blank _), apply_ite (keeps _ s), ite_self, implies_true, foldl_blank, keeps_next, Option.elim, writeRing_frame]
    | (with_reducible refine (foldl_blank ?_ _ _).trans ?_; intro s x)
    | (split <;> try (rename_i h; with_reducible rw [Prod.ext_iff] at h; have h' := h.2; dsimp only at h'; subst h'))
    | dsimp only

theorem takeCut_frame (a0) (s : State) (n : Nat) (hn : n ||| 0x5000 = n) :
    blank n (takeCut a0 s) = blank n s := by
  refine blank_mono (m := 0x5000) ?_ hn
  unfold takeCut
  repeat' first
    | with_reducible rfl
    | simp only [mk_5000, takeFree, Nat.reduceOr, apply_ite (blank _), apply_ite (keeps _ s), ite_self, implies_true, foldl_blank, keeps_next, Option.elim, modVol_frame, modLink_frame]
    | (with_reducible refine (foldl_blank ?_ _ _).trans ?_; intro s x)
    | (split <;> try (rename_i h; with_reducible rw [Prod.ext_iff] at h; have h' := h.2; dsimp only at h'; subst h'))
    | dsimp only

theorem replReject_frame (a0) (s : State) (n : Nat) (hn : n ||| 0x183205C8E = n) :
    blank n (replReject a0 s) = blank n s := by
  refine blank_mono (m := 0x183205C8E) ?_ hn
  unfold replReject
  repeat' first
    | with_reducible rfl
    | simp only [mk_183205C8E, takeFree, Nat.reduceOr, apply_ite (blank _), apply_ite (keeps _ s), ite_self, implies_true, foldl_blank, keeps_next, Option.elim, record_frame, modLink_frame, qpError_frame]
    | (with_reducible refine (foldl_blank ?_ _ _).trans ?_; intro s x)
    | (split <;> try (rename_i h; with_reducible rw [Prod.ext_iff] at h; have h' := h.2; dsimp only at h'; subst h'))
    | dsimp only

theorem nextVolume_frame (s : State) (n : Nat) (hn : n ||| 0x100000 = n) :
    blank n (nextVolume s) = blank n s := by
  refine blank_mono (m := 0x100000) ?_ hn
  unfold nextVolume
  repeat' first
    | with_reducible rfl
    | simp only [mk_100000, takeFree, Nat.reduceOr, apply_ite (blank _), apply_ite (keeps _ s), ite_self, implies_true, foldl_blank, keeps_next, Option.elim]
    | (with_reducible refine (foldl_blank ?_ _ _).trans ?_; intro s x)
    | (split <;> try (rename_i h; with_reducible rw [Prod.ext_iff] at h; have h' := h.2; dsimp only at h'; subst h'))
    | dsimp only

theorem switchVolume_frame (a0) (s : State) (n : Nat) (hn : n ||| 0x1833C7C8E = n) :
    blank n (switchVolume a0 s) = blank n s := by
  refine blank_mono (m := 0x1833C7C8E) ?_ hn
  unfold switchVolume
  repeat' first
    | with_reducible rfl
    | simp only [mk_1833C7C8E, takeFree, Nat.reduceOr, apply_ite (blank _), apply_ite (keeps _ s), ite_self, implies_true, foldl_blank, keeps_next, Option.elim, endReloc_frame, sendDelta_frame, modVol_frame, record_frame, eraseFree_frame, noteMapChange_frame]
    | (with_reducible refine (foldl_blank ?_ _ _).trans ?_; intro s x)
    | (split <;> try (rename_i h; with_reducible rw [Prod.ext_iff] at h; have h' := h.2; dsimp only at h'; subst h'))
    | dsimp only

theorem notIndexed_frame (a0) (a1) (a2) (s : State) (n : Nat) (hn : n ||| 0x6000 = n) :
    blank n (notIndexed a0 a1 a2 s) = blank n s := by
  refine blank_mono (m := 0x6000) ?_ hn
  unfold notIndexed
  repeat' first
    | with_reducible rfl
    | simp only [mk_6000, takeFree, Nat.reduceOr, apply_ite (blank _), apply_ite (keeps _ s), ite_self, implies_true, foldl_blank, keeps_next, Option.elim, modVol_frame, modJob_frame]
    | (with_reducible refine (foldl_blank ?_ _ _).trans ?_; intro s x)
    | (split <;> try (rename_i h; with_reducible rw [Prod.ext_iff] at h; have h' := h.2; dsimp only at h'; subst h'))
    | dsimp only

theorem splitRecord_frame (a0) (a1) (a2) (s : State) (n : Nat) (hn : n ||| 0x80206002 = n) :
    blank n (splitRecord a0 a1 a2 s) = blank n s := by
  refine blank_mono (m := 0x80206002) ?_ hn
  unfold splitRecord
  repeat' first
    | with_reducible rfl
    | simp only [mk_80206002, takeFree, Nat.reduceOr, apply_ite (blank _), apply_ite (keeps _ s), ite_self, implies_true, foldl_blank, keeps_next, Option.elim, putSeed_frame, clearSeed_frame]
    | (with_reducible refine (foldl_blank ?_ _ _).trans ?_; intro s x)
    | (split <;> try (rename_i h; with_reducible rw [Prod.ext_iff] at h; have h' := h.2; dsimp only at h'; subst h'))
    | dsimp only

theorem retireCore_frame (a0) (s : State) (n : Nat) (hn : n ||| 0x18F206CAF = n) :
    blank n (retireCore a0 s) = blank n s := by
  refine blank_mono (m := 0x18F206CAF) ?_ hn
  unfold retireCore
  repeat' first
    | with_reducible rfl
    | simp only [mk_18F206CAF, takeFree, Nat.reduceOr, apply_ite (blank _), apply_ite (keeps _ s), ite_self, implies_true, foldl_blank, keeps_next, Option.elim, moveAgents_frame, retireElement_frame, failstop_frame]
    | (with_reducible refine (foldl_blank ?_ _ _).trans ?_; intro s x)
    | (split <;> try (rename_i h; with_reducible rw [Prod.ext_iff] at h; have h' := h.2; dsimp only at h'; subst h'))
    | dsimp only

theorem retireDram_frame (a0) (a1) (s : State) (n : Nat) (hn : n ||| 0x83204C8E = n) :
    blank n (retireDram a0 a1 s) = blank n s := by
  refine blank_mono (m := 0x83204C8E) ?_ hn
  unfold retireDram
  repeat' first
    | with_reducible rfl
    | simp only [mk_83204C8E, takeFree, Nat.reduceOr, apply_ite (blank _), apply_ite (keeps _ s), ite_self, implies_true, foldl_blank, keeps_next, Option.elim, record_frame, recordAlert_frame, releasePort_frame]
    | (with_reducible refine (foldl_blank ?_ _ _).trans ?_; intro s x)
    | (split <;> try (rename_i h; with_reducible rw [Prod.ext_iff] at h; have h' := h.2; dsimp only at h'; subst h'))
    | dsimp only

theorem retireRows_frame (a0) (a1) (s : State) (n : Nat) (hn : n ||| 0x8F206CAF = n) :
    blank n (retireRows a0 a1 s) = blank n s := by
  refine blank_mono (m := 0x8F206CAF) ?_ hn
  unfold retireRows
  repeat' first
    | with_reducible rfl
    | simp only [mk_8F206CAF, takeFree, Nat.reduceOr, apply_ite (blank _), apply_ite (keeps _ s), ite_self, implies_true, foldl_blank, keeps_next, Option.elim, releasePort_frame, record_frame, retireElement_frame, failstop_frame]
    | (with_reducible refine (foldl_blank ?_ _ _).trans ?_; intro s x)
    | (split <;> try (rename_i h; with_reducible rw [Prod.ext_iff] at h; have h' := h.2; dsimp only at h'; subst h'))
    | dsimp only

theorem laneDown_frame (a0) (s : State) (n : Nat) (hn : n ||| 0x833C4C8E = n) :
    blank n (laneDown a0 s) = blank n s := by
  refine blank_mono (m := 0x833C4C8E) ?_ hn
  unfold laneDown
  repeat' first
    | with_reducible rfl
    | simp only [mk_833C4C8E, takeFree, Nat.reduceOr, apply_ite (blank _), apply_ite (keeps _ s), ite_self, implies_true, foldl_blank, keeps_next, Option.elim, portDown_frame, epLinkDown_frame, setSub_frame]
    | (with_reducible refine (foldl_blank ?_ _ _).trans ?_; intro s x)
    | (split <;> try (rename_i h; with_reducible rw [Prod.ext_iff] at h; have h' := h.2; dsimp only at h'; subst h'))
    | dsimp only

theorem xhlDown_frame (s : State) (n : Nat) (hn : n ||| 0x183206C8F = n) :
    blank n (xhlDown s) = blank n s := by
  refine blank_mono (m := 0x183206C8F) ?_ hn
  unfold xhlDown
  repeat' first
    | with_reducible rfl
    | simp only [mk_183206C8F, takeFree, Nat.reduceOr, apply_ite (blank _), apply_ite (keeps _ s), ite_self, implies_true, foldl_blank, keeps_next, Option.elim, record_frame, peerLost_frame]
    | (with_reducible refine (foldl_blank ?_ _ _).trans ?_; intro s x)
    | (split <;> try (rename_i h; with_reducible rw [Prod.ext_iff] at h; have h' := h.2; dsimp only at h'; subst h'))
    | dsimp only

theorem retirePortLane_frame (a0) (s : State) (n : Nat) (hn : n ||| 0x1833C7C8F = n) :
    blank n (retirePortLane a0 s) = blank n s := by
  refine blank_mono (m := 0x1833C7C8F) ?_ hn
  unfold retirePortLane
  repeat' first
    | with_reducible rfl
    | simp only [mk_1833C7C8F, takeFree, Nat.reduceOr, apply_ite (blank _), apply_ite (keeps _ s), ite_self, implies_true, foldl_blank, keeps_next, Option.elim, laneDown_frame, retireElement_frame, xhlDown_frame, peerLost_frame, closeQp_frame]
    | (with_reducible refine (foldl_blank ?_ _ _).trans ?_; intro s x)
    | (split <;> try (rename_i h; with_reducible rw [Prod.ext_iff] at h; have h' := h.2; dsimp only at h'; subst h'))
    | dsimp only

theorem retireLane_frame (a0) (s : State) (n : Nat) (hn : n ||| 0x8F206CAF = n) :
    blank n (retireLane a0 s) = blank n s := by
  refine blank_mono (m := 0x8F206CAF) ?_ hn
  unfold retireLane
  repeat' first
    | with_reducible rfl
    | simp only [mk_8F206CAF, takeFree, Nat.reduceOr, apply_ite (blank _), apply_ite (keeps _ s), ite_self, implies_true, foldl_blank, keeps_next, Option.elim, retireElement_frame, recordAlert_frame, failstop_frame]
    | (with_reducible refine (foldl_blank ?_ _ _).trans ?_; intro s x)
    | (split <;> try (rename_i h; with_reducible rw [Prod.ext_iff] at h; have h' := h.2; dsimp only at h'; subst h'))
    | dsimp only

theorem lastingOutcome_frame (a0) (a1) (s : State) (n : Nat) (hn : n ||| 0x18F3C7CAF = n) :
    blank n (lastingOutcome a0 a1 s) = blank n s := by
  refine blank_mono (m := 0x18F3C7CAF) ?_ hn
  unfold lastingOutcome
  repeat' first
    | with_reducible rfl
    | simp only [mk_18F3C7CAF, takeFree, Nat.reduceOr, apply_ite (blank _), apply_ite (keeps _ s), ite_self, implies_true, foldl_blank, keeps_next, Option.elim, retireCore_frame, retireDram_frame, retireRows_frame, retirePortLane_frame, retireLane_frame, failstop_frame, retireElement_frame]
    | (with_reducible refine (foldl_blank ?_ _ _).trans ?_; intro s x)
    | (split <;> try (rename_i h; with_reducible rw [Prod.ext_iff] at h; have h' := h.2; dsimp only at h'; subst h'))
    | dsimp only

theorem slotDark_frame (a0) (s : State) (n : Nat) (hn : n ||| 0x83BC4C8E = n) :
    blank n (slotDark a0 s) = blank n s := by
  refine blank_mono (m := 0x83BC4C8E) ?_ hn
  unfold slotDark
  repeat' first
    | with_reducible rfl
    | simp only [mk_83BC4C8E, takeFree, Nat.reduceOr, apply_ite (blank _), apply_ite (keeps _ s), ite_self, implies_true, foldl_blank, keeps_next, Option.elim, modSlotPwr_frame, modPort_frame, portDown_frame]
    | (with_reducible refine (foldl_blank ?_ _ _).trans ?_; intro s x)
    | (split <;> try (rename_i h; with_reducible rw [Prod.ext_iff] at h; have h' := h.2; dsimp only at h'; subst h'))
    | dsimp only

theorem turnOn_frame (a0) (s : State) (n : Nat) (hn : n ||| 0x83A04C8E = n) :
    blank n (turnOn a0 s) = blank n s := by
  refine blank_mono (m := 0x83A04C8E) ?_ hn
  unfold turnOn
  repeat' first
    | with_reducible rfl
    | simp only [mk_83A04C8E, takeFree, Nat.reduceOr, apply_ite (blank _), apply_ite (keeps _ s), ite_self, implies_true, foldl_blank, keeps_next, Option.elim, modSlotPwr_frame, record_frame]
    | (with_reducible refine (foldl_blank ?_ _ _).trans ?_; intro s x)
    | (split <;> try (rename_i h; with_reducible rw [Prod.ext_iff] at h; have h' := h.2; dsimp only at h'; subst h'))
    | dsimp only

theorem resumeDiscards_frame (a0) (s : State) (n : Nat) (hn : n ||| 0x83384C8E = n) :
    blank n (resumeDiscards a0 s) = blank n s := by
  refine blank_mono (m := 0x83384C8E) ?_ hn
  unfold resumeDiscards
  repeat' first
    | with_reducible rfl
    | simp only [mk_83384C8E, takeFree, Nat.reduceOr, apply_ite (blank _), apply_ite (keeps _ s), ite_self, implies_true, foldl_blank, keeps_next, Option.elim, endCmd_frame, discardChunks_frame]
    | (with_reducible refine (foldl_blank ?_ _ _).trans ?_; intro s x)
    | (split <;> try (rename_i h; with_reducible rw [Prod.ext_iff] at h; have h' := h.2; dsimp only at h'; subst h'))
    | dsimp only

theorem takeoverBegins_frame (s : State) (n : Nat) (hn : n ||| 0x183204C8F = n) :
    blank n (takeoverBegins s) = blank n s := by
  refine blank_mono (m := 0x183204C8F) ?_ hn
  unfold takeoverBegins
  repeat' first
    | with_reducible rfl
    | simp only [mk_183204C8F, takeFree, Nat.reduceOr, apply_ite (blank _), apply_ite (keeps _ s), ite_self, implies_true, foldl_blank, keeps_next, Option.elim, record_frame]
    | (with_reducible refine (foldl_blank ?_ _ _).trans ?_; intro s x)
    | (split <;> try (rename_i h; with_reducible rw [Prod.ext_iff] at h; have h' := h.2; dsimp only at h'; subst h'))
    | dsimp only

theorem takeoverRaise_frame (a0) (s : State) (n : Nat) (hn : n ||| 0x202000 = n) :
    blank n (takeoverRaise a0 s) = blank n s := by
  refine blank_mono (m := 0x202000) ?_ hn
  unfold takeoverRaise
  repeat' first
    | with_reducible rfl
    | simp only [mk_202000, takeFree, Nat.reduceOr, apply_ite (blank _), apply_ite (keeps _ s), ite_self, implies_true, foldl_blank, keeps_next, Option.elim]
    | (with_reducible refine (foldl_blank ?_ _ _).trans ?_; intro s x)
    | (split <;> try (rename_i h; with_reducible rw [Prod.ext_iff] at h; have h' := h.2; dsimp only at h'; subst h'))
    | dsimp only

theorem resumeLinks_frame (s : State) (n : Nat) (hn : n ||| 0x83205C8E = n) :
    blank n (resumeLinks s) = blank n s := by
  refine blank_mono (m := 0x83205C8E) ?_ hn
  unfold resumeLinks
  repeat' first
    | with_reducible rfl
    | simp only [mk_83205C8E, takeFree, Nat.reduceOr, apply_ite (blank _), apply_ite (keeps _ s), ite_self, implies_true, foldl_blank, keeps_next, Option.elim, connectLink_frame]
    | (with_reducible refine (foldl_blank ?_ _ _).trans ?_; intro s x)
    | (split <;> try (rename_i h; with_reducible rw [Prod.ext_iff] at h; have h' := h.2; dsimp only at h'; subst h'))
    | dsimp only

theorem takeoverRecord_frame (s : State) (n : Nat) (hn : n ||| 0x183205C8F = n) :
    blank n (takeoverRecord s) = blank n s := by
  refine blank_mono (m := 0x183205C8F) ?_ hn
  unfold takeoverRecord
  repeat' first
    | with_reducible rfl
    | simp only [mk_183205C8F, takeFree, Nat.reduceOr, apply_ite (blank _), apply_ite (keeps _ s), ite_self, implies_true, foldl_blank, keeps_next, Option.elim, resumeLinks_frame, record_frame]
    | (with_reducible refine (foldl_blank ?_ _ _).trans ?_; intro s x)
    | (split <;> try (rename_i h; with_reducible rw [Prod.ext_iff] at h; have h' := h.2; dsimp only at h'; subst h'))
    | dsimp only

theorem moduleHeat_frame (a0) (a1) (s : State) (n : Nat) (hn : n ||| 0x83A44C8E = n) :
    blank n (moduleHeat a0 a1 s) = blank n s := by
  refine blank_mono (m := 0x83A44C8E) ?_ hn
  unfold moduleHeat
  repeat' first
    | with_reducible rfl
    | simp only [mk_83A44C8E, takeFree, Nat.reduceOr, apply_ite (blank _), apply_ite (keeps _ s), ite_self, implies_true, foldl_blank, keeps_next, Option.elim, modPort_frame, recordAlert_frame]
    | (with_reducible refine (foldl_blank ?_ _ _).trans ?_; intro s x)
    | (split <;> try (rename_i h; with_reducible rw [Prod.ext_iff] at h; have h' := h.2; dsimp only at h'; subst h'))
    | dsimp only

theorem steer_frame (a0) (a1) (s : State) (n : Nat) (hn : n ||| 0xC = n) :
    blank n (steer a0 a1 s) = blank n s := by
  refine blank_mono (m := 0xC) ?_ hn
  unfold steer
  repeat' first
    | with_reducible rfl
    | simp only [mk_C, takeFree, Nat.reduceOr, apply_ite (blank _), apply_ite (keeps _ s), ite_self, implies_true, foldl_blank, keeps_next, Option.elim, pendCorrect_frame, keepCivil_frame]
    | (with_reducible refine (foldl_blank ?_ _ _).trans ?_; intro s x)
    | (split <;> try (rename_i h; with_reducible rw [Prod.ext_iff] at h; have h' := h.2; dsimp only at h'; subst h'))
    | dsimp only

theorem freezeQueue_frame (a0) (a1) (s : State) (n : Nat) (hn : n ||| 0x183204C8E = n) :
    blank n (freezeQueue a0 a1 s) = blank n s := by
  refine blank_mono (m := 0x183204C8E) ?_ hn
  unfold freezeQueue
  repeat' first
    | with_reducible rfl
    | simp only [mk_183204C8E, takeFree, Nat.reduceOr, apply_ite (blank _), apply_ite (keeps _ s), ite_self, implies_true, foldl_blank, keeps_next, Option.elim, modQueue_frame, dropReads_frame, endReady_frame, frozenEvent_frame]
    | (with_reducible refine (foldl_blank ?_ _ _).trans ?_; intro s x)
    | (split <;> try (rename_i h; with_reducible rw [Prod.ext_iff] at h; have h' := h.2; dsimp only at h'; subst h'))
    | dsimp only

theorem runBuffer_frame (a0) (s : State) (n : Nat) (hn : n ||| 0x1B77DFC8F = n) :
    blank n (runBuffer a0 s) = blank n s := by
  refine blank_mono (m := 0x1B77DFC8F) ?_ hn
  unfold runBuffer
  repeat' first
    | with_reducible rfl
    | simp only [mk_1B77DFC8F, takeFree, Nat.reduceOr, apply_ite (blank _), apply_ite (keeps _ s), ite_self, implies_true, foldl_blank, keeps_next, Option.elim, updRefuse_frame, fromEight_frame, runFirmware_frame]
    | (with_reducible refine (foldl_blank ?_ _ _).trans ?_; intro s x)
    | (split <;> try (rename_i h; with_reducible rw [Prod.ext_iff] at h; have h' := h.2; dsimp only at h'; subst h'))
    | dsimp only

theorem trimIsland_frame (s : State) (n : Nat) (hn : n ||| 0x100000004 = n) :
    blank n (trimIsland s) = blank n s := by
  refine blank_mono (m := 0x100000004) ?_ hn
  unfold trimIsland
  repeat' first
    | with_reducible rfl
    | simp only [mk_100000004, takeFree, Nat.reduceOr, apply_ite (blank _), apply_ite (keeps _ s), ite_self, implies_true, foldl_blank, keeps_next, Option.elim]
    | (with_reducible refine (foldl_blank ?_ _ _).trans ?_; intro s x)
    | (split <;> try (rename_i h; with_reducible rw [Prod.ext_iff] at h; have h' := h.2; dsimp only at h'; subst h'))
    | dsimp only

theorem rejectHit_frame (a0) (a1) (a2) (a3) (a4) (s : State) (n : Nat) (hn : n ||| 0x80306002 = n) :
    blank n (rejectHit a0 a1 a2 a3 a4 s) = blank n s := by
  refine blank_mono (m := 0x80306002) ?_ hn
  unfold rejectHit
  repeat' first
    | with_reducible rfl
    | simp only [mk_80306002, takeFree, Nat.reduceOr, apply_ite (blank _), apply_ite (keeps _ s), ite_self, implies_true, foldl_blank, keeps_next, Option.elim, lowerRef_frame, modJob_frame]
    | (with_reducible refine (foldl_blank ?_ _ _).trans ?_; intro s x)
    | (split <;> try (rename_i h; with_reducible rw [Prod.ext_iff] at h; have h' := h.2; dsimp only at h'; subst h'))
    | dsimp only

theorem wholeChipMap_frame (a0) (s : State) (n : Nat) (hn : n ||| 0x877D7C8F = n) :
    blank n (wholeChipMap a0 s) = blank n s := by
  refine blank_mono (m := 0x877D7C8F) ?_ hn
  unfold wholeChipMap
  repeat' first
    | with_reducible rfl
    | simp only [mk_877D7C8F, takeFree, Nat.reduceOr, apply_ite (blank _), apply_ite (keeps _ s), ite_self, implies_true, foldl_blank, keeps_next, Option.elim, loadMap_frame]
    | (with_reducible refine (foldl_blank ?_ _ _).trans ?_; intro s x)
    | (split <;> try (rename_i h; with_reducible rw [Prod.ext_iff] at h; have h' := h.2; dsimp only at h'; subst h'))
    | dsimp only

theorem wakeReload_frame (s : State) (n : Nat) (hn : n ||| 0x2000000 = n) :
    blank n (wakeReload s) = blank n s := by
  refine blank_mono (m := 0x2000000) ?_ hn
  unfold wakeReload
  generalize lastN 65536 (ringRecords s.nor ++ s.alm.norWait ++ s.alm.wake.filter (·.isOpen)) = w
  exact mk_2000000 _ _

theorem wholeChipClear_frame (a0) (s : State) (n : Nat) (hn : n ||| 0x333AE000 = n) :
    blank n (wholeChipClear a0 s) = blank n s := by
  refine blank_mono (m := 0x333AE000) ?_ hn
  unfold wholeChipClear
  repeat' first
    | with_reducible rfl
    | simp only [mk_333AE000, takeFree, Nat.reduceOr, apply_ite (blank _), apply_ite (keeps _ s), ite_self, implies_true, foldl_blank, keeps_next, Option.elim, wakeReload_frame]
    | (with_reducible refine (foldl_blank ?_ _ _).trans ?_; intro s x)
    | (split <;> try (rename_i h; with_reducible rw [Prod.ext_iff] at h; have h' := h.2; dsimp only at h'; subst h'))
    | dsimp only

theorem xhlAck_frame (a0) (s : State) (n : Nat) (hn : n ||| 0x80200000 = n) :
    blank n (xhlAck a0 s) = blank n s := by
  refine blank_mono (m := 0x80200000) ?_ hn
  unfold xhlAck
  repeat' first
    | with_reducible rfl
    | simp only [mk_80200000, takeFree, Nat.reduceOr, apply_ite (blank _), apply_ite (keeps _ s), ite_self, implies_true, foldl_blank, keeps_next, Option.elim, xhlRun_frame]
    | (with_reducible refine (foldl_blank ?_ _ _).trans ?_; intro s x)
    | (split <;> try (rename_i h; with_reducible rw [Prod.ext_iff] at h; have h' := h.2; dsimp only at h'; subst h'))
    | dsimp only

theorem xhlAckOut_frame (s : State) (n : Nat) (hn : n ||| 0x80200000 = n) :
    blank n (xhlAckOut s) = blank n s := by
  refine blank_mono (m := 0x80200000) ?_ hn
  unfold xhlAckOut
  repeat' first
    | with_reducible rfl
    | simp only [mk_80200000, takeFree, Nat.reduceOr, apply_ite (blank _), apply_ite (keeps _ s), ite_self, implies_true, foldl_blank, keeps_next, Option.elim, xhlRun_frame, emit_frame]
    | (with_reducible refine (foldl_blank ?_ _ _).trans ?_; intro s x)
    | (split <;> try (rename_i h; with_reducible rw [Prod.ext_iff] at h; have h' := h.2; dsimp only at h'; subst h'))
    | dsimp only

theorem takeMessage_frame (a0) (a1) (a2) (a3) (s : State) (n : Nat) (hn : n ||| 0x80A00482 = n) :
    blank n (takeMessage a0 a1 a2 a3 s) = blank n s := by
  refine blank_mono (m := 0x80A00482) ?_ hn
  unfold takeMessage
  repeat' first
    | with_reducible rfl
    | simp only [mk_80A00482, takeFree, Nat.reduceOr, apply_ite (blank _), apply_ite (keeps _ s), ite_self, implies_true, foldl_blank, keeps_next, Option.elim, busy_frame]
    | (with_reducible refine (foldl_blank ?_ _ _).trans ?_; intro s x)
    | (split <;> try (rename_i h; with_reducible rw [Prod.ext_iff] at h; have h' := h.2; dsimp only at h'; subst h'))
    | dsimp only

theorem xhlDiscard_frame (s : State) (n : Nat) (hn : n ||| 0x80200000 = n) :
    blank n (xhlDiscard s) = blank n s := by
  refine blank_mono (m := 0x80200000) ?_ hn
  unfold xhlDiscard
  repeat' first
    | with_reducible rfl
    | simp only [mk_80200000, takeFree, Nat.reduceOr, apply_ite (blank _), apply_ite (keeps _ s), ite_self, implies_true, foldl_blank, keeps_next, Option.elim, emit_frame]
    | (with_reducible refine (foldl_blank ?_ _ _).trans ?_; intro s x)
    | (split <;> try (rename_i h; with_reducible rw [Prod.ext_iff] at h; have h' := h.2; dsimp only at h'; subst h'))
    | dsimp only

theorem xhlTake_frame (a0) (s : State) (n : Nat) (hn : n ||| 0x183A04C8E = n) :
    blank n (xhlTake a0 s) = blank n s := by
  refine blank_mono (m := 0x183A04C8E) ?_ hn
  unfold xhlTake
  repeat' first
    | with_reducible rfl
    | simp only [mk_183A04C8E, takeFree, Nat.reduceOr, apply_ite (blank _), apply_ite (keeps _ s), ite_self, implies_true, foldl_blank, keeps_next, Option.elim, xhlAck_frame, xhlAckOut_frame, takeMessage_frame, xhlDiscard_frame]
    | (with_reducible refine (foldl_blank ?_ _ _).trans ?_; intro s x)
    | (split <;> try (rename_i h; with_reducible rw [Prod.ext_iff] at h; have h' := h.2; dsimp only at h'; subst h'))
    | dsimp only

theorem xhlReplayAll_frame (s : State) (n : Nat) (hn : n ||| 0x83206C8E = n) :
    blank n (xhlReplayAll s) = blank n s := by
  refine blank_mono (m := 0x83206C8E) ?_ hn
  unfold xhlReplayAll
  repeat' first
    | with_reducible rfl
    | simp only [mk_83206C8E, takeFree, Nat.reduceOr, apply_ite (blank _), apply_ite (keeps _ s), ite_self, implies_true, foldl_blank, keeps_next, Option.elim, xhlRetrain_frame, correctedEvent_frame, emit_frame]
    | (with_reducible refine (foldl_blank ?_ _ _).trans ?_; intro s x)
    | (split <;> try (rename_i h; with_reducible rw [Prod.ext_iff] at h; have h' := h.2; dsimp only at h'; subst h'))
    | dsimp only

theorem freezeVersion_frame (a0) (a1) (s : State) (n : Nat) (hn : n ||| 0x80284002 = n) :
    blank n (freezeVersion a0 a1 s) = blank n s := by
  refine blank_mono (m := 0x80284002) ?_ hn
  unfold freezeVersion
  repeat' first
    | with_reducible rfl
    | simp only [mk_80284002, takeFree, Nat.reduceOr, apply_ite (blank _), apply_ite (keeps _ s), ite_self, implies_true, foldl_blank, keeps_next, Option.elim, modVol_frame, noteMapChange_frame, sendDelta_frame]
    | (with_reducible refine (foldl_blank ?_ _ _).trans ?_; intro s x)
    | (split <;> try (rename_i h; with_reducible rw [Prod.ext_iff] at h; have h' := h.2; dsimp only at h'; subst h'))
    | dsimp only

theorem modzPeriod_frame (a0) (s : State) (n : Nat) (hn : n ||| 0x800000 = n) :
    blank n (modzPeriod a0 s) = blank n s := by
  refine blank_mono (m := 0x800000) ?_ hn
  unfold modzPeriod
  repeat' first
    | with_reducible rfl
    | simp only [mk_800000, takeFree, Nat.reduceOr, apply_ite (blank _), apply_ite (keeps _ s), ite_self, implies_true, foldl_blank, keeps_next, Option.elim]
    | (with_reducible refine (foldl_blank ?_ _ _).trans ?_; intro s x)
    | (split <;> try (rename_i h; with_reducible rw [Prod.ext_iff] at h; have h' := h.2; dsimp only at h'; subst h'))
    | dsimp only

end Sys2Proof.Machine
end

