-- ==== Sys2Proof/Laws/FrameCommands.lean ====
section
/-!
SUPPORT. What the meaning of each command leaves as it was (Laws/Frame.lean says how a frame is written).
-/
set_option linter.unusedSimpArgs false
set_option linter.unusedVariables false
namespace Sys2Proof.Machine

/-! ## An update of the fields of a mask -/

theorem mk_0 (t : State) :
    blank 0x0 ⟨t.glb, t.pwr, t.island, t.lds, t.fuses, t.cfg, t.img, t.eps, t.hostLatch, t.hostStage, t.dcq, t.net, t.rma, t.wlg, t.red, t.kc, t.sec, t.dig, t.med, t.mmg, t.ecp, t.xhl, t.drc, t.cle, t.flt, t.alm, t.upd, t.nor, t.lz, t.sram, t.hostData, t.out, t.freeCtr, t.pending⟩ = blank 0x0 t := (rfl)

theorem mk_A000 (t : State) (x13 x15) :
    blank 0xA000 ⟨t.glb, t.pwr, t.island, t.lds, t.fuses, t.cfg, t.img, t.eps, t.hostLatch, t.hostStage, t.dcq, t.net, t.rma, x13, t.red, x15, t.sec, t.dig, t.med, t.mmg, t.ecp, t.xhl, t.drc, t.cle, t.flt, t.alm, t.upd, t.nor, t.lz, t.sram, t.hostData, t.out, t.freeCtr, t.pending⟩ = blank 0xA000 t := (rfl)

theorem mk_80800000 (t : State) (x23 x31) :
    blank 0x80800000 ⟨t.glb, t.pwr, t.island, t.lds, t.fuses, t.cfg, t.img, t.eps, t.hostLatch, t.hostStage, t.dcq, t.net, t.rma, t.wlg, t.red, t.kc, t.sec, t.dig, t.med, t.mmg, t.ecp, t.xhl, t.drc, x23, t.flt, t.alm, t.upd, t.nor, t.lz, t.sram, t.hostData, x31, t.freeCtr, t.pending⟩ = blank 0x80800000 t := (rfl)

theorem mk_8320CC8E (t : State) (x1 x2 x3 x7 x10 x11 x14 x15 x21 x24 x25 x31) :
    blank 0x8320CC8E ⟨t.glb, x1, x2, x3, t.fuses, t.cfg, t.img, x7, t.hostLatch, t.hostStage, x10, x11, t.rma, t.wlg, x14, x15, t.sec, t.dig, t.med, t.mmg, t.ecp, x21, t.drc, t.cle, x24, x25, t.upd, t.nor, t.lz, t.sram, t.hostData, x31, t.freeCtr, t.pending⟩ = blank 0x8320CC8E t := (rfl)

theorem mk_83214C8F (t : State) (x0 x1 x2 x3 x7 x10 x11 x14 x16 x21 x24 x25 x31) :
    blank 0x83214C8F ⟨x0, x1, x2, x3, t.fuses, t.cfg, t.img, x7, t.hostLatch, t.hostStage, x10, x11, t.rma, t.wlg, x14, t.kc, x16, t.dig, t.med, t.mmg, t.ecp, x21, t.drc, t.cle, x24, x25, t.upd, t.nor, t.lz, t.sram, t.hostData, x31, t.freeCtr, t.pending⟩ = blank 0x83214C8F t := (rfl)

theorem mk_8321EC8E (t : State) (x1 x2 x3 x7 x10 x11 x13 x14 x15 x16 x21 x24 x25 x31) :
    blank 0x8321EC8E ⟨t.glb, x1, x2, x3, t.fuses, t.cfg, t.img, x7, t.hostLatch, t.hostStage, x10, x11, t.rma, x13, x14, x15, x16, t.dig, t.med, t.mmg, t.ecp, x21, t.drc, t.cle, x24, x25, t.upd, t.nor, t.lz, t.sram, t.hostData, x31, t.freeCtr, t.pending⟩ = blank 0x8321EC8E t := (rfl)

theorem mk_83284E8E (t : State) (x1 x2 x3 x7 x9 x10 x11 x14 x19 x21 x24 x25 x31) :
    blank 0x83284E8E ⟨t.glb, x1, x2, x3, t.fuses, t.cfg, t.img, x7, t.hostLatch, x9, x10, x11, t.rma, t.wlg, x14, t.kc, t.sec, t.dig, t.med, x19, t.ecp, x21, t.drc, t.cle, x24, x25, t.upd, t.nor, t.lz, t.sram, t.hostData, x31, t.freeCtr, t.pending⟩ = blank 0x83284E8E t := (rfl)

theorem mk_83306C8E (t : State) (x1 x2 x3 x7 x10 x11 x13 x14 x20 x21 x24 x25 x31) :
    blank 0x83306C8E ⟨t.glb, x1, x2, x3, t.fuses, t.cfg, t.img, x7, t.hostLatch, t.hostStage, x10, x11, t.rma, x13, x14, t.kc, t.sec, t.dig, t.med, t.mmg, x20, x21, t.drc, t.cle, x24, x25, t.upd, t.nor, t.lz, t.sram, t.hostData, x31, t.freeCtr, t.pending⟩ = blank 0x83306C8E t := (rfl)

theorem mk_8338EC8E (t : State) (x1 x2 x3 x7 x10 x11 x13 x14 x15 x19 x20 x21 x24 x25 x31) :
    blank 0x8338EC8E ⟨t.glb, x1, x2, x3, t.fuses, t.cfg, t.img, x7, t.hostLatch, t.hostStage, x10, x11, t.rma, x13, x14, x15, t.sec, t.dig, t.med, x19, x20, x21, t.drc, t.cle, x24, x25, t.upd, t.nor, t.lz, t.sram, t.hostData, x31, t.freeCtr, t.pending⟩ = blank 0x8338EC8E t := (rfl)

theorem mk_83A04E8E (t : State) (x1 x2 x3 x7 x9 x10 x11 x14 x21 x23 x24 x25 x31) :
    blank 0x83A04E8E ⟨t.glb, x1, x2, x3, t.fuses, t.cfg, t.img, x7, t.hostLatch, x9, x10, x11, t.rma, t.wlg, x14, t.kc, t.sec, t.dig, t.med, t.mmg, t.ecp, x21, t.drc, x23, x24, x25, t.upd, t.nor, t.lz, t.sram, t.hostData, x31, t.freeCtr, t.pending⟩ = blank 0x83A04E8E t := (rfl)

theorem mk_873C6C8E (t : State) (x1 x2 x3 x7 x10 x11 x13 x14 x18 x19 x20 x21 x24 x25 x26 x31) :
    blank 0x873C6C8E ⟨t.glb, x1, x2, x3, t.fuses, t.cfg, t.img, x7, t.hostLatch, t.hostStage, x10, x11, t.rma, x13, x14, t.kc, t.sec, t.dig, x18, x19, x20, x21, t.drc, t.cle, x24, x25, x26, t.nor, t.lz, t.sram, t.hostData, x31, t.freeCtr, t.pending⟩ = blank 0x873C6C8E t := (rfl)

theorem mk_8BBC6C8F (t : State) (x0 x1 x2 x3 x7 x10 x11 x13 x14 x18 x19 x20 x21 x23 x24 x25 x27 x31) :
    blank 0x8BBC6C8F ⟨x0, x1, x2, x3, t.fuses, t.cfg, t.img, x7, t.hostLatch, t.hostStage, x10, x11, t.rma, x13, x14, t.kc, t.sec, t.dig, x18, x19, x20, x21, t.drc, x23, x24, x25, t.upd, x27, t.lz, t.sram, t.hostData, x31, t.freeCtr, t.pending⟩ = blank 0x8BBC6C8F t := (rfl)

theorem mk_8F606CAF (t : State) (x0 x1 x2 x3 x5 x7 x10 x11 x13 x14 x21 x22 x24 x25 x26 x27 x31) :
    blank 0x8F606CAF ⟨x0, x1, x2, x3, t.fuses, x5, t.img, x7, t.hostLatch, t.hostStage, x10, x11, t.rma, x13, x14, t.kc, t.sec, t.dig, t.med, t.mmg, t.ecp, x21, x22, t.cle, x24, x25, x26, x27, t.lz, t.sram, t.hostData, x31, t.freeCtr, t.pending⟩ = blank 0x8F606CAF t := (rfl)

theorem mk_8FBDFCAF (t : State) (x0 x1 x2 x3 x5 x7 x10 x11 x12 x13 x14 x15 x16 x18 x19 x20 x21 x23 x24 x25 x26 x27 x31) :
    blank 0x8FBDFCAF ⟨x0, x1, x2, x3, t.fuses, x5, t.img, x7, t.hostLatch, t.hostStage, x10, x11, x12, x13, x14, x15, x16, t.dig, x18, x19, x20, x21, t.drc, x23, x24, x25, x26, x27, t.lz, t.sram, t.hostData, x31, t.freeCtr, t.pending⟩ = blank 0x8FBDFCAF t := (rfl)

theorem mk_93224C8E (t : State) (x1 x2 x3 x7 x10 x11 x14 x17 x21 x24 x25 x28 x31) :
    blank 0x93224C8E ⟨t.glb, x1, x2, x3, t.fuses, t.cfg, t.img, x7, t.hostLatch, t.hostStage, x10, x11, t.rma, t.wlg, x14, t.kc, t.sec, x17, t.med, t.mmg, t.ecp, x21, t.drc, t.cle, x24, x25, t.upd, t.nor, x28, t.sram, t.hostData, x31, t.freeCtr, t.pending⟩ = blank 0x93224C8E t := (rfl)

theorem mk_9FBFFCAF (t : State) (x0 x1 x2 x3 x5 x7 x10 x11 x12 x13 x14 x15 x16 x17 x18 x19 x20 x21 x23 x24 x25 x26 x27 x28 x31) :
    blank 0x9FBFFCAF ⟨x0, x1, x2, x3, t.fuses, x5, t.img, x7, t.hostLatch, t.hostStage, x10, x11, x12, x13, x14, x15, x16, x17, x18, x19, x20, x21, t.drc, x23, x24, x25, x26, x27, x28, t.sram, t.hostData, x31, t.freeCtr, t.pending⟩ = blank 0x9FBFFCAF t := (rfl)

theorem mk_B3204C8E (t : State) (x1 x2 x3 x7 x10 x11 x14 x21 x24 x25 x28 x29 x31) :
    blank 0xB3204C8E ⟨t.glb, x1, x2, x3, t.fuses, t.cfg, t.img, x7, t.hostLatch, t.hostStage, x10, x11, t.rma, t.wlg, x14, t.kc, t.sec, t.dig, t.med, t.mmg, t.ecp, x21, t.drc, t.cle, x24, x25, t.upd, t.nor, x28, x29, t.hostData, x31, t.freeCtr, t.pending⟩ = blank 0xB3204C8E t := (rfl)

theorem mk_B3295C8E (t : State) (x1 x2 x3 x7 x10 x11 x12 x14 x16 x19 x21 x24 x25 x28 x29 x31) :
    blank 0xB3295C8E ⟨t.glb, x1, x2, x3, t.fuses, t.cfg, t.img, x7, t.hostLatch, t.hostStage, x10, x11, x12, t.wlg, x14, t.kc, x16, t.dig, t.med, x19, t.ecp, x21, t.drc, t.cle, x24, x25, t.upd, t.nor, x28, x29, t.hostData, x31, t.freeCtr, t.pending⟩ = blank 0xB3295C8E t := (rfl)

theorem mk_B3A3EC8E (t : State) (x1 x2 x3 x7 x10 x11 x13 x14 x15 x16 x17 x21 x23 x24 x25 x28 x29 x31) :
    blank 0xB3A3EC8E ⟨t.glb, x1, x2, x3, t.fuses, t.cfg, t.img, x7, t.hostLatch, t.hostStage, x10, x11, t.rma, x13, x14, x15, x16, x17, t.med, t.mmg, t.ecp, x21, t.drc, x23, x24, x25, t.upd, t.nor, x28, x29, t.hostData, x31, t.freeCtr, t.pending⟩ = blank 0xB3A3EC8E t := (rfl)

theorem mk_BFAB7CAF (t : State) (x0 x1 x2 x3 x5 x7 x10 x11 x12 x13 x14 x16 x17 x19 x21 x23 x24 x25 x26 x27 x28 x29 x31) :
    blank 0xBFAB7CAF ⟨x0, x1, x2, x3, t.fuses, x5, t.img, x7, t.hostLatch, t.hostStage, x10, x11, x12, x13, x14, t.kc, x16, x17, t.med, x19, t.ecp, x21, t.drc, x23, x24, x25, x26, x27, x28, x29, t.hostData, x31, t.freeCtr, t.pending⟩ = blank 0xBFAB7CAF t := (rfl)

theorem mk_C3204C8E (t : State) (x1 x2 x3 x7 x10 x11 x14 x21 x24 x25 x30 x31) :
    blank 0xC3204C8E ⟨t.glb, x1, x2, x3, t.fuses, t.cfg, t.img, x7, t.hostLatch, t.hostStage, x10, x11, t.rma, t.wlg, x14, t.kc, t.sec, t.dig, t.med, t.mmg, t.ecp, x21, t.drc, t.cle, x24, x25, t.upd, t.nor, t.lz, t.sram, x30, x31, t.freeCtr, t.pending⟩ = blank 0xC3204C8E t := (rfl)

theorem mk_C3E44D8E (t : State) (x1 x2 x3 x7 x8 x10 x11 x14 x18 x21 x22 x23 x24 x25 x30 x31) :
    blank 0xC3E44D8E ⟨t.glb, x1, x2, x3, t.fuses, t.cfg, t.img, x7, x8, t.hostStage, x10, x11, t.rma, t.wlg, x14, t.kc, t.sec, t.dig, x18, t.mmg, t.ecp, x21, x22, x23, x24, x25, t.upd, t.nor, t.lz, t.sram, x30, x31, t.freeCtr, t.pending⟩ = blank 0xC3E44D8E t := (rfl)

theorem mk_18320EC8E (t : State) (x1 x2 x3 x7 x10 x11 x13 x14 x15 x21 x24 x25 x31 x32) :
    blank 0x18320EC8E ⟨t.glb, x1, x2, x3, t.fuses, t.cfg, t.img, x7, t.hostLatch, t.hostStage, x10, x11, t.rma, x13, x14, x15, t.sec, t.dig, t.med, t.mmg, t.ecp, x21, t.drc, t.cle, x24, x25, t.upd, t.nor, t.lz, t.sram, t.hostData, x31, x32, t.pending⟩ = blank 0x18320EC8E t := (rfl)

theorem mk_183236F8E (t : State) (x1 x2 x3 x7 x8 x9 x10 x11 x13 x14 x16 x17 x21 x24 x25 x31 x32) :
    blank 0x183236F8E ⟨t.glb, x1, x2, x3, t.fuses, t.cfg, t.img, x7, x8, x9, x10, x11, t.rma, x13, x14, t.kc, x16, x17, t.med, t.mmg, t.ecp, x21, t.drc, t.cle, x24, x25, t.upd, t.nor, t.lz, t.sram, t.hostData, x31, x32, t.pending⟩ = blank 0x183236F8E t := (rfl)

theorem mk_183244C8F (t : State) (x0 x1 x2 x3 x7 x10 x11 x14 x18 x21 x24 x25 x31 x32) :
    blank 0x183244C8F ⟨x0, x1, x2, x3, t.fuses, t.cfg, t.img, x7, t.hostLatch, t.hostStage, x10, x11, t.rma, t.wlg, x14, t.kc, t.sec, t.dig, x18, t.mmg, t.ecp, x21, t.drc, t.cle, x24, x25, t.upd, t.nor, t.lz, t.sram, t.hostData, x31, x32, t.pending⟩ = blank 0x183244C8F t := (rfl)

theorem mk_183294C8F (t : State) (x0 x1 x2 x3 x7 x10 x11 x14 x16 x19 x21 x24 x25 x31 x32) :
    blank 0x183294C8F ⟨x0, x1, x2, x3, t.fuses, t.cfg, t.img, x7, t.hostLatch, t.hostStage, x10, x11, t.rma, t.wlg, x14, t.kc, x16, t.dig, t.med, x19, t.ecp, x21, t.drc, t.cle, x24, x25, t.upd, t.nor, t.lz, t.sram, t.hostData, x31, x32, t.pending⟩ = blank 0x183294C8F t := (rfl)

theorem mk_183A06C8E (t : State) (x1 x2 x3 x7 x10 x11 x13 x14 x21 x23 x24 x25 x31 x32) :
    blank 0x183A06C8E ⟨t.glb, x1, x2, x3, t.fuses, t.cfg, t.img, x7, t.hostLatch, t.hostStage, x10, x11, t.rma, x13, x14, t.kc, t.sec, t.dig, t.med, t.mmg, t.ecp, x21, t.drc, x23, x24, x25, t.upd, t.nor, t.lz, t.sram, t.hostData, x31, x32, t.pending⟩ = blank 0x183A06C8E t := (rfl)

theorem mk_18B3C6C8F (t : State) (x0 x1 x2 x3 x7 x10 x11 x13 x14 x18 x19 x20 x21 x24 x25 x27 x31 x32) :
    blank 0x18B3C6C8F ⟨x0, x1, x2, x3, t.fuses, t.cfg, t.img, x7, t.hostLatch, t.hostStage, x10, x11, t.rma, x13, x14, t.kc, t.sec, t.dig, x18, x19, x20, x21, t.drc, t.cle, x24, x25, t.upd, x27, t.lz, t.sram, t.hostData, x31, x32, t.pending⟩ = blank 0x18B3C6C8F t := (rfl)

theorem mk_18F20ECAF (t : State) (x0 x1 x2 x3 x5 x7 x10 x11 x13 x14 x15 x21 x24 x25 x26 x27 x31 x32) :
    blank 0x18F20ECAF ⟨x0, x1, x2, x3, t.fuses, x5, t.img, x7, t.hostLatch, t.hostStage, x10, x11, t.rma, x13, x14, x15, t.sec, t.dig, t.med, t.mmg, t.ecp, x21, t.drc, t.cle, x24, x25, x26, x27, t.lz, t.sram, t.hostData, x31, x32, t.pending⟩ = blank 0x18F20ECAF t := (rfl)

theorem mk_18F304CAF (t : State) (x0 x1 x2 x3 x5 x7 x10 x11 x14 x20 x21 x24 x25 x26 x27 x31 x32) :
    blank 0x18F304CAF ⟨x0, x1, x2, x3, t.fuses, x5, t.img, x7, t.hostLatch, t.hostStage, x10, x11, t.rma, t.wlg, x14, t.kc, t.sec, t.dig, t.med, t.mmg, x20, x21, t.drc, t.cle, x24, x25, x26, x27, t.lz, t.sram, t.hostData, x31, x32, t.pending⟩ = blank 0x18F304CAF t := (rfl)

theorem mk_18F3DFCAF (t : State) (x0 x1 x2 x3 x5 x7 x10 x11 x12 x13 x14 x15 x16 x18 x19 x20 x21 x24 x25 x26 x27 x31 x32) :
    blank 0x18F3DFCAF ⟨x0, x1, x2, x3, t.fuses, x5, t.img, x7, t.hostLatch, t.hostStage, x10, x11, x12, x13, x14, x15, x16, t.dig, x18, x19, x20, x21, t.drc, t.cle, x24, x25, x26, x27, t.lz, t.sram, t.hostData, x31, x32, t.pending⟩ = blank 0x18F3DFCAF t := (rfl)

theorem mk_193A05C8E (t : State) (x1 x2 x3 x7 x10 x11 x12 x14 x21 x23 x24 x25 x28 x31 x32) :
    blank 0x193A05C8E ⟨t.glb, x1, x2, x3, t.fuses, t.cfg, t.img, x7, t.hostLatch, t.hostStage, x10, x11, x12, t.wlg, x14, t.kc, t.sec, t.dig, t.med, t.mmg, t.ecp, x21, t.drc, x23, x24, x25, t.upd, t.nor, x28, t.sram, t.hostData, x31, x32, t.pending⟩ = blank 0x193A05C8E t := (rfl)

theorem mk_193A27C8E (t : State) (x1 x2 x3 x7 x10 x11 x12 x13 x14 x17 x21 x23 x24 x25 x28 x31 x32) :
    blank 0x193A27C8E ⟨t.glb, x1, x2, x3, t.fuses, t.cfg, t.img, x7, t.hostLatch, t.hostStage, x10, x11, x12, x13, x14, t.kc, t.sec, x17, t.med, t.mmg, t.ecp, x21, t.drc, x23, x24, x25, t.upd, t.nor, x28, t.sram, t.hostData, x31, x32, t.pending⟩ = blank 0x193A27C8E t := (rfl)

theorem mk_19F3FFCAF (t : State) (x0 x1 x2 x3 x5 x7 x10 x11 x12 x13 x14 x15 x16 x17 x18 x19 x20 x21 x24 x25 x26 x27 x28 x31 x32) :
    blank 0x19F3FFCAF ⟨x0, x1, x2, x3, t.fuses, x5, t.img, x7, t.hostLatch, t.hostStage, x10, x11, x12, x13, x14, x15, x16, x17, x18, x19, x20, x21, t.drc, t.cle, x24, x25, x26, x27, x28, t.sram, t.hostData, x31, x32, t.pending⟩ = blank 0x19F3FFCAF t := (rfl)

theorem mk_1BF7FFCAF (t : State) (x0 x1 x2 x3 x5 x7 x10 x11 x12 x13 x14 x15 x16 x17 x18 x19 x20 x21 x22 x24 x25 x26 x27 x28 x29 x31 x32) :
    blank 0x1BF7FFCAF ⟨x0, x1, x2, x3, t.fuses, x5, t.img, x7, t.hostLatch, t.hostStage, x10, x11, x12, x13, x14, x15, x16, x17, x18, x19, x20, x21, x22, t.cle, x24, x25, x26, x27, x28, x29, t.hostData, x31, x32, t.pending⟩ = blank 0x1BF7FFCAF t := (rfl)

theorem mk_1BFBFFCBF (t : State) (x0 x1 x2 x3 x4 x5 x7 x10 x11 x12 x13 x14 x15 x16 x17 x18 x19 x20 x21 x23 x24 x25 x26 x27 x28 x29 x31 x32) :
    blank 0x1BFBFFCBF ⟨x0, x1, x2, x3, x4, x5, t.img, x7, t.hostLatch, t.hostStage, x10, x11, x12, x13, x14, x15, x16, x17, x18, x19, x20, x21, t.drc, x23, x24, x25, x26, x27, x28, x29, t.hostData, x31, x32, t.pending⟩ = blank 0x1BFBFFCBF t := (rfl)

/-! ## The commands -/

theorem execRebalanceReq_frame (s : State) (n : Nat) (hn : n ||| 0x183204C8F = n) :
    keeps n s (execRebalanceReq s) := by
  refine keeps_mono (m := 0x183204C8F) ?_ hn
  unfold execRebalanceReq
  repeat' first
    | with_reducible rfl
    | simp only [mk_183204C8F, takeFree, Nat.reduceOr, apply_ite (blank _), apply_ite (keeps _ s), ite_self, implies_true, foldl_blank, keeps_next, Option.elim, startHandover_frame, record_frame]
    | (with_reducible refine (foldl_blank ?_ _ _).trans ?_; intro s x)
    | (split <;> try (rename_i h; with_reducible rw [Prod.ext_iff] at h; have h' := h.2; dsimp only at h'; subst h'))
    | dsimp only

theorem execAckTimeout_frame (a0) (s : State) (n : Nat) (hn : n ||| 0x183205C8E = n) :
    keeps n s (execAckTimeout a0 s) := by
  refine keeps_mono (m := 0x183205C8E) ?_ hn
  unfold execAckTimeout
  repeat' first
    | with_reducible rfl
    | simp only [mk_183205C8E, takeFree, Nat.reduceOr, apply_ite (blank _), apply_ite (keeps _ s), ite_self, implies_true, foldl_blank, keeps_next, Option.elim, retry_frame]
    | (with_reducible refine (foldl_blank ?_ _ _).trans ?_; intro s x)
    | (split <;> try (rename_i h; with_reducible rw [Prod.ext_iff] at h; have h' := h.2; dsimp only at h'; subst h'))
    | dsimp only

theorem execAdminQueueDisable_frame (a0) (a1) (s : State) (n : Nat) (hn : n ||| 0x83204C8E = n) :
    keeps n s (execAdminQueueDisable a0 a1 s) := by
  refine keeps_mono (m := 0x83204C8E) ?_ hn
  unfold execAdminQueueDisable
  rw [keeps_next]
  refine regWrite_frame _ _ _ _ _ rfl ?_
  intro t
  repeat' first
    | with_reducible rfl
    | simp only [mk_83204C8E, takeFree, Nat.reduceOr, apply_ite (blank _), apply_ite (keeps _ s), ite_self, implies_true, foldl_blank, keeps_next, Option.elim, regWrite_frame, admCtlWrite_frame]
    | (split <;> try (rename_i h; with_reducible rw [Prod.ext_iff] at h; have h' := h.2; dsimp only at h'; subst h'))
    | dsimp only

theorem execAdminQueueEnable_frame (a0) (a1) (s : State) (n : Nat) (hn : n ||| 0x83204C8E = n) :
    keeps n s (execAdminQueueEnable a0 a1 s) := by
  refine keeps_mono (m := 0x83204C8E) ?_ hn
  unfold execAdminQueueEnable
  rw [keeps_next]
  refine regWrite_frame _ _ _ _ _ rfl ?_
  intro t
  repeat' first
    | with_reducible rfl
    | simp only [mk_83204C8E, takeFree, Nat.reduceOr, apply_ite (blank _), apply_ite (keeps _ s), ite_self, implies_true, foldl_blank, keeps_next, Option.elim, regWrite_frame, admCtlWrite_frame]
    | (split <;> try (rename_i h; with_reducible rw [Prod.ext_iff] at h; have h' := h.2; dsimp only at h'; subst h'))
    | dsimp only

theorem execAlmCursorWrite_frame (a0) (s : State) (n : Nat) (hn : n ||| 0x2000000 = n) :
    keeps n s (execAlmCursorWrite a0 s) := by
  refine keeps_mono (m := 0x2000000) ?_ hn
  unfold execAlmCursorWrite
  repeat' first
    | with_reducible rfl
    | simp only [mk_2000000, takeFree, Nat.reduceOr, apply_ite (blank _), apply_ite (keeps _ s), ite_self, implies_true, foldl_blank, keeps_next, Option.elim, almCursorWrite_frame]
    | (with_reducible refine (foldl_blank ?_ _ _).trans ?_; intro s x)
    | (split <;> try (rename_i h; with_reducible rw [Prod.ext_iff] at h; have h' := h.2; dsimp only at h'; subst h'))
    | dsimp only

theorem execAlmSelect_frame (a0) (s : State) (n : Nat) (hn : n ||| 0x2000000 = n) :
    keeps n s (execAlmSelect a0 s) := by
  refine keeps_mono (m := 0x2000000) ?_ hn
  unfold execAlmSelect
  repeat' first
    | with_reducible rfl
    | simp only [mk_2000000, takeFree, Nat.reduceOr, apply_ite (blank _), apply_ite (keeps _ s), ite_self, implies_true, foldl_blank, keeps_next, Option.elim, almSelect_frame]
    | (with_reducible refine (foldl_blank ?_ _ _).trans ?_; intro s x)
    | (split <;> try (rename_i h; with_reducible rw [Prod.ext_iff] at h; have h' := h.2; dsimp only at h'; subst h'))
    | dsimp only

theorem execAlmWindowAdvance_frame (s : State) (n : Nat) (hn : n ||| 0x42000000 = n) :
    keeps n s (execAlmWindowAdvance s) := by
  refine keeps_mono (m := 0x42000000) ?_ hn
  unfold execAlmWindowAdvance
  repeat' first
    | with_reducible rfl
    | simp only [mk_42000000, takeFree, Nat.reduceOr, apply_ite (blank _), apply_ite (keeps _ s), ite_self, implies_true, foldl_blank, keeps_next, Option.elim, almReadLast_frame]
    | (with_reducible refine (foldl_blank ?_ _ _).trans ?_; intro s x)
    | (split <;> try (rename_i h; with_reducible rw [Prod.ext_iff] at h; have h' := h.2; dsimp only at h'; subst h'))
    | dsimp only

theorem execAlmanacClear_frame (a0) (s : State) (n : Nat) (hn : n ||| 0x8B204C8E = n) :
    keeps n s (execAlmanacClear a0 s) := by
  refine keeps_mono (m := 0x8B204C8E) ?_ hn
  unfold execAlmanacClear
  repeat' first
    | with_reducible rfl
    | simp only [mk_8B204C8E, takeFree, Nat.reduceOr, apply_ite (blank _), apply_ite (keeps _ s), ite_self, implies_true, foldl_blank, keeps_next, Option.elim, almClear_frame]
    | (with_reducible refine (foldl_blank ?_ _ _).trans ?_; intro s x)
    | (split <;> try (rename_i h; with_reducible rw [Prod.ext_iff] at h; have h' := h.2; dsimp only at h'; subst h'))
    | dsimp only

theorem execArmFwd_frame (s : State) (n : Nat) (hn : n ||| 0x8 = n) :
    keeps n s (execArmFwd s) := by
  refine keeps_mono (m := 0x8) ?_ hn
  unfold execArmFwd
  repeat' first
    | with_reducible rfl
    | simp only [mk_8, takeFree, Nat.reduceOr, apply_ite (blank _), apply_ite (keeps _ s), ite_self, implies_true, foldl_blank, keeps_next, Option.elim, armForward_frame]
    | (with_reducible refine (foldl_blank ?_ _ _).trans ?_; intro s x)
    | (split <;> try (rename_i h; with_reducible rw [Prod.ext_iff] at h; have h' := h.2; dsimp only at h'; subst h'))
    | dsimp only

theorem execArmFwdExpiry_frame (s : State) (n : Nat) (hn : n ||| 0x8 = n) :
    keeps n s (execArmFwdExpiry s) := by
  refine keeps_mono (m := 0x8) ?_ hn
  unfold execArmFwdExpiry
  repeat' first
    | with_reducible rfl
    | simp only [mk_8, takeFree, Nat.reduceOr, apply_ite (blank _), apply_ite (keeps _ s), ite_self, implies_true, foldl_blank, keeps_next, Option.elim]
    | (with_reducible refine (foldl_blank ?_ _ _).trans ?_; intro s x)
    | (split <;> try (rename_i h; with_reducible rw [Prod.ext_iff] at h; have h' := h.2; dsimp only at h'; subst h'))
    | dsimp only

theorem execAssemblyComplete_frame (a0) (a1) (s : State) (n : Nat) (hn : n ||| 0x8320EC8E = n) :
    keeps n s (execAssemblyComplete a0 a1 s) := by
  refine keeps_mono (m := 0x8320EC8E) ?_ hn
  unfold execAssemblyComplete
  repeat' first
    | with_reducible rfl
    | simp only [mk_8320EC8E, takeFree, Nat.reduceOr, apply_ite (blank _), apply_ite (keeps _ s), ite_self, implies_true, foldl_blank, keeps_next, Option.elim, handoffFail_frame, untake_frame, dropJob_frame, record_frame, modJob_frame]
    | (with_reducible refine (foldl_blank ?_ _ _).trans ?_; intro s x)
    | (split <;> try (rename_i h; with_reducible rw [Prod.ext_iff] at h; have h' := h.2; dsimp only at h'; subst h'))
    | dsimp only

theorem execMirrorAck_frame (a0) (a1) (a2) (a3) (a4) (s : State) (n : Nat) (hn : n ||| 0x83206C8E = n) :
    keeps n s (execMirrorAck a0 a1 a2 a3 a4 s) := by
  refine keeps_mono (m := 0x83206C8E) ?_ hn
  unfold execMirrorAck
  repeat' first
    | with_reducible rfl
    | simp only [mk_83206C8E, takeFree, Nat.reduceOr, apply_ite (blank _), apply_ite (keeps _ s), ite_self, implies_true, foldl_blank, keeps_next, Option.elim, staleItem_frame, protect_frame, finish_frame, resolveMirror_frame, sendMirror_frame, noteMirrorHeld_frame]
    | (with_reducible refine (foldl_blank ?_ _ _).trans ?_; intro s x)
    | (split <;> try (rename_i h; with_reducible rw [Prod.ext_iff] at h; have h' := h.2; dsimp only at h'; subst h'))
    | dsimp only

theorem execAssemblyDelayExpiry_frame (a0) (a1) (a2) (a3) (s : State) (n : Nat) (hn : n ||| 0x8F3DECAF = n) :
    keeps n s (execAssemblyDelayExpiry a0 a1 a2 a3 s) := by
  refine keeps_mono (m := 0x8F3DECAF) ?_ hn
  unfold execAssemblyDelayExpiry
  repeat' first
    | with_reducible rfl
    | simp only [mk_8F3DECAF, takeFree, Nat.reduceOr, apply_ite (blank _), apply_ite (keeps _ s), ite_self, implies_true, foldl_blank, keeps_next, Option.elim, startAssembly_frame]
    | (with_reducible refine (foldl_blank ?_ _ _).trans ?_; intro s x)
    | (split <;> try (rename_i h; with_reducible rw [Prod.ext_iff] at h; have h' := h.2; dsimp only at h'; subst h'))
    | dsimp only

theorem execAssemblyStart_frame (a0) (a1) (a2) (a3) (s : State) (n : Nat) (hn : n ||| 0x8F3DECAF = n) :
    keeps n s (execAssemblyStart a0 a1 a2 a3 s) := by
  refine keeps_mono (m := 0x8F3DECAF) ?_ hn
  unfold execAssemblyStart
  repeat' first
    | with_reducible rfl
    | simp only [mk_8F3DECAF, takeFree, Nat.reduceOr, apply_ite (blank _), apply_ite (keeps _ s), ite_self, implies_true, foldl_blank, keeps_next, Option.elim, startAssembly_frame, startCopy_frame]
    | (with_reducible refine (foldl_blank ?_ _ _).trans ?_; intro s x)
    | (split <;> try (rename_i h; with_reducible rw [Prod.ext_iff] at h; have h' := h.2; dsimp only at h'; subst h'))
    | dsimp only

theorem execAsyncEvent_frame (a0) (a1) (a2) (s : State) (n : Nat) (hn : n ||| 0x9F3FFCAF = n) :
    keeps n s (execAsyncEvent a0 a1 a2 s) := by
  refine keeps_mono (m := 0x9F3FFCAF) ?_ hn
  unfold execAsyncEvent
  repeat' first
    | with_reducible rfl
    | simp only [mk_9F3FFCAF, takeFree, Nat.reduceOr, apply_ite (blank _), apply_ite (keeps _ s), ite_self, implies_true, foldl_blank, keeps_next, Option.elim, fetched_frame]
    | (with_reducible refine (foldl_blank ?_ _ _).trans ?_; intro s x)
    | (split <;> try (rename_i h; with_reducible rw [Prod.ext_iff] at h; have h' := h.2; dsimp only at h'; subst h'))
    | dsimp only

theorem execAvsMarginFail_frame (s : State) (n : Nat) (hn : n ||| 0x8F206CAF = n) :
    keeps n s (execAvsMarginFail s) := by
  refine keeps_mono (m := 0x8F206CAF) ?_ hn
  unfold execAvsMarginFail
  repeat' first
    | with_reducible rfl
    | simp only [mk_8F206CAF, takeFree, Nat.reduceOr, apply_ite (blank _), apply_ite (keeps _ s), ite_self, implies_true, foldl_blank, keeps_next, Option.elim, failstop_frame]
    | (with_reducible refine (foldl_blank ?_ _ _).trans ?_; intro s x)
    | (split <;> try (rename_i h; with_reducible rw [Prod.ext_iff] at h; have h' := h.2; dsimp only at h'; subst h'))
    | dsimp only

theorem execBankDischarge_frame (s : State) (n : Nat) (hn : n ||| 0x8BB06C8F = n) :
    keeps n s (execBankDischarge s) := by
  refine keeps_mono (m := 0x8BB06C8F) ?_ hn
  unfold execBankDischarge
  repeat' first
    | with_reducible rfl
    | simp only [mk_8BB06C8F, takeFree, Nat.reduceOr, apply_ite (blank _), apply_ite (keeps _ s), ite_self, implies_true, foldl_blank, keeps_next, Option.elim, flushCommit_frame]
    | (with_reducible refine (foldl_blank ?_ _ _).trans ?_; intro s x)
    | (split <;> try (rename_i h; with_reducible rw [Prod.ext_iff] at h; have h' := h.2; dsimp only at h'; subst h'))
    | dsimp only

theorem execBar2Request_frame (a0) (a1) (s : State) (n : Nat) (hn : n ||| 0xB3204C8E = n) :
    keeps n s (execBar2Request a0 a1 s) := by
  refine keeps_mono (m := 0xB3204C8E) ?_ hn
  unfold execBar2Request
  repeat' first
    | with_reducible rfl
    | simp only [mk_B3204C8E, takeFree, Nat.reduceOr, apply_ite (blank _), apply_ite (keeps _ s), ite_self, implies_true, foldl_blank, keeps_next, Option.elim, modEp_frame, outside_frame, emit_frame, spaceWrite_frame]
    | (with_reducible refine (foldl_blank ?_ _ _).trans ?_; intro s x)
    | (split <;> try (rename_i h; with_reducible rw [Prod.ext_iff] at h; have h' := h.2; dsimp only at h'; subst h'))
    | dsimp only

theorem execBar4Access_frame (a0) (a1) (a2) (a3) (s : State) (n : Nat) (hn : n ||| 0xC3204C8E = n) :
    keeps n s (execBar4Access a0 a1 a2 a3 s) := by
  refine keeps_mono (m := 0xC3204C8E) ?_ hn
  unfold execBar4Access
  repeat' first
    | with_reducible rfl
    | simp only [mk_C3204C8E, takeFree, Nat.reduceOr, apply_ite (blank _), apply_ite (keeps _ s), ite_self, implies_true, foldl_blank, keeps_next, Option.elim, outside_frame, bar4Access_frame, accessError_frame]
    | (with_reducible refine (foldl_blank ?_ _ _).trans ?_; intro s x)
    | (split <;> try (rename_i h; with_reducible rw [Prod.ext_iff] at h; have h' := h.2; dsimp only at h'; subst h'))
    | dsimp only

theorem execBarAccessError_frame (a0) (a1) (a2) (a3) (a4) (s : State) (n : Nat) (hn : n ||| 0xCFFFFFAF = n) :
    keeps n s (execBarAccessError a0 a1 a2 a3 a4 s) := by
  refine keeps_mono (m := 0xCFFFFFAF) ?_ hn
  unfold execBarAccessError
  repeat' first
    | with_reducible rfl
    | simp only [mk_CFFFFFAF, takeFree, Nat.reduceOr, apply_ite (blank _), apply_ite (keeps _ s), ite_self, implies_true, foldl_blank, keeps_next, Option.elim, barAccess_frame, outside_frame]
    | (with_reducible refine (foldl_blank ?_ _ _).trans ?_; intro s x)
    | (split <;> try (rename_i h; with_reducible rw [Prod.ext_iff] at h; have h' := h.2; dsimp only at h'; subst h'))
    | dsimp only

theorem execBatchAck_frame (a0) (a1) (s : State) (n : Nat) (hn : n ||| 0x83385C8E = n) :
    keeps n s (execBatchAck a0 a1 s) := by
  refine keeps_mono (m := 0x83385C8E) ?_ hn
  unfold execBatchAck
  repeat' first
    | with_reducible rfl
    | simp only [mk_83385C8E, takeFree, Nat.reduceOr, apply_ite (blank _), apply_ite (keeps _ s), ite_self, implies_true, foldl_blank, keeps_next, Option.elim, releaseCut_frame, modLink_frame, stopLink_frame]
    | (with_reducible refine (foldl_blank ?_ _ _).trans ?_; intro s x)
    | (split <;> try (rename_i h; with_reducible rw [Prod.ext_iff] at h; have h' := h.2; dsimp only at h'; subst h'))
    | dsimp only

theorem execBatchApply_frame (a0) (a1) (s : State) (n : Nat) (hn : n ||| 0x8FBDFCAF = n) :
    keeps n s (execBatchApply a0 a1 s) := by
  refine keeps_mono (m := 0x8FBDFCAF) ?_ hn
  unfold execBatchApply
  repeat' first
    | with_reducible rfl
    | simp only [mk_8FBDFCAF, takeFree, Nat.reduceOr, apply_ite (blank _), apply_ite (keeps _ s), ite_self, implies_true, foldl_blank, keeps_next, Option.elim, admitWrite_frame, busy_frame, modLink_frame, rebudget_frame, issueRoce_frame]
    | (with_reducible refine (foldl_blank ?_ _ _).trans ?_; intro s x)
    | (split <;> try (rename_i h; with_reducible rw [Prod.ext_iff] at h; have h' := h.2; dsimp only at h'; subst h'))
    | dsimp only

theorem execBatchResend_frame (a0) (a1) (s : State) (n : Nat) (hn : n ||| 0x8F3DFCAF = n) :
    keeps n s (execBatchResend a0 a1 s) := by
  refine keeps_mono (m := 0x8F3DFCAF) ?_ hn
  unfold execBatchResend
  repeat' first
    | with_reducible rfl
    | simp only [mk_8F3DFCAF, takeFree, Nat.reduceOr, apply_ite (blank _), apply_ite (keeps _ s), ite_self, implies_true, foldl_blank, keeps_next, Option.elim, shipBatch_frame]
    | (with_reducible refine (foldl_blank ?_ _ _).trans ?_; intro s x)
    | (split <;> try (rename_i h; with_reducible rw [Prod.ext_iff] at h; have h' := h.2; dsimp only at h'; subst h'))
    | dsimp only

theorem execBirthRefresh_frame (s : State) (n : Nat) (hn : n ||| 0xA000000 = n) :
    keeps n s (execBirthRefresh s) := by
  refine keeps_mono (m := 0xA000000) ?_ hn
  unfold execBirthRefresh
  repeat' first
    | with_reducible rfl
    | simp only [mk_A000000, takeFree, Nat.reduceOr, apply_ite (blank _), apply_ite (keeps _ s), ite_self, implies_true, foldl_blank, keeps_next, Option.elim, birthRewrite_frame]
    | (with_reducible refine (foldl_blank ?_ _ _).trans ?_; intro s x)
    | (split <;> try (rename_i h; with_reducible rw [Prod.ext_iff] at h; have h' := h.2; dsimp only at h'; subst h'))
    | dsimp only

theorem execBlockTest_frame (a0) (s : State) (n : Nat) (hn : n ||| 0x83204C8E = n) :
    keeps n s (execBlockTest a0 s) := by
  refine keeps_mono (m := 0x83204C8E) ?_ hn
  unfold execBlockTest
  repeat' first
    | with_reducible rfl
    | simp only [mk_83204C8E, takeFree, Nat.reduceOr, apply_ite (blank _), apply_ite (keeps _ s), ite_self, implies_true, foldl_blank, keeps_next, Option.elim, blockTest_frame]
    | (with_reducible refine (foldl_blank ?_ _ _).trans ?_; intro s x)
    | (split <;> try (rename_i h; with_reducible rw [Prod.ext_iff] at h; have h' := h.2; dsimp only at h'; subst h'))
    | dsimp only

theorem execBudget_frame (a0) (s : State) (n : Nat) (hn : n ||| 0x83204C8E = n) :
    keeps n s (execBudget a0 s) := by
  refine keeps_mono (m := 0x83204C8E) ?_ hn
  unfold execBudget
  repeat' first
    | with_reducible rfl
    | simp only [mk_83204C8E, takeFree, Nat.reduceOr, apply_ite (blank _), apply_ite (keeps _ s), ite_self, implies_true, foldl_blank, keeps_next, Option.elim, rebudget_frame]
    | (with_reducible refine (foldl_blank ?_ _ _).trans ?_; intro s x)
    | (split <;> try (rename_i h; with_reducible rw [Prod.ext_iff] at h; have h' := h.2; dsimp only at h'; subst h'))
    | dsimp only

theorem execBudgetCompute_frame (a0) (s : State) (n : Nat) (hn : n ||| 0x83204C8E = n) :
    keeps n s (execBudgetCompute a0 s) := by
  refine keeps_mono (m := 0x83204C8E) ?_ hn
  unfold execBudgetCompute
  repeat' first
    | with_reducible rfl
    | simp only [mk_83204C8E, takeFree, Nat.reduceOr, apply_ite (blank _), apply_ite (keeps _ s), ite_self, implies_true, foldl_blank, keeps_next, Option.elim, xhlSend_frame, rebudget_frame]
    | (with_reducible refine (foldl_blank ?_ _ _).trans ?_; intro s x)
    | (split <;> try (rename_i h; with_reducible rw [Prod.ext_iff] at h; have h' := h.2; dsimp only at h'; subst h'))
    | dsimp only

theorem execBulk_frame (a0) (s : State) (n : Nat) (hn : n ||| 0x83396C8F = n) :
    keeps n s (execBulk a0 s) := by
  refine keeps_mono (m := 0x83396C8F) ?_ hn
  unfold execBulk
  repeat' first
    | with_reducible rfl
    | simp only [mk_83396C8F, takeFree, Nat.reduceOr, apply_ite (blank _), apply_ite (keeps _ s), ite_self, implies_true, foldl_blank, keeps_next, Option.elim, rebudget_frame, bulkEnd_frame, bulkTake_frame]
    | (with_reducible refine (foldl_blank ?_ _ _).trans ?_; intro s x)
    | (split <;> try (rename_i h; with_reducible rw [Prod.ext_iff] at h; have h' := h.2; dsimp only at h'; subst h'))
    | dsimp only

theorem execBusMasterEnableCleared_frame (a0) (s : State) (n : Nat) (hn : n ||| 0x480 = n) :
    keeps n s (execBusMasterEnableCleared a0 s) := by
  refine keeps_mono (m := 0x480) ?_ hn
  unfold execBusMasterEnableCleared
  repeat' first
    | with_reducible rfl
    | simp only [mk_480, takeFree, Nat.reduceOr, apply_ite (blank _), apply_ite (keeps _ s), ite_self, implies_true, foldl_blank, keeps_next, Option.elim, setHeld_frame, modEp_frame]
    | (with_reducible refine (foldl_blank ?_ _ _).trans ?_; intro s x)
    | (split <;> try (rename_i h; with_reducible rw [Prod.ext_iff] at h; have h' := h.2; dsimp only at h'; subst h'))
    | dsimp only

theorem execBusMasterEnableSet_frame (a0) (a1) (s : State) (n : Nat) (hn : n ||| 0x83204C8E = n) :
    keeps n s (execBusMasterEnableSet a0 a1 s) := by
  refine keeps_mono (m := 0x83204C8E) ?_ hn
  unfold execBusMasterEnableSet
  repeat' first
    | with_reducible rfl
    | simp only [mk_83204C8E, takeFree, Nat.reduceOr, apply_ite (blank _), apply_ite (keeps _ s), ite_self, implies_true, foldl_blank, keeps_next, Option.elim, resumeEp_frame, modEp_frame]
    | (with_reducible refine (foldl_blank ?_ _ _).trans ?_; intro s x)
    | (split <;> try (rename_i h; with_reducible rw [Prod.ext_iff] at h; have h' := h.2; dsimp only at h'; subst h'))
    | dsimp only

theorem execCaParityAlert_frame (a0) (a1) (s : State) (n : Nat) (hn : n ||| 0x80400000 = n) :
    keeps n s (execCaParityAlert a0 a1 s) := by
  refine keeps_mono (m := 0x80400000) ?_ hn
  unfold execCaParityAlert
  repeat' first
    | with_reducible rfl
    | simp only [mk_80400000, takeFree, Nat.reduceOr, apply_ite (blank _), apply_ite (keeps _ s), ite_self, implies_true, foldl_blank, keeps_next, Option.elim, emit_frame, modChan_frame]
    | (with_reducible refine (foldl_blank ?_ _ _).trans ?_; intro s x)
    | (split <;> try (rename_i h; with_reducible rw [Prod.ext_iff] at h; have h' := h.2; dsimp only at h'; subst h'))
    | dsimp only

theorem execChargeStep_frame (s : State) (n : Nat) (hn : n ||| 0x80800000 = n) :
    keeps n s (execChargeStep s) := by
  refine keeps_mono (m := 0x80800000) ?_ hn
  unfold execChargeStep
  repeat' first
    | with_reducible rfl
    | simp only [mk_80800000, takeFree, Nat.reduceOr, apply_ite (blank _), apply_ite (keeps _ s), ite_self, implies_true, foldl_blank, keeps_next, Option.elim, chargeVout_frame]
    | (with_reducible refine (foldl_blank ?_ _ _).trans ?_; intro s x)
    | (split <;> try (rename_i h; with_reducible rw [Prod.ext_iff] at h; have h' := h.2; dsimp only at h'; subst h'))
    | dsimp only

theorem execChipRstL_frame (a0) (s : State) (n : Nat) (hn : n ||| 0x1BFFFFFFF = n) :
    keeps n s (execChipRstL a0 s) := by
  refine keeps_mono (m := 0x1BFFFFFFF) ?_ hn
  unfold execChipRstL
  repeat' first
    | with_reducible rfl
    | simp only [mk_1BFFFFFFF, takeFree, Nat.reduceOr, apply_ite (blank _), apply_ite (keeps _ s), ite_self, implies_true, foldl_blank, keeps_next, Option.elim, failProbation_frame, holdReset_frame, startRun_frame]
    | (with_reducible refine (foldl_blank ?_ _ _).trans ?_; intro s x)
    | (split <;> try (rename_i h; with_reducible rw [Prod.ext_iff] at h; have h' := h.2; dsimp only at h'; subst h'))
    | dsimp only

theorem execChipRstLLow_frame (s : State) (n : Nat) (hn : n ||| 0x1A40885 = n) :
    keeps n s (execChipRstLLow s) := by
  refine keeps_mono (m := 0x1A40885) ?_ hn
  unfold execChipRstLLow
  repeat' first
    | with_reducible rfl
    | simp only [mk_1A40885, takeFree, Nat.reduceOr, apply_ite (blank _), apply_ite (keeps _ s), ite_self, implies_true, foldl_blank, keeps_next, Option.elim, holdReset_frame]
    | (with_reducible refine (foldl_blank ?_ _ _).trans ?_; intro s x)
    | (split <;> try (rename_i h; with_reducible rw [Prod.ext_iff] at h; have h' := h.2; dsimp only at h'; subst h'))
    | dsimp only

theorem execCivilSet_frame (a0) (a1) (s : State) (n : Nat) (hn : n ||| 0x83204E8E = n) :
    keeps n s (execCivilSet a0 a1 s) := by
  refine keeps_mono (m := 0x83204E8E) ?_ hn
  unfold execCivilSet
  rw [keeps_next]
  refine regWrite_frame _ _ _ _ _ rfl ?_
  intro t
  repeat' first
    | with_reducible rfl
    | simp only [mk_83204E8E, takeFree, Nat.reduceOr, apply_ite (blank _), apply_ite (keeps _ s), ite_self, implies_true, foldl_blank, keeps_next, Option.elim, regWrite_frame, civilSetWrite_frame]
    | (split <;> try (rename_i h; with_reducible rw [Prod.ext_iff] at h; have h' := h.2; dsimp only at h'; subst h'))
    | dsimp only

theorem execClearEraseDone_frame (s : State) (n : Nat) (hn : n ||| 0xA000000 = n) :
    keeps n s (execClearEraseDone s) := by
  refine keeps_mono (m := 0xA000000) ?_ hn
  unfold execClearEraseDone
  repeat' first
    | with_reducible rfl
    | simp only [mk_A000000, takeFree, Nat.reduceOr, apply_ite (blank _), apply_ite (keeps _ s), ite_self, implies_true, foldl_blank, keeps_next, Option.elim, norErase_frame]
    | (with_reducible refine (foldl_blank ?_ _ _).trans ?_; intro s x)
    | (split <;> try (rename_i h; with_reducible rw [Prod.ext_iff] at h; have h' := h.2; dsimp only at h'; subst h'))
    | dsimp only

theorem execClkGlitch_frame (s : State) (n : Nat) (hn : n ||| 0xBFA36CAF = n) :
    keeps n s (execClkGlitch s) := by
  refine keeps_mono (m := 0xBFA36CAF) ?_ hn
  unfold execClkGlitch
  repeat' first
    | with_reducible rfl
    | simp only [mk_BFA36CAF, takeFree, Nat.reduceOr, apply_ite (blank _), apply_ite (keeps _ s), ite_self, implies_true, foldl_blank, keeps_next, Option.elim, secAlarm_frame, failstop_frame]
    | (with_reducible refine (foldl_blank ?_ _ _).trans ?_; intro s x)
    | (split <;> try (rename_i h; with_reducible rw [Prod.ext_iff] at h; have h' := h.2; dsimp only at h'; subst h'))
    | dsimp only

theorem execClone_frame (a0) (a1) (a2) (s : State) (n : Nat) (hn : n ||| 0x9F3FFCAF = n) :
    keeps n s (execClone a0 a1 a2 s) := by
  refine keeps_mono (m := 0x9F3FFCAF) ?_ hn
  unfold execClone
  repeat' first
    | with_reducible rfl
    | simp only [mk_9F3FFCAF, takeFree, Nat.reduceOr, apply_ite (blank _), apply_ite (keeps _ s), ite_self, implies_true, foldl_blank, keeps_next, Option.elim, fetched_frame]
    | (with_reducible refine (foldl_blank ?_ _ _).trans ?_; intro s x)
    | (split <;> try (rename_i h; with_reducible rw [Prod.ext_iff] at h; have h' := h.2; dsimp only at h'; subst h'))
    | dsimp only

theorem execCmDreq_frame (a0) (s : State) (n : Nat) (hn : n ||| 0x83205C8E = n) :
    keeps n s (execCmDreq a0 s) := by
  refine keeps_mono (m := 0x83205C8E) ?_ hn
  unfold execCmDreq
  repeat' first
    | with_reducible rfl
    | simp only [mk_83205C8E, takeFree, Nat.reduceOr, apply_ite (blank _), apply_ite (keeps _ s), ite_self, implies_true, foldl_blank, keeps_next, Option.elim, closeQp_frame, sendRoce_frame]
    | (with_reducible refine (foldl_blank ?_ _ _).trans ?_; intro s x)
    | (split <;> try (rename_i h; with_reducible rw [Prod.ext_iff] at h; have h' := h.2; dsimp only at h'; subst h'))
    | dsimp only

theorem execCmRep_frame (a0) (a1) (a2) (s : State) (n : Nat) (hn : n ||| 0x83205C8E = n) :
    keeps n s (execCmRep a0 a1 a2 s) := by
  refine keeps_mono (m := 0x83205C8E) ?_ hn
  unfold execCmRep
  repeat' first
    | with_reducible rfl
    | simp only [mk_83205C8E, takeFree, Nat.reduceOr, apply_ite (blank _), apply_ite (keeps _ s), ite_self, implies_true, foldl_blank, keeps_next, Option.elim, modQp_frame, sendRoce_frame, modLink_frame, setLink_frame]
    | (with_reducible refine (foldl_blank ?_ _ _).trans ?_; intro s x)
    | (split <;> try (rename_i h; with_reducible rw [Prod.ext_iff] at h; have h' := h.2; dsimp only at h'; subst h'))
    | dsimp only

theorem execCmReq_frame (a0) (a1) (a2) (s : State) (n : Nat) (hn : n ||| 0x183A05C8E = n) :
    keeps n s (execCmReq a0 a1 a2 s) := by
  refine keeps_mono (m := 0x183A05C8E) ?_ hn
  unfold execCmReq
  repeat' first
    | with_reducible rfl
    | simp only [mk_183A05C8E, takeFree, Nat.reduceOr, apply_ite (blank _), apply_ite (keeps _ s), ite_self, implies_true, foldl_blank, keeps_next, Option.elim, busy_frame, record_frame, sendRoceOn_frame, setLink_frame, modLink_frame, sendRoce_frame]
    | (with_reducible refine (foldl_blank ?_ _ _).trans ?_; intro s x)
    | (split <;> try (rename_i h; with_reducible rw [Prod.ext_iff] at h; have h' := h.2; dsimp only at h'; subst h'))
    | dsimp only

theorem execCmRtu_frame (a0) (s : State) (n : Nat) (hn : n ||| 0x800 = n) :
    keeps n s (execCmRtu a0 s) := by
  refine keeps_mono (m := 0x800) ?_ hn
  unfold execCmRtu
  repeat' first
    | with_reducible rfl
    | simp only [mk_800, takeFree, Nat.reduceOr, apply_ite (blank _), apply_ite (keeps _ s), ite_self, implies_true, foldl_blank, keeps_next, Option.elim, modQp_frame]
    | (with_reducible refine (foldl_blank ?_ _ _).trans ?_; intro s x)
    | (split <;> try (rename_i h; with_reducible rw [Prod.ext_iff] at h; have h' := h.2; dsimp only at h'; subst h'))
    | dsimp only

theorem execCnpReceive_frame (a0) (s : State) (n : Nat) (hn : n ||| 0x800 = n) :
    keeps n s (execCnpReceive a0 s) := by
  refine keeps_mono (m := 0x800) ?_ hn
  unfold execCnpReceive
  repeat' first
    | with_reducible rfl
    | simp only [mk_800, takeFree, Nat.reduceOr, apply_ite (blank _), apply_ite (keeps _ s), ite_self, implies_true, foldl_blank, keeps_next, Option.elim, modQp_frame]
    | (with_reducible refine (foldl_blank ?_ _ _).trans ?_; intro s x)
    | (split <;> try (rename_i h; with_reducible rw [Prod.ext_iff] at h; have h' := h.2; dsimp only at h'; subst h'))
    | dsimp only

theorem execCoalescingTimeout_frame (a0) (a1) (s : State) (n : Nat) (hn : n ||| 0x80000480 = n) :
    keeps n s (execCoalescingTimeout a0 a1 s) := by
  refine keeps_mono (m := 0x80000480) ?_ hn
  unfold execCoalescingTimeout
  repeat' first
    | with_reducible rfl
    | simp only [mk_80000480, takeFree, Nat.reduceOr, apply_ite (blank _), apply_ite (keeps _ s), ite_self, implies_true, foldl_blank, keeps_next, Option.elim, raiseVec_frame, modQueue_frame]
    | (with_reducible refine (foldl_blank ?_ _ _).trans ?_; intro s x)
    | (split <;> try (rename_i h; with_reducible rw [Prod.ext_iff] at h; have h' := h.2; dsimp only at h'; subst h'))
    | dsimp only

theorem execCodewordRead_frame (a0) (a1) (a2) (a3) (a4) (a5) (a6) (s : State) (n : Nat) (hn : n ||| 0x1833C5C8E = n) :
    keeps n s (execCodewordRead a0 a1 a2 a3 a4 a5 a6 s) := by
  refine keeps_mono (m := 0x1833C5C8E) ?_ hn
  unfold execCodewordRead
  repeat' first
    | with_reducible rfl
    | simp only [mk_1833C5C8E, takeFree, Nat.reduceOr, apply_ite (blank _), apply_ite (keeps _ s), ite_self, implies_true, foldl_blank, keeps_next, Option.elim, putRead_frame, eraseFree_frame, cwDecoded_frame, cwFailed_frame]
    | (with_reducible refine (foldl_blank ?_ _ _).trans ?_; intro s x)
    | (split <;> try (rename_i h; with_reducible rw [Prod.ext_iff] at h; have h' := h.2; dsimp only at h'; subst h'))
    | dsimp only

theorem execControlPortRequest_frame (a0) (a1) (s : State) (n : Nat) (hn : n ||| 0x83204C8E = n) :
    keeps n s (execControlPortRequest a0 a1 s) := by
  refine keeps_mono (m := 0x83204C8E) ?_ hn
  unfold execControlPortRequest
  split
  · rw [keeps_next, foldl_blank fun t r => requestStatus_frame _ _ _ _ _ _ rfl]
    cases requestTaken (ctlPort s a0) a1 with
    | none => rfl
    | some st =>
      dsimp only [Option.elim]
      split
      · exact releasePort_frame _ _ _ rfl
      · exact setCtl_frame _ _ _ _ rfl
  · rfl

theorem execCreateQueue_frame (a0) (a1) (a2) (s : State) (n : Nat) (hn : n ||| 0x9F3FFCAF = n) :
    keeps n s (execCreateQueue a0 a1 a2 s) := by
  refine keeps_mono (m := 0x9F3FFCAF) ?_ hn
  unfold execCreateQueue
  repeat' first
    | with_reducible rfl
    | simp only [mk_9F3FFCAF, takeFree, Nat.reduceOr, apply_ite (blank _), apply_ite (keeps _ s), ite_self, implies_true, foldl_blank, keeps_next, Option.elim, fetched_frame]
    | (with_reducible refine (foldl_blank ?_ _ _).trans ?_; intro s x)
    | (split <;> try (rename_i h; with_reducible rw [Prod.ext_iff] at h; have h' := h.2; dsimp only at h'; subst h'))
    | dsimp only

theorem execCreateVolume_frame (a0) (a1) (a2) (s : State) (n : Nat) (hn : n ||| 0x9F3FFCAF = n) :
    keeps n s (execCreateVolume a0 a1 a2 s) := by
  refine keeps_mono (m := 0x9F3FFCAF) ?_ hn
  unfold execCreateVolume
  repeat' first
    | with_reducible rfl
    | simp only [mk_9F3FFCAF, takeFree, Nat.reduceOr, apply_ite (blank _), apply_ite (keeps _ s), ite_self, implies_true, foldl_blank, keeps_next, Option.elim, fetched_frame]
    | (with_reducible refine (foldl_blank ?_ _ _).trans ?_; intro s x)
    | (split <;> try (rename_i h; with_reducible rw [Prod.ext_iff] at h; have h' := h.2; dsimp only at h'; subst h'))
    | dsimp only

theorem execCsJobDone_frame (s : State) (n : Nat) (hn : n ||| 0xB3295C8E = n) :
    keeps n s (execCsJobDone s) := by
  refine keeps_mono (m := 0xB3295C8E) ?_ hn
  unfold execCsJobDone
  repeat' first
    | with_reducible rfl
    | simp only [mk_B3295C8E, takeFree, Nat.reduceOr, apply_ite (blank _), apply_ite (keeps _ s), ite_self, implies_true, foldl_blank, keeps_next, Option.elim, spaceWrite_frame, record_frame]
    | (with_reducible refine (foldl_blank ?_ _ _).trans ?_; intro s x)
    | (split <;> try (rename_i h; with_reducible rw [Prod.ext_iff] at h; have h' := h.2; dsimp only at h'; subst h'))
    | dsimp only

theorem execCsLock_frame (a0) (a1) (s : State) (n : Nat) (hn : n ||| 0x83214C8E = n) :
    keeps n s (execCsLock a0 a1 s) := by
  refine keeps_mono (m := 0x83214C8E) ?_ hn
  unfold execCsLock
  rw [keeps_next]
  refine regWrite_frame _ _ _ _ _ rfl ?_
  intro t
  repeat' first
    | with_reducible rfl
    | simp only [mk_83214C8E, takeFree, Nat.reduceOr, apply_ite (blank _), apply_ite (keeps _ s), ite_self, implies_true, foldl_blank, keeps_next, Option.elim, regWrite_frame, csLockWrite_frame]
    | (split <;> try (rename_i h; with_reducible rw [Prod.ext_iff] at h; have h' := h.2; dsimp only at h'; subst h'))
    | dsimp only

theorem execCsLockTimeout_frame (s : State) (n : Nat) (hn : n ||| 0x183214C8E = n) :
    keeps n s (execCsLockTimeout s) := by
  refine keeps_mono (m := 0x183214C8E) ?_ hn
  unfold execCsLockTimeout
  repeat' first
    | with_reducible rfl
    | simp only [mk_183214C8E, takeFree, Nat.reduceOr, apply_ite (blank _), apply_ite (keeps _ s), ite_self, implies_true, foldl_blank, keeps_next, Option.elim, csUnlock_frame]
    | (with_reducible refine (foldl_blank ?_ _ _).trans ?_; intro s x)
    | (split <;> try (rename_i h; with_reducible rw [Prod.ext_iff] at h; have h' := h.2; dsimp only at h'; subst h'))
    | dsimp only

theorem execCsOpen_frame (a0) (a1) (a2) (a3) (s : State) (n : Nat) (hn : n ||| 0x10000 = n) :
    keeps n s (execCsOpen a0 a1 a2 a3 s) := by
  refine keeps_mono (m := 0x10000) ?_ hn
  unfold execCsOpen
  repeat' first
    | with_reducible rfl
    | simp only [mk_10000, takeFree, Nat.reduceOr, apply_ite (blank _), apply_ite (keeps _ s), ite_self, implies_true, foldl_blank, keeps_next, Option.elim, csGo_frame]
    | (with_reducible refine (foldl_blank ?_ _ _).trans ?_; intro s x)
    | (split <;> try (rename_i h; with_reducible rw [Prod.ext_iff] at h; have h' := h.2; dsimp only at h'; subst h'))
    | dsimp only

theorem execCsSeal_frame (a0) (a1) (a2) (a3) (s : State) (n : Nat) (hn : n ||| 0x10000 = n) :
    keeps n s (execCsSeal a0 a1 a2 a3 s) := by
  refine keeps_mono (m := 0x10000) ?_ hn
  unfold execCsSeal
  repeat' first
    | with_reducible rfl
    | simp only [mk_10000, takeFree, Nat.reduceOr, apply_ite (blank _), apply_ite (keeps _ s), ite_self, implies_true, foldl_blank, keeps_next, Option.elim, csGo_frame]
    | (with_reducible refine (foldl_blank ?_ _ _).trans ?_; intro s x)
    | (split <;> try (rename_i h; with_reducible rw [Prod.ext_iff] at h; have h' := h.2; dsimp only at h'; subst h'))
    | dsimp only

theorem execD0Entry_frame (a0) (s : State) (n : Nat) (hn : n ||| 0x83204C8E = n) :
    keeps n s (execD0Entry a0 s) := by
  refine keeps_mono (m := 0x83204C8E) ?_ hn
  unfold execD0Entry
  repeat' first
    | with_reducible rfl
    | simp only [mk_83204C8E, takeFree, Nat.reduceOr, apply_ite (blank _), apply_ite (keeps _ s), ite_self, implies_true, foldl_blank, keeps_next, Option.elim, resumeEp_frame, modEp_frame]
    | (with_reducible refine (foldl_blank ?_ _ _).trans ?_; intro s x)
    | (split <;> try (rename_i h; with_reducible rw [Prod.ext_iff] at h; have h' := h.2; dsimp only at h'; subst h'))
    | dsimp only

theorem execD3hot_frame (a0) (s : State) (n : Nat) (hn : n ||| 0x480 = n) :
    keeps n s (execD3hot a0 s) := by
  refine keeps_mono (m := 0x480) ?_ hn
  unfold execD3hot
  repeat' first
    | with_reducible rfl
    | simp only [mk_480, takeFree, Nat.reduceOr, apply_ite (blank _), apply_ite (keeps _ s), ite_self, implies_true, foldl_blank, keeps_next, Option.elim, setHeld_frame, modEp_frame]
    | (with_reducible refine (foldl_blank ?_ _ _).trans ?_; intro s x)
    | (split <;> try (rename_i h; with_reducible rw [Prod.ext_iff] at h; have h' := h.2; dsimp only at h'; subst h'))
    | dsimp only

theorem execDbAbort_frame (a0) (a1) (a2) (s : State) (n : Nat) (hn : n ||| 0x83226C8E = n) :
    keeps n s (execDbAbort a0 a1 a2 s) := by
  refine keeps_mono (m := 0x83226C8E) ?_ hn
  unfold execDbAbort
  rw [keeps_next]
  refine doorbell_frame _ _ _ _ _ _ rfl ?_
  intro t
  repeat' first
    | with_reducible rfl
    | simp only [mk_83226C8E, takeFree, Nat.reduceOr, apply_ite (blank _), apply_ite (keeps _ s), ite_self, implies_true, foldl_blank, keeps_next, Option.elim, doorbell_frame, doorAbort_frame]
    | (split <;> try (rename_i h; with_reducible rw [Prod.ext_iff] at h; have h' := h.2; dsimp only at h'; subst h'))
    | dsimp only

theorem execDbCqHead_frame (a0) (a1) (a2) (s : State) (n : Nat) (hn : n ||| 0x83204C8E = n) :
    keeps n s (execDbCqHead a0 a1 a2 s) := by
  refine keeps_mono (m := 0x83204C8E) ?_ hn
  unfold execDbCqHead
  rw [keeps_next]
  refine doorbell_frame _ _ _ _ _ _ rfl ?_
  intro t
  repeat' first
    | with_reducible rfl
    | simp only [mk_83204C8E, takeFree, Nat.reduceOr, apply_ite (blank _), apply_ite (keeps _ s), ite_self, implies_true, foldl_blank, keeps_next, Option.elim, doorbell_frame, doorHead_frame]
    | (split <;> try (rename_i h; with_reducible rw [Prod.ext_iff] at h; have h' := h.2; dsimp only at h'; subst h'))
    | dsimp only

theorem execDbReady_frame (a0) (a1) (a2) (s : State) (n : Nat) (hn : n ||| 0x83A04C8E = n) :
    keeps n s (execDbReady a0 a1 a2 s) := by
  refine keeps_mono (m := 0x83A04C8E) ?_ hn
  unfold execDbReady
  rw [keeps_next]
  refine doorbell_frame _ _ _ _ _ _ rfl ?_
  intro t
  repeat' first
    | with_reducible rfl
    | simp only [mk_83A04C8E, takeFree, Nat.reduceOr, apply_ite (blank _), apply_ite (keeps _ s), ite_self, implies_true, foldl_blank, keeps_next, Option.elim, doorbell_frame, doorReady_frame]
    | (split <;> try (rename_i h; with_reducible rw [Prod.ext_iff] at h; have h' := h.2; dsimp only at h'; subst h'))
    | dsimp only

theorem execDbReadyAbort_frame (a0) (a1) (a2) (s : State) (n : Nat) (hn : n ||| 0x83A26E8E = n) :
    keeps n s (execDbReadyAbort a0 a1 a2 s) := by
  refine keeps_mono (m := 0x83A26E8E) ?_ hn
  unfold execDbReadyAbort
  rw [keeps_next]
  refine doorbell_frame _ _ _ _ _ _ rfl ?_
  intro t
  repeat' first
    | with_reducible rfl
    | simp only [mk_83A26E8E, takeFree, Nat.reduceOr, apply_ite (blank _), apply_ite (keeps _ s), ite_self, implies_true, foldl_blank, keeps_next, Option.elim, doorbell_frame, doorReadyAbort_frame]
    | (split <;> try (rename_i h; with_reducible rw [Prod.ext_iff] at h; have h' := h.2; dsimp only at h'; subst h'))
    | dsimp only

theorem execDelaySelect_frame (a0) (s : State) (n : Nat) (hn : n ||| 0x400000 = n) :
    keeps n s (execDelaySelect a0 s) := by
  refine keeps_mono (m := 0x400000) ?_ hn
  unfold execDelaySelect
  repeat' first
    | with_reducible rfl
    | simp only [mk_400000, takeFree, Nat.reduceOr, apply_ite (blank _), apply_ite (keeps _ s), ite_self, implies_true, foldl_blank, keeps_next, Option.elim, delaySelect_frame]
    | (with_reducible refine (foldl_blank ?_ _ _).trans ?_; intro s x)
    | (split <;> try (rename_i h; with_reducible rw [Prod.ext_iff] at h; have h' := h.2; dsimp only at h'; subst h'))
    | dsimp only

theorem execDeleteQueue_frame (a0) (a1) (a2) (s : State) (n : Nat) (hn : n ||| 0x9F3FFCAF = n) :
    keeps n s (execDeleteQueue a0 a1 a2 s) := by
  refine keeps_mono (m := 0x9F3FFCAF) ?_ hn
  unfold execDeleteQueue
  repeat' first
    | with_reducible rfl
    | simp only [mk_9F3FFCAF, takeFree, Nat.reduceOr, apply_ite (blank _), apply_ite (keeps _ s), ite_self, implies_true, foldl_blank, keeps_next, Option.elim, fetched_frame]
    | (with_reducible refine (foldl_blank ?_ _ _).trans ?_; intro s x)
    | (split <;> try (rename_i h; with_reducible rw [Prod.ext_iff] at h; have h' := h.2; dsimp only at h'; subst h'))
    | dsimp only

theorem execDeleteVolume_frame (a0) (a1) (a2) (s : State) (n : Nat) (hn : n ||| 0x9F3FFCAF = n) :
    keeps n s (execDeleteVolume a0 a1 a2 s) := by
  refine keeps_mono (m := 0x9F3FFCAF) ?_ hn
  unfold execDeleteVolume
  repeat' first
    | with_reducible rfl
    | simp only [mk_9F3FFCAF, takeFree, Nat.reduceOr, apply_ite (blank _), apply_ite (keeps _ s), ite_self, implies_true, foldl_blank, keeps_next, Option.elim, fetched_frame]
    | (with_reducible refine (foldl_blank ?_ _ _).trans ?_; intro s x)
    | (split <;> try (rename_i h; with_reducible rw [Prod.ext_iff] at h; have h' := h.2; dsimp only at h'; subst h'))
    | dsimp only

theorem execDeltaGap_frame (s : State) (n : Nat) (hn : n ||| 0x83206C8E = n) :
    keeps n s (execDeltaGap s) := by
  refine keeps_mono (m := 0x83206C8E) ?_ hn
  unfold execDeltaGap
  repeat' first
    | with_reducible rfl
    | simp only [mk_83206C8E, takeFree, Nat.reduceOr, apply_ite (blank _), apply_ite (keeps _ s), ite_self, implies_true, foldl_blank, keeps_next, Option.elim, xhlRetrain_frame, record_frame]
    | (with_reducible refine (foldl_blank ?_ _ _).trans ?_; intro s x)
    | (split <;> try (rename_i h; with_reducible rw [Prod.ext_iff] at h; have h' := h.2; dsimp only at h'; subst h'))
    | dsimp only

theorem execDictJob_frame (a0) (a1) (a2) (a3) (s : State) (n : Nat) (hn : n ||| 0x8320CC8E = n) :
    keeps n s (execDictJob a0 a1 a2 a3 s) := by
  refine keeps_mono (m := 0x8320CC8E) ?_ hn
  unfold execDictJob
  repeat' first
    | with_reducible rfl
    | simp only [mk_8320CC8E, takeFree, Nat.reduceOr, apply_ite (blank _), apply_ite (keeps _ s), ite_self, implies_true, foldl_blank, keeps_next, Option.elim, record_frame]
    | (with_reducible refine (foldl_blank ?_ _ _).trans ?_; intro s x)
    | (split <;> try (rename_i h; with_reducible rw [Prod.ext_iff] at h; have h' := h.2; dsimp only at h'; subst h'))
    | dsimp only

theorem execDieHot_frame (s : State) (n : Nat) (hn : n ||| 0x83A04C8E = n) :
    keeps n s (execDieHot s) := by
  refine keeps_mono (m := 0x83A04C8E) ?_ hn
  unfold execDieHot
  repeat' first
    | with_reducible rfl
    | simp only [mk_83A04C8E, takeFree, Nat.reduceOr, apply_ite (blank _), apply_ite (keeps _ s), ite_self, implies_true, foldl_blank, keeps_next, Option.elim, recordAlert_frame]
    | (with_reducible refine (foldl_blank ?_ _ _).trans ?_; intro s x)
    | (split <;> try (rename_i h; with_reducible rw [Prod.ext_iff] at h; have h' := h.2; dsimp only at h'; subst h'))
    | dsimp only

theorem execDieHotCleared_frame (s : State) (n : Nat) (hn : n ||| 0x800000 = n) :
    keeps n s (execDieHotCleared s) := by
  refine keeps_mono (m := 0x800000) ?_ hn
  unfold execDieHotCleared
  repeat' first
    | with_reducible rfl
    | simp only [mk_800000, takeFree, Nat.reduceOr, apply_ite (blank _), apply_ite (keeps _ s), ite_self, implies_true, foldl_blank, keeps_next, Option.elim, fanDrive_frame]
    | (with_reducible refine (foldl_blank ?_ _ _).trans ?_; intro s x)
    | (split <;> try (rename_i h; with_reducible rw [Prod.ext_iff] at h; have h' := h.2; dsimp only at h'; subst h'))
    | dsimp only

theorem execDieOvertemp_frame (s : State) (n : Nat) (hn : n ||| 0x8F206CAF = n) :
    keeps n s (execDieOvertemp s) := by
  refine keeps_mono (m := 0x8F206CAF) ?_ hn
  unfold execDieOvertemp
  repeat' first
    | with_reducible rfl
    | simp only [mk_8F206CAF, takeFree, Nat.reduceOr, apply_ite (blank _), apply_ite (keeps _ s), ite_self, implies_true, foldl_blank, keeps_next, Option.elim, failstop_frame]
    | (with_reducible refine (foldl_blank ?_ _ _).trans ?_; intro s x)
    | (split <;> try (rename_i h; with_reducible rw [Prod.ext_iff] at h; have h' := h.2; dsimp only at h'; subst h'))
    | dsimp only

theorem execDigestDone_frame (s : State) (n : Nat) (hn : n ||| 0x93224C8E = n) :
    keeps n s (execDigestDone s) := by
  refine keeps_mono (m := 0x93224C8E) ?_ hn
  unfold execDigestDone
  repeat' first
    | with_reducible rfl
    | simp only [mk_93224C8E, takeFree, Nat.reduceOr, apply_ite (blank _), apply_ite (keeps _ s), ite_self, implies_true, foldl_blank, keeps_next, Option.elim, digIdle_frame, endCmd_frame, deliver_frame]
    | (with_reducible refine (foldl_blank ?_ _ _).trans ?_; intro s x)
    | (split <;> try (rename_i h; with_reducible rw [Prod.ext_iff] at h; have h' := h.2; dsimp only at h'; subst h'))
    | dsimp only

theorem execDigestLapse_frame (s : State) (n : Nat) (hn : n ||| 0x20000 = n) :
    keeps n s (execDigestLapse s) := by
  refine keeps_mono (m := 0x20000) ?_ hn
  unfold execDigestLapse
  repeat' first
    | with_reducible rfl
    | simp only [mk_20000, takeFree, Nat.reduceOr, apply_ite (blank _), apply_ite (keeps _ s), ite_self, implies_true, foldl_blank, keeps_next, Option.elim, digIdle_frame]
    | (with_reducible refine (foldl_blank ?_ _ _).trans ?_; intro s x)
    | (split <;> try (rename_i h; with_reducible rw [Prod.ext_iff] at h; have h' := h.2; dsimp only at h'; subst h'))
    | dsimp only

theorem execDigestRelease_frame (a0) (s : State) (n : Nat) (hn : n ||| 0x83224C8E = n) :
    keeps n s (execDigestRelease a0 s) := by
  refine keeps_mono (m := 0x83224C8E) ?_ hn
  unfold execDigestRelease
  rw [keeps_next]
  refine regWrite_frame _ _ _ _ _ rfl ?_
  intro t
  repeat' first
    | with_reducible rfl
    | simp only [mk_83224C8E, takeFree, Nat.reduceOr, apply_ite (blank _), apply_ite (keeps _ s), ite_self, implies_true, foldl_blank, keeps_next, Option.elim, regWrite_frame, digRelease_frame]
    | (split <;> try (rename_i h; with_reducible rw [Prod.ext_iff] at h; have h' := h.2; dsimp only at h'; subst h'))
    | dsimp only

theorem execDigestStart_frame (a0) (a1) (a2) (s : State) (n : Nat) (hn : n ||| 0x83224C8E = n) :
    keeps n s (execDigestStart a0 a1 a2 s) := by
  refine keeps_mono (m := 0x83224C8E) ?_ hn
  unfold execDigestStart
  rw [keeps_next]
  refine regWrite_frame _ _ _ _ _ rfl ?_
  intro t
  repeat' first
    | with_reducible rfl
    | simp only [mk_83224C8E, takeFree, Nat.reduceOr, apply_ite (blank _), apply_ite (keeps _ s), ite_self, implies_true, foldl_blank, keeps_next, Option.elim, regWrite_frame, digStart_frame]
    | (split <;> try (rename_i h; with_reducible rw [Prod.ext_iff] at h; have h' := h.2; dsimp only at h'; subst h'))
    | dsimp only

theorem execDimmTempRead_frame (a0) (a1) (s : State) (n : Nat) (hn : n ||| 0x8F606CAF = n) :
    keeps n s (execDimmTempRead a0 a1 s) := by
  refine keeps_mono (m := 0x8F606CAF) ?_ hn
  unfold execDimmTempRead
  repeat' first
    | with_reducible rfl
    | simp only [mk_8F606CAF, takeFree, Nat.reduceOr, apply_ite (blank _), apply_ite (keeps _ s), ite_self, implies_true, foldl_blank, keeps_next, Option.elim, modChan_frame, recordAlert_frame, failstop_frame]
    | (with_reducible refine (foldl_blank ?_ _ _).trans ?_; intro s x)
    | (split <;> try (rename_i h; with_reducible rw [Prod.ext_iff] at h; have h' := h.2; dsimp only at h'; subst h'))
    | dsimp only

theorem execDiscard_frame (a0) (a1) (a2) (s : State) (n : Nat) (hn : n ||| 0x9F3FFCAF = n) :
    keeps n s (execDiscard a0 a1 a2 s) := by
  refine keeps_mono (m := 0x9F3FFCAF) ?_ hn
  unfold execDiscard
  repeat' first
    | with_reducible rfl
    | simp only [mk_9F3FFCAF, takeFree, Nat.reduceOr, apply_ite (blank _), apply_ite (keeps _ s), ite_self, implies_true, foldl_blank, keeps_next, Option.elim, fetched_frame]
    | (with_reducible refine (foldl_blank ?_ _ _).trans ?_; intro s x)
    | (split <;> try (rename_i h; with_reducible rw [Prod.ext_iff] at h; have h' := h.2; dsimp only at h'; subst h'))
    | dsimp only

theorem execDmlCompletion_frame (a0) (a1) (s : State) (n : Nat) (hn : n ||| 0x833C4C8E = n) :
    keeps n s (execDmlCompletion a0 a1 s) := by
  refine keeps_mono (m := 0x833C4C8E) ?_ hn
  unfold execDmlCompletion
  repeat' first
    | with_reducible rfl
    | simp only [mk_833C4C8E, takeFree, Nat.reduceOr, apply_ite (blank _), apply_ite (keeps _ s), ite_self, implies_true, foldl_blank, keeps_next, Option.elim, record_frame, modPort_frame, dmlRun_frame, ledgerFigures_frame, eraseFree_frame, cplMeaning_frame, noteDieUse_frame]
    | (with_reducible refine (foldl_blank ?_ _ _).trans ?_; intro s x)
    | (split <;> try (rename_i h; with_reducible rw [Prod.ext_iff] at h; have h' := h.2; dsimp only at h'; subst h'))
    | dsimp only

theorem execDmlDetect_frame (a0) (s : State) (n : Nat) (hn : n ||| 0x840000 = n) :
    keeps n s (execDmlDetect a0 s) := by
  refine keeps_mono (m := 0x840000) ?_ hn
  unfold execDmlDetect
  repeat' first
    | with_reducible rfl
    | simp only [mk_840000, takeFree, Nat.reduceOr, apply_ite (blank _), apply_ite (keeps _ s), ite_self, implies_true, foldl_blank, keeps_next, Option.elim, modPort_frame]
    | (with_reducible refine (foldl_blank ?_ _ _).trans ?_; intro s x)
    | (split <;> try (rename_i h; with_reducible rw [Prod.ext_iff] at h; have h' := h.2; dsimp only at h'; subst h'))
    | dsimp only

theorem execDmlDownRetry_frame (a0) (s : State) (n : Nat) (hn : n ||| 0x40000 = n) :
    keeps n s (execDmlDownRetry a0 s) := by
  refine keeps_mono (m := 0x40000) ?_ hn
  unfold execDmlDownRetry
  repeat' first
    | with_reducible rfl
    | simp only [mk_40000, takeFree, Nat.reduceOr, apply_ite (blank _), apply_ite (keeps _ s), ite_self, implies_true, foldl_blank, keeps_next, Option.elim, modPort_frame]
    | (with_reducible refine (foldl_blank ?_ _ _).trans ?_; intro s x)
    | (split <;> try (rename_i h; with_reducible rw [Prod.ext_iff] at h; have h' := h.2; dsimp only at h'; subst h'))
    | dsimp only

theorem execDmlTraining_frame (a0) (a1) (s : State) (n : Nat) (hn : n ||| 0x183244C8E = n) :
    keeps n s (execDmlTraining a0 a1 s) := by
  refine keeps_mono (m := 0x183244C8E) ?_ hn
  unfold execDmlTraining
  repeat' first
    | with_reducible rfl
    | simp only [mk_183244C8E, takeFree, Nat.reduceOr, apply_ite (blank _), apply_ite (keeps _ s), ite_self, implies_true, foldl_blank, keeps_next, Option.elim, modPort_frame, laneMismatch_frame, dmlBare_frame]
    | (with_reducible refine (foldl_blank ?_ _ _).trans ?_; intro s x)
    | (split <;> try (rename_i h; with_reducible rw [Prod.ext_iff] at h; have h' := h.2; dsimp only at h'; subst h'))
    | dsimp only

theorem execDmlFlitReceive_frame (a0) (a1) (s : State) (n : Nat) (hn : n ||| 0x183244C8E = n) :
    keeps n s (execDmlFlitReceive a0 a1 s) := by
  refine keeps_mono (m := 0x183244C8E) ?_ hn
  unfold execDmlFlitReceive
  repeat' first
    | with_reducible rfl
    | simp only [mk_183244C8E, takeFree, Nat.reduceOr, apply_ite (blank _), apply_ite (keeps _ s), ite_self, implies_true, foldl_blank, keeps_next, Option.elim, modPort_frame, enterRetrain_frame, takeFlit_frame, discardFlit_frame]
    | (with_reducible refine (foldl_blank ?_ _ _).trans ?_; intro s x)
    | (split <;> try (rename_i h; with_reducible rw [Prod.ext_iff] at h; have h' := h.2; dsimp only at h'; subst h'))
    | dsimp only

theorem execDmlIdent_frame (a0) (a1) (s : State) (n : Nat) (hn : n ||| 0x1BFBFFCBF = n) :
    keeps n s (execDmlIdent a0 a1 s) := by
  refine keeps_mono (m := 0x1BFBFFCBF) ?_ hn
  unfold execDmlIdent
  repeat' first
    | with_reducible rfl
    | simp only [mk_1BFBFFCBF, takeFree, Nat.reduceOr, apply_ite (blank _), apply_ite (keeps _ s), ite_self, implies_true, foldl_blank, keeps_next, Option.elim, record_frame, modPort_frame, enterActive_frame, fenceReport_frame, noteMedia_frame, reserveShare_frame, moduleArrives_frame]
    | (with_reducible refine (foldl_blank ?_ _ _).trans ?_; intro s x)
    | (split <;> try (rename_i h; with_reducible rw [Prod.ext_iff] at h; have h' := h.2; dsimp only at h'; subst h'))
    | dsimp only

theorem execDmlNak_frame (a0) (a1) (s : State) (n : Nat) (hn : n ||| 0x83244C8E = n) :
    keeps n s (execDmlNak a0 a1 s) := by
  refine keeps_mono (m := 0x83244C8E) ?_ hn
  unfold execDmlNak
  repeat' first
    | with_reducible rfl
    | simp only [mk_83244C8E, takeFree, Nat.reduceOr, apply_ite (blank _), apply_ite (keeps _ s), ite_self, implies_true, foldl_blank, keeps_next, Option.elim, replayPort_frame, modPort_frame]
    | (with_reducible refine (foldl_blank ?_ _ _).trans ?_; intro s x)
    | (split <;> try (rename_i h; with_reducible rw [Prod.ext_iff] at h; have h' := h.2; dsimp only at h'; subst h'))
    | dsimp only

theorem execDmlReplayTimeout_frame (a0) (s : State) (n : Nat) (hn : n ||| 0x83244C8E = n) :
    keeps n s (execDmlReplayTimeout a0 s) := by
  refine keeps_mono (m := 0x83244C8E) ?_ hn
  unfold execDmlReplayTimeout
  repeat' first
    | with_reducible rfl
    | simp only [mk_83244C8E, takeFree, Nat.reduceOr, apply_ite (blank _), apply_ite (keeps _ s), ite_self, implies_true, foldl_blank, keeps_next, Option.elim, replayPort_frame]
    | (with_reducible refine (foldl_blank ?_ _ _).trans ?_; intro s x)
    | (split <;> try (rename_i h; with_reducible rw [Prod.ext_iff] at h; have h' := h.2; dsimp only at h'; subst h'))
    | dsimp only

theorem execDmlRetrainComplete_frame (a0) (s : State) (n : Nat) (hn : n ||| 0x183244C8E = n) :
    keeps n s (execDmlRetrainComplete a0 s) := by
  refine keeps_mono (m := 0x183244C8E) ?_ hn
  unfold execDmlRetrainComplete
  repeat' first
    | with_reducible rfl
    | simp only [mk_183244C8E, takeFree, Nat.reduceOr, apply_ite (blank _), apply_ite (keeps _ s), ite_self, implies_true, foldl_blank, keeps_next, Option.elim, laneMismatch_frame, enterActive_frame, dmlRun_frame, emit_frame]
    | (with_reducible refine (foldl_blank ?_ _ _).trans ?_; intro s x)
    | (split <;> try (rename_i h; with_reducible rw [Prod.ext_iff] at h; have h' := h.2; dsimp only at h'; subst h'))
    | dsimp only

theorem execDmlRetrainTimeout_frame (a0) (s : State) (n : Nat) (hn : n ||| 0x833C4C8E = n) :
    keeps n s (execDmlRetrainTimeout a0 s) := by
  refine keeps_mono (m := 0x833C4C8E) ?_ hn
  unfold execDmlRetrainTimeout
  repeat' first
    | with_reducible rfl
    | simp only [mk_833C4C8E, takeFree, Nat.reduceOr, apply_ite (blank _), apply_ite (keeps _ s), ite_self, implies_true, foldl_blank, keeps_next, Option.elim, portDown_frame, modPort_frame]
    | (with_reducible refine (foldl_blank ?_ _ _).trans ?_; intro s x)
    | (split <;> try (rename_i h; with_reducible rw [Prod.ext_iff] at h; have h' := h.2; dsimp only at h'; subst h'))
    | dsimp only

theorem execDmlTrainTimeout_frame (a0) (s : State) (n : Nat) (hn : n ||| 0x833C4C8E = n) :
    keeps n s (execDmlTrainTimeout a0 s) := by
  refine keeps_mono (m := 0x833C4C8E) ?_ hn
  unfold execDmlTrainTimeout
  repeat' first
    | with_reducible rfl
    | simp only [mk_833C4C8E, takeFree, Nat.reduceOr, apply_ite (blank _), apply_ite (keeps _ s), ite_self, implies_true, foldl_blank, keeps_next, Option.elim, portDown_frame]
    | (with_reducible refine (foldl_blank ?_ _ _).trans ?_; intro s x)
    | (split <;> try (rename_i h; with_reducible rw [Prod.ext_iff] at h; have h' := h.2; dsimp only at h'; subst h'))
    | dsimp only

theorem execDozeEntry_frame (s : State) (n : Nat) (hn : n ||| 0x2 = n) :
    keeps n s (execDozeEntry s) := by
  refine keeps_mono (m := 0x2) ?_ hn
  unfold execDozeEntry
  repeat' first
    | with_reducible rfl
    | simp only [mk_2, takeFree, Nat.reduceOr, apply_ite (blank _), apply_ite (keeps _ s), ite_self, implies_true, foldl_blank, keeps_next, Option.elim]
    | (with_reducible refine (foldl_blank ?_ _ _).trans ?_; intro s x)
    | (split <;> try (rename_i h; with_reducible rw [Prod.ext_iff] at h; have h' := h.2; dsimp only at h'; subst h'))
    | dsimp only

theorem execDqsDriftCheck_frame (a0) (a1) (a2) (s : State) (n : Nat) (hn : n ||| 0x400000 = n) :
    keeps n s (execDqsDriftCheck a0 a1 a2 s) := by
  refine keeps_mono (m := 0x400000) ?_ hn
  unfold execDqsDriftCheck
  repeat' first
    | with_reducible rfl
    | simp only [mk_400000, takeFree, Nat.reduceOr, apply_ite (blank _), apply_ite (keeps _ s), ite_self, implies_true, foldl_blank, keeps_next, Option.elim, modChan_frame]
    | (with_reducible refine (foldl_blank ?_ _ _).trans ?_; intro s x)
    | (split <;> try (rename_i h; with_reducible rw [Prod.ext_iff] at h; have h' := h.2; dsimp only at h'; subst h'))
    | dsimp only

theorem execDramCe_frame (a0) (a1) (a2) (s : State) (n : Nat) (hn : n ||| 0x8F62ECAF = n) :
    keeps n s (execDramCe a0 a1 a2 s) := by
  refine keeps_mono (m := 0x8F62ECAF) ?_ hn
  unfold execDramCe
  repeat' first
    | with_reducible rfl
    | simp only [mk_8F62ECAF, takeFree, Nat.reduceOr, apply_ite (blank _), apply_ite (keeps _ s), ite_self, implies_true, foldl_blank, keeps_next, Option.elim, dramRead_frame]
    | (with_reducible refine (foldl_blank ?_ _ _).trans ?_; intro s x)
    | (split <;> try (rename_i h; with_reducible rw [Prod.ext_iff] at h; have h' := h.2; dsimp only at h'; subst h'))
    | dsimp only

theorem execDramRefresh_frame (a0) (a1) (a2) (s : State) (n : Nat) (hn : n ||| 0x80400000 = n) :
    keeps n s (execDramRefresh a0 a1 a2 s) := by
  refine keeps_mono (m := 0x80400000) ?_ hn
  unfold execDramRefresh
  repeat' first
    | with_reducible rfl
    | simp only [mk_80400000, takeFree, Nat.reduceOr, apply_ite (blank _), apply_ite (keeps _ s), ite_self, implies_true, foldl_blank, keeps_next, Option.elim, modChan_frame, refreshSets_frame, emit_frame, closeRow_frame]
    | (with_reducible refine (foldl_blank ?_ _ _).trans ?_; intro s x)
    | (split <;> try (rename_i h; with_reducible rw [Prod.ext_iff] at h; have h' := h.2; dsimp only at h'; subst h'))
    | dsimp only

theorem execDramRetrain_frame (a0) (a1) (s : State) (n : Nat) (hn : n ||| 0x83604C8E = n) :
    keeps n s (execDramRetrain a0 a1 s) := by
  refine keeps_mono (m := 0x83604C8E) ?_ hn
  unfold execDramRetrain
  repeat' first
    | with_reducible rfl
    | simp only [mk_83604C8E, takeFree, Nat.reduceOr, apply_ite (blank _), apply_ite (keeps _ s), ite_self, implies_true, foldl_blank, keeps_next, Option.elim, modChan_frame, dramServe_frame, record_frame, emit_frame, refreshSets_frame]
    | (with_reducible refine (foldl_blank ?_ _ _).trans ?_; intro s x)
    | (split <;> try (rename_i h; with_reducible rw [Prod.ext_iff] at h; have h' := h.2; dsimp only at h'; subst h'))
    | dsimp only

theorem execDramUe_frame (a0) (a1) (s : State) (n : Nat) (hn : n ||| 0x8F62ECAF = n) :
    keeps n s (execDramUe a0 a1 s) := by
  refine keeps_mono (m := 0x8F62ECAF) ?_ hn
  unfold execDramUe
  repeat' first
    | with_reducible rfl
    | simp only [mk_8F62ECAF, takeFree, Nat.reduceOr, apply_ite (blank _), apply_ite (keeps _ s), ite_self, implies_true, foldl_blank, keeps_next, Option.elim, dramRead_frame]
    | (with_reducible refine (foldl_blank ?_ _ _).trans ?_; intro s x)
    | (split <;> try (rename_i h; with_reducible rw [Prod.ext_iff] at h; have h' := h.2; dsimp only at h'; subst h'))
    | dsimp only

theorem execDrbgFail_frame (s : State) (n : Nat) (hn : n ||| 0xBFA36CAF = n) :
    keeps n s (execDrbgFail s) := by
  refine keeps_mono (m := 0xBFA36CAF) ?_ hn
  unfold execDrbgFail
  repeat' first
    | with_reducible rfl
    | simp only [mk_BFA36CAF, takeFree, Nat.reduceOr, apply_ite (blank _), apply_ite (keeps _ s), ite_self, implies_true, foldl_blank, keeps_next, Option.elim, drbgFailure_frame]
    | (with_reducible refine (foldl_blank ?_ _ _).trans ?_; intro s x)
    | (split <;> try (rename_i h; with_reducible rw [Prod.ext_iff] at h; have h' := h.2; dsimp only at h'; subst h'))
    | dsimp only

theorem execDrbgReseed_frame (s : State) (n : Nat) (hn : n ||| 0x10000 = n) :
    keeps n s (execDrbgReseed s) := by
  refine keeps_mono (m := 0x10000) ?_ hn
  unfold execDrbgReseed
  repeat' first
    | with_reducible rfl
    | simp only [mk_10000, takeFree, Nat.reduceOr, apply_ite (blank _), apply_ite (keeps _ s), ite_self, implies_true, foldl_blank, keeps_next, Option.elim]
    | (with_reducible refine (foldl_blank ?_ _ _).trans ?_; intro s x)
    | (split <;> try (rename_i h; with_reducible rw [Prod.ext_iff] at h; have h' := h.2; dsimp only at h'; subst h'))
    | dsimp only

theorem execDrbgRetry_frame (a0) (s : State) (n : Nat) (hn : n ||| 0xBFAB7CAF = n) :
    keeps n s (execDrbgRetry a0 s) := by
  refine keeps_mono (m := 0xBFAB7CAF) ?_ hn
  unfold execDrbgRetry
  repeat' first
    | with_reducible rfl
    | simp only [mk_BFAB7CAF, takeFree, Nat.reduceOr, apply_ite (blank _), apply_ite (keeps _ s), ite_self, implies_true, foldl_blank, keeps_next, Option.elim, record_frame, generateNow_frame, drbgFailure_frame]
    | (with_reducible refine (foldl_blank ?_ _ _).trans ?_; intro s x)
    | (split <;> try (rename_i h; with_reducible rw [Prod.ext_iff] at h; have h' := h.2; dsimp only at h'; subst h'))
    | dsimp only

theorem execDrowseEntry_frame (s : State) (n : Nat) (hn : n ||| 0x2 = n) :
    keeps n s (execDrowseEntry s) := by
  refine keeps_mono (m := 0x2) ?_ hn
  unfold execDrowseEntry
  repeat' first
    | with_reducible rfl
    | simp only [mk_2, takeFree, Nat.reduceOr, apply_ite (blank _), apply_ite (keeps _ s), ite_self, implies_true, foldl_blank, keeps_next, Option.elim]
    | (with_reducible refine (foldl_blank ?_ _ _).trans ?_; intro s x)
    | (split <;> try (rename_i h; with_reducible rw [Prod.ext_iff] at h; have h' := h.2; dsimp only at h'; subst h'))
    | dsimp only

theorem execEnterMaint_frame (a0) (s : State) (n : Nat) (hn : n ||| 0x83204C8F = n) :
    keeps n s (execEnterMaint a0 s) := by
  refine keeps_mono (m := 0x83204C8F) ?_ hn
  unfold execEnterMaint
  repeat' first
    | with_reducible rfl
    | simp only [mk_83204C8F, takeFree, Nat.reduceOr, apply_ite (blank _), apply_ite (keeps _ s), ite_self, implies_true, foldl_blank, keeps_next, Option.elim, enterMaint_frame]
    | (with_reducible refine (foldl_blank ?_ _ _).trans ?_; intro s x)
    | (split <;> try (rename_i h; with_reducible rw [Prod.ext_iff] at h; have h' := h.2; dsimp only at h'; subst h'))
    | dsimp only

theorem execErrorReport_frame (a0) (a1) (s : State) (n : Nat) (hn : n ||| 0x18F20ECAF = n) :
    keeps n s (execErrorReport a0 a1 s) := by
  refine keeps_mono (m := 0x18F20ECAF) ?_ hn
  unfold execErrorReport
  repeat' first
    | with_reducible rfl
    | simp only [mk_18F20ECAF, takeFree, Nat.reduceOr, apply_ite (blank _), apply_ite (keeps _ s), ite_self, implies_true, foldl_blank, keeps_next, Option.elim, aerCorrectable_frame, correctedEvent_frame, aerUncorrectable_frame, moveAgents_frame, contain_frame, record_frame, externalError_frame, failstop_frame]
    | (with_reducible refine (foldl_blank ?_ _ _).trans ?_; intro s x)
    | (split <;> try (rename_i h; with_reducible rw [Prod.ext_iff] at h; have h' := h.2; dsimp only at h'; subst h'))
    | dsimp only

theorem execExitMaint_frame (s : State) (n : Nat) (hn : n ||| 0x200001 = n) :
    keeps n s (execExitMaint s) := by
  refine keeps_mono (m := 0x200001) ?_ hn
  unfold execExitMaint
  repeat' first
    | with_reducible rfl
    | simp only [mk_200001, takeFree, Nat.reduceOr, apply_ite (blank _), apply_ite (keeps _ s), ite_self, implies_true, foldl_blank, keeps_next, Option.elim, exitMaint_frame]
    | (with_reducible refine (foldl_blank ?_ _ _).trans ?_; intro s x)
    | (split <;> try (rename_i h; with_reducible rw [Prod.ext_iff] at h; have h' := h.2; dsimp only at h'; subst h'))
    | dsimp only

theorem execFail_frame (a0) (s : State) (n : Nat) (hn : n ||| 0x83304C8E = n) :
    keeps n s (execFail a0 s) := by
  refine keeps_mono (m := 0x83304C8E) ?_ hn
  unfold execFail
  repeat' first
    | with_reducible rfl
    | simp only [mk_83304C8E, takeFree, Nat.reduceOr, apply_ite (blank _), apply_ite (keeps _ s), ite_self, implies_true, foldl_blank, keeps_next, Option.elim, failCmd_frame]
    | (with_reducible refine (foldl_blank ?_ _ _).trans ?_; intro s x)
    | (split <;> try (rename_i h; with_reducible rw [Prod.ext_iff] at h; have h' := h.2; dsimp only at h'; subst h'))
    | dsimp only

theorem execFailstop_frame (a0) (a1) (s : State) (n : Nat) (hn : n ||| 0x8F206CAF = n) :
    keeps n s (execFailstop a0 a1 s) := by
  refine keeps_mono (m := 0x8F206CAF) ?_ hn
  unfold execFailstop
  repeat' first
    | with_reducible rfl
    | simp only [mk_8F206CAF, takeFree, Nat.reduceOr, apply_ite (blank _), apply_ite (keeps _ s), ite_self, implies_true, foldl_blank, keeps_next, Option.elim, failstop_frame]
    | (with_reducible refine (foldl_blank ?_ _ _).trans ?_; intro s x)
    | (split <;> try (rename_i h; with_reducible rw [Prod.ext_iff] at h; have h' := h.2; dsimp only at h'; subst h'))
    | dsimp only

theorem execFanFault_frame (a0) (s : State) (n : Nat) (hn : n ||| 0x83A04C8E = n) :
    keeps n s (execFanFault a0 s) := by
  refine keeps_mono (m := 0x83A04C8E) ?_ hn
  unfold execFanFault
  repeat' first
    | with_reducible rfl
    | simp only [mk_83A04C8E, takeFree, Nat.reduceOr, apply_ite (blank _), apply_ite (keeps _ s), ite_self, implies_true, foldl_blank, keeps_next, Option.elim, recordAlert_frame]
    | (with_reducible refine (foldl_blank ?_ _ _).trans ?_; intro s x)
    | (split <;> try (rename_i h; with_reducible rw [Prod.ext_iff] at h; have h' := h.2; dsimp only at h'; subst h'))
    | dsimp only

theorem execFanTachWindow_frame (a0) (a1) (s : State) (n : Nat) (hn : n ||| 0x800000 = n) :
    keeps n s (execFanTachWindow a0 a1 s) := by
  refine keeps_mono (m := 0x800000) ?_ hn
  unfold execFanTachWindow
  repeat' first
    | with_reducible rfl
    | simp only [mk_800000, takeFree, Nat.reduceOr, apply_ite (blank _), apply_ite (keeps _ s), ite_self, implies_true, foldl_blank, keeps_next, Option.elim]
    | (with_reducible refine (foldl_blank ?_ _ _).trans ?_; intro s x)
    | (split <;> try (rename_i h; with_reducible rw [Prod.ext_iff] at h; have h' := h.2; dsimp only at h'; subst h'))
    | dsimp only

theorem execFeedClassification_frame (a0) (a1) (a2) (a3) (s : State) (n : Nat) (hn : n ||| 0x83204C8E = n) :
    keeps n s (execFeedClassification a0 a1 a2 a3 s) := by
  refine keeps_mono (m := 0x83204C8E) ?_ hn
  unfold execFeedClassification
  repeat' first
    | with_reducible rfl
    | simp only [mk_83204C8E, takeFree, Nat.reduceOr, apply_ite (blank _), apply_ite (keeps _ s), ite_self, implies_true, foldl_blank, keeps_next, Option.elim, record_frame, mainsAfter_frame]
    | (with_reducible refine (foldl_blank ?_ _ _).trans ?_; intro s x)
    | (split <;> try (rename_i h; with_reducible rw [Prod.ext_iff] at h; have h' := h.2; dsimp only at h'; subst h'))
    | dsimp only

theorem execFenceResult_frame (s : State) (n : Nat) (hn : n ||| 0x8F206CAF = n) :
    keeps n s (execFenceResult s) := by
  refine keeps_mono (m := 0x8F206CAF) ?_ hn
  unfold execFenceResult
  repeat' first
    | with_reducible rfl
    | simp only [mk_8F206CAF, takeFree, Nat.reduceOr, apply_ite (blank _), apply_ite (keeps _ s), ite_self, implies_true, foldl_blank, keeps_next, Option.elim, record_frame, protectHeld_frame, failstop_frame, recordAlert_frame, retryHeld_frame, serveNone_frame]
    | (with_reducible refine (foldl_blank ?_ _ _).trans ?_; intro s x)
    | (split <;> try (rename_i h; with_reducible rw [Prod.ext_iff] at h; have h' := h.2; dsimp only at h'; subst h'))
    | dsimp only

theorem execFenceRetry_frame (s : State) (n : Nat) (hn : n ||| 0x80240000 = n) :
    keeps n s (execFenceRetry s) := by
  refine keeps_mono (m := 0x80240000) ?_ hn
  unfold execFenceRetry
  repeat' first
    | with_reducible rfl
    | simp only [mk_80240000, takeFree, Nat.reduceOr, apply_ite (blank _), apply_ite (keeps _ s), ite_self, implies_true, foldl_blank, keeps_next, Option.elim, sendFences_frame]
    | (with_reducible refine (foldl_blank ?_ _ _).trans ?_; intro s x)
    | (split <;> try (rename_i h; with_reducible rw [Prod.ext_iff] at h; have h' := h.2; dsimp only at h'; subst h'))
    | dsimp only

theorem execFencedCommandStart_frame (a0) (a1) (a2) (a3) (s : State) (n : Nat) (hn : n ||| 0x9F3FFCAF = n) :
    keeps n s (execFencedCommandStart a0 a1 a2 a3 s) := by
  refine keeps_mono (m := 0x9F3FFCAF) ?_ hn
  unfold execFencedCommandStart
  repeat' first
    | with_reducible rfl
    | simp only [mk_9F3FFCAF, takeFree, Nat.reduceOr, apply_ite (blank _), apply_ite (keeps _ s), ite_self, implies_true, foldl_blank, keeps_next, Option.elim, startCmd_frame]
    | (with_reducible refine (foldl_blank ?_ _ _).trans ?_; intro s x)
    | (split <;> try (rename_i h; with_reducible rw [Prod.ext_iff] at h; have h' := h.2; dsimp only at h'; subst h'))
    | dsimp only

theorem execFingerprint_frame (a0) (a1) (s : State) (n : Nat) (hn : n ||| 0x2000 = n) :
    keeps n s (execFingerprint a0 a1 s) := by
  refine keeps_mono (m := 0x2000) ?_ hn
  unfold execFingerprint
  repeat' first
    | with_reducible rfl
    | simp only [mk_2000, takeFree, Nat.reduceOr, apply_ite (blank _), apply_ite (keeps _ s), ite_self, implies_true, foldl_blank, keeps_next, Option.elim, modJob_frame]
    | (with_reducible refine (foldl_blank ?_ _ _).trans ?_; intro s x)
    | (split <;> try (rename_i h; with_reducible rw [Prod.ext_iff] at h; have h' := h.2; dsimp only at h'; subst h'))
    | dsimp only

theorem execFixity_frame (a0) (a1) (a2) (a3) (s : State) (n : Nat) (hn : n ||| 0x9F3FFCAF = n) :
    keeps n s (execFixity a0 a1 a2 a3 s) := by
  refine keeps_mono (m := 0x9F3FFCAF) ?_ hn
  unfold execFixity
  repeat' first
    | with_reducible rfl
    | simp only [mk_9F3FFCAF, takeFree, Nat.reduceOr, apply_ite (blank _), apply_ite (keeps _ s), ite_self, implies_true, foldl_blank, keeps_next, Option.elim, fetched_frame]
    | (with_reducible refine (foldl_blank ?_ _ _).trans ?_; intro s x)
    | (split <;> try (rename_i h; with_reducible rw [Prod.ext_iff] at h; have h' := h.2; dsimp only at h'; subst h'))
    | dsimp only

theorem execFlush_frame (a0) (a1) (a2) (s : State) (n : Nat) (hn : n ||| 0x9F3FFCAF = n) :
    keeps n s (execFlush a0 a1 a2 s) := by
  refine keeps_mono (m := 0x9F3FFCAF) ?_ hn
  unfold execFlush
  repeat' first
    | with_reducible rfl
    | simp only [mk_9F3FFCAF, takeFree, Nat.reduceOr, apply_ite (blank _), apply_ite (keeps _ s), ite_self, implies_true, foldl_blank, keeps_next, Option.elim, fetched_frame]
    | (with_reducible refine (foldl_blank ?_ _ _).trans ?_; intro s x)
    | (split <;> try (rename_i h; with_reducible rw [Prod.ext_iff] at h; have h' := h.2; dsimp only at h'; subst h'))
    | dsimp only

theorem execFlushDone_frame (s : State) (n : Nat) (hn : n ||| 0x8BBC6C8F = n) :
    keeps n s (execFlushDone s) := by
  refine keeps_mono (m := 0x8BBC6C8F) ?_ hn
  unfold execFlushDone
  repeat' first
    | with_reducible rfl
    | simp only [mk_8BBC6C8F, takeFree, Nat.reduceOr, apply_ite (blank _), apply_ite (keeps _ s), ite_self, implies_true, foldl_blank, keeps_next, Option.elim, endFlush_frame, maintAdmit_frame, rebudget_frame, railsOff_frame]
    | (with_reducible refine (foldl_blank ?_ _ _).trans ?_; intro s x)
    | (split <;> try (rename_i h; with_reducible rw [Prod.ext_iff] at h; have h' := h.2; dsimp only at h'; subst h'))
    | dsimp only

theorem execFlushMessage_frame (a0) (a1) (s : State) (n : Nat) (hn : n ||| 0x83206C8E = n) :
    keeps n s (execFlushMessage a0 a1 s) := by
  refine keeps_mono (m := 0x83206C8E) ?_ hn
  unfold execFlushMessage
  repeat' first
    | with_reducible rfl
    | simp only [mk_83206C8E, takeFree, Nat.reduceOr, apply_ite (blank _), apply_ite (keeps _ s), ite_self, implies_true, foldl_blank, keeps_next, Option.elim, releaseCommitted_frame]
    | (with_reducible refine (foldl_blank ?_ _ _).trans ?_; intro s x)
    | (split <;> try (rename_i h; with_reducible rw [Prod.ext_iff] at h; have h' := h.2; dsimp only at h'; subst h'))
    | dsimp only

theorem execFrameReceive_frame (a0) (s : State) (n : Nat) (hn : n ||| 0x183A05C8E = n) :
    keeps n s (execFrameReceive a0 s) := by
  refine keeps_mono (m := 0x183A05C8E) ?_ hn
  unfold execFrameReceive
  repeat' first
    | with_reducible rfl
    | simp only [mk_183A05C8E, takeFree, Nat.reduceOr, apply_ite (blank _), apply_ite (keeps _ s), ite_self, implies_true, foldl_blank, keeps_next, Option.elim, answerFrame_frame]
    | exact bufferFrame_frame _ _ _ rfl _ (by assumption)
    | split
    | dsimp only

theorem execFwConfirmed_frame (s : State) (n : Nat) (hn : n ||| 0x18F304CAF = n) :
    keeps n s (execFwConfirmed s) := by
  refine keeps_mono (m := 0x18F304CAF) ?_ hn
  unfold execFwConfirmed
  repeat' first
    | with_reducible rfl
    | simp only [mk_18F304CAF, takeFree, Nat.reduceOr, apply_ite (blank _), apply_ite (keeps _ s), ite_self, implies_true, foldl_blank, keeps_next, Option.elim, mirrorCfg_frame, writeBoot_frame, maintAdmit_frame, endActivity_frame, record_frame]
    | (with_reducible refine (foldl_blank ?_ _ _).trans ?_; intro s x)
    | (split <;> try (rename_i h; with_reducible rw [Prod.ext_iff] at h; have h' := h.2; dsimp only at h'; subst h'))
    | dsimp only

theorem execFwFallback_frame (a0) (s : State) (n : Nat) (hn : n ||| 0x1BFFFFFFF = n) :
    keeps n s (execFwFallback a0 s) := by
  refine keeps_mono (m := 0x1BFFFFFFF) ?_ hn
  unfold execFwFallback
  repeat' first
    | with_reducible rfl
    | simp only [mk_1BFFFFFFF, takeFree, Nat.reduceOr, apply_ite (blank _), apply_ite (keeps _ s), ite_self, implies_true, foldl_blank, keeps_next, Option.elim, updateReset_frame, failProbation_frame]
    | (with_reducible refine (foldl_blank ?_ _ _).trans ?_; intro s x)
    | (split <;> try (rename_i h; with_reducible rw [Prod.ext_iff] at h; have h' := h.2; dsimp only at h'; subst h'))
    | dsimp only

theorem execFwdCmd_frame (a0) (a1) (a2) (a3) (a4) (a5) (a6) (s : State) (n : Nat) (hn : n ||| 0x9FBFFCAF = n) :
    keeps n s (execFwdCmd a0 a1 a2 a3 a4 a5 a6 s) := by
  refine keeps_mono (m := 0x9FBFFCAF) ?_ hn
  unfold execFwdCmd
  repeat' first
    | with_reducible rfl
    | simp only [mk_9FBFFCAF, takeFree, Nat.reduceOr, apply_ite (blank _), apply_ite (keeps _ s), ite_self, implies_true, foldl_blank, keeps_next, Option.elim, settleRetains_frame, dropWrite_frame, leaveDigest_frame, staleRemote_frame, ownerRun_frame, busy_frame]
    | (with_reducible refine (foldl_blank ?_ _ _).trans ?_; intro s x)
    | (split <;> try (rename_i h; with_reducible rw [Prod.ext_iff] at h; have h' := h.2; dsimp only at h'; subst h'))
    | dsimp only

theorem execFwdCpl_frame (a0) (a1) (a2) (a3) (a4) (a5) (s : State) (n : Nat) (hn : n ||| 0x83206C8E = n) :
    keeps n s (execFwdCpl a0 a1 a2 a3 a4 a5 s) := by
  refine keeps_mono (m := 0x83206C8E) ?_ hn
  unfold execFwdCpl
  repeat' first
    | with_reducible rfl
    | simp only [mk_83206C8E, takeFree, Nat.reduceOr, apply_ite (blank _), apply_ite (keeps _ s), ite_self, implies_true, foldl_blank, keeps_next, Option.elim, finishWith_frame, dropFilling_frame, staleItem_frame]
    | (with_reducible refine (foldl_blank ?_ _ _).trans ?_; intro s x)
    | (split <;> try (rename_i h; with_reducible rw [Prod.ext_iff] at h; have h' := h.2; dsimp only at h'; subst h'))
    | dsimp only

theorem execFwdData_frame (a0) (a1) (a2) (a3) (a4) (a5) (s : State) (n : Nat) (hn : n ||| 0x9FBFFCAF = n) :
    keeps n s (execFwdData a0 a1 a2 a3 a4 a5 s) := by
  refine keeps_mono (m := 0x9FBFFCAF) ?_ hn
  unfold execFwdData
  repeat' first
    | with_reducible rfl
    | simp only [mk_9FBFFCAF, takeFree, Nat.reduceOr, apply_ite (blank _), apply_ite (keeps _ s), ite_self, implies_true, foldl_blank, keeps_next, Option.elim, deliver_frame, staleItem_frame]
    | (with_reducible refine (foldl_blank ?_ _ _).trans ?_; intro s x)
    | (split <;> try (rename_i h; with_reducible rw [Prod.ext_iff] at h; have h' := h.2; dsimp only at h'; subst h'))
    | dsimp only

theorem execWriteDataArrival_frame (a0) (a1) (a2) (a3) (s : State) (n : Nat) (hn : n ||| 0x83216C8E = n) :
    keeps n s (execWriteDataArrival a0 a1 a2 a3 s) := by
  refine keeps_mono (m := 0x83216C8E) ?_ hn
  unfold execWriteDataArrival
  repeat' first
    | with_reducible rfl
    | simp only [mk_83216C8E, takeFree, Nat.reduceOr, apply_ite (blank _), apply_ite (keeps _ s), ite_self, implies_true, foldl_blank, keeps_next, Option.elim, dataArrived_frame, readsDone_frame, staleItem_frame]
    | (with_reducible refine (foldl_blank ?_ _ _).trans ?_; intro s x)
    | (split <;> try (rename_i h; with_reducible rw [Prod.ext_iff] at h; have h' := h.2; dsimp only at h'; subst h'))
    | dsimp only

theorem execFwdFrames_frame (a0) (a1) (a2) (s : State) (n : Nat) (hn : n ||| 0x8321EC8E = n) :
    keeps n s (execFwdFrames a0 a1 a2 s) := by
  refine keeps_mono (m := 0x8321EC8E) ?_ hn
  unfold execFwdFrames
  repeat' first
    | with_reducible rfl
    | simp only [mk_8321EC8E, takeFree, Nat.reduceOr, apply_ite (blank _), apply_ite (keeps _ s), ite_self, implies_true, foldl_blank, keeps_next, Option.elim, staleRemote_frame, admitForwarded_frame, modAnyCmd_frame, handoffFail_frame]
    | (with_reducible refine (foldl_blank ?_ _ _).trans ?_; intro s x)
    | (split <;> try (rename_i h; with_reducible rw [Prod.ext_iff] at h; have h' := h.2; dsimp only at h'; subst h'))
    | dsimp only

theorem execFwdLsn_frame (a0) (a1) (a2) (a3) (s : State) (n : Nat) (hn : n ||| 0x83206C8E = n) :
    keeps n s (execFwdLsn a0 a1 a2 a3 s) := by
  refine keeps_mono (m := 0x83206C8E) ?_ hn
  unfold execFwdLsn
  repeat' first
    | with_reducible rfl
    | simp only [mk_83206C8E, takeFree, Nat.reduceOr, apply_ite (blank _), apply_ite (keeps _ s), ite_self, implies_true, foldl_blank, keeps_next, Option.elim, finishWith_frame, staleItem_frame]
    | (with_reducible refine (foldl_blank ?_ _ _).trans ?_; intro s x)
    | (split <;> try (rename_i h; with_reducible rw [Prod.ext_iff] at h; have h' := h.2; dsimp only at h'; subst h'))
    | dsimp only

theorem execGaugeSample_frame (a0) (s : State) (n : Nat) (hn : n ||| 0x2 = n) :
    keeps n s (execGaugeSample a0 s) := by
  refine keeps_mono (m := 0x2) ?_ hn
  unfold execGaugeSample
  repeat' first
    | with_reducible rfl
    | simp only [mk_2, takeFree, Nat.reduceOr, apply_ite (blank _), apply_ite (keeps _ s), ite_self, implies_true, foldl_blank, keeps_next, Option.elim]
    | (with_reducible refine (foldl_blank ?_ _ _).trans ?_; intro s x)
    | (split <;> try (rename_i h; with_reducible rw [Prod.ext_iff] at h; have h' := h.2; dsimp only at h'; subst h'))
    | dsimp only

theorem execGcState_frame (a0) (a1) (a2) (s : State) (n : Nat) (hn : n ||| 0x8F3DECAF = n) :
    keeps n s (execGcState a0 a1 a2 s) := by
  refine keeps_mono (m := 0x8F3DECAF) ?_ hn
  unfold execGcState
  repeat' first
    | with_reducible rfl
    | simp only [mk_8F3DECAF, takeFree, Nat.reduceOr, apply_ite (blank _), apply_ite (keeps _ s), ite_self, implies_true, foldl_blank, keeps_next, Option.elim, record_frame, endActivity_frame, relocateStripe_frame, requestActivity_frame]
    | (with_reducible refine (foldl_blank ?_ _ _).trans ?_; intro s x)
    | (split <;> try (rename_i h; with_reducible rw [Prod.ext_iff] at h; have h' := h.2; dsimp only at h'; subst h'))
    | dsimp only

theorem execGive_frame (a0) (s : State) (n : Nat) (hn : n ||| 0x83204C8F = n) :
    keeps n s (execGive a0 s) := by
  refine keeps_mono (m := 0x83204C8F) ?_ hn
  unfold execGive
  repeat' first
    | with_reducible rfl
    | simp only [mk_83204C8F, takeFree, Nat.reduceOr, apply_ite (blank _), apply_ite (keeps _ s), ite_self, implies_true, foldl_blank, keeps_next, Option.elim, give_frame]
    | (with_reducible refine (foldl_blank ?_ _ _).trans ?_; intro s x)
    | (split <;> try (rename_i h; with_reducible rw [Prod.ext_iff] at h; have h' := h.2; dsimp only at h'; subst h'))
    | dsimp only

theorem execHandover_frame (a0) (a1) (s : State) (n : Nat) (hn : n ||| 0x83206C8F = n) :
    keeps n s (execHandover a0 a1 s) := by
  refine keeps_mono (m := 0x83206C8F) ?_ hn
  unfold execHandover
  repeat' first
    | with_reducible rfl
    | simp only [mk_83206C8F, takeFree, Nat.reduceOr, apply_ite (blank _), apply_ite (keeps _ s), ite_self, implies_true, foldl_blank, keeps_next, Option.elim, setOwned_frame, record_frame]
    | (with_reducible refine (foldl_blank ?_ _ _).trans ?_; intro s x)
    | (split <;> try (rename_i h; with_reducible rw [Prod.ext_iff] at h; have h' := h.2; dsimp only at h'; subst h'))
    | dsimp only

theorem execHeartbeat_frame (a0) (s : State) (n : Nat) (hn : n ||| 0x183246C8F = n) :
    keeps n s (execHeartbeat a0 s) := by
  refine keeps_mono (m := 0x183246C8F) ?_ hn
  unfold execHeartbeat
  repeat' first
    | with_reducible rfl
    | simp only [mk_183246C8F, takeFree, Nat.reduceOr, apply_ite (blank _), apply_ite (keeps _ s), ite_self, implies_true, foldl_blank, keeps_next, Option.elim, beatStanding_frame, endHandover_frame, pushHandover_frame, sendBulk_frame, startHandover_frame]
    | (with_reducible refine (foldl_blank ?_ _ _).trans ?_; intro s x)
    | (split <;> try (rename_i h; with_reducible rw [Prod.ext_iff] at h; have h' := h.2; dsimp only at h'; subst h'))
    | dsimp only

theorem execHeartbeatSend_frame (s : State) (n : Nat) (hn : n ||| 0x80200002 = n) :
    keeps n s (execHeartbeatSend s) := by
  refine keeps_mono (m := 0x80200002) ?_ hn
  unfold execHeartbeatSend
  repeat' first
    | with_reducible rfl
    | simp only [mk_80200002, takeFree, Nat.reduceOr, apply_ite (blank _), apply_ite (keeps _ s), ite_self, implies_true, foldl_blank, keeps_next, Option.elim, pushHandover_frame, xhlSend_frame]
    | (with_reducible refine (foldl_blank ?_ _ _).trans ?_; intro s x)
    | (split <;> try (rename_i h; with_reducible rw [Prod.ext_iff] at h; have h' := h.2; dsimp only at h'; subst h'))
    | dsimp only

theorem execWriteHoldTimeout_frame (s : State) (n : Nat) (hn : n ||| 0x83206C8E = n) :
    keeps n s (execWriteHoldTimeout s) := by
  refine keeps_mono (m := 0x83206C8E) ?_ hn
  unfold execWriteHoldTimeout
  repeat' first
    | with_reducible rfl
    | simp only [mk_83206C8E, takeFree, Nat.reduceOr, apply_ite (blank _), apply_ite (keeps _ s), ite_self, implies_true, foldl_blank, keeps_next, Option.elim, record_frame, noteLogFull_frame, endTag_frame]
    | (with_reducible refine (foldl_blank ?_ _ _).trans ?_; intro s x)
    | (split <;> try (rename_i h; with_reducible rw [Prod.ext_iff] at h; have h' := h.2; dsimp only at h'; subst h'))
    | dsimp only

theorem execHeldWriteReserve_frame (s : State) (n : Nat) (hn : n ||| 0x83216C8E = n) :
    keeps n s (execHeldWriteReserve s) := by
  refine keeps_mono (m := 0x83216C8E) ?_ hn
  unfold execHeldWriteReserve
  repeat' first
    | with_reducible rfl
    | simp only [mk_83216C8E, takeFree, Nat.reduceOr, apply_ite (blank _), apply_ite (keeps _ s), ite_self, implies_true, foldl_blank, keeps_next, Option.elim, noteLogFull_frame, startTransfer_frame, admitForwarded_frame]
    | (with_reducible refine (foldl_blank ?_ _ _).trans ?_; intro s x)
    | (split <;> try (rename_i h; with_reducible rw [Prod.ext_iff] at h; have h' := h.2; dsimp only at h'; subst h'))
    | dsimp only

theorem execHighHalfWrite_frame (a0) (a1) (a2) (s : State) (n : Nat) (hn : n ||| 0x83204E8E = n) :
    keeps n s (execHighHalfWrite a0 a1 a2 s) := by
  refine keeps_mono (m := 0x83204E8E) ?_ hn
  unfold execHighHalfWrite
  rw [keeps_next]
  refine bar0Word_frame _ _ _ _ _ _ rfl ?_
  intro t
  repeat' first
    | with_reducible rfl
    | simp only [mk_83204E8E, takeFree, Nat.reduceOr, apply_ite (blank _), apply_ite (keeps _ s), ite_self, implies_true, foldl_blank, keeps_next, Option.elim, bar0Word_frame, writeHigh_frame]
    | split

theorem execHotReset_frame (a0) (s : State) (n : Nat) (hn : n ||| 0x83204C8E = n) :
    keeps n s (execHotReset a0 s) := by
  refine keeps_mono (m := 0x83204C8E) ?_ hn
  unfold execHotReset
  repeat' first
    | with_reducible rfl
    | simp only [mk_83204C8E, takeFree, Nat.reduceOr, apply_ite (blank _), apply_ite (keeps _ s), ite_self, implies_true, foldl_blank, keeps_next, Option.elim, modEp_frame, record_frame, setHeld_frame]
    | (with_reducible refine (foldl_blank ?_ _ _).trans ?_; intro s x)
    | (split <;> try (rename_i h; with_reducible rw [Prod.ext_iff] at h; have h' := h.2; dsimp only at h'; subst h'))
    | dsimp only

theorem execHusk_frame (a0) (a1) (a2) (a3) (a4) (s : State) (n : Nat) (hn : n ||| 0x18320EC8E = n) :
    keeps n s (execHusk a0 a1 a2 a3 a4 s) := by
  refine keeps_mono (m := 0x18320EC8E) ?_ hn
  unfold execHusk
  repeat' first
    | with_reducible rfl
    | simp only [mk_18320EC8E, takeFree, Nat.reduceOr, apply_ite (blank _), apply_ite (keeps _ s), ite_self, implies_true, foldl_blank, keeps_next, Option.elim, repeatHusk_frame, record_frame, moveAgents_frame, contain_frame]
    | (with_reducible refine (foldl_blank ?_ _ _).trans ?_; intro s x)
    | (split <;> try (rename_i h; with_reducible rw [Prod.ext_iff] at h; have h' := h.2; dsimp only at h'; subst h'))
    | dsimp only

theorem execHuskSelect_frame (a0) (s : State) (n : Nat) (hn : n ||| 0x1000000 = n) :
    keeps n s (execHuskSelect a0 s) := by
  refine keeps_mono (m := 0x1000000) ?_ hn
  unfold execHuskSelect
  repeat' first
    | with_reducible rfl
    | simp only [mk_1000000, takeFree, Nat.reduceOr, apply_ite (blank _), apply_ite (keeps _ s), ite_self, implies_true, foldl_blank, keeps_next, Option.elim, huskSelect_frame]
    | (with_reducible refine (foldl_blank ?_ _ _).trans ?_; intro s x)
    | (split <;> try (rename_i h; with_reducible rw [Prod.ext_iff] at h; have h' := h.2; dsimp only at h'; subst h'))
    | dsimp only

theorem execIdent_frame (a0) (a1) (a2) (a3) (s : State) (n : Nat) (hn : n ||| 0x83214C8F = n) :
    keeps n s (execIdent a0 a1 a2 a3 s) := by
  refine keeps_mono (m := 0x83214C8F) ?_ hn
  unfold execIdent
  repeat' first
    | with_reducible rfl
    | simp only [mk_83214C8F, takeFree, Nat.reduceOr, apply_ite (blank _), apply_ite (keeps _ s), ite_self, implies_true, foldl_blank, keeps_next, Option.elim, recordAlert_frame, pairValue_frame, sendPairKey_frame]
    | (with_reducible refine (foldl_blank ?_ _ _).trans ?_; intro s x)
    | (split <;> try (rename_i h; with_reducible rw [Prod.ext_iff] at h; have h' := h.2; dsimp only at h'; subst h'))
    | dsimp only

theorem execIslandSupplyChange_frame (a0) (a1) (s : State) (n : Nat) (hn : n ||| 0x4 = n) :
    keeps n s (execIslandSupplyChange a0 a1 s) := by
  refine keeps_mono (m := 0x4) ?_ hn
  unfold execIslandSupplyChange
  repeat' first
    | with_reducible rfl
    | simp only [mk_4, takeFree, Nat.reduceOr, apply_ite (blank _), apply_ite (keeps _ s), ite_self, implies_true, foldl_blank, keeps_next, Option.elim]
    | (with_reducible refine (foldl_blank ?_ _ _).trans ?_; intro s x)
    | (split <;> try (rename_i h; with_reducible rw [Prod.ext_iff] at h; have h' := h.2; dsimp only at h'; subst h'))
    | dsimp only

theorem execIslandWakeAlarm_frame (a0) (s : State) (n : Nat) (hn : n ||| 0x183204C8E = n) :
    keeps n s (execIslandWakeAlarm a0 s) := by
  refine keeps_mono (m := 0x183204C8E) ?_ hn
  unfold execIslandWakeAlarm
  repeat' first
    | with_reducible rfl
    | simp only [mk_183204C8E, takeFree, Nat.reduceOr, apply_ite (blank _), apply_ite (keeps _ s), ite_self, implies_true, foldl_blank, keeps_next, Option.elim, islandRecord_frame]
    | (with_reducible refine (foldl_blank ?_ _ _).trans ?_; intro s x)
    | (split <;> try (rename_i h; with_reducible rw [Prod.ext_iff] at h; have h' := h.2; dsimp only at h'; subst h'))
    | dsimp only

theorem execJoin_frame (a0) (s : State) (n : Nat) (hn : n ||| 0x83304C8E = n) :
    keeps n s (execJoin a0 s) := by
  refine keeps_mono (m := 0x83304C8E) ?_ hn
  unfold execJoin
  repeat' first
    | with_reducible rfl
    | simp only [mk_83304C8E, takeFree, Nat.reduceOr, apply_ite (blank _), apply_ite (keeps _ s), ite_self, implies_true, foldl_blank, keeps_next, Option.elim, joinCmd_frame]
    | (with_reducible refine (foldl_blank ?_ _ _).trans ?_; intro s x)
    | (split <;> try (rename_i h; with_reducible rw [Prod.ext_iff] at h; have h' := h.2; dsimp only at h'; subst h'))
    | dsimp only

theorem execKernelDecode_frame (a0) (a1) (a2) (a3) (s : State) (n : Nat) (hn : n ||| 0x8F3DECAF = n) :
    keeps n s (execKernelDecode a0 a1 a2 a3 s) := by
  refine keeps_mono (m := 0x8F3DECAF) ?_ hn
  unfold execKernelDecode
  repeat' first
    | with_reducible rfl
    | simp only [mk_8F3DECAF, takeFree, Nat.reduceOr, apply_ite (blank _), apply_ite (keeps _ s), ite_self, implies_true, foldl_blank, keeps_next, Option.elim, readMapped_frame, poolTake_frame]
    | (with_reducible refine (foldl_blank ?_ _ _).trans ?_; intro s x)
    | (split <;> try (rename_i h; with_reducible rw [Prod.ext_iff] at h; have h' := h.2; dsimp only at h'; subst h'))
    | dsimp only

theorem execKernelEncode_frame (a0) (a1) (a2) (s : State) (n : Nat) (hn : n ||| 0xA000 = n) :
    keeps n s (execKernelEncode a0 a1 a2 s) := by
  refine keeps_mono (m := 0xA000) ?_ hn
  unfold execKernelEncode
  repeat' first
    | with_reducible rfl
    | simp only [mk_A000, takeFree, Nat.reduceOr, apply_ite (blank _), apply_ite (keeps _ s), ite_self, implies_true, foldl_blank, keeps_next, Option.elim, modJob_frame]
    | (with_reducible refine (foldl_blank ?_ _ _).trans ?_; intro s x)
    | (split <;> try (rename_i h; with_reducible rw [Prod.ext_iff] at h; have h' := h.2; dsimp only at h'; subst h'))
    | dsimp only

theorem execKernelVerify_frame (a0) (a1) (a2) (a3) (s : State) (n : Nat) (hn : n ||| 0x8320EC8E = n) :
    keeps n s (execKernelVerify a0 a1 a2 a3 s) := by
  refine keeps_mono (m := 0x8320EC8E) ?_ hn
  unfold execKernelVerify
  repeat' first
    | with_reducible rfl
    | simp only [mk_8320EC8E, takeFree, Nat.reduceOr, apply_ite (blank _), apply_ite (keeps _ s), ite_self, implies_true, foldl_blank, keeps_next, Option.elim, modJob_frame, poolTake_frame, countPreds_frame, record_frame, contain_frame]
    | (with_reducible refine (foldl_blank ?_ _ _).trans ?_; intro s x)
    | (split <;> try (rename_i h; with_reducible rw [Prod.ext_iff] at h; have h' := h.2; dsimp only at h'; subst h'))
    | dsimp only

theorem execKeyGenerate_frame (a0) (s : State) (n : Nat) (hn : n ||| 0x83295C8E = n) :
    keeps n s (execKeyGenerate a0 s) := by
  refine keeps_mono (m := 0x83295C8E) ?_ hn
  unfold execKeyGenerate
  repeat' first
    | with_reducible rfl
    | simp only [mk_83295C8E, takeFree, Nat.reduceOr, apply_ite (blank _), apply_ite (keeps _ s), ite_self, implies_true, foldl_blank, keeps_next, Option.elim, keyCmd_frame]
    | (with_reducible refine (foldl_blank ?_ _ _).trans ?_; intro s x)
    | (split <;> try (rename_i h; with_reducible rw [Prod.ext_iff] at h; have h' := h.2; dsimp only at h'; subst h'))
    | dsimp only

theorem execKeyLoad_frame (a0) (s : State) (n : Nat) (hn : n ||| 0x83295C8E = n) :
    keeps n s (execKeyLoad a0 s) := by
  refine keeps_mono (m := 0x83295C8E) ?_ hn
  unfold execKeyLoad
  repeat' first
    | with_reducible rfl
    | simp only [mk_83295C8E, takeFree, Nat.reduceOr, apply_ite (blank _), apply_ite (keeps _ s), ite_self, implies_true, foldl_blank, keeps_next, Option.elim, keyCmd_frame]
    | (with_reducible refine (foldl_blank ?_ _ _).trans ?_; intro s x)
    | (split <;> try (rename_i h; with_reducible rw [Prod.ext_iff] at h; have h' := h.2; dsimp only at h'; subst h'))
    | dsimp only

theorem execKeyLoadWrapped_frame (a0) (a1) (s : State) (n : Nat) (hn : n ||| 0x83295C8E = n) :
    keeps n s (execKeyLoadWrapped a0 a1 s) := by
  refine keeps_mono (m := 0x83295C8E) ?_ hn
  unfold execKeyLoadWrapped
  repeat' first
    | with_reducible rfl
    | simp only [mk_83295C8E, takeFree, Nat.reduceOr, apply_ite (blank _), apply_ite (keeps _ s), ite_self, implies_true, foldl_blank, keeps_next, Option.elim, keyCmd_frame]
    | (with_reducible refine (foldl_blank ?_ _ _).trans ?_; intro s x)
    | (split <;> try (rename_i h; with_reducible rw [Prod.ext_iff] at h; have h' := h.2; dsimp only at h'; subst h'))
    | dsimp only

theorem execKeyStore_frame (a0) (s : State) (n : Nat) (hn : n ||| 0xBFA36CAF = n) :
    keeps n s (execKeyStore a0 s) := by
  refine keeps_mono (m := 0xBFA36CAF) ?_ hn
  unfold execKeyStore
  repeat' first
    | with_reducible rfl
    | simp only [mk_BFA36CAF, takeFree, Nat.reduceOr, apply_ite (blank _), apply_ite (keeps _ s), ite_self, implies_true, foldl_blank, keeps_next, Option.elim, secAlarm_frame, failstop_frame]
    | (with_reducible refine (foldl_blank ?_ _ _).trans ?_; intro s x)
    | (split <;> try (rename_i h; with_reducible rw [Prod.ext_iff] at h; have h' := h.2; dsimp only at h'; subst h'))
    | dsimp only

theorem execKeyZeroise_frame (a0) (s : State) (n : Nat) (hn : n ||| 0x83295C8E = n) :
    keeps n s (execKeyZeroise a0 s) := by
  refine keeps_mono (m := 0x83295C8E) ?_ hn
  unfold execKeyZeroise
  repeat' first
    | with_reducible rfl
    | simp only [mk_83295C8E, takeFree, Nat.reduceOr, apply_ite (blank _), apply_ite (keeps _ s), ite_self, implies_true, foldl_blank, keeps_next, Option.elim, keyCmd_frame]
    | (with_reducible refine (foldl_blank ?_ _ _).trans ?_; intro s x)
    | (split <;> try (rename_i h; with_reducible rw [Prod.ext_iff] at h; have h' := h.2; dsimp only at h'; subst h'))
    | dsimp only

theorem execLastGasp_frame (s : State) (n : Nat) (hn : n ||| 0x183206C8F = n) :
    keeps n s (execLastGasp s) := by
  refine keeps_mono (m := 0x183206C8F) ?_ hn
  unfold execLastGasp
  repeat' first
    | with_reducible rfl
    | simp only [mk_183206C8F, takeFree, Nat.reduceOr, apply_ite (blank _), apply_ite (keeps _ s), ite_self, implies_true, foldl_blank, keeps_next, Option.elim, peerLost_frame]
    | (with_reducible refine (foldl_blank ?_ _ _).trans ?_; intro s x)
    | (split <;> try (rename_i h; with_reducible rw [Prod.ext_iff] at h; have h' := h.2; dsimp only at h'; subst h'))
    | dsimp only

theorem execLcChangeDone_frame (s : State) (n : Nat) (hn : n ||| 0xBBA14CBE = n) :
    keeps n s (execLcChangeDone s) := by
  refine keeps_mono (m := 0xBBA14CBE) ?_ hn
  unfold execLcChangeDone
  repeat' first
    | with_reducible rfl
    | simp only [mk_BBA14CBE, takeFree, Nat.reduceOr, apply_ite (blank _), apply_ite (keeps _ s), ite_self, implies_true, foldl_blank, keeps_next, Option.elim, lcRest_frame]
    | (with_reducible refine (foldl_blank ?_ _ _).trans ?_; intro s x)
    | (split <;> try (rename_i h; with_reducible rw [Prod.ext_iff] at h; have h' := h.2; dsimp only at h'; subst h'))
    | dsimp only

theorem execLcChangeRequest_frame (a0) (s : State) (n : Nat) (hn : n ||| 0x20 = n) :
    keeps n s (execLcChangeRequest a0 s) := by
  refine keeps_mono (m := 0x20) ?_ hn
  unfold execLcChangeRequest
  repeat' first
    | with_reducible rfl
    | simp only [mk_20, takeFree, Nat.reduceOr, apply_ite (blank _), apply_ite (keeps _ s), ite_self, implies_true, foldl_blank, keeps_next, Option.elim, lcCommand_frame]
    | (with_reducible refine (foldl_blank ?_ _ _).trans ?_; intro s x)
    | (split <;> try (rename_i h; with_reducible rw [Prod.ext_iff] at h; have h' := h.2; dsimp only at h'; subst h'))
    | dsimp only

theorem execLeapSmear_frame (a0) (a1) (s : State) (n : Nat) (hn : n ||| 0x83204C8E = n) :
    keeps n s (execLeapSmear a0 a1 s) := by
  refine keeps_mono (m := 0x83204C8E) ?_ hn
  unfold execLeapSmear
  repeat' first
    | with_reducible rfl
    | simp only [mk_83204C8E, takeFree, Nat.reduceOr, apply_ite (blank _), apply_ite (keeps _ s), ite_self, implies_true, foldl_blank, keeps_next, Option.elim, record_frame]
    | (with_reducible refine (foldl_blank ?_ _ _).trans ?_; intro s x)
    | (split <;> try (rename_i h; with_reducible rw [Prod.ext_iff] at h; have h' := h.2; dsimp only at h'; subst h'))
    | dsimp only

theorem execLedgerSelect_frame (a0) (a1) (s : State) (n : Nat) (hn : n ||| 0x83284E8E = n) :
    keeps n s (execLedgerSelect a0 a1 s) := by
  refine keeps_mono (m := 0x83284E8E) ?_ hn
  unfold execLedgerSelect
  repeat' first
    | with_reducible rfl
    | simp only [mk_83284E8E, takeFree, Nat.reduceOr, apply_ite (blank _), apply_ite (keeps _ s), ite_self, implies_true, foldl_blank, keeps_next, Option.elim, regWrite_frame, dropStage_frame]
    | (with_reducible refine (foldl_blank ?_ _ _).trans ?_; intro s x)
    | (split <;> try (rename_i h; with_reducible rw [Prod.ext_iff] at h; have h' := h.2; dsimp only at h'; subst h'))
    | dsimp only

theorem execLinkDown_frame (a0) (s : State) (n : Nat) (hn : n ||| 0x83204C8E = n) :
    keeps n s (execLinkDown a0 s) := by
  refine keeps_mono (m := 0x83204C8E) ?_ hn
  unfold execLinkDown
  repeat' first
    | with_reducible rfl
    | simp only [mk_83204C8E, takeFree, Nat.reduceOr, apply_ite (blank _), apply_ite (keeps _ s), ite_self, implies_true, foldl_blank, keeps_next, Option.elim, epLinkDown_frame]
    | (with_reducible refine (foldl_blank ?_ _ _).trans ?_; intro s x)
    | (split <;> try (rename_i h; with_reducible rw [Prod.ext_iff] at h; have h' := h.2; dsimp only at h'; subst h'))
    | dsimp only

theorem execLinkUp_frame (a0) (a1) (a2) (a3) (s : State) (n : Nat) (hn : n ||| 0x83204C8E = n) :
    keeps n s (execLinkUp a0 a1 a2 a3 s) := by
  refine keeps_mono (m := 0x83204C8E) ?_ hn
  unfold execLinkUp
  repeat' first
    | with_reducible rfl
    | simp only [mk_83204C8E, takeFree, Nat.reduceOr, apply_ite (blank _), apply_ite (keeps _ s), ite_self, implies_true, foldl_blank, keeps_next, Option.elim, resendPosted_frame, modEp_frame, resumeEp_frame, record_frame]
    | (with_reducible refine (foldl_blank ?_ _ _).trans ?_; intro s x)
    | (split <;> try (rename_i h; with_reducible rw [Prod.ext_iff] at h; have h' := h.2; dsimp only at h'; subst h'))
    | dsimp only

theorem execLockExpired_frame (s : State) (n : Nat) (hn : n ||| 0x83284C8E = n) :
    keeps n s (execLockExpired s) := by
  refine keeps_mono (m := 0x83284C8E) ?_ hn
  unfold execLockExpired
  repeat' first
    | with_reducible rfl
    | simp only [mk_83284C8E, takeFree, Nat.reduceOr, apply_ite (blank _), apply_ite (keeps _ s), ite_self, implies_true, foldl_blank, keeps_next, Option.elim, expireLocks_frame]
    | (with_reducible refine (foldl_blank ?_ _ _).trans ?_; intro s x)
    | (split <;> try (rename_i h; with_reducible rw [Prod.ext_iff] at h; have h' := h.2; dsimp only at h'; subst h'))
    | dsimp only

theorem execLoopCommit_frame (a0) (a1) (a2) (s : State) (n : Nat) (hn : n ||| 0x800000 = n) :
    keeps n s (execLoopCommit a0 a1 a2 s) := by
  refine keeps_mono (m := 0x800000) ?_ hn
  unfold execLoopCommit
  repeat' first
    | with_reducible rfl
    | simp only [mk_800000, takeFree, Nat.reduceOr, apply_ite (blank _), apply_ite (keeps _ s), ite_self, implies_true, foldl_blank, keeps_next, Option.elim, modLoop_frame, loopCommitHost_frame]
    | (with_reducible refine (foldl_blank ?_ _ _).trans ?_; intro s x)
    | (split <;> try (rename_i h; with_reducible rw [Prod.ext_iff] at h; have h' := h.2; dsimp only at h'; subst h'))
    | dsimp only

theorem execLoopSample_frame (a0) (a1) (a2) (s : State) (n : Nat) (hn : n ||| 0x83A04C8E = n) :
    keeps n s (execLoopSample a0 a1 a2 s) := by
  refine keeps_mono (m := 0x83A04C8E) ?_ hn
  unfold execLoopSample
  repeat' first
    | with_reducible rfl
    | simp only [mk_83A04C8E, takeFree, Nat.reduceOr, apply_ite (blank _), apply_ite (keeps _ s), ite_self, implies_true, foldl_blank, keeps_next, Option.elim, loopSample_frame, noteMeas_frame]
    | (with_reducible refine (foldl_blank ?_ _ _).trans ?_; intro s x)
    | (split <;> try (rename_i h; with_reducible rw [Prod.ext_iff] at h; have h' := h.2; dsimp only at h'; subst h'))
    | dsimp only

theorem execLoopSaturated_frame (a0) (s : State) (n : Nat) (hn : n ||| 0x83A04C8E = n) :
    keeps n s (execLoopSaturated a0 s) := by
  refine keeps_mono (m := 0x83A04C8E) ?_ hn
  unfold execLoopSaturated
  repeat' first
    | with_reducible rfl
    | simp only [mk_83A04C8E, takeFree, Nat.reduceOr, apply_ite (blank _), apply_ite (keeps _ s), ite_self, implies_true, foldl_blank, keeps_next, Option.elim, modLoop_frame, recordAlert_frame, addTest_frame]
    | (with_reducible refine (foldl_blank ?_ _ _).trans ?_; intro s x)
    | (split <;> try (rename_i h; with_reducible rw [Prod.ext_iff] at h; have h' := h.2; dsimp only at h'; subst h'))
    | dsimp only

theorem execLowHalfRead_frame (a0) (a1) (s : State) (n : Nat) (hn : n ||| 0xC3E44D8E = n) :
    keeps n s (execLowHalfRead a0 a1 s) := by
  refine keeps_mono (m := 0xC3E44D8E) ?_ hn
  unfold execLowHalfRead
  rw [keeps_next]
  refine bar0Word_frame _ _ _ _ _ _ rfl ?_
  intro t
  repeat' first
    | with_reducible rfl
    | simp only [mk_C3E44D8E, takeFree, Nat.reduceOr, apply_ite (blank _), apply_ite (keeps _ s), ite_self, implies_true, foldl_blank, keeps_next, Option.elim, bar0Word_frame, readWord_frame]
    | split

theorem execLowHalfWrite_frame (a0) (a1) (a2) (s : State) (n : Nat) (hn : n ||| 0xCFFFFFAF = n) :
    keeps n s (execLowHalfWrite a0 a1 a2 s) := by
  refine keeps_mono (m := 0xCFFFFFAF) ?_ hn
  unfold execLowHalfWrite
  rw [keeps_next]
  refine bar0Word_frame _ _ _ _ _ _ rfl ?_
  intro t
  repeat' first
    | with_reducible rfl
    | simp only [mk_CFFFFFAF, takeFree, Nat.reduceOr, apply_ite (blank _), apply_ite (keeps _ s), ite_self, implies_true, foldl_blank, keeps_next, Option.elim, bar0Word_frame, hostWord_frame]
    | split

theorem execMainsRtn_frame (s : State) (n : Nat) (hn : n ||| 0x4 = n) :
    keeps n s (execMainsRtn s) := by
  refine keeps_mono (m := 0x4) ?_ hn
  unfold execMainsRtn
  repeat' first
    | with_reducible rfl
    | simp only [mk_4, takeFree, Nat.reduceOr, apply_ite (blank _), apply_ite (keeps _ s), ite_self, implies_true, foldl_blank, keeps_next, Option.elim]
    | (with_reducible refine (foldl_blank ?_ _ _).trans ?_; intro s x)
    | (split <;> try (rename_i h; with_reducible rw [Prod.ext_iff] at h; have h' := h.2; dsimp only at h'; subst h'))
    | dsimp only

theorem execMaintAdmit_frame (s : State) (n : Nat) (hn : n ||| 0x83304C8E = n) :
    keeps n s (execMaintAdmit s) := by
  refine keeps_mono (m := 0x83304C8E) ?_ hn
  unfold execMaintAdmit
  repeat' first
    | with_reducible rfl
    | simp only [mk_83304C8E, takeFree, Nat.reduceOr, apply_ite (blank _), apply_ite (keeps _ s), ite_self, implies_true, foldl_blank, keeps_next, Option.elim, maintAdmit_frame]
    | (with_reducible refine (foldl_blank ?_ _ _).trans ?_; intro s x)
    | (split <;> try (rename_i h; with_reducible rw [Prod.ext_iff] at h; have h' := h.2; dsimp only at h'; subst h'))
    | dsimp only

theorem execMapDelta_frame (a0) (a1) (a2) (s : State) (n : Nat) (hn : n ||| 0x83396C8E = n) :
    keeps n s (execMapDelta a0 a1 a2 s) := by
  refine keeps_mono (m := 0x83396C8E) ?_ hn
  unfold execMapDelta
  repeat' first
    | with_reducible rfl
    | simp only [mk_83396C8E, takeFree, Nat.reduceOr, apply_ite (blank _), apply_ite (keeps _ s), ite_self, implies_true, foldl_blank, keeps_next, Option.elim, applyMessage_frame, drainDeltas_frame]
    | (with_reducible refine (foldl_blank ?_ _ _).trans ?_; intro s x)
    | (split <;> try (rename_i h; with_reducible rw [Prod.ext_iff] at h; have h' := h.2; dsimp only at h'; subst h'))
    | dsimp only

theorem execMapEntrySet_frame (a0) (a1) (s : State) (n : Nat) (hn : n ||| 0x8338EC8E = n) :
    keeps n s (execMapEntrySet a0 a1 s) := by
  refine keeps_mono (m := 0x8338EC8E) ?_ hn
  unfold execMapEntrySet
  repeat' first
    | with_reducible rfl
    | simp only [mk_8338EC8E, takeFree, Nat.reduceOr, apply_ite (blank _), apply_ite (keeps _ s), ite_self, implies_true, foldl_blank, keeps_next, Option.elim, dropJob_frame, releaseEntry_frame, lostAfter_frame, setLive_frame, record_frame]
    | (with_reducible refine (foldl_blank ?_ _ _).trans ?_; intro s x)
    | (split <;> try (rename_i h; with_reducible rw [Prod.ext_iff] at h; have h' := h.2; dsimp only at h'; subst h'))
    | dsimp only

theorem execMaskFault_frame (a0) (s : State) (n : Nat) (hn : n ||| 0xB3A3EC8E = n) :
    keeps n s (execMaskFault a0 s) := by
  refine keeps_mono (m := 0xB3A3EC8E) ?_ hn
  unfold execMaskFault
  repeat' first
    | with_reducible rfl
    | simp only [mk_B3A3EC8E, takeFree, Nat.reduceOr, apply_ite (blank _), apply_ite (keeps _ s), ite_self, implies_true, foldl_blank, keeps_next, Option.elim, contain_frame, secAlarm_frame]
    | (with_reducible refine (foldl_blank ?_ _ _).trans ?_; intro s x)
    | (split <;> try (rename_i h; with_reducible rw [Prod.ext_iff] at h; have h' := h.2; dsimp only at h'; subst h'))
    | dsimp only

theorem execMirror_frame (a0) (s : State) (n : Nat) (hn : n ||| 0x8320EC8E = n) :
    keeps n s (execMirror a0 s) := by
  refine keeps_mono (m := 0x8320EC8E) ?_ hn
  unfold execMirror
  repeat' first
    | with_reducible rfl
    | simp only [mk_8320EC8E, takeFree, Nat.reduceOr, apply_ite (blank _), apply_ite (keeps _ s), ite_self, implies_true, foldl_blank, keeps_next, Option.elim, rebudget_frame, xhlSend_frame, handoffFail_frame]
    | (with_reducible refine (foldl_blank ?_ _ _).trans ?_; intro s x)
    | (split <;> try (rename_i h; with_reducible rw [Prod.ext_iff] at h; have h' := h.2; dsimp only at h'; subst h'))
    | dsimp only

theorem execMissedSample_frame (a0) (s : State) (n : Nat) (hn : n ||| 0x83A04C8E = n) :
    keeps n s (execMissedSample a0 s) := by
  refine keeps_mono (m := 0x83A04C8E) ?_ hn
  unfold execMissedSample
  repeat' first
    | with_reducible rfl
    | simp only [mk_83A04C8E, takeFree, Nat.reduceOr, apply_ite (blank _), apply_ite (keeps _ s), ite_self, implies_true, foldl_blank, keeps_next, Option.elim, modLoop_frame, loopMissed_frame, loopNext_frame]
    | (with_reducible refine (foldl_blank ?_ _ _).trans ?_; intro s x)
    | (split <;> try (rename_i h; with_reducible rw [Prod.ext_iff] at h; have h' := h.2; dsimp only at h'; subst h'))
    | dsimp only

theorem execModuleDrained_frame (a0) (s : State) (n : Nat) (hn : n ||| 0x833C4C8E = n) :
    keeps n s (execModuleDrained a0 s) := by
  refine keeps_mono (m := 0x833C4C8E) ?_ hn
  unfold execModuleDrained
  repeat' first
    | with_reducible rfl
    | simp only [mk_833C4C8E, takeFree, Nat.reduceOr, apply_ite (blank _), apply_ite (keeps _ s), ite_self, implies_true, foldl_blank, keeps_next, Option.elim, record_frame, setLayout_frame, dmlIssue_frame, writeAnchorsOn_frame, reshapeOver_frame]
    | (with_reducible refine (foldl_blank ?_ _ _).trans ?_; intro s x)
    | (split <;> try (rename_i h; with_reducible rw [Prod.ext_iff] at h; have h' := h.2; dsimp only at h'; subst h'))
    | dsimp only

theorem execModuleEvent_frame (a0) (a1) (s : State) (n : Nat) (hn : n ||| 0x833C4C8E = n) :
    keeps n s (execModuleEvent a0 a1 s) := by
  refine keeps_mono (m := 0x833C4C8E) ?_ hn
  unfold execModuleEvent
  repeat' first
    | with_reducible rfl
    | simp only [mk_833C4C8E, takeFree, Nat.reduceOr, apply_ite (blank _), apply_ite (keeps _ s), ite_self, implies_true, foldl_blank, keeps_next, Option.elim, recordSev_frame, retireDie_frame, fenceReport_frame, record_frame]
    | (with_reducible refine (foldl_blank ?_ _ _).trans ?_; intro s x)
    | (split <;> try (rename_i h; with_reducible rw [Prod.ext_iff] at h; have h' := h.2; dsimp only at h'; subst h'))
    | dsimp only

theorem execModuleInserted_frame (a0) (s : State) (n : Nat) (hn : n ||| 0x83A44C8E = n) :
    keeps n s (execModuleInserted a0 s) := by
  refine keeps_mono (m := 0x83A44C8E) ?_ hn
  unfold execModuleInserted
  repeat' first
    | with_reducible rfl
    | simp only [mk_83A44C8E, takeFree, Nat.reduceOr, apply_ite (blank _), apply_ite (keeps _ s), ite_self, implies_true, foldl_blank, keeps_next, Option.elim, record_frame, modPort_frame]
    | (with_reducible refine (foldl_blank ?_ _ _).trans ?_; intro s x)
    | (split <;> try (rename_i h; with_reducible rw [Prod.ext_iff] at h; have h' := h.2; dsimp only at h'; subst h'))
    | dsimp only

theorem execModuleRemoved_frame (a0) (s : State) (n : Nat) (hn : n ||| 0x83BC4C8E = n) :
    keeps n s (execModuleRemoved a0 s) := by
  refine keeps_mono (m := 0x83BC4C8E) ?_ hn
  unfold execModuleRemoved
  repeat' first
    | with_reducible rfl
    | simp only [mk_83BC4C8E, takeFree, Nat.reduceOr, apply_ite (blank _), apply_ite (keeps _ s), ite_self, implies_true, foldl_blank, keeps_next, Option.elim, portDown_frame, modPort_frame, record_frame]
    | (with_reducible refine (foldl_blank ?_ _ _).trans ?_; intro s x)
    | (split <;> try (rename_i h; with_reducible rw [Prod.ext_iff] at h; have h' := h.2; dsimp only at h'; subst h'))
    | dsimp only

theorem execNop_frame (a0) (s : State) (n : Nat) (hn : n ||| 0x0 = n) :
    keeps n s (execNop a0 s) := by
  refine keeps_mono (m := 0x0) ?_ hn
  unfold execNop
  repeat' first
    | with_reducible rfl
    | simp only [mk_0, takeFree, Nat.reduceOr, apply_ite (blank _), apply_ite (keeps _ s), ite_self, implies_true, foldl_blank, keeps_next, Option.elim]
    | (with_reducible refine (foldl_blank ?_ _ _).trans ?_; intro s x)
    | (split <;> try (rename_i h; with_reducible rw [Prod.ext_iff] at h; have h' := h.2; dsimp only at h'; subst h'))
    | dsimp only

theorem execNorEntryProgram_frame (s : State) (n : Nat) (hn : n ||| 0xA000000 = n) :
    keeps n s (execNorEntryProgram s) := by
  refine keeps_mono (m := 0xA000000) ?_ hn
  unfold execNorEntryProgram
  repeat' first
    | with_reducible rfl
    | simp only [mk_A000000, takeFree, Nat.reduceOr, apply_ite (blank _), apply_ite (keeps _ s), ite_self, implies_true, foldl_blank, keeps_next, Option.elim, norPut_frame]
    | (with_reducible refine (foldl_blank ?_ _ _).trans ?_; intro s x)
    | (split <;> try (rename_i h; with_reducible rw [Prod.ext_iff] at h; have h' := h.2; dsimp only at h'; subst h'))
    | dsimp only

theorem execPairKey_frame (a0) (s : State) (n : Nat) (hn : n ||| 0x183294C8F = n) :
    keeps n s (execPairKey a0 s) := by
  refine keeps_mono (m := 0x183294C8F) ?_ hn
  unfold execPairKey
  repeat' first
    | with_reducible rfl
    | simp only [mk_183294C8F, takeFree, Nat.reduceOr, apply_ite (blank _), apply_ite (keeps _ s), ite_self, implies_true, foldl_blank, keeps_next, Option.elim, noteMapChange_frame, sendDelta_frame, pairValue_frame, record_frame, sendPairKey_frame, pairRefused_frame]
    | (with_reducible refine (foldl_blank ?_ _ _).trans ?_; intro s x)
    | (split <;> try (rename_i h; with_reducible rw [Prod.ext_iff] at h; have h' := h.2; dsimp only at h'; subst h'))
    | dsimp only

theorem execPatrol_frame (a0) (s : State) (n : Nat) (hn : n ||| 0x8F3D6CAF = n) :
    keeps n s (execPatrol a0 s) := by
  refine keeps_mono (m := 0x8F3D6CAF) ?_ hn
  unfold execPatrol
  repeat' first
    | with_reducible rfl
    | simp only [mk_8F3D6CAF, takeFree, Nat.reduceOr, apply_ite (blank _), apply_ite (keeps _ s), ite_self, implies_true, foldl_blank, keeps_next, Option.elim, checkStripe_frame, modStripe_frame, endActivity_frame, startPatrol_frame]
    | (with_reducible refine (foldl_blank ?_ _ _).trans ?_; intro s x)
    | (split <;> try (rename_i h; with_reducible rw [Prod.ext_iff] at h; have h' := h.2; dsimp only at h'; subst h'))
    | dsimp only

theorem execPatrolNow_frame (s : State) (n : Nat) (hn : n ||| 0x83304C8E = n) :
    keeps n s (execPatrolNow s) := by
  refine keeps_mono (m := 0x83304C8E) ?_ hn
  unfold execPatrolNow
  repeat' first
    | with_reducible rfl
    | simp only [mk_83304C8E, takeFree, Nat.reduceOr, apply_ite (blank _), apply_ite (keeps _ s), ite_self, implies_true, foldl_blank, keeps_next, Option.elim, patrolNow_frame]
    | (with_reducible refine (foldl_blank ?_ _ _).trans ?_; intro s x)
    | (split <;> try (rename_i h; with_reducible rw [Prod.ext_iff] at h; have h' := h.2; dsimp only at h'; subst h'))
    | dsimp only

theorem execPatrolScrub_frame (a0) (a1) (a2) (s : State) (n : Nat) (hn : n ||| 0x8F62ECAF = n) :
    keeps n s (execPatrolScrub a0 a1 a2 s) := by
  refine keeps_mono (m := 0x8F62ECAF) ?_ hn
  unfold execPatrolScrub
  repeat' first
    | with_reducible rfl
    | simp only [mk_8F62ECAF, takeFree, Nat.reduceOr, apply_ite (blank _), apply_ite (keeps _ s), ite_self, implies_true, foldl_blank, keeps_next, Option.elim, dramRead_frame, emit_frame]
    | (with_reducible refine (foldl_blank ?_ _ _).trans ?_; intro s x)
    | (split <;> try (rename_i h; with_reducible rw [Prod.ext_iff] at h; have h' := h.2; dsimp only at h'; subst h'))
    | dsimp only

theorem execPePerstL_frame (s : State) (n : Nat) (hn : n ||| 0x183236F8E = n) :
    keeps n s (execPePerstL s) := by
  refine keeps_mono (m := 0x183236F8E) ?_ hn
  unfold execPePerstL
  repeat' first
    | with_reducible rfl
    | simp only [mk_183236F8E, takeFree, Nat.reduceOr, apply_ite (blank _), apply_ite (keeps _ s), ite_self, implies_true, foldl_blank, keeps_next, Option.elim, perstEp_frame, settleRetains_frame, record_frame]
    | (with_reducible refine (foldl_blank ?_ _ _).trans ?_; intro s x)
    | (split <;> try (rename_i h; with_reducible rw [Prod.ext_iff] at h; have h' := h.2; dsimp only at h'; subst h'))
    | dsimp only

theorem execPePerstLDeassert_frame (s : State) (n : Nat) (hn : n ||| 0x80 = n) :
    keeps n s (execPePerstLDeassert s) := by
  refine keeps_mono (m := 0x80) ?_ hn
  unfold execPePerstLDeassert
  repeat' first
    | with_reducible rfl
    | simp only [mk_80, takeFree, Nat.reduceOr, apply_ite (blank _), apply_ite (keeps _ s), ite_self, implies_true, foldl_blank, keeps_next, Option.elim]
    | (with_reducible refine (foldl_blank ?_ _ _).trans ?_; intro s x)
    | (split <;> try (rename_i h; with_reducible rw [Prod.ext_iff] at h; have h' := h.2; dsimp only at h'; subst h'))
    | dsimp only

theorem execPeerBudgetStale_frame (s : State) (n : Nat) (hn : n ||| 0x83204C8E = n) :
    keeps n s (execPeerBudgetStale s) := by
  refine keeps_mono (m := 0x83204C8E) ?_ hn
  unfold execPeerBudgetStale
  repeat' first
    | with_reducible rfl
    | simp only [mk_83204C8E, takeFree, Nat.reduceOr, apply_ite (blank _), apply_ite (keeps _ s), ite_self, implies_true, foldl_blank, keeps_next, Option.elim, rebudget_frame]
    | (with_reducible refine (foldl_blank ?_ _ _).trans ?_; intro s x)
    | (split <;> try (rename_i h; with_reducible rw [Prod.ext_iff] at h; have h' := h.2; dsimp only at h'; subst h'))
    | dsimp only

theorem execPeerLost_frame (s : State) (n : Nat) (hn : n ||| 0x183206C8F = n) :
    keeps n s (execPeerLost s) := by
  refine keeps_mono (m := 0x183206C8F) ?_ hn
  unfold execPeerLost
  repeat' first
    | with_reducible rfl
    | simp only [mk_183206C8F, takeFree, Nat.reduceOr, apply_ite (blank _), apply_ite (keeps _ s), ite_self, implies_true, foldl_blank, keeps_next, Option.elim, peerLost_frame]
    | (with_reducible refine (foldl_blank ?_ _ _).trans ?_; intro s x)
    | (split <;> try (rename_i h; with_reducible rw [Prod.ext_iff] at h; have h' := h.2; dsimp only at h'; subst h'))
    | dsimp only

theorem execPeerSuspect_frame (s : State) (n : Nat) (hn : n ||| 0x83206C8E = n) :
    keeps n s (execPeerSuspect s) := by
  refine keeps_mono (m := 0x83206C8E) ?_ hn
  unfold execPeerSuspect
  repeat' first
    | with_reducible rfl
    | simp only [mk_83206C8E, takeFree, Nat.reduceOr, apply_ite (blank _), apply_ite (keeps _ s), ite_self, implies_true, foldl_blank, keeps_next, Option.elim, suspectPeer_frame]
    | (with_reducible refine (foldl_blank ?_ _ _).trans ?_; intro s x)
    | (split <;> try (rename_i h; with_reducible rw [Prod.ext_iff] at h; have h' := h.2; dsimp only at h'; subst h'))
    | dsimp only

theorem execPeriodDefWrite_frame (a0) (s : State) (n : Nat) (hn : n ||| 0x8 = n) :
    keeps n s (execPeriodDefWrite a0 s) := by
  refine keeps_mono (m := 0x8) ?_ hn
  unfold execPeriodDefWrite
  repeat' first
    | with_reducible rfl
    | simp only [mk_8, takeFree, Nat.reduceOr, apply_ite (blank _), apply_ite (keeps _ s), ite_self, implies_true, foldl_blank, keeps_next, Option.elim, periodDefWrite_frame]
    | (with_reducible refine (foldl_blank ?_ _ _).trans ?_; intro s x)
    | (split <;> try (rename_i h; with_reducible rw [Prod.ext_iff] at h; have h' := h.2; dsimp only at h'; subst h'))
    | dsimp only

theorem execPeriodsClosed_frame (a0) (s : State) (n : Nat) (hn : n ||| 0x83204C8E = n) :
    keeps n s (execPeriodsClosed a0 s) := by
  refine keeps_mono (m := 0x83204C8E) ?_ hn
  unfold execPeriodsClosed
  repeat' first
    | with_reducible rfl
    | simp only [mk_83204C8E, takeFree, Nat.reduceOr, apply_ite (blank _), apply_ite (keeps _ s), ite_self, implies_true, foldl_blank, keeps_next, Option.elim, samplePeaks_frame, emit_frame, closePeriods_frame]
    | (with_reducible refine (foldl_blank ?_ _ _).trans ?_; intro s x)
    | (split <;> try (rename_i h; with_reducible rw [Prod.ext_iff] at h; have h' := h.2; dsimp only at h'; subst h'))
    | dsimp only

theorem execPfcPause_frame (a0) (a1) (s : State) (n : Nat) (hn : n ||| 0x80000800 = n) :
    keeps n s (execPfcPause a0 a1 s) := by
  refine keeps_mono (m := 0x80000800) ?_ hn
  unfold execPfcPause
  repeat' first
    | with_reducible rfl
    | simp only [mk_80000800, takeFree, Nat.reduceOr, apply_ite (blank _), apply_ite (keeps _ s), ite_self, implies_true, foldl_blank, keeps_next, Option.elim, modNetPort_frame, releaseHeld_frame]
    | (with_reducible refine (foldl_blank ?_ _ _).trans ?_; intro s x)
    | (split <;> try (rename_i h; with_reducible rw [Prod.ext_iff] at h; have h' := h.2; dsimp only at h'; subst h'))
    | dsimp only

theorem execPfcStuck_frame (a0) (s : State) (n : Nat) (hn : n ||| 0x83204C8E = n) :
    keeps n s (execPfcStuck a0 s) := by
  refine keeps_mono (m := 0x83204C8E) ?_ hn
  unfold execPfcStuck
  repeat' first
    | with_reducible rfl
    | simp only [mk_83204C8E, takeFree, Nat.reduceOr, apply_ite (blank _), apply_ite (keeps _ s), ite_self, implies_true, foldl_blank, keeps_next, Option.elim, recordAlert_frame, modNetPort_frame]
    | (with_reducible refine (foldl_blank ?_ _ _).trans ?_; intro s x)
    | (split <;> try (rename_i h; with_reducible rw [Prod.ext_iff] at h; have h' := h.2; dsimp only at h'; subst h'))
    | dsimp only

theorem execPfcXon_frame (a0) (a1) (s : State) (n : Nat) (hn : n ||| 0x80000800 = n) :
    keeps n s (execPfcXon a0 a1 s) := by
  refine keeps_mono (m := 0x80000800) ?_ hn
  unfold execPfcXon
  repeat' first
    | with_reducible rfl
    | simp only [mk_80000800, takeFree, Nat.reduceOr, apply_ite (blank _), apply_ite (keeps _ s), ite_self, implies_true, foldl_blank, keeps_next, Option.elim, modNetPort_frame, emit_frame]
    | (with_reducible refine (foldl_blank ?_ _ _).trans ?_; intro s x)
    | (split <;> try (rename_i h; with_reducible rw [Prod.ext_iff] at h; have h' := h.2; dsimp only at h'; subst h'))
    | dsimp only

theorem execPkeyTableWrite_frame (a0) (a1) (s : State) (n : Nat) (hn : n ||| 0x800 = n) :
    keeps n s (execPkeyTableWrite a0 a1 s) := by
  refine keeps_mono (m := 0x800) ?_ hn
  unfold execPkeyTableWrite
  repeat' first
    | with_reducible rfl
    | simp only [mk_800, takeFree, Nat.reduceOr, apply_ite (blank _), apply_ite (keeps _ s), ite_self, implies_true, foldl_blank, keeps_next, Option.elim, pkeyWrite_frame]
    | (with_reducible refine (foldl_blank ?_ _ _).trans ?_; intro s x)
    | (split <;> try (rename_i h; with_reducible rw [Prod.ext_iff] at h; have h' := h.2; dsimp only at h'; subst h'))
    | dsimp only

theorem execPmbusAlert_frame (a0) (a1) (s : State) (n : Nat) (hn : n ||| 0x8F206CAF = n) :
    keeps n s (execPmbusAlert a0 a1 s) := by
  refine keeps_mono (m := 0x8F206CAF) ?_ hn
  unfold execPmbusAlert
  repeat' first
    | with_reducible rfl
    | simp only [mk_8F206CAF, takeFree, Nat.reduceOr, apply_ite (blank _), apply_ite (keeps _ s), ite_self, implies_true, foldl_blank, keeps_next, Option.elim, alertRead_frame]
    | (with_reducible refine (foldl_blank ?_ _ _).trans ?_; intro s x)
    | (split <;> try (rename_i h; with_reducible rw [Prod.ext_iff] at h; have h' := h.2; dsimp only at h'; subst h'))
    | dsimp only

theorem execPmbusPoll_frame (a0) (s : State) (n : Nat) (hn : n ||| 0x8F206CAF = n) :
    keeps n s (execPmbusPoll a0 s) := by
  refine keeps_mono (m := 0x8F206CAF) ?_ hn
  unfold execPmbusPoll
  repeat' first
    | with_reducible rfl
    | simp only [mk_8F206CAF, takeFree, Nat.reduceOr, apply_ite (blank _), apply_ite (keeps _ s), ite_self, implies_true, foldl_blank, keeps_next, Option.elim, regRead_frame, pollSend_frame]
    | (with_reducible refine (foldl_blank ?_ _ _).trans ?_; intro s x)
    | (split <;> try (rename_i h; with_reducible rw [Prod.ext_iff] at h; have h' := h.2; dsimp only at h'; subst h'))
    | dsimp only

theorem execPortLink_frame (a0) (a1) (s : State) (n : Nat) (hn : n ||| 0x83204C8E = n) :
    keeps n s (execPortLink a0 a1 s) := by
  refine keeps_mono (m := 0x83204C8E) ?_ hn
  unfold execPortLink
  repeat' first
    | with_reducible rfl
    | simp only [mk_83204C8E, takeFree, Nat.reduceOr, apply_ite (blank _), apply_ite (keeps _ s), ite_self, implies_true, foldl_blank, keeps_next, Option.elim, setSub_frame]
    | (with_reducible refine (foldl_blank ?_ _ _).trans ?_; intro s x)
    | (split <;> try (rename_i h; with_reducible rw [Prod.ext_iff] at h; have h' := h.2; dsimp only at h'; subst h'))
    | dsimp only

theorem execPower_frame (a0) (s : State) (n : Nat) (hn : n ||| 0x80A00002 = n) :
    keeps n s (execPower a0 s) := by
  refine keeps_mono (m := 0x80A00002) ?_ hn
  unfold execPower
  repeat' first
    | with_reducible rfl
    | simp only [mk_80A00002, takeFree, Nat.reduceOr, apply_ite (blank _), apply_ite (keeps _ s), ite_self, implies_true, foldl_blank, keeps_next, Option.elim, sendPower_frame]
    | (with_reducible refine (foldl_blank ?_ _ _).trans ?_; intro s x)
    | (split <;> try (rename_i h; with_reducible rw [Prod.ext_iff] at h; have h' := h.2; dsimp only at h'; subst h'))
    | dsimp only

theorem execPowerHint_frame (a0) (a1) (a2) (s : State) (n : Nat) (hn : n ||| 0x9F3FFCAF = n) :
    keeps n s (execPowerHint a0 a1 a2 s) := by
  refine keeps_mono (m := 0x9F3FFCAF) ?_ hn
  unfold execPowerHint
  repeat' first
    | with_reducible rfl
    | simp only [mk_9F3FFCAF, takeFree, Nat.reduceOr, apply_ite (blank _), apply_ite (keeps _ s), ite_self, implies_true, foldl_blank, keeps_next, Option.elim, fetched_frame]
    | (with_reducible refine (foldl_blank ?_ _ _).trans ?_; intro s x)
    | (split <;> try (rename_i h; with_reducible rw [Prod.ext_iff] at h; have h' := h.2; dsimp only at h'; subst h'))
    | dsimp only

theorem execPowerHintLapse_frame (s : State) (n : Nat) (hn : n ||| 0x400 = n) :
    keeps n s (execPowerHintLapse s) := by
  refine keeps_mono (m := 0x400) ?_ hn
  unfold execPowerHintLapse
  repeat' first
    | with_reducible rfl
    | simp only [mk_400, takeFree, Nat.reduceOr, apply_ite (blank _), apply_ite (keeps _ s), ite_self, implies_true, foldl_blank, keeps_next, Option.elim]
    | (with_reducible refine (foldl_blank ?_ _ _).trans ?_; intro s x)
    | (split <;> try (rename_i h; with_reducible rw [Prod.ext_iff] at h; have h' := h.2; dsimp only at h'; subst h'))
    | dsimp only

theorem execPowerStateExit_frame (s : State) (n : Nat) (hn : n ||| 0x80800482 = n) :
    keeps n s (execPowerStateExit s) := by
  refine keeps_mono (m := 0x80800482) ?_ hn
  unfold execPowerStateExit
  repeat' first
    | with_reducible rfl
    | simp only [mk_80800482, takeFree, Nat.reduceOr, apply_ite (blank _), apply_ite (keeps _ s), ite_self, implies_true, foldl_blank, keeps_next, Option.elim, exitIdle_frame, busy_frame]
    | (with_reducible refine (foldl_blank ?_ _ _).trans ?_; intro s x)
    | (split <;> try (rename_i h; with_reducible rw [Prod.ext_iff] at h; have h' := h.2; dsimp only at h'; subst h'))
    | dsimp only

theorem execPpsInEdge_frame (a0) (a1) (a2) (s : State) (n : Nat) (hn : n ||| 0x183204C8E = n) :
    keeps n s (execPpsInEdge a0 a1 a2 s) := by
  refine keeps_mono (m := 0x183204C8E) ?_ hn
  unfold execPpsInEdge
  repeat' first
    | with_reducible rfl
    | simp only [mk_183204C8E, takeFree, Nat.reduceOr, apply_ite (blank _), apply_ite (keeps _ s), ite_self, implies_true, foldl_blank, keeps_next, Option.elim, pendCorrect_frame, learn_frame, reselect_frame, refLocked_frame, ppsBad_frame]
    | (with_reducible refine (foldl_blank ?_ _ _).trans ?_; intro s x)
    | (split <;> try (rename_i h; with_reducible rw [Prod.ext_iff] at h; have h' := h.2; dsimp only at h'; subst h'))
    | dsimp only

theorem execPpsInMissing_frame (s : State) (n : Nat) (hn : n ||| 0x83204C8E = n) :
    keeps n s (execPpsInMissing s) := by
  refine keeps_mono (m := 0x83204C8E) ?_ hn
  unfold execPpsInMissing
  repeat' first
    | with_reducible rfl
    | simp only [mk_83204C8E, takeFree, Nat.reduceOr, apply_ite (blank _), apply_ite (keeps _ s), ite_self, implies_true, foldl_blank, keeps_next, Option.elim, reselect_frame]
    | (with_reducible refine (foldl_blank ?_ _ _).trans ?_; intro s x)
    | (split <;> try (rename_i h; with_reducible rw [Prod.ext_iff] at h; have h' := h.2; dsimp only at h'; subst h'))
    | dsimp only

theorem execPpsOutEdge_frame (s : State) (n : Nat) (hn : n ||| 0x8 = n) :
    keeps n s (execPpsOutEdge s) := by
  refine keeps_mono (m := 0x8) ?_ hn
  unfold execPpsOutEdge
  repeat' first
    | with_reducible rfl
    | simp only [mk_8, takeFree, Nat.reduceOr, apply_ite (blank _), apply_ite (keeps _ s), ite_self, implies_true, foldl_blank, keeps_next, Option.elim]
    | (with_reducible refine (foldl_blank ?_ _ _).trans ?_; intro s x)
    | (split <;> try (rename_i h; with_reducible rw [Prod.ext_iff] at h; have h' := h.2; dsimp only at h'; subst h'))
    | dsimp only

theorem execProtectChunk_frame (a0) (a1) (s : State) (n : Nat) (hn : n ||| 0x8F3D6CAF = n) :
    keeps n s (execProtectChunk a0 a1 s) := by
  refine keeps_mono (m := 0x8F3D6CAF) ?_ hn
  unfold execProtectChunk
  repeat' first
    | with_reducible rfl
    | simp only [mk_8F3D6CAF, takeFree, Nat.reduceOr, apply_ite (blank _), apply_ite (keeps _ s), ite_self, implies_true, foldl_blank, keeps_next, Option.elim, takeSerial_frame, placeObject_frame, flushNoSpace_frame, modJob_frame]
    | (with_reducible refine (foldl_blank ?_ _ _).trans ?_; intro s x)
    | (split <;> try (rename_i h; with_reducible rw [Prod.ext_iff] at h; have h' := h.2; dsimp only at h'; subst h'))
    | dsimp only

theorem execPsCtlWrite_frame (a0) (s : State) (n : Nat) (hn : n ||| 0x80800482 = n) :
    keeps n s (execPsCtlWrite a0 s) := by
  refine keeps_mono (m := 0x80800482) ?_ hn
  unfold execPsCtlWrite
  repeat' first
    | with_reducible rfl
    | simp only [mk_80800482, takeFree, Nat.reduceOr, apply_ite (blank _), apply_ite (keeps _ s), ite_self, implies_true, foldl_blank, keeps_next, Option.elim, psCtlWrite_frame]
    | (with_reducible refine (foldl_blank ?_ _ _).trans ?_; intro s x)
    | (split <;> try (rename_i h; with_reducible rw [Prod.ext_iff] at h; have h' := h.2; dsimp only at h'; subst h'))
    | dsimp only

theorem execPtpLoss_frame (s : State) (n : Nat) (hn : n ||| 0x83204C8E = n) :
    keeps n s (execPtpLoss s) := by
  refine keeps_mono (m := 0x83204C8E) ?_ hn
  unfold execPtpLoss
  repeat' first
    | with_reducible rfl
    | simp only [mk_83204C8E, takeFree, Nat.reduceOr, apply_ite (blank _), apply_ite (keeps _ s), ite_self, implies_true, foldl_blank, keeps_next, Option.elim, reselect_frame]
    | (with_reducible refine (foldl_blank ?_ _ _).trans ?_; intro s x)
    | (split <;> try (rename_i h; with_reducible rw [Prod.ext_iff] at h; have h' := h.2; dsimp only at h'; subst h'))
    | dsimp only

theorem execPtpSync_frame (a0) (a1) (a2) (a3) (s : State) (n : Nat) (hn : n ||| 0x183204C8E = n) :
    keeps n s (execPtpSync a0 a1 a2 a3 s) := by
  refine keeps_mono (m := 0x183204C8E) ?_ hn
  unfold execPtpSync
  repeat' first
    | with_reducible rfl
    | simp only [mk_183204C8E, takeFree, Nat.reduceOr, apply_ite (blank _), apply_ite (keeps _ s), ite_self, implies_true, foldl_blank, keeps_next, Option.elim, chooseMaster_frame, reselect_frame, ptpSync_frame]
    | (with_reducible refine (foldl_blank ?_ _ _).trans ?_; intro s x)
    | (split <;> try (rename_i h; with_reducible rw [Prod.ext_iff] at h; have h' := h.2; dsimp only at h'; subst h'))
    | dsimp only

theorem execQpError_frame (a0) (a1) (a2) (s : State) (n : Nat) (hn : n ||| 0x83205C8E = n) :
    keeps n s (execQpError a0 a1 a2 s) := by
  refine keeps_mono (m := 0x83205C8E) ?_ hn
  unfold execQpError
  repeat' first
    | with_reducible rfl
    | simp only [mk_83205C8E, takeFree, Nat.reduceOr, apply_ite (blank _), apply_ite (keeps _ s), ite_self, implies_true, foldl_blank, keeps_next, Option.elim, qpError_frame]
    | (with_reducible refine (foldl_blank ?_ _ _).trans ?_; intro s x)
    | (split <;> try (rename_i h; with_reducible rw [Prod.ext_iff] at h; have h' := h.2; dsimp only at h'; subst h'))
    | dsimp only

theorem execQuery_frame (a0) (a1) (a2) (s : State) (n : Nat) (hn : n ||| 0x9F3FFCAF = n) :
    keeps n s (execQuery a0 a1 a2 s) := by
  refine keeps_mono (m := 0x9F3FFCAF) ?_ hn
  unfold execQuery
  repeat' first
    | with_reducible rfl
    | simp only [mk_9F3FFCAF, takeFree, Nat.reduceOr, apply_ite (blank _), apply_ite (keeps _ s), ite_self, implies_true, foldl_blank, keeps_next, Option.elim, fetched_frame]
    | (with_reducible refine (foldl_blank ?_ _ _).trans ?_; intro s x)
    | (split <;> try (rename_i h; with_reducible rw [Prod.ext_iff] at h; have h' := h.2; dsimp only at h'; subst h'))
    | dsimp only

theorem execQueryDevice_frame (a0) (a1) (a2) (s : State) (n : Nat) (hn : n ||| 0x9F3FFCAF = n) :
    keeps n s (execQueryDevice a0 a1 a2 s) := by
  refine keeps_mono (m := 0x9F3FFCAF) ?_ hn
  unfold execQueryDevice
  repeat' first
    | with_reducible rfl
    | simp only [mk_9F3FFCAF, takeFree, Nat.reduceOr, apply_ite (blank _), apply_ite (keeps _ s), ite_self, implies_true, foldl_blank, keeps_next, Option.elim, fetched_frame]
    | (with_reducible refine (foldl_blank ?_ _ _).trans ?_; intro s x)
    | (split <;> try (rename_i h; with_reducible rw [Prod.ext_iff] at h; have h' := h.2; dsimp only at h'; subst h'))
    | dsimp only

theorem execRasterHint_frame (a0) (a1) (a2) (s : State) (n : Nat) (hn : n ||| 0x9F3FFCAF = n) :
    keeps n s (execRasterHint a0 a1 a2 s) := by
  refine keeps_mono (m := 0x9F3FFCAF) ?_ hn
  unfold execRasterHint
  repeat' first
    | with_reducible rfl
    | simp only [mk_9F3FFCAF, takeFree, Nat.reduceOr, apply_ite (blank _), apply_ite (keeps _ s), ite_self, implies_true, foldl_blank, keeps_next, Option.elim, fetched_frame]
    | (with_reducible refine (foldl_blank ?_ _ _).trans ?_; intro s x)
    | (split <;> try (rename_i h; with_reducible rw [Prod.ext_iff] at h; have h' := h.2; dsimp only at h'; subst h'))
    | dsimp only

theorem execRateIncrease_frame (a0) (s : State) (n : Nat) (hn : n ||| 0x800 = n) :
    keeps n s (execRateIncrease a0 s) := by
  refine keeps_mono (m := 0x800) ?_ hn
  unfold execRateIncrease
  repeat' first
    | with_reducible rfl
    | simp only [mk_800, takeFree, Nat.reduceOr, apply_ite (blank _), apply_ite (keeps _ s), ite_self, implies_true, foldl_blank, keeps_next, Option.elim, modQp_frame]
    | (with_reducible refine (foldl_blank ?_ _ _).trans ?_; intro s x)
    | (split <;> try (rename_i h; with_reducible rw [Prod.ext_iff] at h; have h' := h.2; dsimp only at h'; subst h'))
    | dsimp only

theorem execRcRead_frame (a0) (a1) (s : State) (n : Nat) (hn : n ||| 0xC3E44D8E = n) :
    keeps n s (execRcRead a0 a1 s) := by
  refine keeps_mono (m := 0xC3E44D8E) ?_ hn
  unfold execRcRead
  rw [keeps_next]
  refine bar0Word_frame _ _ _ _ _ _ rfl ?_
  intro t
  repeat' first
    | with_reducible rfl
    | simp only [mk_C3E44D8E, takeFree, Nat.reduceOr, apply_ite (blank _), apply_ite (keeps _ s), ite_self, implies_true, foldl_blank, keeps_next, Option.elim, bar0Word_frame, readWord_frame]
    | split

theorem execRoceSend_frame (a0) (a1) (s : State) (n : Nat) (hn : n ||| 0x183A05C8E = n) :
    keeps n s (execRoceSend a0 a1 s) := by
  refine keeps_mono (m := 0x183A05C8E) ?_ hn
  unfold execRoceSend
  repeat' first
    | with_reducible rfl
    | simp only [mk_183A05C8E, takeFree, Nat.reduceOr, apply_ite (blank _), apply_ite (keeps _ s), ite_self, implies_true, foldl_blank, keeps_next, Option.elim, takeReq_frame, sendRoce_frame, qpError_frame, modQueue_frame, makeReady_frame]
    | (with_reducible refine (foldl_blank ?_ _ _).trans ?_; intro s x)
    | (split <;> try (rename_i h; with_reducible rw [Prod.ext_iff] at h; have h' := h.2; dsimp only at h'; subst h'))
    | dsimp only

theorem execRdmaRead_frame (a0) (a1) (a2) (a3) (s : State) (n : Nat) (hn : n ||| 0x183A05C8E = n) :
    keeps n s (execRdmaRead a0 a1 a2 a3 s) := by
  refine keeps_mono (m := 0x183A05C8E) ?_ hn
  unfold execRdmaRead
  repeat' first
    | with_reducible rfl
    | simp only [mk_183A05C8E, takeFree, Nat.reduceOr, apply_ite (blank _), apply_ite (keeps _ s), ite_self, implies_true, foldl_blank, keeps_next, Option.elim, readOut_frame, busy_frame, takeReq_frame]
    | (with_reducible refine (foldl_blank ?_ _ _).trans ?_; intro s x)
    | (split <;> try (rename_i h; with_reducible rw [Prod.ext_iff] at h; have h' := h.2; dsimp only at h'; subst h'))
    | dsimp only

theorem execRdmaWrite_frame (a0) (a1) (a2) (a3) (s : State) (n : Nat) (hn : n ||| 0x193A05C8E = n) :
    keeps n s (execRdmaWrite a0 a1 a2 a3 s) := by
  refine keeps_mono (m := 0x193A05C8E) ?_ hn
  unfold execRdmaWrite
  repeat' first
    | with_reducible rfl
    | simp only [mk_193A05C8E, takeFree, Nat.reduceOr, apply_ite (blank _), apply_ite (keeps _ s), ite_self, implies_true, foldl_blank, keeps_next, Option.elim, takeReq_frame, sendRoce_frame, rdmaRefuse_frame]
    | (with_reducible refine (foldl_blank ?_ _ _).trans ?_; intro s x)
    | (split <;> try (rename_i h; with_reducible rw [Prod.ext_iff] at h; have h' := h.2; dsimp only at h'; subst h'))
    | dsimp only

theorem execRdmaWriteWithImmediate_frame (a0) (a1) (a2) (a3) (a4) (s : State) (n : Nat) (hn : n ||| 0x193A27C8E = n) :
    keeps n s (execRdmaWriteWithImmediate a0 a1 a2 a3 a4 s) := by
  refine keeps_mono (m := 0x193A27C8E) ?_ hn
  unfold execRdmaWriteWithImmediate
  repeat' first
    | with_reducible rfl
    | simp only [mk_193A27C8E, takeFree, Nat.reduceOr, apply_ite (blank _), apply_ite (keeps _ s), ite_self, implies_true, foldl_blank, keeps_next, Option.elim, takeReq_frame, sendRoce_frame, eachBit_frame, chanAbort_frame, rdmaRefuse_frame]
    | (with_reducible refine (foldl_blank ?_ _ _).trans ?_; intro s x)
    | (split <;> try (rename_i h; with_reducible rw [Prod.ext_iff] at h; have h' := h.2; dsimp only at h'; subst h'))
    | dsimp only

theorem execRead_frame (a0) (a1) (a2) (a3) (a4) (s : State) (n : Nat) (hn : n ||| 0x9F3FFCAF = n) :
    keeps n s (execRead a0 a1 a2 a3 a4 s) := by
  refine keeps_mono (m := 0x9F3FFCAF) ?_ hn
  unfold execRead
  repeat' first
    | with_reducible rfl
    | simp only [mk_9F3FFCAF, takeFree, Nat.reduceOr, apply_ite (blank _), apply_ite (keeps _ s), ite_self, implies_true, foldl_blank, keeps_next, Option.elim, fetched_frame]
    | (with_reducible refine (foldl_blank ?_ _ _).trans ?_; intro s x)
    | (split <;> try (rename_i h; with_reducible rw [Prod.ext_iff] at h; have h' := h.2; dsimp only at h'; subst h'))
    | dsimp only

theorem execRebalance_frame (a0) (s : State) (n : Nat) (hn : n ||| 0x83204C8F = n) :
    keeps n s (execRebalance a0 s) := by
  refine keeps_mono (m := 0x83204C8F) ?_ hn
  unfold execRebalance
  repeat' first
    | with_reducible rfl
    | simp only [mk_83204C8F, takeFree, Nat.reduceOr, apply_ite (blank _), apply_ite (keeps _ s), ite_self, implies_true, foldl_blank, keeps_next, Option.elim, rebalance_frame]
    | (with_reducible refine (foldl_blank ?_ _ _).trans ?_; intro s x)
    | (split <;> try (rename_i h; with_reducible rw [Prod.ext_iff] at h; have h' := h.2; dsimp only at h'; subst h'))
    | dsimp only

theorem execRebuild_frame (s : State) (n : Nat) (hn : n ||| 0x83304C8E = n) :
    keeps n s (execRebuild s) := by
  refine keeps_mono (m := 0x83304C8E) ?_ hn
  unfold execRebuild
  repeat' first
    | with_reducible rfl
    | simp only [mk_83304C8E, takeFree, Nat.reduceOr, apply_ite (blank _), apply_ite (keeps _ s), ite_self, implies_true, foldl_blank, keeps_next, Option.elim, orderTargets_frame, record_frame, modStripe_frame, endRebuild_frame]
    | (with_reducible refine (foldl_blank ?_ _ _).trans ?_; intro s x)
    | (split <;> try (rename_i h; with_reducible rw [Prod.ext_iff] at h; have h' := h.2; dsimp only at h'; subst h'))
    | dsimp only

theorem execRecordClose_frame (a0) (s : State) (n : Nat) (hn : n ||| 0x2000004 = n) :
    keeps n s (execRecordClose a0 s) := by
  refine keeps_mono (m := 0x2000004) ?_ hn
  unfold execRecordClose
  repeat' first
    | with_reducible rfl
    | simp only [mk_2000004, takeFree, Nat.reduceOr, apply_ite (blank _), apply_ite (keeps _ s), ite_self, implies_true, foldl_blank, keeps_next, Option.elim, almClose_frame]
    | (with_reducible refine (foldl_blank ?_ _ _).trans ?_; intro s x)
    | (split <;> try (rename_i h; with_reducible rw [Prod.ext_iff] at h; have h' := h.2; dsimp only at h'; subst h'))
    | dsimp only

theorem execRefreshClass_frame (a0) (a1) (a2) (a3) (a4) (s : State) (n : Nat) (hn : n ||| 0x8F3DECAF = n) :
    keeps n s (execRefreshClass a0 a1 a2 a3 a4 s) := by
  refine keeps_mono (m := 0x8F3DECAF) ?_ hn
  unfold execRefreshClass
  repeat' first
    | with_reducible rfl
    | simp only [mk_8F3DECAF, takeFree, Nat.reduceOr, apply_ite (blank _), apply_ite (keeps _ s), ite_self, implies_true, foldl_blank, keeps_next, Option.elim, eraseFree_frame, relocateBlock_frame, refreshRing_frame, settleRetiring_frame, record_frame, modBlock_frame, recordAlert_frame, endActivity_frame, requestActivity_frame, ledgerFigures_frame]
    | (with_reducible refine (foldl_blank ?_ _ _).trans ?_; intro s x)
    | (split <;> try (rename_i h; with_reducible rw [Prod.ext_iff] at h; have h' := h.2; dsimp only at h'; subst h'))
    | dsimp only

theorem execRegionDeregister_frame (a0) (s : State) (n : Nat) (hn : n ||| 0x83205C8E = n) :
    keeps n s (execRegionDeregister a0 s) := by
  refine keeps_mono (m := 0x83205C8E) ?_ hn
  unfold execRegionDeregister
  repeat' first
    | with_reducible rfl
    | simp only [mk_83205C8E, takeFree, Nat.reduceOr, apply_ite (blank _), apply_ite (keeps _ s), ite_self, implies_true, foldl_blank, keeps_next, Option.elim, regionEnd_frame]
    | (with_reducible refine (foldl_blank ?_ _ _).trans ?_; intro s x)
    | (split <;> try (rename_i h; with_reducible rw [Prod.ext_iff] at h; have h' := h.2; dsimp only at h'; subst h'))
    | dsimp only

theorem execRegionRegister_frame (s : State) (n : Nat) (hn : n ||| 0x83205C8E = n) :
    keeps n s (execRegionRegister s) := by
  refine keeps_mono (m := 0x83205C8E) ?_ hn
  unfold execRegionRegister
  repeat' first
    | with_reducible rfl
    | simp only [mk_83205C8E, takeFree, Nat.reduceOr, apply_ite (blank _), apply_ite (keeps _ s), ite_self, implies_true, foldl_blank, keeps_next, Option.elim, regionGo_frame]
    | (with_reducible refine (foldl_blank ?_ _ _).trans ?_; intro s x)
    | (split <;> try (rename_i h; with_reducible rw [Prod.ext_iff] at h; have h' := h.2; dsimp only at h'; subst h'))
    | dsimp only

theorem execRegionSelect_frame (a0) (s : State) (n : Nat) (hn : n ||| 0x1000000 = n) :
    keeps n s (execRegionSelect a0 s) := by
  refine keeps_mono (m := 0x1000000) ?_ hn
  unfold execRegionSelect
  repeat' first
    | with_reducible rfl
    | simp only [mk_1000000, takeFree, Nat.reduceOr, apply_ite (blank _), apply_ite (keeps _ s), ite_self, implies_true, foldl_blank, keeps_next, Option.elim, regionSelect_frame]
    | (with_reducible refine (foldl_blank ?_ _ _).trans ?_; intro s x)
    | (split <;> try (rename_i h; with_reducible rw [Prod.ext_iff] at h; have h' := h.2; dsimp only at h'; subst h'))
    | dsimp only

theorem execRegionTableChange_frame (a0) (s : State) (n : Nat) (hn : n ||| 0x1000000 = n) :
    keeps n s (execRegionTableChange a0 s) := by
  refine keeps_mono (m := 0x1000000) ?_ hn
  unfold execRegionTableChange
  repeat' first
    | with_reducible rfl
    | simp only [mk_1000000, takeFree, Nat.reduceOr, apply_ite (blank _), apply_ite (keeps _ s), ite_self, implies_true, foldl_blank, keeps_next, Option.elim]
    | (with_reducible refine (foldl_blank ?_ _ _).trans ?_; intro s x)
    | (split <;> try (rename_i h; with_reducible rw [Prod.ext_iff] at h; have h' := h.2; dsimp only at h'; subst h'))
    | dsimp only

theorem execRegisterWrite_frame (a0) (a1) (a2) (s : State) (n : Nat) (hn : n ||| 0xCFFFFFAF = n) :
    keeps n s (execRegisterWrite a0 a1 a2 s) := by
  refine keeps_mono (m := 0xCFFFFFAF) ?_ hn
  unfold execRegisterWrite
  rw [keeps_next]
  refine bar0Word_frame _ _ _ _ _ _ rfl ?_
  intro t
  repeat' first
    | with_reducible rfl
    | simp only [mk_CFFFFFAF, takeFree, Nat.reduceOr, apply_ite (blank _), apply_ite (keeps _ s), ite_self, implies_true, foldl_blank, keeps_next, Option.elim, bar0Word_frame, hostWord_frame]
    | split

theorem execRejoinTimeout_frame (a0) (s : State) (n : Nat) (hn : n ||| 0x83304C8E = n) :
    keeps n s (execRejoinTimeout a0 s) := by
  refine keeps_mono (m := 0x83304C8E) ?_ hn
  unfold execRejoinTimeout
  repeat' first
    | with_reducible rfl
    | simp only [mk_83304C8E, takeFree, Nat.reduceOr, apply_ite (blank _), apply_ite (keeps _ s), ite_self, implies_true, foldl_blank, keeps_next, Option.elim, checkSpare_frame, failSlot_frame]
    | (with_reducible refine (foldl_blank ?_ _ _).trans ?_; intro s x)
    | (split <;> try (rename_i h; with_reducible rw [Prod.ext_iff] at h; have h' := h.2; dsimp only at h'; subst h'))
    | dsimp only

theorem execRelocationSwitch_frame (a0) (s : State) (n : Nat) (hn : n ||| 0x1833C7C8E = n) :
    keeps n s (execRelocationSwitch a0 s) := by
  refine keeps_mono (m := 0x1833C7C8E) ?_ hn
  unfold execRelocationSwitch
  repeat' first
    | with_reducible rfl
    | simp only [mk_1833C7C8E, takeFree, Nat.reduceOr, apply_ite (blank _), apply_ite (keeps _ s), ite_self, implies_true, foldl_blank, keeps_next, Option.elim, settleRetiring_frame, eraseFree_frame, endReloc_frame]
    | (with_reducible refine (foldl_blank ?_ _ _).trans ?_; intro s x)
    | (split <;> try (rename_i h; with_reducible rw [Prod.ext_iff] at h; have h' := h.2; dsimp only at h'; subst h'))
    | dsimp only

theorem execReplDisable_frame (a0) (a1) (s : State) (n : Nat) (hn : n ||| 0x83385C8E = n) :
    keeps n s (execReplDisable a0 a1 s) := by
  refine keeps_mono (m := 0x83385C8E) ?_ hn
  unfold execReplDisable
  repeat' first
    | with_reducible rfl
    | simp only [mk_83385C8E, takeFree, Nat.reduceOr, apply_ite (blank _), apply_ite (keeps _ s), ite_self, implies_true, foldl_blank, keeps_next, Option.elim, replCtlWrite_frame]
    | (with_reducible refine (foldl_blank ?_ _ _).trans ?_; intro s x)
    | (split <;> try (rename_i h; with_reducible rw [Prod.ext_iff] at h; have h' := h.2; dsimp only at h'; subst h'))
    | dsimp only

theorem execReplEnable_frame (a0) (a1) (s : State) (n : Nat) (hn : n ||| 0x83385C8E = n) :
    keeps n s (execReplEnable a0 a1 s) := by
  refine keeps_mono (m := 0x83385C8E) ?_ hn
  unfold execReplEnable
  repeat' first
    | with_reducible rfl
    | simp only [mk_83385C8E, takeFree, Nat.reduceOr, apply_ite (blank _), apply_ite (keeps _ s), ite_self, implies_true, foldl_blank, keeps_next, Option.elim, replCtlWrite_frame]
    | (with_reducible refine (foldl_blank ?_ _ _).trans ?_; intro s x)
    | (split <;> try (rename_i h; with_reducible rw [Prod.ext_iff] at h; have h' := h.2; dsimp only at h'; subst h'))
    | dsimp only

theorem execReplReconnect_frame (a0) (s : State) (n : Nat) (hn : n ||| 0x83205C8E = n) :
    keeps n s (execReplReconnect a0 s) := by
  refine keeps_mono (m := 0x83205C8E) ?_ hn
  unfold execReplReconnect
  repeat' first
    | with_reducible rfl
    | simp only [mk_83205C8E, takeFree, Nat.reduceOr, apply_ite (blank _), apply_ite (keeps _ s), ite_self, implies_true, foldl_blank, keeps_next, Option.elim, connectLink_frame]
    | (with_reducible refine (foldl_blank ?_ _ _).trans ?_; intro s x)
    | (split <;> try (rename_i h; with_reducible rw [Prod.ext_iff] at h; have h' := h.2; dsimp only at h'; subst h'))
    | dsimp only

theorem execReplicationCut_frame (a0) (a1) (a2) (s : State) (n : Nat) (hn : n ||| 0x8F3DFCAF = n) :
    keeps n s (execReplicationCut a0 a1 a2 s) := by
  refine keeps_mono (m := 0x8F3DFCAF) ?_ hn
  unfold execReplicationCut
  repeat' first
    | with_reducible rfl
    | simp only [mk_8F3DFCAF, takeFree, Nat.reduceOr, apply_ite (blank _), apply_ite (keeps _ s), ite_self, implies_true, foldl_blank, keeps_next, Option.elim, shipBatch_frame, takeCut_frame]
    | (with_reducible refine (foldl_blank ?_ _ _).trans ?_; intro s x)
    | (split <;> try (rename_i h; with_reducible rw [Prod.ext_iff] at h; have h' := h.2; dsimp only at h'; subst h'))
    | dsimp only

theorem execReplicationRecord_frame (a0) (a1) (s : State) (n : Nat) (hn : n ||| 0x183A05C8E = n) :
    keeps n s (execReplicationRecord a0 a1 s) := by
  refine keeps_mono (m := 0x183A05C8E) ?_ hn
  unfold execReplicationRecord
  dsimp only
  split
  · split
    · exact replReject_frame _ _ _ rfl
    · split
      · exact replReject_frame _ _ _ rfl
      · rw [keeps_next, modLink_frame _ _ _ _ rfl, busy_frame _ _ rfl]
  · rfl

theorem execResetQueue_frame (a0) (a1) (a2) (s : State) (n : Nat) (hn : n ||| 0x9F3FFCAF = n) :
    keeps n s (execResetQueue a0 a1 a2 s) := by
  refine keeps_mono (m := 0x9F3FFCAF) ?_ hn
  unfold execResetQueue
  repeat' first
    | with_reducible rfl
    | simp only [mk_9F3FFCAF, takeFree, Nat.reduceOr, apply_ite (blank _), apply_ite (keeps _ s), ite_self, implies_true, foldl_blank, keeps_next, Option.elim, fetched_frame]
    | (with_reducible refine (foldl_blank ?_ _ _).trans ?_; intro s x)
    | (split <;> try (rename_i h; with_reducible rw [Prod.ext_iff] at h; have h' := h.2; dsimp only at h'; subst h'))
    | dsimp only

theorem execReshape_frame (a0) (s : State) (n : Nat) (hn : n ||| 0x18F3DFCAF = n) :
    keeps n s (execReshape a0 s) := by
  refine keeps_mono (m := 0x18F3DFCAF) ?_ hn
  unfold execReshape
  repeat' first
    | with_reducible rfl
    | simp only [mk_18F3DFCAF, takeFree, Nat.reduceOr, apply_ite (blank _), apply_ite (keeps _ s), ite_self, implies_true, foldl_blank, keeps_next, Option.elim, nextVolume_frame, copyShadow_frame, switchVolume_frame, reshapeOver_frame, leaveStream_frame, relocateStripe_frame]
    | (with_reducible refine (foldl_blank ?_ _ _).trans ?_; intro s x)
    | (split <;> try (rename_i h; with_reducible rw [Prod.ext_iff] at h; have h' := h.2; dsimp only at h'; subst h'))
    | dsimp only

theorem execReshapeCancel_frame (s : State) (n : Nat) (hn : n ||| 0x83384C8E = n) :
    keeps n s (execReshapeCancel s) := by
  refine keeps_mono (m := 0x83384C8E) ?_ hn
  unfold execReshapeCancel
  repeat' first
    | with_reducible rfl
    | simp only [mk_83384C8E, takeFree, Nat.reduceOr, apply_ite (blank _), apply_ite (keeps _ s), ite_self, implies_true, foldl_blank, keeps_next, Option.elim, reshapeCancel_frame]
    | (with_reducible refine (foldl_blank ?_ _ _).trans ?_; intro s x)
    | (split <;> try (rename_i h; with_reducible rw [Prod.ext_iff] at h; have h' := h.2; dsimp only at h'; subst h'))
    | dsimp only

theorem execReshapeStart_frame (s : State) (n : Nat) (hn : n ||| 0x83384C8E = n) :
    keeps n s (execReshapeStart s) := by
  refine keeps_mono (m := 0x83384C8E) ?_ hn
  unfold execReshapeStart
  repeat' first
    | with_reducible rfl
    | simp only [mk_83384C8E, takeFree, Nat.reduceOr, apply_ite (blank _), apply_ite (keeps _ s), ite_self, implies_true, foldl_blank, keeps_next, Option.elim, reshapeStart_frame]
    | (with_reducible refine (foldl_blank ?_ _ _).trans ?_; intro s x)
    | (split <;> try (rename_i h; with_reducible rw [Prod.ext_iff] at h; have h' := h.2; dsimp only at h'; subst h'))
    | dsimp only

theorem execResumeIssue_frame (a0) (a1) (s : State) (n : Nat) (hn : n ||| 0x80040000 = n) :
    keeps n s (execResumeIssue a0 a1 s) := by
  refine keeps_mono (m := 0x80040000) ?_ hn
  unfold execResumeIssue
  repeat' first
    | with_reducible rfl
    | simp only [mk_80040000, takeFree, Nat.reduceOr, apply_ite (blank _), apply_ite (keeps _ s), ite_self, implies_true, foldl_blank, keeps_next, Option.elim, dmlIssue_frame]
    | (with_reducible refine (foldl_blank ?_ _ _).trans ?_; intro s x)
    | (split <;> try (rename_i h; with_reducible rw [Prod.ext_iff] at h; have h' := h.2; dsimp only at h'; subst h'))
    | dsimp only

theorem execResync_frame (s : State) (n : Nat) (hn : n ||| 0x83304C8E = n) :
    keeps n s (execResync s) := by
  refine keeps_mono (m := 0x83304C8E) ?_ hn
  unfold execResync
  repeat' first
    | with_reducible rfl
    | simp only [mk_83304C8E, takeFree, Nat.reduceOr, apply_ite (blank _), apply_ite (keeps _ s), ite_self, implies_true, foldl_blank, keeps_next, Option.elim, endActivity_frame, record_frame]
    | (with_reducible refine (foldl_blank ?_ _ _).trans ?_; intro s x)
    | (split <;> try (rename_i h; with_reducible rw [Prod.ext_iff] at h; have h' := h.2; dsimp only at h'; subst h'))
    | dsimp only

theorem execRetain_frame (a0) (a1) (a2) (s : State) (n : Nat) (hn : n ||| 0x9F3FFCAF = n) :
    keeps n s (execRetain a0 a1 a2 s) := by
  refine keeps_mono (m := 0x9F3FFCAF) ?_ hn
  unfold execRetain
  repeat' first
    | with_reducible rfl
    | simp only [mk_9F3FFCAF, takeFree, Nat.reduceOr, apply_ite (blank _), apply_ite (keeps _ s), ite_self, implies_true, foldl_blank, keeps_next, Option.elim, fetched_frame]
    | (with_reducible refine (foldl_blank ?_ _ _).trans ?_; intro s x)
    | (split <;> try (rename_i h; with_reducible rw [Prod.ext_iff] at h; have h' := h.2; dsimp only at h'; subst h'))
    | dsimp only

theorem execRfm_frame (a0) (a1) (a2) (s : State) (n : Nat) (hn : n ||| 0x80400000 = n) :
    keeps n s (execRfm a0 a1 a2 s) := by
  refine keeps_mono (m := 0x80400000) ?_ hn
  unfold execRfm
  repeat' first
    | with_reducible rfl
    | simp only [mk_80400000, takeFree, Nat.reduceOr, apply_ite (blank _), apply_ite (keeps _ s), ite_self, implies_true, foldl_blank, keeps_next, Option.elim, emit_frame, closeRow_frame, modChan_frame]
    | (with_reducible refine (foldl_blank ?_ _ _).trans ?_; intro s x)
    | (split <;> try (rename_i h; with_reducible rw [Prod.ext_iff] at h; have h' := h.2; dsimp only at h'; subst h'))
    | dsimp only

theorem execRhThrottle_frame (a0) (a1) (a2) (a3) (s : State) (n : Nat) (hn : n ||| 0x83604C8E = n) :
    keeps n s (execRhThrottle a0 a1 a2 a3 s) := by
  refine keeps_mono (m := 0x83604C8E) ?_ hn
  unfold execRhThrottle
  repeat' first
    | with_reducible rfl
    | simp only [mk_83604C8E, takeFree, Nat.reduceOr, apply_ite (blank _), apply_ite (keeps _ s), ite_self, implies_true, foldl_blank, keeps_next, Option.elim, dramServe_frame, dramArrive_frame]
    | (with_reducible refine (foldl_blank ?_ _ _).trans ?_; intro s x)
    | (split <;> try (rename_i h; with_reducible rw [Prod.ext_iff] at h; have h' := h.2; dsimp only at h'; subst h'))
    | dsimp only

theorem execRhWindowEnd_frame (a0) (a1) (s : State) (n : Nat) (hn : n ||| 0x83604C8E = n) :
    keeps n s (execRhWindowEnd a0 a1 s) := by
  refine keeps_mono (m := 0x83604C8E) ?_ hn
  unfold execRhWindowEnd
  repeat' first
    | with_reducible rfl
    | simp only [mk_83604C8E, takeFree, Nat.reduceOr, apply_ite (blank _), apply_ite (keeps _ s), ite_self, implies_true, foldl_blank, keeps_next, Option.elim, dramServe_frame, rhFresh_frame]
    | (with_reducible refine (foldl_blank ?_ _ _).trans ?_; intro s x)
    | (split <;> try (rename_i h; with_reducible rw [Prod.ext_iff] at h; have h' := h.2; dsimp only at h'; subst h'))
    | dsimp only

theorem execRideThroughExpiry_frame (s : State) (n : Nat) (hn : n ||| 0x8BB06C8F = n) :
    keeps n s (execRideThroughExpiry s) := by
  refine keeps_mono (m := 0x8BB06C8F) ?_ hn
  unfold execRideThroughExpiry
  repeat' first
    | with_reducible rfl
    | simp only [mk_8BB06C8F, takeFree, Nat.reduceOr, apply_ite (blank _), apply_ite (keeps _ s), ite_self, implies_true, foldl_blank, keeps_next, Option.elim, flushCommit_frame]
    | (with_reducible refine (foldl_blank ?_ _ _).trans ?_; intro s x)
    | (split <;> try (rename_i h; with_reducible rw [Prod.ext_iff] at h; have h' := h.2; dsimp only at h'; subst h'))
    | dsimp only

theorem execRowClose_frame (a0) (a1) (s : State) (n : Nat) (hn : n ||| 0x80400000 = n) :
    keeps n s (execRowClose a0 a1 s) := by
  refine keeps_mono (m := 0x80400000) ?_ hn
  unfold execRowClose
  repeat' first
    | with_reducible rfl
    | simp only [mk_80400000, takeFree, Nat.reduceOr, apply_ite (blank _), apply_ite (keeps _ s), ite_self, implies_true, foldl_blank, keeps_next, Option.elim, closeRow_frame]
    | (with_reducible refine (foldl_blank ?_ _ _).trans ?_; intro s x)
    | (split <;> try (rename_i h; with_reducible rw [Prod.ext_iff] at h; have h' := h.2; dsimp only at h'; subst h'))
    | dsimp only

theorem execScheduledExit_frame (s : State) (n : Nat) (hn : n ||| 0x80800482 = n) :
    keeps n s (execScheduledExit s) := by
  refine keeps_mono (m := 0x80800482) ?_ hn
  unfold execScheduledExit
  repeat' first
    | with_reducible rfl
    | simp only [mk_80800482, takeFree, Nat.reduceOr, apply_ite (blank _), apply_ite (keeps _ s), ite_self, implies_true, foldl_blank, keeps_next, Option.elim, exitIdle_frame]
    | (with_reducible refine (foldl_blank ?_ _ _).trans ?_; intro s x)
    | (split <;> try (rename_i h; with_reducible rw [Prod.ext_iff] at h; have h' := h.2; dsimp only at h'; subst h'))
    | dsimp only

theorem execSeedInsert_frame (a0) (a1) (s : State) (n : Nat) (hn : n ||| 0x80206002 = n) :
    keeps n s (execSeedInsert a0 a1 s) := by
  refine keeps_mono (m := 0x80206002) ?_ hn
  unfold execSeedInsert
  repeat' first
    | with_reducible rfl
    | simp only [mk_80206002, takeFree, Nat.reduceOr, apply_ite (blank _), apply_ite (keeps _ s), ite_self, implies_true, foldl_blank, keeps_next, Option.elim, notIndexed_frame, putShare_frame, modJob_frame, putSeed_frame]
    | (with_reducible refine (foldl_blank ?_ _ _).trans ?_; intro s x)
    | (split <;> try (rename_i h; with_reducible rw [Prod.ext_iff] at h; have h' := h.2; dsimp only at h'; subst h'))
    | dsimp only

theorem execSeedLookup_frame (a0) (a1) (s : State) (n : Nat) (hn : n ||| 0x83206C8E = n) :
    keeps n s (execSeedLookup a0 a1 s) := by
  refine keeps_mono (m := 0x83206C8E) ?_ hn
  unfold execSeedLookup
  repeat' first
    | with_reducible rfl
    | simp only [mk_83206C8E, takeFree, Nat.reduceOr, apply_ite (blank _), apply_ite (keeps _ s), ite_self, implies_true, foldl_blank, keeps_next, Option.elim, modJob_frame, noteSaturated_frame, putSeed_frame, acceptHit_frame]
    | (with_reducible refine (foldl_blank ?_ _ _).trans ?_; intro s x)
    | (split <;> try (rename_i h; with_reducible rw [Prod.ext_iff] at h; have h' := h.2; dsimp only at h'; subst h'))
    | dsimp only

theorem execSeedSplit_frame (a0) (s : State) (n : Nat) (hn : n ||| 0x83306C8E = n) :
    keeps n s (execSeedSplit a0 s) := by
  refine keeps_mono (m := 0x83306C8E) ?_ hn
  unfold execSeedSplit
  repeat' first
    | with_reducible rfl
    | simp only [mk_83306C8E, takeFree, Nat.reduceOr, apply_ite (blank _), apply_ite (keeps _ s), ite_self, implies_true, foldl_blank, keeps_next, Option.elim, requestActivity_frame, record_frame, splitRecord_frame, endActivity_frame]
    | (with_reducible refine (foldl_blank ?_ _ _).trans ?_; intro s x)
    | (split <;> try (rename_i h; with_reducible rw [Prod.ext_iff] at h; have h' := h.2; dsimp only at h'; subst h'))
    | dsimp only

theorem execSelfTest_frame (a0) (a1) (a2) (a3) (s : State) (n : Nat) (hn : n ||| 0x18F3C7CAF = n) :
    keeps n s (execSelfTest a0 a1 a2 a3 s) := by
  refine keeps_mono (m := 0x18F3C7CAF) ?_ hn
  unfold execSelfTest
  repeat' first
    | with_reducible rfl
    | simp only [mk_18F3C7CAF, takeFree, Nat.reduceOr, apply_ite (blank _), apply_ite (keeps _ s), ite_self, implies_true, foldl_blank, keeps_next, Option.elim, record_frame, lastingOutcome_frame, modCtl_frame, releasePort_frame]
    | (with_reducible refine (foldl_blank ?_ _ _).trans ?_; intro s x)
    | (split <;> try (rename_i h; with_reducible rw [Prod.ext_iff] at h; have h' := h.2; dsimp only at h'; subst h'))
    | dsimp only

theorem execSelfTestStart_frame (s : State) (n : Nat) (hn : n ||| 0x833C4C8E = n) :
    keeps n s (execSelfTestStart s) := by
  refine keeps_mono (m := 0x833C4C8E) ?_ hn
  unfold execSelfTestStart
  repeat' first
    | with_reducible rfl
    | simp only [mk_833C4C8E, takeFree, Nat.reduceOr, apply_ite (blank _), apply_ite (keeps _ s), ite_self, implies_true, foldl_blank, keeps_next, Option.elim, laneDown_frame, setCtl_frame]
    | (with_reducible refine (foldl_blank ?_ _ _).trans ?_; intro s x)
    | (split <;> try (rename_i h; with_reducible rw [Prod.ext_iff] at h; have h' := h.2; dsimp only at h'; subst h'))
    | dsimp only

theorem execSetPeriod_frame (a0) (a1) (a2) (s : State) (n : Nat) (hn : n ||| 0x9F3FFCAF = n) :
    keeps n s (execSetPeriod a0 a1 a2 s) := by
  refine keeps_mono (m := 0x9F3FFCAF) ?_ hn
  unfold execSetPeriod
  repeat' first
    | with_reducible rfl
    | simp only [mk_9F3FFCAF, takeFree, Nat.reduceOr, apply_ite (blank _), apply_ite (keeps _ s), ite_self, implies_true, foldl_blank, keeps_next, Option.elim, fetched_frame]
    | (with_reducible refine (foldl_blank ?_ _ _).trans ?_; intro s x)
    | (split <;> try (rename_i h; with_reducible rw [Prod.ext_iff] at h; have h' := h.2; dsimp only at h'; subst h'))
    | dsimp only

theorem execSetTime_frame (a0) (a1) (a2) (s : State) (n : Nat) (hn : n ||| 0x9F3FFCAF = n) :
    keeps n s (execSetTime a0 a1 a2 s) := by
  refine keeps_mono (m := 0x9F3FFCAF) ?_ hn
  unfold execSetTime
  repeat' first
    | with_reducible rfl
    | simp only [mk_9F3FFCAF, takeFree, Nat.reduceOr, apply_ite (blank _), apply_ite (keeps _ s), ite_self, implies_true, foldl_blank, keeps_next, Option.elim, fetched_frame]
    | (with_reducible refine (foldl_blank ?_ _ _).trans ?_; intro s x)
    | (split <;> try (rename_i h; with_reducible rw [Prod.ext_iff] at h; have h' := h.2; dsimp only at h'; subst h'))
    | dsimp only

theorem execSlotEnFollow_frame (a0) (s : State) (n : Nat) (hn : n ||| 0x800000 = n) :
    keeps n s (execSlotEnFollow a0 s) := by
  refine keeps_mono (m := 0x800000) ?_ hn
  unfold execSlotEnFollow
  repeat' first
    | with_reducible rfl
    | simp only [mk_800000, takeFree, Nat.reduceOr, apply_ite (blank _), apply_ite (keeps _ s), ite_self, implies_true, foldl_blank, keeps_next, Option.elim, modSlotPwr_frame]
    | (with_reducible refine (foldl_blank ?_ _ _).trans ?_; intro s x)
    | (split <;> try (rename_i h; with_reducible rw [Prod.ext_iff] at h; have h' := h.2; dsimp only at h'; subst h'))
    | dsimp only

theorem execSlotOffWrite_frame (a0) (a1) (s : State) (n : Nat) (hn : n ||| 0x83A04E8E = n) :
    keeps n s (execSlotOffWrite a0 a1 s) := by
  refine keeps_mono (m := 0x83A04E8E) ?_ hn
  unfold execSlotOffWrite
  repeat' first
    | with_reducible rfl
    | simp only [mk_83A04E8E, takeFree, Nat.reduceOr, apply_ite (blank _), apply_ite (keeps _ s), ite_self, implies_true, foldl_blank, keeps_next, Option.elim, regWrite_frame, dropStage_frame, slotOffWrite_frame]
    | (with_reducible refine (foldl_blank ?_ _ _).trans ?_; intro s x)
    | (split <;> try (rename_i h; with_reducible rw [Prod.ext_iff] at h; have h' := h.2; dsimp only at h'; subst h'))
    | dsimp only

theorem execSlotPowerFail_frame (a0) (s : State) (n : Nat) (hn : n ||| 0x83BC4C8E = n) :
    keeps n s (execSlotPowerFail a0 s) := by
  refine keeps_mono (m := 0x83BC4C8E) ?_ hn
  unfold execSlotPowerFail
  repeat' first
    | with_reducible rfl
    | simp only [mk_83BC4C8E, takeFree, Nat.reduceOr, apply_ite (blank _), apply_ite (keeps _ s), ite_self, implies_true, foldl_blank, keeps_next, Option.elim, slotDark_frame, modSlotPwr_frame, record_frame]
    | (with_reducible refine (foldl_blank ?_ _ _).trans ?_; intro s x)
    | (split <;> try (rename_i h; with_reducible rw [Prod.ext_iff] at h; have h' := h.2; dsimp only at h'; subst h'))
    | dsimp only

theorem execSlotPowerOff_frame (a0) (s : State) (n : Nat) (hn : n ||| 0x83BC4C8E = n) :
    keeps n s (execSlotPowerOff a0 s) := by
  refine keeps_mono (m := 0x83BC4C8E) ?_ hn
  unfold execSlotPowerOff
  repeat' first
    | with_reducible rfl
    | simp only [mk_83BC4C8E, takeFree, Nat.reduceOr, apply_ite (blank _), apply_ite (keeps _ s), ite_self, implies_true, foldl_blank, keeps_next, Option.elim, modSlotPwr_frame, sendPower_frame, record_frame, slotDark_frame]
    | (with_reducible refine (foldl_blank ?_ _ _).trans ?_; intro s x)
    | (split <;> try (rename_i h; with_reducible rw [Prod.ext_iff] at h; have h' := h.2; dsimp only at h'; subst h'))
    | dsimp only

theorem execSlotPowerOn_frame (a0) (s : State) (n : Nat) (hn : n ||| 0x183A05C8E = n) :
    keeps n s (execSlotPowerOn a0 s) := by
  refine keeps_mono (m := 0x183A05C8E) ?_ hn
  unfold execSlotPowerOn
  repeat' first
    | with_reducible rfl
    | simp only [mk_183A05C8E, takeFree, Nat.reduceOr, apply_ite (blank _), apply_ite (keeps _ s), ite_self, implies_true, foldl_blank, keeps_next, Option.elim, turnOn_frame]
    | (with_reducible refine (foldl_blank ?_ _ _).trans ?_; intro s x)
    | (split <;> try (rename_i h; with_reducible rw [Prod.ext_iff] at h; have h' := h.2; dsimp only at h'; subst h'))
    | dsimp only

theorem execSlotPowerRetry_frame (a0) (s : State) (n : Nat) (hn : n ||| 0x183A05C8E = n) :
    keeps n s (execSlotPowerRetry a0 s) := by
  refine keeps_mono (m := 0x183A05C8E) ?_ hn
  unfold execSlotPowerRetry
  repeat' first
    | with_reducible rfl
    | simp only [mk_183A05C8E, takeFree, Nat.reduceOr, apply_ite (blank _), apply_ite (keeps _ s), ite_self, implies_true, foldl_blank, keeps_next, Option.elim, turnOn_frame]
    | (with_reducible refine (foldl_blank ?_ _ _).trans ?_; intro s x)
    | (split <;> try (rename_i h; with_reducible rw [Prod.ext_iff] at h; have h' := h.2; dsimp only at h'; subst h'))
    | dsimp only

theorem execSnapDelete_frame (a0) (a1) (a2) (s : State) (n : Nat) (hn : n ||| 0x9F3FFCAF = n) :
    keeps n s (execSnapDelete a0 a1 a2 s) := by
  refine keeps_mono (m := 0x9F3FFCAF) ?_ hn
  unfold execSnapDelete
  repeat' first
    | with_reducible rfl
    | simp only [mk_9F3FFCAF, takeFree, Nat.reduceOr, apply_ite (blank _), apply_ite (keeps _ s), ite_self, implies_true, foldl_blank, keeps_next, Option.elim, fetched_frame]
    | (with_reducible refine (foldl_blank ?_ _ _).trans ?_; intro s x)
    | (split <;> try (rename_i h; with_reducible rw [Prod.ext_iff] at h; have h' := h.2; dsimp only at h'; subst h'))
    | dsimp only

theorem execSnapshot_frame (a0) (a1) (a2) (s : State) (n : Nat) (hn : n ||| 0x9F3FFCAF = n) :
    keeps n s (execSnapshot a0 a1 a2 s) := by
  refine keeps_mono (m := 0x9F3FFCAF) ?_ hn
  unfold execSnapshot
  repeat' first
    | with_reducible rfl
    | simp only [mk_9F3FFCAF, takeFree, Nat.reduceOr, apply_ite (blank _), apply_ite (keeps _ s), ite_self, implies_true, foldl_blank, keeps_next, Option.elim, fetched_frame]
    | (with_reducible refine (foldl_blank ?_ _ _).trans ?_; intro s x)
    | (split <;> try (rename_i h; with_reducible rw [Prod.ext_iff] at h; have h' := h.2; dsimp only at h'; subst h'))
    | dsimp only

theorem execSnapshotFreeze_frame (a0) (a1) (s : State) (n : Nat) (hn : n ||| 0x83384C8E = n) :
    keeps n s (execSnapshotFreeze a0 a1 s) := by
  refine keeps_mono (m := 0x83384C8E) ?_ hn
  unfold execSnapshotFreeze
  repeat' first
    | with_reducible rfl
    | simp only [mk_83384C8E, takeFree, Nat.reduceOr, apply_ite (blank _), apply_ite (keeps _ s), ite_self, implies_true, foldl_blank, keeps_next, Option.elim, modVol_frame, noteMapChange_frame, sendDelta_frame, record_frame, resumeDiscards_frame, endCmd_frame]
    | (with_reducible refine (foldl_blank ?_ _ _).trans ?_; intro s x)
    | (split <;> try (rename_i h; with_reducible rw [Prod.ext_iff] at h; have h' := h.2; dsimp only at h'; subst h'))
    | dsimp only

theorem execSnapshotDeleted_frame (a0) (a1) (s : State) (n : Nat) (hn : n ||| 0x83384C8E = n) :
    keeps n s (execSnapshotDeleted a0 a1 s) := by
  refine keeps_mono (m := 0x83384C8E) ?_ hn
  unfold execSnapshotDeleted
  repeat' first
    | with_reducible rfl
    | simp only [mk_83384C8E, takeFree, Nat.reduceOr, apply_ite (blank _), apply_ite (keeps _ s), ite_self, implies_true, foldl_blank, keeps_next, Option.elim, dropVersion_frame, record_frame]
    | (with_reducible refine (foldl_blank ?_ _ _).trans ?_; intro s x)
    | (split <;> try (rename_i h; with_reducible rw [Prod.ext_iff] at h; have h' := h.2; dsimp only at h'; subst h'))
    | dsimp only

theorem execSplitDelayExpiry_frame (s : State) (n : Nat) (hn : n ||| 0x80240000 = n) :
    keeps n s (execSplitDelayExpiry s) := by
  refine keeps_mono (m := 0x80240000) ?_ hn
  unfold execSplitDelayExpiry
  repeat' first
    | with_reducible rfl
    | simp only [mk_80240000, takeFree, Nat.reduceOr, apply_ite (blank _), apply_ite (keeps _ s), ite_self, implies_true, foldl_blank, keeps_next, Option.elim, sendFences_frame]
    | (with_reducible refine (foldl_blank ?_ _ _).trans ?_; intro s x)
    | (split <;> try (rename_i h; with_reducible rw [Prod.ext_iff] at h; have h' := h.2; dsimp only at h'; subst h'))
    | dsimp only

theorem execStageCfg_frame (s : State) (n : Nat) (hn : n ||| 0x4000000 = n) :
    keeps n s (execStageCfg s) := by
  refine keeps_mono (m := 0x4000000) ?_ hn
  unfold execStageCfg
  repeat' first
    | with_reducible rfl
    | simp only [mk_4000000, takeFree, Nat.reduceOr, apply_ite (blank _), apply_ite (keeps _ s), ite_self, implies_true, foldl_blank, keeps_next, Option.elim, stageCfg_frame, updTouched_frame]
    | (with_reducible refine (foldl_blank ?_ _ _).trans ?_; intro s x)
    | (split <;> try (rename_i h; with_reducible rw [Prod.ext_iff] at h; have h' := h.2; dsimp only at h'; subst h'))
    | dsimp only

theorem execStageFw_frame (a0) (s : State) (n : Nat) (hn : n ||| 0x4000000 = n) :
    keeps n s (execStageFw a0 s) := by
  refine keeps_mono (m := 0x4000000) ?_ hn
  unfold execStageFw
  repeat' first
    | with_reducible rfl
    | simp only [mk_4000000, takeFree, Nat.reduceOr, apply_ite (blank _), apply_ite (keeps _ s), ite_self, implies_true, foldl_blank, keeps_next, Option.elim, stageFw_frame, updTouched_frame]
    | (with_reducible refine (foldl_blank ?_ _ _).trans ?_; intro s x)
    | (split <;> try (rename_i h; with_reducible rw [Prod.ext_iff] at h; have h' := h.2; dsimp only at h'; subst h'))
    | dsimp only

theorem execStaged_frame (a0) (a1) (s : State) (n : Nat) (hn : n ||| 0x1BFFFFFFF = n) :
    keeps n s (execStaged a0 a1 s) := by
  refine keeps_mono (m := 0x1BFFFFFFF) ?_ hn
  unfold execStaged
  repeat' first
    | with_reducible rfl
    | simp only [mk_1BFFFFFFF, takeFree, Nat.reduceOr, apply_ite (blank _), apply_ite (keeps _ s), ite_self, implies_true, foldl_blank, keeps_next, Option.elim, stageFailed_frame, norErase_frame, norWrite_frame, endStageFw_frame, endStageCfg_frame]
    | (with_reducible refine (foldl_blank ?_ _ _).trans ?_; intro s x)
    | (split <;> try (rename_i h; with_reducible rw [Prod.ext_iff] at h; have h' := h.2; dsimp only at h'; subst h'))
    | dsimp only

theorem execStagingTimeout_frame (s : State) (n : Nat) (hn : n ||| 0x4000000 = n) :
    keeps n s (execStagingTimeout s) := by
  refine keeps_mono (m := 0x4000000) ?_ hn
  unfold execStagingTimeout
  repeat' first
    | with_reducible rfl
    | simp only [mk_4000000, takeFree, Nat.reduceOr, apply_ite (blank _), apply_ite (keeps _ s), ite_self, implies_true, foldl_blank, keeps_next, Option.elim, releaseBuffer_frame]
    | (with_reducible refine (foldl_blank ?_ _ _).trans ?_; intro s x)
    | (split <;> try (rename_i h; with_reducible rw [Prod.ext_iff] at h; have h' := h.2; dsimp only at h'; subst h'))
    | dsimp only

theorem execStartDone_frame (a0) (s : State) (n : Nat) (hn : n ||| 0x18F3C6CAF = n) :
    keeps n s (execStartDone a0 s) := by
  refine keeps_mono (m := 0x18F3C6CAF) ?_ hn
  unfold execStartDone
  repeat' first
    | with_reducible rfl
    | simp only [mk_18F3C6CAF, takeFree, Nat.reduceOr, apply_ite (blank _), apply_ite (keeps _ s), ite_self, implies_true, foldl_blank, keeps_next, Option.elim, noteMedia_frame, enterReady_frame, xhlSend_frame, rebudget_frame]
    | (with_reducible refine (foldl_blank ?_ _ _).trans ?_; intro s x)
    | (split <;> try (rename_i h; with_reducible rw [Prod.ext_iff] at h; have h' := h.2; dsimp only at h'; subst h'))
    | dsimp only

theorem execStartFenceRetry_frame (s : State) (n : Nat) (hn : n ||| 0x80240000 = n) :
    keeps n s (execStartFenceRetry s) := by
  refine keeps_mono (m := 0x80240000) ?_ hn
  unfold execStartFenceRetry
  repeat' first
    | with_reducible rfl
    | simp only [mk_80240000, takeFree, Nat.reduceOr, apply_ite (blank _), apply_ite (keeps _ s), ite_self, implies_true, foldl_blank, keeps_next, Option.elim, sendFences_frame]
    | (with_reducible refine (foldl_blank ?_ _ _).trans ?_; intro s x)
    | (split <;> try (rename_i h; with_reducible rw [Prod.ext_iff] at h; have h' := h.2; dsimp only at h'; subst h'))
    | dsimp only

theorem execStripeClose_frame (a0) (s : State) (n : Nat) (hn : n ||| 0x80140000 = n) :
    keeps n s (execStripeClose a0 s) := by
  refine keeps_mono (m := 0x80140000) ?_ hn
  unfold execStripeClose
  repeat' first
    | with_reducible rfl
    | simp only [mk_80140000, takeFree, Nat.reduceOr, apply_ite (blank _), apply_ite (keeps _ s), ite_self, implies_true, foldl_blank, keeps_next, Option.elim, closeStripe_frame]
    | (with_reducible refine (foldl_blank ?_ _ _).trans ?_; intro s x)
    | (split <;> try (rename_i h; with_reducible rw [Prod.ext_iff] at h; have h' := h.2; dsimp only at h'; subst h'))
    | dsimp only

theorem execStripeComplete_frame (a0) (s : State) (n : Nat) (hn : n ||| 0x833C4C8E = n) :
    keeps n s (execStripeComplete a0 s) := by
  refine keeps_mono (m := 0x833C4C8E) ?_ hn
  unfold execStripeComplete
  repeat' first
    | with_reducible rfl
    | simp only [mk_833C4C8E, takeFree, Nat.reduceOr, apply_ite (blank _), apply_ite (keeps _ s), ite_self, implies_true, foldl_blank, keeps_next, Option.elim, eraseFree_frame, modStripe_frame, checkSpare_frame, noteMapChange_frame]
    | (with_reducible refine (foldl_blank ?_ _ _).trans ?_; intro s x)
    | (split <;> try (rename_i h; with_reducible rw [Prod.ext_iff] at h; have h' := h.2; dsimp only at h'; subst h'))
    | dsimp only

theorem execStripeRebuilt_frame (a0) (a1) (a2) (s : State) (n : Nat) (hn : n ||| 0x8F3DECAF = n) :
    keeps n s (execStripeRebuilt a0 a1 a2 s) := by
  refine keeps_mono (m := 0x8F3DECAF) ?_ hn
  unfold execStripeRebuilt
  repeat' first
    | with_reducible rfl
    | simp only [mk_8F3DECAF, takeFree, Nat.reduceOr, apply_ite (blank _), apply_ite (keeps _ s), ite_self, implies_true, foldl_blank, keeps_next, Option.elim, endRebuild_frame, dropTargets_frame, modStripe_frame, staleMeta_frame, loseMissing_frame, relocateObject_frame, loseObject_frame, moveStrip_frame, checkSpare_frame, settleRetiring_frame, noteMapChange_frame]
    | (with_reducible refine (foldl_blank ?_ _ _).trans ?_; intro s x)
    | (split <;> try (rename_i h; with_reducible rw [Prod.ext_iff] at h; have h' := h.2; dsimp only at h'; subst h'))
    | dsimp only

theorem execStripeResync_frame (a0) (s : State) (n : Nat) (hn : n ||| 0x8F3D6CAF = n) :
    keeps n s (execStripeResync a0 s) := by
  refine keeps_mono (m := 0x8F3D6CAF) ?_ hn
  unfold execStripeResync
  repeat' first
    | with_reducible rfl
    | simp only [mk_8F3D6CAF, takeFree, Nat.reduceOr, apply_ite (blank _), apply_ite (keeps _ s), ite_self, implies_true, foldl_blank, keeps_next, Option.elim, checkStripe_frame, modStripe_frame]
    | (with_reducible refine (foldl_blank ?_ _ _).trans ?_; intro s x)
    | (split <;> try (rename_i h; with_reducible rw [Prod.ext_iff] at h; have h' := h.2; dsimp only at h'; subst h'))
    | dsimp only

theorem execSupervisorDivergence_frame (s : State) (n : Nat) (hn : n ||| 0x8F206CAF = n) :
    keeps n s (execSupervisorDivergence s) := by
  refine keeps_mono (m := 0x8F206CAF) ?_ hn
  unfold execSupervisorDivergence
  repeat' first
    | with_reducible rfl
    | simp only [mk_8F206CAF, takeFree, Nat.reduceOr, apply_ite (blank _), apply_ite (keeps _ s), ite_self, implies_true, foldl_blank, keeps_next, Option.elim, failstop_frame]
    | (with_reducible refine (foldl_blank ?_ _ _).trans ?_; intro s x)
    | (split <;> try (rename_i h; with_reducible rw [Prod.ext_iff] at h; have h' := h.2; dsimp only at h'; subst h'))
    | dsimp only

theorem execSuspendIssue_frame (a0) (a1) (s : State) (n : Nat) (hn : n ||| 0x800C0000 = n) :
    keeps n s (execSuspendIssue a0 a1 s) := by
  refine keeps_mono (m := 0x800C0000) ?_ hn
  unfold execSuspendIssue
  repeat' first
    | with_reducible rfl
    | simp only [mk_800C0000, takeFree, Nat.reduceOr, apply_ite (blank _), apply_ite (keeps _ s), ite_self, implies_true, foldl_blank, keeps_next, Option.elim, dmlIssue_frame]
    | (with_reducible refine (foldl_blank ?_ _ _).trans ?_; intro s x)
    | (split <;> try (rename_i h; with_reducible rw [Prod.ext_iff] at h; have h' := h.2; dsimp only at h'; subst h'))
    | dsimp only

theorem execTakeover_frame (s : State) (n : Nat) (hn : n ||| 0x183244C8F = n) :
    keeps n s (execTakeover s) := by
  refine keeps_mono (m := 0x183244C8F) ?_ hn
  unfold execTakeover
  repeat' first
    | with_reducible rfl
    | simp only [mk_183244C8F, takeFree, Nat.reduceOr, apply_ite (blank _), apply_ite (keeps _ s), ite_self, implies_true, foldl_blank, keeps_next, Option.elim, beginFencing_frame, endSentOn_frame, takeoverBegins_frame]
    | (with_reducible refine (foldl_blank ?_ _ _).trans ?_; intro s x)
    | (split <;> try (rename_i h; with_reducible rw [Prod.ext_iff] at h; have h' := h.2; dsimp only at h'; subst h'))
    | dsimp only

theorem execTakeoverEnd_frame (a0) (s : State) (n : Nat) (hn : n ||| 0x1833C7C8F = n) :
    keeps n s (execTakeoverEnd a0 s) := by
  refine keeps_mono (m := 0x1833C7C8F) ?_ hn
  unfold execTakeoverEnd
  repeat' first
    | with_reducible rfl
    | simp only [mk_1833C7C8F, takeFree, Nat.reduceOr, apply_ite (blank _), apply_ite (keeps _ s), ite_self, implies_true, foldl_blank, keeps_next, Option.elim, takeoverRaise_frame, replayTrailer_frame, rebudget_frame, askWaypoint_frame, takeoverRecord_frame, recountPeer_frame, setOwned_frame]
    | (with_reducible refine (foldl_blank ?_ _ _).trans ?_; intro s x)
    | (split <;> try (rename_i h; with_reducible rw [Prod.ext_iff] at h; have h' := h.2; dsimp only at h'; subst h'))
    | dsimp only

theorem execTelem_frame (a0) (a1) (s : State) (n : Nat) (hn : n ||| 0x1BFBFFCBF = n) :
    keeps n s (execTelem a0 a1 s) := by
  refine keeps_mono (m := 0x1BFBFFCBF) ?_ hn
  unfold execTelem
  repeat' first
    | with_reducible rfl
    | simp only [mk_1BFBFFCBF, takeFree, Nat.reduceOr, apply_ite (blank _), apply_ite (keeps _ s), ite_self, implies_true, foldl_blank, keeps_next, Option.elim, modPort_frame, fenceReport_frame, ageZone_frame, dmlRun_frame, ledgerFigures_frame, moduleHeat_frame]
    | (with_reducible refine (foldl_blank ?_ _ _).trans ?_; intro s x)
    | (split <;> try (rename_i h; with_reducible rw [Prod.ext_iff] at h; have h' := h.2; dsimp only at h'; subst h'))
    | dsimp only

theorem execTelemMissing_frame (a0) (s : State) (n : Nat) (hn : n ||| 0x83244C8E = n) :
    keeps n s (execTelemMissing a0 s) := by
  refine keeps_mono (m := 0x83244C8E) ?_ hn
  unfold execTelemMissing
  repeat' first
    | with_reducible rfl
    | simp only [mk_83244C8E, takeFree, Nat.reduceOr, apply_ite (blank _), apply_ite (keeps _ s), ite_self, implies_true, foldl_blank, keeps_next, Option.elim, record_frame, modPort_frame]
    | (with_reducible refine (foldl_blank ?_ _ _).trans ?_; intro s x)
    | (split <;> try (rename_i h; with_reducible rw [Prod.ext_iff] at h; have h' := h.2; dsimp only at h'; subst h'))
    | dsimp only

theorem execTelemPeriodWrite_frame (a0) (s : State) (n : Nat) (hn : n ||| 0x80840000 = n) :
    keeps n s (execTelemPeriodWrite a0 s) := by
  refine keeps_mono (m := 0x80840000) ?_ hn
  unfold execTelemPeriodWrite
  repeat' first
    | with_reducible rfl
    | simp only [mk_80840000, takeFree, Nat.reduceOr, apply_ite (blank _), apply_ite (keeps _ s), ite_self, implies_true, foldl_blank, keeps_next, Option.elim, telemCtlWrite_frame]
    | (with_reducible refine (foldl_blank ?_ _ _).trans ?_; intro s x)
    | (split <;> try (rename_i h; with_reducible rw [Prod.ext_iff] at h; have h' := h.2; dsimp only at h'; subst h'))
    | dsimp only

theorem execTime_frame (a0) (s : State) (n : Nat) (hn : n ||| 0x83204C8E = n) :
    keeps n s (execTime a0 s) := by
  refine keeps_mono (m := 0x83204C8E) ?_ hn
  unfold execTime
  repeat' first
    | with_reducible rfl
    | simp only [mk_83204C8E, takeFree, Nat.reduceOr, apply_ite (blank _), apply_ite (keeps _ s), ite_self, implies_true, foldl_blank, keeps_next, Option.elim, commitCivil_frame, steer_frame, reselect_frame, refLocked_frame, record_frame]
    | (with_reducible refine (foldl_blank ?_ _ _).trans ?_; intro s x)
    | (split <;> try (rename_i h; with_reducible rw [Prod.ext_iff] at h; have h' := h.2; dsimp only at h'; subst h'))
    | dsimp only

theorem execTimeSend_frame (s : State) (n : Nat) (hn : n ||| 0x8020000A = n) :
    keeps n s (execTimeSend s) := by
  refine keeps_mono (m := 0x8020000A) ?_ hn
  unfold execTimeSend
  repeat' first
    | with_reducible rfl
    | simp only [mk_8020000A, takeFree, Nat.reduceOr, apply_ite (blank _), apply_ite (keeps _ s), ite_self, implies_true, foldl_blank, keeps_next, Option.elim, sendTime_frame]
    | (with_reducible refine (foldl_blank ?_ _ _).trans ?_; intro s x)
    | (split <;> try (rename_i h; with_reducible rw [Prod.ext_iff] at h; have h' := h.2; dsimp only at h'; subst h'))
    | dsimp only

theorem execTransferError_frame (a0) (a1) (a2) (a3) (s : State) (n : Nat) (hn : n ||| 0x19F3FFCAF = n) :
    keeps n s (execTransferError a0 a1 a2 a3 s) := by
  refine keeps_mono (m := 0x19F3FFCAF) ?_ hn
  unfold execTransferError
  repeat' first
    | with_reducible rfl
    | simp only [mk_19F3FFCAF, takeFree, Nat.reduceOr, apply_ite (blank _), apply_ite (keeps _ s), ite_self, implies_true, foldl_blank, keeps_next, Option.elim, aerTransfer_frame, recordTransfer_frame, finish_frame, abortSentOn_frame, dropWrite_frame, freezeQueue_frame, settleQueue_frame, modQueue_frame]
    | (with_reducible refine (foldl_blank ?_ _ _).trans ?_; intro s x)
    | (split <;> try (rename_i h; with_reducible rw [Prod.ext_iff] at h; have h' := h.2; dsimp only at h'; subst h'))
    | dsimp only

theorem execUnpinPeer_frame (a0) (s : State) (n : Nat) (hn : n ||| 0x80280002 = n) :
    keeps n s (execUnpinPeer a0 s) := by
  refine keeps_mono (m := 0x80280002) ?_ hn
  unfold execUnpinPeer
  repeat' first
    | with_reducible rfl
    | simp only [mk_80280002, takeFree, Nat.reduceOr, apply_ite (blank _), apply_ite (keeps _ s), ite_self, implies_true, foldl_blank, keeps_next, Option.elim, unpinPeer_frame]
    | (with_reducible refine (foldl_blank ?_ _ _).trans ?_; intro s x)
    | (split <;> try (rename_i h; with_reducible rw [Prod.ext_iff] at h; have h' := h.2; dsimp only at h'; subst h'))
    | dsimp only

theorem execUpdAbort_frame (s : State) (n : Nat) (hn : n ||| 0x4000000 = n) :
    keeps n s (execUpdAbort s) := by
  refine keeps_mono (m := 0x4000000) ?_ hn
  unfold execUpdAbort
  repeat' first
    | with_reducible rfl
    | simp only [mk_4000000, takeFree, Nat.reduceOr, apply_ite (blank _), apply_ite (keeps _ s), ite_self, implies_true, foldl_blank, keeps_next, Option.elim, releaseBuffer_frame, updTouched_frame]
    | (with_reducible refine (foldl_blank ?_ _ _).trans ?_; intro s x)
    | (split <;> try (rename_i h; with_reducible rw [Prod.ext_iff] at h; have h' := h.2; dsimp only at h'; subst h'))
    | dsimp only

theorem execUpdActivate_frame (a0) (s : State) (n : Nat) (hn : n ||| 0x87204C8E = n) :
    keeps n s (execUpdActivate a0 s) := by
  refine keeps_mono (m := 0x87204C8E) ?_ hn
  unfold execUpdActivate
  repeat' first
    | with_reducible rfl
    | simp only [mk_87204C8E, takeFree, Nat.reduceOr, apply_ite (blank _), apply_ite (keeps _ s), ite_self, implies_true, foldl_blank, keeps_next, Option.elim, activate_frame, updTouched_frame, updRefuse_frame]
    | (with_reducible refine (foldl_blank ?_ _ _).trans ?_; intro s x)
    | (split <;> try (rename_i h; with_reducible rw [Prod.ext_iff] at h; have h' := h.2; dsimp only at h'; subst h'))
    | dsimp only

theorem execUpdDataWrite_frame (a0) (a1) (s : State) (n : Nat) (hn : n ||| 0x4000000 = n) :
    keeps n s (execUpdDataWrite a0 a1 s) := by
  refine keeps_mono (m := 0x4000000) ?_ hn
  unfold execUpdDataWrite
  repeat' first
    | with_reducible rfl
    | simp only [mk_4000000, takeFree, Nat.reduceOr, apply_ite (blank _), apply_ite (keeps _ s), ite_self, implies_true, foldl_blank, keeps_next, Option.elim, stageWord_frame, updTouched_frame]
    | (with_reducible refine (foldl_blank ?_ _ _).trans ?_; intro s x)
    | (split <;> try (rename_i h; with_reducible rw [Prod.ext_iff] at h; have h' := h.2; dsimp only at h'; subst h'))
    | dsimp only

theorem execUpdOpen_frame (s : State) (n : Nat) (hn : n ||| 0x4000000 = n) :
    keeps n s (execUpdOpen s) := by
  refine keeps_mono (m := 0x4000000) ?_ hn
  unfold execUpdOpen
  repeat' first
    | with_reducible rfl
    | simp only [mk_4000000, takeFree, Nat.reduceOr, apply_ite (blank _), apply_ite (keeps _ s), ite_self, implies_true, foldl_blank, keeps_next, Option.elim, openBuffer_frame, updTouched_frame]
    | (with_reducible refine (foldl_blank ?_ _ _).trans ?_; intro s x)
    | (split <;> try (rename_i h; with_reducible rw [Prod.ext_iff] at h; have h' := h.2; dsimp only at h'; subst h'))
    | dsimp only

theorem execUpdRestart_frame (a0) (s : State) (n : Nat) (hn : n ||| 0x87304C8E = n) :
    keeps n s (execUpdRestart a0 s) := by
  refine keeps_mono (m := 0x87304C8E) ?_ hn
  unfold execUpdRestart
  repeat' first
    | with_reducible rfl
    | simp only [mk_87304C8E, takeFree, Nat.reduceOr, apply_ite (blank _), apply_ite (keeps _ s), ite_self, implies_true, foldl_blank, keeps_next, Option.elim, askRestart_frame, updTouched_frame]
    | (with_reducible refine (foldl_blank ?_ _ _).trans ?_; intro s x)
    | (split <;> try (rename_i h; with_reducible rw [Prod.ext_iff] at h; have h' := h.2; dsimp only at h'; subst h'))
    | dsimp only

theorem execUpdRun_frame (a0) (s : State) (n : Nat) (hn : n ||| 0x1B77DFC8F = n) :
    keeps n s (execUpdRun a0 s) := by
  refine keeps_mono (m := 0x1B77DFC8F) ?_ hn
  unfold execUpdRun
  repeat' first
    | with_reducible rfl
    | simp only [mk_1B77DFC8F, takeFree, Nat.reduceOr, apply_ite (blank _), apply_ite (keeps _ s), ite_self, implies_true, foldl_blank, keeps_next, Option.elim, runBuffer_frame, updTouched_frame]
    | (with_reducible refine (foldl_blank ?_ _ _).trans ?_; intro s x)
    | (split <;> try (rename_i h; with_reducible rw [Prod.ext_iff] at h; have h' := h.2; dsimp only at h'; subst h'))
    | dsimp only

theorem execUpdateReset_frame (a0) (s : State) (n : Nat) (hn : n ||| 0x1BFFFFFFF = n) :
    keeps n s (execUpdateReset a0 s) := by
  refine keeps_mono (m := 0x1BFFFFFFF) ?_ hn
  unfold execUpdateReset
  repeat' first
    | with_reducible rfl
    | simp only [mk_1BFFFFFFF, takeFree, Nat.reduceOr, apply_ite (blank _), apply_ite (keeps _ s), ite_self, implies_true, foldl_blank, keeps_next, Option.elim, maintAdmit_frame, updateReset_frame, activateOn_frame]
    | (with_reducible refine (foldl_blank ?_ _ _).trans ?_; intro s x)
    | (split <;> try (rename_i h; with_reducible rw [Prod.ext_iff] at h; have h' := h.2; dsimp only at h'; subst h'))
    | dsimp only

theorem execVaultEnter_frame (s : State) (n : Nat) (hn : n ||| 0x18B3C6C8F = n) :
    keeps n s (execVaultEnter s) := by
  refine keeps_mono (m := 0x18B3C6C8F) ?_ hn
  unfold execVaultEnter
  repeat' first
    | with_reducible rfl
    | simp only [mk_18B3C6C8F, takeFree, Nat.reduceOr, apply_ite (blank _), apply_ite (keeps _ s), ite_self, implies_true, foldl_blank, keeps_next, Option.elim, stopWaypoint_frame, trimIsland_frame, almSaveAll_frame, record_frame]
    | (with_reducible refine (foldl_blank ?_ _ _).trans ?_; intro s x)
    | (split <;> try (rename_i h; with_reducible rw [Prod.ext_iff] at h; have h' := h.2; dsimp only at h'; subst h'))
    | dsimp only

theorem execVaultProposal_frame (s : State) (n : Nat) (hn : n ||| 0x80200002 = n) :
    keeps n s (execVaultProposal s) := by
  refine keeps_mono (m := 0x80200002) ?_ hn
  unfold execVaultProposal
  repeat' first
    | with_reducible rfl
    | simp only [mk_80200002, takeFree, Nat.reduceOr, apply_ite (blank _), apply_ite (keeps _ s), ite_self, implies_true, foldl_blank, keeps_next, Option.elim, sendPower_frame]
    | (with_reducible refine (foldl_blank ?_ _ _).trans ?_; intro s x)
    | (split <;> try (rename_i h; with_reducible rw [Prod.ext_iff] at h; have h' := h.2; dsimp only at h'; subst h'))
    | dsimp only

theorem execVbatSample_frame (a0) (s : State) (n : Nat) (hn : n ||| 0x4 = n) :
    keeps n s (execVbatSample a0 s) := by
  refine keeps_mono (m := 0x4) ?_ hn
  unfold execVbatSample
  repeat' first
    | with_reducible rfl
    | simp only [mk_4, takeFree, Nat.reduceOr, apply_ite (blank _), apply_ite (keeps _ s), ite_self, implies_true, foldl_blank, keeps_next, Option.elim]
    | (with_reducible refine (foldl_blank ?_ _ _).trans ?_; intro s x)
    | (split <;> try (rename_i h; with_reducible rw [Prod.ext_iff] at h; have h' := h.2; dsimp only at h'; subst h'))
    | dsimp only

theorem execVectorUnmask_frame (a0) (a1) (s : State) (n : Nat) (hn : n ||| 0x80000080 = n) :
    keeps n s (execVectorUnmask a0 a1 s) := by
  refine keeps_mono (m := 0x80000080) ?_ hn
  unfold execVectorUnmask
  repeat' first
    | with_reducible rfl
    | simp only [mk_80000080, takeFree, Nat.reduceOr, apply_ite (blank _), apply_ite (keeps _ s), ite_self, implies_true, foldl_blank, keeps_next, Option.elim, sendPending_frame, modEp_frame, sendPendingVec_frame]
    | (with_reducible refine (foldl_blank ?_ _ _).trans ?_; intro s x)
    | (split <;> try (rename_i h; with_reducible rw [Prod.ext_iff] at h; have h' := h.2; dsimp only at h'; subst h'))
    | dsimp only

theorem execVerifyOnMatch_frame (a0) (a1) (a2) (a3) (s : State) (n : Nat) (hn : n ||| 0x8F3DECAF = n) :
    keeps n s (execVerifyOnMatch a0 a1 a2 a3 s) := by
  refine keeps_mono (m := 0x8F3DECAF) ?_ hn
  unfold execVerifyOnMatch
  repeat' first
    | with_reducible rfl
    | simp only [mk_8F3DECAF, takeFree, Nat.reduceOr, apply_ite (blank _), apply_ite (keeps _ s), ite_self, implies_true, foldl_blank, keeps_next, Option.elim, readStored_frame, poolTake_frame, record_frame, rejectHit_frame, acceptHit_frame, recordAlert_frame, addTest_frame, modVol_frame]
    | (with_reducible refine (foldl_blank ?_ _ _).trans ?_; intro s x)
    | (split <;> try (rename_i h; with_reducible rw [Prod.ext_iff] at h; have h' := h.2; dsimp only at h'; subst h'))
    | dsimp only

theorem execVoltGlitch_frame (s : State) (n : Nat) (hn : n ||| 0xBFA36CAF = n) :
    keeps n s (execVoltGlitch s) := by
  refine keeps_mono (m := 0xBFA36CAF) ?_ hn
  unfold execVoltGlitch
  repeat' first
    | with_reducible rfl
    | simp only [mk_BFA36CAF, takeFree, Nat.reduceOr, apply_ite (blank _), apply_ite (keeps _ s), ite_self, implies_true, foldl_blank, keeps_next, Option.elim, secAlarm_frame, failstop_frame]
    | (with_reducible refine (foldl_blank ?_ _ _).trans ?_; intro s x)
    | (split <;> try (rename_i h; with_reducible rw [Prod.ext_iff] at h; have h' := h.2; dsimp only at h'; subst h'))
    | dsimp only

theorem execWakeLExternal_frame (s : State) (n : Nat) (hn : n ||| 0x6 = n) :
    keeps n s (execWakeLExternal s) := by
  refine keeps_mono (m := 0x6) ?_ hn
  unfold execWakeLExternal
  repeat' first
    | with_reducible rfl
    | simp only [mk_6, takeFree, Nat.reduceOr, apply_ite (blank _), apply_ite (keeps _ s), ite_self, implies_true, foldl_blank, keeps_next, Option.elim]
    | (with_reducible refine (foldl_blank ?_ _ _).trans ?_; intro s x)
    | (split <;> try (rename_i h; with_reducible rw [Prod.ext_iff] at h; have h' := h.2; dsimp only at h'; subst h'))
    | dsimp only

theorem execWatchdogTimeout_frame (a0) (a1) (s : State) (n : Nat) (hn : n ||| 0x8F206CAF = n) :
    keeps n s (execWatchdogTimeout a0 a1 s) := by
  refine keeps_mono (m := 0x8F206CAF) ?_ hn
  unfold execWatchdogTimeout
  repeat' first
    | with_reducible rfl
    | simp only [mk_8F206CAF, takeFree, Nat.reduceOr, apply_ite (blank _), apply_ite (keeps _ s), ite_self, implies_true, foldl_blank, keeps_next, Option.elim, failstop_frame]
    | (with_reducible refine (foldl_blank ?_ _ _).trans ?_; intro s x)
    | (split <;> try (rename_i h; with_reducible rw [Prod.ext_iff] at h; have h' := h.2; dsimp only at h'; subst h'))
    | dsimp only

theorem execWaypointComplete_frame (s : State) (n : Nat) (hn : n ||| 0x873C6C8E = n) :
    keeps n s (execWaypointComplete s) := by
  refine keeps_mono (m := 0x873C6C8E) ?_ hn
  unfold execWaypointComplete
  repeat' first
    | with_reducible rfl
    | simp only [mk_873C6C8E, takeFree, Nat.reduceOr, apply_ite (blank _), apply_ite (keeps _ s), ite_self, implies_true, foldl_blank, keeps_next, Option.elim, finishWaypoint_frame, writeAnchors_frame, captureWaypoint_frame]
    | (with_reducible refine (foldl_blank ?_ _ _).trans ?_; intro s x)
    | (split <;> try (rename_i h; with_reducible rw [Prod.ext_iff] at h; have h' := h.2; dsimp only at h'; subst h'))
    | dsimp only

theorem execWaypointStart_frame (s : State) (n : Nat) (hn : n ||| 0x833C4C8E = n) :
    keeps n s (execWaypointStart s) := by
  refine keeps_mono (m := 0x833C4C8E) ?_ hn
  unfold execWaypointStart
  repeat' first
    | with_reducible rfl
    | simp only [mk_833C4C8E, takeFree, Nat.reduceOr, apply_ite (blank _), apply_ite (keeps _ s), ite_self, implies_true, foldl_blank, keeps_next, Option.elim, captureWaypoint_frame]
    | (with_reducible refine (foldl_blank ?_ _ _).trans ?_; intro s x)
    | (split <;> try (rename_i h; with_reducible rw [Prod.ext_iff] at h; have h' := h.2; dsimp only at h'; subst h'))
    | dsimp only

theorem execWholeChip_frame (s : State) (n : Nat) (hn : n ||| 0x83204C8E = n) :
    keeps n s (execWholeChip s) := by
  refine keeps_mono (m := 0x83204C8E) ?_ hn
  unfold execWholeChip
  repeat' first
    | with_reducible rfl
    | simp only [mk_83204C8E, takeFree, Nat.reduceOr, apply_ite (blank _), apply_ite (keeps _ s), ite_self, implies_true, foldl_blank, keeps_next, Option.elim, wholeChip_frame]
    | (with_reducible refine (foldl_blank ?_ _ _).trans ?_; intro s x)
    | (split <;> try (rename_i h; with_reducible rw [Prod.ext_iff] at h; have h' := h.2; dsimp only at h'; subst h'))
    | dsimp only

theorem execWholeChipTestEnd_frame (a0) (a1) (s : State) (n : Nat) (hn : n ||| 0x1BF7FFCAF = n) :
    keeps n s (execWholeChipTestEnd a0 a1 s) := by
  refine keeps_mono (m := 0x1BF7FFCAF) ?_ hn
  unfold execWholeChipTestEnd
  repeat' first
    | with_reducible rfl
    | simp only [mk_1BF7FFCAF, takeFree, Nat.reduceOr, apply_ite (blank _), apply_ite (keeps _ s), ite_self, implies_true, foldl_blank, keeps_next, Option.elim, wholeChipMap_frame, lastingOutcome_frame, record_frame, wholeChipClear_frame]
    | (with_reducible refine (foldl_blank ?_ _ _).trans ?_; intro s x)
    | (split <;> try (rename_i h; with_reducible rw [Prod.ext_iff] at h; have h' := h.2; dsimp only at h'; subst h'))
    | dsimp only

theorem execWinCommit_frame (a0) (a1) (a2) (s : State) (n : Nat) (hn : n ||| 0x83204C8E = n) :
    keeps n s (execWinCommit a0 a1 a2 s) := by
  refine keeps_mono (m := 0x83204C8E) ?_ hn
  unfold execWinCommit
  rw [keeps_next]
  refine regWrite_frame _ _ _ _ _ rfl ?_
  intro t
  repeat' first
    | with_reducible rfl
    | simp only [mk_83204C8E, takeFree, Nat.reduceOr, apply_ite (blank _), apply_ite (keeps _ s), ite_self, implies_true, foldl_blank, keeps_next, Option.elim, regWrite_frame, winCommit_frame]
    | (split <;> try (rename_i h; with_reducible rw [Prod.ext_iff] at h; have h' := h.2; dsimp only at h'; subst h'))
    | dsimp only

theorem execWlMove_frame (a0) (a1) (a2) (s : State) (n : Nat) (hn : n ||| 0x8F3DECAF = n) :
    keeps n s (execWlMove a0 a1 a2 s) := by
  refine keeps_mono (m := 0x8F3DECAF) ?_ hn
  unfold execWlMove
  repeat' first
    | with_reducible rfl
    | simp only [mk_8F3DECAF, takeFree, Nat.reduceOr, apply_ite (blank _), apply_ite (keeps _ s), ite_self, implies_true, foldl_blank, keeps_next, Option.elim, relocateBlock_frame, record_frame, requestActivity_frame, endActivity_frame]
    | (with_reducible refine (foldl_blank ?_ _ _).trans ?_; intro s x)
    | (split <;> try (rename_i h; with_reducible rw [Prod.ext_iff] at h; have h' := h.2; dsimp only at h'; subst h'))
    | dsimp only

theorem execWrite_frame (a0) (a1) (a2) (a3) (s : State) (n : Nat) (hn : n ||| 0x9F3FFCAF = n) :
    keeps n s (execWrite a0 a1 a2 a3 s) := by
  refine keeps_mono (m := 0x9F3FFCAF) ?_ hn
  unfold execWrite
  repeat' first
    | with_reducible rfl
    | simp only [mk_9F3FFCAF, takeFree, Nat.reduceOr, apply_ite (blank _), apply_ite (keeps _ s), ite_self, implies_true, foldl_blank, keeps_next, Option.elim, fetched_frame]
    | (with_reducible refine (foldl_blank ?_ _ _).trans ?_; intro s x)
    | (split <;> try (rename_i h; with_reducible rw [Prod.ext_iff] at h; have h' := h.2; dsimp only at h'; subst h'))
    | dsimp only

theorem execWriteAdmission_frame (a0) (a1) (s : State) (n : Nat) (hn : n ||| 0x83216C8E = n) :
    keeps n s (execWriteAdmission a0 a1 s) := by
  refine keeps_mono (m := 0x83216C8E) ?_ hn
  unfold execWriteAdmission
  repeat' first
    | with_reducible rfl
    | simp only [mk_83216C8E, takeFree, Nat.reduceOr, apply_ite (blank _), apply_ite (keeps _ s), ite_self, implies_true, foldl_blank, keeps_next, Option.elim, finish_frame, unreserve_frame, noteTurn_frame, modCmd_frame, rebudget_frame, xhlSend_frame, noteMirrorHeld_frame, admitWrite_frame]
    | (with_reducible refine (foldl_blank ?_ _ _).trans ?_; intro s x)
    | (split <;> try (rename_i h; with_reducible rw [Prod.ext_iff] at h; have h' := h.2; dsimp only at h'; subst h'))
    | dsimp only

theorem execXhlLinkUp_frame (a0) (s : State) (n : Nat) (hn : n ||| 0x183204C8E = n) :
    keeps n s (execXhlLinkUp a0 s) := by
  refine keeps_mono (m := 0x183204C8E) ?_ hn
  unfold execXhlLinkUp
  repeat' first
    | with_reducible rfl
    | simp only [mk_183204C8E, takeFree, Nat.reduceOr, apply_ite (blank _), apply_ite (keeps _ s), ite_self, implies_true, foldl_blank, keeps_next, Option.elim, laneMismatch_frame, record_frame, xhlRun_frame, emit_frame, xhlSend_frame]
    | (with_reducible refine (foldl_blank ?_ _ _).trans ?_; intro s x)
    | (split <;> try (rename_i h; with_reducible rw [Prod.ext_iff] at h; have h' := h.2; dsimp only at h'; subst h'))
    | dsimp only

theorem execXhlFlitReceive_frame (a0) (s : State) (n : Nat) (hn : n ||| 0x183A06C8E = n) :
    keeps n s (execXhlFlitReceive a0 s) := by
  refine keeps_mono (m := 0x183A06C8E) ?_ hn
  unfold execXhlFlitReceive
  repeat' first
    | with_reducible rfl
    | simp only [mk_183A06C8E, takeFree, Nat.reduceOr, apply_ite (blank _), apply_ite (keeps _ s), ite_self, implies_true, foldl_blank, keeps_next, Option.elim, xhlRetrain_frame, xhlTake_frame, xhlDiscard_frame]
    | (with_reducible refine (foldl_blank ?_ _ _).trans ?_; intro s x)
    | (split <;> try (rename_i h; with_reducible rw [Prod.ext_iff] at h; have h' := h.2; dsimp only at h'; subst h'))
    | dsimp only

theorem execXhlLinkDown_frame (s : State) (n : Nat) (hn : n ||| 0x183206C8F = n) :
    keeps n s (execXhlLinkDown s) := by
  refine keeps_mono (m := 0x183206C8F) ?_ hn
  unfold execXhlLinkDown
  repeat' first
    | with_reducible rfl
    | simp only [mk_183206C8F, takeFree, Nat.reduceOr, apply_ite (blank _), apply_ite (keeps _ s), ite_self, implies_true, foldl_blank, keeps_next, Option.elim, xhlDown_frame]
    | (with_reducible refine (foldl_blank ?_ _ _).trans ?_; intro s x)
    | (split <;> try (rename_i h; with_reducible rw [Prod.ext_iff] at h; have h' := h.2; dsimp only at h'; subst h'))
    | dsimp only

theorem execXhlNak_frame (a0) (s : State) (n : Nat) (hn : n ||| 0x83206C8E = n) :
    keeps n s (execXhlNak a0 s) := by
  refine keeps_mono (m := 0x83206C8E) ?_ hn
  unfold execXhlNak
  repeat' first
    | with_reducible rfl
    | simp only [mk_83206C8E, takeFree, Nat.reduceOr, apply_ite (blank _), apply_ite (keeps _ s), ite_self, implies_true, foldl_blank, keeps_next, Option.elim, xhlReplayAll_frame, xhlAck_frame]
    | (with_reducible refine (foldl_blank ?_ _ _).trans ?_; intro s x)
    | (split <;> try (rename_i h; with_reducible rw [Prod.ext_iff] at h; have h' := h.2; dsimp only at h'; subst h'))
    | dsimp only

theorem execXhlReplayTimeout_frame (s : State) (n : Nat) (hn : n ||| 0x83206C8E = n) :
    keeps n s (execXhlReplayTimeout s) := by
  refine keeps_mono (m := 0x83206C8E) ?_ hn
  unfold execXhlReplayTimeout
  repeat' first
    | with_reducible rfl
    | simp only [mk_83206C8E, takeFree, Nat.reduceOr, apply_ite (blank _), apply_ite (keeps _ s), ite_self, implies_true, foldl_blank, keeps_next, Option.elim, xhlReplayAll_frame]
    | (with_reducible refine (foldl_blank ?_ _ _).trans ?_; intro s x)
    | (split <;> try (rename_i h; with_reducible rw [Prod.ext_iff] at h; have h' := h.2; dsimp only at h'; subst h'))
    | dsimp only

theorem execXhlStartTimeout_frame (s : State) (n : Nat) (hn : n ||| 0x80240000 = n) :
    keeps n s (execXhlStartTimeout s) := by
  refine keeps_mono (m := 0x80240000) ?_ hn
  unfold execXhlStartTimeout
  repeat' first
    | with_reducible rfl
    | simp only [mk_80240000, takeFree, Nat.reduceOr, apply_ite (blank _), apply_ite (keeps _ s), ite_self, implies_true, foldl_blank, keeps_next, Option.elim, sendFences_frame]
    | (with_reducible refine (foldl_blank ?_ _ _).trans ?_; intro s x)
    | (split <;> try (rename_i h; with_reducible rw [Prod.ext_iff] at h; have h' := h.2; dsimp only at h'; subst h'))
    | dsimp only

end Sys2Proof.Machine
end

