-- ==== Sys2Proof/Laws/Memory.lean ====
section
/-!
SUPPORT. The byte memories: a read after a write, the frame of a write, and that every operation keeps the canonical form.
-/
namespace Sys2Proof.Machine

/-! ## The canonical form -/

theorem memSortedFrom_cons (d : BitVec 8) (lo : Option Nat) (k : Nat) (v : BitVec 8) (t : List Host.Cell) :
    memSortedFrom d lo ((k, v) :: t) = true ↔ (∀ a, lo = some a → a < k) ∧ v ≠ d ∧ memSortedFrom d (some k) t = true := by
  cases lo <;> simp [memSortedFrom, and_assoc]

/-- A lower bound may be lowered. -/
theorem memSortedFrom_weaken {d : BitVec 8} {a : Nat} {lo : Option Nat} {m : List Host.Cell} (h : memSortedFrom d (some a) m = true)
    (hl : ∀ b, lo = some b → b ≤ a) : memSortedFrom d lo m = true := by
  cases m with
  | nil => rfl
  | cons c t =>
    obtain ⟨k, v⟩ := c
    rw [memSortedFrom_cons] at h ⊢
    exact ⟨fun b hb => Nat.lt_of_le_of_lt (hl b hb) (h.1 a rfl), h.2⟩

/-- Every address of a sorted memory lies above its bound. -/
theorem memRead_below {d : BitVec 8} {m : List Host.Cell} {a x : Nat} (h : memSortedFrom d (some a) m = true) (hx : x ≤ a) :
    memRead d m x = d := by
  induction m generalizing a with
  | nil => rfl
  | cons c t ih =>
    obtain ⟨k, v⟩ := c
    rw [memSortedFrom_cons] at h
    have hk := h.1 a rfl
    have hne : ¬ k = x := by omega
    simp only [memRead, hne, if_false]
    exact ih h.2.2 (by omega)

/-- A write keeps the form above any bound below its address. -/
theorem memWrite_sorted {d : BitVec 8} {m : List Host.Cell} {lo : Option Nat} {a : Nat} {b : BitVec 8}
    (h : memSortedFrom d lo m = true) (hl : ∀ c, lo = some c → c < a) : memSortedFrom d lo (memWrite d m a b) = true := by
  induction m generalizing lo with
  | nil =>
    by_cases hb : b = d
    · simp [memWrite, hb, memSortedFrom]
    · simp only [memWrite, hb, if_false]
      rw [memSortedFrom_cons]
      exact ⟨hl, hb, rfl⟩
  | cons c t ih =>
    obtain ⟨k, v⟩ := c
    have h' := h
    rw [memSortedFrom_cons] at h'
    obtain ⟨h1, h2, h3⟩ := h'
    simp only [memWrite]
    by_cases hlt : a < k
    · by_cases hb : b = d
      · simp only [hlt, hb, if_true]; exact h
      · simp only [hlt, hb, if_true, if_false]
        rw [memSortedFrom_cons]
        refine ⟨hl, hb, ?_⟩
        rw [memSortedFrom_cons]
        exact ⟨fun x hx => by cases hx; exact hlt, h2, h3⟩
    · by_cases he : a = k
      · subst he
        by_cases hb : b = d
        · simp only [Nat.lt_irrefl, hb, if_true, if_false]
          exact memSortedFrom_weaken h3 fun x hx => Nat.le_of_lt (hl x hx)
        · simp only [Nat.lt_irrefl, hb, if_true, if_false]
          rw [memSortedFrom_cons]
          exact ⟨hl, hb, h3⟩
      · simp only [hlt, he, if_false]
        rw [memSortedFrom_cons]
        exact ⟨h1, h2, ih h3 fun x hx => by cases hx; omega⟩

/-- A write of one byte keeps the canonical form. -/
theorem memWrite_wf {d : BitVec 8} {m : List Host.Cell} (h : Memory.wf d m = true) (a : Nat) (b : BitVec 8) :
    Memory.wf d (memWrite d m a b) = true := memWrite_sorted h fun _ hc => by cases hc

/-- A write of bytes keeps the canonical form. -/
theorem memWriteBytes_wf {d : BitVec 8} {m : List Host.Cell} (h : Memory.wf d m = true) (a : Nat) (bs : List (BitVec 8)) :
    Memory.wf d (memWriteBytes d m a bs) = true := by
  induction bs generalizing m a with
  | nil => exact h
  | cons b t ih => exact ih (memWrite_wf h a b) (a + 1)

/-- An erase keeps the canonical form. -/
theorem memClear_sorted {d : BitVec 8} {m : List Host.Cell} {lo : Option Nat} (h : memSortedFrom d lo m = true) (a n : Nat) :
    memSortedFrom d lo (memClear m a n) = true := by
  induction m generalizing lo with
  | nil => rfl
  | cons c t ih =>
    obtain ⟨k, v⟩ := c
    rw [memSortedFrom_cons] at h
    unfold memClear at ih ⊢
    by_cases hk : k < a ∨ a + n ≤ k
    · rw [List.filter_cons_of_pos (by simpa using hk), memSortedFrom_cons]
      exact ⟨h.1, h.2.1, ih h.2.2⟩
    · rw [List.filter_cons_of_neg (by simpa using hk)]
      exact ih (memSortedFrom_weaken h.2.2 fun b hb => Nat.le_of_lt (h.1 b hb))

/-- An erase keeps the canonical form. -/
theorem memClear_wf {d : BitVec 8} {m : List Host.Cell} (h : Memory.wf d m = true) (a n : Nat) :
    Memory.wf d (memClear m a n) = true := memClear_sorted h a n

/-- A NOR program keeps the canonical form. -/
theorem norProgram_wf {m : List Host.Cell} (h : Memory.wf norErased m = true) (a : Nat) (bs : List (BitVec 8)) :
    Memory.wf norErased (norProgram m a bs) = true := memWriteBytes_wf h a _

/-- The memory that lists nothing has the form. -/
@[simp] theorem wf_nil (d : BitVec 8) : Memory.wf d [] = true := rfl

/-! ## Reads after writes -/

/-- A byte written reads back. -/
theorem memRead_memWrite_same {d : BitVec 8} {m : List Host.Cell} {lo : Option Nat} (h : memSortedFrom d lo m = true) (a : Nat)
    (b : BitVec 8) : memRead d (memWrite d m a b) a = b := by
  induction m generalizing lo with
  | nil => by_cases hb : b = d <;> simp [memWrite, memRead, hb]
  | cons c t ih =>
    obtain ⟨k, v⟩ := c
    rw [memSortedFrom_cons] at h
    simp only [memWrite]
    by_cases hlt : a < k
    · by_cases hb : b = d
      · have hne : ¬ k = a := by omega
        simp only [hlt, hb, if_true, memRead, hne, if_false]
        exact memRead_below h.2.2 (Nat.le_of_lt hlt)
      · simp [hlt, hb, memRead]
    · by_cases he : a = k
      · subst he
        by_cases hb : b = d
        · simp only [Nat.lt_irrefl, hb, if_true, if_false]
          exact memRead_below h.2.2 (Nat.le_refl _)
        · simp [hb, memRead]
      · have hne : ¬ k = a := fun h => he h.symm
        simp only [hlt, he, if_false, memRead, hne]
        exact ih h.2.2

/-- A write leaves every other byte. -/
theorem memRead_memWrite_other {d : BitVec 8} {m : List Host.Cell} {a x : Nat} (b : BitVec 8) (hx : x ≠ a) :
    memRead d (memWrite d m a b) x = memRead d m x := by
  have hx' : ¬ a = x := fun h => hx h.symm
  induction m with
  | nil => by_cases hb : b = d <;> simp [memWrite, memRead, hb, hx']
  | cons c t ih =>
    obtain ⟨k, v⟩ := c
    simp only [memWrite]
    by_cases hlt : a < k
    · by_cases hb : b = d <;> simp [hlt, hb, memRead, hx']
    · by_cases he : a = k
      · subst he
        by_cases hb : b = d <;> simp [hb, memRead, hx']
      · simp only [hlt, he, if_false, memRead, ih]

/-- A write of bytes leaves every byte outside them. -/
theorem memRead_memWriteBytes_other {d : BitVec 8} {m : List Host.Cell} {a x : Nat} {bs : List (BitVec 8)}
    (hx : x < a ∨ a + bs.length ≤ x) : memRead d (memWriteBytes d m a bs) x = memRead d m x := by
  induction bs generalizing m a with
  | nil => rfl
  | cons b t ih =>
    rw [List.length_cons] at hx
    rw [memWriteBytes, ih (by omega), memRead_memWrite_other b (by omega)]

/-- Bytes written read back. -/
theorem memRead_memWriteBytes_same {d : BitVec 8} {m : List Host.Cell} (h : Memory.wf d m = true) (a : Nat) {bs : List (BitVec 8)}
    {i : Nat} (hi : i < bs.length) : memRead d (memWriteBytes d m a bs) (a + i) = bs.getD i 0 := by
  induction bs generalizing m a i with
  | nil => simp at hi
  | cons b t ih =>
    rw [memWriteBytes]
    cases i with
    | zero =>
      rw [memRead_memWriteBytes_other (by omega), Nat.add_zero, memRead_memWrite_same h]
      rfl
    | succ j =>
      rw [List.length_cons] at hi
      have := ih (memWrite_wf h a b) (a + 1) (i := j) (by omega)
      rw [show a + (j + 1) = a + 1 + j by omega, this]
      rfl

/-- An erased byte reads as an unlisted one; every other byte stands. -/
theorem memRead_memClear (d : BitVec 8) (m : List Host.Cell) (a n x : Nat) :
    memRead d (memClear m a n) x = if a ≤ x ∧ x < a + n then d else memRead d m x := by
  unfold memClear
  induction m with
  | nil => simp [memRead]
  | cons c t ih =>
    obtain ⟨k, v⟩ := c
    by_cases hk : k < a ∨ a + n ≤ k
    · rw [List.filter_cons_of_pos (by simpa using hk)]
      by_cases hx : k = x
      · subst hx
        have : ¬ (a ≤ k ∧ k < a + n) := by omega
        simp [memRead, this]
      · simp only [memRead, hx, if_false, ih]
    · rw [List.filter_cons_of_neg (by simpa using hk), ih]
      by_cases hx : a ≤ x ∧ x < a + n
      · simp [hx]
      · have hne : ¬ k = x := by omega
        simp [hx, memRead, hne]

end Sys2Proof.Machine
end

