-- ==== Sys2Proof/Laws/State.lean ====
section
/-!
SUPPORT. One lemma per field of State for each named update: what it sets, and that every other field stands. For the operations
that end a command, write a record or send a message, the fields they leave.
-/
namespace Sys2Proof.Machine

/-! ## Updates of one part of State -/

@[simp] theorem emit_own (o : Output) (s : State) : (emit o s).out = o :: s.out := rfl
@[simp] theorem emit_glb (o : Output) (s : State) : (emit o s).glb = s.glb := rfl
@[simp] theorem emit_pwr (o : Output) (s : State) : (emit o s).pwr = s.pwr := rfl
@[simp] theorem emit_island (o : Output) (s : State) : (emit o s).island = s.island := rfl
@[simp] theorem emit_lds (o : Output) (s : State) : (emit o s).lds = s.lds := rfl
@[simp] theorem emit_fuses (o : Output) (s : State) : (emit o s).fuses = s.fuses := rfl
@[simp] theorem emit_cfg (o : Output) (s : State) : (emit o s).cfg = s.cfg := rfl
@[simp] theorem emit_img (o : Output) (s : State) : (emit o s).img = s.img := rfl
@[simp] theorem emit_eps (o : Output) (s : State) : (emit o s).eps = s.eps := rfl
@[simp] theorem emit_hostLatch (o : Output) (s : State) : (emit o s).hostLatch = s.hostLatch := rfl
@[simp] theorem emit_hostStage (o : Output) (s : State) : (emit o s).hostStage = s.hostStage := rfl
@[simp] theorem emit_dcq (o : Output) (s : State) : (emit o s).dcq = s.dcq := rfl
@[simp] theorem emit_net (o : Output) (s : State) : (emit o s).net = s.net := rfl
@[simp] theorem emit_rma (o : Output) (s : State) : (emit o s).rma = s.rma := rfl
@[simp] theorem emit_wlg (o : Output) (s : State) : (emit o s).wlg = s.wlg := rfl
@[simp] theorem emit_red (o : Output) (s : State) : (emit o s).red = s.red := rfl
@[simp] theorem emit_kc (o : Output) (s : State) : (emit o s).kc = s.kc := rfl
@[simp] theorem emit_sec (o : Output) (s : State) : (emit o s).sec = s.sec := rfl
@[simp] theorem emit_dig (o : Output) (s : State) : (emit o s).dig = s.dig := rfl
@[simp] theorem emit_med (o : Output) (s : State) : (emit o s).med = s.med := rfl
@[simp] theorem emit_mmg (o : Output) (s : State) : (emit o s).mmg = s.mmg := rfl
@[simp] theorem emit_ecp (o : Output) (s : State) : (emit o s).ecp = s.ecp := rfl
@[simp] theorem emit_xhl (o : Output) (s : State) : (emit o s).xhl = s.xhl := rfl
@[simp] theorem emit_drc (o : Output) (s : State) : (emit o s).drc = s.drc := rfl
@[simp] theorem emit_cle (o : Output) (s : State) : (emit o s).cle = s.cle := rfl
@[simp] theorem emit_flt (o : Output) (s : State) : (emit o s).flt = s.flt := rfl
@[simp] theorem emit_alm (o : Output) (s : State) : (emit o s).alm = s.alm := rfl
@[simp] theorem emit_upd (o : Output) (s : State) : (emit o s).upd = s.upd := rfl
@[simp] theorem emit_nor (o : Output) (s : State) : (emit o s).nor = s.nor := rfl
@[simp] theorem emit_lz (o : Output) (s : State) : (emit o s).lz = s.lz := rfl
@[simp] theorem emit_sram (o : Output) (s : State) : (emit o s).sram = s.sram := rfl
@[simp] theorem emit_hostData (o : Output) (s : State) : (emit o s).hostData = s.hostData := rfl
@[simp] theorem emit_freeCtr (o : Output) (s : State) : (emit o s).freeCtr = s.freeCtr := rfl
@[simp] theorem emit_pending (o : Output) (s : State) : (emit o s).pending = s.pending := rfl
@[simp] theorem modEp_own (e : Nat) (f : Endpoint → Endpoint) (s : State) : (modEp e f s).eps = s.eps.modify e f := rfl
@[simp] theorem modEp_glb (e : Nat) (f : Endpoint → Endpoint) (s : State) : (modEp e f s).glb = s.glb := rfl
@[simp] theorem modEp_pwr (e : Nat) (f : Endpoint → Endpoint) (s : State) : (modEp e f s).pwr = s.pwr := rfl
@[simp] theorem modEp_island (e : Nat) (f : Endpoint → Endpoint) (s : State) : (modEp e f s).island = s.island := rfl
@[simp] theorem modEp_lds (e : Nat) (f : Endpoint → Endpoint) (s : State) : (modEp e f s).lds = s.lds := rfl
@[simp] theorem modEp_fuses (e : Nat) (f : Endpoint → Endpoint) (s : State) : (modEp e f s).fuses = s.fuses := rfl
@[simp] theorem modEp_cfg (e : Nat) (f : Endpoint → Endpoint) (s : State) : (modEp e f s).cfg = s.cfg := rfl
@[simp] theorem modEp_img (e : Nat) (f : Endpoint → Endpoint) (s : State) : (modEp e f s).img = s.img := rfl
@[simp] theorem modEp_hostLatch (e : Nat) (f : Endpoint → Endpoint) (s : State) : (modEp e f s).hostLatch = s.hostLatch := rfl
@[simp] theorem modEp_hostStage (e : Nat) (f : Endpoint → Endpoint) (s : State) : (modEp e f s).hostStage = s.hostStage := rfl
@[simp] theorem modEp_dcq (e : Nat) (f : Endpoint → Endpoint) (s : State) : (modEp e f s).dcq = s.dcq := rfl
@[simp] theorem modEp_net (e : Nat) (f : Endpoint → Endpoint) (s : State) : (modEp e f s).net = s.net := rfl
@[simp] theorem modEp_rma (e : Nat) (f : Endpoint → Endpoint) (s : State) : (modEp e f s).rma = s.rma := rfl
@[simp] theorem modEp_wlg (e : Nat) (f : Endpoint → Endpoint) (s : State) : (modEp e f s).wlg = s.wlg := rfl
@[simp] theorem modEp_red (e : Nat) (f : Endpoint → Endpoint) (s : State) : (modEp e f s).red = s.red := rfl
@[simp] theorem modEp_kc (e : Nat) (f : Endpoint → Endpoint) (s : State) : (modEp e f s).kc = s.kc := rfl
@[simp] theorem modEp_sec (e : Nat) (f : Endpoint → Endpoint) (s : State) : (modEp e f s).sec = s.sec := rfl
@[simp] theorem modEp_dig (e : Nat) (f : Endpoint → Endpoint) (s : State) : (modEp e f s).dig = s.dig := rfl
@[simp] theorem modEp_med (e : Nat) (f : Endpoint → Endpoint) (s : State) : (modEp e f s).med = s.med := rfl
@[simp] theorem modEp_mmg (e : Nat) (f : Endpoint → Endpoint) (s : State) : (modEp e f s).mmg = s.mmg := rfl
@[simp] theorem modEp_ecp (e : Nat) (f : Endpoint → Endpoint) (s : State) : (modEp e f s).ecp = s.ecp := rfl
@[simp] theorem modEp_xhl (e : Nat) (f : Endpoint → Endpoint) (s : State) : (modEp e f s).xhl = s.xhl := rfl
@[simp] theorem modEp_drc (e : Nat) (f : Endpoint → Endpoint) (s : State) : (modEp e f s).drc = s.drc := rfl
@[simp] theorem modEp_cle (e : Nat) (f : Endpoint → Endpoint) (s : State) : (modEp e f s).cle = s.cle := rfl
@[simp] theorem modEp_flt (e : Nat) (f : Endpoint → Endpoint) (s : State) : (modEp e f s).flt = s.flt := rfl
@[simp] theorem modEp_alm (e : Nat) (f : Endpoint → Endpoint) (s : State) : (modEp e f s).alm = s.alm := rfl
@[simp] theorem modEp_upd (e : Nat) (f : Endpoint → Endpoint) (s : State) : (modEp e f s).upd = s.upd := rfl
@[simp] theorem modEp_nor (e : Nat) (f : Endpoint → Endpoint) (s : State) : (modEp e f s).nor = s.nor := rfl
@[simp] theorem modEp_lz (e : Nat) (f : Endpoint → Endpoint) (s : State) : (modEp e f s).lz = s.lz := rfl
@[simp] theorem modEp_sram (e : Nat) (f : Endpoint → Endpoint) (s : State) : (modEp e f s).sram = s.sram := rfl
@[simp] theorem modEp_hostData (e : Nat) (f : Endpoint → Endpoint) (s : State) : (modEp e f s).hostData = s.hostData := rfl
@[simp] theorem modEp_out (e : Nat) (f : Endpoint → Endpoint) (s : State) : (modEp e f s).out = s.out := rfl
@[simp] theorem modEp_freeCtr (e : Nat) (f : Endpoint → Endpoint) (s : State) : (modEp e f s).freeCtr = s.freeCtr := rfl
@[simp] theorem modEp_pending (e : Nat) (f : Endpoint → Endpoint) (s : State) : (modEp e f s).pending = s.pending := rfl
@[simp] theorem modQueue_glb (q : QueueId) (f : Queue → Queue) (s : State) : (modQueue q f s).glb = s.glb := rfl
@[simp] theorem modQueue_pwr (q : QueueId) (f : Queue → Queue) (s : State) : (modQueue q f s).pwr = s.pwr := rfl
@[simp] theorem modQueue_island (q : QueueId) (f : Queue → Queue) (s : State) : (modQueue q f s).island = s.island := rfl
@[simp] theorem modQueue_lds (q : QueueId) (f : Queue → Queue) (s : State) : (modQueue q f s).lds = s.lds := rfl
@[simp] theorem modQueue_fuses (q : QueueId) (f : Queue → Queue) (s : State) : (modQueue q f s).fuses = s.fuses := rfl
@[simp] theorem modQueue_cfg (q : QueueId) (f : Queue → Queue) (s : State) : (modQueue q f s).cfg = s.cfg := rfl
@[simp] theorem modQueue_img (q : QueueId) (f : Queue → Queue) (s : State) : (modQueue q f s).img = s.img := rfl
@[simp] theorem modQueue_eps (q : QueueId) (f : Queue → Queue) (s : State) : (modQueue q f s).eps = s.eps := rfl
@[simp] theorem modQueue_hostLatch (q : QueueId) (f : Queue → Queue) (s : State) : (modQueue q f s).hostLatch = s.hostLatch := rfl
@[simp] theorem modQueue_hostStage (q : QueueId) (f : Queue → Queue) (s : State) : (modQueue q f s).hostStage = s.hostStage := rfl
@[simp] theorem modQueue_net (q : QueueId) (f : Queue → Queue) (s : State) : (modQueue q f s).net = s.net := rfl
@[simp] theorem modQueue_rma (q : QueueId) (f : Queue → Queue) (s : State) : (modQueue q f s).rma = s.rma := rfl
@[simp] theorem modQueue_wlg (q : QueueId) (f : Queue → Queue) (s : State) : (modQueue q f s).wlg = s.wlg := rfl
@[simp] theorem modQueue_red (q : QueueId) (f : Queue → Queue) (s : State) : (modQueue q f s).red = s.red := rfl
@[simp] theorem modQueue_kc (q : QueueId) (f : Queue → Queue) (s : State) : (modQueue q f s).kc = s.kc := rfl
@[simp] theorem modQueue_sec (q : QueueId) (f : Queue → Queue) (s : State) : (modQueue q f s).sec = s.sec := rfl
@[simp] theorem modQueue_dig (q : QueueId) (f : Queue → Queue) (s : State) : (modQueue q f s).dig = s.dig := rfl
@[simp] theorem modQueue_med (q : QueueId) (f : Queue → Queue) (s : State) : (modQueue q f s).med = s.med := rfl
@[simp] theorem modQueue_mmg (q : QueueId) (f : Queue → Queue) (s : State) : (modQueue q f s).mmg = s.mmg := rfl
@[simp] theorem modQueue_ecp (q : QueueId) (f : Queue → Queue) (s : State) : (modQueue q f s).ecp = s.ecp := rfl
@[simp] theorem modQueue_xhl (q : QueueId) (f : Queue → Queue) (s : State) : (modQueue q f s).xhl = s.xhl := rfl
@[simp] theorem modQueue_drc (q : QueueId) (f : Queue → Queue) (s : State) : (modQueue q f s).drc = s.drc := rfl
@[simp] theorem modQueue_cle (q : QueueId) (f : Queue → Queue) (s : State) : (modQueue q f s).cle = s.cle := rfl
@[simp] theorem modQueue_flt (q : QueueId) (f : Queue → Queue) (s : State) : (modQueue q f s).flt = s.flt := rfl
@[simp] theorem modQueue_alm (q : QueueId) (f : Queue → Queue) (s : State) : (modQueue q f s).alm = s.alm := rfl
@[simp] theorem modQueue_upd (q : QueueId) (f : Queue → Queue) (s : State) : (modQueue q f s).upd = s.upd := rfl
@[simp] theorem modQueue_nor (q : QueueId) (f : Queue → Queue) (s : State) : (modQueue q f s).nor = s.nor := rfl
@[simp] theorem modQueue_lz (q : QueueId) (f : Queue → Queue) (s : State) : (modQueue q f s).lz = s.lz := rfl
@[simp] theorem modQueue_sram (q : QueueId) (f : Queue → Queue) (s : State) : (modQueue q f s).sram = s.sram := rfl
@[simp] theorem modQueue_hostData (q : QueueId) (f : Queue → Queue) (s : State) : (modQueue q f s).hostData = s.hostData := rfl
@[simp] theorem modQueue_out (q : QueueId) (f : Queue → Queue) (s : State) : (modQueue q f s).out = s.out := rfl
@[simp] theorem modQueue_freeCtr (q : QueueId) (f : Queue → Queue) (s : State) : (modQueue q f s).freeCtr = s.freeCtr := rfl
@[simp] theorem modQueue_pending (q : QueueId) (f : Queue → Queue) (s : State) : (modQueue q f s).pending = s.pending := rfl
@[simp] theorem modCmd_glb (q : QueueId) (t : Nat) (f : Cmd → Cmd) (s : State) : (modCmd q t f s).glb = s.glb := rfl
@[simp] theorem modCmd_pwr (q : QueueId) (t : Nat) (f : Cmd → Cmd) (s : State) : (modCmd q t f s).pwr = s.pwr := rfl
@[simp] theorem modCmd_island (q : QueueId) (t : Nat) (f : Cmd → Cmd) (s : State) : (modCmd q t f s).island = s.island := rfl
@[simp] theorem modCmd_lds (q : QueueId) (t : Nat) (f : Cmd → Cmd) (s : State) : (modCmd q t f s).lds = s.lds := rfl
@[simp] theorem modCmd_fuses (q : QueueId) (t : Nat) (f : Cmd → Cmd) (s : State) : (modCmd q t f s).fuses = s.fuses := rfl
@[simp] theorem modCmd_cfg (q : QueueId) (t : Nat) (f : Cmd → Cmd) (s : State) : (modCmd q t f s).cfg = s.cfg := rfl
@[simp] theorem modCmd_img (q : QueueId) (t : Nat) (f : Cmd → Cmd) (s : State) : (modCmd q t f s).img = s.img := rfl
@[simp] theorem modCmd_eps (q : QueueId) (t : Nat) (f : Cmd → Cmd) (s : State) : (modCmd q t f s).eps = s.eps := rfl
@[simp] theorem modCmd_hostLatch (q : QueueId) (t : Nat) (f : Cmd → Cmd) (s : State) : (modCmd q t f s).hostLatch = s.hostLatch := rfl
@[simp] theorem modCmd_hostStage (q : QueueId) (t : Nat) (f : Cmd → Cmd) (s : State) : (modCmd q t f s).hostStage = s.hostStage := rfl
@[simp] theorem modCmd_net (q : QueueId) (t : Nat) (f : Cmd → Cmd) (s : State) : (modCmd q t f s).net = s.net := rfl
@[simp] theorem modCmd_rma (q : QueueId) (t : Nat) (f : Cmd → Cmd) (s : State) : (modCmd q t f s).rma = s.rma := rfl
@[simp] theorem modCmd_wlg (q : QueueId) (t : Nat) (f : Cmd → Cmd) (s : State) : (modCmd q t f s).wlg = s.wlg := rfl
@[simp] theorem modCmd_red (q : QueueId) (t : Nat) (f : Cmd → Cmd) (s : State) : (modCmd q t f s).red = s.red := rfl
@[simp] theorem modCmd_kc (q : QueueId) (t : Nat) (f : Cmd → Cmd) (s : State) : (modCmd q t f s).kc = s.kc := rfl
@[simp] theorem modCmd_sec (q : QueueId) (t : Nat) (f : Cmd → Cmd) (s : State) : (modCmd q t f s).sec = s.sec := rfl
@[simp] theorem modCmd_dig (q : QueueId) (t : Nat) (f : Cmd → Cmd) (s : State) : (modCmd q t f s).dig = s.dig := rfl
@[simp] theorem modCmd_med (q : QueueId) (t : Nat) (f : Cmd → Cmd) (s : State) : (modCmd q t f s).med = s.med := rfl
@[simp] theorem modCmd_mmg (q : QueueId) (t : Nat) (f : Cmd → Cmd) (s : State) : (modCmd q t f s).mmg = s.mmg := rfl
@[simp] theorem modCmd_ecp (q : QueueId) (t : Nat) (f : Cmd → Cmd) (s : State) : (modCmd q t f s).ecp = s.ecp := rfl
@[simp] theorem modCmd_xhl (q : QueueId) (t : Nat) (f : Cmd → Cmd) (s : State) : (modCmd q t f s).xhl = s.xhl := rfl
@[simp] theorem modCmd_drc (q : QueueId) (t : Nat) (f : Cmd → Cmd) (s : State) : (modCmd q t f s).drc = s.drc := rfl
@[simp] theorem modCmd_cle (q : QueueId) (t : Nat) (f : Cmd → Cmd) (s : State) : (modCmd q t f s).cle = s.cle := rfl
@[simp] theorem modCmd_flt (q : QueueId) (t : Nat) (f : Cmd → Cmd) (s : State) : (modCmd q t f s).flt = s.flt := rfl
@[simp] theorem modCmd_alm (q : QueueId) (t : Nat) (f : Cmd → Cmd) (s : State) : (modCmd q t f s).alm = s.alm := rfl
@[simp] theorem modCmd_upd (q : QueueId) (t : Nat) (f : Cmd → Cmd) (s : State) : (modCmd q t f s).upd = s.upd := rfl
@[simp] theorem modCmd_nor (q : QueueId) (t : Nat) (f : Cmd → Cmd) (s : State) : (modCmd q t f s).nor = s.nor := rfl
@[simp] theorem modCmd_lz (q : QueueId) (t : Nat) (f : Cmd → Cmd) (s : State) : (modCmd q t f s).lz = s.lz := rfl
@[simp] theorem modCmd_sram (q : QueueId) (t : Nat) (f : Cmd → Cmd) (s : State) : (modCmd q t f s).sram = s.sram := rfl
@[simp] theorem modCmd_hostData (q : QueueId) (t : Nat) (f : Cmd → Cmd) (s : State) : (modCmd q t f s).hostData = s.hostData := rfl
@[simp] theorem modCmd_out (q : QueueId) (t : Nat) (f : Cmd → Cmd) (s : State) : (modCmd q t f s).out = s.out := rfl
@[simp] theorem modCmd_freeCtr (q : QueueId) (t : Nat) (f : Cmd → Cmd) (s : State) : (modCmd q t f s).freeCtr = s.freeCtr := rfl
@[simp] theorem modCmd_pending (q : QueueId) (t : Nat) (f : Cmd → Cmd) (s : State) : (modCmd q t f s).pending = s.pending := rfl
@[simp] theorem modPort_own (p : Nat) (f : Med1 → Med1) (s : State) : (modPort p f s).med.ports = s.med.ports.modify p f := rfl
@[simp] theorem modPort_glb (p : Nat) (f : Med1 → Med1) (s : State) : (modPort p f s).glb = s.glb := rfl
@[simp] theorem modPort_pwr (p : Nat) (f : Med1 → Med1) (s : State) : (modPort p f s).pwr = s.pwr := rfl
@[simp] theorem modPort_island (p : Nat) (f : Med1 → Med1) (s : State) : (modPort p f s).island = s.island := rfl
@[simp] theorem modPort_lds (p : Nat) (f : Med1 → Med1) (s : State) : (modPort p f s).lds = s.lds := rfl
@[simp] theorem modPort_fuses (p : Nat) (f : Med1 → Med1) (s : State) : (modPort p f s).fuses = s.fuses := rfl
@[simp] theorem modPort_cfg (p : Nat) (f : Med1 → Med1) (s : State) : (modPort p f s).cfg = s.cfg := rfl
@[simp] theorem modPort_img (p : Nat) (f : Med1 → Med1) (s : State) : (modPort p f s).img = s.img := rfl
@[simp] theorem modPort_eps (p : Nat) (f : Med1 → Med1) (s : State) : (modPort p f s).eps = s.eps := rfl
@[simp] theorem modPort_hostLatch (p : Nat) (f : Med1 → Med1) (s : State) : (modPort p f s).hostLatch = s.hostLatch := rfl
@[simp] theorem modPort_hostStage (p : Nat) (f : Med1 → Med1) (s : State) : (modPort p f s).hostStage = s.hostStage := rfl
@[simp] theorem modPort_dcq (p : Nat) (f : Med1 → Med1) (s : State) : (modPort p f s).dcq = s.dcq := rfl
@[simp] theorem modPort_net (p : Nat) (f : Med1 → Med1) (s : State) : (modPort p f s).net = s.net := rfl
@[simp] theorem modPort_rma (p : Nat) (f : Med1 → Med1) (s : State) : (modPort p f s).rma = s.rma := rfl
@[simp] theorem modPort_wlg (p : Nat) (f : Med1 → Med1) (s : State) : (modPort p f s).wlg = s.wlg := rfl
@[simp] theorem modPort_red (p : Nat) (f : Med1 → Med1) (s : State) : (modPort p f s).red = s.red := rfl
@[simp] theorem modPort_kc (p : Nat) (f : Med1 → Med1) (s : State) : (modPort p f s).kc = s.kc := rfl
@[simp] theorem modPort_sec (p : Nat) (f : Med1 → Med1) (s : State) : (modPort p f s).sec = s.sec := rfl
@[simp] theorem modPort_dig (p : Nat) (f : Med1 → Med1) (s : State) : (modPort p f s).dig = s.dig := rfl
@[simp] theorem modPort_mmg (p : Nat) (f : Med1 → Med1) (s : State) : (modPort p f s).mmg = s.mmg := rfl
@[simp] theorem modPort_ecp (p : Nat) (f : Med1 → Med1) (s : State) : (modPort p f s).ecp = s.ecp := rfl
@[simp] theorem modPort_xhl (p : Nat) (f : Med1 → Med1) (s : State) : (modPort p f s).xhl = s.xhl := rfl
@[simp] theorem modPort_drc (p : Nat) (f : Med1 → Med1) (s : State) : (modPort p f s).drc = s.drc := rfl
@[simp] theorem modPort_cle (p : Nat) (f : Med1 → Med1) (s : State) : (modPort p f s).cle = s.cle := rfl
@[simp] theorem modPort_flt (p : Nat) (f : Med1 → Med1) (s : State) : (modPort p f s).flt = s.flt := rfl
@[simp] theorem modPort_alm (p : Nat) (f : Med1 → Med1) (s : State) : (modPort p f s).alm = s.alm := rfl
@[simp] theorem modPort_upd (p : Nat) (f : Med1 → Med1) (s : State) : (modPort p f s).upd = s.upd := rfl
@[simp] theorem modPort_nor (p : Nat) (f : Med1 → Med1) (s : State) : (modPort p f s).nor = s.nor := rfl
@[simp] theorem modPort_lz (p : Nat) (f : Med1 → Med1) (s : State) : (modPort p f s).lz = s.lz := rfl
@[simp] theorem modPort_sram (p : Nat) (f : Med1 → Med1) (s : State) : (modPort p f s).sram = s.sram := rfl
@[simp] theorem modPort_hostData (p : Nat) (f : Med1 → Med1) (s : State) : (modPort p f s).hostData = s.hostData := rfl
@[simp] theorem modPort_out (p : Nat) (f : Med1 → Med1) (s : State) : (modPort p f s).out = s.out := rfl
@[simp] theorem modPort_freeCtr (p : Nat) (f : Med1 → Med1) (s : State) : (modPort p f s).freeCtr = s.freeCtr := rfl
@[simp] theorem modPort_pending (p : Nat) (f : Med1 → Med1) (s : State) : (modPort p f s).pending = s.pending := rfl
@[simp] theorem modChan_own (c : Nat) (f : Chan → Chan) (s : State) : (modChan c f s).drc.chans = s.drc.chans.modify c f := rfl
@[simp] theorem modChan_glb (c : Nat) (f : Chan → Chan) (s : State) : (modChan c f s).glb = s.glb := rfl
@[simp] theorem modChan_pwr (c : Nat) (f : Chan → Chan) (s : State) : (modChan c f s).pwr = s.pwr := rfl
@[simp] theorem modChan_island (c : Nat) (f : Chan → Chan) (s : State) : (modChan c f s).island = s.island := rfl
@[simp] theorem modChan_lds (c : Nat) (f : Chan → Chan) (s : State) : (modChan c f s).lds = s.lds := rfl
@[simp] theorem modChan_fuses (c : Nat) (f : Chan → Chan) (s : State) : (modChan c f s).fuses = s.fuses := rfl
@[simp] theorem modChan_cfg (c : Nat) (f : Chan → Chan) (s : State) : (modChan c f s).cfg = s.cfg := rfl
@[simp] theorem modChan_img (c : Nat) (f : Chan → Chan) (s : State) : (modChan c f s).img = s.img := rfl
@[simp] theorem modChan_eps (c : Nat) (f : Chan → Chan) (s : State) : (modChan c f s).eps = s.eps := rfl
@[simp] theorem modChan_hostLatch (c : Nat) (f : Chan → Chan) (s : State) : (modChan c f s).hostLatch = s.hostLatch := rfl
@[simp] theorem modChan_hostStage (c : Nat) (f : Chan → Chan) (s : State) : (modChan c f s).hostStage = s.hostStage := rfl
@[simp] theorem modChan_dcq (c : Nat) (f : Chan → Chan) (s : State) : (modChan c f s).dcq = s.dcq := rfl
@[simp] theorem modChan_net (c : Nat) (f : Chan → Chan) (s : State) : (modChan c f s).net = s.net := rfl
@[simp] theorem modChan_rma (c : Nat) (f : Chan → Chan) (s : State) : (modChan c f s).rma = s.rma := rfl
@[simp] theorem modChan_wlg (c : Nat) (f : Chan → Chan) (s : State) : (modChan c f s).wlg = s.wlg := rfl
@[simp] theorem modChan_red (c : Nat) (f : Chan → Chan) (s : State) : (modChan c f s).red = s.red := rfl
@[simp] theorem modChan_kc (c : Nat) (f : Chan → Chan) (s : State) : (modChan c f s).kc = s.kc := rfl
@[simp] theorem modChan_sec (c : Nat) (f : Chan → Chan) (s : State) : (modChan c f s).sec = s.sec := rfl
@[simp] theorem modChan_dig (c : Nat) (f : Chan → Chan) (s : State) : (modChan c f s).dig = s.dig := rfl
@[simp] theorem modChan_med (c : Nat) (f : Chan → Chan) (s : State) : (modChan c f s).med = s.med := rfl
@[simp] theorem modChan_mmg (c : Nat) (f : Chan → Chan) (s : State) : (modChan c f s).mmg = s.mmg := rfl
@[simp] theorem modChan_ecp (c : Nat) (f : Chan → Chan) (s : State) : (modChan c f s).ecp = s.ecp := rfl
@[simp] theorem modChan_xhl (c : Nat) (f : Chan → Chan) (s : State) : (modChan c f s).xhl = s.xhl := rfl
@[simp] theorem modChan_cle (c : Nat) (f : Chan → Chan) (s : State) : (modChan c f s).cle = s.cle := rfl
@[simp] theorem modChan_flt (c : Nat) (f : Chan → Chan) (s : State) : (modChan c f s).flt = s.flt := rfl
@[simp] theorem modChan_alm (c : Nat) (f : Chan → Chan) (s : State) : (modChan c f s).alm = s.alm := rfl
@[simp] theorem modChan_upd (c : Nat) (f : Chan → Chan) (s : State) : (modChan c f s).upd = s.upd := rfl
@[simp] theorem modChan_nor (c : Nat) (f : Chan → Chan) (s : State) : (modChan c f s).nor = s.nor := rfl
@[simp] theorem modChan_lz (c : Nat) (f : Chan → Chan) (s : State) : (modChan c f s).lz = s.lz := rfl
@[simp] theorem modChan_sram (c : Nat) (f : Chan → Chan) (s : State) : (modChan c f s).sram = s.sram := rfl
@[simp] theorem modChan_hostData (c : Nat) (f : Chan → Chan) (s : State) : (modChan c f s).hostData = s.hostData := rfl
@[simp] theorem modChan_out (c : Nat) (f : Chan → Chan) (s : State) : (modChan c f s).out = s.out := rfl
@[simp] theorem modChan_freeCtr (c : Nat) (f : Chan → Chan) (s : State) : (modChan c f s).freeCtr = s.freeCtr := rfl
@[simp] theorem modChan_pending (c : Nat) (f : Chan → Chan) (s : State) : (modChan c f s).pending = s.pending := rfl
@[simp] theorem modLoop_own (n : Nat) (f : Loop → Loop) (s : State) : (modLoop n f s).cle.loops = s.cle.loops.modify n f := rfl
@[simp] theorem modLoop_glb (n : Nat) (f : Loop → Loop) (s : State) : (modLoop n f s).glb = s.glb := rfl
@[simp] theorem modLoop_pwr (n : Nat) (f : Loop → Loop) (s : State) : (modLoop n f s).pwr = s.pwr := rfl
@[simp] theorem modLoop_island (n : Nat) (f : Loop → Loop) (s : State) : (modLoop n f s).island = s.island := rfl
@[simp] theorem modLoop_lds (n : Nat) (f : Loop → Loop) (s : State) : (modLoop n f s).lds = s.lds := rfl
@[simp] theorem modLoop_fuses (n : Nat) (f : Loop → Loop) (s : State) : (modLoop n f s).fuses = s.fuses := rfl
@[simp] theorem modLoop_cfg (n : Nat) (f : Loop → Loop) (s : State) : (modLoop n f s).cfg = s.cfg := rfl
@[simp] theorem modLoop_img (n : Nat) (f : Loop → Loop) (s : State) : (modLoop n f s).img = s.img := rfl
@[simp] theorem modLoop_eps (n : Nat) (f : Loop → Loop) (s : State) : (modLoop n f s).eps = s.eps := rfl
@[simp] theorem modLoop_hostLatch (n : Nat) (f : Loop → Loop) (s : State) : (modLoop n f s).hostLatch = s.hostLatch := rfl
@[simp] theorem modLoop_hostStage (n : Nat) (f : Loop → Loop) (s : State) : (modLoop n f s).hostStage = s.hostStage := rfl
@[simp] theorem modLoop_dcq (n : Nat) (f : Loop → Loop) (s : State) : (modLoop n f s).dcq = s.dcq := rfl
@[simp] theorem modLoop_net (n : Nat) (f : Loop → Loop) (s : State) : (modLoop n f s).net = s.net := rfl
@[simp] theorem modLoop_rma (n : Nat) (f : Loop → Loop) (s : State) : (modLoop n f s).rma = s.rma := rfl
@[simp] theorem modLoop_wlg (n : Nat) (f : Loop → Loop) (s : State) : (modLoop n f s).wlg = s.wlg := rfl
@[simp] theorem modLoop_red (n : Nat) (f : Loop → Loop) (s : State) : (modLoop n f s).red = s.red := rfl
@[simp] theorem modLoop_kc (n : Nat) (f : Loop → Loop) (s : State) : (modLoop n f s).kc = s.kc := rfl
@[simp] theorem modLoop_sec (n : Nat) (f : Loop → Loop) (s : State) : (modLoop n f s).sec = s.sec := rfl
@[simp] theorem modLoop_dig (n : Nat) (f : Loop → Loop) (s : State) : (modLoop n f s).dig = s.dig := rfl
@[simp] theorem modLoop_med (n : Nat) (f : Loop → Loop) (s : State) : (modLoop n f s).med = s.med := rfl
@[simp] theorem modLoop_mmg (n : Nat) (f : Loop → Loop) (s : State) : (modLoop n f s).mmg = s.mmg := rfl
@[simp] theorem modLoop_ecp (n : Nat) (f : Loop → Loop) (s : State) : (modLoop n f s).ecp = s.ecp := rfl
@[simp] theorem modLoop_xhl (n : Nat) (f : Loop → Loop) (s : State) : (modLoop n f s).xhl = s.xhl := rfl
@[simp] theorem modLoop_drc (n : Nat) (f : Loop → Loop) (s : State) : (modLoop n f s).drc = s.drc := rfl
@[simp] theorem modLoop_flt (n : Nat) (f : Loop → Loop) (s : State) : (modLoop n f s).flt = s.flt := rfl
@[simp] theorem modLoop_alm (n : Nat) (f : Loop → Loop) (s : State) : (modLoop n f s).alm = s.alm := rfl
@[simp] theorem modLoop_upd (n : Nat) (f : Loop → Loop) (s : State) : (modLoop n f s).upd = s.upd := rfl
@[simp] theorem modLoop_nor (n : Nat) (f : Loop → Loop) (s : State) : (modLoop n f s).nor = s.nor := rfl
@[simp] theorem modLoop_lz (n : Nat) (f : Loop → Loop) (s : State) : (modLoop n f s).lz = s.lz := rfl
@[simp] theorem modLoop_sram (n : Nat) (f : Loop → Loop) (s : State) : (modLoop n f s).sram = s.sram := rfl
@[simp] theorem modLoop_hostData (n : Nat) (f : Loop → Loop) (s : State) : (modLoop n f s).hostData = s.hostData := rfl
@[simp] theorem modLoop_out (n : Nat) (f : Loop → Loop) (s : State) : (modLoop n f s).out = s.out := rfl
@[simp] theorem modLoop_freeCtr (n : Nat) (f : Loop → Loop) (s : State) : (modLoop n f s).freeCtr = s.freeCtr := rfl
@[simp] theorem modLoop_pending (n : Nat) (f : Loop → Loop) (s : State) : (modLoop n f s).pending = s.pending := rfl
@[simp] theorem modSlotPwr_own (n : Nat) (f : SlotPwr → SlotPwr) (s : State) : (modSlotPwr n f s).cle.slots = s.cle.slots.modify n f := rfl
@[simp] theorem modSlotPwr_glb (n : Nat) (f : SlotPwr → SlotPwr) (s : State) : (modSlotPwr n f s).glb = s.glb := rfl
@[simp] theorem modSlotPwr_pwr (n : Nat) (f : SlotPwr → SlotPwr) (s : State) : (modSlotPwr n f s).pwr = s.pwr := rfl
@[simp] theorem modSlotPwr_island (n : Nat) (f : SlotPwr → SlotPwr) (s : State) : (modSlotPwr n f s).island = s.island := rfl
@[simp] theorem modSlotPwr_lds (n : Nat) (f : SlotPwr → SlotPwr) (s : State) : (modSlotPwr n f s).lds = s.lds := rfl
@[simp] theorem modSlotPwr_fuses (n : Nat) (f : SlotPwr → SlotPwr) (s : State) : (modSlotPwr n f s).fuses = s.fuses := rfl
@[simp] theorem modSlotPwr_cfg (n : Nat) (f : SlotPwr → SlotPwr) (s : State) : (modSlotPwr n f s).cfg = s.cfg := rfl
@[simp] theorem modSlotPwr_img (n : Nat) (f : SlotPwr → SlotPwr) (s : State) : (modSlotPwr n f s).img = s.img := rfl
@[simp] theorem modSlotPwr_eps (n : Nat) (f : SlotPwr → SlotPwr) (s : State) : (modSlotPwr n f s).eps = s.eps := rfl
@[simp] theorem modSlotPwr_hostLatch (n : Nat) (f : SlotPwr → SlotPwr) (s : State) : (modSlotPwr n f s).hostLatch = s.hostLatch := rfl
@[simp] theorem modSlotPwr_hostStage (n : Nat) (f : SlotPwr → SlotPwr) (s : State) : (modSlotPwr n f s).hostStage = s.hostStage := rfl
@[simp] theorem modSlotPwr_dcq (n : Nat) (f : SlotPwr → SlotPwr) (s : State) : (modSlotPwr n f s).dcq = s.dcq := rfl
@[simp] theorem modSlotPwr_net (n : Nat) (f : SlotPwr → SlotPwr) (s : State) : (modSlotPwr n f s).net = s.net := rfl
@[simp] theorem modSlotPwr_rma (n : Nat) (f : SlotPwr → SlotPwr) (s : State) : (modSlotPwr n f s).rma = s.rma := rfl
@[simp] theorem modSlotPwr_wlg (n : Nat) (f : SlotPwr → SlotPwr) (s : State) : (modSlotPwr n f s).wlg = s.wlg := rfl
@[simp] theorem modSlotPwr_red (n : Nat) (f : SlotPwr → SlotPwr) (s : State) : (modSlotPwr n f s).red = s.red := rfl
@[simp] theorem modSlotPwr_kc (n : Nat) (f : SlotPwr → SlotPwr) (s : State) : (modSlotPwr n f s).kc = s.kc := rfl
@[simp] theorem modSlotPwr_sec (n : Nat) (f : SlotPwr → SlotPwr) (s : State) : (modSlotPwr n f s).sec = s.sec := rfl
@[simp] theorem modSlotPwr_dig (n : Nat) (f : SlotPwr → SlotPwr) (s : State) : (modSlotPwr n f s).dig = s.dig := rfl
@[simp] theorem modSlotPwr_med (n : Nat) (f : SlotPwr → SlotPwr) (s : State) : (modSlotPwr n f s).med = s.med := rfl
@[simp] theorem modSlotPwr_mmg (n : Nat) (f : SlotPwr → SlotPwr) (s : State) : (modSlotPwr n f s).mmg = s.mmg := rfl
@[simp] theorem modSlotPwr_ecp (n : Nat) (f : SlotPwr → SlotPwr) (s : State) : (modSlotPwr n f s).ecp = s.ecp := rfl
@[simp] theorem modSlotPwr_xhl (n : Nat) (f : SlotPwr → SlotPwr) (s : State) : (modSlotPwr n f s).xhl = s.xhl := rfl
@[simp] theorem modSlotPwr_drc (n : Nat) (f : SlotPwr → SlotPwr) (s : State) : (modSlotPwr n f s).drc = s.drc := rfl
@[simp] theorem modSlotPwr_flt (n : Nat) (f : SlotPwr → SlotPwr) (s : State) : (modSlotPwr n f s).flt = s.flt := rfl
@[simp] theorem modSlotPwr_alm (n : Nat) (f : SlotPwr → SlotPwr) (s : State) : (modSlotPwr n f s).alm = s.alm := rfl
@[simp] theorem modSlotPwr_upd (n : Nat) (f : SlotPwr → SlotPwr) (s : State) : (modSlotPwr n f s).upd = s.upd := rfl
@[simp] theorem modSlotPwr_nor (n : Nat) (f : SlotPwr → SlotPwr) (s : State) : (modSlotPwr n f s).nor = s.nor := rfl
@[simp] theorem modSlotPwr_lz (n : Nat) (f : SlotPwr → SlotPwr) (s : State) : (modSlotPwr n f s).lz = s.lz := rfl
@[simp] theorem modSlotPwr_sram (n : Nat) (f : SlotPwr → SlotPwr) (s : State) : (modSlotPwr n f s).sram = s.sram := rfl
@[simp] theorem modSlotPwr_hostData (n : Nat) (f : SlotPwr → SlotPwr) (s : State) : (modSlotPwr n f s).hostData = s.hostData := rfl
@[simp] theorem modSlotPwr_out (n : Nat) (f : SlotPwr → SlotPwr) (s : State) : (modSlotPwr n f s).out = s.out := rfl
@[simp] theorem modSlotPwr_freeCtr (n : Nat) (f : SlotPwr → SlotPwr) (s : State) : (modSlotPwr n f s).freeCtr = s.freeCtr := rfl
@[simp] theorem modSlotPwr_pending (n : Nat) (f : SlotPwr → SlotPwr) (s : State) : (modSlotPwr n f s).pending = s.pending := rfl
@[simp] theorem modSlot_own (n : Nat) (f : Slot → Slot) (s : State) : (modSlot n f s).ecp.slots = s.ecp.slots.modify n f := rfl
@[simp] theorem modSlot_glb (n : Nat) (f : Slot → Slot) (s : State) : (modSlot n f s).glb = s.glb := rfl
@[simp] theorem modSlot_pwr (n : Nat) (f : Slot → Slot) (s : State) : (modSlot n f s).pwr = s.pwr := rfl
@[simp] theorem modSlot_island (n : Nat) (f : Slot → Slot) (s : State) : (modSlot n f s).island = s.island := rfl
@[simp] theorem modSlot_lds (n : Nat) (f : Slot → Slot) (s : State) : (modSlot n f s).lds = s.lds := rfl
@[simp] theorem modSlot_fuses (n : Nat) (f : Slot → Slot) (s : State) : (modSlot n f s).fuses = s.fuses := rfl
@[simp] theorem modSlot_cfg (n : Nat) (f : Slot → Slot) (s : State) : (modSlot n f s).cfg = s.cfg := rfl
@[simp] theorem modSlot_img (n : Nat) (f : Slot → Slot) (s : State) : (modSlot n f s).img = s.img := rfl
@[simp] theorem modSlot_eps (n : Nat) (f : Slot → Slot) (s : State) : (modSlot n f s).eps = s.eps := rfl
@[simp] theorem modSlot_hostLatch (n : Nat) (f : Slot → Slot) (s : State) : (modSlot n f s).hostLatch = s.hostLatch := rfl
@[simp] theorem modSlot_hostStage (n : Nat) (f : Slot → Slot) (s : State) : (modSlot n f s).hostStage = s.hostStage := rfl
@[simp] theorem modSlot_dcq (n : Nat) (f : Slot → Slot) (s : State) : (modSlot n f s).dcq = s.dcq := rfl
@[simp] theorem modSlot_net (n : Nat) (f : Slot → Slot) (s : State) : (modSlot n f s).net = s.net := rfl
@[simp] theorem modSlot_rma (n : Nat) (f : Slot → Slot) (s : State) : (modSlot n f s).rma = s.rma := rfl
@[simp] theorem modSlot_wlg (n : Nat) (f : Slot → Slot) (s : State) : (modSlot n f s).wlg = s.wlg := rfl
@[simp] theorem modSlot_red (n : Nat) (f : Slot → Slot) (s : State) : (modSlot n f s).red = s.red := rfl
@[simp] theorem modSlot_kc (n : Nat) (f : Slot → Slot) (s : State) : (modSlot n f s).kc = s.kc := rfl
@[simp] theorem modSlot_sec (n : Nat) (f : Slot → Slot) (s : State) : (modSlot n f s).sec = s.sec := rfl
@[simp] theorem modSlot_dig (n : Nat) (f : Slot → Slot) (s : State) : (modSlot n f s).dig = s.dig := rfl
@[simp] theorem modSlot_med (n : Nat) (f : Slot → Slot) (s : State) : (modSlot n f s).med = s.med := rfl
@[simp] theorem modSlot_mmg (n : Nat) (f : Slot → Slot) (s : State) : (modSlot n f s).mmg = s.mmg := rfl
@[simp] theorem modSlot_xhl (n : Nat) (f : Slot → Slot) (s : State) : (modSlot n f s).xhl = s.xhl := rfl
@[simp] theorem modSlot_drc (n : Nat) (f : Slot → Slot) (s : State) : (modSlot n f s).drc = s.drc := rfl
@[simp] theorem modSlot_cle (n : Nat) (f : Slot → Slot) (s : State) : (modSlot n f s).cle = s.cle := rfl
@[simp] theorem modSlot_flt (n : Nat) (f : Slot → Slot) (s : State) : (modSlot n f s).flt = s.flt := rfl
@[simp] theorem modSlot_alm (n : Nat) (f : Slot → Slot) (s : State) : (modSlot n f s).alm = s.alm := rfl
@[simp] theorem modSlot_upd (n : Nat) (f : Slot → Slot) (s : State) : (modSlot n f s).upd = s.upd := rfl
@[simp] theorem modSlot_nor (n : Nat) (f : Slot → Slot) (s : State) : (modSlot n f s).nor = s.nor := rfl
@[simp] theorem modSlot_lz (n : Nat) (f : Slot → Slot) (s : State) : (modSlot n f s).lz = s.lz := rfl
@[simp] theorem modSlot_sram (n : Nat) (f : Slot → Slot) (s : State) : (modSlot n f s).sram = s.sram := rfl
@[simp] theorem modSlot_hostData (n : Nat) (f : Slot → Slot) (s : State) : (modSlot n f s).hostData = s.hostData := rfl
@[simp] theorem modSlot_out (n : Nat) (f : Slot → Slot) (s : State) : (modSlot n f s).out = s.out := rfl
@[simp] theorem modSlot_freeCtr (n : Nat) (f : Slot → Slot) (s : State) : (modSlot n f s).freeCtr = s.freeCtr := rfl
@[simp] theorem modSlot_pending (n : Nat) (f : Slot → Slot) (s : State) : (modSlot n f s).pending = s.pending := rfl
@[simp] theorem modVol_glb (v : Nat) (f : Volume → Volume) (s : State) : (modVol v f s).glb = s.glb := rfl
@[simp] theorem modVol_pwr (v : Nat) (f : Volume → Volume) (s : State) : (modVol v f s).pwr = s.pwr := rfl
@[simp] theorem modVol_island (v : Nat) (f : Volume → Volume) (s : State) : (modVol v f s).island = s.island := rfl
@[simp] theorem modVol_lds (v : Nat) (f : Volume → Volume) (s : State) : (modVol v f s).lds = s.lds := rfl
@[simp] theorem modVol_fuses (v : Nat) (f : Volume → Volume) (s : State) : (modVol v f s).fuses = s.fuses := rfl
@[simp] theorem modVol_cfg (v : Nat) (f : Volume → Volume) (s : State) : (modVol v f s).cfg = s.cfg := rfl
@[simp] theorem modVol_img (v : Nat) (f : Volume → Volume) (s : State) : (modVol v f s).img = s.img := rfl
@[simp] theorem modVol_eps (v : Nat) (f : Volume → Volume) (s : State) : (modVol v f s).eps = s.eps := rfl
@[simp] theorem modVol_hostLatch (v : Nat) (f : Volume → Volume) (s : State) : (modVol v f s).hostLatch = s.hostLatch := rfl
@[simp] theorem modVol_hostStage (v : Nat) (f : Volume → Volume) (s : State) : (modVol v f s).hostStage = s.hostStage := rfl
@[simp] theorem modVol_dcq (v : Nat) (f : Volume → Volume) (s : State) : (modVol v f s).dcq = s.dcq := rfl
@[simp] theorem modVol_net (v : Nat) (f : Volume → Volume) (s : State) : (modVol v f s).net = s.net := rfl
@[simp] theorem modVol_rma (v : Nat) (f : Volume → Volume) (s : State) : (modVol v f s).rma = s.rma := rfl
@[simp] theorem modVol_wlg (v : Nat) (f : Volume → Volume) (s : State) : (modVol v f s).wlg = s.wlg := rfl
@[simp] theorem modVol_kc (v : Nat) (f : Volume → Volume) (s : State) : (modVol v f s).kc = s.kc := rfl
@[simp] theorem modVol_sec (v : Nat) (f : Volume → Volume) (s : State) : (modVol v f s).sec = s.sec := rfl
@[simp] theorem modVol_dig (v : Nat) (f : Volume → Volume) (s : State) : (modVol v f s).dig = s.dig := rfl
@[simp] theorem modVol_med (v : Nat) (f : Volume → Volume) (s : State) : (modVol v f s).med = s.med := rfl
@[simp] theorem modVol_mmg (v : Nat) (f : Volume → Volume) (s : State) : (modVol v f s).mmg = s.mmg := rfl
@[simp] theorem modVol_ecp (v : Nat) (f : Volume → Volume) (s : State) : (modVol v f s).ecp = s.ecp := rfl
@[simp] theorem modVol_xhl (v : Nat) (f : Volume → Volume) (s : State) : (modVol v f s).xhl = s.xhl := rfl
@[simp] theorem modVol_drc (v : Nat) (f : Volume → Volume) (s : State) : (modVol v f s).drc = s.drc := rfl
@[simp] theorem modVol_cle (v : Nat) (f : Volume → Volume) (s : State) : (modVol v f s).cle = s.cle := rfl
@[simp] theorem modVol_flt (v : Nat) (f : Volume → Volume) (s : State) : (modVol v f s).flt = s.flt := rfl
@[simp] theorem modVol_alm (v : Nat) (f : Volume → Volume) (s : State) : (modVol v f s).alm = s.alm := rfl
@[simp] theorem modVol_upd (v : Nat) (f : Volume → Volume) (s : State) : (modVol v f s).upd = s.upd := rfl
@[simp] theorem modVol_nor (v : Nat) (f : Volume → Volume) (s : State) : (modVol v f s).nor = s.nor := rfl
@[simp] theorem modVol_lz (v : Nat) (f : Volume → Volume) (s : State) : (modVol v f s).lz = s.lz := rfl
@[simp] theorem modVol_sram (v : Nat) (f : Volume → Volume) (s : State) : (modVol v f s).sram = s.sram := rfl
@[simp] theorem modVol_hostData (v : Nat) (f : Volume → Volume) (s : State) : (modVol v f s).hostData = s.hostData := rfl
@[simp] theorem modVol_out (v : Nat) (f : Volume → Volume) (s : State) : (modVol v f s).out = s.out := rfl
@[simp] theorem modVol_freeCtr (v : Nat) (f : Volume → Volume) (s : State) : (modVol v f s).freeCtr = s.freeCtr := rfl
@[simp] theorem modVol_pending (v : Nat) (f : Volume → Volume) (s : State) : (modVol v f s).pending = s.pending := rfl
@[simp] theorem modQp_glb (n : Nat) (f : Qp → Qp) (s : State) : (modQp n f s).glb = s.glb := rfl
@[simp] theorem modQp_pwr (n : Nat) (f : Qp → Qp) (s : State) : (modQp n f s).pwr = s.pwr := rfl
@[simp] theorem modQp_island (n : Nat) (f : Qp → Qp) (s : State) : (modQp n f s).island = s.island := rfl
@[simp] theorem modQp_lds (n : Nat) (f : Qp → Qp) (s : State) : (modQp n f s).lds = s.lds := rfl
@[simp] theorem modQp_fuses (n : Nat) (f : Qp → Qp) (s : State) : (modQp n f s).fuses = s.fuses := rfl
@[simp] theorem modQp_cfg (n : Nat) (f : Qp → Qp) (s : State) : (modQp n f s).cfg = s.cfg := rfl
@[simp] theorem modQp_img (n : Nat) (f : Qp → Qp) (s : State) : (modQp n f s).img = s.img := rfl
@[simp] theorem modQp_eps (n : Nat) (f : Qp → Qp) (s : State) : (modQp n f s).eps = s.eps := rfl
@[simp] theorem modQp_hostLatch (n : Nat) (f : Qp → Qp) (s : State) : (modQp n f s).hostLatch = s.hostLatch := rfl
@[simp] theorem modQp_hostStage (n : Nat) (f : Qp → Qp) (s : State) : (modQp n f s).hostStage = s.hostStage := rfl
@[simp] theorem modQp_dcq (n : Nat) (f : Qp → Qp) (s : State) : (modQp n f s).dcq = s.dcq := rfl
@[simp] theorem modQp_rma (n : Nat) (f : Qp → Qp) (s : State) : (modQp n f s).rma = s.rma := rfl
@[simp] theorem modQp_wlg (n : Nat) (f : Qp → Qp) (s : State) : (modQp n f s).wlg = s.wlg := rfl
@[simp] theorem modQp_red (n : Nat) (f : Qp → Qp) (s : State) : (modQp n f s).red = s.red := rfl
@[simp] theorem modQp_kc (n : Nat) (f : Qp → Qp) (s : State) : (modQp n f s).kc = s.kc := rfl
@[simp] theorem modQp_sec (n : Nat) (f : Qp → Qp) (s : State) : (modQp n f s).sec = s.sec := rfl
@[simp] theorem modQp_dig (n : Nat) (f : Qp → Qp) (s : State) : (modQp n f s).dig = s.dig := rfl
@[simp] theorem modQp_med (n : Nat) (f : Qp → Qp) (s : State) : (modQp n f s).med = s.med := rfl
@[simp] theorem modQp_mmg (n : Nat) (f : Qp → Qp) (s : State) : (modQp n f s).mmg = s.mmg := rfl
@[simp] theorem modQp_ecp (n : Nat) (f : Qp → Qp) (s : State) : (modQp n f s).ecp = s.ecp := rfl
@[simp] theorem modQp_xhl (n : Nat) (f : Qp → Qp) (s : State) : (modQp n f s).xhl = s.xhl := rfl
@[simp] theorem modQp_drc (n : Nat) (f : Qp → Qp) (s : State) : (modQp n f s).drc = s.drc := rfl
@[simp] theorem modQp_cle (n : Nat) (f : Qp → Qp) (s : State) : (modQp n f s).cle = s.cle := rfl
@[simp] theorem modQp_flt (n : Nat) (f : Qp → Qp) (s : State) : (modQp n f s).flt = s.flt := rfl
@[simp] theorem modQp_alm (n : Nat) (f : Qp → Qp) (s : State) : (modQp n f s).alm = s.alm := rfl
@[simp] theorem modQp_upd (n : Nat) (f : Qp → Qp) (s : State) : (modQp n f s).upd = s.upd := rfl
@[simp] theorem modQp_nor (n : Nat) (f : Qp → Qp) (s : State) : (modQp n f s).nor = s.nor := rfl
@[simp] theorem modQp_lz (n : Nat) (f : Qp → Qp) (s : State) : (modQp n f s).lz = s.lz := rfl
@[simp] theorem modQp_sram (n : Nat) (f : Qp → Qp) (s : State) : (modQp n f s).sram = s.sram := rfl
@[simp] theorem modQp_hostData (n : Nat) (f : Qp → Qp) (s : State) : (modQp n f s).hostData = s.hostData := rfl
@[simp] theorem modQp_out (n : Nat) (f : Qp → Qp) (s : State) : (modQp n f s).out = s.out := rfl
@[simp] theorem modQp_freeCtr (n : Nat) (f : Qp → Qp) (s : State) : (modQp n f s).freeCtr = s.freeCtr := rfl
@[simp] theorem modQp_pending (n : Nat) (f : Qp → Qp) (s : State) : (modQp n f s).pending = s.pending := rfl
@[simp] theorem modNetPort_glb (n : Nat) (f : NetPort → NetPort) (s : State) : (modNetPort n f s).glb = s.glb := rfl
@[simp] theorem modNetPort_pwr (n : Nat) (f : NetPort → NetPort) (s : State) : (modNetPort n f s).pwr = s.pwr := rfl
@[simp] theorem modNetPort_island (n : Nat) (f : NetPort → NetPort) (s : State) : (modNetPort n f s).island = s.island := rfl
@[simp] theorem modNetPort_lds (n : Nat) (f : NetPort → NetPort) (s : State) : (modNetPort n f s).lds = s.lds := rfl
@[simp] theorem modNetPort_fuses (n : Nat) (f : NetPort → NetPort) (s : State) : (modNetPort n f s).fuses = s.fuses := rfl
@[simp] theorem modNetPort_cfg (n : Nat) (f : NetPort → NetPort) (s : State) : (modNetPort n f s).cfg = s.cfg := rfl
@[simp] theorem modNetPort_img (n : Nat) (f : NetPort → NetPort) (s : State) : (modNetPort n f s).img = s.img := rfl
@[simp] theorem modNetPort_eps (n : Nat) (f : NetPort → NetPort) (s : State) : (modNetPort n f s).eps = s.eps := rfl
@[simp] theorem modNetPort_hostLatch (n : Nat) (f : NetPort → NetPort) (s : State) : (modNetPort n f s).hostLatch = s.hostLatch := rfl
@[simp] theorem modNetPort_hostStage (n : Nat) (f : NetPort → NetPort) (s : State) : (modNetPort n f s).hostStage = s.hostStage := rfl
@[simp] theorem modNetPort_dcq (n : Nat) (f : NetPort → NetPort) (s : State) : (modNetPort n f s).dcq = s.dcq := rfl
@[simp] theorem modNetPort_rma (n : Nat) (f : NetPort → NetPort) (s : State) : (modNetPort n f s).rma = s.rma := rfl
@[simp] theorem modNetPort_wlg (n : Nat) (f : NetPort → NetPort) (s : State) : (modNetPort n f s).wlg = s.wlg := rfl
@[simp] theorem modNetPort_red (n : Nat) (f : NetPort → NetPort) (s : State) : (modNetPort n f s).red = s.red := rfl
@[simp] theorem modNetPort_kc (n : Nat) (f : NetPort → NetPort) (s : State) : (modNetPort n f s).kc = s.kc := rfl
@[simp] theorem modNetPort_sec (n : Nat) (f : NetPort → NetPort) (s : State) : (modNetPort n f s).sec = s.sec := rfl
@[simp] theorem modNetPort_dig (n : Nat) (f : NetPort → NetPort) (s : State) : (modNetPort n f s).dig = s.dig := rfl
@[simp] theorem modNetPort_med (n : Nat) (f : NetPort → NetPort) (s : State) : (modNetPort n f s).med = s.med := rfl
@[simp] theorem modNetPort_mmg (n : Nat) (f : NetPort → NetPort) (s : State) : (modNetPort n f s).mmg = s.mmg := rfl
@[simp] theorem modNetPort_ecp (n : Nat) (f : NetPort → NetPort) (s : State) : (modNetPort n f s).ecp = s.ecp := rfl
@[simp] theorem modNetPort_xhl (n : Nat) (f : NetPort → NetPort) (s : State) : (modNetPort n f s).xhl = s.xhl := rfl
@[simp] theorem modNetPort_drc (n : Nat) (f : NetPort → NetPort) (s : State) : (modNetPort n f s).drc = s.drc := rfl
@[simp] theorem modNetPort_cle (n : Nat) (f : NetPort → NetPort) (s : State) : (modNetPort n f s).cle = s.cle := rfl
@[simp] theorem modNetPort_flt (n : Nat) (f : NetPort → NetPort) (s : State) : (modNetPort n f s).flt = s.flt := rfl
@[simp] theorem modNetPort_alm (n : Nat) (f : NetPort → NetPort) (s : State) : (modNetPort n f s).alm = s.alm := rfl
@[simp] theorem modNetPort_upd (n : Nat) (f : NetPort → NetPort) (s : State) : (modNetPort n f s).upd = s.upd := rfl
@[simp] theorem modNetPort_nor (n : Nat) (f : NetPort → NetPort) (s : State) : (modNetPort n f s).nor = s.nor := rfl
@[simp] theorem modNetPort_lz (n : Nat) (f : NetPort → NetPort) (s : State) : (modNetPort n f s).lz = s.lz := rfl
@[simp] theorem modNetPort_sram (n : Nat) (f : NetPort → NetPort) (s : State) : (modNetPort n f s).sram = s.sram := rfl
@[simp] theorem modNetPort_hostData (n : Nat) (f : NetPort → NetPort) (s : State) : (modNetPort n f s).hostData = s.hostData := rfl
@[simp] theorem modNetPort_out (n : Nat) (f : NetPort → NetPort) (s : State) : (modNetPort n f s).out = s.out := rfl
@[simp] theorem modNetPort_freeCtr (n : Nat) (f : NetPort → NetPort) (s : State) : (modNetPort n f s).freeCtr = s.freeCtr := rfl
@[simp] theorem modNetPort_pending (n : Nat) (f : NetPort → NetPort) (s : State) : (modNetPort n f s).pending = s.pending := rfl
@[simp] theorem modLink_own (l : Nat) (f : Repl → Repl) (s : State) : (modLink l f s).rma.links = s.rma.links.modify l f := rfl
@[simp] theorem modLink_glb (l : Nat) (f : Repl → Repl) (s : State) : (modLink l f s).glb = s.glb := rfl
@[simp] theorem modLink_pwr (l : Nat) (f : Repl → Repl) (s : State) : (modLink l f s).pwr = s.pwr := rfl
@[simp] theorem modLink_island (l : Nat) (f : Repl → Repl) (s : State) : (modLink l f s).island = s.island := rfl
@[simp] theorem modLink_lds (l : Nat) (f : Repl → Repl) (s : State) : (modLink l f s).lds = s.lds := rfl
@[simp] theorem modLink_fuses (l : Nat) (f : Repl → Repl) (s : State) : (modLink l f s).fuses = s.fuses := rfl
@[simp] theorem modLink_cfg (l : Nat) (f : Repl → Repl) (s : State) : (modLink l f s).cfg = s.cfg := rfl
@[simp] theorem modLink_img (l : Nat) (f : Repl → Repl) (s : State) : (modLink l f s).img = s.img := rfl
@[simp] theorem modLink_eps (l : Nat) (f : Repl → Repl) (s : State) : (modLink l f s).eps = s.eps := rfl
@[simp] theorem modLink_hostLatch (l : Nat) (f : Repl → Repl) (s : State) : (modLink l f s).hostLatch = s.hostLatch := rfl
@[simp] theorem modLink_hostStage (l : Nat) (f : Repl → Repl) (s : State) : (modLink l f s).hostStage = s.hostStage := rfl
@[simp] theorem modLink_dcq (l : Nat) (f : Repl → Repl) (s : State) : (modLink l f s).dcq = s.dcq := rfl
@[simp] theorem modLink_net (l : Nat) (f : Repl → Repl) (s : State) : (modLink l f s).net = s.net := rfl
@[simp] theorem modLink_wlg (l : Nat) (f : Repl → Repl) (s : State) : (modLink l f s).wlg = s.wlg := rfl
@[simp] theorem modLink_red (l : Nat) (f : Repl → Repl) (s : State) : (modLink l f s).red = s.red := rfl
@[simp] theorem modLink_kc (l : Nat) (f : Repl → Repl) (s : State) : (modLink l f s).kc = s.kc := rfl
@[simp] theorem modLink_sec (l : Nat) (f : Repl → Repl) (s : State) : (modLink l f s).sec = s.sec := rfl
@[simp] theorem modLink_dig (l : Nat) (f : Repl → Repl) (s : State) : (modLink l f s).dig = s.dig := rfl
@[simp] theorem modLink_med (l : Nat) (f : Repl → Repl) (s : State) : (modLink l f s).med = s.med := rfl
@[simp] theorem modLink_mmg (l : Nat) (f : Repl → Repl) (s : State) : (modLink l f s).mmg = s.mmg := rfl
@[simp] theorem modLink_ecp (l : Nat) (f : Repl → Repl) (s : State) : (modLink l f s).ecp = s.ecp := rfl
@[simp] theorem modLink_xhl (l : Nat) (f : Repl → Repl) (s : State) : (modLink l f s).xhl = s.xhl := rfl
@[simp] theorem modLink_drc (l : Nat) (f : Repl → Repl) (s : State) : (modLink l f s).drc = s.drc := rfl
@[simp] theorem modLink_cle (l : Nat) (f : Repl → Repl) (s : State) : (modLink l f s).cle = s.cle := rfl
@[simp] theorem modLink_flt (l : Nat) (f : Repl → Repl) (s : State) : (modLink l f s).flt = s.flt := rfl
@[simp] theorem modLink_alm (l : Nat) (f : Repl → Repl) (s : State) : (modLink l f s).alm = s.alm := rfl
@[simp] theorem modLink_upd (l : Nat) (f : Repl → Repl) (s : State) : (modLink l f s).upd = s.upd := rfl
@[simp] theorem modLink_nor (l : Nat) (f : Repl → Repl) (s : State) : (modLink l f s).nor = s.nor := rfl
@[simp] theorem modLink_lz (l : Nat) (f : Repl → Repl) (s : State) : (modLink l f s).lz = s.lz := rfl
@[simp] theorem modLink_sram (l : Nat) (f : Repl → Repl) (s : State) : (modLink l f s).sram = s.sram := rfl
@[simp] theorem modLink_hostData (l : Nat) (f : Repl → Repl) (s : State) : (modLink l f s).hostData = s.hostData := rfl
@[simp] theorem modLink_out (l : Nat) (f : Repl → Repl) (s : State) : (modLink l f s).out = s.out := rfl
@[simp] theorem modLink_freeCtr (l : Nat) (f : Repl → Repl) (s : State) : (modLink l f s).freeCtr = s.freeCtr := rfl
@[simp] theorem modLink_pending (l : Nat) (f : Repl → Repl) (s : State) : (modLink l f s).pending = s.pending := rfl
@[simp] theorem dropStage_glb (ep off : Nat) (s : State) : (dropStage ep off s).glb = s.glb := rfl
@[simp] theorem dropStage_pwr (ep off : Nat) (s : State) : (dropStage ep off s).pwr = s.pwr := rfl
@[simp] theorem dropStage_island (ep off : Nat) (s : State) : (dropStage ep off s).island = s.island := rfl
@[simp] theorem dropStage_lds (ep off : Nat) (s : State) : (dropStage ep off s).lds = s.lds := rfl
@[simp] theorem dropStage_fuses (ep off : Nat) (s : State) : (dropStage ep off s).fuses = s.fuses := rfl
@[simp] theorem dropStage_cfg (ep off : Nat) (s : State) : (dropStage ep off s).cfg = s.cfg := rfl
@[simp] theorem dropStage_img (ep off : Nat) (s : State) : (dropStage ep off s).img = s.img := rfl
@[simp] theorem dropStage_eps (ep off : Nat) (s : State) : (dropStage ep off s).eps = s.eps := rfl
@[simp] theorem dropStage_hostLatch (ep off : Nat) (s : State) : (dropStage ep off s).hostLatch = s.hostLatch := rfl
@[simp] theorem dropStage_dcq (ep off : Nat) (s : State) : (dropStage ep off s).dcq = s.dcq := rfl
@[simp] theorem dropStage_net (ep off : Nat) (s : State) : (dropStage ep off s).net = s.net := rfl
@[simp] theorem dropStage_rma (ep off : Nat) (s : State) : (dropStage ep off s).rma = s.rma := rfl
@[simp] theorem dropStage_wlg (ep off : Nat) (s : State) : (dropStage ep off s).wlg = s.wlg := rfl
@[simp] theorem dropStage_red (ep off : Nat) (s : State) : (dropStage ep off s).red = s.red := rfl
@[simp] theorem dropStage_kc (ep off : Nat) (s : State) : (dropStage ep off s).kc = s.kc := rfl
@[simp] theorem dropStage_sec (ep off : Nat) (s : State) : (dropStage ep off s).sec = s.sec := rfl
@[simp] theorem dropStage_dig (ep off : Nat) (s : State) : (dropStage ep off s).dig = s.dig := rfl
@[simp] theorem dropStage_med (ep off : Nat) (s : State) : (dropStage ep off s).med = s.med := rfl
@[simp] theorem dropStage_mmg (ep off : Nat) (s : State) : (dropStage ep off s).mmg = s.mmg := rfl
@[simp] theorem dropStage_ecp (ep off : Nat) (s : State) : (dropStage ep off s).ecp = s.ecp := rfl
@[simp] theorem dropStage_xhl (ep off : Nat) (s : State) : (dropStage ep off s).xhl = s.xhl := rfl
@[simp] theorem dropStage_drc (ep off : Nat) (s : State) : (dropStage ep off s).drc = s.drc := rfl
@[simp] theorem dropStage_cle (ep off : Nat) (s : State) : (dropStage ep off s).cle = s.cle := rfl
@[simp] theorem dropStage_flt (ep off : Nat) (s : State) : (dropStage ep off s).flt = s.flt := rfl
@[simp] theorem dropStage_alm (ep off : Nat) (s : State) : (dropStage ep off s).alm = s.alm := rfl
@[simp] theorem dropStage_upd (ep off : Nat) (s : State) : (dropStage ep off s).upd = s.upd := rfl
@[simp] theorem dropStage_nor (ep off : Nat) (s : State) : (dropStage ep off s).nor = s.nor := rfl
@[simp] theorem dropStage_lz (ep off : Nat) (s : State) : (dropStage ep off s).lz = s.lz := rfl
@[simp] theorem dropStage_sram (ep off : Nat) (s : State) : (dropStage ep off s).sram = s.sram := rfl
@[simp] theorem dropStage_hostData (ep off : Nat) (s : State) : (dropStage ep off s).hostData = s.hostData := rfl
@[simp] theorem dropStage_out (ep off : Nat) (s : State) : (dropStage ep off s).out = s.out := rfl
@[simp] theorem dropStage_freeCtr (ep off : Nat) (s : State) : (dropStage ep off s).freeCtr = s.freeCtr := rfl
@[simp] theorem dropStage_pending (ep off : Nat) (s : State) : (dropStage ep off s).pending = s.pending := rfl

/-! ## Operations over several parts -/

@[simp] theorem raiseVec_glb (ep) (v) (s : State) : (raiseVec ep v s).glb = s.glb :=
  field_of_blank State.glb (raiseVec_frame _ _ _ 0x80000080 rfl) fun _ => rfl
@[simp] theorem raiseVec_pwr (ep) (v) (s : State) : (raiseVec ep v s).pwr = s.pwr :=
  field_of_blank State.pwr (raiseVec_frame _ _ _ 0x80000080 rfl) fun _ => rfl
@[simp] theorem raiseVec_island (ep) (v) (s : State) : (raiseVec ep v s).island = s.island :=
  field_of_blank State.island (raiseVec_frame _ _ _ 0x80000080 rfl) fun _ => rfl
@[simp] theorem raiseVec_lds (ep) (v) (s : State) : (raiseVec ep v s).lds = s.lds :=
  field_of_blank State.lds (raiseVec_frame _ _ _ 0x80000080 rfl) fun _ => rfl
@[simp] theorem raiseVec_fuses (ep) (v) (s : State) : (raiseVec ep v s).fuses = s.fuses :=
  field_of_blank State.fuses (raiseVec_frame _ _ _ 0x80000080 rfl) fun _ => rfl
@[simp] theorem raiseVec_cfg (ep) (v) (s : State) : (raiseVec ep v s).cfg = s.cfg :=
  field_of_blank State.cfg (raiseVec_frame _ _ _ 0x80000080 rfl) fun _ => rfl
@[simp] theorem raiseVec_img (ep) (v) (s : State) : (raiseVec ep v s).img = s.img :=
  field_of_blank State.img (raiseVec_frame _ _ _ 0x80000080 rfl) fun _ => rfl
@[simp] theorem raiseVec_hostLatch (ep) (v) (s : State) : (raiseVec ep v s).hostLatch = s.hostLatch :=
  field_of_blank State.hostLatch (raiseVec_frame _ _ _ 0x80000080 rfl) fun _ => rfl
@[simp] theorem raiseVec_hostStage (ep) (v) (s : State) : (raiseVec ep v s).hostStage = s.hostStage :=
  field_of_blank State.hostStage (raiseVec_frame _ _ _ 0x80000080 rfl) fun _ => rfl
@[simp] theorem raiseVec_dcq (ep) (v) (s : State) : (raiseVec ep v s).dcq = s.dcq :=
  field_of_blank State.dcq (raiseVec_frame _ _ _ 0x80000080 rfl) fun _ => rfl
@[simp] theorem raiseVec_net (ep) (v) (s : State) : (raiseVec ep v s).net = s.net :=
  field_of_blank State.net (raiseVec_frame _ _ _ 0x80000080 rfl) fun _ => rfl
@[simp] theorem raiseVec_rma (ep) (v) (s : State) : (raiseVec ep v s).rma = s.rma :=
  field_of_blank State.rma (raiseVec_frame _ _ _ 0x80000080 rfl) fun _ => rfl
@[simp] theorem raiseVec_wlg (ep) (v) (s : State) : (raiseVec ep v s).wlg = s.wlg :=
  field_of_blank State.wlg (raiseVec_frame _ _ _ 0x80000080 rfl) fun _ => rfl
@[simp] theorem raiseVec_red (ep) (v) (s : State) : (raiseVec ep v s).red = s.red :=
  field_of_blank State.red (raiseVec_frame _ _ _ 0x80000080 rfl) fun _ => rfl
@[simp] theorem raiseVec_kc (ep) (v) (s : State) : (raiseVec ep v s).kc = s.kc :=
  field_of_blank State.kc (raiseVec_frame _ _ _ 0x80000080 rfl) fun _ => rfl
@[simp] theorem raiseVec_sec (ep) (v) (s : State) : (raiseVec ep v s).sec = s.sec :=
  field_of_blank State.sec (raiseVec_frame _ _ _ 0x80000080 rfl) fun _ => rfl
@[simp] theorem raiseVec_dig (ep) (v) (s : State) : (raiseVec ep v s).dig = s.dig :=
  field_of_blank State.dig (raiseVec_frame _ _ _ 0x80000080 rfl) fun _ => rfl
@[simp] theorem raiseVec_med (ep) (v) (s : State) : (raiseVec ep v s).med = s.med :=
  field_of_blank State.med (raiseVec_frame _ _ _ 0x80000080 rfl) fun _ => rfl
@[simp] theorem raiseVec_mmg (ep) (v) (s : State) : (raiseVec ep v s).mmg = s.mmg :=
  field_of_blank State.mmg (raiseVec_frame _ _ _ 0x80000080 rfl) fun _ => rfl
@[simp] theorem raiseVec_ecp (ep) (v) (s : State) : (raiseVec ep v s).ecp = s.ecp :=
  field_of_blank State.ecp (raiseVec_frame _ _ _ 0x80000080 rfl) fun _ => rfl
@[simp] theorem raiseVec_xhl (ep) (v) (s : State) : (raiseVec ep v s).xhl = s.xhl :=
  field_of_blank State.xhl (raiseVec_frame _ _ _ 0x80000080 rfl) fun _ => rfl
@[simp] theorem raiseVec_drc (ep) (v) (s : State) : (raiseVec ep v s).drc = s.drc :=
  field_of_blank State.drc (raiseVec_frame _ _ _ 0x80000080 rfl) fun _ => rfl
@[simp] theorem raiseVec_cle (ep) (v) (s : State) : (raiseVec ep v s).cle = s.cle :=
  field_of_blank State.cle (raiseVec_frame _ _ _ 0x80000080 rfl) fun _ => rfl
@[simp] theorem raiseVec_flt (ep) (v) (s : State) : (raiseVec ep v s).flt = s.flt :=
  field_of_blank State.flt (raiseVec_frame _ _ _ 0x80000080 rfl) fun _ => rfl
@[simp] theorem raiseVec_alm (ep) (v) (s : State) : (raiseVec ep v s).alm = s.alm :=
  field_of_blank State.alm (raiseVec_frame _ _ _ 0x80000080 rfl) fun _ => rfl
@[simp] theorem raiseVec_upd (ep) (v) (s : State) : (raiseVec ep v s).upd = s.upd :=
  field_of_blank State.upd (raiseVec_frame _ _ _ 0x80000080 rfl) fun _ => rfl
@[simp] theorem raiseVec_nor (ep) (v) (s : State) : (raiseVec ep v s).nor = s.nor :=
  field_of_blank State.nor (raiseVec_frame _ _ _ 0x80000080 rfl) fun _ => rfl
@[simp] theorem raiseVec_lz (ep) (v) (s : State) : (raiseVec ep v s).lz = s.lz :=
  field_of_blank State.lz (raiseVec_frame _ _ _ 0x80000080 rfl) fun _ => rfl
@[simp] theorem raiseVec_sram (ep) (v) (s : State) : (raiseVec ep v s).sram = s.sram :=
  field_of_blank State.sram (raiseVec_frame _ _ _ 0x80000080 rfl) fun _ => rfl
@[simp] theorem raiseVec_hostData (ep) (v) (s : State) : (raiseVec ep v s).hostData = s.hostData :=
  field_of_blank State.hostData (raiseVec_frame _ _ _ 0x80000080 rfl) fun _ => rfl
@[simp] theorem raiseVec_freeCtr (ep) (v) (s : State) : (raiseVec ep v s).freeCtr = s.freeCtr :=
  field_of_blank State.freeCtr (raiseVec_frame _ _ _ 0x80000080 rfl) fun _ => rfl
@[simp] theorem raiseVec_pending (ep) (v) (s : State) : (raiseVec ep v s).pending = s.pending :=
  field_of_blank State.pending (raiseVec_frame _ _ _ 0x80000080 rfl) fun _ => rfl
@[simp] theorem recordInfo_glb (code) (source) (params) (s : State) : (recordInfo code source params s).glb = s.glb :=
  field_of_blank State.glb (recordInfo_frame _ _ _ _ 0x83000084 rfl) fun _ => rfl
@[simp] theorem recordInfo_pwr (code) (source) (params) (s : State) : (recordInfo code source params s).pwr = s.pwr :=
  field_of_blank State.pwr (recordInfo_frame _ _ _ _ 0x83000084 rfl) fun _ => rfl
@[simp] theorem recordInfo_lds (code) (source) (params) (s : State) : (recordInfo code source params s).lds = s.lds :=
  field_of_blank State.lds (recordInfo_frame _ _ _ _ 0x83000084 rfl) fun _ => rfl
@[simp] theorem recordInfo_fuses (code) (source) (params) (s : State) : (recordInfo code source params s).fuses = s.fuses :=
  field_of_blank State.fuses (recordInfo_frame _ _ _ _ 0x83000084 rfl) fun _ => rfl
@[simp] theorem recordInfo_cfg (code) (source) (params) (s : State) : (recordInfo code source params s).cfg = s.cfg :=
  field_of_blank State.cfg (recordInfo_frame _ _ _ _ 0x83000084 rfl) fun _ => rfl
@[simp] theorem recordInfo_img (code) (source) (params) (s : State) : (recordInfo code source params s).img = s.img :=
  field_of_blank State.img (recordInfo_frame _ _ _ _ 0x83000084 rfl) fun _ => rfl
@[simp] theorem recordInfo_hostLatch (code) (source) (params) (s : State) : (recordInfo code source params s).hostLatch = s.hostLatch :=
  field_of_blank State.hostLatch (recordInfo_frame _ _ _ _ 0x83000084 rfl) fun _ => rfl
@[simp] theorem recordInfo_hostStage (code) (source) (params) (s : State) : (recordInfo code source params s).hostStage = s.hostStage :=
  field_of_blank State.hostStage (recordInfo_frame _ _ _ _ 0x83000084 rfl) fun _ => rfl
@[simp] theorem recordInfo_dcq (code) (source) (params) (s : State) : (recordInfo code source params s).dcq = s.dcq :=
  field_of_blank State.dcq (recordInfo_frame _ _ _ _ 0x83000084 rfl) fun _ => rfl
@[simp] theorem recordInfo_net (code) (source) (params) (s : State) : (recordInfo code source params s).net = s.net :=
  field_of_blank State.net (recordInfo_frame _ _ _ _ 0x83000084 rfl) fun _ => rfl
@[simp] theorem recordInfo_rma (code) (source) (params) (s : State) : (recordInfo code source params s).rma = s.rma :=
  field_of_blank State.rma (recordInfo_frame _ _ _ _ 0x83000084 rfl) fun _ => rfl
@[simp] theorem recordInfo_wlg (code) (source) (params) (s : State) : (recordInfo code source params s).wlg = s.wlg :=
  field_of_blank State.wlg (recordInfo_frame _ _ _ _ 0x83000084 rfl) fun _ => rfl
@[simp] theorem recordInfo_red (code) (source) (params) (s : State) : (recordInfo code source params s).red = s.red :=
  field_of_blank State.red (recordInfo_frame _ _ _ _ 0x83000084 rfl) fun _ => rfl
@[simp] theorem recordInfo_kc (code) (source) (params) (s : State) : (recordInfo code source params s).kc = s.kc :=
  field_of_blank State.kc (recordInfo_frame _ _ _ _ 0x83000084 rfl) fun _ => rfl
@[simp] theorem recordInfo_sec (code) (source) (params) (s : State) : (recordInfo code source params s).sec = s.sec :=
  field_of_blank State.sec (recordInfo_frame _ _ _ _ 0x83000084 rfl) fun _ => rfl
@[simp] theorem recordInfo_dig (code) (source) (params) (s : State) : (recordInfo code source params s).dig = s.dig :=
  field_of_blank State.dig (recordInfo_frame _ _ _ _ 0x83000084 rfl) fun _ => rfl
@[simp] theorem recordInfo_med (code) (source) (params) (s : State) : (recordInfo code source params s).med = s.med :=
  field_of_blank State.med (recordInfo_frame _ _ _ _ 0x83000084 rfl) fun _ => rfl
@[simp] theorem recordInfo_mmg (code) (source) (params) (s : State) : (recordInfo code source params s).mmg = s.mmg :=
  field_of_blank State.mmg (recordInfo_frame _ _ _ _ 0x83000084 rfl) fun _ => rfl
@[simp] theorem recordInfo_ecp (code) (source) (params) (s : State) : (recordInfo code source params s).ecp = s.ecp :=
  field_of_blank State.ecp (recordInfo_frame _ _ _ _ 0x83000084 rfl) fun _ => rfl
@[simp] theorem recordInfo_xhl (code) (source) (params) (s : State) : (recordInfo code source params s).xhl = s.xhl :=
  field_of_blank State.xhl (recordInfo_frame _ _ _ _ 0x83000084 rfl) fun _ => rfl
@[simp] theorem recordInfo_drc (code) (source) (params) (s : State) : (recordInfo code source params s).drc = s.drc :=
  field_of_blank State.drc (recordInfo_frame _ _ _ _ 0x83000084 rfl) fun _ => rfl
@[simp] theorem recordInfo_cle (code) (source) (params) (s : State) : (recordInfo code source params s).cle = s.cle :=
  field_of_blank State.cle (recordInfo_frame _ _ _ _ 0x83000084 rfl) fun _ => rfl
@[simp] theorem recordInfo_upd (code) (source) (params) (s : State) : (recordInfo code source params s).upd = s.upd :=
  field_of_blank State.upd (recordInfo_frame _ _ _ _ 0x83000084 rfl) fun _ => rfl
@[simp] theorem recordInfo_nor (code) (source) (params) (s : State) : (recordInfo code source params s).nor = s.nor :=
  field_of_blank State.nor (recordInfo_frame _ _ _ _ 0x83000084 rfl) fun _ => rfl
@[simp] theorem recordInfo_lz (code) (source) (params) (s : State) : (recordInfo code source params s).lz = s.lz :=
  field_of_blank State.lz (recordInfo_frame _ _ _ _ 0x83000084 rfl) fun _ => rfl
@[simp] theorem recordInfo_sram (code) (source) (params) (s : State) : (recordInfo code source params s).sram = s.sram :=
  field_of_blank State.sram (recordInfo_frame _ _ _ _ 0x83000084 rfl) fun _ => rfl
@[simp] theorem recordInfo_hostData (code) (source) (params) (s : State) : (recordInfo code source params s).hostData = s.hostData :=
  field_of_blank State.hostData (recordInfo_frame _ _ _ _ 0x83000084 rfl) fun _ => rfl
@[simp] theorem recordInfo_freeCtr (code) (source) (params) (s : State) : (recordInfo code source params s).freeCtr = s.freeCtr :=
  field_of_blank State.freeCtr (recordInfo_frame _ _ _ _ 0x83000084 rfl) fun _ => rfl
@[simp] theorem recordInfo_pending (code) (source) (params) (s : State) : (recordInfo code source params s).pending = s.pending :=
  field_of_blank State.pending (recordInfo_frame _ _ _ _ 0x83000084 rfl) fun _ => rfl
@[simp] theorem record_glb (code) (source) (params) (s : State) : (record code source params s).glb = s.glb :=
  field_of_blank State.glb (record_frame _ _ _ _ 0x83204C8E rfl) fun _ => rfl
@[simp] theorem record_fuses (code) (source) (params) (s : State) : (record code source params s).fuses = s.fuses :=
  field_of_blank State.fuses (record_frame _ _ _ _ 0x83204C8E rfl) fun _ => rfl
@[simp] theorem record_cfg (code) (source) (params) (s : State) : (record code source params s).cfg = s.cfg :=
  field_of_blank State.cfg (record_frame _ _ _ _ 0x83204C8E rfl) fun _ => rfl
@[simp] theorem record_img (code) (source) (params) (s : State) : (record code source params s).img = s.img :=
  field_of_blank State.img (record_frame _ _ _ _ 0x83204C8E rfl) fun _ => rfl
@[simp] theorem record_hostLatch (code) (source) (params) (s : State) : (record code source params s).hostLatch = s.hostLatch :=
  field_of_blank State.hostLatch (record_frame _ _ _ _ 0x83204C8E rfl) fun _ => rfl
@[simp] theorem record_hostStage (code) (source) (params) (s : State) : (record code source params s).hostStage = s.hostStage :=
  field_of_blank State.hostStage (record_frame _ _ _ _ 0x83204C8E rfl) fun _ => rfl
@[simp] theorem record_rma (code) (source) (params) (s : State) : (record code source params s).rma = s.rma :=
  field_of_blank State.rma (record_frame _ _ _ _ 0x83204C8E rfl) fun _ => rfl
@[simp] theorem record_wlg (code) (source) (params) (s : State) : (record code source params s).wlg = s.wlg :=
  field_of_blank State.wlg (record_frame _ _ _ _ 0x83204C8E rfl) fun _ => rfl
@[simp] theorem record_kc (code) (source) (params) (s : State) : (record code source params s).kc = s.kc :=
  field_of_blank State.kc (record_frame _ _ _ _ 0x83204C8E rfl) fun _ => rfl
@[simp] theorem record_sec (code) (source) (params) (s : State) : (record code source params s).sec = s.sec :=
  field_of_blank State.sec (record_frame _ _ _ _ 0x83204C8E rfl) fun _ => rfl
@[simp] theorem record_dig (code) (source) (params) (s : State) : (record code source params s).dig = s.dig :=
  field_of_blank State.dig (record_frame _ _ _ _ 0x83204C8E rfl) fun _ => rfl
@[simp] theorem record_med (code) (source) (params) (s : State) : (record code source params s).med = s.med :=
  field_of_blank State.med (record_frame _ _ _ _ 0x83204C8E rfl) fun _ => rfl
@[simp] theorem record_mmg (code) (source) (params) (s : State) : (record code source params s).mmg = s.mmg :=
  field_of_blank State.mmg (record_frame _ _ _ _ 0x83204C8E rfl) fun _ => rfl
@[simp] theorem record_ecp (code) (source) (params) (s : State) : (record code source params s).ecp = s.ecp :=
  field_of_blank State.ecp (record_frame _ _ _ _ 0x83204C8E rfl) fun _ => rfl
@[simp] theorem record_drc (code) (source) (params) (s : State) : (record code source params s).drc = s.drc :=
  field_of_blank State.drc (record_frame _ _ _ _ 0x83204C8E rfl) fun _ => rfl
@[simp] theorem record_cle (code) (source) (params) (s : State) : (record code source params s).cle = s.cle :=
  field_of_blank State.cle (record_frame _ _ _ _ 0x83204C8E rfl) fun _ => rfl
@[simp] theorem record_upd (code) (source) (params) (s : State) : (record code source params s).upd = s.upd :=
  field_of_blank State.upd (record_frame _ _ _ _ 0x83204C8E rfl) fun _ => rfl
@[simp] theorem record_nor (code) (source) (params) (s : State) : (record code source params s).nor = s.nor :=
  field_of_blank State.nor (record_frame _ _ _ _ 0x83204C8E rfl) fun _ => rfl
@[simp] theorem record_lz (code) (source) (params) (s : State) : (record code source params s).lz = s.lz :=
  field_of_blank State.lz (record_frame _ _ _ _ 0x83204C8E rfl) fun _ => rfl
@[simp] theorem record_sram (code) (source) (params) (s : State) : (record code source params s).sram = s.sram :=
  field_of_blank State.sram (record_frame _ _ _ _ 0x83204C8E rfl) fun _ => rfl
@[simp] theorem record_hostData (code) (source) (params) (s : State) : (record code source params s).hostData = s.hostData :=
  field_of_blank State.hostData (record_frame _ _ _ _ 0x83204C8E rfl) fun _ => rfl
@[simp] theorem record_freeCtr (code) (source) (params) (s : State) : (record code source params s).freeCtr = s.freeCtr :=
  field_of_blank State.freeCtr (record_frame _ _ _ _ 0x83204C8E rfl) fun _ => rfl
@[simp] theorem record_pending (code) (source) (params) (s : State) : (record code source params s).pending = s.pending :=
  field_of_blank State.pending (record_frame _ _ _ _ 0x83204C8E rfl) fun _ => rfl
@[simp] theorem recordAlert_glb (code) (source) (params) (s : State) : (recordAlert code source params s).glb = s.glb :=
  field_of_blank State.glb (recordAlert_frame _ _ _ _ 0x83204C8E rfl) fun _ => rfl
@[simp] theorem recordAlert_fuses (code) (source) (params) (s : State) : (recordAlert code source params s).fuses = s.fuses :=
  field_of_blank State.fuses (recordAlert_frame _ _ _ _ 0x83204C8E rfl) fun _ => rfl
@[simp] theorem recordAlert_cfg (code) (source) (params) (s : State) : (recordAlert code source params s).cfg = s.cfg :=
  field_of_blank State.cfg (recordAlert_frame _ _ _ _ 0x83204C8E rfl) fun _ => rfl
@[simp] theorem recordAlert_img (code) (source) (params) (s : State) : (recordAlert code source params s).img = s.img :=
  field_of_blank State.img (recordAlert_frame _ _ _ _ 0x83204C8E rfl) fun _ => rfl
@[simp] theorem recordAlert_hostLatch (code) (source) (params) (s : State) : (recordAlert code source params s).hostLatch = s.hostLatch :=
  field_of_blank State.hostLatch (recordAlert_frame _ _ _ _ 0x83204C8E rfl) fun _ => rfl
@[simp] theorem recordAlert_hostStage (code) (source) (params) (s : State) : (recordAlert code source params s).hostStage = s.hostStage :=
  field_of_blank State.hostStage (recordAlert_frame _ _ _ _ 0x83204C8E rfl) fun _ => rfl
@[simp] theorem recordAlert_rma (code) (source) (params) (s : State) : (recordAlert code source params s).rma = s.rma :=
  field_of_blank State.rma (recordAlert_frame _ _ _ _ 0x83204C8E rfl) fun _ => rfl
@[simp] theorem recordAlert_wlg (code) (source) (params) (s : State) : (recordAlert code source params s).wlg = s.wlg :=
  field_of_blank State.wlg (recordAlert_frame _ _ _ _ 0x83204C8E rfl) fun _ => rfl
@[simp] theorem recordAlert_kc (code) (source) (params) (s : State) : (recordAlert code source params s).kc = s.kc :=
  field_of_blank State.kc (recordAlert_frame _ _ _ _ 0x83204C8E rfl) fun _ => rfl
@[simp] theorem recordAlert_sec (code) (source) (params) (s : State) : (recordAlert code source params s).sec = s.sec :=
  field_of_blank State.sec (recordAlert_frame _ _ _ _ 0x83204C8E rfl) fun _ => rfl
@[simp] theorem recordAlert_dig (code) (source) (params) (s : State) : (recordAlert code source params s).dig = s.dig :=
  field_of_blank State.dig (recordAlert_frame _ _ _ _ 0x83204C8E rfl) fun _ => rfl
@[simp] theorem recordAlert_med (code) (source) (params) (s : State) : (recordAlert code source params s).med = s.med :=
  field_of_blank State.med (recordAlert_frame _ _ _ _ 0x83204C8E rfl) fun _ => rfl
@[simp] theorem recordAlert_mmg (code) (source) (params) (s : State) : (recordAlert code source params s).mmg = s.mmg :=
  field_of_blank State.mmg (recordAlert_frame _ _ _ _ 0x83204C8E rfl) fun _ => rfl
@[simp] theorem recordAlert_ecp (code) (source) (params) (s : State) : (recordAlert code source params s).ecp = s.ecp :=
  field_of_blank State.ecp (recordAlert_frame _ _ _ _ 0x83204C8E rfl) fun _ => rfl
@[simp] theorem recordAlert_drc (code) (source) (params) (s : State) : (recordAlert code source params s).drc = s.drc :=
  field_of_blank State.drc (recordAlert_frame _ _ _ _ 0x83204C8E rfl) fun _ => rfl
@[simp] theorem recordAlert_cle (code) (source) (params) (s : State) : (recordAlert code source params s).cle = s.cle :=
  field_of_blank State.cle (recordAlert_frame _ _ _ _ 0x83204C8E rfl) fun _ => rfl
@[simp] theorem recordAlert_upd (code) (source) (params) (s : State) : (recordAlert code source params s).upd = s.upd :=
  field_of_blank State.upd (recordAlert_frame _ _ _ _ 0x83204C8E rfl) fun _ => rfl
@[simp] theorem recordAlert_nor (code) (source) (params) (s : State) : (recordAlert code source params s).nor = s.nor :=
  field_of_blank State.nor (recordAlert_frame _ _ _ _ 0x83204C8E rfl) fun _ => rfl
@[simp] theorem recordAlert_lz (code) (source) (params) (s : State) : (recordAlert code source params s).lz = s.lz :=
  field_of_blank State.lz (recordAlert_frame _ _ _ _ 0x83204C8E rfl) fun _ => rfl
@[simp] theorem recordAlert_sram (code) (source) (params) (s : State) : (recordAlert code source params s).sram = s.sram :=
  field_of_blank State.sram (recordAlert_frame _ _ _ _ 0x83204C8E rfl) fun _ => rfl
@[simp] theorem recordAlert_hostData (code) (source) (params) (s : State) : (recordAlert code source params s).hostData = s.hostData :=
  field_of_blank State.hostData (recordAlert_frame _ _ _ _ 0x83204C8E rfl) fun _ => rfl
@[simp] theorem recordAlert_freeCtr (code) (source) (params) (s : State) : (recordAlert code source params s).freeCtr = s.freeCtr :=
  field_of_blank State.freeCtr (recordAlert_frame _ _ _ _ 0x83204C8E rfl) fun _ => rfl
@[simp] theorem recordAlert_pending (code) (source) (params) (s : State) : (recordAlert code source params s).pending = s.pending :=
  field_of_blank State.pending (recordAlert_frame _ _ _ _ 0x83204C8E rfl) fun _ => rfl
@[simp] theorem xhlSend_glb (type) (fence) (final) (args) (data) (s : State) : (xhlSend type fence final args data s).glb = s.glb :=
  field_of_blank State.glb (xhlSend_frame _ _ _ _ _ _ 0x80200002 rfl) fun _ => rfl
@[simp] theorem xhlSend_island (type) (fence) (final) (args) (data) (s : State) : (xhlSend type fence final args data s).island = s.island :=
  field_of_blank State.island (xhlSend_frame _ _ _ _ _ _ 0x80200002 rfl) fun _ => rfl
@[simp] theorem xhlSend_lds (type) (fence) (final) (args) (data) (s : State) : (xhlSend type fence final args data s).lds = s.lds :=
  field_of_blank State.lds (xhlSend_frame _ _ _ _ _ _ 0x80200002 rfl) fun _ => rfl
@[simp] theorem xhlSend_fuses (type) (fence) (final) (args) (data) (s : State) : (xhlSend type fence final args data s).fuses = s.fuses :=
  field_of_blank State.fuses (xhlSend_frame _ _ _ _ _ _ 0x80200002 rfl) fun _ => rfl
@[simp] theorem xhlSend_cfg (type) (fence) (final) (args) (data) (s : State) : (xhlSend type fence final args data s).cfg = s.cfg :=
  field_of_blank State.cfg (xhlSend_frame _ _ _ _ _ _ 0x80200002 rfl) fun _ => rfl
@[simp] theorem xhlSend_img (type) (fence) (final) (args) (data) (s : State) : (xhlSend type fence final args data s).img = s.img :=
  field_of_blank State.img (xhlSend_frame _ _ _ _ _ _ 0x80200002 rfl) fun _ => rfl
@[simp] theorem xhlSend_eps (type) (fence) (final) (args) (data) (s : State) : (xhlSend type fence final args data s).eps = s.eps :=
  field_of_blank State.eps (xhlSend_frame _ _ _ _ _ _ 0x80200002 rfl) fun _ => rfl
@[simp] theorem xhlSend_hostLatch (type) (fence) (final) (args) (data) (s : State) : (xhlSend type fence final args data s).hostLatch = s.hostLatch :=
  field_of_blank State.hostLatch (xhlSend_frame _ _ _ _ _ _ 0x80200002 rfl) fun _ => rfl
@[simp] theorem xhlSend_hostStage (type) (fence) (final) (args) (data) (s : State) : (xhlSend type fence final args data s).hostStage = s.hostStage :=
  field_of_blank State.hostStage (xhlSend_frame _ _ _ _ _ _ 0x80200002 rfl) fun _ => rfl
@[simp] theorem xhlSend_dcq (type) (fence) (final) (args) (data) (s : State) : (xhlSend type fence final args data s).dcq = s.dcq :=
  field_of_blank State.dcq (xhlSend_frame _ _ _ _ _ _ 0x80200002 rfl) fun _ => rfl
@[simp] theorem xhlSend_net (type) (fence) (final) (args) (data) (s : State) : (xhlSend type fence final args data s).net = s.net :=
  field_of_blank State.net (xhlSend_frame _ _ _ _ _ _ 0x80200002 rfl) fun _ => rfl
@[simp] theorem xhlSend_rma (type) (fence) (final) (args) (data) (s : State) : (xhlSend type fence final args data s).rma = s.rma :=
  field_of_blank State.rma (xhlSend_frame _ _ _ _ _ _ 0x80200002 rfl) fun _ => rfl
@[simp] theorem xhlSend_wlg (type) (fence) (final) (args) (data) (s : State) : (xhlSend type fence final args data s).wlg = s.wlg :=
  field_of_blank State.wlg (xhlSend_frame _ _ _ _ _ _ 0x80200002 rfl) fun _ => rfl
@[simp] theorem xhlSend_red (type) (fence) (final) (args) (data) (s : State) : (xhlSend type fence final args data s).red = s.red :=
  field_of_blank State.red (xhlSend_frame _ _ _ _ _ _ 0x80200002 rfl) fun _ => rfl
@[simp] theorem xhlSend_kc (type) (fence) (final) (args) (data) (s : State) : (xhlSend type fence final args data s).kc = s.kc :=
  field_of_blank State.kc (xhlSend_frame _ _ _ _ _ _ 0x80200002 rfl) fun _ => rfl
@[simp] theorem xhlSend_sec (type) (fence) (final) (args) (data) (s : State) : (xhlSend type fence final args data s).sec = s.sec :=
  field_of_blank State.sec (xhlSend_frame _ _ _ _ _ _ 0x80200002 rfl) fun _ => rfl
@[simp] theorem xhlSend_dig (type) (fence) (final) (args) (data) (s : State) : (xhlSend type fence final args data s).dig = s.dig :=
  field_of_blank State.dig (xhlSend_frame _ _ _ _ _ _ 0x80200002 rfl) fun _ => rfl
@[simp] theorem xhlSend_med (type) (fence) (final) (args) (data) (s : State) : (xhlSend type fence final args data s).med = s.med :=
  field_of_blank State.med (xhlSend_frame _ _ _ _ _ _ 0x80200002 rfl) fun _ => rfl
@[simp] theorem xhlSend_mmg (type) (fence) (final) (args) (data) (s : State) : (xhlSend type fence final args data s).mmg = s.mmg :=
  field_of_blank State.mmg (xhlSend_frame _ _ _ _ _ _ 0x80200002 rfl) fun _ => rfl
@[simp] theorem xhlSend_ecp (type) (fence) (final) (args) (data) (s : State) : (xhlSend type fence final args data s).ecp = s.ecp :=
  field_of_blank State.ecp (xhlSend_frame _ _ _ _ _ _ 0x80200002 rfl) fun _ => rfl
@[simp] theorem xhlSend_drc (type) (fence) (final) (args) (data) (s : State) : (xhlSend type fence final args data s).drc = s.drc :=
  field_of_blank State.drc (xhlSend_frame _ _ _ _ _ _ 0x80200002 rfl) fun _ => rfl
@[simp] theorem xhlSend_cle (type) (fence) (final) (args) (data) (s : State) : (xhlSend type fence final args data s).cle = s.cle :=
  field_of_blank State.cle (xhlSend_frame _ _ _ _ _ _ 0x80200002 rfl) fun _ => rfl
@[simp] theorem xhlSend_flt (type) (fence) (final) (args) (data) (s : State) : (xhlSend type fence final args data s).flt = s.flt :=
  field_of_blank State.flt (xhlSend_frame _ _ _ _ _ _ 0x80200002 rfl) fun _ => rfl
@[simp] theorem xhlSend_alm (type) (fence) (final) (args) (data) (s : State) : (xhlSend type fence final args data s).alm = s.alm :=
  field_of_blank State.alm (xhlSend_frame _ _ _ _ _ _ 0x80200002 rfl) fun _ => rfl
@[simp] theorem xhlSend_upd (type) (fence) (final) (args) (data) (s : State) : (xhlSend type fence final args data s).upd = s.upd :=
  field_of_blank State.upd (xhlSend_frame _ _ _ _ _ _ 0x80200002 rfl) fun _ => rfl
@[simp] theorem xhlSend_nor (type) (fence) (final) (args) (data) (s : State) : (xhlSend type fence final args data s).nor = s.nor :=
  field_of_blank State.nor (xhlSend_frame _ _ _ _ _ _ 0x80200002 rfl) fun _ => rfl
@[simp] theorem xhlSend_lz (type) (fence) (final) (args) (data) (s : State) : (xhlSend type fence final args data s).lz = s.lz :=
  field_of_blank State.lz (xhlSend_frame _ _ _ _ _ _ 0x80200002 rfl) fun _ => rfl
@[simp] theorem xhlSend_sram (type) (fence) (final) (args) (data) (s : State) : (xhlSend type fence final args data s).sram = s.sram :=
  field_of_blank State.sram (xhlSend_frame _ _ _ _ _ _ 0x80200002 rfl) fun _ => rfl
@[simp] theorem xhlSend_hostData (type) (fence) (final) (args) (data) (s : State) : (xhlSend type fence final args data s).hostData = s.hostData :=
  field_of_blank State.hostData (xhlSend_frame _ _ _ _ _ _ 0x80200002 rfl) fun _ => rfl
@[simp] theorem xhlSend_freeCtr (type) (fence) (final) (args) (data) (s : State) : (xhlSend type fence final args data s).freeCtr = s.freeCtr :=
  field_of_blank State.freeCtr (xhlSend_frame _ _ _ _ _ _ 0x80200002 rfl) fun _ => rfl
@[simp] theorem xhlSend_pending (type) (fence) (final) (args) (data) (s : State) : (xhlSend type fence final args data s).pending = s.pending :=
  field_of_blank State.pending (xhlSend_frame _ _ _ _ _ _ 0x80200002 rfl) fun _ => rfl
@[simp] theorem finish_glb (id) (tag) (status) (r0) (r1) (s : State) : (finish id tag status r0 r1 s).glb = s.glb :=
  field_of_blank State.glb (finish_frame _ _ _ _ _ _ 0x83204C8E rfl) fun _ => rfl
@[simp] theorem finish_fuses (id) (tag) (status) (r0) (r1) (s : State) : (finish id tag status r0 r1 s).fuses = s.fuses :=
  field_of_blank State.fuses (finish_frame _ _ _ _ _ _ 0x83204C8E rfl) fun _ => rfl
@[simp] theorem finish_cfg (id) (tag) (status) (r0) (r1) (s : State) : (finish id tag status r0 r1 s).cfg = s.cfg :=
  field_of_blank State.cfg (finish_frame _ _ _ _ _ _ 0x83204C8E rfl) fun _ => rfl
@[simp] theorem finish_img (id) (tag) (status) (r0) (r1) (s : State) : (finish id tag status r0 r1 s).img = s.img :=
  field_of_blank State.img (finish_frame _ _ _ _ _ _ 0x83204C8E rfl) fun _ => rfl
@[simp] theorem finish_hostLatch (id) (tag) (status) (r0) (r1) (s : State) : (finish id tag status r0 r1 s).hostLatch = s.hostLatch :=
  field_of_blank State.hostLatch (finish_frame _ _ _ _ _ _ 0x83204C8E rfl) fun _ => rfl
@[simp] theorem finish_hostStage (id) (tag) (status) (r0) (r1) (s : State) : (finish id tag status r0 r1 s).hostStage = s.hostStage :=
  field_of_blank State.hostStage (finish_frame _ _ _ _ _ _ 0x83204C8E rfl) fun _ => rfl
@[simp] theorem finish_rma (id) (tag) (status) (r0) (r1) (s : State) : (finish id tag status r0 r1 s).rma = s.rma :=
  field_of_blank State.rma (finish_frame _ _ _ _ _ _ 0x83204C8E rfl) fun _ => rfl
@[simp] theorem finish_wlg (id) (tag) (status) (r0) (r1) (s : State) : (finish id tag status r0 r1 s).wlg = s.wlg :=
  field_of_blank State.wlg (finish_frame _ _ _ _ _ _ 0x83204C8E rfl) fun _ => rfl
@[simp] theorem finish_kc (id) (tag) (status) (r0) (r1) (s : State) : (finish id tag status r0 r1 s).kc = s.kc :=
  field_of_blank State.kc (finish_frame _ _ _ _ _ _ 0x83204C8E rfl) fun _ => rfl
@[simp] theorem finish_sec (id) (tag) (status) (r0) (r1) (s : State) : (finish id tag status r0 r1 s).sec = s.sec :=
  field_of_blank State.sec (finish_frame _ _ _ _ _ _ 0x83204C8E rfl) fun _ => rfl
@[simp] theorem finish_dig (id) (tag) (status) (r0) (r1) (s : State) : (finish id tag status r0 r1 s).dig = s.dig :=
  field_of_blank State.dig (finish_frame _ _ _ _ _ _ 0x83204C8E rfl) fun _ => rfl
@[simp] theorem finish_med (id) (tag) (status) (r0) (r1) (s : State) : (finish id tag status r0 r1 s).med = s.med :=
  field_of_blank State.med (finish_frame _ _ _ _ _ _ 0x83204C8E rfl) fun _ => rfl
@[simp] theorem finish_mmg (id) (tag) (status) (r0) (r1) (s : State) : (finish id tag status r0 r1 s).mmg = s.mmg :=
  field_of_blank State.mmg (finish_frame _ _ _ _ _ _ 0x83204C8E rfl) fun _ => rfl
@[simp] theorem finish_ecp (id) (tag) (status) (r0) (r1) (s : State) : (finish id tag status r0 r1 s).ecp = s.ecp :=
  field_of_blank State.ecp (finish_frame _ _ _ _ _ _ 0x83204C8E rfl) fun _ => rfl
@[simp] theorem finish_drc (id) (tag) (status) (r0) (r1) (s : State) : (finish id tag status r0 r1 s).drc = s.drc :=
  field_of_blank State.drc (finish_frame _ _ _ _ _ _ 0x83204C8E rfl) fun _ => rfl
@[simp] theorem finish_cle (id) (tag) (status) (r0) (r1) (s : State) : (finish id tag status r0 r1 s).cle = s.cle :=
  field_of_blank State.cle (finish_frame _ _ _ _ _ _ 0x83204C8E rfl) fun _ => rfl
@[simp] theorem finish_upd (id) (tag) (status) (r0) (r1) (s : State) : (finish id tag status r0 r1 s).upd = s.upd :=
  field_of_blank State.upd (finish_frame _ _ _ _ _ _ 0x83204C8E rfl) fun _ => rfl
@[simp] theorem finish_nor (id) (tag) (status) (r0) (r1) (s : State) : (finish id tag status r0 r1 s).nor = s.nor :=
  field_of_blank State.nor (finish_frame _ _ _ _ _ _ 0x83204C8E rfl) fun _ => rfl
@[simp] theorem finish_lz (id) (tag) (status) (r0) (r1) (s : State) : (finish id tag status r0 r1 s).lz = s.lz :=
  field_of_blank State.lz (finish_frame _ _ _ _ _ _ 0x83204C8E rfl) fun _ => rfl
@[simp] theorem finish_sram (id) (tag) (status) (r0) (r1) (s : State) : (finish id tag status r0 r1 s).sram = s.sram :=
  field_of_blank State.sram (finish_frame _ _ _ _ _ _ 0x83204C8E rfl) fun _ => rfl
@[simp] theorem finish_hostData (id) (tag) (status) (r0) (r1) (s : State) : (finish id tag status r0 r1 s).hostData = s.hostData :=
  field_of_blank State.hostData (finish_frame _ _ _ _ _ _ 0x83204C8E rfl) fun _ => rfl
@[simp] theorem finish_freeCtr (id) (tag) (status) (r0) (r1) (s : State) : (finish id tag status r0 r1 s).freeCtr = s.freeCtr :=
  field_of_blank State.freeCtr (finish_frame _ _ _ _ _ _ 0x83204C8E rfl) fun _ => rfl
@[simp] theorem finish_pending (id) (tag) (status) (r0) (r1) (s : State) : (finish id tag status r0 r1 s).pending = s.pending :=
  field_of_blank State.pending (finish_frame _ _ _ _ _ _ 0x83204C8E rfl) fun _ => rfl
@[simp] theorem endCmd_glb (c) (status) (r0) (r1) (s : State) : (endCmd c status r0 r1 s).glb = s.glb :=
  field_of_blank State.glb (endCmd_frame _ _ _ _ _ 0x83204C8E rfl) fun _ => rfl
@[simp] theorem endCmd_fuses (c) (status) (r0) (r1) (s : State) : (endCmd c status r0 r1 s).fuses = s.fuses :=
  field_of_blank State.fuses (endCmd_frame _ _ _ _ _ 0x83204C8E rfl) fun _ => rfl
@[simp] theorem endCmd_cfg (c) (status) (r0) (r1) (s : State) : (endCmd c status r0 r1 s).cfg = s.cfg :=
  field_of_blank State.cfg (endCmd_frame _ _ _ _ _ 0x83204C8E rfl) fun _ => rfl
@[simp] theorem endCmd_img (c) (status) (r0) (r1) (s : State) : (endCmd c status r0 r1 s).img = s.img :=
  field_of_blank State.img (endCmd_frame _ _ _ _ _ 0x83204C8E rfl) fun _ => rfl
@[simp] theorem endCmd_hostLatch (c) (status) (r0) (r1) (s : State) : (endCmd c status r0 r1 s).hostLatch = s.hostLatch :=
  field_of_blank State.hostLatch (endCmd_frame _ _ _ _ _ 0x83204C8E rfl) fun _ => rfl
@[simp] theorem endCmd_hostStage (c) (status) (r0) (r1) (s : State) : (endCmd c status r0 r1 s).hostStage = s.hostStage :=
  field_of_blank State.hostStage (endCmd_frame _ _ _ _ _ 0x83204C8E rfl) fun _ => rfl
@[simp] theorem endCmd_rma (c) (status) (r0) (r1) (s : State) : (endCmd c status r0 r1 s).rma = s.rma :=
  field_of_blank State.rma (endCmd_frame _ _ _ _ _ 0x83204C8E rfl) fun _ => rfl
@[simp] theorem endCmd_wlg (c) (status) (r0) (r1) (s : State) : (endCmd c status r0 r1 s).wlg = s.wlg :=
  field_of_blank State.wlg (endCmd_frame _ _ _ _ _ 0x83204C8E rfl) fun _ => rfl
@[simp] theorem endCmd_kc (c) (status) (r0) (r1) (s : State) : (endCmd c status r0 r1 s).kc = s.kc :=
  field_of_blank State.kc (endCmd_frame _ _ _ _ _ 0x83204C8E rfl) fun _ => rfl
@[simp] theorem endCmd_sec (c) (status) (r0) (r1) (s : State) : (endCmd c status r0 r1 s).sec = s.sec :=
  field_of_blank State.sec (endCmd_frame _ _ _ _ _ 0x83204C8E rfl) fun _ => rfl
@[simp] theorem endCmd_dig (c) (status) (r0) (r1) (s : State) : (endCmd c status r0 r1 s).dig = s.dig :=
  field_of_blank State.dig (endCmd_frame _ _ _ _ _ 0x83204C8E rfl) fun _ => rfl
@[simp] theorem endCmd_med (c) (status) (r0) (r1) (s : State) : (endCmd c status r0 r1 s).med = s.med :=
  field_of_blank State.med (endCmd_frame _ _ _ _ _ 0x83204C8E rfl) fun _ => rfl
@[simp] theorem endCmd_mmg (c) (status) (r0) (r1) (s : State) : (endCmd c status r0 r1 s).mmg = s.mmg :=
  field_of_blank State.mmg (endCmd_frame _ _ _ _ _ 0x83204C8E rfl) fun _ => rfl
@[simp] theorem endCmd_ecp (c) (status) (r0) (r1) (s : State) : (endCmd c status r0 r1 s).ecp = s.ecp :=
  field_of_blank State.ecp (endCmd_frame _ _ _ _ _ 0x83204C8E rfl) fun _ => rfl
@[simp] theorem endCmd_drc (c) (status) (r0) (r1) (s : State) : (endCmd c status r0 r1 s).drc = s.drc :=
  field_of_blank State.drc (endCmd_frame _ _ _ _ _ 0x83204C8E rfl) fun _ => rfl
@[simp] theorem endCmd_cle (c) (status) (r0) (r1) (s : State) : (endCmd c status r0 r1 s).cle = s.cle :=
  field_of_blank State.cle (endCmd_frame _ _ _ _ _ 0x83204C8E rfl) fun _ => rfl
@[simp] theorem endCmd_upd (c) (status) (r0) (r1) (s : State) : (endCmd c status r0 r1 s).upd = s.upd :=
  field_of_blank State.upd (endCmd_frame _ _ _ _ _ 0x83204C8E rfl) fun _ => rfl
@[simp] theorem endCmd_nor (c) (status) (r0) (r1) (s : State) : (endCmd c status r0 r1 s).nor = s.nor :=
  field_of_blank State.nor (endCmd_frame _ _ _ _ _ 0x83204C8E rfl) fun _ => rfl
@[simp] theorem endCmd_lz (c) (status) (r0) (r1) (s : State) : (endCmd c status r0 r1 s).lz = s.lz :=
  field_of_blank State.lz (endCmd_frame _ _ _ _ _ 0x83204C8E rfl) fun _ => rfl
@[simp] theorem endCmd_sram (c) (status) (r0) (r1) (s : State) : (endCmd c status r0 r1 s).sram = s.sram :=
  field_of_blank State.sram (endCmd_frame _ _ _ _ _ 0x83204C8E rfl) fun _ => rfl
@[simp] theorem endCmd_hostData (c) (status) (r0) (r1) (s : State) : (endCmd c status r0 r1 s).hostData = s.hostData :=
  field_of_blank State.hostData (endCmd_frame _ _ _ _ _ 0x83204C8E rfl) fun _ => rfl
@[simp] theorem endCmd_freeCtr (c) (status) (r0) (r1) (s : State) : (endCmd c status r0 r1 s).freeCtr = s.freeCtr :=
  field_of_blank State.freeCtr (endCmd_frame _ _ _ _ _ 0x83204C8E rfl) fun _ => rfl
@[simp] theorem endCmd_pending (c) (status) (r0) (r1) (s : State) : (endCmd c status r0 r1 s).pending = s.pending :=
  field_of_blank State.pending (endCmd_frame _ _ _ _ _ 0x83204C8E rfl) fun _ => rfl
@[simp] theorem releaseQueue_glb (id) (s : State) : (releaseQueue id s).glb = s.glb :=
  field_of_blank State.glb (releaseQueue_frame _ _ 0x83204C8E rfl) fun _ => rfl
@[simp] theorem releaseQueue_fuses (id) (s : State) : (releaseQueue id s).fuses = s.fuses :=
  field_of_blank State.fuses (releaseQueue_frame _ _ 0x83204C8E rfl) fun _ => rfl
@[simp] theorem releaseQueue_cfg (id) (s : State) : (releaseQueue id s).cfg = s.cfg :=
  field_of_blank State.cfg (releaseQueue_frame _ _ 0x83204C8E rfl) fun _ => rfl
@[simp] theorem releaseQueue_img (id) (s : State) : (releaseQueue id s).img = s.img :=
  field_of_blank State.img (releaseQueue_frame _ _ 0x83204C8E rfl) fun _ => rfl
@[simp] theorem releaseQueue_hostLatch (id) (s : State) : (releaseQueue id s).hostLatch = s.hostLatch :=
  field_of_blank State.hostLatch (releaseQueue_frame _ _ 0x83204C8E rfl) fun _ => rfl
@[simp] theorem releaseQueue_hostStage (id) (s : State) : (releaseQueue id s).hostStage = s.hostStage :=
  field_of_blank State.hostStage (releaseQueue_frame _ _ 0x83204C8E rfl) fun _ => rfl
@[simp] theorem releaseQueue_rma (id) (s : State) : (releaseQueue id s).rma = s.rma :=
  field_of_blank State.rma (releaseQueue_frame _ _ 0x83204C8E rfl) fun _ => rfl
@[simp] theorem releaseQueue_wlg (id) (s : State) : (releaseQueue id s).wlg = s.wlg :=
  field_of_blank State.wlg (releaseQueue_frame _ _ 0x83204C8E rfl) fun _ => rfl
@[simp] theorem releaseQueue_kc (id) (s : State) : (releaseQueue id s).kc = s.kc :=
  field_of_blank State.kc (releaseQueue_frame _ _ 0x83204C8E rfl) fun _ => rfl
@[simp] theorem releaseQueue_sec (id) (s : State) : (releaseQueue id s).sec = s.sec :=
  field_of_blank State.sec (releaseQueue_frame _ _ 0x83204C8E rfl) fun _ => rfl
@[simp] theorem releaseQueue_dig (id) (s : State) : (releaseQueue id s).dig = s.dig :=
  field_of_blank State.dig (releaseQueue_frame _ _ 0x83204C8E rfl) fun _ => rfl
@[simp] theorem releaseQueue_med (id) (s : State) : (releaseQueue id s).med = s.med :=
  field_of_blank State.med (releaseQueue_frame _ _ 0x83204C8E rfl) fun _ => rfl
@[simp] theorem releaseQueue_mmg (id) (s : State) : (releaseQueue id s).mmg = s.mmg :=
  field_of_blank State.mmg (releaseQueue_frame _ _ 0x83204C8E rfl) fun _ => rfl
@[simp] theorem releaseQueue_ecp (id) (s : State) : (releaseQueue id s).ecp = s.ecp :=
  field_of_blank State.ecp (releaseQueue_frame _ _ 0x83204C8E rfl) fun _ => rfl
@[simp] theorem releaseQueue_drc (id) (s : State) : (releaseQueue id s).drc = s.drc :=
  field_of_blank State.drc (releaseQueue_frame _ _ 0x83204C8E rfl) fun _ => rfl
@[simp] theorem releaseQueue_cle (id) (s : State) : (releaseQueue id s).cle = s.cle :=
  field_of_blank State.cle (releaseQueue_frame _ _ 0x83204C8E rfl) fun _ => rfl
@[simp] theorem releaseQueue_upd (id) (s : State) : (releaseQueue id s).upd = s.upd :=
  field_of_blank State.upd (releaseQueue_frame _ _ 0x83204C8E rfl) fun _ => rfl
@[simp] theorem releaseQueue_nor (id) (s : State) : (releaseQueue id s).nor = s.nor :=
  field_of_blank State.nor (releaseQueue_frame _ _ 0x83204C8E rfl) fun _ => rfl
@[simp] theorem releaseQueue_lz (id) (s : State) : (releaseQueue id s).lz = s.lz :=
  field_of_blank State.lz (releaseQueue_frame _ _ 0x83204C8E rfl) fun _ => rfl
@[simp] theorem releaseQueue_sram (id) (s : State) : (releaseQueue id s).sram = s.sram :=
  field_of_blank State.sram (releaseQueue_frame _ _ 0x83204C8E rfl) fun _ => rfl
@[simp] theorem releaseQueue_hostData (id) (s : State) : (releaseQueue id s).hostData = s.hostData :=
  field_of_blank State.hostData (releaseQueue_frame _ _ 0x83204C8E rfl) fun _ => rfl
@[simp] theorem releaseQueue_freeCtr (id) (s : State) : (releaseQueue id s).freeCtr = s.freeCtr :=
  field_of_blank State.freeCtr (releaseQueue_frame _ _ 0x83204C8E rfl) fun _ => rfl
@[simp] theorem releaseQueue_pending (id) (s : State) : (releaseQueue id s).pending = s.pending :=
  field_of_blank State.pending (releaseQueue_frame _ _ 0x83204C8E rfl) fun _ => rfl
@[simp] theorem dmlIssue_glb (p) (c) (s : State) : (dmlIssue p c s).glb = s.glb :=
  field_of_blank State.glb (dmlIssue_frame _ _ _ 0x80040000 rfl) fun _ => rfl
@[simp] theorem dmlIssue_pwr (p) (c) (s : State) : (dmlIssue p c s).pwr = s.pwr :=
  field_of_blank State.pwr (dmlIssue_frame _ _ _ 0x80040000 rfl) fun _ => rfl
@[simp] theorem dmlIssue_island (p) (c) (s : State) : (dmlIssue p c s).island = s.island :=
  field_of_blank State.island (dmlIssue_frame _ _ _ 0x80040000 rfl) fun _ => rfl
@[simp] theorem dmlIssue_lds (p) (c) (s : State) : (dmlIssue p c s).lds = s.lds :=
  field_of_blank State.lds (dmlIssue_frame _ _ _ 0x80040000 rfl) fun _ => rfl
@[simp] theorem dmlIssue_fuses (p) (c) (s : State) : (dmlIssue p c s).fuses = s.fuses :=
  field_of_blank State.fuses (dmlIssue_frame _ _ _ 0x80040000 rfl) fun _ => rfl
@[simp] theorem dmlIssue_cfg (p) (c) (s : State) : (dmlIssue p c s).cfg = s.cfg :=
  field_of_blank State.cfg (dmlIssue_frame _ _ _ 0x80040000 rfl) fun _ => rfl
@[simp] theorem dmlIssue_img (p) (c) (s : State) : (dmlIssue p c s).img = s.img :=
  field_of_blank State.img (dmlIssue_frame _ _ _ 0x80040000 rfl) fun _ => rfl
@[simp] theorem dmlIssue_eps (p) (c) (s : State) : (dmlIssue p c s).eps = s.eps :=
  field_of_blank State.eps (dmlIssue_frame _ _ _ 0x80040000 rfl) fun _ => rfl
@[simp] theorem dmlIssue_hostLatch (p) (c) (s : State) : (dmlIssue p c s).hostLatch = s.hostLatch :=
  field_of_blank State.hostLatch (dmlIssue_frame _ _ _ 0x80040000 rfl) fun _ => rfl
@[simp] theorem dmlIssue_hostStage (p) (c) (s : State) : (dmlIssue p c s).hostStage = s.hostStage :=
  field_of_blank State.hostStage (dmlIssue_frame _ _ _ 0x80040000 rfl) fun _ => rfl
@[simp] theorem dmlIssue_dcq (p) (c) (s : State) : (dmlIssue p c s).dcq = s.dcq :=
  field_of_blank State.dcq (dmlIssue_frame _ _ _ 0x80040000 rfl) fun _ => rfl
@[simp] theorem dmlIssue_net (p) (c) (s : State) : (dmlIssue p c s).net = s.net :=
  field_of_blank State.net (dmlIssue_frame _ _ _ 0x80040000 rfl) fun _ => rfl
@[simp] theorem dmlIssue_rma (p) (c) (s : State) : (dmlIssue p c s).rma = s.rma :=
  field_of_blank State.rma (dmlIssue_frame _ _ _ 0x80040000 rfl) fun _ => rfl
@[simp] theorem dmlIssue_wlg (p) (c) (s : State) : (dmlIssue p c s).wlg = s.wlg :=
  field_of_blank State.wlg (dmlIssue_frame _ _ _ 0x80040000 rfl) fun _ => rfl
@[simp] theorem dmlIssue_red (p) (c) (s : State) : (dmlIssue p c s).red = s.red :=
  field_of_blank State.red (dmlIssue_frame _ _ _ 0x80040000 rfl) fun _ => rfl
@[simp] theorem dmlIssue_kc (p) (c) (s : State) : (dmlIssue p c s).kc = s.kc :=
  field_of_blank State.kc (dmlIssue_frame _ _ _ 0x80040000 rfl) fun _ => rfl
@[simp] theorem dmlIssue_sec (p) (c) (s : State) : (dmlIssue p c s).sec = s.sec :=
  field_of_blank State.sec (dmlIssue_frame _ _ _ 0x80040000 rfl) fun _ => rfl
@[simp] theorem dmlIssue_dig (p) (c) (s : State) : (dmlIssue p c s).dig = s.dig :=
  field_of_blank State.dig (dmlIssue_frame _ _ _ 0x80040000 rfl) fun _ => rfl
@[simp] theorem dmlIssue_mmg (p) (c) (s : State) : (dmlIssue p c s).mmg = s.mmg :=
  field_of_blank State.mmg (dmlIssue_frame _ _ _ 0x80040000 rfl) fun _ => rfl
@[simp] theorem dmlIssue_ecp (p) (c) (s : State) : (dmlIssue p c s).ecp = s.ecp :=
  field_of_blank State.ecp (dmlIssue_frame _ _ _ 0x80040000 rfl) fun _ => rfl
@[simp] theorem dmlIssue_xhl (p) (c) (s : State) : (dmlIssue p c s).xhl = s.xhl :=
  field_of_blank State.xhl (dmlIssue_frame _ _ _ 0x80040000 rfl) fun _ => rfl
@[simp] theorem dmlIssue_drc (p) (c) (s : State) : (dmlIssue p c s).drc = s.drc :=
  field_of_blank State.drc (dmlIssue_frame _ _ _ 0x80040000 rfl) fun _ => rfl
@[simp] theorem dmlIssue_cle (p) (c) (s : State) : (dmlIssue p c s).cle = s.cle :=
  field_of_blank State.cle (dmlIssue_frame _ _ _ 0x80040000 rfl) fun _ => rfl
@[simp] theorem dmlIssue_flt (p) (c) (s : State) : (dmlIssue p c s).flt = s.flt :=
  field_of_blank State.flt (dmlIssue_frame _ _ _ 0x80040000 rfl) fun _ => rfl
@[simp] theorem dmlIssue_alm (p) (c) (s : State) : (dmlIssue p c s).alm = s.alm :=
  field_of_blank State.alm (dmlIssue_frame _ _ _ 0x80040000 rfl) fun _ => rfl
@[simp] theorem dmlIssue_upd (p) (c) (s : State) : (dmlIssue p c s).upd = s.upd :=
  field_of_blank State.upd (dmlIssue_frame _ _ _ 0x80040000 rfl) fun _ => rfl
@[simp] theorem dmlIssue_nor (p) (c) (s : State) : (dmlIssue p c s).nor = s.nor :=
  field_of_blank State.nor (dmlIssue_frame _ _ _ 0x80040000 rfl) fun _ => rfl
@[simp] theorem dmlIssue_lz (p) (c) (s : State) : (dmlIssue p c s).lz = s.lz :=
  field_of_blank State.lz (dmlIssue_frame _ _ _ 0x80040000 rfl) fun _ => rfl
@[simp] theorem dmlIssue_sram (p) (c) (s : State) : (dmlIssue p c s).sram = s.sram :=
  field_of_blank State.sram (dmlIssue_frame _ _ _ 0x80040000 rfl) fun _ => rfl
@[simp] theorem dmlIssue_hostData (p) (c) (s : State) : (dmlIssue p c s).hostData = s.hostData :=
  field_of_blank State.hostData (dmlIssue_frame _ _ _ 0x80040000 rfl) fun _ => rfl
@[simp] theorem dmlIssue_freeCtr (p) (c) (s : State) : (dmlIssue p c s).freeCtr = s.freeCtr :=
  field_of_blank State.freeCtr (dmlIssue_frame _ _ _ 0x80040000 rfl) fun _ => rfl
@[simp] theorem dmlIssue_pending (p) (c) (s : State) : (dmlIssue p c s).pending = s.pending :=
  field_of_blank State.pending (dmlIssue_frame _ _ _ 0x80040000 rfl) fun _ => rfl
@[simp] theorem failstop_fuses (cause) (source) (s : State) : (failstop cause source s).fuses = s.fuses :=
  field_of_blank State.fuses (failstop_frame _ _ _ 0x8F206CAF rfl) fun _ => rfl
@[simp] theorem failstop_img (cause) (source) (s : State) : (failstop cause source s).img = s.img :=
  field_of_blank State.img (failstop_frame _ _ _ 0x8F206CAF rfl) fun _ => rfl
@[simp] theorem failstop_hostLatch (cause) (source) (s : State) : (failstop cause source s).hostLatch = s.hostLatch :=
  field_of_blank State.hostLatch (failstop_frame _ _ _ 0x8F206CAF rfl) fun _ => rfl
@[simp] theorem failstop_hostStage (cause) (source) (s : State) : (failstop cause source s).hostStage = s.hostStage :=
  field_of_blank State.hostStage (failstop_frame _ _ _ 0x8F206CAF rfl) fun _ => rfl
@[simp] theorem failstop_rma (cause) (source) (s : State) : (failstop cause source s).rma = s.rma :=
  field_of_blank State.rma (failstop_frame _ _ _ 0x8F206CAF rfl) fun _ => rfl
@[simp] theorem failstop_kc (cause) (source) (s : State) : (failstop cause source s).kc = s.kc :=
  field_of_blank State.kc (failstop_frame _ _ _ 0x8F206CAF rfl) fun _ => rfl
@[simp] theorem failstop_sec (cause) (source) (s : State) : (failstop cause source s).sec = s.sec :=
  field_of_blank State.sec (failstop_frame _ _ _ 0x8F206CAF rfl) fun _ => rfl
@[simp] theorem failstop_dig (cause) (source) (s : State) : (failstop cause source s).dig = s.dig :=
  field_of_blank State.dig (failstop_frame _ _ _ 0x8F206CAF rfl) fun _ => rfl
@[simp] theorem failstop_med (cause) (source) (s : State) : (failstop cause source s).med = s.med :=
  field_of_blank State.med (failstop_frame _ _ _ 0x8F206CAF rfl) fun _ => rfl
@[simp] theorem failstop_mmg (cause) (source) (s : State) : (failstop cause source s).mmg = s.mmg :=
  field_of_blank State.mmg (failstop_frame _ _ _ 0x8F206CAF rfl) fun _ => rfl
@[simp] theorem failstop_ecp (cause) (source) (s : State) : (failstop cause source s).ecp = s.ecp :=
  field_of_blank State.ecp (failstop_frame _ _ _ 0x8F206CAF rfl) fun _ => rfl
@[simp] theorem failstop_drc (cause) (source) (s : State) : (failstop cause source s).drc = s.drc :=
  field_of_blank State.drc (failstop_frame _ _ _ 0x8F206CAF rfl) fun _ => rfl
@[simp] theorem failstop_cle (cause) (source) (s : State) : (failstop cause source s).cle = s.cle :=
  field_of_blank State.cle (failstop_frame _ _ _ 0x8F206CAF rfl) fun _ => rfl
@[simp] theorem failstop_lz (cause) (source) (s : State) : (failstop cause source s).lz = s.lz :=
  field_of_blank State.lz (failstop_frame _ _ _ 0x8F206CAF rfl) fun _ => rfl
@[simp] theorem failstop_sram (cause) (source) (s : State) : (failstop cause source s).sram = s.sram :=
  field_of_blank State.sram (failstop_frame _ _ _ 0x8F206CAF rfl) fun _ => rfl
@[simp] theorem failstop_hostData (cause) (source) (s : State) : (failstop cause source s).hostData = s.hostData :=
  field_of_blank State.hostData (failstop_frame _ _ _ 0x8F206CAF rfl) fun _ => rfl
@[simp] theorem failstop_freeCtr (cause) (source) (s : State) : (failstop cause source s).freeCtr = s.freeCtr :=
  field_of_blank State.freeCtr (failstop_frame _ _ _ 0x8F206CAF rfl) fun _ => rfl
@[simp] theorem failstop_pending (cause) (source) (s : State) : (failstop cause source s).pending = s.pending :=
  field_of_blank State.pending (failstop_frame _ _ _ 0x8F206CAF rfl) fun _ => rfl
@[simp] theorem deliver_glb (c) (addr) (data) (s : State) : (deliver c addr data s).glb = s.glb :=
  field_of_blank State.glb (deliver_frame _ _ _ _ 0x90200082 rfl) fun _ => rfl
@[simp] theorem deliver_island (c) (addr) (data) (s : State) : (deliver c addr data s).island = s.island :=
  field_of_blank State.island (deliver_frame _ _ _ _ 0x90200082 rfl) fun _ => rfl
@[simp] theorem deliver_lds (c) (addr) (data) (s : State) : (deliver c addr data s).lds = s.lds :=
  field_of_blank State.lds (deliver_frame _ _ _ _ 0x90200082 rfl) fun _ => rfl
@[simp] theorem deliver_fuses (c) (addr) (data) (s : State) : (deliver c addr data s).fuses = s.fuses :=
  field_of_blank State.fuses (deliver_frame _ _ _ _ 0x90200082 rfl) fun _ => rfl
@[simp] theorem deliver_cfg (c) (addr) (data) (s : State) : (deliver c addr data s).cfg = s.cfg :=
  field_of_blank State.cfg (deliver_frame _ _ _ _ 0x90200082 rfl) fun _ => rfl
@[simp] theorem deliver_img (c) (addr) (data) (s : State) : (deliver c addr data s).img = s.img :=
  field_of_blank State.img (deliver_frame _ _ _ _ 0x90200082 rfl) fun _ => rfl
@[simp] theorem deliver_hostLatch (c) (addr) (data) (s : State) : (deliver c addr data s).hostLatch = s.hostLatch :=
  field_of_blank State.hostLatch (deliver_frame _ _ _ _ 0x90200082 rfl) fun _ => rfl
@[simp] theorem deliver_hostStage (c) (addr) (data) (s : State) : (deliver c addr data s).hostStage = s.hostStage :=
  field_of_blank State.hostStage (deliver_frame _ _ _ _ 0x90200082 rfl) fun _ => rfl
@[simp] theorem deliver_dcq (c) (addr) (data) (s : State) : (deliver c addr data s).dcq = s.dcq :=
  field_of_blank State.dcq (deliver_frame _ _ _ _ 0x90200082 rfl) fun _ => rfl
@[simp] theorem deliver_net (c) (addr) (data) (s : State) : (deliver c addr data s).net = s.net :=
  field_of_blank State.net (deliver_frame _ _ _ _ 0x90200082 rfl) fun _ => rfl
@[simp] theorem deliver_rma (c) (addr) (data) (s : State) : (deliver c addr data s).rma = s.rma :=
  field_of_blank State.rma (deliver_frame _ _ _ _ 0x90200082 rfl) fun _ => rfl
@[simp] theorem deliver_wlg (c) (addr) (data) (s : State) : (deliver c addr data s).wlg = s.wlg :=
  field_of_blank State.wlg (deliver_frame _ _ _ _ 0x90200082 rfl) fun _ => rfl
@[simp] theorem deliver_red (c) (addr) (data) (s : State) : (deliver c addr data s).red = s.red :=
  field_of_blank State.red (deliver_frame _ _ _ _ 0x90200082 rfl) fun _ => rfl
@[simp] theorem deliver_kc (c) (addr) (data) (s : State) : (deliver c addr data s).kc = s.kc :=
  field_of_blank State.kc (deliver_frame _ _ _ _ 0x90200082 rfl) fun _ => rfl
@[simp] theorem deliver_sec (c) (addr) (data) (s : State) : (deliver c addr data s).sec = s.sec :=
  field_of_blank State.sec (deliver_frame _ _ _ _ 0x90200082 rfl) fun _ => rfl
@[simp] theorem deliver_dig (c) (addr) (data) (s : State) : (deliver c addr data s).dig = s.dig :=
  field_of_blank State.dig (deliver_frame _ _ _ _ 0x90200082 rfl) fun _ => rfl
@[simp] theorem deliver_med (c) (addr) (data) (s : State) : (deliver c addr data s).med = s.med :=
  field_of_blank State.med (deliver_frame _ _ _ _ 0x90200082 rfl) fun _ => rfl
@[simp] theorem deliver_mmg (c) (addr) (data) (s : State) : (deliver c addr data s).mmg = s.mmg :=
  field_of_blank State.mmg (deliver_frame _ _ _ _ 0x90200082 rfl) fun _ => rfl
@[simp] theorem deliver_ecp (c) (addr) (data) (s : State) : (deliver c addr data s).ecp = s.ecp :=
  field_of_blank State.ecp (deliver_frame _ _ _ _ 0x90200082 rfl) fun _ => rfl
@[simp] theorem deliver_drc (c) (addr) (data) (s : State) : (deliver c addr data s).drc = s.drc :=
  field_of_blank State.drc (deliver_frame _ _ _ _ 0x90200082 rfl) fun _ => rfl
@[simp] theorem deliver_cle (c) (addr) (data) (s : State) : (deliver c addr data s).cle = s.cle :=
  field_of_blank State.cle (deliver_frame _ _ _ _ 0x90200082 rfl) fun _ => rfl
@[simp] theorem deliver_flt (c) (addr) (data) (s : State) : (deliver c addr data s).flt = s.flt :=
  field_of_blank State.flt (deliver_frame _ _ _ _ 0x90200082 rfl) fun _ => rfl
@[simp] theorem deliver_alm (c) (addr) (data) (s : State) : (deliver c addr data s).alm = s.alm :=
  field_of_blank State.alm (deliver_frame _ _ _ _ 0x90200082 rfl) fun _ => rfl
@[simp] theorem deliver_upd (c) (addr) (data) (s : State) : (deliver c addr data s).upd = s.upd :=
  field_of_blank State.upd (deliver_frame _ _ _ _ 0x90200082 rfl) fun _ => rfl
@[simp] theorem deliver_nor (c) (addr) (data) (s : State) : (deliver c addr data s).nor = s.nor :=
  field_of_blank State.nor (deliver_frame _ _ _ _ 0x90200082 rfl) fun _ => rfl
@[simp] theorem deliver_sram (c) (addr) (data) (s : State) : (deliver c addr data s).sram = s.sram :=
  field_of_blank State.sram (deliver_frame _ _ _ _ 0x90200082 rfl) fun _ => rfl
@[simp] theorem deliver_hostData (c) (addr) (data) (s : State) : (deliver c addr data s).hostData = s.hostData :=
  field_of_blank State.hostData (deliver_frame _ _ _ _ 0x90200082 rfl) fun _ => rfl
@[simp] theorem deliver_freeCtr (c) (addr) (data) (s : State) : (deliver c addr data s).freeCtr = s.freeCtr :=
  field_of_blank State.freeCtr (deliver_frame _ _ _ _ 0x90200082 rfl) fun _ => rfl
@[simp] theorem deliver_pending (c) (addr) (data) (s : State) : (deliver c addr data s).pending = s.pending :=
  field_of_blank State.pending (deliver_frame _ _ _ _ 0x90200082 rfl) fun _ => rfl
@[simp] theorem almCloseAll_glb (s : State) : (almCloseAll s).glb = s.glb :=
  field_of_blank State.glb (almCloseAll_frame _ 0x2000004 rfl) fun _ => rfl
@[simp] theorem almCloseAll_pwr (s : State) : (almCloseAll s).pwr = s.pwr :=
  field_of_blank State.pwr (almCloseAll_frame _ 0x2000004 rfl) fun _ => rfl
@[simp] theorem almCloseAll_lds (s : State) : (almCloseAll s).lds = s.lds :=
  field_of_blank State.lds (almCloseAll_frame _ 0x2000004 rfl) fun _ => rfl
@[simp] theorem almCloseAll_fuses (s : State) : (almCloseAll s).fuses = s.fuses :=
  field_of_blank State.fuses (almCloseAll_frame _ 0x2000004 rfl) fun _ => rfl
@[simp] theorem almCloseAll_cfg (s : State) : (almCloseAll s).cfg = s.cfg :=
  field_of_blank State.cfg (almCloseAll_frame _ 0x2000004 rfl) fun _ => rfl
@[simp] theorem almCloseAll_img (s : State) : (almCloseAll s).img = s.img :=
  field_of_blank State.img (almCloseAll_frame _ 0x2000004 rfl) fun _ => rfl
@[simp] theorem almCloseAll_eps (s : State) : (almCloseAll s).eps = s.eps :=
  field_of_blank State.eps (almCloseAll_frame _ 0x2000004 rfl) fun _ => rfl
@[simp] theorem almCloseAll_hostLatch (s : State) : (almCloseAll s).hostLatch = s.hostLatch :=
  field_of_blank State.hostLatch (almCloseAll_frame _ 0x2000004 rfl) fun _ => rfl
@[simp] theorem almCloseAll_hostStage (s : State) : (almCloseAll s).hostStage = s.hostStage :=
  field_of_blank State.hostStage (almCloseAll_frame _ 0x2000004 rfl) fun _ => rfl
@[simp] theorem almCloseAll_dcq (s : State) : (almCloseAll s).dcq = s.dcq :=
  field_of_blank State.dcq (almCloseAll_frame _ 0x2000004 rfl) fun _ => rfl
@[simp] theorem almCloseAll_net (s : State) : (almCloseAll s).net = s.net :=
  field_of_blank State.net (almCloseAll_frame _ 0x2000004 rfl) fun _ => rfl
@[simp] theorem almCloseAll_rma (s : State) : (almCloseAll s).rma = s.rma :=
  field_of_blank State.rma (almCloseAll_frame _ 0x2000004 rfl) fun _ => rfl
@[simp] theorem almCloseAll_wlg (s : State) : (almCloseAll s).wlg = s.wlg :=
  field_of_blank State.wlg (almCloseAll_frame _ 0x2000004 rfl) fun _ => rfl
@[simp] theorem almCloseAll_red (s : State) : (almCloseAll s).red = s.red :=
  field_of_blank State.red (almCloseAll_frame _ 0x2000004 rfl) fun _ => rfl
@[simp] theorem almCloseAll_kc (s : State) : (almCloseAll s).kc = s.kc :=
  field_of_blank State.kc (almCloseAll_frame _ 0x2000004 rfl) fun _ => rfl
@[simp] theorem almCloseAll_sec (s : State) : (almCloseAll s).sec = s.sec :=
  field_of_blank State.sec (almCloseAll_frame _ 0x2000004 rfl) fun _ => rfl
@[simp] theorem almCloseAll_dig (s : State) : (almCloseAll s).dig = s.dig :=
  field_of_blank State.dig (almCloseAll_frame _ 0x2000004 rfl) fun _ => rfl
@[simp] theorem almCloseAll_med (s : State) : (almCloseAll s).med = s.med :=
  field_of_blank State.med (almCloseAll_frame _ 0x2000004 rfl) fun _ => rfl
@[simp] theorem almCloseAll_mmg (s : State) : (almCloseAll s).mmg = s.mmg :=
  field_of_blank State.mmg (almCloseAll_frame _ 0x2000004 rfl) fun _ => rfl
@[simp] theorem almCloseAll_ecp (s : State) : (almCloseAll s).ecp = s.ecp :=
  field_of_blank State.ecp (almCloseAll_frame _ 0x2000004 rfl) fun _ => rfl
@[simp] theorem almCloseAll_xhl (s : State) : (almCloseAll s).xhl = s.xhl :=
  field_of_blank State.xhl (almCloseAll_frame _ 0x2000004 rfl) fun _ => rfl
@[simp] theorem almCloseAll_drc (s : State) : (almCloseAll s).drc = s.drc :=
  field_of_blank State.drc (almCloseAll_frame _ 0x2000004 rfl) fun _ => rfl
@[simp] theorem almCloseAll_cle (s : State) : (almCloseAll s).cle = s.cle :=
  field_of_blank State.cle (almCloseAll_frame _ 0x2000004 rfl) fun _ => rfl
@[simp] theorem almCloseAll_flt (s : State) : (almCloseAll s).flt = s.flt :=
  field_of_blank State.flt (almCloseAll_frame _ 0x2000004 rfl) fun _ => rfl
@[simp] theorem almCloseAll_upd (s : State) : (almCloseAll s).upd = s.upd :=
  field_of_blank State.upd (almCloseAll_frame _ 0x2000004 rfl) fun _ => rfl
@[simp] theorem almCloseAll_nor (s : State) : (almCloseAll s).nor = s.nor :=
  field_of_blank State.nor (almCloseAll_frame _ 0x2000004 rfl) fun _ => rfl
@[simp] theorem almCloseAll_lz (s : State) : (almCloseAll s).lz = s.lz :=
  field_of_blank State.lz (almCloseAll_frame _ 0x2000004 rfl) fun _ => rfl
@[simp] theorem almCloseAll_sram (s : State) : (almCloseAll s).sram = s.sram :=
  field_of_blank State.sram (almCloseAll_frame _ 0x2000004 rfl) fun _ => rfl
@[simp] theorem almCloseAll_hostData (s : State) : (almCloseAll s).hostData = s.hostData :=
  field_of_blank State.hostData (almCloseAll_frame _ 0x2000004 rfl) fun _ => rfl
@[simp] theorem almCloseAll_out (s : State) : (almCloseAll s).out = s.out :=
  field_of_blank State.out (almCloseAll_frame _ 0x2000004 rfl) fun _ => rfl
@[simp] theorem almCloseAll_freeCtr (s : State) : (almCloseAll s).freeCtr = s.freeCtr :=
  field_of_blank State.freeCtr (almCloseAll_frame _ 0x2000004 rfl) fun _ => rfl
@[simp] theorem almCloseAll_pending (s : State) : (almCloseAll s).pending = s.pending :=
  field_of_blank State.pending (almCloseAll_frame _ 0x2000004 rfl) fun _ => rfl
@[simp] theorem almSaveAll_glb (s : State) : (almSaveAll s).glb = s.glb :=
  field_of_blank State.glb (almSaveAll_frame _ 0xA000004 rfl) fun _ => rfl
@[simp] theorem almSaveAll_pwr (s : State) : (almSaveAll s).pwr = s.pwr :=
  field_of_blank State.pwr (almSaveAll_frame _ 0xA000004 rfl) fun _ => rfl
@[simp] theorem almSaveAll_lds (s : State) : (almSaveAll s).lds = s.lds :=
  field_of_blank State.lds (almSaveAll_frame _ 0xA000004 rfl) fun _ => rfl
@[simp] theorem almSaveAll_fuses (s : State) : (almSaveAll s).fuses = s.fuses :=
  field_of_blank State.fuses (almSaveAll_frame _ 0xA000004 rfl) fun _ => rfl
@[simp] theorem almSaveAll_cfg (s : State) : (almSaveAll s).cfg = s.cfg :=
  field_of_blank State.cfg (almSaveAll_frame _ 0xA000004 rfl) fun _ => rfl
@[simp] theorem almSaveAll_img (s : State) : (almSaveAll s).img = s.img :=
  field_of_blank State.img (almSaveAll_frame _ 0xA000004 rfl) fun _ => rfl
@[simp] theorem almSaveAll_eps (s : State) : (almSaveAll s).eps = s.eps :=
  field_of_blank State.eps (almSaveAll_frame _ 0xA000004 rfl) fun _ => rfl
@[simp] theorem almSaveAll_hostLatch (s : State) : (almSaveAll s).hostLatch = s.hostLatch :=
  field_of_blank State.hostLatch (almSaveAll_frame _ 0xA000004 rfl) fun _ => rfl
@[simp] theorem almSaveAll_hostStage (s : State) : (almSaveAll s).hostStage = s.hostStage :=
  field_of_blank State.hostStage (almSaveAll_frame _ 0xA000004 rfl) fun _ => rfl
@[simp] theorem almSaveAll_dcq (s : State) : (almSaveAll s).dcq = s.dcq :=
  field_of_blank State.dcq (almSaveAll_frame _ 0xA000004 rfl) fun _ => rfl
@[simp] theorem almSaveAll_net (s : State) : (almSaveAll s).net = s.net :=
  field_of_blank State.net (almSaveAll_frame _ 0xA000004 rfl) fun _ => rfl
@[simp] theorem almSaveAll_rma (s : State) : (almSaveAll s).rma = s.rma :=
  field_of_blank State.rma (almSaveAll_frame _ 0xA000004 rfl) fun _ => rfl
@[simp] theorem almSaveAll_wlg (s : State) : (almSaveAll s).wlg = s.wlg :=
  field_of_blank State.wlg (almSaveAll_frame _ 0xA000004 rfl) fun _ => rfl
@[simp] theorem almSaveAll_red (s : State) : (almSaveAll s).red = s.red :=
  field_of_blank State.red (almSaveAll_frame _ 0xA000004 rfl) fun _ => rfl
@[simp] theorem almSaveAll_kc (s : State) : (almSaveAll s).kc = s.kc :=
  field_of_blank State.kc (almSaveAll_frame _ 0xA000004 rfl) fun _ => rfl
@[simp] theorem almSaveAll_sec (s : State) : (almSaveAll s).sec = s.sec :=
  field_of_blank State.sec (almSaveAll_frame _ 0xA000004 rfl) fun _ => rfl
@[simp] theorem almSaveAll_dig (s : State) : (almSaveAll s).dig = s.dig :=
  field_of_blank State.dig (almSaveAll_frame _ 0xA000004 rfl) fun _ => rfl
@[simp] theorem almSaveAll_med (s : State) : (almSaveAll s).med = s.med :=
  field_of_blank State.med (almSaveAll_frame _ 0xA000004 rfl) fun _ => rfl
@[simp] theorem almSaveAll_mmg (s : State) : (almSaveAll s).mmg = s.mmg :=
  field_of_blank State.mmg (almSaveAll_frame _ 0xA000004 rfl) fun _ => rfl
@[simp] theorem almSaveAll_ecp (s : State) : (almSaveAll s).ecp = s.ecp :=
  field_of_blank State.ecp (almSaveAll_frame _ 0xA000004 rfl) fun _ => rfl
@[simp] theorem almSaveAll_xhl (s : State) : (almSaveAll s).xhl = s.xhl :=
  field_of_blank State.xhl (almSaveAll_frame _ 0xA000004 rfl) fun _ => rfl
@[simp] theorem almSaveAll_drc (s : State) : (almSaveAll s).drc = s.drc :=
  field_of_blank State.drc (almSaveAll_frame _ 0xA000004 rfl) fun _ => rfl
@[simp] theorem almSaveAll_cle (s : State) : (almSaveAll s).cle = s.cle :=
  field_of_blank State.cle (almSaveAll_frame _ 0xA000004 rfl) fun _ => rfl
@[simp] theorem almSaveAll_flt (s : State) : (almSaveAll s).flt = s.flt :=
  field_of_blank State.flt (almSaveAll_frame _ 0xA000004 rfl) fun _ => rfl
@[simp] theorem almSaveAll_upd (s : State) : (almSaveAll s).upd = s.upd :=
  field_of_blank State.upd (almSaveAll_frame _ 0xA000004 rfl) fun _ => rfl
@[simp] theorem almSaveAll_lz (s : State) : (almSaveAll s).lz = s.lz :=
  field_of_blank State.lz (almSaveAll_frame _ 0xA000004 rfl) fun _ => rfl
@[simp] theorem almSaveAll_sram (s : State) : (almSaveAll s).sram = s.sram :=
  field_of_blank State.sram (almSaveAll_frame _ 0xA000004 rfl) fun _ => rfl
@[simp] theorem almSaveAll_hostData (s : State) : (almSaveAll s).hostData = s.hostData :=
  field_of_blank State.hostData (almSaveAll_frame _ 0xA000004 rfl) fun _ => rfl
@[simp] theorem almSaveAll_out (s : State) : (almSaveAll s).out = s.out :=
  field_of_blank State.out (almSaveAll_frame _ 0xA000004 rfl) fun _ => rfl
@[simp] theorem almSaveAll_freeCtr (s : State) : (almSaveAll s).freeCtr = s.freeCtr :=
  field_of_blank State.freeCtr (almSaveAll_frame _ 0xA000004 rfl) fun _ => rfl
@[simp] theorem almSaveAll_pending (s : State) : (almSaveAll s).pending = s.pending :=
  field_of_blank State.pending (almSaveAll_frame _ 0xA000004 rfl) fun _ => rfl

end Sys2Proof.Machine
end

