-- ==== Sys2Proof/Laws/Thin.lean ====
section
/-!
SUPPORT. What an event record, a completion and a message on the crosshead link leave as it was inside the parts of State they
write: `f_thin` says that `f` changes nothing that `thin` keeps.
-/
set_option Elab.async false
set_option linter.unusedSimpArgs false
set_option linter.unusedVariables false
namespace Sys2Proof.Machine

/-- An endpoint without its pending interrupts, its posted requests and its waiting writes. -/
def thinEp (e : Endpoint) : Endpoint := { e with pba := Endpoint.reset.pba, heldWrites := [], posted := [] }

/-- The crosshead link without its transmitter: the classes' queues, the sequence, what waits for an acknowledgement, the turn of the
classes, the time of progress and the sequence of the deltas. -/
def thinXhl (x : Xhl) : Xhl := { x with tcs := [], seqTx := 0, unacked := [], wrr := [], progressAt := 0, dseqTx := 0 }

/-- The state without what an event record, a completion or a message may change: the Almanac and its NOR, the queues, what
left the head, the island's records, open periods, queue pairs and their completions, the alert bits, the locks and versions a waiting
command gives up, the transmitter of the crosshead link, the time of the last work and waiting interrupts. -/
def thin (s : State) : State :=
  { s with
    alm := Alm.reset, dcq := Dcq.reset, nor := [], out := [], island.records := [], lds.tenants := [], net.qps := [], net.cpls := []
    flt.alert := 0, flt.alertNow := 0, red.volumes := [], pwr.lastBusy := 0, xhl := thinXhl s.xhl, eps := s.eps.map thinEp }

/-- A fold of a function that keeps the thin state keeps it. -/
theorem foldl_thin {α : Type} {f : State → α → State} (h : ∀ s a, thin (f s a) = thin s) (l : List α) (s : State) :
    thin (l.foldl f s) = thin s := by
  induction l generalizing s with
  | nil => rfl
  | cons a l ih => rw [List.foldl_cons, ih, h]

theorem thin_mk (t : State) (x d n o) : thin { t with alm := x, dcq := d, nor := n, out := o } = thin t := (rfl)

theorem thin_volumes (t : State) (v) : thin { t with red.volumes := v } = thin t := (rfl)

theorem thin_cpls (t : State) (c) : thin { t with net.cpls := c } = thin t := (rfl)

theorem thin_dseq (t : State) (d) : thin { t with xhl.dseqTx := d } = thin t := (rfl)

theorem thin_transmit {t : State} {x : Xhl} (h : thinXhl x = thinXhl t.xhl) : thin { t with xhl := x } = thin t := by
  unfold thin
  simp only [h]

theorem xhlNext_thin {n : Nat} {x y : Xhl} {f : List (BitVec 8)} (h : xhlNext n x = some (f, y)) : thinXhl y = thinXhl x := by
  unfold xhlNext at h
  split at h
  · obtain ⟨c, _, h⟩ := Option.bind_eq_some_iff.mp h
    obtain ⟨p, _, h⟩ := Option.map_eq_some_iff.mp h
    cases h
    rfl
  · cases h

theorem modEp_thin (a0) (f : Endpoint → Endpoint) (s : State) (h : ∀ e, thinEp (f e) = thinEp e) :
    thin (modEp a0 f s) = thin s := by
  have hl : (s.eps.modify a0 f).map thinEp = s.eps.map thinEp := by
    apply List.ext_getElem
    · simp
    · intro i h1 h2
      simp only [List.getElem_map, List.getElem_modify]
      split
      · exact h _
      · rfl
  unfold thin modEp
  simp only [hl]

theorem emit_thin (a0) (s : State) : thin (emit a0 s) = thin s := (rfl)

theorem sendPost_thin (a0) (a1) (s : State) : thin (sendPost a0 a1 s) = thin s := by
  unfold sendPost
  repeat' first
    | with_reducible rfl
    | simp only [thin_mk, thinEp, implies_true, foldl_thin, apply_ite thin, ite_self, Option.elim, emit_thin]
    | (with_reducible refine (foldl_thin ?_ _ _).trans ?_; intro s x)
    | (split <;> try (rename_i h; with_reducible rw [Prod.ext_iff] at h; have h' := h.2; dsimp only at h'; subst h'))

theorem postReq_thin (a0) (a1) (s : State) : thin (postReq a0 a1 s) = thin s := by
  have h : ∀ e : Endpoint, thinEp { e with posted := lastN 2048 (e.posted ++ [a1]) } = thinEp e := by
    generalize 2048 = n
    intro e
    rfl
  unfold postReq
  rw [sendPost_thin, modEp_thin _ _ _ h]

theorem raiseVec_thin (a0) (a1) (s : State) : thin (raiseVec a0 a1 s) = thin s := by
  have h : ∀ e : Endpoint, thinEp { e with pba := e.pba.set a1 true } = thinEp e := fun _ => rfl
  unfold raiseVec
  dsimp only
  repeat' first
    | with_reducible rfl
    | with_reducible exact modEp_thin _ _ _ h
    | with_reducible exact postReq_thin _ _ _
    | split

theorem raiseVec0_thin (s : State) : thin (raiseVec0 s) = thin s := by
  unfold raiseVec0
  repeat' first
    | with_reducible rfl
    | simp only [thin_mk, thinEp, implies_true, foldl_thin, apply_ite thin, ite_self, Option.elim, raiseVec_thin]
    | (with_reducible refine (foldl_thin ?_ _ _).trans ?_; intro s x)
    | (split <;> try (rename_i h; with_reducible rw [Prod.ext_iff] at h; have h' := h.2; dsimp only at h'; subst h'))

theorem raiseAlert_thin (a0) (s : State) : thin (raiseAlert a0 s) = thin s := by
  have h : ∀ x y : BitVec 18, thin { s with flt.alert := x, flt.alertNow := y } = thin s := fun _ _ => rfl
  unfold raiseAlert
  dsimp only
  split
  · exact (raiseVec0_thin _).trans (h _ _)
  · exact h _ _

theorem almModify_thin (a0) (a1) (s : State) : thin (almModify a0 a1 s) = thin s := (rfl)

theorem almInsert_thin (a0) (a1) (s : State) : thin (almInsert a0 a1 s) = thin s := by
  unfold almInsert
  generalize lifeCycle s = l
  have key : ∀ (t : State) (x : List AlmRecord), thin { t with island.records := x } = thin t := fun _ _ => rfl
  have key2 : ∀ (t : State) (x : List AlmRecord) (y : Alm), thin { t with island.records := x, alm := y } = thin t :=
    fun _ _ _ => rfl
  generalize 65536 = w
  dsimp only
  repeat' first
    | with_reducible rfl
    | simp only [key2]
    | split

theorem almOpen_thin (a0) (a1) (a2) (a3) (a4) (s : State) : thin (almOpen a0 a1 a2 a3 a4 s) = thin s := by
  unfold almOpen
  repeat' first
    | with_reducible rfl
    | simp only [thin_mk, thinEp, implies_true, foldl_thin, apply_ite thin, ite_self, Option.elim, almInsert_thin]
    | (with_reducible refine (foldl_thin ?_ _ _).trans ?_; intro s x)
    | (split <;> try (rename_i h; with_reducible rw [Prod.ext_iff] at h; have h' := h.2; dsimp only at h'; subst h'))

theorem norPush_thin (a0) (s : State) : thin (norPush a0 s) = thin s := by
  unfold norPush
  repeat' first
    | with_reducible rfl
    | (split <;> try (rename_i h; with_reducible rw [Prod.ext_iff] at h; have h' := h.2; dsimp only at h'; subst h'))
    | simp only [thin_mk, thinEp, implies_true, foldl_thin, apply_ite thin, ite_self, Option.elim, almOpen_thin]

theorem almClose_thin (a0) (s : State) : thin (almClose a0 s) = thin s := by
  unfold almClose
  repeat' first
    | with_reducible rfl
    | simp only [thin_mk, thinEp, implies_true, foldl_thin, apply_ite thin, ite_self, Option.elim, almModify_thin, norPush_thin]
    | (with_reducible refine (foldl_thin ?_ _ _).trans ?_; intro s x)
    | (split <;> try (rename_i h; with_reducible rw [Prod.ext_iff] at h; have h' := h.2; dsimp only at h'; subst h'))

theorem almMerge_thin (a0) (a1) (s : State) : thin (almMerge a0 a1 s) = thin s := by
  unfold almMerge
  repeat' first
    | with_reducible rfl
    | simp only [thin_mk, thinEp, implies_true, foldl_thin, apply_ite thin, ite_self, Option.elim, almClose_thin, almModify_thin]
    | (with_reducible refine (foldl_thin ?_ _ _).trans ?_; intro s x)
    | (split <;> try (rename_i h; with_reducible rw [Prod.ext_iff] at h; have h' := h.2; dsimp only at h'; subst h'))

theorem almMakeRoom_thin (s : State) : thin (almMakeRoom s) = thin s := by
  unfold almMakeRoom
  repeat' first
    | with_reducible rfl
    | simp only [thin_mk, thinEp, implies_true, foldl_thin, apply_ite thin, ite_self, Option.elim, almClose_thin]
    | (with_reducible refine (foldl_thin ?_ _ _).trans ?_; intro s x)
    | (split <;> try (rename_i h; with_reducible rw [Prod.ext_iff] at h; have h' := h.2; dsimp only at h'; subst h'))

theorem recordCore_thin (a0) (a1) (a2) (a3) (a4) (s : State) : thin (recordCore a0 a1 a2 a3 a4 s).2 = thin s := by
  unfold recordCore
  repeat' first
    | with_reducible rfl
    | simp only [thin_mk, thinEp, implies_true, foldl_thin, apply_ite thin, ite_self, Option.elim, raiseAlert_thin, almMerge_thin, almModify_thin, almOpen_thin, almMakeRoom_thin]
    | (with_reducible refine (foldl_thin ?_ _ _).trans ?_; intro s x)
    | (split <;> try (rename_i h; with_reducible rw [Prod.ext_iff] at h; have h' := h.2; dsimp only at h'; subst h'))

theorem undoCmd_thin (a0) (s : State) : thin (undoCmd a0 s) = thin s := by
  unfold undoCmd
  dsimp only
  split
  · exact thin_volumes _ _
  · rfl

theorem xhlPump_thin (a0) (s : State) : thin (xhlPump a0 s) = thin s := by
  induction a0 generalizing s with
  | zero => rfl
  | succ k ih =>
    rw [xhlPump]
    split
    · rename_i f x h
      rw [ih, emit_thin]
      exact thin_transmit (xhlNext_thin h)
    · rfl

theorem xhlRun_thin (s : State) : thin (xhlRun s) = thin s := by
  unfold xhlRun
  repeat' first
    | with_reducible rfl
    | simp only [thin_mk, thinEp, implies_true, foldl_thin, apply_ite thin, ite_self, Option.elim, xhlPump_thin]
    | (with_reducible refine (foldl_thin ?_ _ _).trans ?_; intro s x)
    | (split <;> try (rename_i h; with_reducible rw [Prod.ext_iff] at h; have h' := h.2; dsimp only at h'; subst h'))

theorem xhlSend_thin (a0) (a1) (a2) (a3) (a4) (s : State) : thin (xhlSend a0 a1 a2 a3 a4 s) = thin s := by
  have h : ∀ (t : State) (l : List TcState) (n : Nat), thin { t with xhl.tcs := l, pwr.lastBusy := n } = thin t := fun _ _ _ => rfl
  unfold xhlSend
  dsimp only
  split
  · exact ((xhlRun_thin _).trans (emit_thin _ _)).trans (h _ _ _)
  · rfl

theorem modQueue_thin (a0) (a1) (s : State) : thin (modQueue a0 a1 s) = thin s := (rfl)

theorem accrue_thin (a0) (s : State) : thin (accrue a0 s) = thin s := by
  unfold accrue
  split <;> rfl

theorem signalCpl_thin (a0) (a1) (s : State) : thin (signalCpl a0 a1 s) = thin s := by
  unfold signalCpl
  repeat' first
    | with_reducible rfl
    | simp only [thin_mk, thinEp, implies_true, foldl_thin, apply_ite thin, ite_self, Option.elim, raiseVec_thin, modQueue_thin]
    | (with_reducible refine (foldl_thin ?_ _ _).trans ?_; intro s x)
    | (split <;> try (rename_i h; with_reducible rw [Prod.ext_iff] at h; have h' := h.2; dsimp only at h'; subst h'))

theorem postCpl_thin (a0) (a1) (s : State) : thin (postCpl a0 a1 s) = thin s := by
  unfold postCpl
  repeat' first
    | with_reducible rfl
    | simp only [accrue_thin, signalCpl_thin, postReq_thin, modQueue_thin, thin_cpls]
    | split
    | dsimp only

theorem queueCpl_thin (a0) (a1) (s : State) : thin (queueCpl a0 a1 s) = thin s := by
  unfold queueCpl
  repeat' first
    | with_reducible rfl
    | simp only [thin_mk, thinEp, implies_true, foldl_thin, apply_ite thin, ite_self, Option.elim, postCpl_thin, modQueue_thin]
    | (with_reducible refine (foldl_thin ?_ _ _).trans ?_; intro s x)
    | (split <;> try (rename_i h; with_reducible rw [Prod.ext_iff] at h; have h' := h.2; dsimp only at h'; subst h'))

theorem finishCore_thin (a0) (a1) (a2) (a3) (a4) (a5) (a6) (a7) (s : State) : thin (finishCore a0 a1 a2 a3 a4 a5 a6 a7 s) = thin s := by
  unfold finishCore
  repeat' first
    | with_reducible rfl
    | simp only [thin_mk, thinEp, implies_true, foldl_thin, apply_ite thin, ite_self, Option.elim, undoCmd_thin, xhlSend_thin, queueCpl_thin]
    | (with_reducible refine (foldl_thin ?_ _ _).trans ?_; intro s x)
    | (split <;> try (rename_i h; with_reducible rw [Prod.ext_iff] at h; have h' := h.2; dsimp only at h'; subst h'))

theorem sendDelta_thin (a0) (s : State) : thin (sendDelta a0 s) = thin s := by
  unfold sendDelta
  repeat' first
    | with_reducible rfl
    | simp only [xhlSend_thin, thin_dseq]
    | split

theorem settleRetains_thin (s : State) : thin (settleRetains s) = thin s := by
  unfold settleRetains
  repeat' first
    | with_reducible rfl
    | simp only [thin_mk, thinEp, implies_true, foldl_thin, apply_ite thin, ite_self, Option.elim, finishCore_thin, sendDelta_thin]
    | (with_reducible refine (foldl_thin ?_ _ _).trans ?_; intro s x)
    | (split <;> try (rename_i h; with_reducible rw [Prod.ext_iff] at h; have h' := h.2; dsimp only at h'; subst h'))

theorem recordInfo_thin (a0) (a1) (a2) (s : State) : thin (recordInfo a0 a1 a2 s) = thin s := by
  unfold recordInfo
  repeat' first
    | with_reducible rfl
    | simp only [thin_mk, thinEp, implies_true, foldl_thin, apply_ite thin, ite_self, Option.elim, recordCore_thin]
    | (with_reducible refine (foldl_thin ?_ _ _).trans ?_; intro s x)
    | (split <;> try (rename_i h; with_reducible rw [Prod.ext_iff] at h; have h' := h.2; dsimp only at h'; subst h'))

theorem settleQueue_thin (a0) (s : State) : thin (settleQueue a0 s) = thin s := by
  have key : ∀ (t : State) (x : Dcq) (l : List Qp), thin { t with dcq := x, net.qps := l } = thin t := fun _ _ _ => rfl
  have key1 : ∀ (t : State) (x : Dcq), thin { t with dcq := x } = thin t := fun _ _ => rfl
  unfold settleQueue
  repeat' first
    | with_reducible rfl
    | simp only [key, key1, finishCore_thin, recordInfo_thin, modQueue_thin]
    | split

theorem settle_thin (a0) (s : State) : thin (settle a0 s) = thin s := by
  unfold settle
  repeat' first
    | with_reducible rfl
    | simp only [thin_mk, thinEp, implies_true, foldl_thin, apply_ite thin, ite_self, Option.elim, settleRetains_thin, settleQueue_thin]
    | (with_reducible refine (foldl_thin ?_ _ _).trans ?_; intro s x)
    | (split <;> try (rename_i h; with_reducible rw [Prod.ext_iff] at h; have h' := h.2; dsimp only at h'; subst h'))

theorem finishWith_thin (a0) (a1) (a2) (a3) (a4) (a5) (a6) (s : State) : thin (finishWith a0 a1 a2 a3 a4 a5 a6 s) = thin s := by
  unfold finishWith
  repeat' first
    | with_reducible rfl
    | simp only [thin_mk, thinEp, implies_true, foldl_thin, apply_ite thin, ite_self, Option.elim, settle_thin, finishCore_thin]
    | (with_reducible refine (foldl_thin ?_ _ _).trans ?_; intro s x)
    | (split <;> try (rename_i h; with_reducible rw [Prod.ext_iff] at h; have h' := h.2; dsimp only at h'; subst h'))

theorem asyncEvent_thin (a0) (a1) (a2) (s : State) : thin (asyncEvent a0 a1 a2 s) = thin s := by
  unfold asyncEvent
  repeat' first
    | with_reducible rfl
    | simp only [thin_mk, thinEp, implies_true, foldl_thin, apply_ite thin, ite_self, Option.elim, finishWith_thin]
    | (with_reducible refine (foldl_thin ?_ _ _).trans ?_; intro s x)
    | (split <;> try (rename_i h; with_reducible rw [Prod.ext_iff] at h; have h' := h.2; dsimp only at h'; subst h'))

theorem recordSev_thin (a0) (a1) (a2) (a3) (a4) (s : State) : thin (recordSev a0 a1 a2 a3 a4 s) = thin s := by
  unfold recordSev
  repeat' first
    | with_reducible rfl
    | simp only [thin_mk, thinEp, implies_true, foldl_thin, apply_ite thin, ite_self, Option.elim, recordCore_thin, asyncEvent_thin]
    | (with_reducible refine (foldl_thin ?_ _ _).trans ?_; intro s x)
    | (split <;> try (rename_i h; with_reducible rw [Prod.ext_iff] at h; have h' := h.2; dsimp only at h'; subst h'))

theorem record_thin (a0) (a1) (a2) (s : State) : thin (record a0 a1 a2 s) = thin s := by
  unfold record
  repeat' first
    | with_reducible rfl
    | simp only [thin_mk, thinEp, implies_true, foldl_thin, apply_ite thin, ite_self, Option.elim, recordSev_thin]
    | (with_reducible refine (foldl_thin ?_ _ _).trans ?_; intro s x)
    | (split <;> try (rename_i h; with_reducible rw [Prod.ext_iff] at h; have h' := h.2; dsimp only at h'; subst h'))

theorem finish_thin (a0) (a1) (a2) (a3) (a4) (s : State) : thin (finish a0 a1 a2 a3 a4 s) = thin s := by
  unfold finish
  repeat' first
    | with_reducible rfl
    | simp only [thin_mk, thinEp, implies_true, foldl_thin, apply_ite thin, ite_self, Option.elim, finishWith_thin]
    | (with_reducible refine (foldl_thin ?_ _ _).trans ?_; intro s x)
    | (split <;> try (rename_i h; with_reducible rw [Prod.ext_iff] at h; have h' := h.2; dsimp only at h'; subst h'))

theorem norPage_thin (a0) (a1) (s : State) : thin (norPage a0 a1 s) = thin s := by
  exact thin_mk _ _ _ _ _

theorem norPages_thin (a0) (a1) (a2) (s : State) : thin (norPages a0 a1 a2 s) = thin s := by
  induction a0 generalizing a1 a2 s with
  | zero => rfl
  | succ k ih =>
    rw [norPages]
    split
    · rfl
    · rw [ih, norPage_thin]

theorem norWrite_thin (a0) (a1) (s : State) : thin (norWrite a0 a1 s) = thin s := by
  unfold norWrite
  repeat' first
    | with_reducible rfl
    | simp only [thin_mk, thinEp, implies_true, foldl_thin, apply_ite thin, ite_self, Option.elim, norPages_thin]
    | (with_reducible refine (foldl_thin ?_ _ _).trans ?_; intro s x)
    | (split <;> try (rename_i h; with_reducible rw [Prod.ext_iff] at h; have h' := h.2; dsimp only at h'; subst h'))

theorem norErase_thin (a0) (a1) (s : State) : thin (norErase a0 a1 s) = thin s := by
  exact thin_mk _ _ _ _ _

theorem recordAlert_thin (a0) (a1) (a2) (s : State) : thin (recordAlert a0 a1 a2 s) = thin s := by
  unfold recordAlert
  repeat' first
    | with_reducible rfl
    | simp only [thin_mk, thinEp, implies_true, foldl_thin, apply_ite thin, ite_self, Option.elim, recordSev_thin]
    | (with_reducible refine (foldl_thin ?_ _ _).trans ?_; intro s x)
    | (split <;> try (rename_i h; with_reducible rw [Prod.ext_iff] at h; have h' := h.2; dsimp only at h'; subst h'))

theorem norFresh_thin (a0) (s : State) : thin (norFresh a0 s) = thin s := by
  unfold norFresh
  repeat' first
    | with_reducible rfl
    | simp only [thin_mk, thinEp, implies_true, foldl_thin, apply_ite thin, ite_self, Option.elim, norErase_thin]
    | (with_reducible refine (foldl_thin ?_ _ _).trans ?_; intro s x)
    | (split <;> try (rename_i h; with_reducible rw [Prod.ext_iff] at h; have h' := h.2; dsimp only at h'; subst h'))

theorem ringPut_thin (a0) (s : State) : thin (ringPut a0 s) = thin s := by
  unfold ringPut
  generalize slotAddr = g
  generalize entryBytes a0 = e
  dsimp only
  repeat' first
    | with_reducible rfl
    | simp only [thin_mk, norWrite_thin, norFresh_thin, apply_ite thin, ite_self]
    | split

theorem birthPut_thin (a0) (s : State) : thin (birthPut a0 s) = thin s := by
  unfold birthPut
  dsimp only
  generalize slotAddr = g
  repeat' first
    | with_reducible rfl
    | simp only [thin_mk, norWrite_thin]

theorem norPut_thin (a0) (s : State) : thin (norPut a0 s) = thin s := by
  unfold norPut
  repeat' first
    | with_reducible rfl
    | simp only [thin_mk, thinEp, implies_true, foldl_thin, apply_ite thin, ite_self, Option.elim, ringPut_thin, birthPut_thin]
    | (with_reducible refine (foldl_thin ?_ _ _).trans ?_; intro s x)
    | (split <;> try (rename_i h; with_reducible rw [Prod.ext_iff] at h; have h' := h.2; dsimp only at h'; subst h'))

theorem norPutAll_thin (s : State) : thin (norPutAll s) = thin s := by
  unfold norPutAll
  repeat' first
    | with_reducible rfl
    | simp only [thin_mk, thinEp, implies_true, foldl_thin, apply_ite thin, ite_self, Option.elim, norPut_thin]
    | (with_reducible refine (foldl_thin ?_ _ _).trans ?_; intro s x)
    | (split <;> try (rename_i h; with_reducible rw [Prod.ext_iff] at h; have h' := h.2; dsimp only at h'; subst h'))

theorem almCloseAll_thin (s : State) : thin (almCloseAll s) = thin s := by
  unfold almCloseAll
  repeat' first
    | with_reducible rfl
    | simp only [thin_mk, thinEp, implies_true, foldl_thin, apply_ite thin, ite_self, Option.elim, almClose_thin]
    | (with_reducible refine (foldl_thin ?_ _ _).trans ?_; intro s x)
    | (split <;> try (rename_i h; with_reducible rw [Prod.ext_iff] at h; have h' := h.2; dsimp only at h'; subst h'))

theorem heldPush_thin (s : State) : thin (heldPush s) = thin s := by
  unfold heldPush
  repeat' first
    | with_reducible rfl
    | simp only [thin_mk, thinEp, implies_true, foldl_thin, apply_ite thin, ite_self, Option.elim, norPush_thin]
    | (with_reducible refine (foldl_thin ?_ _ _).trans ?_; intro s x)
    | (split <;> try (rename_i h; with_reducible rw [Prod.ext_iff] at h; have h' := h.2; dsimp only at h'; subst h'))

theorem almSaveAll_thin (s : State) : thin (almSaveAll s) = thin s := by
  unfold almSaveAll
  repeat' first
    | with_reducible rfl
    | simp only [thin_mk, thinEp, implies_true, foldl_thin, apply_ite thin, ite_self, Option.elim, norPutAll_thin, almCloseAll_thin, heldPush_thin]
    | (with_reducible refine (foldl_thin ?_ _ _).trans ?_; intro s x)
    | (split <;> try (rename_i h; with_reducible rw [Prod.ext_iff] at h; have h' := h.2; dsimp only at h'; subst h'))

theorem finishRemote_thin (a0) (a1) (a2) (a3) (a4) (s : State) : thin (finishRemote a0 a1 a2 a3 a4 s) = thin s := by
  unfold finishRemote
  repeat' first
    | with_reducible rfl
    | simp only [thin_mk, thinEp, implies_true, foldl_thin, apply_ite thin, ite_self, Option.elim, settleRetains_thin, finishCore_thin]
    | (with_reducible refine (foldl_thin ?_ _ _).trans ?_; intro s x)
    | (split <;> try (rename_i h; with_reducible rw [Prod.ext_iff] at h; have h' := h.2; dsimp only at h'; subst h'))

theorem endCmd_thin (a0) (a1) (a2) (a3) (s : State) : thin (endCmd a0 a1 a2 a3 s) = thin s := by
  unfold endCmd
  repeat' first
    | with_reducible rfl
    | simp only [thin_mk, thinEp, implies_true, foldl_thin, apply_ite thin, ite_self, Option.elim, finishRemote_thin, finish_thin]
    | (with_reducible refine (foldl_thin ?_ _ _).trans ?_; intro s x)
    | (split <;> try (rename_i h; with_reducible rw [Prod.ext_iff] at h; have h' := h.2; dsimp only at h'; subst h'))

theorem drainCpls_thin (a0) (a1) (s : State) : thin (drainCpls a0 a1 s) = thin s := by
  induction a1 generalizing s with
  | zero => rfl
  | succ k ih =>
    rw [drainCpls]
    repeat' first
      | with_reducible rfl
      | simp only [ih, thin_mk, thinEp, implies_true, foldl_thin, apply_ite thin, ite_self, Option.elim, modQueue_thin, postCpl_thin]
      | (with_reducible refine (foldl_thin ?_ _ _).trans ?_; intro s x)
      | (split <;> try (rename_i h; with_reducible rw [Prod.ext_iff] at h; have h' := h.2; dsimp only at h'; subst h'))

theorem drainQueue_thin (a0) (s : State) : thin (drainQueue a0 s) = thin s := by
  unfold drainQueue
  repeat' first
    | with_reducible rfl
    | simp only [thin_mk, thinEp, implies_true, foldl_thin, apply_ite thin, ite_self, Option.elim, drainCpls_thin]
    | (with_reducible refine (foldl_thin ?_ _ _).trans ?_; intro s x)
    | (split <;> try (rename_i h; with_reducible rw [Prod.ext_iff] at h; have h' := h.2; dsimp only at h'; subst h'))

theorem releaseQueue_thin (a0) (s : State) : thin (releaseQueue a0 s) = thin s := by
  unfold releaseQueue
  repeat' first
    | with_reducible rfl
    | simp only [thin_mk, thinEp, implies_true, foldl_thin, apply_ite thin, ite_self, Option.elim, settleQueue_thin, drainQueue_thin]
    | (with_reducible refine (foldl_thin ?_ _ _).trans ?_; intro s x)
    | (split <;> try (rename_i h; with_reducible rw [Prod.ext_iff] at h; have h' := h.2; dsimp only at h'; subst h'))

theorem hostWriteReq_thin (a0) (a1) (a2) (s : State) : thin (hostWriteReq a0 a1 a2 s) = thin s := by
  unfold hostWriteReq
  split
  · exact modEp_thin _ _ _ fun _ => rfl
  · exact foldl_thin (fun s w => postReq_thin _ _ _) _ _

/-! ## What the thin state tells -/

/-- An endpoint apart from its pending interrupts and waiting writes. -/
theorem thin_epOf {s t : State} (h : thin s = thin t) (e : Nat) : thinEp (epOf s e) = thinEp (epOf t e) := by
  have hm : s.eps.map thinEp = t.eps.map thinEp := congrArg State.eps h
  have hg : ∀ l : List Endpoint, thinEp (l.getD e Endpoint.reset) = (l.map thinEp).getD e (thinEp Endpoint.reset) := by
    intro l
    simp only [List.getD_eq_getElem?_getD, List.getElem?_map]
    cases l[e]? <;> rfl
  unfold epOf
  rw [hg, hg, hm]

theorem thin_now {s t : State} (h : thin s = thin t) : now s = now t := congrArg (fun u => u.lds.deviceTime) h

theorem thin_lds {s t : State} (h : thin s = thin t) : { s.lds with tenants := [] } = { t.lds with tenants := [] } :=
  congrArg State.lds h

theorem thin_island {s t : State} (h : thin s = thin t) : { s.island with records := [] } = { t.island with records := [] } :=
  congrArg State.island h

theorem thin_net {s t : State} (h : thin s = thin t) : { s.net with qps := [], cpls := [] } = { t.net with qps := [], cpls := [] } :=
  congrArg State.net h

theorem thin_flt {s t : State} (h : thin s = thin t) :
    { s.flt with alert := 0, alertNow := 0 } = { t.flt with alert := 0, alertNow := 0 } := congrArg State.flt h

theorem thin_xhl {s t : State} (h : thin s = thin t) : thinXhl s.xhl = thinXhl t.xhl := congrArg State.xhl h

end Sys2Proof.Machine
end

