-- ==== Sys2Proof/Laws/Wf.lean ====
section
/-!
SUPPORT. The byte memories keep their canonical form: `f_wf` says it of an operation that may write one of them; every other
operation leaves them as they were (Laws/Frame.lean).
-/
set_option Elab.async false
set_option linter.unusedSimpArgs false
set_option linter.unusedVariables false
namespace Sys2Proof.Machine

theorem memoriesWf_mk (x0 x1 x2 x3 x4 x5 x6 x7 x8 x9 x10 x11 x12 x13 x14 x15 x16 x17 x18 x19 x20 x21 x22 x23 x24 x25 x26 x27 x28 x29 x30 x31 x32 x33) :
    memoriesWf ⟨x0, x1, x2, x3, x4, x5, x6, x7, x8, x9, x10, x11, x12, x13, x14, x15, x16, x17, x18, x19, x20, x21, x22, x23, x24, x25, x26, x27, x28, x29, x30, x31, x32, x33⟩ =
      (Memory.wf 0 x28 && Memory.wf 0 x29 && Memory.wf norErased x27 && Memory.wf 0 x26.staging) := (rfl)

theorem and_four {a b c d : Bool} (h1 : a = true) (h2 : b = true) (h3 : c = true) (h4 : d = true) : (a && b && c && d) = true := by
  rw [h1, h2, h3, h4]
  rfl

theorem memoriesWf_parts {s : State} (h : memoriesWf s = true) :
    ((Memory.wf 0 s.lz = true ∧ Memory.wf 0 s.sram = true) ∧ Memory.wf norErased s.nor = true) ∧ Memory.wf 0 s.upd.staging = true := by
  simpa only [memoriesWf, Bool.and_eq_true] using h

theorem lz_wf {s : State} (h : memoriesWf s = true) : Memory.wf 0 s.lz = true := (memoriesWf_parts h).1.1.1
theorem sram_wf {s : State} (h : memoriesWf s = true) : Memory.wf 0 s.sram = true := (memoriesWf_parts h).1.1.2
theorem nor_wf {s : State} (h : memoriesWf s = true) : Memory.wf norErased s.nor = true := (memoriesWf_parts h).1.2
theorem staging_wf {s : State} (h : memoriesWf s = true) : Memory.wf 0 s.upd.staging = true := (memoriesWf_parts h).2

/-- An operation whose mask leaves the memories and the update state out keeps their form. -/
theorem wf_of_blank {m : Nat} {s t : State} (h : blank m s = blank m t) (hm : m &&& 0x3c000000 = 0) :
    memoriesWf s = memoriesWf t := by
  have key : ∀ i, (0x3c000000).testBit i = true → m.testBit i = false := by
    intro i hi
    have := congrArg (fun n => Nat.testBit n i) hm
    simp only [Nat.testBit_and, hi, Bool.and_true, Nat.zero_testBit] at this
    exact this
  have e : ∀ u, memoriesWf (blank m u) = memoriesWf u := by
    intro u
    unfold blank
    rw [memoriesWf_mk, key 26 rfl, key 27 rfl, key 28 rfl, key 29 rfl]
    rfl
  rw [← e s, h, e]

/-- A fold of a function that keeps the form keeps it. -/
theorem foldl_wf {α : Type} {f : State → α → State} (hf : ∀ s a, memoriesWf s = true → memoriesWf (f s a) = true) (l : List α)
    (s : State) (h : memoriesWf s = true) : memoriesWf (l.foldl f s) = true := by
  induction l generalizing s with
  | nil => exact h
  | cons a l ih => exact ih _ (hf s a h)

/-- A next state has its memories in the form. -/
def outWf : Host.Outcome State Fault Refusal → Prop
  | .next t => memoriesWf t = true
  | _ => True

@[simp] theorem outWf_next (t : State) : outWf (.next t) = (memoriesWf t = true) := rfl

theorem updRefuse_wf (s : State) (h : memoriesWf s = true) : memoriesWf (updRefuse s) = true := by
  unfold updRefuse
  repeat' first
    | with_reducible assumption
    | with_reducible rfl
    | (simp only [memoriesWf_mk]; refine and_four ?_ ?_ ?_ ?_)
    | with_reducible refine memWriteBytes_wf ?_ _ _
    | with_reducible refine memClear_wf ?_ _ _
    | with_reducible exact wf_nil _
    | with_reducible refine lz_wf ?_
    | with_reducible refine sram_wf ?_
    | with_reducible refine nor_wf ?_
    | with_reducible refine staging_wf ?_
    | (with_reducible refine foldl_wf ?_ _ _ ?_; intro s x hs)
    | simp only [outWf_next, takeFree, Option.elim, apply_ite outWf, apply_ite memoriesWf, apply_ite Prod.snd, ite_self]
    | (split <;> try (rename_i hp; with_reducible rw [Prod.ext_iff] at hp; have h' := hp.2; dsimp only at h'; subst h'))

theorem activate_wf (a0) (s : State) (h : memoriesWf s = true) : memoriesWf (activate a0 s) = true := by
  unfold activate
  repeat' first
    | with_reducible assumption
    | with_reducible rfl
    | with_reducible refine updRefuse_wf _ ?_
    | (simp only [memoriesWf_mk]; refine and_four ?_ ?_ ?_ ?_)
    | with_reducible refine memWriteBytes_wf ?_ _ _
    | with_reducible refine memClear_wf ?_ _ _
    | with_reducible exact wf_nil _
    | with_reducible refine lz_wf ?_
    | with_reducible refine sram_wf ?_
    | with_reducible refine nor_wf ?_
    | with_reducible refine staging_wf ?_
    | (with_reducible refine foldl_wf ?_ _ _ ?_; intro s x hs)
    | simp only [outWf_next, takeFree, Option.elim, apply_ite outWf, apply_ite memoriesWf, apply_ite Prod.snd, ite_self, fun b0 b1 b2 b3 => wf_of_blank (outside_frame b0 b1 b2 b3 0x83204C8E rfl) rfl]
    | (split <;> try (rename_i hp; with_reducible rw [Prod.ext_iff] at hp; have h' := hp.2; dsimp only at h'; subst h'))

theorem activateCut_wf (s : State) (h : memoriesWf s = true) : memoriesWf (activateCut s) = true := by
  unfold activateCut
  repeat' first
    | with_reducible assumption
    | with_reducible rfl
    | (simp only [memoriesWf_mk]; refine and_four ?_ ?_ ?_ ?_)
    | with_reducible refine memWriteBytes_wf ?_ _ _
    | with_reducible refine memClear_wf ?_ _ _
    | with_reducible exact wf_nil _
    | with_reducible refine lz_wf ?_
    | with_reducible refine sram_wf ?_
    | with_reducible refine nor_wf ?_
    | with_reducible refine staging_wf ?_
    | (with_reducible refine foldl_wf ?_ _ _ ?_; intro s x hs)
    | simp only [outWf_next, takeFree, Option.elim, apply_ite outWf, apply_ite memoriesWf, apply_ite Prod.snd, ite_self]
    | (split <;> try (rename_i hp; with_reducible rw [Prod.ext_iff] at hp; have h' := hp.2; dsimp only at h'; subst h'))

theorem norPage_wf (a0) (a1) (s : State) (h : memoriesWf s = true) : memoriesWf (norPage a0 a1 s) = true := by
  unfold norPage
  rw [memoriesWf_mk]
  exact and_four (lz_wf h) (sram_wf h) (norProgram_wf (nor_wf h) _ _) (staging_wf h)

theorem norPages_wf (a0) (a1) (a2) (s : State) (h : memoriesWf s = true) : memoriesWf (norPages a0 a1 a2 s) = true := by
  induction a0 generalizing a1 a2 s with
  | zero => exact h
  | succ k ih =>
    rw [norPages]
    split
    · exact h
    · exact ih _ _ _ (norPage_wf _ _ _ h)

theorem norWrite_wf (a0) (a1) (s : State) (h : memoriesWf s = true) : memoriesWf (norWrite a0 a1 s) = true := by
  unfold norWrite
  repeat' first
    | with_reducible assumption
    | with_reducible rfl
    | with_reducible refine norPages_wf _ _ _ _ ?_
    | (simp only [memoriesWf_mk]; refine and_four ?_ ?_ ?_ ?_)
    | with_reducible refine memWriteBytes_wf ?_ _ _
    | with_reducible refine memClear_wf ?_ _ _
    | with_reducible exact wf_nil _
    | with_reducible refine lz_wf ?_
    | with_reducible refine sram_wf ?_
    | with_reducible refine nor_wf ?_
    | with_reducible refine staging_wf ?_
    | (with_reducible refine foldl_wf ?_ _ _ ?_; intro s x hs)
    | simp only [outWf_next, takeFree, Option.elim, apply_ite outWf, apply_ite memoriesWf, apply_ite Prod.snd, ite_self]
    | (split <;> try (rename_i hp; with_reducible rw [Prod.ext_iff] at hp; have h' := hp.2; dsimp only at h'; subst h'))

theorem norErase_wf (a0) (a1) (s : State) (h : memoriesWf s = true) : memoriesWf (norErase a0 a1 s) = true := by
  unfold norErase
  repeat' first
    | with_reducible assumption
    | with_reducible rfl
    | (simp only [memoriesWf_mk]; refine and_four ?_ ?_ ?_ ?_)
    | with_reducible refine memWriteBytes_wf ?_ _ _
    | with_reducible refine memClear_wf ?_ _ _
    | with_reducible exact wf_nil _
    | with_reducible refine lz_wf ?_
    | with_reducible refine sram_wf ?_
    | with_reducible refine nor_wf ?_
    | with_reducible refine staging_wf ?_
    | (with_reducible refine foldl_wf ?_ _ _ ?_; intro s x hs)
    | simp only [outWf_next, takeFree, Option.elim, apply_ite outWf, apply_ite memoriesWf, apply_ite Prod.snd, ite_self]
    | (split <;> try (rename_i hp; with_reducible rw [Prod.ext_iff] at hp; have h' := hp.2; dsimp only at h'; subst h'))

theorem copyPut_wf (a0) (a1) (s : State) (h : memoriesWf s = true) : memoriesWf (copyPut a0 a1 s) = true := by
  unfold copyPut
  repeat' first
    | with_reducible assumption
    | with_reducible rfl
    | with_reducible refine norErase_wf _ _ _ ?_
    | with_reducible refine norWrite_wf _ _ _ ?_
    | (simp only [memoriesWf_mk]; refine and_four ?_ ?_ ?_ ?_)
    | with_reducible refine memWriteBytes_wf ?_ _ _
    | with_reducible refine memClear_wf ?_ _ _
    | with_reducible exact wf_nil _
    | with_reducible refine lz_wf ?_
    | with_reducible refine sram_wf ?_
    | with_reducible refine nor_wf ?_
    | with_reducible refine staging_wf ?_
    | (with_reducible refine foldl_wf ?_ _ _ ?_; intro s x hs)
    | simp only [outWf_next, takeFree, Option.elim, apply_ite outWf, apply_ite memoriesWf, apply_ite Prod.snd, ite_self]
    | (split <;> try (rename_i hp; with_reducible rw [Prod.ext_iff] at hp; have h' := hp.2; dsimp only at h'; subst h'))

theorem copiesPut_wf (a0) (s : State) (h : memoriesWf s = true) : memoriesWf (copiesPut a0 s) = true := by
  unfold copiesPut
  repeat' first
    | with_reducible assumption
    | with_reducible rfl
    | with_reducible refine copyPut_wf _ _ _ ?_
    | (simp only [memoriesWf_mk]; refine and_four ?_ ?_ ?_ ?_)
    | with_reducible refine memWriteBytes_wf ?_ _ _
    | with_reducible refine memClear_wf ?_ _ _
    | with_reducible exact wf_nil _
    | with_reducible refine lz_wf ?_
    | with_reducible refine sram_wf ?_
    | with_reducible refine nor_wf ?_
    | with_reducible refine staging_wf ?_
    | (with_reducible refine foldl_wf ?_ _ _ ?_; intro s x hs)
    | simp only [outWf_next, takeFree, Option.elim, apply_ite outWf, apply_ite memoriesWf, apply_ite Prod.snd, ite_self]
    | (split <;> try (rename_i hp; with_reducible rw [Prod.ext_iff] at hp; have h' := hp.2; dsimp only at h'; subst h'))

theorem writeBoot_wf (a0) (s : State) (h : memoriesWf s = true) : memoriesWf (writeBoot a0 s) = true := by
  unfold writeBoot
  repeat' first
    | with_reducible assumption
    | with_reducible rfl
    | with_reducible refine copiesPut_wf _ _ ?_
    | (simp only [memoriesWf_mk]; refine and_four ?_ ?_ ?_ ?_)
    | with_reducible refine memWriteBytes_wf ?_ _ _
    | with_reducible refine memClear_wf ?_ _ _
    | with_reducible exact wf_nil _
    | with_reducible refine lz_wf ?_
    | with_reducible refine sram_wf ?_
    | with_reducible refine nor_wf ?_
    | with_reducible refine staging_wf ?_
    | (with_reducible refine foldl_wf ?_ _ _ ?_; intro s x hs)
    | simp only [outWf_next, takeFree, Option.elim, apply_ite outWf, apply_ite memoriesWf, apply_ite Prod.snd, ite_self]
    | (split <;> try (rename_i hp; with_reducible rw [Prod.ext_iff] at hp; have h' := hp.2; dsimp only at h'; subst h'))

theorem activateOn_wf (s : State) (h : memoriesWf s = true) : memoriesWf (activateOn s) = true := by
  unfold activateOn
  repeat' first
    | with_reducible assumption
    | with_reducible rfl
    | with_reducible refine writeBoot_wf _ _ ?_
    | (simp only [memoriesWf_mk]; refine and_four ?_ ?_ ?_ ?_)
    | with_reducible refine memWriteBytes_wf ?_ _ _
    | with_reducible refine memClear_wf ?_ _ _
    | with_reducible exact wf_nil _
    | with_reducible refine lz_wf ?_
    | with_reducible refine sram_wf ?_
    | with_reducible refine nor_wf ?_
    | with_reducible refine staging_wf ?_
    | (with_reducible refine foldl_wf ?_ _ _ ?_; intro s x hs)
    | simp only [outWf_next, takeFree, Option.elim, apply_ite outWf, apply_ite memoriesWf, apply_ite Prod.snd, ite_self]
    | (split <;> try (rename_i hp; with_reducible rw [Prod.ext_iff] at hp; have h' := hp.2; dsimp only at h'; subst h'))

theorem afterReset_wf (a0) (a1) (s : State) (h : memoriesWf s = true) : memoriesWf (afterReset a0 a1 s) = true := by
  have hr : memoriesWf State.reset = true := by decide
  have hu : Memory.wf 0 Upd.reset.staging = true := rfl
  unfold afterReset
  repeat' first
    | with_reducible assumption
    | with_reducible rfl
    | (simp only [memoriesWf_mk]; refine and_four ?_ ?_ ?_ ?_)
    | with_reducible refine memWriteBytes_wf ?_ _ _
    | with_reducible refine memClear_wf ?_ _ _
    | with_reducible exact wf_nil _
    | with_reducible refine lz_wf ?_
    | with_reducible refine sram_wf ?_
    | with_reducible refine nor_wf ?_
    | with_reducible refine staging_wf ?_
    | (with_reducible refine foldl_wf ?_ _ _ ?_; intro s x hs)
    | simp only [outWf_next, takeFree, Option.elim, apply_ite outWf, apply_ite memoriesWf, apply_ite Prod.snd, ite_self]
    | (split <;> try (rename_i hp; with_reducible rw [Prod.ext_iff] at hp; have h' := hp.2; dsimp only at h'; subst h'))

theorem norFresh_wf (a0) (s : State) (h : memoriesWf s = true) : memoriesWf (norFresh a0 s) = true := by
  unfold norFresh
  repeat' first
    | with_reducible assumption
    | with_reducible rfl
    | with_reducible refine norErase_wf _ _ _ ?_
    | (simp only [memoriesWf_mk]; refine and_four ?_ ?_ ?_ ?_)
    | with_reducible refine memWriteBytes_wf ?_ _ _
    | with_reducible refine memClear_wf ?_ _ _
    | with_reducible exact wf_nil _
    | with_reducible refine lz_wf ?_
    | with_reducible refine sram_wf ?_
    | with_reducible refine nor_wf ?_
    | with_reducible refine staging_wf ?_
    | (with_reducible refine foldl_wf ?_ _ _ ?_; intro s x hs)
    | simp only [outWf_next, takeFree, Option.elim, apply_ite outWf, apply_ite memoriesWf, apply_ite Prod.snd, ite_self]
    | (split <;> try (rename_i hp; with_reducible rw [Prod.ext_iff] at hp; have h' := hp.2; dsimp only at h'; subst h'))

theorem ringPut_wf (a0) (s : State) (h : memoriesWf s = true) : memoriesWf (ringPut a0 s) = true := by
  unfold ringPut
  repeat' first
    | with_reducible assumption
    | with_reducible rfl
    | with_reducible refine norFresh_wf _ _ ?_
    | with_reducible refine norWrite_wf _ _ _ ?_
    | (simp only [memoriesWf_mk]; refine and_four ?_ ?_ ?_ ?_)
    | with_reducible refine memWriteBytes_wf ?_ _ _
    | with_reducible refine memClear_wf ?_ _ _
    | with_reducible exact wf_nil _
    | with_reducible refine lz_wf ?_
    | with_reducible refine sram_wf ?_
    | with_reducible refine nor_wf ?_
    | with_reducible refine staging_wf ?_
    | (with_reducible refine foldl_wf ?_ _ _ ?_; intro s x hs)
    | simp only [outWf_next, takeFree, Option.elim, apply_ite outWf, apply_ite memoriesWf, apply_ite Prod.snd, ite_self]
    | (split <;> try (rename_i hp; with_reducible rw [Prod.ext_iff] at hp; have h' := hp.2; dsimp only at h'; subst h'))

theorem birthPut_wf (a0) (s : State) (h : memoriesWf s = true) : memoriesWf (birthPut a0 s) = true := by
  unfold birthPut
  repeat' first
    | with_reducible assumption
    | with_reducible rfl
    | with_reducible refine norWrite_wf _ _ _ ?_
    | (simp only [memoriesWf_mk]; refine and_four ?_ ?_ ?_ ?_)
    | with_reducible refine memWriteBytes_wf ?_ _ _
    | with_reducible refine memClear_wf ?_ _ _
    | with_reducible exact wf_nil _
    | with_reducible refine lz_wf ?_
    | with_reducible refine sram_wf ?_
    | with_reducible refine nor_wf ?_
    | with_reducible refine staging_wf ?_
    | (with_reducible refine foldl_wf ?_ _ _ ?_; intro s x hs)
    | simp only [outWf_next, takeFree, Option.elim, apply_ite outWf, apply_ite memoriesWf, apply_ite Prod.snd, ite_self]
    | (split <;> try (rename_i hp; with_reducible rw [Prod.ext_iff] at hp; have h' := hp.2; dsimp only at h'; subst h'))

theorem norPut_wf (a0) (s : State) (h : memoriesWf s = true) : memoriesWf (norPut a0 s) = true := by
  unfold norPut
  repeat' first
    | with_reducible assumption
    | with_reducible rfl
    | with_reducible refine birthPut_wf _ _ ?_
    | with_reducible refine ringPut_wf _ _ ?_
    | (simp only [memoriesWf_mk]; refine and_four ?_ ?_ ?_ ?_)
    | with_reducible refine memWriteBytes_wf ?_ _ _
    | with_reducible refine memClear_wf ?_ _ _
    | with_reducible exact wf_nil _
    | with_reducible refine lz_wf ?_
    | with_reducible refine sram_wf ?_
    | with_reducible refine nor_wf ?_
    | with_reducible refine staging_wf ?_
    | (with_reducible refine foldl_wf ?_ _ _ ?_; intro s x hs)
    | simp only [outWf_next, takeFree, Option.elim, apply_ite outWf, apply_ite memoriesWf, apply_ite Prod.snd, ite_self]
    | (split <;> try (rename_i hp; with_reducible rw [Prod.ext_iff] at hp; have h' := hp.2; dsimp only at h'; subst h'))

theorem norPutAll_wf (s : State) (h : memoriesWf s = true) : memoriesWf (norPutAll s) = true := by
  unfold norPutAll
  repeat' first
    | with_reducible assumption
    | with_reducible rfl
    | with_reducible refine norPut_wf _ _ ?_
    | (simp only [memoriesWf_mk]; refine and_four ?_ ?_ ?_ ?_)
    | with_reducible refine memWriteBytes_wf ?_ _ _
    | with_reducible refine memClear_wf ?_ _ _
    | with_reducible exact wf_nil _
    | with_reducible refine lz_wf ?_
    | with_reducible refine sram_wf ?_
    | with_reducible refine nor_wf ?_
    | with_reducible refine staging_wf ?_
    | (with_reducible refine foldl_wf ?_ _ _ ?_; intro s x hs)
    | simp only [outWf_next, takeFree, Option.elim, apply_ite outWf, apply_ite memoriesWf, apply_ite Prod.snd, ite_self]
    | (split <;> try (rename_i hp; with_reducible rw [Prod.ext_iff] at hp; have h' := hp.2; dsimp only at h'; subst h'))

theorem almSaveAll_wf (s : State) (h : memoriesWf s = true) : memoriesWf (almSaveAll s) = true := by
  unfold almSaveAll
  repeat' first
    | with_reducible assumption
    | with_reducible rfl
    | with_reducible refine norPutAll_wf _ ?_
    | (simp only [memoriesWf_mk]; refine and_four ?_ ?_ ?_ ?_)
    | with_reducible refine memWriteBytes_wf ?_ _ _
    | with_reducible refine memClear_wf ?_ _ _
    | with_reducible exact wf_nil _
    | with_reducible refine lz_wf ?_
    | with_reducible refine sram_wf ?_
    | with_reducible refine nor_wf ?_
    | with_reducible refine staging_wf ?_
    | (with_reducible refine foldl_wf ?_ _ _ ?_; intro s x hs)
    | simp only [outWf_next, takeFree, Option.elim, apply_ite outWf, apply_ite memoriesWf, apply_ite Prod.snd, ite_self, fun b0 => wf_of_blank (almCloseAll_frame b0 0x2000004 rfl) rfl, fun b0 => wf_of_blank (heldPush_frame b0 0x2000004 rfl) rfl]
    | (split <;> try (rename_i hp; with_reducible rw [Prod.ext_iff] at hp; have h' := hp.2; dsimp only at h'; subst h'))

theorem failstop_wf (a0) (a1) (s : State) (h : memoriesWf s = true) : memoriesWf (failstop a0 a1 s) = true := by
  unfold failstop
  repeat' first
    | with_reducible assumption
    | with_reducible rfl
    | with_reducible refine activateCut_wf _ ?_
    | with_reducible refine almSaveAll_wf _ ?_
    | (simp only [memoriesWf_mk]; refine and_four ?_ ?_ ?_ ?_)
    | with_reducible refine memWriteBytes_wf ?_ _ _
    | with_reducible refine memClear_wf ?_ _ _
    | with_reducible exact wf_nil _
    | with_reducible refine lz_wf ?_
    | with_reducible refine sram_wf ?_
    | with_reducible refine nor_wf ?_
    | with_reducible refine staging_wf ?_
    | (with_reducible refine foldl_wf ?_ _ _ ?_; intro s x hs)
    | simp only [outWf_next, takeFree, Option.elim, apply_ite outWf, apply_ite memoriesWf, apply_ite Prod.snd, ite_self, fun b0 b1 b2 => wf_of_blank (almMerge_frame b0 b1 b2 0x2000004 rfl) rfl, fun b0 b1 => wf_of_blank (failQueue_frame b0 b1 0x83204C8E rfl) rfl, fun b0 => wf_of_blank (lcCut_frame b0 0x20 rfl) rfl, fun b0 b1 b2 b3 => wf_of_blank (recordAlert_frame b0 b1 b2 b3 0x83204C8E rfl) rfl, fun b0 b1 b2 b3 b4 b5 => wf_of_blank (recordCore_frame b0 b1 b2 b3 b4 b5 0x83000084 rfl) rfl, fun b0 b1 b2 b3 b4 b5 => wf_of_blank (xhlSend_frame b0 b1 b2 b3 b4 b5 0x80200002 rfl) rfl]
    | (split <;> try (rename_i hp; with_reducible rw [Prod.ext_iff] at hp; have h' := hp.2; dsimp only at h'; subst h'))

theorem regEvent_wf (a0) (a1) (s : State) (h : memoriesWf s = true) : memoriesWf (regEvent a0 a1 s) = true := by
  unfold regEvent
  repeat' first
    | with_reducible assumption
    | with_reducible rfl
    | with_reducible refine failstop_wf _ _ _ ?_
    | (simp only [memoriesWf_mk]; refine and_four ?_ ?_ ?_ ?_)
    | with_reducible refine memWriteBytes_wf ?_ _ _
    | with_reducible refine memClear_wf ?_ _ _
    | with_reducible exact wf_nil _
    | with_reducible refine lz_wf ?_
    | with_reducible refine sram_wf ?_
    | with_reducible refine nor_wf ?_
    | with_reducible refine staging_wf ?_
    | (with_reducible refine foldl_wf ?_ _ _ ?_; intro s x hs)
    | simp only [outWf_next, takeFree, Option.elim, apply_ite outWf, apply_ite memoriesWf, apply_ite Prod.snd, ite_self, fun b0 b1 => wf_of_blank (railTest_frame b0 b1 0x83204C8E rfl) rfl, fun b0 b1 => wf_of_blank (regClear_frame b0 b1 0x80000000 rfl) rfl, fun b0 b1 b2 b3 b4 b5 => wf_of_blank (regRecord_frame b0 b1 b2 b3 b4 b5 0x83204C8E rfl) rfl]
    | (split <;> try (rename_i hp; with_reducible rw [Prod.ext_iff] at hp; have h' := hp.2; dsimp only at h'; subst h'))

theorem regRead_wf (s : State) (a1) (h : memoriesWf s = true) : memoriesWf (regRead s a1) = true := by
  unfold regRead
  repeat' first
    | with_reducible assumption
    | with_reducible rfl
    | with_reducible refine regEvent_wf _ _ _ ?_
    | (simp only [memoriesWf_mk]; refine and_four ?_ ?_ ?_ ?_)
    | with_reducible refine memWriteBytes_wf ?_ _ _
    | with_reducible refine memClear_wf ?_ _ _
    | with_reducible exact wf_nil _
    | with_reducible refine lz_wf ?_
    | with_reducible refine sram_wf ?_
    | with_reducible refine nor_wf ?_
    | with_reducible refine staging_wf ?_
    | (with_reducible refine foldl_wf ?_ _ _ ?_; intro s x hs)
    | simp only [outWf_next, takeFree, Option.elim, apply_ite outWf, apply_ite memoriesWf, apply_ite Prod.snd, ite_self, fun b0 b1 b2 b3 => wf_of_blank (modReg_frame b0 b1 b2 b3 0x2 rfl) rfl, fun b0 b1 b2 => wf_of_blank (noteTemp_frame b0 b1 b2 0x8 rfl) rfl, fun b0 b1 => wf_of_blank (regFailed_frame b0 b1 0x83204C8E rfl) rfl]
    | (split <;> try (rename_i hp; with_reducible rw [Prod.ext_iff] at hp; have h' := hp.2; dsimp only at h'; subst h'))

theorem alertRead_wf (s : State) (a1) (h : memoriesWf s = true) : memoriesWf (alertRead s a1) = true := by
  unfold alertRead
  repeat' first
    | with_reducible assumption
    | with_reducible rfl
    | with_reducible refine regRead_wf _ _ ?_
    | (simp only [memoriesWf_mk]; refine and_four ?_ ?_ ?_ ?_)
    | with_reducible refine memWriteBytes_wf ?_ _ _
    | with_reducible refine memClear_wf ?_ _ _
    | with_reducible exact wf_nil _
    | with_reducible refine lz_wf ?_
    | with_reducible refine sram_wf ?_
    | with_reducible refine nor_wf ?_
    | with_reducible refine staging_wf ?_
    | (with_reducible refine foldl_wf ?_ _ _ ?_; intro s x hs)
    | simp only [outWf_next, takeFree, Option.elim, apply_ite outWf, apply_ite memoriesWf, apply_ite Prod.snd, ite_self, fun b0 b1 => wf_of_blank (emit_frame b0 b1 0x80000000 rfl) rfl]
    | (split <;> try (rename_i hp; with_reducible rw [Prod.ext_iff] at hp; have h' := hp.2; dsimp only at h'; subst h'))

theorem almClear_wf (a0) (s : State) (h : memoriesWf s = true) : memoriesWf (almClear a0 s) = true := by
  unfold almClear
  repeat' first
    | with_reducible assumption
    | with_reducible rfl
    | with_reducible refine birthPut_wf _ _ ?_
    | (simp only [memoriesWf_mk]; refine and_four ?_ ?_ ?_ ?_)
    | with_reducible refine memWriteBytes_wf ?_ _ _
    | with_reducible refine memClear_wf ?_ _ _
    | with_reducible exact wf_nil _
    | with_reducible refine lz_wf ?_
    | with_reducible refine sram_wf ?_
    | with_reducible refine nor_wf ?_
    | with_reducible refine staging_wf ?_
    | (with_reducible refine foldl_wf ?_ _ _ ?_; intro s x hs)
    | simp only [outWf_next, takeFree, Option.elim, apply_ite outWf, apply_ite memoriesWf, apply_ite Prod.snd, ite_self, fun b0 => wf_of_blank (almCloseAll_frame b0 0x2000004 rfl) rfl, fun b0 b1 b2 b3 => wf_of_blank (record_frame b0 b1 b2 b3 0x83204C8E rfl) rfl]
    | (split <;> try (rename_i hp; with_reducible rw [Prod.ext_iff] at hp; have h' := hp.2; dsimp only at h'; subst h'))

theorem almWrite_wf (a0) (a1) (s : State) (h : memoriesWf s = true) : memoriesWf (almWrite a0 a1 s) = true := by
  unfold almWrite
  repeat' first
    | with_reducible assumption
    | with_reducible rfl
    | with_reducible refine almClear_wf _ _ ?_
    | (simp only [memoriesWf_mk]; refine and_four ?_ ?_ ?_ ?_)
    | with_reducible refine memWriteBytes_wf ?_ _ _
    | with_reducible refine memClear_wf ?_ _ _
    | with_reducible exact wf_nil _
    | with_reducible refine lz_wf ?_
    | with_reducible refine sram_wf ?_
    | with_reducible refine nor_wf ?_
    | with_reducible refine staging_wf ?_
    | (with_reducible refine foldl_wf ?_ _ _ ?_; intro s x hs)
    | simp only [outWf_next, takeFree, Option.elim, apply_ite outWf, apply_ite memoriesWf, apply_ite Prod.snd, ite_self, fun b0 b1 => wf_of_blank (almCursorWrite_frame b0 b1 0x2000000 rfl) rfl, fun b0 b1 => wf_of_blank (almSelect_frame b0 b1 0x2000000 rfl) rfl]
    | (split <;> try (rename_i hp; with_reducible rw [Prod.ext_iff] at hp; have h' := hp.2; dsimp only at h'; subst h'))

theorem askRestart_wf (a0) (s : State) (h : memoriesWf s = true) : memoriesWf (askRestart a0 s) = true := by
  unfold askRestart
  repeat' first
    | with_reducible assumption
    | with_reducible rfl
    | with_reducible refine updRefuse_wf _ ?_
    | (simp only [memoriesWf_mk]; refine and_four ?_ ?_ ?_ ?_)
    | with_reducible refine memWriteBytes_wf ?_ _ _
    | with_reducible refine memClear_wf ?_ _ _
    | with_reducible exact wf_nil _
    | with_reducible refine lz_wf ?_
    | with_reducible refine sram_wf ?_
    | with_reducible refine nor_wf ?_
    | with_reducible refine staging_wf ?_
    | (with_reducible refine foldl_wf ?_ _ _ ?_; intro s x hs)
    | simp only [outWf_next, takeFree, Option.elim, apply_ite outWf, apply_ite memoriesWf, apply_ite Prod.snd, ite_self, fun b0 b1 => wf_of_blank (requestActivity_frame b0 b1 0x83304C8E rfl) rfl]
    | (split <;> try (rename_i hp; with_reducible rw [Prod.ext_iff] at hp; have h' := hp.2; dsimp only at h'; subst h'))

theorem updTouched_wf (s : State) (h : memoriesWf s = true) : memoriesWf (updTouched s) = true := by
  unfold updTouched
  repeat' first
    | with_reducible assumption
    | with_reducible rfl
    | (simp only [memoriesWf_mk]; refine and_four ?_ ?_ ?_ ?_)
    | with_reducible refine memWriteBytes_wf ?_ _ _
    | with_reducible refine memClear_wf ?_ _ _
    | with_reducible exact wf_nil _
    | with_reducible refine lz_wf ?_
    | with_reducible refine sram_wf ?_
    | with_reducible refine nor_wf ?_
    | with_reducible refine staging_wf ?_
    | (with_reducible refine foldl_wf ?_ _ _ ?_; intro s x hs)
    | simp only [outWf_next, takeFree, Option.elim, apply_ite outWf, apply_ite memoriesWf, apply_ite Prod.snd, ite_self]
    | (split <;> try (rename_i hp; with_reducible rw [Prod.ext_iff] at hp; have h' := hp.2; dsimp only at h'; subst h'))

theorem openBuffer_wf (s : State) (h : memoriesWf s = true) : memoriesWf (openBuffer s) = true := by
  unfold openBuffer
  repeat' first
    | with_reducible assumption
    | with_reducible rfl
    | with_reducible refine updRefuse_wf _ ?_
    | (simp only [memoriesWf_mk]; refine and_four ?_ ?_ ?_ ?_)
    | with_reducible refine memWriteBytes_wf ?_ _ _
    | with_reducible refine memClear_wf ?_ _ _
    | with_reducible exact wf_nil _
    | with_reducible refine lz_wf ?_
    | with_reducible refine sram_wf ?_
    | with_reducible refine nor_wf ?_
    | with_reducible refine staging_wf ?_
    | (with_reducible refine foldl_wf ?_ _ _ ?_; intro s x hs)
    | simp only [outWf_next, takeFree, Option.elim, apply_ite outWf, apply_ite memoriesWf, apply_ite Prod.snd, ite_self]
    | (split <;> try (rename_i hp; with_reducible rw [Prod.ext_iff] at hp; have h' := hp.2; dsimp only at h'; subst h'))

theorem stageFw_wf (a0) (s : State) (h : memoriesWf s = true) : memoriesWf (stageFw a0 s) = true := by
  unfold stageFw
  repeat' first
    | with_reducible assumption
    | with_reducible rfl
    | with_reducible refine updRefuse_wf _ ?_
    | (simp only [memoriesWf_mk]; refine and_four ?_ ?_ ?_ ?_)
    | with_reducible refine memWriteBytes_wf ?_ _ _
    | with_reducible refine memClear_wf ?_ _ _
    | with_reducible exact wf_nil _
    | with_reducible refine lz_wf ?_
    | with_reducible refine sram_wf ?_
    | with_reducible refine nor_wf ?_
    | with_reducible refine staging_wf ?_
    | (with_reducible refine foldl_wf ?_ _ _ ?_; intro s x hs)
    | simp only [outWf_next, takeFree, Option.elim, apply_ite outWf, apply_ite memoriesWf, apply_ite Prod.snd, ite_self]
    | (split <;> try (rename_i hp; with_reducible rw [Prod.ext_iff] at hp; have h' := hp.2; dsimp only at h'; subst h'))

theorem stageCfg_wf (s : State) (h : memoriesWf s = true) : memoriesWf (stageCfg s) = true := by
  unfold stageCfg
  repeat' first
    | with_reducible assumption
    | with_reducible rfl
    | with_reducible refine updRefuse_wf _ ?_
    | (simp only [memoriesWf_mk]; refine and_four ?_ ?_ ?_ ?_)
    | with_reducible refine memWriteBytes_wf ?_ _ _
    | with_reducible refine memClear_wf ?_ _ _
    | with_reducible exact wf_nil _
    | with_reducible refine lz_wf ?_
    | with_reducible refine sram_wf ?_
    | with_reducible refine nor_wf ?_
    | with_reducible refine staging_wf ?_
    | (with_reducible refine foldl_wf ?_ _ _ ?_; intro s x hs)
    | simp only [outWf_next, takeFree, Option.elim, apply_ite outWf, apply_ite memoriesWf, apply_ite Prod.snd, ite_self]
    | (split <;> try (rename_i hp; with_reducible rw [Prod.ext_iff] at hp; have h' := hp.2; dsimp only at h'; subst h'))

theorem releaseBuffer_wf (s : State) (h : memoriesWf s = true) : memoriesWf (releaseBuffer s) = true := by
  unfold releaseBuffer
  repeat' first
    | with_reducible assumption
    | with_reducible rfl
    | (simp only [memoriesWf_mk]; refine and_four ?_ ?_ ?_ ?_)
    | with_reducible refine memWriteBytes_wf ?_ _ _
    | with_reducible refine memClear_wf ?_ _ _
    | with_reducible exact wf_nil _
    | with_reducible refine lz_wf ?_
    | with_reducible refine sram_wf ?_
    | with_reducible refine nor_wf ?_
    | with_reducible refine staging_wf ?_
    | (with_reducible refine foldl_wf ?_ _ _ ?_; intro s x hs)
    | simp only [outWf_next, takeFree, Option.elim, apply_ite outWf, apply_ite memoriesWf, apply_ite Prod.snd, ite_self]
    | (split <;> try (rename_i hp; with_reducible rw [Prod.ext_iff] at hp; have h' := hp.2; dsimp only at h'; subst h'))

theorem stageWord_wf (a0) (a1) (s : State) (h : memoriesWf s = true) : memoriesWf (stageWord a0 a1 s) = true := by
  unfold stageWord
  repeat' first
    | with_reducible assumption
    | with_reducible rfl
    | with_reducible refine updRefuse_wf _ ?_
    | (simp only [memoriesWf_mk]; refine and_four ?_ ?_ ?_ ?_)
    | with_reducible refine memWriteBytes_wf ?_ _ _
    | with_reducible refine memClear_wf ?_ _ _
    | with_reducible exact wf_nil _
    | with_reducible refine lz_wf ?_
    | with_reducible refine sram_wf ?_
    | with_reducible refine nor_wf ?_
    | with_reducible refine staging_wf ?_
    | (with_reducible refine foldl_wf ?_ _ _ ?_; intro s x hs)
    | simp only [outWf_next, takeFree, Option.elim, apply_ite outWf, apply_ite memoriesWf, apply_ite Prod.snd, ite_self]
    | (split <;> try (rename_i hp; with_reducible rw [Prod.ext_iff] at hp; have h' := hp.2; dsimp only at h'; subst h'))

theorem updWrite_wf (a0) (a1) (s : State) (h : memoriesWf s = true) : memoriesWf (updWrite a0 a1 s) = true := by
  unfold updWrite
  repeat' first
    | with_reducible assumption
    | with_reducible rfl
    | with_reducible refine activate_wf _ _ ?_
    | with_reducible refine askRestart_wf _ _ ?_
    | with_reducible refine openBuffer_wf _ ?_
    | with_reducible refine releaseBuffer_wf _ ?_
    | with_reducible refine stageCfg_wf _ ?_
    | with_reducible refine stageFw_wf _ _ ?_
    | with_reducible refine stageWord_wf _ _ _ ?_
    | with_reducible refine updRefuse_wf _ ?_
    | with_reducible refine updTouched_wf _ ?_
    | (simp only [memoriesWf_mk]; refine and_four ?_ ?_ ?_ ?_)
    | with_reducible refine memWriteBytes_wf ?_ _ _
    | with_reducible refine memClear_wf ?_ _ _
    | with_reducible exact wf_nil _
    | with_reducible refine lz_wf ?_
    | with_reducible refine sram_wf ?_
    | with_reducible refine nor_wf ?_
    | with_reducible refine staging_wf ?_
    | (with_reducible refine foldl_wf ?_ _ _ ?_; intro s x hs)
    | simp only [outWf_next, takeFree, Option.elim, apply_ite outWf, apply_ite memoriesWf, apply_ite Prod.snd, ite_self, fun b0 => wf_of_blank (noteMapChange_frame b0 0x80000 rfl) rfl]
    | (split <;> try (rename_i hp; with_reducible rw [Prod.ext_iff] at hp; have h' := hp.2; dsimp only at h'; subst h'))

theorem blockWrite_wf (a0) (a1) (a2) (s : State) (h : memoriesWf s = true) : memoriesWf (blockWrite a0 a1 a2 s) = true := by
  unfold blockWrite
  repeat' first
    | with_reducible assumption
    | with_reducible rfl
    | with_reducible refine almWrite_wf _ _ _ ?_
    | with_reducible refine updWrite_wf _ _ _ ?_
    | (simp only [memoriesWf_mk]; refine and_four ?_ ?_ ?_ ?_)
    | with_reducible refine memWriteBytes_wf ?_ _ _
    | with_reducible refine memClear_wf ?_ _ _
    | with_reducible exact wf_nil _
    | with_reducible refine lz_wf ?_
    | with_reducible refine sram_wf ?_
    | with_reducible refine nor_wf ?_
    | with_reducible refine staging_wf ?_
    | (with_reducible refine foldl_wf ?_ _ _ ?_; intro s x hs)
    | simp only [outWf_next, takeFree, Option.elim, apply_ite outWf, apply_ite memoriesWf, apply_ite Prod.snd, ite_self, fun b0 b1 b2 => wf_of_blank (cfgWrite_frame b0 b1 b2 0x20 rfl) rfl, fun b0 b1 b2 => wf_of_blank (cleWrite_frame b0 b1 b2 0x800000 rfl) rfl, fun b0 b1 b2 b3 => wf_of_blank (dcqWrite_frame b0 b1 b2 b3 0x80000480 rfl) rfl, fun b0 b1 b2 b3 => wf_of_blank (digWrite_frame b0 b1 b2 b3 0x20000 rfl) rfl, fun b0 b1 b2 b3 => wf_of_blank (doorbellWrite_frame b0 b1 b2 b3 0x83A26C8E rfl) rfl, fun b0 b1 b2 => wf_of_blank (drcWrite_frame b0 b1 b2 0x480000 rfl) rfl, fun b0 b1 b2 => wf_of_blank (ecpWrite_frame b0 b1 b2 0x83384C8E rfl) rfl, fun b0 b1 b2 => wf_of_blank (fltWrite_frame b0 b1 b2 0x83204C8E rfl) rfl, fun b0 b1 b2 b3 => wf_of_blank (hepWrite_frame b0 b1 b2 b3 0x83204C8E rfl) rfl, fun b0 b1 b2 => wf_of_blank (ldsWrite_frame b0 b1 b2 0x8 rfl) rfl, fun b0 b1 b2 => wf_of_blank (medWrite_frame b0 b1 b2 0x808C0000 rfl) rfl, fun b0 b1 b2 => wf_of_blank (netWrite_frame b0 b1 b2 0x800 rfl) rfl, fun b0 b1 b2 => wf_of_blank (pwrWrite_frame b0 b1 b2 0x80800482 rfl) rfl, fun b0 b1 b2 => wf_of_blank (redWrite_frame b0 b1 b2 0xC000 rfl) rfl, fun b0 b1 b2 => wf_of_blank (rmaWrite_frame b0 b1 b2 0x83385C8E rfl) rfl, fun b0 b1 b2 b3 => wf_of_blank (secWrite_frame b0 b1 b2 b3 0x83295C8E rfl) rfl, fun b0 b1 b2 => wf_of_blank (wlgWrite_frame b0 b1 b2 0x2000 rfl) rfl, fun b0 b1 b2 => wf_of_blank (xhlWrite_frame b0 b1 b2 0x83284C8F rfl) rfl]
    | (split <;> try (rename_i hp; with_reducible rw [Prod.ext_iff] at hp; have h' := hp.2; dsimp only at h'; subst h'))

theorem writeWord_wf (a0) (a1) (a2) (s : State) (h : memoriesWf s = true) : memoriesWf (writeWord a0 a1 a2 s) = true := by
  unfold writeWord
  repeat' first
    | with_reducible assumption
    | with_reducible rfl
    | with_reducible refine blockWrite_wf _ _ _ _ ?_
    | (simp only [memoriesWf_mk]; refine and_four ?_ ?_ ?_ ?_)
    | with_reducible refine memWriteBytes_wf ?_ _ _
    | with_reducible refine memClear_wf ?_ _ _
    | with_reducible exact wf_nil _
    | with_reducible refine lz_wf ?_
    | with_reducible refine sram_wf ?_
    | with_reducible refine nor_wf ?_
    | with_reducible refine staging_wf ?_
    | (with_reducible refine foldl_wf ?_ _ _ ?_; intro s x hs)
    | simp only [outWf_next, takeFree, Option.elim, apply_ite outWf, apply_ite memoriesWf, apply_ite Prod.snd, ite_self, fun b0 b1 b2 => wf_of_blank (readWord_frame b0 b1 b2 0xC2E40100 rfl) rfl, fun b0 b1 b2 b3 => wf_of_blank (writeHigh_frame b0 b1 b2 b3 0x83204E8E rfl) rfl, fun b0 b1 b2 b3 b4 b5 => wf_of_blank (writeLow_frame b0 b1 b2 b3 b4 b5 0x83BB7E8E rfl) rfl]
    | (split <;> try (rename_i hp; with_reducible rw [Prod.ext_iff] at hp; have h' := hp.2; dsimp only at h'; subst h'))

theorem cutWrite_wf (a0) (a1) (s : State) (h : memoriesWf s = true) : memoriesWf (cutWrite a0 a1 s) = true := by
  unfold cutWrite
  repeat' first
    | with_reducible assumption
    | with_reducible rfl
    | with_reducible refine updRefuse_wf _ ?_
    | (simp only [memoriesWf_mk]; refine and_four ?_ ?_ ?_ ?_)
    | with_reducible refine memWriteBytes_wf ?_ _ _
    | with_reducible refine memClear_wf ?_ _ _
    | with_reducible exact wf_nil _
    | with_reducible refine lz_wf ?_
    | with_reducible refine sram_wf ?_
    | with_reducible refine nor_wf ?_
    | with_reducible refine staging_wf ?_
    | (with_reducible refine foldl_wf ?_ _ _ ?_; intro s x hs)
    | simp only [outWf_next, takeFree, Option.elim, apply_ite outWf, apply_ite memoriesWf, apply_ite Prod.snd, ite_self]
    | (split <;> try (rename_i hp; with_reducible rw [Prod.ext_iff] at hp; have h' := hp.2; dsimp only at h'; subst h'))

theorem hostWord_wf (a0) (a1) (a2) (s : State) (h : memoriesWf s = true) : memoriesWf (hostWord a0 a1 a2 s) = true := by
  unfold hostWord
  repeat' first
    | with_reducible assumption
    | with_reducible rfl
    | with_reducible refine cutWrite_wf _ _ _ ?_
    | with_reducible refine writeWord_wf _ _ _ _ ?_
    | (simp only [memoriesWf_mk]; refine and_four ?_ ?_ ?_ ?_)
    | with_reducible refine memWriteBytes_wf ?_ _ _
    | with_reducible refine memClear_wf ?_ _ _
    | with_reducible exact wf_nil _
    | with_reducible refine lz_wf ?_
    | with_reducible refine sram_wf ?_
    | with_reducible refine nor_wf ?_
    | with_reducible refine staging_wf ?_
    | (with_reducible refine foldl_wf ?_ _ _ ?_; intro s x hs)
    | simp only [outWf_next, takeFree, Option.elim, apply_ite outWf, apply_ite memoriesWf, apply_ite Prod.snd, ite_self]
    | (split <;> try (rename_i hp; with_reducible rw [Prod.ext_iff] at hp; have h' := hp.2; dsimp only at h'; subst h'))

theorem wideAccess_wf (a0) (a1) (a2) (s : State) (h : memoriesWf s = true) : memoriesWf (wideAccess a0 a1 a2 s) = true := by
  unfold wideAccess
  repeat' first
    | with_reducible assumption
    | with_reducible rfl
    | with_reducible refine hostWord_wf _ _ _ _ ?_
    | (simp only [memoriesWf_mk]; refine and_four ?_ ?_ ?_ ?_)
    | with_reducible refine memWriteBytes_wf ?_ _ _
    | with_reducible refine memClear_wf ?_ _ _
    | with_reducible exact wf_nil _
    | with_reducible refine lz_wf ?_
    | with_reducible refine sram_wf ?_
    | with_reducible refine nor_wf ?_
    | with_reducible refine staging_wf ?_
    | (with_reducible refine foldl_wf ?_ _ _ ?_; intro s x hs)
    | simp only [outWf_next, takeFree, Option.elim, apply_ite outWf, apply_ite memoriesWf, apply_ite Prod.snd, ite_self, fun b0 b1 => wf_of_blank (emit_frame b0 b1 0x80000000 rfl) rfl, fun b0 b1 b2 => wf_of_blank (readWord_frame b0 b1 b2 0xC2E40100 rfl) rfl]
    | (split <;> try (rename_i hp; with_reducible rw [Prod.ext_iff] at hp; have h' := hp.2; dsimp only at h'; subst h'))

theorem barAccess_wf (a0) (a1) (a2) (a3) (a4) (a5) (s : State) (h : memoriesWf s = true) : memoriesWf (barAccess a0 a1 a2 a3 a4 a5 s) = true := by
  unfold barAccess
  repeat' first
    | with_reducible assumption
    | with_reducible rfl
    | with_reducible refine hostWord_wf _ _ _ _ ?_
    | with_reducible refine wideAccess_wf _ _ _ _ ?_
    | (simp only [memoriesWf_mk]; refine and_four ?_ ?_ ?_ ?_)
    | with_reducible refine memWriteBytes_wf ?_ _ _
    | with_reducible refine memClear_wf ?_ _ _
    | with_reducible exact wf_nil _
    | with_reducible refine lz_wf ?_
    | with_reducible refine sram_wf ?_
    | with_reducible refine nor_wf ?_
    | with_reducible refine staging_wf ?_
    | (with_reducible refine foldl_wf ?_ _ _ ?_; intro s x hs)
    | simp only [outWf_next, takeFree, Option.elim, apply_ite outWf, apply_ite memoriesWf, apply_ite Prod.snd, ite_self, fun b0 b1 b2 => wf_of_blank (accessError_frame b0 b1 b2 0x83204C8E rfl) rfl, fun b0 b1 b2 b3 b4 => wf_of_blank (bar4Access_frame b0 b1 b2 b3 b4 0xC0000080 rfl) rfl, fun b0 b1 b2 => wf_of_blank (readWord_frame b0 b1 b2 0xC2E40100 rfl) rfl]
    | (split <;> try (rename_i hp; with_reducible rw [Prod.ext_iff] at hp; have h' := hp.2; dsimp only at h'; subst h'))

theorem norTear_wf (a0) (s : State) (h : memoriesWf s = true) : memoriesWf (norTear a0 s) = true := by
  have key : ∀ (l : List (Nat × BitVec 8)) (f : List Host.Cell → Nat × BitVec 8 → List Host.Cell)
      (_ : ∀ m t, Memory.wf norErased m = true → Memory.wf norErased (f m t) = true) (m : List Host.Cell),
      Memory.wf norErased m = true → Memory.wf norErased (l.foldl f m) = true := by
    intro l f hf
    induction l with
    | nil => exact fun _ hm => hm
    | cons x l ih => exact fun m hm => ih _ (hf m x hm)
  unfold norTear
  rw [memoriesWf_mk]
  refine and_four (lz_wf h) (sram_wf h) (key _ _ ?_ _ (nor_wf h)) (staging_wf h)
  intro m t hm
  split
  · split
    · exact memWrite_wf hm _ _
    · exact hm
  · exact hm

theorem birthRewrite_wf (a0) (s : State) (h : memoriesWf s = true) : memoriesWf (birthRewrite a0 s) = true := by
  unfold birthRewrite
  repeat' first
    | with_reducible assumption
    | with_reducible rfl
    | with_reducible refine norErase_wf _ _ _ ?_
    | with_reducible refine norWrite_wf _ _ _ ?_
    | (simp only [memoriesWf_mk]; refine and_four ?_ ?_ ?_ ?_)
    | with_reducible refine memWriteBytes_wf ?_ _ _
    | with_reducible refine memClear_wf ?_ _ _
    | with_reducible exact wf_nil _
    | with_reducible refine lz_wf ?_
    | with_reducible refine sram_wf ?_
    | with_reducible refine nor_wf ?_
    | with_reducible refine staging_wf ?_
    | (with_reducible refine foldl_wf ?_ _ _ ?_; intro s x hs)
    | simp only [outWf_next, takeFree, Option.elim, apply_ite outWf, apply_ite memoriesWf, apply_ite Prod.snd, ite_self]
    | (split <;> try (rename_i hp; with_reducible rw [Prod.ext_iff] at hp; have h' := hp.2; dsimp only at h'; subst h'))

theorem birthMend_wf (s : State) (h : memoriesWf s = true) : memoriesWf (birthMend s) = true := by
  unfold birthMend
  repeat' first
    | with_reducible assumption
    | with_reducible rfl
    | with_reducible refine birthRewrite_wf _ _ ?_
    | (simp only [memoriesWf_mk]; refine and_four ?_ ?_ ?_ ?_)
    | with_reducible refine memWriteBytes_wf ?_ _ _
    | with_reducible refine memClear_wf ?_ _ _
    | with_reducible exact wf_nil _
    | with_reducible refine lz_wf ?_
    | with_reducible refine sram_wf ?_
    | with_reducible refine nor_wf ?_
    | with_reducible refine staging_wf ?_
    | (with_reducible refine foldl_wf ?_ _ _ ?_; intro s x hs)
    | simp only [outWf_next, takeFree, Option.elim, apply_ite outWf, apply_ite memoriesWf, apply_ite Prod.snd, ite_self]
    | (split <;> try (rename_i hp; with_reducible rw [Prod.ext_iff] at hp; have h' := hp.2; dsimp only at h'; subst h'))

theorem floorRaised_wf (a0) (s : State) (h : memoriesWf s = true) : memoriesWf (floorRaised a0 s) = true := by
  unfold floorRaised
  repeat' first
    | with_reducible assumption
    | with_reducible rfl
    | with_reducible refine copiesPut_wf _ _ ?_
    | (simp only [memoriesWf_mk]; refine and_four ?_ ?_ ?_ ?_)
    | with_reducible refine memWriteBytes_wf ?_ _ _
    | with_reducible refine memClear_wf ?_ _ _
    | with_reducible exact wf_nil _
    | with_reducible refine lz_wf ?_
    | with_reducible refine sram_wf ?_
    | with_reducible refine nor_wf ?_
    | with_reducible refine staging_wf ?_
    | (with_reducible refine foldl_wf ?_ _ _ ?_; intro s x hs)
    | simp only [outWf_next, takeFree, Option.elim, apply_ite outWf, apply_ite memoriesWf, apply_ite Prod.snd, ite_self, fun b0 b1 b2 b3 => wf_of_blank (record_frame b0 b1 b2 b3 0x83204C8E rfl) rfl]
    | (split <;> try (rename_i hp; with_reducible rw [Prod.ext_iff] at hp; have h' := hp.2; dsimp only at h'; subst h'))

theorem floorResume_wf (s : State) (h : memoriesWf s = true) : memoriesWf (floorResume s) = true := by
  unfold floorResume
  repeat' first
    | with_reducible assumption
    | with_reducible rfl
    | with_reducible refine copiesPut_wf _ _ ?_
    | with_reducible refine floorRaised_wf _ _ ?_
    | (simp only [memoriesWf_mk]; refine and_four ?_ ?_ ?_ ?_)
    | with_reducible refine memWriteBytes_wf ?_ _ _
    | with_reducible refine memClear_wf ?_ _ _
    | with_reducible exact wf_nil _
    | with_reducible refine lz_wf ?_
    | with_reducible refine sram_wf ?_
    | with_reducible refine nor_wf ?_
    | with_reducible refine staging_wf ?_
    | (with_reducible refine foldl_wf ?_ _ _ ?_; intro s x hs)
    | simp only [outWf_next, takeFree, Option.elim, apply_ite outWf, apply_ite memoriesWf, apply_ite Prod.snd, ite_self]
    | (split <;> try (rename_i hp; with_reducible rw [Prod.ext_iff] at hp; have h' := hp.2; dsimp only at h'; subst h'))

theorem spaceWrite_wf (a0) (a1) (a2) (s : State) (h : memoriesWf s = true) : memoriesWf (spaceWrite a0 a1 a2 s) = true := by
  unfold spaceWrite
  repeat' first
    | with_reducible assumption
    | with_reducible rfl
    | (simp only [memoriesWf_mk]; refine and_four ?_ ?_ ?_ ?_)
    | with_reducible refine memWriteBytes_wf ?_ _ _
    | with_reducible refine memClear_wf ?_ _ _
    | with_reducible exact wf_nil _
    | with_reducible refine lz_wf ?_
    | with_reducible refine sram_wf ?_
    | with_reducible refine nor_wf ?_
    | with_reducible refine staging_wf ?_
    | (with_reducible refine foldl_wf ?_ _ _ ?_; intro s x hs)
    | simp only [outWf_next, takeFree, Option.elim, apply_ite outWf, apply_ite memoriesWf, apply_ite Prod.snd, ite_self]
    | (split <;> try (rename_i hp; with_reducible rw [Prod.ext_iff] at hp; have h' := hp.2; dsimp only at h'; subst h'))

theorem csAbort_wf (s : State) (h : memoriesWf s = true) : memoriesWf (csAbort s) = true := by
  unfold csAbort
  repeat' first
    | with_reducible assumption
    | with_reducible rfl
    | with_reducible refine spaceWrite_wf _ _ _ _ ?_
    | (simp only [memoriesWf_mk]; refine and_four ?_ ?_ ?_ ?_)
    | with_reducible refine memWriteBytes_wf ?_ _ _
    | with_reducible refine memClear_wf ?_ _ _
    | with_reducible exact wf_nil _
    | with_reducible refine lz_wf ?_
    | with_reducible refine sram_wf ?_
    | with_reducible refine nor_wf ?_
    | with_reducible refine staging_wf ?_
    | (with_reducible refine foldl_wf ?_ _ _ ?_; intro s x hs)
    | simp only [outWf_next, takeFree, Option.elim, apply_ite outWf, apply_ite memoriesWf, apply_ite Prod.snd, ite_self, fun b0 => wf_of_blank (busy_frame b0 0x80800482 rfl) rfl]
    | (split <;> try (rename_i hp; with_reducible rw [Prod.ext_iff] at hp; have h' := hp.2; dsimp only at h'; subst h'))

theorem zeroiseTestKeys_wf (s : State) (h : memoriesWf s = true) : memoriesWf (zeroiseTestKeys s) = true := by
  unfold zeroiseTestKeys
  repeat' first
    | with_reducible assumption
    | with_reducible rfl
    | with_reducible refine csAbort_wf _ ?_
    | (simp only [memoriesWf_mk]; refine and_four ?_ ?_ ?_ ?_)
    | with_reducible refine memWriteBytes_wf ?_ _ _
    | with_reducible refine memClear_wf ?_ _ _
    | with_reducible exact wf_nil _
    | with_reducible refine lz_wf ?_
    | with_reducible refine sram_wf ?_
    | with_reducible refine nor_wf ?_
    | with_reducible refine staging_wf ?_
    | (with_reducible refine foldl_wf ?_ _ _ ?_; intro s x hs)
    | simp only [outWf_next, takeFree, Option.elim, apply_ite outWf, apply_ite memoriesWf, apply_ite Prod.snd, ite_self, fun b0 => wf_of_blank (keyGenUp_frame b0 0x10000 rfl) rfl]
    | (split <;> try (rename_i hp; with_reducible rw [Prod.ext_iff] at hp; have h' := hp.2; dsimp only at h'; subst h'))

theorem zeroiseAll_wf (s : State) (h : memoriesWf s = true) : memoriesWf (zeroiseAll s) = true := by
  unfold zeroiseAll
  repeat' first
    | with_reducible assumption
    | with_reducible rfl
    | with_reducible refine zeroiseTestKeys_wf _ ?_
    | (simp only [memoriesWf_mk]; refine and_four ?_ ?_ ?_ ?_)
    | with_reducible refine memWriteBytes_wf ?_ _ _
    | with_reducible refine memClear_wf ?_ _ _
    | with_reducible exact wf_nil _
    | with_reducible refine lz_wf ?_
    | with_reducible refine sram_wf ?_
    | with_reducible refine nor_wf ?_
    | with_reducible refine staging_wf ?_
    | (with_reducible refine foldl_wf ?_ _ _ ?_; intro s x hs)
    | simp only [outWf_next, takeFree, Option.elim, apply_ite outWf, apply_ite memoriesWf, apply_ite Prod.snd, ite_self]
    | (split <;> try (rename_i hp; with_reducible rw [Prod.ext_iff] at hp; have h' := hp.2; dsimp only at h'; subst h'))

theorem lcZeroise_wf (a0) (s : State) (h : memoriesWf s = true) : memoriesWf (lcZeroise a0 s) = true := by
  unfold lcZeroise
  repeat' first
    | with_reducible assumption
    | with_reducible rfl
    | with_reducible refine zeroiseAll_wf _ ?_
    | with_reducible refine zeroiseTestKeys_wf _ ?_
    | (simp only [memoriesWf_mk]; refine and_four ?_ ?_ ?_ ?_)
    | with_reducible refine memWriteBytes_wf ?_ _ _
    | with_reducible refine memClear_wf ?_ _ _
    | with_reducible exact wf_nil _
    | with_reducible refine lz_wf ?_
    | with_reducible refine sram_wf ?_
    | with_reducible refine nor_wf ?_
    | with_reducible refine staging_wf ?_
    | (with_reducible refine foldl_wf ?_ _ _ ?_; intro s x hs)
    | simp only [outWf_next, takeFree, Option.elim, apply_ite outWf, apply_ite memoriesWf, apply_ite Prod.snd, ite_self]
    | (split <;> try (rename_i hp; with_reducible rw [Prod.ext_iff] at hp; have h' := hp.2; dsimp only at h'; subst h'))

theorem lcComplete_wf (a0) (a1) (s : State) (h : memoriesWf s = true) : memoriesWf (lcComplete a0 a1 s) = true := by
  unfold lcComplete
  repeat' first
    | with_reducible assumption
    | with_reducible rfl
    | with_reducible refine copiesPut_wf _ _ ?_
    | (simp only [memoriesWf_mk]; refine and_four ?_ ?_ ?_ ?_)
    | with_reducible refine memWriteBytes_wf ?_ _ _
    | with_reducible refine memClear_wf ?_ _ _
    | with_reducible exact wf_nil _
    | with_reducible refine lz_wf ?_
    | with_reducible refine sram_wf ?_
    | with_reducible refine nor_wf ?_
    | with_reducible refine staging_wf ?_
    | (with_reducible refine foldl_wf ?_ _ _ ?_; intro s x hs)
    | simp only [outWf_next, takeFree, Option.elim, apply_ite outWf, apply_ite memoriesWf, apply_ite Prod.snd, ite_self, fun b0 b1 b2 b3 => wf_of_blank (record_frame b0 b1 b2 b3 0x83204C8E rfl) rfl]
    | (split <;> try (rename_i hp; with_reducible rw [Prod.ext_iff] at hp; have h' := hp.2; dsimp only at h'; subst h'))

theorem lcResume_wf (a0) (s : State) (h : memoriesWf s = true) : memoriesWf (lcResume a0 s) = true := by
  unfold lcResume
  repeat' first
    | with_reducible assumption
    | with_reducible rfl
    | with_reducible refine lcComplete_wf _ _ _ ?_
    | with_reducible refine lcZeroise_wf _ _ ?_
    | (simp only [memoriesWf_mk]; refine and_four ?_ ?_ ?_ ?_)
    | with_reducible refine memWriteBytes_wf ?_ _ _
    | with_reducible refine memClear_wf ?_ _ _
    | with_reducible exact wf_nil _
    | with_reducible refine lz_wf ?_
    | with_reducible refine sram_wf ?_
    | with_reducible refine nor_wf ?_
    | with_reducible refine staging_wf ?_
    | (with_reducible refine foldl_wf ?_ _ _ ?_; intro s x hs)
    | simp only [outWf_next, takeFree, Option.elim, apply_ite outWf, apply_ite memoriesWf, apply_ite Prod.snd, ite_self, fun b0 b1 b2 => wf_of_blank (fuseOwner_frame b0 b1 b2 0x10 rfl) rfl, fun b0 b1 => wf_of_blank (lcBlown_frame b0 b1 0x28 rfl) rfl, fun b0 b1 => wf_of_blank (lcFuses_frame b0 b1 0x10 rfl) rfl, fun b0 b1 b2 b3 => wf_of_blank (record_frame b0 b1 b2 b3 0x83204C8E rfl) rfl]
    | (split <;> try (rename_i hp; with_reducible rw [Prod.ext_iff] at hp; have h' := hp.2; dsimp only at h'; subst h'))

theorem beginStart_wf (a0) (a1) (a2) (s : State) (h : memoriesWf s = true) : memoriesWf (beginStart a0 a1 a2 s) = true := by
  unfold beginStart
  repeat' first
    | with_reducible assumption
    | with_reducible rfl
    | with_reducible refine afterReset_wf _ _ _ ?_
    | with_reducible refine birthMend_wf _ ?_
    | with_reducible refine floorResume_wf _ ?_
    | with_reducible refine lcResume_wf _ _ ?_
    | with_reducible refine norTear_wf _ _ ?_
    | (simp only [memoriesWf_mk]; refine and_four ?_ ?_ ?_ ?_)
    | with_reducible refine memWriteBytes_wf ?_ _ _
    | with_reducible refine memClear_wf ?_ _ _
    | with_reducible exact wf_nil _
    | with_reducible refine lz_wf ?_
    | with_reducible refine sram_wf ?_
    | with_reducible refine nor_wf ?_
    | with_reducible refine staging_wf ?_
    | (with_reducible refine foldl_wf ?_ _ _ ?_; intro s x hs)
    | simp only [outWf_next, takeFree, Option.elim, apply_ite outWf, apply_ite memoriesWf, apply_ite Prod.snd, ite_self, fun b0 => wf_of_blank (identityUp_frame b0 0x10020 rfl) rfl, fun b0 b1 b2 => wf_of_blank (islandRead_frame b0 b1 b2 0x6 rfl) rfl, fun b0 b1 => wf_of_blank (resumeCivil_frame b0 b1 0xC rfl) rfl, fun b0 b1 b2 => wf_of_blank (startEvents_frame b0 b1 b2 0x83204C8F rfl) rfl, fun b0 b1 b2 => wf_of_blank (stopEvents_frame b0 b1 b2 0x83204C8E rfl) rfl]
    | (split <;> try (rename_i hp; with_reducible rw [Prod.ext_iff] at hp; have h' := hp.2; dsimp only at h'; subst h'))

theorem takeSerial_wf (s : State) (h : memoriesWf s = true) : memoriesWf (takeSerial s).2 = true := by
  unfold takeSerial
  repeat' first
    | with_reducible assumption
    | with_reducible rfl
    | with_reducible refine failstop_wf _ _ _ ?_
    | (simp only [memoriesWf_mk]; refine and_four ?_ ?_ ?_ ?_)
    | with_reducible refine memWriteBytes_wf ?_ _ _
    | with_reducible refine memClear_wf ?_ _ _
    | with_reducible exact wf_nil _
    | with_reducible refine lz_wf ?_
    | with_reducible refine sram_wf ?_
    | with_reducible refine nor_wf ?_
    | with_reducible refine staging_wf ?_
    | (with_reducible refine foldl_wf ?_ _ _ ?_; intro s x hs)
    | simp only [outWf_next, takeFree, Option.elim, apply_ite outWf, apply_ite memoriesWf, apply_ite Prod.snd, ite_self, fun b0 => wf_of_blank (reserveSerials_frame b0 0x83214C8E rfl) rfl]
    | (split <;> try (rename_i hp; with_reducible rw [Prod.ext_iff] at hp; have h' := hp.2; dsimp only at h'; subst h'))

theorem loseChunk_wf (a0) (a1) (a2) (a3) (a4) (a5) (s : State) (h : memoriesWf s = true) : memoriesWf (loseChunk a0 a1 a2 a3 a4 a5 s) = true := by
  unfold loseChunk
  repeat' first
    | with_reducible assumption
    | with_reducible rfl
    | with_reducible refine takeSerial_wf _ ?_
    | (simp only [memoriesWf_mk]; refine and_four ?_ ?_ ?_ ?_)
    | with_reducible refine memWriteBytes_wf ?_ _ _
    | with_reducible refine memClear_wf ?_ _ _
    | with_reducible exact wf_nil _
    | with_reducible refine lz_wf ?_
    | with_reducible refine sram_wf ?_
    | with_reducible refine nor_wf ?_
    | with_reducible refine staging_wf ?_
    | (with_reducible refine foldl_wf ?_ _ _ ?_; intro s x hs)
    | simp only [outWf_next, takeFree, Option.elim, apply_ite outWf, apply_ite memoriesWf, apply_ite Prod.snd, ite_self, fun b0 b1 => wf_of_blank (addLost_frame b0 b1 0x83304C8E rfl) rfl, fun b0 b1 b2 b3 b4 => wf_of_blank (moveObject_frame b0 b1 b2 b3 b4 0x833C4C8E rfl) rfl, fun b0 b1 b2 b3 => wf_of_blank (recordAlert_frame b0 b1 b2 b3 0x83204C8E rfl) rfl]
    | (split <;> try (rename_i hp; with_reducible rw [Prod.ext_iff] at hp; have h' := hp.2; dsimp only at h'; subst h'))

theorem loseObject_wf (a0) (a1) (a2) (a3) (s : State) (h : memoriesWf s = true) : memoriesWf (loseObject a0 a1 a2 a3 s) = true := by
  unfold loseObject
  repeat' first
    | with_reducible assumption
    | with_reducible rfl
    | with_reducible refine loseChunk_wf _ _ _ _ _ _ _ ?_
    | (simp only [memoriesWf_mk]; refine and_four ?_ ?_ ?_ ?_)
    | with_reducible refine memWriteBytes_wf ?_ _ _
    | with_reducible refine memClear_wf ?_ _ _
    | with_reducible exact wf_nil _
    | with_reducible refine lz_wf ?_
    | with_reducible refine sram_wf ?_
    | with_reducible refine nor_wf ?_
    | with_reducible refine staging_wf ?_
    | (with_reducible refine foldl_wf ?_ _ _ ?_; intro s x hs)
    | simp only [outWf_next, takeFree, Option.elim, apply_ite outWf, apply_ite memoriesWf, apply_ite Prod.snd, ite_self]
    | (split <;> try (rename_i hp; with_reducible rw [Prod.ext_iff] at hp; have h' := hp.2; dsimp only at h'; subst h'))

theorem checkObject_wf (a0) (a1) (a2) (a3) (a4) (s : State) (h : memoriesWf s = true) : memoriesWf (checkObject a0 a1 a2 a3 a4 s).2 = true := by
  unfold checkObject
  repeat' first
    | with_reducible assumption
    | with_reducible rfl
    | with_reducible refine loseObject_wf _ _ _ _ _ ?_
    | (simp only [memoriesWf_mk]; refine and_four ?_ ?_ ?_ ?_)
    | with_reducible refine memWriteBytes_wf ?_ _ _
    | with_reducible refine memClear_wf ?_ _ _
    | with_reducible exact wf_nil _
    | with_reducible refine lz_wf ?_
    | with_reducible refine sram_wf ?_
    | with_reducible refine nor_wf ?_
    | with_reducible refine staging_wf ?_
    | (with_reducible refine foldl_wf ?_ _ _ ?_; intro s x hs)
    | simp only [outWf_next, takeFree, Option.elim, apply_ite outWf, apply_ite memoriesWf, apply_ite Prod.snd, ite_self, fun b0 b1 b2 b3 b4 => wf_of_blank (moveObject_frame b0 b1 b2 b3 b4 0x833C4C8E rfl) rfl]
    | (split <;> try (rename_i hp; with_reducible rw [Prod.ext_iff] at hp; have h' := hp.2; dsimp only at h'; subst h'))

theorem loseMissing_wf (a0) (a1) (a2) (s : State) (h : memoriesWf s = true) : memoriesWf (loseMissing a0 a1 a2 s) = true := by
  unfold loseMissing
  repeat' first
    | with_reducible assumption
    | with_reducible rfl
    | with_reducible refine loseObject_wf _ _ _ _ _ ?_
    | (simp only [memoriesWf_mk]; refine and_four ?_ ?_ ?_ ?_)
    | with_reducible refine memWriteBytes_wf ?_ _ _
    | with_reducible refine memClear_wf ?_ _ _
    | with_reducible exact wf_nil _
    | with_reducible refine lz_wf ?_
    | with_reducible refine sram_wf ?_
    | with_reducible refine nor_wf ?_
    | with_reducible refine staging_wf ?_
    | (with_reducible refine foldl_wf ?_ _ _ ?_; intro s x hs)
    | simp only [outWf_next, takeFree, Option.elim, apply_ite outWf, apply_ite memoriesWf, apply_ite Prod.snd, ite_self, fun b0 b1 => wf_of_blank (staleMeta_frame b0 b1 0x180000 rfl) rfl]
    | (split <;> try (rename_i hp; with_reducible rw [Prod.ext_iff] at hp; have h' := hp.2; dsimp only at h'; subst h'))

theorem checkStripe_wf (a0) (a1) (a2) (a3) (s : State) (h : memoriesWf s = true) : memoriesWf (checkStripe a0 a1 a2 a3 s) = true := by
  have key : ∀ (l : List TrailerEntry) (p : Bool × State), memoriesWf p.2 = true →
      memoriesWf (l.foldl (fun acc t => checkObject a1 a2 a3 acc.1 t acc.2) p).2 = true := by
    intro l
    induction l with
    | nil => exact fun _ hp => hp
    | cons a l ih => exact fun p hp => ih _ (checkObject_wf _ _ _ _ _ _ hp)
  unfold checkStripe
  repeat' first
    | with_reducible assumption
    | with_reducible rfl
    | (with_reducible refine key _ _ ?_)
    | with_reducible refine checkObject_wf _ _ _ _ _ _ ?_
    | with_reducible refine loseMissing_wf _ _ _ _ ?_
    | (simp only [memoriesWf_mk]; refine and_four ?_ ?_ ?_ ?_)
    | with_reducible refine memWriteBytes_wf ?_ _ _
    | with_reducible refine memClear_wf ?_ _ _
    | with_reducible exact wf_nil _
    | with_reducible refine lz_wf ?_
    | with_reducible refine sram_wf ?_
    | with_reducible refine nor_wf ?_
    | with_reducible refine staging_wf ?_
    | (with_reducible refine foldl_wf ?_ _ _ ?_; intro s x hs)
    | simp only [outWf_next, takeFree, Option.elim, apply_ite outWf, apply_ite memoriesWf, apply_ite Prod.snd, ite_self, fun b0 b1 b2 b3 b4 => wf_of_blank (moveStrip_frame b0 b1 b2 b3 b4 0x833C4C8E rfl) rfl, fun b0 => wf_of_blank (noteMapChange_frame b0 0x80000 rfl) rfl, fun b0 b1 b2 b3 => wf_of_blank (record_frame b0 b1 b2 b3 0x83204C8E rfl) rfl]
    | (split <;> try (rename_i hp; with_reducible rw [Prod.ext_iff] at hp; have h' := hp.2; dsimp only at h'; subst h'))

theorem loseOrDefer_wf (a0) (a1) (a2) (a3) (a4) (a5) (s : State) (h : memoriesWf s = true) : memoriesWf (loseOrDefer a0 a1 a2 a3 a4 a5 s) = true := by
  unfold loseOrDefer
  repeat' first
    | with_reducible assumption
    | with_reducible rfl
    | with_reducible refine loseChunk_wf _ _ _ _ _ _ _ ?_
    | (simp only [memoriesWf_mk]; refine and_four ?_ ?_ ?_ ?_)
    | with_reducible refine memWriteBytes_wf ?_ _ _
    | with_reducible refine memClear_wf ?_ _ _
    | with_reducible exact wf_nil _
    | with_reducible refine lz_wf ?_
    | with_reducible refine sram_wf ?_
    | with_reducible refine nor_wf ?_
    | with_reducible refine staging_wf ?_
    | (with_reducible refine foldl_wf ?_ _ _ ?_; intro s x hs)
    | simp only [outWf_next, takeFree, Option.elim, apply_ite outWf, apply_ite memoriesWf, apply_ite Prod.snd, ite_self]
    | (split <;> try (rename_i hp; with_reducible rw [Prod.ext_iff] at hp; have h' := hp.2; dsimp only at h'; subst h'))

theorem readBad_wf (a0) (a1) (a2) (a3) (a4) (a5) (a6) (a7) (a8) (s : State) (h : memoriesWf s = true) : memoriesWf (readBad a0 a1 a2 a3 a4 a5 a6 a7 a8 s).2 = true := by
  unfold readBad
  repeat' first
    | with_reducible assumption
    | with_reducible rfl
    | with_reducible refine loseOrDefer_wf _ _ _ _ _ _ _ ?_
    | (simp only [memoriesWf_mk]; refine and_four ?_ ?_ ?_ ?_)
    | with_reducible refine memWriteBytes_wf ?_ _ _
    | with_reducible refine memClear_wf ?_ _ _
    | with_reducible exact wf_nil _
    | with_reducible refine lz_wf ?_
    | with_reducible refine sram_wf ?_
    | with_reducible refine nor_wf ?_
    | with_reducible refine staging_wf ?_
    | (with_reducible refine foldl_wf ?_ _ _ ?_; intro s x hs)
    | simp only [outWf_next, takeFree, Option.elim, apply_ite outWf, apply_ite memoriesWf, apply_ite Prod.snd, ite_self, fun b0 b1 b2 b3 => wf_of_blank (addTest_frame b0 b1 b2 b3 0x83204C8E rfl) rfl, fun b0 b1 b2 b3 b4 => wf_of_blank (moveObject_frame b0 b1 b2 b3 b4 0x833C4C8E rfl) rfl, fun b0 b1 b2 b3 => wf_of_blank (record_frame b0 b1 b2 b3 0x83204C8E rfl) rfl]
    | (split <;> try (rename_i hp; with_reducible rw [Prod.ext_iff] at hp; have h' := hp.2; dsimp only at h'; subst h'))

theorem readStored_wf (a0) (a1) (a2) (a3) (a4) (a5) (a6) (s : State) (h : memoriesWf s = true) : memoriesWf (readStored a0 a1 a2 a3 a4 a5 a6 s).2 = true := by
  unfold readStored
  repeat' first
    | with_reducible assumption
    | with_reducible rfl
    | with_reducible refine loseOrDefer_wf _ _ _ _ _ _ _ ?_
    | with_reducible refine readBad_wf _ _ _ _ _ _ _ _ _ _ ?_
    | (simp only [memoriesWf_mk]; refine and_four ?_ ?_ ?_ ?_)
    | with_reducible refine memWriteBytes_wf ?_ _ _
    | with_reducible refine memClear_wf ?_ _ _
    | with_reducible exact wf_nil _
    | with_reducible refine lz_wf ?_
    | with_reducible refine sram_wf ?_
    | with_reducible refine nor_wf ?_
    | with_reducible refine staging_wf ?_
    | (with_reducible refine foldl_wf ?_ _ _ ?_; intro s x hs)
    | simp only [outWf_next, takeFree, Option.elim, apply_ite outWf, apply_ite memoriesWf, apply_ite Prod.snd, ite_self]
    | (split <;> try (rename_i hp; with_reducible rw [Prod.ext_iff] at hp; have h' := hp.2; dsimp only at h'; subst h'))

theorem chunkPayload_wf (a0) (a1) (a2) (a3) (a4) (s : State) (h : memoriesWf s = true) : memoriesWf (chunkPayload a0 a1 a2 a3 a4 s).2 = true := by
  unfold chunkPayload
  repeat' first
    | with_reducible assumption
    | with_reducible rfl
    | with_reducible refine readStored_wf _ _ _ _ _ _ _ _ ?_
    | (simp only [memoriesWf_mk]; refine and_four ?_ ?_ ?_ ?_)
    | with_reducible refine memWriteBytes_wf ?_ _ _
    | with_reducible refine memClear_wf ?_ _ _
    | with_reducible exact wf_nil _
    | with_reducible refine lz_wf ?_
    | with_reducible refine sram_wf ?_
    | with_reducible refine nor_wf ?_
    | with_reducible refine staging_wf ?_
    | (with_reducible refine foldl_wf ?_ _ _ ?_; intro s x hs)
    | simp only [outWf_next, takeFree, Option.elim, apply_ite outWf, apply_ite memoriesWf, apply_ite Prod.snd, ite_self]
    | (split <;> try (rename_i hp; with_reducible rw [Prod.ext_iff] at hp; have h' := hp.2; dsimp only at h'; subst h'))

theorem clearOn_wf (s : State) (h : memoriesWf s = true) : memoriesWf (clearOn s) = true := by
  unfold clearOn
  repeat' first
    | with_reducible assumption
    | with_reducible rfl
    | with_reducible refine norFresh_wf _ _ ?_
    | (simp only [memoriesWf_mk]; refine and_four ?_ ?_ ?_ ?_)
    | with_reducible refine memWriteBytes_wf ?_ _ _
    | with_reducible refine memClear_wf ?_ _ _
    | with_reducible exact wf_nil _
    | with_reducible refine lz_wf ?_
    | with_reducible refine sram_wf ?_
    | with_reducible refine nor_wf ?_
    | with_reducible refine staging_wf ?_
    | (with_reducible refine foldl_wf ?_ _ _ ?_; intro s x hs)
    | simp only [outWf_next, takeFree, Option.elim, apply_ite outWf, apply_ite memoriesWf, apply_ite Prod.snd, ite_self]
    | (split <;> try (rename_i hp; with_reducible rw [Prod.ext_iff] at hp; have h' := hp.2; dsimp only at h'; subst h'))

theorem copyShadow_wf (a0) (a1) (a2) (s : State) (h : memoriesWf s = true) : memoriesWf (copyShadow a0 a1 a2 s) = true := by
  unfold copyShadow
  repeat' first
    | with_reducible assumption
    | with_reducible rfl
    | with_reducible refine readStored_wf _ _ _ _ _ _ _ _ ?_
    | (simp only [memoriesWf_mk]; refine and_four ?_ ?_ ?_ ?_)
    | with_reducible refine memWriteBytes_wf ?_ _ _
    | with_reducible refine memClear_wf ?_ _ _
    | with_reducible exact wf_nil _
    | with_reducible refine lz_wf ?_
    | with_reducible refine sram_wf ?_
    | with_reducible refine nor_wf ?_
    | with_reducible refine staging_wf ?_
    | (with_reducible refine foldl_wf ?_ _ _ ?_; intro s x hs)
    | simp only [outWf_next, takeFree, Option.elim, apply_ite outWf, apply_ite memoriesWf, apply_ite Prod.snd, ite_self, fun b0 b1 b2 b3 b4 b5 => wf_of_blank (placeObject_frame b0 b1 b2 b3 b4 b5 0x833C4C8E rfl) rfl]
    | (split <;> try (rename_i hp; with_reducible rw [Prod.ext_iff] at hp; have h' := hp.2; dsimp only at h'; subst h'))

theorem deliver_wf (a0) (a1) (a2) (s : State) (h : memoriesWf s = true) : memoriesWf (deliver a0 a1 a2 s) = true := by
  unfold deliver
  repeat' first
    | with_reducible assumption
    | with_reducible rfl
    | (simp only [memoriesWf_mk]; refine and_four ?_ ?_ ?_ ?_)
    | with_reducible refine memWriteBytes_wf ?_ _ _
    | with_reducible refine memClear_wf ?_ _ _
    | with_reducible exact wf_nil _
    | with_reducible refine lz_wf ?_
    | with_reducible refine sram_wf ?_
    | with_reducible refine nor_wf ?_
    | with_reducible refine staging_wf ?_
    | (with_reducible refine foldl_wf ?_ _ _ ?_; intro s x hs)
    | simp only [outWf_next, takeFree, Option.elim, apply_ite outWf, apply_ite memoriesWf, apply_ite Prod.snd, ite_self, fun b0 b1 b2 b3 => wf_of_blank (hostWriteReq_frame b0 b1 b2 b3 0x80000080 rfl) rfl, fun b0 b1 b2 b3 b4 b5 => wf_of_blank (xhlSend_frame b0 b1 b2 b3 b4 b5 0x80200002 rfl) rfl]
    | (split <;> try (rename_i hp; with_reducible rw [Prod.ext_iff] at hp; have h' := hp.2; dsimp only at h'; subst h'))

theorem dramUncorrectable_wf (a0) (a1) (s : State) (h : memoriesWf s = true) : memoriesWf (dramUncorrectable a0 a1 s) = true := by
  unfold dramUncorrectable
  repeat' first
    | with_reducible assumption
    | with_reducible rfl
    | with_reducible refine failstop_wf _ _ _ ?_
    | (simp only [memoriesWf_mk]; refine and_four ?_ ?_ ?_ ?_)
    | with_reducible refine memWriteBytes_wf ?_ _ _
    | with_reducible refine memClear_wf ?_ _ _
    | with_reducible exact wf_nil _
    | with_reducible refine lz_wf ?_
    | with_reducible refine sram_wf ?_
    | with_reducible refine nor_wf ?_
    | with_reducible refine staging_wf ?_
    | (with_reducible refine foldl_wf ?_ _ _ ?_; intro s x hs)
    | simp only [outWf_next, takeFree, Option.elim, apply_ite outWf, apply_ite memoriesWf, apply_ite Prod.snd, ite_self, fun b0 b1 b2 b3 => wf_of_blank (addTest_frame b0 b1 b2 b3 0x83204C8E rfl) rfl, fun b0 b1 b2 => wf_of_blank (contain_frame b0 b1 b2 0x8320EC8E rfl) rfl, fun b0 b1 b2 => wf_of_blank (digClear_frame b0 b1 b2 0x83224C8E rfl) rfl, fun b0 b1 => wf_of_blank (emit_frame b0 b1 0x80000000 rfl) rfl, fun b0 b1 b2 => wf_of_blank (modChan_frame b0 b1 b2 0x400000 rfl) rfl, fun b0 b1 b2 b3 => wf_of_blank (record_frame b0 b1 b2 b3 0x83204C8E rfl) rfl]
    | (split <;> try (rename_i hp; with_reducible rw [Prod.ext_iff] at hp; have h' := hp.2; dsimp only at h'; subst h'))

theorem dramRead_wf (a0) (a1) (a2) (a3) (s : State) (h : memoriesWf s = true) : memoriesWf (dramRead a0 a1 a2 a3 s) = true := by
  unfold dramRead
  repeat' first
    | with_reducible assumption
    | with_reducible rfl
    | with_reducible refine dramUncorrectable_wf _ _ _ ?_
    | (simp only [memoriesWf_mk]; refine and_four ?_ ?_ ?_ ?_)
    | with_reducible refine memWriteBytes_wf ?_ _ _
    | with_reducible refine memClear_wf ?_ _ _
    | with_reducible exact wf_nil _
    | with_reducible refine lz_wf ?_
    | with_reducible refine sram_wf ?_
    | with_reducible refine nor_wf ?_
    | with_reducible refine staging_wf ?_
    | (with_reducible refine foldl_wf ?_ _ _ ?_; intro s x hs)
    | simp only [outWf_next, takeFree, Option.elim, apply_ite outWf, apply_ite memoriesWf, apply_ite Prod.snd, ite_self, fun b0 b1 b2 b3 => wf_of_blank (dramCorrected_frame b0 b1 b2 b3 0x83604C8E rfl) rfl]
    | (split <;> try (rename_i hp; with_reducible rw [Prod.ext_iff] at hp; have h' := hp.2; dsimp only at h'; subst h'))

theorem secAlarm_wf (a0) (a1) (s : State) (h : memoriesWf s = true) : memoriesWf (secAlarm a0 a1 s) = true := by
  unfold secAlarm
  repeat' first
    | with_reducible assumption
    | with_reducible rfl
    | with_reducible refine csAbort_wf _ ?_
    | (simp only [memoriesWf_mk]; refine and_four ?_ ?_ ?_ ?_)
    | with_reducible refine memWriteBytes_wf ?_ _ _
    | with_reducible refine memClear_wf ?_ _ _
    | with_reducible exact wf_nil _
    | with_reducible refine lz_wf ?_
    | with_reducible refine sram_wf ?_
    | with_reducible refine nor_wf ?_
    | with_reducible refine staging_wf ?_
    | (with_reducible refine foldl_wf ?_ _ _ ?_; intro s x hs)
    | simp only [outWf_next, takeFree, Option.elim, apply_ite outWf, apply_ite memoriesWf, apply_ite Prod.snd, ite_self, fun b0 b1 b2 => wf_of_blank (digClear_frame b0 b1 b2 0x83224C8E rfl) rfl, fun b0 b1 b2 b3 => wf_of_blank (recordAlert_frame b0 b1 b2 b3 0x83204C8E rfl) rfl]
    | (split <;> try (rename_i hp; with_reducible rw [Prod.ext_iff] at hp; have h' := hp.2; dsimp only at h'; subst h'))

theorem drbgFailure_wf (s : State) (h : memoriesWf s = true) : memoriesWf (drbgFailure s) = true := by
  unfold drbgFailure
  repeat' first
    | with_reducible assumption
    | with_reducible rfl
    | with_reducible refine failstop_wf _ _ _ ?_
    | with_reducible refine secAlarm_wf _ _ _ ?_
    | (simp only [memoriesWf_mk]; refine and_four ?_ ?_ ?_ ?_)
    | with_reducible refine memWriteBytes_wf ?_ _ _
    | with_reducible refine memClear_wf ?_ _ _
    | with_reducible exact wf_nil _
    | with_reducible refine lz_wf ?_
    | with_reducible refine sram_wf ?_
    | with_reducible refine nor_wf ?_
    | with_reducible refine staging_wf ?_
    | (with_reducible refine foldl_wf ?_ _ _ ?_; intro s x hs)
    | simp only [outWf_next, takeFree, Option.elim, apply_ite outWf, apply_ite memoriesWf, apply_ite Prod.snd, ite_self, fun b0 b1 b2 b3 => wf_of_blank (addTest_frame b0 b1 b2 b3 0x83204C8E rfl) rfl, fun b0 b1 b2 b3 => wf_of_blank (record_frame b0 b1 b2 b3 0x83204C8E rfl) rfl]
    | (split <;> try (rename_i hp; with_reducible rw [Prod.ext_iff] at hp; have h' := hp.2; dsimp only at h'; subst h'))

theorem endFlush_wf (s : State) (h : memoriesWf s = true) : memoriesWf (endFlush s) = true := by
  unfold endFlush
  repeat' first
    | with_reducible assumption
    | with_reducible rfl
    | with_reducible refine almSaveAll_wf _ ?_
    | (simp only [memoriesWf_mk]; refine and_four ?_ ?_ ?_ ?_)
    | with_reducible refine memWriteBytes_wf ?_ _ _
    | with_reducible refine memClear_wf ?_ _ _
    | with_reducible exact wf_nil _
    | with_reducible refine lz_wf ?_
    | with_reducible refine sram_wf ?_
    | with_reducible refine nor_wf ?_
    | with_reducible refine staging_wf ?_
    | (with_reducible refine foldl_wf ?_ _ _ ?_; intro s x hs)
    | simp only [outWf_next, takeFree, Option.elim, apply_ite outWf, apply_ite memoriesWf, apply_ite Prod.snd, ite_self, fun b0 b1 b2 b3 => wf_of_blank (record_frame b0 b1 b2 b3 0x83204C8E rfl) rfl, fun b0 => wf_of_blank (stopWaypoint_frame b0 0x833C6C8E rfl) rfl]
    | (split <;> try (rename_i hp; with_reducible rw [Prod.ext_iff] at hp; have h' := hp.2; dsimp only at h'; subst h'))

theorem stageFailed_wf (a0) (s : State) (h : memoriesWf s = true) : memoriesWf (stageFailed a0 s) = true := by
  unfold stageFailed
  repeat' first
    | with_reducible assumption
    | with_reducible rfl
    | with_reducible refine releaseBuffer_wf _ ?_
    | (simp only [memoriesWf_mk]; refine and_four ?_ ?_ ?_ ?_)
    | with_reducible refine memWriteBytes_wf ?_ _ _
    | with_reducible refine memClear_wf ?_ _ _
    | with_reducible exact wf_nil _
    | with_reducible refine lz_wf ?_
    | with_reducible refine sram_wf ?_
    | with_reducible refine nor_wf ?_
    | with_reducible refine staging_wf ?_
    | (with_reducible refine foldl_wf ?_ _ _ ?_; intro s x hs)
    | simp only [outWf_next, takeFree, Option.elim, apply_ite outWf, apply_ite memoriesWf, apply_ite Prod.snd, ite_self, fun b0 b1 b2 b3 => wf_of_blank (record_frame b0 b1 b2 b3 0x83204C8E rfl) rfl]
    | (split <;> try (rename_i hp; with_reducible rw [Prod.ext_iff] at hp; have h' := hp.2; dsimp only at h'; subst h'))

theorem stageEnded_wf (a0) (a1) (a2) (s : State) (h : memoriesWf s = true) : memoriesWf (stageEnded a0 a1 a2 s) = true := by
  unfold stageEnded
  repeat' first
    | with_reducible assumption
    | with_reducible rfl
    | (simp only [memoriesWf_mk]; refine and_four ?_ ?_ ?_ ?_)
    | with_reducible refine memWriteBytes_wf ?_ _ _
    | with_reducible refine memClear_wf ?_ _ _
    | with_reducible exact wf_nil _
    | with_reducible refine lz_wf ?_
    | with_reducible refine sram_wf ?_
    | with_reducible refine nor_wf ?_
    | with_reducible refine staging_wf ?_
    | (with_reducible refine foldl_wf ?_ _ _ ?_; intro s x hs)
    | simp only [outWf_next, takeFree, Option.elim, apply_ite outWf, apply_ite memoriesWf, apply_ite Prod.snd, ite_self, fun b0 b1 b2 b3 => wf_of_blank (record_frame b0 b1 b2 b3 0x83204C8E rfl) rfl]
    | (split <;> try (rename_i hp; with_reducible rw [Prod.ext_iff] at hp; have h' := hp.2; dsimp only at h'; subst h'))

theorem stepEight_wf (a0) (s : State) (h : memoriesWf s = true) : memoriesWf (stepEight a0 s) = true := by
  unfold stepEight
  repeat' first
    | with_reducible assumption
    | with_reducible rfl
    | (simp only [memoriesWf_mk]; refine and_four ?_ ?_ ?_ ?_)
    | with_reducible refine memWriteBytes_wf ?_ _ _
    | with_reducible refine memClear_wf ?_ _ _
    | with_reducible exact wf_nil _
    | with_reducible refine lz_wf ?_
    | with_reducible refine sram_wf ?_
    | with_reducible refine nor_wf ?_
    | with_reducible refine staging_wf ?_
    | (with_reducible refine foldl_wf ?_ _ _ ?_; intro s x hs)
    | simp only [outWf_next, takeFree, Option.elim, apply_ite outWf, apply_ite memoriesWf, apply_ite Prod.snd, ite_self, fun b0 b1 b2 b3 => wf_of_blank (record_frame b0 b1 b2 b3 0x83204C8E rfl) rfl, fun b0 b1 => wf_of_blank (retireElement_frame b0 b1 0x83204C8E rfl) rfl, fun b0 b1 => wf_of_blank (scheduleAgent_frame b0 b1 0x101000000 rfl) rfl, fun b0 b1 => wf_of_blank (stall_frame b0 b1 0x83204C8F rfl) rfl]
    | (split <;> try (rename_i hp; with_reducible rw [Prod.ext_iff] at hp; have h' := hp.2; dsimp only at h'; subst h'))

theorem stepTwelve_wf (a0) (s : State) (h : memoriesWf s = true) : memoriesWf (stepTwelve a0 s) = true := by
  unfold stepTwelve
  repeat' first
    | with_reducible assumption
    | with_reducible rfl
    | (simp only [memoriesWf_mk]; refine and_four ?_ ?_ ?_ ?_)
    | with_reducible refine memWriteBytes_wf ?_ _ _
    | with_reducible refine memClear_wf ?_ _ _
    | with_reducible exact wf_nil _
    | with_reducible refine lz_wf ?_
    | with_reducible refine sram_wf ?_
    | with_reducible refine nor_wf ?_
    | with_reducible refine staging_wf ?_
    | (with_reducible refine foldl_wf ?_ _ _ ?_; intro s x hs)
    | simp only [outWf_next, takeFree, Option.elim, apply_ite outWf, apply_ite memoriesWf, apply_ite Prod.snd, ite_self, fun b0 => wf_of_blank (loadAlmanac_frame b0 0x83204C8E rfl) rfl, fun b0 b1 => wf_of_blank (logSize_frame b0 b1 0x83206C8E rfl) rfl, fun b0 b1 b2 b3 => wf_of_blank (record_frame b0 b1 b2 b3 0x83204C8E rfl) rfl, fun b0 b1 => wf_of_blank (settleMasks_frame b0 b1 0x83604C8E rfl) rfl, fun b0 b1 => wf_of_blank (stall_frame b0 b1 0x83204C8F rfl) rfl]
    | (split <;> try (rename_i hp; with_reducible rw [Prod.ext_iff] at hp; have h' := hp.2; dsimp only at h'; subst h'))

theorem newMap_wf (s : State) (h : memoriesWf s = true) : memoriesWf (newMap s) = true := by
  unfold newMap
  repeat' first
    | with_reducible assumption
    | with_reducible rfl
    | (simp only [memoriesWf_mk]; refine and_four ?_ ?_ ?_ ?_)
    | with_reducible refine memWriteBytes_wf ?_ _ _
    | with_reducible refine memClear_wf ?_ _ _
    | with_reducible exact wf_nil _
    | with_reducible refine lz_wf ?_
    | with_reducible refine sram_wf ?_
    | with_reducible refine nor_wf ?_
    | with_reducible refine staging_wf ?_
    | (with_reducible refine foldl_wf ?_ _ _ ?_; intro s x hs)
    | simp only [outWf_next, takeFree, Option.elim, apply_ite outWf, apply_ite memoriesWf, apply_ite Prod.snd, ite_self, fun b0 => wf_of_blank (drawKey_frame b0 0x10000 rfl) rfl]
    | (split <;> try (rename_i hp; with_reducible rw [Prod.ext_iff] at hp; have h' := hp.2; dsimp only at h'; subst h'))

theorem restoreSetting_wf (s : State) (a1) (h : memoriesWf s = true) : memoriesWf (restoreSetting s a1) = true := by
  unfold restoreSetting
  repeat' first
    | with_reducible assumption
    | with_reducible rfl
    | (simp only [memoriesWf_mk]; refine and_four ?_ ?_ ?_ ?_)
    | with_reducible refine memWriteBytes_wf ?_ _ _
    | with_reducible refine memClear_wf ?_ _ _
    | with_reducible exact wf_nil _
    | with_reducible refine lz_wf ?_
    | with_reducible refine sram_wf ?_
    | with_reducible refine nor_wf ?_
    | with_reducible refine staging_wf ?_
    | (with_reducible refine foldl_wf ?_ _ _ ?_; intro s x hs)
    | simp only [outWf_next, takeFree, Option.elim, apply_ite outWf, apply_ite memoriesWf, apply_ite Prod.snd, ite_self, fun b0 b1 b2 => wf_of_blank (drcWrite_frame b0 b1 b2 0x480000 rfl) rfl, fun b0 b1 b2 => wf_of_blank (xhlWrite_frame b0 b1 b2 0x83284C8F rfl) rfl]
    | (split <;> try (rename_i hp; with_reducible rw [Prod.ext_iff] at hp; have h' := hp.2; dsimp only at h'; subst h'))

theorem restoreSettings_wf (a0) (s : State) (h : memoriesWf s = true) : memoriesWf (restoreSettings a0 s) = true := by
  unfold restoreSettings
  repeat' first
    | with_reducible assumption
    | with_reducible rfl
    | with_reducible refine restoreSetting_wf _ _ ?_
    | (simp only [memoriesWf_mk]; refine and_four ?_ ?_ ?_ ?_)
    | with_reducible refine memWriteBytes_wf ?_ _ _
    | with_reducible refine memClear_wf ?_ _ _
    | with_reducible exact wf_nil _
    | with_reducible refine lz_wf ?_
    | with_reducible refine sram_wf ?_
    | with_reducible refine nor_wf ?_
    | with_reducible refine staging_wf ?_
    | (with_reducible refine foldl_wf ?_ _ _ ?_; intro s x hs)
    | simp only [outWf_next, takeFree, Option.elim, apply_ite outWf, apply_ite memoriesWf, apply_ite Prod.snd, ite_self, fun b0 b1 b2 b3 => wf_of_blank (record_frame b0 b1 b2 b3 0x83204C8E rfl) rfl]
    | (split <;> try (rename_i hp; with_reducible rw [Prod.ext_iff] at hp; have h' := hp.2; dsimp only at h'; subst h'))

theorem takeTables_wf (a0) (s : State) (h : memoriesWf s = true) : memoriesWf (takeTables a0 s) = true := by
  unfold takeTables
  repeat' first
    | with_reducible assumption
    | with_reducible rfl
    | (simp only [memoriesWf_mk]; refine and_four ?_ ?_ ?_ ?_)
    | with_reducible refine memWriteBytes_wf ?_ _ _
    | with_reducible refine memClear_wf ?_ _ _
    | with_reducible exact wf_nil _
    | with_reducible refine lz_wf ?_
    | with_reducible refine sram_wf ?_
    | with_reducible refine nor_wf ?_
    | with_reducible refine staging_wf ?_
    | (with_reducible refine foldl_wf ?_ _ _ ?_; intro s x hs)
    | simp only [outWf_next, takeFree, Option.elim, apply_ite outWf, apply_ite memoriesWf, apply_ite Prod.snd, ite_self]
    | (split <;> try (rename_i hp; with_reducible rw [Prod.ext_iff] at hp; have h' := hp.2; dsimp only at h'; subst h'))

theorem loadMap_wf (a0) (a1) (s : State) (h : memoriesWf s = true) : memoriesWf (loadMap a0 a1 s) = true := by
  unfold loadMap
  repeat' first
    | with_reducible assumption
    | with_reducible rfl
    | with_reducible refine restoreSettings_wf _ _ ?_
    | with_reducible refine takeTables_wf _ _ ?_
    | (simp only [memoriesWf_mk]; refine and_four ?_ ?_ ?_ ?_)
    | with_reducible refine memWriteBytes_wf ?_ _ _
    | with_reducible refine memClear_wf ?_ _ _
    | with_reducible exact wf_nil _
    | with_reducible refine lz_wf ?_
    | with_reducible refine sram_wf ?_
    | with_reducible refine nor_wf ?_
    | with_reducible refine staging_wf ?_
    | (with_reducible refine foldl_wf ?_ _ _ ?_; intro s x hs)
    | simp only [outWf_next, takeFree, Option.elim, apply_ite outWf, apply_ite memoriesWf, apply_ite Prod.snd, ite_self, fun b0 => wf_of_blank (absentLeave_frame b0 0x833C4C8E rfl) rfl, fun b0 b1 => wf_of_blank (ageLedger_frame b0 b1 0x80000 rfl) rfl, fun b0 b1 => wf_of_blank (replayAll_frame b0 b1 0x83386C8E rfl) rfl, fun b0 b1 => wf_of_blank (restoreKeys_frame b0 b1 0x83215C8E rfl) rfl, fun b0 b1 => wf_of_blank (resumeReshape_frame b0 b1 0x83304C8E rfl) rfl, fun b0 b1 b2 => wf_of_blank (resumeResync_frame b0 b1 b2 0x83304C8E rfl) rfl, fun b0 b1 b2 => wf_of_blank (suspectAtStart_frame b0 b1 b2 0x83284C8E rfl) rfl]
    | (split <;> try (rename_i hp; with_reducible rw [Prod.ext_iff] at hp; have h' := hp.2; dsimp only at h'; subst h'))

theorem stepThirteen_wf (a0) (a1) (s : State) (h : memoriesWf s = true) : memoriesWf (stepThirteen a0 a1 s).2 = true := by
  unfold stepThirteen
  repeat' first
    | with_reducible assumption
    | with_reducible rfl
    | with_reducible refine loadMap_wf _ _ _ ?_
    | with_reducible refine newMap_wf _ ?_
    | (simp only [memoriesWf_mk]; refine and_four ?_ ?_ ?_ ?_)
    | with_reducible refine memWriteBytes_wf ?_ _ _
    | with_reducible refine memClear_wf ?_ _ _
    | with_reducible exact wf_nil _
    | with_reducible refine lz_wf ?_
    | with_reducible refine sram_wf ?_
    | with_reducible refine nor_wf ?_
    | with_reducible refine staging_wf ?_
    | (with_reducible refine foldl_wf ?_ _ _ ?_; intro s x hs)
    | simp only [outWf_next, takeFree, Option.elim, apply_ite outWf, apply_ite memoriesWf, apply_ite Prod.snd, ite_self, fun b0 b1 b2 b3 => wf_of_blank (record_frame b0 b1 b2 b3 0x83204C8E rfl) rfl, fun b0 b1 => wf_of_blank (stall_frame b0 b1 0x83204C8F rfl) rfl]
    | (split <;> try (rename_i hp; with_reducible rw [Prod.ext_iff] at hp; have h' := hp.2; dsimp only at h'; subst h'))

theorem fromEight_wf (a0) (s : State) (h : memoriesWf s = true) : memoriesWf (fromEight a0 s).2 = true := by
  unfold fromEight
  repeat' first
    | with_reducible assumption
    | with_reducible rfl
    | with_reducible refine stepEight_wf _ _ ?_
    | with_reducible refine stepThirteen_wf _ _ _ ?_
    | with_reducible refine stepTwelve_wf _ _ ?_
    | (simp only [memoriesWf_mk]; refine and_four ?_ ?_ ?_ ?_)
    | with_reducible refine memWriteBytes_wf ?_ _ _
    | with_reducible refine memClear_wf ?_ _ _
    | with_reducible exact wf_nil _
    | with_reducible refine lz_wf ?_
    | with_reducible refine sram_wf ?_
    | with_reducible refine nor_wf ?_
    | with_reducible refine staging_wf ?_
    | (with_reducible refine foldl_wf ?_ _ _ ?_; intro s x hs)
    | simp only [outWf_next, takeFree, Option.elim, apply_ite outWf, apply_ite memoriesWf, apply_ite Prod.snd, ite_self, fun b0 => wf_of_blank (noteMedia_frame b0 0x1 rfl) rfl, fun b0 b1 => wf_of_blank (stepNine_frame b0 b1 0x83244C8F rfl) rfl]
    | (split <;> try (rename_i hp; with_reducible rw [Prod.ext_iff] at hp; have h' := hp.2; dsimp only at h'; subst h'))

theorem raiseTries_wf (s : State) (h : memoriesWf s = true) : memoriesWf (raiseTries s) = true := by
  unfold raiseTries
  repeat' first
    | with_reducible assumption
    | with_reducible rfl
    | with_reducible refine writeBoot_wf _ _ ?_
    | (simp only [memoriesWf_mk]; refine and_four ?_ ?_ ?_ ?_)
    | with_reducible refine memWriteBytes_wf ?_ _ _
    | with_reducible refine memClear_wf ?_ _ _
    | with_reducible exact wf_nil _
    | with_reducible refine lz_wf ?_
    | with_reducible refine sram_wf ?_
    | with_reducible refine nor_wf ?_
    | with_reducible refine staging_wf ?_
    | (with_reducible refine foldl_wf ?_ _ _ ?_; intro s x hs)
    | simp only [outWf_next, takeFree, Option.elim, apply_ite outWf, apply_ite memoriesWf, apply_ite Prod.snd, ite_self]
    | (split <;> try (rename_i hp; with_reducible rw [Prod.ext_iff] at hp; have h' := hp.2; dsimp only at h'; subst h'))

theorem runFirmware_wf (a0) (a1) (s : State) (h : memoriesWf s = true) : memoriesWf (runFirmware a0 a1 s) = true := by
  unfold runFirmware
  repeat' first
    | with_reducible assumption
    | with_reducible rfl
    | (simp only [memoriesWf_mk]; refine and_four ?_ ?_ ?_ ?_)
    | with_reducible refine memWriteBytes_wf ?_ _ _
    | with_reducible refine memClear_wf ?_ _ _
    | with_reducible exact wf_nil _
    | with_reducible refine lz_wf ?_
    | with_reducible refine sram_wf ?_
    | with_reducible refine nor_wf ?_
    | with_reducible refine staging_wf ?_
    | (with_reducible refine foldl_wf ?_ _ _ ?_; intro s x hs)
    | simp only [outWf_next, takeFree, Option.elim, apply_ite outWf, apply_ite memoriesWf, apply_ite Prod.snd, ite_self, fun b0 b1 b2 b3 => wf_of_blank (record_frame b0 b1 b2 b3 0x83204C8E rfl) rfl]
    | (split <;> try (rename_i hp; with_reducible rw [Prod.ext_iff] at hp; have h' := hp.2; dsimp only at h'; subst h'))

theorem stepSeven_wf (a0) (s : State) (h : memoriesWf s = true) : memoriesWf (stepSeven a0 s) = true := by
  unfold stepSeven
  repeat' first
    | with_reducible assumption
    | with_reducible rfl
    | with_reducible refine raiseTries_wf _ ?_
    | with_reducible refine runFirmware_wf _ _ _ ?_
    | (simp only [memoriesWf_mk]; refine and_four ?_ ?_ ?_ ?_)
    | with_reducible refine memWriteBytes_wf ?_ _ _
    | with_reducible refine memClear_wf ?_ _ _
    | with_reducible exact wf_nil _
    | with_reducible refine lz_wf ?_
    | with_reducible refine sram_wf ?_
    | with_reducible refine nor_wf ?_
    | with_reducible refine staging_wf ?_
    | (with_reducible refine foldl_wf ?_ _ _ ?_; intro s x hs)
    | simp only [outWf_next, takeFree, Option.elim, apply_ite outWf, apply_ite memoriesWf, apply_ite Prod.snd, ite_self, fun b0 b1 b2 b3 => wf_of_blank (record_frame b0 b1 b2 b3 0x83204C8E rfl) rfl, fun b0 b1 => wf_of_blank (stall_frame b0 b1 0x83204C8F rfl) rfl]
    | (split <;> try (rename_i hp; with_reducible rw [Prod.ext_iff] at hp; have h' := hp.2; dsimp only at h'; subst h'))

theorem fromFive_wf (a0) (a1) (a2) (s : State) (h : memoriesWf s = true) : memoriesWf (fromFive a0 a1 a2 s).2 = true := by
  unfold fromFive
  repeat' first
    | with_reducible assumption
    | with_reducible rfl
    | with_reducible refine fromEight_wf _ _ ?_
    | with_reducible refine stepSeven_wf _ _ ?_
    | (simp only [memoriesWf_mk]; refine and_four ?_ ?_ ?_ ?_)
    | with_reducible refine memWriteBytes_wf ?_ _ _
    | with_reducible refine memClear_wf ?_ _ _
    | with_reducible exact wf_nil _
    | with_reducible refine lz_wf ?_
    | with_reducible refine sram_wf ?_
    | with_reducible refine nor_wf ?_
    | with_reducible refine staging_wf ?_
    | (with_reducible refine foldl_wf ?_ _ _ ?_; intro s x hs)
    | simp only [outWf_next, takeFree, Option.elim, apply_ite outWf, apply_ite memoriesWf, apply_ite Prod.snd, ite_self, fun b0 b1 b2 => wf_of_blank (stepFive_frame b0 b1 b2 0x83E46CCE rfl) rfl]
    | (split <;> try (rename_i hp; with_reducible rw [Prod.ext_iff] at hp; have h' := hp.2; dsimp only at h'; subst h'))

theorem failProbation_wf (s : State) (h : memoriesWf s = true) : memoriesWf (failProbation s) = true := by
  unfold failProbation
  repeat' first
    | with_reducible assumption
    | with_reducible rfl
    | with_reducible refine norErase_wf _ _ _ ?_
    | with_reducible refine stepSeven_wf _ _ ?_
    | with_reducible refine writeBoot_wf _ _ ?_
    | (simp only [memoriesWf_mk]; refine and_four ?_ ?_ ?_ ?_)
    | with_reducible refine memWriteBytes_wf ?_ _ _
    | with_reducible refine memClear_wf ?_ _ _
    | with_reducible exact wf_nil _
    | with_reducible refine lz_wf ?_
    | with_reducible refine sram_wf ?_
    | with_reducible refine nor_wf ?_
    | with_reducible refine staging_wf ?_
    | (with_reducible refine foldl_wf ?_ _ _ ?_; intro s x hs)
    | simp only [outWf_next, takeFree, Option.elim, apply_ite outWf, apply_ite memoriesWf, apply_ite Prod.snd, ite_self, fun b0 b1 b2 b3 => wf_of_blank (record_frame b0 b1 b2 b3 0x83204C8E rfl) rfl]
    | (split <;> try (rename_i hp; with_reducible rw [Prod.ext_iff] at hp; have h' := hp.2; dsimp only at h'; subst h'))

theorem startRun_wf (a0) (a1) (a2) (a3) (a4) (s : State) (h : memoriesWf s = true) : memoriesWf (startRun a0 a1 a2 a3 a4 s) = true := by
  induction a0 generalizing s a1 a2 a3 with
  | zero => exact h
  | succ k ih =>
    rw [startRun]
    have hb := beginStart_wf a1 a2 a4 s h
    generalize beginStart a1 a2 a4 s = b at *
    have hu : memoriesWf { b with upd.fellBack := a3 } = true := by
      rw [memoriesWf_mk]
      exact and_four (lz_wf hb) (sram_wf hb) (nor_wf hb) (staging_wf hb)
    have h4 := wf_of_blank (stepFour_frame a4 { b with upd.fellBack := a3 } 0x83204caf rfl) rfl
    rw [hu] at h4
    generalize stepFour a4 { b with upd.fellBack := a3 } = r at *
    obtain ⟨c, t⟩ := r
    cases c with
    | none => exact h4
    | some c =>
      dsimp only
      have h5 := fromFive_wf a1 c a4 t h4
      generalize fromFive a1 c a4 t = r at *
      obtain ⟨b, u⟩ := r
      cases b with
      | false => exact h5
      | true =>
        dsimp only
        refine ih _ _ _ _ ((wf_of_blank (stopCount_frame _ 0x4 rfl) rfl).trans (failProbation_wf _ h5))

theorem endStageCfg_wf (a0) (a1) (s : State) (h : memoriesWf s = true) : memoriesWf (endStageCfg a0 a1 s) = true := by
  unfold endStageCfg
  repeat' first
    | with_reducible assumption
    | with_reducible rfl
    | with_reducible refine failProbation_wf _ ?_
    | with_reducible refine fromFive_wf _ _ _ _ ?_
    | with_reducible refine stageEnded_wf _ _ _ _ ?_
    | with_reducible refine stageFailed_wf _ _ ?_
    | with_reducible refine startRun_wf _ _ _ _ _ _ ?_
    | with_reducible refine writeBoot_wf _ _ ?_
    | (simp only [memoriesWf_mk]; refine and_four ?_ ?_ ?_ ?_)
    | with_reducible refine memWriteBytes_wf ?_ _ _
    | with_reducible refine memClear_wf ?_ _ _
    | with_reducible exact wf_nil _
    | with_reducible refine lz_wf ?_
    | with_reducible refine sram_wf ?_
    | with_reducible refine nor_wf ?_
    | with_reducible refine staging_wf ?_
    | (with_reducible refine foldl_wf ?_ _ _ ?_; intro s x hs)
    | simp only [outWf_next, takeFree, Option.elim, apply_ite outWf, apply_ite memoriesWf, apply_ite Prod.snd, ite_self, fun b0 => wf_of_blank (stopCount_frame b0 0x4 rfl) rfl]
    | (split <;> try (rename_i hp; with_reducible rw [Prod.ext_iff] at hp; have h' := hp.2; dsimp only at h'; subst h'))

theorem endStageFw_wf (a0) (s : State) (h : memoriesWf s = true) : memoriesWf (endStageFw a0 s) = true := by
  unfold endStageFw
  repeat' first
    | with_reducible assumption
    | with_reducible rfl
    | with_reducible refine stageEnded_wf _ _ _ _ ?_
    | with_reducible refine stageFailed_wf _ _ ?_
    | (simp only [memoriesWf_mk]; refine and_four ?_ ?_ ?_ ?_)
    | with_reducible refine memWriteBytes_wf ?_ _ _
    | with_reducible refine memClear_wf ?_ _ _
    | with_reducible exact wf_nil _
    | with_reducible refine lz_wf ?_
    | with_reducible refine sram_wf ?_
    | with_reducible refine nor_wf ?_
    | with_reducible refine staging_wf ?_
    | (with_reducible refine foldl_wf ?_ _ _ ?_; intro s x hs)
    | simp only [outWf_next, takeFree, Option.elim, apply_ite outWf, apply_ite memoriesWf, apply_ite Prod.snd, ite_self]
    | (split <;> try (rename_i hp; with_reducible rw [Prod.ext_iff] at hp; have h' := hp.2; dsimp only at h'; subst h'))

theorem raiseFloor_wf (a0) (s : State) (h : memoriesWf s = true) : memoriesWf (raiseFloor a0 s) = true := by
  unfold raiseFloor
  repeat' first
    | with_reducible assumption
    | with_reducible rfl
    | with_reducible refine copiesPut_wf _ _ ?_
    | (simp only [memoriesWf_mk]; refine and_four ?_ ?_ ?_ ?_)
    | with_reducible refine memWriteBytes_wf ?_ _ _
    | with_reducible refine memClear_wf ?_ _ _
    | with_reducible exact wf_nil _
    | with_reducible refine lz_wf ?_
    | with_reducible refine sram_wf ?_
    | with_reducible refine nor_wf ?_
    | with_reducible refine staging_wf ?_
    | (with_reducible refine foldl_wf ?_ _ _ ?_; intro s x hs)
    | simp only [outWf_next, takeFree, Option.elim, apply_ite outWf, apply_ite memoriesWf, apply_ite Prod.snd, ite_self]
    | (split <;> try (rename_i hp; with_reducible rw [Prod.ext_iff] at hp; have h' := hp.2; dsimp only at h'; subst h'))

theorem mirrorCfg_wf (s : State) (h : memoriesWf s = true) : memoriesWf (mirrorCfg s) = true := by
  unfold mirrorCfg
  repeat' first
    | with_reducible assumption
    | with_reducible rfl
    | with_reducible refine failProbation_wf _ ?_
    | with_reducible refine norErase_wf _ _ _ ?_
    | with_reducible refine norWrite_wf _ _ _ ?_
    | with_reducible refine raiseFloor_wf _ _ ?_
    | with_reducible refine writeBoot_wf _ _ ?_
    | (simp only [memoriesWf_mk]; refine and_four ?_ ?_ ?_ ?_)
    | with_reducible refine memWriteBytes_wf ?_ _ _
    | with_reducible refine memClear_wf ?_ _ _
    | with_reducible exact wf_nil _
    | with_reducible refine lz_wf ?_
    | with_reducible refine sram_wf ?_
    | with_reducible refine nor_wf ?_
    | with_reducible refine staging_wf ?_
    | (with_reducible refine foldl_wf ?_ _ _ ?_; intro s x hs)
    | simp only [outWf_next, takeFree, Option.elim, apply_ite outWf, apply_ite memoriesWf, apply_ite Prod.snd, ite_self]
    | (split <;> try (rename_i hp; with_reducible rw [Prod.ext_iff] at hp; have h' := hp.2; dsimp only at h'; subst h'))

theorem enterReady_wf (a0) (s : State) (h : memoriesWf s = true) : memoriesWf (enterReady a0 s) = true := by
  unfold enterReady
  have h0 : memoriesWf { s with glb.log := true } = true := by
    rw [memoriesWf_mk]
    exact and_four (lz_wf h) (sram_wf h) (nor_wf h) (staging_wf h)
  have h1 := (wf_of_blank (settleStart_frame { s with glb.log := true } 0x202001 rfl) rfl).trans h0
  dsimp only
  generalize settleStart { s with glb.log := true } = t at *
  have h2 : memoriesWf { t with glb.mode := .ready, glb.service := true } = true := by
    rw [memoriesWf_mk]
    exact and_four (lz_wf h1) (sram_wf h1) (nor_wf h1) (staging_wf h1)
  have h3 := (wf_of_blank (record_frame 0x0308 bootSrc [a0] { t with glb.mode := .ready, glb.service := true } 0x83204c8e rfl) rfl).trans h2
  generalize record 0x0308 bootSrc [a0] { t with glb.mode := .ready, glb.service := true } = u at *
  generalize 10 ^ 9 = k
  have h4 : memoriesWf (if probationRuns u then { u with upd.probEnd := now u + u.upd.probationS * k, upd.restarts := 0 } else u) = true := by
    split
    · rw [memoriesWf_mk]
      exact and_four (lz_wf h3) (sram_wf h3) (nor_wf h3) (staging_wf h3)
    · exact h3
  generalize (if probationRuns u then { u with upd.probEnd := now u + u.upd.probationS * k, upd.restarts := 0 } else u) = w at *
  repeat' first
    | with_reducible assumption
    | with_reducible rfl
    | with_reducible refine mirrorCfg_wf _ ?_
    | (simp only [memoriesWf_mk]; refine and_four ?_ ?_ ?_ ?_)
    | with_reducible refine memWriteBytes_wf ?_ _ _
    | with_reducible refine memClear_wf ?_ _ _
    | with_reducible exact wf_nil _
    | with_reducible refine lz_wf ?_
    | with_reducible refine sram_wf ?_
    | with_reducible refine nor_wf ?_
    | with_reducible refine staging_wf ?_
    | (with_reducible refine foldl_wf ?_ _ _ ?_; intro s x hs)
    | simp only [outWf_next, takeFree, Option.elim, apply_ite outWf, apply_ite memoriesWf, apply_ite Prod.snd, ite_self, fun b0 b1 b2 b3 => wf_of_blank (record_frame b0 b1 b2 b3 0x83204C8E rfl) rfl, fun b0 => wf_of_blank (settleStart_frame b0 0x202001 rfl) rfl, fun b0 => wf_of_blank (writeAnchors_frame b0 0x833C4C8E rfl) rfl]
    | (split <;> try (rename_i hp; with_reducible rw [Prod.ext_iff] at hp; have h' := hp.2; dsimp only at h'; subst h'))

theorem execAlmanacClear_wf (a0) (s : State) (h : memoriesWf s = true) : outWf (execAlmanacClear a0 s) := by
  unfold execAlmanacClear
  repeat' first
    | with_reducible assumption
    | with_reducible rfl
    | with_reducible refine almClear_wf _ _ ?_
    | (simp only [memoriesWf_mk]; refine and_four ?_ ?_ ?_ ?_)
    | with_reducible refine memWriteBytes_wf ?_ _ _
    | with_reducible refine memClear_wf ?_ _ _
    | with_reducible exact wf_nil _
    | with_reducible refine lz_wf ?_
    | with_reducible refine sram_wf ?_
    | with_reducible refine nor_wf ?_
    | with_reducible refine staging_wf ?_
    | (with_reducible refine foldl_wf ?_ _ _ ?_; intro s x hs)
    | simp only [outWf_next, takeFree, Option.elim, apply_ite outWf, apply_ite memoriesWf, apply_ite Prod.snd, ite_self]
    | (split <;> try (rename_i hp; with_reducible rw [Prod.ext_iff] at hp; have h' := hp.2; dsimp only at h'; subst h'))

theorem readMapped_wf (a0) (a1) (a2) (a3) (a4) (s : State) (h : memoriesWf s = true) : memoriesWf (readMapped a0 a1 a2 a3 a4 s).2 = true := by
  unfold readMapped
  repeat' first
    | with_reducible assumption
    | with_reducible rfl
    | with_reducible refine readStored_wf _ _ _ _ _ _ _ _ ?_
    | (simp only [memoriesWf_mk]; refine and_four ?_ ?_ ?_ ?_)
    | with_reducible refine memWriteBytes_wf ?_ _ _
    | with_reducible refine memClear_wf ?_ _ _
    | with_reducible exact wf_nil _
    | with_reducible refine lz_wf ?_
    | with_reducible refine sram_wf ?_
    | with_reducible refine nor_wf ?_
    | with_reducible refine staging_wf ?_
    | (with_reducible refine foldl_wf ?_ _ _ ?_; intro s x hs)
    | simp only [outWf_next, takeFree, Option.elim, apply_ite outWf, apply_ite memoriesWf, apply_ite Prod.snd, ite_self]
    | (split <;> try (rename_i hp; with_reducible rw [Prod.ext_iff] at hp; have h' := hp.2; dsimp only at h'; subst h'))

theorem startAssembly_wf (a0) (a1) (a2) (a3) (s : State) (h : memoriesWf s = true) : memoriesWf (startAssembly a0 a1 a2 a3 s) = true := by
  unfold startAssembly
  repeat' first
    | with_reducible assumption
    | with_reducible rfl
    | with_reducible refine readMapped_wf _ _ _ _ _ _ ?_
    | (simp only [memoriesWf_mk]; refine and_four ?_ ?_ ?_ ?_)
    | with_reducible refine memWriteBytes_wf ?_ _ _
    | with_reducible refine memClear_wf ?_ _ _
    | with_reducible exact wf_nil _
    | with_reducible refine lz_wf ?_
    | with_reducible refine sram_wf ?_
    | with_reducible refine nor_wf ?_
    | with_reducible refine staging_wf ?_
    | (with_reducible refine foldl_wf ?_ _ _ ?_; intro s x hs)
    | simp only [outWf_next, takeFree, Option.elim, apply_ite outWf, apply_ite memoriesWf, apply_ite Prod.snd, ite_self, fun b0 b1 => wf_of_blank (handoffFail_frame b0 b1 0x8320EC8E rfl) rfl]
    | (split <;> try (rename_i hp; with_reducible rw [Prod.ext_iff] at hp; have h' := hp.2; dsimp only at h'; subst h'))

theorem execAssemblyDelayExpiry_wf (a0) (a1) (a2) (a3) (s : State) (h : memoriesWf s = true) : outWf (execAssemblyDelayExpiry a0 a1 a2 a3 s) := by
  unfold execAssemblyDelayExpiry
  repeat' first
    | with_reducible assumption
    | with_reducible rfl
    | with_reducible refine startAssembly_wf _ _ _ _ _ ?_
    | (simp only [memoriesWf_mk]; refine and_four ?_ ?_ ?_ ?_)
    | with_reducible refine memWriteBytes_wf ?_ _ _
    | with_reducible refine memClear_wf ?_ _ _
    | with_reducible exact wf_nil _
    | with_reducible refine lz_wf ?_
    | with_reducible refine sram_wf ?_
    | with_reducible refine nor_wf ?_
    | with_reducible refine staging_wf ?_
    | (with_reducible refine foldl_wf ?_ _ _ ?_; intro s x hs)
    | simp only [outWf_next, takeFree, Option.elim, apply_ite outWf, apply_ite memoriesWf, apply_ite Prod.snd, ite_self]
    | (split <;> try (rename_i hp; with_reducible rw [Prod.ext_iff] at hp; have h' := hp.2; dsimp only at h'; subst h'))

theorem startCopy_wf (a0) (a1) (a2) (s : State) (h : memoriesWf s = true) : memoriesWf (startCopy a0 a1 a2 s) = true := by
  unfold startCopy
  repeat' first
    | with_reducible assumption
    | with_reducible rfl
    | with_reducible refine readMapped_wf _ _ _ _ _ _ ?_
    | with_reducible refine startAssembly_wf _ _ _ _ _ ?_
    | (simp only [memoriesWf_mk]; refine and_four ?_ ?_ ?_ ?_)
    | with_reducible refine memWriteBytes_wf ?_ _ _
    | with_reducible refine memClear_wf ?_ _ _
    | with_reducible exact wf_nil _
    | with_reducible refine lz_wf ?_
    | with_reducible refine sram_wf ?_
    | with_reducible refine nor_wf ?_
    | with_reducible refine staging_wf ?_
    | (with_reducible refine foldl_wf ?_ _ _ ?_; intro s x hs)
    | simp only [outWf_next, takeFree, Option.elim, apply_ite outWf, apply_ite memoriesWf, apply_ite Prod.snd, ite_self]
    | (split <;> try (rename_i hp; with_reducible rw [Prod.ext_iff] at hp; have h' := hp.2; dsimp only at h'; subst h'))

theorem execAssemblyStart_wf (a0) (a1) (a2) (a3) (s : State) (h : memoriesWf s = true) : outWf (execAssemblyStart a0 a1 a2 a3 s) := by
  unfold execAssemblyStart
  repeat' first
    | with_reducible assumption
    | with_reducible rfl
    | with_reducible refine startAssembly_wf _ _ _ _ _ ?_
    | with_reducible refine startCopy_wf _ _ _ _ ?_
    | (simp only [memoriesWf_mk]; refine and_four ?_ ?_ ?_ ?_)
    | with_reducible refine memWriteBytes_wf ?_ _ _
    | with_reducible refine memClear_wf ?_ _ _
    | with_reducible exact wf_nil _
    | with_reducible refine lz_wf ?_
    | with_reducible refine sram_wf ?_
    | with_reducible refine nor_wf ?_
    | with_reducible refine staging_wf ?_
    | (with_reducible refine foldl_wf ?_ _ _ ?_; intro s x hs)
    | simp only [outWf_next, takeFree, Option.elim, apply_ite outWf, apply_ite memoriesWf, apply_ite Prod.snd, ite_self]
    | (split <;> try (rename_i hp; with_reducible rw [Prod.ext_iff] at hp; have h' := hp.2; dsimp only at h'; subst h'))

theorem readChunkPart_wf (a0) (a1) (a2) (a3) (a4) (a5) (a6) (s : State) (h : memoriesWf s = true) : memoriesWf (readChunkPart a0 a1 a2 a3 a4 a5 a6 s).2 = true := by
  unfold readChunkPart
  repeat' first
    | with_reducible assumption
    | with_reducible rfl
    | with_reducible refine readMapped_wf _ _ _ _ _ _ ?_
    | (simp only [memoriesWf_mk]; refine and_four ?_ ?_ ?_ ?_)
    | with_reducible refine memWriteBytes_wf ?_ _ _
    | with_reducible refine memClear_wf ?_ _ _
    | with_reducible exact wf_nil _
    | with_reducible refine lz_wf ?_
    | with_reducible refine sram_wf ?_
    | with_reducible refine nor_wf ?_
    | with_reducible refine staging_wf ?_
    | (with_reducible refine foldl_wf ?_ _ _ ?_; intro s x hs)
    | simp only [outWf_next, takeFree, Option.elim, apply_ite outWf, apply_ite memoriesWf, apply_ite Prod.snd, ite_self]
    | (split <;> try (rename_i hp; with_reducible rw [Prod.ext_iff] at hp; have h' := hp.2; dsimp only at h'; subst h'))

theorem readRange_wf (a0) (a1) (a2) (a3) (a4) (a5) (s : State) (h : memoriesWf s = true) : memoriesWf (readRange a0 a1 a2 a3 a4 a5 s).2 = true := by
  have key : ∀ (l : List Nat) (acc : List SectorRead × State), memoriesWf acc.2 = true →
      memoriesWf (l.foldl (fun (acc : List SectorRead × State) i =>
        (acc.1 ++ (readChunkPart a0 a1 (a3 / 8 + i) a2 a3 a4 a5 acc.2).1, (readChunkPart a0 a1 (a3 / 8 + i) a2 a3 a4 a5 acc.2).2)) acc).2 =
      true := by
    intro l
    induction l with
    | nil => exact fun _ hp => hp
    | cons x l ih => exact fun acc hp => ih _ (readChunkPart_wf a0 a1 (a3 / 8 + x) a2 a3 a4 a5 acc.2 hp)
  exact key _ _ h

theorem putOut_wf (a0) (a1) (a2) (a3) (s : State) (h : memoriesWf s = true) : memoriesWf (putOut a0 a1 a2 a3 s) = true := by
  unfold putOut
  repeat' first
    | with_reducible assumption
    | with_reducible rfl
    | with_reducible refine deliver_wf _ _ _ _ ?_
    | (simp only [memoriesWf_mk]; refine and_four ?_ ?_ ?_ ?_)
    | with_reducible refine memWriteBytes_wf ?_ _ _
    | with_reducible refine memClear_wf ?_ _ _
    | with_reducible exact wf_nil _
    | with_reducible refine lz_wf ?_
    | with_reducible refine sram_wf ?_
    | with_reducible refine nor_wf ?_
    | with_reducible refine staging_wf ?_
    | (with_reducible refine foldl_wf ?_ _ _ ?_; intro s x hs)
    | simp only [outWf_next, takeFree, Option.elim, apply_ite outWf, apply_ite memoriesWf, apply_ite Prod.snd, ite_self, fun b0 b1 b2 b3 b4 b5 => wf_of_blank (xhlSend_frame b0 b1 b2 b3 b4 b5 0x80200002 rfl) rfl]
    | (split <;> try (rename_i hp; with_reducible rw [Prod.ext_iff] at hp; have h' := hp.2; dsimp only at h'; subst h'))

theorem runRead_wf (a0) (a1) (s : State) (h : memoriesWf s = true) : memoriesWf (runRead a0 a1 s) = true := by
  unfold runRead
  repeat' first
    | with_reducible assumption
    | with_reducible rfl
    | with_reducible refine putOut_wf _ _ _ _ _ ?_
    | with_reducible refine readRange_wf _ _ _ _ _ _ _ ?_
    | (simp only [memoriesWf_mk]; refine and_four ?_ ?_ ?_ ?_)
    | with_reducible refine memWriteBytes_wf ?_ _ _
    | with_reducible refine memClear_wf ?_ _ _
    | with_reducible exact wf_nil _
    | with_reducible refine lz_wf ?_
    | with_reducible refine sram_wf ?_
    | with_reducible refine nor_wf ?_
    | with_reducible refine staging_wf ?_
    | (with_reducible refine foldl_wf ?_ _ _ ?_; intro s x hs)
    | simp only [outWf_next, takeFree, Option.elim, apply_ite outWf, apply_ite memoriesWf, apply_ite Prod.snd, ite_self, fun b0 b1 b2 b3 b4 => wf_of_blank (endCmd_frame b0 b1 b2 b3 b4 0x83204C8E rfl) rfl]
    | (split <;> try (rename_i hp; with_reducible rw [Prod.ext_iff] at hp; have h' := hp.2; dsimp only at h'; subst h'))

theorem runFixity_wf (a0) (a1) (s : State) (h : memoriesWf s = true) : memoriesWf (runFixity a0 a1 s) = true := by
  unfold runFixity
  repeat' first
    | with_reducible assumption
    | with_reducible rfl
    | with_reducible refine readRange_wf _ _ _ _ _ _ _ ?_
    | with_reducible refine runRead_wf _ _ _ ?_
    | (simp only [memoriesWf_mk]; refine and_four ?_ ?_ ?_ ?_)
    | with_reducible refine memWriteBytes_wf ?_ _ _
    | with_reducible refine memClear_wf ?_ _ _
    | with_reducible exact wf_nil _
    | with_reducible refine lz_wf ?_
    | with_reducible refine sram_wf ?_
    | with_reducible refine nor_wf ?_
    | with_reducible refine staging_wf ?_
    | (with_reducible refine foldl_wf ?_ _ _ ?_; intro s x hs)
    | simp only [outWf_next, takeFree, Option.elim, apply_ite outWf, apply_ite memoriesWf, apply_ite Prod.snd, ite_self, fun b0 b1 b2 => wf_of_blank (digClear_frame b0 b1 b2 0x83224C8E rfl) rfl, fun b0 b1 b2 b3 b4 => wf_of_blank (endCmd_frame b0 b1 b2 b3 b4 0x83204C8E rfl) rfl, fun b0 b1 b2 => wf_of_blank (setCmdState_frame b0 b1 b2 0x400 rfl) rfl]
    | (split <;> try (rename_i hp; with_reducible rw [Prod.ext_iff] at hp; have h' := hp.2; dsimp only at h'; subst h'))

theorem runQuery_wf (a0) (s : State) (h : memoriesWf s = true) : memoriesWf (runQuery a0 s) = true := by
  unfold runQuery
  repeat' first
    | with_reducible assumption
    | with_reducible rfl
    | with_reducible refine putOut_wf _ _ _ _ _ ?_
    | (simp only [memoriesWf_mk]; refine and_four ?_ ?_ ?_ ?_)
    | with_reducible refine memWriteBytes_wf ?_ _ _
    | with_reducible refine memClear_wf ?_ _ _
    | with_reducible exact wf_nil _
    | with_reducible refine lz_wf ?_
    | with_reducible refine sram_wf ?_
    | with_reducible refine nor_wf ?_
    | with_reducible refine staging_wf ?_
    | (with_reducible refine foldl_wf ?_ _ _ ?_; intro s x hs)
    | simp only [outWf_next, takeFree, Option.elim, apply_ite outWf, apply_ite memoriesWf, apply_ite Prod.snd, ite_self, fun b0 b1 b2 b3 b4 => wf_of_blank (endCmd_frame b0 b1 b2 b3 b4 0x83204C8E rfl) rfl]
    | (split <;> try (rename_i hp; with_reducible rw [Prod.ext_iff] at hp; have h' := hp.2; dsimp only at h'; subst h'))

theorem runQueryDevice_wf (a0) (s : State) (h : memoriesWf s = true) : memoriesWf (runQueryDevice a0 s) = true := by
  unfold runQueryDevice
  repeat' first
    | with_reducible assumption
    | with_reducible rfl
    | with_reducible refine putOut_wf _ _ _ _ _ ?_
    | (simp only [memoriesWf_mk]; refine and_four ?_ ?_ ?_ ?_)
    | with_reducible refine memWriteBytes_wf ?_ _ _
    | with_reducible refine memClear_wf ?_ _ _
    | with_reducible exact wf_nil _
    | with_reducible refine lz_wf ?_
    | with_reducible refine sram_wf ?_
    | with_reducible refine nor_wf ?_
    | with_reducible refine staging_wf ?_
    | (with_reducible refine foldl_wf ?_ _ _ ?_; intro s x hs)
    | simp only [outWf_next, takeFree, Option.elim, apply_ite outWf, apply_ite memoriesWf, apply_ite Prod.snd, ite_self, fun b0 b1 b2 b3 b4 => wf_of_blank (endCmd_frame b0 b1 b2 b3 b4 0x83204C8E rfl) rfl]
    | (split <;> try (rename_i hp; with_reducible rw [Prod.ext_iff] at hp; have h' := hp.2; dsimp only at h'; subst h'))

theorem runCmd_wf (a0) (a1) (s : State) (h : memoriesWf s = true) : memoriesWf (runCmd a0 a1 s) = true := by
  unfold runCmd
  repeat' first
    | with_reducible assumption
    | with_reducible rfl
    | with_reducible refine runFixity_wf _ _ _ ?_
    | with_reducible refine runQuery_wf _ _ ?_
    | with_reducible refine runQueryDevice_wf _ _ ?_
    | with_reducible refine runRead_wf _ _ _ ?_
    | (simp only [memoriesWf_mk]; refine and_four ?_ ?_ ?_ ?_)
    | with_reducible refine memWriteBytes_wf ?_ _ _
    | with_reducible refine memClear_wf ?_ _ _
    | with_reducible exact wf_nil _
    | with_reducible refine lz_wf ?_
    | with_reducible refine sram_wf ?_
    | with_reducible refine nor_wf ?_
    | with_reducible refine staging_wf ?_
    | (with_reducible refine foldl_wf ?_ _ _ ?_; intro s x hs)
    | simp only [outWf_next, takeFree, Option.elim, apply_ite outWf, apply_ite memoriesWf, apply_ite Prod.snd, ite_self, fun b0 b1 => wf_of_blank (reserveOrHold_frame b0 b1 0x83206C8E rfl) rfl, fun b0 b1 => wf_of_blank (runAsync_frame b0 b1 0x83204C8E rfl) rfl, fun b0 b1 => wf_of_blank (runClone_frame b0 b1 0x83384C8E rfl) rfl, fun b0 b1 => wf_of_blank (runCreateQueue_frame b0 b1 0x83204C8E rfl) rfl, fun b0 b1 => wf_of_blank (runCreateVolume_frame b0 b1 0x83295C8E rfl) rfl, fun b0 b1 => wf_of_blank (runDeleteQueue_frame b0 b1 0x83204C8E rfl) rfl, fun b0 b1 => wf_of_blank (runDeleteVolume_frame b0 b1 0x83396C8E rfl) rfl, fun b0 b1 => wf_of_blank (runDiscard_frame b0 b1 0x83384C8E rfl) rfl, fun b0 b1 => wf_of_blank (runFlush_frame b0 b1 0x83204C8E rfl) rfl, fun b0 b1 => wf_of_blank (runHint_frame b0 b1 0x83284C8E rfl) rfl, fun b0 b1 => wf_of_blank (runPowerHint_frame b0 b1 0x83204C8E rfl) rfl, fun b0 b1 => wf_of_blank (runResetQueue_frame b0 b1 0x83204C8E rfl) rfl, fun b0 b1 => wf_of_blank (runRetain_frame b0 b1 0x83284C8E rfl) rfl, fun b0 b1 => wf_of_blank (runSetPeriod_frame b0 b1 0x83204C8E rfl) rfl, fun b0 b1 => wf_of_blank (runSetTime_frame b0 b1 0x83204C8E rfl) rfl, fun b0 b1 => wf_of_blank (runSnapDelete_frame b0 b1 0x83204C8E rfl) rfl, fun b0 b1 => wf_of_blank (runSnapshot_frame b0 b1 0x83204C8E rfl) rfl]
    | (split <;> try (rename_i hp; with_reducible rw [Prod.ext_iff] at hp; have h' := hp.2; dsimp only at h'; subst h'))

theorem ownerRun_wf (a0) (a1) (a2) (s : State) (h : memoriesWf s = true) : memoriesWf (ownerRun a0 a1 a2 s) = true := by
  unfold ownerRun
  repeat' first
    | with_reducible assumption
    | with_reducible rfl
    | with_reducible refine runCmd_wf _ _ _ ?_
    | (simp only [memoriesWf_mk]; refine and_four ?_ ?_ ?_ ?_)
    | with_reducible refine memWriteBytes_wf ?_ _ _
    | with_reducible refine memClear_wf ?_ _ _
    | with_reducible exact wf_nil _
    | with_reducible refine lz_wf ?_
    | with_reducible refine sram_wf ?_
    | with_reducible refine nor_wf ?_
    | with_reducible refine staging_wf ?_
    | (with_reducible refine foldl_wf ?_ _ _ ?_; intro s x hs)
    | simp only [outWf_next, takeFree, Option.elim, apply_ite outWf, apply_ite memoriesWf, apply_ite Prod.snd, ite_self, fun b0 b1 b2 b3 b4 => wf_of_blank (endCmd_frame b0 b1 b2 b3 b4 0x83204C8E rfl) rfl, fun b0 b1 b2 b3 => wf_of_blank (record_frame b0 b1 b2 b3 0x83204C8E rfl) rfl, fun b0 b1 b2 => wf_of_blank (setCmdState_frame b0 b1 b2 0x400 rfl) rfl]
    | (split <;> try (rename_i hp; with_reducible rw [Prod.ext_iff] at hp; have h' := hp.2; dsimp only at h'; subst h'))

theorem startListed_wf (a0) (a1) (a2) (s : State) (h : memoriesWf s = true) : memoriesWf (startListed a0 a1 a2 s) = true := by
  unfold startListed
  repeat' first
    | with_reducible assumption
    | with_reducible rfl
    | with_reducible refine ownerRun_wf _ _ _ _ ?_
    | (simp only [memoriesWf_mk]; refine and_four ?_ ?_ ?_ ?_)
    | with_reducible refine memWriteBytes_wf ?_ _ _
    | with_reducible refine memClear_wf ?_ _ _
    | with_reducible exact wf_nil _
    | with_reducible refine lz_wf ?_
    | with_reducible refine sram_wf ?_
    | with_reducible refine nor_wf ?_
    | with_reducible refine staging_wf ?_
    | (with_reducible refine foldl_wf ?_ _ _ ?_; intro s x hs)
    | simp only [outWf_next, takeFree, Option.elim, apply_ite outWf, apply_ite memoriesWf, apply_ite Prod.snd, ite_self, fun b0 b1 b2 b3 b4 => wf_of_blank (endCmd_frame b0 b1 b2 b3 b4 0x83204C8E rfl) rfl, fun b0 b1 => wf_of_blank (forwardCmd_frame b0 b1 0x80200482 rfl) rfl, fun b0 b1 b2 => wf_of_blank (setCmdState_frame b0 b1 b2 0x400 rfl) rfl]
    | (split <;> try (rename_i hp; with_reducible rw [Prod.ext_iff] at hp; have h' := hp.2; dsimp only at h'; subst h'))

theorem startCmd_wf (a0) (a1) (s : State) (h : memoriesWf s = true) : memoriesWf (startCmd a0 a1 s) = true := by
  unfold startCmd
  repeat' first
    | with_reducible assumption
    | with_reducible rfl
    | with_reducible refine runRead_wf _ _ _ ?_
    | with_reducible refine startListed_wf _ _ _ _ ?_
    | (simp only [memoriesWf_mk]; refine and_four ?_ ?_ ?_ ?_)
    | with_reducible refine memWriteBytes_wf ?_ _ _
    | with_reducible refine memClear_wf ?_ _ _
    | with_reducible exact wf_nil _
    | with_reducible refine lz_wf ?_
    | with_reducible refine sram_wf ?_
    | with_reducible refine nor_wf ?_
    | with_reducible refine staging_wf ?_
    | (with_reducible refine foldl_wf ?_ _ _ ?_; intro s x hs)
    | simp only [outWf_next, takeFree, Option.elim, apply_ite outWf, apply_ite memoriesWf, apply_ite Prod.snd, ite_self, fun b0 b1 b2 b3 b4 => wf_of_blank (endCmd_frame b0 b1 b2 b3 b4 0x83204C8E rfl) rfl, fun b0 b1 b2 b3 b4 => wf_of_blank (listReadReq_frame b0 b1 b2 b3 b4 0x80000480 rfl) rfl, fun b0 b1 b2 => wf_of_blank (setCmdState_frame b0 b1 b2 0x400 rfl) rfl]
    | (split <;> try (rename_i hp; with_reducible rw [Prod.ext_iff] at hp; have h' := hp.2; dsimp only at h'; subst h'))

theorem listArrived_wf (a0) (a1) (a2) (a3) (a4) (s : State) (h : memoriesWf s = true) : memoriesWf (listArrived a0 a1 a2 a3 a4 s) = true := by
  unfold listArrived
  repeat' first
    | with_reducible assumption
    | with_reducible rfl
    | with_reducible refine startListed_wf _ _ _ _ ?_
    | (simp only [memoriesWf_mk]; refine and_four ?_ ?_ ?_ ?_)
    | with_reducible refine memWriteBytes_wf ?_ _ _
    | with_reducible refine memClear_wf ?_ _ _
    | with_reducible exact wf_nil _
    | with_reducible refine lz_wf ?_
    | with_reducible refine sram_wf ?_
    | with_reducible refine nor_wf ?_
    | with_reducible refine staging_wf ?_
    | (with_reducible refine foldl_wf ?_ _ _ ?_; intro s x hs)
    | simp only [outWf_next, takeFree, Option.elim, apply_ite outWf, apply_ite memoriesWf, apply_ite Prod.snd, ite_self, fun b0 b1 b2 => wf_of_blank (readsDone_frame b0 b1 b2 0x80000480 rfl) rfl, fun b0 b1 b2 => wf_of_blank (setCmdState_frame b0 b1 b2 0x400 rfl) rfl]
    | (split <;> try (rename_i hp; with_reducible rw [Prod.ext_iff] at hp; have h' := hp.2; dsimp only at h'; subst h'))

theorem fetched_wf (a0) (a1) (a2) (a3) (a4) (a5) (s : State) (h : memoriesWf s = true) : outWf (fetched a0 a1 a2 a3 a4 a5 s) := by
  unfold fetched
  repeat' first
    | with_reducible assumption
    | with_reducible rfl
    | with_reducible refine listArrived_wf _ _ _ _ _ _ ?_
    | with_reducible refine startCmd_wf _ _ _ ?_
    | (simp only [memoriesWf_mk]; refine and_four ?_ ?_ ?_ ?_)
    | with_reducible refine memWriteBytes_wf ?_ _ _
    | with_reducible refine memClear_wf ?_ _ _
    | with_reducible exact wf_nil _
    | with_reducible refine lz_wf ?_
    | with_reducible refine sram_wf ?_
    | with_reducible refine nor_wf ?_
    | with_reducible refine staging_wf ?_
    | (with_reducible refine foldl_wf ?_ _ _ ?_; intro s x hs)
    | simp only [outWf_next, takeFree, Option.elim, apply_ite outWf, apply_ite memoriesWf, apply_ite Prod.snd, ite_self, fun b0 b1 b2 b3 => wf_of_blank (fetchCmd_frame b0 b1 b2 b3 0x80000480 rfl) rfl, fun b0 b1 b2 b3 b4 b5 => wf_of_blank (finish_frame b0 b1 b2 b3 b4 b5 0x83204C8E rfl) rfl]
    | (split <;> try (rename_i hp; with_reducible rw [Prod.ext_iff] at hp; have h' := hp.2; dsimp only at h'; subst h'))

theorem execAsyncEvent_wf (a0) (a1) (a2) (s : State) (h : memoriesWf s = true) : outWf (execAsyncEvent a0 a1 a2 s) := by
  unfold execAsyncEvent
  repeat' first
    | with_reducible assumption
    | with_reducible rfl
    | with_reducible refine fetched_wf _ _ _ _ _ _ _ ?_
    | (simp only [memoriesWf_mk]; refine and_four ?_ ?_ ?_ ?_)
    | with_reducible refine memWriteBytes_wf ?_ _ _
    | with_reducible refine memClear_wf ?_ _ _
    | with_reducible exact wf_nil _
    | with_reducible refine lz_wf ?_
    | with_reducible refine sram_wf ?_
    | with_reducible refine nor_wf ?_
    | with_reducible refine staging_wf ?_
    | (with_reducible refine foldl_wf ?_ _ _ ?_; intro s x hs)
    | simp only [outWf_next, takeFree, Option.elim, apply_ite outWf, apply_ite memoriesWf, apply_ite Prod.snd, ite_self]
    | (split <;> try (rename_i hp; with_reducible rw [Prod.ext_iff] at hp; have h' := hp.2; dsimp only at h'; subst h'))

theorem execAvsMarginFail_wf (s : State) (h : memoriesWf s = true) : outWf (execAvsMarginFail s) := by
  unfold execAvsMarginFail
  repeat' first
    | with_reducible assumption
    | with_reducible rfl
    | with_reducible refine failstop_wf _ _ _ ?_
    | (simp only [memoriesWf_mk]; refine and_four ?_ ?_ ?_ ?_)
    | with_reducible refine memWriteBytes_wf ?_ _ _
    | with_reducible refine memClear_wf ?_ _ _
    | with_reducible exact wf_nil _
    | with_reducible refine lz_wf ?_
    | with_reducible refine sram_wf ?_
    | with_reducible refine nor_wf ?_
    | with_reducible refine staging_wf ?_
    | (with_reducible refine foldl_wf ?_ _ _ ?_; intro s x hs)
    | simp only [outWf_next, takeFree, Option.elim, apply_ite outWf, apply_ite memoriesWf, apply_ite Prod.snd, ite_self]
    | (split <;> try (rename_i hp; with_reducible rw [Prod.ext_iff] at hp; have h' := hp.2; dsimp only at h'; subst h'))

theorem flushCommit_wf (a0) (s : State) (h : memoriesWf s = true) : memoriesWf (flushCommit a0 s) = true := by
  unfold flushCommit
  repeat' first
    | with_reducible assumption
    | with_reducible rfl
    | with_reducible refine almSaveAll_wf _ ?_
    | (simp only [memoriesWf_mk]; refine and_four ?_ ?_ ?_ ?_)
    | with_reducible refine memWriteBytes_wf ?_ _ _
    | with_reducible refine memClear_wf ?_ _ _
    | with_reducible exact wf_nil _
    | with_reducible refine lz_wf ?_
    | with_reducible refine sram_wf ?_
    | with_reducible refine nor_wf ?_
    | with_reducible refine staging_wf ?_
    | (with_reducible refine foldl_wf ?_ _ _ ?_; intro s x hs)
    | simp only [outWf_next, takeFree, Option.elim, apply_ite outWf, apply_ite memoriesWf, apply_ite Prod.snd, ite_self, fun b0 => wf_of_blank (dropHolds_frame b0 0x83206C8E rfl) rfl, fun b0 => wf_of_blank (leaveIdle_frame b0 0x80800482 rfl) rfl, fun b0 b1 b2 b3 => wf_of_blank (record_frame b0 b1 b2 b3 0x83204C8E rfl) rfl, fun b0 => wf_of_blank (stopMaintenance_frame b0 0x100000 rfl) rfl, fun b0 => wf_of_blank (stopReduce_frame b0 0x80306002 rfl) rfl, fun b0 b1 b2 b3 b4 b5 => wf_of_blank (xhlSend_frame b0 b1 b2 b3 b4 b5 0x80200002 rfl) rfl]
    | (split <;> try (rename_i hp; with_reducible rw [Prod.ext_iff] at hp; have h' := hp.2; dsimp only at h'; subst h'))

theorem execBankDischarge_wf (s : State) (h : memoriesWf s = true) : outWf (execBankDischarge s) := by
  unfold execBankDischarge
  repeat' first
    | with_reducible assumption
    | with_reducible rfl
    | with_reducible refine flushCommit_wf _ _ ?_
    | (simp only [memoriesWf_mk]; refine and_four ?_ ?_ ?_ ?_)
    | with_reducible refine memWriteBytes_wf ?_ _ _
    | with_reducible refine memClear_wf ?_ _ _
    | with_reducible exact wf_nil _
    | with_reducible refine lz_wf ?_
    | with_reducible refine sram_wf ?_
    | with_reducible refine nor_wf ?_
    | with_reducible refine staging_wf ?_
    | (with_reducible refine foldl_wf ?_ _ _ ?_; intro s x hs)
    | simp only [outWf_next, takeFree, Option.elim, apply_ite outWf, apply_ite memoriesWf, apply_ite Prod.snd, ite_self]
    | (split <;> try (rename_i hp; with_reducible rw [Prod.ext_iff] at hp; have h' := hp.2; dsimp only at h'; subst h'))

theorem execBar2Request_wf (a0) (a1) (s : State) (h : memoriesWf s = true) : outWf (execBar2Request a0 a1 s) := by
  unfold execBar2Request
  repeat' first
    | with_reducible assumption
    | with_reducible rfl
    | with_reducible refine spaceWrite_wf _ _ _ _ ?_
    | (simp only [memoriesWf_mk]; refine and_four ?_ ?_ ?_ ?_)
    | with_reducible refine memWriteBytes_wf ?_ _ _
    | with_reducible refine memClear_wf ?_ _ _
    | with_reducible exact wf_nil _
    | with_reducible refine lz_wf ?_
    | with_reducible refine sram_wf ?_
    | with_reducible refine nor_wf ?_
    | with_reducible refine staging_wf ?_
    | (with_reducible refine foldl_wf ?_ _ _ ?_; intro s x hs)
    | simp only [outWf_next, takeFree, Option.elim, apply_ite outWf, apply_ite memoriesWf, apply_ite Prod.snd, ite_self, fun b0 b1 => wf_of_blank (emit_frame b0 b1 0x80000000 rfl) rfl, fun b0 b1 b2 => wf_of_blank (modEp_frame b0 b1 b2 0x80 rfl) rfl, fun b0 b1 b2 b3 => wf_of_blank (outside_frame b0 b1 b2 b3 0x83204C8E rfl) rfl]
    | (split <;> try (rename_i hp; with_reducible rw [Prod.ext_iff] at hp; have h' := hp.2; dsimp only at h'; subst h'))

theorem execBarAccessError_wf (a0) (a1) (a2) (a3) (a4) (s : State) (h : memoriesWf s = true) : outWf (execBarAccessError a0 a1 a2 a3 a4 s) := by
  unfold execBarAccessError
  repeat' first
    | with_reducible assumption
    | with_reducible rfl
    | with_reducible refine barAccess_wf _ _ _ _ _ _ _ ?_
    | (simp only [memoriesWf_mk]; refine and_four ?_ ?_ ?_ ?_)
    | with_reducible refine memWriteBytes_wf ?_ _ _
    | with_reducible refine memClear_wf ?_ _ _
    | with_reducible exact wf_nil _
    | with_reducible refine lz_wf ?_
    | with_reducible refine sram_wf ?_
    | with_reducible refine nor_wf ?_
    | with_reducible refine staging_wf ?_
    | (with_reducible refine foldl_wf ?_ _ _ ?_; intro s x hs)
    | simp only [outWf_next, takeFree, Option.elim, apply_ite outWf, apply_ite memoriesWf, apply_ite Prod.snd, ite_self, fun b0 b1 b2 b3 => wf_of_blank (outside_frame b0 b1 b2 b3 0x83204C8E rfl) rfl]
    | (split <;> try (rename_i hp; with_reducible rw [Prod.ext_iff] at hp; have h' := hp.2; dsimp only at h'; subst h'))

theorem shipBatch_wf (a0) (a1) (a2) (s : State) (h : memoriesWf s = true) : memoriesWf (shipBatch a0 a1 a2 s) = true := by
  unfold shipBatch
  repeat' first
    | with_reducible assumption
    | with_reducible rfl
    | with_reducible refine chunkPayload_wf _ _ _ _ _ _ ?_
    | (simp only [memoriesWf_mk]; refine and_four ?_ ?_ ?_ ?_)
    | with_reducible refine memWriteBytes_wf ?_ _ _
    | with_reducible refine memClear_wf ?_ _ _
    | with_reducible exact wf_nil _
    | with_reducible refine lz_wf ?_
    | with_reducible refine sram_wf ?_
    | with_reducible refine nor_wf ?_
    | with_reducible refine staging_wf ?_
    | (with_reducible refine foldl_wf ?_ _ _ ?_; intro s x hs)
    | simp only [outWf_next, takeFree, Option.elim, apply_ite outWf, apply_ite memoriesWf, apply_ite Prod.snd, ite_self, fun b0 b1 b2 b3 => wf_of_blank (issueRoce_frame b0 b1 b2 b3 0x80000800 rfl) rfl, fun b0 b1 b2 => wf_of_blank (modLink_frame b0 b1 b2 0x1000 rfl) rfl, fun b0 b1 b2 b3 b4 b5 => wf_of_blank (sendRecord_frame b0 b1 b2 b3 b4 b5 0x83205C8E rfl) rfl]
    | (split <;> try (rename_i hp; with_reducible rw [Prod.ext_iff] at hp; have h' := hp.2; dsimp only at h'; subst h'))

theorem execBatchApply_wf (a0) (a1) (s : State) (h : memoriesWf s = true) : outWf (execBatchApply a0 a1 s) := by
  unfold execBatchApply
  repeat' first
    | with_reducible assumption
    | with_reducible rfl
    | with_reducible refine shipBatch_wf _ _ _ _ ?_
    | (simp only [memoriesWf_mk]; refine and_four ?_ ?_ ?_ ?_)
    | with_reducible refine memWriteBytes_wf ?_ _ _
    | with_reducible refine memClear_wf ?_ _ _
    | with_reducible exact wf_nil _
    | with_reducible refine lz_wf ?_
    | with_reducible refine sram_wf ?_
    | with_reducible refine nor_wf ?_
    | with_reducible refine staging_wf ?_
    | (with_reducible refine foldl_wf ?_ _ _ ?_; intro s x hs)
    | simp only [outWf_next, takeFree, Option.elim, apply_ite outWf, apply_ite memoriesWf, apply_ite Prod.snd, ite_self, fun b0 b1 => wf_of_blank (admitWrite_frame b0 b1 0x83206C8E rfl) rfl, fun b0 => wf_of_blank (busy_frame b0 0x80800482 rfl) rfl, fun b0 b1 b2 b3 => wf_of_blank (issueRoce_frame b0 b1 b2 b3 0x80000800 rfl) rfl, fun b0 b1 b2 => wf_of_blank (modLink_frame b0 b1 b2 0x1000 rfl) rfl, fun b0 => wf_of_blank (rebudget_frame b0 0x83204C8E rfl) rfl]
    | (split <;> try (rename_i hp; with_reducible rw [Prod.ext_iff] at hp; have h' := hp.2; dsimp only at h'; subst h'))

theorem execBatchResend_wf (a0) (a1) (s : State) (h : memoriesWf s = true) : outWf (execBatchResend a0 a1 s) := by
  unfold execBatchResend
  repeat' first
    | with_reducible assumption
    | with_reducible rfl
    | with_reducible refine shipBatch_wf _ _ _ _ ?_
    | (simp only [memoriesWf_mk]; refine and_four ?_ ?_ ?_ ?_)
    | with_reducible refine memWriteBytes_wf ?_ _ _
    | with_reducible refine memClear_wf ?_ _ _
    | with_reducible exact wf_nil _
    | with_reducible refine lz_wf ?_
    | with_reducible refine sram_wf ?_
    | with_reducible refine nor_wf ?_
    | with_reducible refine staging_wf ?_
    | (with_reducible refine foldl_wf ?_ _ _ ?_; intro s x hs)
    | simp only [outWf_next, takeFree, Option.elim, apply_ite outWf, apply_ite memoriesWf, apply_ite Prod.snd, ite_self]
    | (split <;> try (rename_i hp; with_reducible rw [Prod.ext_iff] at hp; have h' := hp.2; dsimp only at h'; subst h'))

theorem execBirthRefresh_wf (s : State) (h : memoriesWf s = true) : outWf (execBirthRefresh s) := by
  unfold execBirthRefresh
  repeat' first
    | with_reducible assumption
    | with_reducible rfl
    | with_reducible refine birthRewrite_wf _ _ ?_
    | (simp only [memoriesWf_mk]; refine and_four ?_ ?_ ?_ ?_)
    | with_reducible refine memWriteBytes_wf ?_ _ _
    | with_reducible refine memClear_wf ?_ _ _
    | with_reducible exact wf_nil _
    | with_reducible refine lz_wf ?_
    | with_reducible refine sram_wf ?_
    | with_reducible refine nor_wf ?_
    | with_reducible refine staging_wf ?_
    | (with_reducible refine foldl_wf ?_ _ _ ?_; intro s x hs)
    | simp only [outWf_next, takeFree, Option.elim, apply_ite outWf, apply_ite memoriesWf, apply_ite Prod.snd, ite_self]
    | (split <;> try (rename_i hp; with_reducible rw [Prod.ext_iff] at hp; have h' := hp.2; dsimp only at h'; subst h'))

theorem execChipRstL_wf (a0) (s : State) (h : memoriesWf s = true) : outWf (execChipRstL a0 s) := by
  unfold execChipRstL
  repeat' first
    | with_reducible assumption
    | with_reducible rfl
    | with_reducible refine failProbation_wf _ ?_
    | with_reducible refine startRun_wf _ _ _ _ _ _ ?_
    | (simp only [memoriesWf_mk]; refine and_four ?_ ?_ ?_ ?_)
    | with_reducible refine memWriteBytes_wf ?_ _ _
    | with_reducible refine memClear_wf ?_ _ _
    | with_reducible exact wf_nil _
    | with_reducible refine lz_wf ?_
    | with_reducible refine sram_wf ?_
    | with_reducible refine nor_wf ?_
    | with_reducible refine staging_wf ?_
    | (with_reducible refine foldl_wf ?_ _ _ ?_; intro s x hs)
    | simp only [outWf_next, takeFree, Option.elim, apply_ite outWf, apply_ite memoriesWf, apply_ite Prod.snd, ite_self, fun b0 => wf_of_blank (holdReset_frame b0 0x1A40885 rfl) rfl]
    | (split <;> try (rename_i hp; with_reducible rw [Prod.ext_iff] at hp; have h' := hp.2; dsimp only at h'; subst h'))

theorem execClearEraseDone_wf (s : State) (h : memoriesWf s = true) : outWf (execClearEraseDone s) := by
  unfold execClearEraseDone
  repeat' first
    | with_reducible assumption
    | with_reducible rfl
    | with_reducible refine norErase_wf _ _ _ ?_
    | (simp only [memoriesWf_mk]; refine and_four ?_ ?_ ?_ ?_)
    | with_reducible refine memWriteBytes_wf ?_ _ _
    | with_reducible refine memClear_wf ?_ _ _
    | with_reducible exact wf_nil _
    | with_reducible refine lz_wf ?_
    | with_reducible refine sram_wf ?_
    | with_reducible refine nor_wf ?_
    | with_reducible refine staging_wf ?_
    | (with_reducible refine foldl_wf ?_ _ _ ?_; intro s x hs)
    | simp only [outWf_next, takeFree, Option.elim, apply_ite outWf, apply_ite memoriesWf, apply_ite Prod.snd, ite_self]
    | (split <;> try (rename_i hp; with_reducible rw [Prod.ext_iff] at hp; have h' := hp.2; dsimp only at h'; subst h'))

theorem execClkGlitch_wf (s : State) (h : memoriesWf s = true) : outWf (execClkGlitch s) := by
  unfold execClkGlitch
  repeat' first
    | with_reducible assumption
    | with_reducible rfl
    | with_reducible refine failstop_wf _ _ _ ?_
    | with_reducible refine secAlarm_wf _ _ _ ?_
    | (simp only [memoriesWf_mk]; refine and_four ?_ ?_ ?_ ?_)
    | with_reducible refine memWriteBytes_wf ?_ _ _
    | with_reducible refine memClear_wf ?_ _ _
    | with_reducible exact wf_nil _
    | with_reducible refine lz_wf ?_
    | with_reducible refine sram_wf ?_
    | with_reducible refine nor_wf ?_
    | with_reducible refine staging_wf ?_
    | (with_reducible refine foldl_wf ?_ _ _ ?_; intro s x hs)
    | simp only [outWf_next, takeFree, Option.elim, apply_ite outWf, apply_ite memoriesWf, apply_ite Prod.snd, ite_self]
    | (split <;> try (rename_i hp; with_reducible rw [Prod.ext_iff] at hp; have h' := hp.2; dsimp only at h'; subst h'))

theorem execClone_wf (a0) (a1) (a2) (s : State) (h : memoriesWf s = true) : outWf (execClone a0 a1 a2 s) := by
  unfold execClone
  repeat' first
    | with_reducible assumption
    | with_reducible rfl
    | with_reducible refine fetched_wf _ _ _ _ _ _ _ ?_
    | (simp only [memoriesWf_mk]; refine and_four ?_ ?_ ?_ ?_)
    | with_reducible refine memWriteBytes_wf ?_ _ _
    | with_reducible refine memClear_wf ?_ _ _
    | with_reducible exact wf_nil _
    | with_reducible refine lz_wf ?_
    | with_reducible refine sram_wf ?_
    | with_reducible refine nor_wf ?_
    | with_reducible refine staging_wf ?_
    | (with_reducible refine foldl_wf ?_ _ _ ?_; intro s x hs)
    | simp only [outWf_next, takeFree, Option.elim, apply_ite outWf, apply_ite memoriesWf, apply_ite Prod.snd, ite_self]
    | (split <;> try (rename_i hp; with_reducible rw [Prod.ext_iff] at hp; have h' := hp.2; dsimp only at h'; subst h'))

theorem execCreateQueue_wf (a0) (a1) (a2) (s : State) (h : memoriesWf s = true) : outWf (execCreateQueue a0 a1 a2 s) := by
  unfold execCreateQueue
  repeat' first
    | with_reducible assumption
    | with_reducible rfl
    | with_reducible refine fetched_wf _ _ _ _ _ _ _ ?_
    | (simp only [memoriesWf_mk]; refine and_four ?_ ?_ ?_ ?_)
    | with_reducible refine memWriteBytes_wf ?_ _ _
    | with_reducible refine memClear_wf ?_ _ _
    | with_reducible exact wf_nil _
    | with_reducible refine lz_wf ?_
    | with_reducible refine sram_wf ?_
    | with_reducible refine nor_wf ?_
    | with_reducible refine staging_wf ?_
    | (with_reducible refine foldl_wf ?_ _ _ ?_; intro s x hs)
    | simp only [outWf_next, takeFree, Option.elim, apply_ite outWf, apply_ite memoriesWf, apply_ite Prod.snd, ite_self]
    | (split <;> try (rename_i hp; with_reducible rw [Prod.ext_iff] at hp; have h' := hp.2; dsimp only at h'; subst h'))

theorem execCreateVolume_wf (a0) (a1) (a2) (s : State) (h : memoriesWf s = true) : outWf (execCreateVolume a0 a1 a2 s) := by
  unfold execCreateVolume
  repeat' first
    | with_reducible assumption
    | with_reducible rfl
    | with_reducible refine fetched_wf _ _ _ _ _ _ _ ?_
    | (simp only [memoriesWf_mk]; refine and_four ?_ ?_ ?_ ?_)
    | with_reducible refine memWriteBytes_wf ?_ _ _
    | with_reducible refine memClear_wf ?_ _ _
    | with_reducible exact wf_nil _
    | with_reducible refine lz_wf ?_
    | with_reducible refine sram_wf ?_
    | with_reducible refine nor_wf ?_
    | with_reducible refine staging_wf ?_
    | (with_reducible refine foldl_wf ?_ _ _ ?_; intro s x hs)
    | simp only [outWf_next, takeFree, Option.elim, apply_ite outWf, apply_ite memoriesWf, apply_ite Prod.snd, ite_self]
    | (split <;> try (rename_i hp; with_reducible rw [Prod.ext_iff] at hp; have h' := hp.2; dsimp only at h'; subst h'))

theorem execCsJobDone_wf (s : State) (h : memoriesWf s = true) : outWf (execCsJobDone s) := by
  unfold execCsJobDone
  repeat' first
    | with_reducible assumption
    | with_reducible rfl
    | with_reducible refine spaceWrite_wf _ _ _ _ ?_
    | (simp only [memoriesWf_mk]; refine and_four ?_ ?_ ?_ ?_)
    | with_reducible refine memWriteBytes_wf ?_ _ _
    | with_reducible refine memClear_wf ?_ _ _
    | with_reducible exact wf_nil _
    | with_reducible refine lz_wf ?_
    | with_reducible refine sram_wf ?_
    | with_reducible refine nor_wf ?_
    | with_reducible refine staging_wf ?_
    | (with_reducible refine foldl_wf ?_ _ _ ?_; intro s x hs)
    | simp only [outWf_next, takeFree, Option.elim, apply_ite outWf, apply_ite memoriesWf, apply_ite Prod.snd, ite_self, fun b0 b1 b2 b3 => wf_of_blank (keyCmd_frame b0 b1 b2 b3 0x83295C8E rfl) rfl, fun b0 b1 b2 b3 => wf_of_blank (record_frame b0 b1 b2 b3 0x83204C8E rfl) rfl]
    | (split <;> try (rename_i hp; with_reducible rw [Prod.ext_iff] at hp; have h' := hp.2; dsimp only at h'; subst h'))

theorem execDeleteQueue_wf (a0) (a1) (a2) (s : State) (h : memoriesWf s = true) : outWf (execDeleteQueue a0 a1 a2 s) := by
  unfold execDeleteQueue
  repeat' first
    | with_reducible assumption
    | with_reducible rfl
    | with_reducible refine fetched_wf _ _ _ _ _ _ _ ?_
    | (simp only [memoriesWf_mk]; refine and_four ?_ ?_ ?_ ?_)
    | with_reducible refine memWriteBytes_wf ?_ _ _
    | with_reducible refine memClear_wf ?_ _ _
    | with_reducible exact wf_nil _
    | with_reducible refine lz_wf ?_
    | with_reducible refine sram_wf ?_
    | with_reducible refine nor_wf ?_
    | with_reducible refine staging_wf ?_
    | (with_reducible refine foldl_wf ?_ _ _ ?_; intro s x hs)
    | simp only [outWf_next, takeFree, Option.elim, apply_ite outWf, apply_ite memoriesWf, apply_ite Prod.snd, ite_self]
    | (split <;> try (rename_i hp; with_reducible rw [Prod.ext_iff] at hp; have h' := hp.2; dsimp only at h'; subst h'))

theorem execDeleteVolume_wf (a0) (a1) (a2) (s : State) (h : memoriesWf s = true) : outWf (execDeleteVolume a0 a1 a2 s) := by
  unfold execDeleteVolume
  repeat' first
    | with_reducible assumption
    | with_reducible rfl
    | with_reducible refine fetched_wf _ _ _ _ _ _ _ ?_
    | (simp only [memoriesWf_mk]; refine and_four ?_ ?_ ?_ ?_)
    | with_reducible refine memWriteBytes_wf ?_ _ _
    | with_reducible refine memClear_wf ?_ _ _
    | with_reducible exact wf_nil _
    | with_reducible refine lz_wf ?_
    | with_reducible refine sram_wf ?_
    | with_reducible refine nor_wf ?_
    | with_reducible refine staging_wf ?_
    | (with_reducible refine foldl_wf ?_ _ _ ?_; intro s x hs)
    | simp only [outWf_next, takeFree, Option.elim, apply_ite outWf, apply_ite memoriesWf, apply_ite Prod.snd, ite_self]
    | (split <;> try (rename_i hp; with_reducible rw [Prod.ext_iff] at hp; have h' := hp.2; dsimp only at h'; subst h'))

theorem execDieOvertemp_wf (s : State) (h : memoriesWf s = true) : outWf (execDieOvertemp s) := by
  unfold execDieOvertemp
  repeat' first
    | with_reducible assumption
    | with_reducible rfl
    | with_reducible refine failstop_wf _ _ _ ?_
    | (simp only [memoriesWf_mk]; refine and_four ?_ ?_ ?_ ?_)
    | with_reducible refine memWriteBytes_wf ?_ _ _
    | with_reducible refine memClear_wf ?_ _ _
    | with_reducible exact wf_nil _
    | with_reducible refine lz_wf ?_
    | with_reducible refine sram_wf ?_
    | with_reducible refine nor_wf ?_
    | with_reducible refine staging_wf ?_
    | (with_reducible refine foldl_wf ?_ _ _ ?_; intro s x hs)
    | simp only [outWf_next, takeFree, Option.elim, apply_ite outWf, apply_ite memoriesWf, apply_ite Prod.snd, ite_self]
    | (split <;> try (rename_i hp; with_reducible rw [Prod.ext_iff] at hp; have h' := hp.2; dsimp only at h'; subst h'))

theorem execDigestDone_wf (s : State) (h : memoriesWf s = true) : outWf (execDigestDone s) := by
  unfold execDigestDone
  repeat' first
    | with_reducible assumption
    | with_reducible rfl
    | with_reducible refine deliver_wf _ _ _ _ ?_
    | (simp only [memoriesWf_mk]; refine and_four ?_ ?_ ?_ ?_)
    | with_reducible refine memWriteBytes_wf ?_ _ _
    | with_reducible refine memClear_wf ?_ _ _
    | with_reducible exact wf_nil _
    | with_reducible refine lz_wf ?_
    | with_reducible refine sram_wf ?_
    | with_reducible refine nor_wf ?_
    | with_reducible refine staging_wf ?_
    | (with_reducible refine foldl_wf ?_ _ _ ?_; intro s x hs)
    | simp only [outWf_next, takeFree, Option.elim, apply_ite outWf, apply_ite memoriesWf, apply_ite Prod.snd, ite_self, fun b0 b1 => wf_of_blank (digIdle_frame b0 b1 0x20000 rfl) rfl, fun b0 b1 b2 b3 b4 => wf_of_blank (endCmd_frame b0 b1 b2 b3 b4 0x83204C8E rfl) rfl]
    | (split <;> try (rename_i hp; with_reducible rw [Prod.ext_iff] at hp; have h' := hp.2; dsimp only at h'; subst h'))

theorem execDimmTempRead_wf (a0) (a1) (s : State) (h : memoriesWf s = true) : outWf (execDimmTempRead a0 a1 s) := by
  unfold execDimmTempRead
  repeat' first
    | with_reducible assumption
    | with_reducible rfl
    | with_reducible refine failstop_wf _ _ _ ?_
    | (simp only [memoriesWf_mk]; refine and_four ?_ ?_ ?_ ?_)
    | with_reducible refine memWriteBytes_wf ?_ _ _
    | with_reducible refine memClear_wf ?_ _ _
    | with_reducible exact wf_nil _
    | with_reducible refine lz_wf ?_
    | with_reducible refine sram_wf ?_
    | with_reducible refine nor_wf ?_
    | with_reducible refine staging_wf ?_
    | (with_reducible refine foldl_wf ?_ _ _ ?_; intro s x hs)
    | simp only [outWf_next, takeFree, Option.elim, apply_ite outWf, apply_ite memoriesWf, apply_ite Prod.snd, ite_self, fun b0 b1 b2 => wf_of_blank (modChan_frame b0 b1 b2 0x400000 rfl) rfl, fun b0 b1 b2 b3 => wf_of_blank (recordAlert_frame b0 b1 b2 b3 0x83204C8E rfl) rfl]
    | (split <;> try (rename_i hp; with_reducible rw [Prod.ext_iff] at hp; have h' := hp.2; dsimp only at h'; subst h'))

theorem execDiscard_wf (a0) (a1) (a2) (s : State) (h : memoriesWf s = true) : outWf (execDiscard a0 a1 a2 s) := by
  unfold execDiscard
  repeat' first
    | with_reducible assumption
    | with_reducible rfl
    | with_reducible refine fetched_wf _ _ _ _ _ _ _ ?_
    | (simp only [memoriesWf_mk]; refine and_four ?_ ?_ ?_ ?_)
    | with_reducible refine memWriteBytes_wf ?_ _ _
    | with_reducible refine memClear_wf ?_ _ _
    | with_reducible exact wf_nil _
    | with_reducible refine lz_wf ?_
    | with_reducible refine sram_wf ?_
    | with_reducible refine nor_wf ?_
    | with_reducible refine staging_wf ?_
    | (with_reducible refine foldl_wf ?_ _ _ ?_; intro s x hs)
    | simp only [outWf_next, takeFree, Option.elim, apply_ite outWf, apply_ite memoriesWf, apply_ite Prod.snd, ite_self]
    | (split <;> try (rename_i hp; with_reducible rw [Prod.ext_iff] at hp; have h' := hp.2; dsimp only at h'; subst h'))

theorem floorOn_wf (s : State) (h : memoriesWf s = true) : memoriesWf (floorOn s) = true := by
  unfold floorOn
  repeat' first
    | with_reducible assumption
    | with_reducible rfl
    | with_reducible refine floorRaised_wf _ _ ?_
    | with_reducible refine writeBoot_wf _ _ ?_
    | (simp only [memoriesWf_mk]; refine and_four ?_ ?_ ?_ ?_)
    | with_reducible refine memWriteBytes_wf ?_ _ _
    | with_reducible refine memClear_wf ?_ _ _
    | with_reducible exact wf_nil _
    | with_reducible refine lz_wf ?_
    | with_reducible refine sram_wf ?_
    | with_reducible refine nor_wf ?_
    | with_reducible refine staging_wf ?_
    | (with_reducible refine foldl_wf ?_ _ _ ?_; intro s x hs)
    | simp only [outWf_next, takeFree, Option.elim, apply_ite outWf, apply_ite memoriesWf, apply_ite Prod.snd, ite_self]
    | (split <;> try (rename_i hp; with_reducible rw [Prod.ext_iff] at hp; have h' := hp.2; dsimp only at h'; subst h'))

theorem lcNote_wf (s : State) (h : memoriesWf s = true) : memoriesWf (lcNote s) = true := by
  unfold lcNote
  repeat' first
    | with_reducible assumption
    | with_reducible rfl
    | with_reducible refine copiesPut_wf _ _ ?_
    | (simp only [memoriesWf_mk]; refine and_four ?_ ?_ ?_ ?_)
    | with_reducible refine memWriteBytes_wf ?_ _ _
    | with_reducible refine memClear_wf ?_ _ _
    | with_reducible exact wf_nil _
    | with_reducible refine lz_wf ?_
    | with_reducible refine sram_wf ?_
    | with_reducible refine nor_wf ?_
    | with_reducible refine staging_wf ?_
    | (with_reducible refine foldl_wf ?_ _ _ ?_; intro s x hs)
    | simp only [outWf_next, takeFree, Option.elim, apply_ite outWf, apply_ite memoriesWf, apply_ite Prod.snd, ite_self]
    | (split <;> try (rename_i hp; with_reducible rw [Prod.ext_iff] at hp; have h' := hp.2; dsimp only at h'; subst h'))

theorem lcOn_wf (s : State) (h : memoriesWf s = true) : memoriesWf (lcOn s) = true := by
  unfold lcOn
  repeat' first
    | with_reducible assumption
    | with_reducible refine lcBegin_wf _ ?_
    | with_reducible refine lcNote_wf _ ?_
    | with_reducible refine lcZeroise_wf _ _ ?_
    | with_reducible refine lcBlown_wf _ _ ?_
    | exact (wf_of_blank (lcFuseNext_frame _ _ 0x10 rfl _ (by assumption)) rfl).trans h
    | (rename_i h'; split at h'; exact (wf_of_blank (fuseSlotNext_frame _ _ _ 0x10 rfl _ h') rfl).trans h; cases h')
    | (simp only [memoriesWf_mk]; refine and_four ?_ ?_ ?_ ?_)
    | with_reducible refine lz_wf ?_
    | with_reducible refine sram_wf ?_
    | with_reducible refine nor_wf ?_
    | with_reducible refine staging_wf ?_
    | simp only [outWf_next, takeFree, Option.elim, apply_ite outWf, apply_ite memoriesWf, apply_ite Prod.snd, ite_self, fun b0 => wf_of_blank (lcBegin_frame b0 0x83204CAE rfl) rfl, fun b0 b1 => wf_of_blank (lcBlown_frame b0 b1 0x28 rfl) rfl]
    | (split <;> try (rename_i hp; with_reducible rw [Prod.ext_iff] at hp; have h' := hp.2; dsimp only at h'; subst h'))

theorem tick_wf (s : State) (h : memoriesWf s = true) : memoriesWf (tick s) = true := by
  unfold tick
  repeat' first
    | with_reducible assumption
    | with_reducible rfl
    | with_reducible refine activateOn_wf _ ?_
    | with_reducible refine clearOn_wf _ ?_
    | with_reducible refine floorOn_wf _ ?_
    | with_reducible refine lcOn_wf _ ?_
    | (simp only [memoriesWf_mk]; refine and_four ?_ ?_ ?_ ?_)
    | with_reducible refine memWriteBytes_wf ?_ _ _
    | with_reducible refine memClear_wf ?_ _ _
    | with_reducible exact wf_nil _
    | with_reducible refine lz_wf ?_
    | with_reducible refine sram_wf ?_
    | with_reducible refine nor_wf ?_
    | with_reducible refine staging_wf ?_
    | (with_reducible refine foldl_wf ?_ _ _ ?_; intro s x hs)
    | simp only [outWf_next, takeFree, Option.elim, apply_ite outWf, apply_ite memoriesWf, apply_ite Prod.snd, ite_self, fun b0 => wf_of_blank (chargeOn_frame b0 0x83A04C8E rfl) rfl, fun b0 => wf_of_blank (clearZeroed_frame b0 0x80304002 rfl) rfl, fun b0 => wf_of_blank (clockTick_frame b0 0xC rfl) rfl, fun b0 => wf_of_blank (diesOn_frame b0 0x80040000 rfl) rfl, fun b0 => wf_of_blank (endCycle_frame b0 0x83204C8E rfl) rfl, fun b0 => wf_of_blank (endNet_frame b0 0x183227C8E rfl) rfl, fun b0 => wf_of_blank (raiseOn_frame b0 0x83A04C8E rfl) rfl, fun b0 => wf_of_blank (regionsOn_frame b0 0x1000000 rfl) rfl, fun b0 => wf_of_blank (vaultOn_frame b0 0x81A40887 rfl) rfl, fun b0 => wf_of_blank (watchIdle_frame b0 0x80800482 rfl) rfl]
    | (split <;> try (rename_i hp; with_reducible rw [Prod.ext_iff] at hp; have h' := hp.2; dsimp only at h'; subst h'))

theorem execDmlIdent_wf (a0) (a1) (s : State) (h : memoriesWf s = true) : outWf (execDmlIdent a0 a1 s) := by
  unfold execDmlIdent
  repeat' first
    | with_reducible assumption
    | with_reducible rfl
    | with_reducible refine tick_wf _ ?_
    | (simp only [memoriesWf_mk]; refine and_four ?_ ?_ ?_ ?_)
    | with_reducible refine memWriteBytes_wf ?_ _ _
    | with_reducible refine memClear_wf ?_ _ _
    | with_reducible exact wf_nil _
    | with_reducible refine lz_wf ?_
    | with_reducible refine sram_wf ?_
    | with_reducible refine nor_wf ?_
    | with_reducible refine staging_wf ?_
    | (with_reducible refine foldl_wf ?_ _ _ ?_; intro s x hs)
    | simp only [outWf_next, takeFree, Option.elim, apply_ite outWf, apply_ite memoriesWf, apply_ite Prod.snd, ite_self, fun b0 b1 => wf_of_blank (enterActive_frame b0 b1 0x83244C8E rfl) rfl, fun b0 b1 b2 b3 => wf_of_blank (fenceReport_frame b0 b1 b2 b3 0x83244C8E rfl) rfl, fun b0 b1 b2 => wf_of_blank (modPort_frame b0 b1 b2 0x40000 rfl) rfl, fun b0 b1 b2 => wf_of_blank (moduleArrives_frame b0 b1 b2 0x83384C8E rfl) rfl, fun b0 => wf_of_blank (noteMedia_frame b0 0x1 rfl) rfl, fun b0 b1 b2 b3 => wf_of_blank (record_frame b0 b1 b2 b3 0x83204C8E rfl) rfl, fun b0 b1 => wf_of_blank (reserveShare_frame b0 b1 0x80040000 rfl) rfl]
    | (split <;> try (rename_i hp; with_reducible rw [Prod.ext_iff] at hp; have h' := hp.2; dsimp only at h'; subst h'))

theorem execDramCe_wf (a0) (a1) (a2) (s : State) (h : memoriesWf s = true) : outWf (execDramCe a0 a1 a2 s) := by
  unfold execDramCe
  repeat' first
    | with_reducible assumption
    | with_reducible rfl
    | with_reducible refine dramRead_wf _ _ _ _ _ ?_
    | (simp only [memoriesWf_mk]; refine and_four ?_ ?_ ?_ ?_)
    | with_reducible refine memWriteBytes_wf ?_ _ _
    | with_reducible refine memClear_wf ?_ _ _
    | with_reducible exact wf_nil _
    | with_reducible refine lz_wf ?_
    | with_reducible refine sram_wf ?_
    | with_reducible refine nor_wf ?_
    | with_reducible refine staging_wf ?_
    | (with_reducible refine foldl_wf ?_ _ _ ?_; intro s x hs)
    | simp only [outWf_next, takeFree, Option.elim, apply_ite outWf, apply_ite memoriesWf, apply_ite Prod.snd, ite_self]
    | (split <;> try (rename_i hp; with_reducible rw [Prod.ext_iff] at hp; have h' := hp.2; dsimp only at h'; subst h'))

theorem execDramUe_wf (a0) (a1) (s : State) (h : memoriesWf s = true) : outWf (execDramUe a0 a1 s) := by
  unfold execDramUe
  repeat' first
    | with_reducible assumption
    | with_reducible rfl
    | with_reducible refine dramRead_wf _ _ _ _ _ ?_
    | (simp only [memoriesWf_mk]; refine and_four ?_ ?_ ?_ ?_)
    | with_reducible refine memWriteBytes_wf ?_ _ _
    | with_reducible refine memClear_wf ?_ _ _
    | with_reducible exact wf_nil _
    | with_reducible refine lz_wf ?_
    | with_reducible refine sram_wf ?_
    | with_reducible refine nor_wf ?_
    | with_reducible refine staging_wf ?_
    | (with_reducible refine foldl_wf ?_ _ _ ?_; intro s x hs)
    | simp only [outWf_next, takeFree, Option.elim, apply_ite outWf, apply_ite memoriesWf, apply_ite Prod.snd, ite_self]
    | (split <;> try (rename_i hp; with_reducible rw [Prod.ext_iff] at hp; have h' := hp.2; dsimp only at h'; subst h'))

theorem execDrbgFail_wf (s : State) (h : memoriesWf s = true) : outWf (execDrbgFail s) := by
  unfold execDrbgFail
  repeat' first
    | with_reducible assumption
    | with_reducible rfl
    | with_reducible refine drbgFailure_wf _ ?_
    | (simp only [memoriesWf_mk]; refine and_four ?_ ?_ ?_ ?_)
    | with_reducible refine memWriteBytes_wf ?_ _ _
    | with_reducible refine memClear_wf ?_ _ _
    | with_reducible exact wf_nil _
    | with_reducible refine lz_wf ?_
    | with_reducible refine sram_wf ?_
    | with_reducible refine nor_wf ?_
    | with_reducible refine staging_wf ?_
    | (with_reducible refine foldl_wf ?_ _ _ ?_; intro s x hs)
    | simp only [outWf_next, takeFree, Option.elim, apply_ite outWf, apply_ite memoriesWf, apply_ite Prod.snd, ite_self]
    | (split <;> try (rename_i hp; with_reducible rw [Prod.ext_iff] at hp; have h' := hp.2; dsimp only at h'; subst h'))

theorem execDrbgRetry_wf (a0) (s : State) (h : memoriesWf s = true) : outWf (execDrbgRetry a0 s) := by
  unfold execDrbgRetry
  repeat' first
    | with_reducible assumption
    | with_reducible rfl
    | with_reducible refine drbgFailure_wf _ ?_
    | (simp only [memoriesWf_mk]; refine and_four ?_ ?_ ?_ ?_)
    | with_reducible refine memWriteBytes_wf ?_ _ _
    | with_reducible refine memClear_wf ?_ _ _
    | with_reducible exact wf_nil _
    | with_reducible refine lz_wf ?_
    | with_reducible refine sram_wf ?_
    | with_reducible refine nor_wf ?_
    | with_reducible refine staging_wf ?_
    | (with_reducible refine foldl_wf ?_ _ _ ?_; intro s x hs)
    | simp only [outWf_next, takeFree, Option.elim, apply_ite outWf, apply_ite memoriesWf, apply_ite Prod.snd, ite_self, fun b0 b1 => wf_of_blank (generateNow_frame b0 b1 0x83295C8E rfl) rfl, fun b0 b1 b2 b3 => wf_of_blank (record_frame b0 b1 b2 b3 0x83204C8E rfl) rfl]
    | (split <;> try (rename_i hp; with_reducible rw [Prod.ext_iff] at hp; have h' := hp.2; dsimp only at h'; subst h'))

theorem execErrorReport_wf (a0) (a1) (s : State) (h : memoriesWf s = true) : outWf (execErrorReport a0 a1 s) := by
  unfold execErrorReport
  repeat' first
    | with_reducible assumption
    | with_reducible rfl
    | with_reducible refine failstop_wf _ _ _ ?_
    | (simp only [memoriesWf_mk]; refine and_four ?_ ?_ ?_ ?_)
    | with_reducible refine memWriteBytes_wf ?_ _ _
    | with_reducible refine memClear_wf ?_ _ _
    | with_reducible exact wf_nil _
    | with_reducible refine lz_wf ?_
    | with_reducible refine sram_wf ?_
    | with_reducible refine nor_wf ?_
    | with_reducible refine staging_wf ?_
    | (with_reducible refine foldl_wf ?_ _ _ ?_; intro s x hs)
    | simp only [outWf_next, takeFree, Option.elim, apply_ite outWf, apply_ite memoriesWf, apply_ite Prod.snd, ite_self, fun b0 b1 b2 => wf_of_blank (aerCorrectable_frame b0 b1 b2 0x80000080 rfl) rfl, fun b0 b1 b2 b3 => wf_of_blank (aerUncorrectable_frame b0 b1 b2 b3 0x80000080 rfl) rfl, fun b0 b1 b2 => wf_of_blank (contain_frame b0 b1 b2 0x8320EC8E rfl) rfl, fun b0 b1 b2 => wf_of_blank (correctedEvent_frame b0 b1 b2 0x83204C8E rfl) rfl, fun b0 b1 b2 => wf_of_blank (externalError_frame b0 b1 b2 0x83204C8E rfl) rfl, fun b0 b1 => wf_of_blank (moveAgents_frame b0 b1 0x101000000 rfl) rfl, fun b0 b1 b2 b3 => wf_of_blank (record_frame b0 b1 b2 b3 0x83204C8E rfl) rfl, fun b0 b1 => wf_of_blank (scheduleAgent_frame b0 b1 0x101000000 rfl) rfl]
    | (split <;> try (rename_i hp; with_reducible rw [Prod.ext_iff] at hp; have h' := hp.2; dsimp only at h'; subst h'))

theorem execFailstop_wf (a0) (a1) (s : State) (h : memoriesWf s = true) : outWf (execFailstop a0 a1 s) := by
  unfold execFailstop
  repeat' first
    | with_reducible assumption
    | with_reducible rfl
    | with_reducible refine failstop_wf _ _ _ ?_
    | (simp only [memoriesWf_mk]; refine and_four ?_ ?_ ?_ ?_)
    | with_reducible refine memWriteBytes_wf ?_ _ _
    | with_reducible refine memClear_wf ?_ _ _
    | with_reducible exact wf_nil _
    | with_reducible refine lz_wf ?_
    | with_reducible refine sram_wf ?_
    | with_reducible refine nor_wf ?_
    | with_reducible refine staging_wf ?_
    | (with_reducible refine foldl_wf ?_ _ _ ?_; intro s x hs)
    | simp only [outWf_next, takeFree, Option.elim, apply_ite outWf, apply_ite memoriesWf, apply_ite Prod.snd, ite_self]
    | (split <;> try (rename_i hp; with_reducible rw [Prod.ext_iff] at hp; have h' := hp.2; dsimp only at h'; subst h'))

theorem execFenceResult_wf (s : State) (h : memoriesWf s = true) : outWf (execFenceResult s) := by
  unfold execFenceResult
  repeat' first
    | with_reducible assumption
    | with_reducible rfl
    | with_reducible refine failstop_wf _ _ _ ?_
    | (simp only [memoriesWf_mk]; refine and_four ?_ ?_ ?_ ?_)
    | with_reducible refine memWriteBytes_wf ?_ _ _
    | with_reducible refine memClear_wf ?_ _ _
    | with_reducible exact wf_nil _
    | with_reducible refine lz_wf ?_
    | with_reducible refine sram_wf ?_
    | with_reducible refine nor_wf ?_
    | with_reducible refine staging_wf ?_
    | (with_reducible refine foldl_wf ?_ _ _ ?_; intro s x hs)
    | simp only [outWf_next, takeFree, Option.elim, apply_ite outWf, apply_ite memoriesWf, apply_ite Prod.snd, ite_self, fun b0 => wf_of_blank (protectHeld_frame b0 0x83206C8E rfl) rfl, fun b0 b1 b2 b3 => wf_of_blank (record_frame b0 b1 b2 b3 0x83204C8E rfl) rfl, fun b0 b1 b2 b3 => wf_of_blank (recordAlert_frame b0 b1 b2 b3 0x83204C8E rfl) rfl, fun b0 => wf_of_blank (retryHeld_frame b0 0x83206C8E rfl) rfl, fun b0 => wf_of_blank (serveNone_frame b0 0x83206C8E rfl) rfl]
    | (split <;> try (rename_i hp; with_reducible rw [Prod.ext_iff] at hp; have h' := hp.2; dsimp only at h'; subst h'))

theorem execFencedCommandStart_wf (a0) (a1) (a2) (a3) (s : State) (h : memoriesWf s = true) : outWf (execFencedCommandStart a0 a1 a2 a3 s) := by
  unfold execFencedCommandStart
  repeat' first
    | with_reducible assumption
    | with_reducible rfl
    | with_reducible refine listArrived_wf _ _ _ _ _ _ ?_
    | with_reducible refine startCmd_wf _ _ _ ?_
    | (simp only [memoriesWf_mk]; refine and_four ?_ ?_ ?_ ?_)
    | with_reducible refine memWriteBytes_wf ?_ _ _
    | with_reducible refine memClear_wf ?_ _ _
    | with_reducible exact wf_nil _
    | with_reducible refine lz_wf ?_
    | with_reducible refine sram_wf ?_
    | with_reducible refine nor_wf ?_
    | with_reducible refine staging_wf ?_
    | (with_reducible refine foldl_wf ?_ _ _ ?_; intro s x hs)
    | simp only [outWf_next, takeFree, Option.elim, apply_ite outWf, apply_ite memoriesWf, apply_ite Prod.snd, ite_self]
    | (split <;> try (rename_i hp; with_reducible rw [Prod.ext_iff] at hp; have h' := hp.2; dsimp only at h'; subst h'))

theorem execFixity_wf (a0) (a1) (a2) (a3) (s : State) (h : memoriesWf s = true) : outWf (execFixity a0 a1 a2 a3 s) := by
  unfold execFixity
  repeat' first
    | with_reducible assumption
    | with_reducible rfl
    | with_reducible refine fetched_wf _ _ _ _ _ _ _ ?_
    | (simp only [memoriesWf_mk]; refine and_four ?_ ?_ ?_ ?_)
    | with_reducible refine memWriteBytes_wf ?_ _ _
    | with_reducible refine memClear_wf ?_ _ _
    | with_reducible exact wf_nil _
    | with_reducible refine lz_wf ?_
    | with_reducible refine sram_wf ?_
    | with_reducible refine nor_wf ?_
    | with_reducible refine staging_wf ?_
    | (with_reducible refine foldl_wf ?_ _ _ ?_; intro s x hs)
    | simp only [outWf_next, takeFree, Option.elim, apply_ite outWf, apply_ite memoriesWf, apply_ite Prod.snd, ite_self]
    | (split <;> try (rename_i hp; with_reducible rw [Prod.ext_iff] at hp; have h' := hp.2; dsimp only at h'; subst h'))

theorem execFlush_wf (a0) (a1) (a2) (s : State) (h : memoriesWf s = true) : outWf (execFlush a0 a1 a2 s) := by
  unfold execFlush
  repeat' first
    | with_reducible assumption
    | with_reducible rfl
    | with_reducible refine fetched_wf _ _ _ _ _ _ _ ?_
    | (simp only [memoriesWf_mk]; refine and_four ?_ ?_ ?_ ?_)
    | with_reducible refine memWriteBytes_wf ?_ _ _
    | with_reducible refine memClear_wf ?_ _ _
    | with_reducible exact wf_nil _
    | with_reducible refine lz_wf ?_
    | with_reducible refine sram_wf ?_
    | with_reducible refine nor_wf ?_
    | with_reducible refine staging_wf ?_
    | (with_reducible refine foldl_wf ?_ _ _ ?_; intro s x hs)
    | simp only [outWf_next, takeFree, Option.elim, apply_ite outWf, apply_ite memoriesWf, apply_ite Prod.snd, ite_self]
    | (split <;> try (rename_i hp; with_reducible rw [Prod.ext_iff] at hp; have h' := hp.2; dsimp only at h'; subst h'))

theorem execFlushDone_wf (s : State) (h : memoriesWf s = true) : outWf (execFlushDone s) := by
  unfold execFlushDone
  split
  · have he := endFlush_wf s h
    dsimp only
    generalize endFlush s = t at *
    repeat' first
      | with_reducible assumption
      | with_reducible rfl
      | with_reducible refine endFlush_wf _ ?_
      | (simp only [memoriesWf_mk]; refine and_four ?_ ?_ ?_ ?_)
      | with_reducible refine memWriteBytes_wf ?_ _ _
      | with_reducible refine memClear_wf ?_ _ _
      | with_reducible exact wf_nil _
      | with_reducible refine lz_wf ?_
      | with_reducible refine sram_wf ?_
      | with_reducible refine nor_wf ?_
      | with_reducible refine staging_wf ?_
      | (with_reducible refine foldl_wf ?_ _ _ ?_; intro s x hs)
      | simp only [outWf_next, takeFree, Option.elim, apply_ite outWf, apply_ite memoriesWf, apply_ite Prod.snd, ite_self, fun b0 => wf_of_blank (maintAdmit_frame b0 0x83304C8E rfl) rfl, fun b0 => wf_of_blank (railsOff_frame b0 0x81A40887 rfl) rfl, fun b0 => wf_of_blank (rebudget_frame b0 0x83204C8E rfl) rfl]
      | (split <;> try (rename_i hp; with_reducible rw [Prod.ext_iff] at hp; have h' := hp.2; dsimp only at h'; subst h'))
  · exact h

theorem execFwConfirmed_wf (s : State) (h : memoriesWf s = true) : outWf (execFwConfirmed s) := by
  unfold execFwConfirmed
  repeat' first
    | with_reducible assumption
    | with_reducible rfl
    | with_reducible refine mirrorCfg_wf _ ?_
    | with_reducible refine writeBoot_wf _ _ ?_
    | (simp only [memoriesWf_mk]; refine and_four ?_ ?_ ?_ ?_)
    | with_reducible refine memWriteBytes_wf ?_ _ _
    | with_reducible refine memClear_wf ?_ _ _
    | with_reducible exact wf_nil _
    | with_reducible refine lz_wf ?_
    | with_reducible refine sram_wf ?_
    | with_reducible refine nor_wf ?_
    | with_reducible refine staging_wf ?_
    | (with_reducible refine foldl_wf ?_ _ _ ?_; intro s x hs)
    | simp only [outWf_next, takeFree, Option.elim, apply_ite outWf, apply_ite memoriesWf, apply_ite Prod.snd, ite_self, fun b0 b1 => wf_of_blank (endActivity_frame b0 b1 0x100000 rfl) rfl, fun b0 => wf_of_blank (maintAdmit_frame b0 0x83304C8E rfl) rfl, fun b0 b1 b2 b3 => wf_of_blank (record_frame b0 b1 b2 b3 0x83204C8E rfl) rfl]
    | (split <;> try (rename_i hp; with_reducible rw [Prod.ext_iff] at hp; have h' := hp.2; dsimp only at h'; subst h'))

theorem updateReset_wf (a0) (a1) (s : State) (h : memoriesWf s = true) : memoriesWf (updateReset a0 a1 s) = true := by
  unfold updateReset
  repeat' first
    | with_reducible assumption
    | with_reducible rfl
    | with_reducible refine startRun_wf _ _ _ _ _ _ ?_
    | (simp only [memoriesWf_mk]; refine and_four ?_ ?_ ?_ ?_)
    | with_reducible refine memWriteBytes_wf ?_ _ _
    | with_reducible refine memClear_wf ?_ _ _
    | with_reducible exact wf_nil _
    | with_reducible refine lz_wf ?_
    | with_reducible refine sram_wf ?_
    | with_reducible refine nor_wf ?_
    | with_reducible refine staging_wf ?_
    | (with_reducible refine foldl_wf ?_ _ _ ?_; intro s x hs)
    | simp only [outWf_next, takeFree, Option.elim, apply_ite outWf, apply_ite memoriesWf, apply_ite Prod.snd, ite_self, fun b0 => wf_of_blank (stopCount_frame b0 0x4 rfl) rfl]
    | (split <;> try (rename_i hp; with_reducible rw [Prod.ext_iff] at hp; have h' := hp.2; dsimp only at h'; subst h'))

theorem execFwFallback_wf (a0) (s : State) (h : memoriesWf s = true) : outWf (execFwFallback a0 s) := by
  unfold execFwFallback
  repeat' first
    | with_reducible assumption
    | with_reducible rfl
    | with_reducible refine failProbation_wf _ ?_
    | with_reducible refine updateReset_wf _ _ _ ?_
    | (simp only [memoriesWf_mk]; refine and_four ?_ ?_ ?_ ?_)
    | with_reducible refine memWriteBytes_wf ?_ _ _
    | with_reducible refine memClear_wf ?_ _ _
    | with_reducible exact wf_nil _
    | with_reducible refine lz_wf ?_
    | with_reducible refine sram_wf ?_
    | with_reducible refine nor_wf ?_
    | with_reducible refine staging_wf ?_
    | (with_reducible refine foldl_wf ?_ _ _ ?_; intro s x hs)
    | simp only [outWf_next, takeFree, Option.elim, apply_ite outWf, apply_ite memoriesWf, apply_ite Prod.snd, ite_self]
    | (split <;> try (rename_i hp; with_reducible rw [Prod.ext_iff] at hp; have h' := hp.2; dsimp only at h'; subst h'))

theorem execFwdCmd_wf (a0) (a1) (a2) (a3) (a4) (a5) (a6) (s : State) (h : memoriesWf s = true) : outWf (execFwdCmd a0 a1 a2 a3 a4 a5 a6 s) := by
  unfold execFwdCmd
  repeat' first
    | with_reducible assumption
    | with_reducible rfl
    | with_reducible refine ownerRun_wf _ _ _ _ ?_
    | (simp only [memoriesWf_mk]; refine and_four ?_ ?_ ?_ ?_)
    | with_reducible refine memWriteBytes_wf ?_ _ _
    | with_reducible refine memClear_wf ?_ _ _
    | with_reducible exact wf_nil _
    | with_reducible refine lz_wf ?_
    | with_reducible refine sram_wf ?_
    | with_reducible refine nor_wf ?_
    | with_reducible refine staging_wf ?_
    | (with_reducible refine foldl_wf ?_ _ _ ?_; intro s x hs)
    | simp only [outWf_next, takeFree, Option.elim, apply_ite outWf, apply_ite memoriesWf, apply_ite Prod.snd, ite_self, fun b0 => wf_of_blank (busy_frame b0 0x80800482 rfl) rfl, fun b0 b1 => wf_of_blank (dropWrite_frame b0 b1 0x83206C8E rfl) rfl, fun b0 b1 => wf_of_blank (leaveDigest_frame b0 b1 0x20000 rfl) rfl, fun b0 => wf_of_blank (settleRetains_frame b0 0x80204C8A rfl) rfl, fun b0 b1 b2 b3 => wf_of_blank (staleRemote_frame b0 b1 b2 b3 0x83204C8E rfl) rfl]
    | (split <;> try (rename_i hp; with_reducible rw [Prod.ext_iff] at hp; have h' := hp.2; dsimp only at h'; subst h'))

theorem execFwdData_wf (a0) (a1) (a2) (a3) (a4) (a5) (s : State) (h : memoriesWf s = true) : outWf (execFwdData a0 a1 a2 a3 a4 a5 s) := by
  unfold execFwdData
  repeat' first
    | with_reducible assumption
    | with_reducible rfl
    | with_reducible refine deliver_wf _ _ _ _ ?_
    | (simp only [memoriesWf_mk]; refine and_four ?_ ?_ ?_ ?_)
    | with_reducible refine memWriteBytes_wf ?_ _ _
    | with_reducible refine memClear_wf ?_ _ _
    | with_reducible exact wf_nil _
    | with_reducible refine lz_wf ?_
    | with_reducible refine sram_wf ?_
    | with_reducible refine nor_wf ?_
    | with_reducible refine staging_wf ?_
    | (with_reducible refine foldl_wf ?_ _ _ ?_; intro s x hs)
    | simp only [outWf_next, takeFree, Option.elim, apply_ite outWf, apply_ite memoriesWf, apply_ite Prod.snd, ite_self, fun b0 b1 b2 b3 => wf_of_blank (staleItem_frame b0 b1 b2 b3 0x83204C8E rfl) rfl]
    | (split <;> try (rename_i hp; with_reducible rw [Prod.ext_iff] at hp; have h' := hp.2; dsimp only at h'; subst h'))

theorem relocateObject_wf (a0) (a1) (a2) (s : State) (h : memoriesWf s = true) : memoriesWf (relocateObject a0 a1 a2 s) = true := by
  unfold relocateObject
  repeat' first
    | with_reducible assumption
    | with_reducible rfl
    | with_reducible refine readStored_wf _ _ _ _ _ _ _ _ ?_
    | (simp only [memoriesWf_mk]; refine and_four ?_ ?_ ?_ ?_)
    | with_reducible refine memWriteBytes_wf ?_ _ _
    | with_reducible refine memClear_wf ?_ _ _
    | with_reducible exact wf_nil _
    | with_reducible refine lz_wf ?_
    | with_reducible refine sram_wf ?_
    | with_reducible refine nor_wf ?_
    | with_reducible refine staging_wf ?_
    | (with_reducible refine foldl_wf ?_ _ _ ?_; intro s x hs)
    | simp only [outWf_next, takeFree, Option.elim, apply_ite outWf, apply_ite memoriesWf, apply_ite Prod.snd, ite_self, fun b0 b1 b2 b3 b4 => wf_of_blank (moveObject_frame b0 b1 b2 b3 b4 0x833C4C8E rfl) rfl]
    | (split <;> try (rename_i hp; with_reducible rw [Prod.ext_iff] at hp; have h' := hp.2; dsimp only at h'; subst h'))

theorem relocateStripe_wf (a0) (a1) (a2) (s : State) (h : memoriesWf s = true) : memoriesWf (relocateStripe a0 a1 a2 s) = true := by
  unfold relocateStripe
  repeat' first
    | with_reducible assumption
    | with_reducible rfl
    | with_reducible refine relocateObject_wf _ _ _ _ ?_
    | (simp only [memoriesWf_mk]; refine and_four ?_ ?_ ?_ ?_)
    | with_reducible refine memWriteBytes_wf ?_ _ _
    | with_reducible refine memClear_wf ?_ _ _
    | with_reducible exact wf_nil _
    | with_reducible refine lz_wf ?_
    | with_reducible refine sram_wf ?_
    | with_reducible refine nor_wf ?_
    | with_reducible refine staging_wf ?_
    | (with_reducible refine foldl_wf ?_ _ _ ?_; intro s x hs)
    | simp only [outWf_next, takeFree, Option.elim, apply_ite outWf, apply_ite memoriesWf, apply_ite Prod.snd, ite_self, fun b0 b1 b2 => wf_of_blank (modStripe_frame b0 b1 b2 0x100000 rfl) rfl, fun b0 b1 => wf_of_blank (staleMeta_frame b0 b1 0x180000 rfl) rfl]
    | (split <;> try (rename_i hp; with_reducible rw [Prod.ext_iff] at hp; have h' := hp.2; dsimp only at h'; subst h'))

theorem execGcState_wf (a0) (a1) (a2) (s : State) (h : memoriesWf s = true) : outWf (execGcState a0 a1 a2 s) := by
  unfold execGcState
  repeat' first
    | with_reducible assumption
    | with_reducible rfl
    | with_reducible refine relocateStripe_wf _ _ _ _ ?_
    | (simp only [memoriesWf_mk]; refine and_four ?_ ?_ ?_ ?_)
    | with_reducible refine memWriteBytes_wf ?_ _ _
    | with_reducible refine memClear_wf ?_ _ _
    | with_reducible exact wf_nil _
    | with_reducible refine lz_wf ?_
    | with_reducible refine sram_wf ?_
    | with_reducible refine nor_wf ?_
    | with_reducible refine staging_wf ?_
    | (with_reducible refine foldl_wf ?_ _ _ ?_; intro s x hs)
    | simp only [outWf_next, takeFree, Option.elim, apply_ite outWf, apply_ite memoriesWf, apply_ite Prod.snd, ite_self, fun b0 b1 => wf_of_blank (endActivity_frame b0 b1 0x100000 rfl) rfl, fun b0 b1 b2 b3 => wf_of_blank (record_frame b0 b1 b2 b3 0x83204C8E rfl) rfl, fun b0 b1 => wf_of_blank (requestActivity_frame b0 b1 0x83304C8E rfl) rfl]
    | (split <;> try (rename_i hp; with_reducible rw [Prod.ext_iff] at hp; have h' := hp.2; dsimp only at h'; subst h'))

theorem execKernelDecode_wf (a0) (a1) (a2) (a3) (s : State) (h : memoriesWf s = true) : outWf (execKernelDecode a0 a1 a2 a3 s) := by
  unfold execKernelDecode
  repeat' first
    | with_reducible assumption
    | with_reducible rfl
    | with_reducible refine readMapped_wf _ _ _ _ _ _ ?_
    | (simp only [memoriesWf_mk]; refine and_four ?_ ?_ ?_ ?_)
    | with_reducible refine memWriteBytes_wf ?_ _ _
    | with_reducible refine memClear_wf ?_ _ _
    | with_reducible exact wf_nil _
    | with_reducible refine lz_wf ?_
    | with_reducible refine sram_wf ?_
    | with_reducible refine nor_wf ?_
    | with_reducible refine staging_wf ?_
    | (with_reducible refine foldl_wf ?_ _ _ ?_; intro s x hs)
    | simp only [outWf_next, takeFree, Option.elim, apply_ite outWf, apply_ite memoriesWf, apply_ite Prod.snd, ite_self, fun b0 b1 => wf_of_blank (poolTake_frame b0 b1 0x8000 rfl) rfl]
    | (split <;> try (rename_i hp; with_reducible rw [Prod.ext_iff] at hp; have h' := hp.2; dsimp only at h'; subst h'))

theorem execKeyStore_wf (a0) (s : State) (h : memoriesWf s = true) : outWf (execKeyStore a0 s) := by
  unfold execKeyStore
  repeat' first
    | with_reducible assumption
    | with_reducible rfl
    | with_reducible refine failstop_wf _ _ _ ?_
    | with_reducible refine secAlarm_wf _ _ _ ?_
    | (simp only [memoriesWf_mk]; refine and_four ?_ ?_ ?_ ?_)
    | with_reducible refine memWriteBytes_wf ?_ _ _
    | with_reducible refine memClear_wf ?_ _ _
    | with_reducible exact wf_nil _
    | with_reducible refine lz_wf ?_
    | with_reducible refine sram_wf ?_
    | with_reducible refine nor_wf ?_
    | with_reducible refine staging_wf ?_
    | (with_reducible refine foldl_wf ?_ _ _ ?_; intro s x hs)
    | simp only [outWf_next, takeFree, Option.elim, apply_ite outWf, apply_ite memoriesWf, apply_ite Prod.snd, ite_self]
    | (split <;> try (rename_i hp; with_reducible rw [Prod.ext_iff] at hp; have h' := hp.2; dsimp only at h'; subst h'))

theorem lcRest_wf (s : State) (h : memoriesWf s = true) : memoriesWf (lcRest s) = true := by
  unfold lcRest
  repeat' first
    | with_reducible assumption
    | with_reducible rfl
    | with_reducible refine lcComplete_wf _ _ _ ?_
    | with_reducible refine lcNote_wf _ ?_
    | with_reducible refine lcZeroise_wf _ _ ?_
    | (simp only [memoriesWf_mk]; refine and_four ?_ ?_ ?_ ?_)
    | with_reducible refine memWriteBytes_wf ?_ _ _
    | with_reducible refine memClear_wf ?_ _ _
    | with_reducible exact wf_nil _
    | with_reducible refine lz_wf ?_
    | with_reducible refine sram_wf ?_
    | with_reducible refine nor_wf ?_
    | with_reducible refine staging_wf ?_
    | (with_reducible refine foldl_wf ?_ _ _ ?_; intro s x hs)
    | simp only [outWf_next, takeFree, Option.elim, apply_ite outWf, apply_ite memoriesWf, apply_ite Prod.snd, ite_self, fun b0 b1 b2 => wf_of_blank (fuseOwner_frame b0 b1 b2 0x10 rfl) rfl, fun b0 => wf_of_blank (lcBegin_frame b0 0x83204CAE rfl) rfl, fun b0 b1 => wf_of_blank (lcBlown_frame b0 b1 0x28 rfl) rfl, fun b0 b1 => wf_of_blank (lcFuses_frame b0 b1 0x10 rfl) rfl]
    | (split <;> try (rename_i hp; with_reducible rw [Prod.ext_iff] at hp; have h' := hp.2; dsimp only at h'; subst h'))

theorem execLcChangeDone_wf (s : State) (h : memoriesWf s = true) : outWf (execLcChangeDone s) := by
  unfold execLcChangeDone
  repeat' first
    | with_reducible assumption
    | with_reducible rfl
    | with_reducible refine lcRest_wf _ ?_
    | (simp only [memoriesWf_mk]; refine and_four ?_ ?_ ?_ ?_)
    | with_reducible refine memWriteBytes_wf ?_ _ _
    | with_reducible refine memClear_wf ?_ _ _
    | with_reducible exact wf_nil _
    | with_reducible refine lz_wf ?_
    | with_reducible refine sram_wf ?_
    | with_reducible refine nor_wf ?_
    | with_reducible refine staging_wf ?_
    | (with_reducible refine foldl_wf ?_ _ _ ?_; intro s x hs)
    | simp only [outWf_next, takeFree, Option.elim, apply_ite outWf, apply_ite memoriesWf, apply_ite Prod.snd, ite_self]
    | (split <;> try (rename_i hp; with_reducible rw [Prod.ext_iff] at hp; have h' := hp.2; dsimp only at h'; subst h'))

theorem execLowHalfWrite_wf (a0) (a1) (a2) (s : State) (h : memoriesWf s = true) : outWf (execLowHalfWrite a0 a1 a2 s) := by
  unfold execLowHalfWrite
  rw [outWf_next]
  unfold bar0Word
  repeat' first
    | with_reducible assumption
    | (rw [wf_of_blank (outside_frame _ _ _ _ 0x83204c8e rfl) rfl]; exact h)
    | (rw [wf_of_blank (accessError_frame _ _ _ 0x83204c8e rfl) rfl]; exact h)
    | with_reducible refine hostWord_wf _ _ _ _ h
    | dsimp only
    | split

theorem execMaskFault_wf (a0) (s : State) (h : memoriesWf s = true) : outWf (execMaskFault a0 s) := by
  unfold execMaskFault
  repeat' first
    | with_reducible assumption
    | with_reducible rfl
    | with_reducible refine secAlarm_wf _ _ _ ?_
    | (simp only [memoriesWf_mk]; refine and_four ?_ ?_ ?_ ?_)
    | with_reducible refine memWriteBytes_wf ?_ _ _
    | with_reducible refine memClear_wf ?_ _ _
    | with_reducible exact wf_nil _
    | with_reducible refine lz_wf ?_
    | with_reducible refine sram_wf ?_
    | with_reducible refine nor_wf ?_
    | with_reducible refine staging_wf ?_
    | (with_reducible refine foldl_wf ?_ _ _ ?_; intro s x hs)
    | simp only [outWf_next, takeFree, Option.elim, apply_ite outWf, apply_ite memoriesWf, apply_ite Prod.snd, ite_self, fun b0 b1 b2 => wf_of_blank (contain_frame b0 b1 b2 0x8320EC8E rfl) rfl]
    | (split <;> try (rename_i hp; with_reducible rw [Prod.ext_iff] at hp; have h' := hp.2; dsimp only at h'; subst h'))

theorem execNorEntryProgram_wf (s : State) (h : memoriesWf s = true) : outWf (execNorEntryProgram s) := by
  unfold execNorEntryProgram
  repeat' first
    | with_reducible assumption
    | with_reducible rfl
    | with_reducible refine norPut_wf _ _ ?_
    | (simp only [memoriesWf_mk]; refine and_four ?_ ?_ ?_ ?_)
    | with_reducible refine memWriteBytes_wf ?_ _ _
    | with_reducible refine memClear_wf ?_ _ _
    | with_reducible exact wf_nil _
    | with_reducible refine lz_wf ?_
    | with_reducible refine sram_wf ?_
    | with_reducible refine nor_wf ?_
    | with_reducible refine staging_wf ?_
    | (with_reducible refine foldl_wf ?_ _ _ ?_; intro s x hs)
    | simp only [outWf_next, takeFree, Option.elim, apply_ite outWf, apply_ite memoriesWf, apply_ite Prod.snd, ite_self]
    | (split <;> try (rename_i hp; with_reducible rw [Prod.ext_iff] at hp; have h' := hp.2; dsimp only at h'; subst h'))

theorem execPatrol_wf (a0) (s : State) (h : memoriesWf s = true) : outWf (execPatrol a0 s) := by
  unfold execPatrol
  repeat' first
    | with_reducible assumption
    | with_reducible rfl
    | with_reducible refine checkStripe_wf _ _ _ _ _ ?_
    | (simp only [memoriesWf_mk]; refine and_four ?_ ?_ ?_ ?_)
    | with_reducible refine memWriteBytes_wf ?_ _ _
    | with_reducible refine memClear_wf ?_ _ _
    | with_reducible exact wf_nil _
    | with_reducible refine lz_wf ?_
    | with_reducible refine sram_wf ?_
    | with_reducible refine nor_wf ?_
    | with_reducible refine staging_wf ?_
    | (with_reducible refine foldl_wf ?_ _ _ ?_; intro s x hs)
    | simp only [outWf_next, takeFree, Option.elim, apply_ite outWf, apply_ite memoriesWf, apply_ite Prod.snd, ite_self, fun b0 b1 => wf_of_blank (endActivity_frame b0 b1 0x100000 rfl) rfl, fun b0 b1 b2 => wf_of_blank (modStripe_frame b0 b1 b2 0x100000 rfl) rfl, fun b0 => wf_of_blank (orderTargets_frame b0 0x100000 rfl) rfl, fun b0 => wf_of_blank (startPatrol_frame b0 0x83304C8E rfl) rfl]
    | (split <;> try (rename_i hp; with_reducible rw [Prod.ext_iff] at hp; have h' := hp.2; dsimp only at h'; subst h'))

theorem execPatrolScrub_wf (a0) (a1) (a2) (s : State) (h : memoriesWf s = true) : outWf (execPatrolScrub a0 a1 a2 s) := by
  unfold execPatrolScrub
  repeat' first
    | with_reducible assumption
    | with_reducible rfl
    | with_reducible refine dramRead_wf _ _ _ _ _ ?_
    | (simp only [memoriesWf_mk]; refine and_four ?_ ?_ ?_ ?_)
    | with_reducible refine memWriteBytes_wf ?_ _ _
    | with_reducible refine memClear_wf ?_ _ _
    | with_reducible exact wf_nil _
    | with_reducible refine lz_wf ?_
    | with_reducible refine sram_wf ?_
    | with_reducible refine nor_wf ?_
    | with_reducible refine staging_wf ?_
    | (with_reducible refine foldl_wf ?_ _ _ ?_; intro s x hs)
    | simp only [outWf_next, takeFree, Option.elim, apply_ite outWf, apply_ite memoriesWf, apply_ite Prod.snd, ite_self, fun b0 b1 => wf_of_blank (emit_frame b0 b1 0x80000000 rfl) rfl]
    | (split <;> try (rename_i hp; with_reducible rw [Prod.ext_iff] at hp; have h' := hp.2; dsimp only at h'; subst h'))

theorem execPmbusAlert_wf (a0) (a1) (s : State) (h : memoriesWf s = true) : outWf (execPmbusAlert a0 a1 s) := by
  unfold execPmbusAlert
  repeat' first
    | with_reducible assumption
    | with_reducible rfl
    | with_reducible refine alertRead_wf _ _ ?_
    | (simp only [memoriesWf_mk]; refine and_four ?_ ?_ ?_ ?_)
    | with_reducible refine memWriteBytes_wf ?_ _ _
    | with_reducible refine memClear_wf ?_ _ _
    | with_reducible exact wf_nil _
    | with_reducible refine lz_wf ?_
    | with_reducible refine sram_wf ?_
    | with_reducible refine nor_wf ?_
    | with_reducible refine staging_wf ?_
    | (with_reducible refine foldl_wf ?_ _ _ ?_; intro s x hs)
    | simp only [outWf_next, takeFree, Option.elim, apply_ite outWf, apply_ite memoriesWf, apply_ite Prod.snd, ite_self]
    | (split <;> try (rename_i hp; with_reducible rw [Prod.ext_iff] at hp; have h' := hp.2; dsimp only at h'; subst h'))

theorem execPmbusPoll_wf (a0) (s : State) (h : memoriesWf s = true) : outWf (execPmbusPoll a0 s) := by
  unfold execPmbusPoll
  repeat' first
    | with_reducible assumption
    | with_reducible rfl
    | with_reducible refine regRead_wf _ _ ?_
    | (simp only [memoriesWf_mk]; refine and_four ?_ ?_ ?_ ?_)
    | with_reducible refine memWriteBytes_wf ?_ _ _
    | with_reducible refine memClear_wf ?_ _ _
    | with_reducible exact wf_nil _
    | with_reducible refine lz_wf ?_
    | with_reducible refine sram_wf ?_
    | with_reducible refine nor_wf ?_
    | with_reducible refine staging_wf ?_
    | (with_reducible refine foldl_wf ?_ _ _ ?_; intro s x hs)
    | simp only [outWf_next, takeFree, Option.elim, apply_ite outWf, apply_ite memoriesWf, apply_ite Prod.snd, ite_self, fun b0 => wf_of_blank (pollSend_frame b0 0x80000000 rfl) rfl]
    | (split <;> try (rename_i hp; with_reducible rw [Prod.ext_iff] at hp; have h' := hp.2; dsimp only at h'; subst h'))

theorem execPowerHint_wf (a0) (a1) (a2) (s : State) (h : memoriesWf s = true) : outWf (execPowerHint a0 a1 a2 s) := by
  unfold execPowerHint
  repeat' first
    | with_reducible assumption
    | with_reducible rfl
    | with_reducible refine fetched_wf _ _ _ _ _ _ _ ?_
    | (simp only [memoriesWf_mk]; refine and_four ?_ ?_ ?_ ?_)
    | with_reducible refine memWriteBytes_wf ?_ _ _
    | with_reducible refine memClear_wf ?_ _ _
    | with_reducible exact wf_nil _
    | with_reducible refine lz_wf ?_
    | with_reducible refine sram_wf ?_
    | with_reducible refine nor_wf ?_
    | with_reducible refine staging_wf ?_
    | (with_reducible refine foldl_wf ?_ _ _ ?_; intro s x hs)
    | simp only [outWf_next, takeFree, Option.elim, apply_ite outWf, apply_ite memoriesWf, apply_ite Prod.snd, ite_self]
    | (split <;> try (rename_i hp; with_reducible rw [Prod.ext_iff] at hp; have h' := hp.2; dsimp only at h'; subst h'))

theorem execProtectChunk_wf (a0) (a1) (s : State) (h : memoriesWf s = true) : outWf (execProtectChunk a0 a1 s) := by
  unfold execProtectChunk
  repeat' first
    | with_reducible assumption
    | with_reducible rfl
    | with_reducible refine takeSerial_wf _ ?_
    | (simp only [memoriesWf_mk]; refine and_four ?_ ?_ ?_ ?_)
    | with_reducible refine memWriteBytes_wf ?_ _ _
    | with_reducible refine memClear_wf ?_ _ _
    | with_reducible exact wf_nil _
    | with_reducible refine lz_wf ?_
    | with_reducible refine sram_wf ?_
    | with_reducible refine nor_wf ?_
    | with_reducible refine staging_wf ?_
    | (with_reducible refine foldl_wf ?_ _ _ ?_; intro s x hs)
    | simp only [outWf_next, takeFree, Option.elim, apply_ite outWf, apply_ite memoriesWf, apply_ite Prod.snd, ite_self, fun b0 b1 b2 => wf_of_blank (flushNoSpace_frame b0 b1 b2 0x83204C8E rfl) rfl, fun b0 b1 b2 b3 => wf_of_blank (modJob_frame b0 b1 b2 b3 0x2000 rfl) rfl, fun b0 b1 b2 b3 b4 b5 => wf_of_blank (placeObject_frame b0 b1 b2 b3 b4 b5 0x833C4C8E rfl) rfl]
    | (split <;> try (rename_i hp; with_reducible rw [Prod.ext_iff] at hp; have h' := hp.2; dsimp only at h'; subst h'))

theorem execQuery_wf (a0) (a1) (a2) (s : State) (h : memoriesWf s = true) : outWf (execQuery a0 a1 a2 s) := by
  unfold execQuery
  repeat' first
    | with_reducible assumption
    | with_reducible rfl
    | with_reducible refine fetched_wf _ _ _ _ _ _ _ ?_
    | (simp only [memoriesWf_mk]; refine and_four ?_ ?_ ?_ ?_)
    | with_reducible refine memWriteBytes_wf ?_ _ _
    | with_reducible refine memClear_wf ?_ _ _
    | with_reducible exact wf_nil _
    | with_reducible refine lz_wf ?_
    | with_reducible refine sram_wf ?_
    | with_reducible refine nor_wf ?_
    | with_reducible refine staging_wf ?_
    | (with_reducible refine foldl_wf ?_ _ _ ?_; intro s x hs)
    | simp only [outWf_next, takeFree, Option.elim, apply_ite outWf, apply_ite memoriesWf, apply_ite Prod.snd, ite_self]
    | (split <;> try (rename_i hp; with_reducible rw [Prod.ext_iff] at hp; have h' := hp.2; dsimp only at h'; subst h'))

theorem execQueryDevice_wf (a0) (a1) (a2) (s : State) (h : memoriesWf s = true) : outWf (execQueryDevice a0 a1 a2 s) := by
  unfold execQueryDevice
  repeat' first
    | with_reducible assumption
    | with_reducible rfl
    | with_reducible refine fetched_wf _ _ _ _ _ _ _ ?_
    | (simp only [memoriesWf_mk]; refine and_four ?_ ?_ ?_ ?_)
    | with_reducible refine memWriteBytes_wf ?_ _ _
    | with_reducible refine memClear_wf ?_ _ _
    | with_reducible exact wf_nil _
    | with_reducible refine lz_wf ?_
    | with_reducible refine sram_wf ?_
    | with_reducible refine nor_wf ?_
    | with_reducible refine staging_wf ?_
    | (with_reducible refine foldl_wf ?_ _ _ ?_; intro s x hs)
    | simp only [outWf_next, takeFree, Option.elim, apply_ite outWf, apply_ite memoriesWf, apply_ite Prod.snd, ite_self]
    | (split <;> try (rename_i hp; with_reducible rw [Prod.ext_iff] at hp; have h' := hp.2; dsimp only at h'; subst h'))

theorem execRasterHint_wf (a0) (a1) (a2) (s : State) (h : memoriesWf s = true) : outWf (execRasterHint a0 a1 a2 s) := by
  unfold execRasterHint
  repeat' first
    | with_reducible assumption
    | with_reducible rfl
    | with_reducible refine fetched_wf _ _ _ _ _ _ _ ?_
    | (simp only [memoriesWf_mk]; refine and_four ?_ ?_ ?_ ?_)
    | with_reducible refine memWriteBytes_wf ?_ _ _
    | with_reducible refine memClear_wf ?_ _ _
    | with_reducible exact wf_nil _
    | with_reducible refine lz_wf ?_
    | with_reducible refine sram_wf ?_
    | with_reducible refine nor_wf ?_
    | with_reducible refine staging_wf ?_
    | (with_reducible refine foldl_wf ?_ _ _ ?_; intro s x hs)
    | simp only [outWf_next, takeFree, Option.elim, apply_ite outWf, apply_ite memoriesWf, apply_ite Prod.snd, ite_self]
    | (split <;> try (rename_i hp; with_reducible rw [Prod.ext_iff] at hp; have h' := hp.2; dsimp only at h'; subst h'))

theorem execRdmaWrite_wf (a0) (a1) (a2) (a3) (s : State) (h : memoriesWf s = true) : outWf (execRdmaWrite a0 a1 a2 a3 s) := by
  unfold execRdmaWrite
  repeat' first
    | with_reducible assumption
    | with_reducible rfl
    | (simp only [memoriesWf_mk]; refine and_four ?_ ?_ ?_ ?_)
    | with_reducible refine memWriteBytes_wf ?_ _ _
    | with_reducible refine memClear_wf ?_ _ _
    | with_reducible exact wf_nil _
    | with_reducible refine lz_wf ?_
    | with_reducible refine sram_wf ?_
    | with_reducible refine nor_wf ?_
    | with_reducible refine staging_wf ?_
    | (with_reducible refine foldl_wf ?_ _ _ ?_; intro s x hs)
    | simp only [outWf_next, takeFree, Option.elim, apply_ite outWf, apply_ite memoriesWf, apply_ite Prod.snd, ite_self, fun b0 b1 b2 => wf_of_blank (rdmaRefuse_frame b0 b1 b2 0x183205C8E rfl) rfl, fun b0 b1 b2 b3 => wf_of_blank (sendRoce_frame b0 b1 b2 b3 0x80000800 rfl) rfl, fun b0 b1 b2 b3 => wf_of_blank (takeReq_frame b0 b1 b2 b3 0x183A05C8E rfl) rfl]
    | (split <;> try (rename_i hp; with_reducible rw [Prod.ext_iff] at hp; have h' := hp.2; dsimp only at h'; subst h'))

theorem execRdmaWriteWithImmediate_wf (a0) (a1) (a2) (a3) (a4) (s : State) (h : memoriesWf s = true) : outWf (execRdmaWriteWithImmediate a0 a1 a2 a3 a4 s) := by
  unfold execRdmaWriteWithImmediate
  have ha : ∀ (w : BitVec 32) (t : State), memoriesWf (eachBit w (chanAbort a0.qpn) t) = memoriesWf t := fun w t =>
    wf_of_blank (eachBit_frame w (chanAbort a0.qpn) t 0x83226c8e rfl fun k x => chanAbort_frame a0.qpn k x 0x83226c8e rfl) rfl
  repeat' first
    | with_reducible assumption
    | with_reducible rfl
    | (simp only [memoriesWf_mk]; refine and_four ?_ ?_ ?_ ?_)
    | with_reducible refine memWriteBytes_wf ?_ _ _
    | with_reducible refine memClear_wf ?_ _ _
    | with_reducible exact wf_nil _
    | with_reducible refine lz_wf ?_
    | with_reducible refine sram_wf ?_
    | with_reducible refine nor_wf ?_
    | with_reducible refine staging_wf ?_
    | (with_reducible refine foldl_wf ?_ _ _ ?_; intro s x hs)
    | simp only [ha, outWf_next, takeFree, Option.elim, apply_ite outWf, apply_ite memoriesWf, apply_ite Prod.snd, ite_self, fun b0 b1 b2 => wf_of_blank (chanAbort_frame b0 b1 b2 0x83226C8E rfl) rfl, fun b0 b1 b2 => wf_of_blank (rdmaRefuse_frame b0 b1 b2 0x183205C8E rfl) rfl, fun b0 b1 b2 b3 => wf_of_blank (sendRoce_frame b0 b1 b2 b3 0x80000800 rfl) rfl, fun b0 b1 b2 b3 => wf_of_blank (takeReq_frame b0 b1 b2 b3 0x183A05C8E rfl) rfl]
    | (split <;> try (rename_i hp; with_reducible rw [Prod.ext_iff] at hp; have h' := hp.2; dsimp only at h'; subst h'))

theorem execRead_wf (a0) (a1) (a2) (a3) (a4) (s : State) (h : memoriesWf s = true) : outWf (execRead a0 a1 a2 a3 a4 s) := by
  unfold execRead
  repeat' first
    | with_reducible assumption
    | with_reducible rfl
    | with_reducible refine fetched_wf _ _ _ _ _ _ _ ?_
    | (simp only [memoriesWf_mk]; refine and_four ?_ ?_ ?_ ?_)
    | with_reducible refine memWriteBytes_wf ?_ _ _
    | with_reducible refine memClear_wf ?_ _ _
    | with_reducible exact wf_nil _
    | with_reducible refine lz_wf ?_
    | with_reducible refine sram_wf ?_
    | with_reducible refine nor_wf ?_
    | with_reducible refine staging_wf ?_
    | (with_reducible refine foldl_wf ?_ _ _ ?_; intro s x hs)
    | simp only [outWf_next, takeFree, Option.elim, apply_ite outWf, apply_ite memoriesWf, apply_ite Prod.snd, ite_self]
    | (split <;> try (rename_i hp; with_reducible rw [Prod.ext_iff] at hp; have h' := hp.2; dsimp only at h'; subst h'))

theorem relocateBlock_wf (a0) (a1) (a2) (s : State) (h : memoriesWf s = true) : memoriesWf (relocateBlock a0 a1 a2 s) = true := by
  unfold relocateBlock
  repeat' first
    | with_reducible assumption
    | with_reducible rfl
    | with_reducible refine relocateStripe_wf _ _ _ _ ?_
    | (simp only [memoriesWf_mk]; refine and_four ?_ ?_ ?_ ?_)
    | with_reducible refine memWriteBytes_wf ?_ _ _
    | with_reducible refine memClear_wf ?_ _ _
    | with_reducible exact wf_nil _
    | with_reducible refine lz_wf ?_
    | with_reducible refine sram_wf ?_
    | with_reducible refine nor_wf ?_
    | with_reducible refine staging_wf ?_
    | (with_reducible refine foldl_wf ?_ _ _ ?_; intro s x hs)
    | simp only [outWf_next, takeFree, Option.elim, apply_ite outWf, apply_ite memoriesWf, apply_ite Prod.snd, ite_self]
    | (split <;> try (rename_i hp; with_reducible rw [Prod.ext_iff] at hp; have h' := hp.2; dsimp only at h'; subst h'))

theorem execRefreshClass_wf (a0) (a1) (a2) (a3) (a4) (s : State) (h : memoriesWf s = true) : outWf (execRefreshClass a0 a1 a2 a3 a4 s) := by
  unfold execRefreshClass
  repeat' first
    | with_reducible assumption
    | with_reducible rfl
    | with_reducible refine relocateBlock_wf _ _ _ _ ?_
    | (simp only [memoriesWf_mk]; refine and_four ?_ ?_ ?_ ?_)
    | with_reducible refine memWriteBytes_wf ?_ _ _
    | with_reducible refine memClear_wf ?_ _ _
    | with_reducible exact wf_nil _
    | with_reducible refine lz_wf ?_
    | with_reducible refine sram_wf ?_
    | with_reducible refine nor_wf ?_
    | with_reducible refine staging_wf ?_
    | (with_reducible refine foldl_wf ?_ _ _ ?_; intro s x hs)
    | simp only [outWf_next, takeFree, Option.elim, apply_ite outWf, apply_ite memoriesWf, apply_ite Prod.snd, ite_self, fun b0 b1 => wf_of_blank (endActivity_frame b0 b1 0x100000 rfl) rfl, fun b0 => wf_of_blank (eraseFree_frame b0 0x80040000 rfl) rfl, fun b0 => wf_of_blank (ledgerFigures_frame b0 0x80000 rfl) rfl, fun b0 b1 b2 b3 b4 b5 => wf_of_blank (modBlock_frame b0 b1 b2 b3 b4 b5 0x80280002 rfl) rfl, fun b0 b1 b2 b3 => wf_of_blank (record_frame b0 b1 b2 b3 0x83204C8E rfl) rfl, fun b0 b1 b2 b3 => wf_of_blank (recordAlert_frame b0 b1 b2 b3 0x83204C8E rfl) rfl, fun b0 b1 => wf_of_blank (refreshRing_frame b0 b1 0x800C0000 rfl) rfl, fun b0 b1 => wf_of_blank (requestActivity_frame b0 b1 0x83304C8E rfl) rfl, fun b0 => wf_of_blank (settleRetiring_frame b0 0x83384C8E rfl) rfl, fun b0 b1 b2 => wf_of_blank (writeRing_frame b0 b1 b2 0x800C0000 rfl) rfl]
    | (split <;> try (rename_i hp; with_reducible rw [Prod.ext_iff] at hp; have h' := hp.2; dsimp only at h'; subst h'))

theorem execRegisterWrite_wf (a0) (a1) (a2) (s : State) (h : memoriesWf s = true) : outWf (execRegisterWrite a0 a1 a2 s) := by
  unfold execRegisterWrite
  rw [outWf_next]
  unfold bar0Word
  repeat' first
    | with_reducible assumption
    | (rw [wf_of_blank (outside_frame _ _ _ _ 0x83204c8e rfl) rfl]; exact h)
    | (rw [wf_of_blank (accessError_frame _ _ _ 0x83204c8e rfl) rfl]; exact h)
    | with_reducible refine hostWord_wf _ _ _ _ h
    | dsimp only
    | split

theorem execReplicationCut_wf (a0) (a1) (a2) (s : State) (h : memoriesWf s = true) : outWf (execReplicationCut a0 a1 a2 s) := by
  unfold execReplicationCut
  repeat' first
    | with_reducible assumption
    | with_reducible rfl
    | with_reducible refine shipBatch_wf _ _ _ _ ?_
    | (simp only [memoriesWf_mk]; refine and_four ?_ ?_ ?_ ?_)
    | with_reducible refine memWriteBytes_wf ?_ _ _
    | with_reducible refine memClear_wf ?_ _ _
    | with_reducible exact wf_nil _
    | with_reducible refine lz_wf ?_
    | with_reducible refine sram_wf ?_
    | with_reducible refine nor_wf ?_
    | with_reducible refine staging_wf ?_
    | (with_reducible refine foldl_wf ?_ _ _ ?_; intro s x hs)
    | simp only [outWf_next, takeFree, Option.elim, apply_ite outWf, apply_ite memoriesWf, apply_ite Prod.snd, ite_self, fun b0 b1 => wf_of_blank (takeCut_frame b0 b1 0x5000 rfl) rfl]
    | (split <;> try (rename_i hp; with_reducible rw [Prod.ext_iff] at hp; have h' := hp.2; dsimp only at h'; subst h'))

theorem execResetQueue_wf (a0) (a1) (a2) (s : State) (h : memoriesWf s = true) : outWf (execResetQueue a0 a1 a2 s) := by
  unfold execResetQueue
  repeat' first
    | with_reducible assumption
    | with_reducible rfl
    | with_reducible refine fetched_wf _ _ _ _ _ _ _ ?_
    | (simp only [memoriesWf_mk]; refine and_four ?_ ?_ ?_ ?_)
    | with_reducible refine memWriteBytes_wf ?_ _ _
    | with_reducible refine memClear_wf ?_ _ _
    | with_reducible exact wf_nil _
    | with_reducible refine lz_wf ?_
    | with_reducible refine sram_wf ?_
    | with_reducible refine nor_wf ?_
    | with_reducible refine staging_wf ?_
    | (with_reducible refine foldl_wf ?_ _ _ ?_; intro s x hs)
    | simp only [outWf_next, takeFree, Option.elim, apply_ite outWf, apply_ite memoriesWf, apply_ite Prod.snd, ite_self]
    | (split <;> try (rename_i hp; with_reducible rw [Prod.ext_iff] at hp; have h' := hp.2; dsimp only at h'; subst h'))

theorem execReshape_wf (a0) (s : State) (h : memoriesWf s = true) : outWf (execReshape a0 s) := by
  unfold execReshape
  repeat' first
    | with_reducible assumption
    | with_reducible rfl
    | with_reducible refine copyShadow_wf _ _ _ _ ?_
    | with_reducible refine relocateStripe_wf _ _ _ _ ?_
    | (simp only [memoriesWf_mk]; refine and_four ?_ ?_ ?_ ?_)
    | with_reducible refine memWriteBytes_wf ?_ _ _
    | with_reducible refine memClear_wf ?_ _ _
    | with_reducible exact wf_nil _
    | with_reducible refine lz_wf ?_
    | with_reducible refine sram_wf ?_
    | with_reducible refine nor_wf ?_
    | with_reducible refine staging_wf ?_
    | (with_reducible refine foldl_wf ?_ _ _ ?_; intro s x hs)
    | simp only [outWf_next, takeFree, Option.elim, apply_ite outWf, apply_ite memoriesWf, apply_ite Prod.snd, ite_self, fun b0 => wf_of_blank (leaveStream_frame b0 0x80000 rfl) rfl, fun b0 => wf_of_blank (nextVolume_frame b0 0x100000 rfl) rfl, fun b0 => wf_of_blank (reshapeOver_frame b0 0x83304C8E rfl) rfl, fun b0 b1 => wf_of_blank (switchVolume_frame b0 b1 0x1833C7C8E rfl) rfl]
    | (split <;> try (rename_i hp; with_reducible rw [Prod.ext_iff] at hp; have h' := hp.2; dsimp only at h'; subst h'))

theorem execRetain_wf (a0) (a1) (a2) (s : State) (h : memoriesWf s = true) : outWf (execRetain a0 a1 a2 s) := by
  unfold execRetain
  repeat' first
    | with_reducible assumption
    | with_reducible rfl
    | with_reducible refine fetched_wf _ _ _ _ _ _ _ ?_
    | (simp only [memoriesWf_mk]; refine and_four ?_ ?_ ?_ ?_)
    | with_reducible refine memWriteBytes_wf ?_ _ _
    | with_reducible refine memClear_wf ?_ _ _
    | with_reducible exact wf_nil _
    | with_reducible refine lz_wf ?_
    | with_reducible refine sram_wf ?_
    | with_reducible refine nor_wf ?_
    | with_reducible refine staging_wf ?_
    | (with_reducible refine foldl_wf ?_ _ _ ?_; intro s x hs)
    | simp only [outWf_next, takeFree, Option.elim, apply_ite outWf, apply_ite memoriesWf, apply_ite Prod.snd, ite_self]
    | (split <;> try (rename_i hp; with_reducible rw [Prod.ext_iff] at hp; have h' := hp.2; dsimp only at h'; subst h'))

theorem execRideThroughExpiry_wf (s : State) (h : memoriesWf s = true) : outWf (execRideThroughExpiry s) := by
  unfold execRideThroughExpiry
  repeat' first
    | with_reducible assumption
    | with_reducible rfl
    | with_reducible refine flushCommit_wf _ _ ?_
    | (simp only [memoriesWf_mk]; refine and_four ?_ ?_ ?_ ?_)
    | with_reducible refine memWriteBytes_wf ?_ _ _
    | with_reducible refine memClear_wf ?_ _ _
    | with_reducible exact wf_nil _
    | with_reducible refine lz_wf ?_
    | with_reducible refine sram_wf ?_
    | with_reducible refine nor_wf ?_
    | with_reducible refine staging_wf ?_
    | (with_reducible refine foldl_wf ?_ _ _ ?_; intro s x hs)
    | simp only [outWf_next, takeFree, Option.elim, apply_ite outWf, apply_ite memoriesWf, apply_ite Prod.snd, ite_self]
    | (split <;> try (rename_i hp; with_reducible rw [Prod.ext_iff] at hp; have h' := hp.2; dsimp only at h'; subst h'))

theorem retireCore_wf (a0) (s : State) (h : memoriesWf s = true) : memoriesWf (retireCore a0 s) = true := by
  unfold retireCore
  repeat' first
    | with_reducible assumption
    | with_reducible rfl
    | with_reducible refine failstop_wf _ _ _ ?_
    | (simp only [memoriesWf_mk]; refine and_four ?_ ?_ ?_ ?_)
    | with_reducible refine memWriteBytes_wf ?_ _ _
    | with_reducible refine memClear_wf ?_ _ _
    | with_reducible exact wf_nil _
    | with_reducible refine lz_wf ?_
    | with_reducible refine sram_wf ?_
    | with_reducible refine nor_wf ?_
    | with_reducible refine staging_wf ?_
    | (with_reducible refine foldl_wf ?_ _ _ ?_; intro s x hs)
    | simp only [outWf_next, takeFree, Option.elim, apply_ite outWf, apply_ite memoriesWf, apply_ite Prod.snd, ite_self, fun b0 b1 => wf_of_blank (moveAgents_frame b0 b1 0x101000000 rfl) rfl, fun b0 b1 => wf_of_blank (retireElement_frame b0 b1 0x83204C8E rfl) rfl]
    | (split <;> try (rename_i hp; with_reducible rw [Prod.ext_iff] at hp; have h' := hp.2; dsimp only at h'; subst h'))

theorem retireRows_wf (a0) (a1) (s : State) (h : memoriesWf s = true) : memoriesWf (retireRows a0 a1 s) = true := by
  unfold retireRows
  repeat' first
    | with_reducible assumption
    | with_reducible rfl
    | with_reducible refine failstop_wf _ _ _ ?_
    | (simp only [memoriesWf_mk]; refine and_four ?_ ?_ ?_ ?_)
    | with_reducible refine memWriteBytes_wf ?_ _ _
    | with_reducible refine memClear_wf ?_ _ _
    | with_reducible exact wf_nil _
    | with_reducible refine lz_wf ?_
    | with_reducible refine sram_wf ?_
    | with_reducible refine nor_wf ?_
    | with_reducible refine staging_wf ?_
    | (with_reducible refine foldl_wf ?_ _ _ ?_; intro s x hs)
    | simp only [outWf_next, takeFree, Option.elim, apply_ite outWf, apply_ite memoriesWf, apply_ite Prod.snd, ite_self, fun b0 b1 b2 b3 => wf_of_blank (record_frame b0 b1 b2 b3 0x83204C8E rfl) rfl, fun b0 b1 => wf_of_blank (releasePort_frame b0 b1 0x83204C8E rfl) rfl, fun b0 b1 => wf_of_blank (retireElement_frame b0 b1 0x83204C8E rfl) rfl]
    | (split <;> try (rename_i hp; with_reducible rw [Prod.ext_iff] at hp; have h' := hp.2; dsimp only at h'; subst h'))

theorem retireLane_wf (a0) (s : State) (h : memoriesWf s = true) : memoriesWf (retireLane a0 s) = true := by
  unfold retireLane
  repeat' first
    | with_reducible assumption
    | with_reducible rfl
    | with_reducible refine failstop_wf _ _ _ ?_
    | (simp only [memoriesWf_mk]; refine and_four ?_ ?_ ?_ ?_)
    | with_reducible refine memWriteBytes_wf ?_ _ _
    | with_reducible refine memClear_wf ?_ _ _
    | with_reducible exact wf_nil _
    | with_reducible refine lz_wf ?_
    | with_reducible refine sram_wf ?_
    | with_reducible refine nor_wf ?_
    | with_reducible refine staging_wf ?_
    | (with_reducible refine foldl_wf ?_ _ _ ?_; intro s x hs)
    | simp only [outWf_next, takeFree, Option.elim, apply_ite outWf, apply_ite memoriesWf, apply_ite Prod.snd, ite_self, fun b0 b1 b2 b3 => wf_of_blank (recordAlert_frame b0 b1 b2 b3 0x83204C8E rfl) rfl, fun b0 b1 => wf_of_blank (retireElement_frame b0 b1 0x83204C8E rfl) rfl]
    | (split <;> try (rename_i hp; with_reducible rw [Prod.ext_iff] at hp; have h' := hp.2; dsimp only at h'; subst h'))

theorem lastingOutcome_wf (a0) (a1) (s : State) (h : memoriesWf s = true) : memoriesWf (lastingOutcome a0 a1 s) = true := by
  unfold lastingOutcome
  repeat' first
    | with_reducible assumption
    | with_reducible rfl
    | with_reducible refine failstop_wf _ _ _ ?_
    | with_reducible refine retireCore_wf _ _ ?_
    | with_reducible refine retireLane_wf _ _ ?_
    | with_reducible refine retireRows_wf _ _ _ ?_
    | (simp only [memoriesWf_mk]; refine and_four ?_ ?_ ?_ ?_)
    | with_reducible refine memWriteBytes_wf ?_ _ _
    | with_reducible refine memClear_wf ?_ _ _
    | with_reducible exact wf_nil _
    | with_reducible refine lz_wf ?_
    | with_reducible refine sram_wf ?_
    | with_reducible refine nor_wf ?_
    | with_reducible refine staging_wf ?_
    | (with_reducible refine foldl_wf ?_ _ _ ?_; intro s x hs)
    | simp only [outWf_next, takeFree, Option.elim, apply_ite outWf, apply_ite memoriesWf, apply_ite Prod.snd, ite_self, fun b0 b1 b2 => wf_of_blank (retireDram_frame b0 b1 b2 0x83204C8E rfl) rfl, fun b0 b1 => wf_of_blank (retireElement_frame b0 b1 0x83204C8E rfl) rfl, fun b0 b1 => wf_of_blank (retirePortLane_frame b0 b1 0x1833C7C8F rfl) rfl]
    | (split <;> try (rename_i hp; with_reducible rw [Prod.ext_iff] at hp; have h' := hp.2; dsimp only at h'; subst h'))

theorem execSelfTest_wf (a0) (a1) (a2) (a3) (s : State) (h : memoriesWf s = true) : outWf (execSelfTest a0 a1 a2 a3 s) := by
  unfold execSelfTest
  repeat' first
    | with_reducible assumption
    | with_reducible rfl
    | with_reducible refine lastingOutcome_wf _ _ _ ?_
    | (simp only [memoriesWf_mk]; refine and_four ?_ ?_ ?_ ?_)
    | with_reducible refine memWriteBytes_wf ?_ _ _
    | with_reducible refine memClear_wf ?_ _ _
    | with_reducible exact wf_nil _
    | with_reducible refine lz_wf ?_
    | with_reducible refine sram_wf ?_
    | with_reducible refine nor_wf ?_
    | with_reducible refine staging_wf ?_
    | (with_reducible refine foldl_wf ?_ _ _ ?_; intro s x hs)
    | simp only [outWf_next, takeFree, Option.elim, apply_ite outWf, apply_ite memoriesWf, apply_ite Prod.snd, ite_self, fun b0 b1 b2 => wf_of_blank (modCtl_frame b0 b1 b2 0x1000000 rfl) rfl, fun b0 b1 b2 b3 => wf_of_blank (record_frame b0 b1 b2 b3 0x83204C8E rfl) rfl, fun b0 b1 => wf_of_blank (releasePort_frame b0 b1 0x83204C8E rfl) rfl, fun b0 b1 => wf_of_blank (scheduleAgent_frame b0 b1 0x101000000 rfl) rfl]
    | (split <;> try (rename_i hp; with_reducible rw [Prod.ext_iff] at hp; have h' := hp.2; dsimp only at h'; subst h'))

theorem execSetPeriod_wf (a0) (a1) (a2) (s : State) (h : memoriesWf s = true) : outWf (execSetPeriod a0 a1 a2 s) := by
  unfold execSetPeriod
  repeat' first
    | with_reducible assumption
    | with_reducible rfl
    | with_reducible refine fetched_wf _ _ _ _ _ _ _ ?_
    | (simp only [memoriesWf_mk]; refine and_four ?_ ?_ ?_ ?_)
    | with_reducible refine memWriteBytes_wf ?_ _ _
    | with_reducible refine memClear_wf ?_ _ _
    | with_reducible exact wf_nil _
    | with_reducible refine lz_wf ?_
    | with_reducible refine sram_wf ?_
    | with_reducible refine nor_wf ?_
    | with_reducible refine staging_wf ?_
    | (with_reducible refine foldl_wf ?_ _ _ ?_; intro s x hs)
    | simp only [outWf_next, takeFree, Option.elim, apply_ite outWf, apply_ite memoriesWf, apply_ite Prod.snd, ite_self]
    | (split <;> try (rename_i hp; with_reducible rw [Prod.ext_iff] at hp; have h' := hp.2; dsimp only at h'; subst h'))

theorem execSetTime_wf (a0) (a1) (a2) (s : State) (h : memoriesWf s = true) : outWf (execSetTime a0 a1 a2 s) := by
  unfold execSetTime
  repeat' first
    | with_reducible assumption
    | with_reducible rfl
    | with_reducible refine fetched_wf _ _ _ _ _ _ _ ?_
    | (simp only [memoriesWf_mk]; refine and_four ?_ ?_ ?_ ?_)
    | with_reducible refine memWriteBytes_wf ?_ _ _
    | with_reducible refine memClear_wf ?_ _ _
    | with_reducible exact wf_nil _
    | with_reducible refine lz_wf ?_
    | with_reducible refine sram_wf ?_
    | with_reducible refine nor_wf ?_
    | with_reducible refine staging_wf ?_
    | (with_reducible refine foldl_wf ?_ _ _ ?_; intro s x hs)
    | simp only [outWf_next, takeFree, Option.elim, apply_ite outWf, apply_ite memoriesWf, apply_ite Prod.snd, ite_self]
    | (split <;> try (rename_i hp; with_reducible rw [Prod.ext_iff] at hp; have h' := hp.2; dsimp only at h'; subst h'))

theorem execSnapDelete_wf (a0) (a1) (a2) (s : State) (h : memoriesWf s = true) : outWf (execSnapDelete a0 a1 a2 s) := by
  unfold execSnapDelete
  repeat' first
    | with_reducible assumption
    | with_reducible rfl
    | with_reducible refine fetched_wf _ _ _ _ _ _ _ ?_
    | (simp only [memoriesWf_mk]; refine and_four ?_ ?_ ?_ ?_)
    | with_reducible refine memWriteBytes_wf ?_ _ _
    | with_reducible refine memClear_wf ?_ _ _
    | with_reducible exact wf_nil _
    | with_reducible refine lz_wf ?_
    | with_reducible refine sram_wf ?_
    | with_reducible refine nor_wf ?_
    | with_reducible refine staging_wf ?_
    | (with_reducible refine foldl_wf ?_ _ _ ?_; intro s x hs)
    | simp only [outWf_next, takeFree, Option.elim, apply_ite outWf, apply_ite memoriesWf, apply_ite Prod.snd, ite_self]
    | (split <;> try (rename_i hp; with_reducible rw [Prod.ext_iff] at hp; have h' := hp.2; dsimp only at h'; subst h'))

theorem execSnapshot_wf (a0) (a1) (a2) (s : State) (h : memoriesWf s = true) : outWf (execSnapshot a0 a1 a2 s) := by
  unfold execSnapshot
  repeat' first
    | with_reducible assumption
    | with_reducible rfl
    | with_reducible refine fetched_wf _ _ _ _ _ _ _ ?_
    | (simp only [memoriesWf_mk]; refine and_four ?_ ?_ ?_ ?_)
    | with_reducible refine memWriteBytes_wf ?_ _ _
    | with_reducible refine memClear_wf ?_ _ _
    | with_reducible exact wf_nil _
    | with_reducible refine lz_wf ?_
    | with_reducible refine sram_wf ?_
    | with_reducible refine nor_wf ?_
    | with_reducible refine staging_wf ?_
    | (with_reducible refine foldl_wf ?_ _ _ ?_; intro s x hs)
    | simp only [outWf_next, takeFree, Option.elim, apply_ite outWf, apply_ite memoriesWf, apply_ite Prod.snd, ite_self]
    | (split <;> try (rename_i hp; with_reducible rw [Prod.ext_iff] at hp; have h' := hp.2; dsimp only at h'; subst h'))

theorem execStageCfg_wf (s : State) (h : memoriesWf s = true) : outWf (execStageCfg s) := by
  unfold execStageCfg
  repeat' first
    | with_reducible assumption
    | with_reducible rfl
    | with_reducible refine stageCfg_wf _ ?_
    | with_reducible refine updTouched_wf _ ?_
    | (simp only [memoriesWf_mk]; refine and_four ?_ ?_ ?_ ?_)
    | with_reducible refine memWriteBytes_wf ?_ _ _
    | with_reducible refine memClear_wf ?_ _ _
    | with_reducible exact wf_nil _
    | with_reducible refine lz_wf ?_
    | with_reducible refine sram_wf ?_
    | with_reducible refine nor_wf ?_
    | with_reducible refine staging_wf ?_
    | (with_reducible refine foldl_wf ?_ _ _ ?_; intro s x hs)
    | simp only [outWf_next, takeFree, Option.elim, apply_ite outWf, apply_ite memoriesWf, apply_ite Prod.snd, ite_self]
    | (split <;> try (rename_i hp; with_reducible rw [Prod.ext_iff] at hp; have h' := hp.2; dsimp only at h'; subst h'))

theorem execStageFw_wf (a0) (s : State) (h : memoriesWf s = true) : outWf (execStageFw a0 s) := by
  unfold execStageFw
  repeat' first
    | with_reducible assumption
    | with_reducible rfl
    | with_reducible refine stageFw_wf _ _ ?_
    | with_reducible refine updTouched_wf _ ?_
    | (simp only [memoriesWf_mk]; refine and_four ?_ ?_ ?_ ?_)
    | with_reducible refine memWriteBytes_wf ?_ _ _
    | with_reducible refine memClear_wf ?_ _ _
    | with_reducible exact wf_nil _
    | with_reducible refine lz_wf ?_
    | with_reducible refine sram_wf ?_
    | with_reducible refine nor_wf ?_
    | with_reducible refine staging_wf ?_
    | (with_reducible refine foldl_wf ?_ _ _ ?_; intro s x hs)
    | simp only [outWf_next, takeFree, Option.elim, apply_ite outWf, apply_ite memoriesWf, apply_ite Prod.snd, ite_self]
    | (split <;> try (rename_i hp; with_reducible rw [Prod.ext_iff] at hp; have h' := hp.2; dsimp only at h'; subst h'))

theorem execStaged_wf (a0) (a1) (s : State) (h : memoriesWf s = true) : outWf (execStaged a0 a1 s) := by
  unfold execStaged
  repeat' first
    | with_reducible assumption
    | with_reducible rfl
    | with_reducible refine endStageCfg_wf _ _ _ ?_
    | with_reducible refine endStageFw_wf _ _ ?_
    | with_reducible refine norErase_wf _ _ _ ?_
    | with_reducible refine norWrite_wf _ _ _ ?_
    | with_reducible refine stageFailed_wf _ _ ?_
    | (simp only [memoriesWf_mk]; refine and_four ?_ ?_ ?_ ?_)
    | with_reducible refine memWriteBytes_wf ?_ _ _
    | with_reducible refine memClear_wf ?_ _ _
    | with_reducible exact wf_nil _
    | with_reducible refine lz_wf ?_
    | with_reducible refine sram_wf ?_
    | with_reducible refine nor_wf ?_
    | with_reducible refine staging_wf ?_
    | (with_reducible refine foldl_wf ?_ _ _ ?_; intro s x hs)
    | simp only [outWf_next, takeFree, Option.elim, apply_ite outWf, apply_ite memoriesWf, apply_ite Prod.snd, ite_self]
    | (split <;> try (rename_i hp; with_reducible rw [Prod.ext_iff] at hp; have h' := hp.2; dsimp only at h'; subst h'))

theorem execStagingTimeout_wf (s : State) (h : memoriesWf s = true) : outWf (execStagingTimeout s) := by
  unfold execStagingTimeout
  repeat' first
    | with_reducible assumption
    | with_reducible rfl
    | with_reducible refine releaseBuffer_wf _ ?_
    | (simp only [memoriesWf_mk]; refine and_four ?_ ?_ ?_ ?_)
    | with_reducible refine memWriteBytes_wf ?_ _ _
    | with_reducible refine memClear_wf ?_ _ _
    | with_reducible exact wf_nil _
    | with_reducible refine lz_wf ?_
    | with_reducible refine sram_wf ?_
    | with_reducible refine nor_wf ?_
    | with_reducible refine staging_wf ?_
    | (with_reducible refine foldl_wf ?_ _ _ ?_; intro s x hs)
    | simp only [outWf_next, takeFree, Option.elim, apply_ite outWf, apply_ite memoriesWf, apply_ite Prod.snd, ite_self]
    | (split <;> try (rename_i hp; with_reducible rw [Prod.ext_iff] at hp; have h' := hp.2; dsimp only at h'; subst h'))

theorem execStartDone_wf (a0) (s : State) (h : memoriesWf s = true) : outWf (execStartDone a0 s) := by
  unfold execStartDone
  repeat' first
    | with_reducible assumption
    | with_reducible rfl
    | with_reducible refine enterReady_wf _ _ ?_
    | (simp only [memoriesWf_mk]; refine and_four ?_ ?_ ?_ ?_)
    | with_reducible refine memWriteBytes_wf ?_ _ _
    | with_reducible refine memClear_wf ?_ _ _
    | with_reducible exact wf_nil _
    | with_reducible refine lz_wf ?_
    | with_reducible refine sram_wf ?_
    | with_reducible refine nor_wf ?_
    | with_reducible refine staging_wf ?_
    | (with_reducible refine foldl_wf ?_ _ _ ?_; intro s x hs)
    | simp only [outWf_next, takeFree, Option.elim, apply_ite outWf, apply_ite memoriesWf, apply_ite Prod.snd, ite_self, fun b0 => wf_of_blank (noteMedia_frame b0 0x1 rfl) rfl, fun b0 => wf_of_blank (rebudget_frame b0 0x83204C8E rfl) rfl, fun b0 b1 b2 b3 b4 b5 => wf_of_blank (xhlSend_frame b0 b1 b2 b3 b4 b5 0x80200002 rfl) rfl]
    | (split <;> try (rename_i hp; with_reducible rw [Prod.ext_iff] at hp; have h' := hp.2; dsimp only at h'; subst h'))

theorem execStripeRebuilt_wf (a0) (a1) (a2) (s : State) (h : memoriesWf s = true) : outWf (execStripeRebuilt a0 a1 a2 s) := by
  unfold execStripeRebuilt
  repeat' first
    | with_reducible assumption
    | with_reducible rfl
    | with_reducible refine loseMissing_wf _ _ _ _ ?_
    | with_reducible refine loseObject_wf _ _ _ _ _ ?_
    | with_reducible refine relocateObject_wf _ _ _ _ ?_
    | (simp only [memoriesWf_mk]; refine and_four ?_ ?_ ?_ ?_)
    | with_reducible refine memWriteBytes_wf ?_ _ _
    | with_reducible refine memClear_wf ?_ _ _
    | with_reducible exact wf_nil _
    | with_reducible refine lz_wf ?_
    | with_reducible refine sram_wf ?_
    | with_reducible refine nor_wf ?_
    | with_reducible refine staging_wf ?_
    | (with_reducible refine foldl_wf ?_ _ _ ?_; intro s x hs)
    | simp only [outWf_next, takeFree, Option.elim, apply_ite outWf, apply_ite memoriesWf, apply_ite Prod.snd, ite_self, fun b0 => wf_of_blank (checkSpare_frame b0 0x83304C8E rfl) rfl, fun b0 b1 => wf_of_blank (dropTargets_frame b0 b1 0x100000 rfl) rfl, fun b0 => wf_of_blank (endRebuild_frame b0 0x83304C8E rfl) rfl, fun b0 b1 b2 => wf_of_blank (modStripe_frame b0 b1 b2 0x100000 rfl) rfl, fun b0 b1 b2 b3 b4 => wf_of_blank (moveStrip_frame b0 b1 b2 b3 b4 0x833C4C8E rfl) rfl, fun b0 => wf_of_blank (noteMapChange_frame b0 0x80000 rfl) rfl, fun b0 => wf_of_blank (settleRetiring_frame b0 0x83384C8E rfl) rfl, fun b0 b1 => wf_of_blank (staleMeta_frame b0 b1 0x180000 rfl) rfl]
    | (split <;> try (rename_i hp; with_reducible rw [Prod.ext_iff] at hp; have h' := hp.2; dsimp only at h'; subst h'))

theorem execStripeResync_wf (a0) (s : State) (h : memoriesWf s = true) : outWf (execStripeResync a0 s) := by
  unfold execStripeResync
  repeat' first
    | with_reducible assumption
    | with_reducible rfl
    | with_reducible refine checkStripe_wf _ _ _ _ _ ?_
    | (simp only [memoriesWf_mk]; refine and_four ?_ ?_ ?_ ?_)
    | with_reducible refine memWriteBytes_wf ?_ _ _
    | with_reducible refine memClear_wf ?_ _ _
    | with_reducible exact wf_nil _
    | with_reducible refine lz_wf ?_
    | with_reducible refine sram_wf ?_
    | with_reducible refine nor_wf ?_
    | with_reducible refine staging_wf ?_
    | (with_reducible refine foldl_wf ?_ _ _ ?_; intro s x hs)
    | simp only [outWf_next, takeFree, Option.elim, apply_ite outWf, apply_ite memoriesWf, apply_ite Prod.snd, ite_self, fun b0 b1 b2 => wf_of_blank (modStripe_frame b0 b1 b2 0x100000 rfl) rfl, fun b0 => wf_of_blank (orderTargets_frame b0 0x100000 rfl) rfl]
    | (split <;> try (rename_i hp; with_reducible rw [Prod.ext_iff] at hp; have h' := hp.2; dsimp only at h'; subst h'))

theorem execSupervisorDivergence_wf (s : State) (h : memoriesWf s = true) : outWf (execSupervisorDivergence s) := by
  unfold execSupervisorDivergence
  repeat' first
    | with_reducible assumption
    | with_reducible rfl
    | with_reducible refine failstop_wf _ _ _ ?_
    | (simp only [memoriesWf_mk]; refine and_four ?_ ?_ ?_ ?_)
    | with_reducible refine memWriteBytes_wf ?_ _ _
    | with_reducible refine memClear_wf ?_ _ _
    | with_reducible exact wf_nil _
    | with_reducible refine lz_wf ?_
    | with_reducible refine sram_wf ?_
    | with_reducible refine nor_wf ?_
    | with_reducible refine staging_wf ?_
    | (with_reducible refine foldl_wf ?_ _ _ ?_; intro s x hs)
    | simp only [outWf_next, takeFree, Option.elim, apply_ite outWf, apply_ite memoriesWf, apply_ite Prod.snd, ite_self]
    | (split <;> try (rename_i hp; with_reducible rw [Prod.ext_iff] at hp; have h' := hp.2; dsimp only at h'; subst h'))

theorem execTelem_wf (a0) (a1) (s : State) (h : memoriesWf s = true) : outWf (execTelem a0 a1 s) := by
  unfold execTelem
  repeat' first
    | with_reducible assumption
    | with_reducible rfl
    | with_reducible refine tick_wf _ ?_
    | (simp only [memoriesWf_mk]; refine and_four ?_ ?_ ?_ ?_)
    | with_reducible refine memWriteBytes_wf ?_ _ _
    | with_reducible refine memClear_wf ?_ _ _
    | with_reducible exact wf_nil _
    | with_reducible refine lz_wf ?_
    | with_reducible refine sram_wf ?_
    | with_reducible refine nor_wf ?_
    | with_reducible refine staging_wf ?_
    | (with_reducible refine foldl_wf ?_ _ _ ?_; intro s x hs)
    | simp only [outWf_next, takeFree, Option.elim, apply_ite outWf, apply_ite memoriesWf, apply_ite Prod.snd, ite_self, fun b0 b1 b2 b3 => wf_of_blank (ageZone_frame b0 b1 b2 b3 0x80000 rfl) rfl, fun b0 b1 => wf_of_blank (dmlRun_frame b0 b1 0x80040000 rfl) rfl, fun b0 b1 b2 b3 => wf_of_blank (fenceReport_frame b0 b1 b2 b3 0x83244C8E rfl) rfl, fun b0 => wf_of_blank (ledgerFigures_frame b0 0x80000 rfl) rfl, fun b0 b1 b2 => wf_of_blank (modPort_frame b0 b1 b2 0x40000 rfl) rfl, fun b0 b1 b2 => wf_of_blank (moduleHeat_frame b0 b1 b2 0x83A44C8E rfl) rfl]
    | (split <;> try (rename_i hp; with_reducible rw [Prod.ext_iff] at hp; have h' := hp.2; dsimp only at h'; subst h'))

theorem execTransferError_wf (a0) (a1) (a2) (a3) (s : State) (h : memoriesWf s = true) : outWf (execTransferError a0 a1 a2 a3 s) := by
  unfold execTransferError
  repeat' first
    | with_reducible assumption
    | with_reducible rfl
    | with_reducible refine listArrived_wf _ _ _ _ _ _ ?_
    | (simp only [memoriesWf_mk]; refine and_four ?_ ?_ ?_ ?_)
    | with_reducible refine memWriteBytes_wf ?_ _ _
    | with_reducible refine memClear_wf ?_ _ _
    | with_reducible exact wf_nil _
    | with_reducible refine lz_wf ?_
    | with_reducible refine sram_wf ?_
    | with_reducible refine nor_wf ?_
    | with_reducible refine staging_wf ?_
    | (with_reducible refine foldl_wf ?_ _ _ ?_; intro s x hs)
    | simp only [outWf_next, takeFree, Option.elim, apply_ite outWf, apply_ite memoriesWf, apply_ite Prod.snd, ite_self, fun b0 b1 => wf_of_blank (abortSentOn_frame b0 b1 0x80200002 rfl) rfl, fun b0 b1 b2 => wf_of_blank (aerTransfer_frame b0 b1 b2 0x80000080 rfl) rfl, fun b0 b1 => wf_of_blank (dropWrite_frame b0 b1 0x83206C8E rfl) rfl, fun b0 b1 b2 => wf_of_blank (endReady_frame b0 b1 b2 0x83204C8E rfl) rfl, fun b0 b1 b2 b3 b4 b5 => wf_of_blank (finish_frame b0 b1 b2 b3 b4 b5 0x83204C8E rfl) rfl, fun b0 b1 b2 => wf_of_blank (freezeQueue_frame b0 b1 b2 0x183204C8E rfl) rfl, fun b0 b1 b2 => wf_of_blank (modQueue_frame b0 b1 b2 0x400 rfl) rfl, fun b0 b1 b2 => wf_of_blank (recordTransfer_frame b0 b1 b2 0x183204C8E rfl) rfl, fun b0 b1 => wf_of_blank (settleQueue_frame b0 b1 0x83204C8E rfl) rfl]
    | (split <;> try (rename_i hp; with_reducible rw [Prod.ext_iff] at hp; have h' := hp.2; dsimp only at h'; subst h'))

theorem execUpdAbort_wf (s : State) (h : memoriesWf s = true) : outWf (execUpdAbort s) := by
  unfold execUpdAbort
  repeat' first
    | with_reducible assumption
    | with_reducible rfl
    | with_reducible refine releaseBuffer_wf _ ?_
    | with_reducible refine updTouched_wf _ ?_
    | (simp only [memoriesWf_mk]; refine and_four ?_ ?_ ?_ ?_)
    | with_reducible refine memWriteBytes_wf ?_ _ _
    | with_reducible refine memClear_wf ?_ _ _
    | with_reducible exact wf_nil _
    | with_reducible refine lz_wf ?_
    | with_reducible refine sram_wf ?_
    | with_reducible refine nor_wf ?_
    | with_reducible refine staging_wf ?_
    | (with_reducible refine foldl_wf ?_ _ _ ?_; intro s x hs)
    | simp only [outWf_next, takeFree, Option.elim, apply_ite outWf, apply_ite memoriesWf, apply_ite Prod.snd, ite_self]
    | (split <;> try (rename_i hp; with_reducible rw [Prod.ext_iff] at hp; have h' := hp.2; dsimp only at h'; subst h'))

theorem execUpdActivate_wf (a0) (s : State) (h : memoriesWf s = true) : outWf (execUpdActivate a0 s) := by
  unfold execUpdActivate
  repeat' first
    | with_reducible assumption
    | with_reducible rfl
    | with_reducible refine activate_wf _ _ ?_
    | with_reducible refine updRefuse_wf _ ?_
    | with_reducible refine updTouched_wf _ ?_
    | (simp only [memoriesWf_mk]; refine and_four ?_ ?_ ?_ ?_)
    | with_reducible refine memWriteBytes_wf ?_ _ _
    | with_reducible refine memClear_wf ?_ _ _
    | with_reducible exact wf_nil _
    | with_reducible refine lz_wf ?_
    | with_reducible refine sram_wf ?_
    | with_reducible refine nor_wf ?_
    | with_reducible refine staging_wf ?_
    | (with_reducible refine foldl_wf ?_ _ _ ?_; intro s x hs)
    | simp only [outWf_next, takeFree, Option.elim, apply_ite outWf, apply_ite memoriesWf, apply_ite Prod.snd, ite_self]
    | (split <;> try (rename_i hp; with_reducible rw [Prod.ext_iff] at hp; have h' := hp.2; dsimp only at h'; subst h'))

theorem execUpdDataWrite_wf (a0) (a1) (s : State) (h : memoriesWf s = true) : outWf (execUpdDataWrite a0 a1 s) := by
  unfold execUpdDataWrite
  repeat' first
    | with_reducible assumption
    | with_reducible rfl
    | with_reducible refine stageWord_wf _ _ _ ?_
    | with_reducible refine updTouched_wf _ ?_
    | (simp only [memoriesWf_mk]; refine and_four ?_ ?_ ?_ ?_)
    | with_reducible refine memWriteBytes_wf ?_ _ _
    | with_reducible refine memClear_wf ?_ _ _
    | with_reducible exact wf_nil _
    | with_reducible refine lz_wf ?_
    | with_reducible refine sram_wf ?_
    | with_reducible refine nor_wf ?_
    | with_reducible refine staging_wf ?_
    | (with_reducible refine foldl_wf ?_ _ _ ?_; intro s x hs)
    | simp only [outWf_next, takeFree, Option.elim, apply_ite outWf, apply_ite memoriesWf, apply_ite Prod.snd, ite_self]
    | (split <;> try (rename_i hp; with_reducible rw [Prod.ext_iff] at hp; have h' := hp.2; dsimp only at h'; subst h'))

theorem execUpdOpen_wf (s : State) (h : memoriesWf s = true) : outWf (execUpdOpen s) := by
  unfold execUpdOpen
  repeat' first
    | with_reducible assumption
    | with_reducible rfl
    | with_reducible refine openBuffer_wf _ ?_
    | with_reducible refine updTouched_wf _ ?_
    | (simp only [memoriesWf_mk]; refine and_four ?_ ?_ ?_ ?_)
    | with_reducible refine memWriteBytes_wf ?_ _ _
    | with_reducible refine memClear_wf ?_ _ _
    | with_reducible exact wf_nil _
    | with_reducible refine lz_wf ?_
    | with_reducible refine sram_wf ?_
    | with_reducible refine nor_wf ?_
    | with_reducible refine staging_wf ?_
    | (with_reducible refine foldl_wf ?_ _ _ ?_; intro s x hs)
    | simp only [outWf_next, takeFree, Option.elim, apply_ite outWf, apply_ite memoriesWf, apply_ite Prod.snd, ite_self]
    | (split <;> try (rename_i hp; with_reducible rw [Prod.ext_iff] at hp; have h' := hp.2; dsimp only at h'; subst h'))

theorem execUpdRestart_wf (a0) (s : State) (h : memoriesWf s = true) : outWf (execUpdRestart a0 s) := by
  unfold execUpdRestart
  repeat' first
    | with_reducible assumption
    | with_reducible rfl
    | with_reducible refine askRestart_wf _ _ ?_
    | with_reducible refine updTouched_wf _ ?_
    | (simp only [memoriesWf_mk]; refine and_four ?_ ?_ ?_ ?_)
    | with_reducible refine memWriteBytes_wf ?_ _ _
    | with_reducible refine memClear_wf ?_ _ _
    | with_reducible exact wf_nil _
    | with_reducible refine lz_wf ?_
    | with_reducible refine sram_wf ?_
    | with_reducible refine nor_wf ?_
    | with_reducible refine staging_wf ?_
    | (with_reducible refine foldl_wf ?_ _ _ ?_; intro s x hs)
    | simp only [outWf_next, takeFree, Option.elim, apply_ite outWf, apply_ite memoriesWf, apply_ite Prod.snd, ite_self]
    | (split <;> try (rename_i hp; with_reducible rw [Prod.ext_iff] at hp; have h' := hp.2; dsimp only at h'; subst h'))

theorem runBuffer_wf (a0) (s : State) (h : memoriesWf s = true) : memoriesWf (runBuffer a0 s) = true := by
  unfold runBuffer
  repeat' first
    | with_reducible assumption
    | with_reducible rfl
    | with_reducible refine fromEight_wf _ _ ?_
    | with_reducible refine runFirmware_wf _ _ _ ?_
    | with_reducible refine stageEnded_wf _ _ _ _ ?_
    | with_reducible refine updRefuse_wf _ ?_
    | (simp only [memoriesWf_mk]; refine and_four ?_ ?_ ?_ ?_)
    | with_reducible refine memWriteBytes_wf ?_ _ _
    | with_reducible refine memClear_wf ?_ _ _
    | with_reducible exact wf_nil _
    | with_reducible refine lz_wf ?_
    | with_reducible refine sram_wf ?_
    | with_reducible refine nor_wf ?_
    | with_reducible refine staging_wf ?_
    | (with_reducible refine foldl_wf ?_ _ _ ?_; intro s x hs)
    | simp only [outWf_next, takeFree, Option.elim, apply_ite outWf, apply_ite memoriesWf, apply_ite Prod.snd, ite_self]
    | (split <;> try (rename_i hp; with_reducible rw [Prod.ext_iff] at hp; have h' := hp.2; dsimp only at h'; subst h'))

theorem execUpdRun_wf (a0) (s : State) (h : memoriesWf s = true) : outWf (execUpdRun a0 s) := by
  unfold execUpdRun
  repeat' first
    | with_reducible assumption
    | with_reducible rfl
    | with_reducible refine runBuffer_wf _ _ ?_
    | with_reducible refine updTouched_wf _ ?_
    | (simp only [memoriesWf_mk]; refine and_four ?_ ?_ ?_ ?_)
    | with_reducible refine memWriteBytes_wf ?_ _ _
    | with_reducible refine memClear_wf ?_ _ _
    | with_reducible exact wf_nil _
    | with_reducible refine lz_wf ?_
    | with_reducible refine sram_wf ?_
    | with_reducible refine nor_wf ?_
    | with_reducible refine staging_wf ?_
    | (with_reducible refine foldl_wf ?_ _ _ ?_; intro s x hs)
    | simp only [outWf_next, takeFree, Option.elim, apply_ite outWf, apply_ite memoriesWf, apply_ite Prod.snd, ite_self]
    | (split <;> try (rename_i hp; with_reducible rw [Prod.ext_iff] at hp; have h' := hp.2; dsimp only at h'; subst h'))

theorem execUpdateReset_wf (a0) (s : State) (h : memoriesWf s = true) : outWf (execUpdateReset a0 s) := by
  unfold execUpdateReset
  repeat' first
    | with_reducible assumption
    | with_reducible rfl
    | with_reducible refine activateOn_wf _ ?_
    | with_reducible refine updateReset_wf _ _ _ ?_
    | (simp only [memoriesWf_mk]; refine and_four ?_ ?_ ?_ ?_)
    | with_reducible refine memWriteBytes_wf ?_ _ _
    | with_reducible refine memClear_wf ?_ _ _
    | with_reducible exact wf_nil _
    | with_reducible refine lz_wf ?_
    | with_reducible refine sram_wf ?_
    | with_reducible refine nor_wf ?_
    | with_reducible refine staging_wf ?_
    | (with_reducible refine foldl_wf ?_ _ _ ?_; intro s x hs)
    | simp only [outWf_next, takeFree, Option.elim, apply_ite outWf, apply_ite memoriesWf, apply_ite Prod.snd, ite_self, fun b0 => wf_of_blank (maintAdmit_frame b0 0x83304C8E rfl) rfl]
    | (split <;> try (rename_i hp; with_reducible rw [Prod.ext_iff] at hp; have h' := hp.2; dsimp only at h'; subst h'))

theorem execVaultEnter_wf (s : State) (h : memoriesWf s = true) : outWf (execVaultEnter s) := by
  unfold execVaultEnter
  repeat' first
    | with_reducible assumption
    | with_reducible rfl
    | with_reducible refine almSaveAll_wf _ ?_
    | (simp only [memoriesWf_mk]; refine and_four ?_ ?_ ?_ ?_)
    | with_reducible refine memWriteBytes_wf ?_ _ _
    | with_reducible refine memClear_wf ?_ _ _
    | with_reducible exact wf_nil _
    | with_reducible refine lz_wf ?_
    | with_reducible refine sram_wf ?_
    | with_reducible refine nor_wf ?_
    | with_reducible refine staging_wf ?_
    | (with_reducible refine foldl_wf ?_ _ _ ?_; intro s x hs)
    | simp only [outWf_next, takeFree, Option.elim, apply_ite outWf, apply_ite memoriesWf, apply_ite Prod.snd, ite_self, fun b0 b1 b2 b3 => wf_of_blank (record_frame b0 b1 b2 b3 0x83204C8E rfl) rfl, fun b0 => wf_of_blank (stopWaypoint_frame b0 0x833C6C8E rfl) rfl, fun b0 => wf_of_blank (trimIsland_frame b0 0x100000004 rfl) rfl]
    | (split <;> try (rename_i hp; with_reducible rw [Prod.ext_iff] at hp; have h' := hp.2; dsimp only at h'; subst h'))

theorem execVerifyOnMatch_wf (a0) (a1) (a2) (a3) (s : State) (h : memoriesWf s = true) : outWf (execVerifyOnMatch a0 a1 a2 a3 s) := by
  unfold execVerifyOnMatch
  repeat' first
    | with_reducible assumption
    | with_reducible rfl
    | with_reducible refine readStored_wf _ _ _ _ _ _ _ _ ?_
    | (simp only [memoriesWf_mk]; refine and_four ?_ ?_ ?_ ?_)
    | with_reducible refine memWriteBytes_wf ?_ _ _
    | with_reducible refine memClear_wf ?_ _ _
    | with_reducible exact wf_nil _
    | with_reducible refine lz_wf ?_
    | with_reducible refine sram_wf ?_
    | with_reducible refine nor_wf ?_
    | with_reducible refine staging_wf ?_
    | (with_reducible refine foldl_wf ?_ _ _ ?_; intro s x hs)
    | simp only [outWf_next, takeFree, Option.elim, apply_ite outWf, apply_ite memoriesWf, apply_ite Prod.snd, ite_self, fun b0 b1 b2 b3 => wf_of_blank (acceptHit_frame b0 b1 b2 b3 0x6000 rfl) rfl, fun b0 b1 b2 b3 => wf_of_blank (addTest_frame b0 b1 b2 b3 0x83204C8E rfl) rfl, fun b0 b1 b2 => wf_of_blank (modVol_frame b0 b1 b2 0x4000 rfl) rfl, fun b0 b1 => wf_of_blank (poolTake_frame b0 b1 0x8000 rfl) rfl, fun b0 b1 b2 b3 => wf_of_blank (record_frame b0 b1 b2 b3 0x83204C8E rfl) rfl, fun b0 b1 b2 b3 => wf_of_blank (recordAlert_frame b0 b1 b2 b3 0x83204C8E rfl) rfl, fun b0 b1 b2 b3 b4 b5 => wf_of_blank (rejectHit_frame b0 b1 b2 b3 b4 b5 0x80306002 rfl) rfl]
    | (split <;> try (rename_i hp; with_reducible rw [Prod.ext_iff] at hp; have h' := hp.2; dsimp only at h'; subst h'))

theorem execVoltGlitch_wf (s : State) (h : memoriesWf s = true) : outWf (execVoltGlitch s) := by
  unfold execVoltGlitch
  repeat' first
    | with_reducible assumption
    | with_reducible rfl
    | with_reducible refine failstop_wf _ _ _ ?_
    | with_reducible refine secAlarm_wf _ _ _ ?_
    | (simp only [memoriesWf_mk]; refine and_four ?_ ?_ ?_ ?_)
    | with_reducible refine memWriteBytes_wf ?_ _ _
    | with_reducible refine memClear_wf ?_ _ _
    | with_reducible exact wf_nil _
    | with_reducible refine lz_wf ?_
    | with_reducible refine sram_wf ?_
    | with_reducible refine nor_wf ?_
    | with_reducible refine staging_wf ?_
    | (with_reducible refine foldl_wf ?_ _ _ ?_; intro s x hs)
    | simp only [outWf_next, takeFree, Option.elim, apply_ite outWf, apply_ite memoriesWf, apply_ite Prod.snd, ite_self]
    | (split <;> try (rename_i hp; with_reducible rw [Prod.ext_iff] at hp; have h' := hp.2; dsimp only at h'; subst h'))

theorem execWatchdogTimeout_wf (a0) (a1) (s : State) (h : memoriesWf s = true) : outWf (execWatchdogTimeout a0 a1 s) := by
  unfold execWatchdogTimeout
  repeat' first
    | with_reducible assumption
    | with_reducible rfl
    | with_reducible refine failstop_wf _ _ _ ?_
    | (simp only [memoriesWf_mk]; refine and_four ?_ ?_ ?_ ?_)
    | with_reducible refine memWriteBytes_wf ?_ _ _
    | with_reducible refine memClear_wf ?_ _ _
    | with_reducible exact wf_nil _
    | with_reducible refine lz_wf ?_
    | with_reducible refine sram_wf ?_
    | with_reducible refine nor_wf ?_
    | with_reducible refine staging_wf ?_
    | (with_reducible refine foldl_wf ?_ _ _ ?_; intro s x hs)
    | simp only [outWf_next, takeFree, Option.elim, apply_ite outWf, apply_ite memoriesWf, apply_ite Prod.snd, ite_self]
    | (split <;> try (rename_i hp; with_reducible rw [Prod.ext_iff] at hp; have h' := hp.2; dsimp only at h'; subst h'))

theorem execWaypointComplete_wf (s : State) (h : memoriesWf s = true) : outWf (execWaypointComplete s) := by
  unfold execWaypointComplete
  repeat' first
    | with_reducible assumption
    | with_reducible rfl
    | (simp only [memoriesWf_mk]; refine and_four ?_ ?_ ?_ ?_)
    | with_reducible refine memWriteBytes_wf ?_ _ _
    | with_reducible refine memClear_wf ?_ _ _
    | with_reducible exact wf_nil _
    | with_reducible refine lz_wf ?_
    | with_reducible refine sram_wf ?_
    | with_reducible refine nor_wf ?_
    | with_reducible refine staging_wf ?_
    | (with_reducible refine foldl_wf ?_ _ _ ?_; intro s x hs)
    | simp only [outWf_next, takeFree, Option.elim, apply_ite outWf, apply_ite memoriesWf, apply_ite Prod.snd, ite_self, fun b0 b1 => wf_of_blank (captureWaypoint_frame b0 b1 0x833C4C8E rfl) rfl, fun b0 => wf_of_blank (dropPlaced_frame b0 0x100000 rfl) rfl, fun b0 b1 => wf_of_blank (finishWaypoint_frame b0 b1 0x833C6C8E rfl) rfl, fun b0 => wf_of_blank (writeAnchors_frame b0 0x833C4C8E rfl) rfl]
    | (split <;> try (rename_i hp; with_reducible rw [Prod.ext_iff] at hp; have h' := hp.2; dsimp only at h'; subst h'))

theorem wholeChipMap_wf (a0) (s : State) (h : memoriesWf s = true) : memoriesWf (wholeChipMap a0 s) = true := by
  unfold wholeChipMap
  repeat' first
    | with_reducible assumption
    | with_reducible rfl
    | with_reducible refine loadMap_wf _ _ _ ?_
    | with_reducible refine stepThirteen_wf _ _ _ ?_
    | (simp only [memoriesWf_mk]; refine and_four ?_ ?_ ?_ ?_)
    | with_reducible refine memWriteBytes_wf ?_ _ _
    | with_reducible refine memClear_wf ?_ _ _
    | with_reducible exact wf_nil _
    | with_reducible refine lz_wf ?_
    | with_reducible refine sram_wf ?_
    | with_reducible refine nor_wf ?_
    | with_reducible refine staging_wf ?_
    | (with_reducible refine foldl_wf ?_ _ _ ?_; intro s x hs)
    | simp only [outWf_next, takeFree, Option.elim, apply_ite outWf, apply_ite memoriesWf, apply_ite Prod.snd, ite_self]
    | (split <;> try (rename_i hp; with_reducible rw [Prod.ext_iff] at hp; have h' := hp.2; dsimp only at h'; subst h'))

theorem wholeChipClear_wf (a0) (s : State) (h : memoriesWf s = true) : memoriesWf (wholeChipClear a0 s) = true := by
  unfold wholeChipClear
  repeat' first
    | with_reducible assumption
    | with_reducible rfl
    | (simp only [memoriesWf_mk]; refine and_four ?_ ?_ ?_ ?_)
    | with_reducible refine memWriteBytes_wf ?_ _ _
    | with_reducible refine memClear_wf ?_ _ _
    | with_reducible exact wf_nil _
    | with_reducible refine lz_wf ?_
    | with_reducible refine sram_wf ?_
    | with_reducible refine nor_wf ?_
    | with_reducible refine staging_wf ?_
    | (with_reducible refine foldl_wf ?_ _ _ ?_; intro s x hs)
    | simp only [outWf_next, takeFree, Option.elim, apply_ite outWf, apply_ite memoriesWf, apply_ite Prod.snd, ite_self, fun b0 => wf_of_blank (wakeReload_frame b0 0x2000000 rfl) rfl]
    | (split <;> try (rename_i hp; with_reducible rw [Prod.ext_iff] at hp; have h' := hp.2; dsimp only at h'; subst h'))

theorem execWholeChipTestEnd_wf (a0) (a1) (s : State) (h : memoriesWf s = true) : outWf (execWholeChipTestEnd a0 a1 s) := by
  unfold execWholeChipTestEnd
  repeat' first
    | with_reducible assumption
    | with_reducible rfl
    | with_reducible refine lastingOutcome_wf _ _ _ ?_
    | with_reducible refine wholeChipClear_wf _ _ ?_
    | with_reducible refine wholeChipMap_wf _ _ ?_
    | (simp only [memoriesWf_mk]; refine and_four ?_ ?_ ?_ ?_)
    | with_reducible refine memWriteBytes_wf ?_ _ _
    | with_reducible refine memClear_wf ?_ _ _
    | with_reducible exact wf_nil _
    | with_reducible refine lz_wf ?_
    | with_reducible refine sram_wf ?_
    | with_reducible refine nor_wf ?_
    | with_reducible refine staging_wf ?_
    | (with_reducible refine foldl_wf ?_ _ _ ?_; intro s x hs)
    | simp only [outWf_next, takeFree, Option.elim, apply_ite outWf, apply_ite memoriesWf, apply_ite Prod.snd, ite_self, fun b0 b1 b2 b3 => wf_of_blank (record_frame b0 b1 b2 b3 0x83204C8E rfl) rfl]
    | (split <;> try (rename_i hp; with_reducible rw [Prod.ext_iff] at hp; have h' := hp.2; dsimp only at h'; subst h'))

theorem execWlMove_wf (a0) (a1) (a2) (s : State) (h : memoriesWf s = true) : outWf (execWlMove a0 a1 a2 s) := by
  unfold execWlMove
  repeat' first
    | with_reducible assumption
    | with_reducible rfl
    | with_reducible refine relocateBlock_wf _ _ _ _ ?_
    | (simp only [memoriesWf_mk]; refine and_four ?_ ?_ ?_ ?_)
    | with_reducible refine memWriteBytes_wf ?_ _ _
    | with_reducible refine memClear_wf ?_ _ _
    | with_reducible exact wf_nil _
    | with_reducible refine lz_wf ?_
    | with_reducible refine sram_wf ?_
    | with_reducible refine nor_wf ?_
    | with_reducible refine staging_wf ?_
    | (with_reducible refine foldl_wf ?_ _ _ ?_; intro s x hs)
    | simp only [outWf_next, takeFree, Option.elim, apply_ite outWf, apply_ite memoriesWf, apply_ite Prod.snd, ite_self, fun b0 b1 => wf_of_blank (endActivity_frame b0 b1 0x100000 rfl) rfl, fun b0 b1 b2 b3 => wf_of_blank (record_frame b0 b1 b2 b3 0x83204C8E rfl) rfl, fun b0 b1 => wf_of_blank (requestActivity_frame b0 b1 0x83304C8E rfl) rfl]
    | (split <;> try (rename_i hp; with_reducible rw [Prod.ext_iff] at hp; have h' := hp.2; dsimp only at h'; subst h'))

theorem execWrite_wf (a0) (a1) (a2) (a3) (s : State) (h : memoriesWf s = true) : outWf (execWrite a0 a1 a2 a3 s) := by
  unfold execWrite
  repeat' first
    | with_reducible assumption
    | with_reducible rfl
    | with_reducible refine fetched_wf _ _ _ _ _ _ _ ?_
    | (simp only [memoriesWf_mk]; refine and_four ?_ ?_ ?_ ?_)
    | with_reducible refine memWriteBytes_wf ?_ _ _
    | with_reducible refine memClear_wf ?_ _ _
    | with_reducible exact wf_nil _
    | with_reducible refine lz_wf ?_
    | with_reducible refine sram_wf ?_
    | with_reducible refine nor_wf ?_
    | with_reducible refine staging_wf ?_
    | (with_reducible refine foldl_wf ?_ _ _ ?_; intro s x hs)
    | simp only [outWf_next, takeFree, Option.elim, apply_ite outWf, apply_ite memoriesWf, apply_ite Prod.snd, ite_self]
    | (split <;> try (rename_i hp; with_reducible rw [Prod.ext_iff] at hp; have h' := hp.2; dsimp only at h'; subst h'))

end Sys2Proof.Machine
end

