-- ==== Sys2Proof/Machine/Pins.lean ====
section
/-!
DEFINITION. What the balls of the package carry (R46, R49, R50, R145, R170): the level or drive of every output group during reset,
after reset until firmware runs, in service, and with the main rails off.
-/
namespace Sys2Proof.Machine

/-- A ball, or a group of balls that share a state in the table of R46. -/
inductive Pin where
  | netTx (port : Nat)
  | peTx
  | xhlTx
  | dmlTx (port : Nat)
  | refClk
  | dramReset (chan : Nat)
  | dramBus (chan : Nat)
  | spd
  | xspiCs
  | xspiRst
  | xspiClk
  | xspiDq
  | pmbus
  | mainsSd
  | mainsClk
  | bankSense
  | adcVref
  | fanPwm (f : Nat)
  | fanTach (f : Nat)
  | slotEn (n : Nat)
  | slotPg (n : Nat)
  | modPrsnt (n : Nat)
  | ppsIn
  | ppsOut
  | chipRst
  | ready
  | alert
  | strap
  | testIn
  | tdo
  | wakeL
  | mainsRtn
  deriving DecidableEq, Repr

/-- What the head does with a ball. `floats`: its rail is off. `engine`: the interface behind it drives it. -/
inductive PinDrive where
  | floats
  | input
  | highZ
  | low
  | high
  | idle
  | clock
  | pwm (duty : Nat)
  | engine
  deriving DecidableEq, Repr

/-- A level. -/
def pinLevel (b : Bool) : PinDrive := if b then .high else .low

/-- A ball of the main rails while CHIP_RST_L is low, or after it until firmware configures its group (R46). -/
def pinReset (held : Bool) : Pin → PinDrive
  | .netTx _ | .xhlTx | .dmlTx _ => .idle
  | .peTx => if held then .idle else .engine
  | .refClk | .mainsSd | .bankSense | .fanTach _ | .slotPg _ | .modPrsnt _ | .ppsIn | .chipRst | .strap | .testIn | .mainsRtn => .input
  | .dramReset _ => .low
  | .dramBus _ | .spd | .pmbus | .tdo | .alert | .fanPwm _ | .wakeL => .highZ
  | .xspiCs => .high
  | .xspiRst => pinLevel (!held)
  | .xspiClk => .low
  | .xspiDq => if held then .highZ else .engine
  | .mainsClk => if held then .low else .clock
  | .adcVref => if held then .low else .engine
  | .slotEn _ | .ppsOut | .ready => .low

/-- A ball of the main rails once firmware runs: the flags of chapters 4, 5, 18 and 19, and the interfaces. -/
def pinService (s : State) : Pin → PinDrive
  | .fanPwm f => if s.img.board.fanEn.getLsbD f then .pwm (s.cle.fans.getD f Fan.reset).duty else .highZ
  | .slotEn n => pinLevel (s.cle.slots.getD n SlotPwr.reset).en
  | .ppsOut => pinLevel (ppsOutHigh s)
  | .ready => pinLevel s.glb.service
  | .alert => if alertLow s then .low else .highZ
  | .dramReset c => pinLevel (s.drc.chans.getD c Chan.reset).trained
  | .dramBus c => if (s.drc.chans.getD c Chan.reset).trained then .engine else .highZ
  | .netTx p => if (s.net.ports.getD p NetPort.reset).linkUp ≠ 0 then .engine else .idle
  | .xhlTx => if s.xhl.link = 0 then .idle else .engine
  | .dmlTx p => if (portOf s p).st = .disabled then .idle else .engine
  | .tdo => if s.img.board.testEn then .engine else .highZ
  | .spd | .pmbus => .engine
  | p => pinReset false p

/-- The balls of the island bank, which the island drives from VBAT (R46, R50). -/
def islandPin : Pin → Bool
  | .wakeL | .mainsRtn => true
  | _ => false

/-- What the head does with a ball now (R46, R49, R50). With the main rails off every ball outside the island bank floats. An alert that
stands before firmware runs is driven from the deassertion of CHIP_RST_L on, since FAILSTOP and the start's own records assert it
(R146, R659). -/
def pinState (s : State) (p : Pin) : PinDrive :=
  if islandPin p then (if p = .wakeL then (if s.island.wakeL then .low else .highZ) else .input)
  else if !s.glb.rails then .floats
  else if s.glb.held then pinReset true p
  else if s.glb.fw || decide (p = .alert) then pinService s p
  else pinReset false p

/-- Test access that the life-cycle state permits on the JTAG balls (R170): the standard boundary scan, and Sextant debug besides. -/
def testAccess (s : State) : Bool × Bool :=
  let scan := s.glb.rails && !s.glb.held
  (scan, scan && (decide (lifeCycle s = .blank) || decide (lifeCycle s = .personalised)))

end Sys2Proof.Machine
end

