-- ==== Sys2Proof/WellFormed.lean ====
section
/-!
DEFINITION. Which commands are well formed: every operand lies in the range that the spec gives the field it stands for (an
endpoint 0 to 3 of R181, a slot 0 to 47, a tag 0 to 31 of R209, a 64-byte command of R218, a register offset of R729). A meaning
is total and needs no well-formed command: an operand out of range names nothing, and nothing happens to it.
-/
namespace Sys2Proof

/-- A command queue: one of 257 rings of an endpoint, or the client channel on a queue pair number of 24 bits (R209, R258). -/
def queueIdOk : QueueId → Bool
  | .ring ep q => decide (ep < 4) && decide (q ≤ 256)
  | .channel c => decide (c < 2 ^ 24)

/-- Offset of the low half of a 64-bit register (R12, R729). -/
def lowHalfOffset (off : Nat) : Bool :=
  [0x8, 0x10010, 0x10018, 0x10038, 0x20008, 0x20010, 0x20018, 0x20020, 0x20030, 0x40010, 0x50000, 0x50008, 0x70000, 0x80010,
    0x80018, 0x80020, 0x80108, 0x80110, 0x80118, 0x80120, 0x80128, 0x90018, 0x90108, 0x90110, 0xA0008, 0xA0018].contains off ||
  [0xB1030, 0xB1040, 0xC0010, 0xC0028, 0xC0030, 0xC0038, 0xD0018, 0xD0030, 0xD8010, 0xD8018, 0xF0008, 0xF0010,
    0x100028].contains off ||
  (decide (0x41000 ≤ off) && decide (off < 0x41400) && decide (off % 16 = 0)) ||
  (decide (0x71000 ≤ off) && decide (off < 0x71800) && (decide (off % 32 = 0x10) || decide (off % 32 = 0x18))) ||
  (decide (0xB0600 ≤ off) && decide (off < 0xB0780) && decide (off % 8 = 0)) ||
  (decide (0x1000000 ≤ off) && decide (off < 0x1101000) && decide (off % 0x1000 = 0x10))

/-- Offset of a register with an RC field (R10, R465, R594, R617, R642, R686). -/
def rcOffset (off : Nat) : Bool :=
  decide (off % 4 = 0) &&
    ((decide (0xB0300 ≤ off) && decide (off < 0xB03C0)) || decide (off = 0xD0024) ||
      (decide (0xE0100 ≤ off) && decide (off < 0xE0130)) ||
      (decide (0xF1000 ≤ off) && decide (off < 0xF1800) && decide (off % 32 = 0x18)) || decide (off = 0x11001C))

/-- A command's operands lie in their ranges. -/
def wellFormed (i : Instr) : Bool :=
  match i with
  | .registerWrite ep off _ => decide (ep < 4) && decide (off % 4 = 0) && decide (off < 0x2000000)
  | .lowHalfRead ep off => decide (ep < 4) && lowHalfOffset off
  | .highHalfWrite ep off _ => decide (ep < 4) && decide (4 ≤ off) && lowHalfOffset (off - 4)
  | .lowHalfWrite ep off _ => decide (ep < 4) && lowHalfOffset off
  | .rcRead ep off => decide (ep < 4) && rcOffset off
  | .barAccessError ep bar _ _ _ => decide (ep < 4) && decide (bar = 0 ∨ bar = 4)
  | .bar2Request ep _ => decide (ep < 4)
  | .bar4Access ep off size _ => decide (ep < 4) && decide (off < 0x4000) && decide (size ≤ 64)
  | .supervisorDivergence => true
  | .watchdogTimeout _ n => decide (n < 65536)
  | .controlPortRequest src _ => decide (src < 65536)
  | .chipRstL _ => true
  | .chipRstLLow => true
  | .startDone _ => true
  | .xhlStartTimeout => true
  | .wakeLExternal => true
  | .islandSupplyChange _ _ => true
  | .feedClassification feed _ _ _ => decide (feed < 2)
  | .rideThroughExpiry => true
  | .bankDischarge => true
  | .flushDone => true
  | .gaugeSample _ => true
  | .budgetCompute _ => true
  | .budget _ => true
  | .peerBudgetStale => true
  | .mainsRtn => true
  | .pmbusPoll _ => true
  | .pmbusAlert _ _ => true
  | .drowseEntry => true
  | .dozeEntry => true
  | .powerStateExit => true
  | .scheduledExit => true
  | .psCtlWrite _ => true
  | .vaultEnter => true
  | .islandWakeAlarm _ => true
  | .vbatSample _ => true
  | .power _ => true
  | .ptpSync sub _ _ _ => decide (sub < 16)
  | .ptpLoss => true
  | .ppsInEdge _ _ _ => true
  | .ppsInMissing => true
  | .ppsOutEdge => true
  | .timeSend => true
  | .time _ => true
  | .civilSet ep _ => decide (ep < 4)
  | .armFwd => true
  | .armFwdExpiry => true
  | .leapSmear _ _ => true
  | .lockExpired => true
  | .periodsClosed _ => true
  | .periodDefWrite _ => true
  | .lcChangeRequest _ => true
  | .lcChangeDone => true
  | .pePerstL => true
  | .pePerstLDeassert => true
  | .hotReset drop => decide (drop.ep < 4) && decide (drop.unacked ≤ 2048)
  | .linkDown drop => decide (drop.ep < 4) && decide (drop.unacked ≤ 2048)
  | .linkUp ep speed width _ => decide (ep < 4) && decide (1 ≤ speed) && decide (speed ≤ 6) && decide (width ≤ 16)
  | .d3hot ep => decide (ep < 4)
  | .busMasterEnableCleared x => decide (x.ep < 4)
  | .busMasterEnableSet ep _ => decide (ep < 4)
  | .winCommit ep idx _ => decide (ep < 4) && decide (idx < 64)
  | .transferError ep n _ _ => decide (ep < 4) && decide (n ≤ 256)
  | .vectorUnmask ep _ => decide (ep < 4)
  | .dbReady ep q _ => decide (ep < 4) && decide (q ≤ 256)
  | .dbAbort ep q _ => decide (ep < 4) && decide (q ≤ 256)
  | .dbCqHead ep q _ => decide (ep < 4) && decide (q ≤ 256)
  | .dbReadyAbort ep q _ => decide (ep < 4) && decide (q ≤ 256)
  | .read q tag words _ _ => queueIdOk q && decide (tag < 32) && decide (words.length = 16)
  | .write q tag words _ => queueIdOk q && decide (tag < 32) && decide (words.length = 16)
  | .flush q tag words => queueIdOk q && decide (tag < 32) && decide (words.length = 16)
  | .discard q tag words => queueIdOk q && decide (tag < 32) && decide (words.length = 16)
  | .rasterHint q tag words => queueIdOk q && decide (tag < 32) && decide (words.length = 16)
  | .fixity q tag words _ => queueIdOk q && decide (tag < 32) && decide (words.length = 16)
  | .retain q tag words => queueIdOk q && decide (tag < 32) && decide (words.length = 16)
  | .snapshot q tag words => queueIdOk q && decide (tag < 32) && decide (words.length = 16)
  | .clone q tag words => queueIdOk q && decide (tag < 32) && decide (words.length = 16)
  | .snapDelete q tag words => queueIdOk q && decide (tag < 32) && decide (words.length = 16)
  | .query q tag words => queueIdOk q && decide (tag < 32) && decide (words.length = 16)
  | .createQueue q tag words => queueIdOk q && decide (tag < 32) && decide (words.length = 16)
  | .deleteQueue q tag words => queueIdOk q && decide (tag < 32) && decide (words.length = 16)
  | .resetQueue q tag words => queueIdOk q && decide (tag < 32) && decide (words.length = 16)
  | .createVolume q tag words => queueIdOk q && decide (tag < 32) && decide (words.length = 16)
  | .deleteVolume q tag words => queueIdOk q && decide (tag < 32) && decide (words.length = 16)
  | .setPeriod q tag words => queueIdOk q && decide (tag < 32) && decide (words.length = 16)
  | .setTime q tag words => queueIdOk q && decide (tag < 32) && decide (words.length = 16)
  | .powerHint q tag words => queueIdOk q && decide (tag < 32) && decide (words.length = 16)
  | .powerHintLapse => true
  | .asyncEvent q tag words => queueIdOk q && decide (tag < 32) && decide (words.length = 16)
  | .queryDevice q tag words => queueIdOk q && decide (tag < 32) && decide (words.length = 16)
  | .coalescingTimeout ep q => decide (ep < 4) && decide (q ≤ 256)
  | .adminQueueEnable ep _ => decide (ep < 4)
  | .adminQueueDisable ep _ => decide (ep < 4)
  | .fencedCommandStart q tag gen _ => queueIdOk q && decide (tag < 32) && decide (gen < 8)
  | .writeHoldTimeout => true
  | .frameReceive _ => true
  | .pfcXon sub fill => decide (sub < 16) && decide (fill < 2 ^ 32)
  | .pfcPause sub _ => decide (sub < 16)
  | .pfcStuck sub => decide (sub < 16)
  | .cnpReceive qpn => decide (qpn < 2 ^ 24)
  | .rateIncrease qpn => decide (qpn < 2 ^ 24)
  | .cmReq sub _ _ => decide (sub < 16)
  | .cmRtu qpn => decide (qpn < 2 ^ 24)
  | .cmDreq qpn => decide (qpn < 2 ^ 24)
  | .roceSend _ _ => true
  | .rdmaWrite _ _ off data => decide (off + data.length ≤ 2 ^ 32)
  | .rdmaWriteWithImmediate _ _ off data _ => decide (off + data.length ≤ 2 ^ 32)
  | .rdmaRead _ _ off len => decide (off + len ≤ 2 ^ 32)
  | .ackTimeout qpn => decide (qpn < 2 ^ 24)
  | .qpError qpn _ _ => decide (qpn < 2 ^ 24)
  | .pkeyTableWrite idx _ => decide (idx < 4096)
  | .regionRegister => true
  | .regionDeregister _ => true
  | .replicationCut l _ _ => decide (l < 64)
  | .replicationRecord l bytes => decide (l < 64) && decide (bytes.length ≤ 33088)
  | .batchApply l _ => decide (l < 64)
  | .batchAck l batch => decide (l < 64) && decide (batch < 2 ^ 64)
  | .batchResend l _ => decide (l < 64)
  | .replReconnect l => decide (l < 64)
  | .replEnable l _ => decide (l < 64)
  | .replDisable l _ => decide (l < 64)
  | .writeDataArrival q item _ _ => queueIdOk q && decide (item.tag < 32) && decide (item.gen < 8)
  | .writeAdmission q tag => queueIdOk q && decide (tag < 32)
  | .heldWriteReserve => true
  | .mirror _ => true
  | .mirrorAck _ q tag gen _ => queueIdOk q && decide (tag < 32) && decide (gen < 8)
  | .fwdFrames q tag _ => queueIdOk q && decide (tag < 32)
  | .fwdLsn q tag gen _ => queueIdOk q && decide (tag < 32) && decide (gen < 8)
  | .assemblyDelayExpiry v chunk _ _ => decide (v < 65536) && decide (chunk < 2 ^ 48)
  | .assemblyStart v chunk _ _ => decide (v < 65536) && decide (chunk < 2 ^ 48)
  | .assemblyComplete v chunk => decide (v < 65536) && decide (chunk < 2 ^ 48)
  | .mapEntrySet v chunk => decide (v < 65536) && decide (chunk < 2 ^ 48)
  | .fingerprint obj lane => decide (obj.vol < 65536) && decide (obj.chunk < 2 ^ 48) && decide (lane < 40)
  | .seedLookup v chunk => decide (v < 65536) && decide (chunk < 2 ^ 48)
  | .verifyOnMatch v chunk lane _ => decide (v < 65536) && decide (chunk < 2 ^ 48) && decide (lane < 96)
  | .seedInsert v chunk => decide (v < 65536) && decide (chunk < 2 ^ 48)
  | .seedSplit tenant => decide (tenant < 32768)
  | .snapshotFreeze v num => decide (v < 65536) && decide (1 ≤ num)
  | .snapshotDeleted v num => decide (v < 65536) && decide (1 ≤ num)
  | .kernelEncode v chunk lane => decide (v < 65536) && decide (chunk < 2 ^ 48) && decide (lane < 40)
  | .kernelVerify v chunk lane _ => decide (v < 65536) && decide (chunk < 2 ^ 48) && decide (lane < 96)
  | .kernelDecode obj snap lane _ => decide (snap ≤ 4096) && decide (obj.vol < 65536) && decide (obj.chunk < 2 ^ 48) && decide (lane < 96)
  | .dictJob _ _ _ _ => true
  | .protectChunk obj lane => decide (obj.vol < 65536) && decide (obj.chunk < 2 ^ 48) && decide (lane < 40)
  | .keyLoad slot => decide (1 ≤ slot) && decide (slot < 256)
  | .keyLoadWrapped slot kek => decide (1 ≤ slot) && decide (slot < 256) && decide (1 ≤ kek) && decide (kek < 256)
  | .keyGenerate slot => decide (1 ≤ slot) && decide (slot < 256)
  | .keyZeroise slot => decide (1 ≤ slot) && decide (slot < 256)
  | .drbgFail => true
  | .drbgRetry _ => true
  | .drbgReseed => true
  | .clkGlitch => true
  | .voltGlitch => true
  | .maskFault src => decide (src < 65536)
  | .keyStore _ => true
  | .csLock ep _ => decide (ep < 4)
  | .csLockTimeout => true
  | .csSeal token slot srcSpace dstSpace => decide (token < 65536) && decide (slot < 256) && decide (srcSpace < 4) && decide (dstSpace < 4)
  | .csOpen token slot srcSpace dstSpace => decide (token < 65536) && decide (slot < 256) && decide (srcSpace < 4) && decide (dstSpace < 4)
  | .csJobDone => true
  | .digestStart ep alg space => decide (ep < 4) && decide (alg < 4) && decide (space < 4)
  | .digestDone => true
  | .digestRelease ep => decide (ep < 4)
  | .digestLapse => true
  | .dmlDetect p => decide (p < 48)
  | .dmlTraining p _ => decide (p < 48)
  | .dmlTrainTimeout p => decide (p < 48)
  | .dmlIdent p _ => decide (p < 48)
  | .dmlDownRetry p => decide (p < 48)
  | .dmlFlitReceive p _ => decide (p < 48)
  | .dmlRetrainTimeout p => decide (p < 48)
  | .dmlNak p ack => decide (p < 48) && decide (ack < 1024)
  | .dmlReplayTimeout p => decide (p < 48)
  | .dmlCompletion p _ => decide (p < 48)
  | .telem p _ => decide (p < 48)
  | .telemMissing p => decide (p < 48)
  | .moduleEvent p _ => decide (p < 48)
  | .moduleInserted p => decide (p < 48)
  | .moduleRemoved p => decide (p < 48)
  | .telemPeriodWrite _ => true
  | .codewordRead slot die plane _ _ cw _ => decide (die < 256) && decide (plane < 4) && decide (cw < 4) && decide (slot < 48)
  | .suspendIssue slot die => decide (die < 256) && decide (slot < 48)
  | .resumeIssue slot die => decide (die < 256) && decide (slot < 48)
  | .relocationSwitch old => decide (old < 2 ^ 43)
  | .gcState slot die _ => decide (die < 256) && decide (slot < 48)
  | .wlMove slot die _ => decide (die < 256) && decide (slot < 48)
  | .refreshClass slot die plane _ _ => decide (die < 256) && decide (plane < 4) && decide (slot < 48)
  | .waypointStart => true
  | .waypointComplete => true
  | .ledgerSelect ep _ => decide (ep < 4)
  | .stripeClose _ => true
  | .stripeComplete _ => true
  | .rejoinTimeout n => decide (n < 48)
  | .join slot => decide (slot < 256)
  | .fail slot => decide (slot < 256)
  | .patrolNow => true
  | .reshapeStart => true
  | .reshapeCancel => true
  | .rebuild => true
  | .stripeRebuilt _ pos _ => decide (pos < 24)
  | .resync => true
  | .stripeResync _ => true
  | .patrol _ => true
  | .reshape _ => true
  | .moduleDrained n => decide (n < 48)
  | .maintAdmit => true
  | .xhlLinkUp lanes => decide (lanes.length = 8)
  | .xhlFlitReceive _ => true
  | .xhlNak ack => decide (ack < 4096)
  | .xhlReplayTimeout => true
  | .xhlLinkDown => true
  | .heartbeatSend => true
  | .heartbeat _ => true
  | .ident _ _ _ _ => true
  | .lastGasp => true
  | .flushMessage _ _ => true
  | .mapDelta _ _ _ => true
  | .deltaGap => true
  | .handover _ _ => true
  | .rebalanceReq => true
  | .fwdCmd q tag gen words _ _ _ => queueIdOk q && decide (tag < 32) && decide (gen < 8) && decide (words.length = 16)
  | .fwdData q tag gen _ _ _ => queueIdOk q && decide (tag < 32) && decide (gen < 8)
  | .fwdCpl q tag gen status _ _ => queueIdOk q && decide (tag < 32) && decide (gen < 8) && decide (status < 65536)
  | .bulk _ => true
  | .nop tc => decide (tc < 5)
  | .pairKey _ => true
  | .peerSuspect => true
  | .peerLost => true
  | .takeover => true
  | .fenceResult => true
  | .fenceRetry => true
  | .startFenceRetry => true
  | .takeoverEnd _ => true
  | .enterMaint peer => decide (peer < 4)
  | .exitMaint => true
  | .rebalance _ => true
  | .give _ => true
  | .unpinPeer confirm => decide (confirm < 65536)
  | .dramCe c _ _ => decide (c < 12)
  | .dramUe c _ => decide (c < 12)
  | .patrolScrub c _ _ => decide (c < 12)
  | .caParityAlert c _ => decide (c < 12)
  | .dramRefresh c bank _ => decide (c < 12) && decide (bank < 256)
  | .rfm c bank _ => decide (c < 12) && decide (bank < 256)
  | .rhThrottle _ src _ more => decide (src < 65536) && decide (∀ x ∈ more, x.src < 65536)
  | .rhWindowEnd c bank => decide (c < 12) && decide (bank < 256)
  | .rowClose c bank => decide (c < 12) && decide (bank < 256)
  | .dimmTempRead c _ => decide (c < 12)
  | .dramRetrain c lanes => decide (c < 12) && decide (lanes.length = 20)
  | .dqsDriftCheck c _ lanes => decide (c < 12) && decide (lanes.length = 20)
  | .delaySelect _ => true
  | .loopSample _ _ _ => true
  | .missedSample n => decide (n < 54)
  | .loopSaturated n => decide (n < 54)
  | .loopCommit n _ _ => decide (n < 64)
  | .avsMarginFail => true
  | .chargeStep => true
  | .fanTachWindow f _ => decide (f < 6)
  | .fanFault f => decide (f < 6)
  | .dieHot => true
  | .dieOvertemp => true
  | .slotPowerOn n => decide (n < 48)
  | .slotEnFollow n => decide (n < 48)
  | .slotPowerFail n => decide (n < 48)
  | .slotPowerRetry n => decide (n < 48)
  | .slotOffWrite ep _ => decide (ep < 4)
  | .slotPowerOff n => decide (n < 48)
  | .errorReport src _ => decide (src < 65536)
  | .husk src _ _ _ entry => decide (src < 65536) && decide (entry < 16)
  | .selfTestStart => true
  | .selfTest src _ _ _ => decide (src < 65536)
  | .failstop cause src => decide (src < 65536) && decide (cause < 256)
  | .blockTest src => decide (src < 65536)
  | .wholeChip => true
  | .wholeChipTestEnd _ _ => true
  | .regionTableChange _ => true
  | .huskSelect _ => true
  | .regionSelect _ => true
  | .recordClose _ => true
  | .norEntryProgram => true
  | .birthRefresh => true
  | .almSelect _ => true
  | .almCursorWrite _ => true
  | .almWindowAdvance => true
  | .almanacClear _ => true
  | .clearEraseDone => true
  | .updOpen => true
  | .updDataWrite idx _ => decide (idx < 1024)
  | .stagingTimeout => true
  | .stageFw slot => decide (slot < 2)
  | .stageCfg => true
  | .staged _ _ => true
  | .updActivate confirm => decide (confirm < 65536)
  | .updRestart confirm => decide (confirm < 65536)
  | .updAbort => true
  | .updRun _ => true
  | .updateReset _ => true
  | .fwConfirmed => true
  | .fwFallback _ => true
  | .portLink sub _ => decide (sub < 16)
  | .cmRep l _ len => decide (l < 64) && decide (len < 2 ^ 32)
  | .dmlRetrainComplete trained => decide (trained.port < 48)
  | .d0Entry ep => decide (ep < 4)
  | .dieHotCleared => true
  | .splitDelayExpiry => true
  | .vaultProposal => true

end Sys2Proof
end

