-- ==== Sys2Proof/Tests/Slice0.lean ====
section
/-!
SUPPORT. Tests: ill-formed commands that WellFormed refuses, worked examples of the spec, and for every statement with hypotheses
states and operands that meet them.
-/
set_option Elab.async false
set_option linter.unusedVariables false
set_option maxRecDepth 100000
namespace Sys2Proof.Tests
open Sys2Proof Sys2Proof.Machine

/-! ## Well-formed commands -/

/-- Each term breaks one check, and the check refuses it. -/
theorem test_refused_1 :
    (∀ x_w, wellFormed (.registerWrite 4 0 x_w) = false) ∧
    (∀ x_w, wellFormed (.registerWrite 3 2 x_w) = false) ∧
    (∀ x_w, wellFormed (.registerWrite 3 0x2000000 x_w) = false) ∧
    (wellFormed (.lowHalfRead 4 0x10010) = false) ∧
    (wellFormed (.lowHalfRead 3 0xC) = false) ∧
    (∀ x_w, wellFormed (.highHalfWrite 4 0x10014 x_w) = false) ∧
    (∀ x_w, wellFormed (.highHalfWrite 3 3 x_w) = false) ∧
    (∀ x_w, wellFormed (.highHalfWrite 3 0x10 x_w) = false) ∧
    (∀ x_w, wellFormed (.lowHalfWrite 4 0x10010 x_w) = false) ∧
    (∀ x_w, wellFormed (.lowHalfWrite 3 0xC x_w) = false) ∧
    (wellFormed (.rcRead 4 0xD0024) = false) ∧
    (wellFormed (.rcRead 3 0x10) = false) ∧
    (∀ x_off x_size x_acc, wellFormed (.barAccessError 4 0 x_off x_size x_acc) = false) ∧
    (∀ x_off x_size x_acc, wellFormed (.barAccessError 3 2 x_off x_size x_acc) = false) ∧
    (∀ x_ev, wellFormed (.bar2Request 4 x_ev) = false) ∧
    (∀ x_data, wellFormed (.bar4Access 4 0 64 x_data) = false) ∧
    (∀ x_data, wellFormed (.bar4Access 3 0x4000 64 x_data) = false) ∧
    (∀ x_data, wellFormed (.bar4Access 3 0 65 x_data) = false) ∧
    (∀ x_block, wellFormed (.watchdogTimeout x_block 65536) = false) ∧
    (∀ x_reqs, wellFormed (.controlPortRequest 65536 x_reqs) = false) ∧
    (∀ x_samples x_tenCycles x_run, wellFormed (.feedClassification 2 x_samples x_tenCycles x_run) = false) ∧
    (∀ x_masters x_x x_adj, wellFormed (.ptpSync 16 x_masters x_x x_adj) = false) ∧
    (∀ x_lo, wellFormed (.civilSet 4 x_lo) = false) ∧
    (wellFormed (.hotReset { ep := 4, unacked := 2048 }) = false) := by
  and_intros <;> intros <;> rfl

/-- Each term breaks one check, and the check refuses it. -/
theorem test_refused_2 :
    (wellFormed (.hotReset { ep := 3, unacked := 2049 }) = false) ∧
    (wellFormed (.linkDown { ep := 4, unacked := 2048 }) = false) ∧
    (wellFormed (.linkDown { ep := 3, unacked := 2049 }) = false) ∧
    (∀ x_flit, wellFormed (.linkUp 4 1 16 x_flit) = false) ∧
    (∀ x_flit, wellFormed (.linkUp 3 0 16 x_flit) = false) ∧
    (∀ x_flit, wellFormed (.linkUp 3 7 16 x_flit) = false) ∧
    (∀ x_flit, wellFormed (.linkUp 3 1 17 x_flit) = false) ∧
    (wellFormed (.d3hot 4) = false) ∧
    (∀ x_writes, wellFormed (.busMasterEnableCleared { ep := 4, writes := x_writes }) = false) ∧
    (∀ x_writes, wellFormed (.busMasterEnableSet 4 x_writes) = false) ∧
    (∀ x_w, wellFormed (.winCommit 4 63 x_w) = false) ∧
    (∀ x_w, wellFormed (.winCommit 3 64 x_w) = false) ∧
    (∀ x_what x_addr, wellFormed (.transferError 4 256 x_what x_addr) = false) ∧
    (∀ x_what x_addr, wellFormed (.transferError 3 257 x_what x_addr) = false) ∧
    (∀ x_v, wellFormed (.vectorUnmask 4 x_v) = false) ∧
    (∀ x_w, wellFormed (.dbReady 4 256 x_w) = false) ∧
    (∀ x_w, wellFormed (.dbReady 3 257 x_w) = false) ∧
    (∀ x_w, wellFormed (.dbAbort 4 256 x_w) = false) ∧
    (∀ x_w, wellFormed (.dbAbort 3 257 x_w) = false) ∧
    (∀ x_w, wellFormed (.dbCqHead 4 256 x_w) = false) ∧
    (∀ x_w, wellFormed (.dbCqHead 3 257 x_w) = false) ∧
    (∀ x_lo, wellFormed (.dbReadyAbort 4 256 x_lo) = false) ∧
    (∀ x_lo, wellFormed (.dbReadyAbort 3 257 x_lo) = false) ∧
    (∀ x_plist x_media, wellFormed (.read (.ring 0 257) 31 (List.replicate 16 0) x_plist x_media) = false) := by
  and_intros <;> intros <;> rfl

/-- Each term breaks one check, and the check refuses it. -/
theorem test_refused_3 :
    (∀ x_plist x_media, wellFormed (.read (.ring 0 256) 32 (List.replicate 16 0) x_plist x_media) = false) ∧
    (∀ x_plist x_media, wellFormed (.read (.ring 0 256) 31 [] x_plist x_media) = false) ∧
    (∀ x_plist, wellFormed (.write (.ring 0 257) 31 (List.replicate 16 0) x_plist) = false) ∧
    (∀ x_plist, wellFormed (.write (.ring 0 256) 32 (List.replicate 16 0) x_plist) = false) ∧
    (∀ x_plist, wellFormed (.write (.ring 0 256) 31 [] x_plist) = false) ∧
    (wellFormed (.flush (.ring 0 257) 31 (List.replicate 16 0)) = false) ∧
    (wellFormed (.flush (.ring 0 256) 32 (List.replicate 16 0)) = false) ∧
    (wellFormed (.flush (.ring 0 256) 31 []) = false) ∧
    (wellFormed (.discard (.ring 0 257) 31 (List.replicate 16 0)) = false) ∧
    (wellFormed (.discard (.ring 0 256) 32 (List.replicate 16 0)) = false) ∧
    (wellFormed (.discard (.ring 0 256) 31 []) = false) ∧
    (wellFormed (.rasterHint (.ring 0 257) 31 (List.replicate 16 0)) = false) ∧
    (wellFormed (.rasterHint (.ring 0 256) 32 (List.replicate 16 0)) = false) ∧
    (wellFormed (.rasterHint (.ring 0 256) 31 []) = false) ∧
    (∀ x_media, wellFormed (.fixity (.ring 0 257) 31 (List.replicate 16 0) x_media) = false) ∧
    (∀ x_media, wellFormed (.fixity (.ring 0 256) 32 (List.replicate 16 0) x_media) = false) ∧
    (∀ x_media, wellFormed (.fixity (.ring 0 256) 31 [] x_media) = false) ∧
    (wellFormed (.retain (.ring 0 257) 31 (List.replicate 16 0)) = false) ∧
    (wellFormed (.retain (.ring 0 256) 32 (List.replicate 16 0)) = false) ∧
    (wellFormed (.retain (.ring 0 256) 31 []) = false) ∧
    (wellFormed (.snapshot (.ring 0 257) 31 (List.replicate 16 0)) = false) ∧
    (wellFormed (.snapshot (.ring 0 256) 32 (List.replicate 16 0)) = false) ∧
    (wellFormed (.snapshot (.ring 0 256) 31 []) = false) ∧
    (wellFormed (.clone (.ring 0 257) 31 (List.replicate 16 0)) = false) := by
  and_intros <;> intros <;> rfl

/-- Each term breaks one check, and the check refuses it. -/
theorem test_refused_4 :
    (wellFormed (.clone (.ring 0 256) 32 (List.replicate 16 0)) = false) ∧
    (wellFormed (.clone (.ring 0 256) 31 []) = false) ∧
    (wellFormed (.snapDelete (.ring 0 257) 31 (List.replicate 16 0)) = false) ∧
    (wellFormed (.snapDelete (.ring 0 256) 32 (List.replicate 16 0)) = false) ∧
    (wellFormed (.snapDelete (.ring 0 256) 31 []) = false) ∧
    (wellFormed (.query (.ring 0 257) 31 (List.replicate 16 0)) = false) ∧
    (wellFormed (.query (.ring 0 256) 32 (List.replicate 16 0)) = false) ∧
    (wellFormed (.query (.ring 0 256) 31 []) = false) ∧
    (wellFormed (.createQueue (.ring 0 257) 31 (List.replicate 16 0)) = false) ∧
    (wellFormed (.createQueue (.ring 0 256) 32 (List.replicate 16 0)) = false) ∧
    (wellFormed (.createQueue (.ring 0 256) 31 []) = false) ∧
    (wellFormed (.deleteQueue (.ring 0 257) 31 (List.replicate 16 0)) = false) ∧
    (wellFormed (.deleteQueue (.ring 0 256) 32 (List.replicate 16 0)) = false) ∧
    (wellFormed (.deleteQueue (.ring 0 256) 31 []) = false) ∧
    (wellFormed (.resetQueue (.ring 0 257) 31 (List.replicate 16 0)) = false) ∧
    (wellFormed (.resetQueue (.ring 0 256) 32 (List.replicate 16 0)) = false) ∧
    (wellFormed (.resetQueue (.ring 0 256) 31 []) = false) ∧
    (wellFormed (.createVolume (.ring 0 257) 31 (List.replicate 16 0)) = false) ∧
    (wellFormed (.createVolume (.ring 0 256) 32 (List.replicate 16 0)) = false) ∧
    (wellFormed (.createVolume (.ring 0 256) 31 []) = false) ∧
    (wellFormed (.deleteVolume (.ring 0 257) 31 (List.replicate 16 0)) = false) ∧
    (wellFormed (.deleteVolume (.ring 0 256) 32 (List.replicate 16 0)) = false) ∧
    (wellFormed (.deleteVolume (.ring 0 256) 31 []) = false) ∧
    (wellFormed (.setPeriod (.ring 0 257) 31 (List.replicate 16 0)) = false) := by
  and_intros <;> intros <;> rfl

/-- Each term breaks one check, and the check refuses it. -/
theorem test_refused_5 :
    (wellFormed (.setPeriod (.ring 0 256) 32 (List.replicate 16 0)) = false) ∧
    (wellFormed (.setPeriod (.ring 0 256) 31 []) = false) ∧
    (wellFormed (.setTime (.ring 0 257) 31 (List.replicate 16 0)) = false) ∧
    (wellFormed (.setTime (.ring 0 256) 32 (List.replicate 16 0)) = false) ∧
    (wellFormed (.setTime (.ring 0 256) 31 []) = false) ∧
    (wellFormed (.powerHint (.ring 0 257) 31 (List.replicate 16 0)) = false) ∧
    (wellFormed (.powerHint (.ring 0 256) 32 (List.replicate 16 0)) = false) ∧
    (wellFormed (.powerHint (.ring 0 256) 31 []) = false) ∧
    (wellFormed (.asyncEvent (.ring 0 257) 31 (List.replicate 16 0)) = false) ∧
    (wellFormed (.asyncEvent (.ring 0 256) 32 (List.replicate 16 0)) = false) ∧
    (wellFormed (.asyncEvent (.ring 0 256) 31 []) = false) ∧
    (wellFormed (.queryDevice (.ring 0 257) 31 (List.replicate 16 0)) = false) ∧
    (wellFormed (.queryDevice (.ring 0 256) 32 (List.replicate 16 0)) = false) ∧
    (wellFormed (.queryDevice (.ring 0 256) 31 []) = false) ∧
    (wellFormed (.coalescingTimeout 4 256) = false) ∧
    (wellFormed (.coalescingTimeout 3 257) = false) ∧
    (∀ x_w, wellFormed (.adminQueueEnable 4 x_w) = false) ∧
    (∀ x_w, wellFormed (.adminQueueDisable 4 x_w) = false) ∧
    (∀ x_media, wellFormed (.fencedCommandStart (.ring 0 257) 31 7 x_media) = false) ∧
    (∀ x_media, wellFormed (.fencedCommandStart (.ring 0 256) 32 7 x_media) = false) ∧
    (∀ x_media, wellFormed (.fencedCommandStart (.ring 0 256) 31 8 x_media) = false) ∧
    (wellFormed (.pfcXon 16 0) = false) ∧
    (wellFormed (.pfcXon 15 (2 ^ 32)) = false) ∧
    (∀ x_pause, wellFormed (.pfcPause 16 x_pause) = false) := by
  and_intros <;> intros <;> rfl

/-- Each term breaks one check, and the check refuses it. -/
theorem test_refused_6 :
    (wellFormed (.pfcStuck 16) = false) ∧
    (wellFormed (.cnpReceive (2 ^ 24)) = false) ∧
    (wellFormed (.rateIncrease (2 ^ 24)) = false) ∧
    (∀ x_req x_link, wellFormed (.cmReq 16 x_req x_link) = false) ∧
    (wellFormed (.cmRtu (2 ^ 24)) = false) ∧
    (wellFormed (.cmDreq (2 ^ 24)) = false) ∧
    (∀ x_r x_key, wellFormed (.rdmaWrite x_r x_key (2 ^ 32 + 1) []) = false) ∧
    (∀ x_r x_key x_imm, wellFormed (.rdmaWriteWithImmediate x_r x_key (2 ^ 32 + 1) [] x_imm) = false) ∧
    (∀ x_r x_key, wellFormed (.rdmaRead x_r x_key (2 ^ 32 + 1) 0) = false) ∧
    (wellFormed (.ackTimeout (2 ^ 24)) = false) ∧
    (∀ x_cause x_key, wellFormed (.qpError (2 ^ 24) x_cause x_key) = false) ∧
    (∀ x_w, wellFormed (.pkeyTableWrite 4096 x_w) = false) ∧
    (∀ x_ship x_media, wellFormed (.replicationCut 64 x_ship x_media) = false) ∧
    (wellFormed (.replicationRecord 64 []) = false) ∧
    (∀ x_imm, wellFormed (.batchApply 64 x_imm) = false) ∧
    (wellFormed (.batchAck 64 0) = false) ∧
    (wellFormed (.batchAck 63 (2 ^ 64)) = false) ∧
    (∀ x_media, wellFormed (.batchResend 64 x_media) = false) ∧
    (wellFormed (.replReconnect 64) = false) ∧
    (∀ x_w, wellFormed (.replEnable 64 x_w) = false) ∧
    (∀ x_w, wellFormed (.replDisable 64 x_w) = false) ∧
    (∀ x_data x_pi, wellFormed (.writeDataArrival (.ring 0 257) { tag := 31, gen := 7 } x_data x_pi) = false) ∧
    (∀ x_data x_pi, wellFormed (.writeDataArrival (.ring 0 256) { tag := 32, gen := 7 } x_data x_pi) = false) ∧
    (∀ x_data x_pi, wellFormed (.writeDataArrival (.ring 0 256) { tag := 31, gen := 8 } x_data x_pi) = false) := by
  and_intros <;> intros <;> rfl

/-- Each term breaks one check, and the check refuses it. -/
theorem test_refused_7 :
    (wellFormed (.writeAdmission (.ring 0 257) 31) = false) ∧
    (wellFormed (.writeAdmission (.ring 0 256) 32) = false) ∧
    (∀ x_lsn x_ok, wellFormed (.mirrorAck x_lsn (.ring 0 257) 31 7 x_ok) = false) ∧
    (∀ x_lsn x_ok, wellFormed (.mirrorAck x_lsn (.ring 0 256) 32 7 x_ok) = false) ∧
    (∀ x_lsn x_ok, wellFormed (.mirrorAck x_lsn (.ring 0 256) 31 8 x_ok) = false) ∧
    (∀ x_frames, wellFormed (.fwdFrames (.ring 0 257) 31 x_frames) = false) ∧
    (∀ x_frames, wellFormed (.fwdFrames (.ring 0 256) 32 x_frames) = false) ∧
    (∀ x_lsn, wellFormed (.fwdLsn (.ring 0 257) 31 7 x_lsn) = false) ∧
    (∀ x_lsn, wellFormed (.fwdLsn (.ring 0 256) 32 7 x_lsn) = false) ∧
    (∀ x_lsn, wellFormed (.fwdLsn (.ring 0 256) 31 8 x_lsn) = false) ∧
    (∀ x_media x_copies, wellFormed (.assemblyDelayExpiry 65536 0 x_media x_copies) = false) ∧
    (∀ x_media x_copies, wellFormed (.assemblyDelayExpiry 65535 (2 ^ 48) x_media x_copies) = false) ∧
    (∀ x_media x_copies, wellFormed (.assemblyStart 65536 0 x_media x_copies) = false) ∧
    (∀ x_media x_copies, wellFormed (.assemblyStart 65535 (2 ^ 48) x_media x_copies) = false) ∧
    (wellFormed (.assemblyComplete 65536 0) = false) ∧
    (wellFormed (.assemblyComplete 65535 (2 ^ 48)) = false) ∧
    (wellFormed (.mapEntrySet 65536 0) = false) ∧
    (wellFormed (.mapEntrySet 65535 (2 ^ 48)) = false) ∧
    (wellFormed (.fingerprint { vol := 65536, chunk := 0 } 39) = false) ∧
    (wellFormed (.fingerprint { vol := 65535, chunk := (2 ^ 48) } 39) = false) ∧
    (wellFormed (.fingerprint { vol := 65535, chunk := 0 } 40) = false) ∧
    (wellFormed (.seedLookup 65536 0) = false) ∧
    (wellFormed (.seedLookup 65535 (2 ^ 48)) = false) ∧
    (∀ x_media, wellFormed (.verifyOnMatch 65536 0 95 x_media) = false) := by
  and_intros <;> intros <;> rfl

/-- Each term breaks one check, and the check refuses it. -/
theorem test_refused_8 :
    (∀ x_media, wellFormed (.verifyOnMatch 65535 (2 ^ 48) 95 x_media) = false) ∧
    (∀ x_media, wellFormed (.verifyOnMatch 65535 0 96 x_media) = false) ∧
    (wellFormed (.seedInsert 65536 0) = false) ∧
    (wellFormed (.seedInsert 65535 (2 ^ 48)) = false) ∧
    (wellFormed (.seedSplit 32768) = false) ∧
    (wellFormed (.snapshotFreeze 65536 1) = false) ∧
    (wellFormed (.snapshotFreeze 65535 0) = false) ∧
    (wellFormed (.snapshotDeleted 65536 1) = false) ∧
    (wellFormed (.snapshotDeleted 65535 0) = false) ∧
    (wellFormed (.kernelEncode 65536 0 39) = false) ∧
    (wellFormed (.kernelEncode 65535 (2 ^ 48) 39) = false) ∧
    (wellFormed (.kernelEncode 65535 0 40) = false) ∧
    (∀ x_fault, wellFormed (.kernelVerify 65536 0 95 x_fault) = false) ∧
    (∀ x_fault, wellFormed (.kernelVerify 65535 (2 ^ 48) 95 x_fault) = false) ∧
    (∀ x_fault, wellFormed (.kernelVerify 65535 0 96 x_fault) = false) ∧
    (∀ x_media, wellFormed (.kernelDecode { vol := 65535, chunk := 0 } 4097 95 x_media) = false) ∧
    (∀ x_media, wellFormed (.kernelDecode { vol := 65536, chunk := 0 } 4096 95 x_media) = false) ∧
    (∀ x_media, wellFormed (.kernelDecode { vol := 65535, chunk := (2 ^ 48) } 4096 95 x_media) = false) ∧
    (∀ x_media, wellFormed (.kernelDecode { vol := 65535, chunk := 0 } 4096 96 x_media) = false) ∧
    (wellFormed (.protectChunk { vol := 65536, chunk := 0 } 39) = false) ∧
    (wellFormed (.protectChunk { vol := 65535, chunk := (2 ^ 48) } 39) = false) ∧
    (wellFormed (.protectChunk { vol := 65535, chunk := 0 } 40) = false) ∧
    (wellFormed (.keyLoad 0) = false) ∧
    (wellFormed (.keyLoad 256) = false) := by
  and_intros <;> intros <;> rfl

/-- Each term breaks one check, and the check refuses it. -/
theorem test_refused_9 :
    (wellFormed (.keyLoadWrapped 0 1) = false) ∧
    (wellFormed (.keyLoadWrapped 256 1) = false) ∧
    (wellFormed (.keyLoadWrapped 1 0) = false) ∧
    (wellFormed (.keyLoadWrapped 1 256) = false) ∧
    (wellFormed (.keyGenerate 0) = false) ∧
    (wellFormed (.keyGenerate 256) = false) ∧
    (wellFormed (.keyZeroise 0) = false) ∧
    (wellFormed (.keyZeroise 256) = false) ∧
    (wellFormed (.maskFault 65536) = false) ∧
    (∀ x_w, wellFormed (.csLock 4 x_w) = false) ∧
    (wellFormed (.csSeal 65536 255 3 3) = false) ∧
    (wellFormed (.csSeal 65535 256 3 3) = false) ∧
    (wellFormed (.csSeal 65535 255 4 3) = false) ∧
    (wellFormed (.csSeal 65535 255 3 4) = false) ∧
    (wellFormed (.csOpen 65536 255 3 3) = false) ∧
    (wellFormed (.csOpen 65535 256 3 3) = false) ∧
    (wellFormed (.csOpen 65535 255 4 3) = false) ∧
    (wellFormed (.csOpen 65535 255 3 4) = false) ∧
    (wellFormed (.digestStart 4 3 3) = false) ∧
    (wellFormed (.digestStart 3 4 3) = false) ∧
    (wellFormed (.digestStart 3 3 4) = false) ∧
    (wellFormed (.digestRelease 4) = false) ∧
    (wellFormed (.dmlDetect 48) = false) ∧
    (∀ x_ev, wellFormed (.dmlTraining 48 x_ev) = false) := by
  and_intros <;> intros <;> rfl

/-- Each term breaks one check, and the check refuses it. -/
theorem test_refused_10 :
    (wellFormed (.dmlTrainTimeout 48) = false) ∧
    (∀ x_d, wellFormed (.dmlIdent 48 x_d) = false) ∧
    (wellFormed (.dmlDownRetry 48) = false) ∧
    (∀ x_rx, wellFormed (.dmlFlitReceive 48 x_rx) = false) ∧
    (wellFormed (.dmlRetrainTimeout 48) = false) ∧
    (wellFormed (.dmlNak 48 1023) = false) ∧
    (wellFormed (.dmlNak 47 1024) = false) ∧
    (wellFormed (.dmlReplayTimeout 48) = false) ∧
    (∀ x_x, wellFormed (.dmlCompletion 48 x_x) = false) ∧
    (∀ x_t, wellFormed (.telem 48 x_t) = false) ∧
    (wellFormed (.telemMissing 48) = false) ∧
    (∀ x_e, wellFormed (.moduleEvent 48 x_e) = false) ∧
    (wellFormed (.moduleInserted 48) = false) ∧
    (wellFormed (.moduleRemoved 48) = false) ∧
    (∀ x_block x_page x_ev, wellFormed (.codewordRead 47 256 3 x_block x_page 3 x_ev) = false) ∧
    (∀ x_block x_page x_ev, wellFormed (.codewordRead 47 255 4 x_block x_page 3 x_ev) = false) ∧
    (∀ x_block x_page x_ev, wellFormed (.codewordRead 47 255 3 x_block x_page 4 x_ev) = false) ∧
    (∀ x_block x_page x_ev, wellFormed (.codewordRead 48 255 3 x_block x_page 3 x_ev) = false) ∧
    (wellFormed (.suspendIssue 47 256) = false) ∧
    (wellFormed (.suspendIssue 48 255) = false) ∧
    (wellFormed (.resumeIssue 47 256) = false) ∧
    (wellFormed (.resumeIssue 48 255) = false) ∧
    (wellFormed (.relocationSwitch (2 ^ 43)) = false) ∧
    (∀ x_media, wellFormed (.gcState 47 256 x_media) = false) := by
  and_intros <;> intros <;> rfl

/-- Each term breaks one check, and the check refuses it. -/
theorem test_refused_11 :
    (∀ x_media, wellFormed (.gcState 48 255 x_media) = false) ∧
    (∀ x_media, wellFormed (.wlMove 47 256 x_media) = false) ∧
    (∀ x_media, wellFormed (.wlMove 48 255 x_media) = false) ∧
    (∀ x_block x_media, wellFormed (.refreshClass 47 256 3 x_block x_media) = false) ∧
    (∀ x_block x_media, wellFormed (.refreshClass 47 255 4 x_block x_media) = false) ∧
    (∀ x_block x_media, wellFormed (.refreshClass 48 255 3 x_block x_media) = false) ∧
    (∀ x_w, wellFormed (.ledgerSelect 4 x_w) = false) ∧
    (wellFormed (.rejoinTimeout 48) = false) ∧
    (wellFormed (.join 256) = false) ∧
    (wellFormed (.fail 256) = false) ∧
    (∀ x_serial x_reads, wellFormed (.stripeRebuilt x_serial 24 x_reads) = false) ∧
    (wellFormed (.moduleDrained 48) = false) ∧
    (wellFormed (.xhlLinkUp []) = false) ∧
    (wellFormed (.xhlNak 4096) = false) ∧
    (∀ x_tenant x_abort x_media, wellFormed (.fwdCmd (.ring 0 257) 31 7 (List.replicate 16 0) x_tenant x_abort x_media) = false) ∧
    (∀ x_tenant x_abort x_media, wellFormed (.fwdCmd (.ring 0 256) 32 7 (List.replicate 16 0) x_tenant x_abort x_media) = false) ∧
    (∀ x_tenant x_abort x_media, wellFormed (.fwdCmd (.ring 0 256) 31 8 (List.replicate 16 0) x_tenant x_abort x_media) = false) ∧
    (∀ x_tenant x_abort x_media, wellFormed (.fwdCmd (.ring 0 256) 31 7 [] x_tenant x_abort x_media) = false) ∧
    (∀ x_kind x_idx x_data, wellFormed (.fwdData (.ring 0 257) 31 7 x_kind x_idx x_data) = false) ∧
    (∀ x_kind x_idx x_data, wellFormed (.fwdData (.ring 0 256) 32 7 x_kind x_idx x_data) = false) ∧
    (∀ x_kind x_idx x_data, wellFormed (.fwdData (.ring 0 256) 31 8 x_kind x_idx x_data) = false) ∧
    (∀ x_r0 x_r1, wellFormed (.fwdCpl (.ring 0 257) 31 7 65535 x_r0 x_r1) = false) ∧
    (∀ x_r0 x_r1, wellFormed (.fwdCpl (.ring 0 256) 32 7 65535 x_r0 x_r1) = false) ∧
    (∀ x_r0 x_r1, wellFormed (.fwdCpl (.ring 0 256) 31 8 65535 x_r0 x_r1) = false) := by
  and_intros <;> intros <;> rfl

/-- Each term breaks one check, and the check refuses it. -/
theorem test_refused_12 :
    (∀ x_r0 x_r1, wellFormed (.fwdCpl (.ring 0 256) 31 7 65536 x_r0 x_r1) = false) ∧
    (wellFormed (.nop 5) = false) ∧
    (wellFormed (.enterMaint 4) = false) ∧
    (wellFormed (.unpinPeer 65536) = false) ∧
    (∀ x_read x_written, wellFormed (.dramCe 12 x_read x_written) = false) ∧
    (∀ x_read, wellFormed (.dramUe 12 x_read) = false) ∧
    (∀ x_burst x_written, wellFormed (.patrolScrub 12 x_burst x_written) = false) ∧
    (∀ x_again, wellFormed (.caParityAlert 12 x_again) = false) ∧
    (∀ x_postpone, wellFormed (.dramRefresh 12 255 x_postpone) = false) ∧
    (∀ x_postpone, wellFormed (.dramRefresh 11 256 x_postpone) = false) ∧
    (∀ x_left, wellFormed (.rfm 12 255 x_left) = false) ∧
    (∀ x_left, wellFormed (.rfm 11 256 x_left) = false) ∧
    (∀ x_pa x_keepOpen, wellFormed (.rhThrottle x_pa 65536 x_keepOpen []) = false) ∧
    (∀ x_pa x_keepOpen, wellFormed (.rhThrottle x_pa 65535 x_keepOpen [{ pa := 0, src := 65536, keepOpen := false }]) = false) ∧
    (wellFormed (.rhWindowEnd 12 255) = false) ∧
    (wellFormed (.rhWindowEnd 11 256) = false) ∧
    (wellFormed (.rowClose 12 255) = false) ∧
    (wellFormed (.rowClose 11 256) = false) ∧
    (∀ x_t, wellFormed (.dimmTempRead 12 x_t) = false) ∧
    (wellFormed (.dramRetrain 12 (List.replicate 20 0)) = false) ∧
    (wellFormed (.dramRetrain 11 []) = false) ∧
    (∀ x_drift, wellFormed (.dqsDriftCheck 12 x_drift (List.replicate 20 0)) = false) ∧
    (∀ x_drift, wellFormed (.dqsDriftCheck 11 x_drift []) = false) ∧
    (wellFormed (.missedSample 54) = false) := by
  and_intros <;> intros <;> rfl

/-- Each term breaks one check, and the check refuses it. -/
theorem test_refused_13 :
    (wellFormed (.loopSaturated 54) = false) ∧
    (∀ x_host x_fw, wellFormed (.loopCommit 64 x_host x_fw) = false) ∧
    (∀ x_pulses, wellFormed (.fanTachWindow 6 x_pulses) = false) ∧
    (wellFormed (.fanFault 6) = false) ∧
    (wellFormed (.slotPowerOn 48) = false) ∧
    (wellFormed (.slotEnFollow 48) = false) ∧
    (wellFormed (.slotPowerFail 48) = false) ∧
    (wellFormed (.slotPowerRetry 48) = false) ∧
    (∀ x_w, wellFormed (.slotOffWrite 4 x_w) = false) ∧
    (wellFormed (.slotPowerOff 48) = false) ∧
    (∀ x_e, wellFormed (.errorReport 65536 x_e) = false) ∧
    (∀ x_addr x_len x_write, wellFormed (.husk 65536 x_addr x_len x_write 15) = false) ∧
    (∀ x_addr x_len x_write, wellFormed (.husk 65535 x_addr x_len x_write 16) = false) ∧
    (∀ x_pass x_rows x_ms, wellFormed (.selfTest 65536 x_pass x_rows x_ms) = false) ∧
    (wellFormed (.failstop 255 65536) = false) ∧
    (wellFormed (.failstop 256 65535) = false) ∧
    (wellFormed (.blockTest 65536) = false) ∧
    (∀ x_w, wellFormed (.updDataWrite 1024 x_w) = false) ∧
    (wellFormed (.stageFw 2) = false) ∧
    (wellFormed (.updActivate 65536) = false) ∧
    (wellFormed (.updRestart 65536) = false) ∧
    (∀ x_lanes, wellFormed (.portLink 16 x_lanes) = false) ∧
    (∀ x_key, wellFormed (.cmRep 64 x_key 0) = false) ∧
    (∀ x_key, wellFormed (.cmRep 63 x_key (2 ^ 32)) = false) := by
  and_intros <;> intros <;> rfl

/-- Each term breaks one check, and the check refuses it. -/
theorem test_refused_14 :
    (∀ x_lanes, wellFormed (.dmlRetrainComplete { port := 48, lanes := x_lanes }) = false) ∧
    (wellFormed (.d0Entry 4) = false) := by
  and_intros <;> intros <;> rfl

/-- Operands at the top of their ranges are well formed. -/
theorem test_accepted_1 :
    (∀ x_w, wellFormed (.registerWrite 3 0 x_w) = true) ∧
    (wellFormed (.lowHalfRead 3 0x10010) = true) ∧
    (∀ x_w, wellFormed (.highHalfWrite 3 0x10014 x_w) = true) ∧
    (∀ x_w, wellFormed (.lowHalfWrite 3 0x10010 x_w) = true) ∧
    (wellFormed (.rcRead 3 0xD0024) = true) ∧
    (∀ x_off x_size x_acc, wellFormed (.barAccessError 3 0 x_off x_size x_acc) = true) ∧
    (∀ x_ev, wellFormed (.bar2Request 3 x_ev) = true) ∧
    (∀ x_data, wellFormed (.bar4Access 3 0 64 x_data) = true) ∧
    (∀ x_block, wellFormed (.watchdogTimeout x_block 65535) = true) ∧
    (∀ x_reqs, wellFormed (.controlPortRequest 65535 x_reqs) = true) ∧
    (∀ x_samples x_tenCycles x_run, wellFormed (.feedClassification 1 x_samples x_tenCycles x_run) = true) ∧
    (∀ x_masters x_x x_adj, wellFormed (.ptpSync 15 x_masters x_x x_adj) = true) ∧
    (∀ x_lo, wellFormed (.civilSet 3 x_lo) = true) ∧
    (wellFormed (.hotReset { ep := 3, unacked := 2048 }) = true) ∧
    (wellFormed (.linkDown { ep := 3, unacked := 2048 }) = true) ∧
    (∀ x_flit, wellFormed (.linkUp 3 1 16 x_flit) = true) ∧
    (wellFormed (.d3hot 3) = true) ∧
    (∀ x_writes, wellFormed (.busMasterEnableCleared { ep := 3, writes := x_writes }) = true) ∧
    (∀ x_writes, wellFormed (.busMasterEnableSet 3 x_writes) = true) ∧
    (∀ x_w, wellFormed (.winCommit 3 63 x_w) = true) ∧
    (∀ x_what x_addr, wellFormed (.transferError 3 256 x_what x_addr) = true) ∧
    (∀ x_v, wellFormed (.vectorUnmask 3 x_v) = true) ∧
    (∀ x_w, wellFormed (.dbReady 3 256 x_w) = true) ∧
    (∀ x_w, wellFormed (.dbAbort 3 256 x_w) = true) := by
  and_intros <;> intros <;> rfl

/-- Operands at the top of their ranges are well formed. -/
theorem test_accepted_2 :
    (∀ x_w, wellFormed (.dbCqHead 3 256 x_w) = true) ∧
    (∀ x_lo, wellFormed (.dbReadyAbort 3 256 x_lo) = true) ∧
    (∀ x_plist x_media, wellFormed (.read (.ring 0 256) 31 (List.replicate 16 0) x_plist x_media) = true) ∧
    (∀ x_plist, wellFormed (.write (.ring 0 256) 31 (List.replicate 16 0) x_plist) = true) ∧
    (wellFormed (.flush (.ring 0 256) 31 (List.replicate 16 0)) = true) ∧
    (wellFormed (.discard (.ring 0 256) 31 (List.replicate 16 0)) = true) ∧
    (wellFormed (.rasterHint (.ring 0 256) 31 (List.replicate 16 0)) = true) ∧
    (∀ x_media, wellFormed (.fixity (.ring 0 256) 31 (List.replicate 16 0) x_media) = true) ∧
    (wellFormed (.retain (.ring 0 256) 31 (List.replicate 16 0)) = true) ∧
    (wellFormed (.snapshot (.ring 0 256) 31 (List.replicate 16 0)) = true) ∧
    (wellFormed (.clone (.ring 0 256) 31 (List.replicate 16 0)) = true) ∧
    (wellFormed (.snapDelete (.ring 0 256) 31 (List.replicate 16 0)) = true) ∧
    (wellFormed (.query (.ring 0 256) 31 (List.replicate 16 0)) = true) ∧
    (wellFormed (.createQueue (.ring 0 256) 31 (List.replicate 16 0)) = true) ∧
    (wellFormed (.deleteQueue (.ring 0 256) 31 (List.replicate 16 0)) = true) ∧
    (wellFormed (.resetQueue (.ring 0 256) 31 (List.replicate 16 0)) = true) ∧
    (wellFormed (.createVolume (.ring 0 256) 31 (List.replicate 16 0)) = true) ∧
    (wellFormed (.deleteVolume (.ring 0 256) 31 (List.replicate 16 0)) = true) ∧
    (wellFormed (.setPeriod (.ring 0 256) 31 (List.replicate 16 0)) = true) ∧
    (wellFormed (.setTime (.ring 0 256) 31 (List.replicate 16 0)) = true) ∧
    (wellFormed (.powerHint (.ring 0 256) 31 (List.replicate 16 0)) = true) ∧
    (wellFormed (.asyncEvent (.ring 0 256) 31 (List.replicate 16 0)) = true) ∧
    (wellFormed (.queryDevice (.ring 0 256) 31 (List.replicate 16 0)) = true) ∧
    (wellFormed (.coalescingTimeout 3 256) = true) := by
  and_intros <;> intros <;> rfl

/-- Operands at the top of their ranges are well formed. -/
theorem test_accepted_3 :
    (∀ x_w, wellFormed (.adminQueueEnable 3 x_w) = true) ∧
    (∀ x_w, wellFormed (.adminQueueDisable 3 x_w) = true) ∧
    (∀ x_media, wellFormed (.fencedCommandStart (.ring 0 256) 31 7 x_media) = true) ∧
    (wellFormed (.pfcXon 15 0) = true) ∧
    (∀ x_pause, wellFormed (.pfcPause 15 x_pause) = true) ∧
    (wellFormed (.pfcStuck 15) = true) ∧
    (wellFormed (.cnpReceive 0) = true) ∧
    (wellFormed (.rateIncrease 0) = true) ∧
    (∀ x_req x_link, wellFormed (.cmReq 15 x_req x_link) = true) ∧
    (wellFormed (.cmRtu 0) = true) ∧
    (wellFormed (.cmDreq 0) = true) ∧
    (∀ x_r x_key, wellFormed (.rdmaWrite x_r x_key 0 []) = true) ∧
    (∀ x_r x_key x_imm, wellFormed (.rdmaWriteWithImmediate x_r x_key 0 [] x_imm) = true) ∧
    (∀ x_r x_key, wellFormed (.rdmaRead x_r x_key 0 0) = true) ∧
    (wellFormed (.ackTimeout 0) = true) ∧
    (∀ x_cause x_key, wellFormed (.qpError 0 x_cause x_key) = true) ∧
    (∀ x_w, wellFormed (.pkeyTableWrite 4095 x_w) = true) ∧
    (∀ x_ship x_media, wellFormed (.replicationCut 63 x_ship x_media) = true) ∧
    (∀ x_imm, wellFormed (.batchApply 63 x_imm) = true) ∧
    (wellFormed (.batchAck 63 0) = true) ∧
    (∀ x_media, wellFormed (.batchResend 63 x_media) = true) ∧
    (wellFormed (.replReconnect 63) = true) ∧
    (∀ x_w, wellFormed (.replEnable 63 x_w) = true) ∧
    (∀ x_w, wellFormed (.replDisable 63 x_w) = true) := by
  and_intros <;> intros <;> rfl

/-- Operands at the top of their ranges are well formed. -/
theorem test_accepted_4 :
    (∀ x_data x_pi, wellFormed (.writeDataArrival (.ring 0 256) { tag := 31, gen := 7 } x_data x_pi) = true) ∧
    (wellFormed (.writeAdmission (.ring 0 256) 31) = true) ∧
    (∀ x_lsn x_ok, wellFormed (.mirrorAck x_lsn (.ring 0 256) 31 7 x_ok) = true) ∧
    (∀ x_frames, wellFormed (.fwdFrames (.ring 0 256) 31 x_frames) = true) ∧
    (∀ x_lsn, wellFormed (.fwdLsn (.ring 0 256) 31 7 x_lsn) = true) ∧
    (∀ x_media x_copies, wellFormed (.assemblyDelayExpiry 65535 0 x_media x_copies) = true) ∧
    (∀ x_media x_copies, wellFormed (.assemblyStart 65535 0 x_media x_copies) = true) ∧
    (wellFormed (.assemblyComplete 65535 0) = true) ∧
    (wellFormed (.mapEntrySet 65535 0) = true) ∧
    (wellFormed (.fingerprint { vol := 65535, chunk := 0 } 39) = true) ∧
    (wellFormed (.seedLookup 65535 0) = true) ∧
    (∀ x_media, wellFormed (.verifyOnMatch 65535 0 95 x_media) = true) ∧
    (wellFormed (.seedInsert 65535 0) = true) ∧
    (wellFormed (.seedSplit 32767) = true) ∧
    (wellFormed (.snapshotFreeze 65535 1) = true) ∧
    (wellFormed (.snapshotDeleted 65535 1) = true) ∧
    (wellFormed (.kernelEncode 65535 0 39) = true) ∧
    (∀ x_fault, wellFormed (.kernelVerify 65535 0 95 x_fault) = true) ∧
    (∀ x_media, wellFormed (.kernelDecode { vol := 65535, chunk := 0 } 4096 95 x_media) = true) ∧
    (wellFormed (.protectChunk { vol := 65535, chunk := 0 } 39) = true) ∧
    (wellFormed (.keyLoad 1) = true) ∧
    (wellFormed (.keyLoadWrapped 1 1) = true) ∧
    (wellFormed (.keyGenerate 1) = true) ∧
    (wellFormed (.keyZeroise 1) = true) := by
  and_intros <;> intros <;> rfl

/-- Operands at the top of their ranges are well formed. -/
theorem test_accepted_5 :
    (wellFormed (.maskFault 65535) = true) ∧
    (∀ x_w, wellFormed (.csLock 3 x_w) = true) ∧
    (wellFormed (.csSeal 65535 255 3 3) = true) ∧
    (wellFormed (.csOpen 65535 255 3 3) = true) ∧
    (wellFormed (.digestStart 3 3 3) = true) ∧
    (wellFormed (.digestRelease 3) = true) ∧
    (wellFormed (.dmlDetect 47) = true) ∧
    (∀ x_ev, wellFormed (.dmlTraining 47 x_ev) = true) ∧
    (wellFormed (.dmlTrainTimeout 47) = true) ∧
    (∀ x_d, wellFormed (.dmlIdent 47 x_d) = true) ∧
    (wellFormed (.dmlDownRetry 47) = true) ∧
    (∀ x_rx, wellFormed (.dmlFlitReceive 47 x_rx) = true) ∧
    (wellFormed (.dmlRetrainTimeout 47) = true) ∧
    (wellFormed (.dmlNak 47 1023) = true) ∧
    (wellFormed (.dmlReplayTimeout 47) = true) ∧
    (∀ x_x, wellFormed (.dmlCompletion 47 x_x) = true) ∧
    (∀ x_t, wellFormed (.telem 47 x_t) = true) ∧
    (wellFormed (.telemMissing 47) = true) ∧
    (∀ x_e, wellFormed (.moduleEvent 47 x_e) = true) ∧
    (wellFormed (.moduleInserted 47) = true) ∧
    (wellFormed (.moduleRemoved 47) = true) ∧
    (∀ x_block x_page x_ev, wellFormed (.codewordRead 47 255 3 x_block x_page 3 x_ev) = true) ∧
    (wellFormed (.suspendIssue 47 255) = true) ∧
    (wellFormed (.resumeIssue 47 255) = true) := by
  and_intros <;> intros <;> rfl

/-- Operands at the top of their ranges are well formed. -/
theorem test_accepted_6 :
    (wellFormed (.relocationSwitch 0) = true) ∧
    (∀ x_media, wellFormed (.gcState 47 255 x_media) = true) ∧
    (∀ x_media, wellFormed (.wlMove 47 255 x_media) = true) ∧
    (∀ x_block x_media, wellFormed (.refreshClass 47 255 3 x_block x_media) = true) ∧
    (∀ x_w, wellFormed (.ledgerSelect 3 x_w) = true) ∧
    (wellFormed (.rejoinTimeout 47) = true) ∧
    (wellFormed (.join 255) = true) ∧
    (wellFormed (.fail 255) = true) ∧
    (∀ x_serial x_reads, wellFormed (.stripeRebuilt x_serial 23 x_reads) = true) ∧
    (wellFormed (.moduleDrained 47) = true) ∧
    (wellFormed (.xhlLinkUp (List.replicate 8 (0, false))) = true) ∧
    (wellFormed (.xhlNak 4095) = true) ∧
    (∀ x_tenant x_abort x_media, wellFormed (.fwdCmd (.ring 0 256) 31 7 (List.replicate 16 0) x_tenant x_abort x_media) = true) ∧
    (∀ x_kind x_idx x_data, wellFormed (.fwdData (.ring 0 256) 31 7 x_kind x_idx x_data) = true) ∧
    (∀ x_r0 x_r1, wellFormed (.fwdCpl (.ring 0 256) 31 7 65535 x_r0 x_r1) = true) ∧
    (wellFormed (.nop 4) = true) ∧
    (wellFormed (.enterMaint 3) = true) ∧
    (wellFormed (.unpinPeer 65535) = true) ∧
    (∀ x_read x_written, wellFormed (.dramCe 11 x_read x_written) = true) ∧
    (∀ x_read, wellFormed (.dramUe 11 x_read) = true) ∧
    (∀ x_burst x_written, wellFormed (.patrolScrub 11 x_burst x_written) = true) ∧
    (∀ x_again, wellFormed (.caParityAlert 11 x_again) = true) ∧
    (∀ x_postpone, wellFormed (.dramRefresh 11 255 x_postpone) = true) ∧
    (∀ x_left, wellFormed (.rfm 11 255 x_left) = true) := by
  and_intros <;> intros <;> rfl

/-- Operands at the top of their ranges are well formed. -/
theorem test_accepted_7 :
    (∀ x_pa x_keepOpen, wellFormed (.rhThrottle x_pa 65535 x_keepOpen []) = true) ∧
    (wellFormed (.rhWindowEnd 11 255) = true) ∧
    (wellFormed (.rowClose 11 255) = true) ∧
    (∀ x_t, wellFormed (.dimmTempRead 11 x_t) = true) ∧
    (wellFormed (.dramRetrain 11 (List.replicate 20 0)) = true) ∧
    (∀ x_drift, wellFormed (.dqsDriftCheck 11 x_drift (List.replicate 20 0)) = true) ∧
    (wellFormed (.missedSample 53) = true) ∧
    (wellFormed (.loopSaturated 53) = true) ∧
    (∀ x_host x_fw, wellFormed (.loopCommit 63 x_host x_fw) = true) ∧
    (∀ x_pulses, wellFormed (.fanTachWindow 5 x_pulses) = true) ∧
    (wellFormed (.fanFault 5) = true) ∧
    (wellFormed (.slotPowerOn 47) = true) ∧
    (wellFormed (.slotEnFollow 47) = true) ∧
    (wellFormed (.slotPowerFail 47) = true) ∧
    (wellFormed (.slotPowerRetry 47) = true) ∧
    (∀ x_w, wellFormed (.slotOffWrite 3 x_w) = true) ∧
    (wellFormed (.slotPowerOff 47) = true) ∧
    (∀ x_e, wellFormed (.errorReport 65535 x_e) = true) ∧
    (∀ x_addr x_len x_write, wellFormed (.husk 65535 x_addr x_len x_write 15) = true) ∧
    (∀ x_pass x_rows x_ms, wellFormed (.selfTest 65535 x_pass x_rows x_ms) = true) ∧
    (wellFormed (.failstop 255 65535) = true) ∧
    (wellFormed (.blockTest 65535) = true) ∧
    (∀ x_w, wellFormed (.updDataWrite 1023 x_w) = true) ∧
    (wellFormed (.stageFw 1) = true) := by
  and_intros <;> intros <;> rfl

/-- Operands at the top of their ranges are well formed. -/
theorem test_accepted_8 :
    (wellFormed (.updActivate 65535) = true) ∧
    (wellFormed (.updRestart 65535) = true) ∧
    (∀ x_lanes, wellFormed (.portLink 15 x_lanes) = true) ∧
    (∀ x_key, wellFormed (.cmRep 63 x_key 0) = true) ∧
    (∀ x_lanes, wellFormed (.dmlRetrainComplete { port := 47, lanes := x_lanes }) = true) ∧
    (wellFormed (.d0Entry 3) = true) := by
  and_intros <;> intros <;> rfl

/-- A replication record longer than a header and 33 024 bytes is refused (R272). -/
theorem test_refused_record (l : Nat) (bytes : List (BitVec 8)) (h : 33088 < bytes.length) : wellFormed (.replicationRecord l bytes) = false := by
  simp only [wellFormed, Bool.and_eq_false_iff, decide_eq_false_iff_not]
  omega

/-- A ring of no endpoint, a ring above 256 and a channel above 24 bits are no queues (R209). -/
theorem test_refused_queue : queueIdOk (.ring 4 0) = false ∧ queueIdOk (.ring 3 257) = false ∧ queueIdOk (.channel (2 ^ 24)) = false ∧
    queueIdOk (.ring 3 256) = true ∧ queueIdOk (.channel (2 ^ 24 - 1)) = true := by decide

/-! ## States -/

/-- A head in service: OPERATIONAL, every start step done, the Almanac service running, endpoint 0 up with MSI-X. -/
def live : State :=
  { State.reset with
    glb := { Glb.reset with mode := .ready, ownAll := true, headSel := false, nvmMode := true, clocks := true, cfgOk := true,
                            hostEp := true, fw := true, sram := true, cal := true, xhl := true, media := true, dram := true,
                            map := true, log := true, service := true }
    fuses := { Fuses.reset with p := 1, o := 1 }
    eps := [{ Endpoint.reset with linkUp := true, inReset := false, mse := true, bme := true, msixEn := true, bar2 := 0x10000000 },
            Endpoint.reset, Endpoint.reset, Endpoint.reset]
    sec.drbgOk := true
    alm := { Alm.reset with loaded := true } }
/-- Endpoint 0 of `live` changed. -/
def liveEp (f : Endpoint → Endpoint) : State := { live with eps := live.eps.modify 0 f }
/-- A command queue with nothing in it. -/
def ring1 : Queue := { Queue.reset with id := .ring 0 1, st := .active, sizeLog2 := 5, tags := List.replicate 32 Tag.reset }
/-- A record of code `c` and sequence number `n`. -/
def rec1 (c n : Nat) (op : Bool) : AlmRecord := { AlmRecord.reset with code := c, seq := BitVec.ofNat 32 n, isOpen := op }
/-- `live` with the write-log, the pair link and a second queue idle, in MAINTENANCE. -/
def liveMaint : State := { live with glb.mode := .maintenance, glb.service := false }
/-- Channel 0 of `live` changed. -/
def liveChan (f : Chan → Chan) : State := { live with drc.chans := live.drc.chans.modify 0 f }
/-- What a start finds: neither configuration copy can be read, no module and no DIMM. -/
def start0 : StartIn :=
  { headSel := true, nvmMode := true, railsUp := true, counts := 0, cfgRead := [false, false], fwRead := [], torn := [],
    sramBad := [], calFails := [], eyes := [], calWords := [], trim := 0, present := 0, dimms := [],
    dramBad := [], shortfall := 0, peerGib := none, map := .none }
/-- Loop `n` of `live` changed. -/
def liveLoop (n : Nat) (f : Loop → Loop) : State := { live with cle.loops := live.cle.loops.modify n f }
/-- The 64 bytes of a command with tag 0 and generation 0. -/
def slot (op flags vol tenant lba count snap : Nat) (data pi : BitVec 64) (spec : List (BitVec 32)) : List (BitVec 32) :=
  [BitVec.ofNat 32 (op + 256 * flags), BitVec.ofNat 32 (vol + 65536 * tenant), BitVec.ofNat 32 lba, 0, BitVec.ofNat 32 count,
   BitVec.ofNat 32 snap, data.setWidth 32, (data >>> 32).setWidth 32, pi.setWidth 32, (pi >>> 32).setWidth 32] ++
    (spec ++ List.replicate 6 0).take 6
/-- Volume 1 of tenant 2: 1000 sectors. -/
def vol1 : Volume := { Volume.reset with num := 1, tenant := 2, size := 1000, k := 4, m := 2 }
/-- `live` with volume 1, owned here, and tag 0 of queue `n` ready. -/
def liveCmd (n : Nat) : State :=
  { live with
    red.volumes := [vol1]
    xhl.owned := [1]
    pwr.budget := 32768000
    pwr.ownBudget := 32768000
    wlg.mirror := 3
    dcq.queues := [{ ring1 with id := .ring 0 n, tags := { Tag.reset with st := .ready, asked := true } :: List.replicate 31 Tag.reset }] }
/-- A client channel, QP 5 of tenant 2. -/
def qp5 : Qp := { Qp.reset with qpn := 5, st := .rts, pkey := 0x8002, tenant := 2, epsn := 7, rate := 100000 }
/-- `live` with sub-port 0 up and client channel 5. -/
def liveNet : State :=
  { live with
    net.ports := live.net.ports.modify 0 fun p => { p with mode := 3, linkUp := 1 }
    net.qps := [qp5]
    net.pkeys := [{ Pkey.reset with idx := 0, pkey := 0x8002, valid := true }]
    dcq.queues := [{ Queue.reset with id := .channel 5, tags := List.replicate 32 Tag.reset }] }
/-- A request on QP 5 with the PSN expected. -/
def req5 : RoceReq := { qpn := 5, pkey := 0x8002, psn := 7, op := .send }
/-- Link 3 of `live` changed. -/
def liveLink (f : Repl → Repl) : State := { liveNet with rma.links := live.rma.links.modify 3 f, red.volumes := [vol1], xhl.owned := [1] }
/-- A write of one sector, tag 0 of queue 1, whose state is `st`. -/
def cmdW (st : CmdState) : Cmd := { Cmd.reset with q := .ring 0 1, words := slot 2 0 1 2 24 1 0 0x1000 0x2000 [], st := st }
/-- `liveCmd 1` with that write fetched. -/
def liveW (f : Cmd → Cmd) : State :=
  { liveCmd 1 with
    dcq.queues := [{ ring1 with tags := { Tag.reset with st := .fetched } :: List.replicate 31 Tag.reset }]
    dcq.cmds := [f (cmdW .started)]
    wlg.gib := 1
    wlg.lsn := 40 }
/-- A logged frame of chunk 3 of volume 1. -/
def frame3 : Frame := { Frame.reset with volume := 1, tenant := 2, chunk := 3, lsn := 41, st := .logged, prot := true, mask := 1, q := .ring 0 1 }
/-- `liveCmd 1` with one short sector of chunk 3 in the log, its PI right. -/
def liveRead : State := { liveCmd 1 with wlg.frames := [{ frame3 with data := [[5]], pi := [buildPi (crc64 [5]) 2 24] }] }
/-- A job of chunk 3 of volume 1. -/
def job3 (st : JobStage) : Job := { Job.reset with volume := 1, tenant := 2, chunk := 3, lsn := 41, stage := st, frames := [(41, 0)] }
/-- `liveCmd 1` with one job of chunk 3. -/
def liveJob (f : Job → Job) (st : JobStage) : State := { liveCmd 1 with wlg.jobs := [f (job3 st)], wlg.frames := [frame3] }
/-- A seed space of tenant 2. -/
def space2 : SeedSpace := { SeedSpace.reset with tenant := 2, b := 3 }
/-- Port 3 of `live` changed; the image enables every port and module 3 is present. -/
def livePort (f : Med1 → Med1) : State :=
  { live with img.media.portEn := BitVec.allOnes 48, med.ports := live.med.ports.modify 3 fun m => f { m with present := true, pg := true } }
/-- A module information page. -/
def page1 : List (BitVec 8) :=
  let b := leBytes 4 0x4F464E49 ++ leBytes 2 1 ++ leBytes 2 4 ++ leBytes 8 77 ++ List.replicate 20 0 ++ leBytes 1 4 ++ leBytes 1 4 ++
    leBytes 2 65 ++ leBytes 4 16 ++ leBytes 2 18432 ++ leBytes 1 4 ++ leBytes 1 50 ++ leBytes 1 3 ++ leBytes 1 3 ++ List.replicate 206 0 ++ List.replicate 252 255
  b ++ leBytes 4 (crc32c b).toNat
/-- A module information page of a geometry that is not used. -/
def page2 : List (BitVec 8) :=
  let b := page1.take 38 ++ leBytes 2 64 ++ (page1.take 508).drop 40
  b ++ leBytes 4 (crc32c b).toNat
/-- Block 5 of die 0, plane 0 of module 3. -/
def blk5 : Ledger := { Ledger.reset with slot := 3, die := 0, plane := 0, block := 5, erases := 9 }
/-- `live` with module 3 in service, die 0 held, and a ledger of its blocks. -/
def liveMod (l : List Ledger) : State :=
  { livePort (fun m => { m with st := .active, held := 1, info := page1 }) with
    mmg.ledger := l, ecp.slots := live.ecp.slots.modify 3 fun x => { x with st := .member, serial := 77 } }
/-- A stripe of 4 and 2 members. -/
def stripe9 : Stripe :=
  { Stripe.reset with serial := 9, base := 40960, k := 4, m := 2,
                      members := (List.range 6).map fun i => { Member.reset with slot := i, block := 5 } }
/-- `live` with the link of the heads ACTIVE, the peer UP and READY, and no key of the array. -/
def livePair (f : Xhl → Xhl) : State :=
  { live with xhl := f { live.xhl with link := 2, peer := .up, peerMode := 1, identSeen := true, peerHead := true, owned := [2, 4] } }
/-- A heartbeat of a READY peer. -/
def beat9 (mode : Nat) : Beat := { head := true, mode := mode, ready := 0xFFFF, count := 9, applied := [3, 3, 3, 3, 3], ports := 4, held := 0 }
/-- A key message without a wrapped key. -/
def pairMsg1 : PairMsg := { serial := 12, idKey := [1, 2], value := [3], sig := [4], wrapped := none }
/-- A pair is its two parts. -/
theorem pair_eta {α β : Type} (p : α × β) : p = (p.1, p.2) := rfl
/-- The number that confirms, above two small fields. -/
def confirmWord (n : Nat) : BitVec 32 := BitVec.ofNat 32 (Config.serial.toNat % 65536 * 65536 + n)
theorem serial_high (n : Nat) (h : n < 65536) : fld (confirmWord n) 16 16 = Config.serial.toNat % 65536 := by
  simp only [fld, confirmWord, BitVec.toNat_ofNat]
  omega
theorem serial_low : fld (confirmWord 2) 0 2 = 2 := by
  simp only [fld, confirmWord, BitVec.toNat_ofNat]
  omega
theorem serial_bit : bitOf (confirmWord 1) 0 = true := by
  simp only [bitOf, confirmWord, BitVec.getLsbD, BitVec.toNat_ofNat]
  rw [Nat.testBit_zero, decide_eq_true_eq]
  omega
/-- A chunk of zeros with its PI. -/
def zeroJob (j : Job) : Job := { j with pis := (List.range 8).map fun i => buildPi zeroGuard 2 (24 + i) }
theorem zero_job : isZeroChunk (zeroJob (job3 .fingerprint)) = true := by
  unfold isZeroChunk zeroJob
  generalize zeroGuard = g
  simp only [job3, Job.reset, List.getD]
  simp
  intro x h
  simp [List.getElem?_range h]

/-! ## Worked examples of the spec -/

/-- Source identifiers of the two worked examples of R15. -/
theorem test_source_identifiers : srcId 2 3 17 = 0x4191 ∧ srcId 0 8 5 = 0x0405 := by decide

/-- The CRC-64 of "123456789" (R383). -/
theorem test_crc64 : crc64 [0x31, 0x32, 0x33, 0x34, 0x35, 0x36, 0x37, 0x38, 0x39] = 0xAE8B14860A799888 := by decide +kernel

/-- The CRC-32C of "123456789" (R384). -/
theorem test_crc32c : crc32c [0x31, 0x32, 0x33, 0x34, 0x35, 0x36, 0x37, 0x38, 0x39] = 0xE3069283 := by decide +kernel

/-- The worked example of R605 with the default masks: channel 11, subchannel 1, row 24 855, bank group 5, bank 0, column 0xB0,
rank 1. -/
theorem test_dram_map : dramMap State.reset.drc 2 1 3 0x0123456789C0 =
    { chan := 11, sub := 1, rank := 1, bg := 5, ba := 0, row := 24855, col := 0xB0 } := by decide

/-- The worked example of R313: bucket and tag of a fingerprint in a space with b = 24. -/
theorem test_seed_bucket : seedBucket { space2 with b := 24 } [0x3A, 0x91, 0x5C, 0x07, 0xE2, 0x44, 0x10, 0xB8, 0x6D, 0x02] = 0x5C913A ∧
    seedTag [0x3A, 0x91, 0x5C, 0x07, 0xE2, 0x44, 0x10, 0xB8, 0x6D, 0x02] = 0x026D := by decide

/-- The worked example of the parity strips (chapter 15): 0x0F, 0x55 and 0x73. -/
theorem test_parity : parityByte 0 [1, 2, 4, 8] = 0x0F ∧ parityByte 1 [1, 2, 4, 8] = 0x55 ∧ parityByte 2 [1, 2, 4, 8] = 0x73 := by
  decide

/-- The worked example of the dictionary coder (R376, R377): ABABABA, both ways. -/
theorem test_dictionary : dictEncode [0x41, 0x42, 0x41, 0x42, 0x41, 0x42, 0x41] =
      [1, 16, 0, 0, 7, 0, 0, 0, 0x41, 0x84, 0x08, 0x24, 0x18, 0x10] ∧
    dictDecode [1, 12, 0, 0, 7, 0, 0, 0, 0x41, 0x84, 0x08, 0x24, 0x18, 0x10] =
      some [0x41, 0x42, 0x41, 0x42, 0x41, 0x42, 0x41] := by decide +kernel

/-- The worked example of the Kernel coder: the phase of chunk 5, and residues of samples 0 to 3 (R358, R361). -/
theorem test_residues : rasterPhase 7200 0 5 = 5440 ∧ mapResidue Raster.plain 100 128 = 55 ∧ mapResidue Raster.plain 102 100 = 4 ∧
    mapResidue Raster.plain 101 102 = 1 ∧ mapResidue Raster.plain 101 101 = 0 := by decide

/-- No word spells a command: the table gives no row any bits. -/
theorem test_no_words (nbits w : Nat) : decodeTableWord nbits w = none := rfl

/-- A step takes the oldest command first. -/
theorem test_first_in_first_out :
    step { live with pending := [.armFwd, .psCtlWrite 1] } = exec .armFwd { live with pending := [.psCtlWrite 1] } := rfl

/-! ## The objects of a waypoint -/

/-- The root is a level-0 page for one page, else an index page of the smallest level n with 511^n at least the count (R490). -/
theorem test_treeDepth : treeDepth 1 = 0 ∧ treeDepth 2 = 1 ∧ treeDepth 511 = 1 ∧ treeDepth 512 = 2 ∧ treeDepth 261121 = 2 ∧
    treeDepth 261122 = 3 := by decide

/-- Index page 1 of level 2: its level, and the children 511 and 513 at entries 0 and 2 (R485, R490). -/
theorem test_indexPage :
    leAt (indexPage 2 1 [(511, 77), (513, 99)]) 0 1 = 2 ∧ leAt (indexPage 2 1 [(511, 77), (513, 99)]) 8 8 = 77 ∧
    leAt (indexPage 2 1 [(511, 77), (513, 99)]) 16 8 = 0 ∧ leAt (indexPage 2 1 [(511, 77), (513, 99)]) 24 8 = 99 := by decide +kernel

/-- The record of cut 5 of link 3, frozen: SNAP is 0x8000 + 2 x 3 + 1 (R491). -/
theorem test_versionRecord :
    let b := versionBytes (9, snapCode { Snapshot.reset with num := cutNum 3 5, link := some 3 }, 3, 77, -1, []) 2 0x1234 6
    leAt b 0 2 = 9 ∧ leAt b 2 2 = 0x8007 ∧ leAt b 4 1 = 3 ∧ leAt b 5 1 = 2 ∧ leAt b 8 8 = 77 ∧ leAt b 16 8 = 2 ^ 64 - 1 ∧
      leAt b 24 8 = 0x1234 ∧ leAt b 32 8 = 6 ∧ b.length = 64 := by decide +kernel

/-- Slot 3 of bucket 18 is record 67 of seed page 1 (R321). -/
theorem test_seedPage :
    (seedPages { space2 with slots := [{ SeedSlot.reset with bucket := 18, slot := 3, fp := [7], location := 88, count := 5 }] }).map
      (fun p => (p.1, leAt p.2 2144 1, leAt p.2 2160 8, leAt p.2 2168 4, leAt p.2 0 1)) = [(1, 7, 88, 5, 0)] := by decide +kernel

/-- The maintenance page of a reshape of volumes 3 to 5 to K = 9 that has come to volume 4 (R500). -/
theorem test_maintPage :
    let b := maintPage { State.reset with ecp.reshape := 1, ecp.targetK := 9, ecp.rangeFirst := 3, ecp.rangeLast := 5,
                                          ecp.reshapeVolume := 4, ecp.drainMask := 0x21, ecp.patrolDay := 7, ecp.lostChunks := 2 }
    leAt b 0 8 = 0 ∧ leAt b 16 1 = 1 ∧ leAt b 17 1 = 9 ∧ leAt b 20 2 = 3 ∧ leAt b 22 2 = 5 ∧ leAt b 24 2 = 4 ∧ leAt b 32 8 = 0x21 ∧
      leAt b 40 4 = 7 ∧ leAt b 48 4 = 2 := by decide +kernel

/-- A waypoint record of head 1 with SEQ 5 and one descriptor (R485). -/
theorem test_waypointRecord :
    let w := { WaypointState.reset with seq := 5, clean := true, commitLsn := 40, lsnEnd := 41, roots := [(8, 2, 0x1234)] }
    let b := waypointBytes { State.reset with glb.headSel := true } w { slot := 3, die := 1, plane := 2, strip := 4, block := 9 }
    leAt b 0 4 = 0x54505957 ∧ leAt b 4 2 = 1 ∧ leAt b 6 1 = 1 ∧ leAt b 7 1 = 1 ∧ leAt b 8 8 = 2 ^ 63 + 5 ∧ leAt b 32 8 = 40 ∧
      leAt b 40 8 = 41 ∧ leAt b 56 4 = 0x04020103 ∧ leAt b 60 4 = 9 ∧ leAt b 2688 1 = 8 ∧ leAt b 2692 4 = 2 ∧
      leAt b 2696 8 = 0x1234 ∧ leAt b 2704 1 = 0 := by decide +kernel

/-- The copy for an anchor ring has WFLAGS bit 2 (R485). -/
theorem test_anchorCopy : (anchorCopy (List.replicate 16384 1)).getD 7 0 = 5 ∧ (anchorCopy (List.replicate 16384 1)).getD 8 0 = 1 := by
  decide +kernel

/-- A stripe that is not complete keeps its entry out of a waypoint; the pair's LSN page stands behind its map page (R491, R530). -/
theorem test_pairBytes :
    let e : MapEntry := { chunk := 513, method := .kernel, grain := 40960, grains := 3, shared := false, lsn := 9 }
    let p : MapPage := { id := 4, entries := [e], cleared := [(514, 8)] }
    let s (st : StripeState) : State := { State.reset with ecp.stripes := [{ stripe9 with st := st }] }
    leAt (pairBytes (s .complete) p 1) 8 8 = 40960 + 2 * 2 ^ 43 + 2 ^ 51 ∧ leAt (pairBytes (s .complete) p 1) 4104 8 = 9 ∧
      leAt (pairBytes (s .complete) p 1) 4112 8 = 8 ∧ leAt (pairBytes (s .closed) p 1) 8 8 = 0 := by decide +kernel

/-- Valid map entries: RAW of 129 grains, KERNEL of up to 128, ZERO alone; not METHOD 2, not a reserved bit (R489). -/
theorem test_entryWordValid : entryWordValid (77 + 128 * 2 ^ 43) = true ∧ entryWordValid (77 + 127 * 2 ^ 43) = false ∧
    entryWordValid (77 + 127 * 2 ^ 43 + 2 ^ 51) = true ∧ entryWordValid (77 + 128 * 2 ^ 43 + 2 ^ 51) = false ∧
    entryWordValid (3 * 2 ^ 51) = true ∧ entryWordValid (3 * 2 ^ 51 + 2 ^ 53) = false ∧
    entryWordValid (77 + 128 * 2 ^ 43 + 2 ^ 52) = false ∧ entryWordValid (77 + 128 * 2 ^ 43 + 2 ^ 54) = false := by decide

/-- A ledger entry reads back from its bytes (R478). -/
theorem test_ledgerBytes :
    let l : Ledger := { blk5 with st := .suspect, ber := true, workSet := true, retrySet := 3, programTime := 2 ^ 40, age := 77, reads := 5 }
    ledgerOfBytes 3 0 0 5 (ledgerBytes l) = l ∧ (ledgerBytes l).length = 32 := by decide +kernel

/-- A map tree of depth 0 is its one pair; the pages of a tree of depth 1 stand in its root (R490, R491). -/
theorem test_tableOf :
    let pair : ObjPage := { ObjPage.reset with kind := 1, tree := .pairs, num := 4, grain := 96 }
    let root : ObjPage := { ObjPage.reset with kind := 1, tree := .version 9 0, level := 1, data := List.replicate 48 0 ++ leBytes 8 96, grain := 128 }
    tableOf [pair] 9 0 0 96 = [(0, 4)] ∧ tableOf [pair, root] 9 0 1 128 = [(5, 4)] ∧ tableOf [pair, root] 9 0 1 0 = [] := by decide +kernel

/-! ## States of the statements about every step -/

/-- The reset state meets the invariants; its step is a tick of an empty queue. -/
theorem witness_MemoriesStayCanonical : ∃ s t, memoriesWf s = true ∧ step s = .next t :=
  ⟨State.reset, tick State.reset, by decide, rfl⟩

theorem witness_FusesNeverGoBack : ∃ s t, fusesWf s ∧ step s = .next t :=
  ⟨State.reset, tick State.reset, by unfold fusesWf; decide, rfl⟩

theorem witness_CommandsTouchOnlyTheirParts :
    (∃ c s t p, exec c s = .next t ∧ p ∉ mayChange c) ∧ ∃ s t, step s = .next t :=
  ⟨⟨.nop 0, live, live, .glb, rfl, by decide⟩, State.reset, tick State.reset, rfl⟩

theorem witness_StepRunsTheFrontCommand : (∃ c rest s, State.pending s = c :: rest) ∧ ∃ s, State.pending s = [] :=
  ⟨⟨.nop 0, [.armFwd], { live with pending := [.nop 0, .armFwd] }, rfl⟩, State.reset, rfl⟩

theorem witness_ResidueMapping : ∃ (r : Raster) (xs : Array Nat), 0 < r.bits ∧ ∀ j, xs.getD j 0 < 2 ^ r.bits := by
  refine ⟨Raster.plain, #[255, 0], by decide, fun j => ?_⟩
  match j with
  | 0 => decide
  | 1 => decide
  | _ + 2 => simp [Raster.plain]

theorem witness_DramMappingIsOneToOne : ∃ (d : Drc) (a b rb p q : Nat),
    a ≤ 32 ∧ (∀ i, i < a → (d.chMask.getD i 0).toNat % 2 ^ a = 2 ^ i) ∧ dramMap d a b rb p = dramMap d a b rb q ∧ p ≠ q :=
  ⟨Drc.reset, 2, 1, 3, 0x0123456789C0, 0x0123456789FF, by decide, by decide, by decide, by decide⟩

/-! ## Hypotheses that are met -/

/-- States and operands that meet the hypotheses of RegisterAccessesComplete, clause by clause. -/
theorem witness_RegisterAccessesComplete :
    (∃ (s : State) (ep : Nat) (off : Nat) (k : WideKind) (v : BitVec 64), epServes s ep = true ∧ memOn s ep = true ∧
      bar0Served s ep off 4 = true ∧ wideReg s ep off = some (k, v)) ∧
    (∃ (s : State) (ep : Nat) (low : Nat) (k : WideKind) (v : BitVec 64) (w : BitVec 32), epServes s ep = true ∧ memOn s ep =
      true ∧ bar0Served s ep (low + 4) 4 = true ∧ writeTaken s (low + 4) = true ∧ wideReg s ep (low + 4) = none ∧ wideReg s ep
      low = some (k, v) ∧ k ≠ .ro ∧ low < 0x1000000 ∧ low ≠ 0x50000 ∧ low ≠ 0x50008) ∧
    (∃ (s : State) (ep : Nat) (w : BitVec 32), epServes s ep = true ∧ memOn s ep = true ∧ writeTaken s 0x70000 = true) ∧
    (∃ (s : State) (ep : Nat), epServes s ep = true ∧ memOn s ep = true) ∧
    (∃ (s : State) (ep : Nat) (w : BitVec 32), epServes s ep = true ∧ memOn s ep = true ∧ writeTaken s 0x100004 = true) ∧
    (∃ (s : State) (ep : Nat) (bar : Nat) (off : Nat) (size : Nat) (enabled : Bool) (data : Option (BitVec 64)), epServes s ep
      = true ∧ memOn s ep = true ∧ ep < s.eps.length ∧ (enabled = false ∨ (if bar = 4 then bar4Served off size else bar0Served
      s ep off size) = false)) :=
  ⟨⟨{ live with rma.regBase := 0x1111111122222222 }, 0, 0x70000, .rw, 0x1111111122222222, by decide⟩,
    ⟨live, 0, 0x70000, .rw, 0, 7, by decide⟩,
    ⟨{ live with hostStage := [(0, 0x70000, 5)] }, 0, 7, by decide⟩,
    ⟨{ live with xhl.crcErrs := 3, xhl.replays := 2 }, 0, by decide⟩,
    ⟨{ live with flt.alert := 0x3FFFF }, 0, 0xFF, by decide⟩,
    ⟨live, 0, 0, 2, 2, true, none, by decide⟩⟩

/-- States and operands that meet the hypotheses of WindowAccessesComplete, clause by clause. -/
theorem witness_WindowAccessesComplete :
    (∃ (s : State) (ep : Nat) (off : Nat) (len : Nat) (bs : List (BitVec 8)) (stays : Bool) (x : Window), epInUse s ep = true
      ∧ (epOf s ep).linkUp = true ∧ (epOf s ep).mse = true ∧ (epOf s ep).d3 = false ∧ windowFor s ep off len true = some x ∧
      x.space = 0) ∧
    (∃ (s : State) (ep : Nat) (off : Nat) (len : Nat) (x : Window), epInUse s ep = true ∧ (epOf s ep).linkUp = true ∧ (epOf s
      ep).mse = true ∧ (epOf s ep).d3 = false ∧ windowFor s ep off len false = some x) ∧
    (∃ (s : State) (ep : Nat) (off : Nat) (len : Nat) (data : Option (List (BitVec 8))) (stays : Bool), epInUse s ep = true ∧
      (epOf s ep).linkUp = true ∧ (epOf s ep).mse = true ∧ (epOf s ep).d3 = false ∧ (epOf s ep).urSeen = false ∧ ep <
      s.eps.length ∧ windowFor s ep off len data.isSome = none) ∧
    (∃ (s : State) (ep : Nat) (i : Nat) (v : BitVec 64), epServes s ep = true ∧ memOn s ep = true ∧ ep < s.eps.length ∧ i <
      (epOf s ep).msix.length ∧ i < 257) ∧
    (∃ (s : State) (ep : Nat) (i : Nat), epServes s ep = true ∧ memOn s ep = true ∧ i < 257) :=
  ⟨⟨liveEp (fun e => { e with windows := [{ Window.reset with valid := true, wr := true, sizeLog2 := 12, tgt := 0x1000 }] }),
      0, 8, 2, [1, 2, 3], false, { Window.reset with valid := true, wr := true, sizeLog2 := 12, tgt := 0x1000 }, by decide⟩,
   
      ⟨{ (liveEp fun e => { e with windows := [{ Window.reset with valid := true, rd := true, sizeLog2 := 12, tgt := 0x1000 }] }) with lz := [(0x1008, 9)] },
      0, 8, 2, { Window.reset with valid := true, rd := true, sizeLog2 := 12, tgt := 0x1000 }, by decide⟩,
    ⟨live, 0, 64, 4, none, false, by decide⟩,
    ⟨live, 0, 256, 77, by decide⟩,
    ⟨liveEp (fun e => { e with msix := e.msix.modify 256 fun m => { m with data := 5 } }), 0, 256, by decide⟩⟩

/-- States and operands that meet the hypotheses of EndpointResetsComplete, clause by clause. -/
theorem witness_EndpointResetsComplete :
    (∃ (s : State), s.glb.held = false) ∧
    (∃ (s : State), s.glb.held = false) ∧
    (∃ (s : State) (ep : Nat) (unacked : Nat), epInUse s ep = true ∧ (epOf s ep).linkUp = true ∧ ep < s.eps.length) ∧
    (∃ (s : State) (ep : Nat) (unacked : Nat), epInUse s ep = true ∧ (epOf s ep).linkUp = true ∧ ep < s.eps.length) ∧
    (∃ (s : State) (ep : Nat) (speed : Nat) (width : Nat) (flit : Bool), epInUse s ep = true ∧ s.glb.hostEp = true ∧ (epOf s
      ep).inReset = false ∧ (epOf s ep).linkUp = false ∧ ctlState s (epSrc ep) = .run ∧ linkForm s speed width flit = true ∧
      ep < s.eps.length) :=
  ⟨⟨{ live with dcq.queues := [ring1], hostStage := [(0, 0, 0)] }, by decide⟩,
    ⟨live, by decide⟩,
    ⟨{ live with dcq.queues := [ring1] }, 0, 0, by decide⟩,
    ⟨liveEp (fun e => { e with linkDowns := 65535, reads := [{ HostRead.reset with q := .ring 0 1, kind := 2, len := 64 }] }),
      0, 0, by decide⟩,
    ⟨liveEp (fun e => { e with linkUp := false }), 0, 6, 16, true, by decide⟩⟩

/-- States and operands that meet the hypotheses of EndpointEnablesComplete, clause by clause. -/
theorem witness_EndpointEnablesComplete :
    (∃ (s : State) (ep : Nat), epInUse s ep = true ∧ (epOf s ep).linkUp = true ∧ ep < s.eps.length) ∧
    (∃ (s : State) (ep : Nat), epInUse s ep = true ∧ (epOf s ep).linkUp = true ∧ ep < s.eps.length) ∧
    (∃ (s : State) (ep : Nat) (writes : List (Nat × BitVec 32)), epInUse s ep = true ∧ (epOf s ep).linkUp = true ∧ ep <
      s.eps.length) ∧
    (∃ (s : State) (ep : Nat) (writes : List (Nat × BitVec 32)), epInUse s ep = true ∧ (epOf s ep).linkUp = true ∧ ep <
      s.eps.length) ∧
    (∃ (s : State) (ep : Nat) (i : Nat) (w : BitVec 32), epServes s ep = true ∧ memOn s ep = true ∧ hostWriteOk s 0x04 = true
      ∧ ep < s.eps.length ∧ i < localWindows s ∧ i < (epOf s ep).windows.length ∧ winRefused s w (((epOf s ep).windows.getD i
      Window.reset).reg).toNat = false) ∧
    (∃ (s : State) (ep : Nat) (i : Nat) (w : BitVec 32), epServes s ep = true ∧ memOn s ep = true ∧ hostWriteOk s 0x04 = true
      ∧ ep < s.eps.length ∧ i < localWindows s ∧ winRefused s w (((epOf s ep).windows.getD i Window.reset).reg).toNat = true)
      ∧
    (∃ (s : State) (ep : Nat) (v : Nat), epInUse s ep = true ∧ (epOf s ep).linkUp = true ∧ ep < s.eps.length ∧ v < (epOf s
      ep).msix.length) :=
  ⟨⟨{ live with dcq.queues := [ring1] }, 0, by decide⟩,
    ⟨liveEp (fun e => { e with d3 := true }), 0, by decide⟩,
    ⟨{ live with dcq.queues := [ring1] }, 0, [(4, 2)], by decide⟩,
    ⟨liveEp (fun e => { e with bme := false }), 0, [(0x10, 0xFE000000), (4, 0x102)], by decide⟩,
    ⟨live, 0, 63, 0x10C07, by decide⟩,
    ⟨live, 0, 0, 0x00507, by decide⟩,
    ⟨liveEp (fun e => { e with msix := e.msix.map fun m => { m with ctl := 1 } }), 0, 256, by decide⟩⟩

/-- States and operands that meet the hypotheses of CivilTimeIsSet, clause by clause. -/
theorem witness_CivilTimeIsSet :
    (∃ (s : State) (ep : Nat) (lo : BitVec 32), epServes s ep = true ∧ memOn s ep = true ∧ hostWriteOk s 0x02 = true ∧
      ((join64 (stagedHi s ep 0x20020 0) lo).toInt - civilNow s ≤ 1000000000 ∨ s.lds.armFwd = true)) ∧
    (∃ (s : State) (ep : Nat) (lo : BitVec 32), epServes s ep = true ∧ memOn s ep = true ∧ hostWriteOk s 0x02 = true ∧
      1000000000 < (join64 (stagedHi s ep 0x20020 0) lo).toInt - civilNow s ∧ s.lds.armFwd = false) ∧
    (∃ (s : State), hostWriteOk s 0x02 = true) ∧
    (∃ (s : State), s.glb.held = false ∧ s.lds.armAt + 10000000000 ≤ now s) :=
  ⟨⟨{ live with lds.armFwd := true, lds.stepHeld := true, lds.highWater := some 5, hostStage := [(0, 0x20020, 0x1000)] }, 0,
      5, by decide⟩,
    ⟨{ live with hostStage := [(0, 0x20020, 0x1000)] }, 0, 5, by decide⟩,
    ⟨live, by decide⟩,
    ⟨{ live with lds.armFwd := true, lds.armAt := 5, lds.deviceTime := 10000000005 }, by decide⟩⟩

/-- States and operands that meet the hypotheses of TimeReferencesLock, clause by clause. -/
theorem witness_TimeReferencesLock :
    (∃ (s : State) (sub : Nat) (masters : List PtpAnnounce) (x : PtpExchange) (adj : Int), alive s = true ∧ ptpOurs s sub x =
      true ∧ (∀ b ∈ bestMaster masters, b.sender = x.sender ∧ s.lds.grandmaster = some b.gm) ∧ s.lds.ptpLocked = false ∧ 15 ≤
      s.lds.ptpRun ∧ x.utcValid = true ∧ (ptpOffset x).natAbs ≤ 100000) ∧
    (∃ (s : State), alive s = true ∧ s.lds.lastSync + 4000000000 ≤ now s ∧ s.lds.ppsLocked = false) ∧
    (∃ (s : State) (due : Int) (came : Int) (adj : Int), alive s = true ∧ s.img.board.ppsInEn = true ∧ s.lds.civilValid = true
      ∧ (due + 10 * s.lds.inDelay - came).natAbs ≤ 100000 ∧ s.lds.ppsLocked = false ∧ 15 ≤ s.lds.ppsRun) ∧
    (∃ (s : State) (due : Int) (came : Int) (adj : Int), alive s = true ∧ s.img.board.ppsInEn = true ∧ (s.lds.civilValid =
      false ∨ 100000000000 < (due + 10 * s.lds.inDelay - came).natAbs) ∧ s.lds.ppsMissing < 2) ∧
    (∃ (s : State) (due : Int) (came : Int) (adj : Int), alive s = true ∧ s.img.board.ppsInEn = true ∧ (s.lds.civilValid =
      false ∨ 100000000000 < (due + 10 * s.lds.inDelay - came).natAbs) ∧ 2 ≤ s.lds.ppsMissing) ∧
    (∃ (s : State), alive s = true ∧ s.lds.ppsGoodAt + 3000000000 ≤ now s ∧ s.lds.ptpLocked = false) ∧
    (∃ (s : State), alive s = true ∧ s.lds.ppsOutEn = true ∧ s.lds.civilValid = true ∧ atSecond s = true) ∧
    (∃ (s : State) (start : Bool) (positive : Bool), alive s = true ∧ s.lds.leapActive ≠ start) :=
 
      ⟨⟨{ live with lds.ptpRun := 15, img.time.refOrder := [1, 2, 3], img.time.ptpTransport := 1, net.ports := live.net.ports.modify 0 fun p => { p with linkUp := 1 } },
      4 * live.img.time.ptpPort, [],
      { domain := live.img.time.ptpDomain, transport := 0, sender := 9, origin := 37 * 10 ^ 12 + 900, followUp := some (37 * 10 ^ 12 - 99000), t2 := 0, t3 := 0, t4 := 37 * 10 ^ 12 - 99000, utcOffset := 37, utcValid := true },
      1, by decide⟩,
   
      ⟨{ live with lds.ptpRun := 15, img.time.refOrder := [1, 2, 3], lds.ptpLocked := true, lds.ownState := .lockedPtp, lds.deviceTime := 4000000077, lds.lastSync := 77 },
      by decide⟩,
   
      ⟨{ live with img.board.ppsInEn := true, lds.civilValid := true, lds.ppsRun := 15, img.time.refOrder := [2, 1, 3], lds.inDelay := 5 },
      7 * 10 ^ 12, 7 * 10 ^ 12 + 100050, 1, by decide⟩,
    ⟨{ live with img.board.ppsInEn := true, lds.ppsRun := 15, lds.ppsMissing := 1 }, 7 * 10 ^ 12, 7 * 10 ^ 12 + 100, 1, by
      decide⟩,
   
      ⟨{ live with img.board.ppsInEn := true, lds.civilValid := true, lds.ppsLocked := true, lds.ppsRun := 15, lds.ppsMissing := 2 },
      7 * 10 ^ 12, 7 * 10 ^ 12 + 100000000001, 1, by decide⟩,
   
      ⟨{ live with lds.ppsRun := 15, img.time.refOrder := [1, 2, 3], lds.ppsLocked := true, lds.ownState := .lockedPps, lds.deviceTime := 3000000000 },
      by decide⟩,
    ⟨{ live with lds.ppsOutEn := true, lds.civilValid := true }, by decide⟩,
    ⟨live, true, true, by decide⟩⟩

/-- States and operands that meet the hypotheses of PairTimeAgrees, clause by clause. -/
theorem witness_PairTimeAgrees :
    (∃ (s : State), alive s = true ∧ s.xhl.link = 2 ∧ s.lds.timeSentAt + 1000000 ≤ now s) ∧
    (∃ (s : State) (m : TimeMsg), alive s = true) ∧
    (∃ (s : State) (m : TimeMsg) (v : Int) (a : Bool), alive s = true ∧ m.civilSet = some (v, a)) ∧
    (∃ (s : State) (m : TimeMsg), alive s = true ∧ (pairCivilPs s m).natAbs ≤ 5000 ∧ 63 ≤ s.lds.pairRun) ∧
    (∃ (s : State) (m : TimeMsg), alive s = true ∧ 20000 < (pairCivilPs s m).natAbs ∧ 9 ≤ s.lds.pairBad) :=
  ⟨⟨{ live with xhl.link := 2, lds.deviceTime := 1000000 }, by decide⟩,
    ⟨{ live with lds.highWater := some 88 },
      { ref := .lockedPtp, holdover := 3, highWater := some 99, civilValid := true, civilOffset := 7, t1 := 10, t2 := 20, t3 := 30, t4 := 5000, adj := 4, civilSet := none },
      by decide⟩,
    ⟨live,
      { ref := .lockedPtp, holdover := 3, highWater := some 99, civilValid := true, civilOffset := 7, t1 := 10, t2 := 20, t3 := 30, t4 := 5000, adj := 4, civilSet := some (1234567890123, true) },
      1234567890123, true, by decide⟩,
    ⟨{ live with lds.pairRun := 63, lds.pairBad := 9 },
      { ref := .lockedPtp, holdover := 3, highWater := some 99, civilValid := true, civilOffset := 2, t1 := 10, t2 := 20, t3 := 30, t4 := 5000, adj := 4, civilSet := none },
      by decide⟩,
    ⟨{ live with lds.pairRun := 63, lds.pairBad := 9, lds.pairLocked := true },
      { ref := .lockedPtp, holdover := 3, highWater := some 99, civilValid := true, civilOffset := -40, t1 := 10, t2 := 20, t3 := 30, t4 := 5000, adj := 4, civilSet := none },
      by decide⟩⟩

/-- States and operands that meet the hypotheses of PeriodsAndLocksEnd, clause by clause. -/
theorem witness_PeriodsAndLocksEnd :
    (∃ (s : State), alive s = true) ∧
    (∃ (s : State) (shares : List PeriodShare) (x : Tenant) (p : Period), alive s = true ∧ peerUp s = true ∧ s.lds.tenants =
      [x] ∧ x.open_ = some p ∧ p.skipped = false ∧ p.fin ≤ highWater s ∧ (∀ q ∈ periodAt (defOf s x) p.fin, highWater s <
      q.2)) ∧
    (∃ (s : State) (w : BitVec 32), hostWriteOk s 0x02 = true ∧ ((fld w 0 2 = 1 ∧ 60 ≤ fld w 2 30 ∧ fld w 2 30 ≤ 527040) ∨
      ((fld w 0 2 = 0 ∨ fld w 0 2 = 2) ∧ fld w 2 30 = 0))) ∧
    (∃ (s : State) (w : BitVec 32), hostWriteOk s 0x02 = true ∧ (fld w 0 2 = 3 ∨ (fld w 0 2 = 1 ∧ (fld w 2 30 < 60 ∨ 527040 <
      fld w 2 30)) ∨ ((fld w 0 2 = 0 ∨ fld w 0 2 = 2) ∧ fld w 2 30 ≠ 0))) :=
 
      ⟨⟨{ live with lds.highWater := some 100, red.volumes := [{ Volume.reset with num := 1, locks := [⟨0, 1, 100, 5⟩, ⟨0, 1, 101, 5⟩] }, { Volume.reset with num := 1, locks := [⟨0, 1, 90, 5⟩] }, { Volume.reset with num := 2, locks := [⟨0, 1, 190, 5⟩] }] },
      by decide⟩,
   
      ⟨{ live with xhl.peer := .up, lds.highWater := some 3600000000001, lds.tenants := [{ Tenant.reset with id := 7, def_ := some ⟨1, 3600, 0⟩, open_ := some { Period.reset with start := 0, fin := 3600000000000, written := 5 }, carry := { Period.reset with read := 4 } }] },
      [⟨7, 10, 20, 30, 40⟩],
      { Tenant.reset with id := 7, def_ := some ⟨1, 3600, 0⟩, open_ := some { Period.reset with start := 0, fin := 3600000000000, written := 5 }, carry := { Period.reset with read := 4 } },
      { Period.reset with start := 0, fin := 3600000000000, written := 5 }, by decide⟩,
    ⟨live, 0xF1, by decide⟩,
    ⟨live, 3, by decide⟩⟩

/-- States and operands that meet the hypotheses of AlmanacRecordsAreKeptAndCleared, clause by clause. -/
theorem witness_AlmanacRecordsAreKeptAndCleared :
    (∃ (s : State) (q : BitVec 32) (r : AlmRecord), s.glb.held = false ∧ s.alm.loaded = true ∧ (liveRecords s).find? (fun r =>
      decide (r.seq = q) && r.isOpen) = some r ∧ r.severity ≠ 0 ∧ r.time + 1000000000 ≤ now s) ∧
    (∃ (s : State) (r : AlmRecord) (rest : List AlmRecord), s.glb.held = false ∧ s.alm.clearing = false ∧ s.alm.norWait = r ::
      rest ∧ (∀ x ∈ liveRecords s, x.isOpen = true → seqReached r.seq x.seq = false)) ∧
    (∃ (s : State), s.glb.held = false ∧ s.alm.loaded = true ∧ s.alm.birthRefreshes ≤ birthPeriod s) ∧
    (∃ (s : State) (w : BitVec 32), hostWriteOk s 0x11 = true ∧ bitOf w 0 = true ∧ fld w 16 16 = Config.serial.toNat % 65536 ∧
      s.glb.mode = .maintenance ∧ lifeCycle s ≠ .decommissioned ∧ s.alm.clearing = false ∧ s.alm.loaded = true) ∧
    (∃ (s : State) (w : BitVec 32), hostWriteOk s 0x11 = true ∧ (bitOf w 0 = false ∨ fld w 16 16 ≠ Config.serial.toNat % 65536
      ∨ s.glb.mode ≠ .maintenance ∨ lifeCycle s = .decommissioned ∨ s.alm.clearing = true)) ∧
    (∃ (s : State), s.glb.held = false ∧ s.alm.clearing = true) :=
 
      ⟨⟨{ live with lds.deviceTime := 1000000000, alm.wake := [rec1 1 4 false, { rec1 2 5 true with severity := 2 }], alm.birth := [{ rec1 2 5 true with severity := 2 }] },
      5, { rec1 2 5 true with severity := 2 }, by decide⟩,
    ⟨{ live with alm.norWait := [rec1 1 4 false, rec1 2 5 false], alm.ringPos := 134315 }, rec1 1 4 false, [rec1 2 5 false],
      by decide⟩,
    ⟨{ live with alm.birthPos := [9, 9] }, by decide⟩,
    ⟨{ liveMaint with alm.wake := [rec1 1 4 true, rec1 2 5 true], alm.nextSeq := 6 }, confirmWord 1, by decide, serial_bit,
      serial_high 1 (by decide), by decide, by decide, by decide, by decide⟩,
    ⟨liveMaint, 0, by decide⟩,
    ⟨{ live with alm.clearing := true, alm.clearAt := 80, nor := [(0x06D50000, 1), (0x06D60000, 2)] }, by decide⟩⟩

/-- States and operands that meet the hypotheses of AlmanacWindowShowsTheRecord, clause by clause. -/
theorem witness_AlmanacWindowShowsTheRecord :
    (∃ (s : State) (w : BitVec 32), hostWriteOk s 0x11 = true ∧ fld w 0 2 ≠ 3) ∧
    (∃ (s : State) (w : BitVec 32), hostWriteOk s 0x11 = true ∧ fld w 0 2 = 3) ∧
    (∃ (s : State) (w : BitVec 32), hostWriteOk s 0x11 = true) ∧
    (∃ (s : State), s.glb.held = false ∧ s.glb.hostEp = true ∧ s.alm.winState &&& 5 ≠ 0) ∧
    (∃ (s : State), s.glb.held = false ∧ s.glb.hostEp = true ∧ s.alm.winState &&& 5 = 0) :=
  ⟨⟨{ live with alm.wake := [rec1 1 4 false], alm.cursor := 4, alm.nextSeq := 5 }, 1, by decide⟩,
    ⟨live, 7, by decide⟩,
    ⟨{ live with alm.wake := [rec1 1 4 false], alm.region := 1, alm.nextSeq := 5 }, 4, by decide⟩,
    ⟨{ live with alm.wake := [rec1 1 4 false], alm.region := 1, alm.nextSeq := 5, alm.cursor := 3, alm.winState := 4 }, by
      decide⟩,
    ⟨{ live with alm.region := 1, alm.winState := 8 }, by decide⟩⟩

/-- States and operands that meet the hypotheses of DramErrorsAreHandled, clause by clause. -/
theorem witness_DramErrorsAreHandled :
    (∃ (s : State) (c : Nat) (burst : List (List (BitVec 16))) (r : DramReader) (written : Bool) (dev : Nat), alive s = true ∧
      c < s.drc.chans.length ∧ (chanOf s c).erasure = none ∧ burstFinding none burst = .corrected dev) ∧
    (∃ (s : State) (c : Nat) (burst : List (List (BitVec 16))) (r : DramReader) (written : Bool), alive s = true ∧
      burstFinding (chanOf s c).erasure burst = .clean) ∧
    (∃ (s : State) (c : Nat) (burst : List (List (BitVec 16))) (r : DramReader), alive s = true ∧ c < s.drc.chans.length ∧
      burstFinding (chanOf s c).erasure burst = .uncorrectable) ∧
    (∃ (s : State) (c : Nat) (burst : List (List (BitVec 16))) (written : Bool) (dev : Nat), alive s = true ∧ c <
      s.drc.chans.length ∧ (chanOf s c).erasure = none ∧ burstFinding none burst = .corrected dev) ∧
    (∃ (s : State) (c : Nat) (burst : List (List (BitVec 16))) (written : Bool), alive s = true ∧ burstFinding (chanOf s
      c).erasure burst = .clean) ∧
    (∃ (s : State) (c : Nat) (again : Bool), alive s = true ∧ (again = false ∨ (chanOf s c).caReplays < 3)) ∧
    (∃ (s : State) (c : Nat), alive s = true ∧ c < s.drc.chans.length ∧ 3 ≤ (chanOf s c).caReplays) :=
  ⟨⟨liveChan fun x => { x with corrections := (List.range 15).map fun _ => (0, 0) }, 0, [[9], [], [], [4]], .scrub, false, 0,
      by decide⟩,
    ⟨live, 0, [], .scrub, false, by decide⟩,
    ⟨live, 11, [[9], [0, 9], [], []], .table false, by decide⟩,
    ⟨live, 0, [[9], [], [], []], true, 0, by decide⟩,
    ⟨live, 0, [], false, by decide⟩,
    ⟨live, 0, true, by decide⟩,
    ⟨liveChan fun x => { x with caReplays := 3 }, 0, by decide⟩⟩

/-- States and operands that meet the hypotheses of DramUpkeepRuns, clause by clause. -/
theorem witness_DramUpkeepRuns :
    (∃ (s : State) (c : Nat) (bank : Nat), s.glb.held = false ∧ c < s.drc.chans.length ∧ (∀ r ∈ (chanOf s c).refAt, r.1 = bank
      → r.2 + refInterval (chanOf s c) ≤ now s)) ∧
    (∃ (s : State) (c : Nat) (bank : Nat), s.glb.held = false ∧ c < s.drc.chans.length ∧ (∀ r ∈ (chanOf s c).refAt, r.1 = bank
      → r.2 + refInterval (chanOf s c) ≤ now s)) ∧
    (∃ (s : State) (c : Nat) (bank : Nat) (left : Nat), alive s = true ∧ c < s.drc.chans.length ∧ (chanOf s c).rfm = true) ∧
    (∃ (s : State) (a : DramAsk) (c : Nat) (x : DramPlace), alive s = true ∧ placeOf s a.pa = some (c, x) ∧ c <
      s.drc.chans.length ∧ c < 12 ∧ (chanOf s c).reqs = [] ∧ (chanOf s c).retrain = false ∧ (chanOf s c).rhThrottles = []) ∧
    (∃ (s : State) (a : DramAsk) (c : Nat) (k : Nat) (x : DramPlace), alive s = true ∧ placeOf s a.pa = some (c, x) ∧ c <
      s.drc.chans.length ∧ c < 12 ∧ (chanOf s c).reqs = [] ∧ (chanOf s c).retrain = false ∧ (chanOf s c).rhThrottles = [] ∧
      (chanOf s c).openRows = [] ∧ (chanOf s c).windows = [(bankOf x, rhWindow s)] ∧ (chanOf s c).rows =
      [{ RowCount.reset with bank := bankOf x, row := x.row, req := [(a.src, k)] }] ∧ s.drc.rhThreshold ≤ k + 1) ∧
    (∃ (s : State) (c : Nat) (bank : Nat), alive s = true ∧ (chanOf s c).reqs = [] ∧ (chanOf s c).windows.contains (bank,
      rhWindow s) = false) ∧
    (∃ (s : State) (c : Nat) (bank : Nat), alive s = true ∧ ((chanOf s c).openRows.any fun o => decide (o.bank = bank) &&
      decide (o.last + o.limit ≤ now s)) = true) ∧
    (∃ (s : State) (c : Nat) (deg : Int), alive s = true ∧ c < s.drc.chans.length) ∧
    (∃ (s : State) (c : Nat) (lanes : List (BitVec 32)), alive s = true ∧ c < s.drc.chans.length ∧ (chanOf s c).retrain = true
      ∧ (∀ d ∈ List.range c, (chanOf s d).retrain = false)) ∧
    (∃ (s : State) (c : Nat) (drift : Nat) (lanes : List (BitVec 32)), alive s = true ∧ 4 < drift) ∧
    (∃ (s : State) (w : BitVec 32), hostWriteOk s 0x0E = true) :=
  ⟨⟨liveChan fun x => { x with postponed := 3 }, 0, 5, by decide⟩,
    ⟨liveChan fun x => { x with postponed := 3 }, 0, 5, by decide⟩,
    ⟨liveChan fun x => { x with rfm := true, rolling := [(5, 1), (6, 1)] }, 0, 5, 3, by decide⟩,
    ⟨{ live with drc.pop := 1 }, { pa := 0, src := 77, keepOpen := true }, 0, ⟨0, 0, 0, 0, 0, 0, 0⟩, by decide⟩,
   
      ⟨{ (liveChan fun x => { x with windows := [(0, 0)], rows := [{ RowCount.reset with req := [(77, 32767)] }] }) with drc.pop := 1 },
      { pa := 0, src := 77, keepOpen := true }, 0, 32767, ⟨0, 0, 0, 0, 0, 0, 0⟩, by decide⟩,
   
      ⟨{ (liveChan fun x => { x with windows := [(5, 0)], rows := [{ RowCount.reset with bank := 5, row := 1 }] }) with lds.deviceTime := 32000000 },
      0, 5, by decide⟩,
    ⟨liveChan fun x =>
      { x with openRows := [{ bank := 5, row := 1, last := 0, limit := 0 }, { bank := 6, row := 1, last := 0, limit := 0 }] },
      0, 5, by decide⟩,
    ⟨{ (liveChan fun x => { x with hotSince := some 0 }) with lds.deviceTime := 1000000000 }, 0, 1601, by decide⟩,
    ⟨{ live with drc.chans := live.drc.chans.modify 2 fun x => { x with retrain := true, sets := [] } }, 2, [1, 2], by
      decide⟩,
    ⟨liveChan fun x => { x with sets := [⟨0, [1]⟩] }, 0, 5, [9], by decide⟩,
    ⟨liveChan fun x => { x with sets := [⟨0, [1, 7]⟩] }, 0xFFFF0040, by decide⟩⟩

/-- States and operands that meet the hypotheses of FeedsAndTheFlush, clause by clause. -/
theorem witness_FeedsAndTheFlush :
    (∃ (s : State) (r : FeedReading), powered s = true) ∧
    (∃ (s : State) (r : FeedReading), powered s = true ∧ s.pwr.window = none ∧ s.pwr.flushActive = false ∧ s.pwr.stepEight =
      false ∧ s.pwr.feedA.supplying = false ∧ (nextFeed s.pwr.feedB (feedNominal s 1).2.1 (feedNominal s 1).2.2
      s.img.power.rideFloor r).valid = true ∧ (nextFeed s.pwr.feedB (feedNominal s 1).2.1 (feedNominal s 1).2.2
      s.img.power.rideFloor r).supplying = false) ∧
    (∃ (s : State), alive s = true ∧ s.glb.mode ≠ .starting ∧ s.glb.mode ≠ .vault ∧ s.pwr.flushActive = false ∧
      (s.pwr.window.any fun t => decide (t + s.img.power.rideMs * 1000000 ≤ now s)) = true ∧ supplyingNow s = false) ∧
    (∃ (s : State), alive s = true ∧ s.glb.mode ≠ .starting ∧ s.glb.mode ≠ .vault ∧ s.pwr.flushActive = false ∧
      (s.pwr.overAt.any fun t => decide (t + 500000 ≤ now s)) = true) ∧
    (∃ (s : State), alive s = true ∧ s.pwr.flushActive = true ∧ flushed s = true ∧ supplyingNow s = true) ∧
    (∃ (s : State), alive s = true ∧ s.pwr.flushActive = true ∧ flushed s = true ∧ supplyingNow s = false) :=
  ⟨⟨live, { samples := [(100, 100)], tenCycles := 200000, run := 0 }, by decide⟩,
    ⟨{ live with pwr.feedB.valid := true }, { samples := [], tenCycles := 200000, run := 64 }, by decide⟩,
   
      ⟨{ live with pwr.window := some 0, lds.deviceTime := 10 ^ 11, ecp.running := [.gc], wlg.holds := [{ q := .ring 0 1, tag := 3, origin := 0, frames := 1, remote := false, fetchedAt := 0, since := 0 }], dcq.queues := [ring1] },
      by decide⟩,
    ⟨{ live with pwr.overAt := some 0, lds.deviceTime := 500000, pwr.curPs := 1 }, by decide⟩,
    ⟨{ live with pwr.flushActive := true, pwr.feedA.supplying := true }, by decide⟩,
    ⟨{ live with pwr.flushActive := true }, by decide⟩⟩

/-- States and operands that meet the hypotheses of BudgetAndRegulators, clause by clause. -/
theorem witness_BudgetAndRegulators :
    (∃ (s : State) (g : GaugeSample), powered s = true) ∧
    (∃ (s : State) (rate : Nat), alive s = true) ∧
    (∃ (s : State) (d : Nat), alive s = true) ∧
    (∃ (s : State), alive s = true ∧ s.pwr.peerBudgetAt + 5000000 < now s) ∧
    (∃ (s : State) (x : RegRead) (r : Regulator), alive s = true ∧ regAt s x.master x.addr = some r ∧ x.ok = true ∧ x.event =
      .none) ∧
    (∃ (s : State) (x : RegRead) (r : Regulator), alive s = true ∧ regAt s x.master x.addr = some r ∧ x.ok = false) ∧
    (∃ (s : State) (x : RegRead) (r : Regulator), alive s = true ∧ regAt s x.master x.addr = some r ∧ x.ok = true ∧ x.event =
      .overUnderVoltage ∧ (r.rail = 0 ∨ r.rail = 1 ∨ r.rail = 3)) ∧
    (∃ (s : State) (x : RegRead) (r : Regulator), alive s = true ∧ regAt s x.master x.addr = some r ∧ x.ok = true ∧ x.event =
      .none) ∧
    (∃ (s : State) (x : RegRead) (r : Regulator), alive s = true ∧ regAt s x.master x.addr = some r ∧ x.ok = true ∧ x.event =
      .warning ∧ x.status ≠ r.status) :=
  ⟨⟨live, { mv := 40000, ma := -5, charge := some (7000, 800), step := some (9, 3) }, by decide⟩,
    ⟨{ live with pwr.cap := some 1000000, pwr.esr := some 10, pwr.vBank := 50000 }, 100000, by decide⟩,
    ⟨{ live with pwr.ownBudget := 65536 }, 32768, by decide⟩,
    ⟨{ live with pwr.ownBudget := 65536, pwr.peerBudget := some 3, lds.deviceTime := 5000001 }, by decide⟩,
    ⟨{ live with pwr.regs := [{ Regulator.reset with master := 1, addr := 4, fails := 7, lost := true }] }, ⟨1, 4, true, 5,
      .none, 1, 2, 3⟩, { Regulator.reset with master := 1, addr := 4, fails := 7, lost := true }, by decide⟩,
    ⟨{ live with pwr.regs := [{ Regulator.reset with master := 1, addr := 4, fails := 2 }] }, ⟨1, 4, false, 5, .none, 1, 2,
      3⟩, { Regulator.reset with master := 1, addr := 4, fails := 2 }, by decide⟩,
    ⟨{ live with pwr.regs := [{ Regulator.reset with master := 1, addr := 4, rail := 3 }] }, ⟨1, 4, true, 5,
      .overUnderVoltage, 1, 2, 3⟩, { Regulator.reset with master := 1, addr := 4, rail := 3 }, by decide⟩,
    ⟨{ live with pwr.regs := [{ Regulator.reset with master := 0, addr := 4 }] }, ⟨0, 4, true, 5, .none, 1, 2, 3⟩,
      { Regulator.reset with master := 0, addr := 4 }, by decide⟩,
    ⟨{ live with pwr.regs := [{ Regulator.reset with master := 1, addr := 4 }] }, ⟨1, 4, true, 5, .warning, 1, 2, 3⟩,
      { Regulator.reset with master := 1, addr := 4 }, by decide⟩⟩

/-- States and operands that meet the hypotheses of PowerStatesChange, clause by clause. -/
theorem witness_PowerStatesChange :
    (∃ (s : State), (s.pwr.idleNow && mayDoze s) = false ∧ mayIdle s = true ∧ s.pwr.ps1En = true ∧ s.pwr.curPs = 0 ∧ timerDone
      s (1000 * s.pwr.idlePs1) = true ∧ clearFor s 10000 = true) ∧
    (∃ (s : State), mayDoze s = true) ∧
    (∃ (s : State), alive s = true) ∧
    (∃ (s : State), alive s = true ∧ clearFor s (if s.pwr.curPs = 2 then 300001 else 5001) = false) ∧
    (∃ (s : State) (w : BitVec 32), hostWriteOk s 0x01 = true) ∧
    (∃ (s : State), vaultReady s = true ∧ s.pwr.peerVault = true ∧ peerUp s = true ∧ s.glb.headSel = false) ∧
    (∃ (s : State) (m : PowerMsg), alive s = true) ∧
    (∃ (s : State), vaultReady { s with mmg.nextRefresh := nextRefreshOf s true } = true ∧ s.pwr.vaultAgreed = true) ∧
    (∃ (s : State) (at_ : Nat), s.island.alarm = some at_ ∧ s.pwr.vaultAt = none ∧ at_ ≤ islandNow s ∧ s.island.inVault =
      true) ∧
    (∃ (s : State) (at_ : Nat), s.island.alarm = some at_ ∧ s.pwr.vaultAt = none ∧ at_ ≤ islandNow s ∧ s.island.inVault =
      true) ∧
    (∃ (s : State) (at_ : Nat) (mainsRtn : Bool), s.island.alarm = some at_ ∧ s.pwr.vaultAt ≠ none ∧ at_ ≤ now s) ∧
    (∃ (s : State), s.pwr.stepEight = true) ∧
    (∃ (s : State), s.pwr.stepEight = false ∧ s.island.wakePending = true) ∧
    (∃ (s : State), s.island.inVault = true ∧ s.pwr.vaultAt = none ∧ s.island.wakeCause = 0) ∧
    (∃ (s : State), s.pwr.vaultAt ≠ none ∧ s.island.wakeCause = 0) ∧
    (∃ (s : State) (mv : Nat), (s.island.onVbat = false ∨ (mv < 2500 ↔ s.island.vbatMv < 2500))) ∧
    (∃ (s : State) (vddioOk : Bool) (mv : Nat), vddioOk = s.island.onVbat ∧ ¬ (mv < 2500 ↔ s.island.vbatMv < 2500)) ∧
    (∃ (s : State) (mv : Nat), (s.island.onVbat = true ∨ 2500 ≤ s.island.vbatMv) ∧ 2500 ≤ mv) ∧
    (∃ (s : State) (mv : Nat), (s.island.onVbat = true ∨ s.island.vbatMv < 2500) ∧ mv < 2500) :=
  ⟨⟨{ live with pwr.ps1En := true, lds.deviceTime := 10 ^ 9 }, by decide⟩,
    ⟨{ live with pwr.ps2En := true, pwr.curPs := 1, lds.deviceTime := 10 ^ 13 }, by decide⟩,
    ⟨{ live with pwr.curPs := 2, pwr.idleNow := true }, by decide⟩,
    ⟨{ live with pwr.curPs := 2, pwr.peerNext := some 300000 }, by decide⟩,
    ⟨{ live with pwr.curPs := 2, pwr.vaultAgreed := true }, 1, by decide⟩,
   
      ⟨{ live with pwr.ps3En := true, pwr.consent := true, pwr.peerVault := true, xhl.peer := .up, pwr.feedA.st := .good, pwr.feedB.st := .good },
      by decide⟩,
   
      ⟨{ live with pwr.ps3En := true, pwr.consent := true, pwr.peerVault := true, pwr.vaultProposed := true, xhl.peer := .up, pwr.feedA.st := .good, pwr.feedB.st := .good },
      { idle := true, next := none, ready := true, propose := false, accept := true, slots := [], dropped := 0 }, by decide⟩,
   
      ⟨{ live with pwr.ps3En := true, pwr.consent := true, pwr.vaultAgreed := true, pwr.feedA.st := .good, pwr.feedB.st := .good },
      by decide⟩,
    ⟨{ live with island.alarm := some 5, island.inVault := true, island.storedTime := 5 }, 5, by decide⟩,
   
      ⟨{ live with island.alarm := some 5, island.inVault := true, island.storedTime := 7, island.records := List.replicate 16 (rec1 1 1 false) },
      5, by decide⟩,
    ⟨{ live with island.alarm := some 0, pwr.vaultAt := some 0 }, 0, false, by decide⟩,
    ⟨{ live with pwr.stepEight := true }, by decide⟩,
    ⟨{ live with island.wakePending := true }, by decide⟩,
    ⟨{ live with island.inVault := true }, by decide⟩,
    ⟨{ live with pwr.vaultAt := some 3 }, by decide⟩,
    ⟨{ live with island.onVbat := true, island.vbatMv := 2600 }, 3000, by decide⟩,
    ⟨{ live with island.onVbat := true, island.vbatMv := 2600 }, true, 2000, by decide⟩,
    ⟨{ live with island.onVbat := true }, 2500, by decide⟩,
    ⟨{ live with island.onVbat := true, island.cleanStop := true }, 2499, by decide⟩⟩

/-- States and operands that meet the hypotheses of ResetAndStartComplete, clause by clause. -/
theorem witness_ResetAndStartComplete :
    (∃ (s : State), s.glb.held = false) ∧
    (∃ (s : State) (start : StartIn), start.cfgRead = [false, false]) ∧
    (∃ (s : State) (ms : Nat), alive s = true ∧ s.glb.mode = .starting ∧ s.glb.failStep = 0 ∧ s.glb.headConflict = false ∧
      flagsSet (noteMedia s) = true ∧ logAgreed s = true) ∧
    (∃ (s : State), alive s = true ∧ s.glb.mode = .starting ∧ s.glb.cal = true ∧ s.glb.xhl = false ∧ s.xhl.roundOpen = false ∧
      s.glb.headConflict = false ∧ peerUp s = false ∧ s.glb.calAt + 10 ^ 10 ≤ now s) :=
  ⟨⟨{ live with lds.deviceTime := 99 }, by decide⟩,
    ⟨{ live with dcq.queues := [ring1], lz := [(4, 4)] },
      { headSel := true, nvmMode := true, railsUp := true, counts := 0, cfgRead := [false, false], fwRead := [], torn := [], sramBad := [], calFails := [], eyes := [], calWords := [], trim := 0, present := 0, dimms := [], dramBad := [], shortfall := 0, peerGib := none, map := .none },
      by decide⟩,
    ⟨{ live with glb.mode := .starting, glb.service := false }, 900, by decide⟩,
    ⟨{ live with glb.mode := .starting, glb.service := false, glb.xhl := false, lds.deviceTime := 10 ^ 10 }, by decide⟩⟩

/-- States and operands that meet the hypotheses of LifeCycleChanges, clause by clause. -/
theorem witness_LifeCycleChanges :
    (∃ (s : State) (w : BitVec 32), hostWriteOk s 0x03 = true ∧ lifeCycleCode (lifeCycle s) < fld w 0 2 ∧ fld w 16 16 =
      Config.serial.toNat % 65536 ∧ s.cfg.lcBusy = false ∧ lcReady s (fld w 0 2) = true) ∧
    (∃ (s : State) (w : BitVec 32), hostWriteOk s 0x03 = true ∧ (fld w 0 2 ≤ lifeCycleCode (lifeCycle s) ∨ fld w 16 16 ≠
      Config.serial.toNat % 65536 ∨ s.cfg.lcBusy = true ∨ lcReady s (fld w 0 2) = false)) ∧
    (∃ (s : State) (w : BitVec 32), hostWriteOk s 0x03 = false ∧ failedNow s = true ∧ s.glb.hostEp = true ∧ s.glb.held =
      false) ∧
    (∃ (s : State), s.cfg.lcBusy = true ∧ s.glb.held = false) :=
  ⟨⟨{ live with fuses.p := 8, fuses.o := 0, glb.mode := .ready }, confirmWord 2, by decide, by rw [serial_low]; decide,
      serial_high 2 (by decide), by decide, by rw [serial_low]; decide⟩,
    ⟨{ live with fuses.p := 8, fuses.o := 8 }, 1, by decide⟩,
    ⟨{ live with glb.mode := .failstop, flt.failAt := some 0 }, 1, by decide⟩,
    ⟨{ live with cfg.lcBusy := true, cfg.lcStep := 1, cfg.lcTarget := 3, fuses.p := 3, fuses.o := 0 }, by decide⟩⟩

/-- States and operands that meet the hypotheses of FailstopIsEntered, clause by clause. -/
theorem witness_FailstopIsEntered :
    (∃ (s : State), s.glb.held = false ∧ s.glb.mode ≠ .failstop) ∧
    (∃ (s : State) (cause : Nat) (src : Nat), s.glb.held = false ∧ s.glb.mode ≠ .failstop) ∧
    (∃ (s : State) (cause : Nat) (src : Nat), s.glb.held = false ∧ s.glb.mode = .failstop) ∧
    (∃ (s : State) (block : Bool) (n : Nat) (member : Nat), alive s = true ∧ (if block = true then blockAgents.contains n else
      isDomainController n) = true ∧ (member = if block = true then 65536 + n else n) ∧ (∀ r ∈ s.glb.restarts, r.1 = member →
      r.2 + 60 * 10 ^ 9 ≤ now s)) ∧
    (∃ (s : State) (block : Bool) (n : Nat) (member : Nat) (since : Nat), alive s = true ∧ (if block = true then
      blockAgents.contains n else isDomainController n) = true ∧ (member = if block = true then 65536 + n else n) ∧ (member,
      since) ∈ s.glb.restarts ∧ now s < since + 60 * 10 ^ 9) :=
  ⟨⟨{ live with dcq.queues := [ring1] }, by decide⟩,
    ⟨{ live with dcq.queues := [{ ring1 with tags := ring1.tags.set 4 ⟨.ready, 1, false, true⟩ }] }, 3, 77, by decide⟩,
    ⟨{ live with glb.mode := .failstop, alm.wake := [rec1 0x1001 5 true], flt.cause := 3 }, 4, 78, by decide⟩,
    ⟨{ live with glb.restarts := [(128, 0), (256, 0)], lds.deviceTime := 60000000000 }, false, 128, 128, by decide⟩,
    ⟨{ live with glb.restarts := [(128, 0), (256, 0)], lds.deviceTime := 59999999999 }, false, 128, 128, 0, by decide⟩⟩

/-- States and operands that meet the hypotheses of PortsAndRegionTables, clause by clause. -/
theorem witness_PortsAndRegionTables :
    (∃ (s : State) (src : Nat) (reqs : List (PortMember × CtlState)) (m : PortMember) (st : CtlState), alive s = true ∧
      elementExists src = true ∧ (ctlPort s src).retired = false ∧ (ctlPort s src).hold = false ∧ (m, st) ∈ reqs ∧
      requestAllowed (ctlPort s src) (m, st) = true ∧ (∀ r ∈ reqs, requestAllowed (ctlPort s src) r = true → ctlCode st ≤
      ctlCode r.2)) ∧
    (∃ (s : State) (src : Nat) (reqs : List (PortMember × CtlState)), alive s = true ∧ elementExists src = true ∧ (∀ r ∈ reqs,
      requestAllowed (ctlPort s src) r = false)) ∧
    (∃ (s : State) (e : RegionEntry), alive s = true ∧ elementExists e.src = true ∧ e.idx < 16 ∧ e.base % 4096 = 0 ∧ 1 ≤
      e.pages ∧ e.pages < 2 ^ 32 ∧ e.rights.toNat < 8) ∧
    (∃ (s : State) (src : Nat) (addr : Nat) (len : Nat) (write : Bool) (entry : Nat), alive s = true ∧ elementExists src =
      true ∧ (ctlPort s src).retired = false ∧ accessPermitted s src addr len write = false ∧ frozenPort s src = false) ∧
    (∃ (s : State) (w : BitVec 32), hostWriteOk s 0x10 = true) ∧
    (∃ (s : State) (w : BitVec 32) (e : RegionEntry), hostWriteOk s 0x10 = true ∧ regionEntry s (fld w 0 16) (fld w 16 4) =
      some e) ∧
    (∃ (s : State) (w : BitVec 32), hostWriteOk s 0x10 = true ∧ regionEntry s (fld w 0 16) (fld w 16 4) = none) :=
  ⟨⟨live, srcId 2 3 1, [(.agent, .quiesced), (.fault, .husk), (.power, .off)], .fault, .husk, by decide⟩,
    ⟨live, srcId 2 3 1, [(.agent, .husk), (.power, .run)], by decide⟩,
    ⟨{ live with flt.regions := [⟨0, 3, 4096, 1, 7⟩] }, ⟨0, 3, 8192, 2, 5⟩, by decide⟩,
    ⟨live, srcId 0 8 2, 4096, 4, true, 1, by decide⟩,
    ⟨{ live with flt.ports := [{ Port.reset with src := 0x2100, retired := true }] }, 0xFFFF2100, by decide⟩,
    ⟨{ live with flt.regions := [⟨7, 3, 0x123456789000, 2, 5⟩] }, 0xFFF30007, ⟨7, 3, 0x123456789000, 2, 5⟩, by decide⟩,
    ⟨live, 0xFFF30007, by decide⟩⟩

/-- States and operands that meet the hypotheses of ErrorsAreContained, clause by clause. -/
theorem witness_ErrorsAreContained :
    (∃ (s : State) (src : Nat) (k : TestKind) (code : Option Nat), alive s = true ∧ elementExists src = true ∧ (ctlPort s
      src).retired = false ∧ reportOk (.contained k code) = true) ∧
    (∃ (s : State) (src : Nat) (k : TestKind), alive s = true ∧ elementExists src = true ∧ (ctlPort s src).retired = false ∧
      s.flt.waiting.length < 64) ∧
    (∃ (s : State) (src : Nat) (k : TestKind), alive s = true ∧ elementExists src = true ∧ ((ctlPort s src).corrected.filter
      fun e => decide (now s < e.1 + hourNs)).length < 15) ∧
    (∃ (s : State) (src : Nat), alive s = true ∧ elementExists src = true) :=
  ⟨⟨live, srcId 3 1 0, .lane, some 0x0A04, by decide⟩,
    ⟨live, srcId 3 1 0, .lane, by decide⟩,
    ⟨live, srcId 1 0 0, .lane, by decide⟩,
    ⟨live, srcId 3 1 0, by decide⟩⟩

/-- States and operands that meet the hypotheses of SelfTestsRun, clause by clause. -/
theorem witness_SelfTestsRun :
    (∃ (s : State) (src : Nat) (k : TestKind), hostWriteOk s 0x10 = true ∧ alive s = true ∧ testOf src = some k ∧ (ctlPort s
      src).retired = false ∧ s.flt.waiting.length < 64) ∧
    (∃ (s : State) (src : Nat), hostWriteOk s 0x10 = true ∧ (testOf src = none ∨ (ctlPort s src).retired = true ∨ s.glb.mode =
      .failstop)) ∧
    (∃ (s : State) (x : TestReq), alive s = true ∧ s.flt.waiting.find? (testMayStart s) = some x ∧ (ctlPort s x.src).retired =
      false) ∧
    (∃ (s : State) (src : Nat) (rows : Nat) (ms : Nat) (x : TestReq), alive s = true ∧ s.flt.running.find? (fun r => decide
      (r.src = src)) = some x ∧ (ctlPort s src).retired = false ∧ (ctlPort s src).hold = false ∧ ms ≤ testLimit x.kind ∧
      ((ctlPort s src).transients.filter fun x => decide (now s < x + 24 * hourNs)).length < 2) ∧
    (∃ (s : State) (src : Nat) (rows : Nat) (ms : Nat) (x : TestReq), alive s = true ∧ s.flt.running.find? (fun r => decide
      (r.src = src)) = some x ∧ srcStage src = 2) ∧
    (∃ (s : State), hostWriteOk s 0x10 = true ∧ s.glb.mode = .maintenance ∧ peerUp s = true ∧ s.xhl.owned = [] ∧
      s.flt.wholeChip = false) ∧
    (∃ (s : State), hostWriteOk s 0x10 = true ∧ (s.glb.mode ≠ .maintenance ∨ peerUp s = false ∨ s.xhl.owned ≠ [] ∨
      s.flt.wholeChip = true)) ∧
    (∃ (s : State), alive s = true ∧ s.flt.wholeChip = true) :=
  ⟨⟨live, srcId 2 4 0, .kernelVectors, by decide⟩,
    ⟨{ live with flt.ports := [{ Port.reset with src := srcId 2 4 0, retired := true }] }, srcId 2 4 0, by decide⟩,
    ⟨{ live with flt.waiting := [⟨srcId 6 1 3, .sram, false, true, 0⟩] }, ⟨srcId 6 1 3, .sram, false, true, 0⟩, by decide⟩,
   
      ⟨{ live with flt.running := [⟨srcId 6 1 3, .sram, true, false, 0⟩], flt.testSrc := srcId 6 1 3, flt.ports := [{ Port.reset with src := srcId 6 1 3, st := .test }] },
      srcId 6 1 3, 0, 5, ⟨srcId 6 1 3, .sram, true, false, 0⟩, by decide⟩,
   
      ⟨{ live with flt.running := [⟨srcId 2 4 3, .kernelVectors, true, true, 0⟩], flt.testSrc := srcId 2 4 3, flt.ports := [{ Port.reset with src := srcId 2 4 3, st := .test }] },
      srcId 2 4 3, 0, 5, ⟨srcId 2 4 3, .kernelVectors, true, true, 0⟩, by decide⟩,
   
      ⟨{ liveMaint with xhl.peer := .up, xhl.owned := [], dcq.queues := [{ ring1 with tags := ring1.tags.set 4 ⟨.ready, 1, false, true⟩ }] },
      by decide⟩,
    ⟨live, by decide⟩,
    ⟨{ liveMaint with xhl.peer := .up, flt.wholeChip := true, lz := [(1, 1)], sram := [(2, 2)] }, by decide⟩⟩

/-- States and operands that meet the hypotheses of SlotPowerIsSwitched, clause by clause. -/
theorem witness_SlotPowerIsSwitched :
    (∃ (s : State) (n : Nat), turnOnDue s false n = true ∧ lowestDue s n = true ∧ (∀ i ∈ switchSlots s n, i <
      s.cle.slots.length)) ∧
    (∃ (s : State) (n : Nat), turnOnDue s true n = true ∧ lowestDue s n = true ∧ (∀ i ∈ switchSlots s n, i <
      s.cle.slots.length)) ∧
    (∃ (s : State) (n : Nat), n < 48 ∧ slotsDriven s = true ∧ (slotPwr s n).pg = true ∧ slotWanted s n = true) ∧
    (∃ (s : State) (n : Nat), n < 48 ∧ slotsDriven s = true ∧ slotMaster s = true ∧ (∀ i ∈ switchSlots s n, i <
      s.cle.slots.length) ∧ (∃ i ∈ switchSlots s n, (slotPwr s i).en = true) ∧ powerFails s n = true) ∧
    (∃ (s : State) (ep : Nat) (w : BitVec 32), epServes s ep = true ∧ memOn s ep = true ∧ hostWriteOk s 0x0F = true) ∧
    (∃ (s : State) (n : Nat), n < 48 ∧ slotsDriven s = true ∧ slotMaster s = true ∧ slotWanted s n = false ∧ switchWanted s n
      = false ∧ (∀ i ∈ switchSlots s n, i < s.cle.slots.length) ∧ (∃ i ∈ switchSlots s n, (slotPwr s i).en = true ∨ (slotPwr s
      i).pg = true) ∧ peerDropped s n = true) ∧
    (∃ (s : State) (n : Nat), n < 48 ∧ slotsDriven s = true ∧ slotMaster s = true ∧ slotWanted s n = false ∧ switchWanted s n
      = true ∧ (slotPwr s n).en = true ∧ n ∈ switchSlots s n ∧ peerDropped s n = true) :=
  ⟨⟨{ live with med.ports := live.med.ports.modify 5 fun m => { m with present := true } }, 5, by decide⟩,
   
      ⟨{ live with lds.deviceTime := 10 ^ 10, med.ports := live.med.ports.modify 5 (fun m => { m with present := true }), cle.slots := live.cle.slots.modify 5 fun x => { x with fails := 1, failAt := some 0 } },
      5, by decide⟩,
   
      ⟨{ live with med.ports := live.med.ports.modify 5 (fun m => { m with present := true }), cle.slots := live.cle.slots.modify 5 fun x => { x with pg := true } },
      5, by decide⟩,
   
      ⟨{ live with med.ports := live.med.ports.modify 5 (fun m => { m with present := true, st := .active }), cle.slots := live.cle.slots.modify 5 fun x => { x with pg := true, en := true, fails := 2 } },
      5, by decide⟩,
    ⟨{ live with ecp.slots := live.ecp.slots.modify 1 (fun x => { x with st := .member }), cle.slotOff := 8 }, 0, 7, by
      decide⟩,
   
      ⟨{ live with med.ports := live.med.ports.modify 5 (fun m => { m with st := .active }), cle.slots := live.cle.slots.modify 5 fun x => { x with pg := true, en := true, fails := 2 } },
      5, by decide⟩,
   
      ⟨{ live with img.loops.pairMask := 4, med.ports := live.med.ports.modify 4 (fun m => { m with present := true }), cle.slots := live.cle.slots.modify 5 fun x => { x with pg := true, en := true, fails := 2 } },
      5, by decide⟩⟩

/-- States and operands that meet the hypotheses of StagingBufferIsFilled, clause by clause. -/
theorem witness_StagingBufferIsFilled :
    (∃ (s : State), hostWriteOk s 0x12 = true ∧ s.upd.st = .idle) ∧
    (∃ (s : State), hostWriteOk s 0x12 = true ∧ s.upd.st ≠ .idle) ∧
    (∃ (s : State) (n : Nat) (w : BitVec 32), hostWriteOk s 0x12 = true ∧ s.upd.st = .opened ∧ n < 1024) ∧
    (∃ (s : State), hostWriteOk s 0x12 = true) ∧
    (∃ (s : State), alive s = true ∧ (s.upd.st = .opened ∨ s.upd.st = .staged) ∧ s.upd.writeAt + 600 * 10 ^ 9 ≤ now s) ∧
    (∃ (s : State) (slot : Nat), hostWriteOk s 0x12 = true ∧ s.upd.st = .opened ∧ runningSlot s ≠ some (slot % 2) ∧ updPending
      s = false ∧ s.glb.failStep ≠ 4) ∧
    (∃ (s : State) (slot : Nat), hostWriteOk s 0x12 = true ∧ (s.upd.st ≠ .opened ∨ runningSlot s = some (slot % 2) ∨
      updPending s = true ∨ s.glb.failStep = 4)) ∧
    (∃ (s : State), hostWriteOk s 0x12 = true ∧ s.upd.st = .opened ∧ updPending s = false ∧ (s.glb.fw = true ∨ s.glb.failStep
      = 4)) ∧
    (∃ (s : State), hostWriteOk s 0x12 = true ∧ (s.upd.st ≠ .opened ∨ updPending s = true ∨ (s.glb.fw = false ∧ s.glb.failStep
      ≠ 4))) :=
  ⟨⟨{ live with upd.staging := [(1, 1)] }, by decide⟩,
    ⟨{ live with upd.st := .staged }, by decide⟩,
    ⟨{ live with upd.st := .opened, upd.offset := 4096, upd.staging := [(4096, 7), (8188, 7), (8190, 7), (8192, 7)] }, 1023,
      0x11003300, by decide⟩,
    ⟨{ live with upd.st := .staged, upd.staging := [(1, 1)], lds.deviceTime := 600 * 10 ^ 9 }, by decide⟩,
    ⟨{ live with upd.st := .staged, upd.staging := [(1, 1)], lds.deviceTime := 600 * 10 ^ 9 }, by decide⟩,
    ⟨{ live with upd.st := .opened, upd.slot := 0 }, 1, by decide⟩,
    ⟨{ live with upd.st := .opened, upd.slot := 1 }, 1, by decide⟩,
    ⟨{ live with upd.st := .opened, cfg.copyUsed := 1 }, by decide⟩,
    ⟨live, by decide⟩⟩

/-- States and operands that meet the hypotheses of UpdatesRun, clause by clause. -/
theorem witness_UpdatesRun :
    (∃ (s : State) (fw : Bool) (n : Nat) (start : StartIn), alive s = true ∧ s.upd.job = some (fw, n) ∧ s.upd.st = .checking)
      ∧
    (∃ (s : State) (n : Nat) (start : StartIn), alive s = true ∧ s.upd.job = some (true, n) ∧ s.upd.st = .programming) ∧
    (∃ (s : State) (confirm : Nat) (n : Nat), hostWriteOk s 0x12 = true ∧ s.upd.st = .staged ∧ s.upd.staged = some n ∧
      updConfirm confirm = true ∧ onProbation s = false ∧ s.upd.activating = none ∧ leAt (fwBytes s n) 104 2 ≤ s.upd.layout ∧
      s.upd.layout ≤ leAt (fwBytes s n) 106 2) ∧
    (∃ (s : State) (confirm : Nat), hostWriteOk s 0x12 = true ∧ (s.upd.st ≠ .staged ∨ s.upd.staged = none ∨ updConfirm confirm
      = false ∨ onProbation s = true ∨ s.upd.activating.isSome = true)) ∧
    (∃ (s : State) (confirm : Nat), hostWriteOk s 0x12 = true ∧ updConfirm confirm = true ∧ s.glb.mode = .maintenance) ∧
    (∃ (s : State) (confirm : Nat), hostWriteOk s 0x12 = true ∧ (updConfirm confirm = false ∨ (s.glb.mode ≠ .maintenance ∧
      s.glb.mode ≠ .starting))) ∧
    (∃ (s : State) (start : StartIn), hostWriteOk s 0x12 = true ∧ runRefused start s = false) ∧
    (∃ (s : State) (start : StartIn), hostWriteOk s 0x12 = true ∧ runRefused start s = true) ∧
    (∃ (s : State) (start : StartIn), alive s = true ∧ s.upd.st = .waiting ∧ admitsHere s .update = false) ∧
    (∃ (s : State) (b : BootRecord), alive s = true ∧ s.upd.boot = some b ∧ probationRuns s = true ∧ healthy s = true) ∧
    (∃ (s : State) (start : StartIn), s.glb.held = false ∧ probationRuns s = true ∧ probationLost s = true) :=
  ⟨⟨{ live with upd.st := .checking, upd.job := some (true, 1) }, true, 1, start0, by decide⟩,
   
      ⟨{ live with upd.st := .programming, upd.job := some (true, 1), upd.len := 4, upd.staging := [(1, 9)], nor := [(58720256, 3)] },
      1, start0, by decide⟩,
    ⟨{ live with upd.st := .staged, upd.staged := some 1, upd.layout := 65535 }, Config.serial.toNat % 65536, 1, by decide, by
      decide, by decide, by simp [updConfirm], by decide, by decide, by decide⟩,
    ⟨live, 0, by decide⟩,
    ⟨liveMaint, Config.serial.toNat % 65536, by decide, by simp [updConfirm], by decide⟩,
    ⟨live, 5, by decide, Or.inr (by decide)⟩,
    ⟨{ live with glb.fw := false, glb.nvmMode := true, upd.st := .staged, upd.staged := some 1, glb.mode := .starting },
      start0, by decide⟩,
    ⟨live, start0, by decide⟩,
    ⟨{ liveMaint with upd.st := .waiting, glb.headSel := true, xhl.peer := .up, dcq.queues := [ring1] }, start0, by decide⟩,
   
      ⟨{ live with upd.boot := some { BootRecord.reset with st := 1, tries := 1 }, upd.slot := 0, upd.probEnd := 5, lds.deviceTime := 9, xhl.peer := .up, xhl.peerFw := 0xFFFFFFFF },
      { BootRecord.reset with st := 1, tries := 1 }, by decide⟩,
   
      ⟨{ live with glb.service := false, upd.boot := some { BootRecord.reset with st := 1, tries := 1, active := 1 }, upd.slot := 1, dcq.queues := [ring1], lds.deviceTime := 120000000000 },
      start0, by decide⟩⟩

/-- States and operands that meet the hypotheses of ControlLoopsRun, clause by clause. -/
theorem witness_ControlLoopsRun :
    (∃ (s : State) (n : Nat) (pv : Option Int) (m : Int) (l : Loop), alive s = true ∧ n < 54 ∧ s.cle.loops[n]? = some l ∧
      loopMeas s { n := n, meas := pv } = some m ∧ (n < 2 ∨ 6 ≤ n ∨ zoneFans s (n - 2) ≠ []) ∧ (l.cfg.paced = true ∨ ∀ d ∈
      l.due, d ≤ now s ∧ loopLate l d (now s) = false) ∧ l.next = none ∧ l.state = 2 ∧ l.cfg.mode = 2 ∧ s.cle.avsReturn = none
      ∧ wantedMode s n l.cfg = 2 ∧ effOutMin s n l.cfg ≤ l.cfg.outMax.toInt) ∧
    (∃ (s : State) (n : Nat) (pv : Option Int) (m : Int) (l : Loop), alive s = true ∧ 6 ≤ n ∧ n < 54 ∧ s.cle.loops[n]? = some
      l ∧ loopMeas s { n := n, meas := pv } = some m ∧ (l.cfg.paced = true ∨ ∀ d ∈ l.due, d ≤ now s ∧ loopLate l d (now s) =
      false) ∧ l.next = none ∧ l.state ≠ 3 ∧ l.cfg.mode = 1) ∧
    (∃ (s : State) (n : Nat) (d : Nat) (l : Loop), alive s = true ∧ n < 54 ∧ s.cle.loops[n]? = some l ∧ l.due = some d ∧
      ((l.cfg.paced = true ∧ d ≤ now s) ∨ (l.cfg.paced = false ∧ loopLate l d (now s) = true)) ∧ (l.missRun < 2 ∨ l.state =
      3)) ∧
    (∃ (s : State) (n : Nat) (d : Nat) (l : Loop), alive s = true ∧ n < 54 ∧ s.cle.loops[n]? = some l ∧ l.due = some d ∧
      ((l.cfg.paced = true ∧ d ≤ now s) ∨ (l.cfg.paced = false ∧ loopLate l d (now s) = true)) ∧ 2 ≤ l.missRun ∧ l.state ≠ 3)
      ∧
    (∃ (s : State) (n : Nat) (l : Loop), alive s = true ∧ s.cle.loops[n]? = some l ∧ l.beyond = true ∧ l.recorded = false ∧
      1000 * l.cfg.satLimit ≤ l.satTime) ∧
    (∃ (s : State) (n : Nat) (l : Loop), alive s = true ∧ 2 ≤ n ∧ n < 54 ∧ s.cle.loops[n]? = some l ∧ cfgAccepted (stagedCfg
      l) = true) ∧
    (∃ (s : State) (n : Nat), alive s = true ∧ n < 54 ∧ (n < 2 ∨ cfgAccepted (stagedCfg (loopOf s n)) = false)) ∧
    (∃ (s : State) (n : Nat) (ws : List (Option (BitVec 32))) (l : Loop), alive s = true ∧ n < 54 ∧ s.cle.loops[n]? = some l ∧
      cfgAccepted (stagedCfg { l with staged := ws }) = true) ∧
    (∃ (s : State) (d : Nat) (r : Regulator), alive s = true ∧ (loopOf s 1).state = 2 ∧ s.cle.stepAt + 10 ^ 10 ≤ now s ∧
      (loopOf s 1).due = some d ∧ now s < d ∧ 2 * (d - now s) = loopPeriod (loopOf s 1) ∧ s.pwr.regs.filter (fun r => decide
      (r.role = 2)) = [r] ∧ r.lost = false) ∧
    (∃ (s : State), alive s = true ∧ (s.cle.avsNeg.any fun t => decide (t + 1000000 ≤ now s)) = true) :=
 
      ⟨⟨{ (liveLoop 6 fun l => { l with state := 2, cfg := { l.cfg with mode := 2, outMin := -100, outMax := 500, kp := 3, ki := 1, sp := 400, outShift := 1 }, missRun := 2 }) with med.ports := live.med.ports.modify 0 fun m => { m with st := .active, zoneTemps := [500], telemTime := 0 }, med.periodMs := 100 },
      6, none, 500,
      { (loopOf live 6) with state := 2, cfg := { (loopOf live 6).cfg with mode := 2, outMin := -100, outMax := 500, kp := 3, ki := 1, sp := 400, outShift := 1 }, missRun := 2 },
      by decide⟩,
   
      ⟨{ (liveLoop 53 fun l => { l with cfg := { l.cfg with mode := 1, outMin := -100, outMax := 500, manOut := 600 } }) with med.ports := live.med.ports.modify 47 fun m => { m with st := .active, zoneTemps := [500], telemTime := 0 }, med.periodMs := 100 },
      53, none, 500,
      { (loopOf live 53) with cfg := { (loopOf live 53).cfg with mode := 1, outMin := -100, outMax := 500, manOut := 600 } },
      by decide⟩,
   
      ⟨{ (liveLoop 53 fun l => { l with missRun := 1, missed := 255, due := some 7, cfg := { l.cfg with paced := true } }) with lds.deviceTime := 7 },
      53, 7,
      { (loopOf live 53) with missRun := 1, missed := 255, due := some 7, cfg := { (loopOf live 53).cfg with paced := true } },
      by decide⟩,
   
      ⟨{ (liveLoop 2 fun l => { l with missRun := 2, failOut := 900, due := some 7, cfg := { l.cfg with paced := false, period := 5 } }) with lds.deviceTime := 5008 },
      2, 7,
      { (loopOf live 2) with missRun := 2, failOut := 900, due := some 7, cfg := { (loopOf live 2).cfg with paced := false, period := 5 } },
      by decide⟩,
    ⟨liveLoop 0 fun l => { l with beyond := true, satTime := 10000000 }, 0,
      { (loopOf live 0) with beyond := true, satTime := 10000000 }, by decide⟩,
    ⟨liveLoop 2 fun l => { l with staged := [none, some 0x11, none, none, none], cfg := { l.cfg with period := 100 } }, 2,
      { (loopOf live 2) with staged := [none, some 0x11, none, none, none], cfg := { (loopOf live 2).cfg with period := 100 } },
      by decide⟩,
    ⟨live, 1, by decide⟩,
    ⟨liveLoop 0 fun l => { l with cfg := { l.cfg with period := 100 } }, 0, [some 0x00640002],
      { (loopOf live 0) with cfg := { (loopOf live 0).cfg with period := 100 } }, by decide⟩,
   
      ⟨{ (liveLoop 1 fun l => { l with state := 2, out := 4800, due := some 10000025000, cfg := { l.cfg with paced := false, period := 5 } }) with pwr.regs := [{ Regulator.reset with role := 1 }, { Regulator.reset with role := 2, addr := 9 }], lds.deviceTime := 10 ^ 10 },
      10000025000, { Regulator.reset with role := 2, addr := 9 }, by decide⟩,
    ⟨{ live with cle.avsNeg := some 0, lds.deviceTime := 1000000 }, by decide⟩⟩

/-- States and operands that meet the hypotheses of FansAndTheDie, clause by clause. -/
theorem witness_FansAndTheDie :
    (∃ (s : State) (f : Nat) (pulses : Nat) (x : Fan), alive s = true ∧ s.img.board.fanEn.getLsbD f = true ∧ s.cle.fans[f]? =
      some x) ∧
    (∃ (s : State) (f : Nat) (x : Fan), alive s = true ∧ s.cle.fans[f]? = some x ∧ 3 ≤ x.slow ∧ x.fault = false) ∧
    (∃ (s : State), alive s = true ∧ s.cle.dieHot = false) ∧
    (∃ (s : State), alive s = true ∧ s.cle.dieHot = true) ∧
    (∃ (s : State), alive s = true) :=
 
      ⟨⟨{ live with img.board.fanEn := 0x3F, img.loops.fanMinRpm := 1000, cle.fans := live.cle.fans.modify 5 fun x => { x with fault := true, good := 9 } },
      5, 34, { Fan.reset with fault := true, good := 9 }, by decide⟩,
    ⟨{ live with cle.fans := live.cle.fans.modify 5 fun x => { x with slow := 3 } }, 5, { Fan.reset with slow := 3 }, by
      decide⟩,
    ⟨live, by decide⟩,
    ⟨{ (liveLoop 2 fun l => { l with out := 300 }) with cle.dieHot := true, img.loops.fanZone := [0, 0, 1, 1, 9, 9] }, by
      decide⟩,
    ⟨live, by decide⟩⟩

/-- States and operands that meet the hypotheses of ServiceKeysChange, clause by clause. -/
theorem witness_ServiceKeysChange :
    (∃ (s : State) (slot : Nat), hostWriteOk s 0x09 = true ∧ s.sec.keyWait = none ∧ 1 ≤ slot ∧ slot < 256 ∧ slotForbidden s
      slot = false) ∧
    (∃ (s : State) (slot : Nat), hostWriteOk s 0x09 = true ∧ (s.sec.keyWait ≠ none ∨ slot = 0 ∨ 256 ≤ slot ∨ slotForbidden s
      slot = true)) ∧
    (∃ (s : State) (slot : Nat) (kek : Nat), hostWriteOk s 0x09 = true ∧ s.sec.keyWait = none ∧ 1 ≤ slot ∧ slot < 256 ∧
      slotForbidden s slot = false ∧ (keySlotOf s kek).present = true) ∧
    (∃ (s : State) (slot : Nat), hostWriteOk s 0x09 = true ∧ s.sec.keyWait = none ∧ 1 ≤ slot ∧ slot < 256 ∧ slotForbidden s
      slot = false ∧ s.sec.drbgOk = true) ∧
    (∃ (s : State) (slot : Nat), hostWriteOk s 0x09 = true ∧ s.sec.keyWait = none ∧ 1 ≤ slot ∧ slot < 256 ∧ slotForbidden s
      slot = false ∧ s.sec.drbgOk = false) ∧
    (∃ (s : State) (slot : Nat), hostWriteOk s 0x09 = true ∧ s.sec.keyWait = none ∧ 1 ≤ slot ∧ slot < 256 ∧ slotForbidden s
      slot = false) :=
 
      ⟨⟨{ live with sec.keyData := List.replicate 10 0x11223344, sec.slots := [{ KeySlot.reset with num := 3, key := [1], epoch := 4 }, { KeySlot.reset with num := 4, key := [1], epoch := 4 }] },
      3, by decide⟩,
    ⟨live, 0, by decide⟩,
    ⟨{ live with sec.slots := [{ KeySlot.reset with num := 4, key := [1], present := true }] }, 3, 4, by decide⟩,
    ⟨{ live with sec.drbgOk := true }, 255, by decide⟩,
    ⟨{ live with sec.drbgOk := false }, 255, by decide⟩,
    ⟨{ live with sec.slots := [{ KeySlot.reset with num := 4, key := [1], present := true }] }, 4, by decide⟩⟩

/-- States and operands that meet the hypotheses of SecurityAlarmsAreRaised, clause by clause. -/
theorem witness_SecurityAlarmsAreRaised :
    (∃ (s : State), alive s = true) ∧
    (∃ (s : State), alive s = true) ∧
    (∃ (s : State) (src : Nat), alive s = true ∧ elementExists src = true ∧ (ctlPort s src).retired = false) ∧
    (∃ (s : State) (reloadOk : Bool), alive s = true) ∧
    (∃ (s : State), alive s = true) ∧
    (∃ (s : State), alive s = true ∧ s.sec.drbgOk = false ∧ (∀ x ∈ s.flt.waiting ++ s.flt.running, x.kind ≠ .drbg) ∧ within s
      s.sec.drbgFailAt 10000001 = true) ∧
    (∃ (s : State), alive s = true ∧ s.sec.drbgOk = false ∧ (∀ x ∈ s.flt.waiting ++ s.flt.running, x.kind ≠ .drbg)) ∧
    (∃ (s : State), alive s = true ∧ s.sec.drbgOk = true ∧ (s.sec.drbgFrom + 2 ^ 20 ≤ s.sec.drbgCount ∨ s.sec.drbgAt + 10 ^ 9
      ≤ now s)) :=
  ⟨⟨{ live with sec.clkAt := some 0, lds.deviceTime := 999999999 }, by decide⟩,
    ⟨{ live with sec.voltAt := some 0, lds.deviceTime := 999999999 }, by decide⟩,
    ⟨{ live with dig.st := .busy }, srcId 3 4 0, by decide⟩,
    ⟨live, false, by decide⟩,
    ⟨{ live with sec.drbgFailAt := some 0, lds.deviceTime := 59999999999 }, by decide⟩,
    ⟨{ live with sec.drbgOk := false, sec.keyWait := some 9, sec.drbgFailAt := some 0, lds.deviceTime := 10 ^ 7 }, by decide⟩,
    ⟨{ live with sec.drbgOk := false, sec.keyWait := some 9, sec.drbgFailAt := some 0, lds.deviceTime := 10 ^ 7 }, by decide⟩,
    ⟨{ live with sec.drbgOk := true, lds.deviceTime := 10 ^ 9 }, by decide⟩⟩

/-- States and operands that meet the hypotheses of CipherServiceRuns, clause by clause. -/
theorem witness_CipherServiceRuns :
    (∃ (s : State) (ep : Nat) (w : BitVec 32), epServes s ep = true ∧ memOn s ep = true ∧ hostWriteOk s 0x09 = true ∧
      s.sec.lockHeld = false ∧ fld w 0 16 ≠ 0) ∧
    (∃ (s : State) (ep : Nat) (w : BitVec 32), epServes s ep = true ∧ memOn s ep = true ∧ hostWriteOk s 0x09 = true ∧
      s.sec.lockHeld = true ∧ (fld w 0 16 ≠ 0 ∨ ep ≠ s.sec.lockEp)) ∧
    (∃ (s : State) (w : BitVec 32), epServes s s.sec.lockEp = true ∧ memOn s s.sec.lockEp = true ∧ hostWriteOk s 0x09 = true ∧
      s.sec.lockHeld = true ∧ fld w 0 16 = 0) ∧
    (∃ (s : State), alive s = true ∧ s.sec.lockHeld = true ∧ s.sec.csState ≠ 1 ∧ s.sec.lockAt + 10 ^ 10 ≤ now s) ∧
    (∃ (s : State) (slot : Nat) (srcSpace : Nat) (dstSpace : Nat), hostWriteOk s 0x09 = true ∧ s.sec.lockHeld = true ∧
      s.sec.csState ≠ 1 ∧ (boundSlot s slot).present = true ∧ (boundSlot s slot).dedup = none ∧ slot ≠ 0 ∧ (s.sec.csLen ≤
      1048576 ∧ s.sec.csAadLen ≤ 65536 ∧ s.sec.csAadLen ≤ s.sec.csLen) ∧ (srcSpace < 2 ∧ s.sec.csSrc.toNat + s.sec.csLen ≤
      spaceSize s srcSpace) ∧ (dstSpace < 2 ∧ s.sec.csDst.toNat + (s.sec.csLen - s.sec.csAadLen) ≤ spaceSize s dstSpace) ∧
      (boundSlot s slot).csCounter < 2 ^ 63) ∧
    (∃ (s : State) (token : Nat) (slot : Nat) (srcSpace : Nat) (dstSpace : Nat), hostWriteOk s 0x09 = true ∧ (s.sec.lockHeld =
      false ∨ token ≠ s.sec.lockToken.toNat ∨ s.sec.csState = 1 ∨ (boundSlot s slot).present = false)) ∧
    (∃ (s : State) (slot : Nat) (srcSpace : Nat) (dstSpace : Nat), hostWriteOk s 0x09 = true ∧ s.sec.lockHeld = true ∧
      s.sec.csState ≠ 1 ∧ (boundSlot s slot).present = true ∧ (boundSlot s slot).dedup = none ∧ slot ≠ 0 ∧ (s.sec.csLen ≤
      1048576 ∧ s.sec.csAadLen ≤ 65536 ∧ s.sec.csAadLen ≤ s.sec.csLen) ∧ (srcSpace < 2 ∧ s.sec.csSrc.toNat + s.sec.csLen ≤
      spaceSize s srcSpace) ∧ (dstSpace < 2 ∧ s.sec.csDst.toNat + (s.sec.csLen - s.sec.csAadLen) ≤ spaceSize s dstSpace)) ∧
    (∃ (s : State) (j : CsJob), alive s = true ∧ s.sec.drbgOk = true ∧ s.sec.csJob = some j ∧ j.dstSpace = 1) :=
  ⟨⟨live, 0, 0x10007, by decide⟩,
    ⟨{ live with sec.lockHeld := true, sec.lockEp := 1 }, 0, 0, by decide⟩,
    ⟨{ live with sec.lockHeld := true, sec.lockEp := 0 }, 0, by decide⟩,
    ⟨{ live with sec.lockHeld := true, sec.lockEp := 1, lds.deviceTime := 10 ^ 10 }, by decide⟩,
   
      ⟨{ live with sec.lockHeld := true, sec.lockToken := 5, sec.csLen := 8, sec.csAadLen := 2, sram := [(3, 3)], sec.slots := [{ KeySlot.reset with num := 4, key := [1], present := true }] },
      4, 1, 1, by decide⟩,
    ⟨live, 1, 4, 1, 1, by decide⟩,
   
      ⟨{ live with sec.lockHeld := true, sec.lockToken := 5, sec.csLen := 8, sec.csAadLen := 2, sram := [(3, 3)], sec.slots := [{ KeySlot.reset with num := 4, key := [1], present := true }] },
      4, 1, 1, by decide⟩,
    ⟨{ live with sec.drbgOk := true, sec.csJob := some ⟨true, 4, 1, 8, [1], [], [2], [], []⟩ }, ⟨true, 4, 1, 8, [1], [], [2],
      [], []⟩, by decide⟩⟩

/-- States and operands that meet the hypotheses of DigestServiceRuns, clause by clause. -/
theorem witness_DigestServiceRuns :
    (∃ (s : State) (ep : Nat) (alg : Nat) (space : Nat), epServes s ep = true ∧ memOn s ep = true ∧ hostWriteOk s 0x0A = true
      ∧ s.dig.st = .idle ∧ (alg = 1 ∨ alg = 2) ∧ (1 ≤ s.dig.len ∧ s.dig.len ≤ 2 ^ 30) ∧ space < 2 ∧ s.dig.src.toNat +
      s.dig.len ≤ spaceSize s space) ∧
    (∃ (s : State) (ep : Nat) (alg : Nat) (space : Nat), epServes s ep = true ∧ memOn s ep = true ∧ hostWriteOk s 0x0A = true
      ∧ (s.dig.st ≠ .idle ∨ (alg ≠ 1 ∧ alg ≠ 2) ∨ s.dig.len = 0 ∨ 2 ^ 30 < s.dig.len ∨ 2 ≤ space ∨ spaceSize s space <
      s.dig.src.toNat + s.dig.len)) ∧
    (∃ (s : State), alive s = true ∧ s.dig.st = .busy ∧ s.dig.cmd = none) ∧
    (∃ (s : State) (q : QueueId) (tag : Nat), alive s = true ∧ s.dig.st = .busy ∧ s.dig.cmd = some (q, tag) ∧ s.dig.remote =
      false) ∧
    (∃ (s : State), epServes s s.dig.ep = true ∧ memOn s s.dig.ep = true ∧ hostWriteOk s 0x0A = true ∧ (s.dig.st = .done ∨
      s.dig.st = .cleared)) ∧
    (∃ (s : State) (ep : Nat), epServes s ep = true ∧ memOn s ep = true ∧ hostWriteOk s 0x0A = true ∧ ep ≠ s.dig.ep) ∧
    (∃ (s : State), alive s = true ∧ s.dig.st = .done ∧ s.dig.doneAt + 10 ^ 10 ≤ now s) :=
  ⟨⟨{ live with dig.len := 4, dig.src := 2, sram := [(3, 3)] }, 0, 2, 1, by decide⟩,
    ⟨live, 0, 3, 1, by decide⟩,
    ⟨{ live with dig.st := .busy, dig.msg := [1] }, by decide⟩,
   
      ⟨{ live with dig.st := .busy, dig.msg := [1], dig.cmd := some (.ring 0 1, 4), dcq.queues := [{ ring1 with tags := ring1.tags.set 4 ⟨.fetched, 1, false, true⟩ }], dcq.cmds := [{ Cmd.reset with q := .ring 0 1, tag := 4 }] },
      .ring 0 1, 4, by decide⟩,
    ⟨{ live with dig.st := .done, dig.ep := 0 }, by decide⟩,
    ⟨{ live with dig.st := .done, dig.ep := 3, lds.deviceTime := 0 }, 0, by decide⟩,
    ⟨{ live with dig.st := .done, dig.ep := 3, lds.deviceTime := 10 ^ 10 }, by decide⟩⟩

/-- States and operands that meet the hypotheses of DoorbellsActOnTags, clause by clause. -/
theorem witness_DoorbellsActOnTags :
    (∃ (s : State) (ep : Nat) (q : Nat) (w : BitVec 32) (x : Queue), epServes s ep = true ∧ memOn s ep = true ∧ s.glb.mode ≠
      .failstop ∧ s.glb.fw = true ∧ queueOf s (.ring ep q) = some x ∧ x.tags.length = 32 ∧ x.st = .active ∧ (∀ y ∈ x.tags,
      y.st = .free)) ∧
    (∃ (s : State) (ep : Nat) (q : Nat) (w : BitVec 32), epServes s ep = true ∧ memOn s ep = true ∧ s.glb.mode ≠ .failstop ∧
      queueOf s (.ring ep q) = none) ∧
    (∃ (s : State) (ep : Nat) (q : Nat) (w : BitVec 32) (x : Queue), epServes s ep = true ∧ memOn s ep = true ∧ s.glb.mode ≠
      .failstop ∧ queueOf s (.ring ep q) = some x ∧ (s.glb.fw = false ∨ x.st = .deleting)) ∧
    (∃ (s : State) (ep : Nat) (q : Nat) (w : BitVec 32) (x : Queue), epServes s ep = true ∧ memOn s ep = true ∧ s.glb.mode ≠
      .failstop ∧ s.glb.fw = true ∧ queueOf s (.ring ep q) = some x ∧ x.tags.length = 32 ∧ (∀ y ∈ x.tags, y.st = .ready)) ∧
    (∃ (s : State) (ep : Nat) (q : Nat) (i : Nat) (x : Queue) (c : Cmd), epServes s ep = true ∧ memOn s ep = true ∧ s.glb.mode
      ≠ .failstop ∧ s.glb.fw = true ∧ queueOf s (.ring ep q) = some x ∧ i < 32 ∧ (x.tags.getD i Tag.reset).st = .fetched ∧
      cmdOf s (.ring ep q) i = some c ∧ (c.st = .started ∨ (c.st ≠ .listing ∧ c.forwarded = false ∧ (cmdOpcode c = 0x01 ∨
      cmdOpcode c = 0x03 ∨ cmdOpcode c = 0x89)))) ∧
    (∃ (s : State) (ep : Nat) (q : Nat) (w : BitVec 32) (x : Queue), epServes s ep = true ∧ memOn s ep = true ∧ s.glb.mode ≠
      .failstop ∧ s.glb.fw = true ∧ queueOf s (.ring ep q) = some x ∧ fld w 0 12 < ringSize x ∧ (fld w 0 12 + ringSize x -
      x.head) % ringSize x ≤ x.unread ∧ x.waiting = [] ∧ x.closer = none) ∧
    (∃ (s : State) (ep : Nat) (q : Nat) (w : BitVec 32) (x : Queue), epServes s ep = true ∧ memOn s ep = true ∧ s.glb.mode ≠
      .failstop ∧ queueOf s (.ring ep q) = some x ∧ (ringSize x ≤ fld w 0 12 ∨ x.unread < (fld w 0 12 + ringSize x - x.head) %
      ringSize x)) ∧
    (∃ (s : State) (ep : Nat) (q : Nat) (w : BitVec 32) (x : Queue), epServes s ep = true ∧ memOn s ep = true ∧ s.glb.mode ≠
      .failstop ∧ s.glb.fw = true ∧ queueOf s (.ring ep q) = some x ∧ x.tags.length = 32 ∧ x.st = .active ∧ (∀ y ∈ x.tags,
      y.st = .free) ∧ stagedHi s ep (0x1000010 + 0x1000 * q) 0 = w ∧ w ≠ 0) ∧
    (∃ (s : State) (ep : Nat) (q : Nat) (x : Queue), powered s = true ∧ queueOf s (.ring ep q) = some x ∧ 0 < x.unsignalled ∧
      x.coalTime ≠ 0 ∧ x.unsigAt + 1000 * x.coalTime ≤ now s) ∧
    (∃ (s : State) (ep : Nat) (w : BitVec 32) (a : AdminCtl), epServes s ep = true ∧ memOn s ep = true ∧ hostWriteOk s 0x05 =
      true ∧ s.dcq.adm[ep]? = some a ∧ a.enable = false ∧ a.sq.toNat % 2048 = 0 ∧ a.cq.toNat % 4096 = 0 ∧ 5 ≤ fld w 8 4 ∧ fld
      w 8 4 ≤ 12) ∧
    (∃ (s : State) (ep : Nat) (w : BitVec 32) (a : AdminCtl), epServes s ep = true ∧ memOn s ep = true ∧ hostWriteOk s 0x05 =
      true ∧ s.dcq.adm[ep]? = some a ∧ a.enable = false ∧ (a.sq.toNat % 2048 ≠ 0 ∨ a.cq.toNat % 4096 ≠ 0 ∨ fld w 8 4 < 5 ∨ 12
      < fld w 8 4)) ∧
    (∃ (s : State) (ep : Nat) (w : BitVec 32) (a : AdminCtl), epServes s ep = true ∧ memOn s ep = true ∧ hostWriteOk s 0x05 =
      true ∧ s.dcq.adm[ep]? = some a) :=
  ⟨⟨{ live with dcq.queues := [ring1] }, 0, 1, 0x80000005, ring1, by decide⟩,
    ⟨live, 0, 9, 1, by decide⟩,
    ⟨{ live with dcq.queues := [{ ring1 with st := .deleting }] }, 0, 1, 1, { ring1 with st := .deleting }, by decide⟩,
    ⟨{ live with dcq.queues := [{ ring1 with tags := List.replicate 32 { Tag.reset with st := .ready, asked := true } }] }, 0,
      1, 0x80000005, { ring1 with tags := List.replicate 32 { Tag.reset with st := .ready, asked := true } }, by decide⟩,
   
      ⟨{ live with dcq.queues := [{ ring1 with tags := List.replicate 32 { Tag.reset with st := .fetched } }], dcq.cmds := [{ Cmd.reset with q := .ring 0 1, tag := 5 }] },
      0, 1, 5, { ring1 with tags := List.replicate 32 { Tag.reset with st := .fetched } },
      { Cmd.reset with q := .ring 0 1, tag := 5 }, by decide⟩,
    ⟨{ live with dcq.queues := [{ ring1 with head := 30, unread := 5 }] }, 0, 1, 2, { ring1 with head := 30, unread := 5 }, by
      decide⟩,
    ⟨{ live with dcq.queues := [ring1] }, 0, 1, 32, ring1, by decide⟩,
    ⟨{ live with dcq.queues := [ring1], hostStage := [(0, 0x1001010, 9)] }, 0, 1, 9, ring1, by decide⟩,
    ⟨{ live with dcq.queues := [{ ring1 with unsignalled := 2, coalTime := 7 }], lds.deviceTime := 7000 }, 0, 1,
      { ring1 with unsignalled := 2, coalTime := 7 }, by decide⟩,
    ⟨live, 0, 0x500, AdminCtl.reset, by decide⟩,
    ⟨live, 0, 0xD00, AdminCtl.reset, by decide⟩,
    ⟨{ live with dcq.queues := [{ ring1 with id := .ring 0 0 }], dcq.cmds := [Cmd.reset], dcq.async := [(.ring 0 0, 3)] }, 0,
      0x700, AdminCtl.reset, by decide⟩⟩

/-- States and operands that meet the hypotheses of CommandsAreChecked, clause by clause. -/
theorem witness_CommandsAreChecked :
    (∃ (s : State) (q : QueueId) (tag : Nat) (words : List (BitVec 32)) (plist : Option (List (BitVec 64))), fetchable s q tag
      = true ∧ cmdOpcode (fetchedAs q tag words s) = 0x02 ∧ abortWaits s q tag = true) ∧
    (∃ (s : State) (q : QueueId) (tag : Nat) (words : List (BitVec 32)) (plist : Option (List (BitVec 64))), startsNow 0x02 q
      tag words s = true ∧ firstChecks (afterFetch q tag words s) (fetchedAs q tag words s) ≠ 0) ∧
    (∃ (s : State) (q : QueueId) (tag : Nat) (words : List (BitVec 32)) (k : Nat), startsNow 0x07 q tag words s = true ∧
      firstChecks (afterFetch q tag words s) (fetchedAs q tag words s) = 0 ∧ dlist (fetchedAs q tag words s) = false ∧
      s.glb.mode ≠ .maintenance ∧ owns s (cmdVolume (fetchedAs q tag words s)) = true ∧ laterChecks (setCmdState (fetchedAs q
      tag words s) (fun c => { c with plist := [] }) (afterFetch q tag words s)) (fetchedAs q tag words s) (chanTenant s q) =
      k ∧ k ≠ 0 ∧ k ≠ stRetained) ∧
    (∃ (s : State) (q : QueueId) (tag : Nat) (words : List (BitVec 32)), startsNow 0x03 q tag words s = true ∧ firstChecks
      (afterFetch q tag words s) (fetchedAs q tag words s) = 0 ∧ dlist (fetchedAs q tag words s) = false ∧
      s.xhl.moving.contains (cmdVolume (fetchedAs q tag words s)) = false ∧ (s.glb.mode = .maintenance ∨ owns s (cmdVolume
      (fetchedAs q tag words s)) = false) ∧ (s.xhl.link = 2 ∨ s.xhl.link = 3)) ∧
    (∃ (s : State) (ep : Nat) (n : Nat) (tag : Nat) (words : List (BitVec 32)) (x : Queue), runsHere 0x03 (.ring ep n) tag
      words s = true ∧ committedUpTo s (cmdVolume (fetchedAs (.ring ep n) tag words s)) s.wlg.lsn = true ∧ queueOf s (.ring ep
      n) = some x ∧ canPost s x = true ∧ x.waiting = []) ∧
    (∃ (s : State) (ep : Nat) (n : Nat) (tag : Nat) (kind : ReadError) (addr : BitVec 64) (c : Cmd), alive s = true ∧ queueOf
      s (.ring ep n) ≠ none ∧ cmdOf s (.ring ep n) tag = some c ∧ c.st = .transfer) ∧
    (∃ (s : State) (ep : Nat) (n : Nat) (tag : Nat) (kind : ReadError) (addr : BitVec 64) (x : Queue), alive s = true ∧
      queueOf s (.ring ep n) = some x ∧ x.closer = none ∧ x.tags.length = 32 ∧ (x.tags.getD tag Tag.reset).st = .ready ∧
      (x.tags.getD tag Tag.reset).asked = true ∧ x.st = .active) ∧
    (∃ (s : State) (ep : Nat) (n : Nat) (kind : ReadError) (addr : BitVec 64) (x : Queue), alive s = true ∧ queueOf s (.ring
      ep n) = some x ∧ x.closer = none ∧ (x.st = .active ∨ x.st = .frozen)) ∧
    (∃ (s : State) (q : QueueId) (tag : Nat) (gen : Nat) (media : List StoredRead) (c : Cmd), alive s = true ∧ cmdOf s q tag =
      some c ∧ tagMatches s q tag gen = true ∧ c.st = .started ∧ mayStart s c = true) :=
 
      ⟨⟨{ liveCmd 1 with dcq.queues := [{ ring1 with tags := { Tag.reset with st := .ready, abort := true, asked := true } :: List.replicate 31 Tag.reset }] },
      .ring 0 1, 0, slot 2 0 1 2 0 8 0 0 0 [], none, by decide⟩,
    ⟨liveCmd 1, .ring 0 1, 0, slot 2 0 1 2 0 0 0 0 0 [], none, by decide⟩,
    ⟨{ liveCmd 1 with lds.civilValid := true, red.volumes := [{ vol1 with tenant := 3 }] }, .ring 0 1, 0, slot 7 0 1 2 0 8 0 0
      0 [500000, 0], stTenantMismatch, by decide⟩,
    ⟨{ liveCmd 1 with xhl.owned := [], xhl.link := 2 }, .ring 0 1, 0, slot 3 0 1 2 0 0 0 0 0 [], by decide⟩,
   
      ⟨{ liveCmd 1 with dcq.queues := [{ ring1 with cq := 0x1000, next := 31, tags := { Tag.reset with st := .ready, asked := true } :: List.replicate 31 Tag.reset }] },
      0, 1, 0, slot 3 0 1 2 0 0 0 0 0 [],
      { ring1 with cq := 0x1000, next := 31, tags := { Tag.reset with st := .ready, asked := true } :: List.replicate 31 Tag.reset },
      by decide⟩,
    ⟨{ liveCmd 1 with dcq.cmds := [{ Cmd.reset with q := .ring 0 1, tag := 2, st := .transfer }] }, 0, 1, 2, .completerAbort,
      0x88, { Cmd.reset with q := .ring 0 1, tag := 2, st := .transfer }, by decide⟩,
    ⟨{ liveCmd 1 with glb.fw := true }, 0, 1, 0, .completerAbort, 0x88,
      { ring1 with tags := { Tag.reset with st := .ready, asked := true } :: List.replicate 31 Tag.reset }, by decide⟩,
    ⟨liveCmd 1, 0, 1, .completerAbort, 0x88,
      { ring1 with tags := { Tag.reset with st := .ready, asked := true } :: List.replicate 31 Tag.reset }, by decide⟩,
    ⟨{ liveCmd 1 with dcq.cmds := [{ Cmd.reset with q := .ring 0 1, words := slot 3 1 1 2 0 0 0 0 0 [] }] }, .ring 0 1, 0, 0,
      [], { Cmd.reset with q := .ring 0 1, words := slot 3 1 1 2 0 0 0 0 0 [] }, by decide⟩⟩

/-- States and operands that meet the hypotheses of DataCommandsRun, clause by clause. -/
theorem witness_DataCommandsRun :
    (∃ (s : State) (q : QueueId) (tag : Nat) (words : List (BitVec 32)) (plist : Option (List (BitVec 64))) (media : List
      StoredRead) (c : Cmd) (l : List SectorRead) (u : State), runsHere 0x01 q tag words s = true ∧ fetchedAs q tag words s =
      c ∧ readRange (cmdVolume c) (cmdSnap c) (cmdTenant c) (cmdLba c) (cmdCount c) media (begunState q tag words s) = (l, u)
      ∧ (∀ r ∈ l, r.lost = false)) ∧
    (∃ (s : State) (q : QueueId) (tag : Nat) (words : List (BitVec 32)) (plist : Option (List (BitVec 64))) (media : List
      StoredRead) (c : Cmd) (l : List SectorRead) (u : State) (i : Nat), runsHere 0x01 q tag words s = true ∧ fetchedAs q tag
      words s = c ∧ readRange (cmdVolume c) (cmdSnap c) (cmdTenant c) (cmdLba c) (cmdCount c) media (begunState q tag words s)
      = (l, u) ∧ (l[i]?).any (·.lost) = true ∧ (∀ r ∈ l.take i, r.lost = false)) ∧
    (∃ (s : State) (q : QueueId) (tag : Nat) (words : List (BitVec 32)) (plist : Option (List (BitVec 64))) (c : Cmd),
      runsHere 0x02 q tag words s = true ∧ fetchedAs q tag words s = c ∧ s.wlg.holds = [] ∧ fits s (frameCount (cmdLba c)
      (cmdCount c)) = true) ∧
    (∃ (s : State) (q : QueueId) (tag : Nat) (words : List (BitVec 32)) (plist : Option (List (BitVec 64))) (c : Cmd),
      runsHere 0x02 q tag words s = true ∧ fetchedAs q tag words s = c ∧ (s.wlg.holds ≠ [] ∨ fits s (frameCount (cmdLba c)
      (cmdCount c)) = false)) ∧
    (∃ (s : State) (q : QueueId) (tag : Nat) (words : List (BitVec 32)), runsHere 0x03 q tag words s = true ∧ committedUpTo s
      (cmdVolume (fetchedAs q tag words s)) s.wlg.lsn = true) ∧
    (∃ (s : State) (q : QueueId) (tag : Nat) (words : List (BitVec 32)), runsHere 0x03 q tag words s = true ∧ committedUpTo s
      (cmdVolume (fetchedAs q tag words s)) s.wlg.lsn = false) ∧
    (∃ (s : State) (q : QueueId) (tag : Nat) (words : List (BitVec 32)) (c : Cmd), runsHere 0x04 q tag words s = true ∧
      fetchedAs q tag words s = c ∧ (∀ k ∈ pendingCut s (cmdVolume c), s.wlg.lsn ≤ k)) ∧
    (∃ (s : State) (q : QueueId) (tag : Nat) (words : List (BitVec 32)) (k : Nat), runsHere 0x04 q tag words s = true ∧
      pendingCut s (cmdVolume (fetchedAs q tag words s)) = some k ∧ k < s.wlg.lsn) ∧
    (∃ (s : State) (q : QueueId) (tag : Nat) (words : List (BitVec 32)) (media : List StoredRead) (c : Cmd) (l : List
      SectorRead) (u : State), runsHere 0x06 q tag words s = true ∧ fetchedAs q tag words s = c ∧ s.dig.st = .idle ∧ readRange
      (cmdVolume c) (cmdSnap c) (cmdTenant c) (cmdLba c) (cmdCount c) media (begunState q tag words s) = (l, u) ∧ (∀ r ∈ l,
      r.lost = false)) ∧
    (∃ (s : State) (q : QueueId) (tag : Nat) (words : List (BitVec 32)) (media : List StoredRead), runsHere 0x06 q tag words s
      = true ∧ s.dig.st ≠ .idle ∧ (s.dig.st ≠ .busy ∨ s.dig.cmd.isSome = true ∨ s.dig.startAt ≠ some (now s))) ∧
    (∃ (s : State) (q : QueueId) (tag : Nat) (words : List (BitVec 32)) (media : List StoredRead) (c : Cmd) (l : List
      SectorRead) (u : State), runsHere 0x06 q tag words s = true ∧ fetchedAs q tag words s = c ∧ s.dig.st = .busy ∧ s.dig.cmd
      = none ∧ s.dig.startAt = some (now s) ∧ readRange (cmdVolume c) (cmdSnap c) (cmdTenant c) (cmdLba c) (cmdCount c) media
      { begunState q tag words s with dig.refused := true } = (l, u) ∧ (∀ r ∈ l, r.lost = false)) ∧
    (∃ (s : State) (q : QueueId) (tag : Nat) (words : List (BitVec 32)) (c : Cmd) (x : Volume), runsHere 0x0B q tag words s =
      true ∧ fetchedAs q tag words s = c ∧ volOf s (cmdVolume c) = some x) :=
  ⟨⟨liveRead, .ring 0 1, 0, slot 1 0 1 2 0 1 0 0x1000 0x2000 [], none, [], fetchedAs (.ring 0 1) 0 (slot 1 0 1 2 0 1 0 0x1000
      0x2000 []) liveRead, (readRange (cmdVolume (fetchedAs (.ring 0 1) 0 (slot 1 0 1 2 0 1 0 0x1000 0x2000 []) liveRead))
      (cmdSnap (fetchedAs (.ring 0 1) 0 (slot 1 0 1 2 0 1 0 0x1000 0x2000 []) liveRead)) (cmdTenant (fetchedAs (.ring 0 1) 0
      (slot 1 0 1 2 0 1 0 0x1000 0x2000 []) liveRead)) (cmdLba (fetchedAs (.ring 0 1) 0 (slot 1 0 1 2 0 1 0 0x1000 0x2000 [])
      liveRead)) (cmdCount (fetchedAs (.ring 0 1) 0 (slot 1 0 1 2 0 1 0 0x1000 0x2000 []) liveRead)) [] (begunState (.ring 0
      1) 0 (slot 1 0 1 2 0 1 0 0x1000 0x2000 []) liveRead)).1, _, by decide, by decide, pair_eta _, by decide +kernel⟩,
   
      ⟨{ liveCmd 1 with red.volumes := [{ vol1 with table := [(0, 7)] }], red.pages := [{ MapPage.reset with id := 7, entries := [{ MapEntry.reset with method := .raw, grains := 129, lsn := 5 }] }] },
      .ring 0 1, 0, slot 1 0 1 2 0 1 0 0x1000 0x2000 [], none, [], fetchedAs (.ring 0 1) 0 (slot 1 0 1 2 0 1 0 0x1000 0x2000
      [])
      ({ liveCmd 1 with red.volumes := [{ vol1 with table := [(0, 7)] }], red.pages := [{ MapPage.reset with id := 7, entries := [{ MapEntry.reset with method := .raw, grains := 129, lsn := 5 }] }] }),
      (readRange (cmdVolume (fetchedAs (.ring 0 1) 0 (slot 1 0 1 2 0 1 0 0x1000 0x2000 [])
      ({ liveCmd 1 with red.volumes := [{ vol1 with table := [(0, 7)] }], red.pages := [{ MapPage.reset with id := 7, entries := [{ MapEntry.reset with method := .raw, grains := 129, lsn := 5 }] }] })))
      (cmdSnap (fetchedAs (.ring 0 1) 0 (slot 1 0 1 2 0 1 0 0x1000 0x2000 [])
      ({ liveCmd 1 with red.volumes := [{ vol1 with table := [(0, 7)] }], red.pages := [{ MapPage.reset with id := 7, entries := [{ MapEntry.reset with method := .raw, grains := 129, lsn := 5 }] }] })))
      (cmdTenant (fetchedAs (.ring 0 1) 0 (slot 1 0 1 2 0 1 0 0x1000 0x2000 [])
      ({ liveCmd 1 with red.volumes := [{ vol1 with table := [(0, 7)] }], red.pages := [{ MapPage.reset with id := 7, entries := [{ MapEntry.reset with method := .raw, grains := 129, lsn := 5 }] }] })))
      (cmdLba (fetchedAs (.ring 0 1) 0 (slot 1 0 1 2 0 1 0 0x1000 0x2000 [])
      ({ liveCmd 1 with red.volumes := [{ vol1 with table := [(0, 7)] }], red.pages := [{ MapPage.reset with id := 7, entries := [{ MapEntry.reset with method := .raw, grains := 129, lsn := 5 }] }] })))
      (cmdCount (fetchedAs (.ring 0 1) 0 (slot 1 0 1 2 0 1 0 0x1000 0x2000 [])
      ({ liveCmd 1 with red.volumes := [{ vol1 with table := [(0, 7)] }], red.pages := [{ MapPage.reset with id := 7, entries := [{ MapEntry.reset with method := .raw, grains := 129, lsn := 5 }] }] })))
      [] (begunState (.ring 0 1) 0 (slot 1 0 1 2 0 1 0 0x1000 0x2000 [])
      ({ liveCmd 1 with red.volumes := [{ vol1 with table := [(0, 7)] }], red.pages := [{ MapPage.reset with id := 7, entries := [{ MapEntry.reset with method := .raw, grains := 129, lsn := 5 }] }] }))).1,
      _, 0, by decide, by decide, pair_eta _, by decide, by decide⟩,
    ⟨{ liveCmd 1 with wlg.mirror := 3, wlg.gib := 1, xhl.owned := [1] }, .ring 0 1, 0, slot 2 0 1 2 7 8 0 0x1000 0x2000 [],
      none, fetchedAs (.ring 0 1) 0 (slot 2 0 1 2 7 8 0 0x1000 0x2000 [])
      ({ liveCmd 1 with wlg.mirror := 3, wlg.gib := 1, xhl.owned := [1] }), by decide⟩,
    ⟨{ liveCmd 1 with wlg.mirror := 3, wlg.gib := 0 }, .ring 0 1, 0, slot 2 0 1 2 7 8 0 0x1000 0x2000 [], none, fetchedAs
      (.ring 0 1) 0 (slot 2 0 1 2 7 8 0 0x1000 0x2000 []) ({ liveCmd 1 with wlg.mirror := 3, wlg.gib := 0 }), by decide⟩,
    ⟨liveCmd 1, .ring 0 1, 0, slot 3 0 1 2 0 0 0 0 0 [], by decide⟩,
    ⟨{ liveCmd 1 with wlg.lsn := 9, wlg.frames := [{ Frame.reset with volume := 1, lsn := 9, st := .logged }] }, .ring 0 1, 0,
      slot 3 0 1 2 0 0 0 0 0 [], by decide⟩,
   
      ⟨{ liveCmd 1 with red.volumes := [{ vol1 with table := [(0, 7)] }], red.pages := [{ MapPage.reset with id := 7, entries := [{ MapEntry.reset with chunk := 1, lsn := 5 }] }] },
      .ring 0 1, 0, slot 4 0 1 2 3 20 0 0 0 [], fetchedAs (.ring 0 1) 0 (slot 4 0 1 2 3 20 0 0 0 [])
      ({ liveCmd 1 with red.volumes := [{ vol1 with table := [(0, 7)] }], red.pages := [{ MapPage.reset with id := 7, entries := [{ MapEntry.reset with chunk := 1, lsn := 5 }] }] }),
      by decide⟩,
    ⟨{ liveCmd 1 with wlg.lsn := 4, red.volumes := [{ vol1 with snaps := [{ Snapshot.reset with num := 1, cut := 3 }] }] },
      .ring 0 1, 0, slot 4 0 1 2 3 20 0 0 0 [], 3, by decide⟩,
    ⟨liveRead, .ring 0 1, 0, slot 6 0 1 2 0 1 0 0x1000 0 [1], [], fetchedAs (.ring 0 1) 0 (slot 6 0 1 2 0 1 0 0x1000 0 [1])
      liveRead, (readRange (cmdVolume (fetchedAs (.ring 0 1) 0 (slot 6 0 1 2 0 1 0 0x1000 0 [1]) liveRead)) (cmdSnap
      (fetchedAs (.ring 0 1) 0 (slot 6 0 1 2 0 1 0 0x1000 0 [1]) liveRead)) (cmdTenant (fetchedAs (.ring 0 1) 0 (slot 6 0 1 2
      0 1 0 0x1000 0 [1]) liveRead)) (cmdLba (fetchedAs (.ring 0 1) 0 (slot 6 0 1 2 0 1 0 0x1000 0 [1]) liveRead)) (cmdCount
      (fetchedAs (.ring 0 1) 0 (slot 6 0 1 2 0 1 0 0x1000 0 [1]) liveRead)) [] (begunState (.ring 0 1) 0 (slot 6 0 1 2 0 1 0
      0x1000 0 [1]) liveRead)).1, _, by decide, by decide, by decide, pair_eta _, by decide +kernel⟩,
    ⟨{ liveCmd 1 with dig.st := .done }, .ring 0 1, 0, slot 6 0 1 2 0 1 0 0x1000 0 [1], [], by decide⟩,
    ⟨{ liveRead with dig.st := .busy, dig.startAt := some 0 }, .ring 0 1, 0, slot 6 0 1 2 0 1 0 0x1000 0 [1], [], fetchedAs
      (.ring 0 1) 0 (slot 6 0 1 2 0 1 0 0x1000 0 [1]) ({ liveRead with dig.st := .busy, dig.startAt := some 0 }), (readRange
      (cmdVolume (fetchedAs (.ring 0 1) 0 (slot 6 0 1 2 0 1 0 0x1000 0 [1])
      ({ liveRead with dig.st := .busy, dig.startAt := some 0 }))) (cmdSnap (fetchedAs (.ring 0 1) 0 (slot 6 0 1 2 0 1 0
      0x1000 0 [1]) ({ liveRead with dig.st := .busy, dig.startAt := some 0 }))) (cmdTenant (fetchedAs (.ring 0 1) 0 (slot 6 0
      1 2 0 1 0 0x1000 0 [1]) ({ liveRead with dig.st := .busy, dig.startAt := some 0 }))) (cmdLba (fetchedAs (.ring 0 1) 0
      (slot 6 0 1 2 0 1 0 0x1000 0 [1]) ({ liveRead with dig.st := .busy, dig.startAt := some 0 }))) (cmdCount (fetchedAs
      (.ring 0 1) 0 (slot 6 0 1 2 0 1 0 0x1000 0 [1]) ({ liveRead with dig.st := .busy, dig.startAt := some 0 }))) []
      { begunState (.ring 0 1) 0 (slot 6 0 1 2 0 1 0 0x1000 0 [1]) ({ liveRead with dig.st := .busy, dig.startAt := some 0 }) with dig.refused := true }).1,
      _, by decide, by decide, by decide, by decide, by decide, pair_eta _, by decide +kernel⟩,
    ⟨liveCmd 1, .ring 0 1, 0, slot 11 0 1 2 0 0 0 0x1000 0 [5, 0], fetchedAs (.ring 0 1) 0 (slot 11 0 1 2 0 0 0 0x1000 0 [5,
      0]) (liveCmd 1), vol1, by decide⟩⟩

/-- States and operands that meet the hypotheses of VolumeCommandsRun, clause by clause. -/
theorem witness_VolumeCommandsRun :
    (∃ (s : State) (q : QueueId) (tag : Nat) (words : List (BitVec 32)) (c : Cmd) (x : Volume), runsHere 0x05 q tag words s =
      true ∧ fetchedAs q tag words s = c ∧ cmdAt c 42 1 = 0 ∧ cmdCount c ≠ 0 ∧ volOf s (cmdVolume c) = some x) ∧
    (∃ (s : State) (q : QueueId) (tag : Nat) (words : List (BitVec 32)) (c : Cmd) (x : Volume), runsHere 0x05 q tag words s =
      true ∧ fetchedAs q tag words s = c ∧ cmdAt c 42 1 = 1 ∧ cmdCount c ≠ 0 ∧ volOf s (cmdVolume c) = some x) ∧
    (∃ (s : State) (q : QueueId) (tag : Nat) (words : List (BitVec 32)) (c : Cmd) (x : Volume), runsHere 0x05 q tag words s =
      true ∧ fetchedAs q tag words s = c ∧ cmdAt c 42 1 = 1 ∧ cmdCount c = 0 ∧ volOf s (cmdVolume c) = some x) ∧
    (∃ (s : State) (q : QueueId) (tag : Nat) (words : List (BitVec 32)) (c : Cmd) (x : Volume), runsHere 0x05 q tag words s =
      true ∧ fetchedAs q tag words s = c ∧ cmdAt c 42 1 = 0 ∧ cmdCount c = 0 ∧ volOf s (cmdVolume c) = some x) ∧
    (∃ (s : State) (q : QueueId) (tag : Nat) (words : List (BitVec 32)) (c : Cmd) (x : Volume) (m : Lock) (rest : List Lock),
      runsHere 0x07 q tag words s = true ∧ fetchedAs q tag words s = c ∧ volOf s (cmdVolume c) = some x ∧ mergeLock
      { lba := cmdLba c, count := retainCount x c, expiry := cmdTime c 40, placed := civilNow s } x.locks = (m, rest) ∧
      rest.length + 1 ≤ 1024 ∧ s.red.volumes.foldl (fun n y => if y.num = x.num then n else n + y.locks.length) 0 +
      rest.length + 1 ≤ 262144) ∧
    (∃ (s : State) (q : QueueId) (tag : Nat) (words : List (BitVec 32)) (c : Cmd) (x : Volume) (n : Nat), runsHere 0x08 q tag
      words s = true ∧ fetchedAs q tag words s = c ∧ volOf s (cmdVolume c) = some x ∧ freeSnap x = some n) ∧
    (∃ (s : State) (q : QueueId) (tag : Nat) (words : List (BitVec 32)) (c : Cmd) (x : Volume) (p : Snapshot), runsHere 0x09 q
      tag words s = true ∧ fetchedAs q tag words s = c ∧ volOf s (cmdVolume c) = some x ∧ snapOf x (cmdSnap c) = some p ∧
      s.red.volumes.length < 65536) ∧
    (∃ (s : State) (q : QueueId) (tag : Nat) (words : List (BitVec 32)) (c : Cmd) (x : Volume), runsHere 0x0A q tag words s =
      true ∧ fetchedAs q tag words s = c ∧ volOf s (cmdVolume c) = some x) :=
  ⟨⟨{ liveCmd 1 with red.volumes := [{ vol1 with transient := [{ RangeHint.reset with lba := 0, count := 100 }] }] }, .ring 0
      1, 0, slot 5 0 1 2 8 10 0 0 0 [0x0108, 64], fetchedAs (.ring 0 1) 0 (slot 5 0 1 2 8 10 0 0 0 [0x0108, 64])
      ({ liveCmd 1 with red.volumes := [{ vol1 with transient := [{ RangeHint.reset with lba := 0, count := 100 }] }] }),
      { vol1 with transient := [{ RangeHint.reset with lba := 0, count := 100 }] }, by decide⟩,
    ⟨liveCmd 1, .ring 0 1, 0, slot 5 0 1 2 8 10 0 0 0 [0x010108, 64], fetchedAs (.ring 0 1) 0 (slot 5 0 1 2 8 10 0 0 0
      [0x010108, 64]) (liveCmd 1), vol1, by decide⟩,
    ⟨liveCmd 1, .ring 0 1, 0, slot 5 0 1 2 0 0 0 0 0 [0x010210, 64], fetchedAs (.ring 0 1) 0 (slot 5 0 1 2 0 0 0 0 0
      [0x010210, 64]) (liveCmd 1), vol1, by decide⟩,
    ⟨liveCmd 1, .ring 0 1, 0, slot 5 0 1 2 0 0 0 0 0 [0x0210, 64], fetchedAs (.ring 0 1) 0 (slot 5 0 1 2 0 0 0 0 0 [0x0210,
      64]) (liveCmd 1), vol1, by decide⟩,
   
      ⟨{ liveCmd 1 with lds.civilValid := true, red.volumes := [{ vol1 with locks := [{ Lock.reset with lba := 8, count := 8, expiry := 500000, placed := -4 }] }] },
      .ring 0 1, 0, slot 7 0 1 2 0 8 0 0 0 [500000, 0], fetchedAs (.ring 0 1) 0 (slot 7 0 1 2 0 8 0 0 0 [500000, 0])
      ({ liveCmd 1 with lds.civilValid := true, red.volumes := [{ vol1 with locks := [{ Lock.reset with lba := 8, count := 8, expiry := 500000, placed := -4 }] }] }),
      { vol1 with locks := [{ Lock.reset with lba := 8, count := 8, expiry := 500000, placed := -4 }] },
      { lba := 0, count := 16, expiry := 500000, placed := -4 }, [], by decide⟩,
   
      ⟨{ liveCmd 1 with red.volumes := [{ vol1 with snaps := [{ Snapshot.reset with num := 1 }] }], wlg.frames := [{ Frame.reset with volume := 1, lsn := 77, st := .logged }] },
      .ring 0 1, 0, slot 8 0 1 2 0 0 0 0 0 [], fetchedAs (.ring 0 1) 0 (slot 8 0 1 2 0 0 0 0 0 [])
      ({ liveCmd 1 with red.volumes := [{ vol1 with snaps := [{ Snapshot.reset with num := 1 }] }], wlg.frames := [{ Frame.reset with volume := 1, lsn := 77, st := .logged }] }),
      { vol1 with snaps := [{ Snapshot.reset with num := 1 }] }, 2, by decide⟩,
   
      ⟨{ liveCmd 1 with red.volumes := [{ vol1 with snaps := [{ Snapshot.reset with num := 4, listed := true, table := [(0, 7)] }] }] },
      .ring 0 1, 0, slot 9 0 1 2 0 0 4 0 0 [33], fetchedAs (.ring 0 1) 0 (slot 9 0 1 2 0 0 4 0 0 [33])
      ({ liveCmd 1 with red.volumes := [{ vol1 with snaps := [{ Snapshot.reset with num := 4, listed := true, table := [(0, 7)] }] }] }),
      { vol1 with snaps := [{ Snapshot.reset with num := 4, listed := true, table := [(0, 7)] }] },
      { Snapshot.reset with num := 4, listed := true, table := [(0, 7)] }, by decide⟩,
   
      ⟨{ liveCmd 1 with red.volumes := [{ vol1 with snaps := [{ Snapshot.reset with num := 4, listed := true, table := [(0, 7)] }] }] },
      .ring 0 1, 0, slot 10 0 1 2 0 0 4 0 0 [], fetchedAs (.ring 0 1) 0 (slot 10 0 1 2 0 0 4 0 0 [])
      ({ liveCmd 1 with red.volumes := [{ vol1 with snaps := [{ Snapshot.reset with num := 4, listed := true, table := [(0, 7)] }] }] }),
      { vol1 with snaps := [{ Snapshot.reset with num := 4, listed := true, table := [(0, 7)] }] }, by decide⟩⟩

/-- States and operands that meet the hypotheses of QueueCommandsRun, clause by clause. -/
theorem witness_QueueCommandsRun :
    (∃ (s : State) (ep : Nat) (tag : Nat) (words : List (BitVec 32)) (c : Cmd), runsHere 0x81 (.ring ep 0) tag words s = true
      ∧ fetchedAs (.ring ep 0) tag words s = c ∧ queueOf s (.ring ep (cmdAt c 40 2)) = none) ∧
    (∃ (s : State) (ep : Nat) (tag : Nat) (words : List (BitVec 32)), runsHere 0x81 (.ring ep 0) tag words s = true ∧ cmdAt
      (fetchedAs (.ring ep 0) tag words s) 40 2 ≠ 0 ∧ queueOf s (.ring ep (cmdAt (fetchedAs (.ring ep 0) tag words s) 40 2)) ≠
      none) ∧
    (∃ (s : State) (ep : Nat) (tag : Nat) (words : List (BitVec 32)) (c : Cmd) (x : Queue), runsHere 0x82 (.ring ep 0) tag
      words s = true ∧ fetchedAs (.ring ep 0) tag words s = c ∧ queueOf s (.ring ep (cmdAt c 40 2)) = some x ∧ x.st ≠
      .deleting ∧ x.closer = none ∧ (∀ y ∈ x.tags, y.st = .free)) ∧
    (∃ (s : State) (ep : Nat) (tag : Nat) (words : List (BitVec 32)) (c : Cmd) (x : Queue), runsHere 0x82 (.ring ep 0) tag
      words s = true ∧ fetchedAs (.ring ep 0) tag words s = c ∧ queueOf s (.ring ep (cmdAt c 40 2)) = some x ∧ x.st ≠
      .deleting ∧ x.closer = none ∧ x.ringBad = false ∧ (∃ y ∈ x.tags, y.st = .fetched) ∧ (∀ y ∈ x.tags, y.st ≠ .ready)) ∧
    (∃ (s : State) (ep : Nat) (tag : Nat) (words : List (BitVec 32)) (c : Cmd) (x : Queue), runsHere 0x83 (.ring ep 0) tag
      words s = true ∧ fetchedAs (.ring ep 0) tag words s = c ∧ cmdAt c 40 2 ≠ 0 ∧ queueOf s (.ring ep (cmdAt c 40 2)) = some
      x ∧ x.st = .frozen ∧ x.closer = none ∧ (∀ y ∈ s.dcq.cmds, y.q = .ring ep (cmdAt c 40 2) → y.remote = true)) ∧
    (∃ (s : State) (ep : Nat) (tag : Nat) (words : List (BitVec 32)) (c : Cmd) (x : Queue), runsHere 0x83 (.ring ep 0) tag
      words s = true ∧ fetchedAs (.ring ep 0) tag words s = c ∧ cmdAt c 40 2 ≠ 0 ∧ queueOf s (.ring ep (cmdAt c 40 2)) = some
      x ∧ x.st ≠ .frozen) ∧
    (∃ (s : State) (ep : Nat) (tag : Nat) (words : List (BitVec 32)), runsHere 0x89 (.ring ep 0) tag words s = true ∧
      s.dcq.events = []) ∧
    (∃ (s : State) (ep : Nat) (tag : Nat) (words : List (BitVec 32)) (e : AsyncEvent) (r : List AsyncEvent), runsHere 0x89
      (.ring ep 0) tag words s = true ∧ s.dcq.events = e :: r) ∧
    (∃ (s : State) (ep : Nat) (tag : Nat) (words : List (BitVec 32)) (c : Cmd), runsHere 0x8A (.ring ep 0) tag words s = true
      ∧ fetchedAs (.ring ep 0) tag words s = c) ∧
    (∃ (s : State) (ep : Nat) (tag : Nat) (words : List (BitVec 32)) (c : Cmd) (m : Nat), runsHere 0x88 (.ring ep 0) tag words
      s = true ∧ fetchedAs (.ring ep 0) tag words s = c ∧ cmdAt c 48 1 = m) ∧
    (∃ (s : State), powered s = true ∧ (s.dcq.hintTime.any fun t => decide (t ≤ civilNow s)) = true) :=
  ⟨⟨liveCmd 0, 0, 0, slot 0x81 0 0 0 0 0 0 0x800 0x1000 [0x01050007, 9], fetchedAs (.ring 0 0) 0 (slot 0x81 0 0 0 0 0 0 0x800
      0x1000 [0x01050007, 9]) (liveCmd 0), by decide⟩,
    ⟨{ liveCmd 0 with dcq.queues := (liveCmd 0).dcq.queues ++ [{ ring1 with id := .ring 0 7 }] }, 0, 0, slot 0x81 0 0 0 0 0 0
      0x800 0x1000 [0x01050007, 9], by decide⟩,
    ⟨{ liveCmd 0 with dcq.queues := (liveCmd 0).dcq.queues ++ [{ ring1 with id := .ring 0 7 }] }, 0, 0, slot 0x82 0 0 0 0 0 0
      0 0 [7], fetchedAs (.ring 0 0) 0 (slot 0x82 0 0 0 0 0 0 0 0 [7])
      ({ liveCmd 0 with dcq.queues := (liveCmd 0).dcq.queues ++ [{ ring1 with id := .ring 0 7 }] }),
      { ring1 with id := .ring 0 7 }, by decide⟩,
   
      ⟨{ liveCmd 0 with dcq.queues := (liveCmd 0).dcq.queues ++ [{ ring1 with id := .ring 0 7, tags := [{ Tag.reset with st := .fetched }] }] },
      0, 0, slot 0x82 0 0 0 0 0 0 0 0 [7], fetchedAs (.ring 0 0) 0 (slot 0x82 0 0 0 0 0 0 0 0 [7])
      ({ liveCmd 0 with dcq.queues := (liveCmd 0).dcq.queues ++ [{ ring1 with id := .ring 0 7, tags := [{ Tag.reset with st := .fetched }] }] }),
      { ring1 with id := .ring 0 7, tags := [{ Tag.reset with st := .fetched }] }, by decide⟩,
   
      ⟨{ liveCmd 0 with dcq.queues := (liveCmd 0).dcq.queues ++ [{ ring1 with id := .ring 0 7, st := .frozen, next := 9, phase := false, head := 3, unread := 6, ringBad := true, waiting := [{ Cpl.reset with tag := 3 }] }] },
      0, 0, slot 0x83 0 0 0 0 0 0 0 0 [7], fetchedAs (.ring 0 0) 0 (slot 0x83 0 0 0 0 0 0 0 0 [7])
      ({ liveCmd 0 with dcq.queues := (liveCmd 0).dcq.queues ++ [{ ring1 with id := .ring 0 7, st := .frozen, next := 9, phase := false, head := 3, unread := 6, ringBad := true, waiting := [{ Cpl.reset with tag := 3 }] }] }),
      { ring1 with id := .ring 0 7, st := .frozen, next := 9, phase := false, head := 3, unread := 6, ringBad := true, waiting := [{ Cpl.reset with tag := 3 }] },
      by decide⟩,
    ⟨{ liveCmd 0 with dcq.queues := (liveCmd 0).dcq.queues ++ [{ ring1 with id := .ring 0 7 }] }, 0, 0, slot 0x83 0 0 0 0 0 0
      0 0 [7], fetchedAs (.ring 0 0) 0 (slot 0x83 0 0 0 0 0 0 0 0 [7])
      ({ liveCmd 0 with dcq.queues := (liveCmd 0).dcq.queues ++ [{ ring1 with id := .ring 0 7 }] }),
      { ring1 with id := .ring 0 7 }, by decide⟩,
    ⟨liveCmd 0, 0, 0, slot 0x89 0 0 0 0 0 0 0 0 [], by decide⟩,
    ⟨{ liveCmd 0 with dcq.events := [{ AsyncEvent.reset with code := 0x502, source := 3 }, AsyncEvent.reset] }, 0, 0, slot
      0x89 0 0 0 0 0 0 0 0 [], { AsyncEvent.reset with code := 0x502, source := 3 }, [AsyncEvent.reset], by decide⟩,
    ⟨liveCmd 0, 0, 0, slot 0x8A 0 0 0 0 0 0 0x1000 0 [], fetchedAs (.ring 0 0) 0 (slot 0x8A 0 0 0 0 0 0 0x1000 0 []) (liveCmd
      0), by decide⟩,
    ⟨liveCmd 0, 0, 0, slot 0x88 0 0 0 0 0 0 0 0 [500000, 0, 0x0005011F, 700], fetchedAs (.ring 0 0) 0 (slot 0x88 0 0 0 0 0 0 0
      0 [500000, 0, 0x0005011F, 700]) (liveCmd 0), 31, by decide⟩,
    ⟨{ live with dcq.hintTime := some (-3) }, by decide⟩⟩

/-- States and operands that meet the hypotheses of ObjectCommandsRun, clause by clause. -/
theorem witness_ObjectCommandsRun :
    (∃ (s : State) (q : QueueId) (tag : Nat) (words : List (BitVec 32)) (c : Cmd), runsHere 0x84 q tag words s = true ∧
      fetchedAs q tag words s = c ∧ s.red.volumes.length < 65536 ∧ (cmdAt c 50 1).testBit 1 = false) ∧
    (∃ (s : State) (q : QueueId) (tag : Nat) (words : List (BitVec 32)) (c : Cmd), runsHere 0x84 q tag words s = true ∧
      fetchedAs q tag words s = c ∧ s.red.volumes.length < 65536 ∧ (cmdAt c 50 1).testBit 1 = true ∧ (openSeedSpace (cmdTenant
      c) (askedGeometry s c).1 (askedGeometry s c).2 (begunState q tag words s)).isSome = true) ∧
    (∃ (s : State) (q : QueueId) (tag : Nat) (words : List (BitVec 32)) (c : Cmd) (x : Volume), runsHere 0x85 q tag words s =
      true ∧ fetchedAs q tag words s = c ∧ volOf s (cmdVolume c) = some x) ∧
    (∃ (s : State) (q : QueueId) (tag : Nat) (words : List (BitVec 32)) (c : Cmd), runsHere 0x86 q tag words s = true ∧
      fetchedAs q tag words s = c) ∧
    (∃ (s : State) (q : QueueId) (tag : Nat) (words : List (BitVec 32)) (c : Cmd), runsHere 0x87 q tag words s = true ∧
      fetchedAs q tag words s = c ∧ (cmdTime c 40 - civilNow s ≤ 1000000000 ∨ s.lds.armFwd = true)) ∧
    (∃ (s : State) (q : QueueId) (tag : Nat) (words : List (BitVec 32)) (c : Cmd), runsHere 0x87 q tag words s = true ∧
      fetchedAs q tag words s = c ∧ 1000000000 < cmdTime c 40 - civilNow s ∧ s.lds.armFwd = false) :=
  ⟨⟨(List.range 12).foldr (fun n v => { v with ecp.slots := v.ecp.slots.modify n fun x => { x with st := .member } })
      { liveCmd 0 with xhl.owned := [1, 5] }, .ring 0 0, 0, slot 0x84 0 5 3 0 0 0 0 0 [1000000, 0, 0x00010306], fetchedAs
      (.ring 0 0) 0 (slot 0x84 0 5 3 0 0 0 0 0 [1000000, 0, 0x00010306]) ((List.range 12).foldr (fun n v =>
      { v with ecp.slots := v.ecp.slots.modify n fun x => { x with st := .member } }) { liveCmd 0 with xhl.owned := [1, 5] }),
      by decide⟩,
    ⟨(List.range 12).foldr (fun n v => { v with ecp.slots := v.ecp.slots.modify n fun x => { x with st := .member } })
      { liveCmd 0 with xhl.owned := [1, 5] }, .ring 0 0, 0, slot 0x84 0 5 3 0 0 0 0 0 [1000000, 0, 0x00020306], fetchedAs
      (.ring 0 0) 0 (slot 0x84 0 5 3 0 0 0 0 0 [1000000, 0, 0x00020306]) ((List.range 12).foldr (fun n v =>
      { v with ecp.slots := v.ecp.slots.modify n fun x => { x with st := .member } }) { liveCmd 0 with xhl.owned := [1, 5] }),
      by decide⟩,
   
      ⟨{ liveCmd 0 with wlg.frames := [{ Frame.reset with volume := 1 }, { Frame.reset with volume := 2 }], wlg.jobs := [{ Job.reset with volume := 1, chunk := 3 }, { Job.reset with volume := 1, chunk := 3 }] },
      .ring 0 0, 0, slot 0x85 0 1 2 0 0 0 0 0 [], fetchedAs (.ring 0 0) 0 (slot 0x85 0 1 2 0 0 0 0 0 [])
      ({ liveCmd 0 with wlg.frames := [{ Frame.reset with volume := 1 }, { Frame.reset with volume := 2 }], wlg.jobs := [{ Job.reset with volume := 1, chunk := 3 }, { Job.reset with volume := 1, chunk := 3 }] }),
      vol1, by decide⟩,
    ⟨liveCmd 0, .ring 0 0, 0, slot 0x86 0 0 7 0 0 0 0 0 [1, 7200, 99, 0], fetchedAs (.ring 0 0) 0 (slot 0x86 0 0 7 0 0 0 0 0
      [1, 7200, 99, 0]) (liveCmd 0), by decide⟩,
    ⟨liveCmd 0, .ring 0 0, 0, slot 0x87 0 0 0 0 0 0 0 0 [5000, 0], fetchedAs (.ring 0 0) 0 (slot 0x87 0 0 0 0 0 0 0 0 [5000,
      0]) (liveCmd 0), by decide⟩,
    ⟨liveCmd 0, .ring 0 0, 0, slot 0x87 0 0 0 0 0 0 0 0 [5000, 9], fetchedAs (.ring 0 0) 0 (slot 0x87 0 0 0 0 0 0 0 0 [5000,
      9]) (liveCmd 0), by decide⟩⟩

/-- States and operands that meet the hypotheses of EthernetPortsWork, clause by clause. -/
theorem witness_EthernetPortsWork :
    (∃ (s : State) (sub : Nat) (lanes : BitVec 4), netOn s = true ∧ s.glb.cal = true ∧ sub < 16 ∧ sub / 4 < s.net.ports.length
      ∧ sub % 4 < subCount (netPort s sub).mode ∧ subUp s sub ≠ (subPortRx s (sub / 4) (netPort s sub).mode (sub % 4)).all
      lanes.getLsbD ∧ (((s.img.net.subports.getD sub SubPort.reset).mac ≠ 0 ∧ ctlState s (srcId 1 2 (sub / 4)) = .run) ∨ subUp
      s sub = true)) ∧
    (∃ (s : State) (f : EthFrame), netOn s = true ∧ subUp s f.sub = true ∧ f.len ≤ 9216 ∧ f.fcsOk = true ∧ frameForUs s f =
      true ∧ lossless s f = false ∧ (subPort s f.sub).flags.getLsbD 0 = true ∧ f.kind = .arp (subPort s f.sub).ipv4) ∧
    (∃ (s : State) (f : EthFrame), netOn s = true ∧ subUp s f.sub = true ∧ (f.fcsOk = false ∨ frameForUs s f = false ∨ 9216 <
      f.len ∨ (f.kind = .fragment ∧ lossless s f = false) ∨ (lossless s f = true ∧ bufferBytes < (netPort s f.sub).fill.getD
      (f.sub % 4) 0 + f.len))) ∧
    (∃ (s : State) (f : EthFrame) (qpn : Nat) (pkey : BitVec 16) (ce : Bool) (n : Nat), netOn s = true ∧ subUp s f.sub = true
      ∧ f.len ≤ 9216 ∧ f.fcsOk = true ∧ frameForUs s f = true ∧ f.kind = .roce qpn pkey ce ∧ lossless s f = true ∧ f.sub / 4 <
      s.net.ports.length ∧ (netPort s f.sub).fill.getD (f.sub % 4) 0 + f.len = n ∧ n ≤ bufferBytes) ∧
    (∃ (s : State) (f : EthFrame) (qpn : Nat) (pkey : BitVec 16) (q : Qp), netOn s = true ∧ subUp s f.sub = true ∧ f.len ≤
      9216 ∧ f.fcsOk = true ∧ frameForUs s f = true ∧ lossless s f = false ∧ f.kind = .roce qpn pkey true ∧ qpOf s qpn = some
      q ∧ q.pkey = pkey ∧ (∀ n ∈ q.lastCnp, n + 50000 ≤ now s) ∧ subSends s q.port = true ∧ (∀ h ∈ s.net.held, h.sub ≠
      q.port)) ∧
    (∃ (s : State) (sub : Nat) (fill : Nat), netOn s = true ∧ sub / 4 < s.net.ports.length ∧ fill ≤ (netPort s sub).fill.getD
      (sub % 4) 0 ∧ (netPort s sub).xoff.getD (sub % 4) false = true ∧ fill + 65536 ≤ xoffBytes s) ∧
    (∃ (s : State) (sub : Nat) (fill : Nat), netOn s = true ∧ sub / 4 < s.net.ports.length ∧ fill ≤ (netPort s sub).fill.getD
      (sub % 4) 0 ∧ ((netPort s sub).xoff.getD (sub % 4) false = false ∨ xoffBytes s < fill + 65536)) ∧
    (∃ (s : State) (sub : Nat), netOn s = true ∧ subUp s sub = true ∧ sub / 4 < s.net.ports.length ∧ sub % 4 < (netPort s
      sub).paused.length) ∧
    (∃ (s : State) (sub : Nat), netOn s = true ∧ subUp s sub = true ∧ sub / 4 < s.net.ports.length) ∧
    (∃ (s : State) (sub : Nat), netOn s = true ∧ sub / 4 < s.net.ports.length ∧ (netPort s sub).paused.getD (sub % 4) false =
      true ∧ (netPort s sub).stuck.getD (sub % 4) false = false ∧ (netPort s sub).pausedAt.getD (sub % 4) 0 + 100000000 ≤ now
      s) ∧
    (∃ (s : State) (qpn : Nat) (q : Qp), netOn s = true ∧ qpOf s qpn = some q) ∧
    (∃ (s : State) (qpn : Nat) (q : Qp), netOn s = true ∧ qpOf s qpn = some q ∧ q.rateAt + 50000 ≤ now s) ∧
    (∃ (s : State) (qpn : Nat) (q : Qp), netOn s = true ∧ qpOf s qpn = some q ∧ q.st ≠ .error ∧ q.unacked ≠ [] ∧ q.ackAt +
      ackTimeoutNs ≤ now s ∧ q.retries < 7 ∧ subSends s q.port = true ∧ (∀ h ∈ s.net.held, h.sub ≠ q.port)) ∧
    (∃ (s : State) (qpn : Nat) (q : Qp), netOn s = true ∧ qpOf s qpn = some q ∧ q.st ≠ .error ∧ q.unacked ≠ [] ∧ q.ackAt +
      ackTimeoutNs ≤ now s ∧ 7 ≤ q.retries) :=
  ⟨⟨liveNet, 0, 0, by decide⟩,
   
      ⟨{ liveNet with img.net.subports := [{ SubPort.reset with mac := 7, flags := 1, ipv4 := 0x0A000001 }], img.net.dscp := 26 },
      { sub := 0, len := 64, fcsOk := true, dst := List.replicate 6 0xFF, tag := none, dscp := none, kind := .arp 0x0A000001, data := [1, 2] },
      by decide⟩,
    ⟨{ liveNet with img.net.dscp := 26 },
      { sub := 0, len := 64, fcsOk := true, dst := List.replicate 6 0xFF, tag := none, dscp := none, kind := .fragment, data := [1, 2] },
      by decide⟩,
    ⟨{ liveNet with img.net.pfcXoffKib := 1, img.net.dscp := 26 },
      { sub := 0, len := 1064, fcsOk := true, dst := List.replicate 6 0xFF, tag := none, dscp := some 26, kind := .roce 5 0x8002 true, data := [] },
      5, 0x8002, true, 1064, by decide⟩,
    ⟨{ liveNet with img.net.dscp := 26 },
      { sub := 0, len := 1064, fcsOk := true, dst := List.replicate 6 0xFF, tag := none, dscp := none, kind := .roce 5 0x8002 true, data := [] },
      5, 0x8002, qp5, by decide⟩,
   
      ⟨{ liveNet with img.net.pfcXoffKib := 128, net.ports := live.net.ports.modify 1 fun p => { p with fill := [0, 0, 900000, 0], xoff := [false, false, true, false] } },
      6, 65536, by decide⟩,
   
      ⟨{ liveNet with img.net.pfcXoffKib := 128, net.ports := live.net.ports.modify 1 fun p => { p with fill := [0, 0, 900000, 0], xoff := [false, false, true, false] } },
      6, 65537, by decide⟩,
    ⟨liveNet, 0, by decide⟩,
   
      ⟨{ liveNet with net.held := [{ sub := 0, qpn := 5, kind := 3, data := [8] }], net.ports := liveNet.net.ports.modify 0 fun p => { p with paused := [true, false, true, false] } },
      0, by decide⟩,
   
      ⟨{ liveNet with lds.deviceTime := 10 ^ 8, net.ports := live.net.ports.modify 1 fun p => { p with paused := [false, false, true, false] } },
      6, by decide⟩,
    ⟨liveNet, 5, qp5, by decide⟩,
    ⟨{ liveNet with net.qps := [{ qp5 with rate := 90000 }], lds.deviceTime := 50000 }, 5, { qp5 with rate := 90000 }, by
      decide⟩,
   
      ⟨{ liveNet with net.qps := [{ qp5 with retries := 6, unacked := [{ psn := 4, kind := 1, data := [7] }] }], lds.deviceTime := 10 ^ 8 },
      5, { qp5 with retries := 6, unacked := [{ psn := 4, kind := 1, data := [7] }] }, by decide⟩,
   
      ⟨{ liveNet with net.qps := [{ qp5 with retries := 7, unacked := [{ psn := 4, kind := 1, data := [7] }] }], lds.deviceTime := 10 ^ 8 },
      5, { qp5 with retries := 7, unacked := [{ psn := 4, kind := 1, data := [7] }] }, by decide⟩⟩

/-- States and operands that meet the hypotheses of ConnectionsCarryRequests, clause by clause. -/
theorem witness_ConnectionsCarryRequests :
    (∃ (s : State) (sub : Nat) (pkey : BitVec 16) (mtu : Nat), netOn s = true ∧ subUp s sub = true ∧ s.glb.mode = .ready ∧
      qpActive s < 16384 ∧ pkeyKnown s pkey = true ∧ (mtu = 1024 ∨ mtu = 2048 ∨ mtu = 4096) ∧ queueOf s (.channel
      s.net.nextQpn) = none ∧ qpOf s s.net.nextQpn = none) ∧
    (∃ (s : State) (sub : Nat) (pkey : BitVec 16) (mtu : Nat) (reason : Nat) (link : Option Nat), netOn s = true ∧ subUp s sub
      = true ∧ cmReason s pkey mtu link = some reason ∧ subSends s sub = true ∧ (∀ h ∈ s.net.held, h.sub ≠ sub)) ∧
    (∃ (s : State) (sub : Nat) (pkey : BitVec 16) (mtu : Nat) (l : Nat), netOn s = true ∧ subUp s sub = true ∧ s.glb.mode =
      .ready ∧ qpActive s < 16384 ∧ pkeyKnown s pkey = true ∧ (mtu = 1024 ∨ mtu = 2048 ∨ mtu = 4096) ∧ targetLink s l = true ∧
      l < s.rma.links.length) ∧
    (∃ (s : State) (qpn : Nat) (q : Qp), netOn s = true ∧ qpOf s qpn = some q) ∧
    (∃ (s : State) (qpn : Nat) (q : Qp), netOn s = true ∧ qpOf s qpn = some q ∧ subSends s q.port = true ∧ (∀ h ∈ s.net.held,
      h.sub ≠ q.port)) ∧
    (∃ (s : State) (qpn : Nat) (cause : Nat) (key : BitVec 32) (q : Qp), alive s = true ∧ qpOf s qpn = some q ∧ q.st ≠ .error)
      ∧
    (∃ (s : State) (r : RoceReq) (data : List (BitVec 8)) (q : Qp) (x : Queue) (n : Nat), netOn s = true ∧ qpOf s r.qpn = some
      q ∧ subUp s q.port = true ∧ (q.st = .rtr ∨ q.st = .rts) ∧ q.pkey = r.pkey ∧ r.psn % 2 ^ 24 = q.epsn ∧ supported s .send
      64 r = true ∧ q.link = none ∧ data.length = 64 ∧ queueOf s (.channel r.qpn) = some x ∧ x.st = .active ∧ leAt data 2 1 %
      32 = n ∧ (x.tags[n]?).map (·.st) = some .free) ∧
    (∃ (s : State) (r : RoceReq) (data : List (BitVec 8)) (q : Qp), netOn s = true ∧ qpOf s r.qpn = some q ∧ subUp s q.port =
      true ∧ (q.st = .rtr ∨ q.st = .rts) ∧ q.pkey = r.pkey ∧ r.psn % 2 ^ 24 ≠ q.epsn ∧ psnLe r.psn q.epsn = true) ∧
    (∃ (s : State) (r : RoceReq) (key : BitVec 32) (off : Nat) (data : List (BitVec 8)) (q : Qp) (x : Region), netOn s = true
      ∧ qpOf s r.qpn = some q ∧ subUp s q.port = true ∧ (q.st = .rtr ∨ q.st = .rts) ∧ q.pkey = r.pkey ∧ r.psn % 2 ^ 24 =
      q.epsn ∧ supported s .write data.length r = true ∧ rdmaRegion s q true key off data.length = some x) ∧
    (∃ (s : State) (r : RoceReq) (key : BitVec 32) (off : Nat) (data : List (BitVec 8)) (q : Qp), netOn s = true ∧ qpOf s
      r.qpn = some q ∧ subUp s q.port = true ∧ (q.st = .rtr ∨ q.st = .rts) ∧ q.pkey = r.pkey ∧ r.psn % 2 ^ 24 = q.epsn ∧
      supported s .write data.length r = true ∧ rdmaRegion s q true key off data.length = none) ∧
    (∃ (s : State) (r : RoceReq) (key : BitVec 32) (off : Nat) (data : List (BitVec 8)) (imm : BitVec 32) (q : Qp) (x :
      Region), netOn s = true ∧ qpOf s r.qpn = some q ∧ subUp s q.port = true ∧ (q.st = .rtr ∨ q.st = .rts) ∧ q.pkey = r.pkey
      ∧ r.psn % 2 ^ 24 = q.epsn ∧ supported s .writeImm data.length r = true ∧ data ≠ [] ∧ rdmaRegion s q true key off
      data.length = some x) ∧
    (∃ (s : State) (r : RoceReq) (key : BitVec 32) (off : Nat) (imm : BitVec 32) (q : Qp) (x : Queue), netOn s = true ∧ qpOf s
      r.qpn = some q ∧ subUp s q.port = true ∧ (q.st = .rtr ∨ q.st = .rts) ∧ q.pkey = r.pkey ∧ r.psn % 2 ^ 24 = q.epsn ∧
      supported s .writeImm 0 r = true ∧ q.link = none ∧ queueOf s (.channel r.qpn) = some x ∧ x.tags.length = 32 ∧ (∀ y ∈
      x.tags, y.st = .ready) ∧ (∀ e ∈ s.net.sends, e.1 ≠ r.qpn)) ∧
    (∃ (s : State) (r : RoceReq) (key : BitVec 32) (off : Nat) (len : Nat) (q : Qp) (x : Region), netOn s = true ∧ qpOf s
      r.qpn = some q ∧ subUp s q.port = true ∧ (q.st = .rtr ∨ q.st = .rts) ∧ q.pkey = r.pkey ∧ r.psn % 2 ^ 24 = q.epsn ∧
      supported s .read len r = true ∧ rdmaRegion s q false key off len = some x) ∧
    (∃ (s : State) (r : RoceReq) (key : BitVec 32) (off : Nat) (len : Nat) (q : Qp), netOn s = true ∧ qpOf s r.qpn = some q ∧
      subUp s q.port = true ∧ (q.st = .rtr ∨ q.st = .rts) ∧ q.pkey = r.pkey ∧ r.psn % 2 ^ 24 ≠ q.epsn ∧ psnLe r.psn q.epsn =
      true) ∧
    (∃ (s : State) (i : Nat) (w : BitVec 32) (k : Nat), hostWriteOk s 0x06 = true ∧ i < 4096 ∧ (w.setWidth 16).toNat % 32768 =
      k ∧ bitOf w 16 = true ∧ (k = 0 ∨ k = 0x7FFF ∨ ∃ e ∈ s.net.pkeys, e.idx ≠ i ∧ e.valid = true ∧ e.pkey.toNat % 32768 = k))
      ∧
    (∃ (s : State) (i : Nat) (w : BitVec 32) (k : Nat), hostWriteOk s 0x06 = true ∧ i < 4096 ∧ (w.setWidth 16).toNat % 32768 =
      k ∧ bitOf w 16 = true ∧ k ≠ 0 ∧ k ≠ 0x7FFF ∧ (∀ e ∈ s.net.pkeys, e.idx ≠ i → e.valid = true → e.pkey.toNat % 32768 ≠ k))
      ∧
    (∃ (s : State) (i : Nat), hostWriteOk s 0x07 = true ∧ regionOk s = true ∧ freeIndex s = some i) ∧
    (∃ (s : State), hostWriteOk s 0x07 = true ∧ regionOk s = false) ∧
    (∃ (s : State) (key : BitVec 32), hostWriteOk s 0x07 = true ∧ (∃ r ∈ s.rma.regions, r.live = true ∧ r.index = key.toNat /
      256 ∧ r.gen = key.toNat % 256)) ∧
    (∃ (s : State) (key : BitVec 32), hostWriteOk s 0x07 = true ∧ (∀ r ∈ s.rma.regions, r.live = true → r.index = key.toNat /
      256 → r.gen ≠ key.toNat % 256)) :=
  ⟨⟨liveNet, 0, 0x8002, 2048, by decide⟩,
    ⟨liveNet, 0, 0x8003, 4096, 1, none, by decide⟩,
    ⟨liveLink fun x => { x with enable := true, role := true, volume := 1 }, 0, 0x8002, 4096, 3, by decide⟩,
    ⟨{ liveNet with net.qps := [{ qp5 with st := .rtr }] }, 5, { qp5 with st := .rtr }, by decide⟩,
    ⟨liveNet, 5, qp5, by decide⟩,
   
      ⟨{ liveNet with dcq.queues := [{ Queue.reset with id := .channel 5, tags := List.replicate 32 Tag.reset, waiting := [{ Cpl.reset with tag := 3 }] }], dcq.cmds := [{ Cmd.reset with q := .channel 5, tag := 9 }] },
      5, 1, 0, qp5, by decide⟩,
    ⟨liveNet, req5, [3, 0, 17, 0] ++ List.replicate 60 0, qp5,
      { Queue.reset with id := .channel 5, tags := List.replicate 32 Tag.reset }, 17, by decide⟩,
    ⟨liveNet, { req5 with psn := 6 }, [], qp5, by decide⟩,
   
      ⟨{ liveNet with rma.regions := [{ Region.reset with index := 1, gen := 2, live := true, base := 8192, len := 4096, tenant := 2, wr := true }] },
      { req5 with op := .write }, 0x102, 16, [7, 8], qp5,
      { Region.reset with index := 1, gen := 2, live := true, base := 8192, len := 4096, tenant := 2, wr := true }, by
      decide⟩,
   
      ⟨{ liveNet with rma.regions := [{ Region.reset with index := 1, gen := 2, live := true, base := 8192, len := 4096, tenant := 2, rd := true }] },
      { req5 with op := .write }, 0x102, 16, [7, 8], qp5, by decide⟩,
   
      ⟨{ liveNet with rma.regions := [{ Region.reset with index := 1, gen := 2, live := true, base := 8192, len := 4096, tenant := 2, wr := true }] },
      { req5 with op := .writeImm }, 0x102, 16, [7, 8], 3, qp5,
      { Region.reset with index := 1, gen := 2, live := true, base := 8192, len := 4096, tenant := 2, wr := true }, by
      decide⟩,
   
      ⟨{ liveNet with dcq.queues := [{ Queue.reset with id := .channel 5, tags := List.replicate 32 { Tag.reset with st := .ready, asked := true } }] },
      { req5 with op := .writeImm }, 0x102, 16, 0x10001, qp5,
      { Queue.reset with id := .channel 5, tags := List.replicate 32 { Tag.reset with st := .ready, asked := true } }, by
      decide⟩,
   
      ⟨{ liveNet with lz := [⟨8208, 7⟩], rma.regions := [{ Region.reset with index := 1, gen := 2, live := true, base := 8192, len := 4096, tenant := 2, rd := true }] },
      { req5 with op := .read }, 0x102, 16, 4, qp5,
      { Region.reset with index := 1, gen := 2, live := true, base := 8192, len := 4096, tenant := 2, rd := true }, by
      decide⟩,
    ⟨liveNet, { req5 with op := .read, psn := 6 }, 0x102, 16, 4, qp5, by decide⟩,
    ⟨liveNet, 7, 0x10002, 2, by decide⟩,
    ⟨liveNet, 0, 0x10003, 3, by decide⟩,
    ⟨{ liveNet with img.host.lzGib := 1, rma.regBase := 0x1000, rma.regLen := 2, rma.attrTenant := 2, rma.attrRd := true }, 0,
      by decide⟩,
    ⟨{ liveNet with img.host.lzGib := 1, rma.regBase := 0x1008, rma.regLen := 2, rma.attrTenant := 2, rma.attrRd := true }, by
      decide⟩,
    ⟨{ liveNet with rma.regions := [{ Region.reset with index := 1, gen := 2, live := true }] }, 0x102, by decide⟩,
    ⟨{ liveNet with rma.regions := [{ Region.reset with index := 1, gen := 2, live := true }] }, 0x103, by decide⟩⟩

/-- States and operands that meet the hypotheses of ReplicationLinksWork, clause by clause. -/
theorem witness_ReplicationLinksWork :
    (∃ (s : State) (l : Nat) (media : List StoredRead) (v : Volume), alive s = true ∧ l < s.rma.links.length ∧ (linkOf s
      l).enable = true ∧ (linkOf s l).role = false ∧ owns s (linkOf s l).volume = true ∧ (linkOf s l).st ≠ 4 ∧ volOf s (linkOf
      s l).volume = some v ∧ cutDue s (linkOf s l) = true) ∧
    (∃ (s : State) (l : Nat) (media : List StoredRead) (c : ReplCut), netOn s = true ∧ (linkOf s l).enable = true ∧ (linkOf s
      l).role = false ∧ owns s (linkOf s l).volume = true ∧ (linkOf s l).st = 2 ∧ (linkOf s l).stopping = false ∧ s.sec.drbgOk
      = true ∧ nextCut (linkOf s l) = some c) ∧
    (∃ (s : State) (l : Nat) (media : List StoredRead) (c : ReplCut) (v : Volume) (p : Snapshot) (n : Nat) (q : Qp), netOn s =
      true ∧ l < s.rma.links.length ∧ (linkOf s l).enable = true ∧ (linkOf s l).role = false ∧ owns s (linkOf s l).volume =
      true ∧ (linkOf s l).st = 2 ∧ (linkOf s l).stopping = false ∧ (linkOf s l).counter < 2 ^ 63 ∧ (keySlotOf s (linkOf s
      l).keySlot).present = true ∧ s.sec.drbgOk = true ∧ nextCut (linkOf s l) = some c ∧ volOf s (linkOf s l).volume = some v
      ∧ (linkOf s l).qpn = some n ∧ cutOf s l c = some p ∧ p.frozen = true ∧ qpOf s n = some q ∧ subSends s q.port = true ∧ (∀
      h ∈ s.net.held, h.sub ≠ q.port) ∧ p.table = []) ∧
    (∃ (s : State) (l : Nat) (batch : Nat) (c : ReplCut), netOn s = true ∧ l < s.rma.links.length ∧ (linkOf s l).enable = true
      ∧ (linkOf s l).stopping = false ∧ (linkOf s l).role = false ∧ c ∈ (linkOf s l).cuts ∧ c.sent = true ∧ c.batch ≤ batch) ∧
    (∃ (s : State) (l : Nat) (batch : Nat) (c : ReplCut), netOn s = true ∧ l < s.rma.links.length ∧ (linkOf s l).stopping =
      true ∧ (linkOf s l).role = false ∧ c ∈ (linkOf s l).cuts ∧ c.sent = true ∧ c.batch ≤ batch) ∧
    (∃ (s : State) (l : Nat) (media : List StoredRead) (c : ReplCut) (r : List ReplCut), netOn s = true ∧ (linkOf s l).enable
      = true ∧ (linkOf s l).role = false ∧ (linkOf s l).st = 2 ∧ (linkOf s l).cuts = c :: r ∧ c.sent = true ∧ s.sec.drbgOk =
      true ∧ c.sentAt + 60 * 10 ^ 9 ≤ now s) ∧
    (∃ (s : State) (l : Nat) (key : BitVec 32) (len : Nat) (n : Nat) (q : Qp), netOn s = true ∧ l < s.rma.links.length ∧
      (linkOf s l).qpn = some n ∧ (linkOf s l).st = 1 ∧ qpOf s n = some q ∧ subSends s q.port = true ∧ (∀ h ∈ s.net.held,
      h.sub ≠ q.port)) ∧
    (∃ (s : State) (l : Nat) (r : Remote), netOn s = true ∧ l < s.rma.links.length ∧ (linkOf s l).enable = true ∧ (linkOf s
      l).role = false ∧ (linkOf s l).st = 3 ∧ (linkOf s l).qpn = none ∧ owns s (linkOf s l).volume = true ∧ (linkOf s l).errAt
      + 10 ^ 10 ≤ now s ∧ s.img.net.remotes.getD (linkOf s l).remote Remote.reset = r ∧ r.valid = true ∧ qpActive s < 16384 ∧
      qpOf s s.net.nextQpn = none) ∧
    (∃ (s : State) (l : Nat) (bytes : List (BitVec 8)) (batch : Nat) (counter : Nat) (len : Nat) (kind : Nat) (head : Nat)
      (epoch : Nat) (g : Option (List (BitVec 8))), netOn s = true ∧ (l < s.rma.links.length ∧ (linkOf s l).enable = true ∧
      (linkOf s l).role = true ∧ (linkOf s l).qpn ≠ none ∧ (linkOf s l).batchIn = [] ∧ (linkOf s l).seen = [] ∧ (keySlotOf s
      (linkOf s l).keySlot).present = true) ∧ (leAt bytes 0 4 = 0x4C504552 ∧ leAt bytes 4 2 = 1 ∧ leAt bytes 6 2 = l ∧ leAt
      bytes 8 8 = batch ∧ 1 ≤ batch ∧ leAt bytes 16 8 = counter) ∧ (leAt bytes 24 8 % 8 = 0 ∧ (kind ≠ 3 ∨ leAt bytes 24 8 = 0)
      ∧ leAt bytes 32 4 = len ∧ len ≤ 33024 ∧ (kind ≠ 2 ∨ len = 0) ∧ (kind ≠ 3 ∨ len = 8) ∧ leAt bytes 36 1 = kind ∧ 1 ≤ kind
      ∧ kind ≤ 3) ∧ (leAt bytes 37 1 = head ∧ head ≤ 1 ∧ leAt bytes 40 4 = epoch ∧ leAt bytes 38 2 = 0 ∧ leAt bytes 44 4 = 0 ∧
      bytes.length = 64 + (len + 15) / 16 * 16) ∧ Config.gcmOpen (keySlotOf s (linkOf s l).keySlot).key (replIv l head
      counter) (bytes.take 48) (slice bytes 64 len) (slice bytes 48 16) = g) ∧
    (∃ (s : State) (l : Nat) (bytes : List (BitVec 8)), netOn s = true ∧ l < s.rma.links.length ∧ (linkOf s l).enable = true ∧
      (linkOf s l).role = true ∧ (linkOf s l).qpn ≠ none ∧ (leAt bytes 0 4 ≠ 0x4C504552 ∨ leAt bytes 6 2 ≠ l ∨ leAt bytes 8 8
      = 0 ∨ leAt bytes 36 1 = 0)) ∧
    (∃ (s : State) (l : Nat) (imm : BitVec 32) (v : Volume) (n : Nat) (q : Qp), netOn s = true ∧ l < s.rma.links.length ∧
      (linkOf s l).enable = true ∧ (linkOf s l).role = true ∧ volOf s (linkOf s l).volume = some v ∧ (linkOf s l).qpn = some n
      ∧ owns s (linkOf s l).volume = true ∧ imm.toNat = (linkOf s l).inBatch % 2 ^ 32 ∧ (linkOf s l).endCount = some (linkOf s
      l).batchIn.length ∧ s.wlg.mirror ≠ 0 ∧ framesFree s ((linkOf s l).batchIn.filter fun r => r.kind ≠ 3).length = true ∧
      qpOf s n = some q ∧ subSends s q.port = true ∧ (∀ h ∈ s.net.held, h.sub ≠ q.port)) ∧
    (∃ (s : State) (l : Nat) (w : BitVec 32), hostWriteOk s 0x07 = true ∧ l < 64 ∧ l < s.rma.links.length ∧ bitOf w 0 = true ∧
      bitOf w 1 = true ∧ (linkOf s l).enable = false ∧ (1 ≤ fld w 16 16 ∧ fld w 16 16 ≤ 3600)) ∧
    (∃ (s : State) (l : Nat) (w : BitVec 32), hostWriteOk s 0x07 = true ∧ l < 64 ∧ l < s.rma.links.length ∧ bitOf w 0 = true ∧
      bitOf w 1 = false ∧ (linkOf s l).enable = false ∧ (1 ≤ fld w 16 16 ∧ fld w 16 16 ≤ 3600) ∧ owns s (linkOf s l).volume =
      true ∧ (s.img.net.remotes.getD (fld w 2 3) Remote.reset).valid = true ∧ qpActive s < 16384) ∧
    (∃ (s : State) (l : Nat) (w : BitVec 32), hostWriteOk s 0x07 = true ∧ l < 64 ∧ bitOf w 0 = true ∧ ((linkOf s l).enable =
      true ∨ fld w 16 16 = 0 ∨ 3600 < fld w 16 16)) ∧
    (∃ (s : State) (l : Nat) (w : BitVec 32), hostWriteOk s 0x07 = true ∧ l < 64 ∧ l < s.rma.links.length ∧ bitOf w 0 = false
      ∧ (linkOf s l).enable = true ∧ (∀ c ∈ (linkOf s l).cuts, c.sent = false)) ∧
    (∃ (s : State) (l : Nat) (w : BitVec 32), hostWriteOk s 0x07 = true ∧ l < 64 ∧ l < s.rma.links.length ∧ bitOf w 0 = false
      ∧ (linkOf s l).enable = true ∧ (∃ c ∈ (linkOf s l).cuts, c.sent = true)) :=
  ⟨⟨liveLink fun x => { x with enable := true, volume := 1, st := 2, nextBatch := 9 }, 3, [], vol1, by decide⟩,
    ⟨liveLink fun x =>
      { x with enable := true, volume := 1, st := 2, qpn := some 5, cuts := [{ ReplCut.reset with batch := 1, sent := true }, { ReplCut.reset with batch := 2 }] },
      3, [], { ReplCut.reset with batch := 2 }, by decide⟩,
   
      ⟨{ liveLink (fun x => { x with enable := true, volume := 1, st := 2, qpn := some 5, cuts := [{ ReplCut.reset with batch := 2 }] }) with sec.slots := [{ KeySlot.reset with present := true }], red.volumes := [{ vol1 with snaps := [{ Snapshot.reset with num := cutNum 3 2, link := some 3, frozen := true }] }] },
      3, [], { ReplCut.reset with batch := 2 },
      { vol1 with snaps := [{ Snapshot.reset with num := cutNum 3 2, link := some 3, frozen := true }] },
      { Snapshot.reset with num := cutNum 3 2, link := some 3, frozen := true }, 5, qp5, by decide⟩,
    ⟨liveLink fun x =>
      { x with enable := true, volume := 1, st := 2, qpn := some 5, cuts := [{ ReplCut.reset with batch := 1, sent := true, lsn := 40 }, { ReplCut.reset with batch := 2 }] },
      3, 1, { ReplCut.reset with batch := 1, sent := true, lsn := 40 }, by decide⟩,
    ⟨liveLink fun x =>
      { x with stopping := true, volume := 1, st := 2, qpn := some 5, cuts := [{ ReplCut.reset with batch := 1, sent := true, lsn := 40 }] },
      3, 1, { ReplCut.reset with batch := 1, sent := true, lsn := 40 }, by decide⟩,
   
      ⟨{ (liveLink fun x => { x with enable := true, volume := 1, st := 2, qpn := some 5, cuts := [{ ReplCut.reset with batch := 1, sent := true }, { ReplCut.reset with batch := 2 }] }) with lds.deviceTime := 60000000000 },
      3, [], { ReplCut.reset with batch := 1, sent := true }, [{ ReplCut.reset with batch := 2 }], by decide⟩,
    ⟨liveLink fun x =>
      { x with enable := true, volume := 1, st := 1, qpn := some 5, offset := 99, cuts := [{ ReplCut.reset with batch := 1, sent := true }] },
      3, 0x201, 65536, 5, qp5, by decide⟩,
   
      ⟨{ liveLink (fun x => { x with enable := true, volume := 1, st := 3 }) with img.net.remotes := [{ Remote.reset with valid := true }], lds.deviceTime := 10 ^ 10 },
      3, { Remote.reset with valid := true }, by decide⟩,
   
      ⟨{ liveLink (fun x => { x with enable := true, role := true, volume := 1, st := 2, qpn := some 5 }) with sec.slots := [{ KeySlot.reset with present := true }] },
      3, leBytes 4 0x4C504552 ++ leBytes 2 1 ++ leBytes 2 3 ++ leBytes 8 1 ++ leBytes 8 5 ++ leBytes 8 16 ++ leBytes 4 0 ++
      leBytes 1 2 ++ leBytes 1 0 ++ leBytes 2 0 ++ leBytes 4 7 ++ leBytes 4 0 ++ List.replicate 16 0, 1, 5, 0, 2, 0, 7, _, by
      decide, by decide, by decide, by decide, by decide, rfl⟩,
    ⟨liveLink (fun x =>
      { x with enable := true, role := true, volume := 1, st := 2, qpn := some 5, batchIn := [ReplRecord.reset] }), 3,
      List.replicate 64 0, by decide⟩,
   
      ⟨{ liveLink (fun x => { x with enable := true, role := true, volume := 1, st := 2, qpn := some 5, inBatch := 4, endCount := some 2, batchIn := [{ ReplRecord.reset with kind := 2, lba := 16 }, { ReplRecord.reset with kind := 3 }] }) with wlg.mirror := 3, wlg.gib := 1, wlg.lsn := 8 },
      3, 4, vol1, 5, qp5, by decide⟩,
    ⟨liveLink fun x => { x with volume := 1 }, 3, 0x003C0203, by decide⟩,
    ⟨{ liveLink (fun x => { x with volume := 1 }) with img.net.remotes := [{ Remote.reset with valid := true }] }, 3,
      0x003C0201, by decide⟩,
    ⟨liveLink fun x => { x with enable := true, volume := 1 }, 3, 0x003C0201, by decide⟩,
    ⟨liveLink fun x =>
      { x with enable := true, volume := 1, st := 2, qpn := some 5, cuts := [{ ReplCut.reset with batch := 2 }] }, 3,
      0x003C0200, by decide⟩,
    ⟨liveLink fun x =>
      { x with enable := true, volume := 1, st := 2, qpn := some 5, cuts := [{ ReplCut.reset with batch := 1, sent := true }, { ReplCut.reset with batch := 2 }] },
      3, 0x003C0200, by decide⟩⟩

/-- States and operands that meet the hypotheses of WritesEnterTheLog, clause by clause. -/
theorem witness_WritesEnterTheLog :
    (∃ (s : State) (h : HeldWrite), alive s = true ∧ holdDue s = some h) ∧
    (∃ (s : State) (h : HeldWrite) (c : Cmd), alive s = true ∧ s.pwr.flushActive = false ∧ nextHold s = some h ∧ fits s
      h.frames = true ∧ heldCmd s h.remote h.q h.tag = some c ∧ (h.remote = false ∨ c.data = [])) ∧
    (∃ (s : State) (h : HeldWrite) (c : Cmd), alive s = true ∧ s.pwr.flushActive = false ∧ nextHold s = some h ∧ fits s
      h.frames = true ∧ heldCmd s h.remote h.q h.tag = some c ∧ (h.remote = false ∨ c.data = [])) ∧
    (∃ (s : State) (h : HeldWrite), nextHold s = some h ∧ (s.pwr.flushActive = true ∨ fits s h.frames = false)) ∧
    (∃ (s : State) (q : QueueId) (tag : Nat) (gen : Nat) (data : List (List (BitVec 8))) (pi : List (List (BitVec 8))) (ds :
      List (List (BitVec 8))) (ps : List (List (BitVec 8))) (c : Cmd), alive s = true ∧ tagMatches s q tag gen = true ∧ cmdOf
      s q tag = some c ∧ c.st = .transfer ∧ cmdOpcode c = 0x02 ∧ readsIssued s q tag = true ∧ s.pwr.flushActive = false ∧
      writeData (readsDone q tag s) c data pi = (ds, ps) ∧ (∀ i < cmdCount c, piCheck (cmdTenant c % 32768) (cmdLba c + i)
      (ds.getD i []) (ps.getD i []) = 0)) ∧
    (∃ (s : State) (q : QueueId) (tag : Nat) (gen : Nat) (data : List (List (BitVec 8))) (pi : List (List (BitVec 8))) (ds :
      List (List (BitVec 8))) (ps : List (List (BitVec 8))) (c : Cmd) (i : Nat) (k : Nat), alive s = true ∧ tagMatches s q tag
      gen = true ∧ cmdOf s q tag = some c ∧ c.st = .transfer ∧ cmdOpcode c = 0x02 ∧ readsIssued s q tag = true ∧
      s.pwr.flushActive = false ∧ writeData (readsDone q tag s) c data pi = (ds, ps) ∧ i < cmdCount c ∧ piCheck (cmdTenant c %
      32768) (cmdLba c + i) (ds.getD i []) (ps.getD i []) = k ∧ k ≠ 0 ∧ (∀ j < i, piCheck (cmdTenant c % 32768) (cmdLba c + j)
      (ds.getD j []) (ps.getD j []) = 0)) ∧
    (∃ (s : State) (q : QueueId) (tag : Nat) (gen : Nat) (data : List (List (BitVec 8))) (pi : List (List (BitVec 8))) (c :
      Cmd), alive s = true ∧ tagMatches s q tag gen = true ∧ cmdOf s q tag = some c ∧ c.st = .transfer ∧ cmdOpcode c = 0x02 ∧
      readsIssued s q tag = true ∧ s.pwr.flushActive = true) ∧
    (∃ (s : State) (q : QueueId) (tag : Nat) (gen : Nat) (data : List (List (BitVec 8))) (pi : List (List (BitVec 8))), alive
      s = true ∧ tagMatches s q tag gen = false) ∧
    (∃ (s : State) (q : QueueId) (tag : Nat) (c : Cmd) (n : Cmd), alive s = true ∧ cmdOf s q tag = some c ∧ c.st = .data ∧
      c.forwarded = false ∧ s.wlg.mirror ≠ 0 ∧ s.pwr.flushActive = false ∧ nextAdmission s = some n ∧ n.q = q ∧ n.tag = tag) ∧
    (∃ (s : State) (q : QueueId) (tag : Nat) (c : Cmd), alive s = true ∧ cmdOf s q tag = some c ∧ c.st = .data ∧ s.wlg.mirror
      ≠ 0 ∧ s.pwr.flushActive = true) ∧
    (∃ (s : State) (q : QueueId) (tag : Nat) (c : Cmd) (n : Cmd), alive s = true ∧ cmdOf s q tag = some c ∧ c.st = .data ∧
      c.forwarded = true ∧ s.wlg.mirror ≠ 0 ∧ s.pwr.flushActive = false ∧ nextAdmission s = some n ∧ n.q = q ∧ n.tag = tag) ∧
    (∃ (s : State) (f : Frame) (r : List Frame), alive s = true ∧ s.wlg.mirror ≠ 0 ∧ (f :: r).all frameGuardsOk = true ∧ (∀ g
      ∈ s.wlg.frames, g.lsn = f.lsn → g.owner = s.glb.headSel)) ∧
    (∃ (s : State) (fs : List Frame), alive s = true ∧ (s.wlg.mirror ≠ 0 ∨ s.glb.map = true) ∧ fs.all frameGuardsOk = false) ∧
    (∃ (s : State) (lsn : Nat) (q : QueueId) (tag : Nat) (gen : Nat) (f : Frame), alive s = true ∧ s.wlg.frames.find? (fun f
      => decide (f.lsn = lsn) && (f.owner == s.glb.headSel)) = some f ∧ f.prot = false ∧ tagMatches s q tag gen = true) ∧
    (∃ (s : State) (lsn : Nat) (q : QueueId) (tag : Nat) (gen : Nat) (f : Frame), alive s = true ∧ s.wlg.frames.find? (fun f
      => decide (f.lsn = lsn) && (f.owner == s.glb.headSel)) = some f ∧ f.prot = false ∧ f.origin < 6 ∧ f.q = q ∧ queueOf s q
      ≠ none ∧ tagMatches s q tag gen = false) ∧
    (∃ (s : State) (lsn : Nat) (q : QueueId) (tag : Nat) (gen : Nat) (n : Nat) (f : Frame), alive s = true ∧
      s.wlg.frames.find? (fun f => decide (f.lsn = lsn) && (f.owner == s.glb.headSel)) = some f ∧ f.prot = false ∧
      ((s.wlg.resends.find? fun r => r.1 = lsn).map (·.2)).getD 0 = n ∧ n < 3) ∧
    (∃ (s : State) (lsn : Nat) (q : QueueId) (tag : Nat) (gen : Nat) (f : Frame), alive s = true ∧ s.wlg.frames.find? (fun f
      => decide (f.lsn = lsn) && (f.owner == s.glb.headSel)) = some f ∧ f.prot = false ∧ 3 ≤ ((s.wlg.resends.find? fun r =>
      r.1 = lsn).map (·.2)).getD 0 ∧ s.wlg.mirror = 1) ∧
    (∃ (s : State) (q : QueueId) (tag : Nat) (frames : List Frame) (c : Cmd), alive s = true ∧ frames.all frameGuardsOk = true
      ∧ remoteCmd s q tag = some c ∧ c.gen = (frames.headD Frame.reset).gen ∧ c.st = .transfer) ∧
    (∃ (s : State) (q : QueueId) (tag : Nat) (frames : List Frame) (c : Cmd), alive s = true ∧ frames.all frameGuardsOk = true
      ∧ remoteCmd s q tag = some c ∧ c.gen = (frames.headD Frame.reset).gen ∧ c.st = .held) ∧
    (∃ (s : State) (q : QueueId) (tag : Nat) (frames : List Frame), alive s = true ∧ frames.all frameGuardsOk = false) ∧
    (∃ (s : State) (q : QueueId) (tag : Nat) (gen : Nat) (lsn : Nat), alive s = true ∧ tagMatches s q tag gen = true) ∧
    (∃ (s : State) (q : QueueId) (tag : Nat) (gen : Nat) (lsn : Nat), alive s = true ∧ tagMatches s q tag gen = false) :=
 
      ⟨⟨{ liveW (fun c => { c with st := .held }) with lds.deviceTime := 2 * 10 ^ 9, wlg.holds := [{ q := .ring 0 1, tag := 0, origin := 0, frames := 1, remote := false, fetchedAt := 0, since := 0 }] },
      { q := .ring 0 1, tag := 0, origin := 0, frames := 1, remote := false, fetchedAt := 0, since := 0 }, by decide⟩,
   
      ⟨{ liveW (fun c => { c with st := .held }) with wlg.holds := [{ q := .ring 0 1, tag := 0, origin := 0, frames := 1, remote := false, fetchedAt := 0, since := 0 }] },
      { q := .ring 0 1, tag := 0, origin := 0, frames := 1, remote := false, fetchedAt := 0, since := 0 }, cmdW .held, by
      decide⟩,
   
      ⟨{ liveW (fun c => { c with st := .held }) with wlg.holds := [{ q := .ring 0 1, tag := 0, origin := 0, frames := 1, remote := false, fetchedAt := 0, since := 0 }] },
      { q := .ring 0 1, tag := 0, origin := 0, frames := 1, remote := false, fetchedAt := 0, since := 0 }, cmdW .held, by
      decide⟩,
   
      ⟨{ liveCmd 1 with wlg.holds := [{ q := .ring 0 1, tag := 0, origin := 0, frames := 1, remote := false, fetchedAt := 0, since := 0 }], wlg.gib := 0 },
      { q := .ring 0 1, tag := 0, origin := 0, frames := 1, remote := false, fetchedAt := 0, since := 0 }, by decide⟩,
    ⟨liveW fun c => { c with st := .transfer }, .ring 0 1, 0, 0, [[5]], [beBytes 8 (crc64 [5]).toNat ++ beBytes 2 2 ++ beBytes
      6 24], [[5]], [beBytes 8 (crc64 [5]).toNat ++ beBytes 2 2 ++ beBytes 6 24], cmdW .transfer, by decide⟩,
    ⟨liveW fun c => { c with st := .transfer }, .ring 0 1, 0, 0, [[5]], [beBytes 8 (crc64 [5]).toNat ++ beBytes 2 3 ++ beBytes
      6 24], [[5]], [beBytes 8 (crc64 [5]).toNat ++ beBytes 2 3 ++ beBytes 6 24], cmdW .transfer, 0, stAppTagCheck, by
      decide⟩,
    ⟨{ liveW (fun c => { c with st := .transfer }) with pwr.flushActive := true }, .ring 0 1, 0, 0, [], [], cmdW .transfer, by
      decide⟩,
    ⟨liveW fun c => { c with st := .transfer }, .ring 0 1, 0, 3, [], [], by decide⟩,
    ⟨{ liveW (fun c => { c with st := .data, data := [[5]], pi := [[]] }) with wlg.mirror := 3 }, .ring 0 1, 0,
      { cmdW .data with data := [[5]], pi := [[]] }, { cmdW .data with data := [[5]], pi := [[]] }, by decide⟩,
    ⟨{ liveW (fun c => { c with st := .data, data := [[5]], pi := [[]] }) with wlg.mirror := 1, pwr.flushActive := true },
      .ring 0 1, 0, { cmdW .data with data := [[5]], pi := [[]] }, by decide⟩,
    ⟨liveW fun c => { c with st := .data, forwarded := true, data := [[5]], pi := [[]] }, .ring 0 1, 0,
      { cmdW .data with forwarded := true, data := [[5]], pi := [[]] },
      { cmdW .data with forwarded := true, data := [[5]], pi := [[]] }, by decide⟩,
    ⟨{ liveCmd 1 with xhl.link := 2 }, { frame3 with mask := 0, lsn := 99 }, [], by decide⟩,
    ⟨liveCmd 1, [{ frame3 with data := [[5]] }], by decide⟩,
   
      ⟨{ liveW (fun c => { c with st := .admitted }) with wlg.mirror := 1, wlg.frames := [{ frame3 with prot := false, owner := live.glb.headSel }], wlg.heldRec := true },
      41, .ring 0 1, 0, 0, { frame3 with prot := false, owner := live.glb.headSel }, by decide⟩,
   
      ⟨{ liveW (fun c => { c with st := .admitted }) with wlg.mirror := 1, wlg.frames := [{ frame3 with prot := false, owner := live.glb.headSel }] },
      41, .ring 0 1, 0, 1, { frame3 with prot := false, owner := live.glb.headSel }, by decide⟩,
   
      ⟨{ liveW (fun c => { c with st := .admitted }) with wlg.mirror := 1, wlg.resends := [(41, 2)], wlg.frames := [{ frame3 with prot := false, owner := live.glb.headSel }] },
      41, .ring 0 1, 0, 1, 2, { frame3 with prot := false, owner := live.glb.headSel }, by decide⟩,
   
      ⟨{ liveW (fun c => { c with st := .admitted }) with wlg.mirror := 1, wlg.resends := [(41, 3)], wlg.frames := [{ frame3 with prot := false, owner := live.glb.headSel }] },
      41, .ring 0 1, 0, 1, { frame3 with prot := false, owner := live.glb.headSel }, by decide⟩,
    ⟨liveW fun c => { c with st := .transfer, remote := true }, .ring 0 1, 0, [{ frame3 with mask := 0 }],
      { cmdW .transfer with remote := true }, by decide⟩,
    ⟨liveW fun c => { c with st := .held, remote := true }, .ring 0 1, 0,
      [{ frame3 with data := [[5]], pi := [beBytes 8 (crc64 [5]).toNat] }], { cmdW .held with remote := true }, by decide⟩,
    ⟨liveCmd 1, .ring 0 1, 0, [{ frame3 with data := [[5]] }], by decide⟩,
    ⟨{ liveW (fun c => { c with st := .admitted }) with wlg.frames := [{ frame3 with st := .filling, prot := false }] }, .ring
      0 1, 0, 0, 77, by decide⟩,
    ⟨liveCmd 1, .ring 0 1, 0, 2, 77, by decide⟩⟩

/-- States and operands that meet the hypotheses of ChunksAreAssembled, clause by clause. -/
theorem witness_ChunksAreAssembled :
    (∃ (s : State) (v : Nat) (chunk : Nat) (media : List StoredRead) (copies : List PeerSector), alive s = true ∧
      assemblyReady s v chunk = true ∧ delayOver s (assemblyFrames s v chunk) = true) ∧
    (∃ (s : State) (v : Nat) (chunk : Nat) (media : List StoredRead) (copies : List PeerSector), alive s = true ∧
      assemblyReady s v chunk = true ∧ masksCover (assemblyFrames s v chunk) = false ∧ (flushCovers s v (assemblyFrames s v
      chunk) = true ∨ flushAssembles s v = true)) ∧
    (∃ (s : State) (v : Nat) (chunk : Nat) (media : List StoredRead) (copies : List PeerSector) (top : Frame), alive s = true
      ∧ assemblyReady s v chunk = true ∧ masksCover (assemblyFrames s v chunk) = true ∧ newest (assemblyFrames s v chunk) =
      some top) ∧
    (∃ (s : State) (v : Nat) (chunk : Nat) (media : List StoredRead) (copies : List PeerSector), alive s = true ∧ jobOf s v
      chunk = none ∧ assemblyReady s v chunk = false ∧ (v, chunk) ∈ s.red.copies) ∧
    (∃ (s : State) (v : Nat) (chunk : Nat) (media : List StoredRead) (copies : List PeerSector), (v, chunk) ∉ s.red.copies ∧
      (assemblyReady s v chunk = false ∨ (masksCover (assemblyFrames s v chunk) = false ∧ flushCovers s v (assemblyFrames s v
      chunk) = false ∧ flushAssembles s v = false))) ∧
    (∃ (s : State) (v : Nat) (chunk : Nat) (j : Job), alive s = true ∧ jobOf s v chunk = some j ∧ j.stage = .assembling ∧ (∀ i
      ∈ List.range 8, j.lost.getLsbD i = true ∨ crc64 (j.sectors.getD i []) = j.guards.getD i 0)) ∧
    (∃ (s : State) (v : Nat) (chunk : Nat) (i : Nat) (j : Job), alive s = true ∧ jobOf s v chunk = some j ∧ j.stage =
      .assembling ∧ i < 8 ∧ j.lost.getLsbD i = false ∧ crc64 (j.sectors.getD i []) ≠ j.guards.getD i 0) ∧
    (∃ (s : State) (v : Nat) (chunk : Nat) (j : Job) (x : Volume), alive s = true ∧ jobOf s v chunk = some j ∧ j.stage =
      .placed ∧ (∀ k ∈ pendingCut s v, j.lsn ≤ k) ∧ volOf s v = some x ∧ lsnIn s x.table chunk < j.lsn) ∧
    (∃ (s : State) (v : Nat) (chunk : Nat) (j : Job) (x : Volume), alive s = true ∧ jobOf s v chunk = some j ∧ j.stage =
      .placed ∧ (∀ k ∈ pendingCut s v, j.lsn ≤ k) ∧ volOf s v = some x ∧ j.lsn ≤ lsnIn s x.table chunk ∧ j.copy = false) ∧
    (∃ (s : State) (v : Nat) (chunk : Nat) (j : Job) (x : Volume), alive s = true ∧ jobOf s v chunk = some j ∧ j.stage =
      .placed ∧ (∀ k ∈ pendingCut s v, j.lsn ≤ k) ∧ volOf s v = some x ∧ j.lsn ≤ lsnIn s x.table chunk ∧ j.copy = false) ∧
    (∃ (s : State) (v : Nat) (chunk : Nat) (j : Job) (k : Nat), jobOf s v chunk = some j ∧ pendingCut s v = some k ∧ k <
      j.lsn) :=
  ⟨⟨{ liveCmd 1 with wlg.frames := [{ frame3 with delay := 0, owner := live.glb.headSel }] }, 1, 3, [], [], by decide⟩,
   
      ⟨{ liveCmd 1 with wlg.frames := [{ frame3 with owner := live.glb.headSel }], dcq.cmds := [{ Cmd.reset with q := .ring 0 1, words := slot 3 0 1 2 0 0 0 0 0 [], st := .waiting, cover := 50 }] },
      1, 3, [], [], by decide⟩,
    ⟨{ liveCmd 1 with wlg.frames := [{ frame3 with mask := 0xFF, owner := live.glb.headSel }] }, 1, 3, [], [],
      { frame3 with mask := 0xFF, owner := live.glb.headSel }, by decide⟩,
    ⟨{ liveCmd 1 with red.copies := [(1, 3)] }, 1, 3, [], [], by decide⟩,
    ⟨{ liveCmd 1 with wlg.frames := [{ frame3 with owner := live.glb.headSel }] }, 1, 3, [], [], by decide⟩,
    ⟨{ liveJob (fun j => { j with lost := 0xFF }) .assembling with red.volumes := [{ vol1 with reduce := true }] }, 1, 3,
      { job3 .assembling with lost := 0xFF }, by decide⟩,
    ⟨liveJob (fun j => { j with sectors := [[5]] }) .assembling, 1, 3, 0, { job3 .assembling with sectors := [[5]] }, by
      decide⟩,
    ⟨liveJob (fun j => { j with grain := 77, container := List.replicate 256 0 }) .placed, 1, 3,
      { job3 .placed with grain := 77, container := List.replicate 256 0 }, vol1, by decide⟩,
   
      ⟨{ liveJob (fun j => { j with grain := 77, container := List.replicate 256 0 }) .placed with red.volumes := [{ vol1 with table := [(0, 7)] }], red.pages := [{ MapPage.reset with id := 7, cleared := [(3, 41)] }] },
      1, 3, { job3 .placed with grain := 77, container := List.replicate 256 0 }, { vol1 with table := [(0, 7)] }, by decide⟩,
   
      ⟨{ liveJob (fun j => { j with grain := 77, container := List.replicate 256 0 }) .placed with red.volumes := [{ vol1 with table := [(0, 7)] }], red.pages := [{ MapPage.reset with id := 7, cleared := [(3, 41)] }] },
      1, 3, { job3 .placed with grain := 77, container := List.replicate 256 0 }, { vol1 with table := [(0, 7)] }, by decide⟩,
   
      ⟨{ liveJob (fun j => j) .placed with red.volumes := [{ vol1 with snaps := [{ Snapshot.reset with num := 1, cut := 3 }] }] },
      1, 3, job3 .placed, 3, by decide⟩⟩

/-- States and operands that meet the hypotheses of ChunksAreReduced, clause by clause. -/
theorem witness_ChunksAreReduced :
    (∃ (s : State) (v : Nat) (chunk : Nat) (lane : Nat) (j : Job), alive s = true ∧ jobOf s v chunk = some j ∧ j.stage =
      .fingerprint ∧ laneRuns s 2 1 lane = true ∧ s.sec.drbgOk = true ∧ isZeroChunk j = true) ∧
    (∃ (s : State) (v : Nat) (chunk : Nat) (lane : Nat) (j : Job) (x : SeedSpace), alive s = true ∧ jobOf s v chunk = some j ∧
      j.stage = .fingerprint ∧ laneRuns s 2 1 lane = true ∧ s.sec.drbgOk = true ∧ isZeroChunk j = false ∧ (volOf s v).any
      (·.dedup) = true ∧ spaceOf s j.tenant = some x ∧ s.red.seedReady = true ∧ j.lost = 0) ∧
    (∃ (s : State) (v : Nat) (chunk : Nat) (lane : Nat) (j : Job), alive s = true ∧ jobOf s v chunk = some j ∧ j.stage =
      .fingerprint ∧ laneRuns s 2 1 lane = true ∧ s.sec.drbgOk = true ∧ isZeroChunk j = false ∧ ((volOf s v).any (·.dedup) =
      false ∨ s.red.seedReady = false ∨ j.lost ≠ 0)) ∧
    (∃ (s : State) (v : Nat) (chunk : Nat) (j : Job), alive s = true ∧ jobOf s v chunk = some j ∧ j.stage = .lookup ∧
      missInFlight s j = false ∧ lookupWaits s j = false ∧ laneRuns s 2 2 0 = true ∧ (spaceOf s j.tenant).bind (fun x =>
      seedFind x j.fp) = none) ∧
    (∃ (s : State) (v : Nat) (chunk : Nat) (j : Job) (e : SeedSlot), alive s = true ∧ jobOf s v chunk = some j ∧ j.stage =
      .lookup ∧ missInFlight s j = false ∧ lookupWaits s j = false ∧ laneRuns s 2 2 0 = true ∧ (spaceOf s j.tenant).bind (fun
      x => seedFind x j.fp) = some e ∧ e.count < countMax ∧ (volOf s v).any (·.verify) = true) ∧
    (∃ (s : State) (v : Nat) (chunk : Nat) (j : Job) (e : SeedSlot), alive s = true ∧ jobOf s v chunk = some j ∧ j.stage =
      .lookup ∧ missInFlight s j = false ∧ lookupWaits s j = false ∧ laneRuns s 2 2 0 = true ∧ (spaceOf s j.tenant).bind (fun
      x => seedFind x j.fp) = some e ∧ e.count < countMax ∧ (volOf s v).any (·.verify) = false) ∧
    (∃ (s : State) (v : Nat) (chunk : Nat) (j : Job) (e : SeedSlot), alive s = true ∧ jobOf s v chunk = some j ∧ j.stage =
      .lookup ∧ missInFlight s j = false ∧ lookupWaits s j = false ∧ laneRuns s 2 2 0 = true ∧ (spaceOf s j.tenant).bind (fun
      x => seedFind x j.fp) = some e ∧ countMax ≤ e.count) ∧
    (∃ (s : State) (v : Nat) (chunk : Nat) (lane : Nat) (pv : Nat) (pc : Nat) (media : List StoredRead) (j : Job) (l : BitVec
      64) (d : ChunkData) (u : State), alive s = true ∧ jobOf s v chunk = some j ∧ j.hit = some l ∧ j.stage = .verify ∧
      s.pwr.flushActive = false ∧ decodeGranted s lane = true ∧ s.sec.drbgOk = true ∧ ((trailerOf s (locGrain l)).map
      (·.volume)).getD v = pv ∧ ((trailerOf s (locGrain l)).map (·.chunk)).getD chunk = pc ∧ readStored true pv pc j.tenant
      { chunk := chunk, method := if locGrains l = 129 then .raw else .kernel, grain := BitVec.ofNat 43 (locGrain l), grains := locGrains l, shared := true, lsn := 0 }
      3 media (poolTake lane s) = (d, u)) ∧
    (∃ (s : State) (v : Nat) (chunk : Nat) (k : Nat) (j : Job) (x : SeedSpace), alive s = true ∧ jobOf s v chunk = some j ∧
      j.stage = .insert ∧ laneRuns s 2 2 0 = true ∧ spaceOf s j.tenant = some x ∧ (j.replace.bind fun r => x.slots.find? fun e
      => decide (e.bucket = r.1) && decide (e.slot = r.2)) = none ∧ emptySlot x (seedBucket x j.fp) = some k) ∧
    (∃ (s : State) (v : Nat) (chunk : Nat) (j : Job) (x : SeedSpace), alive s = true ∧ jobOf s v chunk = some j ∧ j.stage =
      .insert ∧ laneRuns s 2 2 0 = true ∧ spaceOf s j.tenant = some x ∧ (j.replace.bind fun r => x.slots.find? fun e => decide
      (e.bucket = r.1) && decide (e.slot = r.2)) = none ∧ emptySlot x (seedBucket x j.fp) = none) ∧
    (∃ (s : State) (v : Nat) (chunk : Nat) (j : Job) (x : SeedSpace) (e : SeedSlot), alive s = true ∧ jobOf s v chunk = some j
      ∧ j.stage = .insert ∧ laneRuns s 2 2 0 = true ∧ spaceOf s j.tenant = some x ∧ (j.replace.bind fun r => x.slots.find? fun
      e => decide (e.bucket = r.1) && decide (e.slot = r.2)) = some e) ∧
    (∃ (s : State) (tenant : Nat) (x : SeedSpace), alive s = true ∧ spaceOf s tenant = some x ∧ (x.splitting = true ∨ splitDue
      x = true) ∧ .seedSplit ∉ s.ecp.running) ∧
    (∃ (s : State) (tenant : Nat) (x : SeedSpace), alive s = true ∧ spaceOf s tenant = some x ∧ x.splitting = true ∧
      .seedSplit ∈ s.ecp.running ∧ x.splitPtr + 1 ≠ 2 ^ x.b ∧ bucketSlots x x.splitPtr = []) ∧
    (∃ (s : State) (tenant : Nat) (x : SeedSpace), alive s = true ∧ spaceOf s tenant = some x ∧ (x.splitting = true ∨ splitDue
      x = true) ∧ .seedSplit ∈ s.ecp.running ∧ x.splitPtr + 1 ≠ 2 ^ x.b) ∧
    (∃ (s : State) (tenant : Nat) (x : SeedSpace), alive s = true ∧ spaceOf s tenant = some x ∧ (x.splitting = true ∨ splitDue
      x = true) ∧ .seedSplit ∈ s.ecp.running ∧ x.splitPtr + 1 = 2 ^ x.b) ∧
    (∃ (s : State) (v : Nat) (num : Nat) (x : Volume) (p : Snapshot), alive s = true ∧ volOf s v = some x ∧ x.snaps.find? (fun
      p => decide (p.num = num) && !p.frozen && !p.deleting) = some p ∧ committedUpTo s v p.cut = true) ∧
    (∃ (s : State) (v : Nat) (num : Nat) (x : Volume) (p : Snapshot), volOf s v = some x ∧ x.snaps.find? (fun p => decide
      (p.num = num) && !p.frozen && !p.deleting) = some p ∧ committedUpTo s v p.cut = false) ∧
    (∃ (s : State) (v : Nat) (num : Nat) (x : Volume) (p : Snapshot), alive s = true ∧ volOf s v = some x ∧ x.snaps.find? (fun
      p => decide (p.num = num) && p.deleting) = some p ∧ snapAwaited s v p = false) ∧
    (∃ (s : State) (v : Nat) (chunk : Nat) (lane : Nat) (j : Job), alive s = true ∧ jobOf s v chunk = some j ∧ j.stage =
      .encode ∧ laneRuns s 2 3 lane = true ∧ encoderFree s lane = true ∧ (kcForce s = true ∨ j.lost ≠ 0 ∨ s.pwr.flushActive =
      true)) ∧
    (∃ (s : State) (v : Nat) (chunk : Nat) (lane : Nat) (j : Job) (o : Option (List (Nat × List (BitVec 8)))), alive s = true
      ∧ jobOf s v chunk = some j ∧ j.stage = .encode ∧ laneRuns s 2 3 lane = true ∧ encoderFree s lane = true ∧ kcForce s =
      false ∧ j.lost = 0 ∧ s.pwr.flushActive = false ∧ encodeSlices (rasterOf j) (kcFixed s) (j.sectors.flatMap id) = o) ∧
    (∃ (s : State) (v : Nat) (chunk : Nat) (lane : Nat) (fault : Bool) (ok : Bool) (j : Job), alive s = true ∧ jobOf s v chunk
      = some j ∧ j.stage = .kernelVerify ∧ poolFree s lane = true ∧ ctlState s (srcId 2 3 j.lane) ≠ .husk ∧ (!fault && decide
      (containerData (parseContainer j.container) 8 = j.sectors.flatMap id) && decide ((parseContainer j.container).guards =
      j.guards) && decide ((parseContainer j.container).tenant = j.tenant ∧ (parseContainer j.container).volume = v ∧
      (parseContainer j.container).chunk = chunk ∧ (parseContainer j.container).lsn = j.lsn) && (parseContainer
      j.container).kernel && decide ((parseContainer j.container).lostMask = j.lost) && decide ((parseContainer
      j.container).raster.bits = (rasterOf j).bits ∧ (parseContainer j.container).raster.lanes = (rasterOf j).lanes ∧
      (parseContainer j.container).raster.stride = (rasterOf j).stride ∧ (parseContainer j.container).raster.phase = (rasterOf
      j).phase)) = ok) ∧
    (∃ (s : State) (v : Nat) (chunk : Nat) (lane : Nat) (fault : Bool) (j : Job), alive s = true ∧ jobOf s v chunk = some j ∧
      j.stage = .kernelVerify ∧ (ctlState s (srcId 2 4 lane) = .husk ∨ (poolFree s lane = true ∧ ctlState s (srcId 2 3 j.lane)
      = .husk))) ∧
    (∃ (s : State) (v : Nat) (snap : Nat) (chunk : Nat) (lane : Nat) (media : List StoredRead), alive s = true ∧ decodeGranted
      s lane = true ∧ s.sec.drbgOk = true) ∧
    (∃ (s : State) (requester : Nat) (off : Nat) (input : List (BitVec 8)), powered s = true ∧ dictDecodeAt input = (none,
      off)) ∧
    (∃ (s : State) (encode : Bool) (cfg : Bool) (requester : Nat) (input : List (BitVec 8)), (encode = true ∨ cfg = true ∨
      powered s = false ∨ (dictDecodeAt input).1 ≠ none)) ∧
    (∃ (s : State) (v : Nat) (chunk : Nat) (lane : Nat) (j : Job) (plain : List (BitVec 8)) (n : BitVec 64) (u : State) (w :
      State) (r : Option Nat), alive s = true ∧ jobOf s v chunk = some j ∧ j.stage = .protect ∧ laneRuns s 3 1 lane = true ∧
      s.sec.drbgOk = true ∧ (if j.container = [] ∨ s.pwr.flushActive = true then jobRaw j else j.container) = plain ∧
      takeSerial s = (some n, u) ∧ placeObject (if s.pwr.flushActive = true then flushGeom u else geomOf u v).1 (if
      s.pwr.flushActive = true then flushGeom u else geomOf u v).2 (if s.pwr.flushActive = true then 2 else 0) (sealStored u
      j.tenant ({ parseContainer plain with serial := n }.bytes))
      { volume := v, method := leAt plain 11 1, shared := false, moved := false, kind := 0, len := ({ parseContainer plain with serial := n }.bytes).length / 256, grain := 0, chunk := chunk, lsn := j.lsn }
      u = (r, w)) ∧
    (∃ (s : State) (v : Nat) (chunk : Nat) (lane : Nat) (j : Job) (u : State), alive s = true ∧ jobOf s v chunk = some j ∧
      j.stage = .protect ∧ laneRuns s 3 1 lane = true ∧ s.sec.drbgOk = true ∧ takeSerial s = (none, u)) :=
  ⟨⟨liveJob zeroJob .fingerprint, 1, 3, 0, zeroJob (job3 .fingerprint), by decide, rfl, by decide, by decide, by decide,
      zero_job⟩,
   
      ⟨{ liveJob (fun j => { j with sectors := [[5]] }) .fingerprint with red.seedReady := true, red.spaces := [space2], red.volumes := [{ vol1 with dedup := true }] },
      1, 3, 0, { job3 .fingerprint with sectors := [[5]] }, space2, by decide⟩,
    ⟨liveJob (fun j => { j with sectors := [[5]] }) .fingerprint, 1, 3, 0, { job3 .fingerprint with sectors := [[5]] }, by
      decide⟩,
    ⟨{ liveJob (fun j => { j with fp := List.replicate 16 9 }) .lookup with red.spaces := [space2] }, 1, 3,
      { job3 .lookup with fp := List.replicate 16 9 }, by decide⟩,
   
      ⟨{ liveJob (fun j => { j with fp := List.replicate 16 9 }) .lookup with red.volumes := [{ vol1 with verify := true }], red.spaces := [{ space2 with slots := [{ SeedSlot.reset with bucket := 1, slot := 2, tag := 0x909, fp := List.replicate 16 9, location := 88, count := 3 }] }] },
      1, 3, { job3 .lookup with fp := List.replicate 16 9 },
      { SeedSlot.reset with bucket := 1, slot := 2, tag := 0x909, fp := List.replicate 16 9, location := 88, count := 3 }, by
      decide⟩,
   
      ⟨{ liveJob (fun j => { j with fp := List.replicate 16 9 }) .lookup with red.spaces := [{ space2 with slots := [{ SeedSlot.reset with bucket := 1, slot := 2, tag := 0x909, fp := List.replicate 16 9, location := 88, count := 3 }] }] },
      1, 3, { job3 .lookup with fp := List.replicate 16 9 },
      { SeedSlot.reset with bucket := 1, slot := 2, tag := 0x909, fp := List.replicate 16 9, location := 88, count := 3 }, by
      decide⟩,
   
      ⟨{ liveJob (fun j => { j with fp := List.replicate 16 9 }) .lookup with red.spaces := [{ space2 with slots := [{ SeedSlot.reset with bucket := 1, slot := 2, tag := 0x909, fp := List.replicate 16 9, location := 88, count := countMax }] }] },
      1, 3, { job3 .lookup with fp := List.replicate 16 9 },
      { SeedSlot.reset with bucket := 1, slot := 2, tag := 0x909, fp := List.replicate 16 9, location := 88, count := countMax },
      by decide⟩,
    ⟨liveJob (fun j => { j with hit := some 88 }) .verify, 1, 3, 5, 1, 3, [], { job3 .verify with hit := some 88 }, 88, _, _,
      by decide, by decide, by decide, by decide, by decide, by decide, by decide, by decide, by decide, pair_eta _⟩,
    ⟨{ liveJob (fun j => { j with fp := List.replicate 16 9 }) .insert with red.spaces := [space2] }, 1, 3, 0,
      { job3 .insert with fp := List.replicate 16 9 }, space2, by decide⟩,
   
      ⟨{ liveJob (fun j => { j with fp := List.replicate 16 9 }) .insert with red.spaces := [{ space2 with slots := (List.range 32).map fun i => { SeedSlot.reset with bucket := 1, slot := i } }] },
      1, 3, { job3 .insert with fp := List.replicate 16 9 },
      { space2 with slots := (List.range 32).map fun i => { SeedSlot.reset with bucket := 1, slot := i } }, by decide⟩,
   
      ⟨{ liveJob (fun j => { j with replace := some (1, 2), fp := List.replicate 16 9 }) .insert with red.spaces := [{ space2 with slots := [{ SeedSlot.reset with bucket := 1, slot := 2 }] }] },
      1, 3, { job3 .insert with replace := some (1, 2), fp := List.replicate 16 9 },
      { space2 with slots := [{ SeedSlot.reset with bucket := 1, slot := 2 }] },
      { SeedSlot.reset with bucket := 1, slot := 2 }, by decide⟩,
    ⟨{ liveCmd 1 with red.spaces := [{ space2 with splitting := true }] }, 2, { space2 with splitting := true }, by decide⟩,
    ⟨{ liveCmd 1 with red.spaces := [{ space2 with splitting := true, splitPtr := 2 }], ecp.running := [.seedSplit] }, 2,
      { space2 with splitting := true, splitPtr := 2 }, by decide⟩,
    ⟨{ liveCmd 1 with red.spaces := [{ space2 with splitting := true, splitPtr := 2 }], ecp.running := [.seedSplit] }, 2,
      { space2 with splitting := true, splitPtr := 2 }, by decide⟩,
    ⟨{ liveCmd 1 with red.spaces := [{ space2 with splitting := true, splitPtr := 7 }], ecp.running := [.seedSplit] }, 2,
      { space2 with splitting := true, splitPtr := 7 }, by decide⟩,
   
      ⟨{ liveCmd 1 with red.volumes := [{ vol1 with table := [(0, 7)], snaps := [{ Snapshot.reset with num := 4, cut := 3 }] }] },
      1, 4, { vol1 with table := [(0, 7)], snaps := [{ Snapshot.reset with num := 4, cut := 3 }] },
      { Snapshot.reset with num := 4, cut := 3 }, by decide⟩,
   
      ⟨{ liveCmd 1 with wlg.frames := [frame3], red.volumes := [{ vol1 with table := [(0, 7)], snaps := [{ Snapshot.reset with num := 4, cut := 41 }] }] },
      1, 4, { vol1 with table := [(0, 7)], snaps := [{ Snapshot.reset with num := 4, cut := 41 }] },
      { Snapshot.reset with num := 4, cut := 41 }, by decide⟩,
   
      ⟨{ liveCmd 1 with red.volumes := [{ vol1 with snaps := [{ Snapshot.reset with num := 4, deleting := true, table := [(0, 7)] }] }], red.pages := [{ MapPage.reset with id := 7 }] },
      1, 4, { vol1 with snaps := [{ Snapshot.reset with num := 4, deleting := true, table := [(0, 7)] }] },
      { Snapshot.reset with num := 4, deleting := true, table := [(0, 7)] }, by decide⟩,
    ⟨{ liveJob (fun j => j) .encode with kc.forceRaw := true }, 1, 3, 0, job3 .encode, by decide⟩,
    ⟨liveJob id .encode, 1, 3, 0, job3 .encode, _, by decide, by decide, by decide, by decide, by decide, by decide, by
      decide, by decide, rfl⟩,
    ⟨liveJob (fun j => j) .kernelVerify, 1, 3, 0, true, false, job3 .kernelVerify, by decide, by decide, by decide, by decide,
      by decide, rfl⟩,
    ⟨{ liveJob (fun j => j) .kernelVerify with flt.ports := [{ Port.reset with src := srcId 2 3 0, st := .husk }] }, 1, 3, 0,
      true, job3 .kernelVerify, by decide⟩,
    ⟨liveCmd 1, 1, 0, 3, 0, [], by decide⟩,
    ⟨liveCmd 1, 3, (dictDecodeAt [0xF0]).2, [0xF0], by decide⟩,
    ⟨liveCmd 1, true, false, 3, [0xF0], by decide⟩,
    ⟨liveJob (fun x => { x with container := [1] }) .protect, 1, 3, 0, { job3 .protect with container := [1] }, [1], 0,
      (takeSerial (liveJob (fun x => { x with container := [1] }) .protect)).2, (placeObject (geomOf (takeSerial (liveJob (fun
      x => { x with container := [1] }) .protect)).2 1).1 (geomOf (takeSerial (liveJob (fun x => { x with container := [1] })
      .protect)).2 1).2 0 (sealStored (takeSerial (liveJob (fun x => { x with container := [1] }) .protect)).2 2
      ({ parseContainer [1] with serial := 0 }.bytes))
      { volume := 1, method := leAt [1] 11 1, shared := false, moved := false, kind := 0, len := ({ parseContainer [1] with serial := 0 }.bytes).length / 256, grain := 0, chunk := 3, lsn := 41 }
      (takeSerial (liveJob (fun x => { x with container := [1] }) .protect)).2).2, (placeObject (geomOf (takeSerial (liveJob
      (fun x => { x with container := [1] }) .protect)).2 1).1 (geomOf (takeSerial (liveJob (fun x =>
      { x with container := [1] }) .protect)).2 1).2 0 (sealStored (takeSerial (liveJob (fun x => { x with container := [1] })
      .protect)).2 2 ({ parseContainer [1] with serial := 0 }.bytes))
      { volume := 1, method := leAt [1] 11 1, shared := false, moved := false, kind := 0, len := ({ parseContainer [1] with serial := 0 }.bytes).length / 256, grain := 0, chunk := 3, lsn := 41 }
      (takeSerial (liveJob (fun x => { x with container := [1] }) .protect)).2).1, by decide, by decide, by decide, by decide,
      by decide, by decide, by decide, pair_eta _⟩,
    ⟨{ liveJob (fun x => { x with container := [1] }) .protect with sec.serial := 2 ^ 63, sec.serialEnd := 2 ^ 64 }, 1, 3, 0,
      { job3 .protect with container := [1] }, (takeSerial
      { liveJob (fun x => { x with container := [1] }) .protect with sec.serial := 2 ^ 63, sec.serialEnd := 2 ^ 64 }).2, by
      decide, by decide, by decide, by decide, by decide, Prod.ext (by decide) rfl⟩⟩

/-- States and operands that meet the hypotheses of ModuleLinksTrain, clause by clause. -/
theorem witness_ModuleLinksTrain :
    (∃ (s : State) (p : Nat), portUsable s p = true ∧ p < 48 ∧ p < s.med.ports.length ∧ (portOf s p).present = true ∧ ((portOf
      s p).st = .disabled ∨ (portOf s p).st = .down)) ∧
    (∃ (s : State) (p : Nat), alive s = true ∧ p < 48 ∧ p < s.med.ports.length ∧ (portUsable s p = false ∨ (portOf s
      p).present = false)) ∧
    (∃ (s : State) (p : Nat), alive s = true ∧ (portOf s p).st = .detect) ∧
    (∃ (s : State) (p : Nat) (lanes : List (Nat × Bool)), alive s = true ∧ (portOf s p).st = .train ∧ lanesLock s 3 p 2 lanes
      = true ∧ wrongLane s 3 p 2 lanes = none) ∧
    (∃ (s : State) (p : Nat) (l : Nat) (lanes : List (Nat × Bool)), alive s = true ∧ (portOf s p).st = .train ∧ lanesLock s 3
      p 2 lanes = true ∧ wrongLane s 3 p 2 lanes = some l) ∧
    (∃ (s : State) (p : Nat), alive s = true ∧ (portOf s p).st = .train ∧ (portOf s p).stAt + 100000000 ≤ now s) ∧
    (∃ (s : State) (p : Nat), alive s = true ∧ p < s.med.ports.length ∧ (portOf s p).st = .train ∧ (∀ c ∈ (portOf s p).cmds,
      c.opc ≠ 2 ∧ c.opc ≠ 3) ∧ (slotOf s p).st = .absent ∧ (portOf s p).stAt + 100000000 ≤ now s) ∧
    (∃ (s : State) (p : Nat), portUsable s p = true ∧ (portOf s p).st = .down ∧ (portOf s p).present = true ∧ (portOf s p).pg
      = true ∧ (portOf s p).stAt + 10 ^ 9 ≤ now s) ∧
    (∃ (s : State) (p : Nat) (d : DmlIdent), alive s = true ∧ p < s.med.ports.length ∧ (portOf s p).st = .ident ∧ d.otherHead
      ≠ b2n s.glb.headSel ∧ infoOk d.info = true ∧ moduleGeometryOk d.info = true ∧ identOk d = true) ∧
    (∃ (s : State) (p : Nat) (d : DmlIdent), alive s = true ∧ (portOf s p).st = .ident ∧ d.otherHead = b2n s.glb.headSel) ∧
    (∃ (s : State) (p : Nat) (d : DmlIdent), alive s = true ∧ (portOf s p).st = .ident ∧ d.otherHead ≠ b2n s.glb.headSel ∧
      infoOk d.info = false) ∧
    (∃ (s : State) (p : Nat) (d : DmlIdent), alive s = true ∧ (portOf s p).st = .ident ∧ d.otherHead ≠ b2n s.glb.headSel ∧
      infoOk d.info = true ∧ moduleGeometryOk d.info = false) ∧
    (∃ (s : State) (p : Nat) (f : List (BitVec 8)), alive s = true ∧ (portOf s p).st = .active ∧ flitCrcOk f = true ∧ flitType
      f ∈ bridgeTypes) ∧
    (∃ (s : State) (p : Nat) (f : List (BitVec 8)), alive s = true ∧ p < s.med.ports.length ∧ (portOf s p).st = .active ∧
      flitCrcOk f = true ∧ bridgeSequenced (flitType f) = true ∧ flitSeq f = (portOf s p).seqRx) ∧
    (∃ (s : State) (p : Nat) (f : List (BitVec 8)), alive s = true ∧ p < s.med.ports.length ∧ (portOf s p).st = .active ∧
      flitCrcOk f = false ∧ (portOf s p).nakSent = false) ∧
    (∃ (s : State) (p : Nat) (f : List (BitVec 8)), alive s = true ∧ p < s.med.ports.length ∧ (portOf s p).st = .active ∧
      flitCrcOk f = true ∧ bridgeSequenced (flitType f) = true ∧ flitSeq f ≠ (portOf s p).seqRx) ∧
    (∃ (s : State) (p : Nat) (f : List (BitVec 8)), alive s = true ∧ (portOf s p).st = .active ∧ syncSeen f = true) ∧
    (∃ (s : State) (p : Nat) (f : List (BitVec 8)), alive s = true ∧ p < s.med.ports.length ∧ (portOf s p).st = .active ∧
      syncSeen f = false ∧ 2 ≤ (portOf s p).syncMiss) ∧
    (∃ (s : State) (p : Nat) (ack : Nat), alive s = true ∧ p < s.med.ports.length ∧ (portOf s p).st = .active ∧ ackFlits ack
      (portOf s p).unacked ≠ [] ∧ (∀ x ∈ (ackFlits ack (portOf s p).unacked).head?, x.2 < 4)) ∧
    (∃ (s : State) (p : Nat) (a : Nat) (n : Nat) (r : List (Nat × Nat)), alive s = true ∧ p < s.med.ports.length ∧ (portOf s
      p).st = .active ∧ (portOf s p).unacked = (a, n) :: r ∧ n < 4 ∧ (portOf s p).ackAt + 4000 ≤ now s) ∧
    (∃ (s : State) (p : Nat) (a : Nat) (n : Nat) (r : List (Nat × Nat)), alive s = true ∧ p < s.med.ports.length ∧ (portOf s
      p).st = .active ∧ (portOf s p).unacked = (a, n) :: r ∧ 4 ≤ n ∧ (portOf s p).ackAt + 4000 ≤ now s) ∧
    (∃ (s : State) (p : Nat), alive s = true ∧ (portOf s p).st = .retrain ∧ (portOf s p).retrainTries < 2 ∧ (portOf s p).stAt
      + 10000000 ≤ now s) ∧
    (∃ (s : State) (p : Nat), alive s = true ∧ (portOf s p).st = .retrain ∧ 2 ≤ (portOf s p).retrainTries ∧ (portOf s p).stAt
      + 10000000 ≤ now s) ∧
    (∃ (s : State) (p : Nat) (lanes : List (Nat × Bool)), alive s = true ∧ p < s.med.ports.length ∧ (portOf s p).st = .retrain
      ∧ lanesLock s 3 p 2 lanes = true ∧ wrongLane s 3 p 2 lanes = none) ∧
    (∃ (s : State) (p : Nat) (l : Nat) (lanes : List (Nat × Bool)), alive s = true ∧ (portOf s p).st = .retrain ∧ lanesLock s
      3 p 2 lanes = true ∧ wrongLane s 3 p 2 lanes = some l) ∧
    (∃ (s : State) (p : Nat), alive s = true ∧ p < 48 ∧ p < s.med.ports.length ∧ (portOf s p).present = false) ∧
    (∃ (s : State) (p : Nat), alive s = true ∧ p < s.med.ports.length ∧ (portOf s p).present = true) :=
  ⟨⟨livePort fun m => { m with st := .down, pg := false }, 3, by decide⟩,
    ⟨live, 3, by decide⟩,
    ⟨livePort fun m => { m with st := .detect }, 3, by decide⟩,
    ⟨livePort fun m => { m with st := .train }, 3, [(0, false), (1, false)], by decide⟩,
    ⟨livePort fun m => { m with st := .train }, 3, 0, [(1, false), (0, false)], by decide⟩,
    ⟨{ livePort (fun m => { m with st := .train }) with lds.deviceTime := 10 ^ 9 }, 3, by decide⟩,
    ⟨{ livePort (fun m => { m with st := .train, cmds := [{ DmlCmd.reset with opc := 1 }] }) with lds.deviceTime := 10 ^ 9 },
      3, by decide⟩,
    ⟨{ livePort (fun m => { m with st := .down }) with lds.deviceTime := 10 ^ 9 }, 3, by decide⟩,
    ⟨livePort fun m => { m with st := .ident }, 3,
      { format := 1, port := 1, otherHead := 1, epoch := 9, fencedPort := 255, resHeld := 0, cmdCredits := 256, wdCredits := 1024, serial := 77, tick := 5, info := page1 },
      by decide⟩,
    ⟨livePort fun m => { m with st := .ident }, 3,
      { format := 1, port := 1, otherHead := b2n live.glb.headSel, epoch := 9, fencedPort := 255, resHeld := 0, cmdCredits := 256, wdCredits := 1024, serial := 77, tick := 5, info := [] },
      by decide⟩,
    ⟨livePort fun m => { m with st := .ident }, 3,
      { format := 1, port := 1, otherHead := 1, epoch := 9, fencedPort := 255, resHeld := 0, cmdCredits := 256, wdCredits := 1024, serial := 77, tick := 5, info := [] },
      by decide⟩,
    ⟨livePort fun m => { m with st := .ident }, 3,
      { format := 1, port := 1, otherHead := 1, epoch := 9, fencedPort := 255, resHeld := 0, cmdCredits := 256, wdCredits := 1024, serial := 77, tick := 5, info := page2 },
      by decide⟩,
    ⟨livePort fun m => { m with st := .active }, 3, dmlFlit 0 0 0 none [], by decide⟩,
    ⟨livePort fun m => { m with st := .active, seqRx := 1023, nakSent := true }, 3, dmlFlit 0x21 0 1023 none [], by decide⟩,
    ⟨livePort fun m => { m with st := .active }, 3, [0x21], by decide⟩,
    ⟨livePort fun m => { m with st := .active }, 3, dmlFlit 0x21 0 4 none [], by decide⟩,
    ⟨livePort fun m => { m with st := .active, syncMiss := 2 }, 3, syncFlit, by decide⟩,
    ⟨livePort fun m => { m with st := .active, syncMiss := 2 }, 3, [], by decide⟩,
    ⟨livePort fun m => { m with st := .active, unacked := [(7, 3), (8, 3), (9, 3)] }, 3, 7, by decide⟩,
    ⟨{ livePort (fun m => { m with st := .active, unacked := [(8, 3), (9, 3)] }) with lds.deviceTime := 4000 }, 3, 8, 3, [(9,
      3)], by decide⟩,
    ⟨{ livePort (fun m => { m with st := .active, unacked := [(8, 4), (9, 3)] }) with lds.deviceTime := 4000 }, 3, 8, 4, [(9,
      3)], by decide⟩,
    ⟨{ livePort (fun m => { m with st := .retrain, retrainTries := 1 }) with lds.deviceTime := 10 ^ 9 }, 3, by decide⟩,
    ⟨{ livePort (fun m => { m with st := .retrain, retrainTries := 2 }) with lds.deviceTime := 10 ^ 9 }, 3, by decide⟩,
    ⟨livePort fun m => { m with st := .retrain, retrainTries := 2, unacked := [(8, 3), (9, 3)] }, 3, [(0, false), (1, false)],
      by decide⟩,
    ⟨livePort fun m => { m with st := .retrain }, 3, 0, [(1, false), (0, false)], by decide⟩,
    ⟨live, 3, by decide⟩,
   
      ⟨{ livePort (fun m => { m with st := .active, cmds := [{ DmlCmd.reset with opc := 2 }] }) with ecp.slots := live.ecp.slots.modify 3 fun x => { x with st := .member } },
      3, by decide⟩⟩

/-- States and operands that meet the hypotheses of ModulesAreHeard, clause by clause. -/
theorem witness_ModulesAreHeard :
    (∃ (s : State) (p : Nat) (x : DmlCpl) (c : DmlCmd), alive s = true ∧ (portOf s p).st = .active ∧ (portOf s p).cmds.find?
      (fun c => decide (c.tag = x.tag) && decide (c.gen = x.gen)) = some c) ∧
    (∃ (s : State) (p : Nat) (x : DmlCpl), alive s = true ∧ (portOf s p).st = .active ∧ (portOf s p).cmds.find? (fun c =>
      decide (c.tag = x.tag) && decide (c.gen = x.gen)) = none) ∧
    (∃ (s : State) (p : Nat) (r : TelemRecord), alive s = true ∧ p < s.med.ports.length ∧ (portOf s p).st = .active) ∧
    (∃ (s : State) (p : Nat), alive s = true ∧ (portOf s p).st = .active ∧ (portOf s p).telemLost = false ∧ (portOf s
      p).telemTime + 3 * s.med.periodMs * 1000000 ≤ now s) ∧
    (∃ (s : State) (p : Nat) (e : ModuleEventRec), alive s = true ∧ e.code ≠ 3 ∧ e.code ≠ 5 ∧ e.code ≠ 8) ∧
    (∃ (s : State) (p : Nat) (e : ModuleEventRec), alive s = true ∧ p < s.med.ports.length ∧ e.code = 5) ∧
    (∃ (s : State) (p : Nat) (e : ModuleEventRec), alive s = true ∧ e.code = 3) ∧
    (∃ (s : State) (p : Nat) (e : ModuleEventRec), alive s = true ∧ e.code = 8) ∧
    (∃ (s : State) (w : BitVec 32), hostWriteOk s 0x0B = true ∧ (10 ≤ fld w 0 11 ∧ fld w 0 11 ≤ 1000)) ∧
    (∃ (s : State) (w : BitVec 32), hostWriteOk s 0x0B = true ∧ (fld w 0 11 < 10 ∨ 1000 < fld w 0 11)) :=
  ⟨⟨livePort fun m =>
      { m with st := .active, cmds := [{ DmlCmd.reset with tag := 5, gen := 2, opc := 0x10, die := 1, count := 2 }] }, 3,
      { tag := 5, gen := 2, status := 0, dieStatus := 0, tick := 0, busyUs := 0, info := 0 },
      { DmlCmd.reset with tag := 5, gen := 2, opc := 0x10, die := 1, count := 2 }, by decide⟩,
    ⟨livePort fun m =>
      { m with st := .active, cmds := [{ DmlCmd.reset with tag := 5, gen := 2, opc := 0x10, die := 1, count := 2 }] }, 3,
      { tag := 5, gen := 1, status := 0, dieStatus := 0, tick := 0, busyUs := 0, info := 0 }, by decide⟩,
    ⟨livePort fun m => { m with st := .active }, 3,
      { tick := 6, bridgeTemp := 300, inletTemp := 250, nvOk := true, zones := [0x8000, 400, 1300, 1300, 0xFFF0, 0x8000, 0x8000, 0x8000], vin := 12000, iin := 55, otherActive := true, resHeld := 2, busy := 7, suspended := 0, epoch := 4, fencedPort := 255 },
      by decide⟩,
    ⟨{ livePort (fun m => { m with st := .active }) with lds.deviceTime := 10 ^ 13 }, 3, by decide⟩,
    ⟨livePort fun m => m, 3, { code := 7, severity := 2, die := 1, tick := 99, param := 5 }, by decide⟩,
    ⟨livePort fun m => m, 3, { code := 5, severity := 1, die := 1, tick := 99, param := 0x100000009 }, by decide⟩,
    ⟨livePort fun m => m, 3, { code := 3, severity := 1, die := 1, tick := 99, param := 5 }, by decide⟩,
    ⟨livePort fun m => m, 3, { code := 8, severity := 1, die := 1, tick := 99, param := 5 }, by decide⟩,
    ⟨livePort fun m => { m with st := .active }, 1000, by decide⟩,
    ⟨live, 1001, by decide⟩⟩

/-- States and operands that meet the hypotheses of MediaIsRead, clause by clause. -/
theorem witness_MediaIsRead :
    (∃ (s : State) (slot : Nat) (die : Nat) (plane : Nat) (block : Nat) (page : Nat) (cw : Nat) (work : DieWork), alive s =
      true ∧ s.mmg.reads.find? (fun r => isRead r slot die plane block page cw) = none) ∧
    (∃ (s : State) (slot : Nat) (die : Nat) (plane : Nat) (block : Nat) (page : Nat) (cw : Nat) (lane : Nat) (best : Nat)
      (bytes : List (BitVec 8)) (r : CwRead), alive s = true ∧ s.mmg.reads.find? (fun r => isRead r slot die plane block page
      cw) = some r ∧ ldpcOk bytes = true) ∧
    (∃ (s : State) (slot : Nat) (die : Nat) (plane : Nat) (block : Nat) (page : Nat) (cw : Nat) (lane : Nat) (best : Nat)
      (bytes : List (BitVec 8)) (r : CwRead), alive s = true ∧ s.mmg.reads.find? (fun r => isRead r slot die plane block page
      cw) = some r ∧ ldpcOk bytes = false) ∧
    (∃ (s : State) (slot : Nat) (die : Nat) (plane : Nat) (block : Nat) (page : Nat) (cw : Nat) (lane : Nat) (best : Nat) (r :
      CwRead), alive s = true ∧ s.mmg.reads.find? (fun r => isRead r slot die plane block page cw) = some r ∧ r.step = 3) ∧
    (∃ (s : State) (slot : Nat) (die : Nat) (plane : Nat) (block : Nat) (page : Nat) (cw : Nat) (lane : Nat) (best : Nat) (r :
      CwRead), alive s = true ∧ s.mmg.reads.find? (fun r => isRead r slot die plane block page cw) = some r ∧ 4 ≤ r.step) ∧
    (∃ (s : State) (slot : Nat) (die : Nat) (c : DmlCmd), alive s = true ∧ 100000 ≤ now s ∧ readSince s slot die (now s -
      100000) = true ∧ (∀ x ∈ s.mmg.suspends, x.slot = slot → x.die ≠ die) ∧ suspendable s slot die = some c) ∧
    (∃ (s : State) (slot : Nat) (die : Nat) (x : SuspendedOp), alive s = true ∧ s.mmg.suspends.find? (fun x => decide (x.slot
      = slot) && decide (x.die = die)) = some x ∧ (readSince s slot die (now s) = false ∨ x.at_ + 2000000 ≤ now s)) ∧
    (∃ (s : State), alive s = true ∧ s.mmg.wp = none ∧ waypointWanted s = true) ∧
    (∃ (s : State) (w : WaypointState), alive s = true ∧ s.mmg.wp = some w ∧ w.whole = false) ∧
    (∃ (s : State), (∀ w, s.mmg.wp = some w → w.whole = true) ∧ (s.mmg.wp ≠ none ∨ waypointWanted s = false)) ∧
    (∃ (s : State) (w : WaypointState), alive s = true ∧ s.mmg.wp = some w ∧ recordDone w s = true ∧ s.mmg.wpRequest = false)
      ∧
    (∃ (s : State) (w : WaypointState), s.mmg.wp = some w ∧ recordDone w s = false) ∧
    (∃ (s : State) (ep : Nat) (w : BitVec 32), hostWriteOk s 0x0B = true) :=
  ⟨⟨liveMod [{ blk5 with retrySet := 2 }], 3, 0, 0, 5, 70, 1, .hostRead, by decide⟩,
   
      ⟨{ liveMod [blk5] with mmg.reads := [{ CwRead.reset with slot := 3, block := 5, page := 70, cw := 1, step := 3, retry := 2 }] },
      3, 0, 0, 5, 70, 1, 0, 2, List.replicate 4608 0,
      { CwRead.reset with slot := 3, block := 5, page := 70, cw := 1, step := 3, retry := 2 }, by decide⟩,
   
      ⟨{ liveMod [blk5] with mmg.reads := [{ CwRead.reset with slot := 3, block := 5, page := 70, cw := 1, step := 3, retry := 2 }] },
      3, 0, 0, 5, 70, 1, 0, 2, [], { CwRead.reset with slot := 3, block := 5, page := 70, cw := 1, step := 3, retry := 2 }, by
      decide⟩,
   
      ⟨{ liveMod [blk5] with mmg.reads := [{ CwRead.reset with slot := 3, block := 5, page := 70, cw := 1, step := 3, retry := 2 }] },
      3, 0, 0, 5, 70, 1, 0, 2, { CwRead.reset with slot := 3, block := 5, page := 70, cw := 1, step := 3, retry := 2 }, by
      decide⟩,
   
      ⟨{ liveMod [blk5] with mmg.reads := [{ CwRead.reset with slot := 3, block := 5, page := 70, cw := 1, step := 4, retry := 2 }] },
      3, 0, 0, 5, 70, 1, 0, 2, { CwRead.reset with slot := 3, block := 5, page := 70, cw := 1, step := 4, retry := 2 }, by
      decide⟩,
   
      ⟨{ livePort (fun m => { m with st := .active, info := page1, cmds := [{ DmlCmd.reset with tag := 5, opc := 3 }], creditCmd := 9 }) with lds.deviceTime := 10 ^ 9, mmg.reads := [{ CwRead.reset with slot := 3 }] },
      3, 0, { DmlCmd.reset with tag := 5, opc := 3 }, by decide⟩,
   
      ⟨{ livePort (fun m => { m with st := .active, info := page1, creditCmd := 9 }) with mmg.suspends := [{ slot := 3, die := 0, tag := 5, at_ := 0 }] },
      3, 0, { slot := 3, die := 0, tag := 5, at_ := 0 }, by decide⟩,
    ⟨{ liveMod [{ blk5 with st := .free }] with mmg.wpRequest := true, wlg.lsn := 40, wlg.frames := [frame3] }, by decide⟩,
   
      ⟨{ liveMod [{ blk5 with st := .free }] with mmg.wp := some { WaypointState.reset with seq := 8, whole := false }, wlg.lsn := 40 },
      { WaypointState.reset with seq := 8, whole := false }, by decide⟩,
    ⟨live, by decide⟩,
   
      ⟨{ liveMod [{ blk5 with st := .free }] with mmg.wp := some { WaypointState.reset with seq := 8, commitLsn := 41, frames := [(1, 41, 0)], record := [7], place := some ({ Member.reset with slot := 3 }, 5) }, mmg.metaStrips := 300, wlg.lsn := 40, wlg.frames := [frame3, { frame3 with index := 1 }] },
      { WaypointState.reset with seq := 8, commitLsn := 41, frames := [(1, 41, 0)], record := [7], place := some ({ Member.reset with slot := 3 }, 5) },
      by decide⟩,
    ⟨{ liveMod [{ blk5 with st := .free }] with mmg.wp := some { WaypointState.reset with whole := false } },
      { WaypointState.reset with whole := false }, by decide⟩,
    ⟨{ liveMod [blk5] with hostStage := [(0, 0xB1040, 5)] }, 0, 3, by decide⟩⟩

/-- States and operands that meet the hypotheses of MediaIsMaintained, clause by clause. -/
theorem witness_MediaIsMaintained :
    (∃ (s : State) (old : Nat) (r : Reloc), alive s = true ∧ s.mmg.relocs.find? (fun r => r.old.toNat = old) = some r ∧
      grainsDone s r.new.toNat r.len = true) ∧
    (∃ (s : State) (old : Nat) (r : Reloc), s.mmg.relocs.find? (fun r => r.old.toNat = old) = some r ∧ grainsDone s
      r.new.toNat r.len = false) ∧
    (∃ (s : State) (slot : Nat) (die : Nat) (media : List StoredRead), alive s = true ∧ dieHeld s slot die = true ∧ (slot,
      die) ∉ s.mmg.gcDies ∧ 100 * (dieFree s slot die).1 < s.mmg.gcLow * (dieFree s slot die).2) ∧
    (∃ (s : State) (slot : Nat) (die : Nat) (media : List StoredRead), alive s = true ∧ dieHeld s slot die = true ∧ (slot,
      die) ∈ s.mmg.gcDies ∧ s.mmg.gcHigh * (dieFree s slot die).2 ≤ 100 * (dieFree s slot die).1) ∧
    (∃ (s : State) (slot : Nat) (die : Nat) (media : List StoredRead) (x : Stripe), alive s = true ∧ dieHeld s slot die = true
      ∧ (slot, die) ∈ s.mmg.gcDies ∧ 100 * (dieFree s slot die).1 < s.mmg.gcHigh * (dieFree s slot die).2 ∧ .gc ∈
      s.ecp.running ∧ gcVictim s slot die = some x) ∧
    (∃ (s : State) (slot : Nat) (die : Nat) (media : List StoredRead), alive s = true ∧ dieHeld s slot die = true ∧
      s.mmg.wlSpread < dieSpread s slot die ∧ .wl ∉ s.ecp.running) ∧
    (∃ (s : State) (slot : Nat) (die : Nat) (media : List StoredRead) (cold : Ledger) (hot : Ledger), alive s = true ∧ dieHeld
      s slot die = true ∧ s.mmg.wlSpread < dieSpread s slot die ∧ .wl ∈ s.ecp.running ∧ leastBy (·.erases)
      (s.mmg.ledger.filter fun x => decide (x.slot = slot) && decide (x.die = die) && decide (x.st = .closed)) = some cold ∧
      leastBy (fun x => 2 ^ 32 - x.erases) (s.mmg.ledger.filter fun x => decide (x.slot = slot) && decide (x.die = die) &&
      decide (x.st = .free)) = some hot) ∧
    (∃ (s : State) (slot : Nat) (die : Nat) (media : List StoredRead), alive s = true ∧ dieHeld s slot die = true ∧ dieSpread
      s slot die ≤ s.mmg.wlSpread ∧ (slot, die) ∈ s.mmg.wlDies) ∧
    (∃ (s : State) (slot : Nat) (die : Nat) (plane : Nat) (block : Nat) (media : List StoredRead) (l : Ledger), alive s = true
      ∧ dieHeld s slot die = true ∧ ledgerOf s slot die plane block = some l ∧ l.st ≠ .suspect ∧ l.st ≠ .retiring ∧ anchorDue
      s l = false ∧ .refresh ∉ s.ecp.running) ∧
    (∃ (s : State) (slot : Nat) (die : Nat) (plane : Nat) (block : Nat) (media : List StoredRead) (l : Ledger), alive s = true
      ∧ dieHeld s slot die = true ∧ ledgerOf s slot die plane block = some l ∧ l.st = .suspect) ∧
    (∃ (s : State) (slot : Nat) (die : Nat) (plane : Nat) (block : Nat) (media : List StoredRead) (l : Ledger), alive s = true
      ∧ dieHeld s slot die = true ∧ ledgerOf s slot die plane block = some l ∧ l.st = .retiring) ∧
    (∃ (s : State) (slot : Nat) (die : Nat) (plane : Nat) (block : Nat) (media : List StoredRead) (l : Ledger), alive s = true
      ∧ dieHeld s slot die = true ∧ ledgerOf s slot die plane block = some l ∧ l.st ≠ .suspect ∧ l.st ≠ .retiring ∧ anchorDue
      s l = false ∧ classOfBlock s l = l.cls ∧ l.cls ≠ .notDue ∧ .refresh ∈ s.ecp.running) ∧
    (∃ (s : State) (slot : Nat) (die : Nat) (plane : Nat) (block : Nat) (media : List StoredRead) (l : Ledger), alive s = true
      ∧ dieHeld s slot die = true ∧ ledgerOf s slot die plane block = some l ∧ anchorDue s l = true) :=
 
      ⟨⟨{ liveMod [blk5] with mmg.relocs := [{ stripe := 8, old := 77, new := 40960, len := 3, cause := .gc }], ecp.stripes := [{ stripe9 with st := .complete }] },
      77, { stripe := 8, old := 77, new := 40960, len := 3, cause := .gc }, by decide⟩,
   
      ⟨{ liveMod [blk5] with mmg.relocs := [{ stripe := 8, old := 77, new := 40960, len := 3, cause := .gc }], ecp.stripes := [{ stripe9 with st := .closed }] },
      77, { stripe := 8, old := 77, new := 40960, len := 3, cause := .gc }, by decide⟩,
    ⟨{ liveMod [{ blk5 with st := .closed }] with mmg.gcLow := 5 }, 3, 0, [], by decide⟩,
    ⟨{ liveMod [{ blk5 with st := .free }] with mmg.gcHigh := 10, mmg.gcDies := [(3, 0)], ecp.running := [.gc] }, 3, 0, [], by
      decide⟩,
   
      ⟨{ liveMod [{ blk5 with st := .closed }] with mmg.gcHigh := 10, mmg.gcDies := [(3, 0)], ecp.running := [.gc], ecp.stripes := [{ stripe9 with st := .complete }] },
      3, 0, [], { stripe9 with st := .complete }, by decide⟩,
    ⟨{ liveMod [{ blk5 with st := .closed }, { blk5 with block := 6, st := .free, erases := 900 }] with mmg.wlSpread := 50 },
      3, 0, [], by decide⟩,
   
      ⟨{ liveMod [{ blk5 with st := .closed }, { blk5 with block := 6, st := .free, erases := 900 }] with mmg.wlSpread := 50, ecp.running := [.wl] },
      3, 0, [], { blk5 with st := .closed }, { blk5 with block := 6, st := .free, erases := 900 }, by decide⟩,
    ⟨{ liveMod [{ blk5 with st := .closed }] with mmg.wlSpread := 50, ecp.running := [.wl], mmg.wlDies := [(3, 0)] }, 3, 0,
      [], by decide⟩,
    ⟨liveMod [{ blk5 with st := .closed, age := 10 ^ 12, used := 1 }], 3, 0, 0, 5, [],
      { blk5 with st := .closed, age := 10 ^ 12, used := 1 }, by decide⟩,
    ⟨liveMod [{ blk5 with st := .suspect }], 3, 0, 0, 5, [], { blk5 with st := .suspect }, by decide⟩,
    ⟨liveMod [{ blk5 with st := .retiring }], 3, 0, 0, 5, [], { blk5 with st := .retiring }, by decide⟩,
   
      ⟨{ liveMod [{ blk5 with st := .closed, age := 10 ^ 12, used := 1, cls := classOfBlock (liveMod []) { blk5 with st := .closed, age := 10 ^ 12, used := 1 } }] with ecp.running := [.refresh] },
      3, 0, 0, 5, [],
      { blk5 with st := .closed, age := 10 ^ 12, used := 1, cls := classOfBlock (liveMod []) { blk5 with st := .closed, age := 10 ^ 12, used := 1 } },
      by decide⟩,
    ⟨liveMod [{ blk5 with st := .anchor, age := 10 ^ 18, used := 1 }], 3, 0, 0, 5, [],
      { blk5 with st := .anchor, age := 10 ^ 18, used := 1 }, by decide⟩⟩

/-- States and operands that meet the hypotheses of StripesAndModulesChange, clause by clause. -/
theorem witness_StripesAndModulesChange :
    (∃ (s : State) (serial : BitVec 64) (x : Stripe), alive s = true ∧ stripeOf s serial = some x ∧ x.st = .opened ∧
      recordStripe s serial = false ∧ (x.fill = 4096 * x.k ∨ closeWanted s x = true ∨ (∃ o, x.openedAt = some o ∧ o +
      500000000 ≤ now s))) ∧
    (∃ (s : State) (serial : BitVec 64) (x : Stripe), stripeOf s serial = some x ∧ x.st = .opened ∧ (recordStripe s serial =
      true ∨ (x.fill ≠ 4096 * x.k ∧ closeWanted s x = false ∧ ∀ o ∈ x.openedAt, now s < o + 500000000))) ∧
    (∃ (s : State) (serial : BitVec 64) (x : Stripe), alive s = true ∧ stripeOf s serial = some x ∧ x.st = .closed ∧ (∀ p <
      x.members.length, p ∈ x.trailers) ∧ 0 < x.live ∧ x.kind ≠ 1) ∧
    (∃ (s : State) (serial : BitVec 64) (x : Stripe), alive s = true ∧ stripeOf s serial = some x ∧ x.st = .closed ∧ (∀ p <
      x.members.length, p ∈ x.trailers) ∧ x.live = 0) ∧
    (∃ (s : State) (n : Nat), alive s = true ∧ n < s.ecp.slots.length ∧ (slotOf s n).st = .degraded ∧ (slotOf s n).since +
      s.ecp.rejoinS * 1000000000 ≤ now s) ∧
    (∃ (s : State) (n : Nat), ((slotOf s n).st ≠ .degraded ∨ now s < (slotOf s n).since + s.ecp.rejoinS * 1000000000)) ∧
    (∃ (s : State) (slot : Nat), hostWriteOk s 0x0C = true ∧ slot < s.ecp.slots.length ∧ (slotOf s slot).st = .joining ∧
      firstUseDone s slot = false) ∧
    (∃ (s : State) (slot : Nat), hostWriteOk s 0x0C = true ∧ slot < s.ecp.slots.length ∧ (slotOf s slot).st = .joining ∧
      firstUseDone s slot = true) ∧
    (∃ (s : State) (slot : Nat), hostWriteOk s 0x0C = true ∧ (slotOf s slot).st ≠ .joining) ∧
    (∃ (s : State) (slot : Nat), hostWriteOk s 0x0C = true ∧ slot < s.ecp.slots.length ∧ (slotOf s slot).st = .degraded) ∧
    (∃ (s : State) (slot : Nat), hostWriteOk s 0x0C = true ∧ (slotOf s slot).st ≠ .degraded) ∧
    (∃ (s : State) (n : Nat), alive s = true ∧ n < 48 ∧ n < s.ecp.slots.length ∧ (slotOf s n).st = .draining ∧ s.ecp.reshape =
      2 ∧ liveStrips s n = 0) :=
 
      ⟨⟨{ liveMod [blk5] with ecp.stripes := [{ stripe9 with st := .opened, k := 1, m := 1, fill := 4096, strips := [[1, 2]], members := [{ Member.reset with slot := 3 }, { Member.reset with slot := 4 }] }] },
      9,
      { stripe9 with st := .opened, k := 1, m := 1, fill := 4096, strips := [[1, 2]], members := [{ Member.reset with slot := 3 }, { Member.reset with slot := 4 }] },
      by decide⟩,
    ⟨{ liveMod [blk5] with ecp.stripes := [{ stripe9 with st := .opened, openedAt := some 3 }] }, 9,
      { stripe9 with st := .opened, openedAt := some 3 }, by decide⟩,
   
      ⟨{ liveMod [blk5] with ecp.stripes := [{ stripe9 with st := .closed, live := 3, trailers := [5, 4, 3, 2, 1, 0], strips := [[1]] }] },
      9, { stripe9 with st := .closed, live := 3, trailers := [5, 4, 3, 2, 1, 0], strips := [[1]] }, by decide⟩,
   
      ⟨{ liveMod [blk5] with ecp.stripes := [{ stripe9 with st := .closed, live := 0, trailers := [5, 4, 3, 2, 1, 0], strips := [[1]] }] },
      9, { stripe9 with st := .closed, live := 0, trailers := [5, 4, 3, 2, 1, 0], strips := [[1]] }, by decide⟩,
   
      ⟨{ liveMod [blk5] with lds.deviceTime := 10 ^ 15, ecp.slots := live.ecp.slots.modify 3 (fun x => { x with st := .degraded }), ecp.stripes := [{ stripe9 with st := .complete }] },
      3, by decide⟩,
    ⟨liveMod [blk5], 3, by decide⟩,
    ⟨{ liveMod [blk5] with ecp.slots := live.ecp.slots.modify 3 fun x => { x with st := .joining } }, 3, by decide⟩,
   
      ⟨{ liveMod [blk5] with med.ports := live.med.ports.modify 3 (fun m => { m with st := .active, info := List.replicate 6 0 ++ [1, 0] ++ List.replicate 28 0 ++ [1, 0, 0, 0, 1, 0, 0, 0] }), ecp.slots := live.ecp.slots.modify 3 fun x => { x with st := .joining } },
      3, by decide⟩,
    ⟨liveMod [blk5], 3, by decide⟩,
   
      ⟨{ liveMod [blk5] with ecp.slots := live.ecp.slots.modify 3 (fun x => { x with st := .degraded }), ecp.stripes := [{ stripe9 with st := .complete }] },
      3, by decide⟩,
    ⟨liveMod [blk5], 3, by decide⟩,
   
      ⟨{ liveMod [blk5] with ecp.reshape := 2, mmg.anchors := [(3, 1)], ecp.slots := live.ecp.slots.modify 3 fun x => { x with st := .draining } },
      3, by decide⟩⟩

/-- States and operands that meet the hypotheses of RebuildAndPatrolRun, clause by clause. -/
theorem witness_RebuildAndPatrolRun :
    (∃ (s : State) (a : Activity), alive s = true ∧ s.pwr.flushActive = false ∧ s.ecp.waiting = [a] ∧ s.ecp.paused = [] ∧
      s.ecp.running = [] ∧ admitsHere s a = true) ∧
    (∃ (s : State) (a : Activity) (b : Activity), alive s = true ∧ s.ecp.waiting = [a] ∧ s.ecp.paused = [] ∧ s.ecp.running =
      [b] ∧ a ≠ b ∧ compatible a b = false ∧ a ≠ .rebuild ∧ a ≠ .resync) ∧
    (∃ (s : State) (a : Activity) (b : Activity), alive s = true ∧ s.pwr.flushActive = false ∧ s.ecp.waiting = [a] ∧
      s.ecp.paused = [] ∧ s.ecp.running = [b] ∧ a ≠ b ∧ compatible a b = false ∧ (a = .rebuild ∨ a = .resync) ∧ admitsHere s a
      = true) ∧
    (∃ (s : State) (k : BitVec 64 × Nat), alive s = true ∧ .rebuild ∈ s.ecp.running ∧ s.ecp.rebuildOn = true ∧ (orderTargets
      s).ecp.rebuildTargets.find? (fun x => (stripeOf (orderTargets s) x.1).any (rebuildsHere (orderTargets s))) = some k) ∧
    (∃ (s : State), alive s = true ∧ .rebuild ∈ s.ecp.running ∧ s.ecp.rebuildOn = false ∧ (orderTargets s).ecp.rebuildTargets
      ≠ []) ∧
    (∃ (s : State), alive s = true ∧ .rebuild ∈ s.ecp.running ∧ s.ecp.rebuildOn = true ∧ (orderTargets s).ecp.rebuildTargets =
      []) ∧
    (∃ (s : State) (serial : BitVec 64) (pos : Nat) (reads : List (Option StripRead)) (x : Stripe), alive s = true ∧ .rebuild
      ∈ s.ecp.running ∧ stripeOf s serial = some x ∧ rebuildsHere s x = true ∧ rebuildTurn s x pos = true ∧ x.st = .freed) ∧
    (∃ (s : State) (serial : BitVec 64) (pos : Nat) (reads : List (Option StripRead)) (x : Stripe) (u : State), alive s = true
      ∧ .rebuild ∈ s.ecp.running ∧ stripeOf s serial = some x ∧ rebuildsHere s x = true ∧ rebuildTurn s x pos = true ∧ x.st ≠
      .freed ∧ x.unreadable.length ≤ x.m ∧ ((x.entries.filter fun e => decide (e.kind = 0) && !(objectBytes x (regionOfStrip x
      reads) e).2).foldl (fun s e => if (objectBytes x (trustedRegions s x reads e) e).2 then loseObject x (trustedRegions s x
      reads e) e 1 s else s) (loseMissing x (regionOfStrip x reads) 1 s)) = u) ∧
    (∃ (s : State) (serial : BitVec 64) (pos : Nat) (reads : List (Option StripRead)) (x : Stripe), alive s = true ∧ .rebuild
      ∈ s.ecp.running ∧ stripeOf s serial = some x ∧ rebuildsHere s x = true ∧ rebuildTurn s x pos = true ∧ x.st ≠ .freed ∧
      x.m < x.unreadable.length) ∧
    (∃ (s : State), alive s = true ∧ s.ecp.resyncPending = true ∧ s.ecp.resyncQueue = []) ∧
    (∃ (s : State), alive s = true ∧ s.ecp.resyncPending = true ∧ s.ecp.resyncQueue ≠ [] ∧ .resync ∈ s.ecp.running) ∧
    (∃ (s : State) (reads : List (Option StripRead)) (serial : BitVec 64) (r : List (BitVec 64)) (x : Stripe), alive s = true
      ∧ .resync ∈ s.ecp.running ∧ s.ecp.resyncQueue = serial :: r ∧ stripeOf s serial = some x ∧ x.st = .complete) ∧
    (∃ (s : State) (reads : List (Option StripRead)) (serial : BitVec 64) (r : List (BitVec 64)) (x : Stripe), alive s = true
      ∧ .resync ∈ s.ecp.running ∧ s.ecp.resyncQueue = serial :: r ∧ stripeOf s serial = some x ∧ x.st ≠ .complete) ∧
    (∃ (s : State), hostWriteOk s 0x0C = true ∧ s.ecp.patrolDays ≠ 0 ∧ s.ecp.patrolOn = false) ∧
    (∃ (s : State), (s.ecp.patrolDays = 0 ∨ s.ecp.patrolOn = true)) ∧
    (∃ (s : State) (check : Option (BitVec 64 × List (Option StripRead))), alive s = true ∧ s.ecp.patrolOn = false ∧ 0 <
      s.ecp.patrolDays ∧ (s.ecp.patrolStart = none ∨ (∃ o, s.ecp.patrolStart = some o ∧ o + s.ecp.patrolDays * patrolDayNs ≤
      now s))) ∧
    (∃ (s : State), alive s = true ∧ s.ecp.patrolOn = true ∧ (∀ x ∈ s.ecp.stripes, x.st = .complete → x.patrolled = true)) ∧
    (∃ (s : State), hostWriteOk s 0x0C = true ∧ reshapeRefused s (affectedVolumes s s.ecp.volFirst s.ecp.volLast)
      ((memberSlots s).filter fun n => !(drainSlots s).contains n) = true) ∧
    (∃ (s : State), hostWriteOk s 0x0C = true ∧ reshapeRefused s (affectedVolumes s s.ecp.volFirst s.ecp.volLast)
      ((memberSlots s).filter fun n => !(drainSlots s).contains n) = false) ∧
    (∃ (s : State), hostWriteOk s 0x0C = true ∧ s.ecp.reshape ≠ 0) ∧
    (∃ (s : State), hostWriteOk s 0x0C = true ∧ s.ecp.reshape = 0) ∧
    (∃ (s : State) (media : List StoredRead) (v : Nat) (r : List Nat) (x : Volume), alive s = true ∧ .reshape ∈ s.ecp.running
      ∧ s.ecp.reshape = 1 ∧ s.ecp.reshapeVols = v :: r ∧ v ∉ r ∧ owns s v = true ∧ outsideTarget s v = [] ∧ s.ecp.shadow = []
      ∧ volOf s v = some x) ∧
    (∃ (s : State) (media : List StoredRead) (v : Nat) (r : List Nat), alive s = true ∧ .reshape ∈ s.ecp.running ∧
      s.ecp.reshape = 1 ∧ s.ecp.reshapeVols = v :: r ∧ owns s v = false) ∧
    (∃ (s : State) (media : List StoredRead), alive s = true ∧ .reshape ∈ s.ecp.running ∧ s.ecp.reshape = 1 ∧
      s.ecp.reshapeVols = [] ∧ (∀ n ∈ List.range 48, (slotOf s n).st ≠ .draining)) ∧
    (∃ (s : State) (media : List StoredRead) (n : Nat), alive s = true ∧ .reshape ∈ s.ecp.running ∧ s.ecp.reshape = 1 ∧
      s.ecp.reshapeVols = [] ∧ n < 48 ∧ (slotOf s n).st = .draining) :=
  ⟨⟨{ live with ecp.waiting := [.wl] }, .wl, by decide⟩,
    ⟨{ live with ecp.waiting := [.patrol], ecp.running := [.reshape] }, .patrol, .reshape, by decide⟩,
    ⟨{ live with ecp.waiting := [.resync], ecp.running := [.reshape] }, .resync, .reshape, by decide⟩,
   
      ⟨{ liveMod [blk5] with ecp.rebuildOn := true, ecp.running := [.rebuild], ecp.rebuildTargets := [(8, 1), (9, 3)], ecp.stripes := [{ stripe9 with st := .complete }] },
      (9, 3), by decide⟩,
   
      ⟨{ liveMod [blk5] with ecp.running := [.rebuild], ecp.rebuildTargets := [(8, 1), (9, 3)], ecp.stripes := [{ stripe9 with st := .complete }] },
      by decide⟩,
    ⟨{ liveMod [blk5] with ecp.rebuildOn := true, ecp.running := [.rebuild], ecp.rebuildTargets := [(8, 1)] }, by decide⟩,
   
      ⟨{ liveMod [blk5] with ecp.rebuildOn := true, ecp.running := [.rebuild], ecp.rebuildTargets := [(9, 1), (9, 3)], ecp.stripes := [{ stripe9 with st := .freed, rebuildRunning := true }] },
      9, 1, [], { stripe9 with st := .freed, rebuildRunning := true }, by decide⟩,
   
      ⟨{ live with ecp.rebuildOn := true, ecp.running := [.rebuild], ecp.rebuildTargets := [(9, 1), (9, 3)], ecp.stripes := [{ stripe9 with st := .complete, rebuildRunning := true }] },
      9, 1, [], { stripe9 with st := .complete, rebuildRunning := true }, _, by decide, by decide, by decide, by decide, by
      decide, by decide, by decide, rfl⟩,
   
      ⟨{ live with ecp.rebuildOn := true, ecp.running := [.rebuild], ecp.rebuildTargets := [(9, 1), (8, 3)], ecp.stripes := [{ stripe9 with st := .complete, rebuildRunning := true, unreadable := [1, 2, 3] }] },
      9, 1, [], { stripe9 with st := .complete, rebuildRunning := true, unreadable := [1, 2, 3] }, by decide⟩,
    ⟨{ live with ecp.resyncPending := true, ecp.resyncOn := true, ecp.running := [.resync] }, by decide⟩,
    ⟨{ live with ecp.resyncPending := true, ecp.resyncQueue := [9], ecp.running := [.resync] }, by decide⟩,
   
      ⟨{ live with ecp.resyncPending := true, ecp.resyncQueue := [9], ecp.running := [.resync], ecp.stripes := [{ stripe9 with st := .complete, k := 1, m := 0, members := [Member.reset] }] },
      [], 9, [], { stripe9 with st := .complete, k := 1, m := 0, members := [Member.reset] }, by decide⟩,
   
      ⟨{ live with ecp.resyncPending := true, ecp.resyncQueue := [9], ecp.running := [.resync], ecp.stripes := [{ stripe9 with st := .closed }] },
      [], 9, [], { stripe9 with st := .closed }, by decide⟩,
    ⟨{ live with ecp.patrolDays := 7, ecp.stripes := [{ stripe9 with patrolled := true }] }, by decide⟩,
    ⟨{ live with ecp.patrolDays := 0 }, by decide⟩,
    ⟨{ live with ecp.patrolDays := 7 }, none, by decide⟩,
   
      ⟨{ live with ecp.patrolOn := true, ecp.running := [.patrol], ecp.stripes := [{ stripe9 with st := .complete, patrolled := true }] },
      by decide⟩,
    ⟨{ live with ecp.reshape := 1 }, by decide⟩,
   
      ⟨{ (List.range 12).foldr (fun n v => { v with ecp.slots := v.ecp.slots.modify n fun x => { x with st := .member } }) live with ecp.cfgK := 6, ecp.cfgM := 2, ecp.drainMask := 3, ecp.volFirst := 1, ecp.volLast := 3, red.volumes := [vol1] },
      by decide⟩,
   
      ⟨{ live with ecp.reshape := 1, ecp.reshapeVols := [1], ecp.running := [.reshape], ecp.shadow := [(77, 40960)], ecp.slots := live.ecp.slots.modify 3 fun x => { x with st := .draining } },
      by decide⟩,
    ⟨live, by decide⟩,
   
      ⟨{ live with ecp.reshape := 1, ecp.reshapeVols := [1], ecp.targetK := 6, ecp.targetM := 3, ecp.running := [.reshape], xhl.owned := [1], red.volumes := [vol1] },
      [], 1, [], vol1, by decide⟩,
   
      ⟨{ live with ecp.reshape := 1, ecp.reshapeVols := [1], ecp.targetK := 4, ecp.targetM := 2, ecp.running := [.reshape], red.volumes := [vol1] },
      [], 1, [], by decide⟩,
    ⟨{ live with ecp.reshape := 1, ecp.running := [.reshape] }, [], by decide⟩,
   
      ⟨{ live with ecp.reshape := 1, ecp.running := [.reshape], ecp.slots := live.ecp.slots.modify 3 fun x => { x with st := .draining } },
      [], 3, by decide⟩⟩

/-- States and operands that meet the hypotheses of CrossheadLinkWorks, clause by clause. -/
theorem witness_CrossheadLinkWorks :
    (∃ (s : State) (lanes : List (Nat × Bool)), s.glb.held = false ∧ s.xhl.link ≠ 2 ∧ s.xhl.link ≠ 3 ∧ xhlLanesFit s = true ∧
      lanesLock s 2 0 8 lanes = true ∧ wrongLane s 2 0 8 lanes = none) ∧
    (∃ (s : State) (lanes : List (Nat × Bool)), s.glb.held = false ∧ s.xhl.link = 3 ∧ xhlLanesFit s = true ∧ lanesLock s 2 0 8
      lanes = true ∧ wrongLane s 2 0 8 lanes = none) ∧
    (∃ (s : State) (lanes : List (Nat × Bool)) (l : Nat), s.glb.held = false ∧ s.xhl.link ≠ 2 ∧ xhlLanesFit s = true ∧
      lanesLock s 2 0 8 lanes = true ∧ wrongLane s 2 0 8 lanes = some l) ∧
    (∃ (s : State) (f : List (BitVec 8)), s.glb.held = false ∧ s.xhl.link = 2 ∧ xhlFlitOk f = true) ∧
    (∃ (s : State) (f : List (BitVec 8)), s.glb.held = false ∧ s.xhl.link = 2 ∧ xhlFlitOk f = true ∧ xhlType f = 1 ∧ xhlTc f <
      5 ∧ xhlTc f < s.xhl.tcs.length ∧ xhlSeq f = s.xhl.seqRx ∧ xhlAckOf f = none) ∧
    (∃ (s : State) (f : List (BitVec 8)), s.glb.held = false ∧ s.xhl.link = 2 ∧ xhlFlitOk f = true ∧ xhlType f = 1 ∧ xhlSeq f
      ≠ s.xhl.seqRx ∧ xhlAckOf f = none ∧ s.xhl.nakSent = false) ∧
    (∃ (s : State) (f : List (BitVec 8)) (a : Nat), s.glb.held = false ∧ s.xhl.link = 2 ∧ xhlFlitOk f = true ∧ xhlType f ≠ 1 ∧
      xhlAckOf f = some a) ∧
    (∃ (s : State) (f : List (BitVec 8)), s.glb.held = false ∧ s.xhl.link = 2 ∧ xhlFlitOk f = false) ∧
    (∃ (s : State) (f : List (BitVec 8)), s.glb.held = false ∧ s.xhl.link = 2 ∧ xhlSyncSeen f = false ∧ s.xhl.syncMiss < 2) ∧
    (∃ (s : State) (f : List (BitVec 8)), s.glb.held = false ∧ s.xhl.link = 2 ∧ xhlSyncSeen f = false ∧ s.xhl.syncMiss = 2) ∧
    (∃ (s : State) (ack : Nat), s.glb.held = false ∧ s.xhl.link = 2) ∧
    (∃ (s : State) (ack : Nat) (f : Nat) (n : Nat) (r : List (Nat × Nat)), s.glb.held = false ∧ s.xhl.link = 2 ∧ (∀ c ∈
      s.xhl.tcs, c.queue = []) ∧ ackFlits ack s.xhl.unacked = (f, n) :: r ∧ n < 4) ∧
    (∃ (s : State) (f : Nat) (n : Nat) (r : List (Nat × Nat)), s.glb.held = false ∧ s.xhl.link = 2 ∧ s.xhl.progressAt + 3000 ≤
      now s ∧ s.xhl.unacked = (f, n) :: r) ∧
    (∃ (s : State), s.glb.held = false ∧ s.xhl.link = 3 ∧ s.xhl.retrainAt + 30000000 ≤ now s) ∧
    (∃ (s : State), s.glb.held = false ∧ s.flt.wholeChip = false ∧ s.xhl.hbSent + 50000 ≤ now s ∧ s.xhl.handover = none) ∧
    (∃ (s : State) (b : Beat), alive s = true ∧ s.xhl.peerHb < b.count ∧ s.xhl.handover = none) ∧
    (∃ (s : State) (b : Beat) (h : Handover), alive s = true ∧ s.xhl.peerHb < b.count ∧ s.xhl.peer = .up ∧ s.xhl.peerMode = 1
      ∧ b.mode = 1 ∧ s.xhl.handover = some h ∧ h.sent = true ∧ h.mseq ≤ b.applied.getD 2 0 ∧ h.maint = false) ∧
    (∃ (s : State) (b : Beat), alive s = true ∧ b.count ≤ s.xhl.peerHb) ∧
    (∃ (s : State), alive s = true ∧ s.xhl.peer = .up ∧ (s.xhl.hbTime + 2000000 ≤ now s ∨ s.xhl.link = 3)) ∧
    (∃ (s : State), alive s = true ∧ (s.xhl.peer = .up ∨ s.xhl.peer = .suspect) ∧ s.xhl.hbTime + 1000000 * s.xhl.hbLossMs ≤
      now s) ∧
    (∃ (s : State), alive s = true ∧ s.xhl.peer ≠ .lost) ∧
    (∃ (s : State) (serial : BitVec 64) (fw : BitVec 32) (sameOwner : Bool), s.glb.held = false ∧ s.xhl.link = 2 ∧
      s.glb.headConflict = false) ∧
    (∃ (s : State) (head : Bool) (serial : BitVec 64) (fw : BitVec 32) (sameOwner : Bool), s.glb.held = false ∧ s.xhl.link = 2
      ∧ head ≠ s.glb.headSel ∧ (s.sec.arrayKey ≠ none ∨ sameOwner = false)) ∧
    (∃ (s : State) (head : Bool) (serial : BitVec 64) (fw : BitVec 32) (u : State), s.glb.held = false ∧ s.xhl.link = 2 ∧ head
      ≠ s.glb.headSel ∧ s.sec.arrayKey = none ∧ s.xhl.pairEph = none ∧ u =
      { s with xhl.identSeen := true, xhl.peerHead := head, xhl.peerSerial := serial, xhl.peerFw := fw }) ∧
    (∃ (s : State) (committed : Bool) (lsn : Nat), alive s = true) ∧
    (∃ (s : State) (dseq : Nat) (time : Nat) (recs : List DeltaRec), alive s = true ∧ s.xhl.deltas = [] ∧ s.xhl.dseqRx ≠ 0 ∧
      dseq = s.xhl.dseqRx + 1) ∧
    (∃ (s : State) (dseq : Nat) (time : Nat) (recs : List DeltaRec), alive s = true ∧ s.xhl.dseqRx = 0) ∧
    (∃ (s : State) (dseq : Nat) (time : Nat) (recs : List DeltaRec), alive s = true ∧ s.xhl.deltas = [] ∧ s.xhl.dseqRx ≠ 0 ∧
      s.xhl.dseqRx + 1 < dseq) ∧
    (∃ (s : State) (dseq : Nat) (time : Nat) (recs : List DeltaRec), alive s = true ∧ s.xhl.dseqRx ≠ 0 ∧ dseq ≤ s.xhl.dseqRx)
      ∧
    (∃ (s : State), alive s = true ∧ (∃ d ∈ s.xhl.deltas, d.arrived + 10000000 ≤ now s) ∧ s.xhl.link = 2) :=
  ⟨⟨live, [(0, false), (1, false), (2, false), (3, false), (4, false), (5, false), (6, false), (7, false)], by decide⟩,
    ⟨livePair fun x => { x with link := 3, unacked := [(5, 0)], seqRx := 77 }, [(0, false), (1, false), (2, false), (3,
      false), (4, false), (5, false), (6, false), (7, false)], by decide⟩,
    ⟨live, [(0, false), (1, false), (3, false), (2, false), (4, false), (5, false), (6, false), (7, false)], 2, by decide⟩,
    ⟨livePair id, xhlFlit 15 0 0 none false false [], by decide⟩,
    ⟨livePair fun x => { x with seqRx := 4095 }, xhlFlit 2 1 4095 none true true [0, 0, 0, 0, 32, 0, 0, 0, 9, 0, 0, 0, 0, 0,
      0, 0], by decide⟩,
    ⟨livePair fun x => { x with seqRx := 4095 }, xhlFlit 2 1 40 none true true [], by decide⟩,
    ⟨livePair fun x => { x with unacked := [(5, 0), (6, 0)] }, xhlFlit 15 0 0 (some 5) false false [], 5, by decide⟩,
    ⟨livePair id, [5], by decide⟩,
    ⟨livePair id, [], by decide⟩,
    ⟨livePair fun x => { x with syncMiss := 2 }, [], by decide⟩,
    ⟨livePair fun x => { x with unacked := [(5, 0), (6, 0), (7, 0)] }, 5, by decide⟩,
    ⟨livePair fun x => { x with unacked := [(5, 0), (6, 0), (7, 0)] }, 5, 6, 0, [(7, 0)], by decide⟩,
    ⟨{ livePair (fun x => { x with unacked := [(5, 3), (6, 0)] }) with lds.deviceTime := 3000 }, 5, 3, [(6, 0)], by decide⟩,
    ⟨{ livePair (fun x => { x with link := 3 }) with lds.deviceTime := 10 ^ 9 }, by decide⟩,
    ⟨{ livePair id with lds.deviceTime := 10 ^ 9 }, by decide⟩,
    ⟨livePair fun x => { x with peer := .suspect }, beat9 1, by decide⟩,
    ⟨livePair fun x => { x with handover := some { vols := [2], sent := true, mseq := 3, maint := false }, moving := [2] },
      beat9 1, { vols := [2], sent := true, mseq := 3, maint := false }, by decide⟩,
    ⟨livePair fun x => { x with peerHb := 9 }, beat9 1, by decide⟩,
   
      ⟨{ livePair id with lds.deviceTime := 10 ^ 9, wlg.mirror := 1, wlg.frames := [{ frame3 with prot := false, owner := live.glb.headSel }] },
      by decide⟩,
   
      ⟨{ livePair (fun x => { x with handover := some { vols := [2], sent := true, mseq := 3, maint := false }, moving := [2] }) with lds.deviceTime := 10 ^ 15, wlg.mirror := 1, wlg.frames := [{ frame3 with prot := false, owner := live.glb.headSel }] },
      by decide⟩,
    ⟨livePair id, by decide⟩,
    ⟨livePair id, 12, 3, true, by decide⟩,
    ⟨livePair id, true, 12, 3, false, by decide⟩,
    ⟨livePair id, true, 12, 3, _, by decide, by decide, by decide, by decide, by decide, rfl⟩,
    ⟨livePair id, true, 30, by decide⟩,
    ⟨livePair fun x => { x with dseqRx := 6 }, 7, 0, [], by decide⟩,
    ⟨livePair id, 7, 0, [], by decide⟩,
    ⟨livePair fun x => { x with dseqRx := 6 }, 8, 0, [], by decide⟩,
    ⟨livePair fun x => { x with dseqRx := 6 }, 6, 0, [], by decide⟩,
   
      ⟨{ livePair (fun x => { x with dseqRx := 6, deltas := [{ dseq := 8, time := 0, arrived := 0, recs := [] }] }) with lds.deviceTime := 10 ^ 9 },
      by decide⟩⟩

/-- States and operands that meet the hypotheses of PairOfHeadsActs, clause by clause. -/
theorem witness_PairOfHeadsActs :
    (∃ (s : State) (vols : List Nat) (lsn : Nat) (v : Nat), alive s = true ∧ s.glb.headConflict = false ∧ v < 65536) ∧
    (∃ (s : State), mayMove s = true) ∧
    (∃ (s : State), mayMove s = true ∧ awayVols s ≠ []) ∧
    (∃ (s : State), alive s = true ∧ mayMove s = false) ∧
    (∃ (s : State) (q : QueueId) (tag : Nat) (gen : Nat) (words : List (BitVec 32)) (tenant : Option Nat) (media : List
      StoredRead) (c : Cmd) (u : State), alive s = true ∧ remoteCmd s q tag = none ∧ bindCmd s
      { Cmd.reset with q := q, tag := tag, gen := gen, words := words, seq := s.dcq.seq, remote := true, bind := bindGen s } =
      c ∧ busy { s with dcq.cmds := s.dcq.cmds ++ [c], dcq.seq := s.dcq.seq + 1 } = u) ∧
    (∃ (s : State) (q : QueueId) (tag : Nat) (gen : Nat) (words : List (BitVec 32)) (tenant : Option Nat) (media : List
      StoredRead) (c : Cmd), alive s = true ∧ remoteCmd s q tag = some c) ∧
    (∃ (s : State) (q : QueueId) (tag : Nat) (gen : Nat) (words : List (BitVec 32)) (tenant : Option Nat) (media : List
      StoredRead) (c : Cmd), alive s = true ∧ remoteCmd s q tag = some c ∧ c.gen = gen) ∧
    (∃ (s : State) (q : QueueId) (tag : Nat) (gen : Nat) (words : List (BitVec 32)) (tenant : Option Nat) (media : List
      StoredRead) (c : Cmd), alive s = true ∧ remoteCmd s q tag = some c ∧ c.gen ≠ gen) ∧
    (∃ (s : State) (q : QueueId) (tag : Nat) (gen : Nat) (kind : Nat) (n : Nat) (data : List (BitVec 8)) (c : Cmd), alive s =
      true ∧ cmdOf s q tag = some c ∧ tagMatches s q tag gen = true) ∧
    (∃ (s : State) (q : QueueId) (tag : Nat) (gen : Nat) (kind : Nat) (n : Nat) (data : List (BitVec 8)), alive s = true ∧
      (cmdOf s q tag = none ∨ tagMatches s q tag gen = false)) ∧
    (∃ (s : State) (q : QueueId) (tag : Nat) (gen : Nat) (status : Nat) (r0 : BitVec 32) (r1 : BitVec 64), alive s = true ∧
      (cmdOf s q tag).isSome = true ∧ tagMatches s q tag gen = true) ∧
    (∃ (s : State) (q : QueueId) (tag : Nat) (gen : Nat) (status : Nat) (r0 : BitVec 32) (r1 : BitVec 64), alive s = true ∧
      tagMatches s q tag gen = false) ∧
    (∃ (s : State), alive s = true ∧ s.xhl.takeover = true ∧ s.xhl.quorum = false ∧ s.xhl.roundOpen = false ∧ s.xhl.peer =
      .lost ∧ s.xhl.roundAt + 1000000000 ≤ now s) ∧
    (∃ (s : State), alive s = true ∧ s.glb.mode = .starting ∧ s.glb.cal = true ∧ s.glb.xhl = false ∧ s.xhl.roundOpen = false ∧
      s.glb.headConflict = false ∧ s.xhl.peer ≠ .up ∧ max s.glb.startAt s.xhl.roundAt + 10000000000 ≤ now s) ∧
    (∃ (s : State), alive s = true ∧ s.xhl.splitWait = true ∧ s.xhl.lostAt + 1000000 * s.xhl.splitDelayMs ≤ now s) ∧
    (∃ (s : State) (v : Nat), alive s = true ∧ s.xhl.peer = .lost ∧ s.xhl.takeover = false ∧ s.glb.mode ≠ .starting ∧ v <
      65536) ∧
    (∃ (s : State), alive s = true ∧ s.xhl.roundOpen = true ∧ s.xhl.roundAt + 150000000 ≤ now s ∧ s.glb.mode = .starting) ∧
    (∃ (s : State), alive s = true ∧ s.xhl.roundOpen = true ∧ s.xhl.roundAt + 150000000 ≤ now s ∧ s.glb.mode ≠ .starting ∧
      hasQuorum s = true) ∧
    (∃ (s : State), alive s = true ∧ s.xhl.roundOpen = true ∧ s.xhl.roundAt + 150000000 ≤ now s ∧ s.glb.mode ≠ .starting ∧
      hasQuorum s = false ∧ isFencedOut s = true) ∧
    (∃ (s : State), alive s = true ∧ s.xhl.roundOpen = true ∧ s.xhl.roundAt + 150000000 ≤ now s ∧ s.glb.mode ≠ .starting ∧
      hasQuorum s = false ∧ isFencedOut s = false) ∧
    (∃ (s : State) (trailers : List TrailerEntry) (v : Nat), alive s = true ∧ s.xhl.takeover = true ∧ s.xhl.quorum = true ∧
      s.pwr.flushActive = false ∧ v < 65536) ∧
    (∃ (s : State) (m : BulkMsg), alive s = true ∧ m.final = true ∧ m.table = none ∧ m.recs = [] ∧ s.glb.map = true) ∧
    (∃ (s : State) (m : BulkMsg), alive s = true ∧ m.final = false) ∧
    (∃ (s : State) (m : PairMsg), alive s = true ∧ s.xhl.identSeen = true ∧ s.glb.headConflict = false ∧
      s.img.board.peerSerial ≠ 0 ∧ m.serial ≠ s.img.board.peerSerial) ∧
    (∃ (s : State) (m : PairMsg) (k : List (BitVec 8)), alive s = true ∧ s.xhl.identSeen = true ∧ s.glb.headConflict = false ∧
      s.img.board.peerSerial = 0 ∧ (∀ b ∈ s.img.board.peerIdDigest, b = 0) ∧ s.xhl.pin = none ∧ s.sec.arrayKey = some k ∧
      m.wrapped = none) ∧
    (∃ (s : State) (m : PairMsg) (e : List (BitVec 8)) (w : List (BitVec 8)), alive s = true ∧ s.xhl.identSeen = true ∧
      s.glb.headConflict = false ∧ s.img.board.peerSerial = 0 ∧ (∀ b ∈ s.img.board.peerIdDigest, b = 0) ∧ s.xhl.pin = none ∧
      s.xhl.pairEph = some e ∧ s.sec.arrayKey = none ∧ m.wrapped = some w) ∧
    (∃ (s : State), hostWriteOk s 0x0D = true ∧ s.xhl.peer = .up ∧ s.xhl.peerMode = 1 ∧ s.glb.mode = .ready ∧ s.xhl.handover =
      none ∧ s.xhl.owned ≠ []) ∧
    (∃ (s : State) (peer : Nat), hostWriteOk s 0x0D = true ∧ (s.xhl.peer ≠ .up ∨ s.xhl.peerMode ≠ 1 ∨ s.glb.mode ≠ .ready ∨
      peer = 1 ∨ (peer = 2 ∧ s.glb.headSel = true))) ∧
    (∃ (s : State) (h : Handover), hostWriteOk s 0x0D = true ∧ s.xhl.peer = .up ∧ s.xhl.peerMode = 1 ∧ s.glb.mode = .ready ∧
      s.xhl.handover = some h) ∧
    (∃ (s : State), hostWriteOk s 0x0D = true ∧ s.glb.mode = .maintenance) ∧
    (∃ (s : State), hostWriteOk s 0x0D = true ∧ s.glb.mode ≠ .maintenance) ∧
    (∃ (s : State), hostWriteOk s 0x0D = true ∧ mayMove s = true ∧ awayVols s ≠ []) ∧
    (∃ (s : State) (busy : Bool), hostWriteOk s 0x0D = true ∧ (mayMove s = false ∨ busy = true)) ∧
    (∃ (s : State) (vols : List Nat), hostWriteOk s 0x0D = true ∧ mayMove s = true ∧ (vols = s.xhl.owned.filter fun v =>
      decide (s.xhl.volFirst ≤ v) && decide (v ≤ s.xhl.volLast)) ∧ vols ≠ []) ∧
    (∃ (s : State) (busy : Bool), hostWriteOk s 0x0D = true ∧ (mayMove s = false ∨ busy = true ∨ ∀ v ∈ s.xhl.owned, v <
      s.xhl.volFirst ∨ s.xhl.volLast < v)) ∧
    (∃ (s : State) (confirm : Nat), hostWriteOk s 0x0D = true ∧ s.glb.ownAll = true ∧ confirm = Config.serial.toNat % 65536) ∧
    (∃ (s : State) (confirm : Nat), hostWriteOk s 0x0D = true ∧ s.glb.ownAll = false) :=
  ⟨⟨livePair id, [3, 5], 50, 3, by decide⟩,
    ⟨livePair fun x => { x with owned := [2, 3] }, by decide⟩,
    ⟨livePair fun x => { x with owned := [2, 3] }, by decide⟩,
    ⟨livePair fun x => { x with takeover := true }, by decide⟩,
    ⟨{ livePair (fun x => { x with owned := [1] }) with red.volumes := [vol1] }, .ring 0 1, 0, 0, slot 3 0 1 2 0 0 0 0 0 [],
      some 2, [], bindCmd ({ livePair (fun x => { x with owned := [1] }) with red.volumes := [vol1] })
      { Cmd.reset with q := .ring 0 1, words := slot 3 0 1 2 0 0 0 0 0 [], remote := true, seq := live.dcq.seq }, busy
      { ({ livePair (fun x => { x with owned := [1] }) with red.volumes := [vol1] }) with dcq.cmds := ({ livePair (fun x => { x with owned := [1] }) with red.volumes := [vol1] }).dcq.cmds ++ [(bindCmd ({ livePair (fun x => { x with owned := [1] }) with red.volumes := [vol1] }) { Cmd.reset with q := .ring 0 1, words := slot 3 0 1 2 0 0 0 0 0 [], remote := true, seq := live.dcq.seq })], dcq.seq := ({ livePair (fun x => { x with owned := [1] }) with red.volumes := [vol1] }).dcq.seq + 1 },
      by decide⟩,
    ⟨{ livePair id with dcq.cmds := [{ cmdW .started with remote := true }] }, .ring 0 1, 0, 0, [], none, [],
      { cmdW .started with remote := true }, by decide⟩,
    ⟨{ livePair id with dcq.cmds := [{ cmdW .started with remote := true }] }, .ring 0 1, 0, 0, [], none, [],
      { cmdW .started with remote := true }, by decide⟩,
    ⟨{ livePair id with dcq.cmds := [{ cmdW .started with remote := true }] }, .ring 0 1, 0, 3, [], none, [],
      { cmdW .started with remote := true }, by decide⟩,
    ⟨liveW fun c => { c with forwarded := true }, .ring 0 1, 0, 0, 0, 0, [1, 2], { cmdW .started with forwarded := true }, by
      decide⟩,
    ⟨live, .ring 0 1, 0, 0, 0, 0, [1, 2], by decide⟩,
    ⟨liveW fun c => { c with forwarded := true }, .ring 0 1, 0, 0, 0, 0, 0, by decide⟩,
    ⟨liveW fun c => { c with forwarded := true }, .ring 0 1, 0, 4, 0, 0, 0, by decide⟩,
    ⟨{ livePair (fun x => { x with takeover := true, peer := .lost }) with lds.deviceTime := 10 ^ 12 }, by decide⟩,
    ⟨{ live with glb.mode := .starting, glb.xhl := false, lds.deviceTime := 10 ^ 12 }, by decide⟩,
    ⟨{ livePair (fun x => { x with takeover := true, peer := .lost, splitWait := true }) with lds.deviceTime := 10 ^ 15 }, by
      decide⟩,
    ⟨livePair fun x => { x with peer := .lost }, 1, by decide⟩,
   
      ⟨{ livePair (fun x => { x with peer := .lost, roundOpen := true, fenceHeld := 8 }) with lds.deviceTime := 10 ^ 12, glb.mode := .starting, glb.xhl := false, ecp.slots := live.ecp.slots.modify 3 fun x => { x with st := .member } },
      by decide⟩,
   
      ⟨{ livePair (fun x => { x with peer := .lost, roundOpen := true, takeover := true, fenceHeld := 8 }) with lds.deviceTime := 10 ^ 12, ecp.slots := live.ecp.slots.modify 3 fun x => { x with st := .member } },
      by decide⟩,
   
      ⟨{ livePair (fun x => { x with peer := .lost, roundOpen := true, takeover := true, fencedAgainst := 8 }) with lds.deviceTime := 10 ^ 12, ecp.slots := live.ecp.slots.modify 3 fun x => { x with st := .member } },
      by decide⟩,
    ⟨{ livePair (fun x => { x with peer := .lost, roundOpen := true, takeover := true }) with lds.deviceTime := 10 ^ 12 }, by
      decide⟩,
    ⟨livePair fun x => { x with peer := .lost, takeover := true, quorum := true }, [], 1, by decide⟩,
    ⟨{ livePair id with glb.mode := .starting, glb.log := false },
      { recs := [], dseq := 8, frames := [frame3], table := none, final := true }, by decide⟩,
    ⟨livePair id, { recs := [], dseq := 8, frames := [frame3], table := none, final := false }, by decide⟩,
    ⟨{ livePair id with img.board.peerSerial := 11 }, pairMsg1, by decide⟩,
    ⟨{ livePair id with sec.arrayKey := some [1, 2] }, pairMsg1, [1, 2], by decide⟩,
    ⟨livePair fun x => { x with pairEph := some [9] }, { pairMsg1 with wrapped := some [5, 6] }, [9], [5, 6], by decide⟩,
    ⟨livePair id, by decide⟩,
    ⟨livePair id, 1, by decide⟩,
    ⟨livePair fun x => { x with handover := some { vols := [2], sent := true, mseq := 3, maint := false }, moving := [2] },
      { vols := [2], sent := true, mseq := 3, maint := false }, by decide⟩,
    ⟨{ livePair id with glb.mode := .maintenance }, by decide⟩,
    ⟨livePair id, by decide⟩,
    ⟨livePair fun x => { x with owned := [2, 3] }, by decide⟩,
    ⟨livePair id, true, by decide⟩,
    ⟨livePair fun x => { x with owned := [2, 3], volFirst := 3, volLast := 9 }, [3], by decide⟩,
    ⟨livePair fun x => { x with volFirst := 5, volLast := 9 }, false, by decide⟩,
    ⟨livePair fun x => { x with pin := some [3] }, Config.serial.toNat % 65536, by decide, by decide, rfl⟩,
    ⟨{ livePair id with glb.ownAll := false }, 5, by decide⟩⟩

/-- States and operands that meet the hypotheses of CoderControlRefusesReservedPredictors, clause by clause. -/
theorem witness_CoderControlRefusesReservedPredictors : ∃ (s : State) (ep : Nat) (w : BitVec 32), epServes s ep = true ∧ memOn
    s ep = true ∧ writeTaken s 0x80104 = true ∧ bar0Served s ep 0x80104 4 = true ∧ 5 ≤ fld w 2 3 :=
  ⟨live, 0, 0x17, by decide⟩

/-- States and operands that meet the hypotheses of PeriodDefinitionIsRefused, clause by clause. -/
theorem witness_PeriodDefinitionIsRefused :
    (∃ (s : State) (w : BitVec 32), hostWriteOk s 0x02 = true ∧ (fld w 0 2 = 3 ∨ (fld w 0 2 = 1 ∧ (60 * fld w 2 30 < 3600 ∨
      31622400 < 60 * fld w 2 30)) ∨ ((fld w 0 2 = 0 ∨ fld w 0 2 = 2) ∧ fld w 2 30 ≠ 0))) ∧
    (∃ (s : State) (w : BitVec 32), hostWriteOk s 0x02 = true ∧ (fld w 0 2 = 1 ∧ 60 ≤ fld w 2 30 ∧ fld w 2 30 ≤ 527040 ∨ (fld
      w 0 2 = 0 ∨ fld w 0 2 = 2) ∧ fld w 2 30 = 0)) ∧
    (∃ (s : State) (ep : Nat) (w : BitVec 32), epServes s ep = true ∧ memOn s ep = true ∧ writeTaken s 0x20048 = true ∧
      bar0Served s ep 0x20048 4 = true ∧ (fld w 0 2 = 3 ∨ (fld w 0 2 = 1 ∧ (fld w 2 30 < 60 ∨ 527040 < fld w 2 30)) ∨ ((fld w
      0 2 = 0 ∨ fld w 0 2 = 2) ∧ fld w 2 30 ≠ 0))) :=
  ⟨⟨live, 0xED, by decide⟩,
    ⟨live, 0xF1, by decide⟩,
    ⟨live, 0, 0xED, by decide⟩⟩

end Sys2Proof.Tests
end

section
/-!
The frame of every command by the parts that `mayChange` lists: the frames of Laws/FrameCommands.lean are by masks of `blank`, and
`covers` ties a mask to a list of parts.
-/
namespace Sys2Proof.Machine

/-! ## A step by its queue -/

theorem step_of_empty {s : State} (h : s.pending = []) : step s = .next (tick s) := by
  unfold step
  rw [h]

theorem step_of_front {s : State} {c : Instr} {rest : List Instr} (h : s.pending = c :: rest) :
    step s = exec c { s with pending := rest } := by
  unfold step
  rw [h]

/-! ## Masks and lists of parts -/

/-- Every field whose bit is set in the mask is a part of the list. The constructor number of a part is its bit. -/
def covers (l : List Part) (m : Nat) : Bool := (List.range 34).all fun i => !m.testBit i || l.any fun p => p.ctorIdx == i

theorem Part.ctorIdx_injective : Function.Injective Part.ctorIdx :=
  Function.LeftInverse.injective Part.ofNat_ctorIdx

theorem Part.ctorIdx_lt (p : Part) : p.ctorIdx < 34 := by cases p <;> decide

theorem testBit_eq_false_of_covers {l : List Part} {m : Nat} {p : Part} (hc : covers l m = true) (hp : p ∉ l) :
    m.testBit p.ctorIdx = false := by
  have h := List.all_eq_true.mp hc p.ctorIdx (List.mem_range.mpr p.ctorIdx_lt)
  have hl : (l.any fun q => q.ctorIdx == p.ctorIdx) = false := by
    simpa [Part.ctorIdx_injective.eq_iff] using fun q hq (he : q = p) => hp (he ▸ hq)
  simpa [hl] using h

/-- States with equal blanks agree on a part outside the mask. -/
theorem Part.same_of_blank (p : Part) {m : Nat} {s t : State} (hp : m.testBit p.ctorIdx = false) (h : blank m t = blank m s) :
    p.same s t := by
  have hn : ¬ m.testBit p.ctorIdx = true := by simp [hp]
  cases p <;> exact field_of_blank _ h fun _ => if_neg hn

/-- A next state has every part as it was in `s` that the list leaves out. -/
def KeepsOutside (l : List Part) (s : State) (o : Host.Outcome State Fault Refusal) : Prop :=
  ∀ t p, o = .next t → p ∉ l → p.same s t

/-- A frame by a mask is a frame by every list of parts that covers it. -/
theorem KeepsOutside.of_frame {l : List Part} {m : Nat} {s : State} {o : Host.Outcome State Fault Refusal}
    (h : ∀ n, n ||| m = n → keeps n s o) (hc : covers l m = true) : KeepsOutside l s o := by
  rintro t p rfl hp
  exact p.same_of_blank (testBit_eq_false_of_covers hc hp) (h m (Nat.or_self m))

/-! ## The commands -/

/-- Each command's own frame, whose mask the command's row of `mayChange` covers. -/
theorem exec_keepsOutside (c : Instr) (s : State) : KeepsOutside (mayChange c) s (exec c s) := by
  cases c with
  | registerWrite ep off w => exact .of_frame (execRegisterWrite_frame ep off w s) rfl
  | lowHalfRead ep off => exact .of_frame (execLowHalfRead_frame ep off s) rfl
  | highHalfWrite ep off w => exact .of_frame (execHighHalfWrite_frame ep off w s) rfl
  | lowHalfWrite ep off w => exact .of_frame (execLowHalfWrite_frame ep off w s) rfl
  | rcRead ep off => exact .of_frame (execRcRead_frame ep off s) rfl
  | barAccessError ep bar off size acc => exact .of_frame (execBarAccessError_frame ep bar off size acc s) rfl
  | bar2Request ep ev => exact .of_frame (execBar2Request_frame ep ev s) rfl
  | bar4Access ep off size data => exact .of_frame (execBar4Access_frame ep off size data s) rfl
  | supervisorDivergence => exact .of_frame (execSupervisorDivergence_frame s) rfl
  | watchdogTimeout block n => exact .of_frame (execWatchdogTimeout_frame block n s) rfl
  | controlPortRequest src reqs => exact .of_frame (execControlPortRequest_frame src reqs s) rfl
  | chipRstL start => exact .of_frame (execChipRstL_frame start s) rfl
  | chipRstLLow => exact .of_frame (execChipRstLLow_frame s) rfl
  | startDone ms => exact .of_frame (execStartDone_frame ms s) rfl
  | xhlStartTimeout => exact .of_frame (execXhlStartTimeout_frame s) rfl
  | wakeLExternal => exact .of_frame (execWakeLExternal_frame s) rfl
  | islandSupplyChange vddioOk mv => exact .of_frame (execIslandSupplyChange_frame vddioOk mv s) rfl
  | feedClassification feed samples tenCycles run => exact .of_frame (execFeedClassification_frame feed samples tenCycles run s) rfl
  | rideThroughExpiry => exact .of_frame (execRideThroughExpiry_frame s) rfl
  | bankDischarge => exact .of_frame (execBankDischarge_frame s) rfl
  | flushDone => exact .of_frame (execFlushDone_frame s) rfl
  | gaugeSample g => exact .of_frame (execGaugeSample_frame g s) rfl
  | budgetCompute rate => exact .of_frame (execBudgetCompute_frame rate s) rfl
  | budget d => exact .of_frame (execBudget_frame d s) rfl
  | peerBudgetStale => exact .of_frame (execPeerBudgetStale_frame s) rfl
  | mainsRtn => exact .of_frame (execMainsRtn_frame s) rfl
  | pmbusPoll reads => exact .of_frame (execPmbusPoll_frame reads s) rfl
  | pmbusAlert m0 m1 => exact .of_frame (execPmbusAlert_frame m0 m1 s) rfl
  | drowseEntry => exact .of_frame (execDrowseEntry_frame s) rfl
  | dozeEntry => exact .of_frame (execDozeEntry_frame s) rfl
  | powerStateExit => exact .of_frame (execPowerStateExit_frame s) rfl
  | scheduledExit => exact .of_frame (execScheduledExit_frame s) rfl
  | psCtlWrite w => exact .of_frame (execPsCtlWrite_frame w s) rfl
  | vaultEnter => exact .of_frame (execVaultEnter_frame s) rfl
  | islandWakeAlarm mainsRtn => exact .of_frame (execIslandWakeAlarm_frame mainsRtn s) rfl
  | vbatSample mv => exact .of_frame (execVbatSample_frame mv s) rfl
  | power m => exact .of_frame (execPower_frame m s) rfl
  | ptpSync sub masters x adj => exact .of_frame (execPtpSync_frame sub masters x adj s) rfl
  | ptpLoss => exact .of_frame (execPtpLoss_frame s) rfl
  | ppsInEdge due came adj => exact .of_frame (execPpsInEdge_frame due came adj s) rfl
  | ppsInMissing => exact .of_frame (execPpsInMissing_frame s) rfl
  | ppsOutEdge => exact .of_frame (execPpsOutEdge_frame s) rfl
  | timeSend => exact .of_frame (execTimeSend_frame s) rfl
  | time m => exact .of_frame (execTime_frame m s) rfl
  | civilSet ep lo => exact .of_frame (execCivilSet_frame ep lo s) rfl
  | armFwd => exact .of_frame (execArmFwd_frame s) rfl
  | armFwdExpiry => exact .of_frame (execArmFwdExpiry_frame s) rfl
  | leapSmear start positive => exact .of_frame (execLeapSmear_frame start positive s) rfl
  | lockExpired => exact .of_frame (execLockExpired_frame s) rfl
  | periodsClosed shares => exact .of_frame (execPeriodsClosed_frame shares s) rfl
  | periodDefWrite w => exact .of_frame (execPeriodDefWrite_frame w s) rfl
  | lcChangeRequest w => exact .of_frame (execLcChangeRequest_frame w s) rfl
  | lcChangeDone => exact .of_frame (execLcChangeDone_frame s) rfl
  | pePerstL => exact .of_frame (execPePerstL_frame s) rfl
  | pePerstLDeassert => exact .of_frame (execPePerstLDeassert_frame s) rfl
  | hotReset drop => exact .of_frame (execHotReset_frame drop s) rfl
  | linkDown drop => exact .of_frame (execLinkDown_frame drop s) rfl
  | linkUp ep speed width flit => exact .of_frame (execLinkUp_frame ep speed width flit s) rfl
  | d3hot ep => exact .of_frame (execD3hot_frame ep s) rfl
  | busMasterEnableCleared x => exact .of_frame (execBusMasterEnableCleared_frame x s) rfl
  | busMasterEnableSet ep writes => exact .of_frame (execBusMasterEnableSet_frame ep writes s) rfl
  | winCommit ep idx w => exact .of_frame (execWinCommit_frame ep idx w s) rfl
  | transferError ep n what addr => exact .of_frame (execTransferError_frame ep n what addr s) rfl
  | vectorUnmask ep v => exact .of_frame (execVectorUnmask_frame ep v s) rfl
  | dbReady ep q w => exact .of_frame (execDbReady_frame ep q w s) rfl
  | dbAbort ep q w => exact .of_frame (execDbAbort_frame ep q w s) rfl
  | dbCqHead ep q w => exact .of_frame (execDbCqHead_frame ep q w s) rfl
  | dbReadyAbort ep q lo => exact .of_frame (execDbReadyAbort_frame ep q lo s) rfl
  | read q tag words plist media => exact .of_frame (execRead_frame q tag words plist media s) rfl
  | write q tag words plist => exact .of_frame (execWrite_frame q tag words plist s) rfl
  | flush q tag words => exact .of_frame (execFlush_frame q tag words s) rfl
  | discard q tag words => exact .of_frame (execDiscard_frame q tag words s) rfl
  | rasterHint q tag words => exact .of_frame (execRasterHint_frame q tag words s) rfl
  | fixity q tag words media => exact .of_frame (execFixity_frame q tag words media s) rfl
  | retain q tag words => exact .of_frame (execRetain_frame q tag words s) rfl
  | snapshot q tag words => exact .of_frame (execSnapshot_frame q tag words s) rfl
  | clone q tag words => exact .of_frame (execClone_frame q tag words s) rfl
  | snapDelete q tag words => exact .of_frame (execSnapDelete_frame q tag words s) rfl
  | query q tag words => exact .of_frame (execQuery_frame q tag words s) rfl
  | createQueue q tag words => exact .of_frame (execCreateQueue_frame q tag words s) rfl
  | deleteQueue q tag words => exact .of_frame (execDeleteQueue_frame q tag words s) rfl
  | resetQueue q tag words => exact .of_frame (execResetQueue_frame q tag words s) rfl
  | createVolume q tag words => exact .of_frame (execCreateVolume_frame q tag words s) rfl
  | deleteVolume q tag words => exact .of_frame (execDeleteVolume_frame q tag words s) rfl
  | setPeriod q tag words => exact .of_frame (execSetPeriod_frame q tag words s) rfl
  | setTime q tag words => exact .of_frame (execSetTime_frame q tag words s) rfl
  | powerHint q tag words => exact .of_frame (execPowerHint_frame q tag words s) rfl
  | powerHintLapse => exact .of_frame (execPowerHintLapse_frame s) rfl
  | asyncEvent q tag words => exact .of_frame (execAsyncEvent_frame q tag words s) rfl
  | queryDevice q tag words => exact .of_frame (execQueryDevice_frame q tag words s) rfl
  | coalescingTimeout ep q => exact .of_frame (execCoalescingTimeout_frame ep q s) rfl
  | adminQueueEnable ep w => exact .of_frame (execAdminQueueEnable_frame ep w s) rfl
  | adminQueueDisable ep w => exact .of_frame (execAdminQueueDisable_frame ep w s) rfl
  | fencedCommandStart q tag gen media => exact .of_frame (execFencedCommandStart_frame q tag gen media s) rfl
  | writeHoldTimeout => exact .of_frame (execWriteHoldTimeout_frame s) rfl
  | frameReceive f => exact .of_frame (execFrameReceive_frame f s) rfl
  | pfcXon sub fill => exact .of_frame (execPfcXon_frame sub fill s) rfl
  | pfcPause sub pause => exact .of_frame (execPfcPause_frame sub pause s) rfl
  | pfcStuck sub => exact .of_frame (execPfcStuck_frame sub s) rfl
  | cnpReceive qpn => exact .of_frame (execCnpReceive_frame qpn s) rfl
  | rateIncrease qpn => exact .of_frame (execRateIncrease_frame qpn s) rfl
  | cmReq sub req link => exact .of_frame (execCmReq_frame sub req link s) rfl
  | cmRtu qpn => exact .of_frame (execCmRtu_frame qpn s) rfl
  | cmDreq qpn => exact .of_frame (execCmDreq_frame qpn s) rfl
  | roceSend r data => exact .of_frame (execRoceSend_frame r data s) rfl
  | rdmaWrite r key off data => exact .of_frame (execRdmaWrite_frame r key off data s) rfl
  | rdmaWriteWithImmediate r key off data imm => exact .of_frame (execRdmaWriteWithImmediate_frame r key off data imm s) rfl
  | rdmaRead r key off len => exact .of_frame (execRdmaRead_frame r key off len s) rfl
  | ackTimeout qpn => exact .of_frame (execAckTimeout_frame qpn s) rfl
  | qpError qpn cause key => exact .of_frame (execQpError_frame qpn cause key s) rfl
  | pkeyTableWrite idx w => exact .of_frame (execPkeyTableWrite_frame idx w s) rfl
  | regionRegister => exact .of_frame (execRegionRegister_frame s) rfl
  | regionDeregister key => exact .of_frame (execRegionDeregister_frame key s) rfl
  | replicationCut l ship media => exact .of_frame (execReplicationCut_frame l ship media s) rfl
  | replicationRecord l bytes => exact .of_frame (execReplicationRecord_frame l bytes s) rfl
  | batchApply l imm => exact .of_frame (execBatchApply_frame l imm s) rfl
  | batchAck l batch => exact .of_frame (execBatchAck_frame l batch s) rfl
  | batchResend l media => exact .of_frame (execBatchResend_frame l media s) rfl
  | replReconnect l => exact .of_frame (execReplReconnect_frame l s) rfl
  | replEnable l w => exact .of_frame (execReplEnable_frame l w s) rfl
  | replDisable l w => exact .of_frame (execReplDisable_frame l w s) rfl
  | writeDataArrival q item data pi => exact .of_frame (execWriteDataArrival_frame q item data pi s) rfl
  | writeAdmission q tag => exact .of_frame (execWriteAdmission_frame q tag s) rfl
  | heldWriteReserve => exact .of_frame (execHeldWriteReserve_frame s) rfl
  | mirror frames => exact .of_frame (execMirror_frame frames s) rfl
  | mirrorAck lsn q tag gen ok => exact .of_frame (execMirrorAck_frame lsn q tag gen ok s) rfl
  | fwdFrames q tag frames => exact .of_frame (execFwdFrames_frame q tag frames s) rfl
  | fwdLsn q tag gen lsn => exact .of_frame (execFwdLsn_frame q tag gen lsn s) rfl
  | assemblyDelayExpiry v chunk media copies => exact .of_frame (execAssemblyDelayExpiry_frame v chunk media copies s) rfl
  | assemblyStart v chunk media copies => exact .of_frame (execAssemblyStart_frame v chunk media copies s) rfl
  | assemblyComplete v chunk => exact .of_frame (execAssemblyComplete_frame v chunk s) rfl
  | mapEntrySet v chunk => exact .of_frame (execMapEntrySet_frame v chunk s) rfl
  | fingerprint obj lane => exact .of_frame (execFingerprint_frame obj lane s) rfl
  | seedLookup v chunk => exact .of_frame (execSeedLookup_frame v chunk s) rfl
  | verifyOnMatch v chunk lane media => exact .of_frame (execVerifyOnMatch_frame v chunk lane media s) rfl
  | seedInsert v chunk => exact .of_frame (execSeedInsert_frame v chunk s) rfl
  | seedSplit tenant => exact .of_frame (execSeedSplit_frame tenant s) rfl
  | snapshotFreeze v num => exact .of_frame (execSnapshotFreeze_frame v num s) rfl
  | snapshotDeleted v num => exact .of_frame (execSnapshotDeleted_frame v num s) rfl
  | kernelEncode v chunk lane => exact .of_frame (execKernelEncode_frame v chunk lane s) rfl
  | kernelVerify v chunk lane fault => exact .of_frame (execKernelVerify_frame v chunk lane fault s) rfl
  | kernelDecode obj snap lane media => exact .of_frame (execKernelDecode_frame obj snap lane media s) rfl
  | dictJob encode cfgSection requester input => exact .of_frame (execDictJob_frame encode cfgSection requester input s) rfl
  | protectChunk obj lane => exact .of_frame (execProtectChunk_frame obj lane s) rfl
  | keyLoad slot => exact .of_frame (execKeyLoad_frame slot s) rfl
  | keyLoadWrapped slot kek => exact .of_frame (execKeyLoadWrapped_frame slot kek s) rfl
  | keyGenerate slot => exact .of_frame (execKeyGenerate_frame slot s) rfl
  | keyZeroise slot => exact .of_frame (execKeyZeroise_frame slot s) rfl
  | drbgFail => exact .of_frame (execDrbgFail_frame s) rfl
  | drbgRetry ok => exact .of_frame (execDrbgRetry_frame ok s) rfl
  | drbgReseed => exact .of_frame (execDrbgReseed_frame s) rfl
  | clkGlitch => exact .of_frame (execClkGlitch_frame s) rfl
  | voltGlitch => exact .of_frame (execVoltGlitch_frame s) rfl
  | maskFault src => exact .of_frame (execMaskFault_frame src s) rfl
  | keyStore reloadOk => exact .of_frame (execKeyStore_frame reloadOk s) rfl
  | csLock ep w => exact .of_frame (execCsLock_frame ep w s) rfl
  | csLockTimeout => exact .of_frame (execCsLockTimeout_frame s) rfl
  | csSeal token slot srcSpace dstSpace => exact .of_frame (execCsSeal_frame token slot srcSpace dstSpace s) rfl
  | csOpen token slot srcSpace dstSpace => exact .of_frame (execCsOpen_frame token slot srcSpace dstSpace s) rfl
  | csJobDone => exact .of_frame (execCsJobDone_frame s) rfl
  | digestStart ep alg space => exact .of_frame (execDigestStart_frame ep alg space s) rfl
  | digestDone => exact .of_frame (execDigestDone_frame s) rfl
  | digestRelease ep => exact .of_frame (execDigestRelease_frame ep s) rfl
  | digestLapse => exact .of_frame (execDigestLapse_frame s) rfl
  | dmlDetect p => exact .of_frame (execDmlDetect_frame p s) rfl
  | dmlTraining p ev => exact .of_frame (execDmlTraining_frame p ev s) rfl
  | dmlTrainTimeout p => exact .of_frame (execDmlTrainTimeout_frame p s) rfl
  | dmlIdent p d => exact .of_frame (execDmlIdent_frame p d s) rfl
  | dmlDownRetry p => exact .of_frame (execDmlDownRetry_frame p s) rfl
  | dmlFlitReceive p rx => exact .of_frame (execDmlFlitReceive_frame p rx s) rfl
  | dmlRetrainTimeout p => exact .of_frame (execDmlRetrainTimeout_frame p s) rfl
  | dmlNak p ack => exact .of_frame (execDmlNak_frame p ack s) rfl
  | dmlReplayTimeout p => exact .of_frame (execDmlReplayTimeout_frame p s) rfl
  | dmlCompletion p x => exact .of_frame (execDmlCompletion_frame p x s) rfl
  | telem p t => exact .of_frame (execTelem_frame p t s) rfl
  | telemMissing p => exact .of_frame (execTelemMissing_frame p s) rfl
  | moduleEvent p e => exact .of_frame (execModuleEvent_frame p e s) rfl
  | moduleInserted p => exact .of_frame (execModuleInserted_frame p s) rfl
  | moduleRemoved p => exact .of_frame (execModuleRemoved_frame p s) rfl
  | telemPeriodWrite w => exact .of_frame (execTelemPeriodWrite_frame w s) rfl
  | codewordRead slot die plane block page cw ev => exact .of_frame (execCodewordRead_frame slot die plane block page cw ev s) rfl
  | suspendIssue slot die => exact .of_frame (execSuspendIssue_frame slot die s) rfl
  | resumeIssue slot die => exact .of_frame (execResumeIssue_frame slot die s) rfl
  | relocationSwitch old => exact .of_frame (execRelocationSwitch_frame old s) rfl
  | gcState slot die media => exact .of_frame (execGcState_frame slot die media s) rfl
  | wlMove slot die media => exact .of_frame (execWlMove_frame slot die media s) rfl
  | refreshClass slot die plane block media => exact .of_frame (execRefreshClass_frame slot die plane block media s) rfl
  | waypointStart => exact .of_frame (execWaypointStart_frame s) rfl
  | waypointComplete => exact .of_frame (execWaypointComplete_frame s) rfl
  | ledgerSelect ep w => exact .of_frame (execLedgerSelect_frame ep w s) rfl
  | stripeClose serial => exact .of_frame (execStripeClose_frame serial s) rfl
  | stripeComplete serial => exact .of_frame (execStripeComplete_frame serial s) rfl
  | rejoinTimeout n => exact .of_frame (execRejoinTimeout_frame n s) rfl
  | join slot => exact .of_frame (execJoin_frame slot s) rfl
  | fail slot => exact .of_frame (execFail_frame slot s) rfl
  | patrolNow => exact .of_frame (execPatrolNow_frame s) rfl
  | reshapeStart => exact .of_frame (execReshapeStart_frame s) rfl
  | reshapeCancel => exact .of_frame (execReshapeCancel_frame s) rfl
  | rebuild => exact .of_frame (execRebuild_frame s) rfl
  | stripeRebuilt serial pos reads => exact .of_frame (execStripeRebuilt_frame serial pos reads s) rfl
  | resync => exact .of_frame (execResync_frame s) rfl
  | stripeResync reads => exact .of_frame (execStripeResync_frame reads s) rfl
  | patrol check => exact .of_frame (execPatrol_frame check s) rfl
  | reshape media => exact .of_frame (execReshape_frame media s) rfl
  | moduleDrained n => exact .of_frame (execModuleDrained_frame n s) rfl
  | maintAdmit => exact .of_frame (execMaintAdmit_frame s) rfl
  | xhlLinkUp lanes => exact .of_frame (execXhlLinkUp_frame lanes s) rfl
  | xhlFlitReceive rx => exact .of_frame (execXhlFlitReceive_frame rx s) rfl
  | xhlNak ack => exact .of_frame (execXhlNak_frame ack s) rfl
  | xhlReplayTimeout => exact .of_frame (execXhlReplayTimeout_frame s) rfl
  | xhlLinkDown => exact .of_frame (execXhlLinkDown_frame s) rfl
  | heartbeatSend => exact .of_frame (execHeartbeatSend_frame s) rfl
  | heartbeat b => exact .of_frame (execHeartbeat_frame b s) rfl
  | ident head serial fw sameOwner => exact .of_frame (execIdent_frame head serial fw sameOwner s) rfl
  | lastGasp => exact .of_frame (execLastGasp_frame s) rfl
  | flushMessage committed commitLsn => exact .of_frame (execFlushMessage_frame committed commitLsn s) rfl
  | mapDelta dseq time recs => exact .of_frame (execMapDelta_frame dseq time recs s) rfl
  | deltaGap => exact .of_frame (execDeltaGap_frame s) rfl
  | handover vols lsnHigh => exact .of_frame (execHandover_frame vols lsnHigh s) rfl
  | rebalanceReq => exact .of_frame (execRebalanceReq_frame s) rfl
  | fwdCmd q tag gen words tenant abort media => exact .of_frame (execFwdCmd_frame q tag gen words tenant abort media s) rfl
  | fwdData q tag gen kind idx data => exact .of_frame (execFwdData_frame q tag gen kind idx data s) rfl
  | fwdCpl q tag gen status r0 r1 => exact .of_frame (execFwdCpl_frame q tag gen status r0 r1 s) rfl
  | bulk m => exact .of_frame (execBulk_frame m s) rfl
  | nop tc => exact .of_frame (execNop_frame tc s) rfl
  | pairKey m => exact .of_frame (execPairKey_frame m s) rfl
  | peerSuspect => exact .of_frame (execPeerSuspect_frame s) rfl
  | peerLost => exact .of_frame (execPeerLost_frame s) rfl
  | takeover => exact .of_frame (execTakeover_frame s) rfl
  | fenceResult => exact .of_frame (execFenceResult_frame s) rfl
  | fenceRetry => exact .of_frame (execFenceRetry_frame s) rfl
  | startFenceRetry => exact .of_frame (execStartFenceRetry_frame s) rfl
  | takeoverEnd trailers => exact .of_frame (execTakeoverEnd_frame trailers s) rfl
  | enterMaint peer => exact .of_frame (execEnterMaint_frame peer s) rfl
  | exitMaint => exact .of_frame (execExitMaint_frame s) rfl
  | rebalance peerBusy => exact .of_frame (execRebalance_frame peerBusy s) rfl
  | give peerBusy => exact .of_frame (execGive_frame peerBusy s) rfl
  | unpinPeer confirm => exact .of_frame (execUnpinPeer_frame confirm s) rfl
  | dramCe c read written => exact .of_frame (execDramCe_frame c read written s) rfl
  | dramUe c read => exact .of_frame (execDramUe_frame c read s) rfl
  | patrolScrub c burst written => exact .of_frame (execPatrolScrub_frame c burst written s) rfl
  | caParityAlert c again => exact .of_frame (execCaParityAlert_frame c again s) rfl
  | dramRefresh c bank postpone => exact .of_frame (execDramRefresh_frame c bank postpone s) rfl
  | rfm c bank left => exact .of_frame (execRfm_frame c bank left s) rfl
  | rhThrottle pa src keepOpen more => exact .of_frame (execRhThrottle_frame pa src keepOpen more s) rfl
  | rhWindowEnd c bank => exact .of_frame (execRhWindowEnd_frame c bank s) rfl
  | rowClose c bank => exact .of_frame (execRowClose_frame c bank s) rfl
  | dimmTempRead c t => exact .of_frame (execDimmTempRead_frame c t s) rfl
  | dramRetrain c lanes => exact .of_frame (execDramRetrain_frame c lanes s) rfl
  | dqsDriftCheck c drift lanes => exact .of_frame (execDqsDriftCheck_frame c drift lanes s) rfl
  | delaySelect w => exact .of_frame (execDelaySelect_frame w s) rfl
  | loopSample n meas more => exact .of_frame (execLoopSample_frame n meas more s) rfl
  | missedSample n => exact .of_frame (execMissedSample_frame n s) rfl
  | loopSaturated n => exact .of_frame (execLoopSaturated_frame n s) rfl
  | loopCommit n host fw => exact .of_frame (execLoopCommit_frame n host fw s) rfl
  | avsMarginFail => exact .of_frame (execAvsMarginFail_frame s) rfl
  | chargeStep => exact .of_frame (execChargeStep_frame s) rfl
  | fanTachWindow f pulses => exact .of_frame (execFanTachWindow_frame f pulses s) rfl
  | fanFault f => exact .of_frame (execFanFault_frame f s) rfl
  | dieHot => exact .of_frame (execDieHot_frame s) rfl
  | dieOvertemp => exact .of_frame (execDieOvertemp_frame s) rfl
  | slotPowerOn n => exact .of_frame (execSlotPowerOn_frame n s) rfl
  | slotEnFollow n => exact .of_frame (execSlotEnFollow_frame n s) rfl
  | slotPowerFail n => exact .of_frame (execSlotPowerFail_frame n s) rfl
  | slotPowerRetry n => exact .of_frame (execSlotPowerRetry_frame n s) rfl
  | slotOffWrite ep w => exact .of_frame (execSlotOffWrite_frame ep w s) rfl
  | slotPowerOff n => exact .of_frame (execSlotPowerOff_frame n s) rfl
  | errorReport src e => exact .of_frame (execErrorReport_frame src e s) rfl
  | husk src addr len write entry => exact .of_frame (execHusk_frame src addr len write entry s) rfl
  | selfTestStart => exact .of_frame (execSelfTestStart_frame s) rfl
  | selfTest src pass rows ms => exact .of_frame (execSelfTest_frame src pass rows ms s) rfl
  | failstop cause src => exact .of_frame (execFailstop_frame cause src s) rfl
  | blockTest src => exact .of_frame (execBlockTest_frame src s) rfl
  | wholeChip => exact .of_frame (execWholeChip_frame s) rfl
  | wholeChipTestEnd fails map => exact .of_frame (execWholeChipTestEnd_frame fails map s) rfl
  | regionTableChange e => exact .of_frame (execRegionTableChange_frame e s) rfl
  | huskSelect w => exact .of_frame (execHuskSelect_frame w s) rfl
  | regionSelect w => exact .of_frame (execRegionSelect_frame w s) rfl
  | recordClose seq => exact .of_frame (execRecordClose_frame seq s) rfl
  | norEntryProgram => exact .of_frame (execNorEntryProgram_frame s) rfl
  | birthRefresh => exact .of_frame (execBirthRefresh_frame s) rfl
  | almSelect w => exact .of_frame (execAlmSelect_frame w s) rfl
  | almCursorWrite w => exact .of_frame (execAlmCursorWrite_frame w s) rfl
  | almWindowAdvance => exact .of_frame (execAlmWindowAdvance_frame s) rfl
  | almanacClear w => exact .of_frame (execAlmanacClear_frame w s) rfl
  | clearEraseDone => exact .of_frame (execClearEraseDone_frame s) rfl
  | updOpen => exact .of_frame (execUpdOpen_frame s) rfl
  | updDataWrite idx w => exact .of_frame (execUpdDataWrite_frame idx w s) rfl
  | stagingTimeout => exact .of_frame (execStagingTimeout_frame s) rfl
  | stageFw slot => exact .of_frame (execStageFw_frame slot s) rfl
  | stageCfg => exact .of_frame (execStageCfg_frame s) rfl
  | staged done start => exact .of_frame (execStaged_frame done start s) rfl
  | updActivate confirm => exact .of_frame (execUpdActivate_frame confirm s) rfl
  | updRestart confirm => exact .of_frame (execUpdRestart_frame confirm s) rfl
  | updAbort => exact .of_frame (execUpdAbort_frame s) rfl
  | updRun start => exact .of_frame (execUpdRun_frame start s) rfl
  | updateReset start => exact .of_frame (execUpdateReset_frame start s) rfl
  | fwConfirmed => exact .of_frame (execFwConfirmed_frame s) rfl
  | fwFallback start => exact .of_frame (execFwFallback_frame start s) rfl
  | portLink sub lanes => exact .of_frame (execPortLink_frame sub lanes s) rfl
  | cmRep l key len => exact .of_frame (execCmRep_frame l key len s) rfl
  | dmlRetrainComplete trained => exact .of_frame (execDmlRetrainComplete_frame trained s) rfl
  | d0Entry ep => exact .of_frame (execD0Entry_frame ep s) rfl
  | dieHotCleared => exact .of_frame (execDieHotCleared_frame s) rfl
  | splitDelayExpiry => exact .of_frame (execSplitDelayExpiry_frame s) rfl
  | vaultProposal => exact .of_frame (execVaultProposal_frame s) rfl

/-! ## The queue -/

theorem pending_notMem_mayChange (c : Instr) : Part.pending ∉ mayChange c := by
  have h : (mayChange c).contains .pending = false := by cases c <;> rfl
  simpa using h

theorem exec_pending {c : Instr} {s t : State} (h : exec c s = .next t) : t.pending = s.pending :=
  exec_keepsOutside c s t .pending h (pending_notMem_mayChange c)

theorem tick_pending (s : State) : (tick s).pending = s.pending :=
  Part.same_of_blank .pending (m := 0x1BFB7FCBF) rfl (tick_frame s _ rfl)

theorem step_pending {s t : State} (h : step s = .next t) : t.pending = s.pending.tail := by
  cases hq : s.pending with
  | nil =>
    rw [step_of_empty hq] at h
    cases h
    rw [tick_pending, hq, List.tail_nil]
  | cons c rest =>
    rw [step_of_front hq] at h
    exact exec_pending h

/-- Settles O3: every command's mask is covered by its row of `mayChange`, and no row lists the queue. -/
theorem commandsTouchOnlyTheirParts : Obligations.CommandsTouchOnlyTheirParts :=
  ⟨exec_keepsOutside, fun _ _ _ => exec_pending, fun _ _ => step_pending⟩

end Sys2Proof.Machine
end

section
/-!
Every command answers a next state. `Answers` holds of the branches that a meaning is made of; a lemma per command follows the
matches of those meanings that have one, and `exec_answers` writes out the branches of the others.
-/
namespace Sys2Proof.Machine

/-! ## Branches -/

/-- The outcome is a next state. -/
def Answers (o : Host.Outcome State Fault Refusal) : Prop := ∃ t, o = .next t

theorem Answers.next {t : State} : Answers (.next t) := ⟨t, rfl⟩

theorem Answers.ite {p : Prop} [Decidable p] {a b : Host.Outcome State Fault Refusal} (ha : Answers a) (hb : Answers b) :
    Answers (if p then a else b) := by
  split
  · exact ha
  · exact hb

/-- A guard between two next states. -/
theorem Answers.guarded {p : Prop} [Decidable p] {t u : State} : Answers (if p then .next t else .next u) := .ite .next .next

/-- The fetch of a tag, or the arrival of its page list. -/
theorem fetched_answers (ops : Nat → Bool) (q : QueueId) (tag : Nat) (words : List (BitVec 32))
    (plist : Option (List (BitVec 64))) (media : List StoredRead) (s : State) :
    Answers (fetched ops q tag words plist media s) := by
  refine .ite (.ite .next .guarded) ?_
  cases plist with
  | none => exact .next
  | some ps => exact .next

/-! ## Commands whose meaning matches on what the state or an operand holds -/

theorem execBar2Request_answers (ep : Nat) (ev : Bar2Event) (s : State) : Answers (execBar2Request ep ev s) := by
  refine .ite ?_ .next
  split
  · exact .next
  · split
    · exact .next
    · dsimp only
      split <;> exact .next

theorem execIslandWakeAlarm_answers (mainsRtn : Bool) (s : State) : Answers (execIslandWakeAlarm mainsRtn s) := by
  unfold execIslandWakeAlarm
  split
  · exact .ite .next (.ite .next (.ite .guarded .next))
  · exact .next

theorem execTransferError_answers (ep n : Nat) (what : DmaError) (addr : BitVec 64) (s : State) :
    Answers (execTransferError ep n what addr s) := by
  unfold execTransferError
  dsimp only
  split
  · exact .next
  · refine .ite .next ?_
    split
    · split
      · exact .guarded
      · exact .next
    · exact .guarded
    · exact .next

theorem execVectorUnmask_answers (ep : Nat) (v : Option Nat) (s : State) : Answers (execVectorUnmask ep v s) := by
  refine .ite ?_ .next
  split <;> exact .next

theorem execCoalescingTimeout_answers (ep q : Nat) (s : State) : Answers (execCoalescingTimeout ep q s) := by
  unfold execCoalescingTimeout
  split
  · exact .guarded
  · exact .next

theorem execFencedCommandStart_answers (q : QueueId) (tag gen : Nat) (media : List StoredRead) (s : State) :
    Answers (execFencedCommandStart q tag gen media s) := by
  unfold execFencedCommandStart
  split
  · exact .guarded
  · exact .next

theorem execWriteHoldTimeout_answers (s : State) : Answers (execWriteHoldTimeout s) := by
  unfold execWriteHoldTimeout
  split
  · exact .next
  · exact .guarded

theorem execFrameReceive_answers (f : EthFrame) (s : State) : Answers (execFrameReceive f s) := by
  refine .ite ?_ .next
  split <;> exact .next

theorem execCmReq_answers (sub : Nat) (req : CmRequest) (link : Option Nat) (s : State) :
    Answers (execCmReq sub req link s) := by
  refine .ite ?_ .next
  dsimp only
  split
  · exact .next
  · split <;> exact .next

theorem execRoceSend_answers (r : RoceReq) (data : List (BitVec 8)) (s : State) : Answers (execRoceSend r data s) := by
  unfold execRoceSend
  split
  · exact .next
  · exact .ite .next .guarded

theorem execRdmaWrite_answers (r : RoceReq) (key : BitVec 32) (off : Nat) (data : List (BitVec 8)) (s : State) :
    Answers (execRdmaWrite r key off data s) := by
  unfold execRdmaWrite
  split
  · exact .next
  · split <;> exact .next

theorem execRdmaWriteWithImmediate_answers (r : RoceReq) (key : BitVec 32) (off : Nat) (data : List (BitVec 8)) (imm : BitVec
    32) (s : State) :
    Answers (execRdmaWriteWithImmediate r key off data imm s) := by
  unfold execRdmaWriteWithImmediate
  split
  · exact .next
  · refine .ite .next ?_
    split <;> exact .next

theorem execRdmaRead_answers (r : RoceReq) (key : BitVec 32) (off len : Nat) (s : State) :
    Answers (execRdmaRead r key off len s) := by
  unfold execRdmaRead
  split
  · exact .next
  · split <;> exact .next

theorem execReplicationCut_answers (l : Nat) (ship : Bool) (media : List StoredRead) (s : State) :
    Answers (execReplicationCut l ship media s) := by
  refine .ite (.ite ?_ .next) .next
  split
  · exact .guarded
  · exact .next

theorem execReplicationRecord_answers (l : Nat) (bytes : List (BitVec 8)) (s : State) :
    Answers (execReplicationRecord l bytes s) := by
  refine .ite ?_ .next
  dsimp only
  split
  · exact .next
  · exact .guarded

theorem execBatchApply_answers (l : Nat) (imm : BitVec 32) (s : State) : Answers (execBatchApply l imm s) := by
  unfold execBatchApply
  dsimp only
  split
  · exact .ite (.ite .guarded .next) .next
  · exact .next

theorem execBatchResend_answers (l : Nat) (media : List StoredRead) (s : State) : Answers (execBatchResend l media s) := by
  unfold execBatchResend
  dsimp only
  split
  · exact .guarded
  · exact .next

theorem execWriteDataArrival_answers (q : QueueId) (item : TagId) (data pi : List (List (BitVec 8))) (s : State) :
    Answers (execWriteDataArrival q item data pi s) := by
  refine .ite (.ite ?_ .next) .next
  split
  · exact .next
  · exact .ite .guarded .next

theorem execWriteAdmission_answers (q : QueueId) (tag : Nat) (s : State) : Answers (execWriteAdmission q tag s) := by
  unfold execWriteAdmission
  split
  · exact .next
  · exact .ite (.ite .next (.ite .guarded .next)) .next

theorem execHeldWriteReserve_answers (s : State) : Answers (execHeldWriteReserve s) := by
  unfold execHeldWriteReserve
  split
  · exact .next
  · refine .ite ?_ .next
    dsimp only
    split
    · exact .next
    · exact .guarded

theorem execMirror_answers (frames : List Frame) (s : State) : Answers (execMirror frames s) := by
  refine .ite (.ite ?_ .next) .next
  split <;> exact .next

theorem execMirrorAck_answers (lsn : Nat) (q : QueueId) (tag gen : Nat) (ok : Bool) (s : State) :
    Answers (execMirrorAck lsn q tag gen ok s) := by
  refine .ite ?_ .next
  split
  · exact .next
  · exact .ite .next (.ite .guarded .guarded)

theorem execFwdFrames_answers (q : QueueId) (tag : Nat) (frames : List Frame) (s : State) :
    Answers (execFwdFrames q tag frames s) := by
  refine .ite (.ite ?_ .next) .next
  split
  · exact .next
  · exact .ite .next .guarded

theorem execAssemblyComplete_answers (v chunk : Nat) (s : State) : Answers (execAssemblyComplete v chunk s) := by
  unfold execAssemblyComplete
  split
  · exact .next
  · exact .ite .guarded .next

theorem execMapEntrySet_answers (v chunk : Nat) (s : State) : Answers (execMapEntrySet v chunk s) := by
  unfold execMapEntrySet
  split
  · exact .next
  · refine .ite ?_ .next
    dsimp only
    split
    · exact .next
    · exact .guarded

theorem execFingerprint_answers (obj : ChunkId) (lane : Nat) (s : State) : Answers (execFingerprint obj lane s) := by
  unfold execFingerprint
  dsimp only
  split
  · exact .next
  · refine .ite (.ite .next ?_) .next
    split
    · exact .guarded
    · exact .next

theorem execSeedLookup_answers (v chunk : Nat) (s : State) : Answers (execSeedLookup v chunk s) := by
  unfold execSeedLookup
  split
  · exact .next
  · refine .ite ?_ .next
    split
    · exact .next
    · exact .ite .next .guarded

theorem execVerifyOnMatch_answers (v chunk lane : Nat) (media : List StoredRead) (s : State) :
    Answers (execVerifyOnMatch v chunk lane media s) := by
  unfold execVerifyOnMatch
  split
  · exact .next
  · split
    · exact .next
    · exact .ite (.ite .next .guarded) .next

theorem execSeedInsert_answers (v chunk : Nat) (s : State) : Answers (execSeedInsert v chunk s) := by
  unfold execSeedInsert
  split
  · exact .next
  · refine .ite ?_ .next
    split
    · exact .next
    · dsimp only
      split <;> exact .next

theorem execSeedSplit_answers (tenant : Nat) (s : State) : Answers (execSeedSplit tenant s) := by
  unfold execSeedSplit
  split
  · exact .next
  · exact .ite .next (.ite .next .guarded)

theorem execSnapshotFreeze_answers (v num : Nat) (s : State) : Answers (execSnapshotFreeze v num s) := by
  unfold execSnapshotFreeze
  split
  · exact .next
  · split
    · exact .next
    · refine .ite ?_ .next
      dsimp only
      split <;> exact .next

theorem execSnapshotDeleted_answers (v num : Nat) (s : State) : Answers (execSnapshotDeleted v num s) := by
  unfold execSnapshotDeleted
  split
  · exact .next
  · exact .guarded

theorem execKernelEncode_answers (v chunk lane : Nat) (s : State) : Answers (execKernelEncode v chunk lane s) := by
  unfold execKernelEncode
  split
  · exact .next
  · refine .ite (.ite .next ?_) .next
    dsimp only
    split <;> exact .next

theorem execKernelVerify_answers (v chunk lane : Nat) (fault : Bool) (s : State) :
    Answers (execKernelVerify v chunk lane fault s) := by
  unfold execKernelVerify
  split
  · exact .next
  · exact .ite (.ite .next .guarded) .next

theorem execDictJob_answers (encode cfgSection : Bool) (requester : Nat) (input : List (BitVec 8)) (s : State) :
    Answers (execDictJob encode cfgSection requester input s) := by
  refine .ite .next ?_
  split <;> exact .next

theorem execProtectChunk_answers (obj : ChunkId) (lane : Nat) (s : State) : Answers (execProtectChunk obj lane s) := by
  unfold execProtectChunk
  dsimp only
  split
  · exact .next
  · refine .ite ?_ .next
    split
    · exact .next
    · split <;> exact .next

theorem execDrbgRetry_answers (ok : Bool) (s : State) : Answers (execDrbgRetry ok s) := by
  refine .ite (.ite ?_ .next) .next
  dsimp only
  split <;> exact .next

theorem execCsJobDone_answers (s : State) : Answers (execCsJobDone s) := by
  unfold execCsJobDone
  split
  · refine .ite (.ite ?_ .next) .next
    split <;> exact .next
  · exact .next

theorem execDigestDone_answers (s : State) : Answers (execDigestDone s) := by
  refine .ite ?_ .next
  dsimp only
  split
  · split <;> exact .next
  · exact .next

theorem execDmlTraining_answers (p : Nat) (ev : TrainEvent) (s : State) : Answers (execDmlTraining p ev s) := by
  refine .ite ?_ .next
  split
  · exact .next
  · refine .ite ?_ .next
    split <;> exact .next

theorem execDmlFlitReceive_answers (p : Nat) (rx : DmlRx) (s : State) : Answers (execDmlFlitReceive p rx s) := by
  refine .ite ?_ .next
  split
  · exact .ite .next .guarded
  · exact .guarded

theorem execDmlCompletion_answers (p : Nat) (x : DmlCpl) (s : State) : Answers (execDmlCompletion p x s) := by
  refine .ite ?_ .next
  split <;> exact .next

theorem execCodewordRead_answers (slot die plane block page cw : Nat) (ev : CwEvent) (s : State) :
    Answers (execCodewordRead slot die plane block page cw ev s) := by
  refine .ite ?_ .next
  split
  · exact .next
  · exact .guarded
  · exact .next
  · exact .next

theorem execSuspendIssue_answers (slot die : Nat) (s : State) : Answers (execSuspendIssue slot die s) := by
  refine .ite ?_ .next
  split <;> exact .next

theorem execResumeIssue_answers (slot die : Nat) (s : State) : Answers (execResumeIssue slot die s) := by
  unfold execResumeIssue
  split
  · exact .guarded
  · exact .next

theorem execRelocationSwitch_answers (old : Nat) (s : State) : Answers (execRelocationSwitch old s) := by
  unfold execRelocationSwitch
  split
  · exact .guarded
  · exact .next

theorem execGcState_answers (slot die : Nat) (media : List StoredRead) (s : State) :
    Answers (execGcState slot die media s) := by
  refine .ite (.ite (.ite .next (.ite ?_ .next)) .guarded) .next
  split <;> exact .next

theorem execWlMove_answers (slot die : Nat) (media : List StoredRead) (s : State) : Answers (execWlMove slot die media s) := by
  refine .ite (.ite (.ite ?_ .next) .guarded) .next
  split <;> exact .next

theorem execRefreshClass_answers (slot die plane block : Nat) (media : List StoredRead) (s : State) :
    Answers (execRefreshClass slot die plane block media s) := by
  unfold execRefreshClass
  split
  · exact .next
  · exact .ite (.ite .next (.ite .next .guarded)) .next

theorem execWaypointComplete_answers (s : State) : Answers (execWaypointComplete s) := by
  unfold execWaypointComplete
  split
  · exact .guarded
  · exact .next

theorem execStripeClose_answers (serial : BitVec 64) (s : State) : Answers (execStripeClose serial s) := by
  unfold execStripeClose
  split
  · exact .next
  · exact .guarded

theorem execStripeComplete_answers (serial : BitVec 64) (s : State) : Answers (execStripeComplete serial s) := by
  unfold execStripeComplete
  split
  · exact .next
  · exact .guarded

theorem execRebuild_answers (s : State) : Answers (execRebuild s) := by
  refine .ite ?_ .next
  dsimp only
  split <;> exact .next

theorem execStripeRebuilt_answers (serial : BitVec 64) (pos : Nat) (reads : List (Option StripRead)) (s : State) :
    Answers (execStripeRebuilt serial pos reads s) := by
  unfold execStripeRebuilt
  split
  · exact .next
  · exact .ite (.ite .next .guarded) .next

theorem execStripeResync_answers (reads : List (Option StripRead)) (s : State) : Answers (execStripeResync reads s) := by
  refine .ite ?_ .next
  split
  · exact .next
  · dsimp only
    split
    · exact .guarded
    · exact .next

theorem execReshape_answers (media : List StoredRead) (s : State) : Answers (execReshape media s) := by
  refine .ite (.ite ?_ .guarded) .next
  split <;> exact .guarded

theorem execXhlLinkUp_answers (lanes : List (Nat × Bool)) (s : State) : Answers (execXhlLinkUp lanes s) := by
  refine .ite .next ?_
  split
  · exact .next
  · exact .guarded

theorem execXhlFlitReceive_answers (rx : XhlRx) (s : State) : Answers (execXhlFlitReceive rx s) := by
  refine .ite ?_ .next
  split
  · exact .ite .next .guarded
  · exact .guarded

theorem execIdent_answers (head : Bool) (serial : BitVec 64) (fw : BitVec 32) (sameOwner : Bool) (s : State) :
    Answers (execIdent head serial fw sameOwner s) := by
  exact .ite (.ite .guarded .guarded) .next

theorem execRebalanceReq_answers (s : State) : Answers (execRebalanceReq s) := by
  exact .ite .guarded .next

theorem execFwdCmd_answers (q : QueueId) (tag gen : Nat) (words : List (BitVec 32)) (tenant : Option Nat) (abort : Bool) (media
    : List StoredRead) (s : State) :
    Answers (execFwdCmd q tag gen words tenant abort media s) := by
  refine .ite (.ite ?_ ?_) .next
  · split
    · exact .next
    · exact .guarded
  · split <;> exact .next

theorem execFwdData_answers (q : QueueId) (tag gen kind i : Nat) (data : List (BitVec 8)) (s : State) :
    Answers (execFwdData q tag gen kind i data s) := by
  refine .ite ?_ .next
  split
  · exact .guarded
  · exact .next

theorem execPairKey_answers (m : PairMsg) (s : State) : Answers (execPairKey m s) := by
  refine .ite (.ite ?_ .next) .next
  dsimp only
  split
  · exact .next
  · split <;> exact .next
  · exact .next

theorem execDimmTempRead_answers (c : Nat) (t : Int) (s : State) : Answers (execDimmTempRead c t s) := by
  refine .ite ?_ .next
  dsimp only
  split
  · exact .guarded
  · exact .next

theorem execMissedSample_answers (n : Nat) (s : State) : Answers (execMissedSample n s) := by
  refine .ite ?_ .next
  split
  · exact .next
  · exact .ite .guarded .guarded

theorem execLoopCommit_answers (n : Nat) (host : Bool) (fw : Option (List (Option (BitVec 32)))) (s : State) :
    Answers (execLoopCommit n host fw s) := by
  refine .ite ?_ .next
  split
  · exact .ite .next .guarded
  · exact .guarded

theorem execErrorReport_answers (src : Nat) (e : ErrorReport) (s : State) : Answers (execErrorReport src e s) := by
  refine .ite ?_ .next
  dsimp only
  split
  · exact .next
  · exact .next
  · exact .next
  · exact .next
  · exact .ite .next .guarded

theorem execSelfTestStart_answers (s : State) : Answers (execSelfTestStart s) := by
  refine .ite ?_ .next
  split <;> exact .next

theorem execSelfTest_answers (src : Nat) (pass : Bool) (rows ms : Nat) (s : State) :
    Answers (execSelfTest src pass rows ms s) := by
  unfold execSelfTest
  split
  · exact .next
  · exact .ite .next .guarded

theorem execNorEntryProgram_answers (s : State) : Answers (execNorEntryProgram s) := by
  refine .ite .next ?_
  split
  · exact .next
  · exact .guarded

theorem execStaged_answers (done : Bool) (i : StartIn) (s : State) : Answers (execStaged done i s) := by
  unfold execStaged
  split
  · exact .ite (.ite .next .guarded) .next
  · exact .next

theorem execFwConfirmed_answers (s : State) : Answers (execFwConfirmed s) := by
  unfold execFwConfirmed
  split
  · exact .guarded
  · exact .next

theorem execCmRep_answers (l : Nat) (key : BitVec 32) (len : Nat) (s : State) : Answers (execCmRep l key len s) := by
  unfold execCmRep
  dsimp only
  split
  · exact .guarded
  · exact .next

theorem execDmlRetrainComplete_answers (trained : PortLanes) (s : State) : Answers (execDmlRetrainComplete trained s) := by
  refine .ite ?_ .next
  split <;> exact .next

/-! ## Every command and every step -/

theorem exec_answers (c : Instr) (s : State) : Answers (exec c s) := by
  cases c with
  | supervisorDivergence | controlPortRequest | startDone | xhlStartTimeout | wakeLExternal | feedClassification |
  rideThroughExpiry | bankDischarge | gaugeSample | budgetCompute | budget | peerBudgetStale | pmbusPoll | pmbusAlert |
  dozeEntry | powerStateExit | scheduledExit | psCtlWrite | vaultEnter | ptpLoss | ppsInMissing | ppsOutEdge | timeSend
  | armFwd | armFwdExpiry | leapSmear | lockExpired | periodsClosed | periodDefWrite | lcChangeDone | pePerstL |
  pePerstLDeassert | hotReset | linkDown | linkUp | d3hot | busMasterEnableCleared | busMasterEnableSet | powerHintLapse
  | pfcPause | pfcStuck | cnpReceive | rateIncrease | cmRtu | cmDreq | ackTimeout | qpError | pkeyTableWrite |
  regionRegister | regionDeregister | replReconnect | replEnable | replDisable | assemblyDelayExpiry | kernelDecode |
  keyLoad | keyLoadWrapped | keyGenerate | keyZeroise | drbgFail | drbgReseed | maskFault | csLockTimeout | csSeal |
  csOpen | digestLapse | dmlTrainTimeout | dmlDownRetry | dmlNak | dmlReplayTimeout | telem | telemMissing |
  moduleInserted | moduleRemoved | telemPeriodWrite | waypointStart | rejoinTimeout | join | fail | patrolNow |
  reshapeStart | reshapeCancel | maintAdmit | xhlNak | xhlReplayTimeout | xhlLinkDown | heartbeatSend | heartbeat |
  lastGasp | flushMessage | deltaGap | handover | bulk | peerSuspect | peerLost | takeover | fenceRetry |
  startFenceRetry | takeoverEnd | enterMaint | exitMaint | rebalance | give | unpinPeer | dramCe | dramUe | patrolScrub
  | rfm | rhThrottle | rhWindowEnd | rowClose | dqsDriftCheck | delaySelect | loopSample | avsMarginFail | chargeStep |
  fanFault | dieHot | dieOvertemp | slotPowerOn | slotEnFollow | slotPowerRetry | failstop | blockTest | wholeChip |
  wholeChipTestEnd | regionTableChange | huskSelect | regionSelect | recordClose | birthRefresh | almSelect |
  almCursorWrite | almWindowAdvance | almanacClear | clearEraseDone | updOpen | updDataWrite | stagingTimeout | stageFw
  | stageCfg | updRestart | updAbort | updRun | fwFallback | portLink | d0Entry | dieHotCleared | splitDelayExpiry |
  vaultProposal =>
    exact .guarded
  | registerWrite | lowHalfRead | highHalfWrite | lowHalfWrite | rcRead | chipRstL | chipRstLLow | vbatSample | civilSet
  | winCommit | dbReady | dbAbort | dbCqHead | dbReadyAbort | adminQueueEnable | adminQueueDisable | csLock |
  digestStart | digestRelease | ledgerSelect | nop | slotOffWrite =>
    exact .next
  | barAccessError | flushDone | ptpSync | pfcXon | batchAck | fwdLsn | clkGlitch | voltGlitch | keyStore | dmlDetect |
  dmlRetrainTimeout | moduleDrained | fwdCpl | caParityAlert | fanTachWindow | slotPowerFail | husk | updateReset =>
    exact .ite .guarded .next
  | bar4Access | power | time | resync | mapDelta | loopSaturated =>
    exact .ite (.ite .next .guarded) .next
  | mainsRtn | drowseEntry | lcChangeRequest | assemblyStart | dramRefresh | updActivate =>
    exact .ite .next .guarded
  | watchdogTimeout | ppsInEdge | dramRetrain =>
    exact .ite (.ite .guarded .next) .next
  | moduleEvent | fenceResult | slotPowerOff =>
    exact .ite (.ite .next (.ite .next .guarded)) .next
  | islandSupplyChange =>
    exact .ite .next (.ite .next .guarded)
  | dmlIdent =>
    exact .ite (.ite .next (.ite .next (.ite .next .guarded))) .next
  | patrol =>
    exact .ite (.ite .guarded .guarded) .next
  | read | write | flush | discard | rasterHint | fixity | retain | snapshot | clone | snapDelete | query | createQueue
  | deleteQueue | resetQueue | createVolume | deleteVolume | setPeriod | setTime | powerHint | asyncEvent | queryDevice =>
    simp only [exec, execRead, execWrite, execFlush, execDiscard, execRasterHint, execFixity, execRetain, execSnapshot, execClone,
      execSnapDelete, execQuery, execCreateQueue, execDeleteQueue, execResetQueue, execCreateVolume,
      execDeleteVolume, execSetPeriod, execSetTime, execPowerHint, execAsyncEvent, execQueryDevice, fetched_answers]
  | bar2Request ep ev => exact execBar2Request_answers ep ev s
  | islandWakeAlarm mainsRtn => exact execIslandWakeAlarm_answers mainsRtn s
  | transferError ep n what addr => exact execTransferError_answers ep n what addr s
  | vectorUnmask ep v => exact execVectorUnmask_answers ep v s
  | coalescingTimeout ep q => exact execCoalescingTimeout_answers ep q s
  | fencedCommandStart q tag gen media => exact execFencedCommandStart_answers q tag gen media s
  | writeHoldTimeout => exact execWriteHoldTimeout_answers s
  | frameReceive f => exact execFrameReceive_answers f s
  | cmReq sub req link => exact execCmReq_answers sub req link s
  | roceSend r data => exact execRoceSend_answers r data s
  | rdmaWrite r key off data => exact execRdmaWrite_answers r key off data s
  | rdmaWriteWithImmediate r key off data imm => exact execRdmaWriteWithImmediate_answers r key off data imm s
  | rdmaRead r key off len => exact execRdmaRead_answers r key off len s
  | replicationCut l ship media => exact execReplicationCut_answers l ship media s
  | replicationRecord l bytes => exact execReplicationRecord_answers l bytes s
  | batchApply l imm => exact execBatchApply_answers l imm s
  | batchResend l media => exact execBatchResend_answers l media s
  | writeDataArrival q item data pi => exact execWriteDataArrival_answers q item data pi s
  | writeAdmission q tag => exact execWriteAdmission_answers q tag s
  | heldWriteReserve => exact execHeldWriteReserve_answers s
  | mirror frames => exact execMirror_answers frames s
  | mirrorAck lsn q tag gen ok => exact execMirrorAck_answers lsn q tag gen ok s
  | fwdFrames q tag frames => exact execFwdFrames_answers q tag frames s
  | assemblyComplete v chunk => exact execAssemblyComplete_answers v chunk s
  | mapEntrySet v chunk => exact execMapEntrySet_answers v chunk s
  | fingerprint obj lane => exact execFingerprint_answers obj lane s
  | seedLookup v chunk => exact execSeedLookup_answers v chunk s
  | verifyOnMatch v chunk lane media => exact execVerifyOnMatch_answers v chunk lane media s
  | seedInsert v chunk => exact execSeedInsert_answers v chunk s
  | seedSplit tenant => exact execSeedSplit_answers tenant s
  | snapshotFreeze v num => exact execSnapshotFreeze_answers v num s
  | snapshotDeleted v num => exact execSnapshotDeleted_answers v num s
  | kernelEncode v chunk lane => exact execKernelEncode_answers v chunk lane s
  | kernelVerify v chunk lane fault => exact execKernelVerify_answers v chunk lane fault s
  | dictJob encode cfgSection requester input => exact execDictJob_answers encode cfgSection requester input s
  | protectChunk obj lane => exact execProtectChunk_answers obj lane s
  | drbgRetry ok => exact execDrbgRetry_answers ok s
  | csJobDone => exact execCsJobDone_answers s
  | digestDone => exact execDigestDone_answers s
  | dmlTraining p ev => exact execDmlTraining_answers p ev s
  | dmlFlitReceive p rx => exact execDmlFlitReceive_answers p rx s
  | dmlCompletion p x => exact execDmlCompletion_answers p x s
  | codewordRead slot die plane block page cw ev => exact execCodewordRead_answers slot die plane block page cw ev s
  | suspendIssue slot die => exact execSuspendIssue_answers slot die s
  | resumeIssue slot die => exact execResumeIssue_answers slot die s
  | relocationSwitch old => exact execRelocationSwitch_answers old s
  | gcState slot die media => exact execGcState_answers slot die media s
  | wlMove slot die media => exact execWlMove_answers slot die media s
  | refreshClass slot die plane block media => exact execRefreshClass_answers slot die plane block media s
  | waypointComplete => exact execWaypointComplete_answers s
  | stripeClose serial => exact execStripeClose_answers serial s
  | stripeComplete serial => exact execStripeComplete_answers serial s
  | rebuild => exact execRebuild_answers s
  | stripeRebuilt serial pos reads => exact execStripeRebuilt_answers serial pos reads s
  | stripeResync reads => exact execStripeResync_answers reads s
  | reshape media => exact execReshape_answers media s
  | xhlLinkUp lanes => exact execXhlLinkUp_answers lanes s
  | xhlFlitReceive rx => exact execXhlFlitReceive_answers rx s
  | ident head serial fw sameOwner => exact execIdent_answers head serial fw sameOwner s
  | rebalanceReq => exact execRebalanceReq_answers s
  | fwdCmd q tag gen words tenant abort media => exact execFwdCmd_answers q tag gen words tenant abort media s
  | fwdData q tag gen kind idx data => exact execFwdData_answers q tag gen kind idx data s
  | pairKey m => exact execPairKey_answers m s
  | dimmTempRead c t => exact execDimmTempRead_answers c t s
  | missedSample n => exact execMissedSample_answers n s
  | loopCommit n host fw => exact execLoopCommit_answers n host fw s
  | errorReport src e => exact execErrorReport_answers src e s
  | selfTestStart => exact execSelfTestStart_answers s
  | selfTest src pass rows ms => exact execSelfTest_answers src pass rows ms s
  | norEntryProgram => exact execNorEntryProgram_answers s
  | staged done start => exact execStaged_answers done start s
  | fwConfirmed => exact execFwConfirmed_answers s
  | cmRep l key len => exact execCmRep_answers l key len s
  | dmlRetrainComplete trained => exact execDmlRetrainComplete_answers trained s

theorem step_answers (s : State) : Answers (step s) := by
  cases hq : s.pending with
  | nil => exact ⟨tick s, step_of_empty hq⟩
  | cons c rest =>
    rw [step_of_front hq]
    exact exec_answers c _

/-- Settles O6: the branches of every meaning end in a next state. -/
theorem everyStepGoesOn : Obligations.EveryStepGoesOn := ⟨exec_answers, step_answers⟩

end Sys2Proof.Machine
end

section
/-!
A 32-bit write of FLT_ALERT, and the clause of O7 that it refutes.
-/
namespace Sys2Proof.Machine

/-- Either bifurcation leaves an endpoint at most 64 windows, 1 KiB of registers (R181, R190). -/
theorem localWindows_le (s : State) : localWindows s ≤ 64 := Nat.div_le_self 64 (numEps s)

/-- FLT_ALERT is no half of a 64-bit register (R12, R729). -/
theorem wideHalf_fltAlert (s : State) (ep : Nat) : wideHalf s ep 0x100004 = none := by
  have hw := localWindows_le s
  have low : wideReg s ep 0x100004 = none := by
    simp [wideReg, wideClock, wideHost, wideData, wideArray]
  have below : wideReg s ep 0x100000 = none := by
    have hb : ¬ 0x100000 < 0x41000 + 16 * localWindows s := by omega
    simp [wideReg, wideClock, wideHost, wideData, wideArray, hb]
  simp [wideHalf, low, below]

/-- A served 32-bit access of an aligned BAR0 offset has the effect of its register (R186, R203). -/
theorem bar0Word_of_served {s : State} {ep off : Nat} (write : Bool) (f : State → State) (hs : epServes s ep = true)
    (hm : memOn s ep = true) (hb : bar0Served s ep off 4 = true) : bar0Word ep off write f s = f s := by
  simp [bar0Word, hs, hm, hb]

/-- A write of 1 clears a bit of FLT_ALERT unless a hardware event has set it in the same cycle (R11, R659). -/
theorem exec_registerWrite_fltAlert {s : State} {ep : Nat} (w : BitVec 32) (hs : epServes s ep = true) (hm : memOn s ep = true)
    (hw : writeTaken s 0x100004 = true) :
    exec (.registerWrite ep 0x100004 w) s =
      .next { s with flt.alert := s.flt.alert &&& (~~~((w &&& 0x3FFFE).setWidth 18) ||| s.flt.alertNow) } := by
  have hb : bar0Served s ep 0x100004 4 = true := by simp [bar0Served]
  have word : hostWord ep 0x100004 w s = fltWrite 0x100004 w s := by
    unfold hostWord writeWord
    rw [if_pos hw, wideHalf_fltAlert]
    rfl
  calc exec (.registerWrite ep 0x100004 w) s
      = .next (bar0Word ep 0x100004 true (hostWord ep 0x100004 w) s) := rfl
    _ = .next (fltWrite 0x100004 w s) := by rw [bar0Word_of_served true _ hs hm hb, word]

/-- A head whose endpoint 0 is up and whose firmware runs. -/
def headServing : State :=
  { State.reset with
    glb.hostEp := true, glb.fw := true, eps := [{ Endpoint.reset with linkUp := true, mse := true }] }

/-- An event of class 1 sets its bit of FLT_ALERT, and no nanosecond has passed since. -/
def alertOfThisCycle : State := raiseAlert 0x0101 headServing

/-- Refutes O7 by its clause on FLT_ALERT: it lets a write of 1 clear every bit, but a bit that a hardware event has set in the same
cycle stays set (R11, R659), as the class 1 bit does in `alertOfThisCycle`. -/
theorem not_registerAccessesComplete : ¬ Obligations.RegisterAccessesComplete := by
  rintro ⟨-, -, -, -, fltAlertClears, -⟩
  obtain ⟨t, ht, cleared, -⟩ := fltAlertClears alertOfThisCycle 0 2 (by decide) (by decide) (by decide)
  rw [exec_registerWrite_fltAlert 2 (by decide) (by decide) (by decide)] at ht
  cases ht
  exact absurd cleared (by decide)

end Sys2Proof.Machine
end

section
/-!
What stands while ports send and modules leave: `linkView` keeps the peer's standing and each port apart from what sending changes.
Two states with equal views agree on the training, the sequence received and the presence of every port.
-/
namespace Sys2Proof.Machine

/-- A fold of a function that keeps what `π` reads keeps it. -/
theorem foldl_keeps {α β : Type} {π : State → β} {f : State → α → State} (h : ∀ s a, π (f s a) = π s) (l : List α)
    (s : State) : π (l.foldl f s) = π s := by
  induction l generalizing s with
  | nil => rfl
  | cons a l ih => rw [List.foldl_cons, ih, h]

/-! ## Reading a port after an update -/

theorem portOf_modPort {p : Nat} {f : Med1 → Med1} {s : State} (h : p < s.med.ports.length) :
    portOf (modPort p f s) p = f (portOf s p) := by
  simp [portOf, modPort, List.getD_eq_getElem?_getD, h]

@[simp] theorem modPort_ports_length (p : Nat) (f : Med1 → Med1) (s : State) :
    (modPort p f s).med.ports.length = s.med.ports.length := by
  simp [modPort]

@[simp] theorem portOf_record (code src : Nat) (ps : List Nat) (s : State) (p : Nat) : portOf (record code src ps s) p = portOf s p := by
  simp [portOf]

@[simp] theorem portOf_emit (o : Output) (s : State) (p : Nat) : portOf (emit o s) p = portOf s p := rfl

/-! ## Records and time -/

@[simp] theorem now_record (code src : Nat) (ps : List Nat) (s : State) : now (record code src ps s) = now s :=
  thin_now (record_thin code src ps s)

/-- Outside ALERT_L a record adds nothing to what leaves the head until its event is told to the hosts (R659, R667). -/
theorem recordCore_quiet_out (code src : Nat) (ps : List (BitVec 32)) (sev : Nat) (s : State) :
    (recordCore code src ps false sev s).2.out = s.out := by
  have merge (seq n) (t : State) : (almMerge seq n t).out = t.out :=
    field_of_blank State.out (almMerge_frame seq n t 0x2000004 rfl) fun _ => rfl
  have room (t : State) : (almMakeRoom t).out = t.out :=
    field_of_blank State.out (almMakeRoom_frame t 0x2000004 rfl) fun _ => rfl
  have opened (t : State) : (almOpen code src ps sev false t).out = t.out :=
    field_of_blank State.out (almOpen_frame code src ps sev false t 0x2000004 rfl) fun _ => rfl
  unfold recordCore
  simp only [Bool.false_eq_true, if_false]
  split
  · exact merge _ _ s
  · split
    · split <;> rfl
    · simp only [opened, room]

/-- A record of severity INFO is no device event, and nothing leaves the head for it (R667). -/
theorem record_info_out {code : Nat} (h : severityOf code false 0 = 0) (src : Nat) (ps : List Nat) (s : State) :
    (record code src ps s).out = s.out := by
  unfold record recordSev
  dsimp only
  rw [if_neg (by simp [h])]
  exact recordCore_quiet_out _ _ _ _ s

theorem modCtl_out (src : Nat) (f : Port → Port) (s : State) : (modCtl src f s).out = s.out :=
  field_of_blank State.out (modCtl_frame src f s 0x1000000 rfl) fun _ => rfl

/-- A request for a self-test sends nothing: the record of a full queue is INFO (R652, R667). -/
theorem addTest_out (src : Nat) (k : TestKind) (host : Bool) (s : State) : (addTest src k host s).out = s.out := by
  unfold addTest
  split
  · rfl
  · split
    · rfl
    · dsimp only
      split <;> exact record_info_out rfl _ _ _

/-- A corrected event is counted and may ask for a test; nothing leaves the head (R645). -/
theorem correctedEvent_out (src : Nat) (k : TestKind) (s : State) : (correctedEvent src k s).out = s.out := by
  unfold correctedEvent
  dsimp only
  split
  · rw [addTest_out, modCtl_out, modCtl_out]
  · exact modCtl_out _ _ s

theorem correctedEvent_med (src : Nat) (k : TestKind) (s : State) : (correctedEvent src k s).med = s.med :=
  field_of_blank State.med (correctedEvent_frame src k s 0x83204C8E rfl) fun _ => rfl

/-! ## The view -/

/-- A port without its commands, its credits and its transmitter. -/
def quietPort (m : Med1) : Med1 :=
  { m with
    waiting := [], wdWait := [], cmds := [], tagGens := [], unacked := [], seqTx := 0, ackAt := 0
    creditCmd := 0, creditWd := 0, crdCmdSeen := 0, crdWdSeen := 0 }

/-- Ports that agree apart from what sending changes agree on each field that sending leaves. -/
theorem quietPort_congr {α : Type} (g : Med1 → α) {m n : Med1} (h : quietPort m = quietPort n)
    (hg : ∀ m, g (quietPort m) = g m := by intro m; rfl) : g m = g n := by
  rw [← hg m, h, hg]

/-- The peer's standing, and each port apart from what sending changes. -/
def linkView (s : State) : PeerState × List Med1 := (s.xhl.peer, s.med.ports.map quietPort)

/-- A frame that covers neither the crosshead link nor the ports keeps the view. -/
theorem linkView_of_blank {m : Nat} {s t : State} (h : blank m t = blank m s) (hmed : m.testBit 18 = false)
    (hxhl : m.testBit 21 = false) : linkView t = linkView s := by
  refine field_of_blank linkView h fun u => ?_
  simp [linkView, blank, hmed, hxhl]

/-- What an event record, a completion or a message leaves as it was includes the view. -/
theorem linkView_of_thin {s t : State} (h : thin t = thin s) : linkView t = linkView s := by
  have hp : t.xhl.peer = s.xhl.peer := congrArg (fun u => u.xhl.peer) h
  have hm : t.med = s.med := congrArg (fun u => u.med) h
  rw [linkView, linkView, hp, hm]

/-- States with equal views agree on every port, apart from what sending changes. -/
theorem linkView_portOf {s t : State} (h : linkView t = linkView s) (p : Nat) : quietPort (portOf t p) = quietPort (portOf s p) := by
  have hm : t.med.ports.map quietPort = s.med.ports.map quietPort := congrArg Prod.snd h
  have hq (u : State) : quietPort (portOf u p) = (u.med.ports.map quietPort).getD p (quietPort Med1.reset) := by
    simp only [portOf, List.getD_eq_getElem?_getD, List.getElem?_map]
    cases u.med.ports[p]? <;> rfl
  rw [hq, hm, ← hq]

theorem linkView_ports_length {s t : State} (h : linkView t = linkView s) : t.med.ports.length = s.med.ports.length := by
  simpa [linkView] using congrArg (fun v => v.2.length) h

/-- An update of what the view does not show. -/
theorem modPort_linkView {p : Nat} {f : Med1 → Med1} (h : ∀ m, quietPort (f m) = quietPort m) (s : State) :
    linkView (modPort p f s) = linkView s := by
  have hp : (s.med.ports.modify p f).map quietPort = s.med.ports.map quietPort := by
    refine List.ext_getElem? fun i => ?_
    simp only [List.getElem?_map, List.getElem?_modify]
    by_cases hi : p = i <;> cases s.med.ports[i]? <;> simp [hi, h]
  exact congrArg (Prod.mk s.xhl.peer) hp

/-! ## Sending on a module link -/

theorem dmlSend_linkView (p ty info : Nat) (bs : List (BitVec 8)) (s : State) : linkView (dmlSend p ty info bs s) = linkView s :=
  modPort_linkView (f := dmlFlitOut (now s)) (fun _ => rfl) s

theorem dmlWdOut_linkView (p : Nat) (s : State) : linkView (dmlWdOut p s) = linkView s := by
  unfold dmlWdOut
  split
  · rfl
  · rw [dmlSend_linkView]
    exact modPort_linkView (by intro m; rfl) s

theorem dmlCmdOut_linkView (p : Nat) (c : DmlCmd) (tag : Nat) (s : State) : linkView (dmlCmdOut p c tag s) = linkView s := by
  unfold dmlCmdOut
  rw [dmlSend_linkView]
  exact modPort_linkView (by intro m; rfl) s

theorem dmlPump_linkView (p n : Nat) (s : State) : linkView (dmlPump p n s) = linkView s := by
  induction n generalizing s with
  | zero => rfl
  | succ n ih =>
    rw [dmlPump]
    split
    · split
      · split
        · rw [ih, dmlCmdOut_linkView]
        · split
          · rw [ih, dmlWdOut_linkView]
          · rfl
      · split
        · rw [ih, dmlWdOut_linkView]
        · rfl
    · rfl

theorem dmlRun_linkView (p : Nat) (s : State) : linkView (dmlRun p s) = linkView s := dmlPump_linkView p 256 s

theorem dmlIssue_linkView (p : Nat) (c : DmlCmd) (s : State) : linkView (dmlIssue p c s) = linkView s := by
  unfold dmlIssue
  rw [dmlRun_linkView]
  exact modPort_linkView (by intro m; rfl) s

/-! ## Modules that leave (R502, R534) -/

theorem record_linkView (code src : Nat) (ps : List Nat) (s : State) : linkView (record code src ps s) = linkView s :=
  linkView_of_thin (record_thin code src ps s)

theorem sendDelta_linkView (rs : List DeltaRec) (s : State) : linkView (sendDelta rs s) = linkView s :=
  linkView_of_thin (sendDelta_thin rs s)

theorem modBlock_linkView (slot die plane block : Nat) (f : Ledger → Ledger) (s : State) :
    linkView (modBlock slot die plane block f s) = linkView s := by
  unfold modBlock
  split
  · rfl
  · exact sendDelta_linkView _ _

theorem suspectBlock_linkView (slot die plane block : Nat) (s : State) :
    linkView (suspectBlock slot die plane block s) = linkView s := by
  unfold suspectBlock
  split
  · rfl
  · split
    · rfl
    · rw [record_linkView, modBlock_linkView]

theorem setLayout_linkView (n : Nat) (st : ModState) (s : State) : linkView (setLayout n st s) = linkView s := by
  unfold setLayout
  split
  · rfl
  · rw [sendDelta_linkView, record_linkView]
    rfl

theorem requestActivity_linkView (a : Activity) (s : State) : linkView (requestActivity a s) = linkView s := by
  unfold requestActivity
  split
  · rfl
  · exact record_linkView _ _ _ _

theorem addTargets_linkView (pick : Stripe → Nat → Bool) (s : State) : linkView (addTargets pick s) = linkView s := by
  unfold addTargets
  dsimp only
  split
  · rfl
  · exact requestActivity_linkView _ _

theorem mapUnreadable_linkView (f : Stripe → List Nat) (s : State) : linkView (mapUnreadable f s) = linkView s :=
  foldl_keeps (π := linkView) (fun t _ => record_linkView 0x0C04 erasureSrc [] t) _ _

theorem slotUnreadable_linkView (n : Nat) (s : State) : linkView (slotUnreadable n s) = linkView s := mapUnreadable_linkView _ s

theorem programPage_linkView (w : DieWork) (m : Member) (i : Nat) (final : Bool) (d : List (BitVec 8)) (s : State) :
    linkView (programPage w m i final d s) = linkView s := dmlIssue_linkView _ _ s

theorem programTrailer_linkView (w : DieWork) (x : Stripe) (pos : Nat) (s : State) :
    linkView (programTrailer w x pos s) = linkView s := by
  unfold programTrailer
  dsimp only
  split
  · rw [foldl_keeps (π := linkView) fun _ _ => programPage_linkView _ _ _ _ _ _, programPage_linkView]
  · exact programPage_linkView _ _ _ _ _ s

theorem programStrip_linkView (w : DieWork) (x : Stripe) (pos : Nat) (bs : List (BitVec 8)) (s : State) :
    linkView (programStrip w x pos bs s) = linkView s := by
  unfold programStrip
  rw [programTrailer_linkView, foldl_keeps (π := linkView) fun _ _ => programPage_linkView _ _ _ _ _ _]

theorem takeSlot_linkView (m : Member) (s : State) : linkView (takeSlot m s) = linkView s := modBlock_linkView _ _ _ _ _ _

theorem moveStrip_linkView (w : DieWork) (serial : BitVec 64) (pos : Nat) (bytes : Option (List (BitVec 8))) (s : State) :
    linkView (moveStrip w serial pos bytes s) = linkView s := by
  have entered (x : Stripe) (t : State) : linkView (enterStrips x t) = linkView t := sendDelta_linkView _ _
  unfold moveStrip
  split
  · rfl
  · split
    · rw [addTargets_linkView, mapUnreadable_linkView]
    · dsimp only
      split
      · rw [programStrip_linkView, mapUnreadable_linkView, entered, takeSlot_linkView]
        rfl
      · rw [mapUnreadable_linkView, entered, takeSlot_linkView]
        rfl

theorem redoStrip_linkView (serial : BitVec 64) (pos : Nat) (s : State) : linkView (redoStrip serial pos s) = linkView s := by
  unfold redoStrip
  split
  · rfl
  · split
    · rfl
    · split
      · exact moveStrip_linkView _ _ _ _ s
      · split
        · exact moveStrip_linkView _ _ _ _ s
        · rfl

theorem redoSlot_linkView (n : Nat) (s : State) : linkView (redoSlot n s) = linkView s := by
  unfold redoSlot
  exact foldl_keeps (π := linkView) (fun t _ => redoStrip_linkView _ _ t) _ s

theorem moduleLeaves_linkView (n : Nat) (removed : Bool) (s : State) : linkView (moduleLeaves n removed s) = linkView s := by
  have degraded : linkView (redoSlot n (slotUnreadable n (setLayout n .degraded s))) = linkView s := by
    rw [redoSlot_linkView, slotUnreadable_linkView, setLayout_linkView]
  have absent : linkView (if removed then setLayout n .absent s else s) = linkView s := by
    split
    · exact setLayout_linkView _ _ s
    · rfl
  unfold moduleLeaves
  split
  · exact degraded
  · exact degraded
  · exact absent
  · exact absent
  · rfl

theorem moduleLeaves_of_absent {n : Nat} {s : State} (h : (slotOf s n).st = .absent) (removed : Bool) : moduleLeaves n removed s = s := by
  simp [moduleLeaves, h]

/-! ## A port that goes down (R426) -/

/-- A port as it leaves the link at a time: nothing is outstanding, and training starts anew. -/
def downPort (st : DmlState) (t : Nat) (m : Med1) : Med1 :=
  { m with st := st, cmds := [], waiting := [], wdWait := [], retrainTries := 0, syncMiss := 0, suspCounts := [], stAt := t }

/-- A port that goes down changes, in the view, that port alone. -/
theorem portDown_linkView (p : Nat) (st : DmlState) (removed : Bool) (s : State) :
    linkView (portDown p st removed s) = linkView (modPort p (downPort st (now s)) s) := by
  unfold portDown
  dsimp only
  rw [moduleLeaves_linkView]
  have cut (l : List DmlCmd) (t : State) :
      linkView (l.foldl (fun s c => suspectBlock p c.die (planeOf c) c.block s) t) = linkView t :=
    foldl_keeps (π := linkView) (fun t c => suspectBlock_linkView p c.die (planeOf c) c.block t) l t
  split
  · rw [record_linkView]
    exact cut _ _
  · exact cut _ _

theorem portOf_portDown {s : State} {p : Nat} (hp : p < s.med.ports.length) (st : DmlState) (removed : Bool) :
    quietPort (portOf (portDown p st removed s) p) = quietPort (downPort st (now s) (portOf s p)) := by
  rw [linkView_portOf (portDown_linkView p st removed s), portOf_modPort hp]

@[simp] theorem portDown_peerUp (p : Nat) (st : DmlState) (removed : Bool) (s : State) :
    peerUp (portDown p st removed s) = peerUp s := by
  have hpeer : (portDown p st removed s).xhl.peer = s.xhl.peer := congrArg Prod.fst (portDown_linkView p st removed s)
  rw [peerUp, peerUp, hpeer]

@[simp] theorem portDown_cle (p : Nat) (st : DmlState) (removed : Bool) (s : State) : (portDown p st removed s).cle = s.cle :=
  field_of_blank State.cle (portDown_frame p st removed s 0x833C4C8E rfl) fun _ => rfl

@[simp] theorem portDown_glb (p : Nat) (st : DmlState) (removed : Bool) (s : State) : (portDown p st removed s).glb = s.glb :=
  field_of_blank State.glb (portDown_frame p st removed s 0x833C4C8E rfl) fun _ => rfl

end Sys2Proof.Machine
end

section
/-!
Module links (chapter 13): what each command of a link does to its port, and O49. Ports are compared apart from what sending changes
(`quietPort`), since most commands end with the port sending what it may.
-/
namespace Sys2Proof.Machine

variable {s : State} {p : Nat}

/-! ## Presence and training (R62, R423, R457) -/

theorem alive_of_portUsable (h : portUsable s p = true) : alive s = true := by
  simp only [portUsable, Bool.and_eq_true] at h
  obtain ⟨⟨ha, -⟩, -⟩ := h
  exact ha

/-- A head with SLOT_PG of a slot high for 10 ms: the port has power, and the slot's turn-on has succeeded (R639). -/
def slotPowered (p : Nat) (s : State) : State :=
  { modPort p (fun m => { m with pg := true }) s with
    cle.slots := s.cle.slots.modify p fun x => { x with pg := true, pgFell := none, st := 3, fails := 0, onAt := none, failAt := none } }

theorem portOf_slotPowered (hp : p < s.med.ports.length) : portOf (slotPowered p s) p = { portOf s p with pg := true } :=
  portOf_modPort hp

theorem execDmlDetect_eq (ha : alive s = true) (h48 : p < 48) (hp : p < s.med.ports.length) :
    execDmlDetect p s = .next
      (if portUsable s p = true ∧ (portOf s p).present = true ∧ ((portOf s p).st = .disabled ∨ (portOf s p).st = .down) then
        modPort p (fun m => { m with st := .detect }) (slotPowered p s)
      else slotPowered p s) := by
  have unfolded : execDmlDetect p s =
      if alive s && decide (p < 48) then
        if portUsable (slotPowered p s) p && (portOf (slotPowered p s) p).present &&
            (decide ((portOf (slotPowered p s) p).st = .disabled) || decide ((portOf (slotPowered p s) p).st = .down)) then
          .next (modPort p (fun m => { m with st := .detect }) (slotPowered p s))
        else .next (slotPowered p s)
      else .next s := rfl
  have usable : portUsable (slotPowered p s) p = portUsable s p := rfl
  rw [unfolded, if_pos (by simp [ha, h48]), usable, portOf_slotPowered hp]
  simp only [Bool.and_eq_true, Bool.or_eq_true, decide_eq_true_eq, and_assoc]
  split <;> rfl

/-- A usable port with a module enters DETECT (R423). -/
theorem execDmlDetect_starts (hu : portUsable s p = true) (h48 : p < 48) (hp : p < s.med.ports.length)
    (hm : (portOf s p).present = true) (hst : (portOf s p).st = .disabled ∨ (portOf s p).st = .down) :
    ∃ t, execDmlDetect p s = .next t ∧ (portOf t p).st = .detect ∧ (portOf t p).pg = true ∧ t.ecp = s.ecp := by
  refine ⟨_, (execDmlDetect_eq (alive_of_portUsable hu) h48 hp).trans (by rw [if_pos ⟨hu, hm, hst⟩]), ?_⟩
  rw [portOf_modPort (by simpa [slotPowered] using hp), portOf_slotPowered hp]
  exact ⟨rfl, rfl, rfl⟩

/-- Without a module, or on a port that is not usable, only the power is noted. -/
theorem execDmlDetect_waits (ha : alive s = true) (h48 : p < 48) (hp : p < s.med.ports.length)
    (hn : portUsable s p = false ∨ (portOf s p).present = false) :
    ∃ t, execDmlDetect p s = .next t ∧ (portOf t p).st = (portOf s p).st ∧ (portOf t p).pg = true := by
  refine ⟨_, (execDmlDetect_eq ha h48 hp).trans (by rw [if_neg (by rcases hn with hn | hn <;> simp [hn])]), ?_⟩
  rw [portOf_slotPowered hp]
  exact ⟨rfl, rfl⟩

theorem execDmlTraining_detected (ha : alive s = true) (h : (portOf s p).st = .detect) :
    execDmlTraining p .detected s = .next (modPort p (fun m => { m with st := .train, stAt := now s }) s) := by
  simp [execDmlTraining, ha, h]

theorem execDmlTraining_locked {lanes : List (Nat × Bool)} (ha : alive s = true) (h : (portOf s p).st = .train)
    (hl : lanesLock s 3 p 2 lanes = true) (hw : wrongLane s 3 p 2 lanes = none) :
    execDmlTraining p (.locked lanes) s = .next (dmlBare p 0x03 (identPayload s.glb.headSel Config.serial)
      (modPort p (fun m => { m with st := .ident, rxAny := false }) s)) := by
  simp [execDmlTraining, ha, h, hl, hw]

theorem execDmlTraining_wrongLane {l : Nat} {lanes : List (Nat × Bool)} (ha : alive s = true) (h : (portOf s p).st = .train)
    (hl : lanesLock s 3 p 2 lanes = true) (hw : wrongLane s 3 p 2 lanes = some l) :
    execDmlTraining p (.locked lanes) s = .next (laneMismatch (dmlSrc p) p (rxLane s 3 p l) s) := by
  simp [execDmlTraining, ha, h, hl, hw]

theorem execDmlTrainTimeout_expired (ha : alive s = true) (h : (portOf s p).st = .train) (ht : (portOf s p).stAt + 100000000 ≤ now s) :
    execDmlTrainTimeout p s = .next (portDown p .down false s) := by
  simp [execDmlTrainTimeout, ha, h, ht]

/-- A port with no program and no erase outstanding, and no module in the layout, goes down alone (R426). -/
theorem portDown_without_module (hc : ∀ c ∈ (portOf s p).cmds, c.opc ≠ 2 ∧ c.opc ≠ 3) (hm : (slotOf s p).st = .absent) :
    (portDown p .down false s).ecp = s.ecp ∧ (portDown p .down false s).med = (modPort p (downPort .down (now s)) s).med := by
  have cut : (portOf s p).cmds.filter (fun c => decide (c.opc = 2) || decide (c.opc = 3)) = [] := by
    simpa [List.filter_eq_nil_iff] using hc
  unfold portDown
  dsimp only
  rw [cut, if_pos rfl, moduleLeaves_of_absent (by simpa [slotOf] using hm)]
  exact ⟨record_ecp _ _ _ _, record_med _ _ _ _⟩

/-- Training that does not finish leaves the port without commands (R423, R426). -/
theorem execDmlTrainTimeout_drops (ha : alive s = true) (hp : p < s.med.ports.length) (h : (portOf s p).st = .train)
    (hc : ∀ c ∈ (portOf s p).cmds, c.opc ≠ 2 ∧ c.opc ≠ 3) (hm : (slotOf s p).st = .absent)
    (ht : (portOf s p).stAt + 100000000 ≤ now s) :
    ∃ t, execDmlTrainTimeout p s = .next t ∧ (portOf t p).st = .down ∧ (portOf t p).cmds = [] ∧ (portOf t p).waiting = [] ∧
      t.ecp = s.ecp := by
  obtain ⟨hecp, hmed⟩ := portDown_without_module hc hm
  refine ⟨_, execDmlTrainTimeout_expired ha h ht, ?_⟩
  rw [portOf, hmed, ← portOf, portOf_modPort hp]
  exact ⟨rfl, rfl, rfl, hecp⟩

theorem execDmlDownRetry_due (hu : portUsable s p = true) (h : (portOf s p).st = .down) (hm : (portOf s p).present = true)
    (hg : (portOf s p).pg = true) (ht : (portOf s p).stAt + 10 ^ 9 ≤ now s) :
    execDmlDownRetry p s = .next (modPort p (fun m => { m with st := .detect }) s) := by
  unfold execDmlDownRetry
  exact if_pos (by simpa [hu, h, hm, hg] using ht)

/-! ## Identification (R425, R458, R468) -/

theorem execDmlIdent_sameHead {d : DmlIdent} (ha : alive s = true) (h : (portOf s p).st = .ident) (hh : d.otherHead = b2n s.glb.headSel) :
    execDmlIdent p d s = .next (record 0x0A0C (dmlSrc p) [] s) := by
  simp [execDmlIdent, ha, h, hh]

theorem execDmlIdent_badPage {d : DmlIdent} (ha : alive s = true) (h : (portOf s p).st = .ident) (hh : d.otherHead ≠ b2n s.glb.headSel)
    (hi : infoOk d.info = false) : execDmlIdent p d s = .next (record 0x0A0B (dmlSrc p) [] s) := by
  simp [execDmlIdent, ha, h, hh, hi]

theorem execDmlIdent_badGeometry {d : DmlIdent} (ha : alive s = true) (h : (portOf s p).st = .ident)
    (hh : d.otherHead ≠ b2n s.glb.headSel) (hi : infoOk d.info = true) (hg : moduleGeometryOk d.info = false) :
    execDmlIdent p d s = .next (record 0x0B0B schedSrc [] s) := by
  simp [execDmlIdent, ha, h, hh, hi, hg]

/-- A port after an accepted IDENT: sequence numbers and credits start, and what the bridge says of its module is kept (R425). -/
def identifiedPort (d : DmlIdent) (m : Med1) : Med1 :=
  { m with
    bridgePort := decide (d.port = 1), resDies := d.resHeld, serial := d.serial, info := d.info
    held := if d.resHeld = 0 then 0 else m.held, seqTx := 0, seqRx := 0, rxAny := false, nakSent := false, unacked := []
    tick := d.tick % 2 ^ 48
    creditCmd := d.cmdCredits, creditWd := d.wdCredits, crdCmdSeen := 0, crdWdSeen := 0, tagGens := [] }

/-- An accepted IDENT: the port is active, its module in the layout, and this head's dies are asked for (R425, R446, R534). -/
def identified (p : Nat) (d : DmlIdent) (s : State) : State :=
  noteMedia (reserveShare p (moduleArrives p d.serial
    (enterActive p (fenceReport p d.epoch d.fencedPort (modPort p (identifiedPort d) s)))))

theorem execDmlIdent_accepted {d : DmlIdent} (ha : alive s = true) (h : (portOf s p).st = .ident) (hh : d.otherHead ≠ b2n s.glb.headSel)
    (hi : infoOk d.info = true) (hg : moduleGeometryOk d.info = true) (hd : identOk d = true) :
    execDmlIdent p d s = .next (identified p d s) := by
  simp only [execDmlIdent, ha, h, hh, hi, hg, hd, decide_true, Bool.and_self, Bool.not_true, Bool.false_eq_true, if_true, if_false]
  rfl

/-- A port as it enters ACTIVE at a time. -/
def activePort (t : Nat) (m : Med1) : Med1 :=
  { m with st := .active, telemTime := t, telemLost := false, syncMiss := 0, retrainTries := 0 }

theorem enterActive_linkView (p : Nat) (s : State) : linkView (enterActive p s) = linkView (modPort p (activePort (now s)) s) := by
  unfold enterActive
  dsimp only
  split
  · exact record_linkView _ _ _ _
  · rw [dmlIssue_linkView, record_linkView]
    rfl

theorem reserveShare_linkView (p : Nat) (s : State) : linkView (reserveShare p s) = linkView s := by
  unfold reserveShare
  extract_lets n r
  split
  · exact dmlIssue_linkView _ _ s
  · rfl

theorem noteMedia_linkView (s : State) : linkView (noteMedia s) = linkView s :=
  linkView_of_blank (noteMedia_frame s 1 rfl) rfl rfl

theorem moduleArrives_med (n : Nat) (serial : BitVec 64) (s : State) : (moduleArrives n serial s).med = s.med :=
  field_of_blank State.med (moduleArrives_frame n serial s 0x83384C8E rfl) fun _ => rfl

/-- A module's report of its fence reaches its port alone (R449). -/
theorem fenceReport_med (p epoch f : Nat) (s : State) :
    (fenceReport p epoch f s).med = (modPort p (fun m =>
      { m with epoch := epoch, fencedHere := decide (f = b2n (portOf s p).bridgePort)
               fenceHolder := decide (f = 1 - b2n (portOf s p).bridgePort) }) s).med := by
  unfold fenceReport
  dsimp only
  split
  · exact record_med _ _ _ _
  · rfl

/-- An accepted IDENT makes the port active, with what the IDENT says of the module and its fence (R425, R449). -/
theorem portOf_identified (hp : p < s.med.ports.length) (d : DmlIdent) :
    quietPort (portOf (identified p d s) p) = quietPort (activePort (now (fenceReport p d.epoch d.fencedPort (modPort p (identifiedPort d) s)))
      { identifiedPort d (portOf s p) with
        epoch := d.epoch, fencedHere := decide (d.fencedPort = b2n (decide (d.port = 1)))
        fenceHolder := decide (d.fencedPort = 1 - b2n (decide (d.port = 1))) }) := by
  have hq : p < (modPort p (identifiedPort d) s).med.ports.length := by rwa [modPort_ports_length]
  have arrives (t : State) : portOf (moduleArrives p d.serial t) p = portOf t p := by rw [portOf, moduleArrives_med, portOf]
  have fence := fenceReport_med p d.epoch d.fencedPort (modPort p (identifiedPort d) s)
  rw [identified, linkView_portOf (noteMedia_linkView _), linkView_portOf (reserveShare_linkView _ _), arrives,
    linkView_portOf (enterActive_linkView _ _), portOf_modPort (by rwa [fence, modPort_ports_length]), portOf, fence, ← portOf,
    portOf_modPort hq, portOf_modPort hp]
  rfl

theorem execDmlIdent_activates {d : DmlIdent} (ha : alive s = true) (hp : p < s.med.ports.length) (h : (portOf s p).st = .ident)
    (hh : d.otherHead ≠ b2n s.glb.headSel) (hi : infoOk d.info = true) (hg : moduleGeometryOk d.info = true) (hd : identOk d = true) :
    ∃ t, execDmlIdent p d s = .next t ∧ (portOf t p).st = .active ∧ (portOf t p).serial = d.serial ∧ (portOf t p).info = d.info ∧
      (portOf t p).bridgePort = decide (d.port = 1) ∧ (portOf t p).epoch = d.epoch := by
  have hport := portOf_identified hp d
  exact ⟨_, execDmlIdent_accepted ha h hh hi hg hd, quietPort_congr Med1.st hport, quietPort_congr Med1.serial hport,
    quietPort_congr Med1.info hport, quietPort_congr Med1.bridgePort hport, quietPort_congr Med1.epoch hport⟩

/-! ## Flits (R422, R427 to R432) -/

theorem useFlit_linkView (p : Nat) (ack : Option Nat) (c w : Nat) (s : State) : linkView (useFlit p ack c w s) = linkView s :=
  modPort_linkView (by intro m; rfl) s

theorem takeData_linkView (p : Nat) (d : DataRecord) (s : State) : linkView (takeData p d s) = linkView s :=
  modPort_linkView (by intro m; rfl) s

theorem ackOut_linkView (p : Nat) (s : State) : linkView (ackOut p s) = linkView s := by
  unfold ackOut
  dsimp only
  split <;> exact dmlRun_linkView p s

theorem execDmlFlitReceive_taken {f : List (BitVec 8)} (ha : alive s = true) (h : (portOf s p).st = .active) (hc : flitCrcOk f = true)
    (ht : flitType f ∈ bridgeTypes) : execDmlFlitReceive p (.flit f) s = .next (takeFlit p f s) := by
  simp [execDmlFlitReceive, ha, h, hc, ht]

/-- The sequenced types are types that the bridge sends, IDENT is not among them (R428). -/
theorem bridgeSequenced_mem {t : Nat} (h : bridgeSequenced t = true) : t ∈ bridgeTypes ∧ t ≠ 3 := by
  simp only [bridgeSequenced, List.contains_iff_mem, List.mem_cons, List.not_mem_nil, or_false] at h
  rcases h with rfl | rfl | rfl | rfl <;> decide

/-- A sequenced flit with the SEQ expected next is accepted (R429). -/
theorem portOf_takeFlit_inOrder {f : List (BitVec 8)} (hp : p < s.med.ports.length) (hb : bridgeSequenced (flitType f) = true)
    (hs : flitSeq f = (portOf s p).seqRx) :
    quietPort (portOf (takeFlit p f s) p) =
      quietPort { portOf s p with seqRx := (flitSeq f + 1) % 1024, rxAny := true, nakSent := false } := by
  have hv := useFlit_linkView p (flitAck f) (flitCrdCmd f) (flitCrdWd f) s
  have hm := linkView_portOf hv p
  have hseq : (portOf (useFlit p (flitAck f) (flitCrdCmd f) (flitCrdWd f) s) p).seqRx = flitSeq f :=
    (quietPort_congr Med1.seqRx hm).trans hs.symm
  unfold takeFlit
  dsimp only
  rw [if_neg (bridgeSequenced_mem hb).2, if_pos hb, if_pos hseq.symm, linkView_portOf (ackOut_linkView _ _)]
  have data (t : State) : linkView (if flitType f = 0x21 then takeData p (rdataOf f) t else t) = linkView t := by
    split
    · exact takeData_linkView _ _ t
    · rfl
  rw [linkView_portOf (data _), portOf_modPort (by rwa [linkView_ports_length hv]), hseq]
  exact congrArg (fun m : Med1 => { m with seqRx := (flitSeq f + 1) % 1024, rxAny := true, nakSent := false }) hm

theorem execDmlFlitReceive_inOrder {f : List (BitVec 8)} (ha : alive s = true) (hp : p < s.med.ports.length)
    (h : (portOf s p).st = .active) (hc : flitCrcOk f = true) (hb : bridgeSequenced (flitType f) = true)
    (hs : flitSeq f = (portOf s p).seqRx) :
    ∃ t, execDmlFlitReceive p (.flit f) s = .next t ∧ (portOf t p).seqRx = (flitSeq f + 1) % 1024 ∧ (portOf t p).nakSent = false ∧
      (portOf t p).st = .active := by
  have hport := portOf_takeFlit_inOrder hp hb hs
  exact ⟨_, execDmlFlitReceive_taken ha h hc (bridgeSequenced_mem hb).1, (quietPort_congr Med1.seqRx hport :),
    quietPort_congr Med1.nakSent hport, (quietPort_congr Med1.st hport).trans h⟩

/-- A flit that is not taken is answered by one NAK of the last sequence taken (R428, R430). -/
theorem discardFlit_unsent (h : (portOf s p).nakSent = false) :
    discardFlit p s = emit (.dmlFlit p (dmlFlit 0x02 0 0 (some (((portOf s p).seqRx + 1023) % 1024)) []))
      (modPort p (fun m => { m with nakSent := true }) s) := by
  simp [discardFlit, h]

theorem portOf_discardFlit (hp : p < s.med.ports.length) : portOf (discardFlit p s) p = { portOf s p with nakSent := true } := by
  cases h : (portOf s p).nakSent with
  | false => rw [discardFlit_unsent h, portOf_emit, portOf_modPort hp]
  | true =>
    have hd : discardFlit p s = s := by simp [discardFlit, h]
    rw [hd, ← h]

/-- A sequenced flit out of order is discarded (R428). -/
theorem portOf_takeFlit_outOfOrder {f : List (BitVec 8)} (hp : p < s.med.ports.length) (hb : bridgeSequenced (flitType f) = true)
    (hs : flitSeq f ≠ (portOf s p).seqRx) :
    quietPort (portOf (takeFlit p f s) p) = quietPort { portOf s p with nakSent := true } := by
  have hv := useFlit_linkView p (flitAck f) (flitCrdCmd f) (flitCrdWd f) s
  have hm := linkView_portOf hv p
  have hseq : flitSeq f ≠ (portOf (useFlit p (flitAck f) (flitCrdCmd f) (flitCrdWd f) s) p).seqRx :=
    fun h => hs (h.trans (quietPort_congr Med1.seqRx hm))
  have hr := (dmlRun_linkView p (useFlit p (flitAck f) (flitCrdCmd f) (flitCrdWd f) s)).trans hv
  unfold takeFlit
  dsimp only
  rw [if_neg (bridgeSequenced_mem hb).2, if_pos hb, if_neg hseq, portOf_discardFlit (by rwa [linkView_ports_length hr])]
  exact congrArg (fun m : Med1 => { m with nakSent := true }) (linkView_portOf hr p)

theorem execDmlFlitReceive_outOfOrder {f : List (BitVec 8)} (ha : alive s = true) (hp : p < s.med.ports.length)
    (h : (portOf s p).st = .active) (hc : flitCrcOk f = true) (hb : bridgeSequenced (flitType f) = true)
    (hs : flitSeq f ≠ (portOf s p).seqRx) :
    ∃ t, execDmlFlitReceive p (.flit f) s = .next t ∧ (portOf t p).seqRx = (portOf s p).seqRx ∧ (portOf t p).nakSent = true := by
  have hport := portOf_takeFlit_outOfOrder hp hb hs
  exact ⟨_, execDmlFlitReceive_taken ha h hc (bridgeSequenced_mem hb).1, (quietPort_congr Med1.seqRx hport :),
    quietPort_congr Med1.nakSent hport⟩

/-- A port with one more flit whose CRC failed (R465). -/
def countCrc (m : Med1) : Med1 := { m with crcErrs := satAdd 65535 m.crcErrs 1 }

/-- A flit whose CRC fails is counted and answered by one NAK (R430). -/
theorem execDmlFlitReceive_badCrc {f : List (BitVec 8)} (ha : alive s = true) (hp : p < s.med.ports.length)
    (h : (portOf s p).st = .active) (hc : flitCrcOk f = false) (hn : (portOf s p).nakSent = false) :
    ∃ t, execDmlFlitReceive p (.flit f) s = .next t ∧ (portOf t p).seqRx = (portOf s p).seqRx ∧ (portOf t p).nakSent = true ∧
      (portOf t p).crcErrs = satAdd 65535 (portOf s p).crcErrs 1 ∧
      t.out = .dmlFlit p (dmlFlit 0x02 0 0 (some (((portOf s p).seqRx + 1023) % 1024)) []) :: s.out := by
  have hx : execDmlFlitReceive p (.flit f) s = .next (discardFlit p (modPort p countCrc s)) := by
    simp only [execDmlFlitReceive, ha, h, hc, decide_true, Bool.true_or, Bool.and_self, Bool.false_and, Bool.false_eq_true,
      if_true, if_false]
    rfl
  have hport := portOf_modPort (f := countCrc) hp
  refine ⟨_, hx, ?_⟩
  rw [portOf_discardFlit (by rwa [modPort_ports_length]), discardFlit_unsent (by rw [hport]; exact hn), hport]
  exact ⟨rfl, rfl, rfl, rfl⟩

theorem execDmlFlitReceive_sync {f : List (BitVec 8)} (ha : alive s = true) (h : (portOf s p).st = .active) (hs : syncSeen f = true) :
    execDmlFlitReceive p (.sync f) s = .next (modPort p (fun m => { m with syncMiss := 0 }) s) := by
  simp [execDmlFlitReceive, ha, h, hs]

/-! ## Replay and retraining (R422, R423, R430) -/

theorem portOf_enterRetrain (hp : p < s.med.ports.length) :
    portOf (enterRetrain p s) p =
      { portOf s p with
        st := .retrain, retrains := satAdd 255 (portOf s p).retrains 1, retrainTries := 0, syncMiss := 0, stAt := now s } := by
  rw [enterRetrain, portOf_record, portOf_modPort hp]

theorem execDmlFlitReceive_thirdMiss {f : List (BitVec 8)} (ha : alive s = true) (hp : p < s.med.ports.length)
    (h : (portOf s p).st = .active) (hs : syncSeen f = false) (hm : 2 ≤ (portOf s p).syncMiss) :
    ∃ t, execDmlFlitReceive p (.sync f) s = .next t ∧ (portOf t p).st = .retrain ∧
      (portOf t p).retrains = satAdd 255 (portOf s p).retrains 1 ∧ (portOf t p).stAt = now s := by
  have hx : execDmlFlitReceive p (.sync f) s = .next (enterRetrain p s) := by simp [execDmlFlitReceive, ha, h, hs, hm]
  refine ⟨_, hx, ?_⟩
  rw [portOf_enterRetrain hp]
  exact ⟨rfl, rfl, rfl⟩

/-- A port that replays its unacknowledged flits: each has one try more (R430). -/
def replayedPort (t : Nat) (m : Med1) : Med1 :=
  { m with unacked := m.unacked.map (fun x => (x.1, x.2 + 1)), replays := satAdd 255 m.replays 1, ackAt := t }

/-- The oldest unacknowledged flit has tries left: everything is replayed with one try more (R430). -/
theorem replayPort_replays {a n : Nat} {r : List (Nat × Nat)} (hp : p < s.med.ports.length) (hu : (portOf s p).unacked = (a, n) :: r)
    (hn : n < 4) :
    portOf (replayPort p s) p = replayedPort (now s) (portOf s p) ∧
      (replayPort p s).out = .dmlReplay p ((portOf s p).unacked.map (·.1)) :: s.out := by
  have hr : replayPort p s = correctedEvent (dmlSrc p) .lane (emit (.dmlReplay p ((portOf s p).unacked.map (·.1)))
      (modPort p (replayedPort (now s)) s)) := by
    simp only [replayPort, hu, Nat.not_le.mpr hn, if_false]
    rfl
  rw [hr, correctedEvent_out, portOf, correctedEvent_med, ← portOf, portOf_emit, portOf_modPort hp]
  exact ⟨rfl, rfl⟩

/-- The oldest unacknowledged flit was replayed four times without progress: the port retrains (R430). -/
theorem replayPort_gives_up {a n : Nat} {r : List (Nat × Nat)} (hu : (portOf s p).unacked = (a, n) :: r) (hn : 4 ≤ n) :
    replayPort p s = enterRetrain p (record 0x0A03 (dmlSrc p) [] s) := by
  simp [replayPort, hu, hn]

/-- A port that has taken an acknowledgement (R430). -/
def ackedPort (ack : Nat) (m : Med1) : Med1 := { m with unacked := ackFlits ack m.unacked }

/-- A NAK takes its acknowledgement, and replays what is left while the oldest has tries left (R430). -/
theorem execDmlNak_replays {ack : Nat} (ha : alive s = true) (hp : p < s.med.ports.length) (h : (portOf s p).st = .active)
    (hne : ackFlits ack (portOf s p).unacked ≠ []) (hn : ∀ x ∈ (ackFlits ack (portOf s p).unacked).head?, x.2 < 4) :
    ∃ t, execDmlNak p ack s = .next t ∧
      (portOf t p).unacked = (ackFlits ack (portOf s p).unacked).map (fun x => (x.1, x.2 + 1)) ∧
      .dmlReplay p ((ackFlits ack (portOf s p).unacked).map (·.1)) ∈ t.out ∧ (portOf t p).ackAt = now s ∧
      (portOf t p).st = .active := by
  have hx : execDmlNak p ack s = .next (replayPort p (modPort p (ackedPort ack) s)) := by
    unfold execDmlNak
    exact if_pos (by simp [ha, h])
  obtain ⟨⟨a, n⟩, r, hu⟩ := List.exists_cons_of_ne_nil hne
  have hport := portOf_modPort (f := ackedPort ack) hp
  obtain ⟨hr, hout⟩ := replayPort_replays (s := modPort p (ackedPort ack) s) (p := p) (r := r)
    (by rwa [modPort_ports_length]) (by rw [hport]; exact hu) (hn (a, n) (by simp [hu]))
  refine ⟨_, hx, ?_⟩
  rw [hr, hout, hport]
  exact ⟨rfl, List.mem_cons_self, rfl, h⟩

theorem execDmlReplayTimeout_due (ha : alive s = true) (h : (portOf s p).st = .active) (ht : (portOf s p).ackAt + 4000 ≤ now s) :
    execDmlReplayTimeout p s = .next (replayPort p s) := by
  simp [execDmlReplayTimeout, ha, h, ht]

theorem execDmlReplayTimeout_replays {a n : Nat} {r : List (Nat × Nat)} (ha : alive s = true) (hp : p < s.med.ports.length)
    (h : (portOf s p).st = .active) (hu : (portOf s p).unacked = (a, n) :: r) (hn : n < 4) (ht : (portOf s p).ackAt + 4000 ≤ now s) :
    ∃ t, execDmlReplayTimeout p s = .next t ∧ (portOf t p).unacked = (portOf s p).unacked.map (fun x => (x.1, x.2 + 1)) ∧
      (portOf t p).replays = satAdd 255 (portOf s p).replays 1 ∧ .dmlReplay p ((portOf s p).unacked.map (·.1)) ∈ t.out := by
  obtain ⟨hport, hout⟩ := replayPort_replays hp hu hn
  refine ⟨_, execDmlReplayTimeout_due ha h ht, ?_⟩
  rw [hport, hout]
  exact ⟨rfl, rfl, List.mem_cons_self⟩

theorem execDmlReplayTimeout_retrains {a n : Nat} {r : List (Nat × Nat)} (ha : alive s = true) (hp : p < s.med.ports.length)
    (h : (portOf s p).st = .active) (hu : (portOf s p).unacked = (a, n) :: r) (hn : 4 ≤ n) (ht : (portOf s p).ackAt + 4000 ≤ now s) :
    ∃ t, execDmlReplayTimeout p s = .next t ∧ (portOf t p).st = .retrain ∧ (portOf t p).unacked = (portOf s p).unacked := by
  refine ⟨_, execDmlReplayTimeout_due ha h ht, ?_⟩
  rw [replayPort_gives_up hu hn, portOf_enterRetrain (by rwa [record_med]), portOf_record]
  exact ⟨rfl, rfl⟩

theorem execDmlRetrainTimeout_again (ha : alive s = true) (h : (portOf s p).st = .retrain) (hn : (portOf s p).retrainTries < 2)
    (ht : (portOf s p).stAt + 10000000 ≤ now s) :
    execDmlRetrainTimeout p s = .next (modPort p (fun m => { m with retrainTries := m.retrainTries + 1, stAt := now s }) s) := by
  have hn' : ¬ 3 ≤ (portOf s p).retrainTries + 1 := by omega
  simp [execDmlRetrainTimeout, ha, h, ht, hn']

theorem execDmlRetrainTimeout_third (ha : alive s = true) (h : (portOf s p).st = .retrain) (hn : 2 ≤ (portOf s p).retrainTries)
    (ht : (portOf s p).stAt + 10000000 ≤ now s) : execDmlRetrainTimeout p s = .next (portDown p .down false s) := by
  have hn' : 3 ≤ (portOf s p).retrainTries + 1 := by omega
  simp [execDmlRetrainTimeout, ha, h, ht, hn']

/-- The flits that a port replays as its retraining ends leave before what waits. -/
def replayKept (p : Nat) (s : State) : State :=
  if (portOf s p).unacked.isEmpty then s else emit (.dmlReplay p ((portOf s p).unacked.map (·.1))) s

theorem replayKept_linkView (p : Nat) (s : State) : linkView (replayKept p s) = linkView s := by
  unfold replayKept
  split <;> rfl

theorem execDmlRetrainComplete_locked {lanes : List (Nat × Bool)} (ha : alive s = true) (h : (portOf s p).st = .retrain)
    (hl : lanesLock s 3 p 2 lanes = true) (hw : wrongLane s 3 p 2 lanes = none) :
    execDmlRetrainComplete { port := p, lanes := lanes } s = .next (dmlRun p (replayKept p (enterActive p s))) := by
  simp only [execDmlRetrainComplete, ha, h, hl, hw, decide_true, Bool.and_self, if_true]
  rfl

theorem execDmlRetrainComplete_wrongLane {l : Nat} {lanes : List (Nat × Bool)} (ha : alive s = true) (h : (portOf s p).st = .retrain)
    (hl : lanesLock s 3 p 2 lanes = true) (hw : wrongLane s 3 p 2 lanes = some l) :
    execDmlRetrainComplete { port := p, lanes := lanes } s = .next (laneMismatch (dmlSrc p) p (rxLane s 3 p l) s) := by
  simp [execDmlRetrainComplete, ha, h, hl, hw]

/-- A port whose lanes lock again is active, with its sequence kept (R423, R430). -/
theorem portOf_retrained (hp : p < s.med.ports.length) :
    quietPort (portOf (dmlRun p (replayKept p (enterActive p s))) p) = quietPort (activePort (now s) (portOf s p)) := by
  rw [linkView_portOf (dmlRun_linkView _ _), linkView_portOf (replayKept_linkView _ _), linkView_portOf (enterActive_linkView _ _),
    portOf_modPort hp]

theorem execDmlRetrainComplete_activates {lanes : List (Nat × Bool)} (ha : alive s = true) (hp : p < s.med.ports.length)
    (h : (portOf s p).st = .retrain) (hl : lanesLock s 3 p 2 lanes = true) (hw : wrongLane s 3 p 2 lanes = none) :
    ∃ t, execDmlRetrainComplete { port := p, lanes := lanes } s = .next t ∧ (portOf t p).st = .active ∧
      (portOf t p).seqRx = (portOf s p).seqRx ∧ (portOf t p).retrainTries = 0 ∧ (portOf t p).telemTime = now s := by
  have hport := portOf_retrained hp
  exact ⟨_, execDmlRetrainComplete_locked ha h hl hw, quietPort_congr Med1.st hport, (quietPort_congr Med1.seqRx hport :),
    quietPort_congr Med1.retrainTries hport, quietPort_congr Med1.telemTime hport⟩

/-! ## Insertion and removal (R457, R637) -/

/-- An insertion into a live slot is a power-up event, and one beside a powered neighbour blocks every other for 20 ms (R637). -/
def noteInsertion (p : Nat) (live : Bool) (s : State) : State :=
  let s := if live then { s with cle.lastEvent := some (now s, p) } else s
  if live && slotShared s p then { s with cle.blockAll := now s + 20000000 } else s

theorem slotShared_lastEvent (s : State) (o : Option (Nat × Nat)) (p : Nat) :
    slotShared { s with cle.lastEvent := o } p = slotShared s p := rfl

theorem noteInsertion_med (p : Nat) (live : Bool) (s : State) : (noteInsertion p live s).med = s.med := by
  cases live with
  | false => rfl
  | true => cases h : slotShared s p <;> simp [noteInsertion, slotShared_lastEvent, h]

theorem noteInsertion_blockAll (p : Nat) (live : Bool) (s : State) :
    (noteInsertion p live s).cle.blockAll = if live = true ∧ slotShared s p = true then now s + 20000000 else s.cle.blockAll := by
  cases live with
  | false => rfl
  | true => cases h : slotShared s p <;> simp [noteInsertion, slotShared_lastEvent, h, now]

theorem slotShared_record (code src : Nat) (ps : List Nat) (s : State) (n : Nat) :
    slotShared (record code src ps s) n = slotShared s n := by
  simp [slotShared]

/-- A port that finds a module, with SLOT_PG of its slot as it is (R457). -/
def insertedPort (live : Bool) (m : Med1) : Med1 := { m with present := true, pg := live }

theorem execModuleInserted_effect (ha : alive s = true) (h48 : p < 48) (hp : p < s.med.ports.length) (hm : (portOf s p).present = false) :
    ∃ t, execModuleInserted p s = .next t ∧ (portOf t p).present = true ∧ (portOf t p).pg = (slotPwr s p).pg ∧
      t.cle.blockAll = if (slotPwr s p).pg = true ∧ slotShared s p = true then now s + 20000000 else s.cle.blockAll := by
  have hx : execModuleInserted p s = .next (noteInsertion p (slotPwr s p).pg
      (record 0x0A04 (dmlSrc p) [] (modPort p (insertedPort (slotPwr s p).pg) s))) := by
    unfold execModuleInserted
    rw [if_pos (by simp [ha, h48, hm])]
    rfl
  refine ⟨_, hx, ?_⟩
  rw [portOf, noteInsertion_med, ← portOf, portOf_record, portOf_modPort hp, noteInsertion_blockAll, slotShared_record, now_record,
    record_cle]
  exact ⟨rfl, rfl, rfl⟩

/-- A port without its module (R457). -/
def emptiedPort (m : Med1) : Med1 := { m with present := false, pg := false, held := 0, serial := 0, info := [] }

/-- A slot whose module is gone: its SLOT_EN has fallen. -/
def slotEmptied (p : Nat) (s : State) : State := modSlotPwr p (fun x => { x with en := false, st := 0 }) s

theorem execModuleRemoved_present (ha : alive s = true) (hm : (portOf s p).present = true) :
    execModuleRemoved p s =
      .next (record 0x0A05 (dmlSrc p) [] (portDown p .disabled true (modPort p emptiedPort (slotEmptied p s)))) := by
  unfold execModuleRemoved
  exact if_pos (by simp [ha, hm])

theorem execModuleRemoved_effect (ha : alive s = true) (hp : p < s.med.ports.length) (hm : (portOf s p).present = true) :
    ∃ t, execModuleRemoved p s = .next t ∧ (portOf t p).present = false ∧ (portOf t p).st = .disabled ∧ (portOf t p).pg = false ∧
      ∀ x ∈ t.cle.slots[p]?, x.en = false := by
  have hq : p < (slotEmptied p s).med.ports.length := hp
  have hport := portOf_portDown (s := modPort p emptiedPort (slotEmptied p s)) (by rwa [modPort_ports_length]) .disabled true
  rw [portOf_modPort hq] at hport
  refine ⟨_, execModuleRemoved_present ha hm, ?_⟩
  rw [portOf_record, record_cle, portDown_cle]
  exact ⟨quietPort_congr Med1.present hport, quietPort_congr Med1.st hport, quietPort_congr Med1.pg hport, by simp [slotEmptied]⟩

/-- Settles O49: each clause is what one command does to its port, read off after the port has sent what it may. -/
theorem moduleLinksTrain : Obligations.ModuleLinksTrain :=
  ⟨fun _ _ => execDmlDetect_starts, fun _ _ => execDmlDetect_waits, fun _ _ => execDmlTraining_detected,
    fun _ _ _ => execDmlTraining_locked, fun _ _ _ _ => execDmlTraining_wrongLane, fun _ _ => execDmlTrainTimeout_expired,
    fun _ _ => execDmlTrainTimeout_drops, fun _ _ => execDmlDownRetry_due, fun _ _ _ => execDmlIdent_activates,
    fun _ _ _ => execDmlIdent_sameHead, fun _ _ _ => execDmlIdent_badPage, fun _ _ _ => execDmlIdent_badGeometry,
    fun _ _ _ => execDmlFlitReceive_taken, fun _ _ _ => execDmlFlitReceive_inOrder, fun _ _ _ => execDmlFlitReceive_badCrc,
    fun _ _ _ => execDmlFlitReceive_outOfOrder, fun _ _ _ => execDmlFlitReceive_sync, fun _ _ _ => execDmlFlitReceive_thirdMiss,
    fun _ _ _ => execDmlNak_replays, fun _ _ _ _ _ => execDmlReplayTimeout_replays, fun _ _ _ _ _ => execDmlReplayTimeout_retrains,
    fun _ _ => execDmlRetrainTimeout_again, fun _ _ => execDmlRetrainTimeout_third, fun _ _ _ => execDmlRetrainComplete_activates,
    fun _ _ _ _ => execDmlRetrainComplete_wrongLane, fun _ _ => execModuleInserted_effect, fun _ _ => execModuleRemoved_effect⟩

end Sys2Proof.Machine
end

section
/-!
Slot power (R635 to R639): what each command does to the power entries of the slots of a switch, and O28. A command acts on a switch by
folding an update over its slots; `SlotLocal` says of such an update that it leaves every other slot's entry.
-/
namespace Sys2Proof.Machine

variable {s : State} {n i : Nat}

/-! ## The power entries -/

theorem slotPwr_modSlotPwr (f : SlotPwr → SlotPwr) (h : i < s.cle.slots.length) :
    slotPwr (modSlotPwr i f s) i = f (slotPwr s i) := by
  simp [slotPwr, List.getD_eq_getElem?_getD, h]

theorem slotPwr_modSlotPwr_of_ne (f : SlotPwr → SlotPwr) {j : Nat} (h : j ≠ i) : slotPwr (modSlotPwr i f s) j = slotPwr s j := by
  simp [slotPwr, List.getD_eq_getElem?_getD, h.symm]

theorem slotPwr_of_cle {t : State} (h : t.cle = s.cle) (i : Nat) : slotPwr t i = slotPwr s i := by rw [slotPwr, slotPwr, h]

/-- An update of one slot: it leaves the number of slots, and the power entry of every other one. -/
structure SlotLocal (g : State → Nat → State) : Prop where
  length : ∀ s i, (g s i).cle.slots.length = s.cle.slots.length
  other : ∀ s i j, j ≠ i → slotPwr (g s i) j = slotPwr s j

theorem slotLocal_modSlotPwr (f : State → SlotPwr → SlotPwr) : SlotLocal fun s i => modSlotPwr i (f s) s where
  length s i := by simp
  other s i j h := slotPwr_modSlotPwr_of_ne _ h

theorem SlotLocal.foldl_length {g : State → Nat → State} (hg : SlotLocal g) (l : List Nat) (s : State) :
    (l.foldl g s).cle.slots.length = s.cle.slots.length :=
  foldl_keeps (π := fun s => s.cle.slots.length) hg.length l s

/-- A slot that the fold does not name keeps its entry. -/
theorem SlotLocal.foldl_notMem {g : State → Nat → State} (hg : SlotLocal g) {l : List Nat} (h : i ∉ l) (s : State) :
    slotPwr (l.foldl g s) i = slotPwr s i := by
  induction l generalizing s with
  | nil => rfl
  | cons a l ih =>
    rw [List.mem_cons, not_or] at h
    rw [List.foldl_cons, ih h.2, hg.other _ _ _ h.1]

/-- A slot that the fold names once has what the update does to it. -/
theorem SlotLocal.foldl_mem {g : State → Nat → State} (hg : SlotLocal g) {Q : SlotPwr → SlotPwr → Prop}
    (hQ : ∀ u, i < u.cle.slots.length → Q (slotPwr u i) (slotPwr (g u i) i)) {l : List Nat} (hl : l.Nodup) (h : i ∈ l) (s : State)
    (hi : i < s.cle.slots.length) : Q (slotPwr s i) (slotPwr (l.foldl g s) i) := by
  induction l generalizing s with
  | nil => cases h
  | cons a l ih =>
    obtain ⟨ha, hl⟩ := List.nodup_cons.mp hl
    rw [List.foldl_cons]
    by_cases hia : i = a
    · subst hia
      rw [hg.foldl_notMem ha]
      exact hQ s hi
    · have hmem : i ∈ l := (List.mem_cons.mp h).resolve_left hia
      rw [← hg.other s a i hia]
      exact ih hl hmem _ (by rwa [hg.length])

theorem switchSlots_nodup (s : State) (n : Nat) : (switchSlots s n).Nodup := by
  unfold switchSlots
  split <;> simp

/-! ## Turning on (R637, R639) -/

/-- SLOT_EN of a slot goes high, and its SLOT_PG is awaited from that time on. -/
def drivenSlot (t : Nat) (x : SlotPwr) : SlotPwr := { x with en := true, st := 2, onAt := some t }

/-- SLOT_EN of the slots of a list goes high. -/
def raiseEn (l : List Nat) (s : State) : State := l.foldl (fun s i => modSlotPwr i (drivenSlot (now s)) s) s

theorem raiseEn_local : SlotLocal fun s i => modSlotPwr i (drivenSlot (now s)) s := slotLocal_modSlotPwr fun s => drivenSlot (now s)

theorem turnOn_cle (n : Nat) (s : State) :
    (turnOn n s).cle = { (raiseEn ((switchSlots s n).filter (slotWanted s)) s).cle with lastEvent := some (now s, switchOf s n) } := by
  have event (l : List Nat) : (now (raiseEn l s), switchOf (raiseEn l s) n) = (now s, switchOf s n) :=
    foldl_keeps (π := fun u => (now u, switchOf u n)) (by intros; rfl) l s
  rw [← event ((switchSlots s n).filter (slotWanted s)), turnOn, record_cle]
  rfl

/-- A turn-on raises SLOT_EN of the wanted slots of the switch, notes the power-up event, and leaves every other slot (R637). -/
theorem turnOn_effect (hlen : ∀ i ∈ switchSlots s n, i < s.cle.slots.length) :
    (∀ i ∈ switchSlots s n, slotWanted s i = true → (slotPwr (turnOn n s) i).en = true ∧ (slotPwr (turnOn n s) i).st = 2) ∧
    (turnOn n s).cle.lastEvent = some (now s, switchOf s n) ∧
    ∀ i ∈ List.range 48, (i ∉ switchSlots s n ∨ slotWanted s i = false) → slotPwr (turnOn n s) i = slotPwr s i := by
  have hslot (i : Nat) : slotPwr (turnOn n s) i = slotPwr (raiseEn ((switchSlots s n).filter (slotWanted s)) s) i := by
    rw [slotPwr, turnOn_cle, slotPwr]
  refine ⟨fun i hi hw => ?_, by rw [turnOn_cle], fun i _ hi => ?_⟩
  · rw [hslot]
    refine raiseEn_local.foldl_mem (Q := fun _ y => y.en = true ∧ y.st = 2) (fun u hu => ?_) ((switchSlots_nodup s n).filter _)
      (List.mem_filter.mpr ⟨hi, hw⟩) s (hlen i hi)
    rw [slotPwr_modSlotPwr _ hu]
    exact ⟨rfl, rfl⟩
  · rw [hslot]
    exact raiseEn_local.foldl_notMem (fun h => by rcases hi with hi | hi <;> simp_all) s

theorem execSlotPowerOn_effect (hd : turnOnDue s false n = true) (hl : lowestDue s n = true)
    (hlen : ∀ i ∈ switchSlots s n, i < s.cle.slots.length) :
    ∃ t, execSlotPowerOn n s = .next t ∧
      (∀ i ∈ switchSlots s n, slotWanted s i = true → (slotPwr t i).en = true ∧ (slotPwr t i).st = 2) ∧
      t.cle.lastEvent = some (now s, switchOf s n) ∧
      ∀ i ∈ List.range 48, (i ∉ switchSlots s n ∨ slotWanted s i = false) → slotPwr t i = slotPwr s i :=
  ⟨_, if_pos (by simp [hd, hl]), turnOn_effect hlen⟩

theorem execSlotPowerRetry_effect (hd : turnOnDue s true n = true) (hl : lowestDue s n = true)
    (hlen : ∀ i ∈ switchSlots s n, i < s.cle.slots.length) :
    ∃ t, execSlotPowerRetry n s = .next t ∧
      (∀ i ∈ switchSlots s n, slotWanted s i = true → (slotPwr t i).en = true ∧ (slotPwr t i).st = 2) ∧
      t.cle.lastEvent = some (now s, switchOf s n) ∧
      ∀ i ∈ List.range 48, (i ∉ switchSlots s n ∨ slotWanted s i = false) → slotPwr t i = slotPwr s i :=
  ⟨_, if_pos (by simp [hd, hl]), turnOn_effect hlen⟩

theorem execSlotEnFollow_raises (hn : n < 48) (hd : slotsDriven s = true) (hg : (slotPwr s n).pg = true) (hw : slotWanted s n = true) :
    execSlotEnFollow n s = .next (modSlotPwr n (fun x => { x with en := true, st := 3 }) s) := by
  simp [execSlotEnFollow, hn, hd, hg, hw]

/-! ## A switch without power (R423, R426, R639) -/

/-- What a slot that goes dark keeps and loses of its power entry. -/
theorem slotDark_cle (n : Nat) (s : State) :
    (slotDark n s).cle = (modSlotPwr n (fun x =>
      { x with pg := false, st := 0, pgFell := if (slotPwr s n).pg then some (now s) else x.pgFell }) s).cle := by
  unfold slotDark
  extract_lets was powered dark m
  split
  · rfl
  · rw [portDown_cle]
    rfl

theorem slotDark_local : SlotLocal fun s i => slotDark i s where
  length s i := by simp [slotDark_cle]
  other s i j h := by rw [slotPwr_of_cle (slotDark_cle i s), slotPwr_modSlotPwr_of_ne _ h]

/-- A slot that goes dark has SLOT_PG low and is off; its SLOT_EN and its failures stand. -/
theorem slotPwr_slotDark (h : i < s.cle.slots.length) :
    (slotPwr (slotDark i s) i).pg = false ∧ (slotPwr (slotDark i s) i).st = 0 ∧ (slotPwr (slotDark i s) i).en = (slotPwr s i).en ∧
      (slotPwr (slotDark i s) i).fails = (slotPwr s i).fails := by
  rw [slotPwr_of_cle (slotDark_cle i s), slotPwr_modSlotPwr _ h]
  exact ⟨rfl, rfl, rfl, rfl⟩

theorem slotDark_slotMaster (n : Nat) (s : State) : slotMaster (slotDark n s) = slotMaster s := by
  unfold slotDark
  extract_lets was powered dark m
  split
  · rfl
  · rw [slotMaster, portDown_peerUp, portDown_glb]
    rfl

/-! ## Failures (R639) -/

/-- The slots of a list go dark. -/
def darkSlots (l : List Nat) (s : State) : State := l.foldl (fun s i => slotDark i s) s

/-- SLOT_EN of a slot falls as its switch is turned off. -/
def undriven (x : SlotPwr) : SlotPwr := { x with en := false, onAt := none }

/-- SLOT_EN of the slots of a list falls. -/
def dropEn (l : List Nat) (s : State) : State := l.foldl (fun s i => modSlotPwr i undriven s) s

/-- One more failure of a slot in a row; it is held off from the third on. -/
def failedOnce (t : Nat) (x : SlotPwr) : SlotPwr :=
  { x with
    fails := min 3 (x.fails + 1), st := if x.fails + 1 < 3 then 1 else 0, heldOff := decide (3 ≤ x.fails + 1)
    fault := decide (3 ≤ x.fails + 1), failAt := some t }

theorem failedOnce_heldOff (t : Nat) (x : SlotPwr) : (failedOnce t x).heldOff = decide (3 ≤ x.fails + 1) := rfl

/-- One more failure of the slots of a list. -/
def countFailures (l : List Nat) (s : State) : State := l.foldl (fun s i => modSlotPwr i (failedOnce (now s)) s) s

theorem dropEn_local : SlotLocal fun s i => modSlotPwr i undriven s := slotLocal_modSlotPwr fun _ => undriven

theorem countFailures_local : SlotLocal fun s i => modSlotPwr i (failedOnce (now s)) s := slotLocal_modSlotPwr fun s => failedOnce (now s)

theorem slotMaster_dropEn_darkSlots (l : List Nat) (s : State) : slotMaster (dropEn l (darkSlots l s)) = slotMaster s :=
  (foldl_keeps (π := slotMaster) (by intros; rfl) l _).trans (foldl_keeps (fun s i => slotDark_slotMaster i s) l s)

theorem execSlotPowerFail_eq (hn : n < 48) (hd : slotsDriven s = true) (hm : slotMaster s = true)
    (he : ∃ i ∈ switchSlots s n, (slotPwr s i).en = true) (hf : powerFails s n = true) :
    execSlotPowerFail n s = .next (record 0x0F07 (slotSrc n) [] (record 0x0F06 (slotSrc n) []
      { countFailures (switchSlots s n) (dropEn (switchSlots s n) (darkSlots (switchSlots s n) s)) with cle.slotFault := true })) := by
  have driven : ((switchSlots s n).any fun i => (slotPwr s i).en) = true := by simpa using he
  have master := (slotMaster_dropEn_darkSlots (switchSlots s n) s).trans hm
  unfold dropEn darkSlots undriven at master
  unfold execSlotPowerFail
  dsimp only
  rw [if_pos (by simp [hn, hd, hf]), if_pos (by rw [master, driven]; rfl)]
  rfl

/-- A slot of a switch that fails once more. -/
theorem slotPwr_failed {l : List Nat} (hl : l.Nodup) (h : i ∈ l) (hi : i < s.cle.slots.length) :
    let y := slotPwr (countFailures l (dropEn l (darkSlots l s))) i
    y.en = false ∧ y.pg = false ∧ y.fails = min 3 ((slotPwr s i).fails + 1) ∧ y.heldOff = decide (3 ≤ (slotPwr s i).fails + 1) := by
  have dark := slotDark_local.foldl_mem (Q := fun x y => y.pg = false ∧ y.fails = x.fails)
    (fun u hu => by obtain ⟨hpg, -, -, hfails⟩ := slotPwr_slotDark hu; exact ⟨hpg, hfails⟩) hl h s hi
  have hi₁ : i < (darkSlots l s).cle.slots.length := by rwa [darkSlots, slotDark_local.foldl_length]
  have drop := dropEn_local.foldl_mem (Q := fun x y => y = undriven x) (fun u hu => slotPwr_modSlotPwr _ hu) hl h _ hi₁
  have hi₂ : i < (dropEn l (darkSlots l s)).cle.slots.length := by rwa [dropEn, dropEn_local.foldl_length]
  have count := countFailures_local.foldl_mem (Q := fun x y => ∃ t, y = failedOnce t x)
    (fun u hu => ⟨_, slotPwr_modSlotPwr _ hu⟩) hl h _ hi₂
  obtain ⟨hpg, hfails⟩ := dark
  obtain ⟨t, count⟩ := count
  have fails : (undriven (slotPwr (darkSlots l s) i)).fails = (slotPwr s i).fails := hfails
  rw [countFailures, count, dropEn, drop]
  exact ⟨rfl, hpg, congrArg (fun k => min 3 (k + 1)) fails, by rw [failedOnce_heldOff]; simp only [fails]⟩

theorem execSlotPowerFail_effect (hn : n < 48) (hd : slotsDriven s = true) (hm : slotMaster s = true)
    (hlen : ∀ i ∈ switchSlots s n, i < s.cle.slots.length) (he : ∃ i ∈ switchSlots s n, (slotPwr s i).en = true)
    (hf : powerFails s n = true) :
    ∃ t, execSlotPowerFail n s = .next t ∧
      (∀ i ∈ switchSlots s n, (slotPwr t i).en = false ∧ (slotPwr t i).pg = false ∧
        (slotPwr t i).fails = min 3 ((slotPwr s i).fails + 1) ∧ (slotPwr t i).heldOff = decide (3 ≤ (slotPwr s i).fails + 1)) ∧
      t.cle.slotFault = true := by
  refine ⟨_, execSlotPowerFail_eq hn hd hm he hf, fun i hi => ?_, by simp⟩
  have failed := slotPwr_failed (switchSlots_nodup s n) hi (hlen i hi)
  rw [slotPwr, record_cle, record_cle]
  exact failed

/-! ## Turning off (R638) -/

/-- SLOT_EN of a slot falls as it is no longer wanted. -/
def unwanted (x : SlotPwr) : SlotPwr := { x with en := false, st := 0, onAt := none, offAt := none }

/-- SLOT_EN of slots of a list falls as they are no longer wanted. -/
def dropUnwanted (l : List Nat) (s : State) : State := l.foldl (fun s i => modSlotPwr i unwanted s) s

theorem unwanted_local : SlotLocal fun s i => modSlotPwr i unwanted s := slotLocal_modSlotPwr fun _ => unwanted

theorem execSlotPowerOff_switch (hn : n < 48) (hd : slotsDriven s = true) (hm : slotMaster s = true) (hw : slotWanted s n = false)
    (hs : switchWanted s n = false) (ho : ∃ i ∈ switchSlots s n, (slotPwr s i).en = true ∨ (slotPwr s i).pg = true)
    (hp : peerDropped s n = true) :
    execSlotPowerOff n s = .next (record 0x0F07 (slotSrc n) []
      (darkSlots (switchSlots s n) (dropUnwanted (switchSlots s n) s))) := by
  have on : ((switchSlots s n).any fun i => (slotPwr s i).en || (slotPwr s i).pg) = true := by simpa using ho
  unfold execSlotPowerOff
  dsimp only
  rw [if_pos (by rw [on]; simp [hn, hd, hw]), if_neg (by simp [hm]), if_neg (by simp [hp]), if_neg (by simp [hs])]
  rfl

theorem execSlotPowerOff_effect (hn : n < 48) (hd : slotsDriven s = true) (hm : slotMaster s = true) (hw : slotWanted s n = false)
    (hs : switchWanted s n = false) (hlen : ∀ i ∈ switchSlots s n, i < s.cle.slots.length)
    (ho : ∃ i ∈ switchSlots s n, (slotPwr s i).en = true ∨ (slotPwr s i).pg = true) (hp : peerDropped s n = true) :
    ∃ t, execSlotPowerOff n s = .next t ∧
      ∀ i ∈ switchSlots s n, (slotPwr t i).en = false ∧ (slotPwr t i).pg = false ∧ (slotPwr t i).st = 0 := by
  refine ⟨_, execSlotPowerOff_switch hn hd hm hw hs ho hp, fun i hi => ?_⟩
  have drop := unwanted_local.foldl_mem (Q := fun _ y => y.en = false) (fun u hu => by rw [slotPwr_modSlotPwr _ hu]; rfl)
    (switchSlots_nodup s n) hi s (hlen i hi)
  have hi' : i < (dropUnwanted (switchSlots s n) s).cle.slots.length := by
    rw [dropUnwanted, unwanted_local.foldl_length]
    exact hlen i hi
  have dark := slotDark_local.foldl_mem (Q := fun x y => y.en = x.en ∧ y.pg = false ∧ y.st = 0)
    (fun u hu => by obtain ⟨hpg, hst, hen, -⟩ := slotPwr_slotDark hu; exact ⟨hen, hpg, hst⟩) (switchSlots_nodup s n) hi _ hi'
  rw [slotPwr_of_cle (record_cle _ _ _ _)]
  exact ⟨dark.1.trans drop, dark.2⟩

theorem execSlotPowerOff_beside (hn : n < 48) (hd : slotsDriven s = true) (hm : slotMaster s = true) (hw : slotWanted s n = false)
    (hs : switchWanted s n = true) (he : (slotPwr s n).en = true) (hmem : n ∈ switchSlots s n) (hp : peerDropped s n = true) :
    execSlotPowerOff n s = .next (modSlotPwr n (fun x => { x with en := false, st := 0, onAt := none, offAt := none }) s) := by
  have on : ((switchSlots s n).any fun i => (slotPwr s i).en || (slotPwr s i).pg) = true :=
    List.any_eq_true.mpr ⟨n, hmem, by simp [he]⟩
  unfold execSlotPowerOff
  dsimp only
  rw [if_pos (by rw [on]; simp [hn, hd, hw]), if_neg (by simp [hm]), if_neg (by simp [hp]), if_pos hs]

/-! ## CLE_SLOT_OFF (R638, R639) -/

theorem getLsbD_putBit_false {w : Nat} (v : BitVec w) (i j : Nat) :
    (putBit v i false).getLsbD j = (v.getLsbD j && !decide (j = i)) := by
  change (v &&& ~~~BitVec.twoPow w i).getLsbD j = _
  rw [BitVec.getLsbD_and, BitVec.getLsbD_not, BitVec.getLsbD_twoPow]
  by_cases hj : j < w
  · by_cases hji : i = j <;> simp [hj, hji, eq_comm]
  · rw [BitVec.getLsbD_of_ge v j (by omega), Bool.false_and, Bool.false_and]

/-- Bits put to 0 one after the other. -/
theorem getLsbD_foldl_putBit_false {w : Nat} (l : List Nat) (v : BitVec w) (j : Nat) :
    (l.foldl (fun v i => putBit v i false) v).getLsbD j = (v.getLsbD j && !decide (j ∈ l)) := by
  induction l generalizing v with
  | nil => simp
  | cons a l ih =>
    rw [List.foldl_cons, ih, getLsbD_putBit_false]
    simp [Bool.and_assoc]

/-- The slots that a write asks to be powered off although the layout forbids it (R638). -/
def refusedOffs (s : State) (v : BitVec 48) : List Nat :=
  (List.range 48).filter fun n => v.getLsbD n && !s.cle.slotOff.getLsbD n && offRefused s n

/-- The bits of a write that the layout allows (R638). -/
def grantedOffs (s : State) (v : BitVec 48) : BitVec 48 := (refusedOffs s v).foldl (fun v n => putBit v n false) v

theorem getLsbD_grantedOffs (v : BitVec 48) (h : n < 48) :
    (grantedOffs s v).getLsbD n = (v.getLsbD n && (s.cle.slotOff.getLsbD n || !offRefused s n)) := by
  rw [grantedOffs, getLsbD_foldl_putBit_false]
  cases hv : v.getLsbD n <;> cases ho : s.cle.slotOff.getLsbD n <;> cases hr : offRefused s n <;> simp [refusedOffs, h, hv, ho, hr]

/-- A refused bit sets CFG_ERR. -/
def markRefused (s : State) (v : BitVec 48) : State :=
  if (refusedOffs s v).isEmpty then s else { s with cle.cfgErr := true }

/-- The holds and failures of the slots of a list are forgotten (R639). -/
def clearHolds (l : List Nat) (s : State) : State :=
  l.foldl (fun s n => modSlotPwr n (fun x => { x with heldOff := false, fault := false, fails := 0, failAt := none }) s) s

/-- The other head asks the slot master (R636). -/
def askMaster (s : State) : State := if slotMaster s then s else sendPower (vaultReady s) false false s

theorem slotOffWrite_eq (v : BitVec 48) (s : State) :
    slotOffWrite v s = askMaster (clearHolds
      ((List.range 48).filter fun n => s.cle.slotOff.getLsbD n && !(grantedOffs s v).getLsbD n)
      { markRefused s v with cle.slotOff := (grantedOffs s v).setWidth 64 }) := rfl

theorem askMaster_cle (s : State) : (askMaster s).cle = s.cle := by
  unfold askMaster
  split
  · rfl
  · exact field_of_blank State.cle (sendPower_frame _ _ _ s 0x80200002 rfl) fun _ => rfl

/-- A write stores the bits that the layout allows, and a refused one sets CFG_ERR (R638). -/
theorem slotOffWrite_cle (v : BitVec 48) (s : State) :
    (slotOffWrite v s).cle.slotOff = (grantedOffs s v).setWidth 64 ∧
      (slotOffWrite v s).cle.cfgErr = (s.cle.cfgErr || !(refusedOffs s v).isEmpty) := by
  have kept (l : List Nat) (u : State) : ((clearHolds l u).cle.slotOff, (clearHolds l u).cle.cfgErr) = (u.cle.slotOff, u.cle.cfgErr) :=
    foldl_keeps (π := fun s => (s.cle.slotOff, s.cle.cfgErr)) (by intros; rfl) l u
  have marked : (markRefused s v).cle.cfgErr = (s.cle.cfgErr || !(refusedOffs s v).isEmpty) := by
    unfold markRefused
    cases (refusedOffs s v).isEmpty <;> simp
  obtain ⟨off, err⟩ := Prod.ext_iff.mp (kept _ _)
  rw [slotOffWrite_eq, askMaster_cle]
  exact ⟨off, err.trans marked⟩

theorem regWrite_of_served {ep off : Nat} (f : State → State) (hs : epServes s ep = true) (hm : memOn s ep = true)
    (hw : hostWriteOk s (off / 0x10000) = true) : regWrite ep off f s = f s := by
  simp [regWrite, barWrite, hs, hm, hw]

/-- What a low-half write of CLE_SLOT_OFF through an endpoint commits (R12). -/
def slotOffWritten (s : State) (ep : Nat) (w : BitVec 32) : BitVec 64 := join64 (stagedHi s ep 0xF0008 (hi32 s.cle.slotOff)) w

theorem execSlotOffWrite_effect {ep : Nat} {w : BitVec 32} (hs : epServes s ep = true) (hm : memOn s ep = true)
    (hw : hostWriteOk s 0x0F = true) :
    ∃ t, execSlotOffWrite ep w s = .next t ∧
      (∀ n ∈ List.range 48, t.cle.slotOff.getLsbD n =
        ((slotOffWritten s ep w).getLsbD n && (s.cle.slotOff.getLsbD n || !offRefused s n))) ∧
      (s.cle.cfgErr = true → t.cle.cfgErr = true) ∧
      ((∃ n ∈ List.range 48, (slotOffWritten s ep w).getLsbD n = true ∧ s.cle.slotOff.getLsbD n = false ∧ offRefused s n = true) →
        t.cle.cfgErr = true) := by
  refine ⟨_, congrArg Host.Outcome.next (regWrite_of_served (off := 0xF0008) _ hs hm hw), ?_⟩
  obtain ⟨hoff, herr⟩ := slotOffWrite_cle ((slotOffWritten s ep w).setWidth 48) s
  rw [dropStage_cle]
  refine ⟨fun n hn => ?_, fun h => ?_, ?_⟩
  · have h48 : n < 48 := List.mem_range.mp hn
    have hgrant := getLsbD_grantedOffs (s := s) ((slotOffWritten s ep w).setWidth 48) h48
    rw [BitVec.getLsbD_setWidth, decide_eq_true h48, Bool.true_and] at hgrant
    refine (congrArg (BitVec.getLsbD · n) hoff).trans ?_
    rw [BitVec.getLsbD_setWidth, hgrant, decide_eq_true (by omega), Bool.true_and]
  · exact herr.trans (by rw [h, Bool.true_or])
  · rintro ⟨n, hn, hv, ho, hr⟩
    have h48 : n < 48 := List.mem_range.mp hn
    have hmem : n ∈ refusedOffs s ((slotOffWritten s ep w).setWidth 48) := by
      simp [refusedOffs, h48, hv, ho, hr]
    exact herr.trans (by simp [List.ne_nil_of_mem hmem])

/-- Settles O28: each clause is what one command does to the power entries of the slots of a switch. -/
theorem slotPowerIsSwitched : Obligations.SlotPowerIsSwitched :=
  ⟨fun _ _ => execSlotPowerOn_effect, fun _ _ => execSlotPowerRetry_effect, fun _ _ => execSlotEnFollow_raises,
    fun _ _ => execSlotPowerFail_effect, fun _ _ _ => execSlotOffWrite_effect, fun _ _ => execSlotPowerOff_effect,
    fun _ _ => execSlotPowerOff_beside⟩

end Sys2Proof.Machine
end

section
/-!
The supply guardian's readings (R72 to R77, R86, R87): what the holdup gauge, the dirty-data budget and the regulators' readings leave
in the state, and O20. A record or a message keeps whatever `thin` keeps, which is how each clause is read off behind one.
-/
namespace Sys2Proof.Machine

variable {s t : State}

/-- What `thin` does not blank is equal in states whose thin states are. -/
theorem field_of_thin {α : Type} (g : State → α) (h : thin t = thin s) (hg : ∀ u, g (thin u) = g u := by intro u; rfl) : g t = g s := by
  rw [← hg t, h, hg]

/-! ## The holdup gauge (R72) -/

/-- C of a charging interval, if it raised the voltage by 2 %; else C as it was. -/
def gaugedCap (g : GaugeSample) (cap : Option Nat) : Option Nat :=
  g.charge.elim cap fun x => if 0 < x.2 ∧ g.mv ≤ 51 * x.2 then some (x.1 * 1000 / x.2) else cap

/-- The ESR of a current step, if the sample has one; else the ESR as it was. -/
def gaugedEsr (g : GaugeSample) (esr : Option Nat) : Option Nat :=
  g.step.elim esr fun x => if 0 < x.2 then some (x.1 * 1000 / x.2) else esr

/-- The bank as a sample finds it: voltage, current, C and ESR, and since when more than 2 A are drawn (R72, R79). -/
def gauged (g : GaugeSample) (s : State) : State :=
  { s with
    pwr.vBank := g.mv, pwr.iBank := g.ma, pwr.overAt := if 2000 < g.ma then some (s.pwr.overAt.getD (now s)) else none
    pwr.cap := gaugedCap g s.pwr.cap, pwr.esr := gaugedEsr g s.pwr.esr }

/-- The energy and the ESR that the registers show follow from the bank as the sample finds it. -/
theorem execGaugeSample_eq (g : GaugeSample) (hp : powered s = true) :
    execGaugeSample g s = .next
      { gauged g s with
        pwr.bankEnergy := bankEnergyMj (gauged g s), pwr.bankEsr := min (2 ^ 32 - 1) ((bankRes (gauged g s).pwr).getD 0) } := by
  obtain ⟨mv, ma, charge, step⟩ := g
  refine (if_pos hp).trans ?_
  cases charge with
  | none =>
    cases step with
    | none => rfl
    | some y => by_cases hy : 0 < y.2 <;> simp only [gauged, gaugedCap, gaugedEsr, Option.elim, hy, if_true, if_false]
  | some x =>
    by_cases hx : 0 < x.2 ∧ mv ≤ 51 * x.2 <;> cases step with
    | none => simp only [gauged, gaugedCap, gaugedEsr, Option.elim, hx, and_self, if_true, if_false]
    | some y =>
      by_cases hy : 0 < y.2 <;>
        simp only [gauged, gaugedCap, gaugedEsr, Option.elim, hx, hy, and_self, if_true, if_false]

theorem execGaugeSample_effect (g : GaugeSample) (hp : powered s = true) :
    ∃ t, execGaugeSample g s = .next t ∧ t.pwr.vBank = g.mv ∧ t.pwr.iBank = g.ma ∧
      (g.charge = none → t.pwr.cap = s.pwr.cap) ∧
      (∀ x ∈ g.charge, 0 < x.2 → g.mv ≤ 51 * x.2 → t.pwr.cap = some (x.1 * 1000 / x.2)) ∧
      (g.step = none → t.pwr.esr = s.pwr.esr) ∧ (∀ x ∈ g.step, 0 < x.2 → t.pwr.esr = some (x.1 * 1000 / x.2)) ∧
      t.pwr.bankEnergy = bankEnergyMj t := by
  refine ⟨_, execGaugeSample_eq g hp, rfl, rfl, fun h => ?_, fun x h hx hmv => ?_, fun h => ?_, fun x h hx => ?_, rfl⟩
  · show gaugedCap g s.pwr.cap = _
    rw [gaugedCap, h, Option.elim]
  · show gaugedCap g s.pwr.cap = _
    rw [gaugedCap, Option.mem_def.mp h, Option.elim, if_pos ⟨hx, hmv⟩]
  · show gaugedEsr g s.pwr.esr = _
    rw [gaugedEsr, h, Option.elim]
  · show gaugedEsr g s.pwr.esr = _
    rw [gaugedEsr, Option.mem_def.mp h, Option.elim, if_pos hx]

/-! ## The budget (R74 to R77) -/

/-- The budget and BACKPRESSURE, with the peer's D and this head's as they stand. -/
def budgeted (s : State) : State :=
  { s with pwr.budget := budgetOf s, pwr.backpressure := decide (budgetOf s < dirtyBytes s) }

/-- Apart from the record of an episode of backpressure, `rebudget` sets the budget and BACKPRESSURE (R76, R77). -/
theorem rebudget_thin (s : State) : thin (rebudget s) = thin (budgeted s) := by
  unfold rebudget budgeted
  by_cases hb : budgetOf s < dirtyBytes s
  · by_cases hp : s.pwr.backpressure = true
    · simp only [hb, hp, if_true, decide_true]
    · simp only [hb, hp, if_true, decide_true, Bool.false_eq_true, if_false]
      exact record_thin _ _ _ _
  · simp only [hb, if_false, decide_false]

/-- What `rebudget` leaves of the state in which it is taken: the two D stand, the budget follows from them. -/
theorem rebudget_effect (s : State) :
    (rebudget s).pwr.ownBudget = s.pwr.ownBudget ∧ (rebudget s).pwr.peerBudget = s.pwr.peerBudget ∧
      (rebudget s).pwr.budget = budgetOf s ∧ budgetOf (rebudget s) = budgetOf s ∧
      (rebudget s).pwr.backpressure = decide ((rebudget s).pwr.budget < dirtyBytes s) := by
  have h := rebudget_thin s
  have hb : (rebudget s).pwr.budget = budgetOf s := field_of_thin (fun u => u.pwr.budget) h
  refine ⟨(field_of_thin (fun u => u.pwr.ownBudget) h :), (field_of_thin (fun u => u.pwr.peerBudget) h :), hb,
    (field_of_thin budgetOf h :), ?_⟩
  rw [hb]
  exact field_of_thin (fun u => u.pwr.backpressure) h

theorem ownBudgetOf_mod (s : State) (rate : Nat) : ownBudgetOf s rate % 32768 = 0 := Nat.mul_mod_left _ _

/-- This head's D has been computed. -/
def ownComputed (rate : Nat) (s : State) : State :=
  { s with pwr.ownBudget := ownBudgetOf s rate, pwr.reserve := ownFlushable s rate }

/-- D goes to the peer, and during a flush its progress (R76, R81). -/
def sendBudget (d : Nat) (s : State) : State :=
  let s := xhlSend 0x0003 false false [d] [] s
  if s.pwr.flushActive then xhlSend 0x0004 false false [0, s.wlg.commitLsn, dirtyBytes s] [] s else s

theorem sendBudget_thin (d : Nat) (s : State) : thin (sendBudget d s) = thin s := by
  unfold sendBudget
  extract_lets u
  split
  · rw [xhlSend_thin, xhlSend_thin]
  · exact xhlSend_thin _ _ _ _ _ s

theorem execBudgetCompute_effect (rate : Nat) (ha : alive s = true) :
    ∃ t, execBudgetCompute rate s = .next t ∧ t.pwr.ownBudget = ownBudgetOf s rate ∧ t.pwr.ownBudget % 32768 = 0 ∧
      t.pwr.budget = budgetOf t ∧ t.pwr.backpressure = decide (t.pwr.budget < dirtyBytes s) := by
  have hx : execBudgetCompute rate s = .next (rebudget (sendBudget (ownBudgetOf s rate) (ownComputed rate s))) := if_pos ha
  have hsend := sendBudget_thin (ownBudgetOf s rate) (ownComputed rate s)
  have hown : (sendBudget (ownBudgetOf s rate) (ownComputed rate s)).pwr.ownBudget = ownBudgetOf s rate :=
    field_of_thin (fun u => u.pwr.ownBudget) hsend
  have hdirty : dirtyBytes (sendBudget (ownBudgetOf s rate) (ownComputed rate s)) = dirtyBytes s :=
    (field_of_thin dirtyBytes hsend :)
  obtain ⟨own, -, budget, again, back⟩ := rebudget_effect (sendBudget (ownBudgetOf s rate) (ownComputed rate s))
  rw [hown] at own
  refine ⟨_, hx, own, ?_, budget.trans again.symm, hdirty ▸ back⟩
  rw [own, ownBudgetOf_mod]

theorem execBudget_effect (d : Nat) (ha : alive s = true) :
    ∃ t, execBudget d s = .next t ∧ t.pwr.peerBudget = some d ∧
      (t.pwr.budget = if s.wlg.mirror = 3 then s.pwr.ownBudget else min s.pwr.ownBudget d) ∧
      t.pwr.backpressure = decide (t.pwr.budget < dirtyBytes s) := by
  obtain ⟨-, peer, budget, -, back⟩ := rebudget_effect { s with pwr.peerBudget := some d, pwr.peerBudgetAt := now s }
  exact ⟨_, if_pos ha, peer, budget, back⟩

theorem execPeerBudgetStale_effect (ha : alive s = true) (h : s.pwr.peerBudgetAt + 5000000 < now s) :
    ∃ t, execPeerBudgetStale s = .next t ∧ t.pwr.peerBudget = none ∧
      (t.pwr.budget = if s.wlg.mirror = 3 then s.pwr.ownBudget else 0) ∧
      t.pwr.backpressure = decide (t.pwr.budget < dirtyBytes s) := by
  obtain ⟨-, peer, budget, -, back⟩ := rebudget_effect { s with pwr.peerBudget := none }
  have none_is_zero : budgetOf { s with pwr.peerBudget := none } = if s.wlg.mirror = 3 then s.pwr.ownBudget else 0 := by
    simp [budgetOf]
  exact ⟨_, if_pos (by simp [ha, h]), peer, budget.trans none_is_zero, back⟩

/-! ## The regulators of the image (R86, R87) -/

variable {m a : Nat} {r r' : Regulator}

/-- A regulator that `regAt` finds stands at its master and address. -/
theorem regAt_place (h : regAt s m a = some r) : r.master = m ∧ r.addr = a := by
  simpa using List.find?_some h

/-- A regulator after an update that leaves its place. -/
theorem regAt_modReg {f : Regulator → Regulator} (h : regAt s m a = some r) (hf : ∀ r, (f r).master = r.master ∧ (f r).addr = r.addr) :
    regAt (modReg m a f s) m a = some (f r) := by
  have place : ((fun r => decide (r.master = m) && decide (r.addr = a)) ∘ fun r => if r.master = m ∧ r.addr = a then f r else r) =
      fun r : Regulator => decide (r.master = m) && decide (r.addr = a) := by
    funext r
    by_cases hr : r.master = m ∧ r.addr = a <;> simp [hr, hf]
  unfold regAt at h
  rw [regAt, modReg, List.find?_map, place, h, Option.map_some, if_pos (regAt_place h)]

theorem regAt_of_thin (h : thin t = thin s) (m a : Nat) : regAt t m a = regAt s m a := field_of_thin (regAt · m a) h

theorem regRecord_thin (alert : Bool) (m a : Nat) (status : BitVec 16) (role : Nat) (s : State) :
    thin (regRecord alert m a status role s) = thin { s with pwr.regFault := true } := by
  unfold regRecord
  dsimp only
  split
  · exact recordAlert_thin _ _ _ _
  · exact record_thin _ _ _ _

/-- The commands of a poll leave the head; they change nothing in it. -/
theorem pollSend_field {α : Type} (g : State → α) (hg : ∀ u, g (blank 0x80000000 u) = g u := by intro u; rfl) (s : State) :
    g (pollSend s) = g s := field_of_blank g (pollSend_frame s 0x80000000 rfl) hg

/-- An answered transaction: what was read stands, and a loss ends (R86, R87). -/
def answered (x : RegRead) (r : Regulator) : Regulator :=
  { r with status := x.status, vout := x.vout, iout := x.iout, temp := x.temp, fails := 0, lost := false }

/-- A loss of the regulator of rail 0 froze AVS; with its answer AVS goes on (R87). -/
def thawAvs (r : Regulator) (s : State) : State :=
  if r.lost && decide (r.rail = 0) then { s with pwr.avsFrozen := false } else s

/-- The temperature that the sensor beside the oscillator reads (R120). -/
def noteSensor (r : Regulator) (x : RegRead) (s : State) : State :=
  if r.master = 1 ∧ r.addr = s.img.time.oscSensor then noteTemp true x.temp s else s

/-- The readings of a regulator that answers (R86, R87). -/
def takeReading (r : Regulator) (x : RegRead) (s : State) : State :=
  noteSensor r x (thawAvs r (modReg r.master r.addr (answered x) s))

theorem regRead_answered {x : RegRead} (h : regAt s x.master x.addr = some r) (hok : x.ok = true) :
    regRead s x = regEvent r x (takeReading r x s) := by
  simp only [regRead, h, hok, if_true]
  rfl

theorem regRead_unanswered {x : RegRead} (h : regAt s x.master x.addr = some r) (hok : x.ok = false) :
    regRead s x = regFailed r s := by
  simp only [regRead, h, hok, Bool.false_eq_true, if_false]

theorem thawAvs_field {α : Type} (g : State → α) (r : Regulator) (s : State)
    (hg : ∀ u, g { u with pwr.avsFrozen := false } = g u := by intro u; rfl) : g (thawAvs r s) = g s := by
  unfold thawAvs
  split
  · exact hg s
  · rfl

theorem noteSensor_field {α : Type} (g : State → α) (r : Regulator) (x : RegRead) (s : State)
    (hg : ∀ u, g (blank 0x8 u) = g u := by intro u; rfl) : g (noteSensor r x s) = g s := by
  unfold noteSensor
  split
  · exact field_of_blank g (noteTemp_frame true x.temp s 0x8 rfl) hg
  · rfl

/-- Readings change the regulator's entry, and neither the mode nor the faults. -/
theorem takeReading_effect {x : RegRead} (h : regAt s x.master x.addr = some r) :
    regAt (takeReading r x s) x.master x.addr = some (answered x r) ∧ (takeReading r x s).glb = s.glb ∧
      (takeReading r x s).flt = s.flt := by
  obtain ⟨hm, ha⟩ := regAt_place h
  unfold takeReading
  rw [noteSensor_field (regAt · x.master x.addr), noteSensor_field State.glb, noteSensor_field State.flt,
    thawAvs_field (regAt · x.master x.addr), thawAvs_field State.glb, thawAvs_field State.flt, hm, ha]
  exact ⟨regAt_modReg h fun _ => ⟨rfl, rfl⟩, rfl, rfl⟩

/-- A request for a self-test leaves the regulators: the record of a full queue is all that it may write (R652). -/
theorem addTest_regAt (src : Nat) (k : TestKind) (host : Bool) (s : State) (m a : Nat) :
    regAt (addTest src k host s) m a = regAt s m a := by
  unfold addTest
  split
  · rfl
  · split
    · rfl
    · dsimp only
      split <;> exact regAt_of_thin (record_thin _ _ _ _) m a

/-- The third transaction in a row that is not answered: the regulator is lost, AVS freezes with rail 0, and records and a test of the
PMBus follow (R87). -/
def regLost (r : Regulator) (s : State) : State :=
  let s := modReg r.master r.addr (fun r => { r with lost := true }) s
  let s := if r.rail = 0 then { s with pwr.avsFrozen := true } else s
  externalError (srcId 6 4 r.master) .pmbus
    (record 0x0109 (srcId 6 4 r.master) [r.master, r.addr] (regRecord false r.master r.addr r.status r.role s))

/-- A transaction that is not answered is counted, and the third in a row is a loss (R87). -/
theorem regFailed_eq (r : Regulator) (s : State) :
    regFailed r s = if r.fails = 2 then regLost r (modReg r.master r.addr (fun x => { x with fails := r.fails + 1 }) s)
      else modReg r.master r.addr (fun x => { x with fails := r.fails + 1 }) s := by
  have third : r.fails + 1 = 3 ↔ r.fails = 2 := by omega
  simp only [regFailed, regLost, third]

theorem regLost_regAt (h : regAt s r.master r.addr = some r') : regAt (regLost r s) r.master r.addr = some { r' with lost := true } := by
  have lost := regAt_modReg h (f := fun r => { r with lost := true }) fun _ => ⟨rfl, rfl⟩
  unfold regLost externalError
  dsimp only
  rw [addTest_regAt, regAt_of_thin (record_thin _ _ _ _), regAt_of_thin (regRecord_thin _ _ _ _ _ _)]
  split <;> exact lost

/-- A regulator that does not answer has one failure more, and its third in a row is its loss. -/
theorem regFailed_regAt (h : regAt s m a = some r) :
    regAt (regFailed r s) m a = some { r with fails := r.fails + 1, lost := r.lost || decide (r.fails = 2) } := by
  obtain ⟨rfl, rfl⟩ := regAt_place h
  have missed := regAt_modReg h (f := fun x => { x with fails := r.fails + 1 }) fun _ => ⟨rfl, rfl⟩
  rw [regFailed_eq]
  split
  case isTrue two => simpa [two] using regLost_regAt missed
  case isFalse other => simpa [other] using missed

/-! ## What a status word asks for (R87) -/

theorem regEvent_none {x : RegRead} (h : x.event = .none) (r : Regulator) (s : State) : regEvent r x s = s := by
  simp [regEvent, h]

/-- A warning with a new status is recorded, which sets REG_FAULT, and its regulator is cleared (R87, R100). -/
theorem regEvent_warning {x : RegRead} (h : x.event = .warning) (hs : x.status ≠ r.status) (s : State) :
    (regEvent r x s).pwr.regFault = true ∧ regAt (regEvent r x s) m a = regAt s m a := by
  have hx : regEvent r x s = regClear r (regRecord true r.master r.addr x.status r.role s) := by simp [regEvent, h, hs]
  have hthin := regRecord_thin true r.master r.addr x.status r.role s
  rw [hx]
  exact ⟨(field_of_thin (fun u => u.pwr.regFault) hthin :), (regAt_of_thin hthin m a :)⟩

/-- The mode and the cause of FAILSTOP. -/
def stopView (s : State) : Mode × Nat := (s.glb.mode, s.flt.cause)

theorem failQueue_thin (s : State) (q : Queue) : thin (failQueue s q) = thin s :=
  foldl_thin (fun s _ => by split; rfl; exact finish_thin _ _ _ _ _ s) _ s

theorem cuts_stopView (s : State) : stopView (activateCut (lcCut s)) = stopView s := by
  unfold activateCut lcCut
  split <;> split <;> rfl

/-- The mode and the cause are set first; the message, the ended commands and the records that follow leave them. -/
def failstopBegun (cause src : Nat) (s : State) : State :=
  activateCut (lcCut { s with
    glb.mode := .failstop, glb.service := false, flt.cause := cause, flt.causeSrc := src, flt.failAt := some (now s), pwr.vaultAt := none })

/-- LAST_GASP has left, and the busy tags have ended (R656). -/
def failstopTold (cause src : Nat) (s : State) : State :=
  let s := xhlSend 0x0006 false false [cause, src] [] (failstopBegun cause src s)
  s.dcq.queues.foldl failQueue s

theorem failstopTold_thin (cause src : Nat) (s : State) : thin (failstopTold cause src s) = thin (failstopBegun cause src s) :=
  (foldl_thin failQueue_thin _ _).trans (xhlSend_thin _ _ _ _ _ _)

/-- A head enters FAILSTOP with its cause (R656). -/
theorem failstop_enters (cause src : Nat) (h : s.glb.mode ≠ .failstop) :
    (failstop cause src s).glb.mode = .failstop ∧ (failstop cause src s).flt.cause = cause := by
  have hx : failstop cause src s =
      almSaveAll (recordAlert 0x1001 src [] { failstopTold cause src s with wlg.holds := [], wlg.reserved := [] }) := if_neg h
  have view : stopView (failstop cause src s) = (.failstop, cause) := by
    calc stopView (failstop cause src s)
        = stopView { failstopTold cause src s with wlg.holds := [], wlg.reserved := [] } := by
          rw [hx]
          exact field_of_thin stopView ((almSaveAll_thin _).trans (recordAlert_thin _ _ _ _))
      _ = stopView (failstopTold cause src s) := rfl
      _ = stopView (failstopBegun cause src s) := field_of_thin stopView (failstopTold_thin _ _ _)
      _ = (.failstop, cause) := cuts_stopView _
  exact Prod.ext_iff.mp view

/-- An over- or under-voltage of rail 0, 1 or 3 is FATAL with cause 2 (R87, R656). -/
theorem regEvent_fatal {x : RegRead} (h : x.event = .overUnderVoltage) (hr : r.rail = 0 ∨ r.rail = 1 ∨ r.rail = 3)
    (hm : s.glb.mode ≠ .failstop) : (regEvent r x s).glb.mode = .failstop ∧ (regEvent r x s).flt.cause = 2 := by
  have hx : regEvent r x s = failstop 2 powerSrc (regRecord false r.master r.addr x.status r.role s) := by
    simp only [regEvent, h, hr, decide_true, if_true]
  have hglb : (regRecord false r.master r.addr x.status r.role s).glb = s.glb :=
    (field_of_thin State.glb (regRecord_thin _ _ _ _ _ _) :)
  rw [hx]
  exact failstop_enters 2 powerSrc (by rwa [hglb])

/-! ## Polls and alerts (R86) -/

theorem pmbusPoll_one (x : RegRead) (ha : alive s = true) : execPmbusPoll [x] s = .next (regRead (pollSend s) x) := if_pos ha

theorem pollSend_regAt (s : State) (m a : Nat) : regAt (pollSend s) m a = regAt s m a := pollSend_field (regAt · m a) (s := s)

theorem alive_mode (ha : alive s = true) : s.glb.mode ≠ .failstop := by
  unfold alive at ha
  simp_all

theorem execPmbusPoll_quiet {x : RegRead} (ha : alive s = true) (h : regAt s x.master x.addr = some r) (hok : x.ok = true)
    (he : x.event = .none) :
    ∃ t, execPmbusPoll [x] s = .next t ∧ regAt t x.master x.addr = some (answered x r) ∧ t.flt = s.flt := by
  have hp := (pollSend_regAt s x.master x.addr).trans h
  obtain ⟨read, -, flt⟩ := takeReading_effect hp
  refine ⟨_, pmbusPoll_one x ha, ?_⟩
  rw [regRead_answered hp hok, regEvent_none he]
  exact ⟨read, flt.trans (pollSend_field State.flt (s := s))⟩

theorem execPmbusPoll_unanswered {x : RegRead} (ha : alive s = true) (h : regAt s x.master x.addr = some r) (hok : x.ok = false) :
    ∃ t, execPmbusPoll [x] s = .next t ∧ (regAt t x.master x.addr).map (fun r => r.fails) = some (r.fails + 1) ∧
      (r.fails = 2 → (regAt t x.master x.addr).map (fun r => r.lost) = some true) := by
  have hp := (pollSend_regAt s x.master x.addr).trans h
  refine ⟨_, pmbusPoll_one x ha, ?_⟩
  rw [regRead_unanswered hp hok, regFailed_regAt hp]
  exact ⟨rfl, fun third => by simp [third]⟩

theorem execPmbusPoll_fatal {x : RegRead} (ha : alive s = true) (h : regAt s x.master x.addr = some r) (hok : x.ok = true)
    (he : x.event = .overUnderVoltage) (hr : r.rail = 0 ∨ r.rail = 1 ∨ r.rail = 3) :
    ∃ t, execPmbusPoll [x] s = .next t ∧ t.glb.mode = .failstop ∧ t.flt.cause = 2 := by
  have hp := (pollSend_regAt s x.master x.addr).trans h
  obtain ⟨-, glb, -⟩ := takeReading_effect hp
  refine ⟨_, pmbusPoll_one x ha, ?_⟩
  rw [regRead_answered hp hok]
  refine regEvent_fatal he hr ?_
  rw [glb, pollSend_field State.glb]
  exact alive_mode ha

/-- The Alert Response and the read of STATUS_WORD that an alert input sends (R86). -/
def alertSend (x : RegRead) (s : State) : State := emit (.pmbus x.master x.addr 0x79 0) (emit (.pmbus x.master 0x0C 0 0) s)

theorem execPmbusAlert_quiet {x : RegRead} (ha : alive s = true) (h : regAt s x.master x.addr = some r) (hok : x.ok = true)
    (he : x.event = .none) :
    ∃ t, execPmbusAlert (some x) none s = .next t ∧ regAt t x.master x.addr = some (answered x r) := by
  have hx : execPmbusAlert (some x) none s = .next (regRead (alertSend x s) x) := if_pos ha
  have hp : regAt (alertSend x s) x.master x.addr = some r := h
  obtain ⟨read, -, -⟩ := takeReading_effect hp
  refine ⟨_, hx, ?_⟩
  rwa [regRead_answered hp hok, regEvent_none he]

theorem execPmbusAlert_warning {x : RegRead} (ha : alive s = true) (h : regAt s x.master x.addr = some r) (hok : x.ok = true)
    (he : x.event = .warning) (hs : x.status ≠ r.status) :
    ∃ t, execPmbusAlert none (some x) s = .next t ∧ t.pwr.regFault = true ∧
      (regAt t x.master x.addr).map (fun r => r.status) = some x.status := by
  have hx : execPmbusAlert none (some x) s = .next (regRead (alertSend x s) x) := if_pos ha
  have hp : regAt (alertSend x s) x.master x.addr = some r := h
  obtain ⟨read, -, -⟩ := takeReading_effect hp
  obtain ⟨fault, same⟩ := regEvent_warning he hs (takeReading r x (alertSend x s)) (m := x.master) (a := x.addr)
  refine ⟨_, hx, ?_⟩
  rw [regRead_answered hp hok, same, read]
  exact ⟨fault, rfl⟩

/-- Settles O20: each clause is what one command sets, read off behind the records and messages that go with it. -/
theorem budgetAndRegulators : Obligations.BudgetAndRegulators :=
  ⟨fun _ => execGaugeSample_effect, fun _ => execBudgetCompute_effect, fun _ => execBudget_effect,
    fun _ => execPeerBudgetStale_effect, fun _ _ _ => execPmbusPoll_quiet, fun _ _ _ => execPmbusPoll_unanswered,
    fun _ _ _ => execPmbusPoll_fatal, fun _ _ _ => execPmbusAlert_quiet, fun _ _ _ => execPmbusAlert_warning⟩

end Sys2Proof.Machine
end

section
/-!
The waypoint before a planned stop takes no device time (R95, R484): what places its pages, writes its record and ends it leaves the
device time. The pages and the record carry it, and so does the entry to VAULT that follows.
-/
namespace Sys2Proof.Machine

variable {s t : State}

theorem now_of_blank {m : Nat} (h : blank m t = blank m s) (hm : m.testBit 3 = false) : now t = now s :=
  field_of_blank now h fun u => by simp [now, blank, hm]

/-! ## Stripes (R526 to R532) -/

@[simp] theorem now_modStripe (serial : BitVec 64) (f : Stripe → Stripe) (s : State) : now (modStripe serial f s) = now s :=
  now_of_blank (modStripe_frame serial f s 0x100000 rfl) rfl

@[simp] theorem now_closeStripe (serial : BitVec 64) (s : State) : now (closeStripe serial s) = now s :=
  now_of_blank (closeStripe_frame serial s 0x80140000 rfl) rfl

@[simp] theorem now_openStripe (k m kind : Nat) (s : State) : now (openStripe k m kind s).2 = now s := by
  unfold openStripe
  dsimp only
  split
  · exact now_record _ _ _ s
  · split
    case h_1 ms num u _ hn =>
      have taken : now u = now s := now_of_blank (takeNumbers_frame _ s 0x80300002 rfl _ _ hn) rfl
      have slots (x : List Member) (v : State) : now (x.foldl (fun s m => takeSlot m s) v) = now v :=
        foldl_keeps (fun s m => now_of_blank (takeSlot_frame m s 0x80280002 rfl) rfl) x v
      refine (now_of_blank (enterStrips_frame _ _ 0x80280002 rfl) rfl).trans ((slots _ _).trans ?_)
      split
      · exact (now_record _ _ _ u).trans taken
      · exact taken
    case h_2 => exact now_record _ _ _ s

theorem now_of_openStripe {k m kind : Nat} {x : Option Stripe} (h : openStripe k m kind s = (x, t)) : now t = now s := by
  rw [← now_openStripe k m kind s, h]

theorem now_placeObject (k m kind : Nat) (bs : List (BitVec 8)) (e : TrailerEntry) (s : State) :
    now (placeObject k m kind bs e s).2 = now s := by
  unfold placeObject
  extract_lets n put fresh
  have hput (x : Stripe) (f : Nat) (u : State) : now (put x f u).2 = now u := by
    unfold put
    dsimp only
    split <;> simp
  have hfresh (u : State) : now (fresh u).2 = now u := by
    unfold fresh
    split
    case h_1 h => exact (hput _ _ _).trans (now_of_openStripe h)
    case h_2 h => exact now_of_openStripe h
  split
  · split
    · exact hput _ _ s
    · exact (hfresh _).trans (now_closeStripe _ s)
  · exact hfresh s

theorem now_of_placeObject {k m kind : Nat} {bs : List (BitVec 8)} {e : TrailerEntry} {g : Option Nat}
    (h : placeObject k m kind bs e s = (g, t)) : now t = now s := by
  rw [← now_placeObject k m kind bs e s, h]

/-! ## The objects (R484, R490 to R500) -/

@[simp] theorem now_putPage (k m kind : Nat) (tree : MetaTree) (level num page : Nat) (data : List (BitVec 8)) (s : State) :
    now (putPage k m kind tree level num page data s) = now s := by
  unfold putPage
  split
  · split
    · rfl
    · split
      case h_1 h => exact (now_of_placeObject h :)
      case h_2 h => exact (now_of_placeObject h :)
  · rfl

@[simp] theorem now_putIndex (kind : Nat) (tree : MetaTree) (level : Nat) (cs : List (Nat × Nat)) (s : State) :
    now (putIndex kind tree level cs s) = now s :=
  foldl_keeps (fun s _ => now_putPage _ _ _ _ _ _ _ _ s) _ s

@[simp] theorem now_putTree (kind : Nat) (tree : MetaTree) (cs : List (Nat × Nat)) (s : State) :
    now (putTree kind tree cs s) = now s := by
  unfold putTree
  extract_lets d s1 s2 s3
  calc now _ = now s3 := by split <;> simp
    _ = now s2 := by unfold s3; split <;> simp
    _ = now s1 := by unfold s2; split <;> simp
    _ = now s := by unfold s1; split <;> simp

@[simp] theorem now_putLeaves (kind : Nat) (tree : MetaTree) (ps : List (Nat × List (BitVec 8))) (s : State) :
    now (putLeaves kind tree ps s) = now s := by
  rw [putLeaves, now_putTree]
  exact foldl_keeps (fun s _ => now_putPage _ _ _ _ _ _ _ _ s) _ s

@[simp] theorem now_putObject (kind : Nat) (ps : List (Nat × List (BitVec 8))) (s : State) : now (putObject kind ps s) = now s := by
  unfold putObject
  extract_lets u cs
  have hu : now u = now s := now_putLeaves kind .object ps s
  split <;> exact hu

@[simp] theorem now_putPair (r : State) (x : Nat × Nat) (s : State) : now (putPair r x s) = now s := by
  unfold putPair
  split
  · split <;> simp
  · rfl

@[simp] theorem now_putVersions (r s : State) : now (putVersions r s) = now s := by
  rw [putVersions, now_putObject, foldl_keeps (π := now) fun _ _ => now_putTree _ _ _ _,
    foldl_keeps (π := now) fun s x => now_putPair r x s]

@[simp] theorem now_putSeedSpace (p : SeedSpace) (s : State) : now (putSeedSpace p s) = now s := by
  rw [putSeedSpace, now_putLeaves]
  exact foldl_keeps (fun s _ => now_putPage _ _ _ _ _ _ _ _ s) _ s

@[simp] theorem now_putSeeds (r s : State) : now (putSeeds r s) = now s := by
  rw [putSeeds, now_putObject]
  exact foldl_keeps (fun s p => now_putSeedSpace p s) _ s

@[simp] theorem now_putLedger (r s : State) : now (putLedger r s) = now s := by
  rw [putLedger, now_putObject]
  exact foldl_keeps (fun s _ => now_putLeaves _ _ _ s) _ s

@[simp] theorem now_putObjects (r s : State) : now (putObjects r s) = now s := by
  rw [putObjects]
  refine (now_of_blank (closeMeta_frame _ 0x80140000 rfl) rfl).trans ?_
  simp

/-! ## The record (R485 to R487) -/

@[simp] theorem now_openRecords (s : State) : now (openRecords s).2 = now s := by
  unfold openRecords
  split
  case h_1 h => exact (now_of_openStripe h :)
  case h_2 h => exact now_of_openStripe h

@[simp] theorem now_streamCur (s : State) : now (streamCur s) = now s := by
  unfold streamCur
  split
  · rfl
  · exact now_openRecords s

@[simp] theorem now_streamNext (s : State) : now (streamNext s) = now s := by
  unfold streamNext
  split
  · rfl
  · split
    · exact now_openRecords s
    · rfl

@[simp] theorem now_placeRecord (r : State) (w : WaypointState) (x : Stripe) (s : State) : now (placeRecord r w x s) = now s := by
  unfold placeRecord
  split
  · rfl
  · refine (now_of_blank (recordPlaced_frame _ _ _ 0x801C0000 rfl) rfl).trans ?_
    exact (now_of_blank (m := 0x80040000) (programPage_frame _ _ _ _ _ _ _ rfl) rfl).trans rfl

@[simp] theorem now_putRecord (r s : State) : now (putRecord r s) = now s := by
  have streams : now (streamNext (streamCur s)) = now s := by simp
  unfold putRecord
  dsimp only
  split
  · split
    · exact (now_placeRecord _ _ _ _).trans streams
    · exact streams
  · rfl

/-! ## Capture and completion (R298, R484, R528) -/

@[simp] theorem now_exhaustFlushes (s : State) : now (exhaustFlushes s) = now s :=
  foldl_keeps (fun s c => thin_now (endCmd_thin c _ _ _ s)) _ s

@[simp] theorem now_settleFlushes (s : State) : now (settleFlushes s) = now s :=
  foldl_keeps (fun s c => thin_now (endCmd_thin c _ _ _ s)) _ s

@[simp] theorem now_freePages (ps : List ObjPage) (s : State) : now (freePages ps s) = now s :=
  now_of_blank (freePages_frame ps s 0x100000 rfl) rfl

@[simp] theorem now_rebudget (s : State) : now (rebudget s) = now s := (thin_now (rebudget_thin s) :)

@[simp] theorem now_sendDelta (rs : List DeltaRec) (s : State) : now (sendDelta rs s) = now s := thin_now (sendDelta_thin rs s)

/-- The state that a waypoint records: the flush reserve is topped up and the peaks are sampled (R75, R130). -/
def waypointPrepared (s : State) : State := samplePeaks (dropPlaced (fillReserve s.mmg.ledger.length s))

@[simp] theorem now_waypointPrepared (s : State) : now (waypointPrepared s) = now s :=
  calc now (waypointPrepared s)
      = now (dropPlaced (fillReserve s.mmg.ledger.length s)) := rfl
    _ = now (fillReserve s.mmg.ledger.length s) := now_of_blank (dropPlaced_frame _ 0x100000 rfl) rfl
    _ = now s := now_of_blank (fillReserve_frame _ s 0x80280002 rfl) rfl

/-- A capture puts the objects and the record of a state at the same device time. -/
theorem captureWaypoint_eq (clean : Bool) (s : State) :
    ∃ u, now u = now s ∧ captureWaypoint clean s =
      if placing (putRecord u (putObjects u u)) then putRecord u (putObjects u u)
      else exhaustFlushes (putRecord u (putObjects u u)) := by
  refine ⟨_, ?_, rfl⟩
  exact now_waypointPrepared s

theorem now_captureWaypoint (clean : Bool) (s : State) : now (captureWaypoint clean s) = now s := by
  obtain ⟨u, hu, hx⟩ := captureWaypoint_eq clean s
  rw [hx]
  split <;> simp [hu]

theorem now_finishWaypoint (w : WaypointState) (s : State) : now (finishWaypoint w s) = now s := by
  unfold finishWaypoint
  refine (now_of_blank (eraseFree_frame _ 0x80040000 rfl) rfl).trans ?_
  rw [now_rebudget, now_settleFlushes, now_sendDelta, foldl_keeps (π := now) fun _ _ => now_sendDelta _ _, now_freePages]
  rfl

theorem now_writeAnchors (s : State) : now (writeAnchors s) = now s := by
  have rings (copy) (l : List Nat) (u : State) : now (l.foldl (fun s n => writeRing copy n s) u) = now u :=
    foldl_keeps (fun s n => now_of_blank (writeRing_frame copy n s 0x800C0000 rfl) rfl) l u
  unfold writeAnchors writeAnchorsOn
  extract_lets ns copy u
  rw [now_record]
  refine (now_of_blank (trimStream_frame _ 0x180000 rfl) rfl).trans (show now u = now s from ?_)
  unfold u
  split
  · rfl
  · exact rings copy ns s

theorem now_stopWaypoint (s : State) : now (stopWaypoint s) = now s := by
  have captured (u : State) : now (captureWaypoint true (closeOpen u)) = now u :=
    (now_captureWaypoint _ _).trans (now_of_blank (closeOpen_frame u 0x80140000 rfl) rfl)
  unfold stopWaypoint
  extract_lets u v
  have hu : now u = now s := by
    unfold u
    split
    · split
      · exact now_finishWaypoint _ s
      · rfl
    · rfl
  have hv : now v = now s := (captured u).trans hu
  split
  · split
    · exact ((now_writeAnchors _).trans (now_finishWaypoint _ v)).trans hv
    · exact hv
  · exact hv

end Sys2Proof.Machine
end

section
/-!
Power states (R89 to R101) and the Acorn island (R50, R83, R97 to R99, R714): what an exit to PS0 leaves of the power state, how a
POWER message and the entry to VAULT end, the supplies of the island, and O21.
-/
namespace Sys2Proof.Machine

variable {s t : State}

/-! ## The idle states (R89 to R91, R101) -/

theorem execDrowseEntry_enters (hd : (s.pwr.idleNow && mayDoze s) = false) (hi : mayIdle s = true) (he : s.pwr.ps1En = true)
    (hc : s.pwr.curPs = 0) (ht : timerDone s (1000 * s.pwr.idlePs1) = true) (hn : clearFor s 10000 = true) :
    execDrowseEntry s = .next { s with pwr.curPs := 1 } := by
  simp [execDrowseEntry, hd, hi, he, hc, ht, hn]

theorem execDozeEntry_enters (h : mayDoze s = true) : execDozeEntry s = .next { s with pwr.curPs := 2 } := if_pos h

theorem pmbusSend_pwr (p : Regulator → Bool) (cmd value : Nat) (s : State) : (pmbusSend p cmd value s).pwr = s.pwr :=
  field_of_blank State.pwr (pmbusSend_frame p cmd value s 0x80000000 rfl) fun _ => rfl

theorem issueAll_pwr (s : State) : (issueAll s).pwr = s.pwr :=
  field_of_blank State.pwr (issueAll_frame s 0x80000480 rfl) fun _ => rfl

/-- Before an exit from DOZE only VDD_CORE is raised (R88, R629). -/
theorem avsRaise_pwr (s : State) :
    ∃ goal at_ v, (avsRaise s).pwr = { s.pwr with exitGoal := goal, stepAt := at_, vddCore := v } := by
  unfold avsRaise
  split
  · exact ⟨some s.pwr.vddCore, now s, s.pwr.vddCore, rfl⟩
  · refine ⟨_, _, _, (pmbusSend_pwr _ _ _ _).trans rfl⟩

/-- An exit: CUR_PS is 0, IDLE_NOW ends, and VDD_CORE may be on its way up (R91, R100). -/
theorem exitIdle_pwr (s : State) :
    ∃ goal at_ v, (exitIdle s).pwr =
      { s.pwr with curPs := 0, idleNow := false, idleOn := false, exitGoal := goal, stepAt := at_, vddCore := v } := by
  unfold exitIdle
  dsimp only
  simp only [issueAll_pwr]
  split
  · obtain ⟨goal, at_, v, h⟩ := avsRaise_pwr s
    exact ⟨goal, at_, v, by rw [h]⟩
  · exact ⟨_, _, _, rfl⟩

theorem exitIdle_lastBusy (s : State) : (exitIdle s).pwr.lastBusy = s.pwr.lastBusy := by
  obtain ⟨_, _, _, h⟩ := exitIdle_pwr s
  rw [h]

/-- An end of idleness starts the idle timers now (R89). -/
theorem busy_lastBusy (s : State) : (busy s).pwr.lastBusy = now s := by
  unfold busy
  dsimp only
  split
  · exact exitIdle_lastBusy _
  · rfl

theorem execPowerStateExit_effect (ha : alive s = true) :
    ∃ t, execPowerStateExit s = .next t ∧ t.pwr.curPs = 0 ∧ t.pwr.idleNow = false ∧ t.pwr.lastBusy = now s := by
  obtain ⟨_, _, _, h⟩ := exitIdle_pwr (busy s)
  refine ⟨_, if_pos ha, ?_⟩
  rw [h]
  exact ⟨rfl, rfl, busy_lastBusy s⟩

theorem execScheduledExit_effect (ha : alive s = true) (hc : clearFor s (if s.pwr.curPs = 2 then 300001 else 5001) = false) :
    ∃ t, execScheduledExit s = .next t ∧ t.pwr.curPs = 0 := by
  obtain ⟨_, _, _, h⟩ := exitIdle_pwr s
  refine ⟨_, if_pos (by rw [ha, hc]; rfl), ?_⟩
  rw [h]

/-- The enables of a write of PWR_PS_CTL; without PS3_EN a VAULT entry is given up (R101). -/
def psEnabled (w : BitVec 32) (s : State) : State :=
  { s with
    pwr.ps1En := bitOf w 0, pwr.ps2En := bitOf w 1, pwr.ps3En := bitOf w 2
    pwr.vaultProposed := bitOf w 2 && s.pwr.vaultProposed, pwr.vaultAgreed := bitOf w 2 && s.pwr.vaultAgreed }

/-- The enable of the present state falls (R101). -/
def psLeft (w : BitVec 32) (s : State) : Bool :=
  (decide (s.pwr.curPs = 1) && !bitOf w 0) || (decide (s.pwr.curPs = 2) && !bitOf w 1)

theorem psCtlWrite_eq (w : BitVec 32) (s : State) :
    psCtlWrite w s = if psLeft w s then exitIdle (psEnabled w s) else psEnabled w s := by
  unfold psCtlWrite psEnabled psLeft
  cases bitOf w 2 <;> rfl

/-- A write of PWR_PS_CTL takes the enables, and leaves PS0 exactly when the enable of the present state falls. -/
theorem psCtlWrite_pwr (w : BitVec 32) (s : State) :
    ∃ goal at_ v idle on, (psCtlWrite w s).pwr =
      { (psEnabled w s).pwr with
        curPs := if psLeft w s then 0 else s.pwr.curPs, idleNow := idle, idleOn := on
        exitGoal := goal, stepAt := at_, vddCore := v } := by
  rw [psCtlWrite_eq]
  split
  · obtain ⟨goal, at_, v, h⟩ := exitIdle_pwr (psEnabled w s)
    exact ⟨goal, at_, v, false, false, h⟩
  · exact ⟨_, _, _, _, _, rfl⟩

theorem execPsCtlWrite_effect (w : BitVec 32) (hw : hostWriteOk s 0x01 = true) :
    ∃ t, execPsCtlWrite w s = .next t ∧ t.pwr.ps1En = bitOf w 0 ∧ t.pwr.ps2En = bitOf w 1 ∧ t.pwr.ps3En = bitOf w 2 ∧
      (bitOf w 2 = false → t.pwr.vaultProposed = false ∧ t.pwr.vaultAgreed = false) ∧
      (s.pwr.curPs = 1 → bitOf w 0 = false → t.pwr.curPs = 0) ∧ (s.pwr.curPs = 2 → bitOf w 1 = false → t.pwr.curPs = 0) ∧
      (s.pwr.curPs = 1 → bitOf w 0 = true → t.pwr.curPs = 1) := by
  obtain ⟨_, _, _, _, _, h⟩ := psCtlWrite_pwr w s
  refine ⟨_, if_pos hw, ?_⟩
  rw [h]
  refine ⟨rfl, rfl, rfl, fun h3 => ?_, fun hc h1 => ?_, fun hc h2 => ?_, fun hc h1 => ?_⟩
  · simp [psEnabled, h3]
  · simp [psLeft, hc, h1]
  · simp [psLeft, hc, h2]
  · simp [psLeft, hc, h1]

/-! ## The agreement on VAULT (R93) -/

theorem sendPower_thin (ready propose accept : Bool) (s : State) : thin (sendPower ready propose accept s) = thin s :=
  xhlSend_thin _ _ _ _ _ s

theorem execVaultProposal_effect (hr : vaultReady s = true) (hv : s.pwr.peerVault = true) (hp : peerUp s = true)
    (hh : s.glb.headSel = false) : ∃ t, execVaultProposal s = .next t ∧ t.pwr.vaultProposed = true :=
  ⟨_, if_pos (by simp [hr, hv, hp, hh]), (field_of_thin (fun u => u.pwr.vaultProposed) (sendPower_thin _ _ _ _) :)⟩

/-- A head that has taken a POWER message: the peer's standing, its slots, and without its conditions no VAULT entry. -/
def powerTaken (m : PowerMsg) (s : State) : State :=
  { s with
    pwr.peerNext := m.next, pwr.peerVault := m.ready
    pwr.vaultProposed := m.ready && s.pwr.vaultProposed, pwr.vaultAgreed := m.ready && s.pwr.vaultAgreed
    cle.peerOff := m.slots.foldl (fun v x => putBit v x.1 (!x.2)) s.cle.peerOff, cle.peerDropped := m.dropped }

theorem execPower_eq (m : PowerMsg) (ha : alive s = true) :
    execPower m s =
      if m.propose && m.ready && s.glb.headSel && vaultReady (powerTaken m s) then
        .next (sendPower true false true { powerTaken m s with pwr.vaultAgreed := true })
      else if m.accept && (powerTaken m s).pwr.vaultProposed && vaultReady (powerTaken m s) then
        .next { powerTaken m s with pwr.vaultAgreed := true }
      else .next (powerTaken m s) := by
  cases hr : m.ready <;> simp only [execPower, powerTaken, ha, hr, if_true, Bool.false_eq_true, if_false] <;> rfl

/-- A message is taken; a proposal may be accepted, and an acceptance of a proposal that holds is agreed (R93). -/
theorem execPower_thin (m : PowerMsg) (ha : alive s = true) :
    ∃ t agreed, execPower m s = .next t ∧ thin t = thin { powerTaken m s with pwr.vaultAgreed := agreed } ∧
      (m.ready = false → agreed = false) ∧
      (m.accept = true → m.propose = false → (powerTaken m s).pwr.vaultProposed = true → vaultReady (powerTaken m s) = true →
        agreed = true) := by
  rw [execPower_eq m ha]
  split
  case isTrue accepts =>
    refine ⟨_, true, rfl, sendPower_thin _ _ _ _, fun h => ?_, fun _ _ _ _ => rfl⟩
    simp [h] at accepts
  case isFalse =>
    split
    case isTrue agrees =>
      refine ⟨_, true, rfl, rfl, fun h => ?_, fun _ _ _ _ => rfl⟩
      simp [powerTaken, h] at agrees
    case isFalse agrees =>
      refine ⟨_, _, rfl, rfl, fun h => ?_, fun hacc _ hprop hready => ?_⟩
      · simp [h]
      · simp [hacc, hprop, hready] at agrees

theorem execPower_effect (m : PowerMsg) (ha : alive s = true) :
    ∃ t, execPower m s = .next t ∧ t.pwr.peerNext = m.next ∧ t.pwr.peerVault = m.ready ∧
      (m.ready = false → t.pwr.vaultProposed = false ∧ t.pwr.vaultAgreed = false) ∧
      (m.slots = [] → t.cle.peerOff = s.cle.peerOff) ∧ (m.accept = true → m.propose = false → m.ready = true →
        s.pwr.vaultProposed = true → vaultReady { s with pwr.peerNext := m.next, pwr.peerVault := true } = true →
        t.pwr.vaultAgreed = true) := by
  obtain ⟨t, agreed, hx, h, gives_up, agrees⟩ := execPower_thin m ha
  have proposed : t.pwr.vaultProposed = (m.ready && s.pwr.vaultProposed) := (field_of_thin (fun u => u.pwr.vaultProposed) h :)
  have hagreed : t.pwr.vaultAgreed = agreed := (field_of_thin (fun u => u.pwr.vaultAgreed) h :)
  have off : t.cle.peerOff = m.slots.foldl (fun v x => putBit v x.1 (!x.2)) s.cle.peerOff :=
    (field_of_thin (fun u => u.cle.peerOff) h :)
  refine ⟨t, hx, (field_of_thin (fun u => u.pwr.peerNext) h :), (field_of_thin (fun u => u.pwr.peerVault) h :), fun hr => ?_,
    fun hs => ?_, fun hacc hprop hr hp hv => ?_⟩
  · rw [proposed, hagreed, hr, gives_up hr]
    exact ⟨rfl, rfl⟩
  · rw [off, hs, List.foldl_nil]
  · rw [hagreed]
    exact agrees hacc hprop (by simp [powerTaken, hr, hp]) hv

/-! ## The entry to VAULT (R95) -/

/-- The head just before the entry: the island is trimmed and the waypoint written. -/
def vaultSaved (s : State) : State := stopWaypoint (trimIsland { s with mmg.nextRefresh := nextRefreshOf s true })

theorem now_vaultSaved (s : State) : now (vaultSaved s) = now s :=
  (now_stopWaypoint _).trans ((now_of_blank (m := 0x100000004) (trimIsland_frame _ _ rfl) rfl).trans rfl)

/-- MODE 4, and the entry runs from now on; the island has the alarm. -/
def vaultBegun (alarm : Option Nat) (s : State) : State :=
  { s with
    glb.mode := .vault, glb.service := false, pwr.vaultAt := some (now s), pwr.vaultWake := false
    island.alarm := alarm, island.cleanStop := true, island.wakeCause := 0, island.wakeL := false, island.wakePending := false }

theorem execVaultEnter_eq (hr : vaultReady { s with mmg.nextRefresh := nextRefreshOf s true } = true)
    (hg : s.pwr.vaultAgreed = true) :
    ∃ alarm ps, execVaultEnter s = .next (vaultBegun alarm (almSaveAll (record 0x010B powerSrc ps (vaultSaved s)))) := by
  unfold execVaultEnter
  extract_lets mmg s' alone u alarm mins src v
  rw [if_pos (by rw [hr, hg]; rfl)]
  exact ⟨alarm, [mins, src], show _ = Host.Outcome.next (vaultBegun alarm v) from rfl⟩

theorem execVaultEnter_effect (hr : vaultReady { s with mmg.nextRefresh := nextRefreshOf s true } = true)
    (hg : s.pwr.vaultAgreed = true) :
    ∃ t, execVaultEnter s = .next t ∧ t.glb.mode = .vault ∧ t.glb.service = false ∧ t.pwr.vaultAt = some (now s) ∧
      t.island.cleanStop = true ∧ t.island.wakeCause = 0 ∧ t.island.wakeL = false := by
  obtain ⟨alarm, ps, hx⟩ := execVaultEnter_eq hr hg
  have time : now (almSaveAll (record 0x010B powerSrc ps (vaultSaved s))) = now s :=
    (thin_now (almSaveAll_thin _)).trans ((now_record _ _ _ _).trans (now_vaultSaved s))
  exact ⟨_, hx, rfl, rfl, congrArg some time, rfl, rfl, rfl⟩

/-! ## Wakes (R50, R83, R96, R97) -/

theorem execIslandWakeAlarm_drives {at_ : Nat} (h : s.island.alarm = some at_) (hv : s.pwr.vaultAt = none) (ht : at_ ≤ islandNow s)
    (hi : s.island.inVault = true) :
    ∃ t, execIslandWakeAlarm true s = .next t ∧ t.island.wakeL = true ∧ t.island.alarm = none ∧
      (t.island.wakeCause = if s.island.wakeCause = 0 then 1 else s.island.wakeCause) ∧ { t with island := s.island } = s := by
  refine ⟨{ s with
    island.alarm := none, island.wakeL := true
    island.wakeCause := if s.island.wakeCause = 0 then 1 else s.island.wakeCause }, ?_, rfl, rfl, rfl, rfl⟩
  simp [execIslandWakeAlarm, h, hv, hi, Nat.not_lt.mpr ht]

/-- What joins the end of a list is the last of its last entries. -/
theorem getLast?_lastN_concat {α : Type} (n : Nat) (l : List α) (a : α) : (lastN (n + 1) (l ++ [a])).getLast? = some a := by
  have hlen : ¬ (l ++ [a]).length ≤ (l ++ [a]).length - (n + 1) := by
    rw [List.length_append, List.length_singleton]
    omega
  rw [lastN, List.getLast?_drop, if_neg hlen, List.getLast?_concat]

/-- The newest record of the island's buffer is the one just raised (R97, R671). -/
theorem islandRecord_newest (time : Nat) (s : State) :
    ((islandRecord time s).island.records.getLast?).map (fun r => (r.source, r.island, r.time)) = some (srcId 7 2 0, true, time) := by
  exact congrArg (Option.map _) (getLast?_lastN_concat 15 s.island.records _)

theorem execIslandWakeAlarm_waits {at_ : Nat} (h : s.island.alarm = some at_) (hv : s.pwr.vaultAt = none) (ht : at_ ≤ islandNow s)
    (hi : s.island.inVault = true) :
    ∃ t, execIslandWakeAlarm false s = .next t ∧ t.island.wakePending = true ∧ t.island.wakeL = s.island.wakeL ∧
      t.island.alarm = none ∧
      (t.island.records.getLast?).map (fun r => (r.source, r.island, r.time)) = some (srcId 7 2 0, true, at_) := by
  have hx : execIslandWakeAlarm false s = .next (islandRecord at_ { s with
      island.alarm := none, island.wakePending := true
      island.wakeCause := if s.island.wakeCause = 0 then 1 else s.island.wakeCause }) := by
    simp [execIslandWakeAlarm, h, hv, hi, Nat.not_lt.mpr ht]
  exact ⟨_, hx, rfl, rfl, rfl, islandRecord_newest _ _⟩

theorem execIslandWakeAlarm_held {at_ : Nat} (mainsRtn : Bool) (h : s.island.alarm = some at_) (hv : s.pwr.vaultAt ≠ none)
    (ht : at_ ≤ now s) :
    execIslandWakeAlarm mainsRtn s = .next
      { s with
        island.alarm := none, pwr.vaultWake := true
        island.wakeCause := if s.island.wakeCause = 0 then 1 else s.island.wakeCause } := by
  simp [execIslandWakeAlarm, h, Option.isSome_iff_ne_none.mpr hv, Nat.not_lt.mpr ht]

theorem execMainsRtn_stopped (h : s.pwr.stepEight = true) :
    execMainsRtn s = .next { s with island.wakeL := true, island.wakeCause := 3 } := if_pos h

theorem execMainsRtn_waiting (h : s.pwr.stepEight = false) (hw : s.island.wakePending = true) :
    execMainsRtn s = .next { s with island.wakeL := true, island.wakePending := false } := by
  simp [execMainsRtn, h, hw]

theorem execWakeLExternal_inVault (hi : s.island.inVault = true) (hv : s.pwr.vaultAt = none) (hc : s.island.wakeCause = 0) :
    execWakeLExternal s = .next { s with island.wakeCause := 2 } := by
  have held : (s.pwr.vaultWake || s.pwr.vaultAt.isSome) = s.pwr.vaultWake := by simp [hv]
  unfold execWakeLExternal
  rw [if_pos (by simp [hi, hc]), held]

theorem execWakeLExternal_entering (hv : s.pwr.vaultAt ≠ none) (hc : s.island.wakeCause = 0) :
    execWakeLExternal s = .next { s with island.wakeCause := 2, pwr.vaultWake := true } := by
  simp [execWakeLExternal, Option.isSome_iff_ne_none.mpr hv, hc]

/-! ## The island's supplies (R98, R714) -/

/-- Both supplies pass their thresholds in one cycle. -/
def suppliesCross (vddioOk : Bool) (mv : Nat) (s : State) : Prop := vddioOk = s.island.onVbat ∧ ¬ (mv < 2500 ↔ s.island.vbatMv < 2500)

theorem execIslandSupplyChange_stays {vddioOk : Bool} {mv : Nat} (h : suppliesCross vddioOk mv s) :
    execIslandSupplyChange vddioOk mv s = .next { s with island.vbatMv := mv } := by
  obtain ⟨hv, hb⟩ := h
  simp [execIslandSupplyChange, hv, hb]

/-- Unless both supplies pass their thresholds, the island takes the one that is there, and is reset without either. -/
theorem execIslandSupplyChange_takes {vddioOk : Bool} {mv : Nat} (h : ¬ suppliesCross vddioOk mv s) :
    execIslandSupplyChange vddioOk mv s =
      if vddioOk then .next { s with island.vbatMv := mv, island.onVbat := false }
      else if mv < 2500 then .next { s with island := islandLoss { s.island with vbatMv := mv } }
      else .next { s with island.vbatMv := mv, island.onVbat := true } := by
  have both : ((vddioOk == s.island.onVbat) && decide (decide (mv < 2500) ≠ decide (s.island.vbatMv < 2500))) = false := by
    simpa [suppliesCross] using h
  simp only [execIslandSupplyChange, both, Bool.false_eq_true, if_false]

theorem execIslandSupplyChange_vddio (mv : Nat) (h : s.island.onVbat = false ∨ (mv < 2500 ↔ s.island.vbatMv < 2500)) :
    execIslandSupplyChange true mv s = .next { s with island.vbatMv := mv, island.onVbat := false } := by
  rw [execIslandSupplyChange_takes, if_pos rfl]
  rintro ⟨hv, hb⟩
  simp_all

theorem execIslandSupplyChange_vbat {mv : Nat} (h : s.island.onVbat = true ∨ 2500 ≤ s.island.vbatMv) (hm : 2500 ≤ mv) :
    execIslandSupplyChange false mv s = .next { s with island.vbatMv := mv, island.onVbat := true } := by
  rw [execIslandSupplyChange_takes, if_neg Bool.false_ne_true, if_neg (Nat.not_lt.mpr hm)]
  rintro ⟨hv, hb⟩
  rcases h with h | h
  · simp [h] at hv
  · omega

theorem execIslandSupplyChange_loss {mv : Nat} (h : s.island.onVbat = true ∨ s.island.vbatMv < 2500) (hm : mv < 2500) :
    ∃ t, execIslandSupplyChange false mv s = .next t ∧ t.island.lost = true ∧ t.island.records = [] ∧
      t.island.cleanStop = false ∧ t.island.highWater = none ∧ { t with island := s.island } = s := by
  refine ⟨{ s with island := islandLoss { s.island with vbatMv := mv } }, ?_, rfl, rfl, rfl, rfl, rfl⟩
  rw [execIslandSupplyChange_takes, if_neg Bool.false_ne_true, if_pos hm]
  rintro ⟨hv, hb⟩
  rcases h with h | h
  · simp [h] at hv
  · omega

/-- Settles O21: each clause is what one command does to the power state, the peer's standing or the island. -/
theorem powerStatesChange : Obligations.PowerStatesChange :=
  ⟨fun _ => execDrowseEntry_enters, fun _ => execDozeEntry_enters, fun _ => execPowerStateExit_effect,
    fun _ => execScheduledExit_effect, fun _ => execPsCtlWrite_effect, fun _ => execVaultProposal_effect, fun _ => execPower_effect,
    fun _ => execVaultEnter_effect, fun _ _ => execIslandWakeAlarm_drives, fun _ _ => execIslandWakeAlarm_waits,
    fun _ _ => execIslandWakeAlarm_held, fun _ => execMainsRtn_stopped, fun _ => execMainsRtn_waiting, fun _ _ => rfl,
    fun _ => execWakeLExternal_inVault, fun _ => execWakeLExternal_entering, fun _ => execIslandSupplyChange_vddio,
    fun _ _ _ hv hb => execIslandSupplyChange_stays ⟨hv, hb⟩, fun _ _ => execIslandSupplyChange_vbat,
    fun _ _ => execIslandSupplyChange_loss⟩

end Sys2Proof.Machine
end

section
/-!
Every step keeps the byte memories in their canonical form. A command whose row of `mayChange` lists no part with a byte memory leaves
all four as they were; every other command has its lemma `f_wf` in Laws/Wf.lean.
-/
set_option Elab.async false
namespace Sys2Proof.Machine

variable {s t : State}

/-- The parts of State that hold a byte memory: the staging buffer, the NOR, the landing zone and the SRAM windows. -/
def memoryParts : List Part := [.upd, .nor, .lz, .sram]

/-- The command may change no part that holds a byte memory. -/
def sparesMemories (c : Instr) : Bool := memoryParts.all fun p => !(mayChange c).contains p

theorem memoriesWf_of_same (h : ∀ p ∈ memoryParts, p.same s t) : memoriesWf t = memoriesWf s := by
  have upd : t.upd = s.upd := h .upd (by decide)
  have nor : t.nor = s.nor := h .nor (by decide)
  have lz : t.lz = s.lz := h .lz (by decide)
  have sram : t.sram = s.sram := h .sram (by decide)
  simp only [memoriesWf, upd, nor, lz, sram]

theorem exec_outWf_of_spares {c : Instr} (hc : sparesMemories c = true) (h : memoriesWf s = true) : outWf (exec c s) := by
  cases hx : exec c s with
  | next t =>
    have spared : ∀ p ∈ memoryParts, p ∉ mayChange c := by simpa [sparesMemories] using hc
    have same : ∀ p ∈ memoryParts, p.same s t := fun p hp => exec_keepsOutside c s t p hx (spared p hp)
    rw [outWf_next, memoriesWf_of_same same, h]
  | fault => trivial
  | refused => trivial

/-- The commands that may write a byte memory, each by its own lemma, and the others by their rows of `mayChange`. -/
theorem exec_outWf (c : Instr) (h : memoriesWf s = true) : outWf (exec c s) := by
  cases c with
  | registerWrite ep off w => exact execRegisterWrite_wf ep off w s h
  | lowHalfWrite ep off w => exact execLowHalfWrite_wf ep off w s h
  | barAccessError ep bar off size acc => exact execBarAccessError_wf ep bar off size acc s h
  | bar2Request ep ev => exact execBar2Request_wf ep ev s h
  | supervisorDivergence => exact execSupervisorDivergence_wf s h
  | watchdogTimeout block n => exact execWatchdogTimeout_wf block n s h
  | chipRstL start => exact execChipRstL_wf start s h
  | startDone ms => exact execStartDone_wf ms s h
  | rideThroughExpiry => exact execRideThroughExpiry_wf s h
  | bankDischarge => exact execBankDischarge_wf s h
  | flushDone => exact execFlushDone_wf s h
  | pmbusPoll reads => exact execPmbusPoll_wf reads s h
  | pmbusAlert m0 m1 => exact execPmbusAlert_wf m0 m1 s h
  | vaultEnter => exact execVaultEnter_wf s h
  | lcChangeDone => exact execLcChangeDone_wf s h
  | transferError ep n what addr => exact execTransferError_wf ep n what addr s h
  | read q tag words plist media => exact execRead_wf q tag words plist media s h
  | write q tag words plist => exact execWrite_wf q tag words plist s h
  | flush q tag words => exact execFlush_wf q tag words s h
  | discard q tag words => exact execDiscard_wf q tag words s h
  | rasterHint q tag words => exact execRasterHint_wf q tag words s h
  | fixity q tag words media => exact execFixity_wf q tag words media s h
  | retain q tag words => exact execRetain_wf q tag words s h
  | snapshot q tag words => exact execSnapshot_wf q tag words s h
  | clone q tag words => exact execClone_wf q tag words s h
  | snapDelete q tag words => exact execSnapDelete_wf q tag words s h
  | query q tag words => exact execQuery_wf q tag words s h
  | createQueue q tag words => exact execCreateQueue_wf q tag words s h
  | deleteQueue q tag words => exact execDeleteQueue_wf q tag words s h
  | resetQueue q tag words => exact execResetQueue_wf q tag words s h
  | createVolume q tag words => exact execCreateVolume_wf q tag words s h
  | deleteVolume q tag words => exact execDeleteVolume_wf q tag words s h
  | setPeriod q tag words => exact execSetPeriod_wf q tag words s h
  | setTime q tag words => exact execSetTime_wf q tag words s h
  | powerHint q tag words => exact execPowerHint_wf q tag words s h
  | asyncEvent q tag words => exact execAsyncEvent_wf q tag words s h
  | queryDevice q tag words => exact execQueryDevice_wf q tag words s h
  | fencedCommandStart q tag gen media => exact execFencedCommandStart_wf q tag gen media s h
  | rdmaWrite r key off data => exact execRdmaWrite_wf r key off data s h
  | rdmaWriteWithImmediate r key off data imm => exact execRdmaWriteWithImmediate_wf r key off data imm s h
  | replicationCut l ship media => exact execReplicationCut_wf l ship media s h
  | batchApply l imm => exact execBatchApply_wf l imm s h
  | batchResend l media => exact execBatchResend_wf l media s h
  | assemblyDelayExpiry v chunk media copies => exact execAssemblyDelayExpiry_wf v chunk media copies s h
  | assemblyStart v chunk media copies => exact execAssemblyStart_wf v chunk media copies s h
  | verifyOnMatch v chunk lane media => exact execVerifyOnMatch_wf v chunk lane media s h
  | kernelDecode obj snap lane media => exact execKernelDecode_wf obj snap lane media s h
  | protectChunk obj lane => exact execProtectChunk_wf obj lane s h
  | drbgFail => exact execDrbgFail_wf s h
  | drbgRetry ok => exact execDrbgRetry_wf ok s h
  | clkGlitch => exact execClkGlitch_wf s h
  | voltGlitch => exact execVoltGlitch_wf s h
  | maskFault src => exact execMaskFault_wf src s h
  | keyStore reloadOk => exact execKeyStore_wf reloadOk s h
  | csJobDone => exact execCsJobDone_wf s h
  | digestDone => exact execDigestDone_wf s h
  | dmlIdent p d => exact execDmlIdent_wf p d s h
  | telem p t => exact execTelem_wf p t s h
  | gcState slot die media => exact execGcState_wf slot die media s h
  | wlMove slot die media => exact execWlMove_wf slot die media s h
  | refreshClass slot die plane block media => exact execRefreshClass_wf slot die plane block media s h
  | waypointComplete => exact execWaypointComplete_wf s h
  | stripeRebuilt serial pos reads => exact execStripeRebuilt_wf serial pos reads s h
  | stripeResync reads => exact execStripeResync_wf reads s h
  | patrol check => exact execPatrol_wf check s h
  | reshape media => exact execReshape_wf media s h
  | fwdCmd q tag gen words tenant abort media => exact execFwdCmd_wf q tag gen words tenant abort media s h
  | fwdData q tag gen kind idx data => exact execFwdData_wf q tag gen kind idx data s h
  | fenceResult => exact execFenceResult_wf s h
  | dramCe c read written => exact execDramCe_wf c read written s h
  | dramUe c read => exact execDramUe_wf c read s h
  | patrolScrub c burst written => exact execPatrolScrub_wf c burst written s h
  | dimmTempRead c t => exact execDimmTempRead_wf c t s h
  | avsMarginFail => exact execAvsMarginFail_wf s h
  | dieOvertemp => exact execDieOvertemp_wf s h
  | errorReport src e => exact execErrorReport_wf src e s h
  | selfTest src pass rows ms => exact execSelfTest_wf src pass rows ms s h
  | failstop cause src => exact execFailstop_wf cause src s h
  | wholeChipTestEnd fails map => exact execWholeChipTestEnd_wf fails map s h
  | norEntryProgram => exact execNorEntryProgram_wf s h
  | birthRefresh => exact execBirthRefresh_wf s h
  | almanacClear w => exact execAlmanacClear_wf w s h
  | clearEraseDone => exact execClearEraseDone_wf s h
  | updOpen => exact execUpdOpen_wf s h
  | updDataWrite idx w => exact execUpdDataWrite_wf idx w s h
  | stagingTimeout => exact execStagingTimeout_wf s h
  | stageFw slot => exact execStageFw_wf slot s h
  | stageCfg => exact execStageCfg_wf s h
  | staged done start => exact execStaged_wf done start s h
  | updActivate confirm => exact execUpdActivate_wf confirm s h
  | updRestart confirm => exact execUpdRestart_wf confirm s h
  | updAbort => exact execUpdAbort_wf s h
  | updRun start => exact execUpdRun_wf start s h
  | updateReset start => exact execUpdateReset_wf start s h
  | fwConfirmed => exact execFwConfirmed_wf s h
  | fwFallback start => exact execFwFallback_wf start s h
  | _ => exact exec_outWf_of_spares rfl h

/-- Settles O4: a step is a tick, or the front command of the queue in the state without it, whose memories are those of `s`. -/
theorem memoriesStayCanonical : Obligations.MemoriesStayCanonical := by
  intro s t h hstep
  cases hq : s.pending with
  | nil =>
    rw [step_of_empty hq] at hstep
    cases hstep
    exact tick_wf s h
  | cons c rest =>
    rw [step_of_front hq] at hstep
    have front : outWf (exec c { s with pending := rest }) := exec_outWf c h
    rwa [hstep] at front

end Sys2Proof.Machine
end

section
/-!
The endpoints: what stands of one while it sends, reads host memory, signals its errors and its head keeps records (`epSettings`), and
what its enables and its held queues are after a change. `field_of_settings` reads a field off behind such an operation.
-/
set_option Elab.async false
namespace Sys2Proof.Machine

variable {s t : State} {ep : Nat}

/-! ## Reading an endpoint after an update -/

theorem epOf_modEp {f : Endpoint → Endpoint} (h : ep < s.eps.length) : epOf (modEp ep f s) ep = f (epOf s ep) := by
  simp [epOf, modEp, List.getD_eq_getElem?_getD, h]

/-- A field that an update of any endpoint leaves is as it was in every endpoint. -/
theorem epField_modEp {α : Type} {g : Endpoint → α} {f : Endpoint → Endpoint} (h : ∀ e, g (f e) = g e) (a ep : Nat) (s : State) :
    g (epOf (modEp a f s) ep) = g (epOf s ep) := by
  simp only [epOf, modEp, List.getD_eq_getElem?_getD, List.getElem?_modify]
  cases s.eps[ep]? with
  | none => rfl
  | some e =>
    change g (if a = ep then f e else e) = g e
    split
    · exact h e
    · rfl

theorem getD_modify {α : Type} {l : List α} {i : Nat} {f : α → α} {d : α} (h : i < l.length) :
    (l.modify i f).getD i d = f (l.getD i d) := by
  simp [List.getD_eq_getElem?_getD, h]

/-- What `thinEp` does not blank is as it was in an endpoint of a state with the same thin state. -/
theorem epField_of_thin {α : Type} (g : Endpoint → α) (h : thin t = thin s) (ep : Nat)
    (hg : ∀ e, g (thinEp e) = g e := by intro e; rfl) : g (epOf t ep) = g (epOf s ep) := by
  rw [← hg (epOf t ep), thin_epOf h, hg]

/-! ## What an endpoint's own traffic leaves -/

/-- An endpoint without its pending interrupts, its requests and the turn of its reads, and the errors that AER shows. -/
def epSettings (e : Endpoint) : Endpoint :=
  { thinEp e with reads := [], engineWait := [], dataWait := [], dataTurn := false, lastQueue := 0, aerUnc := 0, aerCor := 0 }

/-- The settings of endpoint `ep`. -/
def epSettingsOf (ep : Nat) (s : State) : Endpoint := epSettings (epOf s ep)

theorem field_of_settings {α : Type} (g : Endpoint → α) (h : epSettingsOf ep t = epSettingsOf ep s)
    (hg : ∀ e, g (epSettings e) = g e := by intro e; rfl) : g (epOf t ep) = g (epOf s ep) :=
  calc g (epOf t ep) = g (epSettingsOf ep t) := (hg _).symm
    _ = g (epSettingsOf ep s) := by rw [h]
    _ = g (epOf s ep) := hg _

theorem settings_of_thin (ep : Nat) (h : thin t = thin s) : epSettingsOf ep t = epSettingsOf ep s := epField_of_thin epSettings h ep

theorem emit_settings (ep : Nat) (o : Output) (s : State) : epSettingsOf ep (emit o s) = epSettingsOf ep s := rfl

theorem emit_if_settings (ep : Nat) (b : Bool) (o : Output) (s : State) :
    epSettingsOf ep (if b then emit o s else s) = epSettingsOf ep s := by
  cases b <;> rfl

theorem settings_modEp (a ep : Nat) (f : Endpoint → Endpoint) (s : State)
    (h : ∀ e, epSettings (f e) = epSettings e := by intro e; rfl) : epSettingsOf ep (modEp a f s) = epSettingsOf ep s :=
  epField_modEp h a ep s

/-- A pending vector that is sent is pending no longer (R204). -/
theorem sendPendingVec_thin (ep v : Nat) (s : State) : thin (sendPendingVec ep v s) = thin s := by
  unfold sendPendingVec
  split
  · exact (raiseVec_thin ep v _).trans (modEp_thin ep _ s fun _ => rfl)
  · rfl

theorem sendPending_thin (ep : Nat) (s : State) : thin (sendPending ep s) = thin s :=
  foldl_thin (fun s v => sendPendingVec_thin ep v s) _ s

/-- A read leaves only the turn of the reads and what waits to be read (R195, R214). -/
theorem sendRead_settings (a : Nat) (r : HostRead) (ep : Nat) (s : State) : epSettingsOf ep (sendRead a r s) = epSettingsOf ep s := by
  have asked : epSettingsOf ep (noteAsked a r s) = epSettingsOf ep s :=
    (settings_modEp a ep _ _).trans (settings_of_thin ep (modQueue_thin _ _ s))
  refine (emit_settings ep _ _).trans ((settings_modEp a ep _ _).trans ?_)
  split
  · exact asked
  · rfl

theorem pumpReads_settings (a n ep : Nat) (s : State) : epSettingsOf ep (pumpReads a n s) = epSettingsOf ep s := by
  induction n generalizing s with
  | zero => rfl
  | succ n ih =>
    rw [pumpReads]
    split
    · split
      · exact (ih _).trans (sendRead_settings a _ ep s)
      · rfl
    · rfl

theorem issueReads_settings (a ep : Nat) (s : State) : epSettingsOf ep (issueReads a s) = epSettingsOf ep s :=
  pumpReads_settings a _ ep s

theorem setHeld_epOf (a ep : Nat) (s : State) : epOf (setHeld a s) ep = epOf s ep := rfl

/-- What an endpoint held back leaves when it issues requests again: its writes, its reads, its queues' completions and its interrupts
(R200). -/
theorem resumeEp_settings (a ep : Nat) (s : State) : epSettingsOf ep (resumeEp a s) = epSettingsOf ep s := by
  have held : epSettingsOf ep (setHeld a s) = epSettingsOf ep s := congrArg epSettings (setHeld_epOf a ep s)
  have writes (u : State) (w : BitVec 64 × List (BitVec 8)) : epSettingsOf ep (hostWriteReq a w.1 w.2 u) = epSettingsOf ep u :=
    settings_of_thin ep (hostWriteReq_thin a w.1 w.2 u)
  have queues (u : State) (id : QueueId) : epSettingsOf ep (releaseQueue id u) = epSettingsOf ep u :=
    settings_of_thin ep (releaseQueue_thin id u)
  have vectors (u : State) : epSettingsOf ep (sendPending a u) = epSettingsOf ep u := settings_of_thin ep (sendPending_thin a u)
  unfold resumeEp
  extract_lets s₀ ws s₁ s₂ s₃ ids
  split
  · exact held
  · calc epSettingsOf ep (sendPending a (ids.foldl (fun s id => releaseQueue id s) s₃))
        = epSettingsOf ep (ids.foldl (fun s id => releaseQueue id s) s₃) := vectors _
      _ = epSettingsOf ep s₃ := foldl_keeps queues ids s₃
      _ = epSettingsOf ep s₂ := issueReads_settings a ep s₂
      _ = epSettingsOf ep s₁ := foldl_keeps writes ws s₁
      _ = epSettingsOf ep s₀ := settings_modEp a ep _ s₀
      _ = epSettingsOf ep s := held

/-! ## Errors (R186, R189, R196) -/

theorem aerCorrectable_settings (a bit ep : Nat) (s : State) : epSettingsOf ep (aerCorrectable a bit s) = epSettingsOf ep s :=
  (emit_if_settings ep _ _ _).trans (settings_modEp a ep _ s)

theorem aerUncorrectable_settings (a bit : Nat) (answered : Bool) (ep : Nat) (s : State) :
    epSettingsOf ep (aerUncorrectable a bit answered s) = epSettingsOf ep s := by
  unfold aerUncorrectable
  extract_lets e fatal marked
  have status : epSettingsOf ep marked = epSettingsOf ep s := settings_modEp a ep _ s
  split
  · split
    · exact (settings_modEp a ep _ marked).trans status
    · exact (aerCorrectable_settings a 13 ep marked).trans status
  · exact (emit_if_settings ep _ _ marked).trans status

/-- A request outside the windows is marked, and the first such address is kept (R189). -/
theorem outside_marks (write : Bool) (addr : BitVec 64) (h : ep < s.eps.length) :
    (epOf (outside ep write addr s) ep).urSeen = true ∧
      (epOf (outside ep write addr s) ep).urAddr = if (epOf s ep).urSeen then (epOf s ep).urAddr else addr := by
  unfold outside
  extract_lets answered marked
  have hep : epOf answered ep = epOf s ep := by unfold answered; split <;> rfl
  have hlen : ep < answered.eps.length := by unfold answered; split <;> exact h
  have mark : epOf marked ep = _ := epOf_modEp hlen
  have same (ps : List Nat) :
      epSettingsOf ep (record 0x0404 (epSrc ep) ps (aerUncorrectable ep 20 (!write) marked)) = epSettingsOf ep marked :=
    (settings_of_thin ep (record_thin _ _ _ _)).trans (aerUncorrectable_settings ep 20 _ ep marked)
  rw [field_of_settings Endpoint.urSeen (same _), field_of_settings Endpoint.urAddr (same _), mark, hep]
  exact ⟨rfl, rfl⟩

/-! ## Queues held (R200) -/

/-- The queues of an endpoint that issues no requests are held. -/
theorem setHeld_held (h : epHeld (epOf s ep) = true) : ∀ q ∈ (setHeld ep s).dcq.queues, queueOn ep q.id = true → q.held = true := by
  intro q hq on
  obtain ⟨p, -, rfl⟩ := List.mem_map.mp hq
  by_cases his : queueOn ep p.id = true
  · rw [if_pos his]
    exact h
  · rw [if_neg his] at on
    exact absurd on his

end Sys2Proof.Machine
end

section
/-!
Requests to BAR2 and accesses to BAR4 (R187 to R189, R192, R204), and O8.
-/
set_option Elab.async false
namespace Sys2Proof.Machine

variable {s : State} {ep : Nat}

theorem memOn_of_d0 (hm : (epOf s ep).mse = true) (hd : (epOf s ep).d3 = false) : memOn s ep = true := by simp [memOn, hm, hd]

/-! ## BAR2 -/

/-- A request that stays in flight carries the window table generation (R192, R193). -/
def requestBound (ep : Nat) (stays : Bool) (s : State) : State :=
  if stays then modEp ep (fun e => { e with inFlight := e.inFlight ++ [e.winGen] }) s else s

/-- A read answers the bytes of the window's space from `a`, and a write puts at most `len` of its bytes there (R189). -/
def windowServed (ep len a : Nat) (x : Window) (data : Option (List (BitVec 8))) (s : State) : State :=
  match data with
  | none => emit (.readData ep (spaceRead s x.space a len)) s
  | some bs => spaceWrite x.space a (bs.take len) s

/-- A request within a window is bound and served at the window's target. -/
theorem execBar2Request_within {off len : Nat} {data : Option (List (BitVec 8))} {x : Window} (stays : Bool)
    (hu : epInUse s ep = true) (hl : (epOf s ep).linkUp = true) (hm : memOn s ep = true)
    (hx : windowFor s ep off len data.isSome = some x) :
    execBar2Request ep (.request off len data stays) s =
      .next (windowServed ep len (x.tgt + off % 2 ^ 30) x data (requestBound ep stays s)) := by
  simp only [execBar2Request, hu, hl, hm, hx, Bool.and_self, if_true]
  cases data <;> rfl

/-- A request in no window is outside (R189). -/
theorem execBar2Request_outside {off len : Nat} {data : Option (List (BitVec 8))} (stays : Bool)
    (hu : epInUse s ep = true) (hl : (epOf s ep).linkUp = true) (hx : windowFor s ep off len data.isSome = none) :
    execBar2Request ep (.request off len data stays) s =
      .next (outside ep data.isSome ((epOf s ep).bar2 + BitVec.ofNat 64 off) s) := by
  simp only [execBar2Request, hu, hl, hx, Bool.and_self, if_true, ite_self]

theorem execBar2Request_writes {off len : Nat} {x : Window} (bs : List (BitVec 8)) (stays : Bool)
    (hu : epInUse s ep = true) (hl : (epOf s ep).linkUp = true) (hm : (epOf s ep).mse = true) (hd : (epOf s ep).d3 = false)
    (hx : windowFor s ep off len true = some x) (hz : x.space = 0) :
    ∃ t, exec (.bar2Request ep (.request off len (some bs) stays)) s = .next t ∧
      t.lz = memWriteBytes 0 s.lz (x.tgt + off % 2 ^ 30) (bs.take len) ∧ t.sram = s.sram := by
  have bound : (requestBound ep stays s).lz = s.lz ∧ (requestBound ep stays s).sram = s.sram := by
    unfold requestBound
    split <;> exact ⟨rfl, rfl⟩
  obtain ⟨lz, sram⟩ := bound
  refine ⟨_, execBar2Request_within stays hu hl (memOn_of_d0 hm hd) hx, ?_⟩
  simp only [windowServed, spaceWrite, hz, if_true, lz, sram, and_self]

theorem execBar2Request_reads {off len : Nat} {x : Window}
    (hu : epInUse s ep = true) (hl : (epOf s ep).linkUp = true) (hm : (epOf s ep).mse = true) (hd : (epOf s ep).d3 = false)
    (hx : windowFor s ep off len false = some x) :
    exec (.bar2Request ep (.request off len none false)) s =
      .next (emit (.readData ep (spaceRead s x.space (x.tgt + off % 2 ^ 30) len)) s) :=
  execBar2Request_within (data := none) false hu hl (memOn_of_d0 hm hd) hx

theorem execBar2Request_unserved {off len : Nat} {data : Option (List (BitVec 8))} (stays : Bool)
    (hu : epInUse s ep = true) (hl : (epOf s ep).linkUp = true) (hseen : (epOf s ep).urSeen = false) (hep : ep < s.eps.length)
    (hx : windowFor s ep off len data.isSome = none) :
    ∃ t, exec (.bar2Request ep (.request off len data stays)) s = .next t ∧ (epOf t ep).urSeen = true ∧
      (epOf t ep).urAddr = (epOf s ep).bar2 + BitVec.ofNat 64 off ∧ t.lz = s.lz ∧ t.sram = s.sram := by
  have frame (addr : BitVec 64) := outside_frame ep data.isSome addr s 0x83204C8E rfl
  obtain ⟨seen, address⟩ := outside_marks data.isSome ((epOf s ep).bar2 + BitVec.ofNat 64 off) hep
  rw [hseen] at address
  exact ⟨_, execBar2Request_outside stays hu hl hx, seen, address, field_of_blank State.lz (frame _) fun _ => rfl,
    field_of_blank State.sram (frame _) fun _ => rfl⟩

/-! ## BAR4 -/

/-- An access that BAR4 serves (R187, R203). -/
theorem execBar4Access_served {off size : Nat} (data : Option (BitVec 64)) (hs : epServes s ep = true) (hm : memOn s ep = true)
    (hb : bar4Served off size = true) : execBar4Access ep off size data s = .next (bar4Access ep off size data s) := by
  simp [execBar4Access, hs, hm, hb]

/-- The data word of an entry is the third of its four, in a table of 257 entries (R187). -/
theorem entryData_place {i : Nat} (hi : i < 257) : 16 * i + 8 < 4112 ∧ (16 * i + 8) % 16 = 8 ∧ (16 * i + 8) / 16 = i := by
  omega

theorem bar4Served_entryData {i : Nat} (hi : i < 257) : bar4Served (16 * i + 8) 4 = true := by
  have fits : 16 * i + 8 + 4 ≤ 0x4000 := by omega
  have aligned : (16 * i + 8) % 4 = 0 := by omega
  simp [bar4Served, fits, aligned]

theorem bar4Word_entryData {i : Nat} (hi : i < 257) (e : Endpoint) :
    bar4Word e (16 * i + 8) = (e.msix.getD i MsixEntry.reset).data := by
  obtain ⟨inTable, word, entry⟩ := entryData_place hi
  simp only [bar4Word, inTable, word, entry, if_true]
  rfl

theorem bar4Write_entryData {i : Nat} (hi : i < 257) (w : BitVec 32) (e : Endpoint) :
    (bar4Write (16 * i + 8) w e).msix = e.msix.modify i fun m => { m with data := w } := by
  obtain ⟨inTable, word, entry⟩ := entryData_place hi
  simp only [bar4Write, inTable, word, entry, if_true]
  rfl

theorem join64_zero_high (w : BitVec 32) : join64 0 w = w.setWidth 64 :=
  (BitVec.setWidth_eq_append (by decide : 32 ≤ 64)).symm

theorem execBar4Access_writesData {i : Nat} (v : BitVec 64) (hs : epServes s ep = true) (hm : memOn s ep = true)
    (hep : ep < s.eps.length) (hi : i < 257) :
    ∃ t, exec (.bar4Access ep (16 * i + 8) 4 (some v)) s = .next t ∧
      (epOf t ep).msix = (epOf s ep).msix.modify i fun m => { m with data := lo32 v } := by
  refine ⟨_, execBar4Access_served _ hs hm (bar4Served_entryData hi), ?_⟩
  refine (epField_of_thin Endpoint.msix (sendPending_thin ep _) ep).trans ?_
  rw [epOf_modEp hep]
  exact bar4Write_entryData hi (lo32 v) (epOf s ep)

theorem execBar4Access_readsData {i : Nat} (hs : epServes s ep = true) (hm : memOn s ep = true) (hi : i < 257) :
    ∃ t, exec (.bar4Access ep (16 * i + 8) 4 none) s = .next t ∧
      t.hostData = (((epOf s ep).msix.getD i MsixEntry.reset).data).setWidth 64 ∧ t.eps = s.eps := by
  refine ⟨_, execBar4Access_served _ hs hm (bar4Served_entryData hi), ?_, rfl⟩
  rw [← bar4Word_entryData hi]
  exact join64_zero_high _

/-- Settles O8: a clause for each way in which BAR2 or BAR4 serves a request, or does not. -/
theorem windowAccessesComplete : Obligations.WindowAccessesComplete :=
  ⟨fun _ _ _ _ bs stays _ => execBar2Request_writes bs stays, fun _ _ _ _ _ => execBar2Request_reads,
    fun _ _ _ _ _ stays hu hl _ _ => execBar2Request_unserved stays hu hl,
    fun _ _ _ v hs hm hep _ => execBar4Access_writesData v hs hm hep, fun _ _ _ => execBar4Access_readsData⟩

end Sys2Proof.Machine
end

section
/-!
The enables of an endpoint, its windows' commits and its vectors' masks (R190, R191, R200, R203, R204), and O10.
-/
set_option Elab.async false
namespace Sys2Proof.Machine

variable {s : State} {ep : Nat}

/-! ## D3hot, D0 and Bus Master Enable (R199, R200) -/

theorem inUse_and_linkUp (hu : epInUse s ep = true) (hl : (epOf s ep).linkUp = true) :
    (epInUse s ep && (epOf s ep).linkUp) = true := by
  rw [hu, hl]
  rfl

theorem epHeld_of_d3 {e : Endpoint} (h : e.d3 = true) : epHeld e = true := by simp [epHeld, h]

theorem epHeld_of_not_bme {e : Endpoint} (h : e.bme = false) : epHeld e = true := by simp [epHeld, h]

theorem execD3hot_effect (hu : epInUse s ep = true) (hl : (epOf s ep).linkUp = true) (hep : ep < s.eps.length) :
    ∃ t, exec (.d3hot ep) s = .next t ∧ (epOf t ep).d3 = true ∧
      (∀ q ∈ t.dcq.queues, queueOn ep q.id = true → q.held = true) := by
  have d3 : (epOf (modEp ep (fun e => { e with d3 := true }) s) ep).d3 = true := by rw [epOf_modEp hep]
  exact ⟨_, if_pos (inUse_and_linkUp hu hl), d3, setHeld_held (epHeld_of_d3 d3)⟩

theorem execD0Entry_effect (hu : epInUse s ep = true) (hl : (epOf s ep).linkUp = true) (hep : ep < s.eps.length) :
    ∃ t, exec (.d0Entry ep) s = .next t ∧ (epOf t ep).d3 = false := by
  refine ⟨_, if_pos (inUse_and_linkUp hu hl), ?_⟩
  rw [field_of_settings Endpoint.d3 (resumeEp_settings ep ep _), epOf_modEp hep]

theorem execBusMasterEnableCleared_effect (writes : List (Nat × BitVec 32)) (hu : epInUse s ep = true)
    (hl : (epOf s ep).linkUp = true) (hep : ep < s.eps.length) :
    ∃ t, exec (.busMasterEnableCleared { ep := ep, writes := writes }) s = .next t ∧ (epOf t ep).bme = false ∧
      (∀ q ∈ t.dcq.queues, queueOn ep q.id = true → q.held = true) := by
  have bme : (epOf (modEp ep (fun e => { configWrites s writes e with bme := false }) s) ep).bme = false := by rw [epOf_modEp hep]
  exact ⟨_, if_pos (inUse_and_linkUp hu hl), bme, setHeld_held (epHeld_of_not_bme bme)⟩

theorem execBusMasterEnableSet_effect (writes : List (Nat × BitVec 32)) (hu : epInUse s ep = true)
    (hl : (epOf s ep).linkUp = true) (hep : ep < s.eps.length) :
    ∃ t, exec (.busMasterEnableSet ep writes) s = .next t ∧ (epOf t ep).bme = true ∧
      (epOf t ep).mse = (configWrites s writes (epOf s ep)).mse ∧
      (epOf t ep).bar0 = (configWrites s writes (epOf s ep)).bar0 := by
  refine ⟨_, if_pos (inUse_and_linkUp hu hl), ?_⟩
  have resumed := resumeEp_settings ep ep (modEp ep (fun e => { configWrites s writes e with bme := true }) s)
  rw [field_of_settings Endpoint.bme resumed, field_of_settings Endpoint.mse resumed,
    field_of_settings Endpoint.bar0 resumed, epOf_modEp hep]
  exact ⟨rfl, rfl, rfl⟩

/-! ## Window commits (R190, R191) -/

theorem execWinCommit_served {i : Nat} (w : BitVec 32) (hs : epServes s ep = true) (hm : memOn s ep = true)
    (hw : hostWriteOk s 0x04 = true) (hi : i < localWindows s) : exec (.winCommit ep i w) s = .next (winCommit ep i w s) := by
  have windows := localWindows_le s
  have block : (0x41008 + 16 * i) / 0x10000 = 0x04 := by omega
  exact congrArg Host.Outcome.next (regWrite_of_served _ hs hm (by rwa [block]))

theorem execWinCommit_takes {i : Nat} (w : BitVec 32) (hs : epServes s ep = true) (hm : memOn s ep = true)
    (hw : hostWriteOk s 0x04 = true) (hep : ep < s.eps.length) (hi : i < localWindows s) (hlen : i < (epOf s ep).windows.length)
    (hr : winRefused s w (((epOf s ep).windows.getD i Window.reset).reg).toNat = false) :
    ∃ t, exec (.winCommit ep i w) s = .next t ∧ (epOf t ep).winGen = (epOf s ep).winGen + 1 ∧
      ((epOf t ep).windows.getD i Window.reset).valid = bitOf w 0 ∧
      ((epOf t ep).windows.getD i Window.reset).tgt = (((epOf s ep).windows.getD i Window.reset).reg).toNat := by
  refine ⟨_, execWinCommit_served w hs hm hw hi, ?_⟩
  simp only [winCommit, hi, hr, if_true, Bool.false_eq_true, if_false, epOf_modEp hep, getD_modify hlen, and_self]

theorem execWinCommit_refused {i : Nat} (w : BitVec 32) (hs : epServes s ep = true) (hm : memOn s ep = true)
    (hw : hostWriteOk s 0x04 = true) (hep : ep < s.eps.length) (hi : i < localWindows s)
    (hr : winRefused s w (((epOf s ep).windows.getD i Window.reset).reg).toNat = true) :
    ∃ t, exec (.winCommit ep i w) s = .next t ∧ (epOf t ep).winErr = true ∧ (epOf t ep).windows = (epOf s ep).windows ∧
      (epOf t ep).winGen = (epOf s ep).winGen := by
  have refused : winCommit ep i w s = record 0x0406 (epSrc ep) [ep, i] (modEp ep (fun e => { e with winErr := true }) s) := by
    simp only [winCommit, hi, hr, if_true]
  have recorded := record_thin 0x0406 (epSrc ep) [ep, i] (modEp ep (fun e => { e with winErr := true }) s)
  refine ⟨_, execWinCommit_served w hs hm hw hi, ?_⟩
  rw [refused, epField_of_thin Endpoint.winErr recorded, epField_of_thin Endpoint.windows recorded,
    epField_of_thin Endpoint.winGen recorded, epOf_modEp hep]
  exact ⟨rfl, rfl, rfl⟩

/-! ## Vectors unmasked (R204) -/

/-- The mask bit of a vector's control word is 0 once it is cleared. -/
theorem maskBit_cleared (c : BitVec 32) : c &&& 0xFFFFFFFE &&& 1 = 0 := by
  rw [BitVec.and_assoc]
  exact BitVec.and_zero

theorem execVectorUnmask_effect {v : Nat} (hu : epInUse s ep = true) (hl : (epOf s ep).linkUp = true) (hep : ep < s.eps.length)
    (hv : v < (epOf s ep).msix.length) :
    ∃ t, exec (.vectorUnmask ep (some v)) s = .next t ∧ ((epOf t ep).msix.getD v MsixEntry.reset).ctl &&& 1 = 0 ∧
      (epOf t ep).msixMask = (epOf s ep).msixMask := by
  refine ⟨_, if_pos (inUse_and_linkUp hu hl), ?_⟩
  have sent (u : State) := sendPendingVec_thin ep v u
  rw [epField_of_thin Endpoint.msix (sent _), epField_of_thin Endpoint.msixMask (sent _), epOf_modEp hep]
  refine ⟨?_, rfl⟩
  rw [getD_modify hv]
  exact maskBit_cleared _

/-- Settles O10: each clause is what one command sets, read off behind the traffic that the change lets go. -/
theorem endpointEnablesComplete : Obligations.EndpointEnablesComplete :=
  ⟨fun _ _ => execD3hot_effect, fun _ _ => execD0Entry_effect, fun _ _ => execBusMasterEnableCleared_effect,
    fun _ _ => execBusMasterEnableSet_effect, fun _ _ _ => execWinCommit_takes, fun _ _ _ => execWinCommit_refused,
    fun _ _ _ => execVectorUnmask_effect⟩

end Sys2Proof.Machine
end
